-- ==== Sys2Proof/Word.lean ====
section
/-!
DEFINITION. The word types of the block and their plainest arithmetic.
-/

namespace Sys2Proof

abbrev Byte := BitVec 8
abbrev W16 := BitVec 16
abbrev W32 := BitVec 32
abbrev W64 := BitVec 64

/-- A bit as a word of one. -/
abbrev bit (b : Bool) : Nat := if b then 1 else 0

end Sys2Proof
end

