-- ==== Sys2Proof/Types.lean ====
section
/-!
DEFINITION. The small types that commands and state share: names of agents, classes and lines, and the contents of the
messages and frames that events bring from outside the module.
-/

namespace Sys2Proof

/-- The task classes (R37), numbered as `CLASS` of the chain descriptor (R73). -/
inductive Cls where
  | e | f | n | s
  deriving DecidableEq, Repr, Inhabited

def Cls.num : Cls → Nat
  | .e => 0 | .f => 1 | .n => 2 | .s => 3

def Cls.ofCode : Nat → Cls
  | 0 => .e | 1 => .f | 2 => .n | _ => .s

/-- The class whose window a class uses: E uses that of F (R120). -/
def Cls.window : Cls → Cls
  | .e => .f | c => c

/-- The two slots of the Bogie (R194). -/
inductive Slot where
  | a | b
  deriving DecidableEq, Repr, Inhabited

/-- The module states (R4), in the order of Table: Module states. -/
inductive ModState where
  | off | boot | config | syncing | standby | primary | alone | service | stopped
  deriving DecidableEq, Repr, Inhabited

/-- The three masters that reach the setup window (R480). -/
inductive Master where
  | mc | host0 | host1
  deriving DecidableEq, Repr, Inhabited

/-- What the error-correcting code finds at one read of a word (R380, R383, R384). -/
inductive Ecc where
  | clean | corrected | uncorrectable
  deriving DecidableEq, Repr, Inhabited

/-- The bases of format M (R118). -/
inductive DBase where
  | ib | pb | pbo | cb | scr
  deriving DecidableEq, Repr, Inhabited

/-- The kind of an immediate shift (R111, SHI). -/
inductive ShKind where
  | shl | shr | sar | ror
  deriving DecidableEq, Repr, Inhabited

/-- The verdict of a core's self-test (R94). -/
inductive TestVerdict where
  | bothPass | leadingFails | checkerFails
  deriving DecidableEq, Repr, Inhabited

/-- An audit record of the cartridge (R434): operating seconds, power-cycle count, code, argument, value. -/
structure AuditRec where
  ops : Nat := 0
  pcc : Nat := 0
  code : Nat := 0
  arg : Nat := 0
  val : W32 := 0
  deriving DecidableEq, Repr, Inhabited

/-- A metering cartridge (R420-R439): what it keeps in its own memory, and its running state. -/
structure Cartridge where
  /-- serial number, software version and check code (R429) -/
  serial : W64 := 0
  version : BitVec 16 := 0
  checkCode : BitVec 16 := 0
  /-- the legally relevant parameters (R432) -/
  pars : Vector W32 64 := Vector.replicate 64 0
  /-- energy registers in mWh: import, export, inductive, capacitive of each feeder, and what is below 1 mWh, in mW for
  125 µs (R427) -/
  energy : Vector Nat 16 := Vector.replicate 16 0
  rest : Vector Nat 16 := Vector.replicate 16 0
  /-- flow totals in milli-units, and what came since the last snapshot (R427) -/
  flow : Vector Nat 8 := Vector.replicate 8 0
  flowNow : Vector Nat 8 := Vector.replicate 8 0
  overspeed : BitVec 8 := 0
  /-- sums of active and reactive power since the last snapshot in mW, and their number; flags of the feeders -/
  sumP : Vector Int 4 := Vector.replicate 4 0
  sumQ : Vector Int 4 := Vector.replicate 4 0
  sumN : Nat := 0
  beyond : BitVec 4 := 0
  below : BitVec 4 := 0
  /-- the audit log (R434) -/
  log : List AuditRec := []
  /-- power losses, and removals and faults not logged: `TC_GAP_CNT` (R436, R439) -/
  gapLoss : Nat := 0
  gapLog : Nat := 0
  /-- temperature as last measured, in tenths of a degree (R428) -/
  temp : Int := 0
  /-- fed by its host; metering; in verification mode; stopped by a failed check (R432, R438) -/
  powered : Bool := false
  metering : Bool := false
  verif : Bool := false
  fault : Bool := false
  /-- `OUT_RANGE` (R428); a valid time-line frame within 3 s: `TIME_OK` (R425); feeder of the test LED (R433) -/
  outRange : Bool := false
  timeOk : Bool := false
  led : Option Nat := none
  /-- the last time-line frame: TB3, power-cycle count, host serial (R422) -/
  lineS : Nat := 0
  linePcc : Nat := 0
  lineHost : W64 := 0
  /-- checks passed, waiting for a time-line frame; a fit record is due then (R438) -/
  waiting : Bool := false
  fitDue : Bool := false
  /-- a supply loss to be counted, a verification session to be closed at the next start (R436, R439) -/
  lossDue : Bool := false
  leaveDue : Bool := false
  /-- `TC_SNAP_SEQ` (R424) -/
  seq : W32 := 0
  deriving DecidableEq, Repr, Inhabited

/-- What an Announce message of IEEE 1588-2019 says (R359, R363, R368): the sender's clock and port, the grandmaster data
set, steps removed, the UTC offset and its flags, the domain, the transport (UDP or Annex E). -/
structure Announce where
  src : W64 := 0
  port : Nat := 0
  gm : W64 := 0
  prio1 : Nat := 0
  cls : Nat := 0
  acc : Nat := 0
  var : Nat := 0
  prio2 : Nat := 0
  steps : Nat := 0
  utc : BitVec 16 := 0
  utcValid : Bool := false
  leap61 : Bool := false
  leap59 : Bool := false
  domain : Nat := 0
  udp : Bool := false
  deriving DecidableEq, Repr, Inhabited

/-- A PTP message the module sends, as far as its content is the module's (R359): Announce with its data set, Sync (two
steps), Follow_Up with the origin time, Delay_Req, Delay_Resp with the receive time and the requester. -/
inductive PtpMsg where
  | announce (a : Announce)
  | sync
  | followUp (origin : Int)
  | delayReq
  | delayResp (recv : Int) (src : W64) (port : Nat)
  deriving DecidableEq, Repr, Inhabited

/-- How a CAN transmission fails (R316, R320, R322): arbitration lost, no acknowledgement, a bit error after the
arbitration field, another error. -/
inductive CanErr where
  | arbitration | ack | bitError | other
  deriving DecidableEq, Repr, Inhabited

/-- The registers a checkpoint holds (R84, R105). -/
structure Core where
  g : Vector W64 32 := Vector.replicate 32 0
  ib : BitVec 40 := 0
  pb : BitVec 40 := 0
  cb : BitVec 40 := 0
  lk : BitVec 24 := 0
  pc : BitVec 24 := 0
  fl : W64 := 0
  sig : W64 := BitVec.allOnes 64
  deriving DecidableEq, Repr, Inhabited

/-- A chain descriptor (R73). -/
structure ChainDesc where
  chain : Nat := 0
  cls : Cls := .e
  nPred : Nat := 0
  entry : Nat := 0
  instOff : Nat := 0
  instLen : Nat := 0
  wcet : Nat := 0
  nSucc : Nat := 0
  succOff : Nat := 0
  predOff : Nat := 0
  deriving DecidableEq, Repr, Inhabited

/-- A ready execution of a chain: the chain and, for an error task, the offset of its entry's descriptor (R106, R504). -/
structure Work where
  chain : Nat := 0
  slot : Nat := 0
  deriving DecidableEq, Repr, Inhabited

/-- An open chain with its checkpoint (R82, R84): the window number, the drupelets that ran it, the mismatches of the
present window in this period and the drupelets that raised them (R91, R93). -/
structure OpenChain where
  work : Work := {}
  desc : ChainDesc := {}
  cp : Core := {}
  window : Nat := 0
  execMask : BitVec 32 := 0
  mismatches : Nat := 0
  barred : BitVec 32 := 0
  deriving DecidableEq, Repr, Inhabited

/-- The recorded execution of a chain (R89, R98); `slot`: the descriptor that an error task's execution read. -/
structure SigRec where
  chain : Nat := 0
  slot : Nat := 0
  sig : W64 := 0
  execMask : BitVec 32 := 0
  cycle : W64 := 0
  audited : Bool := false
  deriving DecidableEq, Repr, Inhabited

/-- A completed-chain entry of a seal record (R206, R506): the low 16 bits of the period number, and no more of it. -/
structure DoneRec where
  chain : Nat := 0
  period : BitVec 16 := 0
  execMask : BitVec 32 := 0
  sig : W64 := 0
  deriving DecidableEq, Repr, Inhabited

/-- An entry of the force table (R182). -/
structure Force where
  symId : W64 := 0
  typeId : Nat := 0
  value : List Byte := []
  deriving DecidableEq, Repr, Inhabited

/-- The scan-to-reflex or reflex-to-scan mailbox: 256 bits and 32 words (R12). -/
structure Mailbox where
  bits : BitVec 256 := 0
  words : Vector W32 32 := Vector.replicate 32 0
  deriving DecidableEq, Repr, Inhabited

/-- What the skew measurement does (R280): it starts; an injection window of so many samples begins; the fit ends it with the delays
of the channels. -/
inductive SkewStep where
  | start
  | window (len : Nat)
  | fit (skew : Vector (BitVec 8) 16) (lap : Nat)
  deriving DecidableEq, Repr, Inhabited

/-! The state image of a reflex engine (R137, R158). -/

structure RTimer where
  run : Bool := false
  q : Bool := false
  prev : Bool := false
  start : W64 := 0
  deriving DecidableEq, Repr, Inhabited

structure RCounter where
  count : W32 := 0
  prev : Bool := false
  deriving DecidableEq, Repr, Inhabited

/-- The state image of an engine: Q vector, reflex-to-scan mailbox, flags, timers, counters (R137, R158). -/
structure RImage where
  q : W32 := 0
  mb : Mailbox := {}
  f : BitVec 512 := 0
  t : Vector RTimer 64 := Vector.replicate 64 {}
  c : Vector RCounter 64 := Vector.replicate 64 {}
  deriving DecidableEq, Repr, Inhabited

/-- A swept unit in a seal record (R206, R210): its number, the mask of the blocks excluded and the digest of the rest. -/
structure SweepItem where
  unit : Nat := 0
  mask : BitVec 16 := 0
  digest : W64 := 0
  deriving DecidableEq, Repr, Inhabited

/-- A command descriptor as fetched (R334): `word0` and the fields after it. -/
structure Desc where
  word0 : W32 := 0
  length : W32 := 0
  hostAddr : W64 := 0
  modAddr : W64 := 0
  arg0 : W64 := 0
  arg1 : W64 := 0
  arg2 : W64 := 0
  tag : W64 := 0
  deriving DecidableEq, Repr, Inhabited

/-- A pending completion in a seal record (R341): ring, count of its descriptor, and what it writes. -/
structure PendComp where
  ring : Nat := 0
  count : W32 := 0
  word0 : W32 := 0
  status : W32 := 0
  result : W32 := 0
  tag : W64 := 0
  barrier : Option W64 := none
  deriving DecidableEq, Repr, Inhabited

/-- The host rings item of a seal record (R341): `TAKEN` and `DONE` of each command ring, completion and event counts of
each port, the pending completions. -/
structure HostSeal where
  taken : Vector W32 16 := Vector.replicate 16 0
  done : Vector W32 16 := Vector.replicate 16 0
  cq : Vector W32 2 := Vector.replicate 2 0
  eq : Vector W32 2 := Vector.replicate 2 0
  pend : List PendComp := []
  deriving DecidableEq, Repr, Inhabited

/-- A seal record (R206). -/
structure SealRec where
  cycle : W64 := 0
  scanTime : W64 := 0
  handover : Bool := false
  go : Bool := false
  /-- the trip notice (R65) -/
  trip : Bool := false
  /-- number and CRC of the blocks copied (R206) -/
  blocks : Nat := 0
  crc : W64 := 0
  /-- completed chains, open chains, host positions, forces, scan-to-reflex mailbox (R206) -/
  chains : List DoneRec := []
  opens : List OpenChain := []
  host : HostSeal := {}
  forces : List Force := []
  mailbox : Mailbox := {}
  /-- outcome of a switch cycle: 0 switched, or the code under which the carry-over was undone; its CRC (R177, R186) -/
  package : Option (Nat × W64) := none
  /-- sweep digests (R210) -/
  sweep : List SweepItem := []
  /-- digests of pending pair-wide plans by block, and the apply boundary (R224) -/
  digests : List (Nat × W64) := []
  boundary : Option W64 := none
  /-- health score (R213) -/
  score : Nat := 0
  deriving DecidableEq, Repr, Inhabited

/-- A Drawbar heartbeat (R203). -/
structure Heartbeat where
  slot : Slot := .a
  state : ModState := .off
  cycle : W64 := 0
  scanTime : W64 := 0
  sealed : W64 := 0
  score : Nat := 0
  token : Bool := false
  seq : Nat := 0
  deriving DecidableEq, Repr, Inhabited

/-! What MC builds from the configuration for a plan and no register holds. -/

/-- A point of the ring exchange plan (R291, R297): the segment that carries it, its size in bytes (0: one bit), its place
in the area, its place in the half of the class window, and for an input its quality byte, its bit of the fault map and
its substitute (0 HOLD, 1 FIXED, 2 ZERO); for an output its safe value. -/
structure RingPoint where
  seg : Nat := 0
  input : Bool := false
  size : Nat := 0
  off : Nat := 0
  bit : Nat := 0
  place : Nat := 0
  qplace : Nat := 0
  fbit : Nat := 0
  substKind : Nat := 2
  subst : Nat := 0
  safe : Nat := 0
  deriving DecidableEq, Repr, Inhabited

/-- A planned segment (R291, R296): station, class, slice, frame within the slice, area lengths, place of the fault map in
the input area. -/
structure RingSeg where
  station : Nat := 0
  cls : Cls := .f
  slice : Nat := 0
  frame : Nat := 0
  outLen : Nat := 0
  inLen : Nat := 0
  mapOff : Nat := 0
  deriving DecidableEq, Repr, Inhabited

structure RingStation where
  num : Nat := 0
  mask : BitVec 2 := 3
  layout : Nat := 0
  deriving DecidableEq, Repr, Inhabited

/-- A publication: output-half slots of its class and the group address (R303). -/
structure PeerPub where
  cls : Cls := .n
  slots : List (Nat × Nat) := []
  group : BitVec 48 := 0
  deriving DecidableEq, Repr, Inhabited

/-- A subscription (R303). -/
structure PeerSub where
  pair : Nat := 0
  pcls : Cls := .n
  periodMs : Nat := 1
  len : Nat := 0
  cls : Cls := .n
  place : Nat := 0
  qplace : Nat := 0
  substKind : Nat := 2
  fixed : List Byte := []
  deriving DecidableEq, Repr, Inhabited

structure RingPlan where
  stations : List RingStation := []
  segs : List RingSeg := []
  points : List RingPoint := []
  pubs : List PeerPub := []
  subs : List PeerSub := []
  deriving DecidableEq, Repr, Inhabited

/-! What MC makes of a configuration or a package. -/

/-- An error task (R54, R55): the event codes bound to it and its chains in ascending index. -/
structure TaskDef where
  codes : List Nat := []
  chains : List Nat := []
  deriving DecidableEq, Repr, Inhabited

/-- The plans a package carries (R18), as MC makes them from its `PLANS` area, whose layout no rule gives: register values
by offset, the ring exchange plan, the error tasks of the program, the digital outputs that the scan program writes [8]. -/
structure PlanSet where
  regs : List (Nat × W32) := []
  ring : Option RingPlan := none
  tasks : List TaskDef := []
  scanOut : W32 := 0
  deriving DecidableEq, Repr, Inhabited

/-- What flash holds for the next start (R167, R457): whether the configuration's digest is right, its plans and register
values, the places of the class windows and of the Drawbar staging in the shared buffer (R29, R120) and of the carry-over area in DRAM (R177), the configured program's image, byte by byte. -/
structure FlashCfg where
  digestOk : Bool := false
  plans : PlanSet := {}
  winF : Nat := 0
  winN : Nat := 0
  winS : Nat := 0
  staging : Nat := 0
  recArea : Nat := 0
  carryArea : Nat := 0
  bank : List (Nat × Byte) := []
  /-- the plans that the bank's `PLANS` area spells pass the checks of their blocks (check 12 of R172) [8] -/
  bankPlansOk : Bool := true
  deriving DecidableEq, Repr, Inhabited

/-- What the boot of a module finds (R455, R456, R94): flash as another hand left it, where it changed while the module
was off; whether the firmware images and the program copies of flash halves A and B verify, the version of the firmware
that runs; the drupelets whose self-test finds the leading core, or the checker core, failed. -/
structure BootFind where
  flash : Option FlashCfg := none
  fwA : Bool := true
  fwB : Bool := true
  progA : Bool := true
  progB : Bool := true
  fwVer : W32 := 0
  leadFails : BitVec 32 := 0
  checkFails : BitVec 32 := 0
  deriving DecidableEq, Repr, Inhabited

/-- Where the N or S period of the partner stands (R221): its number, whether it is open, whether its work is complete, its scan time;
the periods whose commit is outstanding (R46). -/
structure PeriodAt where
  cycle : W64 := 0
  running : Bool := false
  complete : Bool := false
  freezeTime : W64 := 0
  doneIn : List (W64 × W64 × W64) := []
  deriving DecidableEq, Repr, Inhabited

/-- The scan as the full copy carries it: the cycle numbers at which ring time and the N and S phases began, the N and S
periods, the chains of open periods that are not complete and their outstanding predecessors. -/
structure ScanAt where
  tb2From : Option W64 := none
  nsOrigin : W64 := 0
  n : PeriodAt := {}
  s : PeriodAt := {}
  openChains : List Nat := []
  waiting : List (Nat × Nat) := []
  deriving DecidableEq, Repr, Inhabited

/-- A part of the full copy that a partner sends (R221): the configuration and the key slots; a span of memory by its
address and length, with its bytes that are not zero by address; the package state of the inactive bank, its length loaded,
its plans and which bank is active; where the scan stands; the end of the copy. -/
inductive FullItem where
  | config (cfg : FlashCfg) (keys : Vector (Option (BitVec 256)) 4)
  | span (addr len : Nat) (cells : List (Nat × Byte))
  | package (state loaded : Nat) (plans : PlanSet) (activeB : Bool)
  | scan (at_ : ScanAt)
  | last
  deriving DecidableEq, Repr, Inhabited

end Sys2Proof
end

