-- ==== Sys2Proof/Syntax.lean ====
section
/-!
DEFINITION. The commands of the block: one constructor for each row of spec/opcode_table.json, in the table's order. The
drupelet instructions carry the drupelet that executes them and the fields of their format (R109); every other row is
an event or a command and carries what it brings from outside the module.
-/

namespace Sys2Proof

/-- The commands the block takes, one constructor per row of the table. -/
inductive Instr where
  /-- `SETUP_WRITE` (R8): A write to a setup register that has no row of its own takes effect according to the field's access type, or is ignored and counted. -/
  | setupWrite (m : Master) (off size : Nat) (v : W32)
  /-- `READ_LO_LATCH` (R471): A read of a _LO register returns its value and latches the matching _HI half for that reader. -/
  | readLoLatch (m : Master) (off size : Nat)
  /-- `W1C_CLEAR` (R9): Writing 1 to a W1C bit such as DIO_STATUS.HOLD_SEEN clears it, unless hardware sets it in the same clock. -/
  | w1cClear (m : Master) (v : W32) (hwSet : Bool)
  /-- `BLOCK_APPLY` (R10): A write to BLOCK_APPLY requests activation of the block's shadowed commit group; later shadow and apply writes are ignored until the safe point. -/
  | blockApply (m : Master) (b : Fin 22) (plan : Option RingPlan)
  /-- `PLAN_ACTIVATION` (R14): At its safe point a pending plan or commit group becomes active whole and BLOCK_PLAN_GEN advances. -/
  | planActivation (b : Fin 22)
  /-- `TC_WRITE` (R443): A write to any address of the TC block changes nothing and is counted in TC_IGNORED only. -/
  | tcWrite (m : Master) (off : BitVec 12)
  /-- `CLUSTER_CLOCK_GATE` (R22): A Bramble cluster whose eight drupelets are all idle gates its clock tree off. -/
  | clusterClockGate (c : Fin 4)
  /-- `CLUSTER_PLL_POWER_DOWN` (R23): After 20 ms of continuous idle a cluster PLL powers down. -/
  | clusterPllPowerDown (c : Fin 4)
  /-- `CLUSTER_PLL_RELOCK_START` (R23): 50 µs before a period that needs a powered-down cluster, the scheduler starts its PLL relock. -/
  | clusterPllRelockStart (c : Fin 4)
  /-- `CLUSTER_PLL_LOCKED` (R23): A cluster PLL achieves lock, and the scheduler may deal chains to that cluster again. -/
  | clusterPllLocked (c : Fin 4)
  /-- `PLL_LOSS_OF_LOCK` (R25): A cluster PLL loses lock: its open windows are discarded and restarted elsewhere, and the cluster leaves the pool. -/
  | pllLossOfLock (c : Fin 4)
  /-- `CLUSTER_REENTER` (R25): After its PLL has held lock for 1 ms, the cluster re-enters the pool at the next cycle boundary. -/
  | clusterReenter (c : Fin 4)
  /-- `OCXO_FAILURE` (R26): The AOS finds the OCXO stopped or more than 100 ppm off: the chip is held in reset and the timekeeper stops. -/
  | ocxoFailure
  /-- `OCXO_RECOVERY` (R365): The OCXO has run within 100 ppm for 10 ms: the AOS adds the outage to TB0 and TB1, then releases the chip for a module restart. -/
  | ocxoRecovery (outage : Nat)
  /-- `MC_LOCKSTEP_MISMATCH` (R35): The two MC cores disagree: the AOS resets MC alone, and the planes run on while the health score is forced to 0. -/
  | mcLockstepMismatch
  /-- `MC_SELFTEST_COMPLETE` (R35): MC finishes its self-test and firmware verification and resumes, serving waiting host commands in order. -/
  | mcSelftestComplete (pass : Bool)
  /-- `F_BOUNDARY` (R41): At an F boundary pending plans and switches are applied, N and S work yields, and the input freeze is taken. -/
  | fBoundary
  /-- `F_IMAGE_COMPLETE` (R41): The F image is complete, and the error phase starts with queued entries taken in order. -/
  | fImageComplete
  /-- `ERROR_BUDGET_EXPIRY` (R54): The 10 % error budget ends and F chains are released. -/
  | errorBudgetExpiry
  /-- `NS_IMAGE_COMPLETE` (R44): An N or S image is complete and the period's chains are released. -/
  | nsImageComplete (k : Fin 2)
  /-- `ERROR_EVENT_RAISED` (R52): A block raises an error event, which joins a waiting entry, is queued, or is refused when the queue is full. -/
  | errorEventRaised (code : BitVec 16) (block : Fin 22) (unit : BitVec 8) (ps : Vector W64 4)
  /-- `CLASS_COMMIT` (R45): After the last F chain and window commit complete, the F commit and due N and S commits make working copies visible. -/
  | classCommit
  /-- `COPY_END` (R205): Every dirty block has been sent since its last write: the seal snapshot is taken and the seal record follows. -/
  | copyEnd
  /-- `CARRY_OVER_COMPLETE` (R177): Carry-over finishes its three stages and the CRC of the destinations is ready. -/
  | carryOverComplete (undoUe : Option Nat)
  /-- `CARRY_OVER_DEADLINE` (R173): Carry-over is not complete 2 µs before the boundary: it is undone and the package returns to ARMED. -/
  | carryOverDeadline (undoUe : Option Nat)
  /-- `SWITCH_WAIT_EXPIRY` (R173): No switch boundary within WAIT_S: the package returns to CHECKED with code 0x22. -/
  | switchWaitExpiry
  /-- `SEAL_TIMEOUT` (R207): No acknowledgement within the 20 µs seal term: the cycle completes unsealed and, at the third in a row, a resync demand is sent. -/
  | sealTimeout
  /-- `PERIOD_LATE` (R61): A period is not complete at its nominal end: it is counted late, and an N or S late event is raised. -/
  | periodLate (k : Fin 3)
  /-- `WATCHDOG_TRIP` (R63): A class period overruns its tolerance: scan outputs go to safe values, the mailbox is marked stale, and the module enters STOPPED. -/
  | watchdogTrip (k : Fin 3)
  /-- `RESTART_BOUNDARY` (R67): At the first F boundary after an accepted restart, the scan restarts warm or cold with new N and S origins. -/
  | restartBoundary
  /-- `SCAN_CTRL_START` (R70): SCAN_CTRL.START requests the scan start, or claims the token after a lost partner. -/
  | scanCtrlStart (m : Master)
  /-- `SCAN_CLR_MAX` (R70): SCAN_CTRL.CLR_MAX clears every SCAN_CHn_EXEC_MAX. -/
  | scanClrMax (m : Master)
  /-- `SCAN_RESTART` (R72): A keyed write to SCAN_RESTART in STOPPED by the token holder schedules a warm or cold restart. -/
  | scanRestart (m : Master) (v : W32)
  /-- `WORK_TAKE` (R80): A drupelet looking for work takes a restart entry, yielded chain, deque entry, overflow entry, steal, or windfall work. -/
  | workTake (be : Fin 32) (upset upsetH : W64)
  /-- `WINDOW_TIME_LIMIT` (R83): 38,400 leading-core clocks since window start end the window after the current instruction. -/
  | windowTimeLimit (be : Fin 32)
  /-- `WINDOW_STORE_LIMIT` (R83): The 2,048th store of a window ends the window. -/
  | windowStoreLimit (be : Fin 32)
  /-- `WINDOW_COMMIT_END` (R87): A window commit ends; the next window may start, or the chain completes. -/
  | windowCommitEnd (be : Fin 32) (upset upsetH : W64)
  /-- `DRUPELET_SELFTEST_VERDICT` (R94): A drupelet's self-test ends with a verdict that makes it pending, active or retired. -/
  | drupeletSelftestVerdict (be : Fin 32) (v : TestVerdict)
  /-- `AUDIT_REPLICA_COMPLETE` (R100): An audit replica completes and its signature is compared with the record, which may launch a second replica or retire drupelets. -/
  | auditReplicaComplete (be : Fin 32)
  /-- `BRM_CLR_CNT` (R101): BRM_CTRL.CLR_CNT clears the steal, restart and audit-done counters. -/
  | brmClrCnt (m : Master)
  /-- `BRM_UNRETIRE` (R103): A keyed write in SERVICE sends a retired drupelet to full self-test. -/
  | brmUnretire (m : Master) (v : W32)
  /-- `ADD` (R112): Gd ← Ga + Gb modulo 2^64. -/
  | add (be d a b : Fin 32)
  /-- `SUB` (R112): Gd ← Ga − Gb modulo 2^64. -/
  | sub (be d a b : Fin 32)
  /-- `AND` (R112): Gd ← Ga AND Gb. -/
  | and (be d a b : Fin 32)
  /-- `OR` (R112): Gd ← Ga OR Gb. -/
  | or (be d a b : Fin 32)
  /-- `XOR` (R112): Gd ← Ga XOR Gb. -/
  | xor (be d a b : Fin 32)
  /-- `SHL` (R112): Gd ← Ga shifted left by Gb[5:0]. -/
  | shl (be d a b : Fin 32)
  /-- `SHR` (R112): Gd ← Ga shifted right by Gb[5:0], with zeros shifted in. -/
  | shr (be d a b : Fin 32)
  /-- `SAR` (R112): Gd ← Ga shifted right arithmetically by Gb[5:0]. -/
  | sar (be d a b : Fin 32)
  /-- `ROR` (R112): Gd ← Ga rotated right by Gb[5:0]. -/
  | ror (be d a b : Fin 32)
  /-- `SLT` (R112): Gd ← 1 if Ga < Gb signed, else 0. -/
  | slt (be d a b : Fin 32)
  /-- `SLTU` (R112): Gd ← 1 if Ga < Gb unsigned, else 0. -/
  | sltu (be d a b : Fin 32)
  /-- `SEQ` (R112): Gd ← 1 if Ga = Gb, else 0. -/
  | seq (be d a b : Fin 32)
  /-- `MIN` (R112): Gd ← signed minimum of Ga and Gb. -/
  | min (be d a b : Fin 32)
  /-- `MAX` (R112): Gd ← signed maximum of Ga and Gb. -/
  | max (be d a b : Fin 32)
  /-- `MINU` (R112): Gd ← unsigned minimum of Ga and Gb. -/
  | minu (be d a b : Fin 32)
  /-- `MAXU` (R112): Gd ← unsigned maximum of Ga and Gb. -/
  | maxu (be d a b : Fin 32)
  /-- `MUL` (R112): Gd ← low 64 bits of Ga × Gb. -/
  | mul (be d a b : Fin 32)
  /-- `MULH` (R112): Gd ← high 64 bits of the signed product. -/
  | mulh (be d a b : Fin 32)
  /-- `MULHU` (R112): Gd ← high 64 bits of the unsigned product. -/
  | mulhu (be d a b : Fin 32)
  /-- `DIV` (R113): Gd ← signed quotient; division by zero and overflow set flags. -/
  | div (be d a b : Fin 32)
  /-- `DIVU` (R113): Gd ← unsigned quotient; division by zero sets DZI. -/
  | divu (be d a b : Fin 32)
  /-- `REM` (R113): Gd ← signed remainder with the sign of Ga. -/
  | rem (be d a b : Fin 32)
  /-- `REMU` (R113): Gd ← unsigned remainder. -/
  | remu (be d a b : Fin 32)
  /-- `ADDW` (R112): 32-bit add, with the result sign-extended. -/
  | addw (be d a b : Fin 32)
  /-- `SUBW` (R112): 32-bit subtract, with the result sign-extended. -/
  | subw (be d a b : Fin 32)
  /-- `MULW` (R112): Low 32 bits of the product, sign-extended. -/
  | mulw (be d a b : Fin 32)
  /-- `ADDSAT` (R113): Signed saturating add, setting SAT on saturation. -/
  | addsat (be d a b : Fin 32)
  /-- `SUBSAT` (R113): Signed saturating subtract, setting SAT on saturation. -/
  | subsat (be d a b : Fin 32)
  /-- `CLZ` (R112): Gd ← count of leading zero bits of Ga. -/
  | clz (be d a : Fin 32)
  /-- `POPC` (R112): Gd ← count of one bits of Ga. -/
  | popc (be d a : Fin 32)
  /-- `SEL` (R112): Gd ← Ga if Gd ≠ 0, else Gb. -/
  | sel (be d a b : Fin 32)
  /-- `FADD` (R115): Floating-point add in binary32 or binary64. -/
  | fadd (be d a b : Fin 32) (p : Bool)
  /-- `FSUB` (R115): Floating-point subtract. -/
  | fsub (be d a b : Fin 32) (p : Bool)
  /-- `FMUL` (R115): Floating-point multiply. -/
  | fmul (be d a b : Fin 32) (p : Bool)
  /-- `FDIV` (R115): Floating-point divide. -/
  | fdiv (be d a b : Fin 32) (p : Bool)
  /-- `FSQRT` (R115): Floating-point square root of Ga. -/
  | fsqrt (be d a : Fin 32) (p : Bool)
  /-- `FMIN` (R116): Floating-point minimum with the NaN and signed-zero rules. -/
  | fmin (be d a b : Fin 32) (p : Bool)
  /-- `FMAX` (R116): Floating-point maximum with the NaN and signed-zero rules. -/
  | fmax (be d a b : Fin 32) (p : Bool)
  /-- `FABS` (R116): Clears the sign bit of Ga, setting no flag. -/
  | fabs (be d a b : Fin 32) (p : Bool)
  /-- `FNEG` (R116): Inverts the sign bit of Ga, setting no flag. -/
  | fneg (be d a b : Fin 32) (p : Bool)
  /-- `FEQ` (R116): Gd ← 1 if Ga = Gb; NV only for a signalling NaN. -/
  | feq (be d a b : Fin 32) (p : Bool)
  /-- `FLT` (R116): Gd ← 1 if Ga < Gb; NV on any NaN. -/
  | flt (be d a b : Fin 32) (p : Bool)
  /-- `FLE` (R116): Gd ← 1 if Ga ≤ Gb; NV on any NaN. -/
  | fle (be d a b : Fin 32) (p : Bool)
  /-- `FMADD` (R116): Ga × Gb + Gc with one rounding. -/
  | fmadd (be d a b c : Fin 32) (p : Bool)
  /-- `FMSUB` (R116): Ga × Gb − Gc with one rounding. -/
  | fmsub (be d a b c : Fin 32) (p : Bool)
  /-- `FNMADD` (R116): −(Ga × Gb) − Gc with one rounding. -/
  | fnmadd (be d a b c : Fin 32) (p : Bool)
  /-- `FNMSUB` (R116): −(Ga × Gb) + Gc with one rounding. -/
  | fnmsub (be d a b c : Fin 32) (p : Bool)
  /-- `FCVTI` (R117): Float to signed 64-bit integer, rounded in RM. -/
  | fcvti (be d a b : Fin 32) (p : Bool)
  /-- `FCVTU` (R117): Float to unsigned 64-bit integer, rounded in RM. -/
  | fcvtu (be d a b : Fin 32) (p : Bool)
  /-- `ICVTF` (R117): Signed 64-bit integer to float of precision P. -/
  | icvtf (be d a b : Fin 32) (p : Bool)
  /-- `UCVTF` (R117): Unsigned 64-bit integer to float of precision P. -/
  | ucvtf (be d a b : Fin 32) (p : Bool)
  /-- `FWIDEN` (R117): binary32 to binary64; P must be 1. -/
  | fwiden (be d a b : Fin 32)
  /-- `FNARROW` (R117): binary64 to binary32 rounded in RM; P must be 0. -/
  | fnarrow (be d a b : Fin 32)
  /-- `FCVTIZ` (R117): Float to signed integer, rounded toward zero. -/
  | fcvtiz (be d a b : Fin 32) (p : Bool)
  /-- `FCVTUZ` (R117): Float to unsigned integer, rounded toward zero. -/
  | fcvtuz (be d a b : Fin 32) (p : Bool)
  /-- `BEXTU` (R114): Extracts a zero-extended bit field of Ga. -/
  | bextu (be d a : Fin 32) (pos len1 : Fin 64)
  /-- `BEXTS` (R114): Extracts a sign-extended bit field of Ga. -/
  | bexts (be d a : Fin 32) (pos len1 : Fin 64)
  /-- `BINS` (R114): Inserts the low bits of Ga into a field of Gd. -/
  | bins (be d a : Fin 32) (pos len1 : Fin 64)
  /-- `ADDI` (R111): Gd ← Ga + sext(imm16). -/
  | addi (be d a : Fin 32) (imm : BitVec 16)
  /-- `ANDI` (R111): Gd ← Ga AND zext(imm16). -/
  | andi (be d a : Fin 32) (imm : BitVec 16)
  /-- `ORI` (R111): Gd ← Ga OR zext(imm16). -/
  | ori (be d a : Fin 32) (imm : BitVec 16)
  /-- `XORI` (R111): Gd ← Ga XOR zext(imm16). -/
  | xori (be d a : Fin 32) (imm : BitVec 16)
  /-- `SLTI` (R111): Signed compare of Ga with the immediate. -/
  | slti (be d a : Fin 32) (imm : BitVec 16)
  /-- `SLTIU` (R111): Unsigned compare of Ga with the sign-extended immediate. -/
  | sltiu (be d a : Fin 32) (imm : BitVec 16)
  /-- `SHI` (R111): Shift or rotate by an immediate of the kind given in imm16[7:6]. -/
  | shi (be d a : Fin 32) (kind : ShKind) (amt : Fin 64)
  /-- `LUI` (R111): Gd ← sext(imm16) × 65,536. -/
  | lui (be d : Fin 32) (imm : BitVec 16)
  /-- `IBSET` (R124): Sets IB to the chain range start plus (Ga + imm) × 16. -/
  | ibset (be a : Fin 32) (imm : BitVec 16)
  /-- `CBSET` (R124): Sets CB to the active bank base plus (Ga + imm) × 256. -/
  | cbset (be a : Fin 32) (imm : BitVec 16)
  /-- `MFS` (R125): Reads a special register into Gd. -/
  | mfs (be d a : Fin 32) (sel : Fin 12)
  /-- `MTS` (R125): Writes Ga to the writable special register LK or FL. -/
  | mts (be d a : Fin 32) (sel : Fin 16)
  /-- `NOP` (R126): Does nothing. -/
  | nop (be : Fin 32)
  /-- `WEND` (R126): Ends the window after this instruction. -/
  | wend (be : Fin 32)
  /-- `CHEND` (R126): Ends the window and the chain. -/
  | chend (be : Fin 32)
  /-- `TRAP` (R126): Raises the TRAP exception with imm16 as its code. -/
  | trap (be : Fin 32) (imm : BitVec 16)
  /-- `JR` (R123): PC ← Ga[23:0]. -/
  | jr (be a : Fin 32)
  /-- `CALLR` (R123): LK ← PC + 4; PC ← Ga[23:0]. -/
  | callr (be a : Fin 32)
  /-- `RET` (R123): PC ← LK. -/
  | ret (be a : Fin 32)
  /-- `LDB` (R118): Loads 1 byte from base + disp, zero-extended. -/
  | ldb (be d : Fin 32) (base : DBase) (disp : BitVec 16) (ecc : Ecc)
  /-- `LDBS` (R118): Loads 1 byte, sign-extended. -/
  | ldbs (be d : Fin 32) (base : DBase) (disp : BitVec 16) (ecc : Ecc)
  /-- `LDH` (R118): Loads 2 bytes, zero-extended. -/
  | ldh (be d : Fin 32) (base : DBase) (disp : BitVec 16) (ecc : Ecc)
  /-- `LDHS` (R118): Loads 2 bytes, sign-extended. -/
  | ldhs (be d : Fin 32) (base : DBase) (disp : BitVec 16) (ecc : Ecc)
  /-- `LDW` (R118): Loads 4 bytes, zero-extended. -/
  | ldw (be d : Fin 32) (base : DBase) (disp : BitVec 16) (ecc : Ecc)
  /-- `LDWS` (R118): Loads 4 bytes, sign-extended. -/
  | ldws (be d : Fin 32) (base : DBase) (disp : BitVec 16) (ecc : Ecc)
  /-- `LDD` (R118): Loads 8 bytes. -/
  | ldd (be d : Fin 32) (base : DBase) (disp : BitVec 16) (ecc : Ecc)
  /-- `STB` (R118): Stores the low byte of Gd into the commit buffer. -/
  | stb (be d : Fin 32) (base : DBase) (disp : BitVec 16)
  /-- `STH` (R118): Stores the low 2 bytes of Gd. -/
  | sth (be d : Fin 32) (base : DBase) (disp : BitVec 16)
  /-- `STW` (R118): Stores the low 4 bytes of Gd. -/
  | stw (be d : Fin 32) (base : DBase) (disp : BitVec 16)
  /-- `STD` (R118): Stores 8 bytes of Gd. -/
  | std (be d : Fin 32) (base : DBase) (disp : BitVec 16)
  /-- `LDXB` (R118): Loads 1 byte from Ga + disp, zero-extended. -/
  | ldxb (be d a : Fin 32) (disp : BitVec 16) (ecc : Ecc)
  /-- `LDXBS` (R118): Loads 1 byte from Ga + disp, sign-extended. -/
  | ldxbs (be d a : Fin 32) (disp : BitVec 16) (ecc : Ecc)
  /-- `LDXH` (R118): Loads 2 bytes from Ga + disp, zero-extended. -/
  | ldxh (be d a : Fin 32) (disp : BitVec 16) (ecc : Ecc)
  /-- `LDXHS` (R118): Loads 2 bytes from Ga + disp, sign-extended. -/
  | ldxhs (be d a : Fin 32) (disp : BitVec 16) (ecc : Ecc)
  /-- `LDXW` (R118): Loads 4 bytes from Ga + disp, zero-extended. -/
  | ldxw (be d a : Fin 32) (disp : BitVec 16) (ecc : Ecc)
  /-- `LDXWS` (R118): Loads 4 bytes from Ga + disp, sign-extended. -/
  | ldxws (be d a : Fin 32) (disp : BitVec 16) (ecc : Ecc)
  /-- `LDXD` (R118): Loads 8 bytes from Ga + disp. -/
  | ldxd (be d a : Fin 32) (disp : BitVec 16) (ecc : Ecc)
  /-- `STXB` (R118): Stores 1 byte at Ga + disp. -/
  | stxb (be d a : Fin 32) (disp : BitVec 16)
  /-- `STXH` (R118): Stores 2 bytes at Ga + disp. -/
  | stxh (be d a : Fin 32) (disp : BitVec 16)
  /-- `STXW` (R118): Stores 4 bytes at Ga + disp. -/
  | stxw (be d a : Fin 32) (disp : BitVec 16)
  /-- `STXD` (R118): Stores 8 bytes at Ga + disp. -/
  | stxd (be d a : Fin 32) (disp : BitVec 16)
  /-- `BBS` (R127): Branches if the named bit of Ga is 1, feeding one signature byte. -/
  | bbs (be a : Fin 32) (bit : Fin 64) (off : BitVec 15)
  /-- `BBC` (R127): Branches if the named bit of Ga is 0, feeding one signature byte. -/
  | bbc (be a : Fin 32) (bit : Fin 64) (off : BitVec 15)
  /-- `BEQ` (R127): Branches if Ga = Gb. -/
  | beq (be a b : Fin 32) (off : BitVec 16)
  /-- `BNE` (R127): Branches if Ga ≠ Gb. -/
  | bne (be a b : Fin 32) (off : BitVec 16)
  /-- `BLT` (R127): Branches if Ga < Gb, signed. -/
  | blt (be a b : Fin 32) (off : BitVec 16)
  /-- `BGE` (R127): Branches if Ga ≥ Gb, signed. -/
  | bge (be a b : Fin 32) (off : BitVec 16)
  /-- `BLTU` (R127): Branches if Ga < Gb, unsigned. -/
  | bltu (be a b : Fin 32) (off : BitVec 16)
  /-- `BGEU` (R127): Branches if Ga ≥ Gb, unsigned. -/
  | bgeu (be a b : Fin 32) (off : BitVec 16)
  /-- `J` (R111): PC ← PC + sext(off26) × 4. -/
  | j (be : Fin 32) (off : BitVec 26)
  /-- `CALL` (R111): LK ← PC + 4, then PC jumps by off26. -/
  | call (be : Fin 32) (off : BitVec 26)
  /-- `REFLEX_FRAME_BOUNDARY` (R138): Every 1 µs frame boundary latches the mailbox and starts or queues a frame pass. -/
  | reflexFrameBoundary
  /-- `ARMED_EVENT_DISPATCH` (R139): An armed I or A edge is dispatched: it starts an event pass, aborts a frame pass, or becomes pending. -/
  | armedEventDispatch (irise ifall arise afall : W32)
  /-- `PASS_COMMIT` (R137): A pass commits its Q vector, mailbox values and state all at once. -/
  | passCommit (up : Vector (Option RImage) 4) (late : BitVec 4)
  /-- `REFLEX_SELFTEST_VERDICT` (R146): A reflex engine's self-test ends and the engine is retired or given a role. -/
  | reflexSelftestVerdict (e : Fin 4) (pass : Bool)
  /-- `MAILBOX_STALE_TIMEOUT` (R142): In STANDBY, the seal missing for more than two F periods marks the mailbox stale. -/
  | mailboxStaleTimeout
  /-- `RFX_ARM` (R165): RFX_CTRL.ARM arms the program in SERVICE while disarmed. -/
  | rfxArm (m : Master)
  /-- `RFX_DISARM` (R163): RFX_CTRL.DISARM stops the program in SERVICE with reflex outputs at their safe values. -/
  | rfxDisarm (m : Master)
  /-- `RFX_CLR_CNT` (R165): Clears RFX_EVPASSES, RFX_ABORTS and RFX_WAITS. -/
  | rfxClrCnt (m : Master)
  /-- `RFX_CLR_MAXLAT` (R165): Clears RFX_MAXLAT. -/
  | rfxClrMaxlat (m : Master)
  /-- `RFX_UNRETIRE` (R166): A keyed write in SERVICE sends a retired reflex engine to self-test. -/
  | rfxUnretire (m : Master) (v : W32)
  /-- `PACKAGE_CHECK_DONE` (R172): The package checks finish with CHECKED or REFUSED. -/
  | packageCheckDone (plans : Option PlanSet)
  /-- `PKG_CHECK_REPORT_RX` (R173): The partner's package digest and check result arrive, setting PAIR_READY or refusing with 0x0D. -/
  | pkgCheckReportRx (id : Nat) (digest : BitVec 128) (ok : Bool)
  /-- `OLC_DISCARD` (R191): OLC_CMD discard empties a CHECKED or REFUSED package. -/
  | olcDiscard (m : Master) (key : BitVec 16)
  /-- `OLC_SWITCH_REQUEST` (R173): OLC_CMD switch request arms a CHECKED package, or switches a patched bank at once when no scan runs. -/
  | olcSwitchRequest (m : Master) (relAck : Bool) (key : BitVec 16)
  /-- `OLC_CANCEL` (R173): OLC_CMD cancel returns an ARMED package to CHECKED. -/
  | olcCancel (m : Master) (key : BitVec 16)
  /-- `CLAIM_ASSERT` (R197): A module asserts CLAIM and the latch grants, refuses or transfers the token. -/
  | claimAssert (sl : Slot) (both silent : Bool)
  /-- `CLAIM_DROP` (R197): The token holder drops CLAIM and the latch transfers the token or leaves it with none. -/
  | claimDrop (sl : Slot)
  /-- `RFX_SILENT` (R197): The token holder's island has seen no reflex commit for 3.0 µs and the latch may transfer. -/
  | rfxSilent (sl : Slot)
  /-- `CONNECTOR_PARTS` (R197): The holder's connector parts and the token passes to a READY or claiming partner, or to none. -/
  | connectorParts (sl : Slot)
  /-- `TOKEN_RISE` (R198): 1.0 µs after the drop the incoming TOKEN rises; its island drives the mirror and the voter and the loop ramp starts. -/
  | tokenRise (ahead : Vector Nat 2)
  /-- `LOOP_RAMP_END` (R198): The 50 µs loop hand-over ramp ends. -/
  | loopRampEnd
  /-- `ISLAND_LINK_FRAME_RX` (R196): The other island receives a link frame and updates its mirror. -/
  | islandLinkFrameRx (digital : W32) (loops : Vector Nat 8)
  /-- `ISLAND_LINK_FAULT` (R196): The island link fails and the mirror is filled from the last seal and the own voter. -/
  | islandLinkFault
  /-- `LEVER_OPEN` (R200): The lever reads open for 1 ms: a PRIMARY hands over, a STANDBY drops READY. -/
  | leverOpen (own : Bool)
  /-- `LEVER_CLOSE` (R200): The lever closes and READY may be asserted again. -/
  | leverClose (own : Bool)
  /-- `DRAWBAR_LANE_LOSS` (R201): A Drawbar lane fails and the link retrains on the remaining lanes. -/
  | drawbarLaneLoss (lane : Fin 4)
  /-- `DRAWBAR_RETRAIN_DONE` (R201): The retrain completes and traffic resumes at the reduced rate. -/
  | drawbarRetrainDone
  /-- `DRAWBAR_LANE_RETURN` (R201): A returning lane that has held block lock for 1 ms takes traffic. -/
  | drawbarLaneReturn (lane : Fin 4)
  /-- `DRAWBAR_MSG_REPEAT` (R202): An unacknowledged priority 1, 4 or 5 message is repeated every 100 µs. -/
  | drawbarMsgRepeat (id : Nat)
  /-- `HEARTBEAT_SEND` (R203): Every 50 µs the module sends a Drawbar heartbeat and toggles ALIVE. -/
  | heartbeatSend
  /-- `HEARTBEAT_RX` (R203): A partner heartbeat is received, updating its state, score and scan time. -/
  | heartbeatRx (h : Option Heartbeat) (alive : Bool)
  /-- `PATH_SILENT` (R203): A heartbeat path has been silent for 150 µs; it is reported, or the partner is lost when both paths are silent. -/
  | pathSilent (drawbar : Bool)
  /-- `TRIP_NOTICE_RX` (R65): On a partner's trip notice the module enters STOPPED within 10 µs. -/
  | tripNoticeRx (id : Nat) (cls : Cls)
  /-- `COPY_BLOCK_RX` (R208): A copied block is staged in Drawbar staging. -/
  | copyBlockRx (cycle : W64) (blk : Nat) (data : List Byte)
  /-- `SEAL_RECORD_RX` (R207): The receiver checks the copy CRC, acknowledges, and applies the copy whole. -/
  | sealRecordRx (r : SealRec)
  /-- `SEAL_ACK_RX` (R207): The acknowledgement seals the cycle, clears dirty bits and releases pending completions. -/
  | sealAckRx (cycle : W64) (digests : List (Nat × W64))
  /-- `RESYNC_DEMAND_RX` (R207): A resynchronisation demand makes the STANDBY drop READY and enter SYNCING. -/
  | resyncDemandRx
  /-- `RESYNC_REQUEST_RX` (R66): A restarted or new partner requests resynchronisation and the full copy starts. -/
  | resyncRequestRx (id : Nat)
  /-- `FULL_COPY_RX` (R221): A block of the full copy of a resynchronisation is received. -/
  | fullCopyRx (item : FullItem) (pct : Fin 101)
  /-- `SWEEP_UNIT_RX` (R211): The PRIMARY's content of a differing unit arrives; differing words are classed, counted and taken over. -/
  | sweepUnitRx (unit : Nat) (data : List Byte)
  /-- `SWEEP_UNIT_REQUEST_RX` (R211): The PRIMARY receives a request for a sweep unit and sends it. -/
  | sweepUnitRequestRx (unit : Nat)
  /-- `AUDIT_VERDICT_RX` (R100): The PRIMARY receives an audit retirement verdict and applies it at the next F boundary. -/
  | auditVerdictRx (id chain : Nat) (mask : BitVec 32)
  /-- `DIRTY_REQUEST_RX` (R386): The PRIMARY sets the dirty bit of a block the STANDBY found poisoned. -/
  | dirtyRequestRx (id blk : Nat)
  /-- `HANDOVER_REQUEST_RX` (R215): The PRIMARY receives the STANDBY's health-margin request and starts a hand-over. -/
  | handoverRequestRx (id : Nat)
  /-- `CONFIG_FORWARD_RX` (R224): The STANDBY receives forwarded configuration and builds its own plans. -/
  | configForwardRx (id opcode : Nat) (args : List W64) (data : List Byte)
  /-- `PKG_BLOCK_RX` (R171): The partner writes a forwarded package block into its inactive bank. -/
  | pkgBlockRx (id off : Nat) (data : List Byte)
  /-- `FORWARDED_COMMAND_RX` (R336): The partner executes a command forwarded with TARGET set and returns data and status. -/
  | forwardedCommandRx (id : Nat) (ring : Fin 16) (desc : Desc)
  /-- `AGREEMENT_TIMEOUT` (R224): Pending pair-wide plan digests do not agree within 1 s and both modules discard the plan. -/
  | agreementTimeout (b : Fin 22)
  /-- `TAKEOVER_START` (R216): The takeover preparation ends: the module is PRIMARY, has taken over ring, CAN and host rings, and runs its takeover cycle. -/
  | takeoverStart (ahead : Vector Nat 2)
  /-- `PAIR_CTRL_SWITCH` (R226): PAIR_CTRL switch command starts a hand-over, or a STOPPED transfer. -/
  | pairCtrlSwitch (m : Master) (key : BitVec 16)
  /-- `PAIR_LEAVE` (R226): PAIR_CTRL leave makes a STANDBY drop READY and enter SYNCING. -/
  | pairLeave (m : Master) (key : BitVec 16)
  /-- `PAIR_CLR_COPY_MAX` (R225): Clears PAIR_COPY_MAX. -/
  | pairClrCopyMax (m : Master) (key : BitVec 16)
  /-- `ROLE_DECISION` (R458): At t0 + 300 ms to 400 ms the module decides to claim, sync, or wait according to the partner's heartbeat. -/
  | roleDecision
  /-- `ISLAND_STATUS_FRAME` (R228): Every 1 µs a status frame passes each way on the island interface; invalid frames are counted. -/
  | islandStatusFrame (toIsland fromIsland : Bool) (mv compV : BitVec 16) (term ilim : W32) (rb : Vector (BitVec 25) 8)
  /-- `LOGIC_SILENT` (R249): No valid frame for 8 µs: the island holds its outputs and starts the hold timer. -/
  | logicSilent
  /-- `HOLD_EXPIRY` (R249): The hold timer expires and every output takes its safe value. -/
  | holdExpiry
  /-- `FRAMES_RESUME` (R251): Frames resume after a silence and outputs follow the module's state. -/
  | framesResume
  /-- `FILTER_STATE_CHANGE` (R235): An input's filter counter reaches T or 0 and the filtered state changes. -/
  | filterStateChange (n : Fin 32) (samples : List Bool)
  /-- `INPUT_THRESHOLD_CHECK` (R237): A 600 s threshold check lap compares the main and check comparators, setting CHK_FAULT on two disagreements. -/
  | inputThresholdCheck (disagree : W32) (lap : Nat)
  /-- `OUTPUT_LATCH_OFF` (R242): An output in current limit for LIM_T is latched off and an error event is raised. -/
  | outputLatchOff (n : Fin 32)
  /-- `OUTPUT_RETRY` (R242): Every 100 ms a latched output is retried while its island holds the token. -/
  | outputRetry (n : Fin 32) (limited : Bool)
  /-- `READBACK_FAULT_SET` (R244): The terminal differs from the driven level for 1 ms and RB_FAULT is set. -/
  | readbackFaultSet (n : Fin 32)
  /-- `READBACK_FAULT_CLEAR` (R244): Terminal and driven level agree for 100 ms and RB_FAULT clears. -/
  | readbackFaultClear (n : Fin 32)
  /-- `LPLUS_WARNING` (R245): L+ below 19.2 V for 1 ms sets the warning and raises an event. -/
  | lplusWarning (mv : BitVec 16)
  /-- `LPLUS_WARNING_CLEAR` (R245): L+ above 19.6 V for 20 ms clears the warning. -/
  | lplusWarningClear (mv : BitVec 16)
  /-- `OUTPUTS_OFF` (R245): L+ below 15 V for 20 µs switches every output off and invalidates every input. -/
  | outputsOff (mv : BitVec 16)
  /-- `SUPPLY_RECOVERY` (R246): L+ above 18 V for 20 ms: outputs take their current commands and inputs become valid. -/
  | supplyRecovery (mv : BitVec 16)
  /-- `ISLAND_POWER_DOWN` (R247): L+ below 11 V powers the island down. -/
  | islandPowerDown (mv : BitVec 16)
  /-- `ISLAND_START` (R247): L+ above 13 V starts the island with outputs off, and trims and status reload. -/
  | islandStart (mv : BitVec 16)
  /-- `COMPLIANCE_SET` (R256): The loop readback stays 0.1 mA below command for 10 ms with the driver at its limit. -/
  | complianceSet (n : Fin 8) (rb : BitVec 25)
  /-- `COMPLIANCE_CLEAR` (R256): The readback comes within 0.05 mA of command for 100 ms. -/
  | complianceClear (n : Fin 8) (rb : BitVec 25)
  /-- `MAIN_PATH_FAILURE` (R257): The main path misses by more than 0.16 mA for 5 ms and the channel switches to the fallback path. -/
  | mainPathFailure (n : Fin 8) (rb : BitVec 25)
  /-- `LOOP_READBACK_FAULT` (R257): The fallback path misses by more than 0.32 mA for 5 ms and the channel goes to 0 mA with RB_FAULT. -/
  | loopReadbackFault (n : Fin 8) (rb : BitVec 25)
  /-- `LOOP_CALIBRATION` (R260): A 600 s lap checks the readback and moves the trims toward the fit. -/
  | loopCalibration (err : Vector Int 8) (fit : Vector (Option (Nat × Int × Int)) 8) (lap : Nat)
  /-- `DIO_CLR_CNT` (R261): Clears DIO_SUPPLY_CNT, the short and the retry counters. -/
  | dioClrCnt (m : Master)
  /-- `DIO_CLR_MIN` (R261): Sets the lowest-L+ field to the present L+. -/
  | dioClrMin (m : Master)
  /-- `AO_RETEST` (R257): AO_CTRL.RETEST returns channels to the main path. -/
  | aoRetest (m : Master) (mask : BitVec 8)
  /-- `AO_CLR_CNT` (R263): Clears every AO_CHn_FAULTS. -/
  | aoClrCnt (m : Master)
  /-- `THRESHOLD_EVENT_CHANGE` (R267): A threshold event becomes true after CONFIRM samples, or false past the hysteresis. -/
  | thresholdEventChange (n : Fin 32)
  /-- `SEQUENCER_STEP` (R274): A true condition moves the trigger sequencer to its next state and executes entry actions. -/
  | sequencerStep
  /-- `SEQUENCER_TIMEOUT` (R274): A state's dwell reaches its timer and the sequencer steps to NEXT_O. -/
  | sequencerTimeout
  /-- `CAPTURE_END` (R276): A capture's post-trigger span or MAXLEN ends; the sequencer re-arms to state 0 or goes IDLE. -/
  | captureEnd
  /-- `DECIMATION_UP` (R272): The backlog or write FIFO passes its level and D moves up one step. -/
  | decimationUp (fifo : Bool)
  /-- `DECIMATION_DOWN` (R272): The backlog stays low for 100 ms and D moves down one step. -/
  | decimationDown
  /-- `ACQ_CALIBRATION` (R279): A 600 s offset and gain lap through the rotating spare converter path. -/
  | acqCalibration (ch : Option (Fin 16)) (lap : Nat)
  /-- `SKEW_MEASUREMENT` (R280): An hourly skew injection and fit sets each channel's skew. -/
  | skewMeasurement (w : SkewStep)
  /-- `SKEW_LATE` (R280): Skew injection has waited beyond 3 h and SKEW_LATE is set. -/
  | skewLate
  /-- `ACQ_ENABLE` (R266): ACQ_CTRL.ENABLE starts sampling and clears the sample index. -/
  | acqEnable (m : Master)
  /-- `ACQ_DISABLE` (R284): ACQ_CTRL.DISABLE stops sampling while the sequencer is IDLE. -/
  | acqDisable (m : Master)
  /-- `ACQ_ARM` (R274): ACQ_CTRL.ARM moves IDLE to state 0 and clears the counters. -/
  | acqArm (m : Master)
  /-- `ACQ_DISARM` (R277): ACQ_CTRL.DISARM lets an open capture end and then enters IDLE. -/
  | acqDisarm (m : Master)
  /-- `ACQ_FORCE_TRIG` (R277): ACQ_CTRL.FORCE_TRIG makes the next sample a trigger sample. -/
  | acqForceTrig (m : Master)
  /-- `ACQ_CLR_CNT` (R284): Clears ACQ_LOST and ACQ_RATE_CHG. -/
  | acqClrCnt (m : Master)
  /-- `RING_EXCHANGE_START` (R292): 20 µs after each F boundary the master sends the exchange's frames on all four ports. -/
  | ringExchangeStart
  /-- `RING_FRAME_RX` (R295): A ring frame copy arrives and its valid segments enter the ring mirror; a node forwards or turns it back. -/
  | ringFrameRx (port : Fin 4) (etype : BitVec 16) (fcs : Bool) (payload : List Byte)
  /-- `EXCHANGE_DEADLINE` (R300): At the exchange deadline station states, misses and ring states are decided. -/
  | exchangeDeadline
  /-- `RING_PORT_DOWN` (R301): A ring port's link is lost for 100 ms and the port is down. -/
  | ringPortDown (p : Fin 4)
  /-- `RING_JOIN` (R286): At t0 + 400 ms the module joins its rings as a passive node. -/
  | ringJoin
  /-- `PEER_FRAME_RX` (R305): A peer frame is checked and its first valid copy of each CYCLE enters the subscription mirror. -/
  | peerFrameRx (port : Fin 2) (fcs : Bool) (payload : List Byte)
  /-- `PEER_PERIOD_MISS` (R306): A publisher period passes without a valid frame and the subscription counts a miss. -/
  | peerPeriodMiss (j : Fin 32)
  /-- `RING_CLR_CNT` (R308): RING_CTRL.CLR_CNT clears the ring counters. -/
  | ringClrCnt (m : Master)
  /-- `CAN_START` (R310): CAN_CTRL.START starts a DOWN port in INTEG when the bit timing is valid. -/
  | canStart (m : Master) (mask fault : BitVec 4)
  /-- `CAN_STOP` (R312): CAN_CTRL.STOP takes a port DOWN after the frame on the bus. -/
  | canStop (m : Master) (mask : BitVec 4)
  /-- `CAN_CLR_CNT` (R326): Clears every counter of the CAN block. -/
  | canClrCnt (m : Master)
  /-- `CAN_INTEGRATION_DONE` (R312): 11 recessive bits bring a port from INTEG to ACTIVE or RESTRICTED. -/
  | canIntegrationDone (n : Fin 4)
  /-- `CAN_FRAME_RX` (R318): A received frame is filtered into a receive object, the event ring, or discarded. -/
  | canFrameRx (n : Fin 4) (rxid : W32) (esi remote : Bool) (dlc : BitVec 4) (data : List Byte)
  /-- `CAN_TX_SUCCESS` (R316): A queued frame is transmitted and acknowledged. -/
  | canTxSuccess (n : Fin 4) (tdc : Option (BitVec 7))
  /-- `CAN_TX_ERROR` (R316): A transmission loses arbitration or meets an error and is retried. -/
  | canTxError (n : Fin 4) (e : CanErr)
  /-- `BUSOFF_DELAY_EXPIRY` (R312): BO_DELAY elapses and bus-off recovery counting begins. -/
  | busoffDelayExpiry (n : Fin 4)
  /-- `BUSOFF_RECOVERY` (R312): 128 occurrences of 11 recessive bits return the port to INTEG. -/
  | busoffRecovery (n : Fin 4)
  /-- `COLLIDE_CLEAR` (R322): 10 s without a collision on the buffer clears COLLIDE. -/
  | collideClear (n : Fin 4)
  /-- `TRANSCEIVER_FAULT` (R312): Loss of transceiver supply or a 4 ms dominant time-out takes the port DOWN. -/
  | transceiverFault (n : Fin 4)
  /-- `HOST_DOORBELL` (R332): A doorbell write advances PROD, is ignored, or raises a ring error. -/
  | hostDoorbell (m : Master) (n : Fin 16) (v : W32)
  /-- `DESCRIPTOR_TAKE` (R333): The token holder fetches and takes the next descriptor of a ring in round-robin. -/
  | descriptorTake (p : Fin 2) (desc : Desc)
  /-- `COMPLETION_BARRIER_DONE` (R339): The barrier read completes and the completion writes proceed. -/
  | completionBarrierDone (n : Fin 16)
  /-- `CMD_NOP` (R336): Host NOP command completes at once. -/
  | cmdNop (n : Fin 16)
  /-- `STATUS` (R336): Writes a 256-byte status block of key registers to the host. -/
  | statusCmd (n : Fin 16)
  /-- `READ_MEM` (R336): Copies module memory to host memory through DMA. -/
  | readMem (n : Fin 16)
  /-- `READ_SYM` (R336): Copies a symbol's bytes at its class's next commit to the host. -/
  | readSym (n : Fin 16)
  /-- `CONFIG` (R336): MC writes a list of setup register pairs and forwards them. -/
  | configCmd (n : Fin 16)
  /-- `VALUE_WRITE` (R187): Queues a value write to a writable kind 0 symbol. -/
  | valueWrite (n : Fin 16)
  /-- `FORCE_SET` (R182): Enters a force in the force table. -/
  | forceSet (n : Fin 16)
  /-- `FORCE_RELEASE` (R182): Removes a force, or every force. -/
  | forceRelease (n : Fin 16)
  /-- `PKG_LOAD` (R171): Writes a package block into the inactive bank and forwards it. -/
  | pkgLoad (n : Fin 16)
  /-- `PKG_SWITCH` (R173): Requests the switch of a CHECKED package. -/
  | pkgSwitch (n : Fin 16)
  /-- `PKG_CANCEL` (R173): Cancels an ARMED package. -/
  | pkgCancel (n : Fin 16)
  /-- `PKG_DISCARD` (R173): Discards the inactive package on both modules. -/
  | pkgDiscard (n : Fin 16)
  /-- `CONST_PATCH` (R188): Writes a constant patch into a copy of the active bank. -/
  | constPatch (n : Fin 16)
  /-- `KEY_ENROL` (R169): Enrols an Ed25519 key in an empty slot in SERVICE. -/
  | keyEnrol (n : Fin 16)
  /-- `KEY_REMOVE` (R169): Removes a key slot in SERVICE, except the active bank's signing slot. -/
  | keyRemove (n : Fin 16)
  /-- `SCAN_START` (R459): Host start request, acting as SCAN_CTRL.START. -/
  | scanStart (n : Fin 16)
  /-- `SCAN_RESTART_CMD` (R67): Host restart of a STOPPED scan, warm or cold. -/
  | scanRestartCmd (n : Fin 16)
  /-- `PAIR_SWITCH` (R215): Host switch command starts a hand-over; the incoming module completes it. -/
  | pairSwitch (n : Fin 16)
  /-- `SERVICE_ENTER` (R463): Takes an ALONE or partnerless STOPPED module into SERVICE. -/
  | serviceEnter (n : Fin 16)
  /-- `SERVICE_LEAVE` (R463): Returns a SERVICE module to ALONE or STOPPED. -/
  | serviceLeave (n : Fin 16)
  /-- `CAN_TX` (R315): Replaces and queues the content of an MC-owned CAN transmit buffer. -/
  | canTx (n : Fin 16)
  /-- `REC_READ` (R416): Writes flushed recorder records to host memory. -/
  | recRead (n : Fin 16)
  /-- `REC_CTRL_FREEZE` (R417): Host command that freezes the recorder. -/
  | recCtrlFreeze (n : Fin 16)
  /-- `REC_CTRL_UNFREEZE` (R417): Host command that unfreezes the recorder. -/
  | recCtrlUnfreeze (n : Fin 16)
  /-- `REC_CTRL_REARM` (R418): Host command that re-arms a frozen recorder. -/
  | recCtrlRearm (n : Fin 16)
  /-- `TC_READ` (R336): Reads Tally Cart window bytes to the host. -/
  | tcRead (n : Fin 16)
  /-- `BULK_SEND` (R350): Streams module memory on the Dray bulk stream. -/
  | bulkSend (n : Fin 16)
  /-- `HIST_SUB` (R336): Stores, replaces or removes a historian subscription. -/
  | histSub (n : Fin 16)
  /-- `HOST_CQ_HEAD` (R333): A write of the completion head frees room for descriptor taking. -/
  | hostCqHead (m : Master) (p : Fin 2) (v : W32)
  /-- `HOST_EQ_HEAD` (R340): A write of the event head frees room and waiting entries and lost markers are written. -/
  | hostEqHead (m : Master) (p : Fin 2) (v : W32)
  /-- `HOST_RING_EN` (R353): Enabling or disabling rings and ports resets counts or stops taking. -/
  | hostRingEn (m : Master) (v : W32)
  /-- `HOST_RESUME` (R353): HOST_CTRL.RESUME restarts a halted ring engine by retrying its access. -/
  | hostResume (m : Master) (mask : BitVec 2)
  /-- `HOST_CLR_CNT` (R353): Clears the host event-lost, command and ring-error counts. -/
  | hostClrCnt (m : Master)
  /-- `RING_ENGINE_HALT` (R353): A bus error on a descriptor fetch or completion write halts the port's ring engine. -/
  | ringEngineHalt (p : Fin 2) (addr : W64) (write : Bool)
  /-- `HOST_LINK_LOSS` (R329): A host port's reference or link is lost and only that port stops. -/
  | hostLinkLoss (p : Fin 2) (refLost : Bool)
  /-- `DMA_TRANSFER_DONE` (R345): A DMA channel finishes moving a command's data. -/
  | dmaTransferDone (ch : Fin 16) (data : List Byte)
  /-- `DMA_HALT` (R346): A DMA channel halts on a bus error, timeout, poison, link loss or refusal. -/
  | dmaHalt (ch : Fin 16) (cause : BitVec 3) (moved : Nat) (addr : W64)
  /-- `DMA_RETRY` (R346): DMA_CHn_RESUME retry reissues the failing access. -/
  | dmaRetry (m : Master) (ch : Fin 16) (key : BitVec 16)
  /-- `DMA_ABORT` (R346): DMA_CHn_RESUME abort completes the command with 0x0200. -/
  | dmaAbort (m : Master) (ch : Fin 16) (key : BitVec 16)
  /-- `DMA_CLR_CNT` (R354): Clears every DMA_CHn_FAULTS. -/
  | dmaClrCnt (m : Master)
  /-- `DRAY_LANE_UP` (R347): A Dray lane has held block lock for 1 ms and is up. -/
  | drayLaneUp (p : Fin 2)
  /-- `DRAY_LANE_DOWN` (R347): A Dray lane has lost block lock for 1 ms and is down. -/
  | drayLaneDown (p : Fin 2)
  /-- `CREDIT_FRAME_RX` (R349): A credit frame updates the grants of each stream. -/
  | creditFrameRx (grants : Vector W32 4)
  /-- `DRAY_FRAME_START` (R350): A stream with enough credit starts its next frame in priority order. -/
  | drayFrameStart (lane : Fin 2)
  /-- `DRAY_DRY` (R355): A stream has waited for credit for more than 1 ms. -/
  | drayDry (n : Fin 4)
  /-- `DRAY_CLR_CNT` (R355): Clears the Dray stall and drop counters. -/
  | drayClrCnt (m : Master)
  /-- `PTP_SYNC_RX` (R362): A Sync from the parent updates the offset and the servo, stepping TB0 when due. -/
  | ptpSyncRx (p : Fin 2) (src : W64) (port : Nat) (logInt origin corr : Int) (fast : Bool)
  /-- `PTP_DELAY_RESP_RX` (R362): A delay response updates the mean path delay. -/
  | ptpDelayRespRx (p : Fin 2) (src : W64) (port : Nat) (recv corr : Int) (fast : Bool)
  /-- `PTP_ANNOUNCE_RX` (R363): An Announce feeds the best master clock algorithm and the UTC offset. -/
  | ptpAnnounceRx (p : Fin 2) (a : Announce) (fast : Bool)
  /-- `ANNOUNCE_TIMEOUT` (R363): The announce receipt timeout expires and the parent is lost. -/
  | announceTimeout (p : Fin 2)
  /-- `SYNC_LOSS` (R363): Four Sync intervals pass without Sync and the parent is lost. -/
  | syncLoss
  /-- `PARENT_QUALIFIED` (R363): A parent has held 2 s and 16 intervals; TB0 enters ACQUIRING. -/
  | parentQualified
  /-- `LEAP_SECOND` (R368): At the end of the UTC day an announced leap second changes the UTC offset. -/
  | leapSecond
  /-- `PTP_MASTER_ENABLE` (R360): From t0 + 2 s a port may become MASTER. -/
  | ptpMasterEnable
  /-- `TIME_SNAP` (R370): TIME_CTRL.SNAP captures TB0 to TB3 in one clock. -/
  | timeSnap (m : Master)
  /-- `TIME_CLR_CNT` (R371): Clears the TIME step, master-change and per-port counters. -/
  | timeClrCnt (m : Master)
  /-- `TIME_SET` (R366): A keyed write sets TB0 when no port is SLAVE. -/
  | timeSet (m : Master) (v : W32)
  /-- `TB3_SECOND` (R358): TB3 seconds advance and FRAM is updated. -/
  | tb3Second
  /-- `CAT_ENT_ADDR_WRITE` (R375): A write to CAT_ENTe_ADDR is held until the ATTR write. -/
  | catEntAddrWrite (m : Master) (e : Fin 128) (v : W32)
  /-- `CAT_ENT_ATTR_WRITE` (R375): A write to CAT_ENTe_ATTR commits both words of the entry unless refused. -/
  | catEntAttrWrite (m : Master) (e : Fin 128) (v : W32)
  /-- `CAT_BARRIER` (R376): A barrier write makes entry changes effect for later accesses. -/
  | catBarrier (m : Master) (v : W32)
  /-- `CAT_BARRIER_COMPLETE` (R376): Earlier accesses have completed and CAT_BARRIER_DONE takes the barrier value. -/
  | catBarrierComplete
  /-- `CAT_CLR_FAULT` (R379): Clears FAULT and re-arms the fault latch. -/
  | catClrFault (m : Master)
  /-- `CAT_CLR_CNT` (R379): Clears every CAT_CLm_FAULTS. -/
  | catClrCnt (m : Master)
  /-- `BLOCK_REPAIR_RX` (R386): A restored block arrives from the partner, is written whole, and the window restarts. -/
  | blockRepairRx (blk : Nat) (data : List Byte)
  /-- `REPAIR_TIMEOUT` (R386): No repair within 20 µs: the block is reinitialised as without a STANDBY. -/
  | repairTimeout (blk : Nat)
  /-- `CODE_BLOCK_REWRITE` (R385): MC rewrites a poisoned active-bank block from flash in windfall cycles. -/
  | codeBlockRewrite (blk : Nat)
  /-- `SCRUB_ACCESS` (R394): A scrub engine reads 64 bytes in an idle clock of its port. -/
  | scrubAccess (line : Nat) (found : Vector Ecc 8) (again spare : Bool) (lapR lapC : Option Nat)
  /-- `FUSE_REPAIR` (R389): MC blows one queued repair fuse. -/
  | fuseRepair
  /-- `MEM_CLR_CNT` (R391): Clears the MEM error counters. -/
  | memClrCnt (m : Master)
  /-- `LOCAL_SCRUB_CHAIN` (R397): A drupelet scrubs 512 bytes of its own local memory. -/
  | localScrubChain (be : Fin 32) (unit : Fin 512) (found : Vector Ecc 64) (again spare : Bool) (lap : Option Nat)
  /-- `SWEEP_DIGEST` (R398): The PRIMARY computes a sweep unit's digest in windfall cycles. -/
  | sweepDigest
  /-- `HOLDUP_MEASUREMENT` (R401): Client 10 measures each supercapacitor section's capacitance. -/
  | holdupMeasurement (dv : Option (Vector Nat 4))
  /-- `HOLDUP_ABORT` (R402): A power-fail, lever or hand-over trigger abandons the measurement. -/
  | holdupAbort
  /-- `FLASH_MIGRATION` (R400): Firmware moves a flash block for wear levelling. -/
  | flashMigration (phase : Fin 3) (half : Fin 2) (src dst : Fin 8192) (fail : BitVec 2) (lap : Option Nat)
  /-- `WF_CLR_CNT` (R406): Clears WF_SWEEP_SHORT and every WF_CLc_PREEMPT. -/
  | wfClrCnt (m : Master)
  /-- `RECORD_ACCEPT` (R411): A raised record is accepted, staged, delivered, or suppressed. -/
  | recordAccept
  /-- `FLUSH_END` (R413): A flush ends and REC_FLUSHED advances. -/
  | flushEnd (lost : List Nat)
  /-- `FREEZE_EXPIRED` (R417): A freeze lasting FRZ_MAX_S ends by itself. -/
  | freezeExpired
  /-- `REARM_ERASE_DONE` (R418): The re-arm erases the first block, stages REARMED and flushes. -/
  | rearmEraseDone
  /-- `REC_FREEZE` (R417): REC_CTRL freeze stops flushing. -/
  | recFreeze (m : Master) (key : BitVec 16)
  /-- `REC_UNFREEZE` (R417): REC_CTRL unfreeze resumes flushing. -/
  | recUnfreeze (m : Master) (key : BitVec 16)
  /-- `REC_REARM` (R418): REC_CTRL re-arm restarts a frozen recorder area. -/
  | recRearm (m : Master) (key : BitVec 16)
  /-- `REC_CLR_CNT` (R419): Clears the REC counters. -/
  | recClrCnt (m : Master)
  /-- `LATCH_WARNING` (R437): The cartridge latch opens: metering stops and the registers and removal record are stored. -/
  | latchWarning
  /-- `LATCH_CLOSE` (R437): The latch closes without removal and is treated as a fit. -/
  | latchClose (codeOk flashOk : Bool)
  /-- `CARTRIDGE_FIT` (R438): A powered cartridge verifies itself, waits for time, logs the fit and resumes metering. -/
  | cartridgeFit (cart : Option Cartridge) (codeOk flashOk : Bool)
  /-- `TIME_LINE_TIMEOUT` (R425): No valid time-line frame for 3 s clears TIME_OK. -/
  | timeLineTimeout
  /-- `TC_SNAPSHOT` (R424): Once per second the cartridge publishes a snapshot guarded by TC_SNAP_SEQ. -/
  | tcSnapshot (start : Bool)
  /-- `METERING_COMPUTE` (R427): Every 125 µs the cartridge computes power and accumulates energy. -/
  | meteringCompute (p q : Vector Int 4) (ma : Vector Nat 4) (voltBad : Bool) (temp : Int)
  /-- `METERING_PULSE` (R427): A pulse input pulse is counted into its flow total. -/
  | meteringPulse (k : Fin 8) (overspeed : Bool)
  /-- `CARTRIDGE_SUPPLY_LOSS` (R439): The cartridge loses supply and stores its registers. -/
  | cartridgeSupplyLoss
  /-- `VERIFICATION_ENTER` (R431): Setting the verification switch enters verification mode when the log permits. -/
  | verificationEnter
  /-- `VERIFICATION_LEAVE` (R431): Clearing the switch leaves verification mode. -/
  | verificationLeave
  /-- `ID` (R433): Returns the serial, software version and check code. -/
  | idCmd
  /-- `PR` (R433): Returns a parameter. -/
  | prCmd (j : Fin 64)
  /-- `PW` (R433): Writes a parameter in verification mode and logs it. -/
  | pwCmd (j : Fin 64) (v : W32)
  /-- `LED` (R433): Sets the test LED to a feeder or turns it off. -/
  | ledCmd (f : BitVec 4)
  /-- `LR` (R433): Returns an audit record. -/
  | lrCmd (n : BitVec 12)
  /-- `SELECTOR_FRAME_RX` (R446): A selector frame replaces the selection at the next F boundary. -/
  | selectorFrameRx (bytes : List Byte)
  /-- `OBS_LANE_DOWN` (R446): The input lane goes down and the selection ends. -/
  | obsLaneDown (lane : Fin 2)
  /-- `OBS_END_STEP` (R451): OBS_CTRL.END_STEP ends step trace at the next F boundary. -/
  | obsEndStep (m : Master)
  /-- `OBS_CLR_CNT` (R452): Clears the OBS read, refusal and drop counters. -/
  | obsClrCnt (m : Master)
  /-- `SUPPLY_RISE` (R453): The supply crosses 4.3 V and the AOS starts at t0. -/
  | supplyRise (mv : BitVec 16) (slot : Slot)
  /-- `CORE_RAILS_GOOD` (R453): After 5 ms at 4.5 V the core rails are enabled and good. -/
  | coreRailsGood (mv : BitVec 16)
  /-- `CHIP_RESET_RELEASE` (R455): The chip leaves reset and MC verifies firmware and boots. -/
  | chipResetRelease (f : BootFind)
  /-- `CONFIG_CHECK_DONE` (R457): The configuration check completes and CFG_DONE is set. -/
  | configCheckDone
  /-- `HOLDUP_READY` (R454): The hold-up bank reaches 14 V. -/
  | holdupReady (mv : BitVec 16)
  /-- `DOORBELL_RELEASE` (R332): At t0 + 600 ms held doorbells are served. -/
  | doorbellRelease
  /-- `CAN_FIRST_SECOND_RELEASE` (R314): At t0 + 900 ms the first-second CAN release passes. -/
  | canFirstSecondRelease
  /-- `FIRST_SECOND_END` (R461): At t0 + 1 s the first-second traffic limits end. -/
  | firstSecondEnd
  /-- `SCAN_START_BOUNDARY` (R459): The scan starts cold at a frame boundary, the reflex program arms, and the module leaves CONFIG. -/
  | scanStartBoundary
  /-- `POWER_FAIL_WARNING` (R464): The supply stays below 4.5 V for 1 ms and the orderly shutdown starts. -/
  | powerFailWarning (mv : BitVec 16)
  /-- `SHUTDOWN_POINT` (R464): At the shutdown point heartbeats stop and the AOS holds the chip in reset. -/
  | shutdownPoint (bank : BitVec 16)
  /-- `HOLDUP_EXHAUSTED` (R465): The hold-up is exhausted and the AOS stops. -/
  | holdupExhausted (partnerPowered : Bool)
  /-- `SUPPLY_RETURN_RESTART` (R466): 20 ms after a returned supply the chip is released for a module restart. -/
  | supplyReturnRestart (mv : BitVec 16)
  /-- `PWR_APPLY` (R467): PWR_APPLY stores PWR_CFG in flash for the next start. -/
  | pwrApply (m : Master)
  /-- `PWR_CFG_STORED` (R467): The flash store of PWR_CFG completes. -/
  | pwrCfgStored
  /-- `PWR_CLR_CNT` (R467): Clears the power-fail and restart counters and the lowest supply. -/
  | pwrClrCnt (m : Master)
  /-- `SYS_CLR_CNT` (R482): Clears the SYS bad-access, ignored and MC-restart counters. -/
  | sysClrCnt (m : Master)
  /-- `SYS_RESTART` (R484): A keyed write in an allowed state flushes the recorder and restarts the module. -/
  | sysRestart (m : Master) (v : W32)
  /-- `SAMPLE_INSTANT` (R265): Every 500 ns the 16 channels are sampled and the sample set is written into the capture ring, or counted lost when it would overwrite protected data. -/
  | sampleInstant (x : Vector (BitVec 16) 16) (ovr : BitVec 16)
  /-- `CAN_RX_ERROR` (R313): A port detects an error in a frame it is receiving, raises the receive error counter or counts it in CAN_CHn_RXERR while restricted, and may become error-passive. -/
  | canRxError (n : Fin 4) (heavy : Bool)
  /-- `HOST_LINK_UP` (R329): A host port's reference clock returns and its PCI Express link trains, and its ring engine resumes. -/
  | hostLinkUp (p : Fin 2) (speed width : BitVec 2)
  /-- `RING_PORT_LINK_UP` (R301): A ring port's link comes up again, and the port can leave the down state. -/
  | ringPortLinkUp (p : Fin 4)
  /-- `ISLAND_LINK_RETURN` (R196): The island link carries frames again, so the island link fault clears and the mirror follows the token holder's frames again. -/
  | islandLinkReturn
  /-- `OBS_LANE_UP` (R444): An observation port lane has held block lock for 1 ms and is up. -/
  | obsLaneUp (lane : Fin 2)
  /-- `DRAWBAR_ACK_RX` (R202): The partner's acknowledgement of a priority 1, 4 or 5 message arrives: repeats stop, and an S command waiting on forwarded items completes. -/
  | drawbarAckRx (id : Nat)
  /-- `FORWARDED_REPLY_RX` (R336): The partner's data and status for a command forwarded with TARGET set arrive, and the command completes. -/
  | forwardedReplyRx (id : Nat) (ring : Fin 16) (status result : W32) (data : List Byte)
  /-- `PARTNER_ANSWER_TIMEOUT` (R337): A command forwarded with TARGET set gets no answer within 100 ms and completes with status 0x0107. -/
  | partnerAnswerTimeout (ring : Fin 16)
  /-- `DRAY_FRAME_END` (R350): A Dray frame finishes on its lane, and the last bulk frame completes BULK_SEND with the frames sent. -/
  | drayFrameEnd (lane : Fin 2)
  /-- `CARTRIDGE_REMOVED` (R442): The cartridge leaves the bay: PRESENT clears, cartridge reads fail, and a privileged removal record is made. -/
  | cartridgeRemoved
  /-- `FIT_TIME_LINE_WAIT_EXPIRY` (R438): A freshly powered cartridge finds no time line within 10 s and writes the fit record with unknown TB3 and resumes metering. -/
  | fitTimeLineWaitExpiry
  /-- `CHIP_TEMPERATURE_WARNING` (R499): The chip temperature passes 105 °C and a warning record in category 0xD is written, at most once per hour. -/
  | chipTemperatureWarning (temp : BitVec 16)
  /-- `DELAY_REQ_SEND` (R362): A SLAVE port sends a Delay_Req to its parent and stamps it, feeding the mean path delay. -/
  | delayReqSend (p : Fin 2)
  /-- `MASTER_SYNC_SEND` (R359): A MASTER port sends its Announce, two-step Sync and Follow_Up messages at their intervals. -/
  | masterSyncSend (p : Fin 2) (announce : Bool)
  /-- `DELAY_REQ_RX` (R359): A MASTER port receives a Delay_Req, stamps it and answers with a Delay_Resp. -/
  | delayReqRx (p : Fin 2) (src : W64) (port : Nat) (udp fast : Bool)
  /-- `OBSERVATION_FRAME_SEND` (R447): The collector sends its collected records as an observation frame on the output lane, which may unstall a traced drupelet. -/
  | observationFrameSend
  /-- `MEMORY_WINDOW_BURST` (R449): A 64-byte burst of an observation memory window is read as master class OBS in an idle clock of its memory port, or is refused. -/
  | memoryWindowBurst
  /-- `REARM_ERASE_COMPLETE` (R418): The re-arm's erase of the remaining 15 blocks ends within 500 ms and ERASING clears. -/
  | rearmEraseComplete
  /-- `LEGAL_PAGE_DISPLAY` (R430): The front display controller changes to the next legal or module page on its 3 s and 30 s schedule, or ends page 0's 10 s after a fit. -/
  | legalPageDisplay (page : Option (Fin 8))
  deriving DecidableEq, Repr

end Sys2Proof
end

