-- ==== Sys2Proof/Decode.lean ====
section
/-!
DEFINITION. The decoders. `decodeTableWord`: spec/opcode_table.json gives no row any bits, so no word spells a command.
`decodeDru`: the instruction a drupelet reads from a 32-bit word (R109 to R127), by the encoding tables of the spec;
none: the word raises `ILLEGAL` (R110, R114, R117, R125, R126).
-/

namespace Sys2Proof

/-- The table of commands gives no row any bits: no word spells a command. -/
def decodeTableWord (_nbits _w : Nat) : Option Instr := none

/-- Bits `lo` up to `lo + w - 1` of an instruction word. -/
def wfld (w : W32) (lo n : Nat) : Nat := w.toNat / 2 ^ lo % 2 ^ n

/-- A register field. -/
def wreg (w : W32) (lo : Nat) : Fin 32 := Fin.ofNat 32 (w.toNat / 2 ^ lo)

/-- Major opcode 0x01, Table: INT functions (R112). -/
def decInt (be d a b : Fin 32) (func : Nat) : Option Instr :=
  match func with
  | 0 => some (.add be d a b)
  | 1 => some (.sub be d a b)
  | 2 => some (.and be d a b)
  | 3 => some (.or be d a b)
  | 4 => some (.xor be d a b)
  | 6 => some (.shl be d a b)
  | 7 => some (.shr be d a b)
  | 8 => some (.sar be d a b)
  | 9 => some (.ror be d a b)
  | 10 => some (.slt be d a b)
  | 11 => some (.sltu be d a b)
  | 12 => some (.seq be d a b)
  | 13 => some (.min be d a b)
  | 14 => some (.max be d a b)
  | 15 => some (.minu be d a b)
  | 16 => some (.maxu be d a b)
  | 17 => some (.mul be d a b)
  | 18 => some (.mulh be d a b)
  | 19 => some (.mulhu be d a b)
  | 20 => some (.div be d a b)
  | 21 => some (.divu be d a b)
  | 22 => some (.rem be d a b)
  | 23 => some (.remu be d a b)
  | 24 => some (.addw be d a b)
  | 25 => some (.subw be d a b)
  | 26 => some (.mulw be d a b)
  | 27 => some (.addsat be d a b)
  | 28 => some (.subsat be d a b)
  | 31 => some (.sel be d a b)
  | 0x1D => if b = 0 then some (.clz be d a) else none
  | 0x1E => if b = 0 then some (.popc be d a) else none
  | _ => none

/-- Major opcode 0x02, Table: FP and CVT functions (R116). -/
def decFp (be d a b : Fin 32) (p : Bool) (func : Nat) : Option Instr :=
  match func with
  | 0 => some (.fadd be d a b p)
  | 1 => some (.fsub be d a b p)
  | 2 => some (.fmul be d a b p)
  | 3 => some (.fdiv be d a b p)
  | 4 => if b = 0 then some (.fsqrt be d a p) else none
  | 5 => some (.fmin be d a b p)
  | 6 => some (.fmax be d a b p)
  | 7 => some (.fabs be d a b p)
  | 8 => some (.fneg be d a b p)
  | 9 => some (.feq be d a b p)
  | 0xA => some (.flt be d a b p)
  | 0xB => some (.fle be d a b p)
  | _ => none

/-- Major opcode 0x04, Table: FP and CVT functions (R117). -/
def decCvt (be d a b : Fin 32) (p : Bool) (func : Nat) : Option Instr :=
  match func with
  | 0 => some (.fcvti be d a b p)
  | 1 => some (.fcvtu be d a b p)
  | 2 => some (.icvtf be d a b p)
  | 3 => some (.ucvtf be d a b p)
  | 4 => if p then some (.fwiden be d a b) else none
  | 5 => if p then none else some (.fnarrow be d a b)
  | 6 => some (.fcvtiz be d a b p)
  | 7 => some (.fcvtuz be d a b p)
  | _ => none

/-- Major opcode 0x03, format R4 (R116). -/
def decFma (be d a b c : Fin 32) (p : Bool) (func : Nat) : Option Instr :=
  match func with
  | 0 => some (.fmadd be d a b c p)
  | 1 => some (.fmsub be d a b c p)
  | 2 => some (.fnmadd be d a b c p)
  | 3 => some (.fnmsub be d a b c p)
  | _ => none

/-- Major opcode 0x05, format BF (R114): pos + len greater than 64 is illegal. -/
def decBf (be d a : Fin 32) (pos len1 : Fin 64) (func : Nat) : Option Instr :=
  if 64 < pos.val + len1.val + 1 then none
  else match func with
  | 0 => some (.bextu be d a pos len1)
  | 1 => some (.bexts be d a pos len1)
  | 2 => some (.bins be d a pos len1)
  | _ => none

/-- The base field of format M (R118). -/
def decBase : Nat → Option DBase
  | 0 => some .ib | 1 => some .pb | 2 => some .pbo | 3 => some .cb | 4 => some .scr | _ => none

/-- Formats M and X, loads (R118). -/
def decLoadM (be d : Fin 32) (base : DBase) (disp : BitVec 16) (ecc : Ecc) (op : Nat) : Option Instr :=
  match op with
  | 24 => some (.ldb be d base disp ecc)
  | 25 => some (.ldbs be d base disp ecc)
  | 26 => some (.ldh be d base disp ecc)
  | 27 => some (.ldhs be d base disp ecc)
  | 28 => some (.ldw be d base disp ecc)
  | 29 => some (.ldws be d base disp ecc)
  | 30 => some (.ldd be d base disp ecc)
  | 32 => some (.stb be d base disp)
  | 33 => some (.sth be d base disp)
  | 34 => some (.stw be d base disp)
  | 35 => some (.std be d base disp)
  | _ => none

def decLoadX (be d a : Fin 32) (disp : BitVec 16) (ecc : Ecc) (op : Nat) : Option Instr :=
  match op with
  | 40 => some (.ldxb be d a disp ecc)
  | 41 => some (.ldxbs be d a disp ecc)
  | 42 => some (.ldxh be d a disp ecc)
  | 43 => some (.ldxhs be d a disp ecc)
  | 44 => some (.ldxw be d a disp ecc)
  | 45 => some (.ldxws be d a disp ecc)
  | 46 => some (.ldxd be d a disp ecc)
  | 48 => some (.stxb be d a disp)
  | 49 => some (.stxh be d a disp)
  | 50 => some (.stxw be d a disp)
  | 51 => some (.stxd be d a disp)
  | _ => none

/-- Conditional branches on two registers (R127). -/
def decBranch (be a b : Fin 32) (off : BitVec 16) (op : Nat) : Option Instr :=
  match op with
  | 56 => some (.beq be a b off)
  | 57 => some (.bne be a b off)
  | 58 => some (.blt be a b off)
  | 59 => some (.bge be a b off)
  | 60 => some (.bltu be a b off)
  | 61 => some (.bgeu be a b off)
  | _ => none

/-- Format S of major opcode 0x14 (R125): `MFS` reads registers 0 to 11, `MTS` writes LK and FL only. -/
def decSpc (be d a : Fin 32) (sel func : Nat) : Option Instr :=
  match func with
  | 0 => if h : sel < 12 then some (.mfs be d a ⟨sel, h⟩) else none
  | 1 => if sel = 3 then some (.mts be d a 3) else if sel = 4 then some (.mts be d a 4) else none
  | _ => none

/-- Format C (R126): imm16 is zero for every function but `TRAP`. -/
def decCtl (be : Fin 32) (imm : BitVec 16) (func : Nat) : Option Instr :=
  match func with
  | 0 => if imm = 0 then some (.nop be) else none
  | 1 => if imm = 0 then some (.wend be) else none
  | 2 => if imm = 0 then some (.chend be) else none
  | 3 => some (.trap be imm)
  | _ => none

/-- Format S of major opcode 0x16 (R123): d and sel are zero. -/
def decJmp (be d a : Fin 32) (sel func : Nat) : Option Instr :=
  if d ≠ 0 ∨ sel ≠ 0 then none
  else match func with
  | 0 => some (.jr be a)
  | 1 => some (.callr be a)
  | 2 => some (.ret be a)
  | _ => none

def decShKind : Nat → ShKind
  | 0 => .shl | 1 => .shr | 2 => .sar | _ => .ror

/-- The instruction of a word, for drupelet `be`; `ecc` is what the codes find at the word a load reads. -/
def decodeDru (be : Fin 32) (ecc : Ecc) (w : W32) : Option Instr :=
  let op := wfld w 26 6
  let d := wreg w 21
  let a := wreg w 16
  let b := wreg w 11
  let imm := w.extractLsb' 0 16
  match op with
  | 0x01 => if wfld w 6 5 = 0 then decInt be d a b (wfld w 0 6) else none
  | 0x02 => if wfld w 6 4 = 0 then decFp be d a b (w.getLsbD 10) (wfld w 0 6) else none
  | 0x03 => decFma be d a b (wreg w 6) (w.getLsbD 5) (wfld w 0 5)
  | 0x04 => if wfld w 6 4 = 0 then decCvt be d a b (w.getLsbD 10) (wfld w 0 6) else none
  | 0x05 => decBf be d a (Fin.ofNat 64 (wfld w 10 6)) (Fin.ofNat 64 (wfld w 4 6)) (wfld w 0 4)
  | 0x08 => some (.addi be d a imm)
  | 0x09 => some (.andi be d a imm)
  | 0x0A => some (.ori be d a imm)
  | 0x0B => some (.xori be d a imm)
  | 0x0C => some (.slti be d a imm)
  | 0x0D => some (.sltiu be d a imm)
  | 0x0E => if wfld w 8 8 = 0 then some (.shi be d a (decShKind (wfld w 6 2)) (Fin.ofNat 64 (wfld w 0 6))) else none
  | 0x0F => if a = 0 then some (.lui be d imm) else none
  | 0x11 => if d = 0 then some (.ibset be a imm) else none
  | 0x12 => if d = 0 then some (.cbset be a imm) else none
  | 0x14 => if wfld w 8 8 = 0 then decSpc be d a (wfld w 4 4) (wfld w 0 4) else none
  | 0x15 => if wfld w 16 6 = 0 then decCtl be imm (wfld w 22 4) else none
  | 0x16 => if wfld w 8 8 = 0 then decJmp be d a (wfld w 4 4) (wfld w 0 4) else none
  | 0x36 => some (.bbs be d (Fin.ofNat 64 (wfld w 15 6)) (w.extractLsb' 0 15))
  | 0x37 => some (.bbc be d (Fin.ofNat 64 (wfld w 15 6)) (w.extractLsb' 0 15))
  | 0x3E => some (.j be (w.extractLsb' 0 26))
  | 0x3F => some (.call be (w.extractLsb' 0 26))
  | _ =>
    if 0x18 ≤ op ∧ op ≤ 0x23 then
      if wfld w 16 2 = 0 then
        match decBase (wfld w 18 3) with
        | some base => decLoadM be d base imm ecc op
        | none => none
      else none
    else if 0x28 ≤ op ∧ op ≤ 0x33 then decLoadX be d a imm ecc op
    else if 0x38 ≤ op ∧ op ≤ 0x3D then decBranch be d a imm op
    else none

/-! The encoders of the formats (R109), written from the same tables; every field of a word is one operand. -/

def encReg (r : Fin 32) : BitVec 5 := BitVec.ofNat 5 r.val

/-- Format R: opcode, d, a, b, P, four zero bits and a function. (An INT word has a zero in the
place of P.) -/
def encR (op : BitVec 6) (d a b : Fin 32) (p : Bool) (func : BitVec 6) : W32 :=
  op ++ encReg d ++ encReg a ++ encReg b ++ BitVec.ofBool p ++ 0#4 ++ func

/-- Format R4. -/
def encR4 (d a b c : Fin 32) (p : Bool) (func : BitVec 5) : W32 :=
  0x03#6 ++ encReg d ++ encReg a ++ encReg b ++ encReg c ++ BitVec.ofBool p ++ func

/-- Format BF. -/
def encBf (d a : Fin 32) (pos len1 : Fin 64) (func : BitVec 4) : W32 :=
  0x05#6 ++ encReg d ++ encReg a ++ BitVec.ofNat 6 pos.val ++ BitVec.ofNat 6 len1.val ++ func

/-- Formats I, X and B: two registers and 16 bits. -/
def encI (op : BitVec 6) (d a : Fin 32) (imm : BitVec 16) : W32 := op ++ encReg d ++ encReg a ++ imm

/-- Format S. -/
def encS (op : BitVec 6) (d a : Fin 32) (sel func : Nat) : W32 :=
  op ++ encReg d ++ encReg a ++ 0#8 ++ BitVec.ofNat 4 sel ++ BitVec.ofNat 4 func

/-- Format C. -/
def encC (func : BitVec 4) (imm : BitVec 16) : W32 := 0x15#6 ++ func ++ 0#6 ++ imm

def encBase : DBase → BitVec 3
  | .ib => 0 | .pb => 1 | .pbo => 2 | .cb => 3 | .scr => 4

/-- Format M. -/
def encM (op : BitVec 6) (d : Fin 32) (base : DBase) (disp : BitVec 16) : W32 :=
  op ++ encReg d ++ encBase base ++ 0#2 ++ disp

def encShKind : ShKind → BitVec 2
  | .shl => 0 | .shr => 1 | .sar => 2 | .ror => 3

/-- Format BB. -/
def encBb (op : BitVec 6) (a : Fin 32) (bit : Fin 64) (off : BitVec 15) : W32 :=
  op ++ encReg a ++ BitVec.ofNat 6 bit.val ++ off

/-- The drupelet of an instruction, what the codes find at the word it loads (`clean` where it loads none), and its word;
none for a command that is no drupelet instruction, or operands that no word carries (R114, R125). -/
def encodeDru : Instr → Option (Fin 32 × Ecc × W32)
  | .add be d a b => some (be, .clean, encR 0x01 d a b false 0)
  | .sub be d a b => some (be, .clean, encR 0x01 d a b false 1)
  | .and be d a b => some (be, .clean, encR 0x01 d a b false 2)
  | .or be d a b => some (be, .clean, encR 0x01 d a b false 3)
  | .xor be d a b => some (be, .clean, encR 0x01 d a b false 4)
  | .shl be d a b => some (be, .clean, encR 0x01 d a b false 6)
  | .shr be d a b => some (be, .clean, encR 0x01 d a b false 7)
  | .sar be d a b => some (be, .clean, encR 0x01 d a b false 8)
  | .ror be d a b => some (be, .clean, encR 0x01 d a b false 9)
  | .slt be d a b => some (be, .clean, encR 0x01 d a b false 10)
  | .sltu be d a b => some (be, .clean, encR 0x01 d a b false 11)
  | .seq be d a b => some (be, .clean, encR 0x01 d a b false 12)
  | .min be d a b => some (be, .clean, encR 0x01 d a b false 13)
  | .max be d a b => some (be, .clean, encR 0x01 d a b false 14)
  | .minu be d a b => some (be, .clean, encR 0x01 d a b false 15)
  | .maxu be d a b => some (be, .clean, encR 0x01 d a b false 16)
  | .mul be d a b => some (be, .clean, encR 0x01 d a b false 17)
  | .mulh be d a b => some (be, .clean, encR 0x01 d a b false 18)
  | .mulhu be d a b => some (be, .clean, encR 0x01 d a b false 19)
  | .div be d a b => some (be, .clean, encR 0x01 d a b false 20)
  | .divu be d a b => some (be, .clean, encR 0x01 d a b false 21)
  | .rem be d a b => some (be, .clean, encR 0x01 d a b false 22)
  | .remu be d a b => some (be, .clean, encR 0x01 d a b false 23)
  | .addw be d a b => some (be, .clean, encR 0x01 d a b false 24)
  | .subw be d a b => some (be, .clean, encR 0x01 d a b false 25)
  | .mulw be d a b => some (be, .clean, encR 0x01 d a b false 26)
  | .addsat be d a b => some (be, .clean, encR 0x01 d a b false 27)
  | .subsat be d a b => some (be, .clean, encR 0x01 d a b false 28)
  | .sel be d a b => some (be, .clean, encR 0x01 d a b false 31)
  | .clz be d a => some (be, .clean, encR 0x01 d a 0 false 0x1D)
  | .popc be d a => some (be, .clean, encR 0x01 d a 0 false 0x1E)
  | .fadd be d a b p => some (be, .clean, encR 0x02 d a b p 0)
  | .fsub be d a b p => some (be, .clean, encR 0x02 d a b p 1)
  | .fmul be d a b p => some (be, .clean, encR 0x02 d a b p 2)
  | .fdiv be d a b p => some (be, .clean, encR 0x02 d a b p 3)
  | .fmin be d a b p => some (be, .clean, encR 0x02 d a b p 5)
  | .fmax be d a b p => some (be, .clean, encR 0x02 d a b p 6)
  | .fabs be d a b p => some (be, .clean, encR 0x02 d a b p 7)
  | .fneg be d a b p => some (be, .clean, encR 0x02 d a b p 8)
  | .feq be d a b p => some (be, .clean, encR 0x02 d a b p 9)
  | .flt be d a b p => some (be, .clean, encR 0x02 d a b p 10)
  | .fle be d a b p => some (be, .clean, encR 0x02 d a b p 11)
  | .fsqrt be d a p => some (be, .clean, encR 0x02 d a 0 p 4)
  | .fmadd be d a b c p => some (be, .clean, encR4 d a b c p 0)
  | .fmsub be d a b c p => some (be, .clean, encR4 d a b c p 1)
  | .fnmadd be d a b c p => some (be, .clean, encR4 d a b c p 2)
  | .fnmsub be d a b c p => some (be, .clean, encR4 d a b c p 3)
  | .fcvti be d a b p => some (be, .clean, encR 0x04 d a b p 0)
  | .fcvtu be d a b p => some (be, .clean, encR 0x04 d a b p 1)
  | .icvtf be d a b p => some (be, .clean, encR 0x04 d a b p 2)
  | .ucvtf be d a b p => some (be, .clean, encR 0x04 d a b p 3)
  | .fcvtiz be d a b p => some (be, .clean, encR 0x04 d a b p 6)
  | .fcvtuz be d a b p => some (be, .clean, encR 0x04 d a b p 7)
  | .fwiden be d a b => some (be, .clean, encR 0x04 d a b true 4)
  | .fnarrow be d a b => some (be, .clean, encR 0x04 d a b false 5)
  | .bextu be d a pos len1 => if pos.val + len1.val + 1 ≤ 64 then some (be, .clean, encBf d a pos len1 0) else none
  | .bexts be d a pos len1 => if pos.val + len1.val + 1 ≤ 64 then some (be, .clean, encBf d a pos len1 1) else none
  | .bins be d a pos len1 => if pos.val + len1.val + 1 ≤ 64 then some (be, .clean, encBf d a pos len1 2) else none
  | .addi be d a imm => some (be, .clean, encI 0x08 d a imm)
  | .andi be d a imm => some (be, .clean, encI 0x09 d a imm)
  | .ori be d a imm => some (be, .clean, encI 0x0A d a imm)
  | .xori be d a imm => some (be, .clean, encI 0x0B d a imm)
  | .slti be d a imm => some (be, .clean, encI 0x0C d a imm)
  | .sltiu be d a imm => some (be, .clean, encI 0x0D d a imm)
  | .shi be d a kind amt => some (be, .clean, encI 0x0E d a (0#8 ++ encShKind kind ++ BitVec.ofNat 6 amt.val))
  | .lui be d imm => some (be, .clean, encI 0x0F d 0 imm)
  | .ibset be a imm => some (be, .clean, encI 0x11 0 a imm)
  | .cbset be a imm => some (be, .clean, encI 0x12 0 a imm)
  | .mfs be d a sel => some (be, .clean, encS 0x14 d a sel.val 0)
  | .mts be d a sel => if sel = 3 ∨ sel = 4 then some (be, .clean, encS 0x14 d a sel.val 1) else none
  | .nop be => some (be, .clean, encC 0 0)
  | .wend be => some (be, .clean, encC 1 0)
  | .chend be => some (be, .clean, encC 2 0)
  | .trap be imm => some (be, .clean, encC 3 imm)
  | .jr be a => some (be, .clean, encS 0x16 0 a 0 0)
  | .callr be a => some (be, .clean, encS 0x16 0 a 0 1)
  | .ret be a => some (be, .clean, encS 0x16 0 a 0 2)
  | .ldb be d base disp ecc => some (be, ecc, encM 0x18 d base disp)
  | .ldbs be d base disp ecc => some (be, ecc, encM 0x19 d base disp)
  | .ldh be d base disp ecc => some (be, ecc, encM 0x1A d base disp)
  | .ldhs be d base disp ecc => some (be, ecc, encM 0x1B d base disp)
  | .ldw be d base disp ecc => some (be, ecc, encM 0x1C d base disp)
  | .ldws be d base disp ecc => some (be, ecc, encM 0x1D d base disp)
  | .ldd be d base disp ecc => some (be, ecc, encM 0x1E d base disp)
  | .stb be d base disp => some (be, .clean, encM 0x20 d base disp)
  | .sth be d base disp => some (be, .clean, encM 0x21 d base disp)
  | .stw be d base disp => some (be, .clean, encM 0x22 d base disp)
  | .std be d base disp => some (be, .clean, encM 0x23 d base disp)
  | .ldxb be d a disp ecc => some (be, ecc, encI 0x28 d a disp)
  | .ldxbs be d a disp ecc => some (be, ecc, encI 0x29 d a disp)
  | .ldxh be d a disp ecc => some (be, ecc, encI 0x2A d a disp)
  | .ldxhs be d a disp ecc => some (be, ecc, encI 0x2B d a disp)
  | .ldxw be d a disp ecc => some (be, ecc, encI 0x2C d a disp)
  | .ldxws be d a disp ecc => some (be, ecc, encI 0x2D d a disp)
  | .ldxd be d a disp ecc => some (be, ecc, encI 0x2E d a disp)
  | .stxb be d a disp => some (be, .clean, encI 0x30 d a disp)
  | .stxh be d a disp => some (be, .clean, encI 0x31 d a disp)
  | .stxw be d a disp => some (be, .clean, encI 0x32 d a disp)
  | .stxd be d a disp => some (be, .clean, encI 0x33 d a disp)
  | .bbs be a bit off => some (be, .clean, encBb 0x36 a bit off)
  | .bbc be a bit off => some (be, .clean, encBb 0x37 a bit off)
  | .beq be a b off => some (be, .clean, encI 0x38 a b off)
  | .bne be a b off => some (be, .clean, encI 0x39 a b off)
  | .blt be a b off => some (be, .clean, encI 0x3A a b off)
  | .bge be a b off => some (be, .clean, encI 0x3B a b off)
  | .bltu be a b off => some (be, .clean, encI 0x3C a b off)
  | .bgeu be a b off => some (be, .clean, encI 0x3D a b off)
  | .j be off => some (be, .clean, 0x3E#6 ++ off)
  | .call be off => some (be, .clean, 0x3F#6 ++ off)
  | _ => none

end Sys2Proof
end

