-- ==== Sys2Proof/Config.lean ====
section
/-!
DEFINITION. What an implementation fixes and what the spec leaves open. An opaque constant has no body: nothing can be
proved about its value, so every statement holds whatever it is. The numbers in brackets name the log entry.
-/

namespace Sys2Proof.Config

/-- A fresh open value: the n-th value that the spec leaves open, applied to the counter `free` of the state, which the
step that uses it advances [2]. -/
opaque freeValue : Nat → W64

/-- The code of a happening within its category: "The codes within categories 0x1 to 0xF are listed in the code table
delivered with each firmware release" (R409) [3]. The argument numbers the happening. -/
opaque recCode : Nat → BitVec 12

/-- The severity of a record whose severity no rule states (R407) [3]. -/
opaque recSev : Nat → BitVec 2

/-- IEEE 754-2019 lets an implementation detect tininess after or before rounding (R115) [4]. -/
opaque tinyAfterRounding : Bool

/-- IEEE 754-2019 lets an implementation signal invalid operation or not for a fused multiply-add of zero, infinity and
a quiet NaN (R115) [4]. -/
opaque fmaInvalidOnQuiet : Bool

/-- Whether a changed CAT entry already decides accesses issued before the barrier: "decided by the whole old entry or
the whole new one" (R376) [12]. -/
opaque catEarly : Nat → Bool

/-- The module's own clockIdentity of IEEE 1588-2019, which R359 uses and no rule gives [15]. -/
opaque clockIdentity : W64

/-- The 60 characters of a legal display page: R430 gives what a page tells and no layout of its three lines [16]. The
arguments are the page and the values it tells. -/
opaque pageText : Nat → List W64 → List Byte

/-- The byte at an offset of a committed state image: "Q, mailbox out, F, T and C state" in 4 KiB, in a layout that no rule gives
(R158) [125]. -/
opaque stateByte : RImage → Nat → Byte

/-- The byte at an offset of a commit buffer that holds stores, oldest first, each by address, size and data: no rule gives its
layout (R28) [125]. -/
opaque bufferByte : List (Nat × Nat × W64) → Nat → Byte

end Sys2Proof.Config
end

