-- ==== Sys2Proof/Machine/Bits.lean ====
section
/-!
DEFINITION. Plain data helpers the model shares: bit fields, sign extension, byte order, and the sparse store in which
memory and registers are kept (a sorted list of the entries that differ from what an unlisted key reads as).
-/

namespace Sys2Proof.Machine

/-- Bits `lo` up to `lo + w - 1` of a word, as a number. -/
def fldN (x : Nat) (lo w : Nat) : Nat := x / 2 ^ lo % 2 ^ w

/-- The word with bits `lo` up to `lo + w - 1` replaced by the low bits of `v`. -/
def setFldN (x : Nat) (lo w v : Nat) : Nat :=
  x - fldN x lo w * 2 ^ lo + v % 2 ^ w * 2 ^ lo

def bitN (x i : Nat) : Bool := x.testBit i

/-- A number read as a signed number of `w` bits. -/
def sextN (w x : Nat) : Int :=
  if x % 2 ^ w < 2 ^ (w - 1) then (x % 2 ^ w : Nat) else ((x % 2 ^ w : Nat) : Int) - (2 ^ w : Nat)

/-- Little-endian: the number spelled by bytes, the first the least significant. -/
def leNat : List Byte → Nat
  | [] => 0
  | b :: r => b.toNat + 256 * leNat r

/-- Little-endian: the `n` low bytes of a number, the least significant first. -/
def leBytes : Nat → Nat → List Byte
  | 0, _ => []
  | n + 1, v => BitVec.ofNat 8 v :: leBytes n (v / 256)

/-- A counter of `w` bits stops at its top and does not wrap (R70, R101, R225, R261, R308, R325, R353, R390, R419). -/
def satAdd (w x k : Nat) : Nat := min (x + k) (2 ^ w - 1)

/-- Element `i` of a vector, or its default beyond the end. -/
def vget [Inhabited α] (v : Vector α n) (i : Nat) : α := (v[i]?).getD default

/-- A vector with element `i` replaced; nothing beyond the end. -/
def vset (v : Vector α n) (i : Nat) (x : α) : Vector α n := v.setIfInBounds i x

/-- Element `i` of a vector changed by `f`; nothing beyond the end. -/
def vmod [Inhabited α] (v : Vector α n) (i : Nat) (f : α → α) : Vector α n := vset v i (f (vget v i))

/-- The entry of a sparse store at a key; `d` says what an unlisted key reads as. -/
def sget (d : Nat → α) : List (Nat × α) → Nat → α
  | [], a => d a
  | (k, v) :: r, a => if a = k then v else sget d r a

/-- A sparse store with one key written. Keys stay strictly rising and no entry equals what an unlisted key reads as. -/
def sset [DecidableEq α] (d : Nat → α) : List (Nat × α) → Nat → α → List (Nat × α)
  | [], a, x => if x = d a then [] else [(a, x)]
  | (k, v) :: r, a, x =>
    if a < k then (if x = d a then (k, v) :: r else (a, x) :: (k, v) :: r)
    else if a = k then (if x = d a then r else (a, x) :: r)
    else (k, v) :: sset d r a x

/-- The canonical form of a sparse store: keys above `lo` and strictly rising, no entry equal to what an unlisted key
reads as. -/
def swfFrom [DecidableEq α] (d : Nat → α) : Nat → List (Nat × α) → Bool
  | _, [] => true
  | lo, (k, v) :: r => decide (lo ≤ k) && decide (v ≠ d k) && swfFrom d (k + 1) r

def swf [DecidableEq α] (d : Nat → α) (m : List (Nat × α)) : Bool := swfFrom d 0 m

/-- The store `dst` with every key that `p` names taken from `src`. -/
def scopy [DecidableEq α] (d : Nat → α) (p : Nat → Bool) (src dst : List (Nat × α)) : List (Nat × α) :=
  (src.filter (fun e => p e.1)).foldl (fun m e => sset d m e.1 e.2) (dst.filter (fun e => !p e.1))

/-- A set of numbers, sparse. -/
abbrev NSet := List (Nat × Bool)

def NSet.has (m : NSet) (a : Nat) : Bool := sget (fun _ => false) m a
def NSet.add (m : NSet) (a : Nat) : NSet := sset (fun _ => false) m a true
def NSet.del (m : NSet) (a : Nat) : NSet := sset (fun _ => false) m a false

/-- A number put into a rising list. -/
def insNat (x : Nat) : List Nat → List Nat
  | [] => [x]
  | y :: r => if x ≤ y then x :: y :: r else y :: insNat x r

/-- Numbers in rising order. -/
def sortNat : List Nat → List Nat
  | [] => []
  | x :: r => insNat x (sortNat r)

/-- CRC, most significant bit first, no reflection: one byte into a `w`-bit remainder (R85). -/
def crcBits (w poly : Nat) : Nat → Nat → Nat
  | 0, r => r
  | n + 1, r =>
    crcBits w poly n (if r.testBit (w - 1) then Nat.xor (r * 2 % 2 ^ w) poly else r * 2 % 2 ^ w)

def crcByte (w poly : Nat) (r : Nat) (b : Byte) : Nat :=
  crcBits w poly 8 (Nat.xor r (b.toNat * 2 ^ (w - 8)))

def crcBytes (w poly : Nat) (r : Nat) (bs : List Byte) : Nat := bs.foldl (crcByte w poly) r

/-- The running signature fed one more byte (R85). -/
def sigByte (s : W64) (b : Byte) : W64 := BitVec.ofNat 64 (crcByte 64 0x42F0E1EBA9EA3693 s.toNat b)

def sigBytes (s : W64) (bs : List Byte) : W64 := bs.foldl sigByte s

/-- CRC-32 of IEEE 802.3: reflected polynomial 0xEDB88320, initial and final inversion. -/
def crc32Bits : Nat → Nat → Nat
  | 0, r => r
  | n + 1, r => crc32Bits n (if r % 2 = 1 then Nat.xor (r / 2) 0xEDB88320 else r / 2)

def crc32 (bs : List Byte) : Nat :=
  Nat.xor (bs.foldl (fun r b => crc32Bits 8 (Nat.xor r b.toNat)) 0xFFFFFFFF) 0xFFFFFFFF

/-- CRC-16, polynomial 0x1021, initial 0xFFFF, no reflection (R296). -/
def crc16 (bs : List Byte) : Nat := crcBytes 16 0x1021 0xFFFF bs

end Sys2Proof.Machine
end

