-- ==== Sys2Proof/Machine/Regs.lean ====
section
/-!
DEFINITION. The setup window: the address of every register and the place of every field (the field maps of every
chapter), and the rows of Table: Block header and Table: Consolidated register map (R468-R470) with the access type,
the reset value and the bits a write can change. An offset counts from the base of the window, 0x00_1000_0000.
-/

namespace Sys2Proof.Machine

/-- The access types of a setup register (R8). W1C fields are marked in `W1C` below. -/
inductive Access where
  | ro | wo | rw | rws | rwl
  deriving DecidableEq, Repr

/-- One row of the register map: `count` registers, `stride` apart, from offset `first`; `mask` has a 1 at every
bit that a write can change (every other bit of a written register is reserved, R6). -/
structure RegRow where
  name : String
  first : Nat
  stride : Nat
  count : Nat
  access : Access
  reset : BitVec 32
  mask : BitVec 32
  deriving DecidableEq, Repr

/-- A field: the offset of its register, its lowest bit and its width. -/
structure Field where
  off : Nat
  lo : Nat
  width : Nat
  deriving DecidableEq, Repr

/-! The offsets of the registers; the members of an array take their index. -/
namespace R
abbrev sysId : Nat := 0x0
abbrev sysCtrl : Nat := 0x4
abbrev sysStatus : Nat := 0x8
abbrev sysIgnored : Nat := 0x10
abbrev scanId : Nat := 0x1000
abbrev scanCtrl : Nat := 0x1004
abbrev scanStatus : Nat := 0x1008
abbrev scanApply : Nat := 0x100C
abbrev scanIgnored : Nat := 0x1010
abbrev brmId : Nat := 0x2000
abbrev brmCtrl : Nat := 0x2004
abbrev brmStatus : Nat := 0x2008
abbrev brmApply : Nat := 0x200C
abbrev brmIgnored : Nat := 0x2010
abbrev rfxId : Nat := 0x3000
abbrev rfxCtrl : Nat := 0x3004
abbrev rfxStatus : Nat := 0x3008
abbrev rfxApply : Nat := 0x300C
abbrev rfxIgnored : Nat := 0x3010
abbrev rfxPlanGen : Nat := 0x3014
abbrev olcId : Nat := 0x4000
abbrev olcCmd : Nat := 0x4004
abbrev olcStatus : Nat := 0x4008
abbrev olcApply : Nat := 0x400C
abbrev olcIgnored : Nat := 0x4010
abbrev pairId : Nat := 0x5000
abbrev pairCtrl : Nat := 0x5004
abbrev pairStatus : Nat := 0x5008
abbrev pairApply : Nat := 0x500C
abbrev pairIgnored : Nat := 0x5010
abbrev pairPlanGen : Nat := 0x5014
abbrev dioId : Nat := 0x6000
abbrev dioCtrl : Nat := 0x6004
abbrev dioStatus : Nat := 0x6008
abbrev dioApply : Nat := 0x600C
abbrev dioIgnored : Nat := 0x6010
abbrev dioPlanGen : Nat := 0x6014
abbrev aoId : Nat := 0x7000
abbrev aoCtrl : Nat := 0x7004
abbrev aoStatus : Nat := 0x7008
abbrev aoApply : Nat := 0x700C
abbrev aoIgnored : Nat := 0x7010
abbrev acqId : Nat := 0x8000
abbrev acqCtrl : Nat := 0x8004
abbrev acqStatus : Nat := 0x8008
abbrev acqApply : Nat := 0x800C
abbrev acqIgnored : Nat := 0x8010
abbrev acqPlanGen : Nat := 0x8014
abbrev ringId : Nat := 0x9000
abbrev ringCtrl : Nat := 0x9004
abbrev ringStatus : Nat := 0x9008
abbrev ringApply : Nat := 0x900C
abbrev ringIgnored : Nat := 0x9010
abbrev ringPlanGen : Nat := 0x9014
abbrev canId : Nat := 0xA000
abbrev canCtrl : Nat := 0xA004
abbrev canStatus : Nat := 0xA008
abbrev canApply : Nat := 0xA00C
abbrev canIgnored : Nat := 0xA010
abbrev canPlanGen : Nat := 0xA014
abbrev hostId : Nat := 0xB000
abbrev hostCtrl : Nat := 0xB004
abbrev hostStatus : Nat := 0xB008
abbrev hostIgnored : Nat := 0xB010
abbrev dmaId : Nat := 0xC000
abbrev dmaCtrl : Nat := 0xC004
abbrev dmaStatus : Nat := 0xC008
abbrev dmaApply : Nat := 0xC00C
abbrev dmaIgnored : Nat := 0xC010
abbrev dmaPlanGen : Nat := 0xC014
abbrev drayId : Nat := 0xD000
abbrev drayCtrl : Nat := 0xD004
abbrev drayStatus : Nat := 0xD008
abbrev drayApply : Nat := 0xD00C
abbrev drayIgnored : Nat := 0xD010
abbrev timeId : Nat := 0xE000
abbrev timeCtrl : Nat := 0xE004
abbrev timeStatus : Nat := 0xE008
abbrev timeApply : Nat := 0xE00C
abbrev timeIgnored : Nat := 0xE010
abbrev catId : Nat := 0xF000
abbrev catCtrl : Nat := 0xF004
abbrev catStatus : Nat := 0xF008
abbrev catBarrier : Nat := 0xF00C
abbrev catBarrierDone : Nat := 0xF010
abbrev catIgnored : Nat := 0xF014
abbrev memId : Nat := 0x10000
abbrev memCtrl : Nat := 0x10004
abbrev memStatus : Nat := 0x10008
abbrev memApply : Nat := 0x1000C
abbrev memIgnored : Nat := 0x10010
abbrev wfId : Nat := 0x11000
abbrev wfCtrl : Nat := 0x11004
abbrev wfStatus : Nat := 0x11008
abbrev wfApply : Nat := 0x1100C
abbrev wfIgnored : Nat := 0x11010
abbrev recId : Nat := 0x12000
abbrev recCtrl : Nat := 0x12004
abbrev recStatus : Nat := 0x12008
abbrev recApply : Nat := 0x1200C
abbrev recIgnored : Nat := 0x12010
abbrev obsId : Nat := 0x14000
abbrev obsCtrl : Nat := 0x14004
abbrev obsStatus : Nat := 0x14008
abbrev obsApply : Nat := 0x1400C
abbrev obsIgnored : Nat := 0x14010
abbrev pwrId : Nat := 0x15000
abbrev pwrCtrl : Nat := 0x15004
abbrev pwrStatus : Nat := 0x15008
abbrev pwrApply : Nat := 0x1500C
abbrev pwrIgnored : Nat := 0x15010
abbrev sysCfgStatus : Nat := 0x14
abbrev sysBadAccess : Nat := 0x18
abbrev sysBadInfo : Nat := 0x1C
abbrev sysRestart : Nat := 0x20
abbrev sysResetCause : Nat := 0x24
abbrev sysMcRestarts : Nat := 0x28
abbrev sysShadowPend : Nat := 0x2C
abbrev sysApplyPend : Nat := 0x30
abbrev sysSerialLo : Nat := 0x34
abbrev sysSerialHi : Nat := 0x38
abbrev sysVariant : Nat := 0x3C
abbrev sysTemp : Nat := 0x40
abbrev scanFPeriod : Nat := 0x1014
abbrev scanNMult : Nat := 0x1018
abbrev scanSMult : Nat := 0x101C
abbrev scanWdTol : Nat := 0x1020
abbrev scanRestart : Nat := 0x1024
abbrev scanCycleLo : Nat := 0x1028
abbrev scanCycleHi : Nat := 0x102C
abbrev scanTrip : Nat := 0x1030
abbrev scanTripCycle : Nat := 0x1034
abbrev scanEvqDepth : Nat := 0x1038
abbrev scanEvqOvf : Nat := 0x103C
abbrev scanEDefer : Nat := 0x1040
abbrev scanECount : Nat := 0x1044
abbrev scanChnCount (n : Nat) : Nat := 0x1080 + n * 0x10
abbrev scanChnLate (n : Nat) : Nat := 0x1084 + n * 0x10
abbrev scanChnExecLast (n : Nat) : Nat := 0x1088 + n * 0x10
abbrev scanChnExecMax (n : Nat) : Nat := 0x108C + n * 0x10
abbrev brmAvailMask : Nat := 0x2014
abbrev brmSelftestMask : Nat := 0x2018
abbrev brmRetiredMask : Nat := 0x201C
abbrev brmReserve : Nat := 0x2020
abbrev brmMismatch : Nat := 0x2024
abbrev brmRestarts : Nat := 0x2028
abbrev brmTransients : Nat := 0x202C
abbrev brmStealIn : Nat := 0x2030
abbrev brmStealX : Nat := 0x2034
abbrev brmWindowsLo : Nat := 0x2038
abbrev brmWindowsHi : Nat := 0x203C
abbrev brmAuditCtrl : Nat := 0x2040
abbrev brmAuditLap : Nat := 0x2044
abbrev brmAuditDone : Nat := 0x2048
abbrev brmAuditFail : Nat := 0x204C
abbrev brmAuditCov : Nat := 0x2050
abbrev brmUnretire : Nat := 0x2054
abbrev brmBenState (n : Nat) : Nat := 0x2100 + n * 0x8
abbrev brmBenMismatch (n : Nat) : Nat := 0x2104 + n * 0x8
abbrev rfxSlots : Nat := 0x3018
abbrev rfxProgInfo : Nat := 0x301C
abbrev rfxProgId : Nat := 0x3020
abbrev rfxOutBind : Nat := 0x3024
abbrev rfxArmIrise : Nat := 0x3028
abbrev rfxArmIfall : Nat := 0x302C
abbrev rfxArmArise : Nat := 0x3030
abbrev rfxArmAfall : Nat := 0x3034
abbrev rfxSafe : Nat := 0x3038
abbrev rfxPassesLo : Nat := 0x303C
abbrev rfxPassesHi : Nat := 0x3040
abbrev rfxEvpasses : Nat := 0x3044
abbrev rfxAborts : Nat := 0x3048
abbrev rfxWaits : Nat := 0x304C
abbrev rfxDisagree : Nat := 0x3050
abbrev rfxReplace : Nat := 0x3054
abbrev rfxMaxlat : Nat := 0x3058
abbrev rfxUnretire : Nat := 0x305C
abbrev rfxFrameLo : Nat := 0x3060
abbrev rfxFrameHi : Nat := 0x3064
abbrev rfxEnmState (n : Nat) : Nat := 0x3100 + n * 0x8
abbrev rfxEnmDisagree (n : Nat) : Nat := 0x3104 + n * 0x8
abbrev olcCfg : Nat := 0x4014
abbrev olcLoaded : Nat := 0x4018
abbrev olcRefuse : Nat := 0x401C
abbrev olcRefuseArg : Nat := 0x4020
abbrev olcActIdLo : Nat := 0x4024
abbrev olcActIdHi : Nat := 0x4028
abbrev olcActVer : Nat := 0x402C
abbrev olcPendIdLo : Nat := 0x4030
abbrev olcPendIdHi : Nat := 0x4034
abbrev olcPendVer : Nat := 0x4038
abbrev olcTco : Nat := 0x403C
abbrev olcTcoLimit : Nat := 0x4040
abbrev olcSwCycleLo : Nat := 0x4044
abbrev olcSwCycleHi : Nat := 0x4048
abbrev olcSwitches : Nat := 0x404C
abbrev olcFallbacks : Nat := 0x4050
abbrev olcForces : Nat := 0x4054
abbrev olcConflicts : Nat := 0x4058
abbrev olcVwDone : Nat := 0x405C
abbrev olcVwRefused : Nat := 0x4060
abbrev olcKeyValid : Nat := 0x4064
abbrev pairCfg : Nat := 0x5018
abbrev pairHealth : Nat := 0x501C
abbrev pairSwitches : Nat := 0x5020
abbrev pairLastSw : Nat := 0x5024
abbrev pairSwCycleLo : Nat := 0x5028
abbrev pairSwCycleHi : Nat := 0x502C
abbrev pairLastGap : Nat := 0x5030
abbrev pairLastRgap : Nat := 0x5034
abbrev pairHbMiss : Nat := 0x5038
abbrev pairSealMiss : Nat := 0x503C
abbrev pairCopyLast : Nat := 0x5040
abbrev pairCopyMax : Nat := 0x5044
abbrev pairSweepLap : Nat := 0x5048
abbrev pairDiverge : Nat := 0x504C
abbrev pairBenign : Nat := 0x5050
abbrev pairAgreeFail : Nat := 0x5054
abbrev pairClaimRef : Nat := 0x5058
abbrev pairSync : Nat := 0x505C
abbrev dioLplus : Nat := 0x6018
abbrev dioSupplyCnt : Nat := 0x601C
abbrev dioDir : Nat := 0x6020
abbrev dioPaired : Nat := 0x6024
abbrev dioSafe : Nat := 0x6028
abbrev dioInState : Nat := 0x602C
abbrev dioInValid : Nat := 0x6030
abbrev dioOutRb : Nat := 0x6034
abbrev dioLatched : Nat := 0x6038
abbrev dioChkLast : Nat := 0x603C
abbrev dioIfaceErr : Nat := 0x6040
abbrev dioChnCfg (n : Nat) : Nat := 0x6100 + n * 0x10
abbrev dioChnStatus (n : Nat) : Nat := 0x6104 + n * 0x10
abbrev dioChnShorts (n : Nat) : Nat := 0x6108 + n * 0x10
abbrev dioChnRetries (n : Nat) : Nat := 0x610C + n * 0x10
abbrev aoCalLast : Nat := 0x7014
abbrev aoCompV : Nat := 0x7018
abbrev aoChnCfg (n : Nat) : Nat := 0x7100 + n * 0x20
abbrev aoChnSafe (n : Nat) : Nat := 0x7104 + n * 0x20
abbrev aoChnTrimLo (n : Nat) : Nat := 0x7108 + n * 0x20
abbrev aoChnTrimHi (n : Nat) : Nat := 0x710C + n * 0x20
abbrev aoChnCmd (n : Nat) : Nat := 0x7110 + n * 0x20
abbrev aoChnReadback (n : Nat) : Nat := 0x7114 + n * 0x20
abbrev aoChnStatus (n : Nat) : Nat := 0x7118 + n * 0x20
abbrev aoChnFaults (n : Nat) : Nat := 0x711C + n * 0x20
abbrev acqCfg : Nat := 0x8018
abbrev acqPre : Nat := 0x801C
abbrev acqPost : Nat := 0x8020
abbrev acqMaxlen : Nat := 0x8024
abbrev acqSeqState : Nat := 0x8028
abbrev acqCaptures : Nat := 0x802C
abbrev acqBacklog : Nat := 0x8030
abbrev acqLost : Nat := 0x8034
abbrev acqRateChg : Nat := 0x8038
abbrev acqCalLast : Nat := 0x803C
abbrev acqSkewLast : Nat := 0x8040
abbrev acqSampleLo : Nat := 0x8044
abbrev acqSampleHi : Nat := 0x8048
abbrev acqCntkPreset (n : Nat) : Nat := 0x8050 + n * 0x8
abbrev acqCntkValue (n : Nat) : Nat := 0x8054 + n * 0x8
abbrev acqStsCond (n : Nat) : Nat := 0x8100 + n * 0x10
abbrev acqStsNext (n : Nat) : Nat := 0x8104 + n * 0x10
abbrev acqStsTimer (n : Nat) : Nat := 0x8108 + n * 0x10
abbrev acqStsAct (n : Nat) : Nat := 0x810C + n * 0x10
abbrev acqEvnCfg (n : Nat) : Nat := 0x8200 + n * 0x8
abbrev acqEvnLevel (n : Nat) : Nat := 0x8204 + n * 0x8
abbrev acqChcStatus (n : Nat) : Nat := 0x8300 + n * 0x8
abbrev acqChcSkew (n : Nat) : Nat := 0x8304 + n * 0x8
abbrev ringCfg : Nat := 0x9018
abbrev ringPlanArea : Nat := 0x901C
abbrev ringExch : Nat := 0x9020
abbrev ringStations : Nat := 0x9024
abbrev ringELimit : Nat := 0x9028
abbrev ringELast : Nat := 0x902C
abbrev ringLate : Nat := 0x9030
abbrev ringRxDrop : Nat := 0x9034
abbrev ringCopyDiff : Nat := 0x9038
abbrev ringPeerCfg : Nat := 0x903C
abbrev ringPpStatus (n : Nat) : Nat := 0x9040 + n * 0x8
abbrev ringPpErr (n : Nat) : Nat := 0x9044 + n * 0x8
abbrev ringStsState (n : Nat) : Nat := 0x9100 + n * 0x8
abbrev ringStsMiss (n : Nat) : Nat := 0x9104 + n * 0x8
abbrev ringPeerSjState (n : Nat) : Nat := 0x9900 + n * 0x8
abbrev ringPeerSjMiss (n : Nat) : Nat := 0x9904 + n * 0x8
abbrev canPlanArea : Nat := 0xA018
abbrev canRxDrop : Nat := 0xA01C
abbrev canChnBittime (n : Nat) : Nat := 0xA100 + n * 0x40
abbrev canChnDbittime (n : Nat) : Nat := 0xA104 + n * 0x40
abbrev canChnCfg (n : Nat) : Nat := 0xA108 + n * 0x40
abbrev canChnStatus (n : Nat) : Nat := 0xA10C + n * 0x40
abbrev canChnTxok (n : Nat) : Nat := 0xA110 + n * 0x40
abbrev canChnRxok (n : Nat) : Nat := 0xA114 + n * 0x40
abbrev canChnErrs (n : Nat) : Nat := 0xA118 + n * 0x40
abbrev canChnAckerr (n : Nat) : Nat := 0xA11C + n * 0x40
abbrev canChnColl (n : Nat) : Nat := 0xA120 + n * 0x40
abbrev canChnUnmatched (n : Nat) : Nat := 0xA124 + n * 0x40
abbrev canChnOverwrite (n : Nat) : Nat := 0xA128 + n * 0x40
abbrev canChnTdc (n : Nat) : Nat := 0xA12C + n * 0x40
abbrev canChnRxerr (n : Nat) : Nat := 0xA130 + n * 0x40
abbrev hostRingEn : Nat := 0xB00C
abbrev hostPpStatus (n : Nat) : Nat := 0xB040 + n * 0x40
abbrev hostPpCqBaseLo (n : Nat) : Nat := 0xB044 + n * 0x40
abbrev hostPpCqBaseHi (n : Nat) : Nat := 0xB048 + n * 0x40
abbrev hostPpCqCfg (n : Nat) : Nat := 0xB04C + n * 0x40
abbrev hostPpCqHead (n : Nat) : Nat := 0xB050 + n * 0x40
abbrev hostPpEqBaseLo (n : Nat) : Nat := 0xB054 + n * 0x40
abbrev hostPpEqBaseHi (n : Nat) : Nat := 0xB058 + n * 0x40
abbrev hostPpEqCfg (n : Nat) : Nat := 0xB05C + n * 0x40
abbrev hostPpEqHead (n : Nat) : Nat := 0xB060 + n * 0x40
abbrev hostPpEqMask (n : Nat) : Nat := 0xB064 + n * 0x40
abbrev hostPpEqLost (n : Nat) : Nat := 0xB068 + n * 0x40
abbrev hostPpFaultLo (n : Nat) : Nat := 0xB06C + n * 0x40
abbrev hostPpFaultHi (n : Nat) : Nat := 0xB070 + n * 0x40
abbrev hostPpCmds (n : Nat) : Nat := 0xB074 + n * 0x40
abbrev hostChnBaseLo (n : Nat) : Nat := 0xB200 + n * 0x20
abbrev hostChnBaseHi (n : Nat) : Nat := 0xB204 + n * 0x20
abbrev hostChnCfg (n : Nat) : Nat := 0xB208 + n * 0x20
abbrev hostChnDoorbell (n : Nat) : Nat := 0xB20C + n * 0x20
abbrev hostChnProd (n : Nat) : Nat := 0xB210 + n * 0x20
abbrev hostChnTaken (n : Nat) : Nat := 0xB214 + n * 0x20
abbrev hostChnDone (n : Nat) : Nat := 0xB218 + n * 0x20
abbrev hostChnErr (n : Nat) : Nat := 0xB21C + n * 0x20
abbrev dmaChnProg (n : Nat) : Nat := 0xC100 + n * 0x20
abbrev dmaChnStatus (n : Nat) : Nat := 0xC104 + n * 0x20
abbrev dmaChnFaultLo (n : Nat) : Nat := 0xC108 + n * 0x20
abbrev dmaChnFaultHi (n : Nat) : Nat := 0xC10C + n * 0x20
abbrev dmaChnResume (n : Nat) : Nat := 0xC110 + n * 0x20
abbrev dmaChnBytesLo (n : Nat) : Nat := 0xC114 + n * 0x20
abbrev dmaChnBytesHi (n : Nat) : Nat := 0xC118 + n * 0x20
abbrev dmaChnFaults (n : Nat) : Nat := 0xC11C + n * 0x20
abbrev drayCfg : Nat := 0xD014
abbrev drayLinkups : Nat := 0xD018
abbrev drayPpStatus (n : Nat) : Nat := 0xD020 + n * 0x4
abbrev drayChnGrant (n : Nat) : Nat := 0xD100 + n * 0x20
abbrev drayChnUsed (n : Nat) : Nat := 0xD104 + n * 0x20
abbrev drayChnFramesLo (n : Nat) : Nat := 0xD108 + n * 0x20
abbrev drayChnFramesHi (n : Nat) : Nat := 0xD10C + n * 0x20
abbrev drayChnQueue (n : Nat) : Nat := 0xD110 + n * 0x20
abbrev drayChnStall (n : Nat) : Nat := 0xD114 + n * 0x20
abbrev drayChnDrop (n : Nat) : Nat := 0xD118 + n * 0x20
abbrev timePtpCfg : Nat := 0xE014
abbrev timeServoCfg : Nat := 0xE018
abbrev timeUtcCfg : Nat := 0xE01C
abbrev timeSnapTb0SecLo : Nat := 0xE020
abbrev timeSnapTb0SecHi : Nat := 0xE024
abbrev timeSnapTb0Ns : Nat := 0xE028
abbrev timeSnapTb1Lo : Nat := 0xE02C
abbrev timeSnapTb1Hi : Nat := 0xE030
abbrev timeSnapTb2Lo : Nat := 0xE034
abbrev timeSnapTb2Hi : Nat := 0xE038
abbrev timeSnapTb3Lo : Nat := 0xE03C
abbrev timeSnapTb3Hi : Nat := 0xE040
abbrev timeUtc : Nat := 0xE044
abbrev timeOffset : Nat := 0xE048
abbrev timePathDelay : Nat := 0xE04C
abbrev timeRate : Nat := 0xE050
abbrev timeHoldS : Nat := 0xE054
abbrev timeTb0Err : Nat := 0xE058
abbrev timeSteps : Nat := 0xE05C
abbrev timeParentLo : Nat := 0xE060
abbrev timeParentHi : Nat := 0xE064
abbrev timeMasterChg : Nat := 0xE068
abbrev timeSetSecLo : Nat := 0xE06C
abbrev timeSetSecHi : Nat := 0xE070
abbrev timeSetNs : Nat := 0xE074
abbrev timeSet : Nat := 0xE078
abbrev timePpStatus (n : Nat) : Nat := 0xE100 + n * 0x20
abbrev timePpRxCorr (n : Nat) : Nat := 0xE104 + n * 0x20
abbrev timePpTxCorr (n : Nat) : Nat := 0xE108 + n * 0x20
abbrev timePpSyncRx (n : Nat) : Nat := 0xE10C + n * 0x20
abbrev timePpAnnTo (n : Nat) : Nat := 0xE110 + n * 0x20
abbrev timePpDrop (n : Nat) : Nat := 0xE114 + n * 0x20
abbrev catFaultLo : Nat := 0xF018
abbrev catFaultHi : Nat := 0xF01C
abbrev catFaultInfo : Nat := 0xF020
abbrev catClmFaults (n : Nat) : Nat := 0xF040 + n * 0x4
abbrev catEnteAddr (n : Nat) : Nat := 0xF400 + n * 0x8
abbrev catEnteAttr (n : Nat) : Nat := 0xF404 + n * 0x8
abbrev memCfg : Nat := 0x10014
abbrev memFuse : Nat := 0x10018
abbrev memUeLastLo : Nat := 0x1001C
abbrev memUeLastHi : Nat := 0x10020
abbrev memUeInfo : Nat := 0x10024
abbrev memRgrLap (n : Nat) : Nat := 0x10100 + n * 0x10
abbrev memRgrCe (n : Nat) : Nat := 0x10104 + n * 0x10
abbrev memRgrUe (n : Nat) : Nat := 0x10108 + n * 0x10
abbrev memRgrHard (n : Nat) : Nat := 0x1010C + n * 0x10
abbrev wfCfg : Nat := 0x11014
abbrev wfHealthCyc : Nat := 0x11018
abbrev wfHoldup : Nat := 0x1101C
abbrev wfHoldupLast : Nat := 0x11020
abbrev wfFlash : Nat := 0x11024
abbrev wfLate : Nat := 0x11028
abbrev wfBrmTime : Nat := 0x1102C
abbrev wfSweepShort : Nat := 0x11030
abbrev wfClcLast (n : Nat) : Nat := 0x11100 + n * 0x10
abbrev wfClcLap (n : Nat) : Nat := 0x11104 + n * 0x10
abbrev wfClcRuns (n : Nat) : Nat := 0x11108 + n * 0x10
abbrev wfClcPreempt (n : Nat) : Nat := 0x1110C + n * 0x10
abbrev recCfg : Nat := 0x12014
abbrev recCount : Nat := 0x12018
abbrev recFlushed : Nat := 0x1201C
abbrev recStaged : Nat := 0x12020
abbrev recRefused : Nat := 0x12024
abbrev recOvf : Nat := 0x12028
abbrev recLost : Nat := 0x1202C
abbrev recSuppressed : Nat := 0x12030
abbrev recFlushes : Nat := 0x12034
abbrev recArmed : Nat := 0x12038
abbrev tcId : Nat := 0x13000
abbrev tcBay : Nat := 0x13004
abbrev tcIgnored : Nat := 0x13008
abbrev tcReadErr : Nat := 0x1300C
abbrev tcFits : Nat := 0x13010
abbrev tcSerialLo : Nat := 0x13100
abbrev tcSerialHi : Nat := 0x13104
abbrev tcSwId : Nat := 0x13108
abbrev tcState : Nat := 0x1310C
abbrev tcSnapSeq : Nat := 0x13110
abbrev tcLogCount : Nat := 0x13114
abbrev tcGapCnt : Nat := 0x13118
abbrev tcTemp : Nat := 0x1311C
abbrev tcPari (n : Nat) : Nat := 0x13180 + n * 0x4
abbrev tcFfEpImpLo (n : Nat) : Nat := 0x13200 + n * 0x40
abbrev tcFfEpImpHi (n : Nat) : Nat := 0x13204 + n * 0x40
abbrev tcFfEpExpLo (n : Nat) : Nat := 0x13208 + n * 0x40
abbrev tcFfEpExpHi (n : Nat) : Nat := 0x1320C + n * 0x40
abbrev tcFfEqIndLo (n : Nat) : Nat := 0x13210 + n * 0x40
abbrev tcFfEqIndHi (n : Nat) : Nat := 0x13214 + n * 0x40
abbrev tcFfEqCapLo (n : Nat) : Nat := 0x13218 + n * 0x40
abbrev tcFfEqCapHi (n : Nat) : Nat := 0x1321C + n * 0x40
abbrev tcFfP (n : Nat) : Nat := 0x13220 + n * 0x40
abbrev tcFfQ (n : Nat) : Nat := 0x13224 + n * 0x40
abbrev tcFfStatus (n : Nat) : Nat := 0x13228 + n * 0x40
abbrev tcFlkTotalLo (n : Nat) : Nat := 0x13400 + n * 0x10
abbrev tcFlkTotalHi (n : Nat) : Nat := 0x13404 + n * 0x10
abbrev tcFlkRate (n : Nat) : Nat := 0x13408 + n * 0x10
abbrev tcFlkStatus (n : Nat) : Nat := 0x1340C + n * 0x10
abbrev tcPgqWw (n : Nat) : Nat := 0x13600 + n * 0x4
abbrev obsCfg : Nat := 0x14014
abbrev obsSelSeq : Nat := 0x14018
abbrev obsReads : Nat := 0x1401C
abbrev obsRefused : Nat := 0x14020
abbrev obsDrop : Nat := 0x14024
abbrev obsCntk (n : Nat) : Nat := 0x14400 + n * 0x4
abbrev obsCntkSel (n : Nat) : Nat := 0x14800 + n * 0x4
abbrev pwrCfg : Nat := 0x15014
abbrev pwrVin : Nat := 0x15018
abbrev pwrVbank : Nat := 0x1501C
abbrev pwrBootT : Nat := 0x15020
abbrev pwrPfCnt : Nat := 0x15024
abbrev pwrRestarts : Nat := 0x15028
abbrev pwrFwVer : Nat := 0x1502C
end R

/-! The fields, `register_field`. -/
namespace F
abbrev scanCtrl_start : Field := ⟨R.scanCtrl, 0, 1⟩
abbrev scanCtrl_clrMax : Field := ⟨R.scanCtrl, 1, 1⟩
abbrev scanStatus_runstate : Field := ⟨R.scanStatus, 0, 2⟩
abbrev scanStatus_fLate : Field := ⟨R.scanStatus, 2, 1⟩
abbrev scanStatus_nLate : Field := ⟨R.scanStatus, 3, 1⟩
abbrev scanStatus_sLate : Field := ⟨R.scanStatus, 4, 1⟩
abbrev scanStatus_eDefer : Field := ⟨R.scanStatus, 5, 1⟩
abbrev scanStatus_evqFull : Field := ⟨R.scanStatus, 6, 1⟩
abbrev scanStatus_mbxStale : Field := ⟨R.scanStatus, 7, 1⟩
abbrev scanFPeriod_periodUs : Field := ⟨R.scanFPeriod, 0, 14⟩
abbrev scanNMult_mult : Field := ⟨R.scanNMult, 0, 8⟩
abbrev scanSMult_mult : Field := ⟨R.scanSMult, 0, 8⟩
abbrev scanWdTol_fTol : Field := ⟨R.scanWdTol, 0, 8⟩
abbrev scanWdTol_nTol : Field := ⟨R.scanWdTol, 8, 8⟩
abbrev scanWdTol_sTol : Field := ⟨R.scanWdTol, 16, 8⟩
abbrev scanRestart_key : Field := ⟨R.scanRestart, 0, 16⟩
abbrev scanRestart_mode : Field := ⟨R.scanRestart, 16, 1⟩
abbrev scanTrip_class : Field := ⟨R.scanTrip, 0, 2⟩
abbrev scanTrip_valid : Field := ⟨R.scanTrip, 2, 1⟩
abbrev scanTrip_partner : Field := ⟨R.scanTrip, 3, 1⟩
abbrev brmCtrl_clrCnt : Field := ⟨R.brmCtrl, 0, 1⟩
abbrev brmStatus_reserveUsed : Field := ⟨R.brmStatus, 0, 1⟩
abbrev brmStatus_shortfall : Field := ⟨R.brmStatus, 1, 1⟩
abbrev brmStatus_selftest : Field := ⟨R.brmStatus, 2, 1⟩
abbrev brmStatus_auditRun : Field := ⟨R.brmStatus, 3, 1⟩
abbrev brmStatus_auditAlarm : Field := ⟨R.brmStatus, 4, 1⟩
abbrev brmStatus_brambleFault : Field := ⟨R.brmStatus, 5, 1⟩
abbrev brmStatus_lockstepOff : Field := ⟨R.brmStatus, 6, 1⟩
abbrev brmReserve_active : Field := ⟨R.brmReserve, 0, 6⟩
abbrev brmReserve_selftest : Field := ⟨R.brmReserve, 8, 6⟩
abbrev brmReserve_retired : Field := ⟨R.brmReserve, 16, 6⟩
abbrev brmReserve_down : Field := ⟨R.brmReserve, 24, 6⟩
abbrev brmAuditCtrl_en : Field := ⟨R.brmAuditCtrl, 0, 1⟩
abbrev brmAuditCtrl_pairPct : Field := ⟨R.brmAuditCtrl, 8, 8⟩
abbrev brmAuditCtrl_alonePct : Field := ⟨R.brmAuditCtrl, 16, 8⟩
abbrev brmAuditCov_fPm : Field := ⟨R.brmAuditCov, 0, 10⟩
abbrev brmAuditCov_nPm : Field := ⟨R.brmAuditCov, 10, 10⟩
abbrev brmAuditCov_sPm : Field := ⟨R.brmAuditCov, 20, 10⟩
abbrev brmUnretire_engine : Field := ⟨R.brmUnretire, 0, 5⟩
abbrev brmUnretire_key : Field := ⟨R.brmUnretire, 16, 16⟩
abbrev brmBenState_state (n : Nat) : Field := ⟨R.brmBenState n, 0, 3⟩
abbrev brmBenState_verdict (n : Nat) : Field := ⟨R.brmBenState n, 4, 2⟩
abbrev brmBenState_core (n : Nat) : Field := ⟨R.brmBenState n, 6, 1⟩
abbrev brmBenState_trans24 (n : Nat) : Field := ⟨R.brmBenState n, 8, 2⟩
abbrev brmBenState_lastChain (n : Nat) : Field := ⟨R.brmBenState n, 16, 14⟩
abbrev rfxCtrl_arm : Field := ⟨R.rfxCtrl, 0, 1⟩
abbrev rfxCtrl_disarm : Field := ⟨R.rfxCtrl, 1, 1⟩
abbrev rfxCtrl_clrCnt : Field := ⟨R.rfxCtrl, 2, 1⟩
abbrev rfxCtrl_clrMaxlat : Field := ⟨R.rfxCtrl, 3, 1⟩
abbrev rfxStatus_armed : Field := ⟨R.rfxStatus, 0, 1⟩
abbrev rfxStatus_mbxStale : Field := ⟨R.rfxStatus, 1, 1⟩
abbrev rfxStatus_degraded : Field := ⟨R.rfxStatus, 2, 1⟩
abbrev rfxStatus_spareLost : Field := ⟨R.rfxStatus, 3, 1⟩
abbrev rfxStatus_noMajority : Field := ⟨R.rfxStatus, 4, 1⟩
abbrev rfxStatus_rfxStop : Field := ⟨R.rfxStatus, 5, 1⟩
abbrev rfxStatus_selftest : Field := ⟨R.rfxStatus, 6, 1⟩
abbrev rfxStatus_exchPend : Field := ⟨R.rfxStatus, 7, 1⟩
abbrev rfxSlots_slot0 : Field := ⟨R.rfxSlots, 0, 3⟩
abbrev rfxSlots_slot1 : Field := ⟨R.rfxSlots, 4, 3⟩
abbrev rfxSlots_slot2 : Field := ⟨R.rfxSlots, 8, 3⟩
abbrev rfxSlots_spare : Field := ⟨R.rfxSlots, 12, 3⟩
abbrev rfxProgInfo_length : Field := ⟨R.rfxProgInfo, 0, 11⟩
abbrev rfxProgInfo_slot : Field := ⟨R.rfxProgInfo, 16, 1⟩
abbrev rfxEnmState_state (n : Nat) : Field := ⟨R.rfxEnmState n, 0, 3⟩
abbrev rfxEnmState_verdict (n : Nat) : Field := ⟨R.rfxEnmState n, 4, 2⟩
abbrev rfxEnmState_trans24 (n : Nat) : Field := ⟨R.rfxEnmState n, 8, 2⟩
abbrev rfxUnretire_engine : Field := ⟨R.rfxUnretire, 0, 2⟩
abbrev rfxUnretire_key : Field := ⟨R.rfxUnretire, 16, 16⟩
abbrev olcCmd_cmd : Field := ⟨R.olcCmd, 0, 4⟩
abbrev olcCmd_relAck : Field := ⟨R.olcCmd, 4, 1⟩
abbrev olcCmd_key : Field := ⟨R.olcCmd, 16, 16⟩
abbrev olcStatus_pkgState : Field := ⟨R.olcStatus, 0, 4⟩
abbrev olcStatus_activeBank : Field := ⟨R.olcStatus, 4, 1⟩
abbrev olcStatus_patched : Field := ⟨R.olcStatus, 5, 1⟩
abbrev olcStatus_pairReady : Field := ⟨R.olcStatus, 6, 1⟩
abbrev olcStatus_forceConflict : Field := ⟨R.olcStatus, 7, 1⟩
abbrev olcStatus_vwPend : Field := ⟨R.olcStatus, 8, 1⟩
abbrev olcCfg_waitS : Field := ⟨R.olcCfg, 0, 8⟩
abbrev olcCfg_vwEn : Field := ⟨R.olcCfg, 8, 1⟩
abbrev pairCtrl_cmd : Field := ⟨R.pairCtrl, 0, 4⟩
abbrev pairCtrl_key : Field := ⟨R.pairCtrl, 16, 16⟩
abbrev pairStatus_state : Field := ⟨R.pairStatus, 0, 4⟩
abbrev pairStatus_pState : Field := ⟨R.pairStatus, 4, 4⟩
abbrev pairStatus_token : Field := ⟨R.pairStatus, 8, 1⟩
abbrev pairStatus_claim : Field := ⟨R.pairStatus, 9, 1⟩
abbrev pairStatus_ready : Field := ⟨R.pairStatus, 10, 1⟩
abbrev pairStatus_slot : Field := ⟨R.pairStatus, 11, 1⟩
abbrev pairStatus_dbUp : Field := ⟨R.pairStatus, 12, 1⟩
abbrev pairStatus_aliveUp : Field := ⟨R.pairStatus, 13, 1⟩
abbrev pairStatus_lever : Field := ⟨R.pairStatus, 14, 1⟩
abbrev pairStatus_pLever : Field := ⟨R.pairStatus, 15, 1⟩
abbrev pairStatus_lanes : Field := ⟨R.pairStatus, 16, 3⟩
abbrev pairStatus_synced : Field := ⟨R.pairStatus, 19, 1⟩
abbrev pairStatus_handover : Field := ⟨R.pairStatus, 20, 1⟩
abbrev pairStatus_islLink : Field := ⟨R.pairStatus, 21, 1⟩
abbrev pairCfg_hsMargin : Field := ⟨R.pairCfg, 0, 10⟩
abbrev pairCfg_hsDwell : Field := ⟨R.pairCfg, 10, 2⟩
abbrev pairCfg_sweepUnits : Field := ⟨R.pairCfg, 16, 8⟩
abbrev pairCfg_syncGbps : Field := ⟨R.pairCfg, 24, 4⟩
abbrev pairHealth_own : Field := ⟨R.pairHealth, 0, 10⟩
abbrev pairHealth_partner : Field := ⟨R.pairHealth, 16, 10⟩
abbrev pairHealth_forced : Field := ⟨R.pairHealth, 26, 1⟩
abbrev pairHealth_fcause : Field := ⟨R.pairHealth, 27, 3⟩
abbrev pairLastSw_trigger : Field := ⟨R.pairLastSw, 0, 3⟩
abbrev pairLastSw_kind : Field := ⟨R.pairLastSw, 3, 1⟩
abbrev pairLastSw_incoming : Field := ⟨R.pairLastSw, 4, 1⟩
abbrev pairLastSw_skipped : Field := ⟨R.pairLastSw, 8, 2⟩
abbrev pairSync_phase : Field := ⟨R.pairSync, 0, 2⟩
abbrev pairSync_copyPct : Field := ⟨R.pairSync, 8, 7⟩
abbrev pairSync_clean : Field := ⟨R.pairSync, 16, 7⟩
abbrev dioCtrl_clrCnt : Field := ⟨R.dioCtrl, 0, 1⟩
abbrev dioCtrl_clrMin : Field := ⟨R.dioCtrl, 1, 1⟩
abbrev dioStatus_lWarn : Field := ⟨R.dioStatus, 0, 1⟩
abbrev dioStatus_lOff : Field := ⟨R.dioStatus, 1, 1⟩
abbrev dioStatus_lRecover : Field := ⟨R.dioStatus, 2, 1⟩
abbrev dioStatus_islPresent : Field := ⟨R.dioStatus, 3, 1⟩
abbrev dioStatus_holding : Field := ⟨R.dioStatus, 4, 1⟩
abbrev dioStatus_holdSafe : Field := ⟨R.dioStatus, 5, 1⟩
abbrev dioStatus_holdSeen : Field := ⟨R.dioStatus, 6, 1⟩
abbrev dioStatus_latchedAny : Field := ⟨R.dioStatus, 7, 1⟩
abbrev dioStatus_rbFaultAny : Field := ⟨R.dioStatus, 8, 1⟩
abbrev dioStatus_chkFaultAny : Field := ⟨R.dioStatus, 9, 1⟩
abbrev dioChnCfg_filt (n : Nat) : Field := ⟨R.dioChnCfg n, 0, 12⟩
abbrev dioChnCfg_type (n : Nat) : Field := ⟨R.dioChnCfg n, 12, 1⟩
abbrev dioChnCfg_sample (n : Nat) : Field := ⟨R.dioChnCfg n, 13, 1⟩
abbrev dioChnCfg_limT (n : Nat) : Field := ⟨R.dioChnCfg n, 16, 8⟩
abbrev dioChnStatus_in (n : Nat) : Field := ⟨R.dioChnStatus n, 0, 1⟩
abbrev dioChnStatus_valid (n : Nat) : Field := ⟨R.dioChnStatus n, 1, 1⟩
abbrev dioChnStatus_rb (n : Nat) : Field := ⟨R.dioChnStatus n, 2, 1⟩
abbrev dioChnStatus_latched (n : Nat) : Field := ⟨R.dioChnStatus n, 3, 1⟩
abbrev dioChnStatus_rbFault (n : Nat) : Field := ⟨R.dioChnStatus n, 4, 1⟩
abbrev dioChnStatus_chkFault (n : Nat) : Field := ⟨R.dioChnStatus n, 5, 1⟩
abbrev dioChnStatus_ilim (n : Nat) : Field := ⟨R.dioChnStatus n, 6, 1⟩
abbrev dioChnStatus_owner (n : Nat) : Field := ⟨R.dioChnStatus n, 7, 1⟩
abbrev dioChnStatus_fcount (n : Nat) : Field := ⟨R.dioChnStatus n, 8, 12⟩
abbrev aoCtrl_retest : Field := ⟨R.aoCtrl, 0, 8⟩
abbrev aoCtrl_clrCnt : Field := ⟨R.aoCtrl, 8, 1⟩
abbrev aoChnCfg_mode (n : Nat) : Field := ⟨R.aoChnCfg n, 0, 1⟩
abbrev aoChnCfg_almDir (n : Nat) : Field := ⟨R.aoChnCfg n, 1, 1⟩
abbrev aoChnCfg_en (n : Nat) : Field := ⟨R.aoChnCfg n, 2, 1⟩
abbrev aoChnCfg_safeKind (n : Nat) : Field := ⟨R.aoChnCfg n, 3, 1⟩
abbrev aoChnCfg_loAlm (n : Nat) : Field := ⟨R.aoChnCfg n, 8, 4⟩
abbrev aoChnCfg_hiAlm (n : Nat) : Field := ⟨R.aoChnCfg n, 12, 4⟩
abbrev aoChnCfg_calEn (n : Nat) : Field := ⟨R.aoChnCfg n, 16, 1⟩
abbrev aoChnStatus_fallback (n : Nat) : Field := ⟨R.aoChnStatus n, 0, 1⟩
abbrev aoChnStatus_compliance (n : Nat) : Field := ⟨R.aoChnStatus n, 1, 1⟩
abbrev aoChnStatus_open (n : Nat) : Field := ⟨R.aoChnStatus n, 2, 1⟩
abbrev aoChnStatus_rbFault (n : Nat) : Field := ⟨R.aoChnStatus n, 3, 1⟩
abbrev aoChnStatus_calLimit (n : Nat) : Field := ⟨R.aoChnStatus n, 4, 1⟩
abbrev aoChnStatus_clamp (n : Nat) : Field := ⟨R.aoChnStatus n, 5, 1⟩
abbrev aoChnStatus_ramp (n : Nat) : Field := ⟨R.aoChnStatus n, 6, 1⟩
abbrev aoChnStatus_held (n : Nat) : Field := ⟨R.aoChnStatus n, 7, 1⟩
abbrev acqCtrl_enable : Field := ⟨R.acqCtrl, 0, 1⟩
abbrev acqCtrl_disable : Field := ⟨R.acqCtrl, 1, 1⟩
abbrev acqCtrl_arm : Field := ⟨R.acqCtrl, 2, 1⟩
abbrev acqCtrl_disarm : Field := ⟨R.acqCtrl, 3, 1⟩
abbrev acqCtrl_forceTrig : Field := ⟨R.acqCtrl, 4, 1⟩
abbrev acqCtrl_clrCnt : Field := ⟨R.acqCtrl, 5, 1⟩
abbrev acqStatus_enabled : Field := ⟨R.acqStatus, 0, 1⟩
abbrev acqStatus_capturing : Field := ⟨R.acqStatus, 1, 1⟩
abbrev acqStatus_dec : Field := ⟨R.acqStatus, 2, 3⟩
abbrev acqStatus_full : Field := ⟨R.acqStatus, 5, 1⟩
abbrev acqStatus_skewLate : Field := ⟨R.acqStatus, 6, 1⟩
abbrev acqStatus_inject : Field := ⟨R.acqStatus, 7, 1⟩
abbrev acqCfg_chmask : Field := ⟨R.acqCfg, 0, 16⟩
abbrev acqCfg_autoRearm : Field := ⟨R.acqCfg, 16, 1⟩
abbrev acqCfg_retrigExt : Field := ⟨R.acqCfg, 17, 1⟩
abbrev acqCfg_ringGb : Field := ⟨R.acqCfg, 20, 4⟩
abbrev acqStsCond_srcA (n : Nat) : Field := ⟨R.acqStsCond n, 0, 6⟩
abbrev acqStsCond_invA (n : Nat) : Field := ⟨R.acqStsCond n, 6, 1⟩
abbrev acqStsCond_enA (n : Nat) : Field := ⟨R.acqStsCond n, 7, 1⟩
abbrev acqStsCond_srcB (n : Nat) : Field := ⟨R.acqStsCond n, 8, 6⟩
abbrev acqStsCond_invB (n : Nat) : Field := ⟨R.acqStsCond n, 14, 1⟩
abbrev acqStsCond_enB (n : Nat) : Field := ⟨R.acqStsCond n, 15, 1⟩
abbrev acqStsNext_nextA (n : Nat) : Field := ⟨R.acqStsNext n, 0, 4⟩
abbrev acqStsNext_nextB (n : Nat) : Field := ⟨R.acqStsNext n, 4, 4⟩
abbrev acqStsNext_nextO (n : Nat) : Field := ⟨R.acqStsNext n, 8, 4⟩
abbrev acqStsNext_toEn (n : Nat) : Field := ⟨R.acqStsNext n, 12, 1⟩
abbrev acqStsAct_trig (n : Nat) : Field := ⟨R.acqStsAct n, 0, 1⟩
abbrev acqStsAct_idle (n : Nat) : Field := ⟨R.acqStsAct n, 1, 1⟩
abbrev acqStsAct_cntSel (n : Nat) : Field := ⟨R.acqStsAct n, 2, 2⟩
abbrev acqStsAct_cntInc (n : Nat) : Field := ⟨R.acqStsAct n, 4, 1⟩
abbrev acqStsAct_cntClr (n : Nat) : Field := ⟨R.acqStsAct n, 5, 1⟩
abbrev acqStsAct_mark (n : Nat) : Field := ⟨R.acqStsAct n, 6, 1⟩
abbrev acqEvnCfg_channel (n : Nat) : Field := ⟨R.acqEvnCfg n, 0, 4⟩
abbrev acqEvnCfg_kind (n : Nat) : Field := ⟨R.acqEvnCfg n, 4, 2⟩
abbrev acqEvnCfg_confirm (n : Nat) : Field := ⟨R.acqEvnCfg n, 8, 2⟩
abbrev ringCtrl_clrCnt : Field := ⟨R.ringCtrl, 0, 1⟩
abbrev ringStatus_master : Field := ⟨R.ringStatus, 0, 1⟩
abbrev ringStatus_passive : Field := ⟨R.ringStatus, 1, 1⟩
abbrev ringStatus_ring0 : Field := ⟨R.ringStatus, 2, 2⟩
abbrev ringStatus_ring1 : Field := ⟨R.ringStatus, 4, 2⟩
abbrev ringStatus_lostAny : Field := ⟨R.ringStatus, 6, 1⟩
abbrev ringStatus_mismatchAny : Field := ⟨R.ringStatus, 7, 1⟩
abbrev ringCfg_etype : Field := ⟨R.ringCfg, 0, 16⟩
abbrev ringCfg_phy0 : Field := ⟨R.ringCfg, 16, 1⟩
abbrev ringCfg_phy1 : Field := ⟨R.ringCfg, 17, 1⟩
abbrev ringStations_active : Field := ⟨R.ringStations, 0, 9⟩
abbrev ringStations_lost : Field := ⟨R.ringStations, 9, 9⟩
abbrev ringStations_returning : Field := ⟨R.ringStations, 18, 9⟩
abbrev ringPpStatus_link (n : Nat) : Field := ⟨R.ringPpStatus n, 0, 1⟩
abbrev ringPpStatus_down (n : Nat) : Field := ⟨R.ringPpStatus n, 1, 1⟩
abbrev ringPpStatus_field (n : Nat) : Field := ⟨R.ringPpStatus n, 2, 1⟩
abbrev ringPpStatus_phyX (n : Nat) : Field := ⟨R.ringPpStatus n, 3, 1⟩
abbrev ringStsState_state (n : Nat) : Field := ⟨R.ringStsState n, 0, 3⟩
abbrev ringStsState_retCnt (n : Nat) : Field := ⟨R.ringStsState n, 4, 4⟩
abbrev ringStsState_missCnt (n : Nat) : Field := ⟨R.ringStsState n, 8, 2⟩
abbrev ringStsState_seen (n : Nat) : Field := ⟨R.ringStsState n, 10, 2⟩
abbrev ringStsState_losses (n : Nat) : Field := ⟨R.ringStsState n, 16, 16⟩
abbrev ringPeerCfg_peerEtype : Field := ⟨R.ringPeerCfg, 0, 16⟩
abbrev ringPeerCfg_pairId : Field := ⟨R.ringPeerCfg, 16, 10⟩
abbrev ringPeerCfg_peerEn : Field := ⟨R.ringPeerCfg, 26, 1⟩
abbrev ringPeerSjState_state (n : Nat) : Field := ⟨R.ringPeerSjState n, 0, 3⟩
abbrev ringPeerSjState_retCnt (n : Nat) : Field := ⟨R.ringPeerSjState n, 4, 4⟩
abbrev ringPeerSjState_missCnt (n : Nat) : Field := ⟨R.ringPeerSjState n, 8, 2⟩
abbrev ringPeerSjState_seen (n : Nat) : Field := ⟨R.ringPeerSjState n, 10, 2⟩
abbrev ringPeerSjState_losses (n : Nat) : Field := ⟨R.ringPeerSjState n, 16, 16⟩
abbrev canCtrl_start : Field := ⟨R.canCtrl, 0, 4⟩
abbrev canCtrl_stop : Field := ⟨R.canCtrl, 4, 4⟩
abbrev canCtrl_clrCnt : Field := ⟨R.canCtrl, 8, 1⟩
abbrev canStatus_txPermit : Field := ⟨R.canStatus, 0, 4⟩
abbrev canStatus_anyFault : Field := ⟨R.canStatus, 4, 4⟩
abbrev canChnBittime_brp (n : Nat) : Field := ⟨R.canChnBittime n, 0, 6⟩
abbrev canChnBittime_tseg1 (n : Nat) : Field := ⟨R.canChnBittime n, 6, 9⟩
abbrev canChnBittime_tseg2 (n : Nat) : Field := ⟨R.canChnBittime n, 15, 8⟩
abbrev canChnBittime_sjw (n : Nat) : Field := ⟨R.canChnBittime n, 23, 8⟩
abbrev canChnDbittime_dbrp (n : Nat) : Field := ⟨R.canChnDbittime n, 0, 6⟩
abbrev canChnDbittime_dtseg1 (n : Nat) : Field := ⟨R.canChnDbittime n, 6, 6⟩
abbrev canChnDbittime_dtseg2 (n : Nat) : Field := ⟨R.canChnDbittime n, 12, 5⟩
abbrev canChnDbittime_dsjw (n : Nat) : Field := ⟨R.canChnDbittime n, 17, 5⟩
abbrev canChnDbittime_tdcEn (n : Nat) : Field := ⟨R.canChnDbittime n, 22, 1⟩
abbrev canChnDbittime_tdco (n : Nat) : Field := ⟨R.canChnDbittime n, 23, 7⟩
abbrev canChnCfg_boDelay (n : Nat) : Field := ⟨R.canChnCfg n, 0, 8⟩
abbrev canChnCfg_pex (n : Nat) : Field := ⟨R.canChnCfg n, 8, 1⟩
abbrev canChnStatus_pstate (n : Nat) : Field := ⟨R.canChnStatus n, 0, 3⟩
abbrev canChnStatus_epassive (n : Nat) : Field := ⟨R.canChnStatus n, 3, 1⟩
abbrev canChnStatus_lonely (n : Nat) : Field := ⟨R.canChnStatus n, 4, 1⟩
abbrev canChnStatus_collide (n : Nat) : Field := ⟨R.canChnStatus n, 5, 1⟩
abbrev canChnStatus_xcvrFault (n : Nat) : Field := ⟨R.canChnStatus n, 6, 1⟩
abbrev canChnStatus_tec (n : Nat) : Field := ⟨R.canChnStatus n, 8, 8⟩
abbrev canChnStatus_rec (n : Nat) : Field := ⟨R.canChnStatus n, 16, 8⟩
abbrev canChnColl_buf (n : Nat) : Field := ⟨R.canChnColl n, 0, 6⟩
abbrev canChnColl_count (n : Nat) : Field := ⟨R.canChnColl n, 16, 16⟩
abbrev hostCtrl_resume : Field := ⟨R.hostCtrl, 0, 2⟩
abbrev hostCtrl_clrCnt : Field := ⟨R.hostCtrl, 8, 1⟩
abbrev hostPpStatus_link (n : Nat) : Field := ⟨R.hostPpStatus n, 0, 1⟩
abbrev hostPpStatus_speed (n : Nat) : Field := ⟨R.hostPpStatus n, 1, 2⟩
abbrev hostPpStatus_width (n : Nat) : Field := ⟨R.hostPpStatus n, 3, 2⟩
abbrev hostPpStatus_refclk (n : Nat) : Field := ⟨R.hostPpStatus n, 5, 1⟩
abbrev hostPpStatus_halt (n : Nat) : Field := ⟨R.hostPpStatus n, 6, 1⟩
abbrev hostPpStatus_faultWr (n : Nat) : Field := ⟨R.hostPpStatus n, 7, 1⟩
abbrev hostPpStatus_cqFull (n : Nat) : Field := ⟨R.hostPpStatus n, 8, 1⟩
abbrev hostPpStatus_eqFull (n : Nat) : Field := ⟨R.hostPpStatus n, 9, 1⟩
abbrev hostPpStatus_peerDiff (n : Nat) : Field := ⟨R.hostPpStatus n, 10, 1⟩
abbrev hostChnErr_cause (n : Nat) : Field := ⟨R.hostChnErr n, 0, 2⟩
abbrev hostChnErr_halted (n : Nat) : Field := ⟨R.hostChnErr n, 2, 1⟩
abbrev hostChnErr_count (n : Nat) : Field := ⟨R.hostChnErr n, 16, 16⟩
abbrev dmaChnProg_en (n : Nat) : Field := ⟨R.dmaChnProg n, 0, 1⟩
abbrev dmaChnProg_port (n : Nat) : Field := ⟨R.dmaChnProg n, 1, 1⟩
abbrev dmaChnProg_rings (n : Nat) : Field := ⟨R.dmaChnProg n, 8, 8⟩
abbrev dmaChnProg_prio (n : Nat) : Field := ⟨R.dmaChnProg n, 16, 2⟩
abbrev dmaChnStatus_state (n : Nat) : Field := ⟨R.dmaChnStatus n, 0, 2⟩
abbrev dmaChnStatus_side (n : Nat) : Field := ⟨R.dmaChnStatus n, 2, 1⟩
abbrev dmaChnStatus_write (n : Nat) : Field := ⟨R.dmaChnStatus n, 3, 1⟩
abbrev dmaChnStatus_cause (n : Nat) : Field := ⟨R.dmaChnStatus n, 4, 4⟩
abbrev dmaChnStatus_ring (n : Nat) : Field := ⟨R.dmaChnStatus n, 8, 3⟩
abbrev dmaChnStatus_sequence (n : Nat) : Field := ⟨R.dmaChnStatus n, 16, 16⟩
abbrev dmaChnResume_action (n : Nat) : Field := ⟨R.dmaChnResume n, 0, 2⟩
abbrev dmaChnResume_key (n : Nat) : Field := ⟨R.dmaChnResume n, 16, 16⟩
abbrev drayStatus_linkUp : Field := ⟨R.drayStatus, 0, 1⟩
abbrev drayStatus_oneLane : Field := ⟨R.drayStatus, 1, 1⟩
abbrev drayStatus_dry : Field := ⟨R.drayStatus, 2, 4⟩
abbrev drayCfg_streamEn : Field := ⟨R.drayCfg, 0, 4⟩
abbrev drayCfg_histMib : Field := ⟨R.drayCfg, 16, 8⟩
abbrev timeCtrl_snap : Field := ⟨R.timeCtrl, 0, 1⟩
abbrev timeCtrl_clrCnt : Field := ⟨R.timeCtrl, 1, 1⟩
abbrev timeStatus_tb0State : Field := ⟨R.timeStatus, 0, 2⟩
abbrev timeStatus_slavePort : Field := ⟨R.timeStatus, 2, 1⟩
abbrev timeStatus_hasSlave : Field := ⟨R.timeStatus, 3, 1⟩
abbrev timeStatus_masterAny : Field := ⟨R.timeStatus, 4, 1⟩
abbrev timeStatus_tb2Run : Field := ⟨R.timeStatus, 5, 1⟩
abbrev timePtpCfg_domain : Field := ⟨R.timePtpCfg, 0, 8⟩
abbrev timePtpCfg_prio1 : Field := ⟨R.timePtpCfg, 8, 8⟩
abbrev timePtpCfg_prio2 : Field := ⟨R.timePtpCfg, 16, 8⟩
abbrev timePtpCfg_masterEn : Field := ⟨R.timePtpCfg, 24, 1⟩
abbrev timePtpCfg_portEn : Field := ⟨R.timePtpCfg, 25, 2⟩
abbrev timeServoCfg_tauS : Field := ⟨R.timeServoCfg, 0, 6⟩
abbrev timeServoCfg_stepMs : Field := ⟨R.timeServoCfg, 8, 8⟩
abbrev timeServoCfg_slewPpm : Field := ⟨R.timeServoCfg, 16, 8⟩
abbrev timeUtc_offset : Field := ⟨R.timeUtc, 0, 16⟩
abbrev timeUtc_valid : Field := ⟨R.timeUtc, 16, 1⟩
abbrev timeUtc_leap61 : Field := ⟨R.timeUtc, 17, 1⟩
abbrev timeUtc_leap59 : Field := ⟨R.timeUtc, 18, 1⟩
abbrev timeUtc_fromPtp : Field := ⟨R.timeUtc, 19, 1⟩
abbrev timePpStatus_pstate (n : Nat) : Field := ⟨R.timePpStatus n, 0, 4⟩
abbrev timePpStatus_speed (n : Nat) : Field := ⟨R.timePpStatus n, 4, 2⟩
abbrev timePpStatus_link (n : Nat) : Field := ⟨R.timePpStatus n, 6, 1⟩
abbrev catEnteAddr_base (n : Nat) : Field := ⟨R.catEnteAddr n, 0, 28⟩
abbrev catEnteAddr_rd (n : Nat) : Field := ⟨R.catEnteAddr n, 28, 1⟩
abbrev catEnteAddr_wr (n : Nat) : Field := ⟨R.catEnteAddr n, 29, 1⟩
abbrev catEnteAddr_ex (n : Nat) : Field := ⟨R.catEnteAddr n, 30, 1⟩
abbrev catEnteAttr_pages (n : Nat) : Field := ⟨R.catEnteAttr n, 0, 22⟩
abbrev catEnteAttr_mask (n : Nat) : Field := ⟨R.catEnteAttr n, 22, 8⟩
abbrev catEnteAttr_lock (n : Nat) : Field := ⟨R.catEnteAttr n, 30, 1⟩
abbrev catCtrl_clrFault : Field := ⟨R.catCtrl, 0, 1⟩
abbrev catCtrl_clrCnt : Field := ⟨R.catCtrl, 1, 1⟩
abbrev catStatus_used : Field := ⟨R.catStatus, 0, 8⟩
abbrev catStatus_locked : Field := ⟨R.catStatus, 8, 8⟩
abbrev catStatus_fault : Field := ⟨R.catStatus, 16, 1⟩
abbrev catStatus_barPend : Field := ⟨R.catStatus, 17, 1⟩
abbrev catFaultInfo_class : Field := ⟨R.catFaultInfo, 0, 3⟩
abbrev catFaultInfo_master : Field := ⟨R.catFaultInfo, 3, 5⟩
abbrev catFaultInfo_kind : Field := ⟨R.catFaultInfo, 8, 2⟩
abbrev catFaultInfo_cause : Field := ⟨R.catFaultInfo, 10, 2⟩
abbrev catFaultInfo_valid : Field := ⟨R.catFaultInfo, 12, 1⟩
abbrev memStatus_ueSeen : Field := ⟨R.memStatus, 0, 1⟩
abbrev memStatus_repairPend : Field := ⟨R.memStatus, 1, 1⟩
abbrev memStatus_sparesOut : Field := ⟨R.memStatus, 2, 1⟩
abbrev memStatus_fuseFull : Field := ⟨R.memStatus, 3, 1⟩
abbrev memUeInfo_region : Field := ⟨R.memUeInfo, 0, 3⟩
abbrev memUeInfo_scrub : Field := ⟨R.memUeInfo, 3, 1⟩
abbrev memUeInfo_restored : Field := ⟨R.memUeInfo, 4, 1⟩
abbrev memUeInfo_reinit : Field := ⟨R.memUeInfo, 5, 1⟩
abbrev memUeInfo_released : Field := ⟨R.memUeInfo, 6, 1⟩
abbrev wfCtrl_clrCnt : Field := ⟨R.wfCtrl, 0, 1⟩
abbrev wfStatus_holdupRun : Field := ⟨R.wfStatus, 0, 1⟩
abbrev wfStatus_holdupLow : Field := ⟨R.wfStatus, 1, 1⟩
abbrev wfStatus_fuseRun : Field := ⟨R.wfStatus, 2, 1⟩
abbrev wfStatus_migrate : Field := ⟨R.wfStatus, 3, 1⟩
abbrev wfStatus_parked : Field := ⟨R.wfStatus, 4, 4⟩
abbrev wfCfg_park : Field := ⟨R.wfCfg, 0, 4⟩
abbrev wfCfg_scrubWarnH : Field := ⟨R.wfCfg, 8, 8⟩
abbrev wfCfg_telemEn : Field := ⟨R.wfCfg, 16, 1⟩
abbrev wfCfg_holdupEn : Field := ⟨R.wfCfg, 17, 1⟩
abbrev wfHoldup_total : Field := ⟨R.wfHoldup, 0, 12⟩
abbrev wfHoldup_lowest : Field := ⟨R.wfHoldup, 16, 12⟩
abbrev wfFlash_wearPm : Field := ⟨R.wfFlash, 0, 10⟩
abbrev wfFlash_halfAFail : Field := ⟨R.wfFlash, 16, 1⟩
abbrev wfFlash_halfBFail : Field := ⟨R.wfFlash, 17, 1⟩
abbrev recCtrl_cmd : Field := ⟨R.recCtrl, 0, 4⟩
abbrev recCtrl_clrCnt : Field := ⟨R.recCtrl, 4, 1⟩
abbrev recCtrl_key : Field := ⟨R.recCtrl, 16, 16⟩
abbrev recStatus_frozen : Field := ⟨R.recStatus, 0, 1⟩
abbrev recStatus_full : Field := ⟨R.recStatus, 1, 1⟩
abbrev recStatus_flushing : Field := ⟨R.recStatus, 2, 1⟩
abbrev recStatus_nearFull : Field := ⟨R.recStatus, 3, 1⟩
abbrev recStatus_erasing : Field := ⟨R.recStatus, 4, 1⟩
abbrev recStatus_stageOvf : Field := ⟨R.recStatus, 5, 1⟩
abbrev recCfg_rate : Field := ⟨R.recCfg, 0, 8⟩
abbrev recCfg_frzMaxS : Field := ⟨R.recCfg, 8, 8⟩
abbrev recCfg_flushSev : Field := ⟨R.recCfg, 16, 2⟩
abbrev tcBay_present : Field := ⟨R.tcBay, 0, 1⟩
abbrev tcBay_latchOpen : Field := ⟨R.tcBay, 1, 1⟩
abbrev tcBay_link : Field := ⟨R.tcBay, 2, 1⟩
abbrev tcBay_timeTx : Field := ⟨R.tcBay, 3, 1⟩
abbrev tcState_metering : Field := ⟨R.tcState, 0, 1⟩
abbrev tcState_verif : Field := ⟨R.tcState, 1, 1⟩
abbrev tcState_parFull : Field := ⟨R.tcState, 2, 1⟩
abbrev tcState_logFull : Field := ⟨R.tcState, 3, 1⟩
abbrev tcState_fault : Field := ⟨R.tcState, 4, 1⟩
abbrev tcState_role : Field := ⟨R.tcState, 5, 1⟩
abbrev tcState_outRange : Field := ⟨R.tcState, 6, 1⟩
abbrev tcState_timeOk : Field := ⟨R.tcState, 7, 1⟩
abbrev tcState_ledOn : Field := ⟨R.tcState, 8, 1⟩
abbrev obsCtrl_endStep : Field := ⟨R.obsCtrl, 0, 1⟩
abbrev obsCtrl_clrCnt : Field := ⟨R.obsCtrl, 1, 1⟩
abbrev obsStatus_linkOut : Field := ⟨R.obsStatus, 0, 1⟩
abbrev obsStatus_linkIn : Field := ⟨R.obsStatus, 1, 1⟩
abbrev obsStatus_session : Field := ⟨R.obsStatus, 2, 1⟩
abbrev obsStatus_step : Field := ⟨R.obsStatus, 3, 1⟩
abbrev obsStatus_stepBe : Field := ⟨R.obsStatus, 4, 5⟩
abbrev obsStatus_stepRefused : Field := ⟨R.obsStatus, 9, 1⟩
abbrev obsCfg_portEn : Field := ⟨R.obsCfg, 0, 1⟩
abbrev obsCfg_stepEn : Field := ⟨R.obsCfg, 1, 1⟩
abbrev pwrCtrl_clrCnt : Field := ⟨R.pwrCtrl, 0, 1⟩
abbrev pwrStatus_vinOk : Field := ⟨R.pwrStatus, 0, 1⟩
abbrev pwrStatus_pfWarn : Field := ⟨R.pwrStatus, 1, 1⟩
abbrev pwrStatus_holdupReady : Field := ⟨R.pwrStatus, 2, 1⟩
abbrev pwrStatus_fwHalf : Field := ⟨R.pwrStatus, 3, 1⟩
abbrev pwrStatus_fwDegraded : Field := ⟨R.pwrStatus, 4, 1⟩
abbrev pwrStatus_cfgDone : Field := ⟨R.pwrStatus, 5, 1⟩
abbrev pwrStatus_firstSec : Field := ⟨R.pwrStatus, 6, 1⟩
abbrev pwrStatus_shutdown : Field := ⟨R.pwrStatus, 7, 1⟩
abbrev pwrCfg_autostart : Field := ⟨R.pwrCfg, 0, 1⟩
abbrev sysCtrl_clrCnt : Field := ⟨R.sysCtrl, 0, 1⟩
abbrev sysStatus_mcRun : Field := ⟨R.sysStatus, 0, 1⟩
abbrev sysStatus_mcFailed : Field := ⟨R.sysStatus, 1, 1⟩
abbrev sysStatus_cfgRefused : Field := ⟨R.sysStatus, 2, 1⟩
abbrev sysStatus_restartPend : Field := ⟨R.sysStatus, 3, 1⟩
abbrev sysCfgStatus_done : Field := ⟨R.sysCfgStatus, 0, 1⟩
abbrev sysCfgStatus_refused : Field := ⟨R.sysCfgStatus, 1, 1⟩
abbrev sysCfgStatus_block : Field := ⟨R.sysCfgStatus, 2, 5⟩
abbrev sysCfgStatus_code : Field := ⟨R.sysCfgStatus, 8, 8⟩
abbrev sysCfgStatus_arg : Field := ⟨R.sysCfgStatus, 16, 16⟩
abbrev sysBadInfo_offset : Field := ⟨R.sysBadInfo, 0, 17⟩
abbrev sysBadInfo_class : Field := ⟨R.sysBadInfo, 20, 3⟩
abbrev sysBadInfo_write : Field := ⟨R.sysBadInfo, 23, 1⟩
abbrev sysBadInfo_hole : Field := ⟨R.sysBadInfo, 24, 1⟩
abbrev sysResetCause_cause : Field := ⟨R.sysResetCause, 0, 3⟩
abbrev sysVariant_order : Field := ⟨R.sysVariant, 0, 2⟩
abbrev sysVariant_chipRev : Field := ⟨R.sysVariant, 8, 8⟩
abbrev sysRestart_key : Field := ⟨R.sysRestart, 0, 16⟩
end F

/-- Table: Consolidated register map, the rows of block SYS (R469, R470). -/
def rowsSys : List RegRow := [
  ⟨"SYS_ID", 0x0, 0x4, 1, .ro, 0x53590100, 0x0⟩,
  ⟨"SYS_CTRL", 0x4, 0x4, 1, .wo, 0x0, 0x0⟩,
  ⟨"SYS_STATUS", 0x8, 0x4, 1, .ro, 0x0, 0x0⟩,
  ⟨"SYS_IGNORED", 0x10, 0x4, 1, .ro, 0x0, 0x0⟩,
  ⟨"SYS_CFG_STATUS", 0x14, 0x4, 1, .ro, 0x0, 0x0⟩,
  ⟨"SYS_BAD_ACCESS", 0x18, 0x4, 1, .ro, 0x0, 0x0⟩,
  ⟨"SYS_BAD_INFO", 0x1C, 0x4, 1, .ro, 0x0, 0x0⟩,
  ⟨"SYS_RESTART", 0x20, 0x4, 1, .wo, 0x0, 0x0⟩,
  ⟨"SYS_RESET_CAUSE", 0x24, 0x4, 1, .ro, 0x0, 0x0⟩,
  ⟨"SYS_MC_RESTARTS", 0x28, 0x4, 1, .ro, 0x0, 0x0⟩,
  ⟨"SYS_SHADOW_PEND", 0x2C, 0x4, 1, .ro, 0x0, 0x0⟩,
  ⟨"SYS_APPLY_PEND", 0x30, 0x4, 1, .ro, 0x0, 0x0⟩,
  ⟨"SYS_SERIAL_LO", 0x34, 0x4, 1, .ro, 0x0, 0x0⟩,
  ⟨"SYS_SERIAL_HI", 0x38, 0x4, 1, .ro, 0x0, 0x0⟩,
  ⟨"SYS_VARIANT", 0x3C, 0x4, 1, .ro, 0x0, 0x0⟩,
  ⟨"SYS_TEMP", 0x40, 0x4, 1, .ro, 0x0, 0x0⟩]

/-- Table: Consolidated register map, the rows of block SCAN (R469, R470). -/
def rowsScan : List RegRow := [
  ⟨"SCAN_ID", 0x1000, 0x4, 1, .ro, 0x53430100, 0x0⟩,
  ⟨"SCAN_CTRL", 0x1004, 0x4, 1, .wo, 0x0, 0x0⟩,
  ⟨"SCAN_STATUS", 0x1008, 0x4, 1, .ro, 0x0, 0x0⟩,
  ⟨"SCAN_APPLY", 0x100C, 0x4, 1, .wo, 0x0, 0x0⟩,
  ⟨"SCAN_IGNORED", 0x1010, 0x4, 1, .ro, 0x0, 0x0⟩,
  ⟨"SCAN_F_PERIOD", 0x1014, 0x4, 1, .rwl, 0x3E8, 0x3FFF⟩,
  ⟨"SCAN_N_MULT", 0x1018, 0x4, 1, .rwl, 0xA, 0xFF⟩,
  ⟨"SCAN_S_MULT", 0x101C, 0x4, 1, .rwl, 0x0, 0xFF⟩,
  ⟨"SCAN_WD_TOL", 0x1020, 0x4, 1, .rws, 0xA0A0A, 0xFFFFFF⟩,
  ⟨"SCAN_RESTART", 0x1024, 0x4, 1, .wo, 0x0, 0x0⟩,
  ⟨"SCAN_CYCLE_LO", 0x1028, 0x4, 1, .ro, 0x0, 0x0⟩,
  ⟨"SCAN_CYCLE_HI", 0x102C, 0x4, 1, .ro, 0x0, 0x0⟩,
  ⟨"SCAN_TRIP", 0x1030, 0x4, 1, .ro, 0x0, 0x0⟩,
  ⟨"SCAN_TRIP_CYCLE", 0x1034, 0x4, 1, .ro, 0x0, 0x0⟩,
  ⟨"SCAN_EVQ_DEPTH", 0x1038, 0x4, 1, .ro, 0x0, 0x0⟩,
  ⟨"SCAN_EVQ_OVF", 0x103C, 0x4, 1, .ro, 0x0, 0x0⟩,
  ⟨"SCAN_E_DEFER", 0x1040, 0x4, 1, .ro, 0x0, 0x0⟩,
  ⟨"SCAN_E_COUNT", 0x1044, 0x4, 1, .ro, 0x0, 0x0⟩,
  ⟨"SCAN_CHn_COUNT", 0x1080, 0x10, 3, .ro, 0x0, 0x0⟩,
  ⟨"SCAN_CHn_LATE", 0x1084, 0x10, 3, .ro, 0x0, 0x0⟩,
  ⟨"SCAN_CHn_EXEC_LAST", 0x1088, 0x10, 3, .ro, 0x0, 0x0⟩,
  ⟨"SCAN_CHn_EXEC_MAX", 0x108C, 0x10, 3, .ro, 0x0, 0x0⟩]

/-- Table: Consolidated register map, the rows of block BRM (R469, R470). -/
def rowsBrm : List RegRow := [
  ⟨"BRM_ID", 0x2000, 0x4, 1, .ro, 0x42520100, 0x0⟩,
  ⟨"BRM_CTRL", 0x2004, 0x4, 1, .wo, 0x0, 0x0⟩,
  ⟨"BRM_STATUS", 0x2008, 0x4, 1, .ro, 0x0, 0x0⟩,
  ⟨"BRM_APPLY", 0x200C, 0x4, 1, .wo, 0x0, 0x0⟩,
  ⟨"BRM_IGNORED", 0x2010, 0x4, 1, .ro, 0x0, 0x0⟩,
  ⟨"BRM_AVAIL_MASK", 0x2014, 0x4, 1, .ro, 0x0, 0x0⟩,
  ⟨"BRM_SELFTEST_MASK", 0x2018, 0x4, 1, .ro, 0x0, 0x0⟩,
  ⟨"BRM_RETIRED_MASK", 0x201C, 0x4, 1, .ro, 0x0, 0x0⟩,
  ⟨"BRM_RESERVE", 0x2020, 0x4, 1, .ro, 0x0, 0x0⟩,
  ⟨"BRM_MISMATCH", 0x2024, 0x4, 1, .ro, 0x0, 0x0⟩,
  ⟨"BRM_RESTARTS", 0x2028, 0x4, 1, .ro, 0x0, 0x0⟩,
  ⟨"BRM_TRANSIENTS", 0x202C, 0x4, 1, .ro, 0x0, 0x0⟩,
  ⟨"BRM_STEAL_IN", 0x2030, 0x4, 1, .ro, 0x0, 0x0⟩,
  ⟨"BRM_STEAL_X", 0x2034, 0x4, 1, .ro, 0x0, 0x0⟩,
  ⟨"BRM_WINDOWS_LO", 0x2038, 0x4, 1, .ro, 0x0, 0x0⟩,
  ⟨"BRM_WINDOWS_HI", 0x203C, 0x4, 1, .ro, 0x0, 0x0⟩,
  ⟨"BRM_AUDIT_CTRL", 0x2040, 0x4, 1, .rws, 0x191401, 0xFFFF01⟩,
  ⟨"BRM_AUDIT_LAP", 0x2044, 0x4, 1, .ro, 0x0, 0x0⟩,
  ⟨"BRM_AUDIT_DONE", 0x2048, 0x4, 1, .ro, 0x0, 0x0⟩,
  ⟨"BRM_AUDIT_FAIL", 0x204C, 0x4, 1, .ro, 0x0, 0x0⟩,
  ⟨"BRM_AUDIT_COV", 0x2050, 0x4, 1, .ro, 0x0, 0x0⟩,
  ⟨"BRM_UNRETIRE", 0x2054, 0x4, 1, .wo, 0x0, 0x0⟩,
  ⟨"BRM_BEn_STATE", 0x2100, 0x8, 32, .ro, 0x0, 0x0⟩,
  ⟨"BRM_BEn_MISMATCH", 0x2104, 0x8, 32, .ro, 0x0, 0x0⟩]

/-- Table: Consolidated register map, the rows of block RFX (R469, R470). -/
def rowsRfx : List RegRow := [
  ⟨"RFX_ID", 0x3000, 0x4, 1, .ro, 0x52460100, 0x0⟩,
  ⟨"RFX_CTRL", 0x3004, 0x4, 1, .wo, 0x0, 0x0⟩,
  ⟨"RFX_STATUS", 0x3008, 0x4, 1, .ro, 0x0, 0x0⟩,
  ⟨"RFX_APPLY", 0x300C, 0x4, 1, .wo, 0x0, 0x0⟩,
  ⟨"RFX_IGNORED", 0x3010, 0x4, 1, .ro, 0x0, 0x0⟩,
  ⟨"RFX_PLAN_GEN", 0x3014, 0x4, 1, .ro, 0x0, 0x0⟩,
  ⟨"RFX_SLOTS", 0x3018, 0x4, 1, .ro, 0x0, 0x0⟩,
  ⟨"RFX_PROG_INFO", 0x301C, 0x4, 1, .ro, 0x0, 0x0⟩,
  ⟨"RFX_PROG_ID", 0x3020, 0x4, 1, .ro, 0x0, 0x0⟩,
  ⟨"RFX_OUT_BIND", 0x3024, 0x4, 1, .rws, 0x0, 0xFFFFFFFF⟩,
  ⟨"RFX_ARM_IRISE", 0x3028, 0x4, 1, .rws, 0x0, 0xFFFFFFFF⟩,
  ⟨"RFX_ARM_IFALL", 0x302C, 0x4, 1, .rws, 0x0, 0xFFFFFFFF⟩,
  ⟨"RFX_ARM_ARISE", 0x3030, 0x4, 1, .rws, 0x0, 0xFFFFFFFF⟩,
  ⟨"RFX_ARM_AFALL", 0x3034, 0x4, 1, .rws, 0x0, 0xFFFFFFFF⟩,
  ⟨"RFX_SAFE", 0x3038, 0x4, 1, .rws, 0x0, 0xFFFFFFFF⟩,
  ⟨"RFX_PASSES_LO", 0x303C, 0x4, 1, .ro, 0x0, 0x0⟩,
  ⟨"RFX_PASSES_HI", 0x3040, 0x4, 1, .ro, 0x0, 0x0⟩,
  ⟨"RFX_EVPASSES", 0x3044, 0x4, 1, .ro, 0x0, 0x0⟩,
  ⟨"RFX_ABORTS", 0x3048, 0x4, 1, .ro, 0x0, 0x0⟩,
  ⟨"RFX_WAITS", 0x304C, 0x4, 1, .ro, 0x0, 0x0⟩,
  ⟨"RFX_DISAGREE", 0x3050, 0x4, 1, .ro, 0x0, 0x0⟩,
  ⟨"RFX_REPLACE", 0x3054, 0x4, 1, .ro, 0x0, 0x0⟩,
  ⟨"RFX_MAXLAT", 0x3058, 0x4, 1, .ro, 0x0, 0x0⟩,
  ⟨"RFX_UNRETIRE", 0x305C, 0x4, 1, .wo, 0x0, 0x0⟩,
  ⟨"RFX_FRAME_LO", 0x3060, 0x4, 1, .ro, 0x0, 0x0⟩,
  ⟨"RFX_FRAME_HI", 0x3064, 0x4, 1, .ro, 0x0, 0x0⟩,
  ⟨"RFX_ENm_STATE", 0x3100, 0x8, 4, .ro, 0x0, 0x0⟩,
  ⟨"RFX_ENm_DISAGREE", 0x3104, 0x8, 4, .ro, 0x0, 0x0⟩]

/-- Table: Consolidated register map, the rows of block OLC (R469, R470). -/
def rowsOlc : List RegRow := [
  ⟨"OLC_ID", 0x4000, 0x4, 1, .ro, 0x4F4C0100, 0x0⟩,
  ⟨"OLC_CMD", 0x4004, 0x4, 1, .wo, 0x0, 0x0⟩,
  ⟨"OLC_STATUS", 0x4008, 0x4, 1, .ro, 0x0, 0x0⟩,
  ⟨"OLC_APPLY", 0x400C, 0x4, 1, .wo, 0x0, 0x0⟩,
  ⟨"OLC_IGNORED", 0x4010, 0x4, 1, .ro, 0x0, 0x0⟩,
  ⟨"OLC_CFG", 0x4014, 0x4, 1, .rws, 0x10A, 0x1FF⟩,
  ⟨"OLC_LOADED", 0x4018, 0x4, 1, .ro, 0x0, 0x0⟩,
  ⟨"OLC_REFUSE", 0x401C, 0x4, 1, .ro, 0x0, 0x0⟩,
  ⟨"OLC_REFUSE_ARG", 0x4020, 0x4, 1, .ro, 0x0, 0x0⟩,
  ⟨"OLC_ACT_ID_LO", 0x4024, 0x4, 1, .ro, 0x0, 0x0⟩,
  ⟨"OLC_ACT_ID_HI", 0x4028, 0x4, 1, .ro, 0x0, 0x0⟩,
  ⟨"OLC_ACT_VER", 0x402C, 0x4, 1, .ro, 0x0, 0x0⟩,
  ⟨"OLC_PEND_ID_LO", 0x4030, 0x4, 1, .ro, 0x0, 0x0⟩,
  ⟨"OLC_PEND_ID_HI", 0x4034, 0x4, 1, .ro, 0x0, 0x0⟩,
  ⟨"OLC_PEND_VER", 0x4038, 0x4, 1, .ro, 0x0, 0x0⟩,
  ⟨"OLC_TCO", 0x403C, 0x4, 1, .ro, 0x0, 0x0⟩,
  ⟨"OLC_TCO_LIMIT", 0x4040, 0x4, 1, .ro, 0x0, 0x0⟩,
  ⟨"OLC_SW_CYCLE_LO", 0x4044, 0x4, 1, .ro, 0x0, 0x0⟩,
  ⟨"OLC_SW_CYCLE_HI", 0x4048, 0x4, 1, .ro, 0x0, 0x0⟩,
  ⟨"OLC_SWITCHES", 0x404C, 0x4, 1, .ro, 0x0, 0x0⟩,
  ⟨"OLC_FALLBACKS", 0x4050, 0x4, 1, .ro, 0x0, 0x0⟩,
  ⟨"OLC_FORCES", 0x4054, 0x4, 1, .ro, 0x0, 0x0⟩,
  ⟨"OLC_CONFLICTS", 0x4058, 0x4, 1, .ro, 0x0, 0x0⟩,
  ⟨"OLC_VW_DONE", 0x405C, 0x4, 1, .ro, 0x0, 0x0⟩,
  ⟨"OLC_VW_REFUSED", 0x4060, 0x4, 1, .ro, 0x0, 0x0⟩,
  ⟨"OLC_KEY_VALID", 0x4064, 0x4, 1, .ro, 0x0, 0x0⟩]

/-- Table: Consolidated register map, the rows of block PAIR (R469, R470). -/
def rowsPair : List RegRow := [
  ⟨"PAIR_ID", 0x5000, 0x4, 1, .ro, 0x50410100, 0x0⟩,
  ⟨"PAIR_CTRL", 0x5004, 0x4, 1, .wo, 0x0, 0x0⟩,
  ⟨"PAIR_STATUS", 0x5008, 0x4, 1, .ro, 0x0, 0x0⟩,
  ⟨"PAIR_APPLY", 0x500C, 0x4, 1, .wo, 0x0, 0x0⟩,
  ⟨"PAIR_IGNORED", 0x5010, 0x4, 1, .ro, 0x0, 0x0⟩,
  ⟨"PAIR_PLAN_GEN", 0x5014, 0x4, 1, .ro, 0x0, 0x0⟩,
  ⟨"PAIR_CFG", 0x5018, 0x4, 1, .rws, 0x40808C8, 0xFFF0FFF⟩,
  ⟨"PAIR_HEALTH", 0x501C, 0x4, 1, .ro, 0x0, 0x0⟩,
  ⟨"PAIR_SWITCHES", 0x5020, 0x4, 1, .ro, 0x0, 0x0⟩,
  ⟨"PAIR_LAST_SW", 0x5024, 0x4, 1, .ro, 0x0, 0x0⟩,
  ⟨"PAIR_SW_CYCLE_LO", 0x5028, 0x4, 1, .ro, 0x0, 0x0⟩,
  ⟨"PAIR_SW_CYCLE_HI", 0x502C, 0x4, 1, .ro, 0x0, 0x0⟩,
  ⟨"PAIR_LAST_GAP", 0x5030, 0x4, 1, .ro, 0x0, 0x0⟩,
  ⟨"PAIR_LAST_RGAP", 0x5034, 0x4, 1, .ro, 0x0, 0x0⟩,
  ⟨"PAIR_HB_MISS", 0x5038, 0x4, 1, .ro, 0x0, 0x0⟩,
  ⟨"PAIR_SEAL_MISS", 0x503C, 0x4, 1, .ro, 0x0, 0x0⟩,
  ⟨"PAIR_COPY_LAST", 0x5040, 0x4, 1, .ro, 0x0, 0x0⟩,
  ⟨"PAIR_COPY_MAX", 0x5044, 0x4, 1, .ro, 0x0, 0x0⟩,
  ⟨"PAIR_SWEEP_LAP", 0x5048, 0x4, 1, .ro, 0x0, 0x0⟩,
  ⟨"PAIR_DIVERGE", 0x504C, 0x4, 1, .ro, 0x0, 0x0⟩,
  ⟨"PAIR_BENIGN", 0x5050, 0x4, 1, .ro, 0x0, 0x0⟩,
  ⟨"PAIR_AGREE_FAIL", 0x5054, 0x4, 1, .ro, 0x0, 0x0⟩,
  ⟨"PAIR_CLAIM_REF", 0x5058, 0x4, 1, .ro, 0x0, 0x0⟩,
  ⟨"PAIR_SYNC", 0x505C, 0x4, 1, .ro, 0x0, 0x0⟩]

/-- Table: Consolidated register map, the rows of block DIO (R469, R470). -/
def rowsDio : List RegRow := [
  ⟨"DIO_ID", 0x6000, 0x4, 1, .ro, 0x44490100, 0x0⟩,
  ⟨"DIO_CTRL", 0x6004, 0x4, 1, .wo, 0x0, 0x0⟩,
  ⟨"DIO_STATUS", 0x6008, 0x4, 1, .ro, 0x0, 0x40⟩,
  ⟨"DIO_APPLY", 0x600C, 0x4, 1, .wo, 0x0, 0x0⟩,
  ⟨"DIO_IGNORED", 0x6010, 0x4, 1, .ro, 0x0, 0x0⟩,
  ⟨"DIO_PLAN_GEN", 0x6014, 0x4, 1, .ro, 0x0, 0x0⟩,
  ⟨"DIO_LPLUS", 0x6018, 0x4, 1, .ro, 0x0, 0x0⟩,
  ⟨"DIO_SUPPLY_CNT", 0x601C, 0x4, 1, .ro, 0x0, 0x0⟩,
  ⟨"DIO_DIR", 0x6020, 0x4, 1, .rws, 0x0, 0xFFFFFFFF⟩,
  ⟨"DIO_PAIRED", 0x6024, 0x4, 1, .rws, 0x0, 0xFFFF⟩,
  ⟨"DIO_SAFE", 0x6028, 0x4, 1, .rws, 0x0, 0xFFFFFFFF⟩,
  ⟨"DIO_IN_STATE", 0x602C, 0x4, 1, .ro, 0x0, 0x0⟩,
  ⟨"DIO_IN_VALID", 0x6030, 0x4, 1, .ro, 0x0, 0x0⟩,
  ⟨"DIO_OUT_RB", 0x6034, 0x4, 1, .ro, 0x0, 0x0⟩,
  ⟨"DIO_LATCHED", 0x6038, 0x4, 1, .ro, 0x0, 0x0⟩,
  ⟨"DIO_CHK_LAST", 0x603C, 0x4, 1, .ro, 0x0, 0x0⟩,
  ⟨"DIO_IFACE_ERR", 0x6040, 0x4, 1, .ro, 0x0, 0x0⟩,
  ⟨"DIO_CHn_CFG", 0x6100, 0x10, 32, .rws, 0x52000, 0xFF3FFF⟩,
  ⟨"DIO_CHn_STATUS", 0x6104, 0x10, 32, .ro, 0x0, 0x0⟩,
  ⟨"DIO_CHn_SHORTS", 0x6108, 0x10, 32, .ro, 0x0, 0x0⟩,
  ⟨"DIO_CHn_RETRIES", 0x610C, 0x10, 32, .ro, 0x0, 0x0⟩]

/-- Table: Consolidated register map, the rows of block AO (R469, R470). -/
def rowsAo : List RegRow := [
  ⟨"AO_ID", 0x7000, 0x4, 1, .ro, 0x414F0100, 0x0⟩,
  ⟨"AO_CTRL", 0x7004, 0x4, 1, .wo, 0x0, 0x0⟩,
  ⟨"AO_STATUS", 0x7008, 0x4, 1, .ro, 0x0, 0x0⟩,
  ⟨"AO_APPLY", 0x700C, 0x4, 1, .wo, 0x0, 0x0⟩,
  ⟨"AO_IGNORED", 0x7010, 0x4, 1, .ro, 0x0, 0x0⟩,
  ⟨"AO_CAL_LAST", 0x7014, 0x4, 1, .ro, 0x0, 0x0⟩,
  ⟨"AO_COMP_V", 0x7018, 0x4, 1, .ro, 0x0, 0x0⟩,
  ⟨"AO_CHn_CFG", 0x7100, 0x20, 8, .rws, 0x1A208, 0x1FF0F⟩,
  ⟨"AO_CHn_SAFE", 0x7104, 0x20, 8, .rws, 0x0, 0xFFFFFFFF⟩,
  ⟨"AO_CHn_TRIM_LO", 0x7108, 0x20, 8, .rwl, 0x0, 0xFFFF⟩,
  ⟨"AO_CHn_TRIM_HI", 0x710C, 0x20, 8, .rwl, 0x0, 0xFFFF⟩,
  ⟨"AO_CHn_CMD", 0x7110, 0x20, 8, .ro, 0x0, 0x0⟩,
  ⟨"AO_CHn_READBACK", 0x7114, 0x20, 8, .ro, 0x0, 0x0⟩,
  ⟨"AO_CHn_STATUS", 0x7118, 0x20, 8, .ro, 0x0, 0x0⟩,
  ⟨"AO_CHn_FAULTS", 0x711C, 0x20, 8, .ro, 0x0, 0x0⟩]

/-- Table: Consolidated register map, the rows of block ACQ (R469, R470). -/
def rowsAcq : List RegRow := [
  ⟨"ACQ_ID", 0x8000, 0x4, 1, .ro, 0x41510100, 0x0⟩,
  ⟨"ACQ_CTRL", 0x8004, 0x4, 1, .wo, 0x0, 0x0⟩,
  ⟨"ACQ_STATUS", 0x8008, 0x4, 1, .ro, 0x0, 0x0⟩,
  ⟨"ACQ_APPLY", 0x800C, 0x4, 1, .wo, 0x0, 0x0⟩,
  ⟨"ACQ_IGNORED", 0x8010, 0x4, 1, .ro, 0x0, 0x0⟩,
  ⟨"ACQ_PLAN_GEN", 0x8014, 0x4, 1, .ro, 0x0, 0x0⟩,
  ⟨"ACQ_CFG", 0x8018, 0x4, 1, .rws, 0x1FFFF, 0xF3FFFF⟩,
  ⟨"ACQ_PRE", 0x801C, 0x4, 1, .rws, 0x9C40, 0xFFFFFFFF⟩,
  ⟨"ACQ_POST", 0x8020, 0x4, 1, .rws, 0x61A80, 0xFFFFFFFF⟩,
  ⟨"ACQ_MAXLEN", 0x8024, 0x4, 1, .rws, 0x8000000, 0xFFFFFFFF⟩,
  ⟨"ACQ_SEQ_STATE", 0x8028, 0x4, 1, .ro, 0x10, 0x0⟩,
  ⟨"ACQ_CAPTURES", 0x802C, 0x4, 1, .ro, 0x0, 0x0⟩,
  ⟨"ACQ_BACKLOG", 0x8030, 0x4, 1, .ro, 0x0, 0x0⟩,
  ⟨"ACQ_LOST", 0x8034, 0x4, 1, .ro, 0x0, 0x0⟩,
  ⟨"ACQ_RATE_CHG", 0x8038, 0x4, 1, .ro, 0x0, 0x0⟩,
  ⟨"ACQ_CAL_LAST", 0x803C, 0x4, 1, .ro, 0x0, 0x0⟩,
  ⟨"ACQ_SKEW_LAST", 0x8040, 0x4, 1, .ro, 0x0, 0x0⟩,
  ⟨"ACQ_SAMPLE_LO", 0x8044, 0x4, 1, .ro, 0x0, 0x0⟩,
  ⟨"ACQ_SAMPLE_HI", 0x8048, 0x4, 1, .ro, 0x0, 0x0⟩,
  ⟨"ACQ_CNTk_PRESET", 0x8050, 0x8, 4, .rws, 0x1, 0xFFFFFFFF⟩,
  ⟨"ACQ_CNTk_VALUE", 0x8054, 0x8, 4, .ro, 0x0, 0x0⟩,
  ⟨"ACQ_STs_COND", 0x8100, 0x10, 16, .rws, 0x0, 0xFFFF⟩,
  ⟨"ACQ_STs_NEXT", 0x8104, 0x10, 16, .rws, 0x0, 0x1FFF⟩,
  ⟨"ACQ_STs_TIMER", 0x8108, 0x10, 16, .rws, 0x0, 0xFFFFFFF⟩,
  ⟨"ACQ_STs_ACT", 0x810C, 0x10, 16, .rws, 0x0, 0x7F⟩,
  ⟨"ACQ_EVn_CFG", 0x8200, 0x8, 32, .rws, 0x130, 0x33F⟩,
  ⟨"ACQ_EVn_LEVEL", 0x8204, 0x8, 32, .rws, 0x0, 0xFFFFFFFF⟩,
  ⟨"ACQ_CHc_STATUS", 0x8300, 0x8, 16, .ro, 0x0, 0x0⟩,
  ⟨"ACQ_CHc_SKEW", 0x8304, 0x8, 16, .ro, 0x0, 0x0⟩]

/-- Table: Consolidated register map, the rows of block RING (R469, R470). -/
def rowsRing : List RegRow := [
  ⟨"RING_ID", 0x9000, 0x4, 1, .ro, 0x52490100, 0x0⟩,
  ⟨"RING_CTRL", 0x9004, 0x4, 1, .wo, 0x0, 0x0⟩,
  ⟨"RING_STATUS", 0x9008, 0x4, 1, .ro, 0x3C, 0x0⟩,
  ⟨"RING_APPLY", 0x900C, 0x4, 1, .wo, 0x0, 0x0⟩,
  ⟨"RING_IGNORED", 0x9010, 0x4, 1, .ro, 0x0, 0x0⟩,
  ⟨"RING_PLAN_GEN", 0x9014, 0x4, 1, .ro, 0x0, 0x0⟩,
  ⟨"RING_CFG", 0x9018, 0x4, 1, .rws, 0x88B5, 0x3FFFF⟩,
  ⟨"RING_PLAN_AREA", 0x901C, 0x4, 1, .rws, 0x0, 0xFFFFFFFF⟩,
  ⟨"RING_EXCH", 0x9020, 0x4, 1, .ro, 0x0, 0x0⟩,
  ⟨"RING_STATIONS", 0x9024, 0x4, 1, .ro, 0x0, 0x0⟩,
  ⟨"RING_E_LIMIT", 0x9028, 0x4, 1, .ro, 0x0, 0x0⟩,
  ⟨"RING_E_LAST", 0x902C, 0x4, 1, .ro, 0x0, 0x0⟩,
  ⟨"RING_LATE", 0x9030, 0x4, 1, .ro, 0x0, 0x0⟩,
  ⟨"RING_RX_DROP", 0x9034, 0x4, 1, .ro, 0x0, 0x0⟩,
  ⟨"RING_COPY_DIFF", 0x9038, 0x4, 1, .ro, 0x0, 0x0⟩,
  ⟨"RING_PEER_CFG", 0x903C, 0x4, 1, .rws, 0x88B6, 0x7FFFFFF⟩,
  ⟨"RING_Pp_STATUS", 0x9040, 0x8, 4, .ro, 0x0, 0x0⟩,
  ⟨"RING_Pp_ERR", 0x9044, 0x8, 4, .ro, 0x0, 0x0⟩,
  ⟨"RING_STs_STATE", 0x9100, 0x8, 256, .ro, 0x0, 0x0⟩,
  ⟨"RING_STs_MISS", 0x9104, 0x8, 256, .ro, 0x0, 0x0⟩,
  ⟨"RING_PEER_Sj_STATE", 0x9900, 0x8, 32, .ro, 0x0, 0x0⟩,
  ⟨"RING_PEER_Sj_MISS", 0x9904, 0x8, 32, .ro, 0x0, 0x0⟩]

/-- Table: Consolidated register map, the rows of block CAN (R469, R470). -/
def rowsCan : List RegRow := [
  ⟨"CAN_ID", 0xA000, 0x4, 1, .ro, 0x43410100, 0x0⟩,
  ⟨"CAN_CTRL", 0xA004, 0x4, 1, .wo, 0x0, 0x0⟩,
  ⟨"CAN_STATUS", 0xA008, 0x4, 1, .ro, 0x0, 0x0⟩,
  ⟨"CAN_APPLY", 0xA00C, 0x4, 1, .wo, 0x0, 0x0⟩,
  ⟨"CAN_IGNORED", 0xA010, 0x4, 1, .ro, 0x0, 0x0⟩,
  ⟨"CAN_PLAN_GEN", 0xA014, 0x4, 1, .ro, 0x0, 0x0⟩,
  ⟨"CAN_PLAN_AREA", 0xA018, 0x4, 1, .rws, 0x0, 0xFFFFFFFF⟩,
  ⟨"CAN_RX_DROP", 0xA01C, 0x4, 1, .ro, 0x0, 0x0⟩,
  ⟨"CAN_CHn_BITTIME", 0xA100, 0x40, 4, .rwl, 0x0, 0x7FFFFFFF⟩,
  ⟨"CAN_CHn_DBITTIME", 0xA104, 0x40, 4, .rwl, 0x0, 0x3FFFFFFF⟩,
  ⟨"CAN_CHn_CFG", 0xA108, 0x40, 4, .rws, 0x0, 0x1FF⟩,
  ⟨"CAN_CHn_STATUS", 0xA10C, 0x40, 4, .ro, 0x0, 0x0⟩,
  ⟨"CAN_CHn_TXOK", 0xA110, 0x40, 4, .ro, 0x0, 0x0⟩,
  ⟨"CAN_CHn_RXOK", 0xA114, 0x40, 4, .ro, 0x0, 0x0⟩,
  ⟨"CAN_CHn_ERRS", 0xA118, 0x40, 4, .ro, 0x0, 0x0⟩,
  ⟨"CAN_CHn_ACKERR", 0xA11C, 0x40, 4, .ro, 0x0, 0x0⟩,
  ⟨"CAN_CHn_COLL", 0xA120, 0x40, 4, .ro, 0x0, 0x0⟩,
  ⟨"CAN_CHn_UNMATCHED", 0xA124, 0x40, 4, .ro, 0x0, 0x0⟩,
  ⟨"CAN_CHn_OVERWRITE", 0xA128, 0x40, 4, .ro, 0x0, 0x0⟩,
  ⟨"CAN_CHn_TDC", 0xA12C, 0x40, 4, .ro, 0x0, 0x0⟩,
  ⟨"CAN_CHn_RXERR", 0xA130, 0x40, 4, .ro, 0x0, 0x0⟩]

/-- Table: Consolidated register map, the rows of block HOST (R469, R470). -/
def rowsHost : List RegRow := [
  ⟨"HOST_ID", 0xB000, 0x4, 1, .ro, 0x484F0100, 0x0⟩,
  ⟨"HOST_CTRL", 0xB004, 0x4, 1, .wo, 0x0, 0x0⟩,
  ⟨"HOST_STATUS", 0xB008, 0x4, 1, .ro, 0x0, 0x0⟩,
  ⟨"HOST_RING_EN", 0xB00C, 0x4, 1, .rw, 0x0, 0xFFFFFFFF⟩,
  ⟨"HOST_IGNORED", 0xB010, 0x4, 1, .ro, 0x0, 0x0⟩,
  ⟨"HOST_Pp_STATUS", 0xB040, 0x40, 2, .ro, 0x0, 0x0⟩,
  ⟨"HOST_Pp_CQ_BASE_LO", 0xB044, 0x40, 2, .rwl, 0x0, 0xFFFFF000⟩,
  ⟨"HOST_Pp_CQ_BASE_HI", 0xB048, 0x40, 2, .rwl, 0x0, 0xFFFFFFFF⟩,
  ⟨"HOST_Pp_CQ_CFG", 0xB04C, 0x40, 2, .rwl, 0x8, 0xF⟩,
  ⟨"HOST_Pp_CQ_HEAD", 0xB050, 0x40, 2, .rw, 0x0, 0xFFFFFFFF⟩,
  ⟨"HOST_Pp_EQ_BASE_LO", 0xB054, 0x40, 2, .rwl, 0x0, 0xFFFFF000⟩,
  ⟨"HOST_Pp_EQ_BASE_HI", 0xB058, 0x40, 2, .rwl, 0x0, 0xFFFFFFFF⟩,
  ⟨"HOST_Pp_EQ_CFG", 0xB05C, 0x40, 2, .rwl, 0x8, 0xF⟩,
  ⟨"HOST_Pp_EQ_HEAD", 0xB060, 0x40, 2, .rw, 0x0, 0xFFFFFFFF⟩,
  ⟨"HOST_Pp_EQ_MASK", 0xB064, 0x40, 2, .rw, 0xFFFF, 0xFFFF⟩,
  ⟨"HOST_Pp_EQ_LOST", 0xB068, 0x40, 2, .ro, 0x0, 0x0⟩,
  ⟨"HOST_Pp_FAULT_LO", 0xB06C, 0x40, 2, .ro, 0x0, 0x0⟩,
  ⟨"HOST_Pp_FAULT_HI", 0xB070, 0x40, 2, .ro, 0x0, 0x0⟩,
  ⟨"HOST_Pp_CMDS", 0xB074, 0x40, 2, .ro, 0x0, 0x0⟩,
  ⟨"HOST_CHn_BASE_LO", 0xB200, 0x20, 16, .rwl, 0x0, 0xFFFFF000⟩,
  ⟨"HOST_CHn_BASE_HI", 0xB204, 0x20, 16, .rwl, 0x0, 0xFFFFFFFF⟩,
  ⟨"HOST_CHn_CFG", 0xB208, 0x20, 16, .rwl, 0x6, 0xF⟩,
  ⟨"HOST_CHn_DOORBELL", 0xB20C, 0x20, 16, .wo, 0x0, 0x0⟩,
  ⟨"HOST_CHn_PROD", 0xB210, 0x20, 16, .ro, 0x0, 0x0⟩,
  ⟨"HOST_CHn_TAKEN", 0xB214, 0x20, 16, .ro, 0x0, 0x0⟩,
  ⟨"HOST_CHn_DONE", 0xB218, 0x20, 16, .ro, 0x0, 0x0⟩,
  ⟨"HOST_CHn_ERR", 0xB21C, 0x20, 16, .ro, 0x0, 0x0⟩]

/-- Table: Consolidated register map, the rows of block DMA (R469, R470). -/
def rowsDma : List RegRow := [
  ⟨"DMA_ID", 0xC000, 0x4, 1, .ro, 0x444D0100, 0x0⟩,
  ⟨"DMA_CTRL", 0xC004, 0x4, 1, .wo, 0x0, 0x0⟩,
  ⟨"DMA_STATUS", 0xC008, 0x4, 1, .ro, 0x0, 0x0⟩,
  ⟨"DMA_APPLY", 0xC00C, 0x4, 1, .wo, 0x0, 0x0⟩,
  ⟨"DMA_IGNORED", 0xC010, 0x4, 1, .ro, 0x0, 0x0⟩,
  ⟨"DMA_PLAN_GEN", 0xC014, 0x4, 1, .ro, 0x0, 0x0⟩,
  ⟨"DMA_CHn_PROG", 0xC100, 0x20, 16, .rws, 0x0, 0x3FF03⟩,
  ⟨"DMA_CHn_STATUS", 0xC104, 0x20, 16, .ro, 0x0, 0x0⟩,
  ⟨"DMA_CHn_FAULT_LO", 0xC108, 0x20, 16, .ro, 0x0, 0x0⟩,
  ⟨"DMA_CHn_FAULT_HI", 0xC10C, 0x20, 16, .ro, 0x0, 0x0⟩,
  ⟨"DMA_CHn_RESUME", 0xC110, 0x20, 16, .wo, 0x0, 0x0⟩,
  ⟨"DMA_CHn_BYTES_LO", 0xC114, 0x20, 16, .ro, 0x0, 0x0⟩,
  ⟨"DMA_CHn_BYTES_HI", 0xC118, 0x20, 16, .ro, 0x0, 0x0⟩,
  ⟨"DMA_CHn_FAULTS", 0xC11C, 0x20, 16, .ro, 0x0, 0x0⟩]

/-- Table: Consolidated register map, the rows of block DRAY (R469, R470). -/
def rowsDray : List RegRow := [
  ⟨"DRAY_ID", 0xD000, 0x4, 1, .ro, 0x44520100, 0x0⟩,
  ⟨"DRAY_CTRL", 0xD004, 0x4, 1, .wo, 0x0, 0x0⟩,
  ⟨"DRAY_STATUS", 0xD008, 0x4, 1, .ro, 0x0, 0x0⟩,
  ⟨"DRAY_APPLY", 0xD00C, 0x4, 1, .wo, 0x0, 0x0⟩,
  ⟨"DRAY_IGNORED", 0xD010, 0x4, 1, .ro, 0x0, 0x0⟩,
  ⟨"DRAY_CFG", 0xD014, 0x4, 1, .rws, 0x40000F, 0xFF000F⟩,
  ⟨"DRAY_LINKUPS", 0xD018, 0x4, 1, .ro, 0x0, 0x0⟩,
  ⟨"DRAY_Pp_STATUS", 0xD020, 0x4, 2, .ro, 0x0, 0x0⟩,
  ⟨"DRAY_CHn_GRANT", 0xD100, 0x20, 4, .ro, 0x0, 0x0⟩,
  ⟨"DRAY_CHn_USED", 0xD104, 0x20, 4, .ro, 0x0, 0x0⟩,
  ⟨"DRAY_CHn_FRAMES_LO", 0xD108, 0x20, 4, .ro, 0x0, 0x0⟩,
  ⟨"DRAY_CHn_FRAMES_HI", 0xD10C, 0x20, 4, .ro, 0x0, 0x0⟩,
  ⟨"DRAY_CHn_QUEUE", 0xD110, 0x20, 4, .ro, 0x0, 0x0⟩,
  ⟨"DRAY_CHn_STALL", 0xD114, 0x20, 4, .ro, 0x0, 0x0⟩,
  ⟨"DRAY_CHn_DROP", 0xD118, 0x20, 4, .ro, 0x0, 0x0⟩]

/-- Table: Consolidated register map, the rows of block TIME (R469, R470). -/
def rowsTime : List RegRow := [
  ⟨"TIME_ID", 0xE000, 0x4, 1, .ro, 0x54490100, 0x0⟩,
  ⟨"TIME_CTRL", 0xE004, 0x4, 1, .wo, 0x0, 0x0⟩,
  ⟨"TIME_STATUS", 0xE008, 0x4, 1, .ro, 0x0, 0x0⟩,
  ⟨"TIME_APPLY", 0xE00C, 0x4, 1, .wo, 0x0, 0x0⟩,
  ⟨"TIME_IGNORED", 0xE010, 0x4, 1, .ro, 0x0, 0x0⟩,
  ⟨"TIME_PTP_CFG", 0xE014, 0x4, 1, .rws, 0x7808000, 0x7FFFFFF⟩,
  ⟨"TIME_SERVO_CFG", 0xE018, 0x4, 1, .rws, 0x640108, 0xFFFF3F⟩,
  ⟨"TIME_UTC_CFG", 0xE01C, 0x4, 1, .rws, 0x25, 0x1FFFF⟩,
  ⟨"TIME_SNAP_TB0_SEC_LO", 0xE020, 0x4, 1, .ro, 0x0, 0x0⟩,
  ⟨"TIME_SNAP_TB0_SEC_HI", 0xE024, 0x4, 1, .ro, 0x0, 0x0⟩,
  ⟨"TIME_SNAP_TB0_NS", 0xE028, 0x4, 1, .ro, 0x0, 0x0⟩,
  ⟨"TIME_SNAP_TB1_LO", 0xE02C, 0x4, 1, .ro, 0x0, 0x0⟩,
  ⟨"TIME_SNAP_TB1_HI", 0xE030, 0x4, 1, .ro, 0x0, 0x0⟩,
  ⟨"TIME_SNAP_TB2_LO", 0xE034, 0x4, 1, .ro, 0x0, 0x0⟩,
  ⟨"TIME_SNAP_TB2_HI", 0xE038, 0x4, 1, .ro, 0x0, 0x0⟩,
  ⟨"TIME_SNAP_TB3_LO", 0xE03C, 0x4, 1, .ro, 0x0, 0x0⟩,
  ⟨"TIME_SNAP_TB3_HI", 0xE040, 0x4, 1, .ro, 0x0, 0x0⟩,
  ⟨"TIME_UTC", 0xE044, 0x4, 1, .ro, 0x25, 0x0⟩,
  ⟨"TIME_OFFSET", 0xE048, 0x4, 1, .ro, 0x0, 0x0⟩,
  ⟨"TIME_PATH_DELAY", 0xE04C, 0x4, 1, .ro, 0x0, 0x0⟩,
  ⟨"TIME_RATE", 0xE050, 0x4, 1, .ro, 0x0, 0x0⟩,
  ⟨"TIME_HOLD_S", 0xE054, 0x4, 1, .ro, 0x0, 0x0⟩,
  ⟨"TIME_TB0_ERR", 0xE058, 0x4, 1, .ro, 0xFFFFFFFF, 0x0⟩,
  ⟨"TIME_STEPS", 0xE05C, 0x4, 1, .ro, 0x0, 0x0⟩,
  ⟨"TIME_PARENT_LO", 0xE060, 0x4, 1, .ro, 0x0, 0x0⟩,
  ⟨"TIME_PARENT_HI", 0xE064, 0x4, 1, .ro, 0x0, 0x0⟩,
  ⟨"TIME_MASTER_CHG", 0xE068, 0x4, 1, .ro, 0x0, 0x0⟩,
  ⟨"TIME_SET_SEC_LO", 0xE06C, 0x4, 1, .wo, 0x0, 0x0⟩,
  ⟨"TIME_SET_SEC_HI", 0xE070, 0x4, 1, .wo, 0x0, 0x0⟩,
  ⟨"TIME_SET_NS", 0xE074, 0x4, 1, .wo, 0x0, 0x0⟩,
  ⟨"TIME_SET", 0xE078, 0x4, 1, .wo, 0x0, 0x0⟩,
  ⟨"TIME_Pp_STATUS", 0xE100, 0x20, 2, .ro, 0x0, 0x0⟩,
  ⟨"TIME_Pp_RX_CORR", 0xE104, 0x20, 2, .ro, 0x0, 0x0⟩,
  ⟨"TIME_Pp_TX_CORR", 0xE108, 0x20, 2, .ro, 0x0, 0x0⟩,
  ⟨"TIME_Pp_SYNC_RX", 0xE10C, 0x20, 2, .ro, 0x0, 0x0⟩,
  ⟨"TIME_Pp_ANN_TO", 0xE110, 0x20, 2, .ro, 0x0, 0x0⟩,
  ⟨"TIME_Pp_DROP", 0xE114, 0x20, 2, .ro, 0x0, 0x0⟩]

/-- Table: Consolidated register map, the rows of block CAT (R469, R470). -/
def rowsCat : List RegRow := [
  ⟨"CAT_ID", 0xF000, 0x4, 1, .ro, 0x43540100, 0x0⟩,
  ⟨"CAT_CTRL", 0xF004, 0x4, 1, .wo, 0x0, 0x0⟩,
  ⟨"CAT_STATUS", 0xF008, 0x4, 1, .ro, 0x2, 0x0⟩,
  ⟨"CAT_BARRIER", 0xF00C, 0x4, 1, .wo, 0x0, 0x0⟩,
  ⟨"CAT_BARRIER_DONE", 0xF010, 0x4, 1, .ro, 0x0, 0x0⟩,
  ⟨"CAT_IGNORED", 0xF014, 0x4, 1, .ro, 0x0, 0x0⟩,
  ⟨"CAT_FAULT_LO", 0xF018, 0x4, 1, .ro, 0x0, 0x0⟩,
  ⟨"CAT_FAULT_HI", 0xF01C, 0x4, 1, .ro, 0x0, 0x0⟩,
  ⟨"CAT_FAULT_INFO", 0xF020, 0x4, 1, .ro, 0x0, 0x0⟩,
  ⟨"CAT_CLm_FAULTS", 0xF040, 0x4, 8, .ro, 0x0, 0x0⟩,
  ⟨"CAT_ENTe_ADDR", 0xF400, 0x8, 128, .rw, 0x0, 0x7FFFFFFF⟩,
  ⟨"CAT_ENTe_ATTR", 0xF404, 0x8, 128, .rw, 0x0, 0x7FFFFFFF⟩]

/-- Table: Consolidated register map, the rows of block MEM (R469, R470). -/
def rowsMem : List RegRow := [
  ⟨"MEM_ID", 0x10000, 0x4, 1, .ro, 0x4D450100, 0x0⟩,
  ⟨"MEM_CTRL", 0x10004, 0x4, 1, .wo, 0x0, 0x0⟩,
  ⟨"MEM_STATUS", 0x10008, 0x4, 1, .ro, 0x0, 0x0⟩,
  ⟨"MEM_APPLY", 0x1000C, 0x4, 1, .wo, 0x0, 0x0⟩,
  ⟨"MEM_IGNORED", 0x10010, 0x4, 1, .ro, 0x0, 0x0⟩,
  ⟨"MEM_CFG", 0x10014, 0x4, 1, .rws, 0x1, 0x1⟩,
  ⟨"MEM_FUSE", 0x10018, 0x4, 1, .ro, 0x0, 0x0⟩,
  ⟨"MEM_UE_LAST_LO", 0x1001C, 0x4, 1, .ro, 0x0, 0x0⟩,
  ⟨"MEM_UE_LAST_HI", 0x10020, 0x4, 1, .ro, 0x0, 0x0⟩,
  ⟨"MEM_UE_INFO", 0x10024, 0x4, 1, .ro, 0x0, 0x0⟩,
  ⟨"MEM_RGr_LAP", 0x10100, 0x10, 8, .ro, 0x0, 0x0⟩,
  ⟨"MEM_RGr_CE", 0x10104, 0x10, 8, .ro, 0x0, 0x0⟩,
  ⟨"MEM_RGr_UE", 0x10108, 0x10, 8, .ro, 0x0, 0x0⟩,
  ⟨"MEM_RGr_HARD", 0x1010C, 0x10, 8, .ro, 0x0, 0x0⟩]

/-- Table: Consolidated register map, the rows of block WF (R469, R470). -/
def rowsWf : List RegRow := [
  ⟨"WF_ID", 0x11000, 0x4, 1, .ro, 0x57460100, 0x0⟩,
  ⟨"WF_CTRL", 0x11004, 0x4, 1, .wo, 0x0, 0x0⟩,
  ⟨"WF_STATUS", 0x11008, 0x4, 1, .ro, 0x0, 0x0⟩,
  ⟨"WF_APPLY", 0x1100C, 0x4, 1, .wo, 0x0, 0x0⟩,
  ⟨"WF_IGNORED", 0x11010, 0x4, 1, .ro, 0x0, 0x0⟩,
  ⟨"WF_CFG", 0x11014, 0x4, 1, .rws, 0x31800, 0x3FF0F⟩,
  ⟨"WF_HEALTH_CYC", 0x11018, 0x4, 1, .ro, 0x0, 0x0⟩,
  ⟨"WF_HOLDUP", 0x1101C, 0x4, 1, .ro, 0x0, 0x0⟩,
  ⟨"WF_HOLDUP_LAST", 0x11020, 0x4, 1, .ro, 0x0, 0x0⟩,
  ⟨"WF_FLASH", 0x11024, 0x4, 1, .ro, 0x0, 0x0⟩,
  ⟨"WF_LATE", 0x11028, 0x4, 1, .ro, 0x0, 0x0⟩,
  ⟨"WF_BRM_TIME", 0x1102C, 0x4, 1, .ro, 0x0, 0x0⟩,
  ⟨"WF_SWEEP_SHORT", 0x11030, 0x4, 1, .ro, 0x0, 0x0⟩,
  ⟨"WF_CLc_LAST", 0x11100, 0x10, 13, .ro, 0x0, 0x0⟩,
  ⟨"WF_CLc_LAP", 0x11104, 0x10, 13, .ro, 0x0, 0x0⟩,
  ⟨"WF_CLc_RUNS", 0x11108, 0x10, 13, .ro, 0x0, 0x0⟩,
  ⟨"WF_CLc_PREEMPT", 0x1110C, 0x10, 13, .ro, 0x0, 0x0⟩]

/-- Table: Consolidated register map, the rows of block REC (R469, R470). -/
def rowsRec : List RegRow := [
  ⟨"REC_ID", 0x12000, 0x4, 1, .ro, 0x52450100, 0x0⟩,
  ⟨"REC_CTRL", 0x12004, 0x4, 1, .wo, 0x0, 0x0⟩,
  ⟨"REC_STATUS", 0x12008, 0x4, 1, .ro, 0x0, 0x0⟩,
  ⟨"REC_APPLY", 0x1200C, 0x4, 1, .wo, 0x0, 0x0⟩,
  ⟨"REC_IGNORED", 0x12010, 0x4, 1, .ro, 0x0, 0x0⟩,
  ⟨"REC_CFG", 0x12014, 0x4, 1, .rws, 0x23C40, 0x3FFFF⟩,
  ⟨"REC_COUNT", 0x12018, 0x4, 1, .ro, 0x0, 0x0⟩,
  ⟨"REC_FLUSHED", 0x1201C, 0x4, 1, .ro, 0x0, 0x0⟩,
  ⟨"REC_STAGED", 0x12020, 0x4, 1, .ro, 0x0, 0x0⟩,
  ⟨"REC_REFUSED", 0x12024, 0x4, 1, .ro, 0x0, 0x0⟩,
  ⟨"REC_OVF", 0x12028, 0x4, 1, .ro, 0x0, 0x0⟩,
  ⟨"REC_LOST", 0x1202C, 0x4, 1, .ro, 0x0, 0x0⟩,
  ⟨"REC_SUPPRESSED", 0x12030, 0x4, 1, .ro, 0x0, 0x0⟩,
  ⟨"REC_FLUSHES", 0x12034, 0x4, 1, .ro, 0x0, 0x0⟩,
  ⟨"REC_ARMED", 0x12038, 0x4, 1, .ro, 0x0, 0x0⟩]

/-- Table: Consolidated register map, the rows of block TC (R469, R470). -/
def rowsTc : List RegRow := [
  ⟨"TC_ID", 0x13000, 0x4, 1, .ro, 0x54430100, 0x0⟩,
  ⟨"TC_BAY", 0x13004, 0x4, 1, .ro, 0x0, 0x0⟩,
  ⟨"TC_IGNORED", 0x13008, 0x4, 1, .ro, 0x0, 0x0⟩,
  ⟨"TC_READ_ERR", 0x1300C, 0x4, 1, .ro, 0x0, 0x0⟩,
  ⟨"TC_FITS", 0x13010, 0x4, 1, .ro, 0x0, 0x0⟩,
  ⟨"TC_SERIAL_LO", 0x13100, 0x4, 1, .ro, 0x0, 0x0⟩,
  ⟨"TC_SERIAL_HI", 0x13104, 0x4, 1, .ro, 0x0, 0x0⟩,
  ⟨"TC_SW_ID", 0x13108, 0x4, 1, .ro, 0x0, 0x0⟩,
  ⟨"TC_STATE", 0x1310C, 0x4, 1, .ro, 0x0, 0x0⟩,
  ⟨"TC_SNAP_SEQ", 0x13110, 0x4, 1, .ro, 0x0, 0x0⟩,
  ⟨"TC_LOG_COUNT", 0x13114, 0x4, 1, .ro, 0x0, 0x0⟩,
  ⟨"TC_GAP_CNT", 0x13118, 0x4, 1, .ro, 0x0, 0x0⟩,
  ⟨"TC_TEMP", 0x1311C, 0x4, 1, .ro, 0x0, 0x0⟩,
  ⟨"TC_PARi", 0x13180, 0x4, 64, .ro, 0x0, 0x0⟩,
  ⟨"TC_Ff_EP_IMP_LO", 0x13200, 0x40, 4, .ro, 0x0, 0x0⟩,
  ⟨"TC_Ff_EP_IMP_HI", 0x13204, 0x40, 4, .ro, 0x0, 0x0⟩,
  ⟨"TC_Ff_EP_EXP_LO", 0x13208, 0x40, 4, .ro, 0x0, 0x0⟩,
  ⟨"TC_Ff_EP_EXP_HI", 0x1320C, 0x40, 4, .ro, 0x0, 0x0⟩,
  ⟨"TC_Ff_EQ_IND_LO", 0x13210, 0x40, 4, .ro, 0x0, 0x0⟩,
  ⟨"TC_Ff_EQ_IND_HI", 0x13214, 0x40, 4, .ro, 0x0, 0x0⟩,
  ⟨"TC_Ff_EQ_CAP_LO", 0x13218, 0x40, 4, .ro, 0x0, 0x0⟩,
  ⟨"TC_Ff_EQ_CAP_HI", 0x1321C, 0x40, 4, .ro, 0x0, 0x0⟩,
  ⟨"TC_Ff_P", 0x13220, 0x40, 4, .ro, 0x0, 0x0⟩,
  ⟨"TC_Ff_Q", 0x13224, 0x40, 4, .ro, 0x0, 0x0⟩,
  ⟨"TC_Ff_STATUS", 0x13228, 0x40, 4, .ro, 0x0, 0x0⟩,
  ⟨"TC_FLk_TOTAL_LO", 0x13400, 0x10, 8, .ro, 0x0, 0x0⟩,
  ⟨"TC_FLk_TOTAL_HI", 0x13404, 0x10, 8, .ro, 0x0, 0x0⟩,
  ⟨"TC_FLk_RATE", 0x13408, 0x10, 8, .ro, 0x0, 0x0⟩,
  ⟨"TC_FLk_STATUS", 0x1340C, 0x10, 8, .ro, 0x0, 0x0⟩,
  ⟨"TC_PGq_Ww", 0x13600, 0x4, 128, .ro, 0x0, 0x0⟩]

/-- Table: Consolidated register map, the rows of block OBS (R469, R470). -/
def rowsObs : List RegRow := [
  ⟨"OBS_ID", 0x14000, 0x4, 1, .ro, 0x4F420100, 0x0⟩,
  ⟨"OBS_CTRL", 0x14004, 0x4, 1, .wo, 0x0, 0x0⟩,
  ⟨"OBS_STATUS", 0x14008, 0x4, 1, .ro, 0x0, 0x0⟩,
  ⟨"OBS_APPLY", 0x1400C, 0x4, 1, .wo, 0x0, 0x0⟩,
  ⟨"OBS_IGNORED", 0x14010, 0x4, 1, .ro, 0x0, 0x0⟩,
  ⟨"OBS_CFG", 0x14014, 0x4, 1, .rws, 0x1, 0x3⟩,
  ⟨"OBS_SEL_SEQ", 0x14018, 0x4, 1, .ro, 0x0, 0x0⟩,
  ⟨"OBS_READS", 0x1401C, 0x4, 1, .ro, 0x0, 0x0⟩,
  ⟨"OBS_REFUSED", 0x14020, 0x4, 1, .ro, 0x0, 0x0⟩,
  ⟨"OBS_DROP", 0x14024, 0x4, 1, .ro, 0x0, 0x0⟩,
  ⟨"OBS_CNTk", 0x14400, 0x4, 256, .ro, 0x0, 0x0⟩,
  ⟨"OBS_CNTk_SEL", 0x14800, 0x4, 256, .ro, 0x0, 0x0⟩]

/-- Table: Consolidated register map, the rows of block PWR (R469, R470). -/
def rowsPwr : List RegRow := [
  ⟨"PWR_ID", 0x15000, 0x4, 1, .ro, 0x50570100, 0x0⟩,
  ⟨"PWR_CTRL", 0x15004, 0x4, 1, .wo, 0x0, 0x0⟩,
  ⟨"PWR_STATUS", 0x15008, 0x4, 1, .ro, 0x0, 0x0⟩,
  ⟨"PWR_APPLY", 0x1500C, 0x4, 1, .wo, 0x0, 0x0⟩,
  ⟨"PWR_IGNORED", 0x15010, 0x4, 1, .ro, 0x0, 0x0⟩,
  ⟨"PWR_CFG", 0x15014, 0x4, 1, .rws, 0x0, 0x1⟩,
  ⟨"PWR_VIN", 0x15018, 0x4, 1, .ro, 0x0, 0x0⟩,
  ⟨"PWR_VBANK", 0x1501C, 0x4, 1, .ro, 0x0, 0x0⟩,
  ⟨"PWR_BOOT_T", 0x15020, 0x4, 1, .ro, 0x0, 0x0⟩,
  ⟨"PWR_PF_CNT", 0x15024, 0x4, 1, .ro, 0x0, 0x0⟩,
  ⟨"PWR_RESTARTS", 0x15028, 0x4, 1, .ro, 0x0, 0x0⟩,
  ⟨"PWR_FW_VER", 0x1502C, 0x4, 1, .ro, 0x0, 0x0⟩]

/-- The rows of the block that stands at `b` × 4 KiB (Table: Block bases, R468). -/
def rowsOfBlock (b : Nat) : List RegRow :=
  match b with
  | 0 => rowsSys
  | 1 => rowsScan
  | 2 => rowsBrm
  | 3 => rowsRfx
  | 4 => rowsOlc
  | 5 => rowsPair
  | 6 => rowsDio
  | 7 => rowsAo
  | 8 => rowsAcq
  | 9 => rowsRing
  | 10 => rowsCan
  | 11 => rowsHost
  | 12 => rowsDma
  | 13 => rowsDray
  | 14 => rowsTime
  | 15 => rowsCat
  | 16 => rowsMem
  | 17 => rowsWf
  | 18 => rowsRec
  | 19 => rowsTc
  | 20 => rowsObs
  | 21 => rowsPwr
  | _ => []

/-- Whether offset `off` is a register of the row. -/
def RegRow.has (r : RegRow) (off : Nat) : Bool :=
  r.first ≤ off && (off - r.first) % r.stride == 0 && (off - r.first) / r.stride < r.count

/-- The row that holds offset `off` (none: a hole, R30). -/
def regRow (off : Nat) : Option RegRow :=
  (rowsOfBlock (off / 0x1000)).find? (·.has off)

/-- The value a register takes after power-on (R472); 0 for a hole. The two locked entries of the CAT are the only
members of an array with a reset value of their own (R372). Values kept in a store read as zero until loaded (R474). -/
def regReset (off : Nat) : BitVec 32 :=
  if off = R.catEnteAddr 0 then 0x70004A00
  else if off = R.catEnteAttr 0 then 0x010007FF
  else if off = R.catEnteAddr 1 then 0x30010000
  else if off = R.catEnteAttr 1 then 0x01000015
  else match regRow off with
  | some r => r.reset
  | none => 0

/-- The bits of a register that are cleared by a write of 1 (R9): `DIO_STATUS.HOLD_SEEN` and no other. -/
def regW1C (off : Nat) : BitVec 32 := if off = R.dioStatus then 0x40 else 0

end Sys2Proof.Machine
end

