-- ==== Sys2Proof/Machine/State.lean ====
section
/-!
DEFINITION. The state of the module: every register, memory, queue, counter, mode and line the spec gives it, as plain
data, and its value at reset. The registers of the setup window stand in `regs` (and the active values of shadowed
groups in `act`), keyed by their offset; state that no register shows has a field of its own. The default of each field
is its value at reset.
-/

namespace Sys2Proof.Machine

/-- Faults of the machine. No meaning raises one: the spec gives every command an effect or lets it pass (log entry 1). -/
inductive Fault where
  /-- A command whose operand no event of its row can bring (raised by no meaning; safe). -/
  | impossible
  deriving DecidableEq, Repr

/-- Refusals of the machine. -/
inductive Refusal where
  /-- The command has no meaning in the model (raised by the dispatch only; safe). -/
  | notModelled (mnemonic : String)
  deriving DecidableEq, Repr

/-! What the module sends outward: one constructor for each thing an interface carries. -/

/-- How a window ended, in a chain-trace record (R447). -/
inductive ObsEnd where
  | commit | mismatch | exception (code : Nat) | yielded
  deriving DecidableEq, Repr, Inhabited

/-- A record of the observation port (R447), one constructor per stream 0x10 to 0x14. -/
inductive ObsRec where
  | chain (chain window be : Nat) (cycle : W32) (how : ObsEnd) (stores : Nat) (sig : W64)
  | step (word : W32) (pc : BitVec 24) (taken ended exc : Bool) (value : W64) (addr : Nat)
  | reflex (frame : W64) (event aborted : Bool) (q m : W32) (roles : W32)
  | counters (vals : List (Nat × W32))
  | burst (addr : Nat) (status : Nat) (data : List Byte)
  deriving DecidableEq, Repr, Inhabited

inductive Out where
  | nothing
  /-- Drawbar: heartbeat, copied block, seal record, acknowledgement (R202-R207) -/
  | heartbeat (h : Heartbeat)
  | copyBlock (cycle : W64) (block : Nat) (data : List Byte)
  | sealRec (r : SealRec)
  | sealAck (cycle : W64) (digests : List (Nat × W64))
  | tripNotice (cls : Cls)
  | resyncDemand
  | resyncRequest
  | fullCopy (item : FullItem)
  | sweepRequest (unit : Nat)
  | sweepUnit (unit : Nat) (data : List Byte)
  | auditVerdict (chain : Nat) (mask : BitVec 32)
  | dirtyRequest (block : Nat)
  | repairRequest (block : Nat)
  | handoverRequest
  | pkgBlock (off : Nat) (data : List Byte)
  | pkgReport (digest : BitVec 128) (ok : Bool)
  | forwarded (ring : Nat) (desc : Desc)
  | forwardedReply (ring : Nat) (status result : W32) (data : List Byte)
  /-- an item of an S command forwarded to the partner: opcode, arguments, data (R336) -/
  | item (opcode : Nat) (args : List W64) (data : List Byte)
  | drawbarAck (id : Nat)
  /-- field island: output levels and loop commands published (R47), island link frame (R196) -/
  | publish (digital : W32) (loops : List W32)
  | islandLink (digital : W32) (loops : List Nat)
  /-- setup window: data of a read, error response (R5, R471) -/
  | readData (m : Master) (off : Nat) (v : W32)
  | errorResponse (m : Master) (off : Nat)
  /-- host memory: bytes written by port p at a host address; MSI-X vector (R327-R341) -/
  | hostWrite (p : Nat) (addr : W64) (data : List Byte)
  | msix (p : Nat) (vector : Nat)
  /-- ring frame sent on a port, with its EtherType and payload (R292, R296); peer frame on a plant port (R304) -/
  | ringFrame (p : Nat) (etype : Nat) (payload : List Byte)
  /-- a frame forwarded whose FCS does not check (R288) -/
  | badFrame (p : Nat) (etype : Nat) (payload : List Byte)
  | peerFrame (p : Nat) (group : BitVec 48) (etype : Nat) (payload : List Byte)
  /-- a read of host memory that completes a data barrier (R339) -/
  | hostRead (p : Nat) (addr : W64)
  /-- observation frame: stream, frame number, `SEQ` of the selection, records dropped before it, records (R447) -/
  | obsFrame (stream : Nat) (seq : Nat) (sel : W32) (dropped : Nat) (recs : List ObsRec)
  /-- Dray frame on a lane (R348) -/
  | drayFrame (lane : Nat) (data : List Byte)
  /-- an answer on the verification port (R433); what the front display shows (R430) -/
  | verif (vals : List W64)
  | display (text : List Byte)
  /-- PTP message on a plant port, over UDP or Annex E (R359) -/
  | ptp (p : Nat) (udp : Bool) (m : PtpMsg)
  /-- CAN frame: port, identifier word, DLC, data (R316) -/
  | canFrame (p : Nat) (txid : Nat) (dlc : Nat) (data : List Byte)
  deriving DecidableEq, Repr, Inhabited

/-! Memory. -/

/-- Physical memory: the bytes that are not zero, the uncorrectable words (by word number, address div 8), and the
committed copies of the output halves with their uncorrectable words (R45, R505). -/
structure Mem where
  /-- bytes of the physical address space (R27); an unlisted byte reads as zero [6] -/
  bytes : List Host.Cell := []
  /-- 8-byte words that are uncorrectable for every reader until written whole (R384) -/
  poison : NSet := []
  /-- whether the on-chip SRAM has been cleared since the core rails rose (R381, R382); before, a word reads as
  uncorrectable unless it stands in `written` -/
  cleared : Bool := false
  /-- words written whole: of the on-chip SRAM before the boot clearing, of the DRAM since the power-cycle count last rose
  (R381) -/
  written : NSet := []
  /-- DRAM words written in earlier power cycles, each with the key it was written under: the power-cycle count modulo 127
  (R381) -/
  past : List (Nat × Nat) := []
  /-- the present key -/
  key : Nat := 0
  /-- committed copies of the output halves, at the addresses of their working copies (R45) -/
  committed : List Host.Cell := []
  /-- uncorrectable words of the committed copies (R505) -/
  cpoison : NSet := []
  /-- words that a scrub lap or a write-back showed in error on their last visit (R388) -/
  suspect : NSet := []
  deriving DecidableEq, Repr, Inhabited

/-! Drupelets and the Bramble (R73-R135). -/

/-- A buffered store (R86): address, size in bytes, data; `fill` marks the zeros that a shorter store to an unwritten
scratch doubleword puts first, which are no store of their own (R76). -/
structure Buffered where
  addr : Nat := 0
  size : Nat := 1
  data : W64 := 0
  fill : Bool := false
  deriving DecidableEq, Repr, Inhabited

/-- Where an open window stands: executing; ended and matching, and held back by a copy until its end (R205); its commit in
progress (R87), the chain going on or complete; waiting for a block from the partner (R386). -/
inductive WinPhase where
  | running
  | copyHeld (chainEnd : Bool)
  | committing (chainEnd : Bool)
  | awaitingRepair
  deriving DecidableEq, Repr, Inhabited

/-- Memory kept for a replica (R98, R209, R450): the execution, its period, what of memory is kept (`own`: only the chain's own
instance range), the words of it that are uncorrectable, and the length in bytes of what is saved into DRAM. -/
structure Snapshot where
  work : Work := {}
  cycle : W64 := 0
  own : Bool := false
  cells : List Host.Cell := []
  bad : NSet := []
  len : Nat := 0
  deriving DecidableEq, Repr, Inhabited

/-- What a replica executes for: the audit (R98), step-exact trace (R450). -/
inductive RepKind where
  | audit | trace
  deriving DecidableEq, Repr, Inhabited

/-- A replica of a chain's execution (R98, R450): the memory it reads and writes, the data address of its latest load or
store. -/
structure Replica where
  kind : RepKind := .trace
  snap : Snapshot := {}
  ea : Nat := 0
  deriving DecidableEq, Repr, Inhabited

/-- An open window on a drupelet: its chain and checkpoint, the leading core's registers, the commit buffer (oldest
store first), the disturbance between the two cores' codes and signatures that it will meet, and that which the window of a
handler that follows it will meet [7], the scratch valid map (R76); TB1 at its start; for a replica, what it reads. -/
structure Window where
  oc : OpenChain := {}
  core : Core := {}
  stores : List Buffered := []
  upset : W64 := 0
  upsetH : W64 := 0
  valid : NSet := []
  phase : WinPhase := .running
  start : W64 := 0
  rep : Option Replica := none
  deriving DecidableEq, Repr, Inhabited

/-- Drupelet states: `BRM_BEn_STATE.STATE` (R103). -/
inductive DState where
  | active | selfTest | pending | retired | clusterDown | traced
  deriving DecidableEq, Repr, Inhabited

/-- A line of the instruction half (R104): its bank offset, its eight words and which of them are uncorrectable. -/
structure ILine where
  tag : Nat := 0
  words : List W64 := []
  bad : List Bool := []
  deriving DecidableEq, Repr, Inhabited

structure Drupelet where
  st : DState := .active
  /-- the self-test under way was entered by `BRM_UNRETIRE` (R94) -/
  unretire : Bool := false
  /-- the self-test under way follows step-exact trace (R451) -/
  wasTraced : Bool := false
  /-- last verdict, `VERDICT` and `CORE` of `BRM_BEn_STATE` -/
  verdict : BitVec 2 := 0
  verdictCore : Bool := false
  /-- `CHAIN` of `BRM_BEn_STATE` -/
  lastChain : BitVec 14 := 0
  /-- operating seconds of the transients and of the clean mismatches by chain; kept in FRAM (R95) -/
  transients : List Nat := []
  cleanMism : List (Nat × Nat) := []
  /-- the open window (R86) -/
  win : Option Window := none
  /-- the drupelet runs an N or S chain and is to yield at its next window end (R49) -/
  yieldReq : Bool := false
  /-- lines of the instruction half, by line number (R104) -/
  lines : List (Nat × ILine) := []
  /-- the deques of classes E, F, N, S, head first (R78) -/
  deques : Vector (List Work) 4 := Vector.replicate 4 []
  deriving DecidableEq, Repr, Inhabited

/-- An execution of an error task (R54): its chains, its descriptor, the drupelet it is placed on, whether it has been
started and which of its chains have completed. -/
structure ETask where
  task : Nat := 0
  chains : List Nat := []
  slot : Nat := 0
  be : Nat := 0
  started : Bool := false
  done : List Nat := []
  deriving DecidableEq, Repr, Inhabited

/-- Where the replica of an audit stands: the second is to be started; open on a drupelet; yielded, or restarted after a
mismatch, at a checkpoint, with its memory (R393). -/
inductive RepAt where
  | waiting
  | on (be : Nat)
  | yielded (oc : OpenChain) (snap : Snapshot)
  deriving DecidableEq, Repr, Inhabited

/-- The audit of one execution (R98-R100): the memory its replicas read, the recorded signature and mask, where its replica
stands, the signature and drupelet of a first replica that differed. -/
structure Audit where
  snap : Snapshot := {}
  recorded : W64 := 0
  execMask : BitVec 32 := 0
  place : RepAt := .waiting
  first : Option (W64 × Nat) := none
  deriving DecidableEq, Repr, Inhabited

structure Brm where
  be : Vector Drupelet 32 := Vector.replicate 32 {}
  /-- overflow queues of the classes (R79) -/
  overflow : Vector (List Work) 4 := Vector.replicate 4 []
  /-- restart entries with the cluster in whose slot they wait, in the order raised (R91) -/
  restarts : List (Nat × OpenChain) := []
  /-- yielded chains, oldest first (R49, R80) -/
  yielded : List OpenChain := []
  /-- outstanding predecessors of the chains of the open periods (R79) -/
  waiting : List (Nat × Nat) := []
  /-- chains of the open periods that are not complete, by chain index -/
  openChains : List Nat := []
  /-- error task executions of the present error phase (R54) -/
  etasks : List ETask := []
  /-- chain signatures and execution masks of the latest executions (R89) -/
  sigs : List SigRec := []
  /-- executions recorded since the last copy seal (R206) -/
  newSigs : List SigRec := []
  /-- the audits under way (R98); memory kept for audits to come (R98, R209) -/
  audits : List Audit := []
  snaps : List Snapshot := []
  /-- verdicts received from the standby's audit, chain and mask, to apply at the next F boundary (R100) -/
  retireReq : List (Nat × BitVec 32) := []
  /-- TB1 at the latest F boundary; drupelet time in ns since then, of foreground windows and of audit replicas (R99) -/
  cycleAt : W64 := 0
  fgNs : Nat := 0
  auditNs : Nat := 0
  /-- audit walk: the chain taken last (none: no turn yet), F-cycle of the lap's start, executions audited and executed per
  class (R99) -/
  auditPos : Option Nat := none
  auditLapStart : W64 := 0
  auditedN : Vector Nat 4 := Vector.replicate 4 0
  executedN : Vector Nat 4 := Vector.replicate 4 0
  deriving DecidableEq, Repr, Inhabited

/-! The scan plane (R37-R72). -/

/-- Where a period of a class stands (R41-R50, R61): its number; whether it is open, its image frozen and complete, its
chains released, its work complete and not yet committed; flags of the next frozen image. -/
structure ClassRun where
  cycle : W64 := 0
  running : Bool := false
  frozen : Bool := false
  released : Bool := false
  complete : Bool := false
  /-- the nominal end of the running period has passed (R61) -/
  late : Bool := false
  /-- the late flag for the next frozen image of the class -/
  lateFlag : Bool := false
  /-- the first-scan flag of the next frozen image (R67) -/
  firstScan : Bool := false
  /-- a boundary came while the previous period was open: the image of this period waits (R50, R61) -/
  due : Bool := false
  /-- scan time of the freeze (R42) -/
  freezeTime : W64 := 0
  /-- periods whose last chain has completed and whose commit is outstanding, oldest first: the F-cycle in which it completed, the
  period, its scan time (R46) -/
  doneIn : List (W64 × W64 × W64) := []
  deriving DecidableEq, Repr, Inhabited

/-- Whether a scan has not started, runs, or was stopped by a watchdog trip (R63, R67). -/
inductive RunState where
  | notStarted | running | tripped
  deriving DecidableEq, Repr, Inhabited

/-- A waiting error event (R52, R504). -/
structure ErrEntry where
  code : Nat := 0
  source : W32 := 0
  count : Nat := 1
  first : W64 := 0
  last : W64 := 0
  params : List W64 := []
  deriving DecidableEq, Repr, Inhabited

/-- Step of the F-cycle in progress (R41). -/
inductive FStep where
  | idle | freeze | errors | execute | publish | copy | awaitSeal
  deriving DecidableEq, Repr, Inhabited

/-- The latest scan command: `DO_CMD` and `AO_CMD[0..7]` (R231). -/
structure ScanCmd where
  dig : W32 := 0
  loops : Vector W32 8 := Vector.replicate 8 0
  deriving DecidableEq, Repr, Inhabited

structure Scan where
  run : RunState := .notStarted
  step : FStep := .idle
  cls : Vector ClassRun 3 := Vector.replicate 3 {}
  /-- the F-cycle number of the boundary at which N and S phases started (R38, R67) -/
  nsOrigin : W64 := 0
  /-- a start or restart has been requested: cold, or warm (R67, R70, R459) -/
  startReq : Bool := false
  restartReq : Option Bool := none
  /-- the event queue (R52), refusals since the last overflow entry, entries taken into the error phase -/
  evq : List ErrEntry := []
  evqLost : Nat := 0
  taken : List ErrEntry := []
  /-- the offset of scan time to TB1 (R57) -/
  timeOffset : W64 := 0
  /-- the latest scan command published to the island since the chip left reset (R47, R228) -/
  pub : Option ScanCmd := none
  /-- scan time of the latest F boundary (R38) -/
  bound : W64 := 0
  /-- entries of the event queue that were raised before the freeze instant (R53) -/
  evSnap : Nat := 0
  /-- a transition into SERVICE (true) or out of it waits for the next F boundary (R463) -/
  service : Option Bool := none
  deriving DecidableEq, Repr, Inhabited

/-! The event recorder (R407-R419). -/

/-- A record (R407): `code` is the open code table's for categories 1 to 15 [3]. -/
structure Record where
  code : W16 := 0
  sev : BitVec 2 := 0
  priv : Bool := false
  unsure : Bool := false
  unkept : Bool := false
  time : W64 := 0
  block : Nat := 0
  unit : Nat := 0
  slotB : Bool := false
  params : List W64 := []
  /-- TB1 when it was raised, by which records of one clock are ordered (R411); no part of the 64 bytes -/
  clock : W64 := 0
  deriving DecidableEq, Repr, Inhabited

/-- What a source has raised in the present operating second (R411). -/
structure RateRow where
  block : Nat := 0
  unit : Nat := 0
  count : Nat := 0
  suppressed : Nat := 0
  firstCode : W16 := 0
  deriving DecidableEq, Repr, Inhabited

/-- Who asked for a freeze or a re-arm: a write of `REC_CTRL`, a command of this module, or the command that the partner
forwarded from one of its rings (R336, R417, R418). -/
inductive Asker where
  | register
  | command (id : Nat)
  | partner (ring : Nat)
  deriving DecidableEq, Repr, Inhabited

structure Rec where
  /-- records raised and not yet accepted, in the order raised (R411) -/
  raised : List Record := []
  /-- staged records, oldest first, and the flash area (R413, R415) -/
  staging : List Record := []
  area : List Record := []
  /-- what each source has raised in the present operating second (R411) -/
  rates : List RateRow := []
  /-- first and last time of the records lost in the present freeze (R417) -/
  ovfCount : Nat := 0
  ovfFirst : W64 := 0
  ovfLast : W64 := 0
  /-- who asked for a freeze during a flush; seconds frozen (R417) -/
  freezeReq : Option Asker := none
  frozenS : Nat := 0
  /-- a re-arm under way, before its first block is erased, by who asked for it (R418) -/
  rearming : Option Asker := none
  deriving DecidableEq, Repr, Inhabited

/-- What the configuration gives that no register holds: the offset of the image window of each class in the shared
buffer (R120), the error tasks of the program (R51, R55) [8], the ring exchange plan that waits for its safe point (R14). -/
structure Conf where
  winF : Nat := 0
  winN : Nat := 0
  winS : Nat := 0
  /-- the offsets of the Drawbar staging and of the recorder staging in the shared buffer (R29, R208, R413), and of the carry-over
  area in DRAM (R177) -/
  staging : Nat := 0
  recArea : Nat := 0
  carryArea : Nat := 0
  tasks : List TaskDef := []
  /-- digital outputs that the scan program writes (R13) [8] -/
  scanOut : W32 := 0
  /-- the ring exchange plan that waits for its safe point (R14) -/
  ring : Option RingPlan := none
  deriving DecidableEq, Repr, Inhabited

/-! Clocks (R20-R26). -/

/-- A cluster PLL: locked; powered down (R23); relocking; lock lost (R25); locked again and to re-enter at the next cycle
boundary after 1 ms. -/
inductive Pll where
  | locked | down | relocking | lost | held
  deriving DecidableEq, Repr, Inhabited

structure Cluster where
  pll : Pll := .locked
  gated : Bool := false
  deriving DecidableEq, Repr, Inhabited

/-! Time bases (R356-R371). -/

/-- A PTP port: the best foreign master heard and not timed out; whether the announce receipt timeout has passed without
one (R359, R363). -/
structure PtpPort where
  best : Option Announce := none
  timedOut : Bool := false
  deriving DecidableEq, Repr, Inhabited

structure TimeS where
  /-- ship time: seconds and nanoseconds (R356) -/
  tb0s : W64 := 0
  tb0n : Nat := 0
  /-- monotonic time in nanoseconds (R356) -/
  tb1 : W64 := 0
  /-- scan time at the freeze of F-cycle 0, from which TB2 counts (R357) -/
  tb2From : Option W64 := none
  /-- operating seconds and the power-cycle count, in FRAM (R358) -/
  tb3 : Nat := 0
  pcc : Nat := 0
  /-- fraction of a nanosecond that the rate correction has gathered, in 4 × 10^−11 ns (R356, `TIME_RATE`) -/
  frac : Int := 0
  /-- the PTP ports (R359) -/
  ptp : Vector PtpPort 2 := Vector.replicate 2 {}
  /-- the parent: its port and its data set; the transport it uses (R363) -/
  parent : Option (Nat × Announce) := none
  /-- Syncs in a row beyond `STEP_MS`, and within ±1 µs (R362, R363) -/
  ovr : Nat := 0
  good : Nat := 0
  /-- LOCKED since the core rails rose; rate corrections since LOCKED, latest first, with the TB1 from which each held -/
  everLocked : Bool := false
  rates : List (W64 × Int) := []
  /-- master-to-slave time of the latest Sync; send time of the latest Delay_Req (R362) -/
  t21 : Option Int := none
  t3 : Option Int := none
  /-- the timekeeper is stopped: the OCXO has failed (R365) -/
  stopped : Bool := false
  deriving DecidableEq, Repr, Inhabited

/-! The redundant pair (R194-R227) and on-line change (R167-R193). -/

/-- A message of priority 1, 4 or 5 that waits for the partner's acknowledgement (R202). -/
structure DrawbarMsg where
  id : Nat := 0
  body : Out := .nothing
  deriving DecidableEq, Repr, Inhabited

/-- The loop currents in a transfer of the token (R198): as driven; the outgoing island drives on until the partner's `TOKEN`
rises, then ramps to 0 mA; the incoming island ramps from 0 mA. -/
inductive LoopRamp where
  | steady | driving | down | up
  deriving DecidableEq, Repr, Inhabited

/-- The Bogie as far as it holds state and the partner's lines reach this module (R194-R198). -/
structure Bogie where
  /-- the slot that holds the drive token, and the slot whose `TOKEN` is to rise (R197, R198) -/
  holder : Option Slot := none
  rising : Option Slot := none
  /-- the `CLAIM` and `READY` lines of the partner (R194) -/
  pClaim : Bool := false
  pReady : Bool := false
  /-- this module's island asserts `RFX_SILENT` -/
  rfxSilent : Bool := false
  /-- level of the own `ALIVE` line -/
  alive : Bool := false
  /-- Drawbar lanes that are up; a retrain is under way (R201) -/
  lanes : BitVec 4 := 0
  retrain : Bool := false
  /-- the island link carries no frames (R196) -/
  linkFault : Bool := false
  /-- the loop hand-over (R198): where it stands, TB1 at the start of its ramp, the currents in nA that the outgoing island drove
  at the drop of its `TOKEN`; TB1 at the end of the last ramp (R257) -/
  ramp : LoopRamp := .steady
  rampAt : W64 := 0
  rampFrom : Vector Nat 8 := Vector.replicate 8 0
  rampEnd : Option W64 := none
  deriving DecidableEq, Repr, Inhabited

structure Pair where
  /-- dirty bits of the copy map by 256-byte block, and the blocks the seal in flight carries (R204) -/
  dirty : NSet := []
  inFlight : NSet := []
  /-- blocks sent in the copy in progress: which, how many, and their CRC (R205, R206) -/
  passed : NSet := []
  copyN : Nat := 0
  copyCrc : W64 := 0
  /-- the cycle whose seal awaits its acknowledgement; unsealed cycles in a row; last cycle sealed or acknowledged (R207) -/
  sealPending : Option W64 := none
  unsealed : Nat := 0
  lastSealed : W64 := 0
  /-- copied blocks staged and not yet applied, and the F-cycle of their copy; messages seen (R202, R208) -/
  staged : List (Nat × List Byte) := []
  stagedOf : W64 := 0
  seen : List Nat := []
  /-- messages awaiting acknowledgement, and their running number (R202) -/
  msgs : List DrawbarMsg := []
  msgCount : Nat := 0
  /-- the last seal record applied (R208, R216) -/
  lastSeal : SealRec := {}
  /-- last heartbeat heard (R203) -/
  heard : Heartbeat := {}
  /-- sequence number of the last heartbeat sent (R203) -/
  hbSeq : Nat := 0
  /-- causes of a forced zero that hold, by `FCAUSE` (R214) -/
  forced : NSet := []
  /-- consecutive health cycles of the margin, and operating second of the last switch-over (R215) -/
  marginRuns : Nat := 0
  lastSwitch : Option Nat := none
  /-- a hand-over asked for: `TRIGGER` code; the seal in flight carries `HANDOVER`; it was acknowledged (R215) -/
  handover : Option Nat := none
  handoverSent : Bool := false
  handoverAcked : Bool := false
  /-- a released token must not come back: the module lost `TOKEN` by its own drop (R219) -/
  released : Option Nat := none
  /-- the hand-over seal's boundary has come: the next `TOKEN` is a hand-over (R212) -/
  handoverIn : Bool := false
  /-- operating seconds of the differences of R211 -/
  diverge : List Nat := []
  /-- sweep: next unit, cycle of the lap's start (none: the lap has taken no unit), digests for the next seal; differing units asked for (R210, R211) -/
  sweepPos : Nat := 0
  sweepStart : Option W64 := none
  sweepItems : List SweepItem := []
  asked : List Nat := []
  /-- the partner's active plans: block, generation, digest (R19) -/
  pPlans : List (Nat × W32 × W64) := []
  /-- digests of the partner's pending plans; the agreed boundary (R224) -/
  pDigests : List (Nat × W64) := []
  agreed : List Nat := []
  applyAt : Option W64 := none
  /-- chains of the last takeover: a takeover cycle is to run (R217) -/
  takeover : Bool := false
  /-- the partner was lost while SYNCING: a start request is to claim the token (R223) -/
  startReq223 : Bool := false
  /-- TB1 of the last heartbeat heard; TB1 of the drop of the outgoing `TOKEN`, until the first publish after it (R215,
  R225) -/
  heardAt : W64 := 0
  gapFrom : Option W64 := none
  /-- scan time of the end of the takeover cycle (R217) -/
  takeoverEnd : Option W64 := none
  /-- SYNCING: the full copy has ended; units compared in the sweep lap under way (R221, R222) -/
  copied : Bool := false
  lapSeen : Nat := 0
  /-- the seal record that awaits its acknowledgement (R207) -/
  sent : SealRec := {}
  /-- the `TRIGGER` of the transfer under way, as the incoming module infers it (R215, R225) -/
  incoming : Nat := 0
  /-- the CAT has refused a read of a block of this copy: no seal record follows (R378) -/
  refused : Bool := false
  /-- the configuration of the full copy, kept in flash once synchronised (R221, R222) -/
  taken : Option FlashCfg := none
  deriving DecidableEq, Repr, Inhabited

/-- A queued value write (R187). -/
structure ValueWrite where
  symId : W64 := 0
  typeId : Nat := 0
  off : Nat := 0
  value : List Byte := []
  deriving DecidableEq, Repr, Inhabited

/-- A carry-over under way: what stage 1 copied, the destinations by address, and what stage 2 makes of the sources copied;
whether it is complete, its CRC (R177, R186). -/
structure Carry where
  saved : List (Nat × List Byte) := []
  writes : List (Nat × List Byte) := []
  done : Bool := false
  crc : W64 := 0
  /-- abandoned at an access that the CAT refused (R378) -/
  stuck : Bool := false
  deriving DecidableEq, Repr, Inhabited

structure Olc where
  /-- Ed25519 keys in flash (R169) -/
  keys : Vector (Option (BitVec 256)) 4 := Vector.replicate 4 none
  /-- the carry-over under way (R177) -/
  carry : Option Carry := none
  /-- the partner's report: its bank digest and whether checks 1 to 12 passed (R172, R173) -/
  partnerPkg : Option (BitVec 128 × Bool) := none
  /-- plans and tasks that the package in the inactive bank carries [8] -/
  plans : PlanSet := {}
  /-- the force table (R182) -/
  forces : List Force := []
  /-- the queue of value writes (R187) -/
  vwq : List ValueWrite := []
  /-- the outcome of this cycle's switch, 0 or the code of the undo, and the CRC of the carry-over, for the next seal (R177,
  R186) -/
  outcome : Option (Nat × W64) := none
  /-- what flash holds for the next start (R167, R457) -/
  flash : FlashCfg := {}
  deriving DecidableEq, Repr, Inhabited

/-! Power and the first second (R453-R467). -/

structure Power where
  /-- the AOS runs: from t0 until the hold-up is exhausted (R20, R453) -/
  aos : Bool := false
  /-- the core rails are up (R453) -/
  rails : Bool := false
  /-- the OCXO runs within 100 ppm (R26) -/
  ocxo : Bool := false
  /-- the chip is out of reset (R455) -/
  chip : Bool := false
  /-- the stages of the first second that have passed (R461): doorbells served, CAN transmission released, PTP master -/
  doorbells : Bool := false
  can : Bool := false
  ptpMaster : Bool := false
  /-- the first-second stage of the ring has passed (R461) -/
  ringJoined : Bool := false
  /-- at t0 + 300 ms to 400 ms: the role has been decided (R458) -/
  roleDone : Bool := false
  /-- the decision is kept open by a partner in SERVICE or STOPPED (R458) -/
  roleOpen : Bool := false
  /-- a restart by `SYS_RESTART` waits for the recorder flush (R484) -/
  restarting : Bool := false
  /-- `PWR_CFG` as stored in flash (R467) -/
  cfgStored : W32 := 0
  /-- a `PWR_CFG` written to the shadow waits to be stored (R467) -/
  cfgPending : Bool := false
  /-- TB1 at t0 (R453) -/
  t0 : W64 := 0
  /-- MC: running its self-test after a lock-step mismatch; failed for good (R35, R36) -/
  mcTest : Bool := false
  /-- supply and hold-up bank in mV, as the AOS last measured them (R453, R454) -/
  vin : Nat := 0
  bank : Nat := 0
  /-- past the shutdown point: the chip waits for the supply to return (R466) -/
  waitSupply : Bool := false
  /-- operating second of the last record of a high chip temperature (R499) -/
  lastTempRec : Option Nat := none
  /-- traffic accepted in the first second: port, 100 ms interval, count (R461) -/
  rates : List (Nat × Nat × Nat) := []
  deriving DecidableEq, Repr, Inhabited

/-! The central access table and memory integrity (R372-R391). -/

structure Cat where
  /-- the words of the entries that decide accesses (R376), by offset -/
  eff : List (Nat × W32) := []
  /-- the words of the entries as committed by the last `ATTR` writes (R375) -/
  committed : List (Nat × W32) := []
  /-- a barrier written and not yet completed (R376) -/
  barrier : Option W32 := none
  /-- per class: operating second of the last record, refusals since it (R379) -/
  lastRec : Vector (Option Nat) 8 := Vector.replicate 8 none
  since : Vector Nat 8 := Vector.replicate 8 0
  deriving DecidableEq, Repr, Inhabited

structure Integ where
  /-- rows queued for repair, by address of a word in them (R388, R389) -/
  repairs : List Nat := []
  /-- drupelet and block of the windows that wait for the partner's block (R386) -/
  wanted : List (Nat × Nat) := []
  /-- poisoned blocks that a STANDBY has asked the PRIMARY to copy, until the copy applies (R386) -/
  asked : List Nat := []
  /-- blocks of the active bank that MC is to rewrite from flash (R385) -/
  rewrite : List Nat := []
  /-- operating second of the last uncorrectable error (R213) -/
  lastUe : Option Nat := none
  deriving DecidableEq, Repr, Inhabited

/-! The field island (R228-R260). Inside the island; it keeps its state while the chip is in reset. -/

/-- A digital channel in the island: filter counter and filtered state (R235), terminal level as read back, latched off
(R242), readback fault (R244), threshold check fault and the result of the last check (R237), in current limit, and a level
(none: not driven) that a hold or a safe value keeps until the first command that concerns the channel (R249, R251). -/
structure DChan where
  count : Nat := 0
  input : Bool := false
  term : Bool := false
  latched : Bool := false
  rbFault : Bool := false
  chkFault : Bool := false
  chkBad : Bool := false
  ilim : Bool := false
  hold : Option (Option Bool) := none
  deriving DecidableEq, Repr, Inhabited

/-- A loop output in the island: readback in nA (R255), fallback path and readback fault (R257), compliance and open loop
(R256), calibration (R260), held or safe current in nA, factory trims and factory table of the fallback path in the
island's own non-volatile memory (R253, R254). -/
structure LChan where
  readback : Nat := 0
  fallback : Bool := false
  rbFault : Bool := false
  compliance : Bool := false
  openLoop : Bool := false
  calLimit : Bool := false
  /-- the correction of the readback in nA, as calibration has set it (R260) -/
  rbAdj : Int := 0
  hold : Option Nat := none
  factoryLo : BitVec 16 := 0
  factoryHi : BitVec 16 := 0
  table : List Nat := []
  deriving DecidableEq, Repr, Inhabited

structure Island where
  /-- L+ above the start level: the island runs (R247); it has started and not yet recovered -/
  on : Bool := false
  fresh : Bool := false
  /-- outputs-off state; warning; recovery timer running (R245) -/
  off : Bool := false
  warn : Bool := false
  recovering : Bool := false
  /-- no valid frame for 8 µs; the hold timer runs; it has expired (R249) -/
  silent : Bool := false
  holding : Bool := false
  expired : Bool := false
  /-- a scan command arrived since L+ rose above 18 V (R246) -/
  cmdSeen : Bool := false
  /-- module state as the last valid frame carried it (R251); the reflex plane is stopped or disarmed (R250) -/
  mst : ModState := .off
  rfxStop : Bool := true
  /-- latest scan command received, and the values the three slots committed, none for an empty slot (R144) -/
  cmd : ScanCmd := {}
  q : Vector (Option W32) 3 := Vector.replicate 3 none
  /-- copies of the active DIO and AO groups and of the reflex binding plan, by register offset (R248) -/
  cfg : List (Nat × W32) := []
  /-- the mirror: digital levels and loop currents in nA (R196); the mirror is filled from the last seal and the own vote;
  scan-owned outputs are driven from the mirror until the module's first publish (R198) -/
  mirror : W32 := 0
  mirrorL : Vector Nat 8 := Vector.replicate 8 0
  useMirror : Bool := false
  /-- the digital channels -/
  ch : Vector DChan 32 := Vector.replicate 32 {}
  /-- the loop outputs -/
  lp : Vector LChan 8 := Vector.replicate 8 {}
  deriving DecidableEq, Repr, Inhabited

/-! The reflex plane (R136-R166). -/

/-- A running pass: an event pass, its frame number, the working state of each engine at its end (R137, R139), and the engines whose
pass differs because an access of theirs was refused or met an uncorrectable word (R378, R385). -/
structure RPass where
  event : Bool := false
  frame : W64 := 0
  img : Vector RImage 4 := Vector.replicate 4 {}
  bad : BitVec 4 := 0
  deriving DecidableEq, Repr, Inhabited

structure Rfx where
  /-- the committed state image of each engine (R137, R158), and the reflex-to-scan mailbox of the latest commit (R141, R145) -/
  img : Vector RImage 4 := Vector.replicate 4 {}
  r2s : Mailbox := {}
  /-- the running pass (R139) -/
  pass : Option RPass := none
  /-- an event pass waits; a frame boundary has passed and its frame is not served (R139, R140) -/
  evPend : Bool := false
  framePend : Bool := false
  /-- TB1 at the dispatch of the running event pass, and of the one that waits -/
  disp : W64 := 0
  dispPend : W64 := 0
  /-- scan-to-reflex mailbox of the latest class commit, and its latch at the frame boundary (R141) -/
  s2r : Mailbox := {}
  latch : Mailbox := {}
  /-- the frame number counts; a program was armed or exchanged since the last boundary; the first frame after it -/
  counting : Bool := false
  fresh : Bool := false
  first : Option W64 := none
  /-- flags that a RISE or FALL of the exchanged program settles in the first frame (R184) -/
  settle : BitVec 512 := 0
  /-- transients of each engine in operating seconds, in FRAM (R147) -/
  trans : Vector (List Nat) 4 := Vector.replicate 4 []
  /-- engines prepared and to join at the next frame boundary; the odd engine last found in each slot (R146) -/
  joining : List Nat := []
  oddOf : Vector Nat 3 := Vector.replicate 3 7
  deriving DecidableEq, Repr, Inhabited

/-! The acquisition engine (R265-R284). -/

/-- Where stored sample sets lie: the full-rate index of the first, its place as a count of bytes written since enable,
the decimation factor. -/
structure Seg where
  first : Nat := 0
  pos : Nat := 0
  dec : Nat := 1
  deriving DecidableEq, Repr, Inhabited

/-- A marker of a capture: its sample index and its body (R282). -/
structure Marker where
  idx : Nat := 0
  body : List Byte := []
  deriving DecidableEq, Repr, Inhabited

/-- A capture (R270, R276, R281-R283): number, first sample, end (exclusive), place of its first byte, ring base, channel
mask, body of its header record, markers not yet sent, what its end record says, and how far its records are sent. -/
structure Capture where
  num : Nat := 0
  first : Nat := 0
  stop : Nat := 0
  start : Nat := 0
  endPos : Nat := 0
  base : Nat := 0
  chmask : Nat := 0
  header : List Byte := []
  segs : List Seg := []
  marks : List Marker := []
  retrigs : Nat := 0
  lost : Nat := 0
  shortPre : Bool := false
  trunc : Bool := false
  ovr : Bool := false
  ended : Bool := false
  headerSent : Bool := false
  cur : Nat := 0
  seq : Nat := 0
  /-- the frame of the acquisition stream that carried the end record -/
  endFrame : Option Nat := none
  deriving DecidableEq, Repr, Inhabited

structure Acq where
  /-- states of the threshold events, and consecutive samples that met each event's condition (R267) -/
  ev : W32 := 0
  run : Vector Nat 32 := Vector.replicate 32 0
  /-- samples taken since enable; the last sample set; channels beyond the range -/
  n : Nat := 0
  x : Vector (BitVec 16) 16 := Vector.replicate 16 0
  ovr : BitVec 16 := 0
  /-- sums of the sample set being averaged (R272); decimation factor in force and the next one, as `DEC` codes -/
  sum : Vector Int 16 := Vector.replicate 16 0
  dec : Nat := 0
  decNext : Nat := 0
  /-- bytes written since the module restarted, and the segments of the history since enable or plan change (R269); samples in the
  sums -/
  wpos : Nat := 0
  sumN : Nat := 0
  segs : List Seg := []
  /-- full-rate samples lost since writing last succeeded (R271) -/
  gap : Nat := 0
  /-- sequencer: dwell; a step was taken at the present sample; a forced trigger, a disarm wait (R274, R277) -/
  dwell : Nat := 0
  stepped : Bool := false
  force : Bool := false
  disarm : Bool := false
  /-- captures not yet released, in the order opened -/
  captures : List Capture := []
  /-- injection windows of the skew measurement: first sample, length (R280) -/
  windows : List (Nat × Nat) := []
  deriving DecidableEq, Repr, Inhabited

/-! The Silzo Ring and peer exchange (R285-R308). -/

/-- What has arrived of a planned segment: the rings of the valid copies of this exchange and the first copy's input area;
the input area in use, the rings of its exchange, and whether the latest exchange was missed (R295, R298). -/
structure SegRx where
  got : BitVec 2 := 0
  data : List Byte := []
  last : List Byte := []
  lastRings : BitVec 2 := 0
  missed : Bool := false
  deriving DecidableEq, Repr, Inhabited

/-- A peer subscription's reception (R305, R306): the `CYCLE` last accepted and its ports, data and TB1
of the last valid frame, and the value held. -/
structure PeerRx where
  cycle : Option W64 := none
  ports : BitVec 2 := 0
  data : List Byte := []
  recvAt : W64 := 0
  held : List Byte := []
  deriving DecidableEq, Repr, Inhabited

structure Ring where
  plan : RingPlan := {}
  active : Bool := false
  /-- the present exchange has passed its deadline; its slices; the F boundary it belongs to, on TB1 -/
  closed : Bool := true
  sliceN : Nat := 0
  sliceS : Nat := 0
  t0 : W64 := 0
  /-- an exchange number has been seen or sent since the module restarted (R289) -/
  synced : Bool := false
  /-- what has arrived of the planned segments (R295) -/
  segs : List SegRx := []
  /-- last valid value of each input point, by point (R299) -/
  held : List (Nat × List Byte) := []
  /-- stations that return from LOST -/
  fromLost : NSet := []
  /-- how the frames of each port came back in this exchange, bit 0 opposite port, bit 1 same port; exchanges in a row
  without return by port and by ring (R301) -/
  back : Vector (BitVec 2) 4 := Vector.replicate 4 0
  noBack : Vector Nat 4 := Vector.replicate 4 0
  noRing : Vector Nat 2 := Vector.replicate 2 0
  /-- reception of the peer subscriptions (R305) -/
  peers : List PeerRx := []
  deriving DecidableEq, Repr, Inhabited

/-! The CAN FD ports (R309-R326). -/

/-- A transmit buffer: its content (72 bytes, as a slot), whether it is queued, the content last queued, and which of its
last eight attempts were collision attempts, the latest first (R315, R316, R322). -/
structure CanBuf where
  content : List Byte := []
  queued : Bool := false
  last : List Byte := []
  tries : List Bool := []
  deriving DecidableEq, Repr, Inhabited

/-- A receive object (R319): the F-cycle of its reception, and whether it came since the previous freeze of its class. -/
structure RxObj where
  rxid : Nat := 0
  dlc : Nat := 0
  len : Nat := 0
  count : Nat := 0
  stamp : W64 := 0
  data : List Byte := []
  cycle : W64 := 0
  fresh : Bool := false
  deriving DecidableEq, Repr, Inhabited

structure CanPort where
  bufs : Vector CanBuf 64 := Vector.replicate 64 {}
  /-- consecutive acknowledgement errors (R320) -/
  ackRun : Nat := 0
  /-- `BO_DELAY` has elapsed in BUSOFF -/
  boDone : Bool := false
  /-- buffers that waited when transmission ceased to be permitted: the frame of the one offered may still be on the bus (R312, R324) -/
  leaving : List Nat := []
  deriving DecidableEq, Repr, Inhabited

structure Can where
  port : Vector CanPort 4 := Vector.replicate 4 {}
  /-- receive objects received since the plan became active, by class and offset -/
  objs : List (Nat × RxObj) := []
  deriving DecidableEq, Repr, Inhabited

/-! Host rings, DMA and the Dray link (R327-R355). -/

/-- Where a taken command stands: its data are to be fetched, are moving, it may begin; it waits for a commit of its
symbol's class; its data are to be written, are moving; it streams; it is forwarded; it waits for acknowledgements of the
items forwarded, for the hand-over seal, or for its own effect; it is executed (R333, R336). -/
inductive CmdPhase where
  | needIn | movingIn | ready | waitCommit | needOut | movingOut | bulk | forwarded | waitAcks | waitSeal | waitEffect | done
  deriving DecidableEq, Repr, Inhabited

/-- A command taken and not yet completed (R331, R336, R339, R341). -/
structure Cmd where
  id : Nat := 0
  ring : Nat := 0
  count : W32 := 0
  desc : Desc := {}
  phase : CmdPhase := .ready
  /-- data fetched, or captured to be written -/
  data : Option (List Byte) := none
  /-- status and result of its completion entry (R334) -/
  status : W32 := 0
  result : W32 := 0
  /-- last host address its data were written to; the barrier read has been sent; it has completed (R339) -/
  lastAddr : Option W64 := none
  barSent : Bool := false
  barDone : Bool := false
  /-- Drawbar messages whose acknowledgement it waits for -/
  acks : List Nat := []
  /-- the cycle whose seal carried its completion; that seal has been acknowledged -/
  carried : Option W64 := none
  sealed : Bool := false
  deriving DecidableEq, Repr, Inhabited

structure HostS where
  /-- commands taken and not completed, in the order taken -/
  cmds : List Cmd := []
  /-- number for the next command taken -/
  nextId : Nat := 0
  /-- round-robin: the ring served last on each port (R333) -/
  rr : Vector Nat 2 := Vector.replicate 2 7
  /-- running counts of completion and event entries written (R331) -/
  cq : Vector W32 2 := Vector.replicate 2 0
  eq : Vector W32 2 := Vector.replicate 2 0
  /-- event entries that wait for room, and entries dropped since the last lost marker (R340) -/
  eqWait : Vector (List (List Byte)) 2 := Vector.replicate 2 []
  eqDropped : Vector Nat 2 := Vector.replicate 2 0
  /-- what a STANDBY has fetched and checked (R341) -/
  fetched : Vector W32 16 := Vector.replicate 16 0
  /-- rings catching up after a switch-over, and those that stopped quietly (R342) -/
  catchUp : NSet := []
  quiet : NSet := []
  deriving DecidableEq, Repr, Inhabited

structure Dma where
  /-- the command each channel works on (R344) -/
  chan : Vector (Option Nat) 16 := Vector.replicate 16 none
  /-- bytes its command has moved so far (R346) -/
  moved : Vector Nat 16 := Vector.replicate 16 0
  deriving DecidableEq, Repr, Inhabited

/-- A frame on a lane, or to be sent again (R348, R349): its stream, its bytes, and the capture whose end record or the
command whose last data it carries. -/
structure DrayFrame where
  stream : Nat := 0
  bytes : List Byte := []
  capEnd : Option Nat := none
  bulkEnd : Option Nat := none
  /-- frames sent with it, of a bulk transfer -/
  frames : Nat := 0
  deriving DecidableEq, Repr, Inhabited

/-- A bulk transfer (R350): its command, what is left of it, and the frames sent. -/
structure Bulk where
  cmd : Nat := 0
  addr : Nat := 0
  len : Nat := 0
  off : Nat := 0
  tag : W64 := 0
  frames : Nat := 0
  deriving DecidableEq, Repr, Inhabited

/-- A historian subscription (opcode 0x1A): number, class, every k-th commit, commits since, symbols. -/
structure HistSub where
  sub : Nat := 0
  cls : Cls := .f
  k : Nat := 1
  since : Nat := 0
  ids : List W64 := []
  deriving DecidableEq, Repr, Inhabited

structure Dray where
  /-- frame number of each stream; records that wait on the events and historian streams (R350) -/
  seq : Vector Nat 4 := Vector.replicate 4 0
  events : List (List Byte) := []
  /-- records that wait on the historian stream, and those dropped since its last frame (R350) -/
  hist : List (List Byte) := []
  histDropped : Nat := 0
  /-- bulk transfers in the order begun (R350) -/
  bulk : List Bulk := []
  /-- historian subscriptions (R336) -/
  subs : List HistSub := []
  /-- the frame in progress on each lane, and frames to be sent again (R349) -/
  lane : Vector (Option DrayFrame) 2 := Vector.replicate 2 none
  resend : List DrayFrame := []
  /-- a credit frame has come since the link came up; the first grant of each stream since then (R283, R349) -/
  credited : Bool := false
  /-- streams whose next frame has been found waiting for credit -/
  waits : NSet := []
  /-- the first grant of each stream since the link came up (R283) -/
  first : Vector W32 4 := Vector.replicate 4 0
  deriving DecidableEq, Repr, Inhabited


/-! The observation port (R444-R452). -/

/-- A memory window of a selection: address, length (0: unused), period in F-cycles. -/
structure ObsWin where
  addr : Nat := 0
  len : Nat := 0
  period : Nat := 1
  deriving DecidableEq, Repr, Inhabited

/-- A selection (R446): frame number, sources, drupelet and chain of step-exact trace, counter period, memory windows,
event codes of the counters. -/
structure ObsSel where
  seq : W32 := 0
  src : Nat := 0
  be : Option Nat := none
  chain : Nat := 0
  period : Nat := 1
  wins : List ObsWin := []
  codes : List Nat := []
  deriving DecidableEq, Repr, Inhabited

structure Obs where
  /-- the selection in force; what replaces it at the next F boundary (a selection, or none) (R446) -/
  sel : Option ObsSel := none
  next : Option (Option ObsSel) := none
  /-- a selector frame was accepted in this F-cycle; TB1 of the last accepted (R445) -/
  accepted : Bool := false
  acceptedAt : Option W64 := none
  /-- the collector, oldest first; records dropped by stream since its last frame; frame numbers by stream (R447) -/
  coll : List ObsRec := []
  drops : Vector Nat 5 := Vector.replicate 5 0
  frames : Vector Nat 5 := Vector.replicate 5 0
  /-- F boundaries since the selection came into force; bursts to be read: address, length (R447, R449) -/
  age : Nat := 0
  reads : List (Nat × Nat) := []
  /-- idle clocks of drupelets not yet counted: fewer than 1,024 (R448) -/
  idle : Nat := 0
  /-- the drupelet that is to be traced at the end of its window; the one traced; its end is due (R450, R451) -/
  drain : Option Nat := none
  traced : Option Nat := none
  endStep : Bool := false
  /-- the snapshot taken before an execution, and the replica that may start: the execution, memory (R98, R450) -/
  snap : Option Snapshot := none
  replica : Option Snapshot := none
  /-- the chain last traced, in audit order (R99, R450) -/
  pos : Nat := 0
  deriving DecidableEq, Repr, Inhabited

/-! Background work (R392-R406). -/

structure Wf where
  /-- TB3 at scan start, from which the clients' first runs are due (R396) -/
  scanAt : Option Nat := none
  /-- erase counts of the flash blocks, by half × 8192 + block, in flash and FRAM (R400) -/
  erase : List (Nat × Nat) := []
  /-- the migration under way: half, source and destination block -/
  moving : Option (Nat × Nat × Nat) := none
  /-- time of local scrub chains since the latest F boundary, in ns (R406, `WF_BRM_TIME`) -/
  localNs : Nat := 0
  deriving DecidableEq, Repr, Inhabited
/-! The Tally Cart bay and the front display (R420-R443). -/

structure Bay where
  /-- the cartridge in the bay -/
  cart : Option Cartridge := none
  deriving DecidableEq, Repr, Inhabited

/-- The module. -/
structure State where
  /-- the commands that wait, first in, first out -/
  pending : List Instr := []
  /-- everything the module has sent outward, latest last [9] -/
  out : List Out := []
  /-- count of open values taken (`Config.freeValue`) [2] -/
  free : Nat := 0
  /-- registers of the setup window that differ from their reset value, by offset; shadows of RWS fields (R470, R478) -/
  regs : List (Nat × W32) := []
  /-- active values of RWS registers (R8, R478) -/
  act : List (Nat × W32) := []
  /-- upper halves latched for a reader (0 MC, 1 and 2 the host ports) by its read of the lower half: reader, offset of
  the upper half, value (R471) -/
  latch : List (Nat × Nat × W32) := []
  /-- physical memory (R27) -/
  mem : Mem := {}
  /-- what the configuration gives that no register holds (R13, R14, R51) -/
  conf : Conf := {}
  /-- power and the first second (R453) -/
  power : Power := {}
  /-- the cluster clocks (R22) -/
  clk : Vector Cluster 4 := Vector.replicate 4 {}
  /-- the central access table (R372) -/
  cat : Cat := {}
  /-- memory integrity (R380) -/
  integ : Integ := {}
  /-- the Bogie and the pair lines (R194) -/
  bogie : Bogie := {}
  /-- the redundant pair (R201) -/
  pair : Pair := {}
  /-- on-line change (R167) -/
  olc : Olc := {}
  /-- the Bramble (R73) -/
  brm : Brm := {}
  /-- the scan plane (R37) -/
  scan : Scan := {}
  /-- the event recorder (R407) -/
  recd : Rec := {}
  /-- the time bases (R356) -/
  time : TimeS := {}
  /-- the field island (R228) -/
  island : Island := {}
  /-- the reflex plane (R136) -/
  rfx : Rfx := {}
  /-- the acquisition engine (R265) -/
  acq : Acq := {}
  /-- the Silzo Ring and peer exchange (R285) -/
  ring : Ring := {}
  /-- the CAN FD ports (R309) -/
  can : Can := {}
  /-- the host rings (R329) -/
  host : HostS := {}
  /-- the DMA engines (R344) -/
  dma : Dma := {}
  /-- the Dray link (R347) -/
  dray : Dray := {}
  /-- the Tally Cart bay (R420) -/
  bay : Bay := {}
  /-- the observation port (R444) -/
  obs : Obs := {}
  /-- background work (R392) -/
  wf : Wf := {}
  deriving DecidableEq, Repr, Inhabited

/-- The module at reset: not powered (OFF, R4), every register at the value it takes when the core rails rise (R472),
memory with nothing listed, every store that outlasts power (FRAM, flash) empty [10]. -/
def State.reset : State := {}

end Sys2Proof.Machine
end

