-- ==== Sys2Proof/Machine/Ops.lean ====
section
/-!
DEFINITION. The named operations over registers, memory, open values, outputs, records and error events that every
meaning is written in.
-/

namespace Sys2Proof.Machine

/-- The answer of a meaning. -/
abbrev Res := Host.Outcome State Fault Refusal

/-! Registers (R5-R10, R470-R478). -/

/-- The value of a register, or the shadow of an RWS register (R478). -/
def State.rd (s : State) (off : Nat) : W32 := sget regReset s.regs off

/-- Sets a register. -/
def State.wr (s : State) (off : Nat) (v : W32) : State := { s with regs := sset regReset s.regs off v }

/-- The active value of an RWS register. -/
def State.actv (s : State) (off : Nat) : W32 := sget regReset s.act off

/-- A field of a register, as a number. -/
def State.fget (s : State) (f : Field) : Nat := fldN (s.rd f.off).toNat f.lo f.width

/-- A field of one bit. -/
def State.fbit (s : State) (f : Field) : Bool := s.fget f == 1

/-- A register with one field set (cut to its width). -/
def State.fset (s : State) (f : Field) (v : Nat) : State :=
  s.wr f.off (BitVec.ofNat 32 (setFldN (s.rd f.off).toNat f.lo f.width v))

def State.fsetb (s : State) (f : Field) (b : Bool) : State := s.fset f (bit b)

/-- A field of the active value of an RWS register. -/
def State.aget (s : State) (f : Field) : Nat := fldN (s.actv f.off).toNat f.lo f.width

def State.abit (s : State) (f : Field) : Bool := s.aget f == 1

/-- The class periods in force (R68): the F period in µs, the N and S multipliers. -/
def State.fPeriod (s : State) : Nat := (s.actv R.scanFPeriod).toNat
def State.nMult (s : State) : Nat := (s.actv R.scanNMult).toNat
def State.sMult (s : State) : Nat := (s.actv R.scanSMult).toNat

/-- Adds to a counter that stops at 0xFFFF_FFFF. -/
def State.bumpBy (s : State) (off k : Nat) : State := s.wr off (BitVec.ofNat 32 (satAdd 32 (s.rd off).toNat k))

def State.bump (s : State) (off : Nat) : State := s.bumpBy off 1

/-- Adds 1 to a counter field that stops at its top. -/
def State.bumpF (s : State) (f : Field) : State := s.fset f (satAdd f.width (s.fget f) 1)

/-- The 64-bit value of a pair of registers, the lower half first. -/
def State.rd64 (s : State) (lo : Nat) : W64 := (s.rd (lo + 4)) ++ (s.rd lo)

def State.wr64 (s : State) (lo : Nat) (v : W64) : State :=
  (s.wr lo (v.extractLsb' 0 32)).wr (lo + 4) (v.extractLsb' 32 32)

/-- Every register of a list at zero. -/
def State.zero (s : State) (offs : List Nat) : State := offs.foldl (fun s o => s.wr o 0) s

/-- A write that is ignored is counted in the block's `BLOCK_IGNORED` (R8, R10, R16, R481). -/
def State.ignoredIn (s : State) (block : Nat) : State :=
  s.bump (block * 0x1000 + (if block = 0xF then 0x14 else 0x10))

/-- The module state: `PAIR_STATUS.STATE` (R4, R225). OFF is coded 0. -/
def modOfCode : Nat → ModState
  | 1 => .boot | 2 => .config | 3 => .syncing | 4 => .standby | 5 => .primary
  | 6 => .alone | 7 => .service | 8 => .stopped | _ => .off

def modCode : ModState → Nat
  | .off => 0 | .boot => 1 | .config => 2 | .syncing => 3 | .standby => 4 | .primary => 5
  | .alone => 6 | .service => 7 | .stopped => 8

def State.mod (s : State) : ModState := modOfCode (s.fget F.pairStatus_state)
def State.setMod (s : State) (m : ModState) : State := s.fset F.pairStatus_state (modCode m)

/-- The partner's state as last heard; OFF: no partner (R225). -/
def State.partner (s : State) : ModState := modOfCode (s.fget F.pairStatus_pState)

/-- Whether the module is powered and its chip out of reset. -/
def State.up (s : State) : Bool := s.power.chip

/-- Whether CONFIG has completed. -/
def State.configured (s : State) : Bool := s.mod ≠ .off && s.mod ≠ .boot && s.mod ≠ .config

/-- Whether F boundaries of a running scan come on this module: it runs the scan, or follows it as STANDBY. -/
def State.scanning (s : State) : Bool :=
  s.scan.run == .running && (s.mod == .primary || s.mod == .alone || s.mod == .service || s.mod == .standby)

/-- Whether this module's `TOKEN` is asserted. -/
def State.token (s : State) : Bool := s.fbit F.pairStatus_token

/-! Open values and outputs. -/

/-- An open value: the next of `Config.freeValue` [2]. -/
def State.take (s : State) : W64 × State := (Config.freeValue s.free, { s with free := s.free + 1 })

def State.emit (s : State) (o : Out) : State := { s with out := s.out ++ [o] }

/-! Memory (R27, R381, R384). -/

/-- The regions of the memory controllers (R391), and the windows that are no memory. -/
inductive Region where
  | bankA | bankB | instance_ | drupelet | reflex | mcLocal | shared | dram | setup | cart
  deriving DecidableEq, Repr

/-- Table: Physical memory map (R27); none: unmapped. -/
def regionOf (a : Nat) : Option Region :=
  if a ≤ 0x00FFFFFF then some .bankA
  else if a ≤ 0x01FFFFFF then some .bankB
  else if a ≤ 0x03FFFFFF then some .instance_
  else if a ≤ 0x047FFFFF then some .drupelet
  else if a ≤ 0x049FFFFF then some .reflex
  else if a ≤ 0x051FFFFF then some .mcLocal
  else if a ≤ 0x05FFFFFF then some .shared
  else if 0x10000000 ≤ a ∧ a ≤ 0x10015FFF then some .setup
  else if 0x11000000 ≤ a ∧ a ≤ 0x1100FFFF then some .cart
  else if 0x1000000000 ≤ a ∧ a ≤ 0x13FFFFFFFF then some .dram
  else none

/-- The number of a memory region in the MEM registers (R391). -/
def Region.num : Region → Nat
  | .bankA => 0 | .bankB => 1 | .instance_ => 2 | .drupelet => 3 | .reflex => 4 | .mcLocal => 5 | .shared => 6
  | .dram => 7 | .setup => 8 | .cart => 9

def isSram (a : Nat) : Bool := decide (a ≤ 0x05FFFFFF)
def isDram (a : Nat) : Bool := decide (0x1000000000 ≤ a ∧ a ≤ 0x13FFFFFFFF)

def Mem.byte (m : Mem) (a : Nat) : Byte := sget (fun _ => 0) m.bytes a

/-- `n` bytes from an address. -/
def Mem.bytesAt (m : Mem) (a n : Nat) : List Byte := (List.range n).map (fun i => m.byte (a + i))

/-- The little-endian number of `n` bytes at an address. -/
def Mem.rd (m : Mem) (a n : Nat) : Nat := leNat (m.bytesAt a n)

/-- Whether words count as written one by one: DRAM always, on-chip SRAM until the boot clearing (R381, R382). -/
def Mem.tracks (m : Mem) (w : Nat) : Bool := isDram (w * 8) || (isSram (w * 8) && !m.cleared)

/-- Whether a word (by number) is uncorrectable: poisoned, on-chip SRAM that nothing has written since the core rails rose,
or DRAM that nothing has written under the present key (R381, R384). A DRAM word never written holds an arbitrary pattern,
which is taken as uncorrectable [6]. -/
def Mem.bad (m : Mem) (w : Nat) : Bool := m.poison.has w || (m.tracks w && !m.written.has w)

/-- Whether any word of a span is uncorrectable. -/
def Mem.badSpan (m : Mem) (a n : Nat) : Bool :=
  (List.range ((a + n + 7) / 8 - a / 8)).any (fun i => m.bad (a / 8 + i))

def Mem.setByte (m : Mem) (a : Nat) (b : Byte) : Mem := { m with bytes := sset (fun _ => 0) m.bytes a b }

/-- Bytes put at an address whatever the state of their words. -/
def Mem.putBytes (m : Mem) (a : Nat) : List Byte → Mem
  | [] => m
  | b :: r => Mem.putBytes (m.setByte a b) (a + 1) r

/-- A word written whole is good again (R381, R384). -/
def Mem.heal (m : Mem) (w : Nat) : Mem :=
  { m with poison := m.poison.del w, written := if m.tracks w then m.written.add w else m.written }

/-- A write inside one 8-byte word: a whole word is written and heals; a part of an uncorrectable word is lost and the
word stays poisoned (R384). -/
def Mem.writeIn (m : Mem) (a : Nat) (bs : List Byte) : Mem :=
  if a % 8 = 0 ∧ bs.length = 8 then (m.putBytes a bs).heal (a / 8)
  else if m.bad (a / 8) then { m with poison := m.poison.add (a / 8) }
  else m.putBytes a bs

/-- Bytes written from an address, word by word; `n` bounds the number of words. -/
def Mem.writeWords (m : Mem) : Nat → Nat → List Byte → Mem
  | 0, _, _ => m
  | _, _, [] => m
  | n + 1, a, bs =>
    let k := 8 - a % 8
    Mem.writeWords (m.writeIn a (bs.take k)) n (a + k) (bs.drop k)

/-- Bytes written from an address. -/
def Mem.write (m : Mem) (a : Nat) (bs : List Byte) : Mem := m.writeWords (bs.length / 8 + 2) a bs

/-- Bytes of an engine that gathers whole words before it writes them: every word touched is good. -/
def Mem.fill (m : Mem) (a : Nat) (bs : List Byte) : Mem :=
  ((List.range ((a + bs.length + 7) / 8 - a / 8)).map (a / 8 + ·)).foldl Mem.heal (m.putBytes a bs)

def State.wrMem (s : State) (a : Nat) (bs : List Byte) : State := { s with mem := s.mem.write a bs }

/-- A number of `n` bytes written little-endian. -/
def State.wrLe (s : State) (a n v : Nat) : State := s.wrMem a (leBytes n v)

/-! Time (R57, R356, R358). -/

/-- Scan time: TB1 plus the offset the module keeps (R57). -/
def State.scanTime (s : State) : W64 := s.time.tb1 + s.scan.timeOffset

/-- TB2, ring time (R357): 0 until the freeze of F-cycle 0. -/
def State.tb2 (s : State) : W64 :=
  match s.time.tb2From with
  | some o => s.scanTime - o
  | none => 0

/-- First-second traffic (R461): whether a message on a port (keyed by number) is within the limit of its 100 ms
interval, or of the whole second where `whole` is set; the message is counted. -/
def State.rateOk (s : State) (key limit : Nat) (whole : Bool) : State × Bool :=
  if !s.fbit F.pwrStatus_firstSec then (s, true)
  else
    let w := if whole then 0 else (s.time.tb1 - s.power.t0).toNat / 100000000
    let used := ((s.power.rates.find? (fun e => e.1 == key && e.2.1 == w)).map (·.2.2)).getD 0
    if used ≥ limit then (s, false)
    else ({ s with power := { s.power with rates := (key, w, used + 1) :: s.power.rates.filter (fun e => e.1 ≠ key) } }, true)

/-- TB0 in nanoseconds since the PTP epoch, modulo 2^64 (R408). -/
def State.tb0ns (s : State) : W64 := s.time.tb0s * 1000000000 + BitVec.ofNat 64 s.time.tb0n

/-! Records (R407-R411). -/

/-- A kind of record: category, number of the happening (for the open code table [3]), block, severity where a rule
states one, privileged. -/
structure Hap where
  cat : Nat
  num : Nat
  block : Nat
  sev : Option Nat := none
  priv : Bool := false
  deriving DecidableEq, Repr

/-- The code of a record: the recorder's own codes stand in R410, the others in the firmware's table (R409). -/
def Hap.code (h : Hap) : W16 :=
  if h.cat = 0 then BitVec.ofNat 16 h.num else BitVec.ofNat 4 h.cat ++ Config.recCode (h.cat * 256 + h.num)

def Hap.severity (h : Hap) : BitVec 2 :=
  match h.sev with
  | some v => BitVec.ofNat 2 v
  | none => Config.recSev (h.cat * 256 + h.num)

/-- The record of a happening, stamped when it is raised (R408). -/
def State.mkRecord (s : State) (h : Hap) (unit : Nat) (ps : List W64) : Record :=
  { code := h.code, sev := h.severity, priv := h.priv
    unsure := !h.priv && s.fget F.timeStatus_tb0State != 2
    time := if h.priv then BitVec.ofNat 64 (s.time.tb3 * 65536 + s.time.pcc) else s.tb0ns
    block := h.block, unit := unit, slotB := s.fbit F.pairStatus_slot, params := ps, clock := s.time.tb1 }

/-- A source raises a record: it waits to be accepted in the order raised (R411). -/
def State.raise (s : State) (h : Hap) (unit : Nat) (ps : List W64) : State :=
  { s with recd := { s.recd with raised := s.recd.raised ++ [s.mkRecord h unit ps] } }

/-! What the observation port sees (R444-R452). -/

/-- Each counter whose code names the event counts it, modulo 2^32 (R448). -/
def State.obsCountBy (s : State) (code k : Nat) : State :=
  if code = 0 then s
  else (s.regs.filter (fun (e : Nat × W32) => R.obsCntkSel 0 ≤ e.1 && e.1 ≤ R.obsCntkSel 255 && e.2.toNat == code)).foldl
    (fun s e => s.wr (e.1 - R.obsCntkSel 0 + R.obsCntk 0) (s.rd (e.1 - R.obsCntkSel 0 + R.obsCntk 0) + BitVec.ofNat 32 k)) s

def State.obsCount (s : State) (code : Nat) : State := s.obsCountBy code 1

/-- Whether a source is selected (R446). -/
def State.obsOn (s : State) (src : Nat) : Bool :=
  match s.obs.sel with | some v => bitN v.src src | none => false

/-- The stream of a record, from 0x10, and its place in the collector. No rule gives the size of a counter or a burst
record: 8 bytes each counter, 16 bytes before the data of a burst. -/
def obsStream : ObsRec → Nat
  | .chain .. => 0 | .step .. => 1 | .reflex .. => 2 | .counters .. => 3 | .burst .. => 4
def obsSize : ObsRec → Nat
  | .chain .. => 32 | .step .. => 24 | .reflex .. => 24 | .counters vs => 8 * vs.length | .burst _ _ d => 16 + d.length

def State.obsRoom (s : State) (n : Nat) : Bool := decide (s.obs.coll.foldl (fun k r => k + obsSize r) 0 + n ≤ 2 ^ 20)

/-- A record joins the collector; a full collector drops it and counts it (R447). -/
def State.obsCollect (s : State) (r : ObsRec) : State :=
  if s.obsRoom (obsSize r) then { s with obs := { s.obs with coll := s.obs.coll ++ [r] } }
  else { s with obs := { s.obs with drops := vmod s.obs.drops (obsStream r) (· + 1) } }.bump R.obsDrop

/-- A reflex-trace record (R447). -/
def State.obsPass (s : State) (frame : W64) (event aborted : Bool) (q m : W32) : State :=
  let s := s.obsCount (if aborted then 0x0302 else 0x0300)
  let s := if event then s.obsCount 0x0301 else s
  if s.obsOn 1 then s.obsCollect (.reflex frame event aborted q m (s.rd R.rfxSlots)) else s

/-! Error events (R51-R53). -/

/-- Whether an error task is bound to an event code (R51). -/
def State.bound (s : State) (code : Nat) : Bool := s.conf.tasks.any (fun t => t.codes.contains code)

/-- `ESOURCE`: the `SOURCE` of an event record (R407, R504). -/
def State.source (s : State) (block unit : Nat) : W32 :=
  BitVec.ofNat 32 (block + unit % 256 * 256 + bit (s.fbit F.pairStatus_slot) * 65536)

def unboundEvent : Hap := ⟨2, 1, 1, none, false⟩

/-- An entry joins a waiting entry of the same code and source, is queued, or is refused by a full queue (R52). -/
def State.queueEvent (s : State) (code : Nat) (src : W32) (ps : List W64) : State :=
  let now := s.scanTime
  if s.scan.evq.any (fun e => e.code == code && e.source == src) then
    { s with scan := { s.scan with evq := s.scan.evq.map (fun e =>
        if e.code = code ∧ e.source = src then { e with count := e.count + 1, last := now, params := ps } else e) } }
  else if s.scan.evq.length < 256 then
    let q := s.scan.evq ++ [{ code := code, source := src, count := 1, first := now, last := now, params := ps }]
    ({ s with scan := { s.scan with evq := q } }.wr R.scanEvqDepth (BitVec.ofNat 32 q.length)).fsetb
      F.scanStatus_evqFull (q.length == 256)
  else
    { s with scan := { s.scan with evqLost := s.scan.evqLost + 1 } }.bump R.scanEvqOvf

/-- A block raises an error event: it is queued while the scan is not stopped and a task is bound to it, and recorded
otherwise (R51, R52, R64). -/
def State.event (s : State) (code block unit : Nat) (ps : List W64) : State :=
  if s.mod ≠ .stopped ∧ s.bound code then s.queueEvent code (s.source block unit) ps
  else s.raise unboundEvent unit (BitVec.ofNat 64 code :: ps)

def State.ok (s : State) : Res := .next s

/-- An event whose conditions do not hold does not happen: nothing changes [11]. -/
def State.when (s : State) (c : Bool) (t : State) : Res := .next (if c then t else s)

end Sys2Proof.Machine
end

