-- ==== Sys2Proof/Machine/Access.lean ====
section
/-!
DEFINITION. The gate every access passes: the decision of the CAT (R372-R379), and the way of a master's write to a
setup register (R7, R20, R35, R378).
-/

namespace Sys2Proof.Machine

/-! The CAT. -/

/-- Master classes in `MASK` bit order (R372). -/
def clsBrm : Nat := 0
def clsRfx : Nat := 1
def clsMc : Nat := 2
def clsDma : Nat := 3
def clsDrawbar : Nat := 4
def clsDray : Nat := 5
def clsHost : Nat := 6
def clsObs : Nat := 7

/-- The right an access needs, coded as `CAT_FAULT_INFO.KIND`. -/
inductive AccKind where
  | read | write | fetch
  deriving DecidableEq, Repr

def accCode : AccKind → Nat
  | .read => 0 | .write => 1 | .fetch => 2

/-- The words by which entry `e` decides accesses: the effective ones, or the words written where the entry takes effect early [12].
Where the two agree nothing is open. -/
def State.catWords (s : State) (e : Nat) : List (Nat × W32) :=
  if s.cat.committed = s.cat.eff then s.cat.eff else if Config.catEarly e then s.cat.committed else s.cat.eff
def State.catAddr (s : State) (e : Nat) : Nat := (sget regReset (s.catWords e) (R.catEnteAddr e)).toNat
def State.catAttr (s : State) (e : Nat) : Nat := (sget regReset (s.catWords e) (R.catEnteAttr e)).toNat

def State.catCovers (s : State) (page e : Nat) : Bool :=
  let a := s.catAttr e
  fldN a 22 8 ≠ 0 && fldN (s.catAddr e) 0 28 ≤ page && page ≤ fldN (s.catAddr e) 0 28 + fldN a 0 22

def State.catServes (s : State) (cls e : Nat) : Bool := bitN (s.catAttr e) (22 + cls)
def State.catLocked (s : State) (e : Nat) : Bool := bitN (s.catAttr e) 30

def State.catGrants (s : State) (k : AccKind) (e : Nat) : Bool :=
  bitN (s.catAddr e) (match k with | .read => 28 | .write => 29 | .fetch => 30)

/-- The decision (R373): none allows; otherwise the cause, 1 no entry, 2 right missing, 3 unmapped. -/
def State.catDecide (s : State) (cls : Nat) (k : AccKind) (a : Nat) : Option Nat :=
  if regionOf a = none then some 3
  else
    let page := a / 4096
    let cover := (List.range 128).filter (s.catCovers page)
    let locked := cover.filter s.catLocked
    let pool := if locked = [] then cover else locked
    match pool.find? (s.catServes cls) with
    | none => some 1
    | some e => if s.catGrants k e then none else some 2

def hapCatRefusal : Hap := ⟨12, 1, 15, none, false⟩

/-- CAT_REFUSAL: counted by class, latched when the latch is armed, recorded at most once per class and operating second
with the count since the last record (R379). -/
def State.catRefuse (s : State) (cls master : Nat) (k : AccKind) (a cause : Nat) : State :=
  let s := s.bump (R.catClmFaults cls)
  let s := if s.fbit F.catStatus_fault then s else
    let s := s.wr64 R.catFaultLo (BitVec.ofNat 64 a)
    (s.wr R.catFaultInfo (BitVec.ofNat 32 (cls + master * 8 + accCode k * 256 + cause * 1024 + 4096))).fset F.catStatus_fault 1
  let n := vget s.cat.since cls + 1
  if vget s.cat.lastRec cls = some s.time.tb3 then
    { s with cat := { s.cat with since := vset s.cat.since cls n } }
  else
    ({ s with cat := { s.cat with since := vset s.cat.since cls 0, lastRec := vset s.cat.lastRec cls (some s.time.tb3) } }).raise
      hapCatRefusal cls [BitVec.ofNat 64 a, BitVec.ofNat 64 n]

/-- One access decided: the state (a refusal counted) and whether it is allowed. -/
def State.catAccess (s : State) (cls master : Nat) (k : AccKind) (a : Nat) : State × Bool :=
  match s.catDecide cls k a with
  | none => (s, true)
  | some c => (s.catRefuse cls master k a c, false)

/-! Masters of the setup window (R7, R480). -/

/-- The class of a master of the setup window; its number within the class, as `CAT_FAULT_INFO.MASTER` gives it (R390);
its latch of upper halves: 0 MC, 1 and 2 the host ports (R471). -/
def masterCls : Master → Nat
  | .mc => clsMc | .host0 => clsHost | .host1 => clsHost
def masterNum : Master → Nat
  | .mc => 0 | .host0 => 0 | .host1 => 1
def masterLatch : Master → Nat
  | .mc => 0 | .host0 => 1 | .host1 => 2

def hapMcAbandon : Hap := ⟨12, 5, 0, none, false⟩

/-- MC abandons the operation in which an access of its own is refused, and records it (R378). -/
def State.mcAbandon (s : State) (a : Nat) : State := s.raise hapMcAbandon 0 [BitVec.ofNat 64 a]

/-- Whether a master acts at all: the chip is out of reset (R20), and MC itself runs (R35, R36). -/
def State.masterRuns (s : State) (m : Master) : Bool := s.power.chip && (m != .mc || s.fbit F.sysStatus_mcRun)

/-- Before the configuration is applied, in the first second, BAR0 reaches the HOST block alone (R461). -/
def State.barShut (s : State) (m : Master) (off : Nat) : Bool :=
  m != .mc && s.fbit F.pwrStatus_firstSec && !s.fbit F.pwrStatus_cfgDone && off / 0x1000 != 11

/-- One access of a master to the setup window, decided by the CAT (R7, R378): a refusal is counted, and MC records it; one that
`barShut` refuses counts in the CAT, as without an entry, and in `HOST_IGNORED` (R461) [134]. -/
def State.setupAccess (s : State) (m : Master) (k : AccKind) (off : Nat) : State × Bool :=
  let a := 0x10000000 + off
  if s.barShut m off then ((s.catRefuse (masterCls m) (masterNum m) k a ((s.catDecide (masterCls m) k a).getD 1)).ignoredIn 11, false)
  else
    let c := s.catAccess (masterCls m) (masterNum m) k a
    if c.2 || m != .mc then c else (c.1.mcAbandon a, false)

/-- The accesses of a class to a span of memory, page by page, each decided by the CAT (R7, R374), up to the first that is
refused. -/
def State.spanAccess (s : State) (cls : Nat) (k : AccKind) (a n : Nat) : State × Bool :=
  let pages := (List.range ((a + n + 4095) / 4096 - a / 4096)).map (fun i => max a ((a / 4096 + i) * 4096))
  pages.foldl (fun (x : State × Bool) p => if !x.2 then x else x.1.catAccess cls 0 k p) (s, true)

/-- The same for MC, which abandons its operation at an access that is refused, and records it (R378). -/
def State.mcAccess (s : State) (k : AccKind) (a n : Nat) : State × Bool :=
  let x := s.spanAccess clsMc k a n
  (if x.2 then x.1 else x.1.mcAbandon a, x.2)

/-- The accesses of MC to several spans. -/
def State.mcSpans (s : State) (k : AccKind) (spans : List (Nat × Nat)) : State × Bool :=
  spans.foldl (fun (x : State × Bool) e => if !x.2 then x else x.1.mcAccess k e.1 e.2) (s, true)

/-- A write of a master to the register at `off`, whose effect is `f`: a write that the CAT refuses changes nothing. -/
def State.asWrite (s : State) (m : Master) (off : Nat) (f : State → State) : Res :=
  if !s.masterRuns m then .next s
  else
    let c := s.setupAccess m .write off
    .next (if c.2 then f c.1 else c.1)

end Sys2Proof.Machine
end

