-- ==== Sys2Proof/Machine/Crypto.lean ====
section
/-!
DEFINITION. The digest and the signature that R169 names: SHA-256 and SHA-512 as FIPS 180-4 defines them, the verification of
an Ed25519 signature as RFC 8032 does.
-/

namespace Sys2Proof.Machine

/-- A number of bytes read as a big-endian number. -/
def beNat (bs : List Byte) : Nat := bs.foldl (fun a b => a * 256 + b.toNat) 0
/-- A number in `n` bytes, the most significant first. -/
def beBytes (n v : Nat) : List Byte := (leBytes n v).reverse

/-! FIPS 180-4. -/

/-- The largest number whose `k`-th power is at most `n`, its bits below `b` found from the top. -/
def rootBits (k n : Nat) : Nat → Nat → Nat
  | 0, r => r
  | b + 1, r => rootBits k n b (if (r + 2 ^ b) ^ k ≤ n then r + 2 ^ b else r)

/-- The first `w` bits of the fraction of the `k`-th root of `p`. -/
def fracRoot (k w p : Nat) : Nat := rootBits k (p * 2 ^ (w * k)) (w + 6) 0 % 2 ^ w

def isPrimeN (n : Nat) : Bool := decide (2 ≤ n) && (List.range n).all (fun d => decide (d < 2) || n % d != 0)
/-- The first eighty primes. -/
def primes80 : List Nat := (List.range 410).filter isPrimeN

/-- The functions of SHA-256 and of SHA-512: word width, rounds, the rotations of the sums, the rotations and the shift of the
schedule (FIPS 180-4, 4.1). -/
structure Sha where
  w : Nat
  rounds : Nat
  sum0 : Nat × Nat × Nat
  sum1 : Nat × Nat × Nat
  sig0 : Nat × Nat × Nat
  sig1 : Nat × Nat × Nat
  deriving DecidableEq, Repr

def sha2w32 : Sha := ⟨32, 64, (2, 13, 22), (6, 11, 25), (7, 18, 3), (17, 19, 10)⟩
def sha2w64 : Sha := ⟨64, 80, (28, 34, 39), (14, 18, 41), (1, 8, 7), (19, 61, 6)⟩

def Sha.sum (p : Sha) (r : Nat × Nat × Nat) (x : BitVec p.w) : BitVec p.w :=
  x.rotateRight r.1 ^^^ x.rotateRight r.2.1 ^^^ x.rotateRight r.2.2
def Sha.sig (p : Sha) (r : Nat × Nat × Nat) (x : BitVec p.w) : BitVec p.w :=
  x.rotateRight r.1 ^^^ x.rotateRight r.2.1 ^^^ (x >>> r.2.2)

/-- The constants of the rounds, and the initial hash value (FIPS 180-4, 4.2 and 5.3). -/
def Sha.consts (p : Sha) : List (BitVec p.w) := (primes80.take p.rounds).map (fun q => BitVec.ofNat p.w (fracRoot 3 p.w q))
def Sha.init (p : Sha) : List (BitVec p.w) := (primes80.take 8).map (fun q => BitVec.ofNat p.w (fracRoot 2 p.w q))

/-- The message schedule, latest word first (FIPS 180-4, 6.2.2 step 1). -/
def Sha.schedule (p : Sha) : Nat → List (BitVec p.w) → List (BitVec p.w)
  | 0, ws => ws
  | n + 1, ws =>
    Sha.schedule p n ((p.sig p.sig1 (ws.getD 1 0) + ws.getD 6 0 + p.sig p.sig0 (ws.getD 14 0) + ws.getD 15 0) :: ws)

/-- One round on the eight working variables, with its constant and schedule word. -/
def Sha.round (p : Sha) (v : List (BitVec p.w)) (kw : BitVec p.w × BitVec p.w) : List (BitVec p.w) :=
  let g (i : Nat) : BitVec p.w := v.getD i 0
  let ch := (g 4 &&& g 5) ^^^ (~~~(g 4) &&& g 6)
  let maj := (g 0 &&& g 1) ^^^ (g 0 &&& g 2) ^^^ (g 1 &&& g 2)
  let t1 := g 7 + p.sum p.sum1 (g 4) + ch + kw.1 + kw.2
  let t2 := p.sum p.sum0 (g 0) + maj
  [t1 + t2, g 0, g 1, g 2, g 3 + t1, g 4, g 5, g 6]

/-- The blocks of a padded message, `n` of them, taken into the hash value. -/
def Sha.blocks (p : Sha) (ks : List (BitVec p.w)) : Nat → List Byte → List (BitVec p.w) → List (BitVec p.w)
  | 0, _, h => h
  | n + 1, m, h =>
    let k := p.w / 8
    let ws := (List.range 16).map (fun i => BitVec.ofNat p.w (beNat ((m.drop (k * i)).take k)))
    let sched := (p.schedule (p.rounds - 16) ws.reverse).reverse
    Sha.blocks p ks n (m.drop (16 * k)) ((h.zip ((ks.zip sched).foldl p.round h)).map (fun e => e.1 + e.2))

/-- The padding of a message of `n` bytes (FIPS 180-4, 5.1). -/
def Sha.padding (p : Sha) (n : Nat) : List Byte :=
  let blk := 2 * p.w
  let len := p.w / 4
  (0x80 : Byte) :: List.replicate ((2 * blk - 1 - len - n % blk) % blk) 0 ++ beBytes len (8 * n)

/-- The hash value of a message, in bytes. -/
def Sha.hash (p : Sha) (m : List Byte) : List Byte :=
  let m := m ++ p.padding m.length
  (p.blocks p.consts (m.length / (2 * p.w)) m p.init).flatMap (fun x => beBytes (p.w / 8) x.toNat)

/-- SHA-256 of a message. -/
def sha256 (m : List Byte) : BitVec 256 := BitVec.ofNat 256 (beNat (sha2w32.hash m))
/-- SHA-512 of a message, in bytes. -/
def sha512 (m : List Byte) : List Byte := sha2w64.hash m

/-! RFC 8032, 5.1. -/

def edP : Nat := 2 ^ 255 - 19
def edL : Nat := 2 ^ 252 + 27742317777372353535851937790883648493

/-- `b` to the power of the low `n` bits of `e`, modulo the field prime. -/
def edPow (b e : Nat) : Nat → Nat
  | 0 => 1
  | n + 1 => let r := edPow (b * b % edP) (e / 2) n; if e % 2 = 1 then r * b % edP else r

def edInv (x : Nat) : Nat := edPow x (edP - 2) 255
def edD : Nat := (edP - 121665) * edInv 121666 % edP
def edSub (x y : Nat) : Nat := (x + edP - y) % edP

/-- A point in extended homogeneous coordinates (RFC 8032, 5.1.4). -/
structure EdPoint where
  x : Nat := 0
  y : Nat := 1
  z : Nat := 1
  t : Nat := 0
  deriving DecidableEq, Repr

def EdPoint.add (p q : EdPoint) : EdPoint :=
  let a := edSub p.y p.x * edSub q.y q.x % edP
  let b := (p.y + p.x) * (q.y + q.x) % edP
  let c := p.t * 2 % edP * edD % edP * q.t % edP
  let d := p.z * 2 * q.z % edP
  let e := edSub b a
  let f := edSub d c
  let g := (d + c) % edP
  let h := (b + a) % edP
  { x := e * f % edP, y := g * h % edP, z := f * g % edP, t := e * h % edP }

/-- The low `n` bits of `k` times a point. -/
def EdPoint.mul (p : EdPoint) (k : Nat) : Nat → EdPoint
  | 0 => {}
  | n + 1 => let r := EdPoint.mul (p.add p) (k / 2) n; if k % 2 = 1 then r.add p else r

/-- Whether two points are equal. -/
def EdPoint.same (p q : EdPoint) : Bool :=
  p.x * q.z % edP == q.x * p.z % edP && p.y * q.z % edP == q.y * p.z % edP

/-- The point with a `y` coordinate and the low bit of its `x` coordinate (RFC 8032, 5.1.3). -/
def edPoint (y sign : Nat) : Option EdPoint :=
  let u := edSub (y * y % edP) 1
  let v := (edD * (y * y % edP) + 1) % edP
  let v3 := v * v % edP * v % edP
  let r := u * v3 % edP * edPow (u * (v3 * v3 % edP * v % edP) % edP) ((edP - 5) / 8) 255 % edP
  let vxx := v * (r * r % edP) % edP
  let root : Option Nat :=
    if vxx = u then some r
    else if vxx = edSub 0 u then some (r * edPow 2 ((edP - 1) / 4) 255 % edP)
    else none
  match root with
  | none => none
  | some x =>
    if edP ≤ y ∨ (x = 0 ∧ sign = 1) then none
    else
      let x := if x % 2 = sign then x else edP - x
      some { x := x, y := y, z := 1, t := x * y % edP }

/-- The point that 32 bytes encode. -/
def edDecode (bs : List Byte) : Option EdPoint := edPoint (leNat bs % 2 ^ 255) (leNat bs / 2 ^ 255)

/-- The base point: y is 4/5, x is even. -/
def edBase : EdPoint := (edPoint (4 * edInv 5 % edP) 0).getD {}

/-- Verification of a signature of 64 bytes on a message under a public key of 32 bytes (RFC 8032, 5.1.7). -/
def ed25519 (key msg sig : List Byte) : Bool :=
  let s := leNat (sig.drop 32)
  match edDecode key, edDecode (sig.take 32) with
  | some a, some r =>
    let k := leNat (sha512 (sig.take 32 ++ key ++ msg)) % edL
    decide (s < edL) && ((edBase.mul s 256).mul 8 4).same ((r.add (a.mul k 256)).mul 8 4)
  | _, _ => false

end Sys2Proof.Machine
end

