-- ==== Sys2Proof/Machine/Bank.lean ====
section
/-!
DEFINITION. What the module reads from a code bank: the header (R122, R168), the chain table (R73), the symbol table
(R170) and the exchange table (R168), and the places of the image windows (R120, R503).
-/

namespace Sys2Proof.Machine

/-- Whether bank B is active (R167, R191). -/
def State.bankB (s : State) : Bool := s.fbit F.olcStatus_activeBank

/-- The base of the active bank, and of the inactive one (R27, R167). -/
def State.bank (s : State) : Nat := if s.bankB then 0x01000000 else 0
def State.idle (s : State) : Nat := if s.bankB then 0 else 0x01000000

/-- A 32-bit word of a bank at an offset. -/
def State.bw (s : State) (base off : Nat) : Nat := s.mem.rd (base + off) 4

/-! The header (R122, R168). -/
def State.hBankLen (s : State) (b : Nat) : Nat := s.bw b 0x008
def State.hPkgId (s : State) (b : Nat) : W64 := BitVec.ofNat 64 (s.mem.rd (b + 0x010) 8)
def State.hPkgVer (s : State) (b : Nat) : Nat := s.bw b 0x018
def State.hPatched (s : State) (b : Nat) : Bool := s.bw b 0x00C % 2 == 1
def State.hChainTab (s : State) (b : Nat) : Nat := s.bw b 0x040
def State.hChainCnt (s : State) (b : Nat) : Nat := min (s.bw b 0x044) 16384
def State.hExcEntry (s : State) (b : Nat) : Nat := s.bw b 0x048
def State.hOutTab (s : State) (b : Nat) : Nat := s.bw b 0x04C
def State.hSymTab (s : State) (b : Nat) : Nat := s.bw b 0x050
def State.hSymCnt (s : State) (b : Nat) : Nat := s.bw b 0x054
def State.hConvTab (s : State) (b : Nat) : Nat := s.bw b 0x058
def State.hConvCnt (s : State) (b : Nat) : Nat := s.bw b 0x05C
def State.hInitOff (s : State) (b : Nat) : Nat := s.bw b 0x060
def State.hRfxImg (s : State) (b : Nat) : Nat := s.bw b 0x068
def State.hRfxCov (s : State) (b : Nat) : Nat := s.bw b 0x06C
def State.hPatchTab (s : State) (b : Nat) : Nat := s.bw b 0x078
def State.hPatchCnt (s : State) (b : Nat) : Nat := s.bw b 0x07C
def State.hXchTab (s : State) (b : Nat) : Nat := s.bw b 0x09C
def State.hXchCnt (s : State) (b : Nat) : Nat := s.bw b 0x0A0

/-- The descriptor at position `j` of the chain table (R73). -/
def State.chainAt (s : State) (b j : Nat) : ChainDesc :=
  let a := b + s.hChainTab b + 32 * j
  { chain := s.mem.rd a 2, cls := Cls.ofCode (s.mem.rd (a + 2) 1), nPred := s.mem.rd (a + 3) 1
    entry := s.mem.rd (a + 4) 4, instOff := s.mem.rd (a + 8) 4, instLen := s.mem.rd (a + 12) 4
    wcet := s.mem.rd (a + 16) 4, nSucc := s.mem.rd (a + 20) 2, succOff := s.mem.rd (a + 24) 4
    predOff := s.mem.rd (a + 28) 4 }

/-- The chain table of a bank. -/
def State.chains (s : State) (b : Nat) : List ChainDesc := (List.range (s.hChainCnt b)).map (s.chainAt b)

/-- The descriptor of a chain of the active bank. -/
def State.chain (s : State) (i : Nat) : Option ChainDesc := (s.chains s.bank).find? (·.chain == i)

/-- A list of `n` chain indices at an offset of a bank (R73). -/
def State.idxList (s : State) (b off n : Nat) : List Nat := (List.range n).map (fun k => s.mem.rd (b + off + 2 * k) 2)

def State.succs (s : State) (d : ChainDesc) : List Nat := s.idxList s.bank d.succOff d.nSucc
def State.preds (s : State) (d : ChainDesc) : List Nat := s.idxList s.bank d.predOff d.nPred

/-- The output run of a chain: offset in the output half and length (R122). -/
def State.outRun (s : State) (i : Nat) : Nat × Nat :=
  let a := s.bank + s.hOutTab s.bank + 8 * i
  (s.mem.rd a 4, s.mem.rd (a + 4) 4)

/-- A symbol (R170). -/
structure Sym where
  id : W64
  typeId : Nat
  off : Nat
  size : Nat
  kind : Nat
  cls : Cls
  flags : Nat
  init : Nat
  deriving DecidableEq, Repr

def State.symAt (s : State) (b j : Nat) : Sym :=
  let a := b + s.hSymTab b + 32 * j
  { id := BitVec.ofNat 64 (s.mem.rd a 8), typeId := s.mem.rd (a + 8) 4, off := s.mem.rd (a + 12) 4
    size := s.mem.rd (a + 16) 4, kind := s.mem.rd (a + 20) 1, cls := Cls.ofCode (s.mem.rd (a + 21) 1)
    flags := s.mem.rd (a + 22) 2, init := s.mem.rd (a + 24) 4 }

def State.syms (s : State) (b : Nat) : List Sym := (List.range (s.hSymCnt b)).map (s.symAt b)

def State.sym (s : State) (b : Nat) (id : W64) : Option Sym := (s.syms b).find? (·.id == id)

def Sym.writable (y : Sym) : Bool := bitN y.flags 0
def Sym.forceable (y : Sym) : Bool := bitN y.flags 1
def Sym.patchable (y : Sym) : Bool := bitN y.flags 2
def Sym.reinit (y : Sym) : Bool := bitN y.flags 3
def Sym.firstEdge (y : Sym) : Bool := bitN y.flags 4

/-! Image windows (R120, R503). -/

/-- The base of the image window of a class in the shared buffer; class E uses the window of F. -/
def State.winBase (s : State) (c : Cls) : Nat :=
  0x05200000 + (match c with | .e => s.conf.winF | .f => s.conf.winF | .n => s.conf.winN | .s => s.conf.winS)

/-- The output half of a class window. -/
def State.outBase (s : State) (c : Cls) : Nat := s.winBase c + 0x80000

/-- Where a symbol stands in memory (R170). -/
def State.symAddr (s : State) (b : Nat) (y : Sym) : Nat :=
  match y.kind with
  | 0 => 0x02000000 + y.off
  | 1 => s.winBase y.cls + y.off
  | 2 => s.outBase y.cls + y.off
  | _ => b + y.off

/-- The `INIT` bytes of a symbol (R170). -/
def State.symInit (s : State) (b : Nat) (y : Sym) : List Byte := s.mem.bytesAt (b + s.hInitOff b + y.init) y.size

/-- The bank digest: the first 128 bits of the SHA-256 of the bank with `SIG` as zeros (R169). -/
def State.bankSha (s : State) (b : Nat) : BitVec 256 :=
  let n := s.hBankLen b
  sha256 (s.mem.bytesAt b (min n 0xC0) ++ List.replicate (min n 0x100 - 0xC0) 0 ++ s.mem.bytesAt (b + 0x100) (n - 0x100))

def State.bankDigest (s : State) (b : Nat) : BitVec 128 := (s.bankSha b).extractLsb' 128 128

/-! The tracked memory of the copy map (R204): the instance store and the three class windows. -/

/-- Whether an address lies in tracked memory. -/
def State.tracked (s : State) (a : Nat) : Bool :=
  (0x02000000 ≤ a && a ≤ 0x03FFFFFF) ||
    [Cls.f, .n, .s].any (fun c => s.winBase c ≤ a && a < s.winBase c + 0x100000)

/-- Marks the 256-byte blocks of a span dirty; a block in flight that is written again stays dirty (R204, R205). -/
def State.markDirty (s : State) (a n : Nat) : State :=
  let bs := (List.range ((a + n + 255) / 256 - a / 256)).map (a / 256 + ·)
  { s with pair := { s.pair with
      dirty := bs.foldl (fun d b => if s.tracked (b * 256) then NSet.add d b else d) s.pair.dirty
      inFlight := bs.foldl NSet.del s.pair.inFlight } }

end Sys2Proof.Machine
end

