-- ==== Sys2Proof/Machine/IslandOps.lean ====
section
/-!
DEFINITION. What the field island drives and shows (R228-R260): the configuration it holds copies of, input validity,
the level of each output by Table: What drives an output, the codes of the loop paths, and the registers of the DIO and
AO blocks that its status frames keep current.
-/

namespace Sys2Proof.Machine

/-- A field of the configuration the island holds copies of (R248). -/
def State.iget (s : State) (f : Field) : Nat := fldN (sget regReset s.island.cfg f.off).toNat f.lo f.width

def State.ibit (s : State) (off n : Nat) : Bool := bitN (sget regReset s.island.cfg off).toNat n

/-- Registers whose active values the island holds copies of: the DIO and AO groups and the reflex binding plan. -/
def islandReg (off : Nat) : Bool :=
  (off / 0x1000 == 6 || off / 0x1000 == 7) || (R.rfxOutBind ≤ off && off ≤ R.rfxSafe)

/-- The island takes its copies from the active values of one block's registers (R248, R262). -/
def State.islandLoad (s : State) (block : Nat) : State :=
  { s with island := { s.island with
      cfg := scopy regReset (fun o => islandReg o && o / 0x1000 == block) s.act s.island.cfg } }

def State.isOut (s : State) (n : Nat) : Bool := s.ibit R.dioDir n
def State.isRfx (s : State) (n : Nat) : Bool := s.isOut n && s.ibit R.rfxOutBind n
def State.dch (s : State) (n : Nat) : DChan := vget s.island.ch n
def State.lch (s : State) (n : Nat) : LChan := vget s.island.lp n

def State.setDch (s : State) (n : Nat) (f : DChan → DChan) : State :=
  { s with island := { s.island with ch := vmod s.island.ch n f } }
def State.setLch (s : State) (n : Nat) (f : LChan → LChan) : State :=
  { s with island := { s.island with lp := vmod s.island.lp n f } }

/-- The channel whose commands and status a channel follows: the even one of a pair (R240). -/
def State.lead (s : State) (n : Nat) : Nat := if s.ibit R.dioPaired (n / 2) then n / 2 * 2 else n

/-- A readback fault of a channel; a pair's stands in its even channel, whichever half has it (R240). -/
def State.rbFaultOf (s : State) (n : Nat) : Bool :=
  (s.dch n).rbFault || (s.ibit R.dioPaired (n / 2) && n % 2 == 0 && (s.dch (n + 1)).rbFault)

/-- Current limit of a channel; a pair's stands in its even channel (R240). -/
def State.ilimOf (s : State) (n : Nat) : Bool :=
  (s.dch n).ilim || (s.ibit R.dioPaired (n / 2) && n % 2 == 0 && (s.dch (n + 1)).ilim)

/-- One tick of the counter filter with threshold `t`: the counter and the filtered state after one sample (R235). With a
threshold of 0 the state is the sample. -/
def filterTick (t : Nat) (x : Nat × Bool) (high : Bool) : Nat × Bool :=
  let c := if high then min (x.1 + 1) t else x.1 - 1
  (c, if t = 0 then high else if c = 0 then false else if c = t then true else x.2)

/-- The filter threshold in effect: with pulsed sampling 0 acts as 1 (R235). -/
def State.filtT (s : State) (n : Nat) : Nat :=
  if s.iget (F.dioChnCfg_sample n) = 1 then max (s.iget (F.dioChnCfg_filt n)) 1 else s.iget (F.dioChnCfg_filt n)

/-- An input is valid (R238). -/
def State.inValid (s : State) (n : Nat) : Bool :=
  !s.isOut n && s.island.on && !s.island.off && !(s.dch n).chkFault && !s.island.silent

def maskOf (p : Nat → Bool) : W32 :=
  BitVec.ofNat 32 ((List.range 32).foldl (fun m n => m + bit (p n) * 2 ^ n) 0)

/-- `DI_STATE` and `DI_VALID` (R230): also the reflex I space and `DIO_IN_STATE` (R236). -/
def State.diState (s : State) : W32 := maskOf (fun n => s.inValid n && (s.dch n).input)
def State.diValid (s : State) : W32 := maskOf s.inValid

/-! Digital outputs. -/

/-- The safe value of a digital output (R248). -/
def State.safeD (s : State) (n : Nat) : Bool := if s.isRfx n then s.ibit R.rfxSafe n else s.ibit R.dioSafe n

/-- The vote on one reflex-bound output (R144): two out of three, an empty slot fed the reflex safe value. -/
def State.vote (s : State) (n : Nat) : Bool :=
  let v (k : Nat) : Bool := match vget s.island.q k with | some q => q.getLsbD n | none => s.ibit R.rfxSafe n
  (v 0 && v 1) || (v 0 && v 2) || (v 1 && v 2)

/-- The mirror of the reflex-bound channels follows the own vote while the island link is in fault (R196). -/
def State.mirrorVote (s : State) : State :=
  { s with island := { s.island with
      mirror := maskOf (fun n => if s.isRfx n then s.vote n else s.island.mirror.getLsbD n) } }

/-- The level a digital output would take when nothing holds it (R198, R250): the last three rows of the table. -/
def State.commandD (s : State) (n : Nat) : Bool :=
  if s.isRfx n then (if s.island.rfxStop then s.safeD n else s.vote n)
  else if s.island.useMirror then s.island.mirror.getLsbD n
  else if s.island.mst = .stopped then s.safeD n
  else s.island.cmd.dig.getLsbD n

/-- The rows of Table: What drives an output from `Module in BOOT or CONFIG` on, digital columns (R250). -/
def State.wantD (s : State) (n : Nat) : Option Bool :=
  let k := s.lead n
  if s.island.mst = .boot ∨ s.island.mst = .config ∨ s.island.mst = .off then none
  else match (s.dch k).hold with
    | some v => v
    | none => some (s.commandD k)

/-- Table: What drives an output, digital columns (R250); none: off or undriven. -/
def State.driveD (s : State) (n : Nat) : Option Bool :=
  if !s.token || !s.island.on || s.island.off || (s.dch (s.lead n)).latched || !s.isOut n then none else s.wantD n

/-! Loop outputs: currents in nA. -/

/-- The low and the high alarm level (R258, `LO_ALM`, `HI_ALM`). -/
def State.alarm (s : State) (n : Nat) (high : Bool) : Nat :=
  if high then 21000000 + 50000 * s.iget (F.aoChnCfg_hiAlm n) else 3600000 - 50000 * s.iget (F.aoChnCfg_loAlm n)

def State.alarmDir (s : State) (n : Nat) : Nat := s.alarm n (s.iget (F.aoChnCfg_almDir n) == 1)

/-- The safe current of a loop output (R258). -/
def State.safeL (s : State) (n : Nat) : Nat :=
  if s.iget (F.aoChnCfg_safeKind n) = 1 then s.alarmDir n else fldN (sget regReset s.island.cfg (R.aoChnSafe n)).toNat 0 32

/-- The current that an `AO_CMD` word asks for (R231): kind, and the clamp at 22 mA. -/
def State.aoCurrent (s : State) (n : Nat) (w : W32) : Nat :=
  match fldN w.toNat 25 2 with
  | 0 => min (fldN w.toNat 0 25) 22000000
  | 1 => s.alarm n false
  | 2 => s.alarm n true
  | _ => s.alarmDir n

/-- `CLAMP`: the last command was above 22 mA (R231). -/
def aoClamp (w : W32) : Bool := fldN w.toNat 25 2 == 0 && decide (fldN w.toNat 0 25 > 22000000)

/-- The rows of Table: What drives an output from `Module in BOOT or CONFIG` on, loop column (R250). -/
def State.wantL (s : State) (n : Nat) : Nat :=
  if s.island.mst = .boot ∨ s.island.mst = .config ∨ s.island.mst = .off then 0
  else match (s.lch n).hold with
    | some v => v
    | none =>
      if s.island.useMirror then vget s.island.mirrorL n
      else if s.island.mst = .stopped then s.safeL n
      else s.aoCurrent n (vget s.island.cmd.loops n)

/-- The part of a linear ramp of 50 µs that has passed, in ns (R198). -/
def State.rampDone (s : State) : Nat := min 50000 (s.time.tb1 - s.bogie.rampAt).toNat

/-- Table: What drives an output, loop column (R250), and the loop ramp of a transfer (R198): the outgoing island drives on until
the partner's `TOKEN` rises and then ramps to 0 mA, the incoming one ramps from 0 mA. -/
def State.driveL (s : State) (n : Nat) : Nat :=
  if !s.island.on || s.island.off then 0
  else if s.iget (F.aoChnCfg_en n) = 0 ∨ (s.lch n).rbFault then 0
  else match s.bogie.ramp with
    | .driving => vget s.bogie.rampFrom n
    | .down => vget s.bogie.rampFrom n * (50000 - s.rampDone) / 50000
    | .up => if s.token then s.wantL n * s.rampDone / 50000 else 0
    | .steady => if s.token then s.wantL n else 0

/-- A quotient rounded to nearest, ties to even; `b` is positive. -/
def roundDiv (a b : Int) : Int :=
  let q := a / b
  let r := a % b
  if 2 * r < b then q else if b < 2 * r then q + 1 else if q % 2 = 0 then q else q + 1

/-- The code of the main path for a current in nA (R253). -/
def mainCode (trimLo trimHi : BitVec 16) (nA : Nat) : Nat :=
  let lo : Int := 43691 + trimLo.toInt
  let hi : Int := 218453 + trimHi.toInt
  let c := roundDiv (lo * 16000000 + ((nA : Int) - 4000000) * (hi - lo)) 16000000
  (max 0 (min c 262143)).toNat

/-- The code of the fallback path: interpolation in the table of 17 points, 1.5 mA apart (R254). -/
def fallbackCode (table : List Nat) (nA : Nat) : Nat :=
  let k := min (nA / 1500000) 15
  let a : Int := (table.getD k 0 : Nat)
  let b : Int := (table.getD (k + 1) 0 : Nat)
  (roundDiv (a * 1500000 + (b - a) * ((nA : Int) - 1500000 * k)) 1500000).toNat

/-- The code the driver of a loop output takes, by the path in use. -/
def State.loopCode (s : State) (n : Nat) : Nat :=
  if (s.lch n).fallback then fallbackCode (s.lch n).table (s.driveL n)
  else mainCode ((s.rd (R.aoChnTrimLo n)).setWidth 16) ((s.rd (R.aoChnTrimHi n)).setWidth 16) (s.driveL n)

/-! Holds. -/

/-- Every hold and safe value is lifted (R249). -/
def State.liftHolds (s : State) : State :=
  { s with island := { s.island with
      holding := false, expired := false
      ch := s.island.ch.map (fun (c : DChan) => { c with hold := none })
      lp := s.island.lp.map (fun (c : LChan) => { c with hold := none }) } }

/-- Holds are lifted from the outputs that a scan command concerns, or that a vote concerns (R251). -/
def State.liftScan (s : State) : State :=
  let s := (List.range 32).foldl (fun s n => if s.isRfx n then s else s.setDch n (fun c => { c with hold := none })) s
  (List.range 8).foldl (fun s n => s.setLch n (fun c => { c with hold := none })) s

def State.liftVote (s : State) : State :=
  (List.range 32).foldl (fun s n => if s.isRfx n then s.setDch n (fun c => { c with hold := none }) else s) s

/-- The hold of a silent logic side begins on the island that holds the token (R249): every output keeps what it is to drive, and
the hold timer starts. -/
def State.startHold (s : State) : State :=
  { s with island := { s.island with
      holding := true, expired := false
      ch := Vector.ofFn (fun (i : Fin 32) => { s.dch i.val with hold := some (s.wantD i.val) })
      lp := Vector.ofFn (fun (i : Fin 8) => { s.lch i.val with hold := some (s.wantL i.val) }) } }.fset
    F.dioStatus_holdSeen 1

/-- Whether an output still keeps a held or safe value. -/
def State.anyHold (s : State) : Bool :=
  (List.range 32).any (fun n => (s.dch n).hold.isSome) || (List.range 8).any (fun n => (s.lch n).hold.isSome)

/-- The safe value kept on every output (R249), or on the scan-owned outputs and the loops. -/
def State.holdSafe (s : State) (all : Bool) : State :=
  let s := (List.range 32).foldl (fun s n =>
    if s.isOut n && (all || !s.isRfx n) then s.setDch n (fun c => { c with hold := some (some (s.safeD n)) }) else s) s
  (List.range 8).foldl (fun s n => s.setLch n (fun c => { c with hold := some (s.safeL n) })) s

/-! The registers the island's status keeps current. -/

def State.showCh (s : State) (n : Nat) : State :=
  let c := s.dch n
  let k := s.dch (s.lead n)
  let f := fun (b : Bool) i => bit b * 2 ^ i
  s.wr (R.dioChnStatus n) (BitVec.ofNat 32
    (f (s.inValid n && c.input) 0 + f (s.inValid n) 1 + f c.term 2 + f k.latched 3 + f (s.rbFaultOf n) 4
      + f c.chkFault 5 + f (s.ilimOf n) 6 + f (s.isRfx n) 7 + c.count % 4096 * 256))

/-- Whether a loop output is driven from a hold or a safe value, as in STOPPED (R250, `HELD`). -/
def State.loopHeld (s : State) (n : Nat) : Bool :=
  s.token && ((s.lch n).hold.isSome || (s.island.mst == .stopped && !s.island.useMirror))

def State.showLp (s : State) (n : Nat) : State :=
  let c := s.lch n
  let f := fun (b : Bool) i => bit b * 2 ^ i
  let s := s.wr (R.aoChnStatus n) (BitVec.ofNat 32
    (f c.fallback 0 + f c.compliance 1 + f c.openLoop 2 + f c.rbFault 3 + f c.calLimit 4
      + f (aoClamp (vget s.island.cmd.loops n)) 5 + f (s.bogie.ramp == .down || s.bogie.ramp == .up) 6 + f (s.loopHeld n) 7))
  (s.wr (R.aoChnCmd n) (BitVec.ofNat 32 (s.driveL n))).wr (R.aoChnReadback n) (BitVec.ofNat 32 (c.readback % 2 ^ 25))

/-- `AO_STATUS`: one bit per channel of each kind. -/
def State.aoSummary (s : State) : W32 :=
  let m := fun (p : LChan → Bool) (i : Nat) => (List.range 8).foldl (fun a n => a + bit (p (s.lch n)) * 2 ^ (n + i)) 0
  BitVec.ofNat 32 (m (·.fallback) 0 + m (·.compliance) 8 + m (·.rbFault) 16 + m (·.calLimit) 24)

/-- The registers of the DIO and AO blocks follow the island (R228), while the chip runs. -/
def State.showIsland (s : State) : State :=
  if !s.power.chip then s else
  let i := s.island
  let s := (List.range 32).foldl State.showCh s
  let s := (List.range 8).foldl State.showLp s
  let s := (s.wr R.dioInState s.diState).wr R.dioInValid s.diValid
  let s := (s.wr R.dioOutRb (maskOf (fun n => s.isOut n && (s.dch n).term))).wr R.dioLatched
    (maskOf (fun n => s.isOut n && (s.dch (s.lead n)).latched))
  let s := (((s.fsetb F.dioStatus_lWarn i.warn).fsetb F.dioStatus_lOff i.off).fsetb F.dioStatus_lRecover i.recovering).fsetb
    F.dioStatus_islPresent i.on
  let s := (s.fsetb F.dioStatus_holding i.holding).fsetb F.dioStatus_holdSafe (i.expired && (i.silent || s.anyHold))
  let s := ((s.fsetb F.dioStatus_latchedAny ((List.range 32).any (fun n => (s.dch n).latched))).fsetb
    F.dioStatus_rbFaultAny ((List.range 32).any (fun n => (s.dch n).rbFault))).fsetb
    F.dioStatus_chkFaultAny ((List.range 32).any (fun n => (s.dch n).chkFault))
  s.wr R.aoStatus s.aoSummary

/-! Background clients (R396, R399, R406). -/

/-- A windfall client yields to foreground work (R406, `WF_CLc_PREEMPT`). -/
def State.wfYield (s : State) (c : Nat) : State := s.bump (R.wfClcPreempt c)

/-- A run of a windfall client completes: its time, its lap in ms, its runs; its late bit clears. -/
def State.wfDone (s : State) (c lap : Nat) : State :=
  let s := (s.wr (R.wfClcLast c) (BitVec.ofNat 32 s.time.tb3)).wr (R.wfClcLap c) (BitVec.ofNat 32 lap)
  (s.bump (R.wfClcRuns c)).fset ⟨R.wfLate, c, 1⟩ 0

end Sys2Proof.Machine
end

