-- ==== Sys2Proof/Machine/PairOps.lean ====
section
/-!
DEFINITION. The operations of the redundant pair that many commands share: the drive token and the primacy latch
(R194-R199), roles (R212, R219, R223), the forced zero of the health score and the triggers it pulls (R213-R215), and
the watchdog-trip actions (R63).
-/

namespace Sys2Proof.Machine

/-- The slot of this module, and the other slot (R194). -/
def State.slot (s : State) : Slot := if s.fbit F.pairStatus_slot then .b else .a
def State.other (s : State) : Slot := if s.fbit F.pairStatus_slot then .a else .b

def hapRole : Hap := ⟨1, 1, 5, none, true⟩
def hapPartnerLost : Hap := ⟨1, 2, 5, none, false⟩
def hapClaimRefused : Hap := ⟨1, 3, 5, none, false⟩
def hapTrip : Hap := ⟨2, 2, 1, none, false⟩

/-- Whether the Drawbar carries traffic (R201). -/
def State.dbCarries (s : State) : Bool := s.bogie.lanes != 0 && !s.bogie.retrain

/-- The partner is told with a message of priority 1, 4 or 5: it is sent while the link carries traffic, and kept until
acknowledged (R202). -/
def State.send (s : State) (o : Out) : State :=
  let m : DrawbarMsg := { id := s.pair.msgCount, body := o }
  let s := { s with pair := { s.pair with msgs := s.pair.msgs ++ [m], msgCount := s.pair.msgCount + 1 } }
  if s.dbCarries then s.emit o else s

/-- Drawbar traffic that is not repeated (R202). -/
def State.sendOnce (s : State) (o : Out) : State :=
  if s.dbCarries then s.emit o else s

/-- The audits under way end, and what is kept for audits to come is dropped. -/
def State.stopAudit (s : State) : State :=
  { s with brm := { s.brm with
      audits := [], snaps := []
      be := s.brm.be.map (fun (d : Drupelet) => match d.win with
        | some w => if w.rep.any (fun (r : Replica) => r.kind == RepKind.audit) then { d with win := none, yieldReq := false } else d
        | none => d) } }.fset F.brmStatus_auditRun 0

/-- The module enters a state; a change of role is a privileged record (R212, R408). The audit starts anew in the state entered
(R98). In ALONE the AOS shows a failed MC on the front display (R36). -/
def State.enter (s : State) (m : ModState) : State :=
  if s.mod = m then s
  else
    let s := (s.stopAudit.setMod m).raise hapRole 0 [BitVec.ofNat 64 (modCode m)]
    if m = .alone ∧ s.fbit F.sysStatus_mcFailed then s.emit (.display (Config.pageText 18 [])) else s

/-- Whether transmission on the CAN ports is permitted (R314), after a takeover not before its preparation has ended (R324). R63 and R317 have safe frames and the buffers of owner MC
go on after a watchdog trip: the token holder's STOPPED counts with PRIMARY and ALONE [14]. -/
def State.canPermitted (s : State) : Bool :=
  s.token && (s.mod == .primary || s.mod == .alone || s.mod == .service || s.mod == .stopped) && s.power.can && !s.pair.takeover

/-- The queue of a port is discarded (R324). -/
def State.canDiscard (s : State) (n : Nat) : State :=
  { s with can := { s.can with port := vmod s.can.port n (fun (p : CanPort) =>
      { p with bufs := p.bufs.map (fun (b : CanBuf) => { b with queued := false }) }) } }

/-- What may be on a port's bus when transmission ceases to be permitted: a frame of a buffer that waits (R312). -/
def State.canLeave (s : State) (n : Nat) : State :=
  { s with can := { s.can with port := vmod s.can.port n (fun (p : CanPort) =>
      { p with leaving := if s.canPermitted then [] else (List.range 64).filter (fun i => (vget p.bufs i).queued) }) } }

/-- A port moves between RESTRICTED and ACTIVE as transmission is permitted (R312, R314). -/
def State.canPermitPort (s : State) (n : Nat) : State :=
  let f := F.canChnStatus_pstate n
  let was := s.fbit ⟨R.canStatus, n, 1⟩
  let s := if was != s.canPermitted then s.canLeave n else s
  let s := if was && !s.token then s.canDiscard n else s
  let s := s.fsetb ⟨R.canStatus, n, 1⟩ s.canPermitted
  if s.fget f = 2 ∧ s.canPermitted then s.fset f 3
  else if s.fget f = 3 ∧ ¬ s.canPermitted then s.fset f 2
  else s

/-- CAN_PERMIT_CHANGE, inside the steps that change what R314 names. -/
def State.canPermit (s : State) : State := [0, 1, 2, 3].foldl State.canPermitPort s

def State.setReady (s : State) (b : Bool) : State := s.fsetb F.pairStatus_ready b

/-- What the DMA channels show of a plan that waits for them: `PLAN_WAIT`, and each channel without a command waits (R344, R354). -/
def State.dmaWait (s : State) : State :=
  let w := (s.rd R.sysApplyPend).getLsbD 12
  (List.range 16).foldl (fun (s : State) ch =>
    if s.fget (F.dmaChnStatus_state ch) = 0 ∨ s.fget (F.dmaChnStatus_state ch) = 3 then
      s.fset (F.dmaChnStatus_state ch) (if w then 3 else 0)
    else s) (s.fset ⟨R.dmaStatus, 16, 1⟩ (bit w))

/-- A module without the token executes no command and moves no data for one (R199, R335): what it had taken is the incoming
module's to complete or to take again (R342). -/
def State.dropCmds (s : State) : State :=
  let s := (List.range 16).foldl (fun (s : State) ch => (s.fset (F.dmaChnStatus_state ch) 0).fset ⟨R.dmaStatus, ch, 1⟩ 0) s
  { s.dmaWait with host := { s.host with cmds := [] }, dma := {}, dray := { s.dray with bulk := [] } }

/-- The outgoing module's `TOKEN` drops: its island stops driving digital outputs and every hold ends (R249); in a transfer its
loops are driven on as they were (R198); the module is no longer ring master (R288). -/
def State.tokenDrop (s : State) (transfer : Bool) : State :=
  let loops := Vector.ofFn (fun (i : Fin 8) => s.driveL i.val)
  let s := ((s.dropCmds.fsetb F.pairStatus_token false).fset F.ringStatus_master 0).fsetb F.ringStatus_passive s.power.ringJoined
  ({ s.liftHolds with bogie := { s.bogie with ramp := if transfer then .driving else .steady, rampFrom := loops } }).showIsland

/-- The latch moves from this module's slot to the partner's, or to none (R197): the partner's `TOKEN` rises 1.0 µs
after (R198). -/
def State.latchAway (s : State) (toPartner : Bool) : State :=
  let s := (s.tokenDrop toPartner).fsetb F.pairStatus_claim false
  { s with bogie := { s.bogie with
      holder := if toPartner then some s.other else none
      rising := if toPartner then some s.other else none } }

/-- `TOKEN` rises: an island whose logic side is silent begins its hold (R249). -/
def State.tokenUp (s : State) : State :=
  let s := s.fsetb F.pairStatus_token true
  if s.island.on && s.island.silent && !s.island.off then s.startHold else s

/-- The latch grants this module's slot: `TOKEN` at once from none, 1.0 µs after the drop in a transfer (R197, R198). -/
def State.latchHere (s : State) (transfer : Bool) : State :=
  if transfer then { s with bogie := { s.bogie with holder := some s.slot, rising := some s.slot } }
  else ({ s with bogie := { s.bogie with holder := some s.slot } }.tokenUp).canPermit

def hapPkg : Hap := ⟨5, 1, 4, none, false⟩

/-- A package that is ARMED returns to CHECKED (R173): cancel, switch-over, watchdog trip. -/
def State.olcCancel (s : State) : State :=
  if s.fget F.olcStatus_pkgState = 5 then
    ((s.fset F.olcStatus_pkgState 3).wr R.olcRefuse 0x24).raise hapPkg 0 [0x24]
  else s

/-- A carry-over that a switch-over cuts off on the outgoing module is undone (R186). -/
def State.olcCut (s : State) : State :=
  match s.olc.carry with
  | some c =>
    let s := { s with
      mem := c.saved.foldl (fun (m : Mem) (e : Nat × List Byte) => m.putBytes e.1 e.2) s.mem
      olc := { s.olc with carry := none } }
    ((s.fset F.olcStatus_pkgState 3).wr R.olcRefuse 0x24).raise hapPkg 0 [0x24]
  | none => s.olcCancel

/-- Records the switch-over in `PAIR_LAST_SW` and counts it (R225): trigger, kind 1 for a takeover, incoming. -/
def State.logSwitch (s : State) (trigger kind : Nat) (incoming : Bool) : State :=
  let s := (if incoming then s.olcCancel else s.olcCut).bump R.pairSwitches
  let s := ((s.fset F.pairLastSw_trigger trigger).fset F.pairLastSw_kind kind).fsetb F.pairLastSw_incoming incoming
  let s := s.wr64 R.pairSwCycleLo (s.rd64 R.scanCycleLo)
  { s with pair := { s.pair with lastSwitch := some s.time.tb3 } }

/-- The causes of a forced zero, numbered as `FCAUSE` (R214, R225). -/
def causeMcReset : Nat := 1
def causeMcFailed : Nat := 2
def causeBramble : Nat := 3
def causeReflexMajority : Nat := 4
def causeCarryFault : Nat := 5
def causeRfxStop : Nat := 6
/-- `TOKEN` lost without a release: forced until synchronised (R212). It has no code of its own in `FCAUSE` (0b000). -/
def causeTokenLost : Nat := 7

/-- The score forced to 0, or free again, as the causes that hold say (R214). -/
def State.showForced (s : State) : State :=
  match s.pair.forced with
  | [] => (s.fset F.pairHealth_forced 0).fset F.pairHealth_fcause 0
  | (c, _) :: _ =>
    ((s.fset F.pairHealth_forced 1).fset F.pairHealth_fcause (if c = causeTokenLost then 0 else c)).fset F.pairHealth_own 0

/-- The scan stops on this module: open windows are discarded, ready work dropped, no step of a cycle is in progress
(R63, R212, R219). -/
def State.haltScan (s : State) : State :=
  { s with
    brm := { s.brm with
      be := s.brm.be.map (fun (d : Drupelet) => { d with win := none, yieldReq := false, deques := Vector.replicate 4 [] })
      overflow := Vector.replicate 4 [], restarts := [], yielded := [], waiting := [], openChains := [], etasks := []
      audits := [], snaps := [] }
    scan := { s.scan with
      step := .idle, taken := []
      cls := s.scan.cls.map (fun (c : ClassRun) => { c with running := false, frozen := false, released := false, complete := false, due := false }) } : State }.fset
    F.brmStatus_auditRun 0

/-- Whether a STANDBY may assert `READY` (R194, R200, R212, R214, R464, R484): the score is not forced to 0, the lever is
closed, MC has not failed, no restart and no shutdown is under way. -/
def State.mayReady (s : State) : Bool :=
  s.pair.forced == [] && !s.fbit F.pairStatus_lever && !s.fbit F.sysStatus_mcFailed
    && !s.fbit F.sysStatus_restartPend && !s.fbit F.pwrStatus_pfWarn

/-- The progress of a resynchronisation starts at nothing (R222). -/
def State.syncReset (s : State) : State :=
  let s := s.wr R.pairSync 0
  { s.fset F.pairStatus_synced 0 with pair := { s.pair with staged := [], asked := [], copied := false, lapSeen := 0, taken := none } }

/-- The module enters SYNCING: no `READY`, no `CLAIM`, its work discarded, the full copy requested of the partner (R212,
R221). -/
def State.toSyncing (s : State) : State :=
  let s := ((s.setReady false).fsetb F.pairStatus_claim false).haltScan.enter .syncing
  let s := (s.syncReset.fset F.pairSync_phase 1).canPermit
  let s := { s with scan := { s.scan with startReq := false }, pair := { s.pair with startReq223 := false, handoverIn := false } }
  s.send .resyncRequest

/-- What the front display shows of a module's removal: page 16 it may be removed, 17 do not remove [16]. -/
def State.showRemoval (s : State) (may : Bool) : State := s.emit (.display (Config.pageText (if may then 16 else 17) []))

/-- A hand-over that was asked for ends. -/
def State.handoverEnd (s : State) : State :=
  { s with pair := { s.pair with handover := none, handoverSent := false, handoverAcked := false, released := none } }.fsetb
    F.pairStatus_handover false

/-- A PRIMARY has lost its `TOKEN` without a release at a boundary (R212, R219): its score is forced to 0 until it is synchronised,
and it enters SYNCING. -/
def State.tokenLost (s : State) (trigger : Nat) : State :=
  let s := (s.haltScan.logSwitch trigger 1 false).handoverEnd
  { s with pair := { s.pair with forced := s.pair.forced.add causeTokenLost } }.showForced.toSyncing

/-- What a module does whose own `TOKEN` has just dropped (R212, R219, R220): STANDBY after a hand-over at its boundary,
SYNCING after an immediate release (7) or a loss without a release; STOPPED stays. A module whose lever is open shows that it
may be removed (R200). -/
def State.afterDrop (s : State) : State :=
  match s.mod with
  | .primary =>
    match s.pair.released with
    | some trigger =>
      if trigger = 7 then s.tokenLost 7
      else
        -- a module whose MC failed its self-test leaves the pair (R36, R212): no READY, no heartbeat
        let s := ((s.haltScan.logSwitch trigger 0 false).enter .standby).handoverEnd
        let s := if s.mayReady then s.setReady true else s
        if s.fbit F.pairStatus_lever then s.showRemoval true else s
    | none => s.tokenLost (if s.bogie.rfxSilent then 2 else 1)
  | .stopped =>
    let trigger := s.pair.released.getD (if s.bogie.rfxSilent then 2 else 1)
    let s := s.logSwitch trigger (bit (trigger == 1 || trigger == 2 || trigger == 7)) false
    let s := { s with pair := { s.pair with released := none } }
    if s.fbit F.pairStatus_lever then s.showRemoval true else s
  | _ => s

/-- This module drops `CLAIM`; when it holds the token the latch transfers it to a partner that asserts `READY` or
`CLAIM`, or leaves it with none (R197). -/
def State.dropClaim (s : State) (trigger : Nat) : State :=
  let s := s.fsetb F.pairStatus_claim false
  if s.bogie.holder = some s.slot then
    let s := { s with pair := { s.pair with released := some trigger } }
    ((s.latchAway (s.bogie.pReady || s.bogie.pClaim)).afterDrop).canPermit
  else s

/-- A hand-over is asked for, with its trigger code (R215); in STOPPED the token holder drops `CLAIM` at once (R220). -/
def State.startHandover (s : State) (trigger : Nat) : State :=
  match s.mod with
  | .primary =>
    if s.bogie.pReady then
      ({ s with pair := { s.pair with handover := some trigger } }).fsetb F.pairStatus_handover true
    else s
  | .stopped => if s.token && s.bogie.pReady then s.dropClaim trigger else s
  | _ => s

/-- A forced 0 that holds pulls its trigger in a PRIMARY whose partner asserts `READY` (R36, R214, R215, R220): an immediate
release where the scan cannot complete its cycle, a hand-over where it can; in STOPPED the token holder drops `CLAIM` at once.
Without such a partner it waits for one. -/
def State.pullForced (s : State) : State :=
  let holds (c : Nat) : Bool := s.pair.forced.has c
  if s.mod = .primary ∧ s.bogie.pReady then
    if holds causeBramble || holds causeReflexMajority || holds causeCarryFault then s.dropClaim 7
    else if (holds causeMcReset || holds causeMcFailed || holds causeRfxStop) && s.pair.handover.isNone then s.startHandover 6
    else s
  else if s.mod = .stopped ∧ s.token ∧ s.bogie.pReady ∧ s.pair.forced ≠ [] then s.dropClaim 6
  else s

/-- A forced 0 (R214): the score at once, and its trigger; a module without the token drops `READY`. -/
def State.forceZero (s : State) (cause : Nat) : State :=
  let s := ({ s with pair := { s.pair with forced := s.pair.forced.add cause } }).showForced
  (if s.mod = .standby ∨ (s.mod = .stopped ∧ !(s.token && s.bogie.pReady)) then s.setReady false else s).pullForced

/-- A cause of a forced zero has ended. -/
def State.unforce (s : State) (cause : Nat) : State :=
  let s := ({ s with pair := { s.pair with forced := s.pair.forced.del cause } }).showForced
  if s.mod = .standby ∧ s.mayReady then s.setReady true else s

/-- A message of the Drawbar's priorities 1, 4 and 5: one that has been acted on before is only acknowledged again (R202);
before `CFG_DONE` it is dropped and counted (R461). -/
def State.onceOnly (s : State) (id : Nat) (t : State) : Res :=
  if !s.up then .next s
  else if !s.fbit F.pwrStatus_cfgDone then .next (s.ignoredIn 5)
  else if s.pair.seen.contains id then .next (s.sendOnce (.drawbarAck id))
  else .next ({ t with pair := { t.pair with seen := id :: t.pair.seen } }.sendOnce (.drawbarAck id))

end Sys2Proof.Machine
end

