-- ==== Sys2Proof/Machine/Acq.lean ====
section
/-!
DEFINITION. Disturbance acquisition (R265-R284): sampling, threshold events, the capture ring, rate reduction, the trigger
sequencer, calibration, and the records of a capture.
-/

namespace Sys2Proof.Machine

def ringSize : Nat := 0x200000000

/-- Decimation factors by `DEC` code, and the backlog level of each step (R272). -/
def decOf : Nat → Nat
  | 0 => 1 | 1 => 2 | 2 => 4 | 3 => 8 | 4 => 16 | _ => 64
def decLevel : Nat → Nat
  | 0 => 0 | 1 => ringSize / 16 * 8 | 2 => ringSize / 16 * 10 | 3 => ringSize / 16 * 12
  | 4 => ringSize / 16 * 14 | _ => ringSize / 16 * 15

def State.acqOn (s : State) : Bool := s.fbit F.acqStatus_enabled

/-- The sequencer's state; 16: IDLE. -/
def State.seqState (s : State) : Nat := (s.rd R.acqSeqState).toNat % 32
def State.setSeq (s : State) (t : Nat) : State :=
  { s.wr R.acqSeqState (BitVec.ofNat 32 t) with acq := { s.acq with dwell := 0, stepped := true } }

/-- The enabled channels, and the bytes of one sample set (R269). -/
def chList (mask : Nat) : List Nat := (List.range 16).filter (bitN mask)
def setBytes (mask : Nat) : Nat := 2 * (chList mask).length
def State.chmask (s : State) : Nat := s.aget F.acqCfg_chmask
def State.ringBase (s : State) : Nat := 0x1000000000 + s.aget F.acqCfg_ringGb * 0x40000000

/-! The ring and its protection (R269-R271). -/

/-- The open capture. -/
def State.openCap (s : State) : Option Capture := s.acq.captures.find? (fun c => !c.ended)

def State.modOpen (s : State) (f : Capture → Capture) : State :=
  { s with acq := { s.acq with captures := s.acq.captures.map (fun (c : Capture) => if c.ended then c else f c) } }

/-- A marker put among others, which stand in sample order (R281). -/
def putMark (m : Marker) : List Marker → List Marker
  | [] => [m]
  | x :: r => if x.idx ≤ m.idx then x :: putMark m r else m :: x :: r

def markerOf (idx : Nat) (body : List Byte) : Marker := { idx := idx, body := body ++ List.replicate (24 - body.length) 0 }

/-- A marker goes into every open capture. -/
def State.mark (s : State) (idx : Nat) (body : List Byte) : State :=
  s.modOpen (fun c => { c with marks := putMark (markerOf idx body) c.marks })

/-- The backlog: protected bytes not yet released (R271). -/
def State.backlog (s : State) : Nat :=
  (s.acq.captures.foldl (fun (acc : Nat × Nat) (c : Capture) =>
    let e := if c.ended then c.endPos else s.acq.wpos
    let b := max c.start acc.2
    (acc.1 + (e - b), max e acc.2)) (0, 0)).1

def State.showBacklog (s : State) : State := s.wr R.acqBacklog (BitVec.ofNat 32 (s.backlog / 0x100000))

/-- The end of what a capture protects, in bytes written. -/
def State.capEnd (s : State) (c : Capture) : Nat := if c.ended then c.endPos else s.acq.wpos

/-- Whether a capture protects a byte of DRAM: the latest byte of its ring that stands there lies in its span (R270). -/
def State.protects (s : State) (c : Capture) (a : Nat) : Bool :=
  let e := s.capEnd c
  let off := a - c.base
  decide (c.base ≤ a ∧ off < ringSize ∧ c.start < e) && decide (c.start + ((e - 1 + ringSize - off) % ringSize) < e)

/-- The place of a sample index in a history. -/
def posIn (segs : List Seg) (size idx : Nat) : Nat :=
  match (segs.filter (fun g => g.first ≤ idx)).getLast? with
  | some g => g.pos + (idx - g.first) / g.dec * size
  | none => 0

/-- One sample set written at the write position with wrap, or lost when it would overwrite protected data. -/
def State.writeSet (s : State) (first : Nat) (vals : List (BitVec 16)) : State :=
  let d := decOf s.acq.dec
  let n := 2 * vals.length
  let blocked := s.acq.captures.any (fun (c : Capture) =>
    (List.range n).any (fun i => s.protects c (s.ringBase + (s.acq.wpos + i) % ringSize)))
  if blocked then
    ({ s with acq := { s.acq with gap := s.acq.gap + d } }.bumpBy R.acqLost d).fset F.acqStatus_full 1
  else
    let p := s.acq.wpos % ringSize
    let bytes := vals.flatMap (fun (v : BitVec 16) => leBytes 2 v.toNat)
    let k := ringSize - p
    let s1 := { s with mem := (s.mem.fill (s.ringBase + p) (bytes.take k)).fill s.ringBase (bytes.drop k) }
    let seg : Seg := { first := first, pos := s.acq.wpos, dec := d }
    let cont := match s.acq.segs.getLast? with
      | some g => g.dec == d && g.pos + (first - g.first) / d * n == s.acq.wpos
      | none => false
    let s2 := if cont then s1 else
      { s1 with acq := { s1.acq with
          segs := s1.acq.segs ++ [seg]
          captures := s1.acq.captures.map (fun (c : Capture) => if c.ended then c else { c with segs := c.segs ++ [seg] }) } }
    let g := s.acq.gap
    let s3 := if g = 0 then s2
      else ((s2.mark first (leBytes 2 2 ++ leBytes 6 0 ++ leBytes 8 g)).modOpen (fun c => { c with lost := c.lost + g })).fset
        F.acqStatus_full 0
    ({ s3 with acq := { s3.acq with wpos := s3.acq.wpos + n, gap := 0 } }).showBacklog

/-! Triggers and captures (R270, R276, R282). -/

/-- The body of a capture's header record (R282). -/
def State.capHeader (s : State) (idx state : Nat) : List Byte :=
  leBytes 8 idx ++ leBytes 8 s.time.tb0s.toNat ++ leBytes 4 s.time.tb0n ++ leBytes 2 (fldN (s.rd R.timeUtc).toNat 0 16)
    ++ leBytes 1 (bit (s.fbit F.pairStatus_slot)) ++ leBytes 1 (modCode s.mod) ++ leBytes 8 s.time.tb1.toNat
    ++ leBytes 4 (s.actv R.acqPre).toNat ++ leBytes 4 (s.actv R.acqPost).toNat ++ leBytes 4 (s.rd R.acqPlanGen).toNat
    ++ leBytes 1 state ++ leBytes 3 0

/-- The set that holds a sample: its first full-rate index (R282). -/
def setOf (segs : List Seg) (idx : Nat) : Nat :=
  match (segs.filter (fun g => g.first ≤ idx)).getLast? with
  | some g => g.first + (idx - g.first) / g.dec * g.dec
  | none => idx

/-- A trigger sample opens a capture; the history before it may be shorter than `PRE`. Injection windows that lie in its span are marked
in it (R280). -/
def State.openCapture (s : State) (idx state : Nat) : State :=
  let size := setBytes s.chmask
  let floorPos := s.acq.wpos - ringSize
  let oldest := match s.acq.segs.find? (fun g => floorPos ≤ g.pos) with
    | some g => g.first
    | none => idx
  let held := match s.acq.segs.filter (fun g => g.pos < floorPos) |>.getLast? with
    | some g => g.first + (floorPos - g.pos + size - 1) / max size 1 * g.dec
    | none => oldest
  let want := idx - (s.actv R.acqPre).toNat
  let short := decide (idx < (s.actv R.acqPre).toNat) || decide (want < min held oldest)
  let first := if short then min held oldest else want
  let stop0 := idx + (s.actv R.acqPost).toNat
  let limit := first + (s.actv R.acqMaxlen).toNat
  let c : Capture := {
    num := (s.rd R.acqCaptures).toNat, first := first
    stop := min stop0 limit, trunc := decide (limit < stop0), start := posIn s.acq.segs size first
    base := s.ringBase, chmask := s.chmask, header := s.capHeader idx state, segs := s.acq.segs, shortPre := short
    ovr := s.acq.ovr != 0, cur := setOf s.acq.segs first
    marks := (s.acq.windows.filter (fun w => decide (first < w.1 + w.2))).map (fun w =>
      markerOf w.1 (leBytes 2 3 ++ leBytes 6 0 ++ leBytes 8 w.2)) }
  (({ s with acq := { s.acq with captures := s.acq.captures ++ [c] } }.bump R.acqCaptures).fset F.acqStatus_capturing 1).showBacklog

/-- TRIGGER (R276): opens a capture, or is counted and marked in the open one, whose end it may move. -/
def State.trigger (s : State) (idx state : Nat) : State :=
  match s.openCap with
  | none => s.openCapture idx state
  | some _ =>
    let ext := s.aget F.acqCfg_retrigExt == 1
    (s.mark idx (leBytes 2 4)).modOpen (fun c =>
      let want := idx + (s.actv R.acqPost).toNat
      let limit := c.first + (s.actv R.acqMaxlen).toNat
      let c := { c with retrigs := c.retrigs + 1 }
      if ext && decide (c.stop < want) then { c with stop := min want limit, trunc := c.trunc || decide (limit < want) } else c)

/-! The sequencer (R274, R275, R278). -/

/-- The full-rate index of the latest sample. -/
def State.sampleIdx (s : State) : Nat := s.acq.n - 1

/-- The entry actions of a state, at the sample of the step (R275). -/
def State.entryActions (s : State) (t : Nat) : State :=
  let a := s.actv (R.acqStsAct t)
  let b := bitN a.toNat
  let k := R.acqCntkValue (fldN a.toNat 2 2)
  let s := if b 5 then s.wr k 0 else s
  let s := if b 4 then s.bump k else s
  let s := if b 6 then s.mark s.sampleIdx (leBytes 2 5 ++ leBytes 2 t) else s
  let s := if b 0 then s.trigger s.sampleIdx t else s
  if b 1 then s.setSeq 16 else s

/-- A step to a state (R274). -/
def State.seqGo (s : State) (t : Nat) : State := (s.setSeq t).entryActions t

/-- A condition source at the present sample (R278). -/
def State.condSrc (s : State) (src : Nat) : Bool :=
  if src < 32 then s.acq.ev.getLsbD src
  else if src < 36 then decide ((s.rd (R.acqCntkValue (src - 32))).toNat ≥ (s.actv (R.acqCntkPreset (src - 32))).toNat)
  else src == 63

/-- Whether condition A (0) or B (1) of a state is enabled and true. -/
def State.cond (s : State) (t ab : Nat) : Bool :=
  let c := (s.actv (R.acqStsCond t)).toNat
  bitN c (8 * ab + 7) && (s.condSrc (fldN c (8 * ab) 6) != bitN c (8 * ab + 6))

/-- Where the conditions take the sequencer at this sample. -/
def State.seqNext (s : State) : Option Nat :=
  let t := s.seqState
  if t ≥ 16 ∨ s.acq.stepped then none
  else if s.cond t 0 then some (s.aget (F.acqStsNext_nextA t))
  else if s.cond t 1 then some (s.aget (F.acqStsNext_nextB t))
  else none

/-- `SEQUENCER_STEP` (R274): a true condition moves the sequencer and executes entry actions. -/
def execSequencerStep (s : State) : Res :=
  match s.seqNext with
  | some t => s.when s.acqOn (s.seqGo t)
  | none => .next s

/-- `SEQUENCER_TIMEOUT` (R274): no condition is true and the dwell has reached the state's timer. -/
def execSequencerTimeout (s : State) : Res :=
  let t := s.seqState
  s.when (s.acqOn && decide (t < 16) && !s.acq.stepped && s.seqNext == none && s.aget (F.acqStsNext_toEn t) == 1
      && decide (s.acq.dwell ≥ fldN (s.actv (R.acqStsTimer t)).toNat 0 28))
    (s.seqGo (s.aget (F.acqStsNext_nextO t)))

/-! Sampling (R265, R267, R272, R273). -/

/-- The condition under which an event becomes true, and false, on a sample (R267). -/
def evTrue (kind : Nat) (x l : Int) : Bool :=
  match kind with
  | 0 => decide (x ≥ l)
  | 1 => decide (x ≤ l)
  | 2 => decide (x.natAbs ≥ l)
  | _ => false
def evFalse (kind : Nat) (x l h : Int) : Bool :=
  match kind with
  | 0 => decide (x < l - h)
  | 1 => decide (x > l + h)
  | 2 => decide (x.natAbs < l - h)
  | _ => true

def State.evKind (s : State) (n : Nat) : Nat := s.aget (F.acqEvnCfg_kind n)
def State.evLevel (s : State) (n : Nat) : Int := sextN 16 (s.actv (R.acqEvnLevel n)).toNat
def State.evHyst (s : State) (n : Nat) : Int := (fldN (s.actv (R.acqEvnLevel n)).toNat 16 16 : Nat)
def State.evSample (s : State) (n : Nat) : Int := (vget s.acq.x (s.aget (F.acqEvnCfg_channel n))).toInt

/-- `THRESHOLD_EVENT_CHANGE` (R267): true after `CONFIRM` consecutive samples, false past the hysteresis. -/
def execThresholdEventChange (n : Fin 32) (s : State) : Res :=
  let k := n.val
  let now := s.acq.ev.getLsbD k
  let up := !now && decide (vget s.acq.run k ≥ max 1 (s.aget (F.acqEvnCfg_confirm k))) && s.evKind k != 3
  let down := now && evFalse (s.evKind k) (s.evSample k) (s.evLevel k) (s.evHyst k)
  s.when (s.acqOn && (up || down))
    { s with acq := { s.acq with ev := BitVec.ofNat 32 (setFldN s.acq.ev.toNat k 1 (bit up)) } }

/-- A new decimation factor takes effect at the first full-rate index that is a multiple of it (R273). -/
def State.decEffect (s : State) (idx : Nat) : State :=
  let a := s.acq
  if a.decNext ≠ a.dec ∧ idx % decOf a.decNext = 0 then
    let s := { s with acq := { a with dec := a.decNext, sum := Vector.replicate 16 0, sumN := 0 } }
    ((s.bump R.acqRateChg).fset F.acqStatus_dec a.decNext).mark idx (leBytes 2 1 ++ leBytes 2 (decOf a.decNext))
  else s

/-- One full-rate sample of the enabled channels: averaged over D samples, then written (R272). Of a group that began before the
history no mean of D samples exists, and none is stored. -/
def State.storeSample (s : State) (idx : Nat) : State :=
  let d := decOf s.acq.dec
  let sum := Vector.ofFn (fun (c : Fin 16) => vget s.acq.sum c.val + (vget s.acq.x c.val).toInt)
  let next (s : State) : State := { s with acq := { s.acq with sum := Vector.replicate 16 0, sumN := 0 } }
  if idx % d = d - 1 ∧ s.acq.sumN + 1 ≠ d then next s
  else if idx % d = d - 1 then
    let mean (v : Int) : Int :=
      let q := v / d
      let r := v % d
      if 2 * r < d then q else if (d : Int) < 2 * r then q + 1 else if q % 2 = 0 then q else q + 1
    (next s).writeSet (idx + 1 - d)
      ((chList s.chmask).map (fun c => BitVec.ofInt 16 (mean (vget sum c))))
  else { s with acq := { s.acq with sum := sum, sumN := s.acq.sumN + 1 } }

/-- The status of the channels follows the over-range inputs; a channel newly beyond the range is marked (R265, R282). -/
def State.showOver (s : State) (idx : Nat) (ovr : BitVec 16) : State :=
  let s1 := (List.range 16).foldl (fun t c => t.fsetb ⟨R.acqChcStatus c, 0, 1⟩ (ovr.getLsbD c)) s
  let fresh := ovr &&& ~~~ s.acq.ovr
  let s1 := { s1 with acq := { s1.acq with ovr := ovr } }
  if fresh = 0 then s1
  else (s1.mark idx (leBytes 2 6 ++ leBytes 2 fresh.toNat)).modOpen (fun c => { c with ovr := true })

/-- `SAMPLE_INSTANT` (R265): the 16 channels are sampled, an input beyond the range at its end value; the set is written or
counted lost. The sequencer's dwell counts the samples at which it took no step. -/
def execSampleInstant (x : Vector (BitVec 16) 16) (ovr : BitVec 16) (s : State) : Res :=
  let idx := s.acq.n
  let v := Vector.ofFn (fun (c : Fin 16) =>
    let y := vget x c.val
    if ovr.getLsbD c.val then (if y.msb then 0x8000 else 0x7FFF) else y)
  let dwell := if s.seqState < 16 && !s.acq.stepped && s.acq.n != 0 then s.acq.dwell + 1 else s.acq.dwell
  let s1 := { s with acq := { s.acq with n := idx + 1, x := v, dwell := dwell, stepped := false } }.wr64
    R.acqSampleLo (BitVec.ofNat 64 idx)
  let s1 := (s1.decEffect idx).showOver idx ovr
  let run := Vector.ofFn (fun (n : Fin 32) =>
    if evTrue (s1.evKind n.val) (s1.evSample n.val) (s1.evLevel n.val) then vget s.acq.run n.val + 1 else 0)
  let s2 := { s1 with acq := { s1.acq with run := run } }.storeSample idx
  let s3 := if s2.acq.disarm && s2.openCap.isNone then
      { s2.setSeq 16 with acq := { (s2.setSeq 16).acq with disarm := false } } else s2
  let s4 := if s3.acq.force then { s3 with acq := { s3.acq with force := false } }.trigger idx 0xFF else s3
  s.when (s.acqOn && s.power.chip) s4

/-- A capture ends with the sample before `stop`: nothing beyond what is written is protected, and samples that were being lost count in
its end record (R271, R282). -/
def State.endCapture (s : State) (stop : Nat) : State :=
  let s := s.modOpen (fun c =>
    let cut := s.acq.gap - (s.acq.n - stop)
    { c with
      ended := true, stop := stop, lost := c.lost + cut
      endPos := min s.acq.wpos (posIn s.acq.segs (setBytes c.chmask) (stop + decOf s.acq.dec - 1)) })
  (s.fset F.acqStatus_capturing 0).showBacklog

/-- `CAPTURE_END` (R276): the capture's span has been sampled; the sequencer enters state 0, or IDLE. -/
def execCaptureEnd (s : State) : Res :=
  match s.openCap with
  | none => .next s
  | some c =>
    let s1 := s.endCapture c.stop
    let idle := s.acq.disarm || s.aget F.acqCfg_autoRearm == 0
    let s2 := { s1 with acq := { s1.acq with disarm := false } }
    s.when (decide (c.stop ≤ s.acq.n)) (if idle then s2.setSeq 16 else s2.seqGo 0)

/-- `DECIMATION_UP` (R272): the backlog, or the write FIFO, passes its level. -/
def execDecimationUp (fifo : Bool) (s : State) : Res :=
  let d := s.acq.decNext
  s.when (s.acqOn && decide (d < 5) && (fifo || decide (s.backlog ≥ decLevel (d + 1))))
    { s with acq := { s.acq with decNext := d + 1 } }

/-- `DECIMATION_DOWN` (R272): the backlog stayed 12.5 % of the ring below the level of the present step for 100 ms. -/
def execDecimationDown (s : State) : Res :=
  let d := s.acq.decNext
  s.when (s.acqOn && decide (0 < d) && decide (s.backlog + ringSize / 8 < decLevel d))
    { s with acq := { s.acq with decNext := d - 1 } }

/-! Calibration (R279, R280). -/

/-- The channel that the spare stands in for. -/
def State.onSpare (s : State) : Option (Fin 16) := (List.finRange 16).find? (fun c => s.fbit ⟨R.acqChcStatus c.val, 1, 1⟩)

/-- The spare stands in for a channel, or for none. -/
def State.setSpare (s : State) (ch : Option (Fin 16)) : State :=
  (List.finRange 16).foldl (fun (s : State) c => s.fsetb ⟨R.acqChcStatus c.val, 1, 1⟩ (ch == some c)) s

/-- `ACQ_CALIBRATION` (R279): the rotating spare takes the place of the next channel, in ascending order, or the last channel has
returned and the lap of `lap` ms ends. -/
def execAcqCalibration (ch : Option (Fin 16)) (lap : Nat) (s : State) : Res :=
  match ch with
  | some c => s.when (s.acqOn && c.val == s.onSpare.elim 0 (fun d => d.val + 1)) (s.setSpare (some c))
  | none =>
    s.when (s.acqOn && s.onSpare == some 15) (((s.setSpare none).wr R.acqCalLast (BitVec.ofNat 32 s.time.tb3)).wfDone 7 lap)

/-- `SKEW_MEASUREMENT` (R280): it starts, injects in windows that wait while a capture is open, and ends with the skew of each
channel. A marker covers each window in a capture whose span holds it. -/
def execSkewMeasurement (w : SkewStep) (s : State) : Res :=
  let injects := s.fbit F.acqStatus_inject
  match w with
  | .start => s.when (s.acqOn && s.openCap.isNone && !injects) (s.fset F.acqStatus_inject 1)
  | .window len =>
    let old := s.acq.windows.filter (fun w => decide (s.acq.n ≤ w.1 + w.2 + 67108864))
    s.when (s.acqOn && s.openCap.isNone && injects) { s with acq := { s.acq with windows := old ++ [(s.acq.n, len)] } }
  | .fit skew lap =>
    let s1 := (List.range 16).foldl (fun (s : State) c => s.wr (R.acqChcSkew c) ((vget skew c).setWidth 32)) s
    let s1 := ((s1.wr R.acqSkewLast (BitVec.ofNat 32 s.time.tb3)).fset F.acqStatus_skewLate 0).fset F.acqStatus_inject 0
    s.when (s.acqOn && injects) (s1.wfDone 8 lap)

/-- `SKEW_LATE` (R280): the injection has waited beyond 3 h. -/
def execSkewLate (s : State) : Res := s.when s.acqOn (s.fset F.acqStatus_skewLate 1)

/-! Control (R277, R284). -/

/-- The ring's history is cleared (R284): what captures not yet released protect stays where it is (R270). -/
def State.acqClearHistory (s : State) : State :=
  { s with acq := { s.acq with segs := [], gap := 0, sum := Vector.replicate 16 0, sumN := 0, run := Vector.replicate 32 0 } }.fset F.acqStatus_full 0

/-- `ACQ_CTRL.ENABLE`: acts only after the check of CONFIG has completed (R284, R460); the sample index starts from 0
(R266). -/
def State.acqEnable (s : State) : State :=
  if s.fbit F.pwrStatus_cfgDone && !s.acqOn then
    let s := { s.acqClearHistory with acq := { s.acqClearHistory.acq with n := 0, ev := 0, ovr := 0, windows := [] } }
    (s.fset F.acqStatus_enabled 1).wr64 R.acqSampleLo 0
  else s.ignoredIn 8

/-- `ACQ_CTRL.DISABLE`: acts only in IDLE; every event reads 0 (R268); an open capture ends with the last sample. -/
def State.acqDisable (s : State) : State :=
  if s.acqOn && s.seqState == 16 then
    let s := match s.openCap with | some c => s.endCapture (min c.stop s.acq.n) | none => s
    ({ s with acq := { s.acq with ev := 0, run := Vector.replicate 32 0 } }.fset F.acqStatus_enabled 0).fset F.acqStatus_inject 0
  else s.ignoredIn 8

/-- `ACQ_CTRL.ARM`: IDLE to state 0; the counters are cleared and state 0's entry actions executed (R274). -/
def State.acqArm (s : State) : State :=
  if s.acqOn && s.seqState == 16 then (s.zero ((List.range 4).map R.acqCntkValue)).seqGo 0 else s.ignoredIn 8

/-- `ACQ_CTRL.DISARM` (R277). -/
def State.acqDisarm (s : State) : State :=
  if s.acqOn && s.seqState < 16 then { s with acq := { s.acq with disarm := true } } else s.ignoredIn 8

/-- `ACQ_CTRL.FORCE_TRIG` (R277). -/
def State.acqForceTrig (s : State) : State :=
  if s.acqOn && s.seqState < 16 then { s with acq := { s.acq with force := true } } else s.ignoredIn 8

def State.acqClrCnt (s : State) : State := s.zero [R.acqLost, R.acqRateChg]

/-- `ACQ_ENABLE` (R266). -/
def execAcqEnable (m : Master) (s : State) : Res :=
  s.asWrite m R.acqCtrl (fun s => s.acqEnable)
/-- `ACQ_DISABLE` (R284). -/
def execAcqDisable (m : Master) (s : State) : Res :=
  s.asWrite m R.acqCtrl (fun s => s.acqDisable)
/-- `ACQ_ARM` (R274). -/
def execAcqArm (m : Master) (s : State) : Res :=
  s.asWrite m R.acqCtrl (fun s => s.acqArm)
/-- `ACQ_DISARM` (R277). -/
def execAcqDisarm (m : Master) (s : State) : Res :=
  s.asWrite m R.acqCtrl (fun s => s.acqDisarm)
/-- `ACQ_FORCE_TRIG` (R277). -/
def execAcqForceTrig (m : Master) (s : State) : Res :=
  s.asWrite m R.acqCtrl (fun s => s.acqForceTrig)
/-- `ACQ_CLR_CNT` (R284). -/
def execAcqClrCnt (m : Master) (s : State) : Res :=
  s.asWrite m R.acqCtrl (fun s => s.acqClrCnt)

/-! Records (R281, R282). -/

/-- A record: the common header and a body. -/
def capRecord (c : Capture) (type flags first dec : Nat) (body : List Byte) : List Byte :=
  leBytes 2 type ++ leBytes 2 flags ++ leBytes 4 (32 + body.length) ++ leBytes 4 c.num ++ leBytes 4 c.seq
    ++ leBytes 8 first ++ leBytes 2 dec ++ leBytes 2 c.chmask ++ leBytes 4 0 ++ body

def segAt (segs : List Seg) (idx : Nat) : Seg := ((segs.filter (fun g => g.first ≤ idx)).getLast?).getD {}

/-- The segment after one. -/
def segAfter (segs : List Seg) (idx : Nat) : Option Seg := (segs.filter (fun g => idx < g.first)).head?

/-- The end (exclusive) of the sample sets written in the segment of an index; `wpos` is the write position. -/
def segEnd (segs : List Seg) (size wpos idx : Nat) : Nat :=
  let g := segAt segs idx
  let p := (segAfter segs idx).elim wpos (·.pos)
  g.first + (p - g.pos) / max size 1 * g.dec

/-- Whether the stored sample set of an index holds an uncorrectable word (R385). -/
def State.setBad (s : State) (c : Capture) (size idx : Nat) : Bool :=
  let p := posIn c.segs size idx
  (List.range size).any (fun i => s.mem.bad ((c.base + (p + i) % ringSize) / 8))

/-- A record of at most 8,192 bytes of the whole sample sets before full-rate index `lim`; sets that hold an uncorrectable
word are replaced by a gap marker (R282, R385). -/
def State.dataRecord (s : State) (c : Capture) (lim : Nat) : List Byte × Capture :=
  let size := setBytes c.chmask
  let g := segAt c.segs c.cur
  let n := min ((lim - c.cur + g.dec - 1) / g.dec) (8192 / max size 1)
  let bad := (List.range n).map (fun i => s.setBad c size (c.cur + i * g.dec))
  if bad.headD false then
    let k := (bad.takeWhile id).length
    (capRecord c 3 0 c.cur g.dec (leBytes 2 2 ++ List.replicate 6 0 ++ leBytes 8 (k * g.dec)),
      { c with seq := c.seq + 1, cur := c.cur + k * g.dec })
  else
    let k := (bad.takeWhile (!·)).length
    let p := posIn c.segs size c.cur
    let data := (List.range (k * size)).map (fun i => s.mem.byte (c.base + (p + i) % ringSize))
    (capRecord c 2 0 c.cur g.dec data, { c with seq := c.seq + 1, cur := c.cur + k * g.dec })

/-- The next record of a capture, with the capture after it: header, then data and markers in sample order, then the end
(R281); none while nothing is ready. A data record holds at most 8,192 bytes of whole sample sets. -/
def State.nextRecord (s : State) (c0 : Capture) : Option (List Byte × Capture) :=
  let size := setBytes c0.chmask
  let wend := if c0.ended then c0.endPos else s.acq.wpos
  let e0 := segEnd c0.segs size wend c0.cur
  let c := match segAfter c0.segs c0.cur with
    | some g => if e0 ≤ c0.cur then { c0 with cur := g.first } else c0
    | none => c0
  let avail := min (segEnd c.segs size wend c.cur) c.stop
  let c1 := { c with seq := c.seq + 1 }
  if !c.headerSent then
    some (capRecord c 1 0 c.cur (segAt c.segs c.cur).dec c.header, { c1 with headerSent := true })
  else
    match c.marks with
    | m :: r =>
      if m.idx ≤ c.cur ∨ (c.ended ∧ avail ≤ c.cur) then
        some (capRecord c 3 0 m.idx (segAt c.segs m.idx).dec m.body, { c1 with marks := r })
      else if c.cur < avail then some (s.dataRecord c (min avail m.idx))
      else none
    | [] =>
      if c.cur < avail then some (s.dataRecord c avail)
      else if c.ended && c.endFrame.isNone then
        let flags := bit c.shortPre + bit c.trunc * 2 + bit (c.lost != 0) * 4 + bit c.ovr * 8
        some (capRecord c 4 flags (c.stop - 1) (segAt c.segs c.cur).dec
          (leBytes 8 (c.stop - 1) ++ leBytes 4 c.retrigs ++ leBytes 8 c.lost ++ leBytes 4 0), c1)
      else none

end Sys2Proof.Machine
end

