-- ==== Sys2Proof/Machine/Field.lean ====
section
/-!
DEFINITION. Digital channels and loop outputs (R228-R264): the island interface, holds, inputs, output protection, field
supply, loop supervision and calibration.
-/

namespace Sys2Proof.Machine

/-! The island interface. -/

/-- A frame from the chip is taken: module state, and the latest scan command where there is one (R228). -/
def State.islandTake (s : State) : State :=
  let s := { s with island := { s.island with mst := s.mod } }
  let s := if s.mod = .boot ∨ s.mod = .config then s.liftHolds else s
  match s.scan.pub with
  | some c =>
    let s := { s with island := { s.island with
                        cmd := c, cmdSeen := s.island.cmdSeen || s.island.recovering, useMirror := false } }
    s.liftScan
  | none => s

/-- Frames resume (R251): holds and safe values persist until the first command or vote that concerns the output; in
BOOT or CONFIG they end with the first frame. -/
def State.framesResume (s : State) : State :=
  { s with island := { s.island with silent := false, holding := false } }.islandTake

/-- The readback of a loop current in nA: what the converter measures with the correction that calibration has set (R255,
R260). -/
def State.readbackOf (s : State) (n : Nat) (raw : BitVec 25) : Nat := ((raw.toNat : Int) + (s.lch n).rbAdj).toNat

/-- What the island has measured: L+ and the loop supply in mV, terminal levels, loop currents, channels in current limit. -/
def State.islandMeasure (s : State) (mv compV : BitVec 16) (term ilim : W32) (rb : Vector (BitVec 25) 8) : State :=
  let low := fldN (s.rd R.dioLplus).toNat 16 16
  let low := if low = 0 then mv.toNat else min low mv.toNat
  let s := (s.wr R.dioLplus (BitVec.ofNat 32 (mv.toNat + low * 65536))).wr R.aoCompV (BitVec.ofNat 32 compV.toNat)
  let run := s.island.off && decide (mv.toNat > 18000)
  { s with island := { s.island with
      recovering := run, cmdSeen := s.island.cmdSeen && run && s.island.recovering
      ch := Vector.ofFn (fun (i : Fin 32) =>
        { s.dch i.val with term := term.getLsbD i.val, ilim := ilim.getLsbD i.val })
      lp := Vector.ofFn (fun (i : Fin 8) => { s.lch i.val with readback := s.readbackOf i.val (vget rb i.val) }) } }

/-- `ISLAND_STATUS_FRAME` (R228): a status frame passes each way; a frame whose CRC does not check is counted and changes
nothing. The operands are what the island has measured; L+ above 18 V in the outputs-off state runs the recovery timer. -/
def execIslandStatusFrame (toIsland fromIsland : Bool) (mv compV : BitVec 16) (term ilim : W32)
    (rb : Vector (BitVec 25) 8) (s : State) : Res :=
  let s1 := if fromIsland then s.islandMeasure mv compV term ilim rb else s.bump R.dioIfaceErr
  let s1 := if toIsland then s1.framesResume else s1.bump R.dioIfaceErr
  s.when (s.up && s.power.chip && s.island.on) s1.showIsland

/-- `LOGIC_SILENT` (R249): no valid frame for 8 µs: the island that holds the token holds its outputs and starts the hold
timer. -/
def execLogicSilent (s : State) : Res :=
  let s1 := { s with island := { s.island with silent := true } }
  let s2 := if s.token && !s.island.off then s1.startHold else s1
  s.when (s.island.on && !s.island.silent) s2.showIsland

/-- `HOLD_EXPIRY` (R249): the hold timer expires and every output takes its safe value. -/
def execHoldExpiry (s : State) : Res :=
  s.when (s.island.on && s.island.silent && s.island.holding && s.token && !s.island.off)
    (({ s with island := { s.island with holding := false, expired := true } }).holdSafe true).showIsland

/-- `FRAMES_RESUME` (R251). -/
def execFramesResume (s : State) : Res :=
  s.when (s.up && s.power.chip && s.island.on && s.island.silent) s.framesResume.showIsland

/-! Digital inputs. -/

/-- `FILTER_STATE_CHANGE` (R235): the samples of an input since the last event, one for each tick, move its counter, and with it
the filtered state when the counter reaches its threshold or 0. -/
def execFilterStateChange (n : Fin 32) (samples : List Bool) (s : State) : Res :=
  let c := s.dch n.val
  let x := samples.foldl (filterTick (s.filtT n.val)) (c.count, c.input)
  s.when (s.island.on && !s.isOut n.val)
    (s.setDch n.val (fun c => { c with count := x.1, input := x.2 })).showIsland

/-- `INPUT_THRESHOLD_CHECK` (R237): a check lap; an input whose comparators disagree at two consecutive checks is faulty. -/
def execInputThresholdCheck (disagree : W32) (lap : Nat) (s : State) : Res :=
  let s1 := (List.range 32).foldl (fun s n => if s.isOut n then s else
    s.setDch n (fun c =>
      let d := disagree.getLsbD n
      { c with chkFault := c.chkFault || (d && c.chkBad), chkBad := d })) s
  s.when s.island.on (((s1.wr R.dioChkLast (BitVec.ofNat 32 s.time.tb3)).wfDone 5 lap).showIsland)

/-! Digital outputs. -/

/-- `OUTPUT_LATCH_OFF` (R242): an output in current limit for `LIM_T` is latched off and an error event is raised; both
halves of a pair latch together and report in the even channel (R240). -/
def execOutputLatchOff (n : Fin 32) (s : State) : Res :=
  let k := s.lead n.val
  let t := s.setDch n.val (fun c => { c with ilim := false })
  s.when ((s.driveD n.val).isSome)
    (((t.setDch k (fun c => { c with latched := true, ilim := false })).bump (R.dioChnShorts k)).showIsland.event
      0x0020 6 k [BitVec.ofNat 64 k])

/-- `OUTPUT_RETRY` (R242): a latched output is driven to its command for `LIM_T`, while the island holds the token. A retry
without current limit, or one that finds the command low, ends the latch. -/
def execOutputRetry (n : Fin 32) (limited : Bool) (s : State) : Res :=
  let k := s.lead n.val
  let level := (s.wantD k).getD false
  let s1 := s.bump (R.dioChnRetries k)
  let ended := (s1.setDch k (fun c => { c with latched := false })).showIsland
  s.when ((s.dch k).latched && s.token && s.island.on && !s.island.off)
    (if !level then ended.event 0x0021 6 k [BitVec.ofNat 64 k, 1]
     else if !limited then ended.event 0x0021 6 k [BitVec.ofNat 64 k]
     else s1.showIsland)

/-- `READBACK_FAULT_SET` (R244): terminal and driven level (without the token: the mirror) differ for 1 ms. -/
def execReadbackFaultSet (n : Fin 32) (s : State) : Res :=
  s.when (s.island.on && s.isOut n.val && !(s.dch (s.lead n.val)).latched && !(s.dch n.val).ilim)
    (s.setDch n.val (fun c => { c with rbFault := true })).showIsland

/-- `READBACK_FAULT_CLEAR` (R244): the two agree for 100 ms. -/
def execReadbackFaultClear (n : Fin 32) (s : State) : Res :=
  s.when (s.island.on && (s.dch n.val).rbFault) (s.setDch n.val (fun c => { c with rbFault := false })).showIsland

/-! Field supply. -/

/-- `LPLUS_WARNING` (R245): L+ below 19.2 V for 1 ms. -/
def execLplusWarning (mv : BitVec 16) (s : State) : Res :=
  s.when (s.island.on && !s.island.warn && decide (mv.toNat < 19200))
    (({ s with island := { s.island with warn := true } }.bumpF ⟨R.dioSupplyCnt, 0, 16⟩).showIsland.event
      0x0022 6 0 [BitVec.ofNat 64 mv.toNat])

/-- `LPLUS_WARNING_CLEAR` (R245): L+ above 19.6 V for 20 ms. -/
def execLplusWarningClear (mv : BitVec 16) (s : State) : Res :=
  s.when (s.island.on && s.island.warn && decide (mv.toNat > 19600))
    { s with island := { s.island with warn := false } }.showIsland

/-- `OUTPUTS_OFF` (R245): L+ below 15 V for 20 µs: every output switched off, every input invalid. -/
def execOutputsOff (mv : BitVec 16) (s : State) : Res :=
  let s1 := { s with island := { s.island with off := true, recovering := false, cmdSeen := false } }.liftHolds
  s.when (s.island.on && !s.island.off && decide (mv.toNat < 15000))
    ((s1.bumpF ⟨R.dioSupplyCnt, 16, 16⟩).showIsland.event 0x0023 6 0 [BitVec.ofNat 64 mv.toNat])

/-- `SUPPLY_RECOVERY` (R246): L+ above 18 V for 20 ms: outputs take their current commands, or their safe values where no
scan command came because the logic side is silent; inputs become valid. -/
def execSupplyRecovery (mv : BitVec 16) (s : State) : Res :=
  let s1 := { s with island := { s.island with off := false, recovering := false, fresh := false, cmdSeen := false } }
  let s1 := if s.island.cmdSeen || !s.island.silent then s1 else s1.holdSafe true
  s.when (s.island.on && s.island.off && decide (mv.toNat > 18000))
    (s1.showIsland.event 0x0024 6 0 [BitVec.ofNat 64 mv.toNat, BitVec.ofNat 64 (bit s.island.fresh)])

/-- `ISLAND_POWER_DOWN` (R247): L+ below 11 V: the island's state is lost, but for its non-volatile memory. -/
def execIslandPowerDown (mv : BitVec 16) (s : State) : Res :=
  s.when (s.island.on && decide (mv.toNat < 11000))
    { s with island := { lp := s.island.lp.map (fun (c : LChan) =>
      { factoryLo := c.factoryLo, factoryHi := c.factoryHi, table := c.table, rbAdj := c.rbAdj }) } }.showIsland

/-- `ISLAND_START` (R247): L+ above 13 V: every output off, filters cleared, no latch; trims load from the island, and the
configuration in effect from the chip. -/
def execIslandStart (mv : BitVec 16) (s : State) : Res :=
  let s1 := (((({ s with island := { s.island with on := true, fresh := true, off := true } }).islandLoad 3).islandLoad 6).islandLoad 7)
  let s1 := (List.range 8).foldl (fun t n =>
    (t.wr (R.aoChnTrimLo n) ((s.lch n).factoryLo.setWidth 32)).wr (R.aoChnTrimHi n) ((s.lch n).factoryHi.setWidth 32)) s1
  s.when (!s.island.on && decide (mv.toNat > 13000)) s1.showIsland

/-! Loop outputs. -/

/-- Whether the loops are clear of a ramp: none runs, and the last ended 1 ms ago (R257). -/
def State.rampOver (s : State) : Bool :=
  s.bogie.ramp == .steady && match s.bogie.rampEnd with | some t => decide (1000000 ≤ (s.time.tb1 - t).toNat) | none => true

/-- Whether a loop output is supervised: enabled, no compliance, no ramp (R256, R257). -/
def State.supervised (s : State) (n : Nat) : Bool :=
  s.island.on && s.iget (F.aoChnCfg_en n) == 1 && !(s.lch n).compliance && !(s.lch n).rbFault && s.rampOver

/-- How far the readback is from the command, in nA. -/
def State.loopMiss (s : State) (n rb : Nat) : Nat := max (s.driveL n) rb - min (s.driveL n) rb

/-- `COMPLIANCE_SET` (R256): the driver is at the end of its range and the readback stays more than 0.1 mA below the
command for 10 ms. -/
def execComplianceSet (n : Fin 8) (rb : BitVec 25) (s : State) : Res :=
  let op := decide ((s.readbackOf n.val rb) < 100000)
  s.when (s.island.on && s.iget (F.aoChnCfg_en n.val) == 1 && !(s.lch n.val).compliance
      && decide ((s.readbackOf n.val rb) + 100000 < s.driveL n.val))
    ((s.setLch n.val (fun c => { c with compliance := true, openLoop := op, readback := (s.readbackOf n.val rb) })).showIsland.event
      0x0029 7 n.val [BitVec.ofNat 64 n.val, BitVec.ofNat 64 (bit op)])

/-- `COMPLIANCE_CLEAR` (R256): the readback comes within 0.05 mA of the command for 100 ms. -/
def execComplianceClear (n : Fin 8) (rb : BitVec 25) (s : State) : Res :=
  s.when ((s.lch n.val).compliance && decide (s.loopMiss n.val (s.readbackOf n.val rb) ≤ 50000))
    (s.setLch n.val (fun c => { c with compliance := false, openLoop := false, readback := (s.readbackOf n.val rb) })).showIsland

/-- `MAIN_PATH_FAILURE` (R257): the main path misses by more than 0.16 mA for 5 ms: the fallback path takes over. -/
def execMainPathFailure (n : Fin 8) (rb : BitVec 25) (s : State) : Res :=
  s.when (s.supervised n.val && !(s.lch n.val).fallback && decide (s.loopMiss n.val (s.readbackOf n.val rb) > 160000))
    (((s.setLch n.val (fun c => { c with fallback := true, readback := (s.readbackOf n.val rb) })).bumpF ⟨R.aoChnFaults n.val, 0, 16⟩).showIsland.event
      0x0028 7 n.val [BitVec.ofNat 64 n.val])

/-- A channel goes to readback fault: both DACs off (R257, R260). -/
def State.loopFault (s : State) (n : Nat) : State :=
  ((s.setLch n (fun c => { c with rbFault := true })).bumpF ⟨R.aoChnFaults n, 16, 16⟩).showIsland.event
    0x002A 7 n [BitVec.ofNat 64 n]

/-- `LOOP_READBACK_FAULT` (R257): the fallback path misses by more than 0.32 mA for 5 ms. -/
def execLoopReadbackFault (n : Fin 8) (rb : BitVec 25) (s : State) : Res :=
  s.when (s.supervised n.val && (s.lch n.val).fallback && decide (s.loopMiss n.val (s.readbackOf n.val rb) > 320000))
    ((s.setLch n.val (fun c => { c with readback := (s.readbackOf n.val rb) })).loopFault n.val)

/-- One trim moved toward its fit by at most 11 LSB; none where the correction from the factory trim would pass 874 LSB. -/
def trimStep (factory now : BitVec 16) (fit : Int) : Option (BitVec 16) :=
  let d := max (-11) (min 11 (fit - now.toInt))
  let v := now.toInt + d
  if v - factory.toInt > 874 ∨ factory.toInt - v > 874 then none else some (BitVec.ofInt 16 v)

/-- The trims moved toward their fit: where the commands of the lap spanned less than 4 mA the fit is an offset alone, and both
trims move alike. -/
def State.trimFit (s : State) (n : Nat) (span : Nat) (lo hi : Int) : Option (BitVec 16 × BitVec 16) :=
  let a := (s.rd (R.aoChnTrimLo n)).setWidth 16
  let b := (s.rd (R.aoChnTrimHi n)).setWidth 16
  let hi := if span < 4000000 then b.toInt + (lo - a.toInt) else hi
  match trimStep (s.lch n).factoryLo a lo, trimStep (s.lch n).factoryHi b hi with
  | some x, some y => some (x, y)
  | _, _ => none

/-- Calibration of one channel (R260): the error of its readback in nA against the internal reference; and of the command and
readback pairs of the lap (none: no pair was taken) the span of the commands in nA and the trims they fit. Pairs are taken
only on the main path. -/
def State.calibrate (s : State) (n : Nat) (err : Int) (fit : Option (Nat × Int × Int)) : State :=
  if s.iget (F.aoChnCfg_en n) = 0 ∨ s.iget (F.aoChnCfg_calEn n) = 0 then s
  else if err.natAbs > 40000 then s.loopFault n
  else
    let s := if err.natAbs > 8000 then s.setLch n (fun c => { c with rbAdj := c.rbAdj - err }) else s
    match fit with
    | none => s
    | some (span, lo, hi) =>
      if (s.lch n).calLimit ∨ (s.lch n).fallback ∨ (s.lch n).rbFault then s
      else match s.trimFit n span lo hi with
        | some (a, b) => (s.wr (R.aoChnTrimLo n) (a.setWidth 32)).wr (R.aoChnTrimHi n) (b.setWidth 32)
        | none => s.setLch n (fun c => { c with calLimit := true })

/-- `LOOP_CALIBRATION` (R260): a lap checks the readback and moves the trims toward the fit. -/
def execLoopCalibration (err : Vector Int 8) (fit : Vector (Option (Nat × Int × Int)) 8) (lap : Nat) (s : State) : Res :=
  let s1 := (List.range 8).foldl (fun s n => s.calibrate n (vget err n) (vget fit n)) s
  s.when s.island.on (((s1.wr R.aoCalLast (BitVec.ofNat 32 s.time.tb3)).wfDone 6 lap).showIsland)

/-! Clears. -/

/-- `DIO_CTRL.CLR_CNT`. -/
def State.dioClrCnt (s : State) : State :=
  s.zero (R.dioSupplyCnt :: (List.range 32).flatMap (fun n => [R.dioChnShorts n, R.dioChnRetries n]))
/-- `DIO_CTRL.CLR_MIN`: the lowest L+ is the present L+. -/
def State.dioClrMin (s : State) : State :=
  s.wr R.dioLplus (BitVec.ofNat 32 (fldN (s.rd R.dioLplus).toNat 0 16 * 65537))
/-- The channels named start again on the main path (R257). -/
def State.mainPath (s : State) (mask : BitVec 8) : State :=
  (List.range 8).foldl (fun s n => if mask.getLsbD n then
    s.setLch n (fun c => { c with fallback := false, rbFault := false }) else s) s

/-- `AO_CTRL.RETEST`: the channels named return to the main path. -/
def State.aoRetest (s : State) (mask : BitVec 8) : State :=
  (s.mainPath mask).showIsland
/-- `AO_CTRL.CLR_CNT`. -/
def State.aoClrCnt (s : State) : State := s.zero ((List.range 8).map R.aoChnFaults)

/-- `DIO_CLR_CNT` (R261). -/
def execDioClrCnt (m : Master) (s : State) : Res :=
  s.asWrite m R.dioCtrl (fun s => s.dioClrCnt)
/-- `DIO_CLR_MIN` (R261). -/
def execDioClrMin (m : Master) (s : State) : Res :=
  s.asWrite m R.dioCtrl (fun s => s.dioClrMin)
/-- `AO_RETEST` (R257). -/
def execAoRetest (m : Master) (mask : BitVec 8) (s : State) : Res :=
  s.asWrite m R.aoCtrl (fun s => s.aoRetest mask)
/-- `AO_CLR_CNT` (R263). -/
def execAoClrCnt (m : Master) (s : State) : Res :=
  s.asWrite m R.aoCtrl (fun s => s.aoClrCnt)

end Sys2Proof.Machine
end

