-- ==== Sys2Proof/Machine/HostOps.lean ====
section
/-!
DEFINITION. The operations of the host rings that many commands share (R330-R346): completions and their order, event
entries, ring errors, the DMA channels, forwarding to the partner.
-/

namespace Sys2Proof.Machine

def hapRingError : Hap := ⟨10, 1, 11, none, false⟩
def hapEngineHalt : Hap := ⟨10, 2, 11, none, false⟩
def hapDmaHalt : Hap := ⟨10, 3, 12, none, false⟩
def hapPeerDiff : Hap := ⟨10, 4, 11, none, false⟩

/-! Fields of a descriptor (R334). -/
def Cmd.opcode (c : Cmd) : Nat := fldN c.desc.word0.toNat 16 8
def Cmd.sequence (c : Cmd) : Nat := fldN c.desc.word0.toNat 0 16
def Cmd.barrier (c : Cmd) : Bool := bitN c.desc.word0.toNat 30
def Cmd.irq (c : Cmd) : Bool := bitN c.desc.word0.toNat 29
def Cmd.length (c : Cmd) : Nat := c.desc.length.toNat
def Cmd.target (c : Cmd) : Bool := c.desc.arg2.getLsbD 0
/-- The host port of a ring. -/
def Cmd.port (c : Cmd) : Nat := c.ring / 8

def State.portOn (s : State) (p : Nat) : Bool := bitN (s.rd R.hostRingEn).toNat (16 + p)
def State.ringOn (s : State) (n : Nat) : Bool := s.portOn (n / 8) && bitN (s.rd R.hostRingEn).toNat n
def State.cqSize (s : State) (p : Nat) : Nat := 2 ^ fldN (s.rd (R.hostPpCqCfg p)).toNat 0 4
def State.eqSize (s : State) (p : Nat) : Nat := 2 ^ fldN (s.rd (R.hostPpEqCfg p)).toNat 0 4
def State.ringSize (s : State) (n : Nat) : Nat := 2 ^ fldN (s.rd (R.hostChnCfg n)).toNat 0 4

/-- Whether a port's ring engine can issue accesses: link up, not halted (R329, R353). -/
def State.engineOk (s : State) (p : Nat) : Bool := s.fbit (F.hostPpStatus_link p) && !s.fbit (F.hostPpStatus_halt p)

def State.modCmd (s : State) (id : Nat) (f : Cmd → Cmd) : State :=
  { s with host := { s.host with cmds := s.host.cmds.map (fun (c : Cmd) => if c.id = id then f c else c) } }

def State.cmd? (s : State) (id : Nat) : Option Cmd := s.host.cmds.find? (fun c => c.id == id)

/-! Event entries (R340). -/

/-- The 64 bytes of a record (R407). -/
def recBytes (r : Record) : List Byte :=
  leBytes 2 r.code.toNat ++ leBytes 2 (bit r.priv + bit r.unsure * 2 + bit r.unkept * 4 + r.sev.toNat * 16)
    ++ leBytes 8 r.time.toNat ++ leBytes 4 (r.block + r.unit % 256 * 256 + bit r.slotB * 65536)
    ++ ((r.params ++ List.replicate 6 0).take 6).flatMap (fun (p : W64) => leBytes 8 p.toNat)

/-- One entry written at the event ring's count (R331, R338). -/
def State.eqWrite (s : State) (p kind : Nat) (body : List Byte) : State :=
  let c := (vget s.host.eq p).toNat
  let size := s.eqSize p
  let addr := s.rd64 (R.hostPpEqBaseLo p) + BitVec.ofNat 64 (c % size * 128)
  let e := leBytes 2 kind ++ leBytes 1 (bit (c / size % 2 == 0)) ++ [0] ++ leBytes 4 c ++ body
  let s := s.emit (.hostWrite p addr ((e ++ List.replicate 128 0).take 128))
  { s with host := { s.host with eq := vset s.host.eq p (BitVec.ofNat 32 (c + 1)) } }

def State.eqRoom (s : State) (p : Nat) : Bool :=
  s.token && s.engineOk p && decide (((vget s.host.eq p) - s.rd (R.hostPpEqHead p)).toNat < s.eqSize p)

/-- Waiting entries are written while there is room, then a lost marker carrying the count of those dropped. An entry
that waits is kept with its kind in front of its body. -/
def State.eqDrain (p : Nat) : Nat → State → State
  | 0, s => s
  | n + 1, s =>
    if !s.eqRoom p then s
    else
      match vget s.host.eqWait p with
      | (k :: body) :: r =>
        State.eqDrain p n ({ s with host := { s.host with eqWait := vset s.host.eqWait p r } }.eqWrite p k.toNat body)
      | [] :: r => State.eqDrain p n { s with host := { s.host with eqWait := vset s.host.eqWait p r } }
      | [] =>
        let d := vget s.host.eqDropped p
        if d = 0 then s
        else ({ s with host := { s.host with eqDropped := vset s.host.eqDropped p 0 } }).eqWrite p 3 (leBytes 4 d)

/-- The run of entries that room allows; MSI-X vector 1 follows the last of them. -/
def State.eqServe (s : State) (p : Nat) : State :=
  let t := s.eqDrain p 258
  let t := if vget t.host.eq p = vget s.host.eq p then t else t.emit (.msix p 1)
  t.fsetb (F.hostPpStatus_eqFull p) (vget t.host.eqWait p != [])

/-- An entry is raised on a port's event ring; up to 256 wait, further ones are dropped and counted. Only the module that
holds the token writes (R341). -/
def State.eqPut (s : State) (p kind : Nat) (body : List Byte) : State :=
  if !s.portOn p || !s.token then s
  else if (vget s.host.eqWait p).length + bit (vget s.host.eqDropped p != 0) < 256 then
    let d := vget s.host.eqDropped p
    let lost : List (List Byte) := if d = 0 then [] else [3 :: leBytes 4 d]
    { s with host := { s.host with
      eqDropped := vset s.host.eqDropped p 0
      eqWait := vset s.host.eqWait p (vget s.host.eqWait p ++ lost ++ [BitVec.ofNat 8 kind :: body]) } }.eqServe p
  else { s with host := { s.host with eqDropped := vmod s.host.eqDropped p (· + 1) } }.bump (R.hostPpEqLost p)

/-- A copy of an event record on every port whose mask selects its category. -/
def State.eqRecord (s : State) (r : Record) : State :=
  [0, 1].foldl (fun s p =>
    if bitN (s.rd (R.hostPpEqMask p)).toNat (r.code.toNat / 4096) then s.eqPut p 1 (recBytes r) else s) s

/-! Ring errors (R332, R333). -/

/-- RING_ERROR: `cause` as `HOST_CHn_ERR.CAUSE`; a descriptor error halts the ring. -/
def State.ringError (s : State) (n cause : Nat) (halt : Bool) : State :=
  let s := (s.fset (F.hostChnErr_cause n) cause).bumpF (F.hostChnErr_count n)
  let s := if halt then (s.fset (F.hostChnErr_halted n) 1).fset ⟨R.hostStatus, n, 1⟩ 1 else s
  (s.raise hapRingError n [BitVec.ofNat 64 cause]).emit (.msix (n / 8) 2)

/-! Completion (R338, R339, R341). -/

/-- The writes of one completion: `STATUS` and `RESULT`, word 0 with `OWN` clear, the completion entry, MSI-X vector 0. -/
def State.compWrites (s : State) (q : PendComp) : State :=
  let p := q.ring / 8
  let base := s.rd64 (R.hostChnBaseLo q.ring) + BitVec.ofNat 64 (q.count.toNat % s.ringSize q.ring * 64)
  let s := s.emit (.hostWrite p (base + 56) (leBytes 4 q.status.toNat ++ leBytes 4 q.result.toNat))
  let s := s.emit (.hostWrite p base (leBytes 4 (q.word0.toNat % 2 ^ 31)))
  let c := (vget s.host.cq p).toNat
  let size := s.cqSize p
  let addr := s.rd64 (R.hostPpCqBaseLo p) + BitVec.ofNat 64 (c % size * 32)
  let e := leBytes 2 (fldN q.word0.toNat 0 16) ++ leBytes 1 (q.ring % 8) ++ leBytes 1 (bit (c / size % 2 == 0))
    ++ leBytes 4 q.status.toNat ++ leBytes 4 q.result.toNat ++ leBytes 4 0 ++ leBytes 8 q.tag.toNat ++ leBytes 8 0
  let s := s.emit (.hostWrite p addr e)
  let s := if bitN q.word0.toNat 29 then s.emit (.msix p 0) else s
  let s := { s with host := { s.host with cq := vset s.host.cq p (BitVec.ofNat 32 (c + 1)) } }
  ((s.wr (R.hostChnDone q.ring) (q.count + 1)).bump (R.hostPpCmds p)).obsCount 0x0B00

def Cmd.comp (c : Cmd) : PendComp :=
  { ring := c.ring, count := c.count, word0 := c.desc.word0, status := c.status, result := c.result, tag := c.desc.tag
    barrier := if c.barrier then c.lastAddr else none }

/-- Whether a completion waits for a seal: the partner is STANDBY and the seal that carries it is not acknowledged. -/
def State.waitsSeal (s : State) (c : Cmd) : Bool := s.mod == .primary && s.partner == .standby && !c.sealed

/-- The oldest command of a ring, when its completion may go on. -/
def State.compReady (s : State) (n : Nat) : Option Cmd :=
  match s.host.cmds.find? (fun c => c.ring == n) with
  | some c => if c.phase = .done ∧ s.token ∧ !s.waitsSeal c ∧ s.engineOk (n / 8) then some c else none
  | none => none

/-- COMMAND_COMPLETION of one ring: completions in the order taken; one with a data barrier first sends its read. -/
def State.completeRing (n : Nat) : Nat → State → State
  | 0, s => s
  | k + 1, s =>
    match s.compReady n with
    | none => s
    | some c =>
      match c.comp.barrier with
      | some a =>
        if c.barDone then
          State.completeRing n k ({ s with host := { s.host with cmds := s.host.cmds.filter (fun d => d.id ≠ c.id) } }.compWrites c.comp)
        else if c.barSent then s
        else (s.modCmd c.id (fun c => { c with barSent := true })).emit (.hostRead (n / 8) a)
      | none =>
        State.completeRing n k ({ s with host := { s.host with cmds := s.host.cmds.filter (fun d => d.id ≠ c.id) } }.compWrites c.comp)

/-- Whether the completion ring of a port has room for another command (R333). -/
def State.cqRoom (s : State) (p : Nat) : Bool :=
  decide (((vget s.host.cq p) - s.rd (R.hostPpCqHead p)).toNat
    + (s.host.cmds.filter (fun c => c.port == p)).length < s.cqSize p)

def State.completeAll (s : State) : State :=
  let s := (List.range 16).foldl (fun s n => State.completeRing n s.host.cmds.length s) s
  [0, 1].foldl (fun s p => s.fsetb (F.hostPpStatus_cqFull p) (s.portOn p && !s.cqRoom p)) s

/-- A command is executed: with forwarded items not yet acknowledged it waits for them (R336). -/
def State.cmdDone (s : State) (id status result : Nat) : State :=
  (s.modCmd id (fun c => { c with
    phase := if c.acks = [] then .done else .waitAcks
    status := BitVec.ofNat 32 status, result := BitVec.ofNat 32 result })).completeAll

/-- Who asked for a freeze or a re-arm learns that it is complete (R417, R418). -/
def State.tellAsker (s : State) : Asker → State
  | .register => s
  | .command id => s.cmdDone id 0 0
  | .partner ring => s.send (.forwardedReply ring 0 0 [])

/-- Commands that wait are executed. -/
def State.endWaiting (s : State) (p : Cmd → Bool) (status : Nat) : State :=
  { s with host := { s.host with cmds := s.host.cmds.map (fun (c : Cmd) =>
      if p c then { c with phase := .done, status := BitVec.ofNat 32 status } else c) } }.completeAll

/-- A hand-over does not come about: a switch command that waits for it completes, `status` 0 where its seal was acknowledged,
else as refused by the block [17]. -/
def State.endSwitchCmds (s : State) (status : Nat) : State := s.endWaiting (fun c => c.phase == .waitSeal) status

/-- The transition that a `SERVICE_ENTER` or `SERVICE_LEAVE` waits for has come, or comes no more [17]. -/
def State.endServiceCmds (s : State) (status : Nat) : State :=
  s.endWaiting (fun c => c.phase == .waitEffect && (c.opcode == 0x13 || c.opcode == 0x14)) status

/-- An item of an S command forwarded to the partner; a STANDBY partner's acknowledgement is waited for. -/
def State.sendFor (s : State) (id : Nat) (o : Out) : State :=
  let m := s.pair.msgCount
  let t := s.send o
  if s.partner = .standby then t.modCmd id (fun c => { c with acks := c.acks ++ [m] })
  else if s.partner = .off then s
  else t

/-! DMA channels (R344). -/

/-- Whether an enabled channel serves a ring. -/
def State.chanServes (s : State) (ch ring : Nat) : Bool :=
  s.aget (F.dmaChnProg_en ch) == 1 && s.aget (F.dmaChnProg_port ch) == ring / 8
    && bitN (s.aget (F.dmaChnProg_rings ch)) (ring % 8)

/-- An idle channel: no command, and no plan waits (R344). -/
def State.chanIdle (s : State) (ch : Nat) : Bool :=
  vget s.dma.chan ch == none && !(s.rd R.sysApplyPend).getLsbD 12

def CmdPhase.waits (p : CmdPhase) : Bool := p == .needIn || p == .needOut

/-- The command a channel takes next: the lowest-numbered idle channel first, waiting commands of highest priority, then
in the order taken (R344). -/
def State.dmaPick (s : State) : Option (Nat × Cmd) :=
  let free := (List.range 16).filter s.chanIdle
  let cand := s.host.cmds.filterMap (fun c =>
    if c.phase.waits then (free.find? (fun ch => s.chanServes ch c.ring)).map (fun ch => (ch, c)) else none)
  cand.foldl (fun best x => match best with
    | none => some x
    | some b => if s.aget (F.dmaChnProg_prio b.1) < s.aget (F.dmaChnProg_prio x.1) then some x else some b) none

/-- Channels take waiting commands; a data command on a ring that no enabled channel serves completes with 0x0106. -/
def State.dmaServe : Nat → State → State
  | 0, s => s
  | n + 1, s =>
    match s.host.cmds.find? (fun c => c.phase.waits && !(List.range 16).any (fun ch => s.chanServes ch c.ring)) with
    | some c => State.dmaServe n (s.cmdDone c.id 0x0106 0)
    | none =>
      match s.dmaPick with
      | none => s
      | some (ch, c) =>
        let t := s.modCmd c.id (fun c => { c with phase := if c.phase = .needIn then .movingIn else .movingOut })
        let t := { t with dma := { t.dma with chan := vset t.dma.chan ch (some c.id), moved := vset t.dma.moved ch 0 } }
        let t := ((t.fset (F.dmaChnStatus_state ch) 1).fset (F.dmaChnStatus_ring ch) (c.ring % 8)).fset
          (F.dmaChnStatus_sequence ch) c.sequence
        State.dmaServe n t

def State.dmaGo (s : State) : State := State.dmaServe (2 * s.host.cmds.length + 1) s

/-- A channel's command leaves it: the channel is idle, or waits for a plan. -/
def State.dmaFree (s : State) (ch : Nat) : State :=
  { (s.fset (F.dmaChnStatus_state ch) 0).dmaWait with dma := { s.dma with chan := vset s.dma.chan ch none } }

/-- DMA_HALT (R346): address, side, direction and cause are latched, the halt recorded, MSI-X vector 2 raised. -/
def State.dmaHalt (s : State) (ch cause : Nat) (module_ write : Bool) (addr : W64) : State :=
  let s := (((s.fset (F.dmaChnStatus_state ch) 2).fset (F.dmaChnStatus_cause ch) cause).fsetb
    (F.dmaChnStatus_side ch) module_).fsetb (F.dmaChnStatus_write ch) write
  let s := ((s.wr64 (R.dmaChnFaultLo ch) addr).bump (R.dmaChnFaults ch)).fset ⟨R.dmaStatus, ch, 1⟩ 1
  (s.raise hapDmaHalt ch [addr, BitVec.ofNat 64 cause]).emit (.msix (s.aget (F.dmaChnProg_port ch)) 2)

end Sys2Proof.Machine
end

