-- ==== Sys2Proof/Machine/Guard.lean ====
section
/-!
DEFINITION. The codes every word carries: what a correctable or an uncorrectable word leads to (R383-R387).
-/

namespace Sys2Proof.Machine

/-! Errors (R383-R387). -/

def hapEcc : Hap := ⟨12, 2, 16, none, false⟩

/-- The memory region of an address in the MEM registers. -/
def regNum (a : Nat) : Nat :=
  match regionOf a with
  | some r => min r.num 7
  | none => 7

/-- ECC_CORRECTED: the read returns the corrected data, and the corrected word is written back (R383). -/
def State.eccCorrected (s : State) (a : Nat) : State := (s.bump (R.memRgrCe (regNum a))).obsCount 0x1000

/-- ECC_UNCORRECTABLE: the word is poisoned, counted, recorded and latched (R384). -/
def State.eccUe (s : State) (a : Nat) (scrub : Bool) : State :=
  let s := { s with mem := { s.mem with poison := s.mem.poison.add (a / 8) } }
  let s := (s.bump (R.memRgrUe (regNum a))).raise hapEcc (regNum a) [BitVec.ofNat 64 a]
  let s := (s.wr64 R.memUeLastLo (BitVec.ofNat 64 a)).wr R.memUeInfo (BitVec.ofNat 32 (regNum a + bit scrub * 8))
  { s with integ := { s.integ with lastUe := some s.time.tb3 } }.fset F.memStatus_ueSeen 1

/-- The bytes of a 256-byte block after a reinitialisation: zero where no symbol of kind 0 lies (R387). -/
def State.initBlock (s : State) (blk : Nat) : State × List W64 :=
  let a := blk * 256
  let s1 := s.wrMem a (List.replicate 256 0)
  let ys := (s.syms s.bank).filter (fun y => y.kind == 0 && 0x02000000 + y.off < a + 256 && a < 0x02000000 + y.off + y.size)
  (ys.foldl (fun t y => (t.wrMem (0x02000000 + y.off) (s.symInit s.bank y)).markDirty (0x02000000 + y.off) y.size)
    (s1.markDirty a 256), ys.map (·.id))

/-- INSTANCE_REINIT: the block is rewritten from `INIT` bytes and the event "instance block marked bad" is offered
(R387, R504). -/
def State.reinitBlock (s : State) (blk : Nat) : State :=
  let (s, ids) := s.initBlock blk
  let s := s.fset F.memUeInfo_reinit 1
  s.event 0x0003 16 0 (BitVec.ofNat 64 (blk * 256 + ids.length * 2 ^ 48) :: ids.take 3)

end Sys2Proof.Machine
end

