-- ==== Sys2Proof/Machine/RegRead.lean ====
section
/-!
DEFINITION. Reading the setup window: accesses refused or to a hole (R5, R30, R483), and the latch of the upper halves (R471).
-/

namespace Sys2Proof.Machine

/-- The first registers of the RO pairs `…_LO`, `…_HI`: offset, stride, number (R471). -/
def loPairs : List (Nat × Nat × Nat) := [
  (0x34, 0x4, 1), (0x1028, 0x4, 1), (0x2038, 0x4, 1), (0x303C, 0x4, 1),
  (0x3060, 0x4, 1), (0x4024, 0x4, 1), (0x4030, 0x4, 1), (0x4044, 0x4, 1),
  (0x5028, 0x4, 1), (0x8044, 0x4, 1), (0xB06C, 0x40, 2), (0xC108, 0x20, 16),
  (0xC114, 0x20, 16), (0xD108, 0x20, 4), (0xE020, 0x4, 1), (0xE02C, 0x4, 1),
  (0xE034, 0x4, 1), (0xE03C, 0x4, 1), (0xE060, 0x4, 1), (0xF018, 0x4, 1),
  (0x1001C, 0x4, 1), (0x13100, 0x4, 1), (0x13200, 0x40, 4), (0x13208, 0x40, 4),
  (0x13210, 0x40, 4), (0x13218, 0x40, 4), (0x13400, 0x10, 8)]

def isLo (off : Nat) : Bool :=
  loPairs.any (fun r => r.1 ≤ off && (off - r.1) % r.2.1 == 0 && (off - r.1) / r.2.1 < r.2.2)

/-- BAD_SETUP_ACCESS (R5, R30, R483): an access of another size or alignment, or to a hole, is counted and described. -/
def State.badAccess (s : State) (cls off : Nat) (write hole : Bool) : State :=
  (s.bump R.sysBadAccess).wr R.sysBadInfo
    (BitVec.ofNat 32 (off % 2 ^ 17 + cls % 8 * 2 ^ 20 + bit write * 2 ^ 23 + bit hole * 2 ^ 24))

/-- Whether the read path to a fitted cartridge is up (R423). -/
def State.cartLink (s : State) : Bool := s.fbit F.tcBay_link

/-- A read of the TC block from 0x100 up, or of the window, without a cartridge: an error response, counted (R31, R423). -/
def State.cartError (s : State) : State := s.bump R.tcReadErr

/-- An aligned 32-bit read by a class: a hole reads as zero and is counted; a WO register reads as zero (R8, R30); none: an
error response (R423). -/
def State.readReg (s : State) (cls off : Nat) : State × Option W32 :=
  if 0x13100 ≤ off ∧ off < 0x14000 ∧ !s.cartLink then (s.cartError, none)
  else
    match regRow off with
    | none => (s.badAccess cls off false true, some 0)
    | some r => (s, some (if r.access = .wo then 0 else s.rd off))

/-- The same for a reader that keeps latches: a read of `…_LO` latches `…_HI`, which then reads as latched (R471). -/
def State.readLatched (s : State) (m : Master) (off : Nat) : State × Option W32 :=
  let k := masterLatch m
  let r := s.readReg (masterCls m) off
  if r.2.isNone then r
  else if isLo off then
    let hi := s.rd (off + 4)
    ({ s with latch := (k, off + 4, hi) :: s.latch.filter (fun e => e.1 ≠ k || e.2.1 ≠ off + 4) }, r.2)
  else
    match s.latch.find? (fun e => e.1 == k && e.2.1 == off) with
    | some e => (s, some e.2.2)
    | none => r

/-- An access of a size other than 32 bits or not aligned (R5). -/
def badShape (off size : Nat) : Bool := size != 4 || off % 4 != 0

/-- `READ_LO_LATCH` (R5, R471): a read of the setup window by MC or a host. The data, or an error response, go out. -/
def execReadLoLatch (m : Master) (off size : Nat) (s : State) : Res :=
  if !s.masterRuns m then .next s
  else if badShape off size then .next ((s.badAccess (masterCls m) off false false).emit (.errorResponse m off))
  else
    let c := s.setupAccess m .read off
    if !c.2 then .next (c.1.emit (.errorResponse m off))
    else
      let r := c.1.readLatched m off
      match r.2 with
      | some v => .next (r.1.emit (.readData m off v))
      | none => .next (r.1.emit (.errorResponse m off))

/-- The bytes of the audit log at a window offset (R434): records of 16 bytes, zero beyond the last. -/
def Bay.window (b : Bay) (off n : Nat) : List Byte :=
  let recs := match b.cart with | some c => c.log | none => []
  let byte (a : Nat) : Byte :=
    match recs[a / 16]? with
    | some r => (leBytes 6 r.ops ++ leBytes 2 r.pcc ++ leBytes 2 r.code ++ leBytes 2 r.arg ++ leBytes 4 r.val.toNat).getD (a % 16) 0
    | none => 0
  (List.range n).map (fun i => byte (off + i))

end Sys2Proof.Machine
end

