-- ==== Sys2Proof/Machine/Float.lean ====
section
/-!
DEFINITION. IEEE 754-2019 arithmetic in binary32 and binary64 as R115 to R117 require it: every operation computes the
exact result as an integer times a power of two (with a mark for a non-zero rest below it) and rounds once.
-/

namespace Sys2Proof.Machine

/-- A binary format: width of the exponent field and of the fraction field. -/
structure FFmt where
  eb : Nat
  fb : Nat
  deriving DecidableEq, Repr

def ffmt (p : Bool) : FFmt := if p then ⟨11, 52⟩ else ⟨8, 23⟩

/-- The rounding modes of FL.`RM` (R108). -/
inductive RMode where
  | nearestEven | towardZero | up | down
  deriving DecidableEq, Repr

def rmode : Nat → RMode
  | 0 => .nearestEven | 1 => .towardZero | 2 => .up | _ => .down

/-- The sticky flags an operation sets: the low five bits of FL (R108). -/
abbrev FFlags := Nat
def fNV : FFlags := 1
def fDZ : FFlags := 2
def fOF : FFlags := 4
def fUF : FFlags := 8
def fNX : FFlags := 16

/-- A value: not a number (quiet or signalling), an infinity, or sign, integer and exponent: ±m × 2^e. -/
inductive FVal where
  | nan (signalling : Bool)
  | inf (s : Bool)
  | fin (s : Bool) (m : Nat) (e : Int)
  deriving DecidableEq, Repr

def FFmt.bias (f : FFmt) : Int := (2 ^ (f.eb - 1) - 1 : Nat)

/-- The exponent of the least significant bit of a subnormal. -/
def FFmt.emin (f : FFmt) : Int := 1 - f.bias - f.fb

def FFmt.signBit (f : FFmt) : Nat := 2 ^ (f.eb + f.fb)

/-- The value a bit pattern spells. -/
def FFmt.unpack (f : FFmt) (x : Nat) : FVal :=
  let s := bitN x (f.eb + f.fb)
  let e := fldN x f.fb f.eb
  let m := fldN x 0 f.fb
  if e = 2 ^ f.eb - 1 then (if m = 0 then .inf s else .nan (!bitN m (f.fb - 1)))
  else if e = 0 then .fin s m f.emin
  else .fin s (m + 2 ^ f.fb) (f.emin + (e - 1 : Nat))

def FFmt.packSign (f : FFmt) (s : Bool) (x : Nat) : Nat := if s then x + f.signBit else x

/-- The default quiet NaN (R116). -/
def FFmt.qnan (f : FFmt) : Nat := (2 ^ f.eb - 1) * 2 ^ f.fb + 2 ^ (f.fb - 1)
def FFmt.infBits (f : FFmt) (s : Bool) : Nat := f.packSign s ((2 ^ f.eb - 1) * 2 ^ f.fb)
def FFmt.maxFin (f : FFmt) (s : Bool) : Nat := f.packSign s ((2 ^ f.eb - 1) * 2 ^ f.fb - 1)

/-- Whether a magnitude with round bit `r` and a rest `st` below it is rounded away from zero. -/
def roundsAway (rm : RMode) (s odd r st : Bool) : Bool :=
  match rm with
  | .nearestEven => r && (odd || st)
  | .towardZero => false
  | .up => !s && (r || st)
  | .down => s && (r || st)

/-- `m` × 2^e (plus a rest below when `st`) as an integer multiple of 2^q: the multiple rounded, and whether inexact. -/
def roundTo (rm : RMode) (s : Bool) (m : Nat) (e : Int) (st : Bool) (q : Int) : Nat × Bool :=
  if q ≤ e then (m * 2 ^ (e - q).toNat, st)
  else
    let d := (q - e).toNat
    let k := m / 2 ^ d
    let r := bitN m (d - 1)
    let rest := decide (m % 2 ^ (d - 1) ≠ 0) || st
    (if roundsAway rm s (k % 2 == 1) r rest then k + 1 else k, r || rest)

/-- ±(m + rest) × 2^e rounded into the format (R115): the bits and the flags raised. `m` has at least two bits more than
the format's precision when `st` marks a rest. -/
def FFmt.round (f : FFmt) (rm : RMode) (s : Bool) (m : Nat) (e : Int) (st : Bool) : Nat × FFlags :=
  if m = 0 then (f.packSign s 0, 0)
  else
    let top : Int := (Nat.log2 m : Int) + e
    let qn : Int := top - f.fb
    let q : Int := max qn f.emin
    let (k, nx) := roundTo rm s m e st q
    -- tininess: before rounding, or with the exponent range unbounded after rounding
    let before := decide (top < f.emin + f.fb)
    let after := before && decide ((roundTo rm s m e st qn).1 < 2 ^ (f.fb + 1) ∨ top + 1 < f.emin + f.fb)
    let tiny := if Config.tinyAfterRounding then after else before
    let (k, q) := if k = 2 ^ (f.fb + 1) then (2 ^ f.fb, q + 1) else (k, q)
    if k < 2 ^ f.fb then (f.packSign s k, (if nx then fNX else 0) + (if nx && tiny then fUF else 0))
    else
      let ef : Int := q - f.emin + 1
      if ef ≥ (2 ^ f.eb - 1 : Nat) then
        let toInf := match rm with
          | .nearestEven => true
          | .towardZero => false
          | .up => !s
          | .down => s
        (if toInf then f.infBits s else f.maxFin s, fOF + fNX)
      else (f.packSign s (ef.toNat * 2 ^ f.fb + (k - 2 ^ f.fb)), (if nx then fNX else 0) + (if nx && tiny then fUF else 0))

def FVal.isNaN : FVal → Bool
  | .nan _ => true
  | _ => false

def FVal.isSNaN : FVal → Bool
  | .nan true => true
  | _ => false

def FVal.neg : FVal → FVal
  | .nan q => .nan q
  | .inf s => .inf (!s)
  | .fin s m e => .fin (!s) m e

/-- The invalid-operation flag for signalling operands. -/
def snanFlag (xs : List FVal) : FFlags := if xs.any FVal.isSNaN then fNV else 0

/-- The sum of two finite values, exactly; the sign of an exact zero sum follows IEEE 754. -/
def addFin (rm : RMode) (s1 : Bool) (m1 : Nat) (e1 : Int) (s2 : Bool) (m2 : Nat) (e2 : Int) : Bool × Nat × Int :=
  let e := min e1 e2
  let a : Int := (m1 * 2 ^ (e1 - e).toNat : Nat)
  let b : Int := (m2 * 2 ^ (e2 - e).toNat : Nat)
  let t := (if s1 then -a else a) + (if s2 then -b else b)
  if t = 0 then
    (if s1 = s2 then s1 else decide (rm = .down), 0, e)
  else (decide (t < 0), t.natAbs, e)

/-- a + b (R115). -/
def fadd (f : FFmt) (rm : RMode) (a b : FVal) : Nat × FFlags :=
  match a, b with
  | .nan _, _ => (f.qnan, snanFlag [a, b])
  | _, .nan _ => (f.qnan, snanFlag [a, b])
  | .inf s, .inf t => if s = t then (f.infBits s, 0) else (f.qnan, fNV)
  | .inf s, .fin _ _ _ => (f.infBits s, 0)
  | .fin _ _ _, .inf s => (f.infBits s, 0)
  | .fin s1 m1 e1, .fin s2 m2 e2 =>
    let (s, m, e) := addFin rm s1 m1 e1 s2 m2 e2
    f.round rm s m e false

/-- a − b (R115). -/
def fsub (f : FFmt) (rm : RMode) (a b : FVal) : Nat × FFlags := fadd f rm a b.neg

/-- a × b (R115). -/
def fmul (f : FFmt) (rm : RMode) (a b : FVal) : Nat × FFlags :=
  match a, b with
  | .nan _, _ => (f.qnan, snanFlag [a, b])
  | _, .nan _ => (f.qnan, snanFlag [a, b])
  | .inf s, .inf t => (f.infBits (s != t), 0)
  | .inf s, .fin t m _ => if m = 0 then (f.qnan, fNV) else (f.infBits (s != t), 0)
  | .fin s m _, .inf t => if m = 0 then (f.qnan, fNV) else (f.infBits (s != t), 0)
  | .fin s m e, .fin t n g => f.round rm (s != t) (m * n) (e + g) false

/-- a ÷ b (R115). The quotient is taken with three bits more than twice the precision and a mark for the rest. -/
def fdiv (f : FFmt) (rm : RMode) (a b : FVal) : Nat × FFlags :=
  match a, b with
  | .nan _, _ => (f.qnan, snanFlag [a, b])
  | _, .nan _ => (f.qnan, snanFlag [a, b])
  | .inf _, .inf _ => (f.qnan, fNV)
  | .inf s, .fin t _ _ => (f.infBits (s != t), 0)
  | .fin s _ _, .inf t => (f.packSign (s != t) 0, 0)
  | .fin s m e, .fin t n g =>
    if n = 0 then (if m = 0 then (f.qnan, fNV) else (f.infBits (s != t), fDZ))
    else if m = 0 then (f.packSign (s != t) 0, 0)
    else
      let k := 2 * f.fb + 6
      let q := m * 2 ^ k / n
      f.round rm (s != t) q (e - g - k) (decide (m * 2 ^ k % n ≠ 0))

/-- The integer square root of `x`, found bit by bit from bit `n - 1` down. -/
def isqrtFrom : Nat → Nat → Nat → Nat
  | 0, _, r => r
  | n + 1, x, r =>
    let c := r + 2 ^ n
    isqrtFrom n x (if c * c ≤ x then c else r)

/-- The square root of a (R115). -/
def fsqrt (f : FFmt) (rm : RMode) (a : FVal) : Nat × FFlags :=
  match a with
  | .nan _ => (f.qnan, snanFlag [a])
  | .inf s => if s then (f.qnan, fNV) else (f.infBits false, 0)
  | .fin s m e =>
    if m = 0 then (f.packSign s 0, 0)
    else if s then (f.qnan, fNV)
    else
      let k := 2 * (f.fb + 4) + (if e % 2 = 0 then 0 else 1)
      let x := m * 2 ^ k
      let r := isqrtFrom (2 * f.fb + 6) x 0
      f.round rm false r ((e - k) / 2) (decide (r * r ≠ x))

/-- a × b + c with one rounding (R116). -/
def ffma (f : FFmt) (rm : RMode) (a b c : FVal) : Nat × FFlags :=
  let zeroTimesInf := match a, b with
    | .inf _, .fin _ m _ => decide (m = 0)
    | .fin _ m _, .inf _ => decide (m = 0)
    | _, _ => false
  if zeroTimesInf then
    (f.qnan, if c.isNaN && !c.isSNaN && !Config.fmaInvalidOnQuiet then 0 else fNV)
  else if a.isNaN || b.isNaN || c.isNaN then (f.qnan, snanFlag [a, b, c])
  else
    match a, b, c with
    | .fin s m e, .fin t n g, .fin u p h =>
      let (s', m', e') := addFin rm (s != t) (m * n) (e + g) u p h
      f.round rm s' m' e' false
    | .fin _ _ _, .fin _ _ _, .inf u => (f.infBits u, 0)
    | .inf s, .inf t, .inf u => if (s != t) = u then (f.infBits u, 0) else (f.qnan, fNV)
    | .inf s, .fin t _ _, .inf u => if (s != t) = u then (f.infBits u, 0) else (f.qnan, fNV)
    | .fin s _ _, .inf t, .inf u => if (s != t) = u then (f.infBits u, 0) else (f.qnan, fNV)
    | .inf s, .inf t, _ => (f.infBits (s != t), 0)
    | .inf s, .fin t _ _, _ => (f.infBits (s != t), 0)
    | .fin s _ _, .inf t, _ => (f.infBits (s != t), 0)
    | _, _, _ => (f.qnan, 0)

/-- The order of two values that are no NaN; +0 and −0 are equal. -/
def fltVal : FVal → FVal → Bool
  | .inf s, .inf t => s && !t
  | .inf s, _ => s
  | _, .inf t => !t
  | .fin s m e, .fin t n g =>
    let q := min e g
    let a : Int := (m * 2 ^ (e - q).toNat : Nat)
    let b : Int := (n * 2 ^ (g - q).toNat : Nat)
    decide ((if s then -a else a) < (if t then -b else b))
  | _, _ => false

def feqVal (a b : FVal) : Bool := !a.isNaN && !b.isNaN && !fltVal a b && !fltVal b a

def FVal.sign : FVal → Bool
  | .nan _ => false
  | .inf s => s
  | .fin s _ _ => s

/-- FMIN and FMAX (R116): the other operand of a NaN, the default NaN for two; −0 below +0. -/
def fminmax (f : FFmt) (wantMax : Bool) (x y : Nat) : Nat × FFlags :=
  let a := f.unpack x
  let b := f.unpack y
  let fl := snanFlag [a, b]
  if a.isNaN && b.isNaN then (f.qnan, fl)
  else if a.isNaN then (y, fl)
  else if b.isNaN then (x, fl)
  else
    let aLess := fltVal a b || (feqVal a b && a.sign && !b.sign)
    (if aLess != wantMax then x else y, fl)

/-- A value to an integer rounded in a mode; `none` for a NaN or an infinity, with the inexact mark. -/
def toIntVal (rm : RMode) : FVal → Option (Int × Bool)
  | .fin s m e =>
    let (k, nx) := roundTo rm s m e false 0
    some (if s then -(k : Int) else k, nx)
  | _ => none

/-- Conversion to an integer within `lo` to `hi` (R117). -/
def fToInt (rm : RMode) (lo hi : Int) (a : FVal) : Int × FFlags :=
  match a with
  | .nan _ => (0, fNV)
  | .inf s => (if s then lo else hi, fNV)
  | .fin _ _ _ =>
    match toIntVal rm a with
    | some (k, nx) => if k < lo then (lo, fNV) else if hi < k then (hi, fNV) else (k, if nx then fNX else 0)
    | none => (0, fNV)

/-- An integer to the format (R117). -/
def intToF (f : FFmt) (rm : RMode) (k : Int) : Nat × FFlags := f.round rm (decide (k < 0)) k.natAbs 0 false

/-- A value of one format to another (R117, FWIDEN and FNARROW). -/
def fConv (f : FFmt) (rm : RMode) (a : FVal) : Nat × FFlags :=
  match a with
  | .nan _ => (f.qnan, snanFlag [a])
  | .inf s => (f.infBits s, 0)
  | .fin s m e => f.round rm s m e false

end Sys2Proof.Machine
end

