-- ==== Sys2Proof/Machine/DruOps.lean ====
section
/-!
DEFINITION. What every drupelet instruction shares: the registers (R105), the fetch through the instruction half (R104),
the footprint sets (R121), loads and stores through the commit buffer (R86), the ends of windows (R87-R93, R128) and
exceptions (R129-R133); and the dealing of work (R78-R80).
-/

namespace Sys2Proof.Machine

/-! Registers. G0 reads zero and discards writes (R105). -/

def gReg (c : Core) (i : Fin 32) : W64 := if i = 0 then 0 else c.g[i]
def gSet (c : Core) (i : Fin 32) (v : W64) : Core := if i = 0 then c else { c with g := c.g.set i v }

/-- The next instruction; after the last word of the bank the 24-bit PC is 0, where the fetch raises `FETCH` [111]. -/
def nextPc (c : Core) : Core := { c with pc := c.pc + 4 }

/-- Sticky flags set in FL (R108). -/
def setFlags (c : Core) (fl : Nat) : Core := { c with fl := c.fl ||| BitVec.ofNat 64 fl }

def flDZI : Nat := 0x20
def flIV : Nat := 0x40
def flSAT : Nat := 0x80

/-- FL.`RM` and FL.`EXM` (R108). -/
def coreRM (c : Core) : RMode := rmode (fldN c.fl.toNat 8 2)
def coreEXM (c : Core) : Bool := c.fl.getLsbD 10

/-! Drupelets in the state. -/

def State.dru (s : State) (be : Fin 32) : Drupelet := s.brm.be[be]
def State.setDru (s : State) (be : Fin 32) (d : Drupelet) : State := { s with brm := { s.brm with be := s.brm.be.set be d } }
def State.setWin (s : State) (be : Fin 32) (w : Option Window) : State := s.setDru be { s.dru be with win := w }

/-- `BRM_BEn_STATE.STATE` (R103). -/
def dstCode : DState → Nat
  | .active => 0 | .selfTest => 1 | .pending => 2 | .retired => 3 | .clusterDown => 4 | .traced => 5

/-- How many transients the last 86,400 operating seconds hold (R94). -/
def recent (now : Nat) (ts : List Nat) : List Nat := ts.filter (fun t => decide (now < t + 86400))

/-- The masks and counts of the BRM block follow the drupelets' states (R101). -/
def State.showBrm (s : State) : State :=
  let ds := (List.finRange 32).map (fun i => (i.val, s.dru i))
  let mask (p : Drupelet → Bool) : Nat := ds.foldl (fun m e => if p e.2 then m + 2 ^ e.1 else m) 0
  let count (p : Drupelet → Bool) : Nat := (ds.filter (fun e => p e.2)).length
  let isT (d : Drupelet) : Bool := d.st == .selfTest || d.st == .pending
  let s := ds.foldl (fun s e =>
    s.wr (R.brmBenState e.1) (BitVec.ofNat 32 (dstCode e.2.st + e.2.verdict.toNat * 16 + bit e.2.verdictCore * 64
      + min 3 (recent s.time.tb3 e.2.transients).length * 256 + e.2.lastChain.toNat * 65536))) s
  let s := s.wr R.brmAvailMask (BitVec.ofNat 32 (mask (·.st == .active)))
  let s := s.wr R.brmSelftestMask (BitVec.ofNat 32 (mask isT))
  let s := s.wr R.brmRetiredMask (BitVec.ofNat 32 (mask (·.st == .retired)))
  let s := s.wr R.brmReserve (BitVec.ofNat 32 (count (·.st == .active) + count isT * 2 ^ 8
    + count (·.st == .retired) * 2 ^ 16 + count (·.st == .clusterDown) * 2 ^ 24))
  let s := s.fsetb F.brmStatus_reserveUsed (ds.any (fun e => e.2.st == .retired))
  let s := s.fsetb F.brmStatus_lockstepOff (ds.any (fun e => e.2.st == .traced))
  s.fsetb F.brmStatus_selftest (ds.any (fun e => isT e.2))

/-! Dealing (R78-R80). -/

def dqCap : Nat := 1024

def clsIx (c : Cls) : Nat := c.num

/-- Whether drupelet `i` is active and its deque of the class has room. -/
def State.roomy (s : State) (c : Cls) (i : Fin 32) : Bool :=
  (s.dru i).st == .active && decide ((vget (s.dru i).deques (clsIx c)).length < dqCap)

/-- The drupelets in the order in which a push that finds the deque of `be` full tries them (R79). -/
def spillOrder (be : Fin 32) : List (Fin 32) :=
  let c := be.val / 8
  let own := (List.range 8).map (fun k => c * 8 + (be.val % 8 + k) % 8)
  let rest := [1, 2, 3].flatMap (fun j => (List.range 8).map (fun k => (c + j) % 4 * 8 + k))
  (own ++ rest).map (Fin.ofNat 32)

/-- The clock tree of a drupelet's cluster is not gated off (R22). -/
def State.ungate (s : State) (be : Fin 32) : State :=
  let t := { s with clk := vmod s.clk (be.val / 8) (fun c => { c with gated := false }) }
  if s.fbit ⟨R.wfStatus, 4 + be.val / 8, 1⟩ then t.fset ⟨R.wfStatus, 4 + be.val / 8, 1⟩ 0 else t

/-- Pushes ready work, to the tail of the deque it spills to, or of the class's overflow queue (R79); the release of a chain to
a cluster ungates its clock (R22). -/
def State.push (s : State) (be : Fin 32) (c : Cls) (w : Work) : State :=
  match (spillOrder be).find? (s.roomy c) with
  | some i => (s.ungate i).setDru i { s.dru i with deques := vmod (s.dru i).deques (clsIx c) (· ++ [w]) }
  | none => { s with brm := { s.brm with overflow := vmod s.brm.overflow (clsIx c) (· ++ [w]) } }

/-- The active drupelets in ascending order. -/
def State.actives (s : State) : List (Fin 32) := (List.finRange 32).filter (fun i => (s.dru i).st == .active)

/-- Deals work round-robin over the active drupelets from the lowest (R79). -/
def State.deal (s : State) (c : Cls) (ws : List Work) : State :=
  let act := s.actives
  if act = [] then { s with brm := { s.brm with overflow := vmod s.brm.overflow (clsIx c) (· ++ ws) } }
  else (ws.zipIdx).foldl (fun s (w, k) => s.push ((act[k % act.length]?).getD 0) c w) s

def hapTraceOn : Hap := ⟨3, 8, 2, some 1, false⟩
def hapTraceOff : Hap := ⟨3, 9, 2, some 0, false⟩

/-- Step-exact trace ends: the drupelet runs the self-test of R94 (R451). -/
def State.traceStop (s : State) : State :=
  let s1 := { s with obs := { s.obs with drain := none, traced := none, endStep := false, snap := none, replica := none } }
  match s.obs.traced with
  | none => s1
  | some i =>
    let be := Fin.ofNat 32 i
    let s1 := s1.setDru be { s.dru be with st := .selfTest, wasTraced := true, win := none, lines := [] }
    ((s1.fset F.obsStatus_step 0).fset F.obsStatus_stepBe 0).showBrm.raise hapTraceOff i []

/-- The entries of a drupelet that stops being active move to the tails of the overflow queues (R78). -/
def State.leavePool (s : State) (be : Fin 32) (st : DState) : State :=
  let d := s.dru be
  let s := { s with brm := { s.brm with
    overflow := [0, 1, 2, 3].foldl (fun o c => vmod o c (· ++ vget d.deques c)) s.brm.overflow } }
  (s.setDru be { d with st := st, deques := Vector.replicate 4 [], yieldReq := false, win := none }).showBrm

/-- A drupelet stops being active (R78). A trace that fewer than 30 others survive ends at once (R451). -/
def State.deactivate (s : State) (be : Fin 32) (st : DState) : State :=
  let s := s.leavePool be st
  let s := if s.obs.drain = some be.val then { s with obs := { s.obs with drain := none } } else s
  if s.obs.traced.isSome ∧ s.actives.length < 30 then s.traceStop else s

/-- The drupelet that a selection names becomes traced once its window has ended (R450). -/
def State.traceEnter (s : State) (be : Fin 32) : State :=
  if s.obs.drain = some be.val ∧ (s.dru be).win = none ∧ (s.dru be).st = .active then
    let s := { s.leavePool be .traced with obs := { s.obs with drain := none, traced := some be.val } }
    ((s.fset F.obsStatus_step 1).fset F.obsStatus_stepBe be.val).raise hapTraceOn be.val []
  else s

/-- A chain-trace record of a window end (R447). -/
def State.obsWindow (s : State) (be : Fin 32) (w : Window) (how : ObsEnd) : State :=
  if s.obsOn 0 then
    s.obsCollect (.chain w.oc.work.chain w.oc.window be.val (s.rd R.scanCycleLo) how
      (w.stores.filter (fun b => !b.fill)).length w.core.sig)
  else s

/-! Completion of chains and periods. -/

def clsSlot : Cls → Option Nat
  | .f => some 0 | .n => some 1 | .s => some 2 | .e => none

def State.clsRun (s : State) (k : Nat) : ClassRun := vget s.scan.cls k
def State.modCls (s : State) (k : Nat) (f : ClassRun → ClassRun) : State :=
  { s with scan := { s.scan with cls := vmod s.scan.cls k f } }

/-- The number of the period in which a class runs; an error task's is the F-cycle. -/
def State.period (s : State) (c : Cls) : W64 :=
  match clsSlot c with | some k => (s.clsRun k).cycle | none => s.rd64 R.scanCycleLo

/-- Freeze to completion of a period, in µs (R69). -/
def State.execTime (s : State) (k : Nat) : State :=
  let us := (s.scanTime - (s.clsRun k).freezeTime).toNat / 1000
  let s := s.wr (R.scanChnExecLast k) (BitVec.ofNat 32 us)
  s.wr (R.scanChnExecMax k) (BitVec.ofNat 32 (max us (s.rd (R.scanChnExecMax k)).toNat))

/-- A class's last chain has completed: an N or S period is complete and counted (R46, R62), its commit outstanding. An
F-cycle is complete only at its seal or publish (R42). -/
def State.clsComplete (s : State) (k : Nat) : State :=
  let c := s.clsRun k
  if c.released ∧ !c.complete then
    let s := if k = 0 then s
      else ((s.execTime k).bump (R.scanChnCount k)).fsetb (if k = 1 then F.scanStatus_nLate else F.scanStatus_sLate) c.late
    s.modCls k (fun c => { c with complete := true, doneIn := c.doneIn ++ [(s.rd64 R.scanCycleLo, c.cycle, c.freezeTime)] })
  else s

/-- PERIOD_RELEASE (R79): the chains of a class become open, and its root chains are dealt round-robin in ascending index.
A class without chains is complete at once. -/
def State.releasePeriod (s : State) (k : Nat) : State :=
  let cls := Cls.ofCode (k + 1)
  let ds := (s.chains s.bank).filter (fun d => d.cls == cls)
  let ix := sortNat (ds.map (·.chain))
  let s := { s with brm := { s.brm with
    openChains := s.brm.openChains ++ ix
    waiting := s.brm.waiting.filter (fun (e : Nat × Nat) => !ix.contains e.1)
      ++ (ds.filter (fun (d : ChainDesc) => d.nPred ≠ 0)).map (fun (d : ChainDesc) => (d.chain, d.nPred)) } }
  let s := s.modCls k (fun c => { c with released := true, frozen := false })
  let roots := ix.filter (fun i => ds.any (fun d => d.chain == i && d.nPred == 0))
  let s := s.deal cls (roots.map (fun i => { chain := i }))
  if ds = [] then s.clsComplete k else s

/-- The error phase ends: F chains are released (R54). -/
def State.releaseF (s : State) : State :=
  if s.scan.step = .errors then { s.releasePeriod 0 with scan := { (s.releasePeriod 0).scan with step := .execute } } else s

/-- Starts every error task execution none of whose predecessors of the same task is open: its root chains go to the E
deque of the drupelet it is placed on (R54). -/
def State.startETasks (s : State) : State :=
  let rec go (s : State) (before : List Nat) : List ETask → State
    | [] => s
    | t :: r =>
      if t.started ∨ before.contains t.task then go s (t.task :: before) r
      else
        let roots := t.chains.filter (fun c => match s.chain c with | some d => d.nPred == 0 | none => false)
        let s := roots.foldl (fun s c => s.push (Fin.ofNat 32 t.be) .e { chain := c, slot := t.slot }) s
        let s := { s with brm := { s.brm with etasks := s.brm.etasks.map (fun x => if x.slot = t.slot then { x with started := true } else x) } }
        go s (t.task :: before) r
  go s [] s.brm.etasks

/-- A chain of an error task completes: its ready successors are pushed onto the E deque of the drupelet the task is placed on, in
ascending index, and when it was the task's last chain the execution ends and is counted (R54). -/
def State.eDone (s : State) (w : Work) (d : ChainDesc) : State :=
  match s.brm.etasks.find? (·.slot == w.slot) with
  | none => s
  | some t =>
    let t := { t with done := w.chain :: t.done }
    let ready := (sortNat (s.succs d)).filter (fun c => t.chains.contains c &&
      (match s.chain c with | some e => (s.preds e).all t.done.contains | none => false))
    if t.chains.all t.done.contains then
      let s := ({ s with brm := { s.brm with etasks := s.brm.etasks.filter (·.slot ≠ w.slot) } }.bump R.scanECount).startETasks
      if s.brm.etasks = [] then s.releaseF else s
    else
      let s := { s with brm := { s.brm with etasks := s.brm.etasks.map (fun x => if x.slot = w.slot then t else x) } }
      ready.foldl (fun s c => s.push (Fin.ofNat 32 t.be) .e { chain := c, slot := w.slot }) s

/-- A chain is complete (R89): its signature is recorded, its successors are pushed in ascending index, and when no
chain of its class is open the class is complete. -/
def State.chainDone (s : State) (be : Fin 32) (oc : OpenChain) (sig : W64) : State :=
  let s := match s.obs.snap with
    | some x => if x.work = oc.work ∧ s.obs.traced.isSome then { s with obs := { s.obs with snap := none, replica := some x } } else s
    | none => s
  let period := s.period oc.desc.cls
  let r : SigRec := { chain := oc.work.chain, slot := oc.work.slot, sig := sig, execMask := oc.execMask, cycle := period }
  let s := { s with brm := { s.brm with
    sigs := r :: s.brm.sigs.filter (·.chain ≠ r.chain), newSigs := s.brm.newSigs ++ [r]
    snaps := s.brm.snaps.filter (fun (x : Snapshot) => x.work.chain ≠ r.chain || (x.work == oc.work && x.cycle == period))
    executedN := vmod s.brm.executedN oc.desc.cls.num (· + 1) } }
  if oc.desc.cls = .e then s.eDone oc.work oc.desc
  else
    let s := { s with brm := { s.brm with openChains := s.brm.openChains.filter (· ≠ oc.work.chain) } }
    let s := (sortNat (s.succs oc.desc)).foldl (fun s c =>
      match s.brm.waiting.find? (·.1 == c) with
      | none => s
      | some (_, n) =>
        let s := { s with brm := { s.brm with waiting := s.brm.waiting.map (fun e => if e.1 = c then (c, n - 1) else e) } }
        if n = 1 then s.push be oc.desc.cls { chain := c } else s) s
    match clsSlot oc.desc.cls with
    | none => s
    | some k =>
      if s.brm.openChains.any (fun c => match s.chain c with | some d => d.cls == oc.desc.cls | none => false) then s
      else s.clsComplete k

/-! Addresses as a drupelet sees them. -/

/-- Whether `n` bytes from an address lie in a range. -/
def inRange (a n lo len : Nat) : Bool := lo ≤ a && a + n ≤ lo + len

def scrBase : Nat := 0x04020000
def scrLen : Nat := 0x1B800
def inScratch (a n : Nat) : Bool := inRange a n scrBase scrLen

/-- The scratch view maps onto the drupelet's own local (R28). -/
def physOf (be : Fin 32) (a : Nat) : Nat :=
  if inScratch a 1 then a + be.val * 0x40000 else a

/-! Window ends. -/

def hapMismatch : Hap := ⟨3, 1, 2, none, false⟩
def hapBrambleFault : Hap := ⟨3, 2, 2, none, false⟩
def hapException : Hap := ⟨2, 3, 2, none, false⟩
def hapAbandon : Hap := ⟨2, 4, 2, none, false⟩

/-- A signature mismatch (R91, R93): the stores are discarded, a restart entry waits in the cluster's slot, the drupelet
leaves the pool and starts its self-test; the fourth mismatch of a window in a period is a Bramble fault. -/
def State.mismatch (s : State) (be : Fin 32) (w : Window) : State :=
  let oc := { w.oc with mismatches := w.oc.mismatches + 1, barred := w.oc.barred ||| BitVec.ofNat 32 (2 ^ be.val) }
  let s := ((s.obsWindow be w .mismatch).bump R.brmMismatch).bump (R.brmBenMismatch be.val)
  let s := s.setDru be { s.dru be with lastChain := BitVec.ofNat 14 oc.work.chain }
  let s := s.deactivate be .selfTest
  let s := s.raise hapMismatch be.val [BitVec.ofNat 64 oc.work.chain]
  if oc.mismatches ≥ 4 then
    let s := (s.fset F.brmStatus_brambleFault 1).raise hapBrambleFault be.val [BitVec.ofNat 64 oc.work.chain]
    if s.mod = .primary then s.forceZero causeBramble else s
  else { s with brm := { s.brm with restarts := s.brm.restarts ++ [(be.val / 8, oc)] } }

/-- Whether a window is one of an audit replica, and whether one of a trace replica. -/
def Window.audit (w : Window) : Bool := w.rep.any (fun r => r.kind == .audit)
def Window.traced (w : Window) : Bool := w.rep.any (fun r => r.kind == .trace)

/-- `AUDIT_RUN`: an audit replica is open on a drupelet (R101). -/
def State.showAudit (s : State) : State :=
  s.fsetb F.brmStatus_auditRun (s.brm.be.toList.any (fun (d : Drupelet) => d.win.any Window.audit))

/-- A window that starts on a drupelet from a checkpoint (R84); its cluster's clock tree is not gated (R22). -/
def State.openWindow (s : State) (be : Fin 32) (oc : OpenChain) (upset upsetH : W64) (rep : Option Replica) : State :=
  (s.ungate be).setWin be (some { oc := oc, core := oc.cp, upset := upset, upsetH := upsetH, start := s.time.tb1, rep := rep })

/-- The window of a replica after its end: its own stores are what its later windows read, and reach no memory (R98, R450). -/
def Replica.store (r : Replica) (w : Window) : Replica :=
  { r with snap := { r.snap with cells := w.stores.foldl (fun (m : List Host.Cell) (b : Buffered) =>
      (leBytes b.size b.data.toNat).zipIdx.foldl (fun m e => sset (fun _ => 0) m (b.addr + e.2) e.1) m) r.snap.cells } }

/-- The checkpoint at a window's end (R84). -/
def Window.after (w : Window) : OpenChain := { w.oc with cp := w.core, window := w.oc.window + 1, mismatches := 0, barred := 0 }

/-- A window of a trace replica ends: nothing is compared and nothing is committed, and the replica goes on or ends (R450). -/
def State.traceEnd (s : State) (be : Fin 32) (w : Window) (r : Replica) (chainEnd : Bool) : State :=
  if chainEnd then s.setWin be none else s.openWindow be w.after 0 0 (some (r.store w))

/-- An audit replica leaves its drupelet for a checkpoint, from which it goes on on any drupelet that R98 and R100 allow it
(R393). -/
def State.auditLeave (s : State) (be : Fin 32) (oc : OpenChain) (r : Replica) : State :=
  let s := { s with brm := { s.brm with audits := s.brm.audits.map (fun (a : Audit) =>
    if a.place = RepAt.on be.val then { a with place := .yielded oc r.snap } else a) } }
  (s.setDru be { s.dru be with win := none, yieldReq := false }).showAudit

/-- An audit whose replica runs on a drupelet is given up; the execution stays unaudited. -/
def State.auditDrop (s : State) (be : Fin 32) : State :=
  let s := { s with brm := { s.brm with audits := s.brm.audits.filter (fun (a : Audit) => a.place ≠ RepAt.on be.val) } }
  (s.setDru be { s.dru be with win := none, yieldReq := false }).showAudit

/-- A signature mismatch on an audit replica (R91): the drupelet leaves the pool and starts its self-test; the replica goes on
from its checkpoint on another drupelet, and is given up at its window's fourth mismatch [108]. -/
def State.auditMismatch (s : State) (be : Fin 32) (w : Window) (r : Replica) : State :=
  let oc := { w.oc with mismatches := w.oc.mismatches + 1, barred := w.oc.barred ||| BitVec.ofNat 32 (2 ^ be.val) }
  let s := (s.bump R.brmMismatch).bump (R.brmBenMismatch be.val)
  let s := s.setDru be { s.dru be with lastChain := BitVec.ofNat 14 oc.work.chain }
  let s := if oc.mismatches ≥ 4 then s.auditDrop be else s.auditLeave be oc r
  (s.deactivate be .selfTest).raise hapMismatch be.val [BitVec.ofNat 64 oc.work.chain]

/-- How long a window has held its drupelet in the present F-cycle, in ns. -/
def State.heldNs (s : State) (w : Window) : Nat :=
  (s.time.tb1 - (if w.start.toNat < s.brm.cycleAt.toNat then s.brm.cycleAt else w.start)).toNat

/-- The time of a window that ends is the audit's or the foreground's (R99). -/
def State.spend (s : State) (w : Window) : State :=
  if w.traced then s
  else if w.audit then { s with brm := { s.brm with auditNs := s.brm.auditNs + s.heldNs w } }
  else { s with brm := { s.brm with fgNs := s.brm.fgNs + s.heldNs w } }

/-- The two cores of a window disagree (R91). -/
def State.differ (s : State) (be : Fin 32) (w : Window) : State :=
  match w.rep with
  | some r => (s.spend w).auditMismatch be w r
  | none => (s.spend w).mismatch be w

/-- Whether the commit of a window is in progress; whether one is that stores into a 256-byte block, or into a block of a span:
another master's access to the block waits for its end (R88, R394, R449). -/
def Window.commits (w : Window) : Bool := w.rep.isNone && (match w.phase with | .committing _ => true | _ => false)
def State.commitOn (s : State) (blk : Nat) : Bool :=
  (List.finRange 32).any (fun i => match (s.dru i).win with
    | some w => w.commits && w.stores.any (fun b => physOf i b.addr / 256 == blk)
    | none => false)
def State.commitSpan (s : State) (a n : Nat) : Bool :=
  (List.finRange 32).any (fun i => match (s.dru i).win with
    | some w => w.commits && w.stores.any (fun b => decide (a / 256 ≤ physOf i b.addr / 256 ∧ physOf i b.addr / 256 ≤ (a + n - 1) / 256))
    | none => false)
def State.committing (s : State) : Bool := s.brm.be.toList.any (fun (d : Drupelet) => d.win.any Window.commits)

/-- Whether a copy that is under way holds a window's commit back: it would write a block already sent (R205). -/
def State.copyHolds (s : State) (be : Fin 32) (w : Window) : Bool :=
  s.scan.step == .copy && w.stores.any (fun b => s.pair.passed.has (physOf be b.addr / 256))

/-- A window ends at an instruction boundary and the comparator compares the signatures (R87): a match starts the commit, or waits
for the end of a copy. An audit replica's window commits nothing; its end comes where a commit would end. -/
def State.windowEnd (s : State) (be : Fin 32) (w : Window) (chainEnd : Bool) : State :=
  if w.traced then (match w.rep with | some r => s.traceEnd be w r chainEnd | none => s)
  else if w.upset ≠ 0 then s.differ be w
  else
    let p : WinPhase := if w.rep.isNone && s.copyHolds be w then .copyHeld chainEnd else .committing chainEnd
    (s.spend w).setWin be (some { w with phase := p })

/-- The exception record: code, PC of the faulting instruction, `TRAP` immediate (R131). -/
def excRecord (code : Nat) (pc : BitVec 24) (imm : BitVec 16) : W64 := BitVec.ofNat 64 (code + pc.toNat * 256 + imm.toNat * 2 ^ 32)

/-- The chain is abandoned (R132): it counts as complete with the signature of its last commit; recorded with the exception
record. -/
def State.abandon (s : State) (be : Fin 32) (w : Window) (xrec : W64) : State :=
  let s := s.setDru be { s.dru be with win := none, yieldReq := false }
  (s.raise hapAbandon be.val [BitVec.ofNat 64 w.oc.work.chain, xrec, s.rd64 R.scanCycleLo]).chainDone be w.oc w.oc.cp.sig

/-- The exceptions (R129), each with its code. -/
inductive Exc where
  | fetch | illegal | align | readset | writeset | scratch | access | trap
  deriving DecidableEq, Repr

def excCode : Exc → Nat
  | .fetch => 3 | .illegal => 1 | .align => 2 | .readset => 4 | .writeset => 5 | .scratch => 6 | .access => 8 | .trap => 7

/-- The replica of a chain is abandoned as the chain was: its signature is that of its last window's end (R132, R134). -/
def State.repAbandon (s : State) (be : Fin 32) (w : Window) : State :=
  if w.audit then s.setWin be (some { w with core := w.oc.cp, phase := .committing true }) else s.setWin be none

/-- Whether a replica has to leave its drupelet at a window's end: foreground work waits in its cluster, or an F boundary has come
(R393). -/
def State.repYields (s : State) (be : Fin 32) : Bool :=
  (s.dru be).yieldReq || s.brm.restarts.any (fun e => e.1 == be.val / 8)
    || (List.finRange 32).any (fun i => i.val / 8 == be.val / 8 && (s.dru i).deques.toList.any (fun (q : List Work) => !q.isEmpty))

/-- What follows a window that has ended without completing its chain: a yield, where one is due, or the next window (R49, R83,
R393). -/
def State.goOn (s : State) (be : Fin 32) (w : Window) (oc : OpenChain) (upset upsetH : W64) : State :=
  match w.rep with
  | some r =>
    if w.audit && s.repYields be then (s.auditLeave be oc (r.store w)).wfYield 4 else s.openWindow be oc upset upsetH (some (r.store w))
  | none =>
    if (s.dru be).yieldReq then
      let t := s.setDru be { s.dru be with win := none, yieldReq := false }
      { t with brm := { t.brm with yielded := t.brm.yielded ++ [oc] } }
    else s.openWindow be oc upset upsetH none

/-- An exception ends the window at the faulting instruction (R130 to R132): a mismatch where the cores disagree;
otherwise the stores are discarded and the chain's next window starts in the handler, or the chain is abandoned. `pc` is
that of the faulting instruction. A yield due happens here as at any window end (R128). A replica takes the same exception and
records nothing (R134). -/
def State.exception (s : State) (be : Fin 32) (w : Window) (e : Exc) (pc : BitVec 24) (imm : BitVec 16) (addr : W64) : State :=
  if w.upset ≠ 0 ∧ !w.traced then s.differ be w
  else
    let xrec := excRecord (excCode e) pc imm
    let s := s.spend w
    let s := if w.rep.isSome then s else s.obsWindow be w (.exception (excCode e))
    let entry := s.hExcEntry s.bank
    if entry = 0 ∨ coreEXM w.oc.cp then (if w.rep.isSome then s.repAbandon be w else s.abandon be w xrec)
    else
      let s := if w.rep.isSome then s
        else s.raise hapException be.val [BitVec.ofNat 64 w.oc.work.chain, xrec, s.rd64 R.scanCycleLo]
      let c := gSet (gSet w.oc.cp 31 xrec) 30 addr
      let c := { c with fl := c.fl ||| 0x400, pc := BitVec.ofNat 24 entry }
      s.goOn be { w with stores := [] } { w.oc with cp := c, window := w.oc.window + 1, mismatches := 0, barred := 0 } w.upsetH 0

/-- The poisoned block is restored from the partner: the request goes out and the window waits (R133, R386). -/
def State.awaitRepair (s : State) (be : Fin 32) (w : Window) (blk : Nat) : State :=
  let s := s.setWin be (some { w with phase := .awaitingRepair })
  { s with integ := { s.integ with wanted := s.integ.wanted ++ [(be.val, blk)] } }.send (.repairRequest blk)

/-- `POISON` of a replica: one that reads a snapshot is abandoned as the chain was (R134); an audit replica of a STANDBY that meets
a poisoned block gives its audit up, and the PRIMARY is asked to copy the block (R386). -/
def State.repPoison (s : State) (be : Fin 32) (w : Window) (r : Replica) (a : Nat) : State :=
  if r.snap.own then
    let s := (s.eccUe a false).auditDrop be
    if s.tracked a then
      { s with integ := { s.integ with asked := s.integ.asked ++ [a / 256] } }.send (.dirtyRequest (a / 256))
    else s
  else s.repAbandon be w

/-- `POISON` (R133, R385 to R387): restore from the partner, release of the token, or abandonment, as the region of the
word and the partner give. -/
def State.poisonExc (s : State) (be : Fin 32) (w : Window) (a : Nat) : State :=
  if w.upset ≠ 0 ∧ !w.traced then s.differ be w
  else if w.rep.isSome then (match w.rep with | some r => (s.spend w).repPoison be w r a | none => s)
  else
    let s := ((s.spend w).eccUe a false).obsWindow be w (.exception 0x10)
    let xrec := excRecord 0x10 w.core.pc 0
    let blk := a / 256
    let standby := s.partner == .standby
    if s.bank ≤ a ∧ a < s.bank + 0x1000000 then
      if standby then s.awaitRepair be w blk
      else ({ s with integ := { s.integ with rewrite := s.integ.rewrite ++ [blk] } }).abandon be w xrec
    else if s.tracked a then
      if s.mod = .primary ∧ standby then
        if s.pair.dirty.has blk then (s.fset F.memUeInfo_released 1).dropClaim 7
        else s.awaitRepair be w blk
      else
        let s := if regionOf a = some .instance_ then s.reinitBlock blk else s
        s.abandon be w xrec
    else s.abandon be w xrec

/-! Memory as a window sees it. -/

/-- The read set (R75, R121), scratch apart. -/
def State.inReadSet (s : State) (w : Window) (a n : Nat) : Bool :=
  inRange a n (0x02000000 + w.oc.desc.instOff) w.oc.desc.instLen
    || (s.preds w.oc.desc).any (fun p =>
        match s.chain p with | some d => inRange a n (0x02000000 + d.instOff) d.instLen | none => false)
    || inRange a n w.core.pb.toNat 0x80000
    || inRange a n (s.bank + 0x100) (0x1000000 - 0x100)

/-- The write set (R75, R121), scratch apart. -/
def State.inWriteSet (s : State) (w : Window) (a n : Nat) : Bool :=
  inRange a n (0x02000000 + w.oc.desc.instOff) w.oc.desc.instLen
    || inRange a n (w.core.pb.toNat + 0x80000 + (s.outRun w.oc.work.chain).1) (s.outRun w.oc.work.chain).2

/-- The byte the youngest buffered store of the window left at an address (R86). -/
def bufByte (st : List Buffered) (a : Nat) : Option Byte :=
  st.foldl (fun acc b => if b.addr ≤ a ∧ a < b.addr + b.size
    then some (b.data.extractLsb' (8 * (a - b.addr)) 8) else acc) none

/-- What an instruction leads to. -/
inductive OpRes where
  /-- the window goes on -/
  | go (w : Window)
  /-- the window ends after the instruction; with the chain -/
  | last (w : Window) (chainEnd : Bool)
  | exc (e : Exc) (pc : BitVec 24) (imm : BitVec 16) (addr : W64)
  | poison (a : Nat)
  deriving DecidableEq, Repr

/-- The window with the address of its latest data access, which a step record shows. -/
def Window.touch (w : Window) (a : Nat) : Window :=
  { w with rep := w.rep.map (fun (t : Replica) => { t with ea := a }) }

/-- Whether a window reads an address from the memory kept for it: a STANDBY's audit replica its own instance range only, every
other replica all (R98, R209, R450). -/
def Window.kept (w : Window) (p : Nat) : Option Snapshot :=
  match w.rep with
  | some r => if !r.snap.own || inRange p 1 (0x02000000 + w.oc.desc.instOff) w.oc.desc.instLen then some r.snap else none
  | none => none

/-- The decision of the CAT on a window's access; one that a replica makes to the memory kept for it is decided alike and counted
nowhere [109]. -/
def State.winAccess (s : State) (be : Fin 32) (w : Window) (k : AccKind) (a : Nat) : State × Bool :=
  if (w.kept a).isSome then (s, (s.catDecide clsBrm k a).isNone) else s.catAccess clsBrm be.val k a

/-- A byte as a window reads it from memory, and whether the word that holds it is uncorrectable. -/
def State.winByte (s : State) (w : Window) (p : Nat) : Byte :=
  match w.kept p with
  | some k => sget (fun _ => 0) k.cells p
  | none => s.mem.byte p
def State.winBad (s : State) (w : Window) (p : Nat) : Bool :=
  match w.kept p with
  | some k => k.bad.has (p / 8)
  | none => s.mem.bad (p / 8)

/-- Whether an address is a physical address of 40 bits (R118). -/
def addrOk (a : Int) : Bool := 0 ≤ a && a < 2 ^ 40

/-- A load of `n` bytes (R76, R86, R118, R119, R121, R129): alignment, the 40-bit range, the read set and the scratch map,
the CAT, the codes; `k` writes the value to the core. A load whose every byte the commit buffer holds reaches no memory, and the CAT
does not decide it [110]. -/
def State.load (s : State) (be : Fin 32) (w : Window) (addr : Int) (n : Nat) (ecc : Ecc)
    (k : Nat → Core → Core) : State × OpRes :=
  let pc := w.core.pc
  let a64 := BitVec.ofInt 64 addr
  let a := addr.toNat
  let w := w.touch a
  if addr % n ≠ 0 then (s, .exc .align pc 0 a64)
  else if !addrOk addr then (s, .exc .readset pc 0 a64)
  else
    let scr := inScratch a n
    if !scr ∧ !s.inReadSet w a n then (s, .exc .readset pc 0 a64)
    else if scr ∧ !w.valid.has ((a - scrBase) / 8) then (s, .exc .scratch pc 0 a64)
    else
      let bytes := (List.range n).map (fun i => bufByte w.stores (a + i))
      if bytes.all Option.isSome then
        (s, .go { w with core := nextPc (k (leNat (bytes.map (·.getD 0))) w.core) })
      else
        let (s, ok) := s.winAccess be w .read a
        if !ok then (s, .exc .access pc 0 a64)
        else
          let p := physOf be a
          if s.winBad w p ∨ (w.rep.isNone ∧ ecc = .uncorrectable) then (s, .poison p)
          else
            let s := if w.rep.isNone ∧ ecc = .corrected then s.eccCorrected p else s
            let v := leNat ((bytes.zipIdx).map (fun (b, i) => b.getD (s.winByte w (p + i))))
            (s, .go { w with core := nextPc (k v w.core) })

/-- The size code of a signature record (R85). -/
def sizeCode : Nat → Nat
  | 1 => 0 | 2 => 1 | 4 => 2 | _ => 3

/-- The 16 bytes a store feeds to the signature (R85). -/
def storeRecord (a n : Nat) (v : Nat) : List Byte :=
  leBytes 5 a ++ [BitVec.ofNat 8 (sizeCode n), 0, 0] ++ leBytes 8 v

/-- A store of `n` bytes into the commit buffer (R76, R85, R86, R118, R119, R121). -/
def State.store (s : State) (be : Fin 32) (w : Window) (addr : Int) (n : Nat) (v : W64) : State × OpRes :=
  let pc := w.core.pc
  let a64 := BitVec.ofInt 64 addr
  let a := addr.toNat
  let w := w.touch a
  if addr % n ≠ 0 then (s, .exc .align pc 0 a64)
  else if !addrOk addr then (s, .exc .writeset pc 0 a64)
  else
    let scr := inScratch a n
    if !scr ∧ !s.inWriteSet w a n then (s, .exc .writeset pc 0 a64)
    else
      let (s, ok) := s.winAccess be w .write a
      if !ok then (s, .exc .access pc 0 a64)
      else
        let data := v.toNat % 256 ^ n
        let fill : List Buffered :=
          if scr ∧ n < 8 ∧ !w.valid.has ((a - scrBase) / 8) then [{ addr := a / 8 * 8, size := 8, fill := true }] else []
        let w := { w with
          stores := w.stores ++ fill ++ [{ addr := a, size := n, data := BitVec.ofNat 64 data }]
          valid := if scr then w.valid.add ((a - scrBase) / 8) else w.valid
          core := { nextPc w.core with sig := sigBytes w.core.sig (storeRecord a n data) } }
        (s, .go w)

/-- The stores of the window that count toward its limit (R83). -/
def storeCount (w : Window) : Nat := (w.stores.filter (fun b => !b.fill)).length

/-! Fetch. -/

/-- What a fetch gives: the instruction word, an uncorrectable word, or a line the CAT refuses. -/
inductive Fetched where
  | word (w : W32)
  | poisoned (a : Nat)
  | refused
  deriving DecidableEq, Repr

/-- A fetch through the instruction half: a hit, or a line fill from the active bank when the CAT grants it (R104, R373). -/
def State.fetch (s : State) (be : Fin 32) (pc : BitVec 24) : State × Fetched :=
  let tag := pc.toNat / 64
  let ix := tag % 2048
  let d := s.dru be
  let pick (s : State) (l : ILine) : State × Fetched :=
    let k := pc.toNat % 64 / 8
    if (l.bad[k]?).getD false then (s, .poisoned (s.bank + pc.toNat / 8 * 8))
    else (s, .word (((l.words[k]?).getD 0).extractLsb' (if pc.toNat % 8 = 4 then 32 else 0) 32))
  match d.lines.find? (fun e => e.1 == ix && e.2.tag == tag) with
  | some e => pick s e.2
  | none =>
    let a := s.bank + tag * 64
    let (s, ok) := s.catAccess clsBrm be.val .fetch a
    if !ok then (s, .refused)
    else
      let l : ILine := { tag := tag
                         words := (List.range 8).map (fun k => BitVec.ofNat 64 (s.mem.rd (a + 8 * k) 8))
                         bad := (List.range 8).map (fun k => s.mem.bad (a / 8 + k)) }
      pick ((s.obsCount 0x0226).setDru be { d with lines := (ix, l) :: d.lines.filter (fun e => e.1 ≠ ix) }) l

/-- Every instruction half invalidated (R104). -/
def State.dropLines (s : State) : State :=
  { s with brm := { s.brm with be := s.brm.be.map (fun d => { d with lines := [] }) } }

/-- The lines of one block of the active bank invalidated in every instruction half (R104). -/
def State.dropBlockLines (s : State) (off : Nat) : State :=
  { s with brm := { s.brm with be := s.brm.be.map (fun d =>
      { d with lines := d.lines.filter (fun e => e.2.tag * 64 < off || off + 256 ≤ e.2.tag * 64) }) } }

/-- Table: Step record, for one instruction of a trace replica (R450): the value written to Gd, or the store's data, by the
major opcode of the word. -/
def State.stepRecord (s : State) (w w' : Window) (x : W32) (ended exc : Bool) : State :=
  if !w.traced then s
  else
    let op := x.toNat / 2 ^ 26
    let isStore := (0x20 ≤ op && op ≤ 0x23) || (0x30 ≤ op && op ≤ 0x33)
    let isLoad := (0x18 ≤ op && op ≤ 0x1E) || (0x28 ≤ op && op ≤ 0x2E)
    let writes := isLoad || (1 ≤ op && op ≤ 5) || (8 ≤ op && op ≤ 0xF) || (op == 0x14 && x.toNat % 16 == 0)
    let v : W64 :=
      if exc then 0
      else if isStore then (w'.stores.getLast?.map (fun (b : Buffered) => b.data)).getD 0
      else if writes then gReg w'.core (Fin.ofNat 32 (x.toNat / 2 ^ 21)) else 0
    let taken := !exc && (w'.core.pc != w.core.pc + 4) && decide (op ≥ 0x16)
    let a := if isStore || isLoad then (w'.rep.map (fun (t : Replica) => t.ea)).getD 0 else 0
    s.obsCollect (.step x w.core.pc taken ended exc v a)

/-- One instruction on a drupelet: it happens when a window runs there, holds fewer than 2,048 stores (R83), and the
word at its PC spells the instruction; a word that spells none raises `ILLEGAL` (R110), an uncorrectable one `POISON`,
a refused line `ACCESS` (R378). Otherwise nothing happens [11]. -/
def State.instr (s : State) (be : Fin 32) (ecc : Ecc) (i : Instr) (body : State → Window → State × OpRes) : State :=
  match (s.dru be).win with
  | none => s
  | some w =>
    if w.phase ≠ .running ∨ storeCount w ≥ 2048 ∨ (w.traced ∧ !s.obsRoom 24) then s
    else
      let pc := w.core.pc
      if pc.toNat < 0x100 then s.exception be w .fetch pc 0 0
      else
      let (s1, f) := s.fetch be pc
      match f with
      | .poisoned a => s1.poisonExc be w a
      | .refused => s1.exception be w .access pc 0 0
      | .word x =>
        match decodeDru be ecc x with
        | none => (s1.stepRecord w w x false true).exception be w .illegal pc 0 0
        | some j =>
          if j ≠ i then s
          else
            let (s2, r) := body s1 w
            match r with
            | .go w' => (s2.stepRecord w w' x false false).setWin be (some w')
            | .last w' ce => (s2.stepRecord w w' x true false).windowEnd be w' ce
            | .exc e pc' imm a => ((s2.stepRecord w (w.touch a.toNat) x false true).exception be w e pc' imm a).traceEnter be
            | .poison a => s2.poisonExc be w a

/-- An instruction that changes only the core's registers. -/
def State.regOp (s : State) (be : Fin 32) (i : Instr) (f : Core → Core) : Res :=
  .next (s.instr be .clean i (fun s w => (s, .go { w with core := nextPc (f w.core) })))

/-- A jump to a byte offset in the active bank; a target that is no multiple of 4, lies below 0x100 or outside the bank
raises `FETCH` at the target (R123, R129). -/
def jumpTo (w : Window) (c : Core) (target : Int) : OpRes :=
  if target % 4 ≠ 0 ∨ target < 0x100 ∨ target ≥ 2 ^ 24 then .exc .fetch (BitVec.ofInt 24 target) 0 0
  else .go { w with core := { c with pc := BitVec.ofInt 24 target } }

end Sys2Proof.Machine
end

