-- ==== Sys2Proof/Machine/Reflex.lean ====
section
/-!
DEFINITION. The reflex plane (R136-R166): the instruction interpreter, passes, the vote and the engines' roles, the
program image and its load checks, and the commands of the RFX block.
-/

namespace Sys2Proof.Machine

def hapRfxVerdict : Hap := ⟨4, 1, 3, none, true⟩
def hapRoleChange : Hap := ⟨4, 2, 3, none, true⟩
def hapReflexFault : Hap := ⟨4, 3, 3, none, false⟩
def hapReflexReturn : Hap := ⟨4, 4, 3, none, true⟩

/-! The interpreter (R150-R156). -/

/-- What a pass takes at its snapshot (R137), and the program's presets and constants. -/
structure RCtx where
  i : W32 := 0
  a : W32 := 0
  latch : Mailbox := {}
  sys : BitVec 16 := 0
  frame : W64 := 0
  preset : List W32 := []
  const : List W32 := []
  /-- flags settled in this frame (R184) -/
  settle : BitVec 512 := 0
  deriving Repr

/-- The working state of a pass. -/
structure RWork where
  img : RImage := {}
  acc : Bool := false
  stk : List Bool := []
  wa : W32 := 0
  deriving DecidableEq, Repr

def setBit {w : Nat} (x : BitVec w) (i : Nat) (b : Bool) : BitVec w :=
  BitVec.ofNat w (setFldN x.toNat i 1 (bit b))

/-- A signed 32-bit sum, saturated (R156). -/
def satS32 (x : Int) : W32 := BitVec.ofInt 32 (max (-2147483648) (min x 2147483647))

/-- Elapsed frames of a timer: saturated; 0 while its run bit is 0 (R153). -/
def elapsed (f : W64) (t : RTimer) : Nat := if t.run then min (f - t.start).toNat 0x7FFFFFFF else 0

/-- The preset of a timer: a negative mailbox word counts as 0 (R155). -/
def RCtx.presetT (x : RCtx) (n : Nat) : Nat :=
  let p := (x.preset.getD n 0).toNat
  if bitN p 31 then
    let w := (vget x.latch.words (fldN p 0 5)).toInt
    if w < 0 then 0 else w.toNat
  else fldN p 0 31

/-- The preset of a counter: a mailbox word is signed (R155). -/
def RCtx.presetC (x : RCtx) (n : Nat) : Int :=
  let p := (x.preset.getD (64 + n) 0).toNat
  if bitN p 31 then (vget x.latch.words (fldN p 0 5)).toInt else (fldN p 0 31 : Nat)

def RCtx.cbit (x : RCtx) (m : RImage) (n : Nat) : Bool := decide ((vget m.c n).count.toInt ≥ x.presetC n)

/-- An operand (R148, R149). -/
def RCtx.operand (x : RCtx) (m : RImage) (space idx : Nat) : Bool :=
  match space with
  | 0 => x.i.getLsbD idx
  | 1 => x.a.getLsbD idx
  | 2 => x.latch.bits.getLsbD idx
  | 3 => m.q.getLsbD idx
  | 4 => if 496 ≤ idx then x.sys.getLsbD (idx - 496) else m.f.getLsbD idx
  | 5 => (vget m.t idx).q
  | _ => x.cbit m idx

/-- A write to an operand: Q, F and the reflex-to-scan bits (R148). -/
def imagePut (m : RImage) (space idx : Nat) (b : Bool) : RImage :=
  match space with
  | 2 => { m with mb := { m.mb with bits := setBit m.mb.bits idx b } }
  | 3 => { m with q := setBit m.q idx b }
  | 4 => { m with f := setBit m.f idx b }
  | _ => m

/-- The bit instructions (R151). -/
def rfxBit (x : RCtx) (w : RWork) (op space idx : Nat) : RWork :=
  let b := x.operand w.img space idx
  match op with
  | 1 => { w with acc := b }
  | 2 => { w with acc := !b }
  | 3 => { w with acc := w.acc && b }
  | 4 => { w with acc := w.acc && !b }
  | 5 => { w with acc := w.acc || b }
  | 6 => { w with acc := w.acc || !b }
  | 7 => { w with acc := w.acc != b }
  | 8 => { w with img := imagePut w.img space idx w.acc }
  | 9 => { w with img := imagePut w.img space idx (!w.acc) }
  | 10 => if w.acc then { w with img := imagePut w.img space idx true } else w
  | _ => if w.acc then { w with img := imagePut w.img space idx false } else w

/-- RISE and FALL (R151); a flag being settled stores ACC and yields 0 (R184). -/
def rfxEdge (x : RCtx) (w : RWork) (fall : Bool) (n : Nat) : RWork :=
  let old := w.img.f.getLsbD n
  let e := if x.settle.getLsbD n then false else if fall then !w.acc && old else w.acc && !old
  { w with img := imagePut w.img 4 n w.acc, acc := e }

/-- The stack functions (R152). -/
def rfxStack (w : RWork) (func : Nat) : RWork :=
  let top := w.stk.headD false
  match func with
  | 0 => { w with stk := w.acc :: w.stk }
  | 1 => { w with acc := top, stk := w.stk.tail }
  | 2 => { w with acc := w.acc && top, stk := w.stk.tail }
  | 3 => { w with acc := w.acc || top, stk := w.stk.tail }
  | 4 => { w with acc := w.acc != top, stk := w.stk.tail }
  | 5 => { w with acc := !w.acc }
  | 6 => { w with acc := true }
  | 7 => { w with acc := false }
  | _ => w

def RWork.setT (w : RWork) (n : Nat) (t : RTimer) : RWork := { w with img := { w.img with t := vset w.img.t n t } }
def RWork.setC (w : RWork) (n : Nat) (c : RCounter) : RWork := { w with img := { w.img with c := vset w.img.c n c } }

def rfxTon (x : RCtx) (w : RWork) (n : Nat) : RWork :=
  let t := vget w.img.t n
  let t :=
    if w.acc then
      let t := if t.run then t else { t with run := true, start := x.frame }
      { t with q := decide (elapsed x.frame t ≥ x.presetT n) }
    else { t with run := false, q := false }
  { w.setT n t with acc := t.q }

def rfxTof (x : RCtx) (w : RWork) (n : Nat) : RWork :=
  let t := vget w.img.t n
  let t :=
    if w.acc then { t with run := false, q := true }
    else
      let t := if t.q && !t.run then { t with run := true, start := x.frame } else t
      if t.run && decide (elapsed x.frame t ≥ x.presetT n) then { t with run := false, q := false } else t
  { w.setT n t with acc := t.q }

def rfxTp (x : RCtx) (w : RWork) (n : Nat) : RWork :=
  let t := vget w.img.t n
  let t := if w.acc && !t.prev && !t.run then { t with run := true, start := x.frame, q := true } else t
  let t := if t.run && decide (elapsed x.frame t ≥ x.presetT n) then { t with run := false, q := false } else t
  let t := { t with prev := w.acc }
  { w.setT n t with acc := t.q }

def rfxTrst (w : RWork) (n : Nat) : RWork :=
  if w.acc then w.setT n { vget w.img.t n with run := false, q := false, prev := false } else w

/-- CTU and CTD: `d` is 1 or -1 (R154). -/
def rfxCount (x : RCtx) (w : RWork) (n : Nat) (d : Int) : RWork :=
  let c := vget w.img.c n
  let c := if w.acc && !c.prev then { c with count := satS32 (c.count.toInt + d) } else c
  let w1 := w.setC n { c with prev := w.acc }
  { w1 with acc := x.cbit w1.img n }

/-- The timer and counter functions (R153, R154). -/
def rfxTmc (x : RCtx) (w : RWork) (func n : Nat) : RWork :=
  match func with
  | 0 => rfxTon x w n
  | 1 => rfxTof x w n
  | 2 => rfxTp x w n
  | 3 => rfxTrst w n
  | 4 => rfxCount x w n 1
  | 5 => rfxCount x w n (-1)
  | 6 => if w.acc then w.setC n { vget w.img.c n with count := 0 } else w
  | _ => if w.acc then w.setC n { vget w.img.c n with count := w.wa } else w

/-- The word functions (R156). -/
def rfxWord (x : RCtx) (w : RWork) (func o : Nat) : RWork :=
  match func with
  | 0 => { w with wa := vget x.latch.words (o % 32) }
  | 1 => { w with wa := BitVec.ofNat 32 (elapsed x.frame (vget w.img.t (o % 64))) }
  | 2 => { w with wa := (vget w.img.c (o % 64)).count }
  | 3 =>
    if w.acc then
      { w with img := { w.img with mb := { w.img.mb with words := vset w.img.mb.words (o % 32) w.wa } } }
    else w
  | 4 => { w with wa := x.const.getD (o % 128) 0 }
  | 5 =>
    let k := x.const.getD (o % 128) 0
    let c := match o / 128 with
      | 0 => decide (w.wa.toInt ≥ k.toInt)
      | 1 => decide (w.wa.toInt < k.toInt)
      | 2 => w.wa == k
      | _ => w.wa != k
    { w with acc := w.acc && c }
  | _ => { w with wa := satS32 (w.wa.toInt + (x.const.getD (o % 128) 0).toInt) }

/-- One instruction (R150). -/
def rfxStep (x : RCtx) (w : RWork) (word : Nat) : RWork :=
  let op := fldN word 12 4
  if op = 0xC then rfxEdge x w (bitN word 11) (fldN word 0 9)
  else if op = 0xD then rfxStack w (fldN word 8 4)
  else if op = 0xE then rfxTmc x w (fldN word 9 3) (fldN word 0 6)
  else if op = 0xF then rfxWord x w (fldN word 9 3) (fldN word 0 9)
  else if op = 0 then w
  else rfxBit x w op (fldN word 9 3) (fldN word 0 9)

/-- A pass executes every instruction once, in order; ACC, the stack and WA start at zero (R136, R137). -/
def rfxRun (x : RCtx) (m : RImage) (prog : List Nat) : RImage := (prog.foldl (rfxStep x) { img := m }).img

/-! The program image (R157, R158). -/

/-- The stack depth after an instruction; none: underflow or more than 16. -/
def rfxDepth (d word : Nat) : Option Nat :=
  if fldN word 12 4 = 0xD then
    match fldN word 8 4 with
    | 0 => if d < 16 then some (d + 1) else none
    | 1 | 2 | 3 | 4 => if d = 0 then none else some (d - 1)
    | _ => some d
  else some d

/-- An encoding that is allowed (R148, R150-R156): its fields, and every index inside its space. -/
def rfxLegal (word : Nat) : Bool :=
  let op := fldN word 12 4
  let lo := fldN word 0 9
  if op = 0 then false
  else if op ≤ 0xB then
    let sp := fldN word 9 3
    let write := decide (8 ≤ op)
    match sp with
    | 0 | 1 => !write && decide (lo < 32)
    | 2 => decide (lo < 256)
    | 3 => decide (lo < 32)
    | 4 => !write || decide (lo < 496)
    | 5 | 6 => !write && decide (lo < 64)
    | _ => false
  else if op = 0xC then fldN word 9 2 == 0 && decide (lo < 496)
  else if op = 0xD then decide (fldN word 8 4 ≤ 8) && fldN word 0 8 == 0
  else if op = 0xE then fldN word 6 3 == 0
  else match fldN word 9 3 with
    | 0 | 3 => decide (lo < 32)
    | 1 | 2 => decide (lo < 64)
    | 4 | 6 => decide (lo < 128)
    | 5 => true
    | _ => false

/-- A store to a Q channel that is not bound, or a read of I of a channel configured as an output (R158). -/
def rfxBoundOk (bind dir : W32) (word : Nat) : Bool :=
  let op := fldN word 12 4
  if 1 ≤ op ∧ op ≤ 0xB then
    if fldN word 9 3 = 3 ∧ 8 ≤ op then bind.getLsbD (fldN word 0 9)
    else if fldN word 9 3 = 0 then !dir.getLsbD (fldN word 0 9)
    else true
  else true

/-- The words of an image at an address: N, code. -/
def Mem.rfxLen (m : Mem) (a : Nat) : Nat := m.rd (a + 8) 4
def Mem.rfxCode (m : Mem) (a : Nat) : List Nat :=
  (List.range (min (m.rfxLen a) 1024)).map (fun k => m.rd (a + 0x440 + 2 * k) 2)

/-- The first instruction found wrong from index `i` on, the stack depth being `d`, or the highest depth reached. -/
def rfxScan (bind dir : W32) : Nat → Nat → Nat → List Nat → Nat ⊕ Nat
  | _, _, top, [] => .inr top
  | i, d, top, w :: r =>
    if !rfxLegal w || !rfxBoundOk bind dir w then .inl i
    else
      match rfxDepth d w with
      | none => .inl i
      | some e => rfxScan bind dir (i + 1) e (max top e) r

/-- The load checks of a reflex image at an address (R158), for a binding and a direction of the channels: the index of the
instruction at which the fault lies, or the code of a fault that concerns none (R482, code 0x06). -/
def Mem.rfxFault (m : Mem) (a : Nat) (bind dir : W32) : Option Nat :=
  let n := m.rfxLen a
  if m.rd a 4 ≠ 0x58465250 ∨ n < 1 ∨ 1024 < n ∨ m.rd (a + 0x3C) 4 ≠ crc32 (m.bytesAt (a + 0x40) (0x400 + 2 * n)) then some 0xFFF0
  else if (m.bytesAt (a + 0x10) 0x2C).any (· != 0) then some 0xFFF1
  else if (List.range 128).any (fun k => bitN (m.rd (a + 0x40 + 4 * k) 4) 31 && fldN (m.rd (a + 0x40 + 4 * k) 4) 5 26 != 0) then
    some 0xFFF2
  else
    match rfxScan bind dir 0 0 0 (m.rfxCode a) with
    | .inl i => some i
    | .inr top => if top = m.rd (a + 0xC) 4 then none else some 0xFFF3

/-- The Q channels a program writes (R165). -/
def rfxWrites (code : List Nat) : W32 :=
  maskOf (fun n => code.any (fun w => decide (8 ≤ fldN w 12 4 ∧ fldN w 12 4 ≤ 0xB) && fldN w 9 3 == 3 && fldN w 0 9 == n))

/-- The base of an engine's local memory, and of one of its program slots. -/
def rfxLocal (e : Nat) : Nat := 0x04800000 + e * 0x80000
def rfxSlotBase (e slot : Nat) : Nat := rfxLocal e + slot * 0x2000

/-- A span of memory copied, byte for byte. -/
def Mem.copySpan (m : Mem) (src dst n : Nat) : Mem :=
  let ins := m.bytes.filter (fun e => src ≤ e.1 && e.1 < src + n)
  let cleared := m.bytes.filter (fun e => !(dst ≤ e.1 && e.1 < dst + n))
  let words := (List.range (n / 8)).map (dst / 8 + ·)
  let m1 := { m with bytes := ins.foldl (fun b e => sset (fun _ => 0) b (e.1 - src + dst) e.2) cleared }
  words.foldl Mem.heal m1

/-- The image of a bank copied into one slot of every engine (R157). -/
def State.rfxLoad (s : State) (bankBase slot : Nat) : State :=
  let a := bankBase + s.hRfxImg bankBase
  let n := 0x440 + 2 * min (s.mem.rfxLen a) 1024
  { s with mem := [0, 1, 2, 3].foldl (fun m e => Mem.copySpan m a (rfxSlotBase e slot) ((n + 7) / 8 * 8)) s.mem }

/-! Roles (R143-R147). -/

def rfxNone : Nat := 7
def State.rfxSlot (s : State) (k : Nat) : Nat := s.fget ⟨R.rfxSlots, 4 * k, 3⟩
def State.rfxSpare (s : State) : Nat := s.rfxSlot 3
def State.setSlot (s : State) (k e : Nat) : State := s.fset ⟨R.rfxSlots, 4 * k, 3⟩ e
def State.enState (s : State) (e : Nat) : Nat := s.fget (F.rfxEnmState_state e)

/-- Engines in a slot or the spare role. -/
def State.rfxRoles (s : State) : List Nat := ([0, 1, 2, 3].map s.rfxSlot).filter (· < 4)

/-- The engine in which the running program is read. -/
def State.rfxLead (s : State) : Nat := s.rfxRoles.headD 0

/-- The flags that follow the roles (R147): fewer than two engines stop the plane and force the health score. -/
def State.showRfx (s : State) : State :=
  let s := s.fsetb F.rfxStatus_degraded ([0, 1, 2].any (fun k => s.rfxSlot k == rfxNone))
  let s := s.fsetb F.rfxStatus_spareLost (s.rfxSpare == rfxNone)
  let s := s.fsetb F.rfxStatus_selftest ([0, 1, 2, 3].any (fun e => s.enState e == 2))
  if s.rfxRoles.length < 2 then
    if s.fbit F.rfxStatus_rfxStop then s
    else
      let s := { s with island := { s.island with rfxStop := true }, rfx := { s.rfx with pass := none, evPend := false, framePend := false } }
      ((s.fset F.rfxStatus_rfxStop 1).raise hapReflexFault 0 []).forceZero causeRfxStop
  else if s.fbit F.rfxStatus_rfxStop then
    ({ (s.fset F.rfxStatus_rfxStop 0) with
      island := { s.island with rfxStop := !s.fbit F.rfxStatus_armed } }).unforce causeRfxStop
  else s

/-- An engine takes a role. -/
def State.rfxRole (s : State) (k e : Nat) : State :=
  ((s.setSlot k e).fset (F.rfxEnmState_state e) (bit (k == 3))).raise hapRoleChange e [BitVec.ofNat 64 k]

/-- SPARE_TAKEOVER (R146): the spare takes the lowest empty slot at the frame boundary. -/
def State.spareTakeover (s : State) : State :=
  match [0, 1, 2].find? (fun k => s.rfxSlot k == rfxNone) with
  | none => s
  | some k =>
    let e := s.rfxSpare
    if e < 4 then
      let s := ((s.setSlot 3 rfxNone).rfxRole k e).bump R.rfxReplace
      s.event 0x0030 3 e [BitVec.ofNat 64 (vget s.rfx.oddOf k), BitVec.ofNat 64 e, BitVec.ofNat 64 k]
    else s

/-- An engine that passed its self-test joins: a slot if one is empty, else the spare role (R146); its state is that of an engine in a
role. -/
def State.rfxJoin (s : State) (e : Nat) : State :=
  match [0, 1, 2, 3].find? (fun k => s.rfxSlot k == rfxNone) with
  | some k =>
    let from_ := if s.rfxRoles = [] then e else s.rfxLead
    { s.rfxRole k e with rfx := { (s.rfxRole k e).rfx with
        img := vset s.rfx.img e (vget s.rfx.img from_)
        pass := s.rfx.pass.map (fun p => { p with img := vset p.img e (vget p.img from_) }) } }
  | none => s

/-- ODD_ENGINE (R146): an engine leaves its role at the commit that found it, and its self-test starts. -/
def State.oddEngine (s : State) (e : Nat) : State :=
  match [0, 1, 2, 3].find? (fun k => s.rfxSlot k == e) with
  | none => s
  | some k =>
    let s := ((s.setSlot k rfxNone).fset (F.rfxEnmState_state e) 2).bump (R.rfxEnmDisagree e)
    let s := s.raise hapRoleChange e [2]
    if k = 3 then s else
    let s := { s with rfx := { s.rfx with oddOf := vset s.rfx.oddOf k e } }
    if s.rfxSpare < 4 then s
    else s.event 0x0030 3 e [BitVec.ofNat 64 e, 7, BitVec.ofNat 64 k]

/-! Passes (R137-R141). -/

/-- Whether the program runs. -/
def State.rfxRuns (s : State) : Bool := s.fbit F.rfxStatus_armed && !s.fbit F.rfxStatus_rfxStop

def State.frameNo (s : State) : W64 := s.rd64 R.rfxFrameLo

/-- The system flags F496 to F511 at a snapshot (R149). -/
def State.sysFlags (s : State) (event : Bool) : BitVec 16 :=
  BitVec.ofNat 16 (bit (s.fbit F.rfxStatus_mbxStale) + bit (s.rfx.first == some s.frameNo) * 2 + bit event * 4
    + bit s.token * 8 + bit (s.fbit F.rfxStatus_degraded) * 16 + bit (s.fbit F.rfxStatus_spareLost) * 32
    + bit s.island.off * 64 + 128)

/-- What every engine of a pass reads, with the presets and constants of its own program slot. -/
def State.passCtx (s : State) (event : Bool) (e : Nat) : RCtx :=
  let a := rfxSlotBase e (s.fget F.rfxProgInfo_slot)
  let words (off : Nat) : List W32 := (List.range 128).map (fun k => BitVec.ofNat 32 (s.mem.rd (a + off + 4 * k) 4))
  { i := s.diState, a := s.acq.ev, latch := s.rfx.latch, sys := s.sysFlags event, frame := s.frameNo
    preset := words 0x40, const := words 0x240
    settle := if s.rfx.first = some s.frameNo then s.rfx.settle else 0 }

/-- The state image of an engine at the end of a pass on its program. -/
def State.passImage (s : State) (event : Bool) (e : Nat) : RImage :=
  rfxRun (s.passCtx event e) (vget s.rfx.img e) (s.mem.rfxCode (rfxSlotBase e (s.fget F.rfxProgInfo_slot)))

/-- The accesses of an engine to its local in a pass, each decided by the CAT (R7, R378): it fetches and reads its program slot, reads
the committed state image and writes the working state (R158). -/
def State.passAccess (s : State) (e : Nat) : State × Bool :=
  let slot := rfxSlotBase e (s.fget F.rfxProgInfo_slot)
  let all := [(AccKind.fetch, slot), (.read, slot), (.read, rfxLocal e + 0x4000), (.write, rfxLocal e + 0x5000)]
  all.foldl (fun (x : State × Bool) k => if !x.2 then x else x.1.catAccess clsRfx e k.1 k.2) (s, true)

/-- The first uncorrectable word of the program that an engine executes (R385). -/
def State.badProgram (s : State) (e : Nat) : Option Nat :=
  let a := rfxSlotBase e (s.fget F.rfxProgInfo_slot)
  ((List.range ((0x440 + 2 * min (s.mem.rfxLen a) 1024 + 7) / 8)).map (a / 8 + ·)).find? s.mem.bad

/-- What an engine meets on its way through its local in a pass: whether its pass differs for it (R378, R385). -/
def State.passGuard (s : State) (e : Nat) : State × Bool :=
  let x := s.passAccess e
  if !x.2 then (x.1, true)
  else match x.1.badProgram e with
    | some w => (x.1.eccUe (w * 8) false, true)
    | none => (x.1, false)

/-- The engines in roles go through their locals: those whose pass differs. -/
def State.guardAll (s : State) : State × BitVec 4 :=
  s.rfxRoles.foldl (fun (x : State × BitVec 4) e =>
    let y := x.1.passGuard e
    (y.1, if y.2 then x.2 ||| (1#4 <<< e) else x.2)) (s, 0)

/-- A pass starts: snapshot, and execution on the committed state image, by every engine in a role (R137, R143). -/
def State.startPass (s : State) (event : Bool) : State :=
  let g := s.guardAll
  let p : RPass := { event := event, frame := s.frameNo, bad := g.2, img := Vector.ofFn (fun (e : Fin 4) =>
    if s.rfxRoles.contains e.val then s.passImage event e.val else vget s.rfx.img e.val) }
  { g.1 with rfx := { g.1.rfx with pass := some p, framePend := false } }

/-- Marks the scan-to-reflex mailbox stale or fresh (R142). -/
def State.setStale (s : State) (b : Bool) : State := (s.fsetb F.scanStatus_mbxStale b).fsetb F.rfxStatus_mbxStale b

/-- ISLAND_LINK_FRAME_SEND: the island that holds the token sends its drive state at each frame boundary (R196). -/
def State.linkSend (s : State) : State :=
  if s.token && s.island.on && !s.bogie.linkFault then
    s.emit (.islandLink (maskOf (fun n => s.driveD n == some true)) ((List.range 8).map s.driveL))
  else s

/-- Engines join and the spare takes an empty slot (R146, R185). -/
def State.rfxBoundaryRoles (s : State) : State :=
  let js := s.rfx.joining
  let s := { s with rfx := { s.rfx with joining := [] } }
  (js.foldl State.rfxJoin s.spareTakeover).showRfx

/-- The frame number at a boundary (R138): it counts from 0 at the first arming. No rule says what stands between that arming and the
boundary after it: the model gives an event pass there frame 0 without `F497`, and starts frame 0 at the boundary [126]. -/
def State.frameTick (s : State) : State :=
  if !s.fbit F.rfxStatus_armed && !s.rfx.counting then s
  else
    let s := if s.rfx.counting then s.wr64 R.rfxFrameLo (s.frameNo + 1)
      else { s with rfx := { s.rfx with counting := true } }
    if s.rfx.fresh then { s with rfx := { s.rfx with fresh := false, first := some s.frameNo } } else s

/-- A reflex frame boundary (R138): latches the mailbox and starts or queues a frame pass. -/
def State.frameBoundary (s : State) : State :=
  let s1 := { s with rfx := { s.rfx with latch := s.rfx.s2r } }
  let s1 := s1.rfxBoundaryRoles.frameTick.linkSend
  let s2 := if !s1.rfxRuns then s1
    else match s1.rfx.pass with
      | none => s1.startPass false
      | some _ => { s1 with rfx := { s1.rfx with framePend := true } }
  s2

def popcount32 (x : W32) : Nat := ((List.range 32).filter (fun i => x.getLsbD i)).length

/-- `ARMED_EVENT_DISPATCH` (R139): the armed edges dispatched in one clock. They start an event pass, abort a frame pass,
or wait as one pending pass (R140). -/
def execArmedEventDispatch (irise ifall arise afall : W32) (s : State) : Res :=
  let n := popcount32 (irise &&& s.actv R.rfxArmIrise) + popcount32 (ifall &&& s.actv R.rfxArmIfall)
    + popcount32 (arise &&& s.actv R.rfxArmArise) + popcount32 (afall &&& s.actv R.rfxArmAfall)
  let now := s.time.tb1
  let t := match s.rfx.pass with
    | none => { s with rfx := { s.rfx with disp := now } }.startPass true
    | some p =>
      if p.event then
        { s with rfx := { s.rfx with
            evPend := true, dispPend := if s.rfx.evPend then s.rfx.dispPend else now } }.bumpBy R.rfxWaits n
      else
        let g := vget p.img s.rfxLead
        (({ s with rfx := { s.rfx with disp := now } }.bump R.rfxAborts).obsPass p.frame false true g.q
          (g.mb.bits.extractLsb' 0 32)).startPass true
  s.when (s.rfxRuns && decide (0 < n)) t

/-- What an engine commits: its state image, Q vector and mailbox among it, whether its commit reached the voter more than 4 ns
after the first (R144), and whether its pass differs by a refused access or an uncorrectable word (R378, R385). -/
structure RCommit where
  img : RImage := {}
  late : Bool := false
  bad : Bool := false
  deriving DecidableEq, Repr

/-- The digest of a state image (R145): CRC-64 of R85 over its 4 KiB. -/
def stateDigest (m : RImage) : W64 := sigBytes (BitVec.allOnes 64) ((List.range 4096).map (Config.stateByte m))

/-- Two engines agree: neither is late or met an error, and Q vectors and digests are the same. -/
def RCommit.agrees (a b : RCommit) : Bool :=
  !a.late && !b.late && !a.bad && !b.bad && a.img.q == b.img.q && (a.img == b.img || stateDigest a.img == stateDigest b.img)

/-- DIGEST_COMPARE (R145): what two slots agree on; none: no two slots agree. -/
def rfxMajority (u : Nat → RCommit) (slots : List Nat) : Option RCommit :=
  (slots.find? (fun a => slots.any (fun b => a != b && (u a).agrees (u b)))).map u

/-- REFLEX_VOTE (R144): the island takes the Q values of the slots. -/
def State.islandVote (s : State) (u : Nat → RCommit) : State :=
  if s.island.on && !s.island.silent then
    let s := { s with island := { s.island with q := Vector.ofFn (fun (k : Fin 3) =>
      if s.rfxSlot k.val < 4 then some (u (s.rfxSlot k.val)).img.q else none) } }
    (if s.bogie.linkFault && !s.token then s.mirrorVote else s).liftVote.showIsland
  else s

/-- The reflex-to-scan mailbox takes its values (R141). -/
def State.takeMailbox (s : State) (m : Mailbox) : State := { s with rfx := { s.rfx with r2s := m } }

/-- The comparison at a commit: the odd engines leave their roles, the spare first, and the mailbox comes from the majority; with no
two slots in agreement it comes from slot 0, `NO_MAJORITY` is set, a reflex fault recorded and, in PRIMARY, the health score forced
to 0 (R145, R146). -/
def State.compareEngines (s : State) (u : Nat → RCommit) : State :=
  let slots := ([0, 1, 2].map s.rfxSlot).filter (· < 4)
  match rfxMajority u slots with
  | some m =>
    let odd := (s.rfxRoles.filter (fun e => e == s.rfxSpare) ++ slots).filter (fun e => !(u e).agrees m)
    let s := (if odd = [] then s else s.bump R.rfxDisagree).takeMailbox m.img.mb
    (odd.foldl State.oddEngine s).showRfx
  | none =>
    let s := match slots with | e :: _ => s.takeMailbox (u e).img.mb | [] => s
    let s := ((s.bump R.rfxDisagree).fset F.rfxStatus_noMajority 1).raise hapReflexFault 1 []
    if s.mod = .primary then s.forceZero causeReflexMajority else s

/-- The next pass after one has ended: a pending event pass first; it serves a frame whose boundary has passed (R140). -/
def State.nextPass (s : State) : State :=
  if !s.rfxRuns then s
  else if s.rfx.evPend then
    { s with rfx := { s.rfx with evPend := false, disp := s.rfx.dispPend } }.startPass true
  else if s.rfx.framePend then s.startPass false
  else s

/-- The counters of a committed pass. -/
def State.countPass (s : State) (event : Bool) : State :=
  let s := s.wr64 R.rfxPassesLo (s.rd64 R.rfxPassesLo + 1)
  if event then
    let lat := (s.time.tb1 - s.rfx.disp).toNat
    (s.bump R.rfxEvpasses).wr R.rfxMaxlat (BitVec.ofNat 32 (min (max (s.rd R.rfxMaxlat).toNat lat) (2 ^ 32 - 1)))
  else s

/-- A pass ends: Q vectors, mailbox values and state of the engines in roles take effect all at once (R137); `up` is what an engine
that is disturbed commits in place of its own state, `late` marks late commits [7]. -/
def State.passEnd (s : State) (p : RPass) (up : Vector (Option RImage) 4) (late : BitVec 4) : State :=
  let img := Vector.ofFn (fun (e : Fin 4) =>
    if s.rfxRoles.contains e.val then (vget up e.val).getD (vget p.img e.val) else vget s.rfx.img e.val)
  let u (e : Nat) : RCommit := { img := vget img e, late := late.getLsbD e, bad := p.bad.getLsbD e }
  let g := vget img s.rfxLead
  let s1 := { s with
    rfx := { s.rfx with img := img, pass := none }
    bogie := { s.bogie with rfxSilent := false } }.countPass p.event
  ((s1.obsPass p.frame p.event false g.q (g.mb.bits.extractLsb' 0 32)).compareEngines u).islandVote u

/-- `PASS_COMMIT` (R137). -/
def execPassCommit (up : Vector (Option RImage) 4) (late : BitVec 4) (s : State) : Res :=
  match s.rfx.pass with
  | none => .next s
  | some p => .next (s.passEnd p up late).nextPass

/-- The transients of the last 86,400 operating seconds (R146, R165). -/
def State.recentTrans (s : State) (e : Nat) : List Nat := (vget s.rfx.trans e).filter (fun t => decide (s.time.tb3 < t + 86400))

/-- `RFX_ENm_STATE.TRANS24` of every engine. -/
def State.showTrans (s : State) : State :=
  [0, 1, 2, 3].foldl (fun s e => s.fset (F.rfxEnmState_trans24 e) (min (s.recentTrans e).length 3)) s

/-- MC writes the program slots of an engine out of every role: the active image from the active bank into the slot in use, a checked
image that is pending into the other (R159). -/
def State.prepareEngine (s : State) (e : Nat) : State :=
  let slot := s.fget F.rfxProgInfo_slot
  let copy (s : State) (bank k : Nat) : State :=
    if s.hRfxImg bank = 0 then s
    else
      let a := bank + s.hRfxImg bank
      { s with mem := s.mem.copySpan a (rfxSlotBase e k) ((0x440 + 2 * min (s.mem.rfxLen a) 1024 + 7) / 8 * 8) }
  let s := copy s s.bank slot
  if s.fbit F.rfxStatus_exchPend then copy s s.idle (1 - slot) else s

/-- `REFLEX_SELFTEST_VERDICT` (R146): an engine's self-test ends: retired on failure or at the third transient, otherwise
prepared (R159) and to join at the next frame boundary. -/
def execReflexSelftestVerdict (e : Fin 4) (pass : Bool) (s : State) : Res :=
  let retire (s : State) (v : Nat) : State :=
    ((s.fset (F.rfxEnmState_state e.val) 3).fset (F.rfxEnmState_verdict e.val) v).raise hapRfxVerdict e.val [BitVec.ofNat 64 v]
  let recent := s.time.tb3 :: s.recentTrans e.val
  let s1 := { s with rfx := { s.rfx with trans := vset s.rfx.trans e.val recent } }.showTrans
  let ready := s1.prepareEngine e.val
  let ready := { ready with rfx := { ready.rfx with joining := ready.rfx.joining ++ [e.val] } }
  let t :=
    if !pass then retire s 2
    else if recent.length ≥ 3 then retire s1 3
    else (ready.fset (F.rfxEnmState_verdict e.val) 1).raise hapRfxVerdict e.val [1]
  s.when (s.enState e.val == 2 && !s.rfx.joining.contains e.val) t.showRfx

/-- `MAILBOX_STALE_TIMEOUT` (R142): in STANDBY, the copy seal is missing for more than two F periods. -/
def execMailboxStaleTimeout (s : State) : Res := s.when (s.mod == .standby) (s.setStale true)

/-! Arming (R162-R165). -/

/-- The program in the active slot is armed: the mailbox is stale until the first class commit (R142). -/
def State.rfxArm (s : State) : State :=
  let s := { s with
    rfx := { s.rfx with fresh := true, settle := 0 }
    island := { s.island with rfxStop := s.fbit F.rfxStatus_rfxStop } }
  ((s.fset F.rfxStatus_armed 1).setStale true).showIsland

/-- The length and identifier of the program in a slot are shown. -/
def State.showProg (s : State) (slot : Nat) : State :=
  let a := rfxSlotBase s.rfxLead slot
  ((s.fset F.rfxProgInfo_slot slot).fset F.rfxProgInfo_length (s.mem.rfxLen a)).wr R.rfxProgId (BitVec.ofNat 32 (s.mem.rd (a + 4) 4))

/-- The program of the active bank is loaded and armed, at the end of CONFIG (R162); a bank without one arms nothing. -/
def State.rfxArmBank (s : State) : State :=
  if s.hRfxImg s.bank = 0 then s
  else ((s.rfxLoad s.bank (s.fget F.rfxProgInfo_slot)).showProg (s.fget F.rfxProgInfo_slot)).rfxArm

/-- The program stops; every reflex-bound output takes its safe value (R163). -/
def State.rfxDisarm (s : State) : State :=
  { (s.fset F.rfxStatus_armed 0) with
    rfx := { s.rfx with pass := none, evPend := false, framePend := false }
    island := { s.island with rfxStop := true } }.showIsland

/-- The passes on the old program that run or wait at the exchange commit before it (R163). -/
def State.settlePasses : Nat → State → State
  | 0, s => s
  | k + 1, s =>
    match s.rfx.pass with
    | none => s
    | some p => State.settlePasses k (s.passEnd p (Vector.replicate 4 none) 0).nextPass

/-- A state image less what the carry-over masks at an address zero (R184): none at address 0. -/
def State.carryImage (s : State) (cov : Nat) (m : RImage) : RImage :=
  let mask (off n : Nat) : Nat := if cov = 0 then 0 else s.mem.rd (cov + off) n
  let tz := mask 128 8; let cz := mask 136 8
  { m with
    f := m.f &&& ~~~ (BitVec.ofNat 512 (mask 0 64))
    t := Vector.ofFn (fun (i : Fin 64) =>
      let t := vget m.t i.val
      if bitN tz i.val then { t with run := false, q := false, prev := false } else t)
    c := Vector.ofFn (fun (i : Fin 64) => if bitN cz i.val then {} else vget m.c i.val) }

/-- REFLEX_EXCHANGE (R184): the other slot's program becomes active; the state images carry over by index, less what the
carry-over masks of the bank zero. -/
def State.rfxExchange (s : State) : State :=
  let b := s.bank
  if s.hRfxImg b = 0 then s else
  let s := State.settlePasses 4 s
  let cov := if s.hRfxCov b = 0 then 0 else b + s.hRfxCov b
  let fs := if cov = 0 then 0 else s.mem.rd (cov + 64) 64
  let s := { s with rfx := { s.rfx with
    img := s.rfx.img.map (s.carryImage cov), fresh := true, settle := BitVec.ofNat 512 fs, evPend := false, framePend := false } }
  (s.fset F.rfxStatus_exchPend 0).showProg (1 - s.fget F.rfxProgInfo_slot)

/-- `RFX_CTRL.ARM`: acts only in SERVICE while disarmed (R165). No rule asks for a program in the slot: with none the model arms it
all the same [127]. -/
def State.rfxCtrlArm (s : State) : State :=
  if s.mod = .service ∧ !s.fbit F.rfxStatus_armed then s.rfxArm else s.ignoredIn 3
/-- `RFX_CTRL.DISARM`: acts only in SERVICE (R165). No rule says what it does while disarmed: the model takes it as a write that does
not act, and counts it [127]. -/
def State.rfxCtrlDisarm (s : State) : State :=
  if s.mod = .service ∧ s.fbit F.rfxStatus_armed then s.rfxDisarm else s.ignoredIn 3
def State.rfxClrCnt (s : State) : State := s.zero [R.rfxEvpasses, R.rfxAborts, R.rfxWaits]
def State.rfxClrMaxlat (s : State) : State := s.wr R.rfxMaxlat 0

/-- A write to `RFX_UNRETIRE` (R166). -/
def State.rfxUnretire (s : State) (v : W32) : State :=
  let e := fldN v.toNat 0 2
  if s.mod = .service ∧ fldN v.toNat 16 16 = 0x5EF1 ∧ s.enState e = 3 then
    let s := { s with rfx := { s.rfx with trans := vset s.rfx.trans e [] } }
    ((s.fset (F.rfxEnmState_trans24 e) 0).fset (F.rfxEnmState_state e) 2).showRfx.raise hapReflexReturn e []
  else s.ignoredIn 3

/-- `RFX_ARM` (R165). -/
def execRfxArm (m : Master) (s : State) : Res :=
  s.asWrite m R.rfxCtrl (fun s => s.rfxCtrlArm)
/-- `RFX_DISARM` (R163). -/
def execRfxDisarm (m : Master) (s : State) : Res :=
  s.asWrite m R.rfxCtrl (fun s => s.rfxCtrlDisarm)
/-- `RFX_CLR_CNT` (R165). -/
def execRfxClrCnt (m : Master) (s : State) : Res :=
  s.asWrite m R.rfxCtrl (fun s => s.rfxClrCnt)
/-- `RFX_CLR_MAXLAT` (R165). -/
def execRfxClrMaxlat (m : Master) (s : State) : Res :=
  s.asWrite m R.rfxCtrl (fun s => s.rfxClrMaxlat)
/-- `RFX_UNRETIRE` (R166). -/
def execRfxUnretire (m : Master) (v : W32) (s : State) : Res :=
  s.asWrite m R.rfxUnretire (fun s => s.rfxUnretire v)

end Sys2Proof.Machine
end

