-- ==== Sys2Proof/Machine/View.lean ====
section
/-!
DEFINITION. Physical memory as a master other than its owner reads it (R28, R29, R158, R413): beside the bytes written to it, the
instruction half and the commit buffer of a drupelet, the state of a reflex engine and the recorder's staging.
-/

namespace Sys2Proof.Machine

/-- A byte of a drupelet's local (R28, R104). -/
def State.druByte (s : State) (a : Nat) : Byte :=
  let d := s.dru (Fin.ofNat 32 ((a - 0x04000000) / 0x40000))
  let off := (a - 0x04000000) % 0x40000
  if off < 0x20000 then
    match d.lines.find? (fun l => l.1 == off / 64) with
    | some l => ((l.2.words.getD (off % 64 / 8) 0) >>> (8 * (off % 8))).setWidth 8
    | none => 0
  else if 0x3C000 ≤ off then
    match d.win with
    | some w => Config.bufferByte (w.stores.map (fun b => (b.addr, b.size, b.data))) (off - 0x3C000)
    | none => s.mem.byte a
  else s.mem.byte a

/-- A byte of a reflex engine's local (R158): its program slots, its committed state image, the working state of its running pass. -/
def State.rfxByte (s : State) (a : Nat) : Byte :=
  let e := (a - 0x04800000) / 0x80000
  let off := (a - 0x04800000) % 0x80000
  if off < 0x4000 then s.mem.byte a
  else if off < 0x5000 then Config.stateByte (vget s.rfx.img e) (off - 0x4000)
  else if off < 0x6000 then
    match s.rfx.pass with
    | some p => Config.stateByte (vget p.img e) (off - 0x5000)
    | none => s.mem.byte a
  else 0

/-- The staged record at a place of the staging: a circular buffer by record index (R413). -/
def State.stagedAt (s : State) (slot : Nat) : Option Record :=
  s.recd.staging[(slot + 4096 - (s.rd R.recFlushed).toNat % 4096) % 4096]?

def State.viewByte (s : State) (a : Nat) : Byte :=
  let rec_ := 0x05200000 + s.conf.recArea
  match regionOf a with
  | some .drupelet => s.druByte a
  | some .reflex => s.rfxByte a
  | some .shared =>
    if rec_ ≤ a ∧ a < rec_ + 0x40000 then
      match s.stagedAt ((a - rec_) / 64) with
      | some r => (recBytes r).getD ((a - rec_) % 64) 0
      | none => s.mem.byte a
    else s.mem.byte a
  | _ => s.mem.byte a

/-- `n` bytes from an address. -/
def State.view (s : State) (a n : Nat) : List Byte := (List.range n).map (fun i => s.viewByte (a + i))

end Sys2Proof.Machine
end

