-- ==== Sys2Proof/Machine/Dray.lean ====
section
/-!
DEFINITION. The Dray link (R347-R351, R355): lanes, credits, the four streams and their frames.
-/

namespace Sys2Proof.Machine

/-! Records that wait (R350, R351). -/

def drayLen (l : List (List Byte)) : Nat := l.foldl (fun n r => n + r.length) 0

/-- `DRAY_CHn_QUEUE`: whole KiB that wait. -/
def State.drayShow (s : State) : State :=
  let q (s : State) (n bytes : Nat) : State := s.wr (R.drayChnQueue n) (BitVec.ofNat 32 (bytes / 1024))
  q (q (q (q s 0 s.backlog) 1 (drayLen s.dray.hist)) 2 (drayLen s.dray.events)) 3
    (s.dray.bulk.foldl (fun n (b : Bulk) => n + (b.len - b.off)) 0)

/-- A record of the recorder joins the events stream; beyond 65,536 it is counted. -/
def State.drayEvent (s : State) (r : Record) : State :=
  if !s.configured then s
  else if s.dray.events.length ≥ 65536 then s.bump (R.drayChnDrop 2)
  else ({ s with dray := { s.dray with events := s.dray.events ++ [recBytes r] } }).drayShow

/-- The oldest records of the historian stream are dropped until the rest fits. -/
def histFit (limit : Nat) : List (List Byte) → Nat → List (List Byte) × Nat
  | [], d => ([], d)
  | r :: rest, d => if drayLen (r :: rest) ≤ limit then (r :: rest, d) else histFit limit rest (d + 1)

/-- A historian or telemetry record joins its stream. -/
def State.drayHist (s : State) (r : List Byte) : State :=
  let (q, d) := histFit (s.aget F.drayCfg_histMib * 2 ^ 20) (s.dray.hist ++ [r]) 0
  ({ s with dray := { s.dray with hist := q, histDropped := s.dray.histDropped + d } }.bumpBy (R.drayChnDrop 1) d).drayShow

/-- Table: Stream record header. -/
def streamRecord (type sub whenV ref : Nat) (body : List Byte) : List Byte :=
  leBytes 2 type ++ leBytes 2 sub ++ leBytes 4 (32 + body.length) ++ leBytes 8 whenV ++ leBytes 8 ref
    ++ List.replicate 8 0 ++ body

/-- HISTORIAN_RECORD: at a commit of a class, one record for each of its subscriptions that selects this commit. -/
def State.histCommit (s : State) (c : Cls) (cycle time : W64) : State :=
  let s1 := { s with dray := { s.dray with subs := s.dray.subs.map (fun (h : HistSub) =>
    if h.cls = c then { h with since := if h.since + 1 ≥ h.k then 0 else h.since + 1 } else h) } }
  if !s.token then s1
  else
    (s1.dray.subs.filter (fun h => h.cls == c && h.since == 0)).foldl (fun s h =>
      let value (id : W64) : List Byte :=
        match s.sym s.bank id with
        | some y =>
          let a := s.symAddr s.bank y
          let b := if y.kind = 2 then (List.range y.size).map (fun k => sget (fun _ => 0) s.mem.committed (a + k)) else s.mem.bytesAt a y.size
          (b ++ List.replicate 8 0).take 8
        | none => List.replicate 8 0
      s.drayHist (streamRecord 0x0101 h.sub cycle.toNat time.toNat (h.ids.flatMap value))) s1

/-! Frames (R348). -/

/-- Records of a queue that fit one frame whole, and the rest. -/
def packRecs (room : Nat) : List (List Byte) → List (List Byte) × List (List Byte)
  | [] => ([], [])
  | r :: rest =>
    if r.length ≤ room then ((r :: (packRecs (room - r.length) rest).1), (packRecs (room - r.length) rest).2)
    else ([], r :: rest)

/-- The room of a frame of 9,216 bytes for records. -/
def frameRoom : Nat := 9196

/-- The capture being sent: the first whose end record has not been sent. -/
def State.acqSending (s : State) : Option Capture := s.acq.captures.find? (fun c => c.endFrame.isNone)

/-- Capture records for one frame (R281): the state with the captures' progress, the records, and the capture that ends. -/
def State.acqPack : Nat → Nat → State → State × List (List Byte) × Option Nat
  | 0, _, s => (s, [], none)
  | n + 1, room, s =>
    match s.acqSending with
    | none => (s, [], none)
    | some c =>
      match s.nextRecord c with
      | none => (s, [], none)
      | some (r, c') =>
        if r.length > room then (s, [], none)
        else
          let s1 := { s with acq := { s.acq with captures := s.acq.captures.map (fun (d : Capture) => if d.num = c.num then c' else d) } }
          if r.take 1 = [4] then (s1, [r], some c.num)
          else
            let t := State.acqPack n (room - r.length) s1
            (t.1, r :: t.2.1, t.2.2)

/-- What a stream would send next: the state once its frame starts, the records, the capture that ends in it, the bulk
command whose last data it carries. -/
structure DrayNext where
  st : State
  recs : List (List Byte)
  capEnd : Option Nat := none
  bulkEnd : Option Nat := none

/-- The next bulk record: a 32-byte header and at most 8,192 bytes. -/
def State.bulkNext (s : State) (b : Bulk) : DrayNext :=
  let n := min 8192 (b.len - b.off)
  let r := streamRecord 0x0301 0 b.off b.tag.toNat (s.view (b.addr + b.off) n)
  let b' := { b with off := b.off + n, frames := b.frames + 1 }
  let last := b'.off ≥ b.len
  { st := { s with dray := { s.dray with bulk := if last then s.dray.bulk.drop 1 else b' :: s.dray.bulk.drop 1 } }
    recs := [r], bulkEnd := if last then some b.cmd else none }

/-- What stream `n` would send next, empty when it has nothing. -/
def State.drayNext (s : State) (n : Nat) : DrayNext :=
  match n with
  | 0 =>
    let t := State.acqPack 300 frameRoom s
    { st := t.1, recs := t.2.1, capEnd := t.2.2 }
  | 1 =>
    let p := packRecs frameRoom s.dray.hist
    let mark (r : List Byte) : List Byte :=
      if r.take 2 = [1, 1] then r.take 24 ++ leBytes 4 s.dray.histDropped ++ r.drop 28 else r
    let has := p.1.any (fun r => r.take 2 = [1, 1])
    let first := p.1.findIdx (fun r => r.take 2 = [1, 1])
    { st := { s with dray := { s.dray with hist := p.2, histDropped := if has then 0 else s.dray.histDropped } }
      recs := (List.range p.1.length).map (fun i => if i = first then mark (p.1.getD i []) else p.1.getD i []) }
  | 2 =>
    let p := packRecs frameRoom s.dray.events
    { st := { s with dray := { s.dray with events := p.2 } }, recs := p.1 }
  | _ =>
    match s.dray.bulk with
    | [] => { st := s, recs := [] }
    | b :: _ => s.bulkNext b

/-- The bytes of a frame. -/
def State.drayBytes (s : State) (n : Nat) (seq : Nat) (recs : List (List Byte)) : List Byte :=
  let body := recs.foldl (· ++ ·) []
  let f := leBytes 1 1 ++ leBytes 1 n ++ leBytes 2 (20 + body.length) ++ leBytes 4 seq
    ++ leBytes 1 (bit (s.fbit F.pairStatus_slot)) ++ leBytes 1 (s.fget F.pairStatus_state) ++ leBytes 2 recs.length
    ++ leBytes 4 0 ++ body
  f ++ leBytes 4 (crc32 f)

def frameCredits (len : Nat) : Nat := (len + 255) / 256

/-- `GRANTn` − `USED`. -/
def State.credit (s : State) (n : Nat) : Nat := (s.rd (R.drayChnGrant n) - s.rd (R.drayChnUsed n)).toNat

def State.streamOn (s : State) (n : Nat) : Bool := bitN (s.aget F.drayCfg_streamEn) n

/-- Whether a stream has something to send. -/
def State.streamReady (s : State) (n : Nat) : Bool :=
  s.dray.resend.any (fun (f : DrayFrame) => f.stream == n) || (s.drayNext n).recs != []

/-- The bytes of the frame that a stream would start: one to be sent again, or a new one. -/
def State.drayNeed (s : State) (n : Nat) : Nat :=
  match s.dray.resend.find? (fun (f : DrayFrame) => f.stream == n) with
  | some f => frameCredits f.bytes.length
  | none => frameCredits (20 + drayLen (s.drayNext n).recs)

/-- Whether the bulk stream's next record can be read: every page passes the CAT for class DRAY and no word is
uncorrectable (R378, R385). -/
def State.bulkCheck (s : State) : State × Bool :=
  match s.dray.bulk with
  | [] => (s, true)
  | b :: _ =>
    let n := min 8192 (b.len - b.off)
    let a := b.addr + b.off
    let pages := (List.range ((a + n + 4095) / 4096 - a / 4096)).map (fun i => max a ((a / 4096 + i) * 4096))
    let r := pages.foldl (fun (e : State × Bool) p => if e.2 then e.1.catAccess clsDray 3 .read p else e) (s, true)
    (r.1, r.2 && !s.mem.badSpan a n)

/-- Whether the data that the acquisition stream's next frame would read from the capture ring pass the CAT for class DRAY (R378). -/
def State.acqCheck (s : State) : State × Bool :=
  match s.acqSending with
  | none => (s, true)
  | some c =>
    let size := setBytes c.chmask
    let p := posIn c.segs size c.cur
    let n := min 8192 (s.capEnd c - p)
    let a := p % Sys2Proof.Machine.ringSize
    let k := min n (Sys2Proof.Machine.ringSize - a)
    let x := if k = 0 then (s, true) else s.spanAccess clsDray .read (c.base + a) k
    if x.2 ∧ k < n then x.1.spanAccess clsDray .read c.base (n - k) else x

/-- A frame is put on a lane: it uses its credits. -/
def State.putFrame (s : State) (lane : Nat) (f : DrayFrame) : State :=
  let n := f.stream
  let s := s.wr (R.drayChnUsed n) (s.rd (R.drayChnUsed n) + BitVec.ofNat 32 (frameCredits f.bytes.length))
  let used := (s.rd (R.drayChnUsed n)).toNat
  let caps := match f.capEnd with
    | some k => s.acq.captures.map (fun (c : Capture) => if c.num = k then { c with endFrame := some used } else c)
    | none => s.acq.captures
  { s with
    acq := { s.acq with captures := caps }
    dray := { s.dray with lane := vset s.dray.lane lane (some f), waits := s.dray.waits.del n } }

/-- A stream's next frame starts on a lane. -/
def State.startFrame (s : State) (lane n : Nat) : State :=
  match s.dray.resend.find? (fun (f : DrayFrame) => f.stream == n) with
  | some f =>
    { s with dray := { s.dray with resend := s.dray.resend.filter (fun g => g ≠ f) } }.putFrame lane f
  | none =>
    if n = 3 && s.dray.bulk.head?.any (fun (b : Bulk) => s.commitSpan (b.addr + b.off) (min 8192 (b.len - b.off))) then s else
    let (s, ok) := if n = 3 then s.bulkCheck else if n = 0 then s.acqCheck else (s, true)
    let x := s.drayNext n
    if !ok ∧ n = 0 then
      let used := (s.rd (R.drayChnUsed 0)).toNat
      ({ x.st with acq := { x.st.acq with captures := x.st.acq.captures.map (fun (c : Capture) =>
          if x.capEnd = some c.num then { c with endFrame := some used } else c) } }.bumpBy (R.drayChnDrop 0) x.recs.length).drayShow
    else if !ok then
      let sent := (s.dray.bulk.map (·.frames)).headD 0
      let keep (l : List Bulk) : List Bulk := match l with
        | b :: r => if x.bulkEnd.isNone then { b with frames := sent } :: r else b :: r
        | [] => []
      let t := { x.st with dray := { x.st.dray with bulk := keep x.st.dray.bulk } }.bump (R.drayChnDrop 3)
      match x.bulkEnd with
      | some id => (t.cmdDone id 0 sent).drayShow
      | none => t.drayShow
    else
      let seq := vget s.dray.seq n
      let f : DrayFrame := { stream := n, bytes := s.drayBytes n seq x.recs, capEnd := x.capEnd, bulkEnd := x.bulkEnd
                             frames := ((s.dray.bulk.map (·.frames)).headD 0) + 1 }
      let t := { x.st with dray := { x.st.dray with seq := vset x.st.dray.seq n ((seq + 1) % 2 ^ 32) } }
      (t.putFrame lane f).drayShow

def State.laneUp (s : State) (p : Nat) : Bool := s.fbit ⟨R.drayPpStatus p, 1, 1⟩
def State.flying (s : State) (n : Nat) : Nat :=
  (s.dray.lane.toList.filter (fun l => match l with | some f => f.stream == n | none => false)).length

/-- A frame that is ready and lacks credit is counted once. -/
def State.drayStall (s : State) (n : Nat) : State :=
  if s.dray.waits.has n then s
  else { s with dray := { s.dray with waits := s.dray.waits.add n } }.bump (R.drayChnStall n)

/-- `DRAY_FRAME_START` (R348-R350): the first stream in priority order that has a frame, is enabled, has the credit and
fewer than two frames in flight starts it on a free lane. -/
def execDrayFrameStart (lane : Fin 2) (s : State) : Res :=
  let cand := [2, 0, 1, 3].filter (fun n => s.streamOn n && s.streamReady n && decide (s.flying n < 2))
  let go := cand.find? (fun n => s.drayNeed n ≤ s.credit n)
  let short := cand.filter (fun n => s.credit n < s.drayNeed n)
  let s1 := short.foldl State.drayStall s
  s.when (s.laneUp lane.val && vget s.dray.lane lane.val == none && s.dray.credited)
    (match go with | some n => s1.startFrame lane.val n | none => s1)

/-- `DRAY_FRAME_END` (R350): a frame has been sent whole; the last bulk frame completes its command. -/
def execDrayFrameEnd (lane : Fin 2) (s : State) : Res :=
  match vget s.dray.lane lane.val with
  | none => .next s
  | some f =>
    let t := { s with dray := { s.dray with lane := vset s.dray.lane lane.val none } }.emit (.drayFrame lane.val f.bytes)
    let t := t.wr64 (R.drayChnFramesLo f.stream) (t.rd64 (R.drayChnFramesLo f.stream) + 1)
    match f.bulkEnd with
    | some id => .next (t.cmdDone id 0 f.frames)
    | none => .next t

/-! Lanes and credits (R347, R349). -/

def State.drayLink (s : State) : State :=
  let a := s.laneUp 0
  let b := s.laneUp 1
  (s.fsetb F.drayStatus_linkUp (a || b)).fsetb F.drayStatus_oneLane (a != b)

/-- `DRAY_LANE_UP` (R347, R349): 1 ms of block lock. When the link comes up, grants and uses are 0 and nothing is sent
before the first credit frame. An end record sent before and not yet acknowledged is so by the first credit returned [130]. -/
def execDrayLaneUp (p : Fin 2) (s : State) : Res :=
  let s1 := s.fset ⟨R.drayPpStatus p.val, 0, 2⟩ 3
  let fresh := !s.fbit F.drayStatus_linkUp
  let s2 := if fresh then
      let z := (s1.zero ((List.range 4).flatMap (fun n => [R.drayChnGrant n, R.drayChnUsed n]))).bump R.drayLinkups
      { z with
        dray := { z.dray with credited := false, first := Vector.replicate 4 0 }
        acq := { z.acq with captures := z.acq.captures.map (fun (c : Capture) => { c with endFrame := c.endFrame.map (fun _ => 1) }) } }
    else s1
  s.when (s.power.chip && !s.laneUp p.val) s2.drayLink

/-- `DRAY_LANE_DOWN` (R347, R349): 1 ms without block lock. A frame that was not completely sent is sent again, with the
same `SEQ`. -/
def execDrayLaneDown (p : Fin 2) (s : State) : Res :=
  let k := p.val
  let s1 := (s.fset ⟨R.drayPpStatus k, 0, 2⟩ 0).bumpF ⟨R.drayPpStatus k, 16, 16⟩
  let s2 := match vget s.dray.lane k with
    | some f =>
      let u := s1.wr (R.drayChnUsed f.stream) (s1.rd (R.drayChnUsed f.stream) - BitVec.ofNat 32 (frameCredits f.bytes.length))
      { u with dray := { u.dray with lane := vset u.dray.lane k none, resend := u.dray.resend ++ [f] } }
    | none => s1
  s.when (s.laneUp k) s2.drayLink

/-- CAPTURE_RELEASE (R283): captures are released, in the order opened, whose end record the returned credits acknowledge. -/
def State.captureRelease (s : State) : State :=
  let back := s.rd (R.drayChnGrant 0) - vget s.dray.first 0
  let held (c : Capture) : Bool := s.dray.resend.any (fun (f : DrayFrame) => f.capEnd == some c.num)
  let done (c : Capture) : Bool := match c.endFrame with
    | some u => decide ((back - BitVec.ofNat 32 u).toNat < 2 ^ 31) && !held c
    | none => false
  ({ s with acq := { s.acq with captures := s.acq.captures.dropWhile done } }).showBacklog.drayShow

/-- `CREDIT_FRAME_RX` (R349, R355): grants of the four streams; a grant too far ahead is ignored and counted. -/
def execCreditFrameRx (grants : Vector W32 4) (s : State) : Res :=
  let first := !s.dray.credited
  let s1 := (List.range 4).foldl (fun s n =>
    let g := vget grants n
    if (g - s.rd (R.drayChnUsed n)).toNat > 2 ^ 31 then s.ignoredIn 13
    else
      let s := s.wr (R.drayChnGrant n) g
      let s := if first then { s with dray := { s.dray with first := vset s.dray.first n g } } else s
      if s.fbit ⟨R.drayStatus, 2 + n, 1⟩ && decide (s.drayNeed n ≤ s.credit n) then s.fset ⟨R.drayStatus, 2 + n, 1⟩ 0 else s) s
  let s2 := { s1 with dray := { s1.dray with credited := true } }
  s.when (s.fbit F.drayStatus_linkUp) s2.captureRelease

/-- `DRAY_DRY` (R355): stream n has waited for credit for more than 1 ms. -/
def execDrayDry (n : Fin 4) (s : State) : Res :=
  s.when (s.fbit F.drayStatus_linkUp && s.streamOn n.val && s.streamReady n.val && decide (s.credit n.val < s.drayNeed n.val))
    (s.fset ⟨R.drayStatus, 2 + n.val, 1⟩ 1)

/-- `DRAY_CTRL.CLR_CNT`. -/
def State.drayClrCnt (s : State) : State :=
  s.zero ((List.range 4).flatMap (fun n => [R.drayChnStall n, R.drayChnDrop n]))
/-- `DRAY_CLR_CNT` (R355). -/
def execDrayClrCnt (m : Master) (s : State) : Res :=
  s.asWrite m R.drayCtrl (fun s => s.drayClrCnt)

end Sys2Proof.Machine
end

