-- ==== Sys2Proof/Machine/Brm.lean ====
section
/-!
DEFINITION. The Bramble: taking work, window ends and commits, self-test verdicts, retirement and the audit (R78-R103),
and the clocks of its clusters (R22-R25).
-/

namespace Sys2Proof.Machine

/-! Taking work (R80). -/

/-- Where a drupelet found work. -/
inductive Found where
  | restart (k : Nat) (oc : OpenChain)
  | yielded (oc : OpenChain)
  | own (w : Work)
  | overflow (w : Work)
  | steal (i : Fin 32) (w : Work)
  deriving DecidableEq, Repr

/-- The restart entry of a class that a drupelet may take: its own cluster's first, then of the other clusters the oldest raised
over all of them [112]; never a window that it has itself mismatched (R80, R91, R93). -/
def State.restartFor (s : State) (be : Fin 32) (c : Cls) : Option (Nat × OpenChain) :=
  let ok (e : Nat × OpenChain) : Bool := e.2.desc.cls == c && !e.2.barred.getLsbD be.val
  match s.brm.restarts.find? (fun e => ok e && e.1 == be.val / 8) with
  | some e => some e
  | none => s.brm.restarts.find? ok

/-- The drupelet of a cluster with the fullest deque of a class, ties to the lowest number (R80). -/
def State.fullest (s : State) (cluster : Nat) (c : Cls) : Option (Fin 32) :=
  let cand := (List.range 8).map (fun k => Fin.ofNat 32 (cluster * 8 + k))
  let len (i : Fin 32) : Nat := (vget (s.dru i).deques c.num).length
  cand.foldl (fun best i => match best with
    | none => if len i = 0 then none else some i
    | some b => if len b < len i then some i else best) none

/-- The first item of a class in the order of R80. -/
def State.findCls (s : State) (be : Fin 32) (c : Cls) : Option Found :=
  match s.restartFor be c with
  | some (k, oc) => some (.restart k oc)
  | none =>
    match s.brm.yielded.find? (fun o => o.desc.cls == c) with
    | some oc => some (.yielded oc)
    | none =>
      match (vget (s.dru be).deques c.num).getLast? with
      | some w => some (.own w)
      | none =>
        match (vget s.brm.overflow c.num).head? with
        | some w => some (.overflow w)
        | none =>
          let k := be.val / 8
          match [k, (k + 1) % 4, (k + 2) % 4, (k + 3) % 4].findSome? (fun j => s.fullest j c) with
          | some i => (vget (s.dru i).deques c.num).head?.map (Found.steal i)
          | none => none

def State.findWork (s : State) (be : Fin 32) : Option Found := [Cls.e, .f, .n, .s].findSome? (s.findCls be)

/-- The registers at the start of a chain (R106). -/
def State.startCore (s : State) (w : Work) (d : ChainDesc) : Core :=
  let c : Core := { ib := BitVec.ofNat 40 (0x02000000 + d.instOff), pb := BitVec.ofNat 40 (s.winBase d.cls)
                    cb := BitVec.ofNat 40 s.bank, pc := BitVec.ofNat 24 d.entry }
  if d.cls = .e then gSet c 1 (BitVec.ofNat 64 w.slot) else c

/-- A window starts on a drupelet from a checkpoint (R84). -/
def State.startWindow (s : State) (be : Fin 32) (oc : OpenChain) (upset upsetH : W64) : State := s.openWindow be oc upset upsetH none

/-- The chain whose execution step-exact trace follows next: the one named, or the next in ascending index (R99, R450). -/
def State.traceNext (s : State) : Option Nat :=
  match s.obs.sel with
  | none => none
  | some v =>
    if s.obs.traced = none then none
    else if v.chain ≠ 0xFFFF then some v.chain
    else
      let ix := (s.chains s.bank).map (·.chain)
      match (ix.filter (fun i => decide (s.obs.pos < i))).min? with
      | some i => some i
      | none => ix.min?

/-- The ranges of memory that an execution of a chain reads, scratch and the code bank apart (R75, R121). -/
def State.readRanges (s : State) (d : ChainDesc) : List (Nat × Nat) :=
  (d :: (s.preds d).filterMap s.chain).map (fun c => (0x02000000 + c.instOff, c.instLen)) ++ [(s.winBase d.cls, 0x80000)]

/-- Whether an execution of a chain reads of an address, the code bank included. -/
def State.readsAt (s : State) (d : ChainDesc) (a : Nat) : Bool :=
  (s.readRanges d).any (fun r => inRange a 1 r.1 r.2) || inRange a 1 s.bank 0x1000000

/-- A snapshot of a chain's read set before its execution's first commit (R98). -/
def State.snapshot (s : State) (w : Work) (d : ChainDesc) : Snapshot :=
  { work := w, cycle := s.period d.cls
    cells := s.mem.bytes.filter (fun e => s.readsAt d e.1), bad := s.mem.poison.filter (fun e => s.readsAt d (e.1 * 8))
    len := (s.readRanges d).foldl (fun n r => n + r.2) 0 }

/-- Snapshots before an execution that will be traced (R450), and, in ALONE while the audit is enabled, before every execution
(R98) [109]. -/
def State.takeSnaps (s : State) (w : Work) (d : ChainDesc) : State :=
  let s := if s.traceNext = some w.chain ∧ s.obs.replica = none then { s with obs := { s.obs with snap := some (s.snapshot w d) } } else s
  if s.mod = .alone ∧ s.abit F.brmAuditCtrl_en then { s with brm := { s.brm with snaps := s.brm.snaps ++ [s.snapshot w d] } } else s

def State.startWork (s : State) (be : Fin 32) (w : Work) (upset upsetH : W64) : State :=
  match s.chain w.chain with
  | none => s
  | some d => (s.takeSnaps w d).startWindow be { work := w, desc := d, cp := s.startCore w d } upset upsetH

/-- The open chains (R82). -/
def State.openCount (s : State) : Nat :=
  s.brm.restarts.length + s.brm.yielded.length + ((List.finRange 32).filter (fun i => (s.dru i).win.isSome)).length

/-- Whether this module runs the scan. -/
def State.scanRuns (s : State) : Bool :=
  s.scan.run == .running && (s.mod == .primary || s.mod == .alone || s.mod == .service)

/-- Whether the PLL of a drupelet's cluster is locked (R23). -/
def State.clocked (s : State) (be : Fin 32) : Bool := (vget s.clk (be.val / 8)).pll == .locked

/-- The traced drupelet starts the replica that waits (R450). -/
def State.startReplica (s : State) (be : Fin 32) : State :=
  match s.obs.replica, (s.dru be).win with
  | some x, none =>
    match s.chain x.work.chain with
    | none => { s with obs := { s.obs with replica := none } }
    | some d =>
      { s with obs := { s.obs with replica := none, pos := x.work.chain } }.openWindow be
        { work := x.work, desc := d, cp := s.startCore x.work d } 0 0 (some { kind := .trace, snap := x })
  | _, _ => s

/-! Audit replicas as windfall work (R48, R98-R100, R393, R395). -/

def bitsOf (m : BitVec 32) : List (Fin 32) := (List.finRange 32).filter (fun i => m.getLsbD i.val)

/-- Whether a drupelet of a cluster stands in an execution mask. -/
def ranIn (m : BitVec 32) (k : Nat) : Bool := (bitsOf m).any (fun i => i.val / 8 == k)

/-- Whether the replica of an audit may run in a cluster: in ALONE not where the original ran (R98); the second in a third
cluster, neither where the original ran nor where the first replica did (R100). Where the original ran in all the others, the
second runs in any but the first's [113]. -/
def State.clusterOk (s : State) (mask : BitVec 32) (first : Option (W64 × Nat)) (k : Nat) : Bool :=
  match first with
  | none => s.mod != .alone || !ranIn mask k
  | some (_, be1) => k != be1 / 8 && (!ranIn mask k || [0, 1, 2, 3].all (fun j => j == be1 / 8 || ranIn mask j))

/-- Drupelet time in ns of the present F-cycle up to now: that of the audit, and that which no foreground window took (R99). -/
def State.auditSpent (s : State) : Nat :=
  (List.finRange 32).foldl (fun n i => match (s.dru i).win with
    | some w => if w.audit && w.phase == .running then n + s.heldNs w else n
    | none => n) s.brm.auditNs
def State.windfallNs (s : State) : Nat :=
  let fg := (List.finRange 32).foldl (fun n i => match (s.dru i).win with
    | some w => if w.rep.isNone && w.phase == .running then n + s.heldNs w else n
    | none => n) s.brm.fgNs
  s.actives.length * (s.time.tb1 - s.brm.cycleAt).toNat - fg

/-- Whether the audit's share of the F-cycle is not used up (R99): of the drupelet time of a standby Bramble's F period, in ALONE
of the windfall time that the F-cycle has had so far [114]. -/
def State.auditShare (s : State) : Bool :=
  if s.mod = .standby then
    decide (s.auditSpent * 100 < s.aget F.brmAuditCtrl_pairPct * (min 30 s.actives.length * s.fPeriod * 1000))
  else decide (s.auditSpent * 100 < s.aget F.brmAuditCtrl_alonePct * s.windfallNs)

/-- Whether a drupelet may take an audit replica: the audit is enabled and runs in this module's state, no carry-over suspends it
(R177), the cluster is not parked, and time is left. -/
def State.auditMay (s : State) (be : Fin 32) : Bool :=
  s.abit F.brmAuditCtrl_en && s.scan.run == .running && (s.mod == .standby || s.mod == .alone) && s.olc.carry.isNone
    && !(s.aget F.wfCfg_park).testBit (be.val / 8) && s.auditShare

/-- The memory kept for the latest completed execution of a chain, where its audit may begin: not audited yet, no audit of it under
way, no block of its read set awaited from the PRIMARY (R386), and in ALONE a cluster left that did not run it. -/
def State.auditReady (s : State) (d : ChainDesc) : Option (SigRec × Snapshot) :=
  match s.brm.sigs.find? (·.chain == d.chain) with
  | none => none
  | some r =>
    if r.audited || s.brm.audits.any (fun (a : Audit) => a.snap.work.chain == d.chain)
      || s.integ.asked.any (fun b => s.readsAt d (b * 256)) || !([0, 1, 2, 3].any (s.clusterOk r.execMask none)) then none
    else (s.brm.snaps.find? (fun (x : Snapshot) => x.work.chain == d.chain && x.cycle == r.cycle)).map (fun x => (r, x))

/-- The chains in the order of the audit's walk: ascending index from the one after that taken last, with wrap (R99). -/
def State.auditOrder (s : State) : List ChainDesc :=
  let ds := (sortNat ((s.chains s.bank).map (·.chain))).filterMap s.chain
  match s.brm.auditPos with
  | none => ds
  | some p => ds.filter (fun d => decide (p < d.chain)) ++ ds.filter (fun d => decide (d.chain ≤ p))

/-- A turn of the walk comes to a chain: a pass through the table ends when the index does not rise, and its length in F-cycles
and the share of each class audited are shown (R99). -/
def State.auditTurn (s : State) (chain : Nat) : State :=
  let now := s.rd64 R.scanCycleLo
  let fresh (s : State) : State := { s with brm := { s.brm with
    auditPos := some chain, auditLapStart := now, auditedN := Vector.replicate 4 0, executedN := Vector.replicate 4 0 } }
  match s.brm.auditPos with
  | none => fresh s
  | some p =>
    if p < chain then { s with brm := { s.brm with auditPos := some chain } }
    else
      let pm (k : Nat) : Nat := min 1000 (vget s.brm.auditedN k * 1000 / max 1 (vget s.brm.executedN k))
      let lap := (now - s.brm.auditLapStart).toNat
      let s := s.wr R.brmAuditLap (BitVec.ofNat 32 lap)
      let s := s.wr R.brmAuditCov (BitVec.ofNat 32 (pm 1 + pm 2 * 1024 + pm 3 * 1048576))
      fresh (s.wfDone 4 (lap * s.fPeriod / 1000))

/-- A drupelet takes the audit's work (R99, R393): a replica that has yielded, or that is to be the second of its audit; otherwise
the first replica of the audit next in the walk. -/
def State.takeAudit (s : State) (be : Fin 32) (upset upsetH : W64) : State :=
  let here (a : Audit) : Bool := s.clusterOk a.execMask a.first (be.val / 8) && (match a.place with
    | .on _ => false
    | .waiting => true
    | .yielded oc _ => !oc.barred.getLsbD be.val)
  let go (s : State) (a : Audit) (oc : OpenChain) (x : Snapshot) : State :=
    ({ s with brm := { s.brm with audits := s.brm.audits.map (fun (b : Audit) => if b = a then { b with place := RepAt.on be.val } else b) } }.openWindow
      be oc upset upsetH (some { kind := .audit, snap := x })).showAudit
  let start (s : State) (a : Audit) : State :=
    match s.chain a.snap.work.chain with
    | some d => go s a { work := a.snap.work, desc := d, cp := s.startCore a.snap.work d } a.snap
    | none => s
  if !s.auditMay be then s
  else
    match s.brm.audits.find? here with
    | some a => (match a.place with | .yielded oc x => go s a oc x | _ => start s a)
    | none =>
      match s.auditOrder.findSome? s.auditReady with
      | none => s
      | some (r, x) =>
        if !s.clusterOk r.execMask none (be.val / 8) then s
        else
          let a : Audit := { snap := x, recorded := r.sig, execMask := r.execMask }
          let s := s.auditTurn r.chain
          start { s with brm := { s.brm with audits := s.brm.audits ++ [a] } } a

/-- A drupelet looks for work and takes the first item of R80, and windfall work when it finds none; `upset` is the disturbance
between its cores' signatures that the window it starts will meet, `upsetH` that of a handler's window after it [7]. While 256
chains are open it starts no new one [115]. -/
def State.takeWork (s : State) (be : Fin 32) (upset upsetH : W64) : State :=
  let d := s.dru be
  if s.obs.drain = some be.val then s.traceEnter be
  else if !s.clocked be then s
  else if d.st = .traced then s.startReplica be
  else if d.st ≠ .active ∨ d.win.isSome then s
  else if !s.scanRuns then s.takeAudit be upset upsetH
  else
    match s.findWork be with
    | none => s.takeAudit be upset upsetH
    | some (.restart k oc) =>
      (({ s with brm := { s.brm with restarts := s.brm.restarts.erase (k, oc) } }.bump R.brmRestarts).obsCount 0x0223).startWindow be oc upset upsetH
    | some (.yielded oc) => { s with brm := { s.brm with yielded := s.brm.yielded.erase oc } }.startWindow be oc upset upsetH
    | some (.own w) =>
      if s.openCount ≥ 256 then s else
      let c := (s.chain w.chain).elim 0 (fun x => x.cls.num)
      (s.setDru be { d with deques := vmod d.deques c List.dropLast }).startWork be w upset upsetH
    | some (.overflow w) =>
      if s.openCount ≥ 256 then s else
      let c := (s.chain w.chain).elim 0 (fun x => x.cls.num)
      ({ s with brm := { s.brm with overflow := vmod s.brm.overflow c List.tail } }.bump R.brmStealX).startWork be w upset upsetH
    | some (.steal i w) =>
      if s.openCount ≥ 256 then s else
      let c := (s.chain w.chain).elim 0 (fun x => x.cls.num)
      let s := s.setDru i { s.dru i with deques := vmod (s.dru i).deques c List.tail }
      ((s.bump (if i.val / 8 = be.val / 8 then R.brmStealIn else R.brmStealX)).obsCount
        (if i.val / 8 = be.val / 8 then 0x0221 else 0x0222)).startWork be w upset upsetH

/-- `WORK_TAKE` (R80): a drupelet looking for work takes the first item in the order of R80. -/
def execWorkTake (be : Fin 32) (upset upsetH : W64) (s : State) : Res := .next (s.takeWork be upset upsetH)

/-- `WINDOW_TIME_LIMIT` (R83): 38,400 leading-core clocks since the window start end the window. -/
def execWindowTimeLimit (be : Fin 32) (s : State) : Res :=
  match (s.dru be).win with
  | some w => s.when (w.phase == .running) (s.windowEnd be w false)
  | none => .next s

/-- `WINDOW_STORE_LIMIT` (R83): the 2,048th store ends the window. -/
def execWindowStoreLimit (be : Fin 32) (s : State) : Res :=
  match (s.dru be).win with
  | some w => s.when (w.phase == .running && decide (storeCount w ≥ 2048)) (s.windowEnd be w false)
  | none => .next s

/-! Commit (R87-R89, R384). -/

/-- One buffered store written; the address of a word that lost its bytes to an uncorrectable word (R384). -/
def State.commitStore (s : State) (be : Fin 32) (b : Buffered) : State × Option Nat :=
  let p := physOf be b.addr
  let lost := b.size < 8 && s.mem.bad (p / 8)
  let s1 := s.wrMem p (leBytes b.size b.data.toNat)
  let s1 := if s.tracked p then s1.markDirty p b.size else s1
  (s1, if lost then some p else none)

/-- Every store of the window in program order; the words that lost bytes. -/
def State.commitStores (s : State) (be : Fin 32) : List Buffered → State × List Nat
  | [] => (s, [])
  | b :: r =>
    let (s, x) := s.commitStore be b
    let (s, xs) := s.commitStores be r
    (s, match x with | some a => a :: xs | none => xs)

/-- What a word lost in the instance store leads to after a commit (R384): release in a PRIMARY with a STANDBY partner;
elsewhere the block is reinitialised and the chain abandoned. -/
def State.afterLost (s : State) (lost : List Nat) : State × Bool :=
  let s := lost.foldl (fun s a => s.eccUe a false) s
  match lost.find? (fun a => regionOf a == some .instance_) with
  | none => (s, false)
  | some a =>
    if s.mod = .primary ∧ s.partner = .standby then ((s.fset F.memUeInfo_released 1).dropClaim 7, true)
    else (s.reinitBlock (a / 256), true)

/-- A window's commit ends (R87 to R89): its stores are in memory, its blocks dirty; the chain is complete, yields, or
starts its next window. The end of an audit replica's window writes nothing (R98). -/
def State.commitEnd (s : State) (be : Fin 32) (upset upsetH : W64) : State :=
  match (s.dru be).win with
  | none => s
  | some w =>
    match w.phase with
    | .committing chainEnd =>
      if w.rep.isSome then (if chainEnd then s else s.goOn be w w.after upset upsetH)
      else
        let (s, lost) := s.commitStores be w.stores
        let s := ((s.wr64 R.brmWindowsLo (s.rd64 R.brmWindowsLo + 1)).obsCount 0x0200).obsCount (0x0201 + be.val)
        let oc := { w.after with execMask := w.oc.execMask ||| BitVec.ofNat 32 (2 ^ be.val) }
        let s := s.obsWindow be w (if (s.dru be).yieldReq && !chainEnd then .yielded else .commit)
        let (s, gone) := s.afterLost lost
        if gone then (if s.scanRuns then s.abandon be { w with oc := oc } 0 else s.setDru be { s.dru be with win := none, yieldReq := false })
        else if chainEnd then (s.setDru be { s.dru be with win := none, yieldReq := false }).chainDone be oc w.core.sig
        else s.goOn be w oc upset upsetH
    | _ => s

/-- `WINDOW_COMMIT_END` (R87): a window commit ends; `upset` and `upsetH` are the disturbances that the next window, and a handler's
window after it, will meet [7]. -/
def execWindowCommitEnd (be : Fin 32) (upset upsetH : W64) (s : State) : Res := .next ((s.commitEnd be upset upsetH).traceEnter be)

/-! Self-test and retirement (R94, R95, R97, R103). -/

def hapVerdict : Hap := ⟨3, 3, 2, none, true⟩
def hapReturn : Hap := ⟨3, 4, 2, none, true⟩

/-- A drupelet is retired with a verdict (2 core failed, 3 comparator or delay path suspect) on a chain: privileged record and the
reserve-reduced event (R94, R97). -/
def State.retire (s : State) (be : Fin 32) (v : Nat) (core : Bool) (chain : Nat) : State :=
  let s := s.deactivate be .retired
  let s := (s.setDru be { s.dru be with verdict := BitVec.ofNat 2 v, verdictCore := core, unretire := false, wasTraced := false }).showBrm
  let s := s.raise hapVerdict be.val
    [BitVec.ofNat 64 v, BitVec.ofNat 64 (bit core), BitVec.ofNat 64 chain, s.rd64 R.scanCycleLo]
  s.event 0x0038 2 be.val [BitVec.ofNat 64 be.val, BitVec.ofNat 64 v, BitVec.ofNat 64 s.actives.length]

/-- The verdict of a self-test (Table: Drupelet state transitions, R94, R103). -/
def State.drupeletVerdict (s : State) (be : Fin 32) (v : TestVerdict) : State :=
  let d := s.dru be
  if d.st ≠ .selfTest then s
  else
    match v with
    | .leadingFails => s.retire be 2 false d.lastChain.toNat
    | .checkerFails => s.retire be 2 true d.lastChain.toNat
    | .bothPass =>
      if d.unretire || d.wasTraced then
        ((s.setDru be { d with st := .pending }).raise hapVerdict be.val [0, 0, BitVec.ofNat 64 d.lastChain.toNat, s.rd64 R.scanCycleLo]).showBrm
      else
        let now := s.time.tb3
        let tr := now :: recent now d.transients
        let again := d.cleanMism.any (fun e => e.1 == d.lastChain.toNat && decide (now < e.2 + 86400))
        let s := s.setDru be { d with transients := tr, cleanMism := (d.lastChain.toNat, now) :: d.cleanMism }
        if tr.length ≥ 3 ∨ again then s.retire be 3 false d.lastChain.toNat
        else
          let s := (s.setDru be { s.dru be with st := .pending, verdict := 1 }).bump R.brmTransients
          (s.raise hapVerdict be.val [1, 0, BitVec.ofNat 64 d.lastChain.toNat, s.rd64 R.scanCycleLo]).showBrm

/-- `DRUPELET_SELFTEST_VERDICT` (R94): a drupelet's self-test ends with a verdict. -/
def execDrupeletSelftestVerdict (be : Fin 32) (v : TestVerdict) (s : State) : Res := .next (s.drupeletVerdict be v)

/-- Pending drupelets become active at an F boundary with their deques empty; a return to service is recorded (R94,
R103). One whose cluster's PLL is not locked is in a cluster that is down (R78). -/
def State.admitPending (s : State) : State :=
  ((List.finRange 32).foldl (fun s i =>
    let d := s.dru i
    if d.st ≠ .pending then s
    else
      let s := s.setDru i { d with st := if s.clocked i then .active else .clusterDown, unretire := false, wasTraced := false, lines := [], deques := Vector.replicate 4 [] }
      if d.unretire then s.raise hapReturn i.val [] else s) s).showBrm

/-! The audit (R98-R100). -/

def hapAudit : Hap := ⟨3, 5, 2, none, true⟩
def hapInconclusive : Hap := ⟨3, 6, 2, none, false⟩

/-- Drupelets of a mask retired as comparator suspect, on a chain (R94, R100). -/
def State.retireMask (s : State) (chain : Nat) (m : BitVec 32) : State :=
  (bitsOf m).foldl (fun s i => if (s.dru i).st = .retired then s else s.retire i 3 false chain) s

/-- The audit verdicts received are applied (R100). -/
def State.applyVerdicts (s : State) : State :=
  let t := s.brm.retireReq.foldl (fun (s : State) (e : Nat × BitVec 32) => s.retireMask e.1 e.2) s
  { t with brm := { t.brm with retireReq := [] } }

/-- A confirmed disagreement: counted, alarmed, recorded (R100). -/
def State.auditFail (s : State) (chain : Nat) : State :=
  ((s.bump R.brmAuditFail).fset F.brmStatus_auditAlarm 1).raise hapAudit 0 [BitVec.ofNat 64 chain]

/-- An audit ends: the execution counts as audited (R99). -/
def State.auditClose (s : State) (a : Audit) : State :=
  let c := (s.chain a.snap.work.chain).elim Cls.e (·.cls)
  { s.bump R.brmAuditDone with brm := { s.brm with
    audits := s.brm.audits.filter (fun (b : Audit) => b ≠ a)
    auditedN := vmod s.brm.auditedN c.num (· + 1)
    sigs := s.brm.sigs.map (fun (r : SigRec) =>
      if r.chain = a.snap.work.chain ∧ r.cycle = a.snap.cycle then { r with audited := true } else r) } }

/-- A replica of an audit has completed on drupelet `be` with a signature (R98, R100): a match ends the audit of the execution; a
difference calls a second replica, whose signature decides. -/
def State.auditResult (s : State) (be : Fin 32) (a : Audit) (sig : W64) : State :=
  let chain := a.snap.work.chain
  match a.first with
  | none =>
    if sig = a.recorded then s.auditClose a
    else { s with brm := { s.brm with audits := s.brm.audits.map (fun (b : Audit) =>
      if b = a then { b with first := some (sig, be.val), place := .waiting } else b) } }
  | some (sig1, be1) =>
    let s := s.auditClose a
    if sig = a.recorded then (s.auditFail chain).retireMask chain (BitVec.ofNat 32 (2 ^ be1))
    else if sig = sig1 then
      let s := s.auditFail chain
      if s.mod = .standby then s.send (.auditVerdict chain a.execMask) else s.retireMask chain a.execMask
    else s.raise hapInconclusive be.val [BitVec.ofNat 64 chain]

/-- The replica that runs on a drupelet has ended its chain: its signature is compared. -/
def State.auditReplica (s : State) (be : Fin 32) : State :=
  match (s.dru be).win, s.brm.audits.find? (fun (a : Audit) => a.place == RepAt.on be.val) with
  | some w, some a =>
    if w.audit && w.phase == .committing true then
      ((s.setDru be { s.dru be with win := none, yieldReq := false }).auditResult be a w.core.sig).showAudit.obsCount 0x0225
    else s
  | _, _ => s

/-- `AUDIT_REPLICA_COMPLETE` (R100): an audit replica completes and its signature is compared with the record. Carry-over suspends
it (R177). -/
def execAuditReplicaComplete (be : Fin 32) (s : State) : Res := s.when s.olc.carry.isNone (s.auditReplica be)

/-- `AUDIT_VERDICT_RX` (R100): the PRIMARY receives an audit verdict, on a chain, and applies it at the next F boundary. -/
def execAuditVerdictRx (id chain : Nat) (mask : BitVec 32) (s : State) : Res :=
  if s.mod = .primary then s.onceOnly id { s with brm := { s.brm with retireReq := s.brm.retireReq ++ [(chain, mask)] } }
  else .next s

/-- BRM_CTRL.CLR_CNT (R101). -/
def State.brmClrCnt (s : State) : State := s.zero [R.brmStealIn, R.brmStealX, R.brmRestarts, R.brmAuditDone]

/-- `BRM_CLR_CNT` (R101): clears the steal, restart and audit-done counters. -/
def execBrmClrCnt (m : Master) (s : State) : Res :=
  s.asWrite m R.brmCtrl (fun s => s.brmClrCnt)

/-- A write of `BRM_UNRETIRE` (R103). -/
def State.brmUnretire (s : State) (v : W32) : State :=
  let be := Fin.ofNat 32 (fldN v.toNat 0 5)
  if s.mod = .service ∧ fldN v.toNat 16 16 = 0x7A11 ∧ (s.dru be).st = .retired then
    (s.setDru be { s.dru be with st := .selfTest, unretire := true, transients := [], cleanMism := [], lines := [] }).showBrm
  else s.ignoredIn 2

/-- `BRM_UNRETIRE` (R103): a keyed write in SERVICE sends a retired drupelet to full self-test. -/
def execBrmUnretire (m : Master) (v : W32) (s : State) : Res :=
  s.asWrite m R.brmUnretire (fun s => s.brmUnretire v)

/-! Clocks (R22-R25). -/

def State.modClk (s : State) (c : Fin 4) (f : Cluster → Cluster) : State := { s with clk := vmod s.clk c.val f }

def clusterBes (c : Fin 4) : List (Fin 32) := (List.range 8).map (fun k => Fin.ofNat 32 (c.val * 8 + k))

/-- Whether the eight drupelets of a cluster are idle: no window, no self-test, no chain dealt to them. -/
def State.clusterIdle (s : State) (c : Fin 4) : Bool :=
  (clusterBes c).all (fun i => (s.dru i).win.isNone && (s.dru i).st != .selfTest && (s.dru i).deques.toList.all List.isEmpty)

/-- `WF_STATUS.PARKED` of a cluster: parked, and idle with its clock tree gated off (R395, R406). -/
def State.showParked (s : State) (c : Fin 4) : State :=
  s.fsetb ⟨R.wfStatus, 4 + c.val, 1⟩ ((s.aget F.wfCfg_park).testBit c.val && (vget s.clk c.val).gated)

/-- `CLUSTER_CLOCK_GATE` (R22): a cluster whose eight drupelets are all idle gates its clock tree off. -/
def execClusterClockGate (c : Fin 4) (s : State) : Res :=
  s.when (s.clusterIdle c) ((s.modClk c (fun k => { k with gated := true })).showParked c)

/-- The drupelets of a cluster count as down, or as active again, with its PLL (R78, R97). -/
def State.clusterState (s : State) (c : Fin 4) (down : Bool) : State :=
  (clusterBes c).foldl (fun s i =>
    let d := s.dru i
    if down ∧ d.st = .active then s.deactivate i .clusterDown
    else if ¬ down ∧ d.st = .clusterDown then (s.setDru i { d with st := .active, deques := Vector.replicate 4 [] }).showBrm
    else s) s

/-- `CLUSTER_PLL_POWER_DOWN` (R23): after 20 ms of continuous idle a cluster PLL powers down. -/
def execClusterPllPowerDown (c : Fin 4) (s : State) : Res :=
  s.when (s.clusterIdle c && (vget s.clk c.val).pll == .locked)
    (((s.modClk c (fun _ => { pll := .down, gated := true })).showParked c).clusterState c true)

/-- `CLUSTER_PLL_RELOCK_START` (R23): the scheduler starts the relock of a powered-down cluster. -/
def execClusterPllRelockStart (c : Fin 4) (s : State) : Res :=
  s.when ((vget s.clk c.val).pll == .down) (s.modClk c (fun k => { k with pll := .relocking }))

/-- `CLUSTER_PLL_LOCKED` (R23): a cluster PLL achieves lock. A relock puts the cluster back in the pool; after a loss of
lock it must first hold for 1 ms (R25). -/
def execClusterPllLocked (c : Fin 4) (s : State) : Res :=
  s.when ((vget s.clk c.val).pll == .relocking) ((s.modClk c (fun k => { k with pll := .locked })).clusterState c false)

def hapPll : Hap := ⟨3, 7, 2, none, false⟩

/-- The open window of a drupelet that has lost its clock (R25): a commit under way ends [116]; any other window is discarded, and
its chain restarts from the checkpoint. A replica goes on elsewhere, a traced one is given up. -/
def State.clockLost (s : State) (c : Nat) (i : Fin 32) : State :=
  let s := match (s.dru i).win with
    | some w => (match w.phase with | .committing _ => if w.rep.isNone then s.commitEnd i 0 0 else s | _ => s)
    | none => s
  match (s.dru i).win with
  | some w =>
    match w.rep with
    | some r => if w.audit then s.auditLeave i w.oc r else s.setWin i none
    | none =>
      { s.setDru i { s.dru i with win := none, yieldReq := false } with
        brm := { (s.setDru i { s.dru i with win := none, yieldReq := false }).brm with restarts := s.brm.restarts ++ [(c, w.oc)] }
        integ := { s.integ with wanted := s.integ.wanted.filter (fun e => e.1 ≠ i.val) } }
  | none => s

/-- `PLL_LOSS_OF_LOCK` (R25): the open windows of the cluster are discarded and their chains restart from their
checkpoints on drupelets of other clusters; the cluster leaves the pool. A cluster that has not yet re-entered stays out. -/
def execPllLossOfLock (c : Fin 4) (s : State) : Res :=
  let s1 := (clusterBes c).foldl (fun s i => s.clockLost c.val i) (s.modClk c (fun k => { k with pll := .lost }))
  let s1 := s1.clusterState c true
  let p := (vget s.clk c.val).pll
  s.when (p == .locked || p == .held || p == .lost) (s1.raise hapPll c.val [])

/-- `CLUSTER_REENTER` (R25): after its PLL has held lock for 1 ms the cluster re-enters the pool at the next cycle
boundary; until then it is held. -/
def execClusterReenter (c : Fin 4) (s : State) : Res :=
  s.when ((vget s.clk c.val).pll == .lost)
    (if s.scanRuns then s.modClk c (fun k => { k with pll := .held })
     else (s.modClk c (fun k => { k with pll := .locked })).clusterState c false)

/-- Held clusters re-enter at a cycle boundary (R25). -/
def State.reenterHeld (s : State) : State :=
  (List.finRange 4).foldl (fun s c =>
    if (vget s.clk c.val).pll = .held then (s.modClk c (fun k => { k with pll := .locked })).clusterState c false else s) s

end Sys2Proof.Machine
end

