-- ==== Sys2Proof/Machine/Can.lean ====
section
/-!
DEFINITION. The CAN FD ports (R309-R326): the filter tables plan, receive objects, transmit buffers and their queue, port
states and error counters.
-/

namespace Sys2Proof.Machine

def hapXcvr : Hap := ⟨9, 1, 10, none, false⟩

/-- Port states, `CAN_CHn_STATUS.PSTATE`. -/
def canDown : Nat := 0
def canInteg : Nat := 1
def canRestricted : Nat := 2
def canActive : Nat := 3
def canBusoff : Nat := 4

def State.canState (s : State) (n : Nat) : Nat := s.fget (F.canChnStatus_pstate n)

/-! The plan area (R318, R326). Port n's 256 filter entries and 64 descriptors stand at n × 0x1400 [13]. -/

def canAreaOf (r : W32) : Nat := 0x05200000 + r.toNat
def State.canArea (s : State) : Nat := canAreaOf (s.actv R.canPlanArea)

/-- Table: Filter entry. -/
structure CanFilter where
  fid : Nat
  mask : Nat
  action : Nat
  cls : Nat
  off : Nat
  deriving DecidableEq, Repr

def State.canFilterAt (s : State) (area n i : Nat) : CanFilter :=
  let a := area + n * 0x1400 + i * 16
  { fid := s.mem.rd a 4, mask := s.mem.rd (a + 4) 4, action := s.mem.rd (a + 8) 1, cls := s.mem.rd (a + 9) 1
    off := s.mem.rd (a + 12) 4 }

def State.canFilter (s : State) (n i : Nat) : CanFilter := s.canFilterAt s.canArea n i

def CanFilter.toObj (f : CanFilter) : Bool := f.action == 1 || f.action == 3
def CanFilter.toHost (f : CanFilter) : Bool := f.action == 2 || f.action == 3

/-- A frame matches an entry (R318). -/
def CanFilter.hit (f : CanFilter) (rxid : Nat) : Bool :=
  f.action != 0 && (Nat.land (Nat.xor (fldN rxid 0 29) (fldN f.fid 0 29)) (fldN f.mask 0 29) == 0)
    && bitN rxid 29 == bitN f.fid 29 && (!bitN f.fid 31 || bitN rxid 30 == bitN f.fid 30)

/-- Table: Transmit buffer descriptor. -/
structure CanDesc where
  txid : Nat
  mode : Nat
  period : Nat
  owner : Nat
  safe : Bool
  slot : Nat
  safeOff : Nat
  deriving DecidableEq, Repr

def State.canDescAt (s : State) (area n i : Nat) : CanDesc :=
  let a := area + n * 0x1400 + 0x1000 + i * 16
  { txid := s.mem.rd a 4, mode := s.mem.rd (a + 4) 1, period := s.mem.rd (a + 5) 1, owner := s.mem.rd (a + 6) 1
    safe := s.mem.rd (a + 7) 1 % 2 == 1, slot := s.mem.rd (a + 8) 4, safeOff := s.mem.rd (a + 12) 4 }

def State.canDesc (s : State) (n i : Nat) : CanDesc := s.canDescAt s.canArea n i

def State.canBuf (s : State) (n i : Nat) : CanBuf := vget (vget s.can.port n).bufs i

def State.setBuf (s : State) (n i : Nat) (f : CanBuf → CanBuf) : State :=
  { s with can := { s.can with port := vmod s.can.port n (fun (p : CanPort) => { p with bufs := vmod p.bufs i f }) } }

/-- Data bytes of a frame by its DLC and format. -/
def dlcLen (fdf : Bool) (dlc : Nat) : Nat :=
  if dlc ≤ 8 then dlc
  else if !fdf then 8
  else match dlc with
    | 9 => 12 | 10 => 16 | 11 => 20 | 12 => 24 | 13 => 32 | 14 => 48 | _ => 64

/-! Events (R323). -/

/-- `CAN_STATUS.ANY_FAULT` of a port. -/
def State.canShow (s : State) (n : Nat) : State :=
  s.fsetb ⟨R.canStatus, 4 + n, 1⟩ (s.canState n == canBusoff || s.fbit (F.canChnStatus_lonely n)
    || s.fbit (F.canChnStatus_collide n) || s.fbit (F.canChnStatus_xcvrFault n))

/-- A CAN error event: port, both error counters, and the further parameters of its code (R323, R504). -/
def State.canEvent (s : State) (n code : Nat) (ps : List W64) : State :=
  s.event code 10 n (BitVec.ofNat 64 n
    :: BitVec.ofNat 64 (s.fget (F.canChnStatus_tec n) + s.fget (F.canChnStatus_rec n) * 256) :: ps)

/-- Recovered, naming the condition that ended. -/
def State.canRecovered (s : State) (n code : Nat) : State := s.canEvent n 0x14 [BitVec.ofNat 64 code]

/-- The port is error-passive while a counter is above 127. -/
def State.canPassive (s : State) (n : Nat) : State :=
  let f := F.canChnStatus_epassive n
  let now := decide (s.fget (F.canChnStatus_tec n) ≥ 128 ∨ s.fget (F.canChnStatus_rec n) ≥ 128)
  if now && !s.fbit f then (s.fset f 1).canEvent n 0x10 []
  else if !now && s.fbit f then (s.fset f 0).canRecovered n 0x10
  else s

/-- The transmit error counter rises; above 255 the port goes bus-off (R312). -/
def State.canTecUp (s : State) (n k : Nat) : State :=
  let f := F.canChnStatus_tec n
  let t := s.fget f + k
  if t > 255 then
    let s := ((s.fset f 255).fset (F.canChnStatus_pstate n) canBusoff).bumpF ⟨R.canChnErrs n, 16, 16⟩
    let s := { s with can := { s.can with port := vmod s.can.port n (fun (p : CanPort) => { p with boDone := false }) } }
    (s.canEvent n 0x11 []).canShow n
  else (s.fset f t).canPassive n

/-- Error counters at 0. -/
def State.canCount0 (s : State) (n : Nat) : State :=
  (s.fset (F.canChnStatus_tec n) 0).fset (F.canChnStatus_rec n) 0

/-! Starting and stopping (R310, R312). -/

/-- The bit timing in force satisfies R310. -/
def State.canTiming (s : State) (n : Nat) : Bool :=
  let g := s.aget
  let nom := 1 + g (F.canChnBittime_tseg1 n) + g (F.canChnBittime_tseg2 n)
  let dat := 1 + g (F.canChnDbittime_dtseg1 n) + g (F.canChnDbittime_dtseg2 n)
  let nt := g (F.canChnBittime_brp n) * nom
  let dt := g (F.canChnDbittime_dbrp n) * dat
  decide (8 ≤ nom) && decide (g (F.canChnBittime_sjw n) ≤ g (F.canChnBittime_tseg2 n)) && decide (80 ≤ nt)
    && decide (5 ≤ dat) && decide (g (F.canChnDbittime_dsjw n) ≤ g (F.canChnDbittime_dtseg2 n)) && decide (10 ≤ dt)
    && decide (dt ≤ nt) && (g (F.canChnDbittime_tdcEn n) == 1 || decide (80 ≤ dt))

/-- `START` of one port: counted when it is not `DOWN`, its timing is not valid, or its transceiver is at fault. -/
def State.canStartPort (s : State) (n : Nat) (fault : Bool) : State :=
  if s.canState n ≠ canDown ∨ !s.canTiming n ∨ fault then s.ignoredIn 10
  else (((s.fset (F.canChnStatus_pstate n) canInteg).canCount0 n).canPassive n |>.fset (F.canChnStatus_xcvrFault n) 0).canShow n

/-- `STOP` of one port: any state but `DOWN` to `DOWN`. -/
def State.canStopPort (s : State) (n : Nat) : State := (s.fset (F.canChnStatus_pstate n) canDown).canShow n

def State.canStart (s : State) (mask fault : BitVec 4) : State :=
  [0, 1, 2, 3].foldl (fun s n => if mask.getLsbD n then s.canStartPort n (fault.getLsbD n) else s) s

def State.canStop (s : State) (mask : BitVec 4) : State :=
  [0, 1, 2, 3].foldl (fun s n => if mask.getLsbD n then s.canStopPort n else s) s

/-- `CAN_START` (R310, R312): `fault` marks the ports whose transceiver is at fault. -/
def execCanStart (m : Master) (mask fault : BitVec 4) (s : State) : Res :=
  s.asWrite m R.canCtrl (fun s => s.canStart mask fault)
/-- `CAN_STOP` (R312). -/
def execCanStop (m : Master) (mask : BitVec 4) (s : State) : Res :=
  s.asWrite m R.canCtrl (fun s => s.canStop mask)

/-- `CAN_CTRL.CLR_CNT`: every counter of the block. -/
def State.canClrCnt (s : State) : State :=
  [0, 1, 2, 3].foldl (fun s n =>
    (s.zero [R.canChnTxok n, R.canChnRxok n, R.canChnErrs n, R.canChnAckerr n, R.canChnUnmatched n, R.canChnOverwrite n,
      R.canChnRxerr n]).fset (F.canChnColl_count n) 0) (s.zero [R.canRxDrop, R.canIgnored])
/-- `CAN_CLR_CNT` (R326). -/
def execCanClrCnt (m : Master) (s : State) : Res :=
  s.asWrite m R.canCtrl (fun s => s.canClrCnt)

/-- `CAN_INTEGRATION_DONE` (R312): 11 consecutive recessive bits. -/
def execCanIntegrationDone (n : Fin 4) (s : State) : Res :=
  s.when (s.canState n.val == canInteg)
    (s.fset (F.canChnStatus_pstate n.val) (if s.canPermitted then canActive else canRestricted))

/-- `TRANSCEIVER_FAULT` (R312). -/
def execTransceiverFault (n : Fin 4) (s : State) : Res :=
  s.when s.power.chip
    (((s.fset (F.canChnStatus_pstate n.val) canDown).fset (F.canChnStatus_xcvrFault n.val) 1).raise hapXcvr n.val []
      |>.canShow n.val)

/-- `BUSOFF_DELAY_EXPIRY` (R312): `BO_DELAY` has elapsed. -/
def execBusoffDelayExpiry (n : Fin 4) (s : State) : Res :=
  s.when (s.canState n.val == canBusoff)
    { s with can := { s.can with port := vmod s.can.port n.val (fun (p : CanPort) => { p with boDone := true }) } }

/-- `BUSOFF_RECOVERY` (R312, R323): the port integrates again with its error counters at 0. -/
def execBusoffRecovery (n : Fin 4) (s : State) : Res :=
  let t := ((s.fset (F.canChnStatus_pstate n.val) canInteg).canCount0 n.val).fset (F.canChnStatus_epassive n.val) 0
  s.when (s.canState n.val == canBusoff && (vget s.can.port n.val).boDone) ((t.canRecovered n.val 0x11).canShow n.val)

/-- `COLLIDE_CLEAR` (R322, R323). -/
def execCollideClear (n : Fin 4) (s : State) : Res :=
  s.when (s.fbit (F.canChnStatus_collide n.val))
    (((s.fset (F.canChnStatus_collide n.val) 0).canRecovered n.val 0x13).canShow n.val)

/-! Reception (R313, R318, R319). -/

/-- The receive object of an entry takes a frame. -/
def State.canObject (s : State) (f : CanFilter) (rxid dlc : Nat) (data : List Byte) : State :=
  let key := f.cls * 0x80000 + f.off
  let old := ((s.can.objs.find? (fun e => e.1 == key)).map (·.2)).getD {}
  let o : RxObj := { rxid := rxid, dlc := dlc, len := data.length, count := (old.count + 1) % 2 ^ 32
                     stamp := s.time.tb1, data := data, cycle := s.rd64 R.scanCycleLo, fresh := true }
  { s with can := { s.can with objs := (key, o) :: s.can.objs.filter (fun e => e.1 ≠ key) } }

/-- A frame goes to the event rings of both hosts (R340), within the limit of the first second (R461). -/
def State.canHost (s : State) (n rxid dlc : Nat) (data : List Byte) : State :=
  let (s, ok) := s.rateOk (24 + n) 100 false
  if !ok then s.bump R.canRxDrop
  else
    let body := leBytes 4 rxid ++ leBytes 1 dlc ++ leBytes 1 data.length ++ leBytes 1 n ++ [0] ++ leBytes 8 s.time.tb1.toNat
      ++ data ++ List.replicate (64 - data.length) 0
    [0, 1].foldl (fun s p => s.eqPut p 2 body) s

/-- The first matching entry acts on a frame. -/
def State.canFilterFrame (s : State) (n rxid dlc : Nat) (data : List Byte) (remote : Bool) : State :=
  match (if remote then none else ((List.range 256).map (s.canFilter n)).find? (fun f => f.hit rxid)) with
  | none => s.bump (R.canChnUnmatched n)
  | some f =>
    let s := if f.toObj then s.canObject f rxid dlc data else s
    if f.toHost then s.canHost n rxid dlc data else s

/-- Reception without error lowers the receive error counter: by 1, and from above 127 to a value from 119 to 127 that
ISO 11898-1 leaves open. -/
def State.canRecDown (s : State) (n : Nat) : State :=
  let f := F.canChnStatus_rec n
  let c := s.fget f
  if c > 127 then
    let (v, s) := s.take
    (s.fset f (119 + v.toNat % 9)).canPassive n
  else s.fset f (c - 1)

/-- `CAN_FRAME_RX` (R318, R319): a frame without error ends on a port's bus; `rxid` as `TXID`. -/
def execCanFrameRx (n : Fin 4) (rxid : W32) (esi remote : Bool) (dlc : BitVec 4) (data : List Byte) (s : State) : Res :=
  let st := s.canState n.val
  let len := if remote then 0 else dlcLen (rxid.getLsbD 30) dlc.toNat
  let s1 := (s.bump (R.canChnRxok n.val)).obsCount (0x0A00 + n.val)
  let s1 := if st = canActive then s1.canRecDown n.val else s1
  s.when ((st == canRestricted || st == canActive) && data.length == len)
    (s1.canFilterFrame n.val rxid.toNat (dlc.toNat + bit esi * 16) data remote)

/-- `CAN_RX_ERROR` (R313): an error in a frame being received; `heavy` where ISO 11898-1 adds 8. -/
def execCanRxError (n : Fin 4) (heavy : Bool) (s : State) : Res :=
  let st := s.canState n.val
  let f := F.canChnStatus_rec n.val
  let t := (s.fset f (satAdd 8 (s.fget f) (if heavy then 8 else 1))).bumpF ⟨R.canChnErrs n.val, 0, 16⟩
  s.when (st == canRestricted || st == canActive)
    (if st = canRestricted then s.bump (R.canChnRxerr n.val) else t.canPassive n.val)

/-! The frozen half (R319, R503). -/

/-- The receive objects of a class, with their places in the frozen half. -/
def State.canFrozen (s : State) (c : Cls) : List (Nat × List Byte) :=
  let fs := ([0, 1, 2, 3].flatMap (fun n => (List.range 256).map (s.canFilter n))).filter (fun f => f.toObj && f.cls == c.num)
  fs.map (fun f =>
    match s.can.objs.find? (fun e => e.1 == f.cls * 0x80000 + f.off) with
    | none => (f.off, leBytes 4 0 ++ leBytes 2 0 ++ leBytes 2 0xFFFF ++ List.replicate 80 0)
    | some (_, o) =>
      let age := if o.fresh then 0 else min ((s.rd64 R.scanCycleLo - o.cycle).toNat - 1) 0xFFFE
      (f.off, leBytes 4 o.rxid ++ leBytes 1 o.dlc ++ leBytes 1 o.len ++ leBytes 2 age ++ leBytes 4 o.count ++ leBytes 4 0
        ++ leBytes 8 o.stamp.toNat ++ o.data ++ List.replicate (64 - o.data.length) 0))

/-- The freeze of a class has taken its objects. -/
def State.canTaken (s : State) (c : Cls) : State :=
  { s with can := { s.can with objs := s.can.objs.map (fun (e : Nat × RxObj) =>
      if e.1 / 0x80000 = c.num then (e.1, { e.2 with fresh := false }) else e) } }

/-- A new filter tables plan: no object has received (R319). -/
def State.canActivate (s : State) : State := { s with can := { s.can with objs := [] } }

/-! Transmission (R315-R317). -/

/-- CAN_BUFFER_QUEUE: a buffer is queued; content not yet sent is lost and counted. -/
def State.canQueueBuf (s : State) (n i : Nat) : State :=
  let s := if (s.canBuf n i).queued then s.bump (R.canChnOverwrite n) else s
  s.setBuf n i (fun b => { b with queued := true, last := b.content })

/-- The buffers, by port and index, that satisfy a condition on their descriptor. -/
def State.canBufs (s : State) (p : CanDesc → Bool) : List (Nat × Nat) :=
  [0, 1, 2, 3].flatMap (fun n => ((List.range 64).filter (fun i => let d := s.canDesc n i; d.mode != 0 && p d)).map (fun i => (n, i)))

/-- The content of a class buffer: its slot in the committed output half; after a trip its safe frame (R317). -/
def State.canContent (s : State) (d : CanDesc) : List Byte :=
  if s.mod = .stopped then s.mem.bytesAt (s.canArea + d.safeOff) 72
  else
    let c : Cls := Cls.ofCode d.owner
    (List.range 72).map (fun k => sget (fun _ => 0) s.mem.committed (s.outBase c + d.slot + k))

/-- The buffers of a class take their content; those of mode `ON_CHANGE` are queued when it differs from what was queued
last. -/
def State.canLoad (s : State) (c : Cls) : State :=
  (s.canBufs (fun d => d.owner == c.num && (s.mod != .stopped || d.safe))).foldl (fun s e =>
    let d := s.canDesc e.1 e.2
    let v := s.canContent d
    let diff := (s.canBuf e.1 e.2).last != v
    let s := s.setBuf e.1 e.2 (fun b => { b with content := v })
    if d.mode == 2 && diff then s.canQueueBuf e.1 e.2 else s) s

/-- `CYCLIC` buffers of an F-cycle are queued. -/
def State.canCyclic (s : State) (cycle : W64) : State :=
  (s.canBufs (fun d => d.owner != 0 && d.mode == 1 && d.period != 0 && cycle.toNat % d.period == 0
    && (s.mod != .stopped || d.safe))).foldl (fun s e => s.canQueueBuf e.1 e.2) s

/-- The publish of a class (R315). -/
def State.canPublish (s : State) (c : Cls) (cycle : W64) : State :=
  let s := s.canLoad c
  if c = .f then s.canCyclic cycle else s

/-- A watchdog trip (R317), the module being STOPPED: class buffers without a safe frame leave the queue, the others take
it. -/
def State.canTrip (s : State) : State :=
  let s := (s.canBufs (fun d => d.owner != 0 && !d.safe)).foldl (fun s e => s.setBuf e.1 e.2 (fun b => { b with queued := false })) s
  [Cls.f, .n, .s].foldl State.canLoad s

/-- The incoming module queues from the output half of its sealed state (R324). -/
def State.canTakeover (s : State) : State := [Cls.f, .n, .s].foldl State.canLoad s

/-- In STOPPED the cyclic buffers with a safe frame go on being sent at the boundaries of F-cycles (R63, R317). -/
def State.canStopped (s : State) (cycle : W64) : State := if s.token then s.canCyclic cycle else s

/-- The identifier as arbitration compares it: base before extended format for equal identifier bits. -/
def arbKey (txid : Nat) : Nat :=
  if bitN txid 29 then fldN txid 18 11 * 2 ^ 19 + 2 ^ 18 + fldN txid 0 18 else fldN txid 0 11 * 2 ^ 19

/-- The first of some buffers in the order of R316. -/
def State.canFirst (s : State) (n : Nat) (bs : List Nat) : Option Nat :=
  bs.foldl (fun best i =>
    match best with
    | none => some i
    | some b => if arbKey (s.canDesc n i).txid < arbKey (s.canDesc n b).txid then some i else some b) none

/-- The buffer a port offers (R316). -/
def State.canPick (s : State) (n : Nat) : Option Nat :=
  s.canFirst n ((List.range 64).filter (fun i => (s.canBuf n i).queued))

/-- The buffer whose frame was on the bus when transmission ceased to be permitted (R312, R324). -/
def State.canLeaving (s : State) (n : Nat) : Option Nat := s.canFirst n (vget s.can.port n).leaving

def State.canLeft (s : State) (n : Nat) : State :=
  { s with can := { s.can with port := vmod s.can.port n (fun (p : CanPort) => { p with leaving := [] }) } }

/-- An attempt of a buffer is noted (R322): whether it was a collision attempt. -/
def State.canTry (s : State) (n i : Nat) (coll : Bool) : State :=
  s.setBuf n i (fun b => { b with tries := (coll :: b.tries).take 8 })

/-- The frame of a buffer as it is sent. -/
def State.canFrameOut (s : State) (n i : Nat) : Out :=
  let d := s.canDesc n i
  let c := (s.canBuf n i).content
  let fdf := bitN d.txid 30
  let dlc := (c.getD 0 0).toNat % 16
  let dlc := if !fdf ∧ dlc > 8 then 8 else dlc
  .canFrame n d.txid dlc ((c.drop 8).take (dlcLen fdf dlc))

/-- A frame of buffer `i` has been sent and acknowledged: it is counted, the delay measured on an FD frame is shown (R311), the run
of acknowledgement errors ends; `live` where the error counters count. -/
def State.canSent (s : State) (k i : Nat) (tdc : Option (BitVec 7)) (live : Bool) : State :=
  let t := ((s.emit (s.canFrameOut k i)).bump (R.canChnTxok k)).canTry k i false
  let t := match tdc with
    | some v => if s.abit (F.canChnDbittime_tdcEn k) && bitN (s.canDesc k i).txid 30 then t.wr (R.canChnTdc k) (v.setWidth 32) else t
    | none => t
  let t := { t with can := { t.can with port := vmod t.can.port k (fun (p : CanPort) => { p with ackRun := 0 }) } }
  let t := if live then (t.fset (F.canChnStatus_tec k) (t.fget (F.canChnStatus_tec k) - 1)).canPassive k else t
  (if t.fbit (F.canChnStatus_lonely k) then (t.fset (F.canChnStatus_lonely k) 0).canRecovered k 0x12 else t).canShow k

/-- `CAN_TX_SUCCESS` (R316, R320): the buffer the port offers is sent and acknowledged; on a port that has just become RESTRICTED, the
frame that was on the bus completes (R312, R324). -/
def execCanTxSuccess (n : Fin 4) (tdc : Option (BitVec 7)) (s : State) : Res :=
  let k := n.val
  if s.canState k = canActive ∧ s.canPermitted then
    match s.canPick k with
    | none => .next s
    | some i => .next ((s.setBuf k i (fun b => { b with queued := false })).canSent k i tdc true)
  else if s.canState k = canRestricted then
    match s.canLeaving k with
    | none => .next s
    | some i => .next (((s.setBuf k i (fun b => { b with queued := false })).canLeft k).canSent k i tdc false)
  else .next s

/-- A collision is found (R322): the buffer is recorded, the event raised unless `COLLIDE` is set for the same buffer. -/
def State.canCollide (s : State) (n i : Nat) : State :=
  if ((s.canBuf n i).tries.filter id).length < 3 then s
  else if s.fbit (F.canChnStatus_collide n) ∧ s.fget (F.canChnColl_buf n) = i then s
  else
    let s := ((s.fset (F.canChnStatus_collide n) 1).fset (F.canChnColl_buf n) i).bumpF (F.canChnColl_count n)
    s.canEvent n 0x13 [BitVec.ofNat 64 i, BitVec.ofNat 64 (s.canDesc n i).txid]

/-- An acknowledgement error (R320): a passive port's transmit error counter does not rise; the 32nd in a row is LONELY. -/
def State.canAckError (s : State) (n : Nat) : State :=
  let s := if s.fbit (F.canChnStatus_epassive n) then s else s.canTecUp n 8
  let run := (vget s.can.port n).ackRun + 1
  let s := { s with can := { s.can with port := vmod s.can.port n (fun (p : CanPort) => { p with ackRun := run }) } }
  if run = 32 ∧ !s.fbit (F.canChnStatus_lonely n) then
    ((s.fset (F.canChnStatus_lonely n) 1).bump (R.canChnAckerr n)).canEvent n 0x12 []
  else s

/-- An attempt of buffer `i` has failed (R316, R320, R322). -/
def State.canFailed (s : State) (k i : Nat) (e : CanErr) : State :=
  let t := s.canTry k i (e == .bitError)
  let u := t.bumpF ⟨R.canChnErrs k, 0, 16⟩
  (match e with
    | .arbitration => t
    | .ack => u.canAckError k
    | .bitError => (u.canTecUp k 8).canCollide k i
    | .other => u.canTecUp k 8).canShow k

/-- `CAN_TX_ERROR` (R316, R320, R322): an attempt of the buffer the port offers fails; it is retried. A frame that was on the bus when
the port became RESTRICTED fails and is not tried again; a collision counts, the error counters stand (R313, R324). -/
def execCanTxError (n : Fin 4) (e : CanErr) (s : State) : Res :=
  let k := n.val
  if s.canState k = canActive ∧ s.canPermitted then
    match s.canPick k with
    | none => .next s
    | some i => .next (s.canFailed k i e)
  else if s.canState k = canRestricted then
    match s.canLeaving k with
    | none => .next s
    | some i =>
      let t := ((s.canLeft k).canTry k i (e == .bitError)).bump (R.canChnRxerr k)
      .next ((match e with | .arbitration => s.canLeft k | .bitError => t.canCollide k i | _ => t).canShow k)
  else .next s

end Sys2Proof.Machine
end

