-- ==== Sys2Proof/Machine/Ring.lean ====
section
/-!
DEFINITION. The Silzo Ring and peer exchange (R285-R308): frames sent and received, station and subscription states,
qualities and substitutes, ring and port states.
-/

namespace Sys2Proof.Machine

def hapLayoutMismatch : Hap := ⟨8, 1, 9, none, false⟩
def hapPeerState : Hap := ⟨8, 2, 9, none, false⟩
def hapPortDown : Hap := ⟨8, 3, 9, none, false⟩
def hapRingDown : Hap := ⟨8, 4, 9, none, false⟩

/-! Station states, coded as `RING_STs_STATE.STATE`. -/
def stAbsent : Nat := 1
def stReturning : Nat := 2
def stActive : Nat := 3
def stLost : Nat := 4
def stMismatch : Nat := 5

def State.ringMaster (s : State) : Bool := s.token && s.fbit F.ringStatus_master

/-- Segments of the plan with their numbers. -/
def State.segList (s : State) : List (Nat × RingSeg) := s.ring.plan.segs.mapIdx (fun i g => (i, g))

/-- Whether a segment travels in the present exchange: F always, N and S in their slice (R292). -/
def State.segNow (s : State) (g : RingSeg) : Bool :=
  match g.cls with
  | .n => g.slice == s.ring.sliceN
  | .s => g.slice == s.ring.sliceS
  | _ => true

def State.segRx (s : State) (i : Nat) : SegRx := (s.ring.segs[i]?).getD {}

def State.modSeg (s : State) (i : Nat) (f : SegRx → SegRx) : State :=
  { s with ring := { s.ring with segs := s.ring.segs.mapIdx (fun j r => if j = i then f r else r) } }

def State.points (s : State) : List (Nat × RingPoint) := s.ring.plan.points.mapIdx (fun i p => (i, p))

/-! Sending (R292, R294, R296). -/

/-- The value of an output point: the latest class commit, or its safe value while the scan is STOPPED (R63, R294). -/
def State.outPoint (s : State) (c : Cls) (p : RingPoint) : Nat :=
  if s.mod = .stopped then p.safe
  else leNat ((List.range (max p.size 1)).map (fun i => sget (fun _ => 0) s.mem.committed (s.outBase c + p.place + i)))

/-- A number put into an area at a byte, or at one bit of it (R297). -/
def areaPut (area : List Byte) (p : RingPoint) (v : Nat) : List Byte :=
  if p.size = 0 then
    area.mapIdx (fun i b => if i = p.off then BitVec.ofNat 8 (setFldN b.toNat p.bit 1 v) else b)
  else
    area.mapIdx (fun i b => if p.off ≤ i ∧ i < p.off + p.size then BitVec.ofNat 8 (v / 256 ^ (i - p.off)) else b)

/-- One segment as the master sends it. -/
def State.segBytes (s : State) (i : Nat) (g : RingSeg) : List Byte :=
  let layout := ((s.ring.plan.stations.find? (fun t => t.num == g.station)).map (·.layout)).getD 0
  let outs := s.points.filter (fun p => p.2.seg == i && !p.2.input)
  let area := outs.foldl (fun a p => areaPut a p.2 (s.outPoint g.cls p.2)) (List.replicate g.outLen 0)
  let lens := leBytes 2 g.outLen ++ leBytes 2 g.inLen
  leBytes 1 g.station ++ [0] ++ leBytes 2 layout ++ lens ++ area ++ List.replicate g.inLen 0
    ++ leBytes 2 (crc16 (leBytes 1 g.station ++ lens ++ area)) ++ leBytes 2 0

/-- The frames of the present exchange, by class and slice in the order of R292: class code, slice, segments. -/
def State.exchangeFrames (s : State) : List (Nat × Nat × List (Nat × RingSeg)) :=
  let of (c : Cls) (code slice : Nat) : List (Nat × Nat × List (Nat × RingSeg)) :=
    let segs := s.segList.filter (fun g => g.2.cls == c && s.segNow g.2)
    (segs.map (·.2.frame)).eraseDups.map (fun f => (code, slice, segs.filter (fun g => g.2.frame == f)))
  of .f 1 0 ++ of .n 2 s.ring.sliceN ++ of .s 3 s.ring.sliceS

/-- A frame's payload: header and segments; `dir` is set when sent from the east port (R296). -/
def State.ringPayload (s : State) (ring dir frame nframes : Nat) (f : Nat × Nat × List (Nat × RingSeg)) : List Byte :=
  leBytes 1 1 ++ leBytes 1 1 ++ leBytes 1 (ring + dir * 2 + bit (s.fbit F.pairStatus_slot) * 4) ++ leBytes 1 f.1
    ++ leBytes 4 (s.rd R.ringExch).toNat ++ leBytes 8 s.tb2.toNat ++ leBytes 2 frame ++ leBytes 2 nframes
    ++ leBytes 2 f.2.1 ++ leBytes 2 f.2.2.length ++ f.2.2.flatMap (fun g => s.segBytes g.1 g.2)

/-- An exchange opens: nothing of it has arrived. -/
def State.openExchange (s : State) : State :=
  { s with ring := { s.ring with
      closed := false, synced := true, t0 := s.time.tb1, back := Vector.replicate 4 0
      segs := s.ring.segs.map (fun (r : SegRx) => { r with got := 0, data := [] }) } }

/-- A slice number that no frame carries: the slice of this exchange is not known. -/
def noSlice : Nat := 0x10000

/-- The slices of the present exchange, by the position of the F-cycle (R292); a module that follows no scan does not know them
until it sees a frame of them. -/
def State.setSlices (s : State) : State :=
  let since := (s.rd64 R.scanCycleLo - s.scan.nsOrigin).toNat
  let known := s.scan.run != .notStarted
  { s with ring := { s.ring with
      sliceN := if known then since % max s.nMult 1 else noSlice
      sliceS := if known then since % max (s.nMult * s.sMult) 1 else noSlice } }

/-- `RING_EXCHANGE_START` (R292): 20 µs after the F boundary the module that holds the token sends the exchange's frames on
all four ports; after a takeover not before its start (R289). -/
def execRingExchangeStart (s : State) : Res :=
  let s1 := s.openExchange.setSlices
  let s1 := ((s1.wr R.ringExch (s.rd R.ringExch + 1)).fset F.ringStatus_master 1).fset F.ringStatus_passive 0
  let fs := s1.exchangeFrames
  let send (s : State) (p : Nat) : State :=
    (fs.mapIdx (fun k f => (k, f))).foldl (fun s f =>
      s.emit (.ringFrame p (s.aget F.ringCfg_etype) (s.ringPayload (p / 2) (p % 2) f.1 fs.length f.2))) s
  s.when (s.token && s.power.ringJoined && s.ring.active && s.ring.closed && s.mod != .syncing && s.mod != .standby
      && s.configured && !s.pair.takeover)
    ([0, 1, 2, 3].foldl send s1)

/-! Receiving (R288, R295). -/

/-- A segment cut from a frame's payload. -/
structure RSegment where
  station : Nat
  sstat : Nat
  layout : Nat
  outLen : Nat
  inLen : Nat
  output : List Byte
  input : List Byte
  icrc : Nat
  deriving DecidableEq, Repr

/-- The first segment of a list of bytes, and the rest. -/
def cutSegment (bs : List Byte) : RSegment × List Byte :=
  let le (off n : Nat) : Nat := leNat ((bs.drop off).take n)
  let ol := le 4 2
  let il := le 6 2
  ({ station := le 0 1, sstat := le 1 1, layout := le 2 2, outLen := ol, inLen := il
     output := (bs.drop 8).take ol, input := (bs.drop (8 + ol)).take il, icrc := le (10 + ol + il) 2 },
   bs.drop (12 + ol + il))

def cutSegments : Nat → List Byte → List RSegment
  | 0, _ => []
  | n + 1, bs => (cutSegment bs).1 :: cutSegments n (cutSegment bs).2

/-- `ICRC` checks: it covers bytes 1 to 3 and the input area (R296). -/
def RSegment.icrcOk (g : RSegment) : Bool :=
  g.icrc == crc16 (leBytes 1 g.sstat ++ leBytes 2 g.layout ++ g.input)

def State.stationState (s : State) (n : Nat) : Nat := s.fget (F.ringStsState_state n)

/-- The planned segment that a received one stands for: the planned station, the class and slice of the frame, and the
planned lengths. -/
def State.plannedSeg (s : State) (cls : Cls) (slice frame : Nat) (pos : Nat) (g : RSegment) : Option Nat :=
  let segs := s.segList.filter (fun q => q.2.cls == cls && (cls == .f || q.2.slice == slice))
  let frames := (segs.map (·.2.frame)).eraseDups
  let mine := segs.filter (fun q => q.2.frame == frames.getD frame 0)
  match mine[pos]? with
  | some q => if q.2.station = g.station ∧ q.2.inLen = g.inLen then some q.1 else none
  | none => none

/-- A station whose segment shows another layout with a good `ICRC` is in MISMATCH; recorded with both codes (R300). -/
def State.stationMismatch (s : State) (n planned seen : Nat) : State :=
  if s.stationState n = stMismatch then s
  else
    let t := ((s.fset (F.ringStsState_state n) stMismatch).fset (F.ringStsState_retCnt n) 0).raise hapLayoutMismatch n
      [BitVec.ofNat 64 planned, BitVec.ofNat 64 seen]
    { t with ring := { t.ring with fromLost := t.ring.fromLost.del n } }

/-- One received segment: the first valid copy is taken, a later one that differs is counted (R295). -/
def State.takeSegment (s : State) (port : Nat) (cls : Cls) (slice frame pos : Nat) (g : RSegment) : State :=
  match s.ring.plan.stations.find? (fun t => t.num == g.station), s.plannedSeg cls slice frame pos g with
  | some t, some i =>
    if !g.icrcOk then s
    else if g.layout ≠ t.layout then s.stationMismatch t.num t.layout g.layout
    else if !bitN g.sstat 0 then s
    else
      let r := s.segRx i
      let ring : BitVec 2 := if port < 2 then 1 else 2
      -- a copy on a ring that the station's mask does not name counts for nothing (R287)
      if ring &&& t.mask = 0 then s
      else if r.got = 0 then (s.obsCount 0x0900).modSeg i (fun r => { r with got := ring, data := g.input })
      else
        let s := s.modSeg i (fun r => { r with got := r.got ||| ring })
        if r.data = g.input then s else s.bump R.ringCopyDiff
  | _, _ => s

/-- The other port of a ring. -/
def otherPort (p : Nat) : Nat := if p % 2 = 0 then p + 1 else p - 1

/-- A passive node forwards every frame, whether its FCS checks or not, or turns it back where the onward link is down, and sets
`TURNED` (R288, R301). -/
def State.forward (s : State) (port etype : Nat) (fcs : Bool) (payload : List Byte) : State :=
  let o := otherPort port
  let frame (p : Nat) (bs : List Byte) : Out := if fcs then .ringFrame p etype bs else .badFrame p etype bs
  if s.fbit (F.ringPpStatus_link o) then s.emit (frame o payload)
  else
    let turned := payload.mapIdx (fun i b => if i = 2 then b ||| 8 else b)
    (s.emit (frame port turned)).bumpF ⟨R.ringPpErr port, 16, 16⟩

/-- How a frame came back to the master: on the port opposite the one it left from, or on the same (R301). -/
def State.noteReturn (s : State) (port rflags : Nat) : State :=
  let from_ := port / 2 * 2 + fldN rflags 1 1
  let how : BitVec 2 := if from_ = port then 2 else 1
  { s with ring := { s.ring with back := vmod s.ring.back from_ (· ||| how) } }

def clsOfCode : Nat → Option Cls
  | 1 => some .f | 2 => some .n | 3 => some .s | _ => none

/-- A data frame of the ring: its segments, when its exchange is the current one and before the deadline. A passive node
takes the exchange number from the frames it sees (R288, R289). -/
def State.ringData (s : State) (port : Nat) (payload : List Byte) : State :=
  let le (off n : Nat) : Nat := leNat ((payload.drop off).take n)
  let exch := le 4 4
  let cur := (s.rd R.ringExch).toNat
  let ahead := (exch + 2 ^ 32 - cur) % 2 ^ 32
  let fresh := !s.ringMaster && (!s.ring.synced || decide (0 < ahead ∧ ahead < 2 ^ 31))
  let s := if fresh then s.openExchange.setSlices.wr R.ringExch (BitVec.ofNat 32 exch) else s
  if exch ≠ (s.rd R.ringExch).toNat then
    -- a copy of an exchange gone by comes after its deadline (R293)
    if ahead < 2 ^ 31 then s else (s.bump R.ringLate).obsCount 0x0901
  else
    let s := if s.ringMaster then s.noteReturn port (le 2 1) else s
    match clsOfCode (le 3 1) with
    | none => s.bump R.ringRxDrop
    | some (c : Cls) =>
      let s := { s with ring := { s.ring with
        sliceN := if c = Cls.n then le 20 2 else s.ring.sliceN
        sliceS := if c = Cls.s then le 20 2 else s.ring.sliceS } }
      if s.ring.closed then (s.bump R.ringLate).obsCount 0x0901
      else
        -- the number of the frame within its class and slice
        let before := (s.exchangeFrames.take (le 16 2)).filter (fun f => f.1 == le 3 1)
        let segs := cutSegments (le 22 2) (payload.drop 24)
        let us := (s.time.tb1 - s.ring.t0).toNat / 1000 + 20
        let s := (s.fset ⟨R.ringELast, 0, 16⟩ (min us 65535)).fset ⟨R.ringELast, 16, 16⟩
          (max (min us 65535) (s.fget ⟨R.ringELast, 16, 16⟩))
        (segs.mapIdx (fun i g => (i, g))).foldl (fun s g => s.takeSegment port c (le 20 2) before.length g.1 g.2) s

/-- `RING_FRAME_RX` (R295): a frame copy arrives; its valid segments enter the ring mirror, and a passive node forwards it
or turns it back. Frames of another EtherType, version or kind are dropped and counted (R296). -/
def execRingFrameRx (port : Fin 4) (etype : BitVec 16) (fcs : Bool) (payload : List Byte) (s : State) : Res :=
  let le (off n : Nat) : Nat := leNat ((payload.drop off).take n)
  let bad := etype.toNat != s.aget F.ringCfg_etype || fldN (le 0 1) 0 4 != 1 || (le 1 1 != 1 && le 1 1 != 2)
  let s1 := if s.ringMaster then s else s.forward port.val etype.toNat fcs payload
  let t :=
    if !fcs then s1.bumpF ⟨R.ringPpErr port.val, 0, 16⟩
    else if bad then s1.bump R.ringRxDrop
    else
      if le 1 1 = 2 then
        let r := s1.rateOk (16 + port.val) 64 false
        if r.2 then r.1 else s1.bump R.ringRxDrop
      else if s1.ring.active then s1.ringData port.val payload
      else s1
  s.when (s.power.ringJoined && s.power.chip) t

/-! The decision at the deadline (R299, R300). -/

/-- What a station's segments of the present exchange show: whether it carries any, the rings of valid copies. -/
def State.stationGot (s : State) (n : Nat) : Bool × BitVec 2 :=
  let rs := (s.segList.filter (fun q => q.2.station == n && s.segNow q.2)).map (fun q => s.segRx q.1)
  (!rs.isEmpty, rs.foldl (fun (m : BitVec 2) r => m ||| r.got) 0)

def State.stationEvent (s : State) (code n : Nat) (seen : BitVec 2) : State :=
  if s.token then
    s.event code 9 n [BitVec.ofNat 64 n, BitVec.ofNat 64 (s.stationState n), BitVec.ofNat 64 seen.toNat,
      BitVec.ofNat 64 (s.rd R.ringExch).toNat]
  else s

/-- A valid exchange of a station (Table: Station state transitions). -/
def State.stationValid (s : State) (n : Nat) (rings : BitVec 2) : State :=
  let st := s.stationState n
  let s := (s.fset (F.ringStsState_missCnt n) 0).fset (F.ringStsState_seen n) rings.toNat
  if st = stReturning then
    let c := s.fget (F.ringStsState_retCnt n) + 1
    let s := s.fset (F.ringStsState_retCnt n) c
    if c < 10 then s
    else
      let s1 := s.fset (F.ringStsState_state n) stActive
      -- STATION_RETURNED
      if s1.ring.fromLost.has n then
        { s1 with ring := { s1.ring with fromLost := s1.ring.fromLost.del n } }.stationEvent 0x0002 n rings
      else s1
  else if st = stActive then s
  else
    let s := (s.fset (F.ringStsState_state n) stReturning).fset (F.ringStsState_retCnt n) 1
    if st = stLost then { s with ring := { s.ring with fromLost := s.ring.fromLost.add n } } else s

/-- A missed exchange of a station. -/
def State.stationMissed (s : State) (n : Nat) : State :=
  let st := s.stationState n
  let s := s.bump (R.ringStsMiss n)
  let m := min (s.fget (F.ringStsState_missCnt n) + 1) 3
  if st = stReturning then s.fset (F.ringStsState_retCnt n) 0
  else if st = stActive then
    let s := s.fset (F.ringStsState_missCnt n) m
    if m < 3 then s
    else
      -- STATION_LOST
      let s := (s.fset (F.ringStsState_state n) stLost).bumpF (F.ringStsState_losses n)
      s.stationEvent 0x0001 n (BitVec.ofNat 2 (s.fget (F.ringStsState_seen n)))
  else s

/-- The bytes of an input point in an area; a bit as 0 or 1. -/
def areaGet (area : List Byte) (p : RingPoint) : List Byte :=
  if p.size = 0 then [BitVec.ofNat 8 (bit (bitN (area.getD p.off 0).toNat p.bit))]
  else (area.drop p.off).take p.size

/-- Whether the station flagged a point bad in an input area (R296). -/
def pointFault (area : List Byte) (g : RingSeg) (p : RingPoint) : Bool :=
  bitN (area.getD (g.mapOff + p.fbit / 8) 0).toNat (p.fbit % 8)

/-- Inputs of the segments of an exchange taken into the mirror: last valid values of unflagged points of ACTIVE stations
are kept for `HOLD` (R295, R299). -/
def State.mirrorSeg (s : State) (i : Nat) (g : RingSeg) : State :=
  let r := s.segRx i
  if r.got = 0 then s.modSeg i (fun r => { r with missed := true })
  else
    let s1 := s.modSeg i (fun r => { r with missed := false, last := r.data, lastRings := r.got })
    if s.stationState g.station ≠ stActive then s1
    else
      let ps := s.points.filter (fun p => p.2.seg == i && p.2.input && !pointFault r.data g p.2)
      { s1 with ring := { s1.ring with
          held := ps.foldl (fun h p => (p.1, areaGet r.data p.2) :: h.filter (fun e => e.1 ≠ p.1)) s1.ring.held } }

/-- The summary registers of the stations (R308). -/
def State.showStations (s : State) : State :=
  let ns := s.ring.plan.stations.map (·.num)
  let count (st : Nat) : Nat := (ns.filter (fun n => s.stationState n == st)).length
  let s := ((s.fset F.ringStations_active (count stActive)).fset F.ringStations_lost (count stLost)).fset
    F.ringStations_returning (count stReturning)
  (s.fsetb F.ringStatus_lostAny (count stLost != 0)).fsetb F.ringStatus_mismatchAny (count stMismatch != 0)

/-- A port goes down: recorded, and each deducts from the health score (R301, R213). -/
def State.portDown (s : State) (p : Nat) : State :=
  if s.fbit (F.ringPpStatus_down p) then s
  else (s.fset (F.ringPpStatus_down p) 1).raise hapPortDown p []

/-- Ring states at the deadline, by how the frames of its two ports came back (R301). -/
def State.ringState (s : State) (r : Nat) : State :=
  let f : Field := if r = 0 then F.ringStatus_ring0 else F.ringStatus_ring1
  let w := vget s.ring.back (2 * r)
  let e := vget s.ring.back (2 * r + 1)
  let none_ := if w = 0 ∧ e = 0 then vget s.ring.noRing r + 1 else 0
  let old := s.fget f
  let s := { s with ring := { s.ring with noRing := vset s.ring.noRing r none_ } }
  let new := if none_ ≥ 3 then 2 else if none_ > 0 then old
    else if w.getLsbD 0 && e.getLsbD 0 then 0 else 1
  let s := s.fset f new
  if new = 2 ∧ old ≠ 2 then s.raise hapRingDown r [] else s

/-- A port from which none of the frames sent returned in 3 consecutive exchanges is down (R301). -/
def State.portReturn (s : State) (p : Nat) : State :=
  let n := if vget s.ring.back p = 0 then vget s.ring.noBack p + 1 else 0
  let s := { s with ring := { s.ring with noBack := vset s.ring.noBack p n } }
  if n ≥ 3 then s.portDown p
  else if n = 0 ∧ s.fbit (F.ringPpStatus_link p) then s.fset (F.ringPpStatus_down p) 0
  else s

/-- `EXCHANGE_DEADLINE` (R300): station states, misses and ring states are decided. A passive node that has seen no frame of this
exchange counts it by the slices of its F-cycle. -/
def execExchangeDeadline (s : State) : Res :=
  let s := if s.ringMaster ∨ !s.ring.closed then s else s.setSlices
  let decideOne (s : State) (n : Nat) : State :=
    let g := s.stationGot n
    if !g.1 then s else if g.2 = 0 then s.stationMissed n else s.stationValid n g.2
  let s1 := (s.ring.plan.stations.map (·.num)).foldl decideOne s
  let s2 := (s1.segList.filter (fun q => s1.segNow q.2)).foldl (fun s q => s.mirrorSeg q.1 q.2) s1
  let s3 := if s.ringMaster then ([0, 1, 2, 3].foldl State.portReturn ([0, 1].foldl State.ringState s2)) else s2
  let s4 := { s3 with ring := { s3.ring with
      closed := true
      segs := s3.ring.segs.map (fun (r : SegRx) => { r with got := 0 }) } }
  s.when (s.ring.active && s.power.ringJoined && (!s.ringMaster || !s.ring.closed)) s4.showStations

/-- `RING_PORT_DOWN` (R301): the link of a port has been lost for 100 ms. -/
def execRingPortDown (p : Fin 4) (s : State) : Res :=
  s.when s.power.chip ((s.fset (F.ringPpStatus_link p.val) 0).portDown p.val)

/-- `RING_PORT_LINK_UP` (R301): the link comes up again, and the port can leave the down state. -/
def execRingPortLinkUp (p : Fin 4) (s : State) : Res :=
  let s1 := { s with ring := { s.ring with noBack := vset s.ring.noBack p.val 0 } }
  s.when s.power.chip ((s1.fset (F.ringPpStatus_link p.val) 1).fset (F.ringPpStatus_down p.val) 0)

/-- The ports that face the field, the west ports in slot A and the east ports in slot B, run as `PHY0` and `PHY1` of the active
`RING_CFG` select; the others always run 1000BASE-X (R285). -/
def State.ringPhy (s : State) : State :=
  [0, 1, 2, 3].foldl (fun t p =>
    let field := (p % 2 == 1) == s.fbit F.pairStatus_slot
    let phyX := !field || (s.aget (if p < 2 then F.ringCfg_phy0 else F.ringCfg_phy1) == 1)
    (t.fsetb (F.ringPpStatus_field p) field).fsetb (F.ringPpStatus_phyX p) phyX) s

/-- `RING_JOIN` (R286): at t0 + 400 ms the module joins its rings as a passive node. -/
def execRingJoin (s : State) : Res :=
  let s1 := { s with power := { s.power with ringJoined := true } }.fset F.ringStatus_passive 1
  s.when (s.power.chip && s.mod != .off && s.mod != .boot && !s.power.ringJoined) s1.ringPhy

/-! The frozen image (R298, R299, R305). -/

/-- The segments of a station in the exchange under way have all arrived: its values are the latest exchange's (R294). -/
def State.stationComplete (s : State) (n : Nat) : Bool :=
  let mine := s.segList.filter (fun q => q.2.station == n && s.segNow q.2)
  !s.ring.closed && !mine.isEmpty && mine.all (fun q => (s.segRx q.1).got != 0)

/-- What stands of a segment in the mirror at a freeze: the exchange under way where it is complete for the station, otherwise
the one decided last (R294). -/
def State.segMirror (s : State) (i : Nat) (g : RingSeg) : SegRx :=
  let r := s.segRx i
  if s.segNow g && s.stationComplete g.station then { r with last := r.data, lastRings := r.got, missed := false } else r

/-- The value and the quality byte of an input point. -/
def State.inPoint (s : State) (i : Nat) (p : RingPoint) (g : RingSeg) : List Byte × Byte :=
  let r := s.segMirror p.seg g
  let n := max p.size 1
  let held := ((s.ring.held.find? (fun e => e.1 == i)).map (·.2)).getD (List.replicate n 0)
  let subst := match p.substKind with
    | 0 => held
    | 1 => leBytes n p.subst
    | _ => List.replicate n 0
  if s.stationState g.station ≠ stActive then (subst, 6)
  else
    let one := ((s.ring.plan.stations.find? (fun t => t.num == g.station)).map (·.mask)) == some 3 && r.lastRings != 3
    let how := bit r.missed * 16 + bit one * 32
    if pointFault r.last g p then (subst, BitVec.ofNat 8 (10 + how)) else (areaGet r.last p, BitVec.ofNat 8 (1 + how))

/-- The ring items of a class's frozen half: place and bytes. -/
def State.ringFrozen (s : State) (c : Cls) : List (Nat × List Byte) :=
  s.points.flatMap (fun p =>
    let g := (s.ring.plan.segs[p.2.seg]?).getD {}
    if p.2.input && g.cls == c then
      let v := s.inPoint p.1 p.2 g
      [(p.2.place, v.1), (p.2.qplace, [v.2])]
    else [])

def State.peerRx (s : State) (j : Nat) : PeerRx := (s.ring.peers[j]?).getD {}

/-- The values and quality words of the subscriptions of a class: place and bytes (R305, R306). -/
def State.peerFrozen (s : State) (c : Cls) : List (Nat × List Byte) :=
  (s.ring.plan.subs.mapIdx (fun j q => (j, q))).flatMap (fun e =>
    if e.2.cls ≠ c then [] else
    let r := s.peerRx e.1
    let active := s.fget (F.ringPeerSjState_state e.1) == stActive
    let pad (b : List Byte) : List Byte := (b ++ List.replicate e.2.len 0).take e.2.len
    let v := if active then pad r.data else
      match e.2.substKind with
      | 0 => pad r.held
      | 1 => pad e.2.fixed
      | _ => List.replicate e.2.len 0
    let missed := s.fget (F.ringPeerSjState_missCnt e.1) != 0
    let q := if active then 1 + bit missed * 16 + bit (r.ports != 3) * 32 else 6
    let age := min ((s.time.tb1 - r.recvAt).toNat / (max e.2.periodMs 1 * 1000000)) 255
    [(e.2.place, v), (e.2.qplace, leBytes 4 (q + age * 65536))])

/-! Peer exchange (R303-R306). -/

/-- PEER_PUBLISH (R304): one frame on both plant ports at each commit of a published class, by the token holder; `time` is the scan
time of the committed period. -/
def State.peerPublish (s : State) (c : Cls) (cycle time : W64) : State :=
  match s.ring.plan.pubs.find? (fun p => p.cls == c) with
  | none => s
  | some p =>
    if !s.token || !s.ring.active || s.aget F.ringPeerCfg_peerEn ≠ 1 then s
    else
      let data := p.slots.flatMap (fun (o : Nat × Nat) =>
        (List.range o.2).map (fun i => sget (fun _ => 0) s.mem.committed (s.outBase c + o.1 + i)))
      let head := leBytes 1 1 ++ leBytes 1 3
        ++ leBytes 2 (s.aget F.ringPeerCfg_pairId + bit (s.fbit F.pairStatus_slot) * 1024)
        ++ leBytes 1 c.num ++ leBytes 1 (modCode s.mod) ++ leBytes 2 data.length ++ leBytes 8 cycle.toNat
        ++ leBytes 8 time.toNat
      let body := head ++ data ++ List.replicate ((4 - data.length % 4) % 4) 0
      let payload := body ++ leBytes 4 (crc32 body)
      let et := s.aget F.ringPeerCfg_peerEtype
      (s.emit (.peerFrame 0 p.group et payload)).emit (.peerFrame 1 p.group et payload)

def State.modPeer (s : State) (j : Nat) (f : PeerRx → PeerRx) : State :=
  { s with ring := { s.ring with peers := s.ring.peers.mapIdx (fun i r => if i = j then f r else r) } }

/-- A valid frame of a subscription (R306). -/
def State.peerValid (s : State) (j : Nat) : State :=
  let f := F.ringPeerSjState_state j
  let st := s.fget f
  let s := s.fset (F.ringPeerSjState_missCnt j) 0
  if st = stReturning then
    let c := s.fget (F.ringPeerSjState_retCnt j) + 1
    let s := s.fset (F.ringPeerSjState_retCnt j) c
    if c < 10 then s else (s.fset f stActive).raise hapPeerState j [BitVec.ofNat 64 stActive]
  else if st = stActive then s
  else (s.fset f stReturning).fset (F.ringPeerSjState_retCnt j) 1

/-- `PEER_FRAME_RX` (R305): a peer frame is checked; the first valid copy of each `CYCLE` enters the subscription's mirror. -/
def execPeerFrameRx (port : Fin 2) (fcs : Bool) (payload : List Byte) (s : State) : Res :=
  let le (off n : Nat) : Nat := leNat ((payload.drop off).take n)
  let n := payload.length
  let body := payload.take (n - 4)
  let ok := fcs && le 0 1 % 16 == 1 && le 1 1 == 3 && le (n - 4) 4 == crc32 body
  let cycle := BitVec.ofNat 64 (le 8 8)
  let bitp : BitVec 2 := if port.val = 0 then 1 else 2
  let fits := (s.ring.plan.subs.mapIdx (fun j q => (j, q))).filter (fun e =>
    ok && e.2.pair == le 2 2 % 1024 && e.2.pcls.num == le 4 1 && e.2.len == le 6 2)
  let take (s : State) (e : Nat × PeerSub) : State :=
    let r := s.peerRx e.1
    if r.cycle = some cycle then
      let s := s.modPeer e.1 (fun r => { r with ports := r.ports ||| bitp })
      s.fset (F.ringPeerSjState_seen e.1) (r.ports ||| bitp).toNat
    else
      let s := (s.peerValid e.1).fset (F.ringPeerSjState_seen e.1) bitp.toNat
      let data := (payload.drop 24).take e.2.len
      let active := s.fget (F.ringPeerSjState_state e.1) == stActive
      s.modPeer e.1 (fun r => { r with
        cycle := some cycle, ports := bitp, data := data, recvAt := s.time.tb1
        held := if active then data else r.held })
  let r := s.rateOk (20 + port.val) 100 false
  let t := if !r.2 then s.bump (R.timePpDrop port.val)
    else if fits = [] then r.1.bump R.ringRxDrop
    else fits.foldl take r.1
  s.when (s.configured && s.ring.active && s.aget F.ringPeerCfg_peerEn == 1) t

/-- `PEER_PERIOD_MISS` (R306): a period of the publisher's class passes without a valid frame. -/
def execPeerPeriodMiss (j : Fin 32) (s : State) : Res :=
  let k := j.val
  let f := F.ringPeerSjState_state k
  let st := s.fget f
  let s1 := s.bump (R.ringPeerSjMiss k)
  let m := min (s.fget (F.ringPeerSjState_missCnt k) + 1) 3
  let t :=
    if st = stReturning then s1.fset (F.ringPeerSjState_retCnt k) 0
    else if st = stActive then
      let s2 := s1.fset (F.ringPeerSjState_missCnt k) m
      if m < 3 then s2
      else ((s2.fset f stLost).bumpF (F.ringPeerSjState_losses k)).raise hapPeerState k [BitVec.ofNat 64 stLost]
    else s1
  s.when (s.configured && s.ring.active && st != 0) t

/-! The plan (R291, R300, R308) and counters. -/

/-- The ring exchange plan becomes active: every planned station ABSENT, nothing received, no value held. -/
def State.ringActivate (s : State) (p : RingPlan) : State :=
  let s := { s with ring := { s.ring with
    plan := p, active := true, closed := true, held := [], fromLost := []
    segs := p.segs.map (fun _ => {}), peers := p.subs.map (fun _ => {})
    noBack := Vector.replicate 4 0, noRing := Vector.replicate 2 0 } }
  let s := (List.range 256).foldl (fun s n =>
    let planned := p.stations.any (fun t => t.num == n)
    if planned then s.wr (R.ringStsState n) (BitVec.ofNat 32 (stAbsent + fldN (s.rd (R.ringStsState n)).toNat 16 16 * 65536))
    else if s.stationState n = 0 then s else s.wr (R.ringStsState n) 0) s
  let s := (List.range 32).foldl (fun s j =>
    if j < p.subs.length then s.wr (R.ringPeerSjState j) (BitVec.ofNat 32 (stAbsent + fldN (s.rd (R.ringPeerSjState j)).toNat 16 16 * 65536))
    else s.wr (R.ringPeerSjState j) 0) s
  ((s.fset F.ringStatus_ring0 0).fset F.ringStatus_ring1 0).showStations.ringPhy

/-- The events an incoming module raises after a takeover: a LOST station none of whose points in its sealed image carries
`LOST`, and an ACTIVE one all of whose points do (R290) [120]. -/
def State.ringTakeover (s : State) : State :=
  s.ring.plan.stations.foldl (fun s t =>
    let qs := s.points.filterMap (fun p =>
      let g := (s.ring.plan.segs[p.2.seg]?).getD {}
      if p.2.input && g.station == t.num then some (bitN (s.mem.byte (s.winBase g.cls + p.2.qplace)).toNat 2) else none)
    let seen := BitVec.ofNat 2 (s.fget (F.ringStsState_seen t.num))
    if s.stationState t.num = stLost && !qs.isEmpty && qs.all (!·) then s.stationEvent 0x0001 t.num seen
    else if s.stationState t.num = stActive && !qs.isEmpty && qs.all id then s.stationEvent 0x0002 t.num seen
    else s) s

/-- `RING_CTRL.CLR_CNT`. -/
def State.ringClrCnt (s : State) : State :=
  (s.zero ([R.ringLate, R.ringRxDrop, R.ringCopyDiff] ++ (List.range 4).map R.ringPpErr
    ++ (List.range 256).map R.ringStsMiss ++ (List.range 32).map R.ringPeerSjMiss)).fset ⟨R.ringELast, 16, 16⟩ 0

/-- `RING_CLR_CNT` (R308). -/
def execRingClrCnt (m : Master) (s : State) : Res :=
  s.asWrite m R.ringCtrl (fun s => s.ringClrCnt)

end Sys2Proof.Machine
end

