-- ==== Sys2Proof/Machine/Items.lean ====
section
/-!
DEFINITION. The items that plans and banks place in the class windows (R503), and what a ring exchange plan or a plan of CAN
filter tables is refused for (R291-R293, R307, R319).
-/

namespace Sys2Proof.Machine

/-- Whether two spans overlap; an empty span overlaps none. -/
def overlaps (a n b m : Nat) : Bool := decide (n ≠ 0 ∧ m ≠ 0 ∧ a < b + m ∧ b < a + n)

/-- The first pair of a list that clashes. -/
def firstClash (p : α → α → Bool) : List α → Option α
  | [] => none
  | x :: r => if r.any (p x) then some x else firstClash p r

/-- An item of a class window: its class (E stands in the window of F), the half, its offset in the half and its length. -/
structure Item where
  cls : Cls
  out : Bool
  off : Nat
  len : Nat
  deriving DecidableEq, Repr

/-- The item lies in the plan area of its half. -/
def Item.inside (i : Item) : Bool := decide (i.off + i.len ≤ if i.out then 0x7F000 else 0x7B000)

def Item.clash (i j : Item) : Bool := i.cls.window == j.cls.window && i.out == j.out && overlaps i.off i.len j.off j.len

/-- Whether items may be placed beside others: each in its plan area, no two on overlapping bytes. -/
def placeable (items others : List Item) : Bool :=
  items.all Item.inside && (firstClash Item.clash items).isNone && items.all (fun i => others.all (fun j => !i.clash j))

/-! The exchange table of a bank (R168, R503). -/

structure Xch where
  src : Nat
  dst : Nat
  len : Nat
  srcCls : Nat
  dstCls : Nat
  rest : Nat
  deriving DecidableEq, Repr

def State.xchAt (s : State) (b j : Nat) : Xch :=
  let a := b + s.hXchTab b + 16 * j
  { src := s.mem.rd a 4, dst := s.mem.rd (a + 4) 4, len := s.mem.rd (a + 8) 4
    srcCls := s.mem.rd (a + 12) 1, dstCls := s.mem.rd (a + 13) 1, rest := s.mem.rd (a + 14) 2 }

def State.xchs (s : State) (b : Nat) : List Xch := (List.range (s.hXchCnt b)).map (s.xchAt b)

/-- An entry in itself: the source range in the output half, its length, its classes, the bytes that are zero. -/
def Xch.ok (x : Xch) : Bool :=
  x.len % 8 == 0 && decide (x.src + x.len ≤ 0x7F000) && decide (1 ≤ x.srcCls ∧ x.srcCls ≤ 3)
    && decide (1 ≤ x.dstCls ∧ x.dstCls ≤ 3) && x.rest == 0

def Xch.item (x : Xch) : Item := { cls := Cls.ofCode x.dstCls, out := false, off := x.dst, len := x.len }

/-- The exchange-area copies of a bank. -/
def State.xchItems (s : State) (b : Nat) : List Item := (s.xchs b).map Xch.item

/-! The ring exchange plan (R291, R303). -/

/-- The items of a ring exchange plan: points with their quality bytes, subscriptions with their quality words, the slots of the
publications. -/
def ringItems (p : RingPlan) : List Item :=
  p.points.flatMap (fun q =>
    let c := ((p.segs[q.seg]?).getD {}).cls
    { cls := c, out := !q.input, off := q.place, len := max q.size 1 }
      :: (if q.input then [{ cls := c, out := false, off := q.qplace, len := 1 }] else []))
  ++ p.subs.flatMap (fun q =>
    [{ cls := q.cls, out := false, off := q.place, len := q.len }, { cls := q.cls, out := false, off := q.qplace, len := 4 }])
  ++ p.pubs.flatMap (fun q => q.slots.map (fun e => { cls := q.cls, out := true, off := e.1, len := e.2 }))

/-- The payload bytes of the frames of a class and slice, and their number (R296). -/
def ringFrames (p : RingPlan) (c : Cls) (slice : Nat) : List Nat :=
  let mine := p.segs.filter (fun g => g.cls == c && (c == .f || g.slice == slice))
  ((mine.map (·.frame)).eraseDups).map (fun f =>
    24 + (mine.filter (fun g => g.frame == f)).foldl (fun a g => a + 12 + g.outLen + g.inLen) 0)

/-- What the frames of a class and slice take on the wire, in ns: 8 ns for each byte of payload and 38 more. -/
def ringWire (p : RingPlan) (c : Cls) (slice : Nat) : Nat := (ringFrames p c slice).foldl (fun a n => a + 8 * (n + 38)) 0

/-- The largest E of a plan in ns, over every F-cycle position (R293), with the multipliers of N; H is the number of stations on
the fuller ring and one. -/
def ringEMax (p : RingPlan) (mN : Nat) : Nat :=
  let on (r : Nat) : Nat := (p.stations.filter (fun t => t.mask.getLsbD r)).length
  let h := max (on 0) (on 1) + 1
  let ns := ((p.segs.filter (fun g => g.cls == .n)).map (·.slice)).eraseDups
  let ss := ((p.segs.filter (fun g => g.cls == .s)).map (·.slice)).eraseDups
  let top := (ns.map (fun i => ringWire p .n i) ++ ss.map (fun j => ringWire p .s j + ringWire p .n (j % max mN 1))).foldl max 0
  20000 + ringWire p .f 0 + top + 3000 * h

/-- What a ring exchange plan is refused for: too many points, segments that R292 does not allow, a frame above 1,500 bytes, E
above its limit, a peer part that R307 refuses, items outside their plan area or on the bytes of others (R503). -/
def State.ringPlanOk (s : State) (p : RingPlan) (others : List Item) : Bool :=
  let clsOf (q : RingPoint) : Cls := ((p.segs[q.seg]?).getD {}).cls
  let stOf (q : RingPoint) : Nat := ((p.segs[q.seg]?).getD {}).station
  decide ((p.points.filter (fun q => clsOf q == .f)).length ≤ 4096)
    && p.stations.all (fun t => decide ((p.points.filter (fun q => stOf q == t.num)).length ≤ 256))
    && p.stations.all (fun t => [Cls.f, .n, .s].all (fun c =>
      let mine := p.segs.filter (fun g => g.station == t.num && g.cls == c)
      decide (mine.length ≤ 4 ∧ ((mine.map (·.slice)).eraseDups).length ≤ 1)))
    && p.segs.all (fun g => (ringFrames p g.cls g.slice).all (fun n => decide (n ≤ 1500)))
    && decide (ringEMax p s.nMult + 50000 ≤ s.fPeriod * 1000)
    && p.pubs.all (fun q => (q.cls == .n || q.cls == .s) && decide (q.slots.foldl (fun a e => a + e.2) 0 ≤ 1440)
      && decide ((p.pubs.filter (fun r => r.cls == q.cls)).length ≤ 1))
    && decide (p.subs.length ≤ 32) && p.subs.all (fun q => decide (q.pair ≤ 1023) && (q.cls == .n || q.cls == .s))
    && placeable (ringItems p) others

/-! The CAN filter tables (R315, R318, R319). -/

/-- The filter entries of a plan area that name a receive object. -/
def State.canObjs (s : State) (area : Nat) : List (CanFilter × Nat) :=
  ([0, 1, 2, 3].flatMap (fun n => (List.range 256).map (fun i =>
    (s.canFilterAt area n i, s.mem.rd (area + n * 0x1400 + i * 16 + 10) 2)))).filter (fun e => e.1.toObj)

/-- The items of a plan area: receive objects, and the slots of the buffers of a class. -/
def State.canItems (s : State) (area : Nat) : List Item :=
  (s.canObjs area).map (fun e => { cls := Cls.ofCode e.1.cls, out := false, off := e.1.off, len := 88 })
    ++ (([0, 1, 2, 3].flatMap (fun n => (List.range 64).map (s.canDescAt area n))).filter (fun d => d.mode != 0 && d.owner != 0)).map
      (fun d => { cls := Cls.ofCode d.owner, out := true, off := d.slot, len := 72 })

/-- What a plan of CAN filter tables is refused for: an entry that names no class, an object beyond 255 or one that another entry
names, an object not at a multiple of 8, items outside their plan area or on the bytes of others. -/
def State.canPlanOk (s : State) (area : Nat) (others : List Item) : Bool :=
  let objs := s.canObjs area
  objs.all (fun e => decide (1 ≤ e.1.cls ∧ e.1.cls ≤ 3 ∧ e.2 ≤ 255) && e.1.off % 8 == 0)
    && (firstClash (fun (x y : CanFilter × Nat) => x.1.cls == y.1.cls && x.2 == y.2) objs).isNone
    && placeable (s.canItems area) others

end Sys2Proof.Machine
end

