-- ==== Sys2Proof/Machine/Obs.lean ====
section
/-!
DEFINITION. The observation port (R444-R452): lanes, the selection, its boundary, counters, memory windows, frames and
step-exact trace.
-/

namespace Sys2Proof.Machine

/-! The selector (R446). -/

def selWin (b : List Byte) (i : Nat) : ObsWin :=
  let w := b.drop (20 + 16 * i)
  { addr := leNat (w.take 8), len := leNat ((w.drop 8).take 4), period := leNat ((w.drop 12).take 4) }

def ObsWin.ok (w : ObsWin) : Bool :=
  w.len == 0 || (w.addr % 8 == 0 && w.len % 8 == 0 && decide (8 ≤ w.len ∧ w.len ≤ 0x10000) && decide (1 ≤ w.period ∧ w.period ≤ 65535))

/-- A selector frame that is good, as a selection (Table: Selector frame); none: ignored. -/
def readSelector (b : List Byte) : Option ObsSel :=
  let n (at_ len : Nat) : Nat := leNat ((b.drop at_).take len)
  let be := n 12 1
  let wins := (List.range 8).map (selWin b)
  if b.length = 664 ∧ n 0 1 = 1 ∧ n 1 1 = 0x20 ∧ n 2 2 = 664 ∧ n 660 4 = crc32 (b.take 660) ∧ n 8 4 < 32 ∧ (be < 32 ∨ be = 0xFF)
      ∧ n 13 1 = 0 ∧ 1 ≤ n 16 2 ∧ n 18 2 = 0 ∧ wins.all ObsWin.ok then
    some { seq := BitVec.ofNat 32 (n 4 4), src := n 8 4, be := if be < 32 then some be else none, chain := n 14 2
           period := n 16 2, wins := wins, codes := (List.range 256).map (fun k => n (148 + 2 * k) 2) }
  else none

def State.obsPort (s : State) : Bool := s.abit F.obsCfg_portEn

/-- Whether a further selector frame is accepted now: one in each F-cycle, or in each ms while no scan runs (R445). -/
def State.selAllowed (s : State) : Bool :=
  if s.scanning then !s.obs.accepted
  else match s.obs.acceptedAt with
    | none => true
    | some t => decide ((s.time.tb1 - t).toNat ≥ 1000000)

/-- `SELECTOR_FRAME_RX` (R446): a frame on the input lane replaces the selection at the next F boundary, or is ignored and
counted. -/
def execSelectorFrameRx (bytes : List Byte) (s : State) : Res :=
  let served := s.obsPort && s.fbit F.obsStatus_linkIn && s.up
  let t := match readSelector bytes with
    | some v =>
      if !s.fbit F.pwrStatus_firstSec && s.selAllowed then
        { s with obs := { s.obs with next := some (some v), accepted := true, acceptedAt := some s.time.tb1 } }
      else s.bump R.obsIgnored
    | none => s.bump R.obsIgnored
  s.when served t

/-- `OBS_LANE_UP` (R444): a lane, 0 output and 1 input, has held block lock for 1 ms. -/
def execObsLaneUp (lane : Fin 2) (s : State) : Res := s.when s.power.chip (s.fset ⟨R.obsStatus, lane.val, 1⟩ 1)

/-- `OBS_LANE_DOWN` (R446): a lane goes down; without the input lane the selection ends at the next F boundary. -/
def execObsLaneDown (lane : Fin 2) (s : State) : Res :=
  let t := s.fset ⟨R.obsStatus, lane.val, 1⟩ 0
  s.when (s.fbit ⟨R.obsStatus, lane.val, 1⟩) (if lane = 1 then { t with obs := { t.obs with next := some none } } else t)

/-! The boundary. -/

/-- The codes of the counters; a counter whose code changes is set to 0 (R448). With no selection no code is selected. -/
def State.obsCodes (s : State) (codes : List Nat) : State :=
  (List.range 256).foldl (fun s k =>
    let c := codes.getD k 0
    if (s.rd (R.obsCntkSel k)).toNat = c then s
    else (s.wr (R.obsCntkSel k) (BitVec.ofNat 32 c)).wr (R.obsCntk k) 0) s

/-- A request to trace a drupelet step-exactly (R450): accepted, or refused. -/
def State.traceRequest (s : State) (be : Fin 32) : State :=
  if s.obs.traced = some be.val ∨ s.obs.drain = some be.val then s.fset F.obsStatus_stepRefused 0
  else if s.abit F.obsCfg_stepEn ∧ s.obs.traced = none ∧ s.actives.length ≥ 31 ∧ (s.dru be).st = .active then
    let s := { s.fset F.obsStatus_stepRefused 0 with obs := { s.obs with drain := some be.val } }
    (s.setDru be { s.dru be with yieldReq := (s.dru be).win.isSome }).traceEnter be
  else s.fset F.obsStatus_stepRefused 1

/-- The drupelet a selection asks to trace. -/
def ObsSel.step (v : ObsSel) : Option Nat := if bitN v.src 4 then v.be else none

/-- A selection, or none, comes into force. -/
def State.obsSelect (s : State) (v : Option ObsSel) : State :=
  let want := v.bind ObsSel.step
  let held := s.obs.traced.orElse (fun _ => s.obs.drain)
  let ends := held.isSome && held != want
  let blocked := s.obs.traced.isSome && ends
  let s := if ends then s.traceStop else s
  let s := { s with obs := { s.obs with sel := v, next := none, age := 0, reads := [] } }
  let s := s.fsetb F.obsStatus_session v.isSome
  match v with
  | none => s.obsCodes []
  | some x =>
    let s := (s.wr R.obsSelSeq x.seq).obsCodes x.codes
    match want with
    | some i => if blocked then s.fset F.obsStatus_stepRefused 1 else s.traceRequest (Fin.ofNat 32 i)
    | none => s

/-- The bursts of a memory window, of at most 64 bytes: each lies in one aligned line of 64 bytes. -/
def winBursts (w : ObsWin) : List (Nat × Nat) :=
  (List.range ((w.addr + w.len + 63) / 64 - w.addr / 64)).map (fun k =>
    let lo := max w.addr ((w.addr / 64 + k) * 64)
    (lo, min (w.addr + w.len) ((w.addr / 64 + k + 1) * 64) - lo))

/-- What is due at a boundary: the counters' frame, and the windows' bursts. -/
def State.obsDue (s : State) : State :=
  match s.obs.sel with
  | none => s
  | some v =>
    let s := { s with obs := { s.obs with age := s.obs.age + 1 } }
    let s := if bitN v.src 2 ∧ s.obs.age % v.period = 0 then
      s.obsCollect (.counters ((List.range 256).map (fun k => ((s.rd (R.obsCntkSel k)).toNat, s.rd (R.obsCntk k))))) else s
    if bitN v.src 3 then
      let due := v.wins.filter (fun w => w.len != 0 && s.obs.age % w.period == 0)
      { s with obs := { s.obs with reads := s.obs.reads ++ due.flatMap winBursts } }
    else s

/-- Selections and the end of step-exact trace take effect: at an F boundary, or, while no scan runs, at a reflex frame
boundary (R446, R451, R477). -/
def State.obsSwitch (s : State) : State :=
  let s := { s with obs := { s.obs with accepted := false } }
  let s := if s.obs.endStep ∨ !s.abit F.obsCfg_stepEn ∨ !s.obsPort then
    (if s.obs.traced.isSome ∨ s.obs.drain.isSome then s.traceStop else { s with obs := { s.obs with endStep := false } }) else s
  match s.obs.next with
  | some v => s.obsSelect v
  | none => if s.obsPort || s.obs.sel.isNone then s else s.obsSelect none

/-- What an F boundary does to the observation port. -/
def State.obsBoundary (s : State) : State := s.obsSwitch.obsDue

/-! Registers (R451, R452). -/

/-- `OBS_CTRL.END_STEP`. -/
def State.obsEndStep (s : State) : State := { s with obs := { s.obs with endStep := true } }
/-- `OBS_CTRL.CLR_CNT`. -/
def State.obsClrCnt (s : State) : State := s.zero [R.obsReads, R.obsRefused, R.obsDrop]

/-- `OBS_END_STEP` (R451). -/
def execObsEndStep (m : Master) (s : State) : Res :=
  s.asWrite m R.obsCtrl (fun s => s.obsEndStep)
/-- `OBS_CLR_CNT` (R452). -/
def execObsClrCnt (m : Master) (s : State) : Res :=
  s.asWrite m R.obsCtrl (fun s => s.obsClrCnt)

/-! Frames and reads. -/

/-- The records of one frame: the oldest and those of its stream that follow it, as far as a frame holds them. -/
def obsTake (stream : Nat) (room : Nat) : List ObsRec → List ObsRec × List ObsRec
  | [] => ([], [])
  | r :: rest =>
    if obsStream r = stream ∧ obsSize r ≤ room then
      let t := obsTake stream (room - obsSize r) rest
      (r :: t.1, t.2)
    else ([], r :: rest)

/-- `OBSERVATION_FRAME_SEND` (R447): the collector's oldest records go out, in the order collected. -/
def execObservationFrameSend (s : State) : Res :=
  match s.obs.coll with
  | [] => .next s
  | r :: _ =>
    let k := obsStream r
    let t := obsTake k 9196 s.obs.coll
    let n := vget s.obs.frames k
    let seq := match s.obs.sel with | some v => v.seq | none => s.rd R.obsSelSeq
    let s1 := s.emit (.obsFrame (0x10 + k) n seq (vget s.obs.drops k) t.1)
    s.when (s.obsPort && s.fbit F.obsStatus_linkOut)
      { s1 with obs := { s.obs with coll := t.2, frames := vset s.obs.frames k (n + 1), drops := vset s.obs.drops k 0 } }

/-- What a burst reads: status 0 with data; 1 refused; 2 an error response of what lies there. -/
def State.obsBurst (s : State) (a n : Nat) : State × ObsRec :=
  let c := s.catAccess clsObs 0 .read a
  if !c.2 then (c.1.bump R.obsRefused, .burst a 1 [])
  else
    let s := s.bump R.obsReads
    match regionOf a with
    | some .setup => ((s.badAccess clsObs (a % 0x20000) false false), .burst a 2 [])
    | some .cart => if s.cartLink then (s, .burst a 0 (s.bay.window (a % 0x10000) n)) else (s.cartError, .burst a 2 [])
    | _ => if s.mem.badSpan a n then (s, .burst a 2 []) else (s, .burst a 0 (s.view a n))

/-- `MEMORY_WINDOW_BURST` (R449): the next burst of the memory windows is read, or refused; a commit in progress on its
block delays it. -/
def execMemoryWindowBurst (s : State) : Res :=
  match s.obs.reads with
  | [] => .next s
  | (a, n) :: rest =>
    let r := { s with obs := { s.obs with reads := rest } }.obsBurst a n
    s.when (!s.commitSpan a n) (r.1.obsCollect r.2)

end Sys2Proof.Machine
end

