-- ==== Sys2Proof/Machine/Setup.lean ====
section
/-!
DEFINITION. The ranges of the setup fields: a write, or a configuration, with a field outside its range is refused (R71,
R102, R192, R227, R262, R264, R284, R308, R326, R353, R355, R371, R406, R419).
-/

namespace Sys2Proof.Machine

def between (lo hi x : Nat) : Bool := decide (lo ≤ x ∧ x ≤ hi)

/-- Whether an offset is one of an array of `n` registers, `stride` apart. -/
def isArr (first stride n off : Nat) : Bool :=
  decide (first ≤ off) && (off - first) % stride == 0 && decide ((off - first) / stride < n)

/-- A trim of 16 signed bits within −2,048 to 2,047 (R253). -/
def trimOk (x : Nat) : Bool := decide (x % 65536 < 2048 ∨ 63488 ≤ x % 65536)

/-- A source of a sequencer condition (R274): events 0 to 31, counters 32 to 35, 63 always. -/
def srcOk (x : Nat) : Bool := decide (x ≤ 35) || x == 63

/-- Nominal and data bit timing within the ranges of R311; the whole word 0 is the reset value, no timing set. -/
def bitTimeOk (x : Nat) : Bool :=
  x == 0 || (between 1 32 (fldN x 0 6) && between 2 256 (fldN x 6 9) && between 1 128 (fldN x 15 8) && between 1 128 (fldN x 23 8))
def dbitTimeOk (x : Nat) : Bool :=
  x == 0 || (between 1 32 (fldN x 0 6) && between 1 32 (fldN x 6 6) && between 1 16 (fldN x 12 5) && between 1 16 (fldN x 17 5))

/-- Whether the fields of a value written to a register are in their ranges, reserved bits aside (R6); `s` gives the other
registers of the group. -/
def State.inRange (s : State) (off : Nat) (w : W32) : Bool :=
  let v := match regRow off with | some r => if r.access == Access.wo then w else w &&& r.mask | none => w
  let x := v.toNat
  let f (lo w : Nat) : Nat := fldN x lo w
  let shadow (o : Nat) : Nat := if o = off then x else (s.rd o).toNat
  let captures := decide (shadow R.acqPre + shadow R.acqPost ≤ shadow R.acqMaxlen)
  if off = R.scanFPeriod then between 500 10000 x
  else if off = R.scanNMult then between 1 200 x
  else if off = R.scanSMult then decide (x ≤ 200)
  else if off = R.scanWdTol then between 0 25 (f 0 8) && between 0 25 (f 8 8) && between 0 25 (f 16 8)
  else if off = R.brmAuditCtrl then between 1 50 (f 8 8) && between 1 50 (f 16 8)
  else if off = R.olcCfg then between 1 60 (f 0 8)
  else if off = R.pairCfg then between 50 1000 (f 0 10) && between 1 3 (f 10 2) && between 1 255 (f 16 8) && between 1 8 (f 24 4)
  else if isArr 0x6100 0x10 32 off then between 1 255 (f 16 8)
  else if isArr 0x7104 0x20 8 off then decide (x ≤ 22000000)
  else if isArr 0x7108 0x20 8 off || isArr 0x710C 0x20 8 off then trimOk x
  else if off = R.acqCfg then f 0 16 != 0 && decide (f 20 4 ≤ 8)
  else if off = R.acqPre then decide (x ≤ 67108864) && captures
  else if off = R.acqPost then between 1 134217728 x && captures
  else if off = R.acqMaxlen then captures
  else if isArr 0x8100 0x10 16 off then srcOk (f 0 6) && srcOk (f 8 6)
  else if isArr 0x8200 0x8 32 off then f 8 2 != 0
  else if off = R.ringCfg then decide (0x600 ≤ f 0 16)
  else if off = R.ringPlanArea ∨ off = R.canPlanArea then x % 4096 == 0
  else if off = R.ringPeerCfg then decide (0x600 ≤ f 0 16) && f 0 16 != s.fget F.ringCfg_etype
  else if isArr 0xA100 0x40 4 off then bitTimeOk x
  else if isArr 0xA104 0x40 4 off then dbitTimeOk x
  else if isArr 0xB04C 0x40 2 off || isArr 0xB05C 0x40 2 off || isArr 0xB208 0x20 16 off then between 1 12 (f 0 4)
  else if off = R.drayCfg then between 1 255 (f 16 8)
  else if off = R.timePtpCfg then decide (f 0 8 ≤ 127)
  else if off = R.timeServoCfg then between 1 63 (f 0 6) && between 1 255 (f 8 8) && between 1 200 (f 16 8)
  else if off = R.timeUtcCfg then decide (f 0 16 ≤ 255)
  else if off = R.timeSetNs then decide (x < 1000000000)
  else if off = R.wfCfg then between 1 255 (f 8 8)
  else if off = R.recCfg then between 8 255 (f 0 8) && between 1 255 (f 8 8) && between 1 3 (f 16 2)
  else true

/-- The class periods in µs, and the multipliers, against R37 and R70: the first class at fault, coded 1 F, 2 N, 3 S. -/
def periodFault (f n m : Nat) : Option Nat :=
  if !between 500 10000 f then some 1
  else if !between 1 200 n || !between 5000 100000 (f * n) then some 2
  else if m ≠ 0 ∧ (!between 1 200 m || !between 50000 2000000 (f * n * m)) then some 3
  else none

def isPeriod (off : Nat) : Bool := off == R.scanFPeriod || off == R.scanNMult || off == R.scanSMult

/-- The bit timing of a CAN port (R224, R311). -/
def isTiming (off : Nat) : Bool := isArr 0xA100 0x40 4 off || isArr 0xA104 0x40 4 off

def isRws (off : Nat) : Bool := match regRow off with | some r => r.access == .rws | none => false

/-- Registers whose value in force may differ from the value read: the shadowed groups (R478), the class periods, which wait for the
restart boundary (R68), and the bit timing, which waits for the pair's agreement (R224). -/
def keepsActive (off : Nat) : Bool := isRws off || isPeriod off || isTiming off

end Sys2Proof.Machine
end

