-- ==== Sys2Proof/Machine/Time.lean ====
section
/-!
DEFINITION. The time bases (R356-R371): PTP on the plant ports, the steering of ship time and its states, the UTC offset,
the snapshot. The states of TB0 are coded as `TIME_STATUS.TB0_STATE`, those of a port as `TIME_Pp_STATUS.PSTATE`.
-/

namespace Sys2Proof.Machine

def tbFreerun : Nat := 0
def tbAcquiring : Nat := 1
def tbLocked : Nat := 2
def tbHoldover : Nat := 3

/-! portState codes of IEEE 1588-2019, which `PSTATE` names by its first and last only [15]. -/
def ptpListening : Nat := 4
def ptpMaster : Nat := 6
def ptpPassive : Nat := 7
def ptpSlave : Nat := 9

def hapStep : Hap := ⟨11, 1, 14, none, false⟩

def State.tb0State (s : State) : Nat := s.fget F.timeStatus_tb0State

/-- TB0 in nanoseconds. -/
def State.tb0 (s : State) : Int := (s.time.tb0s.toNat : Int) * 1000000000 + s.time.tb0n

def State.setTb0 (s : State) (ns : Int) : State :=
  let n := (max ns 0).toNat
  { s with time := { s.time with tb0s := BitVec.ofNat 64 (n / 1000000000), tb0n := n % 1000000000 } }

/-- A step of TB0: recorded with the old and the new value, and counted (R362, R366). -/
def State.stepTb0 (s : State) (ns : Int) : State :=
  let old := s.tb0ns
  let s := s.setTb0 ns
  (s.bump R.timeSteps).raise hapStep 0 [old, s.tb0ns]

/-- A signed number saturated to 32 bits. -/
def sat32 (x : Int) : W32 := BitVec.ofInt 32 (max (-2147483648) (min x 2147483647))

/-! Ports (R359-R361). -/

def State.ptpState (s : State) (p : Nat) : Nat := s.fget (F.timePpStatus_pstate p)

/-- The constants of Table: Time-stamp correction constants. -/
def ingress (fast : Bool) : Nat := if fast then 312 else 548
def egress (fast : Bool) : Nat := if fast then 184 else 416

/-- A message shows the port's speed, and with it the constants in use. -/
def State.ptpSpeed (s : State) (p : Nat) (fast : Bool) : State :=
  let s := (s.fset (F.timePpStatus_link p) 1).fset (F.timePpStatus_speed p) (if fast then 2 else 1)
  (s.wr (R.timePpRxCorr p) (BitVec.ofNat 32 (ingress fast))).wr (R.timePpTxCorr p) (BitVec.ofNat 32 (egress fast))

/-- Whether a port takes a message: PTP on, and within the 256 of the first second (R360, R461). -/
def State.ptpTake (s : State) (p : Nat) (fast : Bool) : State × Bool :=
  if s.ptpState p = 0 then (s, false)
  else
    let (s, ok) := (s.ptpSpeed p fast).rateOk (28 + p) 256 true
    if ok then (s, true) else (s.bump (R.timePpDrop p), false)

/-! Best master clock algorithm: default data set comparison. -/

/-- Lexicographic order, lower first. -/
def lexLt : List Nat → List Nat → Bool
  | a :: r, b :: t => decide (a < b) || (a == b && lexLt r t)
  | _, _ => false

def annKey (a : Announce) : List Nat := [a.prio1, a.cls, a.acc, a.var, a.prio2, a.gm.toNat]

/-- Data set `a` is better than `b`: by the grandmaster, and for the same grandmaster by the path. -/
def annBetter (a b : Announce) : Bool :=
  if a.gm = b.gm then lexLt [a.steps, a.src.toNat, a.port] [b.steps, b.src.toNat, b.port]
  else lexLt (annKey a) (annKey b)

/-- The module's own data set (R359): clockClass 248, clockAccuracy 0xFE, offsetScaledLogVariance 0xFFFF. -/
def State.ownClock (s : State) : Announce :=
  { src := Config.clockIdentity, gm := Config.clockIdentity, prio1 := s.aget F.timePtpCfg_prio1, cls := 248, acc := 0xFE
    var := 0xFFFF, prio2 := s.aget F.timePtpCfg_prio2, domain := s.aget F.timePtpCfg_domain }

def State.ptpEnabled (s : State) (p : Nat) : Bool := bitN (s.aget F.timePtpCfg_portEn) p

/-- The best data set of all ports, with its port. -/
def State.ptpBest (s : State) : Option (Nat × Announce) :=
  let of (p : Nat) : Option (Nat × Announce) := if s.ptpEnabled p then ((vget s.time.ptp p).best.map (fun a => (p, a))) else none
  match of 0, of 1 with
  | some a, some b => if annBetter b.2 a.2 then some b else some a
  | some a, none => some a
  | none, b => b

/-- The state the algorithm gives a port: MASTER only where R360 allows it, LISTENING otherwise. -/
def State.ptpDecide (s : State) (p : Nat) : Nat :=
  let master := if s.power.ptpMaster && s.abit F.timePtpCfg_masterEn then ptpMaster else ptpListening
  let alone := if (vget s.time.ptp p).timedOut || s.ptpState p == ptpMaster then master else ptpListening
  if !s.ptpEnabled p then 0
  else
    match s.ptpBest with
    | none => alone
    | some (q, b) =>
      if annBetter s.ownClock b then master
      else if q = p then ptpSlave
      else match (vget s.time.ptp p).best with
        | some e => if e.gm = b.gm then ptpPassive else master
        | none => alone

/-! States of TB0 (R363, R364). -/

/-- The rate correction: shown, and noted while LOCKED. -/
def State.setRate (s : State) (r : Int) : State :=
  let s := s.wr R.timeRate (sat32 r)
  if s.tb0State = tbLocked then
    { s with time := { s.time with rates := (s.time.tb1, r) :: s.time.rates } }
  else s

/-- The last rate: the mean over the last 64 s of LOCKED, or over the whole of it. -/
def meanRate : List (W64 × Int) → Nat → Nat → Int × Nat
  | [], _, _ => (0, 0)
  | (t, r) :: rest, till, left =>
    let d := min (till - t.toNat) left
    let m := meanRate rest t.toNat (left - d)
    (r * d + m.1, d + m.2)

def State.lastRate (s : State) : Int :=
  let m := meanRate s.time.rates s.time.tb1.toNat 64000000000
  if m.2 = 0 then (s.rd R.timeRate).toInt else m.1 / m.2

/-- Parent lost or changed. -/
def State.parentLost (s : State) : State :=
  let st := s.tb0State
  let rate := s.lastRate
  let hold (s : State) : State :=
    let t := (s.fset F.timeStatus_tb0State tbHoldover).setRate rate
    { t with time := { t.time with rates := [(t.time.tb1, rate)] } }
  let s :=
    if st = tbLocked then (hold s).wr R.timeHoldS 0
    else if st = tbAcquiring then
      if s.time.everLocked then (hold s).wr R.timeHoldS 0
      else ((s.fset F.timeStatus_tb0State tbFreerun).setRate 0).wr R.timeTb0Err 0xFFFFFFFF
    else s
  { s with time := { s.time with ovr := 0, good := 0, t21 := none, t3 := none } }

/-- The ports and the parent follow the algorithm; a change of parent is handled as a loss (R363). -/
def State.ptpUpdate (s : State) : State :=
  let states := [s.ptpDecide 0, s.ptpDecide 1]
  let slave := states.findIdx? (· == ptpSlave)
  let parent := slave.bind (fun p => (vget s.time.ptp p).best.map (fun a => (p, a)))
  let same := match s.time.parent, parent with
    | some (p, a), some (q, b) => p == q && a.src == b.src && a.port == b.port
    | none, none => true
    | _, _ => false
  let s := (s.fset (F.timePpStatus_pstate 0) (states.getD 0 0)).fset (F.timePpStatus_pstate 1) (states.getD 1 0)
  let s := ((s.fsetb F.timeStatus_hasSlave slave.isSome).fset F.timeStatus_slavePort (slave.getD 0)).fsetb
    F.timeStatus_masterAny (states.contains ptpMaster)
  let s := if same then s else s.parentLost.bump R.timeMasterChg
  let s := { s with time := { s.time with parent := parent } }
  match parent with
  | some (_, a) => s.wr64 R.timeParentLo a.src
  | none => s.wr64 R.timeParentLo 0

/-! The UTC offset (R368). -/

/-- Taken from the parent's Announce. -/
def State.takeUtc (s : State) (a : Announce) : State :=
  s.wr R.timeUtc (BitVec.ofNat 32 (a.utc.toNat + bit a.utcValid * 2 ^ 16 + bit a.leap61 * 2 ^ 17 + bit a.leap59 * 2 ^ 18 + 2 ^ 19))

/-- `TIME_UTC_CFG` is used while none has been taken since power-up. -/
def State.useUtcCfg (s : State) : State :=
  if s.fbit F.timeUtc_fromPtp then s
  else s.wr R.timeUtc (BitVec.ofNat 32 (fldN (s.actv R.timeUtcCfg).toNat 0 17))

/-- `PTP_ANNOUNCE_RX` (R359, R363, R368): an Announce on a port; `fast` says 1000BASE-T. -/
def execPtpAnnounceRx (p : Fin 2) (a : Announce) (fast : Bool) (s : State) : Res :=
  let (s1, ok) := s.ptpTake p.val fast
  if !ok then .next s1
  else if a.domain ≠ s.aget F.timePtpCfg_domain then .next s1
  else
    let cur := vget s1.time.ptp p.val
    let take := match cur.best with
      | none => true
      | some b => (a.src == b.src && a.port == b.port) || annBetter a b
    let s2 := { s1 with time := { s1.time with
      ptp := vset s1.time.ptp p.val { cur with best := if take then some a else cur.best, timedOut := false } } }
    let s3 := s2.ptpUpdate
    match s3.time.parent with
    | some (q, b) => .next (if q = p.val ∧ b = a then s3.takeUtc a else s3)
    | none => .next s3

/-- The best foreign master of a port is gone. -/
def State.dropBest (s : State) (p : Nat) : State :=
  { s with time := { s.time with ptp := vset s.time.ptp p { best := none, timedOut := true } } }.ptpUpdate

/-- `ANNOUNCE_TIMEOUT` (R363): three announce intervals without an Announce on a port. -/
def execAnnounceTimeout (p : Fin 2) (s : State) : Res :=
  s.when (s.ptpState p.val != 0) ((s.bump (R.timePpAnnTo p.val)).dropBest p.val)

/-- `SYNC_LOSS` (R363): four Sync intervals pass without a Sync of the parent. -/
def execSyncLoss (s : State) : Res :=
  match s.time.parent with
  | some (p, _) => .next ({ s with time := { s.time with ptp := vset s.time.ptp p {} } }.ptpUpdate)
  | none => .next s

/-- `PARENT_QUALIFIED` (R363): the servo starts. -/
def execParentQualified (s : State) : Res :=
  s.when (s.time.parent.isSome && (s.tb0State == tbFreerun || s.tb0State == tbHoldover))
    { (s.fset F.timeStatus_tb0State tbAcquiring).wr R.timeHoldS 0 with time := { s.time with ovr := 0, good := 0 } }

/-- `PTP_MASTER_ENABLE` (R360): t0 + 2 s. -/
def execPtpMasterEnable (s : State) : Res :=
  s.when s.power.chip ({ s with power := { s.power with ptpMaster := true } }.ptpUpdate)

/-! The servo (R362). -/

/-- The rate correction that the PI filter gives: its coefficients are not stated, so the value is open within the slew
limit, in 0.01 ppb [2]. -/
def State.servoRate (s : State) : State :=
  let lim := s.aget F.timeServoCfg_slewPpm * 100000
  let (v, s) := s.take
  s.setRate ((v.toNat % (2 * lim + 1) : Nat) - (lim : Int))

/-- One computation of the servo on an offset in ns. -/
def State.servo (s : State) (off : Int) : State :=
  let s := s.wr R.timeOffset (sat32 off)
  let st := s.tb0State
  if st ≠ tbAcquiring ∧ st ≠ tbLocked then s
  else
    let big := decide (off.natAbs > s.aget F.timeServoCfg_stepMs * 1000000)
    let ovr := if big then s.time.ovr + 1 else 0
    let good := if off.natAbs ≤ 1000 then s.time.good + 1 else 0
    let s := { s with time := { s.time with ovr := ovr, good := good } }
    let s := if ovr ≥ 3 then { s.stepTb0 (s.tb0 - off) with time := { (s.stepTb0 (s.tb0 - off)).time with ovr := 0 } }
      else s.servoRate
    if st = tbAcquiring ∧ good ≥ 16 then
      let s := (s.fset F.timeStatus_tb0State tbLocked).wr R.timeTb0Err 100
      { s with time := { s.time with everLocked := true, rates := [(s.time.tb1, (s.rd R.timeRate).toInt)] } }
    else s

/-- The path delay in use. -/
def State.pathDelay (s : State) : Int := ((s.rd R.timePathDelay).toNat : Int)

/-- `PTP_SYNC_RX` (R359, R361, R362): a Sync, with its Follow_Up where it is two-step: the sender, logSyncInterval, the
origin time and correction in ns. The receive stamp is TB0 corrected to the connector. -/
def execPtpSyncRx (p : Fin 2) (src : W64) (port : Nat) (logInt : Int) (origin corr : Int) (fast : Bool) (s : State) : Res :=
  let (s1, ok) := s.ptpTake p.val fast
  if !ok then .next s1
  else
    let s2 := s1.bump (R.timePpSyncRx p.val)
    match s.time.parent with
    | some (q, a) =>
      if q ≠ p.val ∨ a.src ≠ src ∨ a.port ≠ port then .next s2
      else if logInt < -4 ∨ 1 < logInt then .next (s2.bump (R.timePpDrop p.val))
      else
        let t21 := s2.tb0 - ingress fast - origin - corr
        .next ({ s2 with time := { s2.time with t21 := some t21 } }.servo (t21 - s2.pathDelay))
    | none => .next s2

/-- `DELAY_REQ_SEND` (R361, R362): a SLAVE port sends a Delay_Req on its parent's transport and stamps it. -/
def execDelayReqSend (p : Fin 2) (s : State) : Res :=
  match s.time.parent with
  | some (q, a) =>
    let t3 := s.tb0 + (s.rd (R.timePpTxCorr p.val)).toNat
    s.when (q == p.val && s.ptpState p.val == ptpSlave)
      ({ s with time := { s.time with t3 := some t3 } }.emit (.ptp p.val a.udp .delayReq))
  | none => .next s

/-- `PTP_DELAY_RESP_RX` (R361, R362): the parent's answer, with its receive time and correction in ns: the mean path delay
is half the sum of both directions. -/
def execPtpDelayRespRx (p : Fin 2) (src : W64) (port : Nat) (recv corr : Int) (fast : Bool) (s : State) : Res :=
  let (s1, ok) := s.ptpTake p.val fast
  if !ok then .next s1
  else
    match s.time.parent, s.time.t21, s.time.t3 with
    | some (q, a), some t21, some t3 =>
      let d := (t21 + (recv - corr - t3)) / 2
      s1.when (q == p.val && a.src == src && a.port == port)
        ({ s1 with time := { s1.time with t3 := none } }.wr R.timePathDelay (BitVec.ofNat 32 (max d 0).toNat))
    | _, _, _ => .next s1

/-! Sending as MASTER (R359). -/

/-- What the module announces: its parent's grandmaster one step further on, or its own clock. -/
def State.announceOut (s : State) : Announce :=
  let u := (s.rd R.timeUtc).toNat
  let base := match s.time.parent with
    | some (_, a) => { a with steps := a.steps + 1 }
    | none => s.ownClock
  { base with
    src := Config.clockIdentity, domain := s.aget F.timePtpCfg_domain, utc := BitVec.ofNat 16 u
    utcValid := bitN u 16, leap61 := bitN u 17, leap59 := bitN u 18, udp := false }

/-- `MASTER_SYNC_SEND` (R359): a MASTER port sends its Announce, or its Sync and the Follow_Up with the corrected send
time, on Annex E. -/
def execMasterSyncSend (p : Fin 2) (announce : Bool) (s : State) : Res :=
  let t := if announce then s.emit (.ptp p.val false (.announce { s.announceOut with port := p.val + 1 }))
    else (s.emit (.ptp p.val false .sync)).emit (.ptp p.val false (.followUp (s.tb0 + (s.rd (R.timePpTxCorr p.val)).toNat)))
  s.when (s.ptpState p.val == ptpMaster) t

/-- `DELAY_REQ_RX` (R359): a MASTER port answers a Delay_Req with its corrected receive stamp. -/
def execDelayReqRx (p : Fin 2) (src : W64) (port : Nat) (udp fast : Bool) (s : State) : Res :=
  let (s1, ok) := s.ptpTake p.val fast
  .next (if ok && s.ptpState p.val == ptpMaster then s1.emit (.ptp p.val udp (.delayResp (s1.tb0 - ingress fast) src port)) else s1)

/-! Leap seconds, snapshot, setting, counters. -/

/-- `LEAP_SECOND` (R368): the UTC day ends: the announced leap second changes the offset; TB0 does not step. -/
def execLeapSecond (s : State) : Res :=
  let o := s.fget F.timeUtc_offset
  let o := if s.fbit F.timeUtc_leap61 then o + 1 else if s.fbit F.timeUtc_leap59 then o + 65535 else o
  .next (((s.fset F.timeUtc_offset o).fset F.timeUtc_leap61 0).fset F.timeUtc_leap59 0)

/-- `TIME_CTRL.SNAP` (R370): the four bases captured together. -/
def State.timeSnap (s : State) : State :=
  let s := ((s.wr64 R.timeSnapTb0SecLo s.time.tb0s).wr R.timeSnapTb0Ns (BitVec.ofNat 32 s.time.tb0n)).wr64 R.timeSnapTb1Lo s.time.tb1
  (s.wr64 R.timeSnapTb2Lo s.tb2).wr64 R.timeSnapTb3Lo (BitVec.ofNat 64 (s.time.tb3 % 2 ^ 48 + s.time.pcc % 2 ^ 16 * 2 ^ 48))

/-- `TIME_SNAP` (R370). -/
def execTimeSnap (m : Master) (s : State) : Res :=
  s.asWrite m R.timeCtrl (fun s => s.timeSnap)

/-- `TIME_CTRL.CLR_CNT` (R371). -/
def State.timeClrCnt (s : State) : State :=
  s.zero [R.timeSteps, R.timeMasterChg, R.timePpSyncRx 0, R.timePpSyncRx 1, R.timePpAnnTo 0, R.timePpAnnTo 1,
    R.timePpDrop 0, R.timePpDrop 1]

/-- `TIME_CLR_CNT` (R371). -/
def execTimeClrCnt (m : Master) (s : State) : Res :=
  s.asWrite m R.timeCtrl (fun s => s.timeClrCnt)

/-- A write of `TIME_SET` (R366): with the key 0x71DE and no SLAVE port TB0 takes the written time. -/
def State.timeSetKey (s : State) (v : W32) : State :=
  if fldN v.toNat 0 16 ≠ 0x71DE ∨ s.fbit F.timeStatus_hasSlave then s.ignoredIn 14
  else s.stepTb0 ((((s.rd R.timeSetSecHi) ++ (s.rd R.timeSetSecLo) : W64).toNat : Int) * 1000000000 + (s.rd R.timeSetNs).toNat)

/-- `TIME_SET` (R366). -/
def execTimeSet (m : Master) (v : W32) (s : State) : Res :=
  s.asWrite m R.timeSet (fun s => s.timeSetKey v)

/-! The passing of time (R356). -/

/-- One clock of the timekeeper, 4 ns: TB1 counts it, TB0 counts it with its rate correction, whose unit is 0.01 ppb, and TB2
follows scan time. -/
def State.tick (s : State) : State :=
  if !s.power.rails || s.time.stopped || !s.power.ocxo then s
  else
    let f := s.time.frac + (s.rd R.timeRate).toInt
    let carry := f / 25000000000
    let s := s.setTb0 (s.tb0 + 4 + carry)
    { s with time := { s.time with tb1 := s.time.tb1 + 4, frac := f - carry * 25000000000 } }

end Sys2Proof.Machine
end

