-- ==== Sys2Proof/Machine/Plan.lean ====
section
/-!
DEFINITION. Plans and commit groups (R10, R14-R18, R477, R478): what makes a group active, what a block does with its new
plan, which plans are refused, and the agreement of the pair (R224).
-/

namespace Sys2Proof.Machine

/-- The numbers of the blocks (R468). -/
def blkScan : Nat := 1
def blkRfx : Nat := 3
def blkOlc : Nat := 4
def blkPair : Nat := 5
def blkDio : Nat := 6
def blkAo : Nat := 7
def blkAcq : Nat := 8
def blkRing : Nat := 9
def blkCan : Nat := 10
def blkDma : Nat := 12
def blkDray : Nat := 13
def blkTime : Nat := 14
def blkPwr : Nat := 21

/-- The register of a block that holds the generation of its active plan (R15). -/
def planGenOf (b : Nat) : Option Nat :=
  if b = 3 then some R.rfxPlanGen else if b = 5 then some R.pairPlanGen else if b = 6 then some R.dioPlanGen
  else if b = 8 then some R.acqPlanGen else if b = 9 then some R.ringPlanGen else if b = 10 then some R.canPlanGen
  else if b = 12 then some R.dmaPlanGen else none

/-- Blocks whose groups become active at an F boundary (R477). -/
def atBoundary (b : Nat) : Bool := [1, 2, 3, 4, 6, 7, 9, 17, 20].contains b
/-- Blocks whose groups hold pair-wide fields (R224, R477). -/
def pairWide (b : Nat) : Bool := [1, 2, 3, 5, 6, 7, 9, 10].contains b

def State.applyPend (s : State) (b : Nat) : Bool := (s.rd R.sysApplyPend).getLsbD b

/-- Both pending bits of a block clear (R478). -/
def State.pendClear (s : State) (b : Nat) : State :=
  (s.fset ⟨R.sysShadowPend, b, 1⟩ 0).fset ⟨R.sysApplyPend, b, 1⟩ 0

/-- The shadows of a block become its active values (R10). -/
def State.takeGroup (s : State) (b : Nat) : State :=
  { s with act := scopy regReset (fun o => o / 0x1000 == b && isRws o) s.regs s.act }

/-- The generation of a block rises by one as its plan becomes active (R15). A plan that is written and then refused or
discarded consumes no number: the rule does not say whether it does, and this is the model's choice [103]. -/
def State.genUp (s : State) (b : Nat) : State :=
  match planGenOf b with | some o => s.wr o (s.rd o + 1) | none => s

/-- A refused or discarded group: its shadows are reloaded from the active values (R478), and with those of CAN a bit timing
that waits for the agreement (R224). -/
def State.dropGroup (s : State) (b : Nat) : State :=
  { s with
    regs := scopy regReset (fun o => o / 0x1000 == b && (isRws o || isTiming o)) s.act s.regs
    conf := if b = blkRing then { s.conf with ring := none } else s.conf }.pendClear b

/-- What a block does with a plan that has become active. -/
def State.planHook (s : State) (b : Nat) : State :=
  if b = 3 then ((s.islandLoad 3).genUp 6).showIsland
  else if b = 6 ∨ b = 7 then (s.islandLoad b).showIsland
  else if b = 8 then s.acqClearHistory
  else if b = 9 then
    match s.conf.ring with
    | some p => ({ s.ringActivate p with conf := { s.conf with ring := none } }.wr R.ringELimit
        (BitVec.ofNat 32 ((ringEMax p s.nMult + 999) / 1000)))
    | none => s.ringPhy
  else if b = 10 then s.canActivate
  else if b = 12 then s.dmaWait.dmaGo
  else if b = 14 then s.useUtcCfg.ptpUpdate
  else if b = 17 then (List.finRange 4).foldl State.showParked s
  else s

/-! Refusals of a binding plan or a DIO group (R13, R165, R229). -/

/-- The inputs a program reads (R229). -/
def rfxReads (code : List Nat) : W32 :=
  maskOf (fun n => code.any (fun w => decide (1 ≤ fldN w 12 4 ∧ fldN w 12 4 ≤ 0xB) && fldN w 9 3 == 0 && fldN w 0 9 == n))

/-- The instructions of the reflex program in force: the program of the active slot, or while none is armed the one that the active
bank holds for it. -/
def State.rfxProgram (s : State) : List Nat :=
  if s.fbit F.rfxStatus_armed then s.mem.rfxCode (rfxSlotBase s.rfxLead (s.fget F.rfxProgInfo_slot))
  else if s.hRfxImg s.bank = 0 then []
  else s.mem.rfxCode (s.bank + s.hRfxImg s.bank)

/-- The lowest channel of a mask. -/
def lowest (m : W32) : Option Nat := (List.range 32).find? (fun n => m.getLsbD n)

/-- What R229 refuses: the lowest channel concerned, for a direction, pairing, channel configurations, binding, armed edges
and a reflex program. -/
def channelFault (dir paired bind armed : W32) (cfg : Nat → W32) (code : List Nat) : Option Nat :=
  let used := (rfxReads code ||| armed) &&& ~~~dir
  (List.range 32).find? (fun n =>
    let m := n / 2 * 2
    (used.getLsbD n && bitN (cfg n).toNat 13)
      || (paired.getLsbD (n / 2) && !(dir.getLsbD m && dir.getLsbD (m + 1) && bind.getLsbD m == bind.getLsbD (m + 1)))
      || (armed.getLsbD n && dir.getLsbD n))

/-- An edge is armed of a threshold event whose kind is disabled (R268); `v` gives the registers. -/
def deadEvent (v : Nat → W32) : Bool :=
  let armed := v R.rfxArmArise ||| v R.rfxArmAfall
  (List.range 32).any (fun n => armed.getLsbD n && fldN (v (R.acqEvnCfg n)).toNat 4 2 == 3)

/-- What a binding plan (block 3) or a DIO group (block 6) is refused for (R13, R165, R229, R268): registers `v`, the reflex program
and the outputs that the scan program writes. -/
def bindingFault (b : Nat) (v : Nat → W32) (code : List Nat) (scanOut : W32) : Bool :=
  let bind := v R.rfxOutBind
  let armed := v R.rfxArmIrise ||| v R.rfxArmIfall
  (b == 3 && (bind &&& scanOut != 0 || bind &&& ~~~(rfxWrites code) != 0 || deadEvent v))
    || (channelFault (v R.dioDir) (v R.dioPaired) bind armed (fun n => v (R.dioChnCfg n)) code).isSome

/-- Whether the pending plan of RFX or the pending group of DIO is refused: its own registers pending, the others in force. -/
def State.bindingRefused (s : State) (b : Nat) : Bool :=
  bindingFault b (fun off => if off / 0x1000 = b then s.rd off else s.actv off) s.rfxProgram s.conf.scanOut

/-! The acquisition routes (R278). -/

/-- The paths out of a state of the trigger sequencer: whether each is enabled, and the state it names. -/
def seqPaths (v : Nat → W32) (t : Nat) : List (Bool × Nat) :=
  let c := (v (R.acqStsCond t)).toNat
  let n := (v (R.acqStsNext t)).toNat
  [(bitN c 7, fldN n 0 4), (bitN c 15, fldN n 4 4), (bitN n 12, fldN n 8 4)]

/-- The states reached from a set of states in at most `k` steps. -/
def seqReach (v : Nat → W32) : Nat → List Nat → List Nat
  | 0, l => l
  | k + 1, l => seqReach v k ((l ++ l.flatMap (fun t => ((seqPaths v t).filter (·.1)).map (·.2))).eraseDups)

/-- Whether the module takes a routes plan: no unassigned source, no `NEXT` other than 0 without its path enabled [121], and no state
that is reached from state 0, has every path disabled, and neither `TRIG` nor `IDLE` among its entry actions. -/
def acqPlanOk (v : Nat → W32) : Bool :=
  let src (t k : Nat) : Nat := fldN (v (R.acqStsCond t)).toNat (8 * k) 6
  let dead (t : Nat) : Bool := (seqPaths v t).all (fun e => !e.1) && fldN (v (R.acqStsAct t)).toNat 0 2 == 0
  (List.range 16).all (fun t => srcOk (src t 0) && srcOk (src t 1) && (seqPaths v t).all (fun e => e.1 || e.2 == 0))
    && !(seqReach v 16 [0]).any dead

/-! The pending plans. -/

/-- The items that stand beside a pending ring exchange plan, or beside pending CAN filter tables. -/
def State.ringNow (s : State) : List Item := if s.ring.active then ringItems s.ring.plan else []

/-- Whether the pending plan of a block is refused when it falls due (R13, R165, R229, R268, R278, R291, R319, R503). -/
def State.planRefused (s : State) (b : Nat) : Bool :=
  if b = blkRfx ∨ b = blkDio then s.bindingRefused b
  else if b = blkAcq then !acqPlanOk s.rd
  else if b = blkRing then
    s.conf.ring.any (fun p => !s.ringPlanOk p (s.xchItems s.bank ++ s.canItems s.canArea))
  else if b = blkCan then !s.canPlanOk (canAreaOf (s.rd R.canPlanArea)) (s.xchItems s.bank ++ s.ringNow)
  else false

/-- Whether the module stands in a pair whose plans need agreement (R224): an ALONE module, or one whose partner is not STANDBY,
applies without agreement. -/
def State.paired (s : State) : Bool := (s.mod == .primary && s.partner == .standby) || s.mod == .standby

/-! Digests (R19, R206, R224). -/

def clsByte (c : Cls) : List Byte := leBytes 1 c.num

/-- A ring exchange plan as bytes: every field of it, each list after its length. -/
def ringBytes (p : RingPlan) : List Byte :=
  let w (l : List Nat) : List Byte := l.flatMap (leBytes 8)
  w [p.stations.length, p.segs.length, p.points.length, p.pubs.length, p.subs.length]
    ++ p.stations.flatMap (fun t => w [t.num, t.mask.toNat, t.layout])
    ++ p.segs.flatMap (fun g => clsByte g.cls ++ w [g.station, g.slice, g.frame, g.outLen, g.inLen, g.mapOff])
    ++ p.points.flatMap (fun q => w [q.seg, bit q.input, q.size, q.off, q.bit, q.place, q.qplace, q.fbit, q.substKind, q.subst, q.safe])
    ++ p.pubs.flatMap (fun q => clsByte q.cls ++ w [q.group.toNat, q.slots.length] ++ q.slots.flatMap (fun e => w [e.1, e.2]))
    ++ p.subs.flatMap (fun q => clsByte q.pcls ++ clsByte q.cls
        ++ w [q.pair, q.periodMs, q.len, q.place, q.qplace, q.substKind, q.fixed.length] ++ q.fixed)

/-- What a plan holds beside its registers: the ring exchange plan, the CAN filter tables, the copy map with the windows it tracks. -/
def State.planBytes (s : State) (b : Nat) (active : Bool) : List Byte :=
  if b = blkRing then ringBytes (if active then s.ring.plan else s.conf.ring.getD s.ring.plan)
  else if b = blkCan then s.mem.bytesAt (if active then s.canArea else canAreaOf (s.rd R.canPlanArea)) 0x5000
  else if b = blkPair then [s.conf.winF, s.conf.winN, s.conf.winS, s.conf.staging].flatMap (leBytes 4)
  else []

/-- The digest of the active or of the pending plan of a block: CRC-64 of R85 over offset and value of each register of its group
that differs from its reset value, in ascending offset, then over what else it holds. -/
def State.planDigest (s : State) (b : Nat) (active : Bool) : W64 :=
  sigBytes (((if active then s.act else s.regs).filter (fun (e : Nat × W32) => e.1 / 0x1000 == b && keepsActive e.1)).foldl
    (fun g e => sigBytes g (leBytes 4 e.1 ++ leBytes 4 e.2.toNat)) (BitVec.allOnes 64)) (s.planBytes b active)

/-- The ports whose bit timing waits (R224). -/
def State.timingPend (s : State) : List Nat :=
  [0, 1, 2, 3].filter (fun n => s.rd (R.canChnBittime n) != s.actv (R.canChnBittime n)
    || s.rd (R.canChnDbittime n) != s.actv (R.canChnDbittime n))

/-- The digests of the pending pair-wide plans (R206, R224). -/
def State.pendingDigests (s : State) : List (Nat × W64) :=
  ((List.range 22).filter (fun b => pairWide b && (s.applyPend b || (b == blkCan && !s.timingPend.isEmpty)))).map
    (fun b => (b, s.planDigest b false))

/-- The blocks that hold a generation, each with the generation and the digest of its active plan (R19). -/
def State.activePlans (s : State) : List (Nat × W32 × W64) :=
  (List.range 22).filterMap (fun b => (planGenOf b).map (fun o => (b, s.rd o, s.planDigest b true)))

/-- Generations and digests of the active plans go to the partner, as an item of opcode 0 (R19). -/
def State.tellPlans (s : State) : State :=
  if s.partner = .off then s
  else s.send (.item 0 (s.activePlans.flatMap (fun e => [BitVec.ofNat 64 e.1, e.2.1.setWidth 64, e.2.2])) [])

/-- The plans a partner has told. -/
def plansTold : List W64 → List (Nat × W32 × W64)
  | b :: g :: d :: r => (b.toNat, g.setWidth 32, d) :: plansTold r
  | _ => []

/-! Activation. -/

/-- Whether the pair's agreement lets a pair-wide plan become active now (R224): both digests equal and the boundary named
has come. -/
def State.agreedNow (s : State) (b : Nat) : Bool :=
  !pairWide b || !s.paired
    || (s.pair.agreed.contains b && s.pair.applyAt.any (fun n => decide (n.toNat ≤ (s.rd64 R.scanCycleLo).toNat)))

/-- The agreement on a block is used up. -/
def State.agreementUsed (s : State) (b : Nat) : State := { s with pair := { s.pair with agreed := s.pair.agreed.filter (· ≠ b) } }

/-- The bit timing that waits becomes active on the ports that are stopped (R224, R310). -/
def State.takeTiming (s : State) : State :=
  let s := if s.applyPend blkCan ∨ s.timingPend = [] then s else s.agreementUsed blkCan
  { s with act := scopy regReset (fun o => isTiming o && s.canState ((o - 0xA100) / 0x40) == canDown) s.regs s.act }

/-- A pending group becomes active at its safe point, or is refused. A module whose MC has failed for good never applies
another plan (R36). -/
def State.planActivate (s : State) (b : Nat) : State :=
  if s.fbit F.sysStatus_mcFailed then s
  else
    let s := if b = blkCan then s.takeTiming else s
    if !s.applyPend b then s
    else
      let s := s.agreementUsed b
      if s.planRefused b then s.dropGroup b
      else ((((s.takeGroup b).pendClear b).genUp b).planHook b).tellPlans

/-- The groups due at an F boundary become active, in the order of R17: bindings, ring, the others; with them a bit timing whose
boundary has come. -/
def State.planBoundary (s : State) : State :=
  let s := [3, 9, 1, 2, 4, 6, 7, 17, 20].foldl (fun s b => if s.agreedNow b then s.planActivate b else s) s
  if s.agreedNow blkCan && !s.fbit F.sysStatus_mcFailed then s.takeTiming else s

/-! Plans that a package or a configuration carries (R18, R457). -/

/-- A register set in its shadow and its active value. -/
def State.setBoth (s : State) (off : Nat) (v : W32) : State :=
  let s := s.wr off v
  if keepsActive off then { s with act := sset regReset s.act off v } else s

def State.setAll (s : State) (regs : List (Nat × W32)) : State := regs.foldl (fun s e => s.setBoth e.1 e.2) s

/-- The blocks for which a plan set holds something, in the order of R17. -/
def planBlocks (p : PlanSet) : List Nat :=
  [3, 9, 1, 2, 4, 5, 6, 7, 8, 10, 12, 13, 14, 16, 17, 18, 20].filter (fun b =>
    p.regs.any (fun e => e.1 / 0x1000 == b) || (b == 9 && p.ring.isSome))

/-- The ring exchange plan that stands after a plan set. -/
def State.ringAfter (s : State) (p : PlanSet) : RingPlan := p.ring.getD s.ring.plan

/-- The CAN plan area that stands after a plan set. -/
def State.canAfter (s : State) (p : PlanSet) : Nat := (s.setAll p.regs).canArea

/-- The items that the plans place once a plan set stands (R503). -/
def State.planItems (s : State) (p : PlanSet) : List Item := ringItems (s.ringAfter p) ++ s.canItems (s.canAfter p)

/-- What one block's plan of a plan set is refused for; `code`: the reflex program it is to stand with, `b`: the bank. -/
def State.setRefused (s : State) (p : PlanSet) (bank : Nat) (code : List Nat) (b : Nat) : Bool :=
  let t := s.setAll p.regs
  if b = blkRfx ∨ b = blkDio then bindingFault b t.actv code p.scanOut
  else if b = blkAcq then !acqPlanOk t.actv
  else if b = blkRing then p.ring.any (fun q => !t.ringPlanOk q (s.xchItems bank ++ s.canItems t.canArea))
  else if b = blkCan then !t.canPlanOk t.canArea (s.xchItems bank ++ ringItems (s.ringAfter p))
  else false

/-- Check 12 (R172): the plans that a package carries pass the checks of their blocks: fields in range and no plan refused. -/
def State.planSetOk (s : State) (bank : Nat) (p : PlanSet) : Bool :=
  let code := if s.hRfxImg bank = 0 then s.rfxProgram else s.mem.rfxCode (bank + s.hRfxImg bank)
  let t := p.regs.foldl (fun (t : State) e => t.wr e.1 e.2) s
  p.regs.all (fun e => t.inRange e.1 e.2) && (planBlocks p).all (fun b => !s.setRefused p bank code b)

/-- Plans become active together: those of a package with the bank switch, in the order of R17 (R18); those of a configuration as the
module takes it (R457). Routes, a ring exchange plan or CAN filter tables that are refused are left out: those of a package have
passed check 12. -/
def State.planSet (s : State) (p : PlanSet) : State :=
  let out := [blkAcq, blkRing, blkCan].filter (fun b => (planBlocks p).contains b && s.setRefused p s.bank [] b)
  let p := { p with
    regs := p.regs.filter (fun e => !(out.contains (e.1 / 0x1000) && isRws e.1)), ring := if out.contains blkRing then none else p.ring }
  let s := s.setAll p.regs
  let s := match p.ring with | some q => { s with conf := { s.conf with ring := some q } } | none => s
  ((planBlocks p).foldl (fun s b => (s.genUp b).planHook b) s).tellPlans

end Sys2Proof.Machine
end

