-- ==== Sys2Proof/Machine/Package.lean ====
section
/-!
DEFINITION. The checks of a bank (R172, R457): its header, chains, admission (R96), reflex image, symbols; and what
carry-over does with each symbol (R174, R175, R178).
-/

namespace Sys2Proof.Machine

def State.hFlags (s : State) (b : Nat) : Nat := s.bw b 0x00C
def State.hKeySlot (s : State) (b : Nat) : Nat := s.bw b 0x01C

/-! Check 2: magic, format, reserved words, length, tables inside the bank. -/

def State.bankFormOk (s : State) (b loaded : Nat) : Bool :=
  let n := s.hBankLen b
  let inside (off len : Nat) : Bool := decide (off + len ≤ n)
  let hasRfx := s.hRfxImg b != 0
  s.bw b 0 == 0x4B4E4247 && s.bw b 4 == 1 && s.hFlags b < 2 && (s.mem.bytesAt (b + 0xA4) 0x1C).all (· == 0)
    && n == loaded && decide (0x100 ≤ n ∧ n ≤ 0x1000000)
    && inside (s.hChainTab b) (32 * s.bw b 0x044)
    && (s.chains b).all (fun c => inside (s.hOutTab b) (8 * c.chain + 8) && inside c.succOff (2 * c.nSucc) && inside c.predOff (2 * c.nPred))
    && inside (s.hSymTab b) (32 * s.hSymCnt b) && inside (s.hConvTab b) (16 * s.hConvCnt b)
    && inside (s.hInitOff b) (s.bw b 0x064) && inside (s.bw b 0x070) (s.bw b 0x074)
    && inside (s.hPatchTab b) (16 * s.hPatchCnt b) && inside (s.hXchTab b) (16 * s.hXchCnt b)
    && (!hasRfx || (inside (s.hRfxImg b) 0x440 && (s.hRfxCov b == 0 || inside (s.hRfxCov b) 144)))
    && (hasRfx || s.hRfxCov b == 0)

/-! Check 7: chains (R73, R74, R122), exchange table and symbol placement (R503). -/

/-- The output run of a chain of a bank. -/
def State.runOf (s : State) (b i : Nat) : Nat × Nat :=
  (s.bw b (s.hOutTab b + 8 * i), s.bw b (s.hOutTab b + 8 * i + 4))

def State.succsOf (s : State) (b : Nat) (d : ChainDesc) : List Nat := s.idxList b d.succOff d.nSucc
def State.predsOf (s : State) (b : Nat) (d : ChainDesc) : List Nat := s.idxList b d.predOff d.nPred

/-- The chains in an order in which every predecessor comes first, each with the length of its longest path; what is left
over lies on a cycle. -/
def State.topo (s : State) (b : Nat) : Nat → List ChainDesc → List (Nat × Nat) → List (Nat × Nat) × List ChainDesc
  | 0, rest, done => (done, rest)
  | k + 1, rest, done =>
    let ready := rest.filter (fun d => (s.predsOf b d).all (fun p => done.any (fun e => e.1 == p)))
    if ready = [] then (done, rest)
    else
      let path (d : ChainDesc) : Nat :=
        d.wcet + (s.predsOf b d).foldl (fun m p => max m (((done.find? (fun e => e.1 == p)).map (·.2)).getD 0)) 0
      State.topo s b k (rest.filter (fun d => !ready.contains d)) (done ++ ready.map (fun d => (d.chain, path d)))

/-- The bytes of the descriptor at position `j` whose values R73 names: `CLASS` and the reserved bytes. -/
def State.chainForm (s : State) (b j : Nat) : Bool :=
  let a := b + s.hChainTab b + 32 * j
  decide (s.mem.rd (a + 2) 1 ≤ 3) && s.mem.rd (a + 22) 2 == 0

/-- A chain descriptor in itself. -/
def State.chainOk (s : State) (b : Nat) (all : List ChainDesc) (d : ChainDesc) : Bool :=
  let r := s.runOf b d.chain
  let same (i : Nat) : Bool := all.any (fun e => e.chain == i && e.cls == d.cls)
  decide (d.chain < 16384 ∧ d.nPred ≤ 64 ∧ d.nSucc ≤ 1024 ∧ d.instLen ≤ 0x100000 ∧ d.instOff + d.instLen ≤ 0x2000000)
    && d.instOff % 256 == 0 && d.instLen % 256 == 0 && d.entry % 4 == 0 && decide (0x100 ≤ d.entry ∧ d.entry < 0x1000000)
    && r.1 % 8 == 0 && r.2 % 8 == 0 && decide (r.1 + r.2 ≤ 0x80000)
    && (s.succsOf b d).all same && (s.predsOf b d).all same
    && (s.succsOf b d).all (fun i => all.any (fun e => e.chain == i && (s.predsOf b e).contains d.chain))
    && (s.predsOf b d).all (fun i => all.any (fun e => e.chain == i && (s.succsOf b e).contains d.chain))

/-- Two different chains that may not share an index, an instance range, or in one class an output run. -/
def State.chainsClash (s : State) (b : Nat) (d e : ChainDesc) : Bool :=
  d.chain == e.chain || overlaps d.instOff d.instLen e.instOff e.instLen
    || (d.cls == e.cls && overlaps (s.runOf b d.chain).1 (s.runOf b d.chain).2 (s.runOf b e.chain).1 (s.runOf b e.chain).2)

/-- The part of an output run that lies in the scan-to-reflex mailbox (R503). -/
def mailboxPart (r : Nat × Nat) : Nat × Nat :=
  let lo := max r.1 0x7F040
  let hi := min (r.1 + r.2) 0x7F0E0
  (lo, hi - lo)

/-- Chains of two classes that write one point (R40): runs of E and F in the F window, or a part of the mailbox. -/
def State.classClash (s : State) (b : Nat) (d e : ChainDesc) : Bool :=
  let r := s.runOf b d.chain
  let t := s.runOf b e.chain
  d.cls != e.cls
    && ((d.cls.window == e.cls.window && overlaps r.1 r.2 t.1 t.2)
      || overlaps (mailboxPart r).1 (mailboxPart r).2 (mailboxPart t).1 (mailboxPart t).2)

/-- Class separation: the first chain of the table that breaks it with a chain before it. -/
def State.classFault (s : State) (b : Nat) : Option ChainDesc :=
  let rec go (before : List ChainDesc) : List ChainDesc → Option ChainDesc
    | [] => none
    | d :: r => if before.any (s.classClash b d) then some d else go (d :: before) r
  go [] (s.chains b)

/-- A symbol of kind 1 or 2 lies in the plan area of its half (R503). -/
def Sym.placed (y : Sym) : Bool :=
  match y.kind with
  | 1 => decide (y.off + y.size ≤ 0x7B000)
  | 2 => decide (y.off + y.size ≤ 0x7F000)
  | _ => true

/-- Check 7, beside the items that plans place; the argument is the chain, or the symbol, found wrong. -/
def State.chainCheck (s : State) (b : Nat) (others : List Item) : Option Nat :=
  let all := s.chains b
  let ee := s.hExcEntry b
  if s.bw b 0x044 > 16384 ∨ ee % 4 ≠ 0 ∨ (ee ≠ 0 ∧ ee < 0x100) then some 0
  else
    match ((List.range (s.hChainCnt b)).find? (fun j => !s.chainForm b j)).map (fun j => (s.chainAt b j).chain) with
    | some i => some i
    | none =>
    match all.find? (fun d => !s.chainOk b all d) with
    | some d => some d.chain
    | none =>
      match firstClash (s.chainsClash b) all with
      | some d => some d.chain
      | none =>
        match (s.topo b all.length all []).2 with
        | d :: _ => some d.chain
        | [] =>
          let low (y : Sym) : Nat := y.id.toNat % 2 ^ 32
          let input (y : Sym) : Item := { cls := y.cls, out := false, off := y.off, len := y.size }
          let inputs := (s.syms b).filter (fun y => y.kind == 1)
          if (s.xchs b).any (fun x => !x.ok) ∨ !placeable (s.xchItems b) others then some 0
          else
            (((s.syms b).find? (fun y => !y.placed)).orElse (fun _ =>
              firstClash (fun y z => (input y).clash (input z)) inputs)).map low

/-! Check 8: admission (R96). -/

structure Sums where
  w : Nat := 0
  l : Nat := 0
  deriving DecidableEq, Repr

/-- Sum and longest path of a class. -/
def State.sums (s : State) (b : Nat) (c : Cls) : Sums :=
  let all := s.chains b
  let t := (s.topo b all.length all []).1
  let mine := all.filter (fun d => d.cls == c)
  { w := mine.foldl (fun a d => a + d.wcet) 0
    l := mine.foldl (fun m d => max m (((t.find? (fun e => e.1 == d.chain)).map (·.2)).getD 0)) 0 }

/-- The left side of the F inequality up to publish, times 30, in ns (P_F): W_F, L_F, T_F. -/
def pF30 (wF lF tF : Nat) : Nat := 30 * 84000 + 3 * tF + wF + 30 * lF

/-- The whole left side of the F inequality, times 330, in ns (P_adm). -/
def pAdm330 (wF lF d tF : Nat) : Nat := 11 * pF30 wF lF tF + 330 * 20000 + 30 * d

/-- The admission of R96 for periods `tF` in ns, `mN`, `mS`; the class whose rule is broken, coded 0 E, 1 F, 2 N, 3 S. -/
def State.admission (s : State) (b : Nat) (tasks : List TaskDef) (tF mN mS : Nat) : Option Nat :=
  let f := s.sums b .f
  let n := s.sums b .n
  let z := s.sums b .s
  let d := s.bw b 0x03C
  let left : Int := 30 * (tF : Int) - (pF30 f.w f.l tF : Int)
  let wcet (i : Nat) : Nat := (((s.chains b).find? (fun c => c.chain == i)).map (·.wcet)).getD 0
  let shared := (firstClash (fun (x y : TaskDef) =>
    x.chains.any y.chains.contains || x.codes.any y.codes.contains) tasks).isSome
  if pAdm330 f.w f.l d tF > 330 * tF then some 1
  else if (s.chains b).any (fun c => c.cls == .s) && mS == 0 then some 3
  else if (max mS 1 * n.w + z.w : Int) > max mS 1 * mN * left then some 2
  else if (30 * n.l : Int) > mN * left then some 2
  else if (30 * z.l : Int) > max mS 1 * mN * left then some 3
  else if shared || tasks.any (fun t => decide (10 * t.chains.foldl (fun a i => a + wcet i) 0 > tF)) then some 0
  else none

/-- Whether the header's figures are the recomputed ones. -/
def State.sumsMatch (s : State) (b : Nat) : Bool :=
  let f := s.sums b .f
  let n := s.sums b .n
  let z := s.sums b .s
  s.bw b 0x080 == f.w && s.bw b 0x084 == f.l && s.bw b 0x088 == n.w && s.bw b 0x08C == n.l
    && s.bw b 0x090 == z.w && s.bw b 0x094 == z.l

/-! Carry-over (R174, R175). -/

/-- The conversion entry of a symbol: its code. -/
def State.convOf (s : State) (b : Nat) (id : W64) : Option Nat :=
  ((List.range (s.hConvCnt b)).find? (fun j => BitVec.ofNat 64 (s.mem.rd (b + s.hConvTab b + 16 * j) 8) == id)).map
    (fun j => s.mem.rd (b + s.hConvTab b + 16 * j + 8) 2)

/-- Table: Carry-over of one symbol. -/
inductive CarryKind where
  | init
  | copy (old : Sym)
  | conv (old : Sym) (code : Nat)
  deriving DecidableEq, Repr

/-- What a new symbol needs, from the active bank `a` to the bank `b`; none: refused. -/
def State.carryKind (s : State) (a b : Nat) (y : Sym) : Option CarryKind :=
  match s.sym a y.id with
  | none => some .init
  | some o =>
    if o.kind ≠ y.kind ∨ o.cls ≠ y.cls then none
    else if o.typeId = y.typeId then (if y.reinit then some .init else some (.copy o))
    else (s.convOf b y.id).map (.conv o)

def intSize (n : Nat) : Bool := n == 1 || n == 2 || n == 4 || n == 8
def fltSize (n : Nat) : Bool := n == 4 || n == 8

/-- Whether a conversion code fits the sizes of the old and the new symbol. -/
def convFits (code old new : Nat) : Bool :=
  match code with
  | 0 => true
  | 1 => intSize old && intSize new
  | 2 => intSize old && intSize new
  | 3 => intSize old && fltSize new
  | 4 => fltSize old && intSize new
  | 5 => fltSize old && fltSize new
  | 6 => new == 1
  | 7 => true
  | _ => false

def clampInt (lo hi v : Int) : Int := max lo (min hi v)
def sMin (n : Nat) : Int := -(2 ^ (8 * n - 1) : Nat)
def sMax (n : Nat) : Int := (2 ^ (8 * n - 1) : Nat) - 1

/-- The bytes an integer takes in `n` bytes, two's complement. -/
def intBytes (n : Nat) (v : Int) : List Byte := leBytes n (v % (2 ^ (8 * n) : Nat)).toNat

/-- Table: Conversion codes: the new bytes from the old ones, the `INIT` bytes and the new size. -/
def convert (code : Nat) (old init : List Byte) (n : Nat) : List Byte :=
  let x := leNat old
  let k := old.length
  let dbl (m : Nat) : Bool := m == 8
  match code with
  | 1 => intBytes n (clampInt (sMin n) (sMax n) (sextN (8 * k) x))
  | 2 => leBytes n (min x (2 ^ (8 * n) - 1))
  | 3 => leBytes n (intToF (ffmt (dbl n)) .nearestEven (sextN (8 * k) x)).1
  | 4 =>
    let v := (ffmt (dbl k)).unpack x
    if v.isNaN then leBytes n 0 else intBytes n (fToInt .nearestEven (sMin n) (sMax n) v).1
  | 5 =>
    let v := (ffmt (dbl k)).unpack x
    let r := (fConv (ffmt (dbl n)) .nearestEven v).1
    let ovr := match v with | .fin .. => true | _ => false
    if ovr && r % (ffmt (dbl n)).signBit == (ffmt (dbl n)).infBits false then leBytes n ((ffmt (dbl n)).maxFin v.sign) else leBytes n r
  | 6 => [if x = 0 then 0 else 1]
  | 7 => (old.take n) ++ (init.drop (min k n)).take (n - min k n)
  | _ => init

/-- New symbols that carry-over concerns: kinds 0 and 2. -/
def State.carrySyms (s : State) (b : Nat) : List Sym := (s.syms b).filter (fun y => y.kind == 0 || y.kind == 2)

/-- The fields of the entry at position `j` of the symbol table hold what R170 gives them [118]. -/
def State.symForm (s : State) (b j : Nat) : Bool :=
  let a := b + s.hSymTab b + 32 * j
  let y := s.symAt b j
  decide (y.kind ≤ 3) && decide (s.mem.rd (a + 21) 1 ≤ 3) && decide (y.flags < 32) && s.mem.rd (a + 28) 4 == 0
    && (y.kind != 0 || decide (y.off + y.size ≤ 0x2000000)) && (y.kind != 3 || decide (y.off + y.size ≤ s.hBankLen b))
    && ((y.kind != 0 && y.kind != 2) || decide (y.init + y.size ≤ s.bw b 0x064))

/-- Check 10: ascending `SYM_ID`, overlaps, the carry-over map; the argument is the `SYM_ID` found wrong. -/
def State.symTabCheck (s : State) (b : Nat) : Option Nat :=
  let ys := s.syms b
  let form := (List.range (s.hSymCnt b)).find? (fun j => !s.symForm b j)
  let asc := (ys.zip (ys.drop 1)).find? (fun e => decide (e.2.id.toNat ≤ e.1.id.toNat))
  let clash (y z : Sym) : Bool :=
    y.kind == z.kind && (y.kind == 0 || (y.kind == 2 && y.cls.window == z.cls.window)) && overlaps y.off y.size z.off z.size
  let low (y : Sym) : Nat := y.id.toNat % 2 ^ 32
  (form.map (fun j => low (s.symAt b j))).orElse (fun _ =>
    (asc.map (fun e => low e.2)).orElse (fun _ => (firstClash clash ys).map low))

/-- A conversion entry (R174, R175): an old symbol, and a code that fits the sizes of the old and the new one. -/
def State.convOk (s : State) (a b j : Nat) : Bool :=
  let e := b + s.hConvTab b + 16 * j
  let id : W64 := BitVec.ofNat 64 (s.mem.rd e 8)
  let code := s.mem.rd (e + 8) 2
  match s.sym a id with
  | none => false
  | some o => match s.sym b id with
    | some y => convFits code o.size y.size
    | none => decide (code ≤ 7)

def State.symCheck (s : State) (a b : Nat) : Option Nat :=
  let low (id : W64) : Nat := id.toNat % 2 ^ 32
  let moved (y : Sym) : Bool := (s.sym a y.id).any (fun o => o.kind != y.kind || o.cls != y.cls)
  let bare (y : Sym) : Bool := (s.carryKind a b y).isNone
  (s.symTabCheck b).orElse (fun _ =>
    (((s.syms b).find? moved).map (fun y => low y.id)).orElse (fun _ =>
      (((s.carrySyms b).find? bare).map (fun y => low y.id)).orElse (fun _ =>
        ((List.range (s.hConvCnt b)).find? (fun j => !s.convOk a b j)).map (fun j => s.mem.rd (b + s.hConvTab b + 16 * j) 4))))

/-- T_co times 8, in ns (R178): a symbol copied to its old place is no work. -/
def State.tco8 (s : State) (a b : Nat) : Nat :=
  if s.hPatched b then 40000
  else
    let work (y : Sym) : Option Nat :=
      match s.carryKind a b y with
      | some (.copy o) => if o.off = y.off then none else some o.size
      | some (.conv o code) => some (if code = 0 then 0 else if code = 7 then min o.size y.size else o.size)
      | _ => some 0
    (s.carrySyms b).foldl (fun t y => match work y with | some n => t + 400 + n + 3 * y.size | none => t) 40000

/-- T_F − P_act − 2 µs in ns, with P_act of the active bank; 0 where negative (R178). -/
def State.tcoLimit (s : State) : Nat :=
  let tF := s.fPeriod * 1000
  let p := pAdm330 (s.bw s.bank 0x080) (s.bw s.bank 0x084) (s.bw s.bank 0x03C) tF
  (330 * tF - p - 330 * 2000) / 330

/-! The package checks (R172). -/

/-- Check 9: reflex image (R158) and masks (R184). The rules do not say which binding plan and which directions the image is held
to; the model takes those that the package carries, and the active ones where it carries none [119]. -/
def State.rfxPkgOk (s : State) (b : Nat) (p : PlanSet) : Bool :=
  let t := s.setAll p.regs
  s.hRfxImg b == 0
    || ((s.mem.rfxFault (b + s.hRfxImg b) (t.actv R.rfxOutBind) (t.actv R.dioDir)).isNone
      && (s.hRfxCov b == 0 || (s.mem.rd (b + s.hRfxCov b + 62) 2 == 0 && s.mem.rd (b + s.hRfxCov b + 126) 2 == 0)))

/-- Checks 3 and 4: the key slot is enrolled, and the signature verifies. -/
def State.keyOf (s : State) (b : Nat) : Option (BitVec 256) :=
  if s.hKeySlot b < 4 then vget s.olc.keys (s.hKeySlot b) else none

def State.sigOk (s : State) (b : Nat) : Bool :=
  match s.keyOf b with
  | some k => ed25519 (beBytes 32 k.toNat) (beBytes 32 (s.bankSha b).toNat) (s.mem.bytesAt (b + 0xC0) 64)
  | none => false

/-- Checks 1 to 12 of Table: Package checks on the inactive bank: the code of the first that fails, and its argument; `plans`
are the plans that MC makes of the package's `PLANS` area, none where it makes none [8]. -/
def State.pkgCheck (s : State) (plans : Option PlanSet) : Option (Nat × Nat) :=
  let b := s.idle
  let a := s.bank
  let m := s.mod
  let patched := s.hPatched b
  let inState := m == .primary || m == .standby || m == .alone || m == .syncing || (patched && m == .service)
  let p := plans.getD {}
  let plansOk := plans.isSome && s.planSetOk b p
  let tco := s.tco8 a b
  if !inState then some (0x0C, 0)
  else if !s.bankFormOk b (s.rd R.olcLoaded).toNat then some (0x01, 0)
  else if patched then (if !plansOk then some (0x0B, 0) else none)
  else if (s.keyOf b).isNone then some (0x02, 0)
  else if !s.sigOk b then some (0x03, 0)
  else if BitVec.ofNat 128 (beNat (s.mem.bytesAt (b + 0x20) 16)) ≠ s.bankDigest a then some (0x04, 0)
  else if s.bw b 0x030 ≠ s.fPeriod ∨ s.bw b 0x034 ≠ s.nMult
      ∨ s.bw b 0x038 ≠ s.sMult then some (0x05, 0)
  else
    match (s.chainCheck b (s.planItems p)).orElse (fun _ => (s.classFault b).map (·.chain)) with
    | some x => some (0x06, x)
    | none =>
      if !s.sumsMatch b
          ∨ (s.admission b p.tasks (s.bw b 0x030 * 1000) (s.bw b 0x034) (s.bw b 0x038)).isSome then some (0x07, 0)
      else if !s.rfxPkgOk b p then some (0x08, 0)
      else
        match s.symCheck a b with
        | some x => some (0x09, x)
        | none =>
          if tco > 8 * s.tcoLimit ∨ tco > 8 * s.bw b 0x098 + 8000 ∨ 8 * s.bw b 0x098 > tco + 8000 then some (0x0A, 0)
          else if !plansOk then some (0x0B, 0)
          else none

/-- The bytes carry-over gives a new symbol; none: no work. -/
def State.carryBytes (s : State) (a b : Nat) (y : Sym) : Option (List Byte) :=
  let old (o : Sym) : List Byte := s.mem.bytesAt (s.symAddr a o) o.size
  match s.carryKind a b y with
  | some (.copy o) => if o.off = y.off then none else some (old o)
  | some (.conv o code) => some (convert code (old o) (s.symInit b y) y.size)
  | _ => some (s.symInit b y)

end Sys2Proof.Machine
end

