-- ==== Sys2Proof/Machine/Olc.lean ====
section
/-!
DEFINITION. On-line change (R167-R193): the package states, carry-over and switch, forces, value writes, constant patches;
and the watchdog-trip actions (R63), to which a carry-over fault leads.
-/

namespace Sys2Proof.Machine

/-! The watchdog trip (R63-R66). -/

/-- The safe values of scan-owned outputs as a scan command. -/
def State.safeCmd (s : State) : ScanCmd :=
  { dig := maskOf s.safeD, loops := Vector.ofFn (fun (i : Fin 8) => BitVec.ofNat 32 (s.safeL i.val)) }

/-- The module stops its scan and enters STOPPED (R63, R66): class 0 F, 1 N, 2 S; `partner`: on the partner's notice. -/
def State.scanTrip (s : State) (cls : Nat) (partner : Bool) : State :=
  let s := s.olcCut
  let s := s.haltScan
  let c := s.safeCmd
  let s := { s with
    scan := { s.scan with run := .tripped, pub := some c, evq := [], evqLost := 0, restartReq := none, service := none }
    pair := { s.pair with
      handover := none, handoverSent := false, handoverAcked := false } }
  let s := ((s.fset F.scanStatus_runstate 2).fset F.scanStatus_evqFull 0).wr R.scanEvqDepth 0
  let s := (((s.endSwitchCmds 0x0103).endServiceCmds 0x0103).fsetb F.pairStatus_handover false).wr R.scanTrip (BitVec.ofNat 32 (cls + 4 + bit partner * 8))
  let s := (s.wr R.scanTripCycle (s.rd R.scanCycleLo)).setStale true
  let s := (s.enter .stopped).canTrip.canPermit
  let s := if s.token then s.emit (.publish c.dig c.loops.toList) else s
  s.raise hapTrip cls [BitVec.ofNat 64 cls, s.rd64 R.scanCycleLo]

/-! Package states (R173). -/

def pkgEmpty : Nat := 0
def pkgLoading : Nat := 1
def pkgChecking : Nat := 2
def pkgChecked : Nat := 3
def pkgRefused : Nat := 4
def pkgArmed : Nat := 5
def pkgCarrying : Nat := 6

def State.pkgState (s : State) : Nat := s.fget F.olcStatus_pkgState
def State.setPkg (s : State) (n : Nat) : State := s.fset F.olcStatus_pkgState n

/-- A refusal or outcome code and its argument are shown and recorded (R193). -/
def State.olcCode (s : State) (code arg : Nat) : State :=
  ((s.wr R.olcRefuse (BitVec.ofNat 32 code)).wr R.olcRefuseArg (BitVec.ofNat 32 arg)).raise hapPkg 0
    [BitVec.ofNat 64 code, BitVec.ofNat 64 arg]

/-- The identifiers of the two banks. -/
def State.showBanks (s : State) : State :=
  let s := (s.wr64 R.olcActIdLo (s.hPkgId s.bank)).wr R.olcActVer (BitVec.ofNat 32 (s.hPkgVer s.bank))
  let s := s.fsetb F.olcStatus_patched (s.hPatched s.bank)
  if s.pkgState = pkgLoading then s
  else (s.wr64 R.olcPendIdLo (s.hPkgId s.idle)).wr R.olcPendVer (BitVec.ofNat 32 (s.hPkgVer s.idle))

/-- In a pair, an item goes to the partner; a STANDBY's acknowledgement is not waited for here (R171, R224). -/
def State.tellPartner (s : State) (o : Out) : State :=
  if s.mod = .primary ∧ (s.partner = .standby ∨ s.partner = .syncing) then s.send o else s

/-! Forces (R182, R183). -/

def hapForce : Hap := ⟨5, 2, 4, none, false⟩

/-- A force in conflict with the package in the inactive bank (R183). -/
def State.forceClash (s : State) (f : Force) : Bool :=
  match s.sym s.idle f.symId with
  | none => true
  | some y =>
    let kind := (s.sym s.bank f.symId).elim 0 (·.kind)
    y.typeId != f.typeId || y.kind != kind || !y.forceable

/-- Forces and conflicts are counted. -/
def State.countForces (s : State) : State :=
  let s := s.wr R.olcForces (BitVec.ofNat 32 s.olc.forces.length)
  let n := if s.pkgState < pkgChecked then 0 else (s.olc.forces.filter s.forceClash).length
  (s.wr R.olcConflicts (BitVec.ofNat 32 n)).fsetb F.olcStatus_forceConflict (n != 0)

/-- Whether a force fits its symbol: kind 1 or 2, forceable, of the type named, at most 8 bytes. -/
def State.forceable (s : State) (id : W64) (typeId : Nat) : Option Sym :=
  (s.sym s.bank id).filter (fun y =>
    (y.kind == 1 || y.kind == 2) && y.forceable && y.typeId == typeId && decide (y.size ≤ 8))

/-- FORCE_SET (R182, R183): the status (R337). -/
def State.forceSet (s : State) (id : W64) (typeId : Nat) (v : W64) : State × Nat :=
  match s.forceable id typeId with
  | none => (s, 0x0105)
  | some y =>
    let f : Force := { symId := id, typeId := typeId, value := leBytes y.size v.toNat }
    let others := s.olc.forces.filter (fun g => g.symId ≠ id)
    if (s.pkgState = pkgArmed ∨ s.pkgState = pkgCarrying) ∧ s.forceClash f then (s, 0x0103)
    else if others.length ≥ 1024 then (s, 0x0104)
    else ({ s with olc := { s.olc with forces := others ++ [f] } }.countForces, 0)

/-- FORCE_RELEASE: one force, or every force for the identifier of all ones. -/
def State.forceRelease (s : State) (id : W64) : State × Nat :=
  if id = BitVec.allOnes 64 then ({ s with olc := { s.olc with forces := [] } }.countForces, 0)
  else if s.olc.forces.any (fun f => f.symId == id) then
    ({ s with olc := { s.olc with forces := s.olc.forces.filter (fun f => f.symId ≠ id) } }.countForces, 0)
  else (s, if (s.sym s.bank id).isSome then 0 else 0x0105)

/-- FORCE_CONFLICT_RELEASE: at the switch boundary each conflicting force is released and recorded (R183); called while the
new bank is still inactive. -/
def State.releaseClashes (s : State) : State :=
  let bad := s.olc.forces.filter s.forceClash
  let s := bad.foldl (fun s f => s.raise hapForce 0 [f.symId, BitVec.ofNat 64 (leNat f.value)]) s
  { s with olc := { s.olc with forces := s.olc.forces.filter (fun f => !bad.contains f) } }

/-- The forced inputs of a class put into its frozen half. -/
def State.forceInputs (s : State) (c : Cls) : State :=
  s.olc.forces.foldl (fun s f =>
    match s.sym s.bank f.symId with
    | some y => if y.kind = 1 ∧ y.cls.window = c then
        (s.wrMem (s.winBase c + y.off) f.value).markDirty (s.winBase c + y.off) f.value.length
      else s
    | none => s) s

/-- The forced outputs of a class put into the committed copy of its output half. -/
def State.forceOutputs (s : State) (c : Cls) : State :=
  s.olc.forces.foldl (fun s f =>
    match s.sym s.bank f.symId with
    | some y =>
      if y.kind = 2 ∧ y.cls.window = c then
        let m := (f.value.zipIdx).foldl (fun m e => sset (fun _ => 0) m (s.outBase c + y.off + e.2) e.1) s.mem.committed
        { s with mem := { s.mem with committed := m } }
      else s
    | none => s) s

/-! Value writes (R187). -/

def hapVw : Hap := ⟨5, 3, 4, none, false⟩

def State.vwRefuse (s : State) (id : W64) : State := (s.bump R.olcVwRefused).raise hapVw 0 [id]

def State.vwShow (s : State) : State := s.fsetb F.olcStatus_vwPend (!s.olc.vwq.isEmpty)

/-- The symbol a value write names, as the active bank has it. -/
def State.vwSym (s : State) (w : ValueWrite) : Option Sym :=
  (s.sym s.bank w.symId).filter (fun y => y.kind == 0 && y.writable && y.typeId == w.typeId)

def vwFits (y : Sym) (off size : Nat) : Bool :=
  (size == 1 || size == 2 || size == 4 || size == 8) && off % size == 0 && decide (off + size ≤ y.size)

/-- VALUE_WRITE: queued, or refused, counted and recorded; the status. -/
def State.vwQueue (s : State) (id : W64) (typeId off size : Nat) (v : W64) : State × Nat :=
  let w : ValueWrite := { symId := id, typeId := typeId, off := off, value := leBytes size v.toNat }
  if s.aget F.olcCfg_vwEn = 0 then (s.vwRefuse id, 0x0103)
  else
    match s.vwSym w with
    | none => (s.vwRefuse id, 0x0105)
    | some y =>
      if !vwFits y off size then (s.vwRefuse id, 0x0101)
      else if s.olc.vwq.length ≥ 256 then (s.vwRefuse id, 0x0104)
      else ({ s with olc := { s.olc with vwq := s.olc.vwq ++ [w] } }.vwShow, 0)

/-- Whether a period of a class is released and incomplete. -/
def State.clsOpen (s : State) (c : Cls) : Bool :=
  match clsSlot c with
  | some k => (s.clsRun k).released && !(s.clsRun k).complete
  | none => (s.clsRun 0).released && !(s.clsRun 0).complete

/-- The writes of the queue in order of arrival, made by MC: at most `n` apply, those of an open class stay, those whose symbol no
longer fits, or that the CAT refuses, are refused. -/
def State.vwRun : Nat → List ValueWrite → State → State × List ValueWrite
  | _, [], s => (s, [])
  | n, w :: r, s =>
    match s.vwSym w with
    | none => State.vwRun n r (s.vwRefuse w.symId)
    | some y =>
      if !vwFits y w.off w.value.length then State.vwRun n r (s.vwRefuse w.symId)
      else if n = 0 ∨ s.clsOpen y.cls then
        let x := State.vwRun n r s
        (x.1, w :: x.2)
      else
        let a := s.symAddr s.bank y + w.off
        let g := s.mcAccess .write a w.value.length
        if !g.2 then State.vwRun n r (g.1.vwRefuse w.symId)
        else State.vwRun (n - 1) r (((g.1.wrMem a w.value).markDirty a w.value.length).bump R.olcVwDone)

/-- VALUE_WRITE_APPLY (R187), at an F boundary of the module that runs the scan. -/
def State.vwApply (s : State) : State :=
  let x := State.vwRun 64 s.olc.vwq { s with olc := { s.olc with vwq := [] } }
  { x.1 with olc := { x.1.olc with vwq := x.2 } }.vwShow

/-- On a STANDBY, writes that the copy has carried leave its queue: their bytes are in its image. -/
def State.vwSettle (s : State) : State :=
  let live (w : ValueWrite) : Bool :=
    match s.vwSym w with
    | some y => s.mem.bytesAt (s.symAddr s.bank y + w.off) w.value.length != w.value
    | none => false
  { s with olc := { s.olc with vwq := s.olc.vwq.filter live } }.vwShow

/-! Loading and checking (R171-R173). -/

/-- A block of a package written to the inactive bank by a class with a master number; the status (R171, R378). Blocks follow one
another from offset 0. -/
def State.pkgLoad (s : State) (cls : Nat) (off : Nat) (data : List Byte) : State × Nat :=
  let loaded := (s.rd R.olcLoaded).toNat
  let start := s.pkgState == pkgEmpty
  let want := if start then 0 else loaded
  if !start ∧ s.pkgState ≠ pkgLoading then (s, 0x0103)
  else if off ≠ want ∨ off + data.length > 0x1000000 then (s, 0x0101)
  else
    let g := if cls = clsMc then s.mcAccess .write (s.idle + off) data.length
      else s.spanAccess cls .write (s.idle + off) data.length
    if !g.2 then (g.1, 0x0103) else
    let s := (g.1.setPkg pkgLoading).wrMem (s.idle + off) data
    let n := off + data.length
    let s := s.wr R.olcLoaded (BitVec.ofNat 32 n)
    let done := decide (s.hBankLen s.idle ≤ n)
    (if done then { s.setPkg pkgChecking with olc := { s.olc with partnerPkg := none } } else s, 0)

/-- Check 13 (R172, R173), made in CHECKED: the partner's report decides `PAIR_READY` or the refusal 0x0D. -/
def State.pairCheck (s : State) : State :=
  if s.pkgState ≠ pkgChecked then s
  else
    match s.olc.partnerPkg with
    | none => s.fsetb F.olcStatus_pairReady false
    | some (d, ok) =>
      if ok && d == s.bankDigest s.idle then s.fsetb F.olcStatus_pairReady true
      else (((s.setPkg pkgRefused).fset F.rfxStatus_exchPend 0).fsetb F.olcStatus_pairReady false).olcCode 0x0D 0

/-- The reflex image of the package is copied into the inactive program slot of every engine (R172). -/
def State.rfxPrepare (s : State) : State :=
  if s.hRfxImg s.idle = 0 then s
  else (s.rfxLoad s.idle (1 - s.fget F.rfxProgInfo_slot)).fset F.rfxStatus_exchPend 1

/-- Whether the module stands in a pair. -/
def State.inPair (s : State) : Bool := s.mod == .primary || s.mod == .standby || s.mod == .syncing

/-- The package checks on the inactive bank (R172): CHECKED or REFUSED, shown, and in a pair reported to the partner. -/
def State.checkPackage (s : State) (plans : Option PlanSet) : State :=
  let b := s.idle
  let s1 := (s.wr R.olcTco (BitVec.ofNat 32 ((s.tco8 s.bank b + 7) / 8))).wr R.olcTcoLimit (BitVec.ofNat 32 s.tcoLimit)
  let tell (s : State) (ok : Bool) : State := if s.inPair then s.send (.pkgReport (s.bankDigest s.idle) ok) else s
  let t :=
    match s.pkgCheck plans with
    | some (code, arg) => tell (((s1.setPkg pkgRefused).fsetb F.olcStatus_pairReady false).olcCode code arg) false
    | none =>
      let t := { s1.setPkg pkgChecked with olc := { s1.olc with plans := plans.getD {} } }
      (tell t.rfxPrepare true).pairCheck
  t.showBanks.countForces

/-- `PACKAGE_CHECK_DONE` (R172): the package checks finish. `plans` is what MC makes of the package's plans, none where one
fails the checks of its block (check 12) [8]. -/
def execPackageCheckDone (plans : Option PlanSet) (s : State) : Res :=
  s.when (s.pkgState == pkgChecking) (s.checkPackage plans)

/-- `PKG_CHECK_REPORT_RX` (R173): the partner's bank digest and check result arrive. -/
def execPkgCheckReportRx (id : Nat) (digest : BitVec 128) (ok : Bool) (s : State) : Res :=
  s.onceOnly id { s with olc := { s.olc with partnerPkg := some (digest, ok) } }.pairCheck

/-- `PKG_BLOCK_RX` (R171): the Drawbar receive engine writes a forwarded block into the inactive bank of a STANDBY or
SYNCING module. -/
def execPkgBlockRx (id off : Nat) (data : List Byte) (s : State) : Res :=
  if s.mod = .standby ∨ s.mod = .syncing then s.onceOnly id (s.pkgLoad clsDrawbar off data).1 else .next s

/-! Switch requests (R173, R188, R191). -/

/-- `DISCARD`: a CHECKED or REFUSED package is emptied; none: not allowed. -/
def State.pkgDiscard (s : State) : Option State :=
  if s.pkgState = pkgChecked ∨ s.pkgState = pkgRefused then
    some { ((s.setPkg pkgEmpty).fsetb F.olcStatus_pairReady false).fset F.rfxStatus_exchPend 0 with
      olc := { s.olc with partnerPkg := none } }.countForces
  else none

/-- The banks are exchanged (R179): instruction halves invalidated, forces remapped, the new bank stored in flash; what audits and
kept memory hold of executions under the old program is dropped. -/
def State.flipBanks (s : State) : State :=
  let s := (s.releaseClashes.stopAudit).fset F.rfxStatus_exchPend 0
  let s := (s.fsetb F.olcStatus_activeBank (!s.bankB)).dropLines
  let s := (((s.setPkg pkgEmpty).fsetb F.olcStatus_pairReady false).bump R.olcSwitches)
  let base := s.bank
  let image := (s.mem.bytes.filter (fun (e : Nat × Byte) => base ≤ e.1 && e.1 < base + 0x1000000)).map (fun e => (e.1 - base, e.2))
  let p := s.olc.plans
  let f := s.olc.flash
  let regs := f.plans.regs.filter (fun e => !p.regs.any (fun g => g.1 == e.1)) ++ p.regs
  let flash := { f with bank := image, plans := { p with regs := regs, ring := p.ring.orElse (fun _ => f.plans.ring) } }
  { s with
    olc := { s.olc with carry := none, partnerPkg := none, flash := flash }
    conf := { s.conf with tasks := p.tasks, scanOut := p.scanOut } }.showBanks.countForces

/-- A switch request (R173): ARMED, or in SERVICE without a running scan the exchange of a patched bank at once (R188);
none: not allowed. -/
def State.pkgSwitch (s : State) (relAck : Bool) : Option State :=
  let clash := s.rd R.olcConflicts ≠ 0
  let runs := s.scan.run == .running
  let m := s.mod
  let patched := s.hPatched s.idle
  if s.pkgState ≠ pkgChecked ∨ (clash ∧ !relAck) then none
  else if (m == .primary || m == .alone || (m == .service && patched)) && runs then
    some (s.setPkg pkgArmed)
  else if m == .service && patched then some (s.flipBanks.planSet s.olc.plans)
  else none

/-- `CANCEL`: an ARMED package returns to CHECKED with code 0x24; none: not allowed. -/
def State.pkgCancel (s : State) : Option State := if s.pkgState = pkgArmed then some s.olcCancel else none

/-- The opcodes with which the three commands reach the partner (R336). -/
def opSwitch : Nat := 0x0A
def opCancel : Nat := 0x0B
def opDiscard : Nat := 0x0C

/-- A write of `OLC_CMD` (R191). -/
def State.olcCmd (s : State) (cmd : Nat) (relAck : Bool) (key : Nat) : State :=
  let act : Option State :=
    if key ≠ 0x0C4A then none
    else match cmd with
      | 1 => s.pkgDiscard.map (·.tellPartner (.item opDiscard [] []))
      | 2 => if s.mod = .standby then none
             else (s.pkgSwitch relAck).map (·.tellPartner (.item opSwitch [BitVec.ofNat 64 (bit relAck)] []))
      | 3 => s.pkgCancel.map (·.tellPartner (.item opCancel [] []))
      | _ => none
  act.getD (s.ignoredIn blkOlc)

/-- `OLC_DISCARD` (R191). -/
def execOlcDiscard (m : Master) (key : BitVec 16) (s : State) : Res :=
  s.asWrite m R.olcCmd (fun s => s.olcCmd 1 false key.toNat)
/-- `OLC_SWITCH_REQUEST` (R173). -/
def execOlcSwitchRequest (m : Master) (relAck : Bool) (key : BitVec 16) (s : State) : Res :=
  s.asWrite m R.olcCmd (fun s => s.olcCmd 2 relAck key.toNat)
/-- `OLC_CANCEL` (R173). -/
def execOlcCancel (m : Master) (key : BitVec 16) (s : State) : Res :=
  s.asWrite m R.olcCmd (fun s => s.olcCmd 3 false key.toNat)

/-- `SWITCH_WAIT_EXPIRY` (R173): no switch boundary within `WAIT_S`. -/
def execSwitchWaitExpiry (s : State) : Res :=
  s.when (s.pkgState == pkgArmed) ((s.setPkg pkgChecked).olcCode 0x22 0)

/-! GO, carry-over and the switch boundary (R176-R179, R186). -/

/-- Whether F-cycle number `n` begins an N period, and an S period where S is used (R38). -/
def State.nBoundary (s : State) (n : W64) : Bool :=
  (n - s.scan.nsOrigin).toNat % max 1 s.nMult == 0
def State.sBoundary (s : State) (n : W64) : Bool :=
  s.sMult != 0 &&
    (n - s.scan.nsOrigin).toNat % (max 1 s.nMult * s.sMult) == 0

/-- GO_DECISION (R176): whether the next boundary is to be the switch boundary. -/
def State.goDecision (s : State) : Bool :=
  let next := s.rd64 R.scanCycleLo + 1
  let tF := s.fPeriod * 1000
  let at_ := s.scan.bound.toNat + tF
  let tco := if s.hPatched s.idle then 5000 else s.bw s.idle 0x098
  s.pkgState == pkgArmed && !s.fbit F.sysStatus_mcFailed
    && (s.mod == .alone || s.mod == .service || (s.mod == .primary && s.fbit F.olcStatus_pairReady && s.partner == .standby))
    && s.nBoundary next && (s.sMult == 0 || s.sBoundary next)
    && [1, 2].all (fun k => !(s.clsRun k).running && (s.clsRun k).doneIn.isEmpty)
    && s.brm.yielded.isEmpty && s.brm.restarts.isEmpty
    && decide (s.scanTime.toNat + tco + 2000 ≤ at_)

/-- The new symbols that carry-over writes, with their addresses and bytes, in ascending `SYM_ID`. -/
def State.carryWrites (s : State) : List (Nat × List Byte) :=
  if s.hPatched s.idle then []
  else (s.carrySyms s.idle).filterMap (fun y => (s.carryBytes s.bank s.idle y).map (fun v => (s.symAddr s.idle y, v)))

/-- The old source and the new destination of each symbol that carry-over concerns, in ascending `SYM_ID`. -/
def State.carrySpans (s : State) : List (Nat × Nat) × List (Nat × Nat) :=
  let ys := if s.hPatched s.idle then [] else (s.carrySyms s.idle).map (fun y => (y, s.carryKind s.bank s.idle y))
  let work := ys.filter (fun e => match e.2 with | some (.copy o) => o.off != e.1.off | _ => true)
  (work.filterMap (fun e => match e.2 with
    | some (.copy o) => some (s.symAddr s.bank o, o.size)
    | some (.conv o _) => some (s.symAddr s.bank o, o.size)
    | _ => none),
   work.map (fun e => (s.symAddr s.idle e.1, e.1.size)))

/-- CARRY_OVER_START (R177): stage 1 copies every old source and every new destination into the carry-over area of DRAM, the
sources first [123]. An access that the CAT refuses ends it (R378). -/
def State.carryStart (s : State) : State :=
  let w := s.carrySpans
  let bytes := (w.1 ++ w.2).flatMap (fun e => s.mem.bytesAt e.1 e.2)
  let area := 0x1000000000 + s.conf.carryArea
  let g := s.mcSpans .read (w.1 ++ w.2)
  let g := if g.2 then g.1.mcAccess .write area bytes.length else g
  let c : Carry := { saved := w.2.map (fun e => (e.1, s.mem.bytesAt e.1 e.2)), writes := s.carryWrites, stuck := !g.2 }
  let t := if g.2 then { g.1 with mem := g.1.mem.fill area bytes } else g.1
  { t.setPkg pkgCarrying with olc := { t.olc with carry := some c } }

/-- The first uncorrectable word that stages 1 and 2 meet: in an old source or a destination. -/
def State.carryBad (s : State) : Option Nat :=
  ((s.carrySpans.1 ++ s.carrySpans.2).find? (fun e => s.mem.badSpan e.1 e.2)).map (·.1)

def hapCarryFault : Hap := ⟨5, 5, 4, none, false⟩

/-- CARRY_OVER_UE during undo (R186): a PRIMARY's or STANDBY's score is forced to 0; an ALONE module, or one in SERVICE, takes
the watchdog-trip actions and stops. -/
def State.carryFault (s : State) (a : Nat) : State :=
  let s := (s.eccUe a false).raise hapCarryFault 0 [BitVec.ofNat 64 a]
  if s.mod = .alone ∨ s.mod = .service then s.scanTrip 0 false else s.forceZero causeCarryFault

/-- Undo (R186): every destination gets its saved bytes back; the state and code as the case gives. `undoUe` is the address of
an uncorrectable word met during undo. -/
def State.carryUndo (s : State) (c : Carry) (state code : Nat) (undoUe : Option Nat) : State :=
  let s := { s with
    mem := c.saved.foldl (fun (m : Mem) (e : Nat × List Byte) => m.putBytes e.1 e.2) s.mem
    olc := { s.olc with carry := none, outcome := some (code, 0) } }
  let s := ((s.setPkg state).olcCode code 0).bump R.olcFallbacks
  match undoUe with
  | some a => s.carryFault a
  | none => s

/-- `CARRY_OVER_COMPLETE` (R177): the three stages end, every destination written and the CRC ready; an uncorrectable error
in stage 1 or 2 undoes it (code 0x20). -/
def execCarryOverComplete (undoUe : Option Nat) (s : State) : Res :=
  match s.olc.carry with
  | none => .next s
  | some c =>
    let t :=
      match s.carryBad with
      | some a => (s.eccUe a false).carryUndo c pkgChecked 0x20 undoUe
      | none =>
        let g := s.mcSpans .write (c.writes.map (fun e => (e.1, e.2.length)))
        if !g.2 then { g.1 with olc := { g.1.olc with carry := some { c with stuck := true } } }
        else
          let crc := c.writes.foldl (fun g e => sigBytes g e.2) (BitVec.allOnes 64)
          { g.1 with
            mem := c.writes.foldl (fun (m : Mem) (e : Nat × List Byte) => m.write e.1 e.2) s.mem
            olc := { g.1.olc with carry := some { c with done := true, crc := crc } } }
    s.when (!c.done && !c.stuck && s.pkgState == pkgCarrying) t

/-- `CARRY_OVER_DEADLINE` (R173): carry-over is not complete 2 µs before the boundary: undone, ARMED again (code 0x21). -/
def execCarryOverDeadline (undoUe : Option Nat) (s : State) : Res :=
  match s.olc.carry with
  | none => .next s
  | some c => s.when (!c.done && s.pkgState == pkgCarrying) (s.carryUndo c pkgArmed 0x21 undoUe)

/-- BANK_SWITCH (R179): at the switch boundary with a complete carry-over the inactive bank becomes active, then the reflex
exchange and the plans in the order of R17. `n` is the number of the cycle that begins. -/
def State.bankSwitch (s : State) (n : W64) : State :=
  match s.olc.carry with
  | none => s
  | some c =>
    if !c.done then s.carryUndo c pkgArmed 0x21 none
    else
      let plans := s.olc.plans
      let s := s.flipBanks.rfxExchange
      let s := s.planSet plans
      let s := { s with olc := { s.olc with outcome := some (0, c.crc) } }
      s.wr64 R.olcSwCycleLo n

/-! Constant patches (R188). -/

/-- Whether the inactive bank holds a patched bank, to which a patch may be added. -/
def State.holdsPatched (s : State) : Bool := decide (pkgChecking ≤ s.pkgState) && s.hPatched s.idle

/-- A word of the inactive bank's header. -/
def State.setIdle (s : State) (off v : Nat) : State := s.wrLe (s.idle + off) 4 v

/-- CONST_PATCH: the patch written into the inactive bank, a copy of the active bank, and listed in `PATCH_TAB`; the status. A
patch to a bank that is ARMED or CARRYING takes its switch back: the bank is to be checked anew [124]. -/
def State.constPatch (s : State) (id : W64) (off size : Nat) (v : W64) : State × Nat :=
  if s.pkgState ≠ pkgEmpty ∧ !s.holdsPatched then (s, 0x0103)
  else
    match (s.sym s.bank id).filter (fun y => y.kind == 3 && y.patchable) with
    | none => (s, 0x0105)
    | some y =>
      let fresh := s.pkgState == pkgEmpty
      let s1 := if fresh then { s with mem := s.mem.copySpan s.bank s.idle ((s.hBankLen s.bank + 7) / 8 * 8) } else s
      let b := s1.idle
      let cnt := s1.hPatchCnt b
      let tab := if cnt = 0 then (s1.hBankLen b + 7) / 8 * 8 else s1.hPatchTab b
      let n := tab + 16 * (cnt + 1)
      if off + size > y.size then (s, 0x0101)
      else if cnt ≥ 256 ∨ n > 0x1000000 then (s, 0x0104)
      else
        let g := if fresh then s.mcAccess .read s.bank (s.hBankLen s.bank) else (s, true)
        let g := if g.2 then g.1.mcAccess .write b n else g
        if !g.2 then (g.1, 0x0103) else
        let s1 := { g.1 with mem := s1.mem }
        let s1 := s1.wrMem (b + y.off + off) (leBytes size v.toNat)
        let s1 := s1.wrMem (b + tab + 16 * cnt) (leBytes 4 (y.off + off) ++ leBytes 4 size ++ leBytes 8 v.toNat)
        let s1 := (((s1.setIdle 0x078 tab).setIdle 0x07C (cnt + 1)).setIdle 0x008 n).setIdle 0x00C 1
        let s1 := { s1.setPkg pkgChecking with olc := { s1.olc with partnerPkg := none, carry := none } }
        ((s1.wr R.olcLoaded (BitVec.ofNat 32 n)).fsetb F.olcStatus_pairReady false, 0)

end Sys2Proof.Machine
end

