-- ==== Sys2Proof/Machine/Freeze.lean ====
section
/-!
DEFINITION. The input freeze (R43, R44, R503), the error phase (R52-R56, R504) and the release of periods.
-/

namespace Sys2Proof.Machine

/-! The frozen half. -/

/-- `DO_FAULT`: output channels latched off or in readback fault (R230). -/
def State.doFault (s : State) : W32 :=
  maskOf (fun n => s.isOut n && ((s.dch (s.lead n)).latched || s.rbFaultOf (s.lead n)))

/-- `FS_STATE` (R230). -/
def State.fsState (s : State) : Nat := bit s.island.warn + bit s.island.off * 2 + bit s.island.recovering * 4

/-- 32 bits of a mailbox word list, 4 bytes each. -/
def mailboxBytes (m : Mailbox) : List Byte :=
  leBytes 32 m.bits.toNat ++ m.words.toList.flatMap (fun w => leBytes 4 w.toNat)

/-- The fixed items of the frozen half of a class, from offset 0x7F000 (Table: Fixed items of the frozen half). -/
def State.fixedItems (s : State) (cycle : W64) (first late : Bool) : List Byte :=
  leBytes 8 s.scanTime.toNat ++ leBytes 8 s.time.tb0s.toNat ++ leBytes 4 s.time.tb0n ++ leBytes 4 (s.rd R.timeUtc).toNat
    ++ leBytes 8 cycle.toNat ++ leBytes 4 (bit first + bit late * 2) ++ leBytes 4 0 ++ leBytes 24 0
    ++ mailboxBytes s.rfx.r2s ++ leBytes 32 0
    ++ leBytes 4 s.diState.toNat ++ leBytes 4 s.diValid.toNat ++ leBytes 4 (s.rd R.dioOutRb).toNat
    ++ leBytes 4 s.doFault.toNat ++ leBytes 4 s.fsState ++ leBytes 12 0
    ++ (List.range 8).flatMap (fun n => leBytes 4 (s.rd (R.aoChnReadback n)).toNat)
    ++ (List.range 8).flatMap (fun n => leBytes 4 (s.rd (R.aoChnStatus n)).toNat)

/-- The exchange copies of a class: place and bytes, from the committed copies of the source classes (R503). -/
def State.xchFrozen (s : State) (c : Cls) : List (Nat × List Byte) :=
  ((s.xchs s.bank).filter (fun x => x.dstCls == c.num)).map (fun x =>
    (x.dst, (List.range x.len).map (fun k => sget (fun _ => 0) s.mem.committed (s.outBase (Cls.ofCode x.srcCls) + x.src + k))))

/-- Bytes written into the frozen half of a class, their blocks marked dirty. -/
def State.putFrozen (s : State) (c : Cls) (off : Nat) (bs : List Byte) : State :=
  (s.wrMem (s.winBase c + off) bs).markDirty (s.winBase c + off) bs.length

/-- INPUT_FREEZE (R43) of class slot `k` (0 F, 1 N, 2 S): the image takes its values at this instant; `n` is the F-cycle. -/
def State.freezeCls (s : State) (k : Nat) (n : W64) : State :=
  let c := s.clsRun k
  let num := if k = 0 then n else c.cycle + 1
  let cls := Cls.ofCode (k + 1)
  let items := s.ringFrozen cls ++ s.peerFrozen cls ++ s.canFrozen cls ++ s.xchFrozen cls
    ++ [(0x7F000, s.fixedItems num c.firstScan c.lateFlag)]
  let s1 := (items.foldl (fun (s : State) (e : Nat × List Byte) => s.putFrozen cls e.1 e.2) s).forceInputs cls
  (s1.canTaken cls).modCls k (fun c => { c with
    cycle := num, running := true, frozen := true, released := false, complete := false, late := false
    lateFlag := false, firstScan := false, due := false, freezeTime := s.scanTime })

/-- Whether a period of a class is open: its chains are not all complete. -/
def State.periodOpen (s : State) (k : Nat) : Bool := (s.clsRun k).running && !(s.clsRun k).complete

/-- The freeze of an N or S image: at its boundary, or later once the previous period is complete (R50, R61). -/
def State.freezeDue (s : State) (k : Nat) (boundary : Bool) (n : W64) : State :=
  if !boundary && !(s.clsRun k).due then s
  else if s.periodOpen k then s.modCls k (fun c => { c with due := true })
  else s.freezeCls k n

/-- NS_YIELD (R49, R393): at an F boundary, drupelets that run an N or S chain or an audit replica yield at their next window
end. -/
def State.nsYield (s : State) : State :=
  { s with brm := { s.brm with be := s.brm.be.map (fun (d : Drupelet) =>
      match d.win with
      | some w => if w.audit ∨ (w.rep.isNone ∧ (w.oc.desc.cls = .n ∨ w.oc.desc.cls = .s)) then { d with yieldReq := true } else d
      | none => d) } }

/-- TB2 counts from the scan time at the freeze of F-cycle 0 (R357), and `TIME_STATUS.TB2_RUN` shows that it does. -/
def State.tb2Start (s : State) (t : Option W64) : State :=
  { s.fsetb F.timeStatus_tb2Run t.isSome with time := { s.time with tb2From := t } }

/-- Step 2 of an F-cycle (R41, R43): the images of F, and of N and S where due; events raised before this instant are
offered to this cycle (R53). -/
def State.freezeStep (s : State) (n : W64) (nDue sDue : Bool) : State :=
  let s := if s.time.tb2From = none ∨ n = 0 then s.tb2Start (some s.scanTime) else s
  let s := ((s.freezeCls 0 n).freezeDue 1 nDue n).freezeDue 2 sDue n
  { s with scan := { s.scan with step := .freeze, evSnap := s.scan.evq.length } }

/-! The error phase (R54, R504). -/

/-- A descriptor of 64 bytes (R504). -/
def errBytes (e : ErrEntry) : List Byte :=
  leBytes 2 e.code ++ leBytes 2 0 ++ leBytes 4 e.source.toNat ++ leBytes 4 e.count ++ leBytes 4 0
    ++ leBytes 8 e.first.toNat ++ leBytes 8 e.last.toNat
    ++ ((e.params ++ List.replicate 4 0).take 4).flatMap (fun (p : W64) => leBytes 8 p.toNat)

/-- The worst-case time of an error task: the sum of the `WCET` of its chains, in ns (R54). -/
def State.taskTime (s : State) (t : TaskDef) : Nat :=
  t.chains.foldl (fun a i => a + ((s.chain i).elim 0 (·.wcet))) 0

/-- A placement under way: when each drupelet is free, when the previous execution of each task ends, what is placed. -/
structure Placing where
  free : List (Nat × Nat)
  last : List (Nat × Nat) := []
  placed : List (ErrEntry × ETask) := []
  deriving DecidableEq, Repr, Inhabited

/-- The drupelet that is free first, ties to the lowest number [117]. -/
def Placing.best (p : Placing) : Option (Nat × Nat) :=
  p.free.foldl (fun b x => match b with
    | none => some x
    | some y => if x.2 < y.2 then some x else b) none

/-- Entries from the head of the queue, each task placed as a unit on one drupelet, until one would not finish within the
budget (R54). -/
def State.place (s : State) (budget : Nat) : List ErrEntry → Placing → Placing × List ErrEntry
  | [], p => (p, [])
  | e :: r, p =>
    match s.conf.tasks.findIdx? (fun t => t.codes.contains e.code), p.best with
    | some i, some (be, free) =>
      let t := s.conf.tasks.getD i {}
      let after := ((p.last.find? (fun x => x.1 == i)).map (·.2)).getD 0
      let finish := max free after + s.taskTime t
      if finish > budget then (p, e :: r)
      else
        let x : ETask := { task := i, chains := sortNat t.chains, slot := 0x7B000 + 64 * p.placed.length, be := be }
        s.place budget r {
          free := p.free.map (fun f => if f.1 = be then (be, finish) else f)
          last := (i, finish) :: p.last.filter (fun y => y.1 ≠ i)
          placed := p.placed ++ [(e, x)] }
    | _, _ => (p, e :: r)

/-- The queue-overflow event is queued as soon as an entry is free (R52). -/
def State.overflowEvent (s : State) : State :=
  if s.scan.evqLost = 0 ∨ s.scan.evq.length ≥ 256 then s
  else { s with scan := { s.scan with evqLost := 0 } }.event 0x00FF 1 0 [BitVec.ofNat 64 s.scan.evqLost]

/-- ERROR_PHASE (R54): entries taken are written as descriptors into the frozen half of the F window, their tasks started;
those not taken are deferred whole, ahead of newer entries. An entry to which no task is bound any more is recorded. -/
def State.errorPhase (s : State) : State :=
  let old := s.scan.evq.take s.scan.evSnap
  let newer := s.scan.evq.drop s.scan.evSnap
  let live := old.filter (fun e => s.bound e.code)
  let s := (old.filter (fun e => !s.bound e.code)).foldl (fun (s : State) e => s.raise unboundEvent 0 (BitVec.ofNat 64 e.code :: e.params)) s
  let budget := s.fPeriod * 100
  let p : Placing × List ErrEntry := s.place budget live { free := s.actives.map (fun i => (i.val, 0)) }
  let taken : List (ErrEntry × ETask) := p.1.placed
  let s := (taken.map (fun e => errBytes e.1)).zipIdx.foldl (fun (s : State) (e : List Byte × Nat) => s.putFrozen .f (0x7B000 + 64 * e.2) e.1) s
  let s := s.putFrozen .f 0x7F024 (leBytes 4 taken.length)
  let q := p.2 ++ newer
  let s := { s with
    scan := { s.scan with evq := q, evSnap := 0, taken := taken.map (fun (e : ErrEntry × ETask) => e.1), step := .errors }
    brm := { s.brm with etasks := taken.map (fun (e : ErrEntry × ETask) => e.2) } }
  let s := (s.wr R.scanEvqDepth (BitVec.ofNat 32 q.length)).fsetb F.scanStatus_evqFull (q.length == 256)
  let s := (s.bumpBy R.scanEDefer p.2.length).fsetb F.scanStatus_eDefer (!p.2.isEmpty)
  let s : State := s.overflowEvent.startETasks
  if s.brm.etasks.isEmpty then s.releaseF else s

/-- `F_IMAGE_COMPLETE` (R41): the F image is complete and the error phase starts. -/
def execFImageComplete (s : State) : Res := s.when (s.scan.step == .freeze) s.errorPhase

/-- `ERROR_BUDGET_EXPIRY` (R54): the 10 % budget ends and F chains are released. -/
def execErrorBudgetExpiry (s : State) : Res := s.when (s.scan.step == .errors) s.releaseF

/-- `NS_IMAGE_COMPLETE` (R44): an N (0) or S (1) image is complete and the period's chains are released. -/
def execNsImageComplete (k : Fin 2) (s : State) : Res :=
  let c := s.clsRun (k.val + 1)
  s.when (s.scanRuns && c.running && c.frozen && !c.released) (s.releasePeriod (k.val + 1))

/-- `ERROR_EVENT_RAISED` (R52): a block raises an error event. -/
def execErrorEventRaised (code : BitVec 16) (block : Fin 22) (unit : BitVec 8) (ps : Vector W64 4) (s : State) : Res :=
  s.when s.up (s.event code.toNat block.val unit.toNat ps.toList)

end Sys2Proof.Machine
end

