-- ==== Sys2Proof/Machine/Cart.lean ====
section
/-!
DEFINITION. The Tally Cart (R420-R443): the cartridge's metering, audit log, verification mode and port, its fitting and
removal, the time line, and the module's view of it in the TC block.
-/

namespace Sys2Proof.Machine

def hapLatchOpen : Hap := ⟨14, 1, 19, none, true⟩
def hapLatchClose : Hap := ⟨14, 2, 19, none, true⟩
def hapCartFit : Hap := ⟨14, 3, 19, none, true⟩
def hapCartGone : Hap := ⟨14, 4, 19, none, true⟩
def hapCartState : Hap := ⟨14, 5, 19, none, true⟩
def hapCartLog : Hap := ⟨14, 6, 19, none, true⟩

/-! Parameters (R432). -/

def cpar (c : Cartridge) (i : Nat) : Nat := (vget c.pars i).toNat

/-- Whether a value lies in the range of a parameter; an unassigned parameter has none. -/
def parOk (i : Nat) (v : W32) : Bool :=
  let n := v.toNat
  if i = 0 then decide (n ≤ 1)
  else if i = 1 then n == 0 || (fldN n 0 16 != 0 && fldN n 16 16 != 0)
  else if i = 2 then decide (n ≤ 1)
  else if i = 3 then true
  else if 0x10 ≤ i ∧ i ≤ 0x13 then fldN n 0 16 != 0 && fldN n 17 14 == 0
  else if 0x20 ≤ i ∧ i ≤ 0x27 then decide (1 ≤ n ∧ n ≤ 16777215)
  else if 0x28 ≤ i ∧ i ≤ 0x2F then decide (n ≤ 2)
  else false

def feederOn (c : Cartridge) (f : Nat) : Bool := bitN (cpar c (0x10 + f)) 31
/-- The rated secondary current of a feeder's CT in A. -/
def feederIn (c : Cartridge) (f : Nat) : Nat := if bitN (cpar c (0x10 + f)) 16 then 5 else 1

/-- A secondary power scaled to the primary by the VT and CT ratios (R427). -/
def primary (c : Cartridge) (f : Nat) (p : Int) : Int :=
  let vt := cpar c 1
  let (vp, vs) := if vt = 0 then (1, 1) else (fldN vt 0 16, fldN vt 16 16)
  p * ((vp * fldN (cpar c (0x10 + f)) 0 16 : Nat) : Int) / ((max (vs * feederIn c f) 1 : Nat) : Int)

/-! The audit log (R434-R436). -/

def parFull (c : Cartridge) : Bool := decide (c.log.length ≥ 4031)
def logFull (c : Cartridge) : Bool := decide (c.log.length ≥ 4096)

/-- The stamp of a record: the last time-line frame, or unknown seconds while there is none (R425). -/
def auditRec (c : Cartridge) (code arg : Nat) (val : W32) : AuditRec :=
  { ops := if c.timeOk then c.lineS else 2 ^ 48 - 1, pcc := c.linePcc, code := code, arg := arg, val := val }

/-- A record of any region: counted where the log is full. -/
def logAny (c : Cartridge) (code arg : Nat) (val : W32) : Cartridge :=
  if logFull c then { c with gapLog := satAdd 16 c.gapLog 1 } else { c with log := c.log ++ [auditRec c code arg val] }

/-- A record of the parameter region: indices 0 to 4,031 only. -/
def logPar (c : Cartridge) (code arg : Nat) (val : W32) : Cartridge :=
  if c.log.length > 4031 then c else { c with log := c.log ++ [auditRec c code arg val] }

/-! What the module reads (R423, R443). -/

/-- `TC_STATE`. -/
def cartState (c : Cartridge) : Nat :=
  bit c.metering + bit c.verif * 2 + bit (parFull c) * 4 + bit (logFull c) * 8 + bit c.fault * 16
    + cpar c 2 % 2 * 32 + bit c.outRange * 64 + bit c.timeOk * 128 + bit c.led.isSome * 256

/-- The registers that follow the cartridge at once: state, log count, gap counts. -/
def State.showCart (s : State) : State :=
  match s.bay.cart with
  | none => s
  | some c =>
    let s := (s.wr R.tcState (BitVec.ofNat 32 (cartState c))).wr R.tcLogCount (BitVec.ofNat 32 c.log.length)
    s.wr R.tcGapCnt (BitVec.ofNat 32 (c.gapLoss + c.gapLog * 65536))

/-- The cartridge changes: the module records changes of `TC_STATE`, `METERING` apart, and of `TC_LOG_COUNT` (R442). -/
def State.setCart (s : State) (c : Cartridge) : State :=
  let old := (s.bay.cart.map cartState).getD 0
  let oldLog := (s.bay.cart.map (fun (x : Cartridge) => x.log.length)).getD 0
  let s := ({ s with bay := { s.bay with cart := some c } }).showCart
  let s := if old / 2 = cartState c / 2 then s else s.raise hapCartState 0 [c.serial, BitVec.ofNat 64 (cartState c)]
  if oldLog = c.log.length then s else s.raise hapCartLog 0 [c.serial, BitVec.ofNat 64 c.log.length]

/-- The bytes of a display page: 60 characters and their CRC-32 (R430). -/
def pageBytes (c : Cartridge) (q : Nat) : List Byte :=
  let e (i : Nat) : W64 := BitVec.ofNat 64 (vget c.energy i)
  let f (i : Nat) : W64 := BitVec.ofNat 64 (vget c.flow i)
  let u (i : Nat) : W64 := BitVec.ofNat 64 (cpar c (0x28 + i))
  let vals : List W64 :=
    if q = 0 then [c.version.setWidth 64, c.checkCode.setWidth 64, c.serial, BitVec.ofNat 64 (cpar c 2)]
    else if q ≤ 4 then [e (4 * (q - 1)), e (4 * (q - 1) + 1)]
    else if q = 5 then [f 0, f 1, f 2, f 3, u 0, u 1, u 2, u 3]
    else if q = 6 then [f 4, f 5, f 6, f 7, u 4, u 5, u 6, u 7]
    else [bit c.verif, bit (parFull c || logFull c), bit c.outRange, bit c.fault, BitVec.ofNat 64 c.log.length]
  let text := (Config.pageText q vals ++ List.replicate 60 0x20).take 60
  text ++ leBytes 4 (crc32 text)

/-- Everything the cartridge publishes, put into the registers (R424). -/
def State.publishCart (s : State) (c : Cartridge) : State :=
  let s := (s.wr64 R.tcSerialLo c.serial).wr R.tcSwId (BitVec.ofNat 32 (c.checkCode.toNat + c.version.toNat * 65536))
  let s := s.wr R.tcTemp (BitVec.ofInt 32 c.temp)
  let s := (List.range 64).foldl (fun s i => s.wr (R.tcPari i) (vget c.pars i)) s
  let n : Int := (max c.sumN 1 : Nat)
  let s := (List.range 4).foldl (fun s f =>
    let e (s : State) (k : Nat) : State := s.wr64 (R.tcFfEpImpLo f + 8 * k) (BitVec.ofNat 64 (vget c.energy (4 * f + k) / 1000))
    let s := e (e (e (e s 0) 1) 2) 3
    let s := (s.wr (R.tcFfP f) (BitVec.ofInt 32 (vget c.sumP f / n / 1000))).wr (R.tcFfQ f) (BitVec.ofInt 32 (vget c.sumQ f / n / 1000))
    s.wr (R.tcFfStatus f) (BitVec.ofNat 32 (bit (feederOn c f) + bit (c.beyond.getLsbD f) * 2 + bit (c.below.getLsbD f) * 4))) s
  let s := (List.range 8).foldl (fun s k =>
    let s := (s.wr64 (R.tcFlkTotalLo k) (BitVec.ofNat 64 (vget c.flow k))).wr (R.tcFlkRate k) (BitVec.ofNat 32 (vget c.flowNow k))
    s.wr (R.tcFlkStatus k) (BitVec.ofNat 32 (bit (cpar c (0x28 + k) != 0) + bit (c.overspeed.getLsbD k) * 2))) s
  (List.range 8).foldl (fun s q =>
    let b := pageBytes c q
    (List.range 16).foldl (fun s w => s.wr (R.tcPgqWw (16 * q + w)) (BitVec.ofNat 32 (leNat ((b.drop (4 * w)).take 4)))) s) s

/-- `TC_SNAPSHOT` (R424): once per second `TC_SNAP_SEQ` becomes odd (`start`), the values are published, and it becomes even
again. -/
def execTcSnapshot (start : Bool) (s : State) : Res :=
  match s.bay.cart with
  | none => .next s
  | some c =>
    let odd := c.seq.toNat % 2 == 1
    if !c.powered || odd == start then .next s
    else
      let c1 := { c with seq := c.seq + 1 }
      let zero := { c1 with
        sumP := Vector.replicate 4 0, sumQ := Vector.replicate 4 0, sumN := 0, flowNow := Vector.replicate 8 0, overspeed := 0 }
      let s1 := if start then s.setCart c1 else (s.publishCart c1).setCart zero
      .next (s1.wr R.tcSnapSeq c1.seq)

/-! Metering (R426-R428). -/

/-- Energy of 125 µs joins a register: whole mWh, the rest kept. 1 mWh is 28,800,000 mW for 125 µs. -/
def addEnergy (c : Cartridge) (i mw : Nat) : Cartridge :=
  let r := vget c.rest i + mw
  { c with energy := vset c.energy i (vget c.energy i + r / 28800000), rest := vset c.rest i (r % 28800000) }

/-- One feeder's computation: `p`, `q` its secondary active and reactive power in mW, `ma` its secondary current in mA. -/
def meterFeeder (c : Cartridge) (f : Nat) (p q : Int) (ma : Nat) : Cartridge :=
  if !feederOn c f then c
  else
    let pp := primary c f p
    let qq := primary c f q
    let c := addEnergy c (4 * f + (if 0 ≤ pp then 0 else 1)) pp.natAbs
    let c := addEnergy c (4 * f + (if 0 ≤ qq then 2 else 3)) qq.natAbs
    let flag (m : BitVec 4) (b : Bool) : BitVec 4 := BitVec.ofNat 4 (setFldN m.toNat f 1 (bit b))
    { c with
      sumP := vset c.sumP f (vget c.sumP f + pp), sumQ := vset c.sumQ f (vget c.sumQ f + qq)
      beyond := flag c.beyond (decide (ma > 1200 * feederIn c f)), below := flag c.below (decide (ma < feederIn c f)) }

/-- `METERING_COMPUTE` (R427, R428): every 125 µs: the feeders' secondary powers in mW and currents in mA as sampled,
whether a voltage lies outside its rating, the temperature in 0.1 °C. -/
def execMeteringCompute (p q : Vector Int 4) (ma : Vector Nat 4) (voltBad : Bool) (temp : Int) (s : State) : Res :=
  match s.bay.cart with
  | none => .next s
  | some c =>
    let c1 := [0, 1, 2, 3].foldl (fun c f => meterFeeder c f (vget p f) (vget q f) (vget ma f)) c
    let c2 := { c1 with
      sumN := c.sumN + 1, temp := temp, outRange := voltBad || decide (temp < -250) || decide (700 < temp) }
    s.when (c.powered && c.metering) (s.setCart c2)

/-- `METERING_PULSE` (R426, R427): a pulse of an enabled input adds its weight; `overspeed` where the input runs above
10 kHz. -/
def execMeteringPulse (k : Fin 8) (overspeed : Bool) (s : State) : Res :=
  match s.bay.cart with
  | none => .next s
  | some c =>
    let w := fldN (cpar c (0x20 + k.val)) 0 24
    let c1 := { c with
      flow := vmod c.flow k.val (· + w), flowNow := vmod c.flowNow k.val (· + w)
      overspeed := if overspeed then BitVec.ofNat 8 (setFldN c.overspeed.toNat k.val 1 1) else c.overspeed }
    s.when (c.powered && c.metering && cpar c (0x28 + k.val) != 0) (s.setCart c1)

/-! Verification (R431-R433). -/

/-- `VERIFICATION_ENTER` (R431): the switch is set; refused where fewer than 2 parameter-region records remain. -/
def execVerificationEnter (s : State) : Res :=
  match s.bay.cart with
  | none => .next s
  | some c => s.when (c.powered && !c.verif && !parFull c) (s.setCart { logPar c 1 0 0 with verif := true })

/-- `VERIFICATION_LEAVE` (R431): the switch is cleared. -/
def execVerificationLeave (s : State) : Res :=
  match s.bay.cart with
  | none => .next s
  | some c => s.when (c.powered && c.verif) (s.setCart { logPar c 2 0 0 with verif := false, led := none })

/-- `ID` (R433). -/
def execIdCmd (s : State) : Res :=
  match s.bay.cart with
  | none => .next s
  | some c => s.when c.powered (s.emit (.verif [c.serial, c.version.setWidth 64, c.checkCode.setWidth 64]))

/-- `PR i` (R433). -/
def execPrCmd (i : Fin 64) (s : State) : Res :=
  match s.bay.cart with
  | none => .next s
  | some c => s.when c.powered (s.emit (.verif [(vget c.pars i.val).setWidth 64]))

/-- `PW i v` (R432, R433, R436): in verification mode with two parameter-region records left, a value in range is written
and logged. -/
def execPwCmd (i : Fin 64) (v : W32) (s : State) : Res :=
  match s.bay.cart with
  | none => .next s
  | some c =>
    s.when (c.powered && c.verif && !parFull c && parOk i.val v)
      (s.setCart { logPar c 3 i.val v with pars := vset c.pars i.val v })

/-- `LED f` (R433): in verification mode the test LED shows a feeder, 9 turns it off. -/
def execLedCmd (f : BitVec 4) (s : State) : Res :=
  match s.bay.cart with
  | none => .next s
  | some c =>
    let ok := decide (f.toNat < 4) || f.toNat == 9
    s.when (c.powered && c.verif && ok) (s.setCart { c with led := if f.toNat = 9 then none else some f.toNat })

/-- `LR n` (R433): an audit record. -/
def execLrCmd (n : BitVec 12) (s : State) : Res :=
  match s.bay.cart with
  | none => .next s
  | some c =>
    match c.log[n.toNat]? with
    | some r => s.when c.powered (s.emit (.verif [BitVec.ofNat 64 r.ops, BitVec.ofNat 64 r.pcc, BitVec.ofNat 64 r.code,
        BitVec.ofNat 64 r.arg, r.val.setWidth 64]))
    | none => .next s

/-! Fitting, removal, the time line (R422, R425, R437-R439). -/

def State.hostSerial (s : State) : W64 := s.rd64 R.sysSerialLo

/-- A page goes to the front display; one that fails its CRC shows as dashes (R430). -/
def State.showPage (s : State) (q : Nat) : State :=
  let b := (List.range 16).flatMap (fun w => leBytes 4 (s.rd (R.tcPgqWw (16 * q + w))).toNat)
  let ok := leNat (b.drop 60) == crc32 (b.take 60)
  s.emit (.display (if ok then b.take 60 else List.replicate 60 0x2D))

/-- A powered cartridge starts (R429, R436, R438, R439): it checks its code and its flash, closes a session left open and
counts a supply loss; then it waits for the time line. -/
def cartStart (c : Cartridge) (codeOk flashOk fit : Bool) : Cartridge :=
  let c := { c with powered := true, metering := false, timeOk := false, fitDue := fit, waiting := codeOk && flashOk, fault := false }
  let c := if c.leaveDue then { logPar c 2 0 0 with leaveDue := false } else c
  let c := if c.lossDue then { c with gapLoss := satAdd 16 c.gapLoss 1, lossDue := false } else c
  if !codeOk then { logAny c 6 1 0 with fault := true }
  else if !flashOk then { logAny c 6 3 0 with fault := true }
  else c

/-- The wait ends: the fit record, where one is due, and metering on the stored registers. -/
def cartResume (c : Cartridge) : Cartridge :=
  let c := if c.fitDue && !logFull c then logAny c 5 0 (c.lineHost.setWidth 32) else c
  { c with waiting := false, fitDue := false, metering := true }

/-- TIME_LINE_FRAME (R422): TB3, the power-cycle count and the host's serial reach a powered cartridge. -/
def State.timeLine (s : State) : State :=
  match s.bay.cart with
  | none => s.fset F.tcBay_timeTx 1
  | some c =>
    let c1 := { c with timeOk := true, lineS := s.time.tb3, linePcc := s.time.pcc, lineHost := s.hostSerial }
    let c2 := if c1.waiting then cartResume c1 else c1
    (if c.powered then s.setCart c2 else s).fset F.tcBay_timeTx 1

/-- A fit into this host: bay, registers and the page shown. -/
def State.fitCart (s : State) (c : Cartridge) : State :=
  let s := (s.fset F.tcBay_present 1).fset F.tcBay_link 1
  let s := ((s.fset F.tcBay_latchOpen 0).publishCart c).setCart c
  s.showPage 0

/-- `CARTRIDGE_FIT` (R429, R438, R439, R442): a cartridge is fitted and powered, or (none) the fitted one starts again after a
supply loss, which is no fit. Its code and its flash are checked; it then waits for the time line. -/
def execCartridgeFit (cart : Option Cartridge) (codeOk flashOk : Bool) (s : State) : Res :=
  match cart, s.bay.cart with
  | some c, none =>
    .next (((s.fitCart (cartStart c codeOk flashOk true)).bump R.tcFits).raise hapCartFit 0 [c.serial])
  | none, some c =>
    let c1 := cartStart c codeOk flashOk false
    s.when (!c.powered) (((s.fset F.tcBay_link 1).publishCart c1).setCart c1)
  | _, _ => .next s

/-- `FIT_TIME_LINE_WAIT_EXPIRY` (R438): no time line within 10 s: the fit record has unknown TB3 and metering resumes. -/
def execFitTimeLineWaitExpiry (s : State) : Res :=
  match s.bay.cart with
  | none => .next s
  | some c => s.when (c.powered && c.waiting) (s.setCart (cartResume c))

/-- `TIME_LINE_TIMEOUT` (R425): no valid frame for 3 s. -/
def execTimeLineTimeout (s : State) : Res :=
  match s.bay.cart with
  | none => .next s
  | some c => s.when (c.powered && c.timeOk) (s.setCart { c with timeOk := false })

/-- `LATCH_WARNING` (R437): metering stops; registers and removal record are stored. -/
def execLatchWarning (s : State) : Res :=
  match s.bay.cart with
  | none => .next s
  | some c =>
    let c1 := { logAny c 4 0 (s.hostSerial.setWidth 32) with metering := false, waiting := false }
    s.when (c.powered && !s.fbit F.tcBay_latchOpen)
      (((s.fset F.tcBay_latchOpen 1).raise hapLatchOpen 0 [c.serial]).setCart c1)

/-- `LATCH_CLOSE` (R437): the latch closes again: a fit into the same host. -/
def execLatchClose (codeOk flashOk : Bool) (s : State) : Res :=
  match s.bay.cart with
  | none => .next s
  | some c =>
    s.when (s.fbit F.tcBay_latchOpen)
      (((s.raise hapLatchClose 0 [c.serial]).fitCart (cartStart c codeOk flashOk true)).bump R.tcFits)

/-- Every register that a cartridge publishes reads as nothing without one. -/
def State.dropTcRegs (s : State) : State :=
  { s with regs := s.regs.filter (fun e => !(0x13100 ≤ e.1 && e.1 < 0x14000)) }

/-- `CARTRIDGE_REMOVED` (R442): the cartridge leaves the bay. -/
def execCartridgeRemoved (s : State) : Res :=
  match s.bay.cart with
  | none => .next s
  | some c =>
    let t := (((s.fset F.tcBay_present 0).fset F.tcBay_link 0).fset F.tcBay_latchOpen 0).dropTcRegs.raise hapCartGone 0 [c.serial]
    s.when (s.fbit F.tcBay_latchOpen) { t with bay := { t.bay with cart := none } }

/-- The cartridge loses its supply: it stops and stores its registers; a session left open is closed at its next start. -/
def State.cartLoss (s : State) : State :=
  match s.bay.cart with
  | none => s
  | some c =>
    if !c.powered then s
    else ({ s with bay := { s.bay with cart := some { c with
      powered := false, metering := false, waiting := false, timeOk := false, led := none, lossDue := true
      leaveDue := c.leaveDue || c.verif, verif := false } } }).fset F.tcBay_link 0

/-- `CARTRIDGE_SUPPLY_LOSS` (R439). -/
def execCartridgeSupplyLoss (s : State) : Res := .next s.cartLoss

/-- `LEGAL_PAGE_DISPLAY` (R430): the display changes to a legal page, or to a page of the module's own; after a fit page 0
stands alone until its 10 s end. -/
def execLegalPageDisplay (page : Option (Fin 8)) (s : State) : Res :=
  match page with
  | some q => s.when s.bay.cart.isSome (s.showPage q.val)
  | none => s.when s.power.chip (s.emit (.display (Config.pageText 0 [])))

/-- `TC_WRITE` (R443): a write to any address of the TC block changes nothing and is counted in `TC_IGNORED` only. -/
def execTcWrite (m : Master) (off : BitVec 12) (s : State) : Res :=
  s.asWrite m (0x13000 + off.toNat) (fun s => s.bump R.tcIgnored)

end Sys2Proof.Machine
end

