-- ==== Sys2Proof/Machine/Cat.lean ====
section
/-!
DEFINITION. The CAT's registers (R372-R379) and memory integrity: repair from the partner, rewriting from flash,
scrubbing and fuse repair (R385-R391).
-/

namespace Sys2Proof.Machine

/-! Entries and the barrier. -/

/-- A committed word of an entry (R375). -/
def State.entAddr (s : State) (e : Nat) : Nat := (sget regReset s.cat.committed (R.catEnteAddr e)).toNat
def State.entAttr (s : State) (e : Nat) : Nat := (sget regReset s.cat.committed (R.catEnteAttr e)).toNat
def State.entLocked (s : State) (e : Nat) : Bool := bitN (s.entAttr e) 30

/-- `CAT_STATUS.USED` and `LOCKED` (R390). -/
def State.showCat (s : State) : State :=
  let es := List.range 128
  (s.fset F.catStatus_used (es.filter (fun e => fldN (s.entAttr e) 22 8 ≠ 0)).length).fset F.catStatus_locked
    (es.filter s.entLocked).length

/-- Whether an entry of these words covers the CAT block's page and grants `WR` on it to a class other than MC (R375). -/
def grantsCatPage (addr attr : Nat) : Bool :=
  let base := fldN addr 0 28
  bitN addr 29 && base ≤ 0x1000F && 0x1000F ≤ base + fldN attr 0 22 && (fldN attr 22 8 - bit (bitN attr 24) * 4 ≠ 0)

/-- A write of `CAT_ENTe_ADDR`: held, and read back as held (R375). -/
def State.catWriteAddr (s : State) (m : Master) (e : Fin 128) (v : W32) : State :=
  if m ≠ .mc ∨ s.entLocked e.val then s.ignoredIn 15 else s.wr (R.catEnteAddr e.val) (v &&& 0x7FFFFFFF)

/-- A write of `CAT_ENTe_ATTR`: commits both words of the entry unless refused (R375). -/
def State.catWriteAttr (s : State) (m : Master) (e : Fin 128) (v : W32) : State :=
  let a := s.rd (R.catEnteAddr e.val)
  let t := v &&& 0x7FFFFFFF
  if m ≠ .mc ∨ s.entLocked e.val ∨ fldN a.toNat 0 28 + fldN t.toNat 0 22 ≥ 2 ^ 28 ∨ grantsCatPage a.toNat t.toNat then
    s.ignoredIn 15
  else
    let s := s.wr (R.catEnteAttr e.val) t
    { s with cat := { s.cat with
        committed := sset regReset (sset regReset s.cat.committed (R.catEnteAddr e.val) a) (R.catEnteAttr e.val) t } }.showCat

/-- A barrier: the committed entries decide every access issued from now on (R376). -/
def State.catBarrier (s : State) (v : W32) : State :=
  { s with cat := { s.cat with eff := s.cat.committed, barrier := some v } }.fset F.catStatus_barPend 1

/-- Only MC writes the CAT block (R375): a write of another master is ignored. -/
def State.mcOnly (s : State) (m : Master) (f : State → State) : State := if m = .mc then f s else s.ignoredIn 15

/-- `CAT_ENT_ADDR_WRITE` (R375): the write is held until the ATTR write. -/
def execCatEntAddrWrite (m : Master) (e : Fin 128) (v : W32) (s : State) : Res :=
  s.asWrite m (R.catEnteAddr e.val) (fun s => s.catWriteAddr m e v)

/-- `CAT_ENT_ATTR_WRITE` (R375): commits both words of the entry unless refused. -/
def execCatEntAttrWrite (m : Master) (e : Fin 128) (v : W32) (s : State) : Res :=
  s.asWrite m (R.catEnteAttr e.val) (fun s => s.catWriteAttr m e v)

/-- `CAT_BARRIER` (R376): a barrier write makes entry changes effect for later accesses. -/
def execCatBarrier (m : Master) (v : W32) (s : State) : Res :=
  s.asWrite m R.catBarrier (fun s => s.mcOnly m (fun s => s.catBarrier v))

/-- `CAT_BARRIER_COMPLETE` (R376): earlier accesses have completed and `CAT_BARRIER_DONE` takes the barrier value. -/
def execCatBarrierComplete (s : State) : Res :=
  match s.cat.barrier with
  | some v => .next (({ s with cat := { s.cat with barrier := none } }.wr R.catBarrierDone v).fset F.catStatus_barPend 0)
  | none => .next s

/-- `CAT_CTRL.CLR_FAULT`: clears `FAULT` and re-arms the latch (R379). -/
def State.catClrFault (s : State) : State := (s.fset F.catStatus_fault 0).fset F.catFaultInfo_valid 0
/-- `CAT_CTRL.CLR_CNT`. -/
def State.catClrCnt (s : State) : State := s.zero ((List.range 8).map R.catClmFaults)

/-- `CAT_CLR_FAULT` (R379). -/
def execCatClrFault (m : Master) (s : State) : Res :=
  s.asWrite m R.catCtrl (fun s => s.mcOnly m State.catClrFault)
/-- `CAT_CLR_CNT` (R379). -/
def execCatClrCnt (m : Master) (s : State) : Res :=
  s.asWrite m R.catCtrl (fun s => s.mcOnly m State.catClrCnt)

/-! MC (R35, R36). -/

def hapMcRestart : Hap := ⟨15, 1, 0, none, false⟩

/-- A block whose `BLOCK_APPLY` has not been written since its last shadow write reloads its shadows (R476). -/
def State.reloadShadows (s : State) : State :=
  let keep (off : Nat) : Bool := (s.rd R.sysApplyPend).getLsbD (off / 0x1000) || off / 0x1000 == 21
  let s1 := { s with regs := scopy regReset (fun off => isRws off && !keep off) s.act s.regs }
  s1.wr R.sysShadowPend ((s.rd R.sysShadowPend) &&& ((s.rd R.sysApplyPend) ||| 0x200000))

/-- The AOS resets MC alone (R35, R385, R476): shadows not applied are lost, the health score is forced to 0. -/
def State.mcReset (s : State) : State :=
  let s := (s.fset F.sysStatus_mcRun 0).reloadShadows
  let s := { s with power := { s.power with mcTest := true } }
  (((s.bump R.sysMcRestarts).raise hapMcRestart 0 []).forceZero causeMcReset)

/-! Reactions to an uncorrectable error that no drupelet's access met (R385-R387). -/

/-- The package in the inactive bank is refused (R385, R173). -/
def State.refusePkg (s : State) (code : Nat) : State :=
  (s.fset F.olcStatus_pkgState 4).wr R.olcRefuse (BitVec.ofNat 32 code)

/-- A window is put back as a restart entry in its drupelet's cluster; no mismatch (R133). -/
def State.restartWin (s : State) (be : Fin 32) : State :=
  match (s.dru be).win with
  | some w =>
    let t := s.setDru be { s.dru be with win := none, yieldReq := false }
    { t with brm := { t.brm with restarts := t.brm.restarts ++ [(be.val / 8, w.oc)] } }
  | none => s

/-- The handling of an uncorrectable word by its region (Table: Reaction to an uncorrectable error, R385, R386). -/
def State.ueReact (s : State) (a : Nat) : State :=
  let blk := a / 256
  let ask (s : State) : State :=
    { s with integ := { s.integ with wanted := s.integ.wanted ++ [(32, blk)] } }.send (.repairRequest blk)
  if s.bank ≤ a ∧ a < s.bank + 0x1000000 then
    if s.partner = .standby then ask s
    else { s with integ := { s.integ with rewrite := s.integ.rewrite ++ [blk] } }
  else if a < 0x02000000 then (if s.fget F.olcStatus_pkgState ≥ 1 then s.refusePkg 1 else s)
  else if s.tracked a then
    if s.mod = .standby then { s with integ := { s.integ with asked := s.integ.asked ++ [blk] } }.send (.dirtyRequest blk)
    else if s.mod = .primary ∧ s.partner = .standby then
      if s.pair.dirty.has blk then (s.fset F.memUeInfo_released 1).dropClaim 7 else ask s
    else if regionOf a = some .instance_ then s.reinitBlock blk else s
  else if regionOf a = some .mcLocal then s.mcReset
  else s

/-! Repair from the partner. -/

/-- A block of 256 bytes written whole: every word of it is good again. -/
def State.restoreBlock (s : State) (blk : Nat) (data : List Byte) : State :=
  let s := (s.wrMem (blk * 256) data).fset F.memUeInfo_restored 1
  if s.bank ≤ blk * 256 ∧ blk * 256 < s.bank + 0x1000000 then s.dropBlockLines (blk * 256 - s.bank) else s

/-- The drupelets that wait for a block. -/
def State.waiters (s : State) (blk : Nat) : List (Fin 32) :=
  (s.integ.wanted.filter (fun e => e.2 == blk && decide (e.1 < 32))).map (fun e => Fin.ofNat 32 e.1)

def State.unwant (s : State) (blk : Nat) : State :=
  { s with integ := { s.integ with wanted := s.integ.wanted.filter (fun e => e.2 ≠ blk) } }

/-- `BLOCK_REPAIR_RX` (R386): a restored block arrives from the partner, is written whole, and the windows that wait for
it restart from their checkpoints; a block that nobody waits for is discarded. -/
def execBlockRepairRx (blk : Nat) (data : List Byte) (s : State) : Res :=
  s.when (s.integ.wanted.any (fun e => e.2 == blk) && data.length == 256)
    (((s.waiters blk).foldl State.restartWin (s.restoreBlock blk data)).unwant blk)

/-- The windows that wait for a block are abandoned (R385, R387). -/
def State.abandonWaiters (s : State) (blk : Nat) : State :=
  (s.waiters blk).foldl (fun s be => match (s.dru be).win with | some w => s.abandon be w (excRecord 0x10 w.core.pc 0) | none => s) s

/-- `REPAIR_TIMEOUT` (R386): no repair within 20 µs: the block is handled as in a module without a STANDBY partner. -/
def execRepairTimeout (blk : Nat) (s : State) : Res :=
  let a := blk * 256
  let s1 :=
    if s.bank ≤ a ∧ a < s.bank + 0x1000000 then { s with integ := { s.integ with rewrite := s.integ.rewrite ++ [blk] } }
    else if regionOf a = some .instance_ then s.reinitBlock blk
    else s
  s.when (s.integ.wanted.any (fun e => e.2 == blk)) ((s1.abandonWaiters blk).unwant blk)

/-- `CODE_BLOCK_REWRITE` (R385): MC rewrites a poisoned active-bank block from the flash copy of the active bank. -/
def execCodeBlockRewrite (blk : Nat) (s : State) : Res :=
  let off := blk * 256 - s.bank
  let data := (List.range 256).map (fun i => sget (fun _ => 0) s.olc.flash.bank (off + i))
  s.when (s.integ.rewrite.contains blk && s.fbit F.sysStatus_mcRun)
    { s.restoreBlock blk data with
      integ := { (s.restoreBlock blk data).integ with rewrite := s.integ.rewrite.filter (· ≠ blk) } }

/-- `DIRTY_REQUEST_RX` (R386): the PRIMARY sets the dirty bit of a block the STANDBY found poisoned. -/
def execDirtyRequestRx (id blk : Nat) (s : State) : Res :=
  if s.mod = .primary then s.onceOnly id (s.markDirty (blk * 256) 1) else .next s

/-! Scrubbing and repair (R388, R389, R394). -/

def hapHard : Hap := ⟨12, 3, 16, none, false⟩
def hapFuse : Hap := ⟨12, 4, 16, none, true⟩

/-- HARD_FAULT: counted; in SRAM the row is queued for repair while spares and fuses are left (R388, R389). -/
def State.hardFault (s : State) (a : Nat) (spare : Bool) : State :=
  let s := (s.bump (R.memRgrHard (regNum a))).raise hapHard (regNum a) [BitVec.ofNat 64 a]
  if !isSram a then s
  else if fldN (s.rd R.memFuse).toNat 0 7 ≥ 64 then s.fset F.memStatus_fuseFull 1
  else if !spare then s.fset F.memStatus_sparesOut 1
  else
    let s := { s with integ := { s.integ with repairs := s.integ.repairs ++ [a] } }
    s.fset ⟨R.memFuse, 8, 8⟩ s.integ.repairs.length

/-- One word of a scrub access: `found` is what the codes show; `again` that the read after the write-back shows an error
(R383, R384, R388). -/
def State.scrubWord (s : State) (a : Nat) (found : Ecc) (again spare : Bool) : State :=
  let w := a / 8
  if isSram a ∧ s.mem.bad w then s
  else
    match found with
    | .clean => { s with mem := { s.mem with suspect := s.mem.suspect.del w } }
    | .corrected =>
      let hard := again || s.mem.suspect.has w
      let s := { s.eccCorrected a with mem := { s.mem with suspect := s.mem.suspect.add w } }
      if hard then s.hardFault a spare else s
    | .uncorrectable =>
      let hard := s.mem.suspect.has w
      let s := (s.eccUe a true).ueReact a
      let s := { s with mem := { s.mem with suspect := s.mem.suspect.add w } }
      if hard then s.hardFault a spare else s

/-- `SCRUB_ACCESS` (R394): a scrub engine reads 64 bytes in an idle clock of its port; words of SRAM whose written bit is
clear are passed over. `lapR` is the lap in ms of the line's region, and `lapC` that of its client, where this access ends
them (R396, `MEM_RGr_LAP`). -/
def execScrubAccess (line : Nat) (found : Vector Ecc 8) (again spare : Bool) (lapR lapC : Option Nat) (s : State) : Res :=
  let a := line * 64
  let isMem := match regionOf a with | some .setup => false | some .cart => false | some _ => true | none => false
  let laps (s : State) : State :=
    let s := match lapR with | some ms => s.wr (R.memRgrLap (regNum a)) (BitVec.ofNat 32 ms) | none => s
    match lapC with | some ms => s.wfDone (if isSram a then 0 else 1) ms | none => s
  s.when (isMem && !s.commitSpan a 64) (laps (((List.range 8).foldl (fun s k => s.scrubWord (a + 8 * k) (vget found k) again spare) s).obsCount 0x1001))

/-- `FUSE_REPAIR` (R389, R403): MC blows one queued repair fuse while the hold-up is rated and the supply within range; the repair takes effect at the next restart. -/
def execFuseRepair (s : State) : Res :=
  match s.integ.repairs with
  | [] => .next s
  | a :: r =>
    let n := fldN (s.rd R.memFuse).toNat 0 7
    let s1 := { s with integ := { s.integ with repairs := r } }
    let s1 := (s1.fset ⟨R.memFuse, 8, 8⟩ r.length).fset ⟨R.memFuse, 0, 7⟩ (n + 1)
    let s1 := s1.fsetb F.memStatus_fuseFull (decide (63 ≤ n))
    let s1 := ((s1.fset F.memStatus_repairPend 1).raise hapFuse (regNum a) [BitVec.ofNat 64 a]).wfDone 12 2
    let rated := decide (60 ≤ s.fget F.wfHoldup_total) && s.fbit F.pwrStatus_vinOk && !s.fbit F.pwrStatus_pfWarn
    s.when ((s.actv R.memCfg).getLsbD 0 && s.fbit F.sysStatus_mcRun && rated && decide (n < 64)) s1

/-- MEM_CTRL.CLR_CNT (R391). -/
def State.memClrCnt (s : State) : State :=
  s.zero ((List.range 8).flatMap (fun r => [R.memRgrCe r, R.memRgrUe r, R.memRgrHard r]))

/-- `MEM_CLR_CNT` (R391): clears the MEM error counters. -/
def execMemClrCnt (m : Master) (s : State) : Res :=
  s.asWrite m R.memCtrl (fun s => s.memClrCnt)

end Sys2Proof.Machine
end

