-- ==== Sys2Proof/Machine/Reset.lean ====
section
/-!
DEFINITION. What a reset of the chip leaves (R472-R474): the registers and stores that FRAM, flash, the fuse map, the field
island, the Bogie and the timekeeper keep, everything else at its reset value.
-/

namespace Sys2Proof.Machine

/-- Registers whose home is a store outside the chip's reset: the fuse map, FRAM, flash, the island's memory and the
cartridge (R474). -/
def keptStore (off : Nat) : Bool :=
  [R.memFuse, R.sysSerialLo, R.sysSerialHi, R.sysVariant, R.brmRetiredMask, R.rfxSlots, R.wfHoldup, R.wfHoldupLast,
    R.wfClcLast 10, R.olcKeyValid, R.recFlushed, R.recArmed, R.tcBay].contains off
    || (List.range 4).any (fun m => off == R.rfxEnmState m)
    || (List.range 8).any (fun n => off == R.aoChnTrimLo n || off == R.aoChnTrimHi n)
    || decide (0x13100 ≤ off ∧ off < 0x14000)

/-- Registers that a module restart leaves unchanged (R473). -/
def keptRestart (off : Nat) : Bool :=
  [R.timeRate, R.timeHoldS, R.timeTb0Err, R.timeUtc, R.timeSteps, R.pwrVin, R.pwrPfCnt, R.pwrRestarts].contains off

/-- The chip's state goes; what stands outside its reset remains (R472, R473). At power-on the timekeeper starts anew, and
the role lines are down; through a module restart `CLAIM` stands as it was (R464, R484). The module starts up: BOOT (R4). -/
def State.wipe (s : State) (powerOn : Bool) : State :=
  let t := s.time
  let n : State := {
    pending := s.pending, out := s.out, free := s.free
    regs := s.regs.filter (fun (e : Nat × W32) => keptStore e.1 || (!powerOn && keptRestart e.1))
    mem := s.mem
    power := { s.power with
      chip := false, doorbells := false, can := false, ptpMaster := false, ringJoined := false, roleDone := false
      restarting := false, cfgPending := false, mcTest := false, rates := [] }
    time := if powerOn then { tb3 := t.tb3, pcc := t.pcc }
      else { t with ptp := Vector.replicate 2 {}, parent := none, tb2From := none, t21 := none, t3 := none }
    bogie := { s.bogie with lanes := 0, retrain := false, alive := false }
    olc := { keys := s.olc.keys, flash := s.olc.flash }
    brm := { be := s.brm.be.map (fun (d : Drupelet) => {
      transients := d.transients, cleanMism := d.cleanMism, st := if d.st = .retired then .retired else .active }) }
    recd := { area := s.recd.area }
    rfx := { trans := s.rfx.trans }
    wf := { erase := s.wf.erase }
    island := s.island
    bay := s.bay }
  let n := (n.wr R.pairStatus (s.rd R.pairStatus &&& (if powerOn then 0xC900 else 0xCB00))).setMod .boot
  let n := if powerOn then n else n.wr R.timeStatus (s.rd R.timeStatus &&& 3)
  n.wr R.memFuse (s.rd R.memFuse &&& 0xFFFF007F)

/-- The AOS holds the chip in reset: a module restart follows (R26, R464, R484). The cause as `SYS_RESET_CAUSE` codes it. -/
def State.chipHold (s : State) (cause : Nat) : State := (s.wipe false).wr R.sysResetCause (BitVec.ofNat 32 cause)

/-- The core rails rise (R381): no SRAM word is written, and DRAM words are readable only where the new key is the one they
were written under. -/
def Mem.powerOn (m : Mem) (key : Nat) : Mem :=
  let now := m.written.filter (fun (e : Nat × Bool) => isDram (e.1 * 8))
  let all := m.past.filter (fun (e : Nat × Nat) => !m.written.has e.1) ++ now.map (fun (e : Nat × Bool) => (e.1, m.key))
  { bytes := m.bytes.filter (fun (e : Host.Cell) => isDram e.1)
    poison := m.poison.filter (fun (e : Nat × Bool) => isDram (e.1 * 8))
    written := (all.filter (fun (e : Nat × Nat) => e.2 == key)).foldl (fun (w : NSet) e => w.add e.1) []
    past := all.filter (fun (e : Nat × Nat) => e.2 != key)
    key := key }

/-- The boot clearing (R382): every word of the on-chip SRAM is written whole as zero. -/
def Mem.clearSram (m : Mem) : Mem :=
  { m with
    bytes := m.bytes.filter (fun (e : Host.Cell) => !isSram e.1)
    poison := m.poison.filter (fun (e : Nat × Bool) => !isSram (e.1 * 8))
    written := m.written.filter (fun (e : Nat × Bool) => !isSram (e.1 * 8))
    cleared := true, committed := [], cpoison := [], suspect := [] }

end Sys2Proof.Machine
end

