-- ==== Sys2Proof/Machine/Recorder.lean ====
section
/-!
DEFINITION. The event recorder (R407-R419): acceptance, delivery, staging, flushes, freezing and re-arming.
-/

namespace Sys2Proof.Machine

def recCap : Nat := 1048576
def recNear : Nat := 917504
def stageCap : Nat := 4096

/-! The recorder's own records (R410). -/
def hapFull : Hap := ⟨0, 1, 18, some 2, false⟩
def hapOverflow : Hap := ⟨0, 2, 18, some 1, false⟩
def hapRearmed : Hap := ⟨0, 3, 18, some 0, false⟩
def hapLost : Hap := ⟨0, 4, 18, some 1, false⟩
def hapNearFull : Hap := ⟨0, 5, 18, some 1, false⟩
def hapFreezeExpired : Hap := ⟨0, 7, 18, some 1, false⟩

def State.frozen (s : State) : Bool := s.fbit F.recStatus_frozen
def State.flushing (s : State) : Bool := s.fbit F.recStatus_flushing

/-- FLUSH_START (R413): not while frozen, except at power-fail, and not before a re-arm has erased its first block. -/
def State.flushStart (s : State) (powerFail : Bool) : State :=
  if s.flushing || s.recd.rearming.isSome || (s.frozen && !powerFail) then s else s.fset F.recStatus_flushing 1

/-- Delivery to the event rings and the Dray events stream (R412). -/
def State.deliver (s : State) (r : Record) : State := (s.eqRecord r).drayEvent r

/-- A record is staged under the next index (R413). -/
def State.stage (s : State) (r : Record) : State :=
  let q := s.recd.staging ++ [r]
  (({ s with recd := { s.recd with staging := q } }.wr R.recStaged (BitVec.ofNat 32 q.length)).wr R.recCount
    (s.rd R.recCount + 1))

/-- Whether a staged record or the number of them starts a flush (R413). -/
def State.flushDue (s : State) : Bool :=
  decide (s.recd.staging.length ≥ 3072) || s.recd.staging.any (fun r => s.aget F.recCfg_flushSev ≤ r.sev.toNat)

/-- NEAR_FULL and FULL (R415), after a record has taken index `i`. -/
def State.areaMarks (s : State) (i : Nat) : State :=
  if i + 1 = recNear then
    let r := s.mkRecord hapNearFull 0 [BitVec.ofNat 64 recNear]
    ((s.stage r).deliver r).fset F.recStatus_nearFull 1
  else if i + 2 = recCap then
    let r := s.mkRecord hapFull 0 [BitVec.ofNat 64 recCap]
    (((s.stage r).deliver r).fset F.recStatus_full 1).flushStart false
  else s

/-- A record is stored and delivered, or delivered with `UNKEPT` where it cannot be stored (R412, R415, R417). -/
def State.keep (s : State) (r : Record) : State :=
  if s.fbit F.recStatus_full then (s.bump R.recRefused).deliver { r with unkept := true }
  else if s.recd.staging.length ≥ stageCap then
    let s := { s with recd := { s.recd with
      ovfCount := s.recd.ovfCount + 1, ovfLast := r.time
      ovfFirst := if s.recd.ovfCount = 0 then r.time else s.recd.ovfFirst } }
    ((s.bump R.recOvf).fset F.recStatus_stageOvf 1).deliver { r with unkept := true }
  else
    let i := (s.rd R.recCount).toNat
    let s := ((s.stage r).deliver r).areaMarks i
    if s.aget F.recCfg_flushSev ≤ r.sev.toNat ∨ s.recd.staging.length ≥ 3072 then s.flushStart false else s

/-- What a source has raised in the present second (R411). -/
def State.rateRow (s : State) (r : Record) : RateRow :=
  (s.recd.rates.find? (fun e => e.block == r.block && e.unit == r.unit)).getD { block := r.block, unit := r.unit }

def State.setRate1 (s : State) (e : RateRow) : State :=
  { s with recd := { s.recd with rates := e :: s.recd.rates.filter (fun f => f.block ≠ e.block || f.unit ≠ e.unit) } }

/-- One record is accepted or suppressed (R411); while the recorder is stopped full, each one raised is refused (R415). -/
def State.accept (s : State) (r : Record) : State :=
  let e := s.rateRow r
  if s.fbit F.recStatus_full then s.keep r
  else if e.count ≥ s.aget F.recCfg_rate ∧ !r.priv ∧ r.sev.toNat < 2 then
    (s.setRate1 { e with suppressed := e.suppressed + 1, firstCode := if e.suppressed = 0 then r.code else e.firstCode }).bump
      R.recSuppressed
  else (s.setRate1 { e with count := e.count + 1 }).keep r

/-- The record accepted next: of those raised in the clock of the oldest, by ascending block and then unit (R411) [132]. -/
def nextRaised (l : List Record) (r : Record) : Record :=
  (l.takeWhile (fun x => x.clock == r.clock)).foldl (fun b x =>
    if x.block < b.block ∨ (x.block = b.block ∧ x.unit < b.unit) then x else b) r

/-- `RECORD_ACCEPT` (R411, R412): the record raised first is accepted. -/
def execRecordAccept (s : State) : Res :=
  match s.recd.raised with
  | [] => .next s
  | r :: rest =>
    let x := nextRaised rest r
    s.when s.power.chip ({ s with recd := { s.recd with raised := (r :: rest).erase x } }.accept x)

/-- RATE_SUPPRESSION (R411): at the end of the operating second one SUPPRESSED record for each source suppressed, with
that source in its `SOURCE`. -/
def State.rateEnd (s : State) : State :=
  let rows := s.recd.rates.filter (fun e => e.suppressed != 0)
  let s := { s with recd := { s.recd with rates := [] } }
  rows.foldl (fun s e =>
    let r := s.mkRecord ⟨0, 6, e.block, some 0, false⟩ e.unit [BitVec.ofNat 64 e.suppressed, e.firstCode.setWidth 64]
    { s with recd := { s.recd with raised := s.recd.raised ++ [r] } }) s

/-- `FLUSH_END` (R413, R414): every staged record stands in the flash area; those whose staging was uncorrectable, by
position, as LOST records stamped now. A restart by `SYS_RESTART` that waited for the flush follows (R484). -/
def execFlushEnd (lost : List Nat) (s : State) : Res :=
  let mark (i : Nat) (r : Record) : Record := if lost.contains i then s.mkRecord hapLost 0 [1] else r
  let new := (List.range s.recd.staging.length).map (fun i => mark i (s.recd.staging.getD i {}))
  let k := ((List.range s.recd.staging.length).filter (fun i => lost.contains i)).length
  let area := s.recd.area ++ new
  let t := { s with recd := { s.recd with staging := [], area := area, freezeReq := none } }
  let t := ((t.wr R.recStaged 0).wr R.recFlushed (BitVec.ofNat 32 area.length)).bumpBy R.recLost k
  let t := (t.bump R.recFlushes).fset F.recStatus_flushing 0
  let t := match s.recd.freezeReq with
    | some a => { t.fset F.recStatus_frozen 1 with recd := { t.recd with frozenS := 0 } }.tellAsker a
    | none => t
  s.when s.flushing (if s.power.restarting then t.chipHold 2 else t)

/-! Freezing and re-arming (R417, R418). -/

/-- A freeze: at once, or when the flush in progress has ended; refused (none) when frozen or asked for already. -/
def State.freeze (s : State) (a : Asker) : Option State :=
  if s.frozen || s.recd.freezeReq.isSome || s.recd.rearming.isSome then none
  else if s.flushing then some { s with recd := { s.recd with freezeReq := some a } }
  else some ({ s.fset F.recStatus_frozen 1 with recd := { s.recd with frozenS := 0 } }.tellAsker a)

/-- OVERFLOW, when records were lost in the freeze. -/
def State.overflowRecord (s : State) : State :=
  if s.recd.ovfCount = 0 then s
  else
    let r := s.mkRecord hapOverflow 0 [BitVec.ofNat 64 s.recd.ovfCount, s.recd.ovfFirst, s.recd.ovfLast]
    let s := (s.stage r).deliver r
    { s with recd := { s.recd with ovfCount := 0, ovfFirst := 0, ovfLast := 0 } }.fset F.recStatus_stageOvf 0

/-- An unfreeze: OVERFLOW first, then flushing resumes; refused (none) when not frozen. -/
def State.unfreeze (s : State) : Option State :=
  if !s.frozen then none
  else
    let s := (s.fset F.recStatus_frozen 0).overflowRecord
    some (if s.flushDue then s.flushStart false else s)

/-- A re-arm: only while frozen; the erase of the first block starts. -/
def State.rearm (s : State) (a : Asker) : Option State :=
  if !s.frozen || s.recd.rearming.isSome then none
  else some { (s.fset F.recStatus_frozen 0).fset F.recStatus_erasing 1 with recd := { s.recd with rearming := some a } }

def State.orIgnored (s : State) (t : Option State) : State := t.getD (s.ignoredIn 18)

/-- `REC_CTRL.CLR_CNT` (R419). -/
def State.recClrCnt (s : State) : State := s.zero [R.recOvf, R.recLost, R.recSuppressed, R.recFlushes]

/-- A write of `REC_CTRL`: a command acts with the key 0x2EC0. -/
def State.recCtrl (s : State) (v : W32) : State :=
  let s := if bitN v.toNat 4 then s.recClrCnt else s
  let cmd := fldN v.toNat 0 4
  if cmd = 0 then s
  else if fldN v.toNat 16 16 ≠ 0x2EC0 then s.ignoredIn 18
  else match cmd with
    | 1 => s.orIgnored (s.freeze .register)
    | 2 => s.orIgnored s.unfreeze
    | 3 => s.orIgnored (s.rearm .register)
    | _ => s.ignoredIn 18

def recCtrlWord (cmd : Nat) (key : BitVec 16) : W32 := BitVec.ofNat 32 (key.toNat * 65536 + cmd)

/-- `REC_FREEZE` (R417, R419): by `REC_CTRL.CMD`, with the key written. -/
def execRecFreeze (m : Master) (key : BitVec 16) (s : State) : Res :=
  s.asWrite m R.recCtrl (fun s => s.recCtrl (recCtrlWord 1 key))
/-- `REC_UNFREEZE` (R417). -/
def execRecUnfreeze (m : Master) (key : BitVec 16) (s : State) : Res :=
  s.asWrite m R.recCtrl (fun s => s.recCtrl (recCtrlWord 2 key))
/-- `REC_REARM` (R418). -/
def execRecRearm (m : Master) (key : BitVec 16) (s : State) : Res :=
  s.asWrite m R.recCtrl (fun s => s.recCtrl (recCtrlWord 3 key))
/-- `REC_CLR_CNT` (R419). -/
def execRecClrCnt (m : Master) (s : State) : Res :=
  s.asWrite m R.recCtrl (fun s => s.recClrCnt)

/-- `FREEZE_EXPIRED` (R417): the freeze has lasted `FRZ_MAX_S` seconds and ends by itself. -/
def execFreezeExpired (s : State) : Res :=
  match s.unfreeze with
  | none => .next s
  | some t => .next (t.raise hapFreezeExpired 0 [BitVec.ofNat 64 (s.aget F.recCfg_frzMaxS)])

/-- `REARM_ERASE_DONE` (R418): the first block is erased: REARMED is staged as index 0, the staged records are renumbered
from 1, OVERFLOW follows, and a flush starts. The command that asked completes. -/
def execRearmEraseDone (s : State) : Res :=
  let r := s.mkRecord hapRearmed 0 [BitVec.ofNat 64 s.recd.area.length, (s.rd R.recRefused).setWidth 64, (s.rd R.recArmed).setWidth 64]
  let q := r :: s.recd.staging
  let t := { s with recd := { s.recd with staging := q, area := [], rearming := none } }
  let t := ((t.wr R.recCount (BitVec.ofNat 32 q.length)).wr R.recStaged (BitVec.ofNat 32 q.length)).wr R.recFlushed 0
  let t := ((t.wr R.recArmed (BitVec.ofNat 32 s.time.tb3)).fset F.recStatus_full 0).fset F.recStatus_nearFull 0
  let t := (((t.deliver r).overflowRecord).flushStart false)
  match s.recd.rearming with
  | some a => .next (t.tellAsker a)
  | none => .next s

/-- `REARM_ERASE_COMPLETE` (R418): the remaining 15 blocks are erased. -/
def execRearmEraseComplete (s : State) : Res :=
  s.when (s.fbit F.recStatus_erasing && s.recd.rearming.isNone) (s.fset F.recStatus_erasing 0)

end Sys2Proof.Machine
end

