-- ==== Sys2Proof/Machine/Wf.lean ====
section
/-!
DEFINITION. Background work (R392-R406): the operating second with its health cycle, local scrub, sweep digests, hold-up
measurement and flash wear.
-/

namespace Sys2Proof.Machine

/-! The health score (R213). -/

/-- The deductions that hold, in the order of Table: Health deductions. -/
def State.deductions (s : State) : List Nat :=
  let on (c : Bool) (n : Nat) : Nat := if c then n else 0
  let now := s.time.tb3
  let field := (List.range 32).any (fun n => (s.dch n).rbFault || (s.dch n).chkFault) || (List.range 8).any (fun n => (s.lch n).rbFault)
  [ on (decide (s.actives.length < 30)) 300
  , on (s.fbit F.rfxStatus_degraded) 300
  , on (s.fbit F.rfxStatus_spareLost) 50
  , on (s.fbit F.wfStatus_holdupLow) 200
  , on (s.mod == .standby && recent now s.pair.diverge != []) 200
  , on (field || s.bogie.linkFault) 150
  , on (decide (s.fget F.pairStatus_lanes < 4)) 100
  , on (s.fbit F.wfFlash_halfAFail || s.fbit F.wfFlash_halfBFail || s.fbit F.pwrStatus_fwDegraded) 100
  , on (match s.integ.lastUe with | some t => decide (now < t + 3600) | none => false) 100
  , 50 * ((List.range 4).filter (fun p => s.fbit (F.ringPpStatus_down p))).length
  , 50 * ((List.range 4).filter (fun n => s.fbit (F.canChnStatus_xcvrFault n))).length ]

/-- The score: 1,000 minus the deductions, at least 0; 0 while a forced zero holds (R213, R214). -/
def State.score (s : State) : Nat :=
  if s.pair.forced = [] then 1000 - s.deductions.foldl (· + ·) 0 else 0

/-- Bit i for row i of the table. -/
def State.deductionMask (s : State) : Nat :=
  s.deductions.zipIdx.foldl (fun m e => m + bit (e.1 != 0) * 2 ^ e.2) 0

/-- Health-margin trigger (R215): the STANDBY asks the PRIMARY for a hand-over. -/
def State.marginCheck (s : State) : State :=
  let own := s.fget F.pairHealth_own
  let holds := s.mod == .standby && s.partner == .primary
    && decide (s.fget F.pairHealth_partner + s.aget F.pairCfg_hsMargin ≤ own)
  let n := if holds then s.pair.marginRuns + 1 else 0
  let s := { s with pair := { s.pair with marginRuns := n } }
  let quiet := match s.pair.lastSwitch with | some t => decide (t + 60 ≤ s.time.tb3) | none => true
  if holds && decide (s.aget F.pairCfg_hsDwell ≤ n) && quiet then s.send .handoverRequest else s

/-! Lateness (R399). -/

def hapWfLate : Hap := ⟨13, 4, 17, none, false⟩

/-- The intervals of the periodic clients (R396). -/
def wfInterval : Nat → Option Nat
  | 5 => some 600 | 6 => some 600 | 7 => some 600 | 8 => some 3600 | 10 => some 2592000 | 11 => some 1 | _ => none

/-- A client is late: its last completion (or scan start, before the first) is older than twice its interval; a scrub lap
exceeds `SCRUB_WARN_H`. -/
def State.wfIsLate (s : State) (c : Nat) : Bool :=
  if c ≤ 2 then decide ((s.rd (R.wfClcLap c)).toNat > s.aget F.wfCfg_scrubWarnH * 3600000)
  else match wfInterval c, s.wf.scanAt with
    | some i, some t0 => decide (max t0 (s.rd (R.wfClcLast c)).toNat + 2 * i < s.time.tb3)
    | _, _ => false

def State.lateCheck (s : State) : State :=
  (List.range 13).foldl (fun s c =>
    if s.wfIsLate c && !s.fbit ⟨R.wfLate, c, 1⟩ then (s.fset ⟨R.wfLate, c, 1⟩ 1).raise hapWfLate c [] else s) s

/-! Telemetry (R404, R405). -/

/-- Table: Telemetry record body. -/
def State.telemetryBody (s : State) : List Byte :=
  leBytes 4 (s.rd R.pairHealth).toNat ++ leBytes 4 s.deductionMask ++ leBytes 1 (modCode s.mod)
    ++ leBytes 1 (bit (s.fbit F.pairStatus_slot)) ++ leBytes 4 (s.rd R.sysTemp).toNat
    ++ leBytes 2 (s.rd R.pwrVin).toNat ++ leBytes 2 (s.rd R.dioLplus).toNat
    ++ leBytes 2 (s.fget F.wfHoldup_total) ++ leBytes 2 (s.fget F.wfFlash_wearPm) ++ leBytes 2 (s.rd R.wfLate).toNat
    ++ (List.range 8).flatMap (fun r => leBytes 4 (s.rd (R.memRgrLap r)).toNat)
    ++ leBytes 4 (s.rd R.brmAuditLap).toNat ++ leBytes 4 (s.rd R.pairSweepLap).toNat ++ leBytes 4 (s.rd R.wfBrmTime).toNat
    ++ List.replicate 28 0

def State.telemetry (s : State) : State :=
  if s.abit F.wfCfg_telemEn then
    (s.drayHist (streamRecord 0x0102 0 s.time.tb3 s.time.tb0s.toNat s.telemetryBody)).wfDone 11 0
  else s

/-- The health cycle, in the order of R404. -/
def State.healthCycle (s : State) : State :=
  let s := s.fset F.pairHealth_own s.score
  (s.marginCheck.lateCheck.telemetry).bump R.wfHealthCyc

/-- What an operating second does to a TB0 in HOLDOVER (R363, R364): the seconds, and 20 ns more of error bound. -/
def State.holdSecond (s : State) : State :=
  if s.fget F.timeStatus_tb0State = tbHoldover then
    (s.bump R.timeHoldS).bumpBy R.timeTb0Err 20
  else s

/-- `TB3_SECOND` (R358): TB3 seconds advance, and FRAM is updated; MC runs the health cycle (R404), and what counts operating
seconds goes on. -/
def execTb3Second (s : State) : Res :=
  let s1 := { s with time := { s.time with tb3 := s.time.tb3 + 1 } }
  let s2 := s1.holdSecond.rateEnd.timeLine
  let s2 := if s2.fbit F.recStatus_frozen then { s2 with recd := { s2.recd with frozenS := s2.recd.frozenS + 1 } } else s2
  let s2 := (if s.fbit F.sysStatus_mcRun then s2.healthCycle else s2).showBrm.showTrans
  s.when s.power.aos (if s.power.chip then s2 else s1)

/-! Local scrub (R397). -/

/-- The time a local scrub chain took, at most 4 µs (R393): no rule gives it, so it is open within that [131]. -/
def State.localTime (s : State) : State :=
  let (v, t) := s.take
  { t with wf := { t.wf with localNs := t.wf.localNs + v.toNat % 4001 } }

/-- `LOCAL_SCRUB_CHAIN` (R397): a drupelet scrubs 512 bytes of its own local, at the 512-byte unit `unit`; scratch
doublewords whose valid bit is clear are passed over. `lap` is the lap of client 2 in ms where this chain ends it. -/
def execLocalScrubChain (be : Fin 32) (unit : Fin 512) (found : Vector Ecc 64) (again spare : Bool) (lap : Option Nat)
    (s : State) : Res :=
  let base := 0x04000000 + be.val * 0x40000 + unit.val * 512
  let scr := scrBase + be.val * 0x40000
  let skip (a : Nat) : Bool := scr ≤ a && a < scr + scrLen
  let parked := (s.aget F.wfCfg_park).testBit (be.val / 8)
  let free := (s.dru be).st == .active && (s.dru be).win == none && s.findWork be == none
    && (vget s.clk (be.val / 8)).pll == .locked
  let t := (List.range 64).foldl (fun s k =>
    if skip (base + 8 * k) then s else s.scrubWord (base + 8 * k) (vget found k) again spare) s
  let t := match lap with | some ms => t.wfDone 2 ms | none => t
  s.when (s.up && free && !parked) (t.localTime.obsCount 0x0225)

/-! The sweep of the PRIMARY (R210, R398). -/

/-- The units of the sweep, ascending: 4 KiB pages of the active bank, the instance store and the class windows. -/
def State.sweepUnits (s : State) : List Nat :=
  (List.range ((s.hBankLen s.bank + 4095) / 4096)).map (s.bank / 4096 + ·)
    ++ (List.range 0x2000).map (0x2000 + ·)
    ++ ((List.range 0xE00).map (0x5200 + ·)).filter (fun u => s.tracked (u * 4096))

/-- The mask of the blocks of a unit that travel in the copy, and the CRC-64 of R85 over the others. -/
def State.sweepItem (s : State) (u : Nat) : SweepItem :=
  let out (k : Nat) : Bool := s.pair.dirty.has (u * 16 + k) || s.pair.inFlight.has (u * 16 + k)
  let blocks := (List.range 16).filter (fun k => !out k)
  { unit := u
    mask := BitVec.ofNat 16 ((List.range 16).foldl (fun m k => m + bit (out k) * 2 ^ k) 0)
    digest := blocks.foldl (fun d k => sigBytes d (s.mem.bytesAt (u * 4096 + k * 256) 256)) (BitVec.allOnes 64) }

/-- During carry-over, steps of the sweep that touch the instance store or a class window are suspended (R177). -/
def State.sweepHeld (s : State) (u : Nat) : Bool := s.olc.carry.isSome && decide (0x2000 ≤ u)

/-- The unit taken next. -/
def State.sweepNext (s : State) : Option Nat :=
  let us := s.sweepUnits
  match s.pair.sweepItems.getLast? with
  | some i => (us.find? (fun u => decide (i.unit < u))).or us.head?
  | none => (us.find? (fun u => decide (s.pair.sweepPos ≤ u))).or us.head?

/-- `SWEEP_DIGEST` (R398): the PRIMARY computes the digest of the next sweep unit, for the seal of this F-cycle. It waits for a
window commit in progress (R88). -/
def execSweepDigest (s : State) : Res :=
  match s.sweepNext with
  | none => .next s
  | some u =>
    let due := decide (s.pair.sweepItems.length < 16 * s.aget F.pairCfg_sweepUnits)
    let held := s.sweepHeld u || s.commitSpan (u * 4096) 4096
    let runs := s.mod == .primary && (s.partner == .standby || s.partner == .syncing) && s.scan.step == .copy
    s.when (runs && due && !held)
      ({ s with pair := { s.pair with sweepItems := s.pair.sweepItems ++ [s.sweepItem u] } }.obsCount 0x0225)

/-- At the seal: units whose excluded blocks changed since, and those after them, are left out and taken again; the sweep
position and the lap follow the units carried; `room` is how many the record holds (R210, R398, R506). -/
def State.sweepSeal (s : State) (room : Nat) : State × List SweepItem :=
  let want := 16 * s.aget F.pairCfg_sweepUnits
  let good := s.pair.sweepItems.takeWhile (fun i => (s.sweepItem i.unit).mask == i.mask && (s.sweepItem i.unit).digest == i.digest)
  let good := good.take room
  let s1 := s.bumpBy R.wfSweepShort (want - good.length)
  let s1 := { s1 with pair := { s1.pair with sweepItems := [] } }
  match good.getLast? with
  | none => (s1, [])
  | some l =>
    let last := s.sweepUnits.getLast?.getD 0
    let now := s.rd64 R.scanCycleLo
    let start := s.pair.sweepStart.getD (now - 1)
    let s1 := { s1 with pair := { s1.pair with sweepPos := if l.unit ≥ last then 0 else l.unit + 1, sweepStart := some start } }
    if good.any (fun i => decide (last ≤ i.unit)) then
      let n := (now - start).toNat
      let s1 := (s1.wr R.pairSweepLap (BitVec.ofNat 32 n)).wfDone 3 (n * s.fPeriod / 1000)
      ({ s1 with pair := { s1.pair with sweepStart := some now } }, good)
    else (s1, good)

/-! Hold-up and flash (R400-R403). -/

/-- The capacitance in µF of a section whose voltage drops by `dv` µV: 0.010 C / ΔV (R401). -/
def sectionUF (dv : Nat) : Nat := 10000000000 / max 1 dv

/-- `HOLDUP_MEASUREMENT` (R401, R402): client 10 begins a measurement (none), or completes it with the drops ΔV of the four
sections in µV. -/
def execHoldupMeasurement (dv : Option (Vector Nat 4)) (s : State) : Res :=
  match dv with
  | none =>
    let aged := match s.wf.scanAt with | some t => decide (t + 600 ≤ s.time.tb3) | none => false
    let ok := aged && s.fbit F.pwrStatus_vinOk && !s.fbit F.pwrStatus_pfWarn && !s.fbit F.pairStatus_lever
      && !s.fbit F.pairStatus_pLever && !s.fbit F.pairStatus_handover && s.abit F.wfCfg_holdupEn
    s.when (ok && s.fbit F.sysStatus_mcRun) (s.fset F.wfStatus_holdupRun 1)
  | some d =>
    let c := (List.range 4).map (fun k => sectionUF (vget d k))
    let sum := c.foldl (· + ·) 0
    let low := c.foldl min (c.headD 0)
    let mF (x : Nat) : Nat := min 4095 ((x + 500) / 1000)
    let t := ((s.fset F.wfHoldup_total (mF sum)).fset F.wfHoldup_lowest (mF low)).wr R.wfHoldupLast (BitVec.ofNat 32 s.time.tb3)
    let t := ((t.fset F.wfStatus_holdupRun 0).fsetb F.wfStatus_holdupLow (decide (sum < 60000))).wfDone 10 0
    s.when (s.fbit F.wfStatus_holdupRun) t

/-- A hold-up measurement is abandoned (R402). -/
def State.holdupAbort (s : State) : State :=
  if s.fbit F.wfStatus_holdupRun then (s.fset F.wfStatus_holdupRun 0).wfYield 10 else s

/-- `HOLDUP_ABORT` (R402): a power-fail, lever or hand-over trigger abandons the measurement. -/
def execHoldupAbort (s : State) : Res := s.when (s.fbit F.wfStatus_holdupRun) s.holdupAbort

/-- `WF_FLASH.WEAR_PM`: the highest erase count per mille of 30,000. -/
def State.showWear (s : State) : State :=
  s.fset F.wfFlash_wearPm (min 1000 (s.wf.erase.foldl (fun m e => max m e.2) 0 * 1000 / 30000))

/-- A migration ends. -/
def State.migrateEnd (s : State) : State :=
  { s.fset F.wfStatus_migrate 0 with wf := { s.wf with moving := none } }

/-- A migration is abandoned; the old copy stays valid (R400). -/
def State.migrateAbort (s : State) : State := if s.wf.moving.isSome then s.migrateEnd.wfYield 9 else s

/-- `FLASH_MIGRATION` (R400): firmware moves the data of a flash block: phase 0 starts the copy, 1 ends it, erases the
source and counts the erasure, 2 abandons it. `fail` are the halves found failed; `lap` the lap of client 9 in ms where one
ends. -/
def execFlashMigration (phase : Fin 3) (half : Fin 2) (src dst : Fin 8192) (fail : BitVec 2) (lap : Option Nat) (s : State) : Res :=
  let t := match phase.val with
    | 0 => if s.wf.moving = none then
        { s.fset F.wfStatus_migrate 1 with wf := { s.wf with moving := some (half.val, src.val, dst.val) } } else s
    | 1 => match s.wf.moving with
      | some (h, b, _) =>
        let k := h * 8192 + b
        { s.migrateEnd with wf := { s.wf with
          moving := none, erase := sset (fun _ => 0) s.wf.erase k (sget (fun _ => 0) s.wf.erase k + 1) } }.showWear
      | none => s
    | _ => s.migrateAbort
  let t := (t.fsetb F.wfFlash_halfAFail (t.fbit F.wfFlash_halfAFail || fail.getLsbD 0)).fsetb F.wfFlash_halfBFail
    (t.fbit F.wfFlash_halfBFail || fail.getLsbD 1)
  let t := match lap with | some ms => t.wfDone 9 ms | none => t
  s.when (s.fbit F.sysStatus_mcRun && !s.fbit F.pwrStatus_pfWarn) t

/-- `WF_CTRL.CLR_CNT` (R406). -/
def State.wfClrCnt (s : State) : State := s.zero (R.wfSweepShort :: (List.range 13).map R.wfClcPreempt)

/-- `WF_CLR_CNT` (R406). -/
def execWfClrCnt (m : Master) (s : State) : Res :=
  s.asWrite m R.wfCtrl (fun s => s.wfClrCnt)

end Sys2Proof.Machine
end

