-- ==== Sys2Proof/Machine/Scan.lean ====
section
/-!
DEFINITION. The F-cycle (R41-R50, R61-R72): boundaries, class commit and output publish, the per-cycle copy and its seal
on the sending side (R204-R207), late periods, watchdog trip, restart and scan start.
-/

namespace Sys2Proof.Machine

/-! Class commit (R45, R46, R505). -/

/-- The committed bytes at an address. -/
def Mem.cbytes (m : Mem) (a n : Nat) : List Byte := (List.range n).map (fun k => sget (fun _ => 0) m.committed (a + k))

/-- The `INIT` byte that stands for an output byte of a class, or zero (R505). -/
def State.initByte (s : State) (c : Cls) (off : Nat) : Byte :=
  match (s.syms s.bank).find? (fun y => y.kind == 2 && y.cls.window == c && y.off ≤ off && off < y.off + y.size) with
  | some y => s.mem.byte (s.bank + s.hInitOff s.bank + y.init + (off - y.off))
  | none => 0

/-- OUTPUT_UE_COMMIT (R505): an uncorrectable word of the output half of a class; the value that stands is written whole to
both copies, the error counted and recorded with its address and class. -/
def State.outputUe (s : State) (c : Cls) (w : Nat) : State :=
  let a := w * 8
  let stands :=
    if !s.mem.bad w then s.mem.bytesAt a 8
    else if s.mem.cpoison.has w then (List.range 8).map (fun k => s.initByte c (a + k - s.outBase c))
    else s.mem.cbytes a 8
  let m := s.mem.write a stands
  let m := { m with
    committed := (stands.zipIdx).foldl (fun (m : List Host.Cell) (e : Byte × Nat) => sset (fun _ => 0) m (a + e.2) e.1) m.committed
    cpoison := m.cpoison.del w }
  let s := { s with mem := m }.markDirty a 8
  let s := ((s.bump (R.memRgrUe (regNum a))).wr64 R.memUeLastLo (BitVec.ofNat 64 a)).wr R.memUeInfo (BitVec.ofNat 32 (regNum a))
  (s.fset F.memStatus_ueSeen 1).raise hapEcc (regNum a) [BitVec.ofNat 64 a, BitVec.ofNat 64 c.num]

/-- The working copy of a class's output half becomes its committed copy (R45). -/
def State.commitOutputs (s : State) (c : Cls) : State :=
  let lo := s.outBase c
  let here (w : Nat) : Bool := lo ≤ w * 8 && w * 8 < lo + 0x80000
  let ws := (s.mem.poison.map (·.1) ++ (s.mem.cpoison.map (·.1)).filter (fun w => !s.mem.poison.has w)).filter here
  let s := ws.foldl (fun s w => s.outputUe c w) s
  let kept := scopy (fun _ => (0 : Byte)) (fun a => lo ≤ a && a < lo + 0x80000) s.mem.bytes s.mem.committed
  { s with mem := { s.mem with committed := kept } }

/-- Whether a byte of the output half lies in an output run of a class's chains; error tasks commit with F (R122, R503). -/
def State.inRuns (s : State) (c : Cls) (off : Nat) : Bool :=
  (s.chains s.bank).any (fun d => d.cls.window == c
    && (s.outRun d.chain).1 ≤ off && off < (s.outRun d.chain).1 + (s.outRun d.chain).2)

/-- The scan-to-reflex mailbox takes the bits and words that the class's chains write (R12, R503). -/
def State.commitMailbox (s : State) (c : Cls) : State :=
  let b := s.outBase c
  let old := mailboxBytes s.rfx.s2r
  let new := (s.mem.cbytes (b + 0x7F040) 160).zipIdx.map (fun e => if s.inRuns c (0x7F040 + e.2) then e.1 else old.getD e.2 0)
  let m : Mailbox := {
    bits := BitVec.ofNat 256 (leNat (new.take 32))
    words := Vector.ofFn (fun (i : Fin 32) => BitVec.ofNat 32 (leNat ((new.drop (32 + 4 * i.val)).take 4))) }
  { s with rfx := { s.rfx with s2r := m } }

/-- Bytes of a symbol as a reader outside the scan sees them: kind 2 from the committed copy. -/
def State.symRead (s : State) (y : Sym) (off n : Nat) : List Byte :=
  let a := s.symAddr s.bank y + off
  if y.kind = 2 then s.mem.cbytes a n else s.mem.bytesAt a n

/-- `READ_SYM` commands that wait for a commit of this class have MC capture their bytes (R336, R378). -/
def State.captureSyms (s : State) (c : Cls) : State :=
  s.host.cmds.foldl (fun (s : State) (d : Cmd) =>
    match s.sym s.bank d.desc.modAddr with
    | some y =>
      if d.phase = .waitCommit ∧ y.cls.window = c then
        let g := s.mcAccess .read (s.symAddr s.bank y + d.desc.arg0.toNat) d.length
        if g.2 then
          g.1.modCmd d.id (fun d => { d with phase := .needOut, data := some (s.symRead y d.desc.arg0.toNat d.length) })
        else g.1.cmdDone d.id 0x0103 0
      else s
    | none => s) s

/-- One class commit, class slot `k` (R45, R46): outputs, forces, mailbox, publications with the period and its scan time (R304),
historian records with the F-cycle and the period's scan time (R351), captures. -/
def State.commitCls (s : State) (k : Nat) : State :=
  let c := Cls.ofCode (k + 1)
  let r := s.clsRun k
  let p := (r.doneIn.head?.map (·.2)).getD (r.cycle, r.freezeTime)
  let s := ((s.commitOutputs c).forceOutputs c).commitMailbox c
  let s := ((s.peerPublish c p.1 p.2).histCommit c (s.rd64 R.scanCycleLo) p.2).captureSyms c
  s.modCls k (fun r => { r with
    doneIn := r.doneIn.tail, running := r.running && (k == 0 || !r.complete || !r.doneIn.tail.isEmpty) })

/-! Output publish (R47). -/

/-- `DO_CMD` and `AO_CMD` of the committed F image (R231). -/
def State.scanCmd (s : State) : ScanCmd :=
  let b := s.outBase .f
  let word (off : Nat) : W32 := BitVec.ofNat 32 (leNat (s.mem.cbytes (b + off) 4))
  { dig := word 0x7F000, loops := Vector.ofFn (fun (i : Fin 8) => word (0x7F020 + 4 * i.val)) }

/-- The scan gap of a switch-over, at the end of the first publish after it, in µs (R218): from the last heartbeat of the
outgoing module, or the drop of its `TOKEN` if that is earlier. -/
def State.showGap (s : State) : State :=
  match s.pair.gapFrom with
  | none => s
  | some drop =>
    let start := if s.pair.heardAt.toNat < drop.toNat then s.pair.heardAt else drop
    { s.wr R.pairLastGap (BitVec.ofNat 32 ((s.time.tb1 - start).toNat / 1000)) with pair := { s.pair with gapFrom := none } }

/-- OUTPUT_PUBLISH: only while `TOKEN` is asserted (R47, R199). -/
def State.publish (s : State) (cs : List Cls) (cycle : W64) : State :=
  if !s.token then s
  else
    let c := s.scanCmd
    let s := s.showGap
    let s := { s with scan := { s.scan with pub := some c } }.emit (.publish c.dig c.loops.toList)
    cs.foldl (fun s k => s.canPublish k cycle) s

/-! The copy and its seal, on the sending side (R204-R207, R506). -/

/-- Whether this F-cycle ends with a seal: a PRIMARY whose partner is STANDBY or SYNCING (R42, R227). -/
def State.seals (s : State) : Bool := s.mod == .primary && (s.partner == .standby || s.partner == .syncing)

/-- The copy's CRC over address and data of a block (R206). -/
def copyCrcStep (crc : W64) (blk : Nat) (data : List Byte) : W64 := sigBytes crc (leBytes 8 (blk * 256) ++ data)

/-- One block of the copy; a block whose read the CAT refuses is not sent, and the copy is not sealed (R378). -/
def State.sendBlock (s : State) (b : Nat) : State :=
  let x := s.catAccess clsDrawbar 0 .read (b * 256)
  let s := x.1
  if x.2 then
    let data := s.mem.bytesAt (b * 256) 256
    { s.sendOnce (.copyBlock (s.rd64 R.scanCycleLo) b data) with
      pair := { s.pair with
        inFlight := s.pair.inFlight.add b, passed := s.pair.passed.add b, copyN := s.pair.copyN + 1, copyCrc := copyCrcStep s.pair.copyCrc b data } }
  else { s with pair := { s.pair with refused := true } }

/-- Sends every block whose bit is set and that has not been sent since its last write, while the Drawbar carries traffic; a block to
which a window commit in progress stores waits (R88). A block that holds an uncorrectable
word is never sent: with a STANDBY partner the PRIMARY releases the token (R386); otherwise R387 reinitialises it. -/
def State.sendDirty (s : State) : State :=
  let blocks := (s.pair.dirty.map (·.1)).filter (fun b => !s.pair.inFlight.has b && !s.commitOn b)
  let bad (b : Nat) : Bool := s.mem.badSpan (b * 256) 256
  if !s.dbCarries then s
  else if blocks.any bad ∧ s.partner = .standby then (s.fset F.memUeInfo_released 1).dropClaim 7
  else
    let s := (blocks.filter bad).foldl (fun s b => if regionOf (b * 256) = some .instance_ then s.reinitBlock b else s) s
    (blocks.filter (fun b => !s.mem.badSpan (b * 256) 256)).foldl State.sendBlock s

/-- DRAWBAR_COPY_START (R205). -/
def State.copyStart (s : State) : State :=
  { s with
    scan := { s.scan with step := .copy }
    pair := { s.pair with inFlight := [], passed := [], copyN := 0, copyCrc := BitVec.allOnes 64, refused := false } }.sendDirty

/-- The open chains, with their checkpoints (R82, R206). -/
def State.openChainList (s : State) : List OpenChain :=
  s.brm.restarts.map (·.2) ++ s.brm.yielded ++ (List.finRange 32).filterMap (fun i =>
    (s.dru i).win.bind (fun (w : Window) => if w.rep.isSome then none else some w.oc))

/-- The host rings item (R341). -/
def State.hostSeal (s : State) : HostSeal :=
  { taken := Vector.ofFn (fun (n : Fin 16) => s.rd (R.hostChnTaken n.val))
    done := Vector.ofFn (fun (n : Fin 16) => s.rd (R.hostChnDone n.val))
    cq := s.host.cq, eq := s.host.eq
    pend := (s.host.cmds.filter (fun c => c.phase == .done || (c.phase == .waitSeal && s.pair.handover.isSome))).map Cmd.comp }

/-- Newly agreed pair-wide plans (R224): their digests are equal on both modules; the PRIMARY names the second boundary
after this seal. -/
def State.nameBoundary (s : State) : State :=
  let cycle := s.rd64 R.scanCycleLo
  let new := (s.pendingDigests.filter (fun e => s.pair.pDigests.contains e && !s.pair.agreed.contains e.1)).map (·.1)
  if new.isEmpty then s
  else { s with pair := { s.pair with agreed := s.pair.agreed ++ new, applyAt := some (cycle + 2) } }

/-- The entry of a completed chain (R506). -/
def SigRec.done (r : SigRec) : DoneRec := { chain := r.chain, period := r.cycle.setWidth 16, execMask := r.execMask, sig := r.sig }

/-- The seal record of the copy that has ended, and the state without what it carries (R206, R506). -/
def State.makeSeal (s : State) (go : Bool) : State × SealRec :=
  let s := s.nameBoundary
  let opens := s.openChainList
  let host := s.hostSeal
  let room := 131072 - (768 + 296 * opens.length + 32 * host.pend.length + 24 * s.olc.forces.length)
  let idx := (sortNat (s.brm.newSigs.map (·.chain))).eraseDups
  let sorted := idx.flatMap (fun i => s.brm.newSigs.filter (fun r => r.chain == i))
  let chains := (sorted.take (room / 16)).map SigRec.done
  let x := s.sweepSeal ((room - 16 * chains.length) / 16)
  let s := x.1
  let r : SealRec := {
    cycle := s.rd64 R.scanCycleLo, scanTime := (s.clsRun 0).freezeTime
    handover := s.pair.handover.isSome, go := go, trip := false
    blocks := s.pair.copyN, crc := s.pair.copyCrc
    chains := chains, opens := opens, host := host, forces := s.olc.forces, mailbox := s.rfx.s2r
    package := s.olc.outcome, sweep := x.2, digests := s.pendingDigests, boundary := s.pair.applyAt
    score := s.fget F.pairHealth_own }
  ({ s with brm := { s.brm with newSigs := sorted.drop (room / 16) }, olc := { s.olc with outcome := none } }, r)

/-! F boundaries (R41, R49, R61). -/

/-- SHORTFALL_CHECK (R97). -/
def State.shortfallCheck (s : State) : State := s.fsetb F.brmStatus_shortfall (decide (s.actives.length < 30))

/-- A transition into or out of SERVICE that waits takes effect (R463). -/
def State.serviceMove (s : State) : State :=
  let t := { s with scan := { s.scan with service := none } }
  let runs := s.scan.run == .running
  match s.scan.service with
  | some true =>
    if s.mod = .alone ∨ s.mod = .stopped then ((t.enter .service).canPermit).endServiceCmds 0 else t.endServiceCmds 0x0103
  | some false =>
    if s.mod = .service then ((t.enter (if runs then .alone else .stopped)).canPermit).endServiceCmds 0 else t.endServiceCmds 0x0103
  | none => s

/-- What an F boundary brings before the freeze, on every module that runs the scan or follows it: switch and plans in the
order of R17, audit verdicts, drupelets and clusters that return, value writes, the observation port. -/
def State.boundaryWork (s : State) (n : W64) : State :=
  let s := (s.wr64 R.scanCycleLo n).bankSwitch n
  let s := s.planBoundary.applyVerdicts
  let s := s.admitPending.reenterHeld.shortfallCheck
  let s := if s.scanRuns then s.vwApply else s
  s.serviceMove.obsBoundary

/-- HANDOVER at a boundary (R215): a partner that is not READY ends the hand-over; with its seal acknowledged the PRIMARY takes
no freeze and drops `CLAIM`; an unacknowledged seal repeats step 1. True: the token has gone. -/
def State.handoverStep (s : State) : State × Bool :=
  match s.pair.handover with
  | none => (s, false)
  | some trigger =>
    if !s.bogie.pReady then (s.handoverEnd.endSwitchCmds 0, false)
    else if s.pair.handoverAcked then (s.dropClaim trigger, true)
    else ({ s with pair := { s.pair with handoverSent := false } }, false)

/-- The F-cycle of number `n` begins on the module that runs the scan, unless what the boundary brings takes the scan from it
(R214). -/
def State.beginCycle (s : State) (n : W64) : State :=
  let s := s.boundaryWork n
  let x := s.handoverStep
  if x.2 || !s.scanRuns then x.1 else x.1.freezeStep n (x.1.nBoundary n) (x.1.sBoundary n)

/-- The F-cycle is complete (R42): counted; a cycle whose boundary came meanwhile begins now (R61). -/
def State.cycleDone (s : State) : State :=
  let c := s.clsRun 0
  let s := ((s.execTime 0).bump (R.scanChnCount 0)).fsetb F.scanStatus_fLate c.late
  let s := { s with scan := { s.scan with step := .idle } }.modCls 0 (fun c => { c with running := false, due := false })
  if c.due then s.beginCycle (s.rd64 R.scanCycleLo + 1) else s

/-- The idle clocks of the drupelets in the F-cycle that ends, 1.2 for each ns that neither a window, nor the audit, nor a local
scrub chain took, are counted in units of 1,024 (R448) [44]. -/
def State.idleMark (s : State) : State :=
  let n := s.obs.idle + (s.windfallNs - s.auditSpent - s.wf.localNs) * 6 / 5
  { s.obsCountBy 0x0224 (n / 1024) with obs := { s.obs with idle := n % 1024 } }

/-- What every F boundary does at its own instant: the windfall time of the F-cycle that ends is shown (R406), N and S chains and
audit replicas are to yield (R49), and the shares of the audit are measured anew (R99). -/
def State.cycleMark (s : State) : State :=
  let t := s.nsYield.idleMark.wr R.wfBrmTime (BitVec.ofNat 32 ((s.auditSpent + s.wf.localNs) / 1000))
  { t with brm := { t.brm with cycleAt := s.time.tb1, fgNs := 0, auditNs := 0 }, wf := { t.wf with localNs := 0 } }

/-- `F_BOUNDARY` (R41): pending plans and switches are applied, N and S work yields, and the input freeze is taken. While the
previous F-cycle is not complete, this waits for its completion (R61). A STANDBY follows the boundary, and freezes where a
hand-over is due; in STOPPED the boundaries are counted (R67), and the cyclic buffers with a safe frame go on being sent (R63). During the takeover preparation they are counted, and one
that the takeover cycle spans begins no cycle (R217). -/
def execFBoundary (s : State) : Res :=
  let n := s.rd64 R.scanCycleLo + 1
  let s1 := { s with scan := { s.scan with bound := s.scanTime } }.cycleMark
  let half := BitVec.ofNat 64 (s.fPeriod * 500)
  let cut := match s.pair.takeoverEnd with | some t => decide ((s.scanTime + half).toNat < t.toNat) | none => false
  if s.scanRuns && s.pair.takeover then .next (s1.wr64 R.scanCycleLo n)
  else if s.scanRuns && cut then .next s
  else if s.scanRuns then
    let s1 := { s1 with pair := { s1.pair with takeoverEnd := none } }
    .next (if s.scan.step = .idle then s1.beginCycle n else s1.modCls 0 (fun c => { c with due := true }))
  else if s.mod = .standby ∧ s.scan.run = .running then
    let t := s1.boundaryWork n
    .next (if t.pair.handoverIn then
      (t.freezeStep n (t.nBoundary n) (t.sBoundary n)).fsetb F.pairStatus_claim true else t)
  else s.when (s.mod == .stopped) ((s1.wr64 R.scanCycleLo n).canStopped n)

/-! The rows of the cycle. -/

/-- What follows publish: the copy, or on a module that seals no copy the completion of the cycle with the GO decision and
the copy-map group (R42, R176, R227). -/
def State.afterPublish (s : State) : State :=
  if s.seals then s.copyStart
  else
    let s := if s.goDecision then s.carryStart else s
    (if s.agreedNow blkPair then s.planActivate blkPair else s).cycleDone

/-- Whether an N or S period commits in this F-cycle: its last chain completed in an earlier one (R46). -/
def State.commitDue (s : State) (k : Nat) : Bool :=
  match (s.clsRun k).doneIn with
  | (j, _, _) :: _ => j != s.rd64 R.scanCycleLo
  | [] => false

/-- `CLASS_COMMIT` (R45, R90): after the last F chain and the window commits in progress, the F commit and the N and S commits due make working copies visible, and
the outputs are published. -/
def execClassCommit (s : State) : Res :=
  let ks := 0 :: [1, 2].filter s.commitDue
  let cycle := s.rd64 R.scanCycleLo
  let t := (ks.foldl State.commitCls { s with scan := { s.scan with step := .publish } }).setStale false
  let t := (t.publish (ks.map (fun k => Cls.ofCode (k + 1))) cycle).dmaGo
  s.when (s.scanRuns && s.scan.step == .execute && (s.clsRun 0).complete && s.brm.etasks.isEmpty && !s.committing) t.afterPublish

/-- Windows that a copy held back at their end begin their commit (R205). -/
def State.endHolds (s : State) : State :=
  { s with brm := { s.brm with be := s.brm.be.map (fun (d : Drupelet) =>
      match d.win with
      | some w => match w.phase with | .copyHeld e => { d with win := some { w with phase := .committing e } } | _ => d
      | none => d) } }

/-- A dirty block waits for a window commit in progress (R88). -/
def State.copyWaits (s : State) : Bool := s.pair.dirty.any (fun (e : Nat × Bool) => s.commitOn e.1)

/-- `COPY_END` (R205): every dirty block has been sent since its last write; the seal record follows, with GO where the next
boundary is to be the switch boundary, and carry-over starts (R176, R177). -/
def execCopyEnd (s : State) : Res :=
  let s1 := s.sendDirty
  let go := s1.goDecision
  let x := s1.makeSeal go
  let t := x.1.sendOnce (.sealRec x.2)
  let bytes := BitVec.ofNat 32 (256 * s1.pair.copyN)
  let t := (t.wr R.pairCopyLast bytes).wr R.pairCopyMax (if (t.rd R.pairCopyMax).toNat < bytes.toNat then bytes else t.rd R.pairCopyMax)
  let t := { t with
    scan := { t.scan with step := .awaitSeal }
    pair := { t.pair with sealPending := some x.2.cycle, handoverSent := x.2.handover, sent := x.2 }
    host := { t.host with cmds := t.host.cmds.map (fun (c : Cmd) =>
      if c.phase = .done ∧ c.carried = none then { c with carried := some x.2.cycle } else c) } }
  let t := if go then t.carryStart else t
  -- a copy of which the CAT refused a block is not sealed: the cycle ends at its seal term
  let t := if s1.pair.refused then
    { s1 with scan := { s1.scan with step := .awaitSeal }, pair := { s1.pair with sealPending := none } } else t
  s.when (s.seals && s.scan.step == .copy && s.dbCarries && !s.copyWaits) (if s1.seals then t.endHolds else s1.endHolds)

/-- The commands whose completion a seal carried may be completed, or travel again (R341). -/
def State.sealCmds (s : State) (cycle : W64) (ok : Bool) : State :=
  { s with host := { s.host with cmds := s.host.cmds.map (fun (c : Cmd) =>
      if c.carried = some cycle then (if ok then { c with sealed := true } else { c with carried := none }) else c) } }

/-- `SEAL_TIMEOUT` (R207): no acknowledgement within the seal term, which begins at the end of publish while the Drawbar carries
nothing: the cycle completes unsealed; at the third in a row a
resynchronisation demand goes out. -/
def execSealTimeout (s : State) : Res :=
  let n := s.pair.unsealed + 1
  let t := (match s.pair.sealPending with | some c => s.sealCmds c false | none => s).bump R.pairSealMiss
  let t := { t with pair := { t.pair with sealPending := none, inFlight := [], unsealed := if n ≥ 3 then 0 else n } }
  let t := if n ≥ 3 then t.sendOnce .resyncDemand else t
  s.when (s.seals && (s.scan.step == .awaitSeal || (s.scan.step == .copy && !s.dbCarries))) t.endHolds.cycleDone

/-- `PERIOD_LATE` (R61): a period is not complete at its nominal end: counted, flagged for the next image, and for N and S
raised as an error event. -/
def execPeriodLate (k : Fin 3) (s : State) : Res :=
  let c := s.clsRun k.val
  let incomplete := if k = 0 then s.scan.step != .idle else s.periodOpen k.val
  let t := (s.bump (R.scanChnLate k.val)).modCls k.val (fun c => { c with late := true, lateFlag := true })
  let t := if k = 0 then t else t.event (0x003F + k.val) 1 0 [c.cycle]
  s.when (s.scanRuns && incomplete && !c.late) t

/-- `WATCHDOG_TRIP` (R62, R63): a period is not complete at its nominal end plus the tolerance. -/
def execWatchdogTrip (k : Fin 3) (s : State) : Res :=
  let incomplete := if k = 0 then s.scan.step != .idle else s.periodOpen k.val
  let tell (t : State) : State := if s.mod = .primary ∧ s.partner ≠ .off then t.send (.tripNotice (Cls.ofCode (k.val + 1))) else t
  s.when (s.scanRuns && incomplete) (tell (s.scanTrip k.val false))

/-! Restart and start (R67, R70-R72, R459). -/

/-- Every symbol of kind 0 and 2 takes its `INIT` bytes from the active bank (R67). -/
def State.coldInit (s : State) : State :=
  ((s.syms s.bank).filter (fun y => y.kind == 0 || y.kind == 2)).foldl (fun s y =>
    (s.wrMem (s.symAddr s.bank y) (s.symInit s.bank y)).markDirty (s.symAddr s.bank y) y.size) s

/-- The class periods written become those in force at the boundary from which the scan runs (R67, R68), where they obey R37
together; otherwise the old ones stay [128]. -/
def State.takePeriods (s : State) : State :=
  if (periodFault (s.rd R.scanFPeriod).toNat (s.rd R.scanNMult).toNat (s.rd R.scanSMult).toNat).isSome then s
  else { s with act := scopy regReset isPeriod s.regs s.act }

/-- The scan runs from F-cycle `n`, which begins N and S periods; the first image of each class has its first-scan flag. -/
def State.runFrom (s : State) (n : W64) (cold : Bool) : State :=
  let s := (if cold then s.coldInit else s).takePeriods
  let s := { s with scan := { s.scan with
    run := .running, nsOrigin := n, bound := s.scanTime, startReq := false, restartReq := none
    cls := s.scan.cls.map (fun (c : ClassRun) => { c with
      running := false, frozen := false, released := false, complete := false, due := false, late := false
      lateFlag := false, firstScan := true, doneIn := [] }) } }
  let s := (s.fset F.scanStatus_runstate 1).boundaryWork n
  if s.scanRuns then s.freezeStep n true (s.sBoundary n) else s

/-- The event queue is empty (R64). -/
def State.dropEvents (s : State) : State :=
  ({ s with scan := { s.scan with evq := [], evqLost := 0, evSnap := 0 } }.fset F.scanStatus_evqFull 0).wr R.scanEvqDepth 0

/-- `RESTART_BOUNDARY` (R67): at the first F boundary after an accepted restart the scan restarts warm or cold. -/
def execRestartBoundary (s : State) : Res :=
  match s.scan.restartReq with
  | none => .next s
  | some cold =>
    let alone := s.partner == .off
    let t := (s.enter (if alone then .alone else .primary)).canPermit
    let t := t.dropEvents.runFrom (s.rd64 R.scanCycleLo + 1) cold
    s.when (s.mod == .stopped && s.token) (if alone then t else t.send .resyncRequest)

/-- A start request (R70, R223, R459): accepted in CONFIG after its check with the token held; a module that lost its
partner while SYNCING asserts `CLAIM`, and the latch decides; otherwise ignored and counted. -/
def State.scanStart (s : State) : Option State :=
  let ready := s.mod == .config && s.fbit F.sysCfgStatus_done && !s.fbit F.sysCfgStatus_refused && s.scan.run == .notStarted
  if !ready then none
  else if s.token then some { s with scan := { s.scan with startReq := true } }
  else if s.pair.startReq223 then some ({ s with scan := { s.scan with startReq := true } }.fsetb F.pairStatus_claim true)
  else none

/-- `SCAN_CTRL_START` (R70). -/
def execScanCtrlStart (m : Master) (s : State) : Res :=
  s.asWrite m R.scanCtrl (fun s => s.scanStart.getD (s.ignoredIn blkScan))

/-- `SCAN_CTRL.CLR_MAX` (R70). -/
def State.scanClrMax (s : State) : State := s.zero [R.scanChnExecMax 0, R.scanChnExecMax 1, R.scanChnExecMax 2]

/-- `SCAN_CLR_MAX` (R70). -/
def execScanClrMax (m : Master) (s : State) : Res :=
  s.asWrite m R.scanCtrl (fun s => s.scanClrMax)

/-- A restart command (R67): only in STOPPED, from the module that holds the token. -/
def State.scanRestart (s : State) (cold : Bool) : Option State :=
  if s.mod = .stopped ∧ s.token then some { s with scan := { s.scan with restartReq := some cold } } else none

/-- A write of `SCAN_RESTART` (R72). -/
def State.scanRestartKey (s : State) (v : W32) : State :=
  if fldN v.toNat 0 16 = 0x5CA7 then (s.scanRestart (bitN v.toNat 16)).getD (s.ignoredIn blkScan) else s.ignoredIn blkScan

/-- `SCAN_RESTART` (R72). -/
def execScanRestart (m : Master) (v : W32) (s : State) : Res :=
  s.asWrite m R.scanRestart (fun s => s.scanRestartKey v)

/-- `SCAN_START_BOUNDARY` (R459): the scan starts cold at a frame boundary, the reflex program arms, and the module leaves
CONFIG: to PRIMARY with a partner heartbeat on either path, to ALONE without; after R223 to ALONE. -/
def execScanStartBoundary (s : State) : Res :=
  let paired := (s.fbit F.pairStatus_dbUp || s.fbit F.pairStatus_aliveUp) && !s.pair.startReq223
  let t := (s.enter (if paired then .primary else .alone)).rfxArmBank
  let t := { t with
    wf := { t.wf with scanAt := some t.time.tb3 }
    pair := { t.pair with startReq223 := false }
    scan := { t.scan with cls := t.scan.cls.map (fun (c : ClassRun) => { c with cycle := BitVec.allOnes 64 }) } }
  -- `PWR_BOOT_T`: from t0 to scan start in ms
  let ms := (s.time.tb1 - s.power.t0).toNat / 1000000
  let x := t.take
  let t := if ms < 0xFFFF then t.fset ⟨R.pwrBootT, 16, 16⟩ ms else x.2.fset ⟨R.pwrBootT, 16, 16⟩ (x.1.toNat % 65536)
  s.when (s.scan.startReq && s.mod == .config && s.token && !s.fbit F.pwrStatus_firstSec) (t.canPermit.runFrom 0 true)

/-- `REFLEX_FRAME_BOUNDARY` (R138): latches the mailbox and starts or queues a frame pass. While no F boundaries come, the
observation port's selections take effect here (R446, R477). While the chip is in reset the island keeps the cadence on its own
oscillator, and sends its held values (R196). -/
def execReflexFrameBoundary (s : State) : Res :=
  let t := s.frameBoundary
  if s.power.rails && s.power.chip then .next (if s.scanning then t else t.obsSwitch) else .next s.linkSend

end Sys2Proof.Machine
end

