-- ==== Sys2Proof/Machine/Boot.lean ====
section
/-!
DEFINITION. Power and the first second (R453-R467), the boot (R455, R456), the configuration check (R457, R482), power-fail,
restarts (R466, R484) and the OCXO (R26, R365).
-/

namespace Sys2Proof.Machine

/-! Loading a configuration (R457, R474). -/

/-- A register that a configuration sets: RWS, RWL and RW, less those the host's own operations and the flash of PWR keep. -/
def confReg (off : Nat) : Bool :=
  match regRow off with
  | some r => (r.access == .rws || r.access == .rwl || r.access == .rw) && off / 0x1000 != 0xF && off / 0x1000 != 0x15
      && off != R.hostRingEn && !isArr 0xB050 0x40 2 off && !isArr 0xB060 0x40 2 off
  | none => false

def isCatEntry (off : Nat) : Bool := decide (0xF400 ≤ off ∧ off < 0xF800) && off % 4 == 0

/-- A word of a CAT entry written by MC (R375). -/
def State.confCat (s : State) (e : Nat × W32) : State :=
  let k : Fin 128 := Fin.ofNat 128 ((e.1 - 0xF400) / 8)
  if e.1 % 8 = 0 then s.catWriteAddr .mc k e.2 else s.catWriteAttr .mc k e.2

/-- The register values of a configuration, reserved bits cut off (R6). -/
def confRegs (c : FlashCfg) : List (Nat × W32) :=
  (c.plans.regs.filter (fun (e : Nat × W32) => confReg e.1)).map (fun (e : Nat × W32) =>
    (e.1, e.2 &&& ((regRow e.1).elim 0 (·.mask))))

/-- The registers whose fields are out of range, all values standing together. -/
def State.confBad (s : State) (c : FlashCfg) : List Nat :=
  let t := (confRegs c).foldl (fun (s : State) (e : Nat × W32) => s.wr e.1 e.2) s
  ((confRegs c).filter (fun (e : Nat × W32) => !isPeriod e.1 && !t.inRange e.1 e.2)).map (·.1)

/-- MC loads a configuration: the windows, tasks and outputs of its program, its CAT entries and every register in range; the
plans become active. -/
def State.loadConfig (s : State) (c : FlashCfg) : State :=
  let bad := s.confBad c
  let s := { s with conf := {
    winF := c.winF, winN := c.winN, winS := c.winS, staging := c.staging, recArea := c.recArea, carryArea := c.carryArea
    tasks := c.plans.tasks, scanOut := c.plans.scanOut } }
  let s := (c.plans.regs.filter (fun (e : Nat × W32) => isCatEntry e.1)).foldl State.confCat s
  let s := { s with cat := { s.cat with eff := s.cat.committed } }
  let s := s.planSet { c.plans with regs := (confRegs c).filter (fun (e : Nat × W32) => !bad.contains e.1) }
  (((s.islandLoad 3).islandLoad 6).islandLoad 7).showIsland

/-! The configuration check (R457, R482). -/

/-- Checks 2, 3, 4, 7, 10 and 12 of R172 on the active bank: the code of the first that fails. -/
def State.bankFault (s : State) (c : FlashCfg) : Option Nat :=
  let b := s.bank
  if !s.bankFormOk b (s.hBankLen b) then some 0x01
  else if (s.keyOf b).isNone then some 0x02
  else if !s.sigOk b then some 0x03
  else if (s.chainCheck b (s.planItems {})).isSome then some 0x06
  else if (s.symTabCheck b).isSome then some 0x09
  else if !c.bankPlansOk then some 0x0B
  else none

/-- The first check that fails, in the order of R482: code, block, argument. -/
def State.configCheck (s : State) (c : FlashCfg) (bad : List Nat) : Option (Nat × Nat × Nat) :=
  let f := s.fPeriod
  let n := s.nMult
  let m := s.sMult
  let img := s.bank + s.hRfxImg s.bank
  let has := s.hRfxImg s.bank != 0
  let bind := s.actv R.rfxOutBind
  let armed := s.actv R.rfxArmIrise ||| s.actv R.rfxArmIfall
  let code := if has then s.mem.rfxCode img else []
  if !c.digestOk then some (0x01, 0, 0)
  else match sortNat bad with
  | off :: _ => some (0x09, off / 0x1000, off % 0x1000)
  | [] =>
    match periodFault f n m with
    | some k => some (0x05, 1, k)
    | none =>
      match s.bankFault c with
      | some k => some (0x02, 4, k)
      | none =>
        match s.classFault s.bank with
        | some d => some (0x0A, 1, d.cls.num)
        | none =>
          match s.admission s.bank c.plans.tasks (f * 1000) n m with
          | some k => some (0x03, 2, k)
          | none =>
            match (if has then s.mem.rfxFault img bind (s.actv R.dioDir) else none) with
            | some k => some (0x06, 3, k)
            | none =>
              match lowest (bind &&& c.plans.scanOut) with
              | some k => some (0x04, 3, k)
              | none =>
                match lowest (bind &&& ~~~ (rfxWrites code)) with
                | some k => some (0x07, 3, k)
                | none =>
                  (channelFault (s.actv R.dioDir) (s.actv R.dioPaired) bind armed (fun n => s.actv (R.dioChnCfg n)) code).map
                    (fun k => (0x08, 6, k))

/-- The module takes a configuration: loads it, checks it and reports (R457, R482). -/
def State.takeConfig (s : State) (c : FlashCfg) : State :=
  let bad := s.confBad c
  let s := s.loadConfig c
  let r := s.configCheck c bad
  let w := match r with
    | some (code, block, arg) => 3 + block * 4 + code * 256 + arg * 65536
    | none => 1
  (s.wr R.sysCfgStatus (BitVec.ofNat 32 w)).fsetb F.sysStatus_cfgRefused r.isSome

/-- The program that flash holds, in bank A, which is active (R167). -/
def State.loadProgram (s : State) : State :=
  let m := s.olc.flash.bank.foldl (fun (m : Mem) (e : Nat × Byte) => if e.1 < 0x1000000 then m.setByte e.1 e.2 else m) s.mem
  ({ s with mem := m }.fset F.olcStatus_activeBank 0).showBanks

/-- `CONFIG_CHECK_DONE` (R457): the check of the configuration in flash completes; CAN ports with a bit timing start,
PTP ports listen, and with `AUTOSTART` the module requests its own scan start (R459, R460). -/
def execConfigCheckDone (s : State) : Res :=
  let t := (s.takeConfig s.olc.flash).fset F.pwrStatus_cfgDone 1
  let ms := min 65535 ((s.time.tb1 - s.power.t0).toNat / 1000000)
  let t := t.wr R.pwrBootT (BitVec.ofNat 32 (ms + 0xFFFF0000))
  let t := t.canStart (BitVec.ofNat 4 ((List.range 4).foldl (fun m n => m + bit (t.canTiming n) * 2 ^ n) 0)) 0
  let auto := t.abit F.pwrCfg_autostart && !t.fbit F.sysCfgStatus_refused
  let t := { t with scan := { t.scan with startReq := auto } }
  s.when (s.mod == .config && !s.fbit F.pwrStatus_cfgDone) t.ptpUpdate

/-! Supply and rails. -/

/-- The supply as the AOS measures it, in `PWR_VIN` and `VIN_OK` (R467): 0 in the upper half stands for no lowest value yet. -/
def State.showSupply (s : State) (mv : Nat) : State :=
  let low := fldN (s.rd R.pwrVin).toNat 16 16
  let low := if low = 0 then mv else min low mv
  ({ s with power := { s.power with vin := mv } }.wr R.pwrVin (BitVec.ofNat 32 (mv % 65536 + low % 65536 * 65536))).fsetb
    F.pwrStatus_vinOk (between 4500 18000 mv)

def State.showBank (s : State) (mv : Nat) : State :=
  ({ s with power := { s.power with bank := mv } }.wr R.pwrVbank (BitVec.ofNat 32 (mv % 65536))).fsetb
    F.pwrStatus_holdupReady (s.fbit F.pwrStatus_holdupReady || decide (14000 ≤ mv))

/-- `SUPPLY_RISE` (R453, R358): the supply crosses 4.3 V; the AOS starts at t0 where it had stopped, in the slot that the Bogie's
strap names (R194). -/
def execSupplyRise (mv : BitVec 16) (slot : Slot) (s : State) : Res :=
  let t := { s with
    power := { s.power with aos := true, vin := mv.toNat }
    time := { s.time with pcc := min 65535 (s.time.pcc + 1) } }
  s.when (!s.power.aos && decide (4300 ≤ mv.toNat)) ((t.setMod .boot).fsetb F.pairStatus_slot (slot == .b))

/-- `CORE_RAILS_GOOD` (R453): the core rails rise: every register takes its power-on value, the time bases TB0 and TB1 start
at 0, no memory is initialised (R381, R472). -/
def execCoreRailsGood (mv : BitVec 16) (s : State) : Res :=
  let t := s.wipe true
  let t := { t with
    mem := s.mem.powerOn (s.time.pcc % 127)
    power := { t.power with rails := true, ocxo := true, waitSupply := false, bank := 0, t0 := 0 - 20000000 } }
  s.when (s.power.aos && !s.power.rails && decide (4500 ≤ mv.toNat)) ((t.wr R.sysResetCause 1).showSupply mv.toNat)

/-! Boot (R455, R456). -/

/-- One entry of the CAT boot table, committed and locked: page, pages after it, rights (RD 1, WR 2, EX 4), mask (R377). -/
def State.bootEntry (s : State) (e page pages rights mask : Nat) : State :=
  let a := BitVec.ofNat 32 (page + rights * 2 ^ 28)
  let t := BitVec.ofNat 32 (pages + mask * 2 ^ 22 + 2 ^ 30)
  { (s.wr (R.catEnteAddr e) a).wr (R.catEnteAttr e) t with
    cat := { s.cat with committed := sset regReset (sset regReset s.cat.committed (R.catEnteAddr e) a) (R.catEnteAttr e) t } }

/-- The boot table: the reflex locals for RFX and MC, the CAT block's page for MC, the Tally Cart window to read for MC, DMA
and OBS, and the instruction halves of the drupelet locals with no class given write. -/
def State.bootTable (s : State) : State :=
  let s := ((s.bootEntry 2 0x4800 0x1FF 7 0x06).bootEntry 3 0x1000F 0 3 0x04).bootEntry 4 0x11000 0xF 1 0x8C
  let s := (List.range 32).foldl (fun (s : State) k => s.bootEntry (5 + k) (0x4000 + k * 0x40) 0x1F 5 0x01) s
  { s with cat := { s.cat with eff := s.cat.committed } }.showCat

/-- The roles of the reflex engines that are not retired (R143, R147). -/
def State.bootRoles (s : State) : State :=
  let live := (List.range 4).filter (fun e => s.enState e != 3)
  let s := (List.range 4).foldl (fun (s : State) k => s.setSlot k (live.getD k rfxNone)) s
  (live.zipIdx.foldl (fun (s : State) (e : Nat × Nat) => s.fset (F.rfxEnmState_state e.1) (bit (e.2 == 3))) s).showRfx

/-- Registers loaded from FRAM and flash, and what follows from them (R456, R474). -/
def State.bootLoad (s : State) : State :=
  let s := s.setBoth R.pwrCfg s.power.cfgStored
  let n := s.recd.area.length
  let s := (s.wr R.recCount (BitVec.ofNat 32 n)).wr R.recFlushed (BitVec.ofNat 32 n)
  let s := (s.fsetb F.recStatus_nearFull (decide (recNear ≤ n))).fsetb F.recStatus_full (decide (recCap ≤ n))
  let total := s.fget F.wfHoldup_total
  let s := s.fsetb F.wfStatus_holdupLow (total != 0 && decide (total < 60))
  (s.showBrm.bootRoles).showWear

/-- Drupelets that the self-test at boot finds failed (R95). -/
def State.bootRetire (s : State) (lead check : BitVec 32) : State :=
  (List.finRange 32).foldl (fun (s : State) i =>
    if (s.dru i).st = .retired then s
    else if lead.getLsbD i.val then s.retire i 2 false (s.dru i).lastChain.toNat
    else if check.getLsbD i.val then s.retire i 2 true (s.dru i).lastChain.toNat
    else s) s

/-- The word FIRMWARE on the front display (R455). -/
def firmwarePage : List Byte := [0x46, 0x49, 0x52, 0x4D, 0x57, 0x41, 0x52, 0x45]

/-- BOOT_SEQUENCE (R456). -/
def State.bootSequence (s : State) (f : BootFind) : State :=
  let s := { s.bootTable with mem := s.mem.clearSram }
  let s := match f.flash with | some c => { s with olc := { s.olc with flash := c } } | none => s
  let s := s.bootLoad.loadProgram
  let s := s.bootRetire f.leadFails f.checkFails
  (s.setMod .config).showIsland

/-- What a module restart does on leaving reset (R466, R473): counted, and for PTP a loss of the parent. -/
def State.restarted (s : State) : State :=
  let s := (s.bump R.pwrRestarts).parentLost
  { s with power := { s.power with t0 := s.time.tb1 - 60000000 } }

/-- `CHIP_RESET_RELEASE` (R455, R456): the chip leaves reset, the loop outputs start again on the main path (R257), MC
verifies the firmware of half A, else of half B, and boots. The configured program follows the same rule. When both halves fail the module stays in BOOT. -/
def execChipResetRelease (f : BootFind) (s : State) : Res :=
  let powerOn := s.rd R.sysResetCause == 1
  let t := if powerOn then s else s.restarted
  let t := { t with power := { t.power with chip := true } }.mainPath 0xFF
  let t := ((t.setMod .boot).fset F.pwrStatus_firstSec 1).fset F.sysStatus_mcRun 1
  let t := (t.showSupply t.power.vin).showBank t.power.bank
  let dead := (!f.fwA && !f.fwB) || (!f.progA && !f.progB)
  let t := (t.fsetb F.pwrStatus_fwHalf (!f.fwA && f.fwB)).fsetb F.pwrStatus_fwDegraded (!f.fwA || !f.progA)
  let t := if dead then t.emit (.display firmwarePage) else (t.wr R.pwrFwVer f.fwVer).bootSequence f
  s.when (s.power.aos && s.power.rails && s.power.ocxo && !s.power.chip && !s.power.waitSupply) t

/-- `HOLDUP_READY` (R454): the hold-up bank reaches 14 V; the voltage in mV. -/
def execHoldupReady (mv : BitVec 16) (s : State) : Res :=
  s.when (s.power.rails && decide (14000 ≤ mv.toNat)) (s.showBank mv.toNat)

/-- `DOORBELL_RELEASE` (R332): at t0 + 600 ms the held doorbells are served. -/
def execDoorbellRelease (s : State) : Res :=
  s.when s.power.chip { s with power := { s.power with doorbells := true } }

/-- `CAN_FIRST_SECOND_RELEASE` (R314): at t0 + 900 ms. -/
def execCanFirstSecondRelease (s : State) : Res :=
  s.when s.power.chip { s with power := { s.power with can := true } }.canPermit

/-- `FIRST_SECOND_END` (R461): at t0 + 1 s the limits end. -/
def execFirstSecondEnd (s : State) : Res :=
  s.when s.power.chip { s.fset F.pwrStatus_firstSec 0 with power := { s.power with rates := [] } }

/-! Power-fail (R464-R466). -/

/-- `POWER_FAIL_WARNING` (R464): the supply stayed below 4.5 V for 1 ms. Before `HOLDUP_READY` no hand-over is asked for.
A re-arm's erase stops at the block in progress (R418). -/
def execPowerFailWarning (mv : BitVec 16) (s : State) : Res :=
  let t := ((s.showSupply mv.toNat).fset F.pwrStatus_pfWarn 1).fset F.pwrStatus_shutdown 1
  let t := (t.bump R.pwrPfCnt).migrateAbort.holdupAbort
  let t := if t.recd.rearming.isSome then t else t.fset F.recStatus_erasing 0
  let t := t.flushStart true
  let t := if s.fbit F.pwrStatus_holdupReady then t.startHandover 3 else t
  let t := if s.mod = .standby then t.setReady false else t
  s.when (s.power.chip && !s.fbit F.pwrStatus_pfWarn && decide (mv.toNat < 4500)) t

/-- `SHUTDOWN_POINT` (R464): the last heartbeat has gone; the AOS holds the chip in reset, `CLAIM` stands as it was. The
voltage of the bank in mV. -/
def execShutdownPoint (bank : BitVec 16) (s : State) : Res :=
  let t := s.chipHold 3
  s.when (s.power.chip && s.fbit F.pwrStatus_pfWarn)
    { t with power := { t.power with waitSupply := true, bank := bank.toNat } }

/-- `HOLDUP_EXHAUSTED` (R465): the AOS stops. The latch is powered only while the partner is: then a token held here passes
to a partner that asserts `READY` or `CLAIM`, or to none. -/
def execHoldupExhausted (partnerPowered : Bool) (s : State) : Res :=
  let mine := s.bogie.holder == some s.slot
  let t := if mine && partnerPowered then s.latchAway (s.bogie.pReady || s.bogie.pClaim) else s.tokenDrop false
  let t := if partnerPowered then t else { t with bogie := { t.bogie with holder := none, rising := none } }
  let t := t.wipe true
  let t := { t with power := { t.power with aos := false, rails := false, ocxo := false, waitSupply := false, vin := 0, bank := 0 } }
  s.when (s.power.aos && !s.power.chip) (t.setMod .off)

/-- `SUPPLY_RETURN_RESTART` (R466): the supply has stayed at or above 4.5 V for 20 ms after the shutdown point: the AOS
releases the chip. -/
def execSupplyReturnRestart (mv : BitVec 16) (s : State) : Res :=
  s.when (s.power.waitSupply && s.power.aos && decide (4500 ≤ mv.toNat))
    { s.showSupply mv.toNat with power := { s.power with waitSupply := false, vin := mv.toNat } }

/-! The OCXO (R26, R365). -/

/-- `OCXO_FAILURE` (R26): the OCXO stops or is more than 100 ppm off: the timekeeper stops and the AOS holds the chip in
reset. -/
def execOcxoFailure (s : State) : Res :=
  let t := s.chipHold 4
  s.when (s.power.rails && s.power.ocxo)
    { t with power := { t.power with ocxo := false }, time := { t.time with stopped := true } }

/-- `OCXO_RECOVERY` (R365): the outage, in ns as the crystal times it, is added to TB0 and TB1; a LOCKED TB0 enters HOLDOVER,
and its error bound grows by 50 ns for each second and 31 µs; the step is recorded and counted. -/
def execOcxoRecovery (outage : Nat) (s : State) : Res :=
  let old := s.tb0ns
  let t := s.setTb0 (s.tb0 + outage)
  let t := { t with
    time := { t.time with tb1 := t.time.tb1 + BitVec.ofNat 64 outage, stopped := false }
    power := { t.power with ocxo := true } }
  let t := if t.tb0State = tbLocked then ((t.fset F.timeStatus_tb0State tbHoldover).setRate t.lastRate).wr R.timeHoldS 0 else t
  let t := t.bumpBy R.timeTb0Err (50 * outage / 1000000000 + 31000)
  let t := (t.bump R.timeSteps).raise hapStep 0 [old, t.tb0ns, BitVec.ofNat 64 outage]
  s.when (s.power.aos && s.power.rails && !s.power.ocxo) t

/-! PWR and SYS operations. -/

/-- A write to `PWR_APPLY` (R467): `PWR_CFG` is stored in flash; a second one meanwhile is ignored (R16). -/
def State.pwrApply (s : State) : State :=
  if s.applyPend blkPwr then s.ignoredIn blkPwr
  else { s.fset ⟨R.sysApplyPend, blkPwr, 1⟩ 1 with power := { s.power with cfgPending := true } }

/-- `PWR_APPLY` (R467). -/
def execPwrApply (m : Master) (s : State) : Res :=
  s.asWrite m (0x1500C) (fun s => s.pwrApply)

/-- `PWR_CFG_STORED` (R467): the store in flash completes; `SYS_SHADOW_PEND` keeps its bit until the value is active. -/
def execPwrCfgStored (s : State) : Res :=
  s.when s.power.cfgPending { s.fset ⟨R.sysApplyPend, blkPwr, 1⟩ 0 with
    power := { s.power with cfgPending := false, cfgStored := s.rd R.pwrCfg } }

/-- `PWR_CTRL.CLR_CNT` (R467). -/
def State.pwrClrCnt (s : State) : State :=
  (s.zero [R.pwrPfCnt, R.pwrRestarts]).wr R.pwrVin (BitVec.ofNat 32 (s.power.vin % 65536 * 65537))

/-- `PWR_CLR_CNT` (R467). -/
def execPwrClrCnt (m : Master) (s : State) : Res :=
  s.asWrite m R.pwrCtrl (fun s => s.pwrClrCnt)

/-- `SYS_CTRL.CLR_CNT` (R481). -/
def State.sysClrCnt (s : State) : State := s.zero [R.sysBadAccess, R.sysIgnored, R.sysMcRestarts]

/-- `SYS_CLR_CNT`. -/
def execSysClrCnt (m : Master) (s : State) : Res :=
  s.asWrite m R.sysCtrl (fun s => s.sysClrCnt)

/-- A write to `SYS_RESTART` (R484): in the states allowed, `RESTART_PEND` is set, `READY` drops and a flush starts, and the
AOS holds the chip in reset when it has ended; otherwise ignored and counted. -/
def State.sysRestart (s : State) (v : W32) : State :=
  let m := s.mod
  let ok := m == .config || m == .syncing || m == .standby || m == .stopped || m == .service
  if fldN v.toNat 0 16 ≠ 0x3B0F ∨ !ok then s.ignoredIn 0
  else
    let t := (s.fset F.sysStatus_restartPend 1).setReady false
    let t := { t with power := { t.power with restarting := true } }.flushStart false
    if t.flushing then t else t.chipHold 2

/-- `SYS_RESTART` (R484). -/
def execSysRestart (m : Master) (v : W32) (s : State) : Res :=
  s.asWrite m R.sysRestart (fun s => s.sysRestart v)

def hapTemp : Hap := ⟨13, 6, 0, none, false⟩

/-- `CHIP_TEMPERATURE_WARNING` (R499): the chip temperature, in 0.1 °C, passes 105 °C: shown, and recorded at most once per
hour. -/
def execChipTemperatureWarning (temp : BitVec 16) (s : State) : Res :=
  let t := s.fset ⟨R.sysTemp, 0, 16⟩ temp.toNat
  let due := match s.power.lastTempRec with | some k => decide (k + 3600 ≤ s.time.tb3) | none => true
  let t := if due then
    { t with power := { t.power with lastTempRec := some s.time.tb3 } }.raise hapTemp 0 [temp.setWidth 64] else t
  s.when (s.power.chip && decide (1050 < temp.toInt)) t

end Sys2Proof.Machine
end

