-- ==== Sys2Proof/Machine/Host.lean ====
section
/-!
DEFINITION. Host ports and rings (R327-R343, R352, R353): doorbells, taking of descriptors, heads, enables, halts and
links, and the DMA channels' own events (R344-R346, R354).
-/

namespace Sys2Proof.Machine

/-! Taking descriptors (R333, R341, R342). -/

/-- The states in which a module executes commands (R335). -/
def State.executing (s : State) : Bool :=
  s.token && (s.mod == .primary || s.mod == .alone || s.mod == .service || s.mod == .stopped)
    || (s.mod == .config && s.power.roleDone && s.token)

/-- Whether a ring has a descriptor to take. -/
def State.takeable (s : State) (n : Nat) : Bool :=
  s.ringOn n && !s.fbit (F.hostChnErr_halted n) && !s.host.quiet.has n && s.rd (R.hostChnTaken n) != s.rd (R.hostChnProd n)

/-- The ring of a port served next, round-robin in ring index. -/
def State.nextRing (s : State) (p : Nat) : Option Nat :=
  let r0 := vget s.host.rr p
  ((List.range 8).map (fun k => p * 8 + (r0 + 1 + k) % 8)).find? s.takeable

/-- Opcodes of the table (R336), and those whose data are fetched from the host first. -/
def opAssigned (op : Nat) : Bool := decide (1 ≤ op ∧ op ≤ 0x1A)
def opDataIn (op : Nat) : Bool := op == 0x05 || op == 0x09 || op == 0x0E || op == 0x15 || op == 0x1A

/-- A descriptor with a reserved bit set or a field outside the range its opcode gives (R334). -/
def Cmd.bad (c : Cmd) : Bool :=
  let l := c.length
  let d := c.desc
  let hi := fldN d.modAddr.toNat 40 24 != 0
  let word0 := fldN d.word0.toNat 24 5 != 0
  let size := fldN d.arg1.toNat 0 4
  let badSize := size != 1 && size != 2 && size != 4 && size != 8
  let fixedHost := d.arg2.getLsbD 0
  let fixedMod := d.arg2.getLsbD 1
  let unit := if fldN d.modAddr.toNat 0 40 / 0x20000 = 0x10000000 / 0x20000 then 4 else 8
  word0 || match c.opcode with
  | 0x02 => l != 256
  | 0x03 => hi || decide (l < 4 ∨ 0x1000000 < l) || (fixedHost && (l % 8 != 0 || d.hostAddr.toNat % 8 != 0))
      || (fixedMod && (l % unit != 0 || d.modAddr.toNat % unit != 0))
  | 0x04 => false
  | 0x05 => decide (l < 8 ∨ 4096 < l) || l % 8 != 0
  | 0x06 => badSize || l != 0
  | 0x09 => decide (l < 256 ∨ 0x400000 < l) || l % 256 != 0
  | 0x0D => badSize || l != 0
  | 0x0E => l != 32
  | 0x11 => l != 0 || fldN d.arg1.toNat 0 16 != 0x5CA7
  | 0x12 => l != 0 || fldN d.arg1.toNat 0 16 != 0x5A17
  | 0x13 => l != 0 || fldN d.arg1.toNat 0 16 != 0x5E4C
  | 0x14 => l != 0 || fldN d.arg1.toNat 0 16 != 0x5E4C
  | 0x15 => l != 72
  | 0x16 => l % 64 != 0
  | 0x17 => l != 0 || fldN d.arg0.toNat 0 2 == 3
  | 0x18 => l % 4 != 0 || decide (0x10000 < l + d.modAddr.toNat)
  | 0x19 => hi || decide (l < 8 ∨ 0x40000000 < l)
  | 0x1A => decide (4096 < l) || l % 8 != 0 || fldN d.arg0.toNat 8 2 == 0 || fldN d.arg0.toNat 16 16 == 0
  | _ => l != 0

/-- The states each opcode is accepted in (Table: Command opcodes). -/
def opAllowed (op : Nat) (m : ModState) (partnerless : Bool) : Bool :=
  let pa := m == .primary || m == .alone
  let pas := pa || m == .service
  match op with
  | 0x06 | 0x07 | 0x08 | 0x0A | 0x0C | 0x0D => pas
  | 0x09 | 0x0B => pa
  | 0x0E | 0x0F | 0x14 => m == .service
  | 0x10 => m == .config
  | 0x11 => m == .stopped
  | 0x12 => m == .primary
  | 0x13 => m == .alone || (m == .stopped && partnerless)
  | _ => true

/-- A good descriptor is taken: an unassigned opcode completes at once; data that its command needs are fetched first. -/
def State.takeDesc (s : State) (n : Nat) (d : Desc) : State :=
  let t := s.rd (R.hostChnTaken n)
  let c : Cmd := { id := s.host.nextId, ring := n, count := t, desc := d }
  let dataIn := opDataIn c.opcode && !c.bad && c.length != 0 && opAllowed c.opcode s.mod (s.partner == .off)
  let c := { c with phase := if dataIn then .needIn else .ready }
  let s := { s with host := { s.host with
    cmds := s.host.cmds ++ [c], nextId := c.id + 1, rr := vset s.host.rr (n / 8) (n % 8) } }.wr (R.hostChnTaken n) (t + 1)
  let s := if s.rd (R.hostChnTaken n) = s.rd (R.hostChnProd n) then
    { s with host := { s.host with catchUp := s.host.catchUp.del n } } else s
  if !opAssigned c.opcode then s.cmdDone c.id 0x0100 0
  else s.dmaGo.completeAll

/-- `DESCRIPTOR_TAKE` (R333): the token holder fetches the next descriptor of a port's rings in round-robin and takes it.
A module that is STANDBY only checks it (R341). `desc` is what host memory holds at its place. -/
def execDescriptorTake (p : Fin 2) (desc : Desc) (s : State) : Res :=
  let own := bitN desc.word0.toNat 31
  let seq := fldN desc.word0.toNat 0 16
  if s.mod = .standby then
    let ahead (n : Nat) : Bool := s.ringOn n && vget s.host.fetched n != s.rd (R.hostChnProd n)
    match ((List.range 8).map (p.val * 8 + ·)).find? ahead with
    | none => .next s
    | some n =>
      let c := vget s.host.fetched n
      let s1 := { s with host := { s.host with fetched := vset s.host.fetched n (c + 1) } }
      s.when (s.engineOk p.val)
        (if !own then s1.ringError n 1 false else if seq ≠ c.toNat % 65536 then s1.ringError n 2 false else s1)
  else
    match s.nextRing p.val with
    | none => .next s
    | some n =>
      let c := (s.rd (R.hostChnTaken n)).toNat
      let bad := !own || seq != c % 65536
      let pending := (s.host.cmds.filter (fun d => d.port == p.val && d.phase == .done && d.carried.isNone)).length
      let t :=
        if bad && s.host.catchUp.has n then { s with host := { s.host with quiet := s.host.quiet.add n } }
        else if !own then s.ringError n 1 true
        else if bad then s.ringError n 2 true
        else s.takeDesc n desc
      s.when (s.executing && s.power.doorbells && s.engineOk p.val && s.cqRoom p.val
          && (s.partner != .standby || decide (pending < 64))) t

/-! Doorbells and heads (R332). -/

/-- A write to `HOST_CHn_DOORBELL` by a master: the count accepted, ignored, or a ring error. -/
def State.doorbell (s : State) (m : Master) (n : Nat) (v : W32) : State :=
  let wrong := (m == .host0 && decide (8 ≤ n)) || (m == .host1 && decide (n < 8))
  let a := s.rd (R.hostChnProd n) - s.rd (R.hostChnTaken n)
  let b := v - s.rd (R.hostChnTaken n)
  if wrong then s.ignoredIn 11
  else if b.toNat > s.ringSize n then s.ringError n 3 false
  else if b.toNat < a.toNat then s.ignoredIn 11
  else { s.wr (R.hostChnProd n) v with host := { s.host with quiet := s.host.quiet.del n } }

/-- `HOST_DOORBELL` (R332). -/
def execHostDoorbell (m : Master) (n : Fin 16) (v : W32) (s : State) : Res :=
  s.asWrite m (R.hostChnDoorbell n.val) (fun s => s.doorbell m n.val v)

/-- A write of the completion head frees room for taking (R333). -/
def State.setCqHead (s : State) (p : Nat) (v : W32) : State := (s.wr (R.hostPpCqHead p) v).completeAll
/-- A write of the event head frees room: waiting entries and lost markers are written (R340). -/
def State.setEqHead (s : State) (p : Nat) (v : W32) : State := (s.wr (R.hostPpEqHead p) v).eqServe p

/-- `HOST_CQ_HEAD` (R333). -/
def execHostCqHead (m : Master) (p : Fin 2) (v : W32) (s : State) : Res :=
  s.asWrite m (R.hostPpCqHead p.val) (fun s => s.setCqHead p.val v)
/-- `HOST_EQ_HEAD` (R340). -/
def execHostEqHead (m : Master) (p : Fin 2) (v : W32) (s : State) : Res :=
  s.asWrite m (R.hostPpEqHead p.val) (fun s => s.setEqHead p.val v)

/-- A write to `HOST_RING_EN` (R331, R353): a ring is enabled only with its port; enabling sets counts to 0 and ends a ring
halt; disabling stops taking. -/
def State.setRingEn (s : State) (v : W32) : State :=
  let old := (s.rd R.hostRingEn).toNat
  let ok (n : Nat) : Bool := bitN v.toNat n && bitN v.toNat (16 + n / 8)
  let new := (List.range 16).foldl (fun a n => a + bit (ok n) * 2 ^ n) (fldN v.toNat 16 2 * 65536)
  let s := s.wr R.hostRingEn (BitVec.ofNat 32 new)
  let s := [0, 1].foldl (fun s p =>
    if bitN new (16 + p) && !bitN old (16 + p) then
      { s with host := { s.host with
        cq := vset s.host.cq p 0, eq := vset s.host.eq p 0, eqWait := vset s.host.eqWait p [], eqDropped := vset s.host.eqDropped p 0 } }
    else s) s
  (List.range 16).foldl (fun s n =>
    if bitN new n && !bitN old n then
      let s := s.zero [R.hostChnProd n, R.hostChnTaken n, R.hostChnDone n]
      let s := { s with host := { s.host with
        fetched := vset s.host.fetched n 0, quiet := s.host.quiet.del n, catchUp := s.host.catchUp.del n } }
      (s.fset (F.hostChnErr_halted n) 0).fset ⟨R.hostStatus, n, 1⟩ 0
    else s) s

/-- `HOST_RING_EN` (R353). -/
def execHostRingEn (m : Master) (v : W32) (s : State) : Res :=
  s.asWrite m R.hostRingEn (fun s => s.setRingEn v)

/-! Halts and links (R329, R353). -/

/-- What a port's engine resumes with: completions and event entries that waited. -/
def State.engineGo (s : State) (p : Nat) : State := (s.eqServe p).completeAll

/-- `HOST_CTRL.RESUME`: the halted ring engines of the ports named retry their accesses. -/
def State.hostResume (s : State) (mask : BitVec 2) : State :=
  [0, 1].foldl (fun s p =>
    if mask.getLsbD p && s.fbit (F.hostPpStatus_halt p) then
      ((s.fset (F.hostPpStatus_halt p) 0).fset ⟨R.hostStatus, 16 + p, 1⟩ 0).engineGo p
    else s) s

/-- `HOST_CTRL.CLR_CNT`. -/
def State.hostClrCnt (s : State) : State :=
  (List.range 16).foldl (fun s n => s.fset (F.hostChnErr_count n) 0)
    (s.zero [R.hostPpEqLost 0, R.hostPpEqLost 1, R.hostPpCmds 0, R.hostPpCmds 1])

/-- `HOST_RESUME` (R353). -/
def execHostResume (m : Master) (mask : BitVec 2) (s : State) : Res :=
  s.asWrite m R.hostCtrl (fun s => s.hostResume mask)
/-- `HOST_CLR_CNT` (R353). -/
def execHostClrCnt (m : Master) (s : State) : Res :=
  s.asWrite m R.hostCtrl (fun s => s.hostClrCnt)

/-- `RING_ENGINE_HALT` (R353): a bus error on a descriptor fetch, or a completion or event write, halts a port's engine. -/
def execRingEngineHalt (p : Fin 2) (addr : W64) (write : Bool) (s : State) : Res :=
  let k := p.val
  let t := ((s.fset (F.hostPpStatus_halt k) 1).fsetb (F.hostPpStatus_faultWr k) write).wr64 (R.hostPpFaultLo k) addr
  s.when (s.engineOk k) (((t.fset ⟨R.hostStatus, 16 + k, 1⟩ 1).raise hapEngineHalt k [addr]).emit (.msix k 2))

/-- The channels that move data of a port. -/
def State.portChans (s : State) (p : Nat) : List Nat :=
  (List.range 16).filter (fun ch => s.fget (F.dmaChnStatus_state ch) == 1 && s.aget (F.dmaChnProg_port ch) == p)

/-- `HOST_LINK_LOSS` (R329): only this port stops; a DMA transfer in flight on it halts. -/
def execHostLinkLoss (p : Fin 2) (refLost : Bool) (s : State) : Res :=
  let k := p.val
  let t := ((s.fset (F.hostPpStatus_link k) 0).fset (F.hostPpStatus_speed k) 0).fset (F.hostPpStatus_width k) 0
  let t := if refLost then t.fset (F.hostPpStatus_refclk k) 0 else t
  s.when (s.fbit (F.hostPpStatus_link k)) ((s.portChans k).foldl (fun t ch => t.dmaHalt ch 7 false false 0) t)

/-- `HOST_LINK_UP` (R329): reference clock and link return, and the ring engine resumes. Speed and width as the register
codes them. -/
def execHostLinkUp (p : Fin 2) (speed width : BitVec 2) (s : State) : Res :=
  let k := p.val
  let t := ((s.fset (F.hostPpStatus_link k) 1).fset (F.hostPpStatus_speed k) speed.toNat).fset (F.hostPpStatus_width k) width.toNat
  s.when (s.power.chip && !s.fbit (F.hostPpStatus_link k) && speed != 0 && (width == 1 || width == 2))
    ((t.fset (F.hostPpStatus_refclk k) 1).engineGo k)

/-- `COMPLETION_BARRIER_DONE` (R339): the barrier read of a ring's oldest command completes and its completion proceeds. -/
def execCompletionBarrierDone (n : Fin 16) (s : State) : Res :=
  match s.host.cmds.find? (fun c => c.ring == n.val) with
  | some c => s.when c.barSent ((s.modCmd c.id (fun c => { c with barDone := true })).completeAll)
  | none => .next s

/-! Resuming after a switch-over (R342). -/

/-- A pending completion of the last seal, as a command that is executed and sealed: its completion is written under R339. -/
def compCmd (q : PendComp) (id : Nat) : Cmd :=
  { id := id, ring := q.ring, count := q.count, desc := { word0 := q.word0, tag := q.tag }, phase := .done
    status := q.status, result := q.result, lastAddr := q.barrier, sealed := true }

/-- RING_RESUME: the rings go on from the module's last seal: its pending completions are written under R339, the counts set, and the
event ring continued after the `ahead` entries the outgoing module wrote beyond its sealed count. With `PEER_DIFF` set the
rings halt instead (R343). -/
def State.ringResume (s : State) (ahead : Vector Nat 2) : State :=
  let h := s.pair.lastSeal.host
  let pend := h.pend.filter (fun q => s.ringOn q.ring && !s.fbit (F.hostPpStatus_peerDiff (q.ring / 8)))
  let s := { s with
    dma := {}
    host := { s.host with
      cmds := pend.mapIdx (fun i q => compCmd q (s.host.nextId + i)), nextId := s.host.nextId + pend.length
      cq := h.cq, quiet := [], fetched := Vector.replicate 16 0
      eq := Vector.ofFn (fun (p : Fin 2) => vget h.eq p.val + BitVec.ofNat 32 (vget ahead p.val)) } }
  let s := (List.range 16).foldl (fun s n =>
    if !s.ringOn n then s
    else if s.fbit (F.hostPpStatus_peerDiff (n / 8)) then
      (s.fset (F.hostChnErr_halted n) 1).fset ⟨R.hostStatus, n, 1⟩ 1
    else
      let s := (s.wr (R.hostChnTaken n) (vget h.taken n)).wr (R.hostChnDone n) (vget h.done n)
      { s with host := { s.host with catchUp := s.host.catchUp.add n } }) s
  ([0, 1].foldl (fun (s : State) p => if s.portOn p && s.fbit (F.hostPpStatus_peerDiff p) then s.emit (.msix p 2) else s) s).completeAll

end Sys2Proof.Machine
end

