-- ==== Sys2Proof/Machine/Dma.lean ====
section
/-!
DEFINITION. The DMA channels (R344-R346, R354): moving a command's data, halts and their resume.
-/

namespace Sys2Proof.Machine

/-- What an access on the module side gives: data, an error response, or a halt of the channel with its cause (5 refused by
the CAT, 6 uncorrectable). -/
inductive Moved where
  | data (b : List Byte)
  | error
  | halt (cause : Nat)
  deriving DecidableEq, Repr

/-- Whether a command's module side, or its host side, is fixed (R345): only `READ_MEM` names it. -/
def Cmd.fixedMod (c : Cmd) : Bool := c.opcode == 3 && c.desc.arg2.getLsbD 1
def Cmd.fixedHost (c : Cmd) : Bool := c.opcode == 3 && c.desc.arg2.getLsbD 0

/-- Where a command reads on the module side: `TC_READ` reads the cartridge window (R31). -/
def Cmd.modBase (c : Cmd) : Nat :=
  if c.opcode = 0x18 then 0x11000000 + fldN c.desc.modAddr.toNat 0 16 else fldN c.desc.modAddr.toNat 0 40

/-- The bytes of `n` 32-bit registers from an offset, read by class DMA. -/
def State.dmaRegs : Nat → Nat → State → State × List Byte
  | 0, _, s => (s, [])
  | n + 1, off, s =>
    let r := s.readReg clsDma off
    let t := State.dmaRegs n (off + 4) r.1
    (t.1, leBytes 4 (r.2.getD 0).toNat ++ t.2)

/-- One access or burst of `n` bytes on the module side at address `a` (R345, R346). In the setup window it is read in
aligned 4-byte accesses; another shape gets an error response (R5). -/
def State.dmaRead (s : State) (ch a n : Nat) : State × Moved :=
  let g := s.catAccess clsDma ch .read a
  if !g.2 then (g.1, .halt 5)
  else
    match regionOf a with
    | some .setup =>
      if a % 4 ≠ 0 ∨ n % 4 ≠ 0 then (s.badAccess clsDma (a % 0x20000) false false, .error)
      else if 0x13100 ≤ a % 0x20000 ∧ a % 0x20000 < 0x14000 ∧ !s.cartLink then (s.cartError, .error)
      else
        let r := State.dmaRegs (n / 4) (a % 0x20000) s
        (r.1, .data r.2)
    | some .cart => if s.cartLink then (s, .data (s.bay.window (a % 0x10000) n)) else (s.cartError, .error)
    | _ => if s.mem.badSpan a n then (s.eccUe a false, .halt 6) else (s, .data (s.view a n))

/-- The size of the next access on the module side: none crosses a 4 KiB boundary on either side (R345). -/
def Cmd.burst (c : Cmd) (off left : Nat) : Nat :=
  let a := c.modBase + off
  if c.fixedMod then (if regionOf c.modBase = some .setup then 4 else 8)
  else min (min left 256) (min (4096 - a % 4096) (if c.fixedHost then 256 else 4096 - (c.desc.hostAddr.toNat + off) % 4096))

/-- Host writes of a burst that begins `off` bytes into the data. -/
def State.dmaWrite (s : State) (c : Cmd) (off : Nat) (b : List Byte) : State :=
  if c.fixedHost then
    (List.range ((b.length + 7) / 8)).foldl (fun s k => s.emit (.hostWrite c.port c.desc.hostAddr ((b.drop (8 * k)).take 8))) s
  else s.emit (.hostWrite c.port (c.desc.hostAddr + BitVec.ofNat 64 off) b)

/-- Bytes counted for a channel. -/
def State.dmaCount (s : State) (ch n : Nat) : State :=
  let s := s.wr64 (R.dmaChnBytesLo ch) (s.rd64 (R.dmaChnBytesLo ch) + BitVec.ofNat 64 n)
  { s with dma := { s.dma with moved := vmod s.dma.moved ch (· + n) } }

/-- Data moved outward up to byte `stop`: the state, and what ended it early. An access to a block that a window commit in progress
stores to waits (R88). -/
def State.dmaMove (ch : Nat) (c : Cmd) (stop : Nat) : Nat → State → State × Option Moved
  | 0, s => (s, none)
  | k + 1, s =>
    let off := vget s.dma.moved ch
    if stop ≤ off then (s, none)
    else
      let n := max 1 (min (stop - off) (c.burst off (c.length - off)))
      let a := c.modBase + (if c.fixedMod then 0 else off)
      if c.data.isNone && s.commitSpan a n then (s, none) else
      let r := match c.data with
        | some d => (s, Moved.data ((d.drop off).take n))
        | none => s.dmaRead ch a n
      match r.2 with
      | .data b => State.dmaMove ch c stop k ((r.1.dmaWrite c off b).dmaCount ch n)
      | e => (r.1, some e)

/-- The command leaves its channel and completes. -/
def State.dmaFinish (s : State) (ch : Nat) (c : Cmd) (status result : Nat) : State :=
  let last := c.desc.hostAddr + BitVec.ofNat 64 (if c.fixedHost then 0 else (c.length - 1))
  let wrote := vget s.dma.moved ch != 0 && c.phase == .movingOut
  let s := if wrote then s.modCmd c.id (fun c => { c with lastAddr := some (last &&& ~~~3#64) }) else s
  ((s.dmaFree ch).cmdDone c.id status result).dmaGo

/-- Outward data moved up to byte `stop`; a failing access halts the channel or ends the command with 0x0108. -/
def State.dmaOut (s : State) (ch : Nat) (c : Cmd) (stop : Nat) : State :=
  let r := State.dmaMove ch c stop (stop + 1) s
  match r.2 with
  | some (.halt k) => r.1.dmaHalt ch k true false
      (BitVec.ofNat 64 (c.modBase + (if c.fixedMod then 0 else vget r.1.dma.moved ch)))
  | some _ => r.1.dmaFinish ch c 0x0108 (vget r.1.dma.moved ch)
  | none => r.1

/-- The command a channel moves data of. -/
def State.dmaCmd (s : State) (ch : Nat) : Option Cmd :=
  if s.fget (F.dmaChnStatus_state ch) = 1 then (vget s.dma.chan ch).bind s.cmd? else none

/-- `DMA_TRANSFER_DONE` (R345): a channel finishes moving a command's data; `data` is what it read from host memory. -/
def execDmaTransferDone (ch : Fin 16) (data : List Byte) (s : State) : Res :=
  let k := ch.val
  match s.dmaCmd k with
  | none => .next s
  | some c =>
    if c.phase = .movingIn then
      let t := s.modCmd c.id (fun c => { c with data := some data, phase := .ready })
      s.when (data.length == c.length) (((t.dmaCount k (c.length - vget s.dma.moved k)).dmaFree k).dmaGo)
    else
      let t := s.dmaOut k c c.length
      if vget t.dma.moved k = c.length ∧ (t.dmaCmd k).isSome then .next (t.dmaFinish k c c.status.toNat c.result.toNat)
      else .next t

/-- `DMA_HALT` (R346): a channel halts on the host side (cause 1 to 4, 7) at `addr` after `moved` bytes. -/
def execDmaHalt (ch : Fin 16) (cause : BitVec 3) (moved : Nat) (addr : W64) (s : State) : Res :=
  let k := ch.val
  match s.dmaCmd k with
  | none => .next s
  | some c =>
    let ok := cause == 1 || cause == 2 || cause == 3 || cause == 4 || cause == 7
    let t := if c.phase = .movingIn then s.dmaCount k (moved - vget s.dma.moved k) else s.dmaOut k c moved
    s.when (ok && decide (moved < c.length))
      (if (t.dmaCmd k).isSome then t.dmaHalt k cause.toNat false (c.phase == .movingOut) addr else t)

/-- A write of `DMA_CHn_RESUME` (R346, R354). -/
def State.dmaResume (s : State) (ch : Nat) (v : W32) : State :=
  let act := fldN v.toNat 0 2
  let halted := s.fget (F.dmaChnStatus_state ch) == 2
  if fldN v.toNat 16 16 ≠ 0xD4A1 ∨ !halted ∨ (act ≠ 1 ∧ act ≠ 2) then s.ignoredIn 12
  else
    let s := (s.fset (F.dmaChnStatus_state ch) 1).fset ⟨R.dmaStatus, ch, 1⟩ 0
    if act = 1 then s
    else
      match (vget s.dma.chan ch).bind s.cmd? with
      | some c => s.dmaFinish ch c 0x0200 (vget s.dma.moved ch)
      | none => (s.dmaFree ch).dmaGo

def dmaResumeWord (action : Nat) (key : BitVec 16) : W32 := BitVec.ofNat 32 (action + key.toNat * 65536)

/-- `DMA_RETRY` (R346). -/
def execDmaRetry (m : Master) (ch : Fin 16) (key : BitVec 16) (s : State) : Res :=
  s.asWrite m (R.dmaChnResume ch.val) (fun s => s.dmaResume ch.val (dmaResumeWord 1 key))
/-- `DMA_ABORT` (R346). -/
def execDmaAbort (m : Master) (ch : Fin 16) (key : BitVec 16) (s : State) : Res :=
  s.asWrite m (R.dmaChnResume ch.val) (fun s => s.dmaResume ch.val (dmaResumeWord 2 key))

/-- `DMA_CTRL.CLR_CNT`. -/
def State.dmaClrCnt (s : State) : State := s.zero ((List.range 16).map R.dmaChnFaults)

/-- `DMA_CLR_CNT` (R354). -/
def execDmaClrCnt (m : Master) (s : State) : Res :=
  s.asWrite m R.dmaCtrl (fun s => s.dmaClrCnt)

end Sys2Proof.Machine
end

