-- ==== Sys2Proof/Machine/DruCtl.lean ====
section
/-!
DEFINITION. Branches, jumps, special registers, windows and traps of the drupelets (R111, R123 to R128).
-/

namespace Sys2Proof.Machine

/-- The byte a conditional branch feeds to the signature (R85, R127). -/
def feedBranch (c : Core) (taken : Bool) : Core := { c with sig := sigByte c.sig (if taken then 1 else 0) }

/-- A conditional branch by a signed count of words (R127). -/
def State.branchOp (s : State) (be : Fin 32) (i : Instr) (cond : Core → Bool) (off : Int) : Res :=
  .next (s.instr be .clean i (fun s w =>
    let c := feedBranch w.core (cond w.core)
    (s, if cond w.core then jumpTo w c ((w.core.pc.toNat : Int) + off * 4) else .go { w with core := nextPc c })))

/-- A jump (R111, R123). -/
def State.jumpOp (s : State) (be : Fin 32) (i : Instr) (link : Bool) (target : Core → Int) : Res :=
  .next (s.instr be .clean i (fun s w =>
    (s, jumpTo w (if link then { w.core with lk := w.core.pc + 4 } else w.core) (target w.core))))

/-- The target of `JR` and `CALLR`: Ga, outside the bank when Ga[63:24] is not zero (R123). -/
def regTarget (c : Core) (a : Fin 32) : Int := ((gReg c a).toNat : Int)

/-- Special register `sel` as `MFS` reads it (R125). -/
def State.special (s : State) (w : Window) (sel : Nat) : W64 :=
  let c := w.core
  match sel with
  | 0 => c.ib.zeroExtend 64
  | 1 => c.pb.zeroExtend 64
  | 2 => c.cb.zeroExtend 64
  | 3 => c.lk.zeroExtend 64
  | 4 => c.fl
  | 5 => BitVec.ofNat 64 scrBase
  | 6 => BitVec.ofNat 64 w.oc.work.chain
  | 7 => BitVec.ofNat 64 (0x02000000 + w.oc.desc.instOff)
  | 8 => BitVec.ofNat 64 w.oc.desc.instLen
  | 9 => BitVec.ofNat 64 w.oc.desc.cls.num
  | 10 => BitVec.ofNat 64 (c.pb.toNat + 0x80000 + (s.outRun w.oc.work.chain).1)
  | _ => BitVec.ofNat 64 (s.outRun w.oc.work.chain).2

/-- A write of FL: the RW fields [9:0]; `EXM` stays (R108). -/
def flWrite (old v : W64) : W64 := (v &&& 0x3FF) ||| (old &&& 0x400)

/-- `IBSET` (R124): Sets IB to the chain range start plus (Ga + imm) × 16. -/
def execIbset (be a : Fin 32) (imm : BitVec 16) (s : State) : Res :=
  .next (s.instr be .clean (.ibset be a imm) (fun s w =>
    (s, .go { w with core := nextPc { w.core with
      ib := BitVec.ofNat 40 (0x02000000 + w.oc.desc.instOff + ((gReg w.core a).toNat + imm.toNat) * 16) } })))

/-- `CBSET` (R124): Sets CB to the active bank base plus (Ga + imm) × 256. -/
def execCbset (be a : Fin 32) (imm : BitVec 16) (s : State) : Res :=
  .next (s.instr be .clean (.cbset be a imm) (fun s w =>
    (s, .go { w with core := nextPc { w.core with
      cb := BitVec.ofNat 40 (s.bank + ((gReg w.core a).toNat + imm.toNat) * 256) } })))

/-- `MFS` (R125): Reads a special register into Gd. -/
def execMfs (be d a : Fin 32) (sel : Fin 12) (s : State) : Res :=
  .next (s.instr be .clean (.mfs be d a sel) (fun s w =>
    (s, .go { w with core := nextPc (gSet w.core d (s.special w sel.val)) })))

/-- `MTS` (R125): Writes Ga to the writable special register LK or FL. -/
def execMts (be d a : Fin 32) (sel : Fin 16) (s : State) : Res :=
  s.regOp be (.mts be d a sel) (fun c =>
    if sel = 3 then { c with lk := (gReg c a).extractLsb' 0 24 } else { c with fl := flWrite c.fl (gReg c a) })

/-- `NOP` (R126): Does nothing. -/
def execNop (be : Fin 32) (s : State) : Res :=
  s.regOp be (.nop be) id

/-- `WEND` (R126): Ends the window after this instruction. -/
def execWend (be : Fin 32) (s : State) : Res :=
  .next (s.instr be .clean (.wend be) (fun s w => (s, .last { w with core := nextPc w.core } false)))

/-- `CHEND` (R126): Ends the window and the chain. -/
def execChend (be : Fin 32) (s : State) : Res :=
  .next (s.instr be .clean (.chend be) (fun s w => (s, .last { w with core := nextPc w.core } true)))

/-- `TRAP` (R126): Raises the TRAP exception with imm16 as its code. -/
def execTrap (be : Fin 32) (imm : BitVec 16) (s : State) : Res :=
  .next (s.instr be .clean (.trap be imm) (fun s w => (s, .exc .trap w.core.pc imm 0)))

/-- `JR` (R123): PC ← Ga[23:0]. -/
def execJr (be a : Fin 32) (s : State) : Res :=
  s.jumpOp be (.jr be a) false (fun c => regTarget c a)

/-- `CALLR` (R123): LK ← PC + 4; PC ← Ga[23:0]. -/
def execCallr (be a : Fin 32) (s : State) : Res :=
  s.jumpOp be (.callr be a) true (fun c => regTarget c a)

/-- `RET` (R123): PC ← LK. -/
def execRet (be a : Fin 32) (s : State) : Res :=
  s.jumpOp be (.ret be a) false (fun c => (c.lk.toNat : Int))

/-- `BBS` (R127): Branches if the named bit of Ga is 1, feeding one signature byte. -/
def execBbs (be a : Fin 32) (bit : Fin 64) (off : BitVec 15) (s : State) : Res :=
  s.branchOp be (.bbs be a bit off) (fun c => (gReg c a).getLsbD bit.val) off.toInt

/-- `BBC` (R127): Branches if the named bit of Ga is 0, feeding one signature byte. -/
def execBbc (be a : Fin 32) (bit : Fin 64) (off : BitVec 15) (s : State) : Res :=
  s.branchOp be (.bbc be a bit off) (fun c => !(gReg c a).getLsbD bit.val) off.toInt

/-- `BEQ` (R127): Branches if Ga = Gb. -/
def execBeq (be a b : Fin 32) (off : BitVec 16) (s : State) : Res :=
  s.branchOp be (.beq be a b off) (fun c => gReg c a == gReg c b) off.toInt

/-- `BNE` (R127): Branches if Ga ≠ Gb. -/
def execBne (be a b : Fin 32) (off : BitVec 16) (s : State) : Res :=
  s.branchOp be (.bne be a b off) (fun c => gReg c a != gReg c b) off.toInt

/-- `BLT` (R127): Branches if Ga < Gb, signed. -/
def execBlt (be a b : Fin 32) (off : BitVec 16) (s : State) : Res :=
  s.branchOp be (.blt be a b off) (fun c => (gReg c a).slt (gReg c b)) off.toInt

/-- `BGE` (R127): Branches if Ga ≥ Gb, signed. -/
def execBge (be a b : Fin 32) (off : BitVec 16) (s : State) : Res :=
  s.branchOp be (.bge be a b off) (fun c => !(gReg c a).slt (gReg c b)) off.toInt

/-- `BLTU` (R127): Branches if Ga < Gb, unsigned. -/
def execBltu (be a b : Fin 32) (off : BitVec 16) (s : State) : Res :=
  s.branchOp be (.bltu be a b off) (fun c => (gReg c a).ult (gReg c b)) off.toInt

/-- `BGEU` (R127): Branches if Ga ≥ Gb, unsigned. -/
def execBgeu (be a b : Fin 32) (off : BitVec 16) (s : State) : Res :=
  s.branchOp be (.bgeu be a b off) (fun c => !(gReg c a).ult (gReg c b)) off.toInt

/-- `J` (R111): PC ← PC + sext(off26) × 4. -/
def execJ (be : Fin 32) (off : BitVec 26) (s : State) : Res :=
  s.jumpOp be (.j be off) false (fun c => (c.pc.toNat : Int) + off.toInt * 4)

/-- `CALL` (R111): LK ← PC + 4, then PC jumps by off26. -/
def execCall (be : Fin 32) (off : BitVec 26) (s : State) : Res :=
  s.jumpOp be (.call be off) true (fun c => (c.pc.toNat : Int) + off.toInt * 4)

end Sys2Proof.Machine
end

