-- ==== Sys2Proof/Machine/DruInt.lean ====
section
/-!
DEFINITION. The integer, bit-field and immediate instructions of the drupelets (R111 to R114).
-/

namespace Sys2Proof.Machine

/-! The operations on register values. -/

def wSext (x : Nat) : W64 := (BitVec.ofNat 32 x).signExtend 64
def ofBool64 (b : Bool) : W64 := BitVec.ofNat 64 (bit b)
def iMin : Int := -(2 ^ 63)
def iMax : Int := 2 ^ 63 - 1
def opMulh (a b : W64) : W64 := BitVec.ofInt 64 (a.toInt * b.toInt / 2 ^ 64)
def opMulhu (a b : W64) : W64 := BitVec.ofNat 64 (a.toNat * b.toNat / 2 ^ 64)

/-- Signed division: quotient, remainder and flags; by zero: 0, Ga and `DZI`; −2^63 by −1: −2^63, 0 and `IV` (R113). -/
def opDivS (a b : W64) : W64 × W64 × Nat :=
  if b = 0 then (0, a, flDZI)
  else if a.toInt = iMin ∧ b.toInt = -1 then (a, 0, flIV)
  else (BitVec.ofInt 64 (a.toInt.tdiv b.toInt), BitVec.ofInt 64 (a.toInt.tmod b.toInt), 0)

/-- Unsigned division (R113). -/
def opDivU (a b : W64) : W64 × W64 × Nat :=
  if b = 0 then (0, a, flDZI)
  else (BitVec.ofNat 64 (a.toNat / b.toNat), BitVec.ofNat 64 (a.toNat % b.toNat), 0)

/-- A value saturated to the signed 64-bit range, with `SAT` when it saturates (R112, R113). -/
def opSat (x : Int) : W64 × Nat :=
  if x < iMin then (BitVec.ofInt 64 iMin, flSAT) else if iMax < x then (BitVec.ofInt 64 iMax, flSAT) else (BitVec.ofInt 64 x, 0)

def opClz (a : W64) : W64 := if a = 0 then 64 else BitVec.ofNat 64 (63 - Nat.log2 a.toNat)
def opPopc (a : W64) : W64 := BitVec.ofNat 64 ((List.range 64).filter (fun i => a.getLsbD i)).length

/-- A shift or rotate by an amount of six bits (R112). -/
def opShift (k : ShKind) (a : W64) (n : Nat) : W64 :=
  match k with
  | .shl => a <<< n
  | .shr => a >>> n
  | .sar => a.sshiftRight n
  | .ror => a.rotateRight n

def amount (b : W64) : Nat := b.toNat % 64

/-- A register operation on Ga and Gb (R112). -/
def State.intOp (s : State) (be d a b : Fin 32) (i : Instr) (f : W64 → W64 → W64) : Res :=
  s.regOp be i (fun c => gSet c d (f (gReg c a) (gReg c b)))

/-- A register operation that may set flags (R113). -/
def State.intOpF (s : State) (be d a b : Fin 32) (i : Instr) (f : W64 → W64 → W64 × Nat) : Res :=
  s.regOp be i (fun c => setFlags (gSet c d (f (gReg c a) (gReg c b)).1) (f (gReg c a) (gReg c b)).2)

/-- An operation on Ga and a 16-bit immediate (R111). -/
def State.immOp (s : State) (be d a : Fin 32) (i : Instr) (f : W64 → W64) : Res :=
  s.regOp be i (fun c => gSet c d (f (gReg c a)))

/-- `ADD` (R112): Gd ← Ga + Gb modulo 2^64. -/
def execAdd (be d a b : Fin 32) (s : State) : Res :=
  s.intOp be d a b (.add be d a b) (fun x y => x + y)

/-- `SUB` (R112): Gd ← Ga − Gb modulo 2^64. -/
def execSub (be d a b : Fin 32) (s : State) : Res :=
  s.intOp be d a b (.sub be d a b) (fun x y => x - y)

/-- `AND` (R112): Gd ← Ga AND Gb. -/
def execAnd (be d a b : Fin 32) (s : State) : Res :=
  s.intOp be d a b (.and be d a b) (fun x y => x &&& y)

/-- `OR` (R112): Gd ← Ga OR Gb. -/
def execOr (be d a b : Fin 32) (s : State) : Res :=
  s.intOp be d a b (.or be d a b) (fun x y => x ||| y)

/-- `XOR` (R112): Gd ← Ga XOR Gb. -/
def execXor (be d a b : Fin 32) (s : State) : Res :=
  s.intOp be d a b (.xor be d a b) (fun x y => x ^^^ y)

/-- `SHL` (R112): Gd ← Ga shifted left by Gb[5:0]. -/
def execShl (be d a b : Fin 32) (s : State) : Res :=
  s.intOp be d a b (.shl be d a b) (fun x y => opShift .shl x (amount y))

/-- `SHR` (R112): Gd ← Ga shifted right by Gb[5:0], with zeros shifted in. -/
def execShr (be d a b : Fin 32) (s : State) : Res :=
  s.intOp be d a b (.shr be d a b) (fun x y => opShift .shr x (amount y))

/-- `SAR` (R112): Gd ← Ga shifted right arithmetically by Gb[5:0]. -/
def execSar (be d a b : Fin 32) (s : State) : Res :=
  s.intOp be d a b (.sar be d a b) (fun x y => opShift .sar x (amount y))

/-- `ROR` (R112): Gd ← Ga rotated right by Gb[5:0]. -/
def execRor (be d a b : Fin 32) (s : State) : Res :=
  s.intOp be d a b (.ror be d a b) (fun x y => opShift .ror x (amount y))

/-- `SLT` (R112): Gd ← 1 if Ga < Gb signed, else 0. -/
def execSlt (be d a b : Fin 32) (s : State) : Res :=
  s.intOp be d a b (.slt be d a b) (fun x y => ofBool64 (x.slt y))

/-- `SLTU` (R112): Gd ← 1 if Ga < Gb unsigned, else 0. -/
def execSltu (be d a b : Fin 32) (s : State) : Res :=
  s.intOp be d a b (.sltu be d a b) (fun x y => ofBool64 (x.ult y))

/-- `SEQ` (R112): Gd ← 1 if Ga = Gb, else 0. -/
def execSeq (be d a b : Fin 32) (s : State) : Res :=
  s.intOp be d a b (.seq be d a b) (fun x y => ofBool64 (x == y))

/-- `MIN` (R112): Gd ← signed minimum of Ga and Gb. -/
def execMin (be d a b : Fin 32) (s : State) : Res :=
  s.intOp be d a b (.min be d a b) (fun x y => if y.slt x then y else x)

/-- `MAX` (R112): Gd ← signed maximum of Ga and Gb. -/
def execMax (be d a b : Fin 32) (s : State) : Res :=
  s.intOp be d a b (.max be d a b) (fun x y => if x.slt y then y else x)

/-- `MINU` (R112): Gd ← unsigned minimum of Ga and Gb. -/
def execMinu (be d a b : Fin 32) (s : State) : Res :=
  s.intOp be d a b (.minu be d a b) (fun x y => if y.ult x then y else x)

/-- `MAXU` (R112): Gd ← unsigned maximum of Ga and Gb. -/
def execMaxu (be d a b : Fin 32) (s : State) : Res :=
  s.intOp be d a b (.maxu be d a b) (fun x y => if x.ult y then y else x)

/-- `MUL` (R112): Gd ← low 64 bits of Ga × Gb. -/
def execMul (be d a b : Fin 32) (s : State) : Res :=
  s.intOp be d a b (.mul be d a b) (fun x y => x * y)

/-- `MULH` (R112): Gd ← high 64 bits of the signed product. -/
def execMulh (be d a b : Fin 32) (s : State) : Res :=
  s.intOp be d a b (.mulh be d a b) (fun x y => opMulh x y)

/-- `MULHU` (R112): Gd ← high 64 bits of the unsigned product. -/
def execMulhu (be d a b : Fin 32) (s : State) : Res :=
  s.intOp be d a b (.mulhu be d a b) (fun x y => opMulhu x y)

/-- `DIV` (R113): Gd ← signed quotient; division by zero and overflow set flags. -/
def execDiv (be d a b : Fin 32) (s : State) : Res :=
  s.intOpF be d a b (.div be d a b) (fun x y => ((opDivS x y).1, (opDivS x y).2.2))

/-- `DIVU` (R113): Gd ← unsigned quotient; division by zero sets DZI. -/
def execDivu (be d a b : Fin 32) (s : State) : Res :=
  s.intOpF be d a b (.divu be d a b) (fun x y => ((opDivU x y).1, (opDivU x y).2.2))

/-- `REM` (R113): Gd ← signed remainder with the sign of Ga. -/
def execRem (be d a b : Fin 32) (s : State) : Res :=
  s.intOpF be d a b (.rem be d a b) (fun x y => (opDivS x y).2)

/-- `REMU` (R113): Gd ← unsigned remainder. -/
def execRemu (be d a b : Fin 32) (s : State) : Res :=
  s.intOpF be d a b (.remu be d a b) (fun x y => (opDivU x y).2)

/-- `ADDW` (R112): 32-bit add, with the result sign-extended. -/
def execAddw (be d a b : Fin 32) (s : State) : Res :=
  s.intOp be d a b (.addw be d a b) (fun x y => wSext (x.toNat + y.toNat))

/-- `SUBW` (R112): 32-bit subtract, with the result sign-extended. -/
def execSubw (be d a b : Fin 32) (s : State) : Res :=
  s.intOp be d a b (.subw be d a b) (fun x y => wSext ((x - y).toNat))

/-- `MULW` (R112): Low 32 bits of the product, sign-extended. -/
def execMulw (be d a b : Fin 32) (s : State) : Res :=
  s.intOp be d a b (.mulw be d a b) (fun x y => wSext (x.toNat * y.toNat))

/-- `ADDSAT` (R113): Signed saturating add, setting SAT on saturation. -/
def execAddsat (be d a b : Fin 32) (s : State) : Res :=
  s.intOpF be d a b (.addsat be d a b) (fun x y => opSat (x.toInt + y.toInt))

/-- `SUBSAT` (R113): Signed saturating subtract, setting SAT on saturation. -/
def execSubsat (be d a b : Fin 32) (s : State) : Res :=
  s.intOpF be d a b (.subsat be d a b) (fun x y => opSat (x.toInt - y.toInt))

/-- `CLZ` (R112): Gd ← count of leading zero bits of Ga. -/
def execClz (be d a : Fin 32) (s : State) : Res :=
  s.immOp be d a (.clz be d a) opClz

/-- `POPC` (R112): Gd ← count of one bits of Ga. -/
def execPopc (be d a : Fin 32) (s : State) : Res :=
  s.immOp be d a (.popc be d a) opPopc

/-- `SEL` (R112): Gd ← Ga if Gd ≠ 0, else Gb. -/
def execSel (be d a b : Fin 32) (s : State) : Res :=
  s.regOp be (.sel be d a b) (fun c => gSet c d (if gReg c d ≠ 0 then gReg c a else gReg c b))

/-- `ADDI` (R111): Gd ← Ga + sext(imm16). -/
def execAddi (be d a : Fin 32) (imm : BitVec 16) (s : State) : Res :=
  s.immOp be d a (.addi be d a imm) (fun x => x + imm.signExtend 64)

/-- `ANDI` (R111): Gd ← Ga AND zext(imm16). -/
def execAndi (be d a : Fin 32) (imm : BitVec 16) (s : State) : Res :=
  s.immOp be d a (.andi be d a imm) (fun x => x &&& imm.zeroExtend 64)

/-- `ORI` (R111): Gd ← Ga OR zext(imm16). -/
def execOri (be d a : Fin 32) (imm : BitVec 16) (s : State) : Res :=
  s.immOp be d a (.ori be d a imm) (fun x => x ||| imm.zeroExtend 64)

/-- `XORI` (R111): Gd ← Ga XOR zext(imm16). -/
def execXori (be d a : Fin 32) (imm : BitVec 16) (s : State) : Res :=
  s.immOp be d a (.xori be d a imm) (fun x => x ^^^ imm.zeroExtend 64)

/-- `SLTI` (R111): Signed compare of Ga with the immediate. -/
def execSlti (be d a : Fin 32) (imm : BitVec 16) (s : State) : Res :=
  s.immOp be d a (.slti be d a imm) (fun x => ofBool64 (x.slt (imm.signExtend 64)))

/-- `SLTIU` (R111): Unsigned compare of Ga with the sign-extended immediate. -/
def execSltiu (be d a : Fin 32) (imm : BitVec 16) (s : State) : Res :=
  s.immOp be d a (.sltiu be d a imm) (fun x => ofBool64 (x.ult (imm.signExtend 64)))

/-- `SHI` (R111): Shift or rotate by an immediate of the kind given in imm16[7:6]. -/
def execShi (be d a : Fin 32) (kind : ShKind) (amt : Fin 64) (s : State) : Res :=
  s.immOp be d a (.shi be d a kind amt) (fun x => opShift kind x amt.val)

/-- `LUI` (R111): Gd ← sext(imm16) × 65,536. -/
def execLui (be d : Fin 32) (imm : BitVec 16) (s : State) : Res :=
  s.regOp be (.lui be d imm) (fun c => gSet c d (imm.signExtend 64 * 65536))

/-- The field of `len1 + 1` bits from `pos` (R114). -/
def bfGet (x : W64) (pos len1 : Nat) : Nat := fldN x.toNat pos (len1 + 1)

/-- `BEXTU` (R114): Extracts a zero-extended bit field of Ga. -/
def execBextu (be d a : Fin 32) (pos len1 : Fin 64) (s : State) : Res :=
  s.immOp be d a (.bextu be d a pos len1) (fun x => BitVec.ofNat 64 (bfGet x pos.val len1.val))

/-- `BEXTS` (R114): Extracts a sign-extended bit field of Ga. -/
def execBexts (be d a : Fin 32) (pos len1 : Fin 64) (s : State) : Res :=
  s.immOp be d a (.bexts be d a pos len1) (fun x => BitVec.ofInt 64 (sextN (len1.val + 1) (bfGet x pos.val len1.val)))

/-- `BINS` (R114): Inserts the low bits of Ga into a field of Gd. -/
def execBins (be d a : Fin 32) (pos len1 : Fin 64) (s : State) : Res :=
  s.regOp be (.bins be d a pos len1) (fun c =>
    gSet c d (BitVec.ofNat 64 (setFldN (gReg c d).toNat pos.val (len1.val + 1) (gReg c a).toNat)))

end Sys2Proof.Machine
end

