-- ==== Sys2Proof/Machine/DruFp.lean ====
section
/-!
DEFINITION. The floating-point, fused multiply-add and conversion instructions of the drupelets (R115 to R117).
-/

namespace Sys2Proof.Machine

/-- An operand of precision P: binary32 operands lie in bits [31:0] (R115). -/
def fArg (p : Bool) (x : W64) : Nat := if p then x.toNat else x.toNat % 2 ^ 32

def fVal (p : Bool) (x : W64) : FVal := (ffmt p).unpack (fArg p x)

/-- A floating-point operation on Ga and Gb: the result and its sticky flags (R115). -/
def State.fpOp (s : State) (be d a b : Fin 32) (i : Instr) (f : RMode → W64 → W64 → Nat × FFlags) : Res :=
  s.regOp be i (fun c =>
    let r := f (coreRM c) (gReg c a) (gReg c b)
    setFlags (gSet c d (BitVec.ofNat 64 r.1)) r.2)

/-- A fused multiply-add; `np` negates the product, `nc` the addend (R116). -/
def State.fmaOp (s : State) (be d a b c : Fin 32) (p : Bool) (i : Instr) (np nc : Bool) : Res :=
  s.regOp be i (fun k =>
    let x := fVal p (gReg k a)
    let z := fVal p (gReg k c)
    let r := ffma (ffmt p) (coreRM k) (if np then x.neg else x) (fVal p (gReg k b)) (if nc then z.neg else z)
    setFlags (gSet k d (BitVec.ofNat 64 r.1)) r.2)

/-- A comparison (R116). -/
def fCmp (p : Bool) (quiet : Bool) (f : FVal → FVal → Bool) (x y : W64) : Nat × FFlags :=
  let a := fVal p x
  let b := fVal p y
  (bit (!a.isNaN && !b.isNaN && f a b), if quiet then snanFlag [a, b] else if a.isNaN || b.isNaN then fNV else 0)

/-- A conversion to an integer within a range (R117). -/
def fCvt (p : Bool) (rm : RMode) (lo hi : Int) (x : W64) : Nat × FFlags :=
  let r := fToInt rm lo hi (fVal p x)
  ((BitVec.ofInt 64 r.1).toNat, r.2)

/-- `FADD` (R115): Floating-point add in binary32 or binary64. -/
def execFadd (be d a b : Fin 32) (p : Bool) (s : State) : Res :=
  s.fpOp be d a b (.fadd be d a b p) (fun rm x y => fadd (ffmt p) rm (fVal p x) (fVal p y))

/-- `FSUB` (R115): Floating-point subtract. -/
def execFsub (be d a b : Fin 32) (p : Bool) (s : State) : Res :=
  s.fpOp be d a b (.fsub be d a b p) (fun rm x y => fsub (ffmt p) rm (fVal p x) (fVal p y))

/-- `FMUL` (R115): Floating-point multiply. -/
def execFmul (be d a b : Fin 32) (p : Bool) (s : State) : Res :=
  s.fpOp be d a b (.fmul be d a b p) (fun rm x y => fmul (ffmt p) rm (fVal p x) (fVal p y))

/-- `FDIV` (R115): Floating-point divide. -/
def execFdiv (be d a b : Fin 32) (p : Bool) (s : State) : Res :=
  s.fpOp be d a b (.fdiv be d a b p) (fun rm x y => fdiv (ffmt p) rm (fVal p x) (fVal p y))

/-- `FMIN` (R116): Floating-point minimum with the NaN and signed-zero rules. -/
def execFmin (be d a b : Fin 32) (p : Bool) (s : State) : Res :=
  s.fpOp be d a b (.fmin be d a b p) (fun _ x y => fminmax (ffmt p) false (fArg p x) (fArg p y))

/-- `FMAX` (R116): Floating-point maximum with the NaN and signed-zero rules. -/
def execFmax (be d a b : Fin 32) (p : Bool) (s : State) : Res :=
  s.fpOp be d a b (.fmax be d a b p) (fun _ x y => fminmax (ffmt p) true (fArg p x) (fArg p y))

/-- `FABS` (R116): Clears the sign bit of Ga, setting no flag. -/
def execFabs (be d a b : Fin 32) (p : Bool) (s : State) : Res :=
  s.fpOp be d a b (.fabs be d a b p) (fun _ x _ => (fArg p x % (ffmt p).signBit, 0))

/-- `FNEG` (R116): Inverts the sign bit of Ga, setting no flag. -/
def execFneg (be d a b : Fin 32) (p : Bool) (s : State) : Res :=
  s.fpOp be d a b (.fneg be d a b p) (fun _ x _ => (Nat.xor (fArg p x) (ffmt p).signBit, 0))

/-- `FEQ` (R116): Gd ← 1 if Ga = Gb; NV only for a signalling NaN. -/
def execFeq (be d a b : Fin 32) (p : Bool) (s : State) : Res :=
  s.fpOp be d a b (.feq be d a b p) (fun _ x y => fCmp p true feqVal x y)

/-- `FLT` (R116): Gd ← 1 if Ga < Gb; NV on any NaN. -/
def execFlt (be d a b : Fin 32) (p : Bool) (s : State) : Res :=
  s.fpOp be d a b (.flt be d a b p) (fun _ x y => fCmp p false fltVal x y)

/-- `FLE` (R116): Gd ← 1 if Ga ≤ Gb; NV on any NaN. -/
def execFle (be d a b : Fin 32) (p : Bool) (s : State) : Res :=
  s.fpOp be d a b (.fle be d a b p) (fun _ x y => fCmp p false (fun a b => !fltVal b a) x y)

/-- `FCVTI` (R117): Float to signed 64-bit integer, rounded in RM. -/
def execFcvti (be d a b : Fin 32) (p : Bool) (s : State) : Res :=
  s.fpOp be d a b (.fcvti be d a b p) (fun rm x _ => fCvt p rm iMin iMax x)

/-- `FCVTU` (R117): Float to unsigned 64-bit integer, rounded in RM. -/
def execFcvtu (be d a b : Fin 32) (p : Bool) (s : State) : Res :=
  s.fpOp be d a b (.fcvtu be d a b p) (fun rm x _ => fCvt p rm 0 (2 ^ 64 - 1) x)

/-- `ICVTF` (R117): Signed 64-bit integer to float of precision P. -/
def execIcvtf (be d a b : Fin 32) (p : Bool) (s : State) : Res :=
  s.fpOp be d a b (.icvtf be d a b p) (fun rm x _ => intToF (ffmt p) rm x.toInt)

/-- `UCVTF` (R117): Unsigned 64-bit integer to float of precision P. -/
def execUcvtf (be d a b : Fin 32) (p : Bool) (s : State) : Res :=
  s.fpOp be d a b (.ucvtf be d a b p) (fun rm x _ => intToF (ffmt p) rm x.toNat)

/-- `FWIDEN` (R117): binary32 to binary64; P must be 1. -/
def execFwiden (be d a b : Fin 32) (s : State) : Res :=
  s.fpOp be d a b (.fwiden be d a b) (fun rm x _ => fConv (ffmt true) rm (fVal false x))

/-- `FNARROW` (R117): binary64 to binary32 rounded in RM; P must be 0. -/
def execFnarrow (be d a b : Fin 32) (s : State) : Res :=
  s.fpOp be d a b (.fnarrow be d a b) (fun rm x _ => fConv (ffmt false) rm (fVal true x))

/-- `FCVTIZ` (R117): Float to signed integer, rounded toward zero. -/
def execFcvtiz (be d a b : Fin 32) (p : Bool) (s : State) : Res :=
  s.fpOp be d a b (.fcvtiz be d a b p) (fun _ x _ => fCvt p .towardZero iMin iMax x)

/-- `FCVTUZ` (R117): Float to unsigned integer, rounded toward zero. -/
def execFcvtuz (be d a b : Fin 32) (p : Bool) (s : State) : Res :=
  s.fpOp be d a b (.fcvtuz be d a b p) (fun _ x _ => fCvt p .towardZero 0 (2 ^ 64 - 1) x)

/-- `FSQRT` (R115): Floating-point square root of Ga. -/
def execFsqrt (be d a : Fin 32) (p : Bool) (s : State) : Res :=
  s.fpOp be d a 0 (.fsqrt be d a p) (fun rm x _ => fsqrt (ffmt p) rm (fVal p x))

/-- `FMADD` (R116): Ga × Gb + Gc with one rounding. -/
def execFmadd (be d a b c : Fin 32) (p : Bool) (s : State) : Res :=
  s.fmaOp be d a b c p (.fmadd be d a b c p) false false

/-- `FMSUB` (R116): Ga × Gb − Gc with one rounding. -/
def execFmsub (be d a b c : Fin 32) (p : Bool) (s : State) : Res :=
  s.fmaOp be d a b c p (.fmsub be d a b c p) false true

/-- `FNMADD` (R116): −(Ga × Gb) − Gc with one rounding. -/
def execFnmadd (be d a b c : Fin 32) (p : Bool) (s : State) : Res :=
  s.fmaOp be d a b c p (.fnmadd be d a b c p) true true

/-- `FNMSUB` (R116): −(Ga × Gb) + Gc with one rounding. -/
def execFnmsub (be d a b c : Fin 32) (p : Bool) (s : State) : Res :=
  s.fmaOp be d a b c p (.fnmsub be d a b c p) true false

end Sys2Proof.Machine
end

