-- ==== Sys2Proof/Machine/DruMem.lean ====
section
/-!
DEFINITION. The loads and stores of the drupelets (R118 to R121).
-/

namespace Sys2Proof.Machine

/-- The base address of format M (R118). -/
def baseOf (c : Core) (b : DBase) : Nat :=
  match b with
  | .ib => c.ib.toNat
  | .pb => c.pb.toNat
  | .pbo => c.pb.toNat + 0x80000
  | .cb => c.cb.toNat
  | .scr => scrBase

/-- The address of a format M access of `n` bytes, and of a format X access (R118). -/
def addrM (c : Core) (b : DBase) (disp : BitVec 16) (n : Nat) : Int := (baseOf c b + disp.toNat * n : Nat)
def addrX (c : Core) (a : Fin 32) (disp : BitVec 16) : Int := ((gReg c a).toNat : Int) + disp.toInt

/-- A loaded value of `n` bytes, zero- or sign-extended. -/
def extLoad (n : Nat) (signed : Bool) (v : Nat) : W64 := if signed then BitVec.ofInt 64 (sextN (8 * n) v) else BitVec.ofNat 64 v

/-- A load into Gd. -/
def State.loadOp (s : State) (be d : Fin 32) (i : Instr) (n : Nat) (signed : Bool) (ecc : Ecc) (addr : Core → Int) : Res :=
  .next (s.instr be ecc i (fun s w => s.load be w (addr w.core) n ecc (fun v c => gSet c d (extLoad n signed v))))

/-- A store of Gd. -/
def State.storeOp (s : State) (be d : Fin 32) (i : Instr) (n : Nat) (addr : Core → Int) : Res :=
  .next (s.instr be .clean i (fun s w => s.store be w (addr w.core) n (gReg w.core d)))

/-- `LDB` (R118): Loads 1 byte from base + disp, zero-extended. -/
def execLdb (be d : Fin 32) (base : DBase) (disp : BitVec 16) (ecc : Ecc) (s : State) : Res :=
  s.loadOp be d (.ldb be d base disp ecc) 1 false ecc (fun c => addrM c base disp 1)

/-- `LDXB` (R118): Loads 1 byte from Ga + disp, zero-extended. -/
def execLdxb (be d a : Fin 32) (disp : BitVec 16) (ecc : Ecc) (s : State) : Res :=
  s.loadOp be d (.ldxb be d a disp ecc) 1 false ecc (fun c => addrX c a disp)

/-- `LDBS` (R118): Loads 1 byte, sign-extended. -/
def execLdbs (be d : Fin 32) (base : DBase) (disp : BitVec 16) (ecc : Ecc) (s : State) : Res :=
  s.loadOp be d (.ldbs be d base disp ecc) 1 true ecc (fun c => addrM c base disp 1)

/-- `LDXBS` (R118): Loads 1 byte from Ga + disp, sign-extended. -/
def execLdxbs (be d a : Fin 32) (disp : BitVec 16) (ecc : Ecc) (s : State) : Res :=
  s.loadOp be d (.ldxbs be d a disp ecc) 1 true ecc (fun c => addrX c a disp)

/-- `LDH` (R118): Loads 2 bytes, zero-extended. -/
def execLdh (be d : Fin 32) (base : DBase) (disp : BitVec 16) (ecc : Ecc) (s : State) : Res :=
  s.loadOp be d (.ldh be d base disp ecc) 2 false ecc (fun c => addrM c base disp 2)

/-- `LDXH` (R118): Loads 2 bytes from Ga + disp, zero-extended. -/
def execLdxh (be d a : Fin 32) (disp : BitVec 16) (ecc : Ecc) (s : State) : Res :=
  s.loadOp be d (.ldxh be d a disp ecc) 2 false ecc (fun c => addrX c a disp)

/-- `LDHS` (R118): Loads 2 bytes, sign-extended. -/
def execLdhs (be d : Fin 32) (base : DBase) (disp : BitVec 16) (ecc : Ecc) (s : State) : Res :=
  s.loadOp be d (.ldhs be d base disp ecc) 2 true ecc (fun c => addrM c base disp 2)

/-- `LDXHS` (R118): Loads 2 bytes from Ga + disp, sign-extended. -/
def execLdxhs (be d a : Fin 32) (disp : BitVec 16) (ecc : Ecc) (s : State) : Res :=
  s.loadOp be d (.ldxhs be d a disp ecc) 2 true ecc (fun c => addrX c a disp)

/-- `LDW` (R118): Loads 4 bytes, zero-extended. -/
def execLdw (be d : Fin 32) (base : DBase) (disp : BitVec 16) (ecc : Ecc) (s : State) : Res :=
  s.loadOp be d (.ldw be d base disp ecc) 4 false ecc (fun c => addrM c base disp 4)

/-- `LDXW` (R118): Loads 4 bytes from Ga + disp, zero-extended. -/
def execLdxw (be d a : Fin 32) (disp : BitVec 16) (ecc : Ecc) (s : State) : Res :=
  s.loadOp be d (.ldxw be d a disp ecc) 4 false ecc (fun c => addrX c a disp)

/-- `LDWS` (R118): Loads 4 bytes, sign-extended. -/
def execLdws (be d : Fin 32) (base : DBase) (disp : BitVec 16) (ecc : Ecc) (s : State) : Res :=
  s.loadOp be d (.ldws be d base disp ecc) 4 true ecc (fun c => addrM c base disp 4)

/-- `LDXWS` (R118): Loads 4 bytes from Ga + disp, sign-extended. -/
def execLdxws (be d a : Fin 32) (disp : BitVec 16) (ecc : Ecc) (s : State) : Res :=
  s.loadOp be d (.ldxws be d a disp ecc) 4 true ecc (fun c => addrX c a disp)

/-- `LDD` (R118): Loads 8 bytes. -/
def execLdd (be d : Fin 32) (base : DBase) (disp : BitVec 16) (ecc : Ecc) (s : State) : Res :=
  s.loadOp be d (.ldd be d base disp ecc) 8 false ecc (fun c => addrM c base disp 8)

/-- `LDXD` (R118): Loads 8 bytes from Ga + disp. -/
def execLdxd (be d a : Fin 32) (disp : BitVec 16) (ecc : Ecc) (s : State) : Res :=
  s.loadOp be d (.ldxd be d a disp ecc) 8 false ecc (fun c => addrX c a disp)

/-- `STB` (R118): Stores the low byte of Gd into the commit buffer. -/
def execStb (be d : Fin 32) (base : DBase) (disp : BitVec 16) (s : State) : Res :=
  s.storeOp be d (.stb be d base disp) 1 (fun c => addrM c base disp 1)

/-- `STXB` (R118): Stores 1 byte at Ga + disp. -/
def execStxb (be d a : Fin 32) (disp : BitVec 16) (s : State) : Res :=
  s.storeOp be d (.stxb be d a disp) 1 (fun c => addrX c a disp)

/-- `STH` (R118): Stores the low 2 bytes of Gd. -/
def execSth (be d : Fin 32) (base : DBase) (disp : BitVec 16) (s : State) : Res :=
  s.storeOp be d (.sth be d base disp) 2 (fun c => addrM c base disp 2)

/-- `STXH` (R118): Stores 2 bytes at Ga + disp. -/
def execStxh (be d a : Fin 32) (disp : BitVec 16) (s : State) : Res :=
  s.storeOp be d (.stxh be d a disp) 2 (fun c => addrX c a disp)

/-- `STW` (R118): Stores the low 4 bytes of Gd. -/
def execStw (be d : Fin 32) (base : DBase) (disp : BitVec 16) (s : State) : Res :=
  s.storeOp be d (.stw be d base disp) 4 (fun c => addrM c base disp 4)

/-- `STXW` (R118): Stores 4 bytes at Ga + disp. -/
def execStxw (be d a : Fin 32) (disp : BitVec 16) (s : State) : Res :=
  s.storeOp be d (.stxw be d a disp) 4 (fun c => addrX c a disp)

/-- `STD` (R118): Stores 8 bytes of Gd. -/
def execStd (be d : Fin 32) (base : DBase) (disp : BitVec 16) (s : State) : Res :=
  s.storeOp be d (.std be d base disp) 8 (fun c => addrM c base disp 8)

/-- `STXD` (R118): Stores 8 bytes at Ga + disp. -/
def execStxd (be d a : Fin 32) (disp : BitVec 16) (s : State) : Res :=
  s.storeOp be d (.stxd be d a disp) 8 (fun c => addrX c a disp)

end Sys2Proof.Machine
end

