-- ==== Sys2Proof/Machine/Pair.lean ====
section
/-!
DEFINITION. The redundant pair: the primacy latch and the passing of the token (R194-R199), the lever and the island link
(R196, R200), the Drawbar and its heartbeats (R201-R203), the loss of the partner, roles (R212, R458), switch-overs and the
takeover (R215-R220, R226).
-/

namespace Sys2Proof.Machine

def hapLinkFault : Hap := ⟨1, 4, 5, none, false⟩
def hapLanes : Hap := ⟨1, 5, 5, none, false⟩
def hapPath : Hap := ⟨1, 6, 5, none, false⟩
def hapSkipped : Hap := ⟨1, 7, 5, none, false⟩

/-! Entering SYNCING (R212, R221, R459). -/

/-- The module enters SYNCING; its reflex program is armed at the entry from CONFIG (R459). -/
def State.enterSyncing (s : State) : State :=
  let t := s.toSyncing
  if s.mod = .config then t.rfxArmBank else t

/-! The primacy latch (R197). -/

/-- The latch refuses this module's claim: counted, and the module goes on as its state gives (R212, R223, R458). -/
def State.claimRefused (s : State) : State :=
  let s := ((s.bump R.pairClaimRef).raise hapClaimRefused 0 []).fsetb F.pairStatus_claim false
  match s.mod with
  | .standby => s.enterSyncing
  | .config =>
    if s.pair.startReq223 then { s with scan := { s.scan with startReq := false } }.ignoredIn blkScan
    else s.enterSyncing
  | _ => s

/-- A transfer towards this module, with the trigger it will record (R225). -/
def State.transferHere (s : State) (trigger : Nat) : State :=
  { s with pair := { s.pair with incoming := trigger } }.latchHere true

/-- The token leaves this module for a partner that asserts `READY` or `CLAIM`, or for none. -/
def State.transferAway (s : State) (toPartner : Bool) : State := ((s.latchAway toPartner).afterDrop).canPermit

/-- The latch decides on this module's `CLAIM`; `silent`: the holder's `ALIVE` is silent for 120 µs at the latch. A claim
asserted at the boundary of a hand-over stands until the outgoing module drops its own. -/
def State.claimHere (s : State) (silent : Bool) : State :=
  match s.bogie.holder with
  | none => s.latchHere false
  | some h =>
    if h = s.slot then s
    else if silent then s.transferHere 1
    else if s.pair.handoverIn then s
    else s.claimRefused

/-- `CLAIM_ASSERT` (R197): the latch decides on the `CLAIM` that a slot asserts; `both`: both slots assert it within one
latch clock. A claim of the partner's is decided whether or not this module's chip runs. -/
def execClaimAssert (sl : Slot) (both silent : Bool) (s : State) : Res :=
  let own := s.fbit F.pairStatus_claim
  let s1 := if sl ≠ s.slot ∨ both then { s with bogie := { s.bogie with pClaim := true } } else s
  let giveOther (t : State) : State := { t with bogie := { t.bogie with holder := some t.other } }
  let t :=
    if both && s.bogie.holder == none then
      if s.slot = .a then s1.latchHere false else (giveOther s1).claimHere false
    else if sl = s.slot then s1.claimHere silent
    else match s.bogie.holder with
      | none => giveOther s1
      | some h => if h = s.slot ∧ silent then s1.transferAway true else s1
  s.when ((own && s.power.chip) || (sl != s.slot && !both)) t

/-- What the holder's drop means for this module, when it is the partner that held the token. -/
def State.tokenFreed (s : State) (trigger : Nat) : State :=
  if s.fbit F.pairStatus_ready || s.fbit F.pairStatus_claim then s.transferHere trigger
  else { s with bogie := { s.bogie with holder := none } }

/-- The trigger of a partner's release, as this module can tell it (R215, R225): an immediate release where no hand-over is at
its boundary; else the lever, a score forced to 0, its own request, a command [106]. -/
def State.guessTrigger (s : State) : Nat :=
  if s.mod = .standby ∧ !s.pair.handoverIn then 7
  else if s.fbit F.pairStatus_pLever then 4
  else if s.pair.heard.score = 0 then 6
  else if s.pair.msgs.any (fun m => m.body == .handoverRequest) || s.pair.marginRuns ≥ s.aget F.pairCfg_hsDwell then 5
  else 3

/-- `CLAIM_DROP` (R197): the holder drops `CLAIM`: on this module an immediate release, since a hand-over drops it at its
boundary. -/
def execClaimDrop (sl : Slot) (s : State) : Res :=
  if s.bogie.holder ≠ some sl then
    .next (if sl = s.slot then s.fsetb F.pairStatus_claim false else { s with bogie := { s.bogie with pClaim := false } })
  else if sl = s.slot then s.when s.power.chip (s.dropClaim 7)
  else .next ({ s with bogie := { s.bogie with pClaim := false } }.tokenFreed s.guessTrigger)

/-- `RFX_SILENT` (R197): the island of a slot has seen no reflex commit for 3.0 µs while it reports an armed program. -/
def execRfxSilent (sl : Slot) (s : State) : Res :=
  if sl = s.slot then
    let t := { s with bogie := { s.bogie with rfxSilent := true } }
    s.when (s.island.on && (s.fbit F.rfxStatus_armed || !s.island.rfxStop))
      (if s.bogie.holder = some sl ∧ s.bogie.pReady then t.transferAway true else t)
  else s.when (s.bogie.holder == some sl && s.fbit F.pairStatus_ready) (s.transferHere 2)

/-- `CONNECTOR_PARTS` (R197): the connector of a slot parts: its lines and the Drawbar are gone, and a token it held
passes to a partner that asserts `READY` or `CLAIM`, else to none. -/
def execConnectorParts (sl : Slot) (s : State) : Res :=
  let cut := { s.fset F.pairStatus_lanes 0 with bogie := { s.bogie with lanes := 0, retrain := false } }
  if sl = s.slot then
    .next (if s.bogie.holder = some sl then cut.transferAway (s.bogie.pReady || s.bogie.pClaim) else cut)
  else
    let t := { cut with bogie := { cut.bogie with pClaim := false, pReady := false } }
    .next (if s.bogie.holder = some sl then t.tokenFreed 1 else t)

/-! The rise of `TOKEN` (R198, R216, R220). -/

/-- N and S work goes on from the last seal (R82, R217): open chains from their checkpoints, ready chains dealt. -/
def State.resumeNS (s : State) : State :=
  let opens := s.pair.lastSeal.opens
  let s := { s with brm := { s.brm with yielded := opens } }
  let ready (c : Nat) : Bool :=
    !(s.brm.waiting.any (fun (e : Nat × Nat) => e.1 == c && e.2 != 0)) && !(opens.any (fun (o : OpenChain) => o.work.chain == c))
  [Cls.n, Cls.s].foldl (fun (s : State) c =>
    let mine := s.brm.openChains.filter (fun i => ready i && (s.chain i).any (fun d => d.cls == c))
    s.deal c (mine.map (fun i => { chain := i }))) s

/-- The module goes on with the ring, the CAN ports and the host rings at the positions of its last seal (R199, R216). -/
def State.takePositions (s : State) (ahead : Vector Nat 2) : State := (s.ringResume ahead).canTakeover

/-- The event "module became PRIMARY by switch-over" (R51). -/
def State.becameEvent (s : State) : State := s.event 0x0048 5 0 [(s.rd R.pairLastSw).setWidth 64]

/-- What this module does when its `TOKEN` has risen by a transfer. -/
def State.tokenRole (s : State) (ahead : Vector Nat 2) : State :=
  let trigger := s.pair.incoming
  match s.mod with
  | .standby =>
    if s.pair.handoverIn then
      let s := (s.logSwitch trigger 0 true).enter .primary
      let s := { (s.setReady false) with pair := { s.pair with handoverIn := false, incoming := 0 } }
      ((s.takePositions ahead).resumeNS).becameEvent
    else
      let s := ({ s with pair := { s.pair with staged := [] } }.logSwitch trigger 1 true).enter .primary
      -- a PRIMARY that has lost its partner is ALONE
      let s := if s.partner = .off then s.enter .alone else s
      { (s.setReady false) with
        pair := { s.pair with takeover := true, incoming := 0 }, scan := { s.scan with step := .idle } }
  | .stopped =>
    let s := s.logSwitch trigger (bit (trigger == 1 || trigger == 2 || trigger == 7)) true
    { (s.setReady false) with pair := { s.pair with incoming := 0 } }
  | _ => s

/-- The reflex gap of a transfer in ns (R218): 4.45 µs through `RFX_SILENT`; in every other transfer an open value of at most
1.45 µs [2]. -/
def State.rgap (s : State) : State :=
  if s.pair.incoming = 2 then s.wr R.pairLastRgap 4450
  else s.take.2.wr R.pairLastRgap (BitVec.ofNat 32 (s.take.1.toNat % 1451))

/-- `TOKEN_RISE` (R198): 1.0 µs after the drop the incoming `TOKEN` rises: the outgoing island ramps its loops to 0 mA; the
incoming one drives the mirror until the module's first publish, and the voter; `ahead` are the event entries that the outgoing
module wrote beyond its sealed counts (R342). -/
def execTokenRise (ahead : Vector Nat 2) (s : State) : Res :=
  match s.bogie.rising with
  | none => .next s
  | some sl =>
    let s1 := { s with bogie := { s.bogie with rising := none } }
    if sl ≠ s.slot then
      .next (if s.bogie.ramp = .driving then
        { s1 with bogie := { s1.bogie with ramp := .down, rampAt := s.time.tb1 } }.showIsland else s1)
    else
      let t := { s1 with
        bogie := { s1.bogie with ramp := .up, rampAt := s.time.tb1 }
        island := { s1.island with useMirror := true }
        scan := { s1.scan with pub := none }
        pair := { s1.pair with gapFrom := some (s1.time.tb1 - 1000) } }
      .next ((t.tokenUp.rgap.tokenRole ahead).canPermit).showIsland

/-- `LOOP_RAMP_END` (R198): the 50 µs ramp of the loop currents ends. -/
def execLoopRampEnd (s : State) : Res :=
  s.when (s.bogie.ramp == .down || s.bogie.ramp == .up)
    { s with bogie := { s.bogie with ramp := .steady, rampEnd := some s.time.tb1 } }.showIsland

/-- The number of the F-cycle that a takeover runs (R217), the skipped numbers before it, and its boundary and nominal end:
none when the first unsealed cycle's boundary lies ahead. -/
def State.takeoverPlan (s : State) : Option (W64 × Nat × W64 × W64) :=
  let tF := s.fPeriod * 1000
  let n0 := (s.rd64 R.scanCycleLo).toNat
  let c := s.pair.lastSeal.cycle.toNat + 1
  let now := s.scanTime.toNat
  let at_ (n : Nat) : Nat := s.scan.bound.toNat + n * tF - n0 * tF
  if now < at_ c then none
  else
    let f := s.sums s.bank .f
    let p := (pAdm330 f.w f.l (s.bw s.bank 0x03C) tF + 329) / 330
    let e := n0 + (now + p - s.scan.bound.toNat + tF - 1) / max 1 tF
    some (BitVec.ofNat 64 (e - 1), e - 1 - c, BitVec.ofNat 64 (at_ (e - 1)), BitVec.ofNat 64 (at_ e))

/-- `TAKEOVER_START` (R216, R217): the takeover preparation ends. When the first unsealed cycle's boundary is past, the
takeover cycle freezes now; N and S boundaries at skipped numbers come late. -/
def execTakeoverStart (ahead : Vector Nat 2) (s : State) : Res :=
  let t := ((((({ s with pair := { s.pair with takeover := false } }).canPermit).takePositions ahead).ringTakeover).resumeNS).becameEvent
  let t := match s.takeoverPlan with
    | none => t
    | some (n, skipped, bound, stop) =>
      let t := t.fset F.pairLastSw_skipped skipped
      let c := s.pair.lastSeal.cycle + 1
      let t := if skipped = 0 then t else t.raise hapSkipped 0 [c, BitVec.ofNat 64 skipped]
      let nums := (List.range (skipped + 1)).map (fun k => c + BitVec.ofNat 64 k)
      let t := { t with scan := { t.scan with bound := bound }, pair := { t.pair with takeoverEnd := some stop } }.boundaryWork n
      if t.scanRuns then t.freezeStep n (nums.any t.nBoundary) (nums.any t.sBoundary) else t
  s.when (s.pair.takeover && (s.mod == .primary || s.mod == .alone)) t

/-! The island link (R196). -/

/-- `ISLAND_LINK_FRAME_RX` (R196): the island without the token receives a frame and keeps its values as its mirror; loop
commands in nA. -/
def execIslandLinkFrameRx (digital : W32) (loops : Vector Nat 8) (s : State) : Res :=
  s.when (!s.token && s.island.on && !s.bogie.linkFault)
    { s with island := { s.island with mirror := digital, mirrorL := loops } }

/-- The mirror while the link is in fault: scan-owned channels take the outputs of the last applied seal, reflex-bound
channels the own vote. -/
def State.mirrorFill (s : State) : State :=
  let c := s.scanCmd
  { s with island := { s.island with
      mirror := maskOf (fun n => if s.isRfx n then s.vote n else c.dig.getLsbD n)
      mirrorL := Vector.ofFn (fun (i : Fin 8) => s.aoCurrent i.val (vget c.loops i.val)) } }

/-- `ISLAND_LINK_FAULT` (R196). -/
def execIslandLinkFault (s : State) : Res :=
  let t := ({ s with bogie := { s.bogie with linkFault := true } }.fset F.pairStatus_islLink 1).raise hapLinkFault 0 [1]
  s.when (s.up && !s.bogie.linkFault) (if s.token then t else t.mirrorFill)

/-- `ISLAND_LINK_RETURN` (R196): the fault clears, and the mirror follows the frames again. -/
def execIslandLinkReturn (s : State) : Res :=
  s.when s.bogie.linkFault
    (({ s with bogie := { s.bogie with linkFault := false } }.fset F.pairStatus_islLink 0).raise hapLinkFault 0 [0])

/-! Levers (R200). -/

/-- `LEVER_OPEN` (R200, R220): a lever reads open for 1 ms. The PRIMARY hands over, the STANDBY drops `READY`; a lever
trigger abandons a hold-up measurement (R402). -/
def execLeverOpen (own : Bool) (s : State) : Res :=
  if !own then
    s.when (s.power.chip && !s.fbit F.pairStatus_pLever)
      { (s.fset F.pairStatus_pLever 1).holdupAbort with bogie := { s.bogie with pReady := false } }
  else
    let t := (s.fset F.pairStatus_lever 1).holdupAbort
    let t := match s.mod with
      | .primary => (if s.bogie.pReady then t else t.showRemoval false).startHandover 4
      | .standby => (t.setReady false).showRemoval true
      | .stopped => if s.token then (if s.bogie.pReady then t else t.showRemoval false).startHandover 4
          else (t.setReady false).showRemoval true
      | .alone => t.showRemoval false
      | _ => t
    s.when (s.power.chip && !s.fbit F.pairStatus_lever) t

/-- `LEVER_CLOSE` (R200): a STANDBY asserts `READY` again. -/
def execLeverClose (own : Bool) (s : State) : Res :=
  if !own then s.when (s.power.chip && s.fbit F.pairStatus_pLever) (s.fset F.pairStatus_pLever 0)
  else
    let t := s.fset F.pairStatus_lever 0
    s.when (s.power.chip && s.fbit F.pairStatus_lever) (if t.mod = .standby ∧ t.mayReady then t.setReady true else t)

/-! Drawbar lanes and messages (R201, R202). -/

def laneCount (m : BitVec 4) : Nat := ((List.range 4).filter (fun i => m.getLsbD i)).length

/-- The lanes in use are shown and recorded. -/
def State.setLanes (s : State) (m : BitVec 4) : State :=
  ({ s with bogie := { s.bogie with lanes := m } }.fset F.pairStatus_lanes (laneCount m)).raise hapLanes 0
    [BitVec.ofNat 64 (laneCount m)]

/-- The priority of a message that waits for its acknowledgement (R202). -/
def Out.prio : Out → Nat
  | .tripNotice _ => 1
  | .repairRequest _ => 4
  | .dirtyRequest _ => 4
  | _ => 5

/-- Messages that waited are sent, in the order of their priority (R202). -/
def State.resendAll (s : State) : State :=
  [1, 4, 5].foldl (fun (s : State) p =>
    (s.pair.msgs.filter (fun m => m.body.prio == p)).foldl (fun (s : State) m => s.sendOnce m.body) s) s

/-- `DRAWBAR_LANE_LOSS` (R201): the link retrains on the remaining lanes; without one it carries nothing. -/
def execDrawbarLaneLoss (lane : Fin 4) (s : State) : Res :=
  let m := s.bogie.lanes &&& ~~~ (1#4 <<< lane.val)
  let t := s.setLanes m
  s.when (s.power.chip && s.bogie.lanes.getLsbD lane.val) { t with bogie := { t.bogie with retrain := m != 0 } }

/-- `DRAWBAR_RETRAIN_DONE` (R201): traffic resumes. -/
def execDrawbarRetrainDone (s : State) : Res :=
  s.when s.bogie.retrain { s with bogie := { s.bogie with retrain := false } }.resendAll

/-- `DRAWBAR_LANE_RETURN` (R201): a lane that has held block lock for 1 ms takes traffic, without a retrain of the others. -/
def execDrawbarLaneReturn (lane : Fin 4) (s : State) : Res :=
  let t := s.setLanes (s.bogie.lanes ||| (1#4 <<< lane.val))
  s.when (s.power.chip && !s.bogie.lanes.getLsbD lane.val) (if s.bogie.lanes = 0 then t.resendAll else t)

/-- `DRAWBAR_MSG_REPEAT` (R202): an unacknowledged message is repeated. -/
def execDrawbarMsgRepeat (id : Nat) (s : State) : Res :=
  match s.pair.msgs.find? (fun m => m.id == id) with
  | some m => .next (s.sendOnce m.body)
  | none => .next s

/-- The commands that waited for these messages go on (R336). -/
def State.acked (s : State) (gone : Nat → Bool) : State :=
  { s with host := { s.host with cmds := s.host.cmds.map (fun (c : Cmd) =>
      let rest := c.acks.filter (fun i => !gone i)
      { c with acks := rest, phase := if c.phase = CmdPhase.waitAcks ∧ rest = [] then .done else c.phase }) } }.completeAll

/-- `DRAWBAR_ACK_RX` (R202): the partner has acknowledged a message. -/
def execDrawbarAckRx (id : Nat) (s : State) : Res :=
  .next ({ s with pair := { s.pair with msgs := s.pair.msgs.filter (fun m => m.id ≠ id) } }.acked (· == id))

/-! Heartbeats (R203). -/

/-- Whether the module has left the pair: its MC failed its self-test and it has passed the token (R36, R212). -/
def State.leftPair (s : State) : Bool := s.fbit F.sysStatus_mcFailed && !s.token

/-- `HEARTBEAT_SEND` (R203, R458): every 50 µs, from `CFG_DONE`, a heartbeat on the Drawbar and a toggle of `ALIVE`. -/
def execHeartbeatSend (s : State) : Res :=
  let h : Heartbeat := {
    slot := s.slot, state := s.mod, cycle := s.rd64 R.scanCycleLo, scanTime := s.scanTime, sealed := s.pair.lastSealed
    score := s.fget F.pairHealth_own, token := s.token, seq := s.pair.hbSeq }
  s.when (s.power.chip && s.fbit F.pwrStatus_cfgDone && !s.leftPair)
    { s.sendOnce (.heartbeat h) with
      pair := { s.pair with hbSeq := s.pair.hbSeq + 1 }, bogie := { s.bogie with alive := !s.bogie.alive } }

/-- Whether the partner asserts `READY`, as its heartbeat tells (R194, R220): a STANDBY whose score is not 0 and whose
lever is closed; a STOPPED module that was READY keeps it. -/
def State.readyOf (s : State) (h : Heartbeat) : Bool :=
  let ok := h.score != 0 && !s.fbit F.pairStatus_pLever
  match h.state with
  | .standby => ok
  | .stopped => ok && s.bogie.pReady && !h.token
  | _ => false

/-- A Drawbar heartbeat of the partner is noted; a STANDBY or SYNCING module keeps the PRIMARY's scan time (R57). -/
def State.hear (s : State) (h : Heartbeat) : State :=
  let follow := (s.mod == .standby || s.mod == .syncing) && (h.state == .primary || h.state == .alone)
  let s := ((s.fset F.pairStatus_dbUp 1).fset F.pairStatus_pState (modCode h.state)).fset F.pairHealth_partner h.score
  { s with
    pair := { s.pair with heard := h }
    bogie := { s.bogie with pReady := s.readyOf h }
    scan := { s.scan with timeOffset := if follow then h.scanTime - s.time.tb1 else s.scan.timeOffset } }

/-- What a heartbeat changes in the module's own state (R212, R458, R459). -/
def State.heardRole (s : State) : State :=
  let p := s.partner
  let drives := p == .primary || p == .alone || (p == .config && s.pair.heard.token)
  match s.mod with
  | .alone => (s.enter .primary).canPermit
  | .config => if !s.token && (s.power.roleDone || s.power.roleOpen) && drives then
      { s with power := { s.power with roleDone := true, roleOpen := false } }.enterSyncing else s
  | _ => s

/-- `HEARTBEAT_RX` (R203): a heartbeat arrives on the Drawbar, a toggle on the alive path, or both. -/
def execHeartbeatRx (h : Option Heartbeat) (alive : Bool) (s : State) : Res :=
  let t := match h with | some x => s.hear x | none => s
  let t := if alive then t.fset F.pairStatus_aliveUp 1 else t
  let t := { t with pair := { t.pair with heardAt := t.time.tb1 } }
  s.when (s.power.chip && (h.isSome || alive)) t.heardRole.pullForced.completeAll

/-! The loss of the partner (R203, R212, R223). -/

/-- A SYNCING module that loses its partner discards its partial image and enters CONFIG with the configuration in flash. -/
def State.lostSyncing (s : State) : State :=
  let s := (s.haltScan.syncReset.rfxDisarm.enter .config).canPermit
  let s := { s with
    scan := { s.scan with run := .notStarted, evq := [], evqLost := 0, startReq := false, timeOffset := 0 }
    pair := { s.pair with startReq223 := true, dirty := [], inFlight := [] }
    mem := { s.mem with committed := [], cpoison := [] } }
  ((s.fset F.scanStatus_runstate 0).loadProgram).takeConfig s.olc.flash

/-- The role is decided as with no partner: `CLAIM`, unless the configuration was refused (R212, R458). -/
def State.decideAlone (s : State) : State :=
  let s := { s with power := { s.power with roleDone := true, roleOpen := false } }
  if s.fbit F.sysCfgStatus_refused then s else s.fsetb F.pairStatus_claim true

/-- A PRIMARY without a partner is ALONE; a cycle that was to be sealed ends without (R42). -/
def State.lostPrimary (s : State) : State :=
  let s := (s.enter .alone).canPermit
  let s := { s with pair := { s.pair with handover := none, handoverSent := false, handoverAcked := false, sealPending := none
                                          inFlight := [], unsealed := 0 } }.fsetb F.pairStatus_handover false
  let s := s.endSwitchCmds 0x0103
  match s.scan.step with
  | .copy => s.afterPublish
  | .awaitSeal => (s.planActivate blkPair).cycleDone
  | _ => s

/-- Both heartbeat paths are silent: the partner is lost, and what waits for it waits no longer (R202, R203). -/
def State.partnerLost (s : State) : State :=
  let s := ((s.fset F.pairStatus_pState 0).fset F.pairHealth_partner 0).raise hapPartnerLost 0 []
  let s := { s with
    bogie := { s.bogie with pReady := false }
    pair := { s.pair with
      msgs := [], seen := [], pPlans := [], pDigests := [], agreed := [], applyAt := none, sweepStart := none, marginRuns := 0 }
    olc := { s.olc with partnerPkg := none } }
  let s := s.fset F.olcStatus_pairReady 0
  let s := match s.mod with
    | .primary => s.lostPrimary
    | .standby => s.fsetb F.pairStatus_claim true
    | .syncing => s.lostSyncing
    | .stopped => if s.fbit F.pairStatus_ready then s.fsetb F.pairStatus_claim true else s
    | .config => if s.power.roleOpen then s.decideAlone else s
    | _ => s
  s.acked (fun _ => true)

/-- `PATH_SILENT` (R203): no valid heartbeat, or no toggle, for 150 µs on a path. -/
def execPathSilent (drawbar : Bool) (s : State) : Res :=
  let f := if drawbar then F.pairStatus_dbUp else F.pairStatus_aliveUp
  let t := (s.fset f 0).bumpF ⟨R.pairHbMiss, if drawbar then 0 else 16, 16⟩
  let t := t.raise hapPath (if drawbar then 0 else 1) []
  s.when (s.power.chip && s.fbit f)
    (if !t.fbit F.pairStatus_dbUp && !t.fbit F.pairStatus_aliveUp then t.partnerLost else t)

/-! Roles and commands (R65, R212, R215, R226, R458). -/

/-- `ROLE_DECISION` (R458): between t0 + 300 ms and t0 + 400 ms. -/
def execRoleDecision (s : State) : Res :=
  let heard := s.fbit F.pairStatus_dbUp || s.fbit F.pairStatus_aliveUp
  let p := s.partner
  let drives := p == .primary || p == .alone || (p == .config && s.pair.heard.token)
  let done (t : State) : State := { t with power := { t.power with roleDone := true, roleOpen := false } }
  let t :=
    if heard && drives then (done s).enterSyncing
    else if heard && (p == .service || p == .stopped) then { s with power := { s.power with roleOpen := true } }
    else s.decideAlone
  s.when (s.mod == .config && s.fbit F.pwrStatus_cfgDone && !s.power.roleDone && !s.pair.startReq223) t

/-- The partner's watchdog has tripped (R65, R220): a STANDBY or SYNCING module stops. A module that was READY keeps `READY`;
a copy under way is abandoned. -/
def State.tripNoted (s : State) (cls : Nat) : State :=
  let keep := s.mod == .standby && s.mayReady
  let u := s.scanTrip cls true
  let t := { u.setReady keep with pair := { u.pair with staged := [] } }
  match s.mod with
  | .standby => t
  | .syncing => t.syncReset
  | _ => s

/-- `TRIP_NOTICE_RX` (R65, R220): the partner's watchdog has tripped. -/
def execTripNoticeRx (id : Nat) (cls : Cls) (s : State) : Res := s.onceOnly id (s.tripNoted (cls.num - 1))

/-- `HANDOVER_REQUEST_RX` (R215): the STANDBY's health-margin request. -/
def execHandoverRequestRx (id : Nat) (s : State) : Res := s.onceOnly id (if s.mod = .primary then s.startHandover 5 else s)

def pairKey : BitVec 16 := 0x5A17

/-- The switch command (R215, R226): on a PRIMARY whose partner asserts `READY`, or on a STOPPED token holder with one; none:
ignored. -/
def State.pairSwitch (s : State) : Option State :=
  if s.bogie.pReady && (s.mod == .primary || (s.mod == .stopped && s.token)) then some (s.startHandover 3) else none

/-- The leave command (R226): on a STANDBY alone. -/
def State.pairLeave (s : State) : Option State := if s.mod = .standby then some s.enterSyncing else none

/-- A write to `PAIR_CTRL` (R225, R226). -/
def State.pairCtrl (s : State) (cmd : Nat) (key : BitVec 16) : State :=
  let act : Option State :=
    if key ≠ pairKey then none
    else match cmd with
      | 1 => s.pairSwitch
      | 2 => s.pairLeave
      | 3 => some (s.wr R.pairCopyMax 0)
      | _ => none
  act.getD (s.ignoredIn blkPair)

/-- `PAIR_CTRL_SWITCH` (R226). -/
def execPairCtrlSwitch (m : Master) (key : BitVec 16) (s : State) : Res :=
  s.asWrite m R.pairCtrl (fun s => s.pairCtrl 1 key)
/-- `PAIR_LEAVE` (R226). -/
def execPairLeave (m : Master) (key : BitVec 16) (s : State) : Res :=
  s.asWrite m R.pairCtrl (fun s => s.pairCtrl 2 key)
/-- `PAIR_CLR_COPY_MAX` (R225). -/
def execPairClrCopyMax (m : Master) (key : BitVec 16) (s : State) : Res :=
  s.asWrite m R.pairCtrl (fun s => s.pairCtrl 3 key)

end Sys2Proof.Machine
end

