-- ==== Sys2Proof/Machine/Sync.lean ====
section
/-!
DEFINITION. The per-cycle copy and its seal on the receiving side, the acknowledgement (R206-R209), the sweep on the
receiving side (R210, R211), joining and resynchronising (R221-R223), the agreement on pair-wide plans (R224).
-/

namespace Sys2Proof.Machine

def hapDiverge : Hap := ⟨1, 8, 5, none, false⟩
def hapAgree : Hap := ⟨1, 9, 5, none, false⟩

/-! The receiving module's view of N and S periods. -/

/-- The period of a class becomes open without being dealt: the module follows the PRIMARY's. -/
def State.followOpen (s : State) (k : Nat) (num : W64) : State :=
  let cls := Cls.ofCode (k + 1)
  let ds := (s.chains s.bank).filter (fun d => d.cls == cls)
  let ix := sortNat (ds.map (·.chain))
  let s := { s with brm := { s.brm with
    openChains := s.brm.openChains ++ ix
    waiting := s.brm.waiting.filter (fun (e : Nat × Nat) => !ix.contains e.1)
      ++ (ds.filter (fun (d : ChainDesc) => d.nPred ≠ 0)).map (fun (d : ChainDesc) => (d.chain, d.nPred)) } }
  s.modCls k (fun c => { c with
    cycle := num, running := true, released := true, complete := false, frozen := false, firstScan := false
    freezeTime := BitVec.ofNat 64 (s.mem.rd (s.winBase cls + 0x7F000) 8) })

/-- A chain of an N or S period that the seal tells complete: its successors wait for one predecessor less. -/
def State.followDone (s : State) (i : Nat) : State :=
  match s.chain i with
  | none => s
  | some d =>
    let next := s.succs d
    { s with brm := { s.brm with
        openChains := s.brm.openChains.filter (· ≠ i)
        waiting := s.brm.waiting.map (fun (e : Nat × Nat) => if next.contains e.1 then (e.1, e.2 - 1) else e) } }

/-- A period no chain of which is open is complete; its commit is outstanding (R46). -/
def State.followComplete (s : State) (k : Nat) (cycle : W64) : State :=
  let cls := Cls.ofCode (k + 1)
  let c := s.clsRun k
  let isOpen := s.brm.openChains.any (fun i => (s.chain i).any (fun d => d.cls == cls))
  if c.running && !c.complete && !isOpen then
    s.modCls k (fun c => { c with complete := true, doneIn := c.doneIn ++ [(cycle, c.cycle, c.freezeTime)] })
  else s

/-- One class of N and S after a seal: the chains of the old period, a new period where the frozen half shows one, its
chains. -/
def State.followCls (r : SealRec) (s : State) (k : Nat) : State :=
  let cls := Cls.ofCode (k + 1)
  let num := BitVec.ofNat 64 (s.mem.rd (s.winBase cls + 0x7F018) 8)
  let mine := r.chains.filter (fun c => (s.chain c.chain).any (fun d => d.cls == cls))
  let step (s : State) (cs : List DoneRec) : State := (cs.foldl (fun (s : State) c => s.followDone c.chain) s).followComplete k r.cycle
  let s := step s (mine.filter (fun c => c.period != num.setWidth 16))
  let s := if num = (s.clsRun k).cycle then s else s.followOpen k num
  step s (mine.filter (fun c => c.period == num.setWidth 16))

/-! The seal received (R207, R208). -/

/-- Drawbar traffic other than messages, whose effect where `c` holds is `t`: in the first second none is taken before the
configuration is applied, and that of the copy from SYNCING onward only; what comes beyond it is counted (R461). -/
def State.linkRx (s : State) (copy c : Bool) (t : State) : Res :=
  let onward := s.mod == .syncing || s.mod == .standby || s.mod == .primary
  let taken := s.fbit F.pwrStatus_cfgDone && (!copy || onward)
  if s.power.chip && s.fbit F.pwrStatus_firstSec && !taken then .next (s.ignoredIn 5) else s.when c t

/-- The place of staged block `n` in the Drawbar staging of the shared buffer (R29, R208): 264 bytes each, its number and its
data [107]. -/
def State.stagePlace (s : State) (n : Nat) : Nat := 0x05200000 + (s.conf.staging + 264 * n) % 0xE00000

/-- `COPY_BLOCK_RX` (R208): a block of the copy of an F-cycle is staged; the first block of another copy takes the place of what a
copy without a seal record left. -/
def execCopyBlockRx (cycle : W64) (blk : Nat) (data : List Byte) (s : State) : Res :=
  let old := if s.pair.stagedOf = cycle then s.pair.staged else []
  let t := s.wrMem (s.stagePlace old.length) (leBytes 8 blk ++ data)
  s.linkRx true ((s.mod == .standby || s.mod == .syncing) && data.length == 256)
    { t with pair := { t.pair with staged := old ++ [(blk, data)], stagedOf := cycle } }

/-- Whether a staged copy matches its record: number of blocks, and CRC over address and data in the order sent (R206). -/
def State.copyOk (s : State) (r : SealRec) : Bool :=
  s.pair.staged.length == r.blocks
    && s.pair.staged.foldl (fun c e => copyCrcStep c e.1 e.2) (BitVec.allOnes 64) == r.crc

/-- The CAT's decision on the writes of a staged copy: a refusal discards it (R378). -/
def State.copyGranted (s : State) : State × Bool :=
  s.pair.staged.foldl (fun (x : State × Bool) e =>
    let y := x.1.catAccess clsDrawbar 0 .write (e.1 * 256)
    (y.1, x.2 && y.2)) (s, true)

/-- The copy applied whole to the module's own memory; blocks that were asked for have come (R386). -/
def State.applyCopy (s : State) : State :=
  { s with
    mem := s.pair.staged.foldl (fun (m : Mem) e => m.write (e.1 * 256) e.2) s.mem
    integ := { s.integ with asked := s.integ.asked.filter (fun b => !s.pair.staged.any (fun e => e.1 == b)) }
    pair := { s.pair with staged := [] } }

/-! What the STANDBY saves for its audit (R209). -/

/-- The number of the period that the staged copy brings for the image of a class; none where it brings no other than the present. -/
def State.stagedPeriod (s : State) (c : Cls) : Option W64 :=
  let a := s.winBase c + 0x7F018
  match s.pair.staged.find? (fun e => e.1 == a / 256) with
  | none => none
  | some e =>
    let n : W64 := BitVec.ofNat 64 (leNat ((e.2.drop (a % 256)).take 8))
    if n = BitVec.ofNat 64 (s.mem.rd a 8) then none else some n

/-- The period of a class of which a staged copy is the first: F and the error tasks begin one in every F-cycle. -/
def State.firstCopy (s : State) (r : SealRec) (c : Cls) : Option W64 :=
  match c with
  | .f | .e => some r.cycle
  | .n | .s => s.stagedPeriod c

/-- The descriptor that an error chain was started for: the first of the F image whose code is bound to its task (R54, R504). -/
def State.errorSlot (s : State) (i : Nat) : Option Nat :=
  let b := s.winBase .f
  ((List.range (min 256 (s.mem.rd (b + 0x7F024) 4))).find? (fun k =>
    s.conf.tasks.any (fun t => t.chains.contains i && t.codes.contains (s.mem.rd (b + 0x7B000 + 64 * k) 2)))).map (0x7B000 + 64 * ·)

/-- The own instance range of a chain kept for its audit, as it stands in `s`; `t` is the module with the copy applied. -/
def State.ownRange (s t : State) (r : SealRec) (d : ChainDesc) : Option Snapshot :=
  match s.firstCopy r d.cls with
  | none => none
  | some n =>
    let a := 0x02000000 + d.instOff
    let keep (slot : Nat) : Snapshot := {
      work := { chain := d.chain, slot := slot }, cycle := n, own := true, len := d.instLen
      cells := s.mem.bytes.filter (fun (e : Host.Cell) => decide (a ≤ e.1 ∧ e.1 < a + d.instLen)), bad := s.mem.poison.filter (fun (e : Nat × Bool) => decide (a ≤ e.1 * 8 ∧ e.1 * 8 < a + d.instLen)) }
    if d.cls = .e then (t.errorSlot d.chain).map keep else some (keep 0)

/-- Before the first copy of a period is applied, the own ranges of the chains that the audit will take next are saved, at most
8 MiB in all; what was kept for the period before, and audits of it that have not ended, are dropped (R209) [129]. -/
def State.saveOwn (s t : State) (r : SealRec) : State :=
  let begun (i : Nat) : Bool := (s.chain i).any (fun d => (s.firstCopy r d.cls).isSome)
  let old := s.brm.snaps.filter (fun (x : Snapshot) => !begun x.work.chain)
  let new := s.auditOrder.filterMap (fun d => s.ownRange t r d)
  let room (l : List Snapshot) : Nat := l.foldl (fun n x => n + x.len) 0
  let kept := new.foldl (fun l x => if room (l ++ [x]) ≤ 0x800000 then l ++ [x] else l) old
  { t with brm := { t.brm with
      snaps := kept
      audits := t.brm.audits.filter (fun (a : Audit) => !begun a.snap.work.chain)
      be := t.brm.be.map (fun (d : Drupelet) => match d.win with
        | some w => if w.audit && begun w.oc.work.chain then { d with win := none, yieldReq := false } else d
        | none => d) } }.showAudit

/-- The N and S commits that fall in the sealed cycle (R46). -/
def State.sealCommit (r : SealRec) (s : State) (k : Nat) : State :=
  match (s.clsRun k).doneIn with
  | (j, _, _) :: rest =>
    if j.toNat < r.cycle.toNat then
      let c := Cls.ofCode (k + 1)
      ((s.commitOutputs c).forceOutputs c).modCls k (fun x => { x with
        doneIn := rest, running := x.running && (!x.complete || !rest.isEmpty) })
    else s
  | [] => s

/-- The outcome of a switch cycle differs from the PRIMARY's (R186): code 0x23, and SYNCING. -/
def State.compareOutcome (s : State) (r : SealRec) : State :=
  if r.package = s.olc.outcome then { s with olc := { s.olc with outcome := none } }
  else ({ s with olc := { s.olc with outcome := none } }.olcCode 0x23 0).enterSyncing

/-! The sweep on the receiving side (R210, R211). -/

/-- The CRC-64 of R85 over the blocks of a unit that a mask leaves in. -/
def State.unitDigest (s : State) (u : Nat) (mask : BitVec 16) : W64 :=
  ((List.range 16).filter (fun k => !mask.getLsbD k)).foldl
    (fun d k => sigBytes d (s.mem.bytesAt (u * 4096 + k * 256) 256)) (BitVec.allOnes 64)

/-- The first block of a unit, of those compared, that holds an uncorrectable word. -/
def State.unitBad (s : State) (u : Nat) (mask : BitVec 16) : Option Nat :=
  ((List.range 16).filter (fun k => !mask.getLsbD k)).find? (fun k => s.mem.badSpan (u * 4096 + k * 256) 256)

/-- One unit compared: whether it differs; a differing unit is asked of the PRIMARY; a poisoned block is reported (R386). -/
def State.sweepCompare (s : State) (i : SweepItem) : State × Bool :=
  match s.unitBad i.unit i.mask with
  | some k => (s.ueReact (i.unit * 4096 + k * 256), false)
  | none =>
    if s.unitDigest i.unit i.mask = i.digest then (s, false)
    else
      ({ s with pair := { s.pair with asked := s.pair.asked.filter (· ≠ i.unit) ++ [i.unit] } }.sendOnce (.sweepRequest i.unit), true)

def State.sweepAll (s : State) (is : List SweepItem) : State × Bool :=
  is.foldl (fun (x : State × Bool) i => let y := x.1.sweepCompare i; (y.1, x.2 || y.2)) (s, false)

/-! Resynchronisation (R222). -/

/-- The synchronised module becomes STANDBY, with `READY` unless something forbids it. -/
def State.becomeStandby (s : State) : State :=
  let s := (((s.enter .standby).fset F.pairStatus_synced 1).fset F.pairSync_phase 0).tellPlans
  let s := (s.unforce causeTokenLost).fset F.scanStatus_runstate 1
  let s := match s.pair.taken with
    | some c =>
      let mine := s.mem.bytes.filter (fun (e : Host.Cell) => s.bank ≤ e.1 && e.1 < s.bank + 0x1000000)
      { s with olc := { s.olc with flash := { c with bank := mine.map (fun (e : Host.Cell) => (e.1 - s.bank, e.2)) } } }
    | none => s
  let s := { s with
    scan := { s.scan with run := .running, step := .idle, bound := s.pair.lastSeal.scanTime }
    wf := { s.wf with scanAt := s.wf.scanAt.or (some s.time.tb3) }
    pair := { s.pair with taken := none } }
  if s.mayReady then s.setReady true else s

/-- The progress after an applied seal: `gap`: a cycle was missed; `diff`: a unit of its sweep differed. -/
def State.syncStep (s : State) (r : SealRec) (gap diff : Bool) : State :=
  match s.fget F.pairSync_phase with
  | 1 => if s.pair.copied then { s.fset F.pairSync_phase 2 with pair := { s.pair with lapSeen := 0 } } else s
  | 2 =>
    let n := (if gap then 0 else s.pair.lapSeen) + r.sweep.length
    let s := { s with pair := { s.pair with lapSeen := n } }
    if s.sweepUnits.length ≤ n then (s.fset F.pairSync_phase 3).fset F.pairSync_clean 0 else s
  | 3 =>
    let n := if diff then 0 else if gap then 1 else s.fget F.pairSync_clean + 1
    let s := s.fset F.pairSync_clean n
    if 100 ≤ n then s.becomeStandby else s
  | _ => s

/-- The host rings as the STANDBY checks them go on from the sealed `TAKEN` (R341). -/
def State.followRings (s : State) (h : HostSeal) : State :=
  { s with host := { s.host with fetched := Vector.ofFn (fun (n : Fin 16) =>
      let t := vget h.taken n.val
      let f := vget s.host.fetched n.val
      if (t - f).toNat < 2 ^ 31 then t else f) } }

/-- The execution that a completed-chain entry tells of: the latest period of its class whose low 16 bits it gives. -/
def State.sigOf (s : State) (r : SealRec) (d : DoneRec) : SigRec :=
  let now : W64 := match s.chain d.chain with
    | some c =>
      if c.cls = .n ∨ c.cls = .s then BitVec.ofNat 64 (s.mem.rd (s.winBase c.cls + 0x7F018) 8) else r.cycle
    | none => r.cycle
  { chain := d.chain, sig := d.sig, execMask := d.execMask, cycle := now - (now.setWidth 16 - d.period).setWidth 64 }

/-- What the seal record carries beside the copy, taken by the receiving module. -/
def State.takeRecord (s : State) (r : SealRec) : State :=
  let new := r.chains.reverse.map (s.sigOf r)
  let sigs := new ++ s.brm.sigs.filter (fun (c : SigRec) => !new.any (fun d => d.chain == c.chain))
  let own := s.pendingDigests
  let equal := (own.filter (fun e => r.digests.contains e)).map (·.1)
  let handover := r.handover && s.fbit F.pairStatus_ready
  -- a hand-over whose boundary has passed without the token ends here
  let s := if s.pair.handoverIn && s.scan.step == .freeze then (s.haltScan).fsetb F.pairStatus_claim false else s
  let s := { s with
    brm := { s.brm with
      sigs := sigs, newSigs := []
      executedN := Vector.ofFn (fun (k : Fin 4) => vget s.brm.executedN k.val
        + (r.chains.filter (fun (c : DoneRec) => (s.chain c.chain).any (fun (d : ChainDesc) => d.cls.num == k.val))).length) }
    olc := { s.olc with forces := r.forces }
    rfx := { s.rfx with s2r := r.mailbox }
    scan := { s.scan with evq := s.scan.evq.filter (fun (e : ErrEntry) => decide (r.scanTime.toNat ≤ e.last.toNat)) }
    pair := { s.pair with
      lastSeal := r, lastSealed := r.cycle, handoverIn := handover, incoming := if handover then s.guessTrigger else s.pair.incoming
      pDigests := r.digests
      applyAt := r.boundary.or s.pair.applyAt
      agreed := if r.boundary.isSome then s.pair.agreed.filter (fun b => !equal.contains b) ++ equal else s.pair.agreed } }
  let s := (s.wr R.scanEvqDepth (BitVec.ofNat 32 s.scan.evq.length)).fsetb F.scanStatus_evqFull (s.scan.evq.length == 256)
  let s := ((s.countForces.setStale false).fset F.pairHealth_partner r.score).wr64 R.scanCycleLo r.cycle
  (s.followRings r.host).modCls 0 (fun c => { c with cycle := r.cycle })

/-- A seal record whose header flags the trip notice (R206): the class that tripped is an open value [2]. -/
def State.sealTrip (s : State) : State := s.take.2.tripNoted (s.take.1.toNat % 3)

/-- `SEAL_RECORD_RX` (R207, R208): a copy whose CRC checks is acknowledged and applied whole, with what the record carries;
one whose CRC fails is discarded and not acknowledged. -/
def execSealRecordRx (r : SealRec) (s : State) : Res :=
  let x := s.copyGranted
  let refused := { x.1 with pair := { x.1.pair with staged := [] } }
  let gap := r.cycle != s.pair.lastSeal.cycle + 1
  let t := x.1.sendOnce (.sealAck r.cycle x.1.pendingDigests)
  let t := [1, 2].foldl (State.sealCommit r) t
  let t := if s.mod = .standby ∧ s.abit F.brmAuditCtrl_en then t.saveOwn t.applyCopy r else t.applyCopy
  let t := t.takeRecord r
  let t := ([1, 2].foldl (State.followCls r) ((t.commitOutputs .f).forceOutputs .f)).vwSettle
  let t := if t.agreedNow blkPair then t.planActivate blkPair else t
  let t := if t.bogie.linkFault && !t.token then t.mirrorFill else t
  let y := t.sweepAll r.sweep
  let t := if s.mod = .syncing then y.1.syncStep r gap y.2
    else
      let t := y.1.compareOutcome r
      if r.go && t.mod == .standby && t.pkgState == pkgArmed then t.carryStart else t
  let t := if r.trip then t.sealTrip else t
  s.linkRx false (s.mod == .standby || s.mod == .syncing) (if s.copyOk r && x.2 then t else refused)

/-! The acknowledgement (R207). -/

/-- `SEAL_ACK_RX` (R207): the cycle is sealed: the dirty bits of the blocks it carried clear, the completions it carried
are written, a hand-over may follow at the next boundary, and the F-cycle is complete (R42). -/
def execSealAckRx (cycle : W64) (digests : List (Nat × W64)) (s : State) : Res :=
  let t := { s with
    pair := { s.pair with
      dirty := s.pair.inFlight.foldl (fun (d : NSet) (e : Nat × Bool) => d.del e.1) s.pair.dirty
      inFlight := [], sealPending := none, unsealed := 0, lastSealed := cycle, lastSeal := s.pair.sent
      handoverAcked := s.pair.handoverSent, pDigests := digests } }.sealCmds cycle true
  let t := if t.agreedNow blkPair then t.planActivate blkPair else t
  s.linkRx false (s.seals && s.scan.step == .awaitSeal && s.pair.sealPending == some cycle) t.completeAll.cycleDone

/-! Resynchronisation: requests and the full copy (R207, R221). -/

/-- `RESYNC_DEMAND_RX` (R207, R212). -/
def execResyncDemandRx (s : State) : Res := s.linkRx false (s.mod == .standby) s.enterSyncing

/-- A register of the configuration that the full copy carries: not those of a module's own trims or of the host. -/
def copyReg (off : Nat) : Bool := confReg off && off / 0x1000 != 0xB && !keptStore off

/-- The configuration in force (R221): active values where a register has one beside its own, values of the others. -/
def State.currentCfg (s : State) : FlashCfg :=
  let regs := (s.act.filter (fun (e : Nat × W32) => copyReg e.1 && keepsActive e.1))
    ++ (s.regs.filter (fun (e : Nat × W32) => copyReg e.1 && !keepsActive e.1)) ++ s.cat.eff.filter (fun (e : Nat × W32) => isCatEntry e.1)
  { s.olc.flash with
    digestOk := true, winF := s.conf.winF, winN := s.conf.winN, winS := s.conf.winS, bank := []
    staging := s.conf.staging, recArea := s.conf.recArea, carryArea := s.conf.carryArea
    plans := { regs := regs, ring := some s.ring.plan, tasks := s.conf.tasks, scanOut := s.conf.scanOut } }

/-- A span of memory, sparse. -/
def State.spanItem (s : State) (a n : Nat) : FullItem :=
  .span a n (s.mem.bytes.filter (fun (e : Host.Cell) => a ≤ e.1 && e.1 < a + n))

/-- Where the scan stands. -/
def State.scanAt (s : State) : ScanAt :=
  let p (k : Nat) : PeriodAt :=
    let c := s.clsRun k
    { cycle := c.cycle, running := c.running, complete := c.complete, freezeTime := c.freezeTime, doneIn := c.doneIn }
  { tb2From := s.time.tb2From, nsOrigin := s.scan.nsOrigin, n := p 1, s := p 2
    openChains := s.brm.openChains, waiting := s.brm.waiting }

/-- Uncorrectable words that the full copy would read: instance blocks are reinitialised (R387), blocks of the active bank
rewritten from flash (R385). -/
def State.copyClean (s : State) : State :=
  let blocks := s.mem.poison.foldl (fun (l : List Nat) e => if l.contains (e.1 / 32) then l else l ++ [e.1 / 32]) []
  blocks.foldl (fun (s : State) b =>
    let a := b * 256
    if regionOf a = some .instance_ then s.reinitBlock b
    else if s.bank ≤ a ∧ a < s.bank + 0x1000000 then
      s.restoreBlock b ((List.range 256).map (fun i => sget (fun _ => 0) s.olc.flash.bank (a - s.bank + i)))
    else s) s

/-- The items of the full copy, in the order of R221. -/
def State.fullItems (s : State) : List FullItem :=
  [.config s.currentCfg s.olc.keys, s.spanItem s.bank 0x1000000]
    ++ (if s.pkgState = pkgEmpty then [] else [s.spanItem s.idle 0x1000000])
    ++ [.package s.pkgState (s.rd R.olcLoaded).toNat s.olc.plans s.bankB, s.spanItem 0x02000000 0x2000000]
    ++ [Cls.f, .n, .s].map (fun c => s.spanItem (s.winBase c) 0x100000) ++ [.scan s.scanAt, .last]

/-- The full copy is sent: in one step of the model, in the order of R221. -/
def State.sendFullCopy (s : State) : State :=
  let s := s.copyClean
  (s.fullItems.foldl (fun (s : State) i => s.sendOnce (.fullCopy i)) s).tellPlans

/-- `RESYNC_REQUEST_RX` (R66, R221): a PRIMARY starts the full copy; a STOPPED module without the token enters SYNCING. A
module in another state, in SERVICE above all (R463), does not take the request: it is not acknowledged, and comes again. -/
def execResyncRequestRx (id : Nat) (s : State) : Res :=
  match s.mod with
  | .primary => s.onceOnly id s.sendFullCopy
  | .alone => s.onceOnly id ((s.enter .primary).canPermit).sendFullCopy
  | .stopped => if s.token then .next s else s.onceOnly id s.enterSyncing
  | _ => .next s

/-- A configuration from the full copy takes the place of the module's own. -/
def State.takeCopied (s : State) (c : FlashCfg) (keys : Vector (Option (BitVec 256)) 4) : State :=
  let s := { s with
    regs := s.regs.filter (fun (e : Nat × W32) => !copyReg e.1)
    act := s.act.filter (fun (e : Nat × W32) => !copyReg e.1)
    olc := { s.olc with keys := keys }
    pair := { s.pair with taken := some c } }
  let s := [1, 2, 3, 4, 5, 6, 7, 8, 9, 10, 12, 13, 14, 16, 17, 18, 20].foldl State.pendClear s
  let s := s.dmaWait
  let s := s.wr R.olcKeyValid (BitVec.ofNat 32 ((List.range 4).foldl (fun m k => m + bit (vget keys k).isSome * 2 ^ k) 0))
  s.loadConfig c

/-- One item of the full copy, taken. -/
def State.takeItem (s : State) : FullItem → State
  | .config c keys => s.takeCopied c keys
  | .span a n cells =>
    let keep (e : Host.Cell) : Bool := !(a ≤ e.1 && e.1 < a + n)
    let m := { s.mem with bytes := s.mem.bytes.filter keep }
    let m := (cells.filter (fun (e : Nat × Byte) => a ≤ e.1 && e.1 < a + n)).foldl (fun (m : Mem) e => m.setByte e.1 e.2) m
    { s with mem := { m with poison := m.poison.filter (fun e => !(a ≤ e.1 * 8 && e.1 * 8 < a + n)) } }
  | .package state loaded plans activeB =>
    let s := ((s.fsetb F.olcStatus_activeBank activeB).setPkg state).wr R.olcLoaded (BitVec.ofNat 32 loaded)
    let s := ({ s with olc := { s.olc with plans := plans, partnerPkg := none } }.dropLines).showBanks
    if state < pkgChecking then s
    else
      -- the module checks the bank of its copy itself, and reports (R171, R172); its state follows the PRIMARY's (R173)
      let t := (s.setPkg pkgChecking).checkPackage (some plans)
      if t.pkgState = pkgChecked ∧ pkgArmed ≤ state then t.setPkg pkgArmed else t
  | .scan p =>
    let set (s : State) (k : Nat) (q : PeriodAt) : State := s.modCls k (fun c => { c with
      cycle := q.cycle, running := q.running, released := q.running, complete := q.complete
      freezeTime := q.freezeTime, doneIn := q.doneIn })
    let s := { s.tb2Start p.tb2From with
      scan := { s.scan with nsOrigin := p.nsOrigin }
      brm := { s.brm with openChains := p.openChains, waiting := p.waiting } }
    set (set s 1 p.n) 2 p.s
  | .last =>
    let s := [Cls.f, .n, .s].foldl State.commitOutputs s
    let s := { s with pair := { s.pair with copied := true } }.countForces
    (s.wr R.sysCfgStatus 1).fset F.sysStatus_cfgRefused 0

/-- `FULL_COPY_RX` (R221): a part of the full copy arrives; `pct` is the share sent. -/
def execFullCopyRx (item : FullItem) (pct : Fin 101) (s : State) : Res :=
  s.linkRx true (s.mod == .syncing) ((s.takeItem item).fset F.pairSync_copyPct pct.val)

/-! The sweep's units (R211). -/

/-- Whether a word holds nothing that anything reads: in no symbol of kind 0, 1 or 2 of the active symbol table, in none of
the items of a frozen image (R43). -/
def State.benign (s : State) (a : Nat) : Bool :=
  let inSym := (s.syms s.bank).any (fun y => y.kind ≤ 2 &&
    decide (s.symAddr s.bank y < a + 8 ∧ a < s.symAddr s.bank y + y.size))
  let item (c : Cls) : Bool :=
    let b := s.winBase c
    let places := s.ringFrozen c ++ s.peerFrozen c ++ s.canFrozen c ++ s.xchFrozen c ++ [(0x7F000, s.fixedItems 0 false false)]
    places.any (fun e => decide (b + e.1 < a + 8 ∧ a < b + e.1 + e.2.length))
      || (c == .f && decide (b + 0x7B000 < a + 8 ∧ a < b + 0x7F000))
  !inSym && !([Cls.f, .n, .s].any item)

/-- A differing word is classed, counted and recorded. -/
def State.classWord (s : State) (a : Nat) : State :=
  if s.benign a then s.bump R.pairBenign
  else ({ s with pair := { s.pair with diverge := s.time.tb3 :: recent s.time.tb3 s.pair.diverge } }.bump R.pairDiverge).raise
    hapDiverge 0 [BitVec.ofNat 64 a]

/-- `SWEEP_UNIT_RX` (R211): the PRIMARY's content of a differing unit is compared word by word and taken; at the third
difference other than benign in 86,400 operating seconds the STANDBY enters SYNCING. -/
def execSweepUnitRx (unit : Nat) (data : List Byte) (s : State) : Res :=
  let a := unit * 4096
  let words := (List.range 512).filter (fun k => s.mem.bytesAt (a + 8 * k) 8 != (data.drop (8 * k)).take 8)
  let t := words.foldl (fun (s : State) k => s.classWord (a + 8 * k)) s
  let t := { t.wrMem a data with pair := { t.pair with asked := t.pair.asked.filter (· ≠ unit) } }
  let t := if s.bank ≤ a ∧ a < s.bank + 0x1000000 then
    (List.range 16).foldl (fun (t : State) k => t.dropBlockLines (a + k * 256 - s.bank)) t else t
  let third := decide (3 ≤ (recent s.time.tb3 t.pair.diverge).length) && decide (s.rd R.pairDiverge ≠ t.rd R.pairDiverge)
  s.linkRx true (s.pair.asked.contains unit && data.length == 4096 && !s.sweepHeld unit && (s.mod == .standby || s.mod == .syncing))
    (if third && s.mod == .standby then t.enterSyncing else t)

/-- `SWEEP_UNIT_REQUEST_RX` (R211): the PRIMARY sends the unit asked for. -/
def execSweepUnitRequestRx (unit : Nat) (s : State) : Res :=
  s.linkRx true (s.mod == .primary && s.sweepUnits.contains unit && !s.sweepHeld unit && !s.commitSpan (unit * 4096) 4096)
    (s.sendOnce (.sweepUnit unit (s.mem.bytesAt (unit * 4096) 4096)))

/-! Agreement (R224). -/

/-- `AGREEMENT_TIMEOUT` (R224): the digests of a pending pair-wide plan have not been equal within 1 s: it is discarded,
counted and recorded. -/
def execAgreementTimeout (b : Fin 22) (s : State) : Res :=
  let n := b.val
  let t := (s.dropGroup n).bump R.pairAgreeFail
  s.when (s.paired && (s.pendingDigests.map (·.1)).contains n && !s.pair.agreed.contains n) (t.raise hapAgree n [BitVec.ofNat 64 n])

end Sys2Proof.Machine
end

