-- ==== Sys2Proof/Machine/Plane.lean ====
section
/-!
DEFINITION. Writes to the setup window by their access type (R6-R10, R30, R476-R481), commit groups and their safe points
(R14-R16), the configuration forwarded to the partner (R224, R343), and the restart of MC (R35, R36).
-/

namespace Sys2Proof.Machine

/-! Locked fields (R479). -/

/-- The member of an array that an offset names. -/
def member (first stride off : Nat) : Nat := (off - first) / stride

/-- Whether the block, channel, port or ring of an RWL register runs (Table: Locked fields). -/
def State.locked (s : State) (off : Nat) : Bool :=
  if isPeriod off then s.scan.run == .running || (s.mod != .config && s.mod != .stopped)
  else if isArr 0x7108 0x20 8 off || isArr 0x710C 0x20 8 off then s.abit (F.aoChnCfg_en (member 0x7100 0x20 off))
  else if isArr 0xA100 0x40 4 off || isArr 0xA104 0x40 4 off then s.canState (member 0xA100 0x40 off) != canDown
  else if decide (0xB040 ≤ off ∧ off < 0xB0C0) then s.portOn (member 0xB040 0x40 off)
  else if decide (0xB200 ≤ off ∧ off < 0xB400) then s.ringOn (member 0xB200 0x20 off)
  else false

/-! Triggers and keys: WO registers (R8, R481). -/

/-- Operations that the set bits of a word name, in ascending bit order. -/
def State.onBits (s : State) (v : W32) (ops : List (Nat × (State → State))) : State :=
  ops.foldl (fun s e => if v.getLsbD e.1 then e.2 s else s) s

/-- Blocks with a `BLOCK_APPLY` register. -/
def hasApply (b : Nat) : Bool := [1, 2, 3, 4, 5, 6, 7, 8, 9, 10, 12, 13, 14, 16, 17, 18, 20, 21].contains b

/-- A write to `BLOCK_APPLY` (R10, R16, R477): the group waits for its safe point; MEM and REC take it at once. `plan` is the
ring exchange plan that MC has made for RING; MC in reset makes none (R35). -/
def State.applyBlock (s : State) (b : Nat) (plan : Option RingPlan) : State :=
  if b = blkPwr then s.pwrApply
  else if s.applyPend b then s.ignoredIn b
  else
    let s := s.fset ⟨R.sysApplyPend, b, 1⟩ 1
    let s := if b = blkRing ∧ s.fbit F.sysStatus_mcRun then { s with conf := { s.conf with ring := plan.orElse (fun _ => s.conf.ring) } } else s
    if b = 16 ∨ b = 18 then s.planActivate b else if b = blkDma then s.dmaWait else s

/-- A bit of `SCAN_CTRL.START`. -/
def State.ctrlStart (s : State) : State := s.scanStart.getD (s.ignoredIn blkScan)

/-- A write to a `BLOCK_CTRL` register: none where the offset is no such register. Bits set together act in ascending bit
order [105]: `ARM` before `DISARM`. -/
def State.writeCtrl (s : State) (off : Nat) (v : W32) : Option State :=
  if off = R.sysCtrl then some (s.onBits v [(0, State.sysClrCnt)])
  else if off = R.scanCtrl then some (s.onBits v [(0, State.ctrlStart), (1, State.scanClrMax)])
  else if off = R.brmCtrl then some (s.onBits v [(0, State.brmClrCnt)])
  else if off = R.rfxCtrl then some (s.onBits v [(0, State.rfxCtrlArm), (1, State.rfxCtrlDisarm), (2, State.rfxClrCnt), (3, State.rfxClrMaxlat)])
  else if off = R.dioCtrl then some (s.onBits v [(0, State.dioClrCnt), (1, State.dioClrMin)])
  else if off = R.aoCtrl then some ((s.aoRetest (v.setWidth 8)).onBits v [(8, State.aoClrCnt)])
  else if off = R.acqCtrl then some (s.onBits v [(0, State.acqEnable), (1, State.acqDisable), (2, State.acqArm), (3, State.acqDisarm),
    (4, State.acqForceTrig), (5, State.acqClrCnt)])
  else if off = R.ringCtrl then some (s.onBits v [(0, State.ringClrCnt)])
  else if off = R.canCtrl then some (((s.canStart (v.setWidth 4) 0).canStop (v.extractLsb' 4 4)).onBits v [(8, State.canClrCnt)])
  else if off = R.hostCtrl then some ((s.hostResume (v.setWidth 2)).onBits v [(8, State.hostClrCnt)])
  else if off = R.dmaCtrl then some (s.onBits v [(0, State.dmaClrCnt)])
  else if off = R.drayCtrl then some (s.onBits v [(0, State.drayClrCnt)])
  else if off = R.timeCtrl then some (s.onBits v [(0, State.timeSnap), (1, State.timeClrCnt)])
  else if off = R.catCtrl then some (s.onBits v [(0, State.catClrFault), (1, State.catClrCnt)])
  else if off = R.memCtrl then some (s.onBits v [(0, State.memClrCnt)])
  else if off = R.wfCtrl then some (s.onBits v [(0, State.wfClrCnt)])
  else if off = R.recCtrl then some (s.recCtrl v)
  else if off = R.obsCtrl then some (s.onBits v [(0, State.obsEndStep), (1, State.obsClrCnt)])
  else if off = R.pwrCtrl then some (s.onBits v [(0, State.pwrClrCnt)])
  else none

/-- A write to a WO register. -/
def State.writeWo (s : State) (m : Master) (off : Nat) (v : W32) : State :=
  let x := v.toNat
  if off / 0x1000 = 15 ∧ m ≠ .mc then s.ignoredIn 15 else
  match s.writeCtrl off v with
  | some t => t
  | none =>
    if off = R.sysRestart then s.sysRestart v
    else if off = R.scanRestart then s.scanRestartKey v
    else if off = R.brmUnretire then s.brmUnretire v
    else if off = R.rfxUnretire then s.rfxUnretire v
    else if off = R.olcCmd then s.olcCmd (fldN x 0 4) (bitN x 4) (fldN x 16 16)
    else if off = R.pairCtrl then s.pairCtrl (fldN x 0 4) (v.extractLsb' 16 16)
    else if isArr 0xB20C 0x20 16 off then s.doorbell m (member 0xB200 0x20 off) v
    else if isArr 0xC110 0x20 16 off then s.dmaResume (member 0xC100 0x20 off) v
    else if off = R.timeSetSecLo ∨ off = R.timeSetSecHi then s.wr off v
    else if off = R.timeSetNs then (if s.inRange off v then s.wr off v else s.ignoredIn blkTime)
    else if off = R.timeSet then s.timeSetKey v
    else if off = R.catBarrier then s.catBarrier v
    else if hasApply (off / 0x1000) && off % 0x1000 == 0xC then s.applyBlock (off / 0x1000) none
    else s

/-! Values: RW, RWL and RWS registers (R6, R8, R10). -/

/-- A write to an RW register takes effect at once. -/
def State.writeRw (s : State) (m : Master) (off : Nat) (v mask : W32) : State :=
  if isArr 0xF400 8 128 off then s.catWriteAddr m (Fin.ofNat 128 (member 0xF400 8 off)) v
  else if isArr 0xF404 8 128 off then s.catWriteAttr m (Fin.ofNat 128 (member 0xF400 8 off)) v
  else if off = R.hostRingEn then s.setRingEn v
  else if isArr 0xB050 0x40 2 off then s.setCqHead (member 0xB040 0x40 off) v
  else if isArr 0xB060 0x40 2 off then s.setEqHead (member 0xB040 0x40 off) v
  else s.wr off (v &&& mask)

/-- A write to an RWS register goes to the shadow (R478), unless its group is pending (R10) or a field is out of range. -/
def State.writeRws (s : State) (off : Nat) (v mask : W32) : State :=
  let b := off / 0x1000
  if s.applyPend b ∨ !s.inRange off v then s.ignoredIn b
  else (s.wr off (v &&& mask)).fset ⟨R.sysShadowPend, b, 1⟩ 1

/-- A write to an RWL register, ignored while its block runs (R479) or where a field is out of range. A class period written in
STOPPED waits for the restart boundary (R68), and in a pair a bit timing waits for the agreement (R224). -/
def State.writeRwl (s : State) (off : Nat) (v mask : W32) : State :=
  if s.locked off ∨ !s.inRange off v then s.ignoredIn (off / 0x1000)
  else if (isPeriod off ∧ s.mod = .stopped) ∨ (isTiming off ∧ s.paired) then s.wr off (v &&& mask)
  else s.setBoth off (v &&& mask)

/-- A write of 1 to W1C bits clears them, except where hardware sets them in the same clock (R8, R9). -/
def State.writeW1C (s : State) (off : Nat) (v hw : W32) : State :=
  s.wr off (s.rd off &&& ~~~(v &&& regW1C off &&& ~~~hw))

/-- An aligned 32-bit write that the CAT allows, by the access type of the register (R8, R30, R443, R481). -/
def State.writeReg (s : State) (m : Master) (off : Nat) (v : W32) : State :=
  if off / 0x1000 = 19 then s.bump R.tcIgnored
  else
    match regRow off with
    | none => s.badAccess (masterCls m) off true true
    | some r =>
      match r.access with
      | .wo => s.writeWo m off v
      | .rw => s.writeRw m off v r.mask
      | .rws => s.writeRws off v r.mask
      | .rwl => s.writeRwl off v r.mask
      | _ => if regW1C off = 0 then s else s.writeW1C off v 0

/-- A write of any shape by a master (R5, R7, R481): one that the CAT refuses reaches no register. -/
def State.setupWrite (s : State) (m : Master) (off size : Nat) (v : W32) : State :=
  if badShape off size then
    (if off / 0x1000 = 19 then s.bump R.tcIgnored else s.badAccess (masterCls m) off true false).emit (.errorResponse m off)
  else
    let c := s.setupAccess m .write off
    if c.2 then c.1.writeReg m off v else c.1

/-- `SETUP_WRITE` (R8): a write to a setup register that has no row of its own. -/
def execSetupWrite (m : Master) (off size : Nat) (v : W32) (s : State) : Res :=
  s.when (s.masterRuns m) (s.setupWrite m off size v)

/-- `W1C_CLEAR` (R9): a write of 1 to `DIO_STATUS.HOLD_SEEN`; `hwSet`: hardware sets the bit in the same clock. -/
def execW1cClear (m : Master) (v : W32) (hwSet : Bool) (s : State) : Res :=
  let c := s.setupAccess m .write R.dioStatus
  let hw : W32 := if hwSet then regW1C R.dioStatus else 0
  let t := if c.2 then c.1.writeW1C R.dioStatus v hw else c.1
  s.when (s.masterRuns m) (if hwSet then t.fset F.dioStatus_holdSeen 1 else t)

/-- `BLOCK_APPLY` (R10, R16): a write to the `BLOCK_APPLY` register of block `b`. -/
def execBlockApply (m : Master) (b : Fin 22) (plan : Option RingPlan) (s : State) : Res :=
  if hasApply b.val then s.asWrite m (b.val * 0x1000 + 0xC) (fun s => s.applyBlock b.val plan) else .next s

/-- Whether a block is at a safe point of its group outside the F boundaries of a scan (Table: Plans, Table: Commit
groups). A capture that is open while the sequencer is idle finishes on the old routes, so the new ones wait for its end [122]. -/
def State.safePoint (s : State) (b : Nat) : Bool :=
  if atBoundary b ∨ b = blkPair then !s.scanning && s.power.rails
  else if b = blkAcq then !s.acqOn || (s.seqState == 16 && s.openCap.isNone)
  else if b = blkDma then (List.range 16).all (fun ch => vget s.dma.chan ch == none)
  else if b = blkDray then s.dray.lane.toList.all (fun (f : Option DrayFrame) => f == none)
  else b == blkCan || b == blkTime

/-- `PLAN_ACTIVATION` (R14): a pending group reaches its safe point and becomes active whole, under the pair's agreement
where it is pair-wide (R224). Groups due at the boundary of a running scan, and the copy map after its seal, become active
with those (`F_BOUNDARY`, `COPY_END`). -/
def execPlanActivation (b : Fin 22) (s : State) : Res :=
  s.when (s.safePoint b.val && s.agreedNow b.val) (s.planActivate b.val)

/-! Configuration (R224, R336, R343). -/

/-- Whether a write as MC is ignored: counted by its block, or as a hole. -/
def State.writeIgnored (s : State) (off : Nat) (v : W32) : Bool :=
  if off % 4 ≠ 0 then true
  else
    let counts := [off / 0x1000 * 0x1000 + (if off / 0x1000 = 0xF then 0x14 else 0x10), R.tcIgnored, R.sysBadAccess]
    let t := (s.zero counts).writeReg .mc off v
    counts.any (fun o => t.rd o != 0)

/-- A write to the Tally Cart window (R31): an error response, counted; the count is `TC_IGNORED` [104]. -/
def State.cartWrite (s : State) (m : Master) (off : Nat) : State := (s.bump R.tcIgnored).emit (.errorResponse m off)

/-- One pair of a `CONFIG` command, an access of MC (R5, R31, R378): none where the CAT refuses it, otherwise whether the write
is ignored. -/
def State.writePair (s : State) (off : Nat) (v : W32) : State × Option Bool :=
  if off % 4 ≠ 0 then (s.badAccess clsMc off true false, some true)
  else
    let c := s.setupAccess .mc .write off
    if !c.2 then (c.1, none)
    else if regionOf (0x10000000 + off) = some .cart then (c.1.cartWrite .mc off, some true)
    else (c.1.writeReg .mc off v, some (c.1.writeIgnored off v))

/-- The pairs of a `CONFIG` command written in order: the number of writes ignored; none: MC abandoned the command at a pair
that the CAT refused (R378). -/
def State.writePairs (s : State) (data : List Byte) : State × Option Nat :=
  (List.range (data.length / 8)).foldl (fun (x : State × Option Nat) i =>
    match x.2 with
    | none => x
    | some k =>
      let y := x.1.writePair (leNat ((data.drop (8 * i)).take 4)) (BitVec.ofNat 32 (leNat ((data.drop (8 * i + 4)).take 4)))
      (y.1, y.2.map (fun ig => k + bit ig))) (s, some 0)

/-- The digest of the ring registers of a port (R343): CRC-64 of R85 over offset and value of each that differs from its
reset value. -/
def State.ringDigest (s : State) (p : Nat) : W64 :=
  let mine (off : Nat) : Bool :=
    isArr 0xB044 4 4 (off - 0x40 * p) || isArr 0xB054 4 3 (off - 0x40 * p)
      || (decide (0xB200 + 0x100 * p ≤ off ∧ off < 0xB300 + 0x100 * p) && off % 0x20 < 0xC)
  let en := BitVec.extractLsb' (8 * p) 8 (s.rd R.hostRingEn)
  (s.regs.filter (fun (e : Nat × W32) => mine e.1 && !isArr 0xB050 0x40 2 e.1)).foldl
    (fun g e => sigBytes g (leBytes 4 e.1 ++ leBytes 4 e.2.toNat)) (sigBytes (BitVec.allOnes 64) (leBytes 1 (en.toNat)))

/-- The digests that travel with the forwarded configuration. -/
def State.ringDigests (s : State) : List W64 := [s.ringDigest 0, s.ringDigest 1]

/-- PEER_DIFF (R343): the PRIMARY compares the partner's digests with its own. -/
def State.comparePeer (s : State) (ds : List W64) : State :=
  [0, 1].foldl (fun s p =>
    match ds[p]? with
    | none => s
    | some d =>
      let diff := d != s.ringDigest p
      let t := s.fsetb (F.hostPpStatus_peerDiff p) diff
      if diff && !s.fbit (F.hostPpStatus_peerDiff p) then t.raise hapPeerDiff p [] else t) s

/-- A historian subscription stored, or removed with no symbols (opcode 0x1A); none: a symbol absent or of the wrong kind or
size. -/
def State.histSub (s : State) (arg0 : W64) (data : List Byte) : Option State :=
  let ids := (List.range (data.length / 8)).map (fun i => BitVec.ofNat 64 (leNat ((data.drop (8 * i)).take 8)))
  let x := arg0.toNat
  let n := fldN x 0 6
  let h : HistSub := { sub := n, cls := Cls.ofCode (fldN x 8 2), k := fldN x 16 16, ids := ids }
  let good (id : W64) : Bool :=
    match s.sym s.bank id with
    | some y => (y.kind == 1 || y.kind == 2) && decide (y.size ≤ 8)
    | none => false
  let rest := s.dray.subs.filter (fun (g : HistSub) => g.sub ≠ n)
  if !ids.all good then none
  else some { s with dray := { s.dray with subs := if ids = [] then rest else rest ++ [h] } }

/-- What an item forwarded by the PRIMARY does on its partner, by the opcode of its command (R171, R187, R188, R224, R336). -/
def State.takeForwarded (s : State) (op : Nat) (args : List W64) (data : List Byte) : State :=
  let a (k : Nat) : W64 := args.getD k 0
  let n (k : Nat) : Nat := (a k).toNat
  match op with
  | 0 => { s with pair := { s.pair with pPlans := plansTold args } }
  | 0x05 => if s.mod = .standby then (s.writePairs data).1 else s
  | 0x06 => (s.vwQueue (a 0) (n 1) (n 2) (n 3) (a 4)).1
  | 0x0A => if s.pkgState = pkgChecked then s.setPkg pkgArmed else s
  | 0x0B => s.pkgCancel.getD s
  | 0x0C => s.pkgDiscard.getD s
  | 0x0D => (s.constPatch (a 0) (n 1) (n 2) (a 3)).1
  | 0x1A => (s.histSub (a 0) data).getD s
  | _ => s

/-- `CONFIG_FORWARD_RX` (R224): an item forwarded by the PRIMARY reaches a STANDBY or SYNCING module, which acts on it
itself. On a PRIMARY it is the partner's answer, which carries the digests of the partner's ring registers (R343). While MC is
in reset no plan is written (R35): the item is neither acted on nor acknowledged, and comes again (R202). -/
def execConfigForwardRx (id opcode : Nat) (args : List W64) (data : List Byte) (s : State) : Res :=
  if !s.fbit F.sysStatus_mcRun then .next s else
  let t :=
    if opcode = 0 then s.takeForwarded 0 args data
    else if s.mod = .standby ∨ s.mod = .syncing then
      let t := s.takeForwarded opcode args data
      if opcode = 5 then t.sendOnce (.item 5 t.ringDigests []) else t
    else if s.mod = .primary ∧ opcode = 5 then s.comparePeer args
    else s
  s.onceOnly id t

/-! MC (R35, R36). -/

/-- `MC_LOCKSTEP_MISMATCH` (R35): the cores of MC disagree: the AOS resets MC alone. -/
def execMcLockstepMismatch (s : State) : Res := s.when (s.fbit F.sysStatus_mcRun) s.mcReset

/-- `MC_SELFTEST_COMPLETE` (R35, R36): MC resumes and serves the commands that wait; or it stays in reset for good, a PRIMARY
asks for a switch-over, and in ALONE the front display shows it. -/
def execMcSelftestComplete (pass : Bool) (s : State) : Res :=
  let s1 := { s with power := { s.power with mcTest := false } }
  let good := ((s1.fset F.sysStatus_mcRun 1).unforce causeMcReset).dmaGo.completeAll
  let bad := (s1.fset F.sysStatus_mcFailed 1).forceZero causeMcFailed
  let bad := ({ bad with pair := { bad.pair with forced := bad.pair.forced.del causeMcReset } }).showForced
  let bad := if s.mod = .alone then bad.emit (.display (Config.pageText 18 [])) else bad
  s.when s.power.mcTest (if pass then good else bad)

end Sys2Proof.Machine
end

