-- ==== Sys2Proof/Machine/HostCmd.lean ====
section
/-!
DEFINITION. The commands of the host rings (R334-R337): each begins, in the order taken, what its row of Table: Command
opcodes gives, and completes as that row says; and the commands that one module executes for its partner.
-/

namespace Sys2Proof.Machine

/-! Beginning a command (R333, R335, R337). -/

/-- S commands change the sealed state (Table: Command opcodes). -/
def opS (op : Nat) : Bool := decide (0x05 ≤ op ∧ op ≤ 0x14) || op == 0x1A
/-- Commands that take `TARGET` (marked P). -/
def opP (op : Nat) : Bool := op == 0x02 || op == 0x16 || op == 0x17 || op == 0x18

/-- Phases of a command that has not begun. -/
def CmdPhase.waiting (p : CmdPhase) : Bool := p == .needIn || p == .movingIn || p == .ready

/-- The command of a ring that may begin: the first that has not, its data fetched; of the S commands of both ports, the
first that is not executed. -/
def State.toBegin (s : State) (n op : Nat) : Option Cmd :=
  match s.host.cmds.find? (fun c => c.ring == n && c.phase.waiting) with
  | none => none
  | some c =>
    let turn := !opS op || (s.host.cmds.find? (fun d => opS d.opcode && d.phase != .done)).map (·.id) == some c.id
    if c.opcode = op ∧ c.phase = .ready ∧ turn then some c else none

/-- A P command with `TARGET` = 1 goes to the partner; without one it completes with 0x0107. -/
def State.toPartner (s : State) (c : Cmd) : State :=
  if s.partner = .off then s.cmdDone c.id 0x0107 0
  else (s.modCmd c.id (fun d => { d with phase := .forwarded })).send (.forwarded c.ring c.desc)

def Cmd.dataBytes (c : Cmd) : List Byte := c.data.getD []
def Cmd.symId (c : Cmd) : W64 := c.desc.modAddr
def Cmd.typeId (c : Cmd) : Nat := fldN c.desc.arg0.toNat 0 32
def Cmd.size (c : Cmd) : Nat := fldN c.desc.arg1.toNat 0 4

/-- The command of opcode `op` that ring `n` begins next: refused for a bad descriptor (R334) or in a state that does not
allow it (R335), forwarded, or executed as `f` gives. A value write refused is counted and recorded (R187). -/
def State.runCmd (s : State) (n op : Nat) (f : State → Cmd → State) : Res :=
  match s.toBegin n op with
  | none => .next s
  | some c =>
    s.when (s.executing && s.fbit F.sysStatus_mcRun)
      (let refused := if op = 0x06 then s.vwRefuse c.symId else s
       if c.bad then refused.cmdDone c.id 0x0101 0
       else if !opAllowed op s.mod (s.partner == .off) then
         (if op = 0x09 ∧ s.mod = .service then s.olcCode 0x0C 0 else refused).cmdDone c.id 0x0102 (modCode s.mod)
       else if opP op && c.target then s.toPartner c
       else f s c)

/-- Data to be written to the host by DMA: captured here, or read by the channel; the completion carries `status` and
`result`. With no data the command is executed. -/
def State.dataOut (s : State) (c : Cmd) (data : Option (List Byte)) (status result : Nat) : State :=
  if data = some [] ∨ (data = none ∧ c.length = 0) then s.cmdDone c.id status result
  else
    let len : W32 := match data with | some d => BitVec.ofNat 32 d.length | none => c.desc.length
    (s.modCmd c.id (fun d => { d with
      phase := .needOut, data := data, status := BitVec.ofNat 32 status, result := BitVec.ofNat 32 result
      desc := { d.desc with length := len } })).dmaGo.completeAll

/-- A command whose operation answers a status: with 0 its item is forwarded, and the command is executed. -/
def State.statusDone (s : State) (c : Cmd) (r : State × Nat) (item : Option Out) : State :=
  if r.2 ≠ 0 then r.1.cmdDone c.id r.2 (if r.2 = 0x0103 ∧ c.opcode = 0x09 then fldN (s.rd R.olcRefuse).toNat 0 8 else 0)
  else
    match item with
    | some o => (r.1.sendFor c.id o).cmdDone c.id 0 0
    | none => r.1.cmdDone c.id 0 0

/-- A command that its block refuses with a code of `OLC_REFUSE`, or carries out; its item is forwarded. -/
def State.olcDone (s : State) (c : Cmd) (r : Option State) (item : Out) : State :=
  match r with
  | none => s.cmdDone c.id 0x0103 (fldN (s.rd R.olcRefuse).toNat 0 8)
  | some t => (t.sendFor c.id item).cmdDone c.id 0 0

/-- A command that its block refuses or carries out, with nothing to forward. -/
def State.plainDone (s : State) (c : Cmd) (r : Option State) : State :=
  match r with
  | none => s.cmdDone c.id 0x0103 0
  | some t => t.cmdDone c.id 0 0

/-! Q commands. -/

/-- `CMD_NOP` (R336, opcode 0x01). -/
def execCmdNop (n : Fin 16) (s : State) : Res := s.runCmd n.val 0x01 (fun s c => s.cmdDone c.id 0 0)

/-- The status block: 17 registers and zeros to 64 words. -/
def State.statusBlock (s : State) : List Byte :=
  let regs := [R.pairStatus, R.pairHealth, R.scanStatus, R.scanCycleLo, R.scanCycleHi, R.brmStatus, R.brmReserve, R.rfxStatus,
    R.olcStatus, R.olcActIdLo, R.olcActIdHi, R.olcActVer, R.dioStatus, R.acqStatus, R.ringStatus, R.canStatus, R.drayStatus]
  regs.flatMap (fun o => leBytes 4 (s.rd o).toNat) ++ List.replicate 188 0

/-- `STATUS` (R336, opcode 0x02). -/
def execStatusCmd (n : Fin 16) (s : State) : Res :=
  s.runCmd n.val 0x02 (fun s c => s.dataOut c (some s.statusBlock) 0 0)

/-- `READ_MEM` (R336, opcode 0x03): the channel reads module memory as it moves the data. -/
def execReadMem (n : Fin 16) (s : State) : Res := s.runCmd n.val 0x03 (fun s c => s.dataOut c none 0 0)

/-- `READ_SYM` (R336, opcode 0x04): the bytes are copied at the next commit of the symbol's class, for kind 3 at once. -/
def execReadSym (n : Fin 16) (s : State) : Res :=
  s.runCmd n.val 0x04 (fun s c =>
    match s.sym s.bank c.symId with
    | none => s.cmdDone c.id 0x0105 0
    | some y =>
      let off := c.desc.arg0.toNat
      if off + c.length > y.size then s.cmdDone c.id 0x0101 0
      else if y.kind = 3 then
        let g := s.mcAccess .read (s.symAddr s.bank y + off) c.length
        if g.2 then g.1.dataOut c (some (s.symRead y off c.length)) 0 0 else g.1.cmdDone c.id 0x0103 0
      else s.modCmd c.id (fun d => { d with phase := .waitCommit }))

/-- `CAN_TX` (R315, R336, opcode 0x15): the content of a buffer of owner MC is replaced and the buffer queued. -/
def execCanTx (n : Fin 16) (s : State) : Res :=
  s.runCmd n.val 0x15 (fun s c =>
    let p := fldN c.desc.arg0.toNat 0 2
    let i := fldN c.desc.arg0.toNat 8 6
    if (s.canDesc p i).owner ≠ 0 then s.cmdDone c.id 0x0101 0
    else ((s.setBuf p i (fun b => { b with content := c.dataBytes })).canQueueBuf p i).cmdDone c.id 0 0)

/-- Flushed records from an index on, at most `k`. -/
def State.recBytesFrom (s : State) (first k : Nat) : List Byte := ((s.recd.area.drop first).take k).flatMap recBytes

/-- `REC_READ` (R416, opcode 0x16). -/
def execRecRead (n : Fin 16) (s : State) : Res :=
  s.runCmd n.val 0x16 (fun s c =>
    let b := s.recBytesFrom c.desc.modAddr.toNat (c.length / 64)
    s.dataOut c (some b) 0 (b.length / 64))

/-- `REC_CTRL` (R417, R418, opcode 0x17) of one action: 0 freeze, 1 unfreeze, 2 re-arm; one that does not act is refused. -/
def State.recAsk (s : State) (action : Nat) (a : Asker) : Option State :=
  match action with
  | 0 => s.freeze a
  | 1 => s.unfreeze.map (·.tellAsker a)
  | 2 => s.rearm a
  | _ => none

/-- The three rows of `REC_CTRL`: each begins the command whose `ARG0` names its action. -/
def State.recCmd (s : State) (n action : Nat) : Res :=
  match s.toBegin n 0x17 with
  | none => .next s
  | some d =>
    if fldN d.desc.arg0.toNat 0 2 = 3 ∧ action = 0 ∨ fldN d.desc.arg0.toNat 0 2 = action then
      s.runCmd n 0x17 (fun s c =>
        ((s.modCmd c.id (fun d => { d with phase := .waitEffect })).recAsk action (.command c.id)).getD (s.cmdDone c.id 0x0103 0))
    else .next s

/-- `REC_CTRL_FREEZE` (R417). -/
def execRecCtrlFreeze (n : Fin 16) (s : State) : Res := s.recCmd n.val 0
/-- `REC_CTRL_UNFREEZE` (R417). -/
def execRecCtrlUnfreeze (n : Fin 16) (s : State) : Res := s.recCmd n.val 1
/-- `REC_CTRL_REARM` (R418): the command completes when the first block is erased and REARMED staged. -/
def execRecCtrlRearm (n : Fin 16) (s : State) : Res := s.recCmd n.val 2

/-- `TC_READ` (R31, R336, opcode 0x18): the channel reads the cartridge window; an error response gives 0x0108. -/
def execTcRead (n : Fin 16) (s : State) : Res := s.runCmd n.val 0x18 (fun s c => s.dataOut c none 0 0)

/-- `BULK_SEND` (R350, opcode 0x19): the command ends with its last bulk frame. -/
def execBulkSend (n : Fin 16) (s : State) : Res :=
  s.runCmd n.val 0x19 (fun s c =>
    let b : Bulk := { cmd := c.id, addr := c.desc.modAddr.toNat, len := c.length, tag := c.desc.tag }
    let t := s.modCmd c.id (fun d => { d with phase := .bulk })
    { t with dray := { t.dray with bulk := t.dray.bulk ++ [b] } }.drayShow)

/-! S commands. -/

/-- `CONFIG` (R224, R336, opcode 0x05): the pairs are written in order as MC accesses and forwarded with the digests of the
ring registers (R343). At a pair that the CAT refuses MC abandons the command: it completes with 0x0103 and is not forwarded
(R378). -/
def execConfigCmd (n : Fin 16) (s : State) : Res :=
  s.runCmd n.val 0x05 (fun s c =>
    let x := s.writePairs c.dataBytes
    match x.2 with
    | none => x.1.cmdDone c.id 0x0103 0
    | some k => (x.1.sendFor c.id (.item 0x05 x.1.ringDigests c.dataBytes)).cmdDone c.id 0 k)

/-- `VALUE_WRITE` (R187, opcode 0x06). -/
def execValueWrite (n : Fin 16) (s : State) : Res :=
  s.runCmd n.val 0x06 (fun s c =>
    let off := fldN c.desc.arg0.toNat 32 32
    let item : Out := .item 0x06 [c.symId, BitVec.ofNat 64 c.typeId, BitVec.ofNat 64 off, BitVec.ofNat 64 c.size, c.desc.arg2] []
    s.statusDone c (s.vwQueue c.symId c.typeId off c.size c.desc.arg2) (some item))

/-- `FORCE_SET` (R182, R183, opcode 0x07): the table travels in the seals. -/
def execForceSet (n : Fin 16) (s : State) : Res :=
  s.runCmd n.val 0x07 (fun s c => s.statusDone c (s.forceSet c.symId c.typeId c.desc.arg2) none)

/-- `FORCE_RELEASE` (R182, opcode 0x08). -/
def execForceRelease (n : Fin 16) (s : State) : Res :=
  s.runCmd n.val 0x08 (fun s c => s.statusDone c (s.forceRelease c.symId) none)

/-- `PKG_LOAD` (R171, R189, opcode 0x09). -/
def execPkgLoad (n : Fin 16) (s : State) : Res :=
  s.runCmd n.val 0x09 (fun s c =>
    let off := c.desc.arg0.toNat
    s.statusDone c (s.pkgLoad clsMc off c.dataBytes) (some (.pkgBlock off c.dataBytes)))

/-- `PKG_SWITCH` (R173, R188, opcode 0x0A). -/
def execPkgSwitch (n : Fin 16) (s : State) : Res :=
  s.runCmd n.val 0x0A (fun s c =>
    let rel := c.desc.arg0.getLsbD 0
    s.olcDone c (s.pkgSwitch rel) (.item opSwitch [BitVec.ofNat 64 (bit rel)] []))

/-- `PKG_CANCEL` (R173, opcode 0x0B). -/
def execPkgCancel (n : Fin 16) (s : State) : Res :=
  s.runCmd n.val 0x0B (fun s c => s.olcDone c s.pkgCancel (.item opCancel [] []))

/-- `PKG_DISCARD` (R173, opcode 0x0C). -/
def execPkgDiscard (n : Fin 16) (s : State) : Res :=
  s.runCmd n.val 0x0C (fun s c => s.olcDone c s.pkgDiscard (.item opDiscard [] []))

/-- `CONST_PATCH` (R188, opcode 0x0D). -/
def execConstPatch (n : Fin 16) (s : State) : Res :=
  s.runCmd n.val 0x0D (fun s c =>
    let off := fldN c.desc.arg0.toNat 0 32
    let item : Out := .item 0x0D [c.symId, BitVec.ofNat 64 off, BitVec.ofNat 64 c.size, c.desc.arg2] []
    s.statusDone c (s.constPatch c.symId off c.size c.desc.arg2) (some item))

/-- A key slot takes a key, or none; `OLC_KEY_VALID` shows the slots enrolled (R169). -/
def State.setKey (s : State) (k : Nat) (key : Option (BitVec 256)) : State :=
  { s with olc := { s.olc with keys := vset s.olc.keys k key } }.fsetb ⟨R.olcKeyValid, k, 1⟩ key.isSome

/-- `KEY_ENROL` (R169, opcode 0x0E): a slot already enrolled is refused. -/
def execKeyEnrol (n : Fin 16) (s : State) : Res :=
  s.runCmd n.val 0x0E (fun s c =>
    let k := fldN c.desc.arg0.toNat 0 2
    s.plainDone c (if (vget s.olc.keys k).isSome then none else some (s.setKey k (some (BitVec.ofNat 256 (beNat c.dataBytes))))))

/-- `KEY_REMOVE` (R169, opcode 0x0F): the slot that signed the active bank is refused. -/
def execKeyRemove (n : Fin 16) (s : State) : Res :=
  s.runCmd n.val 0x0F (fun s c =>
    let k := fldN c.desc.arg0.toNat 0 2
    s.plainDone c (if s.hKeySlot s.bank = k then none else some (s.setKey k none)))

/-- `SCAN_START` (R459, opcode 0x10): as `SCAN_CTRL.START`. -/
def execScanStart (n : Fin 16) (s : State) : Res :=
  s.runCmd n.val 0x10 (fun s c =>
    match s.scanStart with
    | some t => t.cmdDone c.id 0 0
    | none => (s.ignoredIn blkScan).cmdDone c.id 0x0103 0)

/-- `SCAN_RESTART` (R67, opcode 0x11): warm or cold. -/
def execScanRestartCmd (n : Fin 16) (s : State) : Res :=
  s.runCmd n.val 0x11 (fun s c => s.plainDone c (s.scanRestart (c.desc.arg0.getLsbD 0)))

/-- `PAIR_SWITCH` (R215, opcode 0x12): completes with the seal that carries `HANDOVER`, in which its completion travels to
the incoming module (R342). -/
def execPairSwitch (n : Fin 16) (s : State) : Res :=
  s.runCmd n.val 0x12 (fun s c =>
    match s.pairSwitch with
    | some t => t.modCmd c.id (fun d => { d with phase := .waitSeal })
    | none => s.cmdDone c.id 0x0103 0)

/-- A transition into or out of SERVICE: at the next F boundary, or at once when no scan runs (R463). -/
def State.serviceCmd (s : State) (c : Cmd) (into : Bool) : State :=
  let t := s.modCmd c.id (fun d => { d with phase := .waitEffect })
  let t := { t with scan := { t.scan with service := some into } }
  if s.scanning then t else t.serviceMove

/-- `SERVICE_ENTER` (R463, opcode 0x13): from ALONE without a partner heartbeat, or STOPPED without a partner. -/
def execServiceEnter (n : Fin 16) (s : State) : Res :=
  s.runCmd n.val 0x13 (fun s c =>
    if s.fbit F.pairStatus_dbUp || s.fbit F.pairStatus_aliveUp then s.cmdDone c.id 0x0103 0 else s.serviceCmd c true)

/-- `SERVICE_LEAVE` (R463, opcode 0x14). -/
def execServiceLeave (n : Fin 16) (s : State) : Res := s.runCmd n.val 0x14 (fun s c => s.serviceCmd c false)

/-- `HIST_SUB` (R336, R350, opcode 0x1A). -/
def execHistSub (n : Fin 16) (s : State) : Res :=
  s.runCmd n.val 0x1A (fun s c =>
    match s.histSub c.desc.arg0 c.dataBytes with
    | none => s.cmdDone c.id 0x0105 0
    | some t => (t.sendFor c.id (.item 0x1A [c.desc.arg0] c.dataBytes)).cmdDone c.id 0 0)

/-! Commands with `TARGET` set, on the partner and back (R334, R337). -/

/-- The answer to a forwarded command: sent at once, or when the recorder has done what it asks. -/
def State.answerForwarded (s : State) (ring : Nat) (c : Cmd) : State :=
  let reply (s : State) (status result : Nat) (data : List Byte) : State :=
    s.send (.forwardedReply ring (BitVec.ofNat 32 status) (BitVec.ofNat 32 result) data)
  match c.opcode with
  | 0x02 => reply s 0 0 s.statusBlock
  | 0x16 =>
    let b := s.recBytesFrom c.desc.modAddr.toNat (c.length / 64)
    reply s 0 (b.length / 64) b
  | 0x17 => (s.recAsk (fldN c.desc.arg0.toNat 0 2) (.partner ring)).getD (reply s 0x0103 0 [])
  | 0x18 =>
    if s.cartLink then reply s 0 0 (s.bay.window (fldN c.desc.modAddr.toNat 0 16) c.length) else reply s.cartError 0x0108 0 []
  | _ => s

/-- `FORWARDED_COMMAND_RX` (R336): the partner's command of one of its rings arrives and is executed here. -/
def execForwardedCommandRx (id : Nat) (ring : Fin 16) (desc : Desc) (s : State) : Res :=
  s.onceOnly id (if s.fbit F.sysStatus_mcRun then s.answerForwarded ring.val { ring := ring.val, desc := desc } else s)

/-- The oldest forwarded command of a ring. -/
def State.forwardedCmd (s : State) (n : Nat) : Option Cmd :=
  s.host.cmds.find? (fun c => c.ring == n && c.phase == .forwarded)

/-- `FORWARDED_REPLY_RX` (R336): data and status of a forwarded command arrive. -/
def execForwardedReplyRx (id : Nat) (ring : Fin 16) (status result : W32) (data : List Byte) (s : State) : Res :=
  s.onceOnly id (match s.forwardedCmd ring.val with
    | some c => s.dataOut c (some data) status.toNat result.toNat
    | none => s)

/-- `PARTNER_ANSWER_TIMEOUT` (R337): no answer within 100 ms. -/
def execPartnerAnswerTimeout (ring : Fin 16) (s : State) : Res :=
  match s.forwardedCmd ring.val with
  | some c => .next (s.cmdDone c.id 0x0107 0)
  | none => .next s

end Sys2Proof.Machine
end

