-- ==== Sys2Proof/Machine/Dispatch.lean ====
section
/-!
DEFINITION. The dispatch: one arm for each command, which calls that command's meaning.
-/

namespace Sys2Proof.Machine

def exec (i : Instr) (s : State) : Host.Outcome State Fault Refusal :=
  match i with
  | .setupWrite m off size v => Sys2Proof.Machine.execSetupWrite m off size v s
  | .readLoLatch m off size => Sys2Proof.Machine.execReadLoLatch m off size s
  | .w1cClear m v hwSet => Sys2Proof.Machine.execW1cClear m v hwSet s
  | .blockApply m b plan => Sys2Proof.Machine.execBlockApply m b plan s
  | .planActivation b => Sys2Proof.Machine.execPlanActivation b s
  | .tcWrite m off => Sys2Proof.Machine.execTcWrite m off s
  | .clusterClockGate c => Sys2Proof.Machine.execClusterClockGate c s
  | .clusterPllPowerDown c => Sys2Proof.Machine.execClusterPllPowerDown c s
  | .clusterPllRelockStart c => Sys2Proof.Machine.execClusterPllRelockStart c s
  | .clusterPllLocked c => Sys2Proof.Machine.execClusterPllLocked c s
  | .pllLossOfLock c => Sys2Proof.Machine.execPllLossOfLock c s
  | .clusterReenter c => Sys2Proof.Machine.execClusterReenter c s
  | .ocxoFailure => Sys2Proof.Machine.execOcxoFailure s
  | .ocxoRecovery outage => Sys2Proof.Machine.execOcxoRecovery outage s
  | .mcLockstepMismatch => Sys2Proof.Machine.execMcLockstepMismatch s
  | .mcSelftestComplete pass => Sys2Proof.Machine.execMcSelftestComplete pass s
  | .fBoundary => Sys2Proof.Machine.execFBoundary s
  | .fImageComplete => Sys2Proof.Machine.execFImageComplete s
  | .errorBudgetExpiry => Sys2Proof.Machine.execErrorBudgetExpiry s
  | .nsImageComplete k => Sys2Proof.Machine.execNsImageComplete k s
  | .errorEventRaised code block unit ps => Sys2Proof.Machine.execErrorEventRaised code block unit ps s
  | .classCommit => Sys2Proof.Machine.execClassCommit s
  | .copyEnd => Sys2Proof.Machine.execCopyEnd s
  | .carryOverComplete undoUe => Sys2Proof.Machine.execCarryOverComplete undoUe s
  | .carryOverDeadline undoUe => Sys2Proof.Machine.execCarryOverDeadline undoUe s
  | .switchWaitExpiry => Sys2Proof.Machine.execSwitchWaitExpiry s
  | .sealTimeout => Sys2Proof.Machine.execSealTimeout s
  | .periodLate k => Sys2Proof.Machine.execPeriodLate k s
  | .watchdogTrip k => Sys2Proof.Machine.execWatchdogTrip k s
  | .restartBoundary => Sys2Proof.Machine.execRestartBoundary s
  | .scanCtrlStart m => Sys2Proof.Machine.execScanCtrlStart m s
  | .scanClrMax m => Sys2Proof.Machine.execScanClrMax m s
  | .scanRestart m v => Sys2Proof.Machine.execScanRestart m v s
  | .workTake be upset upsetH => Sys2Proof.Machine.execWorkTake be upset upsetH s
  | .windowTimeLimit be => Sys2Proof.Machine.execWindowTimeLimit be s
  | .windowStoreLimit be => Sys2Proof.Machine.execWindowStoreLimit be s
  | .windowCommitEnd be upset upsetH => Sys2Proof.Machine.execWindowCommitEnd be upset upsetH s
  | .drupeletSelftestVerdict be v => Sys2Proof.Machine.execDrupeletSelftestVerdict be v s
  | .auditReplicaComplete be => Sys2Proof.Machine.execAuditReplicaComplete be s
  | .brmClrCnt m => Sys2Proof.Machine.execBrmClrCnt m s
  | .brmUnretire m v => Sys2Proof.Machine.execBrmUnretire m v s
  | .add be d a b => Sys2Proof.Machine.execAdd be d a b s
  | .sub be d a b => Sys2Proof.Machine.execSub be d a b s
  | .and be d a b => Sys2Proof.Machine.execAnd be d a b s
  | .or be d a b => Sys2Proof.Machine.execOr be d a b s
  | .xor be d a b => Sys2Proof.Machine.execXor be d a b s
  | .shl be d a b => Sys2Proof.Machine.execShl be d a b s
  | .shr be d a b => Sys2Proof.Machine.execShr be d a b s
  | .sar be d a b => Sys2Proof.Machine.execSar be d a b s
  | .ror be d a b => Sys2Proof.Machine.execRor be d a b s
  | .slt be d a b => Sys2Proof.Machine.execSlt be d a b s
  | .sltu be d a b => Sys2Proof.Machine.execSltu be d a b s
  | .seq be d a b => Sys2Proof.Machine.execSeq be d a b s
  | .min be d a b => Sys2Proof.Machine.execMin be d a b s
  | .max be d a b => Sys2Proof.Machine.execMax be d a b s
  | .minu be d a b => Sys2Proof.Machine.execMinu be d a b s
  | .maxu be d a b => Sys2Proof.Machine.execMaxu be d a b s
  | .mul be d a b => Sys2Proof.Machine.execMul be d a b s
  | .mulh be d a b => Sys2Proof.Machine.execMulh be d a b s
  | .mulhu be d a b => Sys2Proof.Machine.execMulhu be d a b s
  | .div be d a b => Sys2Proof.Machine.execDiv be d a b s
  | .divu be d a b => Sys2Proof.Machine.execDivu be d a b s
  | .rem be d a b => Sys2Proof.Machine.execRem be d a b s
  | .remu be d a b => Sys2Proof.Machine.execRemu be d a b s
  | .addw be d a b => Sys2Proof.Machine.execAddw be d a b s
  | .subw be d a b => Sys2Proof.Machine.execSubw be d a b s
  | .mulw be d a b => Sys2Proof.Machine.execMulw be d a b s
  | .addsat be d a b => Sys2Proof.Machine.execAddsat be d a b s
  | .subsat be d a b => Sys2Proof.Machine.execSubsat be d a b s
  | .clz be d a => Sys2Proof.Machine.execClz be d a s
  | .popc be d a => Sys2Proof.Machine.execPopc be d a s
  | .sel be d a b => Sys2Proof.Machine.execSel be d a b s
  | .fadd be d a b p => Sys2Proof.Machine.execFadd be d a b p s
  | .fsub be d a b p => Sys2Proof.Machine.execFsub be d a b p s
  | .fmul be d a b p => Sys2Proof.Machine.execFmul be d a b p s
  | .fdiv be d a b p => Sys2Proof.Machine.execFdiv be d a b p s
  | .fsqrt be d a p => Sys2Proof.Machine.execFsqrt be d a p s
  | .fmin be d a b p => Sys2Proof.Machine.execFmin be d a b p s
  | .fmax be d a b p => Sys2Proof.Machine.execFmax be d a b p s
  | .fabs be d a b p => Sys2Proof.Machine.execFabs be d a b p s
  | .fneg be d a b p => Sys2Proof.Machine.execFneg be d a b p s
  | .feq be d a b p => Sys2Proof.Machine.execFeq be d a b p s
  | .flt be d a b p => Sys2Proof.Machine.execFlt be d a b p s
  | .fle be d a b p => Sys2Proof.Machine.execFle be d a b p s
  | .fmadd be d a b c p => Sys2Proof.Machine.execFmadd be d a b c p s
  | .fmsub be d a b c p => Sys2Proof.Machine.execFmsub be d a b c p s
  | .fnmadd be d a b c p => Sys2Proof.Machine.execFnmadd be d a b c p s
  | .fnmsub be d a b c p => Sys2Proof.Machine.execFnmsub be d a b c p s
  | .fcvti be d a b p => Sys2Proof.Machine.execFcvti be d a b p s
  | .fcvtu be d a b p => Sys2Proof.Machine.execFcvtu be d a b p s
  | .icvtf be d a b p => Sys2Proof.Machine.execIcvtf be d a b p s
  | .ucvtf be d a b p => Sys2Proof.Machine.execUcvtf be d a b p s
  | .fwiden be d a b => Sys2Proof.Machine.execFwiden be d a b s
  | .fnarrow be d a b => Sys2Proof.Machine.execFnarrow be d a b s
  | .fcvtiz be d a b p => Sys2Proof.Machine.execFcvtiz be d a b p s
  | .fcvtuz be d a b p => Sys2Proof.Machine.execFcvtuz be d a b p s
  | .bextu be d a pos len1 => Sys2Proof.Machine.execBextu be d a pos len1 s
  | .bexts be d a pos len1 => Sys2Proof.Machine.execBexts be d a pos len1 s
  | .bins be d a pos len1 => Sys2Proof.Machine.execBins be d a pos len1 s
  | .addi be d a imm => Sys2Proof.Machine.execAddi be d a imm s
  | .andi be d a imm => Sys2Proof.Machine.execAndi be d a imm s
  | .ori be d a imm => Sys2Proof.Machine.execOri be d a imm s
  | .xori be d a imm => Sys2Proof.Machine.execXori be d a imm s
  | .slti be d a imm => Sys2Proof.Machine.execSlti be d a imm s
  | .sltiu be d a imm => Sys2Proof.Machine.execSltiu be d a imm s
  | .shi be d a kind amt => Sys2Proof.Machine.execShi be d a kind amt s
  | .lui be d imm => Sys2Proof.Machine.execLui be d imm s
  | .ibset be a imm => Sys2Proof.Machine.execIbset be a imm s
  | .cbset be a imm => Sys2Proof.Machine.execCbset be a imm s
  | .mfs be d a sel => Sys2Proof.Machine.execMfs be d a sel s
  | .mts be d a sel => Sys2Proof.Machine.execMts be d a sel s
  | .nop be => Sys2Proof.Machine.execNop be s
  | .wend be => Sys2Proof.Machine.execWend be s
  | .chend be => Sys2Proof.Machine.execChend be s
  | .trap be imm => Sys2Proof.Machine.execTrap be imm s
  | .jr be a => Sys2Proof.Machine.execJr be a s
  | .callr be a => Sys2Proof.Machine.execCallr be a s
  | .ret be a => Sys2Proof.Machine.execRet be a s
  | .ldb be d base disp ecc => Sys2Proof.Machine.execLdb be d base disp ecc s
  | .ldbs be d base disp ecc => Sys2Proof.Machine.execLdbs be d base disp ecc s
  | .ldh be d base disp ecc => Sys2Proof.Machine.execLdh be d base disp ecc s
  | .ldhs be d base disp ecc => Sys2Proof.Machine.execLdhs be d base disp ecc s
  | .ldw be d base disp ecc => Sys2Proof.Machine.execLdw be d base disp ecc s
  | .ldws be d base disp ecc => Sys2Proof.Machine.execLdws be d base disp ecc s
  | .ldd be d base disp ecc => Sys2Proof.Machine.execLdd be d base disp ecc s
  | .stb be d base disp => Sys2Proof.Machine.execStb be d base disp s
  | .sth be d base disp => Sys2Proof.Machine.execSth be d base disp s
  | .stw be d base disp => Sys2Proof.Machine.execStw be d base disp s
  | .std be d base disp => Sys2Proof.Machine.execStd be d base disp s
  | .ldxb be d a disp ecc => Sys2Proof.Machine.execLdxb be d a disp ecc s
  | .ldxbs be d a disp ecc => Sys2Proof.Machine.execLdxbs be d a disp ecc s
  | .ldxh be d a disp ecc => Sys2Proof.Machine.execLdxh be d a disp ecc s
  | .ldxhs be d a disp ecc => Sys2Proof.Machine.execLdxhs be d a disp ecc s
  | .ldxw be d a disp ecc => Sys2Proof.Machine.execLdxw be d a disp ecc s
  | .ldxws be d a disp ecc => Sys2Proof.Machine.execLdxws be d a disp ecc s
  | .ldxd be d a disp ecc => Sys2Proof.Machine.execLdxd be d a disp ecc s
  | .stxb be d a disp => Sys2Proof.Machine.execStxb be d a disp s
  | .stxh be d a disp => Sys2Proof.Machine.execStxh be d a disp s
  | .stxw be d a disp => Sys2Proof.Machine.execStxw be d a disp s
  | .stxd be d a disp => Sys2Proof.Machine.execStxd be d a disp s
  | .bbs be a bit off => Sys2Proof.Machine.execBbs be a bit off s
  | .bbc be a bit off => Sys2Proof.Machine.execBbc be a bit off s
  | .beq be a b off => Sys2Proof.Machine.execBeq be a b off s
  | .bne be a b off => Sys2Proof.Machine.execBne be a b off s
  | .blt be a b off => Sys2Proof.Machine.execBlt be a b off s
  | .bge be a b off => Sys2Proof.Machine.execBge be a b off s
  | .bltu be a b off => Sys2Proof.Machine.execBltu be a b off s
  | .bgeu be a b off => Sys2Proof.Machine.execBgeu be a b off s
  | .j be off => Sys2Proof.Machine.execJ be off s
  | .call be off => Sys2Proof.Machine.execCall be off s
  | .reflexFrameBoundary => Sys2Proof.Machine.execReflexFrameBoundary s
  | .armedEventDispatch irise ifall arise afall => Sys2Proof.Machine.execArmedEventDispatch irise ifall arise afall s
  | .passCommit up late => Sys2Proof.Machine.execPassCommit up late s
  | .reflexSelftestVerdict e pass => Sys2Proof.Machine.execReflexSelftestVerdict e pass s
  | .mailboxStaleTimeout => Sys2Proof.Machine.execMailboxStaleTimeout s
  | .rfxArm m => Sys2Proof.Machine.execRfxArm m s
  | .rfxDisarm m => Sys2Proof.Machine.execRfxDisarm m s
  | .rfxClrCnt m => Sys2Proof.Machine.execRfxClrCnt m s
  | .rfxClrMaxlat m => Sys2Proof.Machine.execRfxClrMaxlat m s
  | .rfxUnretire m v => Sys2Proof.Machine.execRfxUnretire m v s
  | .packageCheckDone plans => Sys2Proof.Machine.execPackageCheckDone plans s
  | .pkgCheckReportRx id digest ok => Sys2Proof.Machine.execPkgCheckReportRx id digest ok s
  | .olcDiscard m key => Sys2Proof.Machine.execOlcDiscard m key s
  | .olcSwitchRequest m relAck key => Sys2Proof.Machine.execOlcSwitchRequest m relAck key s
  | .olcCancel m key => Sys2Proof.Machine.execOlcCancel m key s
  | .claimAssert sl both silent => Sys2Proof.Machine.execClaimAssert sl both silent s
  | .claimDrop sl => Sys2Proof.Machine.execClaimDrop sl s
  | .rfxSilent sl => Sys2Proof.Machine.execRfxSilent sl s
  | .connectorParts sl => Sys2Proof.Machine.execConnectorParts sl s
  | .tokenRise ahead => Sys2Proof.Machine.execTokenRise ahead s
  | .loopRampEnd => Sys2Proof.Machine.execLoopRampEnd s
  | .islandLinkFrameRx digital loops => Sys2Proof.Machine.execIslandLinkFrameRx digital loops s
  | .islandLinkFault => Sys2Proof.Machine.execIslandLinkFault s
  | .leverOpen own => Sys2Proof.Machine.execLeverOpen own s
  | .leverClose own => Sys2Proof.Machine.execLeverClose own s
  | .drawbarLaneLoss lane => Sys2Proof.Machine.execDrawbarLaneLoss lane s
  | .drawbarRetrainDone => Sys2Proof.Machine.execDrawbarRetrainDone s
  | .drawbarLaneReturn lane => Sys2Proof.Machine.execDrawbarLaneReturn lane s
  | .drawbarMsgRepeat id => Sys2Proof.Machine.execDrawbarMsgRepeat id s
  | .heartbeatSend => Sys2Proof.Machine.execHeartbeatSend s
  | .heartbeatRx h alive => Sys2Proof.Machine.execHeartbeatRx h alive s
  | .pathSilent drawbar => Sys2Proof.Machine.execPathSilent drawbar s
  | .tripNoticeRx id cls => Sys2Proof.Machine.execTripNoticeRx id cls s
  | .copyBlockRx cycle blk data => Sys2Proof.Machine.execCopyBlockRx cycle blk data s
  | .sealRecordRx r => Sys2Proof.Machine.execSealRecordRx r s
  | .sealAckRx cycle digests => Sys2Proof.Machine.execSealAckRx cycle digests s
  | .resyncDemandRx => Sys2Proof.Machine.execResyncDemandRx s
  | .resyncRequestRx id => Sys2Proof.Machine.execResyncRequestRx id s
  | .fullCopyRx item pct => Sys2Proof.Machine.execFullCopyRx item pct s
  | .sweepUnitRx unit data => Sys2Proof.Machine.execSweepUnitRx unit data s
  | .sweepUnitRequestRx unit => Sys2Proof.Machine.execSweepUnitRequestRx unit s
  | .auditVerdictRx id chain mask => Sys2Proof.Machine.execAuditVerdictRx id chain mask s
  | .dirtyRequestRx id blk => Sys2Proof.Machine.execDirtyRequestRx id blk s
  | .handoverRequestRx id => Sys2Proof.Machine.execHandoverRequestRx id s
  | .configForwardRx id opcode args data => Sys2Proof.Machine.execConfigForwardRx id opcode args data s
  | .pkgBlockRx id off data => Sys2Proof.Machine.execPkgBlockRx id off data s
  | .forwardedCommandRx id ring desc => Sys2Proof.Machine.execForwardedCommandRx id ring desc s
  | .agreementTimeout b => Sys2Proof.Machine.execAgreementTimeout b s
  | .takeoverStart ahead => Sys2Proof.Machine.execTakeoverStart ahead s
  | .pairCtrlSwitch m key => Sys2Proof.Machine.execPairCtrlSwitch m key s
  | .pairLeave m key => Sys2Proof.Machine.execPairLeave m key s
  | .pairClrCopyMax m key => Sys2Proof.Machine.execPairClrCopyMax m key s
  | .roleDecision => Sys2Proof.Machine.execRoleDecision s
  | .islandStatusFrame toIsland fromIsland mv compV term ilim rb => Sys2Proof.Machine.execIslandStatusFrame toIsland fromIsland mv compV term ilim rb s
  | .logicSilent => Sys2Proof.Machine.execLogicSilent s
  | .holdExpiry => Sys2Proof.Machine.execHoldExpiry s
  | .framesResume => Sys2Proof.Machine.execFramesResume s
  | .filterStateChange n samples => Sys2Proof.Machine.execFilterStateChange n samples s
  | .inputThresholdCheck disagree lap => Sys2Proof.Machine.execInputThresholdCheck disagree lap s
  | .outputLatchOff n => Sys2Proof.Machine.execOutputLatchOff n s
  | .outputRetry n limited => Sys2Proof.Machine.execOutputRetry n limited s
  | .readbackFaultSet n => Sys2Proof.Machine.execReadbackFaultSet n s
  | .readbackFaultClear n => Sys2Proof.Machine.execReadbackFaultClear n s
  | .lplusWarning mv => Sys2Proof.Machine.execLplusWarning mv s
  | .lplusWarningClear mv => Sys2Proof.Machine.execLplusWarningClear mv s
  | .outputsOff mv => Sys2Proof.Machine.execOutputsOff mv s
  | .supplyRecovery mv => Sys2Proof.Machine.execSupplyRecovery mv s
  | .islandPowerDown mv => Sys2Proof.Machine.execIslandPowerDown mv s
  | .islandStart mv => Sys2Proof.Machine.execIslandStart mv s
  | .complianceSet n rb => Sys2Proof.Machine.execComplianceSet n rb s
  | .complianceClear n rb => Sys2Proof.Machine.execComplianceClear n rb s
  | .mainPathFailure n rb => Sys2Proof.Machine.execMainPathFailure n rb s
  | .loopReadbackFault n rb => Sys2Proof.Machine.execLoopReadbackFault n rb s
  | .loopCalibration err fit lap => Sys2Proof.Machine.execLoopCalibration err fit lap s
  | .dioClrCnt m => Sys2Proof.Machine.execDioClrCnt m s
  | .dioClrMin m => Sys2Proof.Machine.execDioClrMin m s
  | .aoRetest m mask => Sys2Proof.Machine.execAoRetest m mask s
  | .aoClrCnt m => Sys2Proof.Machine.execAoClrCnt m s
  | .thresholdEventChange n => Sys2Proof.Machine.execThresholdEventChange n s
  | .sequencerStep => Sys2Proof.Machine.execSequencerStep s
  | .sequencerTimeout => Sys2Proof.Machine.execSequencerTimeout s
  | .captureEnd => Sys2Proof.Machine.execCaptureEnd s
  | .decimationUp fifo => Sys2Proof.Machine.execDecimationUp fifo s
  | .decimationDown => Sys2Proof.Machine.execDecimationDown s
  | .acqCalibration ch lap => Sys2Proof.Machine.execAcqCalibration ch lap s
  | .skewMeasurement w => Sys2Proof.Machine.execSkewMeasurement w s
  | .skewLate => Sys2Proof.Machine.execSkewLate s
  | .acqEnable m => Sys2Proof.Machine.execAcqEnable m s
  | .acqDisable m => Sys2Proof.Machine.execAcqDisable m s
  | .acqArm m => Sys2Proof.Machine.execAcqArm m s
  | .acqDisarm m => Sys2Proof.Machine.execAcqDisarm m s
  | .acqForceTrig m => Sys2Proof.Machine.execAcqForceTrig m s
  | .acqClrCnt m => Sys2Proof.Machine.execAcqClrCnt m s
  | .ringExchangeStart => Sys2Proof.Machine.execRingExchangeStart s
  | .ringFrameRx port etype fcs payload => Sys2Proof.Machine.execRingFrameRx port etype fcs payload s
  | .exchangeDeadline => Sys2Proof.Machine.execExchangeDeadline s
  | .ringPortDown p => Sys2Proof.Machine.execRingPortDown p s
  | .ringJoin => Sys2Proof.Machine.execRingJoin s
  | .peerFrameRx port fcs payload => Sys2Proof.Machine.execPeerFrameRx port fcs payload s
  | .peerPeriodMiss j => Sys2Proof.Machine.execPeerPeriodMiss j s
  | .ringClrCnt m => Sys2Proof.Machine.execRingClrCnt m s
  | .canStart m mask fault => Sys2Proof.Machine.execCanStart m mask fault s
  | .canStop m mask => Sys2Proof.Machine.execCanStop m mask s
  | .canClrCnt m => Sys2Proof.Machine.execCanClrCnt m s
  | .canIntegrationDone n => Sys2Proof.Machine.execCanIntegrationDone n s
  | .canFrameRx n rxid esi remote dlc data => Sys2Proof.Machine.execCanFrameRx n rxid esi remote dlc data s
  | .canTxSuccess n tdc => Sys2Proof.Machine.execCanTxSuccess n tdc s
  | .canTxError n e => Sys2Proof.Machine.execCanTxError n e s
  | .busoffDelayExpiry n => Sys2Proof.Machine.execBusoffDelayExpiry n s
  | .busoffRecovery n => Sys2Proof.Machine.execBusoffRecovery n s
  | .collideClear n => Sys2Proof.Machine.execCollideClear n s
  | .transceiverFault n => Sys2Proof.Machine.execTransceiverFault n s
  | .hostDoorbell m n v => Sys2Proof.Machine.execHostDoorbell m n v s
  | .descriptorTake p desc => Sys2Proof.Machine.execDescriptorTake p desc s
  | .completionBarrierDone n => Sys2Proof.Machine.execCompletionBarrierDone n s
  | .cmdNop n => Sys2Proof.Machine.execCmdNop n s
  | .statusCmd n => Sys2Proof.Machine.execStatusCmd n s
  | .readMem n => Sys2Proof.Machine.execReadMem n s
  | .readSym n => Sys2Proof.Machine.execReadSym n s
  | .configCmd n => Sys2Proof.Machine.execConfigCmd n s
  | .valueWrite n => Sys2Proof.Machine.execValueWrite n s
  | .forceSet n => Sys2Proof.Machine.execForceSet n s
  | .forceRelease n => Sys2Proof.Machine.execForceRelease n s
  | .pkgLoad n => Sys2Proof.Machine.execPkgLoad n s
  | .pkgSwitch n => Sys2Proof.Machine.execPkgSwitch n s
  | .pkgCancel n => Sys2Proof.Machine.execPkgCancel n s
  | .pkgDiscard n => Sys2Proof.Machine.execPkgDiscard n s
  | .constPatch n => Sys2Proof.Machine.execConstPatch n s
  | .keyEnrol n => Sys2Proof.Machine.execKeyEnrol n s
  | .keyRemove n => Sys2Proof.Machine.execKeyRemove n s
  | .scanStart n => Sys2Proof.Machine.execScanStart n s
  | .scanRestartCmd n => Sys2Proof.Machine.execScanRestartCmd n s
  | .pairSwitch n => Sys2Proof.Machine.execPairSwitch n s
  | .serviceEnter n => Sys2Proof.Machine.execServiceEnter n s
  | .serviceLeave n => Sys2Proof.Machine.execServiceLeave n s
  | .canTx n => Sys2Proof.Machine.execCanTx n s
  | .recRead n => Sys2Proof.Machine.execRecRead n s
  | .recCtrlFreeze n => Sys2Proof.Machine.execRecCtrlFreeze n s
  | .recCtrlUnfreeze n => Sys2Proof.Machine.execRecCtrlUnfreeze n s
  | .recCtrlRearm n => Sys2Proof.Machine.execRecCtrlRearm n s
  | .tcRead n => Sys2Proof.Machine.execTcRead n s
  | .bulkSend n => Sys2Proof.Machine.execBulkSend n s
  | .histSub n => Sys2Proof.Machine.execHistSub n s
  | .hostCqHead m p v => Sys2Proof.Machine.execHostCqHead m p v s
  | .hostEqHead m p v => Sys2Proof.Machine.execHostEqHead m p v s
  | .hostRingEn m v => Sys2Proof.Machine.execHostRingEn m v s
  | .hostResume m mask => Sys2Proof.Machine.execHostResume m mask s
  | .hostClrCnt m => Sys2Proof.Machine.execHostClrCnt m s
  | .ringEngineHalt p addr write => Sys2Proof.Machine.execRingEngineHalt p addr write s
  | .hostLinkLoss p refLost => Sys2Proof.Machine.execHostLinkLoss p refLost s
  | .dmaTransferDone ch data => Sys2Proof.Machine.execDmaTransferDone ch data s
  | .dmaHalt ch cause moved addr => Sys2Proof.Machine.execDmaHalt ch cause moved addr s
  | .dmaRetry m ch key => Sys2Proof.Machine.execDmaRetry m ch key s
  | .dmaAbort m ch key => Sys2Proof.Machine.execDmaAbort m ch key s
  | .dmaClrCnt m => Sys2Proof.Machine.execDmaClrCnt m s
  | .drayLaneUp p => Sys2Proof.Machine.execDrayLaneUp p s
  | .drayLaneDown p => Sys2Proof.Machine.execDrayLaneDown p s
  | .creditFrameRx grants => Sys2Proof.Machine.execCreditFrameRx grants s
  | .drayFrameStart lane => Sys2Proof.Machine.execDrayFrameStart lane s
  | .drayDry n => Sys2Proof.Machine.execDrayDry n s
  | .drayClrCnt m => Sys2Proof.Machine.execDrayClrCnt m s
  | .ptpSyncRx p src port logInt origin corr fast => Sys2Proof.Machine.execPtpSyncRx p src port logInt origin corr fast s
  | .ptpDelayRespRx p src port recv corr fast => Sys2Proof.Machine.execPtpDelayRespRx p src port recv corr fast s
  | .ptpAnnounceRx p a fast => Sys2Proof.Machine.execPtpAnnounceRx p a fast s
  | .announceTimeout p => Sys2Proof.Machine.execAnnounceTimeout p s
  | .syncLoss => Sys2Proof.Machine.execSyncLoss s
  | .parentQualified => Sys2Proof.Machine.execParentQualified s
  | .leapSecond => Sys2Proof.Machine.execLeapSecond s
  | .ptpMasterEnable => Sys2Proof.Machine.execPtpMasterEnable s
  | .timeSnap m => Sys2Proof.Machine.execTimeSnap m s
  | .timeClrCnt m => Sys2Proof.Machine.execTimeClrCnt m s
  | .timeSet m v => Sys2Proof.Machine.execTimeSet m v s
  | .tb3Second => Sys2Proof.Machine.execTb3Second s
  | .catEntAddrWrite m e v => Sys2Proof.Machine.execCatEntAddrWrite m e v s
  | .catEntAttrWrite m e v => Sys2Proof.Machine.execCatEntAttrWrite m e v s
  | .catBarrier m v => Sys2Proof.Machine.execCatBarrier m v s
  | .catBarrierComplete => Sys2Proof.Machine.execCatBarrierComplete s
  | .catClrFault m => Sys2Proof.Machine.execCatClrFault m s
  | .catClrCnt m => Sys2Proof.Machine.execCatClrCnt m s
  | .blockRepairRx blk data => Sys2Proof.Machine.execBlockRepairRx blk data s
  | .repairTimeout blk => Sys2Proof.Machine.execRepairTimeout blk s
  | .codeBlockRewrite blk => Sys2Proof.Machine.execCodeBlockRewrite blk s
  | .scrubAccess line found again spare lapR lapC => Sys2Proof.Machine.execScrubAccess line found again spare lapR lapC s
  | .fuseRepair => Sys2Proof.Machine.execFuseRepair s
  | .memClrCnt m => Sys2Proof.Machine.execMemClrCnt m s
  | .localScrubChain be unit found again spare lap => Sys2Proof.Machine.execLocalScrubChain be unit found again spare lap s
  | .sweepDigest => Sys2Proof.Machine.execSweepDigest s
  | .holdupMeasurement dv => Sys2Proof.Machine.execHoldupMeasurement dv s
  | .holdupAbort => Sys2Proof.Machine.execHoldupAbort s
  | .flashMigration phase half src dst fail lap => Sys2Proof.Machine.execFlashMigration phase half src dst fail lap s
  | .wfClrCnt m => Sys2Proof.Machine.execWfClrCnt m s
  | .recordAccept => Sys2Proof.Machine.execRecordAccept s
  | .flushEnd lost => Sys2Proof.Machine.execFlushEnd lost s
  | .freezeExpired => Sys2Proof.Machine.execFreezeExpired s
  | .rearmEraseDone => Sys2Proof.Machine.execRearmEraseDone s
  | .recFreeze m key => Sys2Proof.Machine.execRecFreeze m key s
  | .recUnfreeze m key => Sys2Proof.Machine.execRecUnfreeze m key s
  | .recRearm m key => Sys2Proof.Machine.execRecRearm m key s
  | .recClrCnt m => Sys2Proof.Machine.execRecClrCnt m s
  | .latchWarning => Sys2Proof.Machine.execLatchWarning s
  | .latchClose codeOk flashOk => Sys2Proof.Machine.execLatchClose codeOk flashOk s
  | .cartridgeFit cart codeOk flashOk => Sys2Proof.Machine.execCartridgeFit cart codeOk flashOk s
  | .timeLineTimeout => Sys2Proof.Machine.execTimeLineTimeout s
  | .tcSnapshot start => Sys2Proof.Machine.execTcSnapshot start s
  | .meteringCompute p q ma voltBad temp => Sys2Proof.Machine.execMeteringCompute p q ma voltBad temp s
  | .meteringPulse k overspeed => Sys2Proof.Machine.execMeteringPulse k overspeed s
  | .cartridgeSupplyLoss => Sys2Proof.Machine.execCartridgeSupplyLoss s
  | .verificationEnter => Sys2Proof.Machine.execVerificationEnter s
  | .verificationLeave => Sys2Proof.Machine.execVerificationLeave s
  | .idCmd => Sys2Proof.Machine.execIdCmd s
  | .prCmd j => Sys2Proof.Machine.execPrCmd j s
  | .pwCmd j v => Sys2Proof.Machine.execPwCmd j v s
  | .ledCmd f => Sys2Proof.Machine.execLedCmd f s
  | .lrCmd n => Sys2Proof.Machine.execLrCmd n s
  | .selectorFrameRx bytes => Sys2Proof.Machine.execSelectorFrameRx bytes s
  | .obsLaneDown lane => Sys2Proof.Machine.execObsLaneDown lane s
  | .obsEndStep m => Sys2Proof.Machine.execObsEndStep m s
  | .obsClrCnt m => Sys2Proof.Machine.execObsClrCnt m s
  | .supplyRise mv slot => Sys2Proof.Machine.execSupplyRise mv slot s
  | .coreRailsGood mv => Sys2Proof.Machine.execCoreRailsGood mv s
  | .chipResetRelease f => Sys2Proof.Machine.execChipResetRelease f s
  | .configCheckDone => Sys2Proof.Machine.execConfigCheckDone s
  | .holdupReady mv => Sys2Proof.Machine.execHoldupReady mv s
  | .doorbellRelease => Sys2Proof.Machine.execDoorbellRelease s
  | .canFirstSecondRelease => Sys2Proof.Machine.execCanFirstSecondRelease s
  | .firstSecondEnd => Sys2Proof.Machine.execFirstSecondEnd s
  | .scanStartBoundary => Sys2Proof.Machine.execScanStartBoundary s
  | .powerFailWarning mv => Sys2Proof.Machine.execPowerFailWarning mv s
  | .shutdownPoint bank => Sys2Proof.Machine.execShutdownPoint bank s
  | .holdupExhausted partnerPowered => Sys2Proof.Machine.execHoldupExhausted partnerPowered s
  | .supplyReturnRestart mv => Sys2Proof.Machine.execSupplyReturnRestart mv s
  | .pwrApply m => Sys2Proof.Machine.execPwrApply m s
  | .pwrCfgStored => Sys2Proof.Machine.execPwrCfgStored s
  | .pwrClrCnt m => Sys2Proof.Machine.execPwrClrCnt m s
  | .sysClrCnt m => Sys2Proof.Machine.execSysClrCnt m s
  | .sysRestart m v => Sys2Proof.Machine.execSysRestart m v s
  | .sampleInstant x ovr => Sys2Proof.Machine.execSampleInstant x ovr s
  | .canRxError n heavy => Sys2Proof.Machine.execCanRxError n heavy s
  | .hostLinkUp p speed width => Sys2Proof.Machine.execHostLinkUp p speed width s
  | .ringPortLinkUp p => Sys2Proof.Machine.execRingPortLinkUp p s
  | .islandLinkReturn => Sys2Proof.Machine.execIslandLinkReturn s
  | .obsLaneUp lane => Sys2Proof.Machine.execObsLaneUp lane s
  | .drawbarAckRx id => Sys2Proof.Machine.execDrawbarAckRx id s
  | .forwardedReplyRx id ring status result data => Sys2Proof.Machine.execForwardedReplyRx id ring status result data s
  | .partnerAnswerTimeout ring => Sys2Proof.Machine.execPartnerAnswerTimeout ring s
  | .drayFrameEnd lane => Sys2Proof.Machine.execDrayFrameEnd lane s
  | .cartridgeRemoved => Sys2Proof.Machine.execCartridgeRemoved s
  | .fitTimeLineWaitExpiry => Sys2Proof.Machine.execFitTimeLineWaitExpiry s
  | .chipTemperatureWarning temp => Sys2Proof.Machine.execChipTemperatureWarning temp s
  | .delayReqSend p => Sys2Proof.Machine.execDelayReqSend p s
  | .masterSyncSend p announce => Sys2Proof.Machine.execMasterSyncSend p announce s
  | .delayReqRx p src port udp fast => Sys2Proof.Machine.execDelayReqRx p src port udp fast s
  | .observationFrameSend => Sys2Proof.Machine.execObservationFrameSend s
  | .memoryWindowBurst => Sys2Proof.Machine.execMemoryWindowBurst s
  | .rearmEraseComplete => Sys2Proof.Machine.execRearmEraseComplete s
  | .legalPageDisplay page => Sys2Proof.Machine.execLegalPageDisplay page s

end Sys2Proof.Machine
end

