-- ==== Sys2Proof/Machine/Step.lean ====
section
/-!
DEFINITION. One step of the block: the command at the front of the queue is executed on the state with the rest of the
queue; on an empty queue one clock of the 250 MHz timekeeper passes (R356).
-/

namespace Sys2Proof.Machine

/-- One step. -/
def step (s : State) : Host.Outcome State Fault Refusal :=
  match s.pending with
  | [] => .next s.tick
  | c :: rest => exec c { s with pending := rest }

/-- A command put at the back of the queue, as the environment sends it. -/
def State.enqueue (s : State) (c : Instr) : State := { s with pending := s.pending ++ [c] }

/-- The state with the command that a word spells at the front of its queue; the table gives no row any bits, so the state
stands as it is. -/
def State.withFetchWord (s : State) (nbits w : Nat) : State :=
  match decodeTableWord nbits w with
  | some c => { s with pending := c :: s.pending }
  | none => s

end Sys2Proof.Machine
end

