-- ==== Sys2Proof/Safety.lean ====
section
/-!
DEFINITION. What holds of every state of a run, in the terms the statements use: the canonical forms of the sparse stores,
and the relations that say what a command leaves unchanged.
-/

namespace Sys2Proof.Machine

/-- Memory is in its canonical form: addresses strictly rising, no entry equal to what an unlisted address reads as. -/
def Mem.wf (m : Mem) : Bool :=
  swf (fun _ => 0) m.bytes && swf (fun _ => 0) m.committed && swf (fun _ => false) m.poison
    && swf (fun _ => false) m.cpoison && swf (fun _ => false) m.written

/-- The registers of the setup window and the active values of the commit groups are in their canonical form. -/
def State.regsWf (s : State) : Bool := swf regReset s.regs && swf regReset s.act

/-- The invariant of the model: every sparse store that the setup window or the address space shows is canonical, so that
states that read alike are equal data. -/
def State.Inv (s : State) : Prop := s.mem.wf = true ∧ s.regsWf = true

/-! Frames. -/

/-- Every register outside a list reads as before. -/
def keepsRegs (but : List Nat) (s t : State) : Prop := ∀ off, off ∉ but → t.rd off = s.rd off

/-- Only registers changed, and only those listed. -/
def onlyRegs (but : List Nat) (s t : State) : Prop := t = { s with regs := t.regs } ∧ keepsRegs but s t

/-- A field of a register holds a value, and the register's other bits are as before. -/
def fieldSet (f : Field) (v : Nat) (s t : State) : Prop :=
  t.fget f = v ∧ ∀ i, (i < f.lo ∨ f.lo + f.width ≤ i) → (t.rd f.off).getLsbD i = (s.rd f.off).getLsbD i

/-- Every byte of memory outside a span reads as before. -/
def keepsMem (a n : Nat) (s t : State) : Prop := ∀ x, (x < a ∨ a + n ≤ x) → t.mem.byte x = s.mem.byte x

/-- Only the field island changed, and of the registers only the DIO and AO blocks, which show it, and those listed. -/
def islandOnly (but : List Nat) (s t : State) : Prop :=
  t = { s with regs := t.regs, island := t.island } ∧
    ∀ off, off / 0x1000 ≠ 6 → off / 0x1000 ≠ 7 → off ∉ but → t.rd off = s.rd off

/-! Writes of a master to a setup register. -/

/-- A write of master `m` to the register at `off` reaches it: the chip is out of reset, MC runs where it is MC's, the window is
open to the master and the CAT grants the write (R7, R20, R35, R461). -/
def State.writes (s : State) (m : Master) (off : Nat) : Prop :=
  s.masterRuns m = true ∧ s.barShut m off = false ∧ s.catDecide (masterCls m) .write (0x10000000 + off) = none

/-! A drupelet at an instruction (R83, R104, R110, R129). -/

/-- Drupelet `be` stands before the instruction word `x` in its window `w`, and the window may execute it: it runs, holds
fewer than 2,048 stores, and its PC lies past the header; `s'` is the state once the word is fetched. -/
structure AtWord (be : Fin 32) (w : Window) (x : W32) (s s' : State) : Prop where
  window : (s.dru be).win = some w
  running : w.phase = .running
  room : storeCount w < 2048
  traceRoom : w.traced = false ∨ s.obsRoom 24 = true
  inBank : 0x100 ≤ w.core.pc.toNat
  fetched : s.fetch be w.core.pc = (s', .word x)

/-- The window goes on as `w'` after the word `x`; of a trace replica a step record is collected (R450). -/
def goesOn (be : Fin 32) (w : Window) (x : W32) (s : State) (w' : Window) : State :=
  (s.stepRecord w w' x false false).setWin be (some w')

/-- Instruction `i` on drupelet `be` completes wherever its word stands before a running window, and changes the window's
registers by `f` and nothing else but what the fetch and a replica's step record change. -/
def Computes (be : Fin 32) (i : Instr) (f : Core → Core) : Prop :=
  ∀ (s s' : State) (w : Window) (x : W32), AtWord be w x s s' → decodeDru be .clean x = some i →
    exec i s = .next (goesOn be w x s' { w with core := f w.core })

/-- Register `d` takes a value (G0 takes none) and the PC passes to the next instruction. -/
def result (c : Core) (d : Fin 32) (v : W64) : Core := { gSet c d v with pc := c.pc + 4 }

/-- The same, with sticky flags set in FL. -/
def resultFl (c : Core) (d : Fin 32) (v fl : W64) : Core := { result c d v with fl := c.fl ||| fl }

/-- The instruction raises an exception: the window's stores are discarded and the handler entered or the chain abandoned
(`State.exception`, R130 to R132); `s` is the state after the fetch. -/
def raises (be : Fin 32) (w : Window) (x : W32) (s : State) (e : Exc) (pc : BitVec 24) (imm : BitVec 16) (addr : W64) : State :=
  ((s.stepRecord w (w.touch addr.toNat) x false true).exception be w e pc imm addr).traceEnter be

/-- Conditional branch `i` feeds its outcome byte to the signature and goes on at the next instruction, or where the
condition holds at its target; a target that is no multiple of 4 or lies outside the code raises `FETCH` at the target
(R85, R123, R127). -/
def Branches (be : Fin 32) (i : Instr) (cond : Core → Bool) (off : Int) : Prop :=
  ∀ (s s' : State) (w : Window) (x : W32), AtWord be w x s s' → decodeDru be .clean x = some i →
    let target : Int := (w.core.pc.toNat : Int) + off * 4
    let fed (b : Byte) : Core := { w.core with sig := sigByte w.core.sig b }
    (cond w.core = false → exec i s = .next (goesOn be w x s' { w with core := { fed 0 with pc := w.core.pc + 4 } })) ∧
    (cond w.core = true → target % 4 = 0 → 0x100 ≤ target → target < 2 ^ 24 →
      exec i s = .next (goesOn be w x s' { w with core := { fed 1 with pc := BitVec.ofInt 24 target } })) ∧
    (cond w.core = true → (target % 4 ≠ 0 ∨ target < 0x100 ∨ 2 ^ 24 ≤ target) →
      exec i s = .next (raises be w x s' .fetch (BitVec.ofInt 24 target) 0 0))

/-- Jump `i` goes to its target, with the return point in LK where it links, or raises `FETCH` at the target (R111, R123). -/
def Jumps (be : Fin 32) (i : Instr) (link : Bool) (target : Core → Int) : Prop :=
  ∀ (s s' : State) (w : Window) (x : W32), AtWord be w x s s' → decodeDru be .clean x = some i →
    (target w.core % 4 = 0 → 0x100 ≤ target w.core → target w.core < 2 ^ 24 →
      exec i s = .next (goesOn be w x s' { w with core := { w.core with
        pc := BitVec.ofInt 24 (target w.core), lk := if link then w.core.pc + 4 else w.core.lk } })) ∧
    ((target w.core % 4 ≠ 0 ∨ target w.core < 0x100 ∨ 2 ^ 24 ≤ target w.core) →
      exec i s = .next (raises be w x s' .fetch (BitVec.ofInt 24 (target w.core)) 0 0))

/-- The bytes that a load of `n` bytes at `a` sees: of each the youngest buffered store of the window, or memory (R86). -/
def seenBytes (s : State) (be : Fin 32) (w : Window) (a n : Nat) : List Byte :=
  (List.range n).map (fun k => (bufByte w.stores (a + k)).getD (s.winByte w (physOf be a + k)))

/-- Whether the window's own stores hold every byte of a load. -/
def allBuffered (w : Window) (a n : Nat) : Bool := (List.range n).all (fun k => (bufByte w.stores (a + k)).isSome)

/-- What a refusal to a window leaves: it is counted, and latched and recorded, but for the access of a replica to the memory kept
for it (R379, log entry 109). -/
def State.refusedTo (s : State) (be : Fin 32) (w : Window) (k : AccKind) (a cause : Nat) : State :=
  if (w.kept a).isSome then s else s.catRefuse clsBrm be.val k a cause

/-- Load `i` of `n` bytes: where the address is aligned, within 40 bits, in the read set (or a written scratch doubleword)
and granted, and the word is good, Gd takes the bytes; otherwise the exception that stands highest is raised (R118, R119,
R121, R129, R383). -/
def Loads (be d : Fin 32) (i : Instr) (ecc : Ecc) (n : Nat) (signed : Bool) (addr : Core → Int) : Prop :=
  ∀ (s s' : State) (w : Window) (x : W32), AtWord be w x s s' → decodeDru be ecc x = some i →
    let a := (addr w.core).toNat
    let p := physOf be a
    let pc := w.core.pc
    let a64 := BitVec.ofInt 64 (addr w.core)
    let aligned := addr w.core % n = 0
    let inside := 0 ≤ addr w.core ∧ addr w.core < 2 ^ 40
    let allowed := if inScratch a n then w.valid.has ((a - scrBase) / 8) = true else s'.inReadSet w a n = true
    let poisoned := s'.winBad w p = true ∨ (w.rep = none ∧ ecc = .uncorrectable)
    let good := allBuffered w a n = true ∨ (s'.catDecide clsBrm .read a = none ∧ ¬ poisoned)
    let seen : State := if allBuffered w a n = false ∧ w.rep = none ∧ ecc = .corrected then s'.eccCorrected p else s'
    (aligned → inside → allowed → good → exec i s = .next (goesOn be w x seen { w.touch a with
      core := result w.core d (
        if signed then (BitVec.ofNat (8 * n) (leNat (seenBytes s' be w a n))).signExtend 64
        else BitVec.ofNat 64 (leNat (seenBytes s' be w a n))) })) ∧
    (¬ aligned → exec i s = .next (raises be w x s' .align pc 0 a64)) ∧
    (aligned → ¬ inside → exec i s = .next (raises be w x s' .readset pc 0 a64)) ∧
    (aligned → inside → ¬ allowed → exec i s = .next (raises be w x s' (if inScratch a n then .scratch else .readset) pc 0 a64)) ∧
    (∀ cause, aligned → inside → allowed → allBuffered w a n = false → s'.catDecide clsBrm .read a = some cause →
      exec i s = .next (raises be w x (s'.refusedTo be w .read a cause) .access pc 0 a64)) ∧
    (aligned → inside → allowed → allBuffered w a n = false → s'.catDecide clsBrm .read a = none → poisoned →
      exec i s = .next (s'.poisonExc be w p))

/-- Store `i` of the low `n` bytes of Gd: where the address is aligned, within 40 bits, in the write set or the scratch and
granted, the store joins the commit buffer and its record feeds the signature, and no byte of memory changes; a shorter
store to a scratch doubleword not written in this window puts eight zeros first (R76, R85, R86, R118, R119, R121). -/
def Stores (be d : Fin 32) (i : Instr) (n : Nat) (addr : Core → Int) : Prop :=
  ∀ (s s' : State) (w : Window) (x : W32), AtWord be w x s s' → decodeDru be .clean x = some i →
    let a := (addr w.core).toNat
    let pc := w.core.pc
    let a64 := BitVec.ofInt 64 (addr w.core)
    let aligned := addr w.core % n = 0
    let inside := 0 ≤ addr w.core ∧ addr w.core < 2 ^ 40
    let scr := inScratch a n
    let allowed := scr = true ∨ s'.inWriteSet w a n = true
    let v := (gReg w.core d).toNat % 256 ^ n
    let first := scr = true ∧ n < 8 ∧ w.valid.has ((a - scrBase) / 8) = false
    (aligned → inside → allowed → s'.catDecide clsBrm .write a = none → exec i s = .next (goesOn be w x s' { w.touch a with
      stores := w.stores ++ (if first then [{ addr := a / 8 * 8, size := 8, data := 0, fill := true }] else [])
        ++ [{ addr := a, size := n, data := BitVec.ofNat 64 v }]
      valid := if scr then w.valid.add ((a - scrBase) / 8) else w.valid
      core := { w.core with
        pc := w.core.pc + 4
        sig := sigBytes w.core.sig (leBytes 5 a ++ [BitVec.ofNat 8 (Nat.log2 n), 0, 0] ++ leBytes 8 v) } })) ∧
    (¬ aligned → exec i s = .next (raises be w x s' .align pc 0 a64)) ∧
    (aligned → (¬ inside ∨ ¬ allowed) → exec i s = .next (raises be w x s' .writeset pc 0 a64)) ∧
    (∀ cause, aligned → inside → allowed → s'.catDecide clsBrm .write a = some cause →
      exec i s = .next (raises be w x (s'.refusedTo be w .write a cause) .access pc 0 a64))

/-! Commands of the host rings. -/

/-- Ring `n` begins command `c` of opcode `op` (R333 to R335): it is the ring's next, its data are here, it is this S
command's turn, the module executes commands and MC runs. -/
def State.begins (s : State) (n op : Nat) (c : Cmd) : Prop :=
  s.toBegin n op = some c ∧ s.executing = true ∧ s.fbit F.sysStatus_mcRun = true

/-- A command that may be executed here: no bad descriptor, accepted in this state, not meant for the partner (R334, R335). -/
def State.accepts (s : State) (op : Nat) (c : Cmd) : Prop :=
  c.bad = false ∧ opAllowed op s.mod (s.partner == .off) = true ∧ (opP op && c.target) = false

/-! Messages and memory. -/

/-- Memory after `t` holds `data` from address `a`; every other byte reads as in `s`. -/
def wrote (a : Nat) (data : List Byte) (s t : State) : Prop :=
  ∀ x, t.mem.byte x = if a ≤ x ∧ x < a + data.length then data.getD (x - a) 0 else s.mem.byte x

/-- The Drawbar carries traffic (R201, R202). -/
def State.linkUp (s : State) : Prop := s.bogie.lanes ≠ 0 ∧ s.bogie.retrain = false

/-- A message with a number that the module has not seen can be acted on: the module is up and configured (R202, R461). -/
def State.fresh (s : State) (id : Nat) : Prop := s.up = true ∧ s.fbit F.pwrStatus_cfgDone = true ∧ s.pair.seen.contains id = false

end Sys2Proof.Machine
end

