-- ==== Sys2Proof/Certificates/Slice0/Obligations.lean ====
section
/-! DEFINITION. The statements for the provers. -/

open Sys2Proof Sys2Proof.Machine

/-! The block. -/

/-- A step takes the command at the front of the queue and executes it on the state with the rest of the queue. -/
def Obligations.StepRunsTheFrontCommand : Prop :=
  ∀ (s : State) (c : Instr) (rest : List Instr), step { s with pending := c :: rest } = exec c { s with pending := rest }

/-- Every command of the table completes in every state: none is refused, and none faults. -/
def Obligations.EveryCommandCompletes : Prop := ∀ (s : State) (c : Instr), ∃ t, exec c s = .next t

/-- The state after reset has the model's invariant: memory and registers canonical. -/
def Obligations.ResetIsCanonical : Prop := State.reset.Inv ∧ State.reset.pending = []

/-- Every step keeps memory and registers canonical, so that states that read alike stay equal data; it takes one command
off the queue and touches no other; and what has been sent stays sent, the log of outward traffic growing at its end. -/
def Obligations.StepKeepsTheModelsInvariant : Prop :=
  ∀ s t : State, step s = .next t → (s.Inv → t.Inv) ∧ t.pending = s.pending.tail ∧ ∃ more, t.out = s.out ++ more

/-! The drupelets: instructions. -/

/-- The words of the drupelet instructions are read back as they are written: the word written for an instruction decodes to
that instruction, and the word of every instruction that decodes is the word it was read from, in its defined bits. -/
def Obligations.DrupeletWordsRoundTrip : Prop :=
  (∀ (i : Instr) (be : Fin 32) (e : Ecc) (w : W32), encodeDru i = some (be, e, w) → decodeDru be e w = some i) ∧
  (∀ (i : Instr) (be : Fin 32) (e : Ecc) (w : W32), decodeDru be e w = some i → ∃ e', encodeDru i = some (be, e', w))

/-- INT functions that set no flag (R112). Products, and the operations on words (R112). Divisions and saturating sums, with
their flags: bit 5 of FL is `DZI`, bit 6 `IV`, bit 7 `SAT` (R108, R113). -/
def Obligations.IntegerResults : Prop :=
  (
    ∀ be d a b : Fin 32,
      Computes be (.add be d a b) (fun c => result c d (gReg c a + gReg c b)) ∧
      Computes be (.sub be d a b) (fun c => result c d (gReg c a - gReg c b)) ∧
      Computes be (.and be d a b) (fun c => result c d (gReg c a &&& gReg c b)) ∧
      Computes be (.or be d a b) (fun c => result c d (gReg c a ||| gReg c b)) ∧
      Computes be (.xor be d a b) (fun c => result c d (gReg c a ^^^ gReg c b)) ∧
      Computes be (.shl be d a b) (fun c => result c d (gReg c a <<< ((gReg c b).toNat % 64))) ∧
      Computes be (.shr be d a b) (fun c => result c d (gReg c a >>> ((gReg c b).toNat % 64))) ∧
      Computes be (.sar be d a b) (fun c => result c d ((gReg c a).sshiftRight ((gReg c b).toNat % 64))) ∧
      Computes be (.ror be d a b) (fun c => result c d
        ((gReg c a >>> ((gReg c b).toNat % 64)) ||| (gReg c a <<< (64 - (gReg c b).toNat % 64)))) ∧
      Computes be (.slt be d a b) (fun c => result c d (if (gReg c a).toInt < (gReg c b).toInt then 1 else 0)) ∧
      Computes be (.sltu be d a b) (fun c => result c d (if (gReg c a).toNat < (gReg c b).toNat then 1 else 0)) ∧
      Computes be (.seq be d a b) (fun c => result c d (if gReg c a = gReg c b then 1 else 0)) ∧
      Computes be (.min be d a b) (fun c => result c d (if (gReg c a).toInt ≤ (gReg c b).toInt then gReg c a else gReg c b)) ∧
      Computes be (.max be d a b) (fun c => result c d (if (gReg c a).toInt ≤ (gReg c b).toInt then gReg c b else gReg c a)) ∧
      Computes be (.minu be d a b) (fun c => result c d (if (gReg c a).toNat ≤ (gReg c b).toNat then gReg c a else gReg c b)) ∧
      Computes be (.maxu be d a b) (fun c => result c d (if (gReg c a).toNat ≤ (gReg c b).toNat then gReg c b else gReg c a)) ∧
      Computes be (.clz be d a) (fun c => result c d (gReg c a).clz) ∧
      Computes be (.popc be d a) (fun c => result c d (gReg c a).cpop) ∧
      Computes be (.sel be d a b) (fun c => result c d (if gReg c d ≠ 0 then gReg c a else gReg c b))) ∧
  (
    ∀ be d a b : Fin 32,
      Computes be (.mul be d a b) (fun c => result c d (gReg c a * gReg c b)) ∧
      Computes be (.mulh be d a b) (fun c => result c d
        (((gReg c a).signExtend 128 * (gReg c b).signExtend 128).extractLsb' 64 64)) ∧
      Computes be (.mulhu be d a b) (fun c => result c d
        (((gReg c a).zeroExtend 128 * (gReg c b).zeroExtend 128).extractLsb' 64 64)) ∧
      Computes be (.addw be d a b) (fun c => result c d
        (((gReg c a).extractLsb' 0 32 + (gReg c b).extractLsb' 0 32).signExtend 64)) ∧
      Computes be (.subw be d a b) (fun c => result c d
        (((gReg c a).extractLsb' 0 32 - (gReg c b).extractLsb' 0 32).signExtend 64)) ∧
      Computes be (.mulw be d a b) (fun c => result c d
        (((gReg c a).extractLsb' 0 32 * (gReg c b).extractLsb' 0 32).signExtend 64))) ∧
  (
    ∀ be d a b : Fin 32,
      (let fl (x y : W64) : W64 := if y = 0 then 0x20 else if x = BitVec.intMin 64 ∧ y = -1 then 0x40 else 0
       Computes be (.div be d a b) (fun c => resultFl c d
        (if gReg c b = 0 then 0 else if gReg c a = BitVec.intMin 64 ∧ gReg c b = -1 then BitVec.intMin 64
         else BitVec.ofInt 64 ((gReg c a).toInt.tdiv (gReg c b).toInt)) (fl (gReg c a) (gReg c b))) ∧
       Computes be (.rem be d a b) (fun c => resultFl c d
        (if gReg c b = 0 then gReg c a else if gReg c a = BitVec.intMin 64 ∧ gReg c b = -1 then 0
         else BitVec.ofInt 64 ((gReg c a).toInt.tmod (gReg c b).toInt)) (fl (gReg c a) (gReg c b)))) ∧
      Computes be (.divu be d a b) (fun c => resultFl c d
        (if gReg c b = 0 then 0 else BitVec.ofNat 64 ((gReg c a).toNat / (gReg c b).toNat)) (if gReg c b = 0 then 0x20 else 0)) ∧
      Computes be (.remu be d a b) (fun c => resultFl c d
        (if gReg c b = 0 then gReg c a else BitVec.ofNat 64 ((gReg c a).toNat % (gReg c b).toNat))
        (if gReg c b = 0 then 0x20 else 0)) ∧
      (let sat (z : Int) : W64 := BitVec.ofInt 64 (max (-2 ^ 63) (min (2 ^ 63 - 1) z))
       let fl (z : Int) : W64 := if -2 ^ 63 ≤ z ∧ z ≤ 2 ^ 63 - 1 then 0 else 0x80
       Computes be (.addsat be d a b) (fun c => resultFl c d (sat ((gReg c a).toInt + (gReg c b).toInt))
        (fl ((gReg c a).toInt + (gReg c b).toInt))) ∧
       Computes be (.subsat be d a b) (fun c => resultFl c d (sat ((gReg c a).toInt - (gReg c b).toInt))
        (fl ((gReg c a).toInt - (gReg c b).toInt)))))

/-- Immediate operations (R111). -/
def Obligations.ImmediateResults : Prop :=
  ∀ (be d a : Fin 32) (imm : BitVec 16) (n : Fin 64),
    Computes be (.addi be d a imm) (fun c => result c d (gReg c a + imm.signExtend 64)) ∧
    Computes be (.andi be d a imm) (fun c => result c d (gReg c a &&& imm.zeroExtend 64)) ∧
    Computes be (.ori be d a imm) (fun c => result c d (gReg c a ||| imm.zeroExtend 64)) ∧
    Computes be (.xori be d a imm) (fun c => result c d (gReg c a ^^^ imm.zeroExtend 64)) ∧
    Computes be (.slti be d a imm) (fun c => result c d (if (gReg c a).toInt < imm.toInt then 1 else 0)) ∧
    Computes be (.sltiu be d a imm) (fun c => result c d (if (gReg c a).toNat < (imm.signExtend 64).toNat then 1 else 0)) ∧
    Computes be (.shi be d a .shl n) (fun c => result c d (gReg c a <<< n.val)) ∧
    Computes be (.shi be d a .shr n) (fun c => result c d (gReg c a >>> n.val)) ∧
    Computes be (.shi be d a .sar n) (fun c => result c d ((gReg c a).sshiftRight n.val)) ∧
    Computes be (.shi be d a .ror n) (fun c => result c d ((gReg c a >>> n.val) ||| (gReg c a <<< (64 - n.val)))) ∧
    Computes be (.lui be d imm) (fun c => result c d (imm.signExtend 64 * 65536))

/-- Bit fields of `len1 + 1` bits from `pos` (R114). Fields that end beyond bit 63 spell no instruction (R114). A drupelet
instruction commanded where the word at the PC spells none raises `ILLEGAL` at it, and one commanded at a PC below 0x100
raises `FETCH`, whatever instruction the command names (R110, R123, R129). -/
def Obligations.BitFieldsAndIllegalWords : Prop :=
  (
    ∀ (be d a : Fin 32) (pos len1 : Fin 64), pos.val + len1.val + 1 ≤ 64 →
      Computes be (.bextu be d a pos len1) (fun c => result c d (((gReg c a).extractLsb' pos.val (len1.val + 1)).zeroExtend 64)) ∧
      Computes be (.bexts be d a pos len1) (fun c => result c d (((gReg c a).extractLsb' pos.val (len1.val + 1)).signExtend 64)) ∧
      (∀ v : Core → W64,
        (∀ c i, (v c).getLsbD i = if pos.val ≤ i ∧ i < pos.val + len1.val + 1 then (gReg c a).getLsbD (i - pos.val)
          else (gReg c d).getLsbD i) →
        Computes be (.bins be d a pos len1) (fun c => result c d (v c)))) ∧
  (
    ∀ (be : Fin 32) (ecc : Ecc) (x : W32), wfld x 26 6 = 5 → 64 < wfld x 10 6 + wfld x 4 6 + 1 → decodeDru be ecc x = none) ∧
  (
    ∀ (i : Instr) (be : Fin 32) (ecc : Ecc) (y : W32), decodeDru be ecc y = some i →
      (∀ (s s' : State) (w : Window) (x : W32), AtWord be w x s s' → w.traced = false → (∀ e, decodeDru be e x = none) →
        exec i s = .next (s'.exception be w .illegal w.core.pc 0 0)) ∧
      (∀ (s : State) (w : Window), (s.dru be).win = some w → w.phase = .running → storeCount w < 2048 → w.traced = false →
        w.core.pc.toNat < 0x100 → exec i s = .next (s.exception be w .fetch w.core.pc 0 0)))

/-- G0 reads zero and discards writes; any other register reads what was written to it, the others as before (R105). What a
fetch that gives a word changes: at most the instruction half of its drupelet and the counters of the observation port
(R104, R448). What `goesOn` leaves as it was after the fetch: memory, all registers but the observation port's count of
records dropped, the window's drupelet but for the window, and every other drupelet; a window of no trace replica leaves
no record (R450). -/
def Obligations.RegistersAndFrames : Prop :=
  (
    ∀ (c : Core) (d i : Fin 32) (v : W64),
      gReg c 0 = 0 ∧
      gReg (result c d v) i = (if i = d ∧ d ≠ 0 then v else gReg c i) ∧
      result c d v = { c with g := (result c d v).g, pc := c.pc + 4 }) ∧
  (
    ∀ (s s' : State) (be : Fin 32) (pc : BitVec 24) (x : W32), s.fetch be pc = (s', .word x) →
      s' = { s with regs := s'.regs, brm := s'.brm } ∧
      s'.brm = { s.brm with be := s'.brm.be } ∧
      s'.dru be = { s.dru be with lines := (s'.dru be).lines } ∧
      (∀ i, i ≠ be → s'.dru i = s.dru i) ∧
      (∀ off, off < R.obsCntk 0 ∨ R.obsCntk 255 < off → s'.rd off = s.rd off)) ∧
  (
    ∀ (be : Fin 32) (w w' : Window) (x : W32) (s : State),
      let t := goesOn be w x s w'
      t = { s with brm := t.brm, obs := t.obs, regs := t.regs } ∧
      (t.dru be) = { s.dru be with win := some w' } ∧
      (∀ i, i ≠ be → t.dru i = s.dru i) ∧
      t.brm = { s.brm with be := t.brm.be } ∧
      (∀ off, off ≠ R.obsDrop → t.rd off = s.rd off) ∧
      (w.traced = false → t.obs = s.obs ∧ t.regs = s.regs))

/-- Special registers and the two base setters (R105, R108, R124, R125). -/
def Obligations.SpecialRegisters : Prop :=
  ∀ (be d a : Fin 32) (imm : BitVec 16) (s s' : State) (w : Window) (x : W32), AtWord be w x s s' →
    (decodeDru be .clean x = some (.ibset be a imm) → exec (.ibset be a imm) s = .next (goesOn be w x s' { w with core :=
      { w.core with
        pc := w.core.pc + 4
        ib := BitVec.ofNat 40 (0x02000000 + w.oc.desc.instOff + ((gReg w.core a).toNat + imm.toNat) * 16) } })) ∧
    (decodeDru be .clean x = some (.cbset be a imm) → exec (.cbset be a imm) s = .next (goesOn be w x s' { w with core :=
      { w.core with
        pc := w.core.pc + 4
        cb := BitVec.ofNat 40 (s.bank + ((gReg w.core a).toNat + imm.toNat) * 256) } })) ∧
    (∀ sel : Fin 12, decodeDru be .clean x = some (.mfs be d a sel) →
      exec (.mfs be d a sel) s = .next (goesOn be w x s' { w with core := result w.core d (
        match sel.val with
        | 0 => w.core.ib.zeroExtend 64
        | 1 => w.core.pb.zeroExtend 64
        | 2 => w.core.cb.zeroExtend 64
        | 3 => w.core.lk.zeroExtend 64
        | 4 => w.core.fl
        | 5 => 0x04020000
        | 6 => BitVec.ofNat 64 w.oc.work.chain
        | 7 => BitVec.ofNat 64 (0x02000000 + w.oc.desc.instOff)
        | 8 => BitVec.ofNat 64 w.oc.desc.instLen
        | 9 => BitVec.ofNat 64 w.oc.desc.cls.num
        | 10 => BitVec.ofNat 64 (w.core.pb.toNat + 0x80000 + (s.outRun w.oc.work.chain).1)
        | _ => BitVec.ofNat 64 (s.outRun w.oc.work.chain).2) })) ∧
    (decodeDru be .clean x = some (.mts be d a 3) → exec (.mts be d a 3) s = .next (goesOn be w x s' { w with core :=
      { w.core with pc := w.core.pc + 4, lk := (gReg w.core a).extractLsb' 0 24 } })) ∧
    (decodeDru be .clean x = some (.mts be d a 4) → exec (.mts be d a 4) s = .next (goesOn be w x s' { w with core :=
      { w.core with
        pc := w.core.pc + 4
        fl := 0#53 ++ w.core.fl.extractLsb' 10 1 ++ (gReg w.core a).extractLsb' 0 10 } })) ∧
    (∀ sel : Fin 16, sel ≠ 3 → sel ≠ 4 → decodeDru be .clean x ≠ some (.mts be d a sel))

/-- Branches and jumps (R111, R123, R127). -/
def Obligations.BranchesAndJumps : Prop :=
  ∀ (be a b : Fin 32) (bit : Fin 64) (off : BitVec 16) (off15 : BitVec 15) (off26 : BitVec 26),
    Branches be (.bbs be a bit off15) (fun c => (gReg c a).getLsbD bit.val) off15.toInt ∧
    Branches be (.bbc be a bit off15) (fun c => !(gReg c a).getLsbD bit.val) off15.toInt ∧
    Branches be (.beq be a b off) (fun c => decide (gReg c a = gReg c b)) off.toInt ∧
    Branches be (.bne be a b off) (fun c => decide (gReg c a ≠ gReg c b)) off.toInt ∧
    Branches be (.blt be a b off) (fun c => decide ((gReg c a).toInt < (gReg c b).toInt)) off.toInt ∧
    Branches be (.bge be a b off) (fun c => decide ((gReg c b).toInt ≤ (gReg c a).toInt)) off.toInt ∧
    Branches be (.bltu be a b off) (fun c => decide ((gReg c a).toNat < (gReg c b).toNat)) off.toInt ∧
    Branches be (.bgeu be a b off) (fun c => decide ((gReg c b).toNat ≤ (gReg c a).toNat)) off.toInt ∧
    Jumps be (.jr be a) false (fun c => (gReg c a).toNat) ∧
    Jumps be (.callr be a) true (fun c => (gReg c a).toNat) ∧
    Jumps be (.ret be a) false (fun c => c.lk.toNat) ∧
    Jumps be (.j be off26) false (fun c => (c.pc.toNat : Int) + off26.toInt * 4) ∧
    Jumps be (.call be off26) true (fun c => (c.pc.toNat : Int) + off26.toInt * 4)

/-- Loads of format M, whose address is a base and a scaled displacement (R118). Loads of format X, whose address is a
register and a signed displacement (R118). -/
def Obligations.LoadsReadTheWindow : Prop :=
  (
    ∀ (be d : Fin 32) (base : DBase) (disp : BitVec 16) (ecc : Ecc),
      let addr (n : Nat) (c : Core) : Int :=
        ((match base with
          | .ib => c.ib.toNat
          | .pb => c.pb.toNat
          | .pbo => c.pb.toNat + 0x80000
          | .cb => c.cb.toNat
          | .scr => 0x04020000) + disp.toNat * n : Nat)
      Loads be d (.ldb be d base disp ecc) ecc 1 false (addr 1) ∧
      Loads be d (.ldbs be d base disp ecc) ecc 1 true (addr 1) ∧
      Loads be d (.ldh be d base disp ecc) ecc 2 false (addr 2) ∧
      Loads be d (.ldhs be d base disp ecc) ecc 2 true (addr 2) ∧
      Loads be d (.ldw be d base disp ecc) ecc 4 false (addr 4) ∧
      Loads be d (.ldws be d base disp ecc) ecc 4 true (addr 4) ∧
      Loads be d (.ldd be d base disp ecc) ecc 8 false (addr 8)) ∧
  (
    ∀ (be d a : Fin 32) (disp : BitVec 16) (ecc : Ecc),
      let addr (c : Core) : Int := (gReg c a).toNat + disp.toInt
      Loads be d (.ldxb be d a disp ecc) ecc 1 false addr ∧
      Loads be d (.ldxbs be d a disp ecc) ecc 1 true addr ∧
      Loads be d (.ldxh be d a disp ecc) ecc 2 false addr ∧
      Loads be d (.ldxhs be d a disp ecc) ecc 2 true addr ∧
      Loads be d (.ldxw be d a disp ecc) ecc 4 false addr ∧
      Loads be d (.ldxws be d a disp ecc) ecc 4 true addr ∧
      Loads be d (.ldxd be d a disp ecc) ecc 8 false addr)

/-- Stores of both formats (R118). `WINDOW_COMMIT_END` of a window of the foreground whose words are good (R86 to R88): every
byte of memory then reads as the youngest store of the window to it, and as before where the window stored nothing; the
windows of the other drupelets go on, and the windows committed are counted; a chain that goes on starts its next window
from the checkpoint, or yields where a yield is due. -/
def Obligations.StoresAndCommits : Prop :=
  (
    ∀ (be d a : Fin 32) (base : DBase) (disp : BitVec 16),
      let addr (n : Nat) (c : Core) : Int :=
        ((match base with
          | .ib => c.ib.toNat
          | .pb => c.pb.toNat
          | .pbo => c.pb.toNat + 0x80000
          | .cb => c.cb.toNat
          | .scr => 0x04020000) + disp.toNat * n : Nat)
      let addrX (c : Core) : Int := (gReg c a).toNat + disp.toInt
      Stores be d (.stb be d base disp) 1 (addr 1) ∧
      Stores be d (.sth be d base disp) 2 (addr 2) ∧
      Stores be d (.stw be d base disp) 4 (addr 4) ∧
      Stores be d (.std be d base disp) 8 (addr 8) ∧
      Stores be d (.stxb be d a disp) 1 addrX ∧
      Stores be d (.stxh be d a disp) 2 addrX ∧
      Stores be d (.stxw be d a disp) 4 addrX ∧
      Stores be d (.stxd be d a disp) 8 addrX) ∧
  (
    ∀ (be : Fin 32) (upset upsetH : W64) (s : State) (w : Window) (chain : Bool), s.Inv → (s.dru be).win = some w →
      w.phase = .committing chain → w.rep = none →
      (∀ b ∈ w.stores, (b.size = 1 ∨ b.size = 2 ∨ b.size = 4 ∨ b.size = 8) ∧ b.addr % b.size = 0 ∧
        s.mem.bad (physOf be b.addr / 8) = false) →
      ∃ t, exec (.windowCommitEnd be upset upsetH) s = .next t ∧
        (∀ a, t.mem.byte a = (bufByte (w.stores.map (fun b => { b with addr := physOf be b.addr })) a).getD (s.mem.byte a)) ∧
        (∀ i, i ≠ be → (t.dru i).win = (s.dru i).win) ∧
        t.rd64 R.brmWindowsLo = s.rd64 R.brmWindowsLo + 1 ∧
        (chain = false → (s.dru be).yieldReq = false →
          ∃ v, (t.dru be).win = some v ∧ v.core = w.core ∧ v.oc.cp = w.core ∧ v.oc.window = w.oc.window + 1 ∧
            v.oc.mismatches = 0 ∧ v.stores = [] ∧ v.phase = .running ∧ v.upset = upset) ∧
        (chain = false → (s.dru be).yieldReq = true → (t.dru be).win = none ∧
          ∃ o, t.brm.yielded = s.brm.yielded ++ [o] ∧ o.cp = w.core))

/-- NOP, and the ends of a window by WEND and CHEND (R126, R87): where nothing disturbed the cores they agree, and the commit
begins, or waits for the end of a copy that has already sent a block of its stores (R205). A trap on which both cores
agree: the chain's next window starts in the handler from the checkpoint of the faulting window, with the exception
record in G31, zero in G30 and FL.`EXM` set; the stores of the window are gone (R126, R130, R131). -/
def Obligations.WindowEndsAndTraps : Prop :=
  (
    ∀ be : Fin 32,
      Computes be (.nop be) (fun c => { c with pc := c.pc + 4 }) ∧
      ∀ (s s' : State) (w : Window) (x : W32), AtWord be w x s s' → w.rep = none → w.upset = 0 →
        let ended (chain : Bool) (t : State) : Prop :=
          (t.dru be).win = some { w with
            core := { w.core with pc := w.core.pc + 4 }
            phase := if s'.copyHolds be w then .copyHeld chain else .committing chain } ∧
          t = { s' with brm := { s'.brm with be := t.brm.be, fgNs := t.brm.fgNs } } ∧ (∀ i, i ≠ be → t.dru i = s'.dru i)
        (decodeDru be .clean x = some (.wend be) → ∃ t, exec (.wend be) s = .next t ∧ ended false t) ∧
        (decodeDru be .clean x = some (.chend be) → ∃ t, exec (.chend be) s = .next t ∧ ended true t)) ∧
  (
    ∀ (be : Fin 32) (imm : BitVec 16) (s s' : State) (w : Window) (x : W32),
      AtWord be w x s s' → decodeDru be .clean x = some (.trap be imm) → w.rep = none → w.upset = 0 →
      s'.hExcEntry s'.bank ≠ 0 → w.oc.cp.fl.getLsbD 10 = false → (s'.dru be).yieldReq = false →
      ∃ t c, exec (.trap be imm) s = .next t ∧
        (t.dru be).win = some { oc := { w.oc with cp := c, window := w.oc.window + 1, mismatches := 0, barred := 0 }, core := c
                                upset := w.upsetH, start := s'.time.tb1 } ∧
        c.pc = BitVec.ofNat 24 (s'.hExcEntry s'.bank) ∧ c.fl = w.oc.cp.fl ||| 0x400 ∧
        gReg c 31 = 0#16 ++ imm ++ w.core.pc ++ 7#8 ∧ gReg c 30 = 0 ∧
        (∀ i : Fin 32, i ≠ 30 → i ≠ 31 → gReg c i = gReg w.oc.cp i) ∧
        c = { w.oc.cp with g := c.g, pc := c.pc, fl := c.fl } ∧
        t = { s' with brm := t.brm, recd := t.recd, obs := t.obs, regs := t.regs, clk := t.clk } ∧
        (∀ off, off ≠ R.obsDrop → off ≠ R.wfStatus → t.rd off = s'.rd off) ∧ (∀ i, i ≠ be → t.dru i = s'.dru i))

/-- Floating-point operations take their operands in precision P and the rounding mode of FL, and set their flags in FL; a
binary32 result leaves the upper half zero (R108, R115, R116, R117). The arithmetic itself is that of
Machine/Float.lean, of which the clauses below give what follows. Conversions (R117). NaN, infinity and out-of-range
operands (R116, R117): every NaN result is the default quiet NaN. Where integer arithmetic is exact in a format,
floating-point arithmetic agrees with it in every rounding mode and sets no flag (R115, R117). -/
def Obligations.FloatingPoint : Prop :=
  (
    ∀ (be d a b e : Fin 32) (p : Bool),
      let f := ffmt p
      let v (c : Core) (i : Fin 32) : FVal := f.unpack (if p then (gReg c i).toNat else (gReg c i).toNat % 2 ^ 32)
      let bits (c : Core) (i : Fin 32) : Nat := if p then (gReg c i).toNat else (gReg c i).toNat % 2 ^ 32
      let rm (c : Core) : RMode := rmode (c.fl.toNat / 256 % 4)
      let out (c : Core) (r : Nat × FFlags) : Core := resultFl c d (BitVec.ofNat 64 r.1) (BitVec.ofNat 64 r.2)
      Computes be (.fadd be d a b p) (fun c => out c (fadd f (rm c) (v c a) (v c b))) ∧
      Computes be (.fsub be d a b p) (fun c => out c (fadd f (rm c) (v c a) (v c b).neg)) ∧
      Computes be (.fmul be d a b p) (fun c => out c (fmul f (rm c) (v c a) (v c b))) ∧
      Computes be (.fdiv be d a b p) (fun c => out c (fdiv f (rm c) (v c a) (v c b))) ∧
      Computes be (.fsqrt be d a p) (fun c => out c (fsqrt f (rm c) (v c a))) ∧
      Computes be (.fmin be d a b p) (fun c => out c (fminmax f false (bits c a) (bits c b))) ∧
      Computes be (.fmax be d a b p) (fun c => out c (fminmax f true (bits c a) (bits c b))) ∧
      Computes be (.fabs be d a b p) (fun c => result c d (
        if p then (gReg c a) &&& 0x7FFFFFFFFFFFFFFF else (gReg c a) &&& 0x7FFFFFFF)) ∧
      Computes be (.fneg be d a b p) (fun c => result c d (
        if p then (gReg c a) ^^^ 0x8000000000000000 else ((gReg c a) &&& 0xFFFFFFFF) ^^^ 0x80000000)) ∧
      Computes be (.feq be d a b p) (fun c => resultFl c d (if feqVal (v c a) (v c b) then 1 else 0)
        (if (v c a).isSNaN || (v c b).isSNaN then 1 else 0)) ∧
      Computes be (.flt be d a b p) (fun c => resultFl c d (
        if !(v c a).isNaN && !(v c b).isNaN && fltVal (v c a) (v c b) then 1 else 0)
        (if (v c a).isNaN || (v c b).isNaN then 1 else 0)) ∧
      Computes be (.fle be d a b p) (fun c => resultFl c d (
        if !(v c a).isNaN && !(v c b).isNaN && !fltVal (v c b) (v c a) then 1 else 0)
        (if (v c a).isNaN || (v c b).isNaN then 1 else 0)) ∧
      Computes be (.fmadd be d a b e p) (fun c => out c (ffma f (rm c) (v c a) (v c b) (v c e))) ∧
      Computes be (.fmsub be d a b e p) (fun c => out c (ffma f (rm c) (v c a) (v c b) (v c e).neg)) ∧
      Computes be (.fnmadd be d a b e p) (fun c => out c (ffma f (rm c) (v c a).neg (v c b) (v c e).neg)) ∧
      Computes be (.fnmsub be d a b e p) (fun c => out c (ffma f (rm c) (v c a).neg (v c b) (v c e)))) ∧
  (
    ∀ (be d a b : Fin 32) (p : Bool),
      let f := ffmt p
      let v (c : Core) (i : Fin 32) : FVal := f.unpack (if p then (gReg c i).toNat else (gReg c i).toNat % 2 ^ 32)
      let rm (c : Core) : RMode := rmode (c.fl.toNat / 256 % 4)
      let out (c : Core) (r : Nat × FFlags) : Core := resultFl c d (BitVec.ofNat 64 r.1) (BitVec.ofNat 64 r.2)
      let outI (c : Core) (r : Int × FFlags) : Core := resultFl c d (BitVec.ofInt 64 r.1) (BitVec.ofNat 64 r.2)
      Computes be (.fcvti be d a b p) (fun c => outI c (fToInt (rm c) (-2 ^ 63) (2 ^ 63 - 1) (v c a))) ∧
      Computes be (.fcvtu be d a b p) (fun c => outI c (fToInt (rm c) 0 (2 ^ 64 - 1) (v c a))) ∧
      Computes be (.fcvtiz be d a b p) (fun c => outI c (fToInt .towardZero (-2 ^ 63) (2 ^ 63 - 1) (v c a))) ∧
      Computes be (.fcvtuz be d a b p) (fun c => outI c (fToInt .towardZero 0 (2 ^ 64 - 1) (v c a))) ∧
      Computes be (.icvtf be d a b p) (fun c => out c (intToF f (rm c) (gReg c a).toInt)) ∧
      Computes be (.ucvtf be d a b p) (fun c => out c (intToF f (rm c) (gReg c a).toNat)) ∧
      Computes be (.fwiden be d a b) (fun c => out c (fConv ⟨11, 52⟩ (rm c) (FFmt.unpack ⟨8, 23⟩ ((gReg c a).toNat % 2 ^ 32)))) ∧
      Computes be (.fnarrow be d a b) (fun c => out c (fConv ⟨8, 23⟩ (rm c) (FFmt.unpack ⟨11, 52⟩ (gReg c a).toNat)))) ∧
  (
    (ffmt false).qnan = 0x7FC00000 ∧ (ffmt true).qnan = 0x7FF8000000000000 ∧
    ∀ (p : Bool) (rm : RMode) (x y : Nat) (c : FVal) (lo hi : Int),
      let f := ffmt p
      let a := f.unpack x
      let b := f.unpack y
      (a.isNaN ∨ b.isNaN → (fadd f rm a b).1 = f.qnan ∧ (fmul f rm a b).1 = f.qnan ∧ (fdiv f rm a b).1 = f.qnan ∧
        (ffma f rm a b c).1 = f.qnan) ∧
      (a.isNaN → b.isNaN = false → (fminmax f false x y).1 = y ∧ (fminmax f true x y).1 = y) ∧
      (a.isNaN = false → b.isNaN → (fminmax f false x y).1 = x ∧ (fminmax f true x y).1 = x) ∧
      (a.isNaN → b.isNaN → (fminmax f false x y).1 = f.qnan ∧ (fminmax f true x y).1 = f.qnan) ∧
      (a.isNaN → fToInt rm lo hi a = (0, 1)) ∧
      (∀ s, fToInt rm lo hi (.inf s) = (if s then lo else hi, 1)) ∧
      (∀ s m e k nx, toIntVal rm (.fin s m e) = some (k, nx) → lo ≤ hi →
        fToInt rm lo hi (.fin s m e) = (max lo (min hi k), if k < lo ∨ hi < k then 1 else if nx then 16 else 0)) ∧
      fminmax f false (f.packSign true 0) (f.packSign false 0) = (f.packSign true 0, 0) ∧
      fminmax f true (f.packSign true 0) (f.packSign false 0) = (f.packSign false 0, 0)) ∧
  (
    ∀ (p : Bool) (rm : RMode) (m n : Int),
      let f := ffmt p
      let lim : Int := 2 ^ (f.fb + 1)
      let flt (k : Int) : FVal := f.unpack (intToF f rm k).1
      m.natAbs ≤ lim → n.natAbs ≤ lim →
      (intToF f rm m).2 = 0 ∧
      fToInt rm (-2 ^ 63) (2 ^ 63 - 1) (flt m) = (m, 0) ∧
      ((m + n).natAbs ≤ lim → m + n ≠ 0 → fadd f rm (flt m) (flt n) = intToF f rm (m + n)) ∧
      ((m * n).natAbs ≤ lim → m * n ≠ 0 → fmul f rm (flt m) (flt n) = intToF f rm (m * n)) ∧
      (fltVal (flt m) (flt n) = decide (m < n)) ∧
      (feqVal (flt m) (flt n) = decide (m = n)))

/-! The Bramble. -/

/-- `WORK_TAKE` (R80) on an active drupelet without a window whose cluster's PLL is locked, where the scan runs: the work that
`State.findWork` finds for it, a restart entry, a yielded chain, work of its own deque, of the overflow queue or of another
drupelet's deque, leaves its place, and a window starts from its checkpoint, or from the chain's entry with the registers
of R106; a restart entry is never of a window that the drupelet mismatched itself (R91, R93); on a PRIMARY, where there is
no work nothing changes. The limits of a window end it (R83, R87): where nothing disturbed the cores the commit begins, or
waits for a copy; the store limit does so only from the 2,048th store on. A signature mismatch (R91, R93, R94): no store of
the window reaches memory, the drupelet leaves the pool for its self-test with no window, and up to the third mismatch the
window waits as a restart entry of its cluster; the fourth is a Bramble fault, at which a PRIMARY whose partner asserts
`READY` drops `CLAIM`. -/
def Obligations.Windows : Prop :=
  (
    ∀ (be : Fin 32) (upset upsetH : W64) (s : State), s.regsWf = true → s.obs.drain ≠ some be.val → (s.dru be).st = .active →
      s.scanRuns = true → (s.dru be).win = none → s.clocked be = true →
      let i : Instr := .workTake be upset upsetH
      let starts (oc : OpenChain) (t : State) : Prop := (t.dru be).win =
        some { oc := oc, core := oc.cp, upset := upset, upsetH := upsetH, start := s.time.tb1 }
      let enters (w : Work) (d : ChainDesc) (t : State) : Prop := ∃ c : Core, starts { work := w, desc := d, cp := c } t ∧
        c.pc = BitVec.ofNat 24 d.entry ∧ c.fl = 0 ∧ c.lk = 0 ∧ c.pb = BitVec.ofNat 40 (s.winBase d.cls) ∧
        c.ib = BitVec.ofNat 40 (0x02000000 + d.instOff) ∧ c.cb = BitVec.ofNat 40 s.bank ∧
        (∀ k : Fin 32, k ≠ 1 → gReg c k = 0) ∧ gReg c 1 = (if d.cls = .e then BitVec.ofNat 64 w.slot else 0)
      let others (t : State) : Prop := ∀ k, k ≠ be → t.dru k = s.dru k
      (s.findWork be = none → s.mod = .primary → exec i s = .next s) ∧
      (∀ k oc, s.findWork be = some (.restart k oc) → oc.barred.getLsbD be.val = false ∧
        ∃ t, exec i s = .next t ∧ starts oc t ∧ t.brm.restarts = s.brm.restarts.erase (k, oc) ∧
          (t.rd R.brmRestarts).toNat = satAdd 32 (s.rd R.brmRestarts).toNat 1 ∧ t.mem = s.mem ∧ others t) ∧
      (∀ oc, s.findWork be = some (.yielded oc) →
        ∃ t, exec i s = .next t ∧ starts oc t ∧ t.brm.yielded = s.brm.yielded.erase oc ∧ keepsRegs [R.wfStatus] s t ∧
          t.mem = s.mem ∧ others t) ∧
      (∀ w d, s.findWork be = some (.own w) → s.openCount < 256 → s.chain w.chain = some d →
        ∃ t, exec i s = .next t ∧ enters w d t ∧
          (t.dru be).deques = vmod (s.dru be).deques d.cls.num List.dropLast ∧ keepsRegs [R.wfStatus] s t ∧ t.mem = s.mem ∧ others t) ∧
      (∀ w d, s.findWork be = some (.overflow w) → s.openCount < 256 → s.chain w.chain = some d →
        ∃ t, exec i s = .next t ∧ enters w d t ∧ t.brm.overflow = vmod s.brm.overflow d.cls.num List.tail ∧
          (t.rd R.brmStealX).toNat = satAdd 32 (s.rd R.brmStealX).toNat 1 ∧ keepsRegs [R.brmStealX, R.wfStatus] s t ∧
          t.mem = s.mem ∧ others t) ∧
      (∀ k w d, s.findWork be = some (.steal k w) → s.openCount < 256 → s.chain w.chain = some d →
        let r := if k.val / 8 = be.val / 8 then R.brmStealIn else R.brmStealX
        ∃ t, exec i s = .next t ∧ enters w d t ∧
          t.dru k = { s.dru k with deques := vmod (s.dru k).deques d.cls.num List.tail } ∧
          (t.rd r).toNat = satAdd 32 (s.rd r).toNat 1 ∧ t.mem = s.mem ∧ (∀ j, j ≠ be → j ≠ k → t.dru j = s.dru j))) ∧
  (
    ∀ (be : Fin 32) (s : State) (w : Window), (s.dru be).win = some w → w.phase = .running → w.rep = none → w.upset = 0 →
      let ended (t : State) : Prop :=
        t.dru be = { s.dru be with win := some { w with phase := if s.copyHolds be w then .copyHeld false else .committing false } } ∧
        t = { s with brm := { s.brm with be := t.brm.be, fgNs := t.brm.fgNs } } ∧ (∀ i, i ≠ be → t.dru i = s.dru i)
      (∃ t, exec (.windowTimeLimit be) s = .next t ∧ ended t) ∧
      (2048 ≤ storeCount w → ∃ t, exec (.windowStoreLimit be) s = .next t ∧ ended t) ∧
      (storeCount w < 2048 → exec (.windowStoreLimit be) s = .next s)) ∧
  (
    ∀ (be : Fin 32) (s : State) (w : Window), s.regsWf = true → (s.dru be).win = some w → w.phase = .running → w.rep = none →
      w.upset ≠ 0 → s.obs.traced = none →
      let passes := s.mod = .primary ∧ s.bogie.pReady = true ∧ 3 ≤ w.oc.mismatches
      let differs (t : State) : Prop := (t.dru be).win = none ∧ (t.dru be).st = .selfTest ∧
        (t.rd R.brmMismatch).toNat = satAdd 32 (s.rd R.brmMismatch).toNat 1 ∧
        (¬ passes → t.mem = s.mem ∧ (∀ i, i ≠ be → t.dru i = s.dru i)) ∧
        (w.oc.mismatches < 3 → t.brm.restarts = s.brm.restarts ++ [(be.val / 8,
          { w.oc with mismatches := w.oc.mismatches + 1, barred := w.oc.barred ||| BitVec.ofNat 32 (2 ^ be.val) })]) ∧
        (3 ≤ w.oc.mismatches → t.fbit F.brmStatus_brambleFault = true) ∧
        (3 ≤ w.oc.mismatches → ¬ passes → t.brm.restarts = s.brm.restarts) ∧
        (passes → t.fbit F.pairStatus_claim = false)
      (∃ t, exec (.windowTimeLimit be) s = .next t ∧ differs t) ∧
      (2048 ≤ storeCount w → ∃ t, exec (.windowStoreLimit be) s = .next t ∧ differs t))

/-- `DRUPELET_SELFTEST_VERDICT` (R94): a failed core retires the drupelet with its verdict; a pass after an unretirement or
a trace makes it pending, as does a pass that leaves fewer than three transients in 86,400 s and no other clean mismatch
on the chain, which is counted; any other pass retires it as suspect; a verdict for a drupelet under no self-test changes
nothing. `BRM_UNRETIRE` (R103): with its key, in SERVICE, a retired drupelet goes to its self-test and its history is
cleared; any other write is ignored and counted. Cluster clocks (R22, R23, R25): gating and power-down of an idle cluster,
relock, a lost lock, which puts the chains of the cluster's running windows among the restart entries, and the return to
the pool. `AUDIT_REPLICA_COMPLETE` (R98 to R100): the signature at the end of the replica's last window ends the audit of
the execution and counts it where it matches; a first one that differs waits for a second replica; a second that matches
the record retires the first's drupelet, and one that confirms the first raises the alarm and sends the verdict of a
STANDBY to the PRIMARY. -/
def Obligations.DrupeletLifeAndAudit : Prop :=
  (
    ∀ (be : Fin 32) (v : TestVerdict) (s : State), s.regsWf = true →
      let d := s.dru be
      let others (t : State) : Prop := ∀ i, i ≠ be → t.dru i = s.dru i
      let ends24 := (recent s.time.tb3 d.transients).length
      let again := ∃ e ∈ d.cleanMism, e.1 = d.lastChain.toNat ∧ s.time.tb3 < e.2 + 86400
      (d.st ≠ .selfTest → exec (.drupeletSelftestVerdict be v) s = .next s) ∧
      (d.st = .selfTest → s.obs.traced = none → v ≠ .bothPass →
        ∃ t, exec (.drupeletSelftestVerdict be v) s = .next t ∧ (t.dru be).st = .retired ∧ (t.dru be).verdict = 2 ∧
          (t.dru be).verdictCore = decide (v = .checkerFails) ∧ t.fbit F.brmStatus_reserveUsed = true ∧
          (t.rd R.brmRetiredMask).getLsbD be.val = true ∧ (t.rd R.brmAvailMask).getLsbD be.val = false ∧
          t.mem = s.mem ∧ others t) ∧
      (d.st = .selfTest → d.unretire = true ∨ d.wasTraced = true → v = .bothPass →
        ∃ t, exec (.drupeletSelftestVerdict be v) s = .next t ∧ t.dru be = { d with st := .pending } ∧
          (t.rd R.brmSelftestMask).getLsbD be.val = true ∧ t = { s with brm := t.brm, regs := t.regs, recd := t.recd } ∧
          t.recd.raised.length = s.recd.raised.length + 1 ∧ others t) ∧
      (d.st = .selfTest → d.unretire = false → d.wasTraced = false → v = .bothPass → ends24 < 2 → ¬ again →
        ∃ t, exec (.drupeletSelftestVerdict be v) s = .next t ∧ (t.dru be).st = .pending ∧ (t.dru be).verdict = 1 ∧
          (t.rd R.brmTransients).toNat = satAdd 32 (s.rd R.brmTransients).toNat 1 ∧ t.mem = s.mem ∧ others t) ∧
      (d.st = .selfTest → d.unretire = false → d.wasTraced = false → v = .bothPass → s.obs.traced = none →
        (2 ≤ ends24 ∨ again) →
        ∃ t, exec (.drupeletSelftestVerdict be v) s = .next t ∧ (t.dru be).st = .retired ∧ (t.dru be).verdict = 3 ∧
          t.mem = s.mem ∧ others t)) ∧
  (
    ∀ (m : Master) (v : W32) (s : State), s.regsWf = true → s.writes m R.brmUnretire →
      let be := Fin.ofNat 32 (v.toNat % 32)
      let good := s.mod = .service ∧ v.toNat / 65536 = 0x7A11 ∧ (s.dru be).st = .retired
      ∃ t, exec (.brmUnretire m v) s = .next t ∧
        (good → t.dru be = { s.dru be with st := .selfTest, unretire := true, transients := [], cleanMism := [], lines := [] } ∧
          (∀ i, i ≠ be → t.dru i = s.dru i) ∧ t = { s with brm := t.brm, regs := t.regs } ∧ t.rd 0x2010 = s.rd 0x2010) ∧
        (¬ good → onlyRegs [0x2010] s t ∧ (t.rd 0x2010).toNat = satAdd 32 (s.rd 0x2010).toNat 1)) ∧
  (
    ∀ (c : Fin 4) (s : State), s.regsWf = true → s.obs.traced = none →
      let k := vget s.clk c.val
      let inC (i : Fin 32) : Prop := i.val / 8 = c.val
      let idle := ∀ i : Fin 32, inC i → (s.dru i).win = none ∧ (s.dru i).st ≠ .selfTest ∧ ∀ q ∈ (s.dru i).deques.toList, q = []
      let clock (k' : Cluster) (t : State) : Prop := t.clk = vset s.clk c.val k'
      (idle → ∃ t, exec (.clusterClockGate c) s = .next t ∧ clock { k with gated := true } t ∧ keepsRegs [R.wfStatus] s t ∧
        t = { s with regs := t.regs, clk := t.clk }) ∧
      (idle → k.pll = .locked → ∃ t, exec (.clusterPllPowerDown c) s = .next t ∧ clock { pll := .down, gated := true } t ∧
        (∀ i : Fin 32, inC i → (s.dru i).st = .active → (t.dru i).st = .clusterDown) ∧
        (∀ i : Fin 32, (¬ inC i ∨ (s.dru i).st ≠ .active) → t.dru i = s.dru i) ∧
        t = { s with clk := t.clk, brm := t.brm, regs := t.regs, obs := t.obs }) ∧
      (k.pll = .down → exec (.clusterPllRelockStart c) s = .next { s with clk := vset s.clk c.val { k with pll := .relocking } }) ∧
      (k.pll = .relocking → ∃ t, exec (.clusterPllLocked c) s = .next t ∧ clock { k with pll := .locked } t ∧
        (∀ i : Fin 32, inC i → (s.dru i).st = .clusterDown → (t.dru i).st = .active) ∧
        (∀ i : Fin 32, (¬ inC i ∨ (s.dru i).st ≠ .clusterDown) → t.dru i = s.dru i) ∧
        t = { s with clk := t.clk, brm := t.brm, regs := t.regs }) ∧
      (k.pll = .locked ∨ k.pll = .held ∨ k.pll = .lost →
        (∀ i : Fin 32, inC i → (s.dru i).win = none ∨ ∃ w, (s.dru i).win = some w ∧ w.rep = none ∧ w.phase = .running) →
        ∃ t, exec (.pllLossOfLock c) s = .next t ∧ clock { k with pll := .lost } t ∧ t.mem = s.mem ∧
        (∀ i : Fin 32, inC i → (s.dru i).st = .active → (t.dru i).st = .clusterDown ∧ (t.dru i).win = none) ∧
        (∀ (i : Fin 32) w, inC i → (s.dru i).win = some w → (c.val, w.oc) ∈ t.brm.restarts) ∧
        (∀ i : Fin 32, ¬ inC i → t.dru i = s.dru i)) ∧
      (k.pll = .lost → s.scanRuns = true →
        exec (.clusterReenter c) s = .next { s with clk := vset s.clk c.val { k with pll := .held } }) ∧
      (k.pll = .lost → s.scanRuns = false → ∃ t, exec (.clusterReenter c) s = .next t ∧ clock { k with pll := .locked } t ∧
        (∀ i : Fin 32, inC i → (s.dru i).st = .clusterDown → (t.dru i).st = .active) ∧ t.mem = s.mem)) ∧
  (
    ∀ (be : Fin 32) (s : State) (w : Window) (a : Audit), s.regsWf = true → s.olc.carry = none → (s.dru be).win = some w →
      w.audit = true → w.phase = .committing true → s.brm.audits.find? (fun b => b.place == .on be.val) = some a →
      let i : Instr := .auditReplicaComplete be
      let sig := w.core.sig
      let closed (t : State) : Prop := a ∉ t.brm.audits ∧ (t.rd R.brmAuditDone).toNat = satAdd 32 (s.rd R.brmAuditDone).toNat 1 ∧
        (∀ x ∈ t.brm.sigs, x.chain = a.snap.work.chain → x.cycle = a.snap.cycle → x.audited = true) ∧ t.mem = s.mem
      let left (t : State) : Prop := (t.dru be).win = none ∧ ∀ k, k ≠ be → t.dru k = s.dru k
      (a.first = none → sig = a.recorded → ∃ t, exec i s = .next t ∧ closed t ∧ left t ∧ t.rd R.brmAuditFail = s.rd R.brmAuditFail) ∧
      (a.first = none → sig ≠ a.recorded → ∃ t, exec i s = .next t ∧ left t ∧
        { a with first := some (sig, be.val), place := .waiting } ∈ t.brm.audits ∧ t.rd R.brmAuditDone = s.rd R.brmAuditDone ∧
        t.rd R.brmAuditFail = s.rd R.brmAuditFail ∧ t.mem = s.mem) ∧
      (∀ sig1 be1, a.first = some (sig1, be1) → sig ≠ a.recorded → sig = sig1 → s.mod = .standby →
        ∃ t, exec i s = .next t ∧ closed t ∧ left t ∧ (t.rd R.brmAuditFail).toNat = satAdd 32 (s.rd R.brmAuditFail).toNat 1 ∧
          t.fbit F.brmStatus_auditAlarm = true ∧ ∃ m ∈ t.pair.msgs, m.body = .auditVerdict a.snap.work.chain a.execMask) ∧
      (∀ sig1 be1, a.first = some (sig1, be1) → be1 < 32 → sig = a.recorded → s.obs.traced = none →
        ∃ t, exec i s = .next t ∧ closed t ∧ (t.rd R.brmAuditFail).toNat = satAdd 32 (s.rd R.brmAuditFail).toNat 1 ∧
          t.fbit F.brmStatus_auditAlarm = true ∧ (t.dru (Fin.ofNat 32 be1)).st = .retired) ∧
      (∀ sig1 be1, a.first = some (sig1, be1) → sig ≠ a.recorded → sig ≠ sig1 →
        ∃ t, exec i s = .next t ∧ closed t ∧ left t ∧ t.rd R.brmAuditFail = s.rd R.brmAuditFail))

/-! The setup window. -/

/-- A master's write to a setup register, aligned and of 32 bits, that the window is open to and the CAT grants. Each clause
says what the write to a register of one access type does (R6, R8, R10, R478, R479). RO without W1C bits: nothing changes. RWS with
its group pending, or a field out of range: ignored and counted. RWS otherwise: the shadow takes the value with its reserved bits
zero, the block shows a shadow pending, and no active value changes. RWL locked or out of range: ignored and counted. RWL otherwise:
the value is taken with reserved bits zero, a class period in STOPPED and a bit timing in a pair do not yet come into force, any
other does. RW without an effect of its own: the value is taken with reserved bits zero. Then what reaches no register (R5, R7, R30,
R443): a write of another shape, one that the CAT refuses, one to a hole or to the TC block changes only the counters and the
latch named; a write by a master that does not run changes nothing (R20, R35). -/
def Obligations.SetupWrites : Prop :=
  (
    ∀ (m : Master) (off : Nat) (v : W32) (s : State) (r : RegRow), s.regsWf = true → s.writes m off → off % 4 = 0 →
      off / 0x1000 ≠ 19 → regRow off = some r →
      let b := off / 0x1000
      let ign := b * 0x1000 + (if b = 0xF then 0x14 else 0x10)
      let ignored : Prop := ∃ t, exec (.setupWrite m off 4 v) s = .next t ∧ onlyRegs [ign] s t ∧
        (t.rd ign).toNat = satAdd 32 (s.rd ign).toNat 1
      let waits := (isPeriod off = true ∧ s.mod = .stopped) ∨ (isTiming off = true ∧ s.paired = true)
      (r.access = .ro → regW1C off = 0 → exec (.setupWrite m off 4 v) s = .next s) ∧
      (r.access = .rws → ((s.rd R.sysApplyPend).getLsbD b = true ∨ s.inRange off v = false) → ignored) ∧
      (r.access = .rws → (s.rd R.sysApplyPend).getLsbD b = false → s.inRange off v = true →
        ∃ t, exec (.setupWrite m off 4 v) s = .next t ∧ t.rd off = v &&& r.mask ∧
          (t.rd R.sysShadowPend).getLsbD b = true ∧ t.act = s.act ∧ onlyRegs [off, R.sysShadowPend] s t) ∧
      (r.access = .rwl → (s.locked off = true ∨ s.inRange off v = false) → ignored) ∧
      (r.access = .rwl → s.locked off = false → s.inRange off v = true →
        ∃ t, exec (.setupWrite m off 4 v) s = .next t ∧ t = { s with regs := t.regs, act := t.act } ∧
          t.rd off = v &&& r.mask ∧ keepsRegs [off] s t ∧ (∀ o, o ≠ off → t.actv o = s.actv o) ∧
          (waits → t.actv off = s.actv off) ∧
          ((isPeriod off = true ∨ isTiming off = true) → ¬ waits → t.actv off = v &&& r.mask)) ∧
      (r.access = .rw → isArr 0xF400 4 256 off = false → off ≠ R.hostRingEn → isArr 0xB050 0x40 2 off = false →
        isArr 0xB060 0x40 2 off = false →
        ∃ t, exec (.setupWrite m off 4 v) s = .next t ∧ t.rd off = v &&& r.mask ∧ onlyRegs [off] s t)) ∧
  (
    ∀ (m : Master) (off size : Nat) (v : W32) (s : State), s.regsWf = true →
      let counted (i : Instr) (c : Nat) : Prop := ∃ t, exec i s = .next t ∧ onlyRegs [c] s t ∧
        (t.rd c).toNat = satAdd 32 (s.rd c).toNat 1
      (s.masterRuns m = false → exec (.setupWrite m off size v) s = .next s) ∧
      (s.masterRuns m = true → (size ≠ 4 ∨ off % 4 ≠ 0) → off / 0x1000 ≠ 19 →
        ∃ t, exec (.setupWrite m off size v) s = .next t ∧ t.out = s.out ++ [.errorResponse m off] ∧
        (t.rd R.sysBadAccess).toNat = satAdd 32 (s.rd R.sysBadAccess).toNat 1 ∧
        keepsRegs [R.sysBadAccess, R.sysBadInfo] s t ∧ t = { s with regs := t.regs, out := t.out }) ∧
      (s.masterRuns m = true → (size ≠ 4 ∨ off % 4 ≠ 0) → off / 0x1000 = 19 →
        ∃ t, exec (.setupWrite m off size v) s = .next t ∧ t.out = s.out ++ [.errorResponse m off] ∧
        (t.rd R.tcIgnored).toNat = satAdd 32 (s.rd R.tcIgnored).toNat 1 ∧
        keepsRegs [R.tcIgnored] s t ∧ t = { s with regs := t.regs, out := t.out }) ∧
      (∀ cause, s.masterRuns m = true → s.barShut m off = false → off % 4 = 0 →
        s.catDecide (masterCls m) .write (0x10000000 + off) = some cause →
        ∃ t, exec (.setupWrite m off 4 v) s = .next t ∧
          (t.rd (R.catClmFaults (masterCls m))).toNat = satAdd 32 (s.rd (R.catClmFaults (masterCls m))).toNat 1 ∧
          keepsRegs [R.catClmFaults (masterCls m), R.catFaultLo, R.catFaultHi, R.catFaultInfo, R.catStatus] s t ∧
          t = { s with regs := t.regs, cat := t.cat, recd := t.recd }) ∧
      (s.writes m off → off % 4 = 0 → off / 0x1000 = 19 → counted (.setupWrite m off 4 v) R.tcIgnored) ∧
      (s.writes m off → off % 4 = 0 → off / 0x1000 ≠ 19 → regRow off = none →
        ∃ t, exec (.setupWrite m off 4 v) s = .next t ∧ onlyRegs [R.sysBadAccess, R.sysBadInfo] s t ∧
          (t.rd R.sysBadAccess).toNat = satAdd 32 (s.rd R.sysBadAccess).toNat 1) ∧
      (∀ tc : BitVec 12, s.writes m (0x13000 + tc.toNat) → counted (.tcWrite m tc) R.tcIgnored))

/-- W1C: a written 1 clears `DIO_STATUS.HOLD_SEEN`, a 0 leaves it, and a bit that hardware sets in the same clock ends set;
no other bit of the register and no other register changes (R8, R9). -/
def Obligations.WriteOneClears : Prop :=
  ∀ (m : Master) (v : W32) (hw : Bool) (s : State), s.regsWf = true → s.writes m R.dioStatus →
    ∃ t, exec (.w1cClear m v hw) s = .next t ∧ onlyRegs [R.dioStatus] s t ∧
      ∀ i, (t.rd R.dioStatus).getLsbD i =
        if i = 6 then hw || ((s.rd R.dioStatus).getLsbD 6 && !v.getLsbD 6) else (s.rd R.dioStatus).getLsbD i

/-- A read of an RO register that the window is open to and the CAT grants, outside what a cartridge serves: of a `_LO` register it
answers the value and latches the `_HI` half for that reader alone; of any other it answers what the reader latched, and without a
latch the present value; no register changes (R471). -/
def Obligations.PairedReads : Prop :=
  ∀ (m : Master) (off : Nat) (s : State) (r : RegRow), s.masterRuns m = true → s.barShut m off = false → off % 4 = 0 →
    regRow off = some r → r.access = .ro → (off < 0x13100 ∨ 0x14000 ≤ off) →
    s.catDecide (masterCls m) .read (0x10000000 + off) = none →
    let k := masterLatch m
    (isLo off = true → ∃ t, exec (.readLoLatch m off 4) s = .next t ∧ t.out = s.out ++ [.readData m off (s.rd off)] ∧
      t = { s with out := t.out, latch := t.latch } ∧
      t.latch.find? (fun e => e.1 == k && e.2.1 == off + 4) = some (k, off + 4, s.rd (off + 4)) ∧
      (∀ j o, (j ≠ k ∨ o ≠ off + 4) →
        t.latch.find? (fun e => e.1 == j && e.2.1 == o) = s.latch.find? (fun e => e.1 == j && e.2.1 == o))) ∧
    (isLo off = false → exec (.readLoLatch m off 4) s = .next (s.emit (.readData m off
      (match s.latch.find? (fun e => e.1 == k && e.2.1 == off) with | some e => e.2.2 | none => s.rd off))))

/-- `BLOCK_APPLY` (R10, R16, R477, R478) of every block that has the register but PWR: while the group is pending the write is
ignored and counted. Otherwise the group of a block that waits for a safe point becomes pending (an idle DMA channel then shows that it
waits for a plan, R344), no active value changes, and RING
keeps the exchange plan that comes with it while MC runs; the groups of MEM and REC are active at once, both pending bits clear.
`PLAN_ACTIVATION` (R14, R15, R36, R478): a pending group at its safe point, agreed where it is pair-wide, and not refused: every
active value of its block's RWS registers equals its shadow, no other active value changes but a bit timing of CAN, both pending bits
clear, and the generation of a block that keeps one is one higher. Short of that safe point or of the agreement, or with nothing
pending in a block other than CAN, nothing changes. -/
def Obligations.Plans : Prop :=
  let waiting : List (Fin 22) := [1, 2, 3, 4, 5, 6, 7, 8, 9, 10, 12, 13, 14, 17, 20]
  (
    ∀ (m : Master) (b : Fin 22) (plan : Option RingPlan) (s : State), s.regsWf = true → s.writes m (b.val * 0x1000 + 0xC) →
      (b ∈ waiting ++ [16, 18] → (s.rd R.sysApplyPend).getLsbD b.val = true → ∃ t, exec (.blockApply m b plan) s = .next t ∧
        onlyRegs [b.val * 0x1000 + 0x10] s t ∧
        (t.rd (b.val * 0x1000 + 0x10)).toNat = satAdd 32 (s.rd (b.val * 0x1000 + 0x10)).toNat 1) ∧
      (b ∈ waiting → (s.rd R.sysApplyPend).getLsbD b.val = false → ∃ t, exec (.blockApply m b plan) s = .next t ∧
        (t.rd R.sysApplyPend).getLsbD b.val = true ∧ (b ≠ 12 → keepsRegs [R.sysApplyPend] s t) ∧
        (b = 12 → t.fbit ⟨R.dmaStatus, 16, 1⟩ = true ∧
          keepsRegs (R.sysApplyPend :: R.dmaStatus :: (List.range 16).map R.dmaChnStatus) s t ∧
          ∀ ch : Fin 16, s.fget (F.dmaChnStatus_state ch) = 0 → t.fget (F.dmaChnStatus_state ch) = 3) ∧ t.act = s.act ∧
        t = { s with regs := t.regs, conf := t.conf } ∧ (b ≠ 9 → t.conf = s.conf) ∧
        (b = 9 → s.fbit F.sysStatus_mcRun = true → plan.isSome → t.conf.ring = plan)) ∧
      (b ∈ ([16, 18] : List (Fin 22)) → (s.rd R.sysApplyPend).getLsbD b.val = false → s.fbit F.sysStatus_mcFailed = false →
        ∃ t, exec (.blockApply m b plan) s = .next t ∧
          (∀ off, off / 0x1000 = b.val → isRws off = true → t.actv off = s.rd off) ∧
          (∀ off, (off / 0x1000 ≠ b.val ∨ isRws off = false) → t.actv off = s.actv off) ∧
          (t.rd R.sysApplyPend).getLsbD b.val = false ∧ (t.rd R.sysShadowPend).getLsbD b.val = false ∧ t.mem = s.mem)) ∧
  (
    ∀ (b : Fin 22) (s : State), s.regsWf = true →
      (b ∈ waiting → s.fbit F.sysStatus_mcFailed = false → (s.rd R.sysApplyPend).getLsbD b.val = true → s.safePoint b.val = true →
        s.agreedNow b.val = true → s.planRefused b.val = false →
        ∃ t, exec (.planActivation b) s = .next t ∧
          (∀ off, off / 0x1000 = b.val → isRws off = true → t.actv off = s.rd off) ∧
          (∀ off, (off / 0x1000 ≠ b.val ∨ isRws off = false) → (b = 10 → isTiming off = false) → t.actv off = s.actv off) ∧
          (t.rd R.sysApplyPend).getLsbD b.val = false ∧ (t.rd R.sysShadowPend).getLsbD b.val = false ∧
          (∀ o, planGenOf b.val = some o → t.rd o = s.rd o + 1)) ∧
      ((s.safePoint b.val = false ∨ s.agreedNow b.val = false ∨ (b ≠ 10 ∧ (s.rd R.sysApplyPend).getLsbD b.val = false)) →
        exec (.planActivation b) s = .next s))

/-- Each clearing command of the first list, written by a master that reaches its register (in the CAT by MC), sets the counters
named for it to 0 and changes no other register. Each of the second list clears the counters or fields named for it, or sets a lowest
value to the present one, and the other fields of those registers stand; `PAIR_CTRL` with another key is ignored and counted. -/
def Obligations.ClearingCommands : Prop :=
  (
    ∀ (m : Master) (s : State), s.regsWf = true →
      let clears (off : Nat) (i : Instr) (offs : List Nat) : Prop :=
        s.writes m off → ∃ t, exec i s = .next t ∧ onlyRegs offs s t ∧ ∀ o ∈ offs, t.rd o = 0
      clears R.scanCtrl (.scanClrMax m) ((List.range 3).map R.scanChnExecMax) ∧
      clears R.brmCtrl (.brmClrCnt m) [R.brmStealIn, R.brmStealX, R.brmRestarts, R.brmAuditDone] ∧
      clears R.rfxCtrl (.rfxClrCnt m) [R.rfxEvpasses, R.rfxAborts, R.rfxWaits] ∧
      clears R.rfxCtrl (.rfxClrMaxlat m) [R.rfxMaxlat] ∧
      clears R.pairCtrl (.pairClrCopyMax m 0x5A17) [R.pairCopyMax] ∧
      clears R.dioCtrl (.dioClrCnt m)
        (R.dioSupplyCnt :: (List.range 32).flatMap (fun n => [R.dioChnShorts n, R.dioChnRetries n])) ∧
      clears R.aoCtrl (.aoClrCnt m) ((List.range 8).map R.aoChnFaults) ∧
      clears R.acqCtrl (.acqClrCnt m) [R.acqLost, R.acqRateChg] ∧
      clears R.dmaCtrl (.dmaClrCnt m) ((List.range 16).map R.dmaChnFaults) ∧
      clears R.drayCtrl (.drayClrCnt m) ((List.range 4).flatMap (fun n => [R.drayChnStall n, R.drayChnDrop n])) ∧
      clears R.timeCtrl (.timeClrCnt m) ([R.timeSteps, R.timeMasterChg] ++
        (List.range 2).flatMap (fun p => [R.timePpSyncRx p, R.timePpAnnTo p, R.timePpDrop p])) ∧
      (m = .mc → clears R.catCtrl (.catClrCnt m) ((List.range 8).map R.catClmFaults)) ∧
      clears R.memCtrl (.memClrCnt m) ((List.range 8).flatMap (fun r => [R.memRgrCe r, R.memRgrUe r, R.memRgrHard r])) ∧
      clears R.wfCtrl (.wfClrCnt m) (R.wfSweepShort :: (List.range 13).map R.wfClcPreempt) ∧
      clears R.recCtrl (.recClrCnt m) [R.recOvf, R.recLost, R.recSuppressed, R.recFlushes] ∧
      clears R.obsCtrl (.obsClrCnt m) [R.obsReads, R.obsRefused, R.obsDrop] ∧
      clears R.sysCtrl (.sysClrCnt m) [R.sysBadAccess, R.sysIgnored, R.sysMcRestarts]) ∧
  (
    ∀ (m : Master) (s : State), s.regsWf = true →
      (s.writes m R.ringCtrl → ∃ t, exec (.ringClrCnt m) s = .next t ∧
        let offs := [R.ringLate, R.ringRxDrop, R.ringCopyDiff] ++ (List.range 4).map R.ringPpErr ++ (List.range 256).map R.ringStsMiss
          ++ (List.range 32).map R.ringPeerSjMiss
        onlyRegs (R.ringELast :: offs) s t ∧ (∀ o ∈ offs, t.rd o = 0) ∧ fieldSet ⟨R.ringELast, 16, 16⟩ 0 s t) ∧
      (s.writes m R.canCtrl → ∃ t, exec (.canClrCnt m) s = .next t ∧
        let offs := [R.canRxDrop, R.canIgnored] ++ (List.range 4).flatMap (fun n => [R.canChnTxok n, R.canChnRxok n, R.canChnErrs n,
          R.canChnAckerr n, R.canChnUnmatched n, R.canChnOverwrite n, R.canChnRxerr n])
        onlyRegs (offs ++ (List.range 4).map R.canChnColl) s t ∧ (∀ o ∈ offs, t.rd o = 0) ∧
        ∀ n, n < 4 → fieldSet (F.canChnColl_count n) 0 s t) ∧
      (s.writes m R.hostCtrl → ∃ t, exec (.hostClrCnt m) s = .next t ∧
        let offs := (List.range 2).flatMap (fun p => [R.hostPpEqLost p, R.hostPpCmds p])
        onlyRegs (offs ++ (List.range 16).map R.hostChnErr) s t ∧ (∀ o ∈ offs, t.rd o = 0) ∧
        ∀ n, n < 16 → fieldSet (F.hostChnErr_count n) 0 s t) ∧
      (m = .mc → s.writes m R.catCtrl → ∃ t, exec (.catClrFault m) s = .next t ∧ onlyRegs [R.catStatus, R.catFaultInfo] s t ∧
        fieldSet F.catStatus_fault 0 s t ∧ fieldSet F.catFaultInfo_valid 0 s t) ∧
      (s.writes m R.dioCtrl → ∃ t, exec (.dioClrMin m) s = .next t ∧ onlyRegs [R.dioLplus] s t ∧
        fieldSet ⟨R.dioLplus, 16, 16⟩ (s.fget ⟨R.dioLplus, 0, 16⟩) s t) ∧
      (s.writes m R.pwrCtrl → ∃ t, exec (.pwrClrCnt m) s = .next t ∧ onlyRegs [R.pwrPfCnt, R.pwrRestarts, R.pwrVin] s t ∧
        t.rd R.pwrPfCnt = 0 ∧ t.rd R.pwrRestarts = 0 ∧ t.fget ⟨R.pwrVin, 0, 16⟩ = s.power.vin % 65536 ∧
        t.fget ⟨R.pwrVin, 16, 16⟩ = s.power.vin % 65536) ∧
      (∀ key, key ≠ 0x5A17 → s.writes m R.pairCtrl → ∃ t, exec (.pairClrCopyMax m key) s = .next t ∧ onlyRegs [0x5010] s t ∧
        (t.rd 0x5010).toNat = satAdd 32 (s.rd 0x5010).toNat 1))

/-! Online change. -/

/-- `PACKAGE_CHECK_DONE` (R172, R173, R193): in CHECKING a package of which a check fails becomes REFUSED with the code and argument
of that check and memory unchanged; one that passes, no report of the partner being there, becomes CHECKED, and of memory only the
reflex region may change; in another state nothing happens. `PKG_CHECK_REPORT_RX` (R173) on a CHECKED package: a good result with an
equal digest sets `PAIR_READY`, any other refuses it with code 0x0D. `PKG_BLOCK_RX` (R171) on a STANDBY: a forwarded block of whole
words that follows the last, and that the CAT grants, is written to the inactive bank and shown in `OLC_LOADED`; no other byte
changes. Carry-over (R173, R177, R186, R378): with no uncorrectable word and every write granted it completes with every destination
written; with a write refused it is stuck and memory stands; at an uncorrectable word, or at its deadline, every destination gets its
saved bytes back, the undo is counted in `OLC_FALLBACKS`, and the package is CHECKED (code 0x20) or ARMED (code 0x21). -/
def Obligations.PackagesAndCarryOver : Prop :=
  (
    ∀ (plans : Option PlanSet) (s : State), s.regsWf = true →
      (s.fget F.olcStatus_pkgState ≠ 2 → exec (.packageCheckDone plans) s = .next s) ∧
      (∀ code arg, s.fget F.olcStatus_pkgState = 2 → s.pkgCheck plans = some (code, arg) →
        ∃ t, exec (.packageCheckDone plans) s = .next t ∧ t.fget F.olcStatus_pkgState = 4 ∧ t.fbit F.olcStatus_pairReady = false ∧
          t.rd R.olcRefuse = BitVec.ofNat 32 code ∧ t.rd R.olcRefuseArg = BitVec.ofNat 32 arg ∧ t.mem = s.mem ∧ t.olc = s.olc) ∧
      (s.fget F.olcStatus_pkgState = 2 → s.pkgCheck plans = none → s.olc.partnerPkg = none →
        ∃ t, exec (.packageCheckDone plans) s = .next t ∧ t.fget F.olcStatus_pkgState = 3 ∧ t.fbit F.olcStatus_pairReady = false ∧
          t.olc.plans = plans.getD {} ∧ t.bank = s.bank ∧ (∀ a, regionOf a ≠ some .reflex → t.mem.byte a = s.mem.byte a))) ∧
  (
    ∀ (id : Nat) (digest : BitVec 128) (ok : Bool) (s : State), s.regsWf = true → s.fresh id → s.fget F.olcStatus_pkgState = 3 →
      ((ok = true ∧ digest = s.bankDigest s.idle) → ∃ t, exec (.pkgCheckReportRx id digest ok) s = .next t ∧
        t.fget F.olcStatus_pkgState = 3 ∧ t.fbit F.olcStatus_pairReady = true ∧ keepsRegs [R.olcStatus] s t ∧
        t.pair.seen = id :: s.pair.seen ∧ t.mem = s.mem) ∧
      (¬ (ok = true ∧ digest = s.bankDigest s.idle) → ∃ t, exec (.pkgCheckReportRx id digest ok) s = .next t ∧
        t.fget F.olcStatus_pkgState = 4 ∧ t.fbit F.olcStatus_pairReady = false ∧ t.rd R.olcRefuse = 0x0D ∧
        keepsRegs [R.olcStatus, R.olcRefuse, R.olcRefuseArg, R.rfxStatus] s t ∧ t.pair.seen = id :: s.pair.seen ∧
        t.mem = s.mem)) ∧
  (
    ∀ (id off : Nat) (data : List Byte) (s : State), s.Inv → s.fresh id → s.mod = .standby →
      ((s.fget F.olcStatus_pkgState = 0 ∧ off = 0) ∨ (s.fget F.olcStatus_pkgState = 1 ∧ off = (s.rd R.olcLoaded).toNat)) →
      off % 8 = 0 → data.length % 8 = 0 → off + data.length ≤ 0x1000000 →
      (s.spanAccess clsDrawbar .write (s.idle + off) data.length).2 = true →
      ∃ t, exec (.pkgBlockRx id off data) s = .next t ∧ wrote (s.idle + off) data s t ∧
        t.rd R.olcLoaded = BitVec.ofNat 32 (off + data.length) ∧ t.bank = s.bank ∧
        (t.fget F.olcStatus_pkgState = 1 ∨ t.fget F.olcStatus_pkgState = 2) ∧
        keepsRegs [R.olcStatus, R.olcLoaded] s t ∧ t.pair.seen = id :: s.pair.seen) ∧
  (
    ∀ (c : Carry) (s : State), s.Inv → s.olc.carry = some c → c.done = false → s.fget F.olcStatus_pkgState = 6 →
      let undone (t : State) : Mem := c.saved.foldl (fun m e => m.putBytes e.1 e.2) t.mem
      let dests := c.writes.map (fun e => (e.1, e.2.length))
      (∀ u, c.stuck = false → s.carryBad = none → (s.mcSpans .write dests).2 = true →
        exec (.carryOverComplete u) s = .next { s with
          mem := c.writes.foldl (fun m e => m.write e.1 e.2) s.mem
          olc := { s.olc with carry := some { c with
            done := true, crc := c.writes.foldl (fun g e => sigBytes g e.2) (BitVec.allOnes 64) } } }) ∧
      (∀ u, c.stuck = false → s.carryBad = none → (s.mcSpans .write dests).2 = false →
        ∃ t, exec (.carryOverComplete u) s = .next t ∧ t.olc.carry = some { c with stuck := true } ∧ t.mem = s.mem) ∧
      (∀ a, c.stuck = false → s.carryBad = some a → ∃ t, exec (.carryOverComplete none) s = .next t ∧ t.olc.carry = none ∧
        t.fget F.olcStatus_pkgState = 3 ∧ t.rd R.olcRefuse = 0x20 ∧ t.mem.bytes = (undone s).bytes ∧
        (t.rd R.olcFallbacks).toNat = satAdd 32 (s.rd R.olcFallbacks).toNat 1) ∧
      (∃ t, exec (.carryOverDeadline none) s = .next t ∧ t.olc.carry = none ∧ t.fget F.olcStatus_pkgState = 5 ∧
        t.rd R.olcRefuse = 0x21 ∧ t.mem = undone s ∧ t.olc.outcome = some (0x21, 0) ∧
        keepsRegs [R.olcStatus, R.olcRefuse, R.olcRefuseArg, R.olcFallbacks] s t ∧
        (t.rd R.olcFallbacks).toNat = satAdd 32 (s.rd R.olcFallbacks).toNat 1))

/-- The keyed commands of `OLC_CMD` that reach the register (R173, R191): each is ignored and counted with a wrong key or in a state
not its own, a switch request also on a STANDBY, or with force conflicts not acknowledged. With the key: discard empties a CHECKED
or REFUSED package; a switch request on a PRIMARY or ALONE module whose scan runs arms a CHECKED one; cancel returns an ARMED one to
CHECKED with code 0x24. `SWITCH_WAIT_EXPIRY` returns an ARMED one to CHECKED with code 0x22 (R173). The commands of a ring that may be
executed (R171, R173, R189): a block that follows the last and that the CAT grants is written to the inactive bank; a switch arms a
CHECKED package while the scan runs outside SERVICE and no force conflicts; a cancel returns an ARMED one; a discard empties a CHECKED
or REFUSED one; each is sent on to a partner that is there. In another state the package's block refuses them (0x0103), a load of a
CHECKED package among them. -/
def Obligations.PackageCommands : Prop :=
  (
    ∀ (m : Master) (key : BitVec 16) (rel : Bool) (s : State), s.regsWf = true → s.writes m R.olcCmd →
      let st := s.fget F.olcStatus_pkgState
      let ignored (i : Instr) : Prop := ∃ t, exec i s = .next t ∧ onlyRegs [0x4010] s t ∧
        (t.rd 0x4010).toNat = satAdd 32 (s.rd 0x4010).toNat 1
      (key ≠ 0x0C4A → ignored (.olcDiscard m key) ∧ ignored (.olcSwitchRequest m rel key) ∧ ignored (.olcCancel m key)) ∧
      (st ≠ 3 → st ≠ 4 → ignored (.olcDiscard m key)) ∧ (st ≠ 3 → ignored (.olcSwitchRequest m rel key)) ∧
      (st ≠ 5 → ignored (.olcCancel m key)) ∧ (s.mod = .standby → ignored (.olcSwitchRequest m rel key)) ∧
      (s.rd R.olcConflicts ≠ 0 → rel = false → ignored (.olcSwitchRequest m rel key)) ∧
      (key = 0x0C4A → st = 3 ∨ st = 4 → ∃ t, exec (.olcDiscard m key) s = .next t ∧ t.fget F.olcStatus_pkgState = 0 ∧
        t.fbit F.olcStatus_pairReady = false ∧ t.bank = s.bank ∧ t.mem = s.mem ∧
        keepsRegs [R.olcStatus, R.rfxStatus, R.olcForces, R.olcConflicts] s t) ∧
      (key = 0x0C4A → st = 3 → (s.rd R.olcConflicts = 0 ∨ rel = true) → s.mod = .primary ∨ s.mod = .alone →
        s.scan.run = .running → ∃ t, exec (.olcSwitchRequest m rel key) s = .next t ∧ t.fget F.olcStatus_pkgState = 5 ∧
        t.bank = s.bank ∧ t.mem = s.mem ∧ keepsRegs [R.olcStatus] s t) ∧
      (key = 0x0C4A → st = 5 → ∃ t, exec (.olcCancel m key) s = .next t ∧ t.fget F.olcStatus_pkgState = 3 ∧
        t.rd R.olcRefuse = 0x24 ∧ t.bank = s.bank ∧ t.mem = s.mem ∧ keepsRegs [R.olcStatus, R.olcRefuse] s t)) ∧
  (
    ∀ s : State, s.regsWf = true →
      (s.fget F.olcStatus_pkgState = 5 → ∃ t, exec .switchWaitExpiry s = .next t ∧ t.fget F.olcStatus_pkgState = 3 ∧
        t.rd R.olcRefuse = 0x22 ∧ t.mem = s.mem ∧ keepsRegs [R.olcStatus, R.olcRefuse, R.olcRefuseArg] s t) ∧
      (s.fget F.olcStatus_pkgState ≠ 5 → exec .switchWaitExpiry s = .next s)) ∧
  (
    ∀ (n : Fin 16) (c : Cmd) (s : State), s.regsWf = true →
      let tells (u : State) (o : Out) : Prop := s.partner ≠ .off → ∃ m ∈ u.pair.msgs, m.body = o
      let go (op : Nat) : Prop := s.begins n op c ∧ s.accepts op c
      let refused (i : Instr) : Prop := ∃ r, exec i s = .next (s.cmdDone c.id 0x0103 r)
      let off := c.desc.arg0.toNat
      (go 0x09 → (s.pkgState = pkgChecked → refused (.pkgLoad n)) ∧
        (s.pkgState = pkgLoading → off = (s.rd R.olcLoaded).toNat → off + c.dataBytes.length ≤ 0x1000000 →
          (s.mcAccess .write (s.idle + off) c.dataBytes.length).2 = true → ∃ u : State,
          exec (.pkgLoad n) s = .next (u.cmdDone c.id 0 0) ∧ u.mem = s.mem.write (s.idle + off) c.dataBytes ∧
          (u.pkgState = pkgLoading ∨ u.pkgState = pkgChecking) ∧ u.rd R.olcLoaded = BitVec.ofNat 32 (off + c.dataBytes.length) ∧
          tells u (.pkgBlock off c.dataBytes))) ∧
      (go 0x0A → (s.pkgState ≠ pkgChecked → refused (.pkgSwitch n)) ∧
        (s.pkgState = pkgChecked → s.rd R.olcConflicts = 0 → s.scan.run = .running → s.mod ≠ .service → ∃ u : State,
          exec (.pkgSwitch n) s = .next (u.cmdDone c.id 0 0) ∧ u.pkgState = pkgArmed ∧ u.mem = s.mem ∧ ∃ a, tells u (.item 0x0A a []))) ∧
      (go 0x0B → (s.pkgState ≠ pkgArmed → refused (.pkgCancel n)) ∧
        (s.pkgState = pkgArmed → ∃ u : State, exec (.pkgCancel n) s = .next (u.cmdDone c.id 0 0) ∧ u.pkgState = pkgChecked ∧
          u.rd R.olcRefuse = 0x24 ∧ tells u (.item 0x0B [] []))) ∧
      (go 0x0C → (s.pkgState ≠ pkgChecked → s.pkgState ≠ pkgRefused → refused (.pkgDiscard n)) ∧
        ((s.pkgState = pkgChecked ∨ s.pkgState = pkgRefused) → ∃ u : State, exec (.pkgDiscard n) s = .next (u.cmdDone c.id 0 0) ∧
          u.pkgState = pkgEmpty ∧ u.mem = s.mem ∧ tells u (.item 0x0C [] []))))

/-! The scan. -/

/-- `F_BOUNDARY` (R41, R43, R61, R67) outside a takeover: on the module that runs the scan, with the previous cycle complete and
no hand-over, carry-over, audit verdict or change of service pending, the F-cycle counts on and its image is frozen; with the previous
cycle still open the boundary waits for it and the cycle does not count on; in STOPPED the boundaries are counted and the classes stand.
The error phase and the release of a period's chains (R41, R44, R54): with no waiting entry F chains are released at once; while error
tasks run, when the 10 % budget ends; N and S chains with their image, and each joins the open chains. `ERROR_EVENT_RAISED` (R51, R52):
outside STOPPED an event to which a task is bound joins the waiting entry of its code and source, is queued, or is refused by a full
queue and counted; in STOPPED, or without a task, it is recorded. -/
def Obligations.FCyclesAndErrorTasks : Prop :=
  (
    ∀ s : State, s.regsWf = true → s.pair.takeover = false → s.pair.takeoverEnd = none →
      let n := s.rd64 R.scanCycleLo + 1
      (s.scanRuns = true → s.scan.step = .idle → s.pair.handover = none → s.olc.carry = none → s.scan.service = none →
        s.brm.retireReq = [] →
        ∃ t, exec .fBoundary s = .next t ∧ t.scan.step = .freeze ∧ t.rd64 R.scanCycleLo = n ∧ t.scan.bound = s.scanTime ∧
          (t.clsRun 0).cycle = n ∧ (t.clsRun 0).running = true ∧ (t.clsRun 0).frozen = true ∧ (t.clsRun 0).complete = false ∧
          (t.clsRun 0).due = false ∧ t.scan.evSnap = t.scan.evq.length) ∧
      (s.scanRuns = true → s.scan.step ≠ .idle →
        ∃ t, exec .fBoundary s = .next t ∧
          t = { s with scan := t.scan, regs := t.regs, brm := t.brm, obs := t.obs, wf := t.wf } ∧ t.scan.bound = s.scanTime ∧
          t.clsRun 0 = { s.clsRun 0 with due := true } ∧ t.clsRun 1 = s.clsRun 1 ∧ t.clsRun 2 = s.clsRun 2 ∧
          t.scan.step = s.scan.step ∧ t.rd64 R.scanCycleLo = s.rd64 R.scanCycleLo) ∧
      (s.mod = .stopped → ∃ t, exec .fBoundary s = .next t ∧ t.rd64 R.scanCycleLo = n ∧
        t.scan = { s.scan with bound := s.scanTime } ∧ t.mem = s.mem)) ∧
  (
    ∀ s : State,
      (s.scan.step = .freeze → s.scan.evq = [] → s.scan.evqLost = 0 → ∃ t, exec .fImageComplete s = .next t ∧
        t.scan.step = .execute ∧ (t.clsRun 0).released = true ∧ t.brm.etasks = [] ∧ t.scan.taken = []) ∧
      (s.scan.step ≠ .freeze → exec .fImageComplete s = .next s) ∧
      (s.scan.step = .errors → ∃ t, exec .errorBudgetExpiry s = .next t ∧ t.scan.step = .execute ∧
        (t.clsRun 0).released = true ∧ t.mem = s.mem) ∧
      (s.scan.step ≠ .errors → exec .errorBudgetExpiry s = .next s) ∧
      (∀ k : Fin 2, s.scanRuns = true → (s.clsRun (k.val + 1)).running = true → (s.clsRun (k.val + 1)).frozen = true →
        (s.clsRun (k.val + 1)).released = false → ∃ t, exec (.nsImageComplete k) s = .next t ∧
          (t.clsRun (k.val + 1)).released = true ∧ (t.clsRun (k.val + 1)).frozen = false ∧ t.clsRun 0 = s.clsRun 0 ∧
          t.mem = s.mem ∧ (∀ d ∈ s.chains s.bank, d.cls = Cls.ofCode (k.val + 2) → d.chain ∈ t.brm.openChains))) ∧
  (
    ∀ (code : BitVec 16) (block : Fin 22) (unit : BitVec 8) (ps : Vector W64 4) (s : State), s.regsWf = true → s.up = true →
      let src := s.source block.val unit.toNat
      let same (e : ErrEntry) : Bool := e.code == code.toNat && e.source == src
      let i : Instr := .errorEventRaised code block unit ps
      (s.mod ≠ .stopped → s.bound code.toNat = true → s.scan.evq.any same = true →
        ∃ t, exec i s = .next t ∧ t = { s with scan := t.scan } ∧ t.scan = { s.scan with evq := t.scan.evq } ∧
          t.scan.evq = s.scan.evq.map (fun e => if same e then
            { e with count := e.count + 1, last := s.scanTime, params := ps.toList } else e)) ∧
      (s.mod ≠ .stopped → s.bound code.toNat = true → s.scan.evq.any same = false → s.scan.evq.length < 256 →
        ∃ t, exec i s = .next t ∧ t.scan.evq = s.scan.evq ++
            [{ code := code.toNat, source := src, count := 1, first := s.scanTime, last := s.scanTime, params := ps.toList }] ∧
          t.rd R.scanEvqDepth = BitVec.ofNat 32 (s.scan.evq.length + 1) ∧
          keepsRegs [R.scanEvqDepth, R.scanStatus] s t ∧ t = { s with regs := t.regs, scan := t.scan }) ∧
      (s.mod ≠ .stopped → s.bound code.toNat = true → s.scan.evq.any same = false → 256 ≤ s.scan.evq.length →
        ∃ t, exec i s = .next t ∧ t.scan = { s.scan with evqLost := s.scan.evqLost + 1 } ∧
          (t.rd R.scanEvqOvf).toNat = satAdd 32 (s.rd R.scanEvqOvf).toNat 1 ∧ keepsRegs [R.scanEvqOvf] s t ∧
          t = { s with regs := t.regs, scan := t.scan }) ∧
      ((s.mod = .stopped ∨ s.bound code.toNat = false) →
        ∃ t r, exec i s = .next t ∧ t = { s with recd := t.recd } ∧ t.recd.raised = s.recd.raised ++ [r] ∧
          r.params = BitVec.ofNat 64 code.toNat :: ps.toList))

/-- `CLASS_COMMIT` (R42, R45, R47, R90) in ALONE after the last chain and window commit, where no boundary and no switch waits, no
forces hold and no word is in error: every byte of the F output half becomes the committed copy, the output words are published,
memory and the drupelets do not change, and the F-cycle is complete and counted. `PERIOD_LATE` and `WATCHDOG_TRIP` (R61 to R63, R66)
on the module that runs the scan: a period not complete is counted late once and flagged for the next image; beyond its tolerance,
no carry-over being under way, it stops the scan: STOPPED, every open window discarded, the class and cycle latched, memory unchanged,
safe values published by the token holder, and the partner told by a PRIMARY. -/
def Obligations.CommitsAndTrips : Prop :=
  (
    ∀ s : State, s.Inv → s.scan.run = .running → s.mod = .alone → s.token = true → s.scan.step = .execute →
      (s.clsRun 0).complete = true → (s.clsRun 0).due = false → s.brm.etasks = [] → s.committing = false → s.olc.forces = [] →
      s.mem.poison = [] → s.mem.cpoison = [] → s.fget F.olcStatus_pkgState ≠ 5 →
      ∃ t, exec .classCommit s = .next t ∧
        (∀ a, s.outBase .f ≤ a → a < s.outBase .f + 0x80000 → sget (fun _ => 0) t.mem.committed a = s.mem.byte a) ∧
        t.mem.bytes = s.mem.bytes ∧
        Out.publish (BitVec.ofNat 32 (s.mem.rd (s.outBase .f + 0x7F000) 4))
          ((List.range 8).map (fun i => BitVec.ofNat 32 (s.mem.rd (s.outBase .f + 0x7F020 + 4 * i) 4))) ∈ t.out ∧
        t.scan.step = .idle ∧ (t.rd (R.scanChnCount 0)).toNat = satAdd 32 (s.rd (R.scanChnCount 0)).toNat 1 ∧
        (∀ i, t.dru i = s.dru i)) ∧
  (
    ∀ (k : Fin 3) (s : State), s.regsWf = true → s.scanRuns = true →
      (k = 0 → s.scan.step ≠ .idle) → (k ≠ 0 → s.periodOpen k.val = true) →
      ((s.clsRun k.val).late = false → ∃ t, exec (.periodLate k) s = .next t ∧
        (t.rd (R.scanChnLate k.val)).toNat = satAdd 32 (s.rd (R.scanChnLate k.val)).toNat 1 ∧
        t.clsRun k.val = { s.clsRun k.val with late := true, lateFlag := true } ∧ t.mem = s.mem ∧ t.brm = s.brm ∧
        (k = 0 → keepsRegs [R.scanChnLate 0] s t)) ∧
      ((s.clsRun k.val).late = true → exec (.periodLate k) s = .next s) ∧
      (s.olc.carry = none → ∃ t, exec (.watchdogTrip k) s = .next t ∧ t.mod = .stopped ∧ t.scan.run = .tripped ∧
        t.scan.step = .idle ∧ t.scan.evq = [] ∧ t.rd R.scanTrip = BitVec.ofNat 32 (k.val + 4) ∧
        t.rd R.scanTripCycle = s.rd R.scanCycleLo ∧ t.fget F.scanStatus_runstate = 2 ∧ t.fget F.scanStatus_mbxStale = 1 ∧
        (∀ i, (t.dru i).win = none ∧ (t.dru i).deques = Vector.replicate 4 []) ∧ t.brm.restarts = [] ∧ t.brm.openChains = [] ∧
        t.mem = s.mem ∧
        (s.token = true → Out.publish (maskOf s.safeD) ((List.range 8).map (fun i => BitVec.ofNat 32 (s.safeL i))) ∈ t.out) ∧
        (s.mod = .primary → s.partner ≠ .off → ∃ m ∈ t.pair.msgs, m.body = .tripNotice (Cls.ofCode (k.val + 1)))))

/-- Starting and restarting by a master that reaches the register (R67, R70, R72, R459): a start request is taken in CONFIG after a
check that passed, with the token held; a restart in STOPPED with the token held and the key; a start request in another state, or
without the token where the partner was not lost while SYNCING, and any other restart, is ignored and counted. The boundaries at which a
scan begins (R67, R459), with no carry-over, verdict or change of service pending: at a restart the cycle counts on, and at the start,
past the first second, it is 0; the scan runs, its first F image is frozen, and the module is in its role; without a request nothing
happens. -/
def Obligations.StartsAndRestarts : Prop :=
  (
    ∀ (m : Master) (v : W32) (s : State), s.regsWf = true →
      let ready := s.mod = .config ∧ s.fbit F.sysCfgStatus_done = true ∧ s.fbit F.sysCfgStatus_refused = false ∧
        s.scan.run = .notStarted
      let keyed := s.mod = .stopped ∧ s.token = true ∧ v.toNat % 65536 = 0x5CA7
      let ignored (i : Instr) : Prop := ∃ t, exec i s = .next t ∧ onlyRegs [0x1010] s t ∧
        (t.rd 0x1010).toNat = satAdd 32 (s.rd 0x1010).toNat 1
      (s.writes m R.scanCtrl →
        (ready → s.token = true → exec (.scanCtrlStart m) s = .next { s with scan := { s.scan with startReq := true } }) ∧
        (¬ ready → ignored (.scanCtrlStart m)) ∧
        (ready → s.token = false → s.pair.startReq223 = false → ignored (.scanCtrlStart m))) ∧
      (s.writes m R.scanRestart →
        (keyed → exec (.scanRestart m v) s = .next { s with scan := { s.scan with restartReq := some (v.getLsbD 16) } }) ∧
        (¬ keyed → ignored (.scanRestart m v)))) ∧
  (
    ∀ s : State, s.regsWf = true → s.token = true → s.scan.service = none → s.olc.carry = none → s.brm.retireReq = [] →
      (∀ cold, s.mod = .stopped → s.scan.restartReq = some cold → ∃ t, exec .restartBoundary s = .next t ∧
        t.scan.run = .running ∧ t.scan.step = .freeze ∧ t.scan.restartReq = none ∧
        t.mod = (if s.partner = .off then .alone else .primary) ∧ t.rd64 R.scanCycleLo = s.rd64 R.scanCycleLo + 1 ∧
        (t.clsRun 0).cycle = s.rd64 R.scanCycleLo + 1 ∧ (t.clsRun 0).running = true) ∧
      (s.scan.restartReq = none → exec .restartBoundary s = .next s) ∧
      (s.mod = .config → s.scan.startReq = true → s.fbit F.pwrStatus_firstSec = false → ∃ t,
        exec .scanStartBoundary s = .next t ∧ t.scan.run = .running ∧ t.scan.step = .freeze ∧ t.scan.startReq = false ∧
        t.mod = (if (s.fbit F.pairStatus_dbUp || s.fbit F.pairStatus_aliveUp) && !s.pair.startReq223 then .primary else .alone) ∧
        t.rd64 R.scanCycleLo = 0 ∧ (t.clsRun 0).cycle = 0 ∧ (t.clsRun 0).running = true) ∧
      (s.scan.startReq = false → exec .scanStartBoundary s = .next s))

/-! Time. -/

/-- Ship time. A snapshot (written by a master that reaches `TIME_CTRL`) captures the four bases together and changes no other register
(R370). `TIME_SET` (R366) with its key, while no port is SLAVE and with less than 10^9 in `TIME_SET_NS`, sets TB0 and counts the step;
with another key, or while a port is SLAVE, it is ignored and counted. The leap second changes the UTC offset as announced and clears
the announcement (R368). A qualified parent starts the servo of a TB0 in FREERUN or HOLDOVER (R363). The operating second adds 1 to
TB3, and with the chip out of reset, in HOLDOVER, to `TIME_HOLD_S`, and 20 ns to the error bound (R358, R363, R364); TB0, TB1, memory
and the drupelets stand. On an empty queue one clock of 4 ns passes (a choice of the model, log entries 23 and 60): TB1 goes on by 4 and
nothing but the time bases changes; without its rails, or with the oscillator gone or the timekeeper stopped, nothing changes. -/
def Obligations.TimeBases : Prop :=
  (
    ∀ (m : Master) (s : State), s.regsWf = true →
      (s.writes m R.timeCtrl → ∃ t, exec (.timeSnap m) s = .next t ∧ t.rd64 R.timeSnapTb0SecLo = s.time.tb0s ∧
        t.rd R.timeSnapTb0Ns = BitVec.ofNat 32 s.time.tb0n ∧ t.rd64 R.timeSnapTb1Lo = s.time.tb1 ∧ t.rd64 R.timeSnapTb2Lo = s.tb2 ∧
        t.rd64 R.timeSnapTb3Lo = BitVec.ofNat 64 (s.time.tb3 % 2 ^ 48 + s.time.pcc % 2 ^ 16 * 2 ^ 48) ∧
        onlyRegs [R.timeSnapTb0SecLo, R.timeSnapTb0SecLo + 4, R.timeSnapTb0Ns, R.timeSnapTb1Lo, R.timeSnapTb1Lo + 4,
          R.timeSnapTb2Lo, R.timeSnapTb2Lo + 4, R.timeSnapTb3Lo, R.timeSnapTb3Lo + 4] s t) ∧
      (∀ v : W32, s.writes m R.timeSet → v.toNat % 65536 = 0x71DE → s.fbit F.timeStatus_hasSlave = false → (s.rd R.timeSetNs).toNat < 1000000000 →
        ∃ t, exec (.timeSet m v) s = .next t ∧ t.time.tb0s = s.rd R.timeSetSecHi ++ s.rd R.timeSetSecLo ∧
          t.time.tb0n = (s.rd R.timeSetNs).toNat ∧ t.time = { s.time with tb0s := t.time.tb0s, tb0n := t.time.tb0n } ∧
          (t.rd R.timeSteps).toNat = satAdd 32 (s.rd R.timeSteps).toNat 1 ∧ keepsRegs [R.timeSteps] s t ∧
          t = { s with regs := t.regs, time := t.time, recd := t.recd }) ∧
      (∀ v : W32, s.writes m R.timeSet → (v.toNat % 65536 ≠ 0x71DE ∨ s.fbit F.timeStatus_hasSlave = true) →
        ∃ t, exec (.timeSet m v) s = .next t ∧ onlyRegs [0xE010] s t ∧ (t.rd 0xE010).toNat = satAdd 32 (s.rd 0xE010).toNat 1) ∧
      (∃ t, exec .leapSecond s = .next t ∧ onlyRegs [R.timeUtc] s t ∧ t.fbit F.timeUtc_leap61 = false ∧
        t.fbit F.timeUtc_leap59 = false ∧
        t.fget F.timeUtc_offset = (s.fget F.timeUtc_offset + (if s.fbit F.timeUtc_leap61 then 1
          else if s.fbit F.timeUtc_leap59 then 65535 else 0)) % 65536) ∧
      (s.time.parent.isSome → s.fget F.timeStatus_tb0State = 0 ∨ s.fget F.timeStatus_tb0State = 3 →
        ∃ t, exec .parentQualified s = .next t ∧ fieldSet F.timeStatus_tb0State 1 s t ∧ t.rd R.timeHoldS = 0 ∧
          keepsRegs [R.timeStatus, R.timeHoldS] s t ∧
          t = { s with regs := t.regs, time := { s.time with ovr := 0, good := 0 } }) ∧
      (s.power.aos = true → s.power.chip = false →
        exec .tb3Second s = .next { s with time := { s.time with tb3 := s.time.tb3 + 1 } }) ∧
      (s.power.aos = true → s.power.chip = true → ∃ t, exec .tb3Second s = .next t ∧ t.time.tb3 = s.time.tb3 + 1 ∧
        t.time.tb0s = s.time.tb0s ∧ t.time.tb0n = s.time.tb0n ∧ t.time.tb1 = s.time.tb1 ∧ t.mem = s.mem ∧ t.brm = s.brm ∧
        (s.fget F.timeStatus_tb0State = 3 → (t.rd R.timeHoldS).toNat = satAdd 32 (s.rd R.timeHoldS).toNat 1 ∧
          (t.rd R.timeTb0Err).toNat = satAdd 32 (s.rd R.timeTb0Err).toNat 20) ∧
        (s.fget F.timeStatus_tb0State ≠ 3 → t.rd R.timeHoldS = s.rd R.timeHoldS ∧ t.rd R.timeTb0Err = s.rd R.timeTb0Err))) ∧
  (
    ∀ s : State, s.pending = [] → step s = .next s.tick ∧
      ((s.power.rails = false ∨ s.time.stopped = true ∨ s.power.ocxo = false) → step s = .next s) ∧
      (s.power.rails = true → s.time.stopped = false → s.power.ocxo = true → ∃ t, step s = .next t ∧
        t.time.tb1 = s.time.tb1 + 4 ∧ t = { s with time := t.time }))

/-- The servo (R361, R362), on a port that runs PTP, after the first second, for a Sync of the parent whose interval is within range: the
offset is shown, the Sync counted, and outside ACQUIRING and LOCKED nothing else of the time bases changes; an offset beyond the step
limit that is at least the third in a row steps TB0 by it, and any other leaves TB0 as it is; in ACQUIRING an offset within 1 µs after
15 such locks TB0, and any other does not. A SLAVE stamps the Delay_Req it sends; the parent's answer gives the mean path delay. The
ports (R359, R360, R363): an Announce of another domain is not used; where a port has no foreign master the first of its domain is
taken, and, where it becomes the parent, its UTC offset; three intervals without one drop the port's master. A parent lost, with no
other foreign master, leaves no parent, a LOCKED TB0 in HOLDOVER, and an ACQUIRING TB0 that was never LOCKED in FREERUN. A MASTER sends
its Sync with the Follow_Up, or its Announce (its own clock where it has no parent), and answers a Delay_Req with its corrected receive
stamp. From t0 + 2 s on ports may be MASTER. -/
def Obligations.PtpServoAndPorts : Prop :=
  (
    ∀ (p : Fin 2) (src : W64) (port : Nat) (fast : Bool) (s : State) (a : Announce), s.regsWf = true →
      s.fget (F.timePpStatus_pstate p.val) ≠ 0 → s.fbit F.pwrStatus_firstSec = false → s.time.parent = some (p.val, a) →
      a.src = src → a.port = port →
      (∀ logInt origin corr : Int, -4 ≤ logInt → logInt ≤ 1 →
        let t21 := s.tb0 - ingress fast - origin - corr
        let off := t21 - (s.rd R.timePathDelay).toNat
        let st := s.fget F.timeStatus_tb0State
        let big := off.natAbs > s.aget F.timeServoCfg_stepMs * 1000000
        ∃ t, exec (.ptpSyncRx p src port logInt origin corr fast) s = .next t ∧ t.time.t21 = some t21 ∧
          t.rd R.timeOffset = sat32 off ∧ t.time.tb1 = s.time.tb1 ∧ t.mem = s.mem ∧
          (t.rd (R.timePpSyncRx p.val)).toNat = satAdd 32 (s.rd (R.timePpSyncRx p.val)).toNat 1 ∧
          (st ≠ 1 → st ≠ 2 → t.time = { s.time with t21 := some t21 }) ∧
          (st = 1 ∨ st = 2 → big → 2 ≤ s.time.ovr → 0 ≤ s.tb0 - off → t.time.ovr = 0 ∧
            t.time.tb0s = BitVec.ofNat 64 ((s.tb0 - off).toNat / 1000000000) ∧ t.time.tb0n = (s.tb0 - off).toNat % 1000000000 ∧
            (t.rd R.timeSteps).toNat = satAdd 32 (s.rd R.timeSteps).toNat 1) ∧
          (¬ big ∨ s.time.ovr < 2 → t.time.tb0s = s.time.tb0s ∧ t.time.tb0n = s.time.tb0n ∧ t.rd R.timeSteps = s.rd R.timeSteps) ∧
          (st = 1 → off.natAbs ≤ 1000 → 15 ≤ s.time.good → t.fget F.timeStatus_tb0State = 2 ∧ t.rd R.timeTb0Err = 100 ∧
            t.time.everLocked = true) ∧
          (st = 1 → (1000 < off.natAbs ∨ s.time.good < 15) → t.fget F.timeStatus_tb0State = 1)) ∧
      (s.fget (F.timePpStatus_pstate p.val) = 9 → ∃ t, exec (.delayReqSend p) s = .next t ∧
        t.time = { s.time with t3 := some (s.tb0 + (s.rd (R.timePpTxCorr p.val)).toNat) } ∧
        t.out = s.out ++ [.ptp p.val a.udp .delayReq] ∧ t = { s with time := t.time, out := t.out }) ∧
      (∀ recv corr x y : Int, s.time.t21 = some x → s.time.t3 = some y →
        ∃ t, exec (.ptpDelayRespRx p src port recv corr fast) s = .next t ∧
          t.rd R.timePathDelay = BitVec.ofNat 32 ((x + (recv - corr - y)) / 2).toNat ∧ t.time = { s.time with t3 := none } ∧
          keepsRegs [R.timePathDelay, R.timePpStatus p.val, R.timePpRxCorr p.val, R.timePpTxCorr p.val] s t)) ∧
  (
    ∀ (p : Fin 2) (fast : Bool) (s : State), s.regsWf = true →
      (s.fget (F.timePpStatus_pstate p.val) ≠ 0 → s.fbit F.pwrStatus_firstSec = false → ∀ a : Announce,
        (a.domain ≠ s.aget F.timePtpCfg_domain → ∃ t, exec (.ptpAnnounceRx p a fast) s = .next t ∧
          onlyRegs [R.timePpStatus p.val, R.timePpRxCorr p.val, R.timePpTxCorr p.val] s t) ∧
        (a.domain = s.aget F.timePtpCfg_domain → (vget s.time.ptp p.val).best = none → ∃ t,
          exec (.ptpAnnounceRx p a fast) s = .next t ∧ (vget t.time.ptp p.val).best = some a ∧
          (vget t.time.ptp p.val).timedOut = false ∧ t.mem = s.mem ∧
          (t.time.parent = some (p.val, a) → t.fget F.timeUtc_offset = a.utc.toNat ∧ t.fbit F.timeUtc_fromPtp = true))) ∧
      (s.fget (F.timePpStatus_pstate p.val) ≠ 0 → ∃ t, exec (.announceTimeout p) s = .next t ∧
        (t.rd (R.timePpAnnTo p.val)).toNat = satAdd 32 (s.rd (R.timePpAnnTo p.val)).toNat 1 ∧
        vget t.time.ptp p.val = { best := none, timedOut := true }) ∧
      (∀ a, s.time.parent = some (p.val, a) → (∀ q : Fin 2, q ≠ p → (vget s.time.ptp q.val).best = none) →
        ∃ t, exec .syncLoss s = .next t ∧ t.time.parent = none ∧ (vget t.time.ptp p.val).best = none ∧
          (t.rd R.timeMasterChg).toNat = satAdd 32 (s.rd R.timeMasterChg).toNat 1 ∧ t.rd64 R.timeParentLo = 0 ∧
          t.fbit F.timeStatus_hasSlave = false ∧
          (s.fget F.timeStatus_tb0State = 2 → t.fget F.timeStatus_tb0State = 3 ∧ t.rd R.timeHoldS = 0) ∧
          (s.fget F.timeStatus_tb0State = 1 → s.time.everLocked = false → t.fget F.timeStatus_tb0State = 0)) ∧
      (s.time.parent = none → exec .syncLoss s = .next s) ∧
      (s.power.chip = true → ∃ t, exec .ptpMasterEnable s = .next t ∧ t.power = { s.power with ptpMaster := true } ∧ t.mem = s.mem) ∧
      (s.fget (F.timePpStatus_pstate p.val) = 6 →
        exec (.masterSyncSend p false) s = .next { s with out := s.out ++ [.ptp p.val false .sync,
          .ptp p.val false (.followUp (s.tb0 + (s.rd (R.timePpTxCorr p.val)).toNat))] } ∧
        (∃ b, exec (.masterSyncSend p true) s = .next { s with out := s.out ++ [.ptp p.val false (.announce b)] } ∧
          b.domain = s.aget F.timePtpCfg_domain ∧ (s.time.parent = none → b.cls = 248 ∧ b.acc = 0xFE ∧ b.var = 0xFFFF)) ∧
        (s.fbit F.pwrStatus_firstSec = false → ∀ src port udp, ∃ t, exec (.delayReqRx p src port udp fast) s = .next t ∧
          t.out = s.out ++ [.ptp p.val udp (.delayResp (s.tb0 - ingress fast) src port)] ∧ t.time = s.time)))

/-! The Tally Cart bay. -/

/-- The cartridge, each event on a powered one, and each changing nothing outside the Tally Cart block. Metering (R424 to R428): a
computation adds each enabled feeder's primary power over 125 µs to one active and one reactive register and loses nothing (28,800,000
mW for 125 µs are 1 mWh); a pulse on an input with a width adds its weight to that register alone; one without a width, or while
metering rests, does nothing. A snapshot begins with an even `TC_SNAP_SEQ`, which turns odd, and ends with an odd one, showing the serial
number and the registers, and the averages start anew; out of turn neither does anything. Supply loss stops the metering and clears
`LINK`; the time line's timeout makes the time invalid; the wait at a fit ends with metering on and, where a fit record is due and the
time is not valid, that record stamped with no operating time (R438, R439). -/
def Obligations.CartridgeMetering : Prop :=
  ∀ (s : State) (c : Cartridge), s.regsWf = true → s.bay.cart = some c →
    let inside (t : State) (d : Cartridge) : Prop := t.bay = { s.bay with cart := some d } ∧
      t = { s with regs := t.regs, bay := t.bay, recd := t.recd } ∧ ∀ off, (off < 0x13000 ∨ 0x14000 ≤ off) → t.rd off = s.rd off
    (∀ (p q : Vector Int 4) (ma : Vector Nat 4) (bad : Bool) (temp : Int), c.powered = true → c.metering = true →
      ∃ t d, exec (.meteringCompute p q ma bad temp) s = .next t ∧ inside t d ∧
        d = { c with energy := d.energy, rest := d.rest, sumP := d.sumP, sumQ := d.sumQ, sumN := c.sumN + 1, beyond := d.beyond,
                     below := d.below, temp := temp, outRange := bad || decide (temp < -250) || decide (700 < temp) } ∧
        ∀ (f k : Fin 4),
          let i := 4 * f.val + k.val
          let pp := primary c f.val (vget p f.val)
          let qq := primary c f.val (vget q f.val)
          let more : Nat := if feederOn c f.val = false then 0
            else if k.val = (if 0 ≤ pp then 0 else 1) then pp.natAbs
            else if k.val = (if 0 ≤ qq then 2 else 3) then qq.natAbs else 0
          vget d.energy i * 28800000 + vget d.rest i = vget c.energy i * 28800000 + vget c.rest i + more) ∧
    (∀ (k : Fin 8) (fast : Bool), c.powered = true → c.metering = true → (vget c.pars (0x28 + k.val)).toNat ≠ 0 →
      ∃ t d, exec (.meteringPulse k fast) s = .next t ∧ inside t d ∧
        d = { c with flow := d.flow, flowNow := d.flowNow, overspeed := d.overspeed } ∧
        ∀ j : Fin 8, vget d.flow j.val = vget c.flow j.val + (if j = k then (vget c.pars (0x20 + k.val)).toNat % 2 ^ 24 else 0)) ∧
    (∀ (k : Fin 8) (fast : Bool), (c.metering = false ∨ (vget c.pars (0x28 + k.val)).toNat = 0) →
      exec (.meteringPulse k fast) s = .next s) ∧
    (c.powered = true → c.seq.toNat % 2 = 0 → exec (.tcSnapshot false) s = .next s ∧
      ∃ t, exec (.tcSnapshot true) s = .next t ∧ inside t { c with seq := c.seq + 1 } ∧ t.rd R.tcSnapSeq = c.seq + 1) ∧
    (c.powered = true → c.seq.toNat % 2 = 1 → exec (.tcSnapshot true) s = .next s ∧
      ∃ t d, exec (.tcSnapshot false) s = .next t ∧ inside t d ∧ t.rd R.tcSnapSeq = c.seq + 1 ∧ d.energy = c.energy ∧
        d.flow = c.flow ∧ d.sumN = 0 ∧ t.rd64 R.tcSerialLo = c.serial ∧
        (∀ (f k : Fin 4), t.rd64 (R.tcFfEpImpLo f.val + 8 * k.val) = BitVec.ofNat 64 (vget c.energy (4 * f.val + k.val) / 1000)) ∧
        (∀ j : Fin 8, t.rd64 (R.tcFlkTotalLo j.val) = BitVec.ofNat 64 (vget c.flow j.val))) ∧
    (c.powered = true → ∃ t, exec .cartridgeSupplyLoss s = .next t ∧ t.fbit F.tcBay_link = false ∧
      t.bay.cart = some { c with powered := false, metering := false, waiting := false, timeOk := false, led := none, lossDue := true,
                                 leaveDue := c.leaveDue || c.verif, verif := false } ∧
      t = { s with regs := t.regs, bay := t.bay } ∧ keepsRegs [R.tcBay] s t) ∧
    (c.powered = true → c.timeOk = true → ∃ t, exec .timeLineTimeout s = .next t ∧ inside t { c with timeOk := false }) ∧
    (c.powered = true → c.waiting = true → ∃ t d, exec .fitTimeLineWaitExpiry s = .next t ∧ inside t d ∧
      d = { c with waiting := false, fitDue := false, metering := true, log := d.log } ∧
      (c.fitDue = true → c.timeOk = false → c.log.length < 4096 →
        ∃ r, d.log = c.log ++ [r] ∧ r.code = 5 ∧ r.ops = 2 ^ 48 - 1) ∧
      (c.fitDue = false → d.log = c.log))

/-- Audit and fitting (R429 to R442) with a powered cartridge. Verification mode is entered with a record where the log has room for it
(under 4,031 records), else not; it is left with a record. `ID`, `PR` and `LR` answer their words and change nothing else; `PW` in
verification mode, with room in the log and a value in range, sets the parameter and records it, else nothing; `LED` in verification
mode selects. The open latch stops the metering, is recorded in the log, or in the gap count where the log is full, and in the event
recorder. Closing the latch, with good checks, powers the cartridge, which waits for the time line; removal empties the bay, shows its
block at the reset values and is recorded. Fitting a cartridge that owes no record brings it up in the same way, and one whose check
fails stands in fault with a record. A legal page is shown as 60 bytes while a cartridge is in the bay. -/
def Obligations.CartridgeAudit : Prop :=
  ∀ (s : State), s.regsWf = true →
    (∀ c : Cartridge, s.bay.cart = some c → c.powered = true →
      let inside (t : State) (d : Cartridge) : Prop := t.bay = { s.bay with cart := some d } ∧
        t = { s with regs := t.regs, bay := t.bay, recd := t.recd } ∧ ∀ off, (off < 0x13000 ∨ 0x14000 ≤ off) → t.rd off = s.rd off
      (c.verif = false → c.log.length < 4031 → ∃ t r, exec .verificationEnter s = .next t ∧
        inside t { c with verif := true, log := c.log ++ [r] } ∧ r.code = 1) ∧
      ((c.verif = true ∨ 4031 ≤ c.log.length) → exec .verificationEnter s = .next s) ∧
      (c.verif = true → c.log.length ≤ 4031 → ∃ t r, exec .verificationLeave s = .next t ∧
        inside t { c with verif := false, led := none, log := c.log ++ [r] } ∧ r.code = 2) ∧
      exec .idCmd s = .next { s with out := s.out ++ [.verif [c.serial, c.version.setWidth 64, c.checkCode.setWidth 64]] } ∧
      (∀ i : Fin 64, exec (.prCmd i) s = .next { s with out := s.out ++ [.verif [(vget c.pars i.val).setWidth 64]] }) ∧
      (∀ (i : Fin 64) (v : W32), c.verif = true → c.log.length < 4031 → parOk i.val v = true →
        ∃ t r, exec (.pwCmd i v) s = .next t ∧ inside t { c with pars := vset c.pars i.val v, log := c.log ++ [r] } ∧
          r.code = 3 ∧ r.arg = i.val ∧ r.val = v) ∧
      (∀ (i : Fin 64) (v : W32), (c.verif = false ∨ 4031 ≤ c.log.length ∨ parOk i.val v = false) → exec (.pwCmd i v) s = .next s) ∧
      (∀ f : BitVec 4, c.verif = true → f.toNat < 4 ∨ f.toNat = 9 → ∃ t, exec (.ledCmd f) s = .next t ∧
        inside t { c with led := if f.toNat = 9 then none else some f.toNat }) ∧
      (∀ (n : BitVec 12) (r : AuditRec), c.log[n.toNat]? = some r → exec (.lrCmd n) s = .next { s with out := s.out ++
        [.verif [BitVec.ofNat 64 r.ops, BitVec.ofNat 64 r.pcc, BitVec.ofNat 64 r.code, BitVec.ofNat 64 r.arg, r.val.setWidth 64]] }) ∧
      (s.fbit F.tcBay_latchOpen = false → ∃ t d, exec .latchWarning s = .next t ∧ inside t d ∧ t.fbit F.tcBay_latchOpen = true ∧
        d = { c with metering := false, waiting := false, log := d.log, gapLog := d.gapLog } ∧
        (c.log.length < 4096 → ∃ r, d.log = c.log ++ [r] ∧ r.code = 4) ∧
        (4096 ≤ c.log.length → d.log = c.log ∧ d.gapLog = satAdd 16 c.gapLog 1) ∧
        ∃ r ∈ t.recd.raised, r.priv = true)) ∧
    (∀ c : Cartridge, s.bay.cart = some c → s.fbit F.tcBay_latchOpen = true →
      (∃ t d, exec (.latchClose true true) s = .next t ∧ t.bay.cart = some d ∧ d.powered = true ∧ d.metering = false ∧
        d.waiting = true ∧ d.fitDue = true ∧ t.fbit F.tcBay_latchOpen = false ∧
        (t.rd R.tcFits).toNat = satAdd 32 (s.rd R.tcFits).toNat 1 ∧ t.mem = s.mem) ∧
      (∃ t, exec .cartridgeRemoved s = .next t ∧ t.bay = { s.bay with cart := none } ∧ t.fbit F.tcBay_present = false ∧
        t.fbit F.tcBay_link = false ∧ (∀ off, 0x13100 ≤ off → off < 0x14000 → t.rd off = regReset off) ∧
        (∀ off, (off < 0x13100 ∨ 0x14000 ≤ off) → off ≠ R.tcBay → t.rd off = s.rd off) ∧
        ∃ r, t.recd.raised = s.recd.raised ++ [r] ∧ r.priv = true)) ∧
    (∀ c : Cartridge, s.bay.cart = none → c.leaveDue = false → c.lossDue = false → c.log.length < 4096 →
      (∃ t, exec (.cartridgeFit (some c) true true) s = .next t ∧
        t.bay.cart = some { c with powered := true, metering := false, timeOk := false, fitDue := true, waiting := true, fault := false } ∧
        t.fbit F.tcBay_present = true ∧ t.fbit F.tcBay_link = true ∧ t.rd64 R.tcSerialLo = c.serial ∧
        (t.rd R.tcFits).toNat = satAdd 32 (s.rd R.tcFits).toNat 1 ∧ t.mem = s.mem) ∧
      (∃ t d, exec (.cartridgeFit (some c) false true) s = .next t ∧ t.bay.cart = some d ∧ d.fault = true ∧ d.waiting = false ∧
        d.metering = false ∧ ∃ r, d.log = c.log ++ [r] ∧ r.code = 6)) ∧
    (∀ q : Fin 8, s.bay.cart.isSome → ∃ b : List Byte, b.length = 60 ∧
      exec (.legalPageDisplay (some q)) s = .next { s with out := s.out ++ [.display b] })

/-! Power. -/

/-- From the supply's rise to the end of the first second (R453 to R461). From 4.3 V the AOS starts in the slot of its strap, in BOOT. From
4.5 V the core rails bring every register that no store keeps to its reset value, TB0 and TB1 to 0, and no SRAM word is readable. The
chip leaves reset with MC running and the first second begun: with no good firmware, or no good program, in either half it stays in BOOT
with memory as it was; with both it clears the SRAM, puts the CAT's entries into force, retires the drupelets found failed and enters
CONFIG. The configuration check answers in `SYS_CFG_STATUS`, and with `AUTOSTART` and no refusal asks for the scan start. The hold-up
bank at 14 V sets `HOLDUP_READY`; the doorbells, CAN transmission (a RESTRICTED port of the token's PRIMARY or ALONE holder turns ACTIVE)
and the rates of the first second are released. -/
def Obligations.PowerUpAndBoot : Prop :=
  ∀ s : State, s.regsWf = true →
    (∀ (mv : BitVec 16) (slot : Slot), s.power.aos = false → 4300 ≤ mv.toNat → ∃ t, exec (.supplyRise mv slot) s = .next t ∧
      t.mod = .boot ∧ t.fbit F.pairStatus_slot = (slot == .b) ∧ keepsRegs [R.pairStatus] s t ∧
      t = { s with regs := t.regs, power := { s.power with aos := true, vin := mv.toNat },
                   time := { s.time with pcc := min 65535 (s.time.pcc + 1) } }) ∧
    (∀ mv : BitVec 16, s.power.aos = true → s.power.rails = false → 4500 ≤ mv.toNat → (∀ e ∈ s.mem.past, isDram (e.1 * 8) = true) →
      ∃ t, exec (.coreRailsGood mv) s = .next t ∧ t.power.rails = true ∧ t.power.ocxo = true ∧ t.power.chip = false ∧ t.mod = .boot ∧
        t.time.tb1 = 0 ∧ t.time.tb0s = 0 ∧ t.time.tb0n = 0 ∧ t.time.tb3 = s.time.tb3 ∧ t.rd R.sysResetCause = 1 ∧
        (∀ a, isSram a = true → t.mem.bad (a / 8) = true) ∧
        (∀ off, off ∉ [R.pairStatus, R.memFuse, R.sysResetCause, R.pwrVin, R.pwrStatus] →
          t.rd off = if keptStore off = true then s.rd off else regReset off)) ∧
    (∀ f : BootFind, s.power.aos = true → s.power.rails = true → s.power.ocxo = true → s.power.chip = false →
      s.power.waitSupply = false → s.obs.traced = none → ∃ t, exec (.chipResetRelease f) s = .next t ∧ t.power.chip = true ∧
        t.fbit F.sysStatus_mcRun = true ∧ t.fbit F.pwrStatus_firstSec = true ∧
        ((f.fwA = false ∧ f.fwB = false) ∨ (f.progA = false ∧ f.progB = false) → t.mod = .boot ∧ t.mem = s.mem) ∧
        ((f.fwA = true ∨ f.fwB = true) → (f.progA = true ∨ f.progB = true) → t.mod = .config ∧ t.mem.cleared = true ∧
          t.cat.eff = t.cat.committed ∧ (∀ i : Fin 32, f.leadFails.getLsbD i.val = true → (t.dru i).st = .retired))) ∧
    (s.mod = .config → s.fbit F.pwrStatus_cfgDone = false → ∃ t, exec .configCheckDone s = .next t ∧ t.mod = .config ∧
      t.fbit F.pwrStatus_cfgDone = true ∧ t.fbit F.sysCfgStatus_done = true ∧ t.mem = s.mem ∧
      t.fbit F.sysStatus_cfgRefused = t.fbit F.sysCfgStatus_refused ∧
      t.scan.startReq = (t.abit F.pwrCfg_autostart && !t.fbit F.sysCfgStatus_refused)) ∧
    (∀ mv : BitVec 16, s.power.rails = true → 14000 ≤ mv.toNat → ∃ t, exec (.holdupReady mv) s = .next t ∧
      t.fbit F.pwrStatus_holdupReady = true ∧ t.rd R.pwrVbank = mv.setWidth 32 ∧ keepsRegs [R.pwrVbank, R.pwrStatus] s t ∧
      t = { s with regs := t.regs, power := { s.power with bank := mv.toNat } }) ∧
    (s.power.chip = true → exec .doorbellRelease s = .next { s with power := { s.power with doorbells := true } }) ∧
    (s.power.chip = true → ∃ t, exec .canFirstSecondRelease s = .next t ∧ t.power = { s.power with can := true } ∧
      (∀ n : Fin 4, s.token = true → s.pair.takeover = false → s.mod = .primary ∨ s.mod = .alone → s.canState n.val = 2 → t.canState n.val = 3) ∧
      keepsRegs (R.canStatus :: (List.range 4).map R.canChnStatus) s t ∧ t.mem = s.mem) ∧
    (s.power.chip = true → ∃ t, exec .firstSecondEnd s = .next t ∧ fieldSet F.pwrStatus_firstSec 0 s t ∧
      keepsRegs [R.pwrStatus] s t ∧ t = { s with regs := t.regs, power := { s.power with rates := [] } })

/-- Power-fail and restarts (R26, R365, R464 to R467, R473, R484). The supply's fall below 4.5 V sets `PF_WARN` and `SHUTDOWN` and is counted;
a PRIMARY whose hold-up is ready and whose partner is `READY` asks for a hand-over, one whose hold-up is not asks for none, and a STANDBY
drops `READY`. The shutdown point, a failed OCXO, and the end of the flush of a `SYS_RESTART` lead into a module restart: the chip in
reset, BOOT, the cause shown, memory, TB1 and TB3 as they were, and every register that neither a store nor a restart keeps at its reset
value; at the shutdown point `CLAIM` stands as it was. The supply's return lets the chip go; an exhausted hold-up stops the AOS. An OCXO
that returns adds the outage to TB0 and TB1, counts a step and takes a LOCKED TB0 to HOLDOVER. `SYS_RESTART` with its key, in CONFIG,
SYNCING, STANDBY, STOPPED or SERVICE, with the recorder neither frozen nor re-arming, sets `RESTART_PEND`, drops `READY` and starts a
flush; with another key, or in OFF, BOOT, PRIMARY or ALONE, it is ignored and counted. `PWR_APPLY` waits for the store in flash, a second
one is ignored and counted, and the store's end clears the pending bit. -/
def Obligations.PowerFailAndRestarts : Prop :=
  ∀ s : State, s.regsWf = true →
    let restarted (cause : Nat) (t : State) : Prop := t.power.chip = false ∧ t.mod = .boot ∧ t.mem = s.mem ∧
      t.rd R.sysResetCause = BitVec.ofNat 32 cause ∧ t.time.tb3 = s.time.tb3 ∧ t.time.tb1 = s.time.tb1 ∧
      (∀ off, off ∉ [R.pairStatus, R.memFuse, R.timeStatus, R.sysResetCause] → keptStore off = false → keptRestart off = false →
        t.rd off = regReset off)
    (∀ mv : BitVec 16, s.power.chip = true → s.fbit F.pwrStatus_pfWarn = false → mv.toNat < 4500 →
      ∃ t, exec (.powerFailWarning mv) s = .next t ∧ t.fbit F.pwrStatus_pfWarn = true ∧ t.fbit F.pwrStatus_shutdown = true ∧
        (t.rd R.pwrPfCnt).toNat = satAdd 32 (s.rd R.pwrPfCnt).toNat 1 ∧
        (s.mod = .standby → t.fbit F.pairStatus_ready = false) ∧
        (s.mod = .primary → s.fbit F.pwrStatus_holdupReady = true → s.bogie.pReady = true → t.pair.handover = some 3) ∧
        (s.mod = .primary → s.fbit F.pwrStatus_holdupReady = false → t.pair = s.pair)) ∧
    (∀ mv : BitVec 16, s.power.chip = true → s.fbit F.pwrStatus_pfWarn = true → ∃ t, exec (.shutdownPoint mv) s = .next t ∧
      restarted 3 t ∧ t.power.waitSupply = true ∧ t.power.bank = mv.toNat ∧ t.fbit F.pairStatus_claim = s.fbit F.pairStatus_claim) ∧
    (∀ mv : BitVec 16, s.power.waitSupply = true → s.power.aos = true → 4500 ≤ mv.toNat →
      ∃ t, exec (.supplyReturnRestart mv) s = .next t ∧ t.power = { s.power with waitSupply := false, vin := mv.toNat } ∧
        keepsRegs [R.pwrVin, R.pwrStatus] s t ∧ t.mem = s.mem) ∧
    (∀ pp : Bool, s.power.aos = true → s.power.chip = false → ∃ t, exec (.holdupExhausted pp) s = .next t ∧
      t.power.aos = false ∧ t.power.rails = false ∧ t.power.ocxo = false ∧ t.token = false ∧ t.mod = .off ∧ t.mem = s.mem ∧
      t.time.tb3 = s.time.tb3 ∧ (pp = false → t.bogie.holder = none)) ∧
    (s.power.rails = true → s.power.ocxo = true → ∃ t, exec .ocxoFailure s = .next t ∧ restarted 4 t ∧ t.power.ocxo = false ∧
      t.time.stopped = true) ∧
    (∀ outage : Nat, s.power.aos = true → s.power.rails = true → s.power.ocxo = false → ∃ t,
      exec (.ocxoRecovery outage) s = .next t ∧ t.power.ocxo = true ∧ t.time.stopped = false ∧
        t.time.tb1 = s.time.tb1 + BitVec.ofNat 64 outage ∧
        t.time.tb0s = BitVec.ofNat 64 ((s.tb0 + outage).toNat / 1000000000) ∧ t.time.tb0n = (s.tb0 + outage).toNat % 1000000000 ∧
        (s.fget F.timeStatus_tb0State = 2 → t.fget F.timeStatus_tb0State = 3) ∧
        (t.rd R.timeSteps).toNat = satAdd 32 (s.rd R.timeSteps).toNat 1 ∧ t.mem = s.mem) ∧
    (∀ (m : Master) (v : W32), s.writes m R.sysRestart → v.toNat % 65536 = 0x3B0F → s.mod ∈ [.config, .syncing, .standby, .stopped, .service] →
      s.fbit F.recStatus_frozen = false → s.recd.rearming = none → ∃ t, exec (.sysRestart m v) s = .next t ∧
        t.fbit F.sysStatus_restartPend = true ∧ t.fbit F.pairStatus_ready = false ∧ t.fbit F.recStatus_flushing = true ∧
        t.power = { s.power with restarting := true } ∧ keepsRegs [R.sysStatus, R.pairStatus, R.recStatus] s t ∧
        t = { s with regs := t.regs, power := t.power }) ∧
    (∀ (m : Master) (v : W32), s.writes m R.sysRestart → (v.toNat % 65536 ≠ 0x3B0F ∨ s.mod ∈ [.off, .boot, .primary, .alone]) →
      ∃ t, exec (.sysRestart m v) s = .next t ∧ onlyRegs [0x0010] s t ∧ (t.rd 0x0010).toNat = satAdd 32 (s.rd 0x0010).toNat 1) ∧
    (∀ lost, s.fbit F.recStatus_flushing = true → s.power.restarting = true → s.recd.freezeReq = none →
      ∃ t, exec (.flushEnd lost) s = .next t ∧ restarted 2 t ∧ t.recd.area.length = s.recd.area.length + s.recd.staging.length) ∧
    (∀ m : Master, s.writes m 0x1500C → (s.rd R.sysApplyPend).getLsbD 21 = false → ∃ t, exec (.pwrApply m) s = .next t ∧ (t.rd R.sysApplyPend).getLsbD 21 = true ∧
      keepsRegs [R.sysApplyPend] s t ∧ t = { s with regs := t.regs, power := { s.power with cfgPending := true } }) ∧
    (∀ m : Master, s.writes m 0x1500C → (s.rd R.sysApplyPend).getLsbD 21 = true → ∃ t, exec (.pwrApply m) s = .next t ∧ onlyRegs [0x15010] s t ∧
      (t.rd 0x15010).toNat = satAdd 32 (s.rd 0x15010).toNat 1) ∧
    (s.power.cfgPending = true → ∃ t, exec .pwrCfgStored s = .next t ∧ (t.rd R.sysApplyPend).getLsbD 21 = false ∧
      keepsRegs [R.sysApplyPend] s t ∧
      t = { s with regs := t.regs, power := { s.power with cfgPending := false, cfgStored := s.rd R.pwrCfg } })

/-- MC and the chip's temperature (R35, R36, R214, R499). Cores that disagree, outside STOPPED and with no score forced to 0 already, put MC
in reset and force the health score to 0; a PRIMARY with a `READY` partner and no hand-over under way asks for one, a STANDBY drops
`READY`, and shadow values not applied are lost outside PWR. The self-test lets MC run again and ends that cause; or, outside STOPPED and
with no other cause holding, MC stays in reset for good with the score at 0. A temperature above 105 °C is shown, and recorded at most
once in an hour. -/
def Obligations.McAndTemperature : Prop :=
  ∀ s : State, s.regsWf = true →
    (s.fbit F.sysStatus_mcRun = true → s.mod ≠ .stopped → s.pair.forced = [] → ∃ t, exec .mcLockstepMismatch s = .next t ∧
      t.fbit F.sysStatus_mcRun = false ∧ t.power = { s.power with mcTest := true } ∧ t.mem = s.mem ∧ t.brm = s.brm ∧
      (t.rd R.sysMcRestarts).toNat = satAdd 32 (s.rd R.sysMcRestarts).toNat 1 ∧ t.fbit F.pairHealth_forced = true ∧
      t.fget F.pairHealth_own = 0 ∧ t.fget F.pairHealth_fcause = 1 ∧
      (s.mod = .primary → s.bogie.pReady = true → s.pair.handover = none → t.pair.handover = some 6 ∧ t.fbit F.pairStatus_handover = true) ∧
      (s.mod = .standby → t.fbit F.pairStatus_ready = false) ∧
      (∀ off, off / 0x1000 ≠ 21 → isRws off = true → (s.rd R.sysApplyPend).getLsbD (off / 0x1000) = false → t.rd off = s.actv off)) ∧
    (s.power.mcTest = true → ∃ t, exec (.mcSelftestComplete true) s = .next t ∧ t.fbit F.sysStatus_mcRun = true ∧
      t.power = { s.power with mcTest := false } ∧ t.mem = s.mem ∧ t.pair.forced = s.pair.forced.del causeMcReset) ∧
    (s.power.mcTest = true → s.mod ≠ .stopped → s.pair.forced = [(causeMcReset, true)] → ∃ t, exec (.mcSelftestComplete false) s = .next t ∧
      t.fbit F.sysStatus_mcFailed = true ∧ t.power = { s.power with mcTest := false } ∧ t.mem = s.mem ∧
      t.fget F.pairHealth_own = 0 ∧ t.fbit F.sysStatus_mcRun = s.fbit F.sysStatus_mcRun) ∧
    (∀ pass, s.power.mcTest = false → exec (.mcSelftestComplete pass) s = .next s) ∧
    (∀ temp : BitVec 16, s.power.chip = true → 1050 < temp.toInt → ∃ t, exec (.chipTemperatureWarning temp) s = .next t ∧
      fieldSet ⟨R.sysTemp, 0, 16⟩ temp.toNat s t ∧ keepsRegs [R.sysTemp] s t ∧
      t = { s with regs := t.regs, power := t.power, recd := t.recd } ∧
      (s.power.lastTempRec = none → t.power.lastTempRec = some s.time.tb3 ∧ t.recd.raised.length = s.recd.raised.length + 1) ∧
      (∀ k, s.power.lastTempRec = some k → s.time.tb3 < k + 3600 → t.recd = s.recd ∧ t.power = s.power))

/-! Memory integrity, background work, recorder. -/

/-- CAT entries and the barrier (R375, R376), written by a master that reaches the register: MC's address word is held, and its attribute
word commits both words of an entry that is not locked, does not run past the address space and opens the CAT's own page to no other
class; one that does either, or a locked entry, or a master other than MC, is ignored and counted, and so is such a master's barrier.
MC's barrier puts the committed entries into force, and its completion shows its value. -/
def Obligations.CatEntries : Prop :=
  ∀ (m : Master) (e : Fin 128) (v : W32) (s : State), s.regsWf = true →
    let ignored (i : Instr) : Prop := ∃ t, exec i s = .next t ∧ onlyRegs [0xF014] s t ∧
      (t.rd 0xF014).toNat = satAdd 32 (s.rd 0xF014).toNat 1
    let held := (s.rd (R.catEnteAddr e.val)).toNat
    let attr := v &&& 0x7FFFFFFF
    let locked := (sget regReset s.cat.committed (R.catEnteAttr e.val)).getLsbD 30
    let far := 2 ^ 28 ≤ held % 2 ^ 28 + attr.toNat % 2 ^ 22
    let opens := held.testBit 29 = true ∧ held % 2 ^ 28 ≤ 0x1000F ∧ 0x1000F ≤ held % 2 ^ 28 + attr.toNat % 2 ^ 22 ∧
      ∃ c : Fin 8, c ≠ 2 ∧ attr.getLsbD (22 + c.val) = true
    ((m ≠ .mc ∨ locked = true) → (s.writes m (R.catEnteAddr e.val) → ignored (.catEntAddrWrite m e v)) ∧
      (s.writes m (R.catEnteAttr e.val) → ignored (.catEntAttrWrite m e v))) ∧
    (s.writes .mc (R.catEnteAddr e.val) → locked = false → ∃ t, exec (.catEntAddrWrite .mc e v) s = .next t ∧ t.rd (R.catEnteAddr e.val) = v &&& 0x7FFFFFFF ∧
      onlyRegs [R.catEnteAddr e.val] s t) ∧
    (s.writes .mc (R.catEnteAttr e.val) → locked = false → (far ∨ opens) → ignored (.catEntAttrWrite .mc e v)) ∧
    (s.writes .mc (R.catEnteAttr e.val) → locked = false → ¬ far → ¬ opens → swf regReset s.cat.committed = true → ∃ t, exec (.catEntAttrWrite .mc e v) s = .next t ∧
      t.rd (R.catEnteAttr e.val) = attr ∧ t.cat = { s.cat with committed := t.cat.committed } ∧
      sget regReset t.cat.committed (R.catEnteAddr e.val) = s.rd (R.catEnteAddr e.val) ∧
      sget regReset t.cat.committed (R.catEnteAttr e.val) = attr ∧
      (∀ o, o ≠ R.catEnteAddr e.val → o ≠ R.catEnteAttr e.val → sget regReset t.cat.committed o = sget regReset s.cat.committed o) ∧
      keepsRegs [R.catEnteAttr e.val, R.catStatus] s t ∧ t = { s with regs := t.regs, cat := t.cat }) ∧
    (m ≠ .mc → s.writes m R.catBarrier → ignored (.catBarrier m v)) ∧
    (s.writes .mc R.catBarrier → ∃ t, exec (.catBarrier .mc v) s = .next t ∧ t.cat = { s.cat with eff := s.cat.committed, barrier := some v } ∧
      fieldSet F.catStatus_barPend 1 s t ∧ keepsRegs [R.catStatus] s t ∧ t = { s with regs := t.regs, cat := t.cat }) ∧
    (∀ w, s.cat.barrier = some w → ∃ t, exec .catBarrierComplete s = .next t ∧ t.cat = { s.cat with barrier := none } ∧
      t.rd R.catBarrierDone = w ∧ fieldSet F.catStatus_barPend 0 s t ∧ keepsRegs [R.catBarrierDone, R.catStatus] s t) ∧
    (s.cat.barrier = none → exec .catBarrierComplete s = .next s)

/-- Repair (R385, R386): a block from the partner that a window or a reaction waits for is written whole, every word of it is good, and the
windows that waited for it leave their drupelets as restart entries; a block of another length, or that nobody waits for, changes
nothing. Without an answer a block of the active bank waits to be rewritten and the windows that waited for it are abandoned; MC rewrites
it from flash. The PRIMARY marks dirty what its STANDBY found poisoned. Scrubbing (R383, R384, R388, R394, R397), where no window
commits into the line: clean words change no byte of memory and no register but the OBS counters; a first correctable word of DRAM is
counted and its data stand; an uncorrectable one outside the tracked regions is poisoned, counted, latched and raised. A free drupelet
scrubs its own local in at most 4 µs. Fuses (R389, R403): while the hold-up is rated and the supply good, and fuses are left, one queued
repair takes one fuse; with a hold-up below 60 mF none. -/
def Obligations.MemoryRepair : Prop :=
  (
    ∀ (blk : Nat) (s : State), s.Inv →
      let waits (be : Fin 32) : Prop := (be.val, blk) ∈ s.integ.wanted
      (∀ data : List Byte, data.length = 256 → (∃ e ∈ s.integ.wanted, e.2 = blk) → ∃ t, exec (.blockRepairRx blk data) s = .next t ∧
        wrote (blk * 256) data s t ∧ (∀ k < 32, t.mem.bad (blk * 32 + k) = false) ∧
        t.integ = { s.integ with wanted := s.integ.wanted.filter (fun e => e.2 ≠ blk) } ∧ t.fbit F.memUeInfo_restored = true ∧
        keepsRegs [R.memUeInfo] s t ∧
        (∀ be w, waits be → (s.dru be).win = some w → (t.dru be).win = none ∧ (be.val / 8, w.oc) ∈ t.brm.restarts) ∧
        (∀ be, ¬ waits be → (t.dru be).win = (s.dru be).win)) ∧
      (∀ data : List Byte, (data.length ≠ 256 ∨ ∀ e ∈ s.integ.wanted, e.2 ≠ blk) → exec (.blockRepairRx blk data) s = .next s) ∧
      ((∀ e ∈ s.integ.wanted, e.2 ≠ blk) → exec (.repairTimeout blk) s = .next s) ∧
      ((∃ e ∈ s.integ.wanted, e.2 = blk) → s.bank ≤ blk * 256 → blk * 256 < s.bank + 0x1000000 →
        ∃ t, exec (.repairTimeout blk) s = .next t ∧ t.integ = { s.integ with
          wanted := s.integ.wanted.filter (fun e => e.2 ≠ blk), rewrite := s.integ.rewrite ++ [blk] } ∧ t.mem = s.mem ∧
          (∀ be, waits be → (t.dru be).win = none) ∧ (∀ be, ¬ waits be → (t.dru be).win = (s.dru be).win)) ∧
      (blk ∈ s.integ.rewrite → s.fbit F.sysStatus_mcRun = true → ∃ t, exec (.codeBlockRewrite blk) s = .next t ∧
        wrote (blk * 256) ((List.range 256).map (fun i => sget (fun _ => 0) s.olc.flash.bank (blk * 256 - s.bank + i))) s t ∧
        (∀ k < 32, t.mem.bad (blk * 32 + k) = false) ∧
        t.integ = { s.integ with rewrite := s.integ.rewrite.filter (· ≠ blk) } ∧ keepsRegs [R.memUeInfo] s t) ∧
      (∀ id, s.fresh id → s.mod = .primary → s.tracked (blk * 256) = true → swf (fun _ => false) s.pair.dirty = true →
        ∃ t, exec (.dirtyRequestRx id blk) s = .next t ∧ t.pair.dirty.has blk = true ∧
          (∀ b, b ≠ blk → t.pair.dirty.has b = s.pair.dirty.has b) ∧ t.mem = s.mem ∧ t.regs = s.regs ∧
          t.pair.seen = id :: s.pair.seen)) ∧
  (
    ∀ s : State, s.Inv →
      let counters (off : Nat) : Prop := R.obsCntk 0 ≤ off ∧ off ≤ R.obsCntk 255
      (∀ (line : Nat) (spare : Bool), line * 64 < 0x05FFFFC1 → s.commitSpan (line * 64) 64 = false → ∃ t,
        exec (.scrubAccess line (Vector.replicate 8 .clean) false spare none none) s = .next t ∧
        t = { s with regs := t.regs, mem := { s.mem with suspect := t.mem.suspect } } ∧ (∀ off, ¬ counters off → t.rd off = s.rd off)) ∧
      (∀ (line : Nat) (spare : Bool), isDram (line * 64) = true → s.mem.suspect.has (line * 8) = false →
        s.commitSpan (line * 64) 64 = false →
        (∃ t, exec (.scrubAccess line ((Vector.replicate 8 .clean).set 0 .corrected) false spare none none) s = .next t ∧
          t = { s with regs := t.regs, mem := { s.mem with suspect := t.mem.suspect } } ∧
          (t.rd (R.memRgrCe 7)).toNat = satAdd 32 (s.rd (R.memRgrCe 7)).toNat 1 ∧
          (∀ off, off ≠ R.memRgrCe 7 → ¬ counters off → t.rd off = s.rd off)) ∧
        (s.tracked (line * 64) = false →
          ∃ t, exec (.scrubAccess line ((Vector.replicate 8 .clean).set 0 .uncorrectable) false spare none none) s = .next t ∧
          t.mem = { s.mem with suspect := t.mem.suspect, poison := s.mem.poison.add (line * 8) } ∧
          (t.rd (R.memRgrUe 7)).toNat = satAdd 32 (s.rd (R.memRgrUe 7)).toNat 1 ∧
          t.rd64 R.memUeLastLo = BitVec.ofNat 64 (line * 64) ∧ t.fbit F.memStatus_ueSeen = true ∧ t.brm = s.brm ∧
          t.recd.raised.length = s.recd.raised.length + 1)) ∧
      (∀ (be : Fin 32) (unit : Fin 512) (spare : Bool), s.up = true → (s.dru be).st = .active → (s.dru be).win = none →
        s.findWork be = none → (vget s.clk (be.val / 8)).pll = .locked → (s.aget F.wfCfg_park).testBit (be.val / 8) = false →
        ∃ t, exec (.localScrubChain be unit (Vector.replicate 64 .clean) false spare none) s = .next t ∧
          t = { s with regs := t.regs, mem := { s.mem with suspect := t.mem.suspect }, free := s.free + 1,
                       wf := { s.wf with localNs := t.wf.localNs } } ∧ t.wf.localNs ≤ s.wf.localNs + 4000 ∧ (∀ off, ¬ counters off → t.rd off = s.rd off)) ∧
      (∀ a r, s.integ.repairs = a :: r → (s.actv R.memCfg).getLsbD 0 = true → s.fbit F.sysStatus_mcRun = true →
        60 ≤ s.fget F.wfHoldup_total → s.fbit F.pwrStatus_vinOk = true → s.fbit F.pwrStatus_pfWarn = false →
        s.fget ⟨R.memFuse, 0, 7⟩ < 64 → ∃ t, exec .fuseRepair s = .next t ∧ t.integ = { s.integ with repairs := r } ∧
          t.fget ⟨R.memFuse, 0, 7⟩ = s.fget ⟨R.memFuse, 0, 7⟩ + 1 ∧ t.fget ⟨R.memFuse, 8, 8⟩ = r.length % 256 ∧
          t.fbit F.memStatus_repairPend = true ∧ t.mem = s.mem ∧ ∃ x ∈ t.recd.raised, x.priv = true) ∧
      (s.fget F.wfHoldup_total < 60 → exec .fuseRepair s = .next s))

/-- Windfall clients (R398, R400 to R402). The sweep's next unit, in the copy step of a PRIMARY with a STANDBY, with no carry-over, while
units are due and no window commits into it, joins the seal's items. A hold-up measurement starts ten minutes after the scan start with
the supply good, no lever open and no hand-over, and not during one; its end gives the sum and the lowest of the four sections in mF, a
sum below 60 mF marked low; abandoned, it is counted as yielded. A flash migration, while MC runs and no power-fail warning stands, begins
where none is under way, counts the erasure of its source where it completes, and abandoned is counted as yielded. -/
def Obligations.BackgroundWork : Prop :=
  ∀ s : State, s.regsWf = true →
    (∀ u, s.sweepNext = some u → s.mod = .primary → s.partner = .standby → s.scan.step = .copy → s.olc.carry = none →
      s.pair.sweepItems.length < 16 * s.aget F.pairCfg_sweepUnits → s.commitSpan (u * 4096) 4096 = false → ∃ t, exec .sweepDigest s = .next t ∧
        t.pair = { s.pair with sweepItems := s.pair.sweepItems ++ [s.sweepItem u] } ∧ t = { s with regs := t.regs, pair := t.pair } ∧
        ∀ off, (off < R.obsCntk 0 ∨ R.obsCntk 255 < off) → t.rd off = s.rd off) ∧
    (∀ t0, s.wf.scanAt = some t0 → t0 + 600 ≤ s.time.tb3 → s.fbit F.pwrStatus_vinOk = true → s.fbit F.pwrStatus_pfWarn = false →
      s.fbit F.pairStatus_lever = false → s.fbit F.pairStatus_pLever = false → s.fbit F.pairStatus_handover = false →
      s.abit F.wfCfg_holdupEn = true → s.fbit F.sysStatus_mcRun = true → ∃ t, exec (.holdupMeasurement none) s = .next t ∧
        fieldSet F.wfStatus_holdupRun 1 s t ∧ onlyRegs [R.wfStatus] s t) ∧
    (s.fbit F.pairStatus_handover = true → exec (.holdupMeasurement none) s = .next s) ∧
    (∀ d : Vector Nat 4, s.fbit F.wfStatus_holdupRun = true → (∀ k : Fin 4, 0 < vget d k.val) →
      let c (k : Nat) : Nat := 10000000000 / vget d k
      let sum := c 0 + c 1 + c 2 + c 3
      ∃ t, exec (.holdupMeasurement (some d)) s = .next t ∧ t.fget F.wfHoldup_total = min 4095 ((sum + 500) / 1000) ∧
        t.fget F.wfHoldup_lowest = min 4095 ((min (min (c 0) (c 1)) (min (c 2) (c 3)) + 500) / 1000) ∧
        t.fbit F.wfStatus_holdupLow = decide (sum < 60000) ∧ t.fbit F.wfStatus_holdupRun = false ∧
        t.rd R.wfHoldupLast = BitVec.ofNat 32 s.time.tb3 ∧ t.mem = s.mem) ∧
    (s.fbit F.wfStatus_holdupRun = true → ∃ t, exec .holdupAbort s = .next t ∧ fieldSet F.wfStatus_holdupRun 0 s t ∧
      (t.rd (R.wfClcPreempt 10)).toNat = satAdd 32 (s.rd (R.wfClcPreempt 10)).toNat 1 ∧ onlyRegs [R.wfStatus, R.wfClcPreempt 10] s t) ∧
    (∀ (half : Fin 2) (src dst : Fin 8192), s.fbit F.sysStatus_mcRun = true → s.fbit F.pwrStatus_pfWarn = false →
      (s.wf.moving = none → ∃ t, exec (.flashMigration 0 half src dst 0 none) s = .next t ∧
        t.wf = { s.wf with moving := some (half.val, src.val, dst.val) } ∧ t.fbit F.wfStatus_migrate = true ∧
        keepsRegs [R.wfStatus, R.wfFlash] s t) ∧
      (∀ h b x, s.wf.moving = some (h, b, x) → swf (fun _ => 0) s.wf.erase = true →
        ∃ t, exec (.flashMigration 1 half src dst 0 none) s = .next t ∧ t.wf.moving = none ∧ t.fbit F.wfStatus_migrate = false ∧
        (∀ k, sget (fun _ => 0) t.wf.erase k = sget (fun _ => 0) s.wf.erase k + (if k = h * 8192 + b then 1 else 0)) ∧
        keepsRegs [R.wfStatus, R.wfFlash] s t) ∧
      (s.wf.moving.isSome → ∃ t, exec (.flashMigration 2 half src dst 0 none) s = .next t ∧ t.wf = { s.wf with moving := none } ∧
        t.fbit F.wfStatus_migrate = false ∧ (t.rd (R.wfClcPreempt 9)).toNat = satAdd 32 (s.rd (R.wfClcPreempt 9)).toNat 1 ∧
        keepsRegs [R.wfStatus, R.wfFlash, R.wfClcPreempt 9] s t))

/-- Acceptance of a record (R411 to R413, R415), with the chip out of reset: the record accepted next is the oldest raised, of those of its
clock the one of the lowest block and unit. With the area full it is refused and counted. Else, beyond the rate of its source, unless it
is privileged or of severity 2 or 3, it is suppressed and counted; with the staging full, counted as lost in the overflow; else staged
under the next index, outside the two marks of the area, and a record of the flush severity starts a flush. Flushing, freezing and
re-arming (R413, R414, R417, R418): a flush's end moves the staged records to the area, one that was lost as a LOST record. `FREEZE`,
`UNFREEZE` and `REARM`, written by a master that reaches `REC_CTRL`, with another key are ignored and counted, as is a freeze while frozen
or an unfreeze or re-arm while not; with the key a freeze acts at once or waits for the flush under way, and an unfreeze, the end of the
freeze's time (recorded), and a re-arm end the freeze; the erase of the first block leaves an empty area with REARMED staged first, and
the erase of the rest ends `ERASING`. -/
def Obligations.Recorder : Prop :=
  (
    ∀ (s : State) (r0 : Record) (raised : List Record), s.regsWf = true → s.recd.raised = r0 :: raised → s.power.chip = true →
      let r := nextRaised raised r0
      let rest := (r0 :: raised).erase r
      let beyond := s.aget F.recCfg_rate ≤ (s.rateRow r).count ∧ r.priv = false ∧ r.sev.toNat < 2
      (beyond → s.fbit F.recStatus_full = false → ∃ t, exec .recordAccept s = .next t ∧ (t.rd R.recSuppressed).toNat = satAdd 32 (s.rd R.recSuppressed).toNat 1 ∧
        t.recd.raised = rest ∧ t.recd.staging = s.recd.staging ∧ keepsRegs [R.recSuppressed] s t ∧ t.out = s.out) ∧
      (s.fbit F.recStatus_full = true → ∃ t, exec .recordAccept s = .next t ∧
        (t.rd R.recRefused).toNat = satAdd 32 (s.rd R.recRefused).toNat 1 ∧ t.recd.raised = rest ∧
        t.recd.staging = s.recd.staging ∧ t.recd.area = s.recd.area) ∧
      (¬ beyond → s.fbit F.recStatus_full = false → 4096 ≤ s.recd.staging.length → ∃ t, exec .recordAccept s = .next t ∧
        (t.rd R.recOvf).toNat = satAdd 32 (s.rd R.recOvf).toNat 1 ∧ t.fbit F.recStatus_stageOvf = true ∧
        t.recd.raised = rest ∧ t.recd.staging = s.recd.staging ∧ t.recd.ovfCount = s.recd.ovfCount + 1) ∧
      (¬ beyond → s.fbit F.recStatus_full = false → s.recd.staging.length < 4096 →
        (s.rd R.recCount).toNat + 1 ≠ 917504 → (s.rd R.recCount).toNat + 2 ≠ 1048576 → ∃ t, exec .recordAccept s = .next t ∧
        t.recd.staging = s.recd.staging ++ [r] ∧ t.recd.raised = rest ∧ t.recd.area = s.recd.area ∧
        t.rd R.recCount = s.rd R.recCount + 1 ∧ t.rd R.recStaged = BitVec.ofNat 32 (s.recd.staging.length + 1) ∧
        (s.aget F.recCfg_flushSev ≤ r.sev.toNat → s.recd.rearming = none → s.fbit F.recStatus_frozen = false →
          t.fbit F.recStatus_flushing = true) ∧ t.mem = s.mem)) ∧
  (
    ∀ s : State, s.regsWf = true →
      let ignored (i : Instr) : Prop := ∃ t, exec i s = .next t ∧ onlyRegs [0x12010] s t ∧
        (t.rd 0x12010).toNat = satAdd 32 (s.rd 0x12010).toNat 1
      let frozen := s.fbit F.recStatus_frozen = true
      (∀ lost : List Nat, s.fbit F.recStatus_flushing = true → s.power.restarting = false → s.recd.freezeReq = none →
        ∃ t, exec (.flushEnd lost) s = .next t ∧ t.recd.staging = [] ∧ t.fbit F.recStatus_flushing = false ∧ t.rd R.recStaged = 0 ∧
          t.recd.area.length = s.recd.area.length + s.recd.staging.length ∧
          t.rd R.recFlushed = BitVec.ofNat 32 t.recd.area.length ∧
          (t.rd R.recFlushes).toNat = satAdd 32 (s.rd R.recFlushes).toNat 1 ∧
          (lost = [] → t.recd.area = s.recd.area ++ s.recd.staging) ∧
          (∀ i, lost = [i] → i < s.recd.staging.length → (t.rd R.recLost).toNat = satAdd 32 (s.rd R.recLost).toNat 1 ∧
            ∃ r, t.recd.area[s.recd.area.length + i]? = some r ∧ r.code = 4) ∧ t.mem = s.mem) ∧
      (s.fbit F.recStatus_flushing = false → ∀ lost, exec (.flushEnd lost) s = .next s) ∧
      (∀ m : Master, s.writes m R.recCtrl →
        (∀ key : BitVec 16, key ≠ 0x2EC0 → ignored (.recFreeze m key) ∧ ignored (.recUnfreeze m key) ∧ ignored (.recRearm m key)) ∧
        (frozen → ignored (.recFreeze m 0x2EC0)) ∧
        (¬ frozen → ignored (.recUnfreeze m 0x2EC0) ∧ ignored (.recRearm m 0x2EC0))) ∧
      (∀ m : Master, s.writes m R.recCtrl → ¬ frozen → s.recd.freezeReq = none → s.recd.rearming = none → s.fbit F.recStatus_flushing = false →
        ∃ t, exec (.recFreeze m 0x2EC0) s = .next t ∧ fieldSet F.recStatus_frozen 1 s t ∧ keepsRegs [R.recStatus] s t ∧
          t = { s with regs := t.regs, recd := { s.recd with frozenS := 0 } }) ∧
      (∀ m : Master, s.writes m R.recCtrl → ¬ frozen → s.recd.freezeReq = none → s.recd.rearming = none → s.fbit F.recStatus_flushing = true →
        exec (.recFreeze m 0x2EC0) s = .next { s with recd := { s.recd with freezeReq := some .register } }) ∧
      (∀ m : Master, s.writes m R.recCtrl → frozen → s.recd.ovfCount = 0 → ∃ t, exec (.recUnfreeze m 0x2EC0) s = .next t ∧ t.fbit F.recStatus_frozen = false ∧
        keepsRegs [R.recStatus] s t ∧ t.recd = s.recd) ∧
      (frozen → s.recd.ovfCount = 0 → ∃ t r, exec .freezeExpired s = .next t ∧ t.fbit F.recStatus_frozen = false ∧
        keepsRegs [R.recStatus] s t ∧ t.recd = { s.recd with raised := s.recd.raised ++ [r] } ∧ r.code = 7) ∧
      (¬ frozen → exec .freezeExpired s = .next s) ∧
      (∀ m : Master, s.writes m R.recCtrl → frozen → s.recd.rearming = none → ∃ t, exec (.recRearm m 0x2EC0) s = .next t ∧ t.fbit F.recStatus_frozen = false ∧
        t.fbit F.recStatus_erasing = true ∧ keepsRegs [R.recStatus] s t ∧
        t = { s with regs := t.regs, recd := { s.recd with rearming := some .register } }) ∧
      (s.recd.rearming = some .register → s.recd.ovfCount = 0 → ∃ t r, exec .rearmEraseDone s = .next t ∧ t.recd.area = [] ∧
        t.recd.rearming = none ∧ t.recd.staging = r :: s.recd.staging ∧ r.code = 3 ∧ t.rd R.recFlushed = 0 ∧
        t.rd R.recCount = BitVec.ofNat 32 (s.recd.staging.length + 1) ∧ t.rd R.recArmed = BitVec.ofNat 32 s.time.tb3 ∧
        t.fbit F.recStatus_full = false ∧ t.fbit F.recStatus_nearFull = false ∧
        (s.fbit F.recStatus_frozen = false → t.fbit F.recStatus_flushing = true)) ∧
      (s.fbit F.recStatus_erasing = true → s.recd.rearming = none → ∃ t, exec .rearmEraseComplete s = .next t ∧
        fieldSet F.recStatus_erasing 0 s t ∧ onlyRegs [R.recStatus] s t))

/-! The field. -/

/-- The island interface (R228, R249, R251), each command changing only the island and the blocks that show it. Frames with a good CRC both
ways bring the measured values, as calibration corrects them, to their registers and the module state to the island; frames with a bad
CRC are counted and leave the island as it was. In silence the holder of the token, with its outputs on, keeps the level of every output
and shows the hold; without the token the island only notes the silence. At the end of the hold every output takes its safe value. Frames
that resume outside BOOT and CONFIG keep held values where no scan command has come, and with one lift them from every output but the
reflex-bound ones. -/
def Obligations.IslandFrames : Prop :=
  ∀ s : State, s.regsWf = true → s.island.on = true →
    (∀ (mv cv : BitVec 16) (term ilim : W32) (rb : Vector (BitVec 25) 8), s.up = true → s.power.chip = true →
      (∃ t, exec (.islandStatusFrame true true mv cv term ilim rb) s = .next t ∧ islandOnly [] s t ∧
        t.fget ⟨R.dioLplus, 0, 16⟩ = mv.toNat ∧ (t.rd R.aoCompV).toNat = cv.toNat ∧ t.island.mst = s.mod ∧
        t.island.silent = false ∧ t.rd R.dioInState = t.diState ∧ t.rd R.dioInValid = t.diValid ∧
        (∀ n : Fin 32, (t.dch n).term = term.getLsbD n.val ∧ (t.dch n).ilim = ilim.getLsbD n.val) ∧
        (∀ n : Fin 8, (t.lch n).readback = s.readbackOf n (vget rb n.val) ∧
          (t.rd (R.aoChnReadback n)).toNat = s.readbackOf n (vget rb n.val) % 2 ^ 25 ∧
          (t.rd (R.aoChnCmd n)).toNat = t.driveL n % 2 ^ 32)) ∧
      (∃ t, exec (.islandStatusFrame false false mv cv term ilim rb) s = .next t ∧ t.island = s.island ∧ islandOnly [] s t ∧
        (t.rd R.dioIfaceErr).toNat = satAdd 32 (satAdd 32 (s.rd R.dioIfaceErr).toNat 1) 1)) ∧
    (s.island.silent = false → s.token = true → s.island.off = false → ∃ t, exec .logicSilent s = .next t ∧
      islandOnly [] s t ∧ t.island.silent = true ∧ t.island.holding = true ∧
      (s.up = true → t.fbit F.dioStatus_holdSeen = true ∧ t.fbit F.dioStatus_holding = true) ∧
      (∀ n : Fin 32, t.driveD n = s.driveD n) ∧ (∀ n : Fin 8, t.driveL n = s.driveL n)) ∧
    (s.island.silent = false → s.token = false → ∃ t, exec .logicSilent s = .next t ∧ islandOnly [] s t ∧
      t.island = { s.island with silent := true }) ∧
    (s.island.silent = true → exec .logicSilent s = .next s) ∧
    (s.island.silent = true → s.island.holding = true → s.token = true → s.island.off = false →
      ∃ t, exec .holdExpiry s = .next t ∧ islandOnly [] s t ∧ t.island.holding = false ∧ t.island.expired = true ∧
        (∀ n : Fin 32, (t.dch n).hold = if s.isOut n then some (some (s.safeD n)) else (s.dch n).hold) ∧
        (∀ n : Fin 8, (t.lch n).hold = some (s.safeL n))) ∧
    (s.island.holding = false → exec .holdExpiry s = .next s) ∧
    (s.island.silent = true → s.up = true → s.power.chip = true → s.mod ≠ .boot → s.mod ≠ .config →
      ∃ t, exec .framesResume s = .next t ∧ islandOnly [] s t ∧ t.island.silent = false ∧ t.island.holding = false ∧
        t.island.mst = s.mod ∧
        (s.scan.pub = none → t.island.ch = s.island.ch ∧ t.island.lp = s.island.lp) ∧
        (∀ c, s.scan.pub = some c → t.island.cmd = c ∧ (∀ n : Fin 8, (t.lch n).hold = none) ∧
          ∀ n : Fin 32, (t.dch n).hold = if s.isRfx n then (s.dch n).hold else none))

/-- Digital channels (R235, R237, R240, R242, R244), each command changing only the island and the blocks that show it. The samples of an
input move its filter counter and, at the threshold or 0, its filtered state; samples of an output, or with the island off, do nothing.
An input whose comparators disagree at two checks running is faulty, and the lap is shown. A driven output in current limit latches off
with the pair it belongs to, counted and with its event; one that is not driven does not. With the token and the outputs on, a retry ends
the latch where the command is low or the limit does not come back, and is counted in any case. A readback fault is set on an output that
is neither latched nor in current limit, and clears. -/
def Obligations.DigitalChannels : Prop :=
  ∀ (n : Fin 32) (s : State), s.regsWf = true →
    let k := s.lead n
    let only (t : State) : Prop := ∀ m : Fin 32, m ≠ n → t.dch m = s.dch m
    (∀ samples : List Bool, s.island.on = true → s.isOut n = false → ∃ t,
      exec (.filterStateChange n samples) s = .next t ∧ islandOnly [] s t ∧ only t ∧
      (let x := samples.foldl (filterTick (s.filtT n)) ((s.dch n).count, (s.dch n).input)
       t.dch n = { s.dch n with count := x.1, input := x.2 }) ∧ (s.up = true → t.rd R.dioInState = t.diState)) ∧
    (∀ samples, (s.island.on = false ∨ s.isOut n = true) → exec (.filterStateChange n samples) s = .next s) ∧
    (∀ (dis : W32) (lap : Nat), s.island.on = true → ∃ t, exec (.inputThresholdCheck dis lap) s = .next t ∧
      islandOnly [R.wfClcLast 5, R.wfClcLap 5, R.wfClcRuns 5, R.wfLate] s t ∧
      (s.isOut n = true → t.dch n = s.dch n) ∧
      (s.isOut n = false → t.dch n = { s.dch n with
        chkFault := (s.dch n).chkFault || (dis.getLsbD n.val && (s.dch n).chkBad), chkBad := dis.getLsbD n.val }) ∧
      t.rd R.dioChkLast = BitVec.ofNat 32 s.time.tb3 ∧ t.rd (R.wfClcLast 5) = BitVec.ofNat 32 s.time.tb3 ∧
      t.rd (R.wfClcLap 5) = BitVec.ofNat 32 lap ∧ (t.rd (R.wfClcRuns 5)).toNat = satAdd 32 (s.rd (R.wfClcRuns 5)).toNat 1) ∧
    ((s.driveD n).isSome = true → ∃ u, exec (.outputLatchOff n) s = .next (u.event 0x0020 6 k [BitVec.ofNat 64 k]) ∧
      islandOnly [] s u ∧ u.dch k = { s.dch k with latched := true, ilim := false } ∧
      (n.val ≠ k → u.dch n = { s.dch n with ilim := false }) ∧ (∀ m : Fin 32, m ≠ n → m.val ≠ k → u.dch m = s.dch m) ∧
      (u.rd (R.dioChnShorts k)).toNat = satAdd 32 (s.rd (R.dioChnShorts k)).toNat 1 ∧
      ∀ m : Fin 32, s.lead m = k → u.driveD m = none) ∧
    ((s.driveD n).isSome = false → exec (.outputLatchOff n) s = .next s) ∧
    ((s.dch k).latched = true → s.token = true → s.island.on = true → s.island.off = false →
      let level := (s.wantD k).getD false
      (∃ u, exec (.outputRetry n false) s = .next (u.event 0x0021 6 k (if level then [BitVec.ofNat 64 k] else [BitVec.ofNat 64 k, 1])) ∧
        islandOnly [] s u ∧ (u.dch k).latched = false ∧ (∀ m : Fin 32, m.val ≠ k → u.dch m = s.dch m) ∧
        (u.rd (R.dioChnRetries k)).toNat = satAdd 32 (s.rd (R.dioChnRetries k)).toNat 1) ∧
      (level = true → ∃ t, exec (.outputRetry n true) s = .next t ∧ islandOnly [] s t ∧ t.island = s.island ∧
        (t.rd (R.dioChnRetries k)).toNat = satAdd 32 (s.rd (R.dioChnRetries k)).toNat 1)) ∧
    (s.island.on = true → s.isOut n = true → (s.dch k).latched = false → (s.dch n).ilim = false →
      ∃ t, exec (.readbackFaultSet n) s = .next t ∧ islandOnly [] s t ∧ only t ∧ t.dch n = { s.dch n with rbFault := true } ∧
        (s.up = true → t.fbit F.dioStatus_rbFaultAny = true)) ∧
    (s.island.on = true → (s.dch n).rbFault = true → ∃ t, exec (.readbackFaultClear n) s = .next t ∧ islandOnly [] s t ∧
      only t ∧ t.dch n = { s.dch n with rbFault := false })

/-- The field supply L+ (R245 to R247), each command changing only the island and the blocks that show it, with its event. Below 19.2 V a
warning, counted, which ends above 19.6 V. Below 15 V the outputs are off and every input invalid, counted. Above 18 V they are back: where
a scan command came meanwhile or the logic side is not silent, nothing else of a channel changes; otherwise every output takes its safe
value. Below 11 V the island's state is lost but for what its own memory keeps of each loop (factory trims, table, readback correction).
Above 13 V it starts with its outputs off, loads the configuration in effect and shows the factory trims. -/
def Obligations.FieldSupply : Prop :=
  ∀ (mv : BitVec 16) (s : State), s.regsWf = true →
    let v := mv.toNat
    let p := BitVec.ofNat 64 v
    (s.island.on = true → s.island.warn = false → v < 19200 → ∃ u, exec (.lplusWarning mv) s = .next (u.event 0x0022 6 0 [p]) ∧
      islandOnly [] s u ∧ u.island = { s.island with warn := true } ∧
      u.fget ⟨R.dioSupplyCnt, 0, 16⟩ = satAdd 16 (s.fget ⟨R.dioSupplyCnt, 0, 16⟩) 1) ∧
    (19200 ≤ v → exec (.lplusWarning mv) s = .next s) ∧
    (s.island.on = true → s.island.warn = true → 19600 < v → ∃ t, exec (.lplusWarningClear mv) s = .next t ∧
      islandOnly [] s t ∧ t.island = { s.island with warn := false }) ∧
    (s.island.on = true → s.island.off = false → v < 15000 → ∃ u, exec (.outputsOff mv) s = .next (u.event 0x0023 6 0 [p]) ∧
      islandOnly [] s u ∧ u.island.off = true ∧ (∀ n, u.driveD n = none ∧ u.driveL n = 0 ∧ u.inValid n = false) ∧
      u.fget ⟨R.dioSupplyCnt, 16, 16⟩ = satAdd 16 (s.fget ⟨R.dioSupplyCnt, 16, 16⟩) 1) ∧
    (s.island.on = true → s.island.off = true → 18000 < v → ∃ u, exec (.supplyRecovery mv) s =
        .next (u.event 0x0024 6 0 [p, BitVec.ofNat 64 (bit s.island.fresh)]) ∧
      islandOnly [] s u ∧ u.island.off = false ∧ u.island.fresh = false ∧
      ((s.island.cmdSeen = true ∨ s.island.silent = false) → u.island.ch = s.island.ch ∧ u.island.lp = s.island.lp) ∧
      (s.island.cmdSeen = false → s.island.silent = true → (∀ n : Fin 8, (u.lch n).hold = some (s.safeL n)) ∧ ∀ n : Fin 32, (u.dch n).hold =
        if s.isOut n then some (some (s.safeD n)) else (s.dch n).hold)) ∧
    (s.island.on = true → v < 11000 → ∃ t, exec (.islandPowerDown mv) s = .next t ∧ islandOnly [] s t ∧ t.island.on = false ∧
      (∀ n, t.driveD n = none ∧ t.driveL n = 0 ∧ t.inValid n = false) ∧
      (∀ n : Fin 8, let c := s.lch n
        t.lch n = { factoryLo := c.factoryLo, factoryHi := c.factoryHi, table := c.table, rbAdj := c.rbAdj })) ∧
    (s.island.on = false → 13000 < v → swf regReset s.island.cfg = true → ∃ t, exec (.islandStart mv) s = .next t ∧
      islandOnly [] s t ∧ t.island.on = true ∧ t.island.off = true ∧ t.island.fresh = true ∧ (∀ n, t.driveD n = none) ∧
      (∀ off, islandReg off = true → (off / 0x1000 = 3 ∨ off / 0x1000 = 6 ∨ off / 0x1000 = 7) →
        sget regReset t.island.cfg off = s.actv off) ∧
      (∀ n : Fin 8, t.rd (R.aoChnTrimLo n) = (s.lch n).factoryLo.setWidth 32 ∧
        t.rd (R.aoChnTrimHi n) = (s.lch n).factoryHi.setWidth 32)) ∧
    (v ≤ 13000 → exec (.islandStart mv) s = .next s)

/-- Loop outputs (R256, R257, R260), each command changing only the island and the blocks that show it. Compliance sets on a readback more
than 0.1 mA below the command, with its event and an open loop below 0.1 mA, and clears within 0.05 mA. A supervised main path that misses
by more than 0.16 mA falls back with its current command unchanged, a fallback that misses by more than 0.32 mA takes the output to 0; both
are counted, with their events. A calibration lap in which no readback error exceeds 40 µA corrects a readback that is off by more than 8
µA and, on the main path, moves the trims of a channel toward the fit of its pairs (an offset alone where they span less than 4 mA), or
sets the calibration limit; a channel that is off or not calibrated keeps all; an error beyond 40 µA takes the channel to readback fault.
`RETEST` returns the named channels to the main path. -/
def Obligations.LoopOutputs : Prop :=
  ∀ (n : Fin 8) (s : State), s.regsWf = true →
    let only (t : State) : Prop := ∀ m : Fin 8, m ≠ n → t.lch m = s.lch m
    let on := s.island.on = true ∧ s.iget (F.aoChnCfg_en n.val) = 1
    (∀ rb : BitVec 25,
      (on → (s.lch n).compliance = false → s.readbackOf n rb + 100000 < s.driveL n → ∃ u, exec (.complianceSet n rb) s =
          .next (u.event 0x0029 7 n [BitVec.ofNat 64 n.val, BitVec.ofNat 64 (bit (decide (s.readbackOf n rb < 100000)))]) ∧
        islandOnly [] s u ∧ only u ∧
        u.lch n = { s.lch n with compliance := true, openLoop := decide (s.readbackOf n rb < 100000), readback := s.readbackOf n rb }) ∧
      ((s.lch n).compliance = true → s.loopMiss n (s.readbackOf n rb) ≤ 50000 → ∃ t, exec (.complianceClear n rb) s = .next t ∧
        islandOnly [] s t ∧ only t ∧ t.lch n = { s.lch n with compliance := false, openLoop := false, readback := s.readbackOf n rb }) ∧
      (s.supervised n = true → (s.lch n).fallback = false → 160000 < s.loopMiss n (s.readbackOf n rb) → ∃ u,
        exec (.mainPathFailure n rb) s = .next (u.event 0x0028 7 n [BitVec.ofNat 64 n.val]) ∧ islandOnly [] s u ∧ only u ∧
        u.lch n = { s.lch n with fallback := true, readback := s.readbackOf n rb } ∧ u.driveL n = s.driveL n ∧
        u.fget ⟨R.aoChnFaults n, 0, 16⟩ = satAdd 16 (s.fget ⟨R.aoChnFaults n, 0, 16⟩) 1) ∧
      (s.loopMiss n (s.readbackOf n rb) ≤ 160000 → exec (.mainPathFailure n rb) s = .next s) ∧
      (s.supervised n = true → (s.lch n).fallback = true → 320000 < s.loopMiss n (s.readbackOf n rb) → ∃ u,
        exec (.loopReadbackFault n rb) s = .next (u.event 0x002A 7 n [BitVec.ofNat 64 n.val]) ∧ islandOnly [] s u ∧ only u ∧
        (u.lch n).rbFault = true ∧ u.driveL n = 0 ∧
        u.fget ⟨R.aoChnFaults n, 16, 16⟩ = satAdd 16 (s.fget ⟨R.aoChnFaults n, 16, 16⟩) 1)) ∧
    (∀ (err : Vector Int 8) (fit : Vector (Option (Nat × Int × Int)) 8) (lap : Nat), s.island.on = true →
      (∀ m : Fin 8, (vget err m.val).natAbs ≤ 40000) → ∃ t, exec (.loopCalibration err fit lap) s = .next t ∧
      islandOnly [R.wfClcLast 6, R.wfClcLap 6, R.wfClcRuns 6, R.wfLate] s t ∧
      t.rd R.aoCalLast = BitVec.ofNat 32 s.time.tb3 ∧ t.rd (R.wfClcLap 6) = BitVec.ofNat 32 lap ∧
      (let trims (a b : W32) : Prop := t.rd (R.aoChnTrimLo n) = a ∧ t.rd (R.aoChnTrimHi n) = b
       let off := s.iget (F.aoChnCfg_en n.val) = 0 ∨ s.iget (F.aoChnCfg_calEn n.val) = 0
       let c := { s.lch n with rbAdj := if (vget err n.val).natAbs > 8000 then (s.lch n).rbAdj - vget err n.val else (s.lch n).rbAdj }
       let still := (s.lch n).calLimit = true ∨ (s.lch n).fallback = true ∨ (s.lch n).rbFault = true
       (off → t.lch n = s.lch n ∧ trims (s.rd (R.aoChnTrimLo n)) (s.rd (R.aoChnTrimHi n))) ∧
       (¬ off → (vget fit n.val = none ∨ still) → t.lch n = c ∧ trims (s.rd (R.aoChnTrimLo n)) (s.rd (R.aoChnTrimHi n))) ∧
       (∀ span lo hi, ¬ off → ¬ still → vget fit n.val = some (span, lo, hi) →
         let nowLo : BitVec 16 := (s.rd (R.aoChnTrimLo n)).setWidth 16
         let nowHi : BitVec 16 := (s.rd (R.aoChnTrimHi n)).setWidth 16
         let a := trimStep (s.lch n).factoryLo nowLo lo
         let b := trimStep (s.lch n).factoryHi nowHi (if span < 4000000 then nowHi.toInt + (lo - nowLo.toInt) else hi)
         (∀ x y, a = some x → b = some y → t.lch n = c ∧ trims (x.setWidth 32) (y.setWidth 32)) ∧
         ((a = none ∨ b = none) → t.lch n = { c with calLimit := true } ∧
           trims (s.rd (R.aoChnTrimLo n)) (s.rd (R.aoChnTrimHi n)))))) ∧
    (∀ (err : Vector Int 8) (fit : Vector (Option (Nat × Int × Int)) 8) (lap : Nat), s.island.on = true →
      s.iget (F.aoChnCfg_en n.val) ≠ 0 → s.iget (F.aoChnCfg_calEn n.val) ≠ 0 → 40000 < (vget err n.val).natAbs →
      (∀ m : Fin 8, m ≠ n → vget err m.val = 0 ∧ vget fit m.val = none) → ∃ t, exec (.loopCalibration err fit lap) s = .next t ∧
        (t.lch n).rbFault = true ∧ t.driveL n = 0 ∧
        t.fget ⟨R.aoChnFaults n, 16, 16⟩ = satAdd 16 (s.fget ⟨R.aoChnFaults n, 16, 16⟩) 1) ∧
    (∀ (m : Master) (mask : BitVec 8), s.writes m R.aoCtrl → ∃ t, exec (.aoRetest m mask) s = .next t ∧ islandOnly [] s t ∧
      t.lch n = if mask.getLsbD n.val then { s.lch n with fallback := false, rbFault := false } else s.lch n)

/-! The reflex plane. -/

/-- Passes (R137 to R142). With the chip running and the frame number counting, four engines in roles and none to join, a frame boundary
latches the mailbox, counts the frame and starts a frame pass, or lets it wait for the running one. An armed edge starts an event pass,
ends a running frame pass and is counted as an abort, or waits behind a running event pass and is counted; an edge that is not armed does
nothing. A pass runs, in each engine in a role, the program of that engine's active slot on its committed state image, from one snapshot of
the inputs, the acquisition events, the mailbox and the frame; where the CAT grants each engine its local and no word of its program is
bad, no engine's pass is marked and memory stands; no committed image changes. At its commit, where every engine has come to the same
image, in time, with no pass waiting, that image becomes the committed one of each engine in a role, its mailbox is passed on, the pass is
counted, and the island, if on and not silent, takes the Q values and votes for them. Without a pass a commit does nothing. A STANDBY
whose seal is missing marks its mailbox stale; no other module does. -/
def Obligations.ReflexPasses : Prop :=
  ∀ s : State, s.regsWf = true →
    let slot := s.fget F.rfxProgInfo_slot
    let roles := ∀ k : Fin 4, s.rfxSlot k.val < 4
    let good := ∀ e ∈ s.rfxRoles, s.catDecide clsRfx .fetch (rfxSlotBase e slot) = none ∧
      s.catDecide clsRfx .read (rfxSlotBase e slot) = none ∧ s.catDecide clsRfx .read (rfxLocal e + 0x4000) = none ∧
      s.catDecide clsRfx .write (rfxLocal e + 0x5000) = none ∧ s.badProgram e = none
    let starts (t : State) (event : Bool) : Prop := ∃ p, t.rfx.pass = some p ∧ p.event = event ∧ p.frame = t.frameNo ∧
      (good → p.bad = 0 ∧ t.mem = s.mem) ∧ ∀ e : Fin 4,
        (e.val ∈ s.rfxRoles → ∃ x, vget p.img e.val = rfxRun x (vget s.rfx.img e.val) (s.mem.rfxCode (rfxSlotBase e.val slot)) ∧
          x.i = s.diState ∧ x.a = s.acq.ev ∧ x.latch = t.rfx.latch ∧ x.frame = p.frame)
    (roles → s.power.rails = true → s.power.chip = true → s.rfxRuns = true → s.rfx.joining = [] → s.rfx.counting = true →
      ∃ t, exec .reflexFrameBoundary s = .next t ∧ t.rfx.latch = s.rfx.s2r ∧ t.frameNo = s.frameNo + 1 ∧
        t.rfx.img = s.rfx.img ∧ (s.rfx.pass = none → starts t false) ∧
        (s.rfx.pass.isSome = true → t.rfx.pass = s.rfx.pass ∧ t.rfx.framePend = true ∧ t.mem = s.mem)) ∧
    (∀ irise ifall arise afall : W32, s.rfxRuns = true →
      let n := popcount32 (irise &&& s.actv R.rfxArmIrise) + popcount32 (ifall &&& s.actv R.rfxArmIfall)
        + popcount32 (arise &&& s.actv R.rfxArmArise) + popcount32 (afall &&& s.actv R.rfxArmAfall)
      let i : Instr := .armedEventDispatch irise ifall arise afall
      (0 < n → s.rfx.pass = none → ∃ t, exec i s = .next t ∧ starts t true ∧ t.rfx.disp = s.time.tb1 ∧
        t.rfx.img = s.rfx.img ∧ (good → t = { s with rfx := t.rfx })) ∧
      (∀ p, 0 < n → s.rfx.pass = some p → p.event = false → ∃ t, exec i s = .next t ∧ starts t true ∧
        t.rfx.img = s.rfx.img ∧ t.rfx.disp = s.time.tb1 ∧ t.island = s.island ∧
        (t.rd R.rfxAborts).toNat = satAdd 32 (s.rd R.rfxAborts).toNat 1) ∧
      (∀ p, 0 < n → s.rfx.pass = some p → p.event = true → ∃ t, exec i s = .next t ∧
        t.rfx = { s.rfx with evPend := true, dispPend := t.rfx.dispPend } ∧
        (t.rd R.rfxWaits).toNat = satAdd 32 (s.rd R.rfxWaits).toNat n ∧ onlyRegs [R.rfxWaits] { s with rfx := t.rfx } t) ∧
      (n = 0 → exec i s = .next s)) ∧
    (∀ p m, roles → s.rfxRuns = true → s.rfxSlot 0 ≠ s.rfxSlot 1 → s.rfx.pass = some p → p.bad = 0 →
      (∀ e : Fin 4, vget p.img e.val = m) → s.rfx.evPend = false → s.rfx.framePend = false →
      ∃ t, exec (.passCommit (Vector.replicate 4 none) 0) s = .next t ∧
        (∀ e : Fin 4, vget t.rfx.img e.val = if s.rfxRoles.contains e.val then m else vget s.rfx.img e.val) ∧
        t.rfx.r2s = m.mb ∧ t.rfx.pass = none ∧ t.mem = s.mem ∧ t.rd64 R.rfxPassesLo = s.rd64 R.rfxPassesLo + 1 ∧
        (p.event = true → (t.rd R.rfxEvpasses).toNat = satAdd 32 (s.rd R.rfxEvpasses).toNat 1) ∧
        (s.island.on = true → s.island.silent = false → (∀ k : Fin 3, vget t.island.q k.val = some m.q) ∧
          ∀ n : Fin 32, t.vote n = m.q.getLsbD n.val)) ∧
    (∀ up late, s.rfx.pass = none → exec (.passCommit up late) s = .next s) ∧
    (s.mod = .standby → ∃ t, exec .mailboxStaleTimeout s = .next t ∧ t.fbit F.scanStatus_mbxStale = true ∧
      t.fbit F.rfxStatus_mbxStale = true ∧ onlyRegs [R.scanStatus, R.rfxStatus] s t) ∧
    (s.mod ≠ .standby → exec .mailboxStaleTimeout s = .next s)

/-- Engines (R144 to R147, R159), with three different ones in the slots and, if any, another as spare. At a commit where two slots agree
and the engine of slot 0 with neither, that engine goes to its self-test and its slot is empty, counted as disagreeing, the mailbox is
that of the two, and the island takes no Q value from the slot; where no two agree `NO_MAJORITY` is set, the mailbox is that of slot 0, and
the roles stand. At the next boundary the spare takes the one empty slot, counted. A self-test that fails, or the third transient within
86,400 s, retires the engine with its verdict; one that passes before that lets it join, and MC writes the active image from the active
bank into its slot in use and, where one is pending, the other bank's image into the other. A verdict on an engine that is not in its
self-test does nothing. Arming and return (R142, R163, R165, R166), written by a master that reaches the register: `ARM` acts in SERVICE
while disarmed and leaves the mailbox stale; `DISARM` acts in SERVICE while armed, ends the passes, and every reflex-bound output is
commanded to its safe value; otherwise each is ignored and counted (for `DISARM` while disarmed the model's choice, log entry 127). A
retired engine returns to its self-test in SERVICE with the key, else the write is ignored and counted. -/
def Obligations.ReflexEngines : Prop :=
  (
    ∀ s : State, s.Inv →
      let e (k : Nat) := s.rfxSlot k
      let placed := e 0 < 4 ∧ e 1 < 4 ∧ e 2 < 4 ∧ e 0 ≠ e 1 ∧ e 0 ≠ e 2 ∧ e 1 ≠ e 2 ∧ e 3 ≠ e 0 ∧ e 3 ≠ e 1 ∧ e 3 ≠ e 2
      (∀ (p : RPass) (up : Vector (Option RImage) 4) (late : BitVec 4), placed → s.rfx.pass = some p →
        let u (m : Nat) : RCommit :=
          { img := (vget up m).getD (vget p.img m), late := late.getLsbD m, bad := p.bad.getLsbD m }
        ((u (e 1)).agrees (u (e 2)) = true → (u (e 0)).agrees (u (e 1)) = false → (u (e 0)).agrees (u (e 2)) = false →
          ∃ t, exec (.passCommit up late) s = .next t ∧ t.enState (e 0) = 2 ∧ t.rfxSlot 0 = rfxNone ∧
            t.rfxSlot 1 = e 1 ∧ t.rfxSlot 2 = e 2 ∧ t.rfx.r2s = (u (e 1)).img.mb ∧
            (t.rd (R.rfxEnmDisagree (e 0))).toNat = satAdd 32 (s.rd (R.rfxEnmDisagree (e 0))).toNat 1 ∧
            (s.island.on = true → s.island.silent = false → vget t.island.q 0 = none)) ∧
        ((∀ a b : Fin 3, a ≠ b → (u (e a.val)).agrees (u (e b.val)) = false) →
          ∃ t, exec (.passCommit up late) s = .next t ∧ t.fbit F.rfxStatus_noMajority = true ∧
            t.rfx.r2s = (u (e 0)).img.mb ∧ (∀ k : Fin 4, t.rfxSlot k.val = e k.val))) ∧
      (∀ k : Fin 3, e k.val = rfxNone → (∀ j : Fin 3, j ≠ k → e j.val < 4) → e 3 < 4 → s.rfx.joining = [] →
        s.power.rails = true → s.power.chip = true → ∃ t, exec .reflexFrameBoundary s = .next t ∧
          t.rfxSlot k.val = e 3 ∧ t.rfxSlot 3 = rfxNone ∧ (∀ j : Fin 3, j ≠ k → t.rfxSlot j.val = e j.val) ∧
          (t.rd R.rfxReplace).toNat = satAdd 32 (s.rd R.rfxReplace).toNat 1) ∧
      (∀ m : Fin 4, s.enState m = 2 → s.rfx.joining.contains m.val = false → s.olc.carry = none →
        let recent := (s.time.tb3 :: vget s.rfx.trans m.val).filter (fun x => decide (s.time.tb3 < x + 86400))
        let image (bank : Nat) := bank + s.hRfxImg bank
        let size (bank : Nat) := (0x440 + 2 * min (s.mem.rfxLen (image bank)) 1024 + 7) / 8 * 8
        let slot := s.fget F.rfxProgInfo_slot
        let copied (t : State) (bank k : Nat) : Prop := ∀ i < size bank,
          t.mem.byte (rfxSlotBase m k + i) = s.mem.byte (image bank + i)
        (∃ t, exec (.reflexSelftestVerdict m false) s = .next t ∧ t.enState m = 3 ∧ t.fget (F.rfxEnmState_verdict m) = 2 ∧
          t.mem = s.mem ∧ ∃ r ∈ t.recd.raised, r.priv = true) ∧
        (3 ≤ recent.length → ∃ t, exec (.reflexSelftestVerdict m true) s = .next t ∧ t.enState m = 3 ∧
          t.fget (F.rfxEnmState_verdict m) = 3 ∧ t.fget (F.rfxEnmState_trans24 m) = 3 ∧ t.mem = s.mem) ∧
        (recent.length < 3 → ∃ t, exec (.reflexSelftestVerdict m true) s = .next t ∧ t.fget (F.rfxEnmState_verdict m) = 1 ∧
          t.fget (F.rfxEnmState_trans24 m) = recent.length ∧ t.rfx.joining = s.rfx.joining ++ [m.val] ∧
          (s.hRfxImg s.bank ≠ 0 → s.fbit F.rfxStatus_exchPend = false →
            copied t s.bank slot ∧ keepsMem (rfxSlotBase m slot) (size s.bank) s t) ∧
          (s.hRfxImg s.bank ≠ 0 → s.fbit F.rfxStatus_exchPend = true → s.hRfxImg s.idle ≠ 0 → image s.idle + 0x2000 ≤ 0x04800000 →
            copied t s.bank slot ∧ copied t s.idle (1 - slot)))) ∧
      (∀ (m : Fin 4) (pass : Bool), s.enState m ≠ 2 → exec (.reflexSelftestVerdict m pass) s = .next s)) ∧
  (
    ∀ (w : Master) (s : State), s.regsWf = true →
      let ignored (i : Instr) : Prop := ∃ t, exec i s = .next t ∧ onlyRegs [0x3010] s t ∧
        (t.rd 0x3010).toNat = satAdd 32 (s.rd 0x3010).toNat 1
      let armed := s.fbit F.rfxStatus_armed = true
      (s.writes w R.rfxCtrl →
        (s.mod = .service → ¬ armed → ∃ t, exec (.rfxArm w) s = .next t ∧ t.fbit F.rfxStatus_armed = true ∧
          t.fbit F.rfxStatus_mbxStale = true ∧ t.fbit F.scanStatus_mbxStale = true ∧
          t.rfx = { s.rfx with fresh := true, settle := 0 } ∧ t.island = { s.island with rfxStop := s.fbit F.rfxStatus_rfxStop }) ∧
        (s.mod = .service → armed → ∃ t, exec (.rfxDisarm w) s = .next t ∧ t.fbit F.rfxStatus_armed = false ∧ t.rfxRuns = false ∧
          t.rfx = { s.rfx with pass := none, evPend := false, framePend := false } ∧ t.island = { s.island with rfxStop := true } ∧
          ∀ n : Fin 32, s.isRfx n = true → t.commandD n = s.safeD n) ∧
        (s.mod ≠ .service ∨ armed → ignored (.rfxArm w)) ∧ (s.mod ≠ .service ∨ ¬ armed → ignored (.rfxDisarm w))) ∧
      (∀ v : W32, s.writes w R.rfxUnretire →
        let m := v.toNat % 4
        let right := s.mod = .service ∧ v.toNat / 65536 = 0x5EF1 ∧ s.enState m = 3
        (right → ∃ t, exec (.rfxUnretire w v) s = .next t ∧ t.enState m = 2 ∧ t.fget (F.rfxEnmState_trans24 m) = 0 ∧
          vget t.rfx.trans m = [] ∧ ∃ r ∈ t.recd.raised, r.priv = true) ∧
        (¬ right → ignored (.rfxUnretire w v))))

/-- The reflex instructions (R148 to R156): LD, LDN, AND, OR and XOR combine ACC with the operand; ST on a Q bit writes that bit alone, and
SET and RST with ACC 0 do nothing; RISE and FALL, outside a settled flag, find a change of ACC against the flag, and RISE leaves ACC in
that flag alone; PUSH and then POP restore ACC and the stack; TON leaves ACC set where ACC was and the elapsed frames reach the preset;
CTU counts on the rise of ACC alone, and not beyond 2^31 - 1. What the load checks assure (R150, R158): a program that passes them never
changes an output that is not bound to the reflex plane, and its stack never holds more than the depth found, at most 16. -/
def Obligations.ReflexInstructions : Prop :=
  (
    ∀ (x : RCtx) (w : RWork) (sp idx : Nat), sp < 8 → idx < 512 →
      let word (op : Nat) := op * 4096 + sp * 512 + idx
      let b := x.operand w.img sp idx
      rfxStep x w (word 1) = { w with acc := b } ∧ rfxStep x w (word 2) = { w with acc := !b } ∧
      rfxStep x w (word 3) = { w with acc := w.acc && b } ∧ rfxStep x w (word 5) = { w with acc := w.acc || b } ∧
      rfxStep x w (word 7) = { w with acc := w.acc != b } ∧
      (sp = 3 → idx < 32 → ∀ k < 32, (rfxStep x w (word 8)).img.q.getLsbD k = if k = idx then w.acc else w.img.q.getLsbD k) ∧
      (sp = 3 → w.acc = false → rfxStep x w (word 10) = w ∧ rfxStep x w (word 11) = w) ∧
      (x.settle.getLsbD idx = false → (rfxStep x w (0xC000 + idx)).acc = (w.acc && !w.img.f.getLsbD idx) ∧
        (rfxStep x w (0xC800 + idx)).acc = (!w.acc && w.img.f.getLsbD idx) ∧
        ∀ k < 512, (rfxStep x w (0xC000 + idx)).img.f.getLsbD k = if k = idx then w.acc else w.img.f.getLsbD k) ∧
      rfxStep x (rfxStep x w 0xD000) 0xD100 = w ∧
      (idx < 64 → let t := vget w.img.t idx
        (rfxStep x w (0xE000 + idx)).acc =
          (w.acc && decide (x.presetT idx ≤ if t.run then min (x.frame - t.start).toNat 0x7FFFFFFF else 0))) ∧
      (idx < 64 → let c := vget w.img.c idx
        (vget (rfxStep x w (0xE000 + 4 * 512 + idx)).img.c idx).count =
          if w.acc = true ∧ c.prev = false then BitVec.ofInt 32 (min (c.count.toInt + 1) (2 ^ 31 - 1)) else c.count)) ∧
  (
    ∀ (bind dir : W32) (code : List Nat) (top : Nat), rfxScan bind dir 0 0 0 code = .inr top → top ≤ 16 ∧
      ∀ (x : RCtx) (m : RImage),
        (∀ n < 32, bind.getLsbD n = false → (rfxRun x m code).q.getLsbD n = m.q.getLsbD n) ∧
        (∀ k ≤ code.length, ((code.take k).foldl (rfxStep x) { img := m }).stk.length ≤ top))

/-! The pair. -/

/-- The primacy latch (R197, R198), on a module whose chip runs: an asserted `CLAIM` takes a free latch at once and, from a silent holder, by a
transfer; from another holder, with no hand-over at its boundary, it is refused and counted, and a STANDBY enters SYNCING. Of two claims on
a free latch slot A's takes it, and a claim of the partner's takes a free latch. What this module drops passes to a partner that asserts
`READY` or `CLAIM`, else to none: its digital outputs are off, its loops are driven on as they were in a transfer and off otherwise, and a
PRIMARY enters SYNCING. What the partner drops passes here where `READY` or `CLAIM` stands, else to none. Reflex silence of the holder
transfers it to a `READY` partner and does nothing but be noted without one; a parted connector counts as a drop of its slot. -/
def Obligations.PrimacyLatch : Prop :=
  ∀ s : State, s.regsWf = true → s.power.chip = true →
    let here := some s.slot
    let there := some s.other
    let claim := s.fbit F.pairStatus_claim = true
    let ready := s.fbit F.pairStatus_ready = true
    let passed : Option Slot := if s.bogie.pReady = true ∨ s.bogie.pClaim = true then there else none
    let gone (t : State) (next : Option Slot) : Prop := t.token = false ∧ t.fbit F.pairStatus_claim = false ∧ t.bogie.holder = next ∧
      t.bogie.rising = next ∧ ∀ n : Fin 32, t.driveD n = none ∧ (n.val < 8 → t.driveL n = if next = none then 0 else s.driveL n)
    let coming (t : State) : Prop := t.bogie.holder = here ∧ t.bogie.rising = here ∧ t.token = s.token ∧ t.mod = s.mod
    (∀ silent, claim → s.bogie.holder = none → ∃ t, exec (.claimAssert s.slot false silent) s = .next t ∧ t.token = true ∧
      t.bogie = { s.bogie with holder := here } ∧ t.mod = s.mod ∧ t.mem = s.mem) ∧
    (claim → s.bogie.holder = there → ∃ t, exec (.claimAssert s.slot false true) s = .next t ∧ coming t ∧ t.pair.incoming = 1) ∧
    (claim → s.bogie.holder = there → s.pair.handoverIn = false → ∃ t, exec (.claimAssert s.slot false false) s = .next t ∧
      t.bogie.holder = there ∧ t.fbit F.pairStatus_claim = false ∧ t.token = s.token ∧
      (t.rd R.pairClaimRef).toNat = satAdd 32 (s.rd R.pairClaimRef).toNat 1 ∧ (s.mod = .standby → t.mod = .syncing)) ∧
    (claim → s.bogie.holder = none → ∃ t, exec (.claimAssert s.slot true false) s = .next t ∧ t.bogie.holder = some .a ∧
      (s.slot = .a → t.token = true) ∧ (s.slot = .b → t.token = s.token)) ∧
    (s.bogie.holder = none → exec (.claimAssert s.other false false) s =
      .next { s with bogie := { s.bogie with pClaim := true, holder := there } }) ∧
    (s.bogie.holder = here → ∃ t, exec (.claimDrop s.slot) s = .next t ∧ gone t passed ∧
      (s.mod = .primary → t.mod = .syncing) ∧
      (s.olc.carry = none → t.mem = s.mem)) ∧
    (s.bogie.holder ≠ here → ∃ t, exec (.claimDrop s.slot) s = .next t ∧ fieldSet F.pairStatus_claim 0 s t ∧
      onlyRegs [R.pairStatus] s t) ∧
    (s.bogie.holder = there → (ready ∨ claim) → ∃ t, exec (.claimDrop s.other) s = .next t ∧ coming t ∧ t.bogie.pClaim = false) ∧
    (s.bogie.holder = there → ¬ ready → ¬ claim → exec (.claimDrop s.other) s =
      .next { s with bogie := { s.bogie with pClaim := false, holder := none } }) ∧
    (s.bogie.holder = there → ready → ∃ t, exec (.rfxSilent s.other) s = .next t ∧ coming t ∧ t.pair.incoming = 2) ∧
    (s.island.on = true → s.fbit F.rfxStatus_armed = true → s.bogie.holder = here → s.bogie.pReady = true →
      ∃ t, exec (.rfxSilent s.slot) s = .next t ∧ gone t there) ∧
    (s.island.on = true → s.fbit F.rfxStatus_armed = true → s.bogie.pReady = false →
      exec (.rfxSilent s.slot) s = .next { s with bogie := { s.bogie with rfxSilent := true } }) ∧
    (s.bogie.holder = here → ∃ t, exec (.connectorParts s.slot) s = .next t ∧ gone t passed ∧ t.bogie.lanes = 0) ∧
    (s.bogie.holder = there → (ready ∨ claim) → ∃ t, exec (.connectorParts s.other) s = .next t ∧ coming t ∧ t.pair.incoming = 1 ∧
      t.bogie.lanes = 0) ∧
    (s.bogie.holder ≠ there → ∃ t, exec (.connectorParts s.other) s = .next t ∧ onlyRegs [R.pairStatus] { s with bogie := t.bogie } t ∧
      t.bogie = { s.bogie with lanes := 0, retrain := false, pClaim := false, pReady := false } ∧
      t.fget F.pairStatus_lanes = 0)

/-- The rise of `TOKEN` (R198, R212, R216 to R218): the module drives from its mirror with its loops ramping up and no scan command published;
the gap shown is 4.45 µs through `RFX_SILENT` and at most 1.45 µs otherwise; a STANDBY drops `READY` and becomes PRIMARY, at once after a
hand-over, else with a takeover to prepare, and ALONE where its partner is lost; a module in another state keeps it. The partner's rise
lets the loops of this island ramp down. With no token rising nothing happens. The takeover's start, on a PRIMARY with no service request,
no carry-over and no verdict waiting, leaves the step where no F boundary has been missed, and else freezes its cycle. The ramp of the loops
ends. Heartbeats and roles (R203, R212, R215, R226, R458): a heartbeat tells state, token, cycle, scan time and score, and what is heard is
noted; with no score forced to 0 a PRIMARY or STANDBY stays so, and a module ALONE becomes PRIMARY. A path that falls silent is counted;
with the other silent too the partner is lost: a PRIMARY that is not at its copy is ALONE, a STANDBY claims. A module in CONFIG decides its
role once: SYNCING, waiting, or `CLAIM`. A watchdog trip of the partner stops a STANDBY, which keeps `READY` where nothing forbids it. The
partner's request and the switch command ask for a hand-over on a PRIMARY with a `READY` partner; the leave command and the
resynchronisation demand take a STANDBY to SYNCING; the commands are otherwise ignored and counted, the demand ignored, and before
`CFG_DONE` in the first second counted. -/
def Obligations.TokenAndRoles : Prop :=
  (
    ∀ (ahead : Vector Nat 2) (s : State), s.regsWf = true →
      (s.bogie.rising = some s.slot → ∃ t, exec (.tokenRise ahead) s = .next t ∧ t.token = true ∧ t.bogie.rising = none ∧
        t.bogie.ramp = .up ∧ t.island.useMirror = true ∧ t.scan.pub = none ∧
        (if s.pair.incoming = 2 then (t.rd R.pairLastRgap).toNat = 4450 else (t.rd R.pairLastRgap).toNat ≤ 1450) ∧
        (s.mod = .standby → t.mod = (if s.pair.handoverIn = false ∧ s.partner = .off then .alone else .primary) ∧
          t.fbit F.pairStatus_ready = false ∧
          (s.pair.handoverIn = false → t.pair.takeover = true ∧ t.pair.staged = [] ∧ t.scan.step = .idle) ∧
          (s.pair.handoverIn = true → t.pair.takeover = s.pair.takeover ∧ t.pair.handoverIn = false)) ∧
        (s.mod ≠ .standby → t.mod = s.mod)) ∧
      (s.bogie.rising = none → exec (.tokenRise ahead) s = .next s) ∧
      (s.bogie.rising = some s.other → s.bogie.ramp = .driving → ∃ t, exec (.tokenRise ahead) s = .next t ∧
        t.bogie = { s.bogie with rising := none, ramp := .down, rampAt := s.time.tb1 } ∧ islandOnly [] { s with bogie := t.bogie } t) ∧
      (s.pair.takeover = true → s.mod = .primary → s.takeoverPlan = none → ∃ t, exec (.takeoverStart ahead) s = .next t ∧
        t.pair.takeover = false ∧ t.mod = .primary ∧ t.scan.step = s.scan.step) ∧
      (∀ p, s.pair.takeover = true → s.mod = .primary → s.scan.run = .running → s.scan.service = none → s.olc.carry = none →
        s.brm.retireReq = [] → s.takeoverPlan = some p → ∃ t, exec (.takeoverStart ahead) s = .next t ∧
        t.scan.step = .freeze) ∧
      (s.pair.takeover = false → exec (.takeoverStart ahead) s = .next s) ∧
      ((s.bogie.ramp = .up ∨ s.bogie.ramp = .down) → ∃ t, exec .loopRampEnd s = .next t ∧
        t.bogie = { s.bogie with ramp := .steady, rampEnd := some s.time.tb1 } ∧ t.island = s.island ∧
        islandOnly [] { s with bogie := t.bogie } t)) ∧
  (
    ∀ s : State, s.regsWf = true →
      let ignored (i : Instr) : Prop := ∃ t, exec i s = .next t ∧ onlyRegs [0x5010] s t ∧
        (t.rd 0x5010).toNat = satAdd 32 (s.rd 0x5010).toNat 1
      let leaves (i : Instr) : Prop := ∃ t, exec i s = .next t ∧ t.mod = .syncing ∧ t.fbit F.pairStatus_ready = false ∧
        t.mem = s.mem ∧ ∃ m ∈ t.pair.msgs, m.body = .resyncRequest
      let asks (i : Instr) (trigger : Nat) : Prop := ∃ t, exec i s = .next t ∧ t.pair.handover = some trigger ∧
        t.fbit F.pairStatus_handover = true ∧ t.mod = .primary ∧ keepsRegs [R.pairStatus] s t ∧ t.mem = s.mem
      (s.power.chip = true → s.fbit F.pwrStatus_cfgDone = true → s.leftPair = false → s.linkUp →
        ∃ t h, exec .heartbeatSend s = .next t ∧ t.out = s.out ++ [.heartbeat h] ∧ h.state = s.mod ∧ h.token = s.token ∧
          h.cycle = s.rd64 R.scanCycleLo ∧ h.sealed = s.pair.lastSealed ∧ h.scanTime = s.scanTime ∧
          h.score = s.fget F.pairHealth_own ∧ t.bogie = { s.bogie with alive := !s.bogie.alive } ∧ t.regs = s.regs) ∧
      (∀ (h : Heartbeat) (alive : Bool), s.power.chip = true → s.mod = .primary ∨ s.mod = .standby → s.pair.forced = [] → h.score < 1024 →
        ∃ t, exec (.heartbeatRx (some h) alive) s = .next t ∧ t.partner = h.state ∧ t.pair.heard = h ∧
          t.pair.heardAt = s.time.tb1 ∧ t.fbit F.pairStatus_dbUp = true ∧ t.fget F.pairHealth_partner = h.score ∧
          (alive = true → t.fbit F.pairStatus_aliveUp = true) ∧ t.mod = s.mod ∧ t.mem = s.mem ∧
          (s.mod = .standby → h.state = .primary → t.scanTime = h.scanTime)) ∧
      (∀ alive h, s.power.chip = true → s.mod = .alone → s.pair.forced = [] → ∃ t, exec (.heartbeatRx (some h) alive) s = .next t ∧ t.mod = .primary) ∧
      (∀ db : Bool, let f (d : Bool) := if d then F.pairStatus_dbUp else F.pairStatus_aliveUp
        let misses : Field := ⟨R.pairHbMiss, if db then 0 else 16, 16⟩
        s.power.chip = true → s.fbit (f db) = true →
        (s.fbit (f !db) = true → ∃ t, exec (.pathSilent db) s = .next t ∧ t.fbit (f db) = false ∧ t.pair = s.pair ∧
          t.fget misses = satAdd 16 (s.fget misses) 1 ∧ keepsRegs [R.pairStatus, R.pairHbMiss] s t) ∧
        (s.fbit (f !db) = false → (s.mod = .standby ∨ (s.mod = .primary ∧ s.scan.step ≠ .copy ∧ s.scan.step ≠ .awaitSeal)) →
          ∃ t, exec (.pathSilent db) s = .next t ∧ t.partner = .off ∧ t.pair.msgs = [] ∧ t.mem = s.mem ∧
            t.mod = (if s.mod = .primary then .alone else .standby) ∧ (s.mod = .standby → t.fbit F.pairStatus_claim = true))) ∧
      (s.mod = .config → s.fbit F.pwrStatus_cfgDone = true → s.power.roleDone = false → s.pair.startReq223 = false →
        let heard := s.fbit F.pairStatus_dbUp = true ∨ s.fbit F.pairStatus_aliveUp = true
        (heard → (s.partner = .primary ∨ s.partner = .alone) → ∃ t, exec .roleDecision s = .next t ∧ t.mod = .syncing ∧
          t.power.roleDone = true ∧ ∃ m ∈ t.pair.msgs, m.body = .resyncRequest) ∧
        (heard → (s.partner = .service ∨ s.partner = .stopped) →
          exec .roleDecision s = .next { s with power := { s.power with roleOpen := true } }) ∧
        (¬ heard → s.fbit F.sysCfgStatus_refused = false → ∃ t, exec .roleDecision s = .next t ∧ fieldSet F.pairStatus_claim 1 s t ∧
          keepsRegs [R.pairStatus] s t ∧ t.power = { s.power with roleDone := true, roleOpen := false })) ∧
      (∀ id cls, s.fresh id → s.mod = .standby → ∃ t, exec (.tripNoticeRx id cls) s = .next t ∧ t.mod = .stopped ∧
        t.scan.run = .tripped ∧ t.fbit F.pairStatus_ready = s.mayReady ∧ t.pair.staged = [] ∧ t.fget F.scanStatus_runstate = 2) ∧
      (∀ id, s.fresh id → s.mod = .primary → s.bogie.pReady = true → asks (.handoverRequestRx id) 5) ∧
      (s.mod = .primary → s.bogie.pReady = true → ∀ m, s.writes m R.pairCtrl → asks (.pairCtrlSwitch m 0x5A17) 3) ∧
      (∀ m key, s.writes m R.pairCtrl → ((key ≠ 0x5A17 ∨ s.bogie.pReady = false) → ignored (.pairCtrlSwitch m key)) ∧
        ((key ≠ 0x5A17 ∨ s.mod ≠ .standby) → ignored (.pairLeave m key))) ∧
      (s.mod = .standby → (∀ m, s.writes m R.pairCtrl → leaves (.pairLeave m 0x5A17)) ∧
        (s.fbit F.pwrStatus_firstSec = false → leaves .resyncDemandRx)) ∧
      (s.mod ≠ .standby → s.fbit F.pwrStatus_firstSec = false → exec .resyncDemandRx s = .next s) ∧
      (s.power.chip = true → s.fbit F.pwrStatus_firstSec = true → s.fbit F.pwrStatus_cfgDone = false → ignored .resyncDemandRx))

/-- The island link and the levers (R196, R200): an island without the token and without a fault keeps what it hears as its mirror, one with
the token does not. A fault is shown and recorded, and without the token the mirror takes the sealed outputs and, on reflex-bound channels,
the own vote; its end is shown and recorded. An open lever ends a hold-up measurement; a PRIMARY with a `READY` partner asks for a
hand-over, one without asks for none, and a STANDBY drops `READY`; the partner's lever is shown and its `READY` taken as gone. A closed
lever is shown, and a STANDBY that nothing forbids it asserts `READY` again. The Drawbar (R201, R202): the link retrains on the lanes that
remain; a returning lane takes traffic, and where there was none, or the retrain has ended, the messages not acknowledged are sent again in
the order of their priority. An acknowledgement ends a message. With MC running, a forwarded item, command or reply, a trip notice or a
hand-over request acted on before is only acknowledged again, and one before `CFG_DONE` is ignored and counted. -/
def Obligations.Links : Prop :=
  (
    ∀ s : State, s.regsWf = true →
      (∀ (d : W32) (l : Vector Nat 8), s.token = false → s.island.on = true → s.bogie.linkFault = false →
        exec (.islandLinkFrameRx d l) s = .next { s with island := { s.island with mirror := d, mirrorL := l } }) ∧
      (∀ (d : W32) (l : Vector Nat 8), s.token = true → exec (.islandLinkFrameRx d l) s = .next s) ∧
      (s.up = true → s.bogie.linkFault = false → ∃ t r, exec .islandLinkFault s = .next t ∧ t.bogie = { s.bogie with linkFault := true } ∧
        fieldSet F.pairStatus_islLink 1 s t ∧ keepsRegs [R.pairStatus] s t ∧ t.recd.raised = s.recd.raised ++ [r] ∧
        (s.token = true → t.island = s.island) ∧
        (s.token = false → ∀ n : Fin 32, t.island.mirror.getLsbD n = if s.isRfx n then s.vote n else s.scanCmd.dig.getLsbD n)) ∧
      (s.bogie.linkFault = true → ∃ t r, exec .islandLinkReturn s = .next t ∧ t.bogie = { s.bogie with linkFault := false } ∧
        fieldSet F.pairStatus_islLink 0 s t ∧ keepsRegs [R.pairStatus] s t ∧ t.recd.raised = s.recd.raised ++ [r] ∧
        t.island = s.island) ∧
      (s.power.chip = true → s.fbit F.pairStatus_lever = false →
        ((s.mod = .primary ∨ s.mod = .standby) → ∃ t, exec (.leverOpen true) s = .next t ∧ t.fbit F.pairStatus_lever = true ∧
          t.fbit F.wfStatus_holdupRun = false ∧ t.mod = s.mod ∧ keepsRegs [R.pairStatus, R.wfStatus, R.wfClcPreempt 10] s t ∧
          (s.mod = .standby → t.fbit F.pairStatus_ready = false) ∧
          (s.mod = .primary → s.bogie.pReady = true → t.pair.handover = some 4 ∧ t.fbit F.pairStatus_handover = true) ∧
          (s.mod = .primary → s.bogie.pReady = false → t.pair = s.pair))) ∧
      (s.power.chip = true → s.fbit F.pairStatus_pLever = false → ∃ t, exec (.leverOpen false) s = .next t ∧
        fieldSet F.pairStatus_pLever 1 s t ∧ t.bogie = { s.bogie with pReady := false } ∧ keepsRegs [R.pairStatus, R.wfStatus, R.wfClcPreempt 10] s t ∧
        t = { s with regs := t.regs, bogie := t.bogie }) ∧
      (s.power.chip = true → s.fbit F.pairStatus_lever = true → ∃ t, exec (.leverClose true) s = .next t ∧
        t.fbit F.pairStatus_lever = false ∧ onlyRegs [R.pairStatus] s t ∧ (s.mod = .standby → t.mayReady = true → t.fbit F.pairStatus_ready = true)) ∧
      (s.power.chip = true → s.fbit F.pairStatus_pLever = true → ∃ t, exec (.leverClose false) s = .next t ∧
        fieldSet F.pairStatus_pLever 0 s t ∧ onlyRegs [R.pairStatus] s t)) ∧
  (
    ∀ s : State, s.regsWf = true →
      let bodies := ([1, 4, 5].flatMap (fun p => s.pair.msgs.filter (fun m => m.body.prio == p))).map (·.body)
      (∀ lane : Fin 4, s.power.chip = true →
        (s.bogie.lanes.getLsbD lane = true → ∃ t, exec (.drawbarLaneLoss lane) s = .next t ∧
          (∀ k : Fin 4, t.bogie.lanes.getLsbD k = (s.bogie.lanes.getLsbD k && k != lane)) ∧
          t.bogie.retrain = decide (t.bogie.lanes ≠ 0) ∧ t.fget F.pairStatus_lanes = laneCount t.bogie.lanes ∧
          keepsRegs [R.pairStatus] s t ∧ t.out = s.out ∧ t.pair = s.pair) ∧
        (s.bogie.lanes.getLsbD lane = false → ∃ t, exec (.drawbarLaneReturn lane) s = .next t ∧
          (∀ k : Fin 4, t.bogie.lanes.getLsbD k = (s.bogie.lanes.getLsbD k || k == lane)) ∧ t.bogie.retrain = s.bogie.retrain ∧
          t.fget F.pairStatus_lanes = laneCount t.bogie.lanes ∧ keepsRegs [R.pairStatus] s t ∧ t.pair = s.pair ∧
          t.out = s.out ++ if s.bogie.lanes = 0 ∧ s.bogie.retrain = false then bodies else [])) ∧
      (s.bogie.retrain = true → s.bogie.lanes ≠ 0 → exec .drawbarRetrainDone s =
        .next { s with bogie := { s.bogie with retrain := false }, out := s.out ++ bodies }) ∧
      (∀ m ∈ s.pair.msgs, s.linkUp → (∀ x ∈ s.pair.msgs, x.id = m.id → x = m) →
        exec (.drawbarMsgRepeat m.id) s = .next { s with out := s.out ++ [m.body] }) ∧
      (∀ id, (∀ m ∈ s.pair.msgs, m.id ≠ id) → exec (.drawbarMsgRepeat id) s = .next s) ∧
      (∀ id, ∃ t, exec (.drawbarAckRx id) s = .next t ∧ t.pair = { s.pair with msgs := s.pair.msgs.filter (fun m => m.id ≠ id) } ∧
        t.mem = s.mem) ∧
      (∀ id, s.up = true → s.fbit F.sysStatus_mcRun = true → ∀ i : Instr, ((∃ c, i = .tripNoticeRx id c) ∨ i = .handoverRequestRx id ∨
          (∃ o a d, i = .configForwardRx id o a d) ∨ (∃ r d, i = .forwardedCommandRx id r d) ∨
          (∃ r x y d, i = .forwardedReplyRx id r x y d)) →
        (s.fbit F.pwrStatus_cfgDone = true → s.pair.seen.contains id = true → s.linkUp →
          exec i s = .next { s with out := s.out ++ [.drawbarAck id] }) ∧
        (s.fbit F.pwrStatus_cfgDone = false → ∃ t, exec i s = .next t ∧ onlyRegs [0x5010] s t ∧
          (t.rd 0x5010).toNat = satAdd 32 (s.rd 0x5010).toNat 1)))

/-- The seal of the sending side (R205 to R207), with no package ARMED: at the end of a copy no block of which was refused, every dirty block
sent and none held by a window commit, the seal record follows with the cycle, the number of blocks, their CRC and the forces, and the
cycle waits for its acknowledgement; at the end of its term, or while the Drawbar carries nothing, the cycle completes unsealed and counted,
and the third in a row demands a resynchronisation. The receiving side (R206 to R208), on a STANDBY after the first second: a block is
staged, the first of another copy in place of what a copy without a record left; a copy whose count or CRC does not match its record is
discarded without an acknowledgement; one that matches, granted by the CAT, in a memory without bad words, and with a record that carries no
sweep unit, no GO, no trip and the module's own outcome, is acknowledged and applied whole with cycle, forces and mailbox. The
acknowledgement (R207), after the first second: the blocks of the sealed cycle are clean, every other dirty bit stays, and the F-cycle is
complete; one of another cycle changes nothing. -/
def Obligations.Seals : Prop :=
  (
    ∀ s : State, s.regsWf = true → s.seals = true → s.fget F.olcStatus_pkgState ≠ 5 →
      (s.scan.step = .copy → s.pair.refused = false → s.linkUp → s.copyWaits = false → (∀ e ∈ s.pair.dirty, s.pair.inFlight.has e.1 = true) →
        ∃ t r, exec .copyEnd s = .next t ∧ Out.sealRec r ∈ t.out ∧ r.cycle = s.rd64 R.scanCycleLo ∧ r.blocks = s.pair.copyN ∧
          r.crc = s.pair.copyCrc ∧ r.go = false ∧ r.forces = s.olc.forces ∧ t.pair.sealPending = some r.cycle ∧
          t.scan.step = .awaitSeal ∧ t.rd R.pairCopyLast = BitVec.ofNat 32 (256 * s.pair.copyN) ∧ t.mem = s.mem) ∧
      ((s.scan.step = .awaitSeal ∨ (s.scan.step = .copy ∧ ¬ s.linkUp)) → (s.clsRun 0).due = false →
        ∃ t, exec .sealTimeout s = .next t ∧ (t.rd R.pairSealMiss).toNat = satAdd 32 (s.rd R.pairSealMiss).toNat 1 ∧
          t.pair.sealPending = none ∧ t.pair.inFlight = [] ∧ t.pair.dirty = s.pair.dirty ∧ t.scan.step = .idle ∧
          t.pair.unsealed = (if s.pair.unsealed < 2 then s.pair.unsealed + 1 else 0) ∧
          (2 ≤ s.pair.unsealed → s.linkUp → Out.resyncDemand ∈ t.out) ∧ t.mem = s.mem)) ∧
  (
    ∀ s : State, s.Inv → s.mod = .standby → s.fbit F.pwrStatus_firstSec = false →
      (∀ (cycle : W64) (blk : Nat) (data : List Byte), data.length = 256 →
        let old := if s.pair.stagedOf = cycle then s.pair.staged else []
        ∃ t, exec (.copyBlockRx cycle blk data) s = .next t ∧ wrote (s.stagePlace old.length) (leBytes 8 blk ++ data) s t ∧
          t = { s with mem := t.mem, pair := { s.pair with staged := old ++ [(blk, data)], stagedOf := cycle } }) ∧
      (∀ r : SealRec, s.copyOk r = false → ∃ t, exec (.sealRecordRx r) s = .next t ∧ t.pair.staged = [] ∧ t.mem = s.mem ∧
        t.pair.lastSeal = s.pair.lastSeal ∧ (∀ d, Out.sealAck r.cycle d ∈ t.out → Out.sealAck r.cycle d ∈ s.out)) ∧
      (∀ r : SealRec, s.copyOk r = true → s.copyGranted.2 = true → s.mem.poison = [] → s.mem.cpoison = [] → r.sweep = [] →
        (∀ e ∈ s.pair.staged, e.2.length = 256) → r.go = false → r.trip = false → r.package = s.olc.outcome → s.linkUp → ∃ t, exec (.sealRecordRx r) s = .next t ∧
          t.mem.bytes = (s.pair.staged.foldl (fun m e => m.write (e.1 * 256) e.2) s.mem).bytes ∧ t.pair.staged = [] ∧
          t.pair.lastSeal = r ∧ t.pair.lastSealed = r.cycle ∧ t.rd64 R.scanCycleLo = r.cycle ∧ t.olc.forces = r.forces ∧
          t.rfx.s2r = r.mailbox ∧ t.mod = .standby ∧ ∃ d, Out.sealAck r.cycle d ∈ t.out)) ∧
  (
    ∀ (cycle : W64) (digests : List (Nat × W64)) (s : State), s.regsWf = true → s.seals = true → s.scan.step = .awaitSeal →
      s.fbit F.pwrStatus_firstSec = false →
      (s.pair.sealPending = some cycle → (s.clsRun 0).due = false → swf (fun _ => false) s.pair.dirty = true →
        ∃ t, exec (.sealAckRx cycle digests) s = .next t ∧ t.pair.sealPending = none ∧ t.pair.inFlight = [] ∧
          (∀ b, t.pair.dirty.has b = (s.pair.dirty.has b && !(s.pair.inFlight.map (·.1)).contains b)) ∧
          t.pair.lastSealed = cycle ∧ t.pair.unsealed = 0 ∧ t.pair.handoverAcked = s.pair.handoverSent ∧ t.scan.step = .idle ∧
          (t.rd (R.scanChnCount 0)).toNat = satAdd 32 (s.rd (R.scanChnCount 0)).toNat 1 ∧ t.mem = s.mem) ∧
      (s.pair.sealPending ≠ some cycle → exec (.sealAckRx cycle digests) s = .next s))

/-- Resynchronisation, the sweep and agreement (R171, R210, R211, R221, R224, R343), Drawbar traffic other than messages after the first second.
A PRIMARY or ALONE module in a memory without bad words answers a request with the full copy (the active bank, the instance store and the
last item among it) and is PRIMARY; a module in SERVICE, CONFIG or BOOT does not take it. A SYNCING module takes a span byte for byte and
shows the share; no other takes an item. With no carry-over, a unit that was asked for is taken whole on a STANDBY, and where it does not
differ nothing is counted; the PRIMARY sends a unit of the sweep into which no window commits. An audit verdict waits for the boundary. With
MC running, a STANDBY arms its checked package as the PRIMARY does, and digests tell a PRIMARY whether the partner's rings differ. A
pair-wide plan without agreement in time is discarded whole and counted. -/
def Obligations.Resynchronisation : Prop :=
  ∀ s : State, s.Inv →
    (∀ id, s.fresh id → (s.mod = .primary ∨ s.mod = .alone) → s.linkUp → s.mem.poison = [] → ∃ t,
      exec (.resyncRequestRx id) s = .next t ∧ t.mod = .primary ∧ t.mem = s.mem ∧ Out.fullCopy .last ∈ t.out ∧
        (∀ a, a = s.bank ∨ a = 0x02000000 → ∃ n cells, Out.fullCopy (.span a n cells) ∈ t.out ∧
          ∀ e ∈ cells, e ∈ s.mem.bytes) ∧ t.pair.seen = id :: s.pair.seen) ∧
    (∀ id, (s.mod = .service ∨ s.mod = .config ∨ s.mod = .boot) → exec (.resyncRequestRx id) s = .next s) ∧
    (∀ (a n : Nat) (cells : List Host.Cell) (pct : Fin 101), s.mod = .syncing → s.fbit F.pwrStatus_firstSec = false →
      swf (fun _ => 0) cells = true →
      ∃ t, exec (.fullCopyRx (.span a n cells) pct) s = .next t ∧ t.fget F.pairSync_copyPct = pct ∧
        keepsRegs [R.pairSync] s t ∧
        ∀ x, t.mem.byte x = if a ≤ x ∧ x < a + n then sget (fun _ => 0) cells x else s.mem.byte x) ∧
    (∀ item pct, s.mod ≠ .syncing → s.fbit F.pwrStatus_firstSec = false → exec (.fullCopyRx item pct) s = .next s) ∧
    (∀ (unit : Nat) (data : List Byte), s.pair.asked.contains unit = true → data.length = 4096 → s.mod = .standby →
      s.olc.carry = none → s.fbit F.pwrStatus_firstSec = false →
      ∃ t, exec (.sweepUnitRx unit data) s = .next t ∧ wrote (unit * 4096) data s t ∧
        t.pair.asked.contains unit = false ∧
        (s.mem.bytesAt (unit * 4096) 4096 = data → t.mod = .standby ∧ t.rd R.pairDiverge = s.rd R.pairDiverge ∧
          t.rd R.pairBenign = s.rd R.pairBenign ∧ t.recd = s.recd)) ∧
    (∀ unit, s.mod = .primary → s.sweepUnits.contains unit = true → s.linkUp → s.olc.carry = none →
      s.commitSpan (unit * 4096) 4096 = false → s.fbit F.pwrStatus_firstSec = false → exec (.sweepUnitRequestRx unit) s =
      .next { s with out := s.out ++ [.sweepUnit unit (s.mem.bytesAt (unit * 4096) 4096)] }) ∧
    (∀ id chain mask, s.fresh id → s.mod = .primary → ∃ t, exec (.auditVerdictRx id chain mask) s = .next t ∧
      t = { s with brm := { s.brm with retireReq := s.brm.retireReq ++ [(chain, mask)] }
                   pair := { s.pair with seen := id :: s.pair.seen }, out := t.out }) ∧
    (∀ id, s.fresh id → s.fbit F.sysStatus_mcRun = true → s.mod = .standby → s.pkgState = pkgChecked →
      ∃ t, exec (.configForwardRx id 0x0A [] []) s = .next t ∧ t.pkgState = pkgArmed ∧ t.mem = s.mem) ∧
    (∀ id d0 d1, s.fresh id → s.fbit F.sysStatus_mcRun = true → s.mod = .primary → ∃ t, exec (.configForwardRx id 5 [d0, d1] []) s = .next t ∧
      t.fbit (F.hostPpStatus_peerDiff 0) = decide (d0 ≠ s.ringDigest 0) ∧
      t.fbit (F.hostPpStatus_peerDiff 1) = decide (d1 ≠ s.ringDigest 1) ∧ t.mem = s.mem) ∧
    (∀ b : Fin 22, s.mod = .standby → pairWide b = true → s.applyPend b = true → s.pair.agreed.contains b.val = false →
      ∃ t, exec (.agreementTimeout b) s = .next t ∧ t.applyPend b = false ∧ t.act = s.act ∧
        (t.rd R.pairAgreeFail).toNat = satAdd 32 (s.rd R.pairAgreeFail).toNat 1 ∧
        (∀ off, off / 0x1000 = b → isRws off = true → t.rd off = s.actv off))

/-! Acquisition, ring and CAN. -/

/-- Sampling (R265 to R273), while the engine is enabled. A sample instant, with no forced trigger and no disarm waiting, takes the 16
channels, an input beyond the range at its end value, numbers the sample, counts the samples in a row that meet each event's condition, and,
with factor 1, an empty sum and no capture, writes the enabled channels to the ring where they do not wrap. An event rises after its samples
in a row and falls past its hysteresis, and no other changes. The factor moves one step up with the write FIFO or the backlog at its level,
and down with the backlog an eighth of the ring below. The sequencer and captures (R274 to R277): a true condition, or the timer where it is
enabled and no condition is true, enters the state, which may go to IDLE at once and, where the state's actions say so and none is open,
opens a capture that is counted. The end of a capture leads to IDLE, or to state 0 where it re-arms. Control and calibration (R266, R268,
R277, R279, R280, R284), commands written by a master that reaches `ACQ_CTRL`: enabling starts the sample index at 0 with an empty history;
disabling in IDLE leaves every event 0 and no capture open; arming enters state 0 with the counters at 0; disarming and the forced trigger
are noted; each is ignored and counted in another state. The spare takes the place of the next channel in ascending order, and its return
from the last ends the lap. A skew measurement starts with no capture open, notes its windows, and ends with the skews; its lateness is
shown. -/
def Obligations.Acquisition : Prop :=
  (
    ∀ s : State, s.Inv →
      let evKeeps (n : Fin 32) (t : State) : Prop := ∀ m : Fin 32, m ≠ n → t.acq.ev.getLsbD m.val = s.acq.ev.getLsbD m.val
      (∀ (x : Vector (BitVec 16) 16) (ovr : BitVec 16), s.acqOn = true → s.power.chip = true → s.acq.force = false →
        s.acq.disarm = false → ∃ t, exec (.sampleInstant x ovr) s = .next t ∧ t.acq.n = s.acq.n + 1 ∧
          t.rd64 R.acqSampleLo = BitVec.ofNat 64 s.acq.n ∧ t.acq.ovr = ovr ∧ t.acq.ev = s.acq.ev ∧
          (∀ c : Fin 16, vget t.acq.x c.val = if ovr.getLsbD c.val = false then vget x c.val
            else if (vget x c.val).msb then 0x8000 else 0x7FFF) ∧
          (∀ n : Fin 32, vget t.acq.run n.val =
            if evTrue (t.evKind n) (t.evSample n) (t.evLevel n) then vget s.acq.run n.val + 1 else 0) ∧
          (let p := s.acq.wpos % ringSize
           let k := setBytes s.chmask
           s.acq.dec = 0 → s.acq.decNext = 0 → s.acq.captures = [] → s.acq.sum = Vector.replicate 16 0 → s.acq.sumN = 0 → p + k ≤ ringSize →
            t.acq.wpos = s.acq.wpos + k ∧ t.acq.gap = 0 ∧
            wrote (s.ringBase + p) ((chList s.chmask).flatMap (fun c => leBytes 2 (vget t.acq.x c).toNat)) s t)) ∧
      (s.acqOn = false → ∀ x ovr, exec (.sampleInstant x ovr) s = .next s) ∧
      (∀ n : Fin 32, s.acqOn = true →
        (s.acq.ev.getLsbD n = false → max 1 (s.aget (F.acqEvnCfg_confirm n)) ≤ vget s.acq.run n.val → s.evKind n ≠ 3 →
          ∃ t, exec (.thresholdEventChange n) s = .next t ∧ t.acq.ev.getLsbD n = true ∧ evKeeps n t ∧
            t = { s with acq := { s.acq with ev := t.acq.ev } }) ∧
        (s.acq.ev.getLsbD n = true → evFalse (s.evKind n) (s.evSample n) (s.evLevel n) (s.evHyst n) = true →
          ∃ t, exec (.thresholdEventChange n) s = .next t ∧ t.acq.ev.getLsbD n = false ∧ evKeeps n t ∧
            t = { s with acq := { s.acq with ev := t.acq.ev } }) ∧
        (s.acq.ev.getLsbD n = true → evFalse (s.evKind n) (s.evSample n) (s.evLevel n) (s.evHyst n) = false →
          exec (.thresholdEventChange n) s = .next s)) ∧
      (∀ fifo, s.acqOn = true → s.acq.decNext < 5 → (fifo = true ∨ decLevel (s.acq.decNext + 1) ≤ s.backlog) →
        exec (.decimationUp fifo) s = .next { s with acq := { s.acq with decNext := s.acq.decNext + 1 } }) ∧
      (s.acqOn = true → 0 < s.acq.decNext → s.backlog + ringSize / 8 < decLevel s.acq.decNext →
        exec .decimationDown s = .next { s with acq := { s.acq with decNext := s.acq.decNext - 1 } }) ∧
      (decLevel s.acq.decNext ≤ s.backlog → exec .decimationDown s = .next s)) ∧
  (
    ∀ s : State, s.regsWf = true → s.acqOn = true →
      let enters (m : Nat) (t : State) : Prop :=
        let act := (s.actv (R.acqStsAct m)).toNat
        t.seqState = (if bitN act 1 then 16 else m) ∧ t.acq.stepped = true ∧ t.acq.dwell = 0 ∧ t.mem = s.mem ∧
        (bitN act 0 = false → t.acq.captures.length = s.acq.captures.length) ∧
        (bitN act 0 = true → s.openCap = none → t.acq.captures.length = s.acq.captures.length + 1 ∧ t.openCap.isSome = true ∧
          t.fbit F.acqStatus_capturing = true ∧ (t.rd R.acqCaptures).toNat = satAdd 32 (s.rd R.acqCaptures).toNat 1)
      (∀ m, s.seqNext = some m → ∃ t, exec .sequencerStep s = .next t ∧ enters m t) ∧
      (s.seqNext = none → exec .sequencerStep s = .next s) ∧
      (s.seqState < 16 → s.acq.stepped = false → s.seqNext = none → s.aget (F.acqStsNext_toEn s.seqState) = 1 →
        fldN (s.actv (R.acqStsTimer s.seqState)).toNat 0 28 ≤ s.acq.dwell →
        ∃ t, exec .sequencerTimeout s = .next t ∧ enters (s.aget (F.acqStsNext_nextO s.seqState)) t) ∧
      (s.aget (F.acqStsNext_toEn s.seqState) = 0 → exec .sequencerTimeout s = .next s) ∧
      (∀ c, s.openCap = some c → c.stop ≤ s.acq.n →
        ((s.acq.disarm = true ∨ s.aget F.acqCfg_autoRearm = 0) → ∃ t, exec .captureEnd s = .next t ∧ t.openCap = none ∧
          t.seqState = 16 ∧ t.fbit F.acqStatus_capturing = false ∧ t.acq.captures.length = s.acq.captures.length ∧ t.mem = s.mem) ∧
        (s.acq.disarm = false → s.aget F.acqCfg_autoRearm = 1 → (s.actv (R.acqStsAct 0)) = 0 → ∃ t, exec .captureEnd s = .next t ∧
          t.openCap = none ∧ t.seqState = 0 ∧ t.fbit F.acqStatus_capturing = false)) ∧
      (s.openCap = none → exec .captureEnd s = .next s)) ∧
  (
    ∀ (m : Master) (s : State), s.regsWf = true →
      let ignored (i : Instr) : Prop := s.writes m R.acqCtrl → ∃ t, exec i s = .next t ∧ onlyRegs [0x8010] s t ∧
        (t.rd 0x8010).toNat = satAdd 32 (s.rd 0x8010).toNat 1
      let running := s.acqOn = true ∧ s.seqState < 16
      let idle := s.acqOn = true ∧ s.seqState = 16
      (s.writes m R.acqCtrl → s.fbit F.pwrStatus_cfgDone = true → s.acqOn = false → ∃ t, exec (.acqEnable m) s = .next t ∧ t.acqOn = true ∧ t.acq.n = 0 ∧
        t.acq.wpos = s.acq.wpos ∧ t.acq.segs = [] ∧ t.acq.ev = 0 ∧ t.rd64 R.acqSampleLo = 0 ∧ t.mem = s.mem ∧
        keepsRegs [R.acqStatus, R.acqSampleLo, R.acqSampleLo + 4] s t) ∧
      ((s.fbit F.pwrStatus_cfgDone = false ∨ s.acqOn = true) → ignored (.acqEnable m)) ∧
      (s.writes m R.acqCtrl → idle → ∃ t, exec (.acqDisable m) s = .next t ∧ t.acqOn = false ∧ t.acq.ev = 0 ∧ t.openCap = none ∧ t.mem = s.mem ∧
        keepsRegs [R.acqStatus, R.acqBacklog] s t) ∧
      (¬ idle → ignored (.acqDisable m) ∧ ignored (.acqArm m)) ∧
      (s.writes m R.acqCtrl → idle → s.actv (R.acqStsAct 0) = 0 → ∃ t, exec (.acqArm m) s = .next t ∧ t.seqState = 0 ∧
        (∀ k : Fin 4, t.rd (R.acqCntkValue k.val) = 0) ∧ keepsRegs (R.acqSeqState :: (List.range 4).map R.acqCntkValue) s t) ∧
      (s.writes m R.acqCtrl → running → exec (.acqDisarm m) s = .next { s with acq := { s.acq with disarm := true } } ∧
        exec (.acqForceTrig m) s = .next { s with acq := { s.acq with force := true } }) ∧
      (¬ running → ignored (.acqDisarm m) ∧ ignored (.acqForceTrig m)) ∧
      (∀ (c : Fin 16) lap, s.acqOn = true → c.val = s.onSpare.elim 0 (fun d => d.val + 1) → ∃ t,
        exec (.acqCalibration (some c) lap) s = .next t ∧ (∀ d : Fin 16, t.fbit ⟨R.acqChcStatus d.val, 1, 1⟩ = (c == d)) ∧
        onlyRegs ((List.range 16).map R.acqChcStatus) s t) ∧
      (∀ lap, s.acqOn = true → s.onSpare = some 15 → ∃ t, exec (.acqCalibration none lap) s = .next t ∧ t.onSpare = none ∧
        t.rd R.acqCalLast = BitVec.ofNat 32 s.time.tb3 ∧
        t.rd (R.wfClcLap 7) = BitVec.ofNat 32 lap ∧ (t.rd (R.wfClcRuns 7)).toNat = satAdd 32 (s.rd (R.wfClcRuns 7)).toNat 1 ∧
        onlyRegs ([R.acqCalLast, R.wfClcLast 7, R.wfClcLap 7, R.wfClcRuns 7, R.wfLate] ++ (List.range 16).map R.acqChcStatus) s t) ∧
      (s.acqOn = true → s.openCap = none → s.fbit F.acqStatus_inject = false → ∃ t, exec (.skewMeasurement .start) s = .next t ∧
        fieldSet F.acqStatus_inject 1 s t ∧ onlyRegs [R.acqStatus] s t) ∧
      (∀ len, s.acqOn = true → s.openCap = none → s.fbit F.acqStatus_inject = true → ∃ t,
        exec (.skewMeasurement (.window len)) s = .next t ∧ (s.acq.n, len) ∈ t.acq.windows ∧
        t = { s with acq := { s.acq with windows := t.acq.windows } }) ∧
      (∀ skew lap, s.acqOn = true → s.fbit F.acqStatus_inject = true → ∃ t, exec (.skewMeasurement (.fit skew lap)) s = .next t ∧
        (∀ c : Fin 16, t.rd (R.acqChcSkew c.val) = (vget skew c).setWidth 32) ∧ t.fbit F.acqStatus_skewLate = false ∧
        t.fbit F.acqStatus_inject = false ∧
        t.rd R.acqSkewLast = BitVec.ofNat 32 s.time.tb3 ∧ t.rd (R.wfClcLap 8) = BitVec.ofNat 32 lap ∧ t.mem = s.mem) ∧
      (s.acqOn = true → ∃ t, exec .skewLate s = .next t ∧ fieldSet F.acqStatus_skewLate 1 s t ∧ onlyRegs [R.acqStatus] s t))

/-- An exchange (R288, R289, R292, R295, R296), of a module that has joined its rings. Where none is open, the PRIMARY or ALONE module that holds
the token, with no takeover outstanding, numbers the exchange and sends its frames on all four ports; without the token nothing starts. The
master counts a frame with a bad FCS on its port and drops and counts one of another EtherType. A passive node does the same and forwards
both out of the other port of the ring; with no plan active it forwards a data frame, or, where the onward link is down, turns it back
with a mark in its flags. A copy of a planned segment whose check, layout and status are good counts for nothing on a ring that the station's
mask does not name (R287); the first on a named ring is taken; a later one only adds its ring, and is counted where it differs.
Stations and ports (R285, R286, R299 to R301). At the deadline of an open exchange a planned station that was heard stays ACTIVE, goes on
returning, is ACTIVE at the tenth exchange, or begins to return; one that was not heard is LOST at the third miss, or begins its return
again, and each miss is counted; one without a segment now stays as it is. A port goes down with one event, and comes up. A module in
CONFIG joins as a passive node, with its field-facing ports by its slot. Peer exchange (R304 to R306), enabled and after the first second: a
frame with a bad FCS is dropped and counted; of the one subscription that a frame matches, the first copy of a cycle enters it, begins its
return and completes it at the tenth, and a second copy adds its port; a period without a frame is counted, the third in a row makes an
ACTIVE subscription LOST, and a return begins again. -/
def Obligations.SilzoRing : Prop :=
  (
    ∀ s : State, s.regsWf = true → s.power.ringJoined = true →
      (s.token = true → s.ring.active = true → s.ring.closed = true → (s.mod = .primary ∨ s.mod = .alone) →
        s.pair.takeover = false → ∃ t,
        exec .ringExchangeStart s = .next t ∧ t.rd R.ringExch = s.rd R.ringExch + 1 ∧ t.ringMaster = true ∧ t.ring.closed = false ∧
        (∀ i, (t.segRx i).got = 0) ∧ t.out.length = s.out.length + 4 * t.exchangeFrames.length ∧
        (∀ (p : Fin 4) k f, t.exchangeFrames[k]? = some f → Out.ringFrame p (s.aget F.ringCfg_etype)
          (t.ringPayload (p / 2) (p % 2) k t.exchangeFrames.length f) ∈ t.out) ∧
        keepsRegs [R.ringExch, R.ringStatus] s t ∧ t.mem = s.mem) ∧
      (s.token = false → exec .ringExchangeStart s = .next s) ∧
      (∀ (p : Fin 4) (et : BitVec 16) (payload : List Byte), s.power.chip = true →
        (s.ringMaster = true → ∃ t, exec (.ringFrameRx p et false payload) s = .next t ∧ onlyRegs [R.ringPpErr p] s t ∧
          t.fget ⟨R.ringPpErr p, 0, 16⟩ = satAdd 16 (s.fget ⟨R.ringPpErr p, 0, 16⟩) 1) ∧
        (s.ringMaster = true → et.toNat ≠ s.aget F.ringCfg_etype → ∃ t, exec (.ringFrameRx p et true payload) s = .next t ∧
          onlyRegs [R.ringRxDrop] s t ∧ (t.rd R.ringRxDrop).toNat = satAdd 32 (s.rd R.ringRxDrop).toNat 1) ∧
        (s.ringMaster = false → s.fbit (F.ringPpStatus_link (otherPort p)) = true → ∃ t,
          exec (.ringFrameRx p et false payload) s = .next t ∧ t.out = s.out ++ [.badFrame (otherPort p) et.toNat payload] ∧
          t = { s with regs := t.regs, out := t.out } ∧ keepsRegs [R.ringPpErr p] s t ∧
          t.fget ⟨R.ringPpErr p, 0, 16⟩ = satAdd 16 (s.fget ⟨R.ringPpErr p, 0, 16⟩) 1) ∧
        (s.ringMaster = false → s.fbit (F.ringPpStatus_link (otherPort p)) = true → et.toNat ≠ s.aget F.ringCfg_etype → ∃ t,
          exec (.ringFrameRx p et true payload) s = .next t ∧ t.out = s.out ++ [.ringFrame (otherPort p) et.toNat payload] ∧
          t = { s with regs := t.regs, out := t.out } ∧ keepsRegs [R.ringRxDrop] s t ∧
          (t.rd R.ringRxDrop).toNat = satAdd 32 (s.rd R.ringRxDrop).toNat 1) ∧
        (et.toNat = s.aget F.ringCfg_etype → payload.take 2 = [1, 1] → s.ringMaster = false → s.ring.active = false →
          (s.fbit (F.ringPpStatus_link (otherPort p)) = true → exec (.ringFrameRx p et true payload) s =
            .next { s with out := s.out ++ [.ringFrame (otherPort p) et.toNat payload] }) ∧
          (s.fbit (F.ringPpStatus_link (otherPort p)) = false → ∃ t b, exec (.ringFrameRx p et true payload) s = .next t ∧
            t.out = s.out ++ [.ringFrame p et.toNat b] ∧ b.length = payload.length ∧
            (∀ i, i ≠ 2 → b[i]? = payload[i]?) ∧ (∀ x, payload[2]? = some x → b[2]? = some (x ||| 8)) ∧
            keepsRegs [R.ringPpErr p] s t))) ∧
      (∀ (port slice frame pos i : Nat) (cls : Cls) (g : RSegment) (st : RingStation),
        s.ring.plan.stations.find? (fun t => t.num == g.station) = some st → s.plannedSeg cls slice frame pos g = some i →
        i < s.ring.segs.length → g.icrcOk = true → g.layout = st.layout → bitN g.sstat 0 = true →
        let t := s.takeSegment port cls slice frame pos g
        let ring : BitVec 2 := if port < 2 then 1 else 2
        (ring &&& st.mask = 0 → t = s) ∧
        (∀ j, j ≠ i → t.segRx j = s.segRx j) ∧
        (ring &&& st.mask ≠ 0 → (s.segRx i).got = 0 → t.segRx i = { s.segRx i with got := ring, data := g.input } ∧
          t.rd R.ringCopyDiff = s.rd R.ringCopyDiff) ∧
        (ring &&& st.mask ≠ 0 → (s.segRx i).got ≠ 0 → t.segRx i = { s.segRx i with got := (s.segRx i).got ||| ring } ∧
          (t.rd R.ringCopyDiff).toNat = satAdd 32 (s.rd R.ringCopyDiff).toNat (bit (decide ((s.segRx i).data ≠ g.input)))))) ∧
  (
    ∀ s : State, s.regsWf = true →
      (s.ring.active = true → s.power.ringJoined = true → s.ring.closed = false →
        (s.ring.plan.stations.map (·.num)).Nodup → (∀ st ∈ s.ring.plan.stations, st.num < 256) →
        ∃ t, exec .exchangeDeadline s = .next t ∧ t.ring.closed = true ∧ t.mem = s.mem ∧ ∀ st ∈ s.ring.plan.stations,
          let n := st.num
          let now := s.stationState n
          let heard := (s.stationGot n).1 = true ∧ (s.stationGot n).2 ≠ 0
          let missed := (s.stationGot n).1 = true ∧ (s.stationGot n).2 = 0
          let ret := s.fget (F.ringStsState_retCnt n)
          let miss := s.fget (F.ringStsState_missCnt n)
          (heard → now = stActive → t.stationState n = stActive ∧ t.fget (F.ringStsState_missCnt n) = 0) ∧
          (heard → now = stReturning → ret < 9 → t.stationState n = stReturning ∧ t.fget (F.ringStsState_retCnt n) = ret + 1) ∧
          (heard → now = stReturning → 9 ≤ ret → t.stationState n = stActive) ∧
          (heard → (now = stAbsent ∨ now = stLost ∨ now = stMismatch) → t.stationState n = stReturning ∧
            t.fget (F.ringStsState_retCnt n) = 1) ∧
          (missed → now = stActive → miss < 2 → t.stationState n = stActive ∧ t.fget (F.ringStsState_missCnt n) = miss + 1) ∧
          (missed → now = stActive → 2 ≤ miss → t.stationState n = stLost ∧
            t.fget (F.ringStsState_losses n) = satAdd 16 (s.fget (F.ringStsState_losses n)) 1) ∧
          (missed → now = stReturning → t.stationState n = stReturning ∧ t.fget (F.ringStsState_retCnt n) = 0) ∧
          (missed → (t.rd (R.ringStsMiss n)).toNat = satAdd 32 (s.rd (R.ringStsMiss n)).toNat 1) ∧
          ((s.stationGot n).1 = false → t.stationState n = now)) ∧
      (s.ring.active = false → exec .exchangeDeadline s = .next s) ∧
      (∀ p : Fin 4, s.power.chip = true →
        (∃ t, exec (.ringPortDown p) s = .next t ∧ t.fbit (F.ringPpStatus_link p) = false ∧ t.fbit (F.ringPpStatus_down p) = true ∧
          keepsRegs [R.ringPpStatus p] s t ∧ t.ring = s.ring ∧
          t.recd.raised.length = s.recd.raised.length + bit (!s.fbit (F.ringPpStatus_down p)) ∧ t.mem = s.mem) ∧
        (∃ t, exec (.ringPortLinkUp p) s = .next t ∧ t.fbit (F.ringPpStatus_link p) = true ∧
          t.fbit (F.ringPpStatus_down p) = false ∧ keepsRegs [R.ringPpStatus p] s t ∧ vget t.ring.noBack p.val = 0)) ∧
      (s.power.chip = true → s.mod = .config → s.power.ringJoined = false → ∃ t, exec .ringJoin s = .next t ∧
        t.power = { s.power with ringJoined := true } ∧ t.fbit F.ringStatus_passive = true ∧
        (∀ p : Fin 4, t.fbit (F.ringPpStatus_field p) = decide ((p.val % 2 = 1) = (s.fbit F.pairStatus_slot = true))) ∧
        keepsRegs (R.ringStatus :: (List.range 4).map R.ringPpStatus) s t) ∧
      (s.power.ringJoined = true → exec .ringJoin s = .next s)) ∧
  (
    ∀ s : State, s.regsWf = true → s.configured = true → s.ring.active = true →
      (∀ (port : Fin 2) (payload : List Byte), s.aget F.ringPeerCfg_peerEn = 1 → s.fbit F.pwrStatus_firstSec = false →
        let le (off n : Nat) : Nat := leNat ((payload.drop off).take n)
        let n := payload.length
        let here : BitVec 2 := if port.val = 0 then 1 else 2
        (∃ t, exec (.peerFrameRx port false payload) s = .next t ∧ onlyRegs [R.ringRxDrop] s t ∧
          (t.rd R.ringRxDrop).toNat = satAdd 32 (s.rd R.ringRxDrop).toNat 1) ∧
        (∀ q r, s.ring.plan.subs = [q] → s.ring.peers = [r] → le 0 1 % 16 = 1 → le 1 1 = 3 →
          le (n - 4) 4 = crc32 (payload.take (n - 4)) → q.pair = le 2 2 % 1024 → q.pcls.num = le 4 1 → q.len = le 6 2 →
          (r.cycle ≠ some (BitVec.ofNat 64 (le 8 8)) → ∃ t, exec (.peerFrameRx port true payload) s = .next t ∧
            (t.peerRx 0).cycle = some (BitVec.ofNat 64 (le 8 8)) ∧ (t.peerRx 0).ports = here ∧
            (t.peerRx 0).data = (payload.drop 24).take q.len ∧ (t.peerRx 0).recvAt = s.time.tb1 ∧
            t.fget (F.ringPeerSjState_missCnt 0) = 0 ∧
            (s.fget (F.ringPeerSjState_state 0) = stLost → t.fget (F.ringPeerSjState_state 0) = stReturning) ∧
            (s.fget (F.ringPeerSjState_state 0) = stReturning → 9 ≤ s.fget (F.ringPeerSjState_retCnt 0) →
              t.fget (F.ringPeerSjState_state 0) = stActive) ∧ keepsRegs [R.ringPeerSjState 0] s t ∧ t.mem = s.mem) ∧
          (r.cycle = some (BitVec.ofNat 64 (le 8 8)) → ∃ t, exec (.peerFrameRx port true payload) s = .next t ∧
            t.peerRx 0 = { r with ports := r.ports ||| here } ∧ keepsRegs [R.ringPeerSjState 0] s t ∧
            t.fget (F.ringPeerSjState_state 0) = s.fget (F.ringPeerSjState_state 0)))) ∧
      (∀ j : Fin 32, let now := s.fget (F.ringPeerSjState_state j)
        now ≠ 0 → ∃ t, exec (.peerPeriodMiss j) s = .next t ∧
          (t.rd (R.ringPeerSjMiss j)).toNat = satAdd 32 (s.rd (R.ringPeerSjMiss j)).toNat 1 ∧
          keepsRegs [R.ringPeerSjMiss j, R.ringPeerSjState j] s t ∧ t.ring = s.ring ∧
          t.fget (F.ringPeerSjState_state j) =
            (if now = stActive ∧ 2 ≤ s.fget (F.ringPeerSjState_missCnt j) then stLost else now) ∧
          (now = stReturning → t.fget (F.ringPeerSjState_retCnt j) = 0)) ∧
      (∀ j : Fin 32, s.fget (F.ringPeerSjState_state j) = 0 → exec (.peerPeriodMiss j) s = .next s))

/-- Port states (R310, R312, R322, R323). A START that reaches `CAN_CTRL` takes each port that it names from `DOWN`, its timing valid and its
transceiver not at fault, to `INTEG` with its error counters at 0, and leaves the state of every other; a STOP takes those it names to
`DOWN`. Integration ends in `ACTIVE` where transmission is permitted, else in `RESTRICTED`. A transceiver fault takes a port to `DOWN` and
is shown. A port in bus-off notes the end of its delay and then recovers into `INTEG` with its error counters at 0, and not before. A
collision shown is cleared. Frames (R313, R316, R318 to R320). A port in `RESTRICTED` or `ACTIVE` counts a frame it receives; one that no
filter entry hits, and a remote frame, counts as unmatched; one whose first entry asks for a receive object alone enters that object. A
receive error is counted in `RESTRICTED`; in `ACTIVE` it is counted and raises the receive error counter by 1 or 8, to at most 255. A port
that is `DOWN` takes neither. An `ACTIVE` port permitted to send sends the buffer it offers, which leaves its queue, and its transmit error
counter falls by 1; a lost arbitration leaves the buffer queued and the counter alone; another error leaves it queued and adds 8 to the
counter, and above 255 the port is in bus-off; an acknowledgement error of an error-passive port leaves the counter. A `RESTRICTED` port
whose frame was on the bus when permission ended completes it, its error counters standing (R312, R313). A port without a buffer
to offer sends nothing. -/
def Obligations.CanPorts : Prop :=
  (
    ∀ (m : Master) (s : State), s.regsWf = true →
      (∀ (mask fault : BitVec 4) (n : Fin 4), s.writes m R.canCtrl → ∃ t, exec (.canStart m mask fault) s = .next t ∧
        let starts := mask.getLsbD n.val = true ∧ s.canState n = canDown ∧ s.canTiming n = true ∧ fault.getLsbD n.val = false
        (starts → t.canState n = canInteg ∧ t.fget (F.canChnStatus_tec n) = 0 ∧ t.fget (F.canChnStatus_rec n) = 0 ∧
          t.fbit (F.canChnStatus_xcvrFault n) = false) ∧
        (¬ starts → t.canState n = s.canState n)) ∧
      (∀ mask : BitVec 4, s.writes m R.canCtrl → ∃ t, exec (.canStop m mask) s = .next t ∧
        (∀ n : Fin 4, t.canState n = if mask.getLsbD n.val then canDown else s.canState n) ∧
        onlyRegs (R.canStatus :: (List.range 4).map R.canChnStatus) s t) ∧
      (∀ n : Fin 4,
        (s.canState n = canInteg → ∃ t, exec (.canIntegrationDone n) s = .next t ∧
          t.canState n = (if s.canPermitted then canActive else canRestricted) ∧ onlyRegs [R.canChnStatus n] s t) ∧
        (s.canState n ≠ canInteg → exec (.canIntegrationDone n) s = .next s) ∧
        (s.power.chip = true → ∃ t, exec (.transceiverFault n) s = .next t ∧ t.canState n = canDown ∧
          t.fbit (F.canChnStatus_xcvrFault n) = true ∧ t.fbit ⟨R.canStatus, 4 + n, 1⟩ = true ∧
          keepsRegs [R.canChnStatus n, R.canStatus] s t ∧ t.can = s.can) ∧
        (s.canState n = canBusoff → ∃ t, exec (.busoffDelayExpiry n) s = .next t ∧ (vget t.can.port n.val).boDone = true ∧
          (∀ m : Fin 4, m ≠ n → vget t.can.port m.val = vget s.can.port m.val) ∧ t = { s with can := t.can }) ∧
        (s.canState n = canBusoff → (vget s.can.port n.val).boDone = true → ∃ t, exec (.busoffRecovery n) s = .next t ∧
          t.canState n = canInteg ∧ t.fget (F.canChnStatus_tec n) = 0 ∧ t.fget (F.canChnStatus_rec n) = 0 ∧
          t.fbit (F.canChnStatus_epassive n) = false) ∧
        ((vget s.can.port n.val).boDone = false → exec (.busoffRecovery n) s = .next s) ∧
        (s.fbit (F.canChnStatus_collide n) = true → ∃ t, exec (.collideClear n) s = .next t ∧
          t.fbit (F.canChnStatus_collide n) = false ∧ t.canState n = s.canState n) ∧
        (s.fbit (F.canChnStatus_collide n) = false → exec (.collideClear n) s = .next s))) ∧
  (
    ∀ (n : Fin 4) (s : State), s.regsWf = true →
      let tec (t : State) := t.fget (F.canChnStatus_tec n)
      let rec_ (t : State) := t.fget (F.canChnStatus_rec n)
      let errs : Field := ⟨R.canChnErrs n, 0, 16⟩
      (∀ (rxid : W32) (esi : Bool) (dlc : BitVec 4) (data : List Byte), (s.canState n = canRestricted ∨ s.canState n = canActive) →
        data.length = dlcLen (rxid.getLsbD 30) dlc.toNat →
        let i : Instr := .canFrameRx n rxid esi false dlc data
        let filters := (List.range 256).map (s.canFilter n)
        ((∀ f ∈ filters, f.hit rxid.toNat = false) → ∃ t, exec i s = .next t ∧ t.can = s.can ∧ t.mem = s.mem ∧
          (t.rd (R.canChnRxok n)).toNat = satAdd 32 (s.rd (R.canChnRxok n)).toNat 1 ∧
          (t.rd (R.canChnUnmatched n)).toNat = satAdd 32 (s.rd (R.canChnUnmatched n)).toNat 1) ∧
        (∀ f, filters.find? (fun g => g.hit rxid.toNat) = some f → f.toObj = true → f.toHost = false → ∃ t o, exec i s = .next t ∧
          t.can.objs.head? = some (f.cls * 0x80000 + f.off, o) ∧ o.rxid = rxid.toNat ∧ o.data = data ∧ o.stamp = s.time.tb1 ∧
          o.dlc = dlc.toNat + 16 * bit esi ∧ o.fresh = true ∧
          (t.rd (R.canChnRxok n)).toNat = satAdd 32 (s.rd (R.canChnRxok n)).toNat 1)) ∧
      (∀ (rxid : W32) (esi : Bool) (dlc : BitVec 4), (s.canState n = canRestricted ∨ s.canState n = canActive) → ∃ t,
        exec (.canFrameRx n rxid esi true dlc []) s = .next t ∧ t.can = s.can ∧ t.mem = s.mem ∧
        (t.rd (R.canChnRxok n)).toNat = satAdd 32 (s.rd (R.canChnRxok n)).toNat 1 ∧
        (t.rd (R.canChnUnmatched n)).toNat = satAdd 32 (s.rd (R.canChnUnmatched n)).toNat 1) ∧
      (s.canState n = canDown → ∀ rxid esi remote dlc data, exec (.canFrameRx n rxid esi remote dlc data) s = .next s) ∧
      (∀ heavy, s.canState n = canRestricted → ∃ t, exec (.canRxError n heavy) s = .next t ∧ onlyRegs [R.canChnRxerr n] s t ∧
        (t.rd (R.canChnRxerr n)).toNat = satAdd 32 (s.rd (R.canChnRxerr n)).toNat 1) ∧
      (∀ heavy, s.canState n = canActive → ∃ t, exec (.canRxError n heavy) s = .next t ∧
        rec_ t = min 255 (rec_ s + if heavy then 8 else 1) ∧ t.fget errs = satAdd 16 (s.fget errs) 1 ∧ t.canState n = canActive) ∧
      (s.canState n = canDown → ∀ heavy, exec (.canRxError n heavy) s = .next s) ∧
      (∀ b tdc, s.canPick n = some b → s.canState n = canActive → s.canPermitted = true →
        (∃ t, exec (.canTxSuccess n tdc) s = .next t ∧ s.canFrameOut n b ∈ t.out ∧ (t.canBuf n b).queued = false ∧
          (∀ c : Fin 64, c.val ≠ b → t.canBuf n c = s.canBuf n c) ∧ tec t = tec s - 1 ∧
          (t.rd (R.canChnTxok n)).toNat = satAdd 32 (s.rd (R.canChnTxok n)).toNat 1 ∧ t.mem = s.mem) ∧
        (∃ t, exec (.canTxError n .arbitration) s = .next t ∧ (t.canBuf n b).queued = true ∧ tec t = tec s ∧
          t.out = s.out ∧ t.canState n = canActive) ∧
        (tec s + 8 ≤ 255 → ∃ t, exec (.canTxError n .other) s = .next t ∧ (t.canBuf n b).queued = true ∧ tec t = tec s + 8 ∧
          t.fget errs = satAdd 16 (s.fget errs) 1 ∧ t.out = s.out) ∧
        (255 < tec s + 8 → ∃ t, exec (.canTxError n .other) s = .next t ∧ t.canState n = canBusoff ∧
          (vget t.can.port n.val).boDone = false ∧ t.out = s.out) ∧
        (s.fbit (F.canChnStatus_epassive n) = true → ∃ t, exec (.canTxError n .ack) s = .next t ∧ tec t = tec s ∧
          (vget t.can.port n.val).ackRun = (vget s.can.port n.val).ackRun + 1)) ∧
      (∀ b tdc, s.canState n = canRestricted → s.canPermitted = false → s.canLeaving n = some b → ∃ t, exec (.canTxSuccess n tdc) s = .next t ∧
        s.canFrameOut n b ∈ t.out ∧ t.canLeaving n = none ∧ tec t = tec s ∧ rec_ t = rec_ s ∧ t.canState n = canRestricted ∧
        (t.rd (R.canChnTxok n)).toNat = satAdd 32 (s.rd (R.canChnTxok n)).toNat 1 ∧ t.mem = s.mem) ∧
      (∀ tdc e, s.canPick n = none → s.canLeaving n = none →
        exec (.canTxSuccess n tdc) s = .next s ∧ exec (.canTxError n e) s = .next s))

/-! Host rings, DMA, Dray, observation port. -/

/-- Doorbells (R332), written by MC or by the port's own master and reaching `HOST_CHn_DOORBELL`: a count that goes forward within the ring's
size is taken; one that steps back is ignored and counted; one too far ahead is a ring error that moves nothing and raises MSI-X vector 2;
one of the other port's master is ignored. Descriptors (R333, R341), with a STANDBY partner not in question: the descriptor of the ring that
is next, on a module that executes commands and whose doorbells are open, its engine running and its completion ring with room, halts its
ring without its owner bit or with another number; a NOP with both is taken in its turn. With no ring to serve nothing is taken. A STANDBY
only counts a good descriptor as checked. Completions (R338, R339, R341): a command that is executed, the only one, is written whole by the
token holder whose engine runs, `STATUS` and `RESULT` first, then word 0, then its entry of 32 bytes, and MSI-X vector 0 where it asks for
it; without the token or the engine, or while it waits for its seal, nothing is written; with a data barrier its read goes out first, and the
completion follows when the read is done. -/
def Obligations.HostCommandsTakenAndCompleted : Prop :=
  (
    ∀ s : State, s.regsWf = true →
      let errs (n cause : Nat) (halt : Bool) (t : State) : Prop := t.fget (F.hostChnErr_cause n) = cause ∧
        (halt = true → t.fbit (F.hostChnErr_halted n) = true) ∧ t.out = s.out ++ [.msix (n / 8) 2] ∧ t.host.cmds = s.host.cmds ∧
        t.rd (R.hostChnTaken n) = s.rd (R.hostChnTaken n) ∧ t.rd (R.hostChnProd n) = s.rd (R.hostChnProd n)
      (∀ (m : Master) (n : Fin 16) (v : W32), s.writes m (R.hostChnDoorbell n) →
        let own := m = .mc ∨ (m = .host0 ∧ n.val < 8) ∨ (m = .host1 ∧ 8 ≤ n.val)
        let a := (s.rd (R.hostChnProd n) - s.rd (R.hostChnTaken n)).toNat
        let b := (v - s.rd (R.hostChnTaken n)).toNat
        (own → a ≤ b → b ≤ s.ringSize n → ∃ t, exec (.hostDoorbell m n v) s = .next t ∧ t.rd (R.hostChnProd n) = v ∧
          keepsRegs [R.hostChnProd n] s t ∧ t.host = { s.host with quiet := t.host.quiet }) ∧
        (own → b < a → b ≤ s.ringSize n → ∃ t, exec (.hostDoorbell m n v) s = .next t ∧ onlyRegs [0xB010] s t ∧
          (t.rd 0xB010).toNat = satAdd 32 (s.rd 0xB010).toNat 1) ∧
        (own → s.ringSize n < b → ∃ t, exec (.hostDoorbell m n v) s = .next t ∧ errs n 3 false t) ∧
        (¬ own → ∃ t, exec (.hostDoorbell m n v) s = .next t ∧ onlyRegs [0xB010] s t ∧
          (t.rd 0xB010).toNat = satAdd 32 (s.rd 0xB010).toNat 1)) ∧
      (∀ (p : Fin 2) (n : Nat) (desc : Desc), s.mod ≠ .standby → s.nextRing p = some n → s.executing = true →
        s.power.doorbells = true → s.engineOk p = true → s.cqRoom p = true → s.partner ≠ .standby →
        s.host.catchUp.has n = false →
        let taken := s.rd (R.hostChnTaken n)
        let own := desc.word0.getLsbD 31 = true
        let seq := desc.word0.toNat % 65536 = taken.toNat % 65536
        (¬ own → ∃ t, exec (.descriptorTake p desc) s = .next t ∧ errs n 1 true t) ∧
        (own → ¬ seq → ∃ t, exec (.descriptorTake p desc) s = .next t ∧ errs n 2 true t) ∧
        (own → seq → opAssigned (fldN desc.word0.toNat 16 8) = true → fldN desc.word0.toNat 16 8 = 1 → s.host.cmds = [] →
          ∃ t c, exec (.descriptorTake p desc) s = .next t ∧ t.host.cmds = [c] ∧ c.desc = desc ∧ c.ring = n ∧ c.count = taken ∧
            c.phase = .ready ∧ t.rd (R.hostChnTaken n) = taken + 1 ∧ vget t.host.rr p.val = n % 8)) ∧
      (∀ (p : Fin 2) desc, s.mod ≠ .standby → s.nextRing p = none → exec (.descriptorTake p desc) s = .next s) ∧
      (∀ (p : Fin 2) desc n, s.mod = .standby → ((List.range 8).map (p.val * 8 + ·)).find?
          (fun n => s.ringOn n && vget s.host.fetched n != s.rd (R.hostChnProd n)) = some n → s.engineOk p = true →
        desc.word0.getLsbD 31 = true → desc.word0.toNat % 65536 = (vget s.host.fetched n).toNat % 65536 →
        exec (.descriptorTake p desc) s = .next { s with host := { s.host with
          fetched := vset s.host.fetched n (vget s.host.fetched n + 1) } })) ∧
  (
    ∀ (c : Cmd) (status result : Nat) (s : State), s.regsWf = true → s.host.cmds = [c] → c.ring < 16 → c.acks = [] →
      let p := c.ring / 8
      let t := s.cmdDone c.id status result
      let slot := s.rd64 (R.hostChnBaseLo c.ring) + BitVec.ofNat 64 (c.count.toNat % s.ringSize c.ring * 64)
      let waits := s.mod = .primary ∧ s.partner = .standby ∧ c.sealed = false
      (s.token = true → s.engineOk p = true → ¬ waits → (c.barrier = false ∨ c.lastAddr = none) →
        t.host.cmds = [] ∧ t.rd (R.hostChnDone c.ring) = c.count + 1 ∧ vget t.host.cq p = vget s.host.cq p + 1 ∧
        (∃ e, t.out = s.out ++ [.hostWrite p (slot + 56) (leBytes 4 (status % 2 ^ 32) ++ leBytes 4 (result % 2 ^ 32)),
          .hostWrite p slot (leBytes 4 (c.desc.word0.toNat % 2 ^ 31)),
          .hostWrite p (s.rd64 (R.hostPpCqBaseLo p) + BitVec.ofNat 64 ((vget s.host.cq p).toNat % s.cqSize p * 32)) e] ++
          (if c.irq then [.msix p 0] else []) ∧ e.length = 32)) ∧
      ((s.token = false ∨ s.engineOk p = false ∨ waits) → t.out = s.out ∧ t.rd (R.hostChnDone c.ring) = s.rd (R.hostChnDone c.ring) ∧
        t.host.cmds = [{ c with phase := .done, status := BitVec.ofNat 32 status, result := BitVec.ofNat 32 result }]) ∧
      (∀ a (n : Fin 16), n.val = c.ring → s.token = true → s.engineOk p = true → ¬ waits → c.barrier = true → c.lastAddr = some a →
        c.barSent = false → c.barDone = false → t.out = s.out ++ [.hostRead p a] ∧ (∃ d, t.host.cmds = [d] ∧ d.phase = .done ∧ d.barSent = true) ∧
          ∃ u : State, exec (.completionBarrierDone n) t = .next u ∧ u.host.cmds = [] ∧ u.rd (R.hostChnDone c.ring) = c.count + 1) ∧
      t.mem = s.mem)

/-- Commands refused (R334, R335, R337): a command other than `REC_CTRL` that its ring begins, on a module that executes commands, completes
with 0x0101 for a bad descriptor, and with 0x0102 and the state where its state does not allow it, a value write being counted as refused
besides; `PKG_LOAD` in SERVICE is left aside. One for the partner is forwarded, or completes with 0x0107 without a partner. A command that is
not in its turn, or whose module executes none, does not begin. Commands that read (R31, R336, R416, R417) and are accepted: NOP completes
with 0; `STATUS` moves 256 bytes that begin with `PAIR_STATUS`, hold `DRAY_STATUS` as the 17th word and end in zeros; `READ_MEM` and
`TC_READ` leave their data to the channel; `READ_SYM` answers 0x0105 without its symbol and 0x0101 beyond it, moves the bytes of a constant
that the CAT grants MC, answers 0x0103 for one that it refuses, and waits for a commit for any other; `REC_READ` moves the flushed records
that there are; `REC_CTRL` freezes a recorder that is idle and not frozen, unfreezes and re-arms a frozen one, and answers 0x0103 in the
other case of each; `BULK_SEND` joins the bulk stream. -/
def Obligations.HostCommandsRefusedAndReading : Prop :=
  (
    ∀ (n : Fin 16) (s : State) (i : Instr) (op : Nat),
      (i = .cmdNop n ∧ op = 0x01) ∨ (i = .statusCmd n ∧ op = 0x02) ∨ (i = .readMem n ∧ op = 0x03) ∨ (i = .readSym n ∧ op = 0x04) ∨
      (i = .configCmd n ∧ op = 0x05) ∨ (i = .valueWrite n ∧ op = 0x06) ∨ (i = .forceSet n ∧ op = 0x07) ∨
      (i = .forceRelease n ∧ op = 0x08) ∨ (i = .pkgLoad n ∧ op = 0x09) ∨ (i = .pkgSwitch n ∧ op = 0x0A) ∨
      (i = .pkgCancel n ∧ op = 0x0B) ∨ (i = .pkgDiscard n ∧ op = 0x0C) ∨ (i = .constPatch n ∧ op = 0x0D) ∨
      (i = .keyEnrol n ∧ op = 0x0E) ∨ (i = .keyRemove n ∧ op = 0x0F) ∨ (i = .scanStart n ∧ op = 0x10) ∨
      (i = .scanRestartCmd n ∧ op = 0x11) ∨ (i = .pairSwitch n ∧ op = 0x12) ∨ (i = .serviceEnter n ∧ op = 0x13) ∨
      (i = .serviceLeave n ∧ op = 0x14) ∨ (i = .canTx n ∧ op = 0x15) ∨ (i = .recRead n ∧ op = 0x16) ∨ (i = .tcRead n ∧ op = 0x18) ∨
      (i = .bulkSend n ∧ op = 0x19) ∨ (i = .histSub n ∧ op = 0x1A) →
      (∀ c, s.begins n op c →
        let left := if op = 0x06 then s.vwRefuse c.symId else s
        (c.bad = true → exec i s = .next (left.cmdDone c.id 0x0101 0)) ∧
        (c.bad = false → opAllowed op s.mod (s.partner == .off) = false → (op ≠ 0x09 ∨ s.mod ≠ .service) →
          exec i s = .next (left.cmdDone c.id 0x0102 (modCode s.mod))) ∧
        (c.bad = false → opAllowed op s.mod (s.partner == .off) = true → opP op = true → c.target = true →
          (s.partner = .off → exec i s = .next (s.cmdDone c.id 0x0107 0)) ∧
          (s.partner ≠ .off → ∃ t, exec i s = .next t ∧ (∃ m ∈ t.pair.msgs, m.body = .forwarded c.ring c.desc) ∧
            ∃ d ∈ t.host.cmds, d.id = c.id ∧ d.phase = .forwarded))) ∧
      (s.toBegin n op = none → exec i s = .next s) ∧
      (s.executing = false → exec i s = .next s)) ∧
  (
    ∀ (n : Fin 16) (c : Cmd) (s : State), s.regsWf = true →
      let off := c.desc.arg0.toNat
      let moves (i : Instr) (data : Option (List Byte)) (result : Nat) : Prop :=
        exec i s = .next (s.dataOut c data 0 result)
      (s.begins n 0x01 c → s.accepts 0x01 c → exec (.cmdNop n) s = .next (s.cmdDone c.id 0 0)) ∧
      (s.begins n 0x02 c → s.accepts 0x02 c → ∃ d, moves (.statusCmd n) (some d) 0 ∧ d.length = 256 ∧
        d.take 4 = leBytes 4 (s.rd R.pairStatus).toNat ∧ (d.drop 64).take 4 = leBytes 4 (s.rd R.drayStatus).toNat ∧
        d.drop 68 = List.replicate 188 0) ∧
      (s.begins n 0x03 c → s.accepts 0x03 c → moves (.readMem n) none 0) ∧
      (s.begins n 0x18 c → s.accepts 0x18 c → moves (.tcRead n) none 0) ∧
      (s.begins n 0x04 c → s.accepts 0x04 c →
        (s.sym s.bank c.symId = none → exec (.readSym n) s = .next (s.cmdDone c.id 0x0105 0)) ∧
        (∀ y, s.sym s.bank c.symId = some y →
          (y.size < off + c.length → exec (.readSym n) s = .next (s.cmdDone c.id 0x0101 0)) ∧
          (off + c.length ≤ y.size → y.kind = 3 → (s.mcAccess .read (s.symAddr s.bank y + off) c.length).2 = true →
            moves (.readSym n) (some (s.mem.bytesAt (s.symAddr s.bank y + off) c.length)) 0) ∧
          (off + c.length ≤ y.size → y.kind = 3 → (s.mcAccess .read (s.symAddr s.bank y + off) c.length).2 = false →
            exec (.readSym n) s = .next ((s.mcAccess .read (s.symAddr s.bank y + off) c.length).1.cmdDone c.id 0x0103 0)) ∧
          (off + c.length ≤ y.size → y.kind ≠ 3 →
            exec (.readSym n) s = .next (s.modCmd c.id (fun d => { d with phase := .waitCommit }))))) ∧
      (s.begins n 0x16 c → s.accepts 0x16 c → ∃ k, k ≤ c.length / 64 ∧
        moves (.recRead n) (some (((s.recd.area.drop c.desc.modAddr.toNat).take k).flatMap recBytes)) k ∧
        (k < c.length / 64 → c.desc.modAddr.toNat + k ≥ s.recd.area.length)) ∧
      (s.begins n 0x17 c → s.accepts 0x17 c →
        let action := fldN off 0 2
        let asked := s.modCmd c.id (fun d => { d with phase := .waitEffect })
        (action = 0 → s.fbit F.recStatus_frozen = false → s.recd.freezeReq = none → s.recd.rearming = none →
          s.fbit F.recStatus_flushing = false → ∃ u : State, exec (.recCtrlFreeze n) s = .next (u.cmdDone c.id 0 0) ∧
            u.fbit F.recStatus_frozen = true ∧ u.host = asked.host) ∧
        (action = 0 → s.fbit F.recStatus_frozen = true → exec (.recCtrlFreeze n) s = .next (s.cmdDone c.id 0x0103 0)) ∧
        (action = 1 → s.fbit F.recStatus_frozen = true → s.recd.ovfCount = 0 → ∃ u : State, exec (.recCtrlUnfreeze n) s =
          .next (u.cmdDone c.id 0 0) ∧ u.fbit F.recStatus_frozen = false ∧ u.host = asked.host) ∧
        (action = 1 → s.fbit F.recStatus_frozen = false → exec (.recCtrlUnfreeze n) s = .next (s.cmdDone c.id 0x0103 0)) ∧
        (action = 2 → s.fbit F.recStatus_frozen = true → s.recd.rearming = none → ∃ t, exec (.recCtrlRearm n) s = .next t ∧
          t.recd.rearming = some (.command c.id) ∧ t.fbit F.recStatus_erasing = true ∧ t.host = asked.host) ∧
        (action = 2 → s.fbit F.recStatus_frozen = false → exec (.recCtrlRearm n) s = .next (s.cmdDone c.id 0x0103 0))) ∧
      (s.begins n 0x19 c → s.accepts 0x19 c → ∃ t b, exec (.bulkSend n) s = .next t ∧ t.dray.bulk = s.dray.bulk ++ [b] ∧
        b.addr = c.desc.modAddr.toNat ∧ b.len = c.length ∧ b.off = 0 ∧ b.cmd = c.id ∧ t.mem = s.mem ∧
        t.host = (s.modCmd c.id (fun d => { d with phase := .bulk })).host))

/-- Commands that change, begun and accepted (R67, R169, R182, R187, R188, R215, R336, R378, R459, R463). `CONFIG` writes its pairs and completes with the
number of writes ignored, its data forwarded; at a pair that the CAT refuses it completes with 0x0103. `VALUE_WRITE` is refused where they
are disabled, and queued where its symbol, type and size fit and the queue has room. `FORCE_SET` answers 0x0105 for a symbol that cannot be
forced, and takes its place in the table otherwise, with no switch armed and with room. `FORCE_RELEASE` releases every force or the one it
names. `CONST_PATCH` is refused where the inactive bank holds a package that is not patched, and leaves a bank it patches to be checked anew.
A key is enrolled in an empty slot and refused in another; one is removed but not the one that signed the active bank. `SCAN_START` of the
token holder is noted where the configuration is applied and no scan has started, and `SCAN_RESTART` of the token holder in STOPPED.
`PAIR_SWITCH` begins a hand-over where the partner is ready, and is refused otherwise. SERVICE is entered and left at the boundary while a
scan runs and at once otherwise, entered not while a partner is heard. `CAN_TX` queues a buffer of owner MC and no other. `HIST_SUB` without
symbols removes its subscription, and with one that it cannot take answers 0x0105. What the partner follows is told to it. -/
def Obligations.HostCommandsThatChange : Prop :=
  ∀ (n : Fin 16) (c : Cmd) (s : State), s.regsWf = true →
    let id := c.id
    let arg := c.desc.arg0.toNat
    let tells (u : State) (o : Out) : Prop := s.partner ≠ .off → ∃ m ∈ u.pair.msgs, m.body = o
    let go (op : Nat) : Prop := s.begins n op c ∧ s.accepts op c
    (go 0x05 → let x := s.writePairs c.dataBytes
      (∀ k, x.2 = some k → ∃ u : State, exec (.configCmd n) s = .next (u.cmdDone id 0 k) ∧ u.regs = x.1.regs ∧ u.act = x.1.act ∧
        (x.1.partner ≠ .off → ∃ d, ∃ m ∈ u.pair.msgs, m.body = .item 5 d c.dataBytes)) ∧
      (x.2 = none → exec (.configCmd n) s = .next (x.1.cmdDone id 0x0103 0))) ∧
    (go 0x05 → c.dataBytes = [] → ∃ u : State, exec (.configCmd n) s = .next (u.cmdDone id 0 0) ∧ u.regs = s.regs) ∧
    (go 0x06 → let off := fldN arg 32 32
      (s.aget F.olcCfg_vwEn = 0 → exec (.valueWrite n) s = .next ((s.vwRefuse c.symId).cmdDone id 0x0103 0)) ∧
      (∀ y, s.aget F.olcCfg_vwEn ≠ 0 → s.sym s.bank c.symId = some y → y.kind = 0 → y.writable = true → y.typeId = c.typeId →
        vwFits y off c.size = true → s.olc.vwq.length < 256 → ∃ (u : State) (w : ValueWrite), exec (.valueWrite n) s = .next (u.cmdDone id 0 0) ∧
          u.olc.vwq = s.olc.vwq ++ [w] ∧ w.symId = c.symId ∧ w.off = off ∧ w.value = leBytes c.size c.desc.arg2.toNat ∧
          u.mem = s.mem ∧ ∃ d, tells u (.item 6 d []))) ∧
    (go 0x07 → (s.forceable c.symId c.typeId = none → exec (.forceSet n) s = .next (s.cmdDone id 0x0105 0)) ∧
      (∀ y, s.forceable c.symId c.typeId = some y → s.fget F.olcStatus_pkgState < 5 →
        (s.olc.forces.filter (fun g => g.symId ≠ c.symId)).length < 1024 → ∃ (u : State) (f : Force), exec (.forceSet n) s = .next (u.cmdDone id 0 0) ∧
          u.olc.forces = s.olc.forces.filter (fun g => g.symId ≠ c.symId) ++ [f] ∧ f.symId = c.symId ∧
          f.value = leBytes y.size c.desc.arg2.toNat ∧ u.rd R.olcForces = BitVec.ofNat 32 u.olc.forces.length)) ∧
    (go 0x08 → (c.symId = BitVec.allOnes 64 → ∃ u : State, exec (.forceRelease n) s = .next (u.cmdDone id 0 0) ∧ u.olc.forces = []) ∧
      (c.symId ≠ BitVec.allOnes 64 → (∃ f ∈ s.olc.forces, f.symId = c.symId) → ∃ u : State, exec (.forceRelease n) s =
        .next (u.cmdDone id 0 0) ∧ u.olc.forces = s.olc.forces.filter (fun f => f.symId ≠ c.symId))) ∧
    (go 0x0D → (s.pkgState ≠ pkgEmpty → s.holdsPatched = false → exec (.constPatch n) s = .next (s.cmdDone id 0x0103 0)) ∧
      ((s.constPatch c.symId (fldN arg 0 32) c.size c.desc.arg2).2 = 0 → ∃ u : State, exec (.constPatch n) s = .next (u.cmdDone id 0 0) ∧
        u.pkgState = pkgChecking ∧ ∃ d, tells u (.item 0x0D d []))) ∧
    (go 0x0E → ((vget s.olc.keys (arg % 4)).isSome = true → exec (.keyEnrol n) s = .next (s.cmdDone id 0x0103 0)) ∧
      (vget s.olc.keys (arg % 4) = none → ∃ u : State, exec (.keyEnrol n) s = .next (u.cmdDone id 0 0) ∧
        vget u.olc.keys (arg % 4) = some (BitVec.ofNat 256 (beNat c.dataBytes)) ∧ u.fbit ⟨R.olcKeyValid, arg % 4, 1⟩ = true)) ∧
    (go 0x0F → (s.hKeySlot s.bank = arg % 4 → exec (.keyRemove n) s = .next (s.cmdDone id 0x0103 0)) ∧
      (s.hKeySlot s.bank ≠ arg % 4 → ∃ u : State, exec (.keyRemove n) s = .next (u.cmdDone id 0 0) ∧
        vget u.olc.keys (arg % 4) = none ∧ u.fbit ⟨R.olcKeyValid, arg % 4, 1⟩ = false)) ∧
    (go 0x10 → s.fbit F.sysCfgStatus_done = true → s.fbit F.sysCfgStatus_refused = false → s.scan.run = .notStarted →
      s.token = true → ∃ u : State, exec (.scanStart n) s = .next (u.cmdDone id 0 0) ∧ u = { s with scan := { s.scan with startReq := true } }) ∧
    (go 0x11 → s.token = true → exec (.scanRestartCmd n) s =
      .next ({ s with scan := { s.scan with restartReq := some (c.desc.arg0.getLsbD 0) } }.cmdDone id 0 0)) ∧
    (go 0x12 → (s.bogie.pReady = false → exec (.pairSwitch n) s = .next (s.cmdDone id 0x0103 0)) ∧
      (s.bogie.pReady = true → ∃ t, exec (.pairSwitch n) s = .next t ∧ t.pair.handover = some 3 ∧ t.mod = .primary ∧
        t.host = (s.modCmd id (fun d => { d with phase := .waitSeal })).host)) ∧
    (go 0x13 → ((s.fbit F.pairStatus_dbUp = true ∨ s.fbit F.pairStatus_aliveUp = true) →
        exec (.serviceEnter n) s = .next (s.cmdDone id 0x0103 0)) ∧
      (s.fbit F.pairStatus_dbUp = false → s.fbit F.pairStatus_aliveUp = false →
        (s.scanning = true → exec (.serviceEnter n) s = .next { s.modCmd id (fun d => { d with phase := .waitEffect }) with
          scan := { s.scan with service := some true } }) ∧
        (s.scanning = false → s.mod = .stopped → ∃ t, exec (.serviceEnter n) s = .next t ∧ t.mod = .service))) ∧
    (go 0x14 → (s.scanning = true → exec (.serviceLeave n) s = .next { s.modCmd id (fun d => { d with phase := .waitEffect }) with
          scan := { s.scan with service := some false } }) ∧
      (s.scanning = false → ∃ t, exec (.serviceLeave n) s = .next t ∧
        t.mod = if s.scan.run = .running then .alone else .stopped)) ∧
    (go 0x15 → let p := arg % 4
      let b := fldN arg 8 6
      ((s.canDesc p b).owner ≠ 0 → exec (.canTx n) s = .next (s.cmdDone id 0x0101 0)) ∧
      ((s.canDesc p b).owner = 0 → ∃ u : State, exec (.canTx n) s = .next (u.cmdDone id 0 0) ∧ (u.canBuf p b).queued = true ∧
        (u.canBuf p b).content = c.dataBytes ∧ u.mem = s.mem)) ∧
    (go 0x1A → (s.histSub c.desc.arg0 c.dataBytes = none → exec (.histSub n) s = .next (s.cmdDone id 0x0105 0)) ∧
      (c.dataBytes = [] → ∃ u : State, exec (.histSub n) s = .next (u.cmdDone id 0 0) ∧
        (∀ g ∈ u.dray.subs, g.sub ≠ arg % 64) ∧ (∀ g ∈ s.dray.subs, g.sub ≠ arg % 64 → g ∈ u.dray.subs) ∧
        tells u (.item 0x1A [c.desc.arg0] [])))

/-- Host ports (R329, R331, R340, R353). A write of a head that reaches its register is taken, and with nothing to complete or to write leaves what
was sent; enabling a ring, with its port, zeroes its counts and ends its halt, and leaves those that were enabled. A bus error halts the
engine of its port alone, latched, recorded and signalled; a resume, or the link's return, lets it go on. A lost link stops its port alone
and halts the DMA transfers in flight on it. Forwarded commands (R336, R337): a `STATUS` that the partner forwards is answered with the
status block; the answer to a forwarded command completes it, and so does, with 0x0107, the time for it. -/
def Obligations.HostPorts : Prop :=
  ∀ (m : Master) (s : State), s.regsWf = true →
    (∀ p : Fin 2, ∀ v : W32,
      (s.writes m (R.hostPpCqHead p) → ∃ t, exec (.hostCqHead m p v) s = .next t ∧ t.rd (R.hostPpCqHead p) = v ∧ t.mem = s.mem ∧ t.pair = s.pair ∧
        (s.host.cmds = [] → t.out = s.out ∧ keepsRegs [R.hostPpCqHead p, R.hostPpStatus 0, R.hostPpStatus 1] s t)) ∧
      (s.writes m (R.hostPpEqHead p) → ∃ t, exec (.hostEqHead m p v) s = .next t ∧ t.rd (R.hostPpEqHead p) = v ∧ t.mem = s.mem ∧ t.pair = s.pair ∧
        (vget s.host.eqWait p.val = [] → vget s.host.eqDropped p.val = 0 → t.out = s.out))) ∧
    (∀ v : W32, s.writes m R.hostRingEn → ∃ t, exec (.hostRingEn m v) s = .next t ∧ t.mem = s.mem ∧ t.out = s.out ∧
      (∀ p : Fin 2, t.portOn p = v.getLsbD (16 + p.val)) ∧
      (∀ n : Fin 16, t.ringOn n = (v.getLsbD n.val && v.getLsbD (16 + n.val / 8)) ∧
        ((s.rd R.hostRingEn).getLsbD n.val = false → t.ringOn n = true → t.rd (R.hostChnProd n) = 0 ∧
          t.rd (R.hostChnTaken n) = 0 ∧ t.rd (R.hostChnDone n) = 0 ∧ t.fbit (F.hostChnErr_halted n) = false) ∧
        ((s.rd R.hostRingEn).getLsbD n.val = true → t.rd (R.hostChnTaken n) = s.rd (R.hostChnTaken n)))) ∧
    (∀ (p : Fin 2) (addr : W64) (write : Bool), s.engineOk p = true → ∃ t, exec (.ringEngineHalt p addr write) s = .next t ∧
      t.fbit (F.hostPpStatus_halt p) = true ∧ t.fbit (F.hostPpStatus_faultWr p) = write ∧ t.rd64 (R.hostPpFaultLo p) = addr ∧
      t.engineOk p = false ∧ t.engineOk (1 - p.val) = s.engineOk (1 - p.val) ∧ t.out = s.out ++ [.msix p 2] ∧
      t.recd.raised.length = s.recd.raised.length + 1) ∧
    (∀ p : Fin 2, s.engineOk p = false → ∀ addr write, exec (.ringEngineHalt p addr write) s = .next s) ∧
    (∀ p : Fin 2, s.fbit (F.hostPpStatus_link p) = true → s.fbit (F.hostPpStatus_halt p) = true → s.writes m R.hostCtrl → ∃ t,
      exec (.hostResume m (1#2 <<< p.val)) s = .next t ∧ t.engineOk p = true ∧ t.engineOk (1 - p.val) = s.engineOk (1 - p.val) ∧
      t.mem = s.mem) ∧
    (s.writes m R.hostCtrl → exec (.hostResume m 0) s = .next s) ∧
    (∀ (p : Fin 2) (refLost : Bool), s.fbit (F.hostPpStatus_link p) = true → ∃ t, exec (.hostLinkLoss p refLost) s = .next t ∧
      t.fbit (F.hostPpStatus_link p) = false ∧ t.engineOk p = false ∧ t.engineOk (1 - p.val) = s.engineOk (1 - p.val) ∧
      (refLost = true → t.fbit (F.hostPpStatus_refclk p) = false) ∧
      (∀ ch ∈ s.portChans p, t.fget (F.dmaChnStatus_state ch) = 2 ∧ t.fget (F.dmaChnStatus_cause ch) = 7) ∧ t.mem = s.mem) ∧
    (∀ (p : Fin 2) (speed width : BitVec 2), s.power.chip = true → s.fbit (F.hostPpStatus_link p) = false → speed ≠ 0 →
      (width = 1 ∨ width = 2) → ∃ t, exec (.hostLinkUp p speed width) s = .next t ∧ t.fbit (F.hostPpStatus_link p) = true ∧
      t.fget (F.hostPpStatus_speed p) = speed.toNat ∧ t.fget (F.hostPpStatus_width p) = width.toNat ∧ t.mem = s.mem) ∧
    (∀ id (ring : Fin 16) (d : Desc), s.fresh id → s.fbit F.sysStatus_mcRun = true → fldN d.word0.toNat 16 8 = 2 → ∃ t,
      exec (.forwardedCommandRx id ring d) s = .next t ∧ (∃ m ∈ t.pair.msgs, m.body = .forwardedReply ring 0 0 s.statusBlock) ∧
      t.host = s.host ∧ t.mem = s.mem) ∧
    (∀ id (ring : Fin 16) (status result : W32) (c : Cmd), s.fresh id → s.forwardedCmd ring = some c → ∃ u : State,
      exec (.forwardedReplyRx id ring status result []) s = .next u ∧
      u.host = (s.cmdDone c.id status.toNat result.toNat).host ∧ u.pair.seen = id :: s.pair.seen) ∧
    (∀ (ring : Fin 16) (c : Cmd), s.forwardedCmd ring = some c →
      exec (.partnerAnswerTimeout ring) s = .next (s.cmdDone c.id 0x0107 0)) ∧
    (∀ ring : Fin 16, s.forwardedCmd ring = none → exec (.partnerAnswerTimeout ring) s = .next s)

/-- DMA (R345, R346, R354). Data read for a command are counted and make it ready, and the command leaves its channel, which is idle where no
other waits, or waits for a plan. Captured data of at most one burst go to their host address. A channel without a command does nothing. A host-side error in
data being read halts the channel, with its cause and address latched, the fault counted, recorded and signalled. A retry that reaches
`DMA_CHn_RESUME` with the key sets a halted channel moving again; an abort ends its command with 0x0200 and the bytes moved; without the key,
or of a channel that is not halted, each is ignored and counted. -/
def Obligations.DmaTransfers : Prop :=
  ∀ (m : Master) (s : State), s.regsWf = true →
    (∀ (ch : Fin 16) (c : Cmd) (data : List Byte), s.dmaCmd ch = some c → c.phase = .movingIn → data.length = c.length →
      exec (.dmaTransferDone ch data) s =
        .next ((((s.modCmd c.id (fun d => { d with data := some data, phase := .ready })).dmaCount ch
          (c.length - vget s.dma.moved ch)).dmaFree ch).dmaGo)) ∧
    (∀ (ch : Fin 16) (c : Cmd) (data : List Byte), s.dmaCmd ch = some c → c.phase = .movingIn → data.length = c.length →
      s.host.cmds = [c] → ∃ t, exec (.dmaTransferDone ch data) s = .next t ∧ t.host.cmds = [{ c with data := some data, phase := .ready }] ∧
        vget t.dma.chan ch = none ∧ t.fget (F.dmaChnStatus_state ch) = (if (s.rd R.sysApplyPend).getLsbD 12 then 3 else 0) ∧
        t.mem = s.mem ∧ t.out = s.out) ∧
    (∀ (ch : Fin 16) (c : Cmd) (d data : List Byte), s.dmaCmd ch = some c → c.phase = .movingOut → c.data = some d →
      d.length = c.length → 0 < c.length → c.length ≤ 256 → c.fixedMod = false → c.fixedHost = false → c.modBase % 4096 = 0 →
      c.desc.hostAddr.toNat % 4096 + c.length ≤ 4096 →
      vget s.dma.moved ch = 0 →
      ∃ t, exec (.dmaTransferDone ch data) s = .next t ∧ t.mem = s.mem ∧ ∃ more, t.out = s.out ++ [.hostWrite c.port c.desc.hostAddr d] ++ more) ∧
    (∀ (ch : Fin 16) data, s.dmaCmd ch = none → exec (.dmaTransferDone ch data) s = .next s) ∧
    (∀ (ch : Fin 16) (c : Cmd) (cause : BitVec 3) (moved : Nat) (addr : W64), s.dmaCmd ch = some c → c.phase = .movingIn →
      moved < c.length → (cause = 1 ∨ cause = 2 ∨ cause = 3 ∨ cause = 4 ∨ cause = 7) → ∃ t, exec (.dmaHalt ch cause moved addr) s =
        .next t ∧ t.fget (F.dmaChnStatus_state ch) = 2 ∧ t.fget (F.dmaChnStatus_cause ch) = cause.toNat ∧
        t.fbit (F.dmaChnStatus_side ch) = false ∧ t.fbit (F.dmaChnStatus_write ch) = false ∧ t.rd64 (R.dmaChnFaultLo ch) = addr ∧
        (t.rd (R.dmaChnFaults ch)).toNat = satAdd 32 (s.rd (R.dmaChnFaults ch)).toNat 1 ∧ t.fbit ⟨R.dmaStatus, ch, 1⟩ = true ∧
        t.host = s.host ∧ t.mem = s.mem ∧ t.recd.raised.length = s.recd.raised.length + 1 ∧
        t.out = s.out ++ [.msix (s.aget (F.dmaChnProg_port ch)) 2]) ∧
    (∀ ch : Fin 16, s.fget (F.dmaChnStatus_state ch) = 2 → s.writes m (R.dmaChnResume ch) → ∃ t, exec (.dmaRetry m ch 0xD4A1) s = .next t ∧
        t.fget (F.dmaChnStatus_state ch) = 1 ∧ t.fbit ⟨R.dmaStatus, ch, 1⟩ = false ∧
        onlyRegs [R.dmaStatus, R.dmaChnStatus ch] s t) ∧
    (∀ (ch : Fin 16) (c : Cmd), s.fget (F.dmaChnStatus_state ch) = 2 → vget s.dma.chan ch = some c.id → s.cmd? c.id = some c →
      s.writes m (R.dmaChnResume ch) → ∃ u : State, exec (.dmaAbort m ch 0xD4A1) s = .next (u.dmaFinish ch c 0x0200 (vget s.dma.moved ch)) ∧
        onlyRegs [R.dmaStatus, R.dmaChnStatus ch] s u) ∧
    (∀ (ch : Fin 16) key, (key ≠ 0xD4A1 ∨ s.fget (F.dmaChnStatus_state ch) ≠ 2) → s.writes m (R.dmaChnResume ch) →
      exec (.dmaRetry m ch key) s = .next (s.bump 0xC010) ∧ exec (.dmaAbort m ch key) s = .next (s.bump 0xC010))

/-- Lanes and credits of the Dray link (R347, R349). The first lane to come up begins with no credit frame, grant or use, and counts a link-up; a
second leaves the streams alone. A lane that goes down keeps its frame to be sent again, and its credits are returned; the link is up with
one lane. A credit frame sets each grant at most 2^31 ahead of what is used, and ignores and counts the others. Frames (R348 to R350). With
nothing to be sent again, a free lane takes an events frame that is ready, enabled and has its credit, with fewer than two in flight; it
holds the oldest records that fit, under the next number, and uses its credits. Of the streams in the order events, acquisition, historian,
bulk, the first that is enabled, ready, has its credit and fewer than two frames in flight sends again the frame it kept. A lane that is
down or taken, or a link without a credit frame, starts none. A frame sent whole goes out and is counted, and the last of a bulk command
completes it. A stream that waits for credit shows it. -/
def Obligations.DrayLink : Prop :=
  (
    ∀ s : State, s.regsWf = true →
      (∀ p : Fin 2, s.power.chip = true → s.laneUp p = false → ∃ t, exec (.drayLaneUp p) s = .next t ∧ t.laneUp p = true ∧
        t.fbit F.drayStatus_linkUp = true ∧ (t.fbit F.drayStatus_oneLane = true ↔ t.laneUp (1 - p.val) = false) ∧
        t.mem = s.mem ∧ t.out = s.out ∧ t.dray.events = s.dray.events ∧ t.dray.hist = s.dray.hist ∧ t.dray.bulk = s.dray.bulk ∧
        (s.fbit F.drayStatus_linkUp = true → t.dray = s.dray) ∧
        (s.fbit F.drayStatus_linkUp = false → t.dray.credited = false ∧ (∀ n : Fin 4, t.rd (R.drayChnGrant n) = 0 ∧ t.rd (R.drayChnUsed n) = 0) ∧
          (t.rd R.drayLinkups).toNat = satAdd 32 (s.rd R.drayLinkups).toNat 1)) ∧
      (∀ p : Fin 2, s.laneUp p = true → ∃ t, exec (.drayLaneDown p) s = .next t ∧ t.laneUp p = false ∧
        (t.fbit F.drayStatus_linkUp = true ↔ t.laneUp (1 - p.val) = true) ∧ t.mem = s.mem ∧ t.out = s.out ∧
        (∀ f, vget s.dray.lane p = some f → f.stream < 4 → vget t.dray.lane p = none ∧ t.dray.resend = s.dray.resend ++ [f] ∧
          t.rd (R.drayChnUsed f.stream) = s.rd (R.drayChnUsed f.stream) - BitVec.ofNat 32 (frameCredits f.bytes.length)) ∧
        (vget s.dray.lane p = none → t.dray = s.dray)) ∧
      (∀ p : Fin 2, s.laneUp p = false → exec (.drayLaneDown p) s = .next s) ∧
      (∀ g : Vector W32 4, s.fbit F.drayStatus_linkUp = true → ∃ t, exec (.creditFrameRx g) s = .next t ∧ t.dray.credited = true ∧
        t.mem = s.mem ∧ t.out = s.out ∧
        (∀ n : Fin 4, t.rd (R.drayChnGrant n) = (if (vget g n - s.rd (R.drayChnUsed n)).toNat > 2 ^ 31 then s.rd (R.drayChnGrant n) else vget g n)) ∧
        (∀ n : Fin 4, t.rd (R.drayChnUsed n) = s.rd (R.drayChnUsed n)) ∧
        (t.rd 0xD010).toNat = satAdd 32 (s.rd 0xD010).toNat
          ((List.range 4).filter (fun n => (vget g n - s.rd (R.drayChnUsed n)).toNat > 2 ^ 31)).length) ∧
      (∀ g, s.fbit F.drayStatus_linkUp = false → exec (.creditFrameRx g) s = .next s)) ∧
  (
    ∀ s : State, s.regsWf = true →
      (∀ lane : Fin 2, s.laneUp lane = true → vget s.dray.lane lane = none → s.dray.credited = true →
        s.streamOn 2 = true → s.streamReady 2 = true → s.flying 2 < 2 → s.drayNeed 2 ≤ s.credit 2 → s.dray.resend = [] →
        ∃ t f, exec (.drayFrameStart lane) s = .next t ∧ vget t.dray.lane lane = some f ∧ f.stream = 2 ∧ t.mem = s.mem ∧
          f.bytes = s.drayBytes 2 (vget s.dray.seq 2) (packRecs frameRoom s.dray.events).1 ∧
          t.dray.events = (packRecs frameRoom s.dray.events).2 ∧ vget t.dray.seq 2 = (vget s.dray.seq 2 + 1) % 2 ^ 32 ∧
          t.rd (R.drayChnUsed 2) = s.rd (R.drayChnUsed 2) + BitVec.ofNat 32 (frameCredits f.bytes.length) ∧ t.out = s.out) ∧
      (∀ (lane : Fin 2) (n : Nat) (f : DrayFrame), s.laneUp lane = true → vget s.dray.lane lane = none → s.dray.credited = true →
        [2, 0, 1, 3].find? (fun n => (s.streamOn n && s.streamReady n && decide (s.flying n < 2)) && decide (s.drayNeed n ≤ s.credit n)) = some n →
        s.dray.resend.find? (fun g => g.stream == n) = some f →
        ∃ t, exec (.drayFrameStart lane) s = .next t ∧ vget t.dray.lane lane = some f ∧ f ∉ t.dray.resend ∧ t.dray.seq = s.dray.seq ∧
          t.dray.events = s.dray.events ∧ t.mem = s.mem ∧ t.out = s.out) ∧
      (∀ lane : Fin 2, (s.laneUp lane = false ∨ (∃ f, vget s.dray.lane lane = some f) ∨ s.dray.credited = false) →
        exec (.drayFrameStart lane) s = .next s) ∧
      (∀ (lane : Fin 2) (f : DrayFrame), vget s.dray.lane lane = some f → f.stream < 4 → f.bulkEnd = none →
        ∃ t, exec (.drayFrameEnd lane) s = .next t ∧ vget t.dray.lane lane = none ∧ t.out = s.out ++ [.drayFrame lane f.bytes] ∧
          t.rd64 (R.drayChnFramesLo f.stream) = s.rd64 (R.drayChnFramesLo f.stream) + 1 ∧
          keepsRegs [R.drayChnFramesLo f.stream, R.drayChnFramesLo f.stream + 4] s t ∧ t.mem = s.mem ∧ t.host = s.host) ∧
      (∀ (lane : Fin 2) (f : DrayFrame) (id : Nat), vget s.dray.lane lane = some f → f.stream < 4 → f.bulkEnd = some id →
        ∃ u : State, exec (.drayFrameEnd lane) s = .next (u.cmdDone id 0 f.frames) ∧ u.out = s.out ++ [.drayFrame lane f.bytes] ∧
          u.host = s.host ∧ u.mem = s.mem) ∧
      (∀ lane : Fin 2, vget s.dray.lane lane = none → exec (.drayFrameEnd lane) s = .next s) ∧
      (∀ n : Fin 4, s.fbit F.drayStatus_linkUp = true → s.streamOn n = true → s.streamReady n = true → s.credit n < s.drayNeed n →
        ∃ t, exec (.drayDry n) s = .next t ∧ t.fbit ⟨R.drayStatus, 2 + n.val, 1⟩ = true ∧ onlyRegs [R.drayStatus] s t) ∧
      (∀ n : Fin 4, s.credit n ≥ s.drayNeed n → exec (.drayDry n) s = .next s))

/-- The selection (R444 to R446, R451). A good selector frame, served and allowed, is to replace it at the next boundary; one that is not good,
comes in the first second or is not allowed is ignored and counted; one that the port does not serve is not seen; a frame of another length,
with a bad check or a period of 0 is not good. A lane is up or down as it reports; without the input lane the selection is to end.
`END_STEP`, written by a master that reaches `OBS_CTRL`, is noted. Frames and memory windows (R447, R449). The oldest records of one stream go
out, in the order collected, with the number of those dropped. A burst that no commit in progress touches, with room in the collector,
reads granted memory as it stands, carries no data where a word is uncorrectable, and none where it is refused; one that a commit touches
waits. -/
def Obligations.ObservationPort : Prop :=
  (
    ∀ (m : Master) (s : State), s.regsWf = true →
      (∀ (b : List Byte) (v : ObsSel), s.obsPort = true → s.fbit F.obsStatus_linkIn = true → s.up = true →
        s.fbit F.pwrStatus_firstSec = false → s.selAllowed = true → readSelector b = some v → ∃ t,
          exec (.selectorFrameRx b) s = .next t ∧ t = { s with obs := t.obs } ∧ t.obs.next = some (some v) ∧ t.obs.sel = s.obs.sel ∧
            t.obs.accepted = true ∧ t.obs.coll = s.obs.coll ∧ t.obs.reads = s.obs.reads ∧ t.obs.traced = s.obs.traced) ∧
      (∀ b : List Byte, s.obsPort = true → s.fbit F.obsStatus_linkIn = true → s.up = true →
        (readSelector b = none ∨ s.fbit F.pwrStatus_firstSec = true ∨ s.selAllowed = false) → ∃ t,
          exec (.selectorFrameRx b) s = .next t ∧ onlyRegs [R.obsIgnored] s t ∧
            (t.rd R.obsIgnored).toNat = satAdd 32 (s.rd R.obsIgnored).toNat 1) ∧
      (∀ b : List Byte, (s.obsPort = false ∨ s.fbit F.obsStatus_linkIn = false) → exec (.selectorFrameRx b) s = .next s) ∧
      (∀ b : List Byte, (b.length ≠ 664 ∨ leNat ((b.drop 660).take 4) ≠ crc32 (b.take 660) ∨ leNat ((b.drop 16).take 2) = 0) →
        readSelector b = none) ∧
      (∀ lane : Fin 2, s.power.chip = true → ∃ t, exec (.obsLaneUp lane) s = .next t ∧ onlyRegs [R.obsStatus] s t ∧
        fieldSet ⟨R.obsStatus, lane, 1⟩ 1 s t) ∧
      (s.fbit ⟨R.obsStatus, 0, 1⟩ = true → ∃ t, exec (.obsLaneDown 0) s = .next t ∧ onlyRegs [R.obsStatus] s t ∧
        fieldSet ⟨R.obsStatus, 0, 1⟩ 0 s t) ∧
      (s.fbit ⟨R.obsStatus, 1, 1⟩ = true → ∃ t, exec (.obsLaneDown 1) s = .next t ∧ fieldSet ⟨R.obsStatus, 1, 1⟩ 0 s t ∧
        t.obs = { s.obs with next := some none } ∧ keepsRegs [R.obsStatus] s t ∧ t.mem = s.mem ∧ t.out = s.out) ∧
      (s.writes m R.obsCtrl → exec (.obsEndStep m) s = .next { s with obs := { s.obs with endStep := true } })) ∧
  (
    ∀ s : State, s.regsWf = true →
      (∀ (r : ObsRec) (rest : List ObsRec), s.obs.coll = r :: rest → s.obsPort = true → s.fbit F.obsStatus_linkOut = true →
        obsSize r ≤ 9196 → ∃ t sent n seq d, exec .observationFrameSend s = .next t ∧ sent ≠ [] ∧ s.obs.coll = sent ++ t.obs.coll ∧
          (∀ x ∈ sent, obsStream x = obsStream r) ∧ t.out = s.out ++ [.obsFrame (0x10 + obsStream r) n seq d sent] ∧
          d = vget s.obs.drops (obsStream r) ∧ vget t.obs.drops (obsStream r) = 0 ∧ t.regs = s.regs ∧ t.mem = s.mem) ∧
      (s.obs.coll = [] ∨ s.obsPort = false ∨ s.fbit F.obsStatus_linkOut = false → exec .observationFrameSend s = .next s) ∧
      (∀ (a n : Nat) (rest : List (Nat × Nat)), s.obs.reads = (a, n) :: rest → s.commitSpan a n = false →
        s.obsRoom (16 + n) = true →
        (s.catDecide clsObs .read a = none → (regionOf a ≠ some .setup ∧ regionOf a ≠ some .cart) → s.mem.badSpan a n = false → ∃ t,
          exec .memoryWindowBurst s = .next t ∧ t.obs.reads = rest ∧ t.obs.coll = s.obs.coll ++ [.burst a 0 (s.view a n)] ∧
            t.mem = s.mem ∧ t.out = s.out) ∧
        (s.catDecide clsObs .read a = none → (regionOf a ≠ some .setup ∧ regionOf a ≠ some .cart) → s.mem.badSpan a n = true → ∃ t,
          exec .memoryWindowBurst s = .next t ∧ t.obs.coll = s.obs.coll ++ [.burst a 2 []] ∧ t.mem = s.mem) ∧
        (∀ k, s.catDecide clsObs .read a = some k → ∃ t, exec .memoryWindowBurst s = .next t ∧ t.obs.reads = rest ∧
          t.obs.coll = s.obs.coll ++ [.burst a 1 []] ∧ t.mem = s.mem)) ∧
      (∀ (a n : Nat) (rest : List (Nat × Nat)), s.obs.reads = (a, n) :: rest →
        s.commitSpan a n = true → exec .memoryWindowBurst s = .next s) ∧
      (s.obs.reads = [] → exec .memoryWindowBurst s = .next s))
end

