-- ==== Sys2Proof/Laws/Store.lean ====
section
/-! SUPPORT. The laws of the sparse store: what a read gives after a write, and that every operation keeps the canonical
form. -/

namespace Sys2Proof.Machine

variable {α : Type} [DecidableEq α]

theorem swfFrom_mono (d : Nat → α) (m : List (Nat × α)) (lo lo' : Nat) (h : lo' ≤ lo) (hw : swfFrom d lo m = true) :
    swfFrom d lo' m = true := by
  cases m with
  | nil => rfl
  | cons e r =>
    simp only [swfFrom, Bool.and_eq_true, decide_eq_true_eq] at hw ⊢
    exact ⟨⟨Nat.le_trans h hw.1.1, hw.1.2⟩, hw.2⟩

/-- A key below the first reads as unlisted. -/
theorem sget_below (d : Nat → α) (m : List (Nat × α)) (lo a : Nat) (ha : a < lo) (hw : swfFrom d lo m = true) :
    sget d m a = d a := by
  induction m generalizing lo with
  | nil => rfl
  | cons e r ih =>
    obtain ⟨k, v⟩ := e
    simp only [swfFrom, Bool.and_eq_true, decide_eq_true_eq] at hw
    have hk : a ≠ k := by omega
    simp only [sget, hk, if_false]
    exact ih (k + 1) (by omega) hw.2

/-- A read of the key written gives the value written. -/
theorem sget_sset_self (d : Nat → α) (m : List (Nat × α)) (a : Nat) (x : α) (lo : Nat) (hw : swfFrom d lo m = true) :
    sget d (sset d m a x) a = x := by
  induction m generalizing lo with
  | nil => by_cases h : x = d a <;> simp [sset, sget, h]
  | cons e r ih =>
    obtain ⟨k, v⟩ := e
    simp only [swfFrom, Bool.and_eq_true, decide_eq_true_eq] at hw
    by_cases h1 : a < k
    · by_cases h : x = d a
      · have hk : a ≠ k := by omega
        simp only [sset, h1, h, if_true, sget, hk, if_false]
        exact sget_below d r (k + 1) a (by omega) hw.2
      · simp [sset, h1, h, sget]
    · by_cases h2 : a = k
      · subst h2
        by_cases h : x = d a
        · simp only [sset, Nat.lt_irrefl, if_false, if_true, h]
          exact sget_below d r (a + 1) a (by omega) hw.2
        · simp [sset, h, sget]
      · simp only [sset, h1, h2, if_false, sget]
        exact ih (k + 1) hw.2

/-- A read of another key gives what it gave. -/
theorem sget_sset_ne (d : Nat → α) (m : List (Nat × α)) (a b : Nat) (x : α) (h : b ≠ a) :
    sget d (sset d m a x) b = sget d m b := by
  induction m with
  | nil => by_cases hx : x = d a <;> simp [sset, sget, hx, h]
  | cons e r ih =>
    obtain ⟨k, v⟩ := e
    by_cases h1 : a < k
    · by_cases hx : x = d a <;> simp [sset, h1, hx, sget, h]
    · by_cases h2 : a = k
      · subst h2
        by_cases hx : x = d a <;> simp [sset, hx, sget, h]
      · by_cases hb : b = k <;> simp [sset, h1, h2, sget, hb, ih]

theorem swfFrom_sset (d : Nat → α) (m : List (Nat × α)) (a : Nat) (x : α) (lo : Nat) (hlo : lo ≤ a)
    (hw : swfFrom d lo m = true) : swfFrom d lo (sset d m a x) = true := by
  induction m generalizing lo with
  | nil => by_cases hx : x = d a <;> simp [sset, swfFrom, hx, hlo]
  | cons e r ih =>
    obtain ⟨k, v⟩ := e
    have hw' := hw
    simp only [swfFrom, Bool.and_eq_true, decide_eq_true_eq] at hw
    by_cases h1 : a < k
    · by_cases hx : x = d a
      · simpa [sset, h1, hx] using hw'
      · simp only [sset, h1, hx, if_true, if_false, swfFrom, Bool.and_eq_true, decide_eq_true_eq]
        exact ⟨⟨hlo, hx⟩, ⟨by omega, hw.1.2⟩, hw.2⟩
    · by_cases h2 : a = k
      · subst h2
        by_cases hx : x = d a
        · simp only [sset, Nat.lt_irrefl, if_false, if_true, hx]
          exact swfFrom_mono d r (a + 1) lo (by omega) hw.2
        · simp only [sset, Nat.lt_irrefl, if_false, if_true, hx, swfFrom, Bool.and_eq_true, decide_eq_true_eq]
          exact ⟨⟨hlo, hx⟩, hw.2⟩
      · simp only [sset, h1, h2, if_false, swfFrom, Bool.and_eq_true, decide_eq_true_eq]
        exact ⟨hw.1, ih (k + 1) (by omega) hw.2⟩

/-- A write keeps the canonical form. -/
theorem swf_sset (d : Nat → α) (m : List (Nat × α)) (a : Nat) (x : α) (hw : swf d m = true) : swf d (sset d m a x) = true :=
  swfFrom_sset d m a x 0 (Nat.zero_le a) hw

theorem swfFrom_filter (d : Nat → α) (p : Nat × α → Bool) (m : List (Nat × α)) (lo : Nat) (hw : swfFrom d lo m = true) :
    swfFrom d lo (m.filter p) = true := by
  induction m generalizing lo with
  | nil => rfl
  | cons e r ih =>
    obtain ⟨k, v⟩ := e
    simp only [swfFrom, Bool.and_eq_true, decide_eq_true_eq] at hw
    by_cases hp : p (k, v) = true
    · simp only [List.filter_cons, hp, if_true, swfFrom, Bool.and_eq_true, decide_eq_true_eq]
      exact ⟨hw.1, ih (k + 1) hw.2⟩
    · simp only [List.filter_cons, hp]
      exact ih lo (swfFrom_mono d r (k + 1) lo (by omega) hw.2)

/-- Dropping entries keeps the canonical form. -/
theorem swf_filter (d : Nat → α) (p : Nat × α → Bool) (m : List (Nat × α)) (hw : swf d m = true) :
    swf d (m.filter p) = true := swfFrom_filter d p m 0 hw

theorem swf_foldl_sset (d : Nat → α) (l : List (Nat × α)) (m : List (Nat × α)) (hw : swf d m = true) :
    swf d (l.foldl (fun m e => sset d m e.1 e.2) m) = true := by
  induction l generalizing m with
  | nil => exact hw
  | cons e r ih => exact ih _ (swf_sset d m e.1 e.2 hw)

/-- Copying a set of keys keeps the canonical form. -/
theorem swf_scopy (d : Nat → α) (p : Nat → Bool) (src dst : List (Nat × α)) (hw : swf d dst = true) :
    swf d (scopy d p src dst) = true := swf_foldl_sset d _ _ (swf_filter d _ dst hw)

theorem sget_self (d : Nat → α) (m : List (Nat × α)) (a : Nat) (x : α) (hw : swf d m = true) : sget d (sset d m a x) a = x :=
  sget_sset_self d m a x 0 hw

/-- A read after a write, in one equation. -/
theorem sget_sset (d : Nat → α) (m : List (Nat × α)) (a b : Nat) (x : α) (hw : swf d m = true) :
    sget d (sset d m a x) b = if b = a then x else sget d m b := by
  by_cases h : b = a
  · subst h; simp [sget_self d m b x hw]
  · simp [h, sget_sset_ne d m a b x h]

end Sys2Proof.Machine
end

