-- ==== Sys2Proof/Laws/Memory.lean ====
section
/-! SUPPORT. The laws of memory: every operation keeps the canonical form, and what a byte reads as after a write. -/

namespace Sys2Proof.Machine

variable {m : Mem}

/-- Memory after reset is canonical. -/
theorem reset_mem_wf : State.reset.mem.wf = true := by decide +kernel

theorem Mem.wf_iff : m.wf = true ↔ swf (fun _ => (0 : Byte)) m.bytes = true ∧ swf (fun _ => (0 : Byte)) m.committed = true ∧
    swf (fun _ => false) m.poison = true ∧ swf (fun _ => false) m.cpoison = true ∧ swf (fun _ => false) m.written = true := by
  simp only [Mem.wf, Bool.and_eq_true, and_assoc]

theorem NSet.wf_add {p : NSet} (a : Nat) (h : swf (fun _ => false) p = true) : swf (fun _ => false) (p.add a) = true :=
  swf_sset _ _ _ _ h
theorem NSet.wf_del {p : NSet} (a : Nat) (h : swf (fun _ => false) p = true) : swf (fun _ => false) (p.del a) = true :=
  swf_sset _ _ _ _ h

/-- What every operation on memory is built from keeps the canonical form. -/
theorem Mem.wf_setByte (a : Nat) (b : Byte) (h : m.wf = true) : (m.setByte a b).wf = true := by
  rw [Mem.wf_iff] at h ⊢; exact ⟨swf_sset _ _ _ _ h.1, h.2⟩

theorem Mem.wf_putBytes (bs : List Byte) (a : Nat) (h : m.wf = true) : (m.putBytes a bs).wf = true := by
  induction bs generalizing m a with
  | nil => exact h
  | cons b r ih => exact ih (a + 1) (Mem.wf_setByte a b h)

theorem Mem.wf_heal (w : Nat) (h : m.wf = true) : (m.heal w).wf = true := by
  rw [Mem.wf_iff] at h ⊢
  refine ⟨h.1, h.2.1, NSet.wf_del w h.2.2.1, h.2.2.2.1, ?_⟩
  simp only [Mem.heal]; split
  · exact NSet.wf_add w h.2.2.2.2
  · exact h.2.2.2.2

theorem Mem.wf_poison (w : Nat) (h : m.wf = true) : { m with poison := m.poison.add w }.wf = true := by
  rw [Mem.wf_iff] at h ⊢; exact ⟨h.1, h.2.1, NSet.wf_add w h.2.2.1, h.2.2.2⟩

theorem Mem.wf_foldl {α : Type} (f : Mem → α → Mem) (hf : ∀ (m : Mem) (x : α), m.wf = true → (f m x).wf = true) (l : List α)
    (h : m.wf = true) : (l.foldl f m).wf = true := by
  induction l generalizing m with
  | nil => exact h
  | cons x r ih => exact ih (hf m x h)

theorem Mem.wf_writeIn (a : Nat) (bs : List Byte) (h : m.wf = true) : (m.writeIn a bs).wf = true := by
  unfold Mem.writeIn
  split
  · exact Mem.wf_heal _ (Mem.wf_putBytes bs a h)
  · split
    · exact Mem.wf_poison _ h
    · exact Mem.wf_putBytes bs a h

theorem Mem.wf_writeWords (n a : Nat) (bs : List Byte) (h : m.wf = true) : (m.writeWords n a bs).wf = true := by
  induction n generalizing m a bs with
  | zero => exact h
  | succ n ih =>
    cases bs with
    | nil => exact h
    | cons b r => exact ih _ _ (Mem.wf_writeIn _ _ h)

/-- A write keeps memory canonical. -/
theorem Mem.wf_write (a : Nat) (bs : List Byte) (h : m.wf = true) : (m.write a bs).wf = true := Mem.wf_writeWords _ a bs h

theorem Mem.wf_fill (a : Nat) (bs : List Byte) (h : m.wf = true) : (m.fill a bs).wf = true :=
  Mem.wf_foldl Mem.heal (fun _ w => Mem.wf_heal w) _ (Mem.wf_putBytes bs a h)

theorem swf_foldl_move (f : Nat → Nat) (l b : List Host.Cell) (h : swf (fun _ => (0 : Byte)) b = true) :
    swf (fun _ => (0 : Byte)) (l.foldl (fun b e => sset (fun _ => 0) b (f e.1) e.2) b) = true := by
  induction l generalizing b with
  | nil => exact h
  | cons e r ih => exact ih _ (swf_sset _ _ _ _ h)

theorem Mem.wf_copySpan (src dst n : Nat) (h : m.wf = true) : (m.copySpan src dst n).wf = true := by
  refine Mem.wf_foldl Mem.heal (fun _ w => Mem.wf_heal w) _ ?_
  rw [Mem.wf_iff] at h ⊢
  exact ⟨swf_foldl_move (fun k => k - src + dst) _ _ (swf_filter _ _ _ h.1), h.2⟩

theorem NSet.wf_addAll {α : Type} (f : α → Nat) (l : List α) (p : NSet) (h : swf (fun _ => false) p = true) :
    swf (fun _ => false) (l.foldl (fun w e => NSet.add w (f e)) p) = true := by
  induction l generalizing p with
  | nil => exact h
  | cons e r ih => exact ih _ (NSet.wf_add _ h)

/-- Powering the core rails, and the clearing of the boot, keep memory canonical. -/
theorem Mem.wf_powerOn (key : Nat) (h : m.wf = true) : (m.powerOn key).wf = true := by
  rw [Mem.wf_iff] at h ⊢
  exact ⟨swf_filter _ _ _ h.1, rfl, swf_filter _ _ _ h.2.2.1, rfl, NSet.wf_addAll (fun e : Nat × Nat => e.1) _ [] rfl⟩

theorem Mem.wf_clearSram (h : m.wf = true) : m.clearSram.wf = true := by
  rw [Mem.wf_iff] at h ⊢
  exact ⟨swf_filter _ _ _ h.1, rfl, swf_filter _ _ _ h.2.2.1, rfl, swf_filter _ _ _ h.2.2.2.2⟩

/-! What a byte reads as. -/

theorem Mem.byte_setByte (a x : Nat) (b : Byte) (h : m.wf = true) : (m.setByte a b).byte x = if x = a then b else m.byte x := by
  rw [Mem.wf_iff] at h; exact sget_sset _ _ _ _ _ h.1

/-- A byte after bytes are put: the one put there, and elsewhere what it was. -/
theorem Mem.byte_putBytes (bs : List Byte) (a x : Nat) (h : m.wf = true) :
    (m.putBytes a bs).byte x = if a ≤ x ∧ x < a + bs.length then bs.getD (x - a) 0 else m.byte x := by
  induction bs generalizing m a with
  | nil => simp only [Mem.putBytes, List.length_nil]; rw [if_neg (by omega)]
  | cons b r ih =>
    simp only [Mem.putBytes, ih (a + 1) (Mem.wf_setByte a b h), Mem.byte_setByte a x b h, List.length_cons]
    by_cases h1 : x = a
    · subst h1; rw [if_neg (by omega), if_pos rfl, if_pos (by omega)]; simp
    · by_cases h2 : a + 1 ≤ x ∧ x < a + 1 + r.length
      · rw [if_pos h2, if_pos (by omega)]
        have e : x - a = (x - (a + 1)) + 1 := by omega
        rw [e, List.getD_cons_succ]
      · rw [if_neg h2, if_neg h1, if_neg (by omega)]

@[simp] theorem Mem.byte_heal (w x : Nat) : (m.heal w).byte x = m.byte x := rfl
@[simp] theorem Mem.tracks_heal (w x : Nat) : (m.heal w).tracks x = m.tracks x := rfl

theorem Mem.byte_heals (l : List Nat) (x : Nat) : (l.foldl Mem.heal m).byte x = m.byte x := by
  induction l generalizing m with
  | nil => rfl
  | cons w r ih => exact ih

/-- An engine's fill writes exactly its bytes. -/
theorem Mem.byte_fill (a x : Nat) (bs : List Byte) (h : m.wf = true) :
    (m.fill a bs).byte x = if a ≤ x ∧ x < a + bs.length then bs.getD (x - a) 0 else m.byte x := by
  rw [Mem.fill, Mem.byte_heals, Mem.byte_putBytes bs a x h]

/-- A write within one word: its bytes, unless the word is uncorrectable and not written whole. -/
theorem Mem.byte_writeIn (a x : Nat) (bs : List Byte) (h : m.wf = true) :
    (m.writeIn a bs).byte x = if (a ≤ x ∧ x < a + bs.length) ∧ ((a % 8 = 0 ∧ bs.length = 8) ∨ m.bad (a / 8) = false)
      then bs.getD (x - a) 0 else m.byte x := by
  unfold Mem.writeIn
  by_cases h1 : a % 8 = 0 ∧ bs.length = 8
  · simp only [h1, and_self, if_true, Mem.byte_heal, true_or, and_true, Mem.byte_putBytes bs a x h]
  · simp only [h1, if_false, false_or]
    by_cases h2 : m.bad (a / 8) = true
    · simp only [h2, if_true]; simp [Mem.byte]
    · have h3 : m.bad (a / 8) = false := by simpa using h2
      simp only [h3, and_true, Mem.byte_putBytes bs a x h, Bool.false_eq_true, if_false]

/-! Writes over many words. -/

theorem Mem.bad_putBytes (bs : List Byte) (a w : Nat) : (m.putBytes a bs).bad w = m.bad w := by
  induction bs generalizing m a with
  | nil => rfl
  | cons b r ih => exact ih (m := m.setByte a b) (a + 1)

/-- A good word stays good when a word is written whole. -/
theorem Mem.bad_heal (w v : Nat) (h : m.wf = true) (hv : m.bad v = false) : (m.heal w).bad v = false := by
  rw [Mem.wf_iff] at h
  simp only [Mem.bad, Bool.or_eq_false_iff, Bool.and_eq_false_iff] at hv ⊢
  constructor
  · simp only [Mem.heal, NSet.has, NSet.del]
    rw [sget_sset _ _ _ _ _ h.2.2.1]
    split
    · rfl
    · exact hv.1
  · rw [Mem.tracks_heal]
    rcases hv.2 with ht | hw
    · exact Or.inl ht
    · simp only [Mem.heal]
      split
      · refine Or.inr ?_
        simp only [NSet.has, NSet.add] at hw ⊢
        rw [sget_sset _ _ _ _ _ h.2.2.2.2]
        split <;> simp_all
      · exact Or.inr hw

theorem Mem.bad_writeIn (a v : Nat) (bs : List Byte) (h : m.wf = true) (hv : m.bad v = false) (ha : m.bad (a / 8) = false) :
    (m.writeIn a bs).bad v = false := by
  unfold Mem.writeIn
  split
  · exact Mem.bad_heal _ _ (Mem.wf_putBytes bs a h) (by rw [Mem.bad_putBytes]; exact hv)
  · rw [if_neg (by simp [ha]), Mem.bad_putBytes]; exact hv

theorem Mem.byte_writeWords (n a x : Nat) (bs : List Byte) (h : m.wf = true) (hn : bs.length + a % 8 ≤ 8 * n)
    (hg : ∀ w, m.bad w = true → w < a / 8 ∨ (a + bs.length + 7) / 8 ≤ w) :
    (m.writeWords n a bs).byte x = if a ≤ x ∧ x < a + bs.length then bs.getD (x - a) 0 else m.byte x := by
  induction n generalizing m a bs with
  | zero =>
    have h0 : bs.length = 0 := by omega
    rw [if_neg (by omega)]; rfl
  | succ n ih =>
    cases bs with
    | nil => simp only [Mem.writeWords, List.length_nil]; rw [if_neg (by omega)]
    | cons b r =>
      have hlen : (b :: r).length = r.length + 1 := rfl
      generalize hbs : b :: r = bs at *
      have hgood : m.bad (a / 8) = false := by
        by_contra hc
        have := hg (a / 8) (by simpa using hc)
        omega
      have e : Mem.writeWords m (n + 1) a bs = Mem.writeWords (m.writeIn a (bs.take (8 - a % 8))) n (a + (8 - a % 8)) (bs.drop (8 - a % 8)) := by
        subst hbs; rfl
      have hw := Mem.wf_writeIn (m := m) a (bs.take (8 - a % 8)) h
      have hg2 : ∀ w, (m.writeIn a (bs.take (8 - a % 8))).bad w = true →
          w < (a + (8 - a % 8)) / 8 ∨ (a + (8 - a % 8) + (bs.drop (8 - a % 8)).length + 7) / 8 ≤ w := by
        intro w hb
        have hb2 : m.bad w = true := by
          by_contra hc
          have := Mem.bad_writeIn (m := m) a w (bs.take (8 - a % 8)) h (by simpa using hc) hgood
          rw [this] at hb; cases hb
        rcases hg w hb2 with h1 | h1
        · left; omega
        · by_cases hs : bs.length ≤ 8 - a % 8
          · by_cases hww : w < (a + (8 - a % 8)) / 8
            · exact Or.inl hww
            · right
              have : (bs.drop (8 - a % 8)).length = 0 := by rw [List.length_drop]; omega
              omega
          · right; rw [List.length_drop]; omega
      rw [e, ih (a + (8 - a % 8)) (bs.drop (8 - a % 8)) hw (by rw [List.length_drop]; omega) hg2,
        Mem.byte_writeIn a x _ h]
      simp only [hgood, or_true, and_true, List.length_drop, List.length_take]
      by_cases h1 : a + (8 - a % 8) ≤ x ∧ x < a + (8 - a % 8) + (bs.length - (8 - a % 8))
      · rw [if_pos h1, if_pos (by omega), List.getD_eq_getElem?_getD, List.getD_eq_getElem?_getD, List.getElem?_drop]
        congr 2; omega
      · rw [if_neg h1]
        by_cases h2 : a ≤ x ∧ x < a + min (8 - a % 8) bs.length
        · rw [if_pos h2, if_pos (by omega), List.getD_eq_getElem?_getD, List.getD_eq_getElem?_getD,
            List.getElem?_take_of_lt (by omega)]
        · rw [if_neg h2, if_neg (by omega)]

/-- A write over words that are all good writes exactly its bytes. -/
theorem Mem.byte_write (a x : Nat) (bs : List Byte) (h : m.wf = true)
    (hg : ∀ w, m.bad w = true → w < a / 8 ∨ (a + bs.length + 7) / 8 ≤ w) :
    (m.write a bs).byte x = if a ≤ x ∧ x < a + bs.length then bs.getD (x - a) 0 else m.byte x :=
  Mem.byte_writeWords _ a x bs h (by omega) hg

end Sys2Proof.Machine
end

