-- ==== Sys2Proof/Laws/Regs.lean ====
section
/-! SUPPORT. The laws of registers and fields: what a read gives after a write of the same register or field, and that
every other one reads as before. -/

namespace Sys2Proof.Machine

/-! Fields of a number. -/

/-- A number is what stands above, in and below a field. -/
theorem fld_split (x lo w : Nat) : x = x / 2 ^ (lo + w) * 2 ^ (lo + w) + fldN x lo w * 2 ^ lo + x % 2 ^ lo := by
  have h1 := Nat.div_add_mod x (2 ^ lo)
  have h2 := Nat.div_add_mod (x / 2 ^ lo) (2 ^ w)
  have h3 : x / 2 ^ lo / 2 ^ w = x / 2 ^ (lo + w) := by rw [Nat.div_div_eq_div_mul, ← Nat.pow_add]
  rw [h3] at h2
  have : x / 2 ^ (lo + w) * 2 ^ (lo + w) = 2 ^ lo * (2 ^ w * (x / 2 ^ (lo + w))) := by
    rw [Nat.pow_add]; ring
  unfold fldN
  calc x = 2 ^ lo * (x / 2 ^ lo) + x % 2 ^ lo := h1.symm
    _ = 2 ^ lo * (2 ^ w * (x / 2 ^ (lo + w)) + x / 2 ^ lo % 2 ^ w) + x % 2 ^ lo := by rw [h2]
    _ = _ := by rw [this]; ring

theorem setFldN_split (x lo w v : Nat) :
    setFldN x lo w v = x / 2 ^ (lo + w) * 2 ^ (lo + w) + v % 2 ^ w * 2 ^ lo + x % 2 ^ lo := by
  have h := fld_split x lo w
  unfold setFldN
  generalize x / 2 ^ (lo + w) * 2 ^ (lo + w) = A at h ⊢
  generalize fldN x lo w * 2 ^ lo = B at h ⊢
  generalize x % 2 ^ lo = C at h ⊢
  generalize v % 2 ^ w * 2 ^ lo = D
  omega

/-- The number with its three parts, read at the field. -/
theorem fldN_parts (h f l lo w : Nat) (hf : f < 2 ^ w) (hl : l < 2 ^ lo) : fldN (h * 2 ^ (lo + w) + f * 2 ^ lo + l) lo w = f := by
  have e : h * 2 ^ (lo + w) + f * 2 ^ lo + l = l + (f + h * 2 ^ w) * 2 ^ lo := by rw [Nat.pow_add]; ring
  unfold fldN
  rw [e, Nat.add_mul_div_right _ _ (Nat.two_pow_pos lo), Nat.div_eq_of_lt hl, Nat.zero_add, Nat.add_mul_mod_self_right,
    Nat.mod_eq_of_lt hf]

theorem fldN_setFldN (x lo w v : Nat) : fldN (setFldN x lo w v) lo w = v % 2 ^ w := by
  rw [setFldN_split]
  exact fldN_parts _ _ _ lo w (Nat.mod_lt _ (Nat.two_pow_pos w)) (Nat.mod_lt _ (Nat.two_pow_pos lo))

/-- A field below another reads as before. -/
theorem fldN_setFldN_below (x lo w v lo' w' : Nat) (h : lo' + w' ≤ lo) :
    fldN (setFldN x lo w v) lo' w' = fldN x lo' w' := by
  have key : ∀ y : Nat, fldN y lo' w' = fldN (y % 2 ^ lo) lo' w' := by
    intro y
    unfold fldN
    have e : 2 ^ lo = 2 ^ lo' * 2 ^ (lo - lo') := by rw [← Nat.pow_add]; congr 1; omega
    rw [e, Nat.mod_mul_right_div_self]
    exact (Nat.mod_mod_of_dvd _ (Nat.pow_dvd_pow 2 (by omega))).symm
  rw [key, key x, setFldN_split]
  congr 1
  have e : x / 2 ^ (lo + w) * 2 ^ (lo + w) + v % 2 ^ w * 2 ^ lo + x % 2 ^ lo
      = x % 2 ^ lo + (x / 2 ^ (lo + w) * 2 ^ w + v % 2 ^ w) * 2 ^ lo := by rw [Nat.pow_add]; ring
  rw [e, Nat.add_mul_mod_self_right, Nat.mod_mod]

/-- A field above another reads as before. -/
theorem fldN_setFldN_above (x lo w v lo' w' : Nat) (h : lo + w ≤ lo') :
    fldN (setFldN x lo w v) lo' w' = fldN x lo' w' := by
  have key : ∀ y : Nat, fldN y lo' w' = fldN (y / 2 ^ (lo + w)) (lo' - (lo + w)) w' := by
    intro y
    unfold fldN
    rw [Nat.div_div_eq_div_mul, ← Nat.pow_add]
    congr 3; omega
  rw [key, key x, setFldN_split]
  congr 1
  have hlt : v % 2 ^ w * 2 ^ lo + x % 2 ^ lo < 2 ^ (lo + w) := by
    have h1 := Nat.mod_lt v (Nat.two_pow_pos w)
    have h2 := Nat.mod_lt x (Nat.two_pow_pos lo)
    calc v % 2 ^ w * 2 ^ lo + x % 2 ^ lo < v % 2 ^ w * 2 ^ lo + 2 ^ lo := by omega
      _ = (v % 2 ^ w + 1) * 2 ^ lo := by ring
      _ ≤ 2 ^ w * 2 ^ lo := Nat.mul_le_mul_right _ h1
      _ = 2 ^ (lo + w) := by rw [Nat.pow_add]; ring
  rw [Nat.add_assoc, Nat.add_comm, Nat.add_mul_div_right _ _ (Nat.two_pow_pos _), Nat.div_eq_of_lt hlt, Nat.zero_add]

theorem setFldN_lt (x lo w v n : Nat) (hx : x < 2 ^ n) (hw : lo + w ≤ n) : setFldN x lo w v < 2 ^ n := by
  rw [setFldN_split]
  have hlt : v % 2 ^ w * 2 ^ lo + x % 2 ^ lo < 2 ^ (lo + w) := by
    have h1 := Nat.mod_lt v (Nat.two_pow_pos w)
    have h2 := Nat.mod_lt x (Nat.two_pow_pos lo)
    calc v % 2 ^ w * 2 ^ lo + x % 2 ^ lo < v % 2 ^ w * 2 ^ lo + 2 ^ lo := by omega
      _ = (v % 2 ^ w + 1) * 2 ^ lo := by ring
      _ ≤ 2 ^ w * 2 ^ lo := Nat.mul_le_mul_right _ h1
      _ = 2 ^ (lo + w) := by rw [Nat.pow_add]; ring
  have e : 2 ^ n = 2 ^ (n - (lo + w)) * 2 ^ (lo + w) := by rw [← Nat.pow_add]; congr 1; omega
  have hd : x / 2 ^ (lo + w) < 2 ^ (n - (lo + w)) := by
    rw [Nat.div_lt_iff_lt_mul (Nat.two_pow_pos _), ← e]; exact hx
  calc x / 2 ^ (lo + w) * 2 ^ (lo + w) + v % 2 ^ w * 2 ^ lo + x % 2 ^ lo
      < x / 2 ^ (lo + w) * 2 ^ (lo + w) + 2 ^ (lo + w) := by omega
    _ = (x / 2 ^ (lo + w) + 1) * 2 ^ (lo + w) := by ring
    _ ≤ 2 ^ (n - (lo + w)) * 2 ^ (lo + w) := Nat.mul_le_mul_right _ hd
    _ = 2 ^ n := e.symm

/-! Registers. -/

variable {s : State} {off off' : Nat} {v : W32}

/-- A write of a register keeps the register store canonical. -/
@[simp] theorem regsWf_wr (h : s.regsWf = true) : (s.wr off v).regsWf = true := by
  simp only [State.regsWf, Bool.and_eq_true] at h ⊢
  exact ⟨swf_sset _ _ _ _ h.1, h.2⟩

@[simp] theorem rd_wr_self (h : s.regsWf = true) : (s.wr off v).rd off = v := by
  simp only [State.regsWf, Bool.and_eq_true] at h
  exact sget_self _ _ _ _ h.1

theorem rd_wr_ne (h : off' ≠ off) : (s.wr off v).rd off' = s.rd off' := sget_sset_ne _ _ _ _ _ h

/-- A read after a write, in one equation. -/
theorem rd_wr (h : s.regsWf = true) : (s.wr off v).rd off' = if off' = off then v else s.rd off' := by
  by_cases e : off' = off
  · subst e; simp [h]
  · simp [e, rd_wr_ne e]

/-- A register written: every other register reads as before. -/
theorem keepsRegs_wr {l : List Nat} (h : off ∈ l) : keepsRegs l s (s.wr off v) :=
  fun _ ho => rd_wr_ne (fun e => ho (e ▸ h))

theorem keepsRegs_trans {l : List Nat} {s t u : State} (h1 : keepsRegs l s t) (h2 : keepsRegs l t u) : keepsRegs l s u :=
  fun o ho => (h2 o ho).trans (h1 o ho)

theorem keepsRegs_mono {l l' : List Nat} {s t : State} (hl : ∀ o ∈ l, o ∈ l') (h : keepsRegs l s t) : keepsRegs l' s t :=
  fun o ho => h o (fun e => ho (hl o e))

theorem keepsRegs_refl (l : List Nat) (s : State) : keepsRegs l s s := fun _ _ => rfl

/-! Fields. -/

@[simp] theorem regsWf_fset {f : Field} {n : Nat} (h : s.regsWf = true) : (s.fset f n).regsWf = true := regsWf_wr h

/-- A field reads as it was set, cut to its width. -/
theorem fget_fset {f : Field} {n : Nat} (h : s.regsWf = true) (hw : f.lo + f.width ≤ 32) :
    (s.fset f n).fget f = n % 2 ^ f.width := by
  have hlt := setFldN_lt (s.rd f.off).toNat f.lo f.width n 32 (s.rd f.off).isLt hw
  simp only [State.fget, State.fset, rd_wr_self h, BitVec.toNat_ofNat, Nat.mod_eq_of_lt hlt, fldN_setFldN]

/-- A field that shares no bit with the one set reads as before. -/
theorem fget_fset_ne {f g : Field} {n : Nat} (h : s.regsWf = true) (hw : f.lo + f.width ≤ 32)
    (hd : g.off ≠ f.off ∨ g.lo + g.width ≤ f.lo ∨ f.lo + f.width ≤ g.lo) : (s.fset f n).fget g = s.fget g := by
  by_cases e : g.off = f.off
  · have hlt := setFldN_lt (s.rd f.off).toNat f.lo f.width n 32 (s.rd f.off).isLt hw
    simp only [State.fget, State.fset, e, rd_wr_self h, BitVec.toNat_ofNat, Nat.mod_eq_of_lt hlt]
    rcases hd with hd | hd | hd
    · exact absurd e hd
    · exact fldN_setFldN_below _ _ _ _ _ _ hd
    · exact fldN_setFldN_above _ _ _ _ _ _ hd
  · simp only [State.fget, State.fset, rd_wr_ne e]

theorem rd_fset_ne {f : Field} {n : Nat} (h : off ≠ f.off) : (s.fset f n).rd off = s.rd off := rd_wr_ne h

/-- A bit reads as it was set. -/
theorem fbit_fsetb {f : Field} {b : Bool} (h : s.regsWf = true) (hw : f.lo + f.width ≤ 32) (h1 : f.width = 1) :
    (s.fsetb f b).fbit f = b := by
  simp only [State.fbit, State.fsetb, fget_fset h hw, h1]
  cases b <;> rfl

/-! Lists of registers set to zero. -/

theorem regsWf_zero (l : List Nat) (h : s.regsWf = true) : (s.zero l).regsWf = true := by
  induction l generalizing s with
  | nil => exact h
  | cons o r ih => exact ih (regsWf_wr h)

theorem rd_zero (l : List Nat) (h : s.regsWf = true) (o : Nat) : (s.zero l).rd o = if o ∈ l then 0 else s.rd o := by
  induction l generalizing s with
  | nil => simp [State.zero]
  | cons a r ih =>
    have e : s.zero (a :: r) = (s.wr a 0).zero r := rfl
    rw [e, ih (regsWf_wr h), rd_wr h]
    by_cases h1 : o ∈ r <;> by_cases h2 : o = a <;> simp [h1, h2]

theorem zero_frame (l : List Nat) (s : State) : s.zero l = { s with regs := (s.zero l).regs } := by
  induction l generalizing s with
  | nil => rfl
  | cons a r ih =>
    have e : s.zero (a :: r) = (s.wr a 0).zero r := rfl
    rw [e, ih]; rfl

theorem keepsRegs_zero (l : List Nat) (s : State) : keepsRegs l s (s.zero l) := by
  induction l generalizing s with
  | nil => exact keepsRegs_refl _ _
  | cons a r ih =>
    have e : s.zero (a :: r) = (s.wr a 0).zero r := rfl
    rw [e]
    exact keepsRegs_trans (keepsRegs_wr (by simp)) (keepsRegs_mono (by simp +contextual) (ih _))

/-- `zero` does what it says and nothing else. -/
theorem onlyRegs_zero (l : List Nat) (s : State) : onlyRegs l s (s.zero l) := ⟨zero_frame l s, keepsRegs_zero l s⟩

end Sys2Proof.Machine
end

