-- ==== Sys2Proof/Laws/Keeps.lean ====
section
/-! SUPPORT. What every shared operation keeps: the canonical form of memory and registers, the queue, and what was sent. -/

namespace Sys2Proof.Machine

/-- From `s` to `t` the model's invariant is kept, the queue is the same, and what was sent stays sent. -/
def Keeps (s t : State) : Prop := (s.Inv → t.Inv) ∧ t.pending = s.pending ∧ ∃ more, t.out = s.out ++ more

variable {s t u : State}

theorem Keeps.refl (s : State) : Keeps s s := ⟨id, rfl, [], (List.append_nil _).symm⟩

theorem Keeps.trans (h1 : Keeps s t) (h2 : Keeps t u) : Keeps s u := by
  obtain ⟨i1, p1, m1, e1⟩ := h1
  obtain ⟨i2, p2, m2, e2⟩ := h2
  exact ⟨i2 ∘ i1, p2.trans p1, m1 ++ m2, by rw [e2, e1, List.append_assoc]⟩

theorem Keeps.ite {c : Prop} [Decidable c] (h1 : Keeps s t) (h2 : Keeps s u) : Keeps s (if c then t else u) := by
  split <;> assumption

/-- A step over a list. -/
theorem Keeps.foldl {α : Type} (f : State → α → State) (hf : ∀ (s : State) (x : α), Keeps s (f s x)) (l : List α) (s : State) :
    Keeps s (l.foldl f s) := by
  induction l generalizing s with
  | nil => exact Keeps.refl s
  | cons x r ih => exact (hf s x).trans (ih _)

/-- An update of anything but memory, registers, the queue and what was sent. -/
theorem Keeps.same (hm : t.mem = s.mem) (hr : t.regs = s.regs) (ha : t.act = s.act) (hp : t.pending = s.pending) (ho : t.out = s.out) :
    Keeps s t := by
  refine ⟨fun h => ?_, hp, [], by rw [ho, List.append_nil]⟩
  simpa only [State.Inv, State.regsWf, hm, hr, ha] using h

/-- An update of memory alone. -/
theorem Keeps.mem {m : Mem} (h : s.mem.wf = true → m.wf = true) : Keeps s { s with mem := m } :=
  ⟨fun i => ⟨h i.1, i.2⟩, rfl, [], (List.append_nil _).symm⟩

/-- A following update of anything else. -/
theorem Keeps.then_same (h : Keeps s t) (hm : u.mem = t.mem) (hr : u.regs = t.regs) (ha : u.act = t.act)
    (hp : u.pending = t.pending) (ho : u.out = t.out) : Keeps s u := h.trans (Keeps.same hm hr ha hp ho)

/-! Registers. -/

theorem keeps_wr (s : State) (off : Nat) (v : W32) : Keeps s (s.wr off v) :=
  ⟨fun h => ⟨h.1, regsWf_wr h.2⟩, rfl, [], (List.append_nil _).symm⟩
theorem keeps_fset (s : State) (f : Field) (n : Nat) : Keeps s (s.fset f n) := keeps_wr s _ _
theorem keeps_fsetb (s : State) (f : Field) (b : Bool) : Keeps s (s.fsetb f b) := keeps_wr s _ _
theorem keeps_bumpBy (s : State) (off k : Nat) : Keeps s (s.bumpBy off k) := keeps_wr s _ _
theorem keeps_bump (s : State) (off : Nat) : Keeps s (s.bump off) := keeps_wr s _ _
theorem keeps_bumpF (s : State) (f : Field) : Keeps s (s.bumpF f) := keeps_wr s _ _
theorem keeps_wr64 (s : State) (lo : Nat) (v : W64) : Keeps s (s.wr64 lo v) := (keeps_wr s _ _).trans (keeps_wr _ _ _)
theorem keeps_zero (s : State) (l : List Nat) : Keeps s (s.zero l) := Keeps.foldl _ (fun s o => keeps_wr s o 0) l s
theorem keeps_ignoredIn (s : State) (b : Nat) : Keeps s (s.ignoredIn b) := keeps_wr s _ _
theorem keeps_setMod (s : State) (m : ModState) : Keeps s (s.setMod m) := keeps_wr s _ _

/-! Memory. -/

theorem keeps_wrMem (s : State) (a : Nat) (bs : List Byte) : Keeps s (s.wrMem a bs) := Keeps.mem (Mem.wf_write a bs)
theorem keeps_wrLe (s : State) (a n v : Nat) : Keeps s (s.wrLe a n v) := keeps_wrMem s a _

/-! Outputs, open values, records, events. -/

theorem keeps_emit (s : State) (o : Out) : Keeps s (s.emit o) := ⟨id, rfl, [o], rfl⟩
theorem keeps_take (s : State) : Keeps s s.take.2 := Keeps.same rfl rfl rfl rfl rfl
theorem keeps_raise (s : State) (h : Hap) (n : Nat) (ps : List W64) : Keeps s (s.raise h n ps) := Keeps.same rfl rfl rfl rfl rfl

theorem Keeps.raised {h : Hap} {n : Nat} {ps : List W64} (k : Keeps s t) : Keeps s (t.raise h n ps) := k.trans (keeps_raise t h n ps)

theorem keeps_queueEvent (s : State) (code : Nat) (src : W32) (ps : List W64) : Keeps s (s.queueEvent code src ps) := by
  unfold State.queueEvent
  refine Keeps.ite (Keeps.same rfl rfl rfl rfl rfl) (Keeps.ite ?_ ?_)
  · exact ((Keeps.same (s := s) rfl rfl rfl rfl rfl).trans (keeps_wr _ _ _)).trans (keeps_fsetb _ _ _)
  · exact (Keeps.same (s := s) rfl rfl rfl rfl rfl).trans (keeps_bump _ _)

theorem keeps_event (s : State) (code b n : Nat) (ps : List W64) : Keeps s (s.event code b n ps) :=
  Keeps.ite (keeps_queueEvent s _ _ _) (keeps_raise s _ _ _)

theorem keeps_obsCountBy (s : State) (code k : Nat) : Keeps s (s.obsCountBy code k) :=
  Keeps.ite (Keeps.refl s) (Keeps.foldl _ (fun s _ => keeps_wr s _ _) _ s)
theorem keeps_obsCount (s : State) (code : Nat) : Keeps s (s.obsCount code) := keeps_obsCountBy s code 1

theorem keeps_obsCollect (s : State) (r : ObsRec) : Keeps s (s.obsCollect r) :=
  Keeps.ite (Keeps.same rfl rfl rfl rfl rfl) ((Keeps.same (s := s) rfl rfl rfl rfl rfl).trans (keeps_bump _ _))

/-! The pair. -/

theorem keeps_send (s : State) (o : Out) : Keeps s (s.send o) := by
  unfold State.send
  have h : Keeps s { s with pair := { s.pair with msgs := s.pair.msgs ++ [{ id := s.pair.msgCount, body := o }]
                                                  msgCount := s.pair.msgCount + 1 } } := Keeps.same rfl rfl rfl rfl rfl
  exact Keeps.ite (h.trans (keeps_emit _ _)) h

theorem keeps_sendOnce (s : State) (o : Out) : Keeps s (s.sendOnce o) := Keeps.ite (keeps_emit s o) (Keeps.refl s)

theorem keeps_stopAudit (s : State) : Keeps s s.stopAudit := (Keeps.same rfl rfl rfl rfl rfl).trans (keeps_fset _ _ _)

theorem keeps_enter (s : State) (m : ModState) : Keeps s (s.enter m) :=
  have h := ((keeps_stopAudit s).trans (keeps_setMod _ m)).trans (keeps_raise _ _ _ _)
  Keeps.ite (Keeps.refl s) (h.trans (Keeps.ite (keeps_emit _ _) (Keeps.refl _)))

theorem keeps_canDiscard (s : State) (n : Nat) : Keeps s (s.canDiscard n) := Keeps.same rfl rfl rfl rfl rfl

theorem keeps_canLeave (s : State) (n : Nat) : Keeps s (s.canLeave n) := Keeps.same rfl rfl rfl rfl rfl

theorem keeps_canPermitPort (s : State) (n : Nat) : Keeps s (s.canPermitPort n) := by
  unfold State.canPermitPort
  extract_lets f was a b c
  have ha : Keeps s a := Keeps.ite (keeps_canLeave s n) (Keeps.refl s)
  have hb : Keeps s b := ha.trans (Keeps.ite (keeps_canDiscard a n) (Keeps.refl a))
  have hc : Keeps s c := hb.trans (keeps_fsetb b _ _)
  clear_value c
  exact hc.trans (Keeps.ite (keeps_fset _ _ _) (Keeps.ite (keeps_fset _ _ _) (Keeps.refl _)))

theorem keeps_canPermit (s : State) : Keeps s s.canPermit := Keeps.foldl _ keeps_canPermitPort _ s

theorem keeps_markDirty (s : State) (a n : Nat) : Keeps s (s.markDirty a n) := Keeps.same rfl rfl rfl rfl rfl

/-! Accesses. -/

theorem keeps_badAccess (s : State) (cls off : Nat) (w h : Bool) : Keeps s (s.badAccess cls off w h) :=
  (keeps_bump s _).trans (keeps_wr _ _ _)

theorem keeps_catRefuse (s : State) (cls m : Nat) (k : AccKind) (a c : Nat) : Keeps s (s.catRefuse cls m k a c) := by
  unfold State.catRefuse
  have h : Keeps s (if (s.bump (R.catClmFaults cls)).fbit F.catStatus_fault then s.bump (R.catClmFaults cls) else
      (((s.bump (R.catClmFaults cls)).wr64 R.catFaultLo (BitVec.ofNat 64 a)).wr R.catFaultInfo
        (BitVec.ofNat 32 (cls + m * 8 + accCode k * 256 + c * 1024 + 4096))).fset F.catStatus_fault 1) :=
    (keeps_bump s _).trans (Keeps.ite (Keeps.refl _) (((keeps_wr64 _ _ _).trans (keeps_wr _ _ _)).trans (keeps_fset _ _ _)))
  refine Keeps.trans h (Keeps.ite (Keeps.same rfl rfl rfl rfl rfl) ?_)
  exact Keeps.raised (Keeps.same rfl rfl rfl rfl rfl)

/-- An access that the CAT decides. -/
theorem keeps_catAccess (s : State) (cls m : Nat) (k : AccKind) (a : Nat) : Keeps s (s.catAccess cls m k a).1 := by
  unfold State.catAccess
  cases s.catDecide cls k a with
  | none => exact Keeps.refl s
  | some c => exact keeps_catRefuse s cls m k a c

/-! The way of a master's write to a setup register. -/

theorem keeps_setupAccess (s : State) (m : Master) (k : AccKind) (off : Nat) : Keeps s (s.setupAccess m k off).1 := by
  unfold State.setupAccess
  simp only
  split
  · exact (keeps_catRefuse _ _ _ _ _ _).trans (keeps_ignoredIn _ _)
  · split
    · exact keeps_catAccess _ _ _ _ _
    · exact Keeps.raised (keeps_catAccess _ _ _ _ _)

/-- A write that reaches its register, or that does not. -/
theorem keeps_asWrite {m : Master} {off : Nat} {f : State → State} (hf : ∀ s, Keeps s (f s)) (h : s.asWrite m off f = .next t) :
    Keeps s t := by
  unfold State.asWrite at h
  split at h
  · cases h; exact Keeps.refl s
  · cases h
    exact (keeps_setupAccess s m .write off).trans (Keeps.ite (hf _) (Keeps.refl _))

/-! The island as its registers show it. -/

theorem keeps_showCh (s : State) (n : Nat) : Keeps s (s.showCh n) := keeps_wr s _ _
theorem keeps_showLp (s : State) (n : Nat) : Keeps s (s.showLp n) := ((keeps_wr s _ _).trans (keeps_wr _ _ _)).trans (keeps_wr _ _ _)

theorem keeps_showIsland (s : State) : Keeps s s.showIsland := by
  unfold State.showIsland
  refine Keeps.ite (Keeps.refl s) ?_
  refine Keeps.trans ?_ (keeps_wr _ _ _)
  refine Keeps.trans ?_ (keeps_fsetb _ _ _)
  refine Keeps.trans ?_ (keeps_fsetb _ _ _)
  refine Keeps.trans ?_ (keeps_fsetb _ _ _)
  refine Keeps.trans ?_ (keeps_fsetb _ _ _)
  refine Keeps.trans ?_ (keeps_fsetb _ _ _)
  refine Keeps.trans ?_ (keeps_fsetb _ _ _)
  refine Keeps.trans ?_ (keeps_fsetb _ _ _)
  refine Keeps.trans ?_ (keeps_fsetb _ _ _)
  refine Keeps.trans ?_ (keeps_fsetb _ _ _)
  refine Keeps.trans ?_ (keeps_wr _ _ _)
  refine Keeps.trans ?_ (keeps_wr _ _ _)
  refine Keeps.trans ?_ (keeps_wr _ _ _)
  refine Keeps.trans ?_ (keeps_wr _ _ _)
  exact (Keeps.foldl _ keeps_showCh _ s).trans (Keeps.foldl _ keeps_showLp _ _)

end Sys2Proof.Machine
end

