-- ==== Sys2Proof/Laws/Access.lean ====
section
/-! SUPPORT. What a master's write to a setup register can do: everything of `State.asWrite` said once. -/

namespace Sys2Proof.Machine

variable {s t : State} {m : Master} {off : Nat} {f : State → State}

/-- The words of an entry are the effective ones, but where it takes effect early. -/
theorem catWords_eq (e : Nat) : s.catWords e = if Config.catEarly e then s.cat.committed else s.cat.eff := by
  unfold State.catWords
  by_cases h : s.cat.committed = s.cat.eff <;> simp [h]

/-- An access that the window is open to and the CAT grants leaves the state as it is. -/
theorem setupAccess_granted {k : AccKind} (ho : s.barShut m off = false)
    (hc : s.catDecide (masterCls m) k (0x10000000 + off) = none) : s.setupAccess m k off = (s, true) := by
  simp [State.setupAccess, ho, State.catAccess, hc]

/-- An access that the CAT refuses does not pass. -/
theorem setupAccess_refused {k : AccKind} {c : Nat} (hc : s.catDecide (masterCls m) k (0x10000000 + off) = some c) :
    (s.setupAccess m k off).2 = false := by
  unfold State.setupAccess State.catAccess
  simp only [hc]
  split <;> (try split) <;> rfl

/-- A write that reaches its register has its effect, and no other. -/
theorem asWrite_writes (h : s.writes m off) : s.asWrite m off f = .next (f s) := by
  obtain ⟨hr, ho, hc⟩ := h
  simp [State.asWrite, hr, setupAccess_granted ho hc]

/-- A write of a master that does not run does nothing (R20, R35). -/
theorem asWrite_dead (h : s.masterRuns m = false) : s.asWrite m off f = .next s := by
  simp [State.asWrite, h]

/-- A write that the CAT refuses changes nothing but what the refusal leaves. -/
theorem asWrite_refused {c : Nat} (hr : s.masterRuns m = true)
    (hc : s.catDecide (masterCls m) .write (0x10000000 + off) = some c) :
    s.asWrite m off f = .next (s.setupAccess m .write off).1 := by
  simp [State.asWrite, hr, setupAccess_refused hc]

/-- Whatever the CAT decides, a write completes. -/
theorem asWrite_next : ∃ t, s.asWrite m off f = .next t := by
  unfold State.asWrite
  split <;> exact ⟨_, rfl⟩

end Sys2Proof.Machine
end

