-- ==== Sys2Proof/Laws/Dispatch.lean ====
section
/-! SUPPORT. What the dispatch answers for each command: its meaning. -/

namespace Sys2Proof.Machine

variable (s : State)

theorem exec_setupWrite (m : Master) (off size : Nat) (v : W32) : exec (.setupWrite m off size v) s = execSetupWrite m off size v s := rfl
theorem exec_readLoLatch (m : Master) (off size : Nat) : exec (.readLoLatch m off size) s = execReadLoLatch m off size s := rfl
theorem exec_w1cClear (m : Master) (v : W32) (hwSet : Bool) : exec (.w1cClear m v hwSet) s = execW1cClear m v hwSet s := rfl
theorem exec_blockApply (m : Master) (b : Fin 22) (plan : Option RingPlan) : exec (.blockApply m b plan) s = execBlockApply m b plan s := rfl
theorem exec_planActivation (b : Fin 22) : exec (.planActivation b) s = execPlanActivation b s := rfl
theorem exec_tcWrite (m : Master) (off : BitVec 12) : exec (.tcWrite m off) s = execTcWrite m off s := rfl
theorem exec_clusterClockGate (c : Fin 4) : exec (.clusterClockGate c) s = execClusterClockGate c s := rfl
theorem exec_clusterPllPowerDown (c : Fin 4) : exec (.clusterPllPowerDown c) s = execClusterPllPowerDown c s := rfl
theorem exec_clusterPllRelockStart (c : Fin 4) : exec (.clusterPllRelockStart c) s = execClusterPllRelockStart c s := rfl
theorem exec_clusterPllLocked (c : Fin 4) : exec (.clusterPllLocked c) s = execClusterPllLocked c s := rfl
theorem exec_pllLossOfLock (c : Fin 4) : exec (.pllLossOfLock c) s = execPllLossOfLock c s := rfl
theorem exec_clusterReenter (c : Fin 4) : exec (.clusterReenter c) s = execClusterReenter c s := rfl
theorem exec_ocxoFailure : exec .ocxoFailure s = execOcxoFailure s := rfl
theorem exec_ocxoRecovery (outage : Nat) : exec (.ocxoRecovery outage) s = execOcxoRecovery outage s := rfl
theorem exec_mcLockstepMismatch : exec .mcLockstepMismatch s = execMcLockstepMismatch s := rfl
theorem exec_mcSelftestComplete (pass : Bool) : exec (.mcSelftestComplete pass) s = execMcSelftestComplete pass s := rfl
theorem exec_fBoundary : exec .fBoundary s = execFBoundary s := rfl
theorem exec_fImageComplete : exec .fImageComplete s = execFImageComplete s := rfl
theorem exec_errorBudgetExpiry : exec .errorBudgetExpiry s = execErrorBudgetExpiry s := rfl
theorem exec_nsImageComplete (k : Fin 2) : exec (.nsImageComplete k) s = execNsImageComplete k s := rfl
theorem exec_errorEventRaised (code : BitVec 16) (block : Fin 22) (unit : BitVec 8) (ps : Vector W64 4) : exec (.errorEventRaised code block unit ps) s = execErrorEventRaised code block unit ps s := rfl
theorem exec_classCommit : exec .classCommit s = execClassCommit s := rfl
theorem exec_copyEnd : exec .copyEnd s = execCopyEnd s := rfl
theorem exec_carryOverComplete (undoUe : Option Nat) : exec (.carryOverComplete undoUe) s = execCarryOverComplete undoUe s := rfl
theorem exec_carryOverDeadline (undoUe : Option Nat) : exec (.carryOverDeadline undoUe) s = execCarryOverDeadline undoUe s := rfl
theorem exec_switchWaitExpiry : exec .switchWaitExpiry s = execSwitchWaitExpiry s := rfl
theorem exec_sealTimeout : exec .sealTimeout s = execSealTimeout s := rfl
theorem exec_periodLate (k : Fin 3) : exec (.periodLate k) s = execPeriodLate k s := rfl
theorem exec_watchdogTrip (k : Fin 3) : exec (.watchdogTrip k) s = execWatchdogTrip k s := rfl
theorem exec_restartBoundary : exec .restartBoundary s = execRestartBoundary s := rfl
theorem exec_scanCtrlStart (m : Master) : exec (.scanCtrlStart m) s = execScanCtrlStart m s := rfl
theorem exec_scanClrMax (m : Master) : exec (.scanClrMax m) s = execScanClrMax m s := rfl
theorem exec_scanRestart (m : Master) (v : W32) : exec (.scanRestart m v) s = execScanRestart m v s := rfl
theorem exec_workTake (be : Fin 32) (upset upsetH : W64) : exec (.workTake be upset upsetH) s = execWorkTake be upset upsetH s := rfl
theorem exec_windowTimeLimit (be : Fin 32) : exec (.windowTimeLimit be) s = execWindowTimeLimit be s := rfl
theorem exec_windowStoreLimit (be : Fin 32) : exec (.windowStoreLimit be) s = execWindowStoreLimit be s := rfl
theorem exec_windowCommitEnd (be : Fin 32) (upset upsetH : W64) : exec (.windowCommitEnd be upset upsetH) s = execWindowCommitEnd be upset upsetH s := rfl
theorem exec_drupeletSelftestVerdict (be : Fin 32) (v : TestVerdict) : exec (.drupeletSelftestVerdict be v) s = execDrupeletSelftestVerdict be v s := rfl
theorem exec_auditReplicaComplete (be : Fin 32) : exec (.auditReplicaComplete be) s = execAuditReplicaComplete be s := rfl
theorem exec_brmClrCnt (m : Master) : exec (.brmClrCnt m) s = execBrmClrCnt m s := rfl
theorem exec_brmUnretire (m : Master) (v : W32) : exec (.brmUnretire m v) s = execBrmUnretire m v s := rfl
theorem exec_add (be d a b : Fin 32) : exec (.add be d a b) s = execAdd be d a b s := rfl
theorem exec_sub (be d a b : Fin 32) : exec (.sub be d a b) s = execSub be d a b s := rfl
theorem exec_and (be d a b : Fin 32) : exec (.and be d a b) s = execAnd be d a b s := rfl
theorem exec_or (be d a b : Fin 32) : exec (.or be d a b) s = execOr be d a b s := rfl
theorem exec_xor (be d a b : Fin 32) : exec (.xor be d a b) s = execXor be d a b s := rfl
theorem exec_shl (be d a b : Fin 32) : exec (.shl be d a b) s = execShl be d a b s := rfl
theorem exec_shr (be d a b : Fin 32) : exec (.shr be d a b) s = execShr be d a b s := rfl
theorem exec_sar (be d a b : Fin 32) : exec (.sar be d a b) s = execSar be d a b s := rfl
theorem exec_ror (be d a b : Fin 32) : exec (.ror be d a b) s = execRor be d a b s := rfl
theorem exec_slt (be d a b : Fin 32) : exec (.slt be d a b) s = execSlt be d a b s := rfl
theorem exec_sltu (be d a b : Fin 32) : exec (.sltu be d a b) s = execSltu be d a b s := rfl
theorem exec_seq (be d a b : Fin 32) : exec (.seq be d a b) s = execSeq be d a b s := rfl
theorem exec_min (be d a b : Fin 32) : exec (.min be d a b) s = execMin be d a b s := rfl
theorem exec_max (be d a b : Fin 32) : exec (.max be d a b) s = execMax be d a b s := rfl
theorem exec_minu (be d a b : Fin 32) : exec (.minu be d a b) s = execMinu be d a b s := rfl
theorem exec_maxu (be d a b : Fin 32) : exec (.maxu be d a b) s = execMaxu be d a b s := rfl
theorem exec_mul (be d a b : Fin 32) : exec (.mul be d a b) s = execMul be d a b s := rfl
theorem exec_mulh (be d a b : Fin 32) : exec (.mulh be d a b) s = execMulh be d a b s := rfl
theorem exec_mulhu (be d a b : Fin 32) : exec (.mulhu be d a b) s = execMulhu be d a b s := rfl
theorem exec_div (be d a b : Fin 32) : exec (.div be d a b) s = execDiv be d a b s := rfl
theorem exec_divu (be d a b : Fin 32) : exec (.divu be d a b) s = execDivu be d a b s := rfl
theorem exec_rem (be d a b : Fin 32) : exec (.rem be d a b) s = execRem be d a b s := rfl
theorem exec_remu (be d a b : Fin 32) : exec (.remu be d a b) s = execRemu be d a b s := rfl
theorem exec_addw (be d a b : Fin 32) : exec (.addw be d a b) s = execAddw be d a b s := rfl
theorem exec_subw (be d a b : Fin 32) : exec (.subw be d a b) s = execSubw be d a b s := rfl
theorem exec_mulw (be d a b : Fin 32) : exec (.mulw be d a b) s = execMulw be d a b s := rfl
theorem exec_addsat (be d a b : Fin 32) : exec (.addsat be d a b) s = execAddsat be d a b s := rfl
theorem exec_subsat (be d a b : Fin 32) : exec (.subsat be d a b) s = execSubsat be d a b s := rfl
theorem exec_clz (be d a : Fin 32) : exec (.clz be d a) s = execClz be d a s := rfl
theorem exec_popc (be d a : Fin 32) : exec (.popc be d a) s = execPopc be d a s := rfl
theorem exec_sel (be d a b : Fin 32) : exec (.sel be d a b) s = execSel be d a b s := rfl
theorem exec_fadd (be d a b : Fin 32) (p : Bool) : exec (.fadd be d a b p) s = execFadd be d a b p s := rfl
theorem exec_fsub (be d a b : Fin 32) (p : Bool) : exec (.fsub be d a b p) s = execFsub be d a b p s := rfl
theorem exec_fmul (be d a b : Fin 32) (p : Bool) : exec (.fmul be d a b p) s = execFmul be d a b p s := rfl
theorem exec_fdiv (be d a b : Fin 32) (p : Bool) : exec (.fdiv be d a b p) s = execFdiv be d a b p s := rfl
theorem exec_fsqrt (be d a : Fin 32) (p : Bool) : exec (.fsqrt be d a p) s = execFsqrt be d a p s := rfl
theorem exec_fmin (be d a b : Fin 32) (p : Bool) : exec (.fmin be d a b p) s = execFmin be d a b p s := rfl
theorem exec_fmax (be d a b : Fin 32) (p : Bool) : exec (.fmax be d a b p) s = execFmax be d a b p s := rfl
theorem exec_fabs (be d a b : Fin 32) (p : Bool) : exec (.fabs be d a b p) s = execFabs be d a b p s := rfl
theorem exec_fneg (be d a b : Fin 32) (p : Bool) : exec (.fneg be d a b p) s = execFneg be d a b p s := rfl
theorem exec_feq (be d a b : Fin 32) (p : Bool) : exec (.feq be d a b p) s = execFeq be d a b p s := rfl
theorem exec_flt (be d a b : Fin 32) (p : Bool) : exec (.flt be d a b p) s = execFlt be d a b p s := rfl
theorem exec_fle (be d a b : Fin 32) (p : Bool) : exec (.fle be d a b p) s = execFle be d a b p s := rfl
theorem exec_fmadd (be d a b c : Fin 32) (p : Bool) : exec (.fmadd be d a b c p) s = execFmadd be d a b c p s := rfl
theorem exec_fmsub (be d a b c : Fin 32) (p : Bool) : exec (.fmsub be d a b c p) s = execFmsub be d a b c p s := rfl
theorem exec_fnmadd (be d a b c : Fin 32) (p : Bool) : exec (.fnmadd be d a b c p) s = execFnmadd be d a b c p s := rfl
theorem exec_fnmsub (be d a b c : Fin 32) (p : Bool) : exec (.fnmsub be d a b c p) s = execFnmsub be d a b c p s := rfl
theorem exec_fcvti (be d a b : Fin 32) (p : Bool) : exec (.fcvti be d a b p) s = execFcvti be d a b p s := rfl
theorem exec_fcvtu (be d a b : Fin 32) (p : Bool) : exec (.fcvtu be d a b p) s = execFcvtu be d a b p s := rfl
theorem exec_icvtf (be d a b : Fin 32) (p : Bool) : exec (.icvtf be d a b p) s = execIcvtf be d a b p s := rfl
theorem exec_ucvtf (be d a b : Fin 32) (p : Bool) : exec (.ucvtf be d a b p) s = execUcvtf be d a b p s := rfl
theorem exec_fwiden (be d a b : Fin 32) : exec (.fwiden be d a b) s = execFwiden be d a b s := rfl
theorem exec_fnarrow (be d a b : Fin 32) : exec (.fnarrow be d a b) s = execFnarrow be d a b s := rfl
theorem exec_fcvtiz (be d a b : Fin 32) (p : Bool) : exec (.fcvtiz be d a b p) s = execFcvtiz be d a b p s := rfl
theorem exec_fcvtuz (be d a b : Fin 32) (p : Bool) : exec (.fcvtuz be d a b p) s = execFcvtuz be d a b p s := rfl
theorem exec_bextu (be d a : Fin 32) (pos len1 : Fin 64) : exec (.bextu be d a pos len1) s = execBextu be d a pos len1 s := rfl
theorem exec_bexts (be d a : Fin 32) (pos len1 : Fin 64) : exec (.bexts be d a pos len1) s = execBexts be d a pos len1 s := rfl
theorem exec_bins (be d a : Fin 32) (pos len1 : Fin 64) : exec (.bins be d a pos len1) s = execBins be d a pos len1 s := rfl
theorem exec_addi (be d a : Fin 32) (imm : BitVec 16) : exec (.addi be d a imm) s = execAddi be d a imm s := rfl
theorem exec_andi (be d a : Fin 32) (imm : BitVec 16) : exec (.andi be d a imm) s = execAndi be d a imm s := rfl
theorem exec_ori (be d a : Fin 32) (imm : BitVec 16) : exec (.ori be d a imm) s = execOri be d a imm s := rfl
theorem exec_xori (be d a : Fin 32) (imm : BitVec 16) : exec (.xori be d a imm) s = execXori be d a imm s := rfl
theorem exec_slti (be d a : Fin 32) (imm : BitVec 16) : exec (.slti be d a imm) s = execSlti be d a imm s := rfl
theorem exec_sltiu (be d a : Fin 32) (imm : BitVec 16) : exec (.sltiu be d a imm) s = execSltiu be d a imm s := rfl
theorem exec_shi (be d a : Fin 32) (kind : ShKind) (amt : Fin 64) : exec (.shi be d a kind amt) s = execShi be d a kind amt s := rfl
theorem exec_lui (be d : Fin 32) (imm : BitVec 16) : exec (.lui be d imm) s = execLui be d imm s := rfl
theorem exec_ibset (be a : Fin 32) (imm : BitVec 16) : exec (.ibset be a imm) s = execIbset be a imm s := rfl
theorem exec_cbset (be a : Fin 32) (imm : BitVec 16) : exec (.cbset be a imm) s = execCbset be a imm s := rfl
theorem exec_mfs (be d a : Fin 32) (sel : Fin 12) : exec (.mfs be d a sel) s = execMfs be d a sel s := rfl
theorem exec_mts (be d a : Fin 32) (sel : Fin 16) : exec (.mts be d a sel) s = execMts be d a sel s := rfl
theorem exec_nop (be : Fin 32) : exec (.nop be) s = execNop be s := rfl
theorem exec_wend (be : Fin 32) : exec (.wend be) s = execWend be s := rfl
theorem exec_chend (be : Fin 32) : exec (.chend be) s = execChend be s := rfl
theorem exec_trap (be : Fin 32) (imm : BitVec 16) : exec (.trap be imm) s = execTrap be imm s := rfl
theorem exec_jr (be a : Fin 32) : exec (.jr be a) s = execJr be a s := rfl
theorem exec_callr (be a : Fin 32) : exec (.callr be a) s = execCallr be a s := rfl
theorem exec_ret (be a : Fin 32) : exec (.ret be a) s = execRet be a s := rfl
theorem exec_ldb (be d : Fin 32) (base : DBase) (disp : BitVec 16) (ecc : Ecc) : exec (.ldb be d base disp ecc) s = execLdb be d base disp ecc s := rfl
theorem exec_ldbs (be d : Fin 32) (base : DBase) (disp : BitVec 16) (ecc : Ecc) : exec (.ldbs be d base disp ecc) s = execLdbs be d base disp ecc s := rfl
theorem exec_ldh (be d : Fin 32) (base : DBase) (disp : BitVec 16) (ecc : Ecc) : exec (.ldh be d base disp ecc) s = execLdh be d base disp ecc s := rfl
theorem exec_ldhs (be d : Fin 32) (base : DBase) (disp : BitVec 16) (ecc : Ecc) : exec (.ldhs be d base disp ecc) s = execLdhs be d base disp ecc s := rfl
theorem exec_ldw (be d : Fin 32) (base : DBase) (disp : BitVec 16) (ecc : Ecc) : exec (.ldw be d base disp ecc) s = execLdw be d base disp ecc s := rfl
theorem exec_ldws (be d : Fin 32) (base : DBase) (disp : BitVec 16) (ecc : Ecc) : exec (.ldws be d base disp ecc) s = execLdws be d base disp ecc s := rfl
theorem exec_ldd (be d : Fin 32) (base : DBase) (disp : BitVec 16) (ecc : Ecc) : exec (.ldd be d base disp ecc) s = execLdd be d base disp ecc s := rfl
theorem exec_stb (be d : Fin 32) (base : DBase) (disp : BitVec 16) : exec (.stb be d base disp) s = execStb be d base disp s := rfl
theorem exec_sth (be d : Fin 32) (base : DBase) (disp : BitVec 16) : exec (.sth be d base disp) s = execSth be d base disp s := rfl
theorem exec_stw (be d : Fin 32) (base : DBase) (disp : BitVec 16) : exec (.stw be d base disp) s = execStw be d base disp s := rfl
theorem exec_std (be d : Fin 32) (base : DBase) (disp : BitVec 16) : exec (.std be d base disp) s = execStd be d base disp s := rfl
theorem exec_ldxb (be d a : Fin 32) (disp : BitVec 16) (ecc : Ecc) : exec (.ldxb be d a disp ecc) s = execLdxb be d a disp ecc s := rfl
theorem exec_ldxbs (be d a : Fin 32) (disp : BitVec 16) (ecc : Ecc) : exec (.ldxbs be d a disp ecc) s = execLdxbs be d a disp ecc s := rfl
theorem exec_ldxh (be d a : Fin 32) (disp : BitVec 16) (ecc : Ecc) : exec (.ldxh be d a disp ecc) s = execLdxh be d a disp ecc s := rfl
theorem exec_ldxhs (be d a : Fin 32) (disp : BitVec 16) (ecc : Ecc) : exec (.ldxhs be d a disp ecc) s = execLdxhs be d a disp ecc s := rfl
theorem exec_ldxw (be d a : Fin 32) (disp : BitVec 16) (ecc : Ecc) : exec (.ldxw be d a disp ecc) s = execLdxw be d a disp ecc s := rfl
theorem exec_ldxws (be d a : Fin 32) (disp : BitVec 16) (ecc : Ecc) : exec (.ldxws be d a disp ecc) s = execLdxws be d a disp ecc s := rfl
theorem exec_ldxd (be d a : Fin 32) (disp : BitVec 16) (ecc : Ecc) : exec (.ldxd be d a disp ecc) s = execLdxd be d a disp ecc s := rfl
theorem exec_stxb (be d a : Fin 32) (disp : BitVec 16) : exec (.stxb be d a disp) s = execStxb be d a disp s := rfl
theorem exec_stxh (be d a : Fin 32) (disp : BitVec 16) : exec (.stxh be d a disp) s = execStxh be d a disp s := rfl
theorem exec_stxw (be d a : Fin 32) (disp : BitVec 16) : exec (.stxw be d a disp) s = execStxw be d a disp s := rfl
theorem exec_stxd (be d a : Fin 32) (disp : BitVec 16) : exec (.stxd be d a disp) s = execStxd be d a disp s := rfl
theorem exec_bbs (be a : Fin 32) (bit : Fin 64) (off : BitVec 15) : exec (.bbs be a bit off) s = execBbs be a bit off s := rfl
theorem exec_bbc (be a : Fin 32) (bit : Fin 64) (off : BitVec 15) : exec (.bbc be a bit off) s = execBbc be a bit off s := rfl
theorem exec_beq (be a b : Fin 32) (off : BitVec 16) : exec (.beq be a b off) s = execBeq be a b off s := rfl
theorem exec_bne (be a b : Fin 32) (off : BitVec 16) : exec (.bne be a b off) s = execBne be a b off s := rfl
theorem exec_blt (be a b : Fin 32) (off : BitVec 16) : exec (.blt be a b off) s = execBlt be a b off s := rfl
theorem exec_bge (be a b : Fin 32) (off : BitVec 16) : exec (.bge be a b off) s = execBge be a b off s := rfl
theorem exec_bltu (be a b : Fin 32) (off : BitVec 16) : exec (.bltu be a b off) s = execBltu be a b off s := rfl
theorem exec_bgeu (be a b : Fin 32) (off : BitVec 16) : exec (.bgeu be a b off) s = execBgeu be a b off s := rfl
theorem exec_j (be : Fin 32) (off : BitVec 26) : exec (.j be off) s = execJ be off s := rfl
theorem exec_call (be : Fin 32) (off : BitVec 26) : exec (.call be off) s = execCall be off s := rfl
theorem exec_reflexFrameBoundary : exec .reflexFrameBoundary s = execReflexFrameBoundary s := rfl
theorem exec_armedEventDispatch (irise ifall arise afall : W32) : exec (.armedEventDispatch irise ifall arise afall) s = execArmedEventDispatch irise ifall arise afall s := rfl
theorem exec_passCommit (up : Vector (Option RImage) 4) (late : BitVec 4) : exec (.passCommit up late) s = execPassCommit up late s := rfl
theorem exec_reflexSelftestVerdict (e : Fin 4) (pass : Bool) : exec (.reflexSelftestVerdict e pass) s = execReflexSelftestVerdict e pass s := rfl
theorem exec_mailboxStaleTimeout : exec .mailboxStaleTimeout s = execMailboxStaleTimeout s := rfl
theorem exec_rfxArm (m : Master) : exec (.rfxArm m) s = execRfxArm m s := rfl
theorem exec_rfxDisarm (m : Master) : exec (.rfxDisarm m) s = execRfxDisarm m s := rfl
theorem exec_rfxClrCnt (m : Master) : exec (.rfxClrCnt m) s = execRfxClrCnt m s := rfl
theorem exec_rfxClrMaxlat (m : Master) : exec (.rfxClrMaxlat m) s = execRfxClrMaxlat m s := rfl
theorem exec_rfxUnretire (m : Master) (v : W32) : exec (.rfxUnretire m v) s = execRfxUnretire m v s := rfl
theorem exec_packageCheckDone (plans : Option PlanSet) : exec (.packageCheckDone plans) s = execPackageCheckDone plans s := rfl
theorem exec_pkgCheckReportRx (id : Nat) (digest : BitVec 128) (ok : Bool) : exec (.pkgCheckReportRx id digest ok) s = execPkgCheckReportRx id digest ok s := rfl
theorem exec_olcDiscard (m : Master) (key : BitVec 16) : exec (.olcDiscard m key) s = execOlcDiscard m key s := rfl
theorem exec_olcSwitchRequest (m : Master) (relAck : Bool) (key : BitVec 16) : exec (.olcSwitchRequest m relAck key) s = execOlcSwitchRequest m relAck key s := rfl
theorem exec_olcCancel (m : Master) (key : BitVec 16) : exec (.olcCancel m key) s = execOlcCancel m key s := rfl
theorem exec_claimAssert (sl : Slot) (both silent : Bool) : exec (.claimAssert sl both silent) s = execClaimAssert sl both silent s := rfl
theorem exec_claimDrop (sl : Slot) : exec (.claimDrop sl) s = execClaimDrop sl s := rfl
theorem exec_rfxSilent (sl : Slot) : exec (.rfxSilent sl) s = execRfxSilent sl s := rfl
theorem exec_connectorParts (sl : Slot) : exec (.connectorParts sl) s = execConnectorParts sl s := rfl
theorem exec_tokenRise (ahead : Vector Nat 2) : exec (.tokenRise ahead) s = execTokenRise ahead s := rfl
theorem exec_loopRampEnd : exec .loopRampEnd s = execLoopRampEnd s := rfl
theorem exec_islandLinkFrameRx (digital : W32) (loops : Vector Nat 8) : exec (.islandLinkFrameRx digital loops) s = execIslandLinkFrameRx digital loops s := rfl
theorem exec_islandLinkFault : exec .islandLinkFault s = execIslandLinkFault s := rfl
theorem exec_leverOpen (own : Bool) : exec (.leverOpen own) s = execLeverOpen own s := rfl
theorem exec_leverClose (own : Bool) : exec (.leverClose own) s = execLeverClose own s := rfl
theorem exec_drawbarLaneLoss (lane : Fin 4) : exec (.drawbarLaneLoss lane) s = execDrawbarLaneLoss lane s := rfl
theorem exec_drawbarRetrainDone : exec .drawbarRetrainDone s = execDrawbarRetrainDone s := rfl
theorem exec_drawbarLaneReturn (lane : Fin 4) : exec (.drawbarLaneReturn lane) s = execDrawbarLaneReturn lane s := rfl
theorem exec_drawbarMsgRepeat (id : Nat) : exec (.drawbarMsgRepeat id) s = execDrawbarMsgRepeat id s := rfl
theorem exec_heartbeatSend : exec .heartbeatSend s = execHeartbeatSend s := rfl
theorem exec_heartbeatRx (h : Option Heartbeat) (alive : Bool) : exec (.heartbeatRx h alive) s = execHeartbeatRx h alive s := rfl
theorem exec_pathSilent (drawbar : Bool) : exec (.pathSilent drawbar) s = execPathSilent drawbar s := rfl
theorem exec_tripNoticeRx (id : Nat) (cls : Cls) : exec (.tripNoticeRx id cls) s = execTripNoticeRx id cls s := rfl
theorem exec_copyBlockRx (cycle : W64) (blk : Nat) (data : List Byte) : exec (.copyBlockRx cycle blk data) s = execCopyBlockRx cycle blk data s := rfl
theorem exec_sealRecordRx (r : SealRec) : exec (.sealRecordRx r) s = execSealRecordRx r s := rfl
theorem exec_sealAckRx (cycle : W64) (digests : List (Nat × W64)) : exec (.sealAckRx cycle digests) s = execSealAckRx cycle digests s := rfl
theorem exec_resyncDemandRx : exec .resyncDemandRx s = execResyncDemandRx s := rfl
theorem exec_resyncRequestRx (id : Nat) : exec (.resyncRequestRx id) s = execResyncRequestRx id s := rfl
theorem exec_fullCopyRx (item : FullItem) (pct : Fin 101) : exec (.fullCopyRx item pct) s = execFullCopyRx item pct s := rfl
theorem exec_sweepUnitRx (unit : Nat) (data : List Byte) : exec (.sweepUnitRx unit data) s = execSweepUnitRx unit data s := rfl
theorem exec_sweepUnitRequestRx (unit : Nat) : exec (.sweepUnitRequestRx unit) s = execSweepUnitRequestRx unit s := rfl
theorem exec_auditVerdictRx (id chain : Nat) (mask : BitVec 32) : exec (.auditVerdictRx id chain mask) s = execAuditVerdictRx id chain mask s := rfl
theorem exec_dirtyRequestRx (id blk : Nat) : exec (.dirtyRequestRx id blk) s = execDirtyRequestRx id blk s := rfl
theorem exec_handoverRequestRx (id : Nat) : exec (.handoverRequestRx id) s = execHandoverRequestRx id s := rfl
theorem exec_configForwardRx (id opcode : Nat) (args : List W64) (data : List Byte) : exec (.configForwardRx id opcode args data) s = execConfigForwardRx id opcode args data s := rfl
theorem exec_pkgBlockRx (id off : Nat) (data : List Byte) : exec (.pkgBlockRx id off data) s = execPkgBlockRx id off data s := rfl
theorem exec_forwardedCommandRx (id : Nat) (ring : Fin 16) (desc : Desc) : exec (.forwardedCommandRx id ring desc) s = execForwardedCommandRx id ring desc s := rfl
theorem exec_agreementTimeout (b : Fin 22) : exec (.agreementTimeout b) s = execAgreementTimeout b s := rfl
theorem exec_takeoverStart (ahead : Vector Nat 2) : exec (.takeoverStart ahead) s = execTakeoverStart ahead s := rfl
theorem exec_pairCtrlSwitch (m : Master) (key : BitVec 16) : exec (.pairCtrlSwitch m key) s = execPairCtrlSwitch m key s := rfl
theorem exec_pairLeave (m : Master) (key : BitVec 16) : exec (.pairLeave m key) s = execPairLeave m key s := rfl
theorem exec_pairClrCopyMax (m : Master) (key : BitVec 16) : exec (.pairClrCopyMax m key) s = execPairClrCopyMax m key s := rfl
theorem exec_roleDecision : exec .roleDecision s = execRoleDecision s := rfl
theorem exec_islandStatusFrame (toIsland fromIsland : Bool) (mv compV : BitVec 16) (term ilim : W32) (rb : Vector (BitVec 25) 8) : exec (.islandStatusFrame toIsland fromIsland mv compV term ilim rb) s = execIslandStatusFrame toIsland fromIsland mv compV term ilim rb s := rfl
theorem exec_logicSilent : exec .logicSilent s = execLogicSilent s := rfl
theorem exec_holdExpiry : exec .holdExpiry s = execHoldExpiry s := rfl
theorem exec_framesResume : exec .framesResume s = execFramesResume s := rfl
theorem exec_filterStateChange (n : Fin 32) (samples : List Bool) : exec (.filterStateChange n samples) s = execFilterStateChange n samples s := rfl
theorem exec_inputThresholdCheck (disagree : W32) (lap : Nat) : exec (.inputThresholdCheck disagree lap) s = execInputThresholdCheck disagree lap s := rfl
theorem exec_outputLatchOff (n : Fin 32) : exec (.outputLatchOff n) s = execOutputLatchOff n s := rfl
theorem exec_outputRetry (n : Fin 32) (limited : Bool) : exec (.outputRetry n limited) s = execOutputRetry n limited s := rfl
theorem exec_readbackFaultSet (n : Fin 32) : exec (.readbackFaultSet n) s = execReadbackFaultSet n s := rfl
theorem exec_readbackFaultClear (n : Fin 32) : exec (.readbackFaultClear n) s = execReadbackFaultClear n s := rfl
theorem exec_lplusWarning (mv : BitVec 16) : exec (.lplusWarning mv) s = execLplusWarning mv s := rfl
theorem exec_lplusWarningClear (mv : BitVec 16) : exec (.lplusWarningClear mv) s = execLplusWarningClear mv s := rfl
theorem exec_outputsOff (mv : BitVec 16) : exec (.outputsOff mv) s = execOutputsOff mv s := rfl
theorem exec_supplyRecovery (mv : BitVec 16) : exec (.supplyRecovery mv) s = execSupplyRecovery mv s := rfl
theorem exec_islandPowerDown (mv : BitVec 16) : exec (.islandPowerDown mv) s = execIslandPowerDown mv s := rfl
theorem exec_islandStart (mv : BitVec 16) : exec (.islandStart mv) s = execIslandStart mv s := rfl
theorem exec_complianceSet (n : Fin 8) (rb : BitVec 25) : exec (.complianceSet n rb) s = execComplianceSet n rb s := rfl
theorem exec_complianceClear (n : Fin 8) (rb : BitVec 25) : exec (.complianceClear n rb) s = execComplianceClear n rb s := rfl
theorem exec_mainPathFailure (n : Fin 8) (rb : BitVec 25) : exec (.mainPathFailure n rb) s = execMainPathFailure n rb s := rfl
theorem exec_loopReadbackFault (n : Fin 8) (rb : BitVec 25) : exec (.loopReadbackFault n rb) s = execLoopReadbackFault n rb s := rfl
theorem exec_loopCalibration (err : Vector Int 8) (fit : Vector (Option (Nat × Int × Int)) 8) (lap : Nat) : exec (.loopCalibration err fit lap) s = execLoopCalibration err fit lap s := rfl
theorem exec_dioClrCnt (m : Master) : exec (.dioClrCnt m) s = execDioClrCnt m s := rfl
theorem exec_dioClrMin (m : Master) : exec (.dioClrMin m) s = execDioClrMin m s := rfl
theorem exec_aoRetest (m : Master) (mask : BitVec 8) : exec (.aoRetest m mask) s = execAoRetest m mask s := rfl
theorem exec_aoClrCnt (m : Master) : exec (.aoClrCnt m) s = execAoClrCnt m s := rfl
theorem exec_thresholdEventChange (n : Fin 32) : exec (.thresholdEventChange n) s = execThresholdEventChange n s := rfl
theorem exec_sequencerStep : exec .sequencerStep s = execSequencerStep s := rfl
theorem exec_sequencerTimeout : exec .sequencerTimeout s = execSequencerTimeout s := rfl
theorem exec_captureEnd : exec .captureEnd s = execCaptureEnd s := rfl
theorem exec_decimationUp (fifo : Bool) : exec (.decimationUp fifo) s = execDecimationUp fifo s := rfl
theorem exec_decimationDown : exec .decimationDown s = execDecimationDown s := rfl
theorem exec_acqCalibration (ch : Option (Fin 16)) (lap : Nat) : exec (.acqCalibration ch lap) s = execAcqCalibration ch lap s := rfl
theorem exec_skewMeasurement (w : SkewStep) : exec (.skewMeasurement w) s = execSkewMeasurement w s := rfl
theorem exec_skewLate : exec .skewLate s = execSkewLate s := rfl
theorem exec_acqEnable (m : Master) : exec (.acqEnable m) s = execAcqEnable m s := rfl
theorem exec_acqDisable (m : Master) : exec (.acqDisable m) s = execAcqDisable m s := rfl
theorem exec_acqArm (m : Master) : exec (.acqArm m) s = execAcqArm m s := rfl
theorem exec_acqDisarm (m : Master) : exec (.acqDisarm m) s = execAcqDisarm m s := rfl
theorem exec_acqForceTrig (m : Master) : exec (.acqForceTrig m) s = execAcqForceTrig m s := rfl
theorem exec_acqClrCnt (m : Master) : exec (.acqClrCnt m) s = execAcqClrCnt m s := rfl
theorem exec_ringExchangeStart : exec .ringExchangeStart s = execRingExchangeStart s := rfl
theorem exec_ringFrameRx (port : Fin 4) (etype : BitVec 16) (fcs : Bool) (payload : List Byte) : exec (.ringFrameRx port etype fcs payload) s = execRingFrameRx port etype fcs payload s := rfl
theorem exec_exchangeDeadline : exec .exchangeDeadline s = execExchangeDeadline s := rfl
theorem exec_ringPortDown (p : Fin 4) : exec (.ringPortDown p) s = execRingPortDown p s := rfl
theorem exec_ringJoin : exec .ringJoin s = execRingJoin s := rfl
theorem exec_peerFrameRx (port : Fin 2) (fcs : Bool) (payload : List Byte) : exec (.peerFrameRx port fcs payload) s = execPeerFrameRx port fcs payload s := rfl
theorem exec_peerPeriodMiss (j : Fin 32) : exec (.peerPeriodMiss j) s = execPeerPeriodMiss j s := rfl
theorem exec_ringClrCnt (m : Master) : exec (.ringClrCnt m) s = execRingClrCnt m s := rfl
theorem exec_canStart (m : Master) (mask fault : BitVec 4) : exec (.canStart m mask fault) s = execCanStart m mask fault s := rfl
theorem exec_canStop (m : Master) (mask : BitVec 4) : exec (.canStop m mask) s = execCanStop m mask s := rfl
theorem exec_canClrCnt (m : Master) : exec (.canClrCnt m) s = execCanClrCnt m s := rfl
theorem exec_canIntegrationDone (n : Fin 4) : exec (.canIntegrationDone n) s = execCanIntegrationDone n s := rfl
theorem exec_canFrameRx (n : Fin 4) (rxid : W32) (esi remote : Bool) (dlc : BitVec 4) (data : List Byte) : exec (.canFrameRx n rxid esi remote dlc data) s = execCanFrameRx n rxid esi remote dlc data s := rfl
theorem exec_canTxSuccess (n : Fin 4) (tdc : Option (BitVec 7)) : exec (.canTxSuccess n tdc) s = execCanTxSuccess n tdc s := rfl
theorem exec_canTxError (n : Fin 4) (e : CanErr) : exec (.canTxError n e) s = execCanTxError n e s := rfl
theorem exec_busoffDelayExpiry (n : Fin 4) : exec (.busoffDelayExpiry n) s = execBusoffDelayExpiry n s := rfl
theorem exec_busoffRecovery (n : Fin 4) : exec (.busoffRecovery n) s = execBusoffRecovery n s := rfl
theorem exec_collideClear (n : Fin 4) : exec (.collideClear n) s = execCollideClear n s := rfl
theorem exec_transceiverFault (n : Fin 4) : exec (.transceiverFault n) s = execTransceiverFault n s := rfl
theorem exec_hostDoorbell (m : Master) (n : Fin 16) (v : W32) : exec (.hostDoorbell m n v) s = execHostDoorbell m n v s := rfl
theorem exec_descriptorTake (p : Fin 2) (desc : Desc) : exec (.descriptorTake p desc) s = execDescriptorTake p desc s := rfl
theorem exec_completionBarrierDone (n : Fin 16) : exec (.completionBarrierDone n) s = execCompletionBarrierDone n s := rfl
theorem exec_cmdNop (n : Fin 16) : exec (.cmdNop n) s = execCmdNop n s := rfl
theorem exec_statusCmd (n : Fin 16) : exec (.statusCmd n) s = execStatusCmd n s := rfl
theorem exec_readMem (n : Fin 16) : exec (.readMem n) s = execReadMem n s := rfl
theorem exec_readSym (n : Fin 16) : exec (.readSym n) s = execReadSym n s := rfl
theorem exec_configCmd (n : Fin 16) : exec (.configCmd n) s = execConfigCmd n s := rfl
theorem exec_valueWrite (n : Fin 16) : exec (.valueWrite n) s = execValueWrite n s := rfl
theorem exec_forceSet (n : Fin 16) : exec (.forceSet n) s = execForceSet n s := rfl
theorem exec_forceRelease (n : Fin 16) : exec (.forceRelease n) s = execForceRelease n s := rfl
theorem exec_pkgLoad (n : Fin 16) : exec (.pkgLoad n) s = execPkgLoad n s := rfl
theorem exec_pkgSwitch (n : Fin 16) : exec (.pkgSwitch n) s = execPkgSwitch n s := rfl
theorem exec_pkgCancel (n : Fin 16) : exec (.pkgCancel n) s = execPkgCancel n s := rfl
theorem exec_pkgDiscard (n : Fin 16) : exec (.pkgDiscard n) s = execPkgDiscard n s := rfl
theorem exec_constPatch (n : Fin 16) : exec (.constPatch n) s = execConstPatch n s := rfl
theorem exec_keyEnrol (n : Fin 16) : exec (.keyEnrol n) s = execKeyEnrol n s := rfl
theorem exec_keyRemove (n : Fin 16) : exec (.keyRemove n) s = execKeyRemove n s := rfl
theorem exec_scanStart (n : Fin 16) : exec (.scanStart n) s = execScanStart n s := rfl
theorem exec_scanRestartCmd (n : Fin 16) : exec (.scanRestartCmd n) s = execScanRestartCmd n s := rfl
theorem exec_pairSwitch (n : Fin 16) : exec (.pairSwitch n) s = execPairSwitch n s := rfl
theorem exec_serviceEnter (n : Fin 16) : exec (.serviceEnter n) s = execServiceEnter n s := rfl
theorem exec_serviceLeave (n : Fin 16) : exec (.serviceLeave n) s = execServiceLeave n s := rfl
theorem exec_canTx (n : Fin 16) : exec (.canTx n) s = execCanTx n s := rfl
theorem exec_recRead (n : Fin 16) : exec (.recRead n) s = execRecRead n s := rfl
theorem exec_recCtrlFreeze (n : Fin 16) : exec (.recCtrlFreeze n) s = execRecCtrlFreeze n s := rfl
theorem exec_recCtrlUnfreeze (n : Fin 16) : exec (.recCtrlUnfreeze n) s = execRecCtrlUnfreeze n s := rfl
theorem exec_recCtrlRearm (n : Fin 16) : exec (.recCtrlRearm n) s = execRecCtrlRearm n s := rfl
theorem exec_tcRead (n : Fin 16) : exec (.tcRead n) s = execTcRead n s := rfl
theorem exec_bulkSend (n : Fin 16) : exec (.bulkSend n) s = execBulkSend n s := rfl
theorem exec_histSub (n : Fin 16) : exec (.histSub n) s = execHistSub n s := rfl
theorem exec_hostCqHead (m : Master) (p : Fin 2) (v : W32) : exec (.hostCqHead m p v) s = execHostCqHead m p v s := rfl
theorem exec_hostEqHead (m : Master) (p : Fin 2) (v : W32) : exec (.hostEqHead m p v) s = execHostEqHead m p v s := rfl
theorem exec_hostRingEn (m : Master) (v : W32) : exec (.hostRingEn m v) s = execHostRingEn m v s := rfl
theorem exec_hostResume (m : Master) (mask : BitVec 2) : exec (.hostResume m mask) s = execHostResume m mask s := rfl
theorem exec_hostClrCnt (m : Master) : exec (.hostClrCnt m) s = execHostClrCnt m s := rfl
theorem exec_ringEngineHalt (p : Fin 2) (addr : W64) (write : Bool) : exec (.ringEngineHalt p addr write) s = execRingEngineHalt p addr write s := rfl
theorem exec_hostLinkLoss (p : Fin 2) (refLost : Bool) : exec (.hostLinkLoss p refLost) s = execHostLinkLoss p refLost s := rfl
theorem exec_dmaTransferDone (ch : Fin 16) (data : List Byte) : exec (.dmaTransferDone ch data) s = execDmaTransferDone ch data s := rfl
theorem exec_dmaHalt (ch : Fin 16) (cause : BitVec 3) (moved : Nat) (addr : W64) : exec (.dmaHalt ch cause moved addr) s = execDmaHalt ch cause moved addr s := rfl
theorem exec_dmaRetry (m : Master) (ch : Fin 16) (key : BitVec 16) : exec (.dmaRetry m ch key) s = execDmaRetry m ch key s := rfl
theorem exec_dmaAbort (m : Master) (ch : Fin 16) (key : BitVec 16) : exec (.dmaAbort m ch key) s = execDmaAbort m ch key s := rfl
theorem exec_dmaClrCnt (m : Master) : exec (.dmaClrCnt m) s = execDmaClrCnt m s := rfl
theorem exec_drayLaneUp (p : Fin 2) : exec (.drayLaneUp p) s = execDrayLaneUp p s := rfl
theorem exec_drayLaneDown (p : Fin 2) : exec (.drayLaneDown p) s = execDrayLaneDown p s := rfl
theorem exec_creditFrameRx (grants : Vector W32 4) : exec (.creditFrameRx grants) s = execCreditFrameRx grants s := rfl
theorem exec_drayFrameStart (lane : Fin 2) : exec (.drayFrameStart lane) s = execDrayFrameStart lane s := rfl
theorem exec_drayDry (n : Fin 4) : exec (.drayDry n) s = execDrayDry n s := rfl
theorem exec_drayClrCnt (m : Master) : exec (.drayClrCnt m) s = execDrayClrCnt m s := rfl
theorem exec_ptpSyncRx (p : Fin 2) (src : W64) (port : Nat) (logInt origin corr : Int) (fast : Bool) : exec (.ptpSyncRx p src port logInt origin corr fast) s = execPtpSyncRx p src port logInt origin corr fast s := rfl
theorem exec_ptpDelayRespRx (p : Fin 2) (src : W64) (port : Nat) (recv corr : Int) (fast : Bool) : exec (.ptpDelayRespRx p src port recv corr fast) s = execPtpDelayRespRx p src port recv corr fast s := rfl
theorem exec_ptpAnnounceRx (p : Fin 2) (a : Announce) (fast : Bool) : exec (.ptpAnnounceRx p a fast) s = execPtpAnnounceRx p a fast s := rfl
theorem exec_announceTimeout (p : Fin 2) : exec (.announceTimeout p) s = execAnnounceTimeout p s := rfl
theorem exec_syncLoss : exec .syncLoss s = execSyncLoss s := rfl
theorem exec_parentQualified : exec .parentQualified s = execParentQualified s := rfl
theorem exec_leapSecond : exec .leapSecond s = execLeapSecond s := rfl
theorem exec_ptpMasterEnable : exec .ptpMasterEnable s = execPtpMasterEnable s := rfl
theorem exec_timeSnap (m : Master) : exec (.timeSnap m) s = execTimeSnap m s := rfl
theorem exec_timeClrCnt (m : Master) : exec (.timeClrCnt m) s = execTimeClrCnt m s := rfl
theorem exec_timeSet (m : Master) (v : W32) : exec (.timeSet m v) s = execTimeSet m v s := rfl
theorem exec_tb3Second : exec .tb3Second s = execTb3Second s := rfl
theorem exec_catEntAddrWrite (m : Master) (e : Fin 128) (v : W32) : exec (.catEntAddrWrite m e v) s = execCatEntAddrWrite m e v s := rfl
theorem exec_catEntAttrWrite (m : Master) (e : Fin 128) (v : W32) : exec (.catEntAttrWrite m e v) s = execCatEntAttrWrite m e v s := rfl
theorem exec_catBarrier (m : Master) (v : W32) : exec (.catBarrier m v) s = execCatBarrier m v s := rfl
theorem exec_catBarrierComplete : exec .catBarrierComplete s = execCatBarrierComplete s := rfl
theorem exec_catClrFault (m : Master) : exec (.catClrFault m) s = execCatClrFault m s := rfl
theorem exec_catClrCnt (m : Master) : exec (.catClrCnt m) s = execCatClrCnt m s := rfl
theorem exec_blockRepairRx (blk : Nat) (data : List Byte) : exec (.blockRepairRx blk data) s = execBlockRepairRx blk data s := rfl
theorem exec_repairTimeout (blk : Nat) : exec (.repairTimeout blk) s = execRepairTimeout blk s := rfl
theorem exec_codeBlockRewrite (blk : Nat) : exec (.codeBlockRewrite blk) s = execCodeBlockRewrite blk s := rfl
theorem exec_scrubAccess (line : Nat) (found : Vector Ecc 8) (again spare : Bool) (lapR lapC : Option Nat) : exec (.scrubAccess line found again spare lapR lapC) s = execScrubAccess line found again spare lapR lapC s := rfl
theorem exec_fuseRepair : exec .fuseRepair s = execFuseRepair s := rfl
theorem exec_memClrCnt (m : Master) : exec (.memClrCnt m) s = execMemClrCnt m s := rfl
theorem exec_localScrubChain (be : Fin 32) (unit : Fin 512) (found : Vector Ecc 64) (again spare : Bool) (lap : Option Nat) : exec (.localScrubChain be unit found again spare lap) s = execLocalScrubChain be unit found again spare lap s := rfl
theorem exec_sweepDigest : exec .sweepDigest s = execSweepDigest s := rfl
theorem exec_holdupMeasurement (dv : Option (Vector Nat 4)) : exec (.holdupMeasurement dv) s = execHoldupMeasurement dv s := rfl
theorem exec_holdupAbort : exec .holdupAbort s = execHoldupAbort s := rfl
theorem exec_flashMigration (phase : Fin 3) (half : Fin 2) (src dst : Fin 8192) (fail : BitVec 2) (lap : Option Nat) : exec (.flashMigration phase half src dst fail lap) s = execFlashMigration phase half src dst fail lap s := rfl
theorem exec_wfClrCnt (m : Master) : exec (.wfClrCnt m) s = execWfClrCnt m s := rfl
theorem exec_recordAccept : exec .recordAccept s = execRecordAccept s := rfl
theorem exec_flushEnd (lost : List Nat) : exec (.flushEnd lost) s = execFlushEnd lost s := rfl
theorem exec_freezeExpired : exec .freezeExpired s = execFreezeExpired s := rfl
theorem exec_rearmEraseDone : exec .rearmEraseDone s = execRearmEraseDone s := rfl
theorem exec_recFreeze (m : Master) (key : BitVec 16) : exec (.recFreeze m key) s = execRecFreeze m key s := rfl
theorem exec_recUnfreeze (m : Master) (key : BitVec 16) : exec (.recUnfreeze m key) s = execRecUnfreeze m key s := rfl
theorem exec_recRearm (m : Master) (key : BitVec 16) : exec (.recRearm m key) s = execRecRearm m key s := rfl
theorem exec_recClrCnt (m : Master) : exec (.recClrCnt m) s = execRecClrCnt m s := rfl
theorem exec_latchWarning : exec .latchWarning s = execLatchWarning s := rfl
theorem exec_latchClose (codeOk flashOk : Bool) : exec (.latchClose codeOk flashOk) s = execLatchClose codeOk flashOk s := rfl
theorem exec_cartridgeFit (cart : Option Cartridge) (codeOk flashOk : Bool) : exec (.cartridgeFit cart codeOk flashOk) s = execCartridgeFit cart codeOk flashOk s := rfl
theorem exec_timeLineTimeout : exec .timeLineTimeout s = execTimeLineTimeout s := rfl
theorem exec_tcSnapshot (start : Bool) : exec (.tcSnapshot start) s = execTcSnapshot start s := rfl
theorem exec_meteringCompute (p q : Vector Int 4) (ma : Vector Nat 4) (voltBad : Bool) (temp : Int) : exec (.meteringCompute p q ma voltBad temp) s = execMeteringCompute p q ma voltBad temp s := rfl
theorem exec_meteringPulse (k : Fin 8) (overspeed : Bool) : exec (.meteringPulse k overspeed) s = execMeteringPulse k overspeed s := rfl
theorem exec_cartridgeSupplyLoss : exec .cartridgeSupplyLoss s = execCartridgeSupplyLoss s := rfl
theorem exec_verificationEnter : exec .verificationEnter s = execVerificationEnter s := rfl
theorem exec_verificationLeave : exec .verificationLeave s = execVerificationLeave s := rfl
theorem exec_idCmd : exec .idCmd s = execIdCmd s := rfl
theorem exec_prCmd (j : Fin 64) : exec (.prCmd j) s = execPrCmd j s := rfl
theorem exec_pwCmd (j : Fin 64) (v : W32) : exec (.pwCmd j v) s = execPwCmd j v s := rfl
theorem exec_ledCmd (f : BitVec 4) : exec (.ledCmd f) s = execLedCmd f s := rfl
theorem exec_lrCmd (n : BitVec 12) : exec (.lrCmd n) s = execLrCmd n s := rfl
theorem exec_selectorFrameRx (bytes : List Byte) : exec (.selectorFrameRx bytes) s = execSelectorFrameRx bytes s := rfl
theorem exec_obsLaneDown (lane : Fin 2) : exec (.obsLaneDown lane) s = execObsLaneDown lane s := rfl
theorem exec_obsEndStep (m : Master) : exec (.obsEndStep m) s = execObsEndStep m s := rfl
theorem exec_obsClrCnt (m : Master) : exec (.obsClrCnt m) s = execObsClrCnt m s := rfl
theorem exec_supplyRise (mv : BitVec 16) (slot : Slot) : exec (.supplyRise mv slot) s = execSupplyRise mv slot s := rfl
theorem exec_coreRailsGood (mv : BitVec 16) : exec (.coreRailsGood mv) s = execCoreRailsGood mv s := rfl
theorem exec_chipResetRelease (f : BootFind) : exec (.chipResetRelease f) s = execChipResetRelease f s := rfl
theorem exec_configCheckDone : exec .configCheckDone s = execConfigCheckDone s := rfl
theorem exec_holdupReady (mv : BitVec 16) : exec (.holdupReady mv) s = execHoldupReady mv s := rfl
theorem exec_doorbellRelease : exec .doorbellRelease s = execDoorbellRelease s := rfl
theorem exec_canFirstSecondRelease : exec .canFirstSecondRelease s = execCanFirstSecondRelease s := rfl
theorem exec_firstSecondEnd : exec .firstSecondEnd s = execFirstSecondEnd s := rfl
theorem exec_scanStartBoundary : exec .scanStartBoundary s = execScanStartBoundary s := rfl
theorem exec_powerFailWarning (mv : BitVec 16) : exec (.powerFailWarning mv) s = execPowerFailWarning mv s := rfl
theorem exec_shutdownPoint (bank : BitVec 16) : exec (.shutdownPoint bank) s = execShutdownPoint bank s := rfl
theorem exec_holdupExhausted (partnerPowered : Bool) : exec (.holdupExhausted partnerPowered) s = execHoldupExhausted partnerPowered s := rfl
theorem exec_supplyReturnRestart (mv : BitVec 16) : exec (.supplyReturnRestart mv) s = execSupplyReturnRestart mv s := rfl
theorem exec_pwrApply (m : Master) : exec (.pwrApply m) s = execPwrApply m s := rfl
theorem exec_pwrCfgStored : exec .pwrCfgStored s = execPwrCfgStored s := rfl
theorem exec_pwrClrCnt (m : Master) : exec (.pwrClrCnt m) s = execPwrClrCnt m s := rfl
theorem exec_sysClrCnt (m : Master) : exec (.sysClrCnt m) s = execSysClrCnt m s := rfl
theorem exec_sysRestart (m : Master) (v : W32) : exec (.sysRestart m v) s = execSysRestart m v s := rfl
theorem exec_sampleInstant (x : Vector (BitVec 16) 16) (ovr : BitVec 16) : exec (.sampleInstant x ovr) s = execSampleInstant x ovr s := rfl
theorem exec_canRxError (n : Fin 4) (heavy : Bool) : exec (.canRxError n heavy) s = execCanRxError n heavy s := rfl
theorem exec_hostLinkUp (p : Fin 2) (speed width : BitVec 2) : exec (.hostLinkUp p speed width) s = execHostLinkUp p speed width s := rfl
theorem exec_ringPortLinkUp (p : Fin 4) : exec (.ringPortLinkUp p) s = execRingPortLinkUp p s := rfl
theorem exec_islandLinkReturn : exec .islandLinkReturn s = execIslandLinkReturn s := rfl
theorem exec_obsLaneUp (lane : Fin 2) : exec (.obsLaneUp lane) s = execObsLaneUp lane s := rfl
theorem exec_drawbarAckRx (id : Nat) : exec (.drawbarAckRx id) s = execDrawbarAckRx id s := rfl
theorem exec_forwardedReplyRx (id : Nat) (ring : Fin 16) (status result : W32) (data : List Byte) : exec (.forwardedReplyRx id ring status result data) s = execForwardedReplyRx id ring status result data s := rfl
theorem exec_partnerAnswerTimeout (ring : Fin 16) : exec (.partnerAnswerTimeout ring) s = execPartnerAnswerTimeout ring s := rfl
theorem exec_drayFrameEnd (lane : Fin 2) : exec (.drayFrameEnd lane) s = execDrayFrameEnd lane s := rfl
theorem exec_cartridgeRemoved : exec .cartridgeRemoved s = execCartridgeRemoved s := rfl
theorem exec_fitTimeLineWaitExpiry : exec .fitTimeLineWaitExpiry s = execFitTimeLineWaitExpiry s := rfl
theorem exec_chipTemperatureWarning (temp : BitVec 16) : exec (.chipTemperatureWarning temp) s = execChipTemperatureWarning temp s := rfl
theorem exec_delayReqSend (p : Fin 2) : exec (.delayReqSend p) s = execDelayReqSend p s := rfl
theorem exec_masterSyncSend (p : Fin 2) (announce : Bool) : exec (.masterSyncSend p announce) s = execMasterSyncSend p announce s := rfl
theorem exec_delayReqRx (p : Fin 2) (src : W64) (port : Nat) (udp fast : Bool) : exec (.delayReqRx p src port udp fast) s = execDelayReqRx p src port udp fast s := rfl
theorem exec_observationFrameSend : exec .observationFrameSend s = execObservationFrameSend s := rfl
theorem exec_memoryWindowBurst : exec .memoryWindowBurst s = execMemoryWindowBurst s := rfl
theorem exec_rearmEraseComplete : exec .rearmEraseComplete s = execRearmEraseComplete s := rfl
theorem exec_legalPageDisplay (page : Option (Fin 8)) : exec (.legalPageDisplay page) s = execLegalPageDisplay page s := rfl

end Sys2Proof.Machine
end

