-- ==== Sys2Proof/Laws/State.lean ====
section
/-! SUPPORT. What each named update of the state leaves unchanged: one lemma for each field and update, true by `rfl`. -/

namespace Sys2Proof.Machine

variable (s : State)

@[simp] theorem wr_pending (off : Nat) (v : W32) : (s.wr off v).pending = s.pending := rfl
@[simp] theorem wr_out (off : Nat) (v : W32) : (s.wr off v).out = s.out := rfl
@[simp] theorem wr_free (off : Nat) (v : W32) : (s.wr off v).free = s.free := rfl
@[simp] theorem wr_act (off : Nat) (v : W32) : (s.wr off v).act = s.act := rfl
@[simp] theorem wr_latch (off : Nat) (v : W32) : (s.wr off v).latch = s.latch := rfl
@[simp] theorem wr_mem (off : Nat) (v : W32) : (s.wr off v).mem = s.mem := rfl
@[simp] theorem wr_conf (off : Nat) (v : W32) : (s.wr off v).conf = s.conf := rfl
@[simp] theorem wr_power (off : Nat) (v : W32) : (s.wr off v).power = s.power := rfl
@[simp] theorem wr_clk (off : Nat) (v : W32) : (s.wr off v).clk = s.clk := rfl
@[simp] theorem wr_cat (off : Nat) (v : W32) : (s.wr off v).cat = s.cat := rfl
@[simp] theorem wr_integ (off : Nat) (v : W32) : (s.wr off v).integ = s.integ := rfl
@[simp] theorem wr_bogie (off : Nat) (v : W32) : (s.wr off v).bogie = s.bogie := rfl
@[simp] theorem wr_pair (off : Nat) (v : W32) : (s.wr off v).pair = s.pair := rfl
@[simp] theorem wr_olc (off : Nat) (v : W32) : (s.wr off v).olc = s.olc := rfl
@[simp] theorem wr_brm (off : Nat) (v : W32) : (s.wr off v).brm = s.brm := rfl
@[simp] theorem wr_scan (off : Nat) (v : W32) : (s.wr off v).scan = s.scan := rfl
@[simp] theorem wr_recd (off : Nat) (v : W32) : (s.wr off v).recd = s.recd := rfl
@[simp] theorem wr_time (off : Nat) (v : W32) : (s.wr off v).time = s.time := rfl
@[simp] theorem wr_island (off : Nat) (v : W32) : (s.wr off v).island = s.island := rfl
@[simp] theorem wr_rfx (off : Nat) (v : W32) : (s.wr off v).rfx = s.rfx := rfl
@[simp] theorem wr_acq (off : Nat) (v : W32) : (s.wr off v).acq = s.acq := rfl
@[simp] theorem wr_ring (off : Nat) (v : W32) : (s.wr off v).ring = s.ring := rfl
@[simp] theorem wr_can (off : Nat) (v : W32) : (s.wr off v).can = s.can := rfl
@[simp] theorem wr_host (off : Nat) (v : W32) : (s.wr off v).host = s.host := rfl
@[simp] theorem wr_dma (off : Nat) (v : W32) : (s.wr off v).dma = s.dma := rfl
@[simp] theorem wr_dray (off : Nat) (v : W32) : (s.wr off v).dray = s.dray := rfl
@[simp] theorem wr_bay (off : Nat) (v : W32) : (s.wr off v).bay = s.bay := rfl
@[simp] theorem wr_obs (off : Nat) (v : W32) : (s.wr off v).obs = s.obs := rfl
@[simp] theorem wr_wf (off : Nat) (v : W32) : (s.wr off v).wf = s.wf := rfl

@[simp] theorem fset_pending (f : Field) (v : Nat) : (s.fset f v).pending = s.pending := rfl
@[simp] theorem fset_out (f : Field) (v : Nat) : (s.fset f v).out = s.out := rfl
@[simp] theorem fset_free (f : Field) (v : Nat) : (s.fset f v).free = s.free := rfl
@[simp] theorem fset_act (f : Field) (v : Nat) : (s.fset f v).act = s.act := rfl
@[simp] theorem fset_latch (f : Field) (v : Nat) : (s.fset f v).latch = s.latch := rfl
@[simp] theorem fset_mem (f : Field) (v : Nat) : (s.fset f v).mem = s.mem := rfl
@[simp] theorem fset_conf (f : Field) (v : Nat) : (s.fset f v).conf = s.conf := rfl
@[simp] theorem fset_power (f : Field) (v : Nat) : (s.fset f v).power = s.power := rfl
@[simp] theorem fset_clk (f : Field) (v : Nat) : (s.fset f v).clk = s.clk := rfl
@[simp] theorem fset_cat (f : Field) (v : Nat) : (s.fset f v).cat = s.cat := rfl
@[simp] theorem fset_integ (f : Field) (v : Nat) : (s.fset f v).integ = s.integ := rfl
@[simp] theorem fset_bogie (f : Field) (v : Nat) : (s.fset f v).bogie = s.bogie := rfl
@[simp] theorem fset_pair (f : Field) (v : Nat) : (s.fset f v).pair = s.pair := rfl
@[simp] theorem fset_olc (f : Field) (v : Nat) : (s.fset f v).olc = s.olc := rfl
@[simp] theorem fset_brm (f : Field) (v : Nat) : (s.fset f v).brm = s.brm := rfl
@[simp] theorem fset_scan (f : Field) (v : Nat) : (s.fset f v).scan = s.scan := rfl
@[simp] theorem fset_recd (f : Field) (v : Nat) : (s.fset f v).recd = s.recd := rfl
@[simp] theorem fset_time (f : Field) (v : Nat) : (s.fset f v).time = s.time := rfl
@[simp] theorem fset_island (f : Field) (v : Nat) : (s.fset f v).island = s.island := rfl
@[simp] theorem fset_rfx (f : Field) (v : Nat) : (s.fset f v).rfx = s.rfx := rfl
@[simp] theorem fset_acq (f : Field) (v : Nat) : (s.fset f v).acq = s.acq := rfl
@[simp] theorem fset_ring (f : Field) (v : Nat) : (s.fset f v).ring = s.ring := rfl
@[simp] theorem fset_can (f : Field) (v : Nat) : (s.fset f v).can = s.can := rfl
@[simp] theorem fset_host (f : Field) (v : Nat) : (s.fset f v).host = s.host := rfl
@[simp] theorem fset_dma (f : Field) (v : Nat) : (s.fset f v).dma = s.dma := rfl
@[simp] theorem fset_dray (f : Field) (v : Nat) : (s.fset f v).dray = s.dray := rfl
@[simp] theorem fset_bay (f : Field) (v : Nat) : (s.fset f v).bay = s.bay := rfl
@[simp] theorem fset_obs (f : Field) (v : Nat) : (s.fset f v).obs = s.obs := rfl
@[simp] theorem fset_wf (f : Field) (v : Nat) : (s.fset f v).wf = s.wf := rfl

@[simp] theorem fsetb_pending (f : Field) (b : Bool) : (s.fsetb f b).pending = s.pending := rfl
@[simp] theorem fsetb_out (f : Field) (b : Bool) : (s.fsetb f b).out = s.out := rfl
@[simp] theorem fsetb_free (f : Field) (b : Bool) : (s.fsetb f b).free = s.free := rfl
@[simp] theorem fsetb_act (f : Field) (b : Bool) : (s.fsetb f b).act = s.act := rfl
@[simp] theorem fsetb_latch (f : Field) (b : Bool) : (s.fsetb f b).latch = s.latch := rfl
@[simp] theorem fsetb_mem (f : Field) (b : Bool) : (s.fsetb f b).mem = s.mem := rfl
@[simp] theorem fsetb_conf (f : Field) (b : Bool) : (s.fsetb f b).conf = s.conf := rfl
@[simp] theorem fsetb_power (f : Field) (b : Bool) : (s.fsetb f b).power = s.power := rfl
@[simp] theorem fsetb_clk (f : Field) (b : Bool) : (s.fsetb f b).clk = s.clk := rfl
@[simp] theorem fsetb_cat (f : Field) (b : Bool) : (s.fsetb f b).cat = s.cat := rfl
@[simp] theorem fsetb_integ (f : Field) (b : Bool) : (s.fsetb f b).integ = s.integ := rfl
@[simp] theorem fsetb_bogie (f : Field) (b : Bool) : (s.fsetb f b).bogie = s.bogie := rfl
@[simp] theorem fsetb_pair (f : Field) (b : Bool) : (s.fsetb f b).pair = s.pair := rfl
@[simp] theorem fsetb_olc (f : Field) (b : Bool) : (s.fsetb f b).olc = s.olc := rfl
@[simp] theorem fsetb_brm (f : Field) (b : Bool) : (s.fsetb f b).brm = s.brm := rfl
@[simp] theorem fsetb_scan (f : Field) (b : Bool) : (s.fsetb f b).scan = s.scan := rfl
@[simp] theorem fsetb_recd (f : Field) (b : Bool) : (s.fsetb f b).recd = s.recd := rfl
@[simp] theorem fsetb_time (f : Field) (b : Bool) : (s.fsetb f b).time = s.time := rfl
@[simp] theorem fsetb_island (f : Field) (b : Bool) : (s.fsetb f b).island = s.island := rfl
@[simp] theorem fsetb_rfx (f : Field) (b : Bool) : (s.fsetb f b).rfx = s.rfx := rfl
@[simp] theorem fsetb_acq (f : Field) (b : Bool) : (s.fsetb f b).acq = s.acq := rfl
@[simp] theorem fsetb_ring (f : Field) (b : Bool) : (s.fsetb f b).ring = s.ring := rfl
@[simp] theorem fsetb_can (f : Field) (b : Bool) : (s.fsetb f b).can = s.can := rfl
@[simp] theorem fsetb_host (f : Field) (b : Bool) : (s.fsetb f b).host = s.host := rfl
@[simp] theorem fsetb_dma (f : Field) (b : Bool) : (s.fsetb f b).dma = s.dma := rfl
@[simp] theorem fsetb_dray (f : Field) (b : Bool) : (s.fsetb f b).dray = s.dray := rfl
@[simp] theorem fsetb_bay (f : Field) (b : Bool) : (s.fsetb f b).bay = s.bay := rfl
@[simp] theorem fsetb_obs (f : Field) (b : Bool) : (s.fsetb f b).obs = s.obs := rfl
@[simp] theorem fsetb_wf (f : Field) (b : Bool) : (s.fsetb f b).wf = s.wf := rfl

@[simp] theorem bumpBy_pending (off k : Nat) : (s.bumpBy off k).pending = s.pending := rfl
@[simp] theorem bumpBy_out (off k : Nat) : (s.bumpBy off k).out = s.out := rfl
@[simp] theorem bumpBy_free (off k : Nat) : (s.bumpBy off k).free = s.free := rfl
@[simp] theorem bumpBy_act (off k : Nat) : (s.bumpBy off k).act = s.act := rfl
@[simp] theorem bumpBy_latch (off k : Nat) : (s.bumpBy off k).latch = s.latch := rfl
@[simp] theorem bumpBy_mem (off k : Nat) : (s.bumpBy off k).mem = s.mem := rfl
@[simp] theorem bumpBy_conf (off k : Nat) : (s.bumpBy off k).conf = s.conf := rfl
@[simp] theorem bumpBy_power (off k : Nat) : (s.bumpBy off k).power = s.power := rfl
@[simp] theorem bumpBy_clk (off k : Nat) : (s.bumpBy off k).clk = s.clk := rfl
@[simp] theorem bumpBy_cat (off k : Nat) : (s.bumpBy off k).cat = s.cat := rfl
@[simp] theorem bumpBy_integ (off k : Nat) : (s.bumpBy off k).integ = s.integ := rfl
@[simp] theorem bumpBy_bogie (off k : Nat) : (s.bumpBy off k).bogie = s.bogie := rfl
@[simp] theorem bumpBy_pair (off k : Nat) : (s.bumpBy off k).pair = s.pair := rfl
@[simp] theorem bumpBy_olc (off k : Nat) : (s.bumpBy off k).olc = s.olc := rfl
@[simp] theorem bumpBy_brm (off k : Nat) : (s.bumpBy off k).brm = s.brm := rfl
@[simp] theorem bumpBy_scan (off k : Nat) : (s.bumpBy off k).scan = s.scan := rfl
@[simp] theorem bumpBy_recd (off k : Nat) : (s.bumpBy off k).recd = s.recd := rfl
@[simp] theorem bumpBy_time (off k : Nat) : (s.bumpBy off k).time = s.time := rfl
@[simp] theorem bumpBy_island (off k : Nat) : (s.bumpBy off k).island = s.island := rfl
@[simp] theorem bumpBy_rfx (off k : Nat) : (s.bumpBy off k).rfx = s.rfx := rfl
@[simp] theorem bumpBy_acq (off k : Nat) : (s.bumpBy off k).acq = s.acq := rfl
@[simp] theorem bumpBy_ring (off k : Nat) : (s.bumpBy off k).ring = s.ring := rfl
@[simp] theorem bumpBy_can (off k : Nat) : (s.bumpBy off k).can = s.can := rfl
@[simp] theorem bumpBy_host (off k : Nat) : (s.bumpBy off k).host = s.host := rfl
@[simp] theorem bumpBy_dma (off k : Nat) : (s.bumpBy off k).dma = s.dma := rfl
@[simp] theorem bumpBy_dray (off k : Nat) : (s.bumpBy off k).dray = s.dray := rfl
@[simp] theorem bumpBy_bay (off k : Nat) : (s.bumpBy off k).bay = s.bay := rfl
@[simp] theorem bumpBy_obs (off k : Nat) : (s.bumpBy off k).obs = s.obs := rfl
@[simp] theorem bumpBy_wf (off k : Nat) : (s.bumpBy off k).wf = s.wf := rfl

@[simp] theorem bump_pending (off : Nat) : (s.bump off).pending = s.pending := rfl
@[simp] theorem bump_out (off : Nat) : (s.bump off).out = s.out := rfl
@[simp] theorem bump_free (off : Nat) : (s.bump off).free = s.free := rfl
@[simp] theorem bump_act (off : Nat) : (s.bump off).act = s.act := rfl
@[simp] theorem bump_latch (off : Nat) : (s.bump off).latch = s.latch := rfl
@[simp] theorem bump_mem (off : Nat) : (s.bump off).mem = s.mem := rfl
@[simp] theorem bump_conf (off : Nat) : (s.bump off).conf = s.conf := rfl
@[simp] theorem bump_power (off : Nat) : (s.bump off).power = s.power := rfl
@[simp] theorem bump_clk (off : Nat) : (s.bump off).clk = s.clk := rfl
@[simp] theorem bump_cat (off : Nat) : (s.bump off).cat = s.cat := rfl
@[simp] theorem bump_integ (off : Nat) : (s.bump off).integ = s.integ := rfl
@[simp] theorem bump_bogie (off : Nat) : (s.bump off).bogie = s.bogie := rfl
@[simp] theorem bump_pair (off : Nat) : (s.bump off).pair = s.pair := rfl
@[simp] theorem bump_olc (off : Nat) : (s.bump off).olc = s.olc := rfl
@[simp] theorem bump_brm (off : Nat) : (s.bump off).brm = s.brm := rfl
@[simp] theorem bump_scan (off : Nat) : (s.bump off).scan = s.scan := rfl
@[simp] theorem bump_recd (off : Nat) : (s.bump off).recd = s.recd := rfl
@[simp] theorem bump_time (off : Nat) : (s.bump off).time = s.time := rfl
@[simp] theorem bump_island (off : Nat) : (s.bump off).island = s.island := rfl
@[simp] theorem bump_rfx (off : Nat) : (s.bump off).rfx = s.rfx := rfl
@[simp] theorem bump_acq (off : Nat) : (s.bump off).acq = s.acq := rfl
@[simp] theorem bump_ring (off : Nat) : (s.bump off).ring = s.ring := rfl
@[simp] theorem bump_can (off : Nat) : (s.bump off).can = s.can := rfl
@[simp] theorem bump_host (off : Nat) : (s.bump off).host = s.host := rfl
@[simp] theorem bump_dma (off : Nat) : (s.bump off).dma = s.dma := rfl
@[simp] theorem bump_dray (off : Nat) : (s.bump off).dray = s.dray := rfl
@[simp] theorem bump_bay (off : Nat) : (s.bump off).bay = s.bay := rfl
@[simp] theorem bump_obs (off : Nat) : (s.bump off).obs = s.obs := rfl
@[simp] theorem bump_wf (off : Nat) : (s.bump off).wf = s.wf := rfl

@[simp] theorem bumpF_pending (f : Field) : (s.bumpF f).pending = s.pending := rfl
@[simp] theorem bumpF_out (f : Field) : (s.bumpF f).out = s.out := rfl
@[simp] theorem bumpF_free (f : Field) : (s.bumpF f).free = s.free := rfl
@[simp] theorem bumpF_act (f : Field) : (s.bumpF f).act = s.act := rfl
@[simp] theorem bumpF_latch (f : Field) : (s.bumpF f).latch = s.latch := rfl
@[simp] theorem bumpF_mem (f : Field) : (s.bumpF f).mem = s.mem := rfl
@[simp] theorem bumpF_conf (f : Field) : (s.bumpF f).conf = s.conf := rfl
@[simp] theorem bumpF_power (f : Field) : (s.bumpF f).power = s.power := rfl
@[simp] theorem bumpF_clk (f : Field) : (s.bumpF f).clk = s.clk := rfl
@[simp] theorem bumpF_cat (f : Field) : (s.bumpF f).cat = s.cat := rfl
@[simp] theorem bumpF_integ (f : Field) : (s.bumpF f).integ = s.integ := rfl
@[simp] theorem bumpF_bogie (f : Field) : (s.bumpF f).bogie = s.bogie := rfl
@[simp] theorem bumpF_pair (f : Field) : (s.bumpF f).pair = s.pair := rfl
@[simp] theorem bumpF_olc (f : Field) : (s.bumpF f).olc = s.olc := rfl
@[simp] theorem bumpF_brm (f : Field) : (s.bumpF f).brm = s.brm := rfl
@[simp] theorem bumpF_scan (f : Field) : (s.bumpF f).scan = s.scan := rfl
@[simp] theorem bumpF_recd (f : Field) : (s.bumpF f).recd = s.recd := rfl
@[simp] theorem bumpF_time (f : Field) : (s.bumpF f).time = s.time := rfl
@[simp] theorem bumpF_island (f : Field) : (s.bumpF f).island = s.island := rfl
@[simp] theorem bumpF_rfx (f : Field) : (s.bumpF f).rfx = s.rfx := rfl
@[simp] theorem bumpF_acq (f : Field) : (s.bumpF f).acq = s.acq := rfl
@[simp] theorem bumpF_ring (f : Field) : (s.bumpF f).ring = s.ring := rfl
@[simp] theorem bumpF_can (f : Field) : (s.bumpF f).can = s.can := rfl
@[simp] theorem bumpF_host (f : Field) : (s.bumpF f).host = s.host := rfl
@[simp] theorem bumpF_dma (f : Field) : (s.bumpF f).dma = s.dma := rfl
@[simp] theorem bumpF_dray (f : Field) : (s.bumpF f).dray = s.dray := rfl
@[simp] theorem bumpF_bay (f : Field) : (s.bumpF f).bay = s.bay := rfl
@[simp] theorem bumpF_obs (f : Field) : (s.bumpF f).obs = s.obs := rfl
@[simp] theorem bumpF_wf (f : Field) : (s.bumpF f).wf = s.wf := rfl

@[simp] theorem wr64_pending (lo : Nat) (v : W64) : (s.wr64 lo v).pending = s.pending := rfl
@[simp] theorem wr64_out (lo : Nat) (v : W64) : (s.wr64 lo v).out = s.out := rfl
@[simp] theorem wr64_free (lo : Nat) (v : W64) : (s.wr64 lo v).free = s.free := rfl
@[simp] theorem wr64_act (lo : Nat) (v : W64) : (s.wr64 lo v).act = s.act := rfl
@[simp] theorem wr64_latch (lo : Nat) (v : W64) : (s.wr64 lo v).latch = s.latch := rfl
@[simp] theorem wr64_mem (lo : Nat) (v : W64) : (s.wr64 lo v).mem = s.mem := rfl
@[simp] theorem wr64_conf (lo : Nat) (v : W64) : (s.wr64 lo v).conf = s.conf := rfl
@[simp] theorem wr64_power (lo : Nat) (v : W64) : (s.wr64 lo v).power = s.power := rfl
@[simp] theorem wr64_clk (lo : Nat) (v : W64) : (s.wr64 lo v).clk = s.clk := rfl
@[simp] theorem wr64_cat (lo : Nat) (v : W64) : (s.wr64 lo v).cat = s.cat := rfl
@[simp] theorem wr64_integ (lo : Nat) (v : W64) : (s.wr64 lo v).integ = s.integ := rfl
@[simp] theorem wr64_bogie (lo : Nat) (v : W64) : (s.wr64 lo v).bogie = s.bogie := rfl
@[simp] theorem wr64_pair (lo : Nat) (v : W64) : (s.wr64 lo v).pair = s.pair := rfl
@[simp] theorem wr64_olc (lo : Nat) (v : W64) : (s.wr64 lo v).olc = s.olc := rfl
@[simp] theorem wr64_brm (lo : Nat) (v : W64) : (s.wr64 lo v).brm = s.brm := rfl
@[simp] theorem wr64_scan (lo : Nat) (v : W64) : (s.wr64 lo v).scan = s.scan := rfl
@[simp] theorem wr64_recd (lo : Nat) (v : W64) : (s.wr64 lo v).recd = s.recd := rfl
@[simp] theorem wr64_time (lo : Nat) (v : W64) : (s.wr64 lo v).time = s.time := rfl
@[simp] theorem wr64_island (lo : Nat) (v : W64) : (s.wr64 lo v).island = s.island := rfl
@[simp] theorem wr64_rfx (lo : Nat) (v : W64) : (s.wr64 lo v).rfx = s.rfx := rfl
@[simp] theorem wr64_acq (lo : Nat) (v : W64) : (s.wr64 lo v).acq = s.acq := rfl
@[simp] theorem wr64_ring (lo : Nat) (v : W64) : (s.wr64 lo v).ring = s.ring := rfl
@[simp] theorem wr64_can (lo : Nat) (v : W64) : (s.wr64 lo v).can = s.can := rfl
@[simp] theorem wr64_host (lo : Nat) (v : W64) : (s.wr64 lo v).host = s.host := rfl
@[simp] theorem wr64_dma (lo : Nat) (v : W64) : (s.wr64 lo v).dma = s.dma := rfl
@[simp] theorem wr64_dray (lo : Nat) (v : W64) : (s.wr64 lo v).dray = s.dray := rfl
@[simp] theorem wr64_bay (lo : Nat) (v : W64) : (s.wr64 lo v).bay = s.bay := rfl
@[simp] theorem wr64_obs (lo : Nat) (v : W64) : (s.wr64 lo v).obs = s.obs := rfl
@[simp] theorem wr64_wf (lo : Nat) (v : W64) : (s.wr64 lo v).wf = s.wf := rfl

@[simp] theorem ignoredIn_pending (b : Nat) : (s.ignoredIn b).pending = s.pending := rfl
@[simp] theorem ignoredIn_out (b : Nat) : (s.ignoredIn b).out = s.out := rfl
@[simp] theorem ignoredIn_free (b : Nat) : (s.ignoredIn b).free = s.free := rfl
@[simp] theorem ignoredIn_act (b : Nat) : (s.ignoredIn b).act = s.act := rfl
@[simp] theorem ignoredIn_latch (b : Nat) : (s.ignoredIn b).latch = s.latch := rfl
@[simp] theorem ignoredIn_mem (b : Nat) : (s.ignoredIn b).mem = s.mem := rfl
@[simp] theorem ignoredIn_conf (b : Nat) : (s.ignoredIn b).conf = s.conf := rfl
@[simp] theorem ignoredIn_power (b : Nat) : (s.ignoredIn b).power = s.power := rfl
@[simp] theorem ignoredIn_clk (b : Nat) : (s.ignoredIn b).clk = s.clk := rfl
@[simp] theorem ignoredIn_cat (b : Nat) : (s.ignoredIn b).cat = s.cat := rfl
@[simp] theorem ignoredIn_integ (b : Nat) : (s.ignoredIn b).integ = s.integ := rfl
@[simp] theorem ignoredIn_bogie (b : Nat) : (s.ignoredIn b).bogie = s.bogie := rfl
@[simp] theorem ignoredIn_pair (b : Nat) : (s.ignoredIn b).pair = s.pair := rfl
@[simp] theorem ignoredIn_olc (b : Nat) : (s.ignoredIn b).olc = s.olc := rfl
@[simp] theorem ignoredIn_brm (b : Nat) : (s.ignoredIn b).brm = s.brm := rfl
@[simp] theorem ignoredIn_scan (b : Nat) : (s.ignoredIn b).scan = s.scan := rfl
@[simp] theorem ignoredIn_recd (b : Nat) : (s.ignoredIn b).recd = s.recd := rfl
@[simp] theorem ignoredIn_time (b : Nat) : (s.ignoredIn b).time = s.time := rfl
@[simp] theorem ignoredIn_island (b : Nat) : (s.ignoredIn b).island = s.island := rfl
@[simp] theorem ignoredIn_rfx (b : Nat) : (s.ignoredIn b).rfx = s.rfx := rfl
@[simp] theorem ignoredIn_acq (b : Nat) : (s.ignoredIn b).acq = s.acq := rfl
@[simp] theorem ignoredIn_ring (b : Nat) : (s.ignoredIn b).ring = s.ring := rfl
@[simp] theorem ignoredIn_can (b : Nat) : (s.ignoredIn b).can = s.can := rfl
@[simp] theorem ignoredIn_host (b : Nat) : (s.ignoredIn b).host = s.host := rfl
@[simp] theorem ignoredIn_dma (b : Nat) : (s.ignoredIn b).dma = s.dma := rfl
@[simp] theorem ignoredIn_dray (b : Nat) : (s.ignoredIn b).dray = s.dray := rfl
@[simp] theorem ignoredIn_bay (b : Nat) : (s.ignoredIn b).bay = s.bay := rfl
@[simp] theorem ignoredIn_obs (b : Nat) : (s.ignoredIn b).obs = s.obs := rfl
@[simp] theorem ignoredIn_wf (b : Nat) : (s.ignoredIn b).wf = s.wf := rfl

@[simp] theorem setMod_pending (m : ModState) : (s.setMod m).pending = s.pending := rfl
@[simp] theorem setMod_out (m : ModState) : (s.setMod m).out = s.out := rfl
@[simp] theorem setMod_free (m : ModState) : (s.setMod m).free = s.free := rfl
@[simp] theorem setMod_act (m : ModState) : (s.setMod m).act = s.act := rfl
@[simp] theorem setMod_latch (m : ModState) : (s.setMod m).latch = s.latch := rfl
@[simp] theorem setMod_mem (m : ModState) : (s.setMod m).mem = s.mem := rfl
@[simp] theorem setMod_conf (m : ModState) : (s.setMod m).conf = s.conf := rfl
@[simp] theorem setMod_power (m : ModState) : (s.setMod m).power = s.power := rfl
@[simp] theorem setMod_clk (m : ModState) : (s.setMod m).clk = s.clk := rfl
@[simp] theorem setMod_cat (m : ModState) : (s.setMod m).cat = s.cat := rfl
@[simp] theorem setMod_integ (m : ModState) : (s.setMod m).integ = s.integ := rfl
@[simp] theorem setMod_bogie (m : ModState) : (s.setMod m).bogie = s.bogie := rfl
@[simp] theorem setMod_pair (m : ModState) : (s.setMod m).pair = s.pair := rfl
@[simp] theorem setMod_olc (m : ModState) : (s.setMod m).olc = s.olc := rfl
@[simp] theorem setMod_brm (m : ModState) : (s.setMod m).brm = s.brm := rfl
@[simp] theorem setMod_scan (m : ModState) : (s.setMod m).scan = s.scan := rfl
@[simp] theorem setMod_recd (m : ModState) : (s.setMod m).recd = s.recd := rfl
@[simp] theorem setMod_time (m : ModState) : (s.setMod m).time = s.time := rfl
@[simp] theorem setMod_island (m : ModState) : (s.setMod m).island = s.island := rfl
@[simp] theorem setMod_rfx (m : ModState) : (s.setMod m).rfx = s.rfx := rfl
@[simp] theorem setMod_acq (m : ModState) : (s.setMod m).acq = s.acq := rfl
@[simp] theorem setMod_ring (m : ModState) : (s.setMod m).ring = s.ring := rfl
@[simp] theorem setMod_can (m : ModState) : (s.setMod m).can = s.can := rfl
@[simp] theorem setMod_host (m : ModState) : (s.setMod m).host = s.host := rfl
@[simp] theorem setMod_dma (m : ModState) : (s.setMod m).dma = s.dma := rfl
@[simp] theorem setMod_dray (m : ModState) : (s.setMod m).dray = s.dray := rfl
@[simp] theorem setMod_bay (m : ModState) : (s.setMod m).bay = s.bay := rfl
@[simp] theorem setMod_obs (m : ModState) : (s.setMod m).obs = s.obs := rfl
@[simp] theorem setMod_wf (m : ModState) : (s.setMod m).wf = s.wf := rfl

@[simp] theorem emit_pending (o : Out) : (s.emit o).pending = s.pending := rfl
@[simp] theorem emit_free (o : Out) : (s.emit o).free = s.free := rfl
@[simp] theorem emit_regs (o : Out) : (s.emit o).regs = s.regs := rfl
@[simp] theorem emit_act (o : Out) : (s.emit o).act = s.act := rfl
@[simp] theorem emit_latch (o : Out) : (s.emit o).latch = s.latch := rfl
@[simp] theorem emit_mem (o : Out) : (s.emit o).mem = s.mem := rfl
@[simp] theorem emit_conf (o : Out) : (s.emit o).conf = s.conf := rfl
@[simp] theorem emit_power (o : Out) : (s.emit o).power = s.power := rfl
@[simp] theorem emit_clk (o : Out) : (s.emit o).clk = s.clk := rfl
@[simp] theorem emit_cat (o : Out) : (s.emit o).cat = s.cat := rfl
@[simp] theorem emit_integ (o : Out) : (s.emit o).integ = s.integ := rfl
@[simp] theorem emit_bogie (o : Out) : (s.emit o).bogie = s.bogie := rfl
@[simp] theorem emit_pair (o : Out) : (s.emit o).pair = s.pair := rfl
@[simp] theorem emit_olc (o : Out) : (s.emit o).olc = s.olc := rfl
@[simp] theorem emit_brm (o : Out) : (s.emit o).brm = s.brm := rfl
@[simp] theorem emit_scan (o : Out) : (s.emit o).scan = s.scan := rfl
@[simp] theorem emit_recd (o : Out) : (s.emit o).recd = s.recd := rfl
@[simp] theorem emit_time (o : Out) : (s.emit o).time = s.time := rfl
@[simp] theorem emit_island (o : Out) : (s.emit o).island = s.island := rfl
@[simp] theorem emit_rfx (o : Out) : (s.emit o).rfx = s.rfx := rfl
@[simp] theorem emit_acq (o : Out) : (s.emit o).acq = s.acq := rfl
@[simp] theorem emit_ring (o : Out) : (s.emit o).ring = s.ring := rfl
@[simp] theorem emit_can (o : Out) : (s.emit o).can = s.can := rfl
@[simp] theorem emit_host (o : Out) : (s.emit o).host = s.host := rfl
@[simp] theorem emit_dma (o : Out) : (s.emit o).dma = s.dma := rfl
@[simp] theorem emit_dray (o : Out) : (s.emit o).dray = s.dray := rfl
@[simp] theorem emit_bay (o : Out) : (s.emit o).bay = s.bay := rfl
@[simp] theorem emit_obs (o : Out) : (s.emit o).obs = s.obs := rfl
@[simp] theorem emit_wf (o : Out) : (s.emit o).wf = s.wf := rfl

@[simp] theorem raise_pending (h : Hap) (u : Nat) (ps : List W64) : (s.raise h u ps).pending = s.pending := rfl
@[simp] theorem raise_out (h : Hap) (u : Nat) (ps : List W64) : (s.raise h u ps).out = s.out := rfl
@[simp] theorem raise_free (h : Hap) (u : Nat) (ps : List W64) : (s.raise h u ps).free = s.free := rfl
@[simp] theorem raise_regs (h : Hap) (u : Nat) (ps : List W64) : (s.raise h u ps).regs = s.regs := rfl
@[simp] theorem raise_act (h : Hap) (u : Nat) (ps : List W64) : (s.raise h u ps).act = s.act := rfl
@[simp] theorem raise_latch (h : Hap) (u : Nat) (ps : List W64) : (s.raise h u ps).latch = s.latch := rfl
@[simp] theorem raise_mem (h : Hap) (u : Nat) (ps : List W64) : (s.raise h u ps).mem = s.mem := rfl
@[simp] theorem raise_conf (h : Hap) (u : Nat) (ps : List W64) : (s.raise h u ps).conf = s.conf := rfl
@[simp] theorem raise_power (h : Hap) (u : Nat) (ps : List W64) : (s.raise h u ps).power = s.power := rfl
@[simp] theorem raise_clk (h : Hap) (u : Nat) (ps : List W64) : (s.raise h u ps).clk = s.clk := rfl
@[simp] theorem raise_cat (h : Hap) (u : Nat) (ps : List W64) : (s.raise h u ps).cat = s.cat := rfl
@[simp] theorem raise_integ (h : Hap) (u : Nat) (ps : List W64) : (s.raise h u ps).integ = s.integ := rfl
@[simp] theorem raise_bogie (h : Hap) (u : Nat) (ps : List W64) : (s.raise h u ps).bogie = s.bogie := rfl
@[simp] theorem raise_pair (h : Hap) (u : Nat) (ps : List W64) : (s.raise h u ps).pair = s.pair := rfl
@[simp] theorem raise_olc (h : Hap) (u : Nat) (ps : List W64) : (s.raise h u ps).olc = s.olc := rfl
@[simp] theorem raise_brm (h : Hap) (u : Nat) (ps : List W64) : (s.raise h u ps).brm = s.brm := rfl
@[simp] theorem raise_scan (h : Hap) (u : Nat) (ps : List W64) : (s.raise h u ps).scan = s.scan := rfl
@[simp] theorem raise_time (h : Hap) (u : Nat) (ps : List W64) : (s.raise h u ps).time = s.time := rfl
@[simp] theorem raise_island (h : Hap) (u : Nat) (ps : List W64) : (s.raise h u ps).island = s.island := rfl
@[simp] theorem raise_rfx (h : Hap) (u : Nat) (ps : List W64) : (s.raise h u ps).rfx = s.rfx := rfl
@[simp] theorem raise_acq (h : Hap) (u : Nat) (ps : List W64) : (s.raise h u ps).acq = s.acq := rfl
@[simp] theorem raise_ring (h : Hap) (u : Nat) (ps : List W64) : (s.raise h u ps).ring = s.ring := rfl
@[simp] theorem raise_can (h : Hap) (u : Nat) (ps : List W64) : (s.raise h u ps).can = s.can := rfl
@[simp] theorem raise_host (h : Hap) (u : Nat) (ps : List W64) : (s.raise h u ps).host = s.host := rfl
@[simp] theorem raise_dma (h : Hap) (u : Nat) (ps : List W64) : (s.raise h u ps).dma = s.dma := rfl
@[simp] theorem raise_dray (h : Hap) (u : Nat) (ps : List W64) : (s.raise h u ps).dray = s.dray := rfl
@[simp] theorem raise_bay (h : Hap) (u : Nat) (ps : List W64) : (s.raise h u ps).bay = s.bay := rfl
@[simp] theorem raise_obs (h : Hap) (u : Nat) (ps : List W64) : (s.raise h u ps).obs = s.obs := rfl
@[simp] theorem raise_wf (h : Hap) (u : Nat) (ps : List W64) : (s.raise h u ps).wf = s.wf := rfl

@[simp] theorem wrMem_pending (a : Nat) (bs : List Byte) : (s.wrMem a bs).pending = s.pending := rfl
@[simp] theorem wrMem_out (a : Nat) (bs : List Byte) : (s.wrMem a bs).out = s.out := rfl
@[simp] theorem wrMem_free (a : Nat) (bs : List Byte) : (s.wrMem a bs).free = s.free := rfl
@[simp] theorem wrMem_regs (a : Nat) (bs : List Byte) : (s.wrMem a bs).regs = s.regs := rfl
@[simp] theorem wrMem_act (a : Nat) (bs : List Byte) : (s.wrMem a bs).act = s.act := rfl
@[simp] theorem wrMem_latch (a : Nat) (bs : List Byte) : (s.wrMem a bs).latch = s.latch := rfl
@[simp] theorem wrMem_conf (a : Nat) (bs : List Byte) : (s.wrMem a bs).conf = s.conf := rfl
@[simp] theorem wrMem_power (a : Nat) (bs : List Byte) : (s.wrMem a bs).power = s.power := rfl
@[simp] theorem wrMem_clk (a : Nat) (bs : List Byte) : (s.wrMem a bs).clk = s.clk := rfl
@[simp] theorem wrMem_cat (a : Nat) (bs : List Byte) : (s.wrMem a bs).cat = s.cat := rfl
@[simp] theorem wrMem_integ (a : Nat) (bs : List Byte) : (s.wrMem a bs).integ = s.integ := rfl
@[simp] theorem wrMem_bogie (a : Nat) (bs : List Byte) : (s.wrMem a bs).bogie = s.bogie := rfl
@[simp] theorem wrMem_pair (a : Nat) (bs : List Byte) : (s.wrMem a bs).pair = s.pair := rfl
@[simp] theorem wrMem_olc (a : Nat) (bs : List Byte) : (s.wrMem a bs).olc = s.olc := rfl
@[simp] theorem wrMem_brm (a : Nat) (bs : List Byte) : (s.wrMem a bs).brm = s.brm := rfl
@[simp] theorem wrMem_scan (a : Nat) (bs : List Byte) : (s.wrMem a bs).scan = s.scan := rfl
@[simp] theorem wrMem_recd (a : Nat) (bs : List Byte) : (s.wrMem a bs).recd = s.recd := rfl
@[simp] theorem wrMem_time (a : Nat) (bs : List Byte) : (s.wrMem a bs).time = s.time := rfl
@[simp] theorem wrMem_island (a : Nat) (bs : List Byte) : (s.wrMem a bs).island = s.island := rfl
@[simp] theorem wrMem_rfx (a : Nat) (bs : List Byte) : (s.wrMem a bs).rfx = s.rfx := rfl
@[simp] theorem wrMem_acq (a : Nat) (bs : List Byte) : (s.wrMem a bs).acq = s.acq := rfl
@[simp] theorem wrMem_ring (a : Nat) (bs : List Byte) : (s.wrMem a bs).ring = s.ring := rfl
@[simp] theorem wrMem_can (a : Nat) (bs : List Byte) : (s.wrMem a bs).can = s.can := rfl
@[simp] theorem wrMem_host (a : Nat) (bs : List Byte) : (s.wrMem a bs).host = s.host := rfl
@[simp] theorem wrMem_dma (a : Nat) (bs : List Byte) : (s.wrMem a bs).dma = s.dma := rfl
@[simp] theorem wrMem_dray (a : Nat) (bs : List Byte) : (s.wrMem a bs).dray = s.dray := rfl
@[simp] theorem wrMem_bay (a : Nat) (bs : List Byte) : (s.wrMem a bs).bay = s.bay := rfl
@[simp] theorem wrMem_obs (a : Nat) (bs : List Byte) : (s.wrMem a bs).obs = s.obs := rfl
@[simp] theorem wrMem_wf (a : Nat) (bs : List Byte) : (s.wrMem a bs).wf = s.wf := rfl

@[simp] theorem setDru_pending (be : Fin 32) (d : Drupelet) : (s.setDru be d).pending = s.pending := rfl
@[simp] theorem setDru_out (be : Fin 32) (d : Drupelet) : (s.setDru be d).out = s.out := rfl
@[simp] theorem setDru_free (be : Fin 32) (d : Drupelet) : (s.setDru be d).free = s.free := rfl
@[simp] theorem setDru_regs (be : Fin 32) (d : Drupelet) : (s.setDru be d).regs = s.regs := rfl
@[simp] theorem setDru_act (be : Fin 32) (d : Drupelet) : (s.setDru be d).act = s.act := rfl
@[simp] theorem setDru_latch (be : Fin 32) (d : Drupelet) : (s.setDru be d).latch = s.latch := rfl
@[simp] theorem setDru_mem (be : Fin 32) (d : Drupelet) : (s.setDru be d).mem = s.mem := rfl
@[simp] theorem setDru_conf (be : Fin 32) (d : Drupelet) : (s.setDru be d).conf = s.conf := rfl
@[simp] theorem setDru_power (be : Fin 32) (d : Drupelet) : (s.setDru be d).power = s.power := rfl
@[simp] theorem setDru_clk (be : Fin 32) (d : Drupelet) : (s.setDru be d).clk = s.clk := rfl
@[simp] theorem setDru_cat (be : Fin 32) (d : Drupelet) : (s.setDru be d).cat = s.cat := rfl
@[simp] theorem setDru_integ (be : Fin 32) (d : Drupelet) : (s.setDru be d).integ = s.integ := rfl
@[simp] theorem setDru_bogie (be : Fin 32) (d : Drupelet) : (s.setDru be d).bogie = s.bogie := rfl
@[simp] theorem setDru_pair (be : Fin 32) (d : Drupelet) : (s.setDru be d).pair = s.pair := rfl
@[simp] theorem setDru_olc (be : Fin 32) (d : Drupelet) : (s.setDru be d).olc = s.olc := rfl
@[simp] theorem setDru_scan (be : Fin 32) (d : Drupelet) : (s.setDru be d).scan = s.scan := rfl
@[simp] theorem setDru_recd (be : Fin 32) (d : Drupelet) : (s.setDru be d).recd = s.recd := rfl
@[simp] theorem setDru_time (be : Fin 32) (d : Drupelet) : (s.setDru be d).time = s.time := rfl
@[simp] theorem setDru_island (be : Fin 32) (d : Drupelet) : (s.setDru be d).island = s.island := rfl
@[simp] theorem setDru_rfx (be : Fin 32) (d : Drupelet) : (s.setDru be d).rfx = s.rfx := rfl
@[simp] theorem setDru_acq (be : Fin 32) (d : Drupelet) : (s.setDru be d).acq = s.acq := rfl
@[simp] theorem setDru_ring (be : Fin 32) (d : Drupelet) : (s.setDru be d).ring = s.ring := rfl
@[simp] theorem setDru_can (be : Fin 32) (d : Drupelet) : (s.setDru be d).can = s.can := rfl
@[simp] theorem setDru_host (be : Fin 32) (d : Drupelet) : (s.setDru be d).host = s.host := rfl
@[simp] theorem setDru_dma (be : Fin 32) (d : Drupelet) : (s.setDru be d).dma = s.dma := rfl
@[simp] theorem setDru_dray (be : Fin 32) (d : Drupelet) : (s.setDru be d).dray = s.dray := rfl
@[simp] theorem setDru_bay (be : Fin 32) (d : Drupelet) : (s.setDru be d).bay = s.bay := rfl
@[simp] theorem setDru_obs (be : Fin 32) (d : Drupelet) : (s.setDru be d).obs = s.obs := rfl
@[simp] theorem setDru_wf (be : Fin 32) (d : Drupelet) : (s.setDru be d).wf = s.wf := rfl

@[simp] theorem setWin_pending (be : Fin 32) (w : Option Window) : (s.setWin be w).pending = s.pending := rfl
@[simp] theorem setWin_out (be : Fin 32) (w : Option Window) : (s.setWin be w).out = s.out := rfl
@[simp] theorem setWin_free (be : Fin 32) (w : Option Window) : (s.setWin be w).free = s.free := rfl
@[simp] theorem setWin_regs (be : Fin 32) (w : Option Window) : (s.setWin be w).regs = s.regs := rfl
@[simp] theorem setWin_act (be : Fin 32) (w : Option Window) : (s.setWin be w).act = s.act := rfl
@[simp] theorem setWin_latch (be : Fin 32) (w : Option Window) : (s.setWin be w).latch = s.latch := rfl
@[simp] theorem setWin_mem (be : Fin 32) (w : Option Window) : (s.setWin be w).mem = s.mem := rfl
@[simp] theorem setWin_conf (be : Fin 32) (w : Option Window) : (s.setWin be w).conf = s.conf := rfl
@[simp] theorem setWin_power (be : Fin 32) (w : Option Window) : (s.setWin be w).power = s.power := rfl
@[simp] theorem setWin_clk (be : Fin 32) (w : Option Window) : (s.setWin be w).clk = s.clk := rfl
@[simp] theorem setWin_cat (be : Fin 32) (w : Option Window) : (s.setWin be w).cat = s.cat := rfl
@[simp] theorem setWin_integ (be : Fin 32) (w : Option Window) : (s.setWin be w).integ = s.integ := rfl
@[simp] theorem setWin_bogie (be : Fin 32) (w : Option Window) : (s.setWin be w).bogie = s.bogie := rfl
@[simp] theorem setWin_pair (be : Fin 32) (w : Option Window) : (s.setWin be w).pair = s.pair := rfl
@[simp] theorem setWin_olc (be : Fin 32) (w : Option Window) : (s.setWin be w).olc = s.olc := rfl
@[simp] theorem setWin_scan (be : Fin 32) (w : Option Window) : (s.setWin be w).scan = s.scan := rfl
@[simp] theorem setWin_recd (be : Fin 32) (w : Option Window) : (s.setWin be w).recd = s.recd := rfl
@[simp] theorem setWin_time (be : Fin 32) (w : Option Window) : (s.setWin be w).time = s.time := rfl
@[simp] theorem setWin_island (be : Fin 32) (w : Option Window) : (s.setWin be w).island = s.island := rfl
@[simp] theorem setWin_rfx (be : Fin 32) (w : Option Window) : (s.setWin be w).rfx = s.rfx := rfl
@[simp] theorem setWin_acq (be : Fin 32) (w : Option Window) : (s.setWin be w).acq = s.acq := rfl
@[simp] theorem setWin_ring (be : Fin 32) (w : Option Window) : (s.setWin be w).ring = s.ring := rfl
@[simp] theorem setWin_can (be : Fin 32) (w : Option Window) : (s.setWin be w).can = s.can := rfl
@[simp] theorem setWin_host (be : Fin 32) (w : Option Window) : (s.setWin be w).host = s.host := rfl
@[simp] theorem setWin_dma (be : Fin 32) (w : Option Window) : (s.setWin be w).dma = s.dma := rfl
@[simp] theorem setWin_dray (be : Fin 32) (w : Option Window) : (s.setWin be w).dray = s.dray := rfl
@[simp] theorem setWin_bay (be : Fin 32) (w : Option Window) : (s.setWin be w).bay = s.bay := rfl
@[simp] theorem setWin_obs (be : Fin 32) (w : Option Window) : (s.setWin be w).obs = s.obs := rfl
@[simp] theorem setWin_wf (be : Fin 32) (w : Option Window) : (s.setWin be w).wf = s.wf := rfl

@[simp] theorem modCls_pending (k : Nat) (f : ClassRun → ClassRun) : (s.modCls k f).pending = s.pending := rfl
@[simp] theorem modCls_out (k : Nat) (f : ClassRun → ClassRun) : (s.modCls k f).out = s.out := rfl
@[simp] theorem modCls_free (k : Nat) (f : ClassRun → ClassRun) : (s.modCls k f).free = s.free := rfl
@[simp] theorem modCls_regs (k : Nat) (f : ClassRun → ClassRun) : (s.modCls k f).regs = s.regs := rfl
@[simp] theorem modCls_act (k : Nat) (f : ClassRun → ClassRun) : (s.modCls k f).act = s.act := rfl
@[simp] theorem modCls_latch (k : Nat) (f : ClassRun → ClassRun) : (s.modCls k f).latch = s.latch := rfl
@[simp] theorem modCls_mem (k : Nat) (f : ClassRun → ClassRun) : (s.modCls k f).mem = s.mem := rfl
@[simp] theorem modCls_conf (k : Nat) (f : ClassRun → ClassRun) : (s.modCls k f).conf = s.conf := rfl
@[simp] theorem modCls_power (k : Nat) (f : ClassRun → ClassRun) : (s.modCls k f).power = s.power := rfl
@[simp] theorem modCls_clk (k : Nat) (f : ClassRun → ClassRun) : (s.modCls k f).clk = s.clk := rfl
@[simp] theorem modCls_cat (k : Nat) (f : ClassRun → ClassRun) : (s.modCls k f).cat = s.cat := rfl
@[simp] theorem modCls_integ (k : Nat) (f : ClassRun → ClassRun) : (s.modCls k f).integ = s.integ := rfl
@[simp] theorem modCls_bogie (k : Nat) (f : ClassRun → ClassRun) : (s.modCls k f).bogie = s.bogie := rfl
@[simp] theorem modCls_pair (k : Nat) (f : ClassRun → ClassRun) : (s.modCls k f).pair = s.pair := rfl
@[simp] theorem modCls_olc (k : Nat) (f : ClassRun → ClassRun) : (s.modCls k f).olc = s.olc := rfl
@[simp] theorem modCls_brm (k : Nat) (f : ClassRun → ClassRun) : (s.modCls k f).brm = s.brm := rfl
@[simp] theorem modCls_recd (k : Nat) (f : ClassRun → ClassRun) : (s.modCls k f).recd = s.recd := rfl
@[simp] theorem modCls_time (k : Nat) (f : ClassRun → ClassRun) : (s.modCls k f).time = s.time := rfl
@[simp] theorem modCls_island (k : Nat) (f : ClassRun → ClassRun) : (s.modCls k f).island = s.island := rfl
@[simp] theorem modCls_rfx (k : Nat) (f : ClassRun → ClassRun) : (s.modCls k f).rfx = s.rfx := rfl
@[simp] theorem modCls_acq (k : Nat) (f : ClassRun → ClassRun) : (s.modCls k f).acq = s.acq := rfl
@[simp] theorem modCls_ring (k : Nat) (f : ClassRun → ClassRun) : (s.modCls k f).ring = s.ring := rfl
@[simp] theorem modCls_can (k : Nat) (f : ClassRun → ClassRun) : (s.modCls k f).can = s.can := rfl
@[simp] theorem modCls_host (k : Nat) (f : ClassRun → ClassRun) : (s.modCls k f).host = s.host := rfl
@[simp] theorem modCls_dma (k : Nat) (f : ClassRun → ClassRun) : (s.modCls k f).dma = s.dma := rfl
@[simp] theorem modCls_dray (k : Nat) (f : ClassRun → ClassRun) : (s.modCls k f).dray = s.dray := rfl
@[simp] theorem modCls_bay (k : Nat) (f : ClassRun → ClassRun) : (s.modCls k f).bay = s.bay := rfl
@[simp] theorem modCls_obs (k : Nat) (f : ClassRun → ClassRun) : (s.modCls k f).obs = s.obs := rfl
@[simp] theorem modCls_wf (k : Nat) (f : ClassRun → ClassRun) : (s.modCls k f).wf = s.wf := rfl

@[simp] theorem markDirty_pending (a n : Nat) : (s.markDirty a n).pending = s.pending := rfl
@[simp] theorem markDirty_out (a n : Nat) : (s.markDirty a n).out = s.out := rfl
@[simp] theorem markDirty_free (a n : Nat) : (s.markDirty a n).free = s.free := rfl
@[simp] theorem markDirty_regs (a n : Nat) : (s.markDirty a n).regs = s.regs := rfl
@[simp] theorem markDirty_act (a n : Nat) : (s.markDirty a n).act = s.act := rfl
@[simp] theorem markDirty_latch (a n : Nat) : (s.markDirty a n).latch = s.latch := rfl
@[simp] theorem markDirty_mem (a n : Nat) : (s.markDirty a n).mem = s.mem := rfl
@[simp] theorem markDirty_conf (a n : Nat) : (s.markDirty a n).conf = s.conf := rfl
@[simp] theorem markDirty_power (a n : Nat) : (s.markDirty a n).power = s.power := rfl
@[simp] theorem markDirty_clk (a n : Nat) : (s.markDirty a n).clk = s.clk := rfl
@[simp] theorem markDirty_cat (a n : Nat) : (s.markDirty a n).cat = s.cat := rfl
@[simp] theorem markDirty_integ (a n : Nat) : (s.markDirty a n).integ = s.integ := rfl
@[simp] theorem markDirty_bogie (a n : Nat) : (s.markDirty a n).bogie = s.bogie := rfl
@[simp] theorem markDirty_olc (a n : Nat) : (s.markDirty a n).olc = s.olc := rfl
@[simp] theorem markDirty_brm (a n : Nat) : (s.markDirty a n).brm = s.brm := rfl
@[simp] theorem markDirty_scan (a n : Nat) : (s.markDirty a n).scan = s.scan := rfl
@[simp] theorem markDirty_recd (a n : Nat) : (s.markDirty a n).recd = s.recd := rfl
@[simp] theorem markDirty_time (a n : Nat) : (s.markDirty a n).time = s.time := rfl
@[simp] theorem markDirty_island (a n : Nat) : (s.markDirty a n).island = s.island := rfl
@[simp] theorem markDirty_rfx (a n : Nat) : (s.markDirty a n).rfx = s.rfx := rfl
@[simp] theorem markDirty_acq (a n : Nat) : (s.markDirty a n).acq = s.acq := rfl
@[simp] theorem markDirty_ring (a n : Nat) : (s.markDirty a n).ring = s.ring := rfl
@[simp] theorem markDirty_can (a n : Nat) : (s.markDirty a n).can = s.can := rfl
@[simp] theorem markDirty_host (a n : Nat) : (s.markDirty a n).host = s.host := rfl
@[simp] theorem markDirty_dma (a n : Nat) : (s.markDirty a n).dma = s.dma := rfl
@[simp] theorem markDirty_dray (a n : Nat) : (s.markDirty a n).dray = s.dray := rfl
@[simp] theorem markDirty_bay (a n : Nat) : (s.markDirty a n).bay = s.bay := rfl
@[simp] theorem markDirty_obs (a n : Nat) : (s.markDirty a n).obs = s.obs := rfl
@[simp] theorem markDirty_wf (a n : Nat) : (s.markDirty a n).wf = s.wf := rfl

end Sys2Proof.Machine
end

