-- ==== Sys2Proof/Laws/Drupelet.lean ====
section
/-! SUPPORT. One lemma for the frame of every drupelet instruction: what it answers where its word stands before a running
window. -/

namespace Sys2Proof.Machine

/-- An instruction at its word runs its body on the state after the fetch. -/
theorem instr_atWord {be : Fin 32} {ecc : Ecc} {i : Instr} {body : State → Window → State × OpRes} {s s' : State}
    {w : Window} {x : W32} (h : AtWord be w x s s') (hd : decodeDru be ecc x = some i) :
    s.instr be ecc i body =
      match (body s' w).2 with
      | .go w' => ((body s' w).1.stepRecord w w' x false false).setWin be (some w')
      | .last w' ce => ((body s' w).1.stepRecord w w' x true false).windowEnd be w' ce
      | .exc e pc' imm a =>
        (((body s' w).1.stepRecord w (w.touch a.toNat) x false true).exception be w e pc' imm a).traceEnter be
      | .poison a => (body s' w).1.poisonExc be w a := by
  have hg : ¬(w.phase ≠ .running ∨ storeCount w ≥ 2048 ∨ (w.traced ∧ !s.obsRoom 24)) := by
    rintro (hr | hr | hr)
    · exact hr h.running
    · exact absurd h.room (by omega)
    · rcases h.traceRoom with ht | ht <;> simp_all
  have hp : ¬ w.core.pc.toNat < 0x100 := by have := h.inBank; omega
  unfold State.instr
  rw [h.window]
  simp only [hg, if_false, hp, h.fetched, hd]
  simp only [ne_eq, not_true_eq_false, if_false]
  all_goals
    rcases body s' w with ⟨s2, r⟩
    cases r <;> rfl

/-- An instruction that changes only registers completes at its word. -/
theorem computes_regOp {be : Fin 32} {i : Instr} {f g : Core → Core} (he : ∀ s, exec i s = s.regOp be i f)
    (hfg : ∀ c, nextPc (f c) = g c) : Computes be i g := by
  intro s s' w x h hd
  rw [he, State.regOp, instr_atWord h hd]
  simp only [goesOn, hfg]

end Sys2Proof.Machine
end

