-- ==== Sys2Proof/WellFormed.lean ====
section
/-!
DEFINITION. Well-formed commands: operands that an event of the row can bring. Every other operand is bounded by its type.
The meanings are total and do not ask for it; the statements about data from outside do.
-/

namespace Sys2Proof

/-- An access that fits the setup window of 128 KiB: 1, 2, 4 or 8 bytes (R5, R30). -/
def wfAccess (off size : Nat) : Bool := decide (off < 0x20000) && (size == 1 || size == 2 || size == 4 || size == 8)

/-- Blocks with a `BLOCK_APPLY` register (R477). -/
def wfApply (b : Nat) : Bool := b != 0 && b != 11 && b != 15 && b != 19

/-- Opcodes of the items that the PRIMARY forwards (R336). -/
def wfForward (op : Nat) : Bool := op == 0x05 || op == 0x06 || op == 0x0A || op == 0x0B || op == 0x0C || op == 0x0D || op == 0x1A

/-- Whether the operands of a command are ones that its event can bring. -/
def Instr.wf : Instr → Bool
  | .setupWrite _ off size _ => wfAccess off size
  | .readLoLatch _ off size => wfAccess off size
  | .blockApply _ b _ => wfApply b.val
  -- a tracked block is 256 bytes (R204), a sweep unit 4 KiB (R210)
  | .copyBlockRx _ _ data => data.length == 256
  | .blockRepairRx _ data => data.length == 256
  | .sweepUnitRx _ data => data.length == 4096
  -- a package block is 256 B to 4 MiB, a multiple of 256 (R336)
  | .pkgBlockRx _ _ data => decide (256 ≤ data.length ∧ data.length ≤ 0x400000) && data.length % 256 == 0
  | .configForwardRx _ op _ data => wfForward op && data.length % 8 == 0
  -- a CAN frame holds at most 64 bytes; a remote frame holds none (R310, Table of the parts of ISO 11898-1)
  | .canFrameRx _ _ _ remote _ data => decide (data.length ≤ 64) && (!remote || data.isEmpty)
  -- a ring or peer frame holds at most 1,500 bytes of payload (R296)
  | .ringFrameRx _ _ _ payload => decide (payload.length ≤ 1500)
  | .peerFrameRx _ _ payload => decide (payload.length ≤ 1500)
  -- host-side causes of a DMA halt (R346)
  | .dmaHalt _ cause _ _ => cause == 1 || cause == 2 || cause == 3 || cause == 4 || cause == 7
  -- a link that is up has a speed and a width of ×1 or ×2 (R353)
  | .hostLinkUp _ speed width => speed != 0 && (width == 1 || width == 2)
  -- IEEE 1588-2019: a port number of 16 bits, a log interval of 8 bits (R359)
  | .ptpSyncRx _ _ port logInt _ _ _ => decide (port < 65536 ∧ -128 ≤ logInt ∧ logInt ≤ 127)
  -- staging holds 4,096 records (R413)
  | .flushEnd lost => lost.all (fun i => decide (i < 4096))
  | _ => true

end Sys2Proof
end

