-- ==== Sys2Proof/Tests/Slice0.lean ====
section
/-! SUPPORT. Tests: words written out from the spec's encodings, ill-formed operands that the checks refuse, results of
single commands taken from the manual, and for each statement a state and operands that meet its hypotheses. -/

set_option Elab.async false

namespace Sys2Proof.Tests

open Sys2Proof.Machine

/-- What a command answers meets a test. -/
def ends (r : Res) (p : State → Bool) : Bool := match r with | .next t => p t | _ => false

/-- One CAT entry, in force and as committed, that grants every class every access below 16 GiB. -/
def granted (s : State) : State :=
  let e : List (Nat × W32) := [(R.catEnteAddr 0, 0x70000000), (R.catEnteAttr 0, 0x3FFFFFFF)]
  { s with cat := { s.cat with eff := e, committed := e } }

/-- Registers set on the state after reset, the chip powered. -/
def bare (l : List (Nat × W32)) : State :=
  let s := l.foldl (fun s e => s.wr e.1 e.2) State.reset
  { s with power := { s.power with aos := true, rails := true, ocxo := true, chip := true } }
/-- The same, with a CAT that grants. -/
def on (l : List (Nat × W32)) : State := granted (bare l)

/-- The code of a module state in `PAIR_STATUS`. -/
def role (m : ModState) : W32 := BitVec.ofNat 32 (modCode m)

/-- A small bank A: header with one chain of class F (7, at 0x100, 64 bytes of instance), a handler at 0x200 and four symbols:
1 in the instance store, 2 an input, 3 an output, 4 a constant (R73, R122, R168, R170). -/
def bankA : List Host.Cell :=
  [(0x41, 0x10), (0x44, 1), (0x49, 2), (0x51, 0x20), (0x54, 4), (0x1000, 7), (0x1002, 1), (0x1005, 1), (0x100C, 64),
    (0x2000, 1), (0x2008, 5), (0x2010, 4), (0x2015, 1), (0x2016, 3)] ++
  [(0x2020, 2), (0x2028, 5), (0x2030, 4), (0x2034, 1), (0x2035, 1), (0x2036, 3),
    (0x2040, 3), (0x2048, 5), (0x2050, 4), (0x2054, 2), (0x2055, 1), (0x2056, 3)] ++
  [(0x2060, 4), (0x2068, 5), (0x206D, 0x30), (0x2070, 4), (0x2074, 3), (0x2076, 4)]

/-- The small bank in cleared memory. -/
def withBank (s : State) : State := { s with mem := { s.mem with cleared := true, bytes := bankA } }

/-- A module that runs the scan alone. -/
def scans (m : ModState) : State :=
  let s := on [(R.pairStatus, role m)]
  { s with scan := { s.scan with run := .running } }

/-! Operands that no event of the row can bring: each check refuses one. -/

theorem wf_setup_write : Instr.wf (.setupWrite .mc 0x20000 4 0) = false ∧ Instr.wf (.setupWrite .mc 0x1FFFC 3 0) = false ∧
    Instr.wf (.setupWrite .mc 0x1FFFC 4 0) = true := by decide
theorem wf_read_lo_latch : Instr.wf (.readLoLatch .mc 0x20000 4) = false ∧ Instr.wf (.readLoLatch .mc 0 4) = true := by decide
theorem wf_block_apply : Instr.wf (.blockApply .mc 0 none) = false ∧ Instr.wf (.blockApply .mc 11 none) = false ∧
    Instr.wf (.blockApply .mc 4 none) = true := by decide
theorem wf_copy_block : Instr.wf (.copyBlockRx 0 0 [1]) = false ∧ Instr.wf (.copyBlockRx 0 0 (List.replicate 256 0)) = true := by decide +kernel
theorem wf_block_repair : Instr.wf (.blockRepairRx 0 []) = false := by decide
theorem wf_sweep_unit : Instr.wf (.sweepUnitRx 0 []) = false := by decide
theorem wf_pkg_block : Instr.wf (.pkgBlockRx 0 0 []) = false ∧ Instr.wf (.pkgBlockRx 0 0 (List.replicate 257 0)) = false ∧
    Instr.wf (.pkgBlockRx 0 0 (List.replicate 256 0)) = true := by decide +kernel
theorem wf_config_forward : Instr.wf (.configForwardRx 0 0x10 [] []) = false ∧ Instr.wf (.configForwardRx 0 5 [] [1]) = false ∧
    Instr.wf (.configForwardRx 0 5 [] []) = true := by decide
theorem wf_can_frame : Instr.wf (.canFrameRx 0 0 false true 0 [1]) = false ∧
    Instr.wf (.canFrameRx 0 0 false false 0 (List.replicate 65 0)) = false ∧ Instr.wf (.canFrameRx 0 0 false false 1 [1]) = true := by decide
theorem wf_ring_frame : Instr.wf (.ringFrameRx 0 0 true (List.replicate 1501 0)) = false := by decide +kernel
theorem wf_peer_frame : Instr.wf (.peerFrameRx 0 true (List.replicate 1501 0)) = false := by decide +kernel
theorem wf_dma_halt : Instr.wf (.dmaHalt 0 5 0 0) = false ∧ Instr.wf (.dmaHalt 0 7 0 0) = true := by decide
theorem wf_host_link_up : Instr.wf (.hostLinkUp 0 0 1) = false ∧ Instr.wf (.hostLinkUp 0 1 3) = false ∧
    Instr.wf (.hostLinkUp 0 1 2) = true := by decide
theorem wf_ptp_sync : Instr.wf (.ptpSyncRx 0 0 65536 0 0 0 false) = false ∧ Instr.wf (.ptpSyncRx 0 0 1 128 0 0 false) = false ∧
    Instr.wf (.ptpSyncRx 0 0 1 (-128) 0 0 false) = true := by decide
theorem wf_flush_end : Instr.wf (.flushEnd [4096]) = false ∧ Instr.wf (.flushEnd [4095]) = true := by decide

/-! Words written out bit by bit from the encodings of R109 to R127: the opcode in bits 31 to 26, then the fields of the
format, each in its own base. -/

-- format R: 000001 d=00001 a=00010 b=00011 P=0 0000 func
theorem test_decode_int : decodeDru 0 .clean 0b000001_00001_00010_00011_0_0000_000000 = some (.add 0 1 2 3) ∧
    decodeDru 0 .clean 0b000001_00001_00010_00011_0_0000_010100 = some (.div 0 1 2 3) ∧
    decodeDru 0 .clean 0b000001_00001_00010_00000_0_0000_011101 = some (.clz 0 1 2) ∧
    decodeDru 0 .clean 0b000001_00001_00010_00011_0_0000_011101 = none ∧
    decodeDru 0 .clean 0b000001_00001_00010_00000_0_0000_011110 = some (.popc 0 1 2) ∧
    decodeDru 0 .clean 0b000001_00001_00010_00011_0_0000_011111 = some (.sel 0 1 2 3) := by decide +kernel
-- func 5 of INT is unassigned; an all-zero word never executes (R110, R111)
theorem test_decode_illegal : decodeDru 0 .clean 0b000001_00001_00010_00011_0_0000_000101 = none ∧ decodeDru 0 .clean 0 = none := by
  decide +kernel
-- format R with P, and R4: 000011 d a b c=00100 P func
theorem test_decode_fp : decodeDru 0 .clean 0b000010_00001_00010_00011_1_0000_000010 = some (.fmul 0 1 2 3 true) ∧
    decodeDru 0 .clean 0b000010_00001_00010_00000_0_0000_000100 = some (.fsqrt 0 1 2 false) ∧
    decodeDru 0 .clean 0b000010_00001_00010_00001_0_0000_000100 = none ∧
    decodeDru 0 .clean 0b000011_00001_00010_00011_00100_1_00011 = some (.fnmsub 0 1 2 3 4 true) ∧
    decodeDru 0 .clean 0b000100_00001_00010_00000_1_0000_000100 = some (.fwiden 0 1 2 0) := by decide +kernel
-- format BF: 000101 d a pos=010101 len−1=000000 func; pos + len above 64 is illegal (R114)
theorem test_decode_bf : decodeDru 0 .clean 0b000101_00001_00010_010101_000000_0000 = some (.bextu 0 1 2 21 0) ∧
    decodeDru 0 .clean 0b000101_00001_00010_111111_000000_0010 = some (.bins 0 1 2 63 0) ∧
    decodeDru 0 .clean 0b000101_00001_00010_111111_000001_0010 = none := by decide +kernel
-- format I
theorem test_decode_imm : decodeDru 0 .clean 0b001000_00001_00010_1111111111111111 = some (.addi 0 1 2 0xFFFF) ∧
    decodeDru 0 .clean 0b001110_00001_00010_00000000_10_111111 = some (.shi 0 1 2 .sar 63) ∧
    decodeDru 0 .clean 0b001110_00001_00010_00000001_10_111111 = none ∧
    decodeDru 0 .clean 0b001111_00001_00000_0000000000000001 = some (.lui 0 1 1) ∧
    decodeDru 0 .clean 0b001111_00001_00001_0000000000000001 = none ∧
    decodeDru 0 .clean 0b010001_00000_00010_0000000000000101 = some (.ibset 0 2 5) ∧
    decodeDru 0 .clean 0b010010_00000_00010_0000000000000101 = some (.cbset 0 2 5) ∧
    decodeDru 0 .clean 0b010010_00001_00010_0000000000000101 = none := by decide +kernel
-- formats S and C: special registers, jumps, control
theorem test_decode_ctl : decodeDru 0 .clean 0b010100_00001_00000_00000000_0011_0000 = some (.mfs 0 1 0 3) ∧
    decodeDru 0 .clean 0b010100_00000_00010_00000000_0100_0001 = some (.mts 0 0 2 4) ∧
    decodeDru 0 .clean 0b010100_00000_00010_00000000_0101_0001 = none ∧
    decodeDru 0 .clean 0b010110_00000_00010_00000000_0000_0001 = some (.callr 0 2) ∧
    decodeDru 0 .clean 0b010110_00000_00000_00000000_0000_0010 = some (.ret 0 0) ∧
    decodeDru 0 .clean 0b010101_0000_000000_0000000000000000 = some (.nop 0) ∧
    decodeDru 0 .clean 0b010101_0000_000000_0000000000000001 = none ∧
    decodeDru 0 .clean 0b010101_0010_000000_0000000000000000 = some (.chend 0) ∧
    decodeDru 0 .clean 0b010101_0011_000000_0000000000000111 = some (.trap 0 7) := by decide +kernel
-- format M: opcode d base 00 disp16; format X; formats B, BB, J
theorem test_decode_mem : decodeDru 0 .corrected 0b011110_00001_100_00_0000000000000010 = some (.ldd 0 1 .scr 2 .corrected) ∧
    decodeDru 0 .clean 0b011110_00001_101_00_0000000000000010 = none ∧
    decodeDru 0 .clean 0b100011_00001_010_00_0000000000000010 = some (.std 0 1 .pbo 2) ∧
    decodeDru 0 .clean 0b101000_00001_00010_1111111111111111 = some (.ldxb 0 1 2 0xFFFF .clean) ∧
    decodeDru 0 .clean 0b110011_00001_00010_0000000000001000 = some (.stxd 0 1 2 8) ∧
    decodeDru 0 .clean 0b111000_00001_00010_1111111111111110 = some (.beq 0 1 2 0xFFFE) ∧
    decodeDru 0 .clean 0b110110_00001_111111_000000000000001 = some (.bbs 0 1 63 1) ∧
    decodeDru 0 .clean 0b111111_00000000000000000000000001 = some (.call 0 1) := by decide +kernel

/-! Drupelets. -/

/-- Chain 7 of class F, with 64 bytes of the instance store from 0. -/
def chain7 : OpenChain := { work := { chain := 7 }, desc := { chain := 7, cls := .f, entry := 0x100, instLen := 64 } }

/-- A window of drupelet 0 at PC 0x100 with its registers. -/
def winAt (c : Core) : Window := { oc := { chain7 with cp := { c with pc := 0x100 } }, core := { c with pc := 0x100 } }

/-- Drupelet 0 before the word `x`, which stands in its instruction half, in a window `w`. -/
def dru0 (s : State) (w : Window) (x : W32) : State :=
  s.setDru 0 { s.dru 0 with win := some w, lines := [(4, { tag := 4, words := [0#32 ++ x], bad := [] })] }

def regsOf (l : List (Fin 32 × W64)) : Core := l.foldl (fun c e => gSet c e.1 e.2) {}

/-- Every word can stand before a running window: what the statements about instructions ask for is met. -/
theorem witness_at_word (s : State) (x : W32) (c : Core) : AtWord 0 (winAt c) x (dru0 s (winAt c) x) (dru0 s (winAt c) x) := by
  refine ⟨by simp [dru0, State.setDru, State.dru], rfl, by simp [storeCount, winAt], .inl rfl, by simp [winAt], ?_⟩
  have e : (0#32 ++ x).extractLsb' 0 32 = x := by
    apply BitVec.eq_of_getLsbD_eq
    intro i hi
    rw [BitVec.getLsbD_extractLsb', BitVec.getLsbD_append]
    simp [hi]
  simp [State.fetch, dru0, State.setDru, State.dru, winAt, e]

/-- What drupelet 0 holds in a register after a command. -/
def g0 (i : Fin 32) (t : State) : W64 := match (t.dru 0).win with | some w => gReg w.core i | none => 0
def fl0 (t : State) : W64 := match (t.dru 0).win with | some w => w.core.fl | none => 0
def pc0 (t : State) : Nat := match (t.dru 0).win with | some w => w.core.pc.toNat | none => 0

def at0 (x : W32) (l : List (Fin 32 × W64)) : State := dru0 State.reset (winAt (regsOf l)) x
/-- A window of drupelet 0 at a PC below 0x100. -/
def lowPc : State := State.reset.setDru 0 { State.reset.dru 0 with win := some { winAt {} with core := { ({} : Core) with pc := 0xFC } } }
theorem witness_illegal : (∀ e : Ecc, decodeDru 0 e 0 = none) ∧ (winAt {}).traced = false ∧ storeCount (winAt {}) < 2048 ∧
    (decodeDru 0 .clean 0b010101_0000_000000_0000000000000000).isSome = true ∧
    ends (exec (.nop 0) (at0 0 [])) (fun t => (t.dru 0).win.isNone) = true ∧
    (lowPc.dru 0).win.any (fun w => w.phase == .running && w.core.pc.toNat < 0x100) = true := by
  refine ⟨?_, by decide +kernel, by decide +kernel, by decide +kernel, by decide +kernel, by decide +kernel⟩
  intro e; cases e <;> decide +kernel

-- boundary cases of R113: a division by zero gives 0 and sets `DZI`; −2^63 by −1 gives −2^63 and sets `IV`
theorem test_div : ends (exec (.div 0 1 2 3) (at0 0b000001_00001_00010_00011_0_0000_010100 [(2, 7), (3, 0)]))
      (fun t => g0 1 t == 0 && fl0 t == 0x20 && pc0 t == 0x104) = true ∧
    ends (exec (.div 0 1 2 3) (at0 0b000001_00001_00010_00011_0_0000_010100 [(2, 0x8000000000000000), (3, -1)]))
      (fun t => g0 1 t == 0x8000000000000000 && fl0 t == 0x40) = true := by decide +kernel
-- the remainder has the sign of Ga (R112)
theorem test_rem : ends (exec (.rem 0 1 2 3) (at0 0b000001_00001_00010_00011_0_0000_010110 [(2, -7), (3, 2)]))
    (fun t => g0 1 t == -1) = true := by decide +kernel
-- saturation sets `SAT` (R113)
theorem test_addsat : ends (exec (.addsat 0 1 2 3) (at0 0b000001_00001_00010_00011_0_0000_011011 [(2, 0x7FFFFFFFFFFFFFFF), (3, 1)]))
    (fun t => g0 1 t == 0x7FFFFFFFFFFFFFFF && fl0 t == 0x80) = true := by decide +kernel
-- G0 discards writes (R105)
theorem test_g0 : ends (exec (.addi 0 0 0 5) (at0 0b001000_00000_00000_0000000000000101 []))
    (fun t => g0 0 t == 0 && pc0 t == 0x104) = true := by decide +kernel
-- LUI: sext(imm16) × 65,536 (R111)
theorem test_lui : ends (exec (.lui 0 1 0x8000) (at0 0b001111_00001_00000_1000000000000000 []))
    (fun t => g0 1 t == 0xFFFFFFFF80000000) = true := by decide +kernel
-- a digital input at bit 21 (R114)
theorem test_bextu : ends (exec (.bextu 0 1 2 21 0) (at0 0b000101_00001_00010_010101_000000_0000 [(2, 0x200000)]))
    (fun t => g0 1 t == 1) = true := by decide +kernel
-- 1.0 + 2.0 in binary64, and the same words in binary32 with the upper half zero (R115)
theorem test_fadd : ends (exec (.fadd 0 1 2 3 true)
      (at0 0b000010_00001_00010_00011_1_0000_000000 [(2, 0x3FF0000000000000), (3, 0x4000000000000000)]))
      (fun t => g0 1 t == 0x4008000000000000 && fl0 t == 0) = true ∧
    ends (exec (.fadd 0 1 2 3 false) (at0 0b000010_00001_00010_00011_0_0000_000000 [(2, 0xFF3F800000), (3, 0x40000000)]))
      (fun t => g0 1 t == 0x40400000) = true := by decide +kernel
-- 1.0 / 3.0 rounds to nearest
theorem test_fdiv : ends (exec (.fdiv 0 1 2 3 true)
    (at0 0b000010_00001_00010_00011_1_0000_000011 [(2, 0x3FF0000000000000), (3, 0x4008000000000000)]))
    (fun t => g0 1 t == 0x3FD5555555555555) = true := by decide +kernel
-- a taken branch of −1 words to the header raises `FETCH`: the window has left the chain (R123, R132)
theorem test_branch_fetch : ends (exec (.beq 0 1 2 0xFFFF) (at0 0b111000_00001_00010_1111111111111111 []))
    (fun t => (t.dru 0).win.isNone || pc0 t != 0xFC) = true := by decide +kernel
theorem test_call : ends (exec (.call 0 4) (at0 0b111111_00000000000000000000000100 []))
    (fun t => pc0 t == 0x110 && (match (t.dru 0).win with | some w => w.core.lk == 0x104 | none => false)) = true := by decide +kernel

/-! What the statements about loads and stores ask for: chain 7 with its bases, on cleared memory behind a CAT that grants. -/

def coreB : Core := { ib := 0x02000000, pb := 0x05200000, cb := 0x00000100 }
def memS : State := granted { State.reset with mem := { State.reset.mem with cleared := true, bytes := [(0x02000001, 0x80)] } }
/-- Drupelet 0 before the word `x` there. -/
def atM (x : W32) (c : Core) : State := dru0 memS (winAt c) x

-- an aligned load within the instance range (R118, R121): LDB of the byte 0x80, zero- and sign-extended
theorem witness_load : (decodeDru 0 .clean 0b011000_00001_000_00_0000000000000001 = some (.ldb 0 1 .ib 1 .clean)) ∧
    (0x02000001 : Int) % 1 = 0 ∧ (atM 0b011000_00001_000_00_0000000000000001 coreB).inReadSet (winAt coreB) 0x02000001 1 = true ∧
    (atM 0b011000_00001_000_00_0000000000000001 coreB).mem.bad (0x02000001 / 8) = false := by decide +kernel
theorem witness_load_granted : (atM 0 coreB).catDecide clsBrm .read 0x02000001 = none :=
  by decide +kernel
-- the last byte of the range, a half word beyond it, an odd half word, a scratch doubleword nothing wrote, the page beyond
theorem witness_load_refused : (atM 0 coreB).inReadSet (winAt coreB) 0x0200003F 1 = true ∧
    (atM 0 coreB).inReadSet (winAt coreB) 0x02000040 2 = false ∧ (0x02000001 : Int) % 2 ≠ 0 ∧
    inScratch 0x04020000 8 = true ∧ (winAt coreB).valid.has ((0x04020000 - scrBase) / 8) = false ∧
    (atM 0 { coreB with pb := 0x0 }).inReadSet (winAt { coreB with pb := 0x0 }) 0x100 8 = true := by decide +kernel
theorem witness_load_cat : (dru0 State.reset (winAt coreB) 0).catDecide clsBrm .read 0x02000000 = some 1 :=
  by decide +kernel
-- a word that nothing has written since the rails rose is uncorrectable (R381)
theorem witness_load_poison : (dru0 (granted State.reset) (winAt coreB) 0).mem.bad (0x02000000 / 8) = true := by decide +kernel
-- a load whose bytes stand in the window's own buffer (R86)
theorem witness_load_buffered :
    allBuffered { winAt coreB with stores := [{ addr := 0x02000000, size := 8, data := 5 }] } 0x02000000 8 = true := by decide
-- stores: the write set, its end, and the scratch
theorem witness_store : (atM 0 coreB).inWriteSet (winAt coreB) 0x02000038 8 = true ∧
    (atM 0 coreB).inWriteSet (winAt coreB) 0x02000040 8 = false ∧ (0x02000038 : Int) % 8 = 0 := by decide +kernel
theorem witness_store_granted : (atM 0 coreB).catDecide clsBrm .write 0x02000038 = none ∧
    (dru0 State.reset (winAt coreB) 0).catDecide clsBrm .write 0x02000038 = some 1 :=
  ⟨by decide +kernel, by decide +kernel⟩

/-- Drupelet 0 with a commit in progress of two stores to one doubleword. -/
def committing : State :=
  let w := { winAt coreB with
    phase := .committing false
    stores := [{ addr := 0x02000000, size := 8, data := 0x1122 }, { addr := 0x02000000, size := 1, data := 0x33 }] }
  memS.setDru 0 { memS.dru 0 with win := some w }
theorem committing_inv : committing.Inv := by unfold State.Inv; decide +kernel
-- the youngest store of a byte is the one that stays (R86, R88)
theorem witness_commit : ends (exec (.windowCommitEnd 0 0 0) committing) (fun t => t.mem.byte 0x02000000 == 0x33 &&
    t.mem.byte 0x02000001 == 0x11 && t.rd R.brmWindowsLo == 1) = true ∧
    (∀ w, (committing.dru 0).win = some w → ∀ b ∈ w.stores, b.addr % b.size = 0 ∧ committing.mem.bad (physOf 0 b.addr / 8) = false) := by
  refine ⟨by decide +kernel, ?_⟩
  intro w hw
  obtain rfl := Option.some.inj hw.symm
  decide +kernel

-- WEND and a trap with a handler at 0x200 (R126, R131)
theorem witness_wend : ends (exec (.wend 0) (dru0 State.reset (winAt coreB) 0b010101_0001_000000_0000000000000000))
    (fun t => match (t.dru 0).win with | some w => w.phase == .committing false | none => false) = true := by decide +kernel
-- the record of the trap: code 7, PC 0x100, immediate 9; the handler at 0x200 with FL.`EXM`
theorem witness_trap : ends (exec (.trap 0 9) (dru0 (withBank State.reset) (winAt coreB) 0b010101_0011_000000_0000000000001001))
    (fun t => pc0 t == 0x200 && g0 31 t == 0x900010007 && g0 30 t == 0 && fl0 t == 0x400) = true := by decide +kernel

/-! The Bramble. -/

/-- Chain 7 waits on the F deque of drupelet 0. -/
def dealt : State :=
  let s := withBank (scans .alone)
  s.setDru 0 { s.dru 0 with deques := vset (s.dru 0).deques 1 [{ chain := 7 }] }
theorem witness_work_own : dealt.findWork 0 = some (.own { chain := 7 }) ∧ dealt.openCount < 256 ∧ dealt.scanRuns = true ∧
    dealt.chain 7 = some { chain := 7, cls := .f, entry := 0x100, instLen := 64 } ∧
    ends (exec (.workTake 0 0 0) dealt) (fun t => pc0 t == 0x100 && (t.dru 0).win.isSome &&
      vget (t.dru 0).deques 1 == [] && (match (t.dru 0).win with | some w => w.core.ib == 0x02000000 && w.core.pb == 0x05200000 | none => false)) = true := by
  decide +kernel
/-- A restart entry of cluster 0, mismatched by drupelet 1, and a yielded chain of class N. -/
def waitingS : State :=
  let s := scans .alone
  { s with brm := { s.brm with restarts := [(0, { chain7 with barred := 2 })], yielded := [{ chain7 with desc := { chain := 9, cls := .n } }] } }
-- drupelet 1 may not take the window that it mismatched itself (R93): it takes the yielded chain
theorem witness_work_waiting : waitingS.findWork 0 = some (.restart 0 { chain7 with barred := 2 }) ∧
    waitingS.findWork 1 = some (.yielded { chain7 with desc := { chain := 9, cls := .n } }) ∧ (scans .alone).findWork 0 = none ∧
    ends (exec (.workTake 0 0 0) waitingS) (fun t => t.brm.restarts == [] && t.rd R.brmRestarts == 1) = true ∧
    ends (exec (.workTake 1 0 0) waitingS) (fun t => t.brm.yielded == [] && (t.dru 1).win.isSome) = true := by decide +kernel

/-- Drupelet 0 runs a window with `n` mismatches and a disturbance. -/
def runs (s : State) (n : Nat) (upset : W64) : State := s.setDru 0 { s.dru 0 with
  win := some { winAt coreB with oc := { chain7 with mismatches := n }, upset := upset } }
theorem witness_limits : ends (exec (.windowTimeLimit 0) (runs (scans .alone) 0 0)) (fun t => match (t.dru 0).win with
      | some w => w.phase == .committing false | none => false) = true ∧
    storeCount { winAt coreB with stores := List.replicate 2048 {} } = 2048 ∧ storeCount (winAt coreB) < 2048 ∧
    (winAt coreB).phase = .running ∧ (winAt coreB).rep = none := by decide +kernel
/-- Drupelet 0 has no work of its own; chain 7 waits on drupelet `k`, or on the overflow queue. -/
def stolen (k : Option (Fin 32)) : State :=
  let s := withBank (scans .alone)
  match k with
  | some i => s.setDru i { s.dru i with deques := vset (s.dru i).deques 1 [{ chain := 7 }] }
  | none => { s with brm := { s.brm with overflow := vset s.brm.overflow 1 [{ chain := 7 }] } }
theorem witness_work_taken : (stolen none).findWork 0 = some (.overflow { chain := 7 }) ∧ (stolen (some 9)).findWork 0 = some (.steal 9 { chain := 7 }) ∧
    ends (exec (.workTake 0 0 0) (stolen none)) (fun t => t.rd R.brmStealX == 1 && vget t.brm.overflow 1 == []) = true ∧
    ends (exec (.workTake 0 0 0) (stolen (some 9))) (fun t => t.rd R.brmStealX == 1 && (t.dru 0).win.isSome) = true := by decide +kernel
theorem witness_mismatch : ends (exec (.windowTimeLimit 0) (runs (scans .alone) 0 1)) (fun t => (t.dru 0).win.isNone &&
      (t.dru 0).st == .selfTest && t.brm.restarts == [(0, { chain7 with mismatches := 1, barred := 1 })]) = true ∧
    ends (exec (.windowTimeLimit 0) (runs (scans .alone) 3 1)) (fun t => t.fbit F.brmStatus_brambleFault && t.brm.restarts == []) = true ∧
    (runs { scans .primary with bogie := { (scans .primary).bogie with pReady := true } } 3 1).mod = .primary := by decide +kernel
theorem witness_mismatch_release : ends (exec (.windowTimeLimit 0)
      (let s := runs { on [(R.pairStatus, role .primary + 0x300)] with bogie := { State.reset.bogie with pReady := true, holder := some .a } } 3 1; s))
    (fun t => !t.fbit F.pairStatus_claim && t.mod == .syncing) = true := by decide +kernel

/-- Drupelet 0 in its self-test. -/
def testing (unretire : Bool) : State := (scans .alone).setDru 0 { (scans .alone).dru 0 with st := .selfTest, unretire := unretire }
theorem witness_verdict : ends (exec (.drupeletSelftestVerdict 0 .checkerFails) (testing false)) (fun t => (t.dru 0).st == .retired &&
      (t.dru 0).verdict == 2 && (t.dru 0).verdictCore && t.fbit F.brmStatus_reserveUsed && (t.rd R.brmRetiredMask).getLsbD 0 &&
      !(t.rd R.brmAvailMask).getLsbD 0) = true ∧
    ends (exec (.drupeletSelftestVerdict 0 .bothPass) (testing true)) (fun t => (t.dru 0).st == .pending &&
      (t.rd R.brmSelftestMask).getLsbD 0) = true ∧
    ends (exec (.drupeletSelftestVerdict 0 .bothPass) (testing false)) (fun t => (t.dru 0).st == .pending &&
      t.rd R.brmTransients == 1) = true := by decide +kernel
-- the third transient within 86,400 s, and a second clean mismatch on one chain, retire a drupelet that passes (R94)
theorem witness_verdict_suspect :
    ends (exec (.drupeletSelftestVerdict 0 .bothPass) ((testing false).setDru 0 { (testing false).dru 0 with transients := [0, 0] }))
      (fun t => (t.dru 0).st == .retired && (t.dru 0).verdict == 3) = true ∧
    ends (exec (.drupeletSelftestVerdict 0 .bothPass) ((testing false).setDru 0 { (testing false).dru 0 with cleanMism := [(0, 0)] }))
      (fun t => (t.dru 0).st == .retired) = true := by decide +kernel
/-- Drupelet 31 is retired, in SERVICE. -/
def retired31 : State := let s := on [(R.pairStatus, role .service)]; s.setDru 31 { s.dru 31 with st := .retired }
theorem witness_unretire : ends (exec (.brmUnretire .host0 0x7A11001F) retired31) (fun t => (t.dru 31).st == .selfTest && (t.dru 31).unretire) = true ∧
    ends (exec (.brmUnretire .host0 0x7A110000) retired31) (fun t => t.rd 0x2010 == 1 && t.dru 0 == retired31.dru 0) = true := by decide +kernel
def withPll (p : Pll) : State := { scans .alone with clk := vset State.reset.clk 3 { pll := p } }
theorem witness_clocks : ends (exec (.clusterClockGate 3) (withPll .locked)) (fun t => (vget t.clk 3).gated) = true ∧
    ends (exec (.clusterPllPowerDown 3) (withPll .locked)) (fun t => (vget t.clk 3).pll == .down &&
      (t.dru 31).st == .clusterDown && (t.dru 23).st == .active) = true ∧
    ends (exec (.clusterPllRelockStart 3) (withPll .down)) (fun t => (vget t.clk 3).pll == .relocking) = true ∧
    ends (exec (.clusterPllLocked 3) ((withPll .relocking).setDru 24 { (withPll .relocking).dru 24 with st := .clusterDown }))
      (fun t => (vget t.clk 3).pll == .locked && (t.dru 24).st == .active) = true ∧
    ends (exec (.clusterReenter 3) (withPll .lost)) (fun t => (vget t.clk 3).pll == .held) = true ∧
    ends (exec (.clusterReenter 3) { withPll .lost with scan := State.reset.scan }) (fun t => (vget t.clk 3).pll == .locked) = true := by
  decide +kernel
theorem witness_pll_loss : ends (exec (.pllLossOfLock 0) (runs (scans .alone) 0 0)) (fun t => (t.dru 0).st == .clusterDown &&
      (t.dru 0).win.isNone && (vget t.clk 0).pll == .lost && t.brm.restarts == [(0, chain7)] && (t.dru 8).st == .active) = true := by
  decide +kernel
/-- A STANDBY that audits, with one execution of chain 7 under audit on drupelet 8. -/
def audits (first : Option (W64 × Nat)) (sig : W64) : State :=
  let s := on [(R.pairStatus, role .standby + 0x50)]
  let s := { s with brm := { s.brm with
    sigs := [{ chain := 7, cycle := 3, sig := 9, execMask := 1 }]
    audits := [{ snap := { work := { chain := 7 }, cycle := 3 }, recorded := 9, execMask := 1, place := .on 8, first := first }] } }
  s.setDru 8 { s.dru 8 with win := some { oc := chain7, core := { sig := sig }, phase := .committing true, rep := some { kind := .audit } } }
theorem witness_audit : (audits none 9).olc.carry = none ∧
    ends (exec (.auditReplicaComplete 8) (audits none 9)) (fun t => t.brm.audits == [] && t.rd R.brmAuditDone == 1 &&
      t.brm.sigs.all (·.audited) && (t.dru 8).win.isNone) = true ∧
    ends (exec (.auditReplicaComplete 8) (audits none 5)) (fun t =>
      t.brm.audits.map (fun a => (a.first, a.place)) == [(some (5, 8), .waiting)] && t.rd R.brmAuditDone == 0) = true ∧
    ends (exec (.auditReplicaComplete 8) (audits (some (5, 16)) 5))
      (fun t => t.brm.audits == [] && t.rd R.brmAuditFail == 1 && t.fbit F.brmStatus_auditAlarm &&
        t.pair.msgs.any (fun m => m.body == .auditVerdict 7 1)) = true ∧
    ends (exec (.auditReplicaComplete 8) (audits (some (5, 16)) 9))
      (fun t => t.rd R.brmAuditFail == 1 && (t.dru 16).st == .retired) = true ∧
    ends (exec (.auditReplicaComplete 8) (audits (some (5, 16)) 6))
      (fun t => t.rd R.brmAuditFail == 0 && t.rd R.brmAuditDone == 1) = true := by decide +kernel

/-! The setup window: what its statements ask for, with a CAT that grants. -/

theorem witness_granted (m : Master) : (on [(R.sysStatus, 1)]).writes m R.scanWdTol ∧ (on [(R.sysStatus, 1)]).writes m R.dioStatus ∧
    (on [(R.sysStatus, 1)]).catDecide (masterCls m) .read (0x10000000 + 0x1028) = none ∧ (on [(R.sysStatus, 1)]).writes m 0x13000 := by
  unfold State.writes
  cases m <;> decide +kernel
theorem witness_ungranted : (bare []).catDecide clsHost .write (0x10000000 + R.scanWdTol) = some 1 ∧ (bare []).masterRuns .host0 = true ∧
    (bare []).barShut .host0 R.scanWdTol = false ∧ (bare []).masterRuns .mc = false := by decide +kernel
-- RWS in and out of range, a pending group; RWL while its block runs; RO; RW; a hole
theorem witness_writes : (regRow R.scanWdTol).map (·.access) = some .rws ∧ (on []).inRange R.scanWdTol 0x191919 = true ∧
    (on []).inRange R.scanWdTol 0x1A = false ∧ ((on [(R.sysApplyPend, 2)]).rd R.sysApplyPend).getLsbD 1 = true ∧
    (regRow R.scanFPeriod).map (·.access) = some .rwl ∧ (on [(R.pairStatus, role .primary)]).locked R.scanFPeriod = true ∧
    (on [(R.pairStatus, role .config)]).locked R.scanFPeriod = false ∧ (regRow R.sysBadAccess).map (·.access) = some .ro ∧
    regW1C R.sysBadAccess = 0 ∧ regRow 0x1FFC = none ∧ (regRow 0x1028).map (·.access) = some .ro ∧ isLo 0x1028 = true ∧
    isLo 0x102C = false ∧ (regRow 0xB050).map (·.access) = some .rw := by decide +kernel
/-- A period written in STOPPED waits for the restart boundary, one in CONFIG does not (R68). -/
theorem witness_period : ends (exec (.setupWrite .host0 R.scanFPeriod 4 1000) (on [(R.pairStatus, role .stopped)])) (fun t =>
      t.rd R.scanFPeriod == 1000 && t.actv R.scanFPeriod == (on []).actv R.scanFPeriod) = true ∧
    ends (exec (.setupWrite .host0 R.scanFPeriod 4 1000) (on [(R.pairStatus, role .config)])) (fun t =>
      t.rd R.scanFPeriod == 1000 && t.actv R.scanFPeriod == 1000) = true := by decide +kernel
-- an access of another size, a TC write, and an apply, all with their counts
theorem witness_bad_shape : ends (exec (.setupWrite .host0 0x1FFFC 2 5) (on [])) (fun t => t.rd R.sysBadAccess == 1 &&
      t.out == [.errorResponse .host0 0x1FFFC]) = true ∧
    ends (exec (.setupWrite .host0 0x13002 4 5) (on [])) (fun t => t.rd R.tcIgnored == 1 && t.rd R.sysBadAccess == 0) = true ∧
    ends (exec (.setupWrite .host0 0x1FFC 4 5) (on [])) (fun t => t.rd R.sysBadAccess == 1) = true ∧
    ends (exec (.setupWrite .host0 R.scanWdTol 4 5) (bare [])) (fun t => t.rd (R.catClmFaults 6) == 1) = true ∧
    ends (exec (.tcWrite .host0 0xFFC) (on [])) (fun t => t.rd R.tcIgnored == 1) = true := by decide +kernel
theorem witness_w1c : ends (exec (.w1cClear .host0 0x40 false) (on [(R.dioStatus, 0x40)])) (fun t => t.rd R.dioStatus == 0) = true ∧
    ends (exec (.w1cClear .host0 0x40 true) (on [(R.dioStatus, 0x40)])) (fun t => t.rd R.dioStatus == 0x40) = true := by decide +kernel
-- the two host ports have a latch each (R471)
theorem witness_read_latch : ends (exec (.readLoLatch .host0 0x1028 4) (on [(0x1028, 7), (0x102C, 1)])) (fun t =>
      t.out == [.readData .host0 0x1028 7] && t.latch == [(1, 0x102C, 1)]) = true ∧
    ends (exec (.readLoLatch .host0 0x102C 4) { on [(0x102C, 2)] with latch := [(1, 0x102C, 1), (2, 0x102C, 5)] }) (fun t =>
      t.out == [.readData .host0 0x102C 1]) = true := by decide +kernel
theorem witness_apply : ends (exec (.blockApply .mc 9 (some {})) (on [(R.sysStatus, 1)])) (fun t => t.rd R.sysApplyPend == 0x200 && t.conf.ring == some {}) = true ∧
    ends (exec (.blockApply .host0 20 none) (on [(R.sysApplyPend, 0x100000)])) (fun t => t.rd 0x14010 == 1) = true ∧
    ends (exec (.blockApply .host0 18 none) (on [])) (fun t => t.rd R.sysApplyPend == 0) = true := by decide +kernel
/-- A new capture length waits in ACQ, whose engine is off. -/
def acqPending : State := on [(R.acqMaxlen, 0x1000), (R.acqStsAct 0, 1), (R.sysApplyPend, 0x100), (R.sysShadowPend, 0x100)]
theorem witness_plan : acqPending.safePoint 8 = true ∧ acqPending.agreedNow 8 = true ∧ acqPending.planRefused 8 = false ∧
    (on []).safePoint 10 = true ∧ (on []).safePoint 12 = true ∧ (on []).safePoint 13 = true ∧ (on []).safePoint 14 = true ∧
    ends (exec (.planActivation 8) acqPending) (fun t => t.actv R.acqMaxlen == 0x1000 && t.rd R.sysApplyPend == 0 &&
      t.rd R.sysShadowPend == 0 && t.rd R.acqPlanGen == 1) = true := by decide +kernel

/-! On-line change. -/

theorem witness_clear : State.reset.regsWf = true := by decide

/-- A module with a package state and role. -/
def olcS (m : ModState) (pkg : Nat) : State :=
  let s := scans m
  (s.setPkg pkg).wr R.olcLoaded 0x100
-- an empty bank is refused with code 0x01 (R172, check 2)
theorem witness_package_refused : (olcS .alone 2).pkgCheck (some {}) = some (1, 0) ∧
    ends (exec (.packageCheckDone (some {})) (olcS .alone 2)) (fun t => t.pkgState == 4 && t.rd R.olcRefuse == 1) = true ∧
    ends (exec (.packageCheckDone (some {})) (olcS .alone 3)) (fun t => t.pkgState == 3) = true := by decide +kernel
/-- A patched bank of 0x100 bytes in the inactive bank: magic, format, length, `PATCHED`. -/
def patchedIdle (s : State) : State := { s with mem := { s.mem with cleared := true, bytes :=
  [(0x1000000, 0x47), (0x1000001, 0x42), (0x1000002, 0x4E), (0x1000003, 0x4B), (0x1000004, 1), (0x1000009, 1), (0x100000C, 1)] } }
theorem witness_package_checked : (patchedIdle (olcS .alone 2)).pkgCheck (some {}) = none ∧
    ends (exec (.packageCheckDone (some {})) (patchedIdle (olcS .alone 2))) (fun t => t.pkgState == 3 && !t.fbit F.olcStatus_pairReady) = true := by
  decide +kernel
theorem witness_fresh : (on [(R.pwrStatus, 1), (R.pairStatus, role .standby)]).up = true ∧
    F.pwrStatus_cfgDone.off = R.pwrStatus := by decide +kernel
/-- A module that acts on messages, in a role with a package state. -/
def hears (m : ModState) (pkg : Nat) : State := (olcS m pkg).fset F.pwrStatus_cfgDone 1
theorem hears_fresh : (hears .standby 3).fresh 7 := by unfold State.fresh; decide +kernel
theorem witness_report (d : BitVec 128) : (hears .standby 3).fget F.olcStatus_pkgState = 3 ∧
    ¬ (false = true ∧ d = (hears .standby 3).bankDigest (hears .standby 3).idle) := by
  refine ⟨by decide +kernel, by simp⟩
theorem witness_report_good : ends (exec (.pkgCheckReportRx 7 ((hears .standby 3).bankDigest (hears .standby 3).idle) true) (hears .standby 3))
    (fun t => t.pkgState == 3 && t.fbit F.olcStatus_pairReady) = true := by decide +kernel
theorem witness_report_refused : ends (exec (.pkgCheckReportRx 7 0 false) (hears .standby 3)) (fun t => t.pkgState == 4 &&
    t.rd R.olcRefuse == 0x0D && t.pair.seen == [7]) = true := by decide +kernel
-- a block that follows 0x100 bytes is written behind them in bank B
theorem witness_pkg_block : ends (exec (.pkgBlockRx 7 0x100 (List.replicate 8 5)) (hears .standby 1)) (fun t =>
    t.mem.byte 0x1000100 == 5 && t.mem.byte 0x1000107 == 5 && t.mem.byte 0x1000108 == 0 && t.rd R.olcLoaded == 0x108) = true := by
  decide +kernel
/-- A carry-over with one saved word. -/
def carries : State := let s := olcS .alone 6
  { s with olc := { s.olc with carry := some { saved := [(0x02000000, [7])], writes := [(0x02000000, [9])] } } }
theorem carries_inv : carries.Inv := by unfold State.Inv; decide +kernel
theorem witness_carry : carries.carryBad = none ∧
    ends (exec (.carryOverComplete none) carries) (fun t => t.olc.carry.any (·.done)) = true ∧
    ends (exec (.carryOverDeadline none) carries) (fun t => t.pkgState == 5 && t.mem.byte 0x02000000 == 7 &&
      t.rd R.olcRefuse == 0x21 && t.rd R.olcFallbacks == 1) = true := by decide +kernel
/-- A new symbol in bank B whose place in the instance store nothing has written. -/
def carriesBad : State :=
  let s := olcS .alone 6
  { s with
    olc := { s.olc with carry := some {} }
    mem := { s.mem with bytes := [(0x1000051, 1), (0x1000054, 1), (0x1000100, 9), (0x1000110, 4), (0x1000115, 1)] } }
-- MC abandons a carry-over of which the CAT refuses a write (R177, R378)
theorem witness_carry_stuck : ends (exec (.carryOverComplete none) { carries with cat := {} }) (fun t => t.olc.carry.any (·.stuck) &&
    t.mem.byte 0x02000000 == 0) = true := by decide +kernel
theorem witness_carry_bad : carriesBad.carryBad = some 0x02000000 ∧
    ends (exec (.carryOverComplete none) carriesBad) (fun t => t.pkgState == 3 && t.rd R.olcRefuse == 0x20) = true := by decide +kernel
theorem witness_olc_cmds : ends (exec (.olcDiscard .host0 0x0C4A) (olcS .alone 4)) (fun t => t.pkgState == 0) = true ∧
    ends (exec (.olcDiscard .host0 0x0C4B) (olcS .alone 4)) (fun t => t.pkgState == 4 && t.rd 0x4010 == 1) = true ∧
    ends (exec (.olcSwitchRequest .host0 false 0x0C4A) (olcS .alone 3)) (fun t => t.pkgState == 5) = true ∧
    ends (exec (.olcSwitchRequest .host0 true 0x0C4A) ((olcS .primary 3).wr R.olcConflicts 1)) (fun t => t.pkgState == 5) = true ∧
    ends (exec (.olcSwitchRequest .host0 false 0x0C4A) ((olcS .primary 3).wr R.olcConflicts 1)) (fun t => t.rd 0x4010 == 1) = true ∧
    ends (exec (.olcSwitchRequest .host0 false 0x0C4A) (olcS .standby 3)) (fun t => t.rd 0x4010 == 1) = true ∧
    ends (exec (.olcCancel .host0 0x0C4A) (olcS .alone 5)) (fun t => t.pkgState == 3 && t.rd R.olcRefuse == 0x24) = true ∧
    ends (exec .switchWaitExpiry (olcS .alone 5)) (fun t => t.pkgState == 3 && t.rd R.olcRefuse == 0x22) = true := by decide +kernel


/-! The scan. -/

/-- A module that runs the scan with the token, at a step of its F-cycle; the F period is as given. -/
def cyc (m : ModState) (step : FStep) (c : ClassRun) : State :=
  let s := on [(R.pairStatus, role m ||| 0x100)]
  { s with scan := { s.scan with run := .running, step := step, cls := s.scan.cls.set 0 c } }
theorem cyc_wf : (cyc .alone .idle {}).regsWf = true ∧ (cyc .primary .copy {}).regsWf = true := by decide +kernel
theorem witness_f_boundary : (cyc .alone .idle {}).scanRuns = true ∧ (cyc .alone .idle {}).pair.takeoverEnd = none ∧
    ends (exec .fBoundary (cyc .alone .idle {})) (fun t => t.scan.step == .freeze && t.rd64 R.scanCycleLo == 1 &&
      (t.clsRun 0).running && (t.clsRun 0).frozen && (t.clsRun 0).cycle == 1) = true := by decide +kernel
-- the previous cycle is open: the boundary waits for its completion
theorem witness_f_boundary_waits : (cyc .alone .execute { running := true }).scanRuns = true ∧
    ends (exec .fBoundary (cyc .alone .execute { running := true })) (fun t => t.scan.step == .execute && (t.clsRun 0).due &&
      t.rd64 R.scanCycleLo == 0) = true := by decide +kernel
theorem witness_f_boundary_stopped : (cyc .stopped .idle {}).mod = .stopped ∧
    ends (exec .fBoundary (cyc .stopped .idle {})) (fun t => t.rd64 R.scanCycleLo == 1 && t.scan.step == .idle) = true := by
  decide +kernel
theorem witness_image : ends (exec .fImageComplete (cyc .alone .freeze { running := true, frozen := true })) (fun t =>
      t.scan.step == .execute && (t.clsRun 0).released && t.brm.openChains == []) = true ∧
    ends (exec .errorBudgetExpiry (cyc .alone .errors { running := true, frozen := true })) (fun t =>
      t.scan.step == .execute && (t.clsRun 0).released) = true := by decide +kernel
/-- An N period whose image is frozen. -/
def nFrozen : State := let s := withBank (cyc .alone .execute { running := true })
  { s with scan := { s.scan with cls := s.scan.cls.set 1 { running := true, frozen := true } } }
theorem witness_n_image : nFrozen.scanRuns = true ∧ (nFrozen.clsRun 1).frozen = true ∧ (nFrozen.clsRun 1).released = false ∧
    ends (exec (.nsImageComplete 0) nFrozen) (fun t => (t.clsRun 1).released && !(t.clsRun 1).frozen) = true := by decide +kernel

/-- The scan runs, task 0 is bound to code 0x30, and a number of events of that code and source wait. -/
def evs (n : Nat) : State := let s := cyc .alone .idle {}
  { s with conf := { s.conf with tasks := [{ codes := [0x30] }] }
           scan := { s.scan with evq := List.replicate n { code := 0x30, source := s.source 3 2 } } }
theorem witness_event : (evs 0).up = true ∧ (evs 0).bound 0x30 = true ∧
    ends (exec (.errorEventRaised 0x30 3 2 (Vector.replicate 4 9)) (evs 0)) (fun t => t.scan.evq.length == 1 &&
      t.rd R.scanEvqDepth == 1) = true ∧
    ends (exec (.errorEventRaised 0x30 3 2 (Vector.replicate 4 9)) (evs 1)) (fun t => t.scan.evq.map (·.count) == [2]) = true ∧
    ends (exec (.errorEventRaised 0x31 3 2 (Vector.replicate 4 9)) (evs 0)) (fun t => t.scan.evq == [] &&
      t.recd.raised.length == 1) = true := by decide +kernel
theorem witness_event_full : (evs 256).scan.evq.length = 256 ∧
    ends (exec (.errorEventRaised 0x30 4 2 (Vector.replicate 4 9)) (evs 256)) (fun t => t.rd R.scanEvqOvf == 1) = true := by
  decide +kernel
/-- All F chains are complete; one byte of the output half differs from the committed copy. -/
def commits : State := let s := cyc .alone .execute { running := true, complete := true }
  { s with mem := { s.mem with bytes := [(s.outBase .f, 7)] } }
theorem commits_inv : commits.Inv := by unfold State.Inv; decide +kernel
theorem witness_class_commit : commits.mod = .alone ∧ commits.token = true ∧
    ends (exec .classCommit commits) (fun t => sget (fun _ => 0) t.mem.committed (commits.outBase .f) == 7 &&
      t.scan.step == .idle && t.rd (R.scanChnCount 0) == 1 && t.out == [.publish 0 (List.replicate 8 0)]) = true := by
  decide +kernel
/-- A PRIMARY with a STANDBY partner on a working link. -/
def sealing (step : FStep) : State :=
  let s := cyc .primary step { running := true }
  let s := s.wr R.pairStatus (role .primary ||| (role .standby <<< 4) ||| 0x500)
  { s with bogie := { s.bogie with lanes := 3, pReady := true } }
theorem sealing_link : (sealing .copy).linkUp ∧ (sealing .awaitSeal).linkUp := by unfold State.linkUp; decide +kernel
theorem witness_seals : (sealing .copy).seals = true ∧ (sealing .copy).pair.refused = false ∧
    ends (exec .copyEnd (sealing .copy)) (fun t => t.scan.step == .awaitSeal && t.pair.sealPending == some 0 &&
      t.out.any (fun o => match o with | .sealRec r => r.cycle == 0 && r.blocks == 0 && !r.go | _ => false)) = true := by decide +kernel
theorem witness_seal_timeout :
    ends (exec .sealTimeout (sealing .awaitSeal)) (fun t => t.rd R.pairSealMiss == 1 && t.scan.step == .idle &&
      t.pair.unsealed == 1) = true ∧
    ends (exec .sealTimeout (let s := sealing .copy; { s with bogie := { s.bogie with lanes := 0 } })) (fun t =>
      t.rd R.pairSealMiss == 1 && t.scan.step == .idle) = true ∧
    ends (exec .sealTimeout (let s := sealing .awaitSeal; { s with pair := { s.pair with unsealed := 2 } })) (fun t =>
      t.pair.unsealed == 0 && t.out.contains .resyncDemand) = true := by decide +kernel
theorem witness_late : (cyc .alone .execute { running := true }).scanRuns = true ∧
    ends (exec (.periodLate 0) (cyc .alone .execute { running := true })) (fun t => t.rd (R.scanChnLate 0) == 1) = true ∧
    (nFrozen.periodOpen 1) = true ∧ ends (exec (.periodLate 1) nFrozen) (fun t => t.rd (R.scanChnLate 1) == 1) = true := by
  decide +kernel
theorem witness_trip : (sealing .copy).olc.carry = none ∧ (sealing .copy).partner = .standby ∧
    ends (exec (.watchdogTrip 0) (sealing .copy)) (fun t => t.mod == .stopped && t.rd R.scanTrip == 4 &&
      t.fget F.scanStatus_runstate == 2 && t.fget F.scanStatus_mbxStale == 1 &&
      t.pair.msgs.any (fun m => m.body == .tripNotice .f)) = true := by decide +kernel
/-- A module whose configuration has been accepted. -/
def configured (m : ModState) : State :=
  (on [(R.pairStatus, role m ||| 0x100)]).fset F.sysCfgStatus_done 1
theorem witness_start_requests : (configured .config).token = true ∧ (configured .config).scan.run = .notStarted ∧
    ends (exec (.scanCtrlStart .host0) (configured .config)) (·.scan.startReq) = true ∧
    ends (exec (.scanCtrlStart .host0) ((configured .config).wr R.pairStatus (role .config))) (fun t => t.rd 0x1010 == 1) = true ∧
    ends (exec (.scanRestart .host0 0x15CA7) (configured .stopped)) (fun t => t.scan.restartReq == some true) = true ∧
    ends (exec (.scanRestart .host0 0x5CA6) (configured .stopped)) (fun t => t.rd 0x1010 == 1) = true := by decide +kernel
/-- A start, and a restart, that has been accepted. -/
def begins (m : ModState) : State := let s := configured m
  { s with scan := { s.scan with startReq := true, restartReq := some false } }
theorem witness_scan_begins : (begins .config).fbit F.pwrStatus_firstSec = false ∧ (begins .stopped).partner = .off ∧
    ends (exec .restartBoundary (begins .stopped)) (fun t => t.scan.run == .running && t.mod == .alone &&
      t.rd64 R.scanCycleLo == 1 && (t.clsRun 0).running) = true ∧
    ends (exec .scanStartBoundary (begins .config)) (fun t => t.scan.run == .running && t.mod == .alone &&
      t.rd64 R.scanCycleLo == 0 && (t.clsRun 0).cycle == 0) = true := by decide +kernel
-- counters
theorem witness_counters : ends (exec (.scanClrMax .host0) (on [(R.scanChnExecMax 0, 5)])) (fun t => t.rd (R.scanChnExecMax 0) == 0) = true ∧
    ends (exec (.canClrCnt .host0) (on [(R.canRxDrop, 5)])) (fun t => t.rd R.canRxDrop == 0) = true ∧
    ends (exec (.dioClrMin .host0) (on [(R.dioLplus, 0x12345)])) (fun t => t.rd R.dioLplus == 0x23452345) = true := by decide +kernel

/-! Ship time. -/

/-- A master that announces itself in the domain of the module. -/
def ann : Announce := { src := 5, port := 1, gm := 5, prio1 := 1, cls := 6, acc := 0x21, var := 9, prio2 := 1, utc := 37, utcValid := true }
/-- PTP on port 0 in a state of the port, ship time in a state, with the master above as parent where the port is SLAVE. -/
def ptpAt (port tb : Nat) : State :=
  let s := (on [(R.timePtpCfg, 0x07808000)]).fset (F.timePpStatus_pstate 0) port
  let s := (({ s with act := s.regs }).fset F.timeStatus_tb0State tb).fset F.timeStatus_hasSlave (if port = 9 then 1 else 0)
  { s with time := { s.time with
      tb0s := 1000, tb0n := 5000, t21 := if port = 9 then some 700 else none, t3 := if port = 9 then some 100 else none
      parent := if port = 9 then some (0, ann) else none
      ptp := if port = 9 then s.time.ptp.set 0 { best := some ann } else s.time.ptp } }
theorem ptpAt_wf : (ptpAt 9 1).regsWf = true ∧ (ptpAt 9 1).fbit F.pwrStatus_firstSec = false ∧
    (ptpAt 9 1).fget (F.timePpStatus_pstate 0) = 9 ∧ ann.domain = (ptpAt 9 1).aget F.timePtpCfg_domain := by decide +kernel
theorem witness_sync : (ptpAt 9 1).time.parent = some (0, ann) ∧ ann.src = 5 ∧ ann.port = 1 ∧
    (ptpAt 9 1).time.t21 = some 700 ∧ (ptpAt 9 1).time.t3 = some 100 := by decide +kernel
theorem witness_snap : ends (exec (.timeSnap .host0) (ptpAt 4 0)) (fun t => t.rd64 R.timeSnapTb0SecLo == 1000 &&
      t.rd R.timeSnapTb0Ns == 5000) = true := by decide +kernel
theorem witness_set :
    ends (exec (.timeSet .host0 0x71DE) ((ptpAt 4 0).wr R.timeSetNs 7)) (fun t => t.tb0 == 7 && t.rd R.timeSteps == 1) = true ∧
    ends (exec (.timeSet .host0 0x71DE) (ptpAt 9 1)) (fun t => t.time.tb0n == 5000 && t.rd 0xE010 == 1) = true := by decide +kernel
theorem witness_leap : ends (exec .leapSecond (on [(R.timeUtc, 0x20025)])) (fun t => t.rd R.timeUtc == 0x26) = true ∧
    ends (exec .leapSecond (on [(R.timeUtc, 0x40025)])) (fun t => t.rd R.timeUtc == 0x24) = true := by decide +kernel
theorem witness_qualified : ends (exec .parentQualified (ptpAt 9 0)) (fun t => t.fget F.timeStatus_tb0State == 1) = true := by
  decide +kernel
theorem witness_second : ends (exec .tb3Second ((ptpAt 4 3).wr R.timeTb0Err 0)) (fun t => t.time.tb3 == 1 && t.rd R.timeHoldS == 1 &&
      t.rd R.timeTb0Err == 20) = true ∧
    ends (exec .tb3Second { ptpAt 4 3 with power := { aos := true } }) (fun t => t.time.tb3 == 1 && t.rd R.timeHoldS == 0) = true ∧
    ends (exec .tb3Second (ptpAt 4 2)) (fun t => t.time.tb3 == 1 && t.rd R.timeHoldS == 0) = true := by
  decide +kernel
-- an empty queue: one clock passes while the oscillator runs
theorem witness_tick : (ptpAt 4 0).pending = [] ∧ (ptpAt 4 0).time.stopped = false ∧ (ptpAt 4 0).power.ocxo = true ∧
    ends (step (ptpAt 4 0)) (fun t => t.time.tb1 == (ptpAt 4 0).time.tb1 + 4 && t.time.tb0n == 5004) = true ∧
    ends (step State.reset) (fun t => t.time == State.reset.time) = true := by decide +kernel
-- an offset of 2 ms and more three times in a row steps TB0 (R362); 16 offsets within 1 µs lock it
theorem witness_sync_step :
    ends (exec (.ptpSyncRx 0 5 1 0 (1000000000000 - 3000000000) 0 true)
      { ptpAt 9 1 with time := { (ptpAt 9 1).time with ovr := 2 } }) (fun t =>
        t.rd R.timeSteps == 1 && t.time.ovr == 0 && t.tb0 == 997000000312) = true := by decide +kernel
-- an offset of 12 ns or so after 15 such: what locks TB0
theorem witness_sync_lock : ((ptpAt 9 1).tb0 - ingress true - (1000000000000 + 4312) - 0 - ((ptpAt 9 1).rd R.timePathDelay).toNat).natAbs ≤ 1000 ∧
    1000 < ((ptpAt 9 1).tb0 - ingress true - (1000000000000 - 100) - 0 - ((ptpAt 9 1).rd R.timePathDelay).toNat).natAbs ∧
    { (ptpAt 9 1).time with good := 15 }.good = 15 := by decide +kernel
theorem witness_delay : ends (exec (.delayReqSend 0) (ptpAt 9 1)) (fun t => t.time.t3.isSome &&
      t.out == [.ptp 0 false .delayReq]) = true ∧
    ends (exec (.ptpDelayRespRx 0 5 1 900 0 true) (ptpAt 9 1)) (fun t => t.rd R.timePathDelay == 750) = true := by decide +kernel
theorem witness_announce : (vget (ptpAt 4 0).time.ptp 0).best = none ∧ ann.domain = (ptpAt 4 0).aget F.timePtpCfg_domain ∧
    ends (exec (.ptpAnnounceRx 0 { ann with domain := 3 } true) (ptpAt 4 0)) (fun t => t.time.parent == none) = true := by decide +kernel
theorem witness_parent_gone : ends (exec (.announceTimeout 0) (ptpAt 9 2)) (fun t => t.rd (R.timePpAnnTo 0) == 1) = true ∧
    ends (exec .syncLoss (ptpAt 9 2)) (fun t => t.time.parent == none && t.fget F.timeStatus_tb0State == 3 &&
      t.rd R.timeMasterChg == 1) = true ∧
    ends (exec .syncLoss (ptpAt 9 1)) (fun t => t.fget F.timeStatus_tb0State == 0) = true := by decide +kernel
theorem witness_master : ends (exec .ptpMasterEnable (ptpAt 4 0)) (·.power.ptpMaster) = true ∧
    ends (exec (.masterSyncSend 0 false) (ptpAt 6 0)) (fun t => t.out == [.ptp 0 false .sync,
      .ptp 0 false (.followUp 1000000005000)]) = true ∧
    ends (exec (.delayReqRx 0 8 2 true false) (ptpAt 6 0)) (fun t => t.out == [.ptp 0 true (.delayResp 1000000004452 8 2)]) = true := by
  decide +kernel

/-! The Tally Cart. -/

/-- A cartridge with CT 1 A : 100 A on feeder 0 and a pulse input of weight 250, in verification mode or metering. -/
def cart (verif : Bool) : Cartridge :=
  { serial := 77, powered := true, metering := !verif, verif := verif, timeOk := true, lineS := 9
    pars := ((Vector.replicate 64 0).set 0x10 0x80000064).set 0x20 250 |>.set 0x28 1 }
def bay (c : Cartridge) (latch : Nat) : State :=
  let s := (on []).fset F.tcBay_latchOpen latch
  { s with bay := { s.bay with cart := some c } }
theorem bay_wf : (bay (cart false) 0).regsWf = true := by decide +kernel
-- 2 kW secondary on a 100:1 CT for 125 µs are 200 kW primary: 200,000,000 / 28,800,000 = 6 mWh and a rest
theorem witness_metering : ends (exec (.meteringCompute (Vector.replicate 4 2000000) (Vector.replicate 4 (-1)) (Vector.replicate 4 2) false 250)
      (bay (cart false) 0)) (fun t => match t.bay.cart with
        | some d => vget d.energy 0 == 6 && vget d.rest 0 == 27200000 && vget d.rest 3 == 100 && vget d.rest 4 == 0
        | none => false) = true := by decide +kernel
theorem witness_pulse : ends (exec (.meteringPulse 0 false) (bay (cart false) 0)) (fun t => match t.bay.cart with
        | some d => vget d.flow 0 == 250 | none => false) = true ∧
    ends (exec (.meteringPulse 1 false) (bay (cart false) 0)) (fun t => t.bay == (bay (cart false) 0).bay) = true := by decide +kernel
theorem witness_snapshot : ends (exec (.tcSnapshot true) (bay (cart false) 0)) (fun t => t.rd R.tcSnapSeq == 1) = true ∧
    { cart false with seq := 1 }.seq.toNat % 2 = 1 := by decide +kernel
theorem witness_cart_loss : ends (exec .cartridgeSupplyLoss (bay (cart true) 0)) (fun t => match t.bay.cart with
        | some d => !d.powered && d.leaveDue && !d.verif | none => false) = true ∧
    ends (exec .timeLineTimeout (bay (cart false) 0)) (fun t => match t.bay.cart with | some d => !d.timeOk | none => false) = true ∧
    ends (exec .fitTimeLineWaitExpiry (bay { cart false with metering := false, waiting := true, fitDue := true, timeOk := false } 0))
      (fun t => match t.bay.cart with | some d => d.metering && d.log.map (·.code) == [5] | none => false) = true := by decide +kernel
theorem witness_verification : ends (exec .verificationEnter (bay (cart false) 0)) (fun t => match t.bay.cart with
        | some d => d.verif && d.log.map (·.code) == [1] | none => false) = true ∧
    ends (exec .verificationLeave (bay (cart true) 0)) (fun t => match t.bay.cart with
        | some d => !d.verif && d.log.map (·.code) == [2] | none => false) = true ∧
    ends (exec (.pwCmd 0 1) (bay (cart true) 0)) (fun t => match t.bay.cart with
        | some d => vget d.pars 0 == 1 && d.log.map (·.code) == [3] | none => false) = true ∧
    ends (exec (.pwCmd 0 2) (bay (cart true) 0)) (fun t => t.bay == (bay (cart true) 0).bay) = true := by decide +kernel
theorem witness_verification_port : ends (exec .idCmd (bay (cart false) 0)) (fun t => t.out == [.verif [77, 0, 0]]) = true ∧
    ends (exec (.prCmd 0x20) (bay (cart false) 0)) (fun t => t.out == [.verif [250]]) = true ∧
    ends (exec (.ledCmd 2) (bay (cart true) 0)) (fun t => match t.bay.cart with | some d => d.led == some 2 | none => false) = true ∧
    ends (exec (.lrCmd 0) (bay { cart true with log := [{ ops := 4, pcc := 3, code := 2, arg := 1, val := 9 }] } 0))
      (fun t => t.out == [.verif [4, 3, 2, 1, 9]]) = true := by decide +kernel
theorem witness_latch : ends (exec .latchWarning (bay (cart false) 0)) (fun t => t.fbit F.tcBay_latchOpen &&
      (match t.bay.cart with | some d => !d.metering && d.log.map (·.code) == [4] | none => false)) = true ∧
    ends (exec .cartridgeRemoved (bay (cart false) 1)) (fun t => t.bay.cart == none && t.recd.raised.length == 1) = true ∧
    (bay (cart false) 1).fbit F.tcBay_latchOpen = true := by decide +kernel
theorem witness_fit : (on []).bay.cart = none ∧ (cart false).leaveDue = false ∧ (cart false).lossDue = false ∧
    (cart false).log.length < 4096 ∧
    ends (exec (.latchClose true true) (bay (cart false) 1)) (fun t => t.bay.cart.any (fun d => d.powered && d.waiting && d.fitDue)) = true ∧
    ends (exec (.cartridgeFit (some (cart false)) true true) (on [])) (fun t =>
      t.bay.cart.any (fun d => d.powered && d.waiting && !d.metering)) = true ∧
    ends (exec (.cartridgeFit (some (cart false)) false true) (on [])) (fun t =>
      t.bay.cart.any (fun d => d.fault && d.log.map (fun r => r.code) == [6])) = true := by decide +kernel
theorem witness_legal_page : (bay (cart false) 0).bay.cart.isSome = true := by decide +kernel

/-! Power, boot, restarts, MC. -/

/-- The supply as given, the rails and the clock running, the chip held. -/
def held : State := let s := State.reset
  { s with power := { s.power with aos := true, rails := true, ocxo := true } }
theorem witness_supply : ends (exec (.supplyRise 12000 .b) State.reset) (fun t => t.power.aos && t.time.pcc == 1 && t.fbit F.pairStatus_slot) = true ∧
    ends (exec (.supplyRise 4299 .a) State.reset) (fun t => !t.power.aos) = true ∧
    ends (exec (.coreRailsGood 12000) { State.reset with power := { State.reset.power with aos := true } }) (fun t =>
      t.power.rails && t.rd R.sysResetCause == 1 && t.mem.bad (0x02000000 / 8)) = true := by decide +kernel
theorem witness_held : held.regsWf = true ∧ held.obs.traced = none ∧ held.power.waitSupply = false := by decide +kernel
-- no good firmware: the module stays in BOOT
theorem witness_boot_dead : ends (exec (.chipResetRelease { fwA := false, fwB := false }) held) (fun t => t.mod == .boot &&
      t.power.chip && t.out == [.display [0x46, 0x49, 0x52, 0x4D, 0x57, 0x41, 0x52, 0x45]]) = true := by decide +kernel
-- the first good half boots into CONFIG, and a drupelet found failed is retired
theorem witness_boot : ends (exec (.chipResetRelease { fwA := true, progB := true, fwB := false, progA := false, leadFails := 4 }) held) (fun t =>
    t.mod == .config && t.mem.cleared && t.fbit F.sysStatus_mcRun && (t.dru 2).st == .retired && (t.dru 1).st != .retired) = true := by decide +kernel
theorem witness_first_second : ends (exec (.holdupReady 14000) held) (fun t => t.fbit F.pwrStatus_holdupReady &&
      t.rd R.pwrVbank == 14000) = true ∧
    ends (exec .doorbellRelease (on [])) (·.power.doorbells) = true ∧
    ends (exec .canFirstSecondRelease (on [(R.pairStatus, role .alone ||| 0x100), (R.canChnStatus 1, 2)])) (fun t =>
      t.canState 1 == 3) = true ∧
    (on [(R.pairStatus, role .alone ||| 0x100), (R.canChnStatus 1, 2)]).canState 1 = 2 ∧
    ends (exec .firstSecondEnd ((on []).fset F.pwrStatus_firstSec 1)) (fun t => !t.fbit F.pwrStatus_firstSec) = true := by decide +kernel
theorem witness_config_check : ends (exec .configCheckDone (on [(R.pairStatus, role .config)])) (fun t => t.mod == .config &&
      t.fbit F.pwrStatus_cfgDone && t.fbit F.sysCfgStatus_done && !t.scan.startReq) = true ∧
    (on [(R.pairStatus, role .config)]).fbit F.pwrStatus_cfgDone = false ∧
    (on [(R.pairStatus, role .config)]).regsWf = true := by decide +kernel
/-- A PRIMARY with a ready partner and a charged hold-up bank. -/
def failing : State := let s := (on [(R.pairStatus, role .primary ||| 0x300)]).fset F.pwrStatus_holdupReady 1
  { s with bogie := { s.bogie with pReady := true } }
theorem witness_power_fail : ends (exec (.powerFailWarning 4400) failing) (fun t => t.pair.handover == some 3 &&
      t.fbit F.pwrStatus_pfWarn && t.rd R.pwrPfCnt == 1) = true ∧
    ends (exec (.powerFailWarning 4400) (failing.fset F.pwrStatus_holdupReady 0)) (fun t => t.pair.handover == none) = true ∧
    ends (exec (.powerFailWarning 4400) (on [(R.pairStatus, role .standby ||| 0x400)])) (fun t =>
      !t.fbit F.pairStatus_ready) = true := by decide +kernel
theorem witness_shutdown : ends (exec (.shutdownPoint 9000) (failing.fset F.pwrStatus_pfWarn 1)) (fun t => t.mod == .boot &&
      !t.power.chip && t.rd R.sysResetCause == 3 && t.fbit F.pairStatus_claim && t.power.waitSupply) = true ∧
    ends (exec (.supplyReturnRestart 12000) { held with power := { held.power with waitSupply := true } }) (fun t =>
      !t.power.waitSupply) = true ∧
    ends (exec (.holdupExhausted false) held) (fun t => !t.power.aos && t.mod == .off) = true ∧
    ends (exec (.holdupExhausted true) { held with bogie := { held.bogie with holder := some .b } }) (fun t => t.bogie.holder == some .b) = true := by
  decide +kernel
theorem witness_ocxo : ends (exec .ocxoFailure failing) (fun t => t.time.stopped && t.rd R.sysResetCause == 4) = true ∧
    ends (exec (.ocxoRecovery 5000) { held with power := { held.power with ocxo := false } }) (fun t => t.tb0 == 5000 &&
      t.time.tb1 == 5000 && t.rd R.timeSteps == 1) = true := by decide +kernel
theorem witness_restart : ends (exec (.sysRestart .host0 0x3B0F) (on [(R.pairStatus, role .standby ||| 0x400)])) (fun t =>
      t.fbit F.sysStatus_restartPend && !t.fbit F.pairStatus_ready && t.fbit F.recStatus_flushing) = true ∧
    ends (exec (.sysRestart .host0 0x3B0F) (on [(R.pairStatus, role .alone)])) (fun t => t.rd 0x0010 == 1) = true ∧
    ends (exec (.flushEnd []) (let s := (on []).fset F.recStatus_flushing 1
      { s with power := { s.power with restarting := true }, recd := { s.recd with staging := [{}] } })) (fun t =>
        t.rd R.sysResetCause == 2 && t.recd.area.length == 1) = true ∧
    ((on []).fset F.recStatus_flushing 1).fbit F.recStatus_flushing = true := by decide +kernel
theorem witness_pwr_apply : ends (exec (.pwrApply .host0) (on [])) (fun t => t.rd R.sysApplyPend == 0x200000) = true ∧
    ends (exec (.pwrApply .host0) (on [(R.sysApplyPend, 0x200000)])) (fun t => t.rd 0x15010 == 1) = true ∧
    ends (exec .pwrCfgStored { on [(R.pwrCfg, 1)] with power := { (on []).power with cfgPending := true } }) (fun t =>
      t.power.cfgStored == 1) = true := by decide +kernel
theorem witness_mc : (failing.fset F.sysStatus_mcRun 1).fbit F.sysStatus_mcRun = true ∧
    (failing.fset F.sysStatus_mcRun 1).pair.forced = [] ∧
    ends (exec .mcLockstepMismatch ((on [(R.pairStatus, role .standby ||| 0x400)]).fset F.sysStatus_mcRun 1)) (fun t =>
      !t.fbit F.sysStatus_mcRun && t.power.mcTest && !t.fbit F.pairStatus_ready && t.fget F.pairHealth_fcause == 1) = true ∧
    ends (exec .mcLockstepMismatch (failing.fset F.sysStatus_mcRun 1)) (fun t => t.pair.handover == some 6) = true := by decide +kernel
theorem witness_mc_test :
    ends (exec (.mcSelftestComplete true) { failing with power := { failing.power with mcTest := true } }) (fun t =>
      t.fbit F.sysStatus_mcRun && !t.power.mcTest) = true ∧
    ends (exec (.mcSelftestComplete false) { failing with power := { failing.power with mcTest := true }, pair := { failing.pair with forced := [(causeMcReset, true)] } })
      (fun t => t.fbit F.sysStatus_mcFailed && t.fget F.pairHealth_own == 0) = true ∧
    failing.power.mcTest = false := by decide +kernel
theorem witness_temperature : ends (exec (.chipTemperatureWarning 1060) (on [])) (fun t => t.rd R.sysTemp == 1060 &&
      t.recd.raised.length == 1) = true ∧
    ends (exec (.chipTemperatureWarning 1060) { on [] with power := { (on []).power with lastTempRec := some 0 } }) (fun t =>
      t.recd.raised == []) = true := by decide +kernel

/-! CAT entries, repair, scrubbing, background work, the recorder. -/

theorem witness_cat_entries : (on []).regsWf = true ∧ swf regReset (on []).cat.committed = true ∧
    (sget regReset (on []).cat.committed (R.catEnteAttr 5)).getLsbD 30 = false ∧
    ends (exec (.catEntAddrWrite .mc 5 0x30002000) (on [(R.sysStatus, 1)])) (fun t => t.rd (R.catEnteAddr 5) == 0x30002000) = true ∧
    ends (exec (.catEntAddrWrite .host1 5 0x30002000) (on [])) (fun t => t.rd 0xF014 == 1) = true ∧
    ends (exec (.catEntAttrWrite .mc 5 0x00C0000F) (on [(R.sysStatus, 1), (R.catEnteAddr 5, 0x30002000)])) (fun t =>
      sget regReset t.cat.committed (R.catEnteAddr 5) == 0x30002000 && sget regReset t.cat.committed (R.catEnteAttr 5) == 0x00C0000F)
      = true := by decide +kernel
-- an entry that ends beyond the address space; one that opens the CAT's page 0x1000F to the drupelets
theorem witness_cat_refused : ends (exec (.catEntAttrWrite .mc 5 0x00C00001) (on [(R.sysStatus, 1), (R.catEnteAddr 5, 0x3FFFFFFF)])) (fun t => t.rd 0xF014 == 1) = true ∧
    ends (exec (.catEntAttrWrite .mc 5 0x00400000) (on [(R.sysStatus, 1), (R.catEnteAddr 5, 0x2001000F)])) (fun t => t.rd 0xF014 == 1) = true := by
  decide +kernel
/-- Entry 5 is locked. -/
def lockedEntry : State := let s := on [(R.sysStatus, 1)]
  let e := sset regReset s.cat.committed (R.catEnteAttr 5) 0x40000000
  { s with cat := { s.cat with eff := e, committed := e } }
theorem witness_cat_locked : (sget regReset lockedEntry.cat.committed (R.catEnteAttr 5)).getLsbD 30 = true ∧
    ends (exec (.catEntAddrWrite .mc 5 0x30002000) lockedEntry) (fun t => t.rd 0xF014 == 1 && t.rd (R.catEnteAddr 5) == 0) = true ∧
    ends (exec (.catEntAttrWrite .mc 5 0x00C0000F) lockedEntry) (fun t => t.rd 0xF014 == 1 && t.cat == lockedEntry.cat) = true := by
  decide +kernel
theorem witness_barrier : ends (exec (.catBarrier .mc 7) (on [(R.sysStatus, 1)])) (fun t => t.cat.barrier == some 7 && t.fbit F.catStatus_barPend) = true ∧
    ends (exec (.catBarrier .host0 7) (on [])) (fun t => t.cat.barrier == none && t.rd 0xF014 == 1) = true ∧
    ends (exec .catBarrierComplete { on [] with cat := { (on []).cat with barrier := some 7 } }) (fun t =>
      t.rd R.catBarrierDone == 7 && t.cat.barrier == none) = true ∧ (on []).cat.barrier = none := by decide +kernel
/-- Drupelet 0 waits with its window for code block 1 of bank A. -/
def waiting : State := let s := on [(R.pairStatus, role .primary ||| 0x140)]
  let s := s.setDru 0 { s.dru 0 with win := some { (default : Window) with oc := { (default : OpenChain) with work := { (default : Work) with chain := 7 } } } }
  { s with integ := { s.integ with wanted := [(0, 1)], rewrite := [1] } }
theorem waiting_inv : waiting.Inv := by unfold State.Inv; decide +kernel
theorem witness_block : (∃ e ∈ waiting.integ.wanted, e.2 = 1) ∧ waiting.bank ≤ 1 * 256 ∧ (List.replicate 256 (5 : Byte)).length = 256 ∧
    (waiting.dru 0).win.isSome = true ∧ waiting.tracked (0x20000 * 256) = true ∧ waiting.fbit F.sysStatus_mcRun = false ∧
    swf (fun _ => false) waiting.pair.dirty = true ∧
    ends (exec (.blockRepairRx 1 (List.replicate 256 5)) waiting) (fun t => t.integ.wanted == [] && (t.dru 0).win.isNone &&
      t.mem.byte 256 == 5 && t.brm.restarts.length == 1) = true ∧
    ends (exec (.blockRepairRx 2 (List.replicate 256 5)) waiting) (fun t => t.integ.wanted == [(0, 1)]) = true ∧
    ends (exec (.repairTimeout 1) waiting) (fun t => t.integ.rewrite == [1, 1] && t.integ.wanted == [] && (t.dru 0).win.isNone) = true := by
  decide +kernel
theorem rewrites_inv : (waiting.fset F.sysStatus_mcRun 1).Inv := by unfold State.Inv; decide +kernel
theorem witness_rewrite : 1 ∈ (waiting.fset F.sysStatus_mcRun 1).integ.rewrite ∧
    ends (exec (.codeBlockRewrite 1) (waiting.fset F.sysStatus_mcRun 1)) (fun t => t.integ.rewrite == [] && !t.mem.bad 32) = true := by decide +kernel
theorem witness_dirty_request : ends (exec (.dirtyRequestRx 7 0x20000) (hears .primary 3)) (fun t => t.pair.dirty.has 0x20000 &&
      t.pair.seen == [7]) = true ∧ (hears .primary 3).mod = .primary ∧ (hears .primary 3).tracked (0x20000 * 256) = true := by
  decide +kernel
theorem hears_primary : (hears .primary 3).fresh 7 := by unfold State.fresh; decide +kernel
/-- DRAM line 0 holds a word that a scrub finds. -/
theorem witness_scrub : isDram (0x40000000 * 64) = true ∧ (on []).tracked (0x40000000 * 64) = false ∧
    ends (exec (.scrubAccess 0x40000000 (Vector.replicate 8 .clean) false true none none) (on [])) (fun t => t.rd (R.memRgrCe 7) == 0) = true ∧
    ends (exec (.scrubAccess 0x40000000 ((Vector.replicate 8 .clean).set 0 .corrected) false true none none) (on [])) (fun t =>
      t.rd (R.memRgrCe 7) == 1 && t.mem.suspect.has 0x200000000) = true ∧
    ends (exec (.scrubAccess 0x40000000 ((Vector.replicate 8 .clean).set 0 .uncorrectable) false true none none) (on [])) (fun t =>
      t.rd (R.memRgrUe 7) == 1 && t.mem.poison.has 0x200000000) = true := by decide +kernel
theorem on_inv : (on []).Inv := by unfold State.Inv; decide +kernel
theorem witness_local_scrub : (on [(R.pairStatus, role .alone)]).up = true ∧ ((on []).dru 3).st = .active ∧ ((on []).dru 3).win = none ∧
    (on []).findWork 3 = none ∧ (vget (on []).clk 0).pll = .locked ∧ ((on []).aget F.wfCfg_park).testBit 0 = false ∧
    ends (exec (.localScrubChain 3 5 (Vector.replicate 64 .clean) false false none) (on [(R.pairStatus, role .alone)])) (fun t => t.free == 1) = true := by
  decide +kernel
/-- One row waits for its fuse; the hold-up bank holds 70 mF and the supply is within range. -/
def fuses : State := let s := ((on [(R.memCfg, 1)]).fset F.sysStatus_mcRun 1).fset F.wfHoldup_total 70
  let s := s.fset F.pwrStatus_vinOk 1
  { s with act := s.regs, integ := { s.integ with repairs := [0x100] } }
theorem fuses_inv : fuses.Inv := by unfold State.Inv; decide +kernel
theorem witness_fuse : (fuses.actv R.memCfg).getLsbD 0 = true ∧ fuses.fget ⟨R.memFuse, 0, 7⟩ < 64 ∧
    ends (exec .fuseRepair fuses) (fun t => t.integ.repairs == [] && t.fget ⟨R.memFuse, 0, 7⟩ == 1 && t.fbit F.memStatus_repairPend) = true ∧
    (fuses.fset F.wfHoldup_total 50).fget F.wfHoldup_total < 60 := by
  decide +kernel
/-- A PRIMARY that copies to its STANDBY, with a bank of one page to sweep. -/
def sweeps : State := let s := sealing .copy
  { s with mem := { s.mem with bytes := [(9, 1)] } }
theorem witness_sweep : sweeps.sweepNext = some 0 ∧ sweeps.mod = .primary ∧ sweeps.partner = .standby ∧
    sweeps.pair.sweepItems.length < 16 * sweeps.aget F.pairCfg_sweepUnits := by decide +kernel
def holdup : State := let s := ((on [(R.wfCfg, 0xFFFFFFFF)]).fset F.pwrStatus_vinOk 1).fset F.sysStatus_mcRun 1
  { s with act := s.regs, wf := { s.wf with scanAt := some 0 }, time := { s.time with tb3 := 600 } }
-- 0.010 C and a drop of 500 mV are 20 mF (R401)
theorem witness_holdup : holdup.abit F.wfCfg_holdupEn = true ∧
    ends (exec (.holdupMeasurement none) holdup) (fun t => t.fbit F.wfStatus_holdupRun) = true ∧
    ends (exec (.holdupMeasurement (some (Vector.replicate 4 500000))) (holdup.fset F.wfStatus_holdupRun 1)) (fun t =>
      t.fget F.wfHoldup_total == 80 && t.fget F.wfHoldup_lowest == 20 && !t.fbit F.wfStatus_holdupRun) = true ∧
    ends (exec .holdupAbort (holdup.fset F.wfStatus_holdupRun 1)) (fun t => !t.fbit F.wfStatus_holdupRun) = true := by decide +kernel
theorem witness_migration : ends (exec (.flashMigration 0 1 3 4 0 none) holdup) (fun t => t.wf.moving == some (1, 3, 4)) = true ∧
    ends (exec (.flashMigration 1 1 3 4 0 none) { holdup with wf := { holdup.wf with moving := some (1, 3, 4) } }) (fun t =>
      t.wf.moving == none && sget (fun _ => 0) t.wf.erase 8195 == 1) = true ∧
    ends (exec (.flashMigration 2 1 3 4 0 none) { holdup with wf := { holdup.wf with moving := some (1, 3, 4) } }) (fun t =>
      t.wf.moving == none && t.wf.erase == [] && t.rd (R.wfClcPreempt 9) == 1) = true := by decide +kernel
/-- A record raised, with the count of its source in the present second. -/
def raised (n : Nat) : State := let s := on [(R.recCfg, 0x00000110)]
  { s with act := s.regs, recd := { s.recd with raised := [{ block := 2 }], rates := [{ block := 2, count := n }] } }
theorem witness_accept : (raised 0).aget F.recCfg_rate ≠ 0 ∧
    ends (exec .recordAccept (raised 0)) (fun t => t.recd.staging.length == 1 && t.rd R.recCount == 1 && t.recd.raised == []) = true ∧
    ends (exec .recordAccept (raised 4096)) (fun t => t.rd R.recSuppressed == 1) = true ∧
    ends (exec .recordAccept ((raised 0).fset F.recStatus_full 1)) (fun t => t.rd R.recRefused == 1) = true := by decide +kernel
theorem witness_staging_full : ends (exec .recordAccept { raised 0 with recd := { (raised 0).recd with
      staging := List.replicate 4096 {} } }) (fun t => t.rd R.recOvf == 1) = true := by decide +kernel
def recAt (frozen flushing : Nat) : State :=
  let s := ((on []).fset F.recStatus_frozen frozen).fset F.recStatus_flushing flushing
  { s with recd := { s.recd with staging := [{}] } }
theorem witness_recorder : ends (exec (.flushEnd [0]) (recAt 0 1)) (fun t => t.recd.area.map (·.code) == [4] && t.rd R.recLost == 1) = true ∧
    ends (exec (.recFreeze .host0 0x2EC0) (recAt 0 0)) (fun t => t.fbit F.recStatus_frozen) = true ∧
    ends (exec (.recFreeze .host0 0x2EC0) (recAt 0 1)) (fun t => t.recd.freezeReq == some .register) = true ∧
    ends (exec (.recFreeze .host0 0x2EC0) (recAt 1 0)) (fun t => t.rd 0x12010 == 1) = true ∧
    ends (exec (.recUnfreeze .host0 0x2EC0) (recAt 1 0)) (fun t => !t.fbit F.recStatus_frozen) = true ∧
    ends (exec .freezeExpired (recAt 1 0)) (fun t => t.recd.raised.map (·.code) == [7]) = true := by decide +kernel
theorem witness_rearm : ends (exec (.recRearm .host0 0x2EC0) (recAt 1 0)) (fun t => t.recd.rearming == some .register &&
      t.fbit F.recStatus_erasing) = true ∧
    ends (exec .rearmEraseDone { recAt 0 0 with recd := { (recAt 0 0).recd with rearming := some .register, area := [{}, {}] } }) (fun t =>
      t.recd.area == [] && t.recd.staging.map (·.code) == [3, 0] && t.rd R.recCount == 2 && t.fbit F.recStatus_flushing) = true ∧
    ends (exec .rearmEraseComplete ((recAt 0 0).fset F.recStatus_erasing 1)) (fun t => !t.fbit F.recStatus_erasing) = true := by
  decide +kernel

/-! The field island. -/

/-- A module in a role with the token and a powered island: channels 0 and 1 are outputs, loop 0 is enabled and calibrated. -/
def isl (m : ModState) : State :=
  let s := on [(R.pairStatus, role m ||| 0x100)]
  { s with island := { s.island with
      on := true, mst := m
      cfg := [(R.dioDir, 3), (R.aoChnCfg 0, 0x10004)]
      cmd := { s.island.cmd with dig := 1, loops := s.island.cmd.loops.set 0 10000000 } } }
theorem isl_wf : (isl .alone).regsWf = true ∧ (isl .alone).up = true ∧ (isl .alone).iget (F.aoChnCfg_en 0) = 1 := by decide +kernel
theorem witness_frame : ends (exec (.islandStatusFrame true true 24000 25000 1 0 (Vector.replicate 8 9)) (isl .alone)) (fun t =>
      t.fget ⟨R.dioLplus, 0, 16⟩ == 24000 && (t.dch 0).term && (t.lch 3).readback == 9 && t.driveL 0 == 10000000) = true := by
  decide +kernel
theorem witness_bad_frame : ends (exec (.islandStatusFrame false false 24000 25000 1 0 (Vector.replicate 8 9)) (isl .alone)) (fun t =>
      t.rd R.dioIfaceErr == 2 && t.island == (isl .alone).island) = true := by decide +kernel
theorem witness_silent : ends (exec .logicSilent (isl .alone)) (fun t => t.island.holding && t.driveD 0 == some true &&
      t.driveL 0 == 10000000) = true ∧
    ends (exec .logicSilent ((isl .standby).wr R.pairStatus (role .standby))) (fun t => t.island.silent && !t.island.holding) = true := by
  decide +kernel
/-- The chip has been silent, and the island holds. -/
def silent (m : ModState) : State := let s := isl m
  { s with island := { s.island with silent := true, holding := true } }
theorem witness_hold_expiry : ends (exec .holdExpiry (silent .alone)) (fun t => t.island.expired && t.driveD 0 == some false) = true := by
  decide +kernel
theorem witness_frames_resume : ends (exec .framesResume { silent .alone with scan := { (silent .alone).scan with pub := some default } }) (fun t =>
      !t.island.silent && !t.island.holding && t.island.cmd == default) = true ∧
    ends (exec .framesResume (silent .alone)) (fun t => !t.island.silent && t.island.cmd.dig == 1) = true := by decide +kernel
/-- Channel 5 filters over ten samples. -/
def filtered : State := { isl .alone with island := { (isl .alone).island with cfg := [(R.dioDir, 3), (R.dioChnCfg 5, 0xA), (R.aoChnCfg 0, 0x10004)] } }
-- the filter counts samples that differ; the state moves at the threshold
theorem witness_filter : (isl .alone).isOut 5 = false ∧ ((isl .alone).dch 5).input = false ∧ filtered.filtT 5 = 10 ∧
    ends (exec (.filterStateChange 5 (List.replicate 9 true)) filtered) (fun t => t.rd R.dioInState == 0 && (t.dch 5).count == 9) = true ∧
    ends (exec (.filterStateChange 5 (List.replicate 10 true)) filtered) (fun t => t.rd R.dioInState == 0x20) = true ∧
    ends (exec (.filterStateChange 0 [true]) (isl .alone)) (fun t => t.island == (isl .alone).island) = true := by decide +kernel
theorem witness_threshold : ends (exec (.inputThresholdCheck 0x20 9) ((isl .alone).setDch 5 (fun c => { c with chkBad := true }))) (fun t =>
      (t.dch 5).chkFault && !(t.dch 6).chkFault && t.rd (R.wfClcLap 5) == 9) = true := by decide +kernel
theorem witness_latch_off : ((isl .alone).driveD 0).isSome = true ∧ ((isl .alone).driveD 5).isSome = false ∧
    ends (exec (.outputLatchOff 0) (isl .alone)) (fun t => (t.dch 0).latched && t.driveD 0 == none && t.rd (R.dioChnShorts 0) == 1) = true := by
  decide +kernel
def latched : State := (isl .alone).setDch 0 (fun c => { c with latched := true })
theorem witness_retry : (latched.wantD (latched.lead 0)).getD false = true ∧
    ends (exec (.outputRetry 0 false) latched) (fun t => !(t.dch 0).latched && t.rd (R.dioChnRetries 0) == 1) = true ∧
    ends (exec (.outputRetry 0 true) latched) (fun t => (t.dch 0).latched && t.rd (R.dioChnRetries 0) == 1) = true := by decide +kernel
theorem witness_readback : ends (exec (.readbackFaultSet 1) (isl .alone)) (fun t => (t.dch 1).rbFault && t.fbit F.dioStatus_rbFaultAny) = true ∧
    ends (exec (.readbackFaultClear 1) ((isl .alone).setDch 1 (fun c => { c with rbFault := true }))) (fun t => !(t.dch 1).rbFault) = true := by
  decide +kernel
theorem witness_warning : ends (exec (.lplusWarning 19199) (isl .alone)) (fun t => t.island.warn && t.rd R.dioSupplyCnt == 1) = true ∧
    ends (exec (.lplusWarning 19200) (isl .alone)) (fun t => !t.island.warn) = true ∧
    ends (exec (.lplusWarningClear 19601) { isl .alone with island := { (isl .alone).island with warn := true } }) (fun t => !t.island.warn) = true := by
  decide +kernel
theorem witness_outputs_off : ends (exec (.outputsOff 14999) (isl .alone)) (fun t => t.island.off && t.driveD 0 == none &&
      t.rd R.dioSupplyCnt == 0x10000) = true := by decide +kernel
def isoff (seen : Bool) : State := { isl .alone with island := { (isl .alone).island with off := true, cmdSeen := seen, silent := !seen } }
theorem witness_recovery : ends (exec (.supplyRecovery 18001) (isoff true)) (fun t => t.driveD 0 == some true) = true ∧
    ends (exec (.supplyRecovery 18001) (isoff false)) (fun t => t.driveD 0 == some false) = true := by decide +kernel
theorem witness_island_power : ends (exec (.islandPowerDown 10999) (isl .alone)) (fun t => !t.island.on && t.driveD 0 == none) = true := by
  decide +kernel
theorem witness_island_start : ends (exec (.islandStart 13001) { on [(R.pairStatus, role .alone)] with act := [(R.dioDir, 7)] }) (fun t => t.island.on && t.island.off && t.isOut 2 && !t.isOut 3) = true ∧
    swf regReset (on []).island.cfg = true := by decide +kernel
theorem witness_compliance : ends (exec (.complianceSet 0 9000000) (isl .alone)) (fun t => (t.lch 0).compliance && !(t.lch 0).openLoop) = true ∧
    ends (exec (.complianceClear 0 9980000) ((isl .alone).setLch 0 (fun c => { c with compliance := true }))) (fun t => !(t.lch 0).compliance) = true := by
  decide +kernel
theorem witness_main_path : (isl .alone).supervised 0 = true ∧ 160000 < (isl .alone).loopMiss 0 9000000 ∧
    ends (exec (.mainPathFailure 0 9000000) (isl .alone)) (fun t => (t.lch 0).fallback && t.driveL 0 == 10000000) = true ∧
    ends (exec (.loopReadbackFault 0 9000000) ((isl .alone).setLch 0 (fun c => { c with fallback := true }))) (fun t =>
      (t.lch 0).rbFault && t.driveL 0 == 0) = true := by decide +kernel
-- a trim moves by at most 11 LSB in a lap (R260)
-- a trim moves by at most 11 LSB in a lap; pairs within less than 4 mA move both trims alike; a readback 9 µA off is corrected (R260)
theorem witness_calibration : (isl .alone).iget (F.aoChnCfg_calEn 0) = 1 ∧ trimStep 0 0 100 = some 11 ∧ trimStep 0 870 900 = none ∧
    ends (exec (.loopCalibration (Vector.replicate 8 0) (Vector.replicate 8 (some (4000000, 100, -100))) 3) (isl .alone)) (fun t =>
      t.rd (R.aoChnTrimLo 0) == 11 && t.rd (R.aoChnTrimHi 0) == 0xFFF5) = true ∧
    ends (exec (.loopCalibration ((Vector.replicate 8 0).set 0 9000) (Vector.replicate 8 (some (3999999, 5, -100))) 3) (isl .alone)) (fun t =>
      t.rd (R.aoChnTrimLo 0) == 5 && t.rd (R.aoChnTrimHi 0) == 5 && (t.lch 0).rbAdj == -9000) = true ∧
    ends (exec (.loopCalibration ((Vector.replicate 8 0).set 0 (-40001)) (Vector.replicate 8 none) 3) (isl .alone)) (fun t =>
      (t.lch 0).rbFault && t.driveL 0 == 0) = true := by decide +kernel
theorem witness_retest : ends (exec (.aoRetest .host0 1) ((isl .alone).setLch 0 (fun c => { c with fallback := true }))) (fun t => !(t.lch 0).fallback) = true := by
  decide +kernel

/-! The reflex plane. -/

/-- An armed plane with engines 0, 1, 2 in the slots and 3 as spare, which runs `LD I5; ST Q0`. -/
def rfx (pass : Option RPass) : State :=
  let s := (on [(R.pairStatus, role .alone ||| 0x100), (R.rfxSlots, 0x3210), (R.rfxArmIrise, 0x20)]).fset F.rfxStatus_armed 1
  { s with
    act := [(R.rfxArmIrise, 0x20)]
    mem := { s.mem with cleared := true, bytes := [0, 1, 2, 3].flatMap (fun e => let a := rfxSlotBase e 0
      [(a + 8, 2), (a + 0x440, 5), (a + 0x441, 0x10), (a + 0x443, 0x86)]) }
    rfx := { s.rfx with pass := pass, counting := true }
    island := { s.island with on := true, rfxStop := false, mst := .alone, cfg := [(R.rfxOutBind, 1), (R.dioDir, 1)]
                              ch := s.island.ch.set 5 { s.dch 5 with input := true } } }
theorem rfx_wf : (rfx none).regsWf = true ∧ (rfx none).rfxRuns = true ∧ (rfx none).rfx.joining = [] := by decide +kernel
theorem witness_frame_pass : ends (exec .reflexFrameBoundary (rfx none)) (fun t => t.frameNo == 1 && match t.rfx.pass with
      | some p => !p.event && p.frame == 1 && p.bad == 0 && (vget p.img 2).q == 1 | none => false) = true := by decide +kernel
theorem witness_frame_waits : ends (exec .reflexFrameBoundary (rfx (some default))) (fun t => t.rfx.framePend &&
      t.rfx.pass == some default) = true := by decide +kernel
theorem witness_event_pass : ends (exec (.armedEventDispatch 0x21 0 0 0) (rfx none)) (fun t => match t.rfx.pass with
      | some p => p.event && (vget p.img 0).q == 1 | none => false) = true ∧
    ends (exec (.armedEventDispatch 0x1 0 0 0) (rfx none)) (fun t => t.rfx.pass == none) = true := by decide +kernel
theorem witness_event_aborts : (default : RPass).event = false ∧
    ends (exec (.armedEventDispatch 0x20 0 0 0) (rfx (some default))) (fun t => t.rd R.rfxAborts == 1) = true ∧
    ends (exec (.armedEventDispatch 0x20 0 0 0) (rfx (some { (default : RPass) with event := true }))) (fun t => t.rd R.rfxWaits == 1 &&
      t.rfx.evPend) = true := by decide +kernel
/-- A pass that sets Q0 is about to commit. -/
def passEnds : State := rfx (some { (default : RPass) with img := Vector.replicate 4 { (default : RImage) with q := 1 } })
theorem passEnds_inv : passEnds.Inv := by unfold State.Inv; decide +kernel
theorem witness_pass_commit : ends (exec (.passCommit (Vector.replicate 4 none) 0) passEnds) (fun t =>
      t.rfx.pass == none && t.rd64 R.rfxPassesLo == 1 && t.driveD 0 == some true && t.enState 0 == 0) = true ∧
    ends (exec (.passCommit (Vector.replicate 4 none) 0) (rfx none)) (fun t => t.rfx == (rfx none).rfx) = true := by decide +kernel
/-- Images that engines 0 and 1 may come to. -/
def upset (a b : Option RImage) : Vector (Option RImage) 4 := ((Vector.replicate 4 none).set 0 a).set 1 b
-- slot 0 differs from two that agree, then no two agree
-- slot 0 differs from two that agree, then no two agree; a commit beyond the bound is odd as well
theorem witness_odd : ends (exec (.passCommit (upset (some default) none) 0) passEnds) (fun t =>
      t.enState 0 == 2 && t.rfxSlot 0 == 7 && t.rfxSlot 1 == 1 && t.rd (R.rfxEnmDisagree 0) == 1 && t.driveD 0 == some true) = true ∧
    ends (exec (.passCommit (Vector.replicate 4 none) 1) passEnds) (fun t => t.enState 0 == 2 && t.rfxSlot 0 == 7) = true ∧
    ends (exec (.passCommit (upset (some default) (some { (default : RImage) with q := 2 })) 0) passEnds) (fun t =>
      t.fbit F.rfxStatus_noMajority && t.rfxSlot 0 == 0) = true := by decide +kernel
theorem witness_placed : passEnds.rfxSlot 0 = 0 ∧ passEnds.rfxSlot 1 = 1 ∧ passEnds.rfxSlot 2 = 2 ∧ passEnds.rfxSlot 3 = 3 := by
  decide +kernel
theorem witness_spare : ends (exec .reflexFrameBoundary ((rfx none).wr R.rfxSlots 0x3271)) (fun t => t.rfxSlot 1 == 3 &&
      t.rfxSlot 3 == 7 && t.rd R.rfxReplace == 1) = true := by decide +kernel
def selftest : State := ((rfx none).wr R.rfxSlots 0x7210).fset (F.rfxEnmState_state 3) 2
theorem selftest_inv : selftest.Inv := by unfold State.Inv; decide +kernel
theorem witness_engine_verdict : ends (exec (.reflexSelftestVerdict 3 false) selftest) (fun t => t.enState 3 == 3 &&
      t.fget (F.rfxEnmState_verdict 3) == 2) = true ∧
    ends (exec (.reflexSelftestVerdict 3 true) { selftest with rfx := { selftest.rfx with trans := Vector.replicate 4 [0, 0] } }) (fun t =>
      t.enState 3 == 3 && t.fget (F.rfxEnmState_verdict 3) == 3) = true := by decide +kernel
/-- Engine 3 passes its self-test while an image of 16 words waits in the other bank. -/
def joins (pend : Nat) : State := let s := selftest.fset F.rfxStatus_exchPend pend
  { s with mem := { s.mem with bytes := [(0x69, 0x30), (0x3000, 9), (0x1000069, 0x30), (0x1003000, 8)] ++ s.mem.bytes } }
theorem joins_inv : (joins 0).Inv ∧ (joins 1).Inv := by unfold State.Inv; decide +kernel
theorem witness_engine_joins : (joins 1).hRfxImg (joins 1).bank ≠ 0 ∧ (joins 1).hRfxImg (joins 1).idle ≠ 0 ∧
    (joins 1).idle + (joins 1).hRfxImg (joins 1).idle + 0x2000 ≤ 0x04800000 ∧
    ends (exec (.reflexSelftestVerdict 3 true) (joins 0)) (fun t => t.rfx.joining == [3] && t.mem.byte (rfxSlotBase 3 0) == 9 &&
      t.mem.byte (rfxSlotBase 3 1) == 0) = true ∧
    ends (exec (.reflexSelftestVerdict 3 true) (joins 1)) (fun t => t.mem.byte (rfxSlotBase 3 0) == 9 &&
      t.mem.byte (rfxSlotBase 3 1) == 8) = true ∧
    (selftest.fset (F.rfxEnmState_state 3) 1).enState 3 ≠ 2 := by decide +kernel
def service (armed : Nat) : State := ((rfx none).fset F.rfxStatus_armed armed).wr R.pairStatus (role .service ||| 0x100)
theorem witness_arm : ends (exec (.rfxArm .host0) (service 0)) (fun t => t.fbit F.rfxStatus_armed && t.fbit F.rfxStatus_mbxStale) = true ∧
    ends (exec (.rfxArm .host0) (service 1)) (fun t => t.rd 0x3010 == 1) = true ∧
    ends (exec (.rfxDisarm .host0) (service 0)) (fun t => t.rd 0x3010 == 1) = true ∧
    ends (exec (.rfxDisarm .host0) (service 1)) (fun t => !t.fbit F.rfxStatus_armed && t.isRfx 0 && t.commandD 0 == t.safeD 0) = true ∧
    ends (exec (.rfxUnretire .host0 0x5EF10003) ((service 1).fset (F.rfxEnmState_state 3) 3)) (fun t => t.enState 3 == 2) = true ∧
    ends (exec (.rfxUnretire .host0 0x5EF10003) (service 1)) (fun t => t.rd 0x3010 == 1) = true := by decide +kernel
theorem witness_stale : ends (exec .mailboxStaleTimeout (on [(R.pairStatus, role .standby)])) (fun t => t.fbit F.rfxStatus_mbxStale) = true := by
  decide +kernel
theorem witness_scan_code : rfxScan 1 0 0 0 0 [0x1005, 0xD000, 0x8600, 0xD100] = .inr 1 ∧
    rfxScan 1 0 0 0 0 [0x1005, 0x8601] = .inl 1 ∧ rfxScan 1 0 0 0 0 [0xD100] = .inl 0 := by decide +kernel

/-! The redundant pair. -/

/-- A configured module of slot A in a role, with bits of `PAIR_STATUS` and a holder of the token, on a link of two lanes. -/
def pair (m : ModState) (bits : W32) (h : Option Slot) : State :=
  let s := (on [(R.pairStatus, role m ||| bits)]).fset F.pwrStatus_cfgDone 1
  { s with bogie := { s.bogie with holder := h, lanes := 3 } }
theorem pair_wf : (pair .primary 0x300 (some .a)).regsWf = true ∧ (pair .primary 0x300 (some .a)).slot = .a ∧
    (pair .primary 0x300 (some .a)).olc.carry = none := by decide +kernel
theorem pair_link : (pair .primary 0x300 (some .a)).linkUp ∧ (pair .standby 0 none).linkUp := by unfold State.linkUp; decide +kernel
theorem pair_fresh : (pair .primary 0x300 (some .a)).fresh 7 ∧ (pair .standby 0 none).fresh 7 := by unfold State.fresh; decide +kernel
theorem witness_claim : ends (exec (.claimAssert .a false false) (pair .config 0x200 none)) (fun t => t.token && t.bogie.holder == some .a) = true ∧
    ends (exec (.claimAssert .a false true) (pair .standby 0x600 (some .b))) (fun t => t.bogie.rising == some .a && !t.token) = true ∧
    ends (exec (.claimAssert .a false false) (pair .standby 0x600 (some .b))) (fun t => t.rd R.pairClaimRef == 1 && t.mod == .syncing) = true ∧
    ends (exec (.claimAssert .a true false) (pair .config 0x200 none)) (fun t => t.token) = true ∧
    ends (exec (.claimAssert .b false false) (pair .config 0 none)) (fun t => t.bogie.holder == some .b && t.bogie.pClaim) = true := by decide +kernel
-- the loser of a race, in slot B
theorem witness_race : ends (exec (.claimAssert .b true false) (pair .config 0xA00 none)) (fun t => !t.token && t.bogie.holder == some .a) = true := by
  decide +kernel
def ready (s : State) : State := { s with bogie := { s.bogie with pReady := true } }
theorem witness_drop : ends (exec (.claimDrop .a) (ready (pair .primary 0x300 (some .a)))) (fun t => !t.token &&
      t.bogie.rising == some .b && t.mod == .syncing) = true ∧
    ends (exec (.claimDrop .a) (pair .config 0x300 (some .a))) (fun t => t.bogie.holder == none) = true ∧
    ends (exec (.claimDrop .a) (pair .config 0x200 none)) (fun t => !t.fbit F.pairStatus_claim) = true ∧
    ends (exec (.claimDrop .b) (pair .standby 0x400 (some .b))) (fun t => t.bogie.rising == some .a) = true ∧
    ends (exec (.claimDrop .b) (pair .config 0 (some .b))) (fun t => t.bogie.holder == none) = true := by decide +kernel
def armed (s : State) : State := let s := s.fset F.rfxStatus_armed 1
  { s with island := { s.island with on := true } }
theorem witness_silence : ends (exec (.rfxSilent .b) (pair .standby 0x400 (some .b))) (fun t => t.pair.incoming == 2 && t.bogie.rising == some .a) = true ∧
    ends (exec (.rfxSilent .a) (armed (ready (pair .primary 0x300 (some .a))))) (fun t => t.bogie.rising == some .b) = true ∧
    ends (exec (.rfxSilent .a) (armed (pair .primary 0x300 (some .a)))) (fun t => t.token && t.bogie.rfxSilent) = true ∧
    ends (exec (.connectorParts .a) (pair .alone 0x300 (some .a))) (fun t => !t.token && t.bogie.lanes == 0) = true ∧
    ends (exec (.connectorParts .b) (pair .standby 0x400 (some .b))) (fun t => t.bogie.rising == some .a && t.pair.incoming == 1 &&
      t.bogie.lanes == 0) = true ∧
    ends (exec (.connectorParts .b) (pair .alone 0x300 (some .a))) (fun t => t.token && t.bogie.lanes == 0) = true := by decide +kernel
def rising (into : Bool) : State := let s := pair .standby 0x400 (some .a)
  { s with bogie := { s.bogie with rising := some .a }, pair := { s.pair with handoverIn := into, incoming := if into then 3 else 2 } }
theorem witness_rising : (rising true).regsWf = true ∧ (rising true).bogie.rising = some (rising true).slot ∧ (rising true).mod = .standby ∧
    (rising true).pair.handoverIn = true ∧ (rising false).pair.handoverIn = false ∧ (rising false).pair.incoming = 2 ∧
    (rising true).pair.incoming ≠ 2 ∧ (pair .standby 0x400 (some .a)).bogie.rising = none := by decide +kernel
/-- The token is passing to the partner while the loops of this module are still driven. -/
def passes (ramp : LoopRamp) : State := let s := pair .syncing 0 (some .b)
  { s with bogie := { s.bogie with rising := some .b, ramp := ramp } }
/-- A module that has taken over, before and after the boundary of the first unsealed cycle, number 11. -/
def takesOver (now : W64) : State := let s := pair .primary 0x300 (some .a)
  let s := s.wr R.scanCycleLo 10
  { s with time := { s.time with tb1 := now }
           pair := { s.pair with takeover := true, lastSeal := { s.pair.lastSeal with cycle := 10 } } }
theorem witness_takeover : (takesOver 0).takeoverPlan = none ∧ (takesOver 1000000000).takeoverPlan.isSome = true ∧ (takesOver 0).mod = .primary := by
  decide +kernel
theorem witness_ramp : ends (exec (.tokenRise (Vector.replicate 2 0)) (passes .driving)) (fun t => t.bogie.ramp == .down && t.bogie.rising == none &&
      !t.token) = true ∧
    ends (exec .loopRampEnd (passes .down)) (fun t => t.bogie.ramp == .steady) = true ∧
    ends (exec .loopRampEnd (passes .up)) (fun t => t.bogie.ramp == .steady) = true := by decide +kernel
theorem witness_island_link : ends (exec (.islandLinkFrameRx 5 (Vector.replicate 8 9)) (armed (pair .standby 0 none))) (fun t =>
      t.island.mirror == 5) = true ∧
    ends (exec .islandLinkFault (pair .standby 0 none)) (fun t => t.bogie.linkFault && t.fbit F.pairStatus_islLink) = true ∧
    ends (exec .islandLinkReturn { on [] with bogie := { (on []).bogie with linkFault := true } }) (fun t => !t.bogie.linkFault) = true := by
  decide +kernel
theorem witness_levers : ends (exec (.leverOpen true) (ready (pair .primary 0x300 (some .a)))) (fun t => t.pair.handover == some 4) = true ∧
    ends (exec (.leverOpen false) (ready (pair .primary 0x300 (some .a)))) (fun t => !t.bogie.pReady && t.fbit F.pairStatus_pLever) = true ∧
    ends (exec (.leverClose true) (pair .standby 0x4000 none)) (fun t => t.fbit F.pairStatus_ready && !t.fbit F.pairStatus_lever) = true ∧
    ends (exec (.leverClose false) (pair .standby 0x8000 none)) (fun t => !t.fbit F.pairStatus_pLever) = true := by decide +kernel
/-- Message 4 waits for its acknowledgement. -/
def telling (s : State) : State := { s with pair := { s.pair with msgs := [{ id := 4, body := .handoverRequest }] } }
theorem witness_drawbar : ends (exec (.drawbarLaneLoss 0) (pair .primary 0x300 (some .a))) (fun t => t.bogie.lanes == 2 && t.bogie.retrain &&
      t.fget F.pairStatus_lanes == 1) = true ∧
    ends (exec (.drawbarLaneReturn 2) (telling (pair .primary 0x300 (some .a)))) (fun t => t.bogie.lanes == 7 && t.out == []) = true ∧
    ends (exec .drawbarRetrainDone (let s := telling (pair .primary 0x300 (some .a)); { s with bogie := { s.bogie with retrain := true } })) (fun t =>
      t.out == [.handoverRequest]) = true ∧
    ends (exec (.drawbarMsgRepeat 4) (telling (pair .primary 0x300 (some .a)))) (fun t => t.out == [.handoverRequest]) = true ∧
    ends (exec (.drawbarAckRx 4) (telling (pair .primary 0x300 (some .a)))) (fun t => t.pair.msgs == []) = true := by decide +kernel
-- a message acted on before is only acknowledged again; before CFG_DONE it is ignored and counted
theorem witness_seen : ends (exec (.handoverRequestRx 7) (let s := pair .primary 0x300 (some .a); { s with pair := { s.pair with seen := [7] } }))
      (fun t => t.out == [.drawbarAck 7]) = true ∧
    ends (exec (.handoverRequestRx 7) (on [(R.pairStatus, role .config)])) (fun t => t.rd 0x5010 == 1) = true := by decide +kernel
theorem witness_heartbeat : (pair .standby 0 none).leftPair = false ∧
    ends (exec .heartbeatSend (pair .standby 0 none)) (fun t => t.bogie.alive && t.out.length == 1) = true ∧
    ends (exec (.heartbeatRx (some { state := .primary, score := 900, scanTime := 5 }) true) (pair .standby 0 none)) (fun t =>
      t.partner == .primary && t.fget F.pairHealth_partner == 900 && t.scanTime == 5) = true ∧
    ends (exec (.heartbeatRx (some { state := .syncing, score := 900 }) false) (pair .alone 0x300 (some .a))) (fun t => t.mod == .primary) = true := by
  decide +kernel
theorem witness_path : ends (exec (.pathSilent true) (pair .primary 0x3300 (some .a))) (fun t => t.mod == .primary && t.rd R.pairHbMiss == 1) = true ∧
    ends (exec (.pathSilent true) (pair .primary 0x1340 (some .a))) (fun t => t.mod == .alone && t.partner == .off) = true ∧
    ends (exec (.pathSilent false) (pair .standby 0x2050 none)) (fun t => t.fbit F.pairStatus_claim) = true := by decide +kernel
theorem witness_role : ends (exec .roleDecision (pair .config 0x1050 none)) (fun t => t.mod == .syncing && t.pair.msgs.length == 1) = true ∧
    ends (exec .roleDecision (pair .config 0x1080 none)) (fun t => t.power.roleOpen) = true ∧
    ends (exec .roleDecision (pair .config 0 none)) (fun t => t.fbit F.pairStatus_claim) = true := by decide +kernel
theorem witness_trip_notice : ends (exec (.tripNoticeRx 7 .f) (pair .standby 0x450 none)) (fun t => t.mod == .stopped &&
      t.fbit F.pairStatus_ready && t.fget F.scanStatus_runstate == 2) = true := by decide +kernel
theorem witness_switch : ends (exec (.handoverRequestRx 7) (ready (pair .primary 0x300 (some .a)))) (fun t => t.pair.handover == some 5) = true ∧
    ends (exec (.pairCtrlSwitch .host0 0x5A17) (ready (pair .primary 0x300 (some .a)))) (fun t => t.pair.handover == some 3) = true ∧
    ends (exec (.pairCtrlSwitch .host0 0x5A17) (pair .primary 0x300 (some .a))) (fun t => t.rd 0x5010 == 1) = true ∧
    ends (exec (.pairLeave .host0 0x5A17) (pair .standby 0x450 none)) (fun t => t.mod == .syncing) = true ∧
    ends (exec (.pairLeave .host0 0x5A18) (pair .standby 0x450 none)) (fun t => t.mod == .standby && t.rd 0x5010 == 1) = true ∧
    ends (exec .resyncDemandRx (pair .standby 0x450 none)) (fun t => t.mod == .syncing) = true ∧
    ends (exec .resyncDemandRx (pair .primary 0x300 none)) (fun t => t.mod == .primary) = true ∧
    ends (exec .resyncDemandRx ((on []).fset F.pwrStatus_firstSec 1)) (fun t => t.rd 0x5010 == 1) = true := by decide +kernel
def follows : State := pair .standby 0x450 (some .b)
theorem follows_inv : follows.Inv := by unfold State.Inv; decide +kernel
/-- The record of an empty copy of cycle 9. -/
def emptySeal : SealRec := { cycle := 9, blocks := 0, crc := BitVec.allOnes 64 }
theorem witness_seal : follows.copyOk emptySeal = true ∧ follows.copyOk { emptySeal with blocks := 1 } = false ∧
    follows.copyGranted.2 = true ∧ emptySeal.package = follows.olc.outcome ∧
    ends (exec (.copyBlockRx 9 3 (List.replicate 256 1)) follows) (fun t => t.pair.staged.map (·.1) == [3] && t.pair.stagedOf == 9 &&
      t.mem.byte (follows.stagePlace 0) == 3) = true ∧
    ends (exec (.sealRecordRx { emptySeal with blocks := 1 }) follows) (fun t => t.out == []) = true ∧
    ends (exec (.sealRecordRx emptySeal) follows) (fun t => t.pair.lastSealed == 9 && t.rd64 R.scanCycleLo == 9 &&
      t.out == [.sealAck 9 []]) = true := by decide +kernel
/-- Blocks of a copy of cycle 8 without a record are left. -/
def leftover : State := { follows with pair := { follows.pair with staged := [(3, List.replicate 256 1)], stagedOf := 8 } }
theorem leftover_inv : leftover.Inv := by unfold State.Inv; decide +kernel
theorem witness_leftover : ends (exec (.copyBlockRx 9 4 (List.replicate 256 1)) leftover) (fun t => t.pair.staged.map (·.1) == [4]) = true ∧
    ends (exec (.copyBlockRx 8 4 (List.replicate 256 1)) leftover) (fun t => t.pair.staged.map (·.1) == [3, 4]) = true := by decide +kernel
/-- A copy of one granted block. -/
theorem witness_seal_block : (granted { follows with pair := { follows.pair with staged := [(0x20000, List.replicate 256 1)] } }).copyGranted.2 = true := by
  decide +kernel
/-- A PRIMARY that waits for the acknowledgement of cycle 0, in which block 5 was copied while block 6 became dirty. -/
def sealed : State := let s := sealing .awaitSeal
  { s with pair := { s.pair with sealPending := some 0, inFlight := [(5, true)], dirty := [(5, true), (6, true)] } }
theorem witness_ack : swf (fun _ => false) sealed.pair.dirty = true ∧
    ends (exec (.sealAckRx 0 []) sealed) (fun t => t.pair.dirty == [(6, true)] && t.scan.step == .idle && t.rd (R.scanChnCount 0) == 1) = true ∧
    ends (exec (.sealAckRx 1 []) sealed) (fun t => t.pair == sealed.pair) = true := by decide +kernel
theorem pair_inv : (pair .primary 0x300 (some .a)).Inv ∧ (pair .syncing 0x50 none).Inv := by unfold State.Inv; decide +kernel
theorem witness_full_copy : ends (exec (.fullCopyRx (.span 0x02000000 0x100 [(0x02000010, 7), (0x03000000, 8)]) 40) (pair .syncing 0x50 none)) (fun t =>
      t.mem.byte 0x02000010 == 7 && t.mem.byte 0x03000000 == 0 && t.fget F.pairSync_copyPct == 40) = true := by decide +kernel
theorem witness_sweep_unit : ends (exec (.sweepUnitRequestRx 0) (let s := pair .primary 0x340 (some .a); { s with mem := { s.mem with bytes := [(9, 1)] } }))
      (fun t => t.out.length == 1) = true ∧
    ({ (pair .standby 0x450 none) with pair := { (pair .standby 0x450 none).pair with asked := [0x2000] } }).pair.asked.contains 0x2000 = true := by
  decide +kernel
theorem witness_forwarded : (hears .standby 3).pkgState = pkgChecked ∧
    ends (exec (.auditVerdictRx 7 5 6) (pair .primary 0x340 (some .a))) (fun t => t.brm.retireReq == [(5, 6)]) = true ∧
    ends (exec (.configForwardRx 7 0x0A [] []) ((hears .standby 3).fset F.sysStatus_mcRun 1)) (fun t => t.pkgState == pkgArmed) = true := by
  decide +kernel
theorem witness_agreement : pairWide 6 = true ∧ ends (exec (.agreementTimeout 6) ((pair .standby 0x450 none).wr R.sysApplyPend 0x40)) (fun t =>
      !t.applyPend 6 && t.rd R.pairAgreeFail == 1) = true := by decide +kernel

/-! Disturbance acquisition and the rings. -/

/-- Acquisition enabled with channels 0 and 1, the sequencer in a state; event 0 stands for channel 0 at 100 and above. -/
def acq (seq : Nat) (act : W32) : State :=
  let s := (on [(R.acqSeqState, BitVec.ofNat 32 seq)]).fset F.acqStatus_enabled 1
  { s with act := (on [(R.acqCfg, 3), (R.acqStsAct 0, act), (R.acqStsAct 1, act), (R.acqEvnLevel 0, 100), (R.acqEvnCfg 0, 0x100), (R.acqStsCond 0, 0x80),
      (R.acqStsNext 0, 1)]).regs }
theorem acq_inv : (acq 16 0).Inv := by unfold State.Inv; decide +kernel
theorem witness_sample : (acq 16 0).acqOn = true ∧ (acq 16 0).chmask = 3 ∧
    ends (exec (.sampleInstant ((Vector.replicate 16 0x1234).set 1 5) 1) (acq 16 0)) (fun t => t.acq.n == 1 && t.acq.wpos == 4 &&
      t.mem.bytesAt t.ringBase 4 == [0xFF, 0x7F, 5, 0] && vget t.acq.run 0 == 1) = true := by decide +kernel
def evAt (on' : Bool) (run : Nat) (x : BitVec 16) : State := let s := acq 0 0
  { s with acq := { s.acq with ev := if on' then 1 else 0, run := s.acq.run.set 0 run, x := s.acq.x.set 0 x } }
theorem witness_events : (evAt false 1 100).evKind 0 = 0 ∧ evFalse 0 99 100 0 = true ∧ evFalse 0 100 100 0 = false ∧
    ends (exec (.thresholdEventChange 0) (evAt false 1 100)) (fun t => t.acq.ev == 1) = true ∧
    ends (exec (.thresholdEventChange 0) (evAt true 0 99)) (fun t => t.acq.ev == 0) = true ∧
    ends (exec (.thresholdEventChange 0) (evAt true 0 100)) (fun t => t.acq.ev == 1) = true := by decide +kernel
theorem witness_decimation : ends (exec (.decimationUp true) (acq 0 0)) (fun t => t.acq.decNext == 1) = true ∧
    ends (exec .decimationDown { acq 0 0 with acq := { (acq 0 0).acq with decNext := 1 } }) (fun t => t.acq.decNext == 0) = true := by
  decide +kernel
-- event 0 takes state 0 to state 1, whose action opens a capture
theorem witness_sequencer : (evAt true 0 100).seqNext = some 1 ∧ (evAt false 0 100).seqNext = none ∧
    ends (exec .sequencerStep { evAt true 0 100 with act := (acq 0 1).act }) (fun t => t.seqState == 1 && t.openCap.isSome &&
      t.rd R.acqCaptures == 1 && t.fbit F.acqStatus_capturing) = true ∧
    ends (exec .sequencerStep (evAt true 0 100)) (fun t => t.seqState == 1 && t.openCap.isNone) = true := by decide +kernel
def dwells : State := let s := acq 0 0
  { s with act := (on [(R.acqStsNext 0, 0x00FFFF00), (R.acqStsTimer 0, 5)]).regs, acq := { s.acq with dwell := 5 } }
theorem witness_timeout : dwells.seqNext = none ∧ dwells.aget (F.acqStsNext_toEn 0) = 1 := by decide +kernel
def captures (rearm : W32) : State := let s := acq 3 0
  { s with act := (on [(R.acqCfg, 3 ||| rearm)]).regs, acq := { s.acq with n := 9, captures := [{ stop := 9 }] } }
theorem witness_capture_end : (captures 0).openCap = some { stop := 9 } ∧
    ends (exec .captureEnd (captures 0)) (fun t => t.seqState == 16 && t.openCap.isNone) = true ∧
    ends (exec .captureEnd (captures 0x10000)) (fun t => t.seqState == 0 && t.openCap.isNone) = true := by decide +kernel
theorem witness_acq_control : ends (exec (.acqEnable .host0) ((on []).fset F.pwrStatus_cfgDone 1)) (fun t => t.acqOn && t.acq.n == 0) = true ∧
    ends (exec (.acqEnable .host0) (on [])) (fun t => t.rd 0x8010 == 1) = true ∧
    ends (exec (.acqDisable .host0) (acq 16 0)) (fun t => !t.acqOn) = true ∧ ends (exec (.acqDisable .host0) (acq 3 0)) (fun t => t.rd 0x8010 == 1) = true ∧
    ends (exec (.acqArm .host0) (acq 16 0)) (fun t => t.seqState == 0) = true ∧
    ends (exec (.acqDisarm .host0) (acq 16 0)) (fun t => t.rd 0x8010 == 1) = true ∧
    ends (exec (.acqDisarm .host0) (acq 3 0)) (·.acq.disarm) = true ∧ ends (exec (.acqForceTrig .host0) (acq 3 0)) (·.acq.force) = true := by
  decide +kernel
def spare (c : Nat) : State := (acq 16 0).fset ⟨R.acqChcStatus c, 1, 1⟩ 1
theorem spare_wf : (spare 3).regsWf = true ∧ (spare 15).regsWf = true := by decide +kernel
theorem witness_acq_clients : (acq 16 0).onSpare = none ∧ (spare 15).onSpare = some 15 ∧
    ends (exec (.acqCalibration (some 0) 7) (acq 16 0)) (fun t => t.onSpare == some 0) = true ∧
    ends (exec (.acqCalibration (some 4) 7) (spare 3)) (fun t => t.onSpare == some 4) = true ∧
    ends (exec (.acqCalibration none 7) (spare 15)) (fun t => t.onSpare == none && t.rd (R.wfClcLap 7) == 7) = true ∧
    ends (exec .skewLate (acq 3 0)) (fun t => t.fbit F.acqStatus_skewLate) = true := by decide +kernel
def injects : State := (acq 16 0).fset F.acqStatus_inject 1
theorem injects_wf : injects.regsWf = true := by decide +kernel
theorem witness_skew : (acq 16 0).openCap = none ∧ ends (exec (.skewMeasurement .start) (acq 16 0)) (fun t => t.fbit F.acqStatus_inject) = true ∧
    ends (exec (.skewMeasurement (.window 5)) injects) (fun t => t.acq.windows == [(0, 5)]) = true ∧
    ends (exec (.skewMeasurement (.fit (Vector.replicate 16 4) 8)) injects) (fun t => t.rd (R.acqChcSkew 15) == 4 &&
      !t.fbit F.acqStatus_inject) = true := by decide +kernel

/-- A module on the rings with one station of one segment, class F, two bytes in, and what arrived of it. -/
def ring (m : ModState) (token : W32) (st : Nat) (got : BitVec 2) (closed : Bool) : State :=
  let s := (on [(R.pairStatus, role m ||| token)]).fset (F.ringStsState_state 5) st
  { s with
    power := { s.power with ringJoined := true }
    ring := { s.ring with
      plan := { stations := [{ num := 5, layout := 9 }], segs := [{ station := 5, inLen := 2 }] }
      active := true, closed := closed, segs := [{ got := got }] } }
theorem ring_wf : (ring .primary 0x100 3 0 true).regsWf = true := by decide +kernel
-- 24 bytes of header and one segment of 14 bytes, on four ports
theorem witness_exchange : ends (exec .ringExchangeStart (ring .primary 0x100 3 0 true)) (fun t => t.rd R.ringExch == 1 && t.ringMaster &&
      t.out.map (fun o => match o with | .ringFrame p _ b => (p, b.length) | _ => (9, 0)) == [(0, 38), (1, 38), (2, 38), (3, 38)]) = true := by
  decide +kernel
/-- A master, and a passive node whose other port is up. -/
def masters : State := (ring .primary 0x100 3 0 true).fset F.ringStatus_master 1
def onward : State := (ring .standby 0 3 0 true).fset (F.ringPpStatus_link 0) 1
theorem witness_ring_rx : masters.ringMaster = true ∧ onward.ringMaster = false ∧ masters.regsWf = true ∧ onward.regsWf = true ∧
    ends (exec (.ringFrameRx 1 0x88B5 false [1, 1]) masters) (fun t => t.rd (R.ringPpErr 1) == 1 && t.out == []) = true ∧
    ends (exec (.ringFrameRx 1 0xFFFF true [1, 1]) masters) (fun t => t.rd R.ringRxDrop == 1 && t.out == []) = true ∧
    ends (exec (.ringFrameRx 1 0x88B5 false [1, 1]) onward) (fun t => t.rd (R.ringPpErr 1) == 1 && t.out == [.badFrame 0 0x88B5 [1, 1]]) = true ∧
    ends (exec (.ringFrameRx 1 0xFFFF true [1, 1]) onward) (fun t => t.rd R.ringRxDrop == 1 && t.out == [.ringFrame 0 0xFFFF [1, 1]]) = true := by
  decide +kernel
/-- A passive node before its plan is active. -/
def passive : State := let s := ring .standby 0 3 0 true
  { s with ring := { s.ring with active := false } }
theorem witness_forward : passive.ringMaster = false ∧
    ends (exec (.ringFrameRx 1 (BitVec.ofNat 16 (passive.aget F.ringCfg_etype)) true [1, 1, 0, 7]) passive) (fun t => t.out.map (fun o =>
      match o with | .ringFrame p _ b => (p, b) | _ => (9, [])) == [(1, [1, 1, 8, 7])]) = true ∧
    ends (exec (.ringFrameRx 1 (BitVec.ofNat 16 (passive.aget F.ringCfg_etype)) true [1, 1, 0, 7]) (passive.fset (F.ringPpStatus_link 0) 1)) (fun t =>
      t.out.map (fun o => match o with | .ringFrame p _ b => (p, b) | _ => (9, [])) == [(0, [1, 1, 0, 7])]) = true := by decide +kernel
/-- The segment of station 5 as it arrives, with a good check. -/
def arrived : RSegment := { station := 5, sstat := 1, layout := 9, outLen := 0, inLen := 2, output := [], input := [3, 4]
                            icrc := crc16 (leBytes 1 1 ++ leBytes 2 9 ++ [3, 4]) }
theorem witness_segment : arrived.icrcOk = true ∧ (ring .primary 0x100 3 0 false).plannedSeg .f 0 0 0 arrived = some 0 ∧
    (((ring .primary 0x100 3 0 false).takeSegment 0 .f 0 0 0 arrived).segRx 0).data = [3, 4] ∧
    ((ring .primary 0x100 3 1 false).takeSegment 2 .f 0 0 0 arrived).rd R.ringCopyDiff = 1 := by decide +kernel
/-- The station is on neither ring; and a station of the plan without a segment. -/
def unmasked : State := let s := ring .primary 0x100 3 0 false
  { s with ring := { s.ring with plan := { s.ring.plan with stations := [{ num := 5, layout := 9, mask := 0 }, { num := 6 }] } } }
theorem witness_unmasked : unmasked.regsWf = true ∧ (unmasked.takeSegment 0 .f 0 0 0 arrived).segRx 0 = unmasked.segRx 0 ∧
    (unmasked.stationGot 6).1 = false ∧ (unmasked.ring.plan.stations.map (·.num)).Nodup := by decide +kernel
theorem witness_deadline : (ring .primary 0x100 4 1 false).stationGot 5 = (true, 1) ∧
    ends (exec .exchangeDeadline (ring .primary 0x100 3 0 false)) (fun t => t.stationState 5 == 3 && t.rd (R.ringStsMiss 5) == 1) = true ∧
    ends (exec .exchangeDeadline ((ring .primary 0x100 3 0 false).fset (F.ringStsState_missCnt 5) 2)) (fun t => t.stationState 5 == 4) = true ∧
    ends (exec .exchangeDeadline (ring .primary 0x100 4 1 false)) (fun t => t.stationState 5 == 2) = true ∧
    ends (exec .exchangeDeadline ((ring .primary 0x100 2 1 false).fset (F.ringStsState_retCnt 5) 9)) (fun t => t.stationState 5 == 3) = true := by
  decide +kernel
theorem witness_ring_port : ends (exec (.ringPortDown 2) ((on []).fset (F.ringPpStatus_link 2) 1)) (fun t => t.fbit (F.ringPpStatus_down 2) &&
      !t.fbit (F.ringPpStatus_link 2)) = true ∧
    ends (exec (.ringPortLinkUp 2) (on [])) (fun t => t.fbit (F.ringPpStatus_link 2)) = true ∧
    ends (exec .ringJoin (on [(R.pairStatus, role .config)])) (fun t => t.power.ringJoined && t.fbit (F.ringPpStatus_field 0) &&
      !t.fbit (F.ringPpStatus_field 1)) = true := by decide +kernel
/-- A subscription to class N of pair 6, 4 bytes, in a state, after a cycle. -/
def subscribes (st : Nat) (cycle : Option W64) : State :=
  let s := ring .primary 0x100 3 0 true
  let s := s.fset (F.ringPeerSjState_state 0) st
  { s with act := (on [(R.ringPeerCfg, 0x04000000)]).regs
           ring := { s.ring with plan := { s.ring.plan with subs := [{ pair := 6, len := 4 }] }, peers := [{ cycle := cycle }] } }
/-- A peer frame of cycle 8. -/
def peerFrame : List Byte :=
  let b : List Byte := [1, 3, 6, 0, 2, 5, 4, 0, 8, 0, 0, 0, 0, 0, 0, 0] ++ List.replicate 8 0 ++ [1, 2, 3, 4]
  b ++ leBytes 4 (crc32 b)
theorem witness_peer : (subscribes 4 none).aget F.ringPeerCfg_peerEn = 1 ∧ (subscribes 4 none).configured = true ∧
    ends (exec (.peerFrameRx 1 true peerFrame) (subscribes 4 none)) (fun t => (t.peerRx 0).cycle == some 8 && (t.peerRx 0).data == [1, 2, 3, 4] &&
      (t.peerRx 0).ports == 2 && t.fget (F.ringPeerSjState_state 0) == 2) = true ∧
    ends (exec (.peerFrameRx 0 true peerFrame) (subscribes 3 (some 8))) (fun t => (t.peerRx 0).ports == 1) = true ∧
    ends (exec (.peerFrameRx 0 false peerFrame) (subscribes 3 (some 8))) (fun t => t.rd R.ringRxDrop == 1) = true := by decide +kernel
theorem witness_peer_miss : ends (exec (.peerPeriodMiss 0) (subscribes 3 none)) (fun t => t.fget (F.ringPeerSjState_state 0) == 3 &&
      t.rd (R.ringPeerSjMiss 0) == 1) = true ∧
    ends (exec (.peerPeriodMiss 0) ((subscribes 3 none).fset (F.ringPeerSjState_missCnt 0) 2)) (fun t => t.fget (F.ringPeerSjState_state 0) == 4) = true := by
  decide +kernel

/-! The CAN ports. -/

/-- Port 0 in a state with error counters, in a module that may send; filter 0 keeps frames of identifier 0x123 for class F at
offset 8, filter 1 of the next port hands them to the host; descriptor 3 of port 0 is a buffer of MC (R315, R318). -/
def canPort (st tec rec_ : Nat) : State :=
  let s := on [(R.pairStatus, role .alone ||| 0x100), (R.canChnStatus 0, BitVec.ofNat 32 (st + tec * 256 + rec_ * 65536))]
  let a := 0x05200000
  { s with
    power := { s.power with can := true }
    mem := { s.mem with bytes := [(a, 0x23), (a + 1, 1), (a + 4, 0xFF), (a + 5, 0xFF), (a + 6, 0xFF), (a + 7, 0x1F), (a + 8, 1), (a + 9, 1),
      (a + 12, 8), (a + 0x1030, 0x23), (a + 0x1031, 1)] } }
/-- A buffer waits on port 0. -/
def canQueued (tec : Nat) (more : W32) : State :=
  let s := (canPort canActive tec 0).setBuf 0 3 (fun b => { b with queued := true, content := [2, 0, 0, 0, 0, 0, 0, 0, 0xAB, 0xCD] })
  s.wr (R.canChnStatus 0) (s.rd (R.canChnStatus 0) ||| more)
/-- A nominal bit of 40 quanta of two CAN clocks each and a data bit of 20, with delay compensation (R310). -/
def timed : State :=
  let l : List (Nat × W32) := [(R.canChnBittime 0, 2 + 0x1F * 64 + 8 * 0x8000 + 4 * 0x800000), (R.canChnDbittime 0, 2 + 14 * 64 + 5 * 0x1000 + 2 * 0x20000 + 0x400000)]
  { on l with act := l }
theorem can_wf : (canPort 3 0 0).regsWf = true ∧ (canQueued 0 0).regsWf = true ∧ timed.regsWf = true := by decide +kernel
theorem witness_can_start : timed.canTiming 0 = true ∧ timed.canState 0 = canDown ∧
    ends (exec (.canStart .host0 1 0) timed) (fun t => t.canState 0 == canInteg) = true ∧
    ends (exec (.canStart .host0 3 0) (on [])) (fun t => t.canState 0 == canDown && t.rd 0xA010 == 2) = true ∧
    ends (exec (.canStart .host0 1 1) timed) (fun t => t.canState 0 == canDown) = true ∧
    ends (exec (.canStop .host0 1) (canPort canActive 0 0)) (fun t => t.canState 0 == canDown) = true := by decide +kernel
theorem witness_can_states :
    ends (exec (.canIntegrationDone 0) (canPort canInteg 0 0)) (fun t => t.canState 0 == canActive) = true ∧
    ends (exec (.canIntegrationDone 0) ((canPort canInteg 0 0).wr R.pairStatus (role .standby))) (fun t => t.canState 0 == canRestricted) = true ∧
    ends (exec (.transceiverFault 0) (canPort canActive 0 0)) (fun t => t.canState 0 == canDown && t.rd R.canStatus == 0x10) = true ∧
    ends (exec (.busoffDelayExpiry 0) (canPort canBusoff 255 0)) (fun t => (vget t.can.port 0).boDone) = true ∧
    ends (exec (.collideClear 0) (canPort (canActive + 32) 0 0)) (fun t => !t.fbit (F.canChnStatus_collide 0)) = true := by decide +kernel
def waited : State := let s := canPort canBusoff 255 0
  { s with can := { s.can with port := vmod s.can.port 0 (fun p => { p with boDone := true }) } }
theorem witness_busoff_recovery : ends (exec (.busoffRecovery 0) waited) (fun t => t.canState 0 == canInteg && t.fget (F.canChnStatus_tec 0) == 0) = true := by
  decide +kernel
theorem witness_can_rx : ((List.range 256).map ((canPort canRestricted 0 0).canFilter 0)).find? (fun g => g.hit 0x123) =
      some { fid := 0x123, mask := 0x1FFFFFFF, action := 1, cls := 1, off := 8 } ∧
    ends (exec (.canFrameRx 0 0x123 false false 2 [7, 8]) (canPort canRestricted 0 0)) (fun t => (t.can.objs.head?.map (fun o => (o.1, o.2.data))) ==
      some (0x80008, [7, 8]) && t.rd (R.canChnRxok 0) == 1) = true ∧
    ends (exec (.canFrameRx 0 0x124 false false 2 [7, 8]) (canPort canRestricted 0 0)) (fun t => t.can.objs == [] && t.rd (R.canChnUnmatched 0) == 1) = true := by
  decide +kernel
theorem witness_can_rx_errors : ends (exec (.canRxError 0 true) (canPort canRestricted 0 0)) (fun t => t.rd (R.canChnRxerr 0) == 1) = true ∧
    ends (exec (.canRxError 0 true) (canPort canActive 0 250)) (fun t => t.fget (F.canChnStatus_rec 0) == 255 && t.fbit (F.canChnStatus_epassive 0)) = true := by
  decide +kernel
theorem witness_can_tx : (canQueued 9 0).canPick 0 = some 3 ∧
    ends (exec (.canTxSuccess 0 none) (canQueued 9 0)) (fun t => t.out == [.canFrame 0 0x123 2 [0xAB, 0xCD]] && !(t.canBuf 0 3).queued &&
      t.fget (F.canChnStatus_tec 0) == 8 && t.rd (R.canChnTxok 0) == 1) = true ∧
    ends (exec (.canTxError 0 .arbitration) (canQueued 9 0)) (fun t => (t.canBuf 0 3).queued && t.fget (F.canChnStatus_tec 0) == 9) = true ∧
    ends (exec (.canTxError 0 .other) (canQueued 9 0)) (fun t => t.fget (F.canChnStatus_tec 0) == 17) = true ∧
    ends (exec (.canTxError 0 .other) (canQueued 248 0)) (fun t => t.canState 0 == canBusoff) = true ∧
    ends (exec (.canTxError 0 .ack) (canQueued 130 8)) (fun t => t.fget (F.canChnStatus_tec 0) == 130 && (vget t.can.port 0).ackRun == 1) = true := by
  decide +kernel
/-- The token has gone while a frame of a waiting buffer was on the bus. -/
def canParted : State := (((canQueued 9 0).wr R.canStatus 1).wr R.pairStatus (role .primary)).canPermit
theorem witness_can_parting : canParted.canLeaving 0 = some 3 ∧ canParted.canState 0 = canRestricted ∧ canParted.canPermitted = false ∧
    canParted.regsWf = true ∧ canParted.canPick 0 = none ∧
    ends (exec (.canTxSuccess 0 none) canParted) (fun t => t.out == [.canFrame 0 0x123 2 [0xAB, 0xCD]] && t.canLeaving 0 == none &&
      t.fget (F.canChnStatus_tec 0) == 9) = true := by decide +kernel

/-! The host rings. -/

/-- A module with the token whose MC runs, a command of ring 0 before it. -/
def posted (m : ModState) (op : Nat) (d : Desc := {}) (data : Option (List Byte) := none) : State :=
  let s := on [(R.pairStatus, role m ||| 0x100), (R.sysStatus, 1)]
  { s with host := { s.host with cmds := [{ id := 5, ring := 0, desc := { d with word0 := BitVec.ofNat 32 (op * 65536) }, data := data }] } }
/-- Opcode `op` begins on ring 0, and may be executed here. -/
def starts (s : State) (op : Nat) : Bool :=
  match s.toBegin 0 op with
  | some c => s.executing && s.fbit F.sysStatus_mcRun && !c.bad && opAllowed op s.mod (s.partner == .off) && !(opP op && c.target)
  | none => false
/-- The command at the head of the queue is done with a status. -/
def doneWith (status : W32) (t : State) : Bool := t.host.cmds.any (fun c => c.phase == .done && c.status == status)

/-- Ring 0 enabled on port 0 with four entries and one descriptor posted. -/
def ringed (m : ModState) : State :=
  on [(R.pairStatus, role m ||| 0x100), (R.sysStatus, 1), (R.hostRingEn, 0x10001), (R.hostPpStatus 0, 1), (R.hostChnCfg 0, 2), (R.hostChnProd 0, 1),
    (R.hostPpCqCfg 0, 4), (R.hostChnBaseLo 0, 0x1000), (R.hostPpCqBaseLo 0, 0x2000)]
def ready1 (m : ModState) : State := let s := ringed m
  { s with power := { s.power with doorbells := true } }
theorem ringed_wf : (ready1 .alone).regsWf = true ∧ (posted .alone 1).regsWf = true := by decide +kernel
theorem witness_doorbell : (ringed .alone).ringSize 0 = 4 ∧
    ends (exec (.hostDoorbell .mc 0 4) (ringed .alone)) (fun t => t.rd (R.hostChnProd 0) == 4) = true ∧
    ends (exec (.hostDoorbell .mc 0 0) (ringed .alone)) (fun t => t.rd (R.hostChnProd 0) == 1 && t.rd 0xB010 == 1) = true ∧
    ends (exec (.hostDoorbell .mc 0 5) (ringed .alone)) (fun t => t.fget (F.hostChnErr_cause 0) == 3 && t.out == [.msix 0 2]) = true ∧
    ends (exec (.hostDoorbell .host1 0 2) (ringed .alone)) (fun t => t.rd 0xB010 == 1) = true := by decide +kernel
theorem witness_take : (ready1 .alone).nextRing 0 = some 0 ∧ (ready1 .alone).executing = true ∧ (ready1 .alone).cqRoom 0 = true ∧
    (ready1 .alone).nextRing 1 = none ∧
    ends (exec (.descriptorTake 0 { word0 := 0x80010000 }) (ready1 .alone)) (fun t => t.rd (R.hostChnTaken 0) == 1 &&
      t.host.cmds.map (·.phase) == [.ready]) = true ∧
    ends (exec (.descriptorTake 0 { word0 := 0x00010000 }) (ready1 .alone)) (fun t => t.fget (F.hostChnErr_cause 0) == 1 &&
      t.fbit (F.hostChnErr_halted 0)) = true ∧
    ends (exec (.descriptorTake 0 { word0 := 0x80010001 }) (ready1 .alone)) (fun t => t.fget (F.hostChnErr_cause 0) == 2) = true := by decide +kernel
theorem witness_standby_reads : ends (exec (.descriptorTake 0 { word0 := 0x80010000 }) (ready1 .standby)) (fun t => vget t.host.fetched 0 == 1 &&
    t.out == []) = true := by decide +kernel
/-- A NOP of ring 0 that has begun. -/
def nopAt (more : W32) (last : Option W64) : State := let s := ringed .alone
  { s with host := { s.host with cmds := [{ id := 5, ring := 0, desc := { word0 := 0x10000 ||| more }, lastAddr := last }] } }
-- STATUS and RESULT, word 0 with OWN clear, then the entry, then the interrupt (R338)
theorem witness_completion : ends (.next ((nopAt 0x20000000 none).cmdDone 5 0 0)) (fun t => t.host.cmds == [] && t.rd (R.hostChnDone 0) == 1 &&
    t.out.map (fun o => match o with | .hostWrite _ a b => (a, b.length) | _ => (0, 0)) == [(0x1038, 8), (0x1000, 4), (0x2000, 32), (0, 0)]) = true := by
  decide +kernel
def barred : State := (nopAt 0x40000000 (some 0x9000)).cmdDone 5 0 0
theorem witness_data_barrier : barred.out = [.hostRead 0 0x9000] ∧
    ends (exec (.completionBarrierDone 0) barred) (fun t => t.host.cmds == [] && t.rd (R.hostChnDone 0) == 1) = true := by decide +kernel
theorem witness_unlinked : ends (.next (((nopAt 0 none).wr (R.hostPpStatus 0) 0).cmdDone 5 0 0)) (fun t => t.out == [] && doneWith 0 t) = true := by
  decide +kernel
theorem witness_refused : (posted .alone 0x02).toBegin 0 0x02 ≠ none ∧
    ends (exec (.statusCmd 0) (posted .alone 0x02)) (doneWith 0x0101) = true ∧
    ends (exec (.pkgLoad 0) (posted .stopped 0x09 { length := 256 })) (doneWith 0x0102) = true ∧
    ends (exec (.recRead 0) (posted .alone 0x16 { arg2 := 1 })) (doneWith 0x0107) = true ∧
    ends (exec (.recRead 0) ((posted .alone 0x16 { arg2 := 1 }).fset F.pairStatus_pState 5)) (fun t =>
      t.host.cmds.map (·.phase) == [.forwarded]) = true ∧
    (posted .alone 1).toBegin 1 1 = none ∧ (posted .standby 1).executing = false := by decide +kernel
theorem witness_reading : starts (posted .alone 1) 1 = true ∧
    ends (exec (.cmdNop 0) (posted .alone 1)) (doneWith 0) = true ∧
    starts (posted .alone 2 { length := 256 }) 2 = true ∧ starts (posted .alone 3 { length := 8 }) 3 = true ∧
    starts (posted .alone 0x18 { length := 4 }) 0x18 = true ∧
    ends (exec (.tcRead 0) (posted .alone 0x18 { length := 4 })) (doneWith 0x0106) = true := by decide +kernel
/-- `READ_SYM` of a symbol of the small bank. -/
def readsSym (id : W64) (n : W32) : State := withBank (posted .alone 4 { length := n, modAddr := id })
theorem witness_read_sym : starts (readsSym 1 4) 4 = true ∧
    ends (exec (.readSym 0) (readsSym 1 4)) (fun t => t.host.cmds.map (·.phase) == [.waitCommit]) = true ∧
    ends (exec (.readSym 0) (readsSym 1 8)) (doneWith 0x0101) = true ∧
    ends (exec (.readSym 0) (readsSym 9 4)) (doneWith 0x0105) = true ∧
    ends (exec (.readSym 0) { readsSym 4 4 with cat := {} }) (doneWith 0x0103) = true ∧
    ((readsSym 4 4).sym (readsSym 4 4).bank 4).map (·.kind) = some 3 ∧
    ((readsSym 4 4).mcAccess .read 0x30 4).2 = true := by decide +kernel
def recCtl (action : W64) (frozen : Bool) : State :=
  let s := posted .alone 0x17 { arg0 := action }
  if frozen then s.fset F.recStatus_frozen 1 else s
theorem witness_rec_commands : starts (recCtl 0 false) 0x17 = true ∧ starts (posted .alone 0x16 { length := 64 }) 0x16 = true ∧
    (recCtl 0 false).fbit F.recStatus_flushing = false ∧ (recCtl 1 true).recd.ovfCount = 0 ∧
    ends (exec (.recCtrlFreeze 0) (recCtl 0 false)) (fun t => t.fbit F.recStatus_frozen && doneWith 0 t) = true ∧
    ends (exec (.recCtrlFreeze 0) (recCtl 0 true)) (doneWith 0x0103) = true ∧
    ends (exec (.recCtrlUnfreeze 0) (recCtl 1 true)) (fun t => !t.fbit F.recStatus_frozen && doneWith 0 t) = true ∧
    ends (exec (.recCtrlRearm 0) (recCtl 2 true)) (fun t => t.recd.rearming == some (.command 5)) = true := by decide +kernel
theorem witness_bulk_send : starts (posted .alone 0x19 { length := 64, modAddr := 0x100 }) 0x19 = true ∧
    ends (exec (.bulkSend 0) (posted .alone 0x19 { length := 64, modAddr := 0x100 })) (fun t => t.dray.bulk.map (·.addr) == [0x100]) = true := by
  decide +kernel
-- DRAY_CFG, a staged register, with a queue of 16 MiB and then of 0, which is out of range and ignored
def pairs : State := posted .alone 5 { length := 16 } (some [0x14, 0xD0, 0, 0, 3, 0, 0x10, 0, 0x14, 0xD0, 0, 0, 3, 0, 0, 0])
theorem witness_config : starts pairs 5 = true ∧ ends (exec (.configCmd 0) pairs) (fun t => t.rd R.drayCfg == 0x100003 &&
    t.host.cmds.map (fun c => (c.status, c.result)) == [(0, 1)]) = true := by decide +kernel
-- a pair at an address without a region (R27, R378)
theorem witness_config_refused : ends (exec (.configCmd 0) (posted .alone 5 { length := 8 } (some [0, 0x60, 1, 0, 3, 0, 0, 0]))) (fun t =>
    doneWith 0x0103 t && t.rd (R.catClmFaults 2) == 1) = true := by decide +kernel
def valued (en : W32) : State :=
  let s := withBank (posted .alone 6 { modAddr := 1, arg0 := 5, arg1 := 4, arg2 := 0x11223344 })
  { s with act := (on [(R.olcCfg, en)]).regs }
theorem witness_value_write : starts (valued 0) 6 = true ∧ (valued 0).aget F.olcCfg_vwEn = 0 ∧
    ends (exec (.valueWrite 0) (valued 0)) (doneWith 0x0103) = true ∧
    ends (exec (.valueWrite 0) (valued 0x100)) (fun t => t.olc.vwq.map (·.value) == [[0x44, 0x33, 0x22, 0x11]] && doneWith 0 t) = true := by decide +kernel
/-- `FORCE_SET` or `FORCE_RELEASE` of symbol 2, an input. -/
def forcing (op : Nat) (id : W64) : State :=
  let s := withBank (posted .alone op { modAddr := id, arg0 := 5, arg2 := 0x0807 })
  { s with olc := { s.olc with forces := [{ symId := 7 }] } }
theorem witness_force_commands : starts (forcing 7 2) 7 = true ∧ starts (forcing 8 7) 8 = true ∧ ((forcing 7 2).forceable 2 5).isSome = true ∧
    ends (exec (.forceSet 0) (forcing 7 2)) (fun t => t.olc.forces.map (fun f => (f.symId, f.value)) == [(7, []), (2, [7, 8, 0, 0])]) = true ∧
    ends (exec (.forceSet 0) (forcing 7 1)) (doneWith 0x0105) = true ∧
    ends (exec (.forceRelease 0) (forcing 8 7)) (fun t => t.olc.forces == []) = true ∧
    ends (exec (.forceRelease 0) (forcing 8 (BitVec.allOnes 64))) (fun t => t.olc.forces == []) = true := by decide +kernel
def patching (pkg : Nat) : State := (withBank (posted .alone 0x0D { modAddr := 4, arg1 := 4, arg2 := 9 })).setPkg pkg
theorem witness_patch_command : starts (patching pkgEmpty) 0x0D = true ∧ ((patching pkgEmpty).constPatch 4 0 4 9).2 = 0 ∧
    ends (exec (.constPatch 0) (patching pkgEmpty)) (fun t => t.pkgState == pkgChecking) = true ∧
    ends (exec (.constPatch 0) (patching pkgArmed)) (doneWith 0x0103) = true := by decide +kernel
def enrolling (op : Nat) (k : W64) (have_ : Bool) : State :=
  let s := posted .service op { length := if op = 0x0E then 32 else 0, arg0 := k } (some (List.replicate 31 0 ++ [1]))
  { s with olc := { s.olc with keys := vset s.olc.keys 2 (if have_ then some 3 else none) } }
theorem witness_keys : starts (enrolling 0x0E 2 false) 0x0E = true ∧ starts (enrolling 0x0F 2 true) 0x0F = true ∧
    ends (exec (.keyEnrol 0) (enrolling 0x0E 2 false)) (fun t => vget t.olc.keys 2 == some 1 && t.rd R.olcKeyValid == 4) = true ∧
    ends (exec (.keyEnrol 0) (enrolling 0x0E 2 true)) (doneWith 0x0103) = true ∧
    ends (exec (.keyRemove 0) (enrolling 0x0F 2 true)) (fun t => vget t.olc.keys 2 == none) = true ∧
    ends (exec (.keyRemove 0) (enrolling 0x0F 0 true)) (doneWith 0x0103) = true := by decide +kernel
def startable : State :=
  let s := posted .config 0x10
  { s.fset F.sysCfgStatus_done 1 with power := { s.power with roleDone := true } }
theorem witness_scan_start : starts startable 0x10 = true ∧ startable.scan.run = .notStarted ∧
    ends (exec (.scanStart 0) startable) (fun t => t.scan.startReq && doneWith 0 t) = true ∧
    starts (posted .stopped 0x11 { arg0 := 1, arg1 := 0x5CA7 }) 0x11 = true ∧
    ends (exec (.scanRestartCmd 0) (posted .stopped 0x11 { arg0 := 1, arg1 := 0x5CA7 })) (fun t => t.scan.restartReq == some true) = true := by
  decide +kernel
def switching (ready : Bool) : State := let s := posted .primary 0x12 { arg1 := 0x5A17 }
  { s with bogie := { s.bogie with pReady := ready } }
theorem witness_pair_switch : starts (switching true) 0x12 = true ∧
    ends (exec (.pairSwitch 0) (switching true)) (fun t => t.pair.handover == some 3) = true ∧
    ends (exec (.pairSwitch 0) (switching false)) (doneWith 0x0103) = true := by decide +kernel
def serving (m : ModState) (op : Nat) (runs : Bool) : State := let s := posted m op { arg1 := 0x5E4C }
  { s with scan := { s.scan with run := if runs then .running else .notStarted } }
theorem witness_service_commands : starts (serving .alone 0x13 true) 0x13 = true ∧ starts (serving .service 0x14 true) 0x14 = true ∧
    (serving .alone 0x13 true).scanning = true ∧ (serving .stopped 0x13 false).scanning = false ∧
    ends (exec (.serviceEnter 0) ((serving .alone 0x13 true).fset F.pairStatus_dbUp 1)) (doneWith 0x0103) = true ∧
    ends (exec (.serviceEnter 0) (serving .alone 0x13 true)) (fun t => t.scan.service == some true) = true ∧
    ends (exec (.serviceEnter 0) (serving .stopped 0x13 false)) (fun t => t.mod == .service) = true ∧
    ends (exec (.serviceLeave 0) (serving .service 0x14 true)) (fun t => t.scan.service == some false) = true ∧
    ends (exec (.serviceLeave 0) (serving .service 0x14 false)) (fun t => t.mod == .stopped) = true := by decide +kernel
theorem witness_can_command : starts (posted .alone 0x15 { length := 72, arg0 := 0x300 } (some [1])) 0x15 = true ∧
    ends (exec (.canTx 0) (posted .alone 0x15 { length := 72, arg0 := 0x300 } (some [1]))) (fun t => (t.canBuf 0 3).queued && (t.canBuf 0 3).content == [1]) = true := by
  decide +kernel
def subscribing (data : List Byte) : State := withBank (posted .alone 0x1A { length := 8, arg0 := 0x10103 } (some data))
theorem witness_hist_sub : starts (subscribing []) 0x1A = true ∧
    ends (exec (.histSub 0) (subscribing [9, 0, 0, 0, 0, 0, 0, 0])) (doneWith 0x0105) = true ∧
    ends (exec (.histSub 0) (subscribing [])) (fun t => t.dray.subs == [] && doneWith 0 t) = true := by decide +kernel
/-- A package command in a state of the package. -/
def pkgCmd (op pkg : Nat) (d : Desc := {}) : State :=
  let s := (withBank (posted .alone op d (some (List.replicate 256 0)))).setPkg pkg
  { s with scan := { s.scan with run := .running } }
theorem witness_package_commands : starts (pkgCmd 9 pkgLoading { length := 256 }) 9 = true ∧ starts (pkgCmd 0xA pkgChecked) 0xA = true ∧
    starts (pkgCmd 0xB pkgArmed) 0xB = true ∧ starts (pkgCmd 0xC pkgChecked) 0xC = true ∧
    ends (exec (.pkgLoad 0) (pkgCmd 9 pkgLoading { length := 256 })) (fun t => t.rd R.olcLoaded == 256) = true ∧
    ends (exec (.pkgLoad 0) (pkgCmd 9 pkgChecked { length := 256 })) (doneWith 0x0103) = true ∧
    ends (exec (.pkgSwitch 0) (pkgCmd 0xA pkgChecked)) (fun t => t.pkgState == pkgArmed) = true ∧
    ends (exec (.pkgSwitch 0) (pkgCmd 0xA pkgArmed)) (doneWith 0x0103) = true ∧
    ends (exec (.pkgCancel 0) (pkgCmd 0xB pkgArmed)) (fun t => t.pkgState == pkgChecked && t.rd R.olcRefuse == 0x24) = true ∧
    ends (exec (.pkgCancel 0) (pkgCmd 0xB pkgChecked)) (doneWith 0x0103) = true ∧
    ends (exec (.pkgDiscard 0) (pkgCmd 0xC pkgChecked)) (fun t => t.pkgState == pkgEmpty) = true ∧
    ends (exec (.pkgDiscard 0) (pkgCmd 0xC pkgArmed)) (doneWith 0x0103) = true := by decide +kernel

/-! Host ports, DMA channels, the Dray link and the observation port. -/

theorem witness_heads : ends (exec (.hostCqHead .host0 0 3) (ringed .alone)) (fun t => t.rd (R.hostPpCqHead 0) == 3) = true ∧
    ends (exec (.hostEqHead .host0 0 3) (ringed .alone)) (fun t => t.rd (R.hostPpEqHead 0) == 3 && t.out == []) = true ∧
    (ringed .alone).host.cmds = [] ∧ vget (ringed .alone).host.eqWait 0 = [] := by decide +kernel
-- ring 8 stands with port 1, which is not enabled
theorem witness_ring_en : ends (exec (.hostRingEn .host0 0x10101) ((on []).wr (R.hostChnProd 0) 9)) (fun t => t.ringOn 0 && !t.ringOn 8 &&
      t.rd (R.hostChnProd 0) == 0) = true ∧
    ends (exec (.hostRingEn .host0 0x10001) ((ringed .alone).wr (R.hostChnTaken 0) 7)) (fun t => t.rd (R.hostChnTaken 0) == 7) = true := by decide +kernel
theorem witness_engine_halt : (ringed .alone).engineOk 0 = true ∧ (ringed .alone).engineOk 1 = false ∧
    ends (exec (.ringEngineHalt 0 0x123456789 true) (ringed .alone)) (fun t => !t.engineOk 0 && t.rd64 (R.hostPpFaultLo 0) == 0x123456789 &&
      t.out == [.msix 0 2]) = true ∧
    ends (exec (.hostResume .host0 1) ((ringed .alone).fset (F.hostPpStatus_halt 0) 1)) (fun t => t.engineOk 0) = true := by decide +kernel
/-- Channel 2 moves a command's data. -/
def moving (phase : CmdPhase) (st : Nat) (d : Option (List Byte)) : State :=
  let s := on [(R.pairStatus, role .alone ||| 0x100), (R.dmaChnStatus 2, BitVec.ofNat 32 st), (R.hostPpStatus 0, 1)]
  { s with
    dma := { s.dma with chan := vset s.dma.chan 2 (some 5) }
    host := { s.host with cmds := [{ id := 5, ring := 0, phase := phase, data := d, desc := { word0 := 0x20000, length := 4, hostAddr := 0x7000 } }] } }
theorem moving_wf : (moving .movingIn 1 none).regsWf = true := by decide +kernel
theorem witness_host_link : (moving .movingIn 1 none).portChans 0 = [2] ∧
    ends (exec (.hostLinkLoss 0 true) (moving .movingIn 1 none)) (fun t => t.fget (F.dmaChnStatus_state 2) == 2 && t.fget (F.dmaChnStatus_cause 2) == 7) = true ∧
    ends (exec (.hostLinkUp 1 3 2) (ringed .alone)) (fun t => t.engineOk 1 && t.fget (F.hostPpStatus_speed 1) == 3) = true := by decide +kernel
def forwardedAt : State := let s := on [(R.pairStatus, role .alone ||| 0x100), (R.sysStatus, 1)]
  { s.fset F.pwrStatus_cfgDone 1 with host := { s.host with cmds := [{ id := 5, ring := 3, phase := .forwarded }] } }
theorem witness_forwarded_commands : forwardedAt.up = true ∧ (forwardedAt.forwardedCmd 3).isSome = true ∧ forwardedAt.forwardedCmd 4 = none ∧
    ends (exec (.forwardedCommandRx 8 3 { word0 := 0x20000 }) forwardedAt) (fun t => t.pair.msgs.any (fun m => m.body == .forwardedReply 3 0 0 forwardedAt.statusBlock)) = true ∧
    ends (exec (.forwardedReplyRx 8 3 0x0103 0 []) forwardedAt) (doneWith 0x0103) = true ∧
    ends (exec (.partnerAnswerTimeout 3) forwardedAt) (doneWith 0x0107) = true := by decide +kernel
theorem witness_dma : ((moving .movingIn 1 none).dmaCmd 2).isSome = true ∧ (moving .movingIn 0 none).dmaCmd 2 = none ∧
    ends (exec (.dmaTransferDone 2 [1, 2, 3, 4]) (moving .movingIn 1 none)) (fun t => t.host.cmds.map (·.data) == [some [1, 2, 3, 4]] &&
      vget t.dma.chan 2 == none) = true ∧
    ends (exec (.dmaTransferDone 2 []) (moving .movingOut 1 (some [9, 8, 7, 6]))) (fun t => t.out.take 1 == [.hostWrite 0 0x7000 [9, 8, 7, 6]]) = true := by
  decide +kernel
theorem witness_dma_halt : ends (exec (.dmaHalt 2 2 1 0x7001) (moving .movingIn 1 none)) (fun t => t.fget (F.dmaChnStatus_state 2) == 2 &&
      t.fget (F.dmaChnStatus_cause 2) == 2 && t.rd64 (R.dmaChnFaultLo 2) == 0x7001 && t.rd R.dmaStatus == 4) = true ∧
    ends (exec (.dmaRetry .host0 2 0xD4A1) (moving .movingIn 2 none)) (fun t => t.fget (F.dmaChnStatus_state 2) == 1) = true ∧
    ends (exec (.dmaRetry .host0 2 0xD4A0) (moving .movingIn 2 none)) (fun t => t.fget (F.dmaChnStatus_state 2) == 2 && t.rd 0xC010 == 1) = true ∧
    ends (exec (.dmaAbort .host0 2 0xD4A1) (moving .movingIn 2 none)) (fun t => vget t.dma.chan 2 == none && t.host.cmds == []) = true := by decide +kernel

/-- The Dray link up on lane 0, one event record to send, with credit for it. -/
def dray (lane : Option DrayFrame) (grant : W32) : State :=
  let s := on [(R.pairStatus, role .alone ||| 0x100), (R.drayPpStatus 0, 3), (R.drayStatus, 1), (R.drayChnGrant 2, grant)]
  { s with
    act := (on [(R.drayCfg, 0x40000F)]).regs
    dray := { s.dray with credited := true, events := [List.replicate 64 7], lane := vset s.dray.lane 0 lane } }
theorem dray_wf : (dray none 1).regsWf = true := by decide +kernel
theorem witness_dray_lanes : (dray none 1).laneUp 0 = true ∧ (dray none 1).laneUp 1 = false ∧ (on []).laneUp 0 = false ∧
    ends (exec (.drayLaneUp 0) (on [(R.drayChnUsed 1, 4)])) (fun t => t.fbit F.drayStatus_linkUp && t.fbit F.drayStatus_oneLane &&
      t.rd (R.drayChnUsed 1) == 0 && t.rd R.drayLinkups == 1) = true ∧
    ends (exec (.drayLaneUp 1) (dray none 1)) (fun t => !t.fbit F.drayStatus_oneLane) = true ∧
    ends (exec (.drayLaneDown 0) (dray (some { stream := 2, bytes := [1] }) 1)) (fun t => !t.fbit F.drayStatus_linkUp &&
      t.dray.resend == [{ stream := 2, bytes := [1] }] && t.rd (R.drayChnUsed 2) == 0xFFFFFFFF) = true := by decide +kernel
theorem witness_credit : ends (exec (.creditFrameRx #v[5, 6, 7, 0x80000001]) (dray none 1)) (fun t => t.rd (R.drayChnGrant 2) == 7 &&
    t.rd (R.drayChnGrant 3) == 0 && t.rd 0xD010 == 1) = true := by decide +kernel
theorem witness_dray_start : (dray none 1).streamOn 2 = true ∧ (dray none 1).streamReady 2 = true ∧ (dray none 1).drayNeed 2 = 1 ∧
    (dray none 1).credit 2 = 1 ∧ (dray none 1).flying 2 = 0 ∧
    ends (exec (.drayFrameStart 0) (dray none 1)) (fun t => (vget t.dray.lane 0).map (fun f => (f.stream, f.bytes.length)) == some (2, 84) &&
      t.dray.events == [] && t.rd (R.drayChnUsed 2) == 1) = true ∧
    ends (exec (.drayDry 2) (dray none 0)) (fun t => t.rd R.drayStatus == 0x11) = true := by decide +kernel
def resends : State := let s := dray none 1
  { s with dray := { s.dray with resend := [{ stream := 2, bytes := [1] }] } }
theorem witness_resend : resends.dray.resend.find? (fun g => g.stream == 2) = some { stream := 2, bytes := [1] } ∧ resends.drayNeed 2 = 1 ∧
    ends (exec (.drayFrameStart 0) resends) (fun t => vget t.dray.lane 0 == some { stream := 2, bytes := [1] } && t.dray.resend == []) = true := by
  decide +kernel
theorem witness_dray_end : ends (exec (.drayFrameEnd 0) (dray (some { stream := 2, bytes := [1] }) 1)) (fun t => t.out == [.drayFrame 0 [1]] &&
      t.rd64 (R.drayChnFramesLo 2) == 1) = true ∧
    ends (exec (.drayFrameEnd 0) (dray (some { stream := 3, bytes := [1], bulkEnd := some 5 }) 1)) (fun t => t.out == [.drayFrame 0 [1]]) = true := by
  decide +kernel

/-- The observation port enabled with both lanes up. -/
def obsOn : State := let s := on [(R.pairStatus, role .alone), (R.obsStatus, 3)]
  { s with act := (on [(R.obsCfg, 1)]).regs, mem := { s.mem with cleared := true } }
theorem obsOn_wf : obsOn.regsWf = true := by decide +kernel
/-- A selector frame for the counters in each F-cycle; its check was computed outside the model. -/
def selHead : List Byte := [1, 0x20] ++ leBytes 2 664 ++ leBytes 4 77 ++ leBytes 4 4 ++ [0xFF, 0] ++ leBytes 2 0 ++ leBytes 2 1
def selector : List Byte := (selHead ++ List.replicate 642 0) ++ leBytes 4 0xA1FD74E0
def crcRun (r : Nat) (bs : List Byte) : Nat := bs.foldl (fun r b => crc32Bits 8 (Nat.xor r b.toNat)) r
theorem crcRun_append (r : Nat) (a b : List Byte) : crcRun r (a ++ b) = crcRun (crcRun r a) b := List.foldl_append
theorem crc32_run (b : List Byte) : crc32 b = Nat.xor (crcRun 0xFFFFFFFF b) 0xFFFFFFFF := rfl
theorem crc_pieces : crcRun 0xFFFFFFFF selHead = 0x3A2DF440 ∧
    crcRun 0x3A2DF440 (List.replicate 107 0) = 0x8BF17F81 ∧
    crcRun 0x8BF17F81 (List.replicate 107 0) = 0x4A2CC0FB ∧
    crcRun 0x4A2CC0FB (List.replicate 107 0) = 0xAF492A17 ∧
    crcRun 0xAF492A17 (List.replicate 107 0) = 0xA35AAE81 ∧
    crcRun 0xA35AAE81 (List.replicate 107 0) = 0x71D7C71A ∧
    crcRun 0x71D7C71A (List.replicate 107 0) = 0x5E028B1F := by decide +kernel
theorem selector_check : crc32 (selector.take 660) = 0xA1FD74E0 := by
  have e : selector.take 660 = selHead ++ (List.replicate 107 0 ++ (List.replicate 107 0 ++ (List.replicate 107 0 ++
      (List.replicate 107 0 ++ (List.replicate 107 0 ++ List.replicate 107 0))))) := by decide +kernel
  obtain ⟨h0, h1, h2, h3, h4, h5, h6⟩ := crc_pieces
  rw [crc32_run, e, crcRun_append, h0, crcRun_append, h1, crcRun_append, h2, crcRun_append, h3, crcRun_append, h4, crcRun_append, h5, h6]
  decide
theorem selector_read : (readSelector selector).map (·.seq) = some 77 := by
  unfold readSelector
  simp only [selector_check]
  decide +kernel
theorem witness_selector : obsOn.selAllowed = true ∧ obsOn.obsPort = true ∧ obsOn.up = true ∧ obsOn.fbit F.obsStatus_linkIn = true ∧
    ends (exec (.selectorFrameRx [1]) obsOn) (fun t => t.rd R.obsIgnored == 1 && t.obs.next.isNone) = true ∧
    ends (exec (.obsLaneDown 1) obsOn) (fun t => t.rd R.obsStatus == 1 && t.obs.next == some none) = true ∧
    ends (exec (.obsLaneUp 0) (on [])) (fun t => t.rd R.obsStatus == 1) = true := by decide +kernel
def collected : State := { obsOn with obs := { obsOn.obs with coll := [.burst 0 1 [], .burst 8 1 [], .counters []] } }
theorem witness_obs_frame : ends (exec .observationFrameSend collected) (fun t => t.obs.coll == [.counters []] && t.out.length == 1) = true := by
  decide +kernel
/-- One CAT entry that grants every class every access in the first 16 GiB of the DRAM. -/
def grantedDram (s : State) : State :=
  let e : List (Nat × W32) := [(R.catEnteAddr 0, 0x71000000), (R.catEnteAttr 0, 0x3FFFFFFF)]
  { s with cat := { s.cat with eff := e, committed := e } }
/-- A burst of eight bytes of memory; the words of the DRAM never written are uncorrectable. -/
def bursts (a : Nat) (s : State) : State := { s with obs := { s.obs with reads := [(a, 8)] } }
/-- A byte of the burst's block is being committed by drupelet 0. -/
def burstHeld : State := let s := bursts 0x5000000 obsOn
  s.setDru 0 { s.dru 0 with win := some { (winAt {}) with phase := .committing true, stores := [{ addr := 0x5000000, size := 1, data := 1 }] } }
theorem witness_burst : (bursts 0x5000000 obsOn).commitSpan 0x5000000 8 = false ∧ (bursts 0x5000000 obsOn).obsRoom 24 = true ∧
    (bursts 0x5000000 obsOn).catDecide clsObs .read 0x5000000 = none ∧ (bursts 0x5000000 { obsOn with cat := {} }).catDecide clsObs .read 0x5000000 = some 1 ∧
    (bursts 0x5000000 obsOn).mem.badSpan 0x5000000 8 = false ∧ (bursts 0x1000000000 obsOn).mem.badSpan 0x1000000000 8 = true ∧
    (bursts 0x1000000000 (grantedDram obsOn)).catDecide clsObs .read 0x1000000000 = none ∧ regionOf 0x1000000000 = some .dram ∧
    burstHeld.commitSpan 0x5000000 8 = true := by decide +kernel
end Sys2Proof.Tests
end

section
/-! W1C bits (R8, R9): a write to `DIO_STATUS` that reaches the register, bit by bit. -/

namespace Sys2Proof.Machine

variable {s t u : State} {off i : Nat} {v hw : W32}

/-! Frames of single updates. -/

theorem onlyRegs_wr : onlyRegs [off] s (s.wr off v) := ⟨rfl, keepsRegs_wr (List.mem_singleton.2 rfl)⟩

theorem onlyRegs_fset {f : Field} {n : Nat} : onlyRegs [f.off] s (s.fset f n) := onlyRegs_wr

theorem onlyRegs_trans {l : List Nat} (h1 : onlyRegs l s t) (h2 : onlyRegs l t u) : onlyRegs l s u := by
  obtain ⟨e1, k1⟩ := h1
  obtain ⟨e2, k2⟩ := h2
  refine ⟨?_, keepsRegs_trans k1 k2⟩
  rw [e1] at e2
  exact e2

/-! Bits of a register. -/

/-- A field of one bit is that bit of its register. -/
theorem fbit_eq_getLsbD : s.fbit ⟨off, i, 1⟩ = (s.rd off).getLsbD i := by
  simp only [State.fbit, State.fget, fldN, Nat.pow_one, BitVec.getLsbD, Nat.testBit_eq_decide_div_mod_eq, beq_eq_decide]

/-- A one-bit field set to 1: that bit is set, and the register's other bits are as before. -/
theorem getLsbD_fset_one {b : Nat} (h : s.regsWf = true) (hb : b < 32) :
    ((s.fset ⟨off, b, 1⟩ 1).rd off).getLsbD i = (decide (i = b) || (s.rd off).getLsbD i) := by
  rw [← fbit_eq_getLsbD, ← fbit_eq_getLsbD]
  by_cases e : i = b
  · subst e
    simp [State.fbit, fget_fset h (f := ⟨off, i, 1⟩) hb]
  · have hne : (s.fset ⟨off, b, 1⟩ 1).fget ⟨off, i, 1⟩ = s.fget ⟨off, i, 1⟩ :=
      fget_fset_ne h hb (Or.inr (by simp only; omega))
    simp [State.fbit, hne, e]

/-! The write of W1C bits. -/

/-- The one W1C bit of `DIO_STATUS` is `HOLD_SEEN`, bit 6. -/
theorem getLsbD_regW1C_dioStatus : (regW1C R.dioStatus).getLsbD i = decide (i = 6) := by
  have e : regW1C R.dioStatus = BitVec.twoPow 32 6 := by decide
  rw [e, BitVec.getLsbD_twoPow]
  simp [eq_comm]

theorem regsWf_writeW1C (h : s.regsWf = true) : (s.writeW1C off v hw).regsWf = true := regsWf_wr h

theorem onlyRegs_writeW1C : onlyRegs [off] s (s.writeW1C off v hw) := onlyRegs_wr

/-- Each bit of the register stands but a W1C bit that the write clears and hardware does not set. -/
theorem getLsbD_writeW1C (h : s.regsWf = true) :
    ((s.writeW1C off v hw).rd off).getLsbD i =
      ((s.rd off).getLsbD i && !(v.getLsbD i && (regW1C off).getLsbD i && !hw.getLsbD i)) := by
  rw [State.writeW1C, rd_wr_self h]
  by_cases hi : i < 32
  · simp [hi]
  · simp [BitVec.getLsbD_of_ge _ i (Nat.le_of_not_lt hi)]

/-- A write that reaches `DIO_STATUS` in a clock in which hardware sets nothing. -/
theorem exec_w1cClear_quiet {m : Master} (hm : s.writes m R.dioStatus) :
    exec (.w1cClear m v false) s = .next (s.writeW1C R.dioStatus v 0) := by
  obtain ⟨hr, ho, hc⟩ := hm
  simp [exec_w1cClear, execW1cClear, State.when, hr, setupAccess_granted ho hc]

/-- A write that reaches `DIO_STATUS` in the clock in which hardware sets `HOLD_SEEN`. -/
theorem exec_w1cClear_set {m : Master} (hm : s.writes m R.dioStatus) :
    exec (.w1cClear m v true) s =
      .next ((s.writeW1C R.dioStatus v (regW1C R.dioStatus)).fset F.dioStatus_holdSeen 1) := by
  obtain ⟨hr, ho, hc⟩ := hm
  simp [exec_w1cClear, execW1cClear, State.when, hr, setupAccess_granted ho hc]

/-- Settles O19: without hardware the write alone decides `HOLD_SEEN`; with it the write clears nothing and the bit is then
set (R9). -/
theorem writeOneClears : Obligations.WriteOneClears := by
  unfold Obligations.WriteOneClears
  intro m v hw s hs hm
  cases hw with
  | false =>
    refine ⟨_, exec_w1cClear_quiet hm, onlyRegs_writeW1C, fun i => ?_⟩
    rw [getLsbD_writeW1C hs, getLsbD_regW1C_dioStatus]
    by_cases hi : i = 6 <;> simp [hi]
  | true =>
    refine ⟨_, exec_w1cClear_set hm, onlyRegs_trans onlyRegs_writeW1C onlyRegs_fset, fun i => ?_⟩
    rw [getLsbD_fset_one (regsWf_writeW1C hs) (by decide), getLsbD_writeW1C hs, getLsbD_regW1C_dioStatus]
    by_cases hi : i = 6 <;> simp [hi]

end Sys2Proof.Machine
end

section
/-! Drupelet instructions (R104 to R110): what an instruction answers where its word spells none or its PC lies in the header,
and what the families of register instructions compute. -/

namespace Sys2Proof.Machine

variable {s s' : State} {be d a b : Fin 32} {ecc : Ecc} {i : Instr} {w : Window} {x : W32}

/-! Instructions that do not run. -/

/-- A word that spells no instruction raises `ILLEGAL` at the PC (R110). -/
theorem instr_of_decodeDru_none {body : State → Window → State × OpRes} (h : AtWord be w x s s')
    (hd : decodeDru be ecc x = none) :
    s.instr be ecc i body = (s'.stepRecord w w x false true).exception be w .illegal w.core.pc 0 0 := by
  obtain ⟨hwin, hrun, hroom, htrace, hbank, hfetch⟩ := h
  have hg : ¬(w.phase ≠ .running ∨ storeCount w ≥ 2048 ∨ (w.traced ∧ !s.obsRoom 24)) := by
    rintro (hr | hr | ⟨ht, hr⟩)
    · exact hr hrun
    · omega
    · simp_all
  simp only [State.instr, hwin, if_neg hg, if_neg (Nat.not_lt.2 hbank), hfetch, hd]

/-- A PC in the header raises `FETCH` (R123, R129). -/
theorem instr_of_pc_lt {body : State → Window → State × OpRes} (hwin : (s.dru be).win = some w) (hrun : w.phase = .running)
    (hroom : storeCount w < 2048) (htrace : w.traced = false) (hpc : w.core.pc.toNat < 0x100) :
    s.instr be ecc i body = s.exception be w .fetch w.core.pc 0 0 := by
  have hg : ¬(w.phase ≠ .running ∨ storeCount w ≥ 2048 ∨ (w.traced ∧ !s.obsRoom 24)) := by
    rintro (hr | hr | ⟨ht, -⟩)
    · exact hr hrun
    · omega
    · simp_all
  simp only [State.instr, hwin, if_neg hg, if_pos hpc]

/-- A window that is no trace replica leaves no step record (R450). -/
theorem stepRecord_of_not_traced {w' : Window} {ended exc : Bool} (h : w.traced = false) :
    s.stepRecord w w' x ended exc = s := by
  simp [State.stepRecord, h]

/-! Register instructions. -/

@[simp] theorem gSet_pc (c : Core) (i : Fin 32) (v : W64) : (gSet c i v).pc = c.pc := by
  unfold gSet; split <;> rfl

@[simp] theorem gSet_fl (c : Core) (i : Fin 32) (v : W64) : (gSet c i v).fl = c.fl := by
  unfold gSet; split <;> rfl

theorem nextPc_gSet (c : Core) (i : Fin 32) (v : W64) : nextPc (gSet c i v) = result c i v := by
  simp only [nextPc, result, gSet_pc]

theorem nextPc_setFlags_gSet (c : Core) (i : Fin 32) (v : W64) (fl : Nat) :
    nextPc (setFlags (gSet c i v) fl) = resultFl c i v (BitVec.ofNat 64 fl) := by
  simp only [nextPc, setFlags, resultFl, result, gSet_pc, gSet_fl]

/-- An instruction that writes Gd computes a result. -/
theorem computes_result {f v : Core → W64} (he : ∀ s, exec i s = s.regOp be i (fun c => gSet c d (f c)))
    (hv : ∀ c, f c = v c) : Computes be i (fun c => result c d (v c)) :=
  computes_regOp he fun c => by rw [nextPc_gSet, hv]

/-- An operation on Ga and Gb computes its value (R112). -/
theorem computes_intOp {f : W64 → W64 → W64} {v : Core → W64} (he : ∀ s, exec i s = s.intOp be d a b i f)
    (hv : ∀ c, f (gReg c a) (gReg c b) = v c) : Computes be i (fun c => result c d (v c)) :=
  computes_result he hv

/-- An operation on Ga alone computes its value (R111, R112). -/
theorem computes_immOp {f : W64 → W64} {v : Core → W64} (he : ∀ s, exec i s = s.immOp be d a i f)
    (hv : ∀ c, f (gReg c a) = v c) : Computes be i (fun c => result c d (v c)) :=
  computes_result he hv

/-- An operation on Ga and Gb that may set flags computes its value and its flags (R108, R113). -/
theorem computes_intOpF {f : W64 → W64 → W64 × Nat} {v fl : Core → W64} (he : ∀ s, exec i s = s.intOpF be d a b i f)
    (hv : ∀ c, (f (gReg c a) (gReg c b)).1 = v c) (hfl : ∀ c, BitVec.ofNat 64 (f (gReg c a) (gReg c b)).2 = fl c) :
    Computes be i (fun c => resultFl c d (v c) (fl c)) :=
  computes_regOp he fun c => by rw [nextPc_setFlags_gSet, hv, hfl]

end Sys2Proof.Machine
end

section
/-! Branches and jumps (R111, R123, R127). -/

namespace Sys2Proof.Machine

/-- A target in the code is where the window goes on (R123). -/
theorem jumpTo_of_inside {w : Window} {c : Core} {target : Int} (h4 : target % 4 = 0) (hlo : 0x100 ≤ target)
    (hhi : target < 2 ^ 24) : jumpTo w c target = .go { w with core := { c with pc := BitVec.ofInt 24 target } } :=
  if_neg (by omega)

/-- A target that is no multiple of 4 or lies outside the code raises `FETCH` at it (R123). -/
theorem jumpTo_of_outside {w : Window} {c : Core} {target : Int}
    (h : target % 4 ≠ 0 ∨ target < 0x100 ∨ 2 ^ 24 ≤ target) :
    jumpTo w c target = .exc .fetch (BitVec.ofInt 24 target) 0 0 :=
  if_pos h

/-- A conditional branch of the model is one (R127). -/
theorem branches_branchOp {be : Fin 32} {i : Instr} {cond : Core → Bool} {off : Int}
    (he : ∀ s, exec i s = s.branchOp be i cond off) : Branches be i cond off := by
  intro s s' w x h hd
  simp only [he, State.branchOp, instr_atWord h hd]
  refine ⟨fun hc => ?_, fun hc h4 hlo hhi => ?_, fun hc hout => ?_⟩
  · simp [hc, goesOn, nextPc, feedBranch]
  · simp [hc, jumpTo_of_inside h4 hlo hhi, goesOn, feedBranch]
  · simp [hc, jumpTo_of_outside hout, raises]

/-- The condition of a branch counts by its values only. -/
theorem Branches.congr {be : Fin 32} {i : Instr} {cond cond' : Core → Bool} {off : Int} (h : Branches be i cond off)
    (hc : ∀ c, cond c = cond' c) : Branches be i cond' off :=
  funext hc ▸ h

/-- A jump of the model is one (R111, R123). -/
theorem jumps_jumpOp {be : Fin 32} {i : Instr} {link : Bool} {target : Core → Int}
    (he : ∀ s, exec i s = s.jumpOp be i link target) : Jumps be i link target := by
  intro s s' w x h hd
  simp only [he, State.jumpOp, instr_atWord h hd]
  refine ⟨fun h4 hlo hhi => ?_, fun hout => ?_⟩
  · rw [jumpTo_of_inside h4 hlo hhi]
    cases link <;> rfl
  · rw [jumpTo_of_outside hout]
    rfl

/-- Not below is at or above, signed and unsigned. -/
theorem not_slt_eq_decide (x y : W64) : (!x.slt y) = decide (y.toInt ≤ x.toInt) := by
  simp [BitVec.slt, ← decide_not]

theorem not_ult_eq_decide (x y : W64) : (!x.ult y) = decide (y.toNat ≤ x.toNat) := by
  simp [BitVec.ult, ← decide_not]

/-- Settles O11: each branch and jump is the model's shared one, with its own condition or target. -/
theorem branchesAndJumps : Obligations.BranchesAndJumps := by
  unfold Obligations.BranchesAndJumps
  intro be a b bit off off15 off26
  refine ⟨?bbs, ?bbc, ?beq, ?bne, ?blt, ?bge, ?bltu, ?bgeu, ?jr, ?callr, ?ret, ?j, ?call⟩
  case bbs => exact branches_branchOp (fun s => exec_bbs s ..)
  case bbc => exact branches_branchOp (fun s => exec_bbc s ..)
  case beq => exact branches_branchOp (fun s => exec_beq s ..)
  case bne => exact (branches_branchOp (fun s => exec_bne s ..)).congr fun c => by simp [bne, beq_eq_decide]
  case blt => exact branches_branchOp (fun s => exec_blt s ..)
  case bge => exact (branches_branchOp (fun s => exec_bge s ..)).congr fun c => not_slt_eq_decide _ _
  case bltu => exact branches_branchOp (fun s => exec_bltu s ..)
  case bgeu => exact (branches_branchOp (fun s => exec_bgeu s ..)).congr fun c => not_ult_eq_decide _ _
  case jr => exact jumps_jumpOp (fun s => exec_jr s ..)
  case callr => exact jumps_jumpOp (fun s => exec_callr s ..)
  case ret => exact jumps_jumpOp (fun s => exec_ret s ..)
  case j => exact jumps_jumpOp (fun s => exec_j s ..)
  case call => exact jumps_jumpOp (fun s => exec_call s ..)

end Sys2Proof.Machine
end

section
/-! The INT functions (R112, R113): the values and flags of the model's operations, as the functions of the table. -/

namespace Sys2Proof.Machine

variable (x y : W64)

/-! Comparisons. -/

theorem ofBool64_decide (p : Prop) [Decidable p] : ofBool64 (decide p) = if p then 1 else 0 := by
  by_cases h : p <;> simp [ofBool64, Sys2Proof.bit, h]

/-- The smaller of two words by a key: where the keys are equal, the first. -/
theorem ite_key_lt_min {α : Type} [LinearOrder α] (k : W64 → α) :
    (if decide (k y < k x) then y else x) = if k x ≤ k y then x else y := by
  simp only [decide_eq_true_eq, ← not_le, ite_not]

/-- The larger of two words by a key that tells words apart. -/
theorem ite_key_lt_max {α : Type} [LinearOrder α] (k : W64 → α) (hk : Function.Injective k) :
    (if decide (k x < k y) then y else x) = if k x ≤ k y then y else x := by
  rcases lt_trichotomy (k x) (k y) with h | h | h
  · simp [h, h.le]
  · simp [hk h]
  · simp [not_lt.2 h.le, not_le.2 h]

/-! Rotation. -/

theorem opShift_ror {n : Nat} (hn : n < 64) : opShift .ror x n = (x >>> n) ||| (x <<< (64 - n)) := by
  rw [opShift, BitVec.rotateRight_def, Nat.mod_eq_of_lt hn]

/-! Counts of bits. -/

/-- The leading zeros stand above the highest bit set. -/
theorem opClz_eq_clz : opClz x = x.clz := by
  unfold opClz
  split
  next h => subst h; decide
  next h =>
    have hlo : 2 ^ (63 - x.clz.toNat) ≤ x.toNat := BitVec.two_pow_sub_clz_le_toNat_of_ne_zero (by decide) h
    have hhi : x.toNat < 2 ^ (64 - x.clz.toNat) := BitVec.toNat_lt_two_pow_sub_clz
    have hlt : x.clz.toNat < 64 := by simpa [BitVec.lt_def] using BitVec.clz_lt_iff_ne_zero.2 h
    have hlog : x.toNat.log2 = 63 - x.clz.toNat :=
      (Nat.log2_eq_iff fun h0 => h (BitVec.eq_of_toNat_eq h0)).2
        ⟨hlo, by rwa [show 63 - x.clz.toNat + 1 = 64 - x.clz.toNat by omega]⟩
    rw [hlog, show 63 - (63 - x.clz.toNat) = x.clz.toNat by omega, BitVec.ofNat_toNat, BitVec.setWidth_eq]

/-- The bits set below `n`, counted from either end. -/
theorem length_filter_getLsbD (n : Nat) : ((List.range n).filter (fun i => x.getLsbD i)).length = x.cpopNatRec n 0 := by
  induction n with
  | zero => rfl
  | succ n ih =>
    rw [List.range_succ, List.filter_append, List.length_append, ih, BitVec.cpopNatRec_succ, BitVec.cpopNatRec_add]
    cases h : x.getLsbD n <;> simp [h]

theorem opPopc_eq_cpop : opPopc x = x.cpop := by
  rw [opPopc, length_filter_getLsbD, BitVec.cpop]

/-! Products. -/

theorem opMulh_eq_extract : opMulh x y = (x.signExtend 128 * y.signExtend 128).extractLsb' 64 64 := by
  have hp : x.signExtend 128 * y.signExtend 128 = BitVec.ofInt 128 (x.toInt * y.toInt) := by
    rw [BitVec.ofInt_mul]; rfl
  rw [hp, opMulh]
  generalize x.toInt * y.toInt = z
  apply BitVec.eq_of_toNat_eq
  simp only [BitVec.toNat_ofInt, BitVec.extractLsb'_toNat, Nat.shiftRight_eq_div_pow]
  omega

theorem opMulhu_eq_extract : opMulhu x y = (x.zeroExtend 128 * y.zeroExtend 128).extractLsb' 64 64 := by
  apply BitVec.eq_of_toNat_eq
  have hx : x.toNat % 2 ^ 128 = x.toNat := Nat.mod_eq_of_lt (x.isLt.trans (by decide))
  have hy : y.toNat % 2 ^ 128 = y.toNat := Nat.mod_eq_of_lt (y.isLt.trans (by decide))
  simp only [opMulhu, BitVec.toNat_ofNat, BitVec.extractLsb'_toNat, BitVec.toNat_mul, BitVec.truncate_eq_setWidth,
    BitVec.toNat_setWidth, Nat.shiftRight_eq_div_pow, hx, hy]
  generalize x.toNat * y.toNat = p
  omega

/-! Operations on the low words. -/

theorem wSext_add : wSext (x.toNat + y.toNat) = (x.extractLsb' 0 32 + y.extractLsb' 0 32).signExtend 64 := by
  rw [wSext]; congr 1; apply BitVec.eq_of_toNat_eq; simp

theorem wSext_sub : wSext (x - y).toNat = (x.extractLsb' 0 32 - y.extractLsb' 0 32).signExtend 64 := by
  rw [wSext]; congr 1; apply BitVec.eq_of_toNat_eq; simp; omega

theorem wSext_mul : wSext (x.toNat * y.toNat) = (x.extractLsb' 0 32 * y.extractLsb' 0 32).signExtend 64 := by
  rw [wSext]; congr 1; apply BitVec.eq_of_toNat_eq; simp [Nat.mul_mod]

/-! Divisions (R113). -/

theorem toInt_eq_iMin : x.toInt = iMin ↔ x = BitVec.intMin 64 := by
  rw [← BitVec.toInt_inj]; rfl

theorem toInt_eq_neg_one : y.toInt = -1 ↔ y = -1 := by
  rw [← BitVec.toInt_inj]; rfl

/-- The flags of a signed division. -/
def divFlags (x y : W64) : W64 := if y = 0 then 0x20 else if x = BitVec.intMin 64 ∧ y = -1 then 0x40 else 0

theorem opDivS_flags : BitVec.ofNat 64 (opDivS x y).2.2 = divFlags x y := by
  simp only [opDivS, divFlags, toInt_eq_iMin, toInt_eq_neg_one]
  split_ifs <;> rfl

theorem opDivS_quotient : (opDivS x y).1 = if y = 0 then 0 else if x = BitVec.intMin 64 ∧ y = -1 then BitVec.intMin 64
    else BitVec.ofInt 64 (x.toInt.tdiv y.toInt) := by
  simp only [opDivS, toInt_eq_iMin, toInt_eq_neg_one]
  split_ifs with _ h
  · rfl
  · exact h.1
  · rfl

theorem opDivS_remainder : (opDivS x y).2.1 = if y = 0 then x else if x = BitVec.intMin 64 ∧ y = -1 then 0
    else BitVec.ofInt 64 (x.toInt.tmod y.toInt) := by
  simp only [opDivS, toInt_eq_iMin, toInt_eq_neg_one]
  split_ifs <;> rfl

theorem opDivU_flags : BitVec.ofNat 64 (opDivU x y).2.2 = if y = 0 then 0x20 else 0 := by
  unfold opDivU; split <;> rfl

theorem opDivU_quotient : (opDivU x y).1 = if y = 0 then 0 else BitVec.ofNat 64 (x.toNat / y.toNat) := by
  unfold opDivU; split <;> rfl

theorem opDivU_remainder : (opDivU x y).2.1 = if y = 0 then x else BitVec.ofNat 64 (x.toNat % y.toNat) := by
  unfold opDivU; split <;> rfl

/-! Saturation (R113). -/

theorem opSat_value (z : Int) : (opSat z).1 = BitVec.ofInt 64 (max (-2 ^ 63) (min (2 ^ 63 - 1) z)) := by
  unfold opSat iMin iMax
  split_ifs with hlo hhi
  · rw [max_eq_left (by omega)]
  · rw [min_eq_left hhi.le]; rfl
  · rw [min_eq_right (by omega), max_eq_right (by omega)]

theorem opSat_flags (z : Int) : BitVec.ofNat 64 (opSat z).2 = if -2 ^ 63 ≤ z ∧ z ≤ 2 ^ 63 - 1 then 0 else 0x80 := by
  unfold opSat iMin iMax
  by_cases h : -2 ^ 63 ≤ z ∧ z ≤ 2 ^ 63 - 1
  · rw [if_neg (not_lt.2 h.1), if_neg (not_lt.2 h.2), if_pos h]
    rfl
  · rw [if_neg h]
    split_ifs
    · rfl
    · rfl
    · omega

/-! The obligation. -/

/-- Settles O6: each INT function is a shared register operation, and its value and flags are those of the table. -/
theorem integerResults : Obligations.IntegerResults := by
  unfold Obligations.IntegerResults
  refine ⟨fun be d a b => ?plain, fun be d a b => ?products, fun be d a b => ?flagged⟩
  case plain =>
    refine ⟨?add, ?sub, ?and, ?or, ?xor, ?shl, ?shr, ?sar, ?ror, ?slt, ?sltu, ?seq, ?min, ?max, ?minu, ?maxu, ?clz, ?popc,
      ?sel⟩
    case add => exact computes_intOp (fun s => exec_add s ..) fun _ => rfl
    case sub => exact computes_intOp (fun s => exec_sub s ..) fun _ => rfl
    case and => exact computes_intOp (fun s => exec_and s ..) fun _ => rfl
    case or => exact computes_intOp (fun s => exec_or s ..) fun _ => rfl
    case xor => exact computes_intOp (fun s => exec_xor s ..) fun _ => rfl
    case shl => exact computes_intOp (fun s => exec_shl s ..) fun _ => rfl
    case shr => exact computes_intOp (fun s => exec_shr s ..) fun _ => rfl
    case sar => exact computes_intOp (fun s => exec_sar s ..) fun _ => rfl
    case ror => exact computes_intOp (fun s => exec_ror s ..) fun _ => opShift_ror _ (Nat.mod_lt _ (by decide))
    case slt => exact computes_intOp (fun s => exec_slt s ..) fun _ => ofBool64_decide _
    case sltu => exact computes_intOp (fun s => exec_sltu s ..) fun _ => ofBool64_decide _
    case seq => exact computes_intOp (fun s => exec_seq s ..) fun _ => ofBool64_decide _
    case min => exact computes_intOp (fun s => exec_min s ..) fun _ => ite_key_lt_min _ _ BitVec.toInt
    case max => exact computes_intOp (fun s => exec_max s ..) fun _ =>
      ite_key_lt_max _ _ BitVec.toInt fun _ _ => BitVec.eq_of_toInt_eq
    case minu => exact computes_intOp (fun s => exec_minu s ..) fun _ => ite_key_lt_min _ _ BitVec.toNat
    case maxu => exact computes_intOp (fun s => exec_maxu s ..) fun _ =>
      ite_key_lt_max _ _ BitVec.toNat fun _ _ => BitVec.eq_of_toNat_eq
    case clz => exact computes_immOp (fun s => exec_clz s ..) fun _ => opClz_eq_clz _
    case popc => exact computes_immOp (fun s => exec_popc s ..) fun _ => opPopc_eq_cpop _
    case sel => exact computes_result (fun s => exec_sel s ..) fun _ => rfl
  case products =>
    refine ⟨?mul, ?mulh, ?mulhu, ?addw, ?subw, ?mulw⟩
    case mul => exact computes_intOp (fun s => exec_mul s ..) fun _ => rfl
    case mulh => exact computes_intOp (fun s => exec_mulh s ..) fun _ => opMulh_eq_extract _ _
    case mulhu => exact computes_intOp (fun s => exec_mulhu s ..) fun _ => opMulhu_eq_extract _ _
    case addw => exact computes_intOp (fun s => exec_addw s ..) fun _ => wSext_add _ _
    case subw => exact computes_intOp (fun s => exec_subw s ..) fun _ => wSext_sub _ _
    case mulw => exact computes_intOp (fun s => exec_mulw s ..) fun _ => wSext_mul _ _
  case flagged =>
    refine ⟨⟨?div, ?rem⟩, ?divu, ?remu, ?addsat, ?subsat⟩
    case div => exact computes_intOpF (fun s => exec_div s ..) (fun _ => opDivS_quotient _ _) fun _ => opDivS_flags _ _
    case rem => exact computes_intOpF (fun s => exec_rem s ..) (fun _ => opDivS_remainder _ _) fun _ => opDivS_flags _ _
    case divu => exact computes_intOpF (fun s => exec_divu s ..) (fun _ => opDivU_quotient _ _) fun _ => opDivU_flags _ _
    case remu => exact computes_intOpF (fun s => exec_remu s ..) (fun _ => opDivU_remainder _ _) fun _ => opDivU_flags _ _
    case addsat => exact computes_intOpF (fun s => exec_addsat s ..) (fun _ => opSat_value _) fun _ => opSat_flags _
    case subsat => exact computes_intOpF (fun s => exec_subsat s ..) (fun _ => opSat_value _) fun _ => opSat_flags _

end Sys2Proof.Machine
end

section
/-! Bit fields (R114), and the words and PCs at which no instruction runs (R110, R123, R129). -/

namespace Sys2Proof.Machine

/-! The fields. -/

theorem bfGet_eq_toNat (x : W64) (pos len1 : Nat) : bfGet x pos len1 = (x.extractLsb' pos (len1 + 1)).toNat := by
  rw [bfGet, fldN, BitVec.extractLsb'_toNat, Nat.shiftRight_eq_div_pow]

theorem sextN_toNat {n : Nat} (z : BitVec (n + 1)) : sextN (n + 1) z.toNat = z.toInt := by
  have h2 : 2 ^ (n + 1) = 2 * 2 ^ n := Nat.pow_succ'
  rw [sextN, BitVec.toInt, Nat.mod_eq_of_lt z.isLt, Nat.add_sub_cancel]
  refine if_congr ?_ rfl rfl
  omega

/-- Inside the field the bits are the low bits put in, outside it they stand. -/
theorem testBit_setFldN (x lo n v i : Nat) :
    (setFldN x lo n v).testBit i = if lo ≤ i ∧ i < lo + n then v.testBit (i - lo) else x.testBit i := by
  have e : setFldN x lo n v = 2 ^ lo * (2 ^ n * (x / 2 ^ (lo + n)) + v % 2 ^ n) + x % 2 ^ lo := by
    rw [setFldN_split, Nat.pow_add]; ring
  rw [e, Nat.testBit_two_pow_mul_add _ (Nat.mod_lt _ (Nat.two_pow_pos lo)),
    Nat.testBit_two_pow_mul_add _ (Nat.mod_lt _ (Nat.two_pow_pos n)), Nat.testBit_mod_two_pow, Nat.testBit_mod_two_pow,
    Nat.testBit_div_two_pow]
  by_cases hlo : i < lo
  · simp [hlo, Nat.not_le.2 hlo]
  · by_cases hhi : i < lo + n
    · simp [hlo, Nat.le_of_not_lt hlo, hhi, show i - lo < n by omega]
    · simp [hlo, hhi, show ¬ i - lo < n by omega, show i - lo - n + (lo + n) = i by omega]

/-- A word put into a field of another, as the word with those bits (R114). -/
theorem ofNat_setFldN_eq {x y v : W64} {pos n : Nat}
    (hv : ∀ i, v.getLsbD i = if pos ≤ i ∧ i < pos + n then y.getLsbD (i - pos) else x.getLsbD i) :
    BitVec.ofNat 64 (setFldN x.toNat pos n y.toNat) = v := by
  apply BitVec.eq_of_getLsbD_eq
  intro i hi
  rw [hv, BitVec.getLsbD_ofNat, testBit_setFldN]
  simp [hi, BitVec.getLsbD]

/-- A field that ends beyond bit 63 spells no instruction (R114). -/
theorem decodeDru_field_beyond {x : W32} (be : Fin 32) (ecc : Ecc) (hop : wfld x 26 6 = 5)
    (hlen : 64 < wfld x 10 6 + wfld x 4 6 + 1) : decodeDru be ecc x = none := by
  have h6 (lo : Nat) : wfld x lo 6 % 64 = wfld x lo 6 := Nat.mod_mod _ _
  simp only [decodeDru, hop, decBf, Fin.val_ofNat, h6, if_pos hlen]

/-! Every instruction that a word spells runs as `State.instr` does: it looks at the window, the PC and the word before it
acts. -/

/-- What a decoder gives, where it gives an instruction, runs on drupelet `be` as every drupelet instruction. -/
def RunsAtWord (be : Fin 32) (o : Option Instr) : Prop :=
  ∀ i, o = some i → ∃ ecc body, ∀ s, exec i s = .next (s.instr be ecc i body)

variable {be d a b c : Fin 32} {ecc : Ecc} {p : Bool} {imm : BitVec 16} {pos len1 : Fin 64}

theorem RunsAtWord.none : RunsAtWord be none := fun _ h => nomatch h

theorem RunsAtWord.some {i : Instr} {body : State → Window → State × OpRes}
    (he : ∀ s, exec i s = .next (s.instr be ecc i body)) : RunsAtWord be (some i) := by
  rintro _ ⟨⟩
  exact ⟨ecc, body, he⟩

theorem RunsAtWord.guarded {q : Prop} [Decidable q] {o : Option Instr} (h : RunsAtWord be o) :
    RunsAtWord be (if q then o else Option.none) := by
  split
  · exact h
  · exact .none

theorem runsAtWord_decInt (func : Nat) : RunsAtWord be (decInt be d a b func) := by
  unfold decInt
  split
  case h_30 | h_31 => exact .guarded (.some fun _ => rfl)
  case h_32 => exact .none
  all_goals exact .some fun _ => rfl

theorem runsAtWord_decFp (func : Nat) : RunsAtWord be (decFp be d a b p func) := by
  unfold decFp
  split
  case h_5 => exact .guarded (.some fun _ => rfl)
  case h_13 => exact .none
  all_goals exact .some fun _ => rfl

theorem runsAtWord_decCvt (func : Nat) : RunsAtWord be (decCvt be d a b p func) := by
  unfold decCvt
  split
  case h_5 => exact .guarded (.some fun _ => rfl)
  case h_6 =>
    cases p with
    | false => exact .some fun _ => rfl
    | true => exact .none
  case h_9 => exact .none
  all_goals exact .some fun _ => rfl

theorem runsAtWord_decFma (func : Nat) : RunsAtWord be (decFma be d a b c p func) := by
  unfold decFma
  split
  case h_5 => exact .none
  all_goals exact .some fun _ => rfl

theorem runsAtWord_decBf (func : Nat) : RunsAtWord be (decBf be d a pos len1 func) := by
  unfold decBf
  split
  · exact .none
  split
  case h_4 => exact .none
  all_goals exact .some fun _ => rfl

theorem runsAtWord_decLoadM (base : DBase) (op : Nat) : RunsAtWord be (decLoadM be d base imm ecc op) := by
  unfold decLoadM
  split
  case h_12 => exact .none
  all_goals exact .some fun _ => rfl

theorem runsAtWord_decLoadX (op : Nat) : RunsAtWord be (decLoadX be d a imm ecc op) := by
  unfold decLoadX
  split
  case h_12 => exact .none
  all_goals exact .some fun _ => rfl

theorem runsAtWord_decBranch (op : Nat) : RunsAtWord be (decBranch be a b imm op) := by
  unfold decBranch
  split
  case h_7 => exact .none
  all_goals exact .some fun _ => rfl

theorem runsAtWord_decSpc (sel func : Nat) : RunsAtWord be (decSpc be d a sel func) := by
  unfold decSpc
  split
  · split
    · exact .some fun _ => rfl
    · exact .none
  · split
    · exact .some fun _ => rfl
    · exact .guarded (.some fun _ => rfl)
  · exact .none

theorem runsAtWord_decCtl (func : Nat) : RunsAtWord be (decCtl be imm func) := by
  unfold decCtl
  split
  case h_4 => exact .some fun _ => rfl
  case h_5 => exact .none
  all_goals exact .guarded (.some fun _ => rfl)

theorem runsAtWord_decJmp (sel func : Nat) : RunsAtWord be (decJmp be d a sel func) := by
  unfold decJmp
  split
  · exact .none
  split
  case h_4 => exact .none
  all_goals exact .some fun _ => rfl

theorem runsAtWord_decodeDru (x : W32) : RunsAtWord be (decodeDru be ecc x) := by
  unfold decodeDru
  dsimp only
  split
  case h_1 => exact .guarded (runsAtWord_decInt _)
  case h_2 => exact .guarded (runsAtWord_decFp _)
  case h_3 => exact runsAtWord_decFma _
  case h_4 => exact .guarded (runsAtWord_decCvt _)
  case h_5 => exact runsAtWord_decBf _
  case h_12 | h_13 | h_14 | h_15 => exact .guarded (.some fun _ => rfl)
  case h_16 => exact .guarded (runsAtWord_decSpc _ _)
  case h_17 => exact .guarded (runsAtWord_decCtl _)
  case h_18 => exact .guarded (runsAtWord_decJmp _ _)
  case h_23 =>
    split
    · split
      · split
        · exact runsAtWord_decLoadM _ _
        · exact .none
      · exact .none
    · split
      · exact runsAtWord_decLoadX _
      · exact .guarded (runsAtWord_decBranch _)
  all_goals exact .some fun _ => rfl

/-- Settles O8: the field operations are shared register operations; and every instruction that a word spells looks at the
PC and at the word before it acts, so that a word that spells none raises `ILLEGAL` and a PC in the header `FETCH`. -/
theorem bitFieldsAndIllegalWords : Obligations.BitFieldsAndIllegalWords := by
  unfold Obligations.BitFieldsAndIllegalWords
  refine ⟨fun be d a pos len1 _ => ⟨?bextu, ?bexts, fun v hv => ?bins⟩, fun be ecc x => decodeDru_field_beyond be ecc,
    fun i be ecc y hy => ?noRun⟩
  case bextu =>
    exact computes_immOp (fun s => exec_bextu s ..) fun c => by rw [bfGet_eq_toNat, BitVec.ofNat_toNat]
  case bexts =>
    exact computes_immOp (fun s => exec_bexts s ..) fun c => by rw [bfGet_eq_toNat, sextN_toNat, BitVec.signExtend]
  case bins =>
    exact computes_result (fun s => exec_bins s ..) fun c => ofNat_setFldN_eq (hv c)
  case noRun =>
    obtain ⟨e, body, hrun⟩ := runsAtWord_decodeDru y i hy
    refine ⟨fun s s' w x h ht hx => ?_, fun s w hwin hph hroom ht hpc => ?_⟩
    · rw [hrun, instr_of_decodeDru_none h (hx e), stepRecord_of_not_traced ht]
    · rw [hrun, instr_of_pc_lt hwin hph hroom ht hpc]

end Sys2Proof.Machine
end

section
/-! Reads of paired registers (R471): the latches of the upper halves, and what a read of an RO register answers. -/

namespace Sys2Proof.Machine

variable {s t : State} {m : Master} {cls off k o j p : Nat} {v : W32} {r : RegRow} {l : List (Nat × Nat × W32)}

/-! The latches: one for each reader and pair. -/

/-- The latches after reader `k` latches `v` for the upper half at `o`, in place of what it had latched there. -/
def latchPut (l : List (Nat × Nat × W32)) (k o : Nat) (v : W32) : List (Nat × Nat × W32) :=
  (k, o, v) :: l.filter (fun e => e.1 ≠ k || e.2.1 ≠ o)

theorem find?_latchPut_self : (latchPut l k o v).find? (fun e => e.1 == k && e.2.1 == o) = some (k, o, v) := by
  simp [latchPut]

theorem find?_latchPut_ne (h : j ≠ k ∨ p ≠ o) :
    (latchPut l k o v).find? (fun e => e.1 == j && e.2.1 == p) = l.find? (fun e => e.1 == j && e.2.1 == p) := by
  have hnew : (k == j && o == p) = false := by
    rw [Bool.and_eq_false_iff, beq_eq_false_iff_ne, beq_eq_false_iff_ne]
    exact h.imp Ne.symm Ne.symm
  simp only [latchPut, List.find?_cons, hnew, List.find?_filter]
  congr 1
  funext ⟨a, b, _⟩
  by_cases he : a = j ∧ b = p
  · obtain ⟨rfl, rfl⟩ := he
    simpa using h
  · have hother : (a == j && b == p) = false := by simpa using he
    simp [hother]

/-! A read of the register. -/

/-- A register that is not WO, outside what a cartridge serves, reads as its value (R8). -/
theorem readReg_of_access_ne_wo (hrow : regRow off = some r) (hacc : r.access ≠ .wo) (hcart : off < 0x13100 ∨ 0x14000 ≤ off) :
    s.readReg cls off = (s, some (s.rd off)) := by
  have hout : ¬ (0x13100 ≤ off ∧ off < 0x14000 ∧ (!s.cartLink) = true) := by omega
  rw [State.readReg, if_neg hout]
  simp only [hrow, if_neg hacc]

/-- A read of a lower half latches the upper half for the reader. -/
theorem readLatched_lo (hreg : s.readReg (masterCls m) off = (s, some v)) (hlo : isLo off = true) :
    s.readLatched m off = ({ s with latch := latchPut s.latch (masterLatch m) (off + 4) (s.rd (off + 4)) }, some v) := by
  simp [State.readLatched, hreg, hlo, latchPut]

/-- What the reader latched is what a read of any other register answers. -/
theorem readLatched_held {e : Nat × Nat × W32} (hreg : s.readReg (masterCls m) off = (s, some v)) (hlo : isLo off = false)
    (hl : s.latch.find? (fun e => e.1 == masterLatch m && e.2.1 == off) = some e) :
    s.readLatched m off = (s, some e.2.2) := by
  simp [State.readLatched, hreg, hlo, hl]

/-- Without a latch of the reader, a read of any other register answers the present value. -/
theorem readLatched_unheld (hreg : s.readReg (masterCls m) off = (s, some v)) (hlo : isLo off = false)
    (hl : s.latch.find? (fun e => e.1 == masterLatch m && e.2.1 == off) = none) :
    s.readLatched m off = (s, some v) := by
  simp [State.readLatched, hreg, hlo, hl]

/-- An aligned read of 32 bits that the window is open to and the CAT grants sends the data that the latched read gives. -/
theorem exec_readLoLatch_granted (hrun : s.masterRuns m = true) (hopen : s.barShut m off = false) (halign : off % 4 = 0)
    (hcat : s.catDecide (masterCls m) .read (0x10000000 + off) = none) (hread : s.readLatched m off = (t, some v)) :
    exec (.readLoLatch m off 4) s = .next (t.emit (.readData m off v)) := by
  have hshape : badShape off 4 = false := by simp [badShape, halign]
  simp [exec_readLoLatch, execReadLoLatch, hrun, hshape, setupAccess_granted hopen hcat, hread]

/-! The obligation. -/

/-- Settles O20: a granted read is the latched read of the register, which puts a latch of the reader's own for a lower half
and otherwise answers from the reader's latch. -/
theorem pairedReads : Obligations.PairedReads := by
  unfold Obligations.PairedReads
  intro m off s r hrun hopen halign hrow hacc hcart hcat
  have hreg : s.readReg (masterCls m) off = (s, some (s.rd off)) := readReg_of_access_ne_wo hrow (by simp [hacc]) hcart
  refine ⟨fun hlo => ?lo, fun hlo => ?other⟩
  case lo =>
    exact ⟨_, exec_readLoLatch_granted hrun hopen halign hcat (readLatched_lo hreg hlo), rfl, rfl, find?_latchPut_self,
      fun _ _ hne => find?_latchPut_ne hne⟩
  case other =>
    cases hl : s.latch.find? (fun e => e.1 == masterLatch m && e.2.1 == off) with
    | some e => exact exec_readLoLatch_granted hrun hopen halign hcat (readLatched_held hreg hlo hl)
    | none => exact exec_readLoLatch_granted hrun hopen halign hcat (readLatched_unheld hreg hlo hl)

end Sys2Proof.Machine
end

section
/-! The words of the drupelet instructions (R109 to R127): each format as the values of its fields, read and written. -/

namespace Sys2Proof.Machine

variable {w : W32} {be d a b c : Fin 32} {p : Bool} {imm : BitVec 16} {base : DBase} {pos len1 amt : Fin 64}

/-! The formats (R109): a word is written from its fields exactly where its fields read so. -/

theorem toNat_append_eq {m n : Nat} (x : BitVec m) (y : BitVec n) : (x ++ y).toNat = x.toNat * 2 ^ n + y.toNat := by
  rw [BitVec.toNat_append, ← Nat.shiftLeft_add_eq_or_of_lt y.isLt, Nat.shiftLeft_eq]

theorem toNat_encReg (r : Fin 32) : (encReg r).toNat = r.val := by
  rw [encReg, BitVec.toNat_ofNat]
  omega

theorem getLsbD_eq_iff (i : Nat) : w.getLsbD i = p ↔ w.toNat / 2 ^ i % 2 = p.toNat := by
  rw [BitVec.getLsbD, Nat.testBit_eq_decide_div_mod_eq]
  cases p <;> simp

theorem wreg_eq_iff (lo : Nat) : wreg w lo = d ↔ wfld w lo 5 = d.val := by
  rw [wreg, wfld, Fin.ext_iff, Fin.val_ofNat]
  rfl

theorem extract_eq_iff {n : Nat} (v : BitVec n) : w.extractLsb' 0 n = v ↔ wfld w 0 n = v.toNat := by
  rw [← BitVec.toNat_inj, BitVec.extractLsb'_toNat, Nat.shiftRight_zero, wfld, Nat.pow_zero, Nat.div_one]

theorem eq_encR_iff {op func : BitVec 6} : w = encR op d a b p func ↔
    wfld w 26 6 = op.toNat ∧ wreg w 21 = d ∧ wreg w 16 = a ∧ wreg w 11 = b ∧ w.getLsbD 10 = p ∧ wfld w 6 4 = 0 ∧
      wfld w 0 6 = func.toNat := by
  have hw := w.isLt
  have ho := op.isLt
  have hf := func.isLt
  have hp := p.toNat_le
  simp only [← BitVec.toNat_inj, encR, toNat_append_eq, toNat_encReg, BitVec.toNat_ofBool, BitVec.toNat_ofNat, wreg_eq_iff,
    getLsbD_eq_iff, wfld]
  omega

theorem eq_encR4_iff {func : BitVec 5} : w = encR4 d a b c p func ↔
    wfld w 26 6 = 3 ∧ wreg w 21 = d ∧ wreg w 16 = a ∧ wreg w 11 = b ∧ wreg w 6 = c ∧ w.getLsbD 5 = p ∧
      wfld w 0 5 = func.toNat := by
  have hw := w.isLt
  have hf := func.isLt
  have hp := p.toNat_le
  simp only [← BitVec.toNat_inj, encR4, toNat_append_eq, toNat_encReg, BitVec.toNat_ofBool, BitVec.toNat_ofNat, wreg_eq_iff,
    getLsbD_eq_iff, wfld]
  omega

theorem eq_encBf_iff {func : BitVec 4} : w = encBf d a pos len1 func ↔
    wfld w 26 6 = 5 ∧ wreg w 21 = d ∧ wreg w 16 = a ∧ wfld w 10 6 = pos.val ∧ wfld w 4 6 = len1.val ∧
      wfld w 0 4 = func.toNat := by
  have hw := w.isLt
  have hf := func.isLt
  simp only [← BitVec.toNat_inj, encBf, toNat_append_eq, toNat_encReg, BitVec.toNat_ofNat, wreg_eq_iff, wfld]
  omega

theorem eq_encI_iff {op : BitVec 6} : w = encI op d a imm ↔
    wfld w 26 6 = op.toNat ∧ wreg w 21 = d ∧ wreg w 16 = a ∧ w.extractLsb' 0 16 = imm := by
  have hw := w.isLt
  have ho := op.isLt
  have hi := imm.isLt
  simp only [extract_eq_iff]
  simp only [← BitVec.toNat_inj, encI, toNat_append_eq, toNat_encReg, wreg_eq_iff, wfld]
  omega

theorem eq_encS_iff {op : BitVec 6} {sel func : Nat} (hs : sel < 16) (hf : func < 16) : w = encS op d a sel func ↔
    wfld w 26 6 = op.toNat ∧ wreg w 21 = d ∧ wreg w 16 = a ∧ wfld w 8 8 = 0 ∧ wfld w 4 4 = sel ∧ wfld w 0 4 = func := by
  have hw := w.isLt
  have ho := op.isLt
  simp only [← BitVec.toNat_inj, encS, toNat_append_eq, toNat_encReg, BitVec.toNat_ofNat, wreg_eq_iff, wfld]
  omega

theorem eq_encC_iff {func : BitVec 4} : w = encC func imm ↔
    wfld w 26 6 = 0x15 ∧ wfld w 22 4 = func.toNat ∧ wfld w 16 6 = 0 ∧ w.extractLsb' 0 16 = imm := by
  have hw := w.isLt
  have hf := func.isLt
  have hi := imm.isLt
  simp only [extract_eq_iff]
  simp only [← BitVec.toNat_inj, encC, toNat_append_eq, BitVec.toNat_ofNat, wfld]
  omega

theorem decBase_eq_some_iff {k : Nat} : decBase k = some base ↔ k = (encBase base).toNat := by
  constructor
  · intro h
    unfold decBase at h
    split at h <;> cases h <;> rfl
  · rintro rfl
    cases base <;> rfl

theorem eq_encM_iff {op : BitVec 6} : w = encM op d base imm ↔
    wfld w 26 6 = op.toNat ∧ wreg w 21 = d ∧ decBase (wfld w 18 3) = some base ∧ wfld w 16 2 = 0 ∧
      w.extractLsb' 0 16 = imm := by
  have hw := w.isLt
  have ho := op.isLt
  have hb := (encBase base).isLt
  have hi := imm.isLt
  simp only [extract_eq_iff, decBase_eq_some_iff]
  simp only [← BitVec.toNat_inj, encM, toNat_append_eq, toNat_encReg, BitVec.toNat_ofNat, wreg_eq_iff, wfld]
  omega

theorem eq_encBb_iff {op : BitVec 6} {off : BitVec 15} : w = encBb op a amt off ↔
    wfld w 26 6 = op.toNat ∧ wreg w 21 = a ∧ wfld w 15 6 = amt.val ∧ w.extractLsb' 0 15 = off := by
  have hw := w.isLt
  have ho := op.isLt
  have hi := off.isLt
  simp only [extract_eq_iff]
  simp only [← BitVec.toNat_inj, encBb, toNat_append_eq, toNat_encReg, BitVec.toNat_ofNat, wreg_eq_iff, wfld]
  omega

theorem eq_append26_iff {op : BitVec 6} {off : BitVec 26} : w = op ++ off ↔
    wfld w 26 6 = op.toNat ∧ w.extractLsb' 0 26 = off := by
  have hw := w.isLt
  have ho := op.isLt
  have hi := off.isLt
  simp only [extract_eq_iff]
  simp only [← BitVec.toNat_inj, toNat_append_eq, wfld]
  omega

theorem decShKind_eq_iff {k : ShKind} {n : Nat} (hn : n < 4) : decShKind n = k ↔ n = (encShKind k).toNat := by
  interval_cases n <;> cases k <;> decide

theorem eq_shImm_iff {k : ShKind} : w.extractLsb' 0 16 = 0#8 ++ encShKind k ++ BitVec.ofNat 6 amt.val ↔
    wfld w 8 8 = 0 ∧ decShKind (wfld w 6 2) = k ∧ wfld w 0 6 = amt.val := by
  have hk := (encShKind k).isLt
  have hlt : wfld w 6 2 < 4 := Nat.mod_lt _ (by decide)
  rw [decShKind_eq_iff hlt]
  simp only [extract_eq_iff, toNat_append_eq, BitVec.toNat_ofNat, wfld]
  omega

/-! From words to instructions and back: what a decoder gives is written as the word it was read from. -/

/-- What a decoder gives, where it gives an instruction of drupelet `be`, is written as `w`. -/
def SpeltBy (be : Fin 32) (w : W32) (o : Option Instr) : Prop :=
  ∀ i, o = some i → ∃ e, encodeDru i = some (be, e, w)

theorem SpeltBy.none : SpeltBy be w none := fun _ h => nomatch h

theorem SpeltBy.some {i : Instr} {e : Ecc} {x : W32} (he : encodeDru i = some (be, e, x)) (hw : w = x) :
    SpeltBy be w (some i) := by
  rintro _ ⟨⟩
  exact ⟨e, hw ▸ he⟩

theorem SpeltBy.guarded {q : Prop} [Decidable q] {o : Option Instr} (h : q → SpeltBy be w o) :
    SpeltBy be w (if q then o else Option.none) := by
  split
  next hq => exact h hq
  next => exact .none

section
variable {e : Ecc}

theorem speltBy_decInt (h : ∀ func, wfld w 0 6 = func.toNat → w = encR 0x01 d a b false func) :
    SpeltBy be w (decInt be d a b (wfld w 0 6)) := by
  unfold decInt
  split
  case h_30 hf | h_31 hf => exact .guarded fun hb => .some rfl (hb ▸ h _ hf)
  case h_32 => exact .none
  all_goals
    rename_i hf
    exact .some rfl (h _ hf)

theorem speltBy_decFp (h : ∀ func, wfld w 0 6 = func.toNat → w = encR 0x02 d a b p func) :
    SpeltBy be w (decFp be d a b p (wfld w 0 6)) := by
  unfold decFp
  split
  case h_5 hf => exact .guarded fun hb => .some rfl (hb ▸ h _ hf)
  case h_13 => exact .none
  all_goals
    rename_i hf
    exact .some rfl (h _ hf)

theorem speltBy_decCvt (h : ∀ func, wfld w 0 6 = func.toNat → w = encR 0x04 d a b p func) :
    SpeltBy be w (decCvt be d a b p (wfld w 0 6)) := by
  unfold decCvt
  split
  case h_5 hf => exact .guarded fun hp => .some rfl (hp ▸ h _ hf)
  case h_6 hf =>
    cases p with
    | false => exact .some rfl (h _ hf)
    | true => exact .none
  case h_9 => exact .none
  all_goals
    rename_i hf
    exact .some rfl (h _ hf)

theorem speltBy_decFma (h : ∀ func, wfld w 0 5 = func.toNat → w = encR4 d a b c p func) :
    SpeltBy be w (decFma be d a b c p (wfld w 0 5)) := by
  unfold decFma
  split
  case h_5 => exact .none
  all_goals
    rename_i hf
    exact .some rfl (h _ hf)

theorem speltBy_decBf (h : ∀ func, wfld w 0 4 = func.toNat → w = encBf d a pos len1 func) :
    SpeltBy be w (decBf be d a pos len1 (wfld w 0 4)) := by
  unfold decBf
  split
  · exact .none
  next hlen =>
    split
    case h_4 => exact .none
    all_goals
      rename_i hf
      exact .some (if_pos (Nat.not_lt.1 hlen)) (h _ hf)

theorem speltBy_decLoadM {op : Nat} (h : ∀ opc : BitVec 6, op = opc.toNat → w = encM opc d base imm) :
    SpeltBy be w (decLoadM be d base imm e op) := by
  unfold decLoadM
  split
  case h_12 => exact .none
  all_goals exact .some rfl (h _ rfl)

theorem speltBy_decLoadX {op : Nat} (h : ∀ opc : BitVec 6, op = opc.toNat → w = encI opc d a imm) :
    SpeltBy be w (decLoadX be d a imm e op) := by
  unfold decLoadX
  split
  case h_12 => exact .none
  all_goals exact .some rfl (h _ rfl)

theorem speltBy_decBranch {op : Nat} (h : ∀ opc : BitVec 6, op = opc.toNat → w = encI opc d a imm) :
    SpeltBy be w (decBranch be d a imm op) := by
  unfold decBranch
  split
  case h_7 => exact .none
  all_goals exact .some rfl (h _ rfl)

theorem speltBy_decSpc {sel : Nat} (h : ∀ func < 16, wfld w 0 4 = func → w = encS 0x14 d a sel func) :
    SpeltBy be w (decSpc be d a sel (wfld w 0 4)) := by
  unfold decSpc
  split
  case h_1 hf =>
    split
    · exact .some rfl (h _ (by decide) hf)
    · exact .none
  case h_2 hf =>
    split
    next hs => exact .some rfl (by subst hs; exact h _ (by decide) hf)
    next => exact .guarded fun hs => .some rfl (by subst hs; exact h _ (by decide) hf)
  case h_3 => exact .none

theorem speltBy_decCtl (h : ∀ func, wfld w 22 4 = func.toNat → w = encC func imm) :
    SpeltBy be w (decCtl be imm (wfld w 22 4)) := by
  unfold decCtl
  split
  case h_4 hf => exact .some rfl (h _ hf)
  case h_5 => exact .none
  all_goals
    rename_i hf
    exact .guarded fun hi => .some rfl (hi ▸ h _ hf)

theorem speltBy_decJmp {sel : Nat} (h : ∀ func < 16, wfld w 0 4 = func → w = encS 0x16 d a sel func) :
    SpeltBy be w (decJmp be d a sel (wfld w 0 4)) := by
  unfold decJmp
  split
  · exact .none
  next hz =>
    obtain ⟨rfl, rfl⟩ : d = 0 ∧ sel = 0 := by simpa using hz
    split
    case h_4 => exact .none
    all_goals
      rename_i hf
      exact .some rfl (h _ (by decide) hf)

/-- The word of every instruction that decodes is the word it was read from. -/
theorem speltBy_decodeDru (w : W32) : SpeltBy be w (decodeDru be e w) := by
  have hsel : wfld w 4 4 < 16 := Nat.mod_lt _ (by decide)
  have h64 (lo : Nat) : wfld w lo 6 = (Fin.ofNat 64 (wfld w lo 6)).val := (Nat.mod_mod _ _).symm
  unfold decodeDru
  dsimp only
  split
  case h_1 hop =>
    refine .guarded fun hz => speltBy_decInt fun func hf => eq_encR_iff.2 ⟨hop, rfl, rfl, rfl, ?_, ?_, hf⟩
    · simp only [getLsbD_eq_iff, wfld, Bool.toNat_false] at hz ⊢
      omega
    · simp only [wfld] at hz ⊢
      omega
  case h_2 hop => exact .guarded fun hz => speltBy_decFp fun func hf => eq_encR_iff.2 ⟨hop, rfl, rfl, rfl, rfl, hz, hf⟩
  case h_3 hop => exact speltBy_decFma fun func hf => eq_encR4_iff.2 ⟨hop, rfl, rfl, rfl, rfl, rfl, hf⟩
  case h_4 hop => exact .guarded fun hz => speltBy_decCvt fun func hf => eq_encR_iff.2 ⟨hop, rfl, rfl, rfl, rfl, hz, hf⟩
  case h_5 hop => exact speltBy_decBf fun func hf => eq_encBf_iff.2 ⟨hop, rfl, rfl, h64 _, h64 _, hf⟩
  case h_12 hop =>
    exact .guarded fun hz => .some rfl (eq_encI_iff.2 ⟨hop, rfl, rfl, eq_shImm_iff.2 ⟨hz, rfl, h64 _⟩⟩)
  case h_13 hop => exact .guarded fun hz => .some rfl (eq_encI_iff.2 ⟨hop, rfl, hz, rfl⟩)
  case h_14 hop | h_15 hop => exact .guarded fun hz => .some rfl (eq_encI_iff.2 ⟨hop, hz, rfl, rfl⟩)
  case h_16 hop =>
    exact .guarded fun hz => speltBy_decSpc fun func hlt hf => (eq_encS_iff hsel hlt).2 ⟨hop, rfl, rfl, hz, rfl, hf⟩
  case h_17 hop => exact .guarded fun hz => speltBy_decCtl fun func hf => eq_encC_iff.2 ⟨hop, hf, hz, rfl⟩
  case h_18 hop =>
    exact .guarded fun hz => speltBy_decJmp fun func hlt hf => (eq_encS_iff hsel hlt).2 ⟨hop, rfl, rfl, hz, rfl, hf⟩
  case h_19 hop | h_20 hop => exact .some rfl (eq_encBb_iff.2 ⟨hop, rfl, h64 _, rfl⟩)
  case h_21 hop | h_22 hop => exact .some rfl (eq_append26_iff.2 ⟨hop, rfl⟩)
  case h_23 =>
    split
    · refine .guarded fun hz => ?_
      split
      next hb => exact speltBy_decLoadM fun opc hop => eq_encM_iff.2 ⟨hop, rfl, hb, hz, rfl⟩
      next => exact .none
    · split
      · exact speltBy_decLoadX fun opc hop => eq_encI_iff.2 ⟨hop, rfl, rfl, rfl⟩
      · exact .guarded fun _ => speltBy_decBranch fun opc hop => eq_encI_iff.2 ⟨hop, rfl, rfl, rfl⟩
  all_goals
    rename_i hop
    exact .some rfl (eq_encI_iff.2 ⟨hop, rfl, rfl, rfl⟩)

end

/-! From instructions to words and back: the word written for an instruction decodes to it. -/

/-- Where instruction `i` has a word, the word decodes to `i`. -/
def ReadAs (i : Instr) (o : Option (Fin 32 × Ecc × W32)) : Prop :=
  ∀ be e w, o = some (be, e, w) → decodeDru be e w = some i

section
variable {i : Instr} {e : Ecc}

theorem ReadAs.none : ReadAs i none := fun _ _ _ h => nomatch h

theorem ReadAs.some (h : decodeDru be e w = some i) : ReadAs i (some (be, e, w)) := by
  rintro _ _ _ ⟨⟩
  exact h

theorem ReadAs.guarded {q : Prop} [Decidable q] {o : Option (Fin 32 × Ecc × W32)} (h : q → ReadAs i o) :
    ReadAs i (if q then o else Option.none) := by
  split
  next hq => exact h hq
  next => exact .none

theorem readAs_int {func : BitVec 6} (h : decInt be d a b func.toNat = some i) :
    ReadAs i (some (be, e, encR 0x01 d a b false func)) := by
  refine .some ?_
  generalize hw : encR 0x01 d a b false func = w
  obtain ⟨hop, hd, ha, hb, hp, hz, hf⟩ := eq_encR_iff.1 hw.symm
  have hz5 : wfld w 6 5 = 0 := by
    rw [getLsbD_eq_iff, Bool.toNat_false] at hp
    simp only [wfld] at hz ⊢
    omega
  simp only [decodeDru, hop, hd, ha, hb, hz5, hf]
  exact h

theorem readAs_fp {func : BitVec 6} (h : decFp be d a b p func.toNat = some i) :
    ReadAs i (some (be, e, encR 0x02 d a b p func)) := by
  refine .some ?_
  generalize hw : encR 0x02 d a b p func = w
  obtain ⟨hop, hd, ha, hb, hp, hz, hf⟩ := eq_encR_iff.1 hw.symm
  simp only [decodeDru, hop, hd, ha, hb, hp, hz, hf]
  exact h

theorem readAs_cvt {func : BitVec 6} (h : decCvt be d a b p func.toNat = some i) :
    ReadAs i (some (be, e, encR 0x04 d a b p func)) := by
  refine .some ?_
  generalize hw : encR 0x04 d a b p func = w
  obtain ⟨hop, hd, ha, hb, hp, hz, hf⟩ := eq_encR_iff.1 hw.symm
  simp only [decodeDru, hop, hd, ha, hb, hp, hz, hf]
  exact h

theorem readAs_fma {func : BitVec 5} (h : decFma be d a b c p func.toNat = some i) :
    ReadAs i (some (be, e, encR4 d a b c p func)) := by
  refine .some ?_
  generalize hw : encR4 d a b c p func = w
  obtain ⟨hop, hd, ha, hb, hc, hp, hf⟩ := eq_encR4_iff.1 hw.symm
  simp only [decodeDru, hop, hd, ha, hb, hc, hp, hf]
  exact h

theorem readAs_bf {func : BitVec 4} (h : decBf be d a pos len1 func.toNat = some i) :
    ReadAs i (some (be, e, encBf d a pos len1 func)) := by
  refine .some ?_
  generalize hw : encBf d a pos len1 func = w
  obtain ⟨hop, hd, ha, hpos, hlen, hf⟩ := eq_encBf_iff.1 hw.symm
  simp only [decodeDru, hop, hd, ha, hpos, hlen, hf, Fin.ofNat_val_eq_self]
  exact h

theorem readAs_spc {sel func : Nat} (hs : sel < 16) (hf : func < 16) (h : decSpc be d a sel func = some i) :
    ReadAs i (some (be, e, encS 0x14 d a sel func)) := by
  refine .some ?_
  generalize hw : encS 0x14 d a sel func = w
  obtain ⟨hop, hd, ha, hz, hsel, hfunc⟩ := (eq_encS_iff hs hf).1 hw.symm
  simp only [decodeDru, hop, hd, ha, hz, hsel, hfunc]
  exact h

theorem readAs_jmp {sel func : Nat} (hs : sel < 16) (hf : func < 16) (h : decJmp be d a sel func = some i) :
    ReadAs i (some (be, e, encS 0x16 d a sel func)) := by
  refine .some ?_
  generalize hw : encS 0x16 d a sel func = w
  obtain ⟨hop, hd, ha, hz, hsel, hfunc⟩ := (eq_encS_iff hs hf).1 hw.symm
  simp only [decodeDru, hop, hd, ha, hz, hsel, hfunc]
  exact h

theorem readAs_ctl {func : BitVec 4} (h : decCtl be imm func.toNat = some i) : ReadAs i (some (be, e, encC func imm)) := by
  refine .some ?_
  generalize hw : encC func imm = w
  obtain ⟨hop, hf, hz, hi⟩ := eq_encC_iff.1 hw.symm
  simp only [decodeDru, hop, hf, hz, hi]
  exact h

/-- The instruction of a word of two registers and 16 bits, as its opcode gives it. -/
theorem readAs_imm {op : BitVec 6} (h : ∀ w : W32, wfld w 26 6 = op.toNat → wreg w 21 = d → wreg w 16 = a →
    w.extractLsb' 0 16 = imm → decodeDru be e w = some i) : ReadAs i (some (be, e, encI op d a imm)) := by
  refine .some ?_
  generalize hw : encI op d a imm = w
  obtain ⟨hop, hd, ha, hi⟩ := eq_encI_iff.1 hw.symm
  exact h w hop hd ha hi

theorem readAs_shi {k : ShKind} : ReadAs (.shi be d a k amt)
    (some (be, e, encI 0x0E d a (0#8 ++ encShKind k ++ BitVec.ofNat 6 amt.val))) := by
  refine readAs_imm fun w hop hd ha hi => ?_
  obtain ⟨hz, hk, hn⟩ := eq_shImm_iff.1 hi
  simp [decodeDru, hop, hd, ha, hz, hk, hn]

/-- The instruction of a word of format M, as its opcode gives it. -/
theorem readAs_mem {op : BitVec 6} (h : ∀ w : W32, wfld w 26 6 = op.toNat → wreg w 21 = d →
    decBase (wfld w 18 3) = some base → wfld w 16 2 = 0 → w.extractLsb' 0 16 = imm → decodeDru be e w = some i) :
    ReadAs i (some (be, e, encM op d base imm)) := by
  refine .some ?_
  generalize hw : encM op d base imm = w
  obtain ⟨hop, hd, hb, hz, hi⟩ := eq_encM_iff.1 hw.symm
  exact h w hop hd hb hz hi

theorem readAs_bb {op : BitVec 6} {off : BitVec 15} (h : ∀ w : W32, wfld w 26 6 = op.toNat → wreg w 21 = a →
    wfld w 15 6 = amt.val → w.extractLsb' 0 15 = off → decodeDru be e w = some i) :
    ReadAs i (some (be, e, encBb op a amt off)) := by
  refine .some ?_
  generalize hw : encBb op a amt off = w
  obtain ⟨hop, ha, hn, ho⟩ := eq_encBb_iff.1 hw.symm
  exact h w hop ha hn ho

theorem readAs_jump {op : BitVec 6} {off : BitVec 26} (h : ∀ w : W32, wfld w 26 6 = op.toNat →
    w.extractLsb' 0 26 = off → decodeDru be e w = some i) : ReadAs i (some (be, e, op ++ off)) := by
  refine .some ?_
  generalize hw : op ++ off = w
  obtain ⟨hop, ho⟩ := eq_append26_iff.1 hw.symm
  exact h w hop ho

/-- Every instruction with a word is the one its word is read as. -/
theorem readAs_encodeDru (i : Instr) : ReadAs i (encodeDru i) := by
  cases i
  case add | sub | and | or | xor | shl | shr | sar | ror | slt | sltu | seq | min | max | minu | maxu | mul | mulh | mulhu |
      div | divu | rem | remu | addw | subw | mulw | addsat | subsat | clz | popc | sel =>
    exact readAs_int rfl
  case fadd | fsub | fmul | fdiv | fsqrt | fmin | fmax | fabs | fneg | feq | flt | fle => exact readAs_fp rfl
  case fmadd | fmsub | fnmadd | fnmsub => exact readAs_fma rfl
  case fcvti | fcvtu | icvtf | ucvtf | fcvtiz | fcvtuz | fwiden | fnarrow => exact readAs_cvt rfl
  case bextu | bexts | bins => exact .guarded fun hlen => readAs_bf (if_neg (Nat.not_lt.2 hlen))
  case addi | andi | ori | xori | slti | sltiu | lui | ibset | cbset | ldxb | ldxbs | ldxh | ldxhs | ldxw | ldxws | ldxd |
      stxb | stxh | stxw | stxd | beq | bne | blt | bge | bltu | bgeu =>
    exact readAs_imm fun w hop hd ha hi => by simp [decodeDru, decLoadX, decBranch, hop, hd, ha, hi]
  case shi => exact readAs_shi
  case ldb | ldbs | ldh | ldhs | ldw | ldws | ldd | stb | sth | stw | std =>
    exact readAs_mem fun w hop hd hb hz hi => by simp [decodeDru, decLoadM, hop, hd, hb, hz, hi]
  case mfs sel => exact readAs_spc (by omega) (by decide) (dif_pos sel.isLt)
  case mts sel =>
    refine .guarded fun hs => readAs_spc sel.isLt (by decide) ?_
    rcases hs with rfl | rfl <;> rfl
  case nop | wend | chend | trap => exact readAs_ctl rfl
  case jr | callr | ret => exact readAs_jmp (by decide) (by decide) rfl
  case bbs | bbc => exact readAs_bb fun w hop ha hn ho => by simp [decodeDru, hop, ha, hn, ho]
  case j | call => exact readAs_jump fun w hop ho => by simp [decodeDru, hop, ho]
  all_goals exact .none

end

/-- Settles O5: a word is written from its fields exactly where its fields read so, in every format. -/
theorem drupeletWordsRoundTrip : Obligations.DrupeletWordsRoundTrip := by
  unfold Obligations.DrupeletWordsRoundTrip
  exact ⟨readAs_encodeDru, fun i be e w h => speltBy_decodeDru (e := e) w i h⟩

end Sys2Proof.Machine
end

section
/-! What a fetch and a step record leave unchanged (R104, R447, R448, R450), immediate operations (R111) and the special
registers (R105, R108, R124, R125). -/

namespace Sys2Proof.Machine

variable {s s' t : State} {be d a : Fin 32} {w w' : Window} {x : W32} {pc : BitVec 24}

/-! The counters and the collector of the observation port. -/

/-- A list of updates, each of registers alone. -/
theorem foldl_regs_frame {α : Type} {f : State → α → State} (hf : ∀ s e, f s e = { s with regs := (f s e).regs }) (l : List α)
    (s : State) : l.foldl f s = { s with regs := (l.foldl f s).regs } := by
  induction l generalizing s with
  | nil => rfl
  | cons e r ih =>
    rw [List.foldl_cons]
    exact (ih _).trans (by rw [hf s e])

/-- A list of updates, none of which changes a register. -/
theorem rd_foldl {α : Type} {f : State → α → State} {l : List α} {off : Nat} (hf : ∀ s, ∀ e ∈ l, (f s e).rd off = s.rd off)
    (s : State) : (l.foldl f s).rd off = s.rd off := by
  induction l generalizing s with
  | nil => rfl
  | cons e r ih => rw [List.foldl_cons, ih fun s e he => hf s e (List.mem_cons_of_mem _ he), hf s e List.mem_cons_self]

theorem obsCountBy_frame (code k : Nat) : s.obsCountBy code k = { s with regs := (s.obsCountBy code k).regs } := by
  unfold State.obsCountBy
  split
  · rfl
  · exact foldl_regs_frame (fun _ _ => rfl) _ _

/-- Only the counters of the observation port count an event (R448). -/
theorem rd_obsCountBy {code k off : Nat} (h : off < R.obsCntk 0 ∨ R.obsCntk 255 < off) :
    (s.obsCountBy code k).rd off = s.rd off := by
  unfold State.obsCountBy
  split
  · rfl
  · refine rd_foldl (fun s e he => rd_wr_ne ?_) s
    have hsel := List.mem_filter.1 he
    simp only [Bool.and_eq_true, decide_eq_true_eq, R.obsCntk, R.obsCntkSel] at h hsel ⊢
    omega

theorem obsCollect_frame (r : ObsRec) : s.obsCollect r = { s with obs := (s.obsCollect r).obs, regs := (s.obsCollect r).regs } := by
  unfold State.obsCollect
  split <;> rfl

/-- Only the count of records dropped changes with a record that the collector drops (R447). -/
theorem rd_obsCollect {r : ObsRec} {off : Nat} (h : off ≠ R.obsDrop) : (s.obsCollect r).rd off = s.rd off := by
  unfold State.obsCollect
  split
  · rfl
  · exact rd_wr_ne h

theorem stepRecord_frame {ended exc : Bool} : s.stepRecord w w' x ended exc =
    { s with obs := (s.stepRecord w w' x ended exc).obs, regs := (s.stepRecord w w' x ended exc).regs } := by
  unfold State.stepRecord
  split
  · rfl
  · exact obsCollect_frame _

theorem rd_stepRecord {ended exc : Bool} {off : Nat} (h : off ≠ R.obsDrop) :
    (s.stepRecord w w' x ended exc).rd off = s.rd off := by
  unfold State.stepRecord
  split
  · rfl
  · exact rd_obsCollect h

/-! Drupelets. -/

theorem dru_setDru_self (d : Drupelet) : (s.setDru be d).dru be = d := Vector.getElem_set_self ..

theorem dru_setDru_ne {i : Fin 32} (d : Drupelet) (h : i ≠ be) : (s.setDru be d).dru i = s.dru i :=
  Vector.getElem_set_ne be.isLt i.isLt fun e => h (Fin.ext e.symm)

/-- A drupelet set to what it is. -/
theorem setDru_dru : s.setDru be (s.dru be) = s := by
  have e : s.brm.be.set be (s.dru be) = s.brm.be := Vector.set_getElem_self ..
  rw [State.setDru, e]

/-! The fetch (R104). -/

/-- What a fetch that gives a word does: nothing, where the line is held; otherwise the fill is counted and the line joins
the instruction half. -/
theorem fetch_word (h : s.fetch be pc = (s', .word x)) :
    s' = s ∨ ∃ l, s' = (s.obsCount 0x0226).setDru be { s.dru be with lines := l } := by
  unfold State.fetch at h
  simp only at h
  split at h
  · split at h <;> cases h
    exact .inl rfl
  · unfold State.catAccess at h
    cases hc : s.catDecide clsBrm .fetch (s.bank + pc.toNat / 64 * 64) with
    | some c => simp [hc] at h
    | none =>
      simp only [hc, Bool.not_true, Bool.false_eq_true, if_false] at h
      split at h <;> cases h
      exact .inr ⟨_, rfl⟩

theorem dru_obsCountBy (code k : Nat) (i : Fin 32) : (s.obsCountBy code k).dru i = s.dru i := by
  rw [obsCountBy_frame]; rfl

/-- A fetch that gives a word changes at most its drupelet's instruction half and the counters of the observation port. -/
theorem fetch_frame (h : s.fetch be pc = (s', .word x)) :
    s' = { s with regs := s'.regs, brm := s'.brm } ∧ s'.brm = { s.brm with be := s'.brm.be } ∧
      s'.dru be = { s.dru be with lines := (s'.dru be).lines } ∧ (∀ i, i ≠ be → s'.dru i = s.dru i) ∧
      ∀ off, off < R.obsCntk 0 ∨ R.obsCntk 255 < off → s'.rd off = s.rd off := by
  rcases fetch_word h with rfl | ⟨l, rfl⟩
  · exact ⟨rfl, rfl, rfl, fun _ _ => rfl, fun _ _ => rfl⟩
  · have hf := obsCountBy_frame (s := s) 0x0226 1
    refine ⟨?_, ?_, ?_, fun i hi => ?_, fun off ho => rd_obsCountBy ho⟩
    · rw [State.setDru, State.obsCount, hf]
    · rw [State.setDru, State.obsCount, hf]
    · rw [dru_setDru_self]
    · rw [dru_setDru_ne _ hi, State.obsCount, dru_obsCountBy]

theorem fetch_mem (h : s.fetch be pc = (s', .word x)) : s'.mem = s.mem := by
  rw [(fetch_frame h).1]

theorem fetch_rd {off : Nat} (h : s.fetch be pc = (s', .word x)) (ho : off < R.obsCntk 0 ∨ R.obsCntk 255 < off) :
    s'.rd off = s.rd off :=
  (fetch_frame h).2.2.2.2 off ho

theorem fbit_congr {f : Field} (h : s'.rd f.off = s.rd f.off) : s'.fbit f = s.fbit f := by
  rw [State.fbit, State.fbit, State.fget, State.fget, h]

theorem fetch_bank (h : s.fetch be pc = (s', .word x)) : s'.bank = s.bank := by
  have hb : s'.fbit F.olcStatus_activeBank = s.fbit F.olcStatus_activeBank := fbit_congr (fetch_rd h (by decide))
  rw [State.bank, State.bank, State.bankB, State.bankB, hb]

theorem fetch_outRun (h : s.fetch be pc = (s', .word x)) (i : Nat) : s'.outRun i = s.outRun i := by
  simp only [State.outRun, State.hOutTab, State.bw, fetch_bank h, fetch_mem h]

/-! Registers. -/

theorem gReg_zero (c : Core) : gReg c 0 = 0 := rfl

theorem gReg_gSet (c : Core) (i : Fin 32) (v : W64) : gReg (gSet c d v) i = if i = d ∧ d ≠ 0 then v else gReg c i := by
  unfold gSet gReg
  by_cases hd : d = 0
  · simp [hd]
  · by_cases hi : i = d
    · subst hi; simp [hd]
    · have hne : ¬ d.val = i.val := fun e => hi (Fin.ext e.symm)
      simp [hd, hi, hne]

theorem gSet_frame (c : Core) (v : W64) : gSet c d v = { c with g := (gSet c d v).g } := by
  unfold gSet
  split <;> rfl

/-- Settles O9: a register reads what was written; a fetch changes its drupelet's instruction half and the counters; a window
that goes on changes itself and what the collector shows. -/
theorem registersAndFrames : Obligations.RegistersAndFrames := by
  unfold Obligations.RegistersAndFrames
  refine ⟨fun c d i v => ⟨gReg_zero c, gReg_gSet c i v, ?result⟩, fun s s' be pc x h => fetch_frame h,
    fun be w w' x s => ⟨?state, ?drupelet, fun i hi => ?others, ?bramble, fun off ho => ?registers, fun ht => ?untraced⟩⟩
  case result =>
    rw [result, gSet_frame]
  case state =>
    rw [goesOn, State.setWin, State.setDru, stepRecord_frame]
  case drupelet =>
    rw [goesOn, State.setWin, dru_setDru_self, stepRecord_frame]
    rfl
  case others =>
    rw [goesOn, State.setWin, dru_setDru_ne _ hi, stepRecord_frame]
    rfl
  case bramble =>
    rw [goesOn, State.setWin, State.setDru, stepRecord_frame]
  case registers =>
    exact rd_stepRecord ho
  case untraced =>
    rw [goesOn, stepRecord_of_not_traced ht]
    exact ⟨rfl, rfl⟩

/-! Immediate operations (R111). -/

/-- Settles O7: each immediate operation is a shared operation on Ga, or on Gd alone. -/
theorem immediateResults : Obligations.ImmediateResults := by
  unfold Obligations.ImmediateResults
  intro be d a imm n
  refine ⟨?addi, ?andi, ?ori, ?xori, ?slti, ?sltiu, ?shl, ?shr, ?sar, ?ror, ?lui⟩
  case addi => exact computes_immOp (fun s => exec_addi s ..) fun _ => rfl
  case andi => exact computes_immOp (fun s => exec_andi s ..) fun _ => rfl
  case ori => exact computes_immOp (fun s => exec_ori s ..) fun _ => rfl
  case xori => exact computes_immOp (fun s => exec_xori s ..) fun _ => rfl
  case slti =>
    exact computes_immOp (fun s => exec_slti s ..) fun c => by
      rw [BitVec.slt, ofBool64_decide, BitVec.toInt_signExtend_of_le (by decide)]
  case sltiu => exact computes_immOp (fun s => exec_sltiu s ..) fun _ => ofBool64_decide _
  case shl => exact computes_immOp (fun s => exec_shi s ..) fun _ => rfl
  case shr => exact computes_immOp (fun s => exec_shi s ..) fun _ => rfl
  case sar => exact computes_immOp (fun s => exec_shi s ..) fun _ => rfl
  case ror => exact computes_immOp (fun s => exec_shi s ..) fun _ => opShift_ror _ n.isLt
  case lui => exact computes_result (fun s => exec_lui s ..) fun _ => rfl

/-! Special registers (R105, R108, R124, R125). -/

/-- A write of FL takes its RW fields and leaves `EXM` (R108). -/
theorem flWrite_eq_append (old v : W64) : flWrite old v = 0#53 ++ old.extractLsb' 10 1 ++ v.extractLsb' 0 10 := by
  apply BitVec.eq_of_getLsbD_eq
  intro i hi
  have e1 : (0x3FF : W64) = BitVec.ofNat 64 (2 ^ 10 - 1) := rfl
  have e2 : (0x400 : W64) = BitVec.twoPow 64 10 := rfl
  simp only [flWrite, e1, e2, BitVec.getLsbD_or, BitVec.getLsbD_and, BitVec.getLsbD_ofNat, Nat.testBit_two_pow_sub_one,
    BitVec.getLsbD_twoPow, BitVec.getLsbD_append, BitVec.getLsbD_extractLsb', hi, decide_true,
    Bool.true_and, Nat.zero_add]
  by_cases h1 : i < 10
  · simp [h1, show ¬ 10 = i by omega]
  · by_cases h2 : i = 10
    · simp [h2]
    · simp [h1, show ¬ 10 = i by omega, show ¬ i - 10 < 1 by omega]

/-- No word spells `MTS` to another register than LK and FL (R125). -/
theorem decodeDru_ne_mts {sel : Fin 16} (h3 : sel ≠ 3) (h4 : sel ≠ 4) : decodeDru be .clean x ≠ some (.mts be d a sel) := by
  intro h
  obtain ⟨e, he⟩ := speltBy_decodeDru x _ h
  simp [encodeDru, h3, h4] at he

/-- Settles O10: each is an instruction that changes the registers of its window; the bank and the output runs are not
changed by the fetch. -/
theorem specialRegisters : Obligations.SpecialRegisters := by
  unfold Obligations.SpecialRegisters
  intro be d a imm s s' w x h
  refine ⟨fun hd => ?ibset, fun hd => ?cbset, fun sel hd => ?mfs, fun hd => ?lk, fun hd => ?fl, fun sel h3 h4 =>
    decodeDru_ne_mts h3 h4⟩
  case ibset =>
    rw [exec_ibset, execIbset, instr_atWord h hd]
    rfl
  case cbset =>
    rw [exec_cbset, execCbset, instr_atWord h hd, fetch_bank h.fetched]
    rfl
  case mfs =>
    rw [exec_mfs, execMfs, instr_atWord h hd]
    simp only [nextPc_gSet, State.special, fetch_outRun h.fetched]
    rfl
  case lk =>
    rw [exec_mts, execMts, State.regOp, instr_atWord h hd]
    rfl
  case fl =>
    rw [exec_mts, execMts, State.regOp, instr_atWord h hd]
    simp only [flWrite_eq_append]
    rfl

/-- Settles O1: a step runs the command at the front. -/
theorem stepRunsTheFrontCommand : Obligations.StepRunsTheFrontCommand := by
  unfold Obligations.StepRunsTheFrontCommand
  intro s c rest
  rfl

/-- Settles O3: registers and memory list nothing but what the reset values leave out. -/
theorem resetIsCanonical : Obligations.ResetIsCanonical := by
  unfold Obligations.ResetIsCanonical
  refine ⟨⟨reset_mem_wf, ?_⟩, rfl⟩
  decide +kernel

end Sys2Proof.Machine
end

section
/-! Loads (R118, R119, R121, R129, R383): what a load leads to, one lemma for each case, and the formats. -/

namespace Sys2Proof.Machine

variable {s : State} {be d : Fin 32} {w : Window} {addr : Int} {n : Nat} {ecc : Ecc} {k : Nat → Core → Core} {cause : Nat}

/-! What a load leads to. -/

theorem addrOk_iff : addrOk addr = true ↔ 0 ≤ addr ∧ addr < 2 ^ 40 := by
  simp only [addrOk, Bool.and_eq_true, decide_eq_true_eq]

/-- Whether a window may load at an address: what it wrote of its scratch, or its read set (R118, R121). -/
def State.loadable (s : State) (w : Window) (a n : Nat) : Prop :=
  if inScratch a n then w.valid.has ((a - scrBase) / 8) = true else s.inReadSet w a n = true

section
variable (a p m : Nat)

@[simp] theorem touch_core : (w.touch a).core = w.core := rfl
@[simp] theorem touch_stores : (w.touch a).stores = w.stores := rfl
@[simp] theorem touch_valid : (w.touch a).valid = w.valid := rfl
@[simp] theorem touch_rep_isNone : (w.touch a).rep.isNone = w.rep.isNone := by simp [Window.touch]
@[simp] theorem inReadSet_touch : s.inReadSet (w.touch a) p m = s.inReadSet w p m := rfl
@[simp] theorem inWriteSet_touch : s.inWriteSet (w.touch a) p m = s.inWriteSet w p m := rfl

@[simp] theorem kept_touch : (w.touch a).kept p = w.kept p := by
  unfold Window.touch Window.kept
  cases w.rep <;> rfl

@[simp] theorem winBad_touch : s.winBad (w.touch a) p = s.winBad w p := by simp only [State.winBad, kept_touch]
@[simp] theorem winByte_touch : s.winByte (w.touch a) p = s.winByte w p := by simp only [State.winByte, kept_touch]

end

theorem winAccess_granted {a : Nat} {kind : AccKind} (h : s.catDecide clsBrm kind a = none) :
    s.winAccess be w kind a = (s, true) := by
  simp [State.winAccess, State.catAccess, h]

/-- A refusal to a window is counted, but for the access of a replica to the memory kept for it (R379). -/
theorem winAccess_refused {a : Nat} {kind : AccKind} (h : s.catDecide clsBrm kind a = some cause) :
    s.winAccess be w kind a = (s.refusedTo be w kind a cause, false) := by
  unfold State.winAccess State.refusedTo State.catAccess
  split <;> simp [h]

@[simp] theorem winAccess_touch {a p : Nat} {kind : AccKind} : s.winAccess be (w.touch p) kind a = s.winAccess be w kind a := by
  simp only [State.winAccess, kept_touch]

theorem refusedTo_touch {a p : Nat} {kind : AccKind} : s.refusedTo be (w.touch p) kind a cause = s.refusedTo be w kind a cause := by
  simp only [State.refusedTo, kept_touch]

theorem winByte_eccCorrected (a p : Nat) : (s.eccCorrected a).winByte w p = s.winByte w p := by
  unfold State.winByte State.eccCorrected State.obsCount
  rw [obsCountBy_frame]
  rfl

/-- What the buffer gives of each byte, and where it gives none what memory gives. -/
theorem map_getD_zipIdx (f : Nat → Option Byte) (g : Nat → Byte) :
    ((List.range n).map f).zipIdx.map (fun e => e.1.getD (g e.2)) = (List.range n).map (fun i => (f i).getD (g i)) := by
  refine List.ext_getElem (by simp) fun i h1 h2 => ?_
  simp

/-- A load that the commit buffer holds whole sees the buffer alone. -/
theorem seenBytes_of_allBuffered {a : Nat} (h : allBuffered w a n = true) :
    ((List.range n).map (fun i => bufByte w.stores (a + i))).map (·.getD 0) = seenBytes s be w a n := by
  have hall : ∀ i < n, (bufByte w.stores (a + i)).isSome = true := by simpa [allBuffered] using h
  rw [seenBytes, List.map_map]
  refine List.map_congr_left fun i hi => ?_
  obtain ⟨b, hb⟩ := Option.isSome_iff_exists.1 (hall i (List.mem_range.1 hi))
  simp [hb]

theorem load_misaligned (h : addr % n ≠ 0) : s.load be w addr n ecc k = (s, .exc .align w.core.pc 0 (BitVec.ofInt 64 addr)) :=
  if_pos h

theorem load_outside (ha : addr % n = 0) (h : ¬ (0 ≤ addr ∧ addr < 2 ^ 40)) :
    s.load be w addr n ecc k = (s, .exc .readset w.core.pc 0 (BitVec.ofInt 64 addr)) := by
  rw [← addrOk_iff] at h
  simp [State.load, ha, h]

section
variable (ha : addr % n = 0) (hin : 0 ≤ addr ∧ addr < 2 ^ 40)
include ha hin

theorem load_denied (h : ¬ s.loadable w addr.toNat n) : s.load be w addr n ecc k =
    (s, .exc (if inScratch addr.toNat n then .scratch else .readset) w.core.pc 0 (BitVec.ofInt 64 addr)) := by
  rw [← addrOk_iff] at hin
  unfold State.loadable at h
  split at h
  next hscr => simp [State.load, ha, hin, hscr, h]
  next hscr => simp [State.load, ha, hin, hscr, h]

variable (hal : s.loadable w addr.toNat n)
include hal

/-- A load that the window may make: the commit buffer holds it whole, or the CAT decides. -/
theorem load_allowed : s.load be w addr n ecc k =
    if allBuffered w addr.toNat n = true then
      (s, .go { w.touch addr.toNat with core := nextPc (k (leNat (seenBytes s be w addr.toNat n)) w.core) })
    else
      let c := s.winAccess be w .read addr.toNat
      if c.2 = false then (c.1, .exc .access w.core.pc 0 (BitVec.ofInt 64 addr))
      else if c.1.winBad w (physOf be addr.toNat) = true ∨ (w.rep = none ∧ ecc = .uncorrectable) then
        (c.1, .poison (physOf be addr.toNat))
      else
        (if w.rep = none ∧ ecc = .corrected then c.1.eccCorrected (physOf be addr.toNat) else c.1,
          .go { w.touch addr.toNat with core := nextPc (k (leNat (seenBytes c.1 be w addr.toNat n)) w.core) }) := by
  rw [← addrOk_iff] at hin
  have hsets : ¬ (inScratch addr.toNat n = false ∧ s.inReadSet w addr.toNat n = false) ∧
      ¬ (inScratch addr.toNat n = true ∧ w.valid.has ((addr.toNat - scrBase) / 8) = false) := by
    unfold State.loadable at hal
    split at hal <;> simp_all
  have hbuf : (List.range n).all (Option.isSome ∘ fun i => bufByte w.stores (addr.toNat + i)) = allBuffered w addr.toNat n := rfl
  simp only [State.load, ha, hin, hsets, touch_core, touch_valid, touch_stores, inReadSet_touch, winAccess_touch, winBad_touch,
    winByte_touch, touch_rep_isNone, Option.isNone_iff_eq_none, ne_eq, not_true_eq_false, if_false, Bool.not_true,
    Bool.false_eq_true, Bool.not_eq_true', List.all_map, hbuf]
  by_cases hb : allBuffered w addr.toNat n = true
  · rw [if_pos hb, if_pos hb, seenBytes_of_allBuffered (s := s) (be := be) hb]
  · rw [if_neg hb, if_neg hb]
    have hseen (c : State) (p : Prop) [Decidable p] :
        (((List.range n).map (fun i => bufByte w.stores (addr.toNat + i))).zipIdx.map (fun e =>
          e.1.getD ((if p then c.eccCorrected (physOf be addr.toNat) else c).winByte w (physOf be addr.toNat + e.2)))) =
        seenBytes c be w addr.toNat n := by
      refine (map_getD_zipIdx _ (fun i => (if p then _ else c).winByte w (physOf be addr.toNat + i))).trans ?_
      split
      · simp only [winByte_eccCorrected]; rfl
      · rfl
    simp only [hseen]

end

/-- A value of `n` bytes extended by its sign. -/
theorem ofInt_sextN {v : Nat} (hn : 0 < n) : BitVec.ofInt 64 (sextN (8 * n) v) = (BitVec.ofNat (8 * n) v).signExtend 64 := by
  obtain ⟨m, hm⟩ : ∃ m, 8 * n = m + 1 := ⟨8 * n - 1, by omega⟩
  rw [hm, BitVec.signExtend, ← sextN_toNat, BitVec.toNat_ofNat, sextN, sextN, Nat.mod_mod]

/-- Loads of the model are the loads of the manual. -/
theorem loads_loadOp {d : Fin 32} {i : Instr} {signed : Bool} {addr : Core → Int} (hn : 0 < n)
    (he : ∀ s, exec i s = s.loadOp be d i n signed ecc addr) : Loads be d i ecc n signed addr := by
  intro s s' w x h hd
  rw [he, State.loadOp, instr_atWord h hd]
  refine ⟨fun hal hin hok hgood => ?good, fun hal => ?misaligned, fun hal hin => ?outside, fun hal hin hok => ?denied,
    fun cause hal hin hok hb hcat => ?refused, fun hal hin hok hb hcat hp => ?poisoned⟩
  case misaligned =>
    rw [load_misaligned hal]
    rfl
  case outside =>
    rw [load_outside hal hin]
    rfl
  case denied =>
    rw [load_denied hal hin hok]
    rfl
  case refused =>
    simp only [load_allowed hal hin hok, hb, winAccess_refused hcat]
    rfl
  case poisoned =>
    simp only [load_allowed hal hin hok, hb, winAccess_granted hcat, if_pos hp]
    rfl
  case good =>
    have hv (l : List Byte) : extLoad n signed (leNat l) =
        if signed then (BitVec.ofNat (8 * n) (leNat l)).signExtend 64 else BitVec.ofNat 64 (leNat l) := by
      unfold extLoad
      rw [← ofInt_sextN hn]
    rw [load_allowed hal hin hok]
    cases hb : allBuffered w (addr w.core).toNat n with
    | true =>
      simp only [if_pos, nextPc_gSet, hv]
      rfl
    | false =>
      obtain ⟨hcat, hp⟩ := hgood.resolve_left (by simp [hb])
      simp only [winAccess_granted hcat, if_neg hp, nextPc_gSet, hv, goesOn, true_and, Bool.false_eq_true,
        Bool.true_eq_false, if_false]

/-- Settles O12: each load is the model's shared one, with its width, extension and address. -/
theorem loadsReadTheWindow : Obligations.LoadsReadTheWindow := by
  unfold Obligations.LoadsReadTheWindow
  refine ⟨fun be d base disp ecc => ⟨?ldb, ?ldbs, ?ldh, ?ldhs, ?ldw, ?ldws, ?ldd⟩,
    fun be d a disp ecc => ⟨?ldxb, ?ldxbs, ?ldxh, ?ldxhs, ?ldxw, ?ldxws, ?ldxd⟩⟩
  case ldb => exact loads_loadOp (by decide) (fun s => exec_ldb s ..)
  case ldbs => exact loads_loadOp (by decide) (fun s => exec_ldbs s ..)
  case ldh => exact loads_loadOp (by decide) (fun s => exec_ldh s ..)
  case ldhs => exact loads_loadOp (by decide) (fun s => exec_ldhs s ..)
  case ldw => exact loads_loadOp (by decide) (fun s => exec_ldw s ..)
  case ldws => exact loads_loadOp (by decide) (fun s => exec_ldws s ..)
  case ldd => exact loads_loadOp (by decide) (fun s => exec_ldd s ..)
  case ldxb => exact loads_loadOp (by decide) (fun s => exec_ldxb s ..)
  case ldxbs => exact loads_loadOp (by decide) (fun s => exec_ldxbs s ..)
  case ldxh => exact loads_loadOp (by decide) (fun s => exec_ldxh s ..)
  case ldxhs => exact loads_loadOp (by decide) (fun s => exec_ldxhs s ..)
  case ldxw => exact loads_loadOp (by decide) (fun s => exec_ldxw s ..)
  case ldxws => exact loads_loadOp (by decide) (fun s => exec_ldxws s ..)
  case ldxd => exact loads_loadOp (by decide) (fun s => exec_ldxd s ..)

end Sys2Proof.Machine
end

section
/-!
What a whole operation keeps. `Keeps` says it of a state, `KeepsOpt` of an operation that may not be allowed, `KeepsRes`
of a command: that it completes, and keeps what `Keeps` says.
-/

namespace Sys2Proof.Machine

variable {r s t u : State}

/-- Where the operation gives a state, that state keeps. -/
structure KeepsOpt (s : State) (o : Option State) : Prop where
  keeps : ∀ t, o = some t → Keeps s t

/-- The command completes, in a state that keeps. -/
def KeepsRes (s : State) (x : Res) : Prop := ∃ t, x = .next t ∧ Keeps s t

/-- The second of two operations first, as an expression shows them. -/
theorem Keeps.after (h2 : Keeps t u) (h1 : Keeps s t) : Keeps s u := h1.trans h2

/-! Cases. -/

theorem Keeps.ite_fst {α : Type} {c : Prop} [Decidable c] {x y : State × α} (hx : Keeps s x.1) (hy : Keeps s y.1) :
    Keeps s (if c then x else y).1 := by
  split <;> assumption

theorem Keeps.getD {o : Option State} (ho : KeepsOpt s o) (hn : Keeps s t) : Keeps s (o.getD t) := by
  cases o with
  | none => exact hn
  | some u => exact ho.keeps u rfl

/-- A step over a list that carries a value along. -/
theorem Keeps.foldl_fst {α β : Type} (f : State × β → α → State × β) (hf : ∀ (x : State × β) (a : α), Keeps x.1 (f x a).1)
    (l : List α) (s : State) (b : β) : Keeps s (l.foldl f (s, b)).1 := by
  suffices ∀ x : State × β, Keeps x.1 (l.foldl f x).1 from this (s, b)
  induction l with
  | nil => exact fun x => Keeps.refl _
  | cons a l ih => exact fun x => (hf x a).trans (ih _)

theorem KeepsOpt.get {o : Option State} (h : KeepsOpt s o) (ho : o = some t) : Keeps s t := h.keeps t ho

theorem KeepsOpt.none : KeepsOpt s none := ⟨fun _ h => nomatch h⟩

theorem KeepsOpt.some (h : Keeps s t) : KeepsOpt s (some t) := ⟨by
  rintro _ ⟨⟩
  exact h⟩

theorem KeepsOpt.ite {c : Prop} [Decidable c] {x y : Option State} (hx : KeepsOpt s x) (hy : KeepsOpt s y) :
    KeepsOpt s (if c then x else y) := by
  split <;> assumption

theorem KeepsOpt.after {x : Option State} (hx : KeepsOpt t x) (h : Keeps s t) : KeepsOpt s x :=
  ⟨fun u e => h.trans (hx.keeps u e)⟩

theorem KeepsOpt.map {o : Option State} {f : State → State} (ho : KeepsOpt s o) (hf : ∀ u, Keeps u (f u)) :
    KeepsOpt s (o.map f) := by
  refine ⟨fun t h => ?_⟩
  obtain ⟨u, hu, rfl⟩ := Option.map_eq_some_iff.mp h
  exact (ho.keeps u hu).trans (hf u)

theorem KeepsRes.next (h : Keeps s t) : KeepsRes s (.next t) := ⟨t, rfl, h⟩

theorem KeepsRes.when {c : Bool} (hs : Keeps r s) (ht : Keeps r t) : KeepsRes r (s.when c t) :=
  KeepsRes.next (Keeps.ite ht hs)

theorem KeepsRes.ite {c : Prop} [Decidable c] {x y : Res} (hx : KeepsRes s x) (hy : KeepsRes s y) :
    KeepsRes s (if c then x else y) := by
  split <;> assumption

theorem KeepsRes.after {x : Res} (hx : KeepsRes t x) (h : Keeps s t) : KeepsRes s x := by
  obtain ⟨u, e, hu⟩ := hx
  exact ⟨u, e, h.trans hu⟩

theorem keepsRes_asWrite {m : Master} {off : Nat} {f : State → State} (hf : ∀ s, Keeps s (f s)) :
    KeepsRes s (s.asWrite m off f) := by
  unfold State.asWrite
  exact KeepsRes.ite (.next (Keeps.refl _)) (.next ((keeps_setupAccess s m .write off).trans (Keeps.ite (hf _) (Keeps.refl _))))

theorem keeps_mcOnly {f : State → State} (hf : ∀ s, Keeps s (f s)) (s : State) (m : Master) : Keeps s (s.mcOnly m f) :=
  Keeps.ite (hf s) (keeps_ignoredIn ..)

/-! Memory. -/

/-- An update of memory, and of anything but registers, the queue and what was sent. -/
theorem Keeps.memSame (hm : s.mem.wf = true → t.mem.wf = true) (hr : t.regs = s.regs) (ha : t.act = s.act)
    (hp : t.pending = s.pending) (ho : t.out = s.out) : Keeps s t := by
  refine ⟨fun ⟨h, hw⟩ => ⟨hm h, ?_⟩, hp, [], by rw [ho, List.append_nil]⟩
  rw [State.regsWf, hr, ha]
  exact hw

/-- A state that keeps, with a memory that follows from the one before. -/
theorem Keeps.withMem {m : Mem} (h : Keeps s t) (hm : s.mem.wf = true → m.wf = true) : Keeps s { t with mem := m } :=
  ⟨fun hs => ⟨hm hs.1, (h.1 hs).2⟩, h.2⟩

theorem keeps_poison (s : State) (p : NSet) (hp : swf (fun _ => false) s.mem.poison = true → swf (fun _ => false) p = true) :
    Keeps s { s with mem := { s.mem with poison := p } } :=
  Keeps.mem fun h => by
    obtain ⟨hb, hc, hq, hr, hw⟩ := Mem.wf_iff.mp h
    exact Mem.wf_iff.mpr ⟨hb, hc, hp hq, hr, hw⟩

theorem keeps_committed (s : State) (l : List Host.Cell)
    (hl : swf (fun _ => (0 : Byte)) s.mem.committed = true → swf (fun _ => (0 : Byte)) l = true) :
    Keeps s { s with mem := { s.mem with committed := l } } :=
  Keeps.mem fun h => by
    obtain ⟨hb, hc, hq, hr, hw⟩ := Mem.wf_iff.mp h
    exact Mem.wf_iff.mpr ⟨hb, hl hc, hq, hr, hw⟩

theorem keeps_suspect (s : State) (p : NSet) : Keeps s { s with mem := { s.mem with suspect := p } } :=
  Keeps.mem fun h => Mem.wf_iff.mpr (Mem.wf_iff.mp h)

theorem swf_cells {α : Type} (a : α → Nat) (b : α → Byte) (l : List α) (c : List Host.Cell)
    (h : swf (fun _ => (0 : Byte)) c = true) :
    swf (fun _ => (0 : Byte)) (l.foldl (fun m e => sset (fun _ => 0) m (a e) (b e)) c) = true := by
  induction l generalizing c with
  | nil => exact h
  | cons e l ih => exact ih _ (swf_sset _ _ _ _ h)

/-! Registers and active values. -/

theorem keeps_regs (s : State) (l : List (Nat × W32)) (hl : swf regReset s.regs = true → swf regReset l = true) :
    Keeps s { s with regs := l } := by
  refine ⟨fun ⟨hm, hr⟩ => ⟨hm, ?_⟩, rfl, [], (List.append_nil _).symm⟩
  obtain ⟨h, ha⟩ := Bool.and_eq_true_iff.mp hr
  exact Bool.and_eq_true_iff.mpr ⟨hl h, ha⟩

theorem keeps_act (s : State) (l : List (Nat × W32)) (hl : swf regReset s.act = true → swf regReset l = true) :
    Keeps s { s with act := l } := by
  refine ⟨fun ⟨hm, hr⟩ => ⟨hm, ?_⟩, rfl, [], (List.append_nil _).symm⟩
  obtain ⟨h, ha⟩ := Bool.and_eq_true_iff.mp hr
  exact Bool.and_eq_true_iff.mpr ⟨h, hl ha⟩

theorem keeps_takeRegs (s : State) (p : Nat → Bool) : Keeps s { s with act := scopy regReset p s.regs s.act } :=
  keeps_act s _ (swf_scopy _ _ _ _)

/-! The other fields. -/

theorem keeps_free (s : State) (x : Nat) : Keeps s { s with free := x } := Keeps.same rfl rfl rfl rfl rfl
theorem keeps_latch (s : State) (x : List (Nat × Nat × W32)) : Keeps s { s with latch := x } := Keeps.same rfl rfl rfl rfl rfl
theorem keeps_conf (s : State) (x : Conf) : Keeps s { s with conf := x } := Keeps.same rfl rfl rfl rfl rfl
theorem keeps_power (s : State) (x : Power) : Keeps s { s with power := x } := Keeps.same rfl rfl rfl rfl rfl
theorem keeps_clk (s : State) (x : Vector Cluster 4) : Keeps s { s with clk := x } := Keeps.same rfl rfl rfl rfl rfl
theorem keeps_cat (s : State) (x : Cat) : Keeps s { s with cat := x } := Keeps.same rfl rfl rfl rfl rfl
theorem keeps_integ (s : State) (x : Integ) : Keeps s { s with integ := x } := Keeps.same rfl rfl rfl rfl rfl
theorem keeps_bogie (s : State) (x : Bogie) : Keeps s { s with bogie := x } := Keeps.same rfl rfl rfl rfl rfl
theorem keeps_pair (s : State) (x : Pair) : Keeps s { s with pair := x } := Keeps.same rfl rfl rfl rfl rfl
theorem keeps_olc (s : State) (x : Olc) : Keeps s { s with olc := x } := Keeps.same rfl rfl rfl rfl rfl
theorem keeps_brm (s : State) (x : Brm) : Keeps s { s with brm := x } := Keeps.same rfl rfl rfl rfl rfl
theorem keeps_scan (s : State) (x : Scan) : Keeps s { s with scan := x } := Keeps.same rfl rfl rfl rfl rfl
theorem keeps_recd (s : State) (x : Rec) : Keeps s { s with recd := x } := Keeps.same rfl rfl rfl rfl rfl
theorem keeps_time (s : State) (x : TimeS) : Keeps s { s with time := x } := Keeps.same rfl rfl rfl rfl rfl
theorem keeps_island (s : State) (x : Island) : Keeps s { s with island := x } := Keeps.same rfl rfl rfl rfl rfl
theorem keeps_rfx (s : State) (x : Rfx) : Keeps s { s with rfx := x } := Keeps.same rfl rfl rfl rfl rfl
theorem keeps_acq (s : State) (x : Acq) : Keeps s { s with acq := x } := Keeps.same rfl rfl rfl rfl rfl
theorem keeps_ring (s : State) (x : Ring) : Keeps s { s with ring := x } := Keeps.same rfl rfl rfl rfl rfl
theorem keeps_can (s : State) (x : Can) : Keeps s { s with can := x } := Keeps.same rfl rfl rfl rfl rfl
theorem keeps_host (s : State) (x : HostS) : Keeps s { s with host := x } := Keeps.same rfl rfl rfl rfl rfl
theorem keeps_dma (s : State) (x : Dma) : Keeps s { s with dma := x } := Keeps.same rfl rfl rfl rfl rfl
theorem keeps_dray (s : State) (x : Dray) : Keeps s { s with dray := x } := Keeps.same rfl rfl rfl rfl rfl
theorem keeps_bay (s : State) (x : Bay) : Keeps s { s with bay := x } := Keeps.same rfl rfl rfl rfl rfl
theorem keeps_obs (s : State) (x : Obs) : Keeps s { s with obs := x } := Keeps.same rfl rfl rfl rfl rfl
theorem keeps_wf (s : State) (x : Wf) : Keeps s { s with wf := x } := Keeps.same rfl rfl rfl rfl rfl
end Sys2Proof.Machine

end

section
/-! What whole operations keep: general operations. -/

namespace Sys2Proof.Machine

theorem keeps_rateOk (s : State) (key limit : Nat) (whole : Bool) : Keeps s (s.rateOk key limit whole).1 :=
  Keeps.ite_fst (Keeps.refl _) (Keeps.ite_fst (Keeps.refl _) (keeps_power ..))
theorem keeps_obsPass (s : State) (frame : W64) (event aborted : Bool) (q m : W32) : Keeps s (s.obsPass frame event
    aborted q m) :=
  Keeps.after (Keeps.ite (keeps_obsCollect ..) (Keeps.refl _)) <| Keeps.after (Keeps.ite (keeps_obsCount ..)
    (Keeps.refl _)) <| keeps_obsCount ..
theorem keeps_mcAbandon (s : State) (a : Nat) : Keeps s (s.mcAbandon a) := keeps_raise ..
theorem keeps_spanAccess (s : State) (cls : Nat) (k : AccKind) (a n : Nat) : Keeps s (s.spanAccess cls k a n).1 :=
  Keeps.foldl_fst _ (fun _ _ => Keeps.ite_fst (Keeps.refl _) (keeps_catAccess ..)) _ _ _
theorem keeps_mcAccess (s : State) (k : AccKind) (a n : Nat) : Keeps s (s.mcAccess k a n).1 :=
  Keeps.ite (keeps_spanAccess ..) (Keeps.after (keeps_mcAbandon ..) <| keeps_spanAccess ..)
theorem keeps_mcSpans (s : State) (k : AccKind) (spans : List (Nat × Nat)) : Keeps s (s.mcSpans k spans).1 :=
  Keeps.foldl_fst _ (fun _ _ => Keeps.ite_fst (Keeps.refl _) (keeps_mcAccess ..)) _ _ _
theorem keeps_islandLoad (s : State) (block : Nat) : Keeps s (s.islandLoad block) := keeps_island ..
theorem keeps_setDch (s : State) (n : Nat) (f : DChan → DChan) : Keeps s (s.setDch n f) := keeps_island ..
theorem keeps_setLch (s : State) (n : Nat) (f : LChan → LChan) : Keeps s (s.setLch n f) := keeps_island ..
theorem keeps_mirrorVote (s : State) : Keeps s s.mirrorVote := keeps_island ..

end Sys2Proof.Machine
end

section
/-! What whole operations keep: the pair, packages, hosts, DMA, acquisition and the island. -/

namespace Sys2Proof.Machine

theorem keeps_liftHolds (s : State) : Keeps s s.liftHolds := keeps_island ..
theorem keeps_liftScan (s : State) : Keeps s s.liftScan :=
  Keeps.after (Keeps.foldl _ (fun _ _ => keeps_setLch ..) _ _) <| Keeps.foldl _ (fun _ _ => Keeps.ite (Keeps.refl _)
    (keeps_setDch ..)) _ _
theorem keeps_liftVote (s : State) : Keeps s s.liftVote :=
  Keeps.foldl _ (fun _ _ => Keeps.ite (keeps_setDch ..) (Keeps.refl _)) _ _
theorem keeps_startHold (s : State) : Keeps s s.startHold := Keeps.after (keeps_fset ..) <| keeps_island ..
theorem keeps_holdSafe (s : State) (all : Bool) : Keeps s (s.holdSafe all) :=
  Keeps.after (Keeps.foldl _ (fun _ _ => keeps_setLch ..) _ _) <| Keeps.foldl _ (fun _ _ => Keeps.ite
    (keeps_setDch ..) (Keeps.refl _)) _ _
theorem keeps_wfYield (s : State) (c : Nat) : Keeps s (s.wfYield c) := keeps_bump ..
theorem keeps_wfDone (s : State) (c lap : Nat) : Keeps s (s.wfDone c lap) :=
  Keeps.after (keeps_fset ..) <| Keeps.after (keeps_bump ..) <| Keeps.after (keeps_wr ..) <| keeps_wr ..
theorem keeps_setReady (s : State) (b : Bool) : Keeps s (s.setReady b) := keeps_fsetb ..
theorem keeps_dmaWait (s : State) : Keeps s s.dmaWait :=
  Keeps.after (Keeps.foldl _ (fun _ _ => Keeps.ite (keeps_fset ..) (Keeps.refl _)) _ _) <| keeps_fset ..
theorem keeps_dropCmds (s : State) : Keeps s s.dropCmds :=
  Keeps.after (Keeps.same rfl rfl rfl rfl rfl) <| Keeps.after (keeps_dmaWait ..) <| Keeps.foldl _ (fun _ _ =>
    Keeps.after (keeps_fset ..) <| keeps_fset ..) _ _
theorem keeps_tokenDrop (s : State) (transfer : Bool) : Keeps s (s.tokenDrop transfer) :=
  Keeps.after (keeps_showIsland ..) <| Keeps.after (keeps_bogie ..) <| Keeps.after (keeps_liftHolds ..) <|
    Keeps.after (keeps_fsetb ..) <| Keeps.after (keeps_fset ..) <| Keeps.after (keeps_fsetb ..) <| keeps_dropCmds ..
theorem keeps_latchAway (s : State) (toPartner : Bool) : Keeps s (s.latchAway toPartner) :=
  Keeps.after (keeps_bogie ..) <| Keeps.after (keeps_fsetb ..) <| keeps_tokenDrop ..
theorem keeps_tokenUp (s : State) : Keeps s s.tokenUp :=
  Keeps.after (Keeps.ite (keeps_startHold ..) (Keeps.refl _)) <| keeps_fsetb ..
theorem keeps_latchHere (s : State) (transfer : Bool) : Keeps s (s.latchHere transfer) :=
  Keeps.ite (keeps_bogie ..) (Keeps.after (keeps_canPermit ..) <| Keeps.after (keeps_tokenUp ..) <| keeps_bogie ..)
theorem keeps_olcCancel (s : State) : Keeps s s.olcCancel :=
  Keeps.ite (Keeps.after (keeps_raise ..) <| Keeps.after (keeps_wr ..) <| keeps_fset ..) (Keeps.refl _)
theorem keeps_olcCut (s : State) : Keeps s s.olcCut := by
  unfold State.olcCut
  split
  · exact Keeps.after (keeps_raise ..) <| Keeps.after (keeps_wr ..) <| Keeps.after (keeps_fset ..) <|
      Keeps.memSame (Mem.wf_foldl _ (fun _ (e : Nat × List Byte) => Mem.wf_putBytes e.2 e.1) _) rfl rfl rfl rfl
  · exact keeps_olcCancel ..
theorem keeps_logSwitch (s : State) (trigger kind : Nat) (incoming : Bool) : Keeps s (s.logSwitch trigger kind
    incoming) :=
  Keeps.after (keeps_pair ..) <| Keeps.after (keeps_wr64 ..) <| Keeps.after (keeps_fsetb ..) <|
    Keeps.after (keeps_fset ..) <| Keeps.after (keeps_fset ..) <| Keeps.after (keeps_bump ..) <| Keeps.ite
    (keeps_olcCancel ..) (keeps_olcCut ..)
theorem keeps_showForced (s : State) : Keeps s s.showForced := by
  unfold State.showForced
  split
  · exact Keeps.after (keeps_fset ..) <| keeps_fset ..
  · exact Keeps.after (keeps_fset ..) <| Keeps.after (keeps_fset ..) <| keeps_fset ..
theorem keeps_haltScan (s : State) : Keeps s s.haltScan :=
  Keeps.after (keeps_fset ..) <| Keeps.same rfl rfl rfl rfl rfl
theorem keeps_syncReset (s : State) : Keeps s s.syncReset :=
  Keeps.after (keeps_pair ..) <| Keeps.after (keeps_fset ..) <| keeps_wr ..
theorem keeps_toSyncing (s : State) : Keeps s s.toSyncing :=
  Keeps.after (keeps_send ..) <| Keeps.after (Keeps.same rfl rfl rfl rfl rfl) <| Keeps.after (keeps_canPermit ..) <|
    Keeps.after (keeps_fset ..) <| Keeps.after (keeps_syncReset ..) <| Keeps.after (keeps_enter ..) <|
    Keeps.after (keeps_haltScan ..) <| Keeps.after (keeps_fsetb ..) <| keeps_setReady ..
theorem keeps_showRemoval (s : State) (may : Bool) : Keeps s (s.showRemoval may) := keeps_emit ..
theorem keeps_handoverEnd (s : State) : Keeps s s.handoverEnd := Keeps.after (keeps_fsetb ..) <| keeps_pair ..
theorem keeps_tokenLost (s : State) (trigger : Nat) : Keeps s (s.tokenLost trigger) :=
  Keeps.after (keeps_toSyncing ..) <| Keeps.after (keeps_showForced ..) <| Keeps.after (keeps_pair ..) <|
    Keeps.after (keeps_handoverEnd ..) <| Keeps.after (keeps_logSwitch ..) <| keeps_haltScan ..
theorem keeps_afterDrop (s : State) : Keeps s s.afterDrop := by
  unfold State.afterDrop
  split
  · split
    · exact Keeps.ite (keeps_tokenLost ..) (Keeps.after (Keeps.ite (keeps_showRemoval ..) (Keeps.refl _)) <|
        Keeps.after (Keeps.ite (keeps_setReady ..) (Keeps.refl _)) <| Keeps.after (keeps_handoverEnd ..) <|
        Keeps.after (keeps_enter ..) <| Keeps.after (keeps_logSwitch ..) <| keeps_haltScan ..)
    · exact keeps_tokenLost ..
  · exact Keeps.after (Keeps.ite (keeps_showRemoval ..) (Keeps.refl _)) <| Keeps.after (keeps_pair ..) <|
      keeps_logSwitch ..
  · exact Keeps.refl _
theorem keeps_dropClaim (s : State) (trigger : Nat) : Keeps s (s.dropClaim trigger) :=
  Keeps.after (Keeps.ite (Keeps.after (keeps_canPermit ..) <| Keeps.after (keeps_afterDrop ..) <|
    Keeps.after (keeps_latchAway ..) <| keeps_pair ..) (Keeps.refl _)) <| keeps_fsetb ..
theorem keeps_startHandover (s : State) (trigger : Nat) : Keeps s (s.startHandover trigger) := by
  unfold State.startHandover
  split
  · exact Keeps.ite (Keeps.after (keeps_fsetb ..) <| keeps_pair ..) (Keeps.refl _)
  · exact Keeps.ite (keeps_dropClaim ..) (Keeps.refl _)
  · exact Keeps.refl _
theorem keeps_pullForced (s : State) : Keeps s s.pullForced :=
  Keeps.ite (Keeps.ite (keeps_dropClaim ..) (Keeps.ite (keeps_startHandover ..) (Keeps.refl _))) (Keeps.ite
    (keeps_dropClaim ..) (Keeps.refl _))
theorem keeps_forceZero (s : State) (cause : Nat) : Keeps s (s.forceZero cause) :=
  Keeps.after (keeps_pullForced ..) <| Keeps.after (Keeps.ite (keeps_setReady ..) (Keeps.refl _)) <|
    Keeps.after (keeps_showForced ..) <| keeps_pair ..
theorem keeps_unforce (s : State) (cause : Nat) : Keeps s (s.unforce cause) :=
  Keeps.after (Keeps.ite (keeps_setReady ..) (Keeps.refl _)) <| Keeps.after (keeps_showForced ..) <| keeps_pair ..
/-- A message acted on before is only acknowledged again. -/
theorem KeepsRes.onceOnly {r s t : State} {id : Nat} (hs : Keeps r s) (ht : Keeps r t) : KeepsRes r (s.onceOnly id t) :=
  KeepsRes.ite (.next hs) <| KeepsRes.ite (.next (hs.trans (keeps_ignoredIn ..))) <|
    KeepsRes.ite (.next (hs.trans (keeps_sendOnce ..))) (.next (ht.trans <| (keeps_pair ..).trans (keeps_sendOnce ..)))
theorem keeps_setSeq (s : State) (t : Nat) : Keeps s (s.setSeq t) := Keeps.after (keeps_acq ..) <| keeps_wr ..
theorem keeps_modOpen (s : State) (f : Capture → Capture) : Keeps s (s.modOpen f) := keeps_acq ..
theorem keeps_mark (s : State) (idx : Nat) (body : List Byte) : Keeps s (s.mark idx body) := keeps_modOpen ..
theorem keeps_showBacklog (s : State) : Keeps s s.showBacklog := keeps_wr ..
theorem keeps_writeSet (s : State) (first : Nat) (vals : List (BitVec 16)) : Keeps s (s.writeSet first vals) := by
  have hm {m : Mem} {a b : Nat} {x y : List Byte} (h : m.wf = true) : ((m.fill a x).fill b y).wf = true :=
    Mem.wf_fill _ _ (Mem.wf_fill _ _ h)
  refine Keeps.ite (Keeps.after (keeps_fset ..) <| Keeps.after (keeps_bumpBy ..) <| keeps_acq ..) <|
    Keeps.after (keeps_showBacklog ..) <| Keeps.after (keeps_acq ..) <| Keeps.ite ?_ <|
    Keeps.after (keeps_fset ..) <| Keeps.after (keeps_modOpen ..) <| Keeps.after (keeps_mark ..) ?_
  all_goals exact Keeps.ite (Keeps.mem hm) (Keeps.after (keeps_acq ..) (Keeps.mem hm))
theorem keeps_openCapture (s : State) (idx state : Nat) : Keeps s (s.openCapture idx state) :=
  Keeps.after (keeps_showBacklog ..) <| Keeps.after (keeps_fset ..) <| Keeps.after (keeps_bump ..) <| keeps_acq ..
theorem keeps_trigger (s : State) (idx state : Nat) : Keeps s (s.trigger idx state) := by
  unfold State.trigger
  split
  · exact keeps_openCapture ..
  · exact Keeps.after (keeps_modOpen ..) <| keeps_mark ..
theorem keeps_entryActions (s : State) (t : Nat) : Keeps s (s.entryActions t) :=
  Keeps.after (Keeps.ite (keeps_setSeq ..) (Keeps.refl _)) <| Keeps.after (Keeps.ite (keeps_trigger ..) (Keeps.refl
    _)) <| Keeps.after (Keeps.ite (keeps_mark ..) (Keeps.refl _)) <| Keeps.after (Keeps.ite (keeps_bump ..)
    (Keeps.refl _)) <| Keeps.ite (keeps_wr ..) (Keeps.refl _)
theorem keeps_seqGo (s : State) (t : Nat) : Keeps s (s.seqGo t) :=
  Keeps.after (keeps_entryActions ..) <| keeps_setSeq ..
theorem keeps_execSequencerStep (s : State) : KeepsRes s (execSequencerStep s) := by
  unfold execSequencerStep
  split
  · exact KeepsRes.when (Keeps.refl _) (keeps_seqGo ..)
  · exact KeepsRes.next (Keeps.refl _)
theorem keeps_execSequencerTimeout (s : State) : KeepsRes s (execSequencerTimeout s) :=
  KeepsRes.when (Keeps.refl _) (keeps_seqGo ..)
theorem keeps_execThresholdEventChange (n : Fin 32) (s : State) : KeepsRes s (execThresholdEventChange n s) :=
  KeepsRes.when (Keeps.refl _) (keeps_acq ..)
theorem keeps_decEffect (s : State) (idx : Nat) : Keeps s (s.decEffect idx) :=
  Keeps.ite (Keeps.after (keeps_mark ..) <| Keeps.after (keeps_fset ..) <| Keeps.after (keeps_bump ..) <|
    keeps_acq ..) (Keeps.refl _)
theorem keeps_storeSample (s : State) (idx : Nat) : Keeps s (s.storeSample idx) :=
  Keeps.ite (keeps_acq ..) (Keeps.ite (Keeps.after (keeps_writeSet ..) <| keeps_acq ..) (keeps_acq ..))
theorem keeps_showOver (s : State) (idx : Nat) (ovr : BitVec 16) : Keeps s (s.showOver idx ovr) :=
  Keeps.after (Keeps.ite (Keeps.refl _) (Keeps.after (keeps_modOpen ..) <| keeps_mark ..)) <|
    Keeps.after (keeps_acq ..) <| Keeps.foldl _ (fun _ _ => keeps_fsetb ..) _ _
theorem keeps_execSampleInstant (x : Vector (BitVec 16) 16) (ovr : BitVec 16) (s : State) : KeepsRes s
    (execSampleInstant x ovr s) :=
  KeepsRes.when (Keeps.refl _) (Keeps.after (Keeps.ite (Keeps.after (keeps_trigger ..) <| keeps_acq ..) (Keeps.refl
    _)) <| Keeps.after (Keeps.ite (Keeps.after (keeps_acq ..) <| keeps_setSeq ..) (Keeps.refl _)) <|
    Keeps.after (keeps_storeSample ..) <| Keeps.after (keeps_acq ..) <| Keeps.after (keeps_showOver ..) <|
    Keeps.after (keeps_decEffect ..) <| Keeps.after (keeps_wr64 ..) <| keeps_acq ..)
theorem keeps_endCapture (s : State) (stop : Nat) : Keeps s (s.endCapture stop) :=
  Keeps.after (keeps_showBacklog ..) <| Keeps.after (keeps_fset ..) <| keeps_modOpen ..
theorem keeps_execCaptureEnd (s : State) : KeepsRes s (execCaptureEnd s) := by
  unfold execCaptureEnd
  split
  · exact KeepsRes.next (Keeps.refl _)
  · exact KeepsRes.when (Keeps.refl _) (Keeps.after (Keeps.ite (keeps_setSeq ..) (keeps_seqGo ..)) <|
      Keeps.after (keeps_acq ..) <| keeps_endCapture ..)
theorem keeps_execDecimationUp (fifo : Bool) (s : State) : KeepsRes s (execDecimationUp fifo s) :=
  KeepsRes.when (Keeps.refl _) (keeps_acq ..)
theorem keeps_execDecimationDown (s : State) : KeepsRes s (execDecimationDown s) :=
  KeepsRes.when (Keeps.refl _) (keeps_acq ..)
theorem keeps_setSpare (s : State) (ch : Option (Fin 16)) : Keeps s (s.setSpare ch) :=
  Keeps.foldl _ (fun _ _ => keeps_fsetb ..) _ _
theorem keeps_execAcqCalibration (ch : Option (Fin 16)) (lap : Nat) (s : State) : KeepsRes s (execAcqCalibration ch
    lap s) := by
  unfold execAcqCalibration
  split
  · exact KeepsRes.when (Keeps.refl _) (keeps_setSpare ..)
  · exact KeepsRes.when (Keeps.refl _) (Keeps.after (keeps_wfDone ..) <| Keeps.after (keeps_wr ..) <|
      keeps_setSpare ..)
theorem keeps_execSkewMeasurement (w : SkewStep) (s : State) : KeepsRes s (execSkewMeasurement w s) := by
  unfold execSkewMeasurement
  split
  · exact KeepsRes.when (Keeps.refl _) (keeps_fset ..)
  · exact KeepsRes.when (Keeps.refl _) (keeps_acq ..)
  · exact KeepsRes.when (Keeps.refl _) (Keeps.after (keeps_wfDone ..) <| Keeps.after (keeps_fset ..) <|
      Keeps.after (keeps_fset ..) <| Keeps.after (keeps_wr ..) <| Keeps.foldl _ (fun _ _ => keeps_wr ..) _ _)
theorem keeps_execSkewLate (s : State) : KeepsRes s (execSkewLate s) := KeepsRes.when (Keeps.refl _) (keeps_fset ..)
theorem keeps_acqClearHistory (s : State) : Keeps s s.acqClearHistory := Keeps.after (keeps_fset ..) <| keeps_acq ..
theorem keeps_acqEnable (s : State) : Keeps s s.acqEnable :=
  Keeps.ite (Keeps.after (keeps_wr64 ..) <| Keeps.after (keeps_fset ..) <| Keeps.after (keeps_acq ..) <|
    keeps_acqClearHistory ..) (keeps_ignoredIn ..)
theorem keeps_acqDisable (s : State) : Keeps s s.acqDisable := by
  unfold State.acqDisable
  refine Keeps.ite (Keeps.after (keeps_fset ..) <| Keeps.after (keeps_fset ..) <| Keeps.after (keeps_acq ..) <| ?_)
    (keeps_ignoredIn ..)
  split
  · exact keeps_endCapture ..
  · exact Keeps.refl _
theorem keeps_acqArm (s : State) : Keeps s s.acqArm :=
  Keeps.ite (Keeps.after (keeps_seqGo ..) <| keeps_zero ..) (keeps_ignoredIn ..)
theorem keeps_acqDisarm (s : State) : Keeps s s.acqDisarm := Keeps.ite (keeps_acq ..) (keeps_ignoredIn ..)
theorem keeps_acqForceTrig (s : State) : Keeps s s.acqForceTrig := Keeps.ite (keeps_acq ..) (keeps_ignoredIn ..)
theorem keeps_acqClrCnt (s : State) : Keeps s s.acqClrCnt := keeps_zero ..
theorem keeps_execAcqEnable (m : Master) (s : State) : KeepsRes s (execAcqEnable m s) :=
  keepsRes_asWrite (fun _ => keeps_acqEnable ..)
theorem keeps_execAcqDisable (m : Master) (s : State) : KeepsRes s (execAcqDisable m s) :=
  keepsRes_asWrite (fun _ => keeps_acqDisable ..)
theorem keeps_execAcqArm (m : Master) (s : State) : KeepsRes s (execAcqArm m s) :=
  keepsRes_asWrite (fun _ => keeps_acqArm ..)
theorem keeps_execAcqDisarm (m : Master) (s : State) : KeepsRes s (execAcqDisarm m s) :=
  keepsRes_asWrite (fun _ => keeps_acqDisarm ..)
theorem keeps_execAcqForceTrig (m : Master) (s : State) : KeepsRes s (execAcqForceTrig m s) :=
  keepsRes_asWrite (fun _ => keeps_acqForceTrig ..)
theorem keeps_execAcqClrCnt (m : Master) (s : State) : KeepsRes s (execAcqClrCnt m s) :=
  keepsRes_asWrite (fun _ => keeps_acqClrCnt ..)
theorem keeps_islandTake (s : State) : Keeps s s.islandTake := by
  have scan (s : State) : Keeps s (match s.scan.pub with
      | some c => State.liftScan { s with island := { s.island with
          cmd := c, cmdSeen := s.island.cmdSeen || s.island.recovering, useMirror := false } }
      | none => s) := by
    split
    · exact Keeps.after (keeps_liftScan ..) (keeps_island ..)
    · exact Keeps.refl s
  exact Keeps.after (scan _) <| Keeps.after (Keeps.ite (keeps_liftHolds ..) (Keeps.refl _)) <| keeps_island ..
theorem keeps_framesResume (s : State) : Keeps s s.framesResume :=
  Keeps.after (keeps_islandTake ..) <| keeps_island ..
theorem keeps_islandMeasure (s : State) (mv compV : BitVec 16) (term ilim : W32) (rb : Vector (BitVec 25) 8) : Keeps s
    (s.islandMeasure mv compV term ilim rb) :=
  Keeps.after (keeps_island ..) <| Keeps.after (keeps_wr ..) <| keeps_wr ..
theorem keeps_execIslandStatusFrame (toIsland fromIsland : Bool) (mv compV : BitVec 16) (term ilim : W32) (rb : Vector
    (BitVec 25) 8) (s : State) : KeepsRes s (execIslandStatusFrame toIsland fromIsland mv compV term ilim rb s) :=
  KeepsRes.when (Keeps.refl _) (Keeps.after (keeps_showIsland ..) <| Keeps.after (Keeps.ite (keeps_framesResume ..)
    (keeps_bump ..)) <| Keeps.ite (keeps_islandMeasure ..) (keeps_bump ..))
theorem keeps_execLogicSilent (s : State) : KeepsRes s (execLogicSilent s) :=
  KeepsRes.when (Keeps.refl _) (Keeps.after (keeps_showIsland ..) <| Keeps.after (Keeps.ite (keeps_startHold ..)
    (Keeps.refl _)) <| keeps_island ..)
theorem keeps_execHoldExpiry (s : State) : KeepsRes s (execHoldExpiry s) :=
  KeepsRes.when (Keeps.refl _) (Keeps.after (keeps_showIsland ..) <| Keeps.after (keeps_holdSafe ..) <|
    keeps_island ..)
theorem keeps_execFramesResume (s : State) : KeepsRes s (execFramesResume s) :=
  KeepsRes.when (Keeps.refl _) (Keeps.after (keeps_showIsland ..) <| keeps_framesResume ..)
theorem keeps_execFilterStateChange (n : Fin 32) (samples : List Bool) (s : State) : KeepsRes s (execFilterStateChange
    n samples s) :=
  KeepsRes.when (Keeps.refl _) (Keeps.after (keeps_showIsland ..) <| keeps_setDch ..)
theorem keeps_execInputThresholdCheck (disagree : W32) (lap : Nat) (s : State) : KeepsRes s (execInputThresholdCheck
    disagree lap s) :=
  KeepsRes.when (Keeps.refl _) (Keeps.after (keeps_showIsland ..) <| Keeps.after (keeps_wfDone ..) <|
    Keeps.after (keeps_wr ..) <| Keeps.foldl _ (fun _ _ => Keeps.ite (Keeps.refl _) (keeps_setDch ..)) _ _)
theorem keeps_execOutputLatchOff (n : Fin 32) (s : State) : KeepsRes s (execOutputLatchOff n s) :=
  KeepsRes.when (Keeps.refl _) (Keeps.after (keeps_event ..) <| Keeps.after (keeps_showIsland ..) <|
    Keeps.after (keeps_bump ..) <| Keeps.after (keeps_setDch ..) <| keeps_setDch ..)
theorem keeps_execOutputRetry (n : Fin 32) (limited : Bool) (s : State) : KeepsRes s (execOutputRetry n limited s) :=
  KeepsRes.when (Keeps.refl _) (Keeps.after (Keeps.ite (Keeps.after (keeps_event ..) <|
    Keeps.after (keeps_showIsland ..) <| keeps_setDch ..) (Keeps.ite (Keeps.after (keeps_event ..) <|
    Keeps.after (keeps_showIsland ..) <| keeps_setDch ..) (keeps_showIsland ..))) <| keeps_bump ..)

end Sys2Proof.Machine
end

section
/-! What whole operations keep: the island, records, host queues and the drupelets. -/

namespace Sys2Proof.Machine

theorem keeps_execReadbackFaultSet (n : Fin 32) (s : State) : KeepsRes s (execReadbackFaultSet n s) :=
  KeepsRes.when (Keeps.refl _) (Keeps.after (keeps_showIsland ..) <| keeps_setDch ..)
theorem keeps_execReadbackFaultClear (n : Fin 32) (s : State) : KeepsRes s (execReadbackFaultClear n s) :=
  KeepsRes.when (Keeps.refl _) (Keeps.after (keeps_showIsland ..) <| keeps_setDch ..)
theorem keeps_execLplusWarning (mv : BitVec 16) (s : State) : KeepsRes s (execLplusWarning mv s) :=
  KeepsRes.when (Keeps.refl _) (Keeps.after (keeps_event ..) <| Keeps.after (keeps_showIsland ..) <|
    Keeps.after (keeps_bumpF ..) <| keeps_island ..)
theorem keeps_execLplusWarningClear (mv : BitVec 16) (s : State) : KeepsRes s (execLplusWarningClear mv s) :=
  KeepsRes.when (Keeps.refl _) (Keeps.after (keeps_showIsland ..) <| keeps_island ..)
theorem keeps_execOutputsOff (mv : BitVec 16) (s : State) : KeepsRes s (execOutputsOff mv s) :=
  KeepsRes.when (Keeps.refl _) (Keeps.after (keeps_event ..) <| Keeps.after (keeps_showIsland ..) <|
    Keeps.after (keeps_bumpF ..) <| Keeps.after (keeps_liftHolds ..) <| keeps_island ..)
theorem keeps_execSupplyRecovery (mv : BitVec 16) (s : State) : KeepsRes s (execSupplyRecovery mv s) :=
  KeepsRes.when (Keeps.refl _) (Keeps.after (keeps_event ..) <| Keeps.after (keeps_showIsland ..) <| Keeps.after
    (Keeps.ite (Keeps.refl _) (keeps_holdSafe ..)) <| keeps_island ..)
theorem keeps_execIslandPowerDown (mv : BitVec 16) (s : State) : KeepsRes s (execIslandPowerDown mv s) :=
  KeepsRes.when (Keeps.refl _) (Keeps.after (keeps_showIsland ..) <| keeps_island ..)
theorem keeps_execIslandStart (mv : BitVec 16) (s : State) : KeepsRes s (execIslandStart mv s) :=
  KeepsRes.when (Keeps.refl _) (Keeps.after (keeps_showIsland ..) <| Keeps.after (Keeps.foldl _ (fun _ _ =>
    Keeps.after (keeps_wr ..) <| keeps_wr ..) _ _) <| Keeps.after (keeps_islandLoad ..) <|
    Keeps.after (keeps_islandLoad ..) <| Keeps.after (keeps_islandLoad ..) <| keeps_island ..)
theorem keeps_execComplianceSet (n : Fin 8) (rb : BitVec 25) (s : State) : KeepsRes s (execComplianceSet n rb s) :=
  KeepsRes.when (Keeps.refl _) (Keeps.after (keeps_event ..) <| Keeps.after (keeps_showIsland ..) <| keeps_setLch ..)
theorem keeps_execComplianceClear (n : Fin 8) (rb : BitVec 25) (s : State) : KeepsRes s (execComplianceClear n rb s)
    :=
  KeepsRes.when (Keeps.refl _) (Keeps.after (keeps_showIsland ..) <| keeps_setLch ..)
theorem keeps_execMainPathFailure (n : Fin 8) (rb : BitVec 25) (s : State) : KeepsRes s (execMainPathFailure n rb s)
    :=
  KeepsRes.when (Keeps.refl _) (Keeps.after (keeps_event ..) <| Keeps.after (keeps_showIsland ..) <|
    Keeps.after (keeps_bumpF ..) <| keeps_setLch ..)
theorem keeps_loopFault (s : State) (n : Nat) : Keeps s (s.loopFault n) :=
  Keeps.after (keeps_event ..) <| Keeps.after (keeps_showIsland ..) <| Keeps.after (keeps_bumpF ..) <| keeps_setLch ..
theorem keeps_execLoopReadbackFault (n : Fin 8) (rb : BitVec 25) (s : State) : KeepsRes s (execLoopReadbackFault n rb
    s) :=
  KeepsRes.when (Keeps.refl _) (Keeps.after (keeps_loopFault ..) <| keeps_setLch ..)
theorem keeps_calibrate (s : State) (n : Nat) (err : Int) (fit : Option (Nat × Int × Int)) :
    Keeps s (s.calibrate n err fit) := by
  have fitted (s : State) : Keeps s (match fit with
      | none => s
      | some (span, lo, hi) =>
        if (s.lch n).calLimit ∨ (s.lch n).fallback ∨ (s.lch n).rbFault then s
        else match s.trimFit n span lo hi with
          | some (a, b) => (s.wr (R.aoChnTrimLo n) (a.setWidth 32)).wr (R.aoChnTrimHi n) (b.setWidth 32)
          | none => s.setLch n (fun c => { c with calLimit := true })) := by
    split
    · exact Keeps.refl s
    · refine Keeps.ite (Keeps.refl s) ?_
      split
      · exact Keeps.after (keeps_wr ..) (keeps_wr ..)
      · exact keeps_setLch ..
  exact Keeps.ite (Keeps.refl s) <| Keeps.ite (keeps_loopFault ..) <|
    Keeps.after (fitted _) (Keeps.ite (keeps_setLch ..) (Keeps.refl s))
theorem keeps_execLoopCalibration (err : Vector Int 8) (fit : Vector (Option (Nat × Int × Int)) 8) (lap : Nat)
    (s : State) : KeepsRes s (execLoopCalibration err fit lap s) :=
  KeepsRes.when (Keeps.refl _) (Keeps.after (keeps_showIsland ..) <| Keeps.after (keeps_wfDone ..) <|
    Keeps.after (keeps_wr ..) <| Keeps.foldl _ (fun _ _ => keeps_calibrate ..) _ _)
theorem keeps_dioClrCnt (s : State) : Keeps s s.dioClrCnt := keeps_zero ..
theorem keeps_dioClrMin (s : State) : Keeps s s.dioClrMin := keeps_wr ..
theorem keeps_mainPath (s : State) (mask : BitVec 8) : Keeps s (s.mainPath mask) :=
  Keeps.foldl _ (fun _ _ => Keeps.ite (keeps_setLch ..) (Keeps.refl _)) _ _
theorem keeps_aoRetest (s : State) (mask : BitVec 8) : Keeps s (s.aoRetest mask) :=
  Keeps.after (keeps_showIsland ..) <| keeps_mainPath ..
theorem keeps_aoClrCnt (s : State) : Keeps s s.aoClrCnt := keeps_zero ..
theorem keeps_execDioClrCnt (m : Master) (s : State) : KeepsRes s (execDioClrCnt m s) :=
  keepsRes_asWrite (fun _ => keeps_dioClrCnt ..)
theorem keeps_execDioClrMin (m : Master) (s : State) : KeepsRes s (execDioClrMin m s) :=
  keepsRes_asWrite (fun _ => keeps_dioClrMin ..)
theorem keeps_execAoRetest (m : Master) (mask : BitVec 8) (s : State) : KeepsRes s (execAoRetest m mask s) :=
  keepsRes_asWrite (fun _ => keeps_aoRetest ..)
theorem keeps_execAoClrCnt (m : Master) (s : State) : KeepsRes s (execAoClrCnt m s) :=
  keepsRes_asWrite (fun _ => keeps_aoClrCnt ..)
theorem keeps_modCmd (s : State) (id : Nat) (f : Cmd → Cmd) : Keeps s (s.modCmd id f) := keeps_host ..
theorem keeps_eqWrite (s : State) (p kind : Nat) (body : List Byte) : Keeps s (s.eqWrite p kind body) :=
  Keeps.after (keeps_host ..) <| keeps_emit ..
theorem keeps_eqDrain (p n : Nat) (s : State) : Keeps s (s.eqDrain p n) := by
  induction n generalizing s with
  | zero => exact Keeps.refl s
  | succ n ih =>
    unfold State.eqDrain
    refine Keeps.ite (Keeps.refl s) ?_
    split
    · exact (keeps_host ..).trans <| (keeps_eqWrite ..).trans <| ih _
    · exact (keeps_host ..).trans <| ih _
    · exact Keeps.ite (Keeps.refl s) ((keeps_host ..).trans <| keeps_eqWrite ..)
theorem keeps_eqServe (s : State) (p : Nat) : Keeps s (s.eqServe p) :=
  Keeps.after (keeps_fsetb ..) <| Keeps.after (Keeps.ite (Keeps.refl _) (keeps_emit ..)) <| keeps_eqDrain ..
theorem keeps_eqPut (s : State) (p kind : Nat) (body : List Byte) : Keeps s (s.eqPut p kind body) :=
  Keeps.ite (Keeps.refl _) (Keeps.ite (Keeps.after (keeps_eqServe ..) <| keeps_host ..) (Keeps.after (keeps_bump ..)
    <| keeps_host ..))
theorem keeps_eqRecord (s : State) (r : Record) : Keeps s (s.eqRecord r) :=
  Keeps.foldl _ (fun _ _ => Keeps.ite (keeps_eqPut ..) (Keeps.refl _)) _ _
theorem keeps_ringError (s : State) (n cause : Nat) (halt : Bool) : Keeps s (s.ringError n cause halt) :=
  Keeps.after (keeps_emit ..) <| Keeps.after (keeps_raise ..) <| Keeps.after (Keeps.ite (Keeps.after (keeps_fset ..)
    <| keeps_fset ..) (Keeps.refl _)) <| Keeps.after (keeps_bumpF ..) <| keeps_fset ..
theorem keeps_compWrites (s : State) (q : PendComp) : Keeps s (s.compWrites q) :=
  Keeps.after (keeps_obsCount ..) <| Keeps.after (keeps_bump ..) <| Keeps.after (keeps_wr ..) <|
    Keeps.after (keeps_host ..) <| Keeps.after (Keeps.ite (keeps_emit ..) (Keeps.refl _)) <|
    Keeps.after (keeps_emit ..) <| Keeps.after (keeps_emit ..) <| keeps_emit ..
theorem keeps_completeRing (n k : Nat) (s : State) : Keeps s (s.completeRing n k) := by
  induction k generalizing s with
  | zero => exact Keeps.refl s
  | succ k ih =>
    unfold State.completeRing
    split
    · exact Keeps.refl s
    · split
      · refine Keeps.ite (Keeps.after (ih _) ?_) <| Keeps.ite (Keeps.refl s) <| Keeps.after (keeps_emit ..) (keeps_modCmd ..)
        exact Keeps.after (keeps_compWrites ..) (keeps_host ..)
      · exact Keeps.after (ih _) <| Keeps.after (keeps_compWrites ..) (keeps_host ..)
theorem keeps_completeAll (s : State) : Keeps s s.completeAll :=
  Keeps.after (Keeps.foldl _ (fun _ _ => keeps_fsetb ..) _ _) <| Keeps.foldl _ (fun _ _ => keeps_completeRing ..) _ _
theorem keeps_cmdDone (s : State) (id status result : Nat) : Keeps s (s.cmdDone id status result) :=
  Keeps.after (keeps_completeAll ..) <| keeps_modCmd ..
theorem keeps_tellAsker (s : State) (x : Asker) : Keeps s (s.tellAsker x) := by
  unfold State.tellAsker
  split
  · exact Keeps.refl _
  · exact keeps_cmdDone ..
  · exact keeps_send ..
theorem keeps_endWaiting (s : State) (p : Cmd → Bool) (status : Nat) : Keeps s (s.endWaiting p status) :=
  Keeps.after (keeps_completeAll ..) <| keeps_host ..
theorem keeps_endSwitchCmds (s : State) (status : Nat) : Keeps s (s.endSwitchCmds status) := keeps_endWaiting ..
theorem keeps_endServiceCmds (s : State) (status : Nat) : Keeps s (s.endServiceCmds status) := keeps_endWaiting ..
theorem keeps_sendFor (s : State) (id : Nat) (o : Out) : Keeps s (s.sendFor id o) :=
  Keeps.ite (Keeps.after (keeps_modCmd ..) <| keeps_send ..) (Keeps.ite (Keeps.refl _) (keeps_send ..))
theorem keeps_dmaServe (n : Nat) (s : State) : Keeps s (s.dmaServe n) := by
  induction n generalizing s with
  | zero => exact Keeps.refl s
  | succ n ih =>
    unfold State.dmaServe
    split
    · exact (keeps_cmdDone ..).trans (ih _)
    · split
      · exact Keeps.refl s
      · exact Keeps.after (ih _) <| Keeps.after (keeps_fset ..) <| Keeps.after (keeps_fset ..) <| Keeps.after (keeps_fset ..) <|
          Keeps.after (keeps_dma ..) (keeps_modCmd ..)
theorem keeps_dmaGo (s : State) : Keeps s s.dmaGo := keeps_dmaServe ..
theorem keeps_dmaFree (s : State) (ch : Nat) : Keeps s (s.dmaFree ch) :=
  Keeps.after (keeps_dma ..) <| Keeps.after (keeps_dmaWait ..) <| keeps_fset ..
theorem keeps_dmaHalt (s : State) (ch cause : Nat) (module_ write : Bool) (addr : W64) : Keeps s (s.dmaHalt ch cause
    module_ write addr) :=
  Keeps.after (keeps_emit ..) <| Keeps.after (keeps_raise ..) <| Keeps.after (keeps_fset ..) <|
    Keeps.after (keeps_bump ..) <| Keeps.after (keeps_wr64 ..) <| Keeps.after (keeps_fsetb ..) <|
    Keeps.after (keeps_fsetb ..) <| Keeps.after (keeps_fset ..) <| keeps_fset ..
theorem keeps_eccCorrected (s : State) (a : Nat) : Keeps s (s.eccCorrected a) :=
  Keeps.after (keeps_obsCount ..) <| keeps_bump ..
theorem keeps_eccUe (s : State) (a : Nat) (scrub : Bool) : Keeps s (s.eccUe a scrub) :=
  (keeps_poison s _ (NSet.wf_add _)).trans <| (keeps_bump ..).trans <| (keeps_raise ..).trans <| (keeps_wr64 ..).trans <|
    (keeps_wr ..).trans <| (keeps_integ ..).trans <| keeps_fset ..
theorem keeps_initBlock (s : State) (blk : Nat) : Keeps s (s.initBlock blk).1 :=
  Keeps.after (Keeps.foldl _ (fun _ _ => Keeps.after (keeps_markDirty ..) <| keeps_wrMem ..) _ _) <|
    Keeps.after (keeps_markDirty ..) <| keeps_wrMem ..
theorem keeps_reinitBlock (s : State) (blk : Nat) : Keeps s (s.reinitBlock blk) :=
  Keeps.after (keeps_event ..) <| Keeps.after (keeps_fset ..) <| keeps_initBlock ..
theorem keeps_cartError (s : State) : Keeps s s.cartError := keeps_bump ..
theorem keeps_readReg (s : State) (cls off : Nat) : Keeps s (s.readReg cls off).1 := by
  unfold State.readReg
  refine Keeps.ite_fst (keeps_cartError ..) ?_
  split
  · exact keeps_badAccess ..
  · exact Keeps.refl _
theorem keeps_readLatched (s : State) (m : Master) (off : Nat) : Keeps s (s.readLatched m off).1 := by
  unfold State.readLatched
  refine Keeps.ite_fst (keeps_readReg ..) (Keeps.ite_fst (keeps_latch ..) ?_)
  split
  · exact Keeps.refl _
  · exact keeps_readReg ..
theorem keeps_execReadLoLatch (m : Master) (off size : Nat) (s : State) : KeepsRes s (execReadLoLatch m off size s) := by
  have hr := Keeps.after (keeps_readLatched (s.setupAccess m .read off).1 m off) (keeps_setupAccess s m .read off)
  have answer (t : State) (ht : Keeps s t) (o : Option W32) : KeepsRes s (match o with
      | some v => .next (t.emit (.readData m off v))
      | none => .next (t.emit (.errorResponse m off))) := by
    split <;> exact KeepsRes.next (Keeps.after (keeps_emit ..) ht)
  exact KeepsRes.ite (KeepsRes.next (Keeps.refl s)) <|
    KeepsRes.ite (KeepsRes.next <| Keeps.after (keeps_emit ..) (keeps_badAccess ..)) <|
    KeepsRes.ite (KeepsRes.next <| Keeps.after (keeps_emit ..) (keeps_setupAccess ..)) (answer _ hr _)
theorem keeps_setDru (s : State) (be : Fin 32) (d : Drupelet) : Keeps s (s.setDru be d) := keeps_brm ..
theorem keeps_setWin (s : State) (be : Fin 32) (w : Option Window) : Keeps s (s.setWin be w) := keeps_setDru ..
theorem keeps_showBrm (s : State) : Keeps s s.showBrm :=
  Keeps.after (keeps_fsetb ..) <| Keeps.after (keeps_fsetb ..) <| Keeps.after (keeps_fsetb ..) <|
    Keeps.after (keeps_wr ..) <| Keeps.after (keeps_wr ..) <| Keeps.after (keeps_wr ..) <|
    Keeps.after (keeps_wr ..) <| Keeps.foldl _ (fun _ _ => keeps_wr ..) _ _
theorem keeps_ungate (s : State) (be : Fin 32) : Keeps s (s.ungate be) :=
  Keeps.after (Keeps.ite (keeps_fset ..) (Keeps.refl _)) <| keeps_clk ..
theorem keeps_push (s : State) (be : Fin 32) (c : Cls) (w : Work) : Keeps s (s.push be c w) := by
  unfold State.push
  split
  · exact Keeps.after (keeps_setDru ..) <| keeps_ungate ..
  · exact keeps_brm ..
theorem keeps_deal (s : State) (c : Cls) (ws : List Work) : Keeps s (s.deal c ws) :=
  Keeps.ite (keeps_brm ..) (Keeps.foldl _ (fun _ _ => keeps_push ..) _ _)
theorem keeps_traceStop (s : State) : Keeps s s.traceStop := by
  unfold State.traceStop
  split
  · exact keeps_obs ..
  · exact Keeps.after (keeps_raise ..) <| Keeps.after (keeps_showBrm ..) <| Keeps.after (keeps_fset ..) <|
      Keeps.after (keeps_fset ..) <| Keeps.after (keeps_setDru ..) <| keeps_obs ..
theorem keeps_leavePool (s : State) (be : Fin 32) (st : DState) : Keeps s (s.leavePool be st) :=
  Keeps.after (keeps_showBrm ..) <| Keeps.after (keeps_setDru ..) <| keeps_brm ..
theorem keeps_deactivate (s : State) (be : Fin 32) (st : DState) : Keeps s (s.deactivate be st) :=
  Keeps.after (Keeps.ite (keeps_traceStop ..) (Keeps.refl _)) <| Keeps.after (Keeps.ite (keeps_obs ..) (Keeps.refl _))
    <| keeps_leavePool ..

end Sys2Proof.Machine
end

section
/-! What whole operations keep: the drupelets, the reflex plane and the recorder of bulk data. -/

namespace Sys2Proof.Machine

theorem keeps_traceEnter (s : State) (be : Fin 32) : Keeps s (s.traceEnter be) :=
  Keeps.ite (Keeps.after (keeps_raise ..) <| Keeps.after (keeps_fset ..) <| Keeps.after (keeps_fset ..) <|
    Keeps.after (keeps_obs ..) <| keeps_leavePool ..) (Keeps.refl _)
theorem keeps_obsWindow (s : State) (be : Fin 32) (w : Window) (how : ObsEnd) : Keeps s (s.obsWindow be w how) :=
  Keeps.ite (keeps_obsCollect ..) (Keeps.refl _)
theorem keeps_modCls (s : State) (k : Nat) (f : ClassRun → ClassRun) : Keeps s (s.modCls k f) := keeps_scan ..
theorem keeps_execTime (s : State) (k : Nat) : Keeps s (s.execTime k) := Keeps.after (keeps_wr ..) <| keeps_wr ..
theorem keeps_clsComplete (s : State) (k : Nat) : Keeps s (s.clsComplete k) :=
  Keeps.ite (Keeps.after (keeps_modCls ..) <| Keeps.ite (Keeps.refl _) (Keeps.after (keeps_fsetb ..) <|
    Keeps.after (keeps_bump ..) <| keeps_execTime ..)) (Keeps.refl _)
theorem keeps_releasePeriod (s : State) (k : Nat) : Keeps s (s.releasePeriod k) :=
  Keeps.after (Keeps.ite (keeps_clsComplete ..) (Keeps.refl _)) <| Keeps.after (keeps_deal ..) <|
    Keeps.after (keeps_modCls ..) <| keeps_brm ..
theorem keeps_startETasks_go (s : State) (before : List Nat) (l : List ETask) : Keeps s (State.startETasks.go s before l) := by
  induction l generalizing s before with
  | nil => exact Keeps.refl s
  | cons t r ih =>
    unfold State.startETasks.go
    exact Keeps.ite (ih ..) ((Keeps.foldl _ (fun _ _ => keeps_push ..) _ _).trans <| (keeps_brm ..).trans <| ih ..)
theorem keeps_releaseF (s : State) : Keeps s s.releaseF :=
  Keeps.ite (Keeps.after (keeps_scan ..) <| keeps_releasePeriod ..) (Keeps.refl _)
theorem keeps_startETasks (s : State) : Keeps s s.startETasks := keeps_startETasks_go ..
theorem keeps_eDone (s : State) (w : Work) (d : ChainDesc) : Keeps s (s.eDone w d) := by
  unfold State.eDone
  split
  · exact Keeps.refl _
  · exact Keeps.ite (Keeps.after (Keeps.ite (keeps_releaseF ..) (Keeps.refl _)) <|
      Keeps.after (keeps_startETasks ..) <| Keeps.after (keeps_bump ..) <| keeps_brm ..) (Keeps.after (Keeps.foldl _
      (fun _ _ => keeps_push ..) _ _) <| keeps_brm ..)
theorem keeps_chainDone (s : State) (be : Fin 32) (oc : OpenChain) (sig : W64) : Keeps s (s.chainDone be oc sig) := by
  unfold State.chainDone
  extract_lets _ s1 period r _ s2 _ s3 s4
  have h1 : Keeps s s1 := by
    dsimp only [s1]
    split
    · exact Keeps.ite (keeps_obs ..) (Keeps.refl s)
    · exact Keeps.refl s
  have h2 : Keeps s s2 := Keeps.after (keeps_brm ..) h1
  refine Keeps.ite (Keeps.after (keeps_eDone ..) h2) ?_
  have h4 : Keeps s3 s4 := by
    refine Keeps.foldl _ (fun s c => ?_) _ _
    split
    · exact Keeps.refl s
    · exact Keeps.ite (Keeps.after (keeps_push ..) (keeps_brm ..)) (keeps_brm ..)
  have h : Keeps s s4 := Keeps.after h4 <| Keeps.after (keeps_brm s2 _) h2
  clear_value s4
  split
  · exact h
  · exact Keeps.ite h (Keeps.after (keeps_clsComplete ..) h)
theorem keeps_mismatch (s : State) (be : Fin 32) (w : Window) : Keeps s (s.mismatch be w) :=
  Keeps.after (Keeps.ite (Keeps.after (Keeps.ite (keeps_forceZero ..) (Keeps.refl _)) <|
    Keeps.after (keeps_raise ..) <| keeps_fset ..) (keeps_brm ..)) <| Keeps.after (keeps_raise ..) <|
    Keeps.after (keeps_deactivate ..) <| Keeps.after (keeps_setDru ..) <| Keeps.after (keeps_bump ..) <|
    Keeps.after (keeps_bump ..) <| keeps_obsWindow ..
theorem keeps_showAudit (s : State) : Keeps s s.showAudit := keeps_fsetb ..
theorem keeps_openWindow (s : State) (be : Fin 32) (oc : OpenChain) (upset upsetH : W64) (rep : Option Replica) :
    Keeps s (s.openWindow be oc upset upsetH rep) :=
  Keeps.after (keeps_setWin ..) <| keeps_ungate ..
theorem keeps_traceEnd (s : State) (be : Fin 32) (w : Window) (r : Replica) (chainEnd : Bool) : Keeps s (s.traceEnd be
    w r chainEnd) :=
  Keeps.ite (keeps_setWin ..) (keeps_openWindow ..)
theorem keeps_auditLeave (s : State) (be : Fin 32) (oc : OpenChain) (r : Replica) : Keeps s (s.auditLeave be oc r) :=
  Keeps.after (keeps_showAudit ..) <| Keeps.after (keeps_setDru ..) <| keeps_brm ..
theorem keeps_auditDrop (s : State) (be : Fin 32) : Keeps s (s.auditDrop be) :=
  Keeps.after (keeps_showAudit ..) <| Keeps.after (keeps_setDru ..) <| keeps_brm ..
theorem keeps_auditMismatch (s : State) (be : Fin 32) (w : Window) (r : Replica) : Keeps s (s.auditMismatch be w r) :=
  Keeps.after (keeps_raise ..) <| Keeps.after (keeps_deactivate ..) <| Keeps.after (Keeps.ite (keeps_auditDrop ..)
    (keeps_auditLeave ..)) <| Keeps.after (keeps_setDru ..) <| Keeps.after (keeps_bump ..) <| keeps_bump ..
theorem keeps_spend (s : State) (w : Window) : Keeps s (s.spend w) :=
  Keeps.ite (Keeps.refl _) (Keeps.ite (keeps_brm ..) (keeps_brm ..))
theorem keeps_differ (s : State) (be : Fin 32) (w : Window) : Keeps s (s.differ be w) := by
  unfold State.differ
  split
  · exact Keeps.after (keeps_auditMismatch ..) <| keeps_spend ..
  · exact Keeps.after (keeps_mismatch ..) <| keeps_spend ..
theorem keeps_windowEnd (s : State) (be : Fin 32) (w : Window) (chainEnd : Bool) : Keeps s (s.windowEnd be w chainEnd)
    := by
  unfold State.windowEnd
  refine Keeps.ite ?_ (Keeps.ite (keeps_differ ..) (Keeps.after (keeps_setWin ..) <| keeps_spend ..))
  split
  · exact keeps_traceEnd ..
  · exact Keeps.refl _
theorem keeps_abandon (s : State) (be : Fin 32) (w : Window) (xrec : W64) : Keeps s (s.abandon be w xrec) :=
  Keeps.after (keeps_chainDone ..) <| Keeps.after (keeps_raise ..) <| keeps_setDru ..
theorem keeps_repAbandon (s : State) (be : Fin 32) (w : Window) : Keeps s (s.repAbandon be w) :=
  Keeps.ite (keeps_setWin ..) (keeps_setWin ..)
theorem keeps_goOn (s : State) (be : Fin 32) (w : Window) (oc : OpenChain) (upset upsetH : W64) : Keeps s (s.goOn be w
    oc upset upsetH) := by
  unfold State.goOn
  split
  · exact Keeps.ite (Keeps.after (keeps_wfYield ..) <| keeps_auditLeave ..) (keeps_openWindow ..)
  · exact Keeps.ite (Keeps.after (keeps_brm ..) <| keeps_setDru ..) (keeps_openWindow ..)
theorem keeps_exception (s : State) (be : Fin 32) (w : Window) (e : Exc) (pc : BitVec 24) (imm : BitVec 16)
    (addr : W64) : Keeps s (s.exception be w e pc imm addr) :=
  Keeps.ite (keeps_differ ..) (Keeps.after (Keeps.ite (Keeps.ite (keeps_repAbandon ..) (keeps_abandon ..))
    (Keeps.after (keeps_goOn ..) <| Keeps.ite (Keeps.refl _) (keeps_raise ..))) <| Keeps.after (Keeps.ite (Keeps.refl
    _) (keeps_obsWindow ..)) <| keeps_spend ..)
theorem keeps_awaitRepair (s : State) (be : Fin 32) (w : Window) (blk : Nat) : Keeps s (s.awaitRepair be w blk) :=
  Keeps.after (keeps_send ..) <| Keeps.after (keeps_integ ..) <| keeps_setWin ..
theorem keeps_repPoison (s : State) (be : Fin 32) (w : Window) (r : Replica) (a : Nat) : Keeps s (s.repPoison be w r
    a) :=
  Keeps.ite (Keeps.after (Keeps.ite (Keeps.after (keeps_send ..) <| keeps_integ ..) (Keeps.refl _)) <|
    Keeps.after (keeps_auditDrop ..) <| keeps_eccUe ..) (keeps_repAbandon ..)
theorem keeps_poisonExc (s : State) (be : Fin 32) (w : Window) (a : Nat) : Keeps s (s.poisonExc be w a) := by
  unfold State.poisonExc
  refine Keeps.ite (keeps_differ ..) (Keeps.ite ?_ (Keeps.after (Keeps.ite (Keeps.ite (keeps_awaitRepair ..)
    (Keeps.after (keeps_abandon ..) <| keeps_integ ..)) (Keeps.ite (Keeps.ite (Keeps.ite (Keeps.after
    (keeps_dropClaim ..) <| keeps_fset ..) (keeps_awaitRepair ..)) (Keeps.after (keeps_abandon ..) <| Keeps.ite
    (keeps_reinitBlock ..) (Keeps.refl _))) (keeps_abandon ..))) <| Keeps.after (keeps_obsWindow ..) <|
    Keeps.after (keeps_eccUe ..) <| keeps_spend ..))
  split
  · exact Keeps.after (keeps_repPoison ..) <| keeps_spend ..
  · exact Keeps.refl _
theorem keeps_winAccess (s : State) (be : Fin 32) (w : Window) (k : AccKind) (a : Nat) : Keeps s (s.winAccess be w k
    a).1 :=
  Keeps.ite_fst (Keeps.refl _) (keeps_catAccess ..)
theorem keeps_load (s : State) (be : Fin 32) (w : Window) (addr : Int) (n : Nat) (ecc : Ecc) (k : Nat → Core → Core) :
    Keeps s (s.load be w addr n ecc k).1 :=
  Keeps.ite_fst (Keeps.refl _) (Keeps.ite_fst (Keeps.refl _) (Keeps.ite_fst (Keeps.refl _) (Keeps.ite_fst (Keeps.refl
    _) (Keeps.ite_fst (Keeps.refl _) (Keeps.ite_fst (keeps_winAccess ..) (Keeps.ite_fst (keeps_winAccess ..)
    (Keeps.ite (Keeps.after (keeps_eccCorrected ..) <| keeps_winAccess ..) (keeps_winAccess ..))))))))
theorem keeps_store (s : State) (be : Fin 32) (w : Window) (addr : Int) (n : Nat) (v : W64) : Keeps s (s.store be w
    addr n v).1 :=
  Keeps.ite_fst (Keeps.refl _) (Keeps.ite_fst (Keeps.refl _) (Keeps.ite_fst (Keeps.refl _) (Keeps.ite_fst
    (keeps_winAccess ..) (keeps_winAccess ..))))
theorem keeps_fetch (s : State) (be : Fin 32) (pc : BitVec 24) : Keeps s (s.fetch be pc).1 := by
  unfold State.fetch
  extract_lets tag ix d _ pick
  have hp (t : State) (l : ILine) (h : Keeps s t) : Keeps s (pick t l).1 := Keeps.ite_fst h h
  clear_value pick
  split
  · exact hp _ _ (Keeps.refl s)
  · have h := keeps_catAccess s clsBrm be.val .fetch (s.bank + tag * 64)
    exact Keeps.ite_fst h (hp _ _ <| Keeps.after (keeps_setDru ..) <| Keeps.after (keeps_obsCount ..) h)
theorem keeps_dropLines (s : State) : Keeps s s.dropLines := keeps_brm ..
theorem keeps_dropBlockLines (s : State) (off : Nat) : Keeps s (s.dropBlockLines off) := keeps_brm ..
theorem keeps_stepRecord (s : State) (w w' : Window) (x : W32) (ended exc : Bool) : Keeps s (s.stepRecord w w' x ended
    exc) :=
  Keeps.ite (Keeps.refl _) (keeps_obsCollect ..)
theorem keeps_instr {body : State → Window → State × OpRes} (hb : ∀ s w, Keeps s (body s w).1) (s : State) (be : Fin 32)
    (ecc : Ecc) (i : Instr) : Keeps s (s.instr be ecc i body) := by
  unfold State.instr
  split
  · exact Keeps.refl s
  next w _ =>
  refine Keeps.ite (Keeps.refl s) <| Keeps.ite (keeps_exception ..) ?_
  have hf := keeps_fetch s be w.core.pc
  generalize s.fetch be w.core.pc = x at hf ⊢
  obtain ⟨s1, f⟩ := x
  cases f with
  | poisoned a => exact Keeps.after (keeps_poisonExc ..) hf
  | refused => exact Keeps.after (keeps_exception ..) hf
  | word x =>
    dsimp only
    split
    · exact Keeps.after (keeps_exception ..) <| Keeps.after (keeps_stepRecord ..) hf
    · refine Keeps.ite (Keeps.refl s) ?_
      have h := Keeps.after (hb s1 w) hf
      generalize body s1 w = y at h ⊢
      obtain ⟨s2, r⟩ := y
      cases r with
      | go w' => exact Keeps.after (keeps_setWin ..) <| Keeps.after (keeps_stepRecord ..) h
      | last w' ce => exact Keeps.after (keeps_windowEnd ..) <| Keeps.after (keeps_stepRecord ..) h
      | exc e pc' imm a =>
        exact Keeps.after (keeps_traceEnter ..) <| Keeps.after (keeps_exception ..) <| Keeps.after (keeps_stepRecord ..) h
      | poison a => exact Keeps.after (keeps_poisonExc ..) h
theorem keeps_regOp (s : State) (be : Fin 32) (i : Instr) (f : Core → Core) : KeepsRes s (s.regOp be i f) :=
  KeepsRes.next (keeps_instr (fun _ _ => Keeps.refl _) ..)
theorem keeps_rfxLoad (s : State) (bankBase slot : Nat) : Keeps s (s.rfxLoad bankBase slot) :=
  Keeps.mem (Mem.wf_foldl _ (fun _ _ => Mem.wf_copySpan _ _ _) _)
theorem keeps_setSlot (s : State) (k e : Nat) : Keeps s (s.setSlot k e) := keeps_fset ..
theorem keeps_showRfx (s : State) : Keeps s s.showRfx :=
  Keeps.after (Keeps.ite (Keeps.ite (Keeps.refl _) (Keeps.after (keeps_forceZero ..) <|
    Keeps.after (keeps_raise ..) <| Keeps.after (keeps_fset ..) <| Keeps.same rfl rfl rfl rfl rfl)) (Keeps.ite
    (Keeps.after (keeps_unforce ..) <| Keeps.after (keeps_island ..) <| keeps_fset ..) (Keeps.refl _))) <|
    Keeps.after (keeps_fsetb ..) <| Keeps.after (keeps_fsetb ..) <| keeps_fsetb ..
theorem keeps_rfxRole (s : State) (k e : Nat) : Keeps s (s.rfxRole k e) :=
  Keeps.after (keeps_raise ..) <| Keeps.after (keeps_fset ..) <| keeps_setSlot ..
theorem keeps_spareTakeover (s : State) : Keeps s s.spareTakeover := by
  unfold State.spareTakeover
  split
  · exact Keeps.refl _
  · exact Keeps.ite (Keeps.after (keeps_event ..) <| Keeps.after (keeps_bump ..) <| Keeps.after (keeps_rfxRole ..) <|
      keeps_setSlot ..) (Keeps.refl _)
theorem keeps_rfxJoin (s : State) (e : Nat) : Keeps s (s.rfxJoin e) := by
  unfold State.rfxJoin
  split
  · exact Keeps.after (keeps_rfx ..) <| keeps_rfxRole ..
  · exact Keeps.refl _
theorem keeps_oddEngine (s : State) (e : Nat) : Keeps s (s.oddEngine e) := by
  unfold State.oddEngine
  split
  · exact Keeps.refl _
  · exact Keeps.after (Keeps.ite (Keeps.refl _) (Keeps.after (Keeps.ite (Keeps.refl _) (keeps_event ..)) <|
      keeps_rfx ..)) <| Keeps.after (keeps_raise ..) <| Keeps.after (keeps_bump ..) <| Keeps.after (keeps_fset ..) <|
      keeps_setSlot ..
theorem keeps_passAccess (s : State) (e : Nat) : Keeps s (s.passAccess e).1 :=
  Keeps.foldl_fst _ (fun _ _ => Keeps.ite_fst (Keeps.refl _) (keeps_catAccess ..)) _ _ _
theorem passGuard_eq (s : State) (e : Nat) : s.passGuard e = (if !(s.passAccess e).2 then ((s.passAccess e).1, true)
    else match (s.passAccess e).1.badProgram e with
      | some w => ((s.passAccess e).1.eccUe (w * 8) false, true)
      | none => ((s.passAccess e).1, false)) := rfl
/-- A guard that ends at a refused access or at a bad word of the program. -/
theorem keeps_guarded {x : State × Bool} {s : State} {w : Option Nat} (h : Keeps s x.1) :
    Keeps s (if !x.2 then (x.1, true) else match w with
      | some w => (x.1.eccUe (w * 8) false, true)
      | none => (x.1, false)).1 := by
  obtain ⟨t, ok⟩ := x
  cases ok with
  | false => exact h
  | true =>
    cases w with
    | none => exact h
    | some w => exact h.trans (keeps_eccUe ..)
theorem keeps_passGuard (s : State) (e : Nat) : Keeps s (s.passGuard e).1 := by
  rw [passGuard_eq]
  exact keeps_guarded (keeps_passAccess ..)
/-- A guard of one engine hands on its state. -/
theorem keeps_guarded_fst {s : State} {y : State × Bool} {b c : BitVec 4} (h : Keeps s y.1) :
    Keeps s (y.1, if y.2 then b else c).1 := h
theorem keeps_guardAll (s : State) : Keeps s s.guardAll.1 :=
  Keeps.foldl_fst _ (fun x e => keeps_guarded_fst (keeps_passGuard x.1 e)) s.rfxRoles s _
theorem keeps_startPass (s : State) (event : Bool) : Keeps s (s.startPass event) :=
  Keeps.after (keeps_rfx ..) <| keeps_guardAll ..
theorem keeps_setStale (s : State) (b : Bool) : Keeps s (s.setStale b) :=
  Keeps.after (keeps_fsetb ..) <| keeps_fsetb ..
theorem keeps_linkSend (s : State) : Keeps s s.linkSend := Keeps.ite (keeps_emit ..) (Keeps.refl _)
theorem keeps_rfxBoundaryRoles (s : State) : Keeps s s.rfxBoundaryRoles :=
  Keeps.after (keeps_showRfx ..) <| Keeps.after (Keeps.foldl _ (fun _ _ => keeps_rfxJoin ..) _ _) <|
    Keeps.after (keeps_spareTakeover ..) <| keeps_rfx ..
theorem keeps_frameTick (s : State) : Keeps s s.frameTick :=
  Keeps.ite (Keeps.refl _) (Keeps.after (Keeps.ite (keeps_rfx ..) (Keeps.refl _)) <| Keeps.ite (keeps_wr64 ..)
    (keeps_rfx ..))
theorem keeps_frameBoundary (s : State) : Keeps s s.frameBoundary := by
  unfold State.frameBoundary
  refine Keeps.after (Keeps.ite (Keeps.refl _) ?_) <| Keeps.after (keeps_linkSend ..) <|
    Keeps.after (keeps_frameTick ..) <| Keeps.after (keeps_rfxBoundaryRoles ..) <| keeps_rfx ..
  split
  · exact keeps_startPass ..
  · exact keeps_rfx ..
theorem keeps_execArmedEventDispatch (irise ifall arise afall : W32) (s : State) : KeepsRes s (execArmedEventDispatch
    irise ifall arise afall s) := by
  unfold execArmedEventDispatch
  refine KeepsRes.when (Keeps.refl _) ?_
  split
  · exact Keeps.after (keeps_startPass ..) <| keeps_rfx ..
  · exact Keeps.ite (Keeps.after (keeps_bumpBy ..) <| keeps_rfx ..) (Keeps.after (keeps_startPass ..) <|
      Keeps.after (keeps_obsPass ..) <| Keeps.after (keeps_bump ..) <| keeps_rfx ..)
theorem keeps_islandVote (s : State) (u : Nat → RCommit) : Keeps s (s.islandVote u) :=
  Keeps.ite (Keeps.after (keeps_showIsland ..) <| Keeps.after (keeps_liftVote ..) <| Keeps.after (Keeps.ite
    (keeps_mirrorVote ..) (Keeps.refl _)) <| keeps_island ..) (Keeps.refl _)
theorem keeps_takeMailbox (s : State) (m : Mailbox) : Keeps s (s.takeMailbox m) := keeps_rfx ..
theorem keeps_compareEngines (s : State) (u : Nat → RCommit) : Keeps s (s.compareEngines u) := by
  unfold State.compareEngines
  have first (l : List Nat) : Keeps s (match l with | e :: _ => s.takeMailbox (u e).img.mb | [] => s) := by
    split
    · exact keeps_takeMailbox ..
    · exact Keeps.refl s
  extract_lets slots s1 s2
  have h : Keeps s s2 := by
    exact Keeps.after (keeps_raise ..) <| Keeps.after (keeps_fset ..) <| Keeps.after (keeps_bump ..) (first _)
  split
  · exact Keeps.after (keeps_showRfx ..) <| Keeps.after (Keeps.foldl _ (fun _ _ => keeps_oddEngine ..) _ _) <|
      Keeps.after (keeps_takeMailbox ..) <| Keeps.ite (Keeps.refl s) (keeps_bump ..)
  · exact Keeps.ite (Keeps.after (keeps_forceZero ..) h) h
theorem keeps_nextPass (s : State) : Keeps s s.nextPass :=
  Keeps.ite (Keeps.refl _) (Keeps.ite (Keeps.after (keeps_startPass ..) <| keeps_rfx ..) (Keeps.ite
    (keeps_startPass ..) (Keeps.refl _)))
theorem keeps_countPass (s : State) (event : Bool) : Keeps s (s.countPass event) :=
  Keeps.after (Keeps.ite (Keeps.after (keeps_wr ..) <| keeps_bump ..) (Keeps.refl _)) <| keeps_wr64 ..
theorem keeps_passEnd (s : State) (p : RPass) (up : Vector (Option RImage) 4) (late : BitVec 4) :
    Keeps s (s.passEnd p up late) := by
  unfold State.passEnd
  extract_lets img u g _ _ s1
  have h : Keeps s s1 := Keeps.after (keeps_countPass ..) (Keeps.same rfl rfl rfl rfl rfl)
  clear_value s1
  exact Keeps.after (keeps_islandVote ..) <| Keeps.after (keeps_compareEngines ..) <| Keeps.after (keeps_obsPass ..) h
theorem keeps_execPassCommit (up : Vector (Option RImage) 4) (late : BitVec 4) (s : State) : KeepsRes s
    (execPassCommit up late s) := by
  unfold execPassCommit
  split
  · exact KeepsRes.next (Keeps.refl _)
  · exact KeepsRes.next (Keeps.after (keeps_nextPass ..) <| keeps_passEnd ..)
theorem keeps_showTrans (s : State) : Keeps s s.showTrans := Keeps.foldl _ (fun _ _ => keeps_fset ..) _ _
theorem keeps_prepareEngine (s : State) (e : Nat) : Keeps s (s.prepareEngine e) := by
  have hc (s : State) (bank k : Nat) : Keeps s (if s.hRfxImg bank = 0 then s else
      { s with mem := s.mem.copySpan (bank + s.hRfxImg bank) (rfxSlotBase e k)
                ((0x440 + 2 * min (s.mem.rfxLen (bank + s.hRfxImg bank)) 1024 + 7) / 8 * 8) }) :=
    Keeps.ite (Keeps.refl s) (Keeps.mem (Mem.wf_copySpan _ _ _))
  exact Keeps.ite ((hc ..).trans (hc ..)) (hc ..)
theorem keeps_execReflexSelftestVerdict (e : Fin 4) (pass : Bool) (s : State) : KeepsRes s (execReflexSelftestVerdict
    e pass s) :=
  KeepsRes.when (Keeps.refl _) (Keeps.after (keeps_showRfx ..) <| Keeps.ite (Keeps.after (keeps_raise ..) <|
    Keeps.after (keeps_fset ..) <| keeps_fset ..) (Keeps.ite (Keeps.after (keeps_raise ..) <|
    Keeps.after (keeps_fset ..) <| Keeps.after (keeps_fset ..) <| Keeps.after (keeps_showTrans ..) <| keeps_rfx ..)
    (Keeps.after (keeps_raise ..) <| Keeps.after (keeps_fset ..) <| Keeps.after (keeps_rfx ..) <|
    Keeps.after (keeps_prepareEngine ..) <| Keeps.after (keeps_showTrans ..) <| keeps_rfx ..)))
theorem keeps_execMailboxStaleTimeout (s : State) : KeepsRes s (execMailboxStaleTimeout s) :=
  KeepsRes.when (Keeps.refl _) (keeps_setStale ..)
theorem keeps_rfxArm (s : State) : Keeps s s.rfxArm :=
  Keeps.after (keeps_showIsland ..) <| Keeps.after (keeps_setStale ..) <| Keeps.after (keeps_fset ..) <| Keeps.same
    rfl rfl rfl rfl rfl
theorem keeps_showProg (s : State) (slot : Nat) : Keeps s (s.showProg slot) :=
  Keeps.after (keeps_wr ..) <| Keeps.after (keeps_fset ..) <| keeps_fset ..
theorem keeps_rfxArmBank (s : State) : Keeps s s.rfxArmBank :=
  Keeps.ite (Keeps.refl _) (Keeps.after (keeps_rfxArm ..) <| Keeps.after (keeps_showProg ..) <| keeps_rfxLoad ..)
theorem keeps_rfxDisarm (s : State) : Keeps s s.rfxDisarm :=
  Keeps.after (keeps_showIsland ..) <| Keeps.after (Keeps.same rfl rfl rfl rfl rfl) <| keeps_fset ..
theorem keeps_settlePasses (n : Nat) (s : State) : Keeps s (s.settlePasses n) := by
  induction n generalizing s with
  | zero => exact Keeps.refl s
  | succ n ih =>
    unfold State.settlePasses
    split
    · exact Keeps.refl s
    · exact Keeps.after (ih _) <| Keeps.after (keeps_nextPass ..) (keeps_passEnd ..)
theorem keeps_rfxExchange (s : State) : Keeps s s.rfxExchange :=
  Keeps.ite (Keeps.refl _) (Keeps.after (keeps_showProg ..) <| Keeps.after (keeps_fset ..) <|
    Keeps.after (keeps_rfx ..) <| keeps_settlePasses ..)
theorem keeps_rfxCtrlArm (s : State) : Keeps s s.rfxCtrlArm := Keeps.ite (keeps_rfxArm ..) (keeps_ignoredIn ..)
theorem keeps_rfxCtrlDisarm (s : State) : Keeps s s.rfxCtrlDisarm :=
  Keeps.ite (keeps_rfxDisarm ..) (keeps_ignoredIn ..)
theorem keeps_rfxClrCnt (s : State) : Keeps s s.rfxClrCnt := keeps_zero ..
theorem keeps_rfxClrMaxlat (s : State) : Keeps s s.rfxClrMaxlat := keeps_wr ..
theorem keeps_rfxUnretire (s : State) (v : W32) : Keeps s (s.rfxUnretire v) :=
  Keeps.ite (Keeps.after (keeps_raise ..) <| Keeps.after (keeps_showRfx ..) <| Keeps.after (keeps_fset ..) <|
    Keeps.after (keeps_fset ..) <| keeps_rfx ..) (keeps_ignoredIn ..)
theorem keeps_execRfxArm (m : Master) (s : State) : KeepsRes s (execRfxArm m s) :=
  keepsRes_asWrite (fun _ => keeps_rfxCtrlArm ..)
theorem keeps_execRfxDisarm (m : Master) (s : State) : KeepsRes s (execRfxDisarm m s) :=
  keepsRes_asWrite (fun _ => keeps_rfxCtrlDisarm ..)
theorem keeps_execRfxClrCnt (m : Master) (s : State) : KeepsRes s (execRfxClrCnt m s) :=
  keepsRes_asWrite (fun _ => keeps_rfxClrCnt ..)
theorem keeps_execRfxClrMaxlat (m : Master) (s : State) : KeepsRes s (execRfxClrMaxlat m s) :=
  keepsRes_asWrite (fun _ => keeps_rfxClrMaxlat ..)
theorem keeps_execRfxUnretire (m : Master) (v : W32) (s : State) : KeepsRes s (execRfxUnretire m v s) :=
  keepsRes_asWrite (fun _ => keeps_rfxUnretire ..)
theorem keeps_drayShow (s : State) : Keeps s s.drayShow :=
  Keeps.after (keeps_wr ..) <| Keeps.after (keeps_wr ..) <| Keeps.after (keeps_wr ..) <| keeps_wr ..
theorem keeps_drayEvent (s : State) (r : Record) : Keeps s (s.drayEvent r) :=
  Keeps.ite (Keeps.refl _) (Keeps.ite (keeps_bump ..) (Keeps.after (keeps_drayShow ..) <| keeps_dray ..))
theorem keeps_drayHist (s : State) (r : List Byte) : Keeps s (s.drayHist r) :=
  Keeps.after (keeps_drayShow ..) <| Keeps.after (keeps_bumpBy ..) <| keeps_dray ..
theorem keeps_histCommit (s : State) (c : Cls) (cycle time : W64) : Keeps s (s.histCommit c cycle time) :=
  Keeps.after (Keeps.ite (Keeps.refl _) (Keeps.foldl _ (fun _ _ => keeps_drayHist ..) _ _)) <| keeps_dray ..
theorem keeps_acqPack (n room : Nat) (s : State) : Keeps s (s.acqPack n room).1 := by
  induction n generalizing room s with
  | zero => exact Keeps.refl s
  | succ n ih =>
    unfold State.acqPack
    split
    · exact Keeps.refl s
    · split
      · exact Keeps.refl s
      · exact Keeps.ite_fst (Keeps.refl s) <| Keeps.ite_fst (keeps_acq ..) <| Keeps.after (ih ..) (keeps_acq ..)
theorem keeps_bulkCheck (s : State) : Keeps s s.bulkCheck.1 := by
  unfold State.bulkCheck
  split
  · exact Keeps.refl _
  · exact Keeps.foldl_fst _ (fun _ _ => Keeps.ite_fst (keeps_catAccess ..) (Keeps.refl _)) _ _ _
theorem keeps_acqCheck (s : State) : Keeps s s.acqCheck.1 := by
  unfold State.acqCheck
  split
  · exact Keeps.refl _
  · exact Keeps.ite_fst (Keeps.after (keeps_spanAccess ..) <| Keeps.ite_fst (Keeps.refl _) (keeps_spanAccess ..))
      (Keeps.ite_fst (Keeps.refl _) (keeps_spanAccess ..))
theorem keeps_putFrame (s : State) (lane : Nat) (f : DrayFrame) : Keeps s (s.putFrame lane f) :=
  Keeps.after (Keeps.same rfl rfl rfl rfl rfl) <| keeps_wr ..
theorem keeps_drayNext (s : State) (n : Nat) : Keeps s (s.drayNext n).st := by
  unfold State.drayNext
  split
  · exact keeps_acqPack ..
  · exact keeps_dray ..
  · exact keeps_dray ..
  · split
    · exact Keeps.refl s
    · exact keeps_dray ..
theorem keeps_startFrame (s : State) (lane n : Nat) : Keeps s (s.startFrame lane n) := by
  unfold State.startFrame
  split
  · exact Keeps.after (keeps_putFrame ..) (keeps_dray ..)
  refine Keeps.ite (Keeps.refl s) ?_
  have hc : Keeps s (if n = 3 then s.bulkCheck else if n = 0 then s.acqCheck else (s, true)).1 :=
    Keeps.ite_fst (keeps_bulkCheck ..) (Keeps.ite_fst (keeps_acqCheck ..) (Keeps.refl s))
  generalize (if n = 3 then s.bulkCheck else if n = 0 then s.acqCheck else (s, true)) = y at hc ⊢
  obtain ⟨t, ok⟩ := y
  have hx := Keeps.after (keeps_drayNext t n) hc
  dsimp only at hx ⊢
  generalize t.drayNext n = x at hx ⊢
  refine Keeps.ite ?_ <| Keeps.ite ?_ ?_
  · exact Keeps.after (keeps_drayShow ..) <| Keeps.after (keeps_bumpBy ..) <| Keeps.after (keeps_acq ..) hx
  · split
    · exact Keeps.after (keeps_drayShow ..) <| Keeps.after (keeps_cmdDone ..) <| Keeps.after (keeps_bump ..) <|
        Keeps.after (keeps_dray ..) hx
    · exact Keeps.after (keeps_drayShow ..) <| Keeps.after (keeps_bump ..) <| Keeps.after (keeps_dray ..) hx
  · exact Keeps.after (keeps_drayShow ..) <| Keeps.after (keeps_putFrame ..) <| Keeps.after (keeps_dray ..) hx
theorem keeps_drayStall (s : State) (n : Nat) : Keeps s (s.drayStall n) :=
  Keeps.ite (Keeps.refl _) (Keeps.after (keeps_bump ..) <| keeps_dray ..)
theorem keeps_execDrayFrameStart (lane : Fin 2) (s : State) : KeepsRes s (execDrayFrameStart lane s) := by
  unfold execDrayFrameStart
  refine KeepsRes.when (Keeps.refl _) (?_)
  split
  · exact Keeps.after (keeps_startFrame ..) <| Keeps.foldl _ (fun _ _ => keeps_drayStall ..) _ _
  · exact Keeps.foldl _ (fun _ _ => keeps_drayStall ..) _ _
theorem keeps_execDrayFrameEnd (lane : Fin 2) (s : State) : KeepsRes s (execDrayFrameEnd lane s) := by
  unfold execDrayFrameEnd
  split
  · exact KeepsRes.next (Keeps.refl s)
  · extract_lets _ t u
    have h : Keeps s u := Keeps.after (keeps_wr64 ..) <| Keeps.after (keeps_emit ..) (keeps_dray ..)
    clear_value u
    split
    · exact KeepsRes.next (Keeps.after (keeps_cmdDone ..) h)
    · exact KeepsRes.next h
theorem keeps_drayLink (s : State) : Keeps s s.drayLink := Keeps.after (keeps_fsetb ..) <| keeps_fsetb ..

end Sys2Proof.Machine
end

section
/-! What whole operations keep: the Dray link, work, audits, clocks, CAN, the ring and the observation port. -/

namespace Sys2Proof.Machine

theorem keeps_execDrayLaneUp (p : Fin 2) (s : State) : KeepsRes s (execDrayLaneUp p s) :=
  KeepsRes.when (Keeps.refl _) (Keeps.after (keeps_drayLink ..) <| Keeps.after (Keeps.ite (Keeps.after (Keeps.same rfl
    rfl rfl rfl rfl) <| Keeps.after (keeps_bump ..) <| keeps_zero ..) (Keeps.refl _)) <| keeps_fset ..)
theorem keeps_execDrayLaneDown (p : Fin 2) (s : State) : KeepsRes s (execDrayLaneDown p s) := by
  unfold execDrayLaneDown
  refine KeepsRes.when (Keeps.refl _) (Keeps.after (keeps_drayLink ..) <| ?_)
  split
  · exact Keeps.after (keeps_dray ..) <| Keeps.after (keeps_wr ..) <| Keeps.after (keeps_bumpF ..) <| keeps_fset ..
  · exact Keeps.after (keeps_bumpF ..) <| keeps_fset ..
theorem keeps_captureRelease (s : State) : Keeps s s.captureRelease :=
  Keeps.after (keeps_drayShow ..) <| Keeps.after (keeps_showBacklog ..) <| keeps_acq ..
theorem keeps_execCreditFrameRx (grants : Vector W32 4) (s : State) : KeepsRes s (execCreditFrameRx grants s) :=
  KeepsRes.when (Keeps.refl _) (Keeps.after (keeps_captureRelease ..) <| Keeps.after (keeps_dray ..) <| Keeps.foldl _
    (fun _ _ => Keeps.ite (keeps_ignoredIn ..) (Keeps.after (Keeps.ite (keeps_fset ..) (Keeps.refl _)) <| Keeps.after
    (Keeps.ite (keeps_dray ..) (Keeps.refl _)) <| keeps_wr ..)) _ _)
theorem keeps_execDrayDry (n : Fin 4) (s : State) : KeepsRes s (execDrayDry n s) :=
  KeepsRes.when (Keeps.refl _) (keeps_fset ..)
theorem keeps_drayClrCnt (s : State) : Keeps s s.drayClrCnt := keeps_zero ..
theorem keeps_execDrayClrCnt (m : Master) (s : State) : KeepsRes s (execDrayClrCnt m s) :=
  keepsRes_asWrite (fun _ => keeps_drayClrCnt ..)
theorem keeps_startWindow (s : State) (be : Fin 32) (oc : OpenChain) (upset upsetH : W64) : Keeps s (s.startWindow be
    oc upset upsetH) :=
  keeps_openWindow ..
theorem keeps_takeSnaps (s : State) (w : Work) (d : ChainDesc) : Keeps s (s.takeSnaps w d) :=
  Keeps.after (Keeps.ite (keeps_brm ..) (Keeps.refl _)) <| Keeps.ite (keeps_obs ..) (Keeps.refl _)
theorem keeps_startWork (s : State) (be : Fin 32) (w : Work) (upset upsetH : W64) : Keeps s (s.startWork be w upset
    upsetH) := by
  unfold State.startWork
  split
  · exact Keeps.refl _
  · exact Keeps.after (keeps_startWindow ..) <| keeps_takeSnaps ..
theorem keeps_startReplica (s : State) (be : Fin 32) : Keeps s (s.startReplica be) := by
  unfold State.startReplica
  split
  · split
    · exact keeps_obs ..
    · exact Keeps.after (keeps_openWindow ..) <| keeps_obs ..
  · exact Keeps.refl _
theorem keeps_auditTurn (s : State) (chain : Nat) : Keeps s (s.auditTurn chain) := by
  unfold State.auditTurn
  split
  · exact keeps_brm ..
  · exact Keeps.ite (keeps_brm ..) (Keeps.after (keeps_brm ..) <| Keeps.after (keeps_wfDone ..) <|
      Keeps.after (keeps_wr ..) <| keeps_wr ..)
theorem keeps_takeAudit (s : State) (be : Fin 32) (upset upsetH : W64) : Keeps s (s.takeAudit be upset upsetH) := by
  unfold State.takeAudit
  extract_lets here go start
  have hgo (t : State) (a : Audit) (oc : OpenChain) (x : Snapshot) : Keeps t (go t a oc x) :=
    Keeps.after (keeps_showAudit ..) <| Keeps.after (keeps_openWindow ..) (keeps_brm ..)
  have hstart (t : State) (a : Audit) : Keeps t (start t a) := by
    dsimp only [start]
    split
    · exact hgo ..
    · exact Keeps.refl t
  clear_value start go
  refine Keeps.ite (Keeps.refl s) ?_
  split
  · split
    · exact hgo ..
    · exact hstart ..
  · split
    · exact Keeps.refl s
    · exact Keeps.ite (Keeps.refl s) <| Keeps.after (hstart ..) <| Keeps.after (keeps_brm ..) (keeps_auditTurn ..)
theorem keeps_takeWork (s : State) (be : Fin 32) (upset upsetH : W64) : Keeps s (s.takeWork be upset upsetH) := by
  unfold State.takeWork
  refine Keeps.ite (keeps_traceEnter ..) (Keeps.ite (Keeps.refl _) (Keeps.ite (keeps_startReplica ..) (Keeps.ite
    (Keeps.refl _) (Keeps.ite (keeps_takeAudit ..) ?_))))
  split
  · exact keeps_takeAudit ..
  · exact Keeps.after (keeps_startWindow ..) <| Keeps.after (keeps_obsCount ..) <| Keeps.after (keeps_bump ..) <|
      keeps_brm ..
  · exact Keeps.after (keeps_startWindow ..) <| keeps_brm ..
  · exact Keeps.ite (Keeps.refl _) (Keeps.after (keeps_startWork ..) <| keeps_setDru ..)
  · exact Keeps.ite (Keeps.refl _) (Keeps.after (keeps_startWork ..) <| Keeps.after (keeps_bump ..) <| keeps_brm ..)
  · exact Keeps.ite (Keeps.refl _) (Keeps.after (keeps_startWork ..) <| Keeps.after (keeps_obsCount ..) <|
      Keeps.after (keeps_bump ..) <| keeps_setDru ..)
theorem keeps_execWorkTake (be : Fin 32) (upset upsetH : W64) (s : State) : KeepsRes s (execWorkTake be upset upsetH
    s) :=
  KeepsRes.next (keeps_takeWork ..)
theorem keeps_execWindowTimeLimit (be : Fin 32) (s : State) : KeepsRes s (execWindowTimeLimit be s) := by
  unfold execWindowTimeLimit
  split
  · exact KeepsRes.when (Keeps.refl _) (keeps_windowEnd ..)
  · exact KeepsRes.next (Keeps.refl _)
theorem keeps_execWindowStoreLimit (be : Fin 32) (s : State) : KeepsRes s (execWindowStoreLimit be s) := by
  unfold execWindowStoreLimit
  split
  · exact KeepsRes.when (Keeps.refl _) (keeps_windowEnd ..)
  · exact KeepsRes.next (Keeps.refl _)
theorem keeps_commitStore (s : State) (be : Fin 32) (b : Buffered) : Keeps s (s.commitStore be b).1 :=
  Keeps.after (Keeps.ite (keeps_markDirty ..) (Keeps.refl _)) <| keeps_wrMem ..
theorem keeps_commitStores (s : State) (be : Fin 32) (l : List Buffered) : Keeps s (s.commitStores be l).1 := by
  induction l generalizing s with
  | nil => exact Keeps.refl s
  | cons b r ih => exact (keeps_commitStore ..).trans (ih _)
theorem keeps_afterLost (s : State) (lost : List Nat) : Keeps s (s.afterLost lost).1 := by
  unfold State.afterLost
  split
  · exact Keeps.foldl _ (fun _ _ => keeps_eccUe ..) _ _
  · exact Keeps.after (Keeps.ite_fst (Keeps.after (keeps_dropClaim ..) <| keeps_fset ..) (keeps_reinitBlock ..)) <|
      Keeps.foldl _ (fun _ _ => keeps_eccUe ..) _ _
theorem keeps_commitEnd (s : State) (be : Fin 32) (upset upsetH : W64) : Keeps s (s.commitEnd be upset upsetH) := by
  unfold State.commitEnd
  split
  · exact Keeps.refl _
  · split
    · exact Keeps.ite (Keeps.ite (Keeps.refl _) (keeps_goOn ..)) (Keeps.after (Keeps.ite (Keeps.ite (Keeps.after
        (keeps_abandon ..) <| keeps_afterLost ..) (Keeps.after (keeps_setDru ..) <| keeps_afterLost ..)) (Keeps.ite
        (Keeps.after (keeps_chainDone ..) <| Keeps.after (keeps_setDru ..) <| keeps_afterLost ..) (Keeps.after
        (keeps_goOn ..) <| keeps_afterLost ..))) <| Keeps.after (keeps_obsWindow ..) <|
        Keeps.after (keeps_obsCount ..) <| Keeps.after (keeps_obsCount ..) <| Keeps.after (keeps_wr64 ..) <|
        keeps_commitStores ..)
    · exact Keeps.refl _
theorem keeps_execWindowCommitEnd (be : Fin 32) (upset upsetH : W64) (s : State) : KeepsRes s (execWindowCommitEnd be
    upset upsetH s) :=
  KeepsRes.next (Keeps.after (keeps_traceEnter ..) <| keeps_commitEnd ..)
theorem keeps_retire (s : State) (be : Fin 32) (v : Nat) (core : Bool) (chain : Nat) : Keeps s (s.retire be v core
    chain) :=
  Keeps.after (keeps_event ..) <| Keeps.after (keeps_raise ..) <| Keeps.after (keeps_showBrm ..) <|
    Keeps.after (keeps_setDru ..) <| keeps_deactivate ..
theorem keeps_drupeletVerdict (s : State) (be : Fin 32) (v : TestVerdict) : Keeps s (s.drupeletVerdict be v) := by
  unfold State.drupeletVerdict
  refine Keeps.ite (Keeps.refl _) ?_
  split
  · exact keeps_retire ..
  · exact keeps_retire ..
  · exact Keeps.ite (Keeps.after (keeps_showBrm ..) <| Keeps.after (keeps_raise ..) <| keeps_setDru ..) (Keeps.after
      (Keeps.ite (keeps_retire ..) (Keeps.after (keeps_showBrm ..) <| Keeps.after (keeps_raise ..) <|
      Keeps.after (keeps_bump ..) <| keeps_setDru ..)) <| keeps_setDru ..)
theorem keeps_execDrupeletSelftestVerdict (be : Fin 32) (v : TestVerdict) (s : State) : KeepsRes s
    (execDrupeletSelftestVerdict be v s) :=
  KeepsRes.next (keeps_drupeletVerdict ..)
theorem keeps_admitPending (s : State) : Keeps s s.admitPending :=
  Keeps.after (keeps_showBrm ..) <| Keeps.foldl _ (fun _ _ => Keeps.ite (Keeps.refl _) (Keeps.after (Keeps.ite
    (keeps_raise ..) (Keeps.refl _)) <| keeps_setDru ..)) _ _
theorem keeps_retireMask (s : State) (chain : Nat) (m : BitVec 32) : Keeps s (s.retireMask chain m) :=
  Keeps.foldl _ (fun _ _ => Keeps.ite (Keeps.refl _) (keeps_retire ..)) _ _
theorem keeps_applyVerdicts (s : State) : Keeps s s.applyVerdicts :=
  Keeps.after (keeps_brm ..) <| Keeps.foldl _ (fun _ _ => keeps_retireMask ..) _ _
theorem keeps_auditFail (s : State) (chain : Nat) : Keeps s (s.auditFail chain) :=
  Keeps.after (keeps_raise ..) <| Keeps.after (keeps_fset ..) <| keeps_bump ..
theorem keeps_auditClose (s : State) (a : Audit) : Keeps s (s.auditClose a) :=
  Keeps.after (keeps_brm ..) <| keeps_bump ..
theorem keeps_auditResult (s : State) (be : Fin 32) (a : Audit) (sig : W64) : Keeps s (s.auditResult be a sig) := by
  unfold State.auditResult
  split
  · exact Keeps.ite (keeps_auditClose ..) (keeps_brm ..)
  · exact Keeps.after (Keeps.ite (Keeps.after (keeps_retireMask ..) <| keeps_auditFail ..) (Keeps.ite (Keeps.after
      (Keeps.ite (keeps_send ..) (keeps_retireMask ..)) <| keeps_auditFail ..) (keeps_raise ..))) <|
      keeps_auditClose ..
theorem keeps_auditReplica (s : State) (be : Fin 32) : Keeps s (s.auditReplica be) := by
  unfold State.auditReplica
  split
  · exact Keeps.ite (Keeps.after (keeps_obsCount ..) <| Keeps.after (keeps_showAudit ..) <|
      Keeps.after (keeps_auditResult ..) <| keeps_setDru ..) (Keeps.refl _)
  · exact Keeps.refl _
theorem keeps_execAuditReplicaComplete (be : Fin 32) (s : State) : KeepsRes s (execAuditReplicaComplete be s) :=
  KeepsRes.when (Keeps.refl _) (keeps_auditReplica ..)
theorem keeps_execAuditVerdictRx (id chain : Nat) (mask : BitVec 32) (s : State) : KeepsRes s (execAuditVerdictRx id
    chain mask s) :=
  KeepsRes.ite (KeepsRes.onceOnly (Keeps.refl _) (keeps_brm ..)) (KeepsRes.next (Keeps.refl _))
theorem keeps_brmClrCnt (s : State) : Keeps s s.brmClrCnt := keeps_zero ..
theorem keeps_execBrmClrCnt (m : Master) (s : State) : KeepsRes s (execBrmClrCnt m s) :=
  keepsRes_asWrite (fun _ => keeps_brmClrCnt ..)
theorem keeps_brmUnretire (s : State) (v : W32) : Keeps s (s.brmUnretire v) :=
  Keeps.ite (Keeps.after (keeps_showBrm ..) <| keeps_setDru ..) (keeps_ignoredIn ..)
theorem keeps_execBrmUnretire (m : Master) (v : W32) (s : State) : KeepsRes s (execBrmUnretire m v s) :=
  keepsRes_asWrite (fun _ => keeps_brmUnretire ..)
theorem keeps_modClk (s : State) (c : Fin 4) (f : Cluster → Cluster) : Keeps s (s.modClk c f) := keeps_clk ..
theorem keeps_showParked (s : State) (c : Fin 4) : Keeps s (s.showParked c) := keeps_fsetb ..
theorem keeps_execClusterClockGate (c : Fin 4) (s : State) : KeepsRes s (execClusterClockGate c s) :=
  KeepsRes.when (Keeps.refl _) (Keeps.after (keeps_showParked ..) <| keeps_modClk ..)
theorem keeps_clusterState (s : State) (c : Fin 4) (down : Bool) : Keeps s (s.clusterState c down) :=
  Keeps.foldl _ (fun _ _ => Keeps.ite (keeps_deactivate ..) (Keeps.ite (Keeps.after (keeps_showBrm ..) <|
    keeps_setDru ..) (Keeps.refl _))) _ _
theorem keeps_execClusterPllPowerDown (c : Fin 4) (s : State) : KeepsRes s (execClusterPllPowerDown c s) :=
  KeepsRes.when (Keeps.refl _) (Keeps.after (keeps_clusterState ..) <| Keeps.after (keeps_showParked ..) <|
    keeps_modClk ..)
theorem keeps_execClusterPllRelockStart (c : Fin 4) (s : State) : KeepsRes s (execClusterPllRelockStart c s) :=
  KeepsRes.when (Keeps.refl _) (keeps_modClk ..)
theorem keeps_execClusterPllLocked (c : Fin 4) (s : State) : KeepsRes s (execClusterPllLocked c s) :=
  KeepsRes.when (Keeps.refl _) (Keeps.after (keeps_clusterState ..) <| keeps_modClk ..)
theorem keeps_clockLost (s : State) (c : Nat) (i : Fin 32) : Keeps s (s.clockLost c i) := by
  unfold State.clockLost
  extract_lets s1
  have h : Keeps s s1 := by
    dsimp only [s1]
    split
    · split
      · exact Keeps.ite (keeps_commitEnd ..) (Keeps.refl s)
      · exact Keeps.refl s
    · exact Keeps.refl s
  clear_value s1
  split
  · split
    · exact Keeps.ite (Keeps.after (keeps_auditLeave ..) h) (Keeps.after (keeps_setWin ..) h)
    · exact Keeps.after (Keeps.same rfl rfl rfl rfl rfl) h
  · exact h
theorem keeps_execPllLossOfLock (c : Fin 4) (s : State) : KeepsRes s (execPllLossOfLock c s) :=
  KeepsRes.when (Keeps.refl _) (Keeps.after (keeps_raise ..) <| Keeps.after (keeps_clusterState ..) <| Keeps.after
    (Keeps.foldl _ (fun _ _ => keeps_clockLost ..) _ _) <| keeps_modClk ..)
theorem keeps_execClusterReenter (c : Fin 4) (s : State) : KeepsRes s (execClusterReenter c s) :=
  KeepsRes.when (Keeps.refl _) (Keeps.ite (keeps_modClk ..) (Keeps.after (keeps_clusterState ..) <| keeps_modClk ..))
theorem keeps_reenterHeld (s : State) : Keeps s s.reenterHeld :=
  Keeps.foldl _ (fun _ _ => Keeps.ite (Keeps.after (keeps_clusterState ..) <| keeps_modClk ..) (Keeps.refl _)) _ _
theorem keeps_setBuf (s : State) (n i : Nat) (f : CanBuf → CanBuf) : Keeps s (s.setBuf n i f) := keeps_can ..
theorem keeps_canShow (s : State) (n : Nat) : Keeps s (s.canShow n) := keeps_fsetb ..
theorem keeps_canEvent (s : State) (n code : Nat) (ps : List W64) : Keeps s (s.canEvent n code ps) := keeps_event ..
theorem keeps_canRecovered (s : State) (n code : Nat) : Keeps s (s.canRecovered n code) := keeps_canEvent ..
theorem keeps_canPassive (s : State) (n : Nat) : Keeps s (s.canPassive n) :=
  Keeps.ite (Keeps.after (keeps_canEvent ..) <| keeps_fset ..) (Keeps.ite (Keeps.after (keeps_canRecovered ..) <|
    keeps_fset ..) (Keeps.refl _))
theorem keeps_canTecUp (s : State) (n k : Nat) : Keeps s (s.canTecUp n k) :=
  Keeps.ite (Keeps.after (keeps_canShow ..) <| Keeps.after (keeps_canEvent ..) <| Keeps.after (keeps_can ..) <|
    Keeps.after (keeps_bumpF ..) <| Keeps.after (keeps_fset ..) <| keeps_fset ..) (Keeps.after (keeps_canPassive ..)
    <| keeps_fset ..)
theorem keeps_canCount0 (s : State) (n : Nat) : Keeps s (s.canCount0 n) :=
  Keeps.after (keeps_fset ..) <| keeps_fset ..
theorem keeps_canStartPort (s : State) (n : Nat) (fault : Bool) : Keeps s (s.canStartPort n fault) :=
  Keeps.ite (keeps_ignoredIn ..) (Keeps.after (keeps_canShow ..) <| Keeps.after (keeps_fset ..) <|
    Keeps.after (keeps_canPassive ..) <| Keeps.after (keeps_canCount0 ..) <| keeps_fset ..)
theorem keeps_canStopPort (s : State) (n : Nat) : Keeps s (s.canStopPort n) :=
  Keeps.after (keeps_canShow ..) <| keeps_fset ..
theorem keeps_canStart (s : State) (mask fault : BitVec 4) : Keeps s (s.canStart mask fault) :=
  Keeps.foldl _ (fun _ _ => Keeps.ite (keeps_canStartPort ..) (Keeps.refl _)) _ _
theorem keeps_canStop (s : State) (mask : BitVec 4) : Keeps s (s.canStop mask) :=
  Keeps.foldl _ (fun _ _ => Keeps.ite (keeps_canStopPort ..) (Keeps.refl _)) _ _
theorem keeps_execCanStart (m : Master) (mask fault : BitVec 4) (s : State) : KeepsRes s (execCanStart m mask fault s)
    :=
  keepsRes_asWrite (fun _ => keeps_canStart ..)
theorem keeps_execCanStop (m : Master) (mask : BitVec 4) (s : State) : KeepsRes s (execCanStop m mask s) :=
  keepsRes_asWrite (fun _ => keeps_canStop ..)
theorem keeps_canClrCnt (s : State) : Keeps s s.canClrCnt :=
  Keeps.after (Keeps.foldl _ (fun _ _ => Keeps.after (keeps_fset ..) <| keeps_zero ..) _ _) <| keeps_zero ..
theorem keeps_execCanClrCnt (m : Master) (s : State) : KeepsRes s (execCanClrCnt m s) :=
  keepsRes_asWrite (fun _ => keeps_canClrCnt ..)
theorem keeps_execCanIntegrationDone (n : Fin 4) (s : State) : KeepsRes s (execCanIntegrationDone n s) :=
  KeepsRes.when (Keeps.refl _) (keeps_fset ..)
theorem keeps_execTransceiverFault (n : Fin 4) (s : State) : KeepsRes s (execTransceiverFault n s) :=
  KeepsRes.when (Keeps.refl _) (Keeps.after (keeps_canShow ..) <| Keeps.after (keeps_raise ..) <|
    Keeps.after (keeps_fset ..) <| keeps_fset ..)
theorem keeps_execBusoffDelayExpiry (n : Fin 4) (s : State) : KeepsRes s (execBusoffDelayExpiry n s) :=
  KeepsRes.when (Keeps.refl _) (keeps_can ..)
theorem keeps_execBusoffRecovery (n : Fin 4) (s : State) : KeepsRes s (execBusoffRecovery n s) :=
  KeepsRes.when (Keeps.refl _) (Keeps.after (keeps_canShow ..) <| Keeps.after (keeps_canRecovered ..) <|
    Keeps.after (keeps_fset ..) <| Keeps.after (keeps_canCount0 ..) <| keeps_fset ..)
theorem keeps_execCollideClear (n : Fin 4) (s : State) : KeepsRes s (execCollideClear n s) :=
  KeepsRes.when (Keeps.refl _) (Keeps.after (keeps_canShow ..) <| Keeps.after (keeps_canRecovered ..) <|
    keeps_fset ..)
theorem keeps_canObject (s : State) (f : CanFilter) (rxid dlc : Nat) (data : List Byte) : Keeps s (s.canObject f rxid
    dlc data) :=
  keeps_can ..
theorem keeps_canHost (s : State) (n rxid dlc : Nat) (data : List Byte) : Keeps s (s.canHost n rxid dlc data) :=
  Keeps.ite (Keeps.after (keeps_bump ..) <| keeps_rateOk ..) (Keeps.after (Keeps.foldl _ (fun _ _ => keeps_eqPut ..) _
    _) <| keeps_rateOk ..)
theorem keeps_canFilterFrame (s : State) (n rxid dlc : Nat) (data : List Byte) (remote : Bool) : Keeps s
    (s.canFilterFrame n rxid dlc data remote) := by
  unfold State.canFilterFrame
  split
  · exact keeps_bump ..
  · exact Keeps.after (Keeps.ite (keeps_canHost ..) (Keeps.refl _)) <| Keeps.ite (keeps_canObject ..) (Keeps.refl _)
theorem keeps_canRecDown (s : State) (n : Nat) : Keeps s (s.canRecDown n) :=
  Keeps.ite ((keeps_take s).trans <| (keeps_fset ..).trans <| keeps_canPassive ..) (keeps_fset ..)
theorem keeps_execCanFrameRx (n : Fin 4) (rxid : W32) (esi remote : Bool) (dlc : BitVec 4) (data : List Byte)
    (s : State) : KeepsRes s (execCanFrameRx n rxid esi remote dlc data s) :=
  KeepsRes.when (Keeps.refl _) (Keeps.after (keeps_canFilterFrame ..) <| Keeps.after (Keeps.ite (keeps_canRecDown ..)
    (Keeps.refl _)) <| Keeps.after (keeps_obsCount ..) <| keeps_bump ..)
theorem keeps_execCanRxError (n : Fin 4) (heavy : Bool) (s : State) : KeepsRes s (execCanRxError n heavy s) :=
  KeepsRes.when (Keeps.refl _) (Keeps.ite (keeps_bump ..) (Keeps.after (keeps_canPassive ..) <|
    Keeps.after (keeps_bumpF ..) <| keeps_fset ..))
theorem keeps_canTaken (s : State) (c : Cls) : Keeps s (s.canTaken c) := keeps_can ..
theorem keeps_canActivate (s : State) : Keeps s s.canActivate := keeps_can ..
theorem keeps_canQueueBuf (s : State) (n i : Nat) : Keeps s (s.canQueueBuf n i) :=
  Keeps.after (keeps_setBuf ..) <| Keeps.ite (keeps_bump ..) (Keeps.refl _)
theorem keeps_canLoad (s : State) (c : Cls) : Keeps s (s.canLoad c) :=
  Keeps.foldl _ (fun _ _ => Keeps.after (Keeps.ite (keeps_canQueueBuf ..) (Keeps.refl _)) <| keeps_setBuf ..) _ _
theorem keeps_canCyclic (s : State) (cycle : W64) : Keeps s (s.canCyclic cycle) :=
  Keeps.foldl _ (fun _ _ => keeps_canQueueBuf ..) _ _
theorem keeps_canPublish (s : State) (c : Cls) (cycle : W64) : Keeps s (s.canPublish c cycle) :=
  Keeps.after (Keeps.ite (keeps_canCyclic ..) (Keeps.refl _)) <| keeps_canLoad ..
theorem keeps_canTrip (s : State) : Keeps s s.canTrip :=
  Keeps.after (Keeps.foldl _ (fun _ _ => keeps_canLoad ..) _ _) <| Keeps.foldl _ (fun _ _ => keeps_setBuf ..) _ _
theorem keeps_canTakeover (s : State) : Keeps s s.canTakeover := Keeps.foldl _ (fun _ _ => keeps_canLoad ..) _ _
theorem keeps_canStopped (s : State) (cycle : W64) : Keeps s (s.canStopped cycle) :=
  Keeps.ite (keeps_canCyclic ..) (Keeps.refl _)
theorem keeps_canLeft (s : State) (n : Nat) : Keeps s (s.canLeft n) := keeps_can ..
theorem keeps_canTry (s : State) (n i : Nat) (coll : Bool) : Keeps s (s.canTry n i coll) := keeps_setBuf ..
theorem keeps_canSent (s : State) (k i : Nat) (tdc : Option (BitVec 7)) (live : Bool) : Keeps s (s.canSent k i tdc
    live) := by
  unfold State.canSent
  refine Keeps.after (keeps_canShow ..) <| Keeps.after (Keeps.ite (Keeps.after (keeps_canRecovered ..) <|
    keeps_fset ..) (Keeps.refl _)) <| Keeps.after (Keeps.ite (Keeps.after (keeps_canPassive ..) <| keeps_fset ..)
    (Keeps.refl _)) <| Keeps.after (keeps_can ..) <| ?_
  split
  · exact Keeps.after (Keeps.ite (keeps_wr ..) (Keeps.refl _)) <| Keeps.after (keeps_canTry ..) <|
      Keeps.after (keeps_bump ..) <| keeps_emit ..
  · exact Keeps.after (keeps_canTry ..) <| Keeps.after (keeps_bump ..) <| keeps_emit ..
theorem keeps_execCanTxSuccess (n : Fin 4) (tdc : Option (BitVec 7)) (s : State) : KeepsRes s (execCanTxSuccess n tdc
    s) := by
  unfold execCanTxSuccess
  refine KeepsRes.ite ?_ (KeepsRes.ite ?_ (KeepsRes.next (Keeps.refl _)))
  · split
    · exact KeepsRes.next (Keeps.refl _)
    · exact KeepsRes.next (Keeps.after (keeps_canSent ..) <| keeps_setBuf ..)
  · split
    · exact KeepsRes.next (Keeps.refl _)
    · exact KeepsRes.next (Keeps.after (keeps_canSent ..) <| Keeps.after (keeps_canLeft ..) <| keeps_setBuf ..)
theorem keeps_canCollide (s : State) (n i : Nat) : Keeps s (s.canCollide n i) :=
  Keeps.ite (Keeps.refl _) (Keeps.ite (Keeps.refl _) (Keeps.after (keeps_canEvent ..) <|
    Keeps.after (keeps_bumpF ..) <| Keeps.after (keeps_fset ..) <| keeps_fset ..))
theorem keeps_canAckError (s : State) (n : Nat) : Keeps s (s.canAckError n) :=
  Keeps.after (Keeps.ite (Keeps.after (keeps_canEvent ..) <| Keeps.after (keeps_bump ..) <| keeps_fset ..) (Keeps.refl
    _)) <| Keeps.after (keeps_can ..) <| Keeps.ite (Keeps.refl _) (keeps_canTecUp ..)
theorem keeps_canFailed (s : State) (k i : Nat) (e : CanErr) : Keeps s (s.canFailed k i e) := by
  unfold State.canFailed
  refine Keeps.after (keeps_canShow ..) <| ?_
  split
  · exact keeps_canTry ..
  · exact Keeps.after (keeps_canAckError ..) <| Keeps.after (keeps_bumpF ..) <| keeps_canTry ..
  · exact Keeps.after (keeps_canCollide ..) <| Keeps.after (keeps_canTecUp ..) <| Keeps.after (keeps_bumpF ..) <|
      keeps_canTry ..
  · exact Keeps.after (keeps_canTecUp ..) <| Keeps.after (keeps_bumpF ..) <| keeps_canTry ..
theorem keeps_execCanTxError (n : Fin 4) (e : CanErr) (s : State) : KeepsRes s (execCanTxError n e s) := by
  unfold execCanTxError
  refine KeepsRes.ite ?_ (KeepsRes.ite ?_ (KeepsRes.next (Keeps.refl _)))
  · split
    · exact KeepsRes.next (Keeps.refl _)
    · exact KeepsRes.next (keeps_canFailed ..)
  · split
    · exact KeepsRes.next (Keeps.refl _)
    · refine KeepsRes.next (Keeps.after (keeps_canShow ..) <| ?_)
      split
      · exact keeps_canLeft ..
      · exact Keeps.after (keeps_canCollide ..) <| Keeps.after (keeps_bump ..) <| Keeps.after (keeps_canTry ..) <|
          keeps_canLeft ..
      · exact Keeps.after (keeps_bump ..) <| Keeps.after (keeps_canTry ..) <| keeps_canLeft ..
theorem keeps_modSeg (s : State) (i : Nat) (f : SegRx → SegRx) : Keeps s (s.modSeg i f) := keeps_ring ..
theorem keeps_openExchange (s : State) : Keeps s s.openExchange := keeps_ring ..
theorem keeps_setSlices (s : State) : Keeps s s.setSlices := keeps_ring ..
theorem keeps_execRingExchangeStart (s : State) : KeepsRes s (execRingExchangeStart s) :=
  KeepsRes.when (Keeps.refl _) (Keeps.after (Keeps.foldl _ (fun _ _ => Keeps.foldl _ (fun _ _ => keeps_emit ..) _ _) _
    _) <| Keeps.after (keeps_fset ..) <| Keeps.after (keeps_fset ..) <| Keeps.after (keeps_wr ..) <|
    Keeps.after (keeps_setSlices ..) <| keeps_openExchange ..)
theorem keeps_stationMismatch (s : State) (n planned seen : Nat) : Keeps s (s.stationMismatch n planned seen) :=
  Keeps.ite (Keeps.refl _) (Keeps.after (keeps_ring ..) <| Keeps.after (keeps_raise ..) <|
    Keeps.after (keeps_fset ..) <| keeps_fset ..)
theorem keeps_takeSegment (s : State) (port : Nat) (cls : Cls) (slice frame pos : Nat) (g : RSegment) : Keeps s
    (s.takeSegment port cls slice frame pos g) := by
  unfold State.takeSegment
  split
  · exact Keeps.ite (Keeps.refl _) (Keeps.ite (keeps_stationMismatch ..) (Keeps.ite (Keeps.refl _) (Keeps.ite
      (Keeps.refl _) (Keeps.ite (Keeps.after (keeps_modSeg ..) <| keeps_obsCount ..) (Keeps.after (Keeps.ite
      (Keeps.refl _) (keeps_bump ..)) <| keeps_modSeg ..)))))
  · exact Keeps.refl _
theorem keeps_forward (s : State) (port etype : Nat) (fcs : Bool) (payload : List Byte) : Keeps s (s.forward port
    etype fcs payload) :=
  Keeps.ite (keeps_emit ..) (Keeps.after (keeps_bumpF ..) <| keeps_emit ..)
theorem keeps_noteReturn (s : State) (port rflags : Nat) : Keeps s (s.noteReturn port rflags) := keeps_ring ..
theorem keeps_ringData (s : State) (port : Nat) (payload : List Byte) : Keeps s (s.ringData port payload) := by
  unfold State.ringData
  extract_lets le exch cur ahead fresh s1 s2
  have h1 : Keeps s s1 :=
    Keeps.ite (Keeps.after (keeps_wr ..) <| Keeps.after (keeps_setSlices ..) (keeps_openExchange ..)) (Keeps.refl s)
  have h2 : Keeps s s2 := Keeps.ite (Keeps.after (keeps_noteReturn ..) h1) h1
  clear_value s2
  refine Keeps.ite (Keeps.ite h1 (Keeps.after (keeps_obsCount ..) <| Keeps.after (keeps_bump ..) h1)) ?_
  split
  · exact Keeps.after (keeps_bump ..) h2
  · refine Keeps.ite ?_ ?_
    · exact Keeps.after (keeps_obsCount ..) <| Keeps.after (keeps_bump ..) <| Keeps.after (keeps_ring ..) h2
    · exact Keeps.after (Keeps.foldl _ (fun _ _ => keeps_takeSegment ..) _ _) <| Keeps.after (keeps_fset ..) <|
        Keeps.after (keeps_fset ..) <| Keeps.after (keeps_ring ..) h2
theorem keeps_execRingFrameRx (port : Fin 4) (etype : BitVec 16) (fcs : Bool) (payload : List Byte) (s : State) :
    KeepsRes s (execRingFrameRx port etype fcs payload s) :=
  KeepsRes.when (Keeps.refl _) (Keeps.after (Keeps.ite (keeps_bumpF ..) (Keeps.ite (keeps_bump ..) (Keeps.ite
    (Keeps.ite (keeps_rateOk ..) (keeps_bump ..)) (Keeps.ite (keeps_ringData ..) (Keeps.refl _))))) <| Keeps.ite
    (Keeps.refl _) (keeps_forward ..))
theorem keeps_stationEvent (s : State) (code n : Nat) (seen : BitVec 2) : Keeps s (s.stationEvent code n seen) :=
  Keeps.ite (keeps_event ..) (Keeps.refl _)
theorem keeps_stationValid (s : State) (n : Nat) (rings : BitVec 2) : Keeps s (s.stationValid n rings) :=
  Keeps.after (Keeps.ite (Keeps.after (Keeps.ite (Keeps.refl _) (Keeps.after (Keeps.ite (Keeps.after
    (keeps_stationEvent ..) <| keeps_ring ..) (Keeps.refl _)) <| keeps_fset ..)) <| keeps_fset ..) (Keeps.ite
    (Keeps.refl _) (Keeps.after (Keeps.ite (keeps_ring ..) (Keeps.refl _)) <| Keeps.after (keeps_fset ..) <|
    keeps_fset ..))) <| Keeps.after (keeps_fset ..) <| keeps_fset ..
theorem keeps_stationMissed (s : State) (n : Nat) : Keeps s (s.stationMissed n) :=
  Keeps.after (Keeps.ite (keeps_fset ..) (Keeps.ite (Keeps.after (Keeps.ite (Keeps.refl _) (Keeps.after
    (keeps_stationEvent ..) <| Keeps.after (keeps_bumpF ..) <| keeps_fset ..)) <| keeps_fset ..) (Keeps.refl _))) <|
    keeps_bump ..
theorem keeps_mirrorSeg (s : State) (i : Nat) (g : RingSeg) : Keeps s (s.mirrorSeg i g) :=
  Keeps.ite (keeps_modSeg ..) (Keeps.after (Keeps.ite (Keeps.refl _) (keeps_ring ..)) <| keeps_modSeg ..)
theorem keeps_showStations (s : State) : Keeps s s.showStations :=
  Keeps.after (keeps_fsetb ..) <| Keeps.after (keeps_fsetb ..) <| Keeps.after (keeps_fset ..) <|
    Keeps.after (keeps_fset ..) <| keeps_fset ..
theorem keeps_portDown (s : State) (p : Nat) : Keeps s (s.portDown p) :=
  Keeps.ite (Keeps.refl _) (Keeps.after (keeps_raise ..) <| keeps_fset ..)
theorem keeps_ringState (s : State) (r : Nat) : Keeps s (s.ringState r) :=
  Keeps.after (Keeps.ite (keeps_raise ..) (Keeps.refl _)) <| Keeps.after (keeps_fset ..) <| keeps_ring ..
theorem keeps_portReturn (s : State) (p : Nat) : Keeps s (s.portReturn p) :=
  Keeps.after (Keeps.ite (keeps_portDown ..) (Keeps.ite (keeps_fset ..) (Keeps.refl _))) <| keeps_ring ..
theorem keeps_execExchangeDeadline (s : State) : KeepsRes s (execExchangeDeadline s) :=
  KeepsRes.after (KeepsRes.when (Keeps.refl _) (Keeps.after (keeps_showStations ..) <| Keeps.after (keeps_ring ..) <|
    Keeps.after (Keeps.ite (Keeps.after (Keeps.foldl _ (fun _ _ => keeps_portReturn ..) _ _) <| Keeps.foldl _ (fun _ _
    => keeps_ringState ..) _ _) (Keeps.refl _)) <| Keeps.after (Keeps.foldl _ (fun _ _ => keeps_mirrorSeg ..) _ _) <|
    Keeps.foldl _ (fun _ _ => Keeps.ite (Keeps.refl _) (Keeps.ite (keeps_stationMissed ..) (keeps_stationValid ..))) _
    _)) (Keeps.ite (Keeps.refl _) (keeps_setSlices ..))
theorem keeps_execRingPortDown (p : Fin 4) (s : State) : KeepsRes s (execRingPortDown p s) :=
  KeepsRes.when (Keeps.refl _) (Keeps.after (keeps_portDown ..) <| keeps_fset ..)
theorem keeps_execRingPortLinkUp (p : Fin 4) (s : State) : KeepsRes s (execRingPortLinkUp p s) :=
  KeepsRes.when (Keeps.refl _) (Keeps.after (keeps_fset ..) <| Keeps.after (keeps_fset ..) <| keeps_ring ..)
theorem keeps_ringPhy (s : State) : Keeps s s.ringPhy :=
  Keeps.foldl _ (fun _ _ => Keeps.after (keeps_fsetb ..) <| keeps_fsetb ..) _ _
theorem keeps_execRingJoin (s : State) : KeepsRes s (execRingJoin s) :=
  KeepsRes.when (Keeps.refl _) (Keeps.after (keeps_ringPhy ..) <| Keeps.after (keeps_fset ..) <| keeps_power ..)
theorem keeps_peerPublish (s : State) (c : Cls) (cycle time : W64) : Keeps s (s.peerPublish c cycle time) := by
  unfold State.peerPublish
  split
  · exact Keeps.refl _
  · exact Keeps.ite (Keeps.refl _) (Keeps.after (keeps_emit ..) <| keeps_emit ..)
theorem keeps_modPeer (s : State) (j : Nat) (f : PeerRx → PeerRx) : Keeps s (s.modPeer j f) := keeps_ring ..
theorem keeps_peerValid (s : State) (j : Nat) : Keeps s (s.peerValid j) :=
  Keeps.after (Keeps.ite (Keeps.after (Keeps.ite (Keeps.refl _) (Keeps.after (keeps_raise ..) <| keeps_fset ..)) <|
    keeps_fset ..) (Keeps.ite (Keeps.refl _) (Keeps.after (keeps_fset ..) <| keeps_fset ..))) <| keeps_fset ..
theorem keeps_execPeerFrameRx (port : Fin 2) (fcs : Bool) (payload : List Byte) (s : State) : KeepsRes s
    (execPeerFrameRx port fcs payload s) :=
  KeepsRes.when (Keeps.refl _) (Keeps.ite (keeps_bump ..) (Keeps.ite (Keeps.after (keeps_bump ..) <| keeps_rateOk ..)
    (Keeps.after (Keeps.foldl _ (fun _ _ => Keeps.ite (Keeps.after (keeps_fset ..) <| keeps_modPeer ..) (Keeps.after
    (keeps_modPeer ..) <| Keeps.after (keeps_fset ..) <| keeps_peerValid ..)) _ _) <| keeps_rateOk ..)))
theorem keeps_execPeerPeriodMiss (j : Fin 32) (s : State) : KeepsRes s (execPeerPeriodMiss j s) :=
  KeepsRes.when (Keeps.refl _) (Keeps.after (Keeps.ite (keeps_fset ..) (Keeps.ite (Keeps.after (Keeps.ite (Keeps.refl
    _) (Keeps.after (keeps_raise ..) <| Keeps.after (keeps_bumpF ..) <| keeps_fset ..)) <| keeps_fset ..) (Keeps.refl
    _))) <| keeps_bump ..)
theorem keeps_ringActivate (s : State) (p : RingPlan) : Keeps s (s.ringActivate p) :=
  Keeps.after (keeps_ringPhy ..) <| Keeps.after (keeps_showStations ..) <| Keeps.after (keeps_fset ..) <|
    Keeps.after (keeps_fset ..) <| Keeps.after (Keeps.foldl _ (fun _ _ => Keeps.ite (keeps_wr ..) (keeps_wr ..)) _ _)
    <| Keeps.after (Keeps.foldl _ (fun _ _ => Keeps.ite (keeps_wr ..) (Keeps.ite (Keeps.refl _) (keeps_wr ..))) _ _)
    <| keeps_ring ..
theorem keeps_ringTakeover (s : State) : Keeps s s.ringTakeover :=
  Keeps.foldl _ (fun _ _ => Keeps.ite (keeps_stationEvent ..) (Keeps.ite (keeps_stationEvent ..) (Keeps.refl _))) _ _
theorem keeps_ringClrCnt (s : State) : Keeps s s.ringClrCnt := Keeps.after (keeps_fset ..) <| keeps_zero ..
theorem keeps_execRingClrCnt (m : Master) (s : State) : KeepsRes s (execRingClrCnt m s) :=
  keepsRes_asWrite (fun _ => keeps_ringClrCnt ..)
theorem keeps_execSelectorFrameRx (bytes : List Byte) (s : State) : KeepsRes s (execSelectorFrameRx bytes s) := by
  unfold execSelectorFrameRx
  refine KeepsRes.when (Keeps.refl _) ?_
  split
  · exact Keeps.ite (keeps_obs ..) (keeps_bump ..)
  · exact keeps_bump ..
theorem keeps_execObsLaneUp (lane : Fin 2) (s : State) : KeepsRes s (execObsLaneUp lane s) :=
  KeepsRes.when (Keeps.refl _) (keeps_fset ..)
theorem keeps_execObsLaneDown (lane : Fin 2) (s : State) : KeepsRes s (execObsLaneDown lane s) :=
  KeepsRes.when (Keeps.refl _) (Keeps.after (Keeps.ite (keeps_obs ..) (Keeps.refl _)) <| keeps_fset ..)
theorem keeps_obsCodes (s : State) (codes : List Nat) : Keeps s (s.obsCodes codes) :=
  Keeps.foldl _ (fun _ _ => Keeps.ite (Keeps.refl _) (Keeps.after (keeps_wr ..) <| keeps_wr ..)) _ _
theorem keeps_traceRequest (s : State) (be : Fin 32) : Keeps s (s.traceRequest be) :=
  Keeps.ite (keeps_fset ..) (Keeps.ite (Keeps.after (keeps_traceEnter ..) <| Keeps.after (keeps_setDru ..) <|
    Keeps.after (keeps_obs ..) <| keeps_fset ..) (keeps_fset ..))
theorem keeps_obsSelect (s : State) (v : Option ObsSel) : Keeps s (s.obsSelect v) := by
  unfold State.obsSelect
  extract_lets want held ends blocked s1 _ s2 s3
  have h1 : Keeps s s1 := Keeps.ite (keeps_traceStop ..) (Keeps.refl s)
  have h3 : Keeps s s3 := Keeps.after (keeps_fsetb ..) <| Keeps.after (keeps_obs ..) h1
  clear_value s3 want
  split
  · exact Keeps.after (keeps_obsCodes ..) h3
  · split
    · exact Keeps.after (Keeps.ite (keeps_fset ..) (keeps_traceRequest ..)) <| Keeps.after (keeps_obsCodes ..) <|
        Keeps.after (keeps_wr ..) h3
    · exact Keeps.after (keeps_obsCodes ..) <| Keeps.after (keeps_wr ..) h3
theorem keeps_obsDue (s : State) : Keeps s s.obsDue := by
  unfold State.obsDue
  split
  · exact Keeps.refl _
  · exact Keeps.after (Keeps.ite (keeps_obs ..) (Keeps.refl _)) <| Keeps.after (Keeps.ite (keeps_obsCollect ..)
      (Keeps.refl _)) <| keeps_obs ..
theorem keeps_obsSwitch (s : State) : Keeps s s.obsSwitch := by
  unfold State.obsSwitch
  extract_lets _ s1 _ s2
  have h1 : Keeps s s1 := keeps_obs ..
  have h2 : Keeps s s2 := Keeps.ite (Keeps.ite (Keeps.after (keeps_traceStop ..) h1) (Keeps.after (keeps_obs ..) h1)) h1
  clear_value s2
  split
  · exact Keeps.after (keeps_obsSelect ..) h2
  · exact Keeps.ite h2 (Keeps.after (keeps_obsSelect ..) h2)
theorem keeps_obsBoundary (s : State) : Keeps s s.obsBoundary := Keeps.after (keeps_obsDue ..) <| keeps_obsSwitch ..
theorem keeps_obsEndStep (s : State) : Keeps s s.obsEndStep := keeps_obs ..
theorem keeps_obsClrCnt (s : State) : Keeps s s.obsClrCnt := keeps_zero ..
theorem keeps_execObsEndStep (m : Master) (s : State) : KeepsRes s (execObsEndStep m s) :=
  keepsRes_asWrite (fun _ => keeps_obsEndStep ..)
theorem keeps_execObsClrCnt (m : Master) (s : State) : KeepsRes s (execObsClrCnt m s) :=
  keepsRes_asWrite (fun _ => keeps_obsClrCnt ..)
theorem keeps_execObservationFrameSend (s : State) : KeepsRes s (execObservationFrameSend s) := by
  unfold execObservationFrameSend
  split
  · exact KeepsRes.next (Keeps.refl _)
  · exact KeepsRes.when (Keeps.refl _) (Keeps.after (keeps_obs ..) <| keeps_emit ..)
theorem keeps_obsBurst (s : State) (a n : Nat) : Keeps s (s.obsBurst a n).1 := by
  unfold State.obsBurst
  refine Keeps.ite_fst (Keeps.after (keeps_bump ..) <| keeps_catAccess ..) (?_)
  split
  · exact Keeps.after (keeps_badAccess ..) <| keeps_bump ..
  · exact Keeps.after (Keeps.ite_fst (Keeps.refl _) (keeps_cartError ..)) <| keeps_bump ..
  · exact Keeps.after (Keeps.ite_fst (Keeps.refl _) (Keeps.refl _)) <| keeps_bump ..
theorem keeps_execMemoryWindowBurst (s : State) : KeepsRes s (execMemoryWindowBurst s) := by
  unfold execMemoryWindowBurst
  split
  · exact KeepsRes.next (Keeps.refl _)
  · exact KeepsRes.when (Keeps.refl _) (Keeps.after (keeps_obsCollect ..) <| Keeps.after (keeps_obsBurst ..) <|
      keeps_obs ..)

end Sys2Proof.Machine
end

section
/-! What whole operations keep: time, plans, packages, the image and the cartridge. -/

namespace Sys2Proof.Machine

theorem keeps_setTb0 (s : State) (ns : Int) : Keeps s (s.setTb0 ns) := keeps_time ..
theorem keeps_stepTb0 (s : State) (ns : Int) : Keeps s (s.stepTb0 ns) :=
  Keeps.after (keeps_raise ..) <| Keeps.after (keeps_bump ..) <| keeps_setTb0 ..
theorem keeps_ptpSpeed (s : State) (p : Nat) (fast : Bool) : Keeps s (s.ptpSpeed p fast) :=
  Keeps.after (keeps_wr ..) <| Keeps.after (keeps_wr ..) <| Keeps.after (keeps_fset ..) <| keeps_fset ..
theorem keeps_ptpTake (s : State) (p : Nat) (fast : Bool) : Keeps s (s.ptpTake p fast).1 :=
  Keeps.ite_fst (Keeps.refl _) (Keeps.ite_fst (Keeps.after (keeps_rateOk ..) <| keeps_ptpSpeed ..) (Keeps.after
    (keeps_bump ..) <| Keeps.after (keeps_rateOk ..) <| keeps_ptpSpeed ..))
theorem keeps_setRate (s : State) (r : Int) : Keeps s (s.setRate r) :=
  Keeps.after (Keeps.ite (keeps_time ..) (Keeps.refl _)) <| keeps_wr ..
theorem keeps_parentLost (s : State) : Keeps s s.parentLost :=
  Keeps.after (keeps_time ..) <| Keeps.ite (Keeps.after (keeps_wr ..) <| Keeps.after (keeps_time ..) <|
    Keeps.after (keeps_setRate ..) <| keeps_fset ..) (Keeps.ite (Keeps.ite (Keeps.after (keeps_wr ..) <|
    Keeps.after (keeps_time ..) <| Keeps.after (keeps_setRate ..) <| keeps_fset ..) (Keeps.after (keeps_wr ..) <|
    Keeps.after (keeps_setRate ..) <| keeps_fset ..)) (Keeps.refl _))
theorem keeps_ptpUpdate (s : State) : Keeps s s.ptpUpdate := by
  unfold State.ptpUpdate
  extract_lets states slave parent same s1 s2 s3 _ s4
  have h2 : Keeps s s2 := Keeps.after (keeps_fsetb ..) <| Keeps.after (keeps_fset ..) <| Keeps.after (keeps_fsetb ..) <|
    Keeps.after (keeps_fset ..) (keeps_fset ..)
  have h3 : Keeps s s3 := Keeps.ite h2 (Keeps.after (keeps_bump ..) <| Keeps.after (keeps_parentLost ..) h2)
  have h4 : Keeps s s4 := Keeps.after (keeps_time ..) h3
  clear_value s4 parent
  split <;> exact Keeps.after (keeps_wr64 ..) h4
theorem keeps_takeUtc (s : State) (a : Announce) : Keeps s (s.takeUtc a) := keeps_wr ..
theorem keeps_useUtcCfg (s : State) : Keeps s s.useUtcCfg := Keeps.ite (Keeps.refl _) (keeps_wr ..)
theorem keeps_execPtpAnnounceRx (p : Fin 2) (a : Announce) (fast : Bool) (s : State) :
    KeepsRes s (execPtpAnnounceRx p a fast s) := by
  unfold execPtpAnnounceRx
  have h := keeps_ptpTake s p.val fast
  generalize s.ptpTake p.val fast = x at h ⊢
  obtain ⟨s1, ok⟩ := x
  refine KeepsRes.ite (KeepsRes.next h) <| KeepsRes.ite (KeepsRes.next h) ?_
  extract_lets cur take _ s2 s3
  have h3 : Keeps s s3 := Keeps.after (keeps_ptpUpdate ..) <| Keeps.after (keeps_time ..) h
  clear_value s3
  split
  · exact KeepsRes.next (Keeps.ite (Keeps.after (keeps_takeUtc ..) h3) h3)
  · exact KeepsRes.next h3
theorem keeps_dropBest (s : State) (p : Nat) : Keeps s (s.dropBest p) :=
  Keeps.after (keeps_ptpUpdate ..) <| keeps_time ..
theorem keeps_execAnnounceTimeout (p : Fin 2) (s : State) : KeepsRes s (execAnnounceTimeout p s) :=
  KeepsRes.when (Keeps.refl _) (Keeps.after (keeps_dropBest ..) <| keeps_bump ..)
theorem keeps_execSyncLoss (s : State) : KeepsRes s (execSyncLoss s) := by
  unfold execSyncLoss
  split
  · exact KeepsRes.next (Keeps.after (keeps_ptpUpdate ..) <| keeps_time ..)
  · exact KeepsRes.next (Keeps.refl _)
theorem keeps_execParentQualified (s : State) : KeepsRes s (execParentQualified s) :=
  KeepsRes.when (Keeps.refl _) (Keeps.after (keeps_time ..) <| Keeps.after (keeps_wr ..) <| keeps_fset ..)
theorem keeps_execPtpMasterEnable (s : State) : KeepsRes s (execPtpMasterEnable s) :=
  KeepsRes.when (Keeps.refl _) (Keeps.after (keeps_ptpUpdate ..) <| keeps_power ..)
theorem keeps_servoRate (s : State) : Keeps s s.servoRate := (keeps_take s).trans (keeps_setRate ..)
theorem keeps_servo (s : State) (off : Int) : Keeps s (s.servo off) :=
  Keeps.after (Keeps.ite (Keeps.refl _) (Keeps.after (Keeps.ite (Keeps.after (keeps_time ..) <|
    Keeps.after (keeps_wr ..) <| keeps_fset ..) (Keeps.refl _)) <| Keeps.after (Keeps.ite (Keeps.after (keeps_time ..)
    <| keeps_stepTb0 ..) (keeps_servoRate ..)) <| keeps_time ..)) <| keeps_wr ..
theorem keeps_execPtpSyncRx (p : Fin 2) (src : W64) (port : Nat) (logInt origin corr : Int) (fast : Bool) (s : State) :
    KeepsRes s (execPtpSyncRx p src port logInt origin corr fast s) := by
  unfold execPtpSyncRx
  have h := keeps_ptpTake s p.val fast
  generalize s.ptpTake p.val fast = x at h ⊢
  obtain ⟨s1, ok⟩ := x
  refine KeepsRes.ite (KeepsRes.next h) (KeepsRes.after ?_ (Keeps.after (keeps_bump s1 (R.timePpSyncRx p.val)) h))
  split
  · exact KeepsRes.ite (KeepsRes.next (Keeps.refl _)) <| KeepsRes.ite (KeepsRes.next (keeps_bump ..)) <|
      KeepsRes.next (Keeps.after (keeps_servo ..) (keeps_time ..))
  · exact KeepsRes.next (Keeps.refl _)
theorem keeps_execDelayReqSend (p : Fin 2) (s : State) : KeepsRes s (execDelayReqSend p s) := by
  unfold execDelayReqSend
  split
  · exact KeepsRes.when (Keeps.refl _) (Keeps.after (keeps_emit ..) <| keeps_time ..)
  · exact KeepsRes.next (Keeps.refl _)
theorem keeps_execPtpDelayRespRx (p : Fin 2) (src : W64) (port : Nat) (recv corr : Int) (fast : Bool) (s : State) :
    KeepsRes s (execPtpDelayRespRx p src port recv corr fast s) := by
  unfold execPtpDelayRespRx
  refine KeepsRes.ite (KeepsRes.next (keeps_ptpTake ..)) ?_
  split
  · exact KeepsRes.when (keeps_ptpTake ..) (Keeps.after (keeps_wr ..) <| Keeps.after (keeps_time ..) <|
      keeps_ptpTake ..)
  · exact KeepsRes.next (keeps_ptpTake ..)
theorem keeps_execMasterSyncSend (p : Fin 2) (announce : Bool) (s : State) : KeepsRes s (execMasterSyncSend p announce
    s) :=
  KeepsRes.when (Keeps.refl _) (Keeps.ite (keeps_emit ..) (Keeps.after (keeps_emit ..) <| keeps_emit ..))
theorem keeps_execDelayReqRx (p : Fin 2) (src : W64) (port : Nat) (udp fast : Bool) (s : State) : KeepsRes s
    (execDelayReqRx p src port udp fast s) :=
  KeepsRes.next (Keeps.ite (Keeps.after (keeps_emit ..) <| keeps_ptpTake ..) (keeps_ptpTake ..))
theorem keeps_execLeapSecond (s : State) : KeepsRes s (execLeapSecond s) :=
  KeepsRes.next (Keeps.after (keeps_fset ..) <| Keeps.after (keeps_fset ..) <| keeps_fset ..)
theorem keeps_timeSnap (s : State) : Keeps s s.timeSnap :=
  Keeps.after (keeps_wr64 ..) <| Keeps.after (keeps_wr64 ..) <| Keeps.after (keeps_wr64 ..) <|
    Keeps.after (keeps_wr ..) <| keeps_wr64 ..
theorem keeps_execTimeSnap (m : Master) (s : State) : KeepsRes s (execTimeSnap m s) :=
  keepsRes_asWrite (fun _ => keeps_timeSnap ..)
theorem keeps_timeClrCnt (s : State) : Keeps s s.timeClrCnt := keeps_zero ..
theorem keeps_execTimeClrCnt (m : Master) (s : State) : KeepsRes s (execTimeClrCnt m s) :=
  keepsRes_asWrite (fun _ => keeps_timeClrCnt ..)
theorem keeps_timeSetKey (s : State) (v : W32) : Keeps s (s.timeSetKey v) :=
  Keeps.ite (keeps_ignoredIn ..) (keeps_stepTb0 ..)
theorem keeps_execTimeSet (m : Master) (v : W32) (s : State) : KeepsRes s (execTimeSet m v s) :=
  keepsRes_asWrite (fun _ => keeps_timeSetKey ..)
theorem keeps_tick (s : State) : Keeps s s.tick :=
  Keeps.ite (Keeps.refl _) (Keeps.after (keeps_time ..) <| keeps_setTb0 ..)
theorem keeps_pendClear (s : State) (b : Nat) : Keeps s (s.pendClear b) :=
  Keeps.after (keeps_fset ..) <| keeps_fset ..
theorem keeps_takeGroup (s : State) (b : Nat) : Keeps s (s.takeGroup b) := keeps_takeRegs s _
theorem keeps_genUp (s : State) (b : Nat) : Keeps s (s.genUp b) := by
  unfold State.genUp
  split
  · exact keeps_wr ..
  · exact Keeps.refl _
theorem keeps_dropGroup (s : State) (b : Nat) : Keeps s (s.dropGroup b) := by
  refine Keeps.after (keeps_pendClear ..) ⟨fun ⟨hm, hr⟩ => ⟨hm, ?_⟩, rfl, [], (List.append_nil _).symm⟩
  obtain ⟨h, ha⟩ := Bool.and_eq_true_iff.mp hr
  have hc := swf_scopy regReset (fun o => o / 0x1000 == b && (isRws o || isTiming o)) s.act s.regs h
  exact Bool.and_eq_true_iff.mpr ⟨hc, ha⟩
theorem keeps_planHook (s : State) (b : Nat) : Keeps s (s.planHook b) := by
  unfold State.planHook
  refine Keeps.ite (Keeps.after (keeps_showIsland ..) <| Keeps.after (keeps_genUp ..) <| keeps_islandLoad ..)
    (Keeps.ite (Keeps.after (keeps_showIsland ..) <| keeps_islandLoad ..) (Keeps.ite (keeps_acqClearHistory ..)
    (Keeps.ite ?_ (Keeps.ite (keeps_canActivate ..) (Keeps.ite (Keeps.after (keeps_dmaGo ..) <| keeps_dmaWait ..)
    (Keeps.ite (Keeps.after (keeps_ptpUpdate ..) <| keeps_useUtcCfg ..) (Keeps.ite (Keeps.foldl _ (fun _ _ =>
    keeps_showParked ..) _ _) (Keeps.refl _))))))))
  split
  · exact Keeps.after (keeps_wr ..) <| Keeps.after (keeps_conf ..) <| keeps_ringActivate ..
  · exact keeps_ringPhy ..
theorem keeps_tellPlans (s : State) : Keeps s s.tellPlans := Keeps.ite (Keeps.refl _) (keeps_send ..)
theorem keeps_agreementUsed (s : State) (b : Nat) : Keeps s (s.agreementUsed b) := keeps_pair ..
theorem keeps_takeTiming (s : State) : Keeps s s.takeTiming :=
  (Keeps.ite (Keeps.refl s) (keeps_agreementUsed ..)).trans (keeps_takeRegs _ _)
theorem keeps_planActivate (s : State) (b : Nat) : Keeps s (s.planActivate b) :=
  Keeps.ite (Keeps.refl _) (Keeps.after (Keeps.ite (Keeps.refl _) (Keeps.after (Keeps.ite (keeps_dropGroup ..)
    (Keeps.after (keeps_tellPlans ..) <| Keeps.after (keeps_planHook ..) <| Keeps.after (keeps_genUp ..) <|
    Keeps.after (keeps_pendClear ..) <| keeps_takeGroup ..)) <| keeps_agreementUsed ..)) <| Keeps.ite
    (keeps_takeTiming ..) (Keeps.refl _))
theorem keeps_planBoundary (s : State) : Keeps s s.planBoundary :=
  Keeps.after (Keeps.ite (keeps_takeTiming ..) (Keeps.refl _)) <| Keeps.foldl _ (fun _ _ => Keeps.ite
    (keeps_planActivate ..) (Keeps.refl _)) _ _
theorem keeps_setBoth (s : State) (off : Nat) (v : W32) : Keeps s (s.setBoth off v) :=
  (keeps_wr ..).trans <| Keeps.ite (keeps_act _ _ (swf_sset _ _ _ _)) (Keeps.refl _)
theorem keeps_setAll (s : State) (regs : List (Nat × W32)) : Keeps s (s.setAll regs) :=
  Keeps.foldl _ (fun _ _ => keeps_setBoth ..) _ _
theorem keeps_planSet (s : State) (p : PlanSet) : Keeps s (s.planSet p) := by
  unfold State.planSet
  refine Keeps.after (keeps_tellPlans ..) <| Keeps.after (Keeps.foldl _ (fun _ _ => Keeps.after (keeps_planHook ..) <|
    keeps_genUp ..) _ _) <| ?_
  split
  · exact Keeps.after (keeps_conf ..) <| keeps_setAll ..
  · exact keeps_setAll ..
theorem keeps_scanTrip (s : State) (cls : Nat) (partner : Bool) : Keeps s (s.scanTrip cls partner) :=
  Keeps.after (keeps_raise ..) <| Keeps.after (Keeps.ite (keeps_emit ..) (Keeps.refl _)) <|
    Keeps.after (keeps_canPermit ..) <| Keeps.after (keeps_canTrip ..) <| Keeps.after (keeps_enter ..) <|
    Keeps.after (keeps_setStale ..) <| Keeps.after (keeps_wr ..) <| Keeps.after (keeps_wr ..) <|
    Keeps.after (keeps_fsetb ..) <| Keeps.after (keeps_endServiceCmds ..) <| Keeps.after (keeps_endSwitchCmds ..) <|
    Keeps.after (keeps_wr ..) <| Keeps.after (keeps_fset ..) <| Keeps.after (keeps_fset ..) <| Keeps.after (Keeps.same
    rfl rfl rfl rfl rfl) <| Keeps.after (keeps_haltScan ..) <| keeps_olcCut ..
theorem keeps_setPkg (s : State) (n : Nat) : Keeps s (s.setPkg n) := keeps_fset ..
theorem keeps_olcCode (s : State) (code arg : Nat) : Keeps s (s.olcCode code arg) :=
  Keeps.after (keeps_raise ..) <| Keeps.after (keeps_wr ..) <| keeps_wr ..
theorem keeps_showBanks (s : State) : Keeps s s.showBanks :=
  Keeps.after (Keeps.ite (Keeps.refl _) (Keeps.after (keeps_wr ..) <| keeps_wr64 ..)) <|
    Keeps.after (keeps_fsetb ..) <| Keeps.after (keeps_wr ..) <| keeps_wr64 ..
theorem keeps_tellPartner (s : State) (o : Out) : Keeps s (s.tellPartner o) :=
  Keeps.ite (keeps_send ..) (Keeps.refl _)
theorem keeps_countForces (s : State) : Keeps s s.countForces :=
  Keeps.after (keeps_fsetb ..) <| Keeps.after (keeps_wr ..) <| keeps_wr ..
theorem keeps_forceSet (s : State) (id : W64) (typeId : Nat) (v : W64) : Keeps s (s.forceSet id typeId v).1 := by
  unfold State.forceSet
  split
  · exact Keeps.refl _
  · exact Keeps.ite_fst (Keeps.refl _) (Keeps.ite_fst (Keeps.refl _) (Keeps.after (keeps_countForces ..) <|
      keeps_olc ..))
theorem keeps_forceRelease (s : State) (id : W64) : Keeps s (s.forceRelease id).1 :=
  Keeps.ite_fst (Keeps.after (keeps_countForces ..) <| keeps_olc ..) (Keeps.ite_fst (Keeps.after
    (keeps_countForces ..) <| keeps_olc ..) (Keeps.refl _))
theorem keeps_releaseClashes (s : State) : Keeps s s.releaseClashes :=
  Keeps.after (keeps_olc ..) <| Keeps.foldl _ (fun _ _ => keeps_raise ..) _ _
theorem keeps_forceInputs (s : State) (c : Cls) : Keeps s (s.forceInputs c) := by
  unfold State.forceInputs
  refine Keeps.foldl _ (fun _ _ => ?_) _ _
  split
  · exact Keeps.ite (Keeps.after (keeps_markDirty ..) <| keeps_wrMem ..) (Keeps.refl _)
  · exact Keeps.refl _
theorem keeps_forceOutputs (s : State) (c : Cls) : Keeps s (s.forceOutputs c) := by
  refine Keeps.foldl _ (fun s f => ?_) _ s
  split
  · exact Keeps.ite (keeps_committed s _ (swf_cells _ _ _ _)) (Keeps.refl s)
  · exact Keeps.refl s
theorem keeps_vwRefuse (s : State) (id : W64) : Keeps s (s.vwRefuse id) :=
  Keeps.after (keeps_raise ..) <| keeps_bump ..
theorem keeps_vwShow (s : State) : Keeps s s.vwShow := keeps_fsetb ..
theorem keeps_vwQueue (s : State) (id : W64) (typeId off size : Nat) (v : W64) : Keeps s (s.vwQueue id typeId off size
    v).1 := by
  unfold State.vwQueue
  refine Keeps.ite_fst (keeps_vwRefuse ..) ?_
  split
  · exact keeps_vwRefuse ..
  · exact Keeps.ite_fst (keeps_vwRefuse ..) (Keeps.ite_fst (keeps_vwRefuse ..) (Keeps.after (keeps_vwShow ..) <|
      keeps_olc ..))
theorem keeps_vwRun (n : Nat) (l : List ValueWrite) (s : State) : Keeps s (State.vwRun n l s).1 := by
  induction l generalizing n s with
  | nil => exact Keeps.refl s
  | cons w r ih =>
    unfold State.vwRun
    split
    · exact Keeps.after (ih ..) (keeps_vwRefuse ..)
    · refine Keeps.ite_fst (Keeps.after (ih ..) (keeps_vwRefuse ..)) <| Keeps.ite_fst (ih ..) <| Keeps.ite_fst ?_ ?_
      · exact Keeps.after (ih ..) <| Keeps.after (keeps_vwRefuse ..) (keeps_mcAccess ..)
      · exact Keeps.after (ih ..) <| Keeps.after (keeps_bump ..) <| Keeps.after (keeps_markDirty ..) <|
          Keeps.after (keeps_wrMem ..) (keeps_mcAccess ..)
theorem keeps_vwApply (s : State) : Keeps s s.vwApply :=
  Keeps.after (keeps_vwShow ..) <| Keeps.after (keeps_olc ..) <| Keeps.after (keeps_vwRun ..) <| keeps_olc ..
theorem keeps_vwSettle (s : State) : Keeps s s.vwSettle := Keeps.after (keeps_vwShow ..) <| keeps_olc ..
theorem keeps_pkgLoad (s : State) (cls off : Nat) (data : List Byte) : Keeps s (s.pkgLoad cls off data).1 :=
  Keeps.ite_fst (Keeps.refl _) (Keeps.ite_fst (Keeps.refl _) (Keeps.ite_fst (Keeps.ite_fst (keeps_mcAccess ..)
    (keeps_spanAccess ..)) (Keeps.after (Keeps.ite (Keeps.after (keeps_olc ..) <| keeps_setPkg ..) (Keeps.refl _)) <|
    Keeps.after (keeps_wr ..) <| Keeps.after (keeps_wrMem ..) <| Keeps.after (keeps_setPkg ..) <| Keeps.ite_fst
    (keeps_mcAccess ..) (keeps_spanAccess ..))))
theorem keeps_pairCheck (s : State) : Keeps s s.pairCheck := by
  unfold State.pairCheck
  refine Keeps.ite (Keeps.refl _) ?_
  split
  · exact keeps_fsetb ..
  · exact Keeps.ite (keeps_fsetb ..) (Keeps.after (keeps_olcCode ..) <| Keeps.after (keeps_fsetb ..) <|
      Keeps.after (keeps_fset ..) <| keeps_setPkg ..)
theorem keeps_rfxPrepare (s : State) : Keeps s s.rfxPrepare :=
  Keeps.ite (Keeps.refl _) (Keeps.after (keeps_fset ..) <| keeps_rfxLoad ..)
theorem keeps_checkPackage (s : State) (plans : Option PlanSet) : Keeps s (s.checkPackage plans) := by
  unfold State.checkPackage
  refine Keeps.after (keeps_countForces ..) <| Keeps.after (keeps_showBanks ..) <| ?_
  split
  · exact Keeps.after (Keeps.ite (Keeps.after (keeps_send ..) <| Keeps.after (keeps_olcCode ..) <|
      Keeps.after (keeps_fsetb ..) <| keeps_setPkg ..) (Keeps.after (keeps_olcCode ..) <|
      Keeps.after (keeps_fsetb ..) <| keeps_setPkg ..)) <| Keeps.after (keeps_wr ..) <| keeps_wr ..
  · exact Keeps.after (keeps_pairCheck ..) <| Keeps.after (Keeps.ite (Keeps.after (keeps_send ..) <|
      keeps_rfxPrepare ..) (keeps_rfxPrepare ..)) <| Keeps.after (keeps_olc ..) <| Keeps.after (keeps_setPkg ..) <|
      Keeps.after (keeps_wr ..) <| keeps_wr ..
theorem keeps_execPackageCheckDone (plans : Option PlanSet) (s : State) : KeepsRes s (execPackageCheckDone plans s) :=
  KeepsRes.when (Keeps.refl _) (keeps_checkPackage ..)
theorem keeps_execPkgCheckReportRx (id : Nat) (digest : BitVec 128) (ok : Bool) (s : State) : KeepsRes s
    (execPkgCheckReportRx id digest ok s) :=
  KeepsRes.onceOnly (Keeps.refl _) (Keeps.after (keeps_pairCheck ..) <| keeps_olc ..)
theorem keeps_execPkgBlockRx (id off : Nat) (data : List Byte) (s : State) : KeepsRes s (execPkgBlockRx id off data s)
    :=
  KeepsRes.ite (KeepsRes.onceOnly (Keeps.refl _) (keeps_pkgLoad ..)) (KeepsRes.next (Keeps.refl _))
theorem keeps_pkgDiscard (s : State) : KeepsOpt s s.pkgDiscard :=
  KeepsOpt.ite (KeepsOpt.some (Keeps.after (keeps_countForces ..) <| Keeps.after (keeps_olc ..) <|
    Keeps.after (keeps_fset ..) <| Keeps.after (keeps_fsetb ..) <| keeps_setPkg ..)) KeepsOpt.none
theorem keeps_flipBanks (s : State) : Keeps s s.flipBanks := by
  unfold State.flipBanks
  extract_lets s1 s2 s3
  have h1 : Keeps s s1 :=
    Keeps.after (keeps_fset ..) <| Keeps.after (keeps_stopAudit ..) (keeps_releaseClashes ..)
  have h3 : Keeps s s3 := Keeps.after (keeps_bump ..) <| Keeps.after (keeps_fsetb ..) <| Keeps.after (keeps_setPkg ..) <|
    Keeps.after (keeps_dropLines ..) <| Keeps.after (keeps_fsetb ..) h1
  clear_value s3
  exact Keeps.after (keeps_countForces ..) <| Keeps.after (keeps_showBanks ..) <| Keeps.then_same h3 rfl rfl rfl rfl rfl
theorem keeps_pkgSwitch (s : State) (relAck : Bool) : KeepsOpt s (s.pkgSwitch relAck) :=
  KeepsOpt.ite KeepsOpt.none (KeepsOpt.ite (KeepsOpt.some (keeps_setPkg ..)) (KeepsOpt.ite (KeepsOpt.some (Keeps.after
    (keeps_planSet ..) <| keeps_flipBanks ..)) KeepsOpt.none))
theorem keeps_pkgCancel (s : State) : KeepsOpt s s.pkgCancel :=
  KeepsOpt.ite (KeepsOpt.some (keeps_olcCancel ..)) KeepsOpt.none
theorem keeps_olcCmd (s : State) (cmd : Nat) (relAck : Bool) (key : Nat) : Keeps s (s.olcCmd cmd relAck key) := by
  have told (o : Option State) (i : Out) (h : KeepsOpt s o) : KeepsOpt s (o.map (·.tellPartner i)) :=
    KeepsOpt.map h fun _ => keeps_tellPartner ..
  refine Keeps.getD (KeepsOpt.ite KeepsOpt.none ?_) (keeps_ignoredIn ..)
  split
  · exact told _ _ (keeps_pkgDiscard ..)
  · exact KeepsOpt.ite KeepsOpt.none (told _ _ (keeps_pkgSwitch ..))
  · exact told _ _ (keeps_pkgCancel ..)
  · exact KeepsOpt.none
theorem keeps_execOlcDiscard (m : Master) (key : BitVec 16) (s : State) : KeepsRes s (execOlcDiscard m key s) :=
  keepsRes_asWrite (fun _ => keeps_olcCmd ..)
theorem keeps_execOlcSwitchRequest (m : Master) (relAck : Bool) (key : BitVec 16) (s : State) : KeepsRes s
    (execOlcSwitchRequest m relAck key s) :=
  keepsRes_asWrite (fun _ => keeps_olcCmd ..)
theorem keeps_execOlcCancel (m : Master) (key : BitVec 16) (s : State) : KeepsRes s (execOlcCancel m key s) :=
  keepsRes_asWrite (fun _ => keeps_olcCmd ..)
theorem keeps_execSwitchWaitExpiry (s : State) : KeepsRes s (execSwitchWaitExpiry s) :=
  KeepsRes.when (Keeps.refl _) (Keeps.after (keeps_olcCode ..) <| keeps_setPkg ..)
theorem keeps_carryStart (s : State) : Keeps s s.carryStart := by
  unfold State.carryStart
  refine Keeps.trans ?_ ((keeps_setPkg ..).trans (keeps_olc ..))
  have hg : ∀ g : State × Bool, Keeps s g.1 → ∀ a bytes,
      Keeps s (if g.2 then { g.1 with mem := g.1.mem.fill a bytes } else g.1) := fun g h a bytes =>
    Keeps.ite (h.trans (Keeps.mem (Mem.wf_fill a bytes))) h
  exact hg _ (Keeps.ite_fst ((keeps_mcSpans ..).trans (keeps_mcAccess ..)) (keeps_mcSpans ..)) _ _
theorem keeps_carryFault (s : State) (a : Nat) : Keeps s (s.carryFault a) :=
  Keeps.after (Keeps.ite (keeps_scanTrip ..) (keeps_forceZero ..)) <| Keeps.after (keeps_raise ..) <| keeps_eccUe ..
theorem keeps_carryUndo (s : State) (c : Carry) (state code : Nat) (undoUe : Option Nat) :
    Keeps s (s.carryUndo c state code undoUe) := by
  unfold State.carryUndo
  have hm {m : Mem} (h : m.wf = true) :
      (c.saved.foldl (fun (m : Mem) (e : Nat × List Byte) => m.putBytes e.1 e.2) m).wf = true :=
    Mem.wf_foldl _ (fun _ (e : Nat × List Byte) => Mem.wf_putBytes e.2 e.1) _ h
  cases undoUe with
  | none => exact Keeps.after (keeps_bump ..) <| Keeps.after (keeps_olcCode ..) <| Keeps.after (keeps_setPkg ..) <|
      Keeps.memSame hm rfl rfl rfl rfl
  | some a => exact Keeps.after (keeps_carryFault ..) <| Keeps.after (keeps_bump ..) <| Keeps.after (keeps_olcCode ..) <|
      Keeps.after (keeps_setPkg ..) <| Keeps.memSame hm rfl rfl rfl rfl
theorem keeps_execCarryOverComplete (undoUe : Option Nat) (s : State) : KeepsRes s (execCarryOverComplete undoUe s) := by
  unfold execCarryOverComplete
  split
  · exact KeepsRes.next (Keeps.refl s)
  · next c _ =>
    refine KeepsRes.when (Keeps.refl s) ?_
    split
    · exact Keeps.after (keeps_carryUndo ..) (keeps_eccUe ..)
    · refine Keeps.ite (Keeps.after (keeps_olc ..) (keeps_mcSpans ..)) ?_
      have hg := keeps_mcSpans s .write (c.writes.map (fun e => (e.1, e.2.length)))
      refine ⟨fun h => ⟨Mem.wf_foldl _ (fun _ (e : Nat × List Byte) => Mem.wf_write e.1 e.2) _ h.1, (hg.1 h).2⟩, hg.2⟩
theorem keeps_execCarryOverDeadline (undoUe : Option Nat) (s : State) : KeepsRes s (execCarryOverDeadline undoUe s) :=
    by
  unfold execCarryOverDeadline
  split
  · exact KeepsRes.next (Keeps.refl _)
  · exact KeepsRes.when (Keeps.refl _) (keeps_carryUndo ..)
theorem keeps_bankSwitch (s : State) (n : W64) : Keeps s (s.bankSwitch n) := by
  unfold State.bankSwitch
  split
  · exact Keeps.refl _
  · exact Keeps.ite (keeps_carryUndo ..) (Keeps.after (keeps_wr64 ..) <| Keeps.after (keeps_olc ..) <|
      Keeps.after (keeps_planSet ..) <| Keeps.after (keeps_rfxExchange ..) <| keeps_flipBanks ..)
theorem keeps_setIdle (s : State) (off v : Nat) : Keeps s (s.setIdle off v) := keeps_wrLe ..
theorem keeps_constPatch (s : State) (id : W64) (off size : Nat) (v : W64) : Keeps s (s.constPatch id off size v).1 := by
  unfold State.constPatch
  refine Keeps.ite_fst (Keeps.refl s) ?_
  split
  · exact Keeps.refl s
  extract_lets fresh s1 b cnt tab n g1 g2
  have hm (h : s.mem.wf = true) : s1.mem.wf = true := by
    dsimp only [s1]
    split
    · exact Mem.wf_copySpan _ _ _ h
    · exact h
  have hg1 : Keeps s g1.1 := Keeps.ite_fst (keeps_mcAccess ..) (Keeps.refl s)
  have hg2 : Keeps s g2.1 := Keeps.ite_fst (Keeps.after (keeps_mcAccess ..) hg1) hg1
  refine Keeps.ite_fst (Keeps.refl s) <| Keeps.ite_fst (Keeps.refl s) <| Keeps.ite_fst hg2 ?_
  have h : Keeps s { g2.1 with mem := s1.mem } := Keeps.withMem hg2 hm
  clear_value g2 s1
  exact Keeps.after (keeps_fsetb ..) <| Keeps.after (keeps_wr ..) <| Keeps.after (keeps_olc ..) <| Keeps.after (keeps_setPkg ..) <|
    Keeps.after (keeps_setIdle ..) <| Keeps.after (keeps_setIdle ..) <| Keeps.after (keeps_setIdle ..) <|
    Keeps.after (keeps_setIdle ..) <| Keeps.after (keeps_wrMem ..) <| Keeps.after (keeps_wrMem ..) h
theorem keeps_putFrozen (s : State) (c : Cls) (off : Nat) (bs : List Byte) : Keeps s (s.putFrozen c off bs) :=
  Keeps.after (keeps_markDirty ..) <| keeps_wrMem ..
theorem keeps_freezeCls (s : State) (k : Nat) (n : W64) : Keeps s (s.freezeCls k n) :=
  Keeps.after (keeps_modCls ..) <| Keeps.after (keeps_canTaken ..) <| Keeps.after (keeps_forceInputs ..) <|
    Keeps.foldl _ (fun _ _ => keeps_putFrozen ..) _ _
theorem keeps_freezeDue (s : State) (k : Nat) (boundary : Bool) (n : W64) : Keeps s (s.freezeDue k boundary n) :=
  Keeps.ite (Keeps.refl _) (Keeps.ite (keeps_modCls ..) (keeps_freezeCls ..))
theorem keeps_nsYield (s : State) : Keeps s s.nsYield := keeps_brm ..
theorem keeps_tb2Start (s : State) (t : Option W64) : Keeps s (s.tb2Start t) :=
  Keeps.after (keeps_time ..) <| keeps_fsetb ..
theorem keeps_freezeStep (s : State) (n : W64) (nDue sDue : Bool) : Keeps s (s.freezeStep n nDue sDue) :=
  Keeps.after (keeps_scan ..) <| Keeps.after (keeps_freezeDue ..) <| Keeps.after (keeps_freezeDue ..) <|
    Keeps.after (keeps_freezeCls ..) <| Keeps.ite (keeps_tb2Start ..) (Keeps.refl _)
theorem keeps_overflowEvent (s : State) : Keeps s s.overflowEvent :=
  Keeps.ite (Keeps.refl _) (Keeps.after (keeps_event ..) <| keeps_scan ..)
theorem keeps_errorPhase (s : State) : Keeps s s.errorPhase := by
  unfold State.errorPhase
  extract_lets old newer live s1 budget p taken s2 s3 q _ _ s4 s5 s6 s7
  have h1 : Keeps s s1 := Keeps.foldl _ (fun _ _ => keeps_raise ..) _ _
  have h2 : Keeps s1 s2 := Keeps.foldl _ (fun _ _ => keeps_putFrozen ..) _ _
  have h3 : Keeps s2 s3 := keeps_putFrozen ..
  have h4 : Keeps s3 s4 := Keeps.same rfl rfl rfl rfl rfl
  have h5 : Keeps s4 s5 := (keeps_wr ..).trans (keeps_fsetb ..)
  have h6 : Keeps s5 s6 := (keeps_bumpBy ..).trans (keeps_fsetb ..)
  have h7 : Keeps s6 s7 := (keeps_overflowEvent ..).trans (keeps_startETasks ..)
  clear_value s7 s6 s5 s4 s3 s2 s1
  have h8 : Keeps s7 (if s7.brm.etasks.isEmpty then s7.releaseF else s7) := Keeps.ite (keeps_releaseF ..) (Keeps.refl _)
  exact ((((((h1.trans h2).trans h3).trans h4).trans h5).trans h6).trans h7).trans h8
theorem keeps_execFImageComplete (s : State) : KeepsRes s (execFImageComplete s) :=
  KeepsRes.when (Keeps.refl _) (keeps_errorPhase ..)
theorem keeps_execErrorBudgetExpiry (s : State) : KeepsRes s (execErrorBudgetExpiry s) :=
  KeepsRes.when (Keeps.refl _) (keeps_releaseF ..)
theorem keeps_execNsImageComplete (k : Fin 2) (s : State) : KeepsRes s (execNsImageComplete k s) :=
  KeepsRes.when (Keeps.refl _) (keeps_releasePeriod ..)
theorem keeps_execErrorEventRaised (code : BitVec 16) (block : Fin 22) (unit : BitVec 8) (ps : Vector W64 4)
    (s : State) : KeepsRes s (execErrorEventRaised code block unit ps s) :=
  KeepsRes.when (Keeps.refl _) (keeps_event ..)
theorem keeps_showCart (s : State) : Keeps s s.showCart := by
  unfold State.showCart
  split
  · exact Keeps.refl _
  · exact Keeps.after (keeps_wr ..) <| Keeps.after (keeps_wr ..) <| keeps_wr ..
theorem keeps_setCart (s : State) (c : Cartridge) : Keeps s (s.setCart c) :=
  Keeps.after (Keeps.ite (Keeps.refl _) (keeps_raise ..)) <| Keeps.after (Keeps.ite (Keeps.refl _) (keeps_raise ..))
    <| Keeps.after (keeps_showCart ..) <| keeps_bay ..
theorem keeps_publishCart (s : State) (c : Cartridge) : Keeps s (s.publishCart c) :=
  Keeps.after (Keeps.foldl _ (fun _ _ => Keeps.foldl _ (fun _ _ => keeps_wr ..) _ _) _ _) <| Keeps.after (Keeps.foldl
    _ (fun _ _ => Keeps.after (keeps_wr ..) <| Keeps.after (keeps_wr ..) <| keeps_wr64 ..) _ _) <| Keeps.after
    (Keeps.foldl _ (fun _ _ => Keeps.after (keeps_wr ..) <| Keeps.after (keeps_wr ..) <| Keeps.after (keeps_wr ..) <|
    Keeps.after (keeps_wr64 ..) <| Keeps.after (keeps_wr64 ..) <| Keeps.after (keeps_wr64 ..) <| keeps_wr64 ..) _ _)
    <| Keeps.after (Keeps.foldl _ (fun _ _ => keeps_wr ..) _ _) <| Keeps.after (keeps_wr ..) <|
    Keeps.after (keeps_wr ..) <| keeps_wr64 ..
theorem keeps_execTcSnapshot (start : Bool) (s : State) : KeepsRes s (execTcSnapshot start s) := by
  unfold execTcSnapshot
  split
  · exact KeepsRes.next (Keeps.refl _)
  · exact KeepsRes.ite (KeepsRes.next (Keeps.refl _)) (KeepsRes.after (KeepsRes.next (keeps_wr ..)) (Keeps.ite
      (keeps_setCart ..) (Keeps.after (keeps_setCart ..) <| keeps_publishCart ..)))
theorem keeps_execMeteringCompute (p q : Vector Int 4) (ma : Vector Nat 4) (voltBad : Bool) (temp : Int) (s : State) :
    KeepsRes s (execMeteringCompute p q ma voltBad temp s) := by
  unfold execMeteringCompute
  split
  · exact KeepsRes.next (Keeps.refl _)
  · exact KeepsRes.when (Keeps.refl _) (keeps_setCart ..)
theorem keeps_execMeteringPulse (k : Fin 8) (overspeed : Bool) (s : State) : KeepsRes s (execMeteringPulse k overspeed
    s) := by
  unfold execMeteringPulse
  split
  · exact KeepsRes.next (Keeps.refl _)
  · exact KeepsRes.when (Keeps.refl _) (keeps_setCart ..)
theorem keeps_execVerificationEnter (s : State) : KeepsRes s (execVerificationEnter s) := by
  unfold execVerificationEnter
  split
  · exact KeepsRes.next (Keeps.refl _)
  · exact KeepsRes.when (Keeps.refl _) (keeps_setCart ..)
theorem keeps_execVerificationLeave (s : State) : KeepsRes s (execVerificationLeave s) := by
  unfold execVerificationLeave
  split
  · exact KeepsRes.next (Keeps.refl _)
  · exact KeepsRes.when (Keeps.refl _) (keeps_setCart ..)
theorem keeps_execIdCmd (s : State) : KeepsRes s (execIdCmd s) := by
  unfold execIdCmd
  split
  · exact KeepsRes.next (Keeps.refl _)
  · exact KeepsRes.when (Keeps.refl _) (keeps_emit ..)
theorem keeps_execPrCmd (i : Fin 64) (s : State) : KeepsRes s (execPrCmd i s) := by
  unfold execPrCmd
  split
  · exact KeepsRes.next (Keeps.refl _)
  · exact KeepsRes.when (Keeps.refl _) (keeps_emit ..)
theorem keeps_execPwCmd (i : Fin 64) (v : W32) (s : State) : KeepsRes s (execPwCmd i v s) := by
  unfold execPwCmd
  split
  · exact KeepsRes.next (Keeps.refl _)
  · exact KeepsRes.when (Keeps.refl _) (keeps_setCart ..)
theorem keeps_execLedCmd (f : BitVec 4) (s : State) : KeepsRes s (execLedCmd f s) := by
  unfold execLedCmd
  split
  · exact KeepsRes.next (Keeps.refl _)
  · exact KeepsRes.when (Keeps.refl _) (keeps_setCart ..)
theorem keeps_execLrCmd (n : BitVec 12) (s : State) : KeepsRes s (execLrCmd n s) := by
  unfold execLrCmd
  split
  · exact KeepsRes.next (Keeps.refl _)
  · split
    · exact KeepsRes.when (Keeps.refl _) (keeps_emit ..)
    · exact KeepsRes.next (Keeps.refl _)
theorem keeps_showPage (s : State) (q : Nat) : Keeps s (s.showPage q) := keeps_emit ..
theorem keeps_timeLine (s : State) : Keeps s s.timeLine := by
  unfold State.timeLine
  split
  · exact keeps_fset ..
  · exact Keeps.after (keeps_fset ..) <| Keeps.ite (keeps_setCart ..) (Keeps.refl _)
theorem keeps_fitCart (s : State) (c : Cartridge) : Keeps s (s.fitCart c) :=
  Keeps.after (keeps_showPage ..) <| Keeps.after (keeps_setCart ..) <| Keeps.after (keeps_publishCart ..) <|
    Keeps.after (keeps_fset ..) <| Keeps.after (keeps_fset ..) <| keeps_fset ..
theorem keeps_execCartridgeFit (cart : Option Cartridge) (codeOk flashOk : Bool) (s : State) : KeepsRes s
    (execCartridgeFit cart codeOk flashOk s) := by
  unfold execCartridgeFit
  split
  · exact KeepsRes.next (Keeps.after (keeps_raise ..) <| Keeps.after (keeps_bump ..) <| keeps_fitCart ..)
  · exact KeepsRes.when (Keeps.refl _) (Keeps.after (keeps_setCart ..) <| Keeps.after (keeps_publishCart ..) <|
      keeps_fset ..)
  · exact KeepsRes.next (Keeps.refl _)
theorem keeps_execFitTimeLineWaitExpiry (s : State) : KeepsRes s (execFitTimeLineWaitExpiry s) := by
  unfold execFitTimeLineWaitExpiry
  split
  · exact KeepsRes.next (Keeps.refl _)
  · exact KeepsRes.when (Keeps.refl _) (keeps_setCart ..)
theorem keeps_execTimeLineTimeout (s : State) : KeepsRes s (execTimeLineTimeout s) := by
  unfold execTimeLineTimeout
  split
  · exact KeepsRes.next (Keeps.refl _)
  · exact KeepsRes.when (Keeps.refl _) (keeps_setCart ..)
theorem keeps_execLatchWarning (s : State) : KeepsRes s (execLatchWarning s) := by
  unfold execLatchWarning
  split
  · exact KeepsRes.next (Keeps.refl _)
  · exact KeepsRes.when (Keeps.refl _) (Keeps.after (keeps_setCart ..) <| Keeps.after (keeps_raise ..) <|
      keeps_fset ..)
theorem keeps_execLatchClose (codeOk flashOk : Bool) (s : State) : KeepsRes s (execLatchClose codeOk flashOk s) := by
  unfold execLatchClose
  split
  · exact KeepsRes.next (Keeps.refl _)
  · exact KeepsRes.when (Keeps.refl _) (Keeps.after (keeps_bump ..) <| Keeps.after (keeps_fitCart ..) <|
      keeps_raise ..)
theorem keeps_dropTcRegs (s : State) : Keeps s s.dropTcRegs := keeps_regs s _ (swf_filter _ _ _)
theorem keeps_execCartridgeRemoved (s : State) : KeepsRes s (execCartridgeRemoved s) := by
  unfold execCartridgeRemoved
  split
  · exact KeepsRes.next (Keeps.refl _)
  · exact KeepsRes.when (Keeps.refl _) (Keeps.after (keeps_bay ..) <| Keeps.after (keeps_raise ..) <|
      Keeps.after (keeps_dropTcRegs ..) <| Keeps.after (keeps_fset ..) <| Keeps.after (keeps_fset ..) <|
      keeps_fset ..)
theorem keeps_cartLoss (s : State) : Keeps s s.cartLoss := by
  unfold State.cartLoss
  split
  · exact Keeps.refl _
  · exact Keeps.ite (Keeps.refl _) (Keeps.after (keeps_fset ..) <| keeps_bay ..)
theorem keeps_execCartridgeSupplyLoss (s : State) : KeepsRes s (execCartridgeSupplyLoss s) :=
  KeepsRes.next (keeps_cartLoss ..)
theorem keeps_execLegalPageDisplay (page : Option (Fin 8)) (s : State) : KeepsRes s (execLegalPageDisplay page s) :=
    by
  unfold execLegalPageDisplay
  split
  · exact KeepsRes.when (Keeps.refl _) (keeps_showPage ..)
  · exact KeepsRes.when (Keeps.refl _) (keeps_emit ..)
theorem keeps_execTcWrite (m : Master) (off : BitVec 12) (s : State) : KeepsRes s (execTcWrite m off s) :=
  keepsRes_asWrite (fun _ => keeps_bump ..)
theorem keeps_showCat (s : State) : Keeps s s.showCat := Keeps.after (keeps_fset ..) <| keeps_fset ..

end Sys2Proof.Machine
end

section
/-! What whole operations keep: the CAT, memory, records, the cycle, starts and host transfers. -/

namespace Sys2Proof.Machine

theorem keeps_catWriteAddr (s : State) (m : Master) (e : Fin 128) (v : W32) : Keeps s (s.catWriteAddr m e v) :=
  Keeps.ite (keeps_ignoredIn ..) (keeps_wr ..)
theorem keeps_catWriteAttr (s : State) (m : Master) (e : Fin 128) (v : W32) : Keeps s (s.catWriteAttr m e v) :=
  Keeps.ite (keeps_ignoredIn ..) (Keeps.after (keeps_showCat ..) <| Keeps.after (keeps_cat ..) <| keeps_wr ..)
theorem keeps_catBarrier (s : State) (v : W32) : Keeps s (s.catBarrier v) :=
  Keeps.after (keeps_fset ..) <| keeps_cat ..
theorem keeps_execCatEntAddrWrite (m : Master) (e : Fin 128) (v : W32) (s : State) : KeepsRes s (execCatEntAddrWrite m
    e v s) :=
  keepsRes_asWrite (fun _ => keeps_catWriteAddr ..)
theorem keeps_execCatEntAttrWrite (m : Master) (e : Fin 128) (v : W32) (s : State) : KeepsRes s (execCatEntAttrWrite m
    e v s) :=
  keepsRes_asWrite (fun _ => keeps_catWriteAttr ..)
theorem keeps_execCatBarrier (m : Master) (v : W32) (s : State) : KeepsRes s (execCatBarrier m v s) :=
  keepsRes_asWrite (fun _ => keeps_mcOnly (fun _ => keeps_catBarrier ..) ..)
theorem keeps_execCatBarrierComplete (s : State) : KeepsRes s (execCatBarrierComplete s) := by
  unfold execCatBarrierComplete
  split
  · exact KeepsRes.next (Keeps.after (keeps_fset ..) <| Keeps.after (keeps_wr ..) <| keeps_cat ..)
  · exact KeepsRes.next (Keeps.refl _)
theorem keeps_catClrFault (s : State) : Keeps s s.catClrFault := Keeps.after (keeps_fset ..) <| keeps_fset ..
theorem keeps_catClrCnt (s : State) : Keeps s s.catClrCnt := keeps_zero ..
theorem keeps_execCatClrFault (m : Master) (s : State) : KeepsRes s (execCatClrFault m s) :=
  keepsRes_asWrite (fun _ => keeps_mcOnly (fun _ => keeps_catClrFault ..) ..)
theorem keeps_execCatClrCnt (m : Master) (s : State) : KeepsRes s (execCatClrCnt m s) :=
  keepsRes_asWrite (fun _ => keeps_mcOnly (fun _ => keeps_catClrCnt ..) ..)
theorem keeps_reloadShadows (s : State) : Keeps s s.reloadShadows :=
  (keeps_regs s _ (swf_scopy _ _ _ _)).trans (keeps_wr ..)
theorem keeps_mcReset (s : State) : Keeps s s.mcReset :=
  Keeps.after (keeps_forceZero ..) <| Keeps.after (keeps_raise ..) <| Keeps.after (keeps_bump ..) <|
    Keeps.after (keeps_power ..) <| Keeps.after (keeps_reloadShadows ..) <| keeps_fset ..
theorem keeps_refusePkg (s : State) (code : Nat) : Keeps s (s.refusePkg code) :=
  Keeps.after (keeps_wr ..) <| keeps_fset ..
theorem keeps_restartWin (s : State) (be : Fin 32) : Keeps s (s.restartWin be) := by
  unfold State.restartWin
  split
  · exact Keeps.after (keeps_brm ..) <| keeps_setDru ..
  · exact Keeps.refl _
theorem keeps_ueReact (s : State) (a : Nat) : Keeps s (s.ueReact a) :=
  Keeps.ite (Keeps.ite (Keeps.after (keeps_send ..) <| keeps_integ ..) (keeps_integ ..)) (Keeps.ite (Keeps.ite
    (keeps_refusePkg ..) (Keeps.refl _)) (Keeps.ite (Keeps.ite (Keeps.after (keeps_send ..) <| keeps_integ ..)
    (Keeps.ite (Keeps.ite (Keeps.after (keeps_dropClaim ..) <| keeps_fset ..) (Keeps.after (keeps_send ..) <|
    keeps_integ ..)) (Keeps.ite (keeps_reinitBlock ..) (Keeps.refl _)))) (Keeps.ite (keeps_mcReset ..) (Keeps.refl
    _))))
theorem keeps_restoreBlock (s : State) (blk : Nat) (data : List Byte) : Keeps s (s.restoreBlock blk data) :=
  Keeps.after (Keeps.ite (keeps_dropBlockLines ..) (Keeps.refl _)) <| Keeps.after (keeps_fset ..) <| keeps_wrMem ..
theorem keeps_unwant (s : State) (blk : Nat) : Keeps s (s.unwant blk) := keeps_integ ..
theorem keeps_execBlockRepairRx (blk : Nat) (data : List Byte) (s : State) : KeepsRes s (execBlockRepairRx blk data s)
    :=
  KeepsRes.when (Keeps.refl _) (Keeps.after (keeps_unwant ..) <| Keeps.after (Keeps.foldl _ (fun _ _ =>
    keeps_restartWin ..) _ _) <| keeps_restoreBlock ..)
theorem keeps_abandonWaiters (s : State) (blk : Nat) : Keeps s (s.abandonWaiters blk) := by
  unfold State.abandonWaiters
  refine Keeps.foldl _ (fun _ _ => ?_) _ _
  split
  · exact keeps_abandon ..
  · exact Keeps.refl _
theorem keeps_execRepairTimeout (blk : Nat) (s : State) : KeepsRes s (execRepairTimeout blk s) :=
  KeepsRes.when (Keeps.refl _) (Keeps.after (keeps_unwant ..) <| Keeps.after (keeps_abandonWaiters ..) <| Keeps.ite
    (keeps_integ ..) (Keeps.ite (keeps_reinitBlock ..) (Keeps.refl _)))
theorem keeps_execCodeBlockRewrite (blk : Nat) (s : State) : KeepsRes s (execCodeBlockRewrite blk s) :=
  KeepsRes.when (Keeps.refl _) (Keeps.after (keeps_integ ..) <| keeps_restoreBlock ..)
theorem keeps_execDirtyRequestRx (id blk : Nat) (s : State) : KeepsRes s (execDirtyRequestRx id blk s) :=
  KeepsRes.ite (KeepsRes.onceOnly (Keeps.refl _) (keeps_markDirty ..)) (KeepsRes.next (Keeps.refl _))
theorem keeps_hardFault (s : State) (a : Nat) (spare : Bool) : Keeps s (s.hardFault a spare) :=
  Keeps.after (Keeps.ite (Keeps.refl _) (Keeps.ite (keeps_fset ..) (Keeps.ite (keeps_fset ..) (Keeps.after
    (keeps_fset ..) <| keeps_integ ..)))) <| Keeps.after (keeps_raise ..) <| keeps_bump ..
theorem keeps_scrubWord (s : State) (a : Nat) (found : Ecc) (again spare : Bool) :
    Keeps s (s.scrubWord a found again spare) := by
  refine Keeps.ite (Keeps.refl s) ?_
  have hard (t : State) (c : Bool) (h : Keeps s t) : Keeps s (if c then t.hardFault a spare else t) :=
    Keeps.ite (Keeps.after (keeps_hardFault ..) h) h
  cases found with
  | clean => exact keeps_suspect ..
  | corrected =>
    have h := keeps_eccCorrected s a
    exact hard _ _ ⟨fun hs => ⟨Mem.wf_iff.mpr (Mem.wf_iff.mp hs.1), (h.1 hs).2⟩, h.2⟩
  | uncorrectable => exact hard _ _ (Keeps.after (keeps_suspect ..) <| Keeps.after (keeps_ueReact ..) (keeps_eccUe ..))
theorem keeps_execScrubAccess (line : Nat) (found : Vector Ecc 8) (again spare : Bool) (lapR lapC : Option Nat) (s : State) :
    KeepsRes s (execScrubAccess line found again spare lapR lapC s) := by
  unfold execScrubAccess
  extract_lets a isMem laps
  have hl (t : State) : Keeps t (laps t) := by
    cases lapR <;> cases lapC
    · exact Keeps.refl t
    · exact keeps_wfDone ..
    · exact keeps_wr ..
    · exact Keeps.after (keeps_wfDone ..) (keeps_wr ..)
  clear_value laps
  exact KeepsRes.when (Keeps.refl s) <| Keeps.after (hl _) <| Keeps.after (keeps_obsCount ..) <|
    Keeps.foldl _ (fun _ _ => keeps_scrubWord ..) _ _
theorem keeps_execFuseRepair (s : State) : KeepsRes s (execFuseRepair s) := by
  unfold execFuseRepair
  split
  · exact KeepsRes.next (Keeps.refl _)
  · exact KeepsRes.when (Keeps.refl _) (Keeps.after (keeps_wfDone ..) <| Keeps.after (keeps_raise ..) <|
      Keeps.after (keeps_fset ..) <| Keeps.after (keeps_fsetb ..) <| Keeps.after (keeps_fset ..) <|
      Keeps.after (keeps_fset ..) <| keeps_integ ..)
theorem keeps_memClrCnt (s : State) : Keeps s s.memClrCnt := keeps_zero ..
theorem keeps_execMemClrCnt (m : Master) (s : State) : KeepsRes s (execMemClrCnt m s) :=
  keepsRes_asWrite (fun _ => keeps_memClrCnt ..)
/-- The registers that the stores and a restart keep are the ones of before. -/
theorem keeps_wipe (s : State) (powerOn : Bool) : Keeps s (s.wipe powerOn) := by
  unfold State.wipe
  refine Keeps.trans ?_ ((keeps_wr ..).trans <| (keeps_setMod ..).trans <| (Keeps.ite (Keeps.refl _) (keeps_wr ..)).trans <|
    keeps_wr ..)
  refine ⟨fun ⟨hm, hr⟩ => ⟨hm, ?_⟩, rfl, [], (List.append_nil _).symm⟩
  exact Bool.and_eq_true_iff.mpr ⟨swf_filter _ _ _ (Bool.and_eq_true_iff.mp hr).1, rfl⟩
theorem keeps_chipHold (s : State) (cause : Nat) : Keeps s (s.chipHold cause) :=
  Keeps.after (keeps_wr ..) <| keeps_wipe ..
theorem keeps_flushStart (s : State) (powerFail : Bool) : Keeps s (s.flushStart powerFail) :=
  Keeps.ite (Keeps.refl _) (keeps_fset ..)
theorem keeps_deliver (s : State) (r : Record) : Keeps s (s.deliver r) :=
  Keeps.after (keeps_drayEvent ..) <| keeps_eqRecord ..
theorem keeps_stage (s : State) (r : Record) : Keeps s (s.stage r) :=
  Keeps.after (keeps_wr ..) <| Keeps.after (keeps_wr ..) <| keeps_recd ..
theorem keeps_areaMarks (s : State) (i : Nat) : Keeps s (s.areaMarks i) :=
  Keeps.ite (Keeps.after (keeps_fset ..) <| Keeps.after (keeps_deliver ..) <| keeps_stage ..) (Keeps.ite (Keeps.after
    (keeps_flushStart ..) <| Keeps.after (keeps_fset ..) <| Keeps.after (keeps_deliver ..) <| keeps_stage ..)
    (Keeps.refl _))
theorem keeps_keep (s : State) (r : Record) : Keeps s (s.keep r) :=
  Keeps.ite (Keeps.after (keeps_deliver ..) <| keeps_bump ..) (Keeps.ite (Keeps.after (keeps_deliver ..) <|
    Keeps.after (keeps_fset ..) <| Keeps.after (keeps_bump ..) <| keeps_recd ..) (Keeps.after (Keeps.ite
    (keeps_flushStart ..) (Keeps.refl _)) <| Keeps.after (keeps_areaMarks ..) <| Keeps.after (keeps_deliver ..) <|
    keeps_stage ..))
theorem keeps_setRate1 (s : State) (e : RateRow) : Keeps s (s.setRate1 e) := keeps_recd ..
theorem keeps_accept (s : State) (r : Record) : Keeps s (s.accept r) :=
  Keeps.ite (keeps_keep ..) (Keeps.ite (Keeps.after (keeps_bump ..) <| keeps_setRate1 ..) (Keeps.after (keeps_keep ..)
    <| keeps_setRate1 ..))
theorem keeps_execRecordAccept (s : State) : KeepsRes s (execRecordAccept s) := by
  unfold execRecordAccept
  split
  · exact KeepsRes.next (Keeps.refl _)
  · exact KeepsRes.when (Keeps.refl _) (Keeps.after (keeps_accept ..) <| keeps_recd ..)
theorem keeps_rateEnd (s : State) : Keeps s s.rateEnd :=
  Keeps.after (Keeps.foldl _ (fun _ _ => keeps_recd ..) _ _) <| keeps_recd ..
theorem keeps_execFlushEnd (lost : List Nat) (s : State) : KeepsRes s (execFlushEnd lost s) := by
  unfold execFlushEnd
  refine KeepsRes.when (Keeps.refl _) (Keeps.after (Keeps.ite (keeps_chipHold ..) (Keeps.refl _)) <| ?_)
  split
  · exact Keeps.after (keeps_tellAsker ..) <| Keeps.after (keeps_recd ..) <| Keeps.after (keeps_fset ..) <|
      Keeps.after (keeps_fset ..) <| Keeps.after (keeps_bump ..) <| Keeps.after (keeps_bumpBy ..) <|
      Keeps.after (keeps_wr ..) <| Keeps.after (keeps_wr ..) <| keeps_recd ..
  · exact Keeps.after (keeps_fset ..) <| Keeps.after (keeps_bump ..) <| Keeps.after (keeps_bumpBy ..) <|
      Keeps.after (keeps_wr ..) <| Keeps.after (keeps_wr ..) <| keeps_recd ..
theorem keeps_freeze (s : State) (a : Asker) : KeepsOpt s (s.freeze a) :=
  KeepsOpt.ite KeepsOpt.none (KeepsOpt.ite (KeepsOpt.some (keeps_recd ..)) (KeepsOpt.some (Keeps.after
    (keeps_tellAsker ..) <| Keeps.after (keeps_recd ..) <| keeps_fset ..)))
theorem keeps_overflowRecord (s : State) : Keeps s s.overflowRecord :=
  Keeps.ite (Keeps.refl _) (Keeps.after (keeps_fset ..) <| Keeps.after (keeps_recd ..) <|
    Keeps.after (keeps_deliver ..) <| keeps_stage ..)
theorem keeps_unfreeze (s : State) : KeepsOpt s s.unfreeze :=
  KeepsOpt.ite KeepsOpt.none (KeepsOpt.after (KeepsOpt.some (Keeps.ite (keeps_flushStart ..) (Keeps.refl _)))
    (Keeps.after (keeps_overflowRecord ..) <| keeps_fset ..))
theorem keeps_rearm (s : State) (a : Asker) : KeepsOpt s (s.rearm a) :=
  KeepsOpt.ite KeepsOpt.none (KeepsOpt.some (Keeps.after (keeps_recd ..) <| Keeps.after (keeps_fset ..) <|
    keeps_fset ..))
theorem keeps_orIgnored {s : State} {t : Option State} (h : KeepsOpt s t) : Keeps s (s.orIgnored t) :=
  Keeps.getD h (keeps_ignoredIn ..)
theorem keeps_recClrCnt (s : State) : Keeps s s.recClrCnt := keeps_zero ..
theorem keeps_recCtrl (s : State) (v : W32) : Keeps s (s.recCtrl v) := by
  unfold State.recCtrl
  extract_lets s1 cmd
  have h : Keeps s s1 := Keeps.ite (keeps_recClrCnt ..) (Keeps.refl s)
  clear_value s1 cmd
  refine Keeps.ite h <| Keeps.ite (Keeps.after (keeps_ignoredIn ..) h) (Keeps.trans h ?_)
  split
  · exact keeps_orIgnored (keeps_freeze ..)
  · exact keeps_orIgnored (keeps_unfreeze ..)
  · exact keeps_orIgnored (keeps_rearm ..)
  · exact keeps_ignoredIn ..
theorem keeps_execRecFreeze (m : Master) (key : BitVec 16) (s : State) : KeepsRes s (execRecFreeze m key s) :=
  keepsRes_asWrite (fun _ => keeps_recCtrl ..)
theorem keeps_execRecUnfreeze (m : Master) (key : BitVec 16) (s : State) : KeepsRes s (execRecUnfreeze m key s) :=
  keepsRes_asWrite (fun _ => keeps_recCtrl ..)
theorem keeps_execRecRearm (m : Master) (key : BitVec 16) (s : State) : KeepsRes s (execRecRearm m key s) :=
  keepsRes_asWrite (fun _ => keeps_recCtrl ..)
theorem keeps_execRecClrCnt (m : Master) (s : State) : KeepsRes s (execRecClrCnt m s) :=
  keepsRes_asWrite (fun _ => keeps_recClrCnt ..)
theorem keeps_execFreezeExpired (s : State) : KeepsRes s (execFreezeExpired s) := by
  unfold execFreezeExpired
  split
  · exact KeepsRes.next (Keeps.refl s)
  · exact KeepsRes.next <| Keeps.after (keeps_raise ..) (KeepsOpt.get (keeps_unfreeze ..) ‹_›)
theorem keeps_execRearmEraseDone (s : State) : KeepsRes s (execRearmEraseDone s) := by
  unfold execRearmEraseDone
  split
  · exact KeepsRes.next (Keeps.after (keeps_tellAsker ..) <| Keeps.after (keeps_flushStart ..) <|
      Keeps.after (keeps_overflowRecord ..) <| Keeps.after (keeps_deliver ..) <| Keeps.after (keeps_fset ..) <|
      Keeps.after (keeps_fset ..) <| Keeps.after (keeps_wr ..) <| Keeps.after (keeps_wr ..) <|
      Keeps.after (keeps_wr ..) <| Keeps.after (keeps_wr ..) <| keeps_recd ..)
  · exact KeepsRes.next (Keeps.refl _)
theorem keeps_execRearmEraseComplete (s : State) : KeepsRes s (execRearmEraseComplete s) :=
  KeepsRes.when (Keeps.refl _) (keeps_fset ..)
theorem keeps_marginCheck (s : State) : Keeps s s.marginCheck :=
  Keeps.after (Keeps.ite (keeps_send ..) (Keeps.refl _)) <| keeps_pair ..
theorem keeps_lateCheck (s : State) : Keeps s s.lateCheck :=
  Keeps.foldl _ (fun _ _ => Keeps.ite (Keeps.after (keeps_raise ..) <| keeps_fset ..) (Keeps.refl _)) _ _
theorem keeps_telemetry (s : State) : Keeps s s.telemetry :=
  Keeps.ite (Keeps.after (keeps_wfDone ..) <| keeps_drayHist ..) (Keeps.refl _)
theorem keeps_healthCycle (s : State) : Keeps s s.healthCycle :=
  Keeps.after (keeps_bump ..) <| Keeps.after (keeps_telemetry ..) <| Keeps.after (keeps_lateCheck ..) <|
    Keeps.after (keeps_marginCheck ..) <| keeps_fset ..
theorem keeps_holdSecond (s : State) : Keeps s s.holdSecond :=
  Keeps.ite (Keeps.after (keeps_bumpBy ..) <| keeps_bump ..) (Keeps.refl _)
theorem keeps_execTb3Second (s : State) : KeepsRes s (execTb3Second s) :=
  KeepsRes.when (Keeps.refl _) (Keeps.after (Keeps.ite (Keeps.after (keeps_showTrans ..) <|
    Keeps.after (keeps_showBrm ..) <| Keeps.ite (Keeps.after (keeps_healthCycle ..) <| Keeps.ite (Keeps.after
    (keeps_recd ..) <| Keeps.after (keeps_timeLine ..) <| Keeps.after (keeps_rateEnd ..) <| keeps_holdSecond ..)
    (Keeps.after (keeps_timeLine ..) <| Keeps.after (keeps_rateEnd ..) <| keeps_holdSecond ..)) (Keeps.ite
    (Keeps.after (keeps_recd ..) <| Keeps.after (keeps_timeLine ..) <| Keeps.after (keeps_rateEnd ..) <|
    keeps_holdSecond ..) (Keeps.after (keeps_timeLine ..) <| Keeps.after (keeps_rateEnd ..) <| keeps_holdSecond ..)))
    (Keeps.refl _)) <| keeps_time ..)
theorem keeps_localTime (s : State) : Keeps s s.localTime := (keeps_take s).trans (keeps_wf ..)
theorem keeps_execLocalScrubChain (be : Fin 32) (unit : Fin 512) (found : Vector Ecc 64) (again spare : Bool)
    (lap : Option Nat) (s : State) : KeepsRes s (execLocalScrubChain be unit found again spare lap s) := by
  unfold execLocalScrubChain
  refine KeepsRes.when (Keeps.refl _) (Keeps.after (keeps_obsCount ..) <| Keeps.after (keeps_localTime ..) <| ?_)
  split
  · exact Keeps.after (keeps_wfDone ..) <| Keeps.foldl _ (fun _ _ => Keeps.ite (Keeps.refl _) (keeps_scrubWord ..)) _
      _
  · exact Keeps.foldl _ (fun _ _ => Keeps.ite (Keeps.refl _) (keeps_scrubWord ..)) _ _
theorem keeps_execSweepDigest (s : State) : KeepsRes s (execSweepDigest s) := by
  unfold execSweepDigest
  split
  · exact KeepsRes.next (Keeps.refl _)
  · exact KeepsRes.when (Keeps.refl _) (Keeps.after (keeps_obsCount ..) <| keeps_pair ..)
theorem keeps_sweepSeal (s : State) (room : Nat) : Keeps s (s.sweepSeal room).1 := by
  unfold State.sweepSeal
  extract_lets want good0 good s1 _ s2
  have h2 : Keeps s s2 := Keeps.after (keeps_pair ..) (keeps_bumpBy ..)
  clear_value s2
  split
  · exact h2
  · exact Keeps.ite_fst (Keeps.after (keeps_pair ..) <| Keeps.after (keeps_wfDone ..) <| Keeps.after (keeps_wr ..) <|
      Keeps.after (keeps_pair ..) h2) (Keeps.after (keeps_pair ..) h2)
theorem keeps_execHoldupMeasurement (dv : Option (Vector Nat 4)) (s : State) : KeepsRes s (execHoldupMeasurement dv s)
    := by
  unfold execHoldupMeasurement
  split
  · exact KeepsRes.when (Keeps.refl _) (keeps_fset ..)
  · exact KeepsRes.when (Keeps.refl _) (Keeps.after (keeps_wfDone ..) <| Keeps.after (keeps_fsetb ..) <|
      Keeps.after (keeps_fset ..) <| Keeps.after (keeps_wr ..) <| Keeps.after (keeps_fset ..) <| keeps_fset ..)
theorem keeps_holdupAbort (s : State) : Keeps s s.holdupAbort :=
  Keeps.ite (Keeps.after (keeps_wfYield ..) <| keeps_fset ..) (Keeps.refl _)
theorem keeps_execHoldupAbort (s : State) : KeepsRes s (execHoldupAbort s) :=
  KeepsRes.when (Keeps.refl _) (keeps_holdupAbort ..)
theorem keeps_showWear (s : State) : Keeps s s.showWear := keeps_fset ..
theorem keeps_migrateEnd (s : State) : Keeps s s.migrateEnd := Keeps.after (keeps_wf ..) <| keeps_fset ..
theorem keeps_migrateAbort (s : State) : Keeps s s.migrateAbort :=
  Keeps.ite (Keeps.after (keeps_wfYield ..) <| keeps_migrateEnd ..) (Keeps.refl _)
theorem keeps_execFlashMigration (phase : Fin 3) (half : Fin 2) (src dst : Fin 8192) (fail : BitVec 2)
    (lap : Option Nat) (s : State) : KeepsRes s (execFlashMigration phase half src dst fail lap s) := by
  unfold execFlashMigration
  refine KeepsRes.when (Keeps.refl _) (?_)
  split
  · refine Keeps.after (keeps_wfDone ..) <| Keeps.after (keeps_fsetb ..) <| Keeps.after (keeps_fsetb ..) <| ?_
    split
    · exact Keeps.ite (Keeps.after (keeps_wf ..) <| keeps_fset ..) (Keeps.refl _)
    · split
      · exact Keeps.after (keeps_showWear ..) <| Keeps.after (keeps_wf ..) <| keeps_migrateEnd ..
      · exact Keeps.refl _
    · exact keeps_migrateAbort ..
  · refine Keeps.after (keeps_fsetb ..) <| Keeps.after (keeps_fsetb ..) <| ?_
    split
    · exact Keeps.ite (Keeps.after (keeps_wf ..) <| keeps_fset ..) (Keeps.refl _)
    · split
      · exact Keeps.after (keeps_showWear ..) <| Keeps.after (keeps_wf ..) <| keeps_migrateEnd ..
      · exact Keeps.refl _
    · exact keeps_migrateAbort ..
theorem keeps_wfClrCnt (s : State) : Keeps s s.wfClrCnt := keeps_zero ..
theorem keeps_execWfClrCnt (m : Master) (s : State) : KeepsRes s (execWfClrCnt m s) :=
  keepsRes_asWrite (fun _ => keeps_wfClrCnt ..)
theorem keeps_outputUe (s : State) (c : Cls) (w : Nat) : Keeps s (s.outputUe c w) := by
  unfold State.outputUe
  refine Keeps.trans (Keeps.mem fun h => ?_) ((keeps_markDirty ..).trans <| (keeps_bump ..).trans <| (keeps_wr64 ..).trans <|
    (keeps_wr ..).trans <| (keeps_fset ..).trans <| keeps_raise ..)
  obtain ⟨hb, hc, hq, hr, hw⟩ := Mem.wf_iff.mp (Mem.wf_write (w * 8) _ h)
  exact Mem.wf_iff.mpr ⟨hb, swf_cells _ _ _ _ hc, hq, NSet.wf_del _ hr, hw⟩
theorem keeps_commitOutputs (s : State) (c : Cls) : Keeps s (s.commitOutputs c) :=
  (Keeps.foldl _ (fun s w => keeps_outputUe s c w) _ s).trans (keeps_committed _ _ (swf_scopy _ _ _ _))
theorem keeps_commitMailbox (s : State) (c : Cls) : Keeps s (s.commitMailbox c) := keeps_rfx ..
theorem keeps_captureSyms (s : State) (c : Cls) : Keeps s (s.captureSyms c) := by
  unfold State.captureSyms
  refine Keeps.foldl _ (fun _ _ => ?_) _ _
  split
  · exact Keeps.ite (Keeps.ite (Keeps.after (keeps_modCmd ..) <| keeps_mcAccess ..) (Keeps.after (keeps_cmdDone ..) <|
      keeps_mcAccess ..)) (Keeps.refl _)
  · exact Keeps.refl _
theorem keeps_commitCls (s : State) (k : Nat) : Keeps s (s.commitCls k) :=
  Keeps.after (keeps_modCls ..) <| Keeps.after (keeps_captureSyms ..) <| Keeps.after (keeps_histCommit ..) <|
    Keeps.after (keeps_peerPublish ..) <| Keeps.after (keeps_commitMailbox ..) <|
    Keeps.after (keeps_forceOutputs ..) <| keeps_commitOutputs ..
theorem keeps_showGap (s : State) : Keeps s s.showGap := by
  unfold State.showGap
  split
  · exact Keeps.refl _
  · exact Keeps.after (keeps_pair ..) <| keeps_wr ..
theorem keeps_publish (s : State) (cs : List Cls) (cycle : W64) : Keeps s (s.publish cs cycle) :=
  Keeps.ite (Keeps.refl _) (Keeps.after (Keeps.foldl _ (fun _ _ => keeps_canPublish ..) _ _) <|
    Keeps.after (keeps_emit ..) <| Keeps.after (keeps_scan ..) <| keeps_showGap ..)
theorem keeps_sendBlock (s : State) (b : Nat) : Keeps s (s.sendBlock b) :=
  Keeps.after (Keeps.ite (Keeps.after (keeps_pair ..) <| keeps_sendOnce ..) (keeps_pair ..)) <| keeps_catAccess ..
theorem keeps_sendDirty (s : State) : Keeps s s.sendDirty :=
  Keeps.ite (Keeps.refl _) (Keeps.ite (Keeps.after (keeps_dropClaim ..) <| keeps_fset ..) (Keeps.after (Keeps.foldl _
    (fun _ _ => keeps_sendBlock ..) _ _) <| Keeps.foldl _ (fun _ _ => Keeps.ite (keeps_reinitBlock ..) (Keeps.refl _))
    _ _))
theorem keeps_copyStart (s : State) : Keeps s s.copyStart :=
  Keeps.after (keeps_sendDirty ..) <| Keeps.same rfl rfl rfl rfl rfl
theorem keeps_nameBoundary (s : State) : Keeps s s.nameBoundary := Keeps.ite (Keeps.refl _) (keeps_pair ..)
theorem keeps_makeSeal (s : State) (go : Bool) : Keeps s (s.makeSeal go).1 :=
  Keeps.after (Keeps.same rfl rfl rfl rfl rfl) <| Keeps.after (keeps_sweepSeal ..) <| keeps_nameBoundary ..
theorem keeps_shortfallCheck (s : State) : Keeps s s.shortfallCheck := keeps_fsetb ..
theorem keeps_serviceMove (s : State) : Keeps s s.serviceMove := by
  unfold State.serviceMove
  split
  · exact Keeps.ite (Keeps.after (keeps_endServiceCmds ..) <| Keeps.after (keeps_canPermit ..) <|
      Keeps.after (keeps_enter ..) <| keeps_scan ..) (Keeps.after (keeps_endServiceCmds ..) <| keeps_scan ..)
  · exact Keeps.ite (Keeps.after (keeps_endServiceCmds ..) <| Keeps.after (keeps_canPermit ..) <|
      Keeps.after (keeps_enter ..) <| keeps_scan ..) (Keeps.after (keeps_endServiceCmds ..) <| keeps_scan ..)
  · exact Keeps.refl _
theorem keeps_boundaryWork (s : State) (n : W64) : Keeps s (s.boundaryWork n) :=
  Keeps.after (keeps_obsBoundary ..) <| Keeps.after (keeps_serviceMove ..) <| Keeps.after (Keeps.ite
    (keeps_vwApply ..) (Keeps.refl _)) <| Keeps.after (keeps_shortfallCheck ..) <|
    Keeps.after (keeps_reenterHeld ..) <| Keeps.after (keeps_admitPending ..) <|
    Keeps.after (keeps_applyVerdicts ..) <| Keeps.after (keeps_planBoundary ..) <|
    Keeps.after (keeps_bankSwitch ..) <| keeps_wr64 ..
theorem keeps_handoverStep (s : State) : Keeps s s.handoverStep.1 := by
  unfold State.handoverStep
  split
  · exact Keeps.refl _
  · exact Keeps.ite_fst (Keeps.after (keeps_endSwitchCmds ..) <| keeps_handoverEnd ..) (Keeps.ite_fst
      (keeps_dropClaim ..) (keeps_pair ..))
theorem keeps_beginCycle (s : State) (n : W64) : Keeps s (s.beginCycle n) := by
  unfold State.beginCycle
  extract_lets s1 x
  have h : Keeps s x.1 := Keeps.after (keeps_handoverStep ..) (keeps_boundaryWork ..)
  clear_value x s1
  exact Keeps.ite h (Keeps.after (keeps_freezeStep ..) h)
theorem keeps_cycleDone (s : State) : Keeps s s.cycleDone :=
  Keeps.after (Keeps.ite (keeps_beginCycle ..) (Keeps.refl _)) <| Keeps.after (keeps_modCls ..) <|
    Keeps.after (keeps_scan ..) <| Keeps.after (keeps_fsetb ..) <| Keeps.after (keeps_bump ..) <| keeps_execTime ..
theorem keeps_idleMark (s : State) : Keeps s s.idleMark := Keeps.after (keeps_obs ..) <| keeps_obsCountBy ..
theorem keeps_cycleMark (s : State) : Keeps s s.cycleMark :=
  Keeps.after (Keeps.same rfl rfl rfl rfl rfl) <| Keeps.after (keeps_wr ..) <| Keeps.after (keeps_idleMark ..) <|
    keeps_nsYield ..
theorem keeps_execFBoundary (s : State) : KeepsRes s (execFBoundary s) :=
  KeepsRes.ite (KeepsRes.next (Keeps.after (keeps_wr64 ..) <| Keeps.after (keeps_cycleMark ..) <| keeps_scan ..))
    (KeepsRes.ite (KeepsRes.next (Keeps.refl _)) (KeepsRes.ite (KeepsRes.after (KeepsRes.next (Keeps.ite
    (keeps_beginCycle ..) (keeps_modCls ..))) (Keeps.after (keeps_pair ..) <| Keeps.after (keeps_cycleMark ..) <|
    keeps_scan ..)) (KeepsRes.ite (KeepsRes.after (KeepsRes.next (Keeps.ite (Keeps.after (keeps_fsetb ..) <|
    keeps_freezeStep ..) (Keeps.refl _))) (Keeps.after (keeps_boundaryWork ..) <| Keeps.after (keeps_cycleMark ..) <|
    keeps_scan ..)) (KeepsRes.when (Keeps.refl _) (Keeps.after (keeps_canStopped ..) <| Keeps.after (keeps_wr64 ..) <|
    Keeps.after (keeps_cycleMark ..) <| keeps_scan ..)))))
theorem keeps_afterPublish (s : State) : Keeps s s.afterPublish :=
  Keeps.ite (keeps_copyStart ..) (Keeps.after (keeps_cycleDone ..) <| Keeps.after (Keeps.ite (keeps_planActivate ..)
    (Keeps.refl _)) <| Keeps.ite (keeps_carryStart ..) (Keeps.refl _))
theorem keeps_execClassCommit (s : State) : KeepsRes s (execClassCommit s) :=
  KeepsRes.when (Keeps.refl _) (Keeps.after (keeps_afterPublish ..) <| Keeps.after (keeps_dmaGo ..) <|
    Keeps.after (keeps_publish ..) <| Keeps.after (keeps_setStale ..) <| Keeps.after (Keeps.foldl _ (fun _ _ =>
    keeps_commitCls ..) _ _) <| keeps_scan ..)
theorem keeps_endHolds (s : State) : Keeps s s.endHolds := keeps_brm ..
theorem keeps_execCopyEnd (s : State) : KeepsRes s (execCopyEnd s) := by
  unfold execCopyEnd
  extract_lets s1 go x t1 bytes t2 _ _ _ t3 t4 _ _ t5
  have h1 : Keeps s s1 := keeps_sendDirty ..
  have h2 : Keeps s t2 := Keeps.after (keeps_wr ..) <| Keeps.after (keeps_wr ..) <| Keeps.after (keeps_sendOnce ..) <|
    Keeps.after (keeps_makeSeal ..) h1
  have h3 : Keeps s t3 := Keeps.then_same h2 rfl rfl rfl rfl rfl
  have h4 : Keeps s t4 := Keeps.ite (Keeps.after (keeps_carryStart ..) h3) h3
  have h5 : Keeps s t5 := Keeps.ite (Keeps.then_same h1 rfl rfl rfl rfl rfl) h4
  clear_value t5
  exact KeepsRes.when (Keeps.refl s) (Keeps.ite (Keeps.after (keeps_endHolds ..) h5) (Keeps.after (keeps_endHolds ..) h1))
theorem keeps_sealCmds (s : State) (cycle : W64) (ok : Bool) : Keeps s (s.sealCmds cycle ok) := keeps_host ..
theorem keeps_execSealTimeout (s : State) : KeepsRes s (execSealTimeout s) := by
  unfold execSealTimeout
  refine KeepsRes.when (Keeps.refl _) (Keeps.after (keeps_cycleDone ..) <| Keeps.after (keeps_endHolds ..) <|
    Keeps.after (Keeps.ite (keeps_sendOnce ..) (Keeps.refl _)) <| Keeps.after (keeps_pair ..) <|
    Keeps.after (keeps_bump ..) <| ?_)
  split
  · exact keeps_sealCmds ..
  · exact Keeps.refl _
theorem keeps_execPeriodLate (k : Fin 3) (s : State) : KeepsRes s (execPeriodLate k s) :=
  KeepsRes.when (Keeps.refl _) (Keeps.after (Keeps.ite (Keeps.refl _) (keeps_event ..)) <|
    Keeps.after (keeps_modCls ..) <| keeps_bump ..)
theorem keeps_execWatchdogTrip (k : Fin 3) (s : State) : KeepsRes s (execWatchdogTrip k s) :=
  KeepsRes.when (Keeps.refl _) (Keeps.ite (Keeps.after (keeps_send ..) <| keeps_scanTrip ..) (keeps_scanTrip ..))
theorem keeps_coldInit (s : State) : Keeps s s.coldInit :=
  Keeps.foldl _ (fun _ _ => Keeps.after (keeps_markDirty ..) <| keeps_wrMem ..) _ _
theorem keeps_takePeriods (s : State) : Keeps s s.takePeriods := Keeps.ite (Keeps.refl s) (keeps_takeRegs s _)
theorem keeps_runFrom (s : State) (n : W64) (cold : Bool) : Keeps s (s.runFrom n cold) := by
  unfold State.runFrom
  extract_lets s1 _ s2 s3
  have h1 : Keeps s s1 := Keeps.after (keeps_takePeriods ..) (Keeps.ite (keeps_coldInit ..) (Keeps.refl s))
  have h3 : Keeps s s3 := Keeps.after (keeps_boundaryWork ..) <| Keeps.after (keeps_fset ..) <| Keeps.after (keeps_scan ..) h1
  clear_value s3
  exact Keeps.ite (Keeps.after (keeps_freezeStep ..) h3) h3
theorem keeps_dropEvents (s : State) : Keeps s s.dropEvents :=
  Keeps.after (keeps_wr ..) <| Keeps.after (keeps_fset ..) <| keeps_scan ..
theorem keeps_execRestartBoundary (s : State) : KeepsRes s (execRestartBoundary s) := by
  unfold execRestartBoundary
  split
  · exact KeepsRes.next (Keeps.refl _)
  · exact KeepsRes.when (Keeps.refl _) (Keeps.after (Keeps.ite (Keeps.refl _) (keeps_send ..)) <|
      Keeps.after (keeps_runFrom ..) <| Keeps.after (keeps_dropEvents ..) <| Keeps.after (keeps_canPermit ..) <|
      keeps_enter ..)
theorem keeps_scanStart (s : State) : KeepsOpt s s.scanStart :=
  KeepsOpt.ite KeepsOpt.none (KeepsOpt.ite (KeepsOpt.some (keeps_scan ..)) (KeepsOpt.ite (KeepsOpt.some (Keeps.after
    (keeps_fsetb ..) <| keeps_scan ..)) KeepsOpt.none))
theorem keeps_execScanCtrlStart (m : Master) (s : State) : KeepsRes s (execScanCtrlStart m s) :=
  keepsRes_asWrite (fun _ => Keeps.getD (keeps_scanStart ..) (keeps_ignoredIn ..))
theorem keeps_scanClrMax (s : State) : Keeps s s.scanClrMax := keeps_zero ..
theorem keeps_execScanClrMax (m : Master) (s : State) : KeepsRes s (execScanClrMax m s) :=
  keepsRes_asWrite (fun _ => keeps_scanClrMax ..)
theorem keeps_scanRestart (s : State) (cold : Bool) : KeepsOpt s (s.scanRestart cold) :=
  KeepsOpt.ite (KeepsOpt.some (keeps_scan ..)) KeepsOpt.none
theorem keeps_scanRestartKey (s : State) (v : W32) : Keeps s (s.scanRestartKey v) :=
  Keeps.ite (Keeps.getD (keeps_scanRestart ..) (keeps_ignoredIn ..)) (keeps_ignoredIn ..)
theorem keeps_execScanRestart (m : Master) (v : W32) (s : State) : KeepsRes s (execScanRestart m v s) :=
  keepsRes_asWrite (fun _ => keeps_scanRestartKey ..)
theorem keeps_execScanStartBoundary (s : State) : KeepsRes s (execScanStartBoundary s) := by
  unfold execScanStartBoundary
  extract_lets paired t1 _ _ _ t2 ms x t3
  have h1 : Keeps s t1 := Keeps.after (keeps_rfxArmBank ..) (keeps_enter ..)
  have h2 : Keeps s t2 := Keeps.then_same h1 rfl rfl rfl rfl rfl
  have h3 : Keeps s t3 := Keeps.ite (Keeps.after (keeps_fset ..) h2) (Keeps.after (keeps_fset ..) <| Keeps.after (keeps_take _) h2)
  clear_value t3
  exact KeepsRes.when (Keeps.refl s) (Keeps.after (keeps_runFrom ..) <| Keeps.after (keeps_canPermit ..) h3)
theorem keeps_execReflexFrameBoundary (s : State) : KeepsRes s (execReflexFrameBoundary s) :=
  KeepsRes.ite (KeepsRes.next (Keeps.ite (keeps_frameBoundary ..) (Keeps.after (keeps_obsSwitch ..) <|
    keeps_frameBoundary ..))) (KeepsRes.next (keeps_linkSend ..))
theorem keeps_confCat (s : State) (e : Nat × W32) : Keeps s (s.confCat e) :=
  Keeps.ite (keeps_catWriteAddr ..) (keeps_catWriteAttr ..)
theorem keeps_loadConfig (s : State) (c : FlashCfg) : Keeps s (s.loadConfig c) :=
  Keeps.after (keeps_showIsland ..) <| Keeps.after (keeps_islandLoad ..) <| Keeps.after (keeps_islandLoad ..) <|
    Keeps.after (keeps_islandLoad ..) <| Keeps.after (keeps_planSet ..) <| Keeps.after (keeps_cat ..) <| Keeps.after
    (Keeps.foldl _ (fun _ _ => keeps_confCat ..) _ _) <| keeps_conf ..
theorem keeps_takeConfig (s : State) (c : FlashCfg) : Keeps s (s.takeConfig c) :=
  Keeps.after (keeps_fsetb ..) <| Keeps.after (keeps_wr ..) <| keeps_loadConfig ..
theorem keeps_loadProgram (s : State) : Keeps s s.loadProgram := by
  refine Keeps.after (keeps_showBanks ..) <| Keeps.after (keeps_fset ..) <| Keeps.mem (Mem.wf_foldl _ (fun m e h => ?_) _)
  split
  · exact Mem.wf_setByte _ _ h
  · exact h
theorem keeps_execConfigCheckDone (s : State) : KeepsRes s (execConfigCheckDone s) :=
  KeepsRes.when (Keeps.refl _) (Keeps.after (keeps_ptpUpdate ..) <| Keeps.after (keeps_scan ..) <|
    Keeps.after (keeps_canStart ..) <| Keeps.after (keeps_wr ..) <| Keeps.after (keeps_fset ..) <|
    keeps_takeConfig ..)
theorem keeps_showSupply (s : State) (mv : Nat) : Keeps s (s.showSupply mv) :=
  Keeps.after (keeps_fsetb ..) <| Keeps.after (keeps_wr ..) <| keeps_power ..
theorem keeps_showBank (s : State) (mv : Nat) : Keeps s (s.showBank mv) :=
  Keeps.after (keeps_fsetb ..) <| Keeps.after (keeps_wr ..) <| keeps_power ..
theorem keeps_execSupplyRise (mv : BitVec 16) (slot : Slot) (s : State) : KeepsRes s (execSupplyRise mv slot s) :=
  KeepsRes.when (Keeps.refl _) (Keeps.after (keeps_fsetb ..) <| Keeps.after (keeps_setMod ..) <| Keeps.same rfl rfl
    rfl rfl rfl)
theorem keeps_execCoreRailsGood (mv : BitVec 16) (s : State) : KeepsRes s (execCoreRailsGood mv s) :=
  KeepsRes.when (Keeps.refl s) <| (keeps_wipe s true).trans <| (Keeps.mem (Mem.wf_powerOn (s.time.pcc % 127))).trans <|
    (keeps_power ..).trans <| (keeps_wr ..).trans <| keeps_showSupply ..
theorem keeps_bootEntry (s : State) (e page pages rights mask : Nat) : Keeps s (s.bootEntry e page pages rights mask)
    :=
  Keeps.after (keeps_cat ..) <| Keeps.after (keeps_wr ..) <| keeps_wr ..
theorem keeps_bootTable (s : State) : Keeps s s.bootTable :=
  Keeps.after (keeps_showCat ..) <| Keeps.after (keeps_cat ..) <| Keeps.after (Keeps.foldl _ (fun _ _ =>
    keeps_bootEntry ..) _ _) <| Keeps.after (keeps_bootEntry ..) <| Keeps.after (keeps_bootEntry ..) <|
    keeps_bootEntry ..
theorem keeps_bootRoles (s : State) : Keeps s s.bootRoles :=
  Keeps.after (keeps_showRfx ..) <| Keeps.after (Keeps.foldl _ (fun _ _ => keeps_fset ..) _ _) <| Keeps.foldl _ (fun _
    _ => keeps_setSlot ..) _ _
theorem keeps_bootLoad (s : State) : Keeps s s.bootLoad :=
  Keeps.after (keeps_showWear ..) <| Keeps.after (keeps_bootRoles ..) <| Keeps.after (keeps_showBrm ..) <|
    Keeps.after (keeps_fsetb ..) <| Keeps.after (keeps_fsetb ..) <| Keeps.after (keeps_fsetb ..) <|
    Keeps.after (keeps_wr ..) <| Keeps.after (keeps_wr ..) <| keeps_setBoth ..
theorem keeps_bootRetire (s : State) (lead check : BitVec 32) : Keeps s (s.bootRetire lead check) :=
  Keeps.foldl _ (fun _ _ => Keeps.ite (Keeps.refl _) (Keeps.ite (keeps_retire ..) (Keeps.ite (keeps_retire ..)
    (Keeps.refl _)))) _ _
theorem keeps_bootSequence (s : State) (f : BootFind) : Keeps s (s.bootSequence f) := by
  unfold State.bootSequence
  extract_lets _ s1 _ s2 s3 s4
  have h1 : Keeps s s1 := Keeps.withMem (keeps_bootTable s) Mem.wf_clearSram
  have h2 : Keeps s s2 := by
    dsimp only [s2]
    split
    · exact Keeps.after (keeps_olc ..) h1
    · exact h1
  clear_value s2
  exact Keeps.after (keeps_showIsland ..) <| Keeps.after (keeps_setMod ..) <| Keeps.after (keeps_bootRetire ..) <|
    Keeps.after (keeps_loadProgram ..) <| Keeps.after (keeps_bootLoad ..) h2
theorem keeps_restarted (s : State) : Keeps s s.restarted :=
  Keeps.after (keeps_power ..) <| Keeps.after (keeps_parentLost ..) <| keeps_bump ..
theorem keeps_execChipResetRelease (f : BootFind) (s : State) : KeepsRes s (execChipResetRelease f s) :=
  KeepsRes.when (Keeps.refl _) (Keeps.after (Keeps.ite (keeps_emit ..) (Keeps.after (keeps_bootSequence ..) <|
    keeps_wr ..)) <| Keeps.after (keeps_fsetb ..) <| Keeps.after (keeps_fsetb ..) <|
    Keeps.after (keeps_showBank ..) <| Keeps.after (keeps_showSupply ..) <| Keeps.after (keeps_fset ..) <|
    Keeps.after (keeps_fset ..) <| Keeps.after (keeps_setMod ..) <| Keeps.after (keeps_mainPath ..) <|
    Keeps.after (keeps_power ..) <| Keeps.ite (Keeps.refl _) (keeps_restarted ..))
theorem keeps_execHoldupReady (mv : BitVec 16) (s : State) : KeepsRes s (execHoldupReady mv s) :=
  KeepsRes.when (Keeps.refl _) (keeps_showBank ..)
theorem keeps_execDoorbellRelease (s : State) : KeepsRes s (execDoorbellRelease s) :=
  KeepsRes.when (Keeps.refl _) (keeps_power ..)
theorem keeps_execCanFirstSecondRelease (s : State) : KeepsRes s (execCanFirstSecondRelease s) :=
  KeepsRes.when (Keeps.refl _) (Keeps.after (keeps_canPermit ..) <| keeps_power ..)
theorem keeps_execFirstSecondEnd (s : State) : KeepsRes s (execFirstSecondEnd s) :=
  KeepsRes.when (Keeps.refl _) (Keeps.after (keeps_power ..) <| keeps_fset ..)
theorem keeps_execPowerFailWarning (mv : BitVec 16) (s : State) : KeepsRes s (execPowerFailWarning mv s) :=
  KeepsRes.when (Keeps.refl _) (Keeps.after (Keeps.ite (keeps_setReady ..) (Keeps.refl _)) <| Keeps.after (Keeps.ite
    (keeps_startHandover ..) (Keeps.refl _)) <| Keeps.after (keeps_flushStart ..) <| Keeps.after (Keeps.ite
    (Keeps.refl _) (keeps_fset ..)) <| Keeps.after (keeps_holdupAbort ..) <| Keeps.after (keeps_migrateAbort ..) <|
    Keeps.after (keeps_bump ..) <| Keeps.after (keeps_fset ..) <| Keeps.after (keeps_fset ..) <| keeps_showSupply ..)
theorem keeps_execShutdownPoint (bank : BitVec 16) (s : State) : KeepsRes s (execShutdownPoint bank s) :=
  KeepsRes.when (Keeps.refl _) (Keeps.after (keeps_power ..) <| keeps_chipHold ..)
theorem keeps_execHoldupExhausted (partnerPowered : Bool) (s : State) : KeepsRes s (execHoldupExhausted partnerPowered
    s) :=
  KeepsRes.when (Keeps.refl _) (Keeps.after (keeps_setMod ..) <| Keeps.after (keeps_power ..) <|
    Keeps.after (keeps_wipe ..) <| Keeps.after (Keeps.ite (Keeps.refl _) (keeps_bogie ..)) <| Keeps.ite
    (keeps_latchAway ..) (keeps_tokenDrop ..))
theorem keeps_execSupplyReturnRestart (mv : BitVec 16) (s : State) : KeepsRes s (execSupplyReturnRestart mv s) :=
  KeepsRes.when (Keeps.refl _) (Keeps.after (keeps_power ..) <| keeps_showSupply ..)
theorem keeps_execOcxoFailure (s : State) : KeepsRes s (execOcxoFailure s) :=
  KeepsRes.when (Keeps.refl _) (Keeps.after (Keeps.same rfl rfl rfl rfl rfl) <| keeps_chipHold ..)
theorem keeps_execOcxoRecovery (outage : Nat) (s : State) : KeepsRes s (execOcxoRecovery outage s) := by
  unfold execOcxoRecovery
  extract_lets old t1 _ _ t2 t3 t4 t5
  have h1 : Keeps s t1 := keeps_setTb0 ..
  clear_value t1 old
  have h2 : Keeps s t2 := Keeps.then_same h1 rfl rfl rfl rfl rfl
  have h3 : Keeps s t3 := Keeps.ite (Keeps.after (keeps_wr ..) <| Keeps.after (keeps_setRate ..) <|
    Keeps.after (keeps_fset ..) h2) h2
  clear_value t3
  exact KeepsRes.when (Keeps.refl s) <| Keeps.after (keeps_raise ..) <| Keeps.after (keeps_bump ..) <|
    Keeps.after (keeps_bumpBy ..) h3
theorem keeps_pwrApply (s : State) : Keeps s s.pwrApply :=
  Keeps.ite (keeps_ignoredIn ..) (Keeps.after (keeps_power ..) <| keeps_fset ..)
theorem keeps_execPwrApply (m : Master) (s : State) : KeepsRes s (execPwrApply m s) :=
  keepsRes_asWrite (fun _ => keeps_pwrApply ..)
theorem keeps_execPwrCfgStored (s : State) : KeepsRes s (execPwrCfgStored s) :=
  KeepsRes.when (Keeps.refl _) (Keeps.after (keeps_power ..) <| keeps_fset ..)
theorem keeps_pwrClrCnt (s : State) : Keeps s s.pwrClrCnt := Keeps.after (keeps_wr ..) <| keeps_zero ..
theorem keeps_execPwrClrCnt (m : Master) (s : State) : KeepsRes s (execPwrClrCnt m s) :=
  keepsRes_asWrite (fun _ => keeps_pwrClrCnt ..)
theorem keeps_sysClrCnt (s : State) : Keeps s s.sysClrCnt := keeps_zero ..
theorem keeps_execSysClrCnt (m : Master) (s : State) : KeepsRes s (execSysClrCnt m s) :=
  keepsRes_asWrite (fun _ => keeps_sysClrCnt ..)
theorem keeps_sysRestart (s : State) (v : W32) : Keeps s (s.sysRestart v) :=
  Keeps.ite (keeps_ignoredIn ..) (Keeps.after (Keeps.ite (Keeps.refl _) (keeps_chipHold ..)) <|
    Keeps.after (keeps_flushStart ..) <| Keeps.after (keeps_power ..) <| Keeps.after (keeps_setReady ..) <|
    keeps_fset ..)
theorem keeps_execSysRestart (m : Master) (v : W32) (s : State) : KeepsRes s (execSysRestart m v s) :=
  keepsRes_asWrite (fun _ => keeps_sysRestart ..)
theorem keeps_execChipTemperatureWarning (temp : BitVec 16) (s : State) : KeepsRes s (execChipTemperatureWarning temp
    s) :=
  KeepsRes.when (Keeps.refl _) (Keeps.after (Keeps.ite (Keeps.after (keeps_raise ..) <| keeps_power ..) (Keeps.refl
    _)) <| keeps_fset ..)
theorem keeps_takeDesc (s : State) (n : Nat) (d : Desc) : Keeps s (s.takeDesc n d) :=
  Keeps.after (Keeps.ite (keeps_cmdDone ..) (Keeps.after (keeps_completeAll ..) <| keeps_dmaGo ..)) <| Keeps.after
    (Keeps.ite (keeps_host ..) (Keeps.refl _)) <| Keeps.after (keeps_wr ..) <| keeps_host ..
theorem keeps_execDescriptorTake (p : Fin 2) (desc : Desc) (s : State) : KeepsRes s (execDescriptorTake p desc s) := by
  unfold execDescriptorTake
  refine KeepsRes.ite ?_ ?_
  · dsimp only
    split
    · exact KeepsRes.next (Keeps.refl s)
    · exact KeepsRes.when (Keeps.refl s) <| Keeps.ite (Keeps.after (keeps_ringError ..) (keeps_host ..)) <|
        Keeps.ite (Keeps.after (keeps_ringError ..) (keeps_host ..)) (keeps_host ..)
  · split
    · exact KeepsRes.next (Keeps.refl s)
    · exact KeepsRes.when (Keeps.refl s) <| Keeps.ite (keeps_host ..) <| Keeps.ite (keeps_ringError ..) <|
        Keeps.ite (keeps_ringError ..) (keeps_takeDesc ..)
theorem keeps_doorbell (s : State) (m : Master) (n : Nat) (v : W32) : Keeps s (s.doorbell m n v) :=
  Keeps.ite (keeps_ignoredIn ..) (Keeps.ite (keeps_ringError ..) (Keeps.ite (keeps_ignoredIn ..) (Keeps.after
    (keeps_host ..) <| keeps_wr ..)))
theorem keeps_execHostDoorbell (m : Master) (n : Fin 16) (v : W32) (s : State) : KeepsRes s (execHostDoorbell m n v s)
    :=
  keepsRes_asWrite (fun _ => keeps_doorbell ..)
theorem keeps_setCqHead (s : State) (p : Nat) (v : W32) : Keeps s (s.setCqHead p v) :=
  Keeps.after (keeps_completeAll ..) <| keeps_wr ..
theorem keeps_setEqHead (s : State) (p : Nat) (v : W32) : Keeps s (s.setEqHead p v) :=
  Keeps.after (keeps_eqServe ..) <| keeps_wr ..
theorem keeps_execHostCqHead (m : Master) (p : Fin 2) (v : W32) (s : State) : KeepsRes s (execHostCqHead m p v s) :=
  keepsRes_asWrite (fun _ => keeps_setCqHead ..)
theorem keeps_execHostEqHead (m : Master) (p : Fin 2) (v : W32) (s : State) : KeepsRes s (execHostEqHead m p v s) :=
  keepsRes_asWrite (fun _ => keeps_setEqHead ..)
theorem keeps_setRingEn (s : State) (v : W32) : Keeps s (s.setRingEn v) :=
  Keeps.after (Keeps.foldl _ (fun _ _ => Keeps.ite (Keeps.after (keeps_fset ..) <| Keeps.after (keeps_fset ..) <|
    Keeps.after (keeps_host ..) <| keeps_zero ..) (Keeps.refl _)) _ _) <| Keeps.after (Keeps.foldl _ (fun _ _ =>
    Keeps.ite (keeps_host ..) (Keeps.refl _)) _ _) <| keeps_wr ..
theorem keeps_execHostRingEn (m : Master) (v : W32) (s : State) : KeepsRes s (execHostRingEn m v s) :=
  keepsRes_asWrite (fun _ => keeps_setRingEn ..)
theorem keeps_engineGo (s : State) (p : Nat) : Keeps s (s.engineGo p) :=
  Keeps.after (keeps_completeAll ..) <| keeps_eqServe ..
theorem keeps_hostResume (s : State) (mask : BitVec 2) : Keeps s (s.hostResume mask) :=
  Keeps.foldl _ (fun _ _ => Keeps.ite (Keeps.after (keeps_engineGo ..) <| Keeps.after (keeps_fset ..) <|
    keeps_fset ..) (Keeps.refl _)) _ _
theorem keeps_hostClrCnt (s : State) : Keeps s s.hostClrCnt :=
  Keeps.after (Keeps.foldl _ (fun _ _ => keeps_fset ..) _ _) <| keeps_zero ..
theorem keeps_execHostResume (m : Master) (mask : BitVec 2) (s : State) : KeepsRes s (execHostResume m mask s) :=
  keepsRes_asWrite (fun _ => keeps_hostResume ..)
theorem keeps_execHostClrCnt (m : Master) (s : State) : KeepsRes s (execHostClrCnt m s) :=
  keepsRes_asWrite (fun _ => keeps_hostClrCnt ..)
theorem keeps_execRingEngineHalt (p : Fin 2) (addr : W64) (write : Bool) (s : State) : KeepsRes s (execRingEngineHalt
    p addr write s) :=
  KeepsRes.when (Keeps.refl _) (Keeps.after (keeps_emit ..) <| Keeps.after (keeps_raise ..) <|
    Keeps.after (keeps_fset ..) <| Keeps.after (keeps_wr64 ..) <| Keeps.after (keeps_fsetb ..) <| keeps_fset ..)
theorem keeps_execHostLinkLoss (p : Fin 2) (refLost : Bool) (s : State) : KeepsRes s (execHostLinkLoss p refLost s) :=
  KeepsRes.when (Keeps.refl _) (Keeps.after (Keeps.foldl _ (fun _ _ => keeps_dmaHalt ..) _ _) <| Keeps.after
    (Keeps.ite (keeps_fset ..) (Keeps.refl _)) <| Keeps.after (keeps_fset ..) <| Keeps.after (keeps_fset ..) <|
    keeps_fset ..)
theorem keeps_execHostLinkUp (p : Fin 2) (speed width : BitVec 2) (s : State) : KeepsRes s (execHostLinkUp p speed
    width s) :=
  KeepsRes.when (Keeps.refl _) (Keeps.after (keeps_engineGo ..) <| Keeps.after (keeps_fset ..) <|
    Keeps.after (keeps_fset ..) <| Keeps.after (keeps_fset ..) <| keeps_fset ..)
theorem keeps_execCompletionBarrierDone (n : Fin 16) (s : State) : KeepsRes s (execCompletionBarrierDone n s) := by
  unfold execCompletionBarrierDone
  split
  · exact KeepsRes.when (Keeps.refl _) (Keeps.after (keeps_completeAll ..) <| keeps_modCmd ..)
  · exact KeepsRes.next (Keeps.refl _)
theorem keeps_ringResume (s : State) (ahead : Vector Nat 2) : Keeps s (s.ringResume ahead) := by
  unfold State.ringResume
  extract_lets h pend _ s1 s2
  have h1 : Keeps s s1 := Keeps.same rfl rfl rfl rfl rfl
  have h2 : Keeps s1 s2 := Keeps.foldl _ (fun _ _ => Keeps.ite (Keeps.refl _) <|
    Keeps.ite (Keeps.after (keeps_fset ..) (keeps_fset ..)) <|
    Keeps.after (keeps_host ..) <| Keeps.after (keeps_wr ..) (keeps_wr ..)) _ _
  have h12 := Keeps.after h2 h1
  clear_value s2
  exact Keeps.after (keeps_completeAll ..) <|
    Keeps.after (Keeps.foldl _ (fun _ _ => Keeps.ite (keeps_emit ..) (Keeps.refl _)) _ _) h12
theorem keeps_dmaRegs (n off : Nat) (s : State) : Keeps s (s.dmaRegs n off).1 := by
  induction n generalizing off s with
  | zero => exact Keeps.refl s
  | succ n ih => exact (keeps_readReg ..).trans (ih ..)
theorem keeps_dmaRead (s : State) (ch a n : Nat) : Keeps s (s.dmaRead ch a n).1 := by
  unfold State.dmaRead
  refine Keeps.ite_fst (keeps_catAccess ..) ?_
  split
  · exact Keeps.ite_fst (keeps_badAccess ..) (Keeps.ite_fst (keeps_cartError ..) (keeps_dmaRegs ..))
  · exact Keeps.ite_fst (Keeps.refl _) (keeps_cartError ..)
  · exact Keeps.ite_fst (keeps_eccUe ..) (Keeps.refl _)
theorem keeps_dmaWrite (s : State) (c : Cmd) (off : Nat) (b : List Byte) : Keeps s (s.dmaWrite c off b) :=
  Keeps.ite (Keeps.foldl _ (fun _ _ => keeps_emit ..) _ _) (keeps_emit ..)
theorem keeps_dmaCount (s : State) (ch n : Nat) : Keeps s (s.dmaCount ch n) :=
  Keeps.after (keeps_dma ..) <| keeps_wr64 ..
theorem keeps_dmaMove (ch : Nat) (c : Cmd) (stop n : Nat) (s : State) : Keeps s (s.dmaMove ch c stop n).1 := by
  induction n generalizing s with
  | zero => exact Keeps.refl s
  | succ n ih =>
    unfold State.dmaMove
    refine Keeps.ite_fst (Keeps.refl s) <| Keeps.ite_fst (Keeps.refl s) ?_
    have hr : ∀ r : State × Moved, Keeps s r.1 → ∀ off k, Keeps s (match r.2 with
        | .data b => State.dmaMove ch c stop n ((r.1.dmaWrite c off b).dmaCount ch k)
        | e => (r.1, some e)).1 := by
      rintro ⟨t, x⟩ h off k
      cases x with
      | data b => exact h.trans <| (keeps_dmaWrite ..).trans <| (keeps_dmaCount ..).trans (ih _)
      | _ => exact h
    refine hr _ ?_ _ _
    cases c.data with
    | none => exact keeps_dmaRead ..
    | some d => exact Keeps.refl s
theorem keeps_dmaFinish (s : State) (ch : Nat) (c : Cmd) (status result : Nat) : Keeps s (s.dmaFinish ch c status
    result) :=
  Keeps.after (keeps_dmaGo ..) <| Keeps.after (keeps_cmdDone ..) <| Keeps.after (keeps_dmaFree ..) <| Keeps.ite
    (keeps_modCmd ..) (Keeps.refl _)
theorem keeps_dmaOut (s : State) (ch : Nat) (c : Cmd) (stop : Nat) : Keeps s (s.dmaOut ch c stop) := by
  unfold State.dmaOut
  have h := keeps_dmaMove ch c stop (stop + 1) s
  generalize State.dmaMove ch c stop (stop + 1) s = r at h ⊢
  dsimp only
  split
  · exact Keeps.after (keeps_dmaHalt ..) h
  · exact Keeps.after (keeps_dmaFinish ..) h
  · exact h
theorem keeps_execDmaTransferDone (ch : Fin 16) (data : List Byte) (s : State) :
    KeepsRes s (execDmaTransferDone ch data s) := by
  unfold execDmaTransferDone
  dsimp only
  split
  · exact KeepsRes.next (Keeps.refl s)
  next c _ =>
  refine KeepsRes.ite (KeepsRes.when (Keeps.refl s) ?_) ?_
  · exact Keeps.after (keeps_dmaGo ..) <| Keeps.after (keeps_dmaFree ..) <| Keeps.after (keeps_dmaCount ..) (keeps_modCmd ..)
  · have h := keeps_dmaOut s ch.val c c.length
    exact KeepsRes.ite (KeepsRes.next (Keeps.after (keeps_dmaFinish ..) h)) (KeepsRes.next h)
theorem keeps_execDmaHalt (ch : Fin 16) (cause : BitVec 3) (moved : Nat) (addr : W64) (s : State) :
    KeepsRes s (execDmaHalt ch cause moved addr s) := by
  unfold execDmaHalt
  dsimp only
  split
  · exact KeepsRes.next (Keeps.refl s)
  next c _ =>
    have h : Keeps s (if c.phase = .movingIn then s.dmaCount ch.val (moved - vget s.dma.moved ch.val)
        else s.dmaOut ch.val c moved) := Keeps.ite (keeps_dmaCount ..) (keeps_dmaOut ..)
    exact KeepsRes.when (Keeps.refl s) (Keeps.ite (Keeps.after (keeps_dmaHalt ..) h) h)
theorem keeps_dmaResume (s : State) (ch : Nat) (v : W32) : Keeps s (s.dmaResume ch v) := by
  unfold State.dmaResume
  refine Keeps.ite (keeps_ignoredIn ..) (Keeps.after (Keeps.ite (Keeps.refl _) ?_) <| Keeps.after (keeps_fset ..) <|
    keeps_fset ..)
  split
  · exact keeps_dmaFinish ..
  · exact Keeps.after (keeps_dmaGo ..) <| keeps_dmaFree ..
theorem keeps_execDmaRetry (m : Master) (ch : Fin 16) (key : BitVec 16) (s : State) : KeepsRes s (execDmaRetry m ch
    key s) :=
  keepsRes_asWrite (fun _ => keeps_dmaResume ..)
theorem keeps_execDmaAbort (m : Master) (ch : Fin 16) (key : BitVec 16) (s : State) : KeepsRes s (execDmaAbort m ch
    key s) :=
  keepsRes_asWrite (fun _ => keeps_dmaResume ..)
theorem keeps_dmaClrCnt (s : State) : Keeps s s.dmaClrCnt := keeps_zero ..
theorem keeps_execDmaClrCnt (m : Master) (s : State) : KeepsRes s (execDmaClrCnt m s) :=
  keepsRes_asWrite (fun _ => keeps_dmaClrCnt ..)
theorem keeps_branchOp (s : State) (be : Fin 32) (i : Instr) (cond : Core → Bool) (off : Int) : KeepsRes s (s.branchOp
    be i cond off) :=
  KeepsRes.next (keeps_instr (fun _ _ => Keeps.refl _) ..)
theorem keeps_jumpOp (s : State) (be : Fin 32) (i : Instr) (link : Bool) (target : Core → Int) : KeepsRes s (s.jumpOp
    be i link target) :=
  KeepsRes.next (keeps_instr (fun _ _ => Keeps.refl _) ..)

end Sys2Proof.Machine
end

section
/-! What whole operations keep: the drupelet instructions and the primacy latch. -/

namespace Sys2Proof.Machine

theorem keeps_execIbset (be a : Fin 32) (imm : BitVec 16) (s : State) : KeepsRes s (execIbset be a imm s) :=
  KeepsRes.next (keeps_instr (fun _ _ => Keeps.refl _) ..)
theorem keeps_execCbset (be a : Fin 32) (imm : BitVec 16) (s : State) : KeepsRes s (execCbset be a imm s) :=
  KeepsRes.next (keeps_instr (fun _ _ => Keeps.refl _) ..)
theorem keeps_execMfs (be d a : Fin 32) (sel : Fin 12) (s : State) : KeepsRes s (execMfs be d a sel s) :=
  KeepsRes.next (keeps_instr (fun _ _ => Keeps.refl _) ..)
theorem keeps_execMts (be d a : Fin 32) (sel : Fin 16) (s : State) : KeepsRes s (execMts be d a sel s) :=
  keeps_regOp ..
theorem keeps_execNop (be : Fin 32) (s : State) : KeepsRes s (execNop be s) := keeps_regOp ..
theorem keeps_execWend (be : Fin 32) (s : State) : KeepsRes s (execWend be s) :=
  KeepsRes.next (keeps_instr (fun _ _ => Keeps.refl _) ..)
theorem keeps_execChend (be : Fin 32) (s : State) : KeepsRes s (execChend be s) :=
  KeepsRes.next (keeps_instr (fun _ _ => Keeps.refl _) ..)
theorem keeps_execTrap (be : Fin 32) (imm : BitVec 16) (s : State) : KeepsRes s (execTrap be imm s) :=
  KeepsRes.next (keeps_instr (fun _ _ => Keeps.refl _) ..)
theorem keeps_execJr (be a : Fin 32) (s : State) : KeepsRes s (execJr be a s) := keeps_jumpOp ..
theorem keeps_execCallr (be a : Fin 32) (s : State) : KeepsRes s (execCallr be a s) := keeps_jumpOp ..
theorem keeps_execRet (be a : Fin 32) (s : State) : KeepsRes s (execRet be a s) := keeps_jumpOp ..
theorem keeps_execBbs (be a : Fin 32) (bit : Fin 64) (off : BitVec 15) (s : State) : KeepsRes s (execBbs be a bit off
    s) :=
  keeps_branchOp ..
theorem keeps_execBbc (be a : Fin 32) (bit : Fin 64) (off : BitVec 15) (s : State) : KeepsRes s (execBbc be a bit off
    s) :=
  keeps_branchOp ..
theorem keeps_execBeq (be a b : Fin 32) (off : BitVec 16) (s : State) : KeepsRes s (execBeq be a b off s) :=
  keeps_branchOp ..
theorem keeps_execBne (be a b : Fin 32) (off : BitVec 16) (s : State) : KeepsRes s (execBne be a b off s) :=
  keeps_branchOp ..
theorem keeps_execBlt (be a b : Fin 32) (off : BitVec 16) (s : State) : KeepsRes s (execBlt be a b off s) :=
  keeps_branchOp ..
theorem keeps_execBge (be a b : Fin 32) (off : BitVec 16) (s : State) : KeepsRes s (execBge be a b off s) :=
  keeps_branchOp ..
theorem keeps_execBltu (be a b : Fin 32) (off : BitVec 16) (s : State) : KeepsRes s (execBltu be a b off s) :=
  keeps_branchOp ..
theorem keeps_execBgeu (be a b : Fin 32) (off : BitVec 16) (s : State) : KeepsRes s (execBgeu be a b off s) :=
  keeps_branchOp ..
theorem keeps_execJ (be : Fin 32) (off : BitVec 26) (s : State) : KeepsRes s (execJ be off s) := keeps_jumpOp ..
theorem keeps_execCall (be : Fin 32) (off : BitVec 26) (s : State) : KeepsRes s (execCall be off s) := keeps_jumpOp ..
theorem keeps_intOp (s : State) (be d a b : Fin 32) (i : Instr) (f : W64 → W64 → W64) : KeepsRes s (s.intOp be d a b i
    f) :=
  keeps_regOp ..
theorem keeps_intOpF (s : State) (be d a b : Fin 32) (i : Instr) (f : W64 → W64 → W64 × Nat) : KeepsRes s (s.intOpF be
    d a b i f) :=
  keeps_regOp ..
theorem keeps_immOp (s : State) (be d a : Fin 32) (i : Instr) (f : W64 → W64) : KeepsRes s (s.immOp be d a i f) :=
  keeps_regOp ..
theorem keeps_execAdd (be d a b : Fin 32) (s : State) : KeepsRes s (execAdd be d a b s) := keeps_intOp ..
theorem keeps_execSub (be d a b : Fin 32) (s : State) : KeepsRes s (execSub be d a b s) := keeps_intOp ..
theorem keeps_execAnd (be d a b : Fin 32) (s : State) : KeepsRes s (execAnd be d a b s) := keeps_intOp ..
theorem keeps_execOr (be d a b : Fin 32) (s : State) : KeepsRes s (execOr be d a b s) := keeps_intOp ..
theorem keeps_execXor (be d a b : Fin 32) (s : State) : KeepsRes s (execXor be d a b s) := keeps_intOp ..
theorem keeps_execShl (be d a b : Fin 32) (s : State) : KeepsRes s (execShl be d a b s) := keeps_intOp ..
theorem keeps_execShr (be d a b : Fin 32) (s : State) : KeepsRes s (execShr be d a b s) := keeps_intOp ..
theorem keeps_execSar (be d a b : Fin 32) (s : State) : KeepsRes s (execSar be d a b s) := keeps_intOp ..
theorem keeps_execRor (be d a b : Fin 32) (s : State) : KeepsRes s (execRor be d a b s) := keeps_intOp ..
theorem keeps_execSlt (be d a b : Fin 32) (s : State) : KeepsRes s (execSlt be d a b s) := keeps_intOp ..
theorem keeps_execSltu (be d a b : Fin 32) (s : State) : KeepsRes s (execSltu be d a b s) := keeps_intOp ..
theorem keeps_execSeq (be d a b : Fin 32) (s : State) : KeepsRes s (execSeq be d a b s) := keeps_intOp ..
theorem keeps_execMin (be d a b : Fin 32) (s : State) : KeepsRes s (execMin be d a b s) := keeps_intOp ..
theorem keeps_execMax (be d a b : Fin 32) (s : State) : KeepsRes s (execMax be d a b s) := keeps_intOp ..
theorem keeps_execMinu (be d a b : Fin 32) (s : State) : KeepsRes s (execMinu be d a b s) := keeps_intOp ..
theorem keeps_execMaxu (be d a b : Fin 32) (s : State) : KeepsRes s (execMaxu be d a b s) := keeps_intOp ..
theorem keeps_execMul (be d a b : Fin 32) (s : State) : KeepsRes s (execMul be d a b s) := keeps_intOp ..
theorem keeps_execMulh (be d a b : Fin 32) (s : State) : KeepsRes s (execMulh be d a b s) := keeps_intOp ..
theorem keeps_execMulhu (be d a b : Fin 32) (s : State) : KeepsRes s (execMulhu be d a b s) := keeps_intOp ..
theorem keeps_execDiv (be d a b : Fin 32) (s : State) : KeepsRes s (execDiv be d a b s) := keeps_intOpF ..
theorem keeps_execDivu (be d a b : Fin 32) (s : State) : KeepsRes s (execDivu be d a b s) := keeps_intOpF ..
theorem keeps_execRem (be d a b : Fin 32) (s : State) : KeepsRes s (execRem be d a b s) := keeps_intOpF ..
theorem keeps_execRemu (be d a b : Fin 32) (s : State) : KeepsRes s (execRemu be d a b s) := keeps_intOpF ..
theorem keeps_execAddw (be d a b : Fin 32) (s : State) : KeepsRes s (execAddw be d a b s) := keeps_intOp ..
theorem keeps_execSubw (be d a b : Fin 32) (s : State) : KeepsRes s (execSubw be d a b s) := keeps_intOp ..
theorem keeps_execMulw (be d a b : Fin 32) (s : State) : KeepsRes s (execMulw be d a b s) := keeps_intOp ..
theorem keeps_execAddsat (be d a b : Fin 32) (s : State) : KeepsRes s (execAddsat be d a b s) := keeps_intOpF ..
theorem keeps_execSubsat (be d a b : Fin 32) (s : State) : KeepsRes s (execSubsat be d a b s) := keeps_intOpF ..
theorem keeps_execClz (be d a : Fin 32) (s : State) : KeepsRes s (execClz be d a s) := keeps_immOp ..
theorem keeps_execPopc (be d a : Fin 32) (s : State) : KeepsRes s (execPopc be d a s) := keeps_immOp ..
theorem keeps_execSel (be d a b : Fin 32) (s : State) : KeepsRes s (execSel be d a b s) := keeps_regOp ..
theorem keeps_execAddi (be d a : Fin 32) (imm : BitVec 16) (s : State) : KeepsRes s (execAddi be d a imm s) :=
  keeps_immOp ..
theorem keeps_execAndi (be d a : Fin 32) (imm : BitVec 16) (s : State) : KeepsRes s (execAndi be d a imm s) :=
  keeps_immOp ..
theorem keeps_execOri (be d a : Fin 32) (imm : BitVec 16) (s : State) : KeepsRes s (execOri be d a imm s) :=
  keeps_immOp ..
theorem keeps_execXori (be d a : Fin 32) (imm : BitVec 16) (s : State) : KeepsRes s (execXori be d a imm s) :=
  keeps_immOp ..
theorem keeps_execSlti (be d a : Fin 32) (imm : BitVec 16) (s : State) : KeepsRes s (execSlti be d a imm s) :=
  keeps_immOp ..
theorem keeps_execSltiu (be d a : Fin 32) (imm : BitVec 16) (s : State) : KeepsRes s (execSltiu be d a imm s) :=
  keeps_immOp ..
theorem keeps_execShi (be d a : Fin 32) (kind : ShKind) (amt : Fin 64) (s : State) : KeepsRes s (execShi be d a kind
    amt s) :=
  keeps_immOp ..
theorem keeps_execLui (be d : Fin 32) (imm : BitVec 16) (s : State) : KeepsRes s (execLui be d imm s) :=
  keeps_regOp ..
theorem keeps_execBextu (be d a : Fin 32) (pos len1 : Fin 64) (s : State) : KeepsRes s (execBextu be d a pos len1 s)
    :=
  keeps_immOp ..
theorem keeps_execBexts (be d a : Fin 32) (pos len1 : Fin 64) (s : State) : KeepsRes s (execBexts be d a pos len1 s)
    :=
  keeps_immOp ..
theorem keeps_execBins (be d a : Fin 32) (pos len1 : Fin 64) (s : State) : KeepsRes s (execBins be d a pos len1 s) :=
  keeps_regOp ..
theorem keeps_fpOp (s : State) (be d a b : Fin 32) (i : Instr) (f : RMode → W64 → W64 → Nat × FFlags) : KeepsRes s
    (s.fpOp be d a b i f) :=
  keeps_regOp ..
theorem keeps_fmaOp (s : State) (be d a b c : Fin 32) (p : Bool) (i : Instr) (np nc : Bool) : KeepsRes s (s.fmaOp be d
    a b c p i np nc) :=
  keeps_regOp ..
theorem keeps_execFadd (be d a b : Fin 32) (p : Bool) (s : State) : KeepsRes s (execFadd be d a b p s) :=
  keeps_fpOp ..
theorem keeps_execFsub (be d a b : Fin 32) (p : Bool) (s : State) : KeepsRes s (execFsub be d a b p s) :=
  keeps_fpOp ..
theorem keeps_execFmul (be d a b : Fin 32) (p : Bool) (s : State) : KeepsRes s (execFmul be d a b p s) :=
  keeps_fpOp ..
theorem keeps_execFdiv (be d a b : Fin 32) (p : Bool) (s : State) : KeepsRes s (execFdiv be d a b p s) :=
  keeps_fpOp ..
theorem keeps_execFmin (be d a b : Fin 32) (p : Bool) (s : State) : KeepsRes s (execFmin be d a b p s) :=
  keeps_fpOp ..
theorem keeps_execFmax (be d a b : Fin 32) (p : Bool) (s : State) : KeepsRes s (execFmax be d a b p s) :=
  keeps_fpOp ..
theorem keeps_execFabs (be d a b : Fin 32) (p : Bool) (s : State) : KeepsRes s (execFabs be d a b p s) :=
  keeps_fpOp ..
theorem keeps_execFneg (be d a b : Fin 32) (p : Bool) (s : State) : KeepsRes s (execFneg be d a b p s) :=
  keeps_fpOp ..
theorem keeps_execFeq (be d a b : Fin 32) (p : Bool) (s : State) : KeepsRes s (execFeq be d a b p s) := keeps_fpOp ..
theorem keeps_execFlt (be d a b : Fin 32) (p : Bool) (s : State) : KeepsRes s (execFlt be d a b p s) := keeps_fpOp ..
theorem keeps_execFle (be d a b : Fin 32) (p : Bool) (s : State) : KeepsRes s (execFle be d a b p s) := keeps_fpOp ..
theorem keeps_execFcvti (be d a b : Fin 32) (p : Bool) (s : State) : KeepsRes s (execFcvti be d a b p s) :=
  keeps_fpOp ..
theorem keeps_execFcvtu (be d a b : Fin 32) (p : Bool) (s : State) : KeepsRes s (execFcvtu be d a b p s) :=
  keeps_fpOp ..
theorem keeps_execIcvtf (be d a b : Fin 32) (p : Bool) (s : State) : KeepsRes s (execIcvtf be d a b p s) :=
  keeps_fpOp ..
theorem keeps_execUcvtf (be d a b : Fin 32) (p : Bool) (s : State) : KeepsRes s (execUcvtf be d a b p s) :=
  keeps_fpOp ..
theorem keeps_execFwiden (be d a b : Fin 32) (s : State) : KeepsRes s (execFwiden be d a b s) := keeps_fpOp ..
theorem keeps_execFnarrow (be d a b : Fin 32) (s : State) : KeepsRes s (execFnarrow be d a b s) := keeps_fpOp ..
theorem keeps_execFcvtiz (be d a b : Fin 32) (p : Bool) (s : State) : KeepsRes s (execFcvtiz be d a b p s) :=
  keeps_fpOp ..
theorem keeps_execFcvtuz (be d a b : Fin 32) (p : Bool) (s : State) : KeepsRes s (execFcvtuz be d a b p s) :=
  keeps_fpOp ..
theorem keeps_execFsqrt (be d a : Fin 32) (p : Bool) (s : State) : KeepsRes s (execFsqrt be d a p s) := keeps_fpOp ..
theorem keeps_execFmadd (be d a b c : Fin 32) (p : Bool) (s : State) : KeepsRes s (execFmadd be d a b c p s) :=
  keeps_fmaOp ..
theorem keeps_execFmsub (be d a b c : Fin 32) (p : Bool) (s : State) : KeepsRes s (execFmsub be d a b c p s) :=
  keeps_fmaOp ..
theorem keeps_execFnmadd (be d a b c : Fin 32) (p : Bool) (s : State) : KeepsRes s (execFnmadd be d a b c p s) :=
  keeps_fmaOp ..
theorem keeps_execFnmsub (be d a b c : Fin 32) (p : Bool) (s : State) : KeepsRes s (execFnmsub be d a b c p s) :=
  keeps_fmaOp ..
theorem keeps_loadOp (s : State) (be d : Fin 32) (i : Instr) (n : Nat) (signed : Bool) (ecc : Ecc) (addr : Core → Int)
    : KeepsRes s (s.loadOp be d i n signed ecc addr) :=
  KeepsRes.next (keeps_instr (fun _ _ => keeps_load ..) ..)
theorem keeps_storeOp (s : State) (be d : Fin 32) (i : Instr) (n : Nat) (addr : Core → Int) : KeepsRes s (s.storeOp be
    d i n addr) :=
  KeepsRes.next (keeps_instr (fun _ _ => keeps_store ..) ..)
theorem keeps_execLdb (be d : Fin 32) (base : DBase) (disp : BitVec 16) (ecc : Ecc) (s : State) : KeepsRes s (execLdb
    be d base disp ecc s) :=
  keeps_loadOp ..
theorem keeps_execLdxb (be d a : Fin 32) (disp : BitVec 16) (ecc : Ecc) (s : State) : KeepsRes s (execLdxb be d a disp
    ecc s) :=
  keeps_loadOp ..
theorem keeps_execLdbs (be d : Fin 32) (base : DBase) (disp : BitVec 16) (ecc : Ecc) (s : State) : KeepsRes s
    (execLdbs be d base disp ecc s) :=
  keeps_loadOp ..
theorem keeps_execLdxbs (be d a : Fin 32) (disp : BitVec 16) (ecc : Ecc) (s : State) : KeepsRes s (execLdxbs be d a
    disp ecc s) :=
  keeps_loadOp ..
theorem keeps_execLdh (be d : Fin 32) (base : DBase) (disp : BitVec 16) (ecc : Ecc) (s : State) : KeepsRes s (execLdh
    be d base disp ecc s) :=
  keeps_loadOp ..
theorem keeps_execLdxh (be d a : Fin 32) (disp : BitVec 16) (ecc : Ecc) (s : State) : KeepsRes s (execLdxh be d a disp
    ecc s) :=
  keeps_loadOp ..
theorem keeps_execLdhs (be d : Fin 32) (base : DBase) (disp : BitVec 16) (ecc : Ecc) (s : State) : KeepsRes s
    (execLdhs be d base disp ecc s) :=
  keeps_loadOp ..
theorem keeps_execLdxhs (be d a : Fin 32) (disp : BitVec 16) (ecc : Ecc) (s : State) : KeepsRes s (execLdxhs be d a
    disp ecc s) :=
  keeps_loadOp ..
theorem keeps_execLdw (be d : Fin 32) (base : DBase) (disp : BitVec 16) (ecc : Ecc) (s : State) : KeepsRes s (execLdw
    be d base disp ecc s) :=
  keeps_loadOp ..
theorem keeps_execLdxw (be d a : Fin 32) (disp : BitVec 16) (ecc : Ecc) (s : State) : KeepsRes s (execLdxw be d a disp
    ecc s) :=
  keeps_loadOp ..
theorem keeps_execLdws (be d : Fin 32) (base : DBase) (disp : BitVec 16) (ecc : Ecc) (s : State) : KeepsRes s
    (execLdws be d base disp ecc s) :=
  keeps_loadOp ..
theorem keeps_execLdxws (be d a : Fin 32) (disp : BitVec 16) (ecc : Ecc) (s : State) : KeepsRes s (execLdxws be d a
    disp ecc s) :=
  keeps_loadOp ..
theorem keeps_execLdd (be d : Fin 32) (base : DBase) (disp : BitVec 16) (ecc : Ecc) (s : State) : KeepsRes s (execLdd
    be d base disp ecc s) :=
  keeps_loadOp ..
theorem keeps_execLdxd (be d a : Fin 32) (disp : BitVec 16) (ecc : Ecc) (s : State) : KeepsRes s (execLdxd be d a disp
    ecc s) :=
  keeps_loadOp ..
theorem keeps_execStb (be d : Fin 32) (base : DBase) (disp : BitVec 16) (s : State) : KeepsRes s (execStb be d base
    disp s) :=
  keeps_storeOp ..
theorem keeps_execStxb (be d a : Fin 32) (disp : BitVec 16) (s : State) : KeepsRes s (execStxb be d a disp s) :=
  keeps_storeOp ..
theorem keeps_execSth (be d : Fin 32) (base : DBase) (disp : BitVec 16) (s : State) : KeepsRes s (execSth be d base
    disp s) :=
  keeps_storeOp ..
theorem keeps_execStxh (be d a : Fin 32) (disp : BitVec 16) (s : State) : KeepsRes s (execStxh be d a disp s) :=
  keeps_storeOp ..
theorem keeps_execStw (be d : Fin 32) (base : DBase) (disp : BitVec 16) (s : State) : KeepsRes s (execStw be d base
    disp s) :=
  keeps_storeOp ..
theorem keeps_execStxw (be d a : Fin 32) (disp : BitVec 16) (s : State) : KeepsRes s (execStxw be d a disp s) :=
  keeps_storeOp ..
theorem keeps_execStd (be d : Fin 32) (base : DBase) (disp : BitVec 16) (s : State) : KeepsRes s (execStd be d base
    disp s) :=
  keeps_storeOp ..
theorem keeps_execStxd (be d a : Fin 32) (disp : BitVec 16) (s : State) : KeepsRes s (execStxd be d a disp s) :=
  keeps_storeOp ..
theorem keeps_enterSyncing (s : State) : Keeps s s.enterSyncing :=
  Keeps.after (Keeps.ite (keeps_rfxArmBank ..) (Keeps.refl _)) <| keeps_toSyncing ..
theorem keeps_claimRefused (s : State) : Keeps s s.claimRefused := by
  unfold State.claimRefused
  extract_lets s1
  have h : Keeps s s1 := Keeps.after (keeps_fsetb ..) <| Keeps.after (keeps_raise ..) (keeps_bump ..)
  clear_value s1
  split
  · exact Keeps.after (keeps_enterSyncing ..) h
  · exact Keeps.ite (Keeps.after (keeps_ignoredIn ..) <| Keeps.after (keeps_scan ..) h) (Keeps.after (keeps_enterSyncing ..) h)
  · exact h
theorem keeps_transferHere (s : State) (trigger : Nat) : Keeps s (s.transferHere trigger) :=
  Keeps.after (keeps_latchHere ..) <| keeps_pair ..
theorem keeps_transferAway (s : State) (toPartner : Bool) : Keeps s (s.transferAway toPartner) :=
  Keeps.after (keeps_canPermit ..) <| Keeps.after (keeps_afterDrop ..) <| keeps_latchAway ..
theorem keeps_claimHere (s : State) (silent : Bool) : Keeps s (s.claimHere silent) := by
  unfold State.claimHere
  split
  · exact keeps_latchHere ..
  · exact Keeps.ite (Keeps.refl _) (Keeps.ite (keeps_transferHere ..) (Keeps.ite (Keeps.refl _)
      (keeps_claimRefused ..)))
theorem keeps_execClaimAssert (sl : Slot) (both silent : Bool) (s : State) :
    KeepsRes s (execClaimAssert sl both silent s) := by
  unfold execClaimAssert
  extract_lets own _ s1 giveOther
  have h1 : Keeps s s1 := Keeps.ite (keeps_bogie ..) (Keeps.refl s)
  have hg (t : State) (h : Keeps s t) : Keeps s (giveOther t) := Keeps.after (keeps_bogie ..) h
  clear_value s1 giveOther
  refine KeepsRes.when (Keeps.refl s) <| Keeps.ite ?_ <| Keeps.ite (Keeps.after (keeps_claimHere ..) h1) ?_
  · exact Keeps.ite (Keeps.after (keeps_latchHere ..) h1) (Keeps.after (keeps_claimHere ..) (hg s1 h1))
  · split
    · exact hg s1 h1
    · exact Keeps.ite (Keeps.after (keeps_transferAway ..) h1) h1
theorem keeps_tokenFreed (s : State) (trigger : Nat) : Keeps s (s.tokenFreed trigger) :=
  Keeps.ite (keeps_transferHere ..) (keeps_bogie ..)
theorem keeps_execClaimDrop (sl : Slot) (s : State) : KeepsRes s (execClaimDrop sl s) :=
  KeepsRes.ite (KeepsRes.next (Keeps.ite (keeps_fsetb ..) (keeps_bogie ..))) (KeepsRes.ite (KeepsRes.when (Keeps.refl
    _) (keeps_dropClaim ..)) (KeepsRes.next (Keeps.after (keeps_tokenFreed ..) <| keeps_bogie ..)))
theorem keeps_execRfxSilent (sl : Slot) (s : State) : KeepsRes s (execRfxSilent sl s) :=
  KeepsRes.ite (KeepsRes.when (Keeps.refl _) (Keeps.after (Keeps.ite (keeps_transferAway ..) (Keeps.refl _)) <|
    keeps_bogie ..)) (KeepsRes.when (Keeps.refl _) (keeps_transferHere ..))

end Sys2Proof.Machine
end

section
/-! What whole operations keep: the token, roles, the seal and the copy. -/

namespace Sys2Proof.Machine

theorem keeps_execConnectorParts (sl : Slot) (s : State) : KeepsRes s (execConnectorParts sl s) :=
  KeepsRes.after (KeepsRes.ite (KeepsRes.next (Keeps.ite (keeps_transferAway ..) (Keeps.refl _))) (KeepsRes.after
    (KeepsRes.next (Keeps.ite (keeps_tokenFreed ..) (Keeps.refl _))) (keeps_bogie ..))) (Keeps.after (keeps_bogie ..)
    <| keeps_fset ..)
theorem keeps_resumeNS (s : State) : Keeps s s.resumeNS :=
  Keeps.after (Keeps.foldl _ (fun _ _ => keeps_deal ..) _ _) <| keeps_brm ..
theorem keeps_takePositions (s : State) (ahead : Vector Nat 2) : Keeps s (s.takePositions ahead) :=
  Keeps.after (keeps_canTakeover ..) <| keeps_ringResume ..
theorem keeps_becameEvent (s : State) : Keeps s s.becameEvent := keeps_event ..
theorem keeps_tokenRole (s : State) (ahead : Vector Nat 2) : Keeps s (s.tokenRole ahead) := by
  unfold State.tokenRole
  dsimp only
  split
  · refine Keeps.ite ?_ ?_
    · exact Keeps.after (keeps_becameEvent ..) <| Keeps.after (keeps_resumeNS ..) <| Keeps.after (keeps_takePositions ..) <|
        Keeps.after (keeps_pair ..) <| Keeps.after (keeps_setReady ..) <| Keeps.after (keeps_enter ..) (keeps_logSwitch ..)
    · have h1 : Keeps s ((State.logSwitch { s with pair := { s.pair with staged := [] } } s.pair.incoming 1 true).enter .primary) :=
        Keeps.after (keeps_enter ..) <| Keeps.after (keeps_logSwitch ..) (keeps_pair ..)
      generalize (State.logSwitch _ _ _ _).enter .primary = t at h1 ⊢
      exact Keeps.then_same (Keeps.after (keeps_setReady _ false) (Keeps.ite (Keeps.after (keeps_enter t .alone) h1) h1))
        rfl rfl rfl rfl rfl
  · exact Keeps.after (keeps_pair ..) <| Keeps.after (keeps_setReady ..) (keeps_logSwitch ..)
  · exact Keeps.refl s
theorem keeps_rgap (s : State) : Keeps s s.rgap := Keeps.ite (keeps_wr ..) ((keeps_take s).trans (keeps_wr ..))
theorem keeps_execTokenRise (ahead : Vector Nat 2) (s : State) : KeepsRes s (execTokenRise ahead s) := by
  unfold execTokenRise
  split
  · exact KeepsRes.next (Keeps.refl _)
  · exact KeepsRes.after (KeepsRes.ite (KeepsRes.next (Keeps.ite (Keeps.after (keeps_showIsland ..) <| keeps_bogie ..)
      (Keeps.refl _))) (KeepsRes.after (KeepsRes.next (Keeps.after (keeps_showIsland ..) <|
      Keeps.after (keeps_canPermit ..) <| Keeps.after (keeps_tokenRole ..) <| Keeps.after (keeps_rgap ..) <|
      keeps_tokenUp ..)) (Keeps.same rfl rfl rfl rfl rfl))) (keeps_bogie ..)
theorem keeps_execLoopRampEnd (s : State) : KeepsRes s (execLoopRampEnd s) :=
  KeepsRes.when (Keeps.refl _) (Keeps.after (keeps_showIsland ..) <| keeps_bogie ..)
theorem keeps_execTakeoverStart (ahead : Vector Nat 2) (s : State) : KeepsRes s (execTakeoverStart ahead s) := by
  unfold execTakeoverStart
  refine KeepsRes.when (Keeps.refl _) (?_)
  split
  · exact Keeps.after (keeps_becameEvent ..) <| Keeps.after (keeps_resumeNS ..) <|
      Keeps.after (keeps_ringTakeover ..) <| Keeps.after (keeps_takePositions ..) <|
      Keeps.after (keeps_canPermit ..) <| keeps_pair ..
  · exact Keeps.after (Keeps.ite (keeps_freezeStep ..) (Keeps.refl _)) <| Keeps.after (keeps_boundaryWork ..) <|
      Keeps.after (Keeps.same rfl rfl rfl rfl rfl) <| Keeps.after (Keeps.ite (Keeps.refl _) (keeps_raise ..)) <|
      Keeps.after (keeps_fset ..) <| Keeps.after (keeps_becameEvent ..) <| Keeps.after (keeps_resumeNS ..) <|
      Keeps.after (keeps_ringTakeover ..) <| Keeps.after (keeps_takePositions ..) <|
      Keeps.after (keeps_canPermit ..) <| keeps_pair ..
theorem keeps_execIslandLinkFrameRx (digital : W32) (loops : Vector Nat 8) (s : State) : KeepsRes s
    (execIslandLinkFrameRx digital loops s) :=
  KeepsRes.when (Keeps.refl _) (keeps_island ..)
theorem keeps_mirrorFill (s : State) : Keeps s s.mirrorFill := keeps_island ..
theorem keeps_execIslandLinkFault (s : State) : KeepsRes s (execIslandLinkFault s) :=
  KeepsRes.when (Keeps.refl _) (Keeps.after (Keeps.ite (Keeps.refl _) (keeps_mirrorFill ..)) <|
    Keeps.after (keeps_raise ..) <| Keeps.after (keeps_fset ..) <| keeps_bogie ..)
theorem keeps_execIslandLinkReturn (s : State) : KeepsRes s (execIslandLinkReturn s) :=
  KeepsRes.when (Keeps.refl _) (Keeps.after (keeps_raise ..) <| Keeps.after (keeps_fset ..) <| keeps_bogie ..)
theorem keeps_execLeverOpen (own : Bool) (s : State) : KeepsRes s (execLeverOpen own s) := by
  unfold execLeverOpen
  refine KeepsRes.ite (KeepsRes.when (Keeps.refl _) (Keeps.after (keeps_bogie ..) <|
    Keeps.after (keeps_holdupAbort ..) <| keeps_fset ..)) (KeepsRes.when (Keeps.refl _) (?_))
  split
  · exact Keeps.after (keeps_startHandover ..) <| Keeps.after (Keeps.ite (Keeps.refl _) (keeps_showRemoval ..)) <|
      Keeps.after (keeps_holdupAbort ..) <| keeps_fset ..
  · exact Keeps.after (keeps_showRemoval ..) <| Keeps.after (keeps_setReady ..) <|
      Keeps.after (keeps_holdupAbort ..) <| keeps_fset ..
  · exact Keeps.after (Keeps.ite (Keeps.after (keeps_startHandover ..) <| Keeps.ite (Keeps.refl _)
      (keeps_showRemoval ..)) (Keeps.after (keeps_showRemoval ..) <| keeps_setReady ..)) <|
      Keeps.after (keeps_holdupAbort ..) <| keeps_fset ..
  · exact Keeps.after (keeps_showRemoval ..) <| Keeps.after (keeps_holdupAbort ..) <| keeps_fset ..
  · exact Keeps.after (keeps_holdupAbort ..) <| keeps_fset ..
theorem keeps_execLeverClose (own : Bool) (s : State) : KeepsRes s (execLeverClose own s) :=
  KeepsRes.ite (KeepsRes.when (Keeps.refl _) (keeps_fset ..)) (KeepsRes.when (Keeps.refl _) (Keeps.after (Keeps.ite
    (keeps_setReady ..) (Keeps.refl _)) <| keeps_fset ..))
theorem keeps_setLanes (s : State) (m : BitVec 4) : Keeps s (s.setLanes m) :=
  Keeps.after (keeps_raise ..) <| Keeps.after (keeps_fset ..) <| keeps_bogie ..
theorem keeps_resendAll (s : State) : Keeps s s.resendAll :=
  Keeps.foldl _ (fun _ _ => Keeps.foldl _ (fun _ _ => keeps_sendOnce ..) _ _) _ _
theorem keeps_execDrawbarLaneLoss (lane : Fin 4) (s : State) : KeepsRes s (execDrawbarLaneLoss lane s) :=
  KeepsRes.when (Keeps.refl _) (Keeps.after (keeps_bogie ..) <| keeps_setLanes ..)
theorem keeps_execDrawbarRetrainDone (s : State) : KeepsRes s (execDrawbarRetrainDone s) :=
  KeepsRes.when (Keeps.refl _) (Keeps.after (keeps_resendAll ..) <| keeps_bogie ..)
theorem keeps_execDrawbarLaneReturn (lane : Fin 4) (s : State) : KeepsRes s (execDrawbarLaneReturn lane s) :=
  KeepsRes.when (Keeps.refl _) (Keeps.after (Keeps.ite (keeps_resendAll ..) (Keeps.refl _)) <| keeps_setLanes ..)
theorem keeps_execDrawbarMsgRepeat (id : Nat) (s : State) : KeepsRes s (execDrawbarMsgRepeat id s) := by
  unfold execDrawbarMsgRepeat
  split
  · exact KeepsRes.next (keeps_sendOnce ..)
  · exact KeepsRes.next (Keeps.refl _)
theorem keeps_acked (s : State) (gone : Nat → Bool) : Keeps s (s.acked gone) :=
  Keeps.after (keeps_completeAll ..) <| keeps_host ..
theorem keeps_execDrawbarAckRx (id : Nat) (s : State) : KeepsRes s (execDrawbarAckRx id s) :=
  KeepsRes.next (Keeps.after (keeps_acked ..) <| keeps_pair ..)
theorem keeps_execHeartbeatSend (s : State) : KeepsRes s (execHeartbeatSend s) :=
  KeepsRes.when (Keeps.refl _) (Keeps.after (Keeps.same rfl rfl rfl rfl rfl) <| keeps_sendOnce ..)
theorem keeps_hear (s : State) (h : Heartbeat) : Keeps s (s.hear h) := by
  unfold State.hear
  extract_lets follow a
  have ha : Keeps s a := ((keeps_fset ..).trans (keeps_fset ..)).trans (keeps_fset ..)
  clear_value a
  exact ha.trans (Keeps.same rfl rfl rfl rfl rfl)
theorem keeps_heardRole (s : State) : Keeps s s.heardRole := by
  unfold State.heardRole
  split
  · exact Keeps.after (keeps_canPermit ..) <| keeps_enter ..
  · exact Keeps.ite (Keeps.after (keeps_enterSyncing ..) <| keeps_power ..) (Keeps.refl _)
  · exact Keeps.refl _
theorem keeps_execHeartbeatRx (h : Option Heartbeat) (alive : Bool) (s : State) : KeepsRes s (execHeartbeatRx h alive
    s) := by
  unfold execHeartbeatRx
  refine KeepsRes.when (Keeps.refl _) (Keeps.after (keeps_completeAll ..) <| Keeps.after (keeps_pullForced ..) <|
    Keeps.after (keeps_heardRole ..) <| Keeps.after (keeps_pair ..) <| Keeps.after (Keeps.ite (keeps_fset ..)
    (Keeps.refl _)) <| ?_)
  split
  · exact keeps_hear ..
  · exact Keeps.refl _
theorem keeps_lostSyncing (s : State) : Keeps s s.lostSyncing := by
  unfold State.lostSyncing
  extract_lets s1 _ _ _ s2
  have h1 : Keeps s s1 := Keeps.after (keeps_canPermit ..) <| Keeps.after (keeps_enter ..) <| Keeps.after (keeps_rfxDisarm ..) <|
    Keeps.after (keeps_syncReset ..) (keeps_haltScan ..)
  have h2 : Keeps s1 s2 := Keeps.memSame (fun h => by
    obtain ⟨hb, -, hq, -, hw⟩ := Mem.wf_iff.mp h
    exact Mem.wf_iff.mpr ⟨hb, rfl, hq, rfl, hw⟩) rfl rfl rfl rfl
  exact Keeps.after (keeps_takeConfig ..) <| Keeps.after (keeps_loadProgram ..) <| Keeps.after (keeps_fset ..) (h1.trans h2)
theorem keeps_decideAlone (s : State) : Keeps s s.decideAlone :=
  Keeps.after (Keeps.ite (Keeps.refl _) (keeps_fsetb ..)) <| keeps_power ..
theorem keeps_lostPrimary (s : State) : Keeps s s.lostPrimary := by
  unfold State.lostPrimary
  extract_lets s1 _ s2 s3
  have h : Keeps s s3 := Keeps.after (keeps_endSwitchCmds ..) <| Keeps.after (keeps_fsetb ..) <| Keeps.after (keeps_pair ..) <|
    Keeps.after (keeps_canPermit ..) (keeps_enter ..)
  clear_value s3
  split
  · exact Keeps.after (keeps_afterPublish ..) h
  · exact Keeps.after (keeps_cycleDone ..) <| Keeps.after (keeps_planActivate ..) h
  · exact h
theorem keeps_partnerLost (s : State) : Keeps s s.partnerLost := by
  unfold State.partnerLost
  extract_lets s1 _ _ _ s2 s3 s4
  have h1 : Keeps s s1 := Keeps.after (keeps_raise ..) <| Keeps.after (keeps_fset ..) (keeps_fset ..)
  have h3 : Keeps s s3 := Keeps.after (keeps_fset ..) (Keeps.then_same h1 rfl rfl rfl rfl rfl)
  refine Keeps.after (keeps_acked ..) (Keeps.trans h3 ?_)
  dsimp only [s4]
  clear_value s3
  split
  · exact keeps_lostPrimary ..
  · exact keeps_fsetb ..
  · exact keeps_lostSyncing ..
  · exact Keeps.ite (keeps_fsetb ..) (Keeps.refl _)
  · exact Keeps.ite (keeps_decideAlone ..) (Keeps.refl _)
  · exact Keeps.refl _
theorem keeps_execPathSilent (drawbar : Bool) (s : State) : KeepsRes s (execPathSilent drawbar s) :=
  KeepsRes.when (Keeps.refl _) (Keeps.after (Keeps.ite (keeps_partnerLost ..) (Keeps.refl _)) <|
    Keeps.after (keeps_raise ..) <| Keeps.after (keeps_bumpF ..) <| keeps_fset ..)
theorem keeps_execRoleDecision (s : State) : KeepsRes s (execRoleDecision s) :=
  KeepsRes.when (Keeps.refl _) (Keeps.ite (Keeps.after (keeps_enterSyncing ..) <| keeps_power ..) (Keeps.ite
    (keeps_power ..) (keeps_decideAlone ..)))
theorem keeps_tripNoted (s : State) (cls : Nat) : Keeps s (s.tripNoted cls) := by
  unfold State.tripNoted
  split
  · exact Keeps.after (keeps_pair ..) <| Keeps.after (keeps_setReady ..) <| keeps_scanTrip ..
  · exact Keeps.after (keeps_syncReset ..) <| Keeps.after (keeps_pair ..) <| Keeps.after (keeps_setReady ..) <|
      keeps_scanTrip ..
  · exact Keeps.refl _
theorem keeps_execTripNoticeRx (id : Nat) (cls : Cls) (s : State) : KeepsRes s (execTripNoticeRx id cls s) :=
  KeepsRes.onceOnly (Keeps.refl _) (keeps_tripNoted ..)
theorem keeps_execHandoverRequestRx (id : Nat) (s : State) : KeepsRes s (execHandoverRequestRx id s) :=
  KeepsRes.onceOnly (Keeps.refl _) (Keeps.ite (keeps_startHandover ..) (Keeps.refl _))
theorem keeps_pairSwitch (s : State) : KeepsOpt s s.pairSwitch :=
  KeepsOpt.ite (KeepsOpt.some (keeps_startHandover ..)) KeepsOpt.none
theorem keeps_pairLeave (s : State) : KeepsOpt s s.pairLeave :=
  KeepsOpt.ite (KeepsOpt.some (keeps_enterSyncing ..)) KeepsOpt.none
theorem keeps_pairCtrl (s : State) (cmd : Nat) (key : BitVec 16) : Keeps s (s.pairCtrl cmd key) := by
  unfold State.pairCtrl
  refine Keeps.getD (KeepsOpt.ite KeepsOpt.none ?_) (keeps_ignoredIn ..)
  split
  · exact keeps_pairSwitch ..
  · exact keeps_pairLeave ..
  · exact KeepsOpt.some (keeps_wr ..)
  · exact KeepsOpt.none
theorem keeps_execPairCtrlSwitch (m : Master) (key : BitVec 16) (s : State) : KeepsRes s (execPairCtrlSwitch m key s)
    :=
  keepsRes_asWrite (fun _ => keeps_pairCtrl ..)
theorem keeps_execPairLeave (m : Master) (key : BitVec 16) (s : State) : KeepsRes s (execPairLeave m key s) :=
  keepsRes_asWrite (fun _ => keeps_pairCtrl ..)
theorem keeps_execPairClrCopyMax (m : Master) (key : BitVec 16) (s : State) : KeepsRes s (execPairClrCopyMax m key s)
    :=
  keepsRes_asWrite (fun _ => keeps_pairCtrl ..)
theorem keeps_followOpen (s : State) (k : Nat) (num : W64) : Keeps s (s.followOpen k num) :=
  Keeps.after (keeps_modCls ..) <| keeps_brm ..
theorem keeps_followDone (s : State) (i : Nat) : Keeps s (s.followDone i) := by
  unfold State.followDone
  split
  · exact Keeps.refl _
  · exact keeps_brm ..
theorem keeps_followComplete (s : State) (k : Nat) (cycle : W64) : Keeps s (s.followComplete k cycle) :=
  Keeps.ite (keeps_modCls ..) (Keeps.refl _)
theorem keeps_followCls (r : SealRec) (s : State) (k : Nat) : Keeps s (State.followCls r s k) :=
  Keeps.after (keeps_followComplete ..) <| Keeps.after (Keeps.foldl _ (fun _ _ => keeps_followDone ..) _ _) <|
    Keeps.after (Keeps.ite (Keeps.refl _) (keeps_followOpen ..)) <| Keeps.after (keeps_followComplete ..) <|
    Keeps.foldl _ (fun _ _ => keeps_followDone ..) _ _
theorem KeepsRes.linkRx {r s t : State} {copy c : Bool} (hs : Keeps r s) (ht : Keeps r t) : KeepsRes r (s.linkRx copy c t) :=
  KeepsRes.ite (.next (hs.trans (keeps_ignoredIn ..))) (KeepsRes.when hs ht)
theorem keeps_execCopyBlockRx (cycle : W64) (blk : Nat) (data : List Byte) (s : State) : KeepsRes s (execCopyBlockRx
    cycle blk data s) :=
  KeepsRes.linkRx (Keeps.refl _) (Keeps.after (keeps_pair ..) <| keeps_wrMem ..)
theorem keeps_copyGranted (s : State) : Keeps s s.copyGranted.1 := by
  unfold State.copyGranted
  generalize s.pair.staged = l
  refine Keeps.foldl_fst _ (fun x e => ?_) l s _
  exact keeps_catAccess x.1 clsDrawbar 0 .write (e.1 * 256)
theorem keeps_applyCopy (s : State) : Keeps s s.applyCopy := by
  unfold State.applyCopy
  exact Keeps.memSame (Mem.wf_foldl _ (fun _ (e : Nat × List Byte) => Mem.wf_write (e.1 * 256) e.2) _) rfl rfl rfl rfl
theorem keeps_saveOwn (s t : State) (r : SealRec) : Keeps t (s.saveOwn t r) := (keeps_brm ..).trans (keeps_showAudit ..)
theorem keeps_sealCommit (r : SealRec) (s : State) (k : Nat) : Keeps s (State.sealCommit r s k) := by
  unfold State.sealCommit
  split
  · exact Keeps.ite (Keeps.after (keeps_modCls ..) <| Keeps.after (keeps_forceOutputs ..) <| keeps_commitOutputs ..)
      (Keeps.refl _)
  · exact Keeps.refl _
theorem keeps_compareOutcome (s : State) (r : SealRec) : Keeps s (s.compareOutcome r) :=
  Keeps.ite (keeps_olc ..) (Keeps.after (keeps_enterSyncing ..) <| Keeps.after (keeps_olcCode ..) <| keeps_olc ..)
theorem keeps_sweepCompare (s : State) (i : SweepItem) : Keeps s (s.sweepCompare i).1 := by
  unfold State.sweepCompare
  split
  · exact keeps_ueReact ..
  · exact Keeps.ite_fst (Keeps.refl _) (Keeps.after (keeps_sendOnce ..) <| keeps_pair ..)
theorem keeps_sweepAll (s : State) (is : List SweepItem) : Keeps s (s.sweepAll is).1 := by
  unfold State.sweepAll
  refine Keeps.foldl_fst _ (fun x i => ?_) is s _
  exact keeps_sweepCompare x.1 i
theorem keeps_becomeStandby (s : State) : Keeps s s.becomeStandby := by
  unfold State.becomeStandby
  extract_lets s1 s2 mine _ s3 _ _ _ s4
  have h2 : Keeps s s2 := Keeps.after (keeps_fset ..) <| Keeps.after (keeps_unforce ..) <| Keeps.after (keeps_tellPlans ..) <|
    Keeps.after (keeps_fset ..) <| Keeps.after (keeps_fset ..) (keeps_enter ..)
  have h3 : Keeps s s3 := by
    dsimp only [s3]
    split
    · exact Keeps.after (keeps_olc ..) h2
    · exact h2
  clear_value s3
  have h4 : Keeps s s4 := Keeps.then_same h3 rfl rfl rfl rfl rfl
  exact Keeps.ite (Keeps.after (keeps_setReady ..) h4) h4
theorem keeps_syncStep (s : State) (r : SealRec) (gap diff : Bool) : Keeps s (s.syncStep r gap diff) := by
  unfold State.syncStep
  split
  · exact Keeps.ite (Keeps.after (keeps_pair ..) <| keeps_fset ..) (Keeps.refl _)
  · exact Keeps.after (Keeps.ite (Keeps.after (keeps_fset ..) <| keeps_fset ..) (Keeps.refl _)) <| keeps_pair ..
  · exact Keeps.after (Keeps.ite (keeps_becomeStandby ..) (Keeps.refl _)) <| keeps_fset ..
  · exact Keeps.refl _
theorem keeps_followRings (s : State) (h : HostSeal) : Keeps s (s.followRings h) := keeps_host ..
theorem keeps_takeRecord (s : State) (r : SealRec) : Keeps s (s.takeRecord r) :=
  Keeps.after (keeps_modCls ..) <| Keeps.after (keeps_followRings ..) <| Keeps.after (keeps_wr64 ..) <|
    Keeps.after (keeps_fset ..) <| Keeps.after (keeps_setStale ..) <| Keeps.after (keeps_countForces ..) <|
    Keeps.after (keeps_fsetb ..) <| Keeps.after (keeps_wr ..) <| Keeps.after (Keeps.same rfl rfl rfl rfl rfl) <|
    Keeps.ite (Keeps.after (keeps_fsetb ..) <| keeps_haltScan ..) (Keeps.refl _)
theorem keeps_sealTrip (s : State) : Keeps s s.sealTrip := (keeps_take s).trans (keeps_tripNoted ..)
theorem keeps_execSealRecordRx (r : SealRec) (s : State) : KeepsRes s (execSealRecordRx r s) := by
  unfold execSealRecordRx
  extract_lets x _ _ refused gap t1 t2 t3 t4 t5 t6 t7 y t8 t9 t10
  have hx : Keeps s x.1 := keeps_copyGranted ..
  have h2 : Keeps s t2 := Keeps.after (Keeps.foldl _ (fun _ _ => keeps_sealCommit ..) _ _) <| Keeps.after (keeps_sendOnce ..) hx
  have h3 : Keeps s t3 := Keeps.after (Keeps.ite (Keeps.after (keeps_saveOwn ..) (keeps_applyCopy ..)) (keeps_applyCopy ..)) h2
  have h5 : Keeps s t5 := Keeps.after (keeps_vwSettle ..) <| Keeps.after (Keeps.foldl _ (fun _ _ => keeps_followCls ..) _ _) <|
    Keeps.after (keeps_forceOutputs ..) <| Keeps.after (keeps_commitOutputs ..) <| Keeps.after (keeps_takeRecord ..) h3
  have h6 : Keeps s t6 := Keeps.ite (Keeps.after (keeps_planActivate ..) h5) h5
  have h7 : Keeps s t7 := Keeps.ite (Keeps.after (keeps_mirrorFill ..) h6) h6
  have hy : Keeps s y.1 := Keeps.after (keeps_sweepAll ..) h7
  have h8 : Keeps s t8 := Keeps.after (keeps_compareOutcome ..) hy
  have h9 : Keeps s t9 := Keeps.ite (Keeps.after (keeps_syncStep ..) hy) (Keeps.ite (Keeps.after (keeps_carryStart ..) h8) h8)
  have h10 : Keeps s t10 := Keeps.ite (Keeps.after (keeps_sealTrip ..) h9) h9
  exact KeepsRes.linkRx (Keeps.refl s) (Keeps.ite h10 (Keeps.after (keeps_pair ..) hx))
theorem keeps_execSealAckRx (cycle : W64) (digests : List (Nat × W64)) (s : State) : KeepsRes s (execSealAckRx cycle
    digests s) :=
  KeepsRes.linkRx (Keeps.refl _) (Keeps.after (keeps_cycleDone ..) <| Keeps.after (keeps_completeAll ..) <| Keeps.ite
    (Keeps.after (keeps_planActivate ..) <| Keeps.after (keeps_sealCmds ..) <| keeps_pair ..) (Keeps.after
    (keeps_sealCmds ..) <| keeps_pair ..))
theorem keeps_execResyncDemandRx (s : State) : KeepsRes s (execResyncDemandRx s) :=
  KeepsRes.linkRx (Keeps.refl _) (keeps_enterSyncing ..)
theorem keeps_copyClean (s : State) : Keeps s s.copyClean :=
  Keeps.foldl _ (fun _ _ => Keeps.ite (keeps_reinitBlock ..) (Keeps.ite (keeps_restoreBlock ..) (Keeps.refl _))) _ _
theorem keeps_sendFullCopy (s : State) : Keeps s s.sendFullCopy :=
  Keeps.after (keeps_tellPlans ..) <| Keeps.after (Keeps.foldl _ (fun _ _ => keeps_sendOnce ..) _ _) <|
    keeps_copyClean ..
theorem keeps_execResyncRequestRx (id : Nat) (s : State) : KeepsRes s (execResyncRequestRx id s) := by
  unfold execResyncRequestRx
  split
  · exact KeepsRes.onceOnly (Keeps.refl _) (keeps_sendFullCopy ..)
  · exact KeepsRes.onceOnly (Keeps.refl _) (Keeps.after (keeps_sendFullCopy ..) <| Keeps.after (keeps_canPermit ..) <|
      keeps_enter ..)
  · exact KeepsRes.ite (KeepsRes.next (Keeps.refl _)) (KeepsRes.onceOnly (Keeps.refl _) (keeps_enterSyncing ..))
  · exact KeepsRes.next (Keeps.refl _)
theorem keeps_takeCopied (s : State) (c : FlashCfg) (keys : Vector (Option (BitVec 256)) 4) : Keeps s (s.takeCopied c keys) :=
  (keeps_regs s _ (swf_filter _ _ _)).trans <| (keeps_act _ _ (swf_filter _ _ _)).trans <| (keeps_olc ..).trans <|
    (keeps_pair ..).trans <| (Keeps.foldl _ (fun _ _ => keeps_pendClear ..) _ _).trans <| (keeps_dmaWait ..).trans <|
    (keeps_wr ..).trans <| keeps_loadConfig ..
theorem keeps_takeItem (s : State) (i : FullItem) : Keeps s (s.takeItem i) := by
  cases i with
  | config c keys => exact keeps_takeCopied ..
  | span a n cells =>
    refine Keeps.mem fun h => ?_
    obtain ⟨hb, hc, hq, hr, hw⟩ := Mem.wf_iff.mp h
    have h0 : Mem.wf { s.mem with bytes := s.mem.bytes.filter (fun e => !(a ≤ e.1 && e.1 < a + n)) } = true :=
      Mem.wf_iff.mpr ⟨swf_filter _ _ _ hb, hc, hq, hr, hw⟩
    obtain ⟨hb, hc, hq, hr, hw⟩ := Mem.wf_iff.mp
      (Mem.wf_foldl _ (fun _ (e : Nat × Byte) => Mem.wf_setByte e.1 e.2) (cells.filter (fun e => a ≤ e.1 && e.1 < a + n)) h0)
    exact Mem.wf_iff.mpr ⟨hb, hc, swf_filter _ _ _ hq, hr, hw⟩
  | package state loaded plans activeB =>
    have shown (u : State) : Keeps u (State.dropLines { u with olc := { u.olc with plans := plans, partnerPkg := none } }).showBanks :=
      Keeps.after (keeps_showBanks ..) <| Keeps.after (keeps_dropLines ..) (keeps_olc ..)
    have h := Keeps.after (shown _) <| Keeps.after (keeps_wr _ R.olcLoaded (BitVec.ofNat 32 loaded)) <|
      Keeps.after (keeps_setPkg _ state) (keeps_fsetb s F.olcStatus_activeBank activeB)
    have ht := Keeps.after (keeps_checkPackage _ (some plans)) <| Keeps.after (keeps_setPkg _ pkgChecking) h
    exact Keeps.ite h (Keeps.ite (Keeps.after (keeps_setPkg _ _) ht) ht)
  | scan p =>
    refine Keeps.after (keeps_modCls ..) <| Keeps.after (keeps_modCls ..) ?_
    exact Keeps.then_same (keeps_tb2Start s p.tb2From) rfl rfl rfl rfl rfl
  | last =>
    refine Keeps.after (keeps_fset ..) <| Keeps.after (keeps_wr ..) <| Keeps.after (keeps_countForces ..) <|
      Keeps.after (keeps_pair ..) ?_
    exact Keeps.foldl _ keeps_commitOutputs [Cls.f, .n, .s] s
theorem keeps_execFullCopyRx (item : FullItem) (pct : Fin 101) (s : State) : KeepsRes s (execFullCopyRx item pct s) :=
  KeepsRes.linkRx (Keeps.refl _) (Keeps.after (keeps_fset ..) <| keeps_takeItem ..)
theorem keeps_classWord (s : State) (a : Nat) : Keeps s (s.classWord a) :=
  Keeps.ite (keeps_bump ..) (Keeps.after (keeps_raise ..) <| Keeps.after (keeps_bump ..) <| keeps_pair ..)

end Sys2Proof.Machine
end

section
/-! What whole operations keep: register writes and commands of the rings that read. -/

namespace Sys2Proof.Machine

theorem keeps_execSweepUnitRx (unit : Nat) (data : List Byte) (s : State) : KeepsRes s (execSweepUnitRx unit data s)
    :=
  KeepsRes.linkRx (Keeps.refl _) (Keeps.ite (Keeps.after (keeps_enterSyncing ..) <| Keeps.ite (Keeps.after
    (Keeps.foldl _ (fun _ _ => keeps_dropBlockLines ..) _ _) <| Keeps.after (keeps_pair ..) <|
    Keeps.after (keeps_wrMem ..) <| Keeps.foldl _ (fun _ _ => keeps_classWord ..) _ _) (Keeps.after (keeps_pair ..) <|
    Keeps.after (keeps_wrMem ..) <| Keeps.foldl _ (fun _ _ => keeps_classWord ..) _ _)) (Keeps.ite (Keeps.after
    (Keeps.foldl _ (fun _ _ => keeps_dropBlockLines ..) _ _) <| Keeps.after (keeps_pair ..) <|
    Keeps.after (keeps_wrMem ..) <| Keeps.foldl _ (fun _ _ => keeps_classWord ..) _ _) (Keeps.after (keeps_pair ..) <|
    Keeps.after (keeps_wrMem ..) <| Keeps.foldl _ (fun _ _ => keeps_classWord ..) _ _)))
theorem keeps_execSweepUnitRequestRx (unit : Nat) (s : State) : KeepsRes s (execSweepUnitRequestRx unit s) :=
  KeepsRes.linkRx (Keeps.refl _) (keeps_sendOnce ..)
theorem keeps_execAgreementTimeout (b : Fin 22) (s : State) : KeepsRes s (execAgreementTimeout b s) :=
  KeepsRes.when (Keeps.refl _) (Keeps.after (keeps_raise ..) <| Keeps.after (keeps_bump ..) <| keeps_dropGroup ..)
theorem keeps_onBits {ops : List (Nat × (State → State))} (ho : ops.Forall (fun e => ∀ s, Keeps s (e.2 s))) (s : State)
    (v : W32) : Keeps s (s.onBits v ops) := by
  unfold State.onBits
  induction ops generalizing s with
  | nil => exact Keeps.refl s
  | cons e r ih =>
    obtain ⟨he, hr⟩ := (List.forall_cons _ e r).mp ho
    exact Keeps.trans (Keeps.ite (he s) (Keeps.refl s)) (ih hr _)
theorem keeps_applyBlock (s : State) (b : Nat) (plan : Option RingPlan) : Keeps s (s.applyBlock b plan) :=
  Keeps.ite (keeps_pwrApply ..) (Keeps.ite (keeps_ignoredIn ..) (Keeps.after (Keeps.ite (keeps_planActivate ..)
    (Keeps.ite (keeps_dmaWait ..) (Keeps.refl _))) <| Keeps.after (Keeps.ite (keeps_conf ..) (Keeps.refl _)) <|
    keeps_fset ..))
theorem keeps_ctrlStart (s : State) : Keeps s s.ctrlStart := Keeps.getD (keeps_scanStart ..) (keeps_ignoredIn ..)
theorem keeps_writeCtrl (s : State) (off : Nat) (v : W32) : KeepsOpt s (s.writeCtrl off v) := by
  have bits (ops : List (Nat × (State → State))) (t : State) (h : Keeps s t) (ho : ops.Forall (fun e => ∀ s, Keeps s (e.2 s))) :
      KeepsOpt s (some (t.onBits v ops)) := KeepsOpt.some (Keeps.after (keeps_onBits ho ..) h)
  have r := Keeps.refl s
  exact KeepsOpt.ite (bits [_] s r keeps_sysClrCnt) <| KeepsOpt.ite (bits [_, _] s r ⟨keeps_ctrlStart, keeps_scanClrMax⟩) <|
    KeepsOpt.ite (bits [_] s r keeps_brmClrCnt) <|
    KeepsOpt.ite (bits [_, _, _, _] s r ⟨keeps_rfxCtrlArm, keeps_rfxCtrlDisarm, keeps_rfxClrCnt, keeps_rfxClrMaxlat⟩) <|
    KeepsOpt.ite (bits [_, _] s r ⟨keeps_dioClrCnt, keeps_dioClrMin⟩) <|
    KeepsOpt.ite (bits [_] _ (keeps_aoRetest ..) keeps_aoClrCnt) <|
    KeepsOpt.ite (bits [_, _, _, _, _, _] s r
      ⟨keeps_acqEnable, keeps_acqDisable, keeps_acqArm, keeps_acqDisarm, keeps_acqForceTrig, keeps_acqClrCnt⟩) <|
    KeepsOpt.ite (bits [_] s r keeps_ringClrCnt) <|
    KeepsOpt.ite (bits [_] _ (Keeps.after (keeps_canStop ..) (keeps_canStart ..)) keeps_canClrCnt) <|
    KeepsOpt.ite (bits [_] _ (keeps_hostResume ..) keeps_hostClrCnt) <| KeepsOpt.ite (bits [_] s r keeps_dmaClrCnt) <|
    KeepsOpt.ite (bits [_] s r keeps_drayClrCnt) <| KeepsOpt.ite (bits [_, _] s r ⟨keeps_timeSnap, keeps_timeClrCnt⟩) <|
    KeepsOpt.ite (bits [_, _] s r ⟨keeps_catClrFault, keeps_catClrCnt⟩) <| KeepsOpt.ite (bits [_] s r keeps_memClrCnt) <|
    KeepsOpt.ite (bits [_] s r keeps_wfClrCnt) <| KeepsOpt.ite (KeepsOpt.some (keeps_recCtrl ..)) <|
    KeepsOpt.ite (bits [_, _] s r ⟨keeps_obsEndStep, keeps_obsClrCnt⟩) <| KeepsOpt.ite (bits [_] s r keeps_pwrClrCnt) KeepsOpt.none
theorem keeps_writeWo (s : State) (m : Master) (off : Nat) (v : W32) : Keeps s (s.writeWo m off v) := by
  unfold State.writeWo
  refine Keeps.ite (keeps_ignoredIn ..) ?_
  split
  · exact KeepsOpt.get (keeps_writeCtrl ..) ‹_›
  · exact Keeps.ite (keeps_sysRestart ..) (Keeps.ite (keeps_scanRestartKey ..) (Keeps.ite (keeps_brmUnretire ..)
      (Keeps.ite (keeps_rfxUnretire ..) (Keeps.ite (keeps_olcCmd ..) (Keeps.ite (keeps_pairCtrl ..) (Keeps.ite
      (keeps_doorbell ..) (Keeps.ite (keeps_dmaResume ..) (Keeps.ite (keeps_wr ..) (Keeps.ite (Keeps.ite (keeps_wr ..)
      (keeps_ignoredIn ..)) (Keeps.ite (keeps_timeSetKey ..) (Keeps.ite (keeps_catBarrier ..) (Keeps.ite
      (keeps_applyBlock ..) (Keeps.refl _)))))))))))))
theorem keeps_writeRw (s : State) (m : Master) (off : Nat) (v mask : W32) : Keeps s (s.writeRw m off v mask) :=
  Keeps.ite (keeps_catWriteAddr ..) (Keeps.ite (keeps_catWriteAttr ..) (Keeps.ite (keeps_setRingEn ..) (Keeps.ite
    (keeps_setCqHead ..) (Keeps.ite (keeps_setEqHead ..) (keeps_wr ..)))))
theorem keeps_writeRws (s : State) (off : Nat) (v mask : W32) : Keeps s (s.writeRws off v mask) :=
  Keeps.ite (keeps_ignoredIn ..) (Keeps.after (keeps_fset ..) <| keeps_wr ..)
theorem keeps_writeRwl (s : State) (off : Nat) (v mask : W32) : Keeps s (s.writeRwl off v mask) :=
  Keeps.ite (keeps_ignoredIn ..) (Keeps.ite (keeps_wr ..) (keeps_setBoth ..))
theorem keeps_writeW1C (s : State) (off : Nat) (v hw : W32) : Keeps s (s.writeW1C off v hw) := keeps_wr ..
theorem keeps_writeReg (s : State) (m : Master) (off : Nat) (v : W32) : Keeps s (s.writeReg m off v) := by
  unfold State.writeReg
  refine Keeps.ite (keeps_bump ..) ?_
  split
  · exact keeps_badAccess ..
  · split
    · exact keeps_writeWo ..
    · exact keeps_writeRw ..
    · exact keeps_writeRws ..
    · exact keeps_writeRwl ..
    · exact Keeps.ite (Keeps.refl _) (keeps_writeW1C ..)
theorem keeps_setupWrite (s : State) (m : Master) (off size : Nat) (v : W32) : Keeps s (s.setupWrite m off size v) :=
  Keeps.ite (Keeps.after (keeps_emit ..) <| Keeps.ite (keeps_bump ..) (keeps_badAccess ..)) (Keeps.ite (Keeps.after
    (keeps_writeReg ..) <| keeps_setupAccess ..) (keeps_setupAccess ..))
theorem keeps_execSetupWrite (m : Master) (off size : Nat) (v : W32) (s : State) : KeepsRes s (execSetupWrite m off
    size v s) :=
  KeepsRes.when (Keeps.refl _) (keeps_setupWrite ..)
theorem keeps_execW1cClear (m : Master) (v : W32) (hwSet : Bool) (s : State) : KeepsRes s (execW1cClear m v hwSet s)
    :=
  KeepsRes.when (Keeps.refl _) (Keeps.after (Keeps.ite (keeps_fset ..) (Keeps.refl _)) <| Keeps.ite (Keeps.after
    (keeps_writeW1C ..) <| keeps_setupAccess ..) (keeps_setupAccess ..))
theorem keeps_execBlockApply (m : Master) (b : Fin 22) (plan : Option RingPlan) (s : State) : KeepsRes s
    (execBlockApply m b plan s) :=
  KeepsRes.ite (keepsRes_asWrite (fun _ => keeps_applyBlock ..)) (KeepsRes.next (Keeps.refl _))
theorem keeps_execPlanActivation (b : Fin 22) (s : State) : KeepsRes s (execPlanActivation b s) :=
  KeepsRes.when (Keeps.refl _) (keeps_planActivate ..)
theorem keeps_cartWrite (s : State) (m : Master) (off : Nat) : Keeps s (s.cartWrite m off) :=
  Keeps.after (keeps_emit ..) <| keeps_bump ..
theorem keeps_writePair (s : State) (off : Nat) (v : W32) : Keeps s (s.writePair off v).1 :=
  Keeps.ite_fst (keeps_badAccess ..) (Keeps.ite_fst (keeps_setupAccess ..) (Keeps.ite_fst (Keeps.after
    (keeps_cartWrite ..) <| keeps_setupAccess ..) (Keeps.after (keeps_writeReg ..) <| keeps_setupAccess ..)))
theorem keeps_writePairs (s : State) (data : List Byte) : Keeps s (s.writePairs data).1 := by
  unfold State.writePairs
  refine Keeps.foldl_fst _ (fun _ _ => ?_) _ _ _
  split
  · exact Keeps.refl _
  · exact keeps_writePair ..
theorem keeps_comparePeer (s : State) (ds : List W64) : Keeps s (s.comparePeer ds) := by
  unfold State.comparePeer
  refine Keeps.foldl _ (fun _ _ => ?_) _ _
  split
  · exact Keeps.refl _
  · exact Keeps.after (Keeps.ite (keeps_raise ..) (Keeps.refl _)) <| keeps_fsetb ..
theorem keeps_histSub (s : State) (arg0 : W64) (data : List Byte) : KeepsOpt s (s.histSub arg0 data) :=
  KeepsOpt.ite KeepsOpt.none (KeepsOpt.some (keeps_dray ..))
theorem keeps_takeForwarded (s : State) (op : Nat) (args : List W64) (data : List Byte) : Keeps s (s.takeForwarded op
    args data) := by
  unfold State.takeForwarded
  split
  · exact keeps_pair ..
  · exact Keeps.ite (keeps_writePairs ..) (Keeps.refl _)
  · exact keeps_vwQueue ..
  · exact Keeps.ite (keeps_setPkg ..) (Keeps.refl _)
  · exact Keeps.getD (keeps_pkgCancel ..) (Keeps.refl _)
  · exact Keeps.getD (keeps_pkgDiscard ..) (Keeps.refl _)
  · exact keeps_constPatch ..
  · exact Keeps.getD (keeps_histSub ..) (Keeps.refl _)
  · exact Keeps.refl _
theorem keeps_execConfigForwardRx (id opcode : Nat) (args : List W64) (data : List Byte) (s : State) : KeepsRes s
    (execConfigForwardRx id opcode args data s) :=
  KeepsRes.ite (KeepsRes.next (Keeps.refl _)) (KeepsRes.onceOnly (Keeps.refl _) (Keeps.ite (keeps_takeForwarded ..)
    (Keeps.ite (Keeps.after (Keeps.ite (keeps_sendOnce ..) (Keeps.refl _)) <| keeps_takeForwarded ..) (Keeps.ite
    (keeps_comparePeer ..) (Keeps.refl _)))))
theorem keeps_execMcLockstepMismatch (s : State) : KeepsRes s (execMcLockstepMismatch s) :=
  KeepsRes.when (Keeps.refl _) (keeps_mcReset ..)
theorem keeps_execMcSelftestComplete (pass : Bool) (s : State) : KeepsRes s (execMcSelftestComplete pass s) :=
  KeepsRes.when (Keeps.refl _) (Keeps.after (Keeps.ite (Keeps.after (keeps_completeAll ..) <|
    Keeps.after (keeps_dmaGo ..) <| Keeps.after (keeps_unforce ..) <| keeps_fset ..) (Keeps.ite (Keeps.after
    (keeps_emit ..) <| Keeps.after (keeps_showForced ..) <| Keeps.after (keeps_pair ..) <|
    Keeps.after (keeps_forceZero ..) <| keeps_fset ..) (Keeps.after (keeps_showForced ..) <|
    Keeps.after (keeps_pair ..) <| Keeps.after (keeps_forceZero ..) <| keeps_fset ..))) <| keeps_power ..)
theorem keeps_toPartner (s : State) (c : Cmd) : Keeps s (s.toPartner c) :=
  Keeps.ite (keeps_cmdDone ..) (Keeps.after (keeps_send ..) <| keeps_modCmd ..)
theorem keepsRes_runCmd {f : State → Cmd → State} (hf : ∀ s c, Keeps s (f s c)) {s : State} {n op : Nat} :
    KeepsRes s (s.runCmd n op f) := by
  have hr (c : Cmd) : Keeps s (if op = 0x06 then s.vwRefuse c.symId else s) := Keeps.ite (keeps_vwRefuse ..) (Keeps.refl s)
  unfold State.runCmd
  split
  · exact KeepsRes.next (Keeps.refl s)
  next c _ =>
  refine KeepsRes.when (Keeps.refl s) ?_
  refine Keeps.ite ((hr c).trans (keeps_cmdDone ..)) <| Keeps.ite ?_ <| Keeps.ite (keeps_toPartner ..) (hf s c)
  exact (Keeps.ite (keeps_olcCode ..) (hr c)).trans (keeps_cmdDone ..)
theorem keeps_dataOut (s : State) (c : Cmd) (data : Option (List Byte)) (status result : Nat) : Keeps s (s.dataOut c
    data status result) :=
  Keeps.ite (keeps_cmdDone ..) (Keeps.after (keeps_completeAll ..) <| Keeps.after (keeps_dmaGo ..) <| keeps_modCmd ..)
/-- A command completes in the state that its work left. -/
theorem keeps_statusDone {s : State} {r : State × Nat} (h : Keeps s r.1) (c : Cmd) (item : Option Out) :
    Keeps s (s.statusDone c r item) := by
  unfold State.statusDone
  refine Keeps.ite (h.trans (keeps_cmdDone ..)) ?_
  cases item with
  | none => exact h.trans (keeps_cmdDone ..)
  | some o => exact h.trans ((keeps_sendFor ..).trans (keeps_cmdDone ..))
theorem keeps_olcDone {s : State} {r : Option State} (h : KeepsOpt s r) (c : Cmd) (item : Out) :
    Keeps s (s.olcDone c r item) := by
  cases r with
  | none => exact keeps_cmdDone ..
  | some t => exact (h.keeps t rfl).trans ((keeps_sendFor ..).trans (keeps_cmdDone ..))
theorem keeps_plainDone {s : State} {r : Option State} (h : KeepsOpt s r) (c : Cmd) : Keeps s (s.plainDone c r) := by
  cases r with
  | none => exact keeps_cmdDone ..
  | some t => exact (h.keeps t rfl).trans (keeps_cmdDone ..)
theorem keeps_execCmdNop (n : Fin 16) (s : State) : KeepsRes s (execCmdNop n s) :=
  keepsRes_runCmd (fun _ _ => keeps_cmdDone ..)
theorem keeps_execStatusCmd (n : Fin 16) (s : State) : KeepsRes s (execStatusCmd n s) :=
  keepsRes_runCmd (fun _ _ => keeps_dataOut ..)
theorem keeps_execReadMem (n : Fin 16) (s : State) : KeepsRes s (execReadMem n s) :=
  keepsRes_runCmd (fun _ _ => keeps_dataOut ..)
theorem keeps_execReadSym (n : Fin 16) (s : State) : KeepsRes s (execReadSym n s) := by
  unfold execReadSym
  refine keepsRes_runCmd (fun _ _ => ?_)
  split
  · exact keeps_cmdDone ..
  · exact Keeps.ite (keeps_cmdDone ..) (Keeps.ite (Keeps.ite (Keeps.after (keeps_dataOut ..) <| keeps_mcAccess ..)
      (Keeps.after (keeps_cmdDone ..) <| keeps_mcAccess ..)) (keeps_modCmd ..))
theorem keeps_execCanTx (n : Fin 16) (s : State) : KeepsRes s (execCanTx n s) :=
  keepsRes_runCmd (fun _ _ => Keeps.ite (keeps_cmdDone ..) (Keeps.after (keeps_cmdDone ..) <|
    Keeps.after (keeps_canQueueBuf ..) <| keeps_setBuf ..))
theorem keeps_execRecRead (n : Fin 16) (s : State) : KeepsRes s (execRecRead n s) :=
  keepsRes_runCmd (fun _ _ => keeps_dataOut ..)
theorem keeps_recAsk (s : State) (action : Nat) (a : Asker) : KeepsOpt s (s.recAsk action a) := by
  unfold State.recAsk
  split
  · exact keeps_freeze ..
  · exact KeepsOpt.map (keeps_unfreeze ..) fun _ => keeps_tellAsker ..
  · exact keeps_rearm ..
  · exact KeepsOpt.none
theorem keeps_recCmd (s : State) (n action : Nat) : KeepsRes s (s.recCmd n action) := by
  unfold State.recCmd
  split
  · exact KeepsRes.next (Keeps.refl s)
  refine KeepsRes.ite (keepsRes_runCmd fun s c => ?_) (.next (Keeps.refl s))
  exact Keeps.getD (KeepsOpt.after (keeps_recAsk ..) (keeps_modCmd ..)) (keeps_cmdDone ..)
theorem keeps_execRecCtrlFreeze (n : Fin 16) (s : State) : KeepsRes s (execRecCtrlFreeze n s) := keeps_recCmd ..
theorem keeps_execRecCtrlUnfreeze (n : Fin 16) (s : State) : KeepsRes s (execRecCtrlUnfreeze n s) := keeps_recCmd ..
theorem keeps_execRecCtrlRearm (n : Fin 16) (s : State) : KeepsRes s (execRecCtrlRearm n s) := keeps_recCmd ..
theorem keeps_execTcRead (n : Fin 16) (s : State) : KeepsRes s (execTcRead n s) :=
  keepsRes_runCmd (fun _ _ => keeps_dataOut ..)
theorem keeps_execBulkSend (n : Fin 16) (s : State) : KeepsRes s (execBulkSend n s) :=
  keepsRes_runCmd (fun _ _ => Keeps.after (keeps_drayShow ..) <| Keeps.after (keeps_dray ..) <| keeps_modCmd ..)
theorem keeps_execConfigCmd (n : Fin 16) (s : State) : KeepsRes s (execConfigCmd n s) := by
  refine keepsRes_runCmd (fun s c => ?_)
  have h := keeps_writePairs s c.dataBytes
  generalize s.writePairs c.dataBytes = x at h ⊢
  dsimp only
  split
  · exact Keeps.after (keeps_cmdDone ..) h
  · exact Keeps.after (keeps_cmdDone ..) <| Keeps.after (keeps_sendFor ..) h

end Sys2Proof.Machine
end

section
/-! What whole operations keep: commands of the rings that change. -/

namespace Sys2Proof.Machine

theorem keeps_execValueWrite (n : Fin 16) (s : State) : KeepsRes s (execValueWrite n s) :=
  keepsRes_runCmd (fun _ _ => keeps_statusDone (keeps_vwQueue ..) ..)
theorem keeps_execForceSet (n : Fin 16) (s : State) : KeepsRes s (execForceSet n s) :=
  keepsRes_runCmd (fun _ _ => keeps_statusDone (keeps_forceSet ..) ..)
theorem keeps_execForceRelease (n : Fin 16) (s : State) : KeepsRes s (execForceRelease n s) :=
  keepsRes_runCmd (fun _ _ => keeps_statusDone (keeps_forceRelease ..) ..)
theorem keeps_execPkgLoad (n : Fin 16) (s : State) : KeepsRes s (execPkgLoad n s) :=
  keepsRes_runCmd (fun _ _ => keeps_statusDone (keeps_pkgLoad ..) ..)
theorem keeps_execPkgSwitch (n : Fin 16) (s : State) : KeepsRes s (execPkgSwitch n s) :=
  keepsRes_runCmd (fun _ _ => keeps_olcDone (keeps_pkgSwitch ..) ..)
theorem keeps_execPkgCancel (n : Fin 16) (s : State) : KeepsRes s (execPkgCancel n s) :=
  keepsRes_runCmd (fun _ _ => keeps_olcDone (keeps_pkgCancel ..) ..)
theorem keeps_execPkgDiscard (n : Fin 16) (s : State) : KeepsRes s (execPkgDiscard n s) :=
  keepsRes_runCmd (fun _ _ => keeps_olcDone (keeps_pkgDiscard ..) ..)
theorem keeps_execConstPatch (n : Fin 16) (s : State) : KeepsRes s (execConstPatch n s) :=
  keepsRes_runCmd (fun _ _ => keeps_statusDone (keeps_constPatch ..) ..)
theorem keeps_setKey (s : State) (k : Nat) (key : Option (BitVec 256)) : Keeps s (s.setKey k key) :=
  Keeps.after (keeps_fsetb ..) <| keeps_olc ..
theorem keeps_execKeyEnrol (n : Fin 16) (s : State) : KeepsRes s (execKeyEnrol n s) :=
  keepsRes_runCmd (fun _ _ => keeps_plainDone (KeepsOpt.ite KeepsOpt.none (KeepsOpt.some (keeps_setKey ..))) ..)
theorem keeps_execKeyRemove (n : Fin 16) (s : State) : KeepsRes s (execKeyRemove n s) :=
  keepsRes_runCmd (fun _ _ => keeps_plainDone (KeepsOpt.ite KeepsOpt.none (KeepsOpt.some (keeps_setKey ..))) ..)
theorem keeps_execScanStart (n : Fin 16) (s : State) : KeepsRes s (execScanStart n s) := by
  unfold execScanStart
  refine keepsRes_runCmd (fun _ _ => ?_)
  split
  · exact Keeps.after (keeps_cmdDone ..) <| (KeepsOpt.get (keeps_scanStart ..) ‹_›)
  · exact Keeps.after (keeps_cmdDone ..) <| keeps_ignoredIn ..
theorem keeps_execScanRestartCmd (n : Fin 16) (s : State) : KeepsRes s (execScanRestartCmd n s) :=
  keepsRes_runCmd (fun _ _ => keeps_plainDone (keeps_scanRestart ..) ..)
theorem keeps_execPairSwitch (n : Fin 16) (s : State) : KeepsRes s (execPairSwitch n s) := by
  unfold execPairSwitch
  refine keepsRes_runCmd (fun _ _ => ?_)
  split
  · exact Keeps.after (keeps_modCmd ..) <| (KeepsOpt.get (keeps_pairSwitch ..) ‹_›)
  · exact keeps_cmdDone ..
theorem keeps_serviceCmd (s : State) (c : Cmd) (into : Bool) : Keeps s (s.serviceCmd c into) :=
  Keeps.after (Keeps.ite (Keeps.refl _) (keeps_serviceMove ..)) <| Keeps.after (keeps_scan ..) <| keeps_modCmd ..
theorem keeps_execServiceEnter (n : Fin 16) (s : State) : KeepsRes s (execServiceEnter n s) :=
  keepsRes_runCmd (fun _ _ => Keeps.ite (keeps_cmdDone ..) (keeps_serviceCmd ..))
theorem keeps_execServiceLeave (n : Fin 16) (s : State) : KeepsRes s (execServiceLeave n s) :=
  keepsRes_runCmd (fun _ _ => keeps_serviceCmd ..)
theorem keeps_execHistSub (n : Fin 16) (s : State) : KeepsRes s (execHistSub n s) := by
  unfold execHistSub
  refine keepsRes_runCmd (fun _ _ => ?_)
  split
  · exact keeps_cmdDone ..
  · exact Keeps.after (keeps_cmdDone ..) <| Keeps.after (keeps_sendFor ..) <| (KeepsOpt.get (keeps_histSub ..) ‹_›)
theorem keeps_answerForwarded (s : State) (ring : Nat) (c : Cmd) : Keeps s (s.answerForwarded ring c) := by
  unfold State.answerForwarded
  split
  · exact keeps_send ..
  · exact keeps_send ..
  · exact Keeps.getD (keeps_recAsk ..) (keeps_send ..)
  · exact Keeps.ite (keeps_send ..) (Keeps.after (keeps_send ..) (keeps_cartError ..))
  · exact Keeps.refl s
theorem keeps_execForwardedCommandRx (id : Nat) (ring : Fin 16) (desc : Desc) (s : State) : KeepsRes s
    (execForwardedCommandRx id ring desc s) :=
  KeepsRes.onceOnly (Keeps.refl _) (Keeps.ite (keeps_answerForwarded ..) (Keeps.refl _))
theorem keeps_execForwardedReplyRx (id : Nat) (ring : Fin 16) (status result : W32) (data : List Byte) (s : State) :
    KeepsRes s (execForwardedReplyRx id ring status result data s) := by
  unfold execForwardedReplyRx
  refine KeepsRes.onceOnly (Keeps.refl _) ?_
  split
  · exact keeps_dataOut ..
  · exact Keeps.refl _
theorem keeps_execPartnerAnswerTimeout (ring : Fin 16) (s : State) : KeepsRes s (execPartnerAnswerTimeout ring s) :=
    by
  unfold execPartnerAnswerTimeout
  split
  · exact KeepsRes.next (keeps_cmdDone ..)
  · exact KeepsRes.next (Keeps.refl _)
theorem keeps_goesOn (be : Fin 32) (w : Window) (x : W32) (s : State) (w' : Window) : Keeps s (goesOn be w x s w') :=
  Keeps.after (keeps_setWin ..) <| keeps_stepRecord ..
theorem keeps_raises (be : Fin 32) (w : Window) (x : W32) (s : State) (e : Exc) (pc : BitVec 24) (imm : BitVec 16)
    (addr : W64) : Keeps s (raises be w x s e pc imm addr) :=
  Keeps.after (keeps_traceEnter ..) <| Keeps.after (keeps_exception ..) <| keeps_stepRecord ..
theorem keeps_refusedTo (s : State) (be : Fin 32) (w : Window) (k : AccKind) (a cause : Nat) : Keeps s (s.refusedTo be
    w k a cause) :=
  Keeps.ite (Keeps.refl _) (keeps_catRefuse ..)

end Sys2Proof.Machine
end

section
namespace Sys2Proof.Machine

/-- Every command completes, and keeps what `Keeps` says. -/
theorem exec_keeps (c : Instr) (s : State) : KeepsRes s (exec c s) :=
  match c with
  | .setupWrite .. => keeps_execSetupWrite ..
  | .readLoLatch .. => keeps_execReadLoLatch ..
  | .w1cClear .. => keeps_execW1cClear ..
  | .blockApply .. => keeps_execBlockApply ..
  | .planActivation .. => keeps_execPlanActivation ..
  | .tcWrite .. => keeps_execTcWrite ..
  | .clusterClockGate .. => keeps_execClusterClockGate ..
  | .clusterPllPowerDown .. => keeps_execClusterPllPowerDown ..
  | .clusterPllRelockStart .. => keeps_execClusterPllRelockStart ..
  | .clusterPllLocked .. => keeps_execClusterPllLocked ..
  | .pllLossOfLock .. => keeps_execPllLossOfLock ..
  | .clusterReenter .. => keeps_execClusterReenter ..
  | .ocxoFailure .. => keeps_execOcxoFailure ..
  | .ocxoRecovery .. => keeps_execOcxoRecovery ..
  | .mcLockstepMismatch .. => keeps_execMcLockstepMismatch ..
  | .mcSelftestComplete .. => keeps_execMcSelftestComplete ..
  | .fBoundary .. => keeps_execFBoundary ..
  | .fImageComplete .. => keeps_execFImageComplete ..
  | .errorBudgetExpiry .. => keeps_execErrorBudgetExpiry ..
  | .nsImageComplete .. => keeps_execNsImageComplete ..
  | .errorEventRaised .. => keeps_execErrorEventRaised ..
  | .classCommit .. => keeps_execClassCommit ..
  | .copyEnd .. => keeps_execCopyEnd ..
  | .carryOverComplete .. => keeps_execCarryOverComplete ..
  | .carryOverDeadline .. => keeps_execCarryOverDeadline ..
  | .switchWaitExpiry .. => keeps_execSwitchWaitExpiry ..
  | .sealTimeout .. => keeps_execSealTimeout ..
  | .periodLate .. => keeps_execPeriodLate ..
  | .watchdogTrip .. => keeps_execWatchdogTrip ..
  | .restartBoundary .. => keeps_execRestartBoundary ..
  | .scanCtrlStart .. => keeps_execScanCtrlStart ..
  | .scanClrMax .. => keeps_execScanClrMax ..
  | .scanRestart .. => keeps_execScanRestart ..
  | .workTake .. => keeps_execWorkTake ..
  | .windowTimeLimit .. => keeps_execWindowTimeLimit ..
  | .windowStoreLimit .. => keeps_execWindowStoreLimit ..
  | .windowCommitEnd .. => keeps_execWindowCommitEnd ..
  | .drupeletSelftestVerdict .. => keeps_execDrupeletSelftestVerdict ..
  | .auditReplicaComplete .. => keeps_execAuditReplicaComplete ..
  | .brmClrCnt .. => keeps_execBrmClrCnt ..
  | .brmUnretire .. => keeps_execBrmUnretire ..
  | .add .. => keeps_execAdd ..
  | .sub .. => keeps_execSub ..
  | .and .. => keeps_execAnd ..
  | .or .. => keeps_execOr ..
  | .xor .. => keeps_execXor ..
  | .shl .. => keeps_execShl ..
  | .shr .. => keeps_execShr ..
  | .sar .. => keeps_execSar ..
  | .ror .. => keeps_execRor ..
  | .slt .. => keeps_execSlt ..
  | .sltu .. => keeps_execSltu ..
  | .seq .. => keeps_execSeq ..
  | .min .. => keeps_execMin ..
  | .max .. => keeps_execMax ..
  | .minu .. => keeps_execMinu ..
  | .maxu .. => keeps_execMaxu ..
  | .mul .. => keeps_execMul ..
  | .mulh .. => keeps_execMulh ..
  | .mulhu .. => keeps_execMulhu ..
  | .div .. => keeps_execDiv ..
  | .divu .. => keeps_execDivu ..
  | .rem .. => keeps_execRem ..
  | .remu .. => keeps_execRemu ..
  | .addw .. => keeps_execAddw ..
  | .subw .. => keeps_execSubw ..
  | .mulw .. => keeps_execMulw ..
  | .addsat .. => keeps_execAddsat ..
  | .subsat .. => keeps_execSubsat ..
  | .clz .. => keeps_execClz ..
  | .popc .. => keeps_execPopc ..
  | .sel .. => keeps_execSel ..
  | .fadd .. => keeps_execFadd ..
  | .fsub .. => keeps_execFsub ..
  | .fmul .. => keeps_execFmul ..
  | .fdiv .. => keeps_execFdiv ..
  | .fsqrt .. => keeps_execFsqrt ..
  | .fmin .. => keeps_execFmin ..
  | .fmax .. => keeps_execFmax ..
  | .fabs .. => keeps_execFabs ..
  | .fneg .. => keeps_execFneg ..
  | .feq .. => keeps_execFeq ..
  | .flt .. => keeps_execFlt ..
  | .fle .. => keeps_execFle ..
  | .fmadd .. => keeps_execFmadd ..
  | .fmsub .. => keeps_execFmsub ..
  | .fnmadd .. => keeps_execFnmadd ..
  | .fnmsub .. => keeps_execFnmsub ..
  | .fcvti .. => keeps_execFcvti ..
  | .fcvtu .. => keeps_execFcvtu ..
  | .icvtf .. => keeps_execIcvtf ..
  | .ucvtf .. => keeps_execUcvtf ..
  | .fwiden .. => keeps_execFwiden ..
  | .fnarrow .. => keeps_execFnarrow ..
  | .fcvtiz .. => keeps_execFcvtiz ..
  | .fcvtuz .. => keeps_execFcvtuz ..
  | .bextu .. => keeps_execBextu ..
  | .bexts .. => keeps_execBexts ..
  | .bins .. => keeps_execBins ..
  | .addi .. => keeps_execAddi ..
  | .andi .. => keeps_execAndi ..
  | .ori .. => keeps_execOri ..
  | .xori .. => keeps_execXori ..
  | .slti .. => keeps_execSlti ..
  | .sltiu .. => keeps_execSltiu ..
  | .shi .. => keeps_execShi ..
  | .lui .. => keeps_execLui ..
  | .ibset .. => keeps_execIbset ..
  | .cbset .. => keeps_execCbset ..
  | .mfs .. => keeps_execMfs ..
  | .mts .. => keeps_execMts ..
  | .nop .. => keeps_execNop ..
  | .wend .. => keeps_execWend ..
  | .chend .. => keeps_execChend ..
  | .trap .. => keeps_execTrap ..
  | .jr .. => keeps_execJr ..
  | .callr .. => keeps_execCallr ..
  | .ret .. => keeps_execRet ..
  | .ldb .. => keeps_execLdb ..
  | .ldbs .. => keeps_execLdbs ..
  | .ldh .. => keeps_execLdh ..
  | .ldhs .. => keeps_execLdhs ..
  | .ldw .. => keeps_execLdw ..
  | .ldws .. => keeps_execLdws ..
  | .ldd .. => keeps_execLdd ..
  | .stb .. => keeps_execStb ..
  | .sth .. => keeps_execSth ..
  | .stw .. => keeps_execStw ..
  | .std .. => keeps_execStd ..
  | .ldxb .. => keeps_execLdxb ..
  | .ldxbs .. => keeps_execLdxbs ..
  | .ldxh .. => keeps_execLdxh ..
  | .ldxhs .. => keeps_execLdxhs ..
  | .ldxw .. => keeps_execLdxw ..
  | .ldxws .. => keeps_execLdxws ..
  | .ldxd .. => keeps_execLdxd ..
  | .stxb .. => keeps_execStxb ..
  | .stxh .. => keeps_execStxh ..
  | .stxw .. => keeps_execStxw ..
  | .stxd .. => keeps_execStxd ..
  | .bbs .. => keeps_execBbs ..
  | .bbc .. => keeps_execBbc ..
  | .beq .. => keeps_execBeq ..
  | .bne .. => keeps_execBne ..
  | .blt .. => keeps_execBlt ..
  | .bge .. => keeps_execBge ..
  | .bltu .. => keeps_execBltu ..
  | .bgeu .. => keeps_execBgeu ..
  | .j .. => keeps_execJ ..
  | .call .. => keeps_execCall ..
  | .reflexFrameBoundary .. => keeps_execReflexFrameBoundary ..
  | .armedEventDispatch .. => keeps_execArmedEventDispatch ..
  | .passCommit .. => keeps_execPassCommit ..
  | .reflexSelftestVerdict .. => keeps_execReflexSelftestVerdict ..
  | .mailboxStaleTimeout .. => keeps_execMailboxStaleTimeout ..
  | .rfxArm .. => keeps_execRfxArm ..
  | .rfxDisarm .. => keeps_execRfxDisarm ..
  | .rfxClrCnt .. => keeps_execRfxClrCnt ..
  | .rfxClrMaxlat .. => keeps_execRfxClrMaxlat ..
  | .rfxUnretire .. => keeps_execRfxUnretire ..
  | .packageCheckDone .. => keeps_execPackageCheckDone ..
  | .pkgCheckReportRx .. => keeps_execPkgCheckReportRx ..
  | .olcDiscard .. => keeps_execOlcDiscard ..
  | .olcSwitchRequest .. => keeps_execOlcSwitchRequest ..
  | .olcCancel .. => keeps_execOlcCancel ..
  | .claimAssert .. => keeps_execClaimAssert ..
  | .claimDrop .. => keeps_execClaimDrop ..
  | .rfxSilent .. => keeps_execRfxSilent ..
  | .connectorParts .. => keeps_execConnectorParts ..
  | .tokenRise .. => keeps_execTokenRise ..
  | .loopRampEnd .. => keeps_execLoopRampEnd ..
  | .islandLinkFrameRx .. => keeps_execIslandLinkFrameRx ..
  | .islandLinkFault .. => keeps_execIslandLinkFault ..
  | .leverOpen .. => keeps_execLeverOpen ..
  | .leverClose .. => keeps_execLeverClose ..
  | .drawbarLaneLoss .. => keeps_execDrawbarLaneLoss ..
  | .drawbarRetrainDone .. => keeps_execDrawbarRetrainDone ..
  | .drawbarLaneReturn .. => keeps_execDrawbarLaneReturn ..
  | .drawbarMsgRepeat .. => keeps_execDrawbarMsgRepeat ..
  | .heartbeatSend .. => keeps_execHeartbeatSend ..
  | .heartbeatRx .. => keeps_execHeartbeatRx ..
  | .pathSilent .. => keeps_execPathSilent ..
  | .tripNoticeRx .. => keeps_execTripNoticeRx ..
  | .copyBlockRx .. => keeps_execCopyBlockRx ..
  | .sealRecordRx .. => keeps_execSealRecordRx ..
  | .sealAckRx .. => keeps_execSealAckRx ..
  | .resyncDemandRx .. => keeps_execResyncDemandRx ..
  | .resyncRequestRx .. => keeps_execResyncRequestRx ..
  | .fullCopyRx .. => keeps_execFullCopyRx ..
  | .sweepUnitRx .. => keeps_execSweepUnitRx ..
  | .sweepUnitRequestRx .. => keeps_execSweepUnitRequestRx ..
  | .auditVerdictRx .. => keeps_execAuditVerdictRx ..
  | .dirtyRequestRx .. => keeps_execDirtyRequestRx ..
  | .handoverRequestRx .. => keeps_execHandoverRequestRx ..
  | .configForwardRx .. => keeps_execConfigForwardRx ..
  | .pkgBlockRx .. => keeps_execPkgBlockRx ..
  | .forwardedCommandRx .. => keeps_execForwardedCommandRx ..
  | .agreementTimeout .. => keeps_execAgreementTimeout ..
  | .takeoverStart .. => keeps_execTakeoverStart ..
  | .pairCtrlSwitch .. => keeps_execPairCtrlSwitch ..
  | .pairLeave .. => keeps_execPairLeave ..
  | .pairClrCopyMax .. => keeps_execPairClrCopyMax ..
  | .roleDecision .. => keeps_execRoleDecision ..
  | .islandStatusFrame .. => keeps_execIslandStatusFrame ..
  | .logicSilent .. => keeps_execLogicSilent ..
  | .holdExpiry .. => keeps_execHoldExpiry ..
  | .framesResume .. => keeps_execFramesResume ..
  | .filterStateChange .. => keeps_execFilterStateChange ..
  | .inputThresholdCheck .. => keeps_execInputThresholdCheck ..
  | .outputLatchOff .. => keeps_execOutputLatchOff ..
  | .outputRetry .. => keeps_execOutputRetry ..
  | .readbackFaultSet .. => keeps_execReadbackFaultSet ..
  | .readbackFaultClear .. => keeps_execReadbackFaultClear ..
  | .lplusWarning .. => keeps_execLplusWarning ..
  | .lplusWarningClear .. => keeps_execLplusWarningClear ..
  | .outputsOff .. => keeps_execOutputsOff ..
  | .supplyRecovery .. => keeps_execSupplyRecovery ..
  | .islandPowerDown .. => keeps_execIslandPowerDown ..
  | .islandStart .. => keeps_execIslandStart ..
  | .complianceSet .. => keeps_execComplianceSet ..
  | .complianceClear .. => keeps_execComplianceClear ..
  | .mainPathFailure .. => keeps_execMainPathFailure ..
  | .loopReadbackFault .. => keeps_execLoopReadbackFault ..
  | .loopCalibration .. => keeps_execLoopCalibration ..
  | .dioClrCnt .. => keeps_execDioClrCnt ..
  | .dioClrMin .. => keeps_execDioClrMin ..
  | .aoRetest .. => keeps_execAoRetest ..
  | .aoClrCnt .. => keeps_execAoClrCnt ..
  | .thresholdEventChange .. => keeps_execThresholdEventChange ..
  | .sequencerStep .. => keeps_execSequencerStep ..
  | .sequencerTimeout .. => keeps_execSequencerTimeout ..
  | .captureEnd .. => keeps_execCaptureEnd ..
  | .decimationUp .. => keeps_execDecimationUp ..
  | .decimationDown .. => keeps_execDecimationDown ..
  | .acqCalibration .. => keeps_execAcqCalibration ..
  | .skewMeasurement .. => keeps_execSkewMeasurement ..
  | .skewLate .. => keeps_execSkewLate ..
  | .acqEnable .. => keeps_execAcqEnable ..
  | .acqDisable .. => keeps_execAcqDisable ..
  | .acqArm .. => keeps_execAcqArm ..
  | .acqDisarm .. => keeps_execAcqDisarm ..
  | .acqForceTrig .. => keeps_execAcqForceTrig ..
  | .acqClrCnt .. => keeps_execAcqClrCnt ..
  | .ringExchangeStart .. => keeps_execRingExchangeStart ..
  | .ringFrameRx .. => keeps_execRingFrameRx ..
  | .exchangeDeadline .. => keeps_execExchangeDeadline ..
  | .ringPortDown .. => keeps_execRingPortDown ..
  | .ringJoin .. => keeps_execRingJoin ..
  | .peerFrameRx .. => keeps_execPeerFrameRx ..
  | .peerPeriodMiss .. => keeps_execPeerPeriodMiss ..
  | .ringClrCnt .. => keeps_execRingClrCnt ..
  | .canStart .. => keeps_execCanStart ..
  | .canStop .. => keeps_execCanStop ..
  | .canClrCnt .. => keeps_execCanClrCnt ..
  | .canIntegrationDone .. => keeps_execCanIntegrationDone ..
  | .canFrameRx .. => keeps_execCanFrameRx ..
  | .canTxSuccess .. => keeps_execCanTxSuccess ..
  | .canTxError .. => keeps_execCanTxError ..
  | .busoffDelayExpiry .. => keeps_execBusoffDelayExpiry ..
  | .busoffRecovery .. => keeps_execBusoffRecovery ..
  | .collideClear .. => keeps_execCollideClear ..
  | .transceiverFault .. => keeps_execTransceiverFault ..
  | .hostDoorbell .. => keeps_execHostDoorbell ..
  | .descriptorTake .. => keeps_execDescriptorTake ..
  | .completionBarrierDone .. => keeps_execCompletionBarrierDone ..
  | .cmdNop .. => keeps_execCmdNop ..
  | .statusCmd .. => keeps_execStatusCmd ..
  | .readMem .. => keeps_execReadMem ..
  | .readSym .. => keeps_execReadSym ..
  | .configCmd .. => keeps_execConfigCmd ..
  | .valueWrite .. => keeps_execValueWrite ..
  | .forceSet .. => keeps_execForceSet ..
  | .forceRelease .. => keeps_execForceRelease ..
  | .pkgLoad .. => keeps_execPkgLoad ..
  | .pkgSwitch .. => keeps_execPkgSwitch ..
  | .pkgCancel .. => keeps_execPkgCancel ..
  | .pkgDiscard .. => keeps_execPkgDiscard ..
  | .constPatch .. => keeps_execConstPatch ..
  | .keyEnrol .. => keeps_execKeyEnrol ..
  | .keyRemove .. => keeps_execKeyRemove ..
  | .scanStart .. => keeps_execScanStart ..
  | .scanRestartCmd .. => keeps_execScanRestartCmd ..
  | .pairSwitch .. => keeps_execPairSwitch ..
  | .serviceEnter .. => keeps_execServiceEnter ..
  | .serviceLeave .. => keeps_execServiceLeave ..
  | .canTx .. => keeps_execCanTx ..
  | .recRead .. => keeps_execRecRead ..
  | .recCtrlFreeze .. => keeps_execRecCtrlFreeze ..
  | .recCtrlUnfreeze .. => keeps_execRecCtrlUnfreeze ..
  | .recCtrlRearm .. => keeps_execRecCtrlRearm ..
  | .tcRead .. => keeps_execTcRead ..
  | .bulkSend .. => keeps_execBulkSend ..
  | .histSub .. => keeps_execHistSub ..
  | .hostCqHead .. => keeps_execHostCqHead ..
  | .hostEqHead .. => keeps_execHostEqHead ..
  | .hostRingEn .. => keeps_execHostRingEn ..
  | .hostResume .. => keeps_execHostResume ..
  | .hostClrCnt .. => keeps_execHostClrCnt ..
  | .ringEngineHalt .. => keeps_execRingEngineHalt ..
  | .hostLinkLoss .. => keeps_execHostLinkLoss ..
  | .dmaTransferDone .. => keeps_execDmaTransferDone ..
  | .dmaHalt .. => keeps_execDmaHalt ..
  | .dmaRetry .. => keeps_execDmaRetry ..
  | .dmaAbort .. => keeps_execDmaAbort ..
  | .dmaClrCnt .. => keeps_execDmaClrCnt ..
  | .drayLaneUp .. => keeps_execDrayLaneUp ..
  | .drayLaneDown .. => keeps_execDrayLaneDown ..
  | .creditFrameRx .. => keeps_execCreditFrameRx ..
  | .drayFrameStart .. => keeps_execDrayFrameStart ..
  | .drayDry .. => keeps_execDrayDry ..
  | .drayClrCnt .. => keeps_execDrayClrCnt ..
  | .ptpSyncRx .. => keeps_execPtpSyncRx ..
  | .ptpDelayRespRx .. => keeps_execPtpDelayRespRx ..
  | .ptpAnnounceRx .. => keeps_execPtpAnnounceRx ..
  | .announceTimeout .. => keeps_execAnnounceTimeout ..
  | .syncLoss .. => keeps_execSyncLoss ..
  | .parentQualified .. => keeps_execParentQualified ..
  | .leapSecond .. => keeps_execLeapSecond ..
  | .ptpMasterEnable .. => keeps_execPtpMasterEnable ..
  | .timeSnap .. => keeps_execTimeSnap ..
  | .timeClrCnt .. => keeps_execTimeClrCnt ..
  | .timeSet .. => keeps_execTimeSet ..
  | .tb3Second .. => keeps_execTb3Second ..
  | .catEntAddrWrite .. => keeps_execCatEntAddrWrite ..
  | .catEntAttrWrite .. => keeps_execCatEntAttrWrite ..
  | .catBarrier .. => keeps_execCatBarrier ..
  | .catBarrierComplete .. => keeps_execCatBarrierComplete ..
  | .catClrFault .. => keeps_execCatClrFault ..
  | .catClrCnt .. => keeps_execCatClrCnt ..
  | .blockRepairRx .. => keeps_execBlockRepairRx ..
  | .repairTimeout .. => keeps_execRepairTimeout ..
  | .codeBlockRewrite .. => keeps_execCodeBlockRewrite ..
  | .scrubAccess .. => keeps_execScrubAccess ..
  | .fuseRepair .. => keeps_execFuseRepair ..
  | .memClrCnt .. => keeps_execMemClrCnt ..
  | .localScrubChain .. => keeps_execLocalScrubChain ..
  | .sweepDigest .. => keeps_execSweepDigest ..
  | .holdupMeasurement .. => keeps_execHoldupMeasurement ..
  | .holdupAbort .. => keeps_execHoldupAbort ..
  | .flashMigration .. => keeps_execFlashMigration ..
  | .wfClrCnt .. => keeps_execWfClrCnt ..
  | .recordAccept .. => keeps_execRecordAccept ..
  | .flushEnd .. => keeps_execFlushEnd ..
  | .freezeExpired .. => keeps_execFreezeExpired ..
  | .rearmEraseDone .. => keeps_execRearmEraseDone ..
  | .recFreeze .. => keeps_execRecFreeze ..
  | .recUnfreeze .. => keeps_execRecUnfreeze ..
  | .recRearm .. => keeps_execRecRearm ..
  | .recClrCnt .. => keeps_execRecClrCnt ..
  | .latchWarning .. => keeps_execLatchWarning ..
  | .latchClose .. => keeps_execLatchClose ..
  | .cartridgeFit .. => keeps_execCartridgeFit ..
  | .timeLineTimeout .. => keeps_execTimeLineTimeout ..
  | .tcSnapshot .. => keeps_execTcSnapshot ..
  | .meteringCompute .. => keeps_execMeteringCompute ..
  | .meteringPulse .. => keeps_execMeteringPulse ..
  | .cartridgeSupplyLoss .. => keeps_execCartridgeSupplyLoss ..
  | .verificationEnter .. => keeps_execVerificationEnter ..
  | .verificationLeave .. => keeps_execVerificationLeave ..
  | .idCmd .. => keeps_execIdCmd ..
  | .prCmd .. => keeps_execPrCmd ..
  | .pwCmd .. => keeps_execPwCmd ..
  | .ledCmd .. => keeps_execLedCmd ..
  | .lrCmd .. => keeps_execLrCmd ..
  | .selectorFrameRx .. => keeps_execSelectorFrameRx ..
  | .obsLaneDown .. => keeps_execObsLaneDown ..
  | .obsEndStep .. => keeps_execObsEndStep ..
  | .obsClrCnt .. => keeps_execObsClrCnt ..
  | .supplyRise .. => keeps_execSupplyRise ..
  | .coreRailsGood .. => keeps_execCoreRailsGood ..
  | .chipResetRelease .. => keeps_execChipResetRelease ..
  | .configCheckDone .. => keeps_execConfigCheckDone ..
  | .holdupReady .. => keeps_execHoldupReady ..
  | .doorbellRelease .. => keeps_execDoorbellRelease ..
  | .canFirstSecondRelease .. => keeps_execCanFirstSecondRelease ..
  | .firstSecondEnd .. => keeps_execFirstSecondEnd ..
  | .scanStartBoundary .. => keeps_execScanStartBoundary ..
  | .powerFailWarning .. => keeps_execPowerFailWarning ..
  | .shutdownPoint .. => keeps_execShutdownPoint ..
  | .holdupExhausted .. => keeps_execHoldupExhausted ..
  | .supplyReturnRestart .. => keeps_execSupplyReturnRestart ..
  | .pwrApply .. => keeps_execPwrApply ..
  | .pwrCfgStored .. => keeps_execPwrCfgStored ..
  | .pwrClrCnt .. => keeps_execPwrClrCnt ..
  | .sysClrCnt .. => keeps_execSysClrCnt ..
  | .sysRestart .. => keeps_execSysRestart ..
  | .sampleInstant .. => keeps_execSampleInstant ..
  | .canRxError .. => keeps_execCanRxError ..
  | .hostLinkUp .. => keeps_execHostLinkUp ..
  | .ringPortLinkUp .. => keeps_execRingPortLinkUp ..
  | .islandLinkReturn .. => keeps_execIslandLinkReturn ..
  | .obsLaneUp .. => keeps_execObsLaneUp ..
  | .drawbarAckRx .. => keeps_execDrawbarAckRx ..
  | .forwardedReplyRx .. => keeps_execForwardedReplyRx ..
  | .partnerAnswerTimeout .. => keeps_execPartnerAnswerTimeout ..
  | .drayFrameEnd .. => keeps_execDrayFrameEnd ..
  | .cartridgeRemoved .. => keeps_execCartridgeRemoved ..
  | .fitTimeLineWaitExpiry .. => keeps_execFitTimeLineWaitExpiry ..
  | .chipTemperatureWarning .. => keeps_execChipTemperatureWarning ..
  | .delayReqSend .. => keeps_execDelayReqSend ..
  | .masterSyncSend .. => keeps_execMasterSyncSend ..
  | .delayReqRx .. => keeps_execDelayReqRx ..
  | .observationFrameSend .. => keeps_execObservationFrameSend ..
  | .memoryWindowBurst .. => keeps_execMemoryWindowBurst ..
  | .rearmEraseComplete .. => keeps_execRearmEraseComplete ..
  | .legalPageDisplay .. => keeps_execLegalPageDisplay ..

/-- Settles O2: every meaning of the table is a total function of the state. -/
theorem everyCommandCompletes : Obligations.EveryCommandCompletes := by
  intro s c
  obtain ⟨t, ht, -⟩ := exec_keeps c s
  exact ⟨t, ht⟩

/-- Settles O4: each operation of the model keeps canonical form, the queue and what was sent, so each command does. -/
theorem stepKeepsTheModelsInvariant : Obligations.StepKeepsTheModelsInvariant := by
  intro s t h
  cases hp : s.pending with
  | nil =>
    simp only [step, hp, Host.Outcome.next.injEq] at h
    subst h
    obtain ⟨hi, hq, hm⟩ := keeps_tick s
    exact ⟨hi, hq.trans hp, hm⟩
  | cons c rest =>
    obtain ⟨u, hu, hi, hq, hm⟩ := exec_keeps c { s with pending := rest }
    simp only [step, hp, hu, Host.Outcome.next.injEq] at h
    subst h
    exact ⟨hi, hq, hm⟩

end Sys2Proof.Machine
end

section
/-! Registers and fields that an update leaves as they were, and fields that it sets. -/

namespace Sys2Proof.Machine

variable {s t u : State} {f g : Field} {off o v : Nat} {x : W32}

theorem fget_congr (h : t.rd f.off = s.rd f.off) : t.fget f = s.fget f := by simp only [State.fget, h]

@[simp] theorem regsWf_fsetb {b : Bool} (h : s.regsWf = true) : (s.fsetb f b).regsWf = true := regsWf_wr h
@[simp] theorem regsWf_bumpBy {k : Nat} (h : s.regsWf = true) : (s.bumpBy off k).regsWf = true := regsWf_wr h
@[simp] theorem regsWf_bump (h : s.regsWf = true) : (s.bump off).regsWf = true := regsWf_wr h
@[simp] theorem regsWf_bumpF (h : s.regsWf = true) : (s.bumpF f).regsWf = true := regsWf_wr h
@[simp] theorem regsWf_wr64 {y : W64} (h : s.regsWf = true) : (s.wr64 off y).regsWf = true := regsWf_wr (regsWf_wr h)
@[simp] theorem regsWf_ignoredIn {b : Nat} (h : s.regsWf = true) : (s.ignoredIn b).regsWf = true := regsWf_wr h
@[simp] theorem regsWf_raise {e : Hap} {n : Nat} {ps : List W64} : (s.raise e n ps).regsWf = s.regsWf := rfl
@[simp] theorem regsWf_emit {e : Out} : (s.emit e).regsWf = s.regsWf := rfl
@[simp] theorem regsWf_setMod {m : ModState} (h : s.regsWf = true) : (s.setMod m).regsWf = true := regsWf_wr h

/-! Another register. -/

theorem rd_fsetb_ne {b : Bool} (h : o ≠ f.off) : (s.fsetb f b).rd o = s.rd o := rd_wr_ne h
theorem rd_bumpBy_ne {k : Nat} (h : o ≠ off) : (s.bumpBy off k).rd o = s.rd o := rd_wr_ne h
theorem rd_bump_ne (h : o ≠ off) : (s.bump off).rd o = s.rd o := rd_wr_ne h
theorem rd_bumpF_ne (h : o ≠ f.off) : (s.bumpF f).rd o = s.rd o := rd_wr_ne h
@[simp] theorem rd_raise {e : Hap} {n : Nat} {ps : List W64} : (s.raise e n ps).rd o = s.rd o := rfl
@[simp] theorem rd_emit {e : Out} : (s.emit e).rd o = s.rd o := rfl

/-! The register itself. -/

theorem rd_fset (h : s.regsWf = true) : (s.fset f v).rd f.off = BitVec.ofNat 32 (setFldN (s.rd f.off).toNat f.lo f.width v) :=
  rd_wr_self h

theorem toNat_rd_bumpBy {k : Nat} (h : s.regsWf = true) : ((s.bumpBy off k).rd off).toNat = satAdd 32 (s.rd off).toNat k := by
  have hlt : satAdd 32 (s.rd off).toNat k < 2 ^ 32 := by
    unfold satAdd
    omega
  rw [State.bumpBy, rd_wr_self h, BitVec.toNat_ofNat, Nat.mod_eq_of_lt hlt]

theorem toNat_rd_bump (h : s.regsWf = true) : ((s.bump off).rd off).toNat = satAdd 32 (s.rd off).toNat 1 := toNat_rd_bumpBy h

/-- The bits of a register beside a field that is set. -/
theorem getLsbD_fset_ne {i : Nat} (h : s.regsWf = true) (hw : f.lo + f.width ≤ 32) (hi : i < f.lo ∨ f.lo + f.width ≤ i) :
    ((s.fset f v).rd f.off).getLsbD i = (s.rd f.off).getLsbD i := by
  have hlt := setFldN_lt (s.rd f.off).toNat f.lo f.width v 32 (s.rd f.off).isLt hw
  rw [rd_fset h, BitVec.getLsbD, BitVec.toNat_ofNat, Nat.mod_eq_of_lt hlt, testBit_setFldN, BitVec.getLsbD]
  simp only [ite_eq_right_iff]
  omega

theorem fieldSet_fset (h : s.regsWf = true) (hw : f.lo + f.width ≤ 32) : fieldSet f (v % 2 ^ f.width) s (s.fset f v) :=
  ⟨fget_fset h hw, fun _ hi => getLsbD_fset_ne h hw hi⟩

/-- A field of a register that only an earlier update touched. -/
theorem fieldSet_of_rd (h : fieldSet f v s t) (hr : u.rd f.off = t.rd f.off) : fieldSet f v s u := by
  obtain ⟨hv, hb⟩ := h
  exact ⟨(fget_congr hr).trans hv, fun i hi => by rw [hr, hb i hi]⟩

theorem fieldSet_from_rd (h : fieldSet f v t u) (hr : t.rd f.off = s.rd f.off) : fieldSet f v s u := by
  obtain ⟨hv, hb⟩ := h
  exact ⟨hv, fun i hi => by rw [hb i hi, hr]⟩

/-! Frames. -/

theorem onlyRegs_mono {l l' : List Nat} (hl : ∀ o ∈ l, o ∈ l') (h : onlyRegs l s t) : onlyRegs l' s t :=
  ⟨h.1, keepsRegs_mono hl h.2⟩

theorem onlyRegs_refl (l : List Nat) : onlyRegs l s s := ⟨rfl, keepsRegs_refl l s⟩

theorem onlyRegs_foldl {α : Type} {h : State → α → State} {l : List α} {rs : List Nat}
    (hh : ∀ s, ∀ a ∈ l, onlyRegs rs s (h s a)) (s : State) : onlyRegs rs s (l.foldl h s) := by
  induction l generalizing s with
  | nil => exact onlyRegs_refl rs
  | cons a l ih =>
    exact onlyRegs_trans (hh s a List.mem_cons_self) (ih (fun s b hb => hh s b (List.mem_cons_of_mem a hb)) _)

theorem onlyRegs_ignoredIn (b : Nat) : onlyRegs [b * 0x1000 + (if b = 0xF then 0x14 else 0x10)] s (s.ignoredIn b) := onlyRegs_wr

/-! What a step over a list keeps, and what one of its steps brings about. -/

theorem foldl_keeps {α : Type} {h : State → α → State} {P : State → Prop} {l : List α} (hh : ∀ s, ∀ a ∈ l, P s → P (h s a)) (hs : P s) :
    P (l.foldl h s) := by
  induction l generalizing s with
  | nil => exact hs
  | cons a l ih => exact ih (fun s b hb => hh s b (List.mem_cons_of_mem a hb)) (hh s a List.mem_cons_self hs)

theorem foldl_reaches {α : Type} {h : State → α → State} {I P : State → Prop} {l : List α} {a : α} (ha : a ∈ l)
    (hI : ∀ s, ∀ b ∈ l, I s → I (h s b)) (hP : ∀ s, ∀ b ∈ l, I s → P s → P (h s b)) (hr : ∀ s, I s → P (h s a)) (hs : I s) :
    P (l.foldl h s) := by
  induction l generalizing s with
  | nil => exact absurd ha List.not_mem_nil
  | cons b l ih =>
    have hI' : ∀ s, ∀ c ∈ l, I s → I (h s c) := fun s c hc => hI s c (List.mem_cons_of_mem b hc)
    have hP' : ∀ s, ∀ c ∈ l, I s → P s → P (h s c) := fun s c hc => hP s c (List.mem_cons_of_mem b hc)
    have hb := hI s b List.mem_cons_self hs
    rcases List.mem_cons.mp ha with rfl | ha
    · exact (foldl_keeps (P := fun s => I s ∧ P s) (fun s c hc hc' => ⟨hI' s c hc hc'.1, hP' s c hc hc'.1 hc'.2⟩) ⟨hb, hr s hs⟩).2
    · exact ih ha hI' hP' hb

end Sys2Proof.Machine
end

section
/-! Clearing commands. -/

namespace Sys2Proof.Machine

variable {s t : State} {m : Master} {i : Instr} {off o : Nat} {l offs : List Nat}

/-- A command that sets a list of counters to 0, in whatever order it names them. -/
theorem clears_zero {f : State → State} (he : exec i s = s.asWrite m off f) (hf : f s = s.zero l) (hw : s.regsWf = true)
    (hl : ∀ o, o ∈ l ↔ o ∈ offs) (h : s.writes m off) : ∃ t, exec i s = .next t ∧ onlyRegs offs s t ∧ ∀ o ∈ offs, t.rd o = 0 := by
  refine ⟨s.zero l, by rw [he, asWrite_writes h, hf], onlyRegs_mono (fun o ho => (hl o).mp ho) (onlyRegs_zero l s), fun o ho => ?_⟩
  rw [rd_zero l hw, if_pos ((hl o).mpr ho)]

theorem pairCtrl_clrCopyMax : s.pairCtrl 3 0x5A17 = s.wr R.pairCopyMax 0 := rfl

/-- A register at 0 stays at 0 when a list is zeroed, or a field of any register is. -/
theorem rd_zero_of_zero (hw : s.regsWf = true) (h : s.rd o = 0) : (s.zero l).rd o = 0 := by
  rw [rd_zero l hw, h, ite_self]

theorem rd_fset_zero_of_zero {f : Field} (hw : s.regsWf = true) (h : s.rd o = 0) : (s.fset f 0).rd o = 0 := by
  by_cases e : o = f.off
  · subst e
    rw [rd_fset hw, h]
    simp [setFldN, fldN]
  · rw [rd_fset_ne e, h]

/-- What the CAN counters' command does for one port. -/
def canClrPort (s : State) (n : Nat) : State :=
  (s.zero [R.canChnTxok n, R.canChnRxok n, R.canChnErrs n, R.canChnAckerr n, R.canChnUnmatched n, R.canChnOverwrite n,
    R.canChnRxerr n]).fset (F.canChnColl_count n) 0

theorem canClrCnt_eq : s.canClrCnt = [0, 1, 2, 3].foldl canClrPort (s.zero [R.canRxDrop, R.canIgnored]) := rfl

theorem regsWf_canClrPort {n : Nat} (hw : s.regsWf = true) : (canClrPort s n).regsWf = true := regsWf_fset (regsWf_zero _ hw)

theorem canClrPort_of_zero {n : Nat} (hw : s.regsWf = true) (h : s.rd o = 0) : (canClrPort s n).rd o = 0 :=
  rd_fset_zero_of_zero (regsWf_zero _ hw) (rd_zero_of_zero hw h)

/-- The counters of a port are at 0 after its step. -/
theorem canClrPort_counters {n : Nat} (hw : s.regsWf = true) (ho : o ∈ [R.canChnTxok n, R.canChnRxok n, R.canChnErrs n,
    R.canChnAckerr n, R.canChnUnmatched n, R.canChnOverwrite n, R.canChnRxerr n]) : (canClrPort s n).rd o = 0 :=
  rd_fset_zero_of_zero (regsWf_zero _ hw) (by rw [rd_zero _ hw, if_pos ho])

theorem canChnColl_ne_counter (n k : Nat) : R.canChnColl k ∉ [R.canChnTxok n, R.canChnRxok n, R.canChnErrs n,
    R.canChnAckerr n, R.canChnUnmatched n, R.canChnOverwrite n, R.canChnRxerr n] := by
  simp only [R.canChnColl, R.canChnTxok, R.canChnRxok, R.canChnErrs, R.canChnAckerr, R.canChnUnmatched, R.canChnOverwrite,
    R.canChnRxerr, List.mem_cons, List.not_mem_nil, or_false, not_or]
  omega

theorem onlyRegs_canClrPort (n : Nat) (hn : n < 4) : onlyRegs ([R.canRxDrop, R.canIgnored] ++ (List.range 4).flatMap (fun n =>
    [R.canChnTxok n, R.canChnRxok n, R.canChnErrs n, R.canChnAckerr n, R.canChnUnmatched n, R.canChnOverwrite n,
      R.canChnRxerr n]) ++ (List.range 4).map R.canChnColl) s (canClrPort s n) := by
  refine onlyRegs_trans (onlyRegs_mono (fun o ho => ?_) (onlyRegs_zero _ s)) (onlyRegs_mono (fun o ho => ?_) onlyRegs_fset)
  · exact List.mem_append_left _ (List.mem_append_right _ (List.mem_flatMap.mpr ⟨n, List.mem_range.mpr hn, ho⟩))
  · rw [List.mem_singleton.mp ho]
    exact List.mem_append_right _ (List.mem_map.mpr ⟨n, List.mem_range.mpr hn, rfl⟩)

/-- A step over a list that clears one field of a register of its own each time. -/
theorem fieldSet_foldl {h : State → Nat → State} {F : Nat → Field} {l : List Nat} {a : Nat} (ha : a ∈ l)
    (hF : (F a).lo + (F a).width ≤ 32) (hwf : ∀ s, ∀ b ∈ l, s.regsWf = true → (h s b).regsWf = true)
    (hne : ∀ s, ∀ b ∈ l, s.regsWf = true → b ≠ a → (h s b).rd (F a).off = s.rd (F a).off)
    (heq : ∀ s, s.regsWf = true → (h s a).rd (F a).off = (s.fset (F a) 0).rd (F a).off) (hw : s.regsWf = true) :
    fieldSet (F a) 0 s (l.foldl h s) := by
  have hset (u : State) (hu : u.regsWf = true) : fieldSet (F a) 0 u (h u a) := by
    have hz := fieldSet_fset (v := 0) hu hF
    rw [Nat.zero_mod] at hz
    exact fieldSet_of_rd hz (heq u hu)
  let beside (u : State) : Prop := u.regsWf = true ∧
    ∀ i, (i < (F a).lo ∨ (F a).lo + (F a).width ≤ i) → (u.rd (F a).off).getLsbD i = (s.rd (F a).off).getLsbD i
  have hI : ∀ u, ∀ b ∈ l, beside u → beside (h u b) := by
    rintro u b hb ⟨hu, hbits⟩
    refine ⟨hwf u b hb hu, fun i hi => ?_⟩
    by_cases e : b = a
    · subst e
      rw [(hset u hu).2 i hi, hbits i hi]
    · rw [hne u b hb hu e, hbits i hi]
  have hs : beside s := ⟨hw, fun _ _ => rfl⟩
  refine ⟨?_, (foldl_keeps hI hs).2⟩
  refine foldl_reaches (P := fun u => u.fget (F a) = 0) ha hI (fun u b hb hu h0 => ?_) (fun u hu => (hset u hu.1).1) hs
  by_cases e : b = a
  · subst e
    exact (hset u hu.1).1
  · rw [fget_congr (hne u b hb hu.1 e), h0]

theorem fieldSet_canClrPorts {n : Nat} (hn : n < 4) (hw : s.regsWf = true) :
    fieldSet (F.canChnColl_count n) 0 s ([0, 1, 2, 3].foldl canClrPort s) := by
  have hl : ∀ u : State, ∀ b, (u.zero [R.canChnTxok b, R.canChnRxok b, R.canChnErrs b, R.canChnAckerr b, R.canChnUnmatched b,
      R.canChnOverwrite b, R.canChnRxerr b]).rd (F.canChnColl_count n).off = u.rd (F.canChnColl_count n).off := fun u b =>
    (onlyRegs_zero _ u).2 _ (canChnColl_ne_counter b n)
  refine fieldSet_foldl (F := F.canChnColl_count) ?_ (by simp [F.canChnColl_count]) (fun u b _ => regsWf_canClrPort) (fun u b _ hu hb => ?_)
    (fun u hu => ?_) hw
  · simp only [List.mem_cons, List.not_mem_nil, or_false]
    omega
  · rw [canClrPort, rd_fset_ne, hl]
    simp only [R.canChnColl]
    omega
  · rw [canClrPort, rd_fset (regsWf_zero _ hu), rd_fset hu, hl]

theorem clears_ring (hw : s.regsWf = true) :
    let offs := [R.ringLate, R.ringRxDrop, R.ringCopyDiff] ++ (List.range 4).map R.ringPpErr ++ (List.range 256).map R.ringStsMiss
      ++ (List.range 32).map R.ringPeerSjMiss
    onlyRegs (R.ringELast :: offs) s s.ringClrCnt ∧ (∀ o ∈ offs, s.ringClrCnt.rd o = 0) ∧
      fieldSet ⟨R.ringELast, 16, 16⟩ 0 s s.ringClrCnt := by
  intro offs
  have hz := regsWf_zero offs hw
  refine ⟨onlyRegs_trans (onlyRegs_mono (fun o ho => List.mem_cons_of_mem _ ho) (onlyRegs_zero offs s))
    (onlyRegs_mono (fun o ho => by rw [List.mem_singleton.mp ho]; exact List.mem_cons_self) onlyRegs_fset), fun o ho => ?_, ?_⟩
  · exact rd_fset_zero_of_zero hz (by rw [rd_zero offs hw, if_pos ho])
  · have hf := fieldSet_fset (f := ⟨R.ringELast, 16, 16⟩) (v := 0) hz (by decide)
    refine fieldSet_from_rd hf ((onlyRegs_zero offs s).2 _ ?_)
    have hlist : (offs.all (· != R.ringELast)) = true := by decide +kernel
    exact fun hc => by simpa using List.all_eq_true.mp hlist _ hc

theorem clears_can (hw : s.regsWf = true) :
    let offs := [R.canRxDrop, R.canIgnored] ++ (List.range 4).flatMap (fun n => [R.canChnTxok n, R.canChnRxok n, R.canChnErrs n,
      R.canChnAckerr n, R.canChnUnmatched n, R.canChnOverwrite n, R.canChnRxerr n])
    onlyRegs (offs ++ (List.range 4).map R.canChnColl) s s.canClrCnt ∧ (∀ o ∈ offs, s.canClrCnt.rd o = 0) ∧
      ∀ n, n < 4 → fieldSet (F.canChnColl_count n) 0 s s.canClrCnt := by
  intro offs
  have hz := regsWf_zero [R.canRxDrop, R.canIgnored] hw
  rw [canClrCnt_eq]
  refine ⟨onlyRegs_trans (onlyRegs_mono (fun o ho => List.mem_append_left _ (List.mem_append_left _ ho)) (onlyRegs_zero _ s))
    (onlyRegs_foldl (fun u n hn => onlyRegs_canClrPort n ?_) _), fun o ho => ?_, fun n hn => ?_⟩
  · simp only [List.mem_cons, List.not_mem_nil, or_false] at hn
    omega
  · rcases List.mem_append.mp ho with ho | ho
    · exact (foldl_keeps (P := fun u : State => u.regsWf = true ∧ u.rd o = 0)
        (fun u n _ hu => ⟨regsWf_canClrPort hu.1, canClrPort_of_zero hu.1 hu.2⟩) ⟨hz, by rw [rd_zero _ hw, if_pos ho]⟩).2
    · obtain ⟨n, hn, ho⟩ := List.mem_flatMap.mp ho
      refine foldl_reaches (I := fun u : State => u.regsWf = true) (P := fun u => u.rd o = 0) (a := n) ?_
        (fun u b _ => regsWf_canClrPort) (fun u b _ hu => canClrPort_of_zero hu) (fun u hu => canClrPort_counters hu ho) hz
      have := List.mem_range.mp hn
      simp only [List.mem_cons, List.not_mem_nil, or_false]
      omega
  · refine fieldSet_from_rd (fieldSet_canClrPorts hn hz) ((onlyRegs_zero _ s).2 _ ?_)
    simp only [R.canChnColl, R.canRxDrop, R.canIgnored, List.mem_cons, List.not_mem_nil, or_false, not_or]
    omega

theorem clears_host (hw : s.regsWf = true) :
    let offs := (List.range 2).flatMap (fun p => [R.hostPpEqLost p, R.hostPpCmds p])
    onlyRegs (offs ++ (List.range 16).map R.hostChnErr) s s.hostClrCnt ∧ (∀ o ∈ offs, s.hostClrCnt.rd o = 0) ∧
      ∀ n, n < 16 → fieldSet (F.hostChnErr_count n) 0 s s.hostClrCnt := by
  intro offs
  have hmem : ∀ o, o ∈ [R.hostPpEqLost 0, R.hostPpEqLost 1, R.hostPpCmds 0, R.hostPpCmds 1] ↔ o ∈ offs := by
    intro o
    simp only [offs, List.range_succ, List.range_zero, List.nil_append, List.flatMap_cons, List.flatMap_nil,
      List.append_nil, List.cons_append, List.mem_cons, List.not_mem_nil, or_false]
    tauto
  have hz := regsWf_zero [R.hostPpEqLost 0, R.hostPpEqLost 1, R.hostPpCmds 0, R.hostPpCmds 1] hw
  unfold State.hostClrCnt
  refine ⟨onlyRegs_trans (onlyRegs_mono (fun o ho => List.mem_append_left _ ((hmem o).mp ho)) (onlyRegs_zero _ s))
    (onlyRegs_foldl (fun u n hn => onlyRegs_mono (fun o ho => ?_) onlyRegs_fset) _), fun o ho => ?_, fun n hn => ?_⟩
  · rw [List.mem_singleton.mp ho]
    exact List.mem_append_right _ (List.mem_map.mpr ⟨n, hn, rfl⟩)
  · exact (foldl_keeps (P := fun u : State => u.regsWf = true ∧ u.rd o = 0)
      (fun u n _ hu => ⟨regsWf_fset hu.1, rd_fset_zero_of_zero hu.1 hu.2⟩) ⟨hz, by rw [rd_zero _ hw, if_pos ((hmem o).mpr ho)]⟩).2
  · refine fieldSet_from_rd (t := s.zero [R.hostPpEqLost 0, R.hostPpEqLost 1, R.hostPpCmds 0, R.hostPpCmds 1])
      (fieldSet_foldl (F := F.hostChnErr_count) (List.mem_range.mpr hn) (by simp [F.hostChnErr_count]) (fun u b _ => regsWf_fset)
        (fun u b _ _ hb => rd_fset_ne ?_) (fun u _ => rfl) hz) ((onlyRegs_zero _ s).2 _ ?_)
    · simp only [R.hostChnErr]
      omega
    · simp only [R.hostChnErr, R.hostPpEqLost, R.hostPpCmds, List.mem_cons, List.not_mem_nil, or_false, not_or]
      omega

theorem clears_catFault (hw : s.regsWf = true) :
    onlyRegs [R.catStatus, R.catFaultInfo] s s.catClrFault ∧
      fieldSet F.catStatus_fault 0 s s.catClrFault ∧ fieldSet F.catFaultInfo_valid 0 s s.catClrFault := by
  have h1 := fieldSet_fset (f := F.catStatus_fault) (v := 0) hw (by decide)
  have h2 := fieldSet_fset (f := F.catFaultInfo_valid) (v := 0) (regsWf_fset (f := F.catStatus_fault) (n := 0) hw) (by decide)
  exact ⟨onlyRegs_trans (onlyRegs_mono (by decide) onlyRegs_fset) (onlyRegs_mono (by decide) onlyRegs_fset),
    fieldSet_of_rd h1 (rd_fset_ne (by decide)), fieldSet_from_rd h2 (rd_fset_ne (by decide))⟩

theorem clears_power (hw : s.regsWf = true) :
    onlyRegs [R.pwrPfCnt, R.pwrRestarts, R.pwrVin] s s.pwrClrCnt ∧ s.pwrClrCnt.rd R.pwrPfCnt = 0 ∧
      s.pwrClrCnt.rd R.pwrRestarts = 0 ∧ s.pwrClrCnt.fget ⟨R.pwrVin, 0, 16⟩ = s.power.vin % 65536 ∧
      s.pwrClrCnt.fget ⟨R.pwrVin, 16, 16⟩ = s.power.vin % 65536 := by
  have hz := regsWf_zero [R.pwrPfCnt, R.pwrRestarts] hw
  have hv : s.pwrClrCnt.rd R.pwrVin = BitVec.ofNat 32 (s.power.vin % 65536 * 65537) := rd_wr_self hz
  have hn : s.power.vin % 65536 < 65536 := Nat.mod_lt _ (by decide)
  refine ⟨onlyRegs_trans (onlyRegs_mono (by decide) (onlyRegs_zero _ s)) (onlyRegs_mono (by decide) onlyRegs_wr), ?_, ?_, ?_, ?_⟩
  · rw [State.pwrClrCnt, rd_wr_ne (by decide), rd_zero _ hw, if_pos (by decide)]
  · rw [State.pwrClrCnt, rd_wr_ne (by decide), rd_zero _ hw, if_pos (by decide)]
  all_goals
    simp only [State.fget, hv, fldN, BitVec.toNat_ofNat, Nat.pow_zero, Nat.div_one, Nat.reducePow]
    rw [Nat.mod_eq_of_lt (show s.power.vin % 65536 * 65537 < 4294967296 by omega)]
    have hm : s.power.vin % 65536 * 65537 = 65536 * (s.power.vin % 65536) + s.power.vin % 65536 := by omega
    simp only [hm, Nat.mul_add_div (show 65536 > 0 by decide), Nat.div_eq_of_lt hn]
    omega

/-- The lowest value of L+ becomes the present one, which stands in the lower half. -/
theorem clears_dioMin (hw : s.regsWf = true) : fieldSet ⟨R.dioLplus, 16, 16⟩ (s.fget ⟨R.dioLplus, 0, 16⟩) s s.dioClrMin := by
  have hv : s.dioClrMin.rd R.dioLplus = BitVec.ofNat 32 (2 ^ 16 * ((s.rd R.dioLplus).toNat % 2 ^ 16) + (s.rd R.dioLplus).toNat % 2 ^ 16) := by
    rw [State.dioClrMin, rd_wr_self hw]
    congr 1
    simp only [fldN, Nat.pow_zero, Nat.div_one]
    omega
  have hlt : (s.rd R.dioLplus).toNat % 2 ^ 16 < 2 ^ 16 := Nat.mod_lt _ (by decide)
  refine ⟨?_, fun i hi => ?_⟩
  · simp only [State.fget, hv, fldN, BitVec.toNat_ofNat, Nat.pow_zero, Nat.div_one, Nat.reducePow]
    simp only [Nat.reducePow] at hlt
    generalize (s.rd R.dioLplus).toNat % 65536 = n at hlt ⊢
    rw [Nat.mod_eq_of_lt (show 65536 * n + n < 4294967296 by omega), Nat.mul_add_div (by decide), Nat.div_eq_of_lt hlt]
    omega
  · rcases hi with hi | hi
    · rw [hv, BitVec.getLsbD, BitVec.toNat_ofNat, Nat.testBit_mod_two_pow, Nat.testBit_two_pow_mul_add _ hlt,
        Nat.testBit_mod_two_pow, BitVec.getLsbD]
      simp only at hi
      simp [hi, show i < 32 by omega]
    · rw [BitVec.getLsbD_of_ge _ i hi, BitVec.getLsbD_of_ge _ i hi]

/-- Settles O22, command by command: the lists that are set to 0, and the fields that are. -/
theorem clearingCommands : Obligations.ClearingCommands := by
  refine ⟨fun m s hw => ?_, fun m s hw => ⟨?_, ?_, ?_, ?_, ?_, ?_, ?_⟩⟩
  · intro clears
    refine ⟨?_, ?_, ?_, ?_, ?_, ?_, ?_, ?_, ?_, ?_, ?_, ?_, ?_, ?_, ?_, ?_, ?_⟩
    · exact clears_zero (f := State.scanClrMax) rfl rfl hw (fun _ => Iff.rfl)
    · exact clears_zero (f := State.brmClrCnt) rfl rfl hw (fun _ => Iff.rfl)
    · exact clears_zero (f := State.rfxClrCnt) rfl rfl hw (fun _ => Iff.rfl)
    · exact clears_zero (f := State.rfxClrMaxlat) rfl (l := [R.rfxMaxlat]) rfl hw (fun _ => Iff.rfl)
    · exact clears_zero (f := fun s => s.pairCtrl 3 0x5A17) rfl (l := [R.pairCopyMax]) pairCtrl_clrCopyMax hw (fun _ => Iff.rfl)
    · exact clears_zero (f := State.dioClrCnt) rfl rfl hw (fun _ => Iff.rfl)
    · exact clears_zero (f := State.aoClrCnt) rfl rfl hw (fun _ => Iff.rfl)
    · exact clears_zero (f := State.acqClrCnt) rfl rfl hw (fun _ => Iff.rfl)
    · exact clears_zero (f := State.dmaClrCnt) rfl rfl hw (fun _ => Iff.rfl)
    · exact clears_zero (f := State.drayClrCnt) rfl rfl hw (fun _ => Iff.rfl)
    · refine clears_zero (f := State.timeClrCnt) rfl rfl hw (fun o => ?_)
      simp only [List.range_succ, List.range_zero, List.nil_append, List.flatMap_cons, List.flatMap_nil,
        List.append_nil, List.cons_append, List.mem_cons, List.not_mem_nil, or_false]
      tauto
    · rintro rfl
      exact clears_zero (f := fun s => s.mcOnly .mc State.catClrCnt) rfl rfl hw (fun _ => Iff.rfl)
    · exact clears_zero (f := State.memClrCnt) rfl rfl hw (fun _ => Iff.rfl)
    · exact clears_zero (f := State.wfClrCnt) rfl rfl hw (fun _ => Iff.rfl)
    · exact clears_zero (f := State.recClrCnt) rfl rfl hw (fun _ => Iff.rfl)
    · exact clears_zero (f := State.obsClrCnt) rfl rfl hw (fun _ => Iff.rfl)
    · exact clears_zero (f := State.sysClrCnt) rfl rfl hw (fun _ => Iff.rfl)
  · exact fun h => ⟨_, asWrite_writes h, clears_ring hw⟩
  · exact fun h => ⟨_, asWrite_writes h, clears_can hw⟩
  · exact fun h => ⟨_, asWrite_writes h, clears_host hw⟩
  · rintro rfl h
    exact ⟨_, asWrite_writes (f := fun s => s.mcOnly .mc State.catClrFault) h, clears_catFault hw⟩
  · intro h
    exact ⟨_, asWrite_writes (f := State.dioClrMin) h, onlyRegs_wr, clears_dioMin hw⟩
  · exact fun h => ⟨_, asWrite_writes h, clears_power hw⟩
  · intro key hk h
    refine ⟨_, asWrite_writes (f := fun s => s.pairCtrl 3 key) h, ?_⟩
    have e : s.pairCtrl 3 key = s.ignoredIn blkPair := by
      simp [State.pairCtrl, pairKey, show ¬ key = 0x5A17#16 from hk]
    rw [e]
    exact ⟨onlyRegs_wr, toNat_rd_bump hw⟩

end Sys2Proof.Machine
end

section
/-! What most commands written by a master share: a write that is ignored and counted, and one that changes a field of one register. -/

namespace Sys2Proof.Machine

variable {s t u : State} {f g : Field} {off o v b : Nat} {i : Instr}

/-- A write that its rule ignores is counted, and nothing else. -/
theorem ignored_of {c : Nat} (hw : s.regsWf = true) (h : exec i s = .next (s.bump c)) :
    ∃ t, exec i s = .next t ∧ onlyRegs [c] s t ∧ (t.rd c).toNat = satAdd 32 (s.rd c).toNat 1 :=
  ⟨s.bump c, h, onlyRegs_wr, toNat_rd_bump hw⟩

theorem ignoredIn_eq (h : b ≠ 15) : s.ignoredIn b = s.bump (b * 0x1000 + 0x10) := by rw [State.ignoredIn, if_neg h]

theorem keepsRegs_fset : keepsRegs [f.off] s (s.fset f v) := onlyRegs_wr.2

/-- A field of the width that it takes. -/
theorem fieldSet_fset_lt (h : s.regsWf = true) (hw : f.lo + f.width ≤ 32) (hv : v < 2 ^ f.width) : fieldSet f v s (s.fset f v) := by
  simpa only [Nat.mod_eq_of_lt hv] using fieldSet_fset (v := v) h hw

end Sys2Proof.Machine
end

section
/-! What an update may change: parts of the state, and bits of registers. Everything else is as before.

Which parts and bits these are is computed, so that side conditions about them are closed by `rfl`. Their default is the `by rfl` that the
library keeps for `List.TFAE.out`: with a default of this text's own, each proof that takes it waits for every proof before it. -/

namespace Sys2Proof.Machine

/-! Parts of the state. -/

/-- The parts of the state. -/
inductive Part where
  | pending | out | free | regs | act | latch | mem | conf | power | clk | cat | integ | bogie | pair | olc | brm | scan
  | recd | time | island | rfx | acq | ring | can | host | dma | dray | bay | obs | wf
  deriving DecidableEq

/-- A part is the same in two states. -/
def Part.same (s t : State) : Part → Prop
  | .pending => t.pending = s.pending
  | .out => t.out = s.out
  | .free => t.free = s.free
  | .regs => t.regs = s.regs
  | .act => t.act = s.act
  | .latch => t.latch = s.latch
  | .mem => t.mem = s.mem
  | .conf => t.conf = s.conf
  | .power => t.power = s.power
  | .clk => t.clk = s.clk
  | .cat => t.cat = s.cat
  | .integ => t.integ = s.integ
  | .bogie => t.bogie = s.bogie
  | .pair => t.pair = s.pair
  | .olc => t.olc = s.olc
  | .brm => t.brm = s.brm
  | .scan => t.scan = s.scan
  | .recd => t.recd = s.recd
  | .time => t.time = s.time
  | .island => t.island = s.island
  | .rfx => t.rfx = s.rfx
  | .acq => t.acq = s.acq
  | .ring => t.ring = s.ring
  | .can => t.can = s.can
  | .host => t.host = s.host
  | .dma => t.dma = s.dma
  | .dray => t.dray = s.dray
  | .bay => t.bay = s.bay
  | .obs => t.obs = s.obs
  | .wf => t.wf = s.wf

/-- The parts `ps` of `t`, and all others of `s`. -/
def patch (ps : List Part) (t s : State) : State where
  pending := if .pending ∈ ps then t.pending else s.pending
  out := if .out ∈ ps then t.out else s.out
  free := if .free ∈ ps then t.free else s.free
  regs := if .regs ∈ ps then t.regs else s.regs
  act := if .act ∈ ps then t.act else s.act
  latch := if .latch ∈ ps then t.latch else s.latch
  mem := if .mem ∈ ps then t.mem else s.mem
  conf := if .conf ∈ ps then t.conf else s.conf
  power := if .power ∈ ps then t.power else s.power
  clk := if .clk ∈ ps then t.clk else s.clk
  cat := if .cat ∈ ps then t.cat else s.cat
  integ := if .integ ∈ ps then t.integ else s.integ
  bogie := if .bogie ∈ ps then t.bogie else s.bogie
  pair := if .pair ∈ ps then t.pair else s.pair
  olc := if .olc ∈ ps then t.olc else s.olc
  brm := if .brm ∈ ps then t.brm else s.brm
  scan := if .scan ∈ ps then t.scan else s.scan
  recd := if .recd ∈ ps then t.recd else s.recd
  time := if .time ∈ ps then t.time else s.time
  island := if .island ∈ ps then t.island else s.island
  rfx := if .rfx ∈ ps then t.rfx else s.rfx
  acq := if .acq ∈ ps then t.acq else s.acq
  ring := if .ring ∈ ps then t.ring else s.ring
  can := if .can ∈ ps then t.can else s.can
  host := if .host ∈ ps then t.host else s.host
  dma := if .dma ∈ ps then t.dma else s.dma
  dray := if .dray ∈ ps then t.dray else s.dray
  bay := if .bay ∈ ps then t.bay else s.bay
  obs := if .obs ∈ ps then t.obs else s.obs
  wf := if .wf ∈ ps then t.wf else s.wf

/-! Places in the registers. -/

/-- The bits from `bit` up to `top` of every `step`-th register offset from `lo` up to `hi` (0: without an end). -/
structure Rect where
  lo : Nat
  hi : Nat
  step : Nat := 1
  bit : Nat := 0
  top : Nat := 32
  deriving DecidableEq

namespace Rect

def has (r : Rect) (o : Nat) : Bool := Nat.ble r.lo o && (r.hi == 0 || Nat.blt o r.hi) && (o - r.lo) % r.step == 0

/-- The field lies within the place. -/
def covers (r : Rect) (f : Field) : Bool := r.has f.off && (Nat.ble r.bit f.lo && Nat.ble (f.lo + f.width) r.top)

/-- The field shares no bit with the place. -/
def apart (r : Rect) (f : Field) : Bool := !r.has f.off || (Nat.ble (f.lo + f.width) r.bit || Nat.ble r.top f.lo)

/-- The place lies within another. -/
def inside (r q : Rect) : Bool :=
  (Nat.ble q.bit r.bit && Nat.ble r.top q.top) &&
    (r.lo == q.lo && r.hi == q.hi && r.step == q.step ||
      q.step == 1 && Nat.ble q.lo r.lo && (q.hi == 0 || r.hi != 0 && Nat.ble r.hi q.hi))

/-- A register, a field, a block, the offsets from `lo` up to `hi`. -/
abbrev reg (o : Nat) : Rect := ⟨o, o + 1, 1, 0, 32⟩
abbrev fld (f : Field) : Rect := ⟨f.off, f.off + 1, 1, f.lo, f.lo + f.width⟩
abbrev blk (b : Nat) : Rect := ⟨b * 0x1000, (b + 1) * 0x1000, 1, 0, 32⟩
abbrev span (lo hi : Nat) : Rect := ⟨lo, hi, 1, 0, 32⟩

variable {r q : Rect} {f g : Field} {o : Nat}

theorem has_iff : r.has o = true ↔ r.lo ≤ o ∧ (r.hi = 0 ∨ o < r.hi) ∧ (o - r.lo) % r.step = 0 := by
  simp only [has, Bool.and_eq_true, Bool.or_eq_true, Nat.ble_eq, Nat.blt_eq, beq_iff_eq, and_assoc]

theorem covers_iff : r.covers f = true ↔ r.has f.off = true ∧ r.bit ≤ f.lo ∧ f.lo + f.width ≤ r.top := by
  simp only [covers, Bool.and_eq_true, Nat.ble_eq]

theorem apart_iff : r.apart f = true ↔ (r.has f.off = true → f.lo + f.width ≤ r.bit ∨ r.top ≤ f.lo) := by
  simp only [apart, Bool.or_eq_true, Bool.not_eq_true', Nat.ble_eq, ← Bool.not_eq_true, imp_iff_not_or]

theorem apart_of_inside (h : r.inside q = true) (ha : q.apart f = true) : r.apart f = true := by
  simp only [inside, Bool.and_eq_true, Bool.or_eq_true, Nat.ble_eq, beq_iff_eq, bne_iff_ne, and_assoc] at h
  obtain ⟨hb, ht, hs⟩ := h
  rw [apart_iff] at ha ⊢
  intro hr
  have hq : q.has f.off = true := by
    rw [has_iff] at hr ⊢
    obtain ⟨h1, h2, h3⟩ := hr
    rcases hs with ⟨e1, e2, e3⟩ | ⟨e1, e2, e3⟩
    · rw [← e1, ← e2, ← e3]
      exact ⟨h1, h2, h3⟩
    · rw [e1, Nat.mod_one]
      omega
  have := ha hq
  omega

/-- A field apart from a place shares no bit with a field that lies within it. -/
theorem disjoint_of_apart (hc : r.covers g = true) (ha : r.apart f = true) :
    f.off ≠ g.off ∨ f.lo + f.width ≤ g.lo ∨ g.lo + g.width ≤ f.lo := by
  by_cases he : f.off = g.off
  · rw [covers_iff] at hc
    rw [apart_iff, he] at ha
    have := ha hc.1
    omega
  · exact .inl he

end Rect

/-- A field lies within one of the places. -/
def coverAll (W : List Rect) (f : Field) : Bool := W.any (·.covers f)

/-- A field shares no bit with any of the places. -/
def apartAll (W : List Rect) (f : Field) : Bool := W.all (·.apart f)

/-- A register between two offsets of a place. -/
theorem cover_span {W : List Rect} {f : Field} (lo hi : Nat) (h : lo ≤ f.off ∧ f.off < hi)
    (hr : autoParam (W.contains (.span lo hi) = true) List.TFAE.out._auto_1)
    (hw : autoParam (Nat.ble (f.lo + f.width) 32 = true) List.TFAE.out._auto_1) : coverAll W f = true := by
  refine List.any_eq_true.mpr ⟨_, List.contains_iff_mem.mp hr, Rect.covers_iff.mpr ⟨Rect.has_iff.mpr ?_, Nat.zero_le _, Nat.ble_eq.mp hw⟩⟩
  exact ⟨h.1, .inr h.2, Nat.mod_one _⟩

/-- A register from an offset on. -/
theorem cover_from {W : List Rect} {f : Field} (lo : Nat) (h : lo ≤ f.off)
    (hr : autoParam (W.contains (.span lo 0) = true) List.TFAE.out._auto_1)
    (hw : autoParam (Nat.ble (f.lo + f.width) 32 = true) List.TFAE.out._auto_1) : coverAll W f = true := by
  refine List.any_eq_true.mpr ⟨_, List.contains_iff_mem.mp hr, Rect.covers_iff.mpr ⟨Rect.has_iff.mpr ?_, Nat.zero_le _, Nat.ble_eq.mp hw⟩⟩
  exact ⟨h, .inl rfl, Nat.mod_one _⟩

/-- Each of the places lies within one of others. -/
def insideAll (W V : List Rect) : Bool := W.all (fun r => V.any r.inside)

/-- Each part is one of others. -/
def partsIn (ps qs : List Part) : Bool := ps.all (qs.contains ·)

/-- Nothing changes from `s` to `t` but the parts `ps`, and of the registers the places `W`. -/
structure Frame (ps : List Part) (W : List Rect) (s t : State) : Prop where
  part : ∀ p, p ∉ ps → p.same s t
  canon : s.regsWf = true → t.regsWf = true
  field : s.regsWf = true → ∀ f : Field, f.lo + f.width ≤ 32 → apartAll W f = true → t.fget f = s.fget f

variable {ps qs : List Part} {W V : List Rect} {s t u : State}

theorem eq_ite_of_not_mem {α : Type} {p : Part} {a b : α} (h : p ∉ ps → a = b) : a = if p ∈ ps then a else b := by
  split
  next => rfl
  next hp => exact h hp

/-- Fields that share no bit, of which the one read fits its register. -/
theorem fget_fset_disjoint {f g : Field} {n : Nat} (h : s.regsWf = true) (hg : g.lo + g.width ≤ 32)
    (hd : g.off ≠ f.off ∨ g.lo + g.width ≤ f.lo ∨ f.lo + f.width ≤ g.lo) : (s.fset f n).fget g = s.fget g := by
  by_cases e : g.off = f.off
  · have hcut (y : Nat) : fldN (y % 2 ^ 32) g.lo g.width = fldN y g.lo g.width := by
      apply Nat.eq_of_testBit_eq
      intro i
      simp only [fldN, Nat.testBit_mod_two_pow, Nat.testBit_div_two_pow]
      by_cases hi : i < g.width
      · rw [decide_eq_true (by omega : i + g.lo < 32), Bool.true_and]
      · simp [hi]
    simp only [State.fget, State.fset, e, rd_wr_self h, BitVec.toNat_ofNat, hcut]
    rcases hd with hd | hd | hd
    · exact absurd e hd
    · exact fldN_setFldN_below _ _ _ _ _ _ hd
    · exact fldN_setFldN_above _ _ _ _ _ _ hd
  · simp only [State.fget, State.fset, rd_wr_ne e]

namespace Frame

theorem eq_patch (h : Frame ps W s t) : t = patch ps t s := by
  cases t
  unfold patch
  congr 1
  all_goals
    refine eq_ite_of_not_mem fun hp => ?_
    exact h.part _ hp

theorem refl (s : State) : Frame ps W s s := ⟨fun p _ => by cases p <;> rfl, id, fun _ _ _ _ => rfl⟩

/-- A larger frame. -/
theorem sub (h : Frame ps W s t) (hp : autoParam (partsIn ps qs = true) List.TFAE.out._auto_1)
    (hw : autoParam (insideAll W V = true) List.TFAE.out._auto_1) : Frame qs V s t := by
  refine ⟨fun p hn => h.part p fun hm => hn ?_, h.canon, fun hs f hf ha => h.field hs f hf ?_⟩
  · simpa using List.all_eq_true.mp hp p hm
  · refine List.all_eq_true.mpr fun r hr => ?_
    obtain ⟨q, hq, hi⟩ := List.any_eq_true.mp (List.all_eq_true.mp hw r hr)
    exact Rect.apart_of_inside hi (List.all_eq_true.mp ha q hq)

theorem same_trans {p : Part} (h1 : p.same s t) (h2 : p.same t u) : p.same s u := by
  cases p <;> exact Eq.trans h2 h1

/-- One update after another. -/
theorem trans (h1 : Frame ps W s t) (h2 : Frame ps W t u) : Frame ps W s u :=
  ⟨fun p hn => same_trans (h1.part p hn) (h2.part p hn), h2.canon ∘ h1.canon,
    fun hs f hf ha => (h2.field (h1.canon hs) f hf ha).trans (h1.field hs f hf ha)⟩

/-- The second of two updates first, as an expression shows them. -/
theorem after (h2 : Frame ps W t u) (h1 : Frame ps W s t) : Frame ps W s u := h1.trans h2

/-- One of two updates. -/
theorem ite {c : Prop} [Decidable c] (h1 : Frame ps W s t) (h2 : Frame ps W s u) : Frame ps W s (if c then t else u) := by
  split <;> assumption

theorem ite_fst {α : Type} {c : Prop} [Decidable c] {x y : State × α} (hx : Frame ps W s x.1) (hy : Frame ps W s y.1) :
    Frame ps W s (if c then x else y).1 := by
  split <;> assumption

theorem foldl {α : Type} {h : State → α → State} {l : List α} (hh : ∀ s, ∀ a ∈ l, Frame ps W s (h s a)) (s : State) :
    Frame ps W s (l.foldl h s) :=
  foldl_keeps (P := Frame ps W s) (fun t a ha ht => ht.trans (hh t a ha)) (refl s)

theorem foldl_fst {α β : Type} {f : State × β → α → State × β} (hf : ∀ (x : State × β) (a : α), Frame ps W x.1 (f x a).1)
    (l : List α) (s : State) (b : β) : Frame ps W s (l.foldl f (s, b)).1 := by
  suffices ∀ x : State × β, Frame ps W x.1 (l.foldl f x).1 from this (s, b)
  induction l with
  | nil => exact fun x => refl _
  | cons a l ih => exact fun x => (hf x a).trans (ih _)

theorem foldlAll {α : Type} (f : State → α → State) (hf : ∀ s x, Frame ps W s (f s x)) (l : List α) (s : State) :
    Frame ps W s (l.foldl f s) := foldl (fun u x _ => hf u x) s

theorem foldlFst {α β : Type} (f : State × β → α → State × β) (hf : ∀ (x : State × β) (a : α), Frame ps W x.1 (f x a).1)
    (l : List α) (s : State) (b : β) : Frame ps W s (l.foldl f (s, b)).1 := foldl_fst hf l s b

/-! What follows from a frame. -/

theorem fget (h : Frame ps W s t) (hs : s.regsWf = true) {f : Field} (ha : autoParam (apartAll W f = true) List.TFAE.out._auto_1)
    (hf : autoParam (Nat.ble (f.lo + f.width) 32 = true) List.TFAE.out._auto_1) : t.fget f = s.fget f := h.field hs f (Nat.ble_eq.mp hf) ha

theorem fbit (h : Frame ps W s t) (hs : s.regsWf = true) {f : Field} (ha : autoParam (apartAll W f = true) List.TFAE.out._auto_1)
    (hf : autoParam (Nat.ble (f.lo + f.width) 32 = true) List.TFAE.out._auto_1) : t.fbit f = s.fbit f := by
  rw [State.fbit, State.fbit, h.fget hs ha hf]

theorem rd (h : Frame ps W s t) (hs : s.regsWf = true) {o : Nat} (ha : autoParam (apartAll W ⟨o, 0, 32⟩ = true) List.TFAE.out._auto_1) :
    t.rd o = s.rd o := by
  have hfull (u : State) : u.fget ⟨o, 0, 32⟩ = (u.rd o).toNat := by
    rw [State.fget, fldN, Nat.pow_zero, Nat.div_one, Nat.mod_eq_of_lt (u.rd o).isLt]
  apply BitVec.eq_of_toNat_eq
  rw [← hfull, ← hfull, h.field hs _ (by simp) ha]

theorem rd64 (h : Frame ps W s t) (hs : s.regsWf = true) {o : Nat} (ha : autoParam (apartAll W ⟨o, 0, 32⟩ = true) List.TFAE.out._auto_1)
    (hb : autoParam (apartAll W ⟨o + 4, 0, 32⟩ = true) List.TFAE.out._auto_1) : t.rd64 o = s.rd64 o := by
  rw [State.rd64, State.rd64, h.rd hs ha, h.rd hs hb]

theorem mod (h : Frame ps W s t) (hs : s.regsWf = true) (ha : autoParam (apartAll W F.pairStatus_state = true) List.TFAE.out._auto_1) :
    t.mod = s.mod := by
  rw [State.mod, State.mod, h.fget hs ha]

/-- Every place is one of the registers of a list. -/
def placesIn (W : List Rect) (l : List Nat) : Bool := W.all (fun r => r.hi == r.lo + 1 && l.contains r.lo)

theorem keepsRegs {l : List Nat} (h : Frame ps W s t) (hs : s.regsWf = true) (hl : autoParam (placesIn W l = true) List.TFAE.out._auto_1) :
    keepsRegs l s t := by
  refine fun o ho => h.rd hs (List.all_eq_true.mpr fun r hr => Rect.apart_iff.mpr fun hh => absurd hh ?_)
  have hp := List.all_eq_true.mp hl r hr
  rw [Bool.and_eq_true, beq_iff_eq, List.contains_iff_mem] at hp
  rw [Rect.has_iff, hp.1]
  rintro ⟨h1, h2, -⟩
  exact ho ((show o = r.lo by dsimp only at *; omega) ▸ hp.2)

theorem onlyRegs {l : List Nat} (h : Frame [.regs] W s t) (hs : s.regsWf = true) (hl : autoParam (placesIn W l = true) List.TFAE.out._auto_1) :
    onlyRegs l s t := ⟨h.eq_patch, h.keepsRegs hs hl⟩

/-! Updates of registers. -/

variable {f : Field} {off o v k : Nat} {y : W64} {b : Bool}

theorem fset (h : autoParam (coverAll W f = true) List.TFAE.out._auto_1) (hp : autoParam (partsIn [.regs] ps = true) List.TFAE.out._auto_1) :
    Frame ps W s (s.fset f v) := by
  refine ⟨fun p hn => ?_, regsWf_fset, fun hs g hg ha => fget_fset_disjoint hs hg ?_⟩
  · cases p
    case regs => exact absurd (by simpa [partsIn] using hp) hn
    all_goals rfl
  · obtain ⟨r, hr, hc⟩ := List.any_eq_true.mp h
    exact Rect.disjoint_of_apart hc (List.all_eq_true.mp ha r hr)

theorem wr {x : W32} (h : autoParam (coverAll W ⟨off, 0, 32⟩ = true) List.TFAE.out._auto_1)
    (hp : autoParam (partsIn [.regs] ps = true) List.TFAE.out._auto_1) :
    Frame ps W s (s.wr off x) := by
  have hx : s.wr off x = s.fset ⟨off, 0, 32⟩ x.toNat := by
    rw [State.fset]
    congr 1
    apply BitVec.eq_of_toNat_eq
    have hd : (s.rd off).toNat / 2 ^ 32 = 0 := Nat.div_eq_of_lt (s.rd off).isLt
    rw [BitVec.toNat_ofNat, setFldN_split, Nat.zero_add, hd, Nat.pow_zero, Nat.mod_one, Nat.zero_mul, Nat.zero_add, Nat.add_zero,
      Nat.mul_one, Nat.mod_mod, Nat.mod_eq_of_lt x.isLt]
  rw [hx]
  exact fset h hp

theorem fsetb (h : autoParam (coverAll W f = true) List.TFAE.out._auto_1) (hp : autoParam (partsIn [.regs] ps = true) List.TFAE.out._auto_1) :
    Frame ps W s (s.fsetb f b) := fset h hp
theorem bumpF (h : autoParam (coverAll W f = true) List.TFAE.out._auto_1) (hp : autoParam (partsIn [.regs] ps = true) List.TFAE.out._auto_1) :
    Frame ps W s (s.bumpF f) := fset h hp
theorem bumpBy (h : autoParam (coverAll W ⟨off, 0, 32⟩ = true) List.TFAE.out._auto_1)
    (hp : autoParam (partsIn [.regs] ps = true) List.TFAE.out._auto_1) :
    Frame ps W s (s.bumpBy off k) := wr h hp
theorem bump (h : autoParam (coverAll W ⟨off, 0, 32⟩ = true) List.TFAE.out._auto_1)
    (hp : autoParam (partsIn [.regs] ps = true) List.TFAE.out._auto_1) : Frame ps W s (s.bump off) :=
  wr h hp
theorem setMod {m : ModState} (h : autoParam (coverAll W F.pairStatus_state = true) List.TFAE.out._auto_1)
    (hp : autoParam (partsIn [.regs] ps = true) List.TFAE.out._auto_1) :
    Frame ps W s (s.setMod m) := fset h hp

theorem wr64 (h : autoParam (coverAll W ⟨off, 0, 32⟩ = true) List.TFAE.out._auto_1)
    (h4 : autoParam (coverAll W ⟨off + 4, 0, 32⟩ = true) List.TFAE.out._auto_1)
    (hp : autoParam (partsIn [.regs] ps = true) List.TFAE.out._auto_1) : Frame ps W s (s.wr64 off y) := (wr h hp).trans (wr h4 hp)

theorem zero {l : List Nat} (h : autoParam (l.all (fun o => coverAll W ⟨o, 0, 32⟩) = true) List.TFAE.out._auto_1)
    (hp : autoParam (partsIn [.regs] ps = true) List.TFAE.out._auto_1) :
    Frame ps W s (s.zero l) :=
  foldl (fun _ o ho => wr (List.all_eq_true.mp h o ho) hp) s

/-! Updates of the other parts. -/

/-- An update of some of the parts, none of them the registers. -/
theorem patched (h : t = patch ps t s) (hr : t.regs = s.regs) (ha : t.act = s.act) : Frame ps W s t := by
  have hg (f : Field) : t.fget f = s.fget f := by rw [State.fget, State.fget, State.rd, State.rd, hr]
  refine ⟨fun p hp => ?_, fun hs => ?_, fun _ f _ _ => hg f⟩
  · rw [h]
    cases p <;> exact if_neg hp
  · rwa [State.regsWf, hr, ha]

/-- An update of one part, neither the registers nor the active values. -/
theorem one {p : Part} (h : t = patch [p] t s) (hr : t.regs = s.regs) (ha : t.act = s.act) (hp : partsIn [p] ps = true) : Frame ps W s t :=
  (patched (ps := [p]) (W := []) h hr ha).sub hp rfl

theorem out {x : List Out} (hp : autoParam (partsIn [.out] ps = true) List.TFAE.out._auto_1) :
    Frame ps W s { s with out := x } := .one rfl rfl rfl hp
theorem free {x : Nat} (hp : autoParam (partsIn [.free] ps = true) List.TFAE.out._auto_1) :
    Frame ps W s { s with free := x } := .one rfl rfl rfl hp
theorem latch {x : List (Nat × Nat × W32)} (hp : autoParam (partsIn [.latch] ps = true) List.TFAE.out._auto_1) :
    Frame ps W s { s with latch := x } := .one rfl rfl rfl hp
theorem mem {x : Mem} (hp : autoParam (partsIn [.mem] ps = true) List.TFAE.out._auto_1) : Frame ps W s { s with mem := x } := .one rfl rfl rfl hp
theorem conf {x : Conf} (hp : autoParam (partsIn [.conf] ps = true) List.TFAE.out._auto_1) :
    Frame ps W s { s with conf := x } := .one rfl rfl rfl hp
theorem power {x : Power} (hp : autoParam (partsIn [.power] ps = true) List.TFAE.out._auto_1) :
    Frame ps W s { s with power := x } := .one rfl rfl rfl hp
theorem clk {x : Vector Cluster 4} (hp : autoParam (partsIn [.clk] ps = true) List.TFAE.out._auto_1) :
    Frame ps W s { s with clk := x } := .one rfl rfl rfl hp
theorem cat {x : Cat} (hp : autoParam (partsIn [.cat] ps = true) List.TFAE.out._auto_1) : Frame ps W s { s with cat := x } := .one rfl rfl rfl hp
theorem integ {x : Integ} (hp : autoParam (partsIn [.integ] ps = true) List.TFAE.out._auto_1) :
    Frame ps W s { s with integ := x } := .one rfl rfl rfl hp
theorem bogie {x : Bogie} (hp : autoParam (partsIn [.bogie] ps = true) List.TFAE.out._auto_1) :
    Frame ps W s { s with bogie := x } := .one rfl rfl rfl hp
theorem pair {x : Pair} (hp : autoParam (partsIn [.pair] ps = true) List.TFAE.out._auto_1) :
    Frame ps W s { s with pair := x } := .one rfl rfl rfl hp
theorem olc {x : Olc} (hp : autoParam (partsIn [.olc] ps = true) List.TFAE.out._auto_1) : Frame ps W s { s with olc := x } := .one rfl rfl rfl hp
theorem brm {x : Brm} (hp : autoParam (partsIn [.brm] ps = true) List.TFAE.out._auto_1) : Frame ps W s { s with brm := x } := .one rfl rfl rfl hp
theorem scan {x : Scan} (hp : autoParam (partsIn [.scan] ps = true) List.TFAE.out._auto_1) :
    Frame ps W s { s with scan := x } := .one rfl rfl rfl hp
theorem recd {x : Rec} (hp : autoParam (partsIn [.recd] ps = true) List.TFAE.out._auto_1) :
    Frame ps W s { s with recd := x } := .one rfl rfl rfl hp
theorem time {x : TimeS} (hp : autoParam (partsIn [.time] ps = true) List.TFAE.out._auto_1) :
    Frame ps W s { s with time := x } := .one rfl rfl rfl hp
theorem island {x : Island} (hp : autoParam (partsIn [.island] ps = true) List.TFAE.out._auto_1) :
    Frame ps W s { s with island := x } := .one rfl rfl rfl hp
theorem rfx {x : Rfx} (hp : autoParam (partsIn [.rfx] ps = true) List.TFAE.out._auto_1) : Frame ps W s { s with rfx := x } := .one rfl rfl rfl hp
theorem acq {x : Acq} (hp : autoParam (partsIn [.acq] ps = true) List.TFAE.out._auto_1) : Frame ps W s { s with acq := x } := .one rfl rfl rfl hp
theorem ring {x : Ring} (hp : autoParam (partsIn [.ring] ps = true) List.TFAE.out._auto_1) :
    Frame ps W s { s with ring := x } := .one rfl rfl rfl hp
theorem can {x : Can} (hp : autoParam (partsIn [.can] ps = true) List.TFAE.out._auto_1) : Frame ps W s { s with can := x } := .one rfl rfl rfl hp
theorem host {x : HostS} (hp : autoParam (partsIn [.host] ps = true) List.TFAE.out._auto_1) :
    Frame ps W s { s with host := x } := .one rfl rfl rfl hp
theorem dma {x : Dma} (hp : autoParam (partsIn [.dma] ps = true) List.TFAE.out._auto_1) : Frame ps W s { s with dma := x } := .one rfl rfl rfl hp
theorem dray {x : Dray} (hp : autoParam (partsIn [.dray] ps = true) List.TFAE.out._auto_1) :
    Frame ps W s { s with dray := x } := .one rfl rfl rfl hp
theorem bay {x : Bay} (hp : autoParam (partsIn [.bay] ps = true) List.TFAE.out._auto_1) : Frame ps W s { s with bay := x } := .one rfl rfl rfl hp
theorem obs {x : Obs} (hp : autoParam (partsIn [.obs] ps = true) List.TFAE.out._auto_1) : Frame ps W s { s with obs := x } := .one rfl rfl rfl hp
theorem wf {x : Wf} (hp : autoParam (partsIn [.wf] ps = true) List.TFAE.out._auto_1) : Frame ps W s { s with wf := x } := .one rfl rfl rfl hp

theorem take (hp : autoParam (partsIn [.free] ps = true) List.TFAE.out._auto_1) : Frame ps W s s.take.2 := .one rfl rfl rfl hp
theorem wrMem {a : Nat} {l : List Byte} (hp : autoParam (partsIn [.mem] ps = true) List.TFAE.out._auto_1) : Frame ps W s (s.wrMem a l) := mem hp
theorem markDirty {a n : Nat} (hp : autoParam (partsIn [.pair] ps = true) List.TFAE.out._auto_1) : Frame ps W s (s.markDirty a n) := pair hp
theorem raise {e : Hap} {n : Nat} {l : List W64} (hp : autoParam (partsIn [.recd] ps = true) List.TFAE.out._auto_1) :
    Frame ps W s (s.raise e n l) := recd hp
theorem emit {e : Out} (hp : autoParam (partsIn [.out] ps = true) List.TFAE.out._auto_1) : Frame ps W s (s.emit e) := out hp
theorem sendOnce {e : Out} (hp : autoParam (partsIn [.out] ps = true) List.TFAE.out._auto_1) :
    Frame ps W s (s.sendOnce e) := ite (emit hp) (refl s)

theorem send {e : Out} (h1 : autoParam (partsIn [.pair] ps = true) List.TFAE.out._auto_1)
    (h2 : autoParam (partsIn [.out] ps = true) List.TFAE.out._auto_1) : Frame ps W s (s.send e) :=
  ite ((pair h1).trans (emit h2)) (pair h1)

end Frame

end Sys2Proof.Machine
end

section
/-! CAT entries and the barrier. -/

namespace Sys2Proof.Machine

variable {s : State} {e : Fin 128} {v t : W32} {m : Master} {a : Nat}

/-- A class other than MC that an entry of these words grants `WR` on the CAT's page (R375). -/
theorem grantsCatPage_iff : grantsCatPage a t.toNat = true ↔
    a.testBit 29 = true ∧ a % 2 ^ 28 ≤ 0x1000F ∧ 0x1000F ≤ a % 2 ^ 28 + t.toNat % 2 ^ 22 ∧
      ∃ c : Fin 8, c ≠ 2 ∧ t.getLsbD (22 + c.val) = true := by
  have hcls : fldN t.toNat 22 8 - bit (bitN t.toNat 24) * 4 ≠ 0 ↔ ∃ c : Fin 8, c ≠ 2 ∧ t.getLsbD (22 + c.val) = true := by
    have hx : ∀ y : BitVec 8, y.toNat - bit (y.getLsbD 2) * 4 ≠ 0 ↔ ∃ c : Fin 8, c ≠ 2 ∧ y.getLsbD c.val = true := by decide +kernel
    have hy := hx (t.extractLsb' 22 8)
    simp only [BitVec.getLsbD_extractLsb', Fin.is_lt, decide_true, Bool.true_and, BitVec.extractLsb'_toNat] at hy
    simpa [fldN, bitN, BitVec.getLsbD, Nat.shiftRight_eq_div_pow] using hy
  have hfld (n w : Nat) : fldN n 0 w = n % 2 ^ w := by rw [fldN, Nat.pow_zero, Nat.div_one]
  simp only [grantsCatPage, Bool.and_eq_true, decide_eq_true_eq, hcls, hfld, and_assoc]
  rfl

theorem catWriteAddr_refused (h : m ≠ .mc ∨ s.entLocked e.val = true) : s.catWriteAddr m e v = s.bump 0xF014 := if_pos h

theorem catWriteAddr_held (h : s.entLocked e.val = false) :
    s.catWriteAddr .mc e v = s.wr (R.catEnteAddr e.val) (v &&& 0x7FFFFFFF) := if_neg (by simp [h])

theorem catWriteAttr_refused (h : m ≠ .mc ∨ s.entLocked e.val = true ∨
    2 ^ 28 ≤ (s.rd (R.catEnteAddr e.val)).toNat % 2 ^ 28 + (v &&& 0x7FFFFFFF).toNat % 2 ^ 22 ∨
    grantsCatPage (s.rd (R.catEnteAddr e.val)).toNat (v &&& 0x7FFFFFFF).toNat = true) : s.catWriteAttr m e v = s.bump 0xF014 :=
  if_pos (by simpa only [fldN, Nat.pow_zero, Nat.div_one, ge_iff_le] using h)

theorem exec_catEntAddrWrite_writes (hs : s.writes m (R.catEnteAddr e.val)) :
    exec (.catEntAddrWrite m e v) s = .next (s.catWriteAddr m e v) := asWrite_writes (f := fun s => s.catWriteAddr m e v) hs

theorem exec_catEntAttrWrite_writes (hs : s.writes m (R.catEnteAttr e.val)) :
    exec (.catEntAttrWrite m e v) s = .next (s.catWriteAttr m e v) := asWrite_writes (f := fun s => s.catWriteAttr m e v) hs

theorem exec_catBarrier_writes (hs : s.writes m R.catBarrier) :
    exec (.catBarrier m v) s = .next (s.mcOnly m (fun s => s.catBarrier v)) :=
  asWrite_writes (f := fun s => s.mcOnly m (fun s => s.catBarrier v)) hs

/-- The committed entries after an attribute word takes effect. -/
def catCommitted (s : State) (e : Fin 128) (t : W32) : List (Nat × W32) :=
  sset regReset (sset regReset s.cat.committed (R.catEnteAddr e.val) (s.rd (R.catEnteAddr e.val))) (R.catEnteAttr e.val) t

theorem catWriteAttr_commits (hl : s.entLocked e.val = false)
    (hf : ¬ 2 ^ 28 ≤ (s.rd (R.catEnteAddr e.val)).toNat % 2 ^ 28 + (v &&& 0x7FFFFFFF).toNat % 2 ^ 22)
    (hg : grantsCatPage (s.rd (R.catEnteAddr e.val)).toNat (v &&& 0x7FFFFFFF).toNat = false) :
    s.catWriteAttr .mc e v = ({ s.wr (R.catEnteAttr e.val) (v &&& 0x7FFFFFFF) with
      cat := { s.cat with committed := catCommitted s e (v &&& 0x7FFFFFFF) } } : State).showCat :=
  by
  refine if_neg ?_
  rw [hl, hg]
  simpa [fldN] using hf

theorem onlyRegs_showCat : onlyRegs [R.catStatus] s s.showCat :=
  onlyRegs_trans (onlyRegs_fset (f := F.catStatus_used)) (onlyRegs_fset (f := F.catStatus_locked))

/-- A committed word other than the two of the entry stands. -/
theorem sget_catCommitted_ne {o : Nat} (h1 : o ≠ R.catEnteAddr e.val) (h2 : o ≠ R.catEnteAttr e.val) :
    sget regReset (catCommitted s e t) o = sget regReset s.cat.committed o := by
  rw [catCommitted, sget_sset_ne _ _ _ _ _ h2, sget_sset_ne _ _ _ _ _ h1]

theorem sget_catCommitted_attr (h : swf regReset s.cat.committed = true) :
    sget regReset (catCommitted s e t) (R.catEnteAttr e.val) = t := sget_self _ _ _ _ (swf_sset _ _ _ _ h)

theorem sget_catCommitted_addr (h : swf regReset s.cat.committed = true) :
    sget regReset (catCommitted s e t) (R.catEnteAddr e.val) = s.rd (R.catEnteAddr e.val) := by
  rw [catCommitted, sget_sset_ne _ _ _ _ _ (by simp), sget_self _ _ _ _ h]

theorem catEnteAttr_ne_catStatus : R.catEnteAttr e.val ≠ R.catStatus := by simp only [R.catEnteAttr, R.catStatus]; omega

/-- Settles O35: the model's writes of the entry words are refused, held or committed as the words say. -/
theorem catEntries : Obligations.CatEntries := by
  unfold Obligations.CatEntries
  intro m e v s hw ignored held attr locked far opens
  have hopens : grantsCatPage held attr.toNat = true ↔ opens := grantsCatPage_iff
  refine ⟨fun hm => ⟨fun hs => ?addrRefused, fun hs => ?attrRefused⟩,
    fun hs hl => ?addr, fun hs hl hbad => ?refused, fun hs hl hf ho hc => ?attr, fun hm hs => ?other, fun hs => ?barrier,
    fun y hy => ?complete, fun hn => ?none⟩
  case addrRefused =>
    exact ignored_of hw (by rw [exec_catEntAddrWrite_writes hs, catWriteAddr_refused hm])
  case attrRefused =>
    exact ignored_of hw (by rw [exec_catEntAttrWrite_writes hs, catWriteAttr_refused (hm.imp_right .inl)])
  case addr =>
    exact ⟨_, by rw [exec_catEntAddrWrite_writes hs, catWriteAddr_held hl], rd_wr_self hw, onlyRegs_wr⟩
  case refused =>
    exact ignored_of hw (by
      rw [exec_catEntAttrWrite_writes hs, catWriteAttr_refused (.inr (.inr (hbad.imp_right hopens.mpr)))])
  case attr =>
    have hg : grantsCatPage held attr.toNat = false := by rw [← Bool.not_eq_true, hopens]; exact ho
    obtain ⟨hshow, hregs⟩ := onlyRegs_showCat
      (s := { s.wr (R.catEnteAttr e.val) attr with cat := { s.cat with committed := catCommitted s e attr } })
    refine ⟨_, by rw [exec_catEntAttrWrite_writes hs, catWriteAttr_commits hl hf hg], ?_⟩
    generalize State.showCat _ = t at hshow hregs ⊢
    have hcat : t.cat = { s.cat with committed := catCommitted s e attr } := by rw [hshow]
    rw [hcat]
    refine ⟨?_, rfl, sget_catCommitted_addr hc, sget_catCommitted_attr hc, fun o => sget_catCommitted_ne, ?_, ?_⟩
    · rw [hregs _ (by rw [List.mem_singleton]; exact catEnteAttr_ne_catStatus)]
      exact rd_wr_self hw
    · intro o ho
      rw [List.mem_cons, not_or] at ho
      rw [hregs o ho.2]
      exact rd_wr_ne ho.1
    · rw [hshow]; rfl
  case other =>
    exact ignored_of hw (by rw [exec_catBarrier_writes hs, State.mcOnly, if_neg hm]; rfl)
  case barrier =>
    refine ⟨_, exec_catBarrier_writes hs, rfl, ?_, ?_, rfl⟩
    · exact fieldSet_fset_lt (s := { s with cat := { s.cat with eff := s.cat.committed, barrier := some v } }) hw (by decide) (by decide)
    · exact keepsRegs_fset (f := F.catStatus_barPend) (v := 1)
        (s := { s with cat := { s.cat with eff := s.cat.committed, barrier := some v } })
  case complete =>
    have hrun : exec .catBarrierComplete s =
        .next (({ s with cat := { s.cat with barrier := none } }.wr R.catBarrierDone y).fset F.catStatus_barPend 0) := by
      rw [exec_catBarrierComplete, execCatBarrierComplete, hy]
    refine ⟨_, hrun, rfl, ?_, ?_, ?_⟩
    · rw [rd_fset_ne (by decide)]
      exact rd_wr_self hw
    · exact fieldSet_from_rd (fieldSet_fset_lt (by exact regsWf_wr hw) (by decide) (by decide)) (rd_wr_ne (by decide))
    · refine keepsRegs_trans (t := ({ s with cat := { s.cat with barrier := none } } : State).wr R.catBarrierDone y) ?_ ?_
      · exact keepsRegs_wr (s := { s with cat := { s.cat with barrier := none } }) (by simp)
      · exact keepsRegs_mono (by simp) keepsRegs_fset
  case none =>
    rw [exec_catBarrierComplete, execCatBarrierComplete, hn]

end Sys2Proof.Machine
end

section
/-! Frames of what each operating second does beside the time bases (R19, R214, R398, R439). -/

namespace Sys2Proof.Machine

variable {s t : State}

theorem frame_showBrm : Frame [.regs] [.blk 2] s s.showBrm := by
  unfold State.showBrm
  extract_lets ds mask count isT a
  have ha : Frame [.regs] [.blk 2] s a := by
    refine Frame.foldl (fun u e he => .wr (cover_span 0x2000 0x3000 ?_)) s
    obtain ⟨i, -, rfl⟩ := List.mem_map.mp he
    dsimp only [R.brmBenState]
    omega
  clear_value a
  exact ((((((ha.trans .wr).trans .wr).trans .wr).trans .wr).trans .fsetb).trans .fsetb).trans .fsetb

theorem frame_showTrans : Frame [.regs] [.blk 3] s s.showTrans := by
  refine Frame.foldl (fun u e he => .fset (cover_span 0x3000 0x4000 ?_)) s
  simp only [List.mem_cons, List.not_mem_nil, or_false] at he
  dsimp only [R.rfxEnmState]
  omega

theorem frame_rateEnd : Frame [.recd] [] s s.rateEnd := Frame.trans .recd (Frame.foldl (fun _ _ _ => .recd) _)

theorem frame_showCart : Frame [.regs] [.blk 0x13] s s.showCart := by
  unfold State.showCart
  split
  · exact .refl s
  · exact .trans .wr (.trans .wr .wr)

theorem frame_setCart {c : Cartridge} : Frame [.bay, .regs, .recd] [.blk 0x13] s (s.setCart c) := by
  unfold State.setCart
  extract_lets old oldLog _ a b
  have ha : Frame [.bay, .regs, .recd] [.blk 0x13] s a := Frame.trans .bay frame_showCart.sub
  have hb : Frame [.bay, .regs, .recd] [.blk 0x13] s b := ha.trans (.ite (.refl a) .raise)
  exact hb.trans (.ite (.refl b) .raise)

theorem frame_timeLine : Frame [.bay, .regs, .recd] [.blk 0x13] s s.timeLine := by
  unfold State.timeLine
  split
  · exact .fset
  · exact .trans (.ite frame_setCart (.refl _)) .fset

theorem frame_marginCheck : Frame [.pair, .out] [] s s.marginCheck := by
  unfold State.marginCheck
  extract_lets own holds n _ a quiet
  have ha : Frame [.pair, .out] [] s a := .pair
  exact ha.trans (.ite .send (.refl _))

theorem frame_lateCheck : Frame [.regs, .recd] [.reg R.wfLate] s s.lateCheck := by
  refine Frame.foldl (fun u c hc => ?_) s
  have hc := List.mem_range.mp hc
  have hf : coverAll [.reg R.wfLate] ⟨R.wfLate, c, 1⟩ = true :=
    cover_span R.wfLate (R.wfLate + 1) ⟨le_rfl, Nat.lt_succ_self _⟩ rfl (Nat.ble_eq.mpr (by dsimp only; omega))
  exact .ite (.trans (.fset hf) .raise) (.refl _)

theorem frame_drayShow : Frame [.regs] [.blk 0xD] s s.drayShow := .trans .wr (.trans .wr (.trans .wr .wr))

theorem frame_drayHist {r : List Byte} : Frame [.dray, .regs] [.blk 0xD] s (s.drayHist r) :=
  .trans (.trans .dray .bumpBy) frame_drayShow.sub

theorem frame_wfDone {c lap : Nat} (hc : c < 13) : Frame [.regs] [.blk 0x11] s (s.wfDone c lap) := by
  have hreg (k : Nat) (hk : 0x11100 ≤ k ∧ k < 0x11110) : coverAll [.blk 0x11] ⟨k + c * 0x10, 0, 32⟩ = true :=
    cover_span 0x11000 0x12000 (by dsimp only; omega)
  have hlate : coverAll [.blk 0x11] ⟨R.wfLate, c, 1⟩ = true := 
    cover_span 0x11000 0x12000 (by dsimp only; decide) rfl (Nat.ble_eq.mpr (by dsimp only; omega))
  unfold State.wfDone
  extract_lets a
  have ha : Frame [.regs] [.blk 0x11] s a := .trans (.wr (hreg 0x11100 (by decide))) (.wr (hreg 0x11104 (by decide)))
  exact ha.trans (.trans (.bump (hreg 0x11108 (by decide))) (.fset hlate))

theorem frame_telemetry : Frame [.dray, .regs] [.blk 0x11, .blk 0xD] s s.telemetry :=
  .ite (frame_drayHist.sub.trans (frame_wfDone (by decide)).sub) (.refl _)

theorem frame_healthCycle :
    Frame [.pair, .out, .dray, .regs, .recd] [.fld F.pairHealth_own, .blk 0x11, .blk 0xD] s s.healthCycle := by
  unfold State.healthCycle
  extract_lets a
  have h0 : Frame [.pair, .out, .dray, .regs, .recd] [.fld F.pairHealth_own, .blk 0x11, .blk 0xD] s a := .fset
  exact h0.trans (frame_marginCheck.sub.trans (frame_lateCheck.sub.trans (frame_telemetry.sub.trans .bump)))

end Sys2Proof.Machine
end

section
/-! Time bases. -/

namespace Sys2Proof.Machine

variable {s t : State} {m : Master} {v : W32}

/-! A pair of registers written together. -/

theorem rd64_wr64 {o : Nat} {y : W64} (h : s.regsWf = true) : (s.wr64 o y).rd64 o = y := by
  have h1 : (s.wr64 o y).rd (o + 4) = y.extractLsb' 32 32 := rd_wr_self (regsWf_wr h)
  have h0 : (s.wr64 o y).rd o = y.extractLsb' 0 32 := by
    rw [State.wr64, rd_wr_ne (by omega), rd_wr_self h]
  rw [State.rd64, h1, h0]
  apply BitVec.eq_of_toNat_eq
  simp only [BitVec.toNat_append, BitVec.extractLsb'_toNat, Nat.shiftRight_eq_div_pow]
  have hy := y.isLt
  rw [← Nat.shiftLeft_add_eq_or_of_lt (by omega), Nat.shiftLeft_eq]
  omega

theorem rd_wr64_ne {o o' : Nat} {y : W64} (h : o' ≠ o) (h4 : o' ≠ o + 4) : (s.wr64 o y).rd o' = s.rd o' := by
  rw [State.wr64, rd_wr_ne h4, rd_wr_ne h]

theorem rd64_wr64_ne {o o' : Nat} {y : W64} (h : o' ≠ o) (h4 : o' ≠ o + 4) (hb : o' + 4 ≠ o) : (s.wr64 o y).rd64 o' = s.rd64 o' := by
  rw [State.rd64, State.rd64, rd_wr64_ne h h4, rd_wr64_ne hb (by omega)]

/-- Seconds and nanoseconds of TB0 as one number give them back. -/
theorem setTb0_ns {a : W64} {n : Nat} (hn : n < 1000000000) :
    s.setTb0 ((a.toNat : Int) * 1000000000 + n) = { s with time := { s.time with tb0s := a, tb0n := n } } := by
  have hk : (max ((a.toNat : Int) * 1000000000 + n) 0).toNat = a.toNat * 1000000000 + n := by omega
  rw [State.setTb0, hk]
  have hd : (a.toNat * 1000000000 + n) / 1000000000 = a.toNat := by omega
  have hm : (a.toNat * 1000000000 + n) % 1000000000 = n := by omega
  simp only [hd, hm, BitVec.ofNat_toNat, BitVec.setWidth_eq]

/-! The operating second. -/

/-- The work of an operating second after the time bases. -/
theorem frame_second (h : Bool) :
    Frame [.pair, .out, .dray, .regs, .recd, .bay] [.blk 2, .blk 3, .fld F.pairHealth_own, .blk 0xD, .blk 0x11, .blk 0x13] s
      (let s2 := s.rateEnd.timeLine
       let s2 := if s2.fbit F.recStatus_frozen then { s2 with recd := { s2.recd with frozenS := s2.recd.frozenS + 1 } } else s2
       (if h then s2.healthCycle else s2).showBrm.showTrans) := by
  extract_lets a _ b
  have ha := frame_rateEnd.sub.trans (frame_timeLine (s := s.rateEnd))
  exact ha.sub.trans (.trans (.ite .recd (.refl _)) (.trans (.ite frame_healthCycle.sub (.refl _))
    (frame_showBrm.sub.trans frame_showTrans.sub)))

theorem exec_tb3Second_running (ha : s.power.aos = true) (hc : s.power.chip = true) :
    ∃ t, exec .tb3Second s = .next t ∧
      Frame [.pair, .out, .dray, .regs, .recd, .bay]
        [.blk 2, .blk 3, .fld F.pairHealth_own, .blk 0xD, .blk 0x11, .blk 0x13] ({ s with time := { s.time with tb3 := s.time.tb3 + 1 } } : State).holdSecond t := by
  refine ⟨_, ?_, frame_second (s.fbit F.sysStatus_mcRun)⟩
  rw [exec_tb3Second, execTb3Second, State.when, ha, hc]
  rfl

theorem holdSecond_holdover (h : s.fget F.timeStatus_tb0State = 3) :
    s.holdSecond = (s.bump R.timeHoldS).bumpBy R.timeTb0Err 20 := if_pos h

theorem holdSecond_other (h : s.fget F.timeStatus_tb0State ≠ 3) : s.holdSecond = s := if_neg h

theorem holdSecond_frame : Frame [.regs] [.reg R.timeHoldS, .reg R.timeTb0Err] s s.holdSecond :=
  .ite (.trans .bump .bumpBy) (.refl _)

theorem exec_timeSnap_writes (h : s.writes m R.timeCtrl) : exec (.timeSnap m) s = .next s.timeSnap :=
  asWrite_writes (f := fun s => s.timeSnap) h

theorem exec_timeSet_writes (h : s.writes m R.timeSet) : exec (.timeSet m v) s = .next (s.timeSetKey v) :=
  asWrite_writes (f := fun s => s.timeSetKey v) h

theorem timeSetKey_ignored (h : v.toNat % 65536 ≠ 0x71DE ∨ s.fbit F.timeStatus_hasSlave = true) : s.timeSetKey v = s.bump 0xE010 :=
  if_pos (by simpa [fldN] using h)

theorem timeSetKey_sets (hk : v.toNat % 65536 = 0x71DE) (hp : s.fbit F.timeStatus_hasSlave = false)
    (hn : (s.rd R.timeSetNs).toNat < 1000000000) : s.timeSetKey v =
      (({ s with time := { s.time with tb0s := s.rd R.timeSetSecHi ++ s.rd R.timeSetSecLo, tb0n := (s.rd R.timeSetNs).toNat } } :
        State).bump R.timeSteps).raise hapStep 0 [s.tb0ns, ({ s with time := { s.time with
          tb0s := s.rd R.timeSetSecHi ++ s.rd R.timeSetSecLo, tb0n := (s.rd R.timeSetNs).toNat } } : State).tb0ns] := by
  rw [State.timeSetKey, if_neg (by simp [fldN, hk, hp]), State.stepTb0, setTb0_ns hn]

/-! The obligation. -/

/-- A snapshot shows each base in its registers. -/
theorem timeSnap_shows (hw : s.regsWf = true) : s.timeSnap.rd64 R.timeSnapTb0SecLo = s.time.tb0s ∧
    s.timeSnap.rd R.timeSnapTb0Ns = BitVec.ofNat 32 s.time.tb0n ∧ s.timeSnap.rd64 R.timeSnapTb1Lo = s.time.tb1 ∧
    s.timeSnap.rd64 R.timeSnapTb2Lo = s.tb2 ∧
    s.timeSnap.rd64 R.timeSnapTb3Lo = BitVec.ofNat 64 (s.time.tb3 % 2 ^ 48 + s.time.pcc % 2 ^ 16 * 2 ^ 48) := by
  unfold State.timeSnap
  extract_lets a
  have ha : a.regsWf = true := regsWf_wr64 (regsWf_wr (regsWf_wr64 hw))
  have h2 : a.tb2 = s.tb2 := rfl
  refine ⟨?_, ?_, ?_, ?_, rd64_wr64 (regsWf_wr64 ha)⟩
  · rw [rd64_wr64_ne (by decide) (by decide) (by decide), rd64_wr64_ne (by decide) (by decide) (by decide),
      rd64_wr64_ne (by decide) (by decide) (by decide), State.rd64, rd_wr_ne (by decide), rd_wr_ne (by decide)]
    exact rd64_wr64 hw
  · rw [rd_wr64_ne (by decide) (by decide), rd_wr64_ne (by decide) (by decide), rd_wr64_ne (by decide) (by decide)]
    exact rd_wr_self (regsWf_wr64 hw)
  · rw [rd64_wr64_ne (by decide) (by decide) (by decide), rd64_wr64_ne (by decide) (by decide) (by decide)]
    exact rd64_wr64 (regsWf_wr (regsWf_wr64 hw))
  · rw [rd64_wr64_ne (by decide) (by decide) (by decide), ← h2]
    exact rd64_wr64 ha

/-- A clock period adds 4 ns to TB1 and changes nothing beside the time bases. -/
theorem tick_runs (hr : s.power.rails = true) (hs : s.time.stopped = false) (ho : s.power.ocxo = true) :
    s.tick.time.tb1 = s.time.tb1 + 4 ∧ s.tick = { s with time := s.tick.time } := by
  have h : ¬ (((!s.power.rails) || s.time.stopped || !s.power.ocxo) = true) := by simp [hr, hs, ho]
  rw [State.tick, if_neg h]
  exact ⟨rfl, rfl⟩

theorem tick_rests (h : s.power.rails = false ∨ s.time.stopped = true ∨ s.power.ocxo = false) : s.tick = s :=
  if_pos (by rcases h with h | h | h <;> simp [h])

theorem step_of_empty (h : s.pending = []) : step s = .next s.tick := by rw [step, h]

/-- Settles O28: the commands of the time block by what each writes, and the operating second by its frame beside the time bases. -/
theorem timeBases : Obligations.TimeBases := by
  unfold Obligations.TimeBases
  refine ⟨fun m s hw => ⟨fun h => ?snap, fun v h hk hp hn => ?set, fun v h hbad => ?ignored, ?leap, fun hp ht => ?qualified,
    fun ha hc => ?resting, fun ha hc => ?running⟩, fun s hq => ⟨step_of_empty hq, fun h => ?stands, fun hr hs ho => ?ticks⟩⟩
  case snap =>
    obtain ⟨h0, hns, h1, h2, h3⟩ := timeSnap_shows hw
    refine ⟨_, exec_timeSnap_writes h, h0, hns, h1, h2, h3, Frame.onlyRegs (W := [.reg R.timeSnapTb0SecLo,
      .reg (R.timeSnapTb0SecLo + 4), .reg R.timeSnapTb0Ns, .reg R.timeSnapTb1Lo, .reg (R.timeSnapTb1Lo + 4), .reg R.timeSnapTb2Lo,
      .reg (R.timeSnapTb2Lo + 4), .reg R.timeSnapTb3Lo, .reg (R.timeSnapTb3Lo + 4)]) ?_ hw⟩
    exact .trans (.trans (.trans (.trans .wr64 .wr) .wr64) .wr64) .wr64
  case set =>
    refine ⟨_, (exec_timeSet_writes h).trans (congrArg _ (timeSetKey_sets hk hp hn)), rfl, rfl, rfl, ?_, ?_, rfl⟩
    · exact toNat_rd_bump (s := { s with time := _ }) hw
    · exact fun o ho => rd_bump_ne (s := { s with time := _ }) (by simpa using ho)
  case ignored =>
    exact ignored_of hw (by rw [exec_timeSet_writes h, timeSetKey_ignored hbad])
  case leap =>
    let o := if s.fbit F.timeUtc_leap61 then s.fget F.timeUtc_offset + 1
      else if s.fbit F.timeUtc_leap59 then s.fget F.timeUtc_offset + 65535 else s.fget F.timeUtc_offset
    have h1 : (s.fset F.timeUtc_offset o).regsWf = true := regsWf_fset hw
    have h2 : ((s.fset F.timeUtc_offset o).fset F.timeUtc_leap61 0).regsWf = true := regsWf_fset h1
    refine ⟨_, rfl, onlyRegs_trans (onlyRegs_trans onlyRegs_fset onlyRegs_fset) onlyRegs_fset, ?_, ?_, ?_⟩
    · rw [State.fbit, fget_fset_ne h2 (by decide) (by decide), fget_fset h1 (by decide)]
      rfl
    · rw [State.fbit, fget_fset h2 (by decide)]
      rfl
    · rw [fget_fset_ne h2 (by decide) (by decide), fget_fset_ne h1 (by decide) (by decide), fget_fset hw (by decide)]
      have ho : o = s.fget F.timeUtc_offset + (if s.fbit F.timeUtc_leap61 then 1 else if s.fbit F.timeUtc_leap59 then 65535 else 0) := by
        simp only [o]
        split
        · rfl
        · split <;> rfl
      rw [ho]
      rfl
  case qualified =>
    have hc : (s.time.parent.isSome && (s.tb0State == tbFreerun || s.tb0State == tbHoldover)) = true := by
      rcases ht with ht | ht <;> simp [hp, State.tb0State, ht, tbFreerun, tbHoldover]
    have h1 : (s.fset F.timeStatus_tb0State tbAcquiring).regsWf = true := regsWf_fset hw
    refine ⟨_, by rw [exec_parentQualified, execParentQualified, State.when, if_pos hc], ?_, ?_, ?_, rfl⟩
    · exact fieldSet_of_rd (fieldSet_fset_lt hw (by decide) (by decide)) (rd_wr_ne (by decide))
    · exact rd_wr_self h1
    · intro o ho
      rw [List.mem_cons, List.mem_singleton, not_or] at ho
      exact (rd_wr_ne ho.2).trans (rd_fset_ne ho.1)
  case resting => rw [exec_tb3Second, execTb3Second, State.when, ha, hc]; rfl
  case running =>
    obtain ⟨t, he, hf⟩ := exec_tb3Second_running ha hc
    generalize hs1 : ({ s with time := { s.time with tb3 := s.time.tb3 + 1 } } : State) = s1 at hf
    have hw1 : s1.regsWf = true := by subst hs1; exact hw
    have hst : s1.fget F.timeStatus_tb0State = s.fget F.timeStatus_tb0State := by subst hs1; rfl
    have hrd (o : Nat) : s1.rd o = s.rd o := by subst hs1; rfl
    have hh : Frame [.regs] [.reg R.timeHoldS, .reg R.timeTb0Err] s1 s1.holdSecond := holdSecond_frame
    have htime : t.time = s1.time := (hf.part .time (by decide)).trans (hh.part .time (by decide))
    have hmem : t.mem = s1.mem := (hf.part .mem (by decide)).trans (hh.part .mem (by decide))
    have hbrm : t.brm = s1.brm := (hf.part .brm (by decide)).trans (hh.part .brm (by decide))
    have hw2 := hh.canon hw1
    refine ⟨t, he, ?_⟩
    rw [htime, hmem, hbrm, hf.rd hw2, hf.rd hw2]
    subst hs1
    refine ⟨rfl, rfl, rfl, rfl, rfl, rfl, fun h3 => ?_, fun h3 => ?_⟩
    · rw [holdSecond_holdover (hst.trans h3)]
      refine ⟨?_, ?_⟩
      · rw [rd_bumpBy_ne (by decide), toNat_rd_bump hw1]
        rfl
      · rw [toNat_rd_bumpBy (regsWf_bump hw1), rd_bump_ne (by decide)]
        rfl
    · rw [holdSecond_other (fun h => h3 (hst.symm.trans h))]
      exact ⟨rfl, rfl⟩
  case stands => rw [step_of_empty hq, tick_rests h]
  case ticks => exact ⟨_, step_of_empty hq, tick_runs hr hs ho⟩

end Sys2Proof.Machine
end

section
/-! The reflex instructions, and what the load checks assure (R148 to R158). -/

namespace Sys2Proof.Machine

variable {x : RCtx} {w : RWork} {op sp idx word : Nat}

/-! Single bits, single entries. -/

theorem getLsbD_setBit {n i k : Nat} {y : BitVec n} {b : Bool} (hk : k < n) :
    (setBit y i b).getLsbD k = if k = i then b else y.getLsbD k := by
  rw [setBit, BitVec.getLsbD_ofNat, testBit_setFldN, decide_eq_true hk, Bool.true_and]
  by_cases e : k = i
  · subst e
    cases b <;> simp [bit]
  · rw [if_neg (by omega), if_neg e, BitVec.getLsbD]

theorem vget_vset_self {α : Type} [Inhabited α] {n i : Nat} {v : Vector α n} {a : α} (h : i < n) : vget (vset v i a) i = a := by
  simp [vget, vset, h]

theorem vget_vset_ne {α : Type} [Inhabited α] {n i j : Nat} {v : Vector α n} {a : α} (h : j ≠ i) : vget (vset v i a) j = vget v j := by
  simp [vget, vset, Vector.getElem?_setIfInBounds_ne (Ne.symm h)]

/-! An instruction by its operation. -/

theorem rfxStep_bit (h0 : 0 < op) (h : op < 12) (hs : sp < 8) (hi : idx < 512) :
    rfxStep x w (op * 4096 + sp * 512 + idx) = rfxBit x w op sp idx := by
  have h12 : fldN (op * 4096 + sp * 512 + idx) 12 4 = op := by unfold fldN; omega
  have h9 : fldN (op * 4096 + sp * 512 + idx) 9 3 = sp := by unfold fldN; omega
  have hf : fldN (op * 4096 + sp * 512 + idx) 0 9 = idx := by unfold fldN; omega
  simp only [rfxStep, h12, h9, hf]
  rw [if_neg (by omega), if_neg (by omega), if_neg (by omega), if_neg (by omega), if_neg (by omega)]

theorem rfxStep_edge (hop : fldN word 12 4 = 0xC) : rfxStep x w word = rfxEdge x w (bitN word 11) (fldN word 0 9) := by
  simp [rfxStep, hop]

theorem rfxStep_stack (hop : fldN word 12 4 = 0xD) : rfxStep x w word = rfxStack w (fldN word 8 4) := by
  simp [rfxStep, hop]

theorem rfxStep_tmc (hop : fldN word 12 4 = 0xE) : rfxStep x w word = rfxTmc x w (fldN word 9 3) (fldN word 0 6) := by
  simp [rfxStep, hop]

theorem rfxStep_rise (hi : idx < 512) : rfxStep x w (0xC000 + idx) = rfxEdge x w false idx := by
  have hf : fldN (0xC000 + idx) 0 9 = idx := by unfold fldN; omega
  have hb : bitN (0xC000 + idx) 11 = false := by
    rw [bitN, Nat.testBit_eq_decide_div_mod_eq, decide_eq_false_iff_not]
    omega
  rw [rfxStep_edge (by unfold fldN; omega), hf, hb]

theorem rfxStep_fall (hi : idx < 512) : rfxStep x w (0xC800 + idx) = rfxEdge x w true idx := by
  have hf : fldN (0xC800 + idx) 0 9 = idx := by unfold fldN; omega
  have hb : bitN (0xC800 + idx) 11 = true := by
    rw [bitN, Nat.testBit_eq_decide_div_mod_eq, decide_eq_true_eq]
    omega
  rw [rfxStep_edge (by unfold fldN; omega), hf, hb]

theorem rfxStep_ton (hi : idx < 64) : rfxStep x w (0xE000 + idx) = rfxTon x w idx := by
  have h9 : fldN (0xE000 + idx) 9 3 = 0 := by unfold fldN; omega
  have hf : fldN (0xE000 + idx) 0 6 = idx := by unfold fldN; omega
  rw [rfxStep_tmc (by unfold fldN; omega), h9, hf]
  rfl

theorem rfxStep_ctu (hi : idx < 64) : rfxStep x w (0xE000 + 4 * 512 + idx) = rfxCount x w idx 1 := by
  have h9 : fldN (0xE000 + 4 * 512 + idx) 9 3 = 4 := by unfold fldN; omega
  have hf : fldN (0xE000 + 4 * 512 + idx) 0 6 = idx := by unfold fldN; omega
  rw [rfxStep_tmc (by unfold fldN; omega), h9, hf]
  rfl

theorem rfxStep_pop_push : rfxStep x (rfxStep x w 0xD000) 0xD100 = w := rfl

/-! Timers and counters. -/

theorem rfxTon_acc : (rfxTon x w idx).acc = (w.acc && decide (x.presetT idx ≤
    if (vget w.img.t idx).run then min (x.frame - (vget w.img.t idx).start).toNat 0x7FFFFFFF else 0)) := by
  unfold rfxTon
  generalize vget w.img.t idx = t
  cases ha : w.acc with
  | false => rfl
  | true => cases hr : t.run <;> simp [elapsed, hr]

theorem rfxCount_count (hi : idx < 64) : (vget (rfxCount x w idx 1).img.c idx).count =
    if w.acc = true ∧ (vget w.img.c idx).prev = false then
      BitVec.ofInt 32 (min ((vget w.img.c idx).count.toInt + 1) (2 ^ 31 - 1)) else (vget w.img.c idx).count := by
  unfold rfxCount
  generalize vget w.img.c idx = c
  simp only [RWork.setC, vget_vset_self hi]
  have hc := BitVec.le_toInt c.count
  by_cases h : w.acc = true ∧ c.prev = false
  · have hs : satS32 (c.count.toInt + 1) = BitVec.ofInt 32 (min (c.count.toInt + 1) (2 ^ 31 - 1)) := by
      rw [satS32]
      congr 1
      omega
    rw [if_pos (by simp [h]), if_pos h]
    exact hs
  · rw [if_neg (by simpa using h), if_neg h]

/-! What a step writes. -/

/-- A write to an operand other than a Q bit leaves the Q vector. -/
theorem imagePut_q {m : RImage} {b : Bool} (h : sp ≠ 3) : (imagePut m sp idx b).q = m.q := by
  unfold imagePut
  split
  · rfl
  · exact absurd rfl h
  · rfl
  · rfl

theorem rfxEdge_q {fall : Bool} : (rfxEdge x w fall idx).img.q = w.img.q := rfl
theorem rfxStack_q : (rfxStack w op).img = w.img := by unfold rfxStack; split <;> rfl
theorem rfxTon_q : (rfxTon x w idx).img.q = w.img.q := rfl
theorem rfxTrst_q : (rfxTrst w idx).img.q = w.img.q := by unfold rfxTrst; split <;> rfl

theorem rfxTmc_q : (rfxTmc x w op idx).img.q = w.img.q := by
  unfold rfxTmc
  split
  case h_4 => exact rfxTrst_q
  case h_7 | h_8 => split <;> rfl
  all_goals rfl

theorem rfxWord_q : (rfxWord x w op idx).img.q = w.img.q := by
  unfold rfxWord
  split
  case h_4 => split <;> rfl
  all_goals rfl

/-- A bit instruction that stores writes the Q bit of its index alone. -/
theorem rfxBit_q {n : Nat} (hn : n < 32) (h0 : 0 < op) (h : sp = 3 → 8 ≤ op → idx ≠ n) :
    (rfxBit x w op sp idx).img.q.getLsbD n = w.img.q.getLsbD n := by
  have hput (b : Bool) (h8 : 8 ≤ op) : (imagePut w.img sp idx b).q.getLsbD n = w.img.q.getLsbD n := by
    by_cases hs : sp = 3
    · subst hs
      exact (getLsbD_setBit hn).trans (if_neg (Ne.symm (h rfl h8)))
    · rw [imagePut_q hs]
  unfold rfxBit
  split
  case h_8 | h_9 => exact hput _ (by decide)
  case h_10 => split <;> [exact hput _ (by decide); rfl]
  case h_11 n1 n2 n3 n4 n5 n6 n7 _ _ _ =>
    have h8 : 8 ≤ op := by
      simp only [imp_false] at n1 n2 n3 n4 n5 n6 n7
      omega
    split <;> [exact hput _ h8; rfl]
  all_goals rfl

/-- An instruction within the bounds of the binding leaves the Q bits that are not bound (R158). -/
theorem rfxStep_q {bind dir : W32} {n : Nat} (hn : n < 32) (hb : bind.getLsbD n = false) (hok : rfxBoundOk bind dir word = true) :
    (rfxStep x w word).img.q.getLsbD n = w.img.q.getLsbD n := by
  have hop : fldN word 12 4 < 16 := Nat.mod_lt _ (by decide)
  unfold rfxStep
  extract_lets op
  by_cases hC : op = 0xC
  · rw [if_pos hC]; rfl
  by_cases hD : op = 0xD
  · rw [if_neg hC, if_pos hD, rfxStack_q]
  by_cases hE : op = 0xE
  · rw [if_neg hC, if_neg hD, if_pos hE, rfxTmc_q]
  by_cases hF : op = 0xF
  · rw [if_neg hC, if_neg hD, if_neg hE, if_pos hF, rfxWord_q]
  by_cases h0 : op = 0
  · rw [if_neg hC, if_neg hD, if_neg hE, if_neg hF, if_pos h0]
  rw [if_neg hC, if_neg hD, if_neg hE, if_neg hF, if_neg h0]
  refine rfxBit_q hn (Nat.pos_of_ne_zero h0) fun hs h8 he => ?_
  have hle : 1 ≤ op ∧ op ≤ 0xB := by omega
  rw [rfxBoundOk, if_pos hle, if_pos ⟨hs, h8⟩, he, hb] at hok
  exact absurd hok Bool.false_ne_true

/-! The stack. -/

theorem rfxBit_stk : (rfxBit x w op sp idx).stk = w.stk := by
  unfold rfxBit
  split
  case h_10 | h_11 => split <;> rfl
  all_goals rfl

theorem rfxTmc_stk : (rfxTmc x w op idx).stk = w.stk := by
  unfold rfxTmc
  split
  case h_4 => unfold rfxTrst; split <;> rfl
  case h_7 | h_8 => split <;> rfl
  all_goals rfl

theorem rfxWord_stk : (rfxWord x w op idx).stk = w.stk := by
  unfold rfxWord
  split
  case h_4 => split <;> rfl
  all_goals rfl

theorem rfxStep_stk (h : fldN word 12 4 ≠ 0xD) : (rfxStep x w word).stk = w.stk := by
  unfold rfxStep
  extract_lets op
  rw [if_neg (c := op = 0xD) h]
  split
  · rfl
  split
  · exact rfxTmc_stk
  split
  · exact rfxWord_stk
  split
  · rfl
  · exact rfxBit_stk

/-- The stack holds what the load check counts (R152). -/
theorem length_stk_rfxStep {e : Nat} (h : rfxDepth w.stk.length word = some e) : (rfxStep x w word).stk.length = e := by
  by_cases hD : fldN word 12 4 = 0xD
  · rw [rfxStep_stack hD]
    rw [rfxDepth, if_pos hD] at h
    unfold rfxStack
    split at h
    case h_1 hf =>
      rw [hf]
      split at h
      · simpa using h
      · cases h
    case h_2 hf | h_3 hf | h_4 hf | h_5 hf =>
      rw [hf]
      split at h
      · cases h
      · simpa using h
    case h_6 hf0 hf1 hf2 hf3 hf4 =>
      split
      case h_1 hf | h_2 hf | h_3 hf | h_4 hf | h_5 hf => contradiction
      all_goals exact Option.some.inj h
  · rw [rfxStep_stk hD]
    rw [rfxDepth, if_neg hD] at h
    exact Option.some.inj h

theorem rfxDepth_le {d e : Nat} (hd : d ≤ 16) (h : rfxDepth d word = some e) : e ≤ 16 := by
  unfold rfxDepth at h
  split at h
  · split at h
    case h_1 =>
      split at h
      · simp only [Option.some.injEq] at h; omega
      · cases h
    case h_2 | h_3 | h_4 | h_5 =>
      split at h
      · cases h
      · simp only [Option.some.injEq] at h; omega
    case h_6 => cases h; exact hd
  · cases h; exact hd

/-- What the scan of a program assures of a pass from a state whose stack has the depth that the scan starts with. -/
theorem rfxScan_sound {bind dir : W32} {code : List Nat} {top i d last : Nat}
    (h : rfxScan bind dir i d top code = .inr last) (hd : d ≤ top) (ht : top ≤ 16) :
    top ≤ last ∧ last ≤ 16 ∧ ∀ w : RWork, w.stk.length = d →
      (∀ n < 32, bind.getLsbD n = false → (code.foldl (rfxStep x) w).img.q.getLsbD n = w.img.q.getLsbD n) ∧
      ∀ k ≤ code.length, ((code.take k).foldl (rfxStep x) w).stk.length ≤ last := by
  induction code generalizing i d top with
  | nil =>
    cases h
    refine ⟨le_rfl, ht, fun w hw => ⟨fun _ _ _ => rfl, fun k hk => ?_⟩⟩
    simpa [hw] using hd
  | cons word r ih =>
    rw [rfxScan] at h
    split at h
    · cases h
    next hok =>
      simp only [Bool.or_eq_true, Bool.not_eq_true', not_or, Bool.not_eq_false] at hok
      cases hdep : rfxDepth d word with
      | none => rw [hdep] at h; cases h
      | some e =>
        rw [hdep] at h
        have he := rfxDepth_le (hd.trans ht) hdep
        obtain ⟨hle, hlast, hrun⟩ := ih h (le_max_right ..) (max_le ht he)
        refine ⟨(le_max_left ..).trans hle, hlast, fun w hw => ?_⟩
        obtain ⟨hq, hk⟩ := hrun (rfxStep x w word) (length_stk_rfxStep (by rw [hw, hdep]))
        refine ⟨fun n hn hb => (hq n hn hb).trans (rfxStep_q hn hb hok.2), fun k hk' => ?_⟩
        cases k with
        | zero => simpa [hw] using hd.trans ((le_max_left ..).trans hle)
        | succ k => exact hk k (Nat.le_of_succ_le_succ hk')

/-- Settles O45: each instruction by its operation, and the load checks by induction over the program. -/
theorem reflexInstructions : Obligations.ReflexInstructions := by
  unfold Obligations.ReflexInstructions
  refine ⟨fun x w sp idx hs hi => ?instr, fun bind dir code top h => ?checks⟩
  case instr =>
    intro word b
    have hbit (op : Nat) (h0 : 0 < op) (h : op < 12) : rfxStep x w (word op) = rfxBit x w op sp idx := rfxStep_bit h0 h hs hi
    refine ⟨hbit 1 (by decide) (by decide), hbit 2 (by decide) (by decide), hbit 3 (by decide) (by decide),
      hbit 5 (by decide) (by decide), hbit 7 (by decide) (by decide), fun h3 h32 k hk => ?store, fun h3 ha => ?none,
      fun hset => ?edge, rfxStep_pop_push, fun h64 => ?ton, fun h64 => ?ctu⟩
    case store =>
      rw [hbit 8 (by decide) (by decide)]
      subst h3
      exact getLsbD_setBit hk
    case none =>
      rw [hbit 10 (by decide) (by decide), hbit 11 (by decide) (by decide)]
      exact ⟨if_neg (by simp [ha]), if_neg (by simp [ha])⟩
    case edge =>
      rw [rfxStep_rise hi, rfxStep_fall hi]
      refine ⟨?_, ?_, fun k hk => getLsbD_setBit hk⟩
      · simp [rfxEdge, hset]
      · simp [rfxEdge, hset]
    case ton =>
      rw [rfxStep_ton h64]
      exact rfxTon_acc
    case ctu =>
      rw [rfxStep_ctu h64]
      exact rfxCount_count h64
  case checks =>
    obtain ⟨-, hlast, -⟩ := rfxScan_sound (x := {}) h le_rfl (by decide)
    refine ⟨hlast, fun x m => ?_⟩
    obtain ⟨-, -, hrun⟩ := rfxScan_sound (x := x) h le_rfl (by decide)
    exact hrun { img := m } rfl

end Sys2Proof.Machine
end

section
/-! Frames of the shared operations: what each may change. -/

namespace Sys2Proof.Machine

theorem frame_queueEvent (s : State) (code : Nat) (src : W32) (ps : List W64) : Frame [.regs, .scan] [.fld
    F.scanStatus_evqFull, .reg R.scanEvqDepth, .reg R.scanEvqOvf] s (s.queueEvent code src ps) := by
  unfold State.queueEvent
  refine Frame.ite .scan (Frame.ite ?_ ?_)
  · exact Frame.trans (.trans .scan .wr) .fsetb
  · exact Frame.trans .scan .bump
theorem frame_event (s : State) (code b n : Nat) (ps : List W64) : Frame [.regs, .scan, .recd] [.fld F.scanStatus_evqFull, .reg
    R.scanEvqDepth, .reg R.scanEvqOvf] s (s.event code b n ps) :=
  Frame.ite (frame_queueEvent ..).sub Frame.raise
theorem frame_obsCountBy (s : State) (code k : Nat) : Frame [.regs] [.span 0x14400 0x14800] s (s.obsCountBy code k) := by
  refine Frame.ite (Frame.refl s) (Frame.foldl (fun u e he => .wr (cover_span 0x14400 0x14800 ?_)) s)
  have hb := (List.mem_filter.mp he).2
  simp only [Bool.and_eq_true, decide_eq_true_eq, and_assoc] at hb
  dsimp only [R.obsCntkSel, R.obsCntk] at hb ⊢
  omega
theorem frame_obsCount (s : State) (code : Nat) : Frame [.regs] [.span 0x14400 0x14800] s (s.obsCount code) := frame_obsCountBy
    s code 1
theorem frame_obsCollect (s : State) (r : ObsRec) : Frame [.regs, .obs] [.reg R.obsDrop] s (s.obsCollect r) :=
  Frame.ite .obs (.trans .obs .bump)
theorem frame_stopAudit (s : State) : Frame [.regs, .brm] [.fld F.brmStatus_auditRun] s s.stopAudit := Frame.trans .brm .fset
theorem frame_enter (s : State) (m : ModState) : Frame [.out, .regs, .brm, .recd] [.fld F.brmStatus_auditRun, .fld
    F.pairStatus_state] s (s.enter m) :=
  have h := (((frame_stopAudit s).sub.trans (.setMod (m := m))).trans (.raise (e := hapRole) (n := 0) (l := [BitVec.ofNat 64
    (modCode m)])))
  Frame.ite (Frame.refl s) (Frame.ite (h.trans .emit) h)
theorem frame_canDiscard (s : State) (n : Nat) : Frame [.can] [] s (s.canDiscard n) := Frame.patched rfl rfl rfl
theorem frame_canLeave (s : State) (n : Nat) : Frame [.can] [] s (s.canLeave n) := Frame.patched rfl rfl rfl
theorem frame_canPermitPort (s : State) (n : Nat) (hn : n < 4) : Frame [.regs, .can] [.blk 0xa] s (s.canPermitPort n) := by
  unfold State.canPermitPort
  have hp : coverAll [.blk 0xa] ⟨R.canStatus, n, 1⟩ = true :=
    cover_span 0xA000 0xB000 (by dsimp only; decide) rfl (Nat.ble_eq.mpr (by dsimp only; omega))
  have hf : coverAll [.blk 0xa] (F.canChnStatus_pstate n) = true := cover_span 0xA000 0xB000 (by
    dsimp only [R.canChnStatus]
    omega)
  extract_lets f was a b c
  have ha : Frame [.regs, .can] [.blk 0xa] s a := Frame.ite (frame_canLeave s n).sub (Frame.refl s)
  have hb : Frame [.regs, .can] [.blk 0xa] s b := ha.trans (Frame.ite (frame_canDiscard a n).sub (Frame.refl a))
  have hc : Frame [.regs, .can] [.blk 0xa] s c := hb.trans (Frame.fsetb hp)
  clear_value c
  exact hc.trans (Frame.ite (Frame.fset hf) (Frame.ite (Frame.fset hf) (Frame.refl _)))
theorem frame_canPermit (s : State) : Frame [.regs, .can] [.blk 0xa] s s.canPermit :=
  Frame.foldl (fun u n hn => frame_canPermitPort u n (by
    simp only [List.mem_cons, List.not_mem_nil, or_false] at hn
    omega)) s
theorem frame_catRefuse (s : State) (cls m : Nat) (k : AccKind) (a c : Nat) (h : cls < 8) : Frame [.regs, .cat, .recd] [.blk
    0xf] s (s.catRefuse cls m k a c) := by
  unfold State.catRefuse
  extract_lets u v0 v _ _
  have hb : Frame [.regs, .cat, .recd] [.blk 0xf] s u := Frame.bump (cover_span 0xF000 0x10000 (by
    dsimp only [R.catClmFaults]
    omega))
  have h : Frame [.regs, .cat, .recd] [.blk 0xf] s v := by
    refine hb.trans ?_
    dsimp only [v]
    split
    · exact Frame.refl _
    · exact Frame.after .fset (Frame.after .wr .wr64)
  exact h.trans (Frame.ite .cat (.trans .cat .raise))
theorem frame_catAccess (s : State) (cls m : Nat) (k : AccKind) (a : Nat) (h : cls < 8) : Frame [.regs, .cat, .recd] [.blk 0xf]
    s (s.catAccess cls m k a).1 := by
  unfold State.catAccess
  cases s.catDecide cls k a with
  | none => exact Frame.refl s
  | some c => exact frame_catRefuse s cls m k a c h
theorem frame_showCh (s : State) (n : Nat) (h : n < 32) : Frame [.regs] [.blk 0x6] s (s.showCh n) :=
  .wr (cover_span 0x6000 0x7000 (by simp only [R.dioChnStatus]; omega))
theorem frame_showLp (s : State) (n : Nat) (h : n < 8) : Frame [.regs] [.blk 0x7] s (s.showLp n) := by
  have hc (k : Nat) (hk : 0x7100 ≤ k ∧ k < 0x7200) : coverAll [.blk 7] ⟨k + n * 0x20, 0, 32⟩ = true :=
    cover_span 0x7000 0x8000 (by dsimp only; omega)
  exact ((Frame.wr (hc 0x7118 (by decide))).trans (Frame.wr (hc 0x7110 (by decide)))).trans (Frame.wr (hc 0x7114 (by decide)))
theorem frame_showIsland (s : State) : Frame [.regs] [.blk 0x6, .blk 0x7] s s.showIsland := by
  unfold State.showIsland
  refine Frame.ite (.refl s) ?_
  extract_lets _ a b c d e f g h
  have hb : Frame [.regs] [.blk 0x6, .blk 0x7] s b := (Frame.foldl (fun u n hn => (frame_showCh u n (List.mem_range.mp
    hn)).sub) s).trans
    (Frame.foldl (fun u n hn => (frame_showLp u n (List.mem_range.mp hn)).sub) a)
  have hd : Frame [.regs] [.blk 0x6, .blk 0x7] s d := ((hb.trans .wr).trans .wr).trans (.trans .wr .wr)
  have hg : Frame [.regs] [.blk 0x6, .blk 0x7] s f := ((hd.trans (.trans .fsetb .fsetb)).trans (.trans .fsetb .fsetb)).trans
    (.trans .fsetb .fsetb)
  clear_value f
  exact ((hg.trans .fsetb).trans (.trans .fsetb .fsetb)).trans .wr
theorem frame_poison (s : State) (p : NSet) : Frame [.mem] [] s { s with mem := { s.mem with poison := p } } := Frame.mem
theorem frame_takeRegs (s : State) (p : Nat → Bool) : Frame [.act] [] s { s with act := scopy regReset p s.regs s.act } := by
  refine ⟨fun q hq => ?_, fun h => ?_, fun _ _ _ _ => rfl⟩
  · cases q
    case act => exact absurd (List.mem_singleton.mpr rfl) hq
    all_goals rfl
  · obtain ⟨hr, ha⟩ := Bool.and_eq_true_iff.mp h
    exact Bool.and_eq_true_iff.mpr ⟨hr, swf_scopy _ _ _ _ ha⟩
theorem frame_obsPass (s : State) (frame : W64) (event aborted : Bool) (q m : W32) : Frame [.regs, .obs] [.reg R.obsDrop, .span
    0x14400 0x14800] s (s.obsPass frame event
    aborted q m) :=
  Frame.after (Frame.ite (frame_obsCollect ..).sub (Frame.refl _)) <| Frame.after (Frame.ite (frame_obsCount ..).sub
    (Frame.refl _)) <| (frame_obsCount ..).sub
theorem frame_mcAbandon (s : State) (a : Nat) : Frame [.recd] [] s (s.mcAbandon a) := Frame.raise
theorem frame_spanAccess (s : State) (cls : Nat) (k : AccKind) (a n : Nat) (h : cls < 8) : Frame [.regs, .cat, .recd] [.blk
    0xf] s (s.spanAccess cls k a n).1 :=
  Frame.foldl_fst (fun _ _ => Frame.ite_fst (Frame.refl _) (frame_catAccess (h := h) ..).sub) _ _ _
theorem frame_mcAccess (s : State) (k : AccKind) (a n : Nat) : Frame [.regs, .cat, .recd] [.blk 0xf] s (s.mcAccess k a n).1 :=
  Frame.ite (frame_spanAccess (h := by decide) ..).sub (Frame.after (frame_mcAbandon ..).sub <| (frame_spanAccess (h := by
    decide) ..).sub)
theorem frame_islandLoad (s : State) (block : Nat) : Frame [.island] [] s (s.islandLoad block) := Frame.island
theorem frame_setDch (s : State) (n : Nat) (f : DChan → DChan) : Frame [.island] [] s (s.setDch n f) := Frame.island
theorem frame_mirrorVote (s : State) : Frame [.island] [] s s.mirrorVote := Frame.island
theorem frame_liftHolds (s : State) : Frame [.island] [] s s.liftHolds := Frame.island
theorem frame_liftVote (s : State) : Frame [.island] [] s s.liftVote :=
  Frame.foldlAll _ (fun _ _ => Frame.ite (frame_setDch ..).sub (Frame.refl _)) _ _
theorem frame_setReady (s : State) (b : Bool) : Frame [.regs] [.fld F.pairStatus_ready] s (s.setReady b) := Frame.fsetb
theorem frame_dmaWait (s : State) : Frame [.regs] [.blk 0xc] s s.dmaWait :=
  Frame.after (Frame.foldl (fun u ch h => Frame.ite (.fset (cover_span 0xC000 0xD000 (by
    have := List.mem_range.mp h
    dsimp only [R.dmaChnStatus]
    omega))) (.refl _)) _) Frame.fset
theorem frame_dropCmds (s : State) : Frame [.regs, .host, .dma, .dray] [.blk 0xc] s s.dropCmds := by
  refine Frame.after (t := State.dmaWait _) (Frame.patched rfl rfl rfl) <| Frame.after (frame_dmaWait ..).sub <| Frame.foldl
    (fun u ch h => ?_) s
  have hch := List.mem_range.mp h
  exact Frame.trans (.fset (cover_span 0xC000 0xD000 (by simp only [R.dmaChnStatus]; omega)))
    (.fset (cover_span 0xC000 0xD000 (by dsimp only; decide) rfl (Nat.ble_eq.mpr (by dsimp only; omega))))
abbrev tokenDropPlaces : List Rect := [.fld F.pairStatus_token, .blk 0x6, .blk 0x7, .fld F.ringStatus_master, .fld
  F.ringStatus_passive, .blk 0xc]
theorem frame_tokenDrop (s : State) (transfer : Bool) : Frame [.regs, .bogie, .island, .host, .dma, .dray] tokenDropPlaces s
    (s.tokenDrop transfer) :=
  Frame.after (frame_showIsland ..).sub <| Frame.after Frame.bogie <| Frame.after (frame_liftHolds ..).sub <|
    Frame.after Frame.fsetb <| Frame.after Frame.fset <| Frame.after Frame.fsetb <| (frame_dropCmds ..).sub
abbrev latchAwayPlaces : List Rect := [.fld F.pairStatus_token, .fld F.pairStatus_claim, .blk 0x6, .blk 0x7, .fld
  F.ringStatus_master, .fld F.ringStatus_passive, .blk 0xc]
theorem frame_latchAway (s : State) (toPartner : Bool) : Frame [.regs, .bogie, .island, .host, .dma, .dray] latchAwayPlaces s
    (s.latchAway toPartner) :=
  Frame.after Frame.bogie <| Frame.after Frame.fsetb <| (frame_tokenDrop ..).sub
theorem frame_olcCancel (s : State) : Frame [.regs, .recd] [.fld F.olcStatus_pkgState, .reg R.olcRefuse] s s.olcCancel :=
  Frame.ite (Frame.after Frame.raise <| Frame.after Frame.wr <| Frame.fset) (Frame.refl _)
theorem frame_olcCut (s : State) : Frame [.regs, .mem, .olc, .recd] [.fld F.olcStatus_pkgState, .reg R.olcRefuse] s s.olcCut := by
  unfold State.olcCut
  split
  · exact Frame.after .raise <| Frame.after .wr <| Frame.after .fset <| Frame.patched rfl rfl rfl
  · exact (frame_olcCancel s).sub
abbrev logSwitchPlaces : List Rect := [.fld F.olcStatus_pkgState, .reg R.olcRefuse, .reg R.pairSwitches, .fld
  F.pairLastSw_trigger, .fld F.pairLastSw_kind, .fld F.pairLastSw_incoming, .reg R.pairSwCycleLo, .reg (R.pairSwCycleLo + 4)]
theorem frame_logSwitch (s : State) (trigger kind : Nat) (incoming : Bool) : Frame [.regs, .mem, .pair, .olc, .recd]
    logSwitchPlaces s (s.logSwitch trigger kind
    incoming) :=
  Frame.after Frame.pair <| Frame.after Frame.wr64 <| Frame.after Frame.fsetb <|
    Frame.after Frame.fset <| Frame.after Frame.fset <| Frame.after Frame.bump <| Frame.ite
    (frame_olcCancel ..).sub (frame_olcCut ..).sub
abbrev showForcedPlaces : List Rect := [.fld F.pairHealth_own, .fld F.pairHealth_forced, .fld F.pairHealth_fcause]
theorem frame_showForced (s : State) : Frame [.regs] showForcedPlaces s s.showForced := by
  unfold State.showForced
  split
  · exact Frame.after Frame.fset <| Frame.fset
  · exact Frame.after Frame.fset <| Frame.after Frame.fset <| Frame.fset
theorem frame_haltScan (s : State) : Frame [.regs, .brm, .scan] [.fld F.brmStatus_auditRun] s s.haltScan :=
  Frame.after Frame.fset <| Frame.patched rfl rfl rfl
theorem frame_syncReset (s : State) : Frame [.regs, .pair] [.fld F.pairStatus_synced, .reg R.pairSync] s s.syncReset :=
  Frame.after Frame.pair <| Frame.after Frame.fset <| Frame.wr
abbrev toSyncingPlaces : List Rect := [.fld F.brmStatus_auditRun, .fld F.pairStatus_state, .fld F.pairStatus_claim, .fld
  F.pairStatus_ready, .fld F.pairStatus_synced, .reg R.pairSync, .blk 0xa]
theorem frame_toSyncing (s : State) : Frame [.out, .regs, .pair, .brm, .scan, .recd, .can] toSyncingPlaces s s.toSyncing :=
  Frame.after Frame.send <| Frame.after (Frame.patched rfl rfl rfl) <| Frame.after (frame_canPermit ..).sub <|
    Frame.after Frame.fset <| Frame.after (frame_syncReset ..).sub <| Frame.after (frame_enter ..).sub <|
    Frame.after (frame_haltScan ..).sub <| Frame.after Frame.fsetb <| (frame_setReady ..).sub
theorem frame_showRemoval (s : State) (may : Bool) : Frame [.out] [] s (s.showRemoval may) := Frame.emit
theorem frame_handoverEnd (s : State) : Frame [.regs, .pair] [.fld F.pairStatus_handover] s s.handoverEnd := Frame.after
    Frame.fsetb <| Frame.pair
abbrev tokenLostPlaces : List Rect := [.fld F.brmStatus_auditRun, .fld F.olcStatus_pkgState, .reg R.olcRefuse, .fld
  F.pairStatus_state, .fld F.pairStatus_claim, .fld F.pairStatus_ready, .fld F.pairStatus_synced, .fld F.pairStatus_handover,
  .fld F.pairHealth_own, .fld F.pairHealth_forced, .fld F.pairHealth_fcause, .reg R.pairSwitches, .fld F.pairLastSw_trigger,
  .fld F.pairLastSw_kind, .fld F.pairLastSw_incoming, .reg R.pairSwCycleLo, .reg (R.pairSwCycleLo + 4), .reg R.pairSync, .blk
  0xa]
theorem frame_tokenLost (s : State) (trigger : Nat) : Frame [.out, .regs, .mem, .pair, .olc, .brm, .scan, .recd, .can]
    tokenLostPlaces s (s.tokenLost trigger) :=
  Frame.after (frame_toSyncing ..).sub <| Frame.after (frame_showForced ..).sub <| Frame.after Frame.pair <|
    Frame.after (frame_handoverEnd ..).sub <| Frame.after (frame_logSwitch ..).sub <| (frame_haltScan ..).sub
theorem frame_afterDrop (s : State) : Frame [.out, .regs, .mem, .pair, .olc, .brm, .scan, .recd, .can] tokenLostPlaces s
    s.afterDrop := by
  unfold State.afterDrop
  split
  · split
    · exact Frame.ite (frame_tokenLost ..).sub (Frame.after (Frame.ite (frame_showRemoval ..).sub (Frame.refl _)) <|
        Frame.after (Frame.ite (frame_setReady ..).sub (Frame.refl _)) <| Frame.after (frame_handoverEnd ..).sub <|
        Frame.after (frame_enter ..).sub <| Frame.after (frame_logSwitch ..).sub <| (frame_haltScan ..).sub)
    · exact (frame_tokenLost ..).sub
  · exact Frame.after (Frame.ite (frame_showRemoval ..).sub (Frame.refl _)) <| Frame.after Frame.pair <|
      (frame_logSwitch ..).sub
  · exact Frame.refl _
abbrev dropClaimPlaces : List Rect := [.fld F.brmStatus_auditRun, .fld F.olcStatus_pkgState, .reg R.olcRefuse, .fld
  F.pairStatus_state, .fld F.pairStatus_token, .fld F.pairStatus_claim, .fld F.pairStatus_ready, .fld F.pairStatus_synced,
  .fld F.pairStatus_handover, .fld F.pairHealth_own, .fld F.pairHealth_forced, .fld F.pairHealth_fcause, .reg R.pairSwitches,
  .fld F.pairLastSw_trigger, .fld F.pairLastSw_kind, .fld F.pairLastSw_incoming, .reg R.pairSwCycleLo, .reg (R.pairSwCycleLo
  + 4), .reg R.pairSync, .blk 0x6, .blk 0x7, .fld F.ringStatus_master, .fld F.ringStatus_passive, .blk 0xa, .blk 0xc]
abbrev dropClaimParts : List Part := [.out, .regs, .mem, .bogie, .pair, .olc, .brm, .scan, .recd, .island, .can, .host, .dma,
  .dray]
theorem frame_dropClaim (s : State) (trigger : Nat) : Frame dropClaimParts dropClaimPlaces s (s.dropClaim trigger) :=
  Frame.after (Frame.ite (Frame.after (frame_canPermit ..).sub <| Frame.after (frame_afterDrop ..).sub <|
    Frame.after (frame_latchAway ..).sub <| Frame.pair) (Frame.refl _)) <| Frame.fsetb
theorem frame_startHandover (s : State) (trigger : Nat) : Frame dropClaimParts dropClaimPlaces s (s.startHandover trigger) := by
  unfold State.startHandover
  split
  · exact Frame.ite (Frame.after Frame.fsetb <| Frame.pair) (Frame.refl _)
  · exact Frame.ite (frame_dropClaim ..).sub (Frame.refl _)
  · exact Frame.refl _
theorem frame_pullForced (s : State) : Frame dropClaimParts dropClaimPlaces s s.pullForced :=
  Frame.ite (Frame.ite (frame_dropClaim ..).sub (Frame.ite (frame_startHandover ..).sub (Frame.refl _))) (Frame.ite
    (frame_dropClaim ..).sub (Frame.refl _))
theorem frame_forceZero (s : State) (cause : Nat) : Frame dropClaimParts dropClaimPlaces s (s.forceZero cause) :=
  Frame.after (frame_pullForced ..).sub <| Frame.after (Frame.ite (frame_setReady ..).sub (Frame.refl _)) <|
    Frame.after (frame_showForced ..).sub <| Frame.pair
abbrev unforcePlaces : List Rect := [.fld F.pairStatus_ready, .fld F.pairHealth_own, .fld F.pairHealth_forced, .fld
  F.pairHealth_fcause]
theorem frame_unforce (s : State) (cause : Nat) : Frame [.regs, .pair] unforcePlaces s (s.unforce cause) :=
  Frame.after (Frame.ite (frame_setReady ..).sub (Frame.refl _)) <| Frame.after (frame_showForced ..).sub <| Frame.pair
theorem frame_modCmd (s : State) (id : Nat) (f : Cmd → Cmd) : Frame [.host] [] s (s.modCmd id f) := Frame.host
theorem frame_compWrites (s : State) (q : PendComp) : Frame [.out, .regs, .host] [⟨R.hostPpCmds 0, 0, 0x40, 0, 32⟩, .span
    0xB218 0] s (s.compWrites q) := by
  have hc : coverAll [⟨R.hostPpCmds 0, 0, 0x40, 0, 32⟩, .span 0xB218 0] ⟨R.hostPpCmds (q.ring / 8), 0, 32⟩ = true := by
    refine List.any_eq_true.mpr ⟨⟨R.hostPpCmds 0, 0, 0x40, 0, 32⟩, List.mem_cons_self, Rect.covers_iff.mpr ⟨Rect.has_iff.mpr
    ⟨?_, .inl rfl, ?_⟩,
      le_rfl, le_rfl⟩⟩ <;> simp only [R.hostPpCmds] <;> omega
  exact Frame.after (frame_obsCount ..).sub <| Frame.after (Frame.bump hc) <|
    Frame.after (Frame.wr (cover_from 0xB218 (by simp only [R.hostChnDone]; omega))) <|
    Frame.after Frame.host <| Frame.after (Frame.ite Frame.emit (Frame.refl _)) <|
    Frame.after Frame.emit <| Frame.after Frame.emit <| Frame.emit
theorem frame_completeRing (n k : Nat) (s : State) : Frame [.out, .regs, .host] [⟨R.hostPpCmds 0, 0, 0x40, 0, 32⟩, .span 0xB218
    0] s (s.completeRing n k) := by
  induction k generalizing s with
  | zero => exact Frame.refl s
  | succ k ih =>
    unfold State.completeRing
    split
    · exact Frame.refl s
    · split
      · refine Frame.ite (Frame.after (ih _) ?_) <| Frame.ite (Frame.refl s) <| Frame.after Frame.emit (frame_modCmd ..).sub
        exact Frame.after (frame_compWrites ..).sub Frame.host
      · exact Frame.after (ih _) <| Frame.after (frame_compWrites ..).sub Frame.host
abbrev completeAllPlaces : List Rect := [.fld (F.hostPpStatus_cqFull 0), .fld (F.hostPpStatus_cqFull 1), ⟨R.hostPpCmds 0, 0,
  0x40, 0, 32⟩, .span 0xB218 0]
theorem frame_completeAll (s : State) : Frame [.out, .regs, .host] completeAllPlaces s s.completeAll :=
  Frame.after (Frame.foldl (fun u p hp => by
    simp only [List.mem_cons, List.not_mem_nil, or_false] at hp
    rcases hp with rfl | rfl <;> exact Frame.fsetb) _) <| Frame.foldlAll _ (fun _ _ => (frame_completeRing ..).sub) _ _
theorem frame_cmdDone (s : State) (id status result : Nat) : Frame [.out, .regs, .host] completeAllPlaces s (s.cmdDone id
    status result) :=
  Frame.after (frame_completeAll ..).sub <| (frame_modCmd ..).sub
theorem frame_endWaiting (s : State) (p : Cmd → Bool) (status : Nat) : Frame [.out, .regs, .host] completeAllPlaces s
    (s.endWaiting p status) :=
  Frame.after (frame_completeAll ..).sub <| Frame.host
theorem frame_endSwitchCmds (s : State) (status : Nat) : Frame [.out, .regs, .host] completeAllPlaces s (s.endSwitchCmds
    status) := (frame_endWaiting ..).sub
theorem frame_endServiceCmds (s : State) (status : Nat) : Frame [.out, .regs, .host] completeAllPlaces s (s.endServiceCmds
    status) := (frame_endWaiting ..).sub
theorem frame_dmaServe (n : Nat) (s : State) : Frame [.out, .regs, .host, .dma] completeAllPlaces s (s.dmaServe n) := by
  have hc (ch lo w : Nat) (hw : lo + w ≤ 32) : coverAll completeAllPlaces ⟨R.dmaChnStatus ch, lo, w⟩ = true :=
    cover_from 0xB218 (by simp only [R.dmaChnStatus]; omega) rfl (Nat.ble_eq.mpr hw)
  induction n generalizing s with
  | zero => exact Frame.refl s
  | succ n ih =>
    unfold State.dmaServe
    split
    · exact (frame_cmdDone ..).sub.trans (ih _)
    · split
      · exact Frame.refl s
      · exact Frame.after (ih _) <| Frame.after (Frame.fset (hc _ _ _ (by decide))) <| Frame.after (Frame.fset (hc _ _ _ (by
    decide))) <|
          Frame.after (Frame.fset (hc _ _ _ (by decide))) <| Frame.after Frame.dma (frame_modCmd ..).sub
theorem frame_dmaGo (s : State) : Frame [.out, .regs, .host, .dma] completeAllPlaces s s.dmaGo := (frame_dmaServe ..).sub
theorem regNum_le (a : Nat) : regNum a ≤ 7 := by
  unfold regNum
  split
  · exact Nat.min_le_right _ _
  · exact le_rfl
theorem frame_eccUe (s : State) (a : Nat) (scrub : Bool) : Frame [.regs, .mem, .integ, .recd] [.blk 0x10] s (s.eccUe a scrub) :=
  (frame_poison s _).sub.trans <| (Frame.bump (cover_span 0x10000 0x11000 (by
    have := regNum_le a
    dsimp only [R.memRgrUe]
    omega))).trans <| .trans .raise <| .trans .wr64 <| .trans .wr <| .trans .integ .fset
theorem frame_setDru (s : State) (be : Fin 32) (d : Drupelet) : Frame [.brm] [] s (s.setDru be d) := Frame.brm
theorem frame_traceStop (s : State) : Frame [.regs, .brm, .recd, .obs] [.blk 0x2, .fld F.obsStatus_step, .fld
    F.obsStatus_stepBe] s s.traceStop := by
  unfold State.traceStop
  split
  · exact Frame.obs
  · exact Frame.after Frame.raise <| Frame.after (frame_showBrm ..).sub <| Frame.after Frame.fset <|
      Frame.after Frame.fset <| Frame.after (frame_setDru ..).sub <| Frame.obs
theorem frame_leavePool (s : State) (be : Fin 32) (st : DState) : Frame [.regs, .brm] [.blk 0x2] s (s.leavePool be st) :=
  Frame.after (frame_showBrm ..).sub <| Frame.after (frame_setDru ..).sub <| Frame.brm
theorem frame_deactivate (s : State) (be : Fin 32) (st : DState) : Frame [.regs, .brm, .recd, .obs] [.blk 0x2, .fld
    F.obsStatus_step, .fld F.obsStatus_stepBe] s (s.deactivate be st) :=
  Frame.after (Frame.ite (frame_traceStop ..).sub (Frame.refl _)) <| Frame.after (Frame.ite Frame.obs (Frame.refl _))
    <| (frame_leavePool ..).sub
theorem frame_traceEnter (s : State) (be : Fin 32) : Frame [.regs, .brm, .recd, .obs] [.blk 0x2, .fld F.obsStatus_step, .fld
    F.obsStatus_stepBe] s (s.traceEnter be) :=
  Frame.ite (Frame.after Frame.raise <| Frame.after Frame.fset <| Frame.after Frame.fset <|
    Frame.after Frame.obs <| (frame_leavePool ..).sub) (Frame.refl _)
theorem frame_modCls (s : State) (k : Nat) (f : ClassRun → ClassRun) : Frame [.scan] [] s (s.modCls k f) := Frame.scan
theorem frame_setSlot (s : State) (k e : Nat) (h : k < 8) : Frame [.regs] [.reg R.rfxSlots] s (s.setSlot k e) :=
  .fset (cover_span R.rfxSlots (R.rfxSlots + 1) ⟨le_rfl, Nat.lt_succ_self _⟩ rfl (Nat.ble_eq.mpr (by dsimp only; omega)))
abbrev showRfxPlaces : List Rect := [.fld F.brmStatus_auditRun, .blk 0x3, .fld F.olcStatus_pkgState, .reg R.olcRefuse, .fld
  F.pairStatus_state, .fld F.pairStatus_token, .fld F.pairStatus_claim, .fld F.pairStatus_ready, .fld F.pairStatus_synced,
  .fld F.pairStatus_handover, .fld F.pairHealth_own, .fld F.pairHealth_forced, .fld F.pairHealth_fcause, .reg R.pairSwitches,
  .fld F.pairLastSw_trigger, .fld F.pairLastSw_kind, .fld F.pairLastSw_incoming, .reg R.pairSwCycleLo, .reg (R.pairSwCycleLo
  + 4), .reg R.pairSync, .blk 0x6, .blk 0x7, .fld F.ringStatus_master, .fld F.ringStatus_passive, .blk 0xa, .blk 0xc]
abbrev showRfxParts : List Part := [.out, .regs, .mem, .bogie, .pair, .olc, .brm, .scan, .recd, .island, .rfx, .can, .host,
  .dma, .dray]
theorem frame_showRfx (s : State) : Frame showRfxParts showRfxPlaces s s.showRfx :=
  Frame.after (Frame.ite (Frame.ite (Frame.refl _) (Frame.after (frame_forceZero ..).sub <|
    Frame.after Frame.raise <| Frame.after Frame.fset <| Frame.patched rfl rfl rfl)) (Frame.ite
    (Frame.after (frame_unforce ..).sub <| Frame.after Frame.island <| Frame.fset) (Frame.refl _))) <|
    Frame.after Frame.fsetb <| Frame.after Frame.fsetb <| Frame.fsetb
abbrev oddEnginePlaces : List Rect := [.fld F.scanStatus_evqFull, .reg R.scanEvqDepth, .reg R.scanEvqOvf, .blk 0x3]
theorem rfxSlot_lt (s : State) (k : Nat) : s.rfxSlot k < 8 := by
  unfold State.rfxSlot State.fget fldN
  exact Nat.mod_lt _ (by norm_num)
theorem frame_oddEngine (s : State) (e : Nat) : Frame [.regs, .scan, .recd, .rfx] oddEnginePlaces s (s.oddEngine e) := by
  unfold State.oddEngine
  split
  · exact Frame.refl _
  next k hk =>
    have hk4 : k < 8 := by
      have := List.mem_of_find?_eq_some hk
      simp only [List.mem_cons, List.not_mem_nil, or_false] at this
      omega
    have he : e < 8 := by
      have := List.find?_some hk
      exact beq_iff_eq.mp this ▸ rfxSlot_lt s k
    exact Frame.after (Frame.ite (Frame.refl _) (Frame.after (Frame.ite (Frame.refl _) (frame_event ..).sub) <|
      Frame.rfx)) <| Frame.after Frame.raise <| Frame.after (Frame.bump (cover_span 0x3000 0x4000 (by
        dsimp only [R.rfxEnmDisagree]
        omega))) <| Frame.after (Frame.fset (cover_span 0x3000 0x4000 (by
        dsimp only [R.rfxEnmState]
        omega))) <| (frame_setSlot (h := hk4) ..).sub
theorem frame_passAccess (s : State) (e : Nat) : Frame [.regs, .cat, .recd] [.blk 0xf] s (s.passAccess e).1 :=
  Frame.foldl_fst (fun _ _ => Frame.ite_fst (Frame.refl _) (frame_catAccess (h := by decide) ..).sub) _ _ _
theorem frame_guarded {x : State × Bool} {s : State} {w : Option Nat} (h : Frame [.regs, .mem, .cat, .integ, .recd] [.blk 0xf,
    .blk 0x10] s x.1) :
    Frame [.regs, .mem, .cat, .integ, .recd] [.blk 0xf, .blk 0x10] s (if !x.2 then (x.1, true) else match w with
      | some w => (x.1.eccUe (w * 8) false, true)
      | none => (x.1, false)).1 := by
  obtain ⟨t, ok⟩ := x
  cases ok with
  | false => exact h
  | true =>
    cases w with
    | none => exact h
    | some w => exact h.trans (frame_eccUe ..).sub
theorem frame_passGuard (s : State) (e : Nat) : Frame [.regs, .mem, .cat, .integ, .recd] [.blk 0xf, .blk 0x10] s (s.passGuard
    e).1 := by
  rw [passGuard_eq]
  exact frame_guarded (frame_passAccess ..).sub
theorem frame_guarded_fst {s : State} {y : State × Bool} {b c : BitVec 4} (h : Frame [.regs, .mem, .cat, .integ, .recd] [.blk
    0xf, .blk 0x10] s y.1) :
    Frame [.regs, .mem, .cat, .integ, .recd] [.blk 0xf, .blk 0x10] s (y.1, if y.2 then b else c).1 := h
theorem frame_guardAll (s : State) : Frame [.regs, .mem, .cat, .integ, .recd] [.blk 0xf, .blk 0x10] s s.guardAll.1 :=
  Frame.foldlFst _ (fun x e => frame_guarded_fst (frame_passGuard x.1 e)) s.rfxRoles s _
theorem frame_startPass (s : State) (event : Bool) : Frame [.regs, .mem, .cat, .integ, .recd, .rfx] [.blk 0xf, .blk 0x10] s
    (s.startPass event) :=
  Frame.after Frame.rfx <| (frame_guardAll ..).sub
theorem frame_setStale (s : State) (b : Bool) : Frame [.regs] [.fld F.scanStatus_mbxStale, .fld F.rfxStatus_mbxStale] s
    (s.setStale b) :=
  Frame.after Frame.fsetb <| Frame.fsetb
theorem frame_islandVote (s : State) (u : Nat → RCommit) : Frame [.regs, .island] [.blk 0x6, .blk 0x7] s (s.islandVote u) :=
  Frame.ite (Frame.after (frame_showIsland ..).sub <| Frame.after (frame_liftVote ..).sub <| Frame.after (Frame.ite
    (frame_mirrorVote ..).sub (Frame.refl _)) <| Frame.island) (Frame.refl _)
theorem frame_takeMailbox (s : State) (m : Mailbox) : Frame [.rfx] [] s (s.takeMailbox m) := Frame.rfx
abbrev compareEnginesPlaces : List Rect := [.fld F.scanStatus_evqFull, .reg R.scanEvqDepth, .reg R.scanEvqOvf, .fld
  F.brmStatus_auditRun, .blk 0x3, .fld F.olcStatus_pkgState, .reg R.olcRefuse, .fld F.pairStatus_state, .fld
  F.pairStatus_token, .fld F.pairStatus_claim, .fld F.pairStatus_ready, .fld F.pairStatus_synced, .fld F.pairStatus_handover,
  .fld F.pairHealth_own, .fld F.pairHealth_forced, .fld F.pairHealth_fcause, .reg R.pairSwitches, .fld F.pairLastSw_trigger,
  .fld F.pairLastSw_kind, .fld F.pairLastSw_incoming, .reg R.pairSwCycleLo, .reg (R.pairSwCycleLo + 4), .reg R.pairSync, .blk
  0x6, .blk 0x7, .fld F.ringStatus_master, .fld F.ringStatus_passive, .blk 0xa, .blk 0xc]
theorem frame_compareEngines (s : State) (u : Nat → RCommit) : Frame showRfxParts compareEnginesPlaces s (s.compareEngines u)
    := by
  unfold State.compareEngines
  extract_lets slots s0 s1
  have h0 : Frame showRfxParts compareEnginesPlaces s s0 := by
    clear_value slots
    cases slots with
    | nil => exact Frame.refl s
    | cons e l => exact (frame_takeMailbox ..).sub
  split
  · exact Frame.after (frame_showRfx ..).sub <| Frame.after (Frame.foldlAll _ (fun _ _ => (frame_oddEngine ..).sub) _ _) <|
      Frame.after (frame_takeMailbox ..).sub <| Frame.ite (Frame.refl s) Frame.bump
  · have h : Frame showRfxParts compareEnginesPlaces s s1 := Frame.after .raise <| Frame.after .fset <| Frame.after .bump h0
    exact Frame.ite (Frame.after (frame_forceZero ..).sub h) h
theorem frame_nextPass (s : State) : Frame [.regs, .mem, .cat, .integ, .recd, .rfx] [.blk 0xf, .blk 0x10] s s.nextPass :=
  Frame.ite (Frame.refl _) (Frame.ite (Frame.after (frame_startPass ..).sub <| Frame.rfx) (Frame.ite
    (frame_startPass ..).sub (Frame.refl _)))
theorem frame_countPass (s : State) (event : Bool) : Frame [.regs] [.blk 0x3] s (s.countPass event) :=
  Frame.after (Frame.ite (Frame.after Frame.wr <| Frame.bump) (Frame.refl _)) <| Frame.wr64
abbrev passEndPlaces : List Rect := [.fld F.scanStatus_evqFull, .reg R.scanEvqDepth, .reg R.scanEvqOvf, .fld
  F.brmStatus_auditRun, .blk 0x3, .fld F.olcStatus_pkgState, .reg R.olcRefuse, .fld F.pairStatus_state, .fld
  F.pairStatus_token, .fld F.pairStatus_claim, .fld F.pairStatus_ready, .fld F.pairStatus_synced, .fld F.pairStatus_handover,
  .fld F.pairHealth_own, .fld F.pairHealth_forced, .fld F.pairHealth_fcause, .reg R.pairSwitches, .fld F.pairLastSw_trigger,
  .fld F.pairLastSw_kind, .fld F.pairLastSw_incoming, .reg R.pairSwCycleLo, .reg (R.pairSwCycleLo + 4), .reg R.pairSync, .blk
  0x6, .blk 0x7, .fld F.ringStatus_master, .fld F.ringStatus_passive, .blk 0xa, .blk 0xc, .reg R.obsDrop, .span 0x14400
  0x14800]
abbrev passEndParts : List Part := [.out, .regs, .mem, .bogie, .pair, .olc, .brm, .scan, .recd, .island, .rfx, .can, .host,
  .dma, .dray, .obs]
theorem frame_passEnd (s : State) (p : RPass) (up : Vector (Option RImage) 4) (late : BitVec 4) :
    Frame passEndParts passEndPlaces s (s.passEnd p up late) := by
  unfold State.passEnd
  extract_lets img u g _ _ s1
  have h : Frame passEndParts passEndPlaces s s1 := Frame.after (frame_countPass ..).sub (Frame.patched rfl rfl rfl)
  clear_value s1
  exact Frame.after (frame_islandVote ..).sub <| Frame.after (frame_compareEngines ..).sub <| Frame.after (frame_obsPass ..).sub h
theorem frame_showProg (s : State) (slot : Nat) : Frame [.regs] [.blk 0x3] s (s.showProg slot) :=
  Frame.after Frame.wr <| Frame.after Frame.fset <| Frame.fset
abbrev settlePassesPlaces : List Rect := [.fld F.scanStatus_evqFull, .reg R.scanEvqDepth, .reg R.scanEvqOvf, .fld
  F.brmStatus_auditRun, .blk 0x3, .fld F.olcStatus_pkgState, .reg R.olcRefuse, .fld F.pairStatus_state, .fld
  F.pairStatus_token, .fld F.pairStatus_claim, .fld F.pairStatus_ready, .fld F.pairStatus_synced, .fld F.pairStatus_handover,
  .fld F.pairHealth_own, .fld F.pairHealth_forced, .fld F.pairHealth_fcause, .reg R.pairSwitches, .fld F.pairLastSw_trigger,
  .fld F.pairLastSw_kind, .fld F.pairLastSw_incoming, .reg R.pairSwCycleLo, .reg (R.pairSwCycleLo + 4), .reg R.pairSync, .blk
  0x6, .blk 0x7, .fld F.ringStatus_master, .fld F.ringStatus_passive, .blk 0xa, .blk 0xc, .blk 0xf, .blk 0x10, .reg
  R.obsDrop, .span 0x14400 0x14800]
abbrev settlePassesParts : List Part := [.out, .regs, .mem, .cat, .integ, .bogie, .pair, .olc, .brm, .scan, .recd, .island,
  .rfx, .can, .host, .dma, .dray, .obs]
theorem frame_settlePasses (n : Nat) (s : State) : Frame settlePassesParts settlePassesPlaces s (s.settlePasses n) := by
  induction n generalizing s with
  | zero => exact Frame.refl s
  | succ n ih =>
    unfold State.settlePasses
    split
    · exact Frame.refl s
    · exact Frame.after (ih _) <| Frame.after (frame_nextPass ..).sub (frame_passEnd ..).sub
theorem frame_rfxExchange (s : State) : Frame settlePassesParts settlePassesPlaces s s.rfxExchange :=
  Frame.ite (Frame.refl _) (Frame.after (frame_showProg ..).sub <| Frame.after Frame.fset <|
    Frame.after Frame.rfx <| (frame_settlePasses ..).sub)
theorem frame_admitPending (s : State) : Frame [.regs, .brm, .recd] [.blk 0x2] s s.admitPending :=
  Frame.after (frame_showBrm ..).sub <| Frame.foldlAll _ (fun _ _ => Frame.ite (Frame.refl _) (Frame.after (Frame.ite
    Frame.raise (Frame.refl _)) <| (frame_setDru ..).sub)) _ _
theorem frame_modClk (s : State) (c : Fin 4) (f : Cluster → Cluster) : Frame [.clk] [] s (s.modClk c f) := Frame.clk
theorem frame_clusterState (s : State) (c : Fin 4) (down : Bool) : Frame [.regs, .brm, .recd, .obs] [.blk 0x2, .fld
    F.obsStatus_step, .fld F.obsStatus_stepBe] s (s.clusterState c down) :=
  Frame.foldlAll _ (fun _ _ => Frame.ite (frame_deactivate ..).sub (Frame.ite (Frame.after (frame_showBrm ..).sub <|
    (frame_setDru ..).sub) (Frame.refl _))) _ _
theorem frame_reenterHeld (s : State) : Frame [.regs, .clk, .brm, .recd, .obs] [.blk 0x2, .fld F.obsStatus_step, .fld
    F.obsStatus_stepBe] s s.reenterHeld :=
  Frame.foldlAll _ (fun _ _ => Frame.ite (Frame.after (frame_clusterState ..).sub <| (frame_modClk ..).sub) (Frame.refl _)) _ _
theorem frame_setBuf (s : State) (n i : Nat) (f : CanBuf → CanBuf) : Frame [.can] [] s (s.setBuf n i f) := Frame.can
theorem frame_canTaken (s : State) (c : Cls) : Frame [.can] [] s (s.canTaken c) := Frame.can
theorem frame_canActivate (s : State) : Frame [.can] [] s s.canActivate := Frame.can
theorem frame_canQueueBuf (s : State) (n i : Nat) (h : n < 4) : Frame [.regs, .can] [.blk 0xa] s (s.canQueueBuf n i) :=
  Frame.after (frame_setBuf ..).sub <| Frame.ite (.bump (cover_span 0xA000 0xB000 (by simp only [R.canChnOverwrite]; omega)))
    (Frame.refl _)
theorem mem_canBufs {s : State} {p : CanDesc → Bool} {e : Nat × Nat} (h : e ∈ s.canBufs p) : e.1 < 4 := by
  obtain ⟨n, hn, h⟩ := List.mem_flatMap.mp h
  obtain ⟨i, -, rfl⟩ := List.mem_map.mp h
  simp only [List.mem_cons, List.not_mem_nil, or_false] at hn
  dsimp only
  omega
theorem frame_canLoad (s : State) (c : Cls) : Frame [.regs, .can] [.blk 0xa] s (s.canLoad c) :=
  Frame.foldl (fun _ e he => Frame.after (Frame.ite (frame_canQueueBuf (h := mem_canBufs he) ..).sub (Frame.refl _)) <|
    (frame_setBuf ..).sub) _
theorem frame_canTrip (s : State) : Frame [.regs, .can] [.blk 0xa] s s.canTrip :=
  Frame.after (Frame.foldlAll _ (fun _ _ => (frame_canLoad ..).sub) _ _) <| Frame.foldlAll _ (fun _ _ => (frame_setBuf ..).sub)
    _ _
theorem frame_showStations (s : State) : Frame [.regs] [.blk 0x9] s s.showStations :=
  Frame.after Frame.fsetb <| Frame.after Frame.fsetb <| Frame.after Frame.fset <|
    Frame.after Frame.fset <| Frame.fset
theorem frame_ringPhy (s : State) : Frame [.regs] [.blk 0x9] s s.ringPhy :=
  Frame.foldl (fun u p hp => by
    have hc (lo w : Nat) (hw : lo + w ≤ 32) : coverAll [.blk 9] ⟨R.ringPpStatus p, lo, w⟩ = true :=
      cover_span 0x9000 0xA000 (by
        simp only [List.mem_cons, List.not_mem_nil, or_false] at hp
        dsimp only [R.ringPpStatus]
        omega) rfl (Nat.ble_eq.mpr hw)
    exact Frame.trans (.fsetb (hc _ _ (by decide))) (.fsetb (hc _ _ (by decide)))) s
theorem frame_ringActivate (s : State) (p : RingPlan) : Frame [.regs, .ring] [.blk 0x9] s (s.ringActivate p) := by
  have hs (u : State) (n : Nat) (v : W32) (h : n ∈ List.range 256) : Frame [.regs, .ring] [.blk 0x9] u (u.wr (R.ringStsState n)
    v) :=
    .wr (cover_span 0x9000 0xA000 (by
      have := List.mem_range.mp h
      dsimp only [R.ringStsState]
      omega))
  have hp (u : State) (n : Nat) (v : W32) (h : n ∈ List.range 32) : Frame [.regs, .ring] [.blk 0x9] u (u.wr (R.ringPeerSjState
    n) v) :=
    .wr (cover_span 0x9000 0xA000 (by
      have := List.mem_range.mp h
      dsimp only [R.ringPeerSjState]
      omega))
  exact Frame.after (frame_ringPhy ..).sub <| Frame.after (frame_showStations ..).sub <| Frame.after .fset <| Frame.after .fset <|
    Frame.after (Frame.foldl (fun u n h => Frame.ite (hp u n _ h) (hp u n _ h)) _) <|
    Frame.after (Frame.foldl (fun u n h => Frame.ite (hs u n _ h) (Frame.ite (Frame.refl _) (hs u n _ h))) _) .ring
theorem frame_obsCodes (s : State) (codes : List Nat) : Frame [.regs] [.blk 0x14] s (s.obsCodes codes) :=
  Frame.foldl (fun u k hk => by
    have hk := List.mem_range.mp hk
    exact Frame.ite (Frame.refl _) (Frame.trans (.wr (cover_span 0x14000 0x15000 (by simp only [R.obsCntkSel]; omega)))
      (.wr (cover_span 0x14000 0x15000 (by simp only [R.obsCntk]; omega))))) s
theorem frame_traceRequest (s : State) (be : Fin 32) : Frame [.regs, .brm, .recd, .obs] [.blk 0x2, .blk 0x14] s (s.traceRequest
    be) :=
  Frame.ite Frame.fset (Frame.ite (Frame.after (frame_traceEnter ..).sub <| Frame.after (frame_setDru ..).sub <|
    Frame.after Frame.obs <| Frame.fset) Frame.fset)
theorem frame_obsSelect (s : State) (v : Option ObsSel) : Frame [.regs, .brm, .recd, .obs] [.blk 0x2, .blk 0x14] s (s.obsSelect
    v) := by
  unfold State.obsSelect
  extract_lets want held ends blocked s1 _ s2 s3
  have h1 : Frame [.regs, .brm, .recd, .obs] [.blk 0x2, .blk 0x14] s s1 := Frame.ite (frame_traceStop ..).sub (Frame.refl s)
  have h3 : Frame [.regs, .brm, .recd, .obs] [.blk 0x2, .blk 0x14] s s3 := Frame.after Frame.fsetb <| Frame.after Frame.obs h1
  clear_value s3 want
  split
  · exact Frame.after (frame_obsCodes ..).sub h3
  · split
    · exact Frame.after (Frame.ite Frame.fset (frame_traceRequest ..).sub) <| Frame.after (frame_obsCodes ..).sub <|
        Frame.after Frame.wr h3
    · exact Frame.after (frame_obsCodes ..).sub <| Frame.after Frame.wr h3
theorem frame_obsDue (s : State) : Frame [.regs, .obs] [.reg R.obsDrop] s s.obsDue := by
  unfold State.obsDue
  split
  · exact Frame.refl _
  · exact Frame.after (Frame.ite Frame.obs (Frame.refl _)) <| Frame.after (Frame.ite (frame_obsCollect ..).sub
      (Frame.refl _)) <| Frame.obs
theorem frame_obsSwitch (s : State) : Frame [.regs, .brm, .recd, .obs] [.blk 0x2, .blk 0x14] s s.obsSwitch := by
  unfold State.obsSwitch
  extract_lets _ s1 _ s2
  have h1 : Frame [.regs, .brm, .recd, .obs] [.blk 0x2, .blk 0x14] s s1 := Frame.obs
  have h2 : Frame [.regs, .brm, .recd, .obs] [.blk 0x2, .blk 0x14] s s2 := Frame.ite (Frame.ite (Frame.after (frame_traceStop
    ..).sub h1) (Frame.after Frame.obs h1)) h1
  clear_value s2
  split
  · exact Frame.after (frame_obsSelect ..).sub h2
  · exact Frame.ite h2 (Frame.after (frame_obsSelect ..).sub h2)
theorem frame_obsBoundary (s : State) : Frame [.regs, .brm, .recd, .obs] [.blk 0x2, .blk 0x14] s s.obsBoundary := Frame.after
    (frame_obsDue ..).sub <| (frame_obsSwitch ..).sub
theorem frame_setRate (s : State) (r : Int) : Frame [.regs, .time] [.reg R.timeRate] s (s.setRate r) :=
  Frame.after (Frame.ite Frame.time (Frame.refl _)) <| Frame.wr
theorem frame_parentLost (s : State) : Frame [.regs, .time] [.blk 0xe] s s.parentLost :=
  Frame.after Frame.time <| Frame.ite (Frame.after Frame.wr <| Frame.after Frame.time <|
    Frame.after (frame_setRate ..).sub <| Frame.fset) (Frame.ite (Frame.ite (Frame.after Frame.wr <|
    Frame.after Frame.time <| Frame.after (frame_setRate ..).sub <| Frame.fset) (Frame.after Frame.wr <|
    Frame.after (frame_setRate ..).sub <| Frame.fset)) (Frame.refl _))
theorem frame_ptpUpdate (s : State) : Frame [.regs, .time] [.blk 0xe] s s.ptpUpdate := by
  unfold State.ptpUpdate
  extract_lets states slave parent same s1 s2 s3 _ s4
  have h2 : Frame [.regs, .time] [.blk 0xe] s s2 := Frame.after Frame.fsetb <| Frame.after Frame.fset <| Frame.after
    Frame.fsetb <|
    Frame.after Frame.fset Frame.fset
  have h3 : Frame [.regs, .time] [.blk 0xe] s s3 := Frame.ite h2 (Frame.after Frame.bump <| Frame.after (frame_parentLost
    ..).sub h2)
  have h4 : Frame [.regs, .time] [.blk 0xe] s s4 := Frame.after Frame.time h3
  clear_value s4 parent
  split <;> exact Frame.after Frame.wr64 h4
theorem frame_useUtcCfg (s : State) : Frame [.regs] [.reg R.timeUtc] s s.useUtcCfg := Frame.ite (Frame.refl _) Frame.wr
theorem frame_pendClear (s : State) (b : Nat) (h : b < 32) : Frame [.regs] [.reg R.sysShadowPend, .reg R.sysApplyPend] s
    (s.pendClear b) := by
  have hc (r : Nat) (hr : List.contains [.reg R.sysShadowPend, .reg R.sysApplyPend] (Rect.span r (r + 1)) = true) : coverAll
    [.reg R.sysShadowPend, .reg R.sysApplyPend] ⟨r, b, 1⟩ = true :=
    cover_span r (r + 1) ⟨le_rfl, Nat.lt_succ_self _⟩ hr (Nat.ble_eq.mpr (by dsimp only; omega))
  exact Frame.trans (.fset (hc R.sysShadowPend rfl)) (.fset (hc R.sysApplyPend rfl))
abbrev genUpPlaces : List Rect := [.reg R.rfxPlanGen, .reg R.pairPlanGen, .reg R.dioPlanGen, .reg R.acqPlanGen, .reg
  R.ringPlanGen, .reg R.canPlanGen, .reg R.dmaPlanGen]
theorem frame_genUp (s : State) (b : Nat) : Frame [.regs] genUpPlaces s (s.genUp b) := by
  unfold State.genUp
  split
  next o ho =>
    unfold planGenOf at ho
    refine .wr ?_
    repeat' split at ho
    all_goals cases ho <;> rfl
  · exact Frame.refl _
theorem frame_tellPlans (s : State) : Frame [.out, .pair] [] s s.tellPlans := Frame.ite (Frame.refl _) Frame.send
theorem frame_agreementUsed (s : State) (b : Nat) : Frame [.pair] [] s (s.agreementUsed b) := Frame.pair
theorem frame_takeTiming (s : State) : Frame [.act, .pair] [] s s.takeTiming :=
  Frame.trans (Frame.ite (Frame.refl s) (frame_agreementUsed ..).sub) (frame_takeRegs _ _).sub
abbrev scanTripPlaces : List Rect := [.fld F.scanStatus_runstate, .fld F.scanStatus_evqFull, .fld F.scanStatus_mbxStale, .reg
  R.scanTrip, .reg R.scanTripCycle, .reg R.scanEvqDepth, .fld F.brmStatus_auditRun, .fld F.rfxStatus_mbxStale, .fld
  F.olcStatus_pkgState, .reg R.olcRefuse, .fld F.pairStatus_state, .fld F.pairStatus_handover, .blk 0xa, .fld
  (F.hostPpStatus_cqFull 0), ⟨R.hostPpCmds 0, 0, 0x40, 0, 32⟩, .fld (F.hostPpStatus_cqFull 1), .span 0xB218 0]
abbrev scanTripParts : List Part := [.out, .regs, .mem, .pair, .olc, .brm, .scan, .recd, .can, .host]
theorem frame_scanTrip (s : State) (cls : Nat) (partner : Bool) : Frame scanTripParts scanTripPlaces s (s.scanTrip cls partner)
    := by
  unfold State.scanTrip
  extract_lets a b c0 c1 c2 c d e f g h
  have hb : Frame scanTripParts scanTripPlaces s b := (frame_olcCut s).sub.trans (frame_haltScan a).sub
  have hc : Frame scanTripParts scanTripPlaces s c := hb.trans (Frame.trans (t := { b with scan := c.scan }) .scan .pair)
  clear_value c
  have hd : Frame scanTripParts scanTripPlaces s d := hc.trans (.trans (.trans .fset .fset) .wr)
  have he : Frame scanTripParts scanTripPlaces s e := hd.trans (((frame_endSwitchCmds ..).sub.trans (frame_endServiceCmds
    ..).sub).trans (.trans .fsetb .wr))
  clear_value e
  have hf : Frame scanTripParts scanTripPlaces s f := he.trans (.trans .wr (frame_setStale ..).sub)
  clear_value f
  have hg : Frame scanTripParts scanTripPlaces s g := hf.trans (((frame_enter ..).sub.trans (frame_canTrip ..).sub).trans
    (frame_canPermit ..).sub)
  clear_value g
  exact (hg.trans (.ite .emit (.refl _))).trans .raise
theorem frame_setPkg (s : State) (n : Nat) : Frame [.regs] [.fld F.olcStatus_pkgState] s (s.setPkg n) := Frame.fset
theorem frame_olcCode (s : State) (code arg : Nat) : Frame [.regs, .recd] [.reg R.olcRefuse, .reg R.olcRefuseArg] s (s.olcCode
    code arg) :=
  Frame.after Frame.raise <| Frame.after Frame.wr <| Frame.wr
theorem frame_showBanks (s : State) : Frame [.regs] [.blk 0x4] s s.showBanks :=
  Frame.after (Frame.ite (Frame.refl _) (Frame.after Frame.wr <| Frame.wr64)) <|
    Frame.after Frame.fsetb <| Frame.after Frame.wr <| Frame.wr64
theorem frame_countForces (s : State) : Frame [.regs] [.blk 0x4] s s.countForces :=
  Frame.after Frame.fsetb <| Frame.after Frame.wr <| Frame.wr
theorem frame_releaseClashes (s : State) : Frame [.olc, .recd] [] s s.releaseClashes :=
  Frame.after Frame.olc <| Frame.foldlAll _ (fun _ _ => Frame.raise) _ _
theorem frame_forceInputs (s : State) (c : Cls) : Frame [.mem, .pair] [] s (s.forceInputs c) := by
  unfold State.forceInputs
  refine Frame.foldlAll _ (fun _ _ => ?_) _ _
  split
  · exact Frame.ite (Frame.after Frame.markDirty <| Frame.wrMem) (Frame.refl _)
  · exact Frame.refl _
theorem frame_vwRefuse (s : State) (id : W64) : Frame [.regs, .recd] [.reg R.olcVwRefused] s (s.vwRefuse id) :=
  Frame.after Frame.raise <| Frame.bump
theorem frame_vwShow (s : State) : Frame [.regs] [.fld F.olcStatus_vwPend] s s.vwShow := Frame.fsetb
theorem frame_vwRun (n : Nat) (l : List ValueWrite) (s : State) : Frame [.regs, .mem, .cat, .pair, .recd] [.reg R.olcVwDone,
    .reg R.olcVwRefused, .blk 0xf] s (State.vwRun n l s).1 := by
  induction l generalizing n s with
  | nil => exact Frame.refl s
  | cons w r ih =>
    unfold State.vwRun
    split
    · exact Frame.after (ih ..) (frame_vwRefuse ..).sub
    · refine Frame.ite_fst (Frame.after (ih ..) (frame_vwRefuse ..).sub) <| Frame.ite_fst (ih ..) <| Frame.ite_fst ?_ ?_
      · exact Frame.after (ih ..) <| Frame.after (frame_vwRefuse ..).sub (frame_mcAccess ..).sub
      · exact Frame.after (ih ..) <| Frame.after Frame.bump <| Frame.after Frame.markDirty <|
          Frame.after Frame.wrMem (frame_mcAccess ..).sub
theorem frame_vwApply (s : State) : Frame [.regs, .mem, .cat, .pair, .olc, .recd] [.blk 0x4, .blk 0xf] s s.vwApply :=
  Frame.after (frame_vwShow ..).sub <| Frame.after Frame.olc <| Frame.after (frame_vwRun ..).sub <| Frame.olc
abbrev carryFaultPlaces : List Rect := [.fld F.scanStatus_runstate, .fld F.scanStatus_evqFull, .fld F.scanStatus_mbxStale,
  .reg R.scanTrip, .reg R.scanTripCycle, .reg R.scanEvqDepth, .fld F.brmStatus_auditRun, .fld F.rfxStatus_mbxStale, .fld
  F.olcStatus_pkgState, .reg R.olcRefuse, .fld F.pairStatus_state, .fld F.pairStatus_token, .fld F.pairStatus_claim, .fld
  F.pairStatus_ready, .fld F.pairStatus_synced, .fld F.pairStatus_handover, .fld F.pairHealth_own, .fld F.pairHealth_forced,
  .fld F.pairHealth_fcause, .reg R.pairSwitches, .fld F.pairLastSw_trigger, .fld F.pairLastSw_kind, .fld
  F.pairLastSw_incoming, .reg R.pairSwCycleLo, .reg (R.pairSwCycleLo + 4), .reg R.pairSync, .blk 0x6, .blk 0x7, .fld
  F.ringStatus_master, .fld F.ringStatus_passive, .blk 0xa, .fld (F.hostPpStatus_cqFull 0), ⟨R.hostPpCmds 0, 0, 0x40, 0, 32⟩,
  .fld (F.hostPpStatus_cqFull 1), .span 0xB218 0]
abbrev carryFaultParts : List Part := [.out, .regs, .mem, .integ, .bogie, .pair, .olc, .brm, .scan, .recd, .island, .can,
  .host, .dma, .dray]
theorem frame_carryFault (s : State) (a : Nat) : Frame carryFaultParts carryFaultPlaces s (s.carryFault a) :=
  Frame.after (Frame.ite (frame_scanTrip ..).sub (frame_forceZero ..).sub) <| Frame.after Frame.raise <| (frame_eccUe ..).sub
theorem frame_putFrozen (s : State) (c : Cls) (off : Nat) (bs : List Byte) : Frame [.mem, .pair] [] s (s.putFrozen c off bs) :=
  Frame.after Frame.markDirty <| Frame.wrMem
theorem frame_freezeCls (s : State) (k : Nat) (n : W64) : Frame [.mem, .pair, .scan, .can] [] s (s.freezeCls k n) :=
  Frame.after (frame_modCls ..).sub <| Frame.after (frame_canTaken ..).sub <| Frame.after (frame_forceInputs ..).sub <|
    Frame.foldlAll _ (fun _ _ => (frame_putFrozen ..).sub) _ _
theorem frame_freezeDue (s : State) (k : Nat) (boundary : Bool) (n : W64) : Frame [.mem, .pair, .scan, .can] [] s (s.freezeDue
    k boundary n) :=
  Frame.ite (Frame.refl _) (Frame.ite (frame_modCls ..).sub (frame_freezeCls ..).sub)
theorem frame_tb2Start (s : State) (t : Option W64) : Frame [.regs, .time] [.fld F.timeStatus_tb2Run] s (s.tb2Start t) :=
  Frame.after Frame.time <| Frame.fsetb
theorem frame_freezeStep (s : State) (n : W64) (nDue sDue : Bool) : Frame [.regs, .mem, .pair, .scan, .time, .can] [.fld
    F.timeStatus_tb2Run] s (s.freezeStep n nDue sDue) :=
  Frame.after Frame.scan <| Frame.after (frame_freezeDue ..).sub <| Frame.after (frame_freezeDue ..).sub <|
    Frame.after (frame_freezeCls ..).sub <| Frame.ite (frame_tb2Start ..).sub (Frame.refl _)
theorem frame_shortfallCheck (s : State) : Frame [.regs] [.fld F.brmStatus_shortfall] s s.shortfallCheck := Frame.fsetb
abbrev serviceMovePlaces : List Rect := [.fld F.brmStatus_auditRun, .fld F.pairStatus_state, .blk 0xa, .fld
  (F.hostPpStatus_cqFull 0), ⟨R.hostPpCmds 0, 0, 0x40, 0, 32⟩, .fld (F.hostPpStatus_cqFull 1), .span 0xB218 0]
theorem frame_serviceMove (s : State) : Frame [.out, .regs, .brm, .scan, .recd, .can, .host] serviceMovePlaces s s.serviceMove
    := by
  unfold State.serviceMove
  split
  · exact Frame.ite (Frame.after (frame_endServiceCmds ..).sub <| Frame.after (frame_canPermit ..).sub <|
      Frame.after (frame_enter ..).sub <| Frame.scan) (Frame.after (frame_endServiceCmds ..).sub <| Frame.scan)
  · exact Frame.ite (Frame.after (frame_endServiceCmds ..).sub <| Frame.after (frame_canPermit ..).sub <|
      Frame.after (frame_enter ..).sub <| Frame.scan) (Frame.after (frame_endServiceCmds ..).sub <| Frame.scan)
  · exact Frame.refl _

end Sys2Proof.Machine
end

section
/-! Reading a field after an update of another register, or of other bits of its own. -/

namespace Sys2Proof.Machine

variable {s t : State} {f g : Field} {o off v k : Nat} {x : W32} {y : W64} {b : Bool}

theorem fget_wr_off (h : g.off ≠ off) : (s.wr off x).fget g = s.fget g := fget_congr (rd_wr_ne h)
theorem fget_fset_off (h : g.off ≠ f.off) : (s.fset f v).fget g = s.fget g := fget_congr (rd_wr_ne h)
theorem fget_fsetb_off (h : g.off ≠ f.off) : (s.fsetb f b).fget g = s.fget g := fget_congr (rd_wr_ne h)
theorem fget_bump_off (h : g.off ≠ off) : (s.bump off).fget g = s.fget g := fget_congr (rd_wr_ne h)
theorem fget_bumpBy_off (h : g.off ≠ off) : (s.bumpBy off k).fget g = s.fget g := fget_congr (rd_wr_ne h)
theorem fget_bumpF_off (h : g.off ≠ f.off) : (s.bumpF f).fget g = s.fget g := fget_congr (rd_wr_ne h)
theorem fget_wr64_off (h : g.off ≠ off) (h4 : g.off ≠ off + 4) : (s.wr64 off y).fget g = s.fget g := fget_congr (rd_wr64_ne h h4)
@[simp] theorem fget_raise {e : Hap} {n : Nat} {l : List W64} : (s.raise e n l).fget g = s.fget g := rfl
@[simp] theorem fget_emit {e : Out} : (s.emit e).fget g = s.fget g := rfl

/-- A field beside the bits that are set. -/
theorem fget_fset_beside (h : s.regsWf = true) (hd : g.lo + g.width ≤ f.lo ∨ f.lo + f.width ≤ g.lo) (hg : g.lo + g.width ≤ 32) :
    (s.fset f v).fget g = s.fget g := fget_fset_disjoint h hg (.inr hd)

theorem fget_fsetb_beside (h : s.regsWf = true) (hd : g.lo + g.width ≤ f.lo ∨ f.lo + f.width ≤ g.lo) (hg : g.lo + g.width ≤ 32) :
    (s.fsetb f b).fget g = s.fget g := fget_fset_disjoint h hg (.inr hd)

theorem fbit_fset (h : s.regsWf = true) (hf : f.lo + f.width ≤ 32) : (s.fset f v).fbit f = (v % 2 ^ f.width == 1) := by
  rw [State.fbit, fget_fset h hf]

/-- What the step of one element of a list brings about, where the steps of the others keep what it needs and what it brings. -/
theorem foldl_own {α : Type} {h : State → α → State} {l : List α} {a : α} {P Q : State → Prop} (hd : l.Nodup) (ha : a ∈ l)
    (hP : ∀ u, ∀ b ∈ l, b ≠ a → P u → P (h u b)) (hQ : ∀ u, ∀ b ∈ l, b ≠ a → Q u → Q (h u b)) (hr : ∀ u, P u → Q (h u a)) (hs : P s) :
    Q (l.foldl h s) := by
  induction l generalizing s with
  | nil => exact absurd ha List.not_mem_nil
  | cons b l ih =>
    obtain ⟨hb, hl⟩ := List.nodup_cons.mp hd
    rcases List.mem_cons.mp ha with rfl | ha
    · exact foldl_keeps (l := l) (fun u c hc => hQ u c (List.mem_cons_of_mem _ hc) (fun e => hb (e ▸ hc))) (hr s hs)
    · exact ih hl ha (fun u c hc => hP u c (List.mem_cons_of_mem _ hc)) (fun u c hc => hQ u c (List.mem_cons_of_mem _ hc))
        (hP s b List.mem_cons_self (fun e => hb (e ▸ ha)) hs)

end Sys2Proof.Machine
end

section
/-! DMA transfers (R344 to R346, R354). -/

namespace Sys2Proof.Machine

variable {s t : State} {m : Master} {ch : Nat}

theorem exec_dmaRetry_writes {ch : Fin 16} {key : BitVec 16} (hs : s.writes m (R.dmaChnResume ch.val)) :
    exec (.dmaRetry m ch key) s = .next (s.dmaResume ch.val (dmaResumeWord 1 key)) :=
  asWrite_writes (f := fun s => s.dmaResume ch.val (dmaResumeWord 1 key)) hs

theorem exec_dmaAbort_writes {ch : Fin 16} {key : BitVec 16} (hs : s.writes m (R.dmaChnResume ch.val)) :
    exec (.dmaAbort m ch key) s = .next (s.dmaResume ch.val (dmaResumeWord 2 key)) :=
  asWrite_writes (f := fun s => s.dmaResume ch.val (dmaResumeWord 2 key)) hs

theorem fldN_dmaResumeWord_action {a : Nat} (ha : a < 4) (key : BitVec 16) : fldN (dmaResumeWord a key).toNat 0 2 = a := by
  have hk := key.isLt
  simp only [dmaResumeWord, BitVec.toNat_ofNat, fldN]
  omega

theorem fldN_dmaResumeWord_key {a : Nat} (ha : a < 4) (key : BitVec 16) : fldN (dmaResumeWord a key).toNat 16 16 = key.toNat := by
  have hk := key.isLt
  simp only [dmaResumeWord, BitVec.toNat_ofNat, fldN]
  omega

/-- The channel moves again: what a retry and an abort do first. -/
def dmaMoves (s : State) (ch : Nat) : State := (s.fset (F.dmaChnStatus_state ch) 1).fset ⟨R.dmaStatus, ch, 1⟩ 0

theorem onlyRegs_dmaMoves : onlyRegs [R.dmaStatus, R.dmaChnStatus ch] s (dmaMoves s ch) :=
  onlyRegs_trans (onlyRegs_mono (by simp) onlyRegs_fset) (onlyRegs_mono (by simp) onlyRegs_fset)

theorem dmaResume_retry (h : s.fget (F.dmaChnStatus_state ch) = 2) : s.dmaResume ch (dmaResumeWord 1 0xD4A1) = dmaMoves s ch := by
  rw [State.dmaResume, fldN_dmaResumeWord_action (by decide), fldN_dmaResumeWord_key (by decide)]
  simp [h, dmaMoves]

theorem dmaResume_abort {c : Cmd} (h : s.fget (F.dmaChnStatus_state ch) = 2) (hc : vget s.dma.chan ch = some c.id) (hid : s.cmd? c.id = some c) :
    s.dmaResume ch (dmaResumeWord 2 0xD4A1) = (dmaMoves s ch).dmaFinish ch c 0x0200 (vget s.dma.moved ch) := by
  have hb : (vget (dmaMoves s ch).dma.chan ch).bind (dmaMoves s ch).cmd? = some c := by
    show (vget s.dma.chan ch).bind s.cmd? = some c
    rw [hc, Option.bind_some, hid]
  have hmoved : (dmaMoves s ch).dma.moved = s.dma.moved := rfl
  have hres : s.dmaResume ch (dmaResumeWord 2 0xD4A1) =
      (((vget (dmaMoves s ch).dma.chan ch).bind (dmaMoves s ch).cmd?).map (fun c =>
        (dmaMoves s ch).dmaFinish ch c 0x0200 (vget (dmaMoves s ch).dma.moved ch))).getD ((dmaMoves s ch).dmaFree ch).dmaGo := by
    rw [State.dmaResume, fldN_dmaResumeWord_action (by decide), fldN_dmaResumeWord_key (by decide), if_neg (by simp [h])]
    dsimp only
    rw [if_neg (by decide), ← dmaMoves]
    cases (vget (dmaMoves s ch).dma.chan ch).bind (dmaMoves s ch).cmd? with
    | none => simp only [Option.map_none, Option.getD_none]
    | some c => simp only [Option.map_some, Option.getD_some]
  rw [hres, hb, hmoved, Option.map_some, Option.getD_some]

theorem dmaResume_ignored {a : Nat} {key : BitVec 16} (ha : a < 4) (h : key ≠ 0xD4A1 ∨ s.fget (F.dmaChnStatus_state ch) ≠ 2) :
    s.dmaResume ch (dmaResumeWord a key) = s.bump 0xC010 := by
  rw [State.dmaResume, fldN_dmaResumeWord_key ha, if_pos, ignoredIn_eq (by decide)]
  rcases h with h | h
  · exact .inl fun e => h (BitVec.eq_of_toNat_eq e)
  · exact .inr (.inl (by simpa using h))

/-! A channel that is left, and one that halts. -/

theorem dmaServe_idle (h : ∀ c ∈ s.host.cmds, c.phase.waits = false) : ∀ n, s.dmaServe n = s
  | 0 => rfl
  | n + 1 => by
    have hf : s.host.cmds.find? (fun c => c.phase.waits && !(List.range 16).any (fun ch => s.chanServes ch c.ring)) = none := by
      refine List.find?_eq_none.mpr fun c hc => ?_
      rw [h c hc]
      exact Bool.false_ne_true
    have hp : s.dmaPick = none := by
      have hm : s.host.cmds.filterMap (fun c => if c.phase.waits then
          (((List.range 16).filter s.chanIdle).find? (fun ch => s.chanServes ch c.ring)).map (fun ch => (ch, c)) else none) = [] := by
        refine List.filterMap_eq_nil_iff.mpr fun c hc => ?_
        rw [h c hc]
        rfl
      rw [State.dmaPick, hm]
      rfl
    rw [State.dmaServe, hf, hp]

theorem dmaGo_idle (h : ∀ c ∈ s.host.cmds, c.phase.waits = false) : s.dmaGo = s := dmaServe_idle h _

/-- What a channel shows while no command is on it. -/
def dmaRest (s : State) : Nat := if (s.rd R.sysApplyPend).getLsbD 12 then 3 else 0

theorem dmaRest_cases : dmaRest s = 3 ∨ dmaRest s = 0 := by
  unfold dmaRest
  split
  · exact .inl rfl
  · exact .inr rfl

theorem fget_dmaWait_state (hw : s.regsWf = true) (hch : ch < 16) (h : s.fget (F.dmaChnStatus_state ch) = 0) :
    s.dmaWait.fget (F.dmaChnStatus_state ch) = dmaRest s := by
  have hother (u : State) (b v : Nat) (hb : b ≠ ch) : (u.fset (F.dmaChnStatus_state b) v).fget (F.dmaChnStatus_state ch) =
      u.fget (F.dmaChnStatus_state ch) := fget_fset_off (by
    simp only [R.dmaChnStatus]
    omega)
  refine foldl_own (P := fun u => u.regsWf = true ∧ u.fget (F.dmaChnStatus_state ch) = 0)
    (Q := fun u => u.fget (F.dmaChnStatus_state ch) = dmaRest s) List.nodup_range (List.mem_range.mpr hch)
    (fun u b _ hb hu => ?_) (fun u b _ hb hu => ?_) (fun u hu => ?_) ⟨regsWf_fset hw, ?_⟩
  · split
    · exact ⟨regsWf_fset hu.1, (hother u b _ hb).trans hu.2⟩
    · exact hu
  · split
    · exact (hother u b _ hb).trans hu
    · exact hu
  · rw [if_pos (.inl hu.2), fget_fset hu.1 (by simp)]
    refine Nat.mod_eq_of_lt ?_
    rw [← dmaRest]
    rcases dmaRest_cases (s := s) with e | e <;> rw [e] <;> norm_num
  · exact (fget_fset_off (by
      simp only [R.dmaChnStatus, R.dmaStatus]
      omega)).trans h

theorem frame_dmaFree (hch : ch < 16) : Frame [.regs, .dma] [.blk 0xC] s (s.dmaFree ch) :=
  .after .dma <| .after (frame_dmaWait _).sub <| .fset <| cover_span 0xC000 0xD000 (by
    simp only [R.dmaChnStatus]
    omega)

theorem fget_dmaFree_state (hw : s.regsWf = true) (hch : ch < 16) : (s.dmaFree ch).fget (F.dmaChnStatus_state ch) = dmaRest s := by
  refine (fget_dmaWait_state (regsWf_fset hw) hch (fget_fset hw (by simp))).trans ?_
  rw [dmaRest, rd_fset_ne (by
    simp only [R.dmaChnStatus, R.sysApplyPend]
    omega)]
  rfl

theorem vget_dmaFree_chan (hch : ch < 16) : vget (s.dmaFree ch).dma.chan ch = none := vget_vset_self hch

theorem frame_dmaCount {n : Nat} (hch : ch < 16) : Frame [.regs, .dma] [.blk 0xC] s (s.dmaCount ch n) :=
  .after .dma <| .wr64 (cover_span 0xC000 0xD000 (by
    simp only [R.dmaChnBytesLo]
    omega)) (cover_span 0xC000 0xD000 (by
    simp only [R.dmaChnBytesLo]
    omega))

theorem frame_dmaHalt {cause : Nat} {a b : Bool} {addr : W64} (hch : ch < 16) :
    Frame [.regs, .recd, .out] [.blk 0xC] s (s.dmaHalt ch cause a b addr) := by
  have hf (lo w : Nat) (h : lo + w ≤ 32) : coverAll [.blk 0xC] ⟨R.dmaChnStatus ch, lo, w⟩ = true :=
    cover_span 0xC000 0xD000 (by
      simp only [R.dmaChnStatus]
      omega) rfl (Nat.ble_eq.mpr h)
  have hr (k : Nat) (h : 0xC100 ≤ k ∧ k < 0xC120) : coverAll [.blk 0xC] ⟨k + ch * 0x20, 0, 32⟩ = true :=
    cover_span 0xC000 0xD000 (by
      dsimp only
      omega)
  have hs : coverAll [.blk 0xC] ⟨R.dmaStatus, ch, 1⟩ = true :=
    cover_span 0xC000 0xD000 (by simp [R.dmaStatus]) rfl (Nat.ble_eq.mpr (by
      dsimp only
      omega))
  refine .after .emit <| .after .raise <| .after (.fset hs) <| .after (.bump (hr 0xC11C (by decide))) <| .after (.wr64 (hr 0xC108 (by decide)) ?_) <|
    .after (.fsetb (hf 3 1 (by decide))) <| .after (.fsetb (hf 2 1 (by decide))) <| .after (.fset (hf 4 4 (by decide))) (.fset (hf 0 2 (by decide)))
  rw [show R.dmaChnFaultLo ch + 4 = 0xC10C + ch * 0x20 by simp only [R.dmaChnFaultLo]; omega]
  exact hr _ (by decide)

/-- A halt shows its cause, its side and its address, counts, is recorded and signalled. -/
theorem dmaHalt_shows {cause : Nat} {a b : Bool} {addr : W64} (hw : s.regsWf = true) (hch : ch < 16) (hc : cause < 16) :
    let t := s.dmaHalt ch cause a b addr
    t.fget (F.dmaChnStatus_state ch) = 2 ∧ t.fget (F.dmaChnStatus_cause ch) = cause ∧ t.fbit (F.dmaChnStatus_side ch) = a ∧
      t.fbit (F.dmaChnStatus_write ch) = b ∧ t.rd64 (R.dmaChnFaultLo ch) = addr ∧
      (t.rd (R.dmaChnFaults ch)).toNat = satAdd 32 (s.rd (R.dmaChnFaults ch)).toNat 1 ∧ t.fbit ⟨R.dmaStatus, ch, 1⟩ = true := by
  have h1 := regsWf_fset (f := F.dmaChnStatus_state ch) (n := 2) hw
  have h2 := regsWf_fset (f := F.dmaChnStatus_cause ch) (n := cause) h1
  have h3 := regsWf_fsetb (f := F.dmaChnStatus_side ch) (b := a) h2
  have h4 := regsWf_fsetb (f := F.dmaChnStatus_write ch) (b := b) h3
  have h5 := regsWf_wr64 (off := R.dmaChnFaultLo ch) (y := addr) h4
  have h6 := regsWf_bump (off := R.dmaChnFaults ch) h5
  have hlater (f : Field) (hf : f.off = R.dmaChnStatus ch) : (s.dmaHalt ch cause a b addr).fget f =
      ((((s.fset (F.dmaChnStatus_state ch) 2).fset (F.dmaChnStatus_cause ch) cause).fsetb (F.dmaChnStatus_side ch) a).fsetb
        (F.dmaChnStatus_write ch) b).fget f := by
    refine (fget_fset_off ?_).trans ((fget_bump_off ?_).trans (fget_wr64_off ?_ ?_)) <;> rw [hf] <;>
      simp only [R.dmaChnStatus, R.dmaStatus, R.dmaChnFaults, R.dmaChnFaultLo] <;> omega
  refine ⟨?_, ?_, ?_, ?_, ?_, ?_, ?_⟩
  · rw [hlater _ rfl, fget_fsetb_beside h3 (by simp) (by simp), fget_fsetb_beside h2 (by simp) (by simp),
      fget_fset_beside h1 (by simp) (by simp), fget_fset hw (by simp)]
    norm_num
  · rw [hlater _ rfl, fget_fsetb_beside h3 (by simp) (by simp), fget_fsetb_beside h2 (by simp) (by simp), fget_fset h1 (by simp)]
    exact Nat.mod_eq_of_lt hc
  · rw [State.fbit, hlater _ rfl, fget_fsetb_beside h3 (by simp) (by simp)]
    exact fbit_fsetb h2 (by simp) rfl
  · rw [State.fbit, hlater _ rfl]
    exact fbit_fsetb h3 (by simp) rfl
  · refine .trans ?_ (rd64_wr64 (o := R.dmaChnFaultLo ch) h4)
    rw [State.rd64, State.rd64]
    refine congrArg₂ _ ((rd_fset_ne ?_).trans (rd_bump_ne ?_)) ((rd_fset_ne ?_).trans (rd_bump_ne ?_)) <;>
      simp only [R.dmaStatus, R.dmaChnFaults, R.dmaChnFaultLo] <;> omega
  · refine (congrArg BitVec.toNat (rd_fset_ne ?_)).trans ((toNat_rd_bump h5).trans ?_)
    · simp only [R.dmaStatus, R.dmaChnFaults]
      omega
    · rw [rd_wr64_ne, rd_fsetb_ne, rd_fsetb_ne, rd_fset_ne, rd_fset_ne] <;>
        simp only [R.dmaChnStatus, R.dmaChnFaults, R.dmaChnFaultLo] <;> omega
  · exact (fbit_fset h6 (by simp; omega)).trans (by simp)

theorem dmaHalt_raised {cause : Nat} {a b : Bool} {addr : W64} :
    (s.dmaHalt ch cause a b addr).recd.raised.length = s.recd.raised.length + 1 := by
  simp [State.dmaHalt, State.raise]

theorem dmaHalt_out {cause : Nat} {a b : Bool} {addr : W64} :
    (s.dmaHalt ch cause a b addr).out = s.out ++ [.msix (s.aget (F.dmaChnProg_port ch)) 2] := by
  simp [State.dmaHalt, State.emit, State.aget, State.actv]

/-! Transfers. -/

theorem dmaCmd_eq_some {c : Cmd} : s.dmaCmd ch = some c ↔
    s.fget (F.dmaChnStatus_state ch) = 1 ∧ ∃ id, vget s.dma.chan ch = some id ∧ s.cmd? id = some c := by
  rw [State.dmaCmd]
  split
  next h => simp [h, Option.bind_eq_some_iff]
  next h => simp [h]

theorem id_of_dmaCmd {c : Cmd} (h : s.dmaCmd ch = some c) : ∃ id, c.id = id ∧ vget s.dma.chan ch = some id ∧ c ∈ s.host.cmds := by
  obtain ⟨-, id, hc, hid⟩ := dmaCmd_eq_some.mp h
  exact ⟨id, beq_iff_eq.mp (List.find?_some (p := fun d : Cmd => d.id == id) hid), hc, List.mem_of_find?_eq_some hid⟩

theorem exec_dmaTransferDone_in {ch : Fin 16} {c : Cmd} {data : List Byte} (h : s.dmaCmd ch = some c) (hp : c.phase = .movingIn)
    (hl : data.length = c.length) : exec (.dmaTransferDone ch data) s =
      .next ((((s.modCmd c.id (fun d => { d with data := some data, phase := .ready })).dmaCount ch
        (c.length - vget s.dma.moved ch)).dmaFree ch).dmaGo) := by
  rw [exec_dmaTransferDone, execDmaTransferDone]
  simp only [h, if_pos hp, State.when, hl, BEq.rfl, if_true]

/-- One burst of captured data. -/
theorem dmaOut_data {c : Cmd} {d : List Byte} (hd : c.data = some d) (hl : d.length = c.length) (h0 : 0 < c.length)
    (hb : c.burst 0 c.length = c.length) (hf : c.fixedHost = false) (hm : vget s.dma.moved ch = 0) (hch : ch < 16) :
    s.dmaOut ch c c.length = (s.emit (.hostWrite c.port c.desc.hostAddr d)).dmaCount ch c.length := by
  have hmv : vget ((s.emit (.hostWrite c.port c.desc.hostAddr d)).dmaCount ch c.length).dma.moved ch = c.length := by
    refine (vget_vset_self hch).trans ?_
    show vget s.dma.moved ch + c.length = c.length
    rw [hm, Nat.zero_add]
  have hw : s.dmaWrite c 0 d = s.emit (.hostWrite c.port c.desc.hostAddr d) := by
    simp [State.dmaWrite, hf]
  obtain ⟨k, hk⟩ : ∃ k, c.length = k + 1 := ⟨c.length - 1, by omega⟩
  have hmove : State.dmaMove ch c c.length (c.length + 1) s =
      ((s.emit (.hostWrite c.port c.desc.hostAddr d)).dmaCount ch c.length, none) := by
    have hn : max 1 (min (c.length - 0) (c.burst 0 (c.length - 0))) = c.length := by
      rw [Nat.sub_zero, hb]
      omega
    rw [State.dmaMove, if_neg (by omega)]
    simp only [hm, hd, Option.isNone_some, Bool.false_and, Bool.false_eq_true, if_false, List.drop_zero]
    rw [hn, List.take_of_length_le hl.le, hw]
    generalize c.length = n at hk hmv
    subst hk
    rw [State.dmaMove, if_pos (by rw [hmv])]
  rw [State.dmaOut, hmove]

theorem frame_dmaFinish {c : Cmd} {status result : Nat} (hch : ch < 16) :
    Frame [.out, .regs, .host, .dma] [.span 0xB000 0] s (s.dmaFinish ch c status result) :=
  .after (frame_dmaGo _).sub <| .after (frame_cmdDone ..).sub <| .after (frame_dmaFree hch).sub <| .ite (frame_modCmd ..).sub (.refl _)

theorem exec_dmaTransferDone_out {ch : Fin 16} {c : Cmd} {d data : List Byte} (h : s.dmaCmd ch = some c) (hp : c.phase = .movingOut)
    (hd : c.data = some d) (hl : d.length = c.length) (h0 : 0 < c.length) (hb : c.burst 0 c.length = c.length)
    (hf : c.fixedHost = false) (hm : vget s.dma.moved ch = 0) : exec (.dmaTransferDone ch data) s =
      .next (((s.emit (.hostWrite c.port c.desc.hostAddr d)).dmaCount ch c.length).dmaFinish ch c c.status.toNat c.result.toNat) := by
  have hmv : vget ((s.emit (.hostWrite c.port c.desc.hostAddr d)).dmaCount ch c.length).dma.moved ch = c.length := by
    refine (vget_vset_self ch.isLt).trans ?_
    show vget s.dma.moved ch + c.length = c.length
    rw [hm, Nat.zero_add]
  have hcmd : ((s.emit (.hostWrite c.port c.desc.hostAddr d)).dmaCount ch c.length).dmaCmd ch = some c := by
    obtain ⟨hs, hid⟩ := dmaCmd_eq_some.mp h
    refine dmaCmd_eq_some.mpr ⟨.trans (fget_wr64_off ?_ ?_) hs, hid⟩ <;> simp only [R.dmaChnStatus, R.dmaChnBytesLo] <;> omega
  rw [exec_dmaTransferDone, execDmaTransferDone]
  simp only [h, if_neg (show ¬ c.phase = .movingIn by rw [hp]; decide), dmaOut_data hd hl h0 hb hf hm ch.isLt]
  rw [if_pos ⟨hmv, by rw [hcmd]; rfl⟩]

theorem exec_dmaHalt_in {ch : Fin 16} {c : Cmd} {cause : BitVec 3} {moved : Nat} {addr : W64} (h : s.dmaCmd ch = some c)
    (hp : c.phase = .movingIn) (hm : moved < c.length) (hc : cause = 1 ∨ cause = 2 ∨ cause = 3 ∨ cause = 4 ∨ cause = 7) :
    exec (.dmaHalt ch cause moved addr) s =
      .next ((s.dmaCount ch (moved - vget s.dma.moved ch)).dmaHalt ch cause.toNat false false addr) := by
  have hcmd : (s.dmaCount ch (moved - vget s.dma.moved ch)).dmaCmd ch = some c := by
    obtain ⟨hs, hid⟩ := dmaCmd_eq_some.mp h
    refine dmaCmd_eq_some.mpr ⟨.trans (fget_wr64_off ?_ ?_) hs, hid⟩ <;> simp only [R.dmaChnStatus, R.dmaChnBytesLo] <;> omega
  have hok : (cause == 1 || cause == 2 || cause == 3 || cause == 4 || cause == 7) = true := by simpa [or_assoc] using hc
  rw [exec_dmaHalt, execDmaHalt]
  simp only [h, hcmd, State.when, hok, hm, hp, Bool.true_and, decide_true, if_true, Option.isSome_some]
  rfl

/-- Settles O58: the transfers by what a channel does when it is left or halts, and what resumes it. -/
theorem dmaTransfers : Obligations.DmaTransfers := by
  unfold Obligations.DmaTransfers
  refine fun m s hw => ⟨fun ch c data h hp hl => exec_dmaTransferDone_in h hp hl, fun ch c data h hp hl hc => ?alone,
    fun ch c d data h hp hd hl h0 h256 hf hfh hb hpage hm => ?burst, fun ch data h => ?none, fun ch c cause moved addr h hp hm hc => ?halt,
    fun ch h hs => ?retry, fun ch c h hc hid hs => ?abort, fun ch key h hs => ⟨?_, ?_⟩⟩
  case alone =>
    have hcmds : (s.modCmd c.id (fun d => { d with data := some data, phase := .ready })).host.cmds =
        [{ c with data := some data, phase := .ready }] := by
      show s.host.cmds.map _ = _
      rw [hc, List.map_singleton, if_pos rfl]
    refine ⟨_, exec_dmaTransferDone_in h hp hl, ?_⟩
    generalize hu : s.modCmd c.id (fun d => { d with data := some data, phase := .ready }) = u at hcmds
    have huw : u.regsWf = true := by subst hu; exact hw
    have hrest : dmaRest u = dmaRest s := by subst hu; rfl
    have hout : u.out = s.out := by subst hu; rfl
    have hmem : u.mem = s.mem := by subst hu; rfl
    have hcount := frame_dmaCount (s := u) (n := c.length - vget s.dma.moved ch) ch.isLt
    have hfree := frame_dmaFree (s := u.dmaCount ch (c.length - vget s.dma.moved ch)) ch.isLt
    have hall := hcount.trans hfree
    have hhost := hall.part .host (by decide)
    rw [dmaGo_idle (fun d hd => by
      rw [show ((u.dmaCount ch _).dmaFree ch).host = u.host from hhost, hcmds, List.mem_singleton] at hd
      rw [hd]
      rfl)]
    refine ⟨(congrArg HostS.cmds hhost).trans hcmds, vget_dmaFree_chan ch.isLt, ?_, (hall.part .mem (by decide)).trans hmem,
      (hall.part .out (by decide)).trans hout⟩
    rw [fget_dmaFree_state (hcount.canon huw) ch.isLt, dmaRest, hcount.rd huw, ← dmaRest, hrest, dmaRest]
  case burst =>
    have hburst : c.burst 0 c.length = c.length := by
      simp only [Cmd.burst, hf, hfh, Bool.false_eq_true, if_false]
      omega
    have hfin := frame_dmaFinish (s := (s.emit (.hostWrite c.port c.desc.hostAddr d)).dmaCount ch c.length) (c := c)
      (status := c.status.toNat) (result := c.result.toNat) ch.isLt
    have hcount := frame_dmaCount (s := s.emit (.hostWrite c.port c.desc.hostAddr d)) (n := c.length) ch.isLt
    obtain ⟨more, hmore⟩ := (keeps_dmaFinish ((s.emit (.hostWrite c.port c.desc.hostAddr d)).dmaCount ch c.length) ch c c.status.toNat
      c.result.toNat).2.2
    exact ⟨_, exec_dmaTransferDone_out h hp hd hl h0 hburst hfh hm, (hfin.part .mem (by decide)).trans (hcount.part .mem (by decide)),
      more, hmore⟩
  case none =>
    rw [exec_dmaTransferDone, execDmaTransferDone]
    simp only [h]
  case halt =>
    have hcount := frame_dmaCount (s := s) (n := moved - vget s.dma.moved ch) ch.isLt
    have hhalt := frame_dmaHalt (s := s.dmaCount ch (moved - vget s.dma.moved ch)) (cause := cause.toNat) (a := false) (b := false)
      (addr := addr) ch.isLt
    obtain ⟨h1, h2, h3, h4, h5, h6, h7⟩ := dmaHalt_shows (cause := cause.toNat) (a := false) (b := false) (addr := addr)
      (hcount.canon hw) ch.isLt (by omega)
    refine ⟨_, exec_dmaHalt_in h hp hm hc, h1, h2, h3, h4, h5, ?_, h7, ?_, ?_, ?_, ?_⟩
    · refine h6.trans ?_
      rw [show (s.dmaCount ch (moved - vget s.dma.moved ch)).rd (R.dmaChnFaults ch) = s.rd (R.dmaChnFaults ch) from rd_wr64_ne (by
        simp only [R.dmaChnFaults, R.dmaChnBytesLo]
        omega) (by
        simp only [R.dmaChnFaults, R.dmaChnBytesLo]
        omega)]
    · exact (hhalt.part .host (by decide)).trans (hcount.part .host (by decide))
    · exact (hhalt.part .mem (by decide)).trans (hcount.part .mem (by decide))
    · exact dmaHalt_raised
    · exact dmaHalt_out
  case retry =>
    refine ⟨_, (exec_dmaRetry_writes hs).trans (congrArg _ (dmaResume_retry h)), ?_, ?_, onlyRegs_dmaMoves⟩
    · refine (fget_fset_off ?_).trans ((fget_fset hw (by simp)).trans (by norm_num))
      simp only [R.dmaChnStatus, R.dmaStatus]
      omega
    · exact (fbit_fset (regsWf_fset hw) (by simp; omega)).trans (by simp)
  case abort => exact ⟨_, (exec_dmaAbort_writes hs).trans (congrArg _ (dmaResume_abort h hc hid)), onlyRegs_dmaMoves⟩
  · rw [exec_dmaRetry_writes hs, dmaResume_ignored (by decide) h]
  · rw [exec_dmaAbort_writes hs, dmaResume_ignored (by decide) h]

end Sys2Proof.Machine
end

section
/-! Host ports: heads, rings, engines and links (R329, R331, R340, R353). -/

namespace Sys2Proof.Machine

variable {s t : State} {m : Master} {p n : Nat}

theorem frame_eqWrite (s : State) (p kind : Nat) (body : List Byte) : Frame [.out, .host] [] s (s.eqWrite p kind body) :=
  Frame.after Frame.host <| Frame.emit
theorem frame_eqDrain (p n : Nat) (s : State) : Frame [.out, .host] [] s (s.eqDrain p n) := by
  induction n generalizing s with
  | zero => exact Frame.refl s
  | succ n ih =>
    unfold State.eqDrain
    refine Frame.ite (Frame.refl s) ?_
    split
    · exact Frame.trans .host <| (frame_eqWrite ..).sub.trans <| ih _
    · exact Frame.trans .host <| ih _
    · exact Frame.ite (Frame.refl s) (Frame.trans .host <| (frame_eqWrite ..).sub)
theorem frame_eqServe (s : State) (p : Nat) (h : p < 2) : Frame [.out, .regs, .host] [.fld (F.hostPpStatus_eqFull 0), .fld
    (F.hostPpStatus_eqFull 1)] s (s.eqServe p) := by
  unfold State.eqServe
  extract_lets t u
  have hu : Frame [.out, .regs, .host] [.fld (F.hostPpStatus_eqFull 0), .fld (F.hostPpStatus_eqFull 1)] s u := .after (.ite
    (.refl _) .emit) (frame_eqDrain ..).sub
  clear_value u
  rcases (by omega : p = 0 ∨ p = 1) with rfl | rfl <;> exact hu.trans .fsetb
abbrev engineGoPlaces : List Rect := [.fld (F.hostPpStatus_cqFull 0), .fld (F.hostPpStatus_eqFull 0), ⟨R.hostPpCmds 0, 0,
  0x40, 0, 32⟩, .fld (F.hostPpStatus_cqFull 1), .fld (F.hostPpStatus_eqFull 1), .span 0xB218 0]
theorem frame_engineGo (s : State) (p : Nat) (h : p < 2) : Frame [.out, .regs, .host] engineGoPlaces s (s.engineGo p) :=
  .after (frame_completeAll ..).sub (frame_eqServe (h := h) ..).sub

/-! The enables of the rings. -/

/-- The bits of a list of flags, added above others. -/
theorem ringMask_eq (ok : Nat → Bool) (a k : Nat) : ∃ b < 2 ^ k, (List.range k).foldl (fun a n => a + bit (ok n) * 2 ^ n) a = a + b ∧
    ∀ n < k, b.testBit n = ok n := by
  induction k with
  | zero => exact ⟨0, by decide, rfl, fun n hn => absurd hn (Nat.not_lt_zero n)⟩
  | succ k ih =>
    obtain ⟨b, hb, he, ht⟩ := ih
    have hbit : bit (ok k) ≤ 1 := by cases ok k <;> decide
    refine ⟨2 ^ k * bit (ok k) + b, ?_, ?_, fun n hn => ?_⟩
    · have := Nat.mul_le_mul_left (2 ^ k) hbit
      rw [Nat.pow_succ]
      omega
    · rw [List.range_succ, List.foldl_append, he, List.foldl_cons, List.foldl_nil, Nat.mul_comm (2 ^ k)]
      omega
    · rw [Nat.testBit_two_pow_mul_add _ hb]
      split
      next h => exact ht n h
      next h =>
        obtain rfl : n = k := by omega
        rw [Nat.sub_self]
        cases ok n <;> rfl

/-- The enables that a write to `HOST_RING_EN` leaves. -/
def ringEnables (v : W32) : Nat :=
  (List.range 16).foldl (fun a n => a + bit (bitN v.toNat n && bitN v.toNat (16 + n / 8)) * 2 ^ n) (fldN v.toNat 16 2 * 65536)

theorem ringEnables_eq (v : W32) : ∃ b < 65536, ringEnables v = 65536 * fldN v.toNat 16 2 + b ∧
    ∀ n < 16, b.testBit n = (v.getLsbD n && v.getLsbD (16 + n / 8)) := by
  obtain ⟨b, hb, he, ht⟩ := ringMask_eq (fun n => bitN v.toNat n && bitN v.toNat (16 + n / 8)) (fldN v.toNat 16 2 * 65536) 16
  exact ⟨b, hb, by rw [ringEnables, he, Nat.mul_comm], fun n hn => ht n hn⟩

theorem ringEnables_lt (v : W32) : ringEnables v < 2 ^ 32 := by
  obtain ⟨b, hb, he, -⟩ := ringEnables_eq v
  have : fldN v.toNat 16 2 < 4 := Nat.mod_lt _ (by decide)
  omega

theorem ringEnables_ring (v : W32) (hn : n < 16) : (ringEnables v).testBit n = (v.getLsbD n && v.getLsbD (16 + n / 8)) := by
  obtain ⟨b, hb, he, ht⟩ := ringEnables_eq v
  rw [he, show (65536 : Nat) = 2 ^ 16 from rfl, Nat.testBit_two_pow_mul_add _ hb, if_pos hn, ht n hn]

theorem ringEnables_port (v : W32) (hp : p < 2) : (ringEnables v).testBit (16 + p) = v.getLsbD (16 + p) := by
  obtain ⟨b, hb, he, -⟩ := ringEnables_eq v
  rw [he, show (65536 : Nat) = 2 ^ 16 from rfl, Nat.testBit_two_pow_mul_add _ hb, if_neg (by omega), Nat.add_sub_cancel_left, fldN,
    Nat.testBit_mod_two_pow, Nat.testBit_div_two_pow, decide_eq_true hp, Bool.true_and, Nat.add_comm]
  rfl

/-- What enabling port `p` resets. -/
def portStart (old new : Nat) (s : State) (p : Nat) : State :=
  if bitN new (16 + p) && !bitN old (16 + p) then
    { s with host := { s.host with
      cq := vset s.host.cq p 0, eq := vset s.host.eq p 0, eqWait := vset s.host.eqWait p [], eqDropped := vset s.host.eqDropped p 0 } }
  else s

/-- What enabling ring `n` resets. -/
def ringStart (old new : Nat) (s : State) (n : Nat) : State :=
  if bitN new n && !bitN old n then
    (({ s.zero [R.hostChnProd n, R.hostChnTaken n, R.hostChnDone n] with
      host := { s.host with fetched := vset s.host.fetched n 0, quiet := s.host.quiet.del n, catchUp := s.host.catchUp.del n } } : State).fset
      (F.hostChnErr_halted n) 0).fset ⟨R.hostStatus, n, 1⟩ 0
  else s

theorem setRingEn_eq (v : W32) : s.setRingEn v = (List.range 16).foldl (ringStart (s.rd R.hostRingEn).toNat (ringEnables v))
    ([0, 1].foldl (portStart (s.rd R.hostRingEn).toNat (ringEnables v)) (s.wr R.hostRingEn (BitVec.ofNat 32 (ringEnables v)))) := rfl

theorem frame_portStart {old new : Nat} : Frame [.host] [] s (portStart old new s p) := .ite .host (.refl s)

theorem frame_ringStart {old new : Nat} (hn : n < 16) :
    Frame [.regs, .host] [.reg R.hostStatus, .span 0xB200 0xB400] s (ringStart old new s n) := by
  have hr (k lo w : Nat) (hk : 0xB200 ≤ k ∧ k < 0xB220) (hw : lo + w ≤ 32) :
      coverAll [.reg R.hostStatus, .span 0xB200 0xB400] ⟨k + n * 0x20, lo, w⟩ = true :=
    cover_span 0xB200 0xB400 (by
      dsimp only
      omega) rfl (Nat.ble_eq.mpr hw)
  have hs : coverAll [.reg R.hostStatus, .span 0xB200 0xB400] ⟨R.hostStatus, n, 1⟩ = true :=
    cover_span R.hostStatus (R.hostStatus + 1) ⟨le_rfl, Nat.lt_succ_self _⟩ rfl (Nat.ble_eq.mpr (by
      dsimp only
      omega))
  refine .ite (.after (.fset hs) <| .after (.fset (hr 0xB21C 2 1 (by decide) (by decide))) <| .after .host <| ?_) (.refl s)
  exact .trans (.trans (.wr (hr 0xB210 0 32 (by decide) (by decide))) (.wr (hr 0xB214 0 32 (by decide) (by decide))))
    (.wr (hr 0xB218 0 32 (by decide) (by decide)))

theorem frame_setRingEn {v : W32} : Frame [.regs, .host] [.reg R.hostStatus, .reg R.hostRingEn, .span 0xB200 0xB400] s (s.setRingEn v) := by
  rw [setRingEn_eq]
  exact .after (.foldl (fun u n hn => (frame_ringStart (List.mem_range.mp hn)).sub) _) <|
    .after (.foldl (fun u p _ => frame_portStart.sub) _) .wr

theorem setRingEn_enables {v : W32} (hw : s.regsWf = true) : ((s.setRingEn v).rd R.hostRingEn).toNat = ringEnables v := by
  have h1 : (s.wr R.hostRingEn (BitVec.ofNat 32 (ringEnables v))).regsWf = true := regsWf_wr hw
  have hp : Frame [.host] [] _ _ := .foldl (fun u p _ => frame_portStart (p := p) (old := (s.rd R.hostRingEn).toNat) (new := ringEnables v))
    (l := [0, 1]) (s.wr R.hostRingEn (BitVec.ofNat 32 (ringEnables v)))
  have hr := Frame.foldl (fun u n hn => frame_ringStart (s := u) (old := (s.rd R.hostRingEn).toNat) (new := ringEnables v)
    (List.mem_range.mp hn)) ([0, 1].foldl (portStart (s.rd R.hostRingEn).toNat (ringEnables v))
      (s.wr R.hostRingEn (BitVec.ofNat 32 (ringEnables v))))
  rw [setRingEn_eq, hr.rd (hp.canon h1), hp.rd h1, rd_wr_self hw, BitVec.toNat_ofNat, Nat.mod_eq_of_lt (ringEnables_lt v)]

/-- What a ring shows when it is enabled anew. -/
def ringFresh (n : Nat) (s : State) : Prop :=
  s.rd (R.hostChnProd n) = 0 ∧ s.rd (R.hostChnTaken n) = 0 ∧ s.rd (R.hostChnDone n) = 0 ∧ s.fget (F.hostChnErr_halted n) = 0

/-- The start of another ring leaves a ring's registers. -/
theorem rd_ringStart_ne {old new k o : Nat} (hk : k ≠ n) (ho : o < 0x20) :
    (ringStart old new s k).rd (0xB200 + n * 0x20 + o) = s.rd (0xB200 + n * 0x20 + o) := by
  unfold ringStart
  split
  · refine (rd_fset_ne ?_).trans ((rd_fset_ne ?_).trans ((onlyRegs_zero _ s).2 _ ?_))
    all_goals
      simp only [R.hostStatus, R.hostChnErr, R.hostChnProd, R.hostChnTaken, R.hostChnDone, List.mem_cons, List.not_mem_nil, or_false]
      omega
  · rfl

theorem ringFresh_ringStart_ne {old new k : Nat} (hk : k ≠ n) (h : ringFresh n s) : ringFresh n (ringStart old new s k) := by
  have hrd (o : Nat) (ho : o < 0x20) := rd_ringStart_ne (s := s) (old := old) (new := new) hk ho
  have hadd (o : Nat) : 0xB200 + o + n * 0x20 = 0xB200 + n * 0x20 + o := by omega
  have h0 := hrd 0x10 (by decide)
  have h1 := hrd 0x14 (by decide)
  have h2 := hrd 0x18 (by decide)
  have h3 := hrd 0x1C (by decide)
  rw [← hadd] at h0 h1 h2 h3
  obtain ⟨e0, e1, e2, e3⟩ := h
  exact ⟨h0.trans e0, h1.trans e1, h2.trans e2, (fget_congr h3).trans e3⟩

theorem ringFresh_ringStart {old new : Nat} (hw : s.regsWf = true) (h : (bitN new n && !bitN old n) = true) :
    ringFresh n (ringStart old new s n) := by
  have hz (o : Nat) : (s.zero [R.hostChnProd n, R.hostChnTaken n, R.hostChnDone n]).rd o =
      if o ∈ [R.hostChnProd n, R.hostChnTaken n, R.hostChnDone n] then 0 else s.rd o := rd_zero _ hw o
  have hzw := regsWf_zero [R.hostChnProd n, R.hostChnTaken n, R.hostChnDone n] hw
  rw [ringStart, if_pos h]
  refine ⟨?_, ?_, ?_, ?_⟩
  · refine (rd_fset_ne ?_).trans ((rd_fset_ne ?_).trans ((hz _).trans (if_pos (by simp)))) <;>
      simp only [R.hostStatus, R.hostChnErr, R.hostChnProd] <;> omega
  · refine (rd_fset_ne ?_).trans ((rd_fset_ne ?_).trans ((hz _).trans (if_pos (by simp)))) <;>
      simp only [R.hostStatus, R.hostChnErr, R.hostChnTaken] <;> omega
  · refine (rd_fset_ne ?_).trans ((rd_fset_ne ?_).trans ((hz _).trans (if_pos (by simp)))) <;>
      simp only [R.hostStatus, R.hostChnErr, R.hostChnDone] <;> omega
  · refine (fget_fset_off ?_).trans ((fget_fset hzw (by simp)).trans (Nat.zero_mod _))
    simp only [R.hostStatus, R.hostChnErr]
    omega

theorem setRingEn_fresh {v : W32} (hw : s.regsWf = true) (hn : n < 16) (hnew : (ringEnables v).testBit n = true)
    (hold : (s.rd R.hostRingEn).getLsbD n = false) : ringFresh n (s.setRingEn v) := by
  have hc : (bitN (ringEnables v) n && !bitN (s.rd R.hostRingEn).toNat n) = true := by
    rw [bitN, bitN, hnew, BitVec.testBit_toNat, hold]
    rfl
  have hp : Frame [.host] [] _ _ := .foldl (fun u p _ => frame_portStart (p := p) (old := (s.rd R.hostRingEn).toNat) (new := ringEnables v))
    (l := [0, 1]) (s.wr R.hostRingEn (BitVec.ofNat 32 (ringEnables v)))
  rw [setRingEn_eq]
  exact foldl_own (P := fun u => u.regsWf = true) List.nodup_range (List.mem_range.mpr hn)
    (fun u b hb _ hu => (frame_ringStart (List.mem_range.mp hb)).canon hu) (fun u b _ hne hu => ringFresh_ringStart_ne hne hu)
    (fun u hu => ringFresh_ringStart hu hc) (hp.canon (regsWf_wr hw))

theorem setRingEn_taken {v : W32} (hw : s.regsWf = true) (hold : (s.rd R.hostRingEn).getLsbD n = true) :
    (s.setRingEn v).rd (R.hostChnTaken n) = s.rd (R.hostChnTaken n) := by
  have hoff : R.hostChnTaken n = 0xB200 + n * 0x20 + 0x14 := by
    simp only [R.hostChnTaken]
    omega
  have hp : Frame [.host] [] _ _ := .foldl (fun u p _ => frame_portStart (p := p) (old := (s.rd R.hostRingEn).toNat) (new := ringEnables v))
    (l := [0, 1]) (s.wr R.hostRingEn (BitVec.ofNat 32 (ringEnables v)))
  have h1 : (s.wr R.hostRingEn (BitVec.ofNat 32 (ringEnables v))).rd (R.hostChnTaken n) = s.rd (R.hostChnTaken n) := rd_wr_ne (by
    simp only [R.hostChnTaken, R.hostRingEn]
    omega)
  rw [setRingEn_eq]
  refine foldl_keeps (P := fun u => u.rd (R.hostChnTaken n) = s.rd (R.hostChnTaken n)) (fun u b _ hu => ?_)
    ((hp.rd (regsWf_wr hw)).trans h1)
  by_cases hb : b = n
  · subst hb
    rw [ringStart, if_neg (by rw [bitN, bitN, BitVec.testBit_toNat, hold]; simp), hu]
  · rw [hoff] at hu ⊢
    rw [rd_ringStart_ne hb (by decide), hu]

/-! Heads and engines. -/

theorem exec_hostCqHead_writes {p : Fin 2} {v : W32} (hs : s.writes m (R.hostPpCqHead p)) :
    exec (.hostCqHead m p v) s = .next (s.setCqHead p v) := asWrite_writes (f := fun s => s.setCqHead p v) hs

theorem exec_hostEqHead_writes {p : Fin 2} {v : W32} (hs : s.writes m (R.hostPpEqHead p)) :
    exec (.hostEqHead m p v) s = .next (s.setEqHead p v) := asWrite_writes (f := fun s => s.setEqHead p v) hs

theorem exec_hostRingEn_writes {v : W32} (hs : s.writes m R.hostRingEn) : exec (.hostRingEn m v) s = .next (s.setRingEn v) :=
  asWrite_writes (f := fun s => s.setRingEn v) hs

theorem exec_hostResume_writes {k : BitVec 2} (hs : s.writes m R.hostCtrl) : exec (.hostResume m k) s = .next (s.hostResume k) :=
  asWrite_writes (f := fun s => s.hostResume k) hs

/-- With no command nothing is completed. -/
theorem completeAll_idle (h : s.host.cmds = []) : s.completeAll.out = s.out ∧
    Frame [.regs] [.fld (F.hostPpStatus_cqFull 0), .fld (F.hostPpStatus_cqFull 1)] s s.completeAll := by
  have hr (l : List Nat) : l.foldl (fun s n => State.completeRing n s.host.cmds.length s) s = s := by
    refine foldl_keeps (P := fun u => u = s) (fun u n _ hu => ?_) rfl
    rw [hu, h]
    rfl
  have hf : Frame [.regs] [.fld (F.hostPpStatus_cqFull 0), .fld (F.hostPpStatus_cqFull 1)] s s.completeAll := by
    unfold State.completeAll
    rw [hr]
    refine Frame.foldl (fun u p hp => ?_) s
    simp only [List.mem_cons, List.not_mem_nil, or_false] at hp
    rcases hp with rfl | rfl <;> exact .fsetb
  exact ⟨hf.part .out (by decide), hf⟩

theorem eqDrain_idle (hq : vget s.host.eqWait p = []) (hd : vget s.host.eqDropped p = 0) : ∀ k, s.eqDrain p k = s
  | 0 => rfl
  | k + 1 => by
    unfold State.eqDrain
    split
    · rfl
    · rw [hq]
      exact if_pos hd

/-- With no entry that waits nothing is written to the event ring. -/
theorem eqServe_idle (hq : vget s.host.eqWait p = []) (hd : vget s.host.eqDropped p = 0) : (s.eqServe p).out = s.out := by
  unfold State.eqServe
  rw [eqDrain_idle hq hd]
  dsimp only
  rw [if_pos rfl]
  rfl

theorem engineOk_eq : s.engineOk p = (s.fbit (F.hostPpStatus_link p) && !s.fbit (F.hostPpStatus_halt p)) := rfl

/-- The link and the halt of both ports stand. -/
theorem engineOk_of_frame {ps : List Part} {W : List Rect} (h : Frame ps W s t) (hw : s.regsWf = true) (hp : p < 2)
    (ha : autoParam ([F.hostPpStatus_link 0, F.hostPpStatus_halt 0, F.hostPpStatus_link 1, F.hostPpStatus_halt 1].all (apartAll W) = true) List.TFAE.out._auto_1) :
    t.engineOk p = s.engineOk p := by
  simp only [List.all_cons, List.all_nil, Bool.and_true, Bool.and_eq_true] at ha
  obtain ⟨h0, h1, h2, h3⟩ := ha
  rcases (by omega : p = 0 ∨ p = 1) with rfl | rfl
  · rw [engineOk_eq, engineOk_eq, h.fbit hw h0, h.fbit hw h1]
  · rw [engineOk_eq, engineOk_eq, h.fbit hw h2, h.fbit hw h3]

/-- The state in which the engine of port `p` has halted. -/
def engineHalted (s : State) (p : Nat) (addr : W64) (write : Bool) : State :=
  (((((s.fset (F.hostPpStatus_halt p) 1).fsetb (F.hostPpStatus_faultWr p) write).wr64 (R.hostPpFaultLo p) addr).fset
    ⟨R.hostStatus, 16 + p, 1⟩ 1).raise hapEngineHalt p [addr]).emit (.msix p 2)

theorem exec_ringEngineHalt_eq {p : Fin 2} {addr : W64} {write : Bool} :
    exec (.ringEngineHalt p addr write) s = if s.engineOk p then .next (engineHalted s p addr write) else .next s := by
  rw [exec_ringEngineHalt, execRingEngineHalt, State.when]
  split <;> rfl

theorem engineHalted_shows {addr : W64} {write : Bool} (hw : s.regsWf = true) (hp : p < 2) :
    let t := engineHalted s p addr write
    t.fbit (F.hostPpStatus_halt p) = true ∧ t.fbit (F.hostPpStatus_faultWr p) = write ∧ t.rd64 (R.hostPpFaultLo p) = addr ∧
      t.engineOk p = false ∧ t.engineOk (1 - p) = s.engineOk (1 - p) := by
  have h1 := regsWf_fset (f := F.hostPpStatus_halt p) (n := 1) hw
  have h2 := regsWf_fsetb (f := F.hostPpStatus_faultWr p) (b := write) h1
  have hlater (f : Field) (hf : f.off = R.hostPpStatus p) : (engineHalted s p addr write).fget f =
      ((s.fset (F.hostPpStatus_halt p) 1).fsetb (F.hostPpStatus_faultWr p) write).fget f := by
    refine (fget_fset_off ?_).trans (fget_wr64_off ?_ ?_) <;> rw [hf] <;>
      simp only [R.hostPpStatus, R.hostStatus, R.hostPpFaultLo] <;> omega
  have hhalt : (engineHalted s p addr write).fbit (F.hostPpStatus_halt p) = true := by
    rw [State.fbit, hlater _ rfl, fget_fsetb_beside h1 (by simp) (by simp), fget_fset hw (by simp)]
    rfl
  refine ⟨hhalt, ?_, ?_, ?_, ?_⟩
  · rw [State.fbit, hlater _ rfl]
    exact fbit_fsetb h1 (by simp) rfl
  · refine .trans ?_ (rd64_wr64 (o := R.hostPpFaultLo p) h2)
    rw [State.rd64, State.rd64]
    refine congrArg₂ _ (rd_fset_ne ?_) (rd_fset_ne ?_) <;> simp only [R.hostStatus, R.hostPpFaultLo] <;> omega
  · rw [engineOk_eq, hhalt]
    exact Bool.and_false _
  · rcases (by omega : p = 0 ∨ p = 1) with rfl | rfl
    · have hf : Frame [.regs, .recd, .out] [.reg (R.hostPpStatus 0), .reg (R.hostPpFaultLo 0), .reg (R.hostPpFaultLo 0 + 4), .reg R.hostStatus] s
          (engineHalted s 0 addr write) := .after .emit <| .after .raise <| .after .fset <| .after .wr64 <| .after .fsetb .fset
      rw [engineOk_eq, hf.fbit hw, hf.fbit hw]
      rfl
    · have hf : Frame [.regs, .recd, .out] [.reg (R.hostPpStatus 1), .reg (R.hostPpFaultLo 1), .reg (R.hostPpFaultLo 1 + 4), .reg R.hostStatus] s
          (engineHalted s 1 addr write) := .after .emit <| .after .raise <| .after .fset <| .after .wr64 <| .after .fsetb .fset
      rw [engineOk_eq, hf.fbit hw, hf.fbit hw]
      rfl

theorem hostResume_one (hp : p < 2) (h : s.fbit (F.hostPpStatus_halt p) = true) :
    s.hostResume (1#2 <<< p) = ((s.fset (F.hostPpStatus_halt p) 0).fset ⟨R.hostStatus, 16 + p, 1⟩ 0).engineGo p := by
  rcases (by omega : p = 0 ∨ p = 1) with rfl | rfl <;> simp [State.hostResume, h]

theorem hostResume_none : s.hostResume 0 = s := by simp [State.hostResume]

theorem hostResume_shows (hw : s.regsWf = true) (hp : p < 2) (hl : s.fbit (F.hostPpStatus_link p) = true)
    (h : s.fbit (F.hostPpStatus_halt p) = true) :
    let t := s.hostResume (1#2 <<< p)
    t.engineOk p = true ∧ t.engineOk (1 - p) = s.engineOk (1 - p) ∧ t.mem = s.mem := by
  have h1 := regsWf_fset (f := F.hostPpStatus_halt p) (n := 0) hw
  have hgo := frame_engineGo ((s.fset (F.hostPpStatus_halt p) 0).fset ⟨R.hostStatus, 16 + p, 1⟩ 0) p hp
  have hoff : (F.hostPpStatus_halt p).off ≠ R.hostStatus := by
    simp only [R.hostPpStatus, R.hostStatus]
    omega
  have hhalt : ((s.fset (F.hostPpStatus_halt p) 0).fset ⟨R.hostStatus, 16 + p, 1⟩ 0).fbit (F.hostPpStatus_halt p) = false := by
    rw [State.fbit, fget_fset_off hoff, fget_fset hw (by simp)]
    rfl
  have hlink : ((s.fset (F.hostPpStatus_halt p) 0).fset ⟨R.hostStatus, 16 + p, 1⟩ 0).fbit (F.hostPpStatus_link p) = true := by
    rw [State.fbit, fget_fset_off hoff, fget_fset_beside hw (by simp) (by simp)]
    exact hl
  dsimp only
  rw [hostResume_one hp h]
  refine ⟨?_, ?_, hgo.part .mem (by decide)⟩
  · rw [engineOk_of_frame hgo (regsWf_fset h1) hp, engineOk_eq, hhalt, hlink]
    rfl
  · rw [engineOk_of_frame hgo (regsWf_fset h1) (by omega)]
    rcases (by omega : p = 0 ∨ p = 1) with rfl | rfl
    · have hf : Frame [.regs] [.reg (R.hostPpStatus 0), .reg R.hostStatus] s
          ((s.fset (F.hostPpStatus_halt 0) 0).fset ⟨R.hostStatus, 16 + 0, 1⟩ 0) := .after .fset .fset
      rw [engineOk_eq, engineOk_eq, hf.fbit hw, hf.fbit hw]
    · have hf : Frame [.regs] [.reg (R.hostPpStatus 1), .reg R.hostStatus] s
          ((s.fset (F.hostPpStatus_halt 1) 0).fset ⟨R.hostStatus, 16 + 1, 1⟩ 0) := .after .fset .fset
      rw [engineOk_eq, engineOk_eq, hf.fbit hw, hf.fbit hw]

/-! Links. -/

/-- The state in which the link of port `p` is gone, its transfers still moving. -/
def linkGone (s : State) (p : Nat) (refLost : Bool) : State :=
  let t := ((s.fset (F.hostPpStatus_link p) 0).fset (F.hostPpStatus_speed p) 0).fset (F.hostPpStatus_width p) 0
  if refLost then t.fset (F.hostPpStatus_refclk p) 0 else t

theorem exec_hostLinkLoss_up {p : Fin 2} {refLost : Bool} (h : s.fbit (F.hostPpStatus_link p) = true) :
    exec (.hostLinkLoss p refLost) s = .next ((s.portChans p).foldl (fun t ch => t.dmaHalt ch 7 false false 0) (linkGone s p refLost)) := by
  rw [exec_hostLinkLoss, execHostLinkLoss, State.when, if_pos h]
  rfl

theorem lt_of_mem_portChans {ch : Nat} (h : ch ∈ s.portChans p) : ch < 16 := List.mem_range.mp (List.mem_filter.mp h).1

theorem frame_haltChans {refLost : Bool} : Frame [.regs, .recd, .out] [.blk 0xC] (linkGone s p refLost)
    ((s.portChans p).foldl (fun t ch => t.dmaHalt ch 7 false false 0) (linkGone s p refLost)) :=
  .foldl (fun _ _ h => frame_dmaHalt (lt_of_mem_portChans h)) _

theorem fget_dmaHalt_ne {ch b cause : Nat} {x y : Bool} {addr : W64} {f : Field} (hf : f.off = R.dmaChnStatus ch) (hb : b ≠ ch) :
    (s.dmaHalt b cause x y addr).fget f = s.fget f := by
  refine (fget_fset_off ?_).trans <| (fget_bump_off ?_).trans <| (fget_wr64_off ?_ ?_).trans <| (fget_fsetb_off ?_).trans <|
    (fget_fsetb_off ?_).trans <| (fget_fset_off ?_).trans (fget_fset_off ?_) <;>
    simp only [hf, R.dmaChnStatus, R.dmaChnFaultLo, R.dmaChnFaults, R.dmaStatus] <;> omega

theorem haltChans_shows {l : List Nat} {ch : Nat} (hw : s.regsWf = true) (hd : l.Nodup) (hl : ∀ b ∈ l, b < 16) (h : ch ∈ l) :
    let t := l.foldl (fun t ch => t.dmaHalt ch 7 false false 0) s
    t.fget (F.dmaChnStatus_state ch) = 2 ∧ t.fget (F.dmaChnStatus_cause ch) = 7 :=
  foldl_own (P := fun u => u.regsWf = true) (Q := fun u => u.fget (F.dmaChnStatus_state ch) = 2 ∧ u.fget (F.dmaChnStatus_cause ch) = 7)
    hd h (fun u b hb _ hu => (frame_dmaHalt (hl b hb)).canon hu)
    (fun u b _ hb hu => ⟨(fget_dmaHalt_ne rfl hb).trans hu.1, (fget_dmaHalt_ne rfl hb).trans hu.2⟩)
    (fun u hu => by
      obtain ⟨h1, h2, -⟩ := dmaHalt_shows (cause := 7) (a := false) (b := false) (addr := 0) hu (hl ch h) (by decide)
      exact ⟨h1, h2⟩) hw

theorem linkGone_shows {refLost : Bool} (hw : s.regsWf = true) (hp : p < 2) :
    let t := linkGone s p refLost
    t.regsWf = true ∧ t.fbit (F.hostPpStatus_link p) = false ∧ t.engineOk p = false ∧ t.engineOk (1 - p) = s.engineOk (1 - p) ∧
      (refLost = true → t.fbit (F.hostPpStatus_refclk p) = false) ∧ t.mem = s.mem := by
  have h1 := regsWf_fset (f := F.hostPpStatus_link p) (n := 0) hw
  have h2 := regsWf_fset (f := F.hostPpStatus_speed p) (n := 0) h1
  have h3 := regsWf_fset (f := F.hostPpStatus_width p) (n := 0) h2
  have hlink : (linkGone s p refLost).fbit (F.hostPpStatus_link p) = false := by
    have h : (((s.fset (F.hostPpStatus_link p) 0).fset (F.hostPpStatus_speed p) 0).fset (F.hostPpStatus_width p) 0).fget
        (F.hostPpStatus_link p) = 0 := by
      rw [fget_fset_beside h2 (by simp) (by simp), fget_fset_beside h1 (by simp) (by simp), fget_fset hw (by simp)]
      rfl
    cases refLost
    · rw [State.fbit, linkGone, if_neg Bool.false_ne_true, h]
      rfl
    · rw [State.fbit, linkGone, if_pos rfl, fget_fset_beside h3 (by simp) (by simp), h]
      rfl
  have hf : Frame [.regs] [.reg (R.hostPpStatus 0), .reg (R.hostPpStatus 1)] s (linkGone s p refLost) := by
    rcases (by omega : p = 0 ∨ p = 1) with rfl | rfl <;> exact .ite (.after .fset <| .after .fset <| .after .fset .fset)
      (.after .fset <| .after .fset .fset)
  refine ⟨hf.canon hw, hlink, ?_, ?_, fun h => ?_, hf.part .mem (by decide)⟩
  · rw [engineOk_eq, hlink]
    rfl
  · rcases (by omega : p = 0 ∨ p = 1) with rfl | rfl
    · have hf : Frame [.regs] [.reg (R.hostPpStatus 0)] s (linkGone s 0 refLost) := .ite (.after .fset <| .after .fset <| .after .fset .fset)
        (.after .fset <| .after .fset .fset)
      rw [engineOk_eq, hf.fbit hw, hf.fbit hw]
      rfl
    · have hf : Frame [.regs] [.reg (R.hostPpStatus 1)] s (linkGone s 1 refLost) := .ite (.after .fset <| .after .fset <| .after .fset .fset)
        (.after .fset <| .after .fset .fset)
      rw [engineOk_eq, hf.fbit hw, hf.fbit hw]
      rfl
  · subst h
    rw [linkGone, if_pos rfl, fbit_fset h3 (by simp)]
    rfl

/-- The state in which the link of port `p` has come up, its engine at rest. -/
def linkBack (s : State) (p speed width : Nat) : State :=
  (((s.fset (F.hostPpStatus_link p) 1).fset (F.hostPpStatus_speed p) speed).fset (F.hostPpStatus_width p) width).fset (F.hostPpStatus_refclk p) 1

theorem exec_hostLinkUp_down {p : Fin 2} {speed width : BitVec 2} (hc : s.power.chip = true) (h : s.fbit (F.hostPpStatus_link p) = false)
    (hs : speed ≠ 0) (hwd : width = 1 ∨ width = 2) :
    exec (.hostLinkUp p speed width) s = .next ((linkBack s p speed.toNat width.toNat).engineGo p) := by
  have hcond : (s.power.chip && !s.fbit (F.hostPpStatus_link p) && speed != 0 && (width == 1 || width == 2)) = true := by
    rw [hc, h]
    simpa using And.intro hs hwd
  rw [exec_hostLinkUp, execHostLinkUp, State.when, if_pos hcond]
  rfl

theorem linkBack_shows {speed width : Nat} (hw : s.regsWf = true) (hs : speed < 4) (hwd : width < 4) :
    let t := linkBack s p speed width
    t.fbit (F.hostPpStatus_link p) = true ∧ t.fget (F.hostPpStatus_speed p) = speed ∧ t.fget (F.hostPpStatus_width p) = width := by
  have h1 := regsWf_fset (f := F.hostPpStatus_link p) (n := 1) hw
  have h2 := regsWf_fset (f := F.hostPpStatus_speed p) (n := speed) h1
  have h3 := regsWf_fset (f := F.hostPpStatus_width p) (n := width) h2
  refine ⟨?_, ?_, ?_⟩
  · rw [State.fbit, linkBack, fget_fset_beside h3 (by simp) (by simp), fget_fset_beside h2 (by simp) (by simp),
      fget_fset_beside h1 (by simp) (by simp), fget_fset hw (by simp)]
    rfl
  · rw [linkBack, fget_fset_beside h3 (by simp) (by simp), fget_fset_beside h2 (by simp) (by simp), fget_fset h1 (by simp)]
    exact Nat.mod_eq_of_lt hs
  · rw [linkBack, fget_fset_beside h3 (by simp) (by simp), fget_fset h2 (by simp)]
    exact Nat.mod_eq_of_lt hwd

/-! Forwarded commands. -/

theorem onceOnly_fresh {id : Nat} (h : s.fresh id) :
    s.onceOnly id t = .next ({ t with pair := { t.pair with seen := id :: t.pair.seen } }.sendOnce (.drawbarAck id)) := by
  obtain ⟨hu, hc, hs⟩ := h
  rw [State.onceOnly, hu, hc, hs]
  rfl

theorem onceOnly_shows {id : Nat} (h : s.fresh id) : ∃ u, s.onceOnly id t = .next u ∧
    u.pair = { t.pair with seen := id :: t.pair.seen } ∧ u.host = t.host ∧ u.mem = t.mem := by
  have ho : Frame [.out] [] { t with pair := { t.pair with seen := id :: t.pair.seen } } _ := .sendOnce (e := .drawbarAck id)
  exact ⟨_, onceOnly_fresh h, ho.part .pair (by decide), ho.part .host (by decide), ho.part .mem (by decide)⟩

/-- What is sent on the Drawbar waits to be acknowledged. -/
theorem send_msgs {o : Out} : ∃ k ∈ (s.send o).pair.msgs, k.body = o := by
  unfold State.send
  dsimp only
  refine ⟨{ id := s.pair.msgCount, body := o }, ?_, rfl⟩
  split <;> exact List.mem_append_right _ (List.mem_singleton.mpr rfl)

theorem answerForwarded_status {c : Cmd} (h : fldN c.desc.word0.toNat 16 8 = 2) :
    s.answerForwarded n c = s.send (.forwardedReply n 0 0 s.statusBlock) := by
  have hop : c.opcode = 2 := h
  simp only [State.answerForwarded, hop]
  rfl

theorem exec_forwardedCommandRx_status {id : Nat} {ring : Fin 16} {d : Desc} (h : s.fresh id) (hmc : s.fbit F.sysStatus_mcRun = true)
    (hop : fldN d.word0.toNat 16 8 = 2) : ∃ t, exec (.forwardedCommandRx id ring d) s = .next t ∧
      (∃ m ∈ t.pair.msgs, m.body = .forwardedReply ring 0 0 s.statusBlock) ∧ t.host = s.host ∧ t.mem = s.mem := by
  have hs : Frame [.pair, .out] [] s (s.send (.forwardedReply ring 0 0 s.statusBlock)) := .send
  obtain ⟨u, he, hpair, hhost, hmem⟩ := onceOnly_shows (t := s.send (.forwardedReply ring 0 0 s.statusBlock)) h
  refine ⟨u, ?_, ?_, hhost.trans (hs.part .host (by decide)), hmem.trans (hs.part .mem (by decide))⟩
  · rw [exec_forwardedCommandRx, execForwardedCommandRx, if_pos hmc, answerForwarded_status hop, he]
  · obtain ⟨k, hk, hb⟩ := send_msgs (s := s) (o := .forwardedReply ring 0 0 s.statusBlock)
    exact ⟨k, by rw [hpair]; exact hk, hb⟩

theorem dataOut_nothing {c : Cmd} {status result : Nat} : s.dataOut c (some []) status result = s.cmdDone c.id status result :=
  if_pos (.inl rfl)

theorem exec_forwardedReplyRx_done {id : Nat} {ring : Fin 16} {status result : W32} {c : Cmd} (h : s.fresh id)
    (hc : s.forwardedCmd ring = some c) : ∃ u : State, exec (.forwardedReplyRx id ring status result []) s = .next u ∧
      u.host = (s.cmdDone c.id status.toNat result.toNat).host ∧ u.pair.seen = id :: s.pair.seen := by
  obtain ⟨u, he, hpair, hhost, -⟩ := onceOnly_shows (t := s.cmdDone c.id status.toNat result.toNat) h
  have hd : (s.cmdDone c.id status.toNat result.toNat).pair = s.pair := (frame_cmdDone s c.id status.toNat result.toNat).part .pair (by decide)
  refine ⟨u, ?_, hhost, by rw [hpair, hd]⟩
  rw [exec_forwardedReplyRx, execForwardedReplyRx, hc]
  dsimp only
  rw [dataOut_nothing, he]

theorem exec_partnerAnswerTimeout_some {ring : Fin 16} {c : Cmd} (hc : s.forwardedCmd ring = some c) :
    exec (.partnerAnswerTimeout ring) s = .next (s.cmdDone c.id 0x0107 0) := by
  rw [exec_partnerAnswerTimeout, execPartnerAnswerTimeout, hc]

theorem exec_partnerAnswerTimeout_none {ring : Fin 16} (hc : s.forwardedCmd ring = none) :
    exec (.partnerAnswerTimeout ring) s = .next s := by
  rw [exec_partnerAnswerTimeout, execPartnerAnswerTimeout, hc]

/-- Settles O57: heads, rings, engines and links by what each write leaves, forwarded commands by what they answer. -/
theorem hostPorts : Obligations.HostPorts := by
  unfold Obligations.HostPorts
  refine fun m s hw => ⟨fun p v => ⟨fun hs => ?cq, fun hs => ?eq⟩, fun v hs => ?rings, fun p addr write h => ?halt, fun p h addr write => ?quiet,
    fun p hl h hs => ?resume, fun hs => ?none, fun p refLost h => ?loss, fun p speed width hc hl hs hwd => ?up, fun id ring d hf hmc hop => exec_forwardedCommandRx_status hf hmc hop,
    fun id ring status result c hf hc => exec_forwardedReplyRx_done hf hc,
    fun ring c hc => exec_partnerAnswerTimeout_some hc, fun ring hc => exec_partnerAnswerTimeout_none hc⟩
  case cq =>
    have h1 : (s.wr (R.hostPpCqHead p) v).regsWf = true := regsWf_wr hw
    have hall := frame_completeAll (s.wr (R.hostPpCqHead p) v)
    refine ⟨_, exec_hostCqHead_writes hs, ?_, hall.part .mem (by decide), hall.part .pair (by decide), fun hc => ?_⟩
    · refine .trans ?_ (rd_wr_self (off := R.hostPpCqHead p) hw)
      rcases (by omega : p = 0 ∨ p = 1) with rfl | rfl <;> exact hall.rd h1
    · obtain ⟨hout, hf⟩ := completeAll_idle (s := s.wr (R.hostPpCqHead p) v) hc
      refine ⟨hout, ?_⟩
      rcases (by omega : p = 0 ∨ p = 1) with rfl | rfl
      · exact (Frame.after (ps := [.regs]) (W := [.reg (R.hostPpCqHead 0), .reg (R.hostPpStatus 0), .reg (R.hostPpStatus 1)]) hf.sub .wr).keepsRegs hw
      · exact (Frame.after (ps := [.regs]) (W := [.reg (R.hostPpCqHead 1), .reg (R.hostPpStatus 0), .reg (R.hostPpStatus 1)]) hf.sub .wr).keepsRegs hw
  case eq =>
    have h1 : (s.wr (R.hostPpEqHead p) v).regsWf = true := regsWf_wr hw
    have hall := frame_eqServe (s.wr (R.hostPpEqHead p) v) p p.isLt
    refine ⟨_, exec_hostEqHead_writes hs, ?_, hall.part .mem (by decide), hall.part .pair (by decide), fun hq hd => ?_⟩
    · refine .trans ?_ (rd_wr_self (off := R.hostPpEqHead p) hw)
      rcases (by omega : p = 0 ∨ p = 1) with rfl | rfl <;> exact hall.rd h1
    · exact eqServe_idle (s := s.wr (R.hostPpEqHead p) v) hq hd
  case rings =>
    have hf := frame_setRingEn (s := s) (v := v)
    have hport (p : Nat) (hp : p < 2) : (s.setRingEn v).portOn p = v.getLsbD (16 + p) := by
      rw [State.portOn, setRingEn_enables hw]
      exact ringEnables_port v hp
    have hring (n : Nat) (hn : n < 16) : (s.setRingEn v).ringOn n = (v.getLsbD n && v.getLsbD (16 + n / 8)) := by
      rw [State.ringOn, hport _ (by omega), setRingEn_enables hw, bitN, ringEnables_ring v hn, Bool.and_comm, Bool.and_assoc,
        Bool.and_self]
    refine ⟨_, exec_hostRingEn_writes hs, hf.part .mem (by decide), hf.part .out (by decide), fun p => hport p p.isLt, fun n =>
      ⟨hring n n.isLt, fun hold hnew => ?_, fun hold => setRingEn_taken hw hold⟩⟩
    obtain ⟨h0, h1, h2, h3⟩ := setRingEn_fresh hw n.isLt ((ringEnables_ring v n.isLt).trans ((hring n n.isLt).symm.trans hnew)) hold
    exact ⟨h0, h1, h2, by rw [State.fbit, h3]; rfl⟩
  case halt =>
    obtain ⟨h1, h2, h3, h4, h5⟩ := engineHalted_shows (addr := addr) (write := write) hw p.isLt
    exact ⟨_, exec_ringEngineHalt_eq.trans (if_pos h), h1, h2, h3, h4, h5, rfl, List.length_append⟩
  case quiet => rw [exec_ringEngineHalt_eq, if_neg (by rw [h]; exact Bool.false_ne_true)]
  case resume =>
    obtain ⟨h1, h2, h3⟩ := hostResume_shows hw p.isLt hl h
    exact ⟨_, exec_hostResume_writes hs, h1, h2, h3⟩
  case none => rw [exec_hostResume_writes hs, hostResume_none]
  case loss =>
    obtain ⟨hg, h1, h2, h3, h4, h5⟩ := linkGone_shows (refLost := refLost) hw p.isLt
    have hf := frame_haltChans (s := s) (p := p) (refLost := refLost)
    refine ⟨_, exec_hostLinkLoss_up h, ?_, ?_, ?_, fun hr => ?_, fun ch hch => ?_, (hf.part .mem (by decide)).trans h5⟩
    · refine .trans ?_ h1
      rcases (by omega : p = 0 ∨ p = 1) with rfl | rfl <;> exact hf.fbit hg
    · exact (engineOk_of_frame hf hg p.isLt).trans h2
    · exact (engineOk_of_frame hf hg (by omega)).trans h3
    · refine .trans ?_ (h4 hr)
      rcases (by omega : p = 0 ∨ p = 1) with rfl | rfl <;> exact hf.fbit hg
    · exact haltChans_shows hg (List.nodup_range.filter _) (fun b hb => lt_of_mem_portChans hb) hch
  case up =>
    obtain ⟨h1, h2, h3⟩ := linkBack_shows (p := p) hw speed.isLt width.isLt
    have hgo := frame_engineGo (linkBack s p speed.toNat width.toNat) p p.isLt
    have hwf : (linkBack s p speed.toNat width.toNat).regsWf = true := regsWf_fset (regsWf_fset (regsWf_fset (regsWf_fset hw)))
    refine ⟨_, exec_hostLinkUp_down hc hl hs hwd, ?_, ?_, ?_, hgo.part .mem (by decide)⟩
    · refine .trans ?_ h1
      rcases (by omega : p = 0 ∨ p = 1) with rfl | rfl <;> exact hgo.fbit hwf
    · refine .trans ?_ h2
      rcases (by omega : p = 0 ∨ p = 1) with rfl | rfl <;> exact hgo.fget hwf
    · refine .trans ?_ h3
      rcases (by omega : p = 0 ∨ p = 1) with rfl | rfl <;> exact hgo.fget hwf

end Sys2Proof.Machine
end

section
/-! The Dray link: lanes, credits and frames (R347 to R350). -/

namespace Sys2Proof.Machine

variable {s t : State} {m : Master} {p n : Nat}

theorem frame_showBacklog (s : State) : Frame [.regs] [.reg R.acqBacklog] s s.showBacklog := Frame.wr
theorem frame_drayLink (s : State) : Frame [.regs] [.fld F.drayStatus_linkUp, .fld F.drayStatus_oneLane] s s.drayLink :=
    Frame.after Frame.fsetb <| Frame.fsetb

/-- The registers that show what waits on each stream, and how often one found no credit. -/
abbrev queuePlaces : List Rect := [⟨R.drayChnQueue 0, R.drayChnQueue 4, 0x20, 0, 32⟩]
abbrev stallPlaces : List Rect := [⟨R.drayChnStall 0, R.drayChnStall 4, 0x20, 0, 32⟩]

theorem frame_drayQueues : Frame [.regs] queuePlaces s s.drayShow := .trans .wr <| .trans .wr <| .trans .wr .wr

theorem frame_drayStalls {l : List Nat} (hl : ∀ n ∈ l, n ∈ [2, 0, 1, 3]) : Frame [.regs, .dray] stallPlaces s (l.foldl State.drayStall s) := by
  refine .foldl (fun u n hn => ?_) s
  have hn := hl n hn
  simp only [List.mem_cons, List.not_mem_nil, or_false] at hn
  rcases hn with rfl | rfl | rfl | rfl <;> exact .ite (.refl u) (.after .bump .dray)

/-- A stall leaves what the streams hold. -/
theorem drayStalls_dray (l : List Nat) : ∃ w, (l.foldl State.drayStall s).dray = { s.dray with waits := w } := by
  refine foldl_keeps (P := fun u : State => ∃ w, u.dray = { s.dray with waits := w }) (fun u n _ hu => ?_) ⟨s.dray.waits, rfl⟩
  obtain ⟨w, hu⟩ := hu
  unfold State.drayStall
  split
  · exact ⟨w, hu⟩
  · refine ⟨u.dray.waits.add n, ?_⟩
    show ({ u.dray with waits := u.dray.waits.add n } : Dray) = _
    rw [hu]

/-! Lanes. -/

theorem laneUp_eq : s.laneUp p = s.fbit ⟨R.drayPpStatus p, 1, 1⟩ := rfl

theorem drayLink_shows (hw : s.regsWf = true) (hp : p < 2) : s.drayLink.laneUp p = s.laneUp p ∧
    s.drayLink.fbit F.drayStatus_linkUp = (s.laneUp 0 || s.laneUp 1) ∧ s.drayLink.fbit F.drayStatus_oneLane = (s.laneUp 0 != s.laneUp 1) := by
  have h1 := regsWf_fsetb (f := F.drayStatus_linkUp) (b := s.laneUp 0 || s.laneUp 1) hw
  refine ⟨?_, ?_, fbit_fsetb h1 (by decide) rfl⟩
  · rcases (by omega : p = 0 ∨ p = 1) with rfl | rfl <;> exact (frame_drayLink s).fbit hw
  · exact (Frame.fbit (ps := [.regs]) (W := [.fld F.drayStatus_oneLane]) .fsetb h1).trans (fbit_fsetb hw (by decide) rfl)

/-- Lane `p` shown up. -/
def laneRaised (s : State) (p : Nat) : State := s.fset ⟨R.drayPpStatus p, 0, 2⟩ 3

/-- The streams as a link finds them that was down. -/
def streamsFresh (s : State) : State :=
  let z := (s.zero ((List.range 4).flatMap (fun n => [R.drayChnGrant n, R.drayChnUsed n]))).bump R.drayLinkups
  { z with
    dray := { z.dray with credited := false, first := Vector.replicate 4 0 }
    acq := { z.acq with captures := z.acq.captures.map (fun (c : Capture) => { c with endFrame := c.endFrame.map (fun _ => 1) }) } }

theorem exec_drayLaneUp_second {p : Fin 2} (hc : s.power.chip = true) (h : s.laneUp p = false) (hl : s.fbit F.drayStatus_linkUp = true) :
    exec (.drayLaneUp p) s = .next (laneRaised s p).drayLink := by
  rw [exec_drayLaneUp, execDrayLaneUp, State.when, if_pos (by rw [hc, h]; rfl)]
  dsimp only
  rw [hl]
  rfl

theorem exec_drayLaneUp_first {p : Fin 2} (hc : s.power.chip = true) (h : s.laneUp p = false) (hl : s.fbit F.drayStatus_linkUp = false) :
    exec (.drayLaneUp p) s = .next (streamsFresh (laneRaised s p)).drayLink := by
  rw [exec_drayLaneUp, execDrayLaneUp, State.when, if_pos (by rw [hc, h]; rfl)]
  dsimp only
  rw [hl]
  rfl

theorem laneRaised_shows (hw : s.regsWf = true) (hp : p < 2) : (laneRaised s p).laneUp p = true ∧
    (laneRaised s p).laneUp (1 - p) = s.laneUp (1 - p) := by
  refine ⟨?_, ?_⟩
  · rw [laneUp_eq, fbit_eq_getLsbD, laneRaised]
    have h := fget_fset (f := ⟨R.drayPpStatus p, 0, 2⟩) (n := 3) hw (by dsimp only; omega)
    have h3 : fldN ((s.fset ⟨R.drayPpStatus p, 0, 2⟩ 3).rd (R.drayPpStatus p)).toNat 0 2 = 3 := h
    rw [BitVec.getLsbD, Nat.testBit_eq_decide_div_mod_eq, decide_eq_true_eq]
    simp only [fldN] at h3
    omega
  · rw [laneUp_eq, laneUp_eq, State.fbit, State.fbit, laneRaised, fget_fset_off (by
      simp only [R.drayPpStatus]
      omega)]

theorem frame_streamsFresh : Frame [.regs, .dray, .acq] [.span 0xD100 0xD200, .reg R.drayLinkups] s (streamsFresh s) :=
  .after (t := State.bump _ R.drayLinkups) (.patched rfl rfl rfl) <| .after .bump .zero

theorem streamsFresh_dray : (streamsFresh s).dray = { s.dray with credited := false, first := Vector.replicate 4 0 } := by
  have hz : Frame [.regs] [.span 0xD100 0xD200, .reg R.drayLinkups] s
      ((s.zero ((List.range 4).flatMap (fun n => [R.drayChnGrant n, R.drayChnUsed n]))).bump R.drayLinkups) := .after .bump .zero
  have hd : State.dray _ = s.dray := hz.part .dray (by decide)
  unfold streamsFresh
  dsimp only
  rw [hd]

theorem streamsFresh_shows (hw : s.regsWf = true) : (streamsFresh s).dray.credited = false ∧
    (∀ n : Fin 4, (streamsFresh s).rd (R.drayChnGrant n) = 0 ∧ (streamsFresh s).rd (R.drayChnUsed n) = 0) ∧
    ((streamsFresh s).rd R.drayLinkups).toNat = satAdd 32 (s.rd R.drayLinkups).toNat 1 := by
  have hz := regsWf_zero ((List.range 4).flatMap (fun n => [R.drayChnGrant n, R.drayChnUsed n])) hw
  have hmem (n : Fin 4) (o : Nat) (ho : o ∈ [R.drayChnGrant n, R.drayChnUsed n]) :
      o ∈ (List.range 4).flatMap (fun n => [R.drayChnGrant n, R.drayChnUsed n]) :=
    List.mem_flatMap.mpr ⟨n.val, List.mem_range.mpr n.isLt, ho⟩
  refine ⟨rfl, fun n => ⟨?_, ?_⟩, (toNat_rd_bump hz).trans ?_⟩
  · refine (rd_bump_ne ?_).trans ((rd_zero _ hw _).trans (if_pos (hmem n _ List.mem_cons_self)))
    simp only [R.drayChnGrant, R.drayLinkups]
    omega
  · refine (rd_bump_ne ?_).trans ((rd_zero _ hw _).trans (if_pos (hmem n _ (List.mem_cons_of_mem _ List.mem_cons_self))))
    simp only [R.drayChnUsed, R.drayLinkups]
    omega
  · rw [rd_zero _ hw, if_neg (by decide)]

/-- The link is up with a lane that is, with one lane where the other is down. -/
theorem drayLink_raised (hw : s.regsWf = true) (hp : p < 2) (h : s.laneUp p = true) : s.drayLink.fbit F.drayStatus_linkUp = true ∧
    (s.drayLink.fbit F.drayStatus_oneLane = true ↔ s.drayLink.laneUp (1 - p) = false) := by
  obtain ⟨-, h1, h2⟩ := drayLink_shows hw hp
  obtain ⟨h3, -⟩ := drayLink_shows (p := 1 - p) hw (by omega)
  rw [h1, h2, h3]
  rcases (by omega : p = 0 ∨ p = 1) with rfl | rfl <;> simp [h]

/-- Lane `p` shown down, and counted. -/
def laneLowered (s : State) (p : Nat) : State := (s.fset ⟨R.drayPpStatus p, 0, 2⟩ 0).bumpF ⟨R.drayPpStatus p, 16, 16⟩

/-- The frame of lane `p` is to be sent again, and its credits are returned. -/
def frameKept (s : State) (p : Nat) (f : DrayFrame) : State :=
  let u := s.wr (R.drayChnUsed f.stream) (s.rd (R.drayChnUsed f.stream) - BitVec.ofNat 32 (frameCredits f.bytes.length))
  { u with dray := { u.dray with lane := vset u.dray.lane p none, resend := u.dray.resend ++ [f] } }

theorem exec_drayLaneDown_frame {p : Fin 2} {f : DrayFrame} (h : s.laneUp p = true) (hf : vget s.dray.lane p = some f) :
    exec (.drayLaneDown p) s = .next (frameKept (laneLowered s p) p f).drayLink := by
  rw [exec_drayLaneDown, execDrayLaneDown]
  dsimp only
  rw [hf, State.when, if_pos h]
  rfl

theorem exec_drayLaneDown_empty {p : Fin 2} (h : s.laneUp p = true) (hf : vget s.dray.lane p = none) :
    exec (.drayLaneDown p) s = .next (laneLowered s p).drayLink := by
  rw [exec_drayLaneDown, execDrayLaneDown]
  dsimp only
  rw [hf, State.when, if_pos h]
  rfl

theorem laneLowered_shows (hw : s.regsWf = true) (hp : p < 2) : (laneLowered s p).regsWf = true ∧ (laneLowered s p).laneUp p = false ∧
    ∀ n, (laneLowered s p).rd (R.drayChnUsed n) = s.rd (R.drayChnUsed n) := by
  have h1 := regsWf_fset (f := ⟨R.drayPpStatus p, 0, 2⟩) (n := 0) hw
  refine ⟨regsWf_bumpF h1, ?_, fun n => ?_⟩
  · have h : (laneLowered s p).fget ⟨R.drayPpStatus p, 1, 1⟩ = (s.fset ⟨R.drayPpStatus p, 0, 2⟩ 0).fget ⟨R.drayPpStatus p, 1, 1⟩ :=
      fget_fset_beside h1 (.inl (by simp)) (by simp)
    rw [laneUp_eq, State.fbit, h, ← State.fbit, fbit_eq_getLsbD]
    have h0 : fldN ((s.fset ⟨R.drayPpStatus p, 0, 2⟩ 0).rd (R.drayPpStatus p)).toNat 0 2 = 0 :=
      fget_fset (f := ⟨R.drayPpStatus p, 0, 2⟩) (n := 0) hw (by dsimp only; omega)
    rw [BitVec.getLsbD, Nat.testBit_eq_decide_div_mod_eq, decide_eq_false_iff_not]
    simp only [fldN] at h0
    omega
  · refine (rd_bumpF_ne ?_).trans (rd_fset_ne ?_) <;> simp only [R.drayPpStatus, R.drayChnUsed] <;> omega

theorem drayLink_lowered (hw : s.regsWf = true) (hp : p < 2) (h : s.laneUp p = false) :
    s.drayLink.fbit F.drayStatus_linkUp = true ↔ s.drayLink.laneUp (1 - p) = true := by
  obtain ⟨-, h1, -⟩ := drayLink_shows hw hp
  obtain ⟨h3, -⟩ := drayLink_shows (p := 1 - p) hw (by omega)
  rw [h1, h3]
  rcases (by omega : p = 0 ∨ p = 1) with rfl | rfl <;> simp [h]

theorem laneUp_frameKept {q : Nat} {f : DrayFrame} (hq : q < 2) : (frameKept s p f).laneUp q = s.laneUp q := by
  have h : (frameKept s p f).rd (R.drayPpStatus q) = s.rd (R.drayPpStatus q) := rd_wr_ne (by
    simp only [R.drayPpStatus, R.drayChnUsed]
    omega)
  rw [laneUp_eq, laneUp_eq, State.fbit, State.fbit, fget_congr (f := ⟨R.drayPpStatus q, 1, 1⟩) h]

/-! Credits. -/

/-- One grant of a credit frame. -/
def creditGrant (g : Vector W32 4) (first : Bool) (s : State) (n : Nat) : State :=
  if (vget g n - s.rd (R.drayChnUsed n)).toNat > 2 ^ 31 then s.ignoredIn 13
  else
    let s := s.wr (R.drayChnGrant n) (vget g n)
    let s := if first then { s with dray := { s.dray with first := vset s.dray.first n (vget g n) } } else s
    if s.fbit ⟨R.drayStatus, 2 + n, 1⟩ && decide (s.drayNeed n ≤ s.credit n) then s.fset ⟨R.drayStatus, 2 + n, 1⟩ 0 else s

theorem exec_creditFrameRx_up {g : Vector W32 4} (h : s.fbit F.drayStatus_linkUp = true) : exec (.creditFrameRx g) s =
    .next (State.captureRelease (let s1 := (List.range 4).foldl (creditGrant g (!s.dray.credited)) s
      { s1 with dray := { s1.dray with credited := true } })) := by
  rw [exec_creditFrameRx, execCreditFrameRx, State.when, if_pos h]
  rfl

theorem satAdd_satAdd (w x a b : Nat) : satAdd w (satAdd w x a) b = satAdd w x (a + b) := by
  simp only [satAdd]
  omega

variable {g : Vector W32 4} {first : Bool}

theorem rd_creditGrant_ne {o : Nat} (hi : o ≠ 0xD010) (hg : o ≠ R.drayChnGrant n) (hs : o ≠ R.drayStatus) :
    (creditGrant g first s n).rd o = s.rd o := by
  unfold creditGrant
  split
  · rw [ignoredIn_eq (by decide)]
    exact rd_bump_ne hi
  · extract_lets a _ b
    have ha : a.rd o = s.rd o := rd_wr_ne hg
    have hb : b.rd o = s.rd o := by
      dsimp only [b]
      split <;> exact ha
    clear_value b
    split
    · exact (rd_fset_ne hs).trans hb
    · exact hb

theorem rd_creditGrant_self (hw : s.regsWf = true) : (creditGrant g first s n).rd (R.drayChnGrant n) =
    if (vget g n - s.rd (R.drayChnUsed n)).toNat > 2 ^ 31 then s.rd (R.drayChnGrant n) else vget g n := by
  unfold creditGrant
  split
  · rw [ignoredIn_eq (by decide)]
    refine rd_bump_ne ?_
    simp only [R.drayChnGrant]
    omega
  · extract_lets a _ b
    have ha : a.rd (R.drayChnGrant n) = vget g n := rd_wr_self hw
    have hb : b.rd (R.drayChnGrant n) = vget g n := by
      dsimp only [b]
      split <;> exact ha
    clear_value b
    split
    · refine (rd_fset_ne ?_).trans hb
      simp only [R.drayChnGrant, R.drayStatus]
      omega
    · exact hb

theorem frame_creditGrant (hn : n < 4) : Frame [.regs, .dray] [.blk 0xD] s (creditGrant g first s n) := by
  have hg : coverAll [.blk 0xD] ⟨R.drayChnGrant n, 0, 32⟩ = true := cover_span 0xD000 0xE000 (by
    simp only [R.drayChnGrant]
    omega)
  have hs : coverAll [.blk 0xD] ⟨R.drayStatus, 2 + n, 1⟩ = true := cover_span 0xD000 0xE000 (by simp only [R.drayStatus]; omega) rfl (Nat.ble_eq.mpr (by
    dsimp only
    omega))
  unfold creditGrant
  split
  · rw [ignoredIn_eq (by decide)]
    exact .bump
  · extract_lets a _ b
    have hb : Frame [.regs, .dray] [.blk 0xD] s b := .after (.ite .dray (.refl a)) (.wr hg)
    exact hb.trans (.ite (.fset hs) (.refl b))

theorem ignored_creditGrant (hw : s.regsWf = true) : ((creditGrant g first s n).rd 0xD010).toNat = satAdd 32 (s.rd 0xD010).toNat
    (if (vget g n - s.rd (R.drayChnUsed n)).toNat > 2 ^ 31 then 1 else 0) := by
  by_cases h : (vget g n - s.rd (R.drayChnUsed n)).toNat > 2 ^ 31
  · rw [creditGrant, if_pos h, if_pos h, ignoredIn_eq (by decide)]
    exact toNat_rd_bump hw
  · rw [if_neg h]
    have hx := (s.rd 0xD010).isLt
    have hz : satAdd 32 (s.rd 0xD010).toNat 0 = (s.rd 0xD010).toNat := by
      simp only [satAdd]
      omega
    rw [hz]
    congr 1
    rw [creditGrant, if_neg h]
    extract_lets a _ b
    have ha : a.rd 0xD010 = s.rd 0xD010 := rd_wr_ne (by
      simp only [R.drayChnGrant]
      omega)
    have hb : b.rd 0xD010 = s.rd 0xD010 := by
      dsimp only [b]
      split <;> exact ha
    clear_value b
    split
    · exact (rd_fset_ne (show (0xD010 : Nat) ≠ R.drayStatus by decide)).trans hb
    · exact hb

/-- The grants that a credit frame sets, and those it counts as ignored. -/
theorem creditGrants_shows (hw : s.regsWf = true) :
    let t := (List.range 4).foldl (creditGrant g first) s
    (∀ n < 4, t.rd (R.drayChnGrant n) =
      if (vget g n - s.rd (R.drayChnUsed n)).toNat > 2 ^ 31 then s.rd (R.drayChnGrant n) else vget g n) ∧
    (∀ n, t.rd (R.drayChnUsed n) = s.rd (R.drayChnUsed n)) ∧
    (t.rd 0xD010).toNat = satAdd 32 (s.rd 0xD010).toNat
      ((List.range 4).filter (fun n => (vget g n - s.rd (R.drayChnUsed n)).toNat > 2 ^ 31)).length := by
  have hused (u : State) (b k : Nat) : (creditGrant g first u b).rd (R.drayChnUsed k) = u.rd (R.drayChnUsed k) := by
    apply rd_creditGrant_ne <;> simp only [R.drayChnUsed, R.drayChnGrant, R.drayStatus] <;> omega
  refine ⟨fun n hn => ?_, fun n => ?_, ?_⟩
  · refine foldl_own (P := fun u => u.regsWf = true ∧ u.rd (R.drayChnUsed n) = s.rd (R.drayChnUsed n) ∧
        u.rd (R.drayChnGrant n) = s.rd (R.drayChnGrant n))
      (Q := fun u => u.rd (R.drayChnGrant n) = if (vget g n - s.rd (R.drayChnUsed n)).toNat > 2 ^ 31 then s.rd (R.drayChnGrant n) else vget g n)
      List.nodup_range (List.mem_range.mpr hn) (fun u b hb hne hu => ?_) (fun u b hb hne hu => ?_) (fun u hu => ?_) ⟨hw, rfl, rfl⟩
    · obtain ⟨h1, h2, h3⟩ := hu
      refine ⟨(frame_creditGrant (List.mem_range.mp hb)).canon h1, (hused u b n).trans h2, .trans ?_ h3⟩
      apply rd_creditGrant_ne <;> simp only [R.drayChnGrant, R.drayStatus] <;> omega
    · refine .trans ?_ hu
      apply rd_creditGrant_ne <;> simp only [R.drayChnGrant, R.drayStatus] <;> omega
    · obtain ⟨h1, h2, h3⟩ := hu
      rw [rd_creditGrant_self h1, h2, h3]
  · exact foldl_keeps (P := fun u => u.rd (R.drayChnUsed n) = s.rd (R.drayChnUsed n)) (fun u b _ hu => (hused u b n).trans hu) rfl
  · suffices ∀ (l : List Nat) (u : State), (∀ b ∈ l, b < 4) → u.regsWf = true → (∀ k, u.rd (R.drayChnUsed k) = s.rd (R.drayChnUsed k)) →
        ((l.foldl (creditGrant g first) u).rd 0xD010).toNat = satAdd 32 (u.rd 0xD010).toNat
          (l.filter (fun n => (vget g n - s.rd (R.drayChnUsed n)).toNat > 2 ^ 31)).length from
      this _ s (fun b hb => List.mem_range.mp hb) hw (fun _ => rfl)
    intro l
    induction l with
    | nil =>
      intro u _ _ _
      have := (u.rd 0xD010).isLt
      simp only [List.foldl_nil, List.filter_nil, List.length_nil, satAdd]
      omega
    | cons b l ih =>
      intro u hl hu hk
      rw [List.foldl_cons, ih _ (fun c hc => hl c (List.mem_cons_of_mem b hc)) ((frame_creditGrant (hl b List.mem_cons_self)).canon hu)
        (fun k => (hused u b k).trans (hk k)), ignored_creditGrant hu, satAdd_satAdd, List.filter_cons, hk b]
      by_cases h : (vget g b - s.rd (R.drayChnUsed b)).toNat > 2 ^ 31
      · rw [if_pos h, if_pos (decide_eq_true h), List.length_cons, Nat.add_comm]
      · rw [if_neg h, if_neg (by simpa using h), Nat.zero_add]

theorem frame_captureRelease : Frame [.regs, .acq] (.reg R.acqBacklog :: queuePlaces) s s.captureRelease :=
  .after frame_drayQueues.sub <| .after (frame_showBacklog _).sub .acq

/-! Frames. -/

/-- A frame on a lane: the lane carries it, its credits are used, and the other registers and what waits stand. -/
theorem putFrame_shows {lane : Nat} {f : DrayFrame} (hw : s.regsWf = true) (hl : lane < 2) :
    let t := s.putFrame lane f
    vget t.dray.lane lane = some f ∧ t.dray = { s.dray with lane := vset s.dray.lane lane (some f), waits := s.dray.waits.del f.stream } ∧
      t.rd (R.drayChnUsed f.stream) = s.rd (R.drayChnUsed f.stream) + BitVec.ofNat 32 (frameCredits f.bytes.length) ∧
      t.mem = s.mem ∧ t.out = s.out :=
  ⟨vget_vset_self hl, rfl, rd_wr_self hw, rfl, rfl⟩

theorem startFrame_resend {lane : Nat} {f : DrayFrame} (h : s.dray.resend.find? (fun g => g.stream == n) = some f) :
    s.startFrame lane n = { s with dray := { s.dray with resend := s.dray.resend.filter (fun g => g ≠ f) } }.putFrame lane f := by
  rw [State.startFrame, h]

/-- The events frame that would start next. -/
def eventsFrame (s : State) : DrayFrame :=
  { stream := 2, bytes := s.drayBytes 2 (vget s.dray.seq 2) (packRecs frameRoom s.dray.events).1
    frames := ((s.dray.bulk.map (·.frames)).headD 0) + 1 }

theorem startFrame_events {lane : Nat} (h : s.dray.resend = []) : s.startFrame lane 2 =
    (State.putFrame { s with dray := { s.dray with
      events := (packRecs frameRoom s.dray.events).2, seq := vset s.dray.seq 2 ((vget s.dray.seq 2 + 1) % 2 ^ 32) } } lane
      (eventsFrame s)).drayShow := by
  rw [State.startFrame, h]
  rfl

/-- The state once the streams that would go but lack their credit have been counted. -/
def drayStalled (s : State) : State :=
  (([2, 0, 1, 3].filter (fun n => s.streamOn n && s.streamReady n && decide (s.flying n < 2))).filter
    (fun n => s.credit n < s.drayNeed n)).foldl State.drayStall s

theorem frame_drayStalled : Frame [.regs, .dray] stallPlaces s (drayStalled s) :=
  frame_drayStalls fun n hn => List.mem_of_mem_filter (List.mem_of_mem_filter hn)

theorem exec_drayFrameStart_goes {lane : Fin 2} (hl : s.laneUp lane = true) (he : vget s.dray.lane lane = none) (hc : s.dray.credited = true)
    (hn : [2, 0, 1, 3].find? (fun n => (s.streamOn n && s.streamReady n && decide (s.flying n < 2)) && decide (s.drayNeed n ≤ s.credit n)) =
      some n) : exec (.drayFrameStart lane) s = .next ((drayStalled s).startFrame lane n) := by
  rw [exec_drayFrameStart, execDrayFrameStart]
  have hcond : (s.laneUp lane && vget s.dray.lane lane == none && s.dray.credited) = true := by
    rw [hl, he, hc]
    rfl
  have hgo : ([2, 0, 1, 3].filter (fun n => s.streamOn n && s.streamReady n && decide (s.flying n < 2))).find?
      (fun n => s.drayNeed n ≤ s.credit n) = some n := by
    rw [List.find?_filter, ← hn]
    congr 1
    funext k
    rw [Bool.decide_and, Bool.decide_eq_true, Bool.decide_eq_true]
  simp only [hgo, State.when, if_pos hcond]
  rfl

theorem exec_drayFrameStart_rests {lane : Fin 2}
    (h : s.laneUp lane = false ∨ (∃ f, vget s.dray.lane lane = some f) ∨ s.dray.credited = false) :
    exec (.drayFrameStart lane) s = .next s := by
  rw [exec_drayFrameStart, execDrayFrameStart]
  have hcond : (s.laneUp lane && vget s.dray.lane lane == none && s.dray.credited) = false := by
    rcases h with h | ⟨f, h⟩ | h <;> simp [h]
  rw [State.when, hcond]
  rfl

/-- The state after a frame of lane `p` has gone out. -/
def frameOut (s : State) (p : Nat) (f : DrayFrame) : State :=
  let t := { s with dray := { s.dray with lane := vset s.dray.lane p none } }.emit (.drayFrame p f.bytes)
  t.wr64 (R.drayChnFramesLo f.stream) (t.rd64 (R.drayChnFramesLo f.stream) + 1)

theorem exec_drayFrameEnd_plain {lane : Fin 2} {f : DrayFrame} (h : vget s.dray.lane lane = some f) (hb : f.bulkEnd = none) :
    exec (.drayFrameEnd lane) s = .next (frameOut s lane f) := by
  rw [exec_drayFrameEnd, execDrayFrameEnd]
  simp only [h, hb]
  rfl

theorem exec_drayFrameEnd_bulk {lane : Fin 2} {f : DrayFrame} {id : Nat} (h : vget s.dray.lane lane = some f) (hb : f.bulkEnd = some id) :
    exec (.drayFrameEnd lane) s = .next ((frameOut s lane f).cmdDone id 0 f.frames) := by
  rw [exec_drayFrameEnd, execDrayFrameEnd]
  simp only [h, hb]
  rfl

theorem exec_drayFrameEnd_none {lane : Fin 2} (h : vget s.dray.lane lane = none) : exec (.drayFrameEnd lane) s = .next s := by
  rw [exec_drayFrameEnd, execDrayFrameEnd, h]

theorem exec_drayDry_eq {n : Fin 4} : exec (.drayDry n) s =
    s.when (s.fbit F.drayStatus_linkUp && s.streamOn n && s.streamReady n && decide (s.credit n < s.drayNeed n))
      (s.fset ⟨R.drayStatus, 2 + n, 1⟩ 1) := rfl

/-! The two halves of the obligation. -/

theorem drayLanes (hw : s.regsWf = true) :
    (∀ p : Fin 2, s.power.chip = true → s.laneUp p = false → ∃ t, exec (.drayLaneUp p) s = .next t ∧ t.laneUp p = true ∧
      t.fbit F.drayStatus_linkUp = true ∧ (t.fbit F.drayStatus_oneLane = true ↔ t.laneUp (1 - p.val) = false) ∧
      t.mem = s.mem ∧ t.out = s.out ∧ t.dray.events = s.dray.events ∧ t.dray.hist = s.dray.hist ∧ t.dray.bulk = s.dray.bulk ∧
      (s.fbit F.drayStatus_linkUp = true → t.dray = s.dray) ∧
      (s.fbit F.drayStatus_linkUp = false → t.dray.credited = false ∧ (∀ n : Fin 4, t.rd (R.drayChnGrant n) = 0 ∧ t.rd (R.drayChnUsed n) = 0) ∧
        (t.rd R.drayLinkups).toNat = satAdd 32 (s.rd R.drayLinkups).toNat 1)) := by
  intro p hc hd
  obtain ⟨hup, -⟩ := laneRaised_shows (s := s) hw p.isLt
  have hr : (laneRaised s p).regsWf = true := regsWf_fset hw
  cases hl : s.fbit F.drayStatus_linkUp with
  | true =>
    have hk := frame_drayLink (laneRaised s p)
    obtain ⟨h1, h2⟩ := drayLink_raised hr p.isLt hup
    refine ⟨_, exec_drayLaneUp_second hc hd hl, (drayLink_shows hr p.isLt).1.trans hup, h1, h2, hk.part .mem (by decide), hk.part .out (by decide), ?_, ?_, ?_,
      fun _ => hk.part .dray (by decide), fun h => absurd h (by decide)⟩
    · exact congrArg Dray.events (hk.part .dray (by decide))
    · exact congrArg Dray.hist (hk.part .dray (by decide))
    · exact congrArg Dray.bulk (hk.part .dray (by decide))
  | false =>
    have hs := frame_streamsFresh (s := laneRaised s p)
    have hsw := hs.canon hr
    have hk := frame_drayLink (streamsFresh (laneRaised s p))
    obtain ⟨hcr, hgr, hln⟩ := streamsFresh_shows hr
    have hup' : (streamsFresh (laneRaised s p)).laneUp p = true := by
      refine .trans ?_ hup
      rcases (by omega : p = 0 ∨ p = 1) with rfl | rfl <;> exact hs.fbit hr
    obtain ⟨h1, h2⟩ := drayLink_raised hsw p.isLt hup'
    have hdray : State.dray _ = _ := (hk.part .dray (by decide)).trans streamsFresh_dray
    refine ⟨_, exec_drayLaneUp_first hc hd hl, (drayLink_shows hsw p.isLt).1.trans hup', h1, h2, (hk.part .mem (by decide)).trans (hs.part .mem (by decide)),
      (hk.part .out (by decide)).trans (hs.part .out (by decide)), ?_, ?_, ?_, fun h => absurd h (by decide), fun _ => ⟨?_, fun n => ?_, ?_⟩⟩
    · exact (congrArg Dray.events hdray).trans rfl
    · exact (congrArg Dray.hist hdray).trans rfl
    · exact (congrArg Dray.bulk hdray).trans rfl
    · exact congrArg Dray.credited hdray
    · obtain ⟨hg, hu⟩ := hgr n
      fin_cases n <;> exact ⟨(hk.rd hsw).trans hg, (hk.rd hsw).trans hu⟩
    · refine (congrArg BitVec.toNat (hk.rd hsw)).trans (hln.trans ?_)
      rw [laneRaised, rd_fset_ne (by
        simp only [R.drayPpStatus, R.drayLinkups]
        omega)]

theorem frameKept_dray {f : DrayFrame} : (frameKept s p f).dray =
    { s.dray with lane := vset s.dray.lane p none, resend := s.dray.resend ++ [f] } := rfl

theorem rd_withDray {d : Dray} {o : Nat} : ({ s with dray := d } : State).rd o = s.rd o := rfl

theorem rd_frameKept {f : DrayFrame} (hw : s.regsWf = true) : (frameKept s p f).rd (R.drayChnUsed f.stream) =
    s.rd (R.drayChnUsed f.stream) - BitVec.ofNat 32 (frameCredits f.bytes.length) := by
  unfold frameKept
  dsimp only
  rw [rd_withDray, rd_wr_self hw]

theorem frame_frameKept {f : DrayFrame} : Frame [.regs, .dray] [.span 0xD104 0] s (frameKept s p f) :=
  .after .dray <| .wr <| cover_from 0xD104 (by
    simp only [R.drayChnUsed]
    omega)

theorem frame_laneLowered : Frame [.regs] [.span 0xD020 0] s (laneLowered s p) :=
  .after (.fset (cover_from 0xD020 (by
    simp only [R.drayPpStatus]
    omega))) (.fset (cover_from 0xD020 (by
    simp only [R.drayPpStatus]
    omega)))

theorem drayLaneDowns (hw : s.regsWf = true) (p : Fin 2) (h : s.laneUp p = true) : ∃ t, exec (.drayLaneDown p) s = .next t ∧
    t.laneUp p = false ∧ (t.fbit F.drayStatus_linkUp = true ↔ t.laneUp (1 - p.val) = true) ∧ t.mem = s.mem ∧ t.out = s.out ∧
    (∀ f, vget s.dray.lane p = some f → f.stream < 4 → vget t.dray.lane p = none ∧ t.dray.resend = s.dray.resend ++ [f] ∧
      t.rd (R.drayChnUsed f.stream) = s.rd (R.drayChnUsed f.stream) - BitVec.ofNat 32 (frameCredits f.bytes.length)) ∧
    (vget s.dray.lane p = none → t.dray = s.dray) := by
  obtain ⟨hlw, hdown, hused⟩ := laneLowered_shows hw p.isLt
  have hlf := frame_laneLowered (s := s) (p := p)
  have hld : (laneLowered s p).dray = s.dray := hlf.part .dray (by decide)
  have hlm : (laneLowered s p).mem = s.mem := hlf.part .mem (by decide)
  have hlo : (laneLowered s p).out = s.out := hlf.part .out (by decide)
  cases hf : vget s.dray.lane p with
  | none =>
    have hex := exec_drayLaneDown_empty h hf
    generalize laneLowered s p = u at hlw hdown hused hld hlm hlo hex
    have hk := frame_drayLink u
    exact ⟨_, hex, (drayLink_shows hlw p.isLt).1.trans hdown, drayLink_lowered hlw p.isLt hdown,
      (hk.part .mem (by decide)).trans hlm, (hk.part .out (by decide)).trans hlo, fun f e => absurd e (by simp),
      fun _ => (hk.part .dray (by decide)).trans hld⟩
  | some f =>
    have hex := exec_drayLaneDown_frame h hf
    generalize laneLowered s p = u at hlw hdown hused hld hlm hlo hex
    have hkf := frame_frameKept (s := u) (p := p) (f := f)
    have hkw := hkf.canon hlw
    have hkm : (frameKept u p f).mem = s.mem := (hkf.part .mem (by decide)).trans hlm
    have hko : (frameKept u p f).out = s.out := (hkf.part .out (by decide)).trans hlo
    have hkd := frameKept_dray (s := u) (p := p) (f := f)
    have hdown' : (frameKept u p f).laneUp p = false := (laneUp_frameKept p.isLt).trans hdown
    have hu : (frameKept u p f).rd (R.drayChnUsed f.stream) =
        s.rd (R.drayChnUsed f.stream) - BitVec.ofNat 32 (frameCredits f.bytes.length) := by
      rw [rd_frameKept hlw, hused]
    rw [hld] at hkd
    generalize frameKept u p f = v at hkw hkm hko hkd hdown' hu hex
    have hk := frame_drayLink v
    have hdray : v.drayLink.dray = _ := (hk.part .dray (by decide)).trans hkd
    refine ⟨_, hex, (drayLink_shows hkw p.isLt).1.trans hdown', drayLink_lowered hkw p.isLt hdown',
      (hk.part .mem (by decide)).trans hkm, (hk.part .out (by decide)).trans hko, fun g e hg => ?_, fun e => absurd e (by simp)⟩
    obtain rfl : f = g := Option.some.inj e
    refine ⟨?_, ?_, ?_⟩
    · rw [hdray]
      exact vget_vset_self p.isLt
    · rw [hdray]
    · refine .trans ?_ hu
      obtain ⟨k, hk4⟩ : ∃ k, f.stream = k := ⟨_, rfl⟩
      rw [hk4] at hg ⊢
      interval_cases k <;> exact hk.rd hkw

theorem drayCredits (hw : s.regsWf = true) (g : Vector W32 4) (h : s.fbit F.drayStatus_linkUp = true) :
    ∃ t, exec (.creditFrameRx g) s = .next t ∧ t.dray.credited = true ∧ t.mem = s.mem ∧ t.out = s.out ∧
      (∀ n : Fin 4, t.rd (R.drayChnGrant n) = (if (vget g n - s.rd (R.drayChnUsed n)).toNat > 2 ^ 31 then s.rd (R.drayChnGrant n) else vget g n)) ∧
      (∀ n : Fin 4, t.rd (R.drayChnUsed n) = s.rd (R.drayChnUsed n)) ∧
      (t.rd 0xD010).toNat = satAdd 32 (s.rd 0xD010).toNat
        ((List.range 4).filter (fun n => (vget g n - s.rd (R.drayChnUsed n)).toNat > 2 ^ 31)).length := by
  obtain ⟨hgrant, hused, hign⟩ := creditGrants_shows (g := g) (first := !s.dray.credited) hw
  have hfold : Frame [.regs, .dray] [.blk 0xD] s ((List.range 4).foldl (creditGrant g (!s.dray.credited)) s) :=
    .foldl (fun u n hn => frame_creditGrant (List.mem_range.mp hn)) s
  refine ⟨_, exec_creditFrameRx_up h, ?_⟩
  dsimp only
  generalize (List.range 4).foldl (creditGrant g (!s.dray.credited)) s = u at hgrant hused hign hfold
  have huw := hfold.canon hw
  have hr := frame_captureRelease (s := { u with dray := { u.dray with credited := true } })
  have hrw : State.regsWf { u with dray := { u.dray with credited := true } } = true := huw
  refine ⟨congrArg Dray.credited (hr.part .dray (by decide)), (hr.part .mem (by decide)).trans (hfold.part .mem (by decide)),
    (hr.part .out (by decide)).trans (hfold.part .out (by decide)), fun n => ?_, fun n => ?_, ?_⟩
  · refine .trans ?_ (hgrant n n.isLt)
    fin_cases n <;> exact hr.rd hrw
  · refine .trans ?_ (hused n)
    fin_cases n <;> exact hr.rd hrw
  · exact (congrArg BitVec.toNat (hr.rd hrw)).trans hign

theorem drayEventsStart (hw : s.regsWf = true) (lane : Fin 2) (hl : s.laneUp lane = true) (he : vget s.dray.lane lane = none)
    (hc : s.dray.credited = true) (ho : s.streamOn 2 = true) (hr : s.streamReady 2 = true) (hf : s.flying 2 < 2)
    (hn : s.drayNeed 2 ≤ s.credit 2) (hq : s.dray.resend = []) :
    ∃ t f, exec (.drayFrameStart lane) s = .next t ∧ vget t.dray.lane lane = some f ∧ f.stream = 2 ∧ t.mem = s.mem ∧
      f.bytes = s.drayBytes 2 (vget s.dray.seq 2) (packRecs frameRoom s.dray.events).1 ∧
      t.dray.events = (packRecs frameRoom s.dray.events).2 ∧ vget t.dray.seq 2 = (vget s.dray.seq 2 + 1) % 2 ^ 32 ∧
      t.rd (R.drayChnUsed 2) = s.rd (R.drayChnUsed 2) + BitVec.ofNat 32 (frameCredits f.bytes.length) ∧ t.out = s.out := by
  have hfind : [2, 0, 1, 3].find? (fun n => (s.streamOn n && s.streamReady n && decide (s.flying n < 2)) && decide (s.drayNeed n ≤ s.credit n)) =
      some 2 := by
    rw [List.find?_cons_of_pos]
    rw [ho, hr, decide_eq_true hf, decide_eq_true hn]
    rfl
  have hex := exec_drayFrameStart_goes hl he hc hfind
  have hst := frame_drayStalled (s := s)
  obtain ⟨w, hd⟩ : ∃ w, (drayStalled s).dray = { s.dray with waits := w } := drayStalls_dray _
  generalize drayStalled s = u at hex hst hd
  have huw := hst.canon hw
  have hseq : vget u.dray.seq 2 = vget s.dray.seq 2 := by rw [hd]
  have hev : u.dray.events = s.dray.events := by rw [hd]
  have hbytes (q : Nat) (l : List (List Byte)) : u.drayBytes 2 q l = s.drayBytes 2 q l := by
    rw [State.drayBytes, State.drayBytes, hst.fbit hw, hst.fget hw]
  rw [startFrame_events (by rw [hd]; exact hq)] at hex
  obtain ⟨h1, h2, h3, h4, h5⟩ := putFrame_shows (s := { u with dray := { u.dray with
    events := (packRecs frameRoom u.dray.events).2, seq := vset u.dray.seq 2 ((vget u.dray.seq 2 + 1) % 2 ^ 32) } })
    (lane := lane) (f := eventsFrame u) huw lane.isLt
  generalize hv : State.putFrame { u with dray := { u.dray with
    events := (packRecs frameRoom u.dray.events).2, seq := vset u.dray.seq 2 ((vget u.dray.seq 2 + 1) % 2 ^ 32) } } lane (eventsFrame u) = v
    at h1 h2 h3 h4 h5 hex
  have hvw : v.regsWf = true := by
    rw [← hv]
    exact regsWf_wr (off := R.drayChnUsed (eventsFrame u).stream) huw
  have hk := frame_drayQueues (s := v)
  have hkd : v.drayShow.dray = v.dray := hk.part .dray (by decide)
  refine ⟨_, eventsFrame u, hex, ?_, rfl, ?_, ?_, ?_, ?_, ?_, ?_⟩
  · rw [hkd, h1]
  · exact (hk.part .mem (by decide)).trans (h4.trans (hst.part .mem (by decide)))
  · rw [eventsFrame, hbytes, hseq, hev]
  · rw [hkd, h2, ← hev]
  · rw [hkd, h2, ← hseq]
    exact vget_vset_self (by decide)
  · refine (hk.rd hvw).trans (h3.trans (congrArg (· + _) ?_))
    exact hst.rd (o := R.drayChnUsed 2) hw
  · exact (hk.part .out (by decide)).trans (h5.trans (hst.part .out (by decide)))

theorem drayResendStart (lane : Fin 2) (n : Nat) (f : DrayFrame) (hw : s.regsWf = true) (hl : s.laneUp lane = true)
    (he : vget s.dray.lane lane = none) (hc : s.dray.credited = true)
    (hn : [2, 0, 1, 3].find? (fun n => (s.streamOn n && s.streamReady n && decide (s.flying n < 2)) && decide (s.drayNeed n ≤ s.credit n)) =
      some n) (hf : s.dray.resend.find? (fun g => g.stream == n) = some f) :
    ∃ t, exec (.drayFrameStart lane) s = .next t ∧ vget t.dray.lane lane = some f ∧ f ∉ t.dray.resend ∧ t.dray.seq = s.dray.seq ∧
      t.dray.events = s.dray.events ∧ t.mem = s.mem ∧ t.out = s.out := by
  have hex := exec_drayFrameStart_goes hl he hc hn
  have hst := frame_drayStalled (s := s)
  obtain ⟨w, hd⟩ : ∃ w, (drayStalled s).dray = { s.dray with waits := w } := drayStalls_dray _
  generalize drayStalled s = u at hex hst hd
  rw [startFrame_resend (f := f) (by rw [hd]; exact hf)] at hex
  obtain ⟨h1, h2, -, h4, h5⟩ := putFrame_shows (s := { u with dray := { u.dray with resend := u.dray.resend.filter (fun g => g ≠ f) } })
    (lane := lane) (f := f) (hst.canon hw) lane.isLt
  refine ⟨_, hex, h1, ?_, ?_, ?_, h4.trans (hst.part .mem (by decide)), h5.trans (hst.part .out (by decide))⟩
  · rw [h2]
    intro hm
    exact of_decide_eq_true (List.mem_filter.mp hm).2 rfl
  · rw [h2]
    show u.dray.seq = s.dray.seq
    rw [hd]
  · rw [h2]
    show u.dray.events = s.dray.events
    rw [hd]

/-- Settles O59: lanes, grants and frames by what each leaves in the link's registers and in its queues. -/
theorem drayLink : Obligations.DrayLink := by
  unfold Obligations.DrayLink
  refine ⟨fun s hw => ⟨drayLanes hw, drayLaneDowns hw, fun p h => ?_, drayCredits hw, fun g h => ?_⟩,
    fun s hw => ⟨fun lane hl he hc ho hr hf hn hq => drayEventsStart hw lane hl he hc ho hr hf hn hq,
      fun lane n f hl he hc hn hf => drayResendStart lane n f hw hl he hc hn hf, fun lane h => exec_drayFrameStart_rests h,
      fun lane f hf h4 hb => ?sent, fun lane f id hf h4 hb => ⟨_, exec_drayFrameEnd_bulk hf hb, rfl, rfl, rfl⟩,
      fun lane h => exec_drayFrameEnd_none h, fun n hl ho hr hc => ?dry, fun n hc => ?rich⟩⟩
  · rw [exec_drayLaneDown, execDrayLaneDown]
    dsimp only
    rw [State.when, h]
    rfl
  · rw [exec_creditFrameRx, execCreditFrameRx, State.when, h]
    rfl
  case sent =>
    have hw' : ({ s with dray := { s.dray with lane := vset s.dray.lane lane none } }.emit (.drayFrame lane f.bytes)).regsWf = true := hw
    refine ⟨_, exec_drayFrameEnd_plain hf hb, vget_vset_self lane.isLt, rfl, rd64_wr64 hw', fun o ho => ?_, rfl, rfl⟩
    simp only [List.mem_cons, List.not_mem_nil, or_false, not_or] at ho
    exact rd_wr64_ne ho.1 ho.2
  case dry =>
    refine ⟨s.fset ⟨R.drayStatus, 2 + n, 1⟩ 1, ?_, ?_, onlyRegs_fset⟩
    · rw [exec_drayDry_eq, State.when, if_pos]
      rw [hl, ho, hr, decide_eq_true hc]
      rfl
    · rw [fbit_fset hw (by dsimp only; omega)]
      rfl
  case rich =>
    rw [exec_drayDry_eq, State.when, if_neg]
    rw [decide_eq_false (by omega)]
    simp

end Sys2Proof.Machine
end

section
/-! The observation port: the selection, its frames and the memory windows (R444 to R451). -/

namespace Sys2Proof.Machine

variable {s t : State} {m : Master}

/-! The selection. -/

theorem exec_selectorFrameRx_good {b : List Byte} {v : ObsSel} (hp : s.obsPort = true) (hl : s.fbit F.obsStatus_linkIn = true)
    (hu : s.up = true) (hf : s.fbit F.pwrStatus_firstSec = false) (ha : s.selAllowed = true) (hr : readSelector b = some v) :
    exec (.selectorFrameRx b) s =
      .next { s with obs := { s.obs with next := some (some v), accepted := true, acceptedAt := some s.time.tb1 } } := by
  rw [exec_selectorFrameRx, execSelectorFrameRx]
  simp only [hp, hl, hu, hf, ha, hr, State.when, Bool.and_self, Bool.not_false, if_true]

theorem exec_selectorFrameRx_ignored {b : List Byte} (hp : s.obsPort = true) (hl : s.fbit F.obsStatus_linkIn = true) (hu : s.up = true)
    (h : readSelector b = none ∨ s.fbit F.pwrStatus_firstSec = true ∨ s.selAllowed = false) :
    exec (.selectorFrameRx b) s = .next (s.bump R.obsIgnored) := by
  rw [exec_selectorFrameRx, execSelectorFrameRx]
  simp only [hp, hl, hu, State.when, Bool.and_self, if_true]
  cases hr : readSelector b with
  | none => rfl
  | some v =>
    rcases h with h | h | h
    · exact absurd (hr.symm.trans h) (by simp)
    · simp only [h, Bool.not_true, Bool.false_and, Bool.false_eq_true, if_false]
    · simp only [h, Bool.and_false, Bool.false_eq_true, if_false]

theorem exec_selectorFrameRx_unserved {b : List Byte} (h : s.obsPort = false ∨ s.fbit F.obsStatus_linkIn = false) :
    exec (.selectorFrameRx b) s = .next s := by
  rw [exec_selectorFrameRx, execSelectorFrameRx]
  rcases h with h | h <;> simp only [h, State.when, Bool.false_and, Bool.and_false, Bool.false_eq_true, if_false]

theorem readSelector_bad {b : List Byte} (h : b.length ≠ 664 ∨ leNat ((b.drop 660).take 4) ≠ crc32 (b.take 660) ∨
    leNat ((b.drop 16).take 2) = 0) : readSelector b = none := by
  rw [readSelector]
  refine if_neg ?_
  rintro ⟨hl, -, -, -, hc, -, -, -, hp, -, -⟩
  rcases h with h | h | h
  · exact h hl
  · exact h hc
  · exact absurd (h ▸ hp : 1 ≤ 0) (by decide)

/-! Frames. -/

/-- The oldest records of one stream, as many as fit: what is taken and what stays. -/
theorem obsTake_append (k room : Nat) (l : List ObsRec) : l = (obsTake k room l).1 ++ (obsTake k room l).2 := by
  induction l generalizing room with
  | nil => rfl
  | cons r l ih =>
    rw [obsTake]
    split
    · exact congrArg (r :: ·) (ih _)
    · rfl

theorem obsStream_of_mem_obsTake (k room : Nat) (l : List ObsRec) : ∀ x ∈ (obsTake k room l).1, obsStream x = k := by
  induction l generalizing room with
  | nil => exact fun x hx => absurd hx List.not_mem_nil
  | cons r l ih =>
    rw [obsTake]
    split
    next h =>
      intro x hx
      rcases List.mem_cons.mp hx with rfl | hx
      · exact h.1
      · exact ih _ x hx
    next => exact fun x hx => absurd hx List.not_mem_nil

theorem obsTake_ne_nil {r : ObsRec} {l : List ObsRec} {room : Nat} (h : obsSize r ≤ room) : (obsTake (obsStream r) room (r :: l)).1 ≠ [] := by
  rw [obsTake, if_pos ⟨rfl, h⟩]
  exact List.cons_ne_nil _ _

theorem obsStream_lt (r : ObsRec) : obsStream r < 5 := by
  cases r <;> simp only [obsStream] <;> decide

/-- The sequence number that a frame carries. -/
def obsSeq (s : State) : W32 := match s.obs.sel with | some v => v.seq | none => s.rd R.obsSelSeq

theorem exec_observationFrameSend_sends {r : ObsRec} {rest : List ObsRec} (h : s.obs.coll = r :: rest) (hp : s.obsPort = true)
    (hl : s.fbit F.obsStatus_linkOut = true) : exec .observationFrameSend s =
      .next { s.emit (.obsFrame (0x10 + obsStream r) (vget s.obs.frames (obsStream r)) (obsSeq s) (vget s.obs.drops (obsStream r))
          (obsTake (obsStream r) 9196 (r :: rest)).1) with
        obs := { s.obs with coll := (obsTake (obsStream r) 9196 (r :: rest)).2
                            frames := vset s.obs.frames (obsStream r) (vget s.obs.frames (obsStream r) + 1)
                            drops := vset s.obs.drops (obsStream r) 0 } } := by
  rw [exec_observationFrameSend, execObservationFrameSend]
  simp only [h, hp, hl, State.when, Bool.and_self, if_true]
  rfl

/-! Memory windows. -/

theorem exec_memoryWindowBurst_free {a n : Nat} {rest : List (Nat × Nat)} (h : s.obs.reads = (a, n) :: rest) (hc : s.commitSpan a n = false) :
    exec .memoryWindowBurst s = .next ((State.obsBurst { s with obs := { s.obs with reads := rest } } a n).1.obsCollect
      (State.obsBurst { s with obs := { s.obs with reads := rest } } a n).2) := by
  rw [exec_memoryWindowBurst, execMemoryWindowBurst]
  simp only [h, State.when, hc, Bool.not_false, if_true]

theorem exec_memoryWindowBurst_waits {a n : Nat} {rest : List (Nat × Nat)} (h : s.obs.reads = (a, n) :: rest) (hc : s.commitSpan a n = true) :
    exec .memoryWindowBurst s = .next s := by
  rw [exec_memoryWindowBurst, execMemoryWindowBurst]
  simp only [h, State.when, hc, Bool.not_true, Bool.false_eq_true, if_false]

theorem viewByte_bump {o a : Nat} (ho : o ≠ R.recFlushed) : (s.bump o).viewByte a = s.viewByte a := by
  have hrd : (s.bump o).rd R.recFlushed = s.rd R.recFlushed := rd_bump_ne ho.symm
  have hst (k : Nat) : (s.bump o).stagedAt k = s.stagedAt k := by
    simp only [State.stagedAt, hrd]
    rfl
  simp only [State.viewByte, hst]
  rfl

theorem view_bump {o a n : Nat} (ho : o ≠ R.recFlushed) : (s.bump o).view a n = s.view a n :=
  List.map_congr_left fun _ _ => viewByte_bump ho

theorem obsBurst_granted {a n : Nat} (h : s.catDecide clsObs .read a = none) (hr : regionOf a ≠ some .setup ∧ regionOf a ≠ some .cart) :
    s.obsBurst a n = (s.bump R.obsReads, if s.mem.badSpan a n then .burst a 2 [] else .burst a 0 (s.view a n)) := by
  have hc : s.catAccess clsObs 0 .read a = (s, true) := by rw [State.catAccess, h]
  rw [State.obsBurst, hc]
  simp only [Bool.not_true, Bool.false_eq_true, if_false]
  split
  next e => exact absurd e hr.1
  next e => exact absurd e hr.2
  next =>
    rw [view_bump (by decide)]
    show (if s.mem.badSpan a n then _ else _) = _
    split <;> rfl

theorem obsBurst_refused {a n k : Nat} (h : s.catDecide clsObs .read a = some k) :
    s.obsBurst a n = ((s.catRefuse clsObs 0 .read a k).bump R.obsRefused, .burst a 1 []) := by
  have hc : s.catAccess clsObs 0 .read a = (s.catRefuse clsObs 0 .read a k, false) := by rw [State.catAccess, h]
  rw [State.obsBurst, hc]
  rfl

/-- A record for which the collector has room. -/
theorem obsCollect_room {r : ObsRec} (h : s.obsRoom (obsSize r) = true) :
    s.obsCollect r = { s with obs := { s.obs with coll := s.obs.coll ++ [r] } } := if_pos h

theorem obsRoom_mono {k l : Nat} (h : s.obsRoom l = true) (hk : k ≤ l) : s.obsRoom k = true := by
  rw [State.obsRoom, decide_eq_true_eq] at h ⊢
  omega

/-- A record that takes no more room than the collector has, at a register that a counter changed. -/
theorem obsCollect_bump {r : ObsRec} {o k : Nat} (h : s.obsRoom k = true) (hk : obsSize r ≤ k) :
    ((s.bump o).obsCollect r).obs = { s.obs with coll := s.obs.coll ++ [r] } :=
  congrArg State.obs (obsCollect_room (s := s.bump o) (obsRoom_mono h hk))

theorem length_view {a n : Nat} : (s.view a n).length = n := by
  rw [State.view, List.length_map, List.length_range]

theorem memoryWindow_granted {a n : Nat} {rest : List (Nat × Nat)} (h : s.obs.reads = (a, n) :: rest) (hc : s.commitSpan a n = false)
    (hroom : s.obsRoom (16 + n) = true) (hd : s.catDecide clsObs .read a = none)
    (hr : regionOf a ≠ some .setup ∧ regionOf a ≠ some .cart) : ∃ t, exec .memoryWindowBurst s = .next t ∧ t.obs.reads = rest ∧
      t.obs.coll = s.obs.coll ++ [if s.mem.badSpan a n then .burst a 2 [] else .burst a 0 (s.view a n)] ∧ t.mem = s.mem ∧ t.out = s.out := by
  have hb := obsBurst_granted (s := { s with obs := { s.obs with reads := rest } }) (n := n) hd hr
  have hx := exec_memoryWindowBurst_free h hc
  rw [hb] at hx
  have hsize : obsSize (if s.mem.badSpan a n then .burst a 2 [] else .burst a 0 (s.view a n)) ≤ 16 + n := by
    split
    · simp [obsSize]
    · rw [obsSize, length_view]
  have hco := obsCollect_bump (s := { s with obs := { s.obs with reads := rest } }) (o := R.obsReads) (k := 16 + n)
    (r := if s.mem.badSpan a n then .burst a 2 [] else .burst a 0 (s.view a n)) hroom hsize
  have hf := frame_obsCollect (State.bump { s with obs := { s.obs with reads := rest } } R.obsReads)
    (if s.mem.badSpan a n then .burst a 2 [] else .burst a 0 (s.view a n))
  exact ⟨_, hx, congrArg Obs.reads hco, congrArg Obs.coll hco, hf.part .mem (by decide), hf.part .out (by decide)⟩

theorem memoryWindow_refused {a n k : Nat} {rest : List (Nat × Nat)} (h : s.obs.reads = (a, n) :: rest) (hc : s.commitSpan a n = false)
    (hroom : s.obsRoom (16 + n) = true) (hd : s.catDecide clsObs .read a = some k) : ∃ t, exec .memoryWindowBurst s = .next t ∧
      t.obs.reads = rest ∧ t.obs.coll = s.obs.coll ++ [.burst a 1 []] ∧ t.mem = s.mem := by
  have hb := obsBurst_refused (s := { s with obs := { s.obs with reads := rest } }) (n := n) hd
  have hx := exec_memoryWindowBurst_free h hc
  rw [hb] at hx
  have hcat := frame_catRefuse { s with obs := { s.obs with reads := rest } } clsObs 0 .read a k (by decide)
  generalize State.catRefuse { s with obs := { s.obs with reads := rest } } clsObs 0 .read a k = u at hx hcat
  have hobs : u.obs = { s.obs with reads := rest } := hcat.part .obs (by decide)
  have hco := obsCollect_bump (s := u) (o := R.obsRefused) (k := 16 + n) (r := .burst a 1 []) (by
    rw [State.obsRoom, hobs]
    exact hroom) (by simp [obsSize])
  have hf := frame_obsCollect (u.bump R.obsRefused) (.burst a 1 [])
  rw [hobs] at hco
  exact ⟨_, hx, congrArg Obs.reads hco, congrArg Obs.coll hco, (hf.part .mem (by decide)).trans (hcat.part .mem (by decide))⟩

/-- Settles O60: selector frames by what is noted or counted, observation frames and bursts by what the collector gives and takes. -/
theorem observationPort : Obligations.ObservationPort := by
  unfold Obligations.ObservationPort
  refine ⟨fun m s hw => ⟨fun b v hp hl hu hf ha hr => ⟨_, exec_selectorFrameRx_good hp hl hu hf ha hr, rfl, rfl, rfl, rfl, rfl, rfl, rfl⟩,
    fun b hp hl hu h => ignored_of hw (exec_selectorFrameRx_ignored hp hl hu h), fun b h => exec_selectorFrameRx_unserved h,
    fun b h => readSelector_bad h, fun lane hc => ?up, fun h => ?down0, fun h => ?down1, fun h => ?step⟩,
    fun s hw => ⟨fun r rest h hp hl hr => ?frame, fun h => ?noframe, fun a n rest h hc hroom => ⟨fun hd hr hb => ?_, fun hd hr hb => ?_,
      fun k hd => memoryWindow_refused h hc hroom hd⟩, fun a n rest h hc => exec_memoryWindowBurst_waits h hc, fun h => ?noburst⟩⟩
  case up =>
    refine ⟨s.fset ⟨R.obsStatus, lane, 1⟩ 1, ?_, onlyRegs_fset, fieldSet_fset_lt hw ?_ ?_⟩
    · rw [exec_obsLaneUp, execObsLaneUp, State.when, if_pos hc]
    · dsimp only
      omega
    · simp
  case down0 =>
    refine ⟨s.fset ⟨R.obsStatus, 0, 1⟩ 0, ?_, onlyRegs_fset, fieldSet_fset_lt hw (by decide) (by decide)⟩
    exact congrArg Host.Outcome.next (if_pos h)
  case down1 =>
    refine ⟨{ s.fset ⟨R.obsStatus, 1, 1⟩ 0 with obs := { s.obs with next := some none } }, ?_, ?_, rfl, ?_, rfl, rfl⟩
    · exact congrArg Host.Outcome.next (if_pos h)
    · exact fieldSet_of_rd (fieldSet_fset_lt hw (by decide) (by decide)) rfl
    · exact fun o ho => rd_fset_ne (by simpa using ho)
  case step => exact asWrite_writes (f := fun s => s.obsEndStep) h
  case frame =>
    refine ⟨_, _, _, _, _, exec_observationFrameSend_sends h hp hl, obsTake_ne_nil hr, ?_, obsStream_of_mem_obsTake _ _ _, rfl, rfl,
      vget_vset_self (obsStream_lt r), rfl, rfl⟩
    rw [h]
    exact obsTake_append _ _ _
  case noframe =>
    rw [exec_observationFrameSend, execObservationFrameSend]
    cases hco : s.obs.coll with
    | nil => rfl
    | cons r rest =>
      rcases h with h | h | h
      · exact absurd (hco.symm.trans h) (by simp)
      · simp only [h, State.when, Bool.false_and, Bool.false_eq_true, if_false]
      · simp only [h, State.when, Bool.and_false, Bool.false_eq_true, if_false]
  · obtain ⟨t, h1, h2, h3, h4, h5⟩ := memoryWindow_granted h hc hroom hd hr
    rw [hb, if_neg Bool.false_ne_true] at h3
    exact ⟨t, h1, h2, h3, h4, h5⟩
  · obtain ⟨t, h1, -, h3, h4, -⟩ := memoryWindow_granted h hc hroom hd hr
    rw [hb, if_pos rfl] at h3
    exact ⟨t, h1, h3, h4⟩
  case noburst => rw [exec_memoryWindowBurst, execMemoryWindowBurst, h]

end Sys2Proof.Machine
end

section
/-! Descriptors taken and commands completed (R332, R333, R338, R339, R341). -/

namespace Sys2Proof.Machine

variable {s t : State} {m : Master} {n : Nat} {c : Cmd}

/-! Doorbells. -/

theorem exec_hostDoorbell_writes {n : Fin 16} {v : W32} (hs : s.writes m (R.hostChnDoorbell n)) :
    exec (.hostDoorbell m n v) s = .next (s.doorbell m n v) := asWrite_writes (f := fun s => s.doorbell m n v) hs

/-- The master of the port that a ring belongs to, or MC. -/
def rings (m : Master) (n : Nat) : Prop := m = .mc ∨ (m = .host0 ∧ n < 8) ∨ (m = .host1 ∧ 8 ≤ n)

theorem doorbell_eq (s : State) (m : Master) (n : Nat) (v : W32) :
    (¬ rings m n → s.doorbell m n v = s.bump 0xB010) ∧
    (rings m n → s.ringSize n < (v - s.rd (R.hostChnTaken n)).toNat → s.doorbell m n v = s.ringError n 3 false) ∧
    (rings m n → (v - s.rd (R.hostChnTaken n)).toNat ≤ s.ringSize n →
      ((v - s.rd (R.hostChnTaken n)).toNat < (s.rd (R.hostChnProd n) - s.rd (R.hostChnTaken n)).toNat →
        s.doorbell m n v = s.bump 0xB010) ∧
      ((s.rd (R.hostChnProd n) - s.rd (R.hostChnTaken n)).toNat ≤ (v - s.rd (R.hostChnTaken n)).toNat →
        s.doorbell m n v = { s.wr (R.hostChnProd n) v with host := { s.host with quiet := s.host.quiet.del n } })) := by
  have hwrong : ((m == .host0 && decide (8 ≤ n)) || (m == .host1 && decide (n < 8))) = true ↔ ¬ rings m n := by
    cases m <;> simp [rings]
  have hi : s.ignoredIn 11 = s.bump 0xB010 := ignoredIn_eq (by decide)
  refine ⟨fun h => ?_, fun h hb => ?_, fun h hb => ⟨fun ha => ?_, fun ha => ?_⟩⟩
  · exact (if_pos (hwrong.mpr h)).trans hi
  · exact (if_neg fun e => hwrong.mp e h).trans (if_pos hb)
  · exact (if_neg fun e => hwrong.mp e h).trans ((if_neg (by omega)).trans ((if_pos ha).trans hi))
  · exact (if_neg fun e => hwrong.mp e h).trans ((if_neg (by omega)).trans (if_neg (by omega)))

/-- What a ring error shows, and that it moves nothing. -/
theorem ringError_shows {cause : Nat} {halt : Bool} (hw : s.regsWf = true) (hc : cause < 4) :
    let t := s.ringError n cause halt
    t.fget (F.hostChnErr_cause n) = cause ∧ (halt = true → t.fbit (F.hostChnErr_halted n) = true) ∧ t.out = s.out ++ [.msix (n / 8) 2] ∧
      t.host.cmds = s.host.cmds ∧ t.rd (R.hostChnTaken n) = s.rd (R.hostChnTaken n) ∧ t.rd (R.hostChnProd n) = s.rd (R.hostChnProd n) := by
  unfold State.ringError
  extract_lets u v
  have h1 := regsWf_fset (f := F.hostChnErr_cause n) (n := cause) hw
  have huw : u.regsWf = true := regsWf_bumpF h1
  have hcause : u.fget (F.hostChnErr_cause n) = cause := by
    refine (fget_fset_beside h1 (by simp) (by simp)).trans ((fget_fset hw (by simp)).trans (Nat.mod_eq_of_lt hc))
  have hrd (o : Nat) (ho : o ≠ R.hostChnErr n) : u.rd o = s.rd o := (rd_bumpF_ne ho).trans (rd_fset_ne ho)
  have huo : u.out = s.out := rfl
  have huh : u.host = s.host := rfl
  clear_value u
  have hv : v.fget (F.hostChnErr_cause n) = cause ∧ (halt = true → v.fbit (F.hostChnErr_halted n) = true) ∧ v.out = s.out ∧ v.host = s.host ∧
      (∀ o, o ≠ R.hostChnErr n → o ≠ R.hostStatus → v.rd o = s.rd o) := by
    dsimp only [v]
    have hoff : R.hostChnErr n ≠ R.hostStatus := by
      simp only [R.hostChnErr, R.hostStatus]
      omega
    cases halt with
    | false => exact ⟨hcause, fun e => absurd e (by decide), huo, huh, fun o ho _ => hrd o ho⟩
    | true =>
      refine ⟨?_, fun _ => ?_, huo, huh, fun o ho hs => (rd_fset_ne hs).trans ((rd_fset_ne ho).trans (hrd o ho))⟩
      · exact (fget_fset_off hoff).trans ((fget_fset_beside huw (by simp) (by simp)).trans hcause)
      · rw [State.fbit, if_pos rfl, fget_fset_off hoff, fget_fset huw (by simp)]
        rfl
  clear_value v
  obtain ⟨v1, v2, v3, v4, v5⟩ := hv
  refine ⟨v1, v2, congrArg (· ++ [Out.msix (n / 8) 2]) v3, congrArg HostS.cmds v4, v5 _ ?_ ?_, v5 _ ?_ ?_⟩ <;>
    simp only [R.hostChnErr, R.hostStatus, R.hostChnTaken, R.hostChnProd] <;> omega

/-- A register at none of the places of a frame. -/
theorem rd_of_frame {ps : List Part} {W : List Rect} {o : Nat} (h : Frame ps W s t) (hw : s.regsWf = true)
    (ho : ∀ r ∈ W, r.has o = false) : t.rd o = s.rd o :=
  h.rd hw (List.all_eq_true.mpr fun r hr => by rw [Rect.apart, ho r hr]; rfl)

/-! Completions. -/

/-- Each port shows whether its completion ring is full. -/
def showCqFull (s : State) : State := [0, 1].foldl (fun s p => s.fsetb (F.hostPpStatus_cqFull p) (s.portOn p && !s.cqRoom p)) s

theorem frame_showCqFull : Frame [.regs] [.fld (F.hostPpStatus_cqFull 0), .fld (F.hostPpStatus_cqFull 1)] s (showCqFull s) :=
  .foldl (fun u p hp => by
    simp only [List.mem_cons, List.not_mem_nil, or_false] at hp
    rcases hp with rfl | rfl <;> exact .fsetb) s

theorem completeAll_eq : s.completeAll = showCqFull ((List.range 16).foldl (fun s n => State.completeRing n s.host.cmds.length s) s) := rfl

theorem completeRing_rests (h : s.compReady n = none) : ∀ k, State.completeRing n k s = s
  | 0 => rfl
  | k + 1 => by rw [State.completeRing, h]

theorem compReady_none_of_ring (h : ∀ d ∈ s.host.cmds, d.ring ≠ n) : s.compReady n = none := by
  rw [State.compReady, List.find?_eq_none.mpr fun d hd => by simpa using h d hd]

theorem compReady_none_of_phase (h : ∀ d ∈ s.host.cmds, d.phase ≠ .done) : s.compReady n = none := by
  rw [State.compReady]
  split
  next d hd => exact if_neg fun e => h d (List.mem_of_find?_eq_some hd) e.1
  next => rfl

theorem completeAll_rests (h : ∀ d ∈ s.host.cmds, d.phase ≠ .done) : s.completeAll = showCqFull s := by
  rw [completeAll_eq]
  refine congrArg showCqFull (foldl_keeps (P := fun u => u = s) (fun u n _ hu => ?_) rfl)
  rw [hu, completeRing_rests (compReady_none_of_phase h)]

/-- With one command the completions are those of its ring. -/
theorem completeAll_single (h : s.host.cmds = [c]) (hr : c.ring < 16)
    (ht : ∀ d ∈ (State.completeRing c.ring 1 s).host.cmds, d.ring = c.ring) :
    s.completeAll = showCqFull (State.completeRing c.ring 1 s) := by
  rw [completeAll_eq]
  refine congrArg showCqFull (foldl_own (P := fun u => u = s) (Q := fun u => u = State.completeRing c.ring 1 s) List.nodup_range
    (List.mem_range.mpr hr) (fun u n _ hn hu => ?_) (fun u n _ hn hu => ?_) (fun u hu => ?_) rfl)
  · rw [hu, completeRing_rests (compReady_none_of_ring fun d hd => ?_)]
    rw [h, List.mem_singleton] at hd
    rw [hd]
    exact hn.symm
  · rw [hu, completeRing_rests (compReady_none_of_ring fun d hd => ?_)]
    rw [ht d hd]
    exact hn.symm
  · rw [hu, h]
    rfl

/-- A completion that may go on. -/
theorem compReady_single (h : s.host.cmds = [c]) (hp : c.phase = .done) (ht : s.token = true)
    (hw : ¬ (s.mod = .primary ∧ s.partner = .standby ∧ c.sealed = false)) (he : s.engineOk (c.ring / 8) = true) :
    s.compReady c.ring = some c := by
  have hf : s.host.cmds.find? (fun d => d.ring == c.ring) = some c := by
    rw [h, List.find?_cons_of_pos]
    exact beq_iff_eq.mpr rfl
  have hs : s.waitsSeal c = false := by
    rw [State.waitsSeal]
    by_contra hx
    rw [Bool.not_eq_false, Bool.and_eq_true, Bool.and_eq_true, beq_iff_eq, beq_iff_eq, Bool.not_eq_true', and_assoc] at hx
    exact hw hx
  rw [State.compReady, hf]
  exact if_pos ⟨hp, ht, by rw [hs]; rfl, he⟩

/-- One that may not. -/
theorem compReady_single_none (h : s.host.cmds = [c])
    (hn : s.token = false ∨ s.engineOk (c.ring / 8) = false ∨ s.mod = .primary ∧ s.partner = .standby ∧ c.sealed = false) :
    s.compReady c.ring = none := by
  have hf : s.host.cmds.find? (fun d => d.ring == c.ring) = some c := by
    rw [h, List.find?_cons_of_pos]
    exact beq_iff_eq.mpr rfl
  rw [State.compReady, hf]
  refine if_neg ?_
  rintro ⟨-, ht, hs, he⟩
  rcases hn with e | e | ⟨e1, e2, e3⟩
  · rw [e] at ht
    exact absurd ht (by decide)
  · rw [e] at he
    exact absurd he (by decide)
  · rw [State.waitsSeal, e1, e2, e3] at hs
    exact absurd hs (by decide)

theorem length_leBytes (k v : Nat) : (leBytes k v).length = k := by
  induction k generalizing v with
  | zero => rfl
  | succ k ih => rw [leBytes, List.length_cons, ih]

/-- The writes of a completion. -/
theorem compWrites_shows {q : PendComp} (hw : s.regsWf = true) (hr : q.ring < 16) :
    let p := q.ring / 8
    let slot := s.rd64 (R.hostChnBaseLo q.ring) + BitVec.ofNat 64 (q.count.toNat % s.ringSize q.ring * 64)
    let t := s.compWrites q
    t.host.cmds = s.host.cmds ∧ t.rd (R.hostChnDone q.ring) = q.count + 1 ∧ vget t.host.cq p = vget s.host.cq p + 1 ∧
      ∃ e, t.out = s.out ++ [.hostWrite p (slot + 56) (leBytes 4 q.status.toNat ++ leBytes 4 q.result.toNat),
        .hostWrite p slot (leBytes 4 (q.word0.toNat % 2 ^ 31)),
        .hostWrite p (s.rd64 (R.hostPpCqBaseLo p) + BitVec.ofNat 64 ((vget s.host.cq p).toNat % s.cqSize p * 32)) e] ++
        (if bitN q.word0.toNat 29 then [.msix p 0] else []) ∧ e.length = 32 := by
  have hp : q.ring / 8 < 2 := by omega
  unfold State.compWrites
  extract_lets p slot a b k size addr e d f _ u t0
  have hfo : f.out = s.out ++ [.hostWrite p (slot + 56) (leBytes 4 q.status.toNat ++ leBytes 4 q.result.toNat),
      .hostWrite p slot (leBytes 4 (q.word0.toNat % 2 ^ 31)), .hostWrite p addr e] ++ (if bitN q.word0.toNat 29 then [.msix p 0] else []) := by
    dsimp only [f]
    split <;> simp [d, b, a, State.emit]
  have hfr : f.regs = s.regs := by
    dsimp only [f]
    split <;> rfl
  have hfh : f.host = s.host := by
    dsimp only [f]
    split <;> rfl
  have hfa : f.act = s.act := by
    dsimp only [f]
    split <;> rfl
  have hlen : e.length = 32 := by
    simp [e, length_leBytes]
  have hfw : f.regsWf = true := by
    rw [State.regsWf, hfr, hfa]
    exact hw
  clear_value f e
  have hu1 := regsWf_wr (off := R.hostChnDone q.ring) (v := q.count + 1) (s := u) hfw
  have hoc := frame_obsCount ((u.wr (R.hostChnDone q.ring) (q.count + 1)).bump (R.hostPpCmds p)) 0x0B00
  have hocw := regsWf_bump (off := R.hostPpCmds p) hu1
  have hoch : State.host _ = u.host := hoc.part .host (by decide)
  refine ⟨?_, ?_, ?_, e, ?_, hlen⟩
  · rw [hoch]
    show f.host.cmds = s.host.cmds
    rw [hfh]
  · have hd := rd_of_frame hoc hocw (o := R.hostChnDone q.ring) fun r hr => by
      rw [List.mem_singleton.mp hr, ← Bool.not_eq_true, Rect.has_iff]
      simp only [R.hostChnDone]
      omega
    refine hd.trans ((rd_bump_ne ?_).trans (rd_wr_self hfw))
    simp only [R.hostChnDone, R.hostPpCmds]
    omega
  · rw [hoch]
    refine (vget_vset_self hp).trans ?_
    apply BitVec.eq_of_toNat_eq
    rw [BitVec.toNat_ofNat, BitVec.toNat_add]
    rfl
  · exact (hoc.part .out (by decide)).trans hfo

/-- The one command's completion, where nothing holds it back. -/
theorem completeAll_completes (hw : s.regsWf = true) (h : s.host.cmds = [c]) (hr : c.ring < 16) (hp : c.phase = .done) (ht : s.token = true)
    (hn : ¬ (s.mod = .primary ∧ s.partner = .standby ∧ c.sealed = false)) (he : s.engineOk (c.ring / 8) = true)
    (hb : c.comp.barrier = none ∨ c.barDone = true) :
    s.completeAll = showCqFull ({ s with host := { s.host with cmds := [] } }.compWrites c.comp) := by
  have hf : (s.host.cmds.filter fun d => d.id ≠ c.id) = [] := by
    rw [h]
    simp
  have hone : State.completeRing c.ring 1 s = { s with host := { s.host with cmds := [] } }.compWrites c.comp := by
    rw [State.completeRing, compReady_single h hp ht hn he]
    dsimp only
    rw [hf]
    cases hc : c.comp.barrier with
    | none => rfl
    | some a =>
      have hd : c.barDone = true := hb.resolve_left fun e => by
        rw [hc] at e
        cases e
      dsimp only
      rw [hd]
      rfl
  have hcmds : (({ s with host := { s.host with cmds := [] } } : State).compWrites c.comp).host.cmds = [] :=
    (compWrites_shows (s := { s with host := { s.host with cmds := [] } }) (q := c.comp) hw hr).1
  rw [completeAll_single h hr, hone]
  rw [hone, hcmds]
  exact fun d hd => absurd hd List.not_mem_nil

/-- A command that has ended with a status and a result. -/
def Cmd.ended (c : Cmd) (status result : Nat) : Cmd :=
  { c with phase := .done, status := BitVec.ofNat 32 status, result := BitVec.ofNat 32 result }

/-- The host's side with one command only. -/
def State.withCmd (s : State) (c : Cmd) : State := { s with host := { s.host with cmds := [c] } }

/-- A command whose barrier read has been sent. -/
def Cmd.asked (c : Cmd) : Cmd := { c with barSent := true }

theorem modCmd_single {f : Cmd → Cmd} (h : s.host.cmds = [c]) : s.modCmd c.id f = s.withCmd (f c) := by
  rw [State.modCmd, State.withCmd, h, List.map_singleton, if_pos rfl]

theorem cmdDone_single {status result : Nat} (h : s.host.cmds = [c]) (ha : c.acks = []) :
    s.cmdDone c.id status result = (s.withCmd (c.ended status result)).completeAll := by
  rw [State.cmdDone, modCmd_single h, if_pos ha]
  rfl

theorem rd_showCqFull {o : Nat} (hw : s.regsWf = true) (ho : ∀ p < 2, o ≠ R.hostPpStatus p) : (showCqFull s).rd o = s.rd o := by
  refine rd_of_frame frame_showCqFull hw fun r hr => ?_
  simp only [List.mem_cons, List.not_mem_nil, or_false] at hr
  have h0 := ho 0 (by decide)
  have h1 := ho 1 (by decide)
  simp only [R.hostPpStatus] at h0 h1
  rw [← Bool.not_eq_true]
  rcases hr with rfl | rfl <;> rw [Rect.has_iff] <;> simp only [F.hostPpStatus_cqFull, R.hostPpStatus] <;> omega

/-- What the completion of the one command shows. -/
theorem completeAll_shows (hw : s.regsWf = true) (h : s.host.cmds = [c]) (hr : c.ring < 16) (hp : c.phase = .done) (ht : s.token = true)
    (hn : ¬ (s.mod = .primary ∧ s.partner = .standby ∧ c.sealed = false)) (he : s.engineOk (c.ring / 8) = true)
    (hb : c.comp.barrier = none ∨ c.barDone = true) :
    let p := c.ring / 8
    let slot := s.rd64 (R.hostChnBaseLo c.ring) + BitVec.ofNat 64 (c.count.toNat % s.ringSize c.ring * 64)
    s.completeAll.host.cmds = [] ∧ s.completeAll.rd (R.hostChnDone c.ring) = c.count + 1 ∧
      vget s.completeAll.host.cq p = vget s.host.cq p + 1 ∧
      ∃ e, s.completeAll.out = s.out ++ [.hostWrite p (slot + 56) (leBytes 4 c.status.toNat ++ leBytes 4 c.result.toNat),
        .hostWrite p slot (leBytes 4 (c.desc.word0.toNat % 2 ^ 31)),
        .hostWrite p (s.rd64 (R.hostPpCqBaseLo p) + BitVec.ofNat 64 ((vget s.host.cq p).toNat % s.cqSize p * 32)) e] ++
        (if c.irq then [.msix p 0] else []) ∧ e.length = 32 := by
  intro p slot
  rw [completeAll_completes hw h hr hp ht hn he hb]
  obtain ⟨hc, hd, hq, e, ho, hl⟩ := compWrites_shows (s := { s with host := { s.host with cmds := [] } }) (q := c.comp) hw hr
  have hcw := frame_compWrites { s with host := { s.host with cmds := [] } } c.comp
  have htw : (({ s with host := { s.host with cmds := [] } } : State).compWrites c.comp).regsWf = true := hcw.canon hw
  generalize ({ s with host := { s.host with cmds := [] } } : State).compWrites c.comp = t at hc hd hq ho hcw htw ⊢
  have hf : Frame _ _ t (showCqFull t) := frame_showCqFull
  have hhost : (showCqFull t).host = t.host := hf.part .host (by decide)
  refine ⟨by rw [hhost]; exact hc, (rd_showCqFull htw fun p hp => ?_).trans hd, by rw [hhost]; exact hq, e,
    (hf.part .out (by decide)).trans ho, hl⟩
  simp only [R.hostChnDone, R.hostPpStatus]
  omega

/-- Where the one command may not complete, nothing is written. -/
theorem completeAll_held (h : s.host.cmds = [c]) (hr : c.ring < 16)
    (hn : s.token = false ∨ s.engineOk (c.ring / 8) = false ∨ s.mod = .primary ∧ s.partner = .standby ∧ c.sealed = false) :
    s.completeAll = showCqFull s := by
  have hone : State.completeRing c.ring 1 s = s := completeRing_rests (compReady_single_none h hn) 1
  rw [completeAll_single h hr, hone]
  rw [hone, h]
  exact fun d hd => by rw [List.mem_singleton.mp hd]

/-- With a data barrier the read goes out first. -/
theorem completeAll_barrier {a : W64} (h : s.host.cmds = [c]) (hr : c.ring < 16) (hp : c.phase = .done) (ht : s.token = true)
    (hn : ¬ (s.mod = .primary ∧ s.partner = .standby ∧ c.sealed = false)) (he : s.engineOk (c.ring / 8) = true)
    (hb : c.comp.barrier = some a) (hd : c.barDone = false) (hs : c.barSent = false) :
    s.completeAll = showCqFull ((s.withCmd c.asked).emit (.hostRead (c.ring / 8) a)) := by
  have hone : State.completeRing c.ring 1 s = (s.withCmd c.asked).emit (.hostRead (c.ring / 8) a) := by
    rw [State.completeRing, compReady_single h hp ht hn he]
    dsimp only
    rw [hb]
    dsimp only
    rw [if_neg (by rw [hd]; decide), if_neg (by rw [hs]; decide), modCmd_single h]
    rfl
  rw [completeAll_single h hr, hone]
  rw [hone]
  exact fun d hd => by
    rw [List.mem_singleton.mp hd]
    rfl

theorem exec_completionBarrierDone_single {n : Fin 16} (h : s.host.cmds = [c]) (hr : n.val = c.ring) (hs : c.barSent = true) :
    exec (.completionBarrierDone n) s = .next (s.withCmd { c with barDone := true }).completeAll := by
  have hf : s.host.cmds.find? (fun d => d.ring == n.val) = some c := by
    rw [h, List.find?_cons_of_pos]
    exact beq_iff_eq.mpr hr.symm
  rw [exec_completionBarrierDone, execCompletionBarrierDone, hf]
  dsimp only
  rw [State.when, if_pos hs, modCmd_single h]

/-- The read of a barrier is done, and the completion follows. -/
theorem barrierDone_completes {n : Fin 16} (hw : s.regsWf = true) (h : s.host.cmds = [c]) (hr : c.ring < 16) (hn : n.val = c.ring)
    (hp : c.phase = .done) (hs : c.barSent = true) (ht : s.token = true)
    (hq : ¬ (s.mod = .primary ∧ s.partner = .standby ∧ c.sealed = false)) (he : s.engineOk (c.ring / 8) = true) :
    ∃ u : State, exec (.completionBarrierDone n) s = .next u ∧ u.host.cmds = [] ∧ u.rd (R.hostChnDone c.ring) = c.count + 1 := by
  obtain ⟨h1, h2, -⟩ := completeAll_shows (s := s.withCmd { c with barDone := true }) (c := { c with barDone := true }) hw rfl hr hp ht hq he
    (.inr rfl)
  exact ⟨_, exec_completionBarrierDone_single h hn hs, h1, h2⟩

/-! Descriptors. -/

theorem nextRing_port {p : Nat} (h : s.nextRing p = some n) : n / 8 = p := by
  obtain ⟨k, -, rfl⟩ := List.mem_map.mp (List.mem_of_find?_eq_some h)
  omega

theorem exec_descriptorTake_next {p : Fin 2} {desc : Desc} (hm : s.mod ≠ .standby) (hn : s.nextRing p = some n) (hx : s.executing = true)
    (hd : s.power.doorbells = true) (he : s.engineOk p = true) (hr : s.cqRoom p = true) (hp : s.partner ≠ .standby)
    (hc : s.host.catchUp.has n = false) :
    exec (.descriptorTake p desc) s = .next (if !desc.word0.getLsbD 31 then s.ringError n 1 true
      else if fldN desc.word0.toNat 0 16 != (s.rd (R.hostChnTaken n)).toNat % 65536 then s.ringError n 2 true else s.takeDesc n desc) := by
  have hpb : (s.partner != .standby) = true := bne_iff_ne.mpr hp
  rw [exec_descriptorTake]
  unfold execDescriptorTake
  dsimp only
  rw [if_neg hm, hn]
  dsimp only
  rw [hx, hd, he, hr, hpb, hc, Bool.and_false, if_neg Bool.false_ne_true, bitN, BitVec.testBit_toNat]
  cases desc.word0.getLsbD 31
  · rfl
  · rfl

/-- A NOP is taken in its turn. -/
theorem takeDesc_nop {desc : Desc} (hw : s.regsWf = true) (hop : fldN desc.word0.toNat 16 8 = 1) (hc : s.host.cmds = []) (hn : n < 16) :
    let c : Cmd := { id := s.host.nextId, ring := n, count := s.rd (R.hostChnTaken n), desc := desc }
    (s.takeDesc n desc).host.cmds = [c] ∧ (s.takeDesc n desc).rd (R.hostChnTaken n) = s.rd (R.hostChnTaken n) + 1 ∧
      vget (s.takeDesc n desc).host.rr (n / 8) = n % 8 := by
  unfold State.takeDesc
  extract_lets c0 d e data c h0 u h1 v
  have hcop : e.opcode = 1 := hop
  have hdata : data = false := by
    simp only [data, hcop]
    rfl
  have hcc : c = c0 := by
    simp only [c, hdata, c0, e, d]
    rfl
  have hwv : v.regsWf = true := by
    dsimp only [v]
    split <;> exact regsWf_wr hw
  have hv : v.host.cmds = [c0] ∧ v.rd (R.hostChnTaken n) = d + 1 ∧ v.host.rr = vset s.host.rr (n / 8) (n % 8) := by
    have hu : u.host.cmds = [c0] ∧ u.rd (R.hostChnTaken n) = d + 1 ∧ u.host.rr = vset s.host.rr (n / 8) (n % 8) := by
      refine ⟨?_, rd_wr_self hw, rfl⟩
      simp only [u, wr_host, hcc, hc, List.nil_append]
    dsimp only [v]
    split
    · exact hu
    · exact hu
  clear_value v
  obtain ⟨hvc, hvt, hvr⟩ := hv
  have hcs : ∀ x ∈ v.host.cmds, x.phase = .ready := by
    rw [hvc]
    exact fun x hx => by rw [List.mem_singleton.mp hx]
  have hall : (if !opAssigned c.opcode then v.cmdDone c.id 256 0 else v.dmaGo.completeAll) = showCqFull v := by
    have hop1 : opAssigned c.opcode = true := by
      rw [hcc, show c0.opcode = 1 from hop]
      rfl
    rw [hop1, if_neg (by decide), dmaGo_idle fun x hx => by rw [hcs x hx]; rfl]
    exact completeAll_rests fun x hx => by rw [hcs x hx]; decide
  rw [hall]
  have hf : Frame _ _ v (showCqFull v) := frame_showCqFull
  have hhost : (showCqFull v).host = v.host := hf.part .host (by decide)
  rw [hhost]
  refine ⟨hvc, (rd_showCqFull hwv fun p hp => ?_).trans hvt, by rw [hvr]; exact vget_vset_self (by omega)⟩
  simp only [R.hostChnTaken, R.hostPpStatus]
  omega

/-- What each count written to a doorbell does. -/
theorem doorbell_clauses {n : Fin 16} {v : W32} (hw : s.regsWf = true) (hs : s.writes m (R.hostChnDoorbell n)) :
    let errs (cause : Nat) (halt : Bool) (t : State) : Prop := t.fget (F.hostChnErr_cause n) = cause ∧
      (halt = true → t.fbit (F.hostChnErr_halted n) = true) ∧ t.out = s.out ++ [.msix (n / 8) 2] ∧ t.host.cmds = s.host.cmds ∧
      t.rd (R.hostChnTaken n) = s.rd (R.hostChnTaken n) ∧ t.rd (R.hostChnProd n) = s.rd (R.hostChnProd n)
    let a := (s.rd (R.hostChnProd n) - s.rd (R.hostChnTaken n)).toNat
    let b := (v - s.rd (R.hostChnTaken n)).toNat
    (rings m n → a ≤ b → b ≤ s.ringSize n → ∃ t, exec (.hostDoorbell m n v) s = .next t ∧ t.rd (R.hostChnProd n) = v ∧
      keepsRegs [R.hostChnProd n] s t ∧ t.host = { s.host with quiet := t.host.quiet }) ∧
    (rings m n → b < a → b ≤ s.ringSize n → ∃ t, exec (.hostDoorbell m n v) s = .next t ∧ onlyRegs [0xB010] s t ∧
      (t.rd 0xB010).toNat = satAdd 32 (s.rd 0xB010).toNat 1) ∧
    (rings m n → s.ringSize n < b → ∃ t, exec (.hostDoorbell m n v) s = .next t ∧ errs 3 false t) ∧
    (¬ rings m n → ∃ t, exec (.hostDoorbell m n v) s = .next t ∧ onlyRegs [0xB010] s t ∧
      (t.rd 0xB010).toNat = satAdd 32 (s.rd 0xB010).toNat 1) := by
  intro errs a b
  obtain ⟨hother, hfar, hnear⟩ := doorbell_eq s m n v
  have hex := exec_hostDoorbell_writes (v := v) hs
  have hcount : onlyRegs [0xB010] s (s.bump 0xB010) ∧ ((s.bump 0xB010).rd 0xB010).toNat = satAdd 32 (s.rd 0xB010).toNat 1 :=
    ⟨onlyRegs_wr, toNat_rd_bump hw⟩
  refine ⟨fun ho hab hb => ⟨_, hex.trans (congrArg _ ((hnear ho hb).2 hab)), rd_wr_self hw, ?_, rfl⟩,
    fun ho hab hb => ⟨_, hex.trans (congrArg _ ((hnear ho hb).1 hab)), hcount⟩,
    fun ho hb => ⟨_, hex.trans (congrArg _ (hfar ho hb)), ringError_shows hw (by decide)⟩,
    fun ho => ⟨_, hex.trans (congrArg _ (hother ho)), hcount⟩⟩
  exact keepsRegs_trans (keepsRegs_wr (List.mem_singleton.mpr rfl)) 
    ((Frame.host (ps := [.host]) (W := []) (s := s.wr (R.hostChnProd n) v)).keepsRegs (regsWf_wr hw))

/-- What becomes of the descriptor of the ring that is next. -/
theorem descriptorTake_clauses {p : Fin 2} {desc : Desc} (hw : s.regsWf = true) (hm : s.mod ≠ .standby) (hn : s.nextRing p = some n)
    (hx : s.executing = true) (hd : s.power.doorbells = true) (he : s.engineOk p = true) (hr : s.cqRoom p = true)
    (hp : s.partner ≠ .standby) (hc : s.host.catchUp.has n = false) :
    let errs (cause : Nat) (halt : Bool) (t : State) : Prop := t.fget (F.hostChnErr_cause n) = cause ∧
      (halt = true → t.fbit (F.hostChnErr_halted n) = true) ∧ t.out = s.out ++ [.msix (n / 8) 2] ∧ t.host.cmds = s.host.cmds ∧
      t.rd (R.hostChnTaken n) = s.rd (R.hostChnTaken n) ∧ t.rd (R.hostChnProd n) = s.rd (R.hostChnProd n)
    let taken := s.rd (R.hostChnTaken n)
    let own := desc.word0.getLsbD 31 = true
    let seq := desc.word0.toNat % 65536 = taken.toNat % 65536
    (¬ own → ∃ t, exec (.descriptorTake p desc) s = .next t ∧ errs 1 true t) ∧
    (own → ¬ seq → ∃ t, exec (.descriptorTake p desc) s = .next t ∧ errs 2 true t) ∧
    (own → seq → fldN desc.word0.toNat 16 8 = 1 → s.host.cmds = [] →
      ∃ t c, exec (.descriptorTake p desc) s = .next t ∧ t.host.cmds = [c] ∧ c.desc = desc ∧ c.ring = n ∧ c.count = taken ∧
        c.phase = .ready ∧ t.rd (R.hostChnTaken n) = taken + 1 ∧ vget t.host.rr p.val = n % 8) := by
  intro errs taken own seq
  have hex := exec_descriptorTake_next (desc := desc) hm hn hx hd he hr hp hc
  have hfld : fldN desc.word0.toNat 0 16 = desc.word0.toNat % 65536 := by
    rw [fldN, Nat.pow_zero, Nat.div_one]
    rfl
  refine ⟨fun ho => ⟨_, hex.trans (congrArg _ (if_pos ?_)), ringError_shows hw (by decide)⟩,
    fun ho hs => ⟨_, hex.trans (congrArg _ ((if_neg ?_).trans (if_pos ?_))), ringError_shows hw (by decide)⟩, fun ho hs hop hcmds => ?_⟩
  · rw [Bool.not_eq_true', Bool.eq_false_iff]
    exact ho
  · rw [show desc.word0.getLsbD 31 = true from ho]
    decide
  · rw [hfld]
    exact bne_iff_ne.mpr hs
  · have hport := nextRing_port hn
    obtain ⟨h1, h2, h3⟩ := takeDesc_nop (desc := desc) (n := n) hw hop hcmds (by omega)
    refine ⟨_, _, hex.trans (congrArg _ ((if_neg ?_).trans (if_neg ?_))), h1, rfl, rfl, rfl, rfl, h2, ?_⟩
    · rw [show desc.word0.getLsbD 31 = true from ho]
      decide
    · rw [hfld, bne_iff_ne, not_not]
      exact hs
    · rw [← hport]
      exact h3

/-- A STANDBY counts a good descriptor as checked. -/
theorem exec_descriptorTake_standby {p : Fin 2} {desc : Desc} (hm : s.mod = .standby)
    (hf : ((List.range 8).map (p.val * 8 + ·)).find? (fun n => s.ringOn n && vget s.host.fetched n != s.rd (R.hostChnProd n)) = some n)
    (he : s.engineOk p = true) (ho : desc.word0.getLsbD 31 = true)
    (hs : desc.word0.toNat % 65536 = (vget s.host.fetched n).toNat % 65536) :
    exec (.descriptorTake p desc) s = .next { s with host := { s.host with
      fetched := vset s.host.fetched n (vget s.host.fetched n + 1) } } := by
  have hfld : fldN desc.word0.toNat 0 16 = desc.word0.toNat % 65536 := by
    rw [fldN, Nat.pow_zero, Nat.div_one]
    rfl
  rw [exec_descriptorTake]
  unfold execDescriptorTake
  dsimp only
  rw [if_pos hm, hf]
  dsimp only
  refine congrArg Host.Outcome.next ((if_pos he).trans ((if_neg ?_).trans (if_neg ?_)))
  · rw [bitN, BitVec.testBit_toNat, ho]
    decide
  · rw [hfld, ne_eq, not_not]
    exact hs

theorem exec_descriptorTake_none {p : Fin 2} {desc : Desc} (hm : s.mod ≠ .standby) (hn : s.nextRing p = none) :
    exec (.descriptorTake p desc) s = .next s := by
  rw [exec_descriptorTake]
  unfold execDescriptorTake
  dsimp only
  rw [if_neg hm, hn]

/-- The completion of the one command that is executed. -/
theorem cmdDone_clauses {status result : Nat} (hw : s.regsWf = true) (h : s.host.cmds = [c]) (hr : c.ring < 16) (ha : c.acks = []) :
    let p := c.ring / 8
    let t := s.cmdDone c.id status result
    let slot := s.rd64 (R.hostChnBaseLo c.ring) + BitVec.ofNat 64 (c.count.toNat % s.ringSize c.ring * 64)
    let waits := s.mod = .primary ∧ s.partner = .standby ∧ c.sealed = false
    (s.token = true → s.engineOk p = true → ¬ waits → (c.barrier = false ∨ c.lastAddr = none) →
      t.host.cmds = [] ∧ t.rd (R.hostChnDone c.ring) = c.count + 1 ∧ vget t.host.cq p = vget s.host.cq p + 1 ∧
      (∃ e, t.out = s.out ++ [.hostWrite p (slot + 56) (leBytes 4 (status % 2 ^ 32) ++ leBytes 4 (result % 2 ^ 32)),
        .hostWrite p slot (leBytes 4 (c.desc.word0.toNat % 2 ^ 31)),
        .hostWrite p (s.rd64 (R.hostPpCqBaseLo p) + BitVec.ofNat 64 ((vget s.host.cq p).toNat % s.cqSize p * 32)) e] ++
        (if c.irq then [.msix p 0] else []) ∧ e.length = 32)) ∧
    ((s.token = false ∨ s.engineOk p = false ∨ waits) → t.out = s.out ∧ t.rd (R.hostChnDone c.ring) = s.rd (R.hostChnDone c.ring) ∧
      t.host.cmds = [{ c with phase := .done, status := BitVec.ofNat 32 status, result := BitVec.ofNat 32 result }]) ∧
    (∀ a (n : Fin 16), n.val = c.ring → s.token = true → s.engineOk p = true → ¬ waits → c.barrier = true → c.lastAddr = some a →
      c.barSent = false → c.barDone = false → t.out = s.out ++ [.hostRead p a] ∧ (∃ d, t.host.cmds = [d] ∧ d.phase = .done ∧ d.barSent = true) ∧
        ∃ u : State, exec (.completionBarrierDone n) t = .next u ∧ u.host.cmds = [] ∧ u.rd (R.hostChnDone c.ring) = c.count + 1) := by
  intro p t slot waits
  have ht : t = (s.withCmd (c.ended status result)).completeAll := cmdDone_single h ha
  have hdone (u : State) (hu : u.regsWf = true) : (showCqFull u).rd (R.hostChnDone c.ring) = u.rd (R.hostChnDone c.ring) :=
    rd_showCqFull hu fun p hp => by simp only [R.hostChnDone, R.hostPpStatus]; omega
  have hcq (u : State) : Frame [.regs] [.fld (F.hostPpStatus_cqFull 0), .fld (F.hostPpStatus_cqFull 1)] u (showCqFull u) := frame_showCqFull
  have hhost (u : State) : (showCqFull u).host = u.host := (hcq u).part .host (by decide)
  have hout (u : State) : (showCqFull u).out = u.out := (hcq u).part .out (by decide)
  clear_value t
  refine ⟨fun h1 h2 h3 h4 => ?_, fun h1 => ?_, fun a n hn h1 h2 h3 h4 h5 h6 h7 => ?_⟩
  · have hb : (c.ended status result).comp.barrier = none := by
      show (if c.barrier then c.lastAddr else none) = none
      rcases h4 with h4 | h4 <;> rw [h4]
      · rfl
      · exact ite_self _
    obtain ⟨g1, g2, g3, e, g4, g5⟩ := completeAll_shows (s := s.withCmd (c.ended status result)) (c := c.ended status result) hw rfl hr rfl h1 h3 h2
      (.inl hb)
    rw [ht]
    have hs : (c.ended status result).status.toNat = status % 2 ^ 32 := BitVec.toNat_ofNat ..
    have hr : (c.ended status result).result.toNat = result % 2 ^ 32 := BitVec.toNat_ofNat ..
    rw [hs, hr] at g4
    exact ⟨g1, g2, g3, e, g4, g5⟩
  · have hheld := completeAll_held (s := s.withCmd (c.ended status result)) (c := c.ended status result) rfl hr h1
    rw [ht, hheld, hhost, hout]
    exact ⟨rfl, hdone _ hw, rfl⟩
  · have hb : (c.ended status result).comp.barrier = some a := by
      show (if c.barrier then c.lastAddr else none) = some a
      rw [h4, if_pos rfl, h5]
    have hfirst := completeAll_barrier (s := s.withCmd (c.ended status result)) (c := c.ended status result) rfl hr rfl h1 h3 h2 hb h7 h6
    have hring : (c.ended status result).ring = c.ring := rfl
    rw [hring] at hfirst
    have hu := hcq (((s.withCmd (c.ended status result)).withCmd (c.ended status result).asked).emit (.hostRead (c.ring / 8) a))
    have huh := hhost (((s.withCmd (c.ended status result)).withCmd (c.ended status result).asked).emit (.hostRead (c.ring / 8) a))
    have huo := hout (((s.withCmd (c.ended status result)).withCmd (c.ended status result).asked).emit (.hostRead (c.ring / 8) a))
    rw [← hfirst, ← ht] at hu huh huo
    have hc : t.host.cmds = [(c.ended status result).asked] := congrArg HostS.cmds huh
    have htok : t.token = s.token := hu.fbit hw
    have hmod : t.mod = s.mod := hu.mod hw
    have hpar : t.partner = s.partner := congrArg modOfCode (hu.fget hw)
    have heng := (engineOk_of_frame hu (p := c.ring / 8) hw (by omega)).trans h2
    have hnot : ¬ (t.mod = .primary ∧ t.partner = .standby ∧ c.sealed = false) := by
      rw [hmod, hpar]
      exact h3
    exact ⟨huo, ⟨_, hc, rfl, rfl⟩, barrierDone_completes (c := (c.ended status result).asked) (hu.canon hw) hc hr hn rfl rfl (htok.trans h1) hnot heng⟩

/-- Settles O54: which doorbell counts are taken; what becomes of a descriptor; and how a command that is the only one completes. -/
theorem hostCommandsTakenAndCompleted : Obligations.HostCommandsTakenAndCompleted := by
  refine ⟨fun s hw => ⟨fun m n v hs => doorbell_clauses hw hs, fun p n desc hm hn hx hd he hr hp hc => ?_, fun p desc hm hn => ?_,
    fun p desc n hm hf he ho hs => ?_⟩, fun c status result s hw h hr ha => ?_⟩
  · obtain ⟨h1, h2, h3⟩ := descriptorTake_clauses (desc := desc) hw hm hn hx hd he hr hp hc
    exact ⟨h1, h2, fun ho hs _ hop hcm => h3 ho hs hop hcm⟩
  · exact exec_descriptorTake_none hm hn
  · exact exec_descriptorTake_standby hm hf he ho hs
  · obtain ⟨h1, h2, h3⟩ := cmdDone_clauses (status := status) (result := result) hw h hr ha
    exact ⟨h1, h2, h3, (frame_cmdDone s c.id status result).part .mem (by decide)⟩

end Sys2Proof.Machine
end

section
/-! Commands refused, and commands that read (R31, R334 to R337, R416, R417). -/

namespace Sys2Proof.Machine

variable {s t : State} {n op : Nat} {c : Cmd} {f : State → Cmd → State}

/-! A command that its ring begins. -/

theorem runCmd_none (h : s.toBegin n op = none) : s.runCmd n op f = .next s := by
  rw [State.runCmd, h]

/-- What a command that is refused leaves counted before it completes. -/
def countRefused (s : State) (op : Nat) (c : Cmd) : State := if op = 0x06 then s.vwRefuse c.symId else s

theorem runCmd_begins (h : s.begins n op c) : s.runCmd n op f = .next
    (if c.bad then (countRefused s op c).cmdDone c.id 0x0101 0
     else if !opAllowed op s.mod (s.partner == .off) then
       (if op = 0x09 ∧ s.mod = .service then s.olcCode 0x0C 0 else countRefused s op c).cmdDone c.id 0x0102 (modCode s.mod)
     else if opP op && c.target then s.toPartner c
     else f s c) := by
  obtain ⟨hb, hx, hm⟩ := h
  rw [State.runCmd, hb]
  dsimp only
  rw [hx, hm]
  rfl

theorem runCmd_rests (h : s.executing = false) : s.runCmd n op f = .next s := by
  rw [State.runCmd]
  split
  next => rfl
  next => exact congrArg Host.Outcome.next (if_neg (by simp [h]))

theorem runCmd_bad (h : s.begins n op c) (hb : c.bad = true) :
    s.runCmd n op f = .next ((countRefused s op c).cmdDone c.id 0x0101 0) :=
  (runCmd_begins h).trans (congrArg _ (if_pos hb))

theorem runCmd_disallowed (h : s.begins n op c) (hb : c.bad = false) (ha : opAllowed op s.mod (s.partner == .off) = false)
    (hs : op ≠ 0x09 ∨ s.mod ≠ .service) :
    s.runCmd n op f = .next ((countRefused s op c).cmdDone c.id 0x0102 (modCode s.mod)) := by
  rw [runCmd_begins h, if_neg (by simp [hb]), if_pos (by simp [ha]), if_neg (by tauto)]

theorem runCmd_toPartner (h : s.begins n op c) (hb : c.bad = false) (ha : opAllowed op s.mod (s.partner == .off) = true)
    (hp : opP op = true) (ht : c.target = true) : s.runCmd n op f = .next (s.toPartner c) := by
  rw [runCmd_begins h, if_neg (by simp [hb]), if_neg (by simp [ha]), if_pos (by simp [hp, ht])]

theorem runCmd_accepts (h : s.begins n op c) (ha : s.accepts op c) : s.runCmd n op f = .next (f s c) := by
  obtain ⟨hb, ha, ht⟩ := ha
  rw [runCmd_begins h, if_neg (by simp [hb]), if_neg (by simp [ha]), if_neg (by simp [ht])]

theorem mem_of_toBegin (h : s.toBegin n op = some c) : c ∈ s.host.cmds := by
  rw [State.toBegin] at h
  split at h
  next => cases h
  next d hd =>
    dsimp only at h
    split at h
    next => exact Option.some.inj h ▸ List.mem_of_find?_eq_some hd
    next => cases h

/-- A command for the partner is forwarded. -/
theorem toPartner_forwards (hm : c ∈ s.host.cmds) (hp : s.partner ≠ .off) :
    (∃ m ∈ (s.toPartner c).pair.msgs, m.body = .forwarded c.ring c.desc) ∧
      ∃ d ∈ (s.toPartner c).host.cmds, d.id = c.id ∧ d.phase = .forwarded := by
  rw [State.toPartner, if_neg hp]
  have hs := Frame.send (ps := [.out, .pair]) (W := []) (s := s.modCmd c.id (fun d => { d with phase := .forwarded }))
    (e := .forwarded c.ring c.desc)
  have hh : State.host _ = _ := hs.part .host (by decide)
  refine ⟨send_msgs, ?_⟩
  rw [hh]
  exact ⟨{ c with phase := .forwarded }, List.mem_map.mpr ⟨c, hm, if_pos rfl⟩, rfl, rfl⟩

/-! Commands that read. -/

theorem spanAccess_granted {cls a k : Nat} {w : AccKind} (h : (s.spanAccess cls w a k).2 = true) : (s.spanAccess cls w a k).1 = s := by
  have hfold (l : List Nat) : ∀ x : State × Bool, (x.2 = true → x.1 = s) →
      (l.foldl (fun (x : State × Bool) p => if !x.2 then x else x.1.catAccess cls 0 w p) x).2 = true →
      (l.foldl (fun (x : State × Bool) p => if !x.2 then x else x.1.catAccess cls 0 w p) x).1 = s := by
    induction l with
    | nil => exact fun x hx h => hx h
    | cons p l ih =>
      refine fun x hx => ih _ ?_
      dsimp only
      cases hn : x.2 with
      | false => exact fun e => absurd (hn.symm.trans e) (by decide)
      | true =>
        unfold State.catAccess
        cases x.1.catDecide cls w p with
        | none => exact fun _ => hx hn
        | some _ => exact fun e => absurd e Bool.false_ne_true
  exact hfold _ _ (fun _ => rfl) h

theorem mcAccess_granted {a k : Nat} {w : AccKind} (h : (s.mcAccess w a k).2 = true) : (s.mcAccess w a k).1 = s := by
  have hg : (s.spanAccess clsMc w a k).2 = true := h
  rw [State.mcAccess]
  dsimp only
  rw [if_pos hg]
  exact spanAccess_granted hg

theorem length_recBytes (r : Record) : (recBytes r).length = 64 := by
  have h6 (l : List W64) : ((l ++ List.replicate 6 0).take 6).length = 6 := by simp
  simp only [recBytes, List.length_append, length_leBytes, List.length_flatMap, List.map_const', List.sum_replicate, h6]
  rfl

/-- The flushed records from an index on: as many as are asked for, or all that there are. -/
theorem recBytesFrom_eq (first k : Nat) : ∃ j ≤ k, s.recBytesFrom first k = ((s.recd.area.drop first).take j).flatMap recBytes ∧
    (s.recBytesFrom first k).length / 64 = j ∧ (j < k → first + j ≥ s.recd.area.length) := by
  have hlen (l : List Record) : (l.flatMap recBytes).length = l.length * 64 := by
    simp only [List.length_flatMap, length_recBytes, List.map_const', List.sum_replicate, smul_eq_mul]
  refine ⟨min k (s.recd.area.drop first).length, Nat.min_le_left .., ?_, ?_, fun h => ?_⟩
  · rw [State.recBytesFrom, ← List.take_eq_take_min]
  · rw [State.recBytesFrom, hlen, List.length_take, Nat.mul_div_cancel _ (by decide)]
  · rw [List.length_drop] at h ⊢
    omega

/-- The registers of the status block between the first and the last. -/
def statusMiddle : List Nat := [R.pairHealth, R.scanStatus, R.scanCycleLo, R.scanCycleHi, R.brmStatus, R.brmReserve, R.rfxStatus,
  R.olcStatus, R.olcActIdLo, R.olcActIdHi, R.olcActVer, R.dioStatus, R.acqStatus, R.ringStatus, R.canStatus]

/-- The block of status words that STATUS moves. -/
theorem statusBlock_shows : s.statusBlock.length = 256 ∧ s.statusBlock.take 4 = leBytes 4 (s.rd R.pairStatus).toNat ∧
    (s.statusBlock.drop 64).take 4 = leBytes 4 (s.rd R.drayStatus).toNat ∧ s.statusBlock.drop 68 = List.replicate 188 0 := by
  have he : s.statusBlock = leBytes 4 (s.rd R.pairStatus).toNat ++ (statusMiddle.flatMap (fun o => leBytes 4 (s.rd o).toNat) ++
      (leBytes 4 (s.rd R.drayStatus).toNat ++ List.replicate 188 0)) := by
    simp only [State.statusBlock, statusMiddle, List.flatMap_cons, List.flatMap_nil, List.append_nil, List.append_assoc]
  have hm : (statusMiddle.flatMap (fun o => leBytes 4 (s.rd o).toNat)).length = 60 := by
    simp only [List.length_flatMap, length_leBytes, List.map_const', List.sum_replicate]
    rfl
  rw [he]
  generalize statusMiddle.flatMap (fun o => leBytes 4 (s.rd o).toNat) = mid at hm
  refine ⟨?_, ?_, ?_, ?_⟩
  · simp only [List.length_append, length_leBytes, hm, List.length_replicate]
  · exact List.take_left' (length_leBytes ..)
  · rw [← List.append_assoc, List.drop_left' (by simp only [List.length_append, length_leBytes, hm])]
    exact List.take_left' (length_leBytes ..)
  · rw [← List.append_assoc, ← List.append_assoc, List.drop_left' (by simp only [List.length_append, length_leBytes, hm])]

/-- The answers of READ_SYM. -/
theorem readSym_clauses {n : Fin 16} (hb : s.begins n 0x04 c) (ha : s.accepts 0x04 c) :
    let off := c.desc.arg0.toNat
    (s.sym s.bank c.symId = none → exec (.readSym n) s = .next (s.cmdDone c.id 0x0105 0)) ∧
    (∀ y, s.sym s.bank c.symId = some y →
      (y.size < off + c.length → exec (.readSym n) s = .next (s.cmdDone c.id 0x0101 0)) ∧
      (off + c.length ≤ y.size → y.kind = 3 → (s.mcAccess .read (s.symAddr s.bank y + off) c.length).2 = true →
        exec (.readSym n) s = .next (s.dataOut c (some (s.mem.bytesAt (s.symAddr s.bank y + off) c.length)) 0 0)) ∧
      (off + c.length ≤ y.size → y.kind = 3 → (s.mcAccess .read (s.symAddr s.bank y + off) c.length).2 = false →
        exec (.readSym n) s = .next ((s.mcAccess .read (s.symAddr s.bank y + off) c.length).1.cmdDone c.id 0x0103 0)) ∧
      (off + c.length ≤ y.size → y.kind ≠ 3 →
        exec (.readSym n) s = .next (s.modCmd c.id (fun d => { d with phase := .waitCommit })))) := by
  intro off
  refine ⟨fun hs => ?_, fun y hs => ⟨fun hl => ?_, fun hl hk hg => ?_, fun hl hk hg => ?_, fun hl hk => ?_⟩⟩ <;>
    rw [exec_readSym, execReadSym, runCmd_accepts hb ha] <;> dsimp only <;> rw [hs] <;> refine congrArg Host.Outcome.next ?_
  · exact if_pos hl
  · refine (if_neg (by omega)).trans ((if_pos hk).trans ((if_pos hg).trans ?_))
    rw [mcAccess_granted hg, State.symRead]
    rw [if_neg (by omega)]
  · exact (if_neg (by omega)).trans ((if_pos hk).trans (if_neg (Bool.eq_false_iff.mp hg)))
  · exact (if_neg (by omega)).trans (if_neg hk)

/-! REC_CTRL. -/

theorem recCmd_begins {action : Nat} (hb : s.begins n 0x17 c) (hc : s.accepts 0x17 c) (ha : fldN c.desc.arg0.toNat 0 2 = action) :
    s.recCmd n action = .next (((s.modCmd c.id (fun d => { d with phase := .waitEffect })).recAsk action (.command c.id)).getD
      (s.cmdDone c.id 0x0103 0)) := by
  rw [State.recCmd, hb.1]
  dsimp only
  rw [if_pos (.inr ha), runCmd_accepts hb hc]

theorem freeze_acts {a : Asker} (hz : s.fbit F.recStatus_frozen = false) (hq : s.recd.freezeReq = none) (hr : s.recd.rearming = none)
    (hf : s.fbit F.recStatus_flushing = false) :
    s.freeze a = some ({ s.fset F.recStatus_frozen 1 with recd := { s.recd with frozenS := 0 } }.tellAsker a) := by
  rw [State.freeze, State.frozen, State.flushing, hz, hq, hr, hf]
  rfl

theorem freeze_frozen {a : Asker} (hz : s.fbit F.recStatus_frozen = true) : s.freeze a = none := by
  rw [State.freeze, State.frozen, hz]
  rfl

/-- The state in which a freeze has ended. -/
def unfrozen (s : State) : State :=
  let t := (s.fset F.recStatus_frozen 0).overflowRecord
  if t.flushDue then t.flushStart false else t

theorem unfreeze_acts (hz : s.fbit F.recStatus_frozen = true) : s.unfreeze = some (unfrozen s) := by
  rw [State.unfreeze, State.frozen, hz]
  rfl

theorem unfreeze_running (hz : s.fbit F.recStatus_frozen = false) : s.unfreeze = none := by
  rw [State.unfreeze, State.frozen, hz]
  rfl

theorem unfrozen_shows (hw : s.regsWf = true) (ho : s.recd.ovfCount = 0) :
    (unfrozen s).fbit F.recStatus_frozen = false ∧ (unfrozen s).host = s.host := by
  have hz : (s.fset F.recStatus_frozen 0).fbit F.recStatus_frozen = false := by
    rw [fbit_fset hw (by decide)]
    rfl
  have hfs : (s.fset F.recStatus_frozen 0).overflowRecord = s.fset F.recStatus_frozen 0 := if_pos ho
  have hwf : (s.fset F.recStatus_frozen 0).regsWf = true := regsWf_fset hw
  have hh : (s.fset F.recStatus_frozen 0).host = s.host := fset_host ..
  rw [unfrozen, hfs]
  generalize s.fset F.recStatus_frozen 0 = t at hz hwf hh
  have hf : Frame [.regs] [.fld F.recStatus_flushing] t (if t.flushDue then t.flushStart false else t) :=
    .ite (.ite (.refl _) .fset) (.refl _)
  have hhost : State.host _ = t.host := hf.part .host (by decide)
  exact ⟨(hf.fbit hwf).trans hz, hhost.trans hh⟩

theorem rearm_acts {a : Asker} (hz : s.fbit F.recStatus_frozen = true) (hr : s.recd.rearming = none) :
    s.rearm a = some { (s.fset F.recStatus_frozen 0).fset F.recStatus_erasing 1 with recd := { s.recd with rearming := some a } } := by
  rw [State.rearm, State.frozen, hz, hr]
  rfl

theorem rearm_running {a : Asker} (hz : s.fbit F.recStatus_frozen = false) : s.rearm a = none := by
  rw [State.rearm, State.frozen, hz]
  rfl

/-- The host's side while a REC_CTRL command waits for its effect. -/
def recAsked (s : State) (c : Cmd) : State := s.modCmd c.id (fun d => { d with phase := .waitEffect })

theorem frame_recAsked : Frame [.host] [] s (recAsked s c) := frame_modCmd ..

theorem recCtrl_freeze {n : Fin 16} (hw : s.regsWf = true) (hb : s.begins n 0x17 c) (hc : s.accepts 0x17 c)
    (ha : fldN c.desc.arg0.toNat 0 2 = 0) :
    (s.fbit F.recStatus_frozen = false → s.recd.freezeReq = none → s.recd.rearming = none → s.fbit F.recStatus_flushing = false →
      ∃ u : State, exec (.recCtrlFreeze n) s = .next (u.cmdDone c.id 0 0) ∧ u.fbit F.recStatus_frozen = true ∧
        u.host = (recAsked s c).host) ∧
    (s.fbit F.recStatus_frozen = true → exec (.recCtrlFreeze n) s = .next (s.cmdDone c.id 0x0103 0)) := by
  have hf := frame_recAsked (s := s) (c := c)
  have hfr : (recAsked s c).fbit F.recStatus_frozen = s.fbit F.recStatus_frozen := hf.fbit hw
  have hfl : (recAsked s c).fbit F.recStatus_flushing = s.fbit F.recStatus_flushing := hf.fbit hw
  have hrec : (recAsked s c).recd = s.recd := hf.part .recd (by decide)
  have haw := hf.canon hw
  have hex : exec (.recCtrlFreeze n) s = .next (((recAsked s c).recAsk 0 (.command c.id)).getD (s.cmdDone c.id 0x0103 0)) :=
    (exec_recCtrlFreeze s n).trans (recCmd_begins hb hc ha)
  refine ⟨fun hz hq hr hfn => ⟨{ (recAsked s c).fset F.recStatus_frozen 1 with recd := { (recAsked s c).recd with frozenS := 0 } }, ?_, ?_, ?_⟩,
    fun hz => ?_⟩
  · rw [hex, State.recAsk, freeze_acts (hfr.trans hz) (hrec ▸ hq) (hrec ▸ hr) (hfl.trans hfn), Option.getD_some,
      State.tellAsker]
  · have hu : Frame [.recd] [] ((recAsked s c).fset F.recStatus_frozen 1)
        { (recAsked s c).fset F.recStatus_frozen 1 with recd := { (recAsked s c).recd with frozenS := 0 } } := .recd
    rw [hu.fbit (regsWf_fset haw), fbit_fset haw (by decide)]
    rfl
  · exact fset_host (recAsked s c) F.recStatus_frozen 1
  · rw [hex, State.recAsk, freeze_frozen (hfr.trans hz), Option.getD_none]

theorem recCtrl_unfreeze {n : Fin 16} (hw : s.regsWf = true) (hb : s.begins n 0x17 c) (hc : s.accepts 0x17 c)
    (ha : fldN c.desc.arg0.toNat 0 2 = 1) :
    (s.fbit F.recStatus_frozen = true → s.recd.ovfCount = 0 → ∃ u : State, exec (.recCtrlUnfreeze n) s = .next (u.cmdDone c.id 0 0) ∧
      u.fbit F.recStatus_frozen = false ∧ u.host = (recAsked s c).host) ∧
    (s.fbit F.recStatus_frozen = false → exec (.recCtrlUnfreeze n) s = .next (s.cmdDone c.id 0x0103 0)) := by
  have hf := frame_recAsked (s := s) (c := c)
  have hfr : (recAsked s c).fbit F.recStatus_frozen = s.fbit F.recStatus_frozen := hf.fbit hw
  have hrec : (recAsked s c).recd = s.recd := hf.part .recd (by decide)
  have hex : exec (.recCtrlUnfreeze n) s = .next (((recAsked s c).recAsk 1 (.command c.id)).getD (s.cmdDone c.id 0x0103 0)) :=
    (exec_recCtrlUnfreeze s n).trans (recCmd_begins hb hc ha)
  refine ⟨fun hz ho => ⟨unfrozen (recAsked s c), ?_, unfrozen_shows (hf.canon hw) (by rw [hrec]; exact ho)⟩, fun hz => ?_⟩
  · rw [hex, State.recAsk, unfreeze_acts (hfr.trans hz), Option.map_some, Option.getD_some, State.tellAsker]
  · rw [hex, State.recAsk, unfreeze_running (hfr.trans hz), Option.map_none, Option.getD_none]

theorem recCtrl_rearm {n : Fin 16} (hw : s.regsWf = true) (hb : s.begins n 0x17 c) (hc : s.accepts 0x17 c)
    (ha : fldN c.desc.arg0.toNat 0 2 = 2) :
    (s.fbit F.recStatus_frozen = true → s.recd.rearming = none → ∃ t, exec (.recCtrlRearm n) s = .next t ∧
      t.recd.rearming = some (.command c.id) ∧ t.fbit F.recStatus_erasing = true ∧ t.host = (recAsked s c).host) ∧
    (s.fbit F.recStatus_frozen = false → exec (.recCtrlRearm n) s = .next (s.cmdDone c.id 0x0103 0)) := by
  have hf := frame_recAsked (s := s) (c := c)
  have hfr : (recAsked s c).fbit F.recStatus_frozen = s.fbit F.recStatus_frozen := hf.fbit hw
  have hrec : (recAsked s c).recd = s.recd := hf.part .recd (by decide)
  have hwz : ((recAsked s c).fset F.recStatus_frozen 0).regsWf = true := regsWf_fset (hf.canon hw)
  have hex : exec (.recCtrlRearm n) s = .next (((recAsked s c).recAsk 2 (.command c.id)).getD (s.cmdDone c.id 0x0103 0)) :=
    (exec_recCtrlRearm s n).trans (recCmd_begins hb hc ha)
  refine ⟨fun hz hr => ⟨{ ((recAsked s c).fset F.recStatus_frozen 0).fset F.recStatus_erasing 1 with
    recd := { (recAsked s c).recd with rearming := some (.command c.id) } }, ?_, rfl, ?_, ?_⟩, fun hz => ?_⟩
  · rw [hex, State.recAsk, rearm_acts (hfr.trans hz) (hrec ▸ hr), Option.getD_some]
  · have hu : Frame [.recd] [] (((recAsked s c).fset F.recStatus_frozen 0).fset F.recStatus_erasing 1)
        { ((recAsked s c).fset F.recStatus_frozen 0).fset F.recStatus_erasing 1 with
          recd := { (recAsked s c).recd with rearming := some (.command c.id) } } := .recd
    rw [hu.fbit (regsWf_fset hwz), fbit_fset hwz (by decide)]
    rfl
  · exact (fset_host ((recAsked s c).fset F.recStatus_frozen 0) F.recStatus_erasing 1).trans (fset_host ..)
  · rw [hex, State.recAsk, rearm_running (hfr.trans hz), Option.getD_none]

/-- A BULK_SEND command whose data have joined the bulk stream. -/
def bulkJoined (s : State) (c : Cmd) : State :=
  let t := s.modCmd c.id (fun d => { d with phase := .bulk })
  { t with dray := { t.dray with bulk := t.dray.bulk ++ [{ cmd := c.id, addr := c.desc.modAddr.toNat, len := c.length, tag := c.desc.tag }] } }

/-! The obligation. -/

/-- The commands of the host rings but REC_CTRL, each with its opcode. -/
def ringCommand (n : Fin 16) (i : Instr) (op : Nat) : Prop :=
  (i = .cmdNop n ∧ op = 0x01) ∨ (i = .statusCmd n ∧ op = 0x02) ∨ (i = .readMem n ∧ op = 0x03) ∨ (i = .readSym n ∧ op = 0x04) ∨
  (i = .configCmd n ∧ op = 0x05) ∨ (i = .valueWrite n ∧ op = 0x06) ∨ (i = .forceSet n ∧ op = 0x07) ∨
  (i = .forceRelease n ∧ op = 0x08) ∨ (i = .pkgLoad n ∧ op = 0x09) ∨ (i = .pkgSwitch n ∧ op = 0x0A) ∨
  (i = .pkgCancel n ∧ op = 0x0B) ∨ (i = .pkgDiscard n ∧ op = 0x0C) ∨ (i = .constPatch n ∧ op = 0x0D) ∨
  (i = .keyEnrol n ∧ op = 0x0E) ∨ (i = .keyRemove n ∧ op = 0x0F) ∨ (i = .scanStart n ∧ op = 0x10) ∨
  (i = .scanRestartCmd n ∧ op = 0x11) ∨ (i = .pairSwitch n ∧ op = 0x12) ∨ (i = .serviceEnter n ∧ op = 0x13) ∨
  (i = .serviceLeave n ∧ op = 0x14) ∨ (i = .canTx n ∧ op = 0x15) ∨ (i = .recRead n ∧ op = 0x16) ∨ (i = .tcRead n ∧ op = 0x18) ∨
  (i = .bulkSend n ∧ op = 0x19) ∨ (i = .histSub n ∧ op = 0x1A)

/-- Each of these commands is run by its ring. -/
theorem exec_ringCommand {n : Fin 16} {i : Instr} (h : ringCommand n i op) (s : State) : ∃ f, exec i s = s.runCmd n op f := by
  rcases h with ⟨rfl, rfl⟩ | ⟨rfl, rfl⟩ | ⟨rfl, rfl⟩ | ⟨rfl, rfl⟩ | ⟨rfl, rfl⟩ | ⟨rfl, rfl⟩ | ⟨rfl, rfl⟩ | ⟨rfl, rfl⟩ | ⟨rfl, rfl⟩ |
    ⟨rfl, rfl⟩ | ⟨rfl, rfl⟩ | ⟨rfl, rfl⟩ | ⟨rfl, rfl⟩ | ⟨rfl, rfl⟩ | ⟨rfl, rfl⟩ | ⟨rfl, rfl⟩ | ⟨rfl, rfl⟩ | ⟨rfl, rfl⟩ | ⟨rfl, rfl⟩ |
    ⟨rfl, rfl⟩ | ⟨rfl, rfl⟩ | ⟨rfl, rfl⟩ | ⟨rfl, rfl⟩ | ⟨rfl, rfl⟩ | ⟨rfl, rfl⟩
  · exact ⟨_, exec_cmdNop s n⟩
  · exact ⟨_, exec_statusCmd s n⟩
  · exact ⟨_, exec_readMem s n⟩
  · exact ⟨_, exec_readSym s n⟩
  · exact ⟨_, exec_configCmd s n⟩
  · exact ⟨_, exec_valueWrite s n⟩
  · exact ⟨_, exec_forceSet s n⟩
  · exact ⟨_, exec_forceRelease s n⟩
  · exact ⟨_, exec_pkgLoad s n⟩
  · exact ⟨_, exec_pkgSwitch s n⟩
  · exact ⟨_, exec_pkgCancel s n⟩
  · exact ⟨_, exec_pkgDiscard s n⟩
  · exact ⟨_, exec_constPatch s n⟩
  · exact ⟨_, exec_keyEnrol s n⟩
  · exact ⟨_, exec_keyRemove s n⟩
  · exact ⟨_, exec_scanStart s n⟩
  · exact ⟨_, exec_scanRestartCmd s n⟩
  · exact ⟨_, exec_pairSwitch s n⟩
  · exact ⟨_, exec_serviceEnter s n⟩
  · exact ⟨_, exec_serviceLeave s n⟩
  · exact ⟨_, exec_canTx s n⟩
  · exact ⟨_, exec_recRead s n⟩
  · exact ⟨_, exec_tcRead s n⟩
  · exact ⟨_, exec_bulkSend s n⟩
  · exact ⟨_, exec_histSub s n⟩

/-- Settles O55: which commands are refused or forwarded, and what those that read answer. -/
theorem hostCommandsRefusedAndReading : Obligations.HostCommandsRefusedAndReading := by
  refine ⟨fun n s i op hi => ?_, fun n c s hw => ?_⟩
  · obtain ⟨f, hf⟩ := exec_ringCommand hi s
    refine ⟨fun c hb => ⟨fun h => hf.trans (runCmd_bad hb h), fun h ha hs => hf.trans (runCmd_disallowed hb h ha hs),
      fun h ha hp ht => ⟨fun hoff => ?_, fun hoff => ?_⟩⟩, fun h => hf.trans (runCmd_none h), fun h => hf.trans (runCmd_rests h)⟩
    · exact (hf.trans (runCmd_toPartner hb h ha hp ht)).trans (congrArg _ (if_pos hoff))
    · exact ⟨_, hf.trans (runCmd_toPartner hb h ha hp ht), toPartner_forwards (mem_of_toBegin hb.1) hoff⟩
  · intro off moves
    refine ⟨fun hb ha => ?_, fun hb ha => ⟨s.statusBlock, ?_, statusBlock_shows⟩, fun hb ha => ?_, fun hb ha => ?_,
      fun hb ha => readSym_clauses hb ha, fun hb ha => ?_, fun hb ha => ?_, fun hb ha => ?_⟩
    · exact (exec_cmdNop s n).trans (runCmd_accepts hb ha)
    · exact (exec_statusCmd s n).trans (runCmd_accepts hb ha)
    · exact (exec_readMem s n).trans (runCmd_accepts hb ha)
    · exact (exec_tcRead s n).trans (runCmd_accepts hb ha)
    · obtain ⟨k, hk, hr, hl, hend⟩ := recBytesFrom_eq (s := s) c.desc.modAddr.toNat (c.length / 64)
      refine ⟨k, hk, ((exec_recRead s n).trans (runCmd_accepts hb ha)).trans ?_, hend⟩
      dsimp only
      rw [hl, hr]
    · exact
        ⟨fun h => (recCtrl_freeze hw hb ha h).1, fun h => (recCtrl_freeze hw hb ha h).2, fun h => (recCtrl_unfreeze hw hb ha h).1,
          fun h => (recCtrl_unfreeze hw hb ha h).2, fun h => (recCtrl_rearm hw hb ha h).1, fun h => (recCtrl_rearm hw hb ha h).2⟩
    · have hf := frame_drayShow (s := bulkJoined s c)
      have hd : State.dray _ = _ := hf.part .dray (by decide)
      exact ⟨_, _, (exec_bulkSend s n).trans (runCmd_accepts hb ha), congrArg Dray.bulk hd, rfl, rfl, rfl, rfl, hf.part .mem (by decide),
        hf.part .host (by decide)⟩

end Sys2Proof.Machine
end

section
/-! What a store reads after some of its keys are taken from another. -/

namespace Sys2Proof.Machine

variable {α : Type} [DecidableEq α] {d : Nat → α} {p : Nat → Bool} {l src dst : List (Nat × α)} {a : Nat}

theorem sget_filter (d : Nat → α) (p : Nat → Bool) (l : List (Nat × α)) (a : Nat) :
    sget d (l.filter (fun e => p e.1)) a = if p a then sget d l a else d a := by
  induction l with
  | nil => exact (ite_self _).symm
  | cons e l ih =>
    by_cases hp : p e.1
    · rw [List.filter_cons_of_pos (by exact hp), sget, sget, ih]
      by_cases ha : a = e.1
      · rw [if_pos ha, if_pos ha, if_pos (ha ▸ hp)]
      · rw [if_neg ha, if_neg ha]
    · rw [List.filter_cons_of_neg (by exact hp), ih, sget]
      by_cases ha : a = e.1
      · rw [if_neg (ha ▸ hp), if_neg (ha ▸ hp)]
      · rw [if_neg ha]

theorem sget_writes_other (h : ∀ e ∈ l, e.1 ≠ a) : sget d (l.foldl (fun m e => sset d m e.1 e.2) dst) a = sget d dst a := by
  induction l generalizing dst with
  | nil => rfl
  | cons e l ih =>
    rw [List.foldl_cons, ih fun x hx => h x (List.mem_cons_of_mem _ hx)]
    exact sget_sset_ne _ _ _ _ _ (h e List.mem_cons_self).symm

theorem key_of_swfFrom {lo : Nat} (h : swfFrom d lo l = true) : ∀ e ∈ l, lo ≤ e.1 := by
  induction l generalizing lo with
  | nil => exact fun e he => absurd he List.not_mem_nil
  | cons x l ih =>
    rw [swfFrom, Bool.and_eq_true, Bool.and_eq_true, decide_eq_true_eq] at h
    obtain ⟨⟨hx, -⟩, hl⟩ := h
    intro e he
    rcases List.mem_cons.mp he with rfl | he
    · exact hx
    · exact Nat.le_of_succ_le (Nat.le_trans (Nat.succ_le_succ hx) (ih hl e he))

/-- The keys of a store written one after another into one that does not hold the key asked for. -/
theorem sget_writes {lo : Nat} (hl : swfFrom d lo l = true) (hd : swf d dst = true) (ha : sget d dst a = d a) :
    sget d (l.foldl (fun m e => sset d m e.1 e.2) dst) a = sget d l a := by
  induction l generalizing dst lo with
  | nil => exact ha
  | cons e l ih =>
    have hs := hl
    rw [swfFrom, Bool.and_eq_true] at hs
    obtain ⟨-, hs⟩ := hs
    rw [List.foldl_cons, sget]
    by_cases he : a = e.1
    · rw [if_pos he, sget_writes_other fun x hx => ?_, he, sget_self d dst e.1 e.2 hd]
      have := key_of_swfFrom hs x hx
      omega
    · rw [if_neg he, ih hs (swf_sset d dst e.1 e.2 hd) ((sget_sset_ne _ _ _ _ _ he).trans ha)]

/-- Each key reads as in the store that it is taken from. -/
theorem sget_scopy (hs : swf d src = true) (hd : swf d dst = true) : sget d (scopy d p src dst) a = if p a then sget d src a else sget d dst a := by
  have hdst := sget_filter d (fun k => !p k) dst a
  have hsrc := sget_filter d p src a
  have hwd := swf_filter d (fun e => !p e.1) dst hd
  rw [scopy]
  cases hp : p a with
  | true =>
    rw [hp] at hsrc hdst
    rw [sget_writes (swf_filter d (fun e => p e.1) src hs) hwd hdst, hsrc]
    rfl
  | false =>
    rw [hp] at hdst
    rw [sget_writes_other fun e he heq => ?_, hdst]
    · rfl
    · have := (List.mem_filter.mp he).2
      rw [heq, hp] at this
      cases this

variable {s : State} {o : Nat}

theorem regsWf_iff : s.regsWf = true ↔ swf regReset s.regs = true ∧ swf regReset s.act = true := by
  rw [State.regsWf, Bool.and_eq_true]

/-- Registers taken from the values in force. -/
theorem rd_regs_scopy (h : s.regsWf = true) : ({ s with regs := scopy regReset p s.act s.regs } : State).rd o = if p o then s.actv o else s.rd o :=
  sget_scopy (regsWf_iff.mp h).2 (regsWf_iff.mp h).1

/-- Values in force taken from the registers. -/
theorem actv_act_scopy (h : s.regsWf = true) : ({ s with act := scopy regReset p s.regs s.act } : State).actv o = if p o then s.rd o else s.actv o :=
  sget_scopy (regsWf_iff.mp h).1 (regsWf_iff.mp h).2

theorem regsWf_regs_scopy (h : s.regsWf = true) : ({ s with regs := scopy regReset p s.act s.regs } : State).regsWf = true :=
  regsWf_iff.mpr ⟨swf_scopy _ _ _ _ (regsWf_iff.mp h).1, (regsWf_iff.mp h).2⟩

theorem regsWf_act_scopy (h : s.regsWf = true) : ({ s with act := scopy regReset p s.regs s.act } : State).regsWf = true :=
  regsWf_iff.mpr ⟨(regsWf_iff.mp h).1, swf_scopy _ _ _ _ (regsWf_iff.mp h).2⟩

end Sys2Proof.Machine
end

section
/-! MC and the chip's temperature (R35, R36, R214, R499). -/

namespace Sys2Proof.Machine

variable {s t : State} {cause : Nat}

/-! A score forced to 0. -/

/-- A hand-over asked for. -/
def handoverAsked (s : State) (trigger : Nat) : State :=
  { s with pair := { s.pair with handover := some trigger } }.fsetb F.pairStatus_handover true

theorem frame_handoverAsked (s : State) (k : Nat) : Frame [.regs, .pair] [.fld F.pairStatus_handover] s (handoverAsked s k) :=
  .after .fsetb .pair

/-- The causes that make a PRIMARY drop CLAIM. -/
def dropsClaim (f : NSet) : Prop := f.has causeBramble = true ∨ f.has causeReflexMajority = true ∨ f.has causeCarryFault = true

/-- A cause of MC asks for a hand-over, and for no more. -/
theorem pullForced_asks (hm : s.mod ≠ .stopped) (hf : ¬ dropsClaim s.pair.forced) : s.pullForced =
    if s.mod = .primary ∧ s.bogie.pReady = true ∧ (s.pair.forced.has causeMcReset || s.pair.forced.has causeMcFailed ||
      s.pair.forced.has causeRfxStop) = true ∧ s.pair.handover = none then handoverAsked s 6 else s := by
  rw [dropsClaim] at hf
  push Not at hf
  obtain ⟨h3, h4, h5⟩ := hf
  unfold State.pullForced
  dsimp only
  by_cases hp : s.mod = .primary ∧ s.bogie.pReady = true
  · rw [if_pos hp, if_neg (by simp [h3, h4, h5])]
    by_cases hc : (s.pair.forced.has causeMcReset || s.pair.forced.has causeMcFailed || s.pair.forced.has causeRfxStop) = true ∧
        s.pair.handover = none
    · rw [if_pos (by rw [hc.1, hc.2]; rfl), if_pos ⟨hp.1, hp.2, hc⟩, State.startHandover, hp.1]
      dsimp only
      rw [if_pos hp.2]
      rfl
    · rw [if_neg (by simpa [Option.isNone_iff_eq_none] using hc), if_neg fun h => hc h.2.2]
  · rw [if_neg hp, if_neg fun h => hm h.1, if_neg fun h => hp ⟨h.1, h.2.1⟩]

/-- What is shown of a score forced to 0 by the first of its causes. -/
theorem showForced_shows {c : Nat} {b : Bool} {l : NSet} (hw : s.regsWf = true) (h : s.pair.forced = (c, b) :: l) (hc : c < 7) :
    s.showForced.fbit F.pairHealth_forced = true ∧ s.showForced.fget F.pairHealth_fcause = c ∧ s.showForced.fget F.pairHealth_own = 0 := by
  rw [State.showForced, h]
  dsimp only
  rw [if_neg (show c ≠ causeTokenLost by rw [causeTokenLost]; omega)]
  have h1 := regsWf_fset (f := F.pairHealth_forced) (n := 1) hw
  have h2 := regsWf_fset (f := F.pairHealth_fcause) (n := c) h1
  refine ⟨?_, ?_, (fget_fset h2 (by decide)).trans rfl⟩
  · rw [State.fbit, fget_fset_beside h2 (by decide) (by decide), fget_fset_beside h1 (by decide) (by decide), fget_fset hw (by decide)]
    rfl
  · rw [fget_fset_beside h2 (by decide) (by decide), fget_fset h1 (by decide)]
    exact Nat.mod_eq_of_lt (show c < 2 ^ 3 by omega)

/-- The score forced to 0 by one more cause. -/
def forcedBy (s : State) (cause : Nat) : State := ({ s with pair := { s.pair with forced := s.pair.forced.add cause } } : State).showForced

theorem frame_forcedBy (s : State) (c : Nat) : Frame [.regs, .pair] showForcedPlaces s (forcedBy s c) := .after (frame_showForced _).sub .pair

theorem pair_forcedBy (s : State) (c : Nat) : (forcedBy s c).pair = { s.pair with forced := s.pair.forced.add c } :=
  (frame_showForced _).part .pair (by decide)

/-- What a cause does beside forcing the score: a STANDBY drops READY. -/
def readyLeft (s : State) : State := if s.mod = .standby then s.setReady false else s

theorem forceZero_eq (hw : s.regsWf = true) (hm : s.mod ≠ .stopped) : s.forceZero cause = (readyLeft (forcedBy s cause)).pullForced := by
  have hf : (forcedBy s cause).mod = s.mod := (frame_forcedBy s cause).mod hw
  have hc : ((forcedBy s cause).mod = .standby ∨ ((forcedBy s cause).mod = .stopped ∧
      !((forcedBy s cause).token && (forcedBy s cause).bogie.pReady))) ↔ (forcedBy s cause).mod = .standby := by
    rw [hf]
    exact ⟨fun h => h.resolve_right fun e => hm e.1, .inl⟩
  unfold State.forceZero readyLeft
  exact congrArg State.pullForced (ite_cond_congr (propext hc))

/-- The registers that a cause of MC reaches. -/
abbrev mcForcedPlaces : List Rect := [.fld F.pairHealth_own, .fld F.pairHealth_forced, .fld F.pairHealth_fcause, .fld F.pairStatus_ready,
  .fld F.pairStatus_handover]

/-- What a cause of MC shows and asks for. -/
theorem forceZero_shows {c : Nat} {b : Bool} {l : NSet} (hw : s.regsWf = true) (hm : s.mod ≠ .stopped)
    (hl : s.pair.forced.add cause = (c, b) :: l) (hc : c < 7) (hd : ¬ dropsClaim (s.pair.forced.add cause)) :
    let t := s.forceZero cause
    Frame [.regs, .pair] mcForcedPlaces s t ∧ t.pair.forced = s.pair.forced.add cause ∧ t.fbit F.pairHealth_forced = true ∧
      t.fget F.pairHealth_fcause = c ∧ t.fget F.pairHealth_own = 0 ∧
      (s.mod = .primary → s.bogie.pReady = true → s.pair.handover = none → (s.pair.forced.add cause).has causeMcReset = true →
        t.pair.handover = some 6 ∧ t.fbit F.pairStatus_handover = true) ∧
      (s.mod = .standby → t.fbit F.pairStatus_ready = false) := by
  intro t
  have hf1 := frame_forcedBy s cause
  have hw1 := hf1.canon hw
  have hp1 := pair_forcedBy s cause
  have hm1 : (forcedBy s cause).mod = s.mod := hf1.mod hw
  have hb1 : State.bogie _ = s.bogie := hf1.part .bogie (by decide)
  obtain ⟨s1, s2, s3⟩ := showForced_shows (s := { s with pair := { s.pair with forced := s.pair.forced.add cause } }) hw hl hc
  have hf2 : Frame [.regs] [.fld F.pairStatus_ready] (forcedBy s cause) (readyLeft (forcedBy s cause)) := .ite .fsetb (.refl _)
  have ht : t = (readyLeft (forcedBy s cause)).pullForced := forceZero_eq hw hm
  have hready : s.mod = .standby → (readyLeft (forcedBy s cause)).fbit F.pairStatus_ready = false := fun h => by
    rw [readyLeft, if_pos (hm1.trans h)]
    exact fbit_fsetb hw1 (by decide) rfl
  change (forcedBy s cause).fbit _ = true at s1
  change (forcedBy s cause).fget _ = c at s2
  change (forcedBy s cause).fget _ = 0 at s3
  generalize forcedBy s cause = u at *
  have hw2 := hf2.canon hw1
  have hp2 : State.pair _ = u.pair := hf2.part .pair (by decide)
  have hb2 : State.bogie _ = u.bogie := hf2.part .bogie (by decide)
  have hm2 := hf2.mod hw1
  have g1 := (hf2.fbit hw1 (f := F.pairHealth_forced)).trans s1
  have g2 := (hf2.fget hw1 (f := F.pairHealth_fcause)).trans s2
  have g3 := (hf2.fget hw1 (f := F.pairHealth_own)).trans s3
  generalize readyLeft u = v at *
  rw [pullForced_asks (by rw [hm2, hm1]; exact hm) (by rw [hp2, hp1]; exact hd)] at ht
  have hpair : v.pair = { s.pair with forced := s.pair.forced.add cause } := hp2.trans hp1
  have hframe : Frame [.regs, .pair] mcForcedPlaces s v := .trans hf1.sub hf2.sub
  have hasked : Frame [.regs, .pair] [.fld F.pairStatus_handover] v t := by
    rw [ht]
    exact .ite (frame_handoverAsked v 6) (.refl v)
  have hforced : t.pair.forced = s.pair.forced.add cause := by
    rw [ht]
    split
    · exact congrArg Pair.forced hpair
    · exact congrArg Pair.forced hpair
  refine ⟨hframe.trans hasked.sub, hforced, (hasked.fbit hw2).trans g1, (hasked.fget hw2).trans g2, (hasked.fget hw2).trans g3,
    fun h1 h2 h3 h4 => ?_, fun h => (hasked.fbit hw2).trans (hready h)⟩
  have hcond : v.mod = .primary ∧ v.bogie.pReady = true ∧ (v.pair.forced.has causeMcReset || v.pair.forced.has causeMcFailed ||
      v.pair.forced.has causeRfxStop) = true ∧ v.pair.handover = none := by
    rw [hm2, hm1, hb2, hb1, hpair]
    exact ⟨h1, h2, by rw [h4]; rfl, h3⟩
  rw [ht, if_pos hcond]
  exact ⟨rfl, fbit_fsetb hw2 (by decide) rfl⟩

/-! MC disturbed, and its self-test. -/

/-- The shadow values that stay where the others are lost: those applied and not yet in force, and those of PWR. -/
def keptShadow (s : State) (off : Nat) : Bool := (s.rd R.sysApplyPend).getLsbD (off / 0x1000) || off / 0x1000 == 21

theorem rd_reloadShadows {o : Nat} (hw : s.regsWf = true) (ho : o ≠ R.sysShadowPend) :
    s.reloadShadows.rd o = if isRws o && !keptShadow s o then s.actv o else s.rd o :=
  (rd_wr_ne ho).trans (rd_regs_scopy hw)

theorem regsWf_reloadShadows (hw : s.regsWf = true) : s.reloadShadows.regsWf = true := regsWf_wr (regsWf_regs_scopy hw)

/-- MC held in reset, as its score shows it not yet. -/
def mcStopped (s : State) : State :=
  let t := (s.fset F.sysStatus_mcRun 0).reloadShadows
  ({ t with power := { t.power with mcTest := true } }.bump R.sysMcRestarts).raise hapMcRestart 0 []

theorem rd_mcStopped {o : Nat} (hw : s.regsWf = true) (h1 : o ≠ R.sysShadowPend) (h2 : o ≠ R.sysMcRestarts) (h3 : o ≠ R.sysStatus) :
    (mcStopped s).rd o = if isRws o && !keptShadow s o then s.actv o else s.rd o := by
  have hk : keptShadow (s.fset F.sysStatus_mcRun 0) o = keptShadow s o := by
    rw [keptShadow, rd_fset_ne (by decide), keptShadow]
  refine (rd_bump_ne h2).trans ((rd_reloadShadows (regsWf_fset hw) h1).trans ?_)
  rw [hk, rd_fset_ne h3]
  rfl

theorem rd_mcStopped_keeps {o : Nat} (hw : s.regsWf = true) (h1 : o ≠ R.sysShadowPend) (h2 : o ≠ R.sysMcRestarts) (h3 : o ≠ R.sysStatus)
    (hr : isRws o = false) : (mcStopped s).rd o = s.rd o := by
  rw [rd_mcStopped hw h1 h2 h3, hr]
  rfl

theorem mcStopped_shows (hw : s.regsWf = true) : (mcStopped s).regsWf = true ∧ (mcStopped s).fbit F.sysStatus_mcRun = false ∧
    ((mcStopped s).rd R.sysMcRestarts).toNat = satAdd 32 (s.rd R.sysMcRestarts).toNat 1 ∧ (mcStopped s).power = { s.power with mcTest := true } ∧
    (mcStopped s).mem = s.mem ∧ (mcStopped s).brm = s.brm ∧ (mcStopped s).pair = s.pair ∧ (mcStopped s).bogie = s.bogie ∧
    (mcStopped s).mod = s.mod := by
  have hwr := regsWf_reloadShadows (regsWf_fset (f := F.sysStatus_mcRun) (n := 0) hw)
  have hmod : (mcStopped s).mod = s.mod := by
    rw [State.mod, State.fget, rd_mcStopped_keeps hw (by decide) (by decide) (by decide) (by decide)]
    rfl
  have hkeep (o : Nat) (h1 : o ≠ R.sysShadowPend) (hr : isRws o = false) :
      (s.fset F.sysStatus_mcRun 0).reloadShadows.rd o = (s.fset F.sysStatus_mcRun 0).rd o := by
    rw [rd_reloadShadows (regsWf_fset hw) h1, hr]
    rfl
  refine ⟨regsWf_bump hwr, ?_, ?_, rfl, rfl, rfl, rfl, rfl, hmod⟩
  · have h0 : (s.fset F.sysStatus_mcRun 0).fbit F.sysStatus_mcRun = false := by
      rw [fbit_fset hw (by decide)]
      rfl
    rw [State.fbit, State.fget] at h0 ⊢
    rw [← hkeep _ (by decide) (by decide)] at h0
    rw [← h0]
    exact congrArg (fun v : W32 => fldN v.toNat F.sysStatus_mcRun.lo F.sysStatus_mcRun.width == 1) (rd_bump_ne (by decide))
  · refine (toNat_rd_bump (s := { (s.fset F.sysStatus_mcRun 0).reloadShadows with power := _ }) hwr).trans ?_
    exact congrArg (fun v : W32 => satAdd 32 v.toNat 1) ((hkeep _ (by decide) (by decide)).trans (rd_fset_ne (by decide)))

theorem mcReset_eq : s.mcReset = (mcStopped s).forceZero causeMcReset := rfl

theorem lockstep_clauses (hw : s.regsWf = true) (hr : s.fbit F.sysStatus_mcRun = true) (hm : s.mod ≠ .stopped) (hf : s.pair.forced = []) :
    ∃ t, exec .mcLockstepMismatch s = .next t ∧
      t.fbit F.sysStatus_mcRun = false ∧ t.power = { s.power with mcTest := true } ∧ t.mem = s.mem ∧ t.brm = s.brm ∧
      (t.rd R.sysMcRestarts).toNat = satAdd 32 (s.rd R.sysMcRestarts).toNat 1 ∧ t.fbit F.pairHealth_forced = true ∧
      t.fget F.pairHealth_own = 0 ∧ t.fget F.pairHealth_fcause = 1 ∧
      (s.mod = .primary → s.bogie.pReady = true → s.pair.handover = none → t.pair.handover = some 6 ∧ t.fbit F.pairStatus_handover = true) ∧
      (s.mod = .standby → t.fbit F.pairStatus_ready = false) ∧
      (∀ off, off / 0x1000 ≠ 21 → isRws off = true → (s.rd R.sysApplyPend).getLsbD (off / 0x1000) = false → t.rd off = s.actv off) := by
  obtain ⟨hu, u1, u2, u3, u4, u5, u6, u7, u8⟩ := mcStopped_shows hw
  have hl : (mcStopped s).pair.forced.add causeMcReset = [(1, true)] := by
    rw [u6, hf]
    rfl
  obtain ⟨h0, -, h1, h2, h3, h4, h5⟩ := forceZero_shows (cause := causeMcReset) hu (by rw [u8]; exact hm) hl (by decide)
    (by rw [hl, dropsClaim]; decide)
  refine ⟨_, congrArg Host.Outcome.next ((if_pos hr).trans mcReset_eq), (h0.fbit hu).trans u1, (h0.part .power (by decide)).trans u3,
    (h0.part .mem (by decide)).trans u4, (h0.part .brm (by decide)).trans u5, ?_, h1, h3, h2, fun a b c => ?_, fun a => h5 (u8.trans a),
    fun o h21 hs hp => ?_⟩
  · rw [h0.rd hu]
    exact u2
  · exact h4 (u8.trans a) (by rw [u7]; exact b) (by rw [u6]; exact c) (by rw [hl]; decide)
  · have hne (k : Nat) (hk : isRws k = false) : o ≠ k := fun e => by
      rw [e, hk] at hs
      cases hs
    rw [rd_of_frame h0 hu fun r hr => ?_, rd_mcStopped hw (hne _ (by decide)) (hne _ (by decide)) (hne _ (by decide)), hs, keptShadow, hp,
      beq_false_of_ne h21]
    · rfl
    · have h1 : o ≠ R.pairHealth := hne _ (by decide)
      have h2 : o ≠ R.pairStatus := hne _ (by decide)
      simp only [List.mem_cons, List.not_mem_nil, or_false] at hr
      rw [← Bool.not_eq_true]
      rcases hr with rfl | rfl | rfl | rfl | rfl <;> rw [Rect.has_iff] <;>
        simp only [F.pairHealth_own, F.pairHealth_forced, F.pairHealth_fcause, F.pairStatus_ready, F.pairStatus_handover] <;> omega

theorem pair_unforce : (s.unforce cause).pair = { s.pair with forced := s.pair.forced.del cause } := by
  have hf := frame_showForced { s with pair := { s.pair with forced := s.pair.forced.del cause } }
  have hr (u : State) : Frame [.regs] [.fld F.pairStatus_ready] u (if u.mod = .standby ∧ u.mayReady then u.setReady true else u) :=
    .ite .fsetb (.refl u)
  exact ((hr _).part .pair (by decide)).trans (hf.part .pair (by decide))

/-- The self-test of MC as no longer waited for. -/
def testEnded (s : State) : State := { s with power := { s.power with mcTest := false } }

/-- MC let run again after its self-test. -/
theorem selftest_passes (hw : s.regsWf = true) (ht : s.power.mcTest = true) :
    ∃ t, exec (.mcSelftestComplete true) s = .next t ∧ t.fbit F.sysStatus_mcRun = true ∧
      t.power = { s.power with mcTest := false } ∧ t.mem = s.mem ∧ t.pair.forced = s.pair.forced.del causeMcReset := by
  have hex : exec (.mcSelftestComplete true) s = .next (((testEnded s).fset F.sysStatus_mcRun 1).unforce causeMcReset).dmaGo.completeAll :=
    congrArg Host.Outcome.next (if_pos ht)
  have hrun : ((testEnded s).fset F.sysStatus_mcRun 1).fbit F.sysStatus_mcRun = true := by
    rw [fbit_fset (s := testEnded s) hw (by decide)]
    rfl
  have hwr : ((testEnded s).fset F.sysStatus_mcRun 1).regsWf = true := regsWf_fset (s := testEnded s) hw
  have hu := frame_unforce ((testEnded s).fset F.sysStatus_mcRun 1) causeMcReset
  have hf : Frame [.out, .regs, .host, .dma] completeAllPlaces _ _ :=
    .trans (frame_dmaGo (((testEnded s).fset F.sysStatus_mcRun 1).unforce causeMcReset)).sub (frame_completeAll _).sub
  exact ⟨_, hex, (hf.fbit (hu.canon hwr)).trans ((hu.fbit hwr).trans hrun), (hf.part .power (by decide)).trans (hu.part .power (by decide)),
    (hf.part .mem (by decide)).trans (hu.part .mem (by decide)),
    congrArg Pair.forced ((hf.part .pair (by decide)).trans pair_unforce)⟩

/-- MC that failed its self-test, with the cause of its reset taken over by that of its failure. -/
def mcFailedShown (s : State) : State :=
  let t := ((testEnded s).fset F.sysStatus_mcFailed 1).forceZero causeMcFailed
  ({ t with pair := { t.pair with forced := t.pair.forced.del causeMcReset } } : State).showForced

/-- MC that stays in reset for good. -/
theorem selftest_fails (hw : s.regsWf = true) (ht : s.power.mcTest = true) (hm : s.mod ≠ .stopped)
    (hf : s.pair.forced = [(causeMcReset, true)]) :
    ∃ t, exec (.mcSelftestComplete false) s = .next t ∧ t.fbit F.sysStatus_mcFailed = true ∧
      t.power = { s.power with mcTest := false } ∧ t.mem = s.mem ∧ t.fget F.pairHealth_own = 0 ∧
      t.fbit F.sysStatus_mcRun = s.fbit F.sysStatus_mcRun := by
  have hex : exec (.mcSelftestComplete false) s =
      .next (if s.mod = .alone then (mcFailedShown s).emit (.display (Config.pageText 18 [])) else mcFailedShown s) :=
    congrArg Host.Outcome.next (if_pos ht)
  have hwf : ((testEnded s).fset F.sysStatus_mcFailed 1).regsWf = true := regsWf_fset (s := testEnded s) hw
  have hfail : ((testEnded s).fset F.sysStatus_mcFailed 1).fbit F.sysStatus_mcFailed = true := by
    rw [fbit_fset (s := testEnded s) hw (by decide)]
    rfl
  have hrun : ((testEnded s).fset F.sysStatus_mcFailed 1).fbit F.sysStatus_mcRun = s.fbit F.sysStatus_mcRun :=
    (Frame.fset (ps := [.regs]) (W := [.fld F.sysStatus_mcFailed]) (s := testEnded s)).fbit hw
  have hmod : ((testEnded s).fset F.sysStatus_mcFailed 1).mod = s.mod :=
    (Frame.fset (ps := [.regs]) (W := [.fld F.sysStatus_mcFailed]) (s := testEnded s)).mod hw
  have hpair : ((testEnded s).fset F.sysStatus_mcFailed 1).pair = s.pair := rfl
  have hpower : ((testEnded s).fset F.sysStatus_mcFailed 1).power = { s.power with mcTest := false } := rfl
  have hmem : ((testEnded s).fset F.sysStatus_mcFailed 1).mem = s.mem := rfl
  have hsh : mcFailedShown s = ({ ((testEnded s).fset F.sysStatus_mcFailed 1).forceZero causeMcFailed with
    pair := { (((testEnded s).fset F.sysStatus_mcFailed 1).forceZero causeMcFailed).pair with
      forced := (((testEnded s).fset F.sysStatus_mcFailed 1).forceZero causeMcFailed).pair.forced.del causeMcReset } } : State).showForced := rfl
  generalize (testEnded s).fset F.sysStatus_mcFailed 1 = u at *
  have hl : u.pair.forced.add causeMcFailed = [(1, true), (2, true)] := by
    rw [hpair, hf]
    rfl
  obtain ⟨h0, hforced, -⟩ := forceZero_shows (cause := causeMcFailed) hwf (by rw [hmod]; exact hm) hl (by decide) (by rw [hl, dropsClaim]; decide)
  have hwv := h0.canon hwf
  generalize u.forceZero causeMcFailed = v at *
  have hdel : v.pair.forced.del causeMcReset = [(2, true)] := by
    rw [hforced, hl]
    rfl
  have hs := frame_showForced { v with pair := { v.pair with forced := v.pair.forced.del causeMcReset } }
  have hown := (showForced_shows (s := { v with pair := { v.pair with forced := v.pair.forced.del causeMcReset } }) hwv hdel (by decide)).2.2
  have hv : Frame [.regs, .pair] showForcedPlaces v (mcFailedShown s) := by
    rw [hsh]
    exact .after hs.sub .pair
  rw [← hsh] at hown
  have hall : Frame [.out] [] (mcFailedShown s) (if s.mod = .alone then (mcFailedShown s).emit (.display (Config.pageText 18 []))
      else mcFailedShown s) := .ite .emit (.refl _)
  have hwx := hv.canon hwv
  generalize mcFailedShown s = x at *
  exact ⟨_, hex, (hall.fbit hwx).trans ((hv.fbit hwv).trans ((h0.fbit hwf).trans hfail)),
    (hall.part .power (by decide)).trans ((hv.part .power (by decide)).trans ((h0.part .power (by decide)).trans hpower)),
    (hall.part .mem (by decide)).trans ((hv.part .mem (by decide)).trans ((h0.part .mem (by decide)).trans hmem)),
    (hall.fget hwx).trans hown, (hall.fbit hwx).trans ((hv.fbit hwv).trans ((h0.fbit hwf).trans hrun))⟩

/-- What a temperature above the limit shows and records. -/
theorem temperature_clauses (temp : BitVec 16) (hw : s.regsWf = true) (hc : s.power.chip = true) (h : 1050 < temp.toInt) :
    ∃ t, exec (.chipTemperatureWarning temp) s = .next t ∧
      fieldSet ⟨R.sysTemp, 0, 16⟩ temp.toNat s t ∧ keepsRegs [R.sysTemp] s t ∧
      t = { s with regs := t.regs, power := t.power, recd := t.recd } ∧
      (s.power.lastTempRec = none → t.power.lastTempRec = some s.time.tb3 ∧ t.recd.raised.length = s.recd.raised.length + 1) ∧
      (∀ k, s.power.lastTempRec = some k → s.time.tb3 < k + 3600 → t.recd = s.recd ∧ t.power = s.power) := by
  have hv : temp.toNat < 2 ^ 16 := temp.isLt
  have hset := fieldSet_fset_lt (f := ⟨R.sysTemp, 0, 16⟩) hw (by decide) hv
  have hkeep : keepsRegs [R.sysTemp] s (s.fset ⟨R.sysTemp, 0, 16⟩ temp.toNat) := keepsRegs_fset (f := ⟨R.sysTemp, 0, 16⟩)
  have hgate : (s.power.chip && decide (1050 < temp.toInt)) = true := by
    rw [hc, decide_eq_true h]
    rfl
  by_cases hd : ∃ k, s.power.lastTempRec = some k ∧ s.time.tb3 < k + 3600
  · obtain ⟨k, hk, hlt⟩ := hd
    have hdue : decide (k + 3600 ≤ s.time.tb3) = false := decide_eq_false (not_le.mpr hlt)
    refine ⟨s.fset ⟨R.sysTemp, 0, 16⟩ temp.toNat, ?_, hset, hkeep, rfl, fun hn => ?_, fun _ _ _ => ⟨rfl, rfl⟩⟩
    · refine congrArg Host.Outcome.next ((if_pos hgate).trans (if_neg ?_))
      rw [hk]
      exact Bool.eq_false_iff.mp hdue
    · rw [hk] at hn
      cases hn
  · refine ⟨{ s.fset ⟨R.sysTemp, 0, 16⟩ temp.toNat with power := { s.power with lastTempRec := some s.time.tb3 } }.raise hapTemp 0
      [temp.setWidth 64], ?_, hset, hkeep, rfl, fun _ => ⟨rfl, List.length_append⟩, fun k hk hlt => absurd ⟨k, hk, hlt⟩ hd⟩
    refine congrArg Host.Outcome.next ((if_pos hgate).trans (if_pos ?_))
    cases hk : s.power.lastTempRec with
    | none => rfl
    | some k => exact decide_eq_true (not_lt.mp fun hlt => hd ⟨k, hk, hlt⟩)

/-- Settles O34: what cores that disagree, the self-test of MC and a high temperature change. -/
theorem mcAndTemperature : Obligations.McAndTemperature := fun s hw =>
  ⟨lockstep_clauses hw, selftest_passes hw, selftest_fails hw, fun _ h => congrArg Host.Outcome.next (if_neg (by rw [h]; decide)),
    fun temp hc ht => temperature_clauses temp hw hc ht⟩

end Sys2Proof.Machine
end

section
/-! Package commands by register and by ring (R171, R173, R189, R191). -/

namespace Sys2Proof.Machine

variable {s t : State} {m : Master} {n : Nat} {c : Cmd} {key : BitVec 16} {rel : Bool}

theorem frame_tellPartner (s : State) (o : Out) : Frame [.out, .pair] [] s (s.tellPartner o) := .ite .send (.refl s)

theorem frame_sendFor (s : State) (k : Nat) (o : Out) : Frame [.out, .pair, .host] [] s (s.sendFor k o) :=
  .ite (.after .host .send) (.ite (.refl s) .send)

theorem frame_forcesCounted (s : State) :
    Frame [.regs] [.reg R.olcForces, .reg R.olcConflicts, .fld F.olcStatus_forceConflict] s s.countForces := .after .fsetb (.after .wr .wr)

/-- What a command of a ring tells a partner that is there. -/
theorem sendFor_tells {k : Nat} {o : Out} (hp : s.partner ≠ .off) : ∃ x ∈ (s.sendFor k o).pair.msgs, x.body = o := by
  obtain ⟨x, hx, hb⟩ := send_msgs (s := s) (o := o)
  rw [State.sendFor]
  split
  · exact ⟨x, hx, hb⟩
  · exact ⟨x, hx, hb⟩

theorem partner_of_frame {ps : List Part} {W : List Rect} (h : Frame ps W s t) (hw : s.regsWf = true)
    (ha : apartAll W F.pairStatus_pState = true) : t.partner = s.partner := congrArg modOfCode (h.fget hw ha)

theorem bank_of_frame {ps : List Part} {W : List Rect} (h : Frame ps W s t) (hw : s.regsWf = true)
    (ha : apartAll W F.olcStatus_activeBank = true) : t.bank = s.bank := by
  rw [State.bank, State.bankB, h.fbit hw ha]
  rfl

/-! What each command does to the package. -/

/-- A package discarded. -/
def discarded (s : State) : State :=
  { ((s.setPkg pkgEmpty).fsetb F.olcStatus_pairReady false).fset F.rfxStatus_exchPend 0 with
    olc := { s.olc with partnerPkg := none } }.countForces

theorem pkgDiscard_eq : s.pkgDiscard = if s.pkgState = pkgChecked ∨ s.pkgState = pkgRefused then some (discarded s) else none := rfl

abbrev discardedPlaces : List Rect := [.reg R.olcForces, .reg R.olcConflicts, .fld F.olcStatus_forceConflict, .fld F.olcStatus_pkgState,
  .fld F.olcStatus_pairReady, .fld F.rfxStatus_exchPend]

theorem frame_discarded : Frame [.regs, .olc] discardedPlaces s (discarded s) :=
  .after (frame_forcesCounted _).sub (.after .olc (.after .fset (.after .fsetb .fset)))

theorem discarded_shows (hw : s.regsWf = true) : (discarded s).fget F.olcStatus_pkgState = 0 ∧ (discarded s).fbit F.olcStatus_pairReady = false := by
  have h1 : (s.setPkg pkgEmpty).fget F.olcStatus_pkgState = 0 := fget_fset hw (by decide)
  have hw1 : (s.setPkg pkgEmpty).regsWf = true := regsWf_fset hw
  have h2 : ((s.setPkg pkgEmpty).fsetb F.olcStatus_pairReady false).fbit F.olcStatus_pairReady = false := fbit_fsetb hw1 (by decide) rfl
  have hf : Frame [.regs, .olc] [.reg R.olcForces, .reg R.olcConflicts, .fld F.olcStatus_forceConflict, .fld F.rfxStatus_exchPend]
      ((s.setPkg pkgEmpty).fsetb F.olcStatus_pairReady false) (discarded s) := .after (frame_forcesCounted _).sub (.after .olc .fset)
  exact ⟨(hf.fget (regsWf_fsetb hw1)).trans ((fget_fsetb_beside hw1 (by decide) (by decide)).trans h1), (hf.fbit (regsWf_fsetb hw1)).trans h2⟩

/-- A package armed. -/
theorem pkgSwitch_arms (hp : s.pkgState = pkgChecked) (hc : s.rd R.olcConflicts = 0 ∨ rel = true) (hm : s.mod = .primary ∨ s.mod = .alone)
    (hr : s.scan.run = .running) : s.pkgSwitch rel = some (s.setPkg pkgArmed) := by
  unfold State.pkgSwitch
  dsimp only
  rw [if_neg (not_or.mpr ⟨not_not.mpr hp, fun h => ?_⟩), if_pos ?_]
  · rcases hm with h | h <;> rw [h, hr] <;> rfl
  · rcases hc with hc | hc
    · exact h.1 hc
    · rw [hc] at h
      exact absurd h.2 (by decide)

theorem pkgSwitch_refuses (h : s.pkgState ≠ pkgChecked ∨ (s.rd R.olcConflicts ≠ 0 ∧ rel = false)) : s.pkgSwitch rel = none := by
  refine if_pos (h.imp id fun h => ⟨h.1, ?_⟩)
  rw [h.2]
  rfl

theorem setPkg_shows (hw : s.regsWf = true) (hn : n < 16) : (s.setPkg n).fget F.olcStatus_pkgState = n :=
  (fget_fset hw (by decide)).trans (Nat.mod_eq_of_lt hn)

theorem pkgCancel_eq : s.pkgCancel = if s.pkgState = pkgArmed then some s.olcCancel else none := rfl

theorem olcCancel_shows (hw : s.regsWf = true) (h : s.pkgState = pkgArmed) :
    s.olcCancel.fget F.olcStatus_pkgState = 3 ∧ s.olcCancel.rd R.olcRefuse = 0x24 := by
  have he : s.olcCancel = ((s.fset F.olcStatus_pkgState 3).wr R.olcRefuse 0x24).raise hapPkg 0 [0x24] := if_pos h
  have h1 : (s.fset F.olcStatus_pkgState 3).fget F.olcStatus_pkgState = 3 := setPkg_shows hw (by decide)
  have hf : Frame [.regs, .recd] [.reg R.olcRefuse] (s.fset F.olcStatus_pkgState 3) s.olcCancel := by
    rw [he]
    exact .after .raise .wr
  refine ⟨(hf.fget (regsWf_fset hw)).trans h1, ?_⟩
  rw [he]
  exact rd_wr_self (regsWf_fset hw)

/-! By register. -/

theorem exec_olcDiscard_writes (hs : s.writes m R.olcCmd) : exec (.olcDiscard m key) s = .next (s.olcCmd 1 false key.toNat) :=
  asWrite_writes (f := fun s => s.olcCmd 1 false key.toNat) hs

theorem exec_olcSwitchRequest_writes (hs : s.writes m R.olcCmd) : exec (.olcSwitchRequest m rel key) s = .next (s.olcCmd 2 rel key.toNat) :=
  asWrite_writes (f := fun s => s.olcCmd 2 rel key.toNat) hs

theorem exec_olcCancel_writes (hs : s.writes m R.olcCmd) : exec (.olcCancel m key) s = .next (s.olcCmd 3 false key.toNat) :=
  asWrite_writes (f := fun s => s.olcCmd 3 false key.toNat) hs

theorem toNat_key : key = 0x0C4A ↔ key.toNat = 0x0C4A := by
  rw [← BitVec.toNat_inj]
  rfl

/-- A command that the package's block does not take is ignored. -/
theorem olcCmd_unkeyed {k : Nat} (h : key ≠ 0x0C4A) : s.olcCmd k rel key.toNat = s.bump 0x4010 := by
  have hk : key.toNat ≠ 0x0C4A := fun e => h (toNat_key.mpr e)
  unfold State.olcCmd
  dsimp only
  rw [if_pos hk]
  exact ignoredIn_eq (by decide)

theorem olcCmd_discard (h : key = 0x0C4A) :
    s.olcCmd 1 rel key.toNat = (s.pkgDiscard.map (·.tellPartner (.item opDiscard [] []))).getD (s.bump 0x4010) := by
  unfold State.olcCmd
  dsimp only
  rw [if_neg (not_not.mpr (toNat_key.mp h)), ignoredIn_eq (by decide)]
  rfl

theorem olcCmd_switch (h : key = 0x0C4A) : s.olcCmd 2 rel key.toNat = (if s.mod = .standby then none else
    (s.pkgSwitch rel).map (·.tellPartner (.item opSwitch [BitVec.ofNat 64 (bit rel)] []))).getD (s.bump 0x4010) := by
  unfold State.olcCmd
  dsimp only
  rw [if_neg (not_not.mpr (toNat_key.mp h)), ignoredIn_eq (by decide)]
  rfl

theorem olcCmd_cancel (h : key = 0x0C4A) :
    s.olcCmd 3 rel key.toNat = (s.pkgCancel.map (·.tellPartner (.item opCancel [] []))).getD (s.bump 0x4010) := by
  unfold State.olcCmd
  dsimp only
  rw [if_neg (not_not.mpr (toNat_key.mp h)), ignoredIn_eq (by decide)]
  rfl

/-- The clauses of the commands by register. -/
theorem olcRegister_clauses (hw : s.regsWf = true) (hs : s.writes m R.olcCmd) :
    let st := s.fget F.olcStatus_pkgState
    let ignored (i : Instr) : Prop := ∃ t, exec i s = .next t ∧ onlyRegs [0x4010] s t ∧
      (t.rd 0x4010).toNat = satAdd 32 (s.rd 0x4010).toNat 1
    (key ≠ 0x0C4A → ignored (.olcDiscard m key) ∧ ignored (.olcSwitchRequest m rel key) ∧ ignored (.olcCancel m key)) ∧
    (st ≠ 3 → st ≠ 4 → ignored (.olcDiscard m key)) ∧ (st ≠ 3 → ignored (.olcSwitchRequest m rel key)) ∧
    (st ≠ 5 → ignored (.olcCancel m key)) ∧ (s.mod = .standby → ignored (.olcSwitchRequest m rel key)) ∧
    (s.rd R.olcConflicts ≠ 0 → rel = false → ignored (.olcSwitchRequest m rel key)) := by
  intro st ignored
  have hi {i : Instr} (h : exec i s = .next (s.bump 0x4010)) : ignored i := ⟨_, h, onlyRegs_wr, toNat_rd_bump hw⟩
  have hd : key ≠ 0x0C4A ∨ (st ≠ 3 ∧ st ≠ 4) → ignored (.olcDiscard m key) := fun h => by
    refine hi ((exec_olcDiscard_writes hs).trans (congrArg _ ?_))
    by_cases hk : key = 0x0C4A
    · have hn : ¬ (s.pkgState = pkgChecked ∨ s.pkgState = pkgRefused) := not_or.mpr (h.resolve_left fun e => e hk)
      rw [olcCmd_discard hk, pkgDiscard_eq, if_neg hn]
      rfl
    · exact olcCmd_unkeyed hk
  have hq : key ≠ 0x0C4A ∨ s.mod = .standby ∨ st ≠ 3 ∨ (s.rd R.olcConflicts ≠ 0 ∧ rel = false) → ignored (.olcSwitchRequest m rel key) := fun h => by
    refine hi ((exec_olcSwitchRequest_writes hs).trans (congrArg _ ?_))
    by_cases hk : key = 0x0C4A
    · rw [olcCmd_switch hk]
      by_cases hm : s.mod = .standby
      · rw [if_pos hm]
        rfl
      · rw [if_neg hm, pkgSwitch_refuses ((h.resolve_left fun e => e hk).resolve_left hm)]
        rfl
    · exact olcCmd_unkeyed hk
  have hc : key ≠ 0x0C4A ∨ st ≠ 5 → ignored (.olcCancel m key) := fun h => by
    refine hi ((exec_olcCancel_writes hs).trans (congrArg _ ?_))
    by_cases hk : key = 0x0C4A
    · have hn : s.pkgState ≠ pkgArmed := h.resolve_left fun e => e hk
      rw [olcCmd_cancel hk, pkgCancel_eq, if_neg hn]
      rfl
    · exact olcCmd_unkeyed hk
  exact ⟨fun h => ⟨hd (.inl h), hq (.inl h), hc (.inl h)⟩, fun h3 h4 => hd (.inr ⟨h3, h4⟩), fun h => hq (.inr (.inr (.inl h))),
    fun h => hc (.inr h), fun h => hq (.inr (.inl h)), fun h hr => hq (.inr (.inr (.inr ⟨h, hr⟩)))⟩

theorem olcDiscard_acts (hw : s.regsWf = true) (hs : s.writes m R.olcCmd) (hk : key = 0x0C4A)
    (hst : s.fget F.olcStatus_pkgState = 3 ∨ s.fget F.olcStatus_pkgState = 4) :
    ∃ t, exec (.olcDiscard m key) s = .next t ∧ t.fget F.olcStatus_pkgState = 0 ∧
      t.fbit F.olcStatus_pairReady = false ∧ t.bank = s.bank ∧ t.mem = s.mem ∧
      keepsRegs [R.olcStatus, R.rfxStatus, R.olcForces, R.olcConflicts] s t := by
  have hf := frame_discarded (s := s)
  have ht := frame_tellPartner (discarded s) (.item opDiscard [] [])
  have hall : Frame [.out, .pair, .regs, .olc] discardedPlaces s _ := .trans hf.sub ht.sub
  obtain ⟨h1, h2⟩ := discarded_shows hw
  have hwd := hf.canon hw
  refine ⟨_, ?_, (ht.fget hwd).trans h1, (ht.fbit hwd).trans h2, bank_of_frame hall hw rfl, hall.part .mem (by decide), hall.keepsRegs hw⟩
  rw [exec_olcDiscard_writes hs, olcCmd_discard hk, pkgDiscard_eq, if_pos (show s.pkgState = pkgChecked ∨ s.pkgState = pkgRefused from hst)]
  rfl

theorem olcSwitchRequest_acts (hw : s.regsWf = true) (hs : s.writes m R.olcCmd) (hk : key = 0x0C4A)
    (hst : s.fget F.olcStatus_pkgState = 3) (hc : s.rd R.olcConflicts = 0 ∨ rel = true) (hm : s.mod = .primary ∨ s.mod = .alone)
    (hr : s.scan.run = .running) : ∃ t, exec (.olcSwitchRequest m rel key) s = .next t ∧ t.fget F.olcStatus_pkgState = 5 ∧
      t.bank = s.bank ∧ t.mem = s.mem ∧ keepsRegs [R.olcStatus] s t := by
  have hf := frame_setPkg s pkgArmed
  have ht := frame_tellPartner (s.setPkg pkgArmed) (.item opSwitch [BitVec.ofNat 64 (bit rel)] [])
  have hall : Frame [.out, .pair, .regs] [.fld F.olcStatus_pkgState] s _ := .trans hf.sub ht.sub
  refine ⟨_, ?_, (ht.fget (hf.canon hw)).trans (setPkg_shows hw (by decide)), bank_of_frame hall hw rfl, hall.part .mem (by decide),
    hall.keepsRegs hw⟩
  have hns : s.mod ≠ .standby := fun e => by
    rw [e] at hm
    rcases hm with h | h <;> cases h
  rw [exec_olcSwitchRequest_writes hs, olcCmd_switch hk, if_neg hns, pkgSwitch_arms hst hc hm hr]
  rfl

theorem olcCancel_acts (hw : s.regsWf = true) (hs : s.writes m R.olcCmd) (hk : key = 0x0C4A) (hst : s.fget F.olcStatus_pkgState = 5) :
    ∃ t, exec (.olcCancel m key) s = .next t ∧ t.fget F.olcStatus_pkgState = 3 ∧
      t.rd R.olcRefuse = 0x24 ∧ t.bank = s.bank ∧ t.mem = s.mem ∧ keepsRegs [R.olcStatus, R.olcRefuse] s t := by
  have hf := frame_olcCancel s
  have ht := frame_tellPartner s.olcCancel (.item opCancel [] [])
  have hall : Frame [.out, .pair, .regs, .recd] [.fld F.olcStatus_pkgState, .reg R.olcRefuse] s _ := .trans hf.sub ht.sub
  obtain ⟨h1, h2⟩ := olcCancel_shows hw hst
  refine ⟨_, ?_, (ht.fget (hf.canon hw)).trans h1, (ht.rd (hf.canon hw)).trans h2, bank_of_frame hall hw rfl, hall.part .mem (by decide),
    hall.keepsRegs hw⟩
  rw [exec_olcCancel_writes hs, olcCmd_cancel hk, pkgCancel_eq, if_pos (show s.pkgState = pkgArmed from hst)]
  rfl

theorem switchWait_expires (hw : s.regsWf = true) (hst : s.fget F.olcStatus_pkgState = 5) :
    ∃ t, exec .switchWaitExpiry s = .next t ∧ t.fget F.olcStatus_pkgState = 3 ∧
      t.rd R.olcRefuse = 0x22 ∧ t.mem = s.mem ∧ keepsRegs [R.olcStatus, R.olcRefuse, R.olcRefuseArg] s t := by
  have hf := frame_setPkg s pkgChecked
  have ht := frame_olcCode (s.setPkg pkgChecked) 0x22 0
  have hall : Frame [.regs, .recd] [.fld F.olcStatus_pkgState, .reg R.olcRefuse, .reg R.olcRefuseArg] s _ := .trans hf.sub ht.sub
  refine ⟨_, congrArg Host.Outcome.next (if_pos (beq_iff_eq.mpr hst)), (ht.fget (hf.canon hw)).trans (setPkg_shows hw (by decide)), ?_,
    hall.part .mem (by decide), hall.keepsRegs hw⟩
  exact (rd_wr_ne (by decide)).trans (rd_wr_self (hf.canon hw))

/-! By ring. -/

theorem olcDone_refused {o : Out} : s.olcDone c none o = s.cmdDone c.id 0x0103 (fldN (s.rd R.olcRefuse).toNat 0 8) := rfl

theorem olcDone_done {o : Out} : s.olcDone c (some t) o = (t.sendFor c.id o).cmdDone c.id 0 0 := rfl

theorem pkgLoad_refused {n : Fin 16} (hb : s.begins n 0x09 c) (ha : s.accepts 0x09 c) (h : s.pkgState = pkgChecked) :
    ∃ r, exec (.pkgLoad n) s = .next (s.cmdDone c.id 0x0103 r) := by
  have hl : s.pkgLoad clsMc c.desc.arg0.toNat c.dataBytes = (s, 0x0103) := by
    unfold State.pkgLoad
    dsimp only
    rw [h]
    rfl
  rw [exec_pkgLoad, execPkgLoad, runCmd_accepts hb ha]
  dsimp only
  rw [hl, State.statusDone]
  dsimp only
  exact ⟨_, congrArg Host.Outcome.next (if_pos (by decide))⟩

/-- A block written to the inactive bank. -/
def blockTaken (s : State) (off : Nat) (data : List Byte) : State :=
  let t := ((s.setPkg pkgLoading).wrMem (s.idle + off) data).wr R.olcLoaded (BitVec.ofNat 32 (off + data.length))
  if decide (t.hBankLen t.idle ≤ off + data.length) then { t.setPkg pkgChecking with olc := { t.olc with partnerPkg := none } } else t

theorem pkgLoad_takes {off : Nat} {data : List Byte} (h : s.pkgState = pkgLoading) (ho : off = (s.rd R.olcLoaded).toNat)
    (hl : off + data.length ≤ 0x1000000) (hg : (s.mcAccess .write (s.idle + off) data.length).2 = true) :
    s.pkgLoad clsMc off data = (blockTaken s off data, 0) := by
  unfold State.pkgLoad
  dsimp only
  rw [h, if_neg (by decide), if_neg (by rw [← ho]; exact not_or.mpr ⟨fun e => e rfl, by omega⟩), if_pos rfl, if_neg (by rw [hg]; decide),
    mcAccess_granted hg]
  rfl

theorem blockTaken_shows {off : Nat} {data : List Byte} (hw : s.regsWf = true) :
    (blockTaken s off data).mem = s.mem.write (s.idle + off) data ∧
    ((blockTaken s off data).pkgState = pkgLoading ∨ (blockTaken s off data).pkgState = pkgChecking) ∧
    (blockTaken s off data).rd R.olcLoaded = BitVec.ofNat 32 (off + data.length) ∧
    Frame [.regs, .mem, .olc] [.fld F.olcStatus_pkgState, .reg R.olcLoaded] s (blockTaken s off data) := by
  unfold blockTaken
  extract_lets t
  have hw1 : ((s.setPkg pkgLoading).wrMem (s.idle + off) data).regsWf = true := regsWf_fset hw
  have hmem : t.mem = s.mem.write (s.idle + off) data := rfl
  have hst : t.pkgState = pkgLoading := (fget_wr_off (by decide)).trans (setPkg_shows hw (by decide))
  have hld : t.rd R.olcLoaded = BitVec.ofNat 32 (off + data.length) := rd_wr_self hw1
  have hf : Frame [.regs, .mem, .olc] [.fld F.olcStatus_pkgState, .reg R.olcLoaded] s t := .after .wr (.after .wrMem (frame_setPkg ..).sub)
  have hwt : t.regsWf = true := regsWf_wr hw1
  clear_value t
  split
  · exact ⟨hmem, .inr (setPkg_shows hwt (by decide)), (rd_fset_ne (by decide)).trans hld, hf.trans (.after .olc (frame_setPkg ..).sub)⟩
  · exact ⟨hmem, .inl hst, hld, hf⟩

/-- What the ring's command leaves once its item is sent on. -/
theorem sendFor_rests {k : Nat} {o : Out} (hw : s.regsWf = true) :
    (s.sendFor k o).pkgState = s.pkgState ∧ (s.sendFor k o).mem = s.mem ∧ ∀ r, (s.sendFor k o).rd r = s.rd r :=
  have h := frame_sendFor s k o
  ⟨h.fget hw, h.part .mem (by decide), fun _ => h.rd hw⟩

theorem pkgLoad_loads {n : Fin 16} (hw : s.regsWf = true) (hb : s.begins n 0x09 c) (ha : s.accepts 0x09 c) (h : s.pkgState = pkgLoading)
    (ho : c.desc.arg0.toNat = (s.rd R.olcLoaded).toNat) (hl : c.desc.arg0.toNat + c.dataBytes.length ≤ 0x1000000)
    (hg : (s.mcAccess .write (s.idle + c.desc.arg0.toNat) c.dataBytes.length).2 = true) :
    ∃ u : State, exec (.pkgLoad n) s = .next (u.cmdDone c.id 0 0) ∧ u.mem = s.mem.write (s.idle + c.desc.arg0.toNat) c.dataBytes ∧
      (u.pkgState = pkgLoading ∨ u.pkgState = pkgChecking) ∧
      u.rd R.olcLoaded = BitVec.ofNat 32 (c.desc.arg0.toNat + c.dataBytes.length) ∧
      (s.partner ≠ .off → ∃ x ∈ u.pair.msgs, x.body = .pkgBlock c.desc.arg0.toNat c.dataBytes) := by
  obtain ⟨hmem, hst, hld, hf⟩ := blockTaken_shows (off := c.desc.arg0.toNat) (data := c.dataBytes) hw
  obtain ⟨h1, h2, h3⟩ := sendFor_rests (k := c.id) (o := .pkgBlock c.desc.arg0.toNat c.dataBytes) (hf.canon hw)
  refine ⟨(blockTaken s c.desc.arg0.toNat c.dataBytes).sendFor c.id (.pkgBlock c.desc.arg0.toNat c.dataBytes), ?_, h2.trans hmem,
    by rw [h1]; exact hst, (h3 _).trans hld, fun hp => sendFor_tells (by rw [partner_of_frame hf hw rfl]; exact hp)⟩
  rw [exec_pkgLoad, execPkgLoad, runCmd_accepts hb ha]
  dsimp only
  rw [pkgLoad_takes h ho hl hg, State.statusDone]
  exact congrArg Host.Outcome.next (if_neg fun e => e rfl)

theorem pkgSwitch_clauses {n : Fin 16} (hw : s.regsWf = true) (hb : s.begins n 0x0A c) (ha : s.accepts 0x0A c) :
    (s.pkgState ≠ pkgChecked → ∃ r, exec (.pkgSwitch n) s = .next (s.cmdDone c.id 0x0103 r)) ∧
    (s.pkgState = pkgChecked → s.rd R.olcConflicts = 0 → s.scan.run = .running → s.mod ≠ .service → ∃ u : State,
      exec (.pkgSwitch n) s = .next (u.cmdDone c.id 0 0) ∧ u.pkgState = pkgArmed ∧ u.mem = s.mem ∧
      ∃ a, s.partner ≠ .off → ∃ x ∈ u.pair.msgs, x.body = .item 0x0A a []) := by
  have hex : exec (.pkgSwitch n) s = .next (s.olcDone c (s.pkgSwitch (c.desc.arg0.getLsbD 0))
      (.item opSwitch [BitVec.ofNat 64 (bit (c.desc.arg0.getLsbD 0))] [])) := by
    rw [exec_pkgSwitch, execPkgSwitch, runCmd_accepts hb ha]
  refine ⟨fun h => ?_, fun h hc hr hm => ?_⟩
  · rw [pkgSwitch_refuses (.inl h), olcDone_refused] at hex
    exact ⟨_, hex⟩
  · have hpa : s.mod = .primary ∨ s.mod = .alone := by
      obtain ⟨-, hop, -⟩ := ha
      revert hop hm
      generalize (s.partner == .off) = b
      cases s.mod <;> cases b <;> decide
    have hf := frame_setPkg s pkgArmed
    obtain ⟨h1, h2, -⟩ := sendFor_rests (s := s.setPkg pkgArmed) (k := c.id)
      (o := .item opSwitch [BitVec.ofNat 64 (bit (c.desc.arg0.getLsbD 0))] []) (hf.canon hw)
    refine ⟨(s.setPkg pkgArmed).sendFor c.id (.item opSwitch [BitVec.ofNat 64 (bit (c.desc.arg0.getLsbD 0))] []), hex.trans ?_,
      h1.trans (setPkg_shows hw (by decide)), h2, _, fun hp => sendFor_tells (by rw [partner_of_frame hf hw rfl]; exact hp)⟩
    rw [pkgSwitch_arms h (.inl hc) hpa hr, olcDone_done]

theorem pkgCancel_clauses {n : Fin 16} (hw : s.regsWf = true) (hb : s.begins n 0x0B c) (ha : s.accepts 0x0B c) :
    (s.pkgState ≠ pkgArmed → ∃ r, exec (.pkgCancel n) s = .next (s.cmdDone c.id 0x0103 r)) ∧
    (s.pkgState = pkgArmed → ∃ u : State, exec (.pkgCancel n) s = .next (u.cmdDone c.id 0 0) ∧ u.pkgState = pkgChecked ∧
      u.rd R.olcRefuse = 0x24 ∧ (s.partner ≠ .off → ∃ x ∈ u.pair.msgs, x.body = .item 0x0B [] [])) := by
  have hex : exec (.pkgCancel n) s = .next (s.olcDone c s.pkgCancel (.item opCancel [] [])) := by
    rw [exec_pkgCancel, execPkgCancel, runCmd_accepts hb ha]
  refine ⟨fun h => ?_, fun h => ?_⟩
  · rw [pkgCancel_eq, if_neg h, olcDone_refused] at hex
    exact ⟨_, hex⟩
  · have hf := frame_olcCancel s
    obtain ⟨c1, c2⟩ := olcCancel_shows hw h
    obtain ⟨h1, -, h3⟩ := sendFor_rests (s := s.olcCancel) (k := c.id) (o := .item opCancel [] []) (hf.canon hw)
    refine ⟨s.olcCancel.sendFor c.id (.item opCancel [] []), hex.trans ?_, h1.trans c1, (h3 _).trans c2,
      fun hp => sendFor_tells (by rw [partner_of_frame hf hw rfl]; exact hp)⟩
    rw [pkgCancel_eq, if_pos h, olcDone_done]

theorem pkgDiscard_clauses {n : Fin 16} (hw : s.regsWf = true) (hb : s.begins n 0x0C c) (ha : s.accepts 0x0C c) :
    (s.pkgState ≠ pkgChecked → s.pkgState ≠ pkgRefused → ∃ r, exec (.pkgDiscard n) s = .next (s.cmdDone c.id 0x0103 r)) ∧
    ((s.pkgState = pkgChecked ∨ s.pkgState = pkgRefused) → ∃ u : State, exec (.pkgDiscard n) s = .next (u.cmdDone c.id 0 0) ∧
      u.pkgState = pkgEmpty ∧ u.mem = s.mem ∧ (s.partner ≠ .off → ∃ x ∈ u.pair.msgs, x.body = .item 0x0C [] [])) := by
  have hex : exec (.pkgDiscard n) s = .next (s.olcDone c s.pkgDiscard (.item opDiscard [] [])) := by
    rw [exec_pkgDiscard, execPkgDiscard, runCmd_accepts hb ha]
  refine ⟨fun h3 h4 => ?_, fun h => ?_⟩
  · rw [pkgDiscard_eq, if_neg (not_or.mpr ⟨h3, h4⟩), olcDone_refused] at hex
    exact ⟨_, hex⟩
  · have hf := frame_discarded (s := s)
    obtain ⟨h1, h2, -⟩ := sendFor_rests (s := discarded s) (k := c.id) (o := .item opDiscard [] []) (hf.canon hw)
    refine ⟨(discarded s).sendFor c.id (.item opDiscard [] []), hex.trans ?_, h1.trans (discarded_shows hw).1,
      h2.trans (hf.part .mem (by decide)), fun hp => sendFor_tells (by rw [partner_of_frame hf hw rfl]; exact hp)⟩
    rw [pkgDiscard_eq, if_pos h, olcDone_done]

/-- Settles O24: the commands of OLC_CMD, the end of the wait for a switch, and the package commands of a ring. -/
theorem packageCommands : Obligations.PackageCommands := by
  refine ⟨fun m key rel s hw hs => ?_, fun s hw => ⟨switchWait_expires hw, fun h => ?_⟩, fun n c s hw => ?_⟩
  · obtain ⟨h1, h2, h3, h4, h5, h6⟩ := olcRegister_clauses (key := key) (rel := rel) hw hs
    exact ⟨h1, h2, h3, h4, h5, h6, olcDiscard_acts hw hs, fun a b c d e => olcSwitchRequest_acts hw hs a b c d e, olcCancel_acts hw hs⟩
  · exact congrArg Host.Outcome.next (if_neg fun e => h (beq_iff_eq.mp e))
  · exact ⟨fun h => ⟨pkgLoad_refused h.1 h.2, fun a b c d => pkgLoad_loads hw h.1 h.2 a b c d⟩, fun h => pkgSwitch_clauses hw h.1 h.2,
      fun h => pkgCancel_clauses hw h.1 h.2, fun h => pkgDiscard_clauses hw h.1 h.2⟩

end Sys2Proof.Machine
end

section
/-! The cartridge's metering (R424 to R428, R438, R439). -/

namespace Sys2Proof.Machine

variable {s t : State} {c d : Cartridge} {f i : Nat}

/-! Energy, feeder by feeder. -/

/-- What a register holds, in mW for 125 µs: 28,800,000 of them are 1 mWh. -/
def heldEnergy (c : Cartridge) (i : Nat) : Nat := vget c.energy i * 28800000 + vget c.rest i

theorem heldEnergy_addEnergy {k mw : Nat} (hk : k < 16) : heldEnergy (addEnergy c k mw) i = heldEnergy c i + if i = k then mw else 0 := by
  unfold heldEnergy addEnergy
  dsimp only
  by_cases hi : i = k
  · rw [hi, vget_vset_self hk, vget_vset_self hk, if_pos rfl]
    omega
  · rw [vget_vset_ne hi, vget_vset_ne hi, if_neg hi, Nat.add_zero]

/-- What one feeder adds to a register. -/
def feederAdds (c : Cartridge) (f : Nat) (p q : Int) (i : Nat) : Nat :=
  if feederOn c f = false then 0
  else (if i = 4 * f + (if 0 ≤ primary c f p then 0 else 1) then (primary c f p).natAbs else 0) +
    (if i = 4 * f + (if 0 ≤ primary c f q then 2 else 3) then (primary c f q).natAbs else 0)

theorem heldEnergy_meterFeeder {p q : Int} {ma : Nat} (hf : f < 4) :
    heldEnergy (meterFeeder c f p q ma) i = heldEnergy c i + feederAdds c f p q i := by
  unfold meterFeeder feederAdds
  by_cases hon : feederOn c f = false
  · rw [if_pos hon, if_pos (by rw [hon]; rfl), Nat.add_zero]
  · rw [if_neg hon, if_neg (by simpa using hon)]
    have h1 : 4 * f + (if 0 ≤ primary c f p then 0 else 1) < 16 := by split <;> omega
    have h2 : 4 * f + (if 0 ≤ primary c f q then 2 else 3) < 16 := by split <;> omega
    refine (heldEnergy_addEnergy (c := addEnergy c _ _) h2).trans ?_
    rw [heldEnergy_addEnergy h1, Nat.add_assoc]

/-- Two cartridges that differ at most in what metering adds up. -/
def metersAlike (c d : Cartridge) : Prop :=
  d = { c with energy := d.energy, rest := d.rest, sumP := d.sumP, sumQ := d.sumQ, beyond := d.beyond, below := d.below }

theorem metersAlike_meterFeeder {p q : Int} {ma : Nat} : metersAlike c (meterFeeder c f p q ma) := by
  unfold metersAlike meterFeeder
  split <;> rfl

theorem metersAlike_trans {e : Cartridge} (h1 : metersAlike c d) (h2 : metersAlike d e) : metersAlike c e := by
  unfold metersAlike at *
  rw [h2, h1]

theorem pars_of_metersAlike (h : metersAlike c d) : d.pars = c.pars := by
  unfold metersAlike at h
  exact (congrArg Cartridge.pars h :)

theorem feederAdds_of_metersAlike {p q : Int} (h : metersAlike c d) : feederAdds d f p q i = feederAdds c f p q i := by
  have hp := pars_of_metersAlike h
  unfold feederAdds feederOn primary feederIn cpar
  rw [hp]

/-- The four feeders of one computation. -/
def metered (c : Cartridge) (p q : Vector Int 4) (ma : Vector Nat 4) : Cartridge :=
  [0, 1, 2, 3].foldl (fun c f => meterFeeder c f (vget p f) (vget q f) (vget ma f)) c

theorem metered_eq (p q : Vector Int 4) (ma : Vector Nat 4) : metersAlike c (metered c p q ma) ∧
    heldEnergy (metered c p q ma) i = heldEnergy c i + feederAdds c 0 (vget p 0) (vget q 0) i + feederAdds c 1 (vget p 1) (vget q 1) i +
      feederAdds c 2 (vget p 2) (vget q 2) i + feederAdds c 3 (vget p 3) (vget q 3) i := by
  have step (b : Cartridge) (f : Nat) : metersAlike b (meterFeeder b f (vget p f) (vget q f) (vget ma f)) := metersAlike_meterFeeder
  have h0 := step c 0
  have h1 := metersAlike_trans h0 (step _ 1)
  have h2 := metersAlike_trans h1 (step _ 2)
  have h3 := metersAlike_trans h2 (step _ 3)
  refine ⟨h3, (heldEnergy_meterFeeder (by decide)).trans ?_⟩
  rw [heldEnergy_meterFeeder (by decide), heldEnergy_meterFeeder (by decide), heldEnergy_meterFeeder (by decide),
    feederAdds_of_metersAlike h0, feederAdds_of_metersAlike h1, feederAdds_of_metersAlike h2]

/-- Only its own feeder adds to a register. -/
theorem feederAdds_other {g k : Nat} {p q : Int} (hk : k < 4) (hg : g ≠ f) : feederAdds c g p q (4 * f + k) = 0 := by
  unfold feederAdds
  split
  · rfl
  · rw [if_neg (by split <;> omega), if_neg (by split <;> omega)]

theorem feederAdds_own {k : Nat} {p q : Int} : feederAdds c f p q (4 * f + k) =
    if feederOn c f = false then 0 else if k = (if 0 ≤ primary c f p then 0 else 1) then (primary c f p).natAbs
      else if k = (if 0 ≤ primary c f q then 2 else 3) then (primary c f q).natAbs else 0 := by
  unfold feederAdds
  by_cases hon : feederOn c f = false
  · rw [if_pos hon, if_pos hon]
  · rw [if_neg hon, if_neg hon]
    simp only [Nat.add_right_inj]
    by_cases hp : k = if 0 ≤ primary c f p then 0 else 1
    · have hq : ¬ k = if 0 ≤ primary c f q then 2 else 3 := by
        intro e
        split at hp <;> split at e <;> omega
      rw [if_pos hp, if_pos hp, if_neg hq, Nat.add_zero]
    · rw [if_neg hp, if_neg hp, Nat.zero_add]

/-- No energy is lost. -/
theorem metered_keeps (p q : Vector Int 4) (ma : Vector Nat 4) (f k : Fin 4) :
    heldEnergy (metered c p q ma) (4 * f.val + k.val) = heldEnergy c (4 * f.val + k.val) +
      feederAdds c f.val (vget p f.val) (vget q f.val) (4 * f.val + k.val) := by
  rw [(metered_eq p q ma).2]
  have h (g : Nat) (hg : g ≠ f.val) : feederAdds c g (vget p g) (vget q g) (4 * f.val + k.val) = 0 := feederAdds_other k.isLt hg
  generalize heldEnergy c (4 * f.val + k.val) = e
  rcases (by omega : f.val = 0 ∨ f.val = 1 ∨ f.val = 2 ∨ f.val = 3) with e | e | e | e <;> rw [e] at h ⊢
  · rw [h 1 (by decide), h 2 (by decide), h 3 (by decide)]
    omega
  · rw [h 0 (by decide), h 2 (by decide), h 3 (by decide)]
    omega
  · rw [h 0 (by decide), h 1 (by decide), h 3 (by decide)]
    omega
  · rw [h 0 (by decide), h 1 (by decide), h 2 (by decide)]
    omega

/-! What the cartridge's events leave as it was. -/

/-- Only the cartridge, its registers and its records changed. -/
def tcInside (s t : State) (d : Cartridge) : Prop := t.bay = { s.bay with cart := some d } ∧
  t = { s with regs := t.regs, bay := t.bay, recd := t.recd } ∧ ∀ off, (off < 0x13000 ∨ 0x14000 ≤ off) → t.rd off = s.rd off

theorem tcInside_of_frame (hw : s.regsWf = true) (h : Frame [.bay, .regs, .recd] [.blk 0x13] s t) (hb : t.bay = { s.bay with cart := some d }) :
    tcInside s t d := by
  refine ⟨hb, h.eq_patch, fun o ho => rd_of_frame h hw fun r hr => ?_⟩
  rw [List.mem_singleton.mp hr, ← Bool.not_eq_true, Rect.has_iff]
  dsimp only
  omega

theorem bay_showCart : s.showCart.bay = s.bay := frame_showCart.part .bay (by decide)

theorem bay_setCart : (s.setCart d).bay = { s.bay with cart := some d } := by
  unfold State.setCart
  extract_lets old oldLog b a u
  have ha : a.bay = { s.bay with cart := some d } := bay_showCart
  have hu : Frame [.recd] [] a u := .ite (.refl a) .raise
  have ht : Frame [.recd] [] u (if oldLog = d.log.length then u else u.raise hapCartLog 0 [d.serial, BitVec.ofNat 64 d.log.length]) :=
    .ite (.refl u) .raise
  clear_value a u
  exact (ht.part .bay (by decide)).trans ((hu.part .bay (by decide)).trans ha)

theorem tcInside_setCart (hw : s.regsWf = true) : tcInside s (s.setCart d) d := tcInside_of_frame hw frame_setCart bay_setCart

/-! What a snapshot shows. -/

/-- The registers of one feeder. -/
def feederShown (c : Cartridge) (n : Int) (s : State) (f : Nat) : State :=
  let e (s : State) (k : Nat) : State := s.wr64 (R.tcFfEpImpLo f + 8 * k) (BitVec.ofNat 64 (vget c.energy (4 * f + k) / 1000))
  let s := e (e (e (e s 0) 1) 2) 3
  let s := (s.wr (R.tcFfP f) (BitVec.ofInt 32 (vget c.sumP f / n / 1000))).wr (R.tcFfQ f) (BitVec.ofInt 32 (vget c.sumQ f / n / 1000))
  s.wr (R.tcFfStatus f) (BitVec.ofNat 32 (bit (feederOn c f) + bit (c.beyond.getLsbD f) * 2 + bit (c.below.getLsbD f) * 4))

/-- The registers of one pulse input. -/
def inputShown (c : Cartridge) (s : State) (k : Nat) : State :=
  let s := (s.wr64 (R.tcFlkTotalLo k) (BitVec.ofNat 64 (vget c.flow k))).wr (R.tcFlkRate k) (BitVec.ofNat 32 (vget c.flowNow k))
  s.wr (R.tcFlkStatus k) (BitVec.ofNat 32 (bit (cpar c (0x28 + k) != 0) + bit (c.overspeed.getLsbD k) * 2))

/-- The registers of one page. -/
def pageShown (c : Cartridge) (s : State) (q : Nat) : State :=
  (List.range 16).foldl (fun s w => s.wr (R.tcPgqWw (16 * q + w)) (BitVec.ofNat 32 (leNat (((pageBytes c q).drop (4 * w)).take 4)))) s

/-- What is shown of the cartridge itself, and its parameters. -/
def headShown (s : State) (c : Cartridge) : State :=
  let s := (s.wr64 R.tcSerialLo c.serial).wr R.tcSwId (BitVec.ofNat 32 (c.checkCode.toNat + c.version.toNat * 65536))
  let s := s.wr R.tcTemp (BitVec.ofInt 32 c.temp)
  (List.range 64).foldl (fun s i => s.wr (R.tcPari i) (vget c.pars i)) s

theorem publishCart_eq : s.publishCart c = (List.range 8).foldl (pageShown c) ((List.range 8).foldl (inputShown c)
    ((List.range 4).foldl (feederShown c (max c.sumN 1 : Nat)) (headShown s c))) := rfl

theorem rd64_of_rd {o : Nat} (h0 : t.rd o = s.rd o) (h4 : t.rd (o + 4) = s.rd (o + 4)) : t.rd64 o = s.rd64 o := by
  rw [State.rd64, State.rd64, h0, h4]

theorem rd_feederShown {n : Int} {o : Nat} (h : o < 0x13200 + f * 0x40 ∨ 0x13200 + f * 0x40 + 0x2C ≤ o) :
    (feederShown c n s f).rd o = s.rd o := by
  simp only [feederShown, State.wr64, R.tcFfEpImpLo, R.tcFfP, R.tcFfQ, R.tcFfStatus]
  simp (disch := omega) only [rd_wr_ne]

theorem rd_inputShown {k o : Nat} (h : o < 0x13400 + k * 0x10 ∨ 0x13400 + k * 0x10 + 0x10 ≤ o) : (inputShown c s k).rd o = s.rd o := by
  simp only [inputShown, State.wr64, R.tcFlkTotalLo, R.tcFlkRate, R.tcFlkStatus]
  simp (disch := omega) only [rd_wr_ne]

theorem rd_pageShown {q o : Nat} (h : o < 0x13600) : (pageShown c s q).rd o = s.rd o := by
  refine foldl_keeps (P := fun u => u.rd o = s.rd o) (fun u w _ hu => (rd_wr_ne ?_).trans hu) rfl
  simp only [R.tcPgqWw]
  omega

theorem regsWf_feederShown {n : Int} (h : s.regsWf = true) : (feederShown c n s f).regsWf = true :=
  regsWf_wr (regsWf_wr (regsWf_wr (regsWf_wr64 (regsWf_wr64 (regsWf_wr64 (regsWf_wr64 h))))))

theorem regsWf_inputShown {k : Nat} (h : s.regsWf = true) : (inputShown c s k).regsWf = true := regsWf_wr (regsWf_wr (regsWf_wr64 h))

theorem regsWf_headShown (h : s.regsWf = true) : (headShown s c).regsWf = true :=
  foldl_keeps (P := fun u => u.regsWf = true) (fun _ _ _ hu => regsWf_wr hu) (regsWf_wr (regsWf_wr (regsWf_wr64 h)))

theorem rd64_feederShown {n : Int} {k : Nat} (hw : s.regsWf = true) (hk : k < 4) :
    (feederShown c n s f).rd64 (R.tcFfEpImpLo f + 8 * k) = BitVec.ofNat 64 (vget c.energy (4 * f + k) / 1000) := by
  have other {u : State} {o : Nat} {v : W32} (h : o ≠ R.tcFfEpImpLo f + 8 * k) (h4 : o ≠ R.tcFfEpImpLo f + 8 * k + 4) :
      (u.wr o v).rd64 (R.tcFfEpImpLo f + 8 * k) = u.rd64 (R.tcFfEpImpLo f + 8 * k) := rd64_of_rd (rd_wr_ne h.symm) (rd_wr_ne h4.symm)
  have h1 := regsWf_wr64 (off := R.tcFfEpImpLo f + 8 * 0) (y := BitVec.ofNat 64 (vget c.energy (4 * f + 0) / 1000)) hw
  have h2 := regsWf_wr64 (off := R.tcFfEpImpLo f + 8 * 1) (y := BitVec.ofNat 64 (vget c.energy (4 * f + 1) / 1000)) h1
  have h3 := regsWf_wr64 (off := R.tcFfEpImpLo f + 8 * 2) (y := BitVec.ofNat 64 (vget c.energy (4 * f + 2) / 1000)) h2
  unfold feederShown
  dsimp only
  rw [other (by simp only [R.tcFfEpImpLo, R.tcFfStatus]; omega) (by simp only [R.tcFfEpImpLo, R.tcFfStatus]; omega),
    other (by simp only [R.tcFfEpImpLo, R.tcFfQ]; omega) (by simp only [R.tcFfEpImpLo, R.tcFfQ]; omega),
    other (by simp only [R.tcFfEpImpLo, R.tcFfP]; omega) (by simp only [R.tcFfEpImpLo, R.tcFfP]; omega)]
  have wide {u : State} {j : Nat} {v : W64} (hj : j ≠ k) :
      (u.wr64 (R.tcFfEpImpLo f + 8 * j) v).rd64 (R.tcFfEpImpLo f + 8 * k) = u.rd64 (R.tcFfEpImpLo f + 8 * k) := by
    rw [State.wr64, other (by omega) (by omega), other (by omega) (by omega)]
  rcases (by omega : k = 0 ∨ k = 1 ∨ k = 2 ∨ k = 3) with rfl | rfl | rfl | rfl
  · rw [wide (by decide), wide (by decide), wide (by decide), rd64_wr64 hw]
  · rw [wide (by decide), wide (by decide), rd64_wr64 h1]
  · rw [wide (by decide), rd64_wr64 h2]
  · rw [rd64_wr64 h3]

theorem rd64_inputShown {k : Nat} (hw : s.regsWf = true) :
    (inputShown c s k).rd64 (R.tcFlkTotalLo k) = BitVec.ofNat 64 (vget c.flow k) := by
  refine (rd64_of_rd (s := s.wr64 (R.tcFlkTotalLo k) (BitVec.ofNat 64 (vget c.flow k))) ?_ ?_).trans (rd64_wr64 hw) <;>
    exact (rd_wr_ne (by simp only [R.tcFlkTotalLo, R.tcFlkStatus]; omega)).trans (rd_wr_ne (by simp only [R.tcFlkTotalLo, R.tcFlkRate]; omega))

/-- The pages leave the other registers as they are. -/
theorem rd_pages {u : State} {o : Nat} (h : o < 0x13600) : ((List.range 8).foldl (pageShown c) u).rd o = u.rd o :=
  foldl_keeps (P := fun x => x.rd o = u.rd o) (fun _ _ _ hx => (rd_pageShown h).trans hx) rfl

theorem rd_inputs {u : State} {o : Nat} (h : o < 0x13400) : ((List.range 8).foldl (inputShown c) u).rd o = u.rd o :=
  foldl_keeps (P := fun x => x.rd o = u.rd o) (fun _ k _ hx => (rd_inputShown (by omega)).trans hx) rfl

theorem rd_feeders {n : Int} {u : State} {o : Nat} (h : o < 0x13200) : ((List.range 4).foldl (feederShown c n) u).rd o = u.rd o :=
  foldl_keeps (P := fun x => x.rd o = u.rd o) (fun _ f _ hx => (rd_feederShown (by omega)).trans hx) rfl

/-- The four feeders together. -/
theorem rd64_feeders {n : Int} {u : State} {k : Nat} (hu : u.regsWf = true) (hf : f < 4) (hk : k < 4) :
    ((List.range 4).foldl (feederShown c n) u).rd64 (R.tcFfEpImpLo f + 8 * k) = BitVec.ofNat 64 (vget c.energy (4 * f + k) / 1000) := by
  refine (foldl_own (P := fun x => x.regsWf = true) (Q := fun x => x.rd64 (R.tcFfEpImpLo f + 8 * k) =
    BitVec.ofNat 64 (vget c.energy (4 * f + k) / 1000)) List.nodup_range (List.mem_range.mpr hf) (fun x g _ _ hx => regsWf_feederShown hx)
    (fun x g _ hg hx => ?_) (fun x hx => rd64_feederShown hx hk) hu)
  refine (rd64_of_rd (rd_feederShown ?_) (rd_feederShown ?_)).trans hx <;> simp only [R.tcFfEpImpLo] <;> omega

/-- The eight inputs together. -/
theorem rd64_inputs {u : State} {k : Nat} (hu : u.regsWf = true) (hk : k < 8) :
    ((List.range 8).foldl (inputShown c) u).rd64 (R.tcFlkTotalLo k) = BitVec.ofNat 64 (vget c.flow k) := by
  refine (foldl_own (P := fun x => x.regsWf = true) (Q := fun x => x.rd64 (R.tcFlkTotalLo k) = BitVec.ofNat 64 (vget c.flow k))
    List.nodup_range (List.mem_range.mpr hk) (fun x g _ _ hx => regsWf_inputShown hx) (fun x g _ hg hx => ?_) (fun x hx => rd64_inputShown hx) hu)
  refine (rd64_of_rd (rd_inputShown ?_) (rd_inputShown ?_)).trans hx <;> simp only [R.tcFlkTotalLo] <;> omega

/-- The serial number and the registers that a snapshot shows. -/
theorem publishCart_shows (hw : s.regsWf = true) : (s.publishCart c).rd64 R.tcSerialLo = c.serial ∧
    (∀ f < 4, ∀ k < 4, (s.publishCart c).rd64 (R.tcFfEpImpLo f + 8 * k) = BitVec.ofNat 64 (vget c.energy (4 * f + k) / 1000)) ∧
    ∀ k < 8, (s.publishCart c).rd64 (R.tcFlkTotalLo k) = BitVec.ofNat 64 (vget c.flow k) := by
  have hh := regsWf_headShown (c := c) hw
  have hf : ((List.range 4).foldl (feederShown c (max c.sumN 1 : Nat)) (headShown s c)).regsWf = true :=
    foldl_keeps (P := fun u => u.regsWf = true) (fun _ _ _ hu => regsWf_feederShown hu) hh
  rw [publishCart_eq]
  refine ⟨?_, fun f hf k hk => ?_, fun k hk => ?_⟩
  · have hs : (headShown s c).rd64 R.tcSerialLo = c.serial := by
      refine foldl_keeps (P := fun u => u.rd64 R.tcSerialLo = c.serial) (fun u i _ hu => ?_) ?_
      · refine (rd64_of_rd (rd_wr_ne ?_) (rd_wr_ne ?_)).trans hu <;> simp only [R.tcSerialLo, R.tcPari] <;> omega
      · refine (rd64_of_rd (s := s.wr64 R.tcSerialLo c.serial) ?_ ?_).trans (rd64_wr64 hw) <;>
          exact (rd_wr_ne (by decide)).trans (rd_wr_ne (by decide))
    refine (rd64_of_rd ?_ ?_).trans hs <;> exact (rd_pages (by decide)).trans ((rd_inputs (by decide)).trans (rd_feeders (by decide)))
  · refine (rd64_of_rd ?_ ?_).trans (rd64_feeders (n := (max c.sumN 1 : Nat)) hh hf hk) <;>
      exact (rd_pages (by simp only [R.tcFfEpImpLo]; omega)).trans (rd_inputs (by simp only [R.tcFfEpImpLo]; omega))
  · refine (rd64_of_rd ?_ ?_).trans (rd64_inputs hf hk) <;> exact rd_pages (by simp only [R.tcFlkTotalLo]; omega)

/-! The registers that follow the cartridge. -/

abbrev cartPlaces : List Rect := [.reg R.tcState, .reg R.tcLogCount, .reg R.tcGapCnt]

theorem frame_cartShown : Frame [.regs] cartPlaces s s.showCart := by
  unfold State.showCart
  split
  · exact .refl s
  · exact .trans .wr (.trans .wr .wr)

theorem frame_cartSet : Frame [.bay, .regs, .recd] cartPlaces s (s.setCart c) := by
  unfold State.setCart
  extract_lets old oldLog _ a b
  have ha : Frame [.bay, .regs, .recd] cartPlaces s a := Frame.trans .bay frame_cartShown.sub
  have hb : Frame [.bay, .regs, .recd] cartPlaces s b := ha.trans (.ite (.refl a) .raise)
  exact hb.trans (.ite (.refl b) .raise)

theorem cover_tc {o : Nat} (h : 0x13100 ≤ o ∧ o < 0x14000) : coverAll [.span 0x13100 0x14000] ⟨o, 0, 32⟩ = true := cover_span 0x13100 0x14000 h

theorem frame_tcWr64 {o : Nat} {v : W64} (h : 0x13100 ≤ o ∧ o + 4 < 0x14000) : Frame [.regs] [.span 0x13100 0x14000] s (s.wr64 o v) :=
  .after (.wr (cover_tc (by omega))) (.wr (cover_tc (by omega)))

theorem frame_headShown : Frame [.regs] [.span 0x13100 0x14000] s (headShown s c) := by
  have hpar (u : State) (i : Nat) (hi : i ∈ List.range 64) : Frame [.regs] [.span 0x13100 0x14000] u (u.wr (R.tcPari i) (vget c.pars i)) := by
    refine .wr (cover_tc ?_)
    have := List.mem_range.mp hi
    simp only [R.tcPari]
    omega
  unfold headShown
  dsimp only
  exact .after (.foldl hpar _) (.after (.wr (cover_tc (by decide))) (.after (.wr (cover_tc (by decide))) (frame_tcWr64 (by decide))))

theorem frame_feederShown {n : Int} (hf : f < 4) : Frame [.regs] [.span 0x13100 0x14000] s (feederShown c n s f) := by
  have hwide (u : State) (k : Nat) (v : W64) (hk : k < 4) : Frame [.regs] [.span 0x13100 0x14000] u (u.wr64 (R.tcFfEpImpLo f + 8 * k) v) :=
    frame_tcWr64 (by simp only [R.tcFfEpImpLo]; omega)
  have hone (u : State) (o : Nat) (v : W32) (h : o = R.tcFfP f ∨ o = R.tcFfQ f ∨ o = R.tcFfStatus f) :
      Frame [.regs] [.span 0x13100 0x14000] u (u.wr o v) := .wr (cover_tc (by simp only [R.tcFfP, R.tcFfQ, R.tcFfStatus] at h; omega))
  unfold feederShown
  dsimp only
  exact .after (hone _ _ _ (.inr (.inr rfl))) <| .after (hone _ _ _ (.inr (.inl rfl))) <| .after (hone _ _ _ (.inl rfl)) <|
    .after (hwide _ 3 _ (by decide)) <| .after (hwide _ 2 _ (by decide)) <| .after (hwide _ 1 _ (by decide)) <| hwide _ 0 _ (by decide)

theorem frame_inputShown {k : Nat} (hk : k < 8) : Frame [.regs] [.span 0x13100 0x14000] s (inputShown c s k) := by
  unfold inputShown
  dsimp only
  exact .after (.wr (cover_tc (by simp only [R.tcFlkStatus]; omega))) <| .after (.wr (cover_tc (by simp only [R.tcFlkRate]; omega))) <|
    frame_tcWr64 (by simp only [R.tcFlkTotalLo]; omega)

theorem frame_pageShown {q : Nat} (hq : q < 8) : Frame [.regs] [.span 0x13100 0x14000] s (pageShown c s q) := by
  refine .foldl (fun _ w hw => .wr (cover_tc ?_)) _
  have := List.mem_range.mp hw
  simp only [R.tcPgqWw]
  omega

theorem frame_publishCart : Frame [.regs] [.span 0x13100 0x14000] s (s.publishCart c) := by
  rw [publishCart_eq]
  exact .after (.foldl (fun u q hq => frame_pageShown (List.mem_range.mp hq)) _) <|
    .after (.foldl (fun u k hk => frame_inputShown (List.mem_range.mp hk)) _) <|
    .after (.foldl (fun u f hf => frame_feederShown (List.mem_range.mp hf)) _) frame_headShown

/-! The events. -/

theorem metering_computes (hw : s.regsWf = true) (hc : s.bay.cart = some c) (hp : c.powered = true) (hm : c.metering = true)
    (p q : Vector Int 4) (ma : Vector Nat 4) (bad : Bool) (temp : Int) :
    ∃ t d, exec (.meteringCompute p q ma bad temp) s = .next t ∧ tcInside s t d ∧
      d = { c with energy := d.energy, rest := d.rest, sumP := d.sumP, sumQ := d.sumQ, sumN := c.sumN + 1, beyond := d.beyond,
                   below := d.below, temp := temp, outRange := bad || decide (temp < -250) || decide (700 < temp) } ∧
      ∀ (f k : Fin 4), heldEnergy d (4 * f.val + k.val) = heldEnergy c (4 * f.val + k.val) +
        feederAdds c f.val (vget p f.val) (vget q f.val) (4 * f.val + k.val) := by
  refine ⟨_, { metered c p q ma with sumN := c.sumN + 1, temp := temp, outRange := bad || decide (temp < -250) || decide (700 < temp) },
    ?_, tcInside_setCart hw, ?_, fun f k => metered_keeps p q ma f k⟩
  · rw [exec_meteringCompute, execMeteringCompute, hc]
    exact congrArg Host.Outcome.next (if_pos (by rw [hp, hm]; rfl))
  · have h := (metered_eq (c := c) (i := 0) p q ma).1
    unfold metersAlike at h
    rw [h]

theorem metering_pulse (hw : s.regsWf = true) (hc : s.bay.cart = some c) (k : Fin 8) (fast : Bool) :
    (c.powered = true → c.metering = true → (vget c.pars (0x28 + k.val)).toNat ≠ 0 →
      ∃ t d, exec (.meteringPulse k fast) s = .next t ∧ tcInside s t d ∧
        d = { c with flow := d.flow, flowNow := d.flowNow, overspeed := d.overspeed } ∧
        ∀ j : Fin 8, vget d.flow j.val = vget c.flow j.val + (if j = k then (vget c.pars (0x20 + k.val)).toNat % 2 ^ 24 else 0)) ∧
    ((c.metering = false ∨ (vget c.pars (0x28 + k.val)).toNat = 0) → exec (.meteringPulse k fast) s = .next s) := by
  rw [exec_meteringPulse, execMeteringPulse, hc]
  refine ⟨fun hp hm hz => ?_, fun h => congrArg Host.Outcome.next (if_neg ?_)⟩
  · refine ⟨_, { c with
      flow := vmod c.flow k.val (· + fldN (cpar c (0x20 + k.val)) 0 24), flowNow := vmod c.flowNow k.val (· + fldN (cpar c (0x20 + k.val)) 0 24)
      overspeed := if fast then BitVec.ofNat 8 (setFldN c.overspeed.toNat k.val 1 1) else c.overspeed },
      congrArg Host.Outcome.next (if_pos (by rw [hp, hm]; exact bne_iff_ne.mpr hz)), tcInside_setCart hw, rfl, fun j => ?_⟩
    have hfl : fldN (cpar c (0x20 + k.val)) 0 24 = (vget c.pars (0x20 + k.val)).toNat % 2 ^ 24 := by
      rw [fldN, Nat.pow_zero, Nat.div_one]
      rfl
    dsimp only [vmod]
    rw [hfl]
    by_cases hj : j = k
    · rw [hj, vget_vset_self k.isLt, if_pos rfl]
    · rw [vget_vset_ne fun e => hj (Fin.ext e), if_neg hj, Nat.add_zero]
  · rcases h with h | h
    · rw [h]
      simp
    · rw [show cpar c (0x28 + k.val) = 0 from h]
      simp

/-- The start of a snapshot. -/
theorem snapshot_starts (hw : s.regsWf = true) (hc : s.bay.cart = some c) (hp : c.powered = true) (hq : c.seq.toNat % 2 = 0) :
    exec (.tcSnapshot false) s = .next s ∧
      ∃ t, exec (.tcSnapshot true) s = .next t ∧ tcInside s t { c with seq := c.seq + 1 } ∧ t.rd R.tcSnapSeq = c.seq + 1 := by
  rw [exec_tcSnapshot, exec_tcSnapshot, execTcSnapshot, execTcSnapshot, hc]
  refine ⟨if_pos (by rw [hp, hq]; rfl), _, if_neg (by rw [hp, hq]; decide), tcInside_of_frame hw (.after .wr frame_setCart) bay_setCart, rd_wr_self (frame_setCart.canon hw)⟩

/-- The cartridge at the end of a snapshot, its averages anew. -/
def averagesAnew (c : Cartridge) : Cartridge :=
  { c with seq := c.seq + 1, sumP := Vector.replicate 4 0, sumQ := Vector.replicate 4 0, sumN := 0, flowNow := Vector.replicate 8 0, overspeed := 0 }

theorem snapshot_ends (hw : s.regsWf = true) (hc : s.bay.cart = some c) (hp : c.powered = true) (hq : c.seq.toNat % 2 = 1) :
    exec (.tcSnapshot true) s = .next s ∧
      ∃ t d, exec (.tcSnapshot false) s = .next t ∧ tcInside s t d ∧ t.rd R.tcSnapSeq = c.seq + 1 ∧ d.energy = c.energy ∧
        d.flow = c.flow ∧ d.sumN = 0 ∧ t.rd64 R.tcSerialLo = c.serial ∧
        (∀ (f k : Fin 4), t.rd64 (R.tcFfEpImpLo f.val + 8 * k.val) = BitVec.ofNat 64 (vget c.energy (4 * f.val + k.val) / 1000)) ∧
        (∀ j : Fin 8, t.rd64 (R.tcFlkTotalLo j.val) = BitVec.ofNat 64 (vget c.flow j.val)) := by
  have hpf := frame_publishCart (s := s) (c := { c with seq := c.seq + 1 })
  have hwp := hpf.canon hw
  obtain ⟨h1, h2, h3⟩ := publishCart_shows (c := { c with seq := c.seq + 1 }) hw
  have hex : exec (.tcSnapshot true) s = .next s ∧ exec (.tcSnapshot false) s =
      .next (((s.publishCart { c with seq := c.seq + 1 }).setCart (averagesAnew c)).wr R.tcSnapSeq (c.seq + 1)) := by
    rw [exec_tcSnapshot, exec_tcSnapshot, execTcSnapshot, execTcSnapshot, hc]
    exact ⟨if_pos (by rw [hp, hq]; rfl), if_neg (by rw [hp, hq]; decide)⟩
  generalize s.publishCart { c with seq := c.seq + 1 } = u at *
  have hset : Frame [.bay, .regs, .recd] [.reg R.tcSnapSeq, .reg R.tcState, .reg R.tcLogCount, .reg R.tcGapCnt] u
      ((u.setCart (averagesAnew c)).wr R.tcSnapSeq (c.seq + 1)) := .after .wr frame_cartSet.sub
  have hkeep (o : Nat) (ho : o ∉ [R.tcSnapSeq, R.tcState, R.tcLogCount, R.tcGapCnt]) :
      ((u.setCart (averagesAnew c)).wr R.tcSnapSeq (c.seq + 1)).rd o = u.rd o :=
    Frame.keepsRegs hset hwp rfl o ho
  have hall : Frame [.bay, .regs, .recd] [.blk 0x13] s ((u.setCart (averagesAnew c)).wr R.tcSnapSeq (c.seq + 1)) :=
    .after .wr (.after frame_setCart hpf.sub)
  have hseq := rd_wr_self (off := R.tcSnapSeq) (v := c.seq + 1) ((frame_cartSet (c := averagesAnew c)).canon hwp)
  have hb : ((u.setCart (averagesAnew c)).wr R.tcSnapSeq (c.seq + 1)).bay = { s.bay with cart := some (averagesAnew c) } :=
    bay_setCart
  generalize (u.setCart (averagesAnew c)).wr R.tcSnapSeq (c.seq + 1) = t at *
  refine ⟨hex.1, t, averagesAnew c, hex.2, tcInside_of_frame hw hall hb, hseq, rfl, rfl, rfl, ?_, fun f k => ?_, fun j => ?_⟩
  · exact (rd64_of_rd (hkeep _ (by decide)) (hkeep _ (by decide))).trans h1
  · refine (rd64_of_rd (hkeep _ ?_) (hkeep _ ?_)).trans (h2 f.val f.isLt k.val k.isLt) <;>
      simp only [R.tcFfEpImpLo, R.tcSnapSeq, R.tcState, R.tcLogCount, R.tcGapCnt, List.mem_cons, List.not_mem_nil, or_false] <;> omega
  · refine (rd64_of_rd (hkeep _ ?_) (hkeep _ ?_)).trans (h3 j.val j.isLt) <;>
      simp only [R.tcFlkTotalLo, R.tcSnapSeq, R.tcState, R.tcLogCount, R.tcGapCnt, List.mem_cons, List.not_mem_nil, or_false] <;> omega

theorem supply_lost (hw : s.regsWf = true) (hc : s.bay.cart = some c) (hp : c.powered = true) :
    ∃ t, exec .cartridgeSupplyLoss s = .next t ∧ t.fbit F.tcBay_link = false ∧
      t.bay.cart = some { c with powered := false, metering := false, waiting := false, timeOk := false, led := none, lossDue := true,
                                 leaveDue := c.leaveDue || c.verif, verif := false } ∧
      t = { s with regs := t.regs, bay := t.bay } ∧ keepsRegs [R.tcBay] s t := by
  refine ⟨({ s with bay := { s.bay with cart := some { c with
      powered := false, metering := false, waiting := false, timeOk := false, led := none, lossDue := true
      leaveDue := c.leaveDue || c.verif, verif := false } } } : State).fset F.tcBay_link 0, ?_, ?_, rfl, rfl,
    (Frame.after (ps := [.bay, .regs]) (W := [.fld F.tcBay_link]) .fset .bay).keepsRegs hw⟩
  · rw [exec_cartridgeSupplyLoss, execCartridgeSupplyLoss, State.cartLoss, hc]
    exact congrArg Host.Outcome.next (if_neg (by rw [hp]; decide))
  · exact (fbit_fset hw (by decide)).trans rfl

theorem timeLine_times_out (hw : s.regsWf = true) (hc : s.bay.cart = some c) (hp : c.powered = true) (ht : c.timeOk = true) :
    ∃ t, exec .timeLineTimeout s = .next t ∧ tcInside s t { c with timeOk := false } := by
  refine ⟨_, ?_, tcInside_setCart hw⟩
  rw [exec_timeLineTimeout, execTimeLineTimeout, hc]
  exact congrArg Host.Outcome.next (if_pos (by rw [hp, ht]; rfl))

theorem fit_wait_ends (hw : s.regsWf = true) (hc : s.bay.cart = some c) (hp : c.powered = true) (hwt : c.waiting = true) :
    ∃ t d, exec .fitTimeLineWaitExpiry s = .next t ∧ tcInside s t d ∧
      d = { c with waiting := false, fitDue := false, metering := true, log := d.log } ∧
      (c.fitDue = true → c.timeOk = false → c.log.length < 4096 →
        ∃ r, d.log = c.log ++ [r] ∧ r.code = 5 ∧ r.ops = 2 ^ 48 - 1) ∧
      (c.fitDue = false → d.log = c.log) := by
  refine ⟨_, cartResume c, ?_, tcInside_setCart hw, ?_, fun hf ho hl => ⟨auditRec c 5 0 (c.lineHost.setWidth 32), ?_, rfl, ?_⟩, fun hf => ?_⟩
  · rw [exec_fitTimeLineWaitExpiry, execFitTimeLineWaitExpiry, hc]
    exact congrArg Host.Outcome.next (if_pos (by rw [hp, hwt]; rfl))
  · unfold cartResume
    dsimp only
    split
    next h =>
      have hl : ¬ logFull c = true := fun e => by simp [e] at h
      rw [logAny, if_neg hl]
    next => rfl
  · have hl : logFull c = false := decide_eq_false (by omega)
    rw [cartResume, hf, hl, if_pos (by decide), logAny, hl, if_neg (by decide)]
  · exact if_neg (by rw [ho]; decide)
  · rw [cartResume, hf, if_neg (by simp)]

/-- Settles O30: what each event of a cartridge that meters changes. -/
theorem cartridgeMetering : Obligations.CartridgeMetering := by
  intro s c hw hc inside
  refine ⟨fun p q ma bad temp hp hm => ?_, fun k fast => (metering_pulse hw hc k fast).1, fun k fast => (metering_pulse hw hc k fast).2,
    snapshot_starts hw hc, snapshot_ends hw hc, supply_lost hw hc, timeLine_times_out hw hc, fit_wait_ends hw hc⟩
  obtain ⟨t, d, he, hi, hd, hk⟩ := metering_computes hw hc hp hm p q ma bad temp
  refine ⟨t, d, he, hi, hd, fun f k => ?_⟩
  have h := hk f k
  rw [feederAdds_own] at h
  exact h

end Sys2Proof.Machine
end

section
/-! The cartridge's audit log, verification, and fitting (R429 to R442). -/

namespace Sys2Proof.Machine

variable {s t : State} {c d : Cartridge}

/-! The log. -/

theorem logPar_room {code arg : Nat} {v : W32} (h : c.log.length ≤ 4031) :
    logPar c code arg v = { c with log := c.log ++ [auditRec c code arg v] } := if_neg (by omega)

theorem logAny_room {code arg : Nat} {v : W32} (h : c.log.length < 4096) :
    logAny c code arg v = { c with log := c.log ++ [auditRec c code arg v] } :=
  if_neg (by rw [logFull, decide_eq_true_eq]; omega)

theorem logAny_full {code arg : Nat} {v : W32} (h : 4096 ≤ c.log.length) : logAny c code arg v = { c with gapLog := satAdd 16 c.gapLog 1 } :=
  if_pos (decide_eq_true h)

theorem parFull_eq : parFull c = decide (4031 ≤ c.log.length) := rfl

/-! Verification. -/

theorem verification_enters (hw : s.regsWf = true) (hc : s.bay.cart = some c) (hp : c.powered = true) :
    (c.verif = false → c.log.length < 4031 → ∃ t r, exec .verificationEnter s = .next t ∧
      tcInside s t { c with verif := true, log := c.log ++ [r] } ∧ r.code = 1) ∧
    ((c.verif = true ∨ 4031 ≤ c.log.length) → exec .verificationEnter s = .next s) := by
  have hex : exec .verificationEnter s =
      .next (if c.powered && !c.verif && !parFull c then s.setCart { logPar c 1 0 0 with verif := true } else s) := by
    rw [exec_verificationEnter, execVerificationEnter, hc]
    rfl
  refine ⟨fun hv hl => ⟨_, auditRec c 1 0 0, ?_, tcInside_setCart hw, rfl⟩, fun h => ?_⟩
  · rw [hex, if_pos (by rw [hp, hv, parFull_eq, decide_eq_false (by omega)]; rfl), logPar_room (by omega)]
  · rw [hex, if_neg]
    rcases h with h | h
    · rw [h]
      simp
    · rw [parFull_eq, decide_eq_true h]
      simp

theorem verification_leaves (hw : s.regsWf = true) (hc : s.bay.cart = some c) (hp : c.powered = true) (hv : c.verif = true)
    (hl : c.log.length ≤ 4031) : ∃ t r, exec .verificationLeave s = .next t ∧
      tcInside s t { c with verif := false, led := none, log := c.log ++ [r] } ∧ r.code = 2 := by
  refine ⟨_, auditRec c 2 0 0, ?_, tcInside_setCart hw, rfl⟩
  rw [exec_verificationLeave, execVerificationLeave, hc]
  refine congrArg Host.Outcome.next ((if_pos (by rw [hp, hv]; rfl)).trans ?_)
  rw [logPar_room hl]

theorem exec_pwCmd_fitted {i : Fin 64} {v : W32} (hc : s.bay.cart = some c) : exec (.pwCmd i v) s =
    .next (if c.powered && c.verif && !parFull c && parOk i.val v then s.setCart { logPar c 3 i.val v with pars := vset c.pars i.val v } else s) := by
  rw [exec_pwCmd, execPwCmd, hc]
  rfl

theorem parameter_written {i : Fin 64} {v : W32} (hw : s.regsWf = true) (hc : s.bay.cart = some c) (hp : c.powered = true)
    (hv : c.verif = true) (hl : c.log.length < 4031) (ho : parOk i.val v = true) :
    ∃ t r, exec (.pwCmd i v) s = .next t ∧ tcInside s t { c with pars := vset c.pars i.val v, log := c.log ++ [r] } ∧
      r.code = 3 ∧ r.arg = i.val ∧ r.val = v := by
  refine ⟨_, auditRec c 3 i.val v, ?_, tcInside_setCart hw, rfl, rfl, rfl⟩
  rw [exec_pwCmd_fitted hc, if_pos (by rw [hp, hv, parFull_eq, decide_eq_false (by omega), ho]; rfl), logPar_room (by omega)]

theorem parameter_refused {i : Fin 64} {v : W32} (hc : s.bay.cart = some c)
    (h : c.verif = false ∨ 4031 ≤ c.log.length ∨ parOk i.val v = false) : exec (.pwCmd i v) s = .next s := by
  rw [exec_pwCmd_fitted hc, if_neg]
  rcases h with h | h | h
  · rw [h]
    simp
  · rw [parFull_eq, decide_eq_true h]
    simp
  · rw [h]
    simp

theorem led_selected {f : BitVec 4} (hw : s.regsWf = true) (hc : s.bay.cart = some c) (hp : c.powered = true) (hv : c.verif = true)
    (hf : f.toNat < 4 ∨ f.toNat = 9) :
    ∃ t, exec (.ledCmd f) s = .next t ∧ tcInside s t { c with led := if f.toNat = 9 then none else some f.toNat } := by
  refine ⟨_, ?_, tcInside_setCart hw⟩
  rw [exec_ledCmd, execLedCmd, hc]
  refine congrArg Host.Outcome.next (if_pos ?_)
  rw [hp, hv, Bool.true_and, Bool.true_and, Bool.or_eq_true, decide_eq_true_eq, beq_iff_eq]
  exact hf

/-- The answers on the verification port. -/
theorem port_answers (hc : s.bay.cart = some c) (hp : c.powered = true) :
    exec .idCmd s = .next { s with out := s.out ++ [.verif [c.serial, c.version.setWidth 64, c.checkCode.setWidth 64]] } ∧
    (∀ i : Fin 64, exec (.prCmd i) s = .next { s with out := s.out ++ [.verif [(vget c.pars i.val).setWidth 64]] }) ∧
    (∀ (n : BitVec 12) (r : AuditRec), c.log[n.toNat]? = some r → exec (.lrCmd n) s = .next { s with out := s.out ++
      [.verif [BitVec.ofNat 64 r.ops, BitVec.ofNat 64 r.pcc, BitVec.ofNat 64 r.code, BitVec.ofNat 64 r.arg, r.val.setWidth 64]] }) := by
  refine ⟨?_, fun i => ?_, fun n r hr => ?_⟩
  · rw [exec_idCmd, execIdCmd, hc]
    exact congrArg Host.Outcome.next (if_pos hp)
  · rw [exec_prCmd, execPrCmd, hc]
    exact congrArg Host.Outcome.next (if_pos hp)
  · rw [exec_lrCmd, execLrCmd, hc]
    dsimp only
    rw [hr]
    exact congrArg Host.Outcome.next (if_pos hp)

/-! The latch. -/

theorem priv_raise {h : Hap} {k : Nat} {ps : List W64} (hp : h.priv = true) : (s.mkRecord h k ps).priv = true := hp

theorem recd_setCart : ∃ l, (s.setCart d).recd.raised = s.recd.raised ++ l := by
  unfold State.setCart
  extract_lets old oldLog b a u
  have ha : a.recd = s.recd := (frame_showCart (s := { s with bay := { s.bay with cart := some d } })).part .recd (by decide)
  have hu : ∃ l, u.recd.raised = s.recd.raised ++ l := by
    dsimp only [u]
    rw [← ha]
    split
    · exact ⟨[], (List.append_nil _).symm⟩
    · exact ⟨_, rfl⟩
  clear_value u
  obtain ⟨l, hl⟩ := hu
  split
  · exact ⟨l, hl⟩
  · exact ⟨l ++ [_], by rw [← List.append_assoc, ← hl]; rfl⟩

theorem latch_warns (hw : s.regsWf = true) (hc : s.bay.cart = some c) (hp : c.powered = true) (ho : s.fbit F.tcBay_latchOpen = false) :
    ∃ t d, exec .latchWarning s = .next t ∧ tcInside s t d ∧ t.fbit F.tcBay_latchOpen = true ∧
      d = { c with metering := false, waiting := false, log := d.log, gapLog := d.gapLog } ∧
      (c.log.length < 4096 → ∃ r, d.log = c.log ++ [r] ∧ r.code = 4) ∧
      (4096 ≤ c.log.length → d.log = c.log ∧ d.gapLog = satAdd 16 c.gapLog 1) ∧
      ∃ r ∈ t.recd.raised, r.priv = true := by
  have hex : exec .latchWarning s = .next (((s.fset F.tcBay_latchOpen 1).raise hapLatchOpen 0 [c.serial]).setCart
      { logAny c 4 0 (s.hostSerial.setWidth 32) with metering := false, waiting := false }) := by
    rw [exec_latchWarning, execLatchWarning, hc]
    exact congrArg Host.Outcome.next (if_pos (by rw [hp, ho]; rfl))
  have hpre : Frame [.bay, .regs, .recd] [.blk 0x13] s ((s.fset F.tcBay_latchOpen 1).raise hapLatchOpen 0 [c.serial]) := .after .raise .fset
  have hopen : ((s.fset F.tcBay_latchOpen 1).raise hapLatchOpen 0 [c.serial]).fbit F.tcBay_latchOpen = true :=
    (fbit_fset hw (by decide)).trans rfl
  have hrec : ∃ r ∈ ((s.fset F.tcBay_latchOpen 1).raise hapLatchOpen 0 [c.serial]).recd.raised, r.priv = true :=
    ⟨(s.fset F.tcBay_latchOpen 1).mkRecord hapLatchOpen 0 [c.serial], List.mem_append_right _ (List.mem_singleton.mpr rfl), rfl⟩
  have hwv := hpre.canon hw
  generalize (s.fset F.tcBay_latchOpen 1).raise hapLatchOpen 0 [c.serial] = v at *
  have hall (d : Cartridge) : tcInside s (v.setCart d) d := tcInside_of_frame hw (hpre.trans frame_setCart) bay_setCart
  refine ⟨_, _, hex, hall _, (frame_cartSet.fbit hwv).trans hopen, ?_, fun hl => ⟨auditRec c 4 0 (s.hostSerial.setWidth 32), ?_, rfl⟩,
    fun hl => ?_, ?_⟩
  · unfold logAny
    split <;> rfl
  · rw [logAny_room hl]
  · rw [logAny_full hl]
    exact ⟨rfl, rfl⟩
  · obtain ⟨l, hl⟩ := recd_setCart (s := v) (d := { logAny c 4 0 (s.hostSerial.setWidth 32) with metering := false, waiting := false })
    obtain ⟨r, hr, hp⟩ := hrec
    exact ⟨r, by rw [hl]; exact List.mem_append_left _ hr, hp⟩

/-! Fitting and removal. -/

/-- The page that is shown is 60 bytes. -/
theorem showPage_shows (q : Nat) : ∃ b : List Byte, b.length = 60 ∧ s.showPage q = { s with out := s.out ++ [.display b] } := by
  have hlen : ((List.range 16).flatMap (fun w => leBytes 4 (s.rd (R.tcPgqWw (16 * q + w))).toNat)).length = 64 := by
    simp only [List.length_flatMap, length_leBytes, List.map_const', List.sum_replicate, List.length_range]
    rfl
  unfold State.showPage
  dsimp only
  generalize (List.range 16).flatMap (fun w => leBytes 4 (s.rd (R.tcPgqWw (16 * q + w))).toNat) = b at hlen
  refine ⟨_, ?_, rfl⟩
  split
  · rw [List.length_take, hlen]
    rfl
  · rw [List.length_replicate]

/-- What a fit shows. -/
theorem fitCart_shows (hw : s.regsWf = true) :
    let t := s.fitCart c
    Frame [.bay, .regs, .recd, .out] [.fld F.tcBay_present, .fld F.tcBay_link, .fld F.tcBay_latchOpen, .span 0x13100 0x14000] s t ∧
      t.bay = { s.bay with cart := some c } ∧ t.fbit F.tcBay_present = true ∧ t.fbit F.tcBay_link = true ∧
      t.fbit F.tcBay_latchOpen = false ∧ t.rd64 R.tcSerialLo = c.serial := by
  intro t
  have hw1 : (s.fset F.tcBay_present 1).regsWf = true := regsWf_fset hw
  have hw2 := regsWf_fset (f := F.tcBay_link) (n := 1) hw1
  have hw3 := regsWf_fset (f := F.tcBay_latchOpen) (n := 0) hw2
  have h3 : (((s.fset F.tcBay_present 1).fset F.tcBay_link 1).fset F.tcBay_latchOpen 0).fbit F.tcBay_latchOpen = false :=
    (fbit_fset hw2 (by decide)).trans rfl
  have h2 : (((s.fset F.tcBay_present 1).fset F.tcBay_link 1).fset F.tcBay_latchOpen 0).fbit F.tcBay_link = true := by
    rw [State.fbit, fget_fset_beside hw2 (by decide) (by decide), fget_fset hw1 (by decide)]
    rfl
  have h1 : (((s.fset F.tcBay_present 1).fset F.tcBay_link 1).fset F.tcBay_latchOpen 0).fbit F.tcBay_present = true := by
    rw [State.fbit, fget_fset_beside hw2 (by decide) (by decide), fget_fset_beside hw1 (by decide) (by decide), fget_fset hw (by decide)]
    rfl
  have hf : Frame [.bay, .regs, .recd, .out] [.fld F.tcBay_present, .fld F.tcBay_link, .fld F.tcBay_latchOpen, .span 0x13100 0x14000] s
      (((s.fset F.tcBay_present 1).fset F.tcBay_link 1).fset F.tcBay_latchOpen 0) := .after .fset (.after .fset .fset)
  have ht : t = (((((s.fset F.tcBay_present 1).fset F.tcBay_link 1).fset F.tcBay_latchOpen 0).publishCart c).setCart c).showPage 0 := rfl
  have hb3 : (((s.fset F.tcBay_present 1).fset F.tcBay_link 1).fset F.tcBay_latchOpen 0).bay = s.bay := rfl
  generalize ((s.fset F.tcBay_present 1).fset F.tcBay_link 1).fset F.tcBay_latchOpen 0 = u at *
  have hp := frame_publishCart (s := u) (c := c)
  have hwp := hp.canon hw3
  have hser := (publishCart_shows (c := c) hw3).1
  generalize u.publishCart c = v at *
  have hs : Frame [.bay, .regs, .recd] cartPlaces v (v.setCart c) := frame_cartSet
  have hsb : (v.setCart c).bay = { v.bay with cart := some c } := bay_setCart
  generalize v.setCart c = w at *
  have hd : Frame [.out] [] w t := by
    rw [ht]
    exact .emit
  clear_value t
  have hup : Frame [.bay, .regs, .recd, .out] [.span 0x13100 0x14000] u t := .trans hp.sub (.trans hs.sub hd.sub)
  have hvp : Frame [.bay, .regs, .recd, .out] cartPlaces v t := .trans hs.sub hd.sub
  refine ⟨.trans hf hup.sub, (hd.part .bay (by decide)).trans hsb, (hup.fbit hw3).trans h1, (hup.fbit hw3).trans h2, (hup.fbit hw3).trans h3,
    (hvp.rd64 hwp).trans hser⟩

/-- Powered, and waiting for the time line with a fit record due. -/
def awaitsTime (d : Cartridge) : Prop := d.powered = true ∧ d.metering = false ∧ d.waiting = true ∧ d.fitDue = true

theorem awaitsTime_logPar {code arg : Nat} {v : W32} (h : awaitsTime c) : awaitsTime (logPar c code arg v) := by
  unfold logPar
  split <;> exact h

/-- A cartridge that starts with its code and flash found good. -/
theorem cartStart_good : awaitsTime (cartStart c true true true) := by
  unfold cartStart
  extract_lets a l b d
  have ha : awaitsTime a := ⟨rfl, rfl, rfl, rfl⟩
  have hb : awaitsTime b := by
    dsimp only [b]
    split
    · exact awaitsTime_logPar ha
    · exact ha
  clear_value b
  have hd : awaitsTime d := by
    dsimp only [d]
    split <;> exact hb
  exact hd

theorem latch_closes (hw : s.regsWf = true) (hc : s.bay.cart = some c) (ho : s.fbit F.tcBay_latchOpen = true) :
    ∃ t d, exec (.latchClose true true) s = .next t ∧ t.bay.cart = some d ∧ d.powered = true ∧ d.metering = false ∧
      d.waiting = true ∧ d.fitDue = true ∧ t.fbit F.tcBay_latchOpen = false ∧
      (t.rd R.tcFits).toNat = satAdd 32 (s.rd R.tcFits).toNat 1 ∧ t.mem = s.mem := by
  obtain ⟨h1, h2, h3, h4⟩ := cartStart_good (c := c)
  obtain ⟨hf, hb, -, -, hl, -⟩ := fitCart_shows (s := s.raise hapLatchClose 0 [c.serial]) (c := cartStart c true true true) hw
  have hex : exec (.latchClose true true) s =
      .next (((s.raise hapLatchClose 0 [c.serial]).fitCart (cartStart c true true true)).bump R.tcFits) := by
    rw [exec_latchClose, execLatchClose, hc]
    exact congrArg Host.Outcome.next (if_pos ho)
  have hfw := hf.canon (s := s.raise hapLatchClose 0 [c.serial]) hw
  have hfits : ((s.raise hapLatchClose 0 [c.serial]).fitCart (cartStart c true true true)).rd R.tcFits = s.rd R.tcFits :=
    (hf.rd hw).trans rfl
  have hmem : ((s.raise hapLatchClose 0 [c.serial]).fitCart (cartStart c true true true)).mem = s.mem := (hf.part .mem (by decide)).trans rfl
  generalize (s.raise hapLatchClose 0 [c.serial]).fitCart (cartStart c true true true) = u at *
  have hu : Frame [.regs] [.reg R.tcFits] u (u.bump R.tcFits) := .bump
  refine ⟨_, cartStart c true true true, hex, congrArg Bay.cart hb, h1, h2, h3, h4, (hu.fbit hfw).trans hl, ?_, hmem⟩
  rw [toNat_rd_bump hfw, hfits]

theorem cartridge_leaves (hw : s.regsWf = true) (hc : s.bay.cart = some c) (ho : s.fbit F.tcBay_latchOpen = true) :
    ∃ t, exec .cartridgeRemoved s = .next t ∧ t.bay = { s.bay with cart := none } ∧ t.fbit F.tcBay_present = false ∧
      t.fbit F.tcBay_link = false ∧ (∀ off, 0x13100 ≤ off → off < 0x14000 → t.rd off = regReset off) ∧
      (∀ off, (off < 0x13100 ∨ 0x14000 ≤ off) → off ≠ R.tcBay → t.rd off = s.rd off) ∧
      ∃ r, t.recd.raised = s.recd.raised ++ [r] ∧ r.priv = true := by
  have hw1 : (s.fset F.tcBay_present 0).regsWf = true := regsWf_fset hw
  have hw2 := regsWf_fset (f := F.tcBay_link) (n := 0) hw1
  have h1 : (((s.fset F.tcBay_present 0).fset F.tcBay_link 0).fset F.tcBay_latchOpen 0).fbit F.tcBay_present = false := by
    rw [State.fbit, fget_fset_beside hw2 (by decide) (by decide), fget_fset_beside hw1 (by decide) (by decide), fget_fset hw (by decide)]
    rfl
  have h2 : (((s.fset F.tcBay_present 0).fset F.tcBay_link 0).fset F.tcBay_latchOpen 0).fbit F.tcBay_link = false := by
    rw [State.fbit, fget_fset_beside hw2 (by decide) (by decide), fget_fset hw1 (by decide)]
    rfl
  have hrd (o : Nat) (ho : o ≠ R.tcBay) : (((s.fset F.tcBay_present 0).fset F.tcBay_link 0).fset F.tcBay_latchOpen 0).rd o = s.rd o :=
    (rd_fset_ne ho).trans ((rd_fset_ne ho).trans (rd_fset_ne ho))
  have hrest : (((s.fset F.tcBay_present 0).fset F.tcBay_link 0).fset F.tcBay_latchOpen 0).recd = s.recd := rfl
  have hex : exec .cartridgeRemoved s = .next { (((s.fset F.tcBay_present 0).fset F.tcBay_link 0).fset F.tcBay_latchOpen 0).dropTcRegs.raise
      hapCartGone 0 [c.serial] with bay := { s.bay with cart := none } } := by
    rw [exec_cartridgeRemoved, execCartridgeRemoved, hc]
    exact congrArg Host.Outcome.next (if_pos ho)
  generalize ((s.fset F.tcBay_present 0).fset F.tcBay_link 0).fset F.tcBay_latchOpen 0 = u at *
  have hdrop (o : Nat) : u.dropTcRegs.rd o = if !(0x13100 ≤ o && o < 0x14000) then u.rd o else regReset o :=
    sget_filter regReset (fun k => !(decide (0x13100 ≤ k) && decide (k < 0x14000))) u.regs o
  have hbay : u.dropTcRegs.rd R.tcBay = u.rd R.tcBay := (hdrop _).trans (if_pos (by decide))
  refine ⟨_, hex, rfl, ?_, ?_, fun o ho1 ho2 => ?_, fun o ho1 hne => ?_, u.dropTcRegs.mkRecord hapCartGone 0 [c.serial], ?_, rfl⟩
  · rw [← h1]
    exact congrArg (fun v : W32 => fldN v.toNat F.tcBay_present.lo F.tcBay_present.width == 1) hbay
  · rw [← h2]
    exact congrArg (fun v : W32 => fldN v.toNat F.tcBay_link.lo F.tcBay_link.width == 1) hbay
  · exact (hdrop o).trans (if_neg (by rw [decide_eq_true ho1, decide_eq_true ho2]; decide))
  · refine ((hdrop o).trans (if_pos ?_)).trans (hrd o hne)
    rcases ho1 with h | h
    · rw [decide_eq_false (by omega)]
      rfl
    · rw [decide_eq_false (p := o < 0x14000) (by omega), Bool.and_false]
      rfl
  · exact congrArg (· ++ [u.dropTcRegs.mkRecord hapCartGone 0 [c.serial]]) (congrArg Rec.raised hrest)

/-- A cartridge as it is fitted, before its checks. -/
def justFitted (c : Cartridge) (ok : Bool) : Cartridge :=
  { c with powered := true, metering := false, timeOk := false, fitDue := true, waiting := ok, fault := false }

theorem cartStart_fresh (hl : c.leaveDue = false) (hs : c.lossDue = false) :
    cartStart c true true true = justFitted c true ∧ cartStart c false true true = { logAny (justFitted c false) 6 1 0 with fault := true } := by
  have h1 : ¬ c.leaveDue = true := Bool.eq_false_iff.mp hl
  have h2 : ¬ c.lossDue = true := Bool.eq_false_iff.mp hs
  unfold cartStart
  dsimp only
  rw [if_neg h1, if_neg h1, if_neg h2, if_neg h2]
  exact ⟨rfl, rfl⟩

theorem exec_cartridgeFit_empty {code flash : Bool} (hb : s.bay.cart = none) : exec (.cartridgeFit (some c) code flash) s =
    .next (((s.fitCart (cartStart c code flash true)).bump R.tcFits).raise hapCartFit 0 [c.serial]) := by
  rw [exec_cartridgeFit, execCartridgeFit]
  exact hb

theorem cartridge_fits (hw : s.regsWf = true) (hb : s.bay.cart = none) (hl : c.leaveDue = false) (hs : c.lossDue = false) :
    ∃ t, exec (.cartridgeFit (some c) true true) s = .next t ∧
      t.bay.cart = some { c with powered := true, metering := false, timeOk := false, fitDue := true, waiting := true, fault := false } ∧
      t.fbit F.tcBay_present = true ∧ t.fbit F.tcBay_link = true ∧ t.rd64 R.tcSerialLo = c.serial ∧
      (t.rd R.tcFits).toNat = satAdd 32 (s.rd R.tcFits).toNat 1 ∧ t.mem = s.mem := by
  obtain ⟨hf, hbay, hp, hlk, -, hser⟩ := fitCart_shows (s := s) (c := justFitted c true) hw
  have hex := exec_cartridgeFit_empty (c := c) (code := true) (flash := true) hb
  rw [(cartStart_fresh hl hs).1] at hex
  have hfw := hf.canon hw
  have hfits : (s.fitCart (justFitted c true)).rd R.tcFits = s.rd R.tcFits := hf.rd hw
  have hmem : (s.fitCart (justFitted c true)).mem = s.mem := hf.part .mem (by decide)
  generalize s.fitCart (justFitted c true) = u at *
  have hu : Frame [.regs, .recd] [.reg R.tcFits] u ((u.bump R.tcFits).raise hapCartFit 0 [c.serial]) := .after .raise .bump
  refine ⟨_, hex, congrArg Bay.cart hbay, (hu.fbit hfw).trans hp, (hu.fbit hfw).trans hlk, (hu.rd64 hfw).trans hser, ?_, hmem⟩
  refine (toNat_rd_bump hfw).trans ?_
  rw [hfits]

theorem cartridge_fails (hw : s.regsWf = true) (hb : s.bay.cart = none) (hl : c.leaveDue = false) (hs : c.lossDue = false)
    (hlog : c.log.length < 4096) :
    ∃ t d, exec (.cartridgeFit (some c) false true) s = .next t ∧ t.bay.cart = some d ∧ d.fault = true ∧ d.waiting = false ∧
      d.metering = false ∧ ∃ r, d.log = c.log ++ [r] ∧ r.code = 6 := by
  obtain ⟨-, hbay, -⟩ := fitCart_shows (s := s) (c := { logAny (justFitted c false) 6 1 0 with fault := true }) hw
  have hex := exec_cartridgeFit_empty (c := c) (code := false) (flash := true) hb
  have hroom := logAny_room (c := justFitted c false) (code := 6) (arg := 1) (v := 0) hlog
  rw [(cartStart_fresh hl hs).2] at hex
  rw [hroom] at hex hbay
  exact ⟨_, _, hex, congrArg Bay.cart hbay, rfl, rfl, rfl, _, rfl, rfl⟩

theorem legalPage_shown (q : Fin 8) (h : s.bay.cart.isSome = true) : ∃ b : List Byte, b.length = 60 ∧
    exec (.legalPageDisplay (some q)) s = .next { s with out := s.out ++ [.display b] } := by
  obtain ⟨b, hb, he⟩ := showPage_shows (s := s) q.val
  exact ⟨b, hb, (congrArg Host.Outcome.next (if_pos h)).trans (congrArg _ he)⟩

/-- Settles O31: the verification port, the latch, and the fitting and removal of a cartridge. -/
theorem cartridgeAudit : Obligations.CartridgeAudit := by
  refine fun s hw => ⟨fun c hc hp => ?_, fun c hc ho => ⟨latch_closes hw hc ho, cartridge_leaves hw hc ho⟩,
    fun c hb hl hs hlog => ⟨cartridge_fits hw hb hl hs, cartridge_fails hw hb hl hs hlog⟩, fun q h => legalPage_shown q h⟩
  obtain ⟨hid, hpr, hlr⟩ := port_answers hc hp
  intro inside
  exact ⟨(verification_enters hw hc hp).1, (verification_enters hw hc hp).2, verification_leaves hw hc hp, hid, hpr,
    fun i v hv hl ho => parameter_written hw hc hp hv hl ho, fun i v h => parameter_refused hc h, fun f hv hf => led_selected hw hc hp hv hf, hlr,
    latch_warns hw hc hp⟩

end Sys2Proof.Machine
end

section
/-! The field island: what each of its views depends on, what the steps over its channels come to, and what the registers of its status
show. -/

namespace Sys2Proof.Machine

variable {s t u : State}

/-! Vectors. -/

theorem vget_vmod_self {α : Type} [Inhabited α] {n i : Nat} {v : Vector α n} {f : α → α} (h : i < n) :
    vget (vmod v i f) i = f (vget v i) := vget_vset_self h

theorem vget_vmod_ne {α : Type} [Inhabited α] {n i j : Nat} {v : Vector α n} {f : α → α} (h : j ≠ i) :
    vget (vmod v i f) j = vget v j := vget_vset_ne h

theorem vget_ofFn {α : Type} [Inhabited α] {n i : Nat} {f : Fin n → α} (h : i < n) : vget (Vector.ofFn f) i = f ⟨i, h⟩ := by
  rw [vget, Vector.getElem?_eq_getElem h, Vector.getElem_ofFn]
  rfl

theorem vget_map {α β : Type} [Inhabited α] [Inhabited β] {n i : Nat} {v : Vector α n} {f : α → β} (h : i < n) :
    vget (v.map f) i = f (vget v i) := by
  simp only [vget, Vector.getElem?_eq_getElem h, Vector.getElem_map, Option.getD_some]

theorem ext_vget {α : Type} [Inhabited α] {n : Nat} {v w : Vector α n} (h : ∀ i, i < n → vget v i = vget w i) : v = w := by
  apply Vector.ext
  intro i hi
  have := h i hi
  simpa only [vget, Vector.getElem?_eq_getElem hi, Option.getD_some] using this

/-! What the configuration of the island settles. -/

section
variable (h : t.island.cfg = s.island.cfg)
include h

theorem ibit_of_cfg : t.ibit = s.ibit := by
  funext o n
  rw [State.ibit, State.ibit, h]

theorem iget_of_cfg : t.iget = s.iget := by
  funext f
  rw [State.iget, State.iget, h]

theorem isOut_of_cfg : t.isOut = s.isOut := by
  funext n
  rw [State.isOut, State.isOut, ibit_of_cfg h]

theorem isRfx_of_cfg : t.isRfx = s.isRfx := by
  funext n
  rw [State.isRfx, State.isRfx, ibit_of_cfg h, isOut_of_cfg h]

theorem lead_of_cfg : t.lead = s.lead := by
  funext n
  rw [State.lead, State.lead, ibit_of_cfg h]

theorem safeD_of_cfg : t.safeD = s.safeD := by
  funext n
  rw [State.safeD, State.safeD, ibit_of_cfg h, isRfx_of_cfg h]

theorem safeL_of_cfg : t.safeL = s.safeL := by
  funext n
  simp only [State.safeL, State.alarmDir, State.alarm, iget_of_cfg h, h]

theorem aoCurrent_of_cfg : t.aoCurrent = s.aoCurrent := by
  funext n w
  simp only [State.aoCurrent, State.alarmDir, State.alarm, iget_of_cfg h]

end

/-! The views of an island. -/

section
variable (h : t.island = s.island)
include h

theorem dch_of_island : t.dch = s.dch := by
  funext n
  rw [State.dch, State.dch, h]

theorem lch_of_island : t.lch = s.lch := by
  funext n
  rw [State.lch, State.lch, h]

theorem inValid_of_island : t.inValid = s.inValid := by
  funext n
  simp only [State.inValid, isOut_of_cfg (congrArg Island.cfg h), dch_of_island h, h]

theorem diState_of_island : t.diState = s.diState := by
  simp only [State.diState, inValid_of_island h, dch_of_island h]

theorem diValid_of_island : t.diValid = s.diValid := by
  rw [State.diValid, State.diValid, inValid_of_island h]

theorem readbackOf_of_island : t.readbackOf = s.readbackOf := by
  funext n raw
  simp only [State.readbackOf, lch_of_island h]

theorem commandD_of_island : t.commandD = s.commandD := by
  funext n
  have hc := congrArg Island.cfg h
  simp only [State.commandD, State.vote, isRfx_of_cfg hc, safeD_of_cfg hc, ibit_of_cfg hc, h]

theorem wantD_of_island : t.wantD = s.wantD := by
  funext n
  simp only [State.wantD, lead_of_cfg (congrArg Island.cfg h), dch_of_island h, commandD_of_island h, h]

theorem wantL_of_island : t.wantL = s.wantL := by
  funext n
  have hc := congrArg Island.cfg h
  simp only [State.wantL, lch_of_island h, safeL_of_cfg hc, aoCurrent_of_cfg hc, h]

theorem driveD_of_island (htk : t.token = s.token) : t.driveD = s.driveD := by
  funext n
  have hc := congrArg Island.cfg h
  simp only [State.driveD, wantD_of_island h, dch_of_island h, lead_of_cfg hc, isOut_of_cfg hc, h, htk]

theorem driveL_of_island (htk : t.token = s.token) (hb : t.bogie = s.bogie) (ht : t.time = s.time) : t.driveL = s.driveL := by
  funext n
  have hc := congrArg Island.cfg h
  simp only [State.driveL, State.rampDone, wantL_of_island h, lch_of_island h, iget_of_cfg hc, h, htk, hb, ht]

end

theorem lead_lead (s : State) (n : Nat) : s.lead (s.lead n) = s.lead n := by
  by_cases h : s.ibit R.dioPaired (n / 2) = true
  · have hk : s.lead n = n / 2 * 2 := if_pos h
    rw [hk, State.lead, show n / 2 * 2 / 2 = n / 2 by omega, if_pos h]
  · have hk : s.lead n = n := if_neg h
    rw [hk, hk]

theorem lead_le (s : State) (n : Nat) : s.lead n ≤ n := by
  unfold State.lead
  split <;> omega

/-! One channel changed. -/

section
variable {n m : Nat} {f : DChan → DChan} {g : LChan → LChan}

theorem dch_setDch_self (h : n < 32) : (s.setDch n f).dch n = f (s.dch n) := vget_vmod_self h
theorem dch_setDch_ne (h : m ≠ n) : (s.setDch n f).dch m = s.dch m := vget_vmod_ne h
theorem lch_setLch_self (h : n < 8) : (s.setLch n g).lch n = g (s.lch n) := vget_vmod_self h
theorem lch_setLch_ne (h : m ≠ n) : (s.setLch n g).lch m = s.lch m := vget_vmod_ne h

end

/-! Steps over the channels. -/

/-- A vector with each element changed by a function of its own. -/
def vEach {α : Type} [Inhabited α] {n : Nat} (v : Vector α n) (g : Nat → α → α) : Vector α n := Vector.ofFn fun i => g i (vget v i)

theorem vget_vEach {α : Type} [Inhabited α] {n i : Nat} {v : Vector α n} {g : Nat → α → α} (h : i < n) :
    vget (vEach v g) i = g i (vget v i) := vget_ofFn h

theorem foldl_vmod {α : Type} [Inhabited α] {n m : Nat} {v : Vector α n} {p : Nat → Bool} {f : Nat → α → α} (hm : m ≤ n) :
    (List.range m).foldl (fun v i => if p i then vmod v i (f i) else v) v = vEach v (fun i c => if i < m ∧ p i = true then f i c else c) := by
  induction m with
  | zero =>
    refine ext_vget fun i hi => ?_
    simp [vget_vEach hi]
  | succ m ih =>
    rw [List.range_succ, List.foldl_append, ih (by omega), List.foldl_cons, List.foldl_nil]
    refine ext_vget fun i hi => ?_
    by_cases he : i = m
    · subst he
      by_cases hq : p i = true
      · simp [hq, vget_vmod_self hi, vget_vEach hi]
      · simp [hq, vget_vEach hi]
    · have hlt : i ≤ m ↔ i < m := by omega
      by_cases hq : p m = true
      · simp [hq, vget_vmod_ne he, vget_vEach hi, hlt]
      · simp [hq, vget_vEach hi, hlt]

/-- The state with other digital channels, and with other loop outputs. -/
def State.withCh (s : State) (v : Vector DChan 32) : State := { s with island := { s.island with ch := v } }
def State.withLp (s : State) (v : Vector LChan 8) : State := { s with island := { s.island with lp := v } }

/-- The state with each digital channel, and with each loop output, changed by its own function. -/
def State.eachDch (s : State) (g : Nat → DChan → DChan) : State := s.withCh (vEach s.island.ch g)
def State.eachLch (s : State) (g : Nat → LChan → LChan) : State := s.withLp (vEach s.island.lp g)

theorem cfg_eachDch {g : Nat → DChan → DChan} : (s.eachDch g).island.cfg = s.island.cfg := by rw [State.eachDch, State.withCh]
theorem cfg_eachLch {g : Nat → LChan → LChan} : (s.eachLch g).island.cfg = s.island.cfg := by rw [State.eachLch, State.withLp]
theorem dch_eachDch {g : Nat → DChan → DChan} {n : Nat} (h : n < 32) : (s.eachDch g).dch n = g n (s.dch n) := vget_vEach h
theorem lch_eachLch {g : Nat → LChan → LChan} {n : Nat} (h : n < 8) : (s.eachLch g).lch n = g n (s.lch n) := vget_vEach h

/-- A step over the digital channels, where the configuration says which of them change. -/
theorem foldl_setDch {p : State → Nat → Bool} {f : State → Nat → DChan → DChan}
    (hp : ∀ t : State, t.island.cfg = s.island.cfg → p t = p s ∧ f t = f s) :
    (List.range 32).foldl (fun u n => if p u n then u.setDch n (f u n) else u) s =
      s.eachDch (fun i c => if i < 32 ∧ p s i = true then f s i c else c) := by
  have hom := List.foldl_hom s.withCh (g₁ := fun v n => if p s n then vmod v n (f s n) else v)
    (g₂ := fun u n => if p u n then u.setDch n (f u n) else u) (l := List.range 32) (init := s.island.ch) fun v n => by
      obtain ⟨hp1, hf⟩ := hp (s.withCh v) rfl
      rw [hp1, hf, apply_ite s.withCh]
      rfl
  rw [foldl_vmod (Nat.le_refl 32)] at hom
  exact hom

/-- A step over the loop outputs. -/
theorem foldl_setLch {p : State → Nat → Bool} {f : State → Nat → LChan → LChan}
    (hp : ∀ t : State, t.island.cfg = s.island.cfg → p t = p s ∧ f t = f s) :
    (List.range 8).foldl (fun u n => if p u n then u.setLch n (f u n) else u) s =
      s.eachLch (fun i c => if i < 8 ∧ p s i = true then f s i c else c) := by
  have hom := List.foldl_hom s.withLp (g₁ := fun v n => if p s n then vmod v n (f s n) else v)
    (g₂ := fun u n => if p u n then u.setLch n (f u n) else u) (l := List.range 8) (init := s.island.lp) fun v n => by
      obtain ⟨hp1, hf⟩ := hp (s.withLp v) rfl
      rw [hp1, hf, apply_ite s.withLp]
      rfl
  rw [foldl_vmod (Nat.le_refl 8)] at hom
  exact hom

/-- Holds lifted by a scan command. -/
theorem liftScan_eq : s.liftScan = (s.eachDch (fun i c => if i < 32 ∧ (!s.isRfx i) = true then { c with hold := none } else c)).eachLch
    (fun i c => if i < 8 ∧ true = true then { c with hold := none } else c) := by
  have hd := foldl_setDch (s := s) (p := fun u n => !u.isRfx n) (f := fun _ _ c => { c with hold := none })
    fun t h => ⟨by rw [isRfx_of_cfg h], rfl⟩
  have hl (v : State) := foldl_setLch (s := v) (p := fun _ _ => true) (f := fun _ _ c => { c with hold := none }) fun t h => ⟨rfl, rfl⟩
  rw [← hl, ← hd]
  simp only [State.liftScan, if_true, Bool.not_eq_true', ← Bool.not_eq_true, ite_not]

/-- The safe value kept on every output. -/
theorem holdSafe_eq : s.holdSafe true =
    (s.eachDch (fun i c => if i < 32 ∧ s.isOut i = true then { c with hold := some (some (s.safeD i)) } else c)).eachLch
      (fun i c => if i < 8 ∧ true = true then { c with hold := some (s.safeL i) } else c) := by
  have hd := foldl_setDch (s := s) (p := State.isOut) (f := fun u n c => { c with hold := some (some (u.safeD n)) })
    fun t h => ⟨isOut_of_cfg h, by rw [safeD_of_cfg h]⟩
  have hl := foldl_setLch
    (s := s.eachDch (fun i c => if i < 32 ∧ s.isOut i = true then { c with hold := some (some (s.safeD i)) } else c))
    (p := fun _ _ => true) (f := fun u n c => { c with hold := some (u.safeL n) }) fun t h => ⟨rfl, by rw [safeL_of_cfg h]⟩
  have hc (g : Nat → DChan → DChan) : (s.eachDch g).safeL = s.safeL := safeL_of_cfg cfg_eachDch
  rw [hc, ← hd] at hl
  rw [← hd, ← hl]
  simp only [State.holdSafe, Bool.true_or, Bool.and_true, if_true]

/-- The channels named on the main path again. -/
theorem mainPath_eq {mask : BitVec 8} : s.mainPath mask =
    s.eachLch (fun i c => if i < 8 ∧ mask.getLsbD i = true then { c with fallback := false, rbFault := false } else c) :=
  foldl_setLch (s := s) (p := fun _ n => mask.getLsbD n) (f := fun _ _ c => { c with fallback := false, rbFault := false }) fun _ _ => ⟨rfl, rfl⟩

end Sys2Proof.Machine
end

section
/-! What the registers of the island's status show, and what else of the blocks that show it stays. -/

namespace Sys2Proof.Machine

variable {s t u : State}

/-- A register among those at equal steps from an offset on. -/
theorem cover_step {W : List Rect} {o : Nat} {r : Rect} (hr : r ∈ W) (ho : r.has o = true) (hb : r.bit = 0) (ht : r.top = 32) :
    coverAll W ⟨o, 0, 32⟩ = true :=
  List.any_eq_true.mpr ⟨r, hr, Rect.covers_iff.mpr ⟨ho, Nat.le_of_eq hb, Nat.le_of_eq ht.symm⟩⟩

/-- The island, and what else the level of an output depends on. -/
structure Alike (s t : State) : Prop where
  island : t.island = s.island
  token : t.token = s.token
  bogie : t.bogie = s.bogie
  time : t.time = s.time

theorem Alike.driveL (h : Alike s t) : t.driveL = s.driveL := driveL_of_island h.island h.token h.bogie h.time
theorem Alike.driveD (h : Alike s t) : t.driveD = s.driveD := driveD_of_island h.island h.token

theorem alike_of_frame {W : List Rect} (h : Frame [.regs] W s t) (hw : s.regsWf = true) (ha : apartAll W F.pairStatus_token = true) :
    Alike s t where
  island := h.part .island (by decide)
  token := h.fbit hw ha
  bogie := h.part .bogie (by decide)
  time := h.part .time (by decide)

/-! The parts of the status. -/

/-- The registers of a loop output. -/
abbrev lpRegs : List Rect := [⟨0x7110, 0x7210, 0x20, 0, 32⟩, ⟨0x7114, 0x7214, 0x20, 0, 32⟩, ⟨0x7118, 0x7218, 0x20, 0, 32⟩]

theorem frame_showLp_own (s : State) (n : Nat) (h : n < 8) : Frame [.regs] lpRegs s (s.showLp n) := by
  refine Frame.trans (Frame.trans (.wr ?_) (.wr ?_)) (.wr ?_)
  · refine cover_step (List.mem_cons_of_mem _ (List.mem_cons_of_mem _ List.mem_cons_self)) (Rect.has_iff.mpr ?_) rfl rfl
    simp only [R.aoChnStatus]
    omega
  · refine cover_step List.mem_cons_self (Rect.has_iff.mpr ?_) rfl rfl
    simp only [R.aoChnCmd]
    omega
  · refine cover_step (List.mem_cons_of_mem _ List.mem_cons_self) (Rect.has_iff.mpr ?_) rfl rfl
    simp only [R.aoChnReadback]
    omega

theorem frame_showCh_own (s : State) (n : Nat) (h : n < 32) : Frame [.regs] [⟨0x6104, 0x6304, 0x10, 0, 32⟩] s (s.showCh n) := by
  refine .wr (cover_step List.mem_cons_self (Rect.has_iff.mpr ?_) rfl rfl)
  simp only [R.dioChnStatus]
  omega

def State.showDigital (s : State) : State := (List.range 32).foldl State.showCh s
def State.showLoops (s : State) : State := (List.range 8).foldl State.showLp s
def State.showInputs (s : State) : State := (s.wr R.dioInState s.diState).wr R.dioInValid s.diValid
def State.showOutputs (s : State) : State :=
  (s.wr R.dioOutRb (maskOf (fun n => s.isOut n && (s.dch n).term))).wr R.dioLatched
    (maskOf (fun n => s.isOut n && (s.dch (s.lead n)).latched))
def State.showLplus (s : State) (i : Island) : State :=
  (((s.fsetb F.dioStatus_lWarn i.warn).fsetb F.dioStatus_lOff i.off).fsetb F.dioStatus_lRecover i.recovering).fsetb
    F.dioStatus_islPresent i.on
def State.showHolds (s : State) (i : Island) : State :=
  (s.fsetb F.dioStatus_holding i.holding).fsetb F.dioStatus_holdSafe (i.expired && (i.silent || s.anyHold))
def State.showFaults (s : State) : State :=
  ((s.fsetb F.dioStatus_latchedAny ((List.range 32).any (fun n => (s.dch n).latched))).fsetb
    F.dioStatus_rbFaultAny ((List.range 32).any (fun n => (s.dch n).rbFault))).fsetb
    F.dioStatus_chkFaultAny ((List.range 32).any (fun n => (s.dch n).chkFault))
def State.showSummary (s : State) : State := s.wr R.aoStatus s.aoSummary

theorem showIsland_eq (hc : s.power.chip = true) : s.showIsland =
    ((((s.showDigital.showLoops.showInputs.showOutputs).showLplus s.island).showHolds s.island).showFaults).showSummary := by
  have h : (!s.power.chip) = false := by rw [hc]; rfl
  simp only [State.showIsland, h, Bool.false_eq_true, if_false, State.showDigital, State.showLoops, State.showInputs, State.showOutputs,
    State.showLplus, State.showHolds, State.showFaults, State.showSummary]

theorem frame_showDigital : Frame [.regs] [⟨0x6104, 0x6304, 0x10, 0, 32⟩] s s.showDigital :=
  Frame.foldl (fun u n hn => frame_showCh_own u n (List.mem_range.mp hn)) s
theorem frame_showLoops : Frame [.regs] lpRegs s s.showLoops :=
  Frame.foldl (fun u n hn => frame_showLp_own u n (List.mem_range.mp hn)) s
theorem frame_showInputs : Frame [.regs] [.reg R.dioInState, .reg R.dioInValid] s s.showInputs := .trans .wr .wr
theorem frame_showOutputs : Frame [.regs] [.reg R.dioOutRb, .reg R.dioLatched] s s.showOutputs := .trans .wr .wr
theorem frame_showLplus {i : Island} : Frame [.regs] [.fld ⟨R.dioStatus, 0, 4⟩] s (s.showLplus i) :=
  .trans (.trans (.trans .fsetb .fsetb) .fsetb) .fsetb
theorem frame_showHolds {i : Island} : Frame [.regs] [.fld ⟨R.dioStatus, 4, 2⟩] s (s.showHolds i) := .trans .fsetb .fsetb
theorem frame_showFaults : Frame [.regs] [.fld ⟨R.dioStatus, 7, 3⟩] s s.showFaults := .trans (.trans .fsetb .fsetb) .fsetb
theorem frame_showSummary : Frame [.regs] [.reg R.aoStatus] s s.showSummary := .wr

/-- What the island's status shows from the inputs on. -/
abbrev statusRegs : List Rect :=
  [.span 0x602C 0x603C, .fld ⟨R.dioStatus, 0, 6⟩, .fld ⟨R.dioStatus, 7, 3⟩, .reg R.aoStatus]

/-- All that the island's status shows. -/
abbrev shownRegs : List Rect := [⟨0x6104, 0x6304, 0x10, 0, 32⟩] ++ lpRegs ++ statusRegs

theorem frame_showIsland_own : Frame [.regs] shownRegs s s.showIsland := by
  by_cases hc : s.power.chip = true
  · rw [showIsland_eq hc]
    exact (((((((frame_showDigital.sub).trans (frame_showLoops.sub)).trans frame_showInputs.sub).trans frame_showOutputs.sub).trans
      frame_showLplus.sub).trans frame_showHolds.sub).trans frame_showFaults.sub).trans frame_showSummary.sub
  · have h : (!s.power.chip) = true := by rw [Bool.not_eq_true] at hc; rw [hc]; rfl
    rw [State.showIsland, if_pos h]
    exact .refl s

theorem island_showIsland : s.showIsland.island = s.island := (frame_showIsland s).part .island (by decide)

theorem alike_showIsland (hw : s.regsWf = true) : Alike s s.showIsland := alike_of_frame (frame_showIsland s) hw rfl

/-! What is shown. -/

theorem showLp_shows (hw : s.regsWf = true) {n : Nat} : (s.showLp n).rd (R.aoChnCmd n) = BitVec.ofNat 32 (s.driveL n) ∧
    (s.showLp n).rd (R.aoChnReadback n) = BitVec.ofNat 32 ((s.lch n).readback % 2 ^ 25) := by
  have hwr {x : W32} : (s.wr (R.aoChnStatus n) x).regsWf = true := regsWf_wr hw
  have hd {x : W32} : (s.wr (R.aoChnStatus n) x).driveL = s.driveL :=
    have hne : R.pairStatus ≠ R.aoChnStatus n := by simp only [R.pairStatus, R.aoChnStatus]; omega
    driveL_of_island rfl (by rw [State.token, State.token, State.fbit, State.fbit, fget_wr_off hne]) rfl rfl
  unfold State.showLp
  extract_lets c f v
  constructor
  · rw [rd_wr_ne (by simp only [R.aoChnCmd, R.aoChnReadback]; omega), rd_wr_self hwr, hd]
  · exact rd_wr_self (regsWf_wr hwr)

theorem rd_showLp_ne {n m : Nat} (hne : n ≠ m) (hn : n < 8) (hm : m < 8) :
    (s.showLp m).rd (R.aoChnCmd n) = s.rd (R.aoChnCmd n) ∧ (s.showLp m).rd (R.aoChnReadback n) = s.rd (R.aoChnReadback n) := by
  simp only [State.showLp]
  constructor <;> repeat rw [rd_wr_ne]
  all_goals simp only [R.aoChnCmd, R.aoChnReadback, R.aoChnStatus]; omega

theorem showLoops_shows (hw : s.regsWf = true) {n : Nat} (hn : n < 8) :
    s.showLoops.rd (R.aoChnCmd n) = BitVec.ofNat 32 (s.driveL n) ∧
    s.showLoops.rd (R.aoChnReadback n) = BitVec.ofNat 32 ((s.lch n).readback % 2 ^ 25) := by
  refine foldl_own (P := fun u => Alike s u ∧ u.regsWf = true) (Q := fun u => u.rd (R.aoChnCmd n) = BitVec.ofNat 32 (s.driveL n) ∧
    u.rd (R.aoChnReadback n) = BitVec.ofNat 32 ((s.lch n).readback % 2 ^ 25)) List.nodup_range (List.mem_range.mpr hn) ?_ ?_ ?_ ?_
  · rintro u m hm - ⟨ha, hu⟩
    have hf := frame_showLp_own u m (List.mem_range.mp hm)
    have h := alike_of_frame hf hu rfl
    exact ⟨⟨h.island.trans ha.island, h.token.trans ha.token, h.bogie.trans ha.bogie, h.time.trans ha.time⟩, hf.canon hu⟩
  · rintro u m hm hne ⟨hc, hr⟩
    obtain ⟨h1, h2⟩ := rd_showLp_ne (s := u) (Ne.symm hne) hn (List.mem_range.mp hm)
    exact ⟨h1.trans hc, h2.trans hr⟩
  · rintro u ⟨ha, hu⟩
    have h := showLp_shows hu (n := n)
    rwa [ha.driveL, lch_of_island ha.island] at h
  · exact ⟨⟨rfl, rfl, rfl, rfl⟩, hw⟩

section
variable (hw : s.regsWf = true) (hc : s.power.chip = true)
include hw hc

/-- The inputs are shown. -/
theorem showIsland_inputs : s.showIsland.rd R.dioInState = s.diState ∧ s.showIsland.rd R.dioInValid = s.diValid := by
  have h1 : Frame [.regs] (⟨0x6104, 0x6304, 0x10, 0, 32⟩ :: lpRegs) s s.showDigital.showLoops :=
    frame_showDigital.sub.trans frame_showLoops.sub
  have hi : s.showDigital.showLoops.island = s.island := h1.part .island (by decide)
  have h2 (v : State) : Frame [.regs] [.reg R.dioOutRb, .reg R.dioLatched, .fld ⟨R.dioStatus, 0, 6⟩, .fld ⟨R.dioStatus, 7, 3⟩,
      .reg R.aoStatus] v ((((v.showOutputs).showLplus s.island).showHolds s.island).showFaults).showSummary :=
    (((frame_showOutputs.sub.trans frame_showLplus.sub).trans frame_showHolds.sub).trans frame_showFaults.sub).trans
      frame_showSummary.sub
  have hw1 : s.showDigital.showLoops.showInputs.regsWf = true := frame_showInputs.canon (h1.canon hw)
  rw [showIsland_eq hc, (h2 _).rd hw1, (h2 _).rd hw1, State.showInputs, ← diState_of_island hi, ← diValid_of_island hi]
  exact ⟨(rd_wr_ne (by decide)).trans (rd_wr_self (h1.canon hw)), rd_wr_self (regsWf_wr (h1.canon hw))⟩

/-- The loop outputs are shown. -/
theorem showIsland_loops {n : Nat} (hn : n < 8) : s.showIsland.rd (R.aoChnCmd n) = BitVec.ofNat 32 (s.driveL n) ∧
    s.showIsland.rd (R.aoChnReadback n) = BitVec.ofNat 32 ((s.lch n).readback % 2 ^ 25) := by
  have ha := alike_of_frame (frame_showDigital (s := s)) hw rfl
  have hw1 := frame_showDigital.canon hw
  have h2 (v : State) : Frame [.regs] statusRegs v
      (((((v.showInputs).showOutputs).showLplus s.island).showHolds s.island).showFaults).showSummary :=
    ((((frame_showInputs.sub.trans frame_showOutputs.sub).trans frame_showLplus.sub).trans frame_showHolds.sub).trans
      frame_showFaults.sub).trans frame_showSummary.sub
  have hr (k : Nat) (hk : 0x7100 ≤ k ∧ k < 0x7120) : ∀ r ∈ statusRegs, r.has (k + n * 0x20) = false := by
    intro r hr
    rw [← Bool.not_eq_true, Rect.has_iff]
    simp only [List.mem_cons, List.not_mem_nil, or_false] at hr
    rcases hr with rfl | rfl | rfl | rfl <;> simp only [R.dioStatus, R.aoStatus] <;> omega
  have h := showLoops_shows hw1 hn
  rw [ha.driveL, lch_of_island ha.island] at h
  rw [showIsland_eq hc, rd_of_frame (h2 _) (frame_showLoops.canon hw1) (hr 0x7110 (by decide)),
    rd_of_frame (h2 _) (frame_showLoops.canon hw1) (hr 0x7114 (by decide))]
  exact h

/-- The hold, and a readback fault of a digital channel, are shown. -/
theorem showIsland_holding : s.showIsland.fbit F.dioStatus_holding = s.island.holding := by
  have hw1 : ((s.showDigital.showLoops.showInputs.showOutputs).showLplus s.island).regsWf = true :=
    frame_showLplus.canon (frame_showOutputs.canon (frame_showInputs.canon (frame_showLoops.canon (frame_showDigital.canon hw))))
  have h2 (v : State) : Frame [.regs] [.fld ⟨R.dioStatus, 5, 1⟩, .fld ⟨R.dioStatus, 7, 3⟩, .reg R.aoStatus] (v.fsetb F.dioStatus_holding s.island.holding)
      ((v.showHolds s.island).showFaults).showSummary :=
    (Frame.trans .fsetb frame_showFaults.sub).trans frame_showSummary.sub
  rw [showIsland_eq hc, (h2 _).fbit (regsWf_fsetb hw1), State.fsetb, fbit_fset hw1 (by decide)]
  cases s.island.holding <;> rfl

theorem showIsland_rbFaultAny : s.showIsland.fbit F.dioStatus_rbFaultAny = (List.range 32).any (fun n => (s.dch n).rbFault) := by
  have h1 : Frame [.regs] shownRegs s
      (((s.showDigital.showLoops.showInputs.showOutputs).showLplus s.island).showHolds s.island) :=
    ((((frame_showDigital.sub.trans frame_showLoops.sub).trans frame_showInputs.sub).trans frame_showOutputs.sub).trans
      frame_showLplus.sub).trans frame_showHolds.sub
  have hi := h1.part .island (by decide)
  have hw1 := h1.canon hw
  rw [showIsland_eq hc]
  generalize (((s.showDigital.showLoops.showInputs.showOutputs).showLplus s.island).showHolds s.island) = v at *
  rw [← dch_of_island hi, frame_showSummary.fbit (frame_showFaults.canon hw1), State.showFaults]
  have hf : ∀ b : Bool, ∀ w : State, w.regsWf = true → (w.fsetb F.dioStatus_rbFaultAny b).fbit F.dioStatus_rbFaultAny = b := by
    intro b w hw
    rw [State.fsetb, fbit_fset hw (by decide)]
    cases b <;> rfl
  rw [Frame.fbit (W := [.fld F.dioStatus_chkFaultAny]) (ps := [.regs]) .fsetb (regsWf_fsetb (regsWf_fsetb hw1)), hf _ _ (regsWf_fsetb hw1)]

end

/-! The island alone, and the blocks that show it. -/

theorem islandOnly_of_frame {W : List Rect} {but : List Nat} (h : Frame [.regs, .island] W s t) (hw : s.regsWf = true)
    (hW : ∀ o, o / 0x1000 ≠ 6 → o / 0x1000 ≠ 7 → o ∉ but → ∀ r ∈ W, r.has o = false) : islandOnly but s t :=
  ⟨h.eq_patch, fun o h6 h7 hb => rd_of_frame h hw (hW o h6 h7 hb)⟩

/-- A frame of the island and its blocks. -/
theorem islandOnly_blocks (h : Frame [.regs, .island] [.blk 6, .blk 7] s t) (hw : s.regsWf = true) : islandOnly [] s t := by
  refine islandOnly_of_frame h hw fun o h6 h7 _ r hr => ?_
  rw [← Bool.not_eq_true, Rect.has_iff]
  simp only [List.mem_cons, List.not_mem_nil, or_false] at hr
  rcases hr with rfl | rfl <;> simp only <;> omega

theorem when_pos {c : Bool} (h : c = true) : s.when c t = .next t := congrArg Host.Outcome.next (if_pos h)
theorem when_neg {c : Bool} (h : c = false) : s.when c t = .next s := congrArg Host.Outcome.next (if_neg (by rw [h]; exact Bool.false_ne_true))

end Sys2Proof.Machine
end

section
/-! Island frames, silence and hold (R228, R249, R251). -/

namespace Sys2Proof.Machine

variable {s t u : State}

/-! The island's own updates. -/

theorem frame_eachDch {g : Nat → DChan → DChan} : Frame [.island] [] s (s.eachDch g) := Frame.island
theorem frame_eachLch {g : Nat → LChan → LChan} : Frame [.island] [] s (s.eachLch g) := Frame.island

theorem frame_liftScan : Frame [.island] [] s s.liftScan := by
  rw [liftScan_eq]
  exact frame_eachDch.trans frame_eachLch

theorem frame_holdSafe : Frame [.island] [] s (s.holdSafe true) := by
  rw [holdSafe_eq]
  exact frame_eachDch.trans frame_eachLch

/-- The digital channels and the loop outputs of a state whose other was changed. -/
theorem dch_eachLch {g : Nat → LChan → LChan} : (s.eachLch g).dch = s.dch := by
  funext n
  rw [State.eachLch, State.withLp, State.dch, State.dch]
theorem lch_eachDch {g : Nat → DChan → DChan} : (s.eachDch g).lch = s.lch := by
  funext n
  rw [State.eachDch, State.withCh, State.lch, State.lch]

/-- A scan command lifts the holds of the outputs that it concerns. -/
theorem dch_liftScan {n : Nat} (h : n < 32) : s.liftScan.dch n = if s.isRfx n then s.dch n else { s.dch n with hold := none } := by
  rw [liftScan_eq, dch_eachLch, dch_eachDch h]
  cases s.isRfx n
  · exact if_pos ⟨h, rfl⟩
  · exact if_neg fun e => Bool.false_ne_true e.2

theorem lch_liftScan {n : Nat} (h : n < 8) : s.liftScan.lch n = { s.lch n with hold := none } := by
  rw [liftScan_eq, lch_eachLch h, lch_eachDch]
  exact if_pos ⟨h, rfl⟩

/-- The safe value is kept on every output. -/
theorem dch_holdSafe {n : Nat} (h : n < 32) :
    (s.holdSafe true).dch n = if s.isOut n then { s.dch n with hold := some (some (s.safeD n)) } else s.dch n := by
  rw [holdSafe_eq, dch_eachLch, dch_eachDch h]
  simp only [h, true_and]

theorem lch_holdSafe {n : Nat} (h : n < 8) : (s.holdSafe true).lch n = { s.lch n with hold := some (s.safeL n) } := by
  rw [holdSafe_eq, lch_eachLch h, lch_eachDch]
  exact if_pos ⟨h, rfl⟩

/-- Nothing of the island changed but its channels. -/
structure OnlyChannels (s t : State) : Prop where
  eq : t.island = { s.island with ch := t.island.ch, lp := t.island.lp }

theorem onlyChannels_eachDch {g : Nat → DChan → DChan} : OnlyChannels s (s.eachDch g) := ⟨by rw [State.eachDch, State.withCh]⟩
theorem onlyChannels_eachLch {g : Nat → LChan → LChan} : OnlyChannels s (s.eachLch g) := ⟨by rw [State.eachLch, State.withLp]⟩

theorem OnlyChannels.trans (h1 : OnlyChannels s t) (h2 : OnlyChannels t u) : OnlyChannels s u := ⟨by
  rw [h2.eq, h1.eq]⟩

theorem onlyChannels_liftScan : OnlyChannels s s.liftScan := by
  rw [liftScan_eq]
  exact onlyChannels_eachDch.trans onlyChannels_eachLch

theorem onlyChannels_holdSafe : OnlyChannels s (s.holdSafe true) := by
  rw [holdSafe_eq]
  exact onlyChannels_eachDch.trans onlyChannels_eachLch

/-! Frames taken. -/

/-- The chip's state as an island that runs takes it. -/
def State.takeMst (s : State) : State := { s with island := { s.island with mst := s.mod } }

/-- A scan command as the island takes it. -/
def State.takeCmd (s : State) (c : ScanCmd) : State :=
  { s with island := { s.island with cmd := c, cmdSeen := s.island.cmdSeen || s.island.recovering, useMirror := false } }

theorem islandTake_none (h : s.scan.pub = none) :
    s.islandTake = if s.mod = .boot ∨ s.mod = .config then s.takeMst.liftHolds else s.takeMst := by
  have hp : (if s.mod = .boot ∨ s.mod = .config then s.takeMst.liftHolds else s.takeMst).scan.pub = none := by
    split <;> exact h
  unfold State.islandTake
  extract_lets x y z
  rw [show z.scan.pub = none from hp]
  rfl

theorem islandTake_some {c : ScanCmd} (h : s.scan.pub = some c) :
    s.islandTake = ((if s.mod = .boot ∨ s.mod = .config then s.takeMst.liftHolds else s.takeMst).takeCmd c).liftScan := by
  have hp : (if s.mod = .boot ∨ s.mod = .config then s.takeMst.liftHolds else s.takeMst).scan.pub = some c := by
    split <;> exact h
  unfold State.islandTake
  extract_lets x y z
  rw [show z.scan.pub = some c from hp]
  rfl

/-- What a frame from the chip lifts: holds alone of the channels. -/
structure Lifts (s t : State) : Prop where
  mst : t.island.mst = s.mod
  silent : t.island.silent = s.island.silent
  term : ∀ n, n < 32 → (t.dch n).term = (s.dch n).term ∧ (t.dch n).ilim = (s.dch n).ilim
  loop : ∀ n, n < 8 → (t.lch n).readback = (s.lch n).readback

theorem lifts_takeMst : Lifts s s.takeMst := ⟨rfl, rfl, fun _ _ => ⟨rfl, rfl⟩, fun _ _ => rfl⟩

theorem dch_liftHolds {n : Nat} (h : n < 32) : s.liftHolds.dch n = { s.dch n with hold := none } := vget_map h
theorem lch_liftHolds {n : Nat} (h : n < 8) : s.liftHolds.lch n = { s.lch n with hold := none } := vget_map h

theorem Lifts.liftHolds (h : Lifts s t) : Lifts s t.liftHolds where
  mst := h.mst
  silent := h.silent
  term := fun n hn => by rw [dch_liftHolds hn]; exact h.term n hn
  loop := fun n hn => by rw [lch_liftHolds hn]; exact h.loop n hn

theorem Lifts.liftScan (h : Lifts s t) : Lifts s t.liftScan := by
  have ho := (onlyChannels_liftScan (s := t)).eq
  refine ⟨?_, ?_, fun n hn => ?_, fun n hn => ?_⟩
  · rw [ho]
    exact h.mst
  · rw [ho]
    exact h.silent
  · rw [dch_liftScan hn]
    split <;> exact h.term n hn
  · rw [lch_liftScan hn]
    exact h.loop n hn

theorem lifts_islandTake : Lifts s s.islandTake := by
  have h : Lifts s (if s.mod = .boot ∨ s.mod = .config then s.takeMst.liftHolds else s.takeMst) := by
    split
    · exact lifts_takeMst.liftHolds
    · exact lifts_takeMst
  cases hp : s.scan.pub with
  | none =>
    rw [islandTake_none hp]
    exact h
  | some c =>
    rw [islandTake_some hp]
    exact Lifts.liftScan ⟨h.mst, h.silent, h.term, h.loop⟩

theorem frame_islandTake : Frame [.island] [] s s.islandTake := by
  have h : Frame [.island] [] s (if s.mod = .boot ∨ s.mod = .config then s.takeMst.liftHolds else s.takeMst) :=
    .ite (Frame.trans (t := s.takeMst) .island .island) .island
  cases hp : s.scan.pub with
  | none =>
    rw [islandTake_none hp]
    exact h
  | some c =>
    rw [islandTake_some hp]
    exact (h.trans (Frame.island (s := _))).trans frame_liftScan

/-- The silence over, and the hold with it. -/
def State.hears (s : State) : State := { s with island := { s.island with silent := false, holding := false } }

theorem framesResume_eq : s.framesResume = s.hears.islandTake := rfl

theorem frame_framesResume : Frame [.island] [] s s.framesResume := Frame.trans (t := s.hears) .island frame_islandTake

theorem lifts_framesResume : Lifts s.hears s.framesResume := lifts_islandTake

/-- An island that takes no command leaves its channels, and one that takes one lifts the holds that it concerns. -/
theorem framesResume_channels (hb : s.mod ≠ .boot) (hc : s.mod ≠ .config) :
    (s.scan.pub = none → s.framesResume.island.ch = s.island.ch ∧ s.framesResume.island.lp = s.island.lp ∧
      s.framesResume.island.holding = false) ∧
    ∀ c, s.scan.pub = some c → s.framesResume.island.cmd = c ∧ s.framesResume.island.holding = false ∧
      (∀ n, n < 8 → (s.framesResume.lch n).hold = none) ∧
      ∀ n, n < 32 → (s.framesResume.dch n).hold = if s.isRfx n then (s.dch n).hold else none := by
  have hm : ¬ (s.hears.mod = .boot ∨ s.hears.mod = .config) := fun h => h.elim hb hc
  constructor
  · intro hp
    rw [framesResume_eq, islandTake_none (s := s.hears) hp, if_neg hm]
    exact ⟨rfl, rfl, rfl⟩
  · intro c hp
    rw [framesResume_eq, islandTake_some (s := s.hears) hp, if_neg hm]
    have ho := (onlyChannels_liftScan (s := s.hears.takeMst.takeCmd c)).eq
    refine ⟨by rw [ho]; rfl, by rw [ho]; rfl, fun n hn => by rw [lch_liftScan hn], fun n hn => ?_⟩
    have hr : (s.hears.takeMst.takeCmd c).isRfx n = s.isRfx n := congrFun (isRfx_of_cfg rfl) n
    rw [dch_liftScan hn, hr]
    cases s.isRfx n <;> rfl

/-! Status frames. -/

section
variable {mv cv : BitVec 16} {term ilim : W32} {rb : Vector (BitVec 25) 8}

theorem frame_islandMeasure : Frame [.regs, .island] [.reg R.dioLplus, .reg R.aoCompV] s (s.islandMeasure mv cv term ilim rb) := by
  unfold State.islandMeasure
  extract_lets a b v
  exact Frame.trans (t := v) (.trans .wr .wr) .island

/-- What the island has measured. -/
theorem islandMeasure_shows (hw : s.regsWf = true) : (s.islandMeasure mv cv term ilim rb).fget ⟨R.dioLplus, 0, 16⟩ = mv.toNat ∧
    ((s.islandMeasure mv cv term ilim rb).rd R.aoCompV).toNat = cv.toNat ∧
    (∀ n, n < 32 → ((s.islandMeasure mv cv term ilim rb).dch n).term = term.getLsbD n ∧
      ((s.islandMeasure mv cv term ilim rb).dch n).ilim = ilim.getLsbD n) ∧
    ∀ n, n < 8 → ((s.islandMeasure mv cv term ilim rb).lch n).readback = s.readbackOf n (vget rb n) := by
  unfold State.islandMeasure
  extract_lets a b v x y
  have hv : v.rd R.aoCompV = BitVec.ofNat 32 cv.toNat := rd_wr_self (regsWf_wr hw)
  have hl : v.rd R.dioLplus = BitVec.ofNat 32 (mv.toNat + b * 65536) := (rd_wr_ne (by decide)).trans (rd_wr_self hw)
  have hv1 : Frame [.regs] [.reg R.dioLplus, .reg R.aoCompV] s v := .trans .wr .wr
  have hrb := readbackOf_of_island (hv1.part .island (by decide))
  have hwv := hv1.canon hw
  clear_value v
  refine ⟨?_, ?_, fun n hn => ?_, fun n hn => ?_⟩
  · refine (Frame.fget (ps := [.island]) (W := []) .island hwv).trans ?_
    have := mv.isLt
    rw [State.fget, hl, BitVec.toNat_ofNat, fldN]
    simp only [Nat.pow_zero, Nat.div_one]
    omega
  · refine (congrArg BitVec.toNat ((Frame.rd (ps := [.island]) (W := []) .island hwv).trans hv)).trans ?_
    have := cv.isLt
    rw [BitVec.toNat_ofNat]
    omega
  · simp only [State.dch, vget_ofFn hn, and_self]
  · simp only [State.lch, vget_ofFn hn, hrb]

/-- A frame whose check fails, both ways. -/
theorem islandFrame_bad (hw : s.regsWf = true) (hc : s.power.chip = true) (hon : s.island.on = true) :
    ∃ t, exec (.islandStatusFrame false false mv cv term ilim rb) s = .next t ∧ t.island = s.island ∧ islandOnly [] s t ∧
      (t.rd R.dioIfaceErr).toNat = satAdd 32 (satAdd 32 (s.rd R.dioIfaceErr).toNat 1) 1 := by
  have hcond : (s.up && s.power.chip && s.island.on) = true := by rw [State.up, hc, hon]; rfl
  have hf : Frame [.regs] [.blk 6] s ((s.bump R.dioIfaceErr).bump R.dioIfaceErr) := .trans .bump .bump
  refine ⟨_, when_pos hcond, ?_, ?_, ?_⟩
  · exact ((frame_showIsland _).part .island (by decide)).trans (hf.part .island (by decide))
  · exact islandOnly_blocks (hf.sub.trans (frame_showIsland _).sub) hw
  · refine (congrArg BitVec.toNat (frame_showIsland_own.rd (hf.canon hw))).trans ?_
    rw [toNat_rd_bump (regsWf_bump hw), toNat_rd_bump hw]

/-- What is shown of a frame from the chip, taken after what was measured. -/
theorem framesResume_inputs (hw : s.regsWf = true) (hc : s.power.chip = true) :
    s.framesResume.showIsland.fget ⟨R.dioLplus, 0, 16⟩ = s.fget ⟨R.dioLplus, 0, 16⟩ ∧
    s.framesResume.showIsland.rd R.aoCompV = s.rd R.aoCompV ∧ s.framesResume.showIsland.island.mst = s.mod ∧
    s.framesResume.showIsland.island.silent = false ∧
    s.framesResume.showIsland.rd R.dioInState = s.framesResume.showIsland.diState ∧
    s.framesResume.showIsland.rd R.dioInValid = s.framesResume.showIsland.diValid := by
  have hlift := lifts_framesResume (s := s)
  have hf := frame_framesResume (s := s)
  have hi := island_showIsland (s := s.framesResume)
  obtain ⟨hi1, hi2⟩ := showIsland_inputs (hf.canon hw) ((congrArg Power.chip (hf.part .power (by decide))).trans hc)
  refine ⟨?_, ?_, ?_, ?_, ?_, ?_⟩
  · rw [frame_showIsland_own.fget (hf.canon hw), hf.fget hw]
  · rw [frame_showIsland_own.rd (hf.canon hw), hf.rd hw]
  · rw [hi]
    exact hlift.mst
  · rw [hi]
    exact hlift.silent
  · rw [hi1, diState_of_island hi]
  · rw [hi2, diValid_of_island hi]

/-- The channels after a frame from the chip. -/
theorem framesResume_levels (hw : s.regsWf = true) (hc : s.power.chip = true) :
    (∀ n, n < 32 → (s.framesResume.showIsland.dch n).term = (s.dch n).term ∧ (s.framesResume.showIsland.dch n).ilim = (s.dch n).ilim) ∧
    ∀ n, n < 8 → (s.framesResume.showIsland.lch n).readback = (s.lch n).readback ∧
      (s.framesResume.showIsland.rd (R.aoChnReadback n)).toNat = (s.lch n).readback % 2 ^ 25 ∧
      (s.framesResume.showIsland.rd (R.aoChnCmd n)).toNat = s.framesResume.showIsland.driveL n % 2 ^ 32 := by
  have hlift := lifts_framesResume (s := s)
  have hf := frame_framesResume (s := s)
  have ha := alike_showIsland (hf.canon hw)
  refine ⟨fun n hn => ?_, fun n hn => ?_⟩
  · rw [dch_of_island ha.island]
    exact hlift.term n hn
  · obtain ⟨h1, h2⟩ := showIsland_loops (hf.canon hw) ((congrArg Power.chip (hf.part .power (by decide))).trans hc) hn
    have hl : (s.framesResume.lch n).readback = (s.lch n).readback := hlift.loop n hn
    rw [lch_of_island ha.island, h1, h2, ha.driveL, hl, BitVec.toNat_ofNat, BitVec.toNat_ofNat]
    exact ⟨rfl, Nat.mod_eq_of_lt (Nat.lt_of_lt_of_le (Nat.mod_lt _ (by decide)) (by decide)), rfl⟩

/-- A good frame, both ways. -/
theorem islandFrame_good (hw : s.regsWf = true) (hc : s.power.chip = true) (hon : s.island.on = true) :
    ∃ t, exec (.islandStatusFrame true true mv cv term ilim rb) s = .next t ∧ islandOnly [] s t ∧
        t.fget ⟨R.dioLplus, 0, 16⟩ = mv.toNat ∧ (t.rd R.aoCompV).toNat = cv.toNat ∧ t.island.mst = s.mod ∧
        t.island.silent = false ∧ t.rd R.dioInState = t.diState ∧ t.rd R.dioInValid = t.diValid ∧
        (∀ n : Fin 32, (t.dch n).term = term.getLsbD n.val ∧ (t.dch n).ilim = ilim.getLsbD n.val) ∧
        (∀ n : Fin 8, (t.lch n).readback = s.readbackOf n (vget rb n.val) ∧
          (t.rd (R.aoChnReadback n)).toNat = s.readbackOf n (vget rb n.val) % 2 ^ 25 ∧
          (t.rd (R.aoChnCmd n)).toNat = t.driveL n % 2 ^ 32) := by
  have hcond : (s.up && s.power.chip && s.island.on) = true := by rw [State.up, hc, hon]; rfl
  have hmf : Frame [.regs, .island] [.reg R.dioLplus, .reg R.aoCompV] s (s.islandMeasure mv cv term ilim rb) := frame_islandMeasure
  refine ⟨_, when_pos hcond, islandOnly_blocks ((hmf.sub.trans frame_framesResume.sub).trans (frame_showIsland _).sub) hw, ?_⟩
  obtain ⟨hmv, hcv, hd, hl⟩ := islandMeasure_shows (mv := mv) (cv := cv) (term := term) (ilim := ilim) (rb := rb) hw
  have hp := (congrArg Power.chip (hmf.part .power (by decide))).trans hc
  obtain ⟨h1, h2, h3, h4, h5, h6⟩ := framesResume_inputs (hmf.canon hw) hp
  obtain ⟨h7, h8⟩ := framesResume_levels (hmf.canon hw) hp
  refine ⟨h1.trans hmv, (congrArg _ h2).trans hcv, h3.trans (hmf.mod hw), h4, h5, h6, fun n => ?_, fun n => ?_⟩
  · obtain ⟨ht, hi⟩ := h7 n n.isLt
    obtain ⟨ht', hi'⟩ := hd n n.isLt
    exact ⟨ht.trans ht', hi.trans hi'⟩
  · have hr := hl n n.isLt
    obtain ⟨hr1, hr2, hr3⟩ := h8 n n.isLt
    rw [hr] at hr1 hr2
    exact ⟨hr1, hr2, hr3⟩

end

/-! Silence. -/

/-- The logic side silent. -/
def State.silenced (s : State) : State := { s with island := { s.island with silent := true } }

/-- The hold on every output. -/
def State.held (s : State) : State :=
  { s with island := { s.island with
      holding := true, expired := false
      ch := Vector.ofFn (fun (i : Fin 32) => { s.dch i.val with hold := some (s.wantD i.val) })
      lp := Vector.ofFn (fun (i : Fin 8) => { s.lch i.val with hold := some (s.wantL i.val) }) } }

theorem startHold_eq : s.startHold = s.held.fset F.dioStatus_holdSeen 1 := rfl

theorem dch_held {n : Nat} (h : n < 32) : s.held.dch n = { s.dch n with hold := some (s.wantD n) } := vget_ofFn h
theorem lch_held {n : Nat} (h : n < 8) : s.held.lch n = { s.lch n with hold := some (s.wantL n) } := vget_ofFn h

/-- A held output keeps its level. -/
theorem wantD_held {n : Nat} (h : n < 32) : s.held.wantD n = s.wantD n := by
  have hk : s.held.lead n = s.lead n := congrFun (lead_of_cfg rfl) n
  have hd := dch_held (s := s) (Nat.lt_of_le_of_lt (lead_le s n) h)
  have hm : s.held.island.mst = s.island.mst := rfl
  have hll : s.wantD (s.lead n) = s.wantD n := by simp only [State.wantD, lead_lead]
  unfold State.wantD
  extract_lets k k'
  simp only [k, k', hk, hd, hm]
  split
  next => rfl
  next hb =>
    rw [hll, State.wantD]
    exact if_neg hb

theorem wantL_held {n : Nat} (h : n < 8) : s.held.wantL n = s.wantL n := by
  have hm : s.held.island.mst = s.island.mst := rfl
  unfold State.wantL
  simp only [lch_held h, hm]
  split
  next => rfl
  next hb =>
    rw [State.wantL]
    exact if_neg hb

theorem driveD_held {n : Nat} (h : n < 32) : s.held.driveD n = s.driveD n := by
  have hk : s.held.lead n = s.lead n := congrFun (lead_of_cfg rfl) n
  have hout : s.held.isOut n = s.isOut n := congrFun (isOut_of_cfg rfl) n
  have htk : s.held.token = s.token := rfl
  have hon : s.held.island.on = s.island.on := rfl
  have hoff : s.held.island.off = s.island.off := rfl
  simp only [State.driveD, wantD_held h, hk, dch_held (Nat.lt_of_le_of_lt (lead_le s n) h), hout, htk, hon, hoff]

theorem driveL_held {n : Nat} (h : n < 8) : s.held.driveL n = s.driveL n := by
  have hg : s.held.iget = s.iget := iget_of_cfg rfl
  have htk : s.held.token = s.token := rfl
  have hon : s.held.island.on = s.island.on := rfl
  have hoff : s.held.island.off = s.island.off := rfl
  have hr : s.held.rampDone = s.rampDone := rfl
  have hb : s.held.bogie = s.bogie := rfl
  simp only [State.driveL, wantL_held h, lch_held h, hg, htk, hon, hoff, hr, hb]

/-- A silent logic side where the island holds the token and its outputs are on. -/
theorem logicSilent_holds (hw : s.regsWf = true) (hon : s.island.on = true) (hs : s.island.silent = false) (htk : s.token = true)
    (hoff : s.island.off = false) : ∃ t, exec .logicSilent s = .next t ∧
      islandOnly [] s t ∧ t.island.silent = true ∧ t.island.holding = true ∧
      (s.up = true → t.fbit F.dioStatus_holdSeen = true ∧ t.fbit F.dioStatus_holding = true) ∧
      (∀ n : Fin 32, t.driveD n = s.driveD n) ∧ (∀ n : Fin 8, t.driveL n = s.driveL n) := by
  have hcond : (s.island.on && !s.island.silent) = true := by rw [hon, hs]; rfl
  have hh : (s.token && !s.island.off) = true := by rw [htk, hoff]; rfl
  have hex : exec .logicSilent s = .next (s.silenced.held.fset F.dioStatus_holdSeen 1).showIsland :=
    (when_pos hcond).trans (congrArg (fun u : State => Host.Outcome.next u.showIsland) (if_pos hh))
  have hf : Frame [.regs, .island] [.blk 6] s (s.silenced.held.fset F.dioStatus_holdSeen 1) :=
    .trans (Frame.trans (t := s.silenced) .island .island) .fset
  have hwh : s.silenced.held.regsWf = true := hw
  have hwf := hf.canon hw
  have ha := alike_showIsland hwf
  have ha' : Alike s.silenced.held (s.silenced.held.fset F.dioStatus_holdSeen 1) :=
    alike_of_frame (W := [.fld F.dioStatus_holdSeen]) .fset hwh rfl
  refine ⟨_, hex, islandOnly_blocks (hf.sub.trans (frame_showIsland _).sub) hw, ?_, ?_, fun hup => ⟨?_, ?_⟩, fun n => ?_, fun n => ?_⟩
  · rw [ha.island]
    rfl
  · rw [ha.island]
    rfl
  · rw [frame_showIsland_own.fbit hwf, fbit_fset hwh (by decide)]
    rfl
  · exact showIsland_holding hwf hup
  · rw [ha.driveD, ha'.driveD, driveD_held n.isLt]
    have hd : s.silenced.driveD n.val = s.driveD n.val := rfl
    exact hd
  · rw [ha.driveL, ha'.driveL, driveL_held n.isLt]
    have hd : s.silenced.driveL n.val = s.driveL n.val := rfl
    exact hd

/-- The hold at its end. -/
theorem holdExpiry_safe (hw : s.regsWf = true) (hon : s.island.on = true) (hs : s.island.silent = true) (hh : s.island.holding = true)
    (htk : s.token = true) (hoff : s.island.off = false) :
    ∃ t, exec .holdExpiry s = .next t ∧ islandOnly [] s t ∧ t.island.holding = false ∧ t.island.expired = true ∧
      (∀ n : Fin 32, (t.dch n).hold = if s.isOut n then some (some (s.safeD n)) else (s.dch n).hold) ∧
      (∀ n : Fin 8, (t.lch n).hold = some (s.safeL n)) := by
  have hcond : (s.island.on && s.island.silent && s.island.holding && s.token && !s.island.off) = true := by
    rw [hon, hs, hh, htk, hoff]
    rfl
  refine ⟨_, when_pos hcond, ?_⟩
  have hf := Frame.trans (t := { s with island := { s.island with holding := false, expired := true } }) (s := s) .island frame_holdSafe
  have hout : State.isOut { s with island := { s.island with holding := false, expired := true } } = s.isOut := isOut_of_cfg rfl
  have hsd : State.safeD { s with island := { s.island with holding := false, expired := true } } = s.safeD := safeD_of_cfg rfl
  have hsl : State.safeL { s with island := { s.island with holding := false, expired := true } } = s.safeL := safeL_of_cfg rfl
  have hd (n : Nat) : State.dch { s with island := { s.island with holding := false, expired := true } } n = s.dch n := rfl
  have h1 : State.island { s with island := { s.island with holding := false, expired := true } } =
    { s.island with holding := false, expired := true } := rfl
  generalize ({ s with island := { s.island with holding := false, expired := true } } : State) = v at *
  have ho := (onlyChannels_holdSafe (s := v)).eq
  have hi := island_showIsland (s := v.holdSafe true)
  refine ⟨islandOnly_blocks (Frame.trans hf.sub (frame_showIsland _).sub) hw, ?_, ?_, fun n => ?_, fun n => ?_⟩
  · rw [hi, ho, h1]
  · rw [hi, ho, h1]
  · rw [dch_of_island hi, dch_holdSafe n.isLt, hout, hsd, hd]
    cases s.isOut n <;> rfl
  · rw [lch_of_island hi, lch_holdSafe n.isLt, hsl]

/-- Frames again. -/
theorem framesResume_shows (hw : s.regsWf = true) (hc : s.power.chip = true) (hon : s.island.on = true) (hs : s.island.silent = true)
    (hb : s.mod ≠ .boot) (hcf : s.mod ≠ .config) :
    ∃ t, exec .framesResume s = .next t ∧ islandOnly [] s t ∧ t.island.silent = false ∧ t.island.holding = false ∧
      t.island.mst = s.mod ∧
      (s.scan.pub = none → t.island.ch = s.island.ch ∧ t.island.lp = s.island.lp) ∧
      (∀ c, s.scan.pub = some c → t.island.cmd = c ∧ (∀ n : Fin 8, (t.lch n).hold = none) ∧
        ∀ n : Fin 32, (t.dch n).hold = if s.isRfx n then (s.dch n).hold else none) := by
  have hcond : (s.up && s.power.chip && s.island.on && s.island.silent) = true := by rw [State.up, hc, hon, hs]; rfl
  refine ⟨_, when_pos hcond, islandOnly_blocks (frame_framesResume.sub.trans (frame_showIsland _).sub) hw, ?_⟩
  obtain ⟨hnone, hsome⟩ := framesResume_channels hb hcf
  have hlift := lifts_framesResume (s := s)
  have hi := island_showIsland (s := s.framesResume)
  rw [dch_of_island hi, lch_of_island hi, hi]
  refine ⟨hlift.silent, ?_, hlift.mst, fun hp => ?_, fun c hp => ?_⟩
  · cases hp : s.scan.pub with
    | none => exact (hnone hp).2.2
    | some c => exact (hsome c hp).2.1
  · obtain ⟨h1, h2, -⟩ := hnone hp
    exact ⟨h1, h2⟩
  · obtain ⟨h1, -, h2, h3⟩ := hsome c hp
    exact ⟨h1, fun n => h2 n n.isLt, fun n => h3 n n.isLt⟩

/-- Settles O39: each command's own lemma. -/
theorem islandFrames : Obligations.IslandFrames := by
  unfold Obligations.IslandFrames
  intro s hw hon
  refine ⟨fun mv cv term ilim rb _ hc => ⟨islandFrame_good hw hc hon, islandFrame_bad hw hc hon⟩, fun hs htk hoff =>
    logicSilent_holds hw hon hs htk hoff, fun hs htk => ?_, fun hs => ?_, fun hs hh htk hoff => holdExpiry_safe hw hon hs hh htk hoff,
    fun hh => ?_, fun hs _ hc hb hcf => framesResume_shows hw hc hon hs hb hcf⟩
  · have hcond : (s.island.on && !s.island.silent) = true := by rw [hon, hs]; rfl
    have hh : ¬ (s.token && !s.island.off) = true := by rw [htk]; exact Bool.false_ne_true
    have hex : exec .logicSilent s = .next s.silenced.showIsland :=
      (when_pos hcond).trans (congrArg (fun u : State => Host.Outcome.next u.showIsland) (if_neg hh))
    have hf : Frame [.regs, .island] [.blk 6, .blk 7] s s.silenced.showIsland :=
      Frame.trans (t := s.silenced) .island (frame_showIsland _).sub
    exact ⟨_, hex, islandOnly_blocks hf hw, island_showIsland⟩
  · exact when_neg (by rw [hs, Bool.not_true, Bool.and_false])
  · exact when_neg (by rw [hh, Bool.and_false, Bool.false_and, Bool.false_and])

end Sys2Proof.Machine
end

section
/-! Digital channels (R235, R237, R240, R242, R244). -/

namespace Sys2Proof.Machine

variable {s t u : State} {n : Fin 32}

theorem frame_setDch_show {k : Nat} {f : DChan → DChan} : Frame [.regs, .island] [.blk 6, .blk 7] s (s.setDch k f).showIsland :=
  (frame_setDch ..).sub.trans (frame_showIsland _).sub

theorem dch_showIsland {k : Nat} : s.showIsland.dch k = s.dch k := congrFun (dch_of_island island_showIsland) k

theorem only_setDch {f : DChan → DChan} {m : Fin 32} (h : m ≠ n) : (s.setDch n f).dch m = s.dch m :=
  dch_setDch_ne fun e => h (Fin.ext e)

/-! Inputs. -/

theorem filterStateChange_shows (hw : s.regsWf = true) (samples : List Bool) (hon : s.island.on = true) (ho : s.isOut n = false) : ∃ t,
    exec (.filterStateChange n samples) s = .next t ∧ islandOnly [] s t ∧ (∀ m : Fin 32, m ≠ n → t.dch m = s.dch m) ∧
    (let x := samples.foldl (filterTick (s.filtT n)) ((s.dch n).count, (s.dch n).input)
     t.dch n = { s.dch n with count := x.1, input := x.2 }) ∧ (s.up = true → t.rd R.dioInState = t.diState) := by
  have hcond : (s.island.on && !s.isOut n.val) = true := by rw [hon, ho]; rfl
  refine ⟨_, when_pos hcond, islandOnly_blocks frame_setDch_show hw, fun m hm => ?_, ?_, fun hup => ?_⟩
  · rw [dch_showIsland, only_setDch hm]
  · rw [dch_showIsland, dch_setDch_self n.isLt]
  · obtain ⟨h, -⟩ := showIsland_inputs (s := s.setDch n _) hw hup
    rw [h, diState_of_island island_showIsland]

/-- A lap of the threshold check, on the inputs. -/
def checkStep (dis : W32) (i : Nat) (c : DChan) : DChan :=
  { c with chkFault := c.chkFault || (dis.getLsbD i && c.chkBad), chkBad := dis.getLsbD i }

theorem thresholdCheck_eq {dis : W32} : (List.range 32).foldl (fun s n => if s.isOut n then s else
    s.setDch n (fun c =>
      let d := dis.getLsbD n
      { c with chkFault := c.chkFault || (d && c.chkBad), chkBad := d })) s =
    s.eachDch (fun i c => if i < 32 ∧ (!s.isOut i) = true then checkStep dis i c else c) := by
  have h := foldl_setDch (s := s) (p := fun u n => !u.isOut n) (f := fun _ n => checkStep dis n) fun t h => ⟨by rw [isOut_of_cfg h], rfl⟩
  simp only [Bool.not_eq_true', ← Bool.not_eq_true, ite_not] at h
  simp only [Bool.not_eq_true', ← Bool.not_eq_true]
  exact h

/-- The registers of a background client. -/
abbrev clientRegs (c : Nat) : List Nat := [R.wfClcLast c, R.wfClcLap c, R.wfClcRuns c, R.wfLate]

theorem wfDone_shows {c lap : Nat} (hw : s.regsWf = true) : (s.wfDone c lap).rd (R.wfClcLast c) = BitVec.ofNat 32 s.time.tb3 ∧
    (s.wfDone c lap).rd (R.wfClcLap c) = BitVec.ofNat 32 lap ∧
    ((s.wfDone c lap).rd (R.wfClcRuns c)).toNat = satAdd 32 (s.rd (R.wfClcRuns c)).toNat 1 := by
  have h1 : R.wfClcLast c ≠ R.wfLate := by simp only [R.wfClcLast, R.wfLate]; omega
  have h2 : R.wfClcLast c ≠ R.wfClcRuns c := by simp only [R.wfClcLast, R.wfClcRuns]; omega
  have h3 : R.wfClcLast c ≠ R.wfClcLap c := by simp only [R.wfClcLast, R.wfClcLap]; omega
  have h4 : R.wfClcLap c ≠ R.wfLate := by simp only [R.wfClcLap, R.wfLate]; omega
  have h5 : R.wfClcLap c ≠ R.wfClcRuns c := by simp only [R.wfClcLap, R.wfClcRuns]; omega
  have h6 : R.wfClcRuns c ≠ R.wfLate := by simp only [R.wfClcRuns, R.wfLate]; omega
  unfold State.wfDone
  extract_lets v
  have hv : v.regsWf = true := regsWf_wr (regsWf_wr hw)
  refine ⟨?_, ?_, ?_⟩
  · exact (rd_fset_ne h1).trans ((rd_bump_ne h2).trans ((rd_wr_ne h3).trans (rd_wr_self hw)))
  · exact (rd_fset_ne h4).trans ((rd_bump_ne h5).trans (rd_wr_self (regsWf_wr hw)))
  · refine (congrArg _ (rd_fset_ne h6)).trans ((toNat_rd_bump hv).trans ?_)
    rw [show v.rd (R.wfClcRuns c) = s.rd (R.wfClcRuns c) from (rd_wr_ne h5.symm).trans (rd_wr_ne h2.symm)]

theorem rd_wfDone_ne {c lap o : Nat} (h : o ∉ clientRegs c) : (s.wfDone c lap).rd o = s.rd o := by
  simp only [List.mem_cons, List.not_mem_nil, or_false, not_or] at h
  obtain ⟨h1, h2, h3, h4⟩ := h
  exact (rd_fset_ne h4).trans ((rd_bump_ne h3).trans ((rd_wr_ne h2).trans (rd_wr_ne h1)))

/-- The island alone, shown after a run of a background client. -/
theorem islandOnly_wfDone {c lap : Nat} (hc : c < 13) (h : Frame [.regs, .island] [.blk 6, .blk 7] s t) (hw : s.regsWf = true) :
    islandOnly (clientRegs c) s (t.wfDone c lap).showIsland := by
  have hf : Frame [.regs, .island] [.blk 6, .blk 7, .blk 0x11] s (t.wfDone c lap).showIsland := h.sub.trans ((frame_wfDone (lap := lap) hc).sub.trans (frame_showIsland _).sub)
  refine ⟨hf.eq_patch, fun o h6 h7 hb => ?_⟩
  have hd := (islandOnly_blocks (Frame.sub (frame_showIsland (t.wfDone c lap))) ((frame_wfDone hc).canon (h.canon hw))).2 o h6 h7 List.not_mem_nil
  rw [hd, rd_wfDone_ne hb]
  exact (islandOnly_blocks h hw).2 o h6 h7 List.not_mem_nil

theorem inputThresholdCheck_shows (hw : s.regsWf = true) (dis : W32) (lap : Nat) (hon : s.island.on = true) :
    ∃ t, exec (.inputThresholdCheck dis lap) s = .next t ∧
      islandOnly [R.wfClcLast 5, R.wfClcLap 5, R.wfClcRuns 5, R.wfLate] s t ∧
      (s.isOut n = true → t.dch n = s.dch n) ∧
      (s.isOut n = false → t.dch n = { s.dch n with
        chkFault := (s.dch n).chkFault || (dis.getLsbD n.val && (s.dch n).chkBad), chkBad := dis.getLsbD n.val }) ∧
      t.rd R.dioChkLast = BitVec.ofNat 32 s.time.tb3 ∧ t.rd (R.wfClcLast 5) = BitVec.ofNat 32 s.time.tb3 ∧
      t.rd (R.wfClcLap 5) = BitVec.ofNat 32 lap ∧ (t.rd (R.wfClcRuns 5)).toNat = satAdd 32 (s.rd (R.wfClcRuns 5)).toNat 1 := by
  have hex : exec (.inputThresholdCheck dis lap) s = .next ((((s.eachDch (fun i c => if i < 32 ∧ (!s.isOut i) = true then checkStep dis i c
      else c)).wr R.dioChkLast (BitVec.ofNat 32 s.time.tb3)).wfDone 5 lap).showIsland) := by
    rw [← thresholdCheck_eq]
    exact when_pos hon
  rw [hex]
  refine ⟨_, rfl, ?_⟩
  have hd : (s.eachDch (fun i c => if i < 32 ∧ (!s.isOut i) = true then checkStep dis i c else c)).dch n =
      if s.isOut n = true then s.dch n else checkStep dis n (s.dch n) := by
    rw [dch_eachDch n.isLt]
    cases s.isOut n
    · exact if_pos ⟨n.isLt, rfl⟩
    · exact if_neg fun e => Bool.false_ne_true e.2
  have hf : Frame [.island] [] s (s.eachDch (fun i c => if i < 32 ∧ (!s.isOut i) = true then checkStep dis i c else c)) := frame_eachDch
  generalize s.eachDch (fun i c => if i < 32 ∧ (!s.isOut i) = true then checkStep dis i c else c) = v at *
  have hwv := hf.canon hw
  have hf1 : Frame [.regs, .island] [.blk 6, .blk 7] s (v.wr R.dioChkLast (BitVec.ofNat 32 s.time.tb3)) := hf.sub.trans .wr
  have hw1 := hf1.canon hw
  have hs := frame_showIsland_own (s := (v.wr R.dioChkLast (BitVec.ofNat 32 s.time.tb3)).wfDone 5 lap)
  have hw2 := (frame_wfDone (lap := lap) (by decide : 5 < 13)).canon hw1
  obtain ⟨h1, h2, h3⟩ := wfDone_shows (c := 5) (lap := lap) hw1
  have hdn : (((v.wr R.dioChkLast (BitVec.ofNat 32 s.time.tb3)).wfDone 5 lap).showIsland).dch n = v.dch n := by
    rw [dch_showIsland, dch_of_island ((frame_wfDone (by decide : 5 < 13)).part .island (by decide))]
    exact congrFun (dch_of_island ((Frame.wr (W := [.blk 6]) : Frame [.regs] [.blk 6] v _).part .island (by decide))) n
  refine ⟨islandOnly_wfDone (by decide) hf1 hw, fun ho => ?_, fun ho => ?_, ?_, ?_, ?_, ?_⟩
  · rw [hdn, hd, if_pos ho]
  · rw [hdn, hd, if_neg (by rw [ho]; exact Bool.false_ne_true), checkStep]
  · rw [hs.rd hw2, rd_wfDone_ne (by decide), rd_wr_self hwv]
  · have ht : State.time (v.wr R.dioChkLast (BitVec.ofNat 32 s.time.tb3)) = s.time := hf1.part .time (by decide)
    rw [hs.rd hw2, h1, ht]
  · rw [hs.rd hw2, h2]
  · rw [hs.rd hw2, h3, rd_wr_ne (by decide), hf.rd hw]

/-! Outputs. -/

/-- The channel that leads a pair. -/
theorem lead_lt (s : State) (n : Fin 32) : s.lead n < 32 := Nat.lt_of_le_of_lt (lead_le s n) n.isLt

/-- A field of the block beside what the status shows, of a channel. -/
theorem rd_showIsland_chn {k : Nat} (hw : s.regsWf = true) (hk : k < 32) : s.showIsland.rd (R.dioChnShorts k) = s.rd (R.dioChnShorts k) ∧
    s.showIsland.rd (R.dioChnRetries k) = s.rd (R.dioChnRetries k) := by
  have hr (j : Nat) (hj : j = 0x6108 ∨ j = 0x610C) : ∀ r ∈ shownRegs, r.has (j + k * 0x10) = false := by
    intro r hr
    rw [← Bool.not_eq_true, Rect.has_iff]
    simp only [shownRegs, List.cons_append, List.nil_append, List.mem_cons, List.not_mem_nil, or_false] at hr
    rcases hr with rfl | rfl | rfl | rfl | rfl | rfl | rfl | rfl <;> simp only [R.dioStatus, R.aoStatus] <;> omega
  exact ⟨rd_of_frame frame_showIsland_own hw (hr 0x6108 (.inl rfl)), rd_of_frame frame_showIsland_own hw (hr 0x610C (.inr rfl))⟩

theorem frame_bumpChn {k j : Nat} (hk : k < 32) (hj : 0x6100 ≤ j ∧ j < 0x6110) : Frame [.regs] [.blk 6] s (s.bump (j + k * 0x10)) :=
  .bump (cover_span 0x6000 0x7000 (by dsimp only; omega))

theorem outputLatchOff_shows (hw : s.regsWf = true) (hd : (s.driveD n).isSome = true) :
    ∃ u, exec (.outputLatchOff n) s = .next (u.event 0x0020 6 (s.lead n) [BitVec.ofNat 64 (s.lead n)]) ∧
      islandOnly [] s u ∧ u.dch (s.lead n) = { s.dch (s.lead n) with latched := true, ilim := false } ∧
      (n.val ≠ s.lead n → u.dch n = { s.dch n with ilim := false }) ∧ (∀ m : Fin 32, m ≠ n → m.val ≠ s.lead n → u.dch m = s.dch m) ∧
      (u.rd (R.dioChnShorts (s.lead n))).toNat = satAdd 32 (s.rd (R.dioChnShorts (s.lead n))).toNat 1 ∧
      ∀ m : Fin 32, s.lead m = s.lead n → u.driveD m = none := by
  have hk := lead_lt s n
  refine ⟨_, when_pos hd, ?_⟩
  generalize hlead : s.lead n = k at *
  have hf1 : Frame [.island] [] s ((s.setDch n (fun c => { c with ilim := false })).setDch k
    (fun c => { c with latched := true, ilim := false })) := (frame_setDch ..).trans (frame_setDch ..)
  have hdk : ((s.setDch n (fun c => { c with ilim := false })).setDch k (fun c => { c with latched := true, ilim := false })).dch k =
      { s.dch k with latched := true, ilim := false } := by
    rw [dch_setDch_self hk]
    by_cases he : k = n
    · rw [he, dch_setDch_self n.isLt]
    · rw [dch_setDch_ne he]
  have hdm (m : Nat) (hm : m ≠ k) : ((s.setDch n (fun c => { c with ilim := false })).setDch k
      (fun c => { c with latched := true, ilim := false })).dch m = (s.setDch n (fun c => { c with ilim := false })).dch m :=
    dch_setDch_ne hm
  have hcfg : ((s.setDch n (fun c => { c with ilim := false })).setDch k (fun c => { c with latched := true, ilim := false })).lead =
    s.lead := lead_of_cfg rfl
  generalize (s.setDch n (fun c => { c with ilim := false })).setDch k (fun c => { c with latched := true, ilim := false }) = v at *
  have hwv := hf1.canon hw
  have hb : Frame [.regs] [.blk 6] v (v.bump (R.dioChnShorts k)) := frame_bumpChn (j := 0x6108) hk (by decide)
  have hi : (v.bump (R.dioChnShorts k)).showIsland.island = v.island := island_showIsland.trans (hb.part .island (by decide))
  refine ⟨islandOnly_blocks ((hf1.sub.trans hb.sub).trans (frame_showIsland _).sub) hw, ?_, fun hn => ?_, fun m hm hmk => ?_, ?_,
    fun m hm => ?_⟩
  · rw [dch_of_island hi, hdk]
  · rw [dch_of_island hi, hdm _ hn, dch_setDch_self n.isLt]
  · rw [dch_of_island hi, hdm _ hmk, only_setDch hm]
  · obtain ⟨h, -⟩ := rd_showIsland_chn (hb.canon hwv) hk
    have hsd : v.rd (R.dioChnShorts k) = s.rd (R.dioChnShorts k) :=
      rd_of_frame hf1 hw fun r hr => absurd hr List.not_mem_nil
    rw [h, toNat_rd_bump hwv, hsd]
  · have hl : (v.bump (R.dioChnShorts k)).showIsland.lead m = k := by
      rw [lead_of_cfg (congrArg Island.cfg hi), hcfg, hm]
    have hla : ((v.bump (R.dioChnShorts k)).showIsland.dch k).latched = true := by rw [dch_of_island hi, hdk]
    simp only [State.driveD, hl, hla, Bool.or_true, Bool.true_or, if_true]

/-- The state in which a retry was counted. -/
theorem retried (hw : s.regsWf = true) {k : Nat} (hk : k < 32) {f : DChan → DChan} :
    islandOnly [] s ((s.bump (R.dioChnRetries k)).setDch k f).showIsland ∧
    ((s.bump (R.dioChnRetries k)).setDch k f).showIsland.dch k = f (s.dch k) ∧
    (∀ m : Fin 32, m.val ≠ k → ((s.bump (R.dioChnRetries k)).setDch k f).showIsland.dch m = s.dch m) ∧
    (((s.bump (R.dioChnRetries k)).setDch k f).showIsland.rd (R.dioChnRetries k)).toNat = satAdd 32 (s.rd (R.dioChnRetries k)).toNat 1 := by
  have hb : Frame [.regs] [.blk 6] s (s.bump (R.dioChnRetries k)) := frame_bumpChn (j := 0x610C) hk (by decide)
  have hi := dch_of_island (hb.part .island (by decide))
  have hf : Frame [.island] [] (s.bump (R.dioChnRetries k)) ((s.bump (R.dioChnRetries k)).setDch k f) := frame_setDch ..
  have hwb := hb.canon hw
  refine ⟨islandOnly_blocks ((hb.sub.trans hf.sub).trans (frame_showIsland _).sub) hw, ?_, fun m hm => ?_, ?_⟩
  · rw [dch_showIsland, dch_setDch_self hk, hi]
  · rw [dch_showIsland, dch_setDch_ne hm, hi]
  · obtain ⟨-, h⟩ := rd_showIsland_chn (hf.canon hwb) hk
    rw [h, rd_of_frame hf hwb fun r hr => absurd hr List.not_mem_nil, toNat_rd_bump hw]

theorem outputRetry_ends (hw : s.regsWf = true) (hl : (s.dch (s.lead n)).latched = true) (htk : s.token = true)
    (hon : s.island.on = true) (hoff : s.island.off = false) :
    ∃ u, exec (.outputRetry n false) s = .next (u.event 0x0021 6 (s.lead n) (if (s.wantD (s.lead n)).getD false then
        [BitVec.ofNat 64 (s.lead n)] else [BitVec.ofNat 64 (s.lead n), 1])) ∧
      islandOnly [] s u ∧ (u.dch (s.lead n)).latched = false ∧ (∀ m : Fin 32, m.val ≠ s.lead n → u.dch m = s.dch m) ∧
      (u.rd (R.dioChnRetries (s.lead n))).toNat = satAdd 32 (s.rd (R.dioChnRetries (s.lead n))).toNat 1 := by
  have hcond : ((s.dch (s.lead n)).latched && s.token && s.island.on && !s.island.off) = true := by rw [hl, htk, hon, hoff]; rfl
  obtain ⟨h1, h2, h3, h4⟩ := retried hw (lead_lt s n) (f := fun c => { c with latched := false })
  have hex : exec (.outputRetry n false) s = .next (if !(s.wantD (s.lead n)).getD false then
      (((s.bump (R.dioChnRetries (s.lead n))).setDch (s.lead n) (fun c => { c with latched := false })).showIsland).event 0x0021 6 (s.lead n)
        [BitVec.ofNat 64 (s.lead n), 1]
      else if !false then (((s.bump (R.dioChnRetries (s.lead n))).setDch (s.lead n) (fun c => { c with latched := false })).showIsland).event
        0x0021 6 (s.lead n) [BitVec.ofNat 64 (s.lead n)] else (s.bump (R.dioChnRetries (s.lead n))).showIsland) := when_pos hcond
  rw [hex]
  generalize ((s.bump (R.dioChnRetries (s.lead n))).setDch (s.lead n) (fun c => { c with latched := false })).showIsland = v at *
  refine ⟨v, ?_, h1, by rw [h2], h3, h4⟩
  cases (s.wantD (s.lead n)).getD false <;> rfl

theorem outputRetry_stays (hw : s.regsWf = true) (hl : (s.dch (s.lead n)).latched = true) (htk : s.token = true)
    (hon : s.island.on = true) (hoff : s.island.off = false) (hv : (s.wantD (s.lead n)).getD false = true) :
    ∃ t, exec (.outputRetry n true) s = .next t ∧ islandOnly [] s t ∧ t.island = s.island ∧
      (t.rd (R.dioChnRetries (s.lead n))).toNat = satAdd 32 (s.rd (R.dioChnRetries (s.lead n))).toNat 1 := by
  have hcond : ((s.dch (s.lead n)).latched && s.token && s.island.on && !s.island.off) = true := by rw [hl, htk, hon, hoff]; rfl
  have hlow : ¬ (!(s.wantD (s.lead n)).getD false) = true := by rw [hv]; exact Bool.false_ne_true
  have hex : exec (.outputRetry n true) s = .next (s.bump (R.dioChnRetries (s.lead n))).showIsland :=
    (when_pos hcond).trans (congrArg Host.Outcome.next (if_neg hlow))
  have hb : Frame [.regs] [.blk 6] s (s.bump (R.dioChnRetries (s.lead n))) := frame_bumpChn (j := 0x610C) (lead_lt s n) (by decide)
  refine ⟨_, hex, islandOnly_blocks (hb.sub.trans (frame_showIsland _).sub) hw, island_showIsland.trans (hb.part .island (by decide)), ?_⟩
  obtain ⟨-, h⟩ := rd_showIsland_chn (hb.canon hw) (lead_lt s n)
  rw [h, toNat_rd_bump hw]

/-- A readback fault set is shown. -/
theorem readbackFaultSet_shows (hw : s.regsWf = true) (hon : s.island.on = true) (ho : s.isOut n = true)
    (hl : (s.dch (s.lead n)).latched = false) (hi : (s.dch n).ilim = false) :
    ∃ t, exec (.readbackFaultSet n) s = .next t ∧ islandOnly [] s t ∧ (∀ m : Fin 32, m ≠ n → t.dch m = s.dch m) ∧
      t.dch n = { s.dch n with rbFault := true } ∧ (s.up = true → t.fbit F.dioStatus_rbFaultAny = true) := by
  have hcond : (s.island.on && s.isOut n.val && !(s.dch (s.lead n.val)).latched && !(s.dch n.val).ilim) = true := by
    rw [hon, ho, hl, hi]
    rfl
  have hn : (s.setDch n (fun c => { c with rbFault := true })).dch n = { s.dch n with rbFault := true } := dch_setDch_self n.isLt
  refine ⟨_, when_pos hcond, islandOnly_blocks frame_setDch_show hw, fun m hm => ?_, ?_, fun hup => ?_⟩
  · rw [dch_showIsland, only_setDch hm]
  · rw [dch_showIsland, hn]
  · rw [showIsland_rbFaultAny (s := s.setDch n _) hw hup]
    exact List.any_eq_true.mpr ⟨n, List.mem_range.mpr n.isLt, by rw [hn]⟩

/-- Settles O40: each command's own lemma. -/
theorem digitalChannels : Obligations.DigitalChannels := by
  unfold Obligations.DigitalChannels
  intro n s hw k only
  refine ⟨fun samples hon ho => filterStateChange_shows hw samples hon ho, fun samples h => ?_, fun dis lap hon =>
    inputThresholdCheck_shows hw dis lap hon, fun hd => outputLatchOff_shows hw hd, fun hd => when_neg hd, fun hl htk hon hoff =>
    ⟨outputRetry_ends hw hl htk hon hoff, fun hv => outputRetry_stays hw hl htk hon hoff hv⟩, fun hon ho hl hi =>
    readbackFaultSet_shows hw hon ho hl hi, fun hon hf => ?_⟩
  · refine when_neg ?_
    rcases h with h | h
    · rw [h, Bool.false_and]
    · rw [h, Bool.not_true, Bool.and_false]
  · have hcond : (s.island.on && (s.dch n.val).rbFault) = true := by rw [hon, hf]; rfl
    refine ⟨_, when_pos hcond, islandOnly_blocks frame_setDch_show hw, fun m hm => ?_, ?_⟩
    · rw [dch_showIsland, only_setDch hm]
    · rw [dch_showIsland, dch_setDch_self n.isLt]

end Sys2Proof.Machine
end

section
/-! The field supply (R245 to R247). -/

namespace Sys2Proof.Machine

variable {s t u : State} {mv : BitVec 16}

/-- The state with another island. -/
def State.withIsland (s : State) (i : Island) : State := { s with island := i }

theorem frame_withIsland {i : Island} : Frame [.island] [] s (s.withIsland i) := .island

/-- Another island shown, after a count of the supply. -/
theorem supplyCounted (hw : s.regsWf = true) {i : Island} {k : Nat} (hk : k = 0 ∨ k = 16) :
    islandOnly [] s ((s.withIsland i).bumpF ⟨R.dioSupplyCnt, k, 16⟩).showIsland ∧
    ((s.withIsland i).bumpF ⟨R.dioSupplyCnt, k, 16⟩).showIsland.island = i ∧
    ((s.withIsland i).bumpF ⟨R.dioSupplyCnt, k, 16⟩).showIsland.fget ⟨R.dioSupplyCnt, k, 16⟩ =
      satAdd 16 (s.fget ⟨R.dioSupplyCnt, k, 16⟩) 1 := by
  have hk32 : k + 16 ≤ 32 := by omega
  have hf : Frame [.regs] [.blk 6] (s.withIsland i) ((s.withIsland i).bumpF ⟨R.dioSupplyCnt, k, 16⟩) :=
    .bumpF (cover_span 0x6000 0x7000 (by dsimp only; decide) rfl (Nat.ble_eq.mpr hk32))
  have hwi : (s.withIsland i).regsWf = true := hw
  refine ⟨islandOnly_blocks ((frame_withIsland.sub.trans hf.sub).trans (frame_showIsland _).sub) hw,
    island_showIsland.trans (hf.part .island (by decide)), ?_⟩
  have hlt : satAdd 16 (s.fget ⟨R.dioSupplyCnt, k, 16⟩) 1 < 2 ^ 16 := by
    unfold satAdd
    omega
  have ha : apartAll shownRegs ⟨R.dioSupplyCnt, k, 16⟩ = true := by rcases hk with rfl | rfl <;> rfl
  rw [frame_showIsland_own.fget (hf.canon hwi) ha (Nat.ble_eq.mpr hk32), State.bumpF, fget_fset hwi hk32]
  exact Nat.mod_eq_of_lt hlt

/-- Another island shown. -/
theorem islandOnly_withIsland (hw : s.regsWf = true) {i : Island} : islandOnly [] s (s.withIsland i).showIsland :=
  islandOnly_blocks (frame_withIsland.sub.trans (frame_showIsland _).sub) hw

/-- Nothing is driven, and no input valid, where the island is off. -/
theorem undriven (h : t.island.on = false ∨ t.island.off = true) (n : Nat) :
    t.driveD n = none ∧ t.driveL n = 0 ∧ t.inValid n = false := by
  have h' : (!t.island.on || t.island.off) = true := by
    rcases h with h | h <;> rw [h]
    · rfl
    · exact Bool.or_true _
  have hd : (!t.token || !t.island.on || t.island.off || (t.dch (t.lead n)).latched || !t.isOut n) = true := by
    rw [Bool.or_assoc (!t.token), h', Bool.or_true]
    rfl
  refine ⟨if_pos hd, if_pos h', ?_⟩
  have hv : (t.island.on && !t.island.off) = false := by
    rw [← Bool.not_eq_true', Bool.not_and, Bool.not_not]
    exact h'
  rw [State.inValid, Bool.and_assoc (!t.isOut n), hv, Bool.and_false]
  rfl

/-- Outputs off, all holds lifted. -/
def Island.offState (i : Island) : Island :=
  { i with
    off := true, recovering := false, cmdSeen := false, holding := false, expired := false
    ch := i.ch.map (fun (c : DChan) => { c with hold := none })
    lp := i.lp.map (fun (c : LChan) => { c with hold := none }) }

theorem outputsOff_shows (hw : s.regsWf = true) (hon : s.island.on = true) (hoff : s.island.off = false) (hv : mv.toNat < 15000) :
    ∃ u, exec (.outputsOff mv) s = .next (u.event 0x0023 6 0 [BitVec.ofNat 64 mv.toNat]) ∧
      islandOnly [] s u ∧ u.island.off = true ∧ (∀ n, u.driveD n = none ∧ u.driveL n = 0 ∧ u.inValid n = false) ∧
      u.fget ⟨R.dioSupplyCnt, 16, 16⟩ = satAdd 16 (s.fget ⟨R.dioSupplyCnt, 16, 16⟩) 1 := by
  have hcond : (s.island.on && !s.island.off && decide (mv.toNat < 15000)) = true := by rw [hon, hoff, decide_eq_true hv]; rfl
  obtain ⟨h1, h2, h3⟩ := supplyCounted (i := s.island.offState) hw (.inr rfl)
  have ho : ((s.withIsland s.island.offState).bumpF ⟨R.dioSupplyCnt, 16, 16⟩).showIsland.island.off = true := by rw [h2]; rfl
  exact ⟨_, when_pos hcond, h1, ho, undriven (.inr ho), h3⟩

/-- Outputs on again. -/
def Island.onState (i : Island) : Island := { i with off := false, recovering := false, fresh := false, cmdSeen := false }

theorem supplyRecovery_shows (hw : s.regsWf = true) (hon : s.island.on = true) (hoff : s.island.off = true) (hv : 18000 < mv.toNat) :
    ∃ u, exec (.supplyRecovery mv) s =
        .next (u.event 0x0024 6 0 [BitVec.ofNat 64 mv.toNat, BitVec.ofNat 64 (bit s.island.fresh)]) ∧
      islandOnly [] s u ∧ u.island.off = false ∧ u.island.fresh = false ∧
      ((s.island.cmdSeen = true ∨ s.island.silent = false) → u.island.ch = s.island.ch ∧ u.island.lp = s.island.lp) ∧
      (s.island.cmdSeen = false → s.island.silent = true → (∀ n : Fin 8, (u.lch n).hold = some (s.safeL n)) ∧ ∀ n : Fin 32, (u.dch n).hold =
        if s.isOut n then some (some (s.safeD n)) else (s.dch n).hold) := by
  have hcond : (s.island.on && s.island.off && decide (mv.toNat > 18000)) = true := by rw [hon, hoff, decide_eq_true hv]; rfl
  have hex : exec (.supplyRecovery mv) s = .next (((if s.island.cmdSeen || !s.island.silent then s.withIsland s.island.onState
      else (s.withIsland s.island.onState).holdSafe true).showIsland).event 0x0024 6 0
        [BitVec.ofNat 64 mv.toNat, BitVec.ofNat 64 (bit s.island.fresh)]) := when_pos hcond
  by_cases hc : (s.island.cmdSeen || !s.island.silent) = true
  · rw [if_pos hc] at hex
    refine ⟨_, hex, islandOnly_withIsland hw, ?_, ?_, fun _ => ?_, fun h1 h2 => ?_⟩
    · rw [island_showIsland]
      rfl
    · rw [island_showIsland]
      rfl
    · rw [island_showIsland]
      exact ⟨rfl, rfl⟩
    · rw [h1, h2] at hc
      cases hc
  · rw [if_neg hc] at hex
    have ho := (onlyChannels_holdSafe (s := s.withIsland s.island.onState)).eq
    have hout : (s.withIsland s.island.onState).isOut = s.isOut := isOut_of_cfg rfl
    have hsd : (s.withIsland s.island.onState).safeD = s.safeD := safeD_of_cfg rfl
    have hsl : (s.withIsland s.island.onState).safeL = s.safeL := safeL_of_cfg rfl
    have hd : (s.withIsland s.island.onState).dch = s.dch := rfl
    have hf : Frame [.regs, .island] [.blk 6, .blk 7] s ((s.withIsland s.island.onState).holdSafe true).showIsland :=
      (frame_withIsland.sub.trans frame_holdSafe.sub).trans (frame_showIsland _).sub
    refine ⟨_, hex, islandOnly_blocks hf hw, ?_, ?_, fun h => ?_, fun _ _ => ⟨fun n => ?_, fun n => ?_⟩⟩
    · rw [island_showIsland, ho]
      rfl
    · rw [island_showIsland, ho]
      rfl
    · exfalso
      rcases h with h | h <;> rw [h] at hc
      · exact hc (Bool.true_or _)
      · exact hc (Bool.or_true _)
    · rw [lch_of_island island_showIsland, lch_holdSafe n.isLt, hsl]
    · rw [dch_of_island island_showIsland, dch_holdSafe n.isLt, hout, hsd, hd]
      cases s.isOut n <;> rfl

/-- What the island's own memory keeps of a loop. -/
def LChan.kept (c : LChan) : LChan := { factoryLo := c.factoryLo, factoryHi := c.factoryHi, table := c.table, rbAdj := c.rbAdj }

/-- An island without power. -/
def Island.lost (i : Island) : Island := { lp := i.lp.map LChan.kept }

theorem islandPowerDown_shows (hw : s.regsWf = true) (hon : s.island.on = true) (hv : mv.toNat < 11000) :
    ∃ t, exec (.islandPowerDown mv) s = .next t ∧ islandOnly [] s t ∧ t.island.on = false ∧
      (∀ n, t.driveD n = none ∧ t.driveL n = 0 ∧ t.inValid n = false) ∧
      (∀ n : Fin 8, t.lch n = (s.lch n).kept) := by
  have hcond : (s.island.on && decide (mv.toNat < 11000)) = true := by rw [hon, decide_eq_true hv]; rfl
  have hex : exec (.islandPowerDown mv) s = .next (s.withIsland s.island.lost).showIsland := when_pos hcond
  have ho : (s.withIsland s.island.lost).showIsland.island.on = false := by rw [island_showIsland]; rfl
  refine ⟨_, hex, islandOnly_withIsland hw, ho, undriven (.inl ho), fun n => ?_⟩
  rw [lch_of_island island_showIsland]
  exact vget_map n.isLt

/-! The start. -/

/-- An island that starts, its configuration to be loaded. -/
def Island.started (i : Island) : Island := { i with on := true, fresh := true, off := true }

/-- The configuration in effect loaded. -/
def State.islandLoadAll (s : State) : State := (((s.withIsland s.island.started).islandLoad 3).islandLoad 6).islandLoad 7

/-- The factory trims shown. -/
def State.showTrims (s t : State) : State :=
  (List.range 8).foldl (fun t n =>
    (t.wr (R.aoChnTrimLo n) ((s.lch n).factoryLo.setWidth 32)).wr (R.aoChnTrimHi n) ((s.lch n).factoryHi.setWidth 32)) t

theorem frame_islandLoadAll : Frame [.island] [] s s.islandLoadAll :=
  ((frame_withIsland.trans (frame_islandLoad ..)).trans (frame_islandLoad ..)).trans (frame_islandLoad ..)

theorem cfg_islandLoad {b : Nat} (ha : swf regReset s.act = true) (hc : swf regReset s.island.cfg = true) :
    swf regReset (s.islandLoad b).island.cfg = true ∧ ∀ o, sget regReset (s.islandLoad b).island.cfg o =
      if islandReg o && o / 0x1000 == b then s.actv o else sget regReset s.island.cfg o := by
  have h : (s.islandLoad b).island.cfg = scopy regReset (fun o => islandReg o && o / 0x1000 == b) s.act s.island.cfg := by
    rw [State.islandLoad]
  rw [h]
  exact ⟨swf_scopy _ _ _ _ hc, fun _ => sget_scopy ha hc⟩

theorem islandLoadAll_shows (ha : swf regReset s.act = true) (hc : swf regReset s.island.cfg = true) {o : Nat} (hr : islandReg o = true)
    (ho : o / 0x1000 = 3 ∨ o / 0x1000 = 6 ∨ o / 0x1000 = 7) : sget regReset s.islandLoadAll.island.cfg o = s.actv o := by
  have h0 : swf regReset (s.withIsland s.island.started).island.cfg = true := hc
  obtain ⟨w1, h1⟩ := cfg_islandLoad (s := s.withIsland s.island.started) (b := 3) ha h0
  obtain ⟨w2, h2⟩ := cfg_islandLoad (s := (s.withIsland s.island.started).islandLoad 3) (b := 6) ha w1
  obtain ⟨-, h3⟩ := cfg_islandLoad (s := ((s.withIsland s.island.started).islandLoad 3).islandLoad 6) (b := 7) ha w2
  have hact (b : Nat) (v : State) : (v.islandLoad b).actv o = v.actv o := rfl
  have hs : (s.withIsland s.island.started).actv o = s.actv o := rfl
  rw [State.islandLoadAll, h3, h2, h1, hact, hact, hs, hr]
  rcases ho with ho | ho | ho <;> rw [ho] <;> rfl

theorem started_islandLoadAll : s.islandLoadAll.island.on = true ∧ s.islandLoadAll.island.off = true ∧ s.islandLoadAll.island.fresh = true :=
  ⟨rfl, rfl, rfl⟩

/-- A trim register of a loop output. -/
theorem cover_trim {n k : Nat} (hn : n < 8) (hk : 0x7100 ≤ k ∧ k < 0x7120) : coverAll [.blk 7] ⟨k + n * 0x20, 0, 32⟩ = true :=
  cover_span 0x7000 0x8000 (by dsimp only; omega)

theorem frame_showTrims : Frame [.regs] [.blk 7] t (s.showTrims t) := by
  refine Frame.foldl (fun u n hn => ?_) t
  exact .trans (.wr (cover_trim (k := 0x7108) (List.mem_range.mp hn) (by decide)))
    (.wr (cover_trim (k := 0x710C) (List.mem_range.mp hn) (by decide)))

theorem showTrims_shows (hw : t.regsWf = true) {n : Nat} (hn : n < 8) :
    (s.showTrims t).rd (R.aoChnTrimLo n) = (s.lch n).factoryLo.setWidth 32 ∧
    (s.showTrims t).rd (R.aoChnTrimHi n) = (s.lch n).factoryHi.setWidth 32 := by
  refine foldl_own (P := fun u => u.regsWf = true) (Q := fun u => u.rd (R.aoChnTrimLo n) = (s.lch n).factoryLo.setWidth 32 ∧
    u.rd (R.aoChnTrimHi n) = (s.lch n).factoryHi.setWidth 32) List.nodup_range (List.mem_range.mpr hn) ?_ ?_ ?_ hw
  · intro u m _ _ hu
    exact regsWf_wr (regsWf_wr hu)
  · rintro u m - hm ⟨h1, h2⟩
    constructor
    · rw [rd_wr_ne, rd_wr_ne, h1] <;> simp only [R.aoChnTrimLo, R.aoChnTrimHi] <;> omega
    · rw [rd_wr_ne, rd_wr_ne, h2] <;> simp only [R.aoChnTrimLo, R.aoChnTrimHi] <;> omega
  · intro u hu
    refine ⟨?_, rd_wr_self (regsWf_wr hu)⟩
    rw [rd_wr_ne (by simp only [R.aoChnTrimLo, R.aoChnTrimHi]; omega), rd_wr_self hu]

/-- The trims and the faults of a loop output are not among what the status shows. -/
theorem rd_showIsland_loop {k : Nat} (hw : s.regsWf = true) (hk : k < 8) : s.showIsland.rd (R.aoChnTrimLo k) = s.rd (R.aoChnTrimLo k) ∧
    s.showIsland.rd (R.aoChnTrimHi k) = s.rd (R.aoChnTrimHi k) ∧ s.showIsland.rd (R.aoChnFaults k) = s.rd (R.aoChnFaults k) := by
  have hr (j : Nat) (hj : j = 0x7108 ∨ j = 0x710C ∨ j = 0x711C) : ∀ r ∈ shownRegs, r.has (j + k * 0x20) = false := by
    intro r hr
    rw [← Bool.not_eq_true, Rect.has_iff]
    simp only [shownRegs, List.cons_append, List.nil_append, List.mem_cons, List.not_mem_nil, or_false] at hr
    rcases hr with rfl | rfl | rfl | rfl | rfl | rfl | rfl | rfl <;> simp only [R.dioStatus, R.aoStatus] <;> omega
  exact ⟨rd_of_frame frame_showIsland_own hw (hr 0x7108 (.inl rfl)), rd_of_frame frame_showIsland_own hw (hr 0x710C (.inr (.inl rfl))),
    rd_of_frame frame_showIsland_own hw (hr 0x711C (.inr (.inr rfl)))⟩

theorem islandStart_shows (hw : s.regsWf = true) (hon : s.island.on = false) (hv : 13000 < mv.toNat)
    (hc : swf regReset s.island.cfg = true) : ∃ t, exec (.islandStart mv) s = .next t ∧
      islandOnly [] s t ∧ t.island.on = true ∧ t.island.off = true ∧ t.island.fresh = true ∧ (∀ n, t.driveD n = none) ∧
      (∀ off, islandReg off = true → (off / 0x1000 = 3 ∨ off / 0x1000 = 6 ∨ off / 0x1000 = 7) →
        sget regReset t.island.cfg off = s.actv off) ∧
      (∀ n : Fin 8, t.rd (R.aoChnTrimLo n) = (s.lch n).factoryLo.setWidth 32 ∧
        t.rd (R.aoChnTrimHi n) = (s.lch n).factoryHi.setWidth 32) := by
  have hcond : (!s.island.on && decide (mv.toNat > 13000)) = true := by rw [hon, decide_eq_true hv]; rfl
  have hex : exec (.islandStart mv) s = .next (s.showTrims s.islandLoadAll).showIsland := when_pos hcond
  have hf := frame_islandLoadAll (s := s)
  have hfs : ∀ t, Frame [.regs] [.blk 7] t (s.showTrims t) := fun t => frame_showTrims
  have hi : (s.showTrims s.islandLoadAll).showIsland.island = s.islandLoadAll.island :=
    island_showIsland.trans ((hfs _).part .island (by decide))
  obtain ⟨h1, h2, h3⟩ := started_islandLoadAll (s := s)
  have hwt := (hfs _).canon (hf.canon hw)
  refine ⟨_, hex, islandOnly_blocks ((hf.sub.trans (hfs _).sub).trans (frame_showIsland _).sub) hw, by rw [hi, h1], by rw [hi, h2],
    by rw [hi, h3], fun n => (undriven (.inr (by rw [hi, h2])) n).1, fun o hr ho => ?_, fun n => ?_⟩
  · rw [hi]
    exact islandLoadAll_shows (regsWf_iff.mp hw).2 hc hr ho
  · obtain ⟨e1, e2, -⟩ := rd_showIsland_loop hwt n.isLt
    rw [e1, e2]
    exact showTrims_shows (hf.canon hw) n.isLt

/-- Settles O41: each command's own lemma. -/
theorem fieldSupply : Obligations.FieldSupply := by
  unfold Obligations.FieldSupply
  intro mv s hw v p
  refine ⟨fun hon hwn hv => ?_, fun hv => when_neg ?_, fun hon hwn hv => ?_, fun hon hoff hv => outputsOff_shows hw hon hoff hv,
    fun hon hoff hv => supplyRecovery_shows hw hon hoff hv, fun hon hv => islandPowerDown_shows hw hon hv,
    fun hon hv hc => islandStart_shows hw hon hv hc, fun hv => when_neg ?_⟩
  · have hcond : (s.island.on && !s.island.warn && decide (mv.toNat < 19200)) = true := by rw [hon, hwn, decide_eq_true hv]; rfl
    obtain ⟨h1, h2, h3⟩ := supplyCounted (i := { s.island with warn := true }) hw (.inl rfl)
    exact ⟨_, when_pos hcond, h1, h2, h3⟩
  · rw [decide_eq_false (Nat.not_lt.mpr hv), Bool.and_false]
  · have hcond : (s.island.on && s.island.warn && decide (mv.toNat > 19600)) = true := by rw [hon, hwn, decide_eq_true hv]; rfl
    have hex : exec (.lplusWarningClear mv) s = .next (s.withIsland { s.island with warn := false }).showIsland := when_pos hcond
    exact ⟨_, hex, islandOnly_withIsland hw, island_showIsland⟩
  · rw [decide_eq_false (Nat.not_lt.mpr hv), Bool.and_false]

end Sys2Proof.Machine
end

section
/-! Loop outputs (R256, R257, R260). -/

namespace Sys2Proof.Machine

variable {s t u : State} {n : Fin 8}

theorem lch_showIsland {k : Nat} : s.showIsland.lch k = s.lch k := congrFun (lch_of_island island_showIsland) k

theorem only_setLch {g : LChan → LChan} {m : Fin 8} (h : m ≠ n) : (s.setLch n g).lch m = s.lch m :=
  lch_setLch_ne fun e => h (Fin.ext e)

theorem frame_setLch {k : Nat} {g : LChan → LChan} : Frame [.island] [] s (s.setLch k g) := .island

theorem frame_setLch_show {k : Nat} {g : LChan → LChan} : Frame [.regs, .island] [.blk 6, .blk 7] s (s.setLch k g).showIsland :=
  frame_setLch.sub.trans (frame_showIsland _).sub

/-- A change of a loop output that concerns neither its hold nor a readback fault leaves its level. -/
theorem driveL_setLch {k : Nat} {g : LChan → LChan} (hk : k < 8) (hh : (g (s.lch k)).hold = (s.lch k).hold)
    (hr : (g (s.lch k)).rbFault = (s.lch k).rbFault) : (s.setLch k g).driveL k = s.driveL k := by
  have hi : (s.setLch k g).iget = s.iget := iget_of_cfg rfl
  have hs : (s.setLch k g).safeL = s.safeL := safeL_of_cfg rfl
  have ha : (s.setLch k g).aoCurrent = s.aoCurrent := aoCurrent_of_cfg rfl
  have hw : (s.setLch k g).wantL k = s.wantL k := by
    simp only [State.wantL, lch_setLch_self hk, hh, hs, ha]
    rfl
  simp only [State.driveL, hw, hi, lch_setLch_self hk, hr]
  rfl

/-! The faults of a loop output. -/

theorem frame_bumpFaults {k j : Nat} (hk : k < 8) (hj : j + 16 ≤ 32) : Frame [.regs] [.blk 7] s (s.bumpF ⟨R.aoChnFaults k, j, 16⟩) :=
  .bumpF (cover_span 0x7000 0x8000 (by simp only [R.aoChnFaults]; omega) rfl (Nat.ble_eq.mpr hj))

/-- A channel changed, and a fault of it counted. -/
theorem faultCounted (hw : s.regsWf = true) {g : LChan → LChan} {j : Nat} (hj : j + 16 ≤ 32) :
    islandOnly [] s ((s.setLch n g).bumpF ⟨R.aoChnFaults n, j, 16⟩).showIsland ∧
    (∀ m : Fin 8, m ≠ n → ((s.setLch n g).bumpF ⟨R.aoChnFaults n, j, 16⟩).showIsland.lch m = s.lch m) ∧
    ((s.setLch n g).bumpF ⟨R.aoChnFaults n, j, 16⟩).showIsland.lch n = g (s.lch n) ∧
    ((s.setLch n g).bumpF ⟨R.aoChnFaults n, j, 16⟩).showIsland.fget ⟨R.aoChnFaults n, j, 16⟩ =
      satAdd 16 (s.fget ⟨R.aoChnFaults n, j, 16⟩) 1 := by
  have hf : Frame [.regs] [.blk 7] (s.setLch n g) ((s.setLch n g).bumpF ⟨R.aoChnFaults n, j, 16⟩) := frame_bumpFaults n.isLt hj
  have hl := lch_of_island (hf.part .island (by decide))
  have hwl : (s.setLch n g).regsWf = true := hw
  refine ⟨islandOnly_blocks ((frame_setLch.sub.trans hf.sub).trans (frame_showIsland _).sub) hw, fun m hm => ?_, ?_, ?_⟩
  · rw [lch_showIsland, hl, only_setLch hm]
  · rw [lch_showIsland, hl, lch_setLch_self n.isLt]
  · obtain ⟨-, -, hr⟩ := rd_showIsland_loop (hf.canon hwl) n.isLt
    have hlt : satAdd 16 (s.fget ⟨R.aoChnFaults n, j, 16⟩) 1 < 2 ^ 16 := by
      unfold satAdd
      omega
    refine (fget_congr hr).trans ((fget_fset hwl hj).trans ?_)
    exact Nat.mod_eq_of_lt hlt

/-- A channel in readback fault. -/
def State.faulted (s : State) (k : Nat) : State :=
  ((s.setLch k (fun c => { c with rbFault := true })).bumpF ⟨R.aoChnFaults k, 16, 16⟩).showIsland

theorem loopFault_eq {k : Nat} : s.loopFault k = (s.faulted k).event 0x002A 7 k [BitVec.ofNat 64 k] := rfl

/-- A channel in readback fault takes no current. -/
theorem driveL_fault {k : Nat} (h : (t.lch k).rbFault = true) : t.driveL k = 0 := by
  rw [State.driveL]
  split
  · rfl
  · rw [if_pos (.inr h)]

/-! Calibration. -/

/-- What calibration may change of a channel. -/
def State.calOf (s : State) (k : Nat) : LChan × W32 × W32 := (s.lch k, s.rd (R.aoChnTrimLo k), s.rd (R.aoChnTrimHi k))

/-- The readback as its error corrects it. -/
def LChan.adjusted (c : LChan) (err : Int) : LChan := { c with rbAdj := if err.natAbs > 8000 then c.rbAdj - err else c.rbAdj }

/-- The trim of the upper point that the pairs of a lap ask for. -/
def hiFit (lo hi : W32) (span : Nat) (l h : Int) : Int :=
  if span < 4000000 then ((hi.setWidth 16 : BitVec 16)).toInt + (l - ((lo.setWidth 16 : BitVec 16)).toInt) else h

theorem adjusted_eq {k : Nat} {err : Int} (hk : k < 8) :
    (if err.natAbs > 8000 then s.setLch k (fun c => { c with rbAdj := c.rbAdj - err }) else s) = s.setLch k (fun c => c.adjusted err) := by
  by_cases h : err.natAbs > 8000
  · simp only [if_pos h, LChan.adjusted]
  · have hv : vmod s.island.lp k (fun c => c.adjusted err) = s.island.lp := by
      refine ext_vget fun i hi => ?_
      by_cases he : i = k
      · subst he
        rw [vget_vmod_self hi]
        simp only [LChan.adjusted, if_neg h]
      · exact vget_vmod_ne he
    rw [if_neg h, State.setLch, hv]

/-- A channel that is off, or not calibrated. -/
theorem calibrate_off {k : Nat} {err : Int} {fit : Option (Nat × Int × Int)} (h : s.iget (F.aoChnCfg_en k) = 0 ∨ s.iget (F.aoChnCfg_calEn k) = 0) :
    s.calibrate k err fit = s := by
  rw [State.calibrate, if_pos h]

section
variable {k : Nat} {err : Int} {fit : Option (Nat × Int × Int)} (hk : k < 8)
  (hon : ¬ (s.iget (F.aoChnCfg_en k) = 0 ∨ s.iget (F.aoChnCfg_calEn k) = 0)) (he : err.natAbs ≤ 40000)
include hk hon he

/-- A channel of which no pair was taken, or whose trims stand. -/
theorem calibrate_still (h : fit = none ∨ (s.lch k).calLimit = true ∨ (s.lch k).fallback = true ∨ (s.lch k).rbFault = true) :
    s.calibrate k err fit = s.setLch k (fun c => c.adjusted err) := by
  rw [State.calibrate, if_neg hon, if_neg (Nat.not_lt.mpr he)]
  simp only [adjusted_eq hk]
  cases fit with
  | none => rfl
  | some x =>
    have h' : (((s.setLch k (fun c => c.adjusted err)).lch k).calLimit = true ∨ ((s.setLch k (fun c => c.adjusted err)).lch k).fallback = true ∨
        ((s.setLch k (fun c => c.adjusted err)).lch k).rbFault = true) := by
      rw [lch_setLch_self hk]
      exact h.resolve_left (by simp)
    exact if_pos h'

/-- A channel whose trims move, or are at their limit. -/
theorem calibrate_fit {span : Nat} {l h : Int} (hf : fit = some (span, l, h))
    (hs : ¬ ((s.lch k).calLimit = true ∨ (s.lch k).fallback = true ∨ (s.lch k).rbFault = true)) :
    (∀ x y, trimStep (s.lch k).factoryLo ((s.rd (R.aoChnTrimLo k)).setWidth 16) l = some x →
      trimStep (s.lch k).factoryHi ((s.rd (R.aoChnTrimHi k)).setWidth 16)
        (hiFit (s.rd (R.aoChnTrimLo k)) (s.rd (R.aoChnTrimHi k)) span l h) = some y →
      s.calibrate k err fit = ((s.setLch k (fun c => c.adjusted err)).wr (R.aoChnTrimLo k) (x.setWidth 32)).wr (R.aoChnTrimHi k)
        (y.setWidth 32)) ∧
    ((trimStep (s.lch k).factoryLo ((s.rd (R.aoChnTrimLo k)).setWidth 16) l = none ∨
      trimStep (s.lch k).factoryHi ((s.rd (R.aoChnTrimHi k)).setWidth 16)
        (hiFit (s.rd (R.aoChnTrimLo k)) (s.rd (R.aoChnTrimHi k)) span l h) = none) →
      s.calibrate k err fit = (s.setLch k (fun c => c.adjusted err)).setLch k (fun c => { c with calLimit := true })) := by
  subst hf
  have hl : (s.setLch k (fun c => c.adjusted err)).lch k = (s.lch k).adjusted err := lch_setLch_self hk
  have hs' : ¬ (((s.lch k).adjusted err).calLimit = true ∨ ((s.lch k).adjusted err).fallback = true ∨ ((s.lch k).adjusted err).rbFault = true) := hs
  have hlo : ((s.lch k).adjusted err).factoryLo = (s.lch k).factoryLo := rfl
  have hhi : ((s.lch k).adjusted err).factoryHi = (s.lch k).factoryHi := rfl
  have hr (o : Nat) : (s.setLch k (fun c => c.adjusted err)).rd o = s.rd o := rfl
  rw [State.calibrate, if_neg hon, if_neg (Nat.not_lt.mpr he)]
  simp only [adjusted_eq hk, hl, if_neg hs', State.trimFit, hlo, hhi, hr]
  refine ⟨fun x y hx hy => ?_, fun hn => ?_⟩
  · rw [hiFit] at hy
    rw [hx, hy]
  · rw [hiFit] at hn
    generalize trimStep (s.lch k).factoryLo _ l = a at *
    generalize trimStep (s.lch k).factoryHi _ _ = b at *
    rcases a with _ | x
    · rfl
    · rcases b with _ | y
      · rfl
      · rcases hn with hn | hn <;> cases hn

end

/-! One channel's calibration leaves the others. -/

theorem lch_wr {o : Nat} {x : W32} : (s.wr o x).lch = s.lch := lch_of_island (by rw [State.wr])
theorem cfg_wr {o : Nat} {x : W32} : (s.wr o x).island.cfg = s.island.cfg := by rw [State.wr]

theorem calOf_setLch_ne {k m : Nat} {g : LChan → LChan} (hne : m ≠ k) : (s.setLch k g).calOf m = s.calOf m := by
  rw [State.calOf, lch_setLch_ne hne]
  rfl

/-- The trims of a channel written. -/
theorem trims_written {k : Nat} {x y : W32} (hk : k < 8) :
    Frame [.regs] [.blk 7] s ((s.wr (R.aoChnTrimLo k) x).wr (R.aoChnTrimHi k) y) ∧
    (∀ m, m ≠ k → ((s.wr (R.aoChnTrimLo k) x).wr (R.aoChnTrimHi k) y).calOf m = s.calOf m) ∧
    (s.regsWf = true → ((s.wr (R.aoChnTrimLo k) x).wr (R.aoChnTrimHi k) y).calOf k = (s.lch k, x, y)) := by
  have h5 : R.aoChnTrimLo k ≠ R.aoChnTrimHi k := by simp only [R.aoChnTrimHi, R.aoChnTrimLo]; omega
  refine ⟨.trans (.wr (cover_trim (k := 0x7108) hk (by decide))) (.wr (cover_trim (k := 0x710C) hk (by decide))), fun m hne => ?_, fun hw => ?_⟩
  · have h1 : R.aoChnTrimLo m ≠ R.aoChnTrimHi k := by simp only [R.aoChnTrimLo, R.aoChnTrimHi]; omega
    have h2 : R.aoChnTrimLo m ≠ R.aoChnTrimLo k := by simp only [R.aoChnTrimLo]; omega
    have h3 : R.aoChnTrimHi m ≠ R.aoChnTrimHi k := by simp only [R.aoChnTrimHi]; omega
    have h4 : R.aoChnTrimHi m ≠ R.aoChnTrimLo k := by simp only [R.aoChnTrimHi, R.aoChnTrimLo]; omega
    rw [State.calOf, lch_wr, lch_wr, rd_wr_ne h1, rd_wr_ne h2, rd_wr_ne h3, rd_wr_ne h4, State.calOf]
  · rw [State.calOf, lch_wr, lch_wr, rd_wr_ne h5, rd_wr_self hw, rd_wr_self (regsWf_wr hw)]

/-- What calibration of a channel, with no fault of its readback, may change. -/
structure CalStep (k : Nat) (s t : State) : Prop where
  frame : Frame [.regs, .island] [.blk 7] s t
  cfg : t.island.cfg = s.island.cfg
  other : ∀ m, m ≠ k → t.calOf m = s.calOf m

theorem CalStep.refl {k : Nat} : CalStep k s s := ⟨.refl s, rfl, fun _ _ => rfl⟩

theorem CalStep.trans {k : Nat} (h1 : CalStep k s t) (h2 : CalStep k t u) : CalStep k s u :=
  ⟨h1.frame.trans h2.frame, h2.cfg.trans h1.cfg, fun m hm => (h2.other m hm).trans (h1.other m hm)⟩

theorem calStep_setLch {k : Nat} {g : LChan → LChan} : CalStep k s (s.setLch k g) :=
  ⟨frame_setLch.sub, by rw [State.setLch], fun _ hm => calOf_setLch_ne hm⟩

theorem calStep_trims {k : Nat} {x y : W32} (hk : k < 8) : CalStep k s ((s.wr (R.aoChnTrimLo k) x).wr (R.aoChnTrimHi k) y) := by
  obtain ⟨hf, ho, -⟩ := trims_written (s := s) (x := x) (y := y) hk
  exact ⟨hf.sub, by rw [cfg_wr, cfg_wr], ho⟩

theorem calStep_calibrate {k : Nat} {err : Int} {fit : Option (Nat × Int × Int)} (hk : k < 8) (he : err.natAbs ≤ 40000) :
    CalStep k s (s.calibrate k err fit) := by
  by_cases hon : s.iget (F.aoChnCfg_en k) = 0 ∨ s.iget (F.aoChnCfg_calEn k) = 0
  · rw [calibrate_off hon]
    exact .refl
  · by_cases hs : fit = none ∨ (s.lch k).calLimit = true ∨ (s.lch k).fallback = true ∨ (s.lch k).rbFault = true
    · rw [calibrate_still hk hon he hs]
      exact calStep_setLch
    · obtain ⟨hf, hs⟩ := not_or.mp hs
      obtain ⟨⟨span, l, h⟩, hx⟩ := Option.ne_none_iff_exists'.mp hf
      obtain ⟨h1, h2⟩ := calibrate_fit hk hon he hx hs
      cases ha : trimStep (s.lch k).factoryLo ((s.rd (R.aoChnTrimLo k)).setWidth 16) l with
      | none =>
        rw [h2 (.inl ha)]
        exact calStep_setLch.trans calStep_setLch
      | some x =>
        cases hb : trimStep (s.lch k).factoryHi ((s.rd (R.aoChnTrimHi k)).setWidth 16)
            (hiFit (s.rd (R.aoChnTrimLo k)) (s.rd (R.aoChnTrimHi k)) span l h) with
        | none =>
          rw [h2 (.inr hb)]
          exact calStep_setLch.trans calStep_setLch
        | some y =>
          rw [h1 x y ha hb]
          exact calStep_setLch.trans (calStep_trims hk)

/-! A lap. -/

/-- The channels calibrated one after another. -/
def State.calLap (s : State) (err : Vector Int 8) (fit : Vector (Option (Nat × Int × Int)) 8) : State :=
  (List.range 8).foldl (fun s n => s.calibrate n (vget err n) (vget fit n)) s

section
variable {err : Vector Int 8} {fit : Vector (Option (Nat × Int × Int)) 8}

theorem frame_calLap (he : ∀ m : Fin 8, (vget err m.val).natAbs ≤ 40000) : Frame [.regs, .island] [.blk 7] s (s.calLap err fit) :=
  Frame.foldl (fun u m hm => (calStep_calibrate (s := u) (List.mem_range.mp hm) (he ⟨m, List.mem_range.mp hm⟩)).frame) s

/-- What a lap makes of a channel is what its own calibration makes of it. -/
theorem calLap_own (hw : s.regsWf = true) (he : ∀ m : Fin 8, (vget err m.val).natAbs ≤ 40000) {Q : LChan × W32 × W32 → Prop}
    (hq : ∀ u : State, u.regsWf = true → u.iget = s.iget → u.calOf n = s.calOf n → Q ((u.calibrate n (vget err n) (vget fit n)).calOf n)) :
    Q ((s.calLap err fit).calOf n) := by
  refine foldl_own (P := fun u => u.regsWf = true ∧ u.island.cfg = s.island.cfg ∧ u.calOf n = s.calOf n) (Q := fun u => Q (u.calOf n))
    List.nodup_range (List.mem_range.mpr n.isLt) ?_ ?_ ?_ ⟨hw, rfl, rfl⟩
  · rintro u m hm hne ⟨h1, h2, h3⟩
    have h := calStep_calibrate (s := u) (fit := vget fit m) (List.mem_range.mp hm) (he ⟨m, List.mem_range.mp hm⟩)
    exact ⟨h.frame.canon h1, h.cfg.trans h2, (h.other _ (Ne.symm hne)).trans h3⟩
  · rintro u m hm hne h1
    have h := calStep_calibrate (s := u) (fit := vget fit m) (List.mem_range.mp hm) (he ⟨m, List.mem_range.mp hm⟩)
    rw [h.other _ (Ne.symm hne)]
    exact h1
  · rintro u ⟨h1, h2, h3⟩
    exact hq u h1 (iget_of_cfg h2) h3

end

/-- The end of a lap. -/
def State.lapDone (s : State) (tb3 lap : Nat) : State := ((s.wr R.aoCalLast (BitVec.ofNat 32 tb3)).wfDone 6 lap).showIsland

theorem exec_loopCalibration_laps {err : Vector Int 8} {fit : Vector (Option (Nat × Int × Int)) 8} {lap : Nat} (hon : s.island.on = true) :
    exec (.loopCalibration err fit lap) s = .next ((s.calLap err fit).lapDone s.time.tb3 lap) := when_pos hon

theorem lapDone_shows (hw : s.regsWf = true) {tb3 lap : Nat} : (s.lapDone tb3 lap).rd R.aoCalLast = BitVec.ofNat 32 tb3 ∧
    (s.lapDone tb3 lap).rd (R.wfClcLap 6) = BitVec.ofNat 32 lap ∧ (s.lapDone tb3 lap).calOf n = s.calOf n ∧
    (s.lapDone tb3 lap).rd (R.aoChnFaults n) = s.rd (R.aoChnFaults n) ∧ (s.lapDone tb3 lap).lch n = s.lch n := by
  unfold State.lapDone
  have hw1 : (s.wr R.aoCalLast (BitVec.ofNat 32 tb3)).regsWf = true := regsWf_wr hw
  have hl : (s.wr R.aoCalLast (BitVec.ofNat 32 tb3)).lch = s.lch := lch_wr
  have h1 : (s.wr R.aoCalLast (BitVec.ofNat 32 tb3)).rd R.aoCalLast = BitVec.ofNat 32 tb3 := rd_wr_self hw
  have ho (j : Nat) (hj : 0x7100 ≤ j) : (s.wr R.aoCalLast (BitVec.ofNat 32 tb3)).rd (j + n * 0x20) = s.rd (j + n * 0x20) :=
    rd_wr_ne (by simp only [R.aoCalLast]; omega)
  have h2 := ho 0x7108 (by decide)
  have h3 := ho 0x710C (by decide)
  have h4 := ho 0x711C (by decide)
  generalize s.wr R.aoCalLast (BitVec.ofNat 32 tb3) = v at *
  have hd (j : Nat) (hj : j < 0x7200) : (v.wfDone 6 lap).rd (j + n * 0x20) = v.rd (j + n * 0x20) := by
    refine rd_wfDone_ne ?_
    simp only [List.mem_cons, List.not_mem_nil, or_false, R.wfClcLast, R.wfClcLap, R.wfClcRuns, R.wfLate]
    omega
  have hw2 := (frame_wfDone (lap := lap) (by decide : 6 < 13)).canon hw1
  obtain ⟨e1, e2, e3⟩ := rd_showIsland_loop hw2 n.isLt
  obtain ⟨-, hlap, -⟩ := wfDone_shows (c := 6) (lap := lap) hw1
  have hlw : (v.wfDone 6 lap).showIsland.lch n = s.lch n := by
    rw [lch_showIsland, lch_of_island ((frame_wfDone (by decide : 6 < 13)).part .island (by decide)), hl]
  refine ⟨?_, ?_, ?_, ?_, hlw⟩
  · rw [frame_showIsland_own.rd hw2, rd_wfDone_ne (by decide), h1]
  · rw [frame_showIsland_own.rd hw2, hlap]
  · exact congrArg₂ Prod.mk hlw (congrArg₂ Prod.mk (e1.trans ((hd 0x7108 (by decide)).trans h2)) (e2.trans ((hd 0x710C (by decide)).trans h3)))
  · exact e3.trans ((hd 0x711C (by decide)).trans h4)

section
variable {err : Vector Int 8} {fit : Vector (Option (Nat × Int × Int)) 8} {lap : Nat}

/-- What a lap makes of one channel. -/
theorem calLap_shows (hw : s.regsWf = true) (he : ∀ m : Fin 8, (vget err m.val).natAbs ≤ 40000) :
    ((s.iget (F.aoChnCfg_en n.val) = 0 ∨ s.iget (F.aoChnCfg_calEn n.val) = 0) → (s.calLap err fit).calOf n = s.calOf n) ∧
    (¬ (s.iget (F.aoChnCfg_en n.val) = 0 ∨ s.iget (F.aoChnCfg_calEn n.val) = 0) → (vget fit n.val = none ∨ (s.lch n).calLimit = true ∨
      (s.lch n).fallback = true ∨ (s.lch n).rbFault = true) → (s.calLap err fit).calOf n =
      ((s.lch n).adjusted (vget err n), s.rd (R.aoChnTrimLo n), s.rd (R.aoChnTrimHi n))) ∧
    (∀ span l h, ¬ (s.iget (F.aoChnCfg_en n.val) = 0 ∨ s.iget (F.aoChnCfg_calEn n.val) = 0) → ¬ ((s.lch n).calLimit = true ∨
      (s.lch n).fallback = true ∨ (s.lch n).rbFault = true) → vget fit n.val = some (span, l, h) →
      (∀ x y, trimStep (s.lch n).factoryLo ((s.rd (R.aoChnTrimLo n)).setWidth 16) l = some x →
        trimStep (s.lch n).factoryHi ((s.rd (R.aoChnTrimHi n)).setWidth 16)
          (hiFit (s.rd (R.aoChnTrimLo n)) (s.rd (R.aoChnTrimHi n)) span l h) = some y →
        (s.calLap err fit).calOf n = ((s.lch n).adjusted (vget err n), x.setWidth 32, y.setWidth 32)) ∧
      ((trimStep (s.lch n).factoryLo ((s.rd (R.aoChnTrimLo n)).setWidth 16) l = none ∨
        trimStep (s.lch n).factoryHi ((s.rd (R.aoChnTrimHi n)).setWidth 16)
          (hiFit (s.rd (R.aoChnTrimLo n)) (s.rd (R.aoChnTrimHi n)) span l h) = none) →
        (s.calLap err fit).calOf n =
          ({ (s.lch n).adjusted (vget err n) with calLimit := true }, s.rd (R.aoChnTrimLo n), s.rd (R.aoChnTrimHi n)))) := by
  have hparts {u : State} (h : u.calOf n = s.calOf n) : u.lch n = s.lch n ∧ u.rd (R.aoChnTrimLo n) = s.rd (R.aoChnTrimLo n) ∧
      u.rd (R.aoChnTrimHi n) = s.rd (R.aoChnTrimHi n) := by
    simpa only [State.calOf, Prod.mk.injEq] using h
  have hset {u : State} {g : LChan → LChan} (h : u.calOf n = s.calOf n) : (u.setLch n g).calOf n =
      (g (s.lch n), s.rd (R.aoChnTrimLo n), s.rd (R.aoChnTrimHi n)) := by
    obtain ⟨h1, h2, h3⟩ := hparts h
    rw [State.calOf, lch_setLch_self n.isLt, h1, ← h2, ← h3]
    rfl
  refine ⟨fun hoff => ?_, fun hon hs => ?_, fun span l h hon hs hf => ⟨fun x y hx hy => ?_, fun hno => ?_⟩⟩
  · refine calLap_own (Q := fun c => c = s.calOf n) hw he fun u _ hi hc => ?_
    rw [calibrate_off (by rwa [hi]), hc]
  · refine calLap_own (Q := fun c => c = _) hw he fun u _ hi hc => ?_
    obtain ⟨h1, -, -⟩ := hparts hc
    rw [calibrate_still n.isLt (by rwa [hi]) (he n) (by rwa [h1]), hset hc]
  · refine calLap_own (Q := fun c => c = _) hw he fun u hu hi hc => ?_
    obtain ⟨h1, h2, h3⟩ := hparts hc
    obtain ⟨hfit, -⟩ := calibrate_fit n.isLt (by rwa [hi]) (he n) hf (by rwa [h1])
    obtain ⟨-, -, ht⟩ := trims_written (s := u.setLch n (fun c => c.adjusted (vget err n))) (x := x.setWidth 32) (y := y.setWidth 32) n.isLt
    rw [hfit x y (by rwa [h1, h2]) (by rwa [h1, h2, h3]), ht hu, lch_setLch_self n.isLt, h1]
  · refine calLap_own (Q := fun c => c = _) hw he fun u hu hi hc => ?_
    obtain ⟨h1, h2, h3⟩ := hparts hc
    obtain ⟨-, hfit⟩ := calibrate_fit n.isLt (by rwa [hi]) (he n) hf (by rwa [h1])
    have hs := hset (g := fun c => c.adjusted (vget err n)) hc
    rw [hfit (by rwa [h1, h2, h3]), State.calOf, lch_setLch_self n.isLt, lch_setLch_self n.isLt, h1, ← h2, ← h3]
    rfl

/-- A lap with a fault of one channel alone is that fault. -/
theorem calLap_fault (h1 : s.iget (F.aoChnCfg_en n.val) ≠ 0) (h2 : s.iget (F.aoChnCfg_calEn n.val) ≠ 0) (he : 40000 < (vget err n.val).natAbs)
    (ho : ∀ m : Fin 8, m ≠ n → vget err m.val = 0 ∧ vget fit m.val = none) : s.calLap err fit = s.loopFault n := by
  have hother (u : State) (m : Nat) (hm : m ∈ List.range 8) (hne : m ≠ n.val) : u.calibrate m (vget err m) (vget fit m) = u := by
    obtain ⟨e1, e2⟩ := ho ⟨m, List.mem_range.mp hm⟩ fun e => hne (congrArg Fin.val e)
    dsimp only at e1 e2
    rw [e1, e2, State.calibrate]
    split
    · rfl
    · rfl
  refine foldl_own (P := fun u => u = s) (Q := fun u => u = s.loopFault n) List.nodup_range (List.mem_range.mpr n.isLt) ?_ ?_ ?_ rfl
  · intro u m hm hne hu
    rw [hother u m hm hne, hu]
  · intro u m hm hne hu
    rw [hother u m hm hne, hu]
  · rintro u rfl
    rw [State.calibrate, if_neg (not_or.mpr ⟨h1, h2⟩), if_pos he]

theorem loopCalibration_faults (hw : s.regsWf = true) (hon : s.island.on = true) (h1 : s.iget (F.aoChnCfg_en n.val) ≠ 0)
    (h2 : s.iget (F.aoChnCfg_calEn n.val) ≠ 0) (he : 40000 < (vget err n.val).natAbs)
    (ho : ∀ m : Fin 8, m ≠ n → vget err m.val = 0 ∧ vget fit m.val = none) :
    ∃ t, exec (.loopCalibration err fit lap) s = .next t ∧ (t.lch n).rbFault = true ∧ t.driveL n = 0 ∧
      t.fget ⟨R.aoChnFaults n, 16, 16⟩ = satAdd 16 (s.fget ⟨R.aoChnFaults n, 16, 16⟩) 1 := by
  obtain ⟨hfo, -, hl, hf⟩ := faultCounted (n := n) (g := fun c => { c with rbFault := true }) hw (j := 16) (by decide)
  have hfc : Frame [.regs, .island] [.blk 6, .blk 7] s (s.faulted n) :=
    (frame_setLch.sub.trans (frame_bumpFaults n.isLt (by decide)).sub).trans (frame_showIsland _).sub
  rw [exec_loopCalibration_laps hon, calLap_fault h1 h2 he ho, loopFault_eq]
  change (s.faulted n).lch n = _ at hl
  change (s.faulted n).fget _ = _ at hf
  generalize s.faulted n = v at *
  have hwv := hfc.canon hw
  have hev := frame_event v 0x002A 7 n [BitVec.ofNat 64 n]
  have hvr : (v.event 0x002A 7 n [BitVec.ofNat 64 n]).rd (R.aoChnFaults n) = v.rd (R.aoChnFaults n) := by
    refine rd_of_frame hev hwv fun r hr => ?_
    rw [← Bool.not_eq_true, Rect.has_iff]
    simp only [List.mem_cons, List.not_mem_nil, or_false] at hr
    rcases hr with rfl | rfl | rfl <;> simp only [R.aoChnFaults, F.scanStatus_evqFull, R.scanStatus, R.scanEvqDepth, R.scanEvqOvf] <;> omega
  have hvl := congrFun (lch_of_island (hev.part .island (by decide))) n
  obtain ⟨-, -, -, hr, hlc⟩ := lapDone_shows (n := n) (tb3 := s.time.tb3) (lap := lap) (hev.canon hwv)
  have hrb : (((v.event 0x002A 7 n [BitVec.ofNat 64 n]).lapDone s.time.tb3 lap).lch n).rbFault = true := by
    rw [hlc, hvl, hl]
  exact ⟨_, rfl, hrb, driveL_fault hrb, (fget_congr (hr.trans hvr)).trans hf⟩

end

/-! Compliance and the paths. -/

section
variable {rb : BitVec 25}

theorem complianceSet_shows (hw : s.regsWf = true) (hon : s.island.on = true) (hen : s.iget (F.aoChnCfg_en n.val) = 1)
    (hc : (s.lch n).compliance = false) (hr : s.readbackOf n rb + 100000 < s.driveL n) :
    ∃ u, exec (.complianceSet n rb) s =
        .next (u.event 0x0029 7 n [BitVec.ofNat 64 n.val, BitVec.ofNat 64 (bit (decide (s.readbackOf n rb < 100000)))]) ∧
      islandOnly [] s u ∧ (∀ m : Fin 8, m ≠ n → u.lch m = s.lch m) ∧
      u.lch n = { s.lch n with compliance := true, openLoop := decide (s.readbackOf n rb < 100000), readback := s.readbackOf n rb } := by
  have hcond : (s.island.on && s.iget (F.aoChnCfg_en n.val) == 1 && !(s.lch n.val).compliance &&
      decide ((s.readbackOf n.val rb) + 100000 < s.driveL n.val)) = true := by
    rw [hon, hen, hc, decide_eq_true hr]
    rfl
  refine ⟨_, when_pos hcond, islandOnly_blocks frame_setLch_show hw, fun m hm => ?_, ?_⟩
  · rw [lch_showIsland, only_setLch hm]
  · rw [lch_showIsland, lch_setLch_self n.isLt]

theorem complianceClear_shows (hw : s.regsWf = true) (hc : (s.lch n).compliance = true) (hm : s.loopMiss n (s.readbackOf n rb) ≤ 50000) :
    ∃ t, exec (.complianceClear n rb) s = .next t ∧ islandOnly [] s t ∧ (∀ m : Fin 8, m ≠ n → t.lch m = s.lch m) ∧
      t.lch n = { s.lch n with compliance := false, openLoop := false, readback := s.readbackOf n rb } := by
  have hcond : ((s.lch n.val).compliance && decide (s.loopMiss n.val (s.readbackOf n.val rb) ≤ 50000)) = true := by
    rw [hc, decide_eq_true hm]
    rfl
  refine ⟨_, when_pos hcond, islandOnly_blocks frame_setLch_show hw, fun m hm => ?_, ?_⟩
  · rw [lch_showIsland, only_setLch hm]
  · rw [lch_showIsland, lch_setLch_self n.isLt]

theorem mainPathFailure_shows (hw : s.regsWf = true) (hs : s.supervised n = true) (hf : (s.lch n).fallback = false)
    (hm : 160000 < s.loopMiss n (s.readbackOf n rb)) : ∃ u,
      exec (.mainPathFailure n rb) s = .next (u.event 0x0028 7 n [BitVec.ofNat 64 n.val]) ∧ islandOnly [] s u ∧
      (∀ m : Fin 8, m ≠ n → u.lch m = s.lch m) ∧
      u.lch n = { s.lch n with fallback := true, readback := s.readbackOf n rb } ∧ u.driveL n = s.driveL n ∧
      u.fget ⟨R.aoChnFaults n, 0, 16⟩ = satAdd 16 (s.fget ⟨R.aoChnFaults n, 0, 16⟩) 1 := by
  have hcond : (s.supervised n.val && !(s.lch n.val).fallback && decide (s.loopMiss n.val (s.readbackOf n.val rb) > 160000)) = true := by
    rw [hs, hf, decide_eq_true hm]
    rfl
  obtain ⟨h1, h2, h3, h4⟩ := faultCounted (n := n) (g := fun c => { c with fallback := true, readback := s.readbackOf n rb }) hw (j := 0)
    (by decide)
  have hwl : (s.setLch n (fun c => { c with fallback := true, readback := s.readbackOf n rb })).regsWf = true := hw
  have hb := frame_bumpFaults (s := s.setLch n (fun c => { c with fallback := true, readback := s.readbackOf n rb })) (j := 0) n.isLt
    (by decide)
  have hd := (alike_showIsland (hb.canon hwl)).driveL
  have hd' := (alike_of_frame hb hwl rfl).driveL
  refine ⟨_, when_pos hcond, h1, h2, h3, ?_, h4⟩
  rw [hd, hd']
  exact driveL_setLch n.isLt rfl rfl

theorem loopReadbackFault_shows (hw : s.regsWf = true) (hs : s.supervised n = true) (hf : (s.lch n).fallback = true)
    (hm : 320000 < s.loopMiss n (s.readbackOf n rb)) : ∃ u,
      exec (.loopReadbackFault n rb) s = .next (u.event 0x002A 7 n [BitVec.ofNat 64 n.val]) ∧ islandOnly [] s u ∧
      (∀ m : Fin 8, m ≠ n → u.lch m = s.lch m) ∧ (u.lch n).rbFault = true ∧ u.driveL n = 0 ∧
      u.fget ⟨R.aoChnFaults n, 16, 16⟩ = satAdd 16 (s.fget ⟨R.aoChnFaults n, 16, 16⟩) 1 := by
  have hcond : (s.supervised n.val && (s.lch n.val).fallback && decide (s.loopMiss n.val (s.readbackOf n.val rb) > 320000)) = true := by
    rw [hs, hf, decide_eq_true hm]
    rfl
  have hfr : Frame [.island] [] s (s.setLch n (fun c => { c with readback := s.readbackOf n rb })) := frame_setLch
  have hex : exec (.loopReadbackFault n rb) s =
      .next ((s.setLch n (fun c => { c with readback := s.readbackOf n rb })).loopFault n) := when_pos hcond
  have hother (m : Fin 8) (hm : m ≠ n) := only_setLch (s := s) (g := fun c => { c with readback := s.readbackOf n rb }) hm
  generalize s.setLch n (fun c => { c with readback := s.readbackOf n rb }) = v at *
  have hwv := hfr.canon hw
  obtain ⟨-, h2, h3, h4⟩ := faultCounted (n := n) (g := fun c => { c with rbFault := true }) hwv (j := 16) (by decide)
  have hff : Frame [.regs, .island] [.blk 6, .blk 7] v (v.faulted n) :=
    (frame_setLch.sub.trans (frame_bumpFaults n.isLt (by decide)).sub).trans (frame_showIsland _).sub
  have hv : v.fget ⟨R.aoChnFaults n, 16, 16⟩ = s.fget ⟨R.aoChnFaults n, 16, 16⟩ :=
    fget_congr (rd_of_frame hfr hw fun r hr => absurd hr List.not_mem_nil)
  have hrb : ((v.faulted n).lch n).rbFault = true := by
    rw [State.faulted, h3]
  refine ⟨v.faulted n, hex.trans (congrArg _ loopFault_eq), islandOnly_blocks (hfr.sub.trans hff) hw, fun m hm => ?_, hrb, driveL_fault hrb, ?_⟩
  · rw [State.faulted, h2 m hm, hother m hm]
  · rw [State.faulted, h4, hv]

end

/-- Settles O42: each command's own lemma, and for a lap what it makes of one channel. -/
theorem loopOutputs : Obligations.LoopOutputs := by
  unfold Obligations.LoopOutputs
  intro n s hw only on
  refine ⟨fun rb => ⟨fun hon hc hr => complianceSet_shows hw hon.1 hon.2 hc hr, fun hc hm => complianceClear_shows hw hc hm,
    fun hs hf hm => mainPathFailure_shows hw hs hf hm, fun hm => when_neg ?_, fun hs hf hm => loopReadbackFault_shows hw hs hf hm⟩,
    fun err fit lap hon he => ?_, fun err fit lap hon h1 h2 he ho => loopCalibration_faults hw hon h1 h2 he ho, fun m mask hm => ?_⟩
  case refine_1 => rw [decide_eq_false (Nat.not_lt.mpr hm), Bool.and_false]
  case refine_2 =>
    have hf := frame_calLap (s := s) (fit := fit) he
    have hf' : Frame [.regs, .island] [.blk 6, .blk 7] s ((s.calLap err fit).wr R.aoCalLast (BitVec.ofNat 32 s.time.tb3)) := hf.sub.trans .wr
    obtain ⟨h1, h2, hown, -, -⟩ := lapDone_shows (n := n) (tb3 := s.time.tb3) (lap := lap) (hf.canon hw)
    obtain ⟨c1, c2, c3⟩ := calLap_shows (n := n) (fit := fit) hw he
    have hsplit {x : LChan × W32 × W32} (h : (s.calLap err fit).calOf n = x) :
        ((s.calLap err fit).lapDone s.time.tb3 lap).lch n = x.1 ∧
        ((s.calLap err fit).lapDone s.time.tb3 lap).rd (R.aoChnTrimLo n) = x.2.1 ∧
        ((s.calLap err fit).lapDone s.time.tb3 lap).rd (R.aoChnTrimHi n) = x.2.2 := by
      rw [← h, ← hown]
      exact ⟨rfl, rfl, rfl⟩
    refine ⟨_, exec_loopCalibration_laps hon, islandOnly_wfDone (by decide) hf' hw, h1, h2, fun hoff => hsplit (c1 hoff), fun hon' hs =>
      hsplit (c2 hon' hs), fun span lo hi hon' hs hfit => ?_⟩
    obtain ⟨d1, d2⟩ := c3 span lo hi hon' hs hfit
    exact ⟨fun x y hx hy => hsplit (d1 x y hx hy), fun hno => hsplit (d2 hno)⟩
  case refine_3 =>
    have hex : exec (.aoRetest m mask) s = .next (s.mainPath mask).showIsland := asWrite_writes (f := fun s => s.aoRetest mask) hm
    rw [mainPath_eq] at hex
    refine ⟨_, hex, islandOnly_blocks (frame_eachLch.sub.trans (frame_showIsland _).sub) hw, ?_⟩
    rw [lch_showIsland, lch_eachLch n.isLt]
    simp only [n.isLt, true_and]

end Sys2Proof.Machine
end

section
/-! The CAN ports: port states, reception, transmission (R309 to R326). -/

namespace Sys2Proof.Machine

variable {s t u : State} {n m k : Nat} {g : Field}

/-! What the operations of a port change. -/

/-- The registers of the CAN block, and what an error event changes. -/
abbrev canPlaces : List Rect := [.fld F.scanStatus_evqFull, .reg R.scanEvqDepth, .reg R.scanEvqOvf, .span 0xA000 0]

theorem cover_can {f : Field} (h : 0xA000 ≤ f.off) (hw : f.lo + f.width ≤ 32) : coverAll canPlaces f = true :=
  cover_from 0xA000 h rfl (Nat.ble_eq.mpr hw)

/-- A register of a port lies in the CAN block. -/
theorem le_port (j : Nat) (hj : 0xA000 ≤ j) : 0xA000 ≤ j + n * 0x40 := by omega

theorem frame_status {ps : List Part} {lo w v : Nat} (hw : autoParam (Nat.ble (lo + w) 32 = true) List.TFAE.out._auto_1)
    (hp : autoParam (partsIn [.regs] ps = true) List.TFAE.out._auto_1) : Frame ps canPlaces s (s.fset ⟨R.canChnStatus n, lo, w⟩ v) :=
  .fset (cover_can (le_port 0xA10C (by decide)) (Nat.ble_eq.mp hw)) hp

theorem frame_portCount {ps : List Part} {j lo w : Nat} (hj : 0xA000 ≤ j) (hw : autoParam (Nat.ble (lo + w) 32 = true) List.TFAE.out._auto_1)
    (hp : autoParam (partsIn [.regs] ps = true) List.TFAE.out._auto_1) : Frame ps canPlaces s (s.bumpF ⟨j + n * 0x40, lo, w⟩) :=
  .bumpF (cover_can (le_port j hj) (Nat.ble_eq.mp hw)) hp

theorem frame_portBump {ps : List Part} {j : Nat} (hj : 0xA000 ≤ j) (hp : autoParam (partsIn [.regs] ps = true) List.TFAE.out._auto_1) :
    Frame ps canPlaces s (s.bump (j + n * 0x40)) :=
  .bump (cover_can (le_port j hj) (Nat.le_refl 32)) hp

theorem frame_canShow {ps : List Part} (hn : n < 4) (hp : autoParam (partsIn [.regs] ps = true) List.TFAE.out._auto_1) :
    Frame ps canPlaces s (s.canShow n) :=
  .fsetb (cover_can (by simp only [R.canStatus]; decide) (show 4 + n + 1 ≤ 32 by omega)) hp

theorem frame_canEvent {code : Nat} {ps : List W64} : Frame [.regs, .scan, .recd] canPlaces s (s.canEvent n code ps) := (frame_event ..).sub
theorem frame_canRecovered {code : Nat} : Frame [.regs, .scan, .recd] canPlaces s (s.canRecovered n code) := frame_canEvent

theorem frame_canPassive : Frame [.regs, .scan, .recd] canPlaces s (s.canPassive n) :=
  .ite (.trans frame_status frame_canEvent) (.ite (.trans frame_status frame_canRecovered) (.refl s))

theorem frame_canCount0 {ps : List Part} (hp : autoParam (partsIn [.regs] ps = true) List.TFAE.out._auto_1) :
    Frame ps canPlaces s (s.canCount0 n) := .trans (frame_status rfl hp) (frame_status rfl hp)

/-! Fields of the CAN block that an operation leaves. -/

/-- An error event changes no register of the CAN block. -/
theorem rd_canEvent {code o : Nat} {ps : List W64} (hw : s.regsWf = true) (ho : 0xA000 ≤ o) : (s.canEvent n code ps).rd o = s.rd o := by
  refine rd_of_frame (frame_event ..) hw fun r hr => ?_
  rw [← Bool.not_eq_true, Rect.has_iff]
  simp only [List.mem_cons, List.not_mem_nil, or_false] at hr
  rcases hr with rfl | rfl | rfl <;> simp only [F.scanStatus_evqFull, R.scanStatus, R.scanEvqDepth, R.scanEvqOvf] <;> omega

theorem fget_canEvent {code : Nat} {ps : List W64} (hw : s.regsWf = true) (ho : 0xA000 ≤ g.off) :
    (s.canEvent n code ps).fget g = s.fget g := fget_congr (rd_canEvent hw ho)

theorem fget_canShow (h : g.off ≠ R.canStatus) : (s.canShow n).fget g = s.fget g := fget_fsetb_off h

theorem rd_canShow {o : Nat} (h : o ≠ R.canStatus) : (s.canShow n).rd o = s.rd o := rd_fsetb_ne h

/-- Other bits of the port's status, and the bits set. -/
theorem fget_status {lo w v lo' w' : Nat} (hw : s.regsWf = true)
    (hd : autoParam (((Nat.ble (lo' + w') lo || Nat.ble (lo + w) lo') && Nat.ble (lo' + w') 32) = true) List.TFAE.out._auto_1) :
    (s.fset ⟨R.canChnStatus n, lo, w⟩ v).fget ⟨R.canChnStatus n, lo', w'⟩ = s.fget ⟨R.canChnStatus n, lo', w'⟩ := by
  have h : ((Nat.ble (lo' + w') lo || Nat.ble (lo + w) lo') && Nat.ble (lo' + w') 32) = true := hd
  simp only [Bool.and_eq_true, Bool.or_eq_true, Nat.ble_eq] at h
  exact fget_fset_beside hw h.1 h.2

theorem fget_status_self {lo w v : Nat} (hw : s.regsWf = true) (hd : autoParam (Nat.ble (lo + w) 32 = true) List.TFAE.out._auto_1) :
    (s.fset ⟨R.canChnStatus n, lo, w⟩ v).fget ⟨R.canChnStatus n, lo, w⟩ = v % 2 ^ w := fget_fset hw (Nat.ble_eq.mp hd)

/-- The bit that `canPassive` sets or clears. -/
theorem fget_canPassive (hw : s.regsWf = true) (hg : g.lo + g.width ≤ 32) (ho : 0xA000 ≤ g.off)
    (hd : g.off ≠ R.canChnStatus n ∨ g.lo + g.width ≤ 3 ∨ 4 ≤ g.lo) : (s.canPassive n).fget g = s.fget g := by
  have hset (v : Nat) : (s.fset (F.canChnStatus_epassive n) v).fget g = s.fget g := fget_fset_disjoint hw hg hd
  unfold State.canPassive
  extract_lets f now
  split
  · exact (fget_canEvent (regsWf_fset hw) ho).trans (hset 1)
  · split
    · exact (fget_canEvent (regsWf_fset hw) ho).trans (hset 0)
    · rfl

theorem rd_canPassive {o : Nat} (hw : s.regsWf = true) (ho : 0xA000 ≤ o) (hne : o ≠ R.canChnStatus n) : (s.canPassive n).rd o = s.rd o := by
  unfold State.canPassive
  extract_lets f now
  split
  · exact (rd_canEvent (regsWf_fset hw) ho).trans (rd_fset_ne hne)
  · split
    · exact (rd_canEvent (regsWf_fset hw) ho).trans (rd_fset_ne hne)
    · rfl

theorem canTiming_of_act (h : t.act = s.act) : t.canTiming = s.canTiming := by
  funext n
  simp only [State.canTiming, State.abit, State.aget, State.actv, h]
  rfl

/-! Port states (R312). -/

/-- A port that starts. -/
def State.starting (s : State) (n : Nat) : State :=
  (((s.fset (F.canChnStatus_pstate n) canInteg).canCount0 n).canPassive n |>.fset (F.canChnStatus_xcvrFault n) 0).canShow n

theorem startPort_starts {fault : Bool} (hs : s.canState n = canDown) (ht : s.canTiming n = true) (hf : fault = false) :
    s.canStartPort n fault = s.starting n := by
  rw [State.canStartPort, if_neg]
  · rfl
  · rw [hs, ht, hf]
    simp

theorem startPort_ignored {fault : Bool} (h : ¬ (s.canState n = canDown ∧ s.canTiming n = true ∧ fault = false)) :
    s.canStartPort n fault = s.ignoredIn 10 := by
  refine if_pos ?_
  rcases Decidable.em (s.canState n = canDown) with h1 | h1
  · cases h2 : s.canTiming n with
    | false => exact .inr (.inl rfl)
    | true =>
      cases fault with
      | true => exact .inr (.inr rfl)
      | false => exact absurd ⟨h1, h2, rfl⟩ h
  · exact .inl h1

theorem frame_starting (hn : n < 4) : Frame [.regs, .scan, .recd] canPlaces s (s.starting n) :=
  .trans (.trans (.trans (.trans frame_status frame_canCount0) frame_canPassive) frame_status) (frame_canShow hn)

theorem frame_canStartPort {fault : Bool} (hn : n < 4) : Frame [.regs, .scan, .recd] canPlaces s (s.canStartPort n fault) :=
  .ite (.bump (cover_can (by decide) (by decide))) (frame_starting hn)

/-- A field of another register than the port's status and the block's. -/
theorem fget_starting (hw : s.regsWf = true) (hg : g.lo + g.width ≤ 32) (ho : 0xA000 ≤ g.off) (h1 : g.off ≠ R.canChnStatus n)
    (h2 : g.off ≠ R.canStatus) : (s.starting n).fget g = s.fget g := by
  have hw1 : ((s.fset (F.canChnStatus_pstate n) canInteg).canCount0 n).regsWf = true := regsWf_fset (regsWf_fset (regsWf_fset hw))
  rw [State.starting, fget_canShow h2, fget_fset_off h1, fget_canPassive hw1 hg ho (.inl h1), State.canCount0, fget_fset_off h1,
    fget_fset_off h1, fget_fset_off h1]

theorem starting_shows (hw : s.regsWf = true) : (s.starting n).canState n = canInteg ∧ (s.starting n).fget (F.canChnStatus_tec n) = 0 ∧
    (s.starting n).fget (F.canChnStatus_rec n) = 0 ∧ (s.starting n).fbit (F.canChnStatus_xcvrFault n) = false := by
  have hne : R.canChnStatus n ≠ R.canStatus := by simp only [R.canChnStatus, R.canStatus]; omega
  have ho : 0xA000 ≤ R.canChnStatus n := le_port 0xA10C (by decide)
  have hw0 : (s.fset (F.canChnStatus_pstate n) canInteg).regsWf = true := regsWf_fset hw
  have hw1 : ((s.fset (F.canChnStatus_pstate n) canInteg).canCount0 n).regsWf = true := regsWf_fset (regsWf_fset hw0)
  have hw2 : (((s.fset (F.canChnStatus_pstate n) canInteg).canCount0 n).canPassive n).regsWf = true := frame_canPassive.canon hw1
  have hkeep (lo w : Nat) (hl : lo + w ≤ 32) (h3 : lo + w ≤ 3 ∨ 4 ≤ lo) (h6 : lo + w ≤ 6 ∨ 7 ≤ lo) :
      (s.starting n).fget ⟨R.canChnStatus n, lo, w⟩ = ((s.fset (F.canChnStatus_pstate n) canInteg).canCount0 n).fget ⟨R.canChnStatus n, lo, w⟩ := by
    rw [State.starting, fget_canShow hne, fget_fset_beside hw2 h6 hl, fget_canPassive hw1 hl ho (.inr h3)]
  refine ⟨?_, ?_, ?_, ?_⟩
  · rw [State.canState, hkeep 0 3 (by decide) (by decide) (by decide), State.canCount0, fget_status (regsWf_fset hw0),
      fget_status hw0, fget_status_self hw]
    rfl
  · rw [hkeep 8 8 (by decide) (by decide) (by decide), State.canCount0, fget_status (regsWf_fset hw0),
      fget_status_self hw0]
    rfl
  · rw [hkeep 16 8 (by decide) (by decide) (by decide), State.canCount0, fget_status_self (regsWf_fset hw0)]
    rfl
  · rw [State.fbit, State.starting, fget_canShow hne, fget_status_self hw2]
    rfl

/-- A start of ports, as one of them sees it. -/
theorem canStart_shows (hw : s.regsWf = true) {mask fault : BitVec 4} {n : Nat} (hn : n < 4) :
    ((mask.getLsbD n = true ∧ s.canState n = canDown ∧ s.canTiming n = true ∧ fault.getLsbD n = false) →
      (s.canStart mask fault).canState n = canInteg ∧ (s.canStart mask fault).fget (F.canChnStatus_tec n) = 0 ∧
        (s.canStart mask fault).fget (F.canChnStatus_rec n) = 0 ∧ (s.canStart mask fault).fbit (F.canChnStatus_xcvrFault n) = false) ∧
    (¬ (mask.getLsbD n = true ∧ s.canState n = canDown ∧ s.canTiming n = true ∧ fault.getLsbD n = false) →
      (s.canStart mask fault).canState n = s.canState n) := by
  have hne : R.canChnStatus n ≠ R.canStatus := by simp only [R.canChnStatus, R.canStatus]; omega
  have hign : R.canChnStatus n ≠ 10 * 0x1000 + 0x10 := by simp only [R.canChnStatus]; omega
  have hother (u : State) (k : Nat) (hk : k ≠ n) (hu : u.regsWf = true) (lo w : Nat) (hl : lo + w ≤ 32) :
      (if mask.getLsbD k then u.canStartPort k (fault.getLsbD k) else u).fget ⟨R.canChnStatus n, lo, w⟩ = u.fget ⟨R.canChnStatus n, lo, w⟩ := by
    have h1 : R.canChnStatus n ≠ R.canChnStatus k := by simp only [R.canChnStatus]; omega
    split
    · by_cases h : u.canState k = canDown ∧ u.canTiming k = true ∧ fault.getLsbD k = false
      · rw [startPort_starts h.1 h.2.1 h.2.2, fget_starting hu hl (le_port 0xA10C (by decide)) h1 hne]
      · rw [startPort_ignored h, ignoredIn_eq (by decide), fget_bump_off hign]
    · rfl
  have hframe (u : State) (k : Nat) (hk : k ∈ [0, 1, 2, 3]) : Frame [.regs, .scan, .recd] canPlaces u
      (if mask.getLsbD k then u.canStartPort k (fault.getLsbD k) else u) := by
    refine .ite (frame_canStartPort ?_) (.refl u)
    simp only [List.mem_cons, List.not_mem_nil, or_false] at hk
    omega
  refine foldl_own (P := fun u => u.regsWf = true ∧ u.canState n = s.canState n ∧ u.canTiming = s.canTiming)
    (Q := fun u => u.regsWf = true ∧ ((mask.getLsbD n = true ∧ s.canState n = canDown ∧ s.canTiming n = true ∧ fault.getLsbD n = false) →
      u.canState n = canInteg ∧ u.fget (F.canChnStatus_tec n) = 0 ∧ u.fget (F.canChnStatus_rec n) = 0 ∧
        u.fbit (F.canChnStatus_xcvrFault n) = false) ∧
      (¬ (mask.getLsbD n = true ∧ s.canState n = canDown ∧ s.canTiming n = true ∧ fault.getLsbD n = false) → u.canState n = s.canState n))
    (l := [0, 1, 2, 3]) (a := n) (by decide) (by simp only [List.mem_cons, List.not_mem_nil, or_false]; omega) ?_ ?_ ?_ ⟨hw, rfl, rfl⟩ |>.2
  · rintro u k hk hkn ⟨h1, h2, h3⟩
    exact ⟨(hframe u k hk).canon h1, (hother u k hkn h1 0 3 (by decide)).trans h2,
      (canTiming_of_act ((hframe u k hk).part .act (by decide))).trans h3⟩
  · rintro u k hk hkn ⟨h1, h2, h3⟩
    refine ⟨(hframe u k hk).canon h1, fun hs => ?_, fun hs => ?_⟩
    · obtain ⟨e1, e2, e3, e4⟩ := h2 hs
      refine ⟨(hother u k hkn h1 0 3 (by decide)).trans e1, (hother u k hkn h1 8 8 (by decide)).trans e2,
        (hother u k hkn h1 16 8 (by decide)).trans e3, ?_⟩
      rw [State.fbit, hother u k hkn h1 6 1 (by decide)]
      exact e4
    · exact (hother u k hkn h1 0 3 (by decide)).trans (h3 hs)
  · rintro u ⟨h1, h2, h3⟩
    refine ⟨(hframe u n (by simp only [List.mem_cons, List.not_mem_nil, or_false]; omega)).canon h1, fun ⟨e1, e2, e3, e4⟩ => ?_, fun hs => ?_⟩
    · rw [if_pos e1, startPort_starts (h2.trans e2) ((congrFun h3 n).trans e3) e4]
      exact starting_shows h1
    · split
      next hm =>
        rw [startPort_ignored, ignoredIn_eq (by decide), State.canState, fget_bump_off hign]
        · exact h2
        · rw [h2, h3]
          exact fun h => hs ⟨hm, h⟩
      next => exact h2

/-- A stop of ports. -/
theorem canStop_shows (hw : s.regsWf = true) {mask : BitVec 4} :
    (∀ n : Fin 4, (s.canStop mask).canState n = if mask.getLsbD n.val then canDown else s.canState n) ∧
    onlyRegs (R.canStatus :: (List.range 4).map R.canChnStatus) s (s.canStop mask) := by
  constructor
  · intro n
    have hne : R.canChnStatus n.val ≠ R.canStatus := by simp only [R.canChnStatus, R.canStatus]; omega
    refine (foldl_own (P := fun u => u.regsWf = true ∧ u.canState n = s.canState n)
      (Q := fun u => u.regsWf = true ∧ u.canState n = if mask.getLsbD n.val then canDown else s.canState n)
      (l := [0, 1, 2, 3]) (a := n.val) (by decide) (by have := n.isLt; simp only [List.mem_cons, List.not_mem_nil, or_false]; omega) ?_ ?_ ?_
      ⟨hw, rfl⟩).2
    · rintro u k - hk ⟨h1, h2⟩
      have h : R.canChnStatus n.val ≠ R.canChnStatus k := by simp only [R.canChnStatus]; omega
      split
      · exact ⟨regsWf_fsetb (regsWf_fset h1), (fget_canShow hne).trans ((fget_fset_off h).trans h2)⟩
      · exact ⟨h1, h2⟩
    · rintro u k - hk ⟨h1, h2⟩
      have h : R.canChnStatus n.val ≠ R.canChnStatus k := by simp only [R.canChnStatus]; omega
      split
      · exact ⟨regsWf_fsetb (regsWf_fset h1), (fget_canShow hne).trans ((fget_fset_off h).trans h2)⟩
      · exact ⟨h1, h2⟩
    · rintro u ⟨h1, h2⟩
      split
      · exact ⟨regsWf_fsetb (regsWf_fset h1), (fget_canShow hne).trans (fget_status_self h1)⟩
      · exact ⟨h1, h2⟩
  · refine onlyRegs_foldl (fun u k hk => ?_) s
    split
    · refine onlyRegs_trans (onlyRegs_mono ?_ (onlyRegs_wr (off := R.canChnStatus k))) (onlyRegs_mono ?_ (onlyRegs_wr (off := R.canStatus)))
      · intro o ho
        rw [List.mem_singleton.mp ho]
        refine List.mem_cons_of_mem _ (List.mem_map.mpr ⟨k, List.mem_range.mpr ?_, rfl⟩)
        simp only [List.mem_cons, List.not_mem_nil, or_false] at hk
        omega
      · intro o ho
        rw [List.mem_singleton.mp ho]
        exact List.mem_cons_self
    · exact onlyRegs_refl _

/-- The status register of a port is another than the block's. -/
theorem status_ne : R.canChnStatus n ≠ R.canStatus := by
  simp only [R.canChnStatus, R.canStatus]
  omega

/-- The other ports of an update of one. -/
theorem port_vmod {v : Vector CanPort 4} {f : CanPort → CanPort} {n : Fin 4} :
    vget (vmod v n f) n = f (vget v n) ∧ ∀ m : Fin 4, m ≠ n → vget (vmod v n f) m = vget v m :=
  ⟨vget_vmod_self n.isLt, fun _ hm => vget_vmod_ne fun e => hm (Fin.ext e)⟩

section
variable {n : Fin 4} (hw : s.regsWf = true)
include hw

theorem integrationDone_shows (hs : s.canState n = canInteg) : ∃ t, exec (.canIntegrationDone n) s = .next t ∧
    t.canState n = (if s.canPermitted then canActive else canRestricted) ∧ onlyRegs [R.canChnStatus n] s t := by
  refine ⟨_, when_pos (beq_iff_eq.mpr hs), ?_, onlyRegs_wr⟩
  rw [State.canState, fget_status_self hw]
  cases s.canPermitted <;> rfl

theorem transceiverFault_shows (hc : s.power.chip = true) : ∃ t, exec (.transceiverFault n) s = .next t ∧ t.canState n = canDown ∧
    t.fbit (F.canChnStatus_xcvrFault n) = true ∧ t.fbit ⟨R.canStatus, 4 + n, 1⟩ = true ∧
    keepsRegs [R.canChnStatus n, R.canStatus] s t ∧ t.can = s.can := by
  have hw1 : (s.fset (F.canChnStatus_pstate n.val) canDown).regsWf = true := regsWf_fset hw
  have hw2 : (((s.fset (F.canChnStatus_pstate n.val) canDown).fset (F.canChnStatus_xcvrFault n.val) 1).raise hapXcvr n.val []).regsWf = true :=
    regsWf_fset hw1
  have hx : (((s.fset (F.canChnStatus_pstate n.val) canDown).fset (F.canChnStatus_xcvrFault n.val) 1).raise hapXcvr n.val []).fbit
      (F.canChnStatus_xcvrFault n.val) = true := by
    rw [State.fbit, fget_raise, fget_status_self hw1]
    rfl
  refine ⟨_, when_pos hc, ?_, ?_, ?_, ?_, ?_⟩
  · rw [State.canState, fget_canShow status_ne, fget_raise, fget_status hw1, fget_status_self hw]
    rfl
  · rw [State.fbit, fget_canShow status_ne, ← State.fbit, hx]
  · have hn := n.isLt
    rw [State.canShow, State.fsetb, fbit_fset hw2 (show 4 + n.val + 1 ≤ 32 by omega), hx, Bool.or_true]
    rfl
  · intro o ho
    simp only [List.mem_cons, List.not_mem_nil, or_false, not_or] at ho
    exact (rd_canShow ho.2).trans ((rd_fset_ne ho.1).trans (rd_fset_ne ho.1))
  · exact (frame_canShow n.isLt (ps := [.regs])).part .can (by decide)

theorem busoffRecovery_shows (hs : s.canState n = canBusoff) (hb : (vget s.can.port n.val).boDone = true) :
    ∃ t, exec (.busoffRecovery n) s = .next t ∧
      t.canState n = canInteg ∧ t.fget (F.canChnStatus_tec n) = 0 ∧ t.fget (F.canChnStatus_rec n) = 0 ∧
      t.fbit (F.canChnStatus_epassive n) = false := by
  have hcond : (s.canState n.val == canBusoff && (vget s.can.port n.val).boDone) = true := by rw [hs, hb]; rfl
  have hw1 : (s.fset (F.canChnStatus_pstate n.val) canInteg).regsWf = true := regsWf_fset hw
  have hw2 : ((s.fset (F.canChnStatus_pstate n.val) canInteg).fset (F.canChnStatus_tec n.val) 0).regsWf = true := regsWf_fset hw1
  have hw3 : ((s.fset (F.canChnStatus_pstate n.val) canInteg).canCount0 n.val).regsWf = true := regsWf_fset hw2
  have hw4 : (((s.fset (F.canChnStatus_pstate n.val) canInteg).canCount0 n.val).fset (F.canChnStatus_epassive n.val) 0).regsWf = true :=
    regsWf_fset hw3
  have hkeep (lo w : Nat) : (((((s.fset (F.canChnStatus_pstate n.val) canInteg).canCount0 n.val).fset (F.canChnStatus_epassive n.val)
      0).canRecovered n.val 0x11).canShow n.val).fget ⟨R.canChnStatus n, lo, w⟩ =
      (((s.fset (F.canChnStatus_pstate n.val) canInteg).canCount0 n.val).fset (F.canChnStatus_epassive n.val) 0).fget ⟨R.canChnStatus n, lo, w⟩ := by
    rw [fget_canShow status_ne, State.canRecovered, fget_canEvent hw4 (le_port 0xA10C (by decide))]
  refine ⟨_, when_pos hcond, ?_, ?_, ?_, ?_⟩
  · rw [State.canState, hkeep, fget_status hw3, State.canCount0, fget_status hw2, fget_status hw1, fget_status_self hw]
    rfl
  · rw [hkeep, fget_status hw3, State.canCount0, fget_status hw2, fget_status_self hw1]
    rfl
  · rw [hkeep, fget_status hw3, State.canCount0, fget_status_self hw2]
    rfl
  · rw [State.fbit, hkeep, fget_status_self hw3]
    rfl

theorem collideClear_shows (hc : s.fbit (F.canChnStatus_collide n) = true) : ∃ t, exec (.collideClear n) s = .next t ∧
    t.fbit (F.canChnStatus_collide n) = false ∧ t.canState n = s.canState n := by
  have hw1 : (s.fset (F.canChnStatus_collide n.val) 0).regsWf = true := regsWf_fset hw
  refine ⟨_, when_pos hc, ?_, ?_⟩
  · rw [State.fbit, fget_canShow status_ne, State.canRecovered, fget_canEvent hw1 (le_port 0xA10C (by decide)), fget_status_self hw]
    rfl
  · rw [State.canState, fget_canShow status_ne, State.canRecovered, fget_canEvent hw1 (le_port 0xA10C (by decide)), fget_status hw]
    rfl

end

/-! Reception (R313, R318, R319). -/

theorem canFilter_of (hm : t.mem = s.mem) (ha : t.act = s.act) : t.canFilter = s.canFilter := by
  funext n i
  simp only [State.canFilter, State.canFilterAt, State.canArea, State.actv, hm, ha]

theorem canDesc_of (hm : t.mem = s.mem) (ha : t.act = s.act) : t.canDesc = s.canDesc := by
  funext n i
  simp only [State.canDesc, State.canDescAt, State.canArea, State.actv, hm, ha]

theorem frame_canRecDown : Frame [.free, .regs, .scan, .recd] canPlaces s (s.canRecDown n) :=
  .ite (Frame.trans (.take (s := s)) (.trans frame_status frame_canPassive.sub)) frame_status

theorem rd_canRecDown {o : Nat} (hw : s.regsWf = true) (ho : 0xA000 ≤ o) (hne : o ≠ R.canChnStatus n) : (s.canRecDown n).rd o = s.rd o := by
  unfold State.canRecDown
  extract_lets f c
  split
  · have hwt : s.take.2.regsWf = true := hw
    exact (rd_canPassive (regsWf_fset hwt) ho hne).trans (rd_fset_ne hne)
  · exact rd_fset_ne hne

/-- A frame received and counted, before it is filtered. -/
def State.received (s : State) (n : Nat) : State :=
  if s.canState n = canActive then ((s.bump (R.canChnRxok n)).obsCount (0x0A00 + n)).canRecDown n
  else (s.bump (R.canChnRxok n)).obsCount (0x0A00 + n)

theorem frame_received : Frame [.free, .regs, .scan, .recd] (canPlaces ++ [.span 0x14400 0x14800]) s (s.received n) := by
  have h : Frame [.free, .regs, .scan, .recd] (canPlaces ++ [.span 0x14400 0x14800]) s ((s.bump (R.canChnRxok n)).obsCount (0x0A00 + n)) :=
    ((frame_portBump (j := 0xA114) (by decide) (ps := [.regs])).sub).trans (frame_obsCount ..).sub
  exact .ite (h.trans frame_canRecDown.sub) h

theorem rd_obsCount {o code : Nat} (hw : s.regsWf = true) (ho : o < 0x14400) : (s.obsCount code).rd o = s.rd o := by
  refine rd_of_frame (frame_obsCount ..) hw fun r hr => ?_
  rw [← Bool.not_eq_true, Rect.has_iff, List.mem_singleton.mp hr]
  simp only
  omega

theorem rd_received {o : Nat} (hw : s.regsWf = true) (ho : 0xA000 ≤ o) (ho' : o < 0x14400) (hne : o ≠ R.canChnStatus n) :
    (s.received n).rd o = (s.bump (R.canChnRxok n)).rd o := by
  have hw1 : (s.bump (R.canChnRxok n)).regsWf = true := regsWf_bump hw
  have h1 := rd_obsCount (code := 0x0A00 + n) hw1 ho'
  unfold State.received
  split
  · exact (rd_canRecDown ((frame_obsCount ..).canon hw1) ho hne).trans h1
  · exact h1

theorem exec_canFrameRx_takes {n : Fin 4} {rxid : W32} {esi remote : Bool} {dlc : BitVec 4} {data : List Byte}
    (hs : s.canState n = canRestricted ∨ s.canState n = canActive)
    (hl : data.length = if remote then 0 else dlcLen (rxid.getLsbD 30) dlc.toNat) :
    exec (.canFrameRx n rxid esi remote dlc data) s =
      .next ((s.received n).canFilterFrame n rxid.toNat (dlc.toNat + bit esi * 16) data remote) := by
  have hcond : ((s.canState n.val == canRestricted || s.canState n.val == canActive) &&
      data.length == (if remote then 0 else dlcLen (rxid.getLsbD 30) dlc.toNat)) = true := by
    rw [hl, BEq.rfl, Bool.and_true]
    rcases hs with hs | hs <;> rw [hs] <;> rfl
  exact when_pos hcond

/-- A frame that no entry takes. -/
theorem canFilterFrame_unmatched {n : Fin 4} {rxid dlc : Nat} {data : List Byte} {remote : Bool} (hw : s.regsWf = true)
    (h : remote = true ∨ ∀ f ∈ (List.range 256).map (s.canFilter n), f.hit rxid = false) :
    ((s.received n).canFilterFrame n rxid dlc data remote).can = s.can ∧ ((s.received n).canFilterFrame n rxid dlc data remote).mem = s.mem ∧
    (((s.received n).canFilterFrame n rxid dlc data remote).rd (R.canChnRxok n)).toNat = satAdd 32 (s.rd (R.canChnRxok n)).toNat 1 ∧
    (((s.received n).canFilterFrame n rxid dlc data remote).rd (R.canChnUnmatched n)).toNat = satAdd 32 (s.rd (R.canChnUnmatched n)).toNat 1 := by
  have hn := n.isLt
  have hf := frame_received (s := s) (n := n)
  have hfil := canFilter_of (hf.part .mem (by decide)) (hf.part .act (by decide))
  have hno : (if remote then none else ((List.range 256).map ((s.received n).canFilter n)).find? (fun f => f.hit rxid)) = none := by
    rcases h with h | h
    · exact if_pos h
    · cases remote with
      | true => rfl
      | false =>
        rw [hfil]
        refine List.find?_eq_none.mpr fun f hf' => ?_
        rw [h f hf']
        exact Bool.false_ne_true
  have heq : (s.received n).canFilterFrame n rxid dlc data remote = (s.received n).bump (R.canChnUnmatched n) := by
    rw [State.canFilterFrame, hno]
  have hne : R.canChnRxok n.val ≠ R.canChnUnmatched n.val := by simp only [R.canChnRxok, R.canChnUnmatched]; omega
  have hb : Frame [.regs] canPlaces (s.received n) ((s.received n).bump (R.canChnUnmatched n)) := frame_portBump (j := 0xA124) (by decide)
  rw [heq]
  refine ⟨(hb.part .can (by decide)).trans (hf.part .can (by decide)), (hb.part .mem (by decide)).trans (hf.part .mem (by decide)), ?_, ?_⟩
  · rw [rd_bump_ne hne, rd_received hw (by simp only [R.canChnRxok]; omega) (by simp only [R.canChnRxok]; omega)
      (by simp only [R.canChnRxok, R.canChnStatus]; omega), toNat_rd_bump hw]
  · rw [toNat_rd_bump (hf.canon hw), rd_received hw (by simp only [R.canChnUnmatched]; omega) (by simp only [R.canChnUnmatched]; omega)
      (by simp only [R.canChnUnmatched, R.canChnStatus]; omega), rd_bump_ne hne.symm]

/-- A frame that enters a receive object alone. -/
theorem canFilterFrame_object {n : Fin 4} {rxid dlc : Nat} {data : List Byte} (hw : s.regsWf = true) {f : CanFilter}
    (h : ((List.range 256).map (s.canFilter n)).find? (fun g => g.hit rxid) = some f) (ho : f.toObj = true) (hh : f.toHost = false) :
    ∃ o : RxObj, ((s.received n).canFilterFrame n rxid dlc data false).can.objs.head? = some (f.cls * 0x80000 + f.off, o) ∧ o.rxid = rxid ∧
      o.data = data ∧ o.stamp = s.time.tb1 ∧ o.dlc = dlc ∧ o.fresh = true ∧
      (((s.received n).canFilterFrame n rxid dlc data false).rd (R.canChnRxok n)).toNat = satAdd 32 (s.rd (R.canChnRxok n)).toNat 1 := by
  have hn := n.isLt
  have hf := frame_received (s := s) (n := n)
  have hfil := canFilter_of (hf.part .mem (by decide)) (hf.part .act (by decide))
  have hrd : (((s.received n).rd (R.canChnRxok n))).toNat = satAdd 32 (s.rd (R.canChnRxok n)).toNat 1 := by
    rw [rd_received hw (by simp only [R.canChnRxok]; omega) (by simp only [R.canChnRxok]; omega)
      (by simp only [R.canChnRxok, R.canChnStatus]; omega), toNat_rd_bump hw]
  have ht : (s.received n).time = s.time := hf.part .time (by decide)
  generalize s.received n = v at *
  have hsome : (if false = true then none else ((List.range 256).map (v.canFilter n)).find? (fun f => f.hit rxid)) = some f := by
    rw [hfil]
    exact h
  have heq : v.canFilterFrame n rxid dlc data false = v.canObject f rxid dlc data := by
    rw [State.canFilterFrame, hsome]
    simp only [ho, hh, if_true, Bool.false_eq_true, if_false]
  rw [heq]
  refine ⟨_, rfl, rfl, rfl, ?_, rfl, rfl, hrd⟩
  exact congrArg TimeS.tb1 ht

/-- Reception errors. -/
theorem canRxError_active {n : Fin 4} (hw : s.regsWf = true) (heavy : Bool) (hs : s.canState n = canActive) :
    ∃ t, exec (.canRxError n heavy) s = .next t ∧
      t.fget (F.canChnStatus_rec n) = min 255 (s.fget (F.canChnStatus_rec n) + if heavy then 8 else 1) ∧
      t.fget ⟨R.canChnErrs n, 0, 16⟩ = satAdd 16 (s.fget ⟨R.canChnErrs n, 0, 16⟩) 1 ∧ t.canState n = canActive := by
  have hcond : (s.canState n.val == canRestricted || s.canState n.val == canActive) = true := by rw [hs]; rfl
  have hex : exec (.canRxError n heavy) s = .next (((s.fset (F.canChnStatus_rec n.val) (satAdd 8 (s.fget (F.canChnStatus_rec n.val))
      (if heavy then 8 else 1))).bumpF ⟨R.canChnErrs n.val, 0, 16⟩).canPassive n.val) :=
    (when_pos hcond).trans (congrArg Host.Outcome.next (if_neg (by rw [hs]; decide)))
  have hne : R.canChnErrs n.val ≠ R.canChnStatus n.val := by simp only [R.canChnErrs, R.canChnStatus]; omega
  have hw1 : (s.fset (F.canChnStatus_rec n.val) (satAdd 8 (s.fget (F.canChnStatus_rec n.val)) (if heavy then 8 else 1))).regsWf = true :=
    regsWf_fset hw
  have hw2 := regsWf_bumpF (f := ⟨R.canChnErrs n.val, 0, 16⟩) hw1
  have hle := le_port (n := n) 0xA10C (by decide)
  have hlt : satAdd 16 (s.fget ⟨R.canChnErrs n.val, 0, 16⟩) 1 < 2 ^ 16 := by
    unfold satAdd
    omega
  have hlt8 : satAdd 8 (s.fget (F.canChnStatus_rec n.val)) (if heavy then 8 else 1) < 2 ^ 8 := by
    unfold satAdd
    omega
  refine ⟨_, hex, ?_, ?_, ?_⟩
  · rw [fget_canPassive hw2 (show 16 + 8 ≤ 32 by decide) hle (.inr (.inr (show 4 ≤ 16 by decide))), fget_bumpF_off hne.symm, fget_status_self hw,
      Nat.mod_eq_of_lt hlt8, satAdd, Nat.min_comm]
    rfl
  · rw [fget_canPassive hw2 (show 0 + 16 ≤ 32 by decide) (le_port 0xA118 (by decide)) (.inl hne), State.bumpF,
      fget_fset hw1 (show 0 + 16 ≤ 32 by decide), fget_fset_off hne]
    exact Nat.mod_eq_of_lt hlt
  · rw [State.canState, fget_canPassive hw2 (show 0 + 3 ≤ 32 by decide) hle (.inr (.inl (show 0 + 3 ≤ 3 by decide))), fget_bumpF_off hne.symm,
      fget_status hw]
    exact hs

/-! Buffers (R316). -/

/-- The buffer that is first of some is one of them. -/
theorem canFirst_mem {bs : List Nat} {b : Nat} (h : s.canFirst n bs = some b) : b ∈ bs := by
  suffices ∀ best : Option Nat, bs.foldl (fun best i =>
      match best with
      | none => some i
      | some b => if arbKey (s.canDesc n i).txid < arbKey (s.canDesc n b).txid then some i else some b) best = some b →
      b ∈ bs ∨ best = some b from (this none h).resolve_right (by simp)
  clear h
  induction bs with
  | nil => exact fun best h => .inr h
  | cons i bs ih =>
    intro best h
    rw [List.foldl_cons] at h
    rcases ih _ h with h | h
    · exact .inl (List.mem_cons_of_mem i h)
    · cases best with
      | none => exact .inl (Option.some.inj h ▸ List.mem_cons_self)
      | some c =>
        dsimp only at h
        split at h
        · exact .inl (Option.some.inj h ▸ List.mem_cons_self)
        · exact .inr h

theorem canPick_queued {b : Nat} (h : s.canPick n = some b) : b < 64 ∧ (s.canBuf n b).queued = true := by
  obtain ⟨h1, h2⟩ := List.mem_filter.mp (canFirst_mem h)
  exact ⟨List.mem_range.mp h1, h2⟩

section
variable {i : Nat} {f : CanBuf → CanBuf}

theorem port_setBuf (hn : n < 4) : vget (s.setBuf n i f).can.port n = { vget s.can.port n with bufs := vmod (vget s.can.port n).bufs i f } :=
  vget_vmod_self hn

theorem canBuf_setBuf (hn : n < 4) (hi : i < 64) : (s.setBuf n i f).canBuf n i = f (s.canBuf n i) := by
  rw [State.canBuf, port_setBuf hn, vget_vmod_self hi]
  rfl

theorem canBuf_setBuf_ne {c : Nat} (hn : n < 4) (hc : c ≠ i) : (s.setBuf n i f).canBuf n c = s.canBuf n c := by
  rw [State.canBuf, port_setBuf hn, vget_vmod_ne hc]
  rfl

/-- A change of a buffer that leaves a view of it. -/
theorem canBuf_setBuf_view {α : Type} {v : CanBuf → α} (hn : n < 4) (hv : ∀ b, v (f b) = v b) (c : Nat) :
    v ((s.setBuf n i f).canBuf n c) = v (s.canBuf n c) := by
  by_cases hc : c = i
  · subst hc
    by_cases hi : c < 64
    · rw [canBuf_setBuf hn hi, hv]
    · have hout (w : Vector CanBuf 64) : vmod w c f = w := by
        rw [vmod, vset, Vector.setIfInBounds_eq_of_size_le (by omega)]
      rw [State.canBuf, port_setBuf hn, hout]
      rfl
  · rw [canBuf_setBuf_ne hn hc]

theorem queued_canTry {b : Bool} (hn : n < 4) (c : Nat) : ((s.canTry n i b).canBuf n c).queued = (s.canBuf n c).queued :=
  canBuf_setBuf_view (s := s) (f := fun c => { c with tries := (b :: c.tries).take 8 }) (v := CanBuf.queued) hn (fun _ => rfl) c

theorem content_unqueued (hn : n < 4) (c : Nat) :
    ((s.setBuf n i (fun b => { b with queued := false })).canBuf n c).content = (s.canBuf n c).content :=
  canBuf_setBuf_view (f := fun b => { b with queued := false }) (v := CanBuf.content) hn (fun _ => rfl) c

theorem leaving_setBuf (hn : n < 4) : (vget (s.setBuf n i f).can.port n).leaving = (vget s.can.port n).leaving := by
  rw [port_setBuf hn]

end

theorem canBuf_of_can {i : Nat} (h : t.can = s.can) : t.canBuf n i = s.canBuf n i := by rw [State.canBuf, State.canBuf, h]

/-- The frame that a buffer sends, by its descriptor and its content. -/
theorem canFrameOut_of {b : Nat} (hm : t.mem = s.mem) (ha : t.act = s.act) (hc : (t.canBuf n b).content = (s.canBuf n b).content) :
    t.canFrameOut n b = s.canFrameOut n b := by
  simp only [State.canFrameOut, canDesc_of hm ha, hc]

/-! A frame sent (R311, R320). -/

/-- A frame out and counted, and the delay measured shown. -/
def State.sentOut (s : State) (k i : Nat) (tdc : Option (BitVec 7)) : State :=
  let t := ((s.emit (s.canFrameOut k i)).bump (R.canChnTxok k)).canTry k i false
  match tdc with
  | some v => if s.abit (F.canChnDbittime_tdcEn k) && bitN (s.canDesc k i).txid 30 then t.wr (R.canChnTdc k) (v.setWidth 32) else t
  | none => t

/-- The run of acknowledgement errors ended. -/
def State.ackEnd (t : State) (k : Nat) : State :=
  { t with can := { t.can with port := vmod t.can.port k (fun (p : CanPort) => { p with ackRun := 0 }) } }

/-- The transmit error counter lowered. -/
def State.tecDown (t : State) (k : Nat) : State := (t.fset (F.canChnStatus_tec k) (t.fget (F.canChnStatus_tec k) - 1)).canPassive k

/-- A lonely port that was acknowledged. -/
def State.notLonely (t : State) (k : Nat) : State :=
  if t.fbit (F.canChnStatus_lonely k) then (t.fset (F.canChnStatus_lonely k) 0).canRecovered k 0x12 else t

theorem canSent_eq {k i : Nat} {tdc : Option (BitVec 7)} {live : Bool} : s.canSent k i tdc live =
    ((if live then ((s.sentOut k i tdc).ackEnd k).tecDown k else (s.sentOut k i tdc).ackEnd k).notLonely k).canShow k := rfl

theorem frame_sentOut {k i : Nat} {tdc : Option (BitVec 7)} : Frame [.out, .regs, .can] canPlaces s (s.sentOut k i tdc) := by
  have h : Frame [.out, .regs, .can] canPlaces s (((s.emit (s.canFrameOut k i)).bump (R.canChnTxok k)).canTry k i false) :=
    (Frame.trans (t := s.emit (s.canFrameOut k i)) .emit (frame_portBump (j := 0xA110) (by decide))).trans (frame_setBuf ..).sub
  unfold State.sentOut
  extract_lets t
  split
  · exact .ite (h.trans (.wr (cover_can (le_port 0xA12C (by decide)) (Nat.le_refl 32)))) h
  · exact h

theorem sentOut_shows {k i : Nat} {tdc : Option (BitVec 7)} (hw : s.regsWf = true) :
    s.canFrameOut k i ∈ (s.sentOut k i tdc).out ∧ ((s.sentOut k i tdc).rd (R.canChnTxok k)).toNat = satAdd 32 (s.rd (R.canChnTxok k)).toNat 1 ∧
    (s.sentOut k i tdc).rd (R.canChnStatus k) = s.rd (R.canChnStatus k) ∧ (s.sentOut k i tdc).can = (s.canTry k i false).can := by
  have h1 : R.canChnTxok k ≠ R.canChnTdc k := by simp only [R.canChnTxok, R.canChnTdc]; omega
  have h2 : R.canChnStatus k ≠ R.canChnTdc k := by simp only [R.canChnStatus, R.canChnTdc]; omega
  have h3 : R.canChnStatus k ≠ R.canChnTxok k := by simp only [R.canChnStatus, R.canChnTxok]; omega
  have hwe : (s.emit (s.canFrameOut k i)).regsWf = true := hw
  have ht : s.canFrameOut k i ∈ (((s.emit (s.canFrameOut k i)).bump (R.canChnTxok k)).canTry k i false).out ∧
      ((((s.emit (s.canFrameOut k i)).bump (R.canChnTxok k)).canTry k i false).rd (R.canChnTxok k)).toNat = satAdd 32 (s.rd (R.canChnTxok k)).toNat 1 ∧
      (((s.emit (s.canFrameOut k i)).bump (R.canChnTxok k)).canTry k i false).rd (R.canChnStatus k) = s.rd (R.canChnStatus k) ∧
      (((s.emit (s.canFrameOut k i)).bump (R.canChnTxok k)).canTry k i false).can = (s.canTry k i false).can := by
    refine ⟨List.mem_append_right _ List.mem_cons_self, toNat_rd_bump hwe, rd_bump_ne h3, rfl⟩
  unfold State.sentOut
  extract_lets t
  change s.canFrameOut k i ∈ t.out ∧ (t.rd (R.canChnTxok k)).toNat = _ ∧ t.rd (R.canChnStatus k) = _ ∧ t.can = _ at ht
  clear_value t
  split
  · split
    · rw [rd_wr_ne h1, rd_wr_ne h2]
      exact ht
    · exact ht
  · exact ht

theorem frame_ackEnd {k : Nat} : Frame [.can] [] s (s.ackEnd k) := .can

theorem frame_notLonely {k : Nat} : Frame [.regs, .scan, .recd] canPlaces s (s.notLonely k) :=
  .ite (.trans frame_status frame_canRecovered) (.refl s)

theorem frame_tecDown {k : Nat} : Frame [.regs, .scan, .recd] canPlaces s (s.tecDown k) := .trans frame_status frame_canPassive

/-- Other bits of the status, and other registers of the block. -/
theorem fget_notLonely {k : Nat} (hw : s.regsWf = true) (hg : g.lo + g.width ≤ 32) (ho : 0xA000 ≤ g.off)
    (hd : g.off ≠ R.canChnStatus k ∨ g.lo + g.width ≤ 4 ∨ 5 ≤ g.lo) : (s.notLonely k).fget g = s.fget g := by
  unfold State.notLonely
  split
  · rw [State.canRecovered, fget_canEvent (regsWf_fset hw) ho]
    exact fget_fset_disjoint hw hg hd
  · rfl

/-- The whole of a frame sent. -/
theorem canSent_shows {k i : Nat} {tdc : Option (BitVec 7)} {live : Bool} (hw : s.regsWf = true) (hk : k < 4) :
    s.canFrameOut k i ∈ (s.canSent k i tdc live).out ∧
    ((s.canSent k i tdc live).rd (R.canChnTxok k)).toNat = satAdd 32 (s.rd (R.canChnTxok k)).toNat 1 ∧
    (s.canSent k i tdc live).fget (F.canChnStatus_tec k) = (if live then s.fget (F.canChnStatus_tec k) - 1 else s.fget (F.canChnStatus_tec k)) ∧
    (s.canSent k i tdc live).fget (F.canChnStatus_rec k) = s.fget (F.canChnStatus_rec k) ∧
    (s.canSent k i tdc live).canState k = s.canState k ∧
    (s.canSent k i tdc live).mem = s.mem ∧ (s.canSent k i tdc live).can = ((s.canTry k i false).ackEnd k).can := by
  obtain ⟨h1, h2, h3, h4⟩ := sentOut_shows (k := k) (i := i) (tdc := tdc) hw
  have hf1 := frame_sentOut (s := s) (k := k) (i := i) (tdc := tdc)
  rw [canSent_eq]
  generalize s.sentOut k i tdc = v at *
  have hwv : (v.ackEnd k).regsWf = true := hf1.canon hw
  have hst (lo w : Nat) : (v.ackEnd k).fget ⟨R.canChnStatus k, lo, w⟩ = s.fget ⟨R.canChnStatus k, lo, w⟩ := fget_congr h3
  have htx : ((v.ackEnd k).rd (R.canChnTxok k)).toNat = satAdd 32 (s.rd (R.canChnTxok k)).toNat 1 := h2
  have hout : s.canFrameOut k i ∈ (v.ackEnd k).out := h1
  have hcan : (v.ackEnd k).can = ((s.canTry k i false).ackEnd k).can := by rw [State.ackEnd, State.ackEnd, h4]
  have hmem : (v.ackEnd k).mem = s.mem := hf1.part .mem (by decide)
  generalize v.ackEnd k = w at *
  have hle := le_port (n := k) 0xA10C (by decide)
  have hne : R.canChnTxok k ≠ R.canChnStatus k := by simp only [R.canChnTxok, R.canChnStatus]; omega
  have htxs : R.canChnTxok k ≠ R.canStatus := by simp only [R.canChnTxok, R.canStatus]; omega
  have hfd : Frame [.regs, .scan, .recd] canPlaces w (if live then w.tecDown k else w) := .ite frame_tecDown (.refl w)
  have hwd := hfd.canon hwv
  have hf := (hfd.trans (frame_notLonely (k := k))).trans (frame_canShow hk)
  have hwp : (w.fset (F.canChnStatus_tec k) (w.fget (F.canChnStatus_tec k) - 1)).regsWf = true := regsWf_fset hwv
  have hfull (g : Field) (hg : g.lo + g.width ≤ 32) (ho : 0xA000 ≤ g.off) (hs : g.off ≠ R.canStatus)
      (hd : g.off ≠ R.canChnStatus k ∨ g.lo + g.width ≤ 4 ∨ 5 ≤ g.lo) :
      (((if live then w.tecDown k else w).notLonely k).canShow k).fget g = (if live then w.tecDown k else w).fget g := by
    rw [fget_canShow hs, fget_notLonely hwd hg ho hd]
  have hother (g : Field) (hg : g.lo + g.width ≤ 32) (ho : 0xA000 ≤ g.off)
      (hd : g.off ≠ R.canChnStatus k ∨ (g.lo + g.width ≤ 3 ∨ 16 ≤ g.lo)) : (if live then w.tecDown k else w).fget g = w.fget g := by
    split
    · rw [State.tecDown, fget_canPassive hwp hg ho (by omega)]
      exact fget_fset_disjoint hwv hg (hd.imp id fun h => by dsimp only; omega)
    · rfl
  have h32 (u : State) : (u.rd (R.canChnTxok k)).toNat = u.fget ⟨R.canChnTxok k, 0, 32⟩ := by
    rw [State.fget, fldN, Nat.pow_zero, Nat.div_one, Nat.mod_eq_of_lt (u.rd _).isLt]
  refine ⟨?_, ?_, ?_, ?_, ?_, ?_, ?_⟩
  · rw [(hf.part .out (by decide) : State.out _ = w.out)]
    exact hout
  · rw [h32, hfull _ (by simp) (le_port 0xA110 (by decide)) htxs (.inl hne), hother _ (by simp) (le_port 0xA110 (by decide)) (.inl hne), ← h32, htx]
  · rw [hfull _ (show 8 + 8 ≤ 32 by decide) hle status_ne (.inr (.inr (show 5 ≤ 8 by decide))), ← hst]
    cases live with
    | false => rfl
    | true =>
      have hlt : w.fget (F.canChnStatus_tec k) - 1 < 2 ^ 8 := Nat.lt_of_le_of_lt (Nat.sub_le _ _) (Nat.mod_lt _ (Nat.two_pow_pos _))
      rw [if_pos rfl, if_pos rfl, State.tecDown, fget_canPassive hwp (show 8 + 8 ≤ 32 by decide) hle (.inr (.inr (show 4 ≤ 8 by decide))),
        fget_status_self hwv]
      exact Nat.mod_eq_of_lt hlt
  · rw [hfull _ (show 16 + 8 ≤ 32 by decide) hle status_ne (.inr (.inr (show 5 ≤ 16 by decide))),
      hother _ (show 16 + 8 ≤ 32 by decide) hle (.inr (.inr (show 16 ≤ 16 by decide))), hst]
  · rw [State.canState, hfull _ (show 0 + 3 ≤ 32 by decide) hle status_ne (.inr (.inl (show 0 + 3 ≤ 4 by decide))),
      hother _ (show 0 + 3 ≤ 32 by decide) hle (.inr (.inl (show 0 + 3 ≤ 3 by decide))), hst]
    rfl
  · exact (hf.part .mem (by decide)).trans hmem
  · exact (hf.part .can (by decide)).trans hcan

/-! Attempts that fail (R316, R320). -/

theorem frame_canTecUp {k : Nat} (hn : n < 4) : Frame [.regs, .scan, .recd, .can] canPlaces s (s.canTecUp n k) := by
  unfold State.canTecUp
  extract_lets f v a b
  refine .ite (.trans (.trans ?_ frame_canEvent.sub) (frame_canShow hn)) (.trans frame_status frame_canPassive.sub)
  exact Frame.trans (t := a) (.trans (.trans frame_status frame_status) (frame_portCount (j := 0xA118) (by decide))) .can

/-- The transmit error counter up to 255. -/
theorem canTecUp_low {k : Nat} (hw : s.regsWf = true) (h : s.fget (F.canChnStatus_tec n) + k ≤ 255) :
    (s.canTecUp n k).can = s.can ∧ (s.canTecUp n k).fget (F.canChnStatus_tec n) = s.fget (F.canChnStatus_tec n) + k ∧
    (s.canTecUp n k).fget ⟨R.canChnErrs n, 0, 16⟩ = s.fget ⟨R.canChnErrs n, 0, 16⟩ := by
  have heq : s.canTecUp n k = (s.fset (F.canChnStatus_tec n) (s.fget (F.canChnStatus_tec n) + k)).canPassive n := if_neg (Nat.not_lt.mpr h)
  have hw1 : (s.fset (F.canChnStatus_tec n) (s.fget (F.canChnStatus_tec n) + k)).regsWf = true := regsWf_fset hw
  have hne : R.canChnErrs n ≠ R.canChnStatus n := by simp only [R.canChnErrs, R.canChnStatus]; omega
  have hf := frame_canPassive (s := s.fset (F.canChnStatus_tec n) (s.fget (F.canChnStatus_tec n) + k)) (n := n)
  rw [heq]
  refine ⟨(hf.part .can (by decide)).trans rfl, ?_, ?_⟩
  · rw [fget_canPassive hw1 (show 8 + 8 ≤ 32 by decide) (le_port 0xA10C (by decide)) (.inr (.inr (show 4 ≤ 8 by decide))), fget_status_self hw]
    exact Nat.mod_eq_of_lt (by omega)
  · rw [fget_canPassive hw1 (show 0 + 16 ≤ 32 by decide) (le_port 0xA118 (by decide)) (.inl hne), fget_fset_off hne]

/-- The delay of a bus-off begins. -/
def State.boBegin (v : State) (n : Nat) : State :=
  { v with can := { v.can with port := vmod v.can.port n (fun (p : CanPort) => { p with boDone := false }) } }

theorem frame_boBegin : Frame [.can] [] s (s.boBegin n) := .can

theorem canTecUp_above {k : Nat} (h : 255 < s.fget (F.canChnStatus_tec n) + k) : s.canTecUp n k =
    (((((s.fset (F.canChnStatus_tec n) 255).fset (F.canChnStatus_pstate n) canBusoff).bumpF ⟨R.canChnErrs n, 16, 16⟩).boBegin n).canEvent n 0x11
      []).canShow n := if_pos h

/-- Beyond it the port is in bus-off. -/
theorem canTecUp_high {k : Nat} (hw : s.regsWf = true) (hn : n < 4) (h : 255 < s.fget (F.canChnStatus_tec n) + k) :
    (s.canTecUp n k).canState n = canBusoff ∧ (vget (s.canTecUp n k).can.port n).boDone = false := by
  have hne : R.canChnStatus n ≠ R.canChnErrs n := by simp only [R.canChnErrs, R.canChnStatus]; omega
  have hw1 : ((s.fset (F.canChnStatus_tec n) 255).fset (F.canChnStatus_pstate n) canBusoff).regsWf = true := regsWf_fset (regsWf_fset hw)
  have hw2 := regsWf_bumpF (f := ⟨R.canChnErrs n, 16, 16⟩) hw1
  have hps : (((s.fset (F.canChnStatus_tec n) 255).fset (F.canChnStatus_pstate n) canBusoff).bumpF ⟨R.canChnErrs n, 16, 16⟩).fget
      (F.canChnStatus_pstate n) = canBusoff := by
    rw [fget_bumpF_off hne, fget_status_self (regsWf_fset hw)]
    rfl
  rw [canTecUp_above h]
  generalize ((s.fset (F.canChnStatus_tec n) 255).fset (F.canChnStatus_pstate n) canBusoff).bumpF ⟨R.canChnErrs n, 16, 16⟩ = v at *
  have hwv := (frame_boBegin (n := n)).canon hw2
  have hpv : (v.boBegin n).fget (F.canChnStatus_pstate n) = canBusoff :=
    (fget_congr (rd_of_frame frame_boBegin hw2 fun r hr => absurd hr List.not_mem_nil)).trans hps
  have hbo : (vget (v.boBegin n).can.port n).boDone = false := congrArg CanPort.boDone (vget_vmod_self hn)
  generalize v.boBegin n = w at *
  have hf : Frame [.regs, .scan, .recd] canPlaces w ((w.canEvent n 0x11 []).canShow n) := .trans frame_canEvent (frame_canShow hn)
  constructor
  · rw [State.canState, fget_canShow status_ne, fget_canEvent hwv (le_port 0xA10C (by decide)), hpv]
  · rw [(hf.part .can (by decide) : State.can _ = w.can)]
    exact hbo

/-- The run of acknowledgement errors of a port. -/
def State.ackRun (v : State) (n run : Nat) : State :=
  { v with can := { v.can with port := vmod v.can.port n (fun (p : CanPort) => { p with ackRun := run }) } }

theorem frame_ackRun {run : Nat} : Frame [.can] [] s (s.ackRun n run) := .can

theorem canAckError_passive (h : s.fbit (F.canChnStatus_epassive n) = true) : s.canAckError n =
    if (vget s.can.port n).ackRun + 1 = 32 ∧ !(s.ackRun n ((vget s.can.port n).ackRun + 1)).fbit (F.canChnStatus_lonely n) then
      (((s.ackRun n ((vget s.can.port n).ackRun + 1)).fset (F.canChnStatus_lonely n) 1).bump (R.canChnAckerr n)).canEvent n 0x12 []
    else s.ackRun n ((vget s.can.port n).ackRun + 1) := by
  rw [State.canAckError, if_pos h]
  rfl

section
variable {k i : Nat} (hw : s.regsWf = true) (hk : k < 4)
include hw hk

/-- An attempt noted and counted as an error. -/
theorem tried_shows {b : Bool} : ((s.canTry k i b).bumpF ⟨R.canChnErrs k, 0, 16⟩).regsWf = true ∧
    (∀ c, (((s.canTry k i b).bumpF ⟨R.canChnErrs k, 0, 16⟩).canBuf k c).queued = (s.canBuf k c).queued) ∧
    (∀ lo w, ((s.canTry k i b).bumpF ⟨R.canChnErrs k, 0, 16⟩).fget ⟨R.canChnStatus k, lo, w⟩ = s.fget ⟨R.canChnStatus k, lo, w⟩) ∧
    ((s.canTry k i b).bumpF ⟨R.canChnErrs k, 0, 16⟩).fget ⟨R.canChnErrs k, 0, 16⟩ = satAdd 16 (s.fget ⟨R.canChnErrs k, 0, 16⟩) 1 ∧
    ((s.canTry k i b).bumpF ⟨R.canChnErrs k, 0, 16⟩).out = s.out ∧
    (vget ((s.canTry k i b).bumpF ⟨R.canChnErrs k, 0, 16⟩).can.port k).ackRun = (vget s.can.port k).ackRun := by
  have hft : Frame [.can] [] s (s.canTry k i b) := frame_setBuf ..
  have hrd (o : Nat) : (s.canTry k i b).rd o = s.rd o := rd_of_frame hft hw fun r hr => absurd hr List.not_mem_nil
  have hq (c : Nat) : ((s.canTry k i b).canBuf k c).queued = (s.canBuf k c).queued :=
    queued_canTry hk c
  have hack : (vget (s.canTry k i b).can.port k).ackRun = (vget s.can.port k).ackRun := by
    rw [State.canTry, port_setBuf hk]
  have hwt := hft.canon hw
  have hout := hft.part .out (by decide)
  generalize s.canTry k i b = v at *
  have hne : R.canChnStatus k ≠ R.canChnErrs k := by simp only [R.canChnErrs, R.canChnStatus]; omega
  have hlt : satAdd 16 (s.fget ⟨R.canChnErrs k, 0, 16⟩) 1 < 2 ^ 16 := by
    unfold satAdd
    omega
  have hf : Frame [.regs] canPlaces v (v.bumpF ⟨R.canChnErrs k, 0, 16⟩) := frame_portCount (j := 0xA118) (by decide)
  have hcan := hf.part .can (by decide)
  refine ⟨regsWf_bumpF hwt, fun c => ?_, fun lo w => ?_, ?_, (hf.part .out (by decide)).trans hout, ?_⟩
  · rw [canBuf_of_can hcan]
    exact hq c
  · rw [fget_bumpF_off hne]
    exact fget_congr (hrd _)
  · rw [State.bumpF, fget_fset hwt (show 0 + 16 ≤ 32 by decide), fget_congr (hrd _)]
    exact Nat.mod_eq_of_lt hlt
  · rw [(hcan : State.can _ = v.can)]
    exact hack

theorem canFailed_arbitration (hq : (s.canBuf k i).queued = true) : ((s.canFailed k i .arbitration).canBuf k i).queued = true ∧
    (s.canFailed k i .arbitration).fget (F.canChnStatus_tec k) = s.fget (F.canChnStatus_tec k) ∧
    (s.canFailed k i .arbitration).out = s.out ∧ (s.canFailed k i .arbitration).canState k = s.canState k := by
  have hft : Frame [.can] [] s (s.canTry k i false) := frame_setBuf ..
  have hrd (o : Nat) : (s.canTry k i false).rd o = s.rd o := rd_of_frame hft hw fun r hr => absurd hr List.not_mem_nil
  have hqt : ((s.canTry k i false).canBuf k i).queued = true := (queued_canTry hk i).trans hq
  have heq : s.canFailed k i .arbitration = (s.canTry k i false).canShow k := rfl
  have hout := hft.part .out (by decide)
  rw [heq]
  generalize s.canTry k i false = v at *
  have hf : Frame [.regs] canPlaces v (v.canShow k) := frame_canShow hk
  refine ⟨?_, (fget_canShow status_ne).trans (fget_congr (hrd _)), (hf.part .out (by decide)).trans hout,
    (fget_canShow status_ne).trans (fget_congr (hrd _))⟩
  rw [canBuf_of_can (hf.part .can (by decide))]
  exact hqt

theorem canFailed_other (hq : (s.canBuf k i).queued = true) :
    (s.fget (F.canChnStatus_tec k) + 8 ≤ 255 → ((s.canFailed k i .other).canBuf k i).queued = true ∧
      (s.canFailed k i .other).fget (F.canChnStatus_tec k) = s.fget (F.canChnStatus_tec k) + 8 ∧
      (s.canFailed k i .other).fget ⟨R.canChnErrs k, 0, 16⟩ = satAdd 16 (s.fget ⟨R.canChnErrs k, 0, 16⟩) 1 ∧
      (s.canFailed k i .other).out = s.out) ∧
    (255 < s.fget (F.canChnStatus_tec k) + 8 → (s.canFailed k i .other).canState k = canBusoff ∧
      (vget (s.canFailed k i .other).can.port k).boDone = false ∧ (s.canFailed k i .other).out = s.out) := by
  obtain ⟨hwt, hqt, hst, her, hout, -⟩ := tried_shows (i := i) (b := false) hw hk
  have heq : s.canFailed k i .other = (((s.canTry k i false).bumpF ⟨R.canChnErrs k, 0, 16⟩).canTecUp k 8).canShow k := rfl
  rw [heq]
  generalize (s.canTry k i false).bumpF ⟨R.canChnErrs k, 0, 16⟩ = v at *
  have hu := frame_canTecUp (s := v) (k := 8) hk
  have hsh : Frame [.regs] canPlaces (v.canTecUp k 8) ((v.canTecUp k 8).canShow k) := frame_canShow hk
  have hcan : ((v.canTecUp k 8).canShow k).can = (v.canTecUp k 8).can := hsh.part .can (by decide)
  have ho : ((v.canTecUp k 8).canShow k).out = s.out := ((hsh.part .out (by decide)).trans (hu.part .out (by decide))).trans hout
  have htec : v.fget (F.canChnStatus_tec k) = s.fget (F.canChnStatus_tec k) := hst 8 8
  rw [← htec]
  refine ⟨fun h => ?_, fun h => ?_⟩
  · obtain ⟨h1, h2, h3⟩ := canTecUp_low hwt h
    refine ⟨?_, ?_, ?_, ho⟩
    · rw [canBuf_of_can (hcan.trans h1), hqt, hq]
    · rw [fget_canShow status_ne, h2]
    · rw [fget_canShow (by simp only [R.canChnErrs, R.canStatus]; omega), h3, her]
  · obtain ⟨h1, h2⟩ := canTecUp_high hwt hk h
    refine ⟨?_, ?_, ho⟩
    · rw [State.canState, fget_canShow status_ne]
      exact h1
    · rw [hcan, h2]

theorem canFailed_ack (hp : s.fbit (F.canChnStatus_epassive k) = true) :
    (s.canFailed k i .ack).fget (F.canChnStatus_tec k) = s.fget (F.canChnStatus_tec k) ∧
      (vget (s.canFailed k i .ack).can.port k).ackRun = (vget s.can.port k).ackRun + 1 := by
  obtain ⟨hwt, -, hst, -, -, hack⟩ := tried_shows (i := i) (b := false) hw hk
  have heq : s.canFailed k i .ack = (((s.canTry k i false).bumpF ⟨R.canChnErrs k, 0, 16⟩).canAckError k).canShow k := rfl
  rw [heq]
  generalize (s.canTry k i false).bumpF ⟨R.canChnErrs k, 0, 16⟩ = v at *
  have hpv : v.fbit (F.canChnStatus_epassive k) = true := by rw [State.fbit, hst]; exact hp
  have htec : v.fget (F.canChnStatus_tec k) = s.fget (F.canChnStatus_tec k) := hst 8 8
  have hsh (u : State) : (u.canShow k).can = u.can := (frame_canShow hk (ps := [.regs])).part .can (by decide)
  rw [fget_canShow status_ne, hsh, canAckError_passive hpv, ← hack, ← htec]
  generalize (vget v.can.port k).ackRun + 1 = run
  have hww := (frame_ackRun (n := k) (run := run)).canon hwt
  have hwc : (vget (v.ackRun k run).can.port k).ackRun = run := congrArg CanPort.ackRun (vget_vmod_self hk)
  rw [← fget_congr (rd_of_frame (frame_ackRun (n := k) (run := run)) hwt fun r hr => absurd hr List.not_mem_nil)]
  generalize v.ackRun k run = w at *
  split
  · have hne : R.canChnStatus k ≠ R.canChnAckerr k := by simp only [R.canChnAckerr, R.canChnStatus]; omega
    have hf : Frame [.regs, .scan, .recd] canPlaces w (((w.fset (F.canChnStatus_lonely k) 1).bump (R.canChnAckerr k)).canEvent k 0x12 []) :=
      .trans (.trans frame_status (frame_portBump (j := 0xA11C) (by decide))) frame_canEvent
    refine ⟨?_, ?_⟩
    · rw [fget_canEvent (regsWf_bump (regsWf_fset hww)) (le_port 0xA10C (by decide)), fget_bump_off hne, fget_status hww]
    · rw [(hf.part .can (by decide) : State.can _ = w.can), hwc]
  · exact ⟨rfl, hwc⟩

end

/-! Transmission, as the commands do it. -/

section
variable {n : Fin 4} {b : Nat}

theorem exec_txSuccess_active {tdc : Option (BitVec 7)} (hb : s.canPick n = some b) (hs : s.canState n = canActive) (hp : s.canPermitted = true) :
    exec (.canTxSuccess n tdc) s = .next ((s.setBuf n b (fun b => { b with queued := false })).canSent n b tdc true) := by
  rw [exec_canTxSuccess, execCanTxSuccess]
  simp only [hs, hp, hb, and_self, if_true]

theorem exec_txError_active {e : CanErr} (hb : s.canPick n = some b) (hs : s.canState n = canActive) (hp : s.canPermitted = true) :
    exec (.canTxError n e) s = .next (s.canFailed n b e) := by
  rw [exec_canTxError, execCanTxError]
  simp only [hs, hp, hb, and_self, if_true]

theorem exec_txSuccess_leaving {tdc : Option (BitVec 7)} (hs : s.canState n = canRestricted) (hb : s.canLeaving n = some b) :
    exec (.canTxSuccess n tdc) s = .next (((s.setBuf n b (fun b => { b with queued := false })).canLeft n).canSent n b tdc false) := by
  have h : ¬ (s.canState n.val = canActive ∧ s.canPermitted = true) := by
    rintro ⟨h, -⟩
    rw [hs] at h
    cases h
  rw [exec_canTxSuccess, execCanTxSuccess]
  simp only [if_neg h, if_pos hs, hb]

theorem txSuccess_active (hw : s.regsWf = true) {tdc : Option (BitVec 7)} (hb : s.canPick n = some b) (hs : s.canState n = canActive)
    (hp : s.canPermitted = true) :
    ∃ t, exec (.canTxSuccess n tdc) s = .next t ∧ s.canFrameOut n b ∈ t.out ∧ (t.canBuf n b).queued = false ∧
      (∀ c : Fin 64, c.val ≠ b → t.canBuf n c = s.canBuf n c) ∧
      t.fget (F.canChnStatus_tec n) = s.fget (F.canChnStatus_tec n) - 1 ∧
      (t.rd (R.canChnTxok n)).toNat = satAdd 32 (s.rd (R.canChnTxok n)).toNat 1 ∧ t.mem = s.mem := by
  obtain ⟨hb64, -⟩ := canPick_queued hb
  have hwu : (s.setBuf n b (fun b => { b with queued := false })).regsWf = true := hw
  obtain ⟨h1, h2, h3, -, -, h6, h7⟩ := canSent_shows (i := b) (tdc := tdc) (live := true) hwu n.isLt
  have hcan : ∀ c, (((s.setBuf n b (fun b => { b with queued := false })).canSent n b tdc true).canBuf n c) =
      (((s.setBuf n b (fun b => { b with queued := false })).canTry n b false).canBuf n c) := fun c => by
    rw [State.canBuf, h7, State.ackEnd, vget_vmod_self n.isLt]
    rfl
  have hout : (s.setBuf n b (fun b => { b with queued := false })).canFrameOut n b = s.canFrameOut n b :=
    canFrameOut_of ((frame_setBuf ..).part .mem (by decide)) ((frame_setBuf ..).part .act (by decide)) (content_unqueued n.isLt b)
  refine ⟨_, exec_txSuccess_active hb hs hp, hout ▸ h1, ?_, fun c hc => ?_, h3, h2, h6⟩
  · rw [hcan, State.canTry, canBuf_setBuf n.isLt hb64, canBuf_setBuf n.isLt hb64]
  · rw [hcan, State.canTry, canBuf_setBuf_ne n.isLt hc, canBuf_setBuf_ne n.isLt hc]

theorem txSuccess_leaving (hw : s.regsWf = true) {tdc : Option (BitVec 7)} (hs : s.canState n = canRestricted) (hb : s.canLeaving n = some b) :
    ∃ t, exec (.canTxSuccess n tdc) s = .next t ∧
      s.canFrameOut n b ∈ t.out ∧ t.canLeaving n = none ∧ t.fget (F.canChnStatus_tec n) = s.fget (F.canChnStatus_tec n) ∧
      t.fget (F.canChnStatus_rec n) = s.fget (F.canChnStatus_rec n) ∧ t.canState n = canRestricted ∧
      (t.rd (R.canChnTxok n)).toNat = satAdd 32 (s.rd (R.canChnTxok n)).toNat 1 ∧ t.mem = s.mem := by
  have hfl : Frame [.can] [] s ((s.setBuf n b (fun b => { b with queued := false })).canLeft n) :=
    Frame.trans (t := s.setBuf n b (fun b => { b with queued := false })) (frame_setBuf ..) .can
  have hwu := hfl.canon hw
  obtain ⟨h1, h2, h3, h4, h5, h6, h7⟩ := canSent_shows (i := b) (tdc := tdc) (live := false) hwu n.isLt
  have hl : (vget (((s.setBuf n b (fun b => { b with queued := false })).canLeft n).canSent n b tdc false).can.port n).leaving = [] := by
    rw [h7, State.ackEnd, vget_vmod_self n.isLt]
    refine (leaving_setBuf n.isLt).trans ?_
    exact congrArg CanPort.leaving (vget_vmod_self n.isLt)
  have hleft : ((s.setBuf n b (fun b => { b with queued := false })).canLeft n).canBuf n b =
      (s.setBuf n b (fun b => { b with queued := false })).canBuf n b := by
    rw [State.canBuf, State.canLeft, vget_vmod_self n.isLt]
    rfl
  have hout : ((s.setBuf n b (fun b => { b with queued := false })).canLeft n).canFrameOut n b = s.canFrameOut n b :=
    canFrameOut_of (hfl.part .mem (by decide)) (hfl.part .act (by decide)) ((congrArg _ hleft).trans (content_unqueued n.isLt b))
  refine ⟨_, exec_txSuccess_leaving hs hb, hout ▸ h1, ?_, h3, h4, h5.trans hs, h2, h6⟩
  rw [State.canLeaving, hl]
  rfl

theorem tx_rests {tdc : Option (BitVec 7)} {e : CanErr} (hp : s.canPick n = none) (hl : s.canLeaving n = none) :
    exec (.canTxSuccess n tdc) s = .next s ∧ exec (.canTxError n e) s = .next s := by
  constructor
  · rw [exec_canTxSuccess, execCanTxSuccess]
    simp only [hp, hl, ite_self]
  · rw [exec_canTxError, execCanTxError]
    simp only [hp, hl, ite_self]

end

/-- Settles O53: each command's own lemma. -/
theorem canPorts : Obligations.CanPorts := by
  unfold Obligations.CanPorts
  refine ⟨fun m s hw => ⟨fun mask fault n hm => ?_, fun mask hm => ?_, fun n => ⟨fun hs => integrationDone_shows hw hs, fun hs => when_neg ?_,
    fun hc => transceiverFault_shows hw hc, fun hs => ?_, fun hs hb => busoffRecovery_shows hw hs hb, fun hb => when_neg ?_,
    fun hc => collideClear_shows hw hc, fun hc => when_neg hc⟩⟩, fun n s hw => ?_⟩
  · exact ⟨_, asWrite_writes (f := fun s => s.canStart mask fault) hm, canStart_shows hw n.isLt⟩
  · exact ⟨_, asWrite_writes (f := fun s => s.canStop mask) hm, canStop_shows hw⟩
  · exact beq_false_of_ne hs
  · obtain ⟨h1, h2⟩ := port_vmod (v := s.can.port) (f := fun (p : CanPort) => { p with boDone := true }) (n := n)
    exact ⟨_, when_pos (beq_iff_eq.mpr hs), by rw [h1], h2, rfl⟩
  · rw [hb, Bool.and_false]
  · intro tec rec_ errs
    refine ⟨fun rxid esi dlc data hs hl => ⟨fun hno => ?_, fun f hf ho hh => ?_⟩, fun rxid esi dlc hs => ?_,
      fun hs rxid esi remote dlc data => ?_, fun heavy hs => ?_, fun heavy hs => canRxError_active hw heavy hs, fun hs heavy => ?_,
      fun b tdc hb hs hp => ?_, fun b tdc hs _ hb => txSuccess_leaving hw hs hb, fun tdc e hp hl => tx_rests hp hl⟩
    · exact ⟨_, exec_canFrameRx_takes hs hl, canFilterFrame_unmatched hw (.inr hno)⟩
    · obtain ⟨o, h1, h2, h3, h4, h5, h6, h7⟩ := canFilterFrame_object (dlc := dlc.toNat + bit esi * 16) (data := data) hw hf ho hh
      exact ⟨_, o, exec_canFrameRx_takes hs hl, h1, h2, h3, h4, by rw [h5, Nat.mul_comm], h6, h7⟩
    · exact ⟨_, exec_canFrameRx_takes hs rfl, canFilterFrame_unmatched hw (.inl rfl)⟩
    · exact when_neg (by rw [hs]; rfl)
    · have hcond : (s.canState n.val == canRestricted || s.canState n.val == canActive) = true := by rw [hs]; rfl
      exact ⟨_, (when_pos hcond).trans (congrArg Host.Outcome.next (if_pos hs)), onlyRegs_wr, toNat_rd_bump hw⟩
    · exact when_neg (by rw [hs]; rfl)
    · obtain ⟨-, hq⟩ := canPick_queued hb
      obtain ⟨a1, a2, a3, a4⟩ := canFailed_arbitration hw n.isLt hq
      obtain ⟨o1, o2⟩ := canFailed_other hw n.isLt hq
      exact ⟨txSuccess_active hw hb hs hp, ⟨_, exec_txError_active hb hs hp, a1, a2, a3, a4.trans hs⟩,
        fun h => ⟨_, exec_txError_active hb hs hp, o1 h⟩, fun h => ⟨_, exec_txError_active hb hs hp, o2 h⟩,
        fun h => ⟨_, exec_txError_active hb hs hp, canFailed_ack hw n.isLt h⟩⟩

end Sys2Proof.Machine
end

section
/-! The event recorder: acceptance, flushing, freezing and re-arming (R407 to R419). -/

namespace Sys2Proof.Machine

variable {s t u : State} {r : Record}

/-! Delivery (R412). -/

theorem frame_eqPut {p kind : Nat} {body : List Byte} (hp : p < 2) : Frame [.out, .regs, .host] [.blk 0xb] s (s.eqPut p kind body) := by
  refine .ite (.refl s) (.ite ?_ ?_)
  · exact Frame.trans (Frame.host (s := s)) (frame_eqServe _ p hp).sub
  · exact Frame.trans (Frame.host (s := s)) (.bump (cover_span 0xB000 0xC000 (by simp only [R.hostPpEqLost]; omega)))

theorem frame_eqRecord : Frame [.out, .regs, .host] [.blk 0xb] s (s.eqRecord r) := by
  refine Frame.foldl (fun u p hp => .ite (frame_eqPut ?_) (.refl u)) s
  simp only [List.mem_cons, List.not_mem_nil, or_false] at hp
  omega

theorem frame_drayEvent : Frame [.regs, .dray] [.blk 0xd] s (s.drayEvent r) :=
  .ite (.refl s) (.ite .bump (Frame.trans (Frame.dray (s := s)) frame_drayShow.sub))

/-- Delivery changes nothing of the recorder. -/
theorem frame_deliver : Frame [.out, .regs, .host, .dray] [.blk 0xb, .blk 0xd] s (s.deliver r) :=
  (frame_eqRecord (r := r)).sub.trans frame_drayEvent.sub

/-! Staging and flushes (R413). -/

theorem frame_stage : Frame [.regs, .recd] [.reg R.recStaged, .reg R.recCount] s (s.stage r) :=
  Frame.trans (Frame.trans (Frame.recd (s := s)) .wr) .wr

theorem stage_shows (hw : s.regsWf = true) : (s.stage r).recd = { s.recd with staging := s.recd.staging ++ [r] } ∧
    (s.stage r).rd R.recCount = s.rd R.recCount + 1 ∧
    (s.stage r).rd R.recStaged = BitVec.ofNat 32 (s.recd.staging.length + 1) := by
  have hl : (s.recd.staging ++ [r]).length = s.recd.staging.length + 1 := by rw [List.length_append]; rfl
  have hwq : State.regsWf { s with recd := { s.recd with staging := s.recd.staging ++ [r] } } = true := hw
  unfold State.stage
  extract_lets q
  refine ⟨by rw [State.wr, State.wr], rd_wr_self (regsWf_wr hwq), ?_⟩
  rw [rd_wr_ne (by decide), rd_wr_self hwq, ← hl]

theorem frame_flushStart {b : Bool} : Frame [.regs] [.fld F.recStatus_flushing] s (s.flushStart b) := .ite (.refl s) .fset

/-- A flush begins, or goes on. -/
theorem flushStart_flushes (hw : s.regsWf = true) (hr : s.recd.rearming = none) (hf : s.fbit F.recStatus_frozen = false) :
    (s.flushStart false).fbit F.recStatus_flushing = true := by
  rw [State.flushStart, State.frozen, hf, hr]
  cases hfl : s.fbit F.recStatus_flushing with
  | true =>
    rw [State.flushing, hfl]
    exact hfl
  | false =>
    rw [State.flushing, hfl, if_neg (by decide), fbit_fset hw (by decide)]
    rfl

/-! Acceptance (R411). -/

theorem frame_setRate1 {e : RateRow} : Frame [.recd] [] s (s.setRate1 e) := .recd

/-- The raised records without the one accepted. -/
def State.unraised (s : State) (l : List Record) : State := { s with recd := { s.recd with raised := l } }

theorem exec_recordAccept_takes {r0 : Record} {raised : List Record} (hr : s.recd.raised = r0 :: raised) (hc : s.power.chip = true) :
    exec .recordAccept s = .next ((s.unraised ((r0 :: raised).erase (nextRaised raised r0))).accept (nextRaised raised r0)) := by
  rw [exec_recordAccept, execRecordAccept, hr]
  exact when_pos hc

/-- A record that its source's rate suppresses. -/
def State.beyond (s : State) (r : Record) : Prop := s.aget F.recCfg_rate ≤ (s.rateRow r).count ∧ r.priv = false ∧ r.sev.toNat < 2

theorem accept_full (hf : s.fbit F.recStatus_full = true) : s.accept r = s.keep r := if_pos hf

theorem accept_beyond (hf : s.fbit F.recStatus_full = false) (hb : s.beyond r) :
    ∃ e, s.accept r = (s.setRate1 e).bump R.recSuppressed := by
  obtain ⟨h1, h2, h3⟩ := hb
  refine ⟨_, (if_neg (by rw [hf]; exact Bool.false_ne_true)).trans (if_pos ⟨h1, ?_, h3⟩)⟩
  rw [h2]
  rfl

theorem accept_within (hf : s.fbit F.recStatus_full = false) (hb : ¬ s.beyond r) : ∃ e, s.accept r = (s.setRate1 e).keep r := by
  refine ⟨_, (if_neg (by rw [hf]; exact Bool.false_ne_true)).trans (if_neg ?_)⟩
  rintro ⟨h1, h2, h3⟩
  exact hb ⟨h1, by simpa using h2, h3⟩

theorem keep_full (hw : s.regsWf = true) (hf : s.fbit F.recStatus_full = true) :
    ((s.keep r).rd R.recRefused).toNat = satAdd 32 (s.rd R.recRefused).toNat 1 ∧ (s.keep r).recd = s.recd := by
  have heq : s.keep r = (s.bump R.recRefused).deliver { r with unkept := true } := if_pos hf
  have hb : Frame [.regs] [.blk 0x12] s (s.bump R.recRefused) := .bump
  have hd := frame_deliver (s := s.bump R.recRefused) (r := { r with unkept := true })
  rw [heq, hd.rd (hb.canon hw), toNat_rd_bump hw]
  exact ⟨rfl, (hd.part .recd (by decide)).trans (hb.part .recd (by decide))⟩

/-- The staging full: the record counts among those lost. -/
def State.overflowed (s : State) (r : Record) : State :=
  { s with recd := { s.recd with
    ovfCount := s.recd.ovfCount + 1, ovfLast := r.time
    ovfFirst := if s.recd.ovfCount = 0 then r.time else s.recd.ovfFirst } }

theorem frame_overflowed : Frame [.recd] [] s (s.overflowed r) := .recd

theorem keep_overflow (hw : s.regsWf = true) (hf : s.fbit F.recStatus_full = false) (hl : 4096 ≤ s.recd.staging.length) :
    ((s.keep r).rd R.recOvf).toNat = satAdd 32 (s.rd R.recOvf).toNat 1 ∧ (s.keep r).fbit F.recStatus_stageOvf = true ∧
    (s.keep r).recd = (s.overflowed r).recd := by
  have heq : s.keep r = (((s.overflowed r).bump R.recOvf).fset F.recStatus_stageOvf 1).deliver { r with unkept := true } :=
    (if_neg (by rw [hf]; exact Bool.false_ne_true)).trans (if_pos hl)
  have hwo := (frame_overflowed (r := r)).canon hw
  have hrd : (s.overflowed r).rd R.recOvf = s.rd R.recOvf := frame_overflowed.rd hw
  rw [heq]
  generalize s.overflowed r = v at *
  have hwb : (v.bump R.recOvf).regsWf = true := regsWf_bump hwo
  have hb : Frame [.regs] [.blk 0x12] v ((v.bump R.recOvf).fset F.recStatus_stageOvf 1) := .trans .bump .fset
  have hd := frame_deliver (s := (v.bump R.recOvf).fset F.recStatus_stageOvf 1) (r := { r with unkept := true })
  refine ⟨?_, ?_, (hd.part .recd (by decide)).trans (hb.part .recd (by decide))⟩
  · rw [hd.rd (hb.canon hwo), rd_fset_ne (by decide), toNat_rd_bump hwo, hrd]
  · rw [hd.fbit (hb.canon hwo), fbit_fset hwb (by decide)]
    rfl

/-- A record staged, outside the marks of the area. -/
theorem keep_stages (hw : s.regsWf = true) (hf : s.fbit F.recStatus_full = false) (hl : s.recd.staging.length < 4096)
    (h1 : (s.rd R.recCount).toNat + 1 ≠ 917504) (h2 : (s.rd R.recCount).toNat + 2 ≠ 1048576) :
    (s.keep r).recd = { s.recd with staging := s.recd.staging ++ [r] } ∧
    (s.keep r).rd R.recCount = s.rd R.recCount + 1 ∧ (s.keep r).rd R.recStaged = BitVec.ofNat 32 (s.recd.staging.length + 1) ∧
    (s.aget F.recCfg_flushSev ≤ r.sev.toNat → s.recd.rearming = none → s.fbit F.recStatus_frozen = false →
      (s.keep r).fbit F.recStatus_flushing = true) ∧ (s.keep r).mem = s.mem := by
  have hm : ((s.stage r).deliver r).areaMarks (s.rd R.recCount).toNat = (s.stage r).deliver r := (if_neg h1).trans (if_neg h2)
  have heq : s.keep r = if ((s.stage r).deliver r).aget F.recCfg_flushSev ≤ r.sev.toNat ∨ ((s.stage r).deliver r).recd.staging.length ≥ 3072
      then ((s.stage r).deliver r).flushStart false else (s.stage r).deliver r := by
    rw [← hm]
    exact (if_neg (by rw [hf]; exact Bool.false_ne_true)).trans (if_neg (Nat.not_le.mpr hl))
  obtain ⟨e1, e2, e3⟩ := stage_shows (r := r) hw
  have hs := frame_stage (s := s) (r := r)
  have hd := frame_deliver (s := s.stage r) (r := r)
  have hwd := hd.canon (hs.canon hw)
  have hrec : ((s.stage r).deliver r).recd = { s.recd with staging := s.recd.staging ++ [r] } := (hd.part .recd (by decide)).trans e1
  have hact : ((s.stage r).deliver r).act = s.act := (hd.part .act (by decide)).trans (hs.part .act (by decide))
  have hmem : ((s.stage r).deliver r).mem = s.mem := (hd.part .mem (by decide)).trans (hs.part .mem (by decide))
  have hcnt := (hd.rd (o := R.recCount) (hs.canon hw)).trans e2
  have hstg := (hd.rd (o := R.recStaged) (hs.canon hw)).trans e3
  have hfz := (hd.fbit (f := F.recStatus_frozen) (hs.canon hw)).trans (hs.fbit hw)
  rw [heq]
  generalize (s.stage r).deliver r = v at *
  have hag : v.aget F.recCfg_flushSev = s.aget F.recCfg_flushSev := by rw [State.aget, State.aget, State.actv, State.actv, hact]
  have hfr : Frame [.regs] [.fld F.recStatus_flushing] v (if v.aget F.recCfg_flushSev ≤ r.sev.toNat ∨ v.recd.staging.length ≥ 3072
      then v.flushStart false else v) := .ite frame_flushStart (.refl v)
  refine ⟨(hfr.part .recd (by decide)).trans hrec, (hfr.rd hwd).trans hcnt, (hfr.rd hwd).trans hstg, fun hsev hra hz => ?_,
    (hfr.part .mem (by decide)).trans hmem⟩
  rw [if_pos (.inl (by rw [hag]; exact hsev))]
  exact flushStart_flushes hwd (by rw [hrec]; exact hra) (hfz.trans hz)

/-! The end of a flush (R413, R414). -/

/-- A staged record as the flush leaves it. -/
def State.flushedAs (s : State) (lost : List Nat) (i : Nat) : Record :=
  if lost.contains i then s.mkRecord hapLost 0 [1] else s.recd.staging.getD i {}

/-- The staged records, those lost marked. -/
def State.flushedNew (s : State) (lost : List Nat) : List Record := (List.range s.recd.staging.length).map (s.flushedAs lost)

/-- The state in which a flush has ended. -/
def State.flushed (s : State) (lost : List Nat) : State :=
  (({ s with recd := { s.recd with staging := [], area := s.recd.area ++ s.flushedNew lost, freezeReq := none } }.wr R.recStaged 0).wr
    R.recFlushed (BitVec.ofNat 32 (s.recd.area ++ s.flushedNew lost).length) |>.bumpBy R.recLost
    ((List.range s.recd.staging.length).filter (fun i => lost.contains i)).length).bump R.recFlushes |>.fset F.recStatus_flushing 0

theorem exec_flushEnd_ends {lost : List Nat} (hf : s.fbit F.recStatus_flushing = true) (hr : s.power.restarting = false)
    (hq : s.recd.freezeReq = none) : exec (.flushEnd lost) s = .next (s.flushed lost) := by
  rw [exec_flushEnd, execFlushEnd, hq, hr]
  exact when_pos hf

theorem flushed_shows {lost : List Nat} (hw : s.regsWf = true) :
    (s.flushed lost).recd = { s.recd with staging := [], area := s.recd.area ++ s.flushedNew lost, freezeReq := none } ∧
    (s.flushed lost).fbit F.recStatus_flushing = false ∧ (s.flushed lost).rd R.recStaged = 0 ∧
    (s.flushed lost).rd R.recFlushed = BitVec.ofNat 32 (s.recd.area ++ s.flushedNew lost).length ∧
    ((s.flushed lost).rd R.recFlushes).toNat = satAdd 32 (s.rd R.recFlushes).toNat 1 ∧
    ((s.flushed lost).rd R.recLost).toNat = satAdd 32 (s.rd R.recLost).toNat
      ((List.range s.recd.staging.length).filter (fun i => lost.contains i)).length ∧
    (s.flushed lost).mem = s.mem := by
  unfold State.flushed
  generalize s.recd.area ++ s.flushedNew lost = area
  generalize ((List.range s.recd.staging.length).filter (fun i => lost.contains i)).length = k
  have hf : Frame [.recd] [] s { s with recd := { s.recd with staging := [], area := area, freezeReq := none } } := .recd
  have hrec : State.recd { s with recd := { s.recd with staging := [], area := area, freezeReq := none } } =
    { s.recd with staging := [], area := area, freezeReq := none } := rfl
  generalize ({ s with recd := { s.recd with staging := [], area := area, freezeReq := none } } : State) = v at *
  have hw0 := hf.canon hw
  have hw1 : (v.wr R.recStaged 0).regsWf = true := regsWf_wr hw0
  have hw2 : ((v.wr R.recStaged 0).wr R.recFlushed (BitVec.ofNat 32 area.length)).regsWf = true := regsWf_wr hw1
  have hw3 : (((v.wr R.recStaged 0).wr R.recFlushed (BitVec.ofNat 32 area.length)).bumpBy R.recLost k).regsWf = true := regsWf_bumpBy hw2
  have hfr : Frame [.regs] [.blk 0x12] v ((((v.wr R.recStaged 0).wr R.recFlushed (BitVec.ofNat 32 area.length)).bumpBy R.recLost k).bump
      R.recFlushes |>.fset F.recStatus_flushing 0) := .trans (.trans (.trans (.trans .wr .wr) .bumpBy) .bump) .fset
  refine ⟨(hfr.part .recd (by decide)).trans hrec, ?_, ?_, ?_, ?_, ?_, (hfr.part .mem (by decide)).trans (hf.part .mem (by decide))⟩
  · rw [fbit_fset (regsWf_bump hw3) (by decide)]
    rfl
  · rw [rd_fset_ne (by decide), rd_bump_ne (by decide), rd_bumpBy_ne (by decide), rd_wr_ne (by decide), rd_wr_self hw0]
  · rw [rd_fset_ne (by decide), rd_bump_ne (by decide), rd_bumpBy_ne (by decide), rd_wr_self hw1]
  · rw [rd_fset_ne (by decide), toNat_rd_bump hw3, rd_bumpBy_ne (by decide), rd_wr_ne (by decide), rd_wr_ne (by decide), hf.rd hw]
  · rw [rd_fset_ne (by decide), rd_bump_ne (by decide), toNat_rd_bumpBy hw2, rd_wr_ne (by decide), rd_wr_ne (by decide), hf.rd hw]

theorem length_flushedNew {lost : List Nat} : (s.flushedNew lost).length = s.recd.staging.length := by
  rw [State.flushedNew, List.length_map, List.length_range]

theorem flushedNew_whole : s.flushedNew [] = s.recd.staging := by
  apply List.ext_getElem length_flushedNew
  intro i h1 h2
  simp only [State.flushedNew, List.getElem_map, List.getElem_range, State.flushedAs, List.contains_nil, Bool.false_eq_true, if_false]
  rw [List.getD_eq_getElem?_getD, List.getElem?_eq_getElem h2, Option.getD_some]

/-- The one record lost. -/
theorem flushedNew_lost {i : Nat} (hi : i < s.recd.staging.length) : (s.flushedNew [i])[i]? = some (s.mkRecord hapLost 0 [1]) := by
  rw [List.getElem?_eq_getElem (by rw [length_flushedNew]; exact hi)]
  simp [State.flushedNew, State.flushedAs]

theorem count_lost {i : Nat} (hi : i < s.recd.staging.length) :
    ((List.range s.recd.staging.length).filter (fun j => [i].contains j)).length = 1 := by
  have : (fun j => [i].contains j) = (fun j => j == i) := by
    funext j
    rw [List.contains_cons, List.contains_nil, Bool.or_false]
  rw [this, List.filter_beq, List.count_range, if_pos hi]
  rfl

theorem flushEnd_shows {lost : List Nat} (hw : s.regsWf = true) (hf : s.fbit F.recStatus_flushing = true)
    (hr : s.power.restarting = false) (hq : s.recd.freezeReq = none) :
    ∃ t, exec (.flushEnd lost) s = .next t ∧ t.recd.staging = [] ∧ t.fbit F.recStatus_flushing = false ∧ t.rd R.recStaged = 0 ∧
      t.recd.area.length = s.recd.area.length + s.recd.staging.length ∧
      t.rd R.recFlushed = BitVec.ofNat 32 t.recd.area.length ∧
      (t.rd R.recFlushes).toNat = satAdd 32 (s.rd R.recFlushes).toNat 1 ∧
      (lost = [] → t.recd.area = s.recd.area ++ s.recd.staging) ∧
      (∀ i, lost = [i] → i < s.recd.staging.length → (t.rd R.recLost).toNat = satAdd 32 (s.rd R.recLost).toNat 1 ∧
        ∃ r, t.recd.area[s.recd.area.length + i]? = some r ∧ r.code = 4) ∧ t.mem = s.mem := by
  obtain ⟨h1, h2, h3, h4, h5, h6, h7⟩ := flushed_shows (lost := lost) hw
  refine ⟨_, exec_flushEnd_ends hf hr hq, by rw [h1], h2, h3, ?_, ?_, h5, fun hl => ?_, fun i hl hi => ⟨?_, s.mkRecord hapLost 0 [1], ?_, rfl⟩, h7⟩
  · rw [h1, List.length_append, length_flushedNew]
  · rw [h4, h1]
  · rw [h1, hl, flushedNew_whole]
  · rw [h6, hl, count_lost hi]
  · rw [h1, hl, List.getElem?_append_right (Nat.le_add_right _ _), Nat.add_sub_cancel_left, flushedNew_lost hi]

/-! REC_CTRL (R417 to R419). -/

/-- The word of a command of REC_CTRL. -/
theorem recCtrlWord_fields {cmd : Nat} {key : BitVec 16} (hc : cmd < 4) : bitN (recCtrlWord cmd key).toNat 4 = false ∧
    fldN (recCtrlWord cmd key).toNat 0 4 = cmd ∧ fldN (recCtrlWord cmd key).toNat 16 16 = key.toNat := by
  have hk := key.isLt
  have hv : (recCtrlWord cmd key).toNat = key.toNat * 65536 + cmd := by
    rw [recCtrlWord, BitVec.toNat_ofNat]
    omega
  rw [hv]
  refine ⟨?_, ?_, ?_⟩
  · rw [bitN, Nat.testBit_eq_decide_div_mod_eq, decide_eq_false_iff_not]
    omega
  · rw [fldN]
    omega
  · rw [fldN]
    omega

/-- What a command of REC_CTRL asks for. -/
def State.recCmdOf (s : State) (cmd : Nat) : Option State :=
  match cmd with
  | 1 => s.freeze .register
  | 2 => s.unfreeze
  | _ => s.rearm .register

theorem recCmdOf_rearm : s.recCmdOf 3 = s.rearm .register := rfl

theorem recCtrl_keyed {cmd : Nat} (hc : cmd = 1 ∨ cmd = 2 ∨ cmd = 3) : s.recCtrl (recCtrlWord cmd 0x2EC0) = (s.recCmdOf cmd).getD (s.ignoredIn 18) := by
  obtain ⟨h1, h2, h3⟩ := recCtrlWord_fields (key := 0x2EC0) (by omega : cmd < 4)
  unfold State.recCtrl
  simp only [h1, h2, h3, Bool.false_eq_true, if_false]
  rcases hc with rfl | rfl | rfl <;> rfl

theorem recCtrl_otherKey {cmd : Nat} {key : BitVec 16} (hc : cmd = 1 ∨ cmd = 2 ∨ cmd = 3) (hk : key ≠ 0x2EC0) :
    s.recCtrl (recCtrlWord cmd key) = s.ignoredIn 18 := by
  obtain ⟨h1, h2, h3⟩ := recCtrlWord_fields (key := key) (by omega : cmd < 4)
  have hk' : key.toNat ≠ 0x2EC0 := fun h => hk (BitVec.eq_of_toNat_eq h)
  unfold State.recCtrl
  simp only [h1, h2, h3, Bool.false_eq_true, if_false]
  rw [if_neg (by omega), if_pos hk']

/-- Ignored by the recorder's block, and counted. -/
def recIgnored (s : State) (i : Instr) : Prop := ∃ t, exec i s = .next t ∧ onlyRegs [0x12010] s t ∧
  (t.rd 0x12010).toNat = satAdd 32 (s.rd 0x12010).toNat 1

theorem recIgnored_of {i : Instr} (hw : s.regsWf = true) (h : exec i s = .next (s.ignoredIn 18)) : recIgnored s i := by
  rw [ignoredIn_eq (by decide)] at h
  exact ⟨_, h, onlyRegs_wr, toNat_rd_bump hw⟩

section
variable {m : Master} (hm : s.writes m R.recCtrl)
include hm

theorem exec_recFreeze_writes {key : BitVec 16} : exec (.recFreeze m key) s = .next (s.recCtrl (recCtrlWord 1 key)) :=
  asWrite_writes (f := fun s => s.recCtrl (recCtrlWord 1 key)) hm
theorem exec_recUnfreeze_writes {key : BitVec 16} : exec (.recUnfreeze m key) s = .next (s.recCtrl (recCtrlWord 2 key)) :=
  asWrite_writes (f := fun s => s.recCtrl (recCtrlWord 2 key)) hm
theorem exec_recRearm_writes {key : BitVec 16} : exec (.recRearm m key) s = .next (s.recCtrl (recCtrlWord 3 key)) :=
  asWrite_writes (f := fun s => s.recCtrl (recCtrlWord 3 key)) hm

theorem recKeys_ignored (hw : s.regsWf = true) {key : BitVec 16} (hk : key ≠ 0x2EC0) :
    recIgnored s (.recFreeze m key) ∧ recIgnored s (.recUnfreeze m key) ∧ recIgnored s (.recRearm m key) :=
  ⟨recIgnored_of hw ((exec_recFreeze_writes hm).trans (congrArg _ (recCtrl_otherKey (.inl rfl) hk))),
    recIgnored_of hw ((exec_recUnfreeze_writes hm).trans (congrArg _ (recCtrl_otherKey (.inr (.inl rfl)) hk))),
    recIgnored_of hw ((exec_recRearm_writes hm).trans (congrArg _ (recCtrl_otherKey (.inr (.inr rfl)) hk)))⟩

theorem recFreeze_frozen (hw : s.regsWf = true) (hz : s.fbit F.recStatus_frozen = true) : recIgnored s (.recFreeze m 0x2EC0) := by
  refine recIgnored_of hw ((exec_recFreeze_writes hm).trans (congrArg _ ?_))
  rw [recCtrl_keyed (.inl rfl), State.recCmdOf, freeze_frozen hz, Option.getD_none]

theorem recRunning_ignored (hw : s.regsWf = true) (hz : s.fbit F.recStatus_frozen = false) :
    recIgnored s (.recUnfreeze m 0x2EC0) ∧ recIgnored s (.recRearm m 0x2EC0) := by
  constructor
  · refine recIgnored_of hw ((exec_recUnfreeze_writes hm).trans (congrArg _ ?_))
    rw [recCtrl_keyed (.inr (.inl rfl)), State.recCmdOf, unfreeze_running hz, Option.getD_none]
  · refine recIgnored_of hw ((exec_recRearm_writes hm).trans (congrArg _ ?_))
    rw [recCtrl_keyed (.inr (.inr rfl)), recCmdOf_rearm, rearm_running hz, Option.getD_none]

theorem recFreeze_now (hw : s.regsWf = true) (hz : s.fbit F.recStatus_frozen = false) (hq : s.recd.freezeReq = none)
    (hr : s.recd.rearming = none) (hf : s.fbit F.recStatus_flushing = false) :
    ∃ t, exec (.recFreeze m 0x2EC0) s = .next t ∧ fieldSet F.recStatus_frozen 1 s t ∧ keepsRegs [R.recStatus] s t ∧
      t = { s with regs := t.regs, recd := { s.recd with frozenS := 0 } } := by
  have heq : s.recCtrl (recCtrlWord 1 0x2EC0) = { s.fset F.recStatus_frozen 1 with recd := { s.recd with frozenS := 0 } } := by
    rw [recCtrl_keyed (.inl rfl), State.recCmdOf, freeze_acts hz hq hr hf, Option.getD_some]
    rfl
  exact ⟨_, (exec_recFreeze_writes hm).trans (congrArg _ heq), fieldSet_of_rd (fieldSet_fset_lt hw (by decide) (by decide)) rfl,
    fun o ho => (keepsRegs_fset (s := s) (f := F.recStatus_frozen) (v := 1)) o ho, rfl⟩

theorem recFreeze_later (hz : s.fbit F.recStatus_frozen = false) (hq : s.recd.freezeReq = none)
    (hr : s.recd.rearming = none) (hf : s.fbit F.recStatus_flushing = true) :
    exec (.recFreeze m 0x2EC0) s = .next { s with recd := { s.recd with freezeReq := some .register } } := by
  have heq : s.freeze .register = some { s with recd := { s.recd with freezeReq := some .register } } := by
    rw [State.freeze, State.frozen, State.flushing, hz, hq, hr, hf]
    rfl
  rw [exec_recFreeze_writes hm, recCtrl_keyed (.inl rfl), State.recCmdOf, heq, Option.getD_some]

end

/-- What the end of a freeze in which nothing was lost leaves. -/
theorem unfrozen_keeps (hw : s.regsWf = true) (ho : s.recd.ovfCount = 0) :
    (unfrozen s).fbit F.recStatus_frozen = false ∧ keepsRegs [R.recStatus] s (unfrozen s) ∧ (unfrozen s).recd = s.recd := by
  have hf1 : Frame [.regs] [.reg R.recStatus] s (s.fset F.recStatus_frozen 0) := .fset
  have hfs : (s.fset F.recStatus_frozen 0).overflowRecord = s.fset F.recStatus_frozen 0 := if_pos ho
  have hz := (unfrozen_shows hw ho).1
  have hf : Frame [.regs] [.reg R.recStatus] s (unfrozen s) := by
    rw [unfrozen, hfs]
    exact hf1.trans (.ite frame_flushStart.sub (.refl _))
  exact ⟨hz, hf.keepsRegs hw, hf.part .recd (by decide)⟩

theorem recUnfreeze_ends {m : Master} (hm : s.writes m R.recCtrl) (hw : s.regsWf = true) (hz : s.fbit F.recStatus_frozen = true)
    (ho : s.recd.ovfCount = 0) : ∃ t, exec (.recUnfreeze m 0x2EC0) s = .next t ∧ t.fbit F.recStatus_frozen = false ∧
      keepsRegs [R.recStatus] s t ∧ t.recd = s.recd := by
  refine ⟨unfrozen s, (exec_recUnfreeze_writes hm).trans (congrArg _ ?_), unfrozen_keeps hw ho⟩
  rw [recCtrl_keyed (.inr (.inl rfl)), State.recCmdOf, unfreeze_acts hz, Option.getD_some]

theorem freezeExpired_ends (hw : s.regsWf = true) (hz : s.fbit F.recStatus_frozen = true) (ho : s.recd.ovfCount = 0) :
    ∃ t r, exec .freezeExpired s = .next t ∧ t.fbit F.recStatus_frozen = false ∧
      keepsRegs [R.recStatus] s t ∧ t.recd = { s.recd with raised := s.recd.raised ++ [r] } ∧ r.code = 7 := by
  obtain ⟨h1, h2, h3⟩ := unfrozen_keeps hw ho
  have hex : exec .freezeExpired s = .next ((unfrozen s).raise hapFreezeExpired 0 [BitVec.ofNat 64 (s.aget F.recCfg_frzMaxS)]) := by
    rw [exec_freezeExpired, execFreezeExpired, unfreeze_acts hz]
  refine ⟨_, (unfrozen s).mkRecord hapFreezeExpired 0 [BitVec.ofNat 64 (s.aget F.recCfg_frzMaxS)], hex, ?_, h2, ?_, rfl⟩
  · rw [State.fbit, fget_raise]
    exact h1
  · rw [State.raise, h3]

theorem freezeExpired_rests (hz : s.fbit F.recStatus_frozen = false) : exec .freezeExpired s = .next s := by
  rw [exec_freezeExpired, execFreezeExpired, unfreeze_running hz]

theorem recRearm_begins {m : Master} (hm : s.writes m R.recCtrl) (hw : s.regsWf = true) (hz : s.fbit F.recStatus_frozen = true)
    (hr : s.recd.rearming = none) : ∃ t, exec (.recRearm m 0x2EC0) s = .next t ∧ t.fbit F.recStatus_frozen = false ∧
      t.fbit F.recStatus_erasing = true ∧ keepsRegs [R.recStatus] s t ∧
      t = { s with regs := t.regs, recd := { s.recd with rearming := some .register } } := by
  have heq : s.recCtrl (recCtrlWord 3 0x2EC0) =
      { (s.fset F.recStatus_frozen 0).fset F.recStatus_erasing 1 with recd := { s.recd with rearming := some .register } } := by
    rw [recCtrl_keyed (.inr (.inr rfl)), recCmdOf_rearm, rearm_acts hz hr, Option.getD_some]
  have hw1 : (s.fset F.recStatus_frozen 0).regsWf = true := regsWf_fset hw
  have hf : Frame [.regs] [.reg R.recStatus] s ((s.fset F.recStatus_frozen 0).fset F.recStatus_erasing 1) := .trans .fset .fset
  refine ⟨_, (exec_recRearm_writes hm).trans (congrArg _ heq), ?_, ?_, hf.keepsRegs hw, rfl⟩
  · refine (congrArg (· == 1) (fget_fset_beside hw1 (by decide) (by decide))).trans ?_
    exact (fbit_fset hw (by decide)).trans rfl
  · exact (fbit_fset hw1 (by decide)).trans rfl

/-! The erase of a re-arm (R418). -/

/-- The record of a re-arm. -/
def State.rearmedRecord (s : State) : Record :=
  s.mkRecord hapRearmed 0 [BitVec.ofNat 64 s.recd.area.length, (s.rd R.recRefused).setWidth 64, (s.rd R.recArmed).setWidth 64]

/-- An empty area, the staged records behind the record of the re-arm. -/
def State.rearmed (s : State) (q : List Record) : State :=
  ((({ s with recd := { s.recd with staging := q, area := [], rearming := none } }.wr R.recCount (BitVec.ofNat 32 q.length)).wr R.recStaged
    (BitVec.ofNat 32 q.length)).wr R.recFlushed 0).wr R.recArmed (BitVec.ofNat 32 s.time.tb3)

theorem rearmed_shows {q : List Record} (hw : s.regsWf = true) :
    (s.rearmed q).regsWf = true ∧ (s.rearmed q).recd = { s.recd with staging := q, area := [], rearming := none } ∧
    (s.rearmed q).rd R.recFlushed = 0 ∧ (s.rearmed q).rd R.recCount = BitVec.ofNat 32 q.length ∧
    (s.rearmed q).rd R.recArmed = BitVec.ofNat 32 s.time.tb3 ∧ (s.rearmed q).fbit F.recStatus_frozen = s.fbit F.recStatus_frozen := by
  unfold State.rearmed
  have hf : Frame [.recd] [] s { s with recd := { s.recd with staging := q, area := [], rearming := none } } := .recd
  have hrec : State.recd { s with recd := { s.recd with staging := q, area := [], rearming := none } } =
    { s.recd with staging := q, area := [], rearming := none } := rfl
  generalize ({ s with recd := { s.recd with staging := q, area := [], rearming := none } } : State) = v at *
  have hw0 := hf.canon hw
  have hw1 : (v.wr R.recCount (BitVec.ofNat 32 q.length)).regsWf = true := regsWf_wr hw0
  have hw2 : ((v.wr R.recCount (BitVec.ofNat 32 q.length)).wr R.recStaged (BitVec.ofNat 32 q.length)).regsWf = true := regsWf_wr hw1
  have hfr : Frame [.regs] [.span 0x12018 0x12040] v ((((v.wr R.recCount (BitVec.ofNat 32 q.length)).wr R.recStaged
    (BitVec.ofNat 32 q.length)).wr R.recFlushed 0).wr R.recArmed (BitVec.ofNat 32 s.time.tb3)) := .trans (.trans (.trans .wr .wr) .wr) .wr
  refine ⟨hfr.canon hw0, (hfr.part .recd (by decide)).trans hrec, ?_, ?_, rd_wr_self (regsWf_wr hw2), (hfr.fbit hw0).trans (hf.fbit hw)⟩
  · rw [rd_wr_ne (by decide), rd_wr_self hw2]
  · rw [rd_wr_ne (by decide), rd_wr_ne (by decide), rd_wr_ne (by decide), rd_wr_self hw0]

theorem rearmEraseDone_shows (hw : s.regsWf = true) (hr : s.recd.rearming = some .register) (ho : s.recd.ovfCount = 0) :
    ∃ t r, exec .rearmEraseDone s = .next t ∧ t.recd.area = [] ∧
      t.recd.rearming = none ∧ t.recd.staging = r :: s.recd.staging ∧ r.code = 3 ∧ t.rd R.recFlushed = 0 ∧
      t.rd R.recCount = BitVec.ofNat 32 (s.recd.staging.length + 1) ∧ t.rd R.recArmed = BitVec.ofNat 32 s.time.tb3 ∧
      t.fbit F.recStatus_full = false ∧ t.fbit F.recStatus_nearFull = false ∧
      (s.fbit F.recStatus_frozen = false → t.fbit F.recStatus_flushing = true) := by
  have hex : exec .rearmEraseDone s = .next ((((((s.rearmed (s.rearmedRecord :: s.recd.staging)).fset F.recStatus_full 0).fset
      F.recStatus_nearFull 0).deliver s.rearmedRecord).overflowRecord).flushStart false) := by
    rw [exec_rearmEraseDone, execRearmEraseDone, hr]
    rfl
  have hcode : s.rearmedRecord.code = 3 := rfl
  obtain ⟨hw1, h1, h2, h3, h4, h5⟩ := rearmed_shows (q := s.rearmedRecord :: s.recd.staging) hw
  rw [hex]
  generalize s.rearmedRecord = r at *
  generalize s.rearmed (r :: s.recd.staging) = v at *
  have hw2 : (v.fset F.recStatus_full 0).regsWf = true := regsWf_fset hw1
  have hf : Frame [.regs] [.fld F.recStatus_full, .fld F.recStatus_nearFull] v ((v.fset F.recStatus_full 0).fset F.recStatus_nearFull 0) :=
    .trans .fset .fset
  have hful : ((v.fset F.recStatus_full 0).fset F.recStatus_nearFull 0).fbit F.recStatus_full = false := by
    rw [State.fbit, fget_fset_beside hw2 (by decide) (by decide), ← State.fbit, fbit_fset hw1 (by decide)]
    rfl
  have hnear : ((v.fset F.recStatus_full 0).fset F.recStatus_nearFull 0).fbit F.recStatus_nearFull = false := by
    rw [fbit_fset hw2 (by decide)]
    rfl
  generalize (v.fset F.recStatus_full 0).fset F.recStatus_nearFull 0 = w at *
  have hd := frame_deliver (s := w) (r := r)
  have hww := hf.canon hw1
  have hrec : (w.deliver r).recd = v.recd := (hd.part .recd (by decide)).trans (hf.part .recd (by decide))
  have hov : (w.deliver r).overflowRecord = w.deliver r := if_pos (by rw [hrec, h1]; exact ho)
  have hwd := hd.canon hww
  have hfs := frame_flushStart (s := w.deliver r) (b := false)
  have hrecf : ((w.deliver r).flushStart false).recd = { s.recd with staging := r :: s.recd.staging, area := [], rearming := none } :=
    (hfs.part .recd (by decide)).trans (hrec.trans h1)
  rw [hov]
  refine ⟨_, r, rfl, by rw [hrecf], by rw [hrecf], by rw [hrecf], hcode, ?_, ?_, ?_, ?_, ?_, fun hz => ?_⟩
  · rw [hfs.rd hwd, hd.rd hww, hf.rd hw1, h2]
  · rw [hfs.rd hwd, hd.rd hww, hf.rd hw1, h3]
    rfl
  · rw [hfs.rd hwd, hd.rd hww, hf.rd hw1, h4]
  · rw [hfs.fbit hwd, hd.fbit hww, hful]
  · rw [hfs.fbit hwd, hd.fbit hww, hnear]
  · refine flushStart_flushes hwd (by rw [hrec, h1]) ?_
    rw [hd.fbit hww, hf.fbit hw1, h5, hz]

/-- Settles O38: each command's own lemma. -/
theorem recorder : Obligations.Recorder := by
  unfold Obligations.Recorder
  refine ⟨fun s r0 raised hw hr hc => ?_, fun s hw => ?_⟩
  · intro r rest beyond
    have hf : Frame [.recd] [] s (s.unraised rest) := .recd
    have hwu := hf.canon hw
    have hex := exec_recordAccept_takes hr hc
    have hbey : (s.unraised rest).beyond r ↔ beyond := Iff.rfl
    have hful : (s.unraised rest).fbit F.recStatus_full = s.fbit F.recStatus_full := hf.fbit hw
    have hrec : (s.unraised rest).recd = { s.recd with raised := rest } := rfl
    refine ⟨fun hb hfu => ?_, fun hfu => ?_, fun hb hfu hl => ?_, fun hb hfu hl h1 h2 => ?_⟩
    · obtain ⟨e, he⟩ := accept_beyond (hful.trans hfu) (hbey.mpr hb)
      rw [he] at hex
      have hwe := (frame_setRate1 (e := e)).canon hwu
      have hfe : Frame [.regs, .recd] [.reg R.recSuppressed] s (((s.unraised rest).setRate1 e).bump R.recSuppressed) :=
        (hf.sub.trans frame_setRate1.sub).trans .bump
      refine ⟨_, hex, ?_, rfl, rfl, hfe.keepsRegs hw, hfe.part .out (by decide)⟩
      rw [toNat_rd_bump hwe, frame_setRate1.rd hwu, hf.rd hw]
    · rw [accept_full (hful.trans hfu)] at hex
      obtain ⟨h1, h2⟩ := keep_full (r := r) hwu (hful.trans hfu)
      refine ⟨_, hex, by rw [h1, hf.rd hw], by rw [h2, hrec], by rw [h2, hrec], by rw [h2, hrec]⟩
    · obtain ⟨e, he⟩ := accept_within (hful.trans hfu) (fun h => hb (hbey.mp h))
      rw [he] at hex
      have hwe := (frame_setRate1 (e := e)).canon hwu
      have hfe : ((s.unraised rest).setRate1 e).fbit F.recStatus_full = false := (frame_setRate1.fbit hwu).trans (hful.trans hfu)
      obtain ⟨h1, h2, h3⟩ := keep_overflow (r := r) hwe hfe hl
      refine ⟨_, hex, ?_, h2, by rw [h3]; rfl, by rw [h3]; rfl, by rw [h3]; rfl⟩
      rw [h1, frame_setRate1.rd hwu, hf.rd hw]
    · obtain ⟨e, he⟩ := accept_within (hful.trans hfu) (fun h => hb (hbey.mp h))
      rw [he] at hex
      have hfe : Frame [.recd] [] s ((s.unraised rest).setRate1 e) := hf.trans frame_setRate1
      have hwe := hfe.canon hw
      have hfue : ((s.unraised rest).setRate1 e).fbit F.recStatus_full = false := (hfe.fbit hw).trans hfu
      have hcnt : ((s.unraised rest).setRate1 e).rd R.recCount = s.rd R.recCount := hfe.rd hw
      obtain ⟨k1, k2, k3, k4, k5⟩ := keep_stages (r := r) hwe hfue hl (by rw [hcnt]; exact h1) (by rw [hcnt]; exact h2)
      refine ⟨_, hex, by rw [k1]; rfl, by rw [k1]; rfl, by rw [k1]; rfl, by rw [k2, hcnt], k3, fun hs hra hz => ?_, k5⟩
      exact k4 hs hra ((hfe.fbit hw).trans hz)
  · intro ignored frozen
    have hz (h : ¬ frozen) : s.fbit F.recStatus_frozen = false := Bool.eq_false_iff.mpr h
    refine ⟨fun lost hf hr hq => flushEnd_shows hw hf hr hq, fun hf lost => when_neg hf, fun m hm => ⟨fun key hk => recKeys_ignored hm hw hk,
      fun h => recFreeze_frozen hm hw h, fun h => recRunning_ignored hm hw (hz h)⟩, fun m hm h hq hr hf => recFreeze_now hm hw (hz h) hq hr hf,
      fun m hm h hq hr hf => recFreeze_later hm (hz h) hq hr hf, fun m hm h ho => recUnfreeze_ends hm hw h ho,
      fun h ho => freezeExpired_ends hw h ho, fun h => freezeExpired_rests (hz h), fun m hm h hr => recRearm_begins hm hw h hr,
      fun hr ho => rearmEraseDone_shows hw hr ho, fun he hr => ?_⟩
    have hcond : (s.fbit F.recStatus_erasing && s.recd.rearming.isNone) = true := by rw [he, hr]; rfl
    exact ⟨_, when_pos hcond, fieldSet_fset_lt hw (by decide) (by decide), onlyRegs_wr⟩

end Sys2Proof.Machine
end

section
/-! The clients of background work: sweep digests, hold-up measurement and flash migration (R398, R400 to R402). -/

namespace Sys2Proof.Machine

variable {s t : State} {c : Nat}

theorem frame_wfYield (hc : c < 13) : Frame [.regs] [⟨0x1110C, 0x111DC, 0x10, 0, 32⟩] s (s.wfYield c) :=
  .bump (cover_step (r := ⟨0x1110C, 0x111DC, 0x10, 0, 32⟩) List.mem_cons_self
    (Rect.has_iff.mpr ⟨Nat.le_add_right _ _, .inr (show 0x1110C + c * 0x10 < 0x111DC by omega),
      show (0x1110C + c * 0x10 - 0x1110C) % 0x10 = 0 by omega⟩) rfl rfl)

/-! The sweep (R398). -/

/-- The state with the next unit's digest among the items of the seal. -/
def State.withSweepItem (s : State) (u : Nat) : State := { s with pair := { s.pair with sweepItems := s.pair.sweepItems ++ [s.sweepItem u] } }

theorem exec_sweep_joins {u : Nat} (hu : s.sweepNext = some u) (hm : s.mod = .primary) (hp : s.partner = .standby) (hs : s.scan.step = .copy)
    (hc : s.olc.carry = none) (hn : s.pair.sweepItems.length < 16 * s.aget F.pairCfg_sweepUnits) (hq : s.commitSpan (u * 4096) 4096 = false) :
    exec .sweepDigest s = .next ((s.withSweepItem u).obsCount 0x0225) := by
  rw [exec_sweepDigest, execSweepDigest, hu]
  refine when_pos ?_
  simp [hm, hp, hs, hn, hq, State.sweepHeld, hc]

theorem obsCount_withSweepItem {u : Nat} : ((s.withSweepItem u).obsCount 0x0225).pair = { s.pair with sweepItems := s.pair.sweepItems ++ [s.sweepItem u] } ∧
    (s.withSweepItem u).obsCount 0x0225 = { s with
      regs := ((s.withSweepItem u).obsCount 0x0225).regs, pair := ((s.withSweepItem u).obsCount 0x0225).pair } ∧
    ∀ off, (off < R.obsCntk 0 ∨ R.obsCntk 255 < off) → ((s.withSweepItem u).obsCount 0x0225).rd off = s.rd off := by
  have hf : Frame [.regs] [.span 0x14400 0x14800] (s.withSweepItem u) ((s.withSweepItem u).obsCount 0x0225) := frame_obsCount _ _
  have hg : Frame [.regs, .pair] [.span 0x14400 0x14800] s ((s.withSweepItem u).obsCount 0x0225) := .trans .pair hf.sub
  exact ⟨hf.part .pair (by decide), hg.eq_patch, fun off ho => rd_obsCountBy ho⟩

/-! The hold-up measurement (R401, R402). -/

theorem exec_holdup_begins {t0 : Nat} (ha : s.wf.scanAt = some t0) (h0 : t0 + 600 ≤ s.time.tb3) (h1 : s.fbit F.pwrStatus_vinOk = true)
    (h2 : s.fbit F.pwrStatus_pfWarn = false) (h3 : s.fbit F.pairStatus_lever = false) (h4 : s.fbit F.pairStatus_pLever = false)
    (h5 : s.fbit F.pairStatus_handover = false) (h6 : s.abit F.wfCfg_holdupEn = true) (h7 : s.fbit F.sysStatus_mcRun = true) :
    exec (.holdupMeasurement none) s = .next (s.fset F.wfStatus_holdupRun 1) := by
  refine when_pos ?_
  simp [ha, h0, h1, h2, h3, h4, h5, h6, h7]

theorem exec_holdup_rests (h : s.fbit F.pairStatus_handover = true) : exec (.holdupMeasurement none) s = .next s := by
  refine when_neg ?_
  simp [h]

/-- The two figures of a measurement, in mF, and when it was made. -/
def State.showHoldup (s : State) (total lowest : Nat) : State :=
  ((s.fset F.wfHoldup_total total).fset F.wfHoldup_lowest lowest).wr R.wfHoldupLast (BitVec.ofNat 32 s.time.tb3)

/-- The end of a measurement. -/
def State.holdupEnds (s : State) (low : Bool) : State := ((s.fset F.wfStatus_holdupRun 0).fsetb F.wfStatus_holdupLow low).wfDone 10 0

/-- A capacitance of x µF, in mF, as its field holds it. -/
abbrev inMF (x : Nat) : Nat := min 4095 ((x + 500) / 1000)

theorem inMF_lt (x : Nat) : inMF x < 2 ^ 12 := Nat.lt_succ_of_le (Nat.min_le_left _ _)

theorem exec_holdup_ends {d : Vector Nat 4} (h : s.fbit F.wfStatus_holdupRun = true) (hd : ∀ k : Fin 4, 0 < vget d k.val) :
    let c (k : Nat) : Nat := 10000000000 / vget d k
    let sum := c 0 + c 1 + c 2 + c 3
    exec (.holdupMeasurement (some d)) s =
      .next ((s.showHoldup (inMF sum) (inMF (min (min (c 0) (c 1)) (min (c 2) (c 3))))).holdupEnds (decide (sum < 60000))) := by
  intro c sum
  have hu (k : Fin 4) : sectionUF (vget d k.val) = c k.val := by rw [sectionUF, Nat.max_eq_right (hd k)]
  have hl : (List.range 4).map (fun k => sectionUF (vget d k)) = [c 0, c 1, c 2, c 3] := by
    exact List.cons_eq_cons.mpr ⟨hu 0, List.cons_eq_cons.mpr ⟨hu 1, List.cons_eq_cons.mpr ⟨hu 2, List.cons_eq_cons.mpr ⟨hu 3, rfl⟩⟩⟩⟩
  have hm : [c 0, c 1, c 2, c 3].foldl min ([c 0, c 1, c 2, c 3].headD 0) = min (min (c 0) (c 1)) (min (c 2) (c 3)) := by
    simp only [List.foldl_cons, List.foldl_nil, List.headD_cons, Nat.min_self]
    omega
  have hs : [c 0, c 1, c 2, c 3].foldl (· + ·) 0 = sum := by simp only [List.foldl_cons, List.foldl_nil, Nat.zero_add, sum]
  rw [exec_holdupMeasurement]
  unfold execHoldupMeasurement
  simp only [hl, hm, hs]
  exact when_pos h

theorem showHoldup_shows (hw : s.regsWf = true) {a b : Nat} (ha : a < 2 ^ 12) (hb : b < 2 ^ 12) : (s.showHoldup a b).regsWf = true ∧
    (s.showHoldup a b).fget F.wfHoldup_total = a ∧ (s.showHoldup a b).fget F.wfHoldup_lowest = b ∧
    (s.showHoldup a b).rd R.wfHoldupLast = BitVec.ofNat 32 s.time.tb3 := by
  have h1 : (s.fset F.wfHoldup_total a).regsWf = true := regsWf_fset hw
  have h2 : ((s.fset F.wfHoldup_total a).fset F.wfHoldup_lowest b).regsWf = true := regsWf_fset h1
  refine ⟨regsWf_wr h2, ?_, ?_, rd_wr_self h2⟩
  · rw [State.showHoldup, fget_wr_off (by decide), fget_fset_beside h1 (by decide) (by decide), fget_fset hw (by decide)]
    exact Nat.mod_eq_of_lt ha
  · rw [State.showHoldup, fget_wr_off (by decide), fget_fset h1 (by decide)]
    exact Nat.mod_eq_of_lt hb

theorem holdupEnds_shows (hw : s.regsWf = true) {low : Bool} : (s.holdupEnds low).fbit F.wfStatus_holdupLow = low ∧
    (s.holdupEnds low).fbit F.wfStatus_holdupRun = false ∧ (∀ o, o ≠ R.wfStatus → o ∉ clientRegs 10 → (s.holdupEnds low).rd o = s.rd o) ∧
    Frame [.regs] [.blk 0x11] s (s.holdupEnds low) := by
  have h1 : (s.fset F.wfStatus_holdupRun 0).regsWf = true := regsWf_fset hw
  have h2 : ((s.fset F.wfStatus_holdupRun 0).fsetb F.wfStatus_holdupLow low).rd R.wfStatus = (s.holdupEnds low).rd R.wfStatus :=
    (rd_wfDone_ne (by decide)).symm
  refine ⟨?_, ?_, fun o ho hc => ?_, .trans (.trans .fset .fsetb) (frame_wfDone (by decide))⟩
  · rw [fbit_congr h2.symm, fbit_fsetb h1 (by decide) rfl]
  · rw [fbit_congr h2.symm, State.fbit, fget_fsetb_beside h1 (by decide) (by decide), ← State.fbit, fbit_fset hw (by decide)]
    rfl
  · rw [State.holdupEnds, rd_wfDone_ne hc, rd_fsetb_ne ho, rd_fset_ne ho]

theorem holdupAbort_shows (hw : s.regsWf = true) (h : s.fbit F.wfStatus_holdupRun = true) :
    fieldSet F.wfStatus_holdupRun 0 s s.holdupAbort ∧
    (s.holdupAbort.rd (R.wfClcPreempt 10)).toNat = satAdd 32 (s.rd (R.wfClcPreempt 10)).toNat 1 ∧
    onlyRegs [R.wfStatus, R.wfClcPreempt 10] s s.holdupAbort := by
  have he : s.holdupAbort = (s.fset F.wfStatus_holdupRun 0).wfYield 10 := if_pos h
  have h1 : (s.fset F.wfStatus_holdupRun 0).regsWf = true := regsWf_fset hw
  obtain ⟨hv, hb⟩ := fieldSet_fset_lt (v := 0) hw (f := F.wfStatus_holdupRun) (by decide) (by decide)
  have hr : ((s.fset F.wfStatus_holdupRun 0).wfYield 10).rd R.wfStatus = (s.fset F.wfStatus_holdupRun 0).rd R.wfStatus := rd_wr_ne (by decide)
  rw [he]
  refine ⟨⟨(fget_congr hr).trans hv, fun i hi => by rw [hr]; exact hb i hi⟩, ?_, onlyRegs_trans (onlyRegs_mono (by decide) onlyRegs_fset)
    (onlyRegs_mono (by decide) onlyRegs_wr)⟩
  rw [State.wfYield, toNat_rd_bump h1, rd_fset_ne (by decide)]

/-! Flash migrations (R400). -/

/-- The fail bits of the two halves, with those found. -/
def State.withHalves (s : State) (fail : BitVec 2) : State :=
  (s.fsetb F.wfFlash_halfAFail (s.fbit F.wfFlash_halfAFail || fail.getLsbD 0)).fsetb F.wfFlash_halfBFail
    (s.fbit F.wfFlash_halfBFail || fail.getLsbD 1)

theorem frame_withHalves {fail : BitVec 2} : Frame [.regs] [.reg R.wfFlash] s (s.withHalves fail) := .trans .fsetb .fsetb

/-- A migration that begins. -/
def State.migrateStart (s : State) (half src dst : Nat) : State :=
  { s.fset F.wfStatus_migrate 1 with wf := { s.wf with moving := some (half, src, dst) } }

/-- A migration of block b of half h that completes. -/
def State.migrateDone (s : State) (h b : Nat) : State :=
  { s.migrateEnd with wf := { s.wf with
    moving := none, erase := sset (fun _ => 0) s.wf.erase (h * 8192 + b) (sget (fun _ => 0) s.wf.erase (h * 8192 + b) + 1) } }.showWear

section
variable {half : Fin 2} {src dst : Fin 8192} (hr : s.fbit F.sysStatus_mcRun = true) (hp : s.fbit F.pwrStatus_pfWarn = false)
include hr hp

theorem migration_runs : (s.fbit F.sysStatus_mcRun && !s.fbit F.pwrStatus_pfWarn) = true := by rw [hr, hp]; rfl

theorem exec_migration_starts (hm : s.wf.moving = none) :
    exec (.flashMigration 0 half src dst 0 none) s = .next ((s.migrateStart half.val src.val dst.val).withHalves 0) := by
  have h : exec (.flashMigration 0 half src dst 0 none) s = s.when (s.fbit F.sysStatus_mcRun && !s.fbit F.pwrStatus_pfWarn)
      ((if s.wf.moving = none then s.migrateStart half.val src.val dst.val else s).withHalves 0) := rfl
  rw [h, if_pos hm, when_pos (migration_runs hr hp)]

theorem exec_migration_done {h b x : Nat} (hm : s.wf.moving = some (h, b, x)) :
    exec (.flashMigration 1 half src dst 0 none) s = .next ((s.migrateDone h b).withHalves 0) := by
  have he : exec (.flashMigration 1 half src dst 0 none) s = s.when (s.fbit F.sysStatus_mcRun && !s.fbit F.pwrStatus_pfWarn)
      ((match s.wf.moving with | some (h, b, _) => s.migrateDone h b | none => s).withHalves 0) := rfl
  rw [he, hm, when_pos (migration_runs hr hp)]

theorem exec_migration_yields (hm : s.wf.moving.isSome = true) :
    exec (.flashMigration 2 half src dst 0 none) s = .next ((s.migrateEnd.wfYield 9).withHalves 0) := by
  have h : exec (.flashMigration 2 half src dst 0 none) s = s.when (s.fbit F.sysStatus_mcRun && !s.fbit F.pwrStatus_pfWarn)
      (s.migrateAbort.withHalves 0) := rfl
  rw [h, State.migrateAbort, if_pos hm, when_pos (migration_runs hr hp)]
end

theorem migrateStart_shows (hw : s.regsWf = true) {h b x : Nat} : ((s.migrateStart h b x).withHalves 0).wf = { s.wf with moving := some (h, b, x) } ∧
    ((s.migrateStart h b x).withHalves 0).fbit F.wfStatus_migrate = true ∧ keepsRegs [R.wfStatus, R.wfFlash] s ((s.migrateStart h b x).withHalves 0) := by
  have hf : Frame [.regs, .wf] [.fld F.wfStatus_migrate] s (s.migrateStart h b x) := .trans (.fset (f := F.wfStatus_migrate)) .wf
  have hw1 := hf.canon hw
  refine ⟨frame_withHalves.part .wf (by decide), ?_, (hf.sub.trans frame_withHalves.sub : Frame [.regs, .wf] [.reg R.wfStatus, .reg R.wfFlash] s _).keepsRegs hw⟩
  rw [frame_withHalves.fbit hw1]
  exact fbit_fset hw (by decide)

theorem migrateEnd_shows (hw : s.regsWf = true) : s.migrateEnd.wf = { s.wf with moving := none } ∧
    s.migrateEnd.fbit F.wfStatus_migrate = false ∧ Frame [.regs, .wf] [.fld F.wfStatus_migrate] s s.migrateEnd :=
  ⟨rfl, fbit_fset (v := 0) hw (by decide), .trans .fset .wf⟩

theorem frame_showWear : Frame [.regs] [.fld F.wfFlash_wearPm] s s.showWear := .fset

theorem migrateDone_shows (hw : s.regsWf = true) {h b : Nat} (he : swf (fun _ => 0) s.wf.erase = true) :
    ((s.migrateDone h b).withHalves 0).wf.moving = none ∧ ((s.migrateDone h b).withHalves 0).fbit F.wfStatus_migrate = false ∧
    (∀ k, sget (fun _ => 0) ((s.migrateDone h b).withHalves 0).wf.erase k = sget (fun _ => 0) s.wf.erase k + (if k = h * 8192 + b then 1 else 0)) ∧
    keepsRegs [R.wfStatus, R.wfFlash] s ((s.migrateDone h b).withHalves 0) := by
  obtain ⟨-, hb, hf⟩ := migrateEnd_shows hw
  have hg : Frame [.regs, .wf] [.reg R.wfFlash] s.migrateEnd ((s.migrateDone h b).withHalves 0) := .trans (.trans .wf frame_showWear.sub) frame_withHalves.sub
  have hwf : ((s.migrateDone h b).withHalves 0).wf = { s.wf with
      moving := none, erase := sset (fun _ => 0) s.wf.erase (h * 8192 + b) (sget (fun _ => 0) s.wf.erase (h * 8192 + b) + 1) } := by
    rw [frame_withHalves.part .wf (by decide)]
    exact frame_showWear.part .wf (by decide)
  refine ⟨by rw [hwf], (hg.fbit (hf.canon hw)).trans hb, fun k => ?_,
    (hf.sub.trans hg.sub : Frame [.regs, .wf] [.reg R.wfStatus, .reg R.wfFlash] s _).keepsRegs hw⟩
  rw [hwf, sget_sset _ _ _ _ _ he]
  by_cases hk : k = h * 8192 + b
  · rw [if_pos hk, if_pos hk, hk]
  · rw [if_neg hk, if_neg hk]
    rfl

theorem migrateYield_shows (hw : s.regsWf = true) : ((s.migrateEnd.wfYield 9).withHalves 0).wf = { s.wf with moving := none } ∧
    ((s.migrateEnd.wfYield 9).withHalves 0).fbit F.wfStatus_migrate = false ∧
    (((s.migrateEnd.wfYield 9).withHalves 0).rd (R.wfClcPreempt 9)).toNat = satAdd 32 (s.rd (R.wfClcPreempt 9)).toNat 1 ∧
    keepsRegs [R.wfStatus, R.wfFlash, R.wfClcPreempt 9] s ((s.migrateEnd.wfYield 9).withHalves 0) := by
  obtain ⟨hv, hb, hf⟩ := migrateEnd_shows hw
  have hw1 := hf.canon hw
  have hy : Frame [.regs] [.reg (R.wfClcPreempt 9)] s.migrateEnd (s.migrateEnd.wfYield 9) := .bump
  have hw2 := hy.canon hw1
  refine ⟨?_, ?_, ?_, (hf.sub.trans (hy.sub.trans frame_withHalves.sub) :
    Frame [.regs, .wf] [.reg R.wfStatus, .reg R.wfFlash, .reg (R.wfClcPreempt 9)] s _).keepsRegs hw⟩
  · rw [frame_withHalves.part .wf (by decide), hy.part .wf (by decide), hv]
  · rw [frame_withHalves.fbit hw2, hy.fbit hw1, hb]
  · rw [frame_withHalves.rd hw2, State.wfYield, toNat_rd_bump hw1, hf.rd hw]

/-- Settles O37: each client's command by what it writes, and those writes by their frames. -/
theorem backgroundWork : Obligations.BackgroundWork := by
  intro s hw
  refine ⟨fun u hu hm hp hs hc hn hq => ⟨_, exec_sweep_joins hu hm hp hs hc hn hq, obsCount_withSweepItem⟩,
    fun t0 ha h0 h1 h2 h3 h4 h5 h6 h7 => ⟨_, exec_holdup_begins ha h0 h1 h2 h3 h4 h5 h6 h7, fieldSet_fset_lt hw (by decide) (by decide), onlyRegs_fset⟩,
    exec_holdup_rests, fun d h hd => ?_, fun h => ⟨_, when_pos h, holdupAbort_shows hw h⟩, fun half src dst hr hp => ⟨fun hm => ?_, fun h b x hm he => ?_, fun hm => ?_⟩⟩
  · obtain ⟨hw1, h1, h2, h3⟩ := showHoldup_shows hw
      (inMF_lt (10000000000 / vget d 0 + 10000000000 / vget d 1 + 10000000000 / vget d 2 + 10000000000 / vget d 3))
      (inMF_lt (min (min (10000000000 / vget d 0) (10000000000 / vget d 1)) (min (10000000000 / vget d 2) (10000000000 / vget d 3))))
    obtain ⟨h4, h5, h6, h7⟩ := holdupEnds_shows hw1 
      (low := decide (10000000000 / vget d 0 + 10000000000 / vget d 1 + 10000000000 / vget d 2 + 10000000000 / vget d 3 < 60000))
    refine ⟨_, exec_holdup_ends h hd, (fget_congr (h6 _ (by decide) (by decide))).trans h1, (fget_congr (h6 _ (by decide) (by decide))).trans h2,
      h4, h5, (h6 _ (by decide) (by decide)).trans h3, h7.part .mem (by decide)⟩
  · exact ⟨_, exec_migration_starts hr hp hm, migrateStart_shows hw⟩
  · exact ⟨_, exec_migration_done hr hp hm, migrateDone_shows hw he⟩
  · exact ⟨_, exec_migration_yields hr hp hm, migrateYield_shows hw⟩

end Sys2Proof.Machine
end

section
/-! Power-fail and restarts (R26, R365, R464 to R467, R473, R484). -/

namespace Sys2Proof.Machine

variable {s t u : State} {cause mv i o : Nat} {b : Bool}

/-! The state of the module. -/

theorem modOfCode_modCode (m : ModState) : modOfCode (modCode m % 2 ^ 4) = m := by cases m <;> rfl

theorem mod_setMod {m : ModState} (hw : s.regsWf = true) : (s.setMod m).mod = m := by
  rw [State.mod, State.setMod, fget_fset hw (by decide)]
  exact modOfCode_modCode m

/-! What a reset of the chip leaves. -/

/-- The registers that a reset writes. -/
abbrev resetRegs : List Rect := [.reg R.pairStatus, .reg R.timeStatus, .reg R.memFuse]

/-- The mask of what a reset keeps of PAIR_STATUS. -/
abbrev pairMask (powerOn : Bool) : W32 := if powerOn then 0xC900 else 0xCB00

/-- A reset writes three registers of a state that keeps what the stores and a restart keep. -/
theorem wipe_writes (s : State) (b : Bool) : ∃ n : State, s.wipe b =
      (let n := (n.wr R.pairStatus (s.rd R.pairStatus &&& pairMask b)).setMod .boot
       let n := if b then n else n.wr R.timeStatus (s.rd R.timeStatus &&& 3)
       n.wr R.memFuse (s.rd R.memFuse &&& 0xFFFF007F)) ∧
    n.regs = s.regs.filter (fun (e : Nat × W32) => keptStore e.1 || (!b && keptRestart e.1)) ∧ n.act = [] ∧ n.mem = s.mem ∧
    n.power.chip = false ∧ n.bogie.holder = s.bogie.holder ∧ n.time.tb3 = s.time.tb3 ∧ (b = false → n.time.tb1 = s.time.tb1) ∧
    n.recd.area = s.recd.area := by
  refine ⟨_, rfl, rfl, rfl, rfl, rfl, rfl, ?_, fun hb => ?_, rfl⟩
  · cases b <;> rfl
  · rw [hb]; rfl

theorem wipe_shows (s : State) (b : Bool) (hw : s.regsWf = true) : (s.wipe b).regsWf = true ∧ (s.wipe b).mod = .boot ∧
    (s.wipe b).mem = s.mem ∧ (s.wipe b).power.chip = false ∧ (s.wipe b).bogie.holder = s.bogie.holder ∧
    (s.wipe b).time.tb3 = s.time.tb3 ∧ (b = false → (s.wipe b).time.tb1 = s.time.tb1) ∧ (s.wipe b).recd.area = s.recd.area ∧
    (∀ i, 4 ≤ i → i < 32 → (s.wipe b).fbit ⟨R.pairStatus, i, 1⟩ = ((s.rd R.pairStatus).getLsbD i && (pairMask b).getLsbD i)) ∧
    ∀ o, o ∉ [R.pairStatus, R.memFuse, R.timeStatus] → keptStore o = false → keptRestart o = false → (s.wipe b).rd o = regReset o := by
  obtain ⟨n, he, hr, ha, hm, hp, hb, h3, h1, hd⟩ := wipe_writes s b
  have hn : n.regsWf = true := by
    rw [regsWf_iff, hr, ha]
    exact ⟨swf_filter _ _ _ (regsWf_iff.mp hw).1, rfl⟩
  rw [he]
  extract_lets n1 n2
  have hq : (n.wr R.pairStatus (s.rd R.pairStatus &&& pairMask b)).regsWf = true := regsWf_wr hn
  have hw1 : n1.regsWf = true := regsWf_wr hq
  have hf1 : Frame [.regs] resetRegs n n1 := .trans .wr (.setMod (W := resetRegs))
  have hf2 : Frame [.regs] [.reg R.timeStatus, .reg R.memFuse] n1 (n2.wr R.memFuse (s.rd R.memFuse &&& 0xFFFF007F)) :=
    .trans (.ite (.refl _) .wr) .wr
  have hf : Frame [.regs] resetRegs n (n2.wr R.memFuse (s.rd R.memFuse &&& 0xFFFF007F)) := hf1.trans hf2.sub
  refine ⟨hf.canon hn, (hf2.mod hw1).trans (mod_setMod hq), (hf.part .mem (by decide)).trans hm,
    (congrArg Power.chip (hf.part .power (by decide))).trans hp, (congrArg Bogie.holder (hf.part .bogie (by decide))).trans hb,
    (congrArg TimeS.tb3 (hf.part .time (by decide))).trans h3, fun h => (congrArg TimeS.tb1 (hf.part .time (by decide))).trans (h1 h),
    (congrArg Rec.area (hf.part .recd (by decide))).trans hd, fun i h4 hi => ?_, fun o ho h2 h3 => ?_⟩
  · have hn1 : n1.fbit ⟨R.pairStatus, i, 1⟩ = (n.wr R.pairStatus (s.rd R.pairStatus &&& pairMask b)).fbit ⟨R.pairStatus, i, 1⟩ :=
      congrArg (· == 1) (fget_fset_beside hq (.inr h4) (Nat.succ_le_of_lt hi))
    rw [fbit_congr (hf2.rd hw1), hn1, fbit_eq_getLsbD, rd_wr_self hn, BitVec.getLsbD_and]
  · have hne : ∀ r ∈ resetRegs, r.has o = false := fun r hr' => by
      refine Bool.eq_false_iff.mpr fun hh => ho ?_
      simp only [List.mem_cons, List.not_mem_nil, or_false] at hr' ⊢
      rcases hr' with rfl | rfl | rfl <;> · obtain ⟨h1, h2, -⟩ := Rect.has_iff.mp hh; simp only [Rect.reg] at h1 h2; omega
    rw [rd_of_frame hf hn hne, State.rd, hr, sget_filter regReset (fun k => keptStore k || (!b && keptRestart k)), if_neg]
    rw [h2, h3]
    cases b <;> decide

/-- A module restart by a cause (R466). -/
def RestartedBy (cause : Nat) (s t : State) : Prop := t.power.chip = false ∧ t.mod = .boot ∧ t.mem = s.mem ∧
  t.rd R.sysResetCause = BitVec.ofNat 32 cause ∧ t.time.tb3 = s.time.tb3 ∧ t.time.tb1 = s.time.tb1 ∧
  (∀ off, off ∉ [R.pairStatus, R.memFuse, R.timeStatus, R.sysResetCause] → keptStore off = false → keptRestart off = false →
    t.rd off = regReset off)

theorem chipHold_restarts (hw : s.regsWf = true) : RestartedBy cause s (s.chipHold cause) ∧
    (s.chipHold cause).recd.area = s.recd.area ∧ (s.chipHold cause).fbit F.pairStatus_claim = s.fbit F.pairStatus_claim := by
  obtain ⟨hw1, hm, hmem, hp, -, h3, h1, ha, hb, hr⟩ := wipe_shows s false hw
  have hf : Frame [.regs] [.reg R.sysResetCause] (s.wipe false) (s.chipHold cause) := .wr
  refine ⟨⟨(congrArg Power.chip (hf.part .power (by decide))).trans hp, (hf.mod hw1).trans hm, (hf.part .mem (by decide)).trans hmem,
    rd_wr_self hw1, (congrArg TimeS.tb3 (hf.part .time (by decide))).trans h3,
    (congrArg TimeS.tb1 (hf.part .time (by decide))).trans (h1 rfl), fun o ho h2 h3 => ?_⟩,
    (congrArg Rec.area (hf.part .recd (by decide))).trans ha, ?_⟩
  · simp only [List.mem_cons, List.not_mem_nil, or_false, not_or] at ho
    obtain ⟨ha, hb, hc, hd⟩ := ho
    rw [State.chipHold, rd_wr_ne hd]
    exact hr o (by simp only [List.mem_cons, List.not_mem_nil, or_false, not_or]; exact ⟨ha, hb, hc⟩) h2 h3
  · rw [hf.fbit hw1, hb 9 (by decide) (by decide), fbit_eq_getLsbD]
    exact Bool.and_true _

/-- The state that restarts may differ from the one before it in what a restart does not keep. -/
theorem RestartedBy.of_same (h : RestartedBy cause u t) (hm : u.mem = s.mem) (ht : u.time = s.time) : RestartedBy cause s t := by
  rw [RestartedBy, hm, ht] at h
  exact h

/-! The power-fail warning (R464). -/

/-- The supply shown. -/
theorem frame_showSupply : Frame [.regs, .power] [.reg R.pwrVin, .fld F.pwrStatus_vinOk] s (s.showSupply mv) := .trans (.trans .power .wr) .fsetb

theorem frame_migrateAbort : Frame [.regs, .wf] [.blk 0x11] s s.migrateAbort :=
  .ite (.trans (.trans .fset .wf) .bump) (.refl s)

theorem frame_holdupAbort : Frame [.regs] [.blk 0x11] s s.holdupAbort := .ite (.trans .fset .bump) (.refl s)

/-- What a fall of the supply sets and counts. -/
def State.supplyFails (s : State) (mv : Nat) : State :=
  (((s.showSupply mv).fset F.pwrStatus_pfWarn 1).fset F.pwrStatus_shutdown 1).bump R.pwrPfCnt

/-- The background work that it ends, and the flush that it starts. -/
def State.workEnds (s : State) : State :=
  let t := s.migrateAbort.holdupAbort
  let t := if t.recd.rearming.isSome then t else t.fset F.recStatus_erasing 0
  t.flushStart true

/-- The hand-over asked for, where the hold-up is ready. -/
def State.failHandover (s : State) (ready : Bool) : State := if ready then s.startHandover 3 else s

theorem exec_powerFail {v : BitVec 16} (hc : s.power.chip = true) (hp : s.fbit F.pwrStatus_pfWarn = false) (hv : v.toNat < 4500) :
    exec (.powerFailWarning v) s = .next (
      if s.mod = .standby then (((s.supplyFails v.toNat).workEnds).failHandover (s.fbit F.pwrStatus_holdupReady)).setReady false
      else ((s.supplyFails v.toNat).workEnds).failHandover (s.fbit F.pwrStatus_holdupReady)) := by
  refine when_pos ?_
  rw [hc, hp, decide_eq_true hv]
  rfl

theorem supplyFails_shows (hw : s.regsWf = true) : (s.supplyFails mv).fbit F.pwrStatus_pfWarn = true ∧
    (s.supplyFails mv).fbit F.pwrStatus_shutdown = true ∧ ((s.supplyFails mv).rd R.pwrPfCnt).toNat = satAdd 32 (s.rd R.pwrPfCnt).toNat 1 ∧
    Frame [.regs, .power] [.reg R.pwrVin, .reg R.pwrStatus, .reg R.pwrPfCnt] s (s.supplyFails mv) := by
  have hf0 := frame_showSupply (s := s) (mv := mv)
  have hw0 := hf0.canon hw
  have hw1 : ((s.showSupply mv).fset F.pwrStatus_pfWarn 1).regsWf = true := regsWf_fset hw0
  have hw2 : (((s.showSupply mv).fset F.pwrStatus_pfWarn 1).fset F.pwrStatus_shutdown 1).regsWf = true := regsWf_fset hw1
  have hf1 : Frame [.regs] [.reg R.pwrStatus] (s.showSupply mv) (((s.showSupply mv).fset F.pwrStatus_pfWarn 1).fset F.pwrStatus_shutdown 1) :=
    .trans .fset .fset
  refine ⟨?_, ?_, ?_, (hf0.sub.trans hf1.sub).trans .bump⟩
  · rw [State.supplyFails, State.fbit, fget_bump_off (by decide), fget_fset_beside hw1 (by decide) (by decide), ← State.fbit,
      fbit_fset hw0 (by decide)]
    rfl
  · rw [State.supplyFails, State.fbit, fget_bump_off (by decide), ← State.fbit, fbit_fset hw1 (by decide)]
    rfl
  · rw [State.supplyFails, toNat_rd_bump hw2, hf1.rd hw0, hf0.rd hw]

theorem frame_workEnds : Frame [.regs, .wf] [.blk 0x11, .reg R.recStatus] s s.workEnds := by
  unfold State.workEnds
  extract_lets a b
  have ha : Frame [.regs, .wf] [.blk 0x11, .reg R.recStatus] s a := .trans frame_migrateAbort.sub frame_holdupAbort.sub
  have hb : Frame [.regs, .wf] [.blk 0x11, .reg R.recStatus] s b := ha.trans (.ite (.refl _) .fset)
  exact hb.trans frame_flushStart.sub

theorem startHandover_asks (hm : s.mod = .primary) (hr : s.bogie.pReady = true) {k : Nat} : s.startHandover k = handoverAsked s k := by
  rw [State.startHandover, hm]
  exact if_pos hr

theorem powerFail_clauses {v : BitVec 16} (hw : s.regsWf = true) (hc : s.power.chip = true) (hp : s.fbit F.pwrStatus_pfWarn = false)
    (hv : v.toNat < 4500) : ∃ t, exec (.powerFailWarning v) s = .next t ∧ t.fbit F.pwrStatus_pfWarn = true ∧ t.fbit F.pwrStatus_shutdown = true ∧
      (t.rd R.pwrPfCnt).toNat = satAdd 32 (s.rd R.pwrPfCnt).toNat 1 ∧
      (s.mod = .standby → t.fbit F.pairStatus_ready = false) ∧
      (s.mod = .primary → s.fbit F.pwrStatus_holdupReady = true → s.bogie.pReady = true → t.pair.handover = some 3) ∧
      (s.mod = .primary → s.fbit F.pwrStatus_holdupReady = false → t.pair = s.pair) := by
  obtain ⟨h1, h2, h3, hf1⟩ := supplyFails_shows (mv := v.toNat) hw
  have hw1 := hf1.canon hw
  have hf2 := frame_workEnds (s := s.supplyFails v.toNat)
  have hf : Frame [.regs, .power, .wf] [.reg R.pwrVin, .reg R.pwrStatus, .reg R.pwrPfCnt, .blk 0x11, .reg R.recStatus] s
    (s.supplyFails v.toNat).workEnds := hf1.sub.trans hf2.sub
  have hw2 := hf.canon hw
  have hmod := hf.mod hw
  have hfh (r : Bool) : Frame dropClaimParts dropClaimPlaces (s.supplyFails v.toNat).workEnds ((s.supplyFails v.toNat).workEnds.failHandover r) :=
    .ite (frame_startHandover _ _) (.refl _)
  refine ⟨_, exec_powerFail hc hp hv, ?_⟩
  generalize hu : (s.supplyFails v.toNat).workEnds = u at *
  have hw3 := (hfh (s.fbit F.pwrStatus_holdupReady)).canon hw2
  have hft : Frame dropClaimParts (.fld F.pairStatus_ready :: dropClaimPlaces) u (if s.mod = .standby then (u.failHandover (s.fbit F.pwrStatus_holdupReady)).setReady false
      else u.failHandover (s.fbit F.pwrStatus_holdupReady)) := .ite ((hfh _).sub.trans .fsetb) (hfh _).sub
  refine ⟨?_, ?_, ?_, fun hm => ?_, fun hm hr hpr => ?_, fun hm hr => ?_⟩
  · rw [hft.fbit hw2, hf2.fbit hw1, h1]
  · rw [hft.fbit hw2, hf2.fbit hw1, h2]
  · rw [hft.rd hw2, hf2.rd hw1, h3]
  · rw [if_pos hm]
    exact fbit_fsetb hw3 (by decide) rfl
  · have hpr' : u.bogie.pReady = true := (congrArg Bogie.pReady (hf.part .bogie (by decide))).trans hpr
    rw [if_neg (by rw [hm]; decide), hr, State.failHandover, if_pos rfl, startHandover_asks (hmod.trans hm) hpr', handoverAsked, State.fsetb, State.fset, State.wr]
  · rw [if_neg (by rw [hm]; decide), hr, State.failHandover, if_neg (by decide)]
    exact hf.part .pair (by decide)

/-! The supply's return and its loss (R465, R466). -/

theorem exec_supplyReturn {v : BitVec 16} (h1 : s.power.waitSupply = true) (h2 : s.power.aos = true) (h3 : 4500 ≤ v.toNat) :
    exec (.supplyReturnRestart v) s = .next { s.showSupply v.toNat with power := { s.power with waitSupply := false, vin := v.toNat } } := by
  refine when_pos ?_
  rw [h1, h2, decide_eq_true h3]
  rfl

/-- What the latch and the tokens become where the AOS stops. -/
def State.latchOff (s : State) (powered : Bool) : State :=
  let t := if s.bogie.holder == some s.slot && powered then s.latchAway (s.bogie.pReady || s.bogie.pClaim) else s.tokenDrop false
  if powered then t else { t with bogie := { t.bogie with holder := none, rising := none } }

/-- The AOS stopped. -/
def State.aosOff (s : State) : State :=
  { s with power := { s.power with aos := false, rails := false, ocxo := false, waitSupply := false, vin := 0, bank := 0 } }.setMod .off

theorem frame_latchOff {pp : Bool} : Frame [.regs, .bogie, .island, .host, .dma, .dray] latchAwayPlaces s (s.latchOff pp) := by
  unfold State.latchOff
  extract_lets a
  have ha : Frame [.regs, .bogie, .island, .host, .dma, .dray] latchAwayPlaces s a := .ite (frame_latchAway _ _) (frame_tokenDrop _ _).sub
  exact ha.trans (.ite (.refl _) .bogie)

theorem token_tokenDrop {b : Bool} (hw : s.regsWf = true) : (s.tokenDrop b).token = false := by
  have hw1 : s.dropCmds.regsWf = true := (frame_dropCmds s).canon hw
  have hw2 : (s.dropCmds.fsetb F.pairStatus_token false).regsWf = true := regsWf_fsetb hw1
  unfold State.tokenDrop
  extract_lets loops d
  have hf : Frame [.regs, .bogie, .island] [.blk 0x6, .blk 0x7, .fld F.ringStatus_master, .fld F.ringStatus_passive]
      (s.dropCmds.fsetb F.pairStatus_token false)
      ({ d.liftHolds with bogie := { d.bogie with ramp := if b then .driving else .steady, rampFrom := loops } }).showIsland :=
    Frame.after (frame_showIsland ..).sub <| Frame.after .bogie <| Frame.after (frame_liftHolds ..).sub <| Frame.after .fsetb .fset
  rw [State.token, hf.fbit hw2]
  exact fbit_fsetb hw1 (by decide) rfl

theorem token_latchAway {b : Bool} (hw : s.regsWf = true) : (s.latchAway b).token = false := by
  have hf : Frame [.regs, .bogie] [.fld F.pairStatus_claim] (s.tokenDrop b) (s.latchAway b) := .trans .fsetb .bogie
  rw [State.token, hf.fbit ((frame_tokenDrop s b).canon hw)]
  exact token_tokenDrop hw

theorem token_latchOff {pp : Bool} (hw : s.regsWf = true) : (s.latchOff pp).token = false := by
  unfold State.latchOff
  extract_lets a
  have ha : a.token = false := by
    rcases Bool.eq_false_or_eq_true (s.bogie.holder == some s.slot && pp) with h | h
    · rw [show a = s.latchAway (s.bogie.pReady || s.bogie.pClaim) from if_pos h]
      exact token_latchAway hw
    · rw [show a = s.tokenDrop false from if_neg (by rw [h]; decide)]
      exact token_tokenDrop hw
  cases pp <;> exact ha

theorem holder_latchOff : (s.latchOff false).bogie.holder = none := rfl

theorem exec_holdupExhausted_stops {pp : Bool} (h1 : s.power.aos = true) (h2 : s.power.chip = false) :
    exec (.holdupExhausted pp) s = .next ((s.latchOff pp).wipe true).aosOff := by
  refine when_pos ?_
  rw [h1, h2]
  rfl

theorem frame_aosOff : Frame [.regs, .power] [.fld F.pairStatus_state] s s.aosOff := .trans .power .setMod

theorem holdupExhausted_clauses (pp : Bool) (hw : s.regsWf = true) (h1 : s.power.aos = true) (h2 : s.power.chip = false) :
    ∃ t, exec (.holdupExhausted pp) s = .next t ∧
      t.power.aos = false ∧ t.power.rails = false ∧ t.power.ocxo = false ∧ t.token = false ∧ t.mod = .off ∧ t.mem = s.mem ∧
      t.time.tb3 = s.time.tb3 ∧ (pp = false → t.bogie.holder = none) := by
  have hf := frame_latchOff (s := s) (pp := pp)
  have hw1 := hf.canon hw
  obtain ⟨hw2, -, hm, -, hh, h3, -, -, hb, -⟩ := wipe_shows (s.latchOff pp) true hw1
  have hg := frame_aosOff (s := (s.latchOff pp).wipe true)
  refine ⟨_, exec_holdupExhausted_stops h1 h2, rfl, rfl, rfl, ?_, mod_setMod hw2, ?_, ?_, fun hp => ?_⟩
  · rw [State.token, hg.fbit hw2, hb 8 (by decide) (by decide), ← fbit_eq_getLsbD, ← State.token, token_latchOff hw, Bool.false_and]
  · exact (hg.part .mem (by decide)).trans (hm.trans (hf.part .mem (by decide)))
  · exact (congrArg TimeS.tb3 (hg.part .time (by decide))).trans (h3.trans (congrArg TimeS.tb3 (hf.part .time (by decide))))
  · rw [hg.part .bogie (by decide), hh, hp]
    exact holder_latchOff

/-! The OCXO (R26, R365). -/

/-- The time bases with the outage added. -/
def TimeS.outageAdded (t : TimeS) (outage : Nat) : TimeS := { t with tb1 := t.tb1 + BitVec.ofNat 64 outage, stopped := false }

/-- The outage added, and the OCXO back. -/
def State.clockBack (s : State) (outage : Nat) : State :=
  { s.setTb0 (s.tb0 + outage) with
    time := (s.setTb0 (s.tb0 + outage)).time.outageAdded outage
    power := { (s.setTb0 (s.tb0 + outage)).power with ocxo := true } }

/-- A LOCKED TB0 after an outage. -/
def State.lockLost (s : State) : State :=
  if s.tb0State = tbLocked then ((s.fset F.timeStatus_tb0State tbHoldover).setRate s.lastRate).wr R.timeHoldS 0 else s

/-- The error bound, and the count of steps. -/
def State.outageCounted (s : State) (outage : Nat) : State :=
  (s.bumpBy R.timeTb0Err (50 * outage / 1000000000 + 31000)).bump R.timeSteps

theorem exec_ocxoReturns {outage : Nat} (h1 : s.power.aos = true) (h2 : s.power.rails = true) (h3 : s.power.ocxo = false) :
    ∃ l, exec (.ocxoRecovery outage) s = .next (((s.clockBack outage).lockLost.outageCounted outage).raise hapStep 0 l) := by
  rw [exec_ocxoRecovery]
  unfold execOcxoRecovery
  exact ⟨_, when_pos (by rw [h1, h2, h3]; rfl)⟩

theorem frame_clockBack {n : Nat} : Frame [.time, .power] [] s (s.clockBack n) :=
  have h : Frame [.time, .power] [] s (s.setTb0 (s.tb0 + n)) := .time
  h.trans (.trans (.time (x := (s.setTb0 (s.tb0 + n)).time.outageAdded n)) (.power (x := { (s.setTb0 (s.tb0 + n)).power with ocxo := true })))

theorem time_setTb0 {x : Int} : (s.setTb0 x).time =
    { s.time with tb0s := BitVec.ofNat 64 ((max x 0).toNat / 1000000000), tb0n := (max x 0).toNat % 1000000000 } := by
  rw [State.setTb0]

theorem time_clockBack {n : Nat} : (s.clockBack n).time = { s.time with
    tb0s := BitVec.ofNat 64 ((s.tb0 + n).toNat / 1000000000), tb0n := (s.tb0 + n).toNat % 1000000000
    tb1 := s.time.tb1 + BitVec.ofNat 64 n, stopped := false } := by
  have hn : (max (s.tb0 + n) 0).toNat = (s.tb0 + n).toNat := by omega
  rw [State.clockBack, TimeS.outageAdded, time_setTb0, hn]

theorem frame_outageCounted {n : Nat} : Frame [.regs] [.reg R.timeTb0Err, .reg R.timeSteps] s (s.outageCounted n) := .trans .bumpBy .bump

theorem lockLost_shows (hw : s.regsWf = true) : (s.fget F.timeStatus_tb0State = 2 → s.lockLost.fget F.timeStatus_tb0State = 3) ∧
    s.lockLost.time = s.time ∧ Frame [.regs, .time] [.reg R.timeStatus, .reg R.timeRate, .reg R.timeHoldS] s s.lockLost := by
  have hw1 : (s.fset F.timeStatus_tb0State tbHoldover).regsWf = true := regsWf_fset hw
  have hf := frame_setRate (s.fset F.timeStatus_tb0State tbHoldover) s.lastRate
  have hv : ((s.fset F.timeStatus_tb0State tbHoldover).wr R.timeRate (sat32 s.lastRate)).tb0State = 3 := by
    rw [State.tb0State, fget_wr_off (by decide), fget_fset hw (by decide)]
    rfl
  refine ⟨fun h => ?_, ?_, .ite (.trans (.trans .fset hf.sub) .wr) (.refl _)⟩
  · rw [State.lockLost, if_pos (show s.tb0State = tbLocked from h), fget_wr_off (by decide), hf.fget hw1, fget_fset hw (by decide)]
    rfl
  · rw [State.lockLost]
    split
    · rw [State.setRate, if_neg (by rw [hv]; decide), State.wr, State.wr, State.fset, State.wr]
    · rfl

/-- What a recovery shows beside the time bases. -/
theorem recovery_shows (hw : s.regsWf = true) {n : Nat} : (s.lockLost.outageCounted n).time = s.time ∧
    (s.lockLost.outageCounted n).power = s.power ∧ (s.lockLost.outageCounted n).mem = s.mem ∧
    (s.fget F.timeStatus_tb0State = 2 → (s.lockLost.outageCounted n).fget F.timeStatus_tb0State = 3) ∧
    ((s.lockLost.outageCounted n).rd R.timeSteps).toNat = satAdd 32 (s.rd R.timeSteps).toNat 1 := by
  obtain ⟨hl, ht, hf1⟩ := lockLost_shows hw
  have hw1 := hf1.canon hw
  have hf2 := frame_outageCounted (s := s.lockLost) (n := n)
  refine ⟨(hf2.part .time (by decide)).trans ht, (hf2.part .power (by decide)).trans (hf1.part .power (by decide)),
    (hf2.part .mem (by decide)).trans (hf1.part .mem (by decide)), fun h => ?_, ?_⟩
  · rw [hf2.fget hw1, hl h]
  · rw [State.outageCounted, toNat_rd_bump (regsWf_bumpBy hw1), State.bumpBy, rd_wr_ne (by decide), hf1.rd hw]

theorem ocxo_clockBack {n : Nat} : (s.clockBack n).power.ocxo = true := by rw [State.clockBack]

/-- The time bases after an outage, read off the state that a recovery ends in. -/
theorem recovered {c u : State} {n : Nat} (hf : Frame [.time, .power] [] s c) (hw : s.regsWf = true) (htime : c.time = { s.time with
      tb0s := BitVec.ofNat 64 ((s.tb0 + n).toNat / 1000000000), tb0n := (s.tb0 + n).toNat % 1000000000
      tb1 := s.time.tb1 + BitVec.ofNat 64 n, stopped := false }) (hpower : c.power.ocxo = true)
    (h : u.time = c.time ∧ u.power = c.power ∧ u.mem = c.mem ∧
      (c.fget F.timeStatus_tb0State = 2 → u.fget F.timeStatus_tb0State = 3) ∧
      (u.rd R.timeSteps).toNat = satAdd 32 (c.rd R.timeSteps).toNat 1) (l : List W64) :
    (u.raise hapStep 0 l).power.ocxo = true ∧ (u.raise hapStep 0 l).time.stopped = false ∧
    (u.raise hapStep 0 l).time.tb1 = s.time.tb1 + BitVec.ofNat 64 n ∧
    (u.raise hapStep 0 l).time.tb0s = BitVec.ofNat 64 ((s.tb0 + n).toNat / 1000000000) ∧
    (u.raise hapStep 0 l).time.tb0n = (s.tb0 + n).toNat % 1000000000 ∧
    (s.fget F.timeStatus_tb0State = 2 → (u.raise hapStep 0 l).fget F.timeStatus_tb0State = 3) ∧
    ((u.raise hapStep 0 l).rd R.timeSteps).toNat = satAdd 32 (s.rd R.timeSteps).toNat 1 ∧ (u.raise hapStep 0 l).mem = s.mem := by
  obtain ⟨ht, hp, hm, hst, hc⟩ := h
  have hsteps : c.rd R.timeSteps = s.rd R.timeSteps := hf.rd hw
  rw [htime] at ht
  rw [hsteps] at hc
  exact ⟨(congrArg Power.ocxo hp).trans hpower, congrArg TimeS.stopped ht, congrArg TimeS.tb1 ht,
    congrArg TimeS.tb0s ht, congrArg TimeS.tb0n ht, fun h => hst ((hf.fget hw).trans h), hc, hm.trans (hf.part .mem (by decide))⟩

theorem ocxoRecovery_clauses (outage : Nat) (hw : s.regsWf = true) (h1 : s.power.aos = true) (h2 : s.power.rails = true)
    (h3 : s.power.ocxo = false) : ∃ t, exec (.ocxoRecovery outage) s = .next t ∧ t.power.ocxo = true ∧ t.time.stopped = false ∧
      t.time.tb1 = s.time.tb1 + BitVec.ofNat 64 outage ∧
      t.time.tb0s = BitVec.ofNat 64 ((s.tb0 + outage).toNat / 1000000000) ∧ t.time.tb0n = (s.tb0 + outage).toNat % 1000000000 ∧
      (s.fget F.timeStatus_tb0State = 2 → t.fget F.timeStatus_tb0State = 3) ∧
      (t.rd R.timeSteps).toNat = satAdd 32 (s.rd R.timeSteps).toNat 1 ∧ t.mem = s.mem := by
  obtain ⟨l, he⟩ := exec_ocxoReturns (outage := outage) h1 h2 h3
  have hf := frame_clockBack (s := s) (n := outage)
  exact ⟨_, he, recovered hf hw time_clockBack ocxo_clockBack (recovery_shows (hf.canon hw)) l⟩

/-! A restart that MC asks for (R484). -/

/-- The restart that a write starts. -/
def State.restartAsked (s : State) : State :=
  { (s.fset F.sysStatus_restartPend 1).setReady false with power := { s.power with restarting := true } }.flushStart false

theorem sysRestart_starts {v : W32} (hk : v.toNat % 65536 = 0x3B0F) (hm : s.mod ∈ [.config, .syncing, .standby, .stopped, .service]) :
    s.sysRestart v = if s.restartAsked.flushing then s.restartAsked else s.restartAsked.chipHold 2 := by
  have hk' : fldN v.toNat 0 16 = 0x3B0F := by rwa [fldN, pow_zero, Nat.div_one]
  refine if_neg ?_
  rw [not_or, not_not]
  refine ⟨hk', ?_⟩
  simp only [List.mem_cons, List.not_mem_nil, or_false] at hm
  rcases hm with h | h | h | h | h <;> rw [h] <;> decide

theorem sysRestart_ignored {v : W32} (h : v.toNat % 65536 ≠ 0x3B0F ∨ s.mod ∈ [.off, .boot, .primary, .alone]) :
    s.sysRestart v = s.bump 0x10 := by
  refine if_pos ?_
  refine h.imp (fun hk => ?_) fun hm => ?_
  · rwa [fldN, pow_zero, Nat.div_one]
  · simp only [List.mem_cons, List.not_mem_nil, or_false] at hm
    rcases hm with h | h | h | h <;> rw [h] <;> decide

theorem restartAsked_shows (hw : s.regsWf = true) (hf : s.fbit F.recStatus_frozen = false) (hr : s.recd.rearming = none) :
    s.restartAsked.fbit F.sysStatus_restartPend = true ∧ s.restartAsked.fbit F.pairStatus_ready = false ∧
    s.restartAsked.fbit F.recStatus_flushing = true ∧ s.restartAsked.power = { s.power with restarting := true } ∧
    keepsRegs [R.sysStatus, R.pairStatus, R.recStatus] s s.restartAsked ∧
    s.restartAsked = { s with regs := s.restartAsked.regs, power := s.restartAsked.power } := by
  have hw1 : (s.fset F.sysStatus_restartPend 1).regsWf = true := regsWf_fset hw
  have hw2 : ((s.fset F.sysStatus_restartPend 1).setReady false).regsWf = true := regsWf_fsetb hw1
  have hf0 : Frame [.regs] [.reg R.sysStatus, .reg R.pairStatus] s ((s.fset F.sysStatus_restartPend 1).setReady false) := .trans .fset .fsetb
  have hf1 : Frame [.regs, .power] [.reg R.recStatus] ((s.fset F.sysStatus_restartPend 1).setReady false) s.restartAsked :=
    .trans .power frame_flushStart.sub
  have hfa : Frame [.regs, .power] [.reg R.sysStatus, .reg R.pairStatus, .reg R.recStatus] s s.restartAsked := hf0.sub.trans hf1.sub
  refine ⟨?_, ?_, ?_, frame_flushStart.part .power (by decide), hfa.keepsRegs hw, hfa.eq_patch⟩
  · rw [hf1.fbit hw2, State.setReady, State.fbit, fget_fsetb_off (by decide), ← State.fbit, fbit_fset hw (by decide)]
    rfl
  · rw [hf1.fbit hw2]
    exact fbit_fsetb hw1 (by decide) rfl
  · refine flushStart_flushes hw2 ?_ ((hf0.fbit hw).trans hf)
    exact (congrArg Rec.rearming (hf0.part .recd (by decide))).trans hr

/-- What the end of a flush writes before a restart. -/
def State.flushWrites (s : State) (area : List Record) (k : Nat) : State :=
  (((({ s with recd := { s.recd with staging := [], area := area, freezeReq := none } }.wr R.recStaged 0).wr R.recFlushed
    (BitVec.ofNat 32 area.length)).bumpBy R.recLost k).bump R.recFlushes).fset F.recStatus_flushing 0

theorem frame_flushWrites {l : List Record} {k : Nat} : Frame [.regs, .recd] [.blk 0x12] s (s.flushWrites l k) :=
  .trans (.trans (.trans (.trans (.trans .recd .wr) .wr) .bumpBy) .bump) .fset

theorem flushEnd_restarts (lost : List Nat) (h1 : s.fbit F.recStatus_flushing = true) (h2 : s.power.restarting = true)
    (h3 : s.recd.freezeReq = none) : ∃ new k, new.length = s.recd.staging.length ∧
      exec (.flushEnd lost) s = .next ((s.flushWrites (s.recd.area ++ new) k).chipHold 2) := by
  rw [exec_flushEnd]
  unfold execFlushEnd
  rw [h3, h2]
  exact ⟨_, _, by rw [List.length_map, List.length_range], when_pos h1⟩

/-! The store of PWR_CFG in flash (R467). -/

theorem pwrApply_waits (h : (s.rd R.sysApplyPend).getLsbD 21 = false) :
    s.pwrApply = { s.fset ⟨R.sysApplyPend, 21, 1⟩ 1 with power := { s.power with cfgPending := true } } :=
  if_neg (fun hh => absurd (h.symm.trans hh) (by decide))

theorem pwrApply_ignored (h : (s.rd R.sysApplyPend).getLsbD 21 = true) : s.pwrApply = s.bump 0x15010 := if_pos h

theorem exec_pwrApply_writes {m : Master} (hs : s.writes m 0x1500C) : exec (.pwrApply m) s = .next s.pwrApply :=
  asWrite_writes (f := fun s => s.pwrApply) hs

theorem exec_sysRestart_writes {m : Master} {v : W32} (hs : s.writes m R.sysRestart) : exec (.sysRestart m v) s = .next (s.sysRestart v) :=
  asWrite_writes (f := fun s => s.sysRestart v) hs

/-- A field of the pending plans that is set, and the power state with it. -/
theorem applyPend_shows (hw : s.regsWf = true) {n : Nat} {p : Power} :
    (State.rd { s.fset ⟨R.sysApplyPend, 21, 1⟩ n with power := p } R.sysApplyPend).getLsbD 21 = (n % 2 == 1) ∧
    keepsRegs [R.sysApplyPend] s { s.fset ⟨R.sysApplyPend, 21, 1⟩ n with power := p } :=
  ⟨fbit_eq_getLsbD.symm.trans (fbit_fset hw (by decide)),
    keepsRegs_fset (f := ⟨R.sysApplyPend, 21, 1⟩)⟩

/-- Settles O33: each command by the registers and parts that it writes, and a restart by what a reset of the chip leaves. -/
theorem powerFailAndRestarts : Obligations.PowerFailAndRestarts := by
  intro s hw
  refine ⟨fun mv hc hp hv => powerFail_clauses hw hc hp hv, fun mv hc hp => ?_, fun mv h1 h2 h3 => ?_,
    fun pp h1 h2 => holdupExhausted_clauses pp hw h1 h2, fun h1 h2 => ?_, fun outage h1 h2 h3 => ocxoRecovery_clauses outage hw h1 h2 h3,
    fun m v hs hk hm hf hr => ?_, fun m v hs h => ?_, fun lost h1 h2 h3 => ?_, fun m hs h => ?_, fun m hs h => ?_, fun h => ?_⟩
  · obtain ⟨hr, -, hcl⟩ := chipHold_restarts (cause := 3) hw
    exact ⟨{ s.chipHold 3 with power := { (s.chipHold 3).power with waitSupply := true, bank := mv.toNat } },
      when_pos (by rw [hc, hp]; rfl), hr, rfl, rfl, hcl⟩
  · have hf := frame_showSupply (s := s) (mv := mv.toNat)
    exact ⟨_, exec_supplyReturn h1 h2 h3, rfl,
      (hf.sub.trans .power : Frame [.regs, .power] [.reg R.pwrVin, .reg R.pwrStatus] s _).keepsRegs hw, hf.part .mem (by decide)⟩
  · obtain ⟨⟨hp, hr⟩, -⟩ := chipHold_restarts (cause := 4) hw
    exact ⟨{ s.chipHold 4 with power := { (s.chipHold 4).power with ocxo := false }, time := { (s.chipHold 4).time with stopped := true } },
      when_pos (by rw [h1, h2]; rfl), ⟨hp, hr⟩, rfl, rfl⟩
  · obtain ⟨h1, h2, h3, h4⟩ := restartAsked_shows hw hf hr
    exact ⟨_, (exec_sysRestart_writes hs).trans (by rw [sysRestart_starts hk hm, State.flushing, if_pos h3]), h1, h2, h3, h4⟩
  · exact ignored_of hw ((exec_sysRestart_writes hs).trans (by rw [sysRestart_ignored h]))
  · obtain ⟨new, k, hl, he⟩ := flushEnd_restarts lost h1 h2 h3
    have hf := frame_flushWrites (s := s) (l := s.recd.area ++ new) (k := k)
    obtain ⟨hr, ha, -⟩ := chipHold_restarts (cause := 2) (hf.canon hw)
    refine ⟨_, he, hr.of_same (hf.part .mem (by decide)) (hf.part .time (by decide)), ?_⟩
    have har : (s.flushWrites (s.recd.area ++ new) k).recd.area = s.recd.area ++ new := rfl
    rw [ha, har, List.length_append, hl]
  · exact ⟨_, (exec_pwrApply_writes hs).trans (by rw [pwrApply_waits h]), (applyPend_shows hw).1, (applyPend_shows hw).2, rfl⟩
  · exact ignored_of hw ((exec_pwrApply_writes hs).trans (by rw [pwrApply_ignored h]))
  · exact ⟨_, when_pos h, (applyPend_shows hw).1, (applyPend_shows hw).2, rfl⟩

end Sys2Proof.Machine
end

section
/-! The commands of the host rings that change the module (R336). -/

namespace Sys2Proof.Machine

variable {s t : State} {c : Cmd} {n : Fin 16}

/-! What each operation changes. -/

theorem frame_vwQueue (s : State) (id : W64) (typeId off size : Nat) (v : W64) : Frame [.regs, .olc, .recd] [.fld
    F.olcStatus_vwPend, .reg R.olcVwRefused] s (s.vwQueue id typeId off size
    v).1 := by
  unfold State.vwQueue
  refine Frame.ite_fst (frame_vwRefuse ..).sub ?_
  split
  · exact (frame_vwRefuse ..).sub
  · exact Frame.ite_fst (frame_vwRefuse ..).sub (Frame.ite_fst (frame_vwRefuse ..).sub (Frame.after (frame_vwShow ..).sub <|
      Frame.olc))
theorem frame_setIdle (s : State) (off v : Nat) : Frame [.mem] [] s (s.setIdle off v) := Frame.wrMem
theorem frame_constPatch (s : State) (id : W64) (off size : Nat) (v : W64) : Frame [.regs, .mem, .cat, .olc, .recd] [.blk 0x4,
    .blk 0xf] s (s.constPatch id off size v).1 := by
  unfold State.constPatch
  refine Frame.ite_fst (Frame.refl s) ?_
  split
  · exact Frame.refl s
  extract_lets fresh s1 b cnt tab n g1 g2
  have hg1 : Frame [.regs, .mem, .cat, .olc, .recd] [.blk 0x4, .blk 0xf] s g1.1 := Frame.ite_fst (frame_mcAccess ..).sub
    (Frame.refl s)
  have hg2 : Frame [.regs, .mem, .cat, .olc, .recd] [.blk 0x4, .blk 0xf] s g2.1 := Frame.ite_fst (Frame.after (frame_mcAccess
    ..).sub hg1) hg1
  refine Frame.ite_fst (Frame.refl s) <| Frame.ite_fst (Frame.refl s) <| Frame.ite_fst hg2 ?_
  have h : Frame [.regs, .mem, .cat, .olc, .recd] [.blk 0x4, .blk 0xf] s { g2.1 with mem := s1.mem } := Frame.after .mem hg2
  clear_value g2 s1
  exact Frame.after Frame.fsetb <| Frame.after Frame.wr <| Frame.after Frame.olc <| Frame.after (frame_setPkg ..).sub <|
    Frame.after (frame_setIdle ..).sub <| Frame.after (frame_setIdle ..).sub <| Frame.after (frame_setIdle ..).sub <|
    Frame.after (frame_setIdle ..).sub <| Frame.after Frame.wrMem <| Frame.after Frame.wrMem h

/-! Answers. -/

theorem opcode_of_begins {k op : Nat} (h : s.begins k op c) : c.opcode = op := by
  obtain ⟨h, -, -⟩ := h
  unfold State.toBegin at h
  split at h
  · cases h
  · dsimp only at h
    split at h
    next hc =>
      rw [← Option.some.inj h]
      exact hc.1
    next => cases h

/-- An operation that answers a status of its own completes with it. -/
theorem statusDone_refused {r : State × Nat} {o : Option Out} {k : Nat} (h : r.2 = k) (hk : k ≠ 0) (ho : c.opcode ≠ 9) :
    s.statusDone c r o = r.1.cmdDone c.id k 0 := by
  subst h
  refine (if_pos hk).trans ?_
  rw [if_neg (fun h => ho h.2)]

theorem statusDone_tells {r : State × Nat} {o : Out} (h : r.2 = 0) : s.statusDone c r (some o) = (r.1.sendFor c.id o).cmdDone c.id 0 0 :=
  if_neg (not_not.mpr h)

theorem statusDone_done {r : State × Nat} (h : r.2 = 0) : s.statusDone c r none = r.1.cmdDone c.id 0 0 := if_neg (not_not.mpr h)

/-! CONFIG (R224, R378). -/

theorem config_clauses (hb : s.begins n 0x05 c) (ha : s.accepts 0x05 c) : let x := s.writePairs c.dataBytes
    (∀ k, x.2 = some k → ∃ u : State, exec (.configCmd n) s = .next (u.cmdDone c.id 0 k) ∧ u.regs = x.1.regs ∧ u.act = x.1.act ∧
      (x.1.partner ≠ .off → ∃ d, ∃ m ∈ u.pair.msgs, m.body = .item 5 d c.dataBytes)) ∧
    (x.2 = none → exec (.configCmd n) s = .next (x.1.cmdDone c.id 0x0103 0)) := by
  intro x
  have he : exec (.configCmd n) s = .next (match x.2 with
      | none => x.1.cmdDone c.id 0x0103 0
      | some k => (x.1.sendFor c.id (.item 0x05 x.1.ringDigests c.dataBytes)).cmdDone c.id 0 k) := by
    rw [exec_configCmd, execConfigCmd]
    exact runCmd_accepts hb ha
  refine ⟨fun k hk => ?_, fun hk => by rw [he, hk]⟩
  have hf := frame_sendFor x.1 c.id (.item 0x05 x.1.ringDigests c.dataBytes)
  exact ⟨x.1.sendFor c.id (.item 0x05 x.1.ringDigests c.dataBytes), by rw [he, hk], hf.part .regs (by decide), hf.part .act (by decide),
    fun hp => ⟨_, sendFor_tells hp⟩⟩

theorem config_empty (hb : s.begins n 0x05 c) (ha : s.accepts 0x05 c) (hd : c.dataBytes = []) :
    ∃ u : State, exec (.configCmd n) s = .next (u.cmdDone c.id 0 0) ∧ u.regs = s.regs := by
  have hx : s.writePairs c.dataBytes = (s, some 0) := by rw [hd]; rfl
  obtain ⟨u, he, hr, -⟩ := (config_clauses hb ha).1 0 (by rw [hx])
  exact ⟨u, he, by rw [hr, hx]⟩

/-! VALUE_WRITE (R187). -/

/-- A value write queued. -/
theorem vwQueue_queues {id : W64} {typeId off size : Nat} {v : W64} {y : Sym} (h0 : s.aget F.olcCfg_vwEn ≠ 0) (hy : s.sym s.bank id = some y)
    (hk : y.kind = 0) (hwr : y.writable = true) (ht : y.typeId = typeId) (hf : vwFits y off size = true) (hl : s.olc.vwq.length < 256) :
    s.vwQueue id typeId off size v = (State.vwShow { s with olc := { s.olc with
      vwq := s.olc.vwq ++ [{ symId := id, typeId := typeId, off := off, value := leBytes size v.toNat }] } }, 0) := by
  have hs : s.vwSym { symId := id, typeId := typeId, off := off, value := leBytes size v.toNat } = some y := by
    rw [State.vwSym, hy, Option.filter_some, if_pos]
    rw [hk, hwr, ht]
    simp
  unfold State.vwQueue
  dsimp only
  rw [if_neg h0, hs]
  dsimp only
  rw [hf, if_neg (by decide), if_neg (by omega)]

theorem valueWrite_clauses (hw : s.regsWf = true) (hb : s.begins n 0x06 c) (ha : s.accepts 0x06 c) : let off := fldN c.desc.arg0.toNat 32 32
    (s.aget F.olcCfg_vwEn = 0 → exec (.valueWrite n) s = .next ((s.vwRefuse c.symId).cmdDone c.id 0x0103 0)) ∧
    (∀ y, s.aget F.olcCfg_vwEn ≠ 0 → s.sym s.bank c.symId = some y → y.kind = 0 → y.writable = true → y.typeId = c.typeId →
      vwFits y off c.size = true → s.olc.vwq.length < 256 → ∃ (u : State) (w : ValueWrite), exec (.valueWrite n) s = .next (u.cmdDone c.id 0 0) ∧
        u.olc.vwq = s.olc.vwq ++ [w] ∧ w.symId = c.symId ∧ w.off = off ∧ w.value = leBytes c.size c.desc.arg2.toNat ∧
        u.mem = s.mem ∧ ∃ d, s.partner ≠ .off → ∃ m ∈ u.pair.msgs, m.body = .item 6 d []) := by
  intro off
  have he : exec (.valueWrite n) s = .next (s.statusDone c (s.vwQueue c.symId c.typeId off c.size c.desc.arg2)
    (some (.item 0x06 [c.symId, BitVec.ofNat 64 c.typeId, BitVec.ofNat 64 off, BitVec.ofNat 64 c.size, c.desc.arg2] []))) := by
    rw [exec_valueWrite, execValueWrite]
    exact runCmd_accepts hb ha
  have ho : c.opcode ≠ 9 := by rw [opcode_of_begins hb]; decide
  refine ⟨fun h0 => ?_, fun y h0 hy hk hwr ht hf hl => ?_⟩
  · have hq : s.vwQueue c.symId c.typeId off c.size c.desc.arg2 = (s.vwRefuse c.symId, 0x0103) := if_pos h0
    rw [he, hq, statusDone_refused (k := 0x0103) rfl (by decide) ho]
  · rw [vwQueue_queues h0 hy hk hwr ht hf hl, statusDone_tells rfl] at he
    have hf1 : Frame [.regs, .olc] [.fld F.olcStatus_vwPend] s (State.vwShow { s with olc := { s.olc with
      vwq := s.olc.vwq ++ [{ symId := c.symId, typeId := c.typeId, off := off, value := leBytes c.size c.desc.arg2.toNat }] } }) :=
      .trans .olc (frame_vwShow _).sub
    have hq := (frame_vwShow { s with olc := { s.olc with
      vwq := s.olc.vwq ++ [{ symId := c.symId, typeId := c.typeId, off := off, value := leBytes c.size c.desc.arg2.toNat }] } }).part .olc (by decide)
    have hg := frame_sendFor (State.vwShow { s with olc := { s.olc with
      vwq := s.olc.vwq ++ [{ symId := c.symId, typeId := c.typeId, off := off, value := leBytes c.size c.desc.arg2.toNat }] } }) c.id
      (.item 0x06 [c.symId, BitVec.ofNat 64 c.typeId, BitVec.ofNat 64 off, BitVec.ofNat 64 c.size, c.desc.arg2] [])
    exact ⟨_, _, he, congrArg Olc.vwq ((hg.part .olc (by decide)).trans hq), rfl, rfl, rfl,
      (hg.part .mem (by decide)).trans (hf1.part .mem (by decide)), _, fun hp => sendFor_tells (by rwa [partner_of_frame hf1 hw rfl])⟩

/-! Forces (R182). -/

theorem countForces_shows (hw : s.regsWf = true) : s.countForces.rd R.olcForces = BitVec.ofNat 32 s.olc.forces.length ∧
    s.countForces.olc = s.olc := by
  have hf : Frame [.regs] [.reg R.olcConflicts, .fld F.olcStatus_forceConflict] (s.wr R.olcForces (BitVec.ofNat 32 s.olc.forces.length)) s.countForces :=
    .after .fsetb .wr
  refine ⟨(hf.rd (regsWf_wr hw)).trans (rd_wr_self hw), (frame_forcesCounted s).part .olc (by decide)⟩

theorem forceSet_clauses (hw : s.regsWf = true) (hb : s.begins n 0x07 c) (ha : s.accepts 0x07 c) :
    (s.forceable c.symId c.typeId = none → exec (.forceSet n) s = .next (s.cmdDone c.id 0x0105 0)) ∧
    (∀ y, s.forceable c.symId c.typeId = some y → s.fget F.olcStatus_pkgState < 5 →
      (s.olc.forces.filter (fun g => g.symId ≠ c.symId)).length < 1024 → ∃ (u : State) (f : Force), exec (.forceSet n) s = .next (u.cmdDone c.id 0 0) ∧
        u.olc.forces = s.olc.forces.filter (fun g => g.symId ≠ c.symId) ++ [f] ∧ f.symId = c.symId ∧
        f.value = leBytes y.size c.desc.arg2.toNat ∧ u.rd R.olcForces = BitVec.ofNat 32 u.olc.forces.length) := by
  have he : exec (.forceSet n) s = .next (s.statusDone c (s.forceSet c.symId c.typeId c.desc.arg2) none) := by
    rw [exec_forceSet, execForceSet]
    exact runCmd_accepts hb ha
  have ho : c.opcode ≠ 9 := by rw [opcode_of_begins hb]; decide
  refine ⟨fun hn => ?_, fun y hy hp hl => ?_⟩
  · have hq : s.forceSet c.symId c.typeId c.desc.arg2 = (s, 0x0105) := by rw [State.forceSet, hn]
    rw [he, hq, statusDone_refused (k := 0x0105) rfl (by decide) ho]
  · have hq : s.forceSet c.symId c.typeId c.desc.arg2 = (State.countForces { s with olc := { s.olc with
        forces := s.olc.forces.filter (fun g => g.symId ≠ c.symId) ++
          [{ symId := c.symId, typeId := c.typeId, value := leBytes y.size c.desc.arg2.toNat }] } }, 0) := by
      unfold State.forceSet
      rw [hy]
      dsimp only
      rw [if_neg, if_neg (by omega)]
      rw [State.pkgState, show pkgArmed = 5 from rfl, show pkgCarrying = 6 from rfl]
      omega
    rw [hq, statusDone_done rfl] at he
    obtain ⟨h1, h2⟩ := countForces_shows (s := { s with olc := { s.olc with
        forces := s.olc.forces.filter (fun g => g.symId ≠ c.symId) ++
          [{ symId := c.symId, typeId := c.typeId, value := leBytes y.size c.desc.arg2.toNat }] } }) hw
    exact ⟨_, _, he, congrArg Olc.forces h2, rfl, rfl, h1.trans (by rw [h2])⟩

theorem forceRelease_clauses (hb : s.begins n 0x08 c) (ha : s.accepts 0x08 c) :
    (c.symId = BitVec.allOnes 64 → ∃ u : State, exec (.forceRelease n) s = .next (u.cmdDone c.id 0 0) ∧ u.olc.forces = []) ∧
    (c.symId ≠ BitVec.allOnes 64 → (∃ f ∈ s.olc.forces, f.symId = c.symId) → ∃ u : State, exec (.forceRelease n) s =
      .next (u.cmdDone c.id 0 0) ∧ u.olc.forces = s.olc.forces.filter (fun f => f.symId ≠ c.symId)) := by
  have he : exec (.forceRelease n) s = .next (s.statusDone c (s.forceRelease c.symId) none) := by
    rw [exec_forceRelease, execForceRelease]
    exact runCmd_accepts hb ha
  refine ⟨fun h => ?_, fun h hs => ?_⟩
  · have hq : s.forceRelease c.symId = (State.countForces { s with olc := { s.olc with forces := [] } }, 0) := if_pos h
    rw [hq, statusDone_done rfl] at he
    exact ⟨_, he, congrArg Olc.forces ((frame_forcesCounted _).part .olc (by decide))⟩
  · obtain ⟨f, hf, hs⟩ := hs
    have ha : s.olc.forces.any (fun f => f.symId == c.symId) = true := List.any_eq_true.mpr ⟨f, hf, beq_iff_eq.mpr hs⟩
    have hq : s.forceRelease c.symId = (State.countForces { s with olc := { s.olc with
        forces := s.olc.forces.filter (fun f => f.symId ≠ c.symId) } }, 0) := (if_neg h).trans (if_pos ha)
    rw [hq, statusDone_done rfl] at he
    exact ⟨_, he, congrArg Olc.forces ((frame_forcesCounted _).part .olc (by decide))⟩

/-! CONST_PATCH (R188). -/

/-- What a patch shows of the bank that it leaves. -/
def State.patchShown (s : State) (n : Nat) : State :=
  ({ s.setPkg pkgChecking with olc := { s.olc with partnerPkg := none, carry := none } }.wr R.olcLoaded (BitVec.ofNat 32 n)).fsetb
    F.olcStatus_pairReady false

theorem patchShown_checking (hw : s.regsWf = true) {n : Nat} : (s.patchShown n).pkgState = pkgChecking := by
  have hf : Frame [.regs, .olc] [.reg R.olcLoaded, .fld F.olcStatus_pairReady] (s.setPkg pkgChecking) (s.patchShown n) := .trans (.trans .olc .wr) .fsetb
  exact (hf.fget (regsWf_fset hw)).trans (setPkg_shows hw (by decide))

/-- An answer with a code is not the one that completes. -/
theorem not_refused {P : Prop} {x : State} {k : Nat} (h : (x, k + 1).2 = 0) : P := absurd h (Nat.succ_ne_zero k)

theorem constPatch_checking {id : W64} {off size : Nat} {v : W64} (hw : s.regsWf = true) (h : (s.constPatch id off size v).2 = 0) :
    (s.constPatch id off size v).1.pkgState = pkgChecking := by
  revert h
  unfold State.constPatch
  split
  · exact not_refused
  · split
    · exact not_refused
    · extract_lets fresh s1 b cnt tab k g1 g2
      have hg1 : Frame [.regs, .cat, .recd] [.blk 0xf] s g1.1 := Frame.ite_fst (frame_mcAccess ..).sub (Frame.refl s)
      have hg2 : Frame [.regs, .cat, .recd] [.blk 0xf] s g2.1 := Frame.ite_fst (Frame.after (frame_mcAccess ..).sub hg1) hg1
      have hw2 : g2.1.regsWf = true := hg2.canon hw
      clear_value g2 s1
      split
      · exact not_refused
      · split
        · exact not_refused
        · split
          · exact not_refused
          · intro _
            refine patchShown_checking ?_
            exact (Frame.after (frame_setIdle ..) <| Frame.after (frame_setIdle ..) <| Frame.after (frame_setIdle ..) <|
              Frame.after (frame_setIdle ..) <| Frame.after Frame.wrMem <| Frame.after Frame.wrMem (Frame.mem (W := []))).canon hw2

theorem constPatch_clauses (hw : s.regsWf = true) (hb : s.begins n 0x0D c) (ha : s.accepts 0x0D c) :
    (s.pkgState ≠ pkgEmpty → s.holdsPatched = false → exec (.constPatch n) s = .next (s.cmdDone c.id 0x0103 0)) ∧
    ((s.constPatch c.symId (fldN c.desc.arg0.toNat 0 32) c.size c.desc.arg2).2 = 0 → ∃ u : State, exec (.constPatch n) s = .next (u.cmdDone c.id 0 0) ∧
      u.pkgState = pkgChecking ∧ ∃ d, s.partner ≠ .off → ∃ m ∈ u.pair.msgs, m.body = .item 0x0D d []) := by
  have he : exec (.constPatch n) s = .next (s.statusDone c (s.constPatch c.symId (fldN c.desc.arg0.toNat 0 32) c.size c.desc.arg2)
    (some (.item 0x0D [c.symId, BitVec.ofNat 64 (fldN c.desc.arg0.toNat 0 32), BitVec.ofNat 64 c.size, c.desc.arg2] []))) := by
    rw [exec_constPatch, execConstPatch]
    exact runCmd_accepts hb ha
  have ho : c.opcode ≠ 9 := by rw [opcode_of_begins hb]; decide
  refine ⟨fun h1 h2 => ?_, fun h => ?_⟩
  · have hq : s.constPatch c.symId (fldN c.desc.arg0.toNat 0 32) c.size c.desc.arg2 = (s, 0x0103) := if_pos ⟨h1, by rw [h2]; rfl⟩
    rw [he, hq, statusDone_refused (k := 0x0103) rfl (by decide) ho]
  · rw [statusDone_tells h] at he
    have hf := frame_constPatch s c.symId (fldN c.desc.arg0.toNat 0 32) c.size c.desc.arg2
    have hk := constPatch_checking hw h
    have hg := frame_sendFor (s.constPatch c.symId (fldN c.desc.arg0.toNat 0 32) c.size c.desc.arg2).1 c.id
      (.item 0x0D [c.symId, BitVec.ofNat 64 (fldN c.desc.arg0.toNat 0 32), BitVec.ofNat 64 c.size, c.desc.arg2] [])
    exact ⟨_, he, (hg.fget (hf.canon hw)).trans hk, _, fun hp => sendFor_tells (by rwa [partner_of_frame hf hw rfl])⟩

/-! Keys (R169). -/

theorem setKey_shows (hw : s.regsWf = true) {k : Nat} {key : Option (BitVec 256)} (hk : k < 4) :
    vget (s.setKey k key).olc.keys k = key ∧ (s.setKey k key).fbit ⟨R.olcKeyValid, k, 1⟩ = key.isSome := by
  refine ⟨?_, fbit_fsetb hw (show k + 1 ≤ 32 by omega) rfl⟩
  exact vget_vset_self hk

theorem keyEnrol_clauses (hw : s.regsWf = true) (hb : s.begins n 0x0E c) (ha : s.accepts 0x0E c) : let k := c.desc.arg0.toNat % 4
    ((vget s.olc.keys k).isSome = true → exec (.keyEnrol n) s = .next (s.cmdDone c.id 0x0103 0)) ∧
    (vget s.olc.keys k = none → ∃ u : State, exec (.keyEnrol n) s = .next (u.cmdDone c.id 0 0) ∧
      vget u.olc.keys k = some (BitVec.ofNat 256 (beNat c.dataBytes)) ∧ u.fbit ⟨R.olcKeyValid, k, 1⟩ = true) := by
  intro k
  have hk : fldN c.desc.arg0.toNat 0 2 = k := by rw [fldN, pow_zero, Nat.div_one]; rfl
  have he : exec (.keyEnrol n) s = .next (s.plainDone c (if (vget s.olc.keys (fldN c.desc.arg0.toNat 0 2)).isSome then none
    else some (s.setKey (fldN c.desc.arg0.toNat 0 2) (some (BitVec.ofNat 256 (beNat c.dataBytes)))))) := by
    rw [exec_keyEnrol, execKeyEnrol]
    exact runCmd_accepts hb ha
  rw [hk] at he
  refine ⟨fun h => ?_, fun h => ⟨s.setKey k (some (BitVec.ofNat 256 (beNat c.dataBytes))), ?_, setKey_shows hw (Nat.mod_lt _ (by decide))⟩⟩
  · rw [he, if_pos h]; rfl
  · rw [he, h]; rfl

theorem keyRemove_clauses (hw : s.regsWf = true) (hb : s.begins n 0x0F c) (ha : s.accepts 0x0F c) : let k := c.desc.arg0.toNat % 4
    (s.hKeySlot s.bank = k → exec (.keyRemove n) s = .next (s.cmdDone c.id 0x0103 0)) ∧
    (s.hKeySlot s.bank ≠ k → ∃ u : State, exec (.keyRemove n) s = .next (u.cmdDone c.id 0 0) ∧
      vget u.olc.keys k = none ∧ u.fbit ⟨R.olcKeyValid, k, 1⟩ = false) := by
  intro k
  have hk : fldN c.desc.arg0.toNat 0 2 = k := by rw [fldN, pow_zero, Nat.div_one]; rfl
  have he : exec (.keyRemove n) s = .next (s.plainDone c (if s.hKeySlot s.bank = fldN c.desc.arg0.toNat 0 2 then none
    else some (s.setKey (fldN c.desc.arg0.toNat 0 2) none))) := by
    rw [exec_keyRemove, execKeyRemove]
    exact runCmd_accepts hb ha
  rw [hk] at he
  refine ⟨fun h => ?_, fun h => ⟨s.setKey k none, ?_, setKey_shows hw (Nat.mod_lt _ (by decide))⟩⟩
  · rw [he, if_pos h]; rfl
  · rw [he, if_neg h]; rfl

/-! The scan, the pair and SERVICE (R67, R215, R459, R463). -/

/-- The state that an accepted command needs. -/
theorem mod_of_accepts {op : Nat} {m : ModState} (ha : s.accepts op c) (h : ∀ b, opAllowed op s.mod b = (s.mod == m)) : s.mod = m := by
  obtain ⟨-, ho, -⟩ := ha
  rw [h] at ho
  exact eq_of_beq ho

theorem scanStart_starts (hb : s.begins n 0x10 c) (ha : s.accepts 0x10 c) (hd : s.fbit F.sysCfgStatus_done = true)
    (hr : s.fbit F.sysCfgStatus_refused = false) (hn : s.scan.run = .notStarted) (ht : s.token = true) :
    exec (.scanStart n) s = .next ({ s with scan := { s.scan with startReq := true } }.cmdDone c.id 0 0) := by
  have he : exec (.scanStart n) s = .next (match s.scanStart with
      | some t => t.cmdDone c.id 0 0
      | none => (s.ignoredIn blkScan).cmdDone c.id 0x0103 0) := by
    rw [exec_scanStart, execScanStart]
    exact runCmd_accepts hb ha
  have hs : s.scanStart = some { s with scan := { s.scan with startReq := true } } := by
    unfold State.scanStart
    dsimp only
    rw [mod_of_accepts (m := .config) ha (fun _ => rfl), hd, hr, hn, ht]
    rfl
  rw [he, hs]

theorem scanRestart_restarts (hb : s.begins n 0x11 c) (ha : s.accepts 0x11 c) (ht : s.token = true) : exec (.scanRestartCmd n) s =
    .next ({ s with scan := { s.scan with restartReq := some (c.desc.arg0.getLsbD 0) } }.cmdDone c.id 0 0) := by
  have he : exec (.scanRestartCmd n) s = .next (s.plainDone c (s.scanRestart (c.desc.arg0.getLsbD 0))) := by
    rw [exec_scanRestartCmd, execScanRestartCmd]
    exact runCmd_accepts hb ha
  rw [he, State.scanRestart, if_pos ⟨mod_of_accepts (m := .stopped) ha (fun _ => rfl), ht⟩]
  rfl

theorem pairSwitch_clauses (hw : s.regsWf = true) (hb : s.begins n 0x12 c) (ha : s.accepts 0x12 c) :
    (s.bogie.pReady = false → exec (.pairSwitch n) s = .next (s.cmdDone c.id 0x0103 0)) ∧
    (s.bogie.pReady = true → ∃ t, exec (.pairSwitch n) s = .next t ∧ t.pair.handover = some 3 ∧ t.mod = .primary ∧
      t.host = (s.modCmd c.id (fun d => { d with phase := .waitSeal })).host) := by
  have hm := mod_of_accepts (m := .primary) ha (fun _ => rfl)
  have he : exec (.pairSwitch n) s = .next (match s.pairSwitch with
      | some t => t.modCmd c.id (fun d => { d with phase := .waitSeal })
      | none => s.cmdDone c.id 0x0103 0) := by
    rw [exec_pairSwitch, execPairSwitch]
    exact runCmd_accepts hb ha
  refine ⟨fun h => ?_, fun h => ?_⟩
  · rw [he, show s.pairSwitch = none from if_neg (by rw [h]; exact Bool.false_ne_true)]
  · rw [show s.pairSwitch = some (s.startHandover 3) from if_pos (by rw [h, hm]; rfl), startHandover_asks hm h] at he
    replace he : exec (.pairSwitch n) s = .next ((handoverAsked s 3).modCmd c.id (fun d => { d with phase := .waitSeal })) := he
    have hf := frame_handoverAsked s 3
    have hg := frame_modCmd (handoverAsked s 3) c.id (fun d => { d with phase := .waitSeal })
    refine ⟨_, he, ?_, ((hg.mod (hf.canon hw)).trans (hf.mod hw)).trans hm, ?_⟩
    · rw [hg.part .pair (by decide), handoverAsked, State.fsetb, State.fset, State.wr]
    · rw [State.modCmd, hf.part .host (by decide), State.modCmd]

theorem mod_enter {m : ModState} (hw : s.regsWf = true) : (s.enter m).mod = m := by
  unfold State.enter
  split
  next h => exact h
  next =>
    have h : ((s.stopAudit.setMod m).raise hapRole 0 [BitVec.ofNat 64 (modCode m)]).mod = m := mod_setMod ((frame_stopAudit s).canon hw)
    dsimp only
    split
    · exact h
    · exact h

/-- The state of a module that moves into or out of SERVICE at once. -/
theorem mod_moves {m : ModState} {k : Nat} (hw : s.regsWf = true) : (((s.enter m).canPermit).endServiceCmds k).mod = m := by
  have h1 := (frame_enter s m).canon hw
  have h2 := (frame_canPermit (s.enter m)).canon h1
  rw [(frame_endServiceCmds _ _).mod h2, (frame_canPermit _).mod h1, mod_enter hw]

theorem mod_serviceMove_in (hw : s.regsWf = true) (hs : s.scan.service = some true) (hm : s.mod = .alone ∨ s.mod = .stopped) :
    s.serviceMove.mod = .service := by
  rw [State.serviceMove, hs]
  dsimp only
  rw [if_pos hm]
  exact mod_moves (s := { s with scan := { s.scan with service := none } }) hw

theorem mod_serviceMove_out (hw : s.regsWf = true) (hs : s.scan.service = some false) (hm : s.mod = .service) :
    s.serviceMove.mod = if s.scan.run = .running then .alone else .stopped := by
  rw [State.serviceMove, hs]
  dsimp only
  rw [if_pos hm]
  exact (mod_moves (s := { s with scan := { s.scan with service := none } }) hw).trans (if_congr beq_iff_eq rfl rfl)

/-- A command that waits for its effect. -/
def State.serviceAsked (s : State) (c : Cmd) (into : Bool) : State :=
  { s.modCmd c.id (fun d => { d with phase := .waitEffect }) with scan := { s.scan with service := some into } }

theorem serviceCmd_eq {b : Bool} : s.serviceCmd c b = if s.scanning then s.serviceAsked c b else (s.serviceAsked c b).serviceMove := rfl

theorem frame_serviceAsked (b : Bool) : Frame [.host, .scan] [] s (s.serviceAsked c b) := .trans (frame_modCmd s c.id _).sub .scan

theorem scan_serviceAsked {b : Bool} : (s.serviceAsked c b).scan = { s.scan with service := some b } := by rw [State.serviceAsked]

theorem serviceEnter_clauses (hw : s.regsWf = true) (hb : s.begins n 0x13 c) (ha : s.accepts 0x13 c) :
    ((s.fbit F.pairStatus_dbUp = true ∨ s.fbit F.pairStatus_aliveUp = true) →
      exec (.serviceEnter n) s = .next (s.cmdDone c.id 0x0103 0)) ∧
    (s.fbit F.pairStatus_dbUp = false → s.fbit F.pairStatus_aliveUp = false →
      (s.scanning = true → exec (.serviceEnter n) s = .next { s.modCmd c.id (fun d => { d with phase := .waitEffect }) with
        scan := { s.scan with service := some true } }) ∧
      (s.scanning = false → s.mod = .stopped → ∃ t, exec (.serviceEnter n) s = .next t ∧ t.mod = .service)) := by
  have he : exec (.serviceEnter n) s = .next (if s.fbit F.pairStatus_dbUp || s.fbit F.pairStatus_aliveUp then s.cmdDone c.id 0x0103 0
    else s.serviceCmd c true) := by
    rw [exec_serviceEnter, execServiceEnter]
    exact runCmd_accepts hb ha
  refine ⟨fun h => ?_, fun h1 h2 => ?_⟩
  · rw [he, if_pos (Bool.or_eq_true_iff.mpr h)]
  rw [h1, h2, Bool.or_self, if_neg Bool.false_ne_true] at he
  rw [serviceCmd_eq] at he
  refine ⟨fun h => by rw [he, if_pos h, State.serviceAsked], fun h hm => ?_⟩
  rw [if_neg (by rw [h]; exact Bool.false_ne_true)] at he
  have hf := frame_serviceAsked (s := s) (c := c) true
  exact ⟨_, he, mod_serviceMove_in (hf.canon hw) (by rw [scan_serviceAsked]) (.inr ((hf.mod hw).trans hm))⟩

theorem serviceLeave_clauses (hw : s.regsWf = true) (hb : s.begins n 0x14 c) (ha : s.accepts 0x14 c) :
    (s.scanning = true → exec (.serviceLeave n) s = .next { s.modCmd c.id (fun d => { d with phase := .waitEffect }) with
        scan := { s.scan with service := some false } }) ∧
    (s.scanning = false → ∃ t, exec (.serviceLeave n) s = .next t ∧ t.mod = if s.scan.run = .running then .alone else .stopped) := by
  have he : exec (.serviceLeave n) s = .next (s.serviceCmd c false) := by
    rw [exec_serviceLeave, execServiceLeave]
    exact runCmd_accepts hb ha
  rw [serviceCmd_eq] at he
  refine ⟨fun h => by rw [he, if_pos h, State.serviceAsked], fun h => ?_⟩
  rw [if_neg (by rw [h]; exact Bool.false_ne_true)] at he
  have hf := frame_serviceAsked (s := s) (c := c) false
  have hm := (hf.mod hw).trans (mod_of_accepts (m := .service) ha (fun _ => rfl))
  exact ⟨_, he, by rw [mod_serviceMove_out (hf.canon hw) (by rw [scan_serviceAsked]) hm, scan_serviceAsked]⟩

/-! CAN_TX and HIST_SUB (R315, R350). -/

theorem canTx_clauses (hb : s.begins n 0x15 c) (ha : s.accepts 0x15 c) : let p := c.desc.arg0.toNat % 4
    let b := fldN c.desc.arg0.toNat 8 6
    ((s.canDesc p b).owner ≠ 0 → exec (.canTx n) s = .next (s.cmdDone c.id 0x0101 0)) ∧
    ((s.canDesc p b).owner = 0 → ∃ u : State, exec (.canTx n) s = .next (u.cmdDone c.id 0 0) ∧ (u.canBuf p b).queued = true ∧
      (u.canBuf p b).content = c.dataBytes ∧ u.mem = s.mem) := by
  intro p b
  have hp : fldN c.desc.arg0.toNat 0 2 = p := by rw [fldN, pow_zero, Nat.div_one]; rfl
  have hp4 : p < 4 := Nat.mod_lt _ (by decide)
  have hb6 : b < 64 := Nat.mod_lt _ (by decide)
  have he : exec (.canTx n) s = .next (if (s.canDesc (fldN c.desc.arg0.toNat 0 2) b).owner ≠ 0 then s.cmdDone c.id 0x0101 0
    else ((s.setBuf (fldN c.desc.arg0.toNat 0 2) b (fun d => { d with content := c.dataBytes })).canQueueBuf (fldN c.desc.arg0.toNat 0 2) b).cmdDone c.id 0 0) := by
    rw [exec_canTx, execCanTx]
    exact runCmd_accepts hb ha
  rw [hp] at he
  refine ⟨fun h => by rw [he, if_pos h], fun h => ⟨_, by rw [he, if_neg (not_not.mpr h)], ?_⟩⟩
  have hm : ((s.setBuf p b (fun d => { d with content := c.dataBytes })).canQueueBuf p b).mem = s.mem :=
    ((frame_canQueueBuf _ p b hp4).part .mem (by decide)).trans ((frame_setBuf s p b _).part .mem (by decide))
  have hc : ((s.setBuf p b (fun d => { d with content := c.dataBytes })).canBuf p b).content = c.dataBytes := by rw [canBuf_setBuf hp4 hb6]
  unfold State.canQueueBuf at hm ⊢
  extract_lets t at hm ⊢
  have ht : t.canBuf p b = (s.setBuf p b (fun d => { d with content := c.dataBytes })).canBuf p b := by
    dsimp only [t]
    split <;> rfl
  refine ⟨?_, ?_, hm⟩ <;> rw [canBuf_setBuf hp4 hb6]
  rw [← hc, ← ht]

theorem histSub_clauses (hw : s.regsWf = true) (hb : s.begins n 0x1A c) (ha : s.accepts 0x1A c) :
    (s.histSub c.desc.arg0 c.dataBytes = none → exec (.histSub n) s = .next (s.cmdDone c.id 0x0105 0)) ∧
    (c.dataBytes = [] → ∃ u : State, exec (.histSub n) s = .next (u.cmdDone c.id 0 0) ∧
      (∀ g ∈ u.dray.subs, g.sub ≠ c.desc.arg0.toNat % 64) ∧ (∀ g ∈ s.dray.subs, g.sub ≠ c.desc.arg0.toNat % 64 → g ∈ u.dray.subs) ∧
      (s.partner ≠ .off → ∃ m ∈ u.pair.msgs, m.body = .item 0x1A [c.desc.arg0] [])) := by
  have he : exec (.histSub n) s = .next (match s.histSub c.desc.arg0 c.dataBytes with
      | none => s.cmdDone c.id 0x0105 0
      | some t => (t.sendFor c.id (.item 0x1A [c.desc.arg0] c.dataBytes)).cmdDone c.id 0 0) := by
    rw [exec_histSub, execHistSub]
    exact runCmd_accepts hb ha
  refine ⟨fun h => by rw [he, h], fun h => ?_⟩
  have hk : fldN c.desc.arg0.toNat 0 6 = c.desc.arg0.toNat % 64 := by rw [fldN, pow_zero, Nat.div_one]; rfl
  have hq : s.histSub c.desc.arg0 c.dataBytes = some { s with dray := { s.dray with
      subs := s.dray.subs.filter (fun (g : HistSub) => g.sub ≠ fldN c.desc.arg0.toNat 0 6) } } := by rw [h]; rfl
  rw [hq, hk, h] at he
  have hf : Frame [.dray] [] s { s with dray := { s.dray with subs := s.dray.subs.filter (fun (g : HistSub) => g.sub ≠ c.desc.arg0.toNat % 64) } } := .dray
  have hd := (frame_sendFor { s with dray := { s.dray with subs := s.dray.subs.filter (fun (g : HistSub) => g.sub ≠ c.desc.arg0.toNat % 64) } }
    c.id (.item 0x1A [c.desc.arg0] [])).part .dray (by decide)
  have hs := congrArg Dray.subs hd
  refine ⟨_, he, fun g hg => ?_, fun g hg hn => ?_, fun hp => sendFor_tells (by rwa [partner_of_frame hf hw rfl])⟩
  · rw [hs] at hg
    exact of_decide_eq_true (List.mem_filter.mp hg).2
  · rw [hs]
    exact List.mem_filter.mpr ⟨hg, decide_eq_true hn⟩

/-- Settles O56: each command, begun and accepted, is its operation; what that does to the parts named is a lemma of its own. -/
theorem hostCommandsThatChange : Obligations.HostCommandsThatChange := by
  intro n c s hw
  refine ⟨fun ⟨hb, ha⟩ => config_clauses hb ha, fun ⟨hb, ha⟩ => config_empty hb ha, fun ⟨hb, ha⟩ => valueWrite_clauses hw hb ha,
    fun ⟨hb, ha⟩ => forceSet_clauses hw hb ha, fun ⟨hb, ha⟩ => forceRelease_clauses hb ha, fun ⟨hb, ha⟩ => constPatch_clauses hw hb ha,
    fun ⟨hb, ha⟩ => keyEnrol_clauses hw hb ha, fun ⟨hb, ha⟩ => keyRemove_clauses hw hb ha,
    fun ⟨hb, ha⟩ hd hr hn ht => ⟨_, scanStart_starts hb ha hd hr hn ht, rfl⟩, fun ⟨hb, ha⟩ ht => scanRestart_restarts hb ha ht,
    fun ⟨hb, ha⟩ => pairSwitch_clauses hw hb ha, fun ⟨hb, ha⟩ => serviceEnter_clauses hw hb ha,
    fun ⟨hb, ha⟩ => serviceLeave_clauses hw hb ha, fun ⟨hb, ha⟩ => canTx_clauses hb ha, fun ⟨hb, ha⟩ => histSub_clauses hw hb ha⟩

end Sys2Proof.Machine
end

section
/-! The ends of a window by an instruction, and a trap on which both cores agree (R87, R126, R130, R131). -/

namespace Sys2Proof.Machine

variable {s s' t : State} {be : Fin 32} {w : Window} {x : W32}

/-! What the end of a window and the start of the next one change. -/

theorem traced_of_rep (h : w.rep = none) : w.traced = false := by rw [Window.traced, h]; rfl

theorem audit_of_rep (h : w.rep = none) : w.audit = false := by rw [Window.audit, h]; rfl

/-- The time of a window of the foreground. -/
theorem spend_foreground (h : w.rep = none) : s.spend w = { s with brm := { s.brm with fgNs := s.brm.fgNs + s.heldNs w } } := by
  rw [State.spend, traced_of_rep h, audit_of_rep h]
  rfl

theorem obsWindow_frame {how : ObsEnd} : s.obsWindow be w how = { s with obs := (s.obsWindow be w how).obs, regs := (s.obsWindow be w how).regs } := by
  unfold State.obsWindow
  split
  · exact obsCollect_frame _
  · rfl

theorem rd_obsWindow {how : ObsEnd} {off : Nat} (h : off ≠ R.obsDrop) : (s.obsWindow be w how).rd off = s.rd off := by
  unfold State.obsWindow
  split
  · exact rd_obsCollect h
  · rfl

theorem ungate_frame : s.ungate be = { s with clk := (s.ungate be).clk, regs := (s.ungate be).regs } := by
  unfold State.ungate
  extract_lets t
  split <;> rfl

theorem rd_ungate {off : Nat} (h : off ≠ R.wfStatus) : (s.ungate be).rd off = s.rd off := by
  unfold State.ungate
  extract_lets t
  split
  · exact rd_fset_ne h
  · rfl

theorem dru_of_brm {i : Fin 32} (h : t.brm = s.brm) : t.dru i = s.dru i := by rw [State.dru, h, State.dru]

/-- A window of the foreground that both cores end alike. -/
theorem windowEnd_agrees {b : Bool} (hr : w.rep = none) (hu : w.upset = 0) : s.windowEnd be w b =
    (s.spend w).setWin be (some { w with phase := if s.copyHolds be w then .copyHeld b else .committing b }) := by
  unfold State.windowEnd
  dsimp only
  rw [traced_of_rep hr, hu, hr]
  rfl

theorem ends_foreground {b : Bool} {c : Core} (hr : w.rep = none) (hu : w.upset = 0) :
    ((s.windowEnd be { w with core := c } b).dru be).win =
      some { w with core := c, phase := if s.copyHolds be w then .copyHeld b else .committing b } ∧
    s.windowEnd be { w with core := c } b = { s with brm := { s.brm with
      be := (s.windowEnd be { w with core := c } b).brm.be, fgNs := (s.windowEnd be { w with core := c } b).brm.fgNs } } ∧
    ∀ i, i ≠ be → (s.windowEnd be { w with core := c } b).dru i = s.dru i := by
  rw [windowEnd_agrees (w := { w with core := c }) hr hu, spend_foreground (w := { w with core := c }) hr]
  refine ⟨?_, rfl, fun i hi => dru_setDru_ne _ hi⟩
  rw [State.setWin, dru_setDru_self]
  rfl

/-- A window that ends after its word. -/
theorem ends_atWord {i : Instr} {b : Bool} (h : AtWord be w x s s') (hd : decodeDru be .clean x = some i) (hr : w.rep = none)
    (he : exec i s = .next (s.instr be .clean i (fun s w => (s, .last { w with core := nextPc w.core } b)))) :
    exec i s = .next (s'.windowEnd be { w with core := { w.core with pc := w.core.pc + 4 } } b) := by
  rw [he, instr_atWord h hd]
  dsimp only
  rw [stepRecord_of_not_traced (traced_of_rep hr)]
  rfl

/-! The handler (R130, R131). -/

/-- The exception record of a trap. -/
theorem excRecord_trap (pc : BitVec 24) (imm : BitVec 16) : excRecord 7 pc imm = 0#16 ++ imm ++ pc ++ 7#8 := by
  refine BitVec.eq_of_toNat_eq ?_
  have h1 := imm.isLt
  have h2 := pc.isLt
  rw [excRecord, BitVec.toNat_ofNat, BitVec.toNat_append, BitVec.toNat_append, BitVec.toNat_append, ← Nat.shiftLeft_add_eq_or_of_lt (by decide),
    ← Nat.shiftLeft_add_eq_or_of_lt h2, ← Nat.shiftLeft_add_eq_or_of_lt h1]
  simp only [Nat.shiftLeft_eq, BitVec.toNat_ofNat]
  omega

/-- The registers that the handler starts with. -/
def handlerCore (c : Core) (xrec : W64) (entry : Nat) : Core :=
  { gSet (gSet c 31 xrec) 30 0 with fl := c.fl ||| 0x400, pc := BitVec.ofNat 24 entry }

theorem handlerCore_shows (c : Core) (xrec : W64) (entry : Nat) : gReg (handlerCore c xrec entry) 31 = xrec ∧
    gReg (handlerCore c xrec entry) 30 = 0 ∧ (∀ i : Fin 32, i ≠ 30 → i ≠ 31 → gReg (handlerCore c xrec entry) i = gReg c i) ∧
    handlerCore c xrec entry = { c with
      g := (handlerCore c xrec entry).g, pc := (handlerCore c xrec entry).pc, fl := (handlerCore c xrec entry).fl } := by
  have hg (i : Fin 32) : gReg (handlerCore c xrec entry) i = gReg (gSet (gSet c 31 xrec) 30 0) i := rfl
  refine ⟨?_, ?_, fun i h0 h1 => ?_, ?_⟩
  · rw [hg, gReg_gSet, if_neg (by decide), gReg_gSet, if_pos (by decide)]
  · rw [hg, gReg_gSet, if_pos (by decide)]
  · rw [hg, gReg_gSet, if_neg (fun h => h0 h.1), gReg_gSet, if_neg (fun h => h1 h.1)]
  · rw [handlerCore, gSet_frame, gSet_frame c xrec]

/-- The window in which the handler starts. -/
def handlerWindow (w : Window) (c : Core) (start : W64) : Window :=
  { oc := { w.oc with cp := c, window := w.oc.window + 1, mismatches := 0, barred := 0 }, core := c, upset := w.upsetH, start := start }

/-- The record of an exception at a window of the foreground. -/
def State.excNoted (s : State) (be : Fin 32) (w : Window) (code : Nat) (xrec : W64) : State :=
  ((s.spend w).obsWindow be w (.exception code)).raise hapException be.val
    [BitVec.ofNat 64 w.oc.work.chain, xrec, ((s.spend w).obsWindow be w (.exception code)).rd64 R.scanCycleLo]

theorem excNoted_frame {code : Nat} {xrec : W64} (hr : w.rep = none) : s.excNoted be w code xrec = { s with
      brm := { s.brm with fgNs := (s.excNoted be w code xrec).brm.fgNs }, recd := (s.excNoted be w code xrec).recd
      obs := (s.excNoted be w code xrec).obs, regs := (s.excNoted be w code xrec).regs } ∧
    ∀ off, off ≠ R.obsDrop → (s.excNoted be w code xrec).rd off = s.rd off := by
  have h : ∀ u : State, u.obsWindow be w (.exception code) = { u with
    obs := (u.obsWindow be w (.exception code)).obs, regs := (u.obsWindow be w (.exception code)).regs } := fun u => obsWindow_frame
  refine ⟨?_, fun off ho => (rd_obsWindow (s := s.spend w) ho).trans (by rw [spend_foreground hr]; rfl)⟩
  rw [State.excNoted, h, spend_foreground hr]
  rfl

/-- A trap on which both cores agree starts the handler. -/
theorem exception_handles {pc : BitVec 24} {imm : BitVec 16} (hr : w.rep = none) (hu : w.upset = 0) (he : s.hExcEntry s.bank ≠ 0)
    (hx : w.oc.cp.fl.getLsbD 10 = false) (hy : (s.dru be).yieldReq = false) : s.exception be w .trap pc imm 0 =
      ((s.excNoted be w 7 (excRecord 7 pc imm)).ungate be).setWin be
        (some (handlerWindow w (handlerCore w.oc.cp (excRecord 7 pc imm) (s.hExcEntry s.bank)) s.time.tb1)) := by
  have hfr := obsWindow_frame (s := s.spend w) (be := be) (w := w) (how := .exception 7)
  rw [spend_foreground hr] at hfr
  have hrd : ∀ off, off ≠ R.obsDrop → ((s.spend w).obsWindow be w (.exception 7)).rd off = s.rd off :=
    fun off ho => (rd_obsWindow (s := s.spend w) ho).trans (by rw [spend_foreground hr]; rfl)
  have hb : ((s.spend w).obsWindow be w (.exception 7)).bank = s.bank := by
    rw [State.bank, State.bankB, State.fbit, State.fget, hrd _ (by decide)]
    rfl
  have hm : ((s.spend w).obsWindow be w (.exception 7)).mem = s.mem := by rw [spend_foreground hr, hfr]
  have hent : ((s.spend w).obsWindow be w (.exception 7)).hExcEntry ((s.spend w).obsWindow be w (.exception 7)).bank = s.hExcEntry s.bank := by
    rw [hb, State.hExcEntry, State.bw, hm]
    rfl
  have hbr : ((s.spend w).obsWindow be w (.exception 7)).dru be = s.dru be := by
    rw [spend_foreground hr, hfr]
    rfl
  have ht : ((s.spend w).obsWindow be w (.exception 7)).time = s.time := by rw [spend_foreground hr, hfr]
  have hcode : excCode .trap = 7 := rfl
  unfold State.exception
  dsimp only
  rw [hcode, if_neg (fun h => h.1 hu)]
  simp only [hr, Option.isSome_none, Bool.false_eq_true, if_false]
  rw [hent, if_neg (not_or.mpr ⟨he, by rw [coreEXM, hx]; decide⟩), State.goOn]
  dsimp only
  have hy' : ((s.excNoted be w 7 (excRecord 7 pc imm)).dru be).yieldReq = false := by rw [← hy, ← hbr]; rfl
  rw [State.excNoted] at hy' ⊢
  rw [hy', if_neg Bool.false_ne_true, State.openWindow, ← ht]
  rfl

theorem trap_clauses {imm : BitVec 16} (h : AtWord be w x s s') (hd : decodeDru be .clean x = some (.trap be imm)) (hr : w.rep = none)
    (hu : w.upset = 0) (he : s'.hExcEntry s'.bank ≠ 0) (hx : w.oc.cp.fl.getLsbD 10 = false) (hy : (s'.dru be).yieldReq = false) :
    ∃ t c, exec (.trap be imm) s = .next t ∧
      (t.dru be).win = some { oc := { w.oc with cp := c, window := w.oc.window + 1, mismatches := 0, barred := 0 }, core := c
                              upset := w.upsetH, start := s'.time.tb1 } ∧
      c.pc = BitVec.ofNat 24 (s'.hExcEntry s'.bank) ∧ c.fl = w.oc.cp.fl ||| 0x400 ∧
      gReg c 31 = 0#16 ++ imm ++ w.core.pc ++ 7#8 ∧ gReg c 30 = 0 ∧
      (∀ i : Fin 32, i ≠ 30 → i ≠ 31 → gReg c i = gReg w.oc.cp i) ∧
      c = { w.oc.cp with g := c.g, pc := c.pc, fl := c.fl } ∧
      t = { s' with brm := t.brm, recd := t.recd, obs := t.obs, regs := t.regs, clk := t.clk } ∧
      (∀ off, off ≠ R.obsDrop → off ≠ R.wfStatus → t.rd off = s'.rd off) ∧ (∀ i, i ≠ be → t.dru i = s'.dru i) := by
  obtain ⟨h31, h30, hg, hc⟩ := handlerCore_shows w.oc.cp (excRecord 7 w.core.pc imm) (s'.hExcEntry s'.bank)
  obtain ⟨hf, hrd⟩ := excNoted_frame (s := s') (be := be) (code := 7) (xrec := excRecord 7 w.core.pc imm) hr
  have hu1 := ungate_frame (s := s'.excNoted be w 7 (excRecord 7 w.core.pc imm)) (be := be)
  have hex : exec (.trap be imm) s = .next (((s'.excNoted be w 7 (excRecord 7 w.core.pc imm)).ungate be).setWin be
      (some (handlerWindow w (handlerCore w.oc.cp (excRecord 7 w.core.pc imm) (s'.hExcEntry s'.bank)) s'.time.tb1))) := by
    rw [exec_trap, execTrap, instr_atWord h hd]
    dsimp only
    rw [stepRecord_of_not_traced (traced_of_rep hr), exception_handles hr hu he hx hy, State.traceEnter, if_neg]
    rintro ⟨-, hw, -⟩
    rw [State.setWin, dru_setDru_self] at hw
    exact absurd hw (by simp)
  refine ⟨_, _, hex, ?_, rfl, rfl, h31.trans (excRecord_trap ..), h30, hg, hc, ?_, fun off h1 h2 => ?_, fun i hi => ?_⟩
  · rw [State.setWin, dru_setDru_self]
    rfl
  · rw [State.setWin, State.setDru, hu1, hf]
  · exact (rd_ungate h2).trans (hrd off h1)
  · rw [State.setWin, dru_setDru_ne _ hi, hu1, hf]
    rfl

/-- Settles O14: NOP changes no register but the PC; a window's end and a trap are what the comparator makes of cores that agree. -/
theorem windowEndsAndTraps : Obligations.WindowEndsAndTraps := by
  refine ⟨fun be => ⟨?nop, fun s s' w x h hr hu => ⟨fun hd => ⟨_, ends_atWord h hd hr rfl, ?wend⟩, fun hd => ⟨_, ends_atWord h hd hr rfl, ?chend⟩⟩⟩,
    fun be imm s s' w x h hd hr hu he hx hy => trap_clauses h hd hr hu he hx hy⟩
  case nop =>
    intro s s' w x h hd
    rw [exec_nop, execNop, State.regOp, instr_atWord h hd]
    rfl
  case wend => exact ends_foreground hr hu
  case chend => exact ends_foreground hr hu

end Sys2Proof.Machine
end

section
/-! The drupelets as a whole: what their registers show, and which operations leave the windows that are open. -/

namespace Sys2Proof.Machine

variable {s t u : State} {be i : Fin 32}

/-! The registers that show the drupelets (R19). -/

/-- The registers that `State.showBrm` writes. -/
abbrev brmShown : List Rect := [⟨0x2100, 0x2200, 8, 0, 32⟩, .reg R.brmAvailMask, .reg R.brmSelftestMask, .reg R.brmRetiredMask, .reg R.brmReserve,
  .fld F.brmStatus_reserveUsed, .fld F.brmStatus_lockstepOff, .fld F.brmStatus_selftest]

theorem frame_showBrm_own : Frame [.regs] brmShown s s.showBrm := by
  unfold State.showBrm
  extract_lets ds mask count isT a
  have ha : Frame [.regs] brmShown s a := by
    refine Frame.foldl (fun u e he => .wr (cover_step List.mem_cons_self (Rect.has_iff.mpr ?_) rfl rfl)) s
    obtain ⟨i, -, rfl⟩ := List.mem_map.mp he
    dsimp only [R.brmBenState]
    omega
  clear_value a
  exact ((((((ha.trans .wr).trans .wr).trans .wr).trans .wr).trans .fsetb).trans .fsetb).trans .fsetb

/-- What showing a trace adds. -/
abbrev traceShown : List Rect := .fld F.obsStatus_step :: .fld F.obsStatus_stepBe :: brmShown

theorem frame_leavePool_own {st : DState} : Frame [.regs, .brm] brmShown s (s.leavePool be st) :=
  Frame.after frame_showBrm_own.sub <| Frame.after (frame_setDru ..).sub <| Frame.brm

theorem frame_traceStop_own : Frame [.regs, .brm, .recd, .obs] traceShown s s.traceStop := by
  unfold State.traceStop
  split
  · exact Frame.obs
  · exact Frame.after Frame.raise <| Frame.after frame_showBrm_own.sub <| Frame.after Frame.fset <|
      Frame.after Frame.fset <| Frame.after (frame_setDru ..).sub <| Frame.obs

theorem frame_deactivate_own {st : DState} : Frame [.regs, .brm, .recd, .obs] traceShown s (s.deactivate be st) :=
  Frame.after (Frame.ite frame_traceStop_own (Frame.refl _)) <| Frame.after (Frame.ite Frame.obs (Frame.refl _)) frame_leavePool_own.sub

theorem frame_traceEnter_own : Frame [.regs, .brm, .recd, .obs] traceShown s (s.traceEnter be) :=
  Frame.ite (Frame.after Frame.raise <| Frame.after Frame.fset <| Frame.after Frame.fset <|
    Frame.after Frame.obs frame_leavePool_own.sub) (Frame.refl _)

theorem frame_obsWindow (s : State) (be : Fin 32) (w : Window) (how : ObsEnd) : Frame [.regs, .obs] [.reg R.obsDrop] s (s.obsWindow be w how) :=
  .ite (frame_obsCollect ..) (.refl s)

/-! Drupelets through the operations. -/

theorem dru_of_frame {ps : List Part} {W : List Rect} (h : Frame ps W s t) (hp : autoParam (decide (Part.brm ∈ ps) = false) List.TFAE.out._auto_1)
    (i : Fin 32) : t.dru i = s.dru i := dru_of_brm (h.part .brm (of_decide_eq_false hp))

theorem dru_setWin_self {w : Option Window} : (s.setWin be w).dru be = { s.dru be with win := w } := dru_setDru_self _

theorem dru_leavePool_self {st : DState} : (s.leavePool be st).dru be =
    { s.dru be with st := st, deques := Vector.replicate 4 [], yieldReq := false, win := none } := by
  rw [State.leavePool, dru_of_frame frame_showBrm_own, dru_setDru_self]

theorem dru_leavePool_ne {st : DState} (h : i ≠ be) : (s.leavePool be st).dru i = s.dru i := by
  rw [State.leavePool, dru_of_frame frame_showBrm_own, dru_setDru_ne _ h]
  rfl

/-- A drupelet at the end of an instruction or a commit stays as it is, or leaves the pool for a trace. -/
theorem traceEnter_cases : s.traceEnter be = s ∨
    ((s.dru be).win = none ∧ Frame [.regs, .recd, .obs] traceShown (s.leavePool be .traced) (s.traceEnter be)) := by
  by_cases h : s.obs.drain = some be.val ∧ (s.dru be).win = none ∧ (s.dru be).st = .active
  · refine .inr ⟨h.2.1, ?_⟩
    have he : s.traceEnter be = ((({ s.leavePool be .traced with obs := { s.obs with drain := none, traced := some be.val } } : State).fset
      F.obsStatus_step 1).fset F.obsStatus_stepBe be.val).raise hapTraceOn be.val [] := if_pos h
    rw [he]
    exact Frame.after Frame.raise <| Frame.after Frame.fset <| Frame.after Frame.fset Frame.obs
  · exact .inl (if_neg h)

theorem dru_traceEnter_ne (h : i ≠ be) : (s.traceEnter be).dru i = s.dru i := by
  obtain he | ⟨-, hf⟩ := traceEnter_cases (s := s) (be := be)
  · rw [he]
  · rw [dru_of_frame hf, dru_leavePool_ne h]

theorem traceEnter_open {w : Window} (h : (s.dru be).win = some w) : s.traceEnter be = s := by
  obtain he | ⟨hn, -⟩ := traceEnter_cases (s := s) (be := be)
  · exact he
  · exact absurd (h.symm.trans hn) (by simp)

theorem win_traceEnter (h : (s.dru be).win = none) : ((s.traceEnter be).dru be).win = none := by
  obtain he | ⟨-, hf⟩ := traceEnter_cases (s := s) (be := be)
  · rw [he, h]
  · rw [dru_of_frame hf, dru_leavePool_self]

theorem yielded_traceEnter : (s.traceEnter be).brm.yielded = s.brm.yielded := by
  obtain he | ⟨-, hf⟩ := traceEnter_cases (s := s) (be := be)
  · rw [he]
  · rw [hf.part .brm (by decide), State.leavePool, (frame_showBrm_own).part .brm (by decide)]
    rfl

/-! Windows that stand. -/

/-- No window opens, ends or changes. -/
structure WinsStand (s t : State) : Prop where
  win : ∀ i, (t.dru i).win = (s.dru i).win

namespace WinsStand

theorem refl (s : State) : WinsStand s s := ⟨fun _ => rfl⟩

theorem trans (h1 : WinsStand s t) (h2 : WinsStand t u) : WinsStand s u := ⟨fun i => (h2.win i).trans (h1.win i)⟩

theorem after (h2 : WinsStand t u) (h1 : WinsStand s t) : WinsStand s u := h1.trans h2

theorem brm {x : Brm} (h : x.be = s.brm.be) : WinsStand s { s with brm := x } := ⟨fun i => by rw [State.dru, h, State.dru]⟩

theorem of_brm (h : t.brm = s.brm) : WinsStand s t := ⟨fun i => congrArg Drupelet.win (dru_of_brm h)⟩

theorem of_be (h : t.brm.be = s.brm.be) : WinsStand s t := ⟨fun i => by rw [State.dru, h, State.dru]⟩

theorem of_frame {ps : List Part} {W : List Rect} (h : Frame ps W s t)
    (hp : autoParam (decide (Part.brm ∈ ps) = false) List.TFAE.out._auto_1) : WinsStand s t := of_brm (h.part .brm (of_decide_eq_false hp))

theorem setDru {d : Drupelet} (h : d.win = (s.dru be).win) : WinsStand s (s.setDru be d) := by
  refine ⟨fun i => ?_⟩
  by_cases hi : i = be
  · rw [hi, dru_setDru_self, h]
  · rw [dru_setDru_ne _ hi]

theorem ite {c : Prop} [Decidable c] (h1 : WinsStand s t) (h2 : WinsStand s u) : WinsStand s (if c then t else u) := by
  split
  · exact h1
  · exact h2

theorem foldl {α : Type} {f : State → α → State} (hf : ∀ s a, WinsStand s (f s a)) (l : List α) (s : State) : WinsStand s (l.foldl f s) := by
  induction l generalizing s with
  | nil => exact refl s
  | cons a l ih => exact (hf s a).trans (ih _)

end WinsStand

theorem winsStand_push (s : State) (be : Fin 32) (c : Cls) (w : Work) : WinsStand s (s.push be c w) := by
  unfold State.push
  split
  next i _ =>
    have hb : (s.ungate i).brm = s.brm := by rw [ungate_frame]
    refine (WinsStand.of_brm hb).trans (WinsStand.setDru ?_)
    rw [dru_of_brm hb]
  next => exact .of_be rfl

theorem winsStand_deal (s : State) (c : Cls) (ws : List Work) : WinsStand s (s.deal c ws) :=
  .ite (.of_be rfl) (.foldl (fun s a => winsStand_push s _ _ _) _ _)

/-! The end of a chain: what it changes beside the drupelets. -/

theorem frame_ungate (s : State) (be : Fin 32) : Frame [.regs, .clk] [.reg R.wfStatus] s (s.ungate be) := by
  have hf : coverAll [.reg R.wfStatus] ⟨R.wfStatus, 4 + be.val / 8, 1⟩ = true :=
    cover_span R.wfStatus (R.wfStatus + 1) ⟨le_rfl, Nat.lt_succ_self _⟩ rfl (Nat.ble_eq.mpr (by dsimp only; omega))
  exact Frame.after (Frame.ite (.fset hf) (Frame.refl _)) Frame.clk

theorem frame_push (s : State) (be : Fin 32) (c : Cls) (w : Work) : Frame [.regs, .clk, .brm] [.reg R.wfStatus] s (s.push be c w) := by
  unfold State.push
  split
  · exact Frame.after (frame_setDru ..).sub (frame_ungate ..).sub
  · exact Frame.brm

theorem frame_deal (s : State) (c : Cls) (ws : List Work) : Frame [.regs, .clk, .brm] [.reg R.wfStatus] s (s.deal c ws) :=
  Frame.ite Frame.brm (Frame.foldlAll _ (fun _ _ => (frame_push ..).sub) _ _)

theorem clsSlot_lt {c : Cls} {k : Nat} (h : clsSlot c = some k) : k < 3 := by
  cases c <;> cases h <;> decide

theorem cover_scanReg {r k : Nat} (hr : 0x1000 ≤ r ∧ r < 0x1F00) (hk : k < 3) : coverAll [.blk 0x1] ⟨r + k * 0x10, 0, 32⟩ = true :=
  cover_span 0x1000 0x2000 (by dsimp only; omega)

theorem frame_clsComplete (s : State) (k : Nat) (hk : k < 3) : Frame [.regs, .scan] [.blk 0x1] s (s.clsComplete k) := by
  have he : Frame [.regs] [.blk 0x1] s (s.execTime k) := by
    unfold State.execTime
    exact Frame.after (.wr (cover_scanReg (by decide) hk)) (.wr (cover_scanReg (by decide) hk))
  have hl : coverAll [.blk 0x1] (if k = 1 then F.scanStatus_nLate else F.scanStatus_sLate) = true := by split <;> decide
  exact Frame.ite (Frame.after (frame_modCls ..).sub <| Frame.ite (Frame.refl _) <| Frame.after (.fsetb hl) <|
    Frame.after (.bump (cover_scanReg (by decide) hk)) he.sub) (Frame.refl _)

theorem frame_releasePeriod (s : State) (k : Nat) (hk : k < 3) : Frame [.regs, .clk, .brm, .scan] [.blk 0x1, .reg R.wfStatus] s
    (s.releasePeriod k) :=
  Frame.after (Frame.ite (frame_clsComplete (hk := hk) ..).sub (Frame.refl _)) <| Frame.after (frame_deal ..).sub <|
    Frame.after (frame_modCls ..).sub <| Frame.brm

theorem frame_startETasks_go (s : State) (before : List Nat) (l : List ETask) : Frame [.regs, .clk, .brm] [.reg R.wfStatus] s
    (State.startETasks.go s before l) := by
  induction l generalizing s before with
  | nil => exact Frame.refl s
  | cons t r ih =>
    unfold State.startETasks.go
    exact Frame.ite (ih ..) ((Frame.foldlAll _ (fun _ _ => (frame_push ..).sub) _ _).trans <| Frame.trans .brm <| ih ..)

theorem frame_releaseF (s : State) : Frame [.regs, .clk, .brm, .scan] [.blk 0x1, .reg R.wfStatus] s s.releaseF :=
  Frame.ite (Frame.after Frame.scan <| (frame_releasePeriod (hk := by decide) ..).sub) (Frame.refl _)

theorem frame_eDone (s : State) (w : Work) (d : ChainDesc) : Frame [.regs, .clk, .brm, .scan] [.blk 0x1, .reg R.wfStatus] s (s.eDone w d) := by
  unfold State.eDone
  split
  · exact Frame.refl _
  · exact Frame.ite (Frame.after (Frame.ite (frame_releaseF ..).sub (Frame.refl _)) <|
      Frame.after (frame_startETasks_go ..).sub <| Frame.after Frame.bump <| Frame.brm) (Frame.after (Frame.foldlAll _
      (fun _ _ => (frame_push ..).sub) _ _) <| Frame.brm)

theorem frame_chainDone (s : State) (be : Fin 32) (oc : OpenChain) (sig : W64) : Frame [.regs, .clk, .brm, .scan, .obs] [.blk 0x1,
    .reg R.wfStatus] s (s.chainDone be oc sig) := by
  unfold State.chainDone
  extract_lets _ s1 period r _ s2 _ s3 s4
  have h1 : Frame [.regs, .clk, .brm, .scan, .obs] [.blk 0x1, .reg R.wfStatus] s s1 := by
    dsimp only [s1]
    split
    · exact Frame.ite Frame.obs (Frame.refl s)
    · exact Frame.refl s
  have h2 : Frame [.regs, .clk, .brm, .scan, .obs] [.blk 0x1, .reg R.wfStatus] s s2 := Frame.after Frame.brm h1
  refine Frame.ite (Frame.after (frame_eDone ..).sub h2) ?_
  have h5 : Frame [.regs, .clk, .brm, .scan, .obs] [.blk 0x1, .reg R.wfStatus] s s4 := by
    refine Frame.after (Frame.foldlAll _ (fun s c => ?_) _ s3) (Frame.after Frame.brm h2)
    split
    · exact Frame.refl s
    · exact Frame.ite (Frame.after (frame_push ..).sub Frame.brm) Frame.brm
  clear_value s4
  split
  next => exact h5
  next k hk => exact Frame.ite h5 (Frame.after (frame_clsComplete (hk := clsSlot_lt hk) ..).sub h5)

/-! The end of a chain opens, ends and changes no window. -/

theorem winsStand_clsComplete (s : State) (k : Nat) : WinsStand s (s.clsComplete k) := by
  refine .of_brm ?_
  unfold State.clsComplete
  dsimp only
  split
  · split <;> rfl
  · rfl

theorem winsStand_releasePeriod (s : State) (k : Nat) : WinsStand s (s.releasePeriod k) :=
  .after (.ite (winsStand_clsComplete ..) (.refl _)) <| .after (winsStand_deal ..) <| .after (.of_frame (frame_modCls ..)) <| .brm rfl

theorem winsStand_releaseF (s : State) : WinsStand s s.releaseF := .ite (.after (.of_frame .scan (ps := [.scan]) (W := [])) (winsStand_releasePeriod s 0)) (.refl s)

theorem winsStand_startETasks_go (s : State) (before : List Nat) (l : List ETask) : WinsStand s (State.startETasks.go s before l) := by
  induction l generalizing s before with
  | nil => exact .refl s
  | cons t r ih =>
    unfold State.startETasks.go
    exact .ite (ih ..) (.after (ih ..) <| .after (.brm rfl) <| .foldl (fun s a => winsStand_push s _ _ _) _ _)

theorem winsStand_eDone (s : State) (w : Work) (d : ChainDesc) : WinsStand s (s.eDone w d) := by
  unfold State.eDone
  split
  · exact .refl s
  · exact .ite (.after (.ite (winsStand_releaseF _) (.refl _)) <| .after (winsStand_startETasks_go ..) <|
      .after (.of_frame (ps := [.regs]) (W := [.reg R.scanECount]) .bump) (.brm rfl))
      (.after (.foldl (fun s a => winsStand_push s _ _ _) _ _) (.brm rfl))

theorem winsStand_chainDone (s : State) (be : Fin 32) (oc : OpenChain) (sig : W64) : WinsStand s (s.chainDone be oc sig) := by
  unfold State.chainDone
  extract_lets _ s1 period r _ s2 _ s3 s4
  have h1 : WinsStand s s1 := by
    dsimp only [s1]
    split
    · exact .ite (.of_be rfl) (.refl s)
    · exact .refl s
  have h2 : WinsStand s s2 := h1.trans (.of_be rfl)
  refine .ite (h2.trans (winsStand_eDone ..)) ?_
  have h4 : WinsStand s s4 := by
    refine .after (.foldl (fun s c => ?_) _ s3) (.after (.brm rfl) h2)
    split
    · exact .refl s
    · exact .ite (.after (winsStand_push ..) (.brm rfl)) (.brm rfl)
  split
  · exact h4
  · exact .ite h4 (h4.trans (winsStand_clsComplete ..))

end Sys2Proof.Machine
end

section
/-! Stores and the commit of a window (R85 to R89, R118, R119, R121). -/

namespace Sys2Proof.Machine

variable {s s' t : State} {be d : Fin 32} {w : Window} {addr : Int} {n : Nat} {v : W64} {cause : Nat}

/-! What a store leads to. -/

/-- The window after a store of n bytes of v at a. -/
def Window.stored (w : Window) (a n : Nat) (v : W64) : Window :=
  { w.touch a with
    stores := w.stores ++ (if inScratch a n = true ∧ n < 8 ∧ w.valid.has ((a - scrBase) / 8) = false then
        [{ addr := a / 8 * 8, size := 8, data := 0, fill := true }] else []) ++
      [{ addr := a, size := n, data := BitVec.ofNat 64 (v.toNat % 256 ^ n) }]
    valid := if inScratch a n then w.valid.add ((a - scrBase) / 8) else w.valid
    core := { w.core with pc := w.core.pc + 4, sig := sigBytes w.core.sig (storeRecord a n (v.toNat % 256 ^ n)) } }

theorem store_misaligned (h : addr % n ≠ 0) : s.store be w addr n v = (s, .exc .align w.core.pc 0 (BitVec.ofInt 64 addr)) := if_pos h

section
variable (ha : addr % n = 0)
include ha

theorem store_outside (h : ¬ (0 ≤ addr ∧ addr < 2 ^ 40)) :
    s.store be w addr n v = (s, .exc .writeset w.core.pc 0 (BitVec.ofInt 64 addr)) := by
  rw [← addrOk_iff] at h
  simp [State.store, ha, h]

variable (hin : 0 ≤ addr ∧ addr < 2 ^ 40)
include hin

theorem store_denied (h : ¬ (inScratch addr.toNat n = true ∨ s.inWriteSet w addr.toNat n = true)) :
    s.store be w addr n v = (s, .exc .writeset w.core.pc 0 (BitVec.ofInt 64 addr)) := by
  rw [← addrOk_iff] at hin
  rw [not_or, Bool.not_eq_true, Bool.not_eq_true] at h
  simp [State.store, ha, hin, h.1, h.2]

variable (hal : inScratch addr.toNat n = true ∨ s.inWriteSet w addr.toNat n = true)
include hal

theorem store_allowed : s.store be w addr n v =
    if (s.winAccess be w .write addr.toNat).2 = false then
      ((s.winAccess be w .write addr.toNat).1, .exc .access w.core.pc 0 (BitVec.ofInt 64 addr))
    else ((s.winAccess be w .write addr.toNat).1, .go (w.stored addr.toNat n v)) := by
  rw [← addrOk_iff] at hin
  have hsets : ¬ (inScratch addr.toNat n = false ∧ s.inWriteSet w addr.toNat n = false) := by
    rintro ⟨h1, h2⟩
    rw [h1, h2] at hal
    exact absurd hal (by decide)
  simp only [State.store, ha, hin, hsets, touch_core, touch_valid, touch_stores, inWriteSet_touch, winAccess_touch, ne_eq,
    not_true_eq_false, if_false, Bool.not_true, Bool.false_eq_true, Bool.not_eq_true']
  rfl

end

/-- The size code of a store is the logarithm of its size. -/
theorem sizeCode_eq (h : n = 1 ∨ n = 2 ∨ n = 4 ∨ n = 8) : sizeCode n = Nat.log2 n := by
  rcases h with rfl | rfl | rfl | rfl <;> decide

/-- Stores of the model are the stores of the manual. -/
theorem stores_storeOp {i : Instr} {addr : Core → Int} (hn : n = 1 ∨ n = 2 ∨ n = 4 ∨ n = 8)
    (he : ∀ s, exec i s = s.storeOp be d i n addr) : Stores be d i n addr := by
  intro s s' w x h hd
  rw [he, State.storeOp, instr_atWord h hd]
  refine ⟨fun hal hin hok hcat => ?good, fun hal => ?misaligned, fun hal hor => ?outside, fun cause hal hin hok hcat => ?refused⟩
  case misaligned =>
    rw [store_misaligned hal]
    rfl
  case outside =>
    by_cases hin : 0 ≤ addr w.core ∧ addr w.core < 2 ^ 40
    · rw [store_denied hal hin (hor.resolve_left (not_not.mpr hin))]
      rfl
    · rw [store_outside hal hin]
      rfl
  case refused =>
    rw [store_allowed hal hin hok, winAccess_refused hcat, if_pos rfl]
    rfl
  case good =>
    rw [store_allowed hal hin hok, winAccess_granted hcat, if_neg (c := (_, true).2 = false) nofun, goesOn, Window.stored, storeRecord, sizeCode_eq hn]

/-! Memory as the commit writes it. -/

theorem getD_leBytes {k : Nat} (hk : k < n) : (leBytes n v.toNat).getD k 0 = v.extractLsb' (8 * k) 8 := by
  have h : ∀ (n k x : Nat), k < n → (leBytes n x).getD k 0 = BitVec.ofNat 8 (x / 256 ^ k) := by
    intro n
    induction n with
    | zero => exact fun k x hk => absurd hk (Nat.not_lt_zero k)
    | succ n ih =>
      intro k x hk
      cases k with
      | zero => rw [pow_zero, Nat.div_one]; rfl
      | succ k =>
        rw [leBytes, List.getD_cons_succ, ih k _ (Nat.lt_of_succ_lt_succ hk), Nat.div_div_eq_div_mul, pow_succ, Nat.mul_comm]
  rw [h n k _ hk, BitVec.extractLsb', Nat.shiftRight_eq_div_pow, show (2 : Nat) ^ (8 * k) = 256 ^ k from pow_mul 2 8 k]

/-- A write of a part of one word that is good. -/
theorem Mem.write_inWord {m : Mem} {a : Nat} {bs : List Byte} (h0 : bs ≠ []) (h : bs.length ≤ 8 - a % 8) : m.write a bs = m.writeIn a bs := by
  have hd : bs.drop (8 - a % 8) = [] := List.drop_eq_nil_of_le h
  obtain ⟨b, r, rfl⟩ := List.exists_cons_of_ne_nil h0
  have e (k : Nat) : Mem.writeWords m (k + 1) a (b :: r)
      = (m.writeIn a ((b :: r).take (8 - a % 8))).writeWords k (a + (8 - a % 8)) ((b :: r).drop (8 - a % 8)) := rfl
  rw [Mem.write, e, List.take_of_length_le h, hd]
  cases (b :: r).length / 8 <;> rfl

/-- The first store and the later ones: the youngest that holds the byte gives it. -/
theorem bufByte_cons (b : Buffered) (l : List Buffered) (a : Nat) : bufByte (b :: l) a = (bufByte l a).or
    (if b.addr ≤ a ∧ a < b.addr + b.size then some (b.data.extractLsb' (8 * (a - b.addr)) 8) else none) := by
  have h : ∀ (l : List Buffered) (x : Option Byte), l.foldl (fun acc b => if b.addr ≤ a ∧ a < b.addr + b.size
      then some (b.data.extractLsb' (8 * (a - b.addr)) 8) else acc) x = (bufByte l a).or x := by
    intro l
    induction l with
    | nil => exact fun x => rfl
    | cons c l ih =>
      intro x
      rw [bufByte, List.foldl_cons, List.foldl_cons, ih, ih, Option.or_assoc]
      split
      · rfl
      · rfl
  exact h l _

/-- A store as the commit writes it: of a size that an instruction gives, aligned, into a good word. -/
def GoodStore (be : Fin 32) (m : Mem) (b : Buffered) : Prop :=
  (b.size = 1 ∨ b.size = 2 ∨ b.size = 4 ∨ b.size = 8) ∧ b.addr % b.size = 0 ∧ m.bad (physOf be b.addr / 8) = false

theorem physOf_aligned {b : Buffered} (h : b.size = 1 ∨ b.size = 2 ∨ b.size = 4 ∨ b.size = 8) (ha : b.addr % b.size = 0) :
    b.size ≤ 8 - physOf be b.addr % 8 := by
  unfold physOf
  split <;> rcases h with h | h | h | h <;> rw [h] at ha ⊢ <;> omega

section
variable {b : Buffered} (hm : s.mem.wf = true) (hb : GoodStore be s.mem b)
include hb

theorem commitStore_shows : (s.commitStore be b).2 = none ∧ (s.commitStore be b).1.mem = s.mem.writeIn (physOf be b.addr) (leBytes b.size b.data.toNat) ∧
    Frame [.mem, .pair] [] s (s.commitStore be b).1 := by
  obtain ⟨hs, ha, hbad⟩ := hb
  have hlen := length_leBytes b.size b.data.toNat
  have hne : leBytes b.size b.data.toNat ≠ [] := fun h0 => by
    rw [h0, List.length_nil] at hlen
    omega
  have hw := Mem.write_inWord (m := s.mem) hne (by rw [hlen]; exact physOf_aligned (be := be) hs ha)
  unfold State.commitStore
  extract_lets p lost s1 s2
  refine ⟨?_, ?_, Frame.after (Frame.ite Frame.markDirty (Frame.refl _)) Frame.wrMem⟩
  · exact if_neg (by rw [show lost = (decide (b.size < 8) && s.mem.bad (p / 8)) from rfl, hbad, Bool.and_false]; decide)
  · rw [← hw]
    dsimp only [s2]
    split <;> rfl

include hm

theorem byte_commitStore (a : Nat) : (s.commitStore be b).1.mem.byte a =
    (if physOf be b.addr ≤ a ∧ a < physOf be b.addr + b.size then some (b.data.extractLsb' (8 * (a - physOf be b.addr)) 8) else none).getD
      (s.mem.byte a) := by
  obtain ⟨hs, ha, hbad⟩ := hb
  rw [(commitStore_shows ⟨hs, ha, hbad⟩).2.1, Mem.byte_writeIn _ _ _ hm, hbad, length_leBytes]
  by_cases h : physOf be b.addr ≤ a ∧ a < physOf be b.addr + b.size
  · rw [if_pos ⟨h, .inr rfl⟩, if_pos h, getD_leBytes (by omega), Option.getD_some]
  · rw [if_neg (fun hh => h hh.1), if_neg h, Option.getD_none]

theorem bad_commitStore {k : Nat} (hk : s.mem.bad k = false) : (s.commitStore be b).1.mem.bad k = false := by
  rw [(commitStore_shows hb).2.1]
  exact Mem.bad_writeIn _ _ _ hm hk hb.2.2

end

/-- The store with the address that memory sees. -/
def Buffered.placed (be : Fin 32) (b : Buffered) : Buffered := { b with addr := physOf be b.addr }

theorem commitStores_shows {l : List Buffered} (hm : s.mem.wf = true) (hl : ∀ b ∈ l, GoodStore be s.mem b) : (s.commitStores be l).2 = [] ∧
    (∀ a, (s.commitStores be l).1.mem.byte a = (bufByte (l.map (Buffered.placed be)) a).getD (s.mem.byte a)) ∧
    Frame [.mem, .pair] [] s (s.commitStores be l).1 := by
  induction l generalizing s with
  | nil => exact ⟨rfl, fun a => rfl, .refl s⟩
  | cons b r ih =>
    have hb := hl b List.mem_cons_self
    obtain ⟨h1, h2, hf⟩ := commitStore_shows hb
    have hm1 : (s.commitStore be b).1.mem.wf = true := by
      rw [h2]
      exact Mem.wf_writeIn _ _ hm
    obtain ⟨h3, h4, hg⟩ := ih (s := (s.commitStore be b).1) hm1 fun c hc => by
      obtain ⟨hs, ha, hbad⟩ := hl c (List.mem_cons_of_mem b hc)
      exact ⟨hs, ha, bad_commitStore hm hb hbad⟩
    have he : s.commitStores be (b :: r) = (((s.commitStore be b).1.commitStores be r).1,
        match (s.commitStore be b).2 with | some a => a :: ((s.commitStore be b).1.commitStores be r).2 | none => ((s.commitStore be b).1.commitStores be r).2) := rfl
    refine ⟨by rw [he, h1, h3], fun a => ?_, by rw [he]; exact hf.trans hg⟩
    rw [he, h4, List.map_cons, bufByte_cons, byte_commitStore hm hb, Option.getD_or]
    rfl

/-! The end of a commit (R87 to R89). -/

/-- The windows committed are counted, and the commit observed. -/
def State.commitCounted (s : State) (be : Fin 32) : State :=
  ((s.wr64 R.brmWindowsLo (s.rd64 R.brmWindowsLo + 1)).obsCount 0x0200).obsCount (0x0201 + be.val)

/-- What follows a commit that lost no word. -/
def State.commitFollows (s : State) (be : Fin 32) (w : Window) (chainEnd : Bool) (oc : OpenChain) (upset upsetH : W64) : State :=
  if chainEnd then (s.setDru be { s.dru be with win := none, yieldReq := false }).chainDone be oc w.core.sig else s.goOn be w oc upset upsetH

/-- The checkpoint that a commit leaves. -/
def Window.committed (w : Window) (be : Fin 32) : OpenChain := { w.after with execMask := w.oc.execMask ||| BitVec.ofNat 32 (2 ^ be.val) }

theorem commitEnd_commits {chain : Bool} {upset upsetH : W64} (hwin : (s.dru be).win = some w) (hp : w.phase = .committing chain)
    (hr : w.rep = none) (hl : (s.commitStores be w.stores).2 = []) : ∃ how, s.commitEnd be upset upsetH =
      ((((s.commitStores be w.stores).1.commitCounted be).obsWindow be w how).commitFollows be w chain (w.committed be) upset upsetH) := by
  unfold State.commitEnd
  rw [hwin]
  dsimp only
  rw [hp]
  dsimp only
  rw [hr, hl]
  exact ⟨_, rfl⟩

theorem commitCounted_shows (hw : s.regsWf = true) : Frame [.regs] [.reg R.brmWindowsLo, .reg R.brmWindowsHi, .span 0x14400 0x14800] s (s.commitCounted be) ∧
    (s.commitCounted be).rd64 R.brmWindowsLo = s.rd64 R.brmWindowsLo + 1 := by
  have h1 : Frame [.regs] [.span 0x14400 0x14800] (s.wr64 R.brmWindowsLo (s.rd64 R.brmWindowsLo + 1)) (s.commitCounted be) :=
    .trans (frame_obsCount ..) (frame_obsCount ..)
  refine ⟨Frame.trans .wr64 h1.sub, ?_⟩
  rw [h1.rd64 (regsWf_wr64 hw), rd64_wr64 hw]

/-- The parts and registers that a commit touches once the stores are in memory. -/
abbrev followParts : List Part := [.regs, .clk, .brm, .scan, .obs, .recd]
abbrev followPlaces : List Rect := .blk 0x1 :: .reg R.wfStatus :: .reg R.obsDrop :: traceShown

theorem frame_goOn_foreground {oc : OpenChain} {upset upsetH : W64} (hr : w.rep = none) :
    Frame [.regs, .clk, .brm] [.reg R.wfStatus] s (s.goOn be w oc upset upsetH) := by
  rw [State.goOn, hr]
  exact Frame.ite (Frame.after Frame.brm (frame_setDru ..).sub) (Frame.after (frame_setDru ..).sub (frame_ungate ..).sub)

theorem frame_commitFollows {chain : Bool} {oc : OpenChain} {upset upsetH : W64} (hr : w.rep = none) :
    Frame [.regs, .clk, .brm, .scan, .obs] [.blk 0x1, .reg R.wfStatus] s (s.commitFollows be w chain oc upset upsetH) :=
  .ite (Frame.after (frame_chainDone ..) (frame_setDru ..).sub) (frame_goOn_foreground hr).sub

/-- The windows of the other drupelets. -/
theorem win_commitFollows_ne {chain : Bool} {oc : OpenChain} {upset upsetH : W64} (hr : w.rep = none) {i : Fin 32} (hi : i ≠ be) :
    ((s.commitFollows be w chain oc upset upsetH).dru i).win = (s.dru i).win := by
  cases chain with
  | true => exact ((winsStand_chainDone _ be oc w.core.sig).win i).trans (congrArg Drupelet.win (dru_setDru_ne _ hi))
  | false =>
    have he : s.commitFollows be w false oc upset upsetH = s.goOn be w oc upset upsetH := rfl
    rw [he, State.goOn, hr]
    dsimp only
    split
    · exact congrArg Drupelet.win (dru_setDru_ne _ hi)
    · exact congrArg Drupelet.win ((dru_setDru_ne _ hi).trans (dru_of_frame (frame_ungate s be) rfl i))

theorem goOn_next {oc : OpenChain} {upset upsetH : W64} (hr : w.rep = none) (hy : (s.dru be).yieldReq = false) :
    ((s.goOn be w oc upset upsetH).dru be).win = some { oc := oc, core := oc.cp, upset := upset, upsetH := upsetH, start := s.time.tb1 } := by
  rw [State.goOn, hr]
  dsimp only
  rw [hy, if_neg Bool.false_ne_true, State.openWindow, dru_setWin_self]

theorem goOn_yields {oc : OpenChain} {upset upsetH : W64} (hr : w.rep = none) (hy : (s.dru be).yieldReq = true) :
    ((s.goOn be w oc upset upsetH).dru be).win = none ∧ (s.goOn be w oc upset upsetH).brm.yielded = s.brm.yielded ++ [oc] := by
  rw [State.goOn, hr]
  dsimp only
  rw [hy, if_pos rfl]
  exact ⟨congrArg Drupelet.win (dru_setDru_self _), rfl⟩

theorem commit_clauses {chain : Bool} {upset upsetH : W64} (hi : s.Inv) (hwin : (s.dru be).win = some w) (hp : w.phase = .committing chain)
    (hr : w.rep = none) (hg : ∀ b ∈ w.stores, GoodStore be s.mem b) : ∃ t, exec (.windowCommitEnd be upset upsetH) s = .next t ∧
      (∀ a, t.mem.byte a = (bufByte (w.stores.map (Buffered.placed be)) a).getD (s.mem.byte a)) ∧
      (∀ i, i ≠ be → (t.dru i).win = (s.dru i).win) ∧
      t.rd64 R.brmWindowsLo = s.rd64 R.brmWindowsLo + 1 ∧
      (chain = false → (s.dru be).yieldReq = false →
        ∃ v, (t.dru be).win = some v ∧ v.core = w.core ∧ v.oc.cp = w.core ∧ v.oc.window = w.oc.window + 1 ∧
          v.oc.mismatches = 0 ∧ v.stores = [] ∧ v.phase = .running ∧ v.upset = upset) ∧
      (chain = false → (s.dru be).yieldReq = true → (t.dru be).win = none ∧
        ∃ o, t.brm.yielded = s.brm.yielded ++ [o] ∧ o.cp = w.core) := by
  obtain ⟨hm, hw⟩ := hi
  obtain ⟨hl, hbyte, hf1⟩ := commitStores_shows hm hg
  obtain ⟨how, he⟩ := commitEnd_commits (upset := upset) (upsetH := upsetH) hwin hp hr hl
  generalize (s.commitStores be w.stores).1 = s1 at *
  have hw1 := hf1.canon hw
  obtain ⟨hf2, hcnt⟩ := commitCounted_shows (be := be) hw1
  have hf3 := frame_obsWindow (s1.commitCounted be) be w how
  have hw2 := hf2.canon hw1
  have hf13 : Frame [.regs, .obs] [.reg R.brmWindowsLo, .reg R.brmWindowsHi, .span 0x14400 0x14800, .reg R.obsDrop] s1
    ((s1.commitCounted be).obsWindow be w how) := hf2.sub.trans hf3.sub
  generalize (s1.commitCounted be).obsWindow be w how = s3 at *
  have hw3 := hf3.canon hw2
  have hf4 := frame_commitFollows (s := s3) (be := be) (chain := chain) (oc := w.committed be) (upset := upset) (upsetH := upsetH) hr
  have hf5 := frame_traceEnter_own (s := s3.commitFollows be w chain (w.committed be) upset upsetH) (be := be)
  have hf45 : Frame followParts followPlaces s3 ((s3.commitFollows be w chain (w.committed be) upset upsetH).traceEnter be) := hf4.sub.trans hf5.sub
  have hdru (i : Fin 32) : s3.dru i = s.dru i := (dru_of_frame hf13 rfl i).trans (dru_of_frame hf1 rfl i)
  have hex : exec (.windowCommitEnd be upset upsetH) s = .next ((s3.commitFollows be w chain (w.committed be) upset upsetH).traceEnter be) := by
    rw [exec_windowCommitEnd, execWindowCommitEnd, he]
  refine ⟨_, hex, fun a => ?_, fun i hi => ?_, ?_, fun hc hy => ?_, fun hc hy => ?_⟩
  · rw [hf45.part .mem (by decide), hf13.part .mem (by decide), hbyte]
  · rw [dru_traceEnter_ne hi, win_commitFollows_ne hr hi, hdru]
  · rw [hf45.rd64 hw3, hf3.rd64 hw2, hcnt, hf1.rd64 hw]
  · subst hc
    have hgo := goOn_next (oc := w.committed be) (upset := upset) (upsetH := upsetH) hr (by rw [hdru]; exact hy : (s3.dru be).yieldReq = false)
    have hc : s3.commitFollows be w false (w.committed be) upset upsetH = s3.goOn be w (w.committed be) upset upsetH := rfl
    rw [hc, traceEnter_open hgo]
    exact ⟨_, hgo, rfl, rfl, rfl, rfl, rfl, rfl, rfl⟩
  · subst hc
    obtain ⟨hn, hyl⟩ := goOn_yields (oc := w.committed be) (upset := upset) (upsetH := upsetH) hr (by rw [hdru]; exact hy : (s3.dru be).yieldReq = true)
    have hc : s3.commitFollows be w false (w.committed be) upset upsetH = s3.goOn be w (w.committed be) upset upsetH := rfl
    rw [hc]
    exact ⟨win_traceEnter hn, w.committed be, by rw [yielded_traceEnter, hyl, hf13.part .brm (by decide), hf1.part .brm (by decide)], rfl⟩

/-- Settles O13: each store is the model's shared one, with its width and address; a commit writes the stores in turn, and what follows
keeps memory and the windows of the other drupelets. -/
theorem storesAndCommits : Obligations.StoresAndCommits := by
  refine ⟨fun be d a base disp => ⟨?stb, ?sth, ?stw, ?std, ?stxb, ?stxh, ?stxw, ?stxd⟩,
    fun be upset upsetH s w chain hi hwin hp hr hg => commit_clauses hi hwin hp hr hg⟩
  case stb => exact stores_storeOp (by decide) (fun s => exec_stb s ..)
  case sth => exact stores_storeOp (by decide) (fun s => exec_sth s ..)
  case stw => exact stores_storeOp (by decide) (fun s => exec_stw s ..)
  case std => exact stores_storeOp (by decide) (fun s => exec_std s ..)
  case stxb => exact stores_storeOp (by decide) (fun s => exec_stxb s ..)
  case stxh => exact stores_storeOp (by decide) (fun s => exec_stxh s ..)
  case stxw => exact stores_storeOp (by decide) (fun s => exec_stxw s ..)
  case stxd => exact stores_storeOp (by decide) (fun s => exec_stxd s ..)

end Sys2Proof.Machine
end

section
/-! The primacy latch (R197, R198): what the module that drops it leaves, and how it comes to a module. -/

namespace Sys2Proof.Machine

variable {s t u : State} {b : Bool} {k : Nat}

/-! CLAIM, where the module lets go of it. -/

theorem claim_toSyncing (hw : s.regsWf = true) : s.toSyncing.fbit F.pairStatus_claim = false := by
  have hw1 : (s.setReady false).regsWf = true := regsWf_fsetb hw
  have hf : Frame [.out, .regs, .pair, .brm, .scan, .recd, .can] [.fld F.brmStatus_auditRun, .fld F.pairStatus_state,
      .fld F.pairStatus_synced, .reg R.pairSync, .blk 0xa] ((s.setReady false).fsetb F.pairStatus_claim false) s.toSyncing :=
    Frame.after Frame.send <| Frame.after (Frame.patched rfl rfl rfl) <| Frame.after (frame_canPermit ..).sub <|
      Frame.after Frame.fset <| Frame.after (frame_syncReset ..).sub <| Frame.after (frame_enter ..).sub (frame_haltScan ..).sub
  rw [hf.fbit (regsWf_fsetb hw1)]
  exact fbit_fsetb hw1 (by decide) rfl

theorem mod_toSyncing (hw : s.regsWf = true) : s.toSyncing.mod = .syncing := by
  have hw1 : (((s.setReady false).fsetb F.pairStatus_claim false).haltScan).regsWf = true :=
    (frame_haltScan _).canon (regsWf_fsetb (regsWf_fsetb hw))
  have hf : Frame [.out, .regs, .pair, .scan, .can] [.fld F.pairStatus_synced, .reg R.pairSync, .blk 0xa]
      ((((s.setReady false).fsetb F.pairStatus_claim false).haltScan).enter .syncing) s.toSyncing :=
    Frame.after Frame.send <| Frame.after (Frame.patched rfl rfl rfl) <| Frame.after (frame_canPermit ..).sub <|
      Frame.after Frame.fset <| (frame_syncReset ..).sub
  rw [hf.mod ((frame_enter ..).canon hw1), mod_enter hw1]

/-- A module that loses the token unasked halts its scan, logs the switch and synchronises anew. -/
def State.tokenGone (s : State) (trigger : Nat) : State :=
  let s := (s.haltScan.logSwitch trigger 1 false).handoverEnd
  ({ s with pair := { s.pair with forced := s.pair.forced.add causeTokenLost } } : State).showForced

theorem tokenLost_eq : s.tokenLost k = (s.tokenGone k).toSyncing := rfl

theorem regsWf_tokenGone (hw : s.regsWf = true) : (s.tokenGone k).regsWf = true := by
  have hf : Frame [.regs, .mem, .pair, .olc, .brm, .scan, .recd] tokenLostPlaces s (s.tokenGone k) :=
    Frame.after (frame_showForced ..).sub <| Frame.after Frame.pair <| Frame.after (frame_handoverEnd ..).sub <|
      Frame.after (frame_logSwitch ..).sub <| (frame_haltScan ..).sub
  exact hf.canon hw

/-- A module that has handed over becomes STANDBY. -/
def State.handedOver (s : State) (trigger : Nat) : State :=
  let s := ((s.haltScan.logSwitch trigger 0 false).enter .standby).handoverEnd
  let s := if s.mayReady then s.setReady true else s
  if s.fbit F.pairStatus_lever then s.showRemoval true else s

theorem frame_handedOver : Frame [.out, .regs, .mem, .pair, .olc, .brm, .scan, .recd] [.fld F.brmStatus_auditRun,
    .fld F.olcStatus_pkgState, .reg R.olcRefuse, .fld F.pairStatus_state, .fld F.pairStatus_ready, .fld F.pairStatus_handover,
    .reg R.pairSwitches, .fld F.pairLastSw_trigger, .fld F.pairLastSw_kind, .fld F.pairLastSw_incoming, .reg R.pairSwCycleLo,
    .reg (R.pairSwCycleLo + 4)] s (s.handedOver k) :=
  Frame.after (Frame.ite (frame_showRemoval ..).sub (Frame.refl _)) <| Frame.after (Frame.ite (frame_setReady ..).sub (Frame.refl _)) <|
    Frame.after (frame_handoverEnd ..).sub <| Frame.after (frame_enter ..).sub <| Frame.after (frame_logSwitch ..).sub <|
    (frame_haltScan ..).sub

/-- A stopped module logs that the token left it. -/
def State.stoppedDrop (s : State) : State :=
  let trigger := s.pair.released.getD (if s.bogie.rfxSilent then 2 else 1)
  let s := s.logSwitch trigger (bit (trigger == 1 || trigger == 2 || trigger == 7)) false
  let s := { s with pair := { s.pair with released := none } }
  if s.fbit F.pairStatus_lever then s.showRemoval true else s

theorem frame_stoppedDrop : Frame [.out, .regs, .mem, .pair, .olc, .recd] logSwitchPlaces s s.stoppedDrop :=
  Frame.after (Frame.ite (frame_showRemoval ..).sub (Frame.refl _)) <| Frame.after Frame.pair <| (frame_logSwitch ..).sub

/-- What a module does once the token has left it: lose it, hand over, log it in STOPPED, or nothing. -/
theorem afterDrop_cases (s : State) : (∃ k, s.afterDrop = s.tokenLost k) ∨ (∃ k, s.afterDrop = s.handedOver k) ∨
    s.afterDrop = s.stoppedDrop ∨ s.afterDrop = s := by
  unfold State.afterDrop
  split
  · split
    next k _ =>
      by_cases h : k = 7
      · exact .inl ⟨7, if_pos h⟩
      · exact .inr (.inl ⟨k, if_neg h⟩)
    next => exact .inl ⟨_, rfl⟩
  · exact .inr (.inr (.inl rfl))
  · exact .inr (.inr (.inr rfl))

theorem claim_afterDrop (hw : s.regsWf = true) (hc : s.fbit F.pairStatus_claim = false) : s.afterDrop.fbit F.pairStatus_claim = false := by
  obtain ⟨k, h⟩ | ⟨k, h⟩ | h | h := afterDrop_cases s
  · rw [h, tokenLost_eq]
    exact claim_toSyncing (regsWf_tokenGone hw)
  · rw [h, (frame_handedOver).fbit hw, hc]
  · rw [h, (frame_stoppedDrop).fbit hw, hc]
  · rw [h, hc]

theorem afterDrop_loses (hm : s.mod = .primary) (hr : s.pair.released = some 7) : s.afterDrop = s.tokenLost 7 := by
  rw [State.afterDrop, hm]
  dsimp only
  rw [hr]
  rfl

/-- Memory, where no carry-over is cut off. -/
theorem mem_logSwitch {trigger kind : Nat} (h : s.olc.carry = none) : (s.logSwitch trigger kind b).mem = s.mem := by
  have hf : ∀ u : State, Frame [.regs, .pair] [.blk 5] u (({ (((u.bump R.pairSwitches).fset F.pairLastSw_trigger trigger).fset
      F.pairLastSw_kind kind).fsetb F.pairLastSw_incoming b with pair := u.pair } : State)) := fun u =>
    Frame.after .pair <| Frame.after .fsetb <| Frame.after .fset <| Frame.after .fset .bump
  have hc : (if b then s.olcCancel else s.olcCut) = s.olcCancel := by
    cases b
    · rw [if_neg Bool.false_ne_true, State.olcCut, h]
    · exact if_pos rfl
  have hl : Frame [.regs, .pair] logSwitchPlaces (if b then s.olcCancel else s.olcCut) (s.logSwitch trigger kind b) :=
    Frame.after Frame.pair <| Frame.after Frame.wr64 <| Frame.after Frame.fsetb <| Frame.after Frame.fset <| Frame.after Frame.fset .bump
  rw [hl.part .mem (by decide), hc, (frame_olcCancel s).part .mem (by decide)]

theorem mem_afterDrop (h : s.olc.carry = none) : s.afterDrop.mem = s.mem := by
  have hh : (s.haltScan).olc.carry = none := by rw [(frame_haltScan s).part .olc (by decide), h]
  have hm : ∀ k n, ((s.haltScan).logSwitch k n false).mem = s.mem := fun k n => by
    rw [mem_logSwitch hh, (frame_haltScan s).part .mem (by decide)]
  obtain ⟨k, e⟩ | ⟨k, e⟩ | e | e := afterDrop_cases s
  · have hf : Frame [.out, .regs, .pair, .brm, .scan, .recd, .can] tokenLostPlaces ((s.haltScan).logSwitch k 1 false) (s.tokenLost k) :=
      Frame.after (frame_toSyncing ..).sub <| Frame.after (frame_showForced ..).sub <| Frame.after Frame.pair <| (frame_handoverEnd ..).sub
    rw [e, hf.part .mem (by decide), hm]
  · have hf : Frame [.out, .regs, .pair, .brm, .recd] tokenLostPlaces ((s.haltScan).logSwitch k 0 false) (s.handedOver k) :=
      Frame.after (Frame.ite (frame_showRemoval ..).sub (Frame.refl _)) <| Frame.after (Frame.ite (frame_setReady ..).sub (Frame.refl _)) <|
        Frame.after (frame_handoverEnd ..).sub <| (frame_enter ..).sub
    rw [e, hf.part .mem (by decide), hm]
  · rw [e]
    unfold State.stoppedDrop
    extract_lets k l _ m
    have hf : Frame [.out, .pair] [] l (if m.fbit F.pairStatus_lever then m.showRemoval true else m) :=
      Frame.after (Frame.ite (frame_showRemoval ..).sub (Frame.refl _)) Frame.pair
    rw [hf.part .mem (by decide)]
    exact mem_logSwitch h
  · rw [e]

/-! The latch away. -/

/-- The latch in the hands of the partner, or free, and the loops driven on as they were or no more. -/
def Bogie.away (x : Bogie) (next : Option Slot) (loops : Vector Nat 8) : Bogie :=
  { x with ramp := if next = none then .steady else .driving, rampFrom := loops, holder := next, rising := next }

theorem island_liftHolds (h : t.island = s.island) : t.liftHolds.island = s.liftHolds.island := by
  unfold State.liftHolds
  rw [h]

theorem tokenDrop_shows : (s.tokenDrop b).island = s.liftHolds.island ∧
    (s.tokenDrop b).bogie = { s.bogie with ramp := if b then .driving else .steady, rampFrom := Vector.ofFn fun i : Fin 8 => s.driveL i.val } := by
  unfold State.tokenDrop
  extract_lets loops d
  have h1 : Frame [.regs, .host, .dma, .dray] [.fld F.pairStatus_token, .fld F.ringStatus_master, .fld F.ringStatus_passive, .blk 0xc] s d :=
    Frame.after .fsetb <| Frame.after .fset <| Frame.after .fsetb (frame_dropCmds ..).sub
  have hs := frame_showIsland ({ d.liftHolds with bogie := { d.bogie with ramp := if b then .driving else .steady, rampFrom := loops } } : State)
  refine ⟨?_, ?_⟩
  · rw [hs.part .island (by decide)]
    exact island_liftHolds (h1.part .island (by decide))
  · rw [hs.part .bogie (by decide), h1.part .bogie (by decide)]

theorem latchAway_shows (hw : s.regsWf = true) : (s.latchAway b).island = s.liftHolds.island ∧
    (s.latchAway b).bogie = s.bogie.away (if b then some s.other else none) (Vector.ofFn fun i : Fin 8 => s.driveL i.val) := by
  obtain ⟨hi, hb⟩ := tokenDrop_shows (s := s) (b := b)
  have ho : ((s.tokenDrop b).fsetb F.pairStatus_claim false).other = s.other := by
    have hf : Frame [.regs, .bogie, .island, .host, .dma, .dray] latchAwayPlaces s ((s.tokenDrop b).fsetb F.pairStatus_claim false) :=
      Frame.after Frame.fsetb (frame_tokenDrop ..).sub
    rw [State.other, hf.fbit hw, State.other]
  unfold State.latchAway
  extract_lets u x
  refine ⟨hi, ?_⟩
  have hu : u.bogie = { s.bogie with ramp := if b then .driving else .steady, rampFrom := Vector.ofFn fun i : Fin 8 => s.driveL i.val } := hb
  have hou : u.other = s.other := ho
  have hx : x = { s.bogie with ramp := if b then .driving else .steady, rampFrom := Vector.ofFn fun i : Fin 8 => s.driveL i.val } := hu
  dsimp only
  rw [hx, hou]
  cases b <;> rfl

theorem claim_latchAway (hw : s.regsWf = true) : (s.latchAway b).fbit F.pairStatus_claim = false :=
  (fbit_congr (s := (s.tokenDrop b).fsetb F.pairStatus_claim false) rfl).trans (fbit_fsetb ((frame_tokenDrop s b).canon hw) (by decide) rfl)

/-! What a module without the token drives. -/

theorem driveD_no_token (h : t.token = false) (n : Nat) : t.driveD n = none := by rw [State.driveD, h]; rfl

theorem driveL_steady {n : Nat} (h : t.token = false) (hr : t.bogie.ramp = .steady) : t.driveL n = 0 := by
  rw [State.driveL, hr, h]
  simp

/-- A loop that is driven on as it was when the latch went away. -/
theorem driveL_driving {n : Nat} (hr : t.bogie.ramp = .driving) (hf : vget t.bogie.rampFrom n = s.driveL n) (hon : t.island.on = s.island.on)
    (hof : t.island.off = s.island.off) (hen : t.iget (F.aoChnCfg_en n) = s.iget (F.aoChnCfg_en n))
    (hrb : (t.lch n).rbFault = (s.lch n).rbFault) : t.driveL n = s.driveL n := by
  rw [State.driveL, hr, hf, hon, hof, hen, hrb]
  dsimp only
  by_cases h1 : (!s.island.on || s.island.off) = true
  · rw [if_pos h1, State.driveL, if_pos h1]
  · rw [if_neg h1]
    by_cases h2 : s.iget (F.aoChnCfg_en n) = 0 ∨ (s.lch n).rbFault = true
    · rw [if_pos h2, State.driveL, if_neg h1, if_pos h2]
    · rw [if_neg h2]

/-- The loops of a module without the token, whose latch went away. -/
theorem driveL_away {next : Option Slot} {n : Fin 8} (hi : t.island = s.liftHolds.island) (h : t.token = false)
    (hb : t.bogie = s.bogie.away next (Vector.ofFn fun i : Fin 8 => s.driveL i.val)) :
    t.driveL n.val = if next = none then 0 else s.driveL n.val := by
  cases next with
  | none => exact driveL_steady h (by rw [hb]; rfl)
  | some x =>
    refine driveL_driving (by rw [hb]; rfl) ?_ (by rw [hi]; rfl) (by rw [hi]; rfl) (by rw [State.iget, hi]; rfl) ?_
    · rw [hb]
      exact vget_ofFn n.isLt
    · rw [State.lch, hi]
      have hv : vget (s.island.lp.map fun c : LChan => ({ c with hold := none } : LChan)) n.val = { s.lch n.val with hold := none } := vget_map n.isLt
      exact (congrArg LChan.rbFault hv :)

/-- What this module leaves where the latch goes away: no claim and no token, the latch with `next`, its outputs off, its loops driven
on only in a transfer. -/
structure Away (s t : State) (next : Option Slot) : Prop where
  token : t.token = false
  claim : t.fbit F.pairStatus_claim = false
  holder : t.bogie.holder = next
  rising : t.bogie.rising = next
  drive : ∀ n : Fin 32, t.driveD n = none ∧ (n.val < 8 → t.driveL n = if next = none then 0 else s.driveL n)

/-- The latch goes away, by a drop of CLAIM or a transfer. -/
theorem away_transferAway (hw : s.regsWf = true) : Away s (s.transferAway b) (if b then some s.other else none) := by
  obtain ⟨hi, hb⟩ := latchAway_shows (s := s) (b := b) hw
  have hw1 := (frame_latchAway s b).canon hw
  have hw2 := (frame_afterDrop (s.latchAway b)).canon hw1
  have hc := frame_canPermit (s.latchAway b).afterDrop
  have hd : Frame [.out, .regs, .mem, .pair, .olc, .brm, .scan, .recd, .can] tokenLostPlaces (s.latchAway b) (s.transferAway b) :=
    (frame_afterDrop _).trans hc.sub
  have ht : (s.transferAway b).token = false := by rw [State.token, hd.fbit hw1, ← State.token, token_latchAway hw]
  have hbo := (hd.part .bogie (by decide)).trans hb
  refine ⟨ht, ?_, congrArg Bogie.holder hbo, congrArg Bogie.rising hbo, fun n => ⟨driveD_no_token ht n, fun hn => ?_⟩⟩
  · rw [State.transferAway, hc.fbit hw2]
    exact claim_afterDrop hw1 (claim_latchAway hw)
  · exact driveL_away (n := ⟨n.val, hn⟩) ((hd.part .island (by decide)).trans hi) ht hbo

theorem mem_transferAway (h : s.olc.carry = none) : (s.transferAway b).mem = s.mem := by
  have hl := frame_latchAway s b
  rw [State.transferAway, (frame_canPermit _).part .mem (by decide), mem_afterDrop (by rw [hl.part .olc (by decide), h]), hl.part .mem (by decide)]

/-- The CLAIM that this module drops while it holds the latch. -/
def State.claimLetGo (s : State) (trigger : Nat) : State :=
  { s.fsetb F.pairStatus_claim false with pair := { s.pair with released := some trigger } }

theorem frame_claimLetGo : Frame [.regs, .pair] [.fld F.pairStatus_claim] s (s.claimLetGo k) := .trans .fsetb .pair

theorem dropClaim_holder (hw : s.regsWf = true) (h : s.bogie.holder = some s.slot) :
    s.dropClaim k = (s.claimLetGo k).transferAway (s.bogie.pReady || s.bogie.pClaim) := by
  have hsl : (s.fsetb F.pairStatus_claim false).slot = s.slot := by
    rw [State.slot, (Frame.fsetb (ps := [.regs]) (W := [.fld F.pairStatus_claim])).fbit hw, State.slot]
  refine if_pos ?_
  rw [hsl]
  exact h

theorem dropClaim_other (hw : s.regsWf = true) (h : s.bogie.holder ≠ some s.slot) : s.dropClaim k = s.fsetb F.pairStatus_claim false := by
  have hsl : (s.fsetb F.pairStatus_claim false).slot = s.slot := by
    rw [State.slot, (Frame.fsetb (ps := [.regs]) (W := [.fld F.pairStatus_claim])).fbit hw, State.slot]
  refine if_neg fun e => h ?_
  rw [hsl] at e
  exact e

theorem claim_dropClaim (hw : s.regsWf = true) : (s.dropClaim k).fbit F.pairStatus_claim = false := by
  by_cases h : s.bogie.holder = some s.slot
  · rw [dropClaim_holder hw h]
    exact (away_transferAway (frame_claimLetGo.canon hw)).claim
  · rw [dropClaim_other hw h]
    exact fbit_fsetb hw (by decide) rfl

/-! The latch here. -/

/-- The latch comes to this module by a transfer. -/
theorem transferHere_eq : s.transferHere k = { s with
    pair := { s.pair with incoming := k }, bogie := { s.bogie with holder := some s.slot, rising := some s.slot } } := rfl

theorem tokenFreed_claims (h : s.fbit F.pairStatus_ready = true ∨ s.fbit F.pairStatus_claim = true) : s.tokenFreed k = s.transferHere k :=
  if_pos (Bool.or_eq_true_iff.mpr h)

theorem tokenFreed_free (h1 : ¬ s.fbit F.pairStatus_ready = true) (h2 : ¬ s.fbit F.pairStatus_claim = true) :
    s.tokenFreed k = { s with bogie := { s.bogie with holder := none } } :=
  if_neg fun e => (Bool.or_eq_true_iff.mp e).elim h1 h2

theorem slot_ne_other : s.slot ≠ s.other := by
  rw [State.slot, State.other]
  cases s.fbit F.pairStatus_slot <;> exact fun e => by cases e

theorem frame_tokenUp : Frame [.regs, .island] [.fld F.pairStatus_token, .fld F.dioStatus_holdSeen] s s.tokenUp :=
  Frame.after (Frame.ite (Frame.after .fset .island) (.refl _)) .fsetb

theorem token_tokenUp (hw : s.regsWf = true) : s.tokenUp.token = true := by
  have hf : Frame [.regs, .island] [.fld F.dioStatus_holdSeen] (s.fsetb F.pairStatus_token true) s.tokenUp :=
    Frame.ite (Frame.after .fset .island) (.refl _)
  rw [State.token, hf.fbit (regsWf_fsetb hw)]
  exact fbit_fsetb hw (by decide) rfl

/-- A free latch taken: the token rises at once. -/
theorem latchHere_shows (hw : s.regsWf = true) : (s.latchHere false).token = true ∧
    (s.latchHere false).bogie = { s.bogie with holder := some s.slot } ∧ (s.latchHere false).mod = s.mod ∧
    (s.latchHere false).mem = s.mem := by
  have h1 : Frame [.bogie] [] s { s with bogie := { s.bogie with holder := some s.slot } } := .bogie
  have hw1 := h1.canon hw
  have h2 := frame_tokenUp (s := { s with bogie := { s.bogie with holder := some s.slot } })
  have ht := token_tokenUp (s := { s with bogie := { s.bogie with holder := some s.slot } }) hw1
  have he : s.latchHere false = ({ s with bogie := { s.bogie with holder := some s.slot } } : State).tokenUp.canPermit := rfl
  have hw2 := h2.canon hw1
  have h3 := frame_canPermit ({ s with bogie := { s.bogie with holder := some s.slot } } : State).tokenUp
  rw [he]
  refine ⟨?_, ?_, ?_, ?_⟩
  · rw [State.token, h3.fbit hw2]
    exact ht
  · rw [h3.part .bogie (by decide), h2.part .bogie (by decide)]
  · rw [h3.mod hw2, h2.mod hw1, h1.mod hw]
  · rw [h3.part .mem (by decide), h2.part .mem (by decide)]

/-! Back to SYNCING. -/

theorem frame_rfxLoad (s : State) (bankBase slot : Nat) : Frame [.mem] [] s (s.rfxLoad bankBase slot) := .mem

theorem frame_rfxArm (s : State) : Frame [.regs, .island, .rfx] [.fld F.scanStatus_mbxStale, .blk 0x3, .blk 0x6, .blk 0x7] s s.rfxArm :=
  Frame.after (frame_showIsland ..).sub <| Frame.after (frame_setStale ..).sub <| Frame.after Frame.fset <| Frame.patched rfl rfl rfl

theorem frame_rfxArmBank (s : State) : Frame [.regs, .mem, .island, .rfx] [.fld F.scanStatus_mbxStale, .blk 0x3, .blk 0x6, .blk 0x7] s
    s.rfxArmBank :=
  Frame.ite (Frame.refl _) (Frame.after (frame_rfxArm ..).sub <| Frame.after (frame_showProg ..).sub <| (frame_rfxLoad ..).sub)

abbrev enterSyncingPlaces : List Rect := [.fld F.scanStatus_mbxStale, .fld F.brmStatus_auditRun, .blk 0x3, .fld F.pairStatus_state,
  .fld F.pairStatus_claim, .fld F.pairStatus_ready, .fld F.pairStatus_synced, .reg R.pairSync, .blk 0x6, .blk 0x7, .blk 0xa]

theorem enterSyncing_after : Frame [.regs, .mem, .island, .rfx] [.fld F.scanStatus_mbxStale, .blk 0x3, .blk 0x6, .blk 0x7] s.toSyncing
    s.enterSyncing := Frame.ite (frame_rfxArmBank ..) (Frame.refl _)

theorem frame_enterSyncing (s : State) : Frame [.out, .regs, .mem, .pair, .brm, .scan, .recd, .island, .rfx, .can] enterSyncingPlaces s
    s.enterSyncing := Frame.after enterSyncing_after.sub (frame_toSyncing ..).sub

theorem mod_enterSyncing (hw : s.regsWf = true) : s.enterSyncing.mod = .syncing := by
  rw [enterSyncing_after.mod ((frame_toSyncing s).canon hw), mod_toSyncing hw]

theorem claim_enterSyncing (hw : s.regsWf = true) : s.enterSyncing.fbit F.pairStatus_claim = false := by
  rw [enterSyncing_after.fbit ((frame_toSyncing s).canon hw), claim_toSyncing hw]

/-- The refusal of a claim, before the module follows it. -/
def State.refusalShown (s : State) : State := ((s.bump R.pairClaimRef).raise hapClaimRefused 0 []).fsetb F.pairStatus_claim false

theorem frame_refusalShown : Frame [.regs, .recd] [.reg R.pairClaimRef, .fld F.pairStatus_claim] s s.refusalShown :=
  Frame.after .fsetb <| Frame.after .raise .bump

/-- A claim refused is counted, dropped, and takes a STANDBY to SYNCING. -/
theorem claimRefused_shows (hw : s.regsWf = true) : s.claimRefused.bogie = s.bogie ∧ s.claimRefused.fbit F.pairStatus_claim = false ∧
    s.claimRefused.token = s.token ∧ (s.claimRefused.rd R.pairClaimRef).toNat = satAdd 32 (s.rd R.pairClaimRef).toNat 1 ∧
    (s.mod = .standby → s.claimRefused.mod = .syncing) := by
  have h1 := frame_refusalShown (s := s)
  have hw1 := h1.canon hw
  have hm := h1.mod hw
  have hc : s.refusalShown.fbit F.pairStatus_claim = false := fbit_fsetb (regsWf_bump hw) (by decide) rfl
  have hn : (s.refusalShown.rd R.pairClaimRef).toNat = satAdd 32 (s.rd R.pairClaimRef).toNat 1 := by
    have hf : Frame [.regs, .recd] [.fld F.pairStatus_claim] (s.bump R.pairClaimRef) s.refusalShown := Frame.after .fsetb .raise
    rw [hf.rd (regsWf_bump hw), toNat_rd_bump hw]
  have hs : s.claimRefused = (match s.refusalShown.mod with
    | .standby => s.refusalShown.enterSyncing
    | .config => if s.refusalShown.pair.startReq223 then ({ s.refusalShown with scan := { s.refusalShown.scan with startReq := false } } : State).ignoredIn blkScan
        else s.refusalShown.enterSyncing
    | _ => s.refusalShown) := rfl
  rw [hs, hm]
  have hto := frame_enterSyncing s.refusalShown
  have hsync : s.refusalShown.enterSyncing.bogie = s.bogie ∧ s.refusalShown.enterSyncing.fbit F.pairStatus_claim = false ∧
    s.refusalShown.enterSyncing.token = s.token ∧
    (s.refusalShown.enterSyncing.rd R.pairClaimRef).toNat = satAdd 32 (s.rd R.pairClaimRef).toNat 1 := by
    refine ⟨?_, claim_enterSyncing hw1, ?_, ?_⟩
    · rw [hto.part .bogie (by decide), h1.part .bogie (by decide)]
    · rw [State.token, hto.fbit hw1, h1.fbit hw, State.token]
    · rw [hto.rd hw1, hn]
  have hsh : s.refusalShown.bogie = s.bogie ∧ s.refusalShown.fbit F.pairStatus_claim = false ∧ s.refusalShown.token = s.token ∧
      (s.refusalShown.rd R.pairClaimRef).toNat = satAdd 32 (s.rd R.pairClaimRef).toNat 1 :=
    ⟨h1.part .bogie (by decide), hc, h1.fbit hw, hn⟩
  obtain ⟨a, b, c, d⟩ := hsync
  obtain ⟨a', b', c', d'⟩ := hsh
  split
  next => exact ⟨a, b, c, d, fun _ => mod_enterSyncing hw1⟩
  next h =>
    have hi : Frame [.regs, .scan] [.reg 0x1010] s.refusalShown
        (({ s.refusalShown with scan := { s.refusalShown.scan with startReq := false } } : State).ignoredIn blkScan) := .trans .scan .bump
    split
    · exact ⟨(hi.part .bogie (by decide)).trans a', (hi.fbit hw1).trans b', (hi.fbit hw1).trans c', by rw [hi.rd hw1, d'], fun e => by cases h.symm.trans e⟩
    · exact ⟨a, b, c, d, fun _ => mod_enterSyncing hw1⟩
  next h _ => exact ⟨a', b', c', d', fun e => absurd e h⟩

/-! The commands. -/

theorem Away.of_same {next : Option Slot} (h : Away u t next) (hd : ∀ n : Nat, u.driveL n = s.driveL n) : Away s t next :=
  ⟨h.token, h.claim, h.holder, h.rising, fun n => ⟨(h.drive n).1, fun hn => by rw [(h.drive n).2 hn, hd]⟩⟩

theorem other_of_frame {ps : List Part} {W : List Rect} (h : Frame ps W s t) (hw : s.regsWf = true)
    (ha : autoParam (apartAll W F.pairStatus_slot = true) List.TFAE.out._auto_1) : t.other = s.other := by
  rw [State.other, h.fbit hw ha, State.other]

/-- Whom a drop of this module's CLAIM passes the latch to. -/
def State.heir (s : State) : Option Slot := if s.bogie.pReady = true ∨ s.bogie.pClaim = true then some s.other else none

theorem heir_eq : s.heir = if (s.bogie.pReady || s.bogie.pClaim) = true then some s.other else none := by
  rw [State.heir]
  exact ite_cond_congr (propext Bool.or_eq_true_iff.symm)

theorem exec_claimAssert_here {silent : Bool} (hc : s.power.chip = true) (h : s.fbit F.pairStatus_claim = true) :
    exec (.claimAssert s.slot false silent) s = .next (s.claimHere silent) := by
  have h1 : (if s.slot ≠ s.slot ∨ false = true then { s with bogie := { s.bogie with pClaim := true } } else s) = s :=
    if_neg (by simp)
  rw [exec_claimAssert, execClaimAssert]
  dsimp only
  rw [h1, h, hc, if_pos rfl, Bool.false_and, if_neg Bool.false_ne_true]
  rfl

theorem exec_claimAssert_both {silent : Bool} (hc : s.power.chip = true) (h : s.fbit F.pairStatus_claim = true) (hh : s.bogie.holder = none) :
    exec (.claimAssert s.slot true silent) s = .next (if s.slot = .a then
      ({ s with bogie := { s.bogie with pClaim := true } } : State).latchHere false
      else ({ s with bogie := { s.bogie with pClaim := true, holder := some s.other } } : State).claimHere false) := by
  have h1 : (if s.slot ≠ s.slot ∨ true = true then { s with bogie := { s.bogie with pClaim := true } } else s) =
      { s with bogie := { s.bogie with pClaim := true } } := if_pos (.inr rfl)
  rw [exec_claimAssert, execClaimAssert]
  dsimp only
  rw [h1, h, hc, hh]
  rfl

theorem exec_claimAssert_other (hh : s.bogie.holder = none) : exec (.claimAssert s.other false false) s =
    .next { s with bogie := { s.bogie with pClaim := true, holder := some s.other } } := by
  have h1 : (if s.other ≠ s.slot ∨ false = true then { s with bogie := { s.bogie with pClaim := true } } else s) =
      { s with bogie := { s.bogie with pClaim := true } } := if_pos (.inl slot_ne_other.symm)
  rw [exec_claimAssert, execClaimAssert]
  dsimp only
  rw [h1, hh, Bool.false_and, if_neg Bool.false_ne_true, if_neg slot_ne_other.symm]
  refine when_pos ?_
  rw [Bool.or_eq_true_iff]
  exact .inr (by simpa using slot_ne_other.symm)

theorem exec_claimDrop_holder (hc : s.power.chip = true) (hh : s.bogie.holder = some s.slot) :
    exec (.claimDrop s.slot) s = .next (s.dropClaim 7) := by
  rw [exec_claimDrop, execClaimDrop, if_neg (not_not.mpr hh), if_pos rfl]
  exact when_pos hc

theorem exec_claimDrop_other (hh : s.bogie.holder = some s.other) : exec (.claimDrop s.other) s =
    .next (({ s with bogie := { s.bogie with pClaim := false } } : State).tokenFreed s.guessTrigger) := by
  rw [exec_claimDrop, execClaimDrop, if_neg (not_not.mpr hh), if_neg slot_ne_other.symm]

theorem exec_rfxSilent_other (hh : s.bogie.holder = some s.other) (hr : s.fbit F.pairStatus_ready = true) :
    exec (.rfxSilent s.other) s = .next (s.transferHere 2) := by
  rw [exec_rfxSilent, execRfxSilent, if_neg slot_ne_other.symm]
  exact when_pos (by rw [hh, hr]; simp)

theorem exec_rfxSilent_here (ho : s.island.on = true) (ha : s.fbit F.rfxStatus_armed = true) : exec (.rfxSilent s.slot) s =
    .next (if s.bogie.holder = some s.slot ∧ s.bogie.pReady = true then
      ({ s with bogie := { s.bogie with rfxSilent := true } } : State).transferAway true
      else { s with bogie := { s.bogie with rfxSilent := true } }) := by
  rw [exec_rfxSilent, execRfxSilent, if_pos rfl]
  exact when_pos (by rw [ho, ha]; rfl)

/-- The connector without its lanes. -/
def State.linkCut (s : State) : State := { s.fset F.pairStatus_lanes 0 with bogie := { s.bogie with lanes := 0, retrain := false } }

/-- The partner's lines gone with the connector. -/
def State.partnerCut (s : State) : State := { s.linkCut with bogie := { s.linkCut.bogie with pClaim := false, pReady := false } }

theorem frame_linkCut : Frame [.regs, .bogie] [.fld F.pairStatus_lanes] s s.linkCut := .trans .fset .bogie

theorem exec_connectorParts_here (hh : s.bogie.holder = some s.slot) : exec (.connectorParts s.slot) s =
    .next (s.linkCut.transferAway (s.bogie.pReady || s.bogie.pClaim)) := by
  rw [exec_connectorParts, execConnectorParts, if_pos rfl, if_pos hh]
  rfl

theorem exec_connectorParts_other : exec (.connectorParts s.other) s =
    .next (if s.bogie.holder = some s.other then s.partnerCut.tokenFreed 1 else s.partnerCut) := by
  rw [exec_connectorParts, execConnectorParts, if_neg slot_ne_other.symm]
  rfl

/-! What the commands come to. -/

theorem driveL_of_frame {W : List Rect} (h : Frame [.regs, .pair] W s t) (hw : s.regsWf = true)
    (ha : autoParam (apartAll W F.pairStatus_token = true) List.TFAE.out._auto_1) (n : Nat) : t.driveL n = s.driveL n :=
  congrFun (driveL_of_island (h.part .island (by decide)) (h.fbit hw ha) (h.part .bogie (by decide)) (h.part .time (by decide))) n

theorem away_claimDrop (hw : s.regsWf = true) (hh : s.bogie.holder = some s.slot) : Away s (s.dropClaim 7) s.heir := by
  have hf := frame_claimLetGo (s := s) (k := 7)
  have ha := away_transferAway (s := s.claimLetGo 7) (b := s.bogie.pReady || s.bogie.pClaim) (hf.canon hw)
  rw [other_of_frame hf hw, ← heir_eq] at ha
  rw [dropClaim_holder hw hh]
  exact ha.of_same (driveL_of_frame hf hw rfl)

/-- A PRIMARY whose CLAIM is dropped synchronises anew. -/
theorem mod_claimDrop (hw : s.regsWf = true) (hh : s.bogie.holder = some s.slot) (hm : s.mod = .primary) : (s.dropClaim 7).mod = .syncing := by
  have h1 := frame_claimLetGo (s := s) (k := 7)
  have hw1 := h1.canon hw
  have h2 := frame_latchAway (s.claimLetGo 7) (s.bogie.pReady || s.bogie.pClaim)
  have hw2 := h2.canon hw1
  have hm2 : ((s.claimLetGo 7).latchAway (s.bogie.pReady || s.bogie.pClaim)).mod = .primary := by rw [h2.mod hw1, h1.mod hw, hm]
  have hr2 : ((s.claimLetGo 7).latchAway (s.bogie.pReady || s.bogie.pClaim)).pair.released = some 7 := by rw [h2.part .pair (by decide)]; rfl
  have hg := regsWf_tokenGone (k := 7) hw2
  rw [dropClaim_holder hw hh, State.transferAway, afterDrop_loses hm2 hr2, tokenLost_eq, (frame_canPermit _).mod ((frame_toSyncing _).canon hg),
    mod_toSyncing hg]

theorem mem_claimDrop (hw : s.regsWf = true) (hh : s.bogie.holder = some s.slot) (hc : s.olc.carry = none) : (s.dropClaim 7).mem = s.mem := by
  rw [dropClaim_holder hw hh, mem_transferAway (s := s.claimLetGo 7) hc]
  rfl

/-- The latch that comes here from the partner. -/
structure Coming (s t : State) : Prop where
  holder : t.bogie.holder = some s.slot
  rising : t.bogie.rising = some s.slot
  token : t.token = s.token
  mod : t.mod = s.mod

theorem coming_transferHere {ps : List Part} {W : List Rect} (h : Frame ps W s u) (hw : s.regsWf = true)
    (h1 : autoParam (apartAll W F.pairStatus_slot = true) List.TFAE.out._auto_1)
    (h2 : autoParam (apartAll W F.pairStatus_token = true) List.TFAE.out._auto_1)
    (h3 : autoParam (apartAll W F.pairStatus_state = true) List.TFAE.out._auto_1) : Coming s (u.transferHere k) := by
  have hs : u.slot = s.slot := by rw [State.slot, h.fbit hw h1, State.slot]
  exact ⟨congrArg some hs, congrArg some hs, h.fbit hw h2, h.mod hw h3⟩

theorem partnerCut_freed (hw : s.regsWf = true) (hr : s.fbit F.pairStatus_ready = true ∨ s.fbit F.pairStatus_claim = true) :
    Coming s (s.partnerCut.tokenFreed 1) ∧ (s.partnerCut.tokenFreed 1).pair.incoming = 1 ∧ (s.partnerCut.tokenFreed 1).bogie.lanes = 0 := by
  have hf : Frame [.regs, .bogie] [.fld F.pairStatus_lanes] s s.partnerCut := .trans .fset .bogie
  rw [tokenFreed_claims (hr.imp (hf.fbit hw).trans (hf.fbit hw).trans)]
  exact ⟨coming_transferHere hf hw, rfl, rfl⟩

theorem away_connectorParts (hw : s.regsWf = true) : Away s (s.linkCut.transferAway (s.bogie.pReady || s.bogie.pClaim)) s.heir ∧
    (s.linkCut.transferAway (s.bogie.pReady || s.bogie.pClaim)).bogie.lanes = 0 := by
  have hf := frame_linkCut (s := s)
  have hw1 := hf.canon hw
  have ha := away_transferAway (s := s.linkCut) (b := s.bogie.pReady || s.bogie.pClaim) hw1
  rw [other_of_frame hf hw, ← heir_eq] at ha
  have hfs : Frame [.regs, .pair] [.fld F.pairStatus_lanes] s (s.fset F.pairStatus_lanes 0) := .fset
  refine ⟨ha.of_same fun n => ?_, ?_⟩
  · have hd : s.linkCut.driveL n = (s.fset F.pairStatus_lanes 0).driveL n := rfl
    rw [hd, driveL_of_frame hfs hw rfl]
  · have hd : Frame [.out, .regs, .mem, .pair, .olc, .brm, .scan, .recd, .can] tokenLostPlaces
        (s.linkCut.latchAway (s.bogie.pReady || s.bogie.pClaim)) (s.linkCut.transferAway (s.bogie.pReady || s.bogie.pClaim)) :=
      (frame_afterDrop _).trans (frame_canPermit _).sub
    rw [hd.part .bogie (by decide), (latchAway_shows hw1).2]
    rfl

/-- A claim on a latch that the partner holds. -/
theorem claimHere_held (hw : s.regsWf = true) (hh : s.bogie.holder = some s.other) : (s.claimHere false).bogie = s.bogie ∧
    (s.claimHere false).token = s.token := by
  have he : s.claimHere false = if s.pair.handoverIn then s else s.claimRefused := by
    rw [State.claimHere, hh]
    dsimp only
    rw [if_neg slot_ne_other.symm, if_neg Bool.false_ne_true]
  obtain ⟨h1, -, h2, -⟩ := claimRefused_shows hw
  rw [he]
  split
  · exact ⟨rfl, rfl⟩
  · exact ⟨h1, h2⟩

/-- Two claims on a free latch: slot A's takes it. -/
theorem claimAssert_both (hw : s.regsWf = true) (hc : s.power.chip = true) (h : s.fbit F.pairStatus_claim = true) (hh : s.bogie.holder = none) :
    ∃ t, exec (.claimAssert s.slot true false) s = .next t ∧ t.bogie.holder = some .a ∧
      (s.slot = .a → t.token = true) ∧ (s.slot = .b → t.token = s.token) := by
  refine ⟨_, exec_claimAssert_both hc h hh, ?_⟩
  by_cases ha : s.slot = .a
  · rw [if_pos ha]
    obtain ⟨h1, h2, -, -⟩ := latchHere_shows (s := { s with bogie := { s.bogie with pClaim := true } }) hw
    refine ⟨?_, fun _ => h1, fun hb => by cases ha.symm.trans hb⟩
    rw [h2]
    exact congrArg some ha
  · rw [if_neg ha]
    have hsl : s.slot = .b := by
      rcases hs : s.slot with _ | _
      · exact absurd hs ha
      · rfl
    have ho : s.other = .a := by
      rcases hs : s.other with _ | _
      · rfl
      · exact absurd (hsl.trans hs.symm) slot_ne_other
    obtain ⟨h1, h2⟩ := claimHere_held (s := { s with bogie := { s.bogie with pClaim := true, holder := some s.other } }) hw rfl
    refine ⟨?_, fun e => absurd e ha, fun _ => h2⟩
    rw [h1, ← ho]

/-- Settles O46: what goes away, comes and is refused, command by command. -/
theorem primacyLatch : Obligations.PrimacyLatch := by
  intro s hw hc
  dsimp only
  have hheir : (if s.bogie.pReady = true ∨ s.bogie.pClaim = true then some s.other else none) = s.heir := rfl
  rw [hheir]
  refine ⟨fun silent h hh => ?take, fun h hh => ?silent, fun h hh hi => ?refused, fun h hh => claimAssert_both hw hc h hh,
    fun hh => exec_claimAssert_other hh, fun hh => ?drop, fun hh => ?noDrop, fun hh hr => ?partner, fun hh h1 h2 => ?free,
    fun hh hr => ?reflex, fun ho ha hh hp => ?away, fun ho ha hp => ?noted, fun hh => ?parts, fun hh hr => ?partsOther, fun hh => ?partsFree⟩
  case take =>
    obtain ⟨h1, h2, h3, h4⟩ := latchHere_shows (s := s) hw
    refine ⟨_, exec_claimAssert_here hc h, ?_⟩
    rw [State.claimHere, hh]
    exact ⟨h1, h2, h3, h4⟩
  case silent =>
    refine ⟨_, exec_claimAssert_here hc h, ?_⟩
    rw [State.claimHere, hh]
    dsimp only
    rw [if_neg slot_ne_other.symm, if_pos rfl]
    exact ⟨⟨rfl, rfl, rfl, rfl⟩, rfl⟩
  case refused =>
    obtain ⟨h1, h2, h3, h4, h5⟩ := claimRefused_shows (s := s) hw
    refine ⟨_, exec_claimAssert_here hc h, ?_⟩
    rw [State.claimHere, hh]
    dsimp only
    rw [if_neg slot_ne_other.symm, if_neg Bool.false_ne_true, if_neg (by rw [hi]; exact Bool.false_ne_true), h1]
    exact ⟨hh, h2, h3, h4, h5⟩
  case drop =>
    obtain ⟨h1, h2, h3, h4, h5⟩ := away_claimDrop hw hh
    exact ⟨_, exec_claimDrop_holder hc hh, ⟨h1, h2, h3, h4, h5⟩, mod_claimDrop hw hh, mem_claimDrop hw hh⟩
  case noDrop =>
    have he : exec (.claimDrop s.slot) s = .next (s.fsetb F.pairStatus_claim false) := by
      rw [exec_claimDrop, execClaimDrop, if_pos hh, if_pos rfl]
    exact ⟨_, he, fieldSet_fset_lt hw (by decide) (by decide), onlyRegs_wr⟩
  case partner =>
    exact ⟨_, (exec_claimDrop_other hh).trans (congrArg Host.Outcome.next (tokenFreed_claims (s := { s with
      bogie := { s.bogie with pClaim := false } }) hr)), ⟨rfl, rfl, rfl, rfl⟩, rfl⟩
  case free => exact (exec_claimDrop_other hh).trans (congrArg Host.Outcome.next (tokenFreed_free h1 h2))
  case reflex => exact ⟨_, exec_rfxSilent_other hh hr, ⟨rfl, rfl, rfl, rfl⟩, rfl⟩
  case away =>
    obtain ⟨h1, h2, h3, h4, h5⟩ := away_transferAway (s := { s with bogie := { s.bogie with rfxSilent := true } }) (b := true) hw
    refine ⟨_, (exec_rfxSilent_here ho ha).trans (congrArg Host.Outcome.next (if_pos ⟨hh, hp⟩)), h1, h2, h3, h4, h5⟩
  case noted => exact (exec_rfxSilent_here ho ha).trans (congrArg Host.Outcome.next (if_neg fun e => by cases hp.symm.trans e.2))
  case parts =>
    obtain ⟨⟨h1, h2, h3, h4, h5⟩, h6⟩ := away_connectorParts hw
    exact ⟨_, exec_connectorParts_here hh, ⟨h1, h2, h3, h4, h5⟩, h6⟩
  case partsOther =>
    obtain ⟨⟨h1, h2, h3, h4⟩, h5, h6⟩ := partnerCut_freed hw hr
    exact ⟨_, exec_connectorParts_other.trans (congrArg Host.Outcome.next (if_pos hh)), ⟨h1, h2, h3, h4⟩, h5, h6⟩
  case partsFree =>
    refine ⟨_, exec_connectorParts_other.trans (congrArg Host.Outcome.next (if_neg hh)), ?_, rfl, ?_⟩
    · exact onlyRegs_wr
    · exact fget_fset hw (by decide)

end Sys2Proof.Machine
end

section
/-! Work taken, the limits of a window, and signature mismatches (R80, R83, R91, R93, R94). -/

namespace Sys2Proof.Machine

variable {s t u : State} {be i : Fin 32} {w : Window} {oc : OpenChain} {upset upsetH : W64} {k : Nat}

/-! The start of a window. -/

/-- The window that starts from a checkpoint. -/
def startedWindow (oc : OpenChain) (upset upsetH start : W64) : Window :=
  { oc := oc, core := oc.cp, upset := upset, upsetH := upsetH, start := start }

/-- A window has started on a drupelet, and nothing changed but its place and the clock of its cluster. -/
structure Starts (be : Fin 32) (oc : OpenChain) (upset upsetH : W64) (s t : State) : Prop where
  win : (t.dru be).win = some (startedWindow oc upset upsetH s.time.tb1)
  dru : t.dru be = { s.dru be with win := some (startedWindow oc upset upsetH s.time.tb1) }
  others : ∀ k, k ≠ be → t.dru k = s.dru k
  brm : t.brm = { s.brm with be := t.brm.be }
  frame : Frame [.regs, .clk, .brm] [.reg R.wfStatus] s t

theorem startWindow_starts : Starts be oc upset upsetH s (s.startWindow be oc upset upsetH) := by
  have hf := frame_ungate s be
  have hd : ∀ k, (s.ungate be).dru k = s.dru k := dru_of_frame hf
  have hb : (s.ungate be).brm = s.brm := hf.part .brm (by decide)
  have hs : (s.startWindow be oc upset upsetH).dru be = { s.dru be with win := some (startedWindow oc upset upsetH s.time.tb1) } := by
    rw [State.startWindow, State.openWindow, dru_setWin_self, hd]
    rfl
  refine ⟨congrArg Drupelet.win hs, hs, fun k hk => ?_, ?_, ?_⟩
  · exact (dru_setDru_ne _ hk).trans (hd k)
  · rw [← hb]
    rfl
  · exact Frame.after (frame_setDru ..).sub hf.sub

/-- Snapshots touch nothing that the work depends on. -/
theorem takeSnaps_frame {x : Work} {d : ChainDesc} : Frame [.obs, .brm] [] s (s.takeSnaps x d) ∧ (s.takeSnaps x d).brm.be = s.brm.be ∧
    (s.takeSnaps x d).brm.overflow = s.brm.overflow := by
  have h1 : Frame [.obs, .brm] [] s (if s.traceNext = some x.chain ∧ s.obs.replica = none then
      { s with obs := { s.obs with snap := some (s.snapshot x d) } } else s) := Frame.ite .obs (.refl s)
  have h2 : (if s.traceNext = some x.chain ∧ s.obs.replica = none then
      { s with obs := { s.obs with snap := some (s.snapshot x d) } } else s).brm = s.brm := by split <;> rfl
  unfold State.takeSnaps
  extract_lets _ v
  change Frame _ _ s v at h1
  change v.brm = s.brm at h2
  clear_value v
  refine ⟨h1.trans (Frame.ite .brm (.refl v)), ?_, ?_⟩
  · rw [← h2]
    split <;> rfl
  · rw [← h2]
    split <;> rfl

/-- A chain enters with the registers of R106. -/
theorem startCore_shows (x : Work) (d : ChainDesc) : (s.startCore x d).pc = BitVec.ofNat 24 d.entry ∧ (s.startCore x d).fl = 0 ∧
    (s.startCore x d).lk = 0 ∧ (s.startCore x d).pb = BitVec.ofNat 40 (s.winBase d.cls) ∧
    (s.startCore x d).ib = BitVec.ofNat 40 (0x02000000 + d.instOff) ∧ (s.startCore x d).cb = BitVec.ofNat 40 s.bank ∧
    (∀ k : Fin 32, k ≠ 1 → gReg (s.startCore x d) k = 0) ∧
    gReg (s.startCore x d) 1 = (if d.cls = .e then BitVec.ofNat 64 x.slot else 0) := by
  have h0 : ∀ (c : Core) (k : Fin 32), c.g = Vector.replicate 32 0 → gReg c k = 0 := fun c k h => by
    rw [gReg, h]
    split
    · rfl
    · exact Vector.getElem_replicate ..
  unfold State.startCore
  extract_lets c
  have hc : ∀ k, gReg c k = 0 := fun k => h0 c k rfl
  split
  · have hg := gSet_frame (d := (1 : Fin 32)) c (BitVec.ofNat 64 x.slot)
    refine ⟨congrArg Core.pc hg, congrArg Core.fl hg, congrArg Core.lk hg, congrArg Core.pb hg, congrArg Core.ib hg, congrArg Core.cb hg, fun k hk => ?_, ?_⟩
    · rw [gReg_gSet, if_neg fun h => hk h.1, hc]
    · rw [gReg_gSet, if_pos (by decide)]
  · exact ⟨rfl, rfl, rfl, rfl, rfl, rfl, fun k _ => hc k, hc 1⟩

theorem chain_of_mem (hm : t.mem = s.mem) (hb : t.bank = s.bank) (n : Nat) : t.chain n = s.chain n := by
  have hc : ∀ b j, t.chainAt b j = s.chainAt b j := fun b j => by
    simp only [State.chainAt, State.hChainTab, State.bw, hm]
  rw [State.chain, State.chain, hb, State.chains, State.chains, State.hChainCnt, State.hChainCnt, State.bw, State.bw, hm]
  exact congrArg (fun f => ((List.range _).map f).find? _) (funext (hc s.bank))

theorem startCore_of_conf (hc : t.conf = s.conf) (hb : t.bank = s.bank) (x : Work) (d : ChainDesc) : t.startCore x d = s.startCore x d := by
  simp only [State.startCore, State.winBase, hc, hb]

/-- The checkpoint with which a chain enters. -/
def State.entered (s : State) (x : Work) (d : ChainDesc) : OpenChain := { work := x, desc := d, cp := s.startCore x d }

/-- A chain has started on a drupelet with the snapshots due before it. -/
structure ChainStarts (be : Fin 32) (oc : OpenChain) (upset upsetH : W64) (s t : State) : Prop where
  win : (t.dru be).win = some (startedWindow oc upset upsetH s.time.tb1)
  deques : (t.dru be).deques = (s.dru be).deques
  others : ∀ k, k ≠ be → t.dru k = s.dru k
  overflow : t.brm.overflow = s.brm.overflow
  frame : Frame [.regs, .clk, .brm, .obs] [.reg R.wfStatus] s t

/-- The start of a chain; what it reads of the chain is as in `s`. -/
theorem startWork_starts {ps : List Part} {W : List Rect} {x : Work} {d : ChainDesc} (h : Frame ps W s u) (hw : s.regsWf = true)
    (hd : s.chain x.chain = some d) (h1 : autoParam (decide (Part.mem ∈ ps) = false) List.TFAE.out._auto_1)
    (h2 : autoParam (decide (Part.conf ∈ ps) = false) List.TFAE.out._auto_1)
    (h3 : autoParam (apartAll W F.olcStatus_activeBank = true) List.TFAE.out._auto_1) :
    ChainStarts be (s.entered x d) upset upsetH u (u.startWork be x upset upsetH) := by
  have hb := bank_of_frame h hw h3
  obtain ⟨hf, hbe, ho⟩ := takeSnaps_frame (s := u) (x := x) (d := d)
  have hdru : ∀ k, (u.takeSnaps x d).dru k = u.dru k := fun k => by rw [State.dru, hbe, State.dru]
  have hc : u.startWork be x upset upsetH = (u.takeSnaps x d).startWindow be (s.entered x d) upset upsetH := by
    rw [State.startWork, chain_of_mem (h.part .mem (of_decide_eq_false h1)) hb, hd]
    dsimp only
    rw [startCore_of_conf (h.part .conf (of_decide_eq_false h2)) hb]
    rfl
  obtain ⟨g1, g2, g3, g4, g5⟩ := startWindow_starts (s := u.takeSnaps x d) (be := be) (oc := s.entered x d) (upset := upset) (upsetH := upsetH)
  rw [hc]
  refine ⟨?_, ?_, fun k hk => (g3 k hk).trans (hdru k), ?_, hf.sub.trans g5.sub⟩
  · rw [g1, hf.part .time (by decide)]
  · rw [g2, hdru]
  · rw [g4]
    exact ho

/-! Work found (R80). -/

/-- A restart entry found is none of a window that the drupelet mismatched itself. -/
theorem restartFor_barred {c : Cls} {e : Nat × OpenChain} (h : s.restartFor be c = some e) : e.2.barred.getLsbD be.val = false := by
  unfold State.restartFor at h
  dsimp only at h
  split at h
  next e' he =>
    cases h
    have := List.find?_some he
    simp only [Bool.and_eq_true, Bool.not_eq_true'] at this
    exact this.1.2
  next =>
    have := List.find?_some h
    simp only [Bool.and_eq_true, Bool.not_eq_true'] at this
    exact this.2

/-- The fullest deque of a cluster holds work. -/
theorem fullest_holds {j : Nat} {c : Cls} (h : s.fullest j c = some i) : vget (s.dru i).deques c.num ≠ [] := by
  have hf : ∀ (l : List (Fin 32)) (x : Option (Fin 32)), (∀ y, x = some y → (vget (s.dru y).deques c.num).length ≠ 0) →
      ∀ y, l.foldl (fun best i => match best with
        | none => if (vget (s.dru i).deques c.num).length = 0 then none else some i
        | some b => if (vget (s.dru b).deques c.num).length < (vget (s.dru i).deques c.num).length then some i else best) x = some y →
        (vget (s.dru y).deques c.num).length ≠ 0 := by
    intro l
    induction l with
    | nil => exact fun x hx y hy => hx y hy
    | cons a l ih =>
      intro x hx y hy
      refine ih _ (fun z hz => ?_) y hy
      cases x with
      | none =>
        dsimp only at hz
        split at hz
        · cases hz
        next hl =>
          cases hz
          exact hl
      | some b =>
        dsimp only at hz
        split at hz
        next hl =>
          cases hz
          omega
        next => exact hx z hz
  intro h0
  exact hf _ none (fun y hy => by cases hy) i h (by rw [h0]; rfl)

theorem findCls_found {c : Cls} {f : Found} (h : s.findCls be c = some f) : (∀ k oc, f = .restart k oc → oc.barred.getLsbD be.val = false) ∧
    ∀ k x, f = .steal k x → k ≠ be := by
  unfold State.findCls at h
  split at h
  next k oc hr =>
    cases h
    refine ⟨(fun k' oc' e => ?_), (fun k' x e => nomatch e)⟩
    cases e
    exact restartFor_barred (e := (k, oc)) hr
  next =>
    split at h
    next =>
      cases h
      exact ⟨(fun _ _ e => nomatch e), (fun _ _ e => nomatch e)⟩
    next =>
      split at h
      next =>
        cases h
        exact ⟨(fun _ _ e => nomatch e), (fun _ _ e => nomatch e)⟩
      next hown =>
        split at h
        next =>
          cases h
          exact ⟨(fun _ _ e => nomatch e), (fun _ _ e => nomatch e)⟩
        next =>
          dsimp only at h
          split at h
          next j hj =>
            obtain ⟨x, hx, rfl⟩ := Option.map_eq_some_iff.mp h
            refine ⟨(fun _ _ e => nomatch e), (fun k y e => ?_)⟩
            cases e
            obtain ⟨n, -, hn⟩ := List.exists_of_findSome?_eq_some hj
            intro hk
            rw [hk] at hn
            exact fullest_holds hn (List.getLast?_eq_none_iff.mp hown)
          next => cases h

theorem findWork_found {f : Found} (h : s.findWork be = some f) : (∀ k oc, f = .restart k oc → oc.barred.getLsbD be.val = false) ∧
    ∀ k x, f = .steal k x → k ≠ be := by
  obtain ⟨c, -, hc⟩ := List.exists_of_findSome?_eq_some h
  exact findCls_found hc

/-- A drupelet that may take work of the scan. -/
structure Idle (be : Fin 32) (s : State) : Prop where
  drain : s.obs.drain ≠ some be.val
  active : (s.dru be).st = .active
  runs : s.scanRuns = true
  free : (s.dru be).win = none
  clocked : s.clocked be = true

/-- The class of a chain, as the work's place is found by it. -/
def State.slotOf (s : State) (x : Work) : Nat := (s.chain x.chain).elim 0 (fun d => d.cls.num)

theorem slotOf_chain {x : Work} {d : ChainDesc} (h : s.chain x.chain = some d) : s.slotOf x = d.cls.num := by rw [State.slotOf, h]; rfl

/-- Work that leaves its place. -/
def State.leaves (s : State) (be : Fin 32) : Found → State
  | .restart k oc => (({ s with brm := { s.brm with restarts := s.brm.restarts.erase (k, oc) } }.bump R.brmRestarts).obsCount 0x0223)
  | .yielded oc => { s with brm := { s.brm with yielded := s.brm.yielded.erase oc } }
  | .own x => s.setDru be { s.dru be with deques := vmod (s.dru be).deques (s.slotOf x) List.dropLast }
  | .overflow x => { s with brm := { s.brm with overflow := vmod s.brm.overflow (s.slotOf x) List.tail } }.bump R.brmStealX
  | .steal i x => ((s.setDru i { s.dru i with deques := vmod (s.dru i).deques (s.slotOf x) List.tail }).bump
      (if i.val / 8 = be.val / 8 then R.brmStealIn else R.brmStealX)).obsCount (if i.val / 8 = be.val / 8 then 0x0221 else 0x0222)

/-- What the drupelet does with the work found. -/
def State.takes (s : State) (be : Fin 32) (upset upsetH : W64) : Option Found → State
  | none => s.takeAudit be upset upsetH
  | some (.restart k oc) => (s.leaves be (.restart k oc)).startWindow be oc upset upsetH
  | some (.yielded oc) => (s.leaves be (.yielded oc)).startWindow be oc upset upsetH
  | some (.own x) => if s.openCount ≥ 256 then s else (s.leaves be (.own x)).startWork be x upset upsetH
  | some (.overflow x) => if s.openCount ≥ 256 then s else (s.leaves be (.overflow x)).startWork be x upset upsetH
  | some (.steal i x) => if s.openCount ≥ 256 then s else (s.leaves be (.steal i x)).startWork be x upset upsetH

theorem Idle.exec {f : Option Found} (h : Idle be s) (hf : s.findWork be = f) :
    exec (.workTake be upset upsetH) s = .next (s.takes be upset upsetH f) := by
  obtain ⟨h1, h2, h3, h4, h5⟩ := h
  rw [exec_workTake, execWorkTake, State.takeWork]
  dsimp only
  rw [if_neg h1, if_neg (c := (!s.clocked be) = true) (by rw [h5]; decide), if_neg (c := (s.dru be).st = .traced) (by rw [h2]; decide),
    if_neg (c := (s.dru be).st ≠ .active ∨ (s.dru be).win.isSome = true) (by rw [h2, h4]; decide),
    if_neg (c := (!s.scanRuns) = true) (by rw [h3]; decide), hf]
  match f with
  | none => rfl
  | some (.restart ..) => rfl
  | some (.yielded _) => rfl
  | some (.own _) => rfl
  | some (.overflow _) => rfl
  | some (.steal ..) => rfl

/-- A PRIMARY takes no audit. -/
theorem takeAudit_primary (h : s.mod = .primary) : s.takeAudit be upset upsetH = s := by
  have hm : s.auditMay be = false := by rw [State.auditMay, h]; simp
  unfold State.takeAudit
  extract_lets here go start
  rw [hm]
  rfl

theorem frame_leaves (s : State) (be : Fin 32) (f : Found) : Frame [.regs, .brm]
    [.reg R.brmRestarts, .reg R.brmStealIn, .reg R.brmStealX, .span 0x14400 0x14800] s (s.leaves be f) := by
  have hc {i : Fin 32} : coverAll [.reg R.brmRestarts, .reg R.brmStealIn, .reg R.brmStealX, .span 0x14400 0x14800]
      ⟨if i.val / 8 = be.val / 8 then R.brmStealIn else R.brmStealX, 0, 32⟩ = true := by split <;> decide
  cases f with
  | restart k oc => exact Frame.after (frame_obsCount ..).sub <| Frame.after .bump .brm
  | yielded oc => exact .brm
  | own x => exact (frame_setDru ..).sub
  | overflow x => exact Frame.after .bump .brm
  | steal i x => exact Frame.after (frame_obsCount ..).sub <| Frame.after (.bump hc) (frame_setDru ..).sub

/-- What the start of a window from an open chain brings. -/
theorem starts_open {f : Found} (hbe : (s.leaves be f).brm.be = s.brm.be) :
    ∃ t, (s.leaves be f).startWindow be oc upset upsetH = t ∧ (t.dru be).win = some (startedWindow oc upset upsetH s.time.tb1) ∧
      t.brm = { (s.leaves be f).brm with be := t.brm.be } ∧ Frame [.regs, .clk, .brm] [.reg R.wfStatus] (s.leaves be f) t ∧
      t.mem = s.mem ∧ ∀ k, k ≠ be → t.dru k = s.dru k := by
  have h1 := frame_leaves s be f
  obtain ⟨g1, g2, g3, g4, g5⟩ := startWindow_starts (s := s.leaves be f) (be := be) (oc := oc) (upset := upset) (upsetH := upsetH)
  refine ⟨_, rfl, by rw [g1, h1.part .time (by decide)], g4, g5, by rw [g5.part .mem (by decide), h1.part .mem (by decide)], fun k hk => ?_⟩
  rw [g3 k hk, State.dru, hbe, State.dru]

/-- What the start of a chain brings. -/
theorem starts_chain {f : Found} {x : Work} {d : ChainDesc} (hw : s.regsWf = true) (hd : s.chain x.chain = some d) :
    ∃ t, (s.leaves be f).startWork be x upset upsetH = t ∧ (t.dru be).win = some (startedWindow (s.entered x d) upset upsetH s.time.tb1) ∧
      (t.dru be).deques = ((s.leaves be f).dru be).deques ∧ t.brm.overflow = (s.leaves be f).brm.overflow ∧
      Frame [.regs, .clk, .brm, .obs] [.reg R.wfStatus] (s.leaves be f) t ∧ t.mem = s.mem ∧
      ∀ k, k ≠ be → t.dru k = (s.leaves be f).dru k := by
  have h1 := frame_leaves s be f
  obtain ⟨g1, g2, g3, g4, g5⟩ := startWork_starts (be := be) (upset := upset) (upsetH := upsetH) h1 hw hd
  exact ⟨_, rfl, by rw [g1, h1.part .time (by decide)], g2, g4, g5, by rw [g5.part .mem (by decide), h1.part .mem (by decide)], g3⟩

theorem leaves_restart (hw : s.regsWf = true) {oc : OpenChain} :
    ((s.leaves be (.restart k oc)).rd R.brmRestarts).toNat = satAdd 32 (s.rd R.brmRestarts).toNat 1 := by
  have hw1 : ({ s with brm := { s.brm with restarts := s.brm.restarts.erase (k, oc) } } : State).regsWf = true := hw
  rw [State.leaves, (frame_obsCount ..).rd (regsWf_bump hw1), toNat_rd_bump hw1]
  rfl

/-- Work of another drupelet's deque, taken from its end. -/
theorem leaves_steal (hw : s.regsWf = true) {x : Work} {r : Nat} (hr : (if i.val / 8 = be.val / 8 then R.brmStealIn else R.brmStealX) = r) :
    ((s.leaves be (.steal i x)).rd r).toNat = satAdd 32 (s.rd r).toNat 1 ∧
    (s.leaves be (.steal i x)).dru i = { s.dru i with deques := vmod (s.dru i).deques (s.slotOf x) List.tail } ∧
    ∀ k, k ≠ i → (s.leaves be (.steal i x)).dru k = s.dru k := by
  have hw1 : (s.setDru i { s.dru i with deques := vmod (s.dru i).deques (s.slotOf x) List.tail }).regsWf = true := hw
  have hf := frame_obsCount ((s.setDru i { s.dru i with deques := vmod (s.dru i).deques (s.slotOf x) List.tail }).bump r)
    (if i.val / 8 = be.val / 8 then 0x0221 else 0x0222)
  have hd : ∀ k, (s.leaves be (.steal i x)).dru k = (s.setDru i { s.dru i with deques := vmod (s.dru i).deques (s.slotOf x) List.tail }).dru k := by
    intro k
    rw [State.leaves, hr]
    exact dru_of_frame hf rfl k
  refine ⟨?_, ?_, fun k hk => ?_⟩
  · have ha : r = R.brmStealIn ∨ r = R.brmStealX := by
      rw [← hr]
      split
      · exact .inl rfl
      · exact .inr rfl
    have hap : apartAll [.span 0x14400 0x14800] ⟨r, 0, 32⟩ = true := by rcases ha with rfl | rfl <;> decide
    rw [State.leaves, hr, hf.rd (regsWf_bump hw1) hap, toNat_rd_bump hw1]
    rfl
  · rw [hd, dru_setDru_self]
  · rw [hd, dru_setDru_ne _ hk]

theorem leaves_restart_brm {oc : OpenChain} : (s.leaves be (.restart k oc)).brm = { s.brm with restarts := s.brm.restarts.erase (k, oc) } :=
  (frame_obsCount ..).part .brm (by decide)

/-! The limits of a window. -/

theorem exec_windowTimeLimit_runs (h : (s.dru be).win = some w) (hp : w.phase = .running) :
    exec (.windowTimeLimit be) s = .next (s.windowEnd be w false) := by
  rw [exec_windowTimeLimit, execWindowTimeLimit, h]
  exact when_pos (by rw [hp]; rfl)

theorem exec_windowStoreLimit_runs (h : (s.dru be).win = some w) (hp : w.phase = .running) (hs : 2048 ≤ storeCount w) :
    exec (.windowStoreLimit be) s = .next (s.windowEnd be w false) := by
  rw [exec_windowStoreLimit, execWindowStoreLimit, h]
  exact when_pos (by rw [hp]; exact decide_eq_true hs)

theorem exec_windowStoreLimit_rests (h : (s.dru be).win = some w) (hs : storeCount w < 2048) : exec (.windowStoreLimit be) s = .next s := by
  rw [exec_windowStoreLimit, execWindowStoreLimit, h]
  exact when_neg (by rw [Bool.and_eq_false_iff]; exact .inr (decide_eq_false (by omega)))

/-- A window that its limit ends where both cores agree. -/
theorem limit_agrees (hr : w.rep = none) (hu : w.upset = 0) :
    (s.windowEnd be w false).dru be = { s.dru be with win := some { w with phase := if s.copyHolds be w then .copyHeld false else .committing false } } ∧
    s.windowEnd be w false = { s with brm := { s.brm with be := (s.windowEnd be w false).brm.be, fgNs := (s.windowEnd be w false).brm.fgNs } } ∧
    ∀ i, i ≠ be → (s.windowEnd be w false).dru i = s.dru i := by
  rw [windowEnd_agrees hr hu, spend_foreground hr]
  exact ⟨dru_setWin_self, rfl, fun i hi => dru_setDru_ne _ hi⟩

/-! A signature mismatch. -/

/-- A member added is one, whatever the list. -/
theorem NSet.has_add (p : NSet) (a : Nat) : (p.add a).has a = true := by
  rw [NSet.has, NSet.add]
  induction p with
  | nil => simp [sset, sget]
  | cons e r ih =>
    obtain ⟨k, v⟩ := e
    rw [sset]
    split
    · rw [if_neg (by decide), sget, if_pos rfl]
    · split
      · rw [if_neg (by decide), sget, if_pos rfl]
      next h =>
        rw [sget, if_neg h]
        exact ih

/-! What the loss of the pair's token does to the drupelets: their windows may end. -/

/-- Windows may end, none begins, and every drupelet keeps its state. -/
structure WinsEnd (s t : State) : Prop where
  st : ∀ i, (t.dru i).st = (s.dru i).st
  win : ∀ i, (s.dru i).win = none → (t.dru i).win = none

namespace WinsEnd

theorem refl (s : State) : WinsEnd s s := ⟨fun _ => rfl, fun _ => id⟩

theorem trans (h1 : WinsEnd s t) (h2 : WinsEnd t u) : WinsEnd s u :=
  ⟨fun i => (h2.st i).trans (h1.st i), fun i h => h2.win i (h1.win i h)⟩

theorem after (h2 : WinsEnd t u) (h1 : WinsEnd s t) : WinsEnd s u := h1.trans h2

theorem of_frame {ps : List Part} {W : List Rect} (h : Frame ps W s t)
    (hp : autoParam (decide (Part.brm ∈ ps) = false) List.TFAE.out._auto_1) : WinsEnd s t :=
  ⟨fun i => by rw [dru_of_frame h hp], fun i => by rw [dru_of_frame h hp]; exact id⟩

theorem ite {c : Prop} [Decidable c] (h1 : WinsEnd s t) (h2 : WinsEnd s u) : WinsEnd s (if c then t else u) := by
  split
  · exact h1
  · exact h2

/-- Drupelets changed one by one. -/
theorem of_map {f : Drupelet → Drupelet} (h : t.brm.be = s.brm.be.map f) (hs : ∀ d, (f d).st = d.st) (hw : ∀ d, d.win = none → (f d).win = none) :
    WinsEnd s t := by
  have hd : ∀ i, t.dru i = f (s.dru i) := fun i => by rw [State.dru, h, State.dru]; exact Vector.getElem_map ..
  exact ⟨fun i => by rw [hd, hs], fun i h => by rw [hd, hw _ h]⟩

end WinsEnd

theorem winsEnd_haltScan (s : State) : WinsEnd s s.haltScan := .of_map (s := s) rfl (fun _ => rfl) (fun _ _ => rfl)

theorem winsEnd_stopAudit (s : State) : WinsEnd s s.stopAudit := by
  refine .of_map (s := s) rfl (fun d => ?_) (fun d h => ?_)
  · split
    · split <;> rfl
    · rfl
  · rw [h]
    exact h

theorem winsEnd_enter (s : State) (m : ModState) : WinsEnd s (s.enter m) := by
  refine .ite (.refl s) ?_
  have h1 : Frame [.regs, .recd] [.fld F.pairStatus_state] s.stopAudit ((s.stopAudit.setMod m).raise hapRole 0 [BitVec.ofNat 64 (modCode m)]) :=
    Frame.after .raise .setMod
  have h2 : Frame [.out] [] ((s.stopAudit.setMod m).raise hapRole 0 [BitVec.ofNat 64 (modCode m)])
    (((s.stopAudit.setMod m).raise hapRole 0 [BitVec.ofNat 64 (modCode m)]).emit (.display (Config.pageText 18 []))) := .emit
  have h3 := (winsEnd_stopAudit s).trans (.of_frame h1)
  exact .ite (h3.trans (.of_frame h2)) h3

theorem winsEnd_toSyncing (s : State) : WinsEnd s s.toSyncing := by
  have h1 : Frame [.regs] [.fld F.pairStatus_claim, .fld F.pairStatus_ready] s ((s.setReady false).fsetb F.pairStatus_claim false) :=
    Frame.after .fsetb .fsetb
  have h2 : Frame [.out, .regs, .pair, .scan, .can] [.fld F.pairStatus_synced, .reg R.pairSync, .blk 0xa]
      ((((s.setReady false).fsetb F.pairStatus_claim false).haltScan).enter .syncing) s.toSyncing :=
    Frame.after Frame.send <| Frame.after (Frame.patched rfl rfl rfl) <| Frame.after (frame_canPermit ..).sub <|
      Frame.after Frame.fset <| (frame_syncReset ..).sub
  exact .after (.of_frame h2) <| .after (winsEnd_enter ..) <| .after (winsEnd_haltScan _) (.of_frame h1)

theorem winsEnd_afterDrop (s : State) : WinsEnd s s.afterDrop := by
  obtain ⟨k, e⟩ | ⟨k, e⟩ | e | e := afterDrop_cases s
  · have hf : Frame [.regs, .mem, .pair, .olc, .recd] tokenLostPlaces s.haltScan (s.tokenGone k) :=
      Frame.after (frame_showForced ..).sub <| Frame.after Frame.pair <| Frame.after (frame_handoverEnd ..).sub <| (frame_logSwitch ..).sub
    rw [e, tokenLost_eq]
    exact .after (winsEnd_toSyncing _) <| .after (.of_frame hf) (winsEnd_haltScan s)
  · have h1 := frame_logSwitch s.haltScan k 0 false
    have h2 : Frame [.out, .regs, .pair] tokenLostPlaces ((s.haltScan.logSwitch k 0 false).enter .standby) (s.handedOver k) :=
      Frame.after (Frame.ite (frame_showRemoval ..).sub (Frame.refl _)) <| Frame.after (Frame.ite (frame_setReady ..).sub (Frame.refl _)) <|
        (frame_handoverEnd ..).sub
    rw [e]
    exact .after (.of_frame h2) <| .after (winsEnd_enter ..) <| .after (.of_frame h1) (winsEnd_haltScan s)
  · rw [e]
    exact .of_frame frame_stoppedDrop
  · rw [e]
    exact .refl s

theorem winsEnd_dropClaim (s : State) : WinsEnd s (s.dropClaim k) := by
  have h1 : Frame [.regs] [.fld F.pairStatus_claim] s (s.fsetb F.pairStatus_claim false) := .fsetb
  have h2 : Frame [.pair] [] (s.fsetb F.pairStatus_claim false) { s.fsetb F.pairStatus_claim false with pair := { s.pair with released := some k } } := .pair
  refine .after (.ite ?_ (.refl _)) (.of_frame h1)
  exact .after (.of_frame (frame_canPermit _)) <| .after (winsEnd_afterDrop _) <| .after (.of_frame (frame_latchAway ..)) (.of_frame h2)

/-! A mismatch. -/

/-- A drupelet under no trace leaves the pool. -/
theorem deactivate_untraced {st : DState} (h : s.obs.traced = none) : Frame [.obs] [] (s.leavePool be st) (s.deactivate be st) := by
  have hl : (s.leavePool be st).obs = s.obs := frame_leavePool_own.part .obs (by decide)
  have ht : ∀ u : State, u.obs.traced = none → (if u.obs.traced.isSome ∧ u.actives.length < 30 then u.traceStop else u) = u := fun u hu =>
    if_neg (by rw [hu]; exact fun e => Bool.false_ne_true e.1)
  unfold State.deactivate
  dsimp only
  split
  · rw [ht _ (by rw [hl]; exact h)]
    exact .obs
  · rw [ht _ (by rw [hl]; exact h)]
    exact .refl _

/-- A mismatch counted. -/
def State.mismatchCounted (s : State) (be : Fin 32) (w : Window) : State :=
  ((s.obsWindow be w .mismatch).bump R.brmMismatch).bump (R.brmBenMismatch be.val)

/-- The drupelet out of the pool, with the chain that it ran last. -/
def State.mismatchOut (s : State) (be : Fin 32) (chain : Nat) : State :=
  ((s.setDru be { s.dru be with lastChain := BitVec.ofNat 14 chain }).deactivate be .selfTest).raise hapMismatch be.val [BitVec.ofNat 64 chain]

/-- The fourth mismatch of a window. -/
def State.brambleFault (s : State) (be : Fin 32) (chain : Nat) : State :=
  (s.fset F.brmStatus_brambleFault 1).raise hapBrambleFault be.val [BitVec.ofNat 64 chain]

/-- The window that mismatched, as a restart entry. -/
def Window.again (w : Window) (be : Fin 32) : OpenChain :=
  { w.oc with mismatches := w.oc.mismatches + 1, barred := w.oc.barred ||| BitVec.ofNat 32 (2 ^ be.val) }

def State.mismatched (s : State) (be : Fin 32) (w : Window) : State := (s.mismatchCounted be w).mismatchOut be w.oc.work.chain

theorem mismatch_eq : s.mismatch be w = if 4 ≤ w.oc.mismatches + 1 then
      (if ((s.mismatched be w).brambleFault be w.oc.work.chain).mod = .primary then
        ((s.mismatched be w).brambleFault be w.oc.work.chain).forceZero causeBramble
        else (s.mismatched be w).brambleFault be w.oc.work.chain)
    else { s.mismatched be w with brm := { (s.mismatched be w).brm with
      restarts := (s.mismatched be w).brm.restarts ++ [(be.val / 8, w.again be)] } } := rfl

theorem traced_obsWindow {how : ObsEnd} : (s.obsWindow be w how).obs.traced = s.obs.traced := by
  unfold State.obsWindow State.obsCollect
  split
  · split <;> rfl
  · rfl

theorem mismatchCounted_shows (hw : s.regsWf = true) : Frame [.regs, .obs] [.blk 0x2, .reg R.obsDrop] s (s.mismatchCounted be w) ∧
    ((s.mismatchCounted be w).rd R.brmMismatch).toNat = satAdd 32 (s.rd R.brmMismatch).toNat 1 := by
  have h1 := frame_obsWindow s be w .mismatch
  have hw1 := h1.canon hw
  have hc : coverAll [.blk 0x2, .reg R.obsDrop] ⟨R.brmBenMismatch be.val, 0, 32⟩ = true :=
    cover_span 0x2000 0x3000 (by dsimp only [R.brmBenMismatch]; omega)
  refine ⟨Frame.after (.bump hc) <| Frame.after .bump h1.sub, ?_⟩
  rw [State.mismatchCounted, rd_bump_ne (by simp only [R.brmBenMismatch, R.brmMismatch]; omega), toNat_rd_bump hw1, h1.rd hw]

theorem mismatchOut_shows {chain : Nat} (h : s.obs.traced = none) : Frame [.brm, .regs, .obs, .recd] brmShown s (s.mismatchOut be chain) ∧
    ((s.mismatchOut be chain).dru be).win = none ∧ ((s.mismatchOut be chain).dru be).st = .selfTest ∧
    (∀ i, i ≠ be → (s.mismatchOut be chain).dru i = s.dru i) ∧ (s.mismatchOut be chain).brm.restarts = s.brm.restarts := by
  have h1 : Frame [.obs, .recd] [] ((s.setDru be { s.dru be with lastChain := BitVec.ofNat 14 chain }).leavePool be .selfTest)
      (s.mismatchOut be chain) := Frame.after .raise (deactivate_untraced (s := s.setDru be { s.dru be with lastChain := BitVec.ofNat 14 chain }) h).sub
  refine ⟨h1.sub.after <| Frame.after frame_leavePool_own.sub (frame_setDru ..).sub, ?_, ?_, fun i hi => ?_, ?_⟩
  · rw [dru_of_frame h1, dru_leavePool_self]
  · rw [dru_of_frame h1, dru_leavePool_self]
  · rw [dru_of_frame h1, dru_leavePool_ne hi, dru_setDru_ne _ hi]
  · rw [h1.part .brm (by decide), State.leavePool, frame_showBrm_own.part .brm (by decide)]
    rfl

/-- A drupelet whose window mismatched. -/
theorem mismatched_shows (hw : s.regsWf = true) (h : s.obs.traced = none) :
    Frame [.brm, .regs, .obs, .recd] [.blk 0x2, .reg R.obsDrop] s (s.mismatched be w) ∧
    ((s.mismatched be w).rd R.brmMismatch).toNat = satAdd 32 (s.rd R.brmMismatch).toNat 1 ∧
    ((s.mismatched be w).dru be).win = none ∧ ((s.mismatched be w).dru be).st = .selfTest ∧
    (∀ i, i ≠ be → (s.mismatched be w).dru i = s.dru i) ∧ (s.mismatched be w).brm.restarts = s.brm.restarts := by
  obtain ⟨h1, h2⟩ := mismatchCounted_shows (be := be) (w := w) hw
  have ht : (s.mismatchCounted be w).obs.traced = none := by
    rw [← h]
    exact traced_obsWindow
  obtain ⟨h3, h4, h5, h6, h7⟩ := mismatchOut_shows (be := be) (chain := w.oc.work.chain) ht
  refine ⟨h1.sub.trans h3.sub, ?_, h4, h5, fun i hi => (h6 i hi).trans (dru_of_frame h1 rfl i), h7.trans ?_⟩
  · rw [State.mismatched, h3.rd (h1.canon hw), h2]
  · rw [h1.part .brm (by decide)]

theorem frame_brambleFault {chain : Nat} : Frame [.regs, .recd] [.fld F.brmStatus_brambleFault] s (s.brambleFault be chain) := .after .raise .fset

theorem brambleFault_shows {chain : Nat} (hw : s.regsWf = true) : (s.brambleFault be chain).fbit F.brmStatus_brambleFault = true :=
  fbit_fset hw (by decide)

/-- A score forced to 0 by the Bramble: a PRIMARY with a READY partner drops CLAIM, and no other. -/
theorem forceZero_bramble (hw : s.regsWf = true) (hm : s.mod = .primary) : s.forceZero causeBramble =
    if s.bogie.pReady = true then (forcedBy s causeBramble).dropClaim 7 else forcedBy s causeBramble := by
  have hf := frame_forcedBy s causeBramble
  have hmf : (forcedBy s causeBramble).mod = .primary := (hf.mod hw).trans hm
  have hh : (forcedBy s causeBramble).pair.forced.has causeBramble = true := by
    rw [pair_forcedBy]
    exact NSet.has_add ..
  have hb : (forcedBy s causeBramble).bogie = s.bogie := hf.part .bogie (by decide)
  rw [forceZero_eq hw (by rw [hm]; decide), readyLeft, if_neg (by rw [hmf]; decide), State.pullForced]
  dsimp only
  by_cases hp : s.bogie.pReady = true
  · rw [if_pos ⟨hmf, by rw [hb, hp]⟩, if_pos hp, if_pos (by rw [hh]; rfl)]
  · rw [if_neg (fun e => hp (by rw [← hb, e.2])), if_neg hp, if_neg fun e => by cases hmf.symm.trans e.1]

/-- What a Bramble fault leaves of the drupelets, of memory and of its own registers. -/
theorem faulted_shows {chain : Nat} (hw : s.regsWf = true) {v : State} (hv : (if (s.brambleFault be chain).mod = .primary then
      (s.brambleFault be chain).forceZero causeBramble else s.brambleFault be chain) = v) :
    WinsEnd s v ∧ v.rd R.brmMismatch = s.rd R.brmMismatch ∧ v.fbit F.brmStatus_brambleFault = true ∧
    (¬ (s.mod = .primary ∧ s.bogie.pReady = true) → v.mem = s.mem ∧ v.brm = s.brm) ∧
    (s.mod = .primary ∧ s.bogie.pReady = true → v.fbit F.pairStatus_claim = false) := by
  have h1 := frame_brambleFault (s := s) (be := be) (chain := chain)
  have hw1 := h1.canon hw
  have hb := brambleFault_shows (be := be) (chain := chain) hw
  have hm1 := h1.mod hw
  have hp1 : (s.brambleFault be chain).bogie = s.bogie := h1.part .bogie (by decide)
  generalize s.brambleFault be chain = u at *
  have hf := frame_forcedBy u causeBramble
  by_cases hm : u.mod = .primary
  · rw [if_pos hm, forceZero_bramble hw1 hm, hp1] at hv
    rw [← hm1]
    by_cases hp : s.bogie.pReady = true
    · rw [if_pos hp] at hv
      subst hv
      have hd := frame_dropClaim (forcedBy u causeBramble) 7
      have hw2 := hf.canon hw1
      refine ⟨.after (winsEnd_dropClaim _) (.of_frame (h1.sub.trans hf.sub : Frame [.regs, .recd, .pair] (.fld F.brmStatus_brambleFault :: showForcedPlaces) s _)), ?_, ?_,
        fun e => absurd ⟨hm, hp⟩ e, fun _ => claim_dropClaim hw2⟩
      · rw [hd.rd hw2, hf.rd hw1, h1.rd hw]
      · rw [hd.fbit hw2, hf.fbit hw1, hb]
    · rw [if_neg hp] at hv
      subst hv
      refine ⟨.of_frame (h1.sub.trans hf.sub : Frame [.regs, .recd, .pair] (.fld F.brmStatus_brambleFault :: showForcedPlaces) s _), ?_, ?_, fun _ => ⟨?_, ?_⟩,
        fun e => absurd e.2 hp⟩
      · rw [hf.rd hw1, h1.rd hw]
      · rw [hf.fbit hw1, hb]
      · rw [hf.part .mem (by decide), h1.part .mem (by decide)]
      · rw [hf.part .brm (by decide), h1.part .brm (by decide)]
  · rw [if_neg hm] at hv
    subst hv
    exact ⟨.of_frame h1, h1.rd hw, hb, fun _ => ⟨h1.part .mem (by decide), h1.part .brm (by decide)⟩,
      fun e => absurd (hm1.trans e.1) hm⟩

/-- What the mismatch of a window of the foreground leaves. -/
theorem mismatch_shows (hw : s.regsWf = true) (h : s.obs.traced = none) :
    let passes := s.mod = .primary ∧ s.bogie.pReady = true ∧ 3 ≤ w.oc.mismatches
    ((s.mismatch be w).dru be).win = none ∧ ((s.mismatch be w).dru be).st = .selfTest ∧
    ((s.mismatch be w).rd R.brmMismatch).toNat = satAdd 32 (s.rd R.brmMismatch).toNat 1 ∧
    (¬ passes → (s.mismatch be w).mem = s.mem ∧ ∀ i, i ≠ be → (s.mismatch be w).dru i = s.dru i) ∧
    (w.oc.mismatches < 3 → (s.mismatch be w).brm.restarts = s.brm.restarts ++ [(be.val / 8, w.again be)]) ∧
    (3 ≤ w.oc.mismatches → (s.mismatch be w).fbit F.brmStatus_brambleFault = true) ∧
    (3 ≤ w.oc.mismatches → ¬ passes → (s.mismatch be w).brm.restarts = s.brm.restarts) ∧
    (passes → (s.mismatch be w).fbit F.pairStatus_claim = false) := by
  dsimp only
  obtain ⟨hf, hn, hwin, hst, ho, hr⟩ := mismatched_shows (be := be) (w := w) hw h
  have hm := hf.mod hw
  have hb : (s.mismatched be w).bogie = s.bogie := hf.part .bogie (by decide)
  have hmem : (s.mismatched be w).mem = s.mem := hf.part .mem (by decide)
  have he := mismatch_eq (s := s) (be := be) (w := w)
  have hw1 := hf.canon hw
  generalize s.mismatched be w = u at *
  by_cases hk : 3 ≤ w.oc.mismatches
  · rw [if_pos (Nat.succ_le_succ hk)] at he
    obtain ⟨g1, g2, g3, g4, g5⟩ := faulted_shows (be := be) (chain := w.oc.work.chain) hw1 he.symm
    rw [hm, hb] at g4 g5
    refine ⟨g1.win be hwin, (g1.st be).trans hst, by rw [g2, hn], fun hp => ?_, fun e => absurd hk (Nat.not_le.mpr e), fun _ => g3, fun _ hp => ?_,
      fun hp => g5 ⟨hp.1, hp.2.1⟩⟩
    · obtain ⟨e1, e2⟩ := g4 fun e => hp ⟨e.1, e.2, hk⟩
      exact ⟨e1.trans hmem, fun i hi => (dru_of_brm e2).trans (ho i hi)⟩
    · rw [(g4 fun e => hp ⟨e.1, e.2, hk⟩).2, hr]
  · rw [if_neg (fun e => hk (Nat.le_of_succ_le_succ e))] at he
    rw [he]
    refine ⟨hwin, hst, hn, fun _ => ⟨hmem, ho⟩, fun _ => ?_, fun e => absurd e hk, fun e => absurd e hk, fun e => absurd e.2.2 hk⟩
    exact congrArg (· ++ [(be.val / 8, w.again be)]) hr

/-- A window that its limit ends where the cores differ. -/
theorem windowEnd_differs (hr : w.rep = none) (hu : w.upset ≠ 0) : s.windowEnd be w false = (s.spend w).mismatch be w := by
  unfold State.windowEnd State.differ
  rw [traced_of_rep hr, hr]
  dsimp only
  rw [if_neg Bool.false_ne_true, if_pos hu]

/-- Settles O16: work found leaves its place and starts, the limits end a window, and a window on which the cores differ is counted,
discarded and kept for another drupelet. -/
theorem windows : Obligations.Windows := by
  refine ⟨fun be upset upsetH s hw h1 h2 h3 h4 h5 => ?take, fun be s w hwin hp hr hu => ?limits, fun be s w hw hwin hp hr hu ht => ?differ⟩
  case take =>
    have h : Idle be s := ⟨h1, h2, h3, h4, h5⟩
    have hleave (f : Found) := (frame_leaves s be f).canon hw
    dsimp only
    refine ⟨fun hf hm => ?none, fun k oc hf => ⟨(findWork_found hf).1 k oc rfl, ?restart⟩, fun oc hf => ?yielded, fun x d hf ho hd => ?own,
      fun x d hf ho hd => ?overflow, fun k x d hf ho hd => ?steal⟩
    case none => exact (h.exec hf).trans (congrArg Host.Outcome.next (takeAudit_primary hm))
    case restart =>
      obtain ⟨t, rfl, h1, h2, h3, h4, h5⟩ := starts_open (be := be) (f := .restart k oc) (oc := oc) (upset := upset) (upsetH := upsetH)
        (by rw [leaves_restart_brm (s := s)])
      refine ⟨_, h.exec hf, h1, ?_, ?_, h4, h5⟩
      · rw [State.takes, h2, leaves_restart_brm]
      · rw [State.takes, h3.rd (hleave _), leaves_restart hw]
    case yielded =>
      obtain ⟨t, rfl, h1, h2, h3, h4, h5⟩ := starts_open (be := be) (f := .yielded oc) (oc := oc) (upset := upset) (upsetH := upsetH) rfl
      refine ⟨_, h.exec hf, h1, ?_, h3.keepsRegs (hleave _), h4, h5⟩
      rw [State.takes, h2]
      rfl
    case own =>
      obtain ⟨t, he, h1, h2, h3, h4, h5, h6⟩ := starts_chain (be := be) (f := .own x) (upset := upset) (upsetH := upsetH) hw hd
      refine ⟨t, ?_, ⟨_, h1, startCore_shows x d⟩, ?_, h4.keepsRegs (hleave _), h5, fun k hk => ?_⟩
      · rw [h.exec hf, State.takes, if_neg (by omega), he]
      · rw [h2, State.leaves, dru_setDru_self, slotOf_chain hd]
      · rw [h6 k hk, State.leaves, dru_setDru_ne _ hk]
    case overflow =>
      obtain ⟨t, he, h1, h2, h3, h4, h5, h6⟩ := starts_chain (be := be) (f := .overflow x) (upset := upset) (upsetH := upsetH) hw hd
      have hn : ((s.leaves be (.overflow x)).rd R.brmStealX).toNat = satAdd 32 (s.rd R.brmStealX).toNat 1 := toNat_rd_bump hw
      have hl : Frame [.regs, .brm] [.reg R.brmStealX] s (s.leaves be (.overflow x)) := Frame.after .bump .brm
      refine ⟨t, ?_, ⟨_, h1, startCore_shows x d⟩, ?_, ?_, ?_, h5, fun k hk => ?_⟩
      · rw [h.exec hf, State.takes, if_neg (by omega), he]
      · rw [h3, ← slotOf_chain hd]
        rfl
      · rw [h4.rd (hleave _), hn]
      · exact (hl.sub.trans h4.sub : Frame [.regs, .clk, .brm, .obs] [.reg R.brmStealX, .reg R.wfStatus] s t).keepsRegs hw
      · rw [h6 k hk]
        rfl
    case steal =>
      have hk : k ≠ be := (findWork_found hf).2 k x rfl
      obtain ⟨t, he, h1, h2, h3, h4, h5, h6⟩ := starts_chain (be := be) (f := .steal k x) (upset := upset) (upsetH := upsetH) hw hd
      obtain ⟨g1, g2, g3⟩ := leaves_steal (be := be) (i := k) (x := x) hw rfl
      have hap : apartAll [.reg R.wfStatus] ⟨if k.val / 8 = be.val / 8 then R.brmStealIn else R.brmStealX, 0, 32⟩ = true := by split <;> decide
      refine ⟨t, ?_, ⟨_, h1, startCore_shows x d⟩, ?_, ?_, h5, fun j hj hjk => ?_⟩
      · rw [h.exec hf, State.takes, if_neg (by omega), he]
      · rw [h6 k hk, g2, slotOf_chain hd]
      · rw [h4.rd (hleave _) hap, g1]
      · rw [h6 j hj, g3 j hjk]
  case limits =>
    exact ⟨⟨_, exec_windowTimeLimit_runs hwin hp, limit_agrees hr hu⟩, fun hs => ⟨_, exec_windowStoreLimit_runs hwin hp hs, limit_agrees hr hu⟩,
      fun hs => exec_windowStoreLimit_rests hwin hs⟩
  case differ =>
    have hd := windowEnd_differs (s := s) (be := be) hr hu
    have hs := mismatch_shows (s := s.spend w) (be := be) (w := w) (by rw [spend_foreground hr]; exact hw) (by rw [spend_foreground hr]; exact ht)
    rw [← hd] at hs
    dsimp only at hs ⊢
    have hsp := spend_foreground (s := s) hr
    rw [show (s.spend w).mod = s.mod by rw [hsp]; rfl, show (s.spend w).bogie = s.bogie by rw [hsp], show (s.spend w).mem = s.mem by rw [hsp],
      show (s.spend w).rd R.brmMismatch = s.rd R.brmMismatch by rw [hsp]; rfl, show (s.spend w).brm.restarts = s.brm.restarts by rw [hsp]] at hs
    have hdr : ∀ i, (s.spend w).dru i = s.dru i := fun i => by rw [hsp]; rfl
    simp only [hdr] at hs
    exact ⟨⟨_, exec_windowTimeLimit_runs hwin hp, hs⟩, fun h => ⟨_, exec_windowStoreLimit_runs hwin hp h, hs⟩⟩

end Sys2Proof.Machine
end

section
/-! The life of a drupelet: self-tests and their verdicts, retirement and its end, the clocks of the clusters, and the audit. -/

namespace Sys2Proof.Machine

variable {s t u : State} {be i : Fin 32} {k : Nat}

/-! The masks that show the drupelets (R101). -/

/-- The mask of the numbers below `n` of a set. -/
def bitSum (q : Nat → Bool) (n : Nat) : Nat := (List.range n).foldl (fun m k => if q k then m + 2 ^ k else m) 0

theorem bitSum_succ (q : Nat → Bool) (n : Nat) : bitSum q (n + 1) = if q n then bitSum q n + 2 ^ n else bitSum q n := by
  rw [bitSum, List.range_succ, List.foldl_append]
  rfl

theorem bitSum_shows (q : Nat → Bool) (n : Nat) : bitSum q n < 2 ^ n ∧ ∀ j, j < n → (bitSum q n).testBit j = q j := by
  induction n with
  | zero => exact ⟨Nat.one_pos, fun j hj => absurd hj (Nat.not_lt_zero j)⟩
  | succ n ih =>
    obtain ⟨hl, hb⟩ := ih
    rw [bitSum_succ, Nat.pow_succ]
    refine ⟨by split <;> omega, fun j hj => ?_⟩
    rcases Nat.lt_succ_iff_lt_or_eq.mp hj with h | rfl
    · split
      · rw [Nat.add_comm, Nat.testBit_two_pow_add_gt h, hb j h]
      · exact hb j h
    · split
      next hq => rw [Nat.add_comm, Nat.testBit_two_pow_add_eq, Nat.testBit_lt_two_pow hl, hq]; rfl
      next hq => rw [Nat.testBit_lt_two_pow hl, eq_false_of_ne_true hq]

/-- The drupelets with their numbers. -/
def State.druList (s : State) : List (Nat × Drupelet) := (List.finRange 32).map (fun i => (i.val, s.dru i))

/-- The mask of the drupelets of a kind. -/
def State.druMask (s : State) (p : Drupelet → Bool) : Nat := s.druList.foldl (fun m e => if p e.2 then m + 2 ^ e.1 else m) 0

/-- How many drupelets are of a kind. -/
def State.druCount (s : State) (p : Drupelet → Bool) : Nat := (s.druList.filter (fun e => p e.2)).length

/-- Whether a drupelet is at its self-test, or waits to return from it. -/
def Drupelet.testing (d : Drupelet) : Bool := d.st == .selfTest || d.st == .pending

/-- The bits of a mask of drupelets. -/
theorem getLsbD_druMask (p : Drupelet → Bool) (i : Fin 32) : (BitVec.ofNat 32 (s.druMask p)).getLsbD i.val = p (s.dru i) := by
  have he : s.druMask p = bitSum (fun k => p (s.dru (Fin.ofNat 32 k))) 32 := by
    rw [State.druMask, State.druList, bitSum, ← List.map_coe_finRange_eq_range, List.foldl_map, List.foldl_map]
    refine congrArg (fun f => List.foldl f 0 (List.finRange 32)) (funext fun m => funext fun j => ?_)
    rw [Fin.ofNat_val_eq_self]
  rw [he, BitVec.getLsbD_ofNat, (bitSum_shows _ 32).2 i.val i.isLt, Fin.ofNat_val_eq_self, decide_eq_true i.isLt, Bool.true_and]

/-- The masks, the counts and the flags written. -/
def State.masksShown (s : State) (avail test retired reserve : W32) (used off busy : Bool) : State :=
  ((((((s.wr R.brmAvailMask avail).wr R.brmSelftestMask test).wr R.brmRetiredMask retired).wr R.brmReserve reserve).fsetb
    F.brmStatus_reserveUsed used).fsetb F.brmStatus_lockstepOff off).fsetb F.brmStatus_selftest busy

theorem masksShown_shows {avail test retired reserve : W32} {used off busy : Bool} (hw : s.regsWf = true) :
    (s.masksShown avail test retired reserve used off busy).rd R.brmAvailMask = avail ∧
    (s.masksShown avail test retired reserve used off busy).rd R.brmSelftestMask = test ∧
    (s.masksShown avail test retired reserve used off busy).rd R.brmRetiredMask = retired ∧
    (s.masksShown avail test retired reserve used off busy).fbit F.brmStatus_reserveUsed = used := by
  have hb : (s.wr R.brmAvailMask avail).regsWf = true := regsWf_wr hw
  have hc : ((s.wr R.brmAvailMask avail).wr R.brmSelftestMask test).regsWf = true := regsWf_wr hb
  have hd : (((s.wr R.brmAvailMask avail).wr R.brmSelftestMask test).wr R.brmRetiredMask retired).regsWf = true := regsWf_wr hc
  have he := regsWf_wr (off := R.brmReserve) (v := reserve) hd
  have h5 : Frame [.regs] [.fld F.brmStatus_lockstepOff, .fld F.brmStatus_selftest] (((((s.wr R.brmAvailMask avail).wr R.brmSelftestMask test).wr
      R.brmRetiredMask retired).wr R.brmReserve reserve).fsetb F.brmStatus_reserveUsed used) (s.masksShown avail test retired reserve used off busy) :=
    Frame.after .fsetb .fsetb
  have h4 : Frame [.regs] [.reg R.brmReserve, .fld F.brmStatus_reserveUsed, .fld F.brmStatus_lockstepOff, .fld F.brmStatus_selftest]
      (((s.wr R.brmAvailMask avail).wr R.brmSelftestMask test).wr R.brmRetiredMask retired) (s.masksShown avail test retired reserve used off busy) :=
    Frame.after h5.sub <| Frame.after .fsetb .wr
  have h3 : Frame [.regs] [.reg R.brmRetiredMask, .reg R.brmReserve, .fld F.brmStatus_reserveUsed, .fld F.brmStatus_lockstepOff,
      .fld F.brmStatus_selftest] ((s.wr R.brmAvailMask avail).wr R.brmSelftestMask test) (s.masksShown avail test retired reserve used off busy) :=
    Frame.after h4.sub .wr
  have h2 : Frame [.regs] [.reg R.brmSelftestMask, .reg R.brmRetiredMask, .reg R.brmReserve, .fld F.brmStatus_reserveUsed,
      .fld F.brmStatus_lockstepOff, .fld F.brmStatus_selftest] (s.wr R.brmAvailMask avail) (s.masksShown avail test retired reserve used off busy) :=
    Frame.after h3.sub .wr
  exact ⟨by rw [h2.rd hb, rd_wr_self hw], by rw [h3.rd hc, rd_wr_self hb], by rw [h4.rd hd, rd_wr_self hc],
    by rw [h5.fbit (regsWf_fsetb he), fbit_fsetb he (by decide) rfl]⟩

/-- The state of each drupelet written. -/
def State.statesShown (s : State) : State :=
  s.druList.foldl (fun s e => s.wr (R.brmBenState e.1) (BitVec.ofNat 32 (dstCode e.2.st + e.2.verdict.toNat * 16 + bit e.2.verdictCore * 64
    + min 3 (recent s.time.tb3 e.2.transients).length * 256 + e.2.lastChain.toNat * 65536))) s

theorem frame_statesShown : Frame [.regs] brmShown s s.statesShown := by
  refine Frame.foldl (fun u x hx => .wr (cover_step List.mem_cons_self (Rect.has_iff.mpr ?_) rfl rfl)) s
  obtain ⟨j, -, rfl⟩ := List.mem_map.mp hx
  dsimp only [R.brmBenState]
  omega

theorem showBrm_eq : s.showBrm = s.statesShown.masksShown (BitVec.ofNat 32 (s.druMask (·.st == .active))) (BitVec.ofNat 32 (s.druMask Drupelet.testing))
    (BitVec.ofNat 32 (s.druMask (·.st == .retired))) (BitVec.ofNat 32 (s.druCount (·.st == .active) + s.druCount Drupelet.testing * 2 ^ 8
      + s.druCount (·.st == .retired) * 2 ^ 16 + s.druCount (·.st == .clusterDown) * 2 ^ 24))
    (s.druList.any (fun e => e.2.st == .retired)) (s.druList.any (fun e => e.2.st == .traced)) (s.druList.any (fun e => e.2.testing)) := rfl

/-- What the registers show of the drupelets. -/
theorem showBrm_shows (hw : s.regsWf = true) (i : Fin 32) : (s.showBrm.rd R.brmAvailMask).getLsbD i.val = ((s.dru i).st == .active) ∧
    (s.showBrm.rd R.brmSelftestMask).getLsbD i.val = (s.dru i).testing ∧
    (s.showBrm.rd R.brmRetiredMask).getLsbD i.val = ((s.dru i).st == .retired) ∧
    ((s.dru i).st = .retired → s.showBrm.fbit F.brmStatus_reserveUsed = true) := by
  rw [showBrm_eq]
  obtain ⟨h1, h2, h3, h4⟩ := masksShown_shows (frame_statesShown.canon hw)
  rw [h1, h2, h3, h4]
  refine ⟨getLsbD_druMask _ i, getLsbD_druMask _ i, getLsbD_druMask _ i, fun hr => ?_⟩
  exact List.any_eq_true.mpr ⟨(i.val, s.dru i), List.mem_map.mpr ⟨i, List.mem_finRange i, rfl⟩, beq_iff_eq.mpr hr⟩

/-! Retirement (R94, R97). -/

/-- A drupelet that leaves the pool: what stands of the Bramble. -/
theorem leavePool_brm {st : DState} : (s.leavePool be st).brm = { s.brm with
    be := (s.leavePool be st).brm.be, overflow := (s.leavePool be st).brm.overflow } := by
  rw [State.leavePool, frame_showBrm_own.part .brm (by decide)]
  rfl

/-- The registers and counters that a retirement reaches. -/
abbrev retirePlaces : List Rect := .fld F.scanStatus_evqFull :: .reg R.scanEvqDepth :: .reg R.scanEvqOvf :: brmShown

/-- The record and the event of a retirement. -/
def State.retireTold (s : State) (be : Fin 32) (v : Nat) (core : Bool) (chain : Nat) : State :=
  let s := s.raise hapVerdict be.val
    [BitVec.ofNat 64 v, BitVec.ofNat 64 (bit core), BitVec.ofNat 64 chain, s.rd64 R.scanCycleLo]
  s.event 0x0038 2 be.val [BitVec.ofNat 64 be.val, BitVec.ofNat 64 v, BitVec.ofNat 64 s.actives.length]

theorem frame_retireTold {v chain : Nat} {core : Bool} : Frame [.regs, .scan, .recd] [.fld F.scanStatus_evqFull, .reg R.scanEvqDepth,
    .reg R.scanEvqOvf] s (s.retireTold be v core chain) := Frame.after (frame_event ..) .raise

/-- A retired drupelet with its verdict. -/
def Drupelet.judged (d : Drupelet) (v : Nat) (core : Bool) : Drupelet :=
  { d with verdict := BitVec.ofNat 2 v, verdictCore := core, unretire := false, wasTraced := false }

theorem retire_eq {v chain : Nat} {core : Bool} : s.retire be v core chain =
    (((s.deactivate be .retired).setDru be (((s.deactivate be .retired).dru be).judged v core)).showBrm).retireTold be v core chain := rfl

/-- What a retirement comes to. -/
structure Retired (be : Fin 32) (v : Nat) (core : Bool) (s t : State) : Prop where
  st : (t.dru be).st = .retired
  verdict : (t.dru be).verdict = BitVec.ofNat 2 v
  core : (t.dru be).verdictCore = core
  others : ∀ i, i ≠ be → t.dru i = s.dru i
  used : t.fbit F.brmStatus_reserveUsed = true
  mask : (t.rd R.brmRetiredMask).getLsbD be.val = true
  avail : (t.rd R.brmAvailMask).getLsbD be.val = false
  frame : Frame [.regs, .brm, .obs, .scan, .recd] retirePlaces s t
  brm : t.brm = { s.brm with be := t.brm.be, overflow := t.brm.overflow }

theorem retire_retires {v chain : Nat} {core : Bool} (hw : s.regsWf = true) (h : s.obs.traced = none) :
    Retired be v core s (s.retire be v core chain) := by
  have h1 : Frame [.regs, .brm] brmShown s (s.leavePool be .retired) := frame_leavePool_own
  have h2 := deactivate_untraced (be := be) (st := .retired) h
  have hd : ∀ i, (s.deactivate be .retired).dru i = (s.leavePool be .retired).dru i := dru_of_frame h2 rfl
  have hb : (s.deactivate be .retired).brm = (s.leavePool be .retired).brm := h2.part .brm (by decide)
  have hst : ((s.deactivate be .retired).dru be).st = .retired := by rw [hd, dru_leavePool_self]
  have ho : ∀ i, i ≠ be → (s.deactivate be .retired).dru i = s.dru i := fun i hi => by rw [hd, dru_leavePool_ne hi]
  have hbr := leavePool_brm (s := s) (be := be) (st := .retired)
  rw [← hb] at hbr
  have h12 : Frame [.regs, .brm, .obs] brmShown s (s.deactivate be .retired) := h1.sub.trans h2.sub
  rw [retire_eq]
  generalize s.deactivate be .retired = u at *
  have hw1 := h12.canon hw
  have hw2 : (u.setDru be ((u.dru be).judged v core)).regsWf = true := hw1
  have hself : (u.setDru be ((u.dru be).judged v core)).dru be = (u.dru be).judged v core := dru_setDru_self _
  have hsh := showBrm_shows hw2 be
  have h3 := frame_showBrm_own (s := u.setDru be ((u.dru be).judged v core))
  have h4 := frame_retireTold (s := (u.setDru be ((u.dru be).judged v core)).showBrm) (be := be) (v := v) (chain := chain) (core := core)
  have hw3 := h3.canon hw2
  have hdru : ∀ i, (((u.setDru be ((u.dru be).judged v core)).showBrm).retireTold be v core chain).dru i = (u.setDru be ((u.dru be).judged v core)).dru i :=
    fun i => (dru_of_frame h4 rfl i).trans (dru_of_frame h3 rfl i)
  obtain ⟨g1, -, g3, g4⟩ := hsh
  rw [hself] at g1 g3 g4
  refine ⟨by rw [hdru, hself]; exact hst, by rw [hdru, hself]; rfl, by rw [hdru, hself]; rfl, fun i hi => ?_, ?_, ?_, ?_, ?_, ?_⟩
  · rw [hdru, dru_setDru_ne _ hi, ho i hi]
  · rw [h4.fbit hw3]
    exact g4 hst
  · rw [h4.rd hw3, g3]
    exact beq_iff_eq.mpr hst
  · rw [h4.rd hw3, g1]
    exact beq_eq_false_iff_ne.mpr (by rw [show ((u.dru be).judged v core).st = .retired from hst]; decide)
  · exact h12.sub.trans <| Frame.after h4.sub <| Frame.after h3.sub (frame_setDru ..).sub
  · rw [h4.part .brm (by decide), h3.part .brm (by decide)]
    exact congrArg (fun b : Brm => { b with be := (u.setDru be ((u.dru be).judged v core)).brm.be }) hbr

/-! The verdict of a self-test (R94). -/

/-- The record of a verdict without a retirement. -/
def State.verdictTold (s : State) (be : Fin 32) (v : W64) (chain : Nat) : State :=
  (s.raise hapVerdict be.val [v, 0, BitVec.ofNat 64 chain, s.rd64 R.scanCycleLo]).showBrm

theorem frame_verdictTold {v : W64} {chain : Nat} : Frame [.regs, .recd] brmShown s (s.verdictTold be v chain) :=
  Frame.after frame_showBrm_own.sub .raise

/-- The transients of the last 24 h with the one that ends now. -/
def State.transientsNow (s : State) (be : Fin 32) : List Nat := s.time.tb3 :: recent s.time.tb3 (s.dru be).transients

/-- Whether the chain that the drupelet ran last had another clean mismatch in the last 24 h. -/
def State.mismatchedAgain (s : State) (be : Fin 32) : Bool :=
  (s.dru be).cleanMism.any (fun e => e.1 == (s.dru be).lastChain.toNat && decide (s.time.tb3 < e.2 + 86400))

theorem mismatchedAgain_iff : s.mismatchedAgain be = true ↔
    ∃ e ∈ (s.dru be).cleanMism, e.1 = (s.dru be).lastChain.toNat ∧ s.time.tb3 < e.2 + 86400 := by
  simp only [State.mismatchedAgain, List.any_eq_true, Bool.and_eq_true, beq_iff_eq, decide_eq_true_eq]

/-- A clean test, noted. -/
def State.cleanNoted (s : State) (be : Fin 32) : State :=
  s.setDru be { s.dru be with transients := s.transientsNow be, cleanMism := ((s.dru be).lastChain.toNat, s.time.tb3) :: (s.dru be).cleanMism }

/-- A drupelet that a transient left waiting to return. -/
def State.transientCounted (s : State) (be : Fin 32) : State :=
  (s.setDru be { s.dru be with st := .pending, verdict := 1 }).bump R.brmTransients

theorem verdict_other {v : TestVerdict} (h : (s.dru be).st ≠ .selfTest) : s.drupeletVerdict be v = s := if_pos h

theorem verdict_fails {v : TestVerdict} (h : (s.dru be).st = .selfTest) (hv : v ≠ .bothPass) :
    s.drupeletVerdict be v = s.retire be 2 (decide (v = .checkerFails)) (s.dru be).lastChain.toNat := by
  unfold State.drupeletVerdict
  dsimp only
  rw [if_neg (not_not.mpr h)]
  cases v with
  | bothPass => exact absurd rfl hv
  | leadingFails => rfl
  | checkerFails => rfl

theorem verdict_returns (h : (s.dru be).st = .selfTest) (hu : (s.dru be).unretire = true ∨ (s.dru be).wasTraced = true) :
    s.drupeletVerdict be .bothPass = (s.setDru be { s.dru be with st := .pending }).verdictTold be 0 (s.dru be).lastChain.toNat := by
  unfold State.drupeletVerdict
  dsimp only
  rw [if_neg (not_not.mpr h), if_pos (Bool.or_eq_true_iff.mpr hu)]
  rfl

theorem verdict_passes (h : (s.dru be).st = .selfTest) (h1 : (s.dru be).unretire = false) (h2 : (s.dru be).wasTraced = false) :
    s.drupeletVerdict be .bothPass = if (s.transientsNow be).length ≥ 3 ∨ s.mismatchedAgain be = true then
      (s.cleanNoted be).retire be 3 false (s.dru be).lastChain.toNat
      else ((s.cleanNoted be).transientCounted be).verdictTold be 1 (s.dru be).lastChain.toNat := by
  unfold State.drupeletVerdict
  dsimp only
  rw [if_neg (not_not.mpr h), if_neg (by rw [h1, h2]; decide)]
  rfl

theorem selftest_clauses (be : Fin 32) (v : TestVerdict) (s : State) (hw : s.regsWf = true) :
      let d := s.dru be
      let others (t : State) : Prop := ∀ i, i ≠ be → t.dru i = s.dru i
      let ends24 := (recent s.time.tb3 d.transients).length
      let again := ∃ e ∈ d.cleanMism, e.1 = d.lastChain.toNat ∧ s.time.tb3 < e.2 + 86400
      (d.st ≠ .selfTest → exec (.drupeletSelftestVerdict be v) s = .next s) ∧
      (d.st = .selfTest → s.obs.traced = none → v ≠ .bothPass →
        ∃ t, exec (.drupeletSelftestVerdict be v) s = .next t ∧ (t.dru be).st = .retired ∧ (t.dru be).verdict = 2 ∧
          (t.dru be).verdictCore = decide (v = .checkerFails) ∧ t.fbit F.brmStatus_reserveUsed = true ∧
          (t.rd R.brmRetiredMask).getLsbD be.val = true ∧ (t.rd R.brmAvailMask).getLsbD be.val = false ∧
          t.mem = s.mem ∧ others t) ∧
      (d.st = .selfTest → d.unretire = true ∨ d.wasTraced = true → v = .bothPass →
        ∃ t, exec (.drupeletSelftestVerdict be v) s = .next t ∧ t.dru be = { d with st := .pending } ∧
          (t.rd R.brmSelftestMask).getLsbD be.val = true ∧ t = { s with brm := t.brm, regs := t.regs, recd := t.recd } ∧
          t.recd.raised.length = s.recd.raised.length + 1 ∧ others t) ∧
      (d.st = .selfTest → d.unretire = false → d.wasTraced = false → v = .bothPass → ends24 < 2 → ¬ again →
        ∃ t, exec (.drupeletSelftestVerdict be v) s = .next t ∧ (t.dru be).st = .pending ∧ (t.dru be).verdict = 1 ∧
          (t.rd R.brmTransients).toNat = satAdd 32 (s.rd R.brmTransients).toNat 1 ∧ t.mem = s.mem ∧ others t) ∧
      (d.st = .selfTest → d.unretire = false → d.wasTraced = false → v = .bothPass → s.obs.traced = none →
        (2 ≤ ends24 ∨ again) →
        ∃ t, exec (.drupeletSelftestVerdict be v) s = .next t ∧ (t.dru be).st = .retired ∧ (t.dru be).verdict = 3 ∧
          t.mem = s.mem ∧ others t) := by
  dsimp only
  have hex : exec (.drupeletSelftestVerdict be v) s = .next (s.drupeletVerdict be v) := rfl
  have hl : (s.transientsNow be).length = (recent s.time.tb3 (s.dru be).transients).length + 1 := rfl
  rw [hex]
  refine ⟨fun h => congrArg Host.Outcome.next (verdict_other h), fun h ht hv => ⟨_, rfl, ?fails⟩, fun h hu hv => ⟨_, rfl, ?returns⟩,
    fun h h1 h2 hv hn ha => ⟨_, rfl, ?transient⟩, fun h h1 h2 hv ht hs => ⟨_, rfl, ?suspect⟩⟩
  case fails =>
    rw [verdict_fails h hv]
    obtain ⟨g1, g2, g3, g4, g5, g6, g7, g8, -⟩ := retire_retires (be := be) (v := 2) (chain := (s.dru be).lastChain.toNat)
      (core := decide (v = .checkerFails)) hw ht
    exact ⟨g1, g2, g3, g5, g6, g7, g8.part .mem (by decide), g4⟩
  case returns =>
    subst hv
    rw [verdict_returns h hu]
    have hf := frame_verdictTold (s := s.setDru be { s.dru be with st := .pending }) (be := be) (v := 0) (chain := (s.dru be).lastChain.toNat)
    have hd := dru_of_frame hf
    have hsh := (showBrm_shows (s := (s.setDru be { s.dru be with st := .pending }).raise hapVerdict be.val [0, 0,
      BitVec.ofNat 64 (s.dru be).lastChain.toNat, (s.setDru be { s.dru be with st := .pending }).rd64 R.scanCycleLo]) hw be).2.1
    refine ⟨by rw [hd, dru_setDru_self], ?_, ?_, ?_, fun i hi => by rw [hd, dru_setDru_ne _ hi]⟩
    · refine hsh.trans ?_
      have he : ((s.setDru be { s.dru be with st := .pending }).raise hapVerdict be.val [0, 0,
        BitVec.ofNat 64 (s.dru be).lastChain.toNat, (s.setDru be { s.dru be with st := .pending }).rd64 R.scanCycleLo]).dru be =
        { s.dru be with st := .pending } := dru_setDru_self _
      rw [he]
      rfl
    · exact (Frame.trans (frame_setDru ..).sub hf.sub : Frame [.brm, .regs, .recd] brmShown s _).eq_patch
    · rw [State.verdictTold, frame_showBrm_own.part .recd (by decide)]
      exact List.length_append
  case transient =>
    subst hv
    have hc : ¬ ((s.transientsNow be).length ≥ 3 ∨ s.mismatchedAgain be = true) := not_or.mpr ⟨by omega, fun e => ha (mismatchedAgain_iff.mp e)⟩
    rw [verdict_passes h h1 h2, if_neg hc]
    have hf := frame_verdictTold (s := (s.cleanNoted be).transientCounted be) (be := be) (v := 1) (chain := (s.dru be).lastChain.toNat)
    have hd := dru_of_frame hf
    have hs : ((s.cleanNoted be).transientCounted be).dru be = { (s.cleanNoted be).dru be with st := .pending, verdict := 1 } := dru_setDru_self _
    have ho : ∀ i, i ≠ be → ((s.cleanNoted be).transientCounted be).dru i = s.dru i := fun i hi =>
      (dru_setDru_ne _ hi : ((s.cleanNoted be).setDru be _).dru i = _).trans (dru_setDru_ne _ hi)
    have hw1 : ((s.cleanNoted be).setDru be { (s.cleanNoted be).dru be with st := .pending, verdict := 1 }).regsWf = true := hw
    refine ⟨by rw [hd, hs], by rw [hd, hs], ?_, ?_, fun i hi => by rw [hd, ho i hi]⟩
    · rw [hf.rd (regsWf_bump hw1)]
      exact toNat_rd_bump hw1
    · exact hf.part .mem (by decide)
  case suspect =>
    subst hv
    have hc : (s.transientsNow be).length ≥ 3 ∨ s.mismatchedAgain be = true := hs.imp (by omega) mismatchedAgain_iff.mpr
    rw [verdict_passes h h1 h2, if_pos hc]
    obtain ⟨g1, g2, -, g4, -, -, -, g8, -⟩ := retire_retires (s := s.cleanNoted be) (be := be) (v := 3) (chain := (s.dru be).lastChain.toNat)
      (core := false) hw ht
    exact ⟨g1, g2, g8.part .mem (by decide), fun i hi => (g4 i hi).trans (dru_setDru_ne _ hi)⟩

/-! The end of a retirement (R103). -/

/-- A retired drupelet at its self-test again. -/
def State.unretired (s : State) (be : Fin 32) : State :=
  (s.setDru be { s.dru be with st := .selfTest, unretire := true, transients := [], cleanMism := [], lines := [] }).showBrm

/-- The drupelet that a write of BRM_UNRETIRE names. -/
def unretireWhom (v : W32) : Fin 32 := Fin.ofNat 32 (v.toNat % 32)

theorem brmUnretire_eq (v : W32) : s.brmUnretire v =
    if s.mod = .service ∧ v.toNat / 65536 = 0x7A11 ∧ (s.dru (unretireWhom v)).st = .retired then s.unretired (unretireWhom v) else s.bump 0x2010 := by
  have h1 : fldN v.toNat 0 5 = v.toNat % 32 := by rw [fldN, Nat.pow_zero, Nat.div_one]; rfl
  have h2 : fldN v.toNat 16 16 = v.toNat / 65536 := by rw [fldN]; have := v.isLt; omega
  unfold State.brmUnretire
  dsimp only
  rw [h1, h2]
  rfl

theorem exec_brmUnretire_writes {m : Master} {v : W32} (h : s.writes m R.brmUnretire) : exec (.brmUnretire m v) s = .next (s.brmUnretire v) :=
  asWrite_writes (f := fun s => s.brmUnretire v) h

theorem unretired_shows :
    (s.unretired be).dru be = { s.dru be with st := .selfTest, unretire := true, transients := [], cleanMism := [], lines := [] } ∧
    (∀ i, i ≠ be → (s.unretired be).dru i = s.dru i) ∧ Frame [.brm, .regs] brmShown s (s.unretired be) := by
  have h := frame_showBrm_own (s := s.setDru be { s.dru be with st := .selfTest, unretire := true, transients := [], cleanMism := [], lines := [] })
  have hd := dru_of_frame h
  exact ⟨(hd be).trans (dru_setDru_self _), fun i hi => (hd i).trans (dru_setDru_ne _ hi), Frame.after h.sub (frame_setDru ..).sub⟩

/-! The clocks of the clusters (R22, R23, R25). -/

theorem traced_deactivate {st : DState} (h : s.obs.traced = none) : (s.deactivate be st).obs.traced = none := by
  have hl : (s.leavePool be st).obs = s.obs := frame_leavePool_own.part .obs (by decide)
  have ht : ∀ u : State, u.obs.traced = none → (if u.obs.traced.isSome ∧ u.actives.length < 30 then u.traceStop else u).obs.traced = none := fun u hu => by
    rw [if_neg (by rw [hu]; exact fun e => Bool.false_ne_true e.1), hu]
  unfold State.deactivate
  dsimp only
  refine ht _ ?_
  split
  · exact (congrArg Obs.traced hl).trans h
  · exact (congrArg Obs.traced hl).trans h

/-- The drupelets of a cluster. -/
theorem mem_clusterBes {c : Fin 4} : i ∈ clusterBes c ↔ i.val / 8 = c.val := by
  rw [clusterBes, List.mem_map]
  constructor
  · rintro ⟨k, hk, rfl⟩
    have := List.mem_range.mp hk
    rw [Fin.val_ofNat]
    omega
  · intro h
    refine ⟨i.val % 8, List.mem_range.mpr (Nat.mod_lt _ (by decide)), Fin.ext ?_⟩
    rw [Fin.val_ofNat]
    omega

theorem nodup_clusterBes (c : Fin 4) : (clusterBes c).Nodup := by
  revert c
  decide

theorem clusterIdle_of {c : Fin 4} (h : ∀ i : Fin 32, i.val / 8 = c.val → (s.dru i).win = none ∧ (s.dru i).st ≠ .selfTest ∧
    ∀ q ∈ (s.dru i).deques.toList, q = []) : s.clusterIdle c = true := by
  refine List.all_eq_true.mpr fun i hi => ?_
  obtain ⟨h1, h2, h3⟩ := h i (mem_clusterBes.mp hi)
  rw [h1, Bool.and_eq_true_iff, Bool.and_eq_true_iff]
  exact ⟨⟨rfl, bne_iff_ne.mpr h2⟩, List.all_eq_true.mpr fun q hq => List.isEmpty_iff.mpr (h3 q hq)⟩

/-- A step for each of a list of drupelets, that changes no other drupelet, brings each of them what the step alone would. -/
theorem foldl_dru {f : State → Fin 32 → State} {P : State → Prop} {l : List (Fin 32)} (hd : l.Nodup) (hP : ∀ u, ∀ i ∈ l, P u → P (f u i))
    (ho : ∀ u, ∀ i ∈ l, ∀ j, P u → j ≠ i → (f u i).dru j = u.dru j) (hs : P s) : P (l.foldl f s) ∧
    (∀ j, j ∉ l → (l.foldl f s).dru j = s.dru j) ∧
    ∀ j, j ∈ l → ∃ u, P u ∧ u.dru j = s.dru j ∧ (l.foldl f s).dru j = (f u j).dru j := by
  induction l generalizing s with
  | nil => exact ⟨hs, fun _ _ => rfl, fun j hj => absurd hj List.not_mem_nil⟩
  | cons a l ih =>
    obtain ⟨ha, hl⟩ := List.nodup_cons.mp hd
    have ham : a ∈ a :: l := List.mem_cons_self
    obtain ⟨h1, h2, h3⟩ := ih hl (fun u i hi => hP u i (List.mem_cons_of_mem a hi)) (fun u i hi => ho u i (List.mem_cons_of_mem a hi)) (hP s a ham hs)
    refine ⟨h1, fun j hj => ?_, fun j hj => ?_⟩
    · rw [List.foldl_cons, h2 j fun e => hj (List.mem_cons_of_mem a e), ho s a ham j hs fun e => hj (e ▸ List.mem_cons_self)]
    · rcases List.mem_cons.mp hj with rfl | hj
      · exact ⟨s, hs, rfl, h2 j ha⟩
      · obtain ⟨u, hu, hd, he⟩ := h3 j hj
        exact ⟨u, hu, hd.trans (ho s a ham j hs fun e => ha (e ▸ hj)), he⟩

/-- What becomes of one drupelet of a cluster that goes down, or comes back. -/
def State.clusterStep (down : Bool) (s : State) (i : Fin 32) : State :=
  if down = true ∧ (s.dru i).st = .active then s.deactivate i .clusterDown
  else if ¬ down = true ∧ (s.dru i).st = .clusterDown then (s.setDru i { s.dru i with st := .active, deques := Vector.replicate 4 [] }).showBrm
  else s

theorem clusterState_eq {c : Fin 4} {down : Bool} : s.clusterState c down = (clusterBes c).foldl (State.clusterStep down) s := rfl

theorem clusterStep_others {down : Bool} {j : Fin 32} (h : s.obs.traced = none) (hj : j ≠ i) : (s.clusterStep down i).dru j = s.dru j := by
  unfold State.clusterStep
  split
  · rw [dru_of_frame (deactivate_untraced h), dru_leavePool_ne hj]
  · split
    · rw [dru_of_frame frame_showBrm_own, dru_setDru_ne _ hj]
    · rfl

theorem clusterStep_untraced {down : Bool} (h : s.obs.traced = none) : Frame [.regs, .brm, .obs] brmShown s (s.clusterStep down i) ∧
    (s.clusterStep down i).obs.traced = none := by
  unfold State.clusterStep
  split
  · have h1 := deactivate_untraced (be := i) (st := .clusterDown) h
    exact ⟨frame_leavePool_own.sub.trans h1.sub, traced_deactivate h⟩
  · split
    · refine ⟨Frame.after frame_showBrm_own.sub (frame_setDru ..).sub, ?_⟩
      rw [frame_showBrm_own.part .obs (by decide)]
      exact h
    · exact ⟨.refl s, h⟩

theorem dru_clusterStep_down (h : s.obs.traced = none) : (s.clusterStep true i).dru i =
    if (s.dru i).st = .active then { s.dru i with st := .clusterDown, deques := Vector.replicate 4 [], yieldReq := false, win := none } else s.dru i := by
  unfold State.clusterStep
  by_cases ha : (s.dru i).st = .active
  · rw [if_pos ⟨rfl, ha⟩, if_pos ha, dru_of_frame (deactivate_untraced h), dru_leavePool_self]
  · rw [if_neg fun e => ha e.2, if_neg fun e => e.1 rfl, if_neg ha]

theorem dru_clusterStep_up : (s.clusterStep false i).dru i =
    if (s.dru i).st = .clusterDown then { s.dru i with st := .active, deques := Vector.replicate 4 [] } else s.dru i := by
  unfold State.clusterStep
  rw [if_neg fun e => Bool.false_ne_true e.1]
  by_cases ha : (s.dru i).st = .clusterDown
  · rw [if_pos ⟨Bool.false_ne_true, ha⟩, if_pos ha, dru_of_frame frame_showBrm_own, dru_setDru_self]
  · rw [if_neg fun e => ha e.2, if_neg ha]

/-- A cluster that goes down. -/
structure ClusterDown (c : Fin 4) (s t : State) : Prop where
  active : ∀ i : Fin 32, i.val / 8 = c.val → (s.dru i).st = .active →
    t.dru i = { s.dru i with st := .clusterDown, deques := Vector.replicate 4 [], yieldReq := false, win := none }
  others : ∀ i : Fin 32, ¬ i.val / 8 = c.val ∨ (s.dru i).st ≠ .active → t.dru i = s.dru i
  restarts : t.brm.restarts = s.brm.restarts
  frame : Frame [.regs, .brm, .obs] brmShown s t

theorem restarts_clusterStep {down : Bool} (h : s.obs.traced = none) : (s.clusterStep down i).brm.restarts = s.brm.restarts := by
  unfold State.clusterStep
  split
  · rw [(deactivate_untraced h).part .brm (by decide), leavePool_brm]
  · split
    · rw [frame_showBrm_own.part .brm (by decide)]
      rfl
    · rfl

/-- What stands while the drupelets of a cluster go down. -/
structure DownSoFar (s u : State) : Prop where
  frame : Frame [.regs, .brm, .obs] brmShown s u
  untraced : u.obs.traced = none
  restarts : u.brm.restarts = s.brm.restarts

theorem DownSoFar.step (h : DownSoFar s u) (i : Fin 32) : DownSoFar s (u.clusterStep true i) := by
  obtain ⟨h1, h2⟩ := clusterStep_untraced (down := true) (i := i) h.untraced
  exact ⟨h.frame.trans h1, h2, (restarts_clusterStep h.untraced).trans h.restarts⟩

theorem clusterState_down {c : Fin 4} (h : s.obs.traced = none) : ClusterDown c s (s.clusterState c true) := by
  obtain ⟨h1, h3, h4⟩ := foldl_dru (f := State.clusterStep true) (l := clusterBes c) (s := s) (P := DownSoFar s) (nodup_clusterBes c)
    (fun u i _ hu => hu.step i) (fun u i _ j hu hj => clusterStep_others hu.untraced hj) ⟨.refl s, h, rfl⟩
  rw [clusterState_eq]
  refine ⟨fun i hi ha => ?_, fun i hi => ?_, h1.restarts, h1.frame⟩
  · obtain ⟨u, hu, hd, he⟩ := h4 i (mem_clusterBes.mpr hi)
    rw [he, dru_clusterStep_down hu.untraced, hd, if_pos ha]
  · by_cases hm : i.val / 8 = c.val
    · obtain ⟨u, hu, hd, he⟩ := h4 i (mem_clusterBes.mpr hm)
      rw [he, dru_clusterStep_down hu.untraced, hd, if_neg (hi.resolve_left (not_not.mpr hm))]
    · exact h3 i fun e => hm (mem_clusterBes.mp e)

/-- A cluster that comes back. -/
structure ClusterUp (c : Fin 4) (s t : State) : Prop where
  back : ∀ i : Fin 32, i.val / 8 = c.val → (s.dru i).st = .clusterDown → (t.dru i).st = .active
  others : ∀ i : Fin 32, ¬ i.val / 8 = c.val ∨ (s.dru i).st ≠ .clusterDown → t.dru i = s.dru i
  frame : Frame [.regs, .brm] brmShown s t

theorem frame_clusterStep_up : Frame [.regs, .brm] brmShown s (s.clusterStep false i) := by
  unfold State.clusterStep
  rw [if_neg fun e => Bool.false_ne_true e.1]
  exact Frame.ite (Frame.after frame_showBrm_own.sub (frame_setDru ..).sub) (.refl s)

theorem clusterState_up {c : Fin 4} : ClusterUp c s (s.clusterState c false) := by
  have ho : ∀ (u : State) (i j : Fin 32), j ≠ i → (u.clusterStep false i).dru j = u.dru j := fun u i j hj => by
    unfold State.clusterStep
    rw [if_neg fun e => Bool.false_ne_true e.1]
    split
    · rw [dru_of_frame frame_showBrm_own, dru_setDru_ne _ hj]
    · rfl
  obtain ⟨h1, h3, h4⟩ := foldl_dru (f := State.clusterStep false) (l := clusterBes c) (s := s) (P := fun u => Frame [.regs, .brm] brmShown s u)
    (nodup_clusterBes c) (fun u i _ hu => hu.trans frame_clusterStep_up) (fun u i _ j _ hj => ho u i j hj) (.refl s)
  refine ⟨fun i hi ha => ?_, fun i hi => ?_, h1⟩
  · obtain ⟨u, -, hd, he⟩ := h4 i (mem_clusterBes.mpr hi)
    rw [clusterState_eq, he, dru_clusterStep_up, hd, if_pos ha]
  · rw [clusterState_eq]
    by_cases hm : i.val / 8 = c.val
    · obtain ⟨u, -, hd, he⟩ := h4 i (mem_clusterBes.mpr hm)
      rw [he, dru_clusterStep_up, hd, if_neg (hi.resolve_left (not_not.mpr hm))]
    · exact h3 i fun e => hm (mem_clusterBes.mp e)

theorem frame_showParked {c : Fin 4} : Frame [.regs] [.reg R.wfStatus] s (s.showParked c) := by
  have hc : coverAll [.reg R.wfStatus] ⟨R.wfStatus, 4 + c.val, 1⟩ = true :=
    cover_span R.wfStatus (R.wfStatus + 1) ⟨le_rfl, Nat.lt_succ_self _⟩ rfl (Nat.ble_eq.mpr (by dsimp only; omega))
  exact .fsetb hc

/-! A lost lock (R25). -/

/-- A window of the foreground that runs, on a drupelet that lost its clock, is discarded, and its chain restarts. -/
theorem clockLost_running {c : Nat} {w : Window} (h : (s.dru i).win = some w) (hr : w.rep = none) (hp : w.phase = .running) :
    (s.clockLost c i).dru i = { s.dru i with win := none, yieldReq := false } ∧ (∀ j, j ≠ i → (s.clockLost c i).dru j = s.dru j) ∧
    (s.clockLost c i).brm.restarts = s.brm.restarts ++ [(c, w.oc)] ∧ Frame [.brm, .integ] [] s (s.clockLost c i) := by
  have he : s.clockLost c i = { s.setDru i { s.dru i with win := none, yieldReq := false } with
      brm := { (s.setDru i { s.dru i with win := none, yieldReq := false }).brm with restarts := s.brm.restarts ++ [(c, w.oc)] }
      integ := { s.integ with wanted := s.integ.wanted.filter (fun e => e.1 ≠ i.val) } } := by
    unfold State.clockLost
    dsimp only
    rw [h]
    dsimp only
    rw [hp]
    dsimp only
    rw [h]
    dsimp only
    rw [hr]
  rw [he]
  exact ⟨dru_setDru_self _, fun j hj => dru_setDru_ne _ hj, rfl, Frame.patched rfl rfl rfl⟩

theorem clockLost_idle {c : Nat} (h : (s.dru i).win = none) : s.clockLost c i = s := by
  unfold State.clockLost
  rw [h]
  dsimp only
  rw [h]

/-- A drupelet has no window, or one of the foreground that runs. -/
def Drupelet.plain (d : Drupelet) : Prop := d.win = none ∨ ∃ w, d.win = some w ∧ w.rep = none ∧ w.phase = .running

/-- A drupelet whose clock is lost while its window, if any, runs in the foreground. -/
theorem clockLost_plain {c : Nat} (h : (s.dru i).plain) : ((s.clockLost c i).dru i).win = none ∧ ((s.clockLost c i).dru i).st = (s.dru i).st ∧
    (∀ j, j ≠ i → (s.clockLost c i).dru j = s.dru j) ∧ (∀ x ∈ s.brm.restarts, x ∈ (s.clockLost c i).brm.restarts) ∧
    (∀ w, (s.dru i).win = some w → (c, w.oc) ∈ (s.clockLost c i).brm.restarts) ∧ Frame [.brm, .integ] [] s (s.clockLost c i) := by
  obtain h0 | ⟨w, hw, hr, hp⟩ := h
  · rw [clockLost_idle h0]
    exact ⟨h0, rfl, fun _ _ => rfl, fun _ => id, (fun w e => nomatch h0.symm.trans e), .refl s⟩
  · obtain ⟨h1, h2, h3, h4⟩ := clockLost_running (c := c) hw hr hp
    rw [h1, h3]
    refine ⟨rfl, rfl, h2, fun x hx => List.mem_append_left _ hx, fun w' e => ?_, h4⟩
    cases hw.symm.trans e
    exact List.mem_append_right _ List.mem_cons_self

/-- What stands while the drupelets of a cluster lose their clock. -/
structure LostSoFar (c : Fin 4) (s u : State) : Prop where
  frame : Frame [.brm, .integ] [] s u
  plain : ∀ i : Fin 32, i.val / 8 = c.val → (u.dru i).plain
  st : ∀ i, (u.dru i).st = (s.dru i).st

theorem LostSoFar.step {c : Fin 4} (h : LostSoFar c s u) (hi : i ∈ clusterBes c) : LostSoFar c s (u.clockLost c.val i) := by
  obtain ⟨h1, h2, h3, -, -, h4⟩ := clockLost_plain (c := c.val) (h.plain i (mem_clusterBes.mp hi))
  refine ⟨h.frame.trans h4, fun j hj => ?_, fun j => ?_⟩
  · by_cases e : j = i
    · rw [e]
      exact .inl h1
    · rw [h3 j e]
      exact h.plain j hj
  · by_cases e : j = i
    · rw [e, h2, h.st]
    · rw [h3 j e, h.st]

/-- A cluster whose clock is lost: its windows end, and their chains restart. -/
theorem clocksLost {c : Fin 4} (h : ∀ i : Fin 32, i.val / 8 = c.val → (s.dru i).plain) {v : State}
    (hv : (clusterBes c).foldl (fun s i => s.clockLost c.val i) s = v) : LostSoFar c s v ∧
    (∀ i : Fin 32, i.val / 8 = c.val → (v.dru i).win = none) ∧ (∀ i : Fin 32, ¬ i.val / 8 = c.val → v.dru i = s.dru i) ∧
    ∀ (i : Fin 32) w, i.val / 8 = c.val → (s.dru i).win = some w → (c.val, w.oc) ∈ v.brm.restarts := by
  subst hv
  have h0 : LostSoFar c s s := ⟨.refl s, h, fun _ => rfl⟩
  have ho : ∀ u, ∀ i ∈ clusterBes c, ∀ j, LostSoFar c s u → j ≠ i → (u.clockLost c.val i).dru j = u.dru j := fun u i hi j hu hj =>
    (clockLost_plain (hu.plain i (mem_clusterBes.mp hi))).2.2.1 j hj
  obtain ⟨h1, h2, h3⟩ := foldl_dru (f := fun s i => s.clockLost c.val i) (P := LostSoFar c s) (nodup_clusterBes c) (fun u i hi hu => hu.step hi) ho h0
  refine ⟨h1, fun i hi => ?_, fun i hi => h2 i fun e => hi (mem_clusterBes.mp e), fun i w hi hw => ?_⟩
  · obtain ⟨u, hu, -, he⟩ := h3 i (mem_clusterBes.mpr hi)
    rw [he, (clockLost_plain (hu.plain i hi)).1]
  · have hm := mem_clusterBes.mpr hi
    refine (foldl_own (P := fun u => LostSoFar c s u ∧ u.dru i = s.dru i) (Q := fun u => LostSoFar c s u ∧ (c.val, w.oc) ∈ u.brm.restarts)
      (nodup_clusterBes c) hm (fun u b hb hne hu => ⟨hu.1.step hb, (ho u b hb i hu.1 (Ne.symm hne)).trans hu.2⟩) (fun u b hb hne hu => ⟨hu.1.step hb, ?_⟩)
      (fun u hu => ⟨hu.1.step hm, ?_⟩) ⟨h0, rfl⟩).2
    · exact (clockLost_plain (hu.1.plain b (mem_clusterBes.mp hb))).2.2.2.1 _ hu.2
    · exact (clockLost_plain (hu.1.plain i hi)).2.2.2.2.1 w (by rw [hu.2, hw])

/-! The audit (R98 to R100). -/

/-- The drupelet free of its replica. -/
def State.replicaOff (s : State) (be : Fin 32) : State := s.setDru be { s.dru be with win := none, yieldReq := false }

theorem exec_auditReplicaComplete_ends {w : Window} {a : Audit} (hc : s.olc.carry = none) (hw : (s.dru be).win = some w) (ha : w.audit = true)
    (hp : w.phase = .committing true) (hf : s.brm.audits.find? (fun b => b.place == .on be.val) = some a) :
    exec (.auditReplicaComplete be) s = .next (((s.replicaOff be).auditResult be a w.core.sig).showAudit.obsCount 0x0225) := by
  have he : exec (.auditReplicaComplete be) s = .next (s.auditReplica be) := when_pos (by rw [hc]; rfl)
  rw [he, State.auditReplica, hw, hf]
  dsimp only
  rw [ha, hp]
  rfl

theorem frame_auditShown : Frame [.regs] [.fld F.brmStatus_auditRun, .span 0x14400 0x14800] s (s.showAudit.obsCount 0x0225) :=
  Frame.after (frame_obsCount ..).sub .fsetb

/-- The audit of an execution is over. -/
structure AuditClosed (a : Audit) (s t : State) : Prop where
  out : a ∉ t.brm.audits
  done : (t.rd R.brmAuditDone).toNat = satAdd 32 (s.rd R.brmAuditDone).toNat 1
  sigs : ∀ x ∈ t.brm.sigs, x.chain = a.snap.work.chain → x.cycle = a.snap.cycle → x.audited = true
  mem : t.mem = s.mem

/-- What follows the end of an audit leaves it so. -/
theorem AuditClosed.trans {a : Audit} {ps : List Part} {W : List Rect} (h : AuditClosed a s t) (hf : Frame ps W t u) (hw : t.regsWf = true)
    (h1 : u.brm.audits = t.brm.audits) (h2 : u.brm.sigs = t.brm.sigs)
    (h3 : autoParam (apartAll W ⟨R.brmAuditDone, 0, 32⟩ = true) List.TFAE.out._auto_1)
    (h4 : autoParam (decide (Part.mem ∈ ps) = false) List.TFAE.out._auto_1) : AuditClosed a s u :=
  ⟨by rw [h1]; exact h.out, by rw [hf.rd hw h3, h.done], by rw [h2]; exact h.sigs, (hf.part .mem (of_decide_eq_false h4)).trans h.mem⟩

theorem auditClose_closes {a : Audit} (hw : s.regsWf = true) : AuditClosed a s (s.auditClose a) ∧
    Frame [.regs, .brm] [.reg R.brmAuditDone] s (s.auditClose a) ∧ (s.auditClose a).brm.be = s.brm.be := by
  have hf : Frame [.regs, .brm] [.reg R.brmAuditDone] s (s.auditClose a) := Frame.after .brm .bump
  refine ⟨⟨fun h => ?_, toNat_rd_bump hw, fun x hx hc hy => ?_, hf.part .mem (by decide)⟩, hf, rfl⟩
  · exact absurd (List.mem_filter.mp h).2 (by simp)
  · obtain ⟨r, -, rfl⟩ := List.mem_map.mp hx
    by_cases h : r.chain = a.snap.work.chain ∧ r.cycle = a.snap.cycle
    · rw [if_pos h]
    · rw [if_neg h] at hc hy
      exact absurd ⟨hc, hy⟩ h

theorem auditFail_shows {chain : Nat} (hw : s.regsWf = true) : Frame [.regs, .recd] [.reg R.brmAuditFail, .fld F.brmStatus_auditAlarm] s
    (s.auditFail chain) ∧ ((s.auditFail chain).rd R.brmAuditFail).toNat = satAdd 32 (s.rd R.brmAuditFail).toNat 1 ∧
    (s.auditFail chain).fbit F.brmStatus_auditAlarm = true := by
  have h2 : Frame [.regs, .recd] [.fld F.brmStatus_auditAlarm] (s.bump R.brmAuditFail) (s.auditFail chain) := Frame.after .raise .fset
  exact ⟨Frame.after h2.sub .bump, by rw [h2.rd (regsWf_bump hw), toNat_rd_bump hw], fbit_fset (regsWf_bump hw) (by decide)⟩

/-- One drupelet in a mask. -/
theorem bitsOf_single (k : Fin 32) : bitsOf (BitVec.ofNat 32 (2 ^ k.val)) = [k] := by
  revert k
  decide

/-- The only drupelet of a mask retired, or left retired. -/
theorem retireMask_single {chain : Nat} (hw : s.regsWf = true) (h : s.obs.traced = none) :
    ((s.retireMask chain (BitVec.ofNat 32 (2 ^ be.val))).dru be).st = .retired ∧
    Frame [.regs, .brm, .obs, .scan, .recd] retirePlaces s (s.retireMask chain (BitVec.ofNat 32 (2 ^ be.val))) ∧
    (s.retireMask chain (BitVec.ofNat 32 (2 ^ be.val))).brm.audits = s.brm.audits ∧
    (s.retireMask chain (BitVec.ofNat 32 (2 ^ be.val))).brm.sigs = s.brm.sigs := by
  have he : s.retireMask chain (BitVec.ofNat 32 (2 ^ be.val)) = if (s.dru be).st = .retired then s else s.retire be 3 false chain := by
    rw [State.retireMask, bitsOf_single]
    rfl
  rw [he]
  by_cases hr : (s.dru be).st = .retired
  · rw [if_pos hr]
    exact ⟨hr, .refl s, rfl, rfl⟩
  · rw [if_neg hr]
    obtain ⟨g1, -, -, -, -, -, -, g8, g9⟩ := retire_retires (be := be) (v := 3) (chain := chain) (core := false) hw h
    exact ⟨g1, g8, by rw [g9], by rw [g9]⟩

/-- A signature that matches the record, of the first replica. -/
theorem auditResult_matches {a : Audit} {sig : W64} (hf : a.first = none) (h : sig = a.recorded) : s.auditResult be a sig = s.auditClose a := by
  rw [State.auditResult, hf]
  exact if_pos h

/-- A first signature that differs waits for a second replica. -/
theorem auditResult_waits {a : Audit} {sig : W64} (hf : a.first = none) (h : sig ≠ a.recorded) : s.auditResult be a sig =
    { s with brm := { s.brm with audits := s.brm.audits.map (fun (b : Audit) =>
      if b = a then { b with first := some (sig, be.val), place := .waiting } else b) } } := by
  rw [State.auditResult, hf]
  exact if_neg h

theorem auditResult_second {a : Audit} {sig sig1 : W64} {be1 : Nat} (hf : a.first = some (sig1, be1)) : s.auditResult be a sig =
    if sig = a.recorded then ((s.auditClose a).auditFail a.snap.work.chain).retireMask a.snap.work.chain (BitVec.ofNat 32 (2 ^ be1))
    else if sig = sig1 then
      (if ((s.auditClose a).auditFail a.snap.work.chain).mod = .standby then
        ((s.auditClose a).auditFail a.snap.work.chain).send (.auditVerdict a.snap.work.chain a.execMask)
        else ((s.auditClose a).auditFail a.snap.work.chain).retireMask a.snap.work.chain a.execMask)
    else (s.auditClose a).raise hapInconclusive be.val [BitVec.ofNat 64 a.snap.work.chain] := by
  rw [State.auditResult, hf]

/-- The drupelet free, and the others as they were. -/
structure ReplicaLeft (be : Fin 32) (s t : State) : Prop where
  win : (t.dru be).win = none
  others : ∀ k, k ≠ be → t.dru k = s.dru k

theorem replicaLeft_of_be (h : t.brm.be = (s.replicaOff be).brm.be) : ReplicaLeft be s t := by
  have hd : ∀ k, t.dru k = (s.replicaOff be).dru k := fun k => by rw [State.dru, h, State.dru]
  exact ⟨by rw [hd, State.replicaOff, dru_setDru_self], fun k hk => by rw [hd, State.replicaOff, dru_setDru_ne _ hk]⟩

/-- A lost lock. -/
theorem pllLossOfLock_shows {c : Fin 4} (hl : (vget s.clk c.val).pll = .locked ∨ (vget s.clk c.val).pll = .held ∨ (vget s.clk c.val).pll = .lost)
    (ht : s.obs.traced = none) (hp : ∀ i : Fin 32, i.val / 8 = c.val → (s.dru i).plain) : ∃ t, exec (.pllLossOfLock c) s = .next t ∧
      t.clk = vset s.clk c.val { vget s.clk c.val with pll := .lost } ∧ t.mem = s.mem ∧
      (∀ i : Fin 32, i.val / 8 = c.val → (s.dru i).st = .active → (t.dru i).st = .clusterDown ∧ (t.dru i).win = none) ∧
      (∀ (i : Fin 32) w, i.val / 8 = c.val → (s.dru i).win = some w → (c.val, w.oc) ∈ t.brm.restarts) ∧
      ∀ i : Fin 32, ¬ i.val / 8 = c.val → t.dru i = s.dru i := by
  obtain ⟨v, hv⟩ : ∃ v, (clusterBes c).foldl (fun s i => s.clockLost c.val i) (s.modClk c (fun k => { k with pll := .lost })) = v := ⟨_, rfl⟩
  obtain ⟨⟨f1, -, f3⟩, f4, f5, f6⟩ := clocksLost (s := s.modClk c (fun k => { k with pll := .lost })) hp hv
  have htv : v.obs.traced = none := by rw [f1.part .obs (by decide)]; exact ht
  obtain ⟨g1, g2, g3, g4⟩ := clusterState_down (c := c) htv
  have hex : exec (.pllLossOfLock c) s = .next ((v.clusterState c true).raise hapPll c.val []) := by
    rw [← hv]
    exact when_pos (by rcases hl with h | h | h <;> rw [h] <;> rfl)
  generalize v.clusterState c true = z at *
  refine ⟨_, hex, ?_, ?_, fun i hi ha => ?_, fun i w hi hw' => ?_, fun i hi => ?_⟩
  · exact (g4.part .clk (by decide)).trans (f1.part .clk (by decide))
  · exact (g4.part .mem (by decide)).trans (f1.part .mem (by decide))
  · have hd := g1 i hi ((f3 i).trans ha)
    exact ⟨congrArg Drupelet.st hd, congrArg Drupelet.win hd⟩
  · exact g3 ▸ f6 i w hi hw'
  · exact (g2 i (.inl hi)).trans (f5 i hi)

/-- Settles O17: a verdict retires a drupelet, or leaves it waiting; a cluster's drupelets go down and come back with its clock; and an
audit ends with the signatures of its replicas. -/
theorem drupeletLifeAndAudit : Obligations.DrupeletLifeAndAudit := by
  refine ⟨fun be v s hw => selftest_clauses be v s hw, fun m v s hw hs => ?unretire, fun c s hw ht => ?clocks,
    fun be s w a hw hcar hwin haud hp hfind => ?audit⟩
  case unretire =>
    refine ⟨_, exec_brmUnretire_writes hs, fun hg => ?_, fun hg => ?_⟩
    · obtain ⟨h1, h2, h3⟩ := unretired_shows (s := s) (be := unretireWhom v)
      rw [brmUnretire_eq, if_pos (show s.mod = .service ∧ v.toNat / 65536 = 0x7A11 ∧ (s.dru (unretireWhom v)).st = .retired from hg)]
      exact ⟨h1, h2, h3.eq_patch, h3.rd hw⟩
    · rw [brmUnretire_eq, if_neg (show ¬ (s.mod = .service ∧ v.toNat / 65536 = 0x7A11 ∧ (s.dru (unretireWhom v)).st = .retired) from hg)]
      exact ⟨onlyRegs_wr, toNat_rd_bump hw⟩
  case clocks =>
    dsimp only
    refine ⟨fun hi => ?gate, fun hi hl => ?down, fun hd => when_pos (by rw [hd]; rfl), fun hr => ?locked, fun hl hp => ?lost,
      fun hl hr => ?held, fun hl hr => ?back⟩
    case gate =>
      have hf := frame_showParked (s := s.modClk c (fun k => { k with gated := true })) (c := c)
      have hfs : Frame [.clk, .regs] [.reg R.wfStatus] s ((s.modClk c (fun k => { k with gated := true })).showParked c) :=
        Frame.after hf.sub (frame_modClk ..).sub
      refine ⟨_, when_pos (clusterIdle_of hi), ?_, hfs.keepsRegs hw, hfs.eq_patch⟩
      rw [hf.part .clk (by decide)]
      rfl
    case down =>
      have hf := frame_showParked (s := s.modClk c (fun _ => { pll := .down, gated := true })) (c := c)
      have hfs : Frame [.clk, .regs] [.reg R.wfStatus] s ((s.modClk c (fun _ => { pll := .down, gated := true })).showParked c) :=
        Frame.after hf.sub (frame_modClk ..).sub
      have hd := dru_of_frame hfs
      have hck : ((s.modClk c (fun _ => { pll := .down, gated := true })).showParked c).clk = vset s.clk c.val { pll := .down, gated := true } := by
        rw [hf.part .clk (by decide)]
        rfl
      have ht1 : ((s.modClk c (fun _ => { pll := .down, gated := true })).showParked c).obs.traced = none := by
        rw [hfs.part .obs (by decide), ht]
      obtain ⟨g1, g2, -, g4⟩ := clusterState_down (c := c) ht1
      refine ⟨_, when_pos (by rw [clusterIdle_of hi, hl]; rfl), ?_, fun i hi ha => ?_, fun i hi => ?_, ?_⟩
      · rw [g4.part .clk (by decide), hck]
      · rw [g1 i hi (by rw [hd, ha])]
      · rw [g2 i (by rw [hd]; exact hi), hd]
      · exact (Frame.trans (ps := [.clk, .brm, .regs, .obs]) (W := .reg R.wfStatus :: brmShown) hfs.sub g4.sub).eq_patch
    case locked =>
      obtain ⟨g1, g2, g3⟩ := clusterState_up (s := s.modClk c (fun k => { k with pll := .locked })) (c := c)
      refine ⟨_, when_pos (by rw [hr]; rfl), ?_, g1, g2, ?_⟩
      · rw [g3.part .clk (by decide)]
        rfl
      · exact (Frame.trans (ps := [.clk, .brm, .regs]) (W := brmShown) (frame_modClk ..).sub g3.sub).eq_patch
    case lost =>
      obtain ⟨t, hex, g1, g2, g3, g4, g5⟩ := pllLossOfLock_shows hl ht hp
      exact ⟨t, hex, g1, g2, g3, g4, g5⟩
    case held =>
      have he : exec (.clusterReenter c) s = .next (if s.scanRuns then s.modClk c (fun k => { k with pll := .held })
        else (s.modClk c (fun k => { k with pll := .locked })).clusterState c false) := when_pos (by rw [hl]; rfl)
      rw [he, if_pos hr]
      rfl
    case back =>
      have he : exec (.clusterReenter c) s = .next (if s.scanRuns then s.modClk c (fun k => { k with pll := .held })
        else (s.modClk c (fun k => { k with pll := .locked })).clusterState c false) := when_pos (by rw [hl]; rfl)
      obtain ⟨g1, -, g3⟩ := clusterState_up (s := s.modClk c (fun k => { k with pll := .locked })) (c := c)
      rw [if_neg (by rw [hr]; exact Bool.false_ne_true)] at he
      refine ⟨_, he, ?_, g1, g3.part .mem (by decide)⟩
      rw [g3.part .clk (by decide)]
      rfl
  case audit =>
    have hwo : (s.replicaOff be).regsWf = true := hw
    obtain ⟨hcl, hcf, hcb⟩ := auditClose_closes (s := s.replicaOff be) (a := a) hwo
    have hwc := hcf.canon hwo
    obtain ⟨hff, hfc, hfa⟩ := auditFail_shows (s := (s.replicaOff be).auditClose a) (chain := a.snap.work.chain) hwc
    have hwf := hff.canon hwc
    have hmem := List.mem_of_find?_eq_some hfind
    have hclosed : AuditClosed a s ((s.replicaOff be).auditClose a) := ⟨hcl.out, hcl.done, hcl.sigs, hcl.mem⟩
    have hfl : AuditClosed a s (((s.replicaOff be).auditClose a).auditFail a.snap.work.chain) := hclosed.trans hff hwc rfl rfl
    have hcount : ∀ u : State, (s.replicaOff be).auditResult be a w.core.sig = u → u.regsWf = true →
        ∃ t, exec (.auditReplicaComplete be) s = .next t ∧ Frame [.regs] [.fld F.brmStatus_auditRun, .span 0x14400 0x14800] u t := fun u hu _ =>
      ⟨_, exec_auditReplicaComplete_ends hcar hwin haud hp hfind, hu ▸ frame_auditShown⟩
    dsimp only
    refine ⟨fun hf he => ?ends, fun hf he => ?waits, fun sig1 be1 hf hne he hm => ?confirmed, fun sig1 be1 hf hb he ht => ?retired,
      fun sig1 be1 hf hne hn => ?inconclusive⟩
    case ends =>
      obtain ⟨t, hex, ht⟩ := hcount _ (auditResult_matches hf he) hwc
      have hc := hclosed.trans ht hwc (congrArg Brm.audits (ht.part .brm (by decide))) (congrArg Brm.sigs (ht.part .brm (by decide)))
      have hl : ReplicaLeft be s t := replicaLeft_of_be ((congrArg Brm.be (ht.part .brm (by decide))).trans hcb)
      exact ⟨t, hex, ⟨hc.out, hc.done, hc.sigs, hc.mem⟩, ⟨hl.win, hl.others⟩, (ht.rd hwc).trans (hcf.rd hwo)⟩
    case waits =>
      obtain ⟨t, hex, ht⟩ := hcount _ (auditResult_waits hf he) hwo
      have hb : t.brm = { s.brm with be := (s.replicaOff be).brm.be, audits := s.brm.audits.map (fun (b : Audit) =>
          if b = a then { b with first := some (w.core.sig, be.val), place := .waiting } else b) } := ht.part .brm (by decide)
      have hl : ReplicaLeft be s t := replicaLeft_of_be (by rw [hb])
      refine ⟨t, hex, ⟨hl.win, hl.others⟩, ?_, ht.rd hwo, ht.rd hwo, ht.part .mem (by decide)⟩
      rw [hb]
      exact List.mem_map.mpr ⟨a, hmem, if_pos rfl⟩
    case confirmed =>
      have hmod : (((s.replicaOff be).auditClose a).auditFail a.snap.work.chain).mod = .standby := by rw [hff.mod hwc, hcf.mod hwo]; exact hm
      have hr := (auditResult_second (s := s.replicaOff be) (be := be) (sig := w.core.sig) hf).trans
        ((if_neg hne).trans ((if_pos he).trans (if_pos hmod)))
      have hs : Frame [.out, .pair] [] (((s.replicaOff be).auditClose a).auditFail a.snap.work.chain)
        ((((s.replicaOff be).auditClose a).auditFail a.snap.work.chain).send (.auditVerdict a.snap.work.chain a.execMask)) := .send
      have hws := hs.canon hwf
      obtain ⟨t, hex, ht⟩ := hcount _ hr hws
      have hb := (ht.part .brm (by decide)).trans (hs.part .brm (by decide))
      have hc := (hfl.trans hs hwf (congrArg Brm.audits (hs.part .brm (by decide))) (congrArg Brm.sigs (hs.part .brm (by decide)))).trans ht hws
        (congrArg Brm.audits (ht.part .brm (by decide))) (congrArg Brm.sigs (ht.part .brm (by decide)))
      have hl : ReplicaLeft be s t := replicaLeft_of_be ((congrArg Brm.be hb).trans hcb)
      obtain ⟨m, hm1, hm2⟩ := send_msgs (s := ((s.replicaOff be).auditClose a).auditFail a.snap.work.chain)
        (o := .auditVerdict a.snap.work.chain a.execMask)
      refine ⟨t, hex, ⟨hc.out, hc.done, hc.sigs, hc.mem⟩, ⟨hl.win, hl.others⟩, ?_, ?_, m, ?_, hm2⟩
      · rw [ht.rd hws, hs.rd hwf, hfc, hcf.rd hwo]
        rfl
      · rw [ht.fbit hws, hs.fbit hwf, hfa]
      · rw [ht.part .pair (by decide)]
        exact hm1
    case retired =>
      have hk : be1 = (Fin.ofNat 32 be1).val := (Nat.mod_eq_of_lt hb).symm
      have hr := (auditResult_second (s := s.replicaOff be) (be := be) (sig := w.core.sig) hf).trans (if_pos he)
      have htr : (((s.replicaOff be).auditClose a).auditFail a.snap.work.chain).obs.traced = none := by
        rw [hff.part .obs (by decide), hcf.part .obs (by decide)]
        exact ht
      obtain ⟨g1, g2, g3, g4⟩ := retireMask_single (be := Fin.ofNat 32 be1) (chain := a.snap.work.chain) hwf htr
      rw [← hk] at g1 g2 g3 g4
      have hws := g2.canon hwf
      obtain ⟨t, hex, ht⟩ := hcount _ hr hws
      have hc := (hfl.trans g2 hwf g3 g4).trans ht hws (congrArg Brm.audits (ht.part .brm (by decide))) (congrArg Brm.sigs (ht.part .brm (by decide)))
      refine ⟨t, hex, ⟨hc.out, hc.done, hc.sigs, hc.mem⟩, ?_, ?_, ?_⟩
      · rw [ht.rd hws, g2.rd hwf, hfc, hcf.rd hwo]
        rfl
      · rw [ht.fbit hws, g2.fbit hwf, hfa]
      · rw [dru_of_frame ht, g1]
    case inconclusive =>
      have hr := (auditResult_second (s := s.replicaOff be) (be := be) (sig := w.core.sig) hf).trans ((if_neg hne).trans (if_neg hn))
      have hs : Frame [.recd] [] ((s.replicaOff be).auditClose a)
        (((s.replicaOff be).auditClose a).raise hapInconclusive be.val [BitVec.ofNat 64 a.snap.work.chain]) := .raise
      obtain ⟨t, hex, ht⟩ := hcount _ hr hwc
      have hb := (ht.part .brm (by decide)).trans (hs.part .brm (by decide))
      have hc := hclosed.trans (hs.sub.trans ht.sub : Frame [.recd, .regs] [.fld F.brmStatus_auditRun, .span 0x14400 0x14800] _ t) hwc
        (congrArg Brm.audits hb) (congrArg Brm.sigs hb)
      have hl : ReplicaLeft be s t := replicaLeft_of_be ((congrArg Brm.be hb).trans hcb)
      exact ⟨t, hex, ⟨hc.out, hc.done, hc.sigs, hc.mem⟩, ⟨hl.win, hl.others⟩, (ht.rd hwc).trans (hcf.rd hwo)⟩

end Sys2Proof.Machine
end

section
/-! PTP: the ports, the servo, and the parent of ship time (R359 to R363). -/

namespace Sys2Proof.Machine

variable {s t u : State} {p : Fin 2} {fast : Bool} {off : Int} {a : Announce}

/-! A message that a port takes (R360, R361). -/

/-- The registers that show a port's speed. -/
abbrev speedPlaces (p : Fin 2) : List Rect := [.reg (R.timePpStatus p.val), .reg (R.timePpRxCorr p.val), .reg (R.timePpTxCorr p.val)]

theorem frame_ptpSpeed : Frame [.regs] (speedPlaces p) s (s.ptpSpeed p.val fast) := by
  fin_cases p
  · exact Frame.after .wr <| Frame.after .wr <| Frame.after .fset .fset
  · exact Frame.after .wr <| Frame.after .wr <| Frame.after .fset .fset

theorem ptpTake_takes (hw : s.regsWf = true) (hs : s.fget (F.timePpStatus_pstate p.val) ≠ 0) (hf : s.fbit F.pwrStatus_firstSec = false) :
    s.ptpTake p.val fast = (s.ptpSpeed p.val fast, true) := by
  have h1 : (s.ptpSpeed p.val fast).fbit F.pwrStatus_firstSec = false := by
    rw [frame_ptpSpeed.fbit hw (by fin_cases p <;> rfl), hf]
  rw [State.ptpTake, if_neg (c := s.ptpState p.val = 0) hs, State.rateOk, h1]
  rfl

/-! The servo (R362). -/

/-- Whether an offset is offBeyond the step limit. -/
def State.offBeyond (s : State) (off : Int) : Bool := decide (off.natAbs > s.aget F.timeServoCfg_stepMs * 1000000)

/-- How many offsets in a row are offBeyond the step limit, and how many within 1 µs. -/
def State.servoOvr (s : State) (off : Int) : Nat := if s.offBeyond off then s.time.ovr + 1 else 0
def State.servoGood (s : State) (off : Int) : Nat := if off.natAbs ≤ 1000 then s.time.good + 1 else 0

/-- The offset shown. -/
def State.offsetShown (s : State) (off : Int) : State := s.wr R.timeOffset (sat32 off)

/-- The counts of the servo. -/
def State.servoCounted (s : State) (ovr good : Nat) : State := { s with time := { s.time with ovr := ovr, good := good } }

/-- TB0 stepped, or steered. -/
def State.servoActs (s : State) (off : Int) (ovr : Nat) : State :=
  if ovr ≥ 3 then { s.stepTb0 (s.tb0 - off) with time := { (s.stepTb0 (s.tb0 - off)).time with ovr := 0 } } else s.servoRate

/-- TB0 locked. -/
def State.servoLocks (s : State) : State :=
  let s := (s.fset F.timeStatus_tb0State tbLocked).wr R.timeTb0Err 100
  { s with time := { s.time with everLocked := true, rates := [(s.time.tb1, (s.rd R.timeRate).toInt)] } }

theorem servo_rests (h1 : (s.offsetShown off).tb0State ≠ tbAcquiring) (h2 : (s.offsetShown off).tb0State ≠ tbLocked) :
    s.servo off = s.offsetShown off := if_pos ⟨h1, h2⟩

theorem servo_steers (h : (s.offsetShown off).tb0State = tbAcquiring ∨ (s.offsetShown off).tb0State = tbLocked) : s.servo off =
    if (s.offsetShown off).tb0State = tbAcquiring ∧ (s.offsetShown off).servoGood off ≥ 16 then
      (((s.offsetShown off).servoCounted ((s.offsetShown off).servoOvr off) ((s.offsetShown off).servoGood off)).servoActs off
        ((s.offsetShown off).servoOvr off)).servoLocks
    else ((s.offsetShown off).servoCounted ((s.offsetShown off).servoOvr off) ((s.offsetShown off).servoGood off)).servoActs off
      ((s.offsetShown off).servoOvr off) :=
  if_neg fun e => h.elim e.1 e.2

theorem frame_servoActs {n : Nat} : Frame [.free, .regs, .recd, .time] [.reg R.timeSteps, .reg R.timeRate] s (s.servoActs off n) :=
  Frame.ite (Frame.after Frame.time <| Frame.after Frame.raise <| Frame.after Frame.bump Frame.time)
    (Frame.after (frame_setRate ..).sub (.take rfl))

theorem frame_servoLocks : Frame [.regs, .time] [.fld F.timeStatus_tb0State, .reg R.timeTb0Err] s s.servoLocks :=
  Frame.after Frame.time <| Frame.after .wr .fset

theorem time_setRate {r : Int} : (s.setRate r).time = { s.time with rates := (s.setRate r).time.rates } := by
  unfold State.setRate
  dsimp only
  split <;> rfl

/-- What the servo steers. -/
theorem servoActs_shows (hw : s.regsWf = true) {n : Nat} :
    (s.servoActs off n).time.tb1 = s.time.tb1 ∧ (s.servoActs off n).time.everLocked = s.time.everLocked ∧
    (s.servoActs off n).time.t21 = s.time.t21 ∧
    (3 ≤ n → (s.servoActs off n).time.ovr = 0 ∧ (s.servoActs off n).time.tb0s = BitVec.ofNat 64 ((max (s.tb0 - off) 0).toNat / 1000000000) ∧
      (s.servoActs off n).time.tb0n = (max (s.tb0 - off) 0).toNat % 1000000000 ∧
      ((s.servoActs off n).rd R.timeSteps).toNat = satAdd 32 (s.rd R.timeSteps).toNat 1) ∧
    (n < 3 → (s.servoActs off n).time.tb0s = s.time.tb0s ∧ (s.servoActs off n).time.tb0n = s.time.tb0n ∧
      (s.servoActs off n).rd R.timeSteps = s.rd R.timeSteps) := by
  have hr : s.servoRate.time = { s.time with rates := s.servoRate.time.rates } := time_setRate
  have hf : Frame [.free, .regs, .time] [.reg R.timeRate] s s.servoRate := Frame.after (frame_setRate ..).sub (.take rfl)
  unfold State.servoActs
  by_cases h : n ≥ 3
  · rw [if_pos h]
    have hw1 : (s.setTb0 (s.tb0 - off)).regsWf = true := hw
    exact ⟨rfl, rfl, rfl, fun _ => ⟨rfl, rfl, rfl, toNat_rd_bump hw1⟩, fun e => absurd h (Nat.not_le.mpr e)⟩
  · rw [if_neg h, hr]
    exact ⟨rfl, rfl, rfl, fun e => absurd e h, fun _ => ⟨rfl, rfl, hf.rd hw⟩⟩

/-- What the servo comes to. -/
structure Served (off : Int) (s t : State) : Prop where
  frame : Frame [.free, .regs, .recd, .time] [.reg R.timeOffset, .reg R.timeSteps, .reg R.timeRate, .fld F.timeStatus_tb0State, .reg R.timeTb0Err] s t
  offset : t.rd R.timeOffset = sat32 off
  tb1 : t.time.tb1 = s.time.tb1
  t21 : t.time.t21 = s.time.t21
  idle : s.tb0State ≠ tbAcquiring → s.tb0State ≠ tbLocked → t.time = s.time
  steps : s.tb0State = tbAcquiring ∨ s.tb0State = tbLocked → s.offBeyond off = true → 2 ≤ s.time.ovr →
    t.time.ovr = 0 ∧ t.time.tb0s = BitVec.ofNat 64 ((max (s.tb0 - off) 0).toNat / 1000000000) ∧
    t.time.tb0n = (max (s.tb0 - off) 0).toNat % 1000000000 ∧ (t.rd R.timeSteps).toNat = satAdd 32 (s.rd R.timeSteps).toNat 1
  stays : s.offBeyond off = false ∨ s.time.ovr < 2 → t.time.tb0s = s.time.tb0s ∧ t.time.tb0n = s.time.tb0n ∧ t.rd R.timeSteps = s.rd R.timeSteps
  locks : s.tb0State = tbAcquiring → off.natAbs ≤ 1000 → 15 ≤ s.time.good → t.tb0State = tbLocked ∧ t.rd R.timeTb0Err = 100 ∧ t.time.everLocked = true
  acquires : s.tb0State = tbAcquiring → (1000 < off.natAbs ∨ s.time.good < 15) → t.tb0State = tbAcquiring

theorem servoOvr_beyond (h : s.offBeyond off = true) : s.servoOvr off = s.time.ovr + 1 := if_pos h

theorem servoOvr_lt (h : s.offBeyond off = false ∨ s.time.ovr < 2) : s.servoOvr off < 3 := by
  rw [State.servoOvr]
  split
  next hb => exact Nat.succ_lt_succ (h.resolve_left (by rw [hb]; decide))
  next => decide

theorem tb0_servoCounted {n g : Nat} : ((s.offsetShown off).servoCounted n g).tb0 = s.tb0 := by
  have h1 : ((s.offsetShown off).servoCounted n g).time.tb0s = s.time.tb0s := rfl
  have h2 : ((s.offsetShown off).servoCounted n g).time.tb0n = s.time.tb0n := rfl
  rw [State.tb0, State.tb0, h1, h2]

/-- One computation of the servo, before TB0 is found LOCKED. -/
theorem servo_unlocked (hw : s.regsWf = true) {t : State} {n g : Nat} (ht : ((s.offsetShown off).servoCounted n g).servoActs off n = t) :
    Frame [.free, .regs, .recd, .time] [.reg R.timeOffset, .reg R.timeSteps, .reg R.timeRate] s t ∧ t.rd R.timeOffset = sat32 off ∧
    t.time.tb1 = s.time.tb1 ∧ t.time.t21 = s.time.t21 ∧
    (3 ≤ n → t.time.ovr = 0 ∧ t.time.tb0s = BitVec.ofNat 64 ((max (s.tb0 - off) 0).toNat / 1000000000) ∧
      t.time.tb0n = (max (s.tb0 - off) 0).toNat % 1000000000 ∧ (t.rd R.timeSteps).toNat = satAdd 32 (s.rd R.timeSteps).toNat 1) ∧
    (n < 3 → t.time.tb0s = s.time.tb0s ∧ t.time.tb0n = s.time.tb0n ∧ t.rd R.timeSteps = s.rd R.timeSteps) := by
  subst ht
  have h1 : Frame [.regs] [.reg R.timeOffset] s (s.offsetShown off) := .wr
  have hw1 : (s.offsetShown off).regsWf = true := h1.canon hw
  have hw2 : ((s.offsetShown off).servoCounted n g).regsWf = true := hw1
  have h3 := frame_servoActs (s := (s.offsetShown off).servoCounted n g) (off := off) (n := n)
  obtain ⟨g1, -, g3, g4, g5⟩ := servoActs_shows (off := off) hw2 (n := n)
  have hst : ((s.offsetShown off).servoCounted n g).rd R.timeSteps = s.rd R.timeSteps := h1.rd hw
  rw [hst, tb0_servoCounted] at g4
  rw [hst] at g5
  refine ⟨h1.sub.trans <| Frame.trans .time h3.sub, ?_, g1, g3, g4, g5⟩
  rw [h3.rd hw2]
  exact rd_wr_self hw

theorem servo_serves (hw : s.regsWf = true) : Served off s (s.servo off) := by
  have h1 : Frame [.regs] [.reg R.timeOffset] s (s.offsetShown off) := .wr
  have hst : (s.offsetShown off).tb0State = s.tb0State := h1.fget hw
  by_cases hn : s.tb0State = tbAcquiring ∨ s.tb0State = tbLocked
  · obtain ⟨t, ht⟩ : ∃ t, ((s.offsetShown off).servoCounted (s.servoOvr off) (s.servoGood off)).servoActs off (s.servoOvr off) = t := ⟨_, rfl⟩
    obtain ⟨g0, g1, g2, g3, g4, g5⟩ := servo_unlocked hw ht
    have hw2 := g0.canon hw
    have hb : (s.offsetShown off).servoOvr off = s.servoOvr off := rfl
    have hgd : (s.offsetShown off).servoGood off = s.servoGood off := rfl
    have hss : t.tb0State = s.tb0State := g0.fget hw
    rw [servo_steers (hst ▸ hn), hst, hb, hgd, ht]
    by_cases hl : s.tb0State = tbAcquiring ∧ s.servoGood off ≥ 16
    · rw [if_pos hl]
      have hfl := frame_servoLocks (s := t)
      have hg : off.natAbs ≤ 1000 ∧ 15 ≤ s.time.good := by
        have := hl.2
        rw [State.servoGood] at this
        split at this <;> omega
      refine ⟨g0.sub.trans hfl.sub, by rw [hfl.rd hw2, g1], g2, g3, fun e1 e2 => (hn.elim e1 e2).elim, fun _ h2 h3 => ?_, fun h => ?_,
        fun _ _ _ => ⟨?_, ?_, rfl⟩, fun _ h2 => absurd h2 (by omega)⟩
      · obtain ⟨e1, e2, e3, e4⟩ := g4 (by rw [servoOvr_beyond h2]; omega)
        exact ⟨e1, e2, e3, by rw [hfl.rd hw2, e4]⟩
      · obtain ⟨e1, e2, e3⟩ := g5 (servoOvr_lt h)
        exact ⟨e1, e2, by rw [hfl.rd hw2, e3]⟩
      · have hx : Frame [.regs, .time] [.reg R.timeTb0Err] (t.fset F.timeStatus_tb0State tbLocked) t.servoLocks := Frame.after .time .wr
        exact (hx.fget (regsWf_fset hw2)).trans (fget_fset hw2 (by decide))
      · exact rd_wr_self (regsWf_fset hw2)
    · rw [if_neg hl]
      refine ⟨g0.sub, g1, g2, g3, fun e1 e2 => (hn.elim e1 e2).elim, fun _ h2 h3 => g4 (by rw [servoOvr_beyond h2]; omega), fun h => g5 (servoOvr_lt h), fun e h2 h3 => absurd ⟨e, ?_⟩ hl,
        fun e _ => hss.trans e⟩
      rw [State.servoGood, if_pos h2]
      omega
  · have hn1 := not_or.mp hn
    rw [servo_rests (by rw [hst]; exact hn1.1) (by rw [hst]; exact hn1.2)]
    exact ⟨h1.sub, rd_wr_self hw, rfl, rfl, fun _ _ => rfl, fun e => absurd e hn, fun _ => ⟨rfl, rfl, h1.rd hw⟩, fun e => absurd (.inl e) hn,
      fun e => absurd (.inl e) hn⟩

/-! The messages of a SLAVE (R361, R362). -/

/-- A Sync of the parent counted, with the time that its way took. -/
def State.syncTaken (s : State) (p : Fin 2) (fast : Bool) (t21 : Int) : State :=
  { (s.ptpSpeed p.val fast).bump (R.timePpSyncRx p.val) with
    time := { ((s.ptpSpeed p.val fast).bump (R.timePpSyncRx p.val)).time with t21 := some t21 } }

theorem frame_syncTaken {x : Int} : Frame [.regs, .time] (.reg (R.timePpSyncRx p.val) :: speedPlaces p) s (s.syncTaken p fast x) := by
  have h1 := frame_ptpSpeed (s := s) (p := p) (fast := fast)
  fin_cases p
  · exact Frame.after .time <| Frame.after .bump h1.sub
  · exact Frame.after .time <| Frame.after .bump h1.sub

theorem exec_ptpSyncRx_taken {src : W64} {port : Nat} {logInt origin corr : Int} (hw : s.regsWf = true)
    (hs : s.fget (F.timePpStatus_pstate p.val) ≠ 0) (hf : s.fbit F.pwrStatus_firstSec = false) (hp : s.time.parent = some (p.val, a))
    (h1 : a.src = src) (h2 : a.port = port) (h3 : -4 ≤ logInt) (h4 : logInt ≤ 1) :
    exec (.ptpSyncRx p src port logInt origin corr fast) s = .next ((s.syncTaken p fast (s.tb0 - ingress fast - origin - corr)).servo
      (s.tb0 - ingress fast - origin - corr - (s.rd R.timePathDelay).toNat)) := by
  have hd : ((s.ptpSpeed p.val fast).bump (R.timePpSyncRx p.val)).rd R.timePathDelay = s.rd R.timePathDelay := by
    have hfr : Frame [.regs] (.reg (R.timePpSyncRx p.val) :: speedPlaces p) s ((s.ptpSpeed p.val fast).bump (R.timePpSyncRx p.val)) := by
      have h1 := frame_ptpSpeed (s := s) (p := p) (fast := fast)
      fin_cases p
      · exact Frame.after .bump h1.sub
      · exact Frame.after .bump h1.sub
    exact hfr.rd hw (by fin_cases p <;> rfl)
  rw [exec_ptpSyncRx, execPtpSyncRx, ptpTake_takes hw hs hf]
  dsimp only
  rw [hp]
  dsimp only
  rw [if_neg (by decide), if_neg (by rw [h1, h2]; simp), if_neg (by omega), State.pathDelay, hd]
  rfl

theorem exec_delayReqSend_slave (hs : s.fget (F.timePpStatus_pstate p.val) = 9) (hp : s.time.parent = some (p.val, a)) : exec (.delayReqSend p) s =
    .next (({ s with time := { s.time with t3 := some (s.tb0 + (s.rd (R.timePpTxCorr p.val)).toNat) } } : State).emit (.ptp p.val a.udp .delayReq)) := by
  rw [exec_delayReqSend, execDelayReqSend, hp]
  refine when_pos ?_
  rw [State.ptpState, hs]
  simp [ptpSlave]

theorem exec_ptpDelayRespRx_taken {src : W64} {port : Nat} {recv corr x y : Int} (hw : s.regsWf = true)
    (hs : s.fget (F.timePpStatus_pstate p.val) ≠ 0) (hf : s.fbit F.pwrStatus_firstSec = false) (hp : s.time.parent = some (p.val, a))
    (h1 : a.src = src) (h2 : a.port = port) (hx : s.time.t21 = some x) (hy : s.time.t3 = some y) :
    exec (.ptpDelayRespRx p src port recv corr fast) s = .next (({ s.ptpSpeed p.val fast with
      time := { (s.ptpSpeed p.val fast).time with t3 := none } } : State).wr R.timePathDelay (BitVec.ofNat 32 (max ((x + (recv - corr - y)) / 2) 0).toNat)) := by
  rw [exec_ptpDelayRespRx, execPtpDelayRespRx, ptpTake_takes hw hs hf]
  dsimp only
  rw [if_neg (by decide), hp, hx, hy]
  refine when_pos ?_
  rw [h1, h2]
  simp

theorem time_syncTaken {x : Int} : (s.syncTaken p fast x).time = { s.time with t21 := some x } := by
  have h : ((s.ptpSpeed p.val fast).bump (R.timePpSyncRx p.val)).time = s.time := rfl
  rw [State.syncTaken, h]

theorem tb0_of_time (h1 : t.time.tb0s = s.time.tb0s) (h2 : t.time.tb0n = s.time.tb0n) : t.tb0 = s.tb0 := by
  rw [State.tb0, State.tb0, h1, h2]

theorem offBeyond_syncTaken {x : Int} : (s.syncTaken p fast x).offBeyond off = s.offBeyond off := by
  have h : (s.syncTaken p fast x).aget F.timeServoCfg_stepMs = s.aget F.timeServoCfg_stepMs := rfl
  rw [State.offBeyond, State.offBeyond, h]

/-- What the messages of the parent come to. -/
theorem slave_clauses (p : Fin 2) (src : W64) (port : Nat) (fast : Bool) (s : State) (a : Announce) (hw : s.regsWf = true)
    (hs : s.fget (F.timePpStatus_pstate p.val) ≠ 0) (hf : s.fbit F.pwrStatus_firstSec = false) (hp : s.time.parent = some (p.val, a))
    (h1 : a.src = src) (h2 : a.port = port) (logInt origin corr : Int) (h3 : -4 ≤ logInt) (h4 : logInt ≤ 1) :
    ∃ t, exec (.ptpSyncRx p src port logInt origin corr fast) s = .next t ∧
      Served (s.tb0 - ingress fast - origin - corr - (s.rd R.timePathDelay).toNat) (s.syncTaken p fast (s.tb0 - ingress fast - origin - corr)) t ∧
      (t.rd (R.timePpSyncRx p.val)).toNat = satAdd 32 (s.rd (R.timePpSyncRx p.val)).toNat 1 := by
  have hfr := frame_syncTaken (s := s) (p := p) (fast := fast) (x := s.tb0 - ingress fast - origin - corr)
  have hv := servo_serves (off := s.tb0 - ingress fast - origin - corr - (s.rd R.timePathDelay).toNat) (hfr.canon hw)
  refine ⟨_, exec_ptpSyncRx_taken hw hs hf hp h1 h2 h3 h4, hv, ?_⟩
  rw [hv.frame.rd (hfr.canon hw) (by fin_cases p <;> rfl)]
  have hsp := frame_ptpSpeed (s := s) (p := p) (fast := fast)
  exact (toNat_rd_bump (hsp.canon hw)).trans (by rw [hsp.rd hw (by fin_cases p <;> rfl)])

/-! The parent (R359, R360, R363). -/

/-- The states that the algorithm gives the ports. -/
def State.ptpStates (s : State) : List Nat := [s.ptpDecide 0, s.ptpDecide 1]

/-- The port that becomes SLAVE. -/
def State.nextSlave (s : State) : Option Nat := s.ptpStates.findIdx? (· == ptpSlave)

/-- The parent that the algorithm gives. -/
def State.nextParent (s : State) : Option (Nat × Announce) := s.nextSlave.bind (fun p => (vget s.time.ptp p).best.map (fun a => (p, a)))

/-- Whether the parent stays. -/
def sameParent (x y : Option (Nat × Announce)) : Bool := match x, y with
  | some (p, a), some (q, b) => p == q && a.src == b.src && a.port == b.port
  | none, none => true
  | _, _ => false

/-- The states of the ports shown. -/
def State.portsShown (s : State) (states : List Nat) (slave : Option Nat) : State :=
  let s := (s.fset (F.timePpStatus_pstate 0) (states.getD 0 0)).fset (F.timePpStatus_pstate 1) (states.getD 1 0)
  ((s.fsetb F.timeStatus_hasSlave slave.isSome).fset F.timeStatus_slavePort (slave.getD 0)).fsetb
    F.timeStatus_masterAny (states.contains ptpMaster)

/-- A parent that goes or changes. -/
def State.parentChanged (s : State) : State := s.parentLost.bump R.timeMasterChg

/-- The parent set and shown. -/
def State.parentShown (s : State) (parent : Option (Nat × Announce)) : State :=
  ({ s with time := { s.time with parent := parent } } : State).wr64 R.timeParentLo (parent.elim 0 (fun x => x.2.src))

theorem ptpUpdate_eq : s.ptpUpdate = (if sameParent s.time.parent s.nextParent then s.portsShown s.ptpStates s.nextSlave
    else (s.portsShown s.ptpStates s.nextSlave).parentChanged).parentShown s.nextParent := by
  unfold State.ptpUpdate
  extract_lets states slave parent same s1 s2 s3 _ s4
  have h4 : ∀ x, x = parent → (match x with
    | some (_, a) => s4.wr64 R.timeParentLo a.src
    | none => s4.wr64 R.timeParentLo 0) = s4.wr64 R.timeParentLo (x.elim 0 (fun x => x.2.src)) := fun x _ => by cases x <;> rfl
  exact h4 parent rfl

theorem frame_portsShown {l : List Nat} {x : Option Nat} : Frame [.regs] [.reg (R.timePpStatus 0), .reg (R.timePpStatus 1),
    .fld F.timeStatus_hasSlave, .fld F.timeStatus_slavePort, .fld F.timeStatus_masterAny] s (s.portsShown l x) :=
  Frame.after .fsetb <| Frame.after .fset <| Frame.after .fsetb <| Frame.after .fset .fset

abbrev lostPlaces : List Rect := [.fld F.timeStatus_tb0State, .reg R.timeRate, .reg R.timeHoldS, .reg R.timeTb0Err]

theorem frame_parentLost_own : Frame [.regs, .time] lostPlaces s s.parentLost :=
  Frame.after Frame.time <| Frame.ite (Frame.after Frame.wr <| Frame.after Frame.time <|
    Frame.after (frame_setRate ..).sub <| Frame.fset) (Frame.ite (Frame.ite (Frame.after Frame.wr <|
    Frame.after Frame.time <| Frame.after (frame_setRate ..).sub <| Frame.fset) (Frame.after Frame.wr <|
    Frame.after (frame_setRate ..).sub <| Frame.fset)) (Frame.refl _))

abbrev updatePlaces : List Rect := [.reg (R.timePpStatus 0), .reg (R.timePpStatus 1), .reg R.timeStatus, .reg R.timeRate,
  .reg R.timeHoldS, .reg R.timeTb0Err, .reg R.timeMasterChg, .reg R.timeParentLo, .reg R.timeParentHi]

theorem frame_parentShown {x : Option (Nat × Announce)} : Frame [.regs, .time] [.reg R.timeParentLo, .reg R.timeParentHi] s (s.parentShown x) :=
  Frame.after .wr64 .time

theorem frame_ptpUpdate_own : Frame [.regs, .time] updatePlaces s s.ptpUpdate := by
  rw [ptpUpdate_eq]
  have h1 := frame_portsShown (s := s) (l := s.ptpStates) (x := s.nextSlave)
  exact Frame.after frame_parentShown.sub <| Frame.ite h1.sub <| Frame.after Frame.bump <| Frame.after frame_parentLost_own.sub h1.sub

/-- What a loss of the parent leaves of the ports and of the bases. -/
theorem time_parentLost : s.parentLost.time = { s.time with rates := s.parentLost.time.rates, ovr := 0, good := 0, t21 := none, t3 := none } := by
  unfold State.parentLost
  extract_lets st rate hold v
  have hh : ∀ u : State, (hold u).time = { u.time with rates := (hold u).time.rates } := fun u => by
    dsimp only [hold]
    rw [time_setRate]
    rfl
  have hv : v.time = { s.time with rates := v.time.rates } := by
    dsimp only [v]
    split
    · exact hh s
    · split
      · split
        · exact hh s
        · exact time_setRate (s := s.fset F.timeStatus_tb0State tbFreerun)
      · rfl
  exact congrArg (fun x : TimeS => { x with rates := v.time.rates, ovr := 0, good := 0, t21 := none, t3 := none }) hv

theorem ptpUpdate_ports : s.ptpUpdate.time.ptp = s.time.ptp ∧ s.ptpUpdate.time.parent = s.nextParent := by
  rw [ptpUpdate_eq]
  have h1 : (s.portsShown s.ptpStates s.nextSlave).time = s.time := frame_portsShown.part .time (by decide)
  have h2 : (s.portsShown s.ptpStates s.nextSlave).parentChanged.time.ptp = s.time.ptp := by
    have h : (s.portsShown s.ptpStates s.nextSlave).parentChanged.time = (s.portsShown s.ptpStates s.nextSlave).parentLost.time := rfl
    rw [h, time_parentLost, h1]
  have hp : ∀ (u : State) x, (u.parentShown x).time.ptp = u.time.ptp := fun _ _ => rfl
  refine ⟨?_, rfl⟩
  rw [hp]
  split
  · exact congrArg TimeS.ptp h1
  · exact h2

/-! Announces, timeouts and losses (R359, R363). -/

/-- A data set noted for a port. -/
def State.bestNoted (s : State) (p : Nat) (x : PtpPort) : State := { s with time := { s.time with ptp := vset s.time.ptp p x } }

theorem exec_ptpAnnounceRx_other (hw : s.regsWf = true) (hs : s.fget (F.timePpStatus_pstate p.val) ≠ 0)
    (hf : s.fbit F.pwrStatus_firstSec = false) (hd : a.domain ≠ s.aget F.timePtpCfg_domain) :
    exec (.ptpAnnounceRx p a fast) s = .next (s.ptpSpeed p.val fast) := by
  rw [exec_ptpAnnounceRx, execPtpAnnounceRx, ptpTake_takes hw hs hf]
  dsimp only
  rw [if_neg (by decide), if_pos hd]

/-- The first data set of a port, and the parent that follows. -/
def State.announced (s : State) (p : Nat) (a : Announce) : State :=
  let t := (s.bestNoted p { best := some a, timedOut := false }).ptpUpdate
  if t.time.parent = some (p, a) then t.takeUtc a else t

theorem exec_ptpAnnounceRx_first (hw : s.regsWf = true) (hs : s.fget (F.timePpStatus_pstate p.val) ≠ 0)
    (hf : s.fbit F.pwrStatus_firstSec = false) (hd : a.domain = s.aget F.timePtpCfg_domain) (hb : (vget s.time.ptp p.val).best = none) :
    exec (.ptpAnnounceRx p a fast) s = .next ((s.ptpSpeed p.val fast).announced p.val a) := by
  have ht : (vget (s.ptpSpeed p.val fast).time.ptp p.val).best = none := by rw [frame_ptpSpeed.part .time (by decide), hb]
  have hm : ∀ t : State, ((match t.time.parent with
      | some (q, b) => .next (if q = p.val ∧ b = a then t.takeUtc a else t)
      | none => .next t) : Res) = .next (if t.time.parent = some (p.val, a) then t.takeUtc a else t) := fun t => by
    rcases t.time.parent with _ | ⟨q, b⟩
    · rfl
    · simp only [Option.some.injEq, Prod.mk.injEq]
  rw [exec_ptpAnnounceRx, execPtpAnnounceRx, ptpTake_takes hw hs hf]
  dsimp only
  rw [if_neg (by decide), if_neg (not_not.mpr hd), ht]
  exact hm _

theorem takeUtc_shows (hw : s.regsWf = true) : (s.takeUtc a).fget F.timeUtc_offset = a.utc.toNat ∧ (s.takeUtc a).fbit F.timeUtc_fromPtp = true := by
  have hu := a.utc.isLt
  have h1 : bit a.utcValid < 2 := by cases a.utcValid <;> decide
  have h2 : bit a.leap61 < 2 := by cases a.leap61 <;> decide
  have h3 : bit a.leap59 < 2 := by cases a.leap59 <;> decide
  have hr : (s.takeUtc a).rd R.timeUtc = BitVec.ofNat 32 (a.utc.toNat + bit a.utcValid * 2 ^ 16 + bit a.leap61 * 2 ^ 17 + bit a.leap59 * 2 ^ 18 + 2 ^ 19) :=
    rd_wr_self hw
  have hn : ((s.takeUtc a).rd R.timeUtc).toNat = a.utc.toNat + bit a.utcValid * 2 ^ 16 + bit a.leap61 * 2 ^ 17 + bit a.leap59 * 2 ^ 18 + 2 ^ 19 := by
    rw [hr, BitVec.toNat_ofNat]
    exact Nat.mod_eq_of_lt (by omega)
  constructor
  · have e : (s.takeUtc a).fget F.timeUtc_offset = ((s.takeUtc a).rd R.timeUtc).toNat / 2 ^ 0 % 2 ^ 16 := rfl
    rw [e, hn]
    omega
  · have e : (s.takeUtc a).fget F.timeUtc_fromPtp = ((s.takeUtc a).rd R.timeUtc).toNat / 2 ^ 19 % 2 ^ 1 := rfl
    rw [State.fbit, e, hn, beq_iff_eq]
    omega

theorem announced_shows {q : Nat} (hw : s.regsWf = true) (hq : q < 2) : (vget (s.announced q a).time.ptp q).best = some a ∧
    (vget (s.announced q a).time.ptp q).timedOut = false ∧ (s.announced q a).mem = s.mem ∧
    ((s.announced q a).time.parent = some (q, a) →
      (s.announced q a).fget F.timeUtc_offset = a.utc.toNat ∧ (s.announced q a).fbit F.timeUtc_fromPtp = true) := by
  have h1 : Frame [.time] [] s (s.bestNoted q { best := some a, timedOut := false }) := .time
  have h2 := frame_ptpUpdate_own (s := s.bestNoted q { best := some a, timedOut := false })
  obtain ⟨hp, -⟩ := ptpUpdate_ports (s := s.bestNoted q { best := some a, timedOut := false })
  have hv : vget (s.bestNoted q { best := some a, timedOut := false }).ptpUpdate.time.ptp q = { best := some a, timedOut := false } := by
    rw [hp]
    exact vget_vset_self hq
  have hm : (s.bestNoted q { best := some a, timedOut := false }).ptpUpdate.mem = s.mem := (h2.part .mem (by decide)).trans (h1.part .mem (by decide))
  have hw2 := h2.canon (h1.canon hw)
  unfold State.announced
  generalize (s.bestNoted q { best := some a, timedOut := false }).ptpUpdate = t at *
  dsimp only
  by_cases h : t.time.parent = some (q, a)
  · rw [if_pos h]
    exact ⟨congrArg PtpPort.best hv, congrArg PtpPort.timedOut hv, hm, fun _ => takeUtc_shows hw2⟩
  · rw [if_neg h]
    exact ⟨congrArg PtpPort.best hv, congrArg PtpPort.timedOut hv, hm, fun e => absurd e h⟩

/-- With no foreign master on any port none is SLAVE, and there is no parent. -/
theorem ptpDecide_alone {q : Nat} (h : s.ptpBest = none) : s.ptpDecide q ≠ ptpSlave := by
  unfold State.ptpDecide
  extract_lets master alone
  have hm : master ≠ ptpSlave := by
    dsimp only [master]
    split <;> decide
  have ha : alone ≠ ptpSlave := by
    dsimp only [alone]
    split
    · exact hm
    · decide
  split
  · decide
  · rw [h]
    exact ha

theorem ptpBest_none (h0 : (vget s.time.ptp 0).best = none) (h1 : (vget s.time.ptp 1).best = none) : s.ptpBest = none := by
  unfold State.ptpBest
  simp only [h0, h1, Option.map_none, ite_self]

theorem nextParent_none (h : s.ptpBest = none) : s.nextSlave = none ∧ s.nextParent = none := by
  have hn : s.nextSlave = none := by
    rw [State.nextSlave, State.ptpStates, List.findIdx?_eq_none_iff]
    intro x hx
    rw [beq_eq_false_iff_ne]
    rcases List.mem_cons.mp hx with rfl | hx
    · exact ptpDecide_alone h
    · rw [List.mem_singleton.mp hx]
      exact ptpDecide_alone h
  exact ⟨hn, by rw [State.nextParent, hn]; rfl⟩

/-- A lost parent: TB0 in HOLDOVER where it was LOCKED, and in FREERUN where it never was. -/
theorem parentLost_shows (hw : s.regsWf = true) : (s.tb0State = tbLocked → s.parentLost.tb0State = tbHoldover ∧ s.parentLost.rd R.timeHoldS = 0) ∧
    (s.tb0State = tbAcquiring → s.time.everLocked = false → s.parentLost.tb0State = tbFreerun) := by
  unfold State.parentLost
  extract_lets st rate hold v
  have hf : ∀ u : State, Frame [.regs, .time] [.reg R.timeRate] (u.fset F.timeStatus_tb0State tbHoldover) (hold u) := fun u =>
    Frame.after .time (frame_setRate ..).sub
  refine ⟨fun h => ?_, fun h he => ?_⟩
  · have hv : v = (hold s).wr R.timeHoldS 0 := if_pos h
    have hw1 := (hf s).canon (regsWf_fset hw)
    have hx : Frame [.regs, .time] [.reg R.timeHoldS] (hold s) { v with time := { v.time with ovr := 0, good := 0, t21 := none, t3 := none } } := by
      rw [hv]
      exact Frame.after .time .wr
    refine ⟨?_, ?_⟩
    · rw [State.tb0State, hx.fget hw1, (hf s).fget (regsWf_fset hw), fget_fset hw (by decide)]
      rfl
    · have hr : v.rd R.timeHoldS = 0 := by rw [hv, rd_wr_self hw1]
      exact hr
  · have hv : v = ((s.fset F.timeStatus_tb0State tbFreerun).setRate 0).wr R.timeTb0Err 0xFFFFFFFF := by
      dsimp only [v]
      rw [if_neg (by rw [show st = tbAcquiring from h]; decide), if_pos h, if_neg (by rw [he]; decide)]
    have hx : Frame [.regs, .time] [.reg R.timeRate, .reg R.timeTb0Err] (s.fset F.timeStatus_tb0State tbFreerun)
        { v with time := { v.time with ovr := 0, good := 0, t21 := none, t3 := none } } := by
      rw [hv]
      exact Frame.after .time <| Frame.after .wr (frame_setRate ..).sub
    rw [State.tb0State, hx.fget (regsWf_fset hw), fget_fset hw (by decide)]
    rfl

/-! The commands. -/

theorem exec_announceTimeout_runs (h : s.fget (F.timePpStatus_pstate p.val) ≠ 0) : exec (.announceTimeout p) s =
    .next ((s.bump (R.timePpAnnTo p.val)).bestNoted p.val { best := none, timedOut := true }).ptpUpdate :=
  when_pos (bne_iff_ne.mpr h)

theorem exec_syncLoss_parent {q : Nat} (h : s.time.parent = some (q, a)) : exec .syncLoss s = .next (s.bestNoted q {}).ptpUpdate := by
  rw [exec_syncLoss, execSyncLoss, h]
  rfl

/-- No foreign master is left: the parent is gone. -/
theorem syncLoss_shows {q : Nat} (hw : s.regsWf = true) (hp : s.time.parent = some (q, a)) (hb : (s.bestNoted q {}).ptpBest = none) :
    (s.bestNoted q {}).ptpUpdate.time.parent = none ∧
    ((s.bestNoted q {}).ptpUpdate.rd R.timeMasterChg).toNat = satAdd 32 (s.rd R.timeMasterChg).toNat 1 ∧
    (s.bestNoted q {}).ptpUpdate.rd64 R.timeParentLo = 0 ∧ (s.bestNoted q {}).ptpUpdate.fbit F.timeStatus_hasSlave = false ∧
    (s.fget F.timeStatus_tb0State = 2 → (s.bestNoted q {}).ptpUpdate.fget F.timeStatus_tb0State = 3 ∧
      (s.bestNoted q {}).ptpUpdate.rd R.timeHoldS = 0) ∧
    (s.fget F.timeStatus_tb0State = 1 → s.time.everLocked = false → (s.bestNoted q {}).ptpUpdate.fget F.timeStatus_tb0State = 0) := by
  obtain ⟨hn, hnp⟩ := nextParent_none hb
  have hsame : sameParent (s.bestNoted q {}).time.parent none = false := by
    rw [show (s.bestNoted q {}).time.parent = s.time.parent from rfl, hp]
    rfl
  rw [ptpUpdate_eq, hnp, hsame, if_neg Bool.false_ne_true, hn]
  have hw0 : (s.bestNoted q {}).regsWf = true := hw
  have h1 := frame_portsShown (s := s.bestNoted q {}) (l := (s.bestNoted q {}).ptpStates) (x := none)
  have hw1 := h1.canon hw0
  have ht1 : ((s.bestNoted q {}).portsShown (s.bestNoted q {}).ptpStates none).time = (s.bestNoted q {}).time := h1.part .time (by decide)
  have hs1 : ((s.bestNoted q {}).portsShown (s.bestNoted q {}).ptpStates none).tb0State = s.tb0State := h1.fget hw0
  have hc1 : ((s.bestNoted q {}).portsShown (s.bestNoted q {}).ptpStates none).rd R.timeMasterChg = s.rd R.timeMasterChg := h1.rd hw0
  have hh1 : ((s.bestNoted q {}).portsShown (s.bestNoted q {}).ptpStates none).fbit F.timeStatus_hasSlave = false := by
    unfold State.portsShown
    extract_lets v
    have hv : v.regsWf = true := regsWf_fset (regsWf_fset hw0)
    have hx : Frame [.regs] [.fld F.timeStatus_slavePort, .fld F.timeStatus_masterAny] (v.fsetb F.timeStatus_hasSlave (none : Option Nat).isSome)
        (((v.fsetb F.timeStatus_hasSlave (none : Option Nat).isSome).fset F.timeStatus_slavePort ((none : Option Nat).getD 0)).fsetb
          F.timeStatus_masterAny ((s.bestNoted q {}).ptpStates.contains ptpMaster)) := Frame.after .fsetb .fset
    rw [hx.fbit (regsWf_fsetb hv)]
    exact fbit_fsetb hv (by decide) rfl
  have het : (s.bestNoted q {}).time.everLocked = s.time.everLocked := rfl
  rw [← ht1] at het
  generalize (s.bestNoted q {}).portsShown (s.bestNoted q {}).ptpStates none = u at *
  have h2 := frame_parentLost_own (s := u)
  have hw2 := h2.canon hw1
  have hw3 : u.parentChanged.regsWf = true := regsWf_bump hw2
  have h3 : Frame [.regs] [.reg R.timeMasterChg] u.parentLost u.parentChanged := .bump
  have h4 := frame_parentShown (s := u.parentChanged) (x := none)
  obtain ⟨g1, g2⟩ := parentLost_shows hw1
  rw [hs1, het] at g2
  rw [hs1] at g1
  refine ⟨rfl, ?_, rd64_wr64 hw3, ?_, fun h => ⟨?_, ?_⟩, fun h he => ?_⟩
  · rw [h4.rd hw3, ← hc1, ← h2.rd hw1]
    exact toNat_rd_bump hw2
  · rw [h4.fbit hw3, h3.fbit hw2, h2.fbit hw1, hh1]
  · rw [h4.fget hw3, h3.fget hw2]
    exact (g1 h).1
  · rw [h4.rd hw3, h3.rd hw2]
    exact (g1 h).2
  · rw [h4.fget hw3, h3.fget hw2]
    exact g2 h he

theorem exec_masterSyncSend_master (h : s.fget (F.timePpStatus_pstate p.val) = 6) : exec (.masterSyncSend p false) s =
    .next ((s.emit (.ptp p.val false .sync)).emit (.ptp p.val false (.followUp (s.tb0 + (s.rd (R.timePpTxCorr p.val)).toNat)))) :=
  when_pos (beq_iff_eq.mpr h)

theorem exec_masterSyncSend_announce (h : s.fget (F.timePpStatus_pstate p.val) = 6) : exec (.masterSyncSend p true) s =
    .next (s.emit (.ptp p.val false (.announce { s.announceOut with port := p.val + 1 }))) := when_pos (beq_iff_eq.mpr h)

theorem exec_delayReqRx_master {src : W64} {port : Nat} {udp : Bool} (hw : s.regsWf = true) (hf : s.fbit F.pwrStatus_firstSec = false)
    (h : s.fget (F.timePpStatus_pstate p.val) = 6) : exec (.delayReqRx p src port udp fast) s =
    .next ((s.ptpSpeed p.val fast).emit (.ptp p.val udp (.delayResp (s.tb0 - ingress fast) src port))) := by
  have ht := frame_ptpSpeed (s := s) (p := p) (fast := fast) |>.part .time (by decide)
  have hm : (true && s.ptpState p.val == ptpMaster) = true := beq_iff_eq.mpr h
  rw [exec_delayReqRx, execDelayReqRx, ptpTake_takes hw (by rw [h]; decide) hf]
  dsimp only
  rw [if_pos hm, tb0_of_time (congrArg TimeS.tb0s ht) (congrArg TimeS.tb0n ht)]

/-- Settles O29: what a port takes, what the servo does with it, and how the parent follows the ports. -/
theorem ptpServoAndPorts : Obligations.PtpServoAndPorts := by
  refine ⟨fun p src port fast s a hw hs hf hp h1 h2 => ⟨fun logInt origin corr h3 h4 => ?sync, fun h9 => ?request, fun recv corr x y hx hy => ?answer⟩,
    fun p fast s hw => ⟨fun hs hf a => ⟨fun hd => ?other, fun hd hb => ?first⟩, fun hs => ?timeout, fun a hp hq => ?loss, fun hp => ?noLoss,
      fun hc => ?enable, fun h6 => ?master⟩⟩
  case sync =>
    obtain ⟨t, hex, hv, hc⟩ := slave_clauses p src port fast s a hw hs hf hp h1 h2 logInt origin corr h3 h4
    have hfr := frame_syncTaken (s := s) (p := p) (fast := fast) (x := s.tb0 - ingress fast - origin - corr)
    have hst : (s.syncTaken p fast (s.tb0 - ingress fast - origin - corr)).tb0State = s.fget F.timeStatus_tb0State :=
      hfr.fget hw (by fin_cases p <;> rfl)
    have hsteps : (s.syncTaken p fast (s.tb0 - ingress fast - origin - corr)).rd R.timeSteps = s.rd R.timeSteps := hfr.rd hw (by fin_cases p <;> rfl)
    obtain ⟨f0, f1, f2, f3, f4, f5, f6, f7, f8⟩ := hv
    have htb : (s.syncTaken p fast (s.tb0 - ingress fast - origin - corr)).tb0 = s.tb0 :=
      tb0_of_time (by rw [time_syncTaken]) (by rw [time_syncTaken])
    rw [hst, offBeyond_syncTaken, htb, hsteps, time_syncTaken] at f5
    rw [hst, time_syncTaken] at f4 f7 f8
    rw [offBeyond_syncTaken, time_syncTaken, hsteps] at f6
    rw [time_syncTaken] at f2 f3
    have hmem : t.mem = s.mem := (f0.part .mem (by decide)).trans (hfr.part .mem (by decide))
    dsimp only
    generalize s.tb0 - ingress fast - origin - corr - (s.rd R.timePathDelay).toNat = off at *
    have hby : s.offBeyond off = true ↔ off.natAbs > s.aget F.timeServoCfg_stepMs * 1000000 := decide_eq_true_iff
    refine ⟨t, hex, f3, f1, f2, hmem, hc, f4, fun h hb ho hn => ?_, fun h => f6 (h.imp_left fun hb => ?_), f7, f8⟩
    · have h5 := f5 h (hby.mpr hb) ho
      rwa [max_eq_left hn] at h5
    · exact eq_false_of_ne_true fun e => hb (hby.mp e)
  case request =>
    exact ⟨_, exec_delayReqSend_slave h9 hp, rfl, rfl, rfl⟩
  case answer =>
    have h := frame_ptpSpeed (s := s) (p := p) (fast := fast)
    have hw1 : ({ s.ptpSpeed p.val fast with time := { (s.ptpSpeed p.val fast).time with t3 := none } } : State).regsWf = true := h.canon hw
    have hd : (max ((x + (recv - corr - y)) / 2) 0).toNat = ((x + (recv - corr - y)) / 2).toNat := by omega
    have hall : Frame [.regs, .time] (.reg R.timePathDelay :: speedPlaces p) s (({ s.ptpSpeed p.val fast with
        time := { (s.ptpSpeed p.val fast).time with t3 := none } } : State).wr R.timePathDelay
        (BitVec.ofNat 32 (max ((x + (recv - corr - y)) / 2) 0).toNat)) := Frame.after (.wr (by fin_cases p <;> rfl)) <| Frame.after .time (h.sub rfl (by fin_cases p <;> rfl))
    refine ⟨_, exec_ptpDelayRespRx_taken hw hs hf hp h1 h2 hx hy, ?_, rfl, hall.keepsRegs hw (by fin_cases p <;> rfl)⟩
    rw [rd_wr_self hw1, hd]
  case other =>
    have h := frame_ptpSpeed (s := s) (p := p) (fast := fast)
    exact ⟨_, exec_ptpAnnounceRx_other hw hs hf hd, h.onlyRegs hw (by fin_cases p <;> rfl)⟩
  case first =>
    have h := frame_ptpSpeed (s := s) (p := p) (fast := fast)
    obtain ⟨g1, g2, g3, g4⟩ := announced_shows (a := a) (q := p.val) (h.canon hw) p.isLt
    exact ⟨_, exec_ptpAnnounceRx_first hw hs hf hd hb, g1, g2, g3.trans (h.part .mem (by decide)), g4⟩
  case timeout =>
    have h := frame_ptpUpdate_own (s := (s.bump (R.timePpAnnTo p.val)).bestNoted p.val { best := none, timedOut := true })
    have hw1 : (s.bump (R.timePpAnnTo p.val)).regsWf = true := regsWf_bump hw
    refine ⟨_, exec_announceTimeout_runs hs, ?_, ?_⟩
    · rw [h.rd hw1 (by fin_cases p <;> rfl)]
      exact toNat_rd_bump hw
    · rw [(ptpUpdate_ports).1]
      exact vget_vset_self p.isLt
  case loss =>
    have hb : (s.bestNoted p.val {}).ptpBest = none := by
      have hv : ∀ q : Fin 2, (vget (s.bestNoted p.val {}).time.ptp q.val).best = none := fun q => by
        by_cases e : q = p
        · rw [e]
          exact congrArg PtpPort.best (vget_vset_self p.isLt)
        · exact (congrArg PtpPort.best (vget_vset_ne fun h => e (Fin.ext h))).trans (hq q e)
      exact ptpBest_none (hv 0) (hv 1)
    obtain ⟨g1, g2, g3, g4, g5, g6⟩ := syncLoss_shows hw hp hb
    refine ⟨_, exec_syncLoss_parent hp, g1, ?_, g2, g3, g4, g5, g6⟩
    rw [(ptpUpdate_ports).1]
    exact congrArg PtpPort.best (vget_vset_self p.isLt)
  case noLoss =>
    rw [exec_syncLoss, execSyncLoss, hp]
  case enable =>
    have h := frame_ptpUpdate_own (s := { s with power := { s.power with ptpMaster := true } })
    exact ⟨_, when_pos hc, h.part .power (by decide), h.part .mem (by decide)⟩
  case master =>
    have h := frame_ptpSpeed (s := s) (p := p) (fast := fast)
    have ht : (s.ptpSpeed p.val fast).time = s.time := h.part .time (by decide)
    refine ⟨(exec_masterSyncSend_master h6).trans ?_, ⟨_, exec_masterSyncSend_announce h6, rfl, fun hp => ?_⟩, fun hf src port udp => ⟨_,
      exec_delayReqRx_master hw hf h6, ?_, ht⟩⟩
    · rw [State.emit, State.emit, List.append_assoc]
      rfl
    · rw [State.announceOut, hp]
      exact ⟨rfl, rfl, rfl⟩
    · rw [State.emit, h.part .out (by decide)]

end Sys2Proof.Machine
end

section
/-! Repair of memory: blocks written whole, the windows that wait for them, scrubbing and fuses (R383 to R389, R394, R397). -/

namespace Sys2Proof.Machine

variable {s t u : State} {be i : Fin 32} {blk : Nat} {m : Mem}

/-! Memory written by whole words (R381, R384). -/

theorem byte_writeWords_whole (n a x : Nat) (bs : List Byte) (hm : m.wf = true) (ha : a % 8 = 0) (hl : bs.length % 8 = 0)
    (hn : bs.length ≤ 8 * n) :
    (m.writeWords n a bs).byte x = if a ≤ x ∧ x < a + bs.length then bs.getD (x - a) 0 else m.byte x := by
  induction n generalizing m a bs with
  | zero => rw [if_neg (by omega)]; rfl
  | succ n ih =>
    cases bs with
    | nil => rw [if_neg (by simp only [List.length_nil]; omega)]; rfl
    | cons b r =>
      have e : Mem.writeWords m (n + 1) a (b :: r) =
          Mem.writeWords (m.writeIn a ((b :: r).take (8 - a % 8))) n (a + (8 - a % 8)) ((b :: r).drop (8 - a % 8)) := rfl
      have hp : 8 ≤ (b :: r).length := by
        have : (b :: r).length ≠ 0 := by simp
        omega
      generalize b :: r = bs at *
      rw [e, ha, Nat.sub_zero, ih _ _ (Mem.wf_writeIn _ _ hm) (by omega) (by rw [List.length_drop]; omega) (by rw [List.length_drop]; omega),
        Mem.byte_writeIn _ _ _ hm, List.length_drop, List.length_take, Nat.min_eq_left hp]
      by_cases h1 : a + 8 ≤ x ∧ x < a + 8 + (bs.length - 8)
      · rw [if_pos h1, if_pos (by omega), List.getD_eq_getElem?_getD, List.getD_eq_getElem?_getD, List.getElem?_drop]
        congr 2; omega
      · rw [if_neg h1]
        by_cases h2 : a ≤ x ∧ x < a + 8
        · rw [if_pos ⟨h2, .inl ⟨ha, rfl⟩⟩, if_pos (by omega), List.getD_eq_getElem?_getD, List.getD_eq_getElem?_getD,
            List.getElem?_take_of_lt (by omega)]
        · rw [if_neg (fun h => h2 h.1), if_neg (by omega)]

theorem byte_write_whole (a x : Nat) (bs : List Byte) (hm : m.wf = true) (ha : a % 8 = 0) (hl : bs.length % 8 = 0) :
    (m.write a bs).byte x = if a ≤ x ∧ x < a + bs.length then bs.getD (x - a) 0 else m.byte x :=
  byte_writeWords_whole _ a x bs hm ha hl (by omega)

theorem bad_heal_self (w : Nat) (hm : m.wf = true) : (m.heal w).bad w = false := by
  obtain ⟨-, -, hp, -, hw⟩ := Mem.wf_iff.mp hm
  have h1 : (m.heal w).poison.has w = false := sget_self _ _ _ _ hp
  rw [Mem.bad, h1, Mem.tracks_heal]
  cases ht : m.tracks w with
  | false => rfl
  | true =>
    have h2 : (m.heal w).written.has w = true := by
      rw [Mem.heal, ht]
      exact sget_self _ _ _ _ hw
    rw [h2]; rfl

theorem bad_writeIn_whole (a v : Nat) (bs : List Byte) (hm : m.wf = true) (ha : a % 8 = 0) (hl : bs.length = 8)
    (hv : v = a / 8 ∨ m.bad v = false) : (m.writeIn a bs).bad v = false := by
  rw [Mem.writeIn, if_pos ⟨ha, hl⟩]
  rcases hv with rfl | hv
  · exact bad_heal_self _ (Mem.wf_putBytes bs a hm)
  · exact Mem.bad_heal _ _ (Mem.wf_putBytes bs a hm) (by rw [Mem.bad_putBytes]; exact hv)

theorem bad_writeWords_whole (n a v : Nat) (bs : List Byte) (hm : m.wf = true) (ha : a % 8 = 0) (hl : bs.length % 8 = 0)
    (hn : bs.length ≤ 8 * n) (hv : (a ≤ v * 8 ∧ v * 8 < a + bs.length) ∨ m.bad v = false) : (m.writeWords n a bs).bad v = false := by
  induction n generalizing m a bs with
  | zero => exact hv.resolve_left (by omega)
  | succ n ih =>
    cases bs with
    | nil => exact hv.resolve_left (by simp only [List.length_nil]; omega)
    | cons b r =>
      have e : Mem.writeWords m (n + 1) a (b :: r) =
          Mem.writeWords (m.writeIn a ((b :: r).take (8 - a % 8))) n (a + (8 - a % 8)) ((b :: r).drop (8 - a % 8)) := rfl
      have hp : 8 ≤ (b :: r).length := by
        have : (b :: r).length ≠ 0 := by simp
        omega
      generalize b :: r = bs at *
      rw [e, ha, Nat.sub_zero]
      refine ih _ _ (Mem.wf_writeIn _ _ hm) (by omega) (by rw [List.length_drop]; omega) (by rw [List.length_drop]; omega) ?_
      by_cases h2 : a + 8 ≤ v * 8 ∧ v * 8 < a + 8 + (bs.length - 8)
      · exact .inl (by rw [List.length_drop]; exact h2)
      · refine .inr (bad_writeIn_whole _ _ _ hm ha (by rw [List.length_take]; omega) ?_)
        exact hv.imp_left (fun h => by omega)

/-- Every word of a span of whole words is good once it is written. -/
theorem bad_write_whole (a v : Nat) (bs : List Byte) (hm : m.wf = true) (ha : a % 8 = 0) (hl : bs.length % 8 = 0)
    (hv : a ≤ v * 8 ∧ v * 8 < a + bs.length) : (m.write a bs).bad v = false :=
  bad_writeWords_whole _ a v bs hm ha hl (by omega) (.inl hv)

/-! A block restored, and the windows that wait for it (R386). -/

theorem frame_dropBlockLines (s : State) (off : Nat) : Frame [.brm] [] s (s.dropBlockLines off) := Frame.brm

theorem frame_restoreBlock (s : State) (blk : Nat) (data : List Byte) : Frame [.regs, .mem, .brm] [.fld F.memUeInfo_restored] s
    (s.restoreBlock blk data) :=
  Frame.after (Frame.ite (frame_dropBlockLines ..).sub (Frame.refl _)) <| Frame.after Frame.fset <| Frame.wrMem

theorem mem_restoreBlock (s : State) (blk : Nat) (data : List Byte) : (s.restoreBlock blk data).mem = s.mem.write (blk * 256) data := by
  unfold State.restoreBlock
  dsimp only
  split <;> rfl

theorem winsStand_dropBlockLines (off : Nat) : WinsStand s (s.dropBlockLines off) := by
  refine ⟨fun i => ?_⟩
  rw [State.dru, State.dropBlockLines, Fin.getElem_fin, Vector.getElem_map]
  rfl

theorem winsStand_restoreBlock (s : State) (blk : Nat) (data : List Byte) : WinsStand s (s.restoreBlock blk data) :=
  .after (.ite (winsStand_dropBlockLines _) (.refl _)) (.of_brm rfl)

/-- A block of 256 bytes restored: every byte as given, every word good, and the block shown. -/
theorem restoreBlock_restores {data : List Byte} (hi : s.Inv) (hd : data.length = 256) :
    wrote (blk * 256) data s (s.restoreBlock blk data) ∧ (∀ k < 32, (s.restoreBlock blk data).mem.bad (blk * 32 + k) = false) ∧
      (s.restoreBlock blk data).fbit F.memUeInfo_restored = true := by
  have hm : s.mem.wf = true := hi.1
  refine ⟨fun x => ?_, fun k hk => ?_, ?_⟩
  · rw [mem_restoreBlock, byte_write_whole _ _ _ hm (by omega) (by omega)]
  · rw [mem_restoreBlock]
    exact bad_write_whole _ _ _ hm (by omega) (by omega) (by omega)
  · have h1 : (s.restoreBlock blk data).regs = ((s.wrMem (blk * 256) data).fset F.memUeInfo_restored 1).regs := by
      unfold State.restoreBlock
      dsimp only
      split <;> rfl
    refine (fbit_congr (s := (s.wrMem (blk * 256) data).fset F.memUeInfo_restored 1) (congrArg (fun l => sget regReset l _) h1)).trans ?_
    rw [fbit_fset (s := s.wrMem (blk * 256) data) hi.2 (by decide)]
    rfl

theorem mem_waiters : be ∈ s.waiters blk ↔ (be.val, blk) ∈ s.integ.wanted := by
  refine List.mem_map.trans ⟨?_, fun h => ⟨_, List.mem_filter.mpr ⟨h, ?_⟩, Fin.ext (Nat.mod_eq_of_lt be.isLt)⟩⟩
  · rintro ⟨⟨e, b⟩, h, rfl⟩
    obtain ⟨h, hc⟩ := List.mem_filter.mp h
    obtain ⟨hb, he⟩ := Bool.and_eq_true_iff.mp hc
    obtain rfl : b = blk := beq_iff_eq.mp hb
    rwa [Fin.val_ofNat, Nat.mod_eq_of_lt (of_decide_eq_true he)]
  · exact Bool.and_eq_true_iff.mpr ⟨beq_iff_eq.mpr rfl, decide_eq_true be.isLt⟩

/-- What takes the window of one drupelet, taken over a list, takes those of its drupelets and no other. -/
theorem foldl_wins {f : State → Fin 32 → State} (hs : ∀ s i, ((f s i).dru i).win = none)
    (hne : ∀ s i j, j ≠ i → ((f s i).dru j).win = (s.dru j).win) (l : List (Fin 32)) (s : State) :
    (be ∈ l → ((l.foldl f s).dru be).win = none) ∧ (be ∉ l → ((l.foldl f s).dru be).win = (s.dru be).win) := by
  induction l generalizing s with
  | nil => exact ⟨(fun h => nomatch h), fun _ => rfl⟩
  | cons a l ih =>
    obtain ⟨h1, h2⟩ := ih (f s a)
    refine ⟨fun h => ?_, fun h => ?_⟩
    · by_cases hl : be ∈ l
      · exact h1 hl
      · obtain rfl := (List.mem_cons.mp h).resolve_right hl
        exact (h2 hl).trans (hs ..)
    · rw [List.mem_cons, not_or] at h
      exact (h2 h.2).trans (hne _ _ _ h.1)

theorem frame_restartWin (s : State) (be : Fin 32) : Frame [.brm] [] s (s.restartWin be) := by
  unfold State.restartWin
  split
  · exact Frame.after Frame.brm <| (frame_setDru ..).sub
  · exact Frame.refl _

theorem win_restartWin_self (s : State) (be : Fin 32) : ((s.restartWin be).dru be).win = none := by
  unfold State.restartWin
  split
  next w h => exact congrArg Drupelet.win (dru_setDru_self (s := s) { s.dru be with win := none, yieldReq := false })
  next h => exact h

theorem win_restartWin_ne (s : State) (be i : Fin 32) (h : i ≠ be) : ((s.restartWin be).dru i).win = (s.dru i).win := by
  unfold State.restartWin
  split
  next w _ => exact congrArg Drupelet.win (dru_setDru_ne (s := s) { s.dru be with win := none, yieldReq := false } h)
  next => rfl

theorem restarts_restartWin (s : State) (be : Fin 32) : s.brm.restarts ⊆ (s.restartWin be).brm.restarts := by
  unfold State.restartWin
  split
  · exact List.subset_append_left _ _
  · exact List.Subset.refl _

theorem restarts_foldl (l : List (Fin 32)) (s : State) : s.brm.restarts ⊆ (l.foldl State.restartWin s).brm.restarts := by
  induction l generalizing s with
  | nil => exact List.Subset.refl _
  | cons a l ih => exact List.Subset.trans (restarts_restartWin s a) (ih _)

theorem restarts_foldl_mem {w : Window} (l : List (Fin 32)) (s : State) (hb : be ∈ l) (hw : (s.dru be).win = some w) :
    (be.val / 8, w.oc) ∈ (l.foldl State.restartWin s).brm.restarts := by
  induction l generalizing s with
  | nil => cases hb
  | cons a l ih =>
    by_cases h : be = a
    · subst h
      refine restarts_foldl l _ ?_
      rw [State.restartWin, hw]
      exact List.mem_append_right _ List.mem_cons_self
    · exact ih _ ((List.mem_cons.mp hb).resolve_left h) ((win_restartWin_ne s a be h).trans hw)

/-- The state with a block restored and the windows that waited for it among the restart entries. -/
def State.repaired (s : State) (blk : Nat) (data : List Byte) : State :=
  ((s.waiters blk).foldl State.restartWin (s.restoreBlock blk data)).unwant blk

theorem exec_blockRepair_restores {data : List Byte} (hd : data.length = 256) (hw : ∃ e ∈ s.integ.wanted, e.2 = blk) :
    exec (.blockRepairRx blk data) s = .next (s.repaired blk data) := by
  refine when_pos ?_
  obtain ⟨e, he, hb⟩ := hw
  have ha : s.integ.wanted.any (fun e => e.2 == blk) = true := List.any_eq_true.mpr ⟨e, he, beq_iff_eq.mpr hb⟩
  rw [ha, hd]
  rfl

theorem any_wanted_false (h : ∀ e ∈ s.integ.wanted, e.2 ≠ blk) : s.integ.wanted.any (fun e => e.2 == blk) = false :=
  List.any_eq_false.mpr fun e he => by rw [beq_iff_eq]; exact h e he

theorem exec_blockRepair_discards {data : List Byte} (h : data.length ≠ 256 ∨ ∀ e ∈ s.integ.wanted, e.2 ≠ blk) :
    exec (.blockRepairRx blk data) s = .next s := by
  refine when_neg ?_
  rcases h with h | h
  · rw [beq_eq_false_iff_ne.mpr h, Bool.and_false]
  · rw [any_wanted_false h, Bool.false_and]

theorem repaired_restarts {data : List Byte} (hi : s.Inv) (hd : data.length = 256) :
    wrote (blk * 256) data s (s.repaired blk data) ∧ (∀ k < 32, (s.repaired blk data).mem.bad (blk * 32 + k) = false) ∧
      (s.repaired blk data).integ = { s.integ with wanted := s.integ.wanted.filter (fun e => e.2 ≠ blk) } ∧
      (s.repaired blk data).fbit F.memUeInfo_restored = true ∧ keepsRegs [R.memUeInfo] s (s.repaired blk data) ∧
      (∀ be w, (be.val, blk) ∈ s.integ.wanted → (s.dru be).win = some w → ((s.repaired blk data).dru be).win = none ∧
        (be.val / 8, w.oc) ∈ (s.repaired blk data).brm.restarts) ∧
      ∀ be, (be.val, blk) ∉ s.integ.wanted → ((s.repaired blk data).dru be).win = (s.dru be).win := by
  obtain ⟨hb, hg, hr⟩ := restoreBlock_restores (blk := blk) hi hd
  have hf : Frame [.brm] [] (s.restoreBlock blk data) ((s.waiters blk).foldl State.restartWin (s.restoreBlock blk data)) :=
    .foldlAll _ (fun s i => frame_restartWin s i) _ _
  have hfw : Frame [.brm, .integ] [] (s.restoreBlock blk data) (s.repaired blk data) := .trans hf.sub .integ
  have hw := fun be => foldl_wins (be := be) win_restartWin_self win_restartWin_ne (s.waiters blk) (s.restoreBlock blk data)
  have hm : (s.repaired blk data).mem = (s.restoreBlock blk data).mem := hfw.part .mem (by decide)
  refine ⟨fun x => by rw [hm]; exact hb x, fun k hk => by rw [hm]; exact hg k hk, ?_, ?_, ?_, fun be w hbe hwin => ⟨?_, ?_⟩,
    fun be hbe => ?_⟩
  · have h1 : ((s.waiters blk).foldl State.restartWin (s.restoreBlock blk data)).integ = s.integ :=
      (hf.part .integ (by decide)).trans ((frame_restoreBlock s blk data).part .integ (by decide))
    exact congrArg (fun x : Integ => { x with wanted := x.wanted.filter (fun e => e.2 ≠ blk) }) h1
  · rw [← hr]
    exact hfw.fbit ((frame_restoreBlock s blk data).canon hi.2)
  · have hfr : Frame [.regs, .mem, .brm, .integ] [.fld F.memUeInfo_restored] s (s.repaired blk data) :=
      .trans (frame_restoreBlock s blk data).sub hfw.sub
    exact hfr.keepsRegs hi.2
  · exact (hw be).1 (mem_waiters.mpr hbe)
  · exact restarts_foldl_mem _ _ (mem_waiters.mpr hbe) (((winsStand_restoreBlock s blk data).win be).trans hwin)
  · exact ((hw be).2 (fun h => hbe (mem_waiters.mp h))).trans ((winsStand_restoreBlock s blk data).win be)

/-! No repair in time (R386), and the rewrite from flash (R385). -/

theorem frame_abandon (s : State) (be : Fin 32) (w : Window) (xrec : W64) : Frame [.regs, .clk, .brm, .scan, .recd, .obs] [.blk
    0x1, .reg R.wfStatus] s (s.abandon be w xrec) :=
  Frame.after (frame_chainDone ..).sub <| Frame.after Frame.raise <| (frame_setDru ..).sub

/-- The window of a drupelet, if it has one, abandoned at an uncorrectable word of its code. -/
def State.abandonAt (s : State) (be : Fin 32) : State :=
  match (s.dru be).win with
  | some w => s.abandon be w (excRecord 0x10 w.core.pc 0)
  | none => s

theorem abandonWaiters_eq : s.abandonWaiters blk = (s.waiters blk).foldl State.abandonAt s := rfl

theorem frame_abandonAt (s : State) (be : Fin 32) : Frame [.regs, .clk, .brm, .scan, .recd, .obs] [.blk 0x1, .reg R.wfStatus] s (s.abandonAt be) := by
  unfold State.abandonAt
  split
  · exact frame_abandon ..
  · exact Frame.refl _

theorem frame_abandonWaiters (s : State) (blk : Nat) : Frame [.regs, .clk, .brm, .scan, .recd, .obs] [.blk 0x1, .reg R.wfStatus] s
    (s.abandonWaiters blk) :=
  Frame.foldlAll _ (fun s i => frame_abandonAt s i) _ _

theorem win_abandonAt_self (s : State) (be : Fin 32) : ((s.abandonAt be).dru be).win = none := by
  unfold State.abandonAt
  split
  next w h =>
    rw [State.abandon, (winsStand_chainDone ..).win be]
    exact congrArg Drupelet.win (dru_setDru_self (s := s) { s.dru be with win := none, yieldReq := false })
  next h => exact h

theorem win_abandonAt_ne (s : State) (be i : Fin 32) (h : i ≠ be) : ((s.abandonAt be).dru i).win = (s.dru i).win := by
  unfold State.abandonAt
  split
  next w _ =>
    rw [State.abandon, (winsStand_chainDone ..).win i]
    exact congrArg Drupelet.win (dru_setDru_ne (s := s) { s.dru be with win := none, yieldReq := false } h)
  next => rfl

/-- The state with a block among those that MC rewrites. -/
def State.toRewrite (s : State) (blk : Nat) : State := { s with integ := { s.integ with rewrite := s.integ.rewrite ++ [blk] } }

theorem exec_repairTimeout_rewrites (hw : ∃ e ∈ s.integ.wanted, e.2 = blk) (h1 : s.bank ≤ blk * 256) (h2 : blk * 256 < s.bank + 0x1000000) :
    exec (.repairTimeout blk) s = .next (((s.toRewrite blk).abandonWaiters blk).unwant blk) := by
  obtain ⟨e, he, hb⟩ := hw
  have ha : s.integ.wanted.any (fun e => e.2 == blk) = true := List.any_eq_true.mpr ⟨e, he, beq_iff_eq.mpr hb⟩
  rw [exec_repairTimeout, execRepairTimeout]
  dsimp only
  rw [if_pos ⟨h1, h2⟩]
  exact when_pos ha

theorem abandoned_rewrites :
    (((s.toRewrite blk).abandonWaiters blk).unwant blk).integ = { s.integ with
      wanted := s.integ.wanted.filter (fun e => e.2 ≠ blk), rewrite := s.integ.rewrite ++ [blk] } ∧
    (((s.toRewrite blk).abandonWaiters blk).unwant blk).mem = s.mem ∧
    (∀ be : Fin 32, (be.val, blk) ∈ s.integ.wanted → ((((s.toRewrite blk).abandonWaiters blk).unwant blk).dru be).win = none) ∧
    ∀ be : Fin 32, (be.val, blk) ∉ s.integ.wanted → ((((s.toRewrite blk).abandonWaiters blk).unwant blk).dru be).win = (s.dru be).win := by
  have hf := frame_abandonWaiters (s.toRewrite blk) blk
  have hw := fun be => foldl_wins (be := be) win_abandonAt_self win_abandonAt_ne (s.waiters blk) (s.toRewrite blk)
  refine ⟨?_, hf.part .mem (by decide), fun be h => (hw be).1 (mem_waiters.mpr h), fun be h => (hw be).2 fun h' => h (mem_waiters.mp h')⟩
  have h1 : ((s.toRewrite blk).abandonWaiters blk).integ = (s.toRewrite blk).integ := hf.part .integ (by decide)
  exact congrArg (fun x : Integ => { x with wanted := x.wanted.filter (fun e => e.2 ≠ blk) }) h1

/-- A block of the active bank as the flash holds it. -/
def State.flashBlock (s : State) (blk : Nat) : List Byte :=
  (List.range 256).map (fun i => sget (fun _ => 0) s.olc.flash.bank (blk * 256 - s.bank + i))

/-- The state with a block rewritten from flash. -/
def State.rewritten (s : State) (blk : Nat) : State :=
  { s.restoreBlock blk (s.flashBlock blk) with
    integ := { (s.restoreBlock blk (s.flashBlock blk)).integ with rewrite := s.integ.rewrite.filter (· ≠ blk) } }

theorem exec_codeBlockRewrite_rewrites (h : blk ∈ s.integ.rewrite) (hr : s.fbit F.sysStatus_mcRun = true) :
    exec (.codeBlockRewrite blk) s = .next (s.rewritten blk) := by
  have hc : s.integ.rewrite.contains blk = true := List.contains_iff_mem.mpr h
  refine when_pos ?_
  rw [hc, hr]
  rfl

theorem rewritten_rewrites (hi : s.Inv) :
    wrote (blk * 256) (s.flashBlock blk) s (s.rewritten blk) ∧ (∀ k < 32, (s.rewritten blk).mem.bad (blk * 32 + k) = false) ∧
      (s.rewritten blk).integ = { s.integ with rewrite := s.integ.rewrite.filter (· ≠ blk) } ∧
      keepsRegs [R.memUeInfo] s (s.rewritten blk) := by
  have hd : (s.flashBlock blk).length = 256 := by rw [State.flashBlock, List.length_map, List.length_range]
  obtain ⟨hb, hg, -⟩ := restoreBlock_restores (blk := blk) hi hd
  have hf := frame_restoreBlock s blk (s.flashBlock blk)
  have hfr : Frame [.regs, .mem, .brm, .integ] [.fld F.memUeInfo_restored] s (s.rewritten blk) := .trans hf.sub .integ
  refine ⟨hb, hg, ?_, hfr.keepsRegs hi.2⟩
  have h1 : (s.restoreBlock blk (s.flashBlock blk)).integ = s.integ := hf.part .integ (by decide)
  exact congrArg (fun x : Integ => { x with rewrite := s.integ.rewrite.filter (· ≠ blk) }) h1

/-! What the STANDBY found poisoned (R386). -/

theorem markDirty_block (ht : s.tracked (blk * 256) = true) : (s.markDirty (blk * 256) 1).pair.dirty = s.pair.dirty.add blk := by
  have h1 : (blk * 256 + 1 + 255) / 256 - blk * 256 / 256 = 1 := by omega
  have h2 : blk * 256 / 256 + 0 = blk := by omega
  rw [State.markDirty, h1]
  change (if s.tracked ((blk * 256 / 256 + 0) * 256) then s.pair.dirty.add (blk * 256 / 256 + 0) else s.pair.dirty) = _
  rw [h2, if_pos ht]

theorem exec_dirtyRequest_marks {id : Nat} (hf : s.fresh id) (hm : s.mod = .primary) (ht : s.tracked (blk * 256) = true) :
    ∃ t, exec (.dirtyRequestRx id blk) s = .next t ∧ t.pair.dirty.has blk = true ∧
      (∀ b, b ≠ blk → t.pair.dirty.has b = s.pair.dirty.has b) ∧ t.mem = s.mem ∧ t.regs = s.regs ∧ t.pair.seen = id :: s.pair.seen := by
  have ho : Frame [.out] [] _ _ := Frame.sendOnce
    (s := { s.markDirty (blk * 256) 1 with pair := { (s.markDirty (blk * 256) 1).pair with seen := id :: s.pair.seen } }) (e := .drawbarAck id)
  have hp := ho.part .pair (by decide)
  have hd := (congrArg Pair.dirty hp).trans (markDirty_block ht)
  exact ⟨_, (if_pos hm).trans (onceOnly_fresh hf), (congrArg (NSet.has · blk) hd).trans (NSet.has_add _ _),
    fun b hb => (congrArg (NSet.has · b) hd).trans (sget_sset_ne _ _ _ _ _ hb), ho.part .mem (by decide), ho.part .regs (by decide),
    congrArg Pair.seen hp⟩

end Sys2Proof.Machine
end

section
/-! Scrubbing and fuse repair (R383, R384, R388, R389, R394, R397). -/

namespace Sys2Proof.Machine

variable {s t u : State} {be : Fin 32} {a line : Nat}

/-! Words read clean. -/

/-- The state with another set of words once found in error. -/
def State.suspects (s : State) (p : NSet) : State := { s with mem := { s.mem with suspect := p } }

/-- At most the set of words once found in error changes. -/
def SuspectsOnly (s t : State) : Prop := ∃ p, t = s.suspects p

theorem SuspectsOnly.refl (s : State) : SuspectsOnly s s := ⟨s.mem.suspect, rfl⟩

theorem SuspectsOnly.trans (h1 : SuspectsOnly s t) (h2 : SuspectsOnly t u) : SuspectsOnly s u := by
  obtain ⟨p, rfl⟩ := h1
  obtain ⟨q, rfl⟩ := h2
  exact ⟨q, rfl⟩

theorem SuspectsOnly.foldl {f : State → Nat → State} (l : List Nat) (hf : ∀ s, ∀ k ∈ l, SuspectsOnly s (f s k)) (s : State) :
    SuspectsOnly s (l.foldl f s) := by
  induction l generalizing s with
  | nil => exact .refl s
  | cons k l ih => exact (hf s k List.mem_cons_self).trans (ih (fun s j hj => hf s j (List.mem_cons_of_mem _ hj)) _)

theorem scrubWord_clean (s : State) (a : Nat) (again spare : Bool) : SuspectsOnly s (s.scrubWord a .clean again spare) := by
  unfold State.scrubWord
  dsimp only
  split
  · exact .refl s
  · exact ⟨_, rfl⟩

theorem vget_replicate_clean {n : Nat} (k : Nat) : vget (Vector.replicate n Ecc.clean) k = .clean := by
  rw [vget, Vector.getElem?_replicate]
  split <;> rfl

/-! One access of a scrub engine (R394). -/

/-- The words of an access, scrubbed in turn. -/
def State.scrubLine (s : State) (a : Nat) (found : Vector Ecc 8) (spare : Bool) : State :=
  (List.range 8).foldl (fun s k => s.scrubWord (a + 8 * k) (vget found k) false spare) s

theorem scrubLine_clean (s : State) (a : Nat) (spare : Bool) : SuspectsOnly s (s.scrubLine a (Vector.replicate 8 .clean) spare) :=
  .foldl _ (fun s k _ => by rw [vget_replicate_clean]; exact scrubWord_clean ..) s

/-- An access that finds an error in its first word alone. -/
theorem scrubLine_first (s : State) (a : Nat) (x : Ecc) (spare : Bool) :
    SuspectsOnly (s.scrubWord a x false spare) (s.scrubLine a ((Vector.replicate 8 .clean).set 0 x) spare) := by
  have hrest (k : Nat) : vget ((Vector.replicate 8 Ecc.clean).set 0 x) (k + 1) = .clean := by
    rw [vget, Vector.getElem?_set_ne _ (by omega)]
    exact vget_replicate_clean (n := 8) (k + 1)
  have he : s.scrubLine a ((Vector.replicate 8 .clean).set 0 x) spare = ((List.range 7).map (· + 1)).foldl
      (fun s k => s.scrubWord (a + 8 * k) (vget ((Vector.replicate 8 Ecc.clean).set 0 x) k) false spare) (s.scrubWord a x false spare) := rfl
  rw [he]
  refine .foldl _ (fun s k hk => ?_) _
  obtain ⟨j, -, rfl⟩ := List.mem_map.mp hk
  rw [hrest]
  exact scrubWord_clean ..

theorem exec_scrub_dram {found : Vector Ecc 8} {spare : Bool} (hd : isDram (line * 64) = true) (hc : s.commitSpan (line * 64) 64 = false) :
    exec (.scrubAccess line found false spare none none) s = .next ((s.scrubLine (line * 64) found spare).obsCount 0x1001) := by
  have hr : regionOf (line * 64) = some .dram := by
    have h := of_decide_eq_true hd
    simp only [regionOf]
    repeat rw [if_neg (by omega)]
    exact if_pos h
  refine when_pos ?_
  rw [hr, hc]
  rfl

/-- What an access shows after its words: the counters of the observation port, and no other register. -/
theorem suspects_obsCount {W : List Rect} (hf : Frame [.regs] W s t) (p : NSet) (code : Nat) :
    (t.suspects p).obsCount code = { s with
      regs := ((t.suspects p).obsCount code).regs, mem := { s.mem with suspect := ((t.suspects p).obsCount code).mem.suspect } } ∧
    ∀ off, ¬ (R.obsCntk 0 ≤ off ∧ off ≤ R.obsCntk 255) → ((t.suspects p).obsCount code).rd off = t.rd off := by
  refine ⟨?_, fun off ho => rd_obsCountBy (s := t.suspects p) (code := code) (k := 1) (by omega)⟩
  obtain ⟨r, rfl⟩ : ∃ r, t = { s with regs := r } := ⟨_, hf.eq_patch⟩
  obtain ⟨q, hq⟩ : ∃ q, (State.suspects { s with regs := r } p).obsCount code = { State.suspects { s with regs := r } p with regs := q } :=
    ⟨_, (frame_obsCount _ _).eq_patch⟩
  rw [hq]
  rfl

theorem exec_scrub_clean {spare : Bool} : ∃ t, exec (.scrubAccess line (Vector.replicate 8 .clean) false spare none none) s = .next t ∧
    t = { s with regs := t.regs, mem := { s.mem with suspect := t.mem.suspect } } ∧
    ∀ off, ¬ (R.obsCntk 0 ≤ off ∧ off ≤ R.obsCntk 255) → t.rd off = s.rd off := by
  obtain ⟨c, hc⟩ : ∃ c, exec (.scrubAccess line (Vector.replicate 8 .clean) false spare none none) s =
      s.when c ((s.scrubLine (line * 64) (Vector.replicate 8 .clean) spare).obsCount 0x1001) := ⟨_, rfl⟩
  cases c with
  | false => exact ⟨s, hc, rfl, fun _ _ => rfl⟩
  | true =>
    obtain ⟨p, hp⟩ := scrubLine_clean s (line * 64) spare
    rw [hp, when_pos rfl] at hc
    exact ⟨_, hc, suspects_obsCount (.refl (W := []) s) p 0x1001⟩

theorem isSram_of_dram (h : isDram a = true) : isSram a = false :=
  decide_eq_false (by have := of_decide_eq_true h; omega)

theorem regNum_dram (h : isDram a = true) : regNum a = 7 := by
  have h := of_decide_eq_true h
  have hr : regionOf a = some .dram := by
    simp only [regionOf]
    repeat rw [if_neg (by omega)]
    exact if_pos h
  rw [regNum, hr]
  rfl

theorem frame_eccCorrected (s : State) (a : Nat) (h : isDram a = true) :
    Frame [.regs] [.reg (R.memRgrCe 7), .span 0x14400 0x14800] s (s.eccCorrected a) := by
  rw [State.eccCorrected, regNum_dram h]
  exact Frame.after (frame_obsCount ..).sub Frame.bump

/-- A first correctable word of DRAM is counted, and its data stand (R383, R388). -/
theorem scrubWord_corrected {spare : Bool} (hd : isDram a = true) (hs : s.mem.suspect.has (a / 8) = false) :
    s.scrubWord a .corrected false spare = (s.eccCorrected a).suspects (s.mem.suspect.add (a / 8)) := by
  have hm : (s.eccCorrected a).mem = s.mem := (frame_eccCorrected s a hd).part .mem (by decide)
  rw [State.scrubWord, isSram_of_dram hd, State.suspects, hm]
  dsimp only
  rw [if_neg (fun h => nomatch h.1), hs, if_neg (by decide)]

theorem exec_scrub_corrected {spare : Bool} (hw : s.regsWf = true) (hd : isDram (line * 64) = true)
    (hs : s.mem.suspect.has (line * 8) = false) (hc : s.commitSpan (line * 64) 64 = false) :
    ∃ t, exec (.scrubAccess line ((Vector.replicate 8 .clean).set 0 .corrected) false spare none none) s = .next t ∧
      t = { s with regs := t.regs, mem := { s.mem with suspect := t.mem.suspect } } ∧
      (t.rd (R.memRgrCe 7)).toNat = satAdd 32 (s.rd (R.memRgrCe 7)).toNat 1 ∧
      ∀ off, off ≠ R.memRgrCe 7 → ¬ (R.obsCntk 0 ≤ off ∧ off ≤ R.obsCntk 255) → t.rd off = s.rd off := by
  have h8 : line * 64 / 8 = line * 8 := by omega
  obtain ⟨p, hp⟩ := scrubLine_first s (line * 64) .corrected spare
  rw [scrubWord_corrected hd (h8.symm ▸ hs)] at hp
  have he := exec_scrub_dram (found := (Vector.replicate 8 .clean).set 0 .corrected) (spare := spare) hd hc
  rw [hp] at he
  obtain ⟨h1, h2⟩ := suspects_obsCount (frame_eccCorrected s (line * 64) hd) p 0x1001
  have hrd (off : Nat) (ho : ¬ (R.obsCntk 0 ≤ off ∧ off ≤ R.obsCntk 255)) : (s.eccCorrected (line * 64)).rd off = (s.bump (R.memRgrCe 7)).rd off := by
    rw [State.eccCorrected, regNum_dram hd]
    exact rd_obsCountBy (by omega)
  refine ⟨_, he, h1, ?_, fun off ho hn => (h2 off hn).trans ((hrd off hn).trans (rd_bump_ne ho))⟩
  exact (congrArg BitVec.toNat ((h2 _ (by decide)).trans (hrd _ (by decide)))).trans (toNat_rd_bump hw)

/-! An uncorrectable word of DRAM outside the tracked regions (R384, R385). -/

theorem ueReact_dram (hd : isDram a = true) (ht : s.tracked a = false) : s.ueReact a = s := by
  have h := of_decide_eq_true hd
  have hb : s.bank ≤ 0x01000000 := by
    rw [State.bank]
    split <;> decide
  have hr : regionOf a = some .dram := by
    simp only [regionOf]
    repeat rw [if_neg (by omega)]
    exact if_pos h
  rw [State.ueReact]
  dsimp only
  rw [if_neg (by omega), if_neg (by omega), ht, hr, if_neg (by decide), if_neg (by decide)]

theorem scrubWord_uncorrectable {spare : Bool} (hd : isDram a = true) (hs : s.mem.suspect.has (a / 8) = false) (ht : s.tracked a = false) :
    s.scrubWord a .uncorrectable false spare = (s.eccUe a true).suspects ((s.eccUe a true).mem.suspect.add (a / 8)) := by
  have ht' : (s.eccUe a true).tracked a = false := ht
  rw [State.scrubWord, isSram_of_dram hd]
  dsimp only
  rw [if_neg (fun h => nomatch h.1), hs, if_neg (by decide), ueReact_dram hd ht']
  rfl

/-- An uncorrectable word of DRAM is poisoned, counted, latched and raised. -/
theorem eccUe_shows (hw : s.regsWf = true) (hd : isDram a = true) :
    (s.eccUe a true).mem = { s.mem with poison := s.mem.poison.add (a / 8) } ∧
    ((s.eccUe a true).rd (R.memRgrUe 7)).toNat = satAdd 32 (s.rd (R.memRgrUe 7)).toNat 1 ∧
    (s.eccUe a true).rd64 R.memUeLastLo = BitVec.ofNat 64 a ∧ (s.eccUe a true).fbit F.memStatus_ueSeen = true ∧
    (s.eccUe a true).brm = s.brm ∧ (s.eccUe a true).recd.raised.length = s.recd.raised.length + 1 ∧ (s.eccUe a true).regsWf = true := by
  obtain ⟨u, hu⟩ : ∃ u, u = ((State.bump { s with mem := { s.mem with poison := s.mem.poison.add (a / 8) } } (R.memRgrUe 7)).raise hapEcc 7
    [BitVec.ofNat 64 a]) := ⟨_, rfl⟩
  have h0 : (u.rd (R.memRgrUe 7)).toNat = satAdd 32 (s.rd (R.memRgrUe 7)).toNat 1 := by
    rw [hu]
    exact toNat_rd_bump (s := { s with mem := { s.mem with poison := s.mem.poison.add (a / 8) } }) hw
  have hwu : u.regsWf = true := by
    rw [hu]
    exact regsWf_wr (s := { s with mem := { s.mem with poison := s.mem.poison.add (a / 8) } }) hw
  obtain ⟨v, hv⟩ : ∃ v, v = u.wr64 R.memUeLastLo (BitVec.ofNat 64 a) := ⟨_, rfl⟩
  have hwv : v.regsWf = true := by
    rw [hv]
    exact regsWf_wr (regsWf_wr hwu)
  obtain ⟨x, hx⟩ : ∃ x, x = State.wr v R.memUeInfo (BitVec.ofNat 32 (7 + 8)) := ⟨_, rfl⟩
  have hwx : x.regsWf = true := by
    rw [hx]
    exact regsWf_wr hwv
  have he : s.eccUe a true = State.fset { x with integ := { x.integ with lastUe := some x.time.tb3 } } F.memStatus_ueSeen 1 := by
    rw [hx, hv, hu, State.eccUe, regNum_dram hd]
    rfl
  have hfx : Frame [.regs, .integ] [.reg R.memUeInfo, .fld F.memStatus_ueSeen] v (s.eccUe a true) := by
    rw [he, hx]
    exact .trans .wr (.trans .integ .fset)
  have hfv : Frame [.regs, .integ] [.reg R.memUeLastLo, .reg (R.memUeLastLo + 4), .reg R.memUeInfo, .fld F.memStatus_ueSeen] u (s.eccUe a true) := by
    refine Frame.trans ?_ hfx.sub
    rw [hv]
    exact .wr64
  have hfu := hfv.part .mem (by decide)
  refine ⟨?_, ?_, ?_, ?_, ?_, ?_, hfx.canon hwv⟩
  · rw [hfv.part .mem (by decide), hu]
    rfl
  · rw [hfv.rd hwu]
    exact h0
  · rw [hfx.rd64 hwv, hv]
    exact rd64_wr64 hwu
  · rw [he, fbit_fset (s := { x with integ := { x.integ with lastUe := some x.time.tb3 } }) hwx (by decide)]
    rfl
  · rw [hfv.part .brm (by decide), hu]
    rfl
  · rw [hfv.part .recd (by decide), hu]
    exact List.length_append

theorem exec_scrub_uncorrectable {spare : Bool} (hw : s.regsWf = true) (hd : isDram (line * 64) = true)
    (hs : s.mem.suspect.has (line * 8) = false) (hc : s.commitSpan (line * 64) 64 = false) (ht : s.tracked (line * 64) = false) :
    ∃ t, exec (.scrubAccess line ((Vector.replicate 8 .clean).set 0 .uncorrectable) false spare none none) s = .next t ∧
      t.mem = { s.mem with suspect := t.mem.suspect, poison := s.mem.poison.add (line * 8) } ∧
      (t.rd (R.memRgrUe 7)).toNat = satAdd 32 (s.rd (R.memRgrUe 7)).toNat 1 ∧
      t.rd64 R.memUeLastLo = BitVec.ofNat 64 (line * 64) ∧ t.fbit F.memStatus_ueSeen = true ∧ t.brm = s.brm ∧
      t.recd.raised.length = s.recd.raised.length + 1 := by
  have h8 : line * 64 / 8 = line * 8 := by omega
  obtain ⟨p, hp⟩ := scrubLine_first s (line * 64) .uncorrectable spare
  rw [scrubWord_uncorrectable hd (h8.symm ▸ hs) ht] at hp
  have he := exec_scrub_dram (found := (Vector.replicate 8 .clean).set 0 .uncorrectable) (spare := spare) hd hc
  rw [hp] at he
  obtain ⟨h1, h2, h3, h4, h5, h6, hwe⟩ := eccUe_shows hw hd
  generalize s.eccUe (line * 64) true = x at *
  replace he : exec (.scrubAccess line ((Vector.replicate 8 .clean).set 0 .uncorrectable) false spare none none) s =
    .next ((x.suspects p).obsCount 0x1001) := he
  have hf : Frame [.regs, .mem] [.span 0x14400 0x14800] x ((x.suspects p).obsCount 0x1001) := 
    .trans .mem (frame_obsCount (x.suspects p) 0x1001).sub
  have hm : ((x.suspects p).obsCount 0x1001).mem = { x.mem with suspect := p } := (frame_obsCount (x.suspects p) 0x1001).part .mem (by decide)
  refine ⟨_, he, ?_, ?_, ?_, ?_, ?_, ?_⟩
  · rw [hm, h1, h8]
  · rw [hf.rd hwe]
    exact h2
  · rw [hf.rd64 hwe]
    exact h3
  · rw [hf.fbit hwe]
    exact h4
  · rw [hf.part .brm (by decide)]
    exact h5
  · rw [hf.part .recd (by decide)]
    exact h6

/-! A drupelet's own local (R397). -/

/-- The words of a drupelet's local, scrubbed in turn; those of its scratch whose valid bit is clear are passed over. -/
def State.scrubLocal (s : State) (be : Fin 32) (unit : Fin 512) (spare : Bool) : State :=
  (List.range 64).foldl (fun s k =>
    if scrBase + be.val * 0x40000 ≤ 0x04000000 + be.val * 0x40000 + unit.val * 512 + 8 * k &&
      0x04000000 + be.val * 0x40000 + unit.val * 512 + 8 * k < scrBase + be.val * 0x40000 + scrLen then s
    else s.scrubWord (0x04000000 + be.val * 0x40000 + unit.val * 512 + 8 * k) (vget (Vector.replicate 64 Ecc.clean) k) false spare) s

theorem scrubLocal_clean (s : State) (be : Fin 32) (unit : Fin 512) (spare : Bool) : SuspectsOnly s (s.scrubLocal be unit spare) := by
  refine .foldl _ (fun s k _ => ?_) s
  rw [vget_replicate_clean]
  split
  · exact .refl s
  · exact scrubWord_clean ..

theorem exec_localScrub_scrubs {unit : Fin 512} {spare : Bool} (hu : s.up = true) (ha : (s.dru be).st = .active) (hn : (s.dru be).win = none)
    (hf : s.findWork be = none) (hp : (vget s.clk (be.val / 8)).pll = .locked) (hk : (s.aget F.wfCfg_park).testBit (be.val / 8) = false) :
    exec (.localScrubChain be unit (Vector.replicate 64 .clean) false spare none) s =
      .next ((s.scrubLocal be unit spare).localTime.obsCount 0x0225) := by
  refine when_pos ?_
  simp [hu, ha, hn, hf, hp, hk]

theorem localTime_suspects (p : NSet) : (s.suspects p).localTime = { s.suspects p with
    free := s.free + 1, wf := { s.wf with localNs := s.wf.localNs + (Config.freeValue s.free).toNat % 4001 } } := rfl

theorem localScrub_shows (p : NSet) :
    (s.suspects p).localTime.obsCount 0x0225 = { s with
      regs := ((s.suspects p).localTime.obsCount 0x0225).regs,
      mem := { s.mem with suspect := ((s.suspects p).localTime.obsCount 0x0225).mem.suspect }, free := s.free + 1,
      wf := { s.wf with localNs := ((s.suspects p).localTime.obsCount 0x0225).wf.localNs } } ∧
    ((s.suspects p).localTime.obsCount 0x0225).wf.localNs ≤ s.wf.localNs + 4000 ∧
    ∀ off, ¬ (R.obsCntk 0 ≤ off ∧ off ≤ R.obsCntk 255) → ((s.suspects p).localTime.obsCount 0x0225).rd off = s.rd off := by
  have hrd := fun off (ho : ¬ (R.obsCntk 0 ≤ off ∧ off ≤ R.obsCntk 255)) =>
    rd_obsCountBy (s := (s.suspects p).localTime) (code := 0x0225) (k := 1) (off := off) (by omega)
  obtain ⟨q, hq⟩ : ∃ q, (s.suspects p).localTime.obsCount 0x0225 = { (s.suspects p).localTime with regs := q } :=
    ⟨_, (frame_obsCount _ _).eq_patch⟩
  rw [localTime_suspects] at hq hrd ⊢
  refine ⟨by rw [hq]; rfl, ?_, hrd⟩
  rw [hq]
  exact Nat.add_le_add_left (Nat.le_of_lt_succ (Nat.mod_lt _ (by decide))) _

/-! Fuses (R389, R403). -/

/-- The state after a fuse for the row of `a`, with `r` left to repair and `n` fuses blown before. -/
def State.fused (s : State) (a : Nat) (r : List Nat) (n : Nat) : State :=
  (((((({ s with integ := { s.integ with repairs := r } }.fset ⟨R.memFuse, 8, 8⟩ r.length).fset ⟨R.memFuse, 0, 7⟩ (n + 1)).fsetb
    F.memStatus_fuseFull (decide (63 ≤ n))).fset F.memStatus_repairPend 1).raise hapFuse (regNum a) [BitVec.ofNat 64 a]).wfDone 12 2)

theorem exec_fuse_blows {r : List Nat} (hr : s.integ.repairs = a :: r) (h1 : (s.actv R.memCfg).getLsbD 0 = true)
    (h2 : s.fbit F.sysStatus_mcRun = true) (h3 : 60 ≤ s.fget F.wfHoldup_total) (h4 : s.fbit F.pwrStatus_vinOk = true)
    (h5 : s.fbit F.pwrStatus_pfWarn = false) (h6 : s.fget ⟨R.memFuse, 0, 7⟩ < 64) :
    exec .fuseRepair s = .next (s.fused a r (s.fget ⟨R.memFuse, 0, 7⟩)) := by
  rw [exec_fuseRepair, execFuseRepair, hr]
  refine when_pos ?_
  have h6' : fldN (s.rd R.memFuse).toNat 0 7 < 64 := h6
  simp [h1, h2, h3, h4, h5, h6']

theorem exec_fuse_rests (h : s.fget F.wfHoldup_total < 60) : exec .fuseRepair s = .next s := by
  rw [exec_fuseRepair, execFuseRepair]
  cases s.integ.repairs with
  | nil => rfl
  | cons a r =>
    refine when_neg ?_
    have h' : ¬ 60 ≤ s.fget F.wfHoldup_total := by omega
    simp [h']

theorem fused_shows {r : List Nat} {n : Nat} (hw : s.regsWf = true) (hn : n < 64) :
    (s.fused a r n).integ = { s.integ with repairs := r } ∧ (s.fused a r n).fget ⟨R.memFuse, 0, 7⟩ = n + 1 ∧
      (s.fused a r n).fget ⟨R.memFuse, 8, 8⟩ = r.length % 256 ∧ (s.fused a r n).fbit F.memStatus_repairPend = true ∧
      (s.fused a r n).mem = s.mem ∧ ∃ x ∈ (s.fused a r n).recd.raised, x.priv = true := by
  obtain ⟨u, hu⟩ : ∃ u, u = { s with integ := { s.integ with repairs := r } }.fset ⟨R.memFuse, 8, 8⟩ r.length := ⟨_, rfl⟩
  have hw0 : ({ s with integ := { s.integ with repairs := r } } : State).regsWf = true := hw
  have hwu : u.regsWf = true := by
    rw [hu]
    exact regsWf_wr hw0
  obtain ⟨v, hv⟩ : ∃ v, v = (u.fset ⟨R.memFuse, 0, 7⟩ (n + 1)).fsetb F.memStatus_fuseFull (decide (63 ≤ n)) := ⟨_, rfl⟩
  have hwv : v.regsWf = true := by
    rw [hv]
    exact regsWf_wr (regsWf_wr hwu)
  have hfu : Frame [.regs, .integ] [.reg R.memFuse, .fld F.memStatus_fuseFull] s v := by
    rw [hv, hu]
    exact .trans .integ (.trans .fset (.trans .fset .fsetb))
  have he : s.fused a r n = ((v.fset F.memStatus_repairPend 1).raise hapFuse (regNum a) [BitVec.ofNat 64 a]).wfDone 12 2 := by
    rw [hv, hu]
    rfl
  have hd : Frame [.regs] [.blk 0x11] ((v.fset F.memStatus_repairPend 1).raise hapFuse (regNum a) [BitVec.ofNat 64 a]) (s.fused a r n) := by
    rw [he]
    exact frame_wfDone (by decide)
  have hfv : Frame [.regs, .recd] [.blk 0x11, .fld F.memStatus_repairPend] v (s.fused a r n) :=
    .trans .fset (.trans .raise hd.sub)
  have hint : v.integ = { s.integ with repairs := r } := by
    rw [hv, hu]
    rfl
  refine ⟨(hfv.part .integ (by decide)).trans hint, ?_, ?_, ?_, (hfv.part .mem (by decide)).trans (hfu.part .mem (by decide)), ?_⟩
  · rw [hfv.fget hwv, hv, fget_fsetb_off (by decide), fget_fset hwu (by decide)]
    exact Nat.mod_eq_of_lt (show n + 1 < 128 by omega)
  · rw [hfv.fget hwv, hv, fget_fsetb_off (by decide), fget_fset_beside hwu (by decide) (by decide), hu,
      fget_fset hw0 (by decide)]
    rfl
  · have h1 : ((v.fset F.memStatus_repairPend 1).raise hapFuse (regNum a) [BitVec.ofNat 64 a]).fbit F.memStatus_repairPend = true := by
      refine (fbit_fset (s := v) hwv (by decide)).trans ?_
      rfl
    rw [hd.fbit (regsWf_wr hwv)]
    exact h1
  · rw [hd.part .recd (by decide)]
    exact ⟨_, List.mem_append_right _ (List.mem_singleton.mpr rfl), rfl⟩

/-- Settles O36: a restored block is written by whole words, which are good then; the windows that waited for it leave their
drupelets one by one; clean words change only the set of words once found in error, and every other effect is that of the one
word in error, or of the one fuse. -/
theorem memoryRepair : Obligations.MemoryRepair := by
  refine ⟨fun blk s hi => ⟨fun data hd hw => ?_, fun data h => exec_blockRepair_discards h, fun h => when_neg (any_wanted_false h),
    fun hw h1 h2 => ⟨_, exec_repairTimeout_rewrites hw h1 h2, abandoned_rewrites⟩, fun hb hr => ?_,
    fun id hf hm ht _ => exec_dirtyRequest_marks hf hm ht⟩,
    fun s hi => ⟨fun line spare _ _ => exec_scrub_clean, fun line spare hd hs hc => ⟨exec_scrub_corrected hi.2 hd hs hc,
      exec_scrub_uncorrectable hi.2 hd hs hc⟩, fun be unit spare hu ha hn hf hp hk => ?_, fun a r hr h1 h2 h3 h4 h5 h6 => ?_, exec_fuse_rests⟩⟩
  · exact ⟨_, exec_blockRepair_restores hd hw, repaired_restarts hi hd⟩
  · exact ⟨_, exec_codeBlockRewrite_rewrites hb hr, rewritten_rewrites hi⟩
  · obtain ⟨p, h⟩ := scrubLocal_clean s be unit spare
    have he := exec_localScrub_scrubs (unit := unit) (spare := spare) hu ha hn hf hp hk
    rw [h] at he
    exact ⟨_, he, localScrub_shows p⟩
  · exact ⟨_, exec_fuse_blows hr h1 h2 h3 h4 h5 h6, fused_shows hi.2 h6⟩

end Sys2Proof.Machine
end

section
/-! The island link, the levers and the Drawbar (R196, R200 to R202). -/

namespace Sys2Proof.Machine

variable {s t u : State} {k : Nat}

/-! The island link (R196). -/

theorem getLsbD_maskOf (p : Nat → Bool) (n : Fin 32) : (maskOf p).getLsbD n = p n := by
  have he : (List.range 32).foldl (fun m n => m + bit (p n) * 2 ^ n) 0 = bitSum p 32 := by
    refine congrArg (fun f => List.foldl f 0 (List.range 32)) (funext fun m => funext fun j => ?_)
    cases p j <;> simp [bit]
  rw [maskOf, he, BitVec.getLsbD_ofNat, (bitSum_shows p 32).2 n.val n.isLt, decide_eq_true n.isLt, Bool.true_and]

theorem exec_linkFrame_mirrors {d : W32} {l : Vector Nat 8} (ht : s.token = false) (ho : s.island.on = true) (hf : s.bogie.linkFault = false) :
    exec (.islandLinkFrameRx d l) s = .next { s with island := { s.island with mirror := d, mirrorL := l } } :=
  when_pos (by rw [ht, ho, hf]; rfl)

theorem exec_linkFrame_token {d : W32} {l : Vector Nat 8} (ht : s.token = true) : exec (.islandLinkFrameRx d l) s = .next s :=
  when_neg (by rw [ht]; rfl)

/-- The fault of the island link noted, shown and recorded, or its end. -/
def State.linkShown (s : State) (b : Bool) (v : Nat) : State :=
  ({ s with bogie := { s.bogie with linkFault := b } }.fset F.pairStatus_islLink v).raise hapLinkFault 0 [BitVec.ofNat 64 v]

theorem linkShown_shows {b : Bool} {v : Nat} (hw : s.regsWf = true) (hv : v < 2) :
    (s.linkShown b v).bogie = { s.bogie with linkFault := b } ∧ fieldSet F.pairStatus_islLink v s (s.linkShown b v) ∧
      keepsRegs [R.pairStatus] s (s.linkShown b v) ∧ (∃ r, (s.linkShown b v).recd.raised = s.recd.raised ++ [r]) ∧
      (s.linkShown b v).island = s.island :=
  ⟨rfl, fieldSet_fset_lt (s := { s with bogie := { s.bogie with linkFault := b } }) hw (by decide) hv,
    keepsRegs_fset (f := F.pairStatus_islLink) (s := { s with bogie := { s.bogie with linkFault := b } }), ⟨_, rfl⟩, rfl⟩

theorem exec_linkFault_shows (hu : s.up = true) (hf : s.bogie.linkFault = false) :
    exec .islandLinkFault s = .next (if s.token then s.linkShown true 1 else (s.linkShown true 1).mirrorFill) :=
  when_pos (by rw [hu, hf]; rfl)

theorem linkFault_mirrors (n : Fin 32) :
    (s.linkShown true 1).mirrorFill.island.mirror.getLsbD n = if s.isRfx n then s.vote n else s.scanCmd.dig.getLsbD n := by
  have h1 : (s.linkShown true 1).isRfx = s.isRfx := isRfx_of_cfg rfl
  have h2 : (s.linkShown true 1).vote n = s.vote n := rfl
  have h3 : (s.linkShown true 1).scanCmd = s.scanCmd := rfl
  refine (getLsbD_maskOf _ n).trans ?_
  rw [h1, h2, h3]

/-! The levers (R200). -/

theorem frame_holdupEnds : Frame [.regs] [.reg R.wfStatus, .reg (R.wfClcPreempt 10)] s s.holdupAbort := .ite (.trans .fset .bump) (.refl s)

theorem holdupAbort_rests (hw : s.regsWf = true) : s.holdupAbort.fbit F.wfStatus_holdupRun = false := by
  by_cases h : s.fbit F.wfStatus_holdupRun = true
  · obtain ⟨⟨hv, -⟩, -⟩ := holdupAbort_shows hw h
    rw [State.fbit, hv]
    rfl
  · rw [State.holdupAbort, if_neg h]
    exact Bool.eq_false_iff.mpr h

/-- The own lever shown open, and no hold-up measurement under way. -/
def State.leverUp (s : State) : State := (s.fset F.pairStatus_lever 1).holdupAbort

theorem frame_leverUp : Frame [.regs] [.fld F.pairStatus_lever, .reg R.wfStatus, .reg (R.wfClcPreempt 10)] s s.leverUp :=
  .trans .fset frame_holdupEnds.sub

theorem leverUp_shows (hw : s.regsWf = true) :
    s.leverUp.fbit F.pairStatus_lever = true ∧ s.leverUp.fbit F.wfStatus_holdupRun = false := by
  have h1 : (s.fset F.pairStatus_lever 1).regsWf = true := regsWf_fset hw
  refine ⟨?_, holdupAbort_rests h1⟩
  rw [State.leverUp, frame_holdupEnds.fbit h1, fbit_fset hw (by decide)]
  rfl

theorem exec_leverOpen_primary (hc : s.power.chip = true) (hl : s.fbit F.pairStatus_lever = false) (hm : s.mod = .primary) :
    exec (.leverOpen true) s = .next ((if s.bogie.pReady then s.leverUp else s.leverUp.showRemoval false).startHandover 4) := by
  rw [exec_leverOpen, execLeverOpen]
  dsimp only
  rw [hm]
  exact when_pos (by rw [hc, hl]; rfl)

theorem exec_leverOpen_standby (hc : s.power.chip = true) (hl : s.fbit F.pairStatus_lever = false) (hm : s.mod = .standby) :
    exec (.leverOpen true) s = .next ((s.leverUp.setReady false).showRemoval true) := by
  rw [exec_leverOpen, execLeverOpen]
  dsimp only
  rw [hm]
  exact when_pos (by rw [hc, hl]; rfl)

theorem leverOpen_primary (hw : s.regsWf = true) (hc : s.power.chip = true) (hl : s.fbit F.pairStatus_lever = false) (hm : s.mod = .primary) :
    ∃ t, exec (.leverOpen true) s = .next t ∧ t.fbit F.pairStatus_lever = true ∧ t.fbit F.wfStatus_holdupRun = false ∧ t.mod = s.mod ∧
      keepsRegs [R.pairStatus, R.wfStatus, R.wfClcPreempt 10] s t ∧ (s.mod = .standby → t.fbit F.pairStatus_ready = false) ∧
      (s.mod = .primary → s.bogie.pReady = true → t.pair.handover = some 4 ∧ t.fbit F.pairStatus_handover = true) ∧
      (s.mod = .primary → s.bogie.pReady = false → t.pair = s.pair) := by
  have hf := frame_leverUp (s := s)
  have hw1 := hf.canon hw
  have hm1 : s.leverUp.mod = .primary := (hf.mod hw).trans hm
  obtain ⟨h1, h2⟩ := leverUp_shows hw
  have he := exec_leverOpen_primary hc hl hm
  cases hr : s.bogie.pReady with
  | true =>
    rw [hr, if_pos rfl, startHandover_asks hm1 ((congrArg Bogie.pReady (hf.part .bogie (by decide))).trans hr)] at he
    have hg : Frame [.regs, .pair] [.fld F.pairStatus_handover] s.leverUp (handoverAsked s.leverUp 4) := frame_handoverAsked ..
    have hg2 : Frame [.regs, .pair] [.fld F.pairStatus_lever, .reg R.wfStatus, .reg (R.wfClcPreempt 10), .fld F.pairStatus_handover] s
      (handoverAsked s.leverUp 4) := hf.sub.trans hg.sub
    exact ⟨_, he, (hg.fbit hw1).trans h1, (hg.fbit hw1).trans h2, hg2.mod hw, hg2.keepsRegs hw, (fun h => nomatch hm.symm.trans h),
      fun _ _ => ⟨rfl, fbit_fsetb (s := { s.leverUp with pair := _ }) hw1 (by decide) rfl⟩, (fun _ h => nomatch h)⟩
  | false =>
    have hg : Frame [.out] [] s.leverUp (s.leverUp.showRemoval false) := frame_showRemoval _ _
    have hr2 : (s.leverUp.showRemoval false).startHandover 4 = s.leverUp.showRemoval false := by
      rw [State.startHandover, hg.mod hw1, hm1]
      exact if_neg (by rw [hg.part .bogie (by decide), hf.part .bogie (by decide), hr]; decide)
    rw [hr, if_neg (by decide), hr2] at he
    have hg2 : Frame [.regs, .out] [.fld F.pairStatus_lever, .reg R.wfStatus, .reg (R.wfClcPreempt 10)] s (s.leverUp.showRemoval false) :=
      hf.sub.trans hg.sub
    exact ⟨_, he, (hg.fbit hw1).trans h1, (hg.fbit hw1).trans h2, hg2.mod hw, hg2.keepsRegs hw, (fun h => nomatch hm.symm.trans h),
      (fun _ h => nomatch h), fun _ _ => hg2.part .pair (by decide)⟩

theorem leverOpen_standby (hw : s.regsWf = true) (hc : s.power.chip = true) (hl : s.fbit F.pairStatus_lever = false) (hm : s.mod = .standby) :
    ∃ t, exec (.leverOpen true) s = .next t ∧ t.fbit F.pairStatus_lever = true ∧ t.fbit F.wfStatus_holdupRun = false ∧ t.mod = s.mod ∧
      keepsRegs [R.pairStatus, R.wfStatus, R.wfClcPreempt 10] s t ∧ (s.mod = .standby → t.fbit F.pairStatus_ready = false) ∧
      (s.mod = .primary → s.bogie.pReady = true → t.pair.handover = some 4 ∧ t.fbit F.pairStatus_handover = true) ∧
      (s.mod = .primary → s.bogie.pReady = false → t.pair = s.pair) := by
  have hf := frame_leverUp (s := s)
  have hw1 := hf.canon hw
  obtain ⟨h1, h2⟩ := leverUp_shows hw
  have hg : Frame [.regs, .out] [.fld F.pairStatus_ready] s.leverUp ((s.leverUp.setReady false).showRemoval true) := .trans .fsetb .emit
  have hg2 : Frame [.regs, .out] [.fld F.pairStatus_lever, .reg R.wfStatus, .reg (R.wfClcPreempt 10), .fld F.pairStatus_ready] s
      ((s.leverUp.setReady false).showRemoval true) := hf.sub.trans hg.sub
  exact ⟨_, exec_leverOpen_standby hc hl hm, (hg.fbit hw1).trans h1, (hg.fbit hw1).trans h2, hg2.mod hw, hg2.keepsRegs hw,
    fun _ => fbit_fsetb hw1 (by decide) rfl, (fun h => nomatch hm.symm.trans h), (fun h => nomatch hm.symm.trans h)⟩

/-- The partner's lever shown open, and its READY taken as gone. -/
def State.pLeverUp (s : State) : State := { (s.fset F.pairStatus_pLever 1).holdupAbort with bogie := { s.bogie with pReady := false } }

theorem leverOpen_partner (hw : s.regsWf = true) (hc : s.power.chip = true) (hl : s.fbit F.pairStatus_pLever = false) :
    exec (.leverOpen false) s = .next s.pLeverUp ∧ fieldSet F.pairStatus_pLever 1 s s.pLeverUp ∧
      s.pLeverUp.bogie = { s.bogie with pReady := false } ∧ keepsRegs [R.pairStatus, R.wfStatus, R.wfClcPreempt 10] s s.pLeverUp ∧
      s.pLeverUp = { s with regs := s.pLeverUp.regs, bogie := s.pLeverUp.bogie } := by
  have hw1 : (s.fset F.pairStatus_pLever 1).regsWf = true := regsWf_fset hw
  have hg : Frame [.regs, .bogie] [.reg R.wfStatus, .reg (R.wfClcPreempt 10)] (s.fset F.pairStatus_pLever 1) s.pLeverUp :=
    .trans frame_holdupEnds.sub .bogie
  have hf : Frame [.regs, .bogie] [.fld F.pairStatus_pLever, .reg R.wfStatus, .reg (R.wfClcPreempt 10)] s s.pLeverUp := .trans .fset hg.sub
  exact ⟨when_pos (by rw [hc, hl]; rfl), fieldSet_of_rd (fieldSet_fset_lt hw (by decide) (by decide)) (hg.rd hw1), rfl, hf.keepsRegs hw,
    hf.eq_patch⟩

theorem exec_leverClose_own (hc : s.power.chip = true) (hl : s.fbit F.pairStatus_lever = true) :
    exec (.leverClose true) s = .next (if (s.fset F.pairStatus_lever 0).mod = .standby ∧ (s.fset F.pairStatus_lever 0).mayReady
      then (s.fset F.pairStatus_lever 0).setReady true else s.fset F.pairStatus_lever 0) :=
  when_pos (by rw [hc, hl]; rfl)

theorem leverClose_own (hw : s.regsWf = true) (hc : s.power.chip = true) (hl : s.fbit F.pairStatus_lever = true) :
    ∃ t, exec (.leverClose true) s = .next t ∧ t.fbit F.pairStatus_lever = false ∧ onlyRegs [R.pairStatus] s t ∧
      (s.mod = .standby → t.mayReady = true → t.fbit F.pairStatus_ready = true) := by
  have hw1 : (s.fset F.pairStatus_lever 0).regsWf = true := regsWf_fset hw
  have hf : Frame [.regs] [.fld F.pairStatus_lever] s (s.fset F.pairStatus_lever 0) := .fset
  have h0 : (s.fset F.pairStatus_lever 0).fbit F.pairStatus_lever = false := by
    rw [fbit_fset hw (by decide)]
    rfl
  have he := exec_leverClose_own hc hl
  by_cases hr : (s.fset F.pairStatus_lever 0).mod = .standby ∧ (s.fset F.pairStatus_lever 0).mayReady = true
  · rw [if_pos hr] at he
    have hg : Frame [.regs] [.fld F.pairStatus_ready] (s.fset F.pairStatus_lever 0) ((s.fset F.pairStatus_lever 0).setReady true) := .fsetb
    have hfg : Frame [.regs] [.fld F.pairStatus_lever, .fld F.pairStatus_ready] s ((s.fset F.pairStatus_lever 0).setReady true) :=
      hf.sub.trans hg.sub
    exact ⟨_, he, (hg.fbit hw1).trans h0, hfg.onlyRegs hw, fun _ _ => fbit_fsetb hw1 (by decide) rfl⟩
  · rw [if_neg hr] at he
    exact ⟨_, he, h0, hf.onlyRegs hw, fun hm hy => absurd ⟨(hf.mod hw).trans hm, hy⟩ hr⟩

theorem leverClose_partner (hw : s.regsWf = true) (hc : s.power.chip = true) (hl : s.fbit F.pairStatus_pLever = true) :
    ∃ t, exec (.leverClose false) s = .next t ∧ fieldSet F.pairStatus_pLever 0 s t ∧ onlyRegs [R.pairStatus] s t :=
  ⟨_, when_pos (by rw [hc, hl]; rfl), fieldSet_fset_lt hw (by decide) (by decide), onlyRegs_fset⟩

/-! Lanes (R201). -/

theorem laneCount_lt (m : BitVec 4) : laneCount m < 2 ^ 3 := by
  refine Nat.lt_of_le_of_lt (List.length_filter_le _ _) ?_
  decide

theorem frame_setLanes (m : BitVec 4) : Frame [.regs, .bogie, .recd] [.fld F.pairStatus_lanes] s (s.setLanes m) :=
  .trans .bogie (.trans .fset .raise)

theorem setLanes_shows {m : BitVec 4} (hw : s.regsWf = true) :
    (s.setLanes m).bogie = { s.bogie with lanes := m } ∧ (s.setLanes m).fget F.pairStatus_lanes = laneCount m := by
  refine ⟨rfl, (fget_fset (s := { s with bogie := { s.bogie with lanes := m } }) hw (by decide)).trans ?_⟩
  exact Nat.mod_eq_of_lt (laneCount_lt m)

theorem getLsbD_lane (lane k : Fin 4) : (1#4 <<< lane.val).getLsbD k = (k == lane) := by
  revert lane k
  decide

theorem getLsbD_without (m : BitVec 4) (lane k : Fin 4) : (m &&& ~~~(1#4 <<< lane.val)).getLsbD k = (m.getLsbD k && k != lane) := by
  rw [BitVec.getLsbD_and, BitVec.getLsbD_not, getLsbD_lane, decide_eq_true k.isLt, Bool.true_and]
  rfl

theorem getLsbD_with (m : BitVec 4) (lane k : Fin 4) : (m ||| (1#4 <<< lane.val)).getLsbD k = (m.getLsbD k || k == lane) := by
  rw [BitVec.getLsbD_or, getLsbD_lane]

/-- The state on fewer lanes, whose link retrains where any is left. -/
def State.lanesLost (s : State) (m : BitVec 4) : State := { s.setLanes m with bogie := { (s.setLanes m).bogie with retrain := m != 0 } }

theorem laneLoss_retrains {lane : Fin 4} (hw : s.regsWf = true) (hc : s.power.chip = true) (hl : s.bogie.lanes.getLsbD lane = true) :
    ∃ t, exec (.drawbarLaneLoss lane) s = .next t ∧
      (∀ k : Fin 4, t.bogie.lanes.getLsbD k = (s.bogie.lanes.getLsbD k && k != lane)) ∧ t.bogie.retrain = decide (t.bogie.lanes ≠ 0) ∧
      t.fget F.pairStatus_lanes = laneCount t.bogie.lanes ∧ keepsRegs [R.pairStatus] s t ∧ t.out = s.out ∧ t.pair = s.pair := by
  have hf : Frame [.regs, .bogie, .recd] [.fld F.pairStatus_lanes] s (s.lanesLost (s.bogie.lanes &&& ~~~(1#4 <<< lane.val))) :=
    .trans (frame_setLanes _) .bogie
  refine ⟨_, when_pos (t := s.lanesLost (s.bogie.lanes &&& ~~~(1#4 <<< lane.val))) (by rw [hc, hl]; rfl), fun k => getLsbD_without _ _ k, ?_,
    (setLanes_shows hw).2, hf.keepsRegs hw, hf.part .out (by decide), hf.part .pair (by decide)⟩
  exact Bool.eq_iff_iff.mpr (bne_iff_ne.trans decide_eq_true_iff.symm)

/-! Messages (R202). -/

theorem foldl_sendOnce_carries {α : Type} {f : α → Out} (l : List α) (h : s.dbCarries = true) :
    l.foldl (fun (s : State) m => s.sendOnce (f m)) s = { s with out := s.out ++ l.map f } := by
  induction l generalizing s with
  | nil => rw [List.map_nil, List.append_nil]; rfl
  | cons a l ih =>
    have he : s.sendOnce (f a) = s.emit (f a) := if_pos h
    rw [List.foldl_cons, he, ih (s := s.emit (f a)) h, List.map_cons, ← List.singleton_append, ← List.append_assoc]
    rfl

theorem foldl_sendOnce_silent {α : Type} {f : α → Out} (l : List α) (h : s.dbCarries = false) :
    l.foldl (fun (s : State) m => s.sendOnce (f m)) s = s := by
  induction l with
  | nil => rfl
  | cons a l ih =>
    have he : s.sendOnce (f a) = s := if_neg (by rw [h]; decide)
    rw [List.foldl_cons, he, ih]

/-- The messages not acknowledged, in the order of their priority. -/
def State.waitingBodies (s : State) : List Out :=
  ([1, 4, 5].flatMap (fun p => s.pair.msgs.filter (fun m => m.body.prio == p))).map (·.body)

/-- The waiting messages of one priority sent. -/
def State.resendPrio (s : State) (p : Nat) : State :=
  (s.pair.msgs.filter (fun m => m.body.prio == p)).foldl (fun (s : State) m => s.sendOnce m.body) s

theorem resendAll_eq : s.resendAll = ((s.resendPrio 1).resendPrio 4).resendPrio 5 := rfl

theorem resendPrio_carries {p : Nat} (h : s.dbCarries = true) :
    s.resendPrio p = { s with out := s.out ++ (s.pair.msgs.filter (fun m => m.body.prio == p)).map (·.body) } := foldl_sendOnce_carries _ h

theorem resendPrio_silent {p : Nat} (h : s.dbCarries = false) : s.resendPrio p = s := foldl_sendOnce_silent _ h

theorem resendAll_carries (h : s.dbCarries = true) : s.resendAll = { s with out := s.out ++ s.waitingBodies } := by
  obtain ⟨u, hu⟩ : ∃ u, u = s.resendPrio 1 := ⟨_, rfl⟩
  obtain ⟨v, hv⟩ : ∃ v, v = u.resendPrio 4 := ⟨_, rfl⟩
  have h1 := hu.trans (resendPrio_carries h)
  have h2 := hv.trans (resendPrio_carries (by rw [h1]; exact h))
  have h3 : v.resendPrio 5 = _ := resendPrio_carries (by rw [h2, h1]; exact h)
  rw [resendAll_eq, ← hu, ← hv, h3, h2, h1]
  simp [State.waitingBodies]

theorem resendAll_silent (h : s.dbCarries = false) : s.resendAll = s := by
  rw [resendAll_eq, resendPrio_silent h, resendPrio_silent h, resendPrio_silent h]

/-- The state on one lane more; where there was none, the messages that waited are sent again. -/
def State.laneBack (s : State) (lane : Fin 4) : State :=
  if s.bogie.lanes = 0 then (s.setLanes (s.bogie.lanes ||| (1#4 <<< lane.val))).resendAll
  else s.setLanes (s.bogie.lanes ||| (1#4 <<< lane.val))

theorem dbCarries_laneBack (lane : Fin 4) : (s.setLanes (s.bogie.lanes ||| (1#4 <<< lane.val))).dbCarries = !s.bogie.retrain := by
  have hne : s.bogie.lanes ||| (1#4 <<< lane.val) ≠ 0 := by
    intro h
    have h1 := getLsbD_with s.bogie.lanes lane lane
    rw [h, beq_self_eq_true, Bool.or_true] at h1
    simp at h1
  have h1 : ((s.bogie.lanes ||| (1#4 <<< lane.val)) != 0) = true := bne_iff_ne.mpr hne
  change ((s.bogie.lanes ||| (1#4 <<< lane.val)) != 0 && !s.bogie.retrain) = _
  rw [h1, Bool.true_and]

theorem frame_resendAll : Frame [.out] [] s s.resendAll := by
  cases h : s.dbCarries with
  | true => rw [resendAll_carries h]; exact .patched rfl rfl rfl
  | false => rw [resendAll_silent h]; exact .refl s

theorem laneBack_out (lane : Fin 4) : (s.laneBack lane).out = s.out ++ if s.bogie.lanes = 0 ∧ s.bogie.retrain = false then s.waitingBodies else [] := by
  rw [State.laneBack]
  by_cases hl : s.bogie.lanes = 0
  · rw [if_pos hl]
    have hc := dbCarries_laneBack (s := s) lane
    generalize s.bogie.lanes ||| (1#4 <<< lane.val) = m at *
    cases hr : s.bogie.retrain with
    | false =>
      rw [if_pos ⟨hl, rfl⟩, resendAll_carries (hc.trans (by rw [hr]; rfl))]
      rfl
    | true =>
      rw [if_neg (fun h => nomatch h.2), resendAll_silent (hc.trans (by rw [hr]; rfl)), List.append_nil]
      rfl
  · rw [if_neg hl, if_neg (fun h => hl h.1), List.append_nil]
    rfl

theorem laneReturn_resends {lane : Fin 4} (hw : s.regsWf = true) (hc : s.power.chip = true) (hl : s.bogie.lanes.getLsbD lane = false) :
    ∃ t, exec (.drawbarLaneReturn lane) s = .next t ∧
      (∀ k : Fin 4, t.bogie.lanes.getLsbD k = (s.bogie.lanes.getLsbD k || k == lane)) ∧ t.bogie.retrain = s.bogie.retrain ∧
      t.fget F.pairStatus_lanes = laneCount t.bogie.lanes ∧ keepsRegs [R.pairStatus] s t ∧ t.pair = s.pair ∧
      t.out = s.out ++ if s.bogie.lanes = 0 ∧ s.bogie.retrain = false then s.waitingBodies else [] := by
  have h0 : Frame [.out] [] (s.setLanes (s.bogie.lanes ||| (1#4 <<< lane.val))) (s.laneBack lane) := .ite frame_resendAll (.refl _)
  have hf : Frame [.regs, .bogie, .recd, .out] [.fld F.pairStatus_lanes] s (s.laneBack lane) := .trans (frame_setLanes _).sub h0.sub
  have hb : (s.laneBack lane).bogie = { s.bogie with lanes := s.bogie.lanes ||| (1#4 <<< lane.val) } := h0.part .bogie (by decide)
  refine ⟨_, when_pos (t := s.laneBack lane) (by rw [hc, hl]; rfl), fun k => ?_, by rw [hb], ?_, hf.keepsRegs hw,
    hf.part .pair (by decide), laneBack_out lane⟩
  · rw [hb]
    exact getLsbD_with _ _ k
  · rw [h0.fget ((frame_setLanes _).canon hw), hb]
    exact (setLanes_shows hw).2

theorem exec_retrainDone_resends (hr : s.bogie.retrain = true) (hl : s.bogie.lanes ≠ 0) : exec .drawbarRetrainDone s =
    .next { s with bogie := { s.bogie with retrain := false }, out := s.out ++ s.waitingBodies } := by
  have hc : State.dbCarries { s with bogie := { s.bogie with retrain := false } } = true := by
    have h1 : (s.bogie.lanes != 0) = true := bne_iff_ne.mpr hl
    change (s.bogie.lanes != 0 && !false) = true
    rw [h1]
    rfl
  rw [exec_drawbarRetrainDone, execDrawbarRetrainDone, resendAll_carries hc]
  exact when_pos hr

theorem dbCarries_of_linkUp (h : s.linkUp) : s.dbCarries = true := by
  obtain ⟨hl, hr⟩ := h
  rw [State.dbCarries, bne_iff_ne.mpr hl, hr]
  rfl

theorem exec_msgRepeat_sends {m : DrawbarMsg} (hm : m ∈ s.pair.msgs) (hl : s.linkUp) (hu : ∀ x ∈ s.pair.msgs, x.id = m.id → x = m) :
    exec (.drawbarMsgRepeat m.id) s = .next { s with out := s.out ++ [m.body] } := by
  rw [exec_drawbarMsgRepeat, execDrawbarMsgRepeat]
  cases hf : s.pair.msgs.find? (fun x => x.id == m.id) with
  | none => exact absurd (beq_self_eq_true m.id) (by simpa using List.find?_eq_none.mp hf m hm)
  | some x =>
    have hx : x = m := hu x (List.mem_of_find?_eq_some hf) (beq_iff_eq.mp (List.find?_some (p := fun x : DrawbarMsg => x.id == m.id) hf))
    rw [hx]
    exact congrArg Host.Outcome.next (if_pos (dbCarries_of_linkUp hl))

theorem exec_msgRepeat_rests {id : Nat} (h : ∀ m ∈ s.pair.msgs, m.id ≠ id) : exec (.drawbarMsgRepeat id) s = .next s := by
  have hf : s.pair.msgs.find? (fun x => x.id == id) = none := List.find?_eq_none.mpr fun m hm => by
    rw [beq_iff_eq]
    exact h m hm
  rw [exec_drawbarMsgRepeat, execDrawbarMsgRepeat, hf]

theorem ackRx_ends (id : Nat) : ∃ t, exec (.drawbarAckRx id) s = .next t ∧
    t.pair = { s.pair with msgs := s.pair.msgs.filter (fun m => m.id ≠ id) } ∧ t.mem = s.mem := by
  refine ⟨_, rfl, ?_, ?_⟩
  · exact (frame_completeAll _).part .pair (by decide)
  · exact (frame_completeAll _).part .mem (by decide)

/-! Messages acted on once (R202, R461). -/

/-- A command that acts on a message of a given number once, where MC runs. -/
def ActsOnce (id : Nat) (i : Instr) (s : State) : Prop := ∃ t, exec i s = s.onceOnly id t

theorem onceOnly_seen {id : Nat} (hu : s.up = true) (hc : s.fbit F.pwrStatus_cfgDone = true) (hs : s.pair.seen.contains id = true)
    (hl : s.linkUp) : s.onceOnly id t = .next { s with out := s.out ++ [.drawbarAck id] } := by
  rw [State.onceOnly, hu, hc, hs]
  exact congrArg Host.Outcome.next (if_pos (dbCarries_of_linkUp hl))

theorem onceOnly_unset {id : Nat} (hu : s.up = true) (hc : s.fbit F.pwrStatus_cfgDone = false) :
    s.onceOnly id t = .next (s.bump 0x5010) := by
  rw [State.onceOnly, hu, hc]
  rfl

theorem actsOnce_messages {id : Nat} {i : Instr} (hr : s.fbit F.sysStatus_mcRun = true) (hi : (∃ c, i = .tripNoticeRx id c) ∨
    i = .handoverRequestRx id ∨ (∃ o a d, i = .configForwardRx id o a d) ∨ (∃ r d, i = .forwardedCommandRx id r d) ∨
    (∃ r x y d, i = .forwardedReplyRx id r x y d)) : ActsOnce id i s := by
  rcases hi with ⟨c, rfl⟩ | rfl | ⟨o, a, d, rfl⟩ | ⟨r, d, rfl⟩ | ⟨r, x, y, d, rfl⟩
  · exact ⟨_, rfl⟩
  · exact ⟨_, rfl⟩
  · exact ⟨_, if_neg (by rw [hr]; decide)⟩
  · exact ⟨_, rfl⟩
  · exact ⟨_, rfl⟩

theorem exec_linkReturn_shows (hf : s.bogie.linkFault = true) : exec .islandLinkReturn s = .next (s.linkShown false 0) :=
  when_pos hf

theorem linkFault_clauses (hw : s.regsWf = true) (hu : s.up = true) (hf : s.bogie.linkFault = false) :
    ∃ t r, exec .islandLinkFault s = .next t ∧ t.bogie = { s.bogie with linkFault := true } ∧
      fieldSet F.pairStatus_islLink 1 s t ∧ keepsRegs [R.pairStatus] s t ∧ t.recd.raised = s.recd.raised ++ [r] ∧
      (s.token = true → t.island = s.island) ∧
      (s.token = false → ∀ n : Fin 32, t.island.mirror.getLsbD n = if s.isRfx n then s.vote n else s.scanCmd.dig.getLsbD n) := by
  obtain ⟨h1, h2, h3, ⟨r, h4⟩, h5⟩ := linkShown_shows (b := true) hw (v := 1) (by decide)
  have he := exec_linkFault_shows hu hf
  have hm := linkFault_mirrors (s := s)
  generalize s.linkShown true 1 = u at *
  cases ht : s.token with
  | true =>
    rw [ht, if_pos rfl] at he
    exact ⟨_, r, he, h1, h2, h3, h4, fun _ => h5, (fun h => nomatch h)⟩
  | false =>
    rw [ht, if_neg (by decide)] at he
    have hg : Frame [.island] [] u u.mirrorFill := .island
    have hr (off : Nat) : u.mirrorFill.rd off = u.rd off := congrArg (fun l => sget regReset l off) (hg.part .regs (by decide))
    exact ⟨_, r, he, (hg.part .bogie (by decide)).trans h1, fieldSet_of_rd h2 (hr _), fun o ho => (hr o).trans (h3 o ho),
      by rw [hg.part .recd (by decide), h4], (fun h => nomatch h), fun _ => hm⟩

theorem linkReturn_clauses (hw : s.regsWf = true) (hf : s.bogie.linkFault = true) :
    ∃ t r, exec .islandLinkReturn s = .next t ∧ t.bogie = { s.bogie with linkFault := false } ∧
      fieldSet F.pairStatus_islLink 0 s t ∧ keepsRegs [R.pairStatus] s t ∧ t.recd.raised = s.recd.raised ++ [r] ∧ t.island = s.island := by
  obtain ⟨h1, h2, h3, ⟨r, h4⟩, h5⟩ := linkShown_shows (b := false) hw (v := 0) (by decide)
  have he := exec_linkReturn_shows hf
  generalize s.linkShown false 0 = u at *
  exact ⟨_, r, he, h1, h2, h3, h4, h5⟩

/-- Settles O48: every clause is one branch of its command; what is sent again is a fold over the waiting messages, which sends
each of them or, while the Drawbar carries nothing, none. -/
theorem links : Obligations.Links := by
  refine ⟨fun s hw => ?_, fun s hw => ?_⟩
  · exact ⟨fun d l ht ho hf => exec_linkFrame_mirrors ht ho hf, fun d l ht => exec_linkFrame_token ht, linkFault_clauses hw, linkReturn_clauses hw,
      fun hc hl hm => hm.elim (leverOpen_primary hw hc hl) (leverOpen_standby hw hc hl), fun hc hl => ⟨_, leverOpen_partner hw hc hl⟩,
      leverClose_own hw, leverClose_partner hw⟩
  · refine ⟨fun lane hc => ⟨laneLoss_retrains hw hc, laneReturn_resends hw hc⟩, exec_retrainDone_resends,
      fun m hm hl hu => exec_msgRepeat_sends hm hl hu, fun id h => exec_msgRepeat_rests h, ackRx_ends, fun id hu hr i hi => ?_⟩
    obtain ⟨t, ht⟩ := actsOnce_messages hr hi
    exact ⟨fun hc hs hl => ht.trans (onceOnly_seen hu hc hs hl), fun hc => ignored_of hw (ht.trans (onceOnly_unset hu hc))⟩

end Sys2Proof.Machine
end

section
/-! What happens at a boundary (R14 to R16, R41): the plans that become active, and the work that goes on. -/

namespace Sys2Proof.Machine

variable {s t u : State} {b : Nat}

/-! The plan registers of the blocks. -/

/-- Where the plan registers of the blocks stand. -/
abbrev groupPlaces : List Rect := [.reg R.scanWdTol, .reg R.brmAuditCtrl, .span R.rfxOutBind (R.rfxSafe + 4), .reg R.olcCfg,
  .reg R.pairCfg, .blk 6, .blk 7, .blk 8, .blk 9, .blk 0xa, .blk 0xc, .reg R.drayCfg, .span R.timePtpCfg (R.timeUtcCfg + 4), .reg R.memCfg,
  .reg R.wfCfg, .reg R.recCfg, .reg R.obsCfg, .reg R.pwrCfg]

/-- The whole of a row of registers lies within one of some places. -/
def rowIn (W : List Rect) (r : RegRow) : Bool :=
  W.any (fun q => q == .span q.lo q.hi && (Nat.ble q.lo r.first && (Nat.blt 0 r.count && Nat.blt (r.first + r.stride * (r.count - 1)) q.hi)))

theorem rows_rws : ∀ b < 22, ∀ r ∈ rowsOfBlock b, r.access = .rws → rowIn groupPlaces r = true := by decide +kernel

theorem rowsOfBlock_nil (h : 22 ≤ b) : rowsOfBlock b = [] := by
  obtain ⟨k, rfl⟩ := Nat.exists_eq_add_of_le' h
  rfl

theorem cover_row {W : List Rect} {r : RegRow} {o : Nat} (hr : rowIn W r = true) (ho : r.has o = true) : coverAll W ⟨o, 0, 32⟩ = true := by
  obtain ⟨q, hq, hc⟩ := List.any_eq_true.mp hr
  simp only [Bool.and_eq_true, Nat.ble_eq, Nat.blt_eq, beq_iff_eq] at hc
  obtain ⟨he, hlo, hn, hhi⟩ := hc
  simp only [RegRow.has, Bool.and_eq_true, decide_eq_true_eq, beq_iff_eq] at ho
  obtain ⟨⟨h1, h2⟩, h3⟩ := ho
  have hd := Nat.div_add_mod (o - r.first) r.stride
  have hm : r.stride * ((o - r.first) / r.stride) ≤ r.stride * (r.count - 1) := Nat.mul_le_mul_left _ (by omega)
  refine cover_span q.lo q.hi ⟨le_trans hlo h1, ?_⟩ (List.contains_iff_mem.mpr (he ▸ hq)) rfl
  show o < q.hi
  omega

theorem cover_rws {o : Nat} (h : isRws o = true) : coverAll groupPlaces ⟨o, 0, 32⟩ = true := by
  unfold isRws at h
  split at h
  next r hr =>
    have hm := List.mem_of_find?_eq_some hr
    have hb : o / 0x1000 < 22 := by
      by_contra hb
      rw [rowsOfBlock_nil (by omega)] at hm
      cases hm
    exact cover_row (rows_rws _ hb r hm (beq_iff_eq.mp h)) (List.find?_some (p := fun x : RegRow => x.has o) hr)
  next => cases h

theorem cover_timing {o : Nat} (h : isTiming o = true) : coverAll groupPlaces ⟨o, 0, 32⟩ = true := by
  refine cover_span 0xA000 0xB000 ?_
  simp only [isTiming, isArr, Bool.or_eq_true, Bool.and_eq_true, decide_eq_true_eq, beq_iff_eq] at h
  dsimp only
  omega

/-- Registers copied from the active values: only those copied change. -/
theorem frame_scopyRegs {W : List Rect} {q : Nat → Bool} (hq : ∀ o, q o = true → coverAll W ⟨o, 0, 32⟩ = true) :
    Frame [.regs] W s { s with regs := scopy regReset q s.act s.regs } := by
  refine ⟨fun p hp => ?_, regsWf_regs_scopy, fun hs f hf ha => ?_⟩
  · cases p
    case regs => exact absurd (List.mem_singleton.mpr rfl) hp
    all_goals rfl
  · by_cases hw : f.width = 0
    · rw [State.fget, State.fget, hw, fldN, fldN, Nat.pow_zero, Nat.mod_one, Nat.mod_one]
    · refine fget_congr ?_
      rw [rd_regs_scopy hs]
      refine if_neg fun hc => ?_
      obtain ⟨r, hr, hcov⟩ := List.any_eq_true.mp (hq _ hc)
      have hd := Rect.disjoint_of_apart hcov (List.all_eq_true.mp ha r hr)
      dsimp only at hd
      omega

/-! A plan activated, or refused, at a safe point (R14, R15). -/

abbrev pendPlaces : List Rect := [.reg R.sysShadowPend, .reg R.sysApplyPend]

theorem frame_takeGroup (s : State) (b : Nat) : Frame [.act] [] s (s.takeGroup b) := frame_takeRegs s _

theorem frame_dropGroup (s : State) (hb : b < 32) : Frame [.regs, .conf] (groupPlaces ++ pendPlaces) s (s.dropGroup b) := by
  have h1 : Frame [.regs, .conf] (groupPlaces ++ pendPlaces) s
      { s with regs := scopy regReset (fun o => o / 0x1000 == b && (isRws o || isTiming o)) s.act s.regs } := by
    refine (frame_scopyRegs (W := groupPlaces) fun o ho => ?_).sub
    obtain ⟨-, ho⟩ := Bool.and_eq_true_iff.mp ho
    exact (Bool.or_eq_true_iff.mp ho).elim cover_rws cover_timing
  exact .trans (.trans h1 .conf) (frame_pendClear _ b hb).sub

theorem frame_acqClearHistory (s : State) : Frame [.regs, .acq] [.fld F.acqStatus_full] s s.acqClearHistory := Frame.after Frame.fset <| Frame.acq

abbrev hookPlaces : List Rect := [.reg R.rfxPlanGen, .reg R.pairPlanGen, .blk 0x6, .blk 0x7, .fld F.acqStatus_full, .reg R.acqPlanGen, .blk 0x9,
  .reg R.canPlanGen, .reg R.dmaPlanGen, .reg R.wfStatus]

/-- What a plan sets going in its block, other than the DMA channels and PTP. -/
theorem frame_planHook (s : State) (h12 : b ≠ 12) (h14 : b ≠ 14) :
    Frame [.regs, .conf, .island, .acq, .ring, .can] hookPlaces s (s.planHook b) := by
  unfold State.planHook
  rw [if_neg h12, if_neg h14]
  refine Frame.ite (Frame.after (frame_showIsland ..).sub <| Frame.after (frame_genUp ..).sub <| (frame_islandLoad ..).sub)
    (Frame.ite (Frame.after (frame_showIsland ..).sub <| (frame_islandLoad ..).sub) (Frame.ite (frame_acqClearHistory ..).sub
    (Frame.ite ?_ (Frame.ite (frame_canActivate ..).sub (Frame.ite (Frame.foldlAll _ (fun _ _ => (frame_showParked ..).sub) _ _)
    (Frame.refl _))))))
  split
  · exact Frame.after Frame.wr <| Frame.after Frame.conf <| (frame_ringActivate ..).sub
  · exact (frame_ringPhy ..).sub

abbrev planPlaces : List Rect := groupPlaces ++ pendPlaces ++ hookPlaces

abbrev planParts : List Part := [.out, .regs, .act, .conf, .pair, .island, .acq, .ring, .can]

theorem frame_planActivate (s : State) (hb : b < 32) (h12 : b ≠ 12) (h14 : b ≠ 14) : Frame planParts planPlaces s (s.planActivate b) :=
  Frame.ite (Frame.refl _) (Frame.after (Frame.ite (Frame.refl _) (Frame.after (Frame.ite (frame_dropGroup _ hb).sub
    (Frame.after (frame_tellPlans ..).sub <| Frame.after (frame_planHook _ h12 h14).sub <| Frame.after (frame_genUp ..).sub <|
    Frame.after (frame_pendClear (h := hb) ..).sub <| (frame_takeGroup ..).sub)) <| (frame_agreementUsed ..).sub)) <| Frame.ite
    (frame_takeTiming ..).sub (Frame.refl _))

theorem frame_planBoundary (s : State) : Frame planParts planPlaces s s.planBoundary :=
  Frame.after (Frame.ite (frame_takeTiming ..).sub (Frame.refl _)) <| Frame.foldl (fun u b hb => Frame.ite
    (frame_planActivate u (by revert b; decide) (by revert b; decide) (by revert b; decide)).sub (Frame.refl _)) _

/-! The boundary, where nothing of the configuration or the roles waits for it (R41, R67). -/

/-- Nothing waits for the boundary: no carry-over, no audit verdict, no change of service. -/
structure State.Quiet (s : State) : Prop where
  carry : s.olc.carry = none
  verdicts : s.brm.retireReq = []
  service : s.scan.service = none

abbrev boundaryParts : List Part := [.out, .regs, .act, .mem, .conf, .clk, .cat, .pair, .olc, .brm, .recd, .island, .acq, .ring, .can, .obs]

abbrev boundaryPlaces : List Rect := planPlaces ++ [.reg R.scanCycleLo, .reg (R.scanCycleLo + 4), .blk 0x2, .blk 0x4, .blk 0xf, .blk 0x14]

/-- The boundary's work up to the values that wait to be written. -/
def State.boundaryCore (s : State) (n : W64) : State := ((s.wr64 R.scanCycleLo n).planBoundary.admitPending.reenterHeld).shortfallCheck

/-- The values that wait to be written take effect where the scan runs. -/
def State.vwBoundary (s : State) : State := if s.scanRuns then s.vwApply else s

theorem frame_boundaryCore (s : State) (n : W64) : Frame boundaryParts boundaryPlaces s (s.boundaryCore n) :=
  Frame.after (frame_shortfallCheck ..).sub <| Frame.after (frame_reenterHeld ..).sub <| Frame.after (frame_admitPending ..).sub <|
    Frame.after (frame_planBoundary ..).sub <| Frame.wr64

theorem boundaryWork_quiet (h : s.Quiet) (n : W64) : s.boundaryWork n = (s.boundaryCore n).vwBoundary.obsBoundary := by
  obtain ⟨h1, h2, h3⟩ := h
  have hb : (s.wr64 R.scanCycleLo n).bankSwitch n = s.wr64 R.scanCycleLo n := by
    unfold State.bankSwitch
    rw [show (s.wr64 R.scanCycleLo n).olc.carry = none from h1]
  have hp : ((s.wr64 R.scanCycleLo n).planBoundary).applyVerdicts = (s.wr64 R.scanCycleLo n).planBoundary := by
    have hr : ((s.wr64 R.scanCycleLo n).planBoundary).brm = s.brm := (frame_planBoundary _).part .brm (by decide)
    generalize (s.wr64 R.scanCycleLo n).planBoundary = t at *
    rw [State.applyVerdicts, hr, h2]
    show { t with brm := { t.brm with retireReq := [] } } = t
    rw [hr, ← h2]
    cases t
    cases hr
    rfl
  have hv : (s.boundaryCore n).vwBoundary.scan = s.scan :=
    (Frame.ite (frame_vwApply (s.boundaryCore n)) (.refl _)).part .scan (by decide) |>.trans ((frame_boundaryCore s n).part .scan (by decide))
  have hs : (s.boundaryCore n).vwBoundary.serviceMove = (s.boundaryCore n).vwBoundary := by
    rw [State.serviceMove, hv, h3]
  rw [State.boundaryWork, hb, hp]
  exact congrArg State.obsBoundary hs

theorem frame_boundaryWork (h : s.Quiet) (n : W64) : Frame boundaryParts boundaryPlaces s (s.boundaryWork n) := by
  rw [boundaryWork_quiet h]
  exact Frame.after (frame_obsBoundary ..).sub <| Frame.after (Frame.ite (frame_vwApply ..).sub (Frame.refl _)) <| frame_boundaryCore s n

/-! The host rings, the CAN ports and the field stations at a takeover (R199, R216). -/

theorem frame_canTakeover (s : State) : Frame [.regs, .can] [.blk 0xa] s s.canTakeover := Frame.foldlAll _ (fun _ _ =>
    (frame_canLoad ..).sub) _ _

theorem frame_stationEvent (s : State) (code n : Nat) (seen : BitVec 2) : Frame [.regs, .scan, .recd] [.fld
    F.scanStatus_evqFull, .reg R.scanEvqDepth, .reg R.scanEvqOvf] s (s.stationEvent code n seen) :=
  Frame.ite (frame_event ..).sub (Frame.refl _)

theorem frame_ringTakeover (s : State) : Frame [.regs, .scan, .recd] [.fld F.scanStatus_evqFull, .reg R.scanEvqDepth, .reg
    R.scanEvqOvf] s s.ringTakeover :=
  Frame.foldlAll _ (fun _ _ => Frame.ite (frame_stationEvent ..).sub (Frame.ite (frame_stationEvent ..).sub (Frame.refl _))) _ _

abbrev resumePlaces : List Rect := [.blk 0xb, ⟨R.hostPpCmds 0, 0, 0x40, 0, 32⟩, .span 0xB218 0]

/-- One host ring taken up at the position of the last seal. -/
def State.resumeRing (h : HostSeal) (s : State) (n : Nat) : State :=
  if !s.ringOn n then s
  else if s.fbit (F.hostPpStatus_peerDiff (n / 8)) then (s.fset (F.hostChnErr_halted n) 1).fset ⟨R.hostStatus, n, 1⟩ 1
  else
    let s := (s.wr (R.hostChnTaken n) (vget h.taken n)).wr (R.hostChnDone n) (vget h.done n)
    { s with host := { s.host with catchUp := s.host.catchUp.add n } }

theorem frame_resumeRing {h : HostSeal} {n : Nat} (hn : n < 16) : Frame [.regs, .host] [.blk 0xb] s (s.resumeRing h n) := by
  have hc {o lo w : Nat} (ho : 0xB000 ≤ o ∧ o < 0xC000) (hw : lo + w ≤ 32) : coverAll [.blk 0xb] ⟨o, lo, w⟩ = true :=
    cover_span 0xB000 0xC000 ho rfl (Nat.ble_eq.mpr hw)
  refine .ite (.refl s) (.ite (.trans (.fset (hc (w := 1) ?_ (by decide))) (.fset (hc (o := R.hostStatus) (w := 1) (by decide) ?_)))
    (.trans (.trans (.wr (hc ?_ (by decide))) (.wr (hc ?_ (by decide)))) .host))
  · show 0xB000 ≤ 0xB21C + n * 0x20 ∧ 0xB21C + n * 0x20 < 0xC000
    omega
  · omega
  · show 0xB000 ≤ 0xB214 + n * 0x20 ∧ 0xB214 + n * 0x20 < 0xC000
    omega
  · show 0xB000 ≤ 0xB218 + n * 0x20 ∧ 0xB218 + n * 0x20 < 0xC000
    omega

theorem frame_ringResume (s : State) (ahead : Vector Nat 2) : Frame [.out, .regs, .host, .dma] resumePlaces s (s.ringResume ahead) := by
  unfold State.ringResume
  extract_lets h pend _ s0 s1
  have h0 : Frame [.out, .regs, .host, .dma] resumePlaces s s0 := Frame.patched rfl rfl rfl
  have h1 : Frame [.out, .regs, .host, .dma] resumePlaces s0 s1 :=
    Frame.foldl (fun u n hn => (frame_resumeRing (h := h) (List.mem_range.mp hn)).sub) _
  exact h0.trans (h1.trans (.trans (.foldlAll _ (fun _ _ => .ite .emit (.refl _)) _ _) (frame_completeAll ..).sub))

theorem frame_resumeNS (s : State) : Frame [.regs, .clk, .brm] [.reg R.wfStatus] s s.resumeNS :=
  Frame.after (Frame.foldlAll _ (fun _ _ => (frame_deal ..).sub) _ _) <| Frame.brm

abbrev positionPlaces : List Rect := .blk 0xa :: resumePlaces

theorem frame_takePositions (s : State) (ahead : Vector Nat 2) : Frame [.out, .regs, .can, .host, .dma] positionPlaces s (s.takePositions ahead) :=
  Frame.after (frame_canTakeover ..).sub <| (frame_ringResume ..).sub

abbrev evqPlaces : List Rect := [.fld F.scanStatus_evqFull, .reg R.scanEvqDepth, .reg R.scanEvqOvf]

theorem frame_becameEvent (s : State) : Frame [.regs, .scan, .recd] evqPlaces s s.becameEvent := (frame_event ..).sub

/-! An event changes of the scan its queue alone. -/

/-- The scan of `t` is that of `s` but for the queue of events. -/
def ScanStands (s t : State) : Prop := t.scan = { s.scan with evq := t.scan.evq, evqLost := t.scan.evqLost }

theorem ScanStands.refl (s : State) : ScanStands s s := rfl

theorem ScanStands.trans (h1 : ScanStands s t) (h2 : ScanStands t u) : ScanStands s u := by
  unfold ScanStands at *
  rw [h1] at h2
  exact h2

theorem ScanStands.of_frame {ps : List Part} {W : List Rect} (h : Frame ps W s t)
    (hp : autoParam (decide (Part.scan ∈ ps) = false) List.TFAE.out._auto_1) : ScanStands s t := by
  have he : t.scan = s.scan := h.part .scan (of_decide_eq_false hp)
  unfold ScanStands
  rw [he]

theorem scanStands_queueEvent (code : Nat) (src : W32) (ps : List W64) : ScanStands s (s.queueEvent code src ps) := by
  unfold State.queueEvent
  dsimp only
  split
  · rfl
  · split <;> rfl

theorem scanStands_event (code b n : Nat) (ps : List W64) : ScanStands s (s.event code b n ps) := by
  unfold State.event
  split
  · exact scanStands_queueEvent ..
  · rfl

theorem scanStands_stationEvent (code n : Nat) (seen : BitVec 2) : ScanStands s (s.stationEvent code n seen) := by
  unfold State.stationEvent
  split
  · exact scanStands_event ..
  · rfl

theorem scanStands_ringTakeover : ScanStands s s.ringTakeover := by
  have h {α : Type} {f : State → α → State} (hf : ∀ s a, ScanStands s (f s a)) (l : List α) (s : State) : ScanStands s (l.foldl f s) := by
    induction l generalizing s with
    | nil => exact .refl s
    | cons a l ih => exact (hf s a).trans (ih _)
  refine h (fun s t => ?_) _ s
  dsimp only
  split
  · exact scanStands_stationEvent ..
  · split
    · exact scanStands_stationEvent ..
    · exact .refl s

end Sys2Proof.Machine
end

section
/-! The rise of the token, the takeover and the ramp of the loops (R198, R212, R216 to R218). -/

namespace Sys2Proof.Machine

variable {s t u : State} {ahead : Vector Nat 2}

/-! The role of a module whose token has risen (R212, R216). -/

/-- A switch towards this module logged, and the module PRIMARY. -/
def State.roleLogged (s : State) (kind : Nat) : State := (s.logSwitch s.pair.incoming kind true).enter .primary

theorem frame_roleLogged (k : Nat) : Frame [.out, .regs, .mem, .pair, .olc, .brm, .recd] (logSwitchPlaces ++ [.fld F.brmStatus_auditRun,
    .fld F.pairStatus_state]) s (s.roleLogged k) := .trans (frame_logSwitch ..).sub (frame_enter ..).sub

theorem pair_logSwitch (trigger kind : Nat) : (s.logSwitch trigger kind true).pair = { s.pair with lastSwitch := some s.time.tb3 } := by
  have h := frame_olcCancel s
  have h1 : s.olcCancel.pair = s.pair := h.part .pair (by decide)
  have h2 : s.olcCancel.time = s.time := h.part .time (by decide)
  rw [State.logSwitch, if_pos rfl]
  generalize s.olcCancel = u at *
  rw [← h1, ← h2]
  rfl

theorem pair_roleLogged (k : Nat) : (s.roleLogged k).pair = { s.pair with lastSwitch := some s.time.tb3 } :=
  ((frame_enter ..).part .pair (by decide)).trans (pair_logSwitch ..)

theorem mod_roleLogged (hw : s.regsWf = true) (k : Nat) : (s.roleLogged k).mod = .primary := mod_enter ((frame_logSwitch ..).canon hw)

/-- READY dropped, and the pair's record of the switch brought up to date. -/
def State.unready (s : State) (x : Pair) : State := { s.setReady false with pair := x }

theorem frame_unready (x : Pair) : Frame [.regs, .pair] [.fld F.pairStatus_ready] s (s.unready x) := .trans (frame_setReady ..).sub .pair

theorem ready_unready (hw : s.regsWf = true) (x : Pair) : (s.unready x).fbit F.pairStatus_ready = false := fbit_fsetb hw (by decide) rfl

/-- A module that was handed the token goes on at once. -/
def State.goesOnAs (s : State) (ahead : Vector Nat 2) : State := ((s.takePositions ahead).resumeNS).becameEvent

abbrev goesOnPlaces : List Rect := positionPlaces ++ (.reg R.wfStatus :: evqPlaces)

theorem frame_goesOnAs : Frame [.out, .regs, .can, .host, .dma, .clk, .brm, .scan, .recd] goesOnPlaces s (s.goesOnAs ahead) :=
  .trans (.trans (frame_takePositions ..).sub (frame_resumeNS ..).sub) (frame_becameEvent ..).sub

theorem scanStands_goesOnAs : ScanStands s (s.goesOnAs ahead) :=
  ((ScanStands.of_frame (frame_takePositions s ahead)).trans (.of_frame (frame_resumeNS _))).trans (scanStands_event ..)

theorem tokenRole_handover (hm : s.mod = .standby) (hh : s.pair.handoverIn = true) : s.tokenRole ahead =
    ((s.roleLogged 0).unready { (s.roleLogged 0).pair with handoverIn := false, incoming := 0 }).goesOnAs ahead := by
  rw [State.tokenRole]
  dsimp only
  rw [hm]
  exact if_pos hh

/-- The state of a STANDBY that discards the copy under way. -/
def State.unstaged (s : State) : State := { s with pair := { s.pair with staged := [] } }

/-- A PRIMARY that has lost its partner is ALONE. -/
def State.orAlone (s : State) : State := if s.partner = .off then s.enter .alone else s

theorem frame_orAlone : Frame [.out, .regs, .brm, .recd] [.fld F.brmStatus_auditRun, .fld F.pairStatus_state] s s.orAlone :=
  .ite (frame_enter ..) (.refl s)

/-- A takeover to prepare. -/
def State.preparing (s : State) : State :=
  { (s.setReady false) with pair := { s.pair with takeover := true, incoming := 0 }, scan := { s.scan with step := .idle } }

theorem frame_preparing : Frame [.regs, .pair, .scan] [.fld F.pairStatus_ready] s s.preparing := .trans (frame_setReady ..).sub (.patched rfl rfl rfl)

theorem tokenRole_takeover (hm : s.mod = .standby) (hh : s.pair.handoverIn = false) :
    s.tokenRole ahead = (s.unstaged.roleLogged 1).orAlone.preparing := by
  rw [State.tokenRole]
  dsimp only
  rw [hm]
  exact if_neg (by rw [hh]; decide)

theorem tokenRole_stopped (hm : s.mod = .stopped) : s.tokenRole ahead =
    (s.logSwitch s.pair.incoming (bit (s.pair.incoming == 1 || s.pair.incoming == 2 || s.pair.incoming == 7)) true).unready
      { (s.logSwitch s.pair.incoming (bit (s.pair.incoming == 1 || s.pair.incoming == 2 || s.pair.incoming == 7)) true).pair with incoming := 0 } := by
  rw [State.tokenRole]
  dsimp only
  rw [hm]
  rfl

theorem tokenRole_other (h1 : s.mod ≠ .standby) (h2 : s.mod ≠ .stopped) : s.tokenRole ahead = s := by
  unfold State.tokenRole
  dsimp only
  split
  · exact absurd ‹_› h1
  · exact absurd ‹_› h2
  · rfl

abbrev rolePlaces : List Rect := logSwitchPlaces ++ [.fld F.brmStatus_auditRun, .fld F.pairStatus_state, .fld F.pairStatus_ready] ++ goesOnPlaces

abbrev roleParts : List Part := [.out, .regs, .mem, .clk, .pair, .olc, .brm, .scan, .recd, .can, .host, .dma]

theorem frame_tokenRole : Frame roleParts rolePlaces s (s.tokenRole ahead) := by
  by_cases hm : s.mod = .standby
  · cases hh : s.pair.handoverIn with
    | true =>
      rw [tokenRole_handover hm hh]
      exact .trans (.trans (frame_roleLogged 0).sub (frame_unready _).sub) frame_goesOnAs.sub
    | false =>
      rw [tokenRole_takeover hm hh]
      exact .trans (.trans (.trans .pair (frame_roleLogged 1).sub) frame_orAlone.sub) frame_preparing.sub
  · by_cases hs : s.mod = .stopped
    · rw [tokenRole_stopped hs]
      exact .trans (frame_logSwitch ..).sub (frame_unready _).sub
    · rw [tokenRole_other hm hs]
      exact .refl s

/-- What a STANDBY is once its token has risen. -/
theorem tokenRole_standby (hw : s.regsWf = true) (hm : s.mod = .standby) :
    (s.tokenRole ahead).mod = (if s.pair.handoverIn = false ∧ s.partner = .off then .alone else .primary) ∧
    (s.tokenRole ahead).fbit F.pairStatus_ready = false ∧
    (s.pair.handoverIn = false → (s.tokenRole ahead).pair.takeover = true ∧ (s.tokenRole ahead).pair.staged = [] ∧
      (s.tokenRole ahead).scan.step = .idle) ∧
    (s.pair.handoverIn = true → (s.tokenRole ahead).pair.takeover = s.pair.takeover ∧ (s.tokenRole ahead).pair.handoverIn = false) := by
  cases hh : s.pair.handoverIn with
  | true =>
    have hw1 := (frame_roleLogged (s := s) 0).canon hw
    have hm1 := mod_roleLogged hw 0
    have hp := pair_roleLogged (s := s) 0
    rw [tokenRole_handover hm hh, if_neg (fun h => nomatch h.1)]
    generalize s.roleLogged 0 = v at *
    have hf := frame_unready (s := v) { v.pair with handoverIn := false, incoming := 0 }
    have hr := ready_unready (s := v) hw1 { v.pair with handoverIn := false, incoming := 0 }
    have hw2 := hf.canon hw1
    have hm2 := hf.mod hw1
    have hp2 : (v.unready { v.pair with handoverIn := false, incoming := 0 }).pair = { v.pair with handoverIn := false, incoming := 0 } := rfl
    generalize v.unready { v.pair with handoverIn := false, incoming := 0 } = w at *
    have hg := frame_goesOnAs (s := w) (ahead := ahead)
    refine ⟨(hg.mod hw2).trans (hm2.trans hm1), (hg.fbit hw2).trans hr, (fun h => nomatch h), fun _ => ?_⟩
    rw [hg.part .pair (by decide), hp2, hp]
    exact ⟨rfl, rfl⟩
  | false =>
    have hwu : s.unstaged.regsWf = true := hw
    have hw1 := (frame_roleLogged (s := s.unstaged) 1).canon hwu
    have hm1 := mod_roleLogged hwu 1
    have hp := pair_roleLogged (s := s.unstaged) 1
    have hpt : (s.unstaged.roleLogged 1).partner = s.partner := (partner_of_frame (frame_roleLogged 1) hwu rfl :
      (s.unstaged.roleLogged 1).partner = s.unstaged.partner)
    rw [tokenRole_takeover hm hh]
    generalize s.unstaged.roleLogged 1 = v at *
    have ho := frame_orAlone (s := v)
    have hw2 := ho.canon hw1
    have hm2 : v.orAlone.mod = if s.partner = .off then .alone else .primary := by
      rw [State.orAlone, hpt]
      split
      · exact mod_enter hw1
      · exact hm1
    have hp2 : v.orAlone.pair = v.pair := ho.part .pair (by decide)
    generalize v.orAlone = w at *
    have hr : w.preparing.fbit F.pairStatus_ready = false := fbit_fsetb hw2 (by decide) rfl
    refine ⟨?_, hr, fun _ => ⟨rfl, ?_, rfl⟩, (fun h => nomatch h)⟩
    · rw [frame_preparing.mod hw2, hm2]
      by_cases hc : s.partner = .off
      · rw [if_pos hc, if_pos ⟨rfl, hc⟩]
      · rw [if_neg hc, if_neg (fun h => hc h.2)]
    · show w.pair.staged = []
      rw [hp2, hp]
      rfl

theorem tokenRole_mod (hw : s.regsWf = true) (hm : s.mod ≠ .standby) : (s.tokenRole ahead).mod = s.mod := by
  by_cases hs : s.mod = .stopped
  · rw [tokenRole_stopped hs, (frame_unready _).mod ((frame_logSwitch ..).canon hw), (frame_logSwitch ..).mod hw]
  · rw [tokenRole_other hm hs]

theorem tokenRole_pub : (s.tokenRole ahead).scan.pub = s.scan.pub := by
  by_cases hm : s.mod = .standby
  · cases hh : s.pair.handoverIn with
    | true =>
      rw [tokenRole_handover hm hh]
      have h1 : ScanStands s _ := (ScanStands.of_frame (frame_roleLogged (s := s) 0)).trans ((ScanStands.of_frame (frame_unready
        { (s.roleLogged 0).pair with handoverIn := false, incoming := 0 })).trans (scanStands_goesOnAs (ahead := ahead)))
      rw [h1]
    | false =>
      rw [tokenRole_takeover hm hh]
      have h1 : (s.unstaged.roleLogged 1).orAlone.scan = s.scan :=
        (frame_orAlone.part .scan (by decide)).trans ((frame_roleLogged 1).part .scan (by decide))
      generalize (s.unstaged.roleLogged 1).orAlone = v at *
      have h2 : v.scan.pub = s.scan.pub := congrArg (fun x : Scan => x.pub) h1
      exact h2
  · by_cases hs : s.mod = .stopped
    · rw [tokenRole_stopped hs, (frame_unready _).part .scan (by decide), (frame_logSwitch ..).part .scan (by decide)]
    · rw [tokenRole_other hm hs]

/-! The rise itself (R198). -/

/-- The token of this module's slot rises: its island drives from the mirror, and no scan command is published. -/
def State.risen (s : State) : State := { s with
  bogie := { s.bogie with rising := none, ramp := .up, rampAt := s.time.tb1 }
  island := { s.island with useMirror := true }
  scan := { s.scan with pub := none }
  pair := { s.pair with gapFrom := some (s.time.tb1 - 1000) } }

theorem exec_tokenRise_own (h : s.bogie.rising = some s.slot) :
    exec (.tokenRise ahead) s = .next ((s.risen.tokenUp.rgap.tokenRole ahead).canPermit).showIsland := by
  rw [exec_tokenRise, execTokenRise, h]
  dsimp only
  exact if_neg (fun hn : s.slot ≠ s.slot => hn rfl)

theorem frame_rgap (s : State) : Frame [.free, .regs] [.reg R.pairLastRgap] s s.rgap := Frame.ite Frame.wr (.trans (.take rfl) Frame.wr)

/-- The gap shown: 4.45 µs through RFX_SILENT, at most 1.45 µs otherwise (R218). -/
theorem rgap_shows (hw : s.regsWf = true) :
    if s.pair.incoming = 2 then (s.rgap.rd R.pairLastRgap).toNat = 4450 else (s.rgap.rd R.pairLastRgap).toNat ≤ 1450 := by
  rw [State.rgap]
  split
  · rw [rd_wr_self hw]
    rfl
  · rw [rd_wr_self (s := s.take.2) hw, BitVec.toNat_ofNat]
    have := Nat.mod_lt s.take.1.toNat (show 0 < 1451 by decide)
    omega

theorem useMirror_tokenUp (h : s.island.useMirror = true) : s.tokenUp.island.useMirror = true := by
  unfold State.tokenUp
  dsimp only
  split <;> exact h

/-- What the rise of the token of this module's slot leaves. -/
theorem tokenRise_own (hw : s.regsWf = true) (h : s.bogie.rising = some s.slot) : ∃ t, exec (.tokenRise ahead) s = .next t ∧ t.token = true ∧
    t.bogie.rising = none ∧ t.bogie.ramp = .up ∧ t.island.useMirror = true ∧ t.scan.pub = none ∧
    (if s.pair.incoming = 2 then (t.rd R.pairLastRgap).toNat = 4450 else (t.rd R.pairLastRgap).toNat ≤ 1450) ∧
    (s.mod = .standby → t.mod = (if s.pair.handoverIn = false ∧ s.partner = .off then .alone else .primary) ∧
      t.fbit F.pairStatus_ready = false ∧
      (s.pair.handoverIn = false → t.pair.takeover = true ∧ t.pair.staged = [] ∧ t.scan.step = .idle) ∧
      (s.pair.handoverIn = true → t.pair.takeover = s.pair.takeover ∧ t.pair.handoverIn = false)) ∧
    (s.mod ≠ .standby → t.mod = s.mod) := by
  have he := exec_tokenRise_own (ahead := ahead) h
  have hw0 : s.risen.regsWf = true := hw
  have hf1 := frame_tokenUp (s := s.risen)
  have hw1 := hf1.canon hw0
  have ht1 := token_tokenUp hw0
  have hm1 : s.risen.tokenUp.mod = s.mod := hf1.mod hw0
  have hu1 := useMirror_tokenUp (s := s.risen) rfl
  have hp1 : s.risen.tokenUp.partner = s.partner := (partner_of_frame hf1 hw0 rfl : s.risen.tokenUp.partner = s.risen.partner)
  have hb1 : s.risen.tokenUp.bogie = s.risen.bogie := hf1.part .bogie (by decide)
  have hq1 : s.risen.tokenUp.pair = s.risen.pair := hf1.part .pair (by decide)
  have hs1 : s.risen.tokenUp.scan = s.risen.scan := hf1.part .scan (by decide)
  generalize s.risen.tokenUp = a at *
  have hf2 := frame_rgap a
  have hw2 := hf2.canon hw1
  have hg2 := rgap_shows hw1
  have hm2 := (hf2.mod hw1).trans hm1
  have hp2 : a.rgap.partner = s.partner := (partner_of_frame hf2 hw1 rfl).trans hp1
  have hq2 : a.rgap.pair = s.risen.pair := (hf2.part .pair (by decide)).trans hq1
  have hs2 : a.rgap.scan = s.risen.scan := (hf2.part .scan (by decide)).trans hs1
  rw [hq1] at hg2
  generalize hgap : a.rgap = b at *
  have hf3 := frame_tokenRole (s := b) (ahead := ahead)
  have hw3 := hf3.canon hw2
  have hr3 := tokenRole_standby (s := b) (ahead := ahead) hw2
  have ho3 := tokenRole_mod (s := b) (ahead := ahead) hw2
  have hpub := tokenRole_pub (s := b) (ahead := ahead)
  rw [hm2, hp2, hq2] at hr3
  rw [hm2] at ho3
  have hf4 : Frame [.regs, .can] [.blk 0x6, .blk 0x7, .blk 0xa] (b.tokenRole ahead) ((b.tokenRole ahead).canPermit).showIsland :=
    .trans (frame_canPermit _).sub (frame_showIsland _).sub
  have hf13 : Frame ([.free] ++ roleParts) (.reg R.pairLastRgap :: rolePlaces) a (b.tokenRole ahead) := .trans hf2.sub hf3.sub
  refine ⟨_, he, ?_, ?_, ?_, ?_, ?_, ?_, fun hm => ?_, fun hm => ?_⟩
  · rw [State.token, hf4.fbit hw3, hf13.fbit hw1]
    exact ht1
  · rw [hf4.part .bogie (by decide), hf13.part .bogie (by decide), hb1]
    rfl
  · rw [hf4.part .bogie (by decide), hf13.part .bogie (by decide), hb1]
    rfl
  · rw [hf4.part .island (by decide), hf13.part .island (by decide)]
    exact hu1
  · rw [hf4.part .scan (by decide), hpub, hs2]
    rfl
  · rw [hf4.rd hw3, hf3.rd hw2]
    exact hg2
  · obtain ⟨r1, r2, r3, r4⟩ := hr3 hm
    rw [hf4.mod hw3, hf4.fbit hw3, hf4.part .pair (by decide), hf4.part .scan (by decide)]
    exact ⟨r1, r2, r3, r4⟩
  · rw [hf4.mod hw3]
    exact ho3 hm

theorem exec_tokenRise_none (h : s.bogie.rising = none) : exec (.tokenRise ahead) s = .next s := by
  rw [exec_tokenRise, execTokenRise, h]

/-- The partner's token rises: the loops of this island ramp down. -/
theorem tokenRise_partner (hw : s.regsWf = true) (h : s.bogie.rising = some s.other) (hr : s.bogie.ramp = .driving) :
    ∃ t, exec (.tokenRise ahead) s = .next t ∧ t.bogie = { s.bogie with rising := none, ramp := .down, rampAt := s.time.tb1 } ∧
      islandOnly [] { s with bogie := t.bogie } t := by
  have he : exec (.tokenRise ahead) s = .next ({ s with bogie := { s.bogie with rising := none, ramp := .down, rampAt := s.time.tb1 } } :
      State).showIsland := by
    rw [exec_tokenRise, execTokenRise, h]
    dsimp only
    rw [if_pos (fun hn => slot_ne_other hn.symm), if_pos hr]
  have hf := frame_showIsland ({ s with bogie := { s.bogie with rising := none, ramp := .down, rampAt := s.time.tb1 } } : State)
  have hb := hf.part .bogie (by decide)
  refine ⟨_, he, hb, ?_⟩
  rw [hb]
  exact islandOnly_blocks hf.sub hw

/-! The end of the takeover's preparation (R216, R217), and of the ramp (R198). -/


/-- The state in which the preparation of a takeover ends. -/
def State.tookOver (s : State) (ahead : Vector Nat 2) : State :=
  ((((({ s with pair := { s.pair with takeover := false } }).canPermit).takePositions ahead).ringTakeover).resumeNS).becameEvent

abbrev tookOverPlaces : List Rect := .blk 0xa :: .reg R.wfStatus :: (resumePlaces ++ evqPlaces)

theorem frame_tookOver : Frame [.out, .regs, .clk, .pair, .brm, .scan, .recd, .can, .host, .dma] tookOverPlaces s (s.tookOver ahead) :=
  .trans (.trans (.trans (.trans (.trans .pair (frame_canPermit _).sub) (frame_takePositions ..).sub) (frame_ringTakeover _).sub)
    (frame_resumeNS _).sub) (frame_becameEvent _).sub

theorem scanStands_tookOver : ScanStands s (s.tookOver ahead) :=
  ((((ScanStands.of_frame (frame_canPermit { s with pair := { s.pair with takeover := false } })).trans (.of_frame (frame_takePositions ..))).trans
    scanStands_ringTakeover).trans (.of_frame (frame_resumeNS _))).trans (scanStands_event ..)

theorem takeover_tookOver : (s.tookOver ahead).pair.takeover = false := by
  have h : Frame [.out, .regs, .clk, .brm, .scan, .recd, .can, .host, .dma] tookOverPlaces
      { s with pair := { s.pair with takeover := false } } (s.tookOver ahead) :=
    .trans (.trans (.trans (.trans (frame_canPermit _).sub (frame_takePositions ..).sub) (frame_ringTakeover _).sub) (frame_resumeNS _).sub)
      (frame_becameEvent _).sub
  rw [h.part .pair (by decide)]

theorem retireReq_push (s : State) (be : Fin 32) (c : Cls) (w : Work) : (s.push be c w).brm.retireReq = s.brm.retireReq := by
  unfold State.push
  split
  next i _ =>
    have hb : (s.ungate i).brm = s.brm := (frame_ungate s i).part .brm (by decide)
    have hr : (s.ungate i).brm.retireReq = s.brm.retireReq := by rw [hb]
    exact hr
  next => rfl

theorem retireReq_resumeNS : s.resumeNS.brm.retireReq = s.brm.retireReq := by
  have hl {α : Type} {f : State → α → State} (hf : ∀ s a, (f s a).brm.retireReq = s.brm.retireReq) (l : List α) (s : State) :
      (l.foldl f s).brm.retireReq = s.brm.retireReq := by
    induction l generalizing s with
    | nil => rfl
    | cons a l ih => exact (ih _).trans (hf ..)
  refine (hl (fun s c => ?_) _ _).trans rfl
  unfold State.deal
  dsimp only
  split
  · rfl
  · exact hl (fun s w => retireReq_push s _ _ _) _ _

theorem retireReq_tookOver : (s.tookOver ahead).brm.retireReq = s.brm.retireReq := by
  obtain ⟨u, hu⟩ : ∃ u, u = (((({ s with pair := { s.pair with takeover := false } }).canPermit).takePositions ahead).ringTakeover) := ⟨_, rfl⟩
  have hf : Frame [.out, .regs, .pair, .scan, .recd, .can, .host, .dma] tookOverPlaces s u := by
    rw [hu]
    exact .trans (.trans (.trans .pair (frame_canPermit _).sub) (frame_takePositions ..).sub) (frame_ringTakeover _).sub
  have he : s.tookOver ahead = u.resumeNS.becameEvent := by rw [hu]; rfl
  rw [he, (frame_becameEvent _).part .brm (by decide), retireReq_resumeNS, hf.part .brm (by decide)]

theorem exec_takeoverStart_ahead (ht : s.pair.takeover = true) (hm : s.mod = .primary) (hp : s.takeoverPlan = none) :
    exec (.takeoverStart ahead) s = .next (s.tookOver ahead) := by
  rw [exec_takeoverStart, execTakeoverStart, hp]
  exact when_pos (by rw [ht, hm]; rfl)

theorem takeoverStart_ahead (hw : s.regsWf = true) (ht : s.pair.takeover = true) (hm : s.mod = .primary) (hp : s.takeoverPlan = none) :
    ∃ t, exec (.takeoverStart ahead) s = .next t ∧ t.pair.takeover = false ∧ t.mod = .primary ∧ t.scan.step = s.scan.step := by
  refine ⟨_, exec_takeoverStart_ahead ht hm hp, takeover_tookOver, (frame_tookOver.mod hw).trans hm, ?_⟩
  rw [scanStands_tookOver (s := s) (ahead := ahead)]

/-- The numbers skipped shown and recorded, and the boundary of the cycle that a takeover runs. -/
def State.skips (s : State) (skipped : Nat) (c bound stop : W64) : State :=
  let t := s.fset F.pairLastSw_skipped skipped
  let t := if skipped = 0 then t else t.raise hapSkipped 0 [c, BitVec.ofNat 64 skipped]
  { t with scan := { t.scan with bound := bound }, pair := { t.pair with takeoverEnd := some stop } }

theorem frame_skips {skipped : Nat} {c bound stop : W64} : Frame [.regs, .pair, .scan, .recd] [.fld F.pairLastSw_skipped] s
    (s.skips skipped c bound stop) := by
  unfold State.skips
  extract_lets a b
  have hb : Frame [.regs, .pair, .scan, .recd] [.fld F.pairLastSw_skipped] s b := .trans .fset (.ite (.refl _) .raise)
  exact hb.trans (.patched rfl rfl rfl)

theorem scan_skips {skipped : Nat} {c bound stop : W64} : (s.skips skipped c bound stop).scan = { s.scan with bound := bound } := by
  unfold State.skips
  dsimp only
  split <;> rfl

/-- The cycle of a takeover frozen, where the scan runs. -/
def State.freezesAt (s : State) (n : W64) (nums : List W64) : State :=
  if s.scanRuns then s.freezeStep n (nums.any s.nBoundary) (nums.any s.sBoundary) else s

theorem exec_takeoverStart_freezes {n bound stop : W64} {skipped : Nat} (ht : s.pair.takeover = true) (hm : s.mod = .primary)
    (hp : s.takeoverPlan = some (n, skipped, bound, stop)) : exec (.takeoverStart ahead) s =
      .next ((((s.tookOver ahead).skips skipped (s.pair.lastSeal.cycle + 1) bound stop).boundaryWork n).freezesAt n
        ((List.range (skipped + 1)).map (fun k => s.pair.lastSeal.cycle + 1 + BitVec.ofNat 64 k))) := by
  rw [exec_takeoverStart, execTakeoverStart, hp]
  exact when_pos (by rw [ht, hm]; rfl)

theorem takeoverStart_freezes (hw : s.regsWf = true) {p : W64 × Nat × W64 × W64} (ht : s.pair.takeover = true) (hm : s.mod = .primary)
    (hr : s.scan.run = .running) (hs : s.scan.service = none) (hc : s.olc.carry = none) (hq : s.brm.retireReq = [])
    (hp : s.takeoverPlan = some p) : ∃ t, exec (.takeoverStart ahead) s = .next t ∧ t.scan.step = .freeze := by
  obtain ⟨n, skipped, bound, stop⟩ := p
  refine ⟨_, exec_takeoverStart_freezes ht hm hp, ?_⟩
  have hf0 := frame_tookOver (s := s) (ahead := ahead)
  have hsc := scanStands_tookOver (s := s) (ahead := ahead)
  have hrq := retireReq_tookOver (s := s) (ahead := ahead)
  generalize s.tookOver ahead = u at *
  have hf1 := frame_skips (s := u) (skipped := skipped) (c := s.pair.lastSeal.cycle + 1) (bound := bound) (stop := stop)
  have hsk := scan_skips (s := u) (skipped := skipped) (c := s.pair.lastSeal.cycle + 1) (bound := bound) (stop := stop)
  generalize u.skips skipped (s.pair.lastSeal.cycle + 1) bound stop = v at *
  have hwv := hf1.canon (hf0.canon hw)
  have hv : v.Quiet := by
    refine ⟨?_, ?_, ?_⟩
    · rw [hf1.part .olc (by decide), hf0.part .olc (by decide), hc]
    · rw [hf1.part .brm (by decide), hrq, hq]
    · rw [hsk, hsc]
      exact hs
  have hf2 := frame_boundaryWork hv n
  have hrun : (v.boundaryWork n).scanRuns = true := by
    have h1 : (v.boundaryWork n).scan.run = .running := by
      rw [hf2.part .scan (by decide), hsk, hsc]
      exact hr
    have h2 : (v.boundaryWork n).mod = .primary := by rw [hf2.mod hwv, hf1.mod (hf0.canon hw), hf0.mod hw, hm]
    rw [State.scanRuns, h1, h2]
    rfl
  generalize v.boundaryWork n = x at *
  rw [State.freezesAt, if_pos hrun]
  rfl

theorem exec_takeoverStart_none (h : s.pair.takeover = false) : exec (.takeoverStart ahead) s = .next s :=
  when_neg (by rw [h]; rfl)

theorem loopRampEnd_ends (hw : s.regsWf = true) (h : s.bogie.ramp = .up ∨ s.bogie.ramp = .down) : ∃ t, exec .loopRampEnd s = .next t ∧
    t.bogie = { s.bogie with ramp := .steady, rampEnd := some s.time.tb1 } ∧ t.island = s.island ∧
    islandOnly [] { s with bogie := t.bogie } t := by
  have hf := frame_showIsland ({ s with bogie := { s.bogie with ramp := .steady, rampEnd := some s.time.tb1 } } : State)
  have hb := hf.part .bogie (by decide)
  refine ⟨_, when_pos (t := State.showIsland { s with bogie := { s.bogie with ramp := .steady, rampEnd := some s.time.tb1 } }) ?_, hb,
    hf.part .island (by decide), ?_⟩
  · rcases h with h | h <;> rw [h] <;> rfl
  · rw [hb]
    exact islandOnly_blocks hf.sub hw

end Sys2Proof.Machine
end

section
/-! A trip of the scan (R61 to R66): what it leaves. -/

namespace Sys2Proof.Machine

variable {s t u : State} {k : Nat} {b : Bool}

/-! Drupelets without work. -/

/-- No drupelet has a window or waiting work, and no chain is open or to be restarted. -/
structure Halted (s : State) : Prop where
  dru : ∀ i, (s.dru i).win = none ∧ (s.dru i).deques = Vector.replicate 4 []
  restarts : s.brm.restarts = []
  openChains : s.brm.openChains = []

namespace Halted

theorem of_brm (h : Halted s) (hb : t.brm = s.brm) : Halted t := by
  obtain ⟨h1, h2, h3⟩ := h
  exact ⟨fun i => by rw [dru_of_brm hb]; exact h1 i, by rw [hb, h2], by rw [hb, h3]⟩

theorem of_frame {ps : List Part} {W : List Rect} (h : Halted s) (hf : Frame ps W s t)
    (hp : autoParam (decide (Part.brm ∈ ps) = false) List.TFAE.out._auto_1) : Halted t := h.of_brm (hf.part .brm (of_decide_eq_false hp))

theorem stopAudit (h : Halted s) : Halted s.stopAudit := by
  obtain ⟨h1, h2, h3⟩ := h
  refine ⟨fun i => ?_, h2, h3⟩
  have he : s.stopAudit.dru i = s.dru i := by
    rw [State.dru, State.stopAudit]
    show (s.brm.be.map _)[i] = _
    rw [Fin.getElem_fin, Vector.getElem_map]
    show (match (s.dru i).win with | some w => _ | none => s.dru i) = s.dru i
    rw [(h1 i).1]
  rw [he]
  exact h1 i

theorem enter (h : Halted s) (m : ModState) : Halted (s.enter m) := by
  unfold State.enter
  split
  · exact h
  · have h1 : Frame [.regs, .recd] [.fld F.pairStatus_state] s.stopAudit ((s.stopAudit.setMod m).raise hapRole 0 [BitVec.ofNat 64 (modCode m)]) :=
      .trans .setMod .raise
    dsimp only
    have h2 := h.stopAudit.of_frame h1
    split
    · exact h2.of_brm rfl
    · exact h2

end Halted

theorem halted_haltScan (s : State) : Halted s.haltScan := by
  refine ⟨fun i => ?_, rfl, rfl⟩
  have he : s.haltScan.dru i = { s.dru i with win := none, yieldReq := false, deques := Vector.replicate 4 [] } := by
    rw [State.dru, State.haltScan]
    show (s.brm.be.map _)[i] = _
    rw [Fin.getElem_fin, Vector.getElem_map]
    rfl
  rw [he]
  exact ⟨rfl, rfl⟩

/-! The steps of a trip. -/

/-- The scan tripped: the safe values are published, and no event, restart, change of service or hand-over waits. -/
def State.tripSet (s : State) (c : ScanCmd) : State := { s with
  scan := { s.scan with run := .tripped, pub := some c, evq := [], evqLost := 0, restartReq := none, service := none }
  pair := { s.pair with handover := none, handoverSent := false, handoverAcked := false } }

/-- The trip shown: its class and its cycle. -/
def State.tripShown (s : State) (cls : Nat) (b : Bool) : State :=
  let d := ((s.fset F.scanStatus_runstate 2).fset F.scanStatus_evqFull 0).wr R.scanEvqDepth 0
  let e := (((d.endSwitchCmds 0x0103).endServiceCmds 0x0103).fsetb F.pairStatus_handover false).wr R.scanTrip (BitVec.ofNat 32 (cls + 4 + bit b * 8))
  (e.wr R.scanTripCycle (e.rd R.scanCycleLo)).setStale true

/-- The module STOPPED. -/
def State.tripStopped (s : State) : State := ((s.enter .stopped).canTrip).canPermit

/-- The token holder publishes the values of a command. -/
def State.publishes (s : State) (c : ScanCmd) : State := if s.token then s.emit (.publish c.dig c.loops.toList) else s

/-- The module STOPPED by a trip, before it publishes. -/
def State.tripped (s : State) (cls : Nat) (b : Bool) : State :=
  ((s.olcCut.haltScan.tripSet s.olcCut.haltScan.safeCmd).tripShown cls b).tripStopped

theorem scanTrip_eq : ∃ l, s.scanTrip k b = ((s.tripped k b).publishes s.olcCut.haltScan.safeCmd).raise hapTrip k l := ⟨_, rfl⟩

theorem safeCmd_of_island (h : t.island = s.island) : t.safeCmd = s.safeCmd := by
  have hc : t.island.cfg = s.island.cfg := by rw [h]
  rw [State.safeCmd, State.safeCmd, safeD_of_cfg hc, safeL_of_cfg hc]

theorem frame_olcHalt : Frame [.regs, .mem, .olc, .recd, .brm, .scan] [.fld F.olcStatus_pkgState, .reg R.olcRefuse, .fld F.brmStatus_auditRun] s
    s.olcCut.haltScan := .trans (frame_olcCut s).sub (frame_haltScan _).sub

theorem safeCmd_olcHalt : s.olcCut.haltScan.safeCmd = s.safeCmd := safeCmd_of_island (frame_olcHalt.part .island (by decide))

abbrev tripEndPlaces : List Rect := [.fld (F.hostPpStatus_cqFull 0), ⟨R.hostPpCmds 0, 0, 0x40, 0, 32⟩, .fld (F.hostPpStatus_cqFull 1), .span 0xB218 0]

theorem frame_tripStopped : Frame [.out, .regs, .brm, .recd, .can] [.fld F.brmStatus_auditRun, .fld F.pairStatus_state, .blk 0xa] s s.tripStopped :=
  .trans (.trans (frame_enter ..).sub (frame_canTrip ..).sub) (frame_canPermit ..).sub

theorem mod_tripStopped (hw : s.regsWf = true) : s.tripStopped.mod = .stopped := by
  have h1 := mod_enter (m := .stopped) hw
  have hw1 := (frame_enter s .stopped).canon hw
  have h2 : Frame [.regs, .can] [.blk 0xa] (s.enter .stopped) s.tripStopped := .trans (frame_canTrip _).sub (frame_canPermit _).sub
  rw [h2.mod hw1, h1]

theorem halted_tripStopped (h : Halted s) : Halted s.tripStopped :=
  (h.enter .stopped).of_frame (.trans (frame_canTrip _) (frame_canPermit _))

/-- The registers of a trip. -/
theorem tripShown_shows (hw : s.regsWf = true) :
    (s.tripShown k b).fget F.scanStatus_runstate = 2 ∧ (s.tripShown k b).rd R.scanTrip = BitVec.ofNat 32 (k + 4 + bit b * 8) ∧
      (s.tripShown k b).rd R.scanTripCycle = s.rd R.scanCycleLo ∧ (s.tripShown k b).fget F.scanStatus_mbxStale = 1 := by
  have hw1 : (s.fset F.scanStatus_runstate 2).regsWf = true := regsWf_fset hw
  have hrun : (s.fset F.scanStatus_runstate 2).fget F.scanStatus_runstate = 2 := fget_fset hw (by decide)
  obtain ⟨d, hd⟩ : ∃ d, d = ((((s.fset F.scanStatus_runstate 2).fset F.scanStatus_evqFull 0).wr R.scanEvqDepth 0).endSwitchCmds
    0x0103).endServiceCmds 0x0103 := ⟨_, rfl⟩
  have hfd : Frame [.out, .regs, .host] (tripEndPlaces ++ [.fld F.scanStatus_evqFull, .reg R.scanEvqDepth]) (s.fset F.scanStatus_runstate 2) d := by
    rw [hd]
    exact .trans (.trans (.trans .fset .wr) (frame_endSwitchCmds ..).sub) (frame_endServiceCmds ..).sub
  have hwd := hfd.canon hw1
  obtain ⟨e, he⟩ : ∃ e, e = (d.fsetb F.pairStatus_handover false).wr R.scanTrip (BitVec.ofNat 32 (k + 4 + bit b * 8)) := ⟨_, rfl⟩
  have hwe : e.regsWf = true := by
    rw [he]
    exact regsWf_wr (regsWf_fsetb hwd)
  have het : e.rd R.scanTrip = BitVec.ofNat 32 (k + 4 + bit b * 8) := by
    rw [he]
    exact rd_wr_self (regsWf_fsetb hwd)
  have hfe : Frame [.regs] [.fld F.pairStatus_handover, .reg R.scanTrip] d e := by
    rw [he]
    exact .trans .fsetb .wr
  have hlo : e.rd R.scanCycleLo = s.rd R.scanCycleLo := by
    rw [hfe.rd hwd, hfd.rd hw1, rd_fset_ne (by decide)]
  have hs : s.tripShown k b = (e.wr R.scanTripCycle (e.rd R.scanCycleLo)).setStale true := by
    rw [he, hd]
    rfl
  have hwc : (e.wr R.scanTripCycle (e.rd R.scanCycleLo)).regsWf = true := regsWf_wr hwe
  have hfs := frame_setStale (e.wr R.scanTripCycle (e.rd R.scanCycleLo)) true
  rw [hs]
  refine ⟨?_, ?_, ?_, ?_⟩
  · rw [hfs.fget hwc, fget_congr (rd_wr_ne (by decide)), hfe.fget hwd, hfd.fget hw1]
    exact hrun
  · rw [hfs.rd hwc, rd_wr_ne (by decide)]
    exact het
  · rw [hfs.rd hwc, rd_wr_self hwe]
    exact hlo
  · have h1 : ((e.wr R.scanTripCycle (e.rd R.scanCycleLo)).fsetb F.scanStatus_mbxStale true).regsWf = true := regsWf_fsetb hwc
    rw [State.setStale, fget_fsetb_off (by decide), State.fsetb, fget_fset hwc (by decide)]
    rfl

abbrev tripShownPlaces : List Rect := [.fld F.scanStatus_runstate, .fld F.scanStatus_evqFull, .reg R.scanEvqDepth, .fld F.pairStatus_handover,
  .reg R.scanTrip, .reg R.scanTripCycle, .fld F.scanStatus_mbxStale, .fld F.rfxStatus_mbxStale] ++ tripEndPlaces

theorem frame_tripShown : Frame [.out, .regs, .host] tripShownPlaces s (s.tripShown k b) := by
  unfold State.tripShown
  extract_lets d e
  have hd : Frame [.out, .regs, .host] tripShownPlaces s d := .trans (.trans .fset .fset) .wr
  have he : Frame [.out, .regs, .host] tripShownPlaces s e :=
    hd.trans (.trans (.trans (.trans (frame_endSwitchCmds ..).sub (frame_endServiceCmds ..).sub) .fsetb) .wr)
  exact he.trans (.trans .wr (frame_setStale ..).sub)

/-- What a trip leaves (R62 to R66). -/
structure Tripped (s t : State) (cls : Nat) (b : Bool) : Prop where
  mod : t.mod = .stopped
  scan : t.scan = { s.olcCut.haltScan.scan with run := .tripped, pub := some s.safeCmd, evq := [], evqLost := 0, restartReq := none, service := none }
  trip : t.rd R.scanTrip = BitVec.ofNat 32 (cls + 4 + bit b * 8)
  cycle : t.rd R.scanTripCycle = s.rd R.scanCycleLo
  run : t.fget F.scanStatus_runstate = 2
  stale : t.fget F.scanStatus_mbxStale = 1
  halted : Halted t
  pair : t.pair = { s.pair with handover := none, handoverSent := false, handoverAcked := false }
  publish : s.token = true → Out.publish s.safeCmd.dig s.safeCmd.loops.toList ∈ t.out

theorem scanTrip_trips (hw : s.regsWf = true) : Tripped s (s.scanTrip k b) k b := by
  obtain ⟨l, he⟩ := scanTrip_eq (s := s) (k := k) (b := b)
  have hf1 := frame_olcHalt (s := s)
  have hw1 := hf1.canon hw
  have hh := halted_haltScan s.olcCut
  rw [safeCmd_olcHalt, State.tripped, safeCmd_olcHalt] at he
  have hsc : (s.olcCut.haltScan.tripSet s.safeCmd).scan = { s.olcCut.haltScan.scan with
    run := .tripped, pub := some s.safeCmd, evq := [], evqLost := 0, restartReq := none, service := none } := rfl
  have hp : (s.olcCut.haltScan.tripSet s.safeCmd).pair = { s.pair with handover := none, handoverSent := false, handoverAcked := false } := by
    have h1 : s.olcCut.haltScan.pair = s.pair := hf1.part .pair (by decide)
    generalize s.olcCut.haltScan = x at *
    rw [State.tripSet, h1]
  have hf2 : Frame [.scan, .pair] [] s.olcCut.haltScan (s.olcCut.haltScan.tripSet s.safeCmd) := .patched rfl rfl rfl
  have hwa := hf2.canon hw1
  have hha : Halted (s.olcCut.haltScan.tripSet s.safeCmd) := hh.of_frame hf2
  have hfa : Frame [.regs, .mem, .olc, .recd, .brm, .scan, .pair] [.fld F.olcStatus_pkgState, .reg R.olcRefuse, .fld F.brmStatus_auditRun] s
    (s.olcCut.haltScan.tripSet s.safeCmd) := .trans hf1.sub hf2.sub
  generalize s.olcCut.haltScan.tripSet s.safeCmd = a at *
  obtain ⟨h1, h2, h3, h4⟩ := tripShown_shows (k := k) (b := b) hwa
  have hfb := frame_tripShown (s := a) (k := k) (b := b)
  have hwb := hfb.canon hwa
  have hhb := hha.of_frame hfb
  generalize a.tripShown k b = y at *
  have hfc := frame_tripStopped (s := y)
  have hwc := hfc.canon hwb
  have hmc := mod_tripStopped hwb
  have hhc := halted_tripStopped hhb
  generalize y.tripStopped = c at *
  have hfd : Frame [.out, .recd] [] c ((c.publishes s.safeCmd).raise hapTrip k l) := .trans (.ite .emit (.refl c)) .raise
  have htok : c.token = s.token := by
    rw [State.token, hfc.fbit hwb, hfb.fbit hwa, hfa.fbit hw, State.token]
  rw [he]
  refine ⟨(hfd.mod hwc).trans hmc, ?_, ?_, ?_, ?_, ?_, hhc.of_frame hfd, ?_, fun ht => ?_⟩
  · rw [hfd.part .scan (by decide), hfc.part .scan (by decide), hfb.part .scan (by decide), hsc]
  · rw [hfd.rd hwc, hfc.rd hwb]
    exact h2
  · rw [hfd.rd hwc, hfc.rd hwb, h3, hfa.rd hw]
  · rw [hfd.fget hwc, hfc.fget hwb]
    exact h1
  · rw [hfd.fget hwc, hfc.fget hwb]
    exact h4
  · rw [hfd.part .pair (by decide), hfc.part .pair (by decide), hfb.part .pair (by decide), hp]
  · rw [State.publishes, htok, ht, if_pos rfl]
    exact List.mem_append_right _ (List.mem_singleton.mpr rfl)

/-- A trip with no carry-over under way leaves memory as it was. -/
theorem mem_scanTrip (h : s.olc.carry = none) : (s.scanTrip k b).mem = s.mem := by
  obtain ⟨l, he⟩ := scanTrip_eq (s := s) (k := k) (b := b)
  have h1 : s.olcCut.mem = s.mem := by
    rw [State.olcCut, h]
    exact (frame_olcCancel s).part .mem (by decide)
  have h2 : Frame [.out, .regs, .pair, .brm, .scan, .recd, .can, .host] scanTripPlaces s.olcCut (s.tripped k b) :=
    .trans (.trans (.trans (frame_haltScan _).sub (.patched (t := s.olcCut.haltScan.tripSet s.olcCut.haltScan.safeCmd) rfl rfl rfl)) frame_tripShown.sub) frame_tripStopped.sub
  have h3 : Frame [.out, .recd] [] (s.tripped k b) (((s.tripped k b).publishes s.olcCut.haltScan.safeCmd).raise hapTrip k l) :=
    .trans (.ite .emit (.refl _)) .raise
  rw [he, h3.part .mem (by decide), h2.part .mem (by decide), h1]

end Sys2Proof.Machine
end

section
/-! Heartbeats, the loss of the partner, and the roles of the pair (R203, R212, R215, R226, R458). -/

namespace Sys2Proof.Machine

variable {s t u : State} {h : Heartbeat} {alive db : Bool}

/-! Heartbeats (R203). -/

/-- The heartbeat of this module. -/
def State.beat (s : State) : Heartbeat := {
  slot := s.slot, state := s.mod, cycle := s.rd64 R.scanCycleLo, scanTime := s.scanTime, sealed := s.pair.lastSealed
  score := s.fget F.pairHealth_own, token := s.token, seq := s.pair.hbSeq }

theorem exec_heartbeatSend_sends (hc : s.power.chip = true) (hd : s.fbit F.pwrStatus_cfgDone = true) (hl : s.leftPair = false) (hu : s.linkUp) :
    exec .heartbeatSend s = .next { s.emit (.heartbeat s.beat) with
      pair := { s.pair with hbSeq := s.pair.hbSeq + 1 }, bogie := { s.bogie with alive := !s.bogie.alive } } := by
  have he : s.sendOnce (.heartbeat s.beat) = s.emit (.heartbeat s.beat) := if_pos (dbCarries_of_linkUp hu)
  rw [← he]
  exact when_pos (by rw [hc, hd, hl]; rfl)

/-- The partner's score and state shown. -/
def State.hearShown (s : State) (h : Heartbeat) : State :=
  ((s.fset F.pairStatus_dbUp 1).fset F.pairStatus_pState (modCode h.state)).fset F.pairHealth_partner h.score

theorem frame_hearShown : Frame [.regs] [.fld F.pairStatus_dbUp, .fld F.pairStatus_pState, .fld F.pairHealth_partner] s (s.hearShown h) :=
  .trans (.trans .fset .fset) .fset

theorem hearShown_shows (hw : s.regsWf = true) (hs : h.score < 1024) :
    (s.hearShown h).partner = h.state ∧ (s.hearShown h).fbit F.pairStatus_dbUp = true ∧ (s.hearShown h).fget F.pairHealth_partner = h.score := by
  have hw1 : (s.fset F.pairStatus_dbUp 1).regsWf = true := regsWf_fset hw
  have hw2 : ((s.fset F.pairStatus_dbUp 1).fset F.pairStatus_pState (modCode h.state)).regsWf = true := regsWf_fset hw1
  have hf : Frame [.regs] [.fld F.pairStatus_pState, .fld F.pairHealth_partner] (s.fset F.pairStatus_dbUp 1) (s.hearShown h) := .trans .fset .fset
  refine ⟨?_, ?_, ?_⟩
  · rw [State.partner, State.hearShown, fget_fset_off (by decide), fget_fset hw1 (by decide)]
    exact modOfCode_modCode _
  · rw [hf.fbit hw1, fbit_fset hw (by decide)]
    rfl
  · rw [State.hearShown, fget_fset hw2 (by decide)]
    exact Nat.mod_eq_of_lt hs

/-- The scan time followed: a STANDBY or SYNCING module keeps the PRIMARY's (R57). -/
def State.followed (s : State) (h : Heartbeat) : W64 :=
  if (s.mod == .standby || s.mod == .syncing) && (h.state == .primary || h.state == .alone) then h.scanTime - s.time.tb1 else s.scan.timeOffset

/-- A heartbeat noted, on the Drawbar and, with a toggle, on the alive path. -/
def State.noted (s : State) (h : Heartbeat) (alive : Bool) : State :=
  let t := if alive then (s.hear h).fset F.pairStatus_aliveUp 1 else s.hear h
  { t with pair := { t.pair with heardAt := t.time.tb1 } }

abbrev notedPlaces : List Rect := [.fld F.pairStatus_dbUp, .fld F.pairStatus_pState, .fld F.pairHealth_partner, .fld F.pairStatus_aliveUp]

theorem frame_hear : Frame [.regs, .pair, .bogie, .scan] [.fld F.pairStatus_dbUp, .fld F.pairStatus_pState, .fld F.pairHealth_partner] s (s.hear h) :=
  .trans frame_hearShown.sub (.patched rfl rfl rfl)

theorem frame_aliveNoted : Frame [.regs, .pair] [.fld F.pairStatus_aliveUp] (s.hear h) (s.noted h alive) :=
  .trans (.ite .fset (.refl _)) .pair

theorem noted_shows (hw : s.regsWf = true) (hs : h.score < 1024) :
    (s.noted h alive).partner = h.state ∧ (s.noted h alive).pair.heard = h ∧ (s.noted h alive).pair.heardAt = s.time.tb1 ∧
      (s.noted h alive).fbit F.pairStatus_dbUp = true ∧ (s.noted h alive).fget F.pairHealth_partner = h.score ∧
      (alive = true → (s.noted h alive).fbit F.pairStatus_aliveUp = true) ∧ (s.noted h alive).mod = s.mod ∧
      (s.noted h alive).pair.forced = s.pair.forced ∧ (s.noted h alive).scan.timeOffset = s.followed h ∧ (s.noted h alive).time = s.time := by
  obtain ⟨h1, h2, h3⟩ := hearShown_shows (h := h) hw hs
  have hw1 := (frame_hearShown (h := h)).canon hw
  have hfh : Frame [.pair, .bogie, .scan] [] (s.hearShown h) (s.hear h) := .patched rfl rfl rfl
  have hf := frame_aliveNoted (s := s) (h := h) (alive := alive)
  have hg : Frame [.regs, .pair, .bogie, .scan] [.fld F.pairStatus_aliveUp] (s.hearShown h) (s.noted h alive) := .trans hfh.sub hf.sub
  have hm : (s.noted h alive).mod = s.mod := (hg.mod hw1).trans (frame_hearShown.mod hw)
  refine ⟨(partner_of_frame hg hw1 rfl).trans h1, ?_, ?_, (hg.fbit hw1).trans h2, (hg.fget hw1).trans h3, ?_, hm, ?_, ?_, ?_⟩
  · cases alive <;> rfl
  · cases alive <;> rfl
  · rintro rfl
    exact fbit_fset (s := s.hear h) (frame_hear.canon hw) (by decide)
  · cases alive <;> rfl
  · cases alive <;> rfl
  · cases alive <;> rfl

theorem pullForced_none (h : s.pair.forced = []) : s.pullForced = s := by
  have hf (c : Nat) : NSet.has [] c = false := rfl
  simp [State.pullForced, h, hf]

theorem heardRole_member (h : s.mod = .primary ∨ s.mod = .standby) : s.heardRole = s := by
  rw [State.heardRole]
  rcases h with h | h <;> rw [h]

theorem heardRole_alone (h : s.mod = .alone) : s.heardRole = (s.enter .primary).canPermit := by
  rw [State.heardRole, h]

theorem exec_heartbeatRx_hears (hc : s.power.chip = true) :
    exec (.heartbeatRx (some h) alive) s = .next ((s.noted h alive).heardRole.pullForced.completeAll) :=
  when_pos (by rw [hc]; rfl)

theorem heartbeatRx_member (hw : s.regsWf = true) (hc : s.power.chip = true) (hm : s.mod = .primary ∨ s.mod = .standby)
    (hf : s.pair.forced = []) (hs : h.score < 1024) :
    ∃ t, exec (.heartbeatRx (some h) alive) s = .next t ∧ t.partner = h.state ∧ t.pair.heard = h ∧
      t.pair.heardAt = s.time.tb1 ∧ t.fbit F.pairStatus_dbUp = true ∧ t.fget F.pairHealth_partner = h.score ∧
      (alive = true → t.fbit F.pairStatus_aliveUp = true) ∧ t.mod = s.mod ∧ t.mem = s.mem ∧
      (s.mod = .standby → h.state = .primary → t.scanTime = h.scanTime) := by
  obtain ⟨h1, h2, h3, h4, h5, h6, h7, h8, h9, h10⟩ := noted_shows (alive := alive) hw hs
  have he := exec_heartbeatRx_hears (h := h) (alive := alive) hc
  have hn : Frame [.regs, .pair, .bogie, .scan] notedPlaces s (s.noted h alive) := .trans frame_hear.sub frame_aliveNoted.sub
  have hw1 := hn.canon hw
  have hmem : (s.noted h alive).mem = s.mem := hn.part .mem (by decide)
  generalize s.noted h alive = v at *
  rw [heardRole_member (by rw [h7]; exact hm), pullForced_none (h8.trans hf)] at he
  have hg := frame_completeAll v
  refine ⟨_, he, (partner_of_frame hg hw1 rfl).trans h1, ?_, ?_, (hg.fbit hw1).trans h4, (hg.fget hw1).trans h5, fun ha => (hg.fbit hw1).trans (h6 ha),
    (hg.mod hw1).trans h7, (hg.part .mem (by decide)).trans hmem, fun hst hp => ?_⟩
  · rw [hg.part .pair (by decide), h2]
  · rw [hg.part .pair (by decide), h3]
  · rw [State.scanTime, hg.part .scan (by decide), hg.part .time (by decide), h9, h10, State.followed, hst, hp]
    exact (BitVec.add_comm _ _).trans (BitVec.sub_add_cancel _ _)

theorem heartbeatRx_alone (hw : s.regsWf = true) (hc : s.power.chip = true) (hm : s.mod = .alone) (hf : s.pair.forced = []) :
    ∃ t, exec (.heartbeatRx (some h) alive) s = .next t ∧ t.mod = .primary := by
  have he := exec_heartbeatRx_hears (h := h) (alive := alive) hc
  have hn : Frame [.regs, .pair, .bogie, .scan] notedPlaces s (s.noted h alive) := .trans frame_hear.sub frame_aliveNoted.sub
  have hw1 := hn.canon hw
  have hm1 : (s.noted h alive).mod = .alone := (hn.mod hw).trans hm
  have hf1 : (s.noted h alive).pair.forced = [] := by
    rw [← hf]
    cases alive <;> rfl
  generalize s.noted h alive = v at *
  have hw2 := (frame_enter v .primary).canon hw1
  have hg : Frame [.regs, .can] [.blk 0xa] (v.enter .primary) (v.enter .primary).canPermit := frame_canPermit _
  have hpf : (v.enter .primary).canPermit.pair.forced = [] := by
    rw [hg.part .pair (by decide), (frame_enter v .primary).part .pair (by decide), hf1]
  rw [heardRole_alone hm1, pullForced_none hpf] at he
  exact ⟨_, he, by rw [(frame_completeAll _).mod (hg.canon hw2), hg.mod hw2, mod_enter hw1]⟩

/-! A path that falls silent, and the partner lost (R203, R212). -/

/-- The field of a path, up or not, and the count of its misses. -/
abbrev pathField (db : Bool) : Field := if db then F.pairStatus_dbUp else F.pairStatus_aliveUp

abbrev missField (db : Bool) : Field := ⟨R.pairHbMiss, if db then 0 else 16, 16⟩

/-- A path silent, counted and recorded. -/
def State.pathGone (s : State) (db : Bool) : State :=
  ((s.fset (pathField db) 0).bumpF (missField db)).raise hapPath (if db then 0 else 1) []

theorem frame_pathGone : Frame [.regs, .recd] [.fld F.pairStatus_dbUp, .fld F.pairStatus_aliveUp, .reg R.pairHbMiss] s (s.pathGone db) := by
  cases db <;> exact .trans (.trans .fset .bumpF) .raise

theorem satAdd_lt (w n : Nat) : satAdd w n 1 < 2 ^ w := by
  have := Nat.two_pow_pos w
  unfold satAdd
  omega

/-- A field cleared and a count of another register raised, beside a field of the first that stands. -/
theorem fset_bumpF_shows {f g m : Field} {e : Hap} {n : Nat} {l : List W64} (hw : s.regsWf = true) (hf : f.lo + f.width ≤ 32) (hg : g.lo + g.width ≤ 32) (hm : m.lo + m.width ≤ 32)
    (h1 : f.off ≠ m.off) (h2 : g.off ≠ m.off) (hd : g.lo + g.width ≤ f.lo ∨ f.lo + f.width ≤ g.lo) :
    (((s.fset f 0).bumpF m).raise e n l).fbit f = false ∧ (((s.fset f 0).bumpF m).raise e n l).fbit g = s.fbit g ∧
      (((s.fset f 0).bumpF m).raise e n l).fget m = satAdd m.width (s.fget m) 1 := by
  have hw1 : (s.fset f 0).regsWf = true := regsWf_fset hw
  have hr (o : Nat) : (((s.fset f 0).bumpF m).raise e n l).rd o = ((s.fset f 0).bumpF m).rd o := rfl
  rw [fbit_congr (hr _), fbit_congr (hr _), fget_congr (hr _)]
  refine ⟨?_, ?_, ?_⟩
  · rw [State.fbit, fget_bumpF_off h1, fget_fset hw hf, Nat.zero_mod]
    rfl
  · rw [State.fbit, fget_bumpF_off h2, fget_fset_beside hw hd hg, State.fbit]
  · rw [State.bumpF, fget_fset hw1 hm, fget_fset_off h1.symm]
    exact Nat.mod_eq_of_lt (satAdd_lt _ _)

theorem pathGone_shows (hw : s.regsWf = true) : (s.pathGone db).fbit (pathField db) = false ∧
    (s.pathGone db).fbit (pathField !db) = s.fbit (pathField !db) ∧ (s.pathGone db).fget (missField db) = satAdd 16 (s.fget (missField db)) 1 := by
  cases db with
  | true =>
    exact fset_bumpF_shows (f := F.pairStatus_dbUp) (g := F.pairStatus_aliveUp) (m := ⟨R.pairHbMiss, 0, 16⟩) (e := hapPath) (n := 0) (l := []) hw (by decide)
        (by decide) (by decide) (by decide) (by decide) (by decide)
  | false =>
    exact fset_bumpF_shows (f := F.pairStatus_aliveUp) (g := F.pairStatus_dbUp) (m := ⟨R.pairHbMiss, 16, 16⟩) (e := hapPath) (n := 1) (l := []) hw (by decide)
        (by decide) (by decide) (by decide) (by decide) (by decide)

theorem exec_pathSilent_goes (hc : s.power.chip = true) (hf : s.fbit (pathField db) = true) : exec (.pathSilent db) s =
    .next (if !(s.pathGone db).fbit F.pairStatus_dbUp && !(s.pathGone db).fbit F.pairStatus_aliveUp then (s.pathGone db).partnerLost
      else s.pathGone db) :=
  when_pos (by rw [hc, hf]; rfl)

theorem silent_iff (u : State) : (!u.fbit F.pairStatus_dbUp && !u.fbit F.pairStatus_aliveUp) = (!u.fbit (pathField db) && !u.fbit (pathField !db)) := by
  cases db
  · exact Bool.and_comm _ _
  · rfl

theorem pathSilent_one (hw : s.regsWf = true) (hc : s.power.chip = true) (hf : s.fbit (pathField db) = true) (ho : s.fbit (pathField !db) = true) :
    ∃ t, exec (.pathSilent db) s = .next t ∧ t.fbit (pathField db) = false ∧ t.pair = s.pair ∧
      t.fget (missField db) = satAdd 16 (s.fget (missField db)) 1 ∧ keepsRegs [R.pairStatus, R.pairHbMiss] s t := by
  obtain ⟨h1, h2, h3⟩ := pathGone_shows (db := db) hw
  have he := exec_pathSilent_goes hc hf
  have hg := frame_pathGone (s := s) (db := db)
  rw [silent_iff (db := db), h2, ho, Bool.not_true, Bool.and_false, if_neg (by decide)] at he
  exact ⟨_, he, h1, hg.part .pair (by decide), h3, hg.keepsRegs hw⟩

/-- The partner shown as lost. -/
def State.goneShown (s : State) : State := ((s.fset F.pairStatus_pState 0).fset F.pairHealth_partner 0).raise hapPartnerLost 0 []

/-- What waited for the partner waits no longer. -/
def State.forgets (a : State) : State := { a with
  bogie := { a.bogie with pReady := false }
  pair := { a.pair with
    msgs := [], seen := [], pPlans := [], pDigests := [], agreed := [], applyAt := none, sweepStart := none, marginRuns := 0 }
  olc := { a.olc with partnerPkg := none } }

/-- The partner shown as lost, and forgotten. -/
def State.partnerGone (s : State) : State := s.goneShown.forgets.fset F.olcStatus_pairReady 0

abbrev partnerGonePlaces : List Rect := [.fld F.pairStatus_pState, .fld F.pairHealth_partner, .fld F.olcStatus_pairReady]

theorem frame_partnerGone : Frame [.regs, .recd, .bogie, .pair, .olc] partnerGonePlaces s s.partnerGone :=
  .trans (.trans (.trans (.trans .fset .fset) .raise) (.patched (t := s.goneShown.forgets) rfl rfl rfl)) .fset

theorem partner_partnerGone (hw : s.regsWf = true) : s.partnerGone.partner = .off := by
  have hw1 : (s.fset F.pairStatus_pState 0).regsWf = true := regsWf_fset hw
  have hf : Frame [.regs, .recd, .bogie, .pair, .olc] [.fld F.pairHealth_partner, .fld F.olcStatus_pairReady] (s.fset F.pairStatus_pState 0)
    s.partnerGone := .trans (.trans (.trans .fset .raise) (.patched (t := s.goneShown.forgets) rfl rfl rfl)) .fset
  rw [State.partner, hf.fget hw1, fget_fset hw (by decide)]
  rfl

/-- No hand-over and no seal waits. -/
def State.unsealing (x : State) : State := { x with pair := { x.pair with
  handover := none, handoverSent := false, handoverAcked := false, sealPending := none, inFlight := [], unsealed := 0 } }

/-- A PRIMARY that has lost its partner is ALONE: no hand-over and no seal waits. -/
def State.nowAlone (s : State) : State := (((s.enter .alone).canPermit).unsealing.fsetb F.pairStatus_handover false).endSwitchCmds 0x0103

abbrev nowAlonePlaces : List Rect := [.fld F.brmStatus_auditRun, .fld F.pairStatus_state, .blk 0xa, .fld F.pairStatus_handover] ++ tripEndPlaces

theorem frame_nowAlone : Frame [.out, .regs, .brm, .recd, .can, .pair, .host] nowAlonePlaces s s.nowAlone :=
  .trans (.trans (.trans (.trans (frame_enter ..).sub (frame_canPermit ..).sub) .pair) .fsetb) (frame_endSwitchCmds ..).sub

theorem mod_nowAlone (hw : s.regsWf = true) : s.nowAlone.mod = .alone := by
  have hw1 := (frame_enter s .alone).canon hw
  have hf : Frame [.out, .regs, .can, .pair, .host] ([.blk 0xa, .fld F.pairStatus_handover] ++ tripEndPlaces) (s.enter .alone) s.nowAlone :=
    .trans (.trans (.trans (frame_canPermit ..).sub .pair) .fsetb) (frame_endSwitchCmds ..).sub
  rw [hf.mod hw1, mod_enter hw]

theorem msgs_nowAlone : s.nowAlone.pair.msgs = s.pair.msgs := by
  obtain ⟨x, hx⟩ : ∃ x, x = (s.enter .alone).canPermit := ⟨_, rfl⟩
  have hp : x.pair = s.pair := by
    rw [hx, (frame_canPermit _).part .pair (by decide), (frame_enter ..).part .pair (by decide)]
  have he : s.nowAlone = (x.unsealing.fsetb F.pairStatus_handover false).endSwitchCmds 0x0103 := by rw [hx]; rfl
  rw [he, (frame_endSwitchCmds ..).part .pair (by decide), ← hp]
  rfl

theorem lostPrimary_eq (h1 : s.scan.step ≠ .copy) (h2 : s.scan.step ≠ .awaitSeal) : s.lostPrimary = s.nowAlone := by
  have hs : s.nowAlone.scan.step = s.scan.step := by rw [frame_nowAlone.part .scan (by decide)]
  unfold State.nowAlone State.unsealing at hs ⊢
  unfold State.lostPrimary
  generalize (s.enter .alone).canPermit = x at *
  dsimp only at hs ⊢
  generalize State.endSwitchCmds _ 0x0103 = z at *
  rw [hs]
  split
  next h => exact absurd h h1
  next h => exact absurd h h2
  next => rfl

theorem frame_acked (gone : Nat → Bool) : Frame [.out, .regs, .host] completeAllPlaces s (s.acked gone) :=
  .trans .host (frame_completeAll ..).sub

theorem partnerLost_primary (hw : s.regsWf = true) (hm : s.mod = .primary) (h1 : s.scan.step ≠ .copy) (h2 : s.scan.step ≠ .awaitSeal) :
    s.partnerLost = s.partnerGone.nowAlone.acked (fun _ => true) := by
  have hf := frame_partnerGone (s := s)
  have hm1 : s.partnerGone.mod = .primary := (hf.mod hw).trans hm
  have hs : s.partnerGone.scan = s.scan := hf.part .scan (by decide)
  have he : s.partnerLost = (match s.partnerGone.mod with
    | .primary => s.partnerGone.lostPrimary
    | .standby => s.partnerGone.fsetb F.pairStatus_claim true
    | .syncing => s.partnerGone.lostSyncing
    | .stopped => if s.partnerGone.fbit F.pairStatus_ready then s.partnerGone.fsetb F.pairStatus_claim true else s.partnerGone
    | .config => if s.partnerGone.power.roleOpen then s.partnerGone.decideAlone else s.partnerGone
    | _ => s.partnerGone).acked (fun _ => true) := rfl
  rw [he, hm1]
  dsimp only
  rw [lostPrimary_eq (by rw [hs]; exact h1) (by rw [hs]; exact h2)]

theorem partnerLost_standby (hw : s.regsWf = true) (hm : s.mod = .standby) :
    s.partnerLost = (s.partnerGone.fsetb F.pairStatus_claim true).acked (fun _ => true) := by
  have hm1 : s.partnerGone.mod = .standby := (frame_partnerGone.mod hw).trans hm
  have he : s.partnerLost = (match s.partnerGone.mod with
    | .primary => s.partnerGone.lostPrimary
    | .standby => s.partnerGone.fsetb F.pairStatus_claim true
    | .syncing => s.partnerGone.lostSyncing
    | .stopped => if s.partnerGone.fbit F.pairStatus_ready then s.partnerGone.fsetb F.pairStatus_claim true else s.partnerGone
    | .config => if s.partnerGone.power.roleOpen then s.partnerGone.decideAlone else s.partnerGone
    | _ => s.partnerGone).acked (fun _ => true) := rfl
  rw [he, hm1]

theorem pathSilent_both (hw : s.regsWf = true) (hc : s.power.chip = true) (hf : s.fbit (pathField db) = true)
    (ho : s.fbit (pathField !db) = false) (hm : s.mod = .standby ∨ (s.mod = .primary ∧ s.scan.step ≠ .copy ∧ s.scan.step ≠ .awaitSeal)) :
    ∃ t, exec (.pathSilent db) s = .next t ∧ t.partner = .off ∧ t.pair.msgs = [] ∧ t.mem = s.mem ∧
      t.mod = (if s.mod = .primary then .alone else .standby) ∧ (s.mod = .standby → t.fbit F.pairStatus_claim = true) := by
  obtain ⟨h1, h2, -⟩ := pathGone_shows (db := db) hw
  have he := exec_pathSilent_goes hc hf
  have hg := frame_pathGone (s := s) (db := db)
  rw [silent_iff (db := db), h1, h2, ho, Bool.not_false, Bool.and_true, if_pos rfl] at he
  have hw1 := hg.canon hw
  have hm1 : (s.pathGone db).mod = s.mod := hg.mod hw
  have hmem1 : (s.pathGone db).mem = s.mem := hg.part .mem (by decide)
  have hs1 : (s.pathGone db).scan = s.scan := hg.part .scan (by decide)
  generalize s.pathGone db = v at *
  have hp := frame_partnerGone (s := v)
  have hw2 := hp.canon hw1
  have hoff := partner_partnerGone hw1
  have hmsg : v.partnerGone.pair.msgs = [] := rfl
  have hm2 : v.partnerGone.mod = s.mod := (hp.mod hw1).trans hm1
  have hmem2 : v.partnerGone.mem = s.mem := (hp.part .mem (by decide)).trans hmem1
  rcases hm with hm | ⟨hm, hs2, hs3⟩
  · rw [partnerLost_standby hw1 (hm1.trans hm)] at he
    generalize v.partnerGone = w at *
    have hq : Frame [.out, .regs, .host] (.fld F.pairStatus_claim :: completeAllPlaces) w ((w.fsetb F.pairStatus_claim true).acked (fun _ => true)) :=
      .trans .fsetb (frame_acked _).sub
    have hcl : (w.fsetb F.pairStatus_claim true).fbit F.pairStatus_claim = true := fbit_fsetb hw2 (by decide) rfl
    refine ⟨_, he, (partner_of_frame hq hw2 rfl).trans hoff, by rw [hq.part .pair (by decide), hmsg], (hq.part .mem (by decide)).trans hmem2, ?_,
      fun _ => ((frame_acked _).fbit (regsWf_fsetb hw2)).trans hcl⟩
    rw [hq.mod hw2, hm2, hm]
    rfl
  · rw [partnerLost_primary hw1 (hm1.trans hm) (by rw [hs1]; exact hs2) (by rw [hs1]; exact hs3)] at he
    have hma := mod_nowAlone hw2
    have hms := msgs_nowAlone (s := v.partnerGone)
    have hn := frame_nowAlone (s := v.partnerGone)
    have hw3 := hn.canon hw2
    have hq : Frame [.out, .regs, .brm, .recd, .can, .pair, .host] (nowAlonePlaces ++ completeAllPlaces) v.partnerGone
      (v.partnerGone.nowAlone.acked (fun _ => true)) := hn.sub.trans (frame_acked _).sub
    refine ⟨_, he, (partner_of_frame hq hw2 rfl).trans hoff, ?_, (hq.part .mem (by decide)).trans hmem2, ?_, fun h => nomatch h.symm.trans hm⟩
    · rw [(frame_acked _).part .pair (by decide), hms, hmsg]
    · rw [(frame_acked _).mod hw3, hma, hm]
      rfl

end Sys2Proof.Machine
end

section
/-! The roles of the pair, and the commands that change them (R65, R212, R215, R226, R458). -/

namespace Sys2Proof.Machine

variable {s t u : State} {id : Nat} {m : Master} {key : BitVec 16}

/-! Back to SYNCING (R212, R226). -/

theorem enterSyncing_member (h : s.mod ≠ .config) : s.enterSyncing = s.toSyncing := if_neg h

theorem ready_toSyncing (hw : s.regsWf = true) : s.toSyncing.fbit F.pairStatus_ready = false := by
  have hw1 : (s.setReady false).regsWf = true := regsWf_fsetb hw
  have hf : Frame [.out, .regs, .pair, .brm, .scan, .recd, .can] [.fld F.brmStatus_auditRun, .fld F.pairStatus_state,
      .fld F.pairStatus_claim, .fld F.pairStatus_synced, .reg R.pairSync, .blk 0xa] (s.setReady false) s.toSyncing :=
    Frame.after Frame.send <| Frame.after (Frame.patched rfl rfl rfl) <| Frame.after (frame_canPermit ..).sub <|
      Frame.after Frame.fset <| Frame.after (frame_syncReset ..).sub <| Frame.after (frame_enter ..).sub <|
      Frame.after (frame_haltScan ..).sub Frame.fsetb
  rw [hf.fbit hw1]
  exact fbit_fsetb hw (by decide) rfl

theorem msgs_toSyncing : ∃ k ∈ s.toSyncing.pair.msgs, k.body = .resyncRequest := send_msgs

/-- What a STANDBY that leaves the pair shows and asks for. -/
theorem leaves_toSyncing (hw : s.regsWf = true) (hm : s.mod = .standby) : s.enterSyncing.mod = .syncing ∧
    s.enterSyncing.fbit F.pairStatus_ready = false ∧ s.enterSyncing.mem = s.mem ∧ ∃ k ∈ s.enterSyncing.pair.msgs, k.body = .resyncRequest := by
  rw [enterSyncing_member (by rw [hm]; decide)]
  exact ⟨mod_toSyncing hw, ready_toSyncing hw, (frame_toSyncing s).part .mem (by decide), msgs_toSyncing⟩

/-! The decision on the role (R458). -/

/-- The role decided. -/
def State.roleSettled (s : State) : State := { s with power := { s.power with roleDone := true, roleOpen := false } }

/-- Whether the partner drives, or is about to. -/
def State.partnerDrives (s : State) : Bool := s.partner == .primary || s.partner == .alone || (s.partner == .config && s.pair.heard.token)

theorem exec_roleDecision_decides (hm : s.mod = .config) (hd : s.fbit F.pwrStatus_cfgDone = true) (hr : s.power.roleDone = false)
    (hs : s.pair.startReq223 = false) : exec .roleDecision s = .next (
      if (s.fbit F.pairStatus_dbUp || s.fbit F.pairStatus_aliveUp) && s.partnerDrives then s.roleSettled.enterSyncing
      else if (s.fbit F.pairStatus_dbUp || s.fbit F.pairStatus_aliveUp) && (s.partner == .service || s.partner == .stopped) then
        { s with power := { s.power with roleOpen := true } }
      else s.decideAlone) :=
  when_pos (by rw [hm, hd, hr, hs]; rfl)

theorem roleDecision_clauses (hw : s.regsWf = true) (hm : s.mod = .config) (hd : s.fbit F.pwrStatus_cfgDone = true)
    (hr : s.power.roleDone = false) (hs : s.pair.startReq223 = false) :
    ((s.fbit F.pairStatus_dbUp = true ∨ s.fbit F.pairStatus_aliveUp = true) → (s.partner = .primary ∨ s.partner = .alone) →
      ∃ t, exec .roleDecision s = .next t ∧ t.mod = .syncing ∧ t.power.roleDone = true ∧ ∃ m ∈ t.pair.msgs, m.body = .resyncRequest) ∧
    ((s.fbit F.pairStatus_dbUp = true ∨ s.fbit F.pairStatus_aliveUp = true) → (s.partner = .service ∨ s.partner = .stopped) →
      exec .roleDecision s = .next { s with power := { s.power with roleOpen := true } }) ∧
    (¬ (s.fbit F.pairStatus_dbUp = true ∨ s.fbit F.pairStatus_aliveUp = true) → s.fbit F.sysCfgStatus_refused = false →
      ∃ t, exec .roleDecision s = .next t ∧ fieldSet F.pairStatus_claim 1 s t ∧ keepsRegs [R.pairStatus] s t ∧
        t.power = { s.power with roleDone := true, roleOpen := false }) := by
  have he := exec_roleDecision_decides hm hd hr hs
  refine ⟨fun hh hp => ?_, fun hh hp => ?_, fun hh hc => ?_⟩
  · have hdr : s.partnerDrives = true := by
      rw [State.partnerDrives]
      rcases hp with hp | hp <;> rw [hp] <;> rfl
    rw [Bool.or_eq_true_iff.mpr hh, hdr, if_pos (by decide)] at he
    have hw1 : s.roleSettled.regsWf = true := hw
    have hf := frame_enterSyncing s.roleSettled
    refine ⟨_, he, mod_enterSyncing hw1, ?_, ?_⟩
    · rw [hf.part .power (by decide)]
      rfl
    · rw [enterSyncing_after.part .pair (by decide)]
      exact msgs_toSyncing
  · have hdr : s.partnerDrives = false := by
      rw [State.partnerDrives]
      rcases hp with hp | hp <;> rw [hp] <;> rfl
    have hsv : (s.partner == .service || s.partner == .stopped) = true := by
      rcases hp with hp | hp <;> rw [hp] <;> rfl
    rw [Bool.or_eq_true_iff.mpr hh, hdr, hsv, if_neg (by decide), if_pos (by decide)] at he
    exact he
  · have hh' : (s.fbit F.pairStatus_dbUp || s.fbit F.pairStatus_aliveUp) = false := by
      rw [← Bool.not_eq_true, Bool.or_eq_true_iff]
      exact hh
    have hda : s.decideAlone = s.roleSettled.fsetb F.pairStatus_claim true := by
      have hc1 : s.roleSettled.fbit F.sysCfgStatus_refused = false := hc
      exact if_neg (Bool.eq_false_iff.mp hc1)
    rw [hh', Bool.false_and, Bool.false_and, if_neg (by decide), if_neg (by decide), hda] at he
    exact ⟨_, he, fieldSet_fset_lt (s := s.roleSettled) hw (by decide) (by decide), keepsRegs_fset (f := F.pairStatus_claim) (s := s.roleSettled), rfl⟩

/-! The partner's watchdog trip (R65, R220). -/

/-- A STANDBY stopped by its partner's trip: it keeps READY where nothing forbids it, and the copy under way is abandoned. -/
def State.stoppedByPartner (s : State) (cls : Nat) : State :=
  { (s.scanTrip cls true).setReady s.mayReady with pair := { (s.scanTrip cls true).pair with staged := [] } }

theorem tripNoted_standby {cls : Nat} (hm : s.mod = .standby) : s.tripNoted cls = s.stoppedByPartner cls := by
  rw [State.tripNoted, hm]
  rfl

theorem tripNotice_standby {cls : Cls} (hw : s.regsWf = true) (hf : s.fresh id) (hm : s.mod = .standby) :
    ∃ t, exec (.tripNoticeRx id cls) s = .next t ∧ t.mod = .stopped ∧ t.scan.run = .tripped ∧ t.fbit F.pairStatus_ready = s.mayReady ∧
      t.pair.staged = [] ∧ t.fget F.scanStatus_runstate = 2 := by
  have he : exec (.tripNoticeRx id cls) s = s.onceOnly id (s.stoppedByPartner (cls.num - 1)) := by
    rw [← tripNoted_standby hm]
    rfl
  rw [onceOnly_fresh hf] at he
  obtain ⟨hmod, hsc, -, -, hrun, -, -, -, -⟩ := scanTrip_trips (k := cls.num - 1) (b := true) hw
  have hw1 := (frame_scanTrip s (cls.num - 1) true).canon hw
  have hsr : (s.scanTrip (cls.num - 1) true).scan.run = .tripped := by rw [hsc]
  rw [State.stoppedByPartner] at he
  generalize s.scanTrip (cls.num - 1) true = u at *
  generalize s.mayReady = b at *
  have hr : (u.setReady b).fbit F.pairStatus_ready = b := by
    rw [State.setReady]
    exact fbit_fsetb hw1 (by decide) rfl
  have hg : Frame [.regs, .pair, .out] [.fld F.pairStatus_ready] u _ := .trans (.trans (frame_setReady u b).sub
    (.pair (x := { u.pair with staged := [], seen := id :: u.pair.seen }))) (.sendOnce (e := .drawbarAck id))
  have hg2 : Frame [.pair, .out] [] (u.setReady b) _ := .trans (.pair (x := { u.pair with staged := [], seen := id :: u.pair.seen }))
    (.sendOnce (e := .drawbarAck id))
  have hp : Frame [.out] [] { u.setReady b with pair := { u.pair with staged := [], seen := id :: u.pair.seen } } _ :=
    .sendOnce (e := .drawbarAck id)
  refine ⟨_, he, (hg.mod hw1).trans hmod, ?_, (hg2.fbit (regsWf_fsetb hw1)).trans hr, ?_, (hg.fget hw1).trans hrun⟩
  · exact (congrArg (fun x : Scan => x.run) (hg.part .scan (by decide))).trans hsr
  · exact congrArg (fun x : Pair => x.staged) (hp.part .pair (by decide))

/-! Requests and commands (R215, R226). -/

theorem asks_handover {i : Instr} {k : Nat} (hw : s.regsWf = true) (hm : s.mod = .primary) {u : State} {ps : List Part}
    (hf : Frame ps [] (handoverAsked s k) u) (he : exec i s = .next u) (hh : u.pair.handover = some k)
    (hp : autoParam (decide (Part.mem ∈ ps) = false) List.TFAE.out._auto_1) :
    ∃ t, exec i s = .next t ∧ t.pair.handover = some k ∧ t.fbit F.pairStatus_handover = true ∧ t.mod = .primary ∧
      keepsRegs [R.pairStatus] s t ∧ t.mem = s.mem := by
  have h1 := frame_handoverAsked s k
  have hw1 := h1.canon hw
  have hb : (handoverAsked s k).fbit F.pairStatus_handover = true := fbit_fsetb (s := { s with pair := _ }) hw (by decide) rfl
  refine ⟨u, he, hh, (hf.fbit hw1).trans hb, (hf.mod hw1).trans ((h1.mod hw).trans hm), ?_, ?_⟩
  · have hk : keepsRegs [R.pairStatus] s (handoverAsked s k) := h1.keepsRegs hw
    exact fun o ho => (hf.rd hw1).trans (hk o ho)
  · rw [hf.part .mem (of_decide_eq_false hp), h1.part .mem (by decide)]

theorem handoverRequest_asks (hw : s.regsWf = true) (hf : s.fresh id) (hm : s.mod = .primary) (hr : s.bogie.pReady = true) :
    ∃ t, exec (.handoverRequestRx id) s = .next t ∧ t.pair.handover = some 5 ∧ t.fbit F.pairStatus_handover = true ∧ t.mod = .primary ∧
      keepsRegs [R.pairStatus] s t ∧ t.mem = s.mem := by
  have he : exec (.handoverRequestRx id) s = s.onceOnly id (handoverAsked s 5) := by
    rw [exec_handoverRequestRx, execHandoverRequestRx, if_pos hm, startHandover_asks hm hr]
  rw [onceOnly_fresh hf] at he
  have hp : Frame [.out] [] { handoverAsked s 5 with pair := { (handoverAsked s 5).pair with seen := id :: (handoverAsked s 5).pair.seen } } _ :=
    .sendOnce (e := .drawbarAck id)
  have hg : Frame [.pair, .out] [] (handoverAsked s 5) _ := .trans .pair hp.sub
  refine asks_handover hw hm hg he ?_
  rw [hp.part .pair (by decide)]
  rfl

theorem exec_pairCtrlSwitch_writes (h : s.writes m R.pairCtrl) : exec (.pairCtrlSwitch m key) s = .next (s.pairCtrl 1 key) :=
  asWrite_writes (f := fun s => s.pairCtrl 1 key) h

theorem exec_pairLeave_writes (h : s.writes m R.pairCtrl) : exec (.pairLeave m key) s = .next (s.pairCtrl 2 key) :=
  asWrite_writes (f := fun s => s.pairCtrl 2 key) h

theorem pairCtrl_switch : s.pairCtrl 1 0x5A17 = s.pairSwitch.getD (s.ignoredIn blkPair) := rfl
theorem pairCtrl_leave : s.pairCtrl 2 0x5A17 = s.pairLeave.getD (s.ignoredIn blkPair) := rfl

theorem pairCtrl_badKey {c : Nat} (h : key ≠ 0x5A17) : s.pairCtrl c key = s.bump 0x5010 := by
  have hk : key ≠ pairKey := h
  show ((if key ≠ pairKey then none else _ : Option State)).getD (s.ignoredIn blkPair) = _
  rw [if_pos hk]
  rfl

theorem pairSwitch_primary (hm : s.mod = .primary) (hr : s.bogie.pReady = true) : s.pairSwitch = some (handoverAsked s 3) := by
  rw [State.pairSwitch, hr, hm, ← startHandover_asks hm hr]
  rfl

theorem pairSwitch_unready (hr : s.bogie.pReady = false) : s.pairSwitch = none := by
  rw [State.pairSwitch, hr]
  rfl

theorem pairCtrlSwitch_asks (hw : s.regsWf = true) (hm : s.mod = .primary) (hr : s.bogie.pReady = true) (h : s.writes m R.pairCtrl) :
    ∃ t, exec (.pairCtrlSwitch m 0x5A17) s = .next t ∧ t.pair.handover = some 3 ∧ t.fbit F.pairStatus_handover = true ∧ t.mod = .primary ∧
      keepsRegs [R.pairStatus] s t ∧ t.mem = s.mem := by
  have he := exec_pairCtrlSwitch_writes (key := 0x5A17) h
  rw [pairCtrl_switch, pairSwitch_primary hm hr] at he
  exact asks_handover (ps := []) hw hm (.refl _) he rfl

theorem commands_ignored (hw : s.regsWf = true) (h : s.writes m R.pairCtrl) :
    ((key ≠ 0x5A17 ∨ s.bogie.pReady = false) → ∃ t, exec (.pairCtrlSwitch m key) s = .next t ∧ onlyRegs [0x5010] s t ∧
      (t.rd 0x5010).toNat = satAdd 32 (s.rd 0x5010).toNat 1) ∧
    ((key ≠ 0x5A17 ∨ s.mod ≠ .standby) → ∃ t, exec (.pairLeave m key) s = .next t ∧ onlyRegs [0x5010] s t ∧
      (t.rd 0x5010).toNat = satAdd 32 (s.rd 0x5010).toNat 1) := by
  refine ⟨fun hc => ignored_of hw ((exec_pairCtrlSwitch_writes h).trans (congrArg Host.Outcome.next ?_)),
    fun hc => ignored_of hw ((exec_pairLeave_writes h).trans (congrArg Host.Outcome.next ?_))⟩
  · by_cases hk : key = 0x5A17
    · rw [hk, pairCtrl_switch, pairSwitch_unready (hc.resolve_left fun hn => hn hk)]
      rfl
    · exact pairCtrl_badKey hk
  · by_cases hk : key = 0x5A17
    · rw [hk, pairCtrl_leave, State.pairLeave, if_neg (hc.resolve_left fun hn => hn hk)]
      rfl
    · exact pairCtrl_badKey hk

theorem exec_pairLeave_leaves (hm : s.mod = .standby) (h : s.writes m R.pairCtrl) : exec (.pairLeave m 0x5A17) s = .next s.enterSyncing := by
  rw [exec_pairLeave_writes h, pairCtrl_leave, State.pairLeave, if_pos hm]
  rfl

theorem exec_resyncDemand (h : s.fbit F.pwrStatus_firstSec = false) : exec .resyncDemandRx s = s.when (s.mod == .standby) s.enterSyncing := by
  rw [exec_resyncDemandRx, execResyncDemandRx, State.linkRx, h]
  rw [Bool.and_false, Bool.false_and, if_neg (by decide)]

theorem exec_resyncDemand_early (hc : s.power.chip = true) (h : s.fbit F.pwrStatus_firstSec = true) (hd : s.fbit F.pwrStatus_cfgDone = false) :
    exec .resyncDemandRx s = .next (s.bump 0x5010) := by
  rw [exec_resyncDemandRx, execResyncDemandRx, State.linkRx, h, hc, hd]
  rfl

theorem exec_resyncDemand_leaves (hm : s.mod = .standby) (h : s.fbit F.pwrStatus_firstSec = false) :
    exec .resyncDemandRx s = .next s.enterSyncing := by
  rw [exec_resyncDemand h]
  exact when_pos (by rw [hm]; rfl)

theorem exec_resyncDemand_rests (hm : s.mod ≠ .standby) (h : s.fbit F.pwrStatus_firstSec = false) : exec .resyncDemandRx s = .next s := by
  rw [exec_resyncDemand h]
  exact when_neg (beq_eq_false_iff_ne.mpr hm)

/-- Settles O47: each command is a chain of updates, and each fact is carried along it by the parts and places that the later updates
leave; the role that a risen token gives is read off the three cases of `tokenRole`. -/
theorem tokenAndRoles : Obligations.TokenAndRoles := by
  refine ⟨fun ahead s hw => ⟨tokenRise_own hw, exec_tokenRise_none, tokenRise_partner hw, takeoverStart_ahead hw,
    fun p ht hm hr hs hc hq hp => takeoverStart_freezes hw ht hm hr hs hc hq hp, exec_takeoverStart_none, loopRampEnd_ends hw⟩,
    fun s hw => ⟨fun hc hd hl hu => ⟨_, s.beat, exec_heartbeatSend_sends hc hd hl hu, rfl, rfl, rfl, rfl, rfl, rfl, rfl, rfl, rfl⟩,
      fun h alive hc hm hf hs => heartbeatRx_member hw hc hm hf hs, fun alive h hc hm hf => heartbeatRx_alone hw hc hm hf,
      fun db => ?_, fun hm hd hr hs => roleDecision_clauses hw hm hd hr hs, fun id cls hf hm => tripNotice_standby hw hf hm,
      fun id hf hm hr => handoverRequest_asks hw hf hm hr, fun hm hr m h => pairCtrlSwitch_asks hw hm hr h,
      fun m key h => commands_ignored hw h, fun hm => ⟨fun m h => ⟨_, exec_pairLeave_leaves hm h, leaves_toSyncing hw hm⟩,
        fun hf => ⟨_, exec_resyncDemand_leaves hm hf, leaves_toSyncing hw hm⟩⟩, exec_resyncDemand_rests,
      fun hc hf hd => ignored_of hw (exec_resyncDemand_early hc hf hd)⟩⟩
  exact fun hc hf => ⟨fun ho => pathSilent_one hw hc hf ho, fun ho hm => pathSilent_both hw hc hf ho hm⟩

end Sys2Proof.Machine
end

section
/-! What the steps of the scan cycle change (R41 to R54, R67). -/

namespace Sys2Proof.Machine

theorem frame_committed (s : State) (l : List Host.Cell) : Frame [.mem] [] s { s with mem := { s.mem with committed := l } } := Frame.mem
/-- The execution times of the classes. -/
abbrev execPlaces : List Rect := [.reg (R.scanChnExecLast 0), .reg (R.scanChnExecMax 0), .reg (R.scanChnExecLast 1),
  .reg (R.scanChnExecMax 1), .reg (R.scanChnExecLast 2), .reg (R.scanChnExecMax 2)]
theorem frame_execTime (s : State) (k : Nat) (hk : k < 3) : Frame [.regs] execPlaces s (s.execTime k) := by
  have h {o : Nat} (ho : o = R.scanChnExecLast k ∨ o = R.scanChnExecMax k) : coverAll execPlaces ⟨o, 0, 32⟩ = true := by
    obtain rfl | rfl | rfl : k = 0 ∨ k = 1 ∨ k = 2 := by omega
    all_goals obtain rfl | rfl := ho <;> decide
  exact Frame.after (.wr (h (.inr rfl))) (.wr (h (.inl rfl)))
theorem frame_histCommit (s : State) (c : Cls) (cycle time : W64) : Frame [.regs, .dray] [.blk 0xd] s (s.histCommit c cycle
    time) :=
  Frame.after (Frame.ite (Frame.refl _) (Frame.foldlAll _ (fun _ _ => (frame_drayHist ..).sub) _ _)) <| Frame.dray
theorem frame_canCyclic (s : State) (cycle : W64) : Frame [.regs, .can] [.blk 0xa] s (s.canCyclic cycle) :=
  Frame.foldl (fun _ _ he => (frame_canQueueBuf (h := mem_canBufs he) ..).sub) _
theorem frame_canPublish (s : State) (c : Cls) (cycle : W64) : Frame [.regs, .can] [.blk 0xa] s (s.canPublish c cycle) :=
  Frame.after (Frame.ite (frame_canCyclic ..).sub (Frame.refl _)) <| (frame_canLoad ..).sub
theorem frame_canStopped (s : State) (cycle : W64) : Frame [.regs, .can] [.blk 0xa] s (s.canStopped cycle) :=
  Frame.ite (frame_canCyclic ..).sub (Frame.refl _)
theorem frame_peerPublish (s : State) (c : Cls) (cycle time : W64) : Frame [.out] [] s (s.peerPublish c cycle time) := by
  unfold State.peerPublish
  split
  · exact Frame.refl _
  · exact Frame.ite (Frame.refl _) (Frame.after Frame.emit <| Frame.emit)
theorem frame_forceOutputs (s : State) (c : Cls) : Frame [.mem] [] s (s.forceOutputs c) := by
  refine Frame.foldlAll _ (fun s f => ?_) _ s
  split
  · exact Frame.ite (frame_committed s _) (Frame.refl s)
  · exact Frame.refl s
theorem frame_nsYield (s : State) : Frame [.brm] [] s s.nsYield := Frame.brm
theorem frame_overflowEvent (s : State) : Frame [.regs, .scan, .recd] [.fld F.scanStatus_evqFull, .reg R.scanEvqDepth, .reg
    R.scanEvqOvf] s s.overflowEvent :=
  Frame.ite (Frame.refl _) (Frame.after (frame_event ..).sub <| Frame.scan)
theorem frame_outputUe (s : State) (c : Cls) (w : Nat) : Frame [.regs, .mem, .pair, .recd] [.blk 0x10] s (s.outputUe c w) := by
  unfold State.outputUe
  have hc : coverAll [.blk 0x10] ⟨R.memRgrUe (regNum (w * 8)), 0, 32⟩ = true := cover_span 0x10000 0x11000 (by
    have := regNum_le (w * 8)
    dsimp only [R.memRgrUe]
    omega)
  exact Frame.trans .mem (.trans .markDirty (.trans (.bump hc) (.trans .wr64 (.trans .wr (.trans .fset .raise)))))
theorem frame_commitOutputs (s : State) (c : Cls) : Frame [.regs, .mem, .pair, .recd] [.blk 0x10] s (s.commitOutputs c) :=
  (Frame.foldlAll _ (fun s w => frame_outputUe s c w) _ s).trans (frame_committed ..).sub
theorem frame_commitMailbox (s : State) (c : Cls) : Frame [.rfx] [] s (s.commitMailbox c) := Frame.rfx
theorem frame_captureSyms (s : State) (c : Cls) : Frame [.out, .regs, .cat, .recd, .host] (.blk 0xf :: tripEndPlaces) s (s.captureSyms c) := by
  unfold State.captureSyms
  refine Frame.foldlAll _ (fun _ _ => ?_) _ _
  split
  · exact Frame.ite (Frame.ite (Frame.after (frame_modCmd ..).sub <| (frame_mcAccess ..).sub) (Frame.after (frame_cmdDone
    ..).sub <|
      (frame_mcAccess ..).sub)) (Frame.refl _)
  · exact Frame.refl _
abbrev commitClsParts : List Part := [.out, .regs, .mem, .cat, .pair, .scan, .recd, .rfx, .host, .dray]
abbrev commitClsPlaces : List Rect := .blk 0xd :: .blk 0xf :: .blk 0x10 :: tripEndPlaces
theorem frame_commitCls (s : State) (k : Nat) : Frame commitClsParts commitClsPlaces s (s.commitCls k) :=
  Frame.after (frame_modCls ..).sub <| Frame.after (frame_captureSyms ..).sub <| Frame.after (frame_histCommit ..).sub <|
    Frame.after (frame_peerPublish ..).sub <| Frame.after (frame_commitMailbox ..).sub <|
    Frame.after (frame_forceOutputs ..).sub <| (frame_commitOutputs ..).sub
theorem frame_showGap (s : State) : Frame [.regs, .pair] [.reg R.pairLastGap] s s.showGap := by
  unfold State.showGap
  split
  · exact Frame.refl _
  · exact Frame.after Frame.pair <| Frame.wr
theorem frame_publish (s : State) (cs : List Cls) (cycle : W64) : Frame [.out, .regs, .pair, .scan, .can] [.reg R.pairLastGap,
    .blk 0xa] s (s.publish cs cycle) :=
  Frame.ite (Frame.refl _) (Frame.after (Frame.foldlAll _ (fun _ _ => (frame_canPublish ..).sub) _ _) <|
    Frame.after Frame.emit <| Frame.after Frame.scan <| (frame_showGap ..).sub)
theorem frame_idleMark (s : State) : Frame [.regs, .obs] [.span 0x14400 0x14800] s s.idleMark := Frame.after Frame.obs <|
    (frame_obsCountBy ..).sub
theorem frame_cycleMark (s : State) : Frame [.regs, .brm, .obs, .wf] [.reg R.wfBrmTime, .span 0x14400 0x14800] s s.cycleMark :=
  Frame.after (Frame.patched rfl rfl rfl) <| Frame.after Frame.wr <| Frame.after (frame_idleMark ..).sub <|
    (frame_nsYield ..).sub
theorem frame_coldInit (s : State) : Frame [.mem, .pair] [] s s.coldInit :=
  Frame.foldlAll _ (fun _ _ => Frame.after Frame.markDirty <| Frame.wrMem) _ _
theorem frame_takePeriods (s : State) : Frame [.act] [] s s.takePeriods := Frame.ite (Frame.refl s) (frame_takeRegs s _)
theorem frame_dropEvents (s : State) : Frame [.regs, .scan] [.fld F.scanStatus_evqFull, .reg R.scanEvqDepth] s s.dropEvents :=
  Frame.after Frame.wr <| Frame.after Frame.fset <| Frame.scan

end Sys2Proof.Machine
end

section
/-! The beginning of an F-cycle (R41, R43, R61): what its boundary leaves and what its freeze brings. -/

namespace Sys2Proof.Machine

variable {s t u : State} {n : W64} {k : Nat}

/-! The hand-over through a boundary. -/

/-- No hand-over of `t` is other than that of `s`. -/
def HandoverStands (s t : State) : Prop := t.pair.handover = s.pair.handover

namespace HandoverStands

theorem trans (h1 : HandoverStands s t) (h2 : HandoverStands t u) : HandoverStands s u := Eq.trans h2 h1

theorem of_frame {ps : List Part} {W : List Rect} (h : Frame ps W s t)
    (hp : autoParam (decide (Part.pair ∈ ps) = false) List.TFAE.out._auto_1) : HandoverStands s t :=
  congrArg Pair.handover (h.part .pair (of_decide_eq_false hp))

theorem foldl {α : Type} {f : State → α → State} {l : List α} (hf : ∀ s, ∀ a ∈ l, HandoverStands s (f s a)) (s : State) :
    HandoverStands s (l.foldl f s) := by
  induction l generalizing s with
  | nil => rfl
  | cons a l ih => exact (hf s a List.mem_cons_self).trans (ih (fun s b hb => hf s b (List.mem_cons_of_mem _ hb)) _)

theorem ite {c : Prop} [Decidable c] (ht : HandoverStands s t) (hu : HandoverStands s u) : HandoverStands s (if c then t else u) := by
  split <;> assumption

end HandoverStands

theorem handoverStands_takeTiming (s : State) : HandoverStands s s.takeTiming := by
  have h1 : HandoverStands s (if s.applyPend blkCan ∨ s.timingPend = [] then s else s.agreementUsed blkCan) := .ite rfl rfl
  exact h1

theorem handoverStands_tellPlans (s : State) : HandoverStands s s.tellPlans := by
  refine .ite rfl ?_
  unfold State.send
  exact .ite rfl rfl

theorem handoverStands_planActivate (s : State) {b : Nat} (hb : b < 32) (h12 : b ≠ 12) (h14 : b ≠ 14) :
    HandoverStands s (s.planActivate b) := by
  have h1 : HandoverStands s (if b = blkCan then s.takeTiming else s) := .ite (handoverStands_takeTiming s) rfl
  refine .ite rfl ?_
  refine .ite h1 (h1.trans ?_)
  generalize (if b = blkCan then s.takeTiming else s) = u
  have h2 : HandoverStands u (u.agreementUsed b) := rfl
  refine .ite (h2.trans (.of_frame (frame_dropGroup _ hb))) (h2.trans ?_)
  generalize u.agreementUsed b = v
  have h3 : HandoverStands v ((((v.takeGroup b).pendClear b).genUp b).planHook b) :=
    .of_frame (Frame.after (frame_planHook _ h12 h14).sub <| Frame.after (frame_genUp ..).sub <| Frame.after (frame_pendClear (h := hb) ..).sub
      (frame_takeGroup ..).sub : Frame [.regs, .act, .conf, .island, .acq, .ring, .can] planPlaces _ _)
  exact h3.trans (handoverStands_tellPlans _)

theorem handoverStands_planBoundary (s : State) : HandoverStands s s.planBoundary :=
  (HandoverStands.foldl (fun u b hb => .ite (handoverStands_planActivate u (by revert b; decide) (by revert b; decide) (by revert b; decide)) rfl) s).trans
    (.ite (handoverStands_takeTiming _) rfl)

theorem handoverStands_vwRun (m : Nat) (l : List ValueWrite) (s : State) : HandoverStands s (State.vwRun m l s).1 := by
  induction l generalizing m s with
  | nil =>
    unfold State.vwRun
    rfl
  | cons w r ih =>
    have hr (s : State) (id : W64) : HandoverStands s (s.vwRefuse id) := .of_frame (frame_vwRefuse ..)
    unfold State.vwRun
    split
    next => exact (hr ..).trans (ih ..)
    next y _ =>
      dsimp only
      have hg : HandoverStands s (s.mcAccess .write (s.symAddr s.bank y + w.off) w.value.length).1 := .of_frame (frame_mcAccess ..)
      generalize s.mcAccess .write (s.symAddr s.bank y + w.off) w.value.length = g at hg
      split
      · exact (hr ..).trans (ih ..)
      · split
        · exact ih ..
        · split
          · exact (hg.trans (hr ..)).trans (ih ..)
          · exact hg.trans (HandoverStands.trans (t := ((g.1.wrMem (s.symAddr s.bank y + w.off) w.value).markDirty
              (s.symAddr s.bank y + w.off) w.value.length).bump R.olcVwDone) rfl (ih ..))

theorem handoverStands_vwBoundary (s : State) : HandoverStands s s.vwBoundary := by
  refine .ite (HandoverStands.trans (t := { (State.vwRun 64 s.olc.vwq { s with olc := { s.olc with vwq := [] } }).1 with
    olc := { (State.vwRun 64 s.olc.vwq { s with olc := { s.olc with vwq := [] } }).1.olc with
      vwq := (State.vwRun 64 s.olc.vwq { s with olc := { s.olc with vwq := [] } }).2 } }) ?_ (.of_frame (frame_vwShow _))) rfl
  exact handoverStands_vwRun 64 s.olc.vwq { s with olc := { s.olc with vwq := [] } }

/-- The work of a boundary leaves the hand-over as it was. -/
theorem handoverStands_boundaryWork (h : s.Quiet) : HandoverStands s (s.boundaryWork n) := by
  rw [boundaryWork_quiet h]
  refine .trans (.trans ?_ (handoverStands_vwBoundary _)) (.of_frame (frame_obsBoundary _))
  exact (HandoverStands.of_frame (Frame.wr64 : Frame [.regs] [.reg R.scanCycleLo, .reg (R.scanCycleLo + 4)] s (s.wr64 R.scanCycleLo n))).trans
    ((handoverStands_planBoundary _).trans (.of_frame (Frame.after (frame_shortfallCheck ..).sub <| Frame.after (frame_reenterHeld ..).sub
      (frame_admitPending ..).sub : Frame [.regs, .clk, .brm, .recd, .obs] [.blk 0x2, .blk 0x14] _ _)))

/-! The number of the cycle. -/

theorem cycle_boundaryWork (hw : s.regsWf = true) (h : s.Quiet) : (s.boundaryWork n).rd64 R.scanCycleLo = n := by
  have hw1 : (s.wr64 R.scanCycleLo n).regsWf = true := regsWf_wr64 hw
  have hf : Frame boundaryParts (planPlaces ++ [.blk 0x2, .blk 0x4, .blk 0xf, .blk 0x14]) (s.wr64 R.scanCycleLo n) (s.boundaryWork n) := by
    rw [boundaryWork_quiet h]
    exact Frame.after (frame_obsBoundary ..).sub <| Frame.after (Frame.ite (frame_vwApply ..).sub (Frame.refl _)) <|
      Frame.after (frame_shortfallCheck ..).sub <| Frame.after (frame_reenterHeld ..).sub <| Frame.after (frame_admitPending ..).sub <|
      (frame_planBoundary ..).sub
  rw [hf.rd64 hw1, rd64_wr64 hw]

/-! A class frozen. -/

/-- A class at the freeze of its period `c`. -/
def ClassRun.frozenAt (r : ClassRun) (c now : W64) : ClassRun := { r with
  cycle := c, running := true, frozen := true, released := false, complete := false, late := false
  lateFlag := false, firstScan := false, due := false, freezeTime := now }

theorem scan_freezeCls : (s.freezeCls k n).scan = { s.scan with
    cls := vset s.scan.cls k ((s.clsRun k).frozenAt (if k = 0 then n else (s.clsRun k).cycle + 1) s.scanTime) } := by
  unfold State.freezeCls
  extract_lets c num cls items s1
  have h1 : (s1.canTaken cls).scan = s.scan := (Frame.after (frame_canTaken ..).sub <| Frame.after (frame_forceInputs ..).sub <|
    Frame.foldlAll _ (fun _ _ => (frame_putFrozen ..).sub) _ _ : Frame [.mem, .pair, .can] [] s (s1.canTaken cls)).part .scan (by decide)
  rw [State.modCls, vmod, h1]
  rfl

theorem scan_freezeDue {b : Bool} : ∃ v, (s.freezeDue (k + 1) b n).scan = { s.scan with cls := v } ∧ vget v 0 = s.clsRun 0 := by
  unfold State.freezeDue
  split
  · exact ⟨s.scan.cls, rfl, rfl⟩
  · split
    · exact ⟨_, rfl, vget_vset_ne (Nat.succ_ne_zero k).symm⟩
    · exact ⟨_, scan_freezeCls, vget_vset_ne (Nat.succ_ne_zero k).symm⟩

/-- The freeze of an F-cycle (R41, R43). -/
theorem scan_freezeStep {a b : Bool} : ∃ v now, (s.freezeStep n a b).scan =
    { s.scan with cls := v, step := .freeze, evSnap := s.scan.evq.length } ∧ vget v 0 = (s.clsRun 0).frozenAt n now := by
  unfold State.freezeStep
  extract_lets s1 s2
  have h0 : s1.scan = s.scan := (Frame.ite (frame_tb2Start ..) (Frame.refl _) : Frame [.regs, .time] [.fld F.timeStatus_tb2Run] s s1).part .scan
    (by decide)
  obtain ⟨v1, h1, hv1⟩ := scan_freezeDue (s := s1.freezeCls 0 n) (k := 0) (b := a) (n := n)
  obtain ⟨v2, h2, hv2⟩ := scan_freezeDue (s := (s1.freezeCls 0 n).freezeDue 1 a n) (k := 1) (b := b) (n := n)
  have hc := scan_freezeCls (s := s1) (k := 0) (n := n)
  refine ⟨v2, s1.scanTime, ?_, ?_⟩
  · have hs : s2.scan = { s.scan with cls := v2 } := by
      rw [show s2.scan = _ from h2, h1, hc, h0]
    show ({ s2.scan with step := .freeze, evSnap := s2.scan.evq.length } : Scan) = _
    rw [hs]
  · rw [hv2, State.clsRun, h1]
    refine hv1.trans ?_
    rw [State.clsRun, hc, State.clsRun, h0]
    exact vget_vset_self (by decide)

/-! The cycle begins. -/

/-- What the beginning of cycle `n` leaves of the scan. -/
structure Begun (s t : State) (n : W64) : Prop where
  scan : ∃ v, t.scan = { s.scan with cls := v, step := .freeze, evSnap := s.scan.evq.length }
  cycle : t.rd64 R.scanCycleLo = n
  cls : ∃ now, t.clsRun 0 = (s.clsRun 0).frozenAt n now
  mod : t.mod = s.mod

/-- The freeze that follows the work of a boundary. -/
theorem begun_freezeStep (hw : s.regsWf = true) (h : s.Quiet) {a b : Bool} : Begun s ((s.boundaryWork n).freezeStep n a b) n := by
  obtain ⟨v, now, hs, hv⟩ := scan_freezeStep (s := s.boundaryWork n) (n := n) (a := a) (b := b)
  have hf1 := frame_boundaryWork h n
  have hw1 := hf1.canon hw
  have hc1 := cycle_boundaryWork (n := n) hw h
  have hsc := hf1.part .scan (by decide)
  have hm := hf1.mod hw
  generalize s.boundaryWork n = x at *
  have hf2 := frame_freezeStep x n a b
  have hx : x.scan = s.scan := hsc
  refine ⟨⟨v, by rw [hs, hx]⟩, by rw [hf2.rd64 hw1, hc1], ⟨now, ?_⟩, by rw [hf2.mod hw1, hm]⟩
  rw [State.clsRun, hs, State.clsRun, ← hx]
  exact hv

theorem scanRuns_boundaryWork (hw : s.regsWf = true) (h : s.Quiet) : (s.boundaryWork n).scanRuns = s.scanRuns := by
  have hf := frame_boundaryWork h n
  rw [State.scanRuns, State.scanRuns, hf.part .scan (by decide), hf.mod hw]

theorem beginCycle_begins (hw : s.regsWf = true) (h : s.Quiet) (hh : s.pair.handover = none) (hr : s.scanRuns = true) :
    Begun s (s.beginCycle n) n := by
  have h1 : (s.boundaryWork n).handoverStep = (s.boundaryWork n, false) := by
    rw [State.handoverStep, handoverStands_boundaryWork h, hh]
  have h2 : s.beginCycle n = (s.boundaryWork n).freezeStep n ((s.boundaryWork n).nBoundary n) ((s.boundaryWork n).sBoundary n) := by
    unfold State.beginCycle
    extract_lets u x
    have hu : u.scanRuns = true := (scanRuns_boundaryWork hw h).trans hr
    have hx : x = (u, false) := h1
    rw [hx, hu]
    simp only [Bool.not_true, Bool.or_self, Bool.false_eq_true, if_false, u]
  rw [h2]
  exact begun_freezeStep hw h

end Sys2Proof.Machine
end

section
/-! F boundaries, the error phase and error events (R41 to R44, R51 to R54, R61, R67). -/

namespace Sys2Proof.Machine

variable {s t u : State} {n : W64} {k : Nat}

/-! Work dealt to the drupelets. -/

theorem mem_insNat {x y : Nat} {l : List Nat} : x ∈ insNat y l ↔ x = y ∨ x ∈ l := by
  induction l with
  | nil => simp [insNat]
  | cons z r ih =>
    unfold insNat
    split
    · exact List.mem_cons
    · rw [List.mem_cons, ih, List.mem_cons]
      exact or_left_comm

theorem mem_sortNat {x : Nat} {l : List Nat} : x ∈ sortNat l ↔ x ∈ l := by
  induction l with
  | nil => rfl
  | cons y r ih => rw [sortNat, mem_insNat, ih, List.mem_cons]

/-- Of the drupelets' state only the drupelets and the overflow queue differ. -/
def OnlyQueues (s t : State) : Prop := t.brm = { s.brm with be := t.brm.be, overflow := t.brm.overflow }

theorem OnlyQueues.trans (h1 : OnlyQueues s t) (h2 : OnlyQueues t u) : OnlyQueues s u := by
  unfold OnlyQueues at *
  rw [h1] at h2
  exact h2

theorem OnlyQueues.of_brm (h : t.brm = s.brm) : OnlyQueues s t := by
  unfold OnlyQueues
  rw [h]

theorem onlyQueues_push (be : Fin 32) (c : Cls) (w : Work) : OnlyQueues s (s.push be c w) := by
  unfold State.push
  split
  next i _ => exact (OnlyQueues.of_brm ((frame_ungate s i).part .brm (by decide))).trans rfl
  next => rfl

theorem onlyQueues_deal (c : Cls) (ws : List Work) : OnlyQueues s (s.deal c ws) := by
  have h (l : List (Work × Nat)) (a : List (Fin 32)) (s : State) :
      OnlyQueues s (l.foldl (fun s (w, k) => s.push ((a[k % a.length]?).getD 0) c w) s) := by
    induction l generalizing s with
    | nil => rfl
    | cons e l ih => exact (onlyQueues_push ..).trans (ih _)
  unfold State.deal
  dsimp only
  split
  · rfl
  · exact h _ _ s

/-! A period released (R44, R54). -/

theorem clsRun_modCls_self {f : ClassRun → ClassRun} (h : k < 3) : (s.modCls k f).clsRun k = f (s.clsRun k) := vget_vset_self h

theorem clsRun_modCls_ne {f : ClassRun → ClassRun} {j : Nat} (h : j ≠ k) : (s.modCls k f).clsRun j = s.clsRun j := vget_vset_ne h

theorem clsRun_of_scan (h : t.scan = s.scan) : t.clsRun k = s.clsRun k := congrArg (fun x : Scan => vget x.cls k) h

theorem vset_clsRun (h : k < 3) : vset s.scan.cls k (s.clsRun k) = s.scan.cls := by
  apply Vector.ext
  intro i hi
  rw [vset, Vector.getElem_setIfInBounds hi]
  split
  next he =>
    subst he
    rw [State.clsRun, vget, Vector.getElem?_eq_getElem h]
    rfl
  next => rfl

/-- The scan where a period completes: only its class is changed, in its end and its commit. -/
theorem scan_clsComplete (hk : k < 3) : ∃ c d, (s.clsComplete k).scan = { s.scan with cls := vset s.scan.cls k { s.clsRun k with complete := c, doneIn := d } } := by
  unfold State.clsComplete
  extract_lets c s1
  split
  · have h1 : s1.scan = s.scan := by
      dsimp only [s1]
      split <;> rfl
    rw [State.modCls, vmod, h1]
    exact ⟨_, _, rfl⟩
  · refine ⟨(s.clsRun k).complete, (s.clsRun k).doneIn, ?_⟩
    show s.scan = { s.scan with cls := vset s.scan.cls k (s.clsRun k) }
    rw [vset_clsRun hk]

/-- What the release of a period brings. -/
structure Released (s t : State) (k : Nat) : Prop where
  scan : ∃ v, t.scan = { s.scan with cls := v }
  released : (t.clsRun k).released = true
  frozen : (t.clsRun k).frozen = false
  others : ∀ j, j ≠ k → t.clsRun j = s.clsRun j
  opened : ∀ d ∈ s.chains s.bank, d.cls = Cls.ofCode (k + 1) → d.chain ∈ t.brm.openChains
  etasks : t.brm.etasks = s.brm.etasks
  mem : t.mem = s.mem

theorem releasePeriod_releases (hk : k < 3) : Released s (s.releasePeriod k) k := by
  have hmem := (frame_releasePeriod s k hk).part .mem (by decide)
  obtain ⟨t, ht⟩ : ∃ t, t = s.releasePeriod k := ⟨_, rfl⟩
  rw [← ht] at hmem ⊢
  unfold State.releasePeriod at ht
  extract_lets cls ds ix _ s1 s2 roots s3 at ht
  have h2 : s2.scan = { s.scan with cls := vset s.scan.cls k { s.clsRun k with released := true, frozen := false } } := rfl
  have h3 : s3.scan = s2.scan := (frame_deal s2 cls (roots.map fun i => { chain := i })).part .scan (by decide)
  have hb3 : OnlyQueues s1 s3 := onlyQueues_deal (s := s2) cls (roots.map fun i => { chain := i })
  have ho : s3.brm.openChains = s.brm.openChains ++ ix := congrArg Brm.openChains hb3
  have he : s3.brm.etasks = s1.brm.etasks := (congrArg Brm.etasks hb3 :)
  have h4 : ∃ c d, t.scan = { s3.scan with cls := vset s3.scan.cls k { s3.clsRun k with complete := c, doneIn := d } } := by
    rw [ht]
    split
    · exact scan_clsComplete hk
    · refine ⟨(s3.clsRun k).complete, (s3.clsRun k).doneIn, ?_⟩
      show s3.scan = { s3.scan with cls := vset s3.scan.cls k (s3.clsRun k) }
      rw [vset_clsRun hk]
  have hb4 : t.brm = s3.brm := by
    rw [ht]
    exact (Frame.ite (frame_clsComplete s3 k hk) (.refl _)).part .brm (by decide)
  obtain ⟨c, d, h4⟩ := h4
  have hs : s3.clsRun k = { s.clsRun k with released := true, frozen := false } := by
    rw [clsRun_of_scan h3]
    exact vget_vset_self hk
  have hk4 : t.clsRun k = { s3.clsRun k with complete := c, doneIn := d } := by
    rw [State.clsRun, h4]
    exact vget_vset_self hk
  refine ⟨⟨_, by rw [h4, h3, h2]⟩, by rw [hk4, hs], by rw [hk4, hs], fun j hj => ?_, fun d hd hc => ?_, by rw [hb4, he], hmem⟩
  · rw [State.clsRun, h4]
    refine (vget_vset_ne hj).trans ?_
    rw [h3, h2]
    exact vget_vset_ne hj
  · rw [hb4, ho]
    refine List.mem_append_right _ (mem_sortNat.mpr (List.mem_map_of_mem (List.mem_filter.mpr ⟨hd, ?_⟩)))
    exact beq_iff_eq.mpr hc

/-- The error phase ends with F chains released (R54). -/
theorem releaseF_releases (h : s.scan.step = .errors) : s.releaseF.scan.step = .execute ∧ (s.releaseF.clsRun 0).released = true ∧
    s.releaseF.brm.etasks = s.brm.etasks ∧ s.releaseF.scan.taken = s.scan.taken ∧ s.releaseF.mem = s.mem := by
  obtain ⟨⟨v, hs⟩, hr, -, -, -, he, hm⟩ := releasePeriod_releases (s := s) (k := 0) (by decide)
  rw [State.releaseF, if_pos h]
  generalize s.releasePeriod 0 = t at *
  exact ⟨rfl, hr, he, by rw [hs], hm⟩

/-! The error phase with nothing waiting (R54). -/

/-- Nothing of the event queue taken, and no error task. -/
def State.noneTaken (s : State) : State := { s with
  scan := { s.scan with evq := [], evSnap := 0, taken := [], step := .errors }
  brm := { s.brm with etasks := [] } }

/-- The counts of an error phase without events. -/
def State.noneShown (s : State) : State :=
  ((((s.wr R.scanEvqDepth 0).fsetb F.scanStatus_evqFull false).bumpBy R.scanEDefer 0).fsetb F.scanStatus_eDefer false)

/-- The frozen image with no error descriptor, and nothing taken. -/
def State.noErrors (s : State) : State := (s.putFrozen .f 0x7F024 (leBytes 4 0)).noneTaken.noneShown

theorem frame_noneShown : Frame [.regs] [.reg R.scanEvqDepth, .reg R.scanStatus, .reg R.scanEDefer] s s.noneShown :=
  .trans (.trans (.trans .wr .fsetb) .bumpBy) .fsetb

theorem noErrors_shows : s.noErrors.scan.step = .errors ∧ s.noErrors.scan.taken = [] ∧ s.noErrors.scan.evqLost = s.scan.evqLost ∧
    s.noErrors.brm.etasks = [] := by
  have hp := (frame_putFrozen s .f 0x7F024 (leBytes 4 0)).part .scan (by decide)
  rw [State.noErrors]
  generalize s.putFrozen .f 0x7F024 (leBytes 4 0) = u at *
  have hu : u.scan = s.scan := hp
  rw [frame_noneShown.part .scan (by decide), frame_noneShown.part .brm (by decide), ← hu]
  exact ⟨rfl, rfl, rfl, rfl⟩

theorem errorPhase_empty (hq : s.scan.evq = []) (hl : s.scan.evqLost = 0) : s.errorPhase = s.noErrors.releaseF := by
  have he : s.errorPhase = (if s.noErrors.overflowEvent.startETasks.brm.etasks.isEmpty then s.noErrors.overflowEvent.startETasks.releaseF
      else s.noErrors.overflowEvent.startETasks) := by
    unfold State.errorPhase
    simp only [hq, List.take_nil, List.drop_nil, List.filter_nil, List.foldl_nil, State.place, List.map_nil, List.zipIdx_nil]
    rfl
  obtain ⟨-, -, h1, h2⟩ := noErrors_shows (s := s)
  rw [he]
  generalize s.noErrors = u at *
  have ho : u.overflowEvent = u := if_pos (.inl (h1.trans hl))
  have hs : u.startETasks = u := by
    unfold State.startETasks
    rw [h2]
    rfl
  rw [ho, hs, h2]
  rfl

/-! An event raised (R51, R52). -/

section
variable {code : Nat} {src : W32} {ps : List W64}

theorem queueEvent_joins (h : s.scan.evq.any (fun e => e.code == code && e.source == src) = true) :
    s.queueEvent code src ps = { s with scan := { s.scan with evq := s.scan.evq.map (fun e =>
      if e.code == code && e.source == src then { e with count := e.count + 1, last := s.scanTime, params := ps } else e) } } := by
  unfold State.queueEvent
  dsimp only
  rw [if_pos h]
  simp only [Bool.and_eq_true, beq_iff_eq]

/-- The entry of an event that no waiting entry takes. -/
def State.entry (s : State) (code : Nat) (src : W32) (ps : List W64) : ErrEntry :=
  { code := code, source := src, count := 1, first := s.scanTime, last := s.scanTime, params := ps }

theorem queueEvent_queues (hw : s.regsWf = true) (h : s.scan.evq.any (fun e => e.code == code && e.source == src) = false) (hl : s.scan.evq.length < 256) :
    let t := s.queueEvent code src ps
    t.scan.evq = s.scan.evq ++ [s.entry code src ps] ∧ t.rd R.scanEvqDepth = BitVec.ofNat 32 (s.scan.evq.length + 1) ∧
      keepsRegs [R.scanEvqDepth, R.scanStatus] s t ∧ t = { s with regs := t.regs, scan := t.scan } := by
  have he : s.queueEvent code src ps = ((({ s with scan := { s.scan with evq := s.scan.evq ++ [s.entry code src ps] } } : State).wr R.scanEvqDepth
      (BitVec.ofNat 32 (s.scan.evq ++ [s.entry code src ps]).length)).fsetb F.scanStatus_evqFull
      ((s.scan.evq ++ [s.entry code src ps]).length == 256)) := by
    unfold State.queueEvent
    dsimp only
    rw [if_neg (by rw [h]; decide), if_pos hl]
    rfl
  have hl1 : (s.scan.evq ++ [s.entry code src ps]).length = s.scan.evq.length + 1 := by rw [List.length_append]; rfl
  have hf : Frame [.regs, .scan] [.reg R.scanEvqDepth, .reg R.scanStatus] s (s.queueEvent code src ps) := by
    rw [he]
    exact .trans (.trans .scan .wr) .fsetb
  refine ⟨?_, ?_, hf.keepsRegs hw, hf.eq_patch⟩
  · rw [he]
    rfl
  · rw [he, rd_fsetb_ne (by decide), rd_wr_self (by exact hw), hl1]

theorem queueEvent_full (hw : s.regsWf = true) (h : s.scan.evq.any (fun e => e.code == code && e.source == src) = false) (hl : 256 ≤ s.scan.evq.length) :
    let t := s.queueEvent code src ps
    t.scan = { s.scan with evqLost := s.scan.evqLost + 1 } ∧ (t.rd R.scanEvqOvf).toNat = satAdd 32 (s.rd R.scanEvqOvf).toNat 1 ∧
      keepsRegs [R.scanEvqOvf] s t ∧ t = { s with regs := t.regs, scan := t.scan } := by
  have he : s.queueEvent code src ps = ({ s with scan := { s.scan with evqLost := s.scan.evqLost + 1 } } : State).bump R.scanEvqOvf := by
    unfold State.queueEvent
    dsimp only
    rw [if_neg (by rw [h]; decide), if_neg (by omega)]
  have hf : Frame [.regs, .scan] [.reg R.scanEvqOvf] s (s.queueEvent code src ps) := by
    rw [he]
    exact .trans .scan .bump
  refine ⟨?_, ?_, hf.keepsRegs hw, hf.eq_patch⟩
  · rw [he]
    rfl
  · rw [he]
    exact toNat_rd_bump (s := { s with scan := { s.scan with evqLost := s.scan.evqLost + 1 } }) hw

end

theorem event_queued {code b m : Nat} {ps : List W64} (hm : s.mod ≠ .stopped) (hb : s.bound code = true) :
    s.event code b m ps = s.queueEvent code (s.source b m) ps := if_pos ⟨hm, hb⟩

theorem event_recorded {code b m : Nat} {ps : List W64} (h : s.mod = .stopped ∨ s.bound code = false) :
    s.event code b m ps = s.raise unboundEvent m (BitVec.ofNat 64 code :: ps) :=
  if_neg fun hc => h.elim hc.1 fun hb => Bool.false_ne_true (hb.symm.trans hc.2)

theorem params_mkRecord {h : Hap} {m : Nat} {ps : List W64} : (s.mkRecord h m ps).params = ps := rfl

end Sys2Proof.Machine
end

section
/-! F boundaries, and the settlement of the statement of F-cycles and error tasks. -/

namespace Sys2Proof.Machine

variable {s t u : State} {n : W64} {k : Nat}

/-! The F boundary (R41, R61, R67). -/

/-- An F boundary at its own instant. -/
def State.marked (s : State) : State := ({ s with scan := { s.scan with bound := s.scanTime } } : State).cycleMark

/-- An F boundary with no takeover under way. -/
def State.fBound (s : State) : State := { s.marked with pair := { s.marked.pair with takeoverEnd := none } }

theorem frame_marked : Frame [.regs, .brm, .obs, .wf, .scan] [.reg R.wfBrmTime, .span 0x14400 0x14800] s s.marked :=
  .trans .scan (frame_cycleMark _).sub

theorem scan_marked : s.marked.scan = { s.scan with bound := s.scanTime } := (frame_cycleMark _).part .scan (by decide)

theorem retireReq_marked : s.marked.brm.retireReq = s.brm.retireReq := by
  obtain ⟨u, hu⟩ : ∃ u, u = ({ s with scan := { s.scan with bound := s.scanTime } } : State).nsYield := ⟨_, rfl⟩
  have h1 : u.brm.retireReq = s.brm.retireReq := by
    rw [hu]
    rfl
  have h2 : (u.idleMark.wr R.wfBrmTime (BitVec.ofNat 32 ((s.auditSpent + s.wf.localNs) / 1000))).brm = u.brm :=
    (Frame.after Frame.wr (frame_idleMark u).sub : Frame [.regs, .obs] [.reg R.wfBrmTime, .span 0x14400 0x14800] u _).part .brm (by decide)
  rw [State.marked, State.cycleMark, ← hu]
  exact (congrArg Brm.retireReq h2).trans h1

theorem frame_fBound : Frame [.regs, .brm, .obs, .wf, .scan, .pair] [.reg R.wfBrmTime, .span 0x14400 0x14800] s s.fBound :=
  .trans frame_marked.sub .pair

theorem quiet_fBound (hc : s.olc.carry = none) (hs : s.scan.service = none) (hr : s.brm.retireReq = []) : s.fBound.Quiet := by
  refine ⟨?_, retireReq_marked.trans hr, ?_⟩
  · rw [frame_fBound.part .olc (by decide)]
    exact hc
  · show s.marked.scan.service = none
    rw [scan_marked]
    exact hs

section
variable (ht : s.pair.takeover = false) (he : s.pair.takeoverEnd = none)
include ht he

theorem exec_fBoundary_runs (hr : s.scanRuns = true) : exec .fBoundary s = .next (if s.scan.step = .idle then
    s.fBound.beginCycle (s.rd64 R.scanCycleLo + 1) else s.fBound.modCls 0 (fun c => { c with due := true })) := by
  rw [exec_fBoundary, execFBoundary, ht, he, hr]
  rfl

theorem exec_fBoundary_stopped (hm : s.mod = .stopped) : exec .fBoundary s = .next ((s.marked.wr64 R.scanCycleLo (s.rd64 R.scanCycleLo + 1)).canStopped
    (s.rd64 R.scanCycleLo + 1)) := by
  have hr : s.scanRuns = false := by
    rw [State.scanRuns, hm]
    exact Bool.and_false _
  rw [exec_fBoundary, execFBoundary, ht, he, hr, hm]
  rfl

theorem fBoundary_begins (hw : s.regsWf = true) (hr : s.scanRuns = true) (hi : s.scan.step = .idle) (hh : s.pair.handover = none)
    (hc : s.olc.carry = none) (hs : s.scan.service = none) (hq : s.brm.retireReq = []) :
    ∃ t, exec .fBoundary s = .next t ∧ Begun s.fBound t (s.rd64 R.scanCycleLo + 1) := by
  refine ⟨_, by rw [exec_fBoundary_runs ht he hr, if_pos hi], ?_⟩
  have hf := frame_fBound (s := s)
  refine beginCycle_begins (hf.canon hw) (quiet_fBound hc hs hq) ?_ ?_
  · show s.marked.pair.handover = none
    rw [frame_marked.part .pair (by decide)]
    exact hh
  · rw [State.scanRuns, hf.mod hw, show s.fBound.scan = s.marked.scan from rfl, scan_marked]
    exact hr

theorem fBoundary_waits (hw : s.regsWf = true) (hr : s.scanRuns = true) (hi : s.scan.step ≠ .idle) :
    ∃ t, exec .fBoundary s = .next t ∧ t = { s with scan := t.scan, regs := t.regs, brm := t.brm, obs := t.obs, wf := t.wf } ∧
      t.scan.bound = s.scanTime ∧ t.clsRun 0 = { s.clsRun 0 with due := true } ∧ t.clsRun 1 = s.clsRun 1 ∧ t.clsRun 2 = s.clsRun 2 ∧
      t.scan.step = s.scan.step ∧ t.rd64 R.scanCycleLo = s.rd64 R.scanCycleLo := by
  have hp : s.fBound = s.marked := by
    have h1 := frame_marked.part (s := s) .pair (by decide)
    have h1 : s.marked.pair = s.pair := h1
    rw [State.fBound]
    generalize s.marked = u at *
    have h2 : ({ u.pair with takeoverEnd := none } : Pair) = u.pair := by
      rw [h1, ← he]
    rw [h2]
  refine ⟨_, by rw [exec_fBoundary_runs ht he hr, if_neg hi, hp], ?_⟩
  have hsc := scan_marked (s := s)
  have hf : Frame [.regs, .brm, .obs, .wf, .scan] [.reg R.wfBrmTime, .span 0x14400 0x14800] s
      (s.marked.modCls 0 (fun c => { c with due := true })) := .trans frame_marked (frame_modCls ..).sub
  have hcl (j : Nat) : s.marked.clsRun j = s.clsRun j := by
    rw [State.clsRun, hsc]
    rfl
  refine ⟨hf.eq_patch, ?_, ?_, ?_, ?_, ?_, hf.rd64 hw⟩
  · exact congrArg Scan.bound hsc
  · rw [clsRun_modCls_self (by decide), hcl]
  · rw [clsRun_modCls_ne (by decide), hcl]
  · rw [clsRun_modCls_ne (by decide), hcl]
  · exact (congrArg Scan.step hsc :)

theorem fBoundary_counts (hw : s.regsWf = true) (hm : s.mod = .stopped) : ∃ t, exec .fBoundary s = .next t ∧
    t.rd64 R.scanCycleLo = s.rd64 R.scanCycleLo + 1 ∧ t.scan = { s.scan with bound := s.scanTime } ∧ t.mem = s.mem := by
  refine ⟨_, exec_fBoundary_stopped ht he hm, ?_⟩
  have hf := frame_marked (s := s)
  have hw1 := hf.canon hw
  have hsc := scan_marked (s := s)
  have hmem := hf.part .mem (by decide)
  generalize s.marked = u at *
  have hf2 := frame_canStopped (u.wr64 R.scanCycleLo (s.rd64 R.scanCycleLo + 1)) (s.rd64 R.scanCycleLo + 1)
  refine ⟨?_, ?_, ?_⟩
  · rw [hf2.rd64 (regsWf_wr64 hw1), rd64_wr64 hw1]
  · rw [hf2.part .scan (by decide)]
    exact hsc
  · rw [hf2.part .mem (by decide)]
    exact hmem

end

/-! The ends of the image and of the error phase (R41, R44, R54). -/

theorem fImageComplete_empty (h : s.scan.step = .freeze) (hq : s.scan.evq = []) (hl : s.scan.evqLost = 0) : ∃ t,
    exec .fImageComplete s = .next t ∧ t.scan.step = .execute ∧ (t.clsRun 0).released = true ∧ t.brm.etasks = [] ∧ t.scan.taken = [] := by
  refine ⟨_, when_pos (by rw [h]; rfl), ?_⟩
  obtain ⟨h1, h2, -, h4⟩ := noErrors_shows (s := s)
  obtain ⟨g1, g2, g3, g4, -⟩ := releaseF_releases h1
  rw [errorPhase_empty hq hl]
  exact ⟨g1, g2, g3.trans h4, g4.trans h2⟩

theorem nsImageComplete_releases {k : Fin 2} (hr : s.scanRuns = true) (hp : (s.clsRun (k.val + 1)).running = true)
    (hf : (s.clsRun (k.val + 1)).frozen = true) (hn : (s.clsRun (k.val + 1)).released = false) :
    ∃ t, exec (.nsImageComplete k) s = .next t ∧ Released s t (k.val + 1) :=
  ⟨_, when_pos (by rw [hr, hp, hf, hn]; rfl), releasePeriod_releases (by omega)⟩

/-! The statement. -/

/-- Settles O25: the beginning of a cycle, the release of a period, and the event queue. -/
theorem fCyclesAndErrorTasks : Obligations.FCyclesAndErrorTasks := by
  unfold Obligations.FCyclesAndErrorTasks
  refine ⟨fun s hw ht he => ?_, fun s => ?_, fun code block unit ps s hw hu => ?_⟩
  · refine ⟨fun hr hi hh hc hs hq => ?_, fun hr hi => fBoundary_waits ht he hw hr hi, fun hm => fBoundary_counts ht he hw hm⟩
    obtain ⟨t, hx, ⟨⟨v, hv⟩, hcy, ⟨now, hc⟩, -⟩⟩ := fBoundary_begins ht he hw hr hi hh hc hs hq
    have hb : t.scan.bound = s.scanTime := by
      rw [hv]
      exact congrArg Scan.bound (scan_marked (s := s))
    refine ⟨t, hx, by rw [hv], hcy, hb, ?_, ?_, ?_, ?_, ?_, by rw [hv]⟩ <;> rw [hc] <;> rfl
  · refine ⟨fun h hq hl => fImageComplete_empty h hq hl, fun h => when_neg (beq_eq_false_iff_ne.mpr h), fun h => ?_,
      fun h => when_neg (beq_eq_false_iff_ne.mpr h), fun k hr hp hf hn => ?_⟩
    · obtain ⟨h1, h2, -, -, h5⟩ := releaseF_releases h
      exact ⟨_, when_pos (by rw [h]; rfl), h1, h2, h5⟩
    · obtain ⟨t, hx, ht⟩ := nsImageComplete_releases hr hp hf hn
      exact ⟨t, hx, ht.released, ht.frozen, ht.others 0 (Nat.succ_ne_zero _).symm, ht.mem, ht.opened⟩
  · have hx : exec (.errorEventRaised code block unit ps) s = .next (s.event code.toNat block.val unit.toNat ps.toList) := when_pos hu
    refine ⟨fun hm hb ha => ?_, fun hm hb ha hl => ?_, fun hm hb ha hl => ?_, fun h => ?_⟩
    · refine ⟨_, hx, ?_⟩
      rw [event_queued hm hb, queueEvent_joins ha]
      exact ⟨rfl, rfl, rfl⟩
    · refine ⟨_, hx, ?_⟩
      rw [event_queued hm hb]
      exact queueEvent_queues hw ha hl
    · refine ⟨_, hx, ?_⟩
      rw [event_queued hm hb]
      exact queueEvent_full hw ha hl
    · refine ⟨_, s.mkRecord unboundEvent unit.toNat (BitVec.ofNat 64 code.toNat :: ps.toList), hx, ?_⟩
      rw [event_recorded h]
      exact ⟨rfl, rfl, rfl⟩

end Sys2Proof.Machine
end

section
/-! Class commits (R42, R45, R47, R90), late periods and the watchdog trip (R61 to R66). -/

namespace Sys2Proof.Machine

variable {s t u : State} {k : Nat}

/-! One class commits with no word in error and no force (R45, R90). -/

/-- No word is in error, and no force holds. -/
structure State.Clean (s : State) : Prop where
  poison : s.mem.poison = []
  cpoison : s.mem.cpoison = []
  forces : s.olc.forces = []

/-- The addresses of a class's output half. -/
def State.outHalf (s : State) (c : Cls) (a : Nat) : Bool := s.outBase c ≤ a && a < s.outBase c + 0x80000

/-- The output half of a class made visible. -/
def State.committedOf (s : State) (c : Cls) : List Host.Cell := scopy (fun _ => (0 : Byte)) (s.outHalf c) s.mem.bytes s.mem.committed

/-- The output half of a class visible. -/
def State.visibly (s : State) (c : Cls) : State := { s with mem := { s.mem with committed := s.committedOf c } }

/-- The words in error of a class's output half. -/
def State.badOutputs (s : State) (c : Cls) : List Nat :=
  (s.mem.poison.map (·.1) ++ (s.mem.cpoison.map (·.1)).filter (fun w => !s.mem.poison.has w)).filter (fun w => s.outHalf c (w * 8))

/-- A part of memory made visible. -/
def State.visiblyIn (s : State) (p : Nat → Bool) : State :=
  { s with mem := { s.mem with committed := scopy (fun _ => (0 : Byte)) p s.mem.bytes s.mem.committed } }

theorem commitOutputs_clean (h : s.Clean) (c : Cls) : s.commitOutputs c = s.visibly c := by
  obtain ⟨hp, hc, -⟩ := h
  have he : s.commitOutputs c = ((s.badOutputs c).foldl (fun s w => s.outputUe c w) s).visiblyIn (s.outHalf c) := rfl
  have hb : s.badOutputs c = [] := by
    rw [State.badOutputs, hp, hc]
    rfl
  rw [he, hb]
  rfl

theorem outBase_of_conf (h : t.conf = s.conf) (c : Cls) : t.outBase c = s.outBase c := by
  unfold State.outBase State.winBase
  rw [h]

theorem outHalf_of_conf (h : t.conf = s.conf) (c : Cls) : t.outHalf c = s.outHalf c := by
  funext a
  rw [State.outHalf, State.outHalf, outBase_of_conf h]

theorem mem_commitCls (h : s.Clean) : (s.commitCls k).mem = { s.mem with committed := s.committedOf (Cls.ofCode (k + 1)) } := by
  unfold State.commitCls
  extract_lets c r p s1 s2
  have hf (u : State) (hu : u.olc.forces = []) : u.forceOutputs c = u := by
    rw [State.forceOutputs, hu]
    rfl
  have h1 : s1 = (s.visibly c).commitMailbox c := by
    dsimp only [s1]
    rw [commitOutputs_clean h, hf (s.visibly c) h.forces]
  have h2 : s2.mem = s1.mem := (Frame.after (frame_captureSyms ..).sub <| Frame.after (frame_histCommit ..).sub (frame_peerPublish ..).sub :
    Frame [.out, .regs, .cat, .recd, .host, .dray] (.blk 0xd :: .blk 0xf :: tripEndPlaces) s1 s2).part .mem (by decide)
  have h3 : ((s.visibly c).commitMailbox c).mem = (s.visibly c).mem := (frame_commitMailbox ..).part .mem (by decide)
  exact h2.trans (h1 ▸ h3)

theorem scan_commitCls : ∃ f, (∀ r, (f r : ClassRun).due = r.due) ∧ (s.commitCls k).scan = { s.scan with cls := vmod s.scan.cls k f } := by
  unfold State.commitCls
  extract_lets c r p s1 s2
  have h1 : s2.scan = s.scan := (Frame.after (frame_captureSyms ..).sub <| Frame.after (frame_histCommit ..).sub <|
    Frame.after (frame_peerPublish ..).sub <| Frame.after (frame_commitMailbox ..).sub <|
    Frame.after (frame_forceOutputs ..).sub (frame_commitOutputs ..).sub : Frame [.out, .regs, .mem, .cat, .pair, .recd, .rfx, .host, .dray]
    commitClsPlaces s s2).part .scan (by decide)
  refine ⟨_, fun _ => ?_, by rw [State.modCls, h1]⟩
  rfl

/-! The commits of one F-cycle. -/

/-- Some classes have committed, those of `l` among them. -/
structure Committed (s t : State) (l : List Nat) : Prop where
  frame : Frame commitClsParts commitClsPlaces s t
  clean : t.Clean
  bytes : t.mem.bytes = s.mem.bytes
  wf : swf (fun _ => (0 : Byte)) t.mem.committed = true
  visible : ∀ k ∈ l, ∀ a, s.outHalf (Cls.ofCode (k + 1)) a = true → sget (fun _ => (0 : Byte)) t.mem.committed a = s.mem.byte a
  step : t.scan.step = s.scan.step
  due : (t.clsRun 0).due = (s.clsRun 0).due

theorem committed_commitCls {l : List Nat} (hb : swf (fun _ => (0 : Byte)) s.mem.bytes = true) (h : Committed s t l) :
    Committed s (t.commitCls k) (k :: l) := by
  obtain ⟨hf, hcl, hby, hwf, hv, hst, hd⟩ := h
  have hm := mem_commitCls (k := k) hcl
  have hf2 := hf.trans (frame_commitCls t k)
  obtain ⟨f, hfd, hsc⟩ := scan_commitCls (s := t) (k := k)
  have ho : t.olc = s.olc := hf.part .olc (by decide)
  have hc2 : t.conf = s.conf := hf.part .conf (by decide)
  have hg (a : Nat) : sget (fun _ => (0 : Byte)) (t.committedOf (Cls.ofCode (k + 1))) a =
      if s.outHalf (Cls.ofCode (k + 1)) a then s.mem.byte a else sget (fun _ => 0) t.mem.committed a := by
    rw [State.committedOf, sget_scopy (by rw [hby]; exact hb) hwf, outHalf_of_conf hc2, hby]
    rfl
  refine ⟨hf2, ⟨?_, ?_, ?_⟩, ?_, ?_, fun j hj a ha => ?_, ?_, ?_⟩
  · rw [hm]
    exact hcl.poison
  · rw [hm]
    exact hcl.cpoison
  · rw [hf2.part .olc (by decide)]
    exact ho ▸ hcl.forces
  · rw [hm]
    exact hby
  · rw [hm]
    exact swf_scopy _ _ _ _ hwf
  · rw [hm]
    refine (hg a).trans ?_
    obtain rfl | hj := List.mem_cons.mp hj
    · rw [if_pos ha]
    · rw [hv j hj a ha, ite_self]
  · rw [hsc]
    exact hst
  · rw [← hd, State.clsRun, hsc]
    by_cases hk : 0 = k
    · subst hk
      exact (congrArg ClassRun.due (vget_vset_self (by decide))).trans (hfd _)
    · exact congrArg ClassRun.due (vget_vset_ne hk)

theorem committed_foldl (hb : swf (fun _ => (0 : Byte)) s.mem.bytes = true) {l m : List Nat} (h : Committed s t m) :
    ∃ m', (∀ k ∈ m, k ∈ m') ∧ Committed s (l.foldl State.commitCls t) m' := by
  induction l generalizing t m with
  | nil => exact ⟨m, fun _ h => h, h⟩
  | cons k l ih =>
    obtain ⟨m', hm, hc⟩ := ih (committed_commitCls (k := k) hb h)
    exact ⟨m', fun j hj => hm j (List.mem_cons_of_mem _ hj), hc⟩

/-! The values published (R47, R231). -/

/-- The values that the memory's F output half commands. -/
def State.halfCmd (s : State) : Out := .publish (BitVec.ofNat 32 (s.mem.rd (s.outBase .f + 0x7F000) 4))
  ((List.range 8).map (fun i => BitVec.ofNat 32 (s.mem.rd (s.outBase .f + 0x7F020 + 4 * i) 4)))

theorem scanCmd_publishes (hc : t.conf = s.conf) (h : ∀ a, s.outHalf .f a = true → sget (fun _ => (0 : Byte)) t.mem.committed a = s.mem.byte a) :
    Out.publish t.scanCmd.dig t.scanCmd.loops.toList = s.halfCmd := by
  have hb := outBase_of_conf hc .f
  have hr (o : Nat) (ho : o + 4 ≤ 0x80000) : leNat (t.mem.cbytes (s.outBase .f + o) 4) = s.mem.rd (s.outBase .f + o) 4 := by
    refine congrArg leNat (List.map_congr_left fun i hi => h _ ?_)
    have hi := List.mem_range.mp hi
    simp only [State.outHalf, Bool.and_eq_true, decide_eq_true_eq]
    omega
  have hl : t.scanCmd.loops.toList = (List.range 8).map (fun i => BitVec.ofNat 32 (s.mem.rd (s.outBase .f + 0x7F020 + 4 * i) 4)) := by
    have h1 : t.scanCmd.loops.toList = (List.range 8).map (fun i => BitVec.ofNat 32 (leNat (t.mem.cbytes (t.outBase .f + (0x7F020 + 4 * i)) 4))) := by
      show (Vector.ofFn _).toList = _
      rw [Vector.toList_ofFn]
      rfl
    rw [h1, hb]
    refine List.map_congr_left fun i hi => ?_
    have hi := List.mem_range.mp hi
    rw [hr _ (by omega), Nat.add_assoc]
  have hd : t.scanCmd.dig = BitVec.ofNat 32 (s.mem.rd (s.outBase .f + 0x7F000) 4) := by
    show BitVec.ofNat 32 (leNat (t.mem.cbytes (t.outBase .f + 0x7F000) 4)) = _
    rw [hb, hr _ (by decide)]
  rw [hl, hd]
  rfl

theorem publish_publishes {cs : List Cls} {c : W64} (h : s.token = true) :
    Out.publish s.scanCmd.dig s.scanCmd.loops.toList ∈ (s.publish cs c).out := by
  have h1 (u : State) : (cs.foldl (fun s k => s.canPublish k c) u).out = u.out :=
    (Frame.foldlAll _ (fun _ _ => frame_canPublish ..) _ _ : Frame [.regs, .can] [.blk 0xa] u _).part .out (by decide)
  rw [State.publish, h]
  rw [show (!true) = false from rfl, if_neg Bool.false_ne_true, h1]
  exact List.mem_append_right _ (List.mem_singleton.mpr rfl)

theorem scan_publish {cs : List Cls} {c : W64} : ∃ p, (s.publish cs c).scan = { s.scan with pub := p } := by
  have h1 (u : State) : (cs.foldl (fun s k => s.canPublish k c) u).scan = u.scan :=
    (Frame.foldlAll _ (fun _ _ => frame_canPublish ..) _ _ : Frame [.regs, .can] [.blk 0xa] u _).part .scan (by decide)
  have h2 : s.showGap.scan = s.scan := (frame_showGap s).part .scan (by decide)
  unfold State.publish
  split
  · exact ⟨s.scan.pub, rfl⟩
  · refine ⟨some s.scanCmd, ?_⟩
    rw [← h2]
    exact h1 _

/-! The F-cycle complete (R42). -/

/-- The F-cycle counted. -/
def State.cycleCounted (s : State) : State := ((s.execTime 0).bump (R.scanChnCount 0)).fsetb F.scanStatus_fLate (s.clsRun 0).late

/-- The F-cycle over. -/
def State.cycleOver (s : State) : State := ({ s with scan := { s.scan with step := .idle } } : State).modCls 0 (fun c => { c with
  running := false, due := false })

theorem cycleDone_eq (h : (s.clsRun 0).due = false) : s.cycleDone = s.cycleCounted.cycleOver := by
  rw [State.cycleDone]
  dsimp only
  rw [h]
  rfl

abbrev countedPlaces : List Rect := .reg (R.scanChnCount 0) :: .fld F.scanStatus_fLate :: execPlaces

theorem frame_cycleCounted : Frame [.regs] countedPlaces s s.cycleCounted :=
  .trans (.trans (frame_execTime s 0 (by decide)).sub .bump) .fsetb

theorem count_cycleCounted (hw : s.regsWf = true) :
    (s.cycleCounted.rd (R.scanChnCount 0)).toNat = satAdd 32 (s.rd (R.scanChnCount 0)).toNat 1 := by
  have hf := frame_execTime s 0 (by decide)
  have hw1 := hf.canon hw
  have hr := hf.rd hw (o := R.scanChnCount 0)
  rw [State.cycleCounted, rd_fsetb_ne (by decide)]
  generalize s.execTime 0 = u at *
  rw [toNat_rd_bump hw1, hr]

/-! `CLASS_COMMIT` in ALONE. -/

/-- The classes that commit in this F-cycle. -/
def State.commits (s : State) : List Nat := 0 :: [1, 2].filter s.commitDue

/-- The classes committed. -/
def State.committedAll (s : State) : State := s.commits.foldl State.commitCls { s with scan := { s.scan with step := .publish } }

/-- The outputs published. -/
def State.published (s : State) : State :=
  ((s.committedAll.setStale false).publish (s.commits.map (fun k => Cls.ofCode (k + 1))) (s.rd64 R.scanCycleLo)).dmaGo

/-- The plan of the pair activated, where it is agreed. -/
def State.copyMap (s : State) : State := if s.agreedNow blkPair then s.planActivate blkPair else s

theorem afterPublish_alone (hm : s.mod = .alone) (hp : s.fget F.olcStatus_pkgState ≠ 5) : s.afterPublish = s.copyMap.cycleDone := by
  have h1 : s.seals = false := by
    rw [State.seals, hm]
    rfl
  have h2 : s.goDecision = false := by
    have h3 : (s.pkgState == pkgArmed) = false := beq_eq_false_iff_ne.mpr hp
    rw [State.goDecision]
    simp only [h3, Bool.false_and]
  rw [State.afterPublish, h1, h2]
  rfl

theorem frame_copyMap : Frame planParts planPlaces s s.copyMap :=
  .ite (frame_planActivate s (by decide) (by decide) (by decide)) (.refl s)

theorem out_grows (h : Keeps s t) {o : Out} (ho : o ∈ s.out) : o ∈ t.out := by
  obtain ⟨-, -, l, hl⟩ := h
  rw [hl]
  exact List.mem_append_left _ ho

theorem keeps_copyMap : Keeps s s.copyMap := Keeps.ite (keeps_planActivate ..) (.refl s)

abbrev publishedParts : List Part := [.out, .regs, .mem, .cat, .pair, .scan, .recd, .rfx, .host, .dray, .can, .dma]

abbrev publishedPlaces : List Rect := .blk 0xa :: .reg R.pairLastGap :: .fld F.scanStatus_mbxStale :: .fld F.rfxStatus_mbxStale :: commitClsPlaces

theorem frame_published : Frame publishedParts publishedPlaces s s.published :=
  .trans (.trans (.trans (.trans (.trans .scan (.foldlAll _ (fun _ _ => (frame_commitCls ..).sub) _ _)) (frame_setStale ..).sub)
    (frame_publish ..).sub) (frame_dmaGo ..).sub) (.refl _)

theorem published_shows (hi : s.Inv) (ht : s.token = true) (hc : s.Clean) :
    s.halfCmd ∈ s.published.out ∧ s.published.mem.bytes = s.mem.bytes ∧
    (∀ a, s.outHalf .f a = true → sget (fun _ => (0 : Byte)) s.published.mem.committed a = s.mem.byte a) ∧
    (s.published.clsRun 0).due = (s.clsRun 0).due := by
  obtain ⟨hm, hw⟩ := hi
  obtain ⟨hb, hcm, -⟩ := Mem.wf_iff.mp hm
  obtain ⟨u, hu⟩ : ∃ u, u = ({ s with scan := { s.scan with step := .publish } } : State) := ⟨_, rfl⟩
  have hfu : Frame [.scan] [] s u := by
    rw [hu]
    exact .scan
  have h0 : Committed u u [] := by
    refine ⟨.refl u, ⟨?_, ?_, ?_⟩, rfl, ?_, (fun k hk => nomatch hk), rfl, rfl⟩ <;> rw [hu]
    · exact hc.poison
    · exact hc.cpoison
    · exact hc.forces
    · exact hcm
  have hbu : swf (fun _ => (0 : Byte)) u.mem.bytes = true := by
    rw [hu]
    exact hb
  have hmu : u.mem = s.mem := hfu.part .mem (by decide)
  have hcu : u.conf = s.conf := hfu.part .conf (by decide)
  have hdu : (u.clsRun 0).due = (s.clsRun 0).due := by rw [hu]; rfl
  have hall : s.committedAll = ([1, 2].filter s.commitDue).foldl State.commitCls (u.commitCls 0) := by rw [hu]; rfl
  obtain ⟨m, hin, hcom⟩ := committed_foldl (l := [1, 2].filter s.commitDue) hbu (committed_commitCls (k := 0) hbu h0)
  rw [← hall] at hcom
  rw [State.published]
  generalize s.committedAll = v at *
  obtain ⟨hfv, -, hbv, -, hvis, -, hdv⟩ := hcom
  have hcv : v.conf = s.conf := (hfv.part .conf (by decide)).trans hcu
  have hvis0 : ∀ a, s.outHalf .f a = true → sget (fun _ => (0 : Byte)) v.mem.committed a = s.mem.byte a := fun a ha => by
    rw [hvis 0 (hin 0 List.mem_cons_self) a (by rw [outHalf_of_conf hcu]; exact ha), hmu]
  have hfs := frame_setStale v false
  have hvt : (v.setStale false).token = true := by
    have hwu := hfu.canon hw
    have hwv := hfv.canon hwu
    rw [State.token, hfs.fbit hwv, hfv.fbit hwu, hfu.fbit hw]
    exact ht
  have hsm : (v.setStale false).mem = v.mem := hfs.part .mem (by decide)
  have hsc : (v.setStale false).conf = v.conf := hfs.part .conf (by decide)
  have hss : (v.setStale false).scan = v.scan := hfs.part .scan (by decide)
  generalize v.setStale false = x at *
  obtain ⟨p, hp⟩ := scan_publish (s := x) (cs := s.commits.map (fun k => Cls.ofCode (k + 1))) (c := s.rd64 R.scanCycleLo)
  have hpub := publish_publishes (cs := s.commits.map (fun k => Cls.ofCode (k + 1))) (c := s.rd64 R.scanCycleLo) hvt
  have hfp := frame_publish x (s.commits.map (fun k => Cls.ofCode (k + 1))) (s.rd64 R.scanCycleLo)
  generalize x.publish (s.commits.map (fun k => Cls.ofCode (k + 1))) (s.rd64 R.scanCycleLo) = y at *
  have hmem : y.dmaGo.mem = v.mem := by rw [(frame_dmaGo y).part .mem (by decide), hfp.part .mem (by decide), hsm]
  refine ⟨out_grows (keeps_dmaGo y) ?_, ?_, fun a ha => ?_, ?_⟩
  · rw [← scanCmd_publishes (hsc.trans hcv) (fun a ha => hsm ▸ hvis0 a ha)]
    exact hpub
  · rw [hmem, hbv, hmu]
  · rw [hmem]
    exact hvis0 a ha
  · have h1 : y.dmaGo.scan = { v.scan with pub := p } := by rw [(frame_dmaGo y).part .scan (by decide), hp, hss]
    rw [State.clsRun, h1, ← hdu, ← hdv]
    rfl

theorem exec_classCommit_alone (hr : s.scan.run = .running) (hm : s.mod = .alone) (hs : s.scan.step = .execute) (hc : (s.clsRun 0).complete = true)
    (he : s.brm.etasks = []) (hk : s.committing = false) : exec .classCommit s = .next s.published.afterPublish := by
  refine when_pos (s := s) (t := s.published.afterPublish) ?_
  rw [State.scanRuns, hr, hm, hs, hc, he, hk]
  rfl

/-- A class commit in ALONE. -/
theorem classCommit_alone (hi : s.Inv) (hr : s.scan.run = .running) (hm : s.mod = .alone) (ht : s.token = true) (hs : s.scan.step = .execute)
    (hc : (s.clsRun 0).complete = true) (hd : (s.clsRun 0).due = false) (he : s.brm.etasks = []) (hk : s.committing = false)
    (hcl : s.Clean) (hp : s.fget F.olcStatus_pkgState ≠ 5) : ∃ t, exec .classCommit s = .next t ∧
      (∀ a, s.outHalf .f a = true → sget (fun _ => (0 : Byte)) t.mem.committed a = s.mem.byte a) ∧ t.mem.bytes = s.mem.bytes ∧
      s.halfCmd ∈ t.out ∧ t.scan.step = .idle ∧ (t.rd (R.scanChnCount 0)).toNat = satAdd 32 (s.rd (R.scanChnCount 0)).toNat 1 ∧
      ∀ i, t.dru i = s.dru i := by
  have hw := hi.2
  obtain ⟨ho, hb, hv, hdu⟩ := published_shows hi ht hcl
  refine ⟨_, exec_classCommit_alone hr hm hs hc he hk, ?_⟩
  have hf1 := frame_published (s := s)
  have hw1 := hf1.canon hw
  have hm1 := hf1.mod hw
  have hp1 : s.published.fget F.olcStatus_pkgState = s.fget F.olcStatus_pkgState := hf1.fget hw
  have hr1 : s.published.rd (R.scanChnCount 0) = s.rd (R.scanChnCount 0) := hf1.rd hw
  have hi1 (i : Fin 32) : s.published.dru i = s.dru i := dru_of_frame hf1 (i := i)
  generalize s.published = u at *
  rw [afterPublish_alone (hm1.trans hm) (hp1 ▸ hp)]
  have ho2 := out_grows keeps_copyMap ho
  have hf2 := frame_copyMap (s := u)
  have hw2 := hf2.canon hw1
  have hmem2 : u.copyMap.mem = u.mem := hf2.part .mem (by decide)
  have hsc2 : u.copyMap.scan = u.scan := hf2.part .scan (by decide)
  have hr2 : u.copyMap.rd (R.scanChnCount 0) = u.rd (R.scanChnCount 0) := hf2.rd hw1
  have hi2 (i : Fin 32) : u.copyMap.dru i = u.dru i := dru_of_frame hf2 (i := i)
  generalize u.copyMap = v at *
  rw [cycleDone_eq (by rw [clsRun_of_scan hsc2, hdu, hd])]
  have hf3 := frame_cycleCounted (s := v)
  have hct := count_cycleCounted hw2
  have hmem3 : v.cycleCounted.mem = v.mem := hf3.part .mem (by decide)
  have hout3 : v.cycleCounted.out = v.out := hf3.part .out (by decide)
  have hi3 (i : Fin 32) : v.cycleCounted.dru i = v.dru i := dru_of_frame hf3 (i := i)
  generalize v.cycleCounted = x at *
  have hmx : x.cycleOver.mem = u.mem := hmem3.trans hmem2
  refine ⟨fun a ha => ?_, ?_, ?_, rfl, ?_, fun i => ?_⟩
  · rw [hmx]
    exact hv a ha
  · rw [hmx]
    exact hb
  · show _ ∈ x.out
    rw [hout3]
    exact ho2
  · show (x.rd (R.scanChnCount 0)).toNat = _
    rw [hct, hr2, hr1]
  · show x.dru i = _
    rw [hi3, hi2, hi1]

end Sys2Proof.Machine
end

section
/-! Late periods and the watchdog trip, and the settlement of the statement of commits and trips. -/

namespace Sys2Proof.Machine

variable {s t u : State} {k : Fin 3}

/-! `PERIOD_LATE` (R61). -/

/-- A late period counted and flagged. -/
def State.lateCounted (s : State) (k : Nat) : State :=
  (s.bump (R.scanChnLate k)).modCls k (fun c => { c with late := true, lateFlag := true })

/-- The error event of a late N or S period. -/
def State.lateEvent (s : State) (k : Nat) (c : W64) : State := if k = 0 then s else s.event (0x003F + k) 1 0 [c]

theorem exec_periodLate_counts (hr : s.scanRuns = true) (h0 : k = 0 → s.scan.step ≠ .idle) (hk : k ≠ 0 → s.periodOpen k.val = true)
    (hl : (s.clsRun k.val).late = false) :
    exec (.periodLate k) s = .next ((s.lateCounted k.val).lateEvent k.val (s.clsRun k.val).cycle) := by
  have he : exec (.periodLate k) s = s.when (s.scanRuns && (if k = 0 then s.scan.step != .idle else s.periodOpen k.val) && !(s.clsRun k.val).late)
      ((s.lateCounted k.val).lateEvent k.val (s.clsRun k.val).cycle) := by
    rw [exec_periodLate, execPeriodLate, State.lateEvent]
    simp only [← Fin.val_eq_zero_iff]
    rfl
  rw [he]
  refine when_pos ?_
  rw [hr, hl]
  by_cases hk0 : k = 0
  · rw [if_pos hk0, bne_iff_ne.mpr (h0 hk0)]
    rfl
  · rw [if_neg hk0, hk hk0]
    rfl

theorem frame_lateEvent {k : Nat} {c : W64} : Frame [.regs, .scan, .recd] evqPlaces s (s.lateEvent k c) := .ite (.refl s) (frame_event ..)

theorem scanStands_lateEvent {k : Nat} {c : W64} : ScanStands s (s.lateEvent k c) := by
  unfold State.lateEvent
  split
  · exact .refl s
  · exact scanStands_event ..

theorem periodLate_counts (hw : s.regsWf = true) (hr : s.scanRuns = true) (h0 : k = 0 → s.scan.step ≠ .idle)
    (hk : k ≠ 0 → s.periodOpen k.val = true) (hl : (s.clsRun k.val).late = false) : ∃ t, exec (.periodLate k) s = .next t ∧
      (t.rd (R.scanChnLate k.val)).toNat = satAdd 32 (s.rd (R.scanChnLate k.val)).toNat 1 ∧
      t.clsRun k.val = { s.clsRun k.val with late := true, lateFlag := true } ∧ t.mem = s.mem ∧ t.brm = s.brm ∧
      (k = 0 → keepsRegs [R.scanChnLate 0] s t) := by
  refine ⟨_, exec_periodLate_counts hr h0 hk hl, ?_⟩
  have hw1 : (s.lateCounted k.val).regsWf = true := regsWf_wr hw
  have hf := frame_lateEvent (s := s.lateCounted k.val) (k := k.val) (c := (s.clsRun k.val).cycle)
  have hsc := scanStands_lateEvent (s := s.lateCounted k.val) (k := k.val) (c := (s.clsRun k.val).cycle)
  have hrd : (((s.lateCounted k.val).lateEvent k.val (s.clsRun k.val).cycle).rd (R.scanChnLate k.val)) = (s.lateCounted k.val).rd (R.scanChnLate k.val) :=
    hf.rd hw1 ((by decide : ∀ k : Fin 3, apartAll evqPlaces ⟨R.scanChnLate k.val, 0, 32⟩ = true) k)
  refine ⟨?_, ?_, ?_, ?_, ?_⟩
  · rw [hrd]
    exact toNat_rd_bump hw
  · rw [State.clsRun, hsc]
    exact vget_vset_self k.isLt
  · rw [hf.part .mem (by decide)]
    rfl
  · rw [hf.part .brm (by decide)]
    rfl
  · rintro rfl
    exact (Frame.trans .bump (frame_modCls ..).sub : Frame [.regs, .scan] [.reg (R.scanChnLate 0)] s (s.lateCounted 0)).keepsRegs hw

theorem exec_periodLate_again (hl : (s.clsRun k.val).late = true) : exec (.periodLate k) s = .next s := by
  rw [exec_periodLate, execPeriodLate]
  refine when_neg ?_
  rw [hl]
  exact Bool.and_false _

/-! `WATCHDOG_TRIP` (R62, R63). -/

/-- A PRIMARY tells its partner of a trip. -/
def State.tells (t s : State) (k : Nat) : State :=
  if s.mod = .primary ∧ s.partner ≠ .off then t.send (.tripNotice (Cls.ofCode (k + 1))) else t

theorem exec_watchdogTrip_trips (hr : s.scanRuns = true) (h0 : k = 0 → s.scan.step ≠ .idle) (hk : k ≠ 0 → s.periodOpen k.val = true) :
    exec (.watchdogTrip k) s = .next ((s.scanTrip k.val false).tells s k.val) := by
  have he : exec (.watchdogTrip k) s = s.when (s.scanRuns && (if k = 0 then s.scan.step != .idle else s.periodOpen k.val))
      ((s.scanTrip k.val false).tells s k.val) := rfl
  rw [he]
  refine when_pos ?_
  rw [hr]
  by_cases hk0 : k = 0
  · rw [if_pos hk0]
    exact bne_iff_ne.mpr (h0 hk0)
  · rw [if_neg hk0, hk hk0]
    rfl

theorem loops_safeCmd : s.safeCmd.loops.toList = (List.range 8).map (fun i => BitVec.ofNat 32 (s.safeL i)) := by
  show (Vector.ofFn _).toList = _
  rw [Vector.toList_ofFn]
  rfl

theorem watchdogTrip_trips (hw : s.regsWf = true) (hr : s.scanRuns = true) (h0 : k = 0 → s.scan.step ≠ .idle)
    (hk : k ≠ 0 → s.periodOpen k.val = true) (hc : s.olc.carry = none) : ∃ t, exec (.watchdogTrip k) s = .next t ∧
      t.mod = .stopped ∧ t.scan.run = .tripped ∧
        t.scan.step = .idle ∧ t.scan.evq = [] ∧ t.rd R.scanTrip = BitVec.ofNat 32 (k.val + 4) ∧
        t.rd R.scanTripCycle = s.rd R.scanCycleLo ∧ t.fget F.scanStatus_runstate = 2 ∧ t.fget F.scanStatus_mbxStale = 1 ∧
        (∀ i, (t.dru i).win = none ∧ (t.dru i).deques = Vector.replicate 4 []) ∧ t.brm.restarts = [] ∧ t.brm.openChains = [] ∧
        t.mem = s.mem ∧
        (s.token = true → Out.publish (maskOf s.safeD) ((List.range 8).map (fun i => BitVec.ofNat 32 (s.safeL i))) ∈ t.out) ∧
        (s.mod = .primary → s.partner ≠ .off → ∃ m ∈ t.pair.msgs, m.body = .tripNotice (Cls.ofCode (k.val + 1))) := by
  refine ⟨_, exec_watchdogTrip_trips hr h0 hk, ?_⟩
  obtain ⟨h1, h2, h3, h4, h5, h6, hh, -, h8⟩ := scanTrip_trips (k := k.val) (b := false) hw
  have hm := mem_scanTrip (k := k.val) (b := false) hc
  have hw1 := (frame_scanTrip s k.val false).canon hw
  generalize s.scanTrip k.val false = u at *
  have hf : Frame [.out, .pair] [] u (u.tells s k.val) := .ite .send (.refl u)
  have hkp : Keeps u (u.tells s k.val) := .ite (keeps_send ..) (.refl u)
  have hsc : (u.tells s k.val).scan = u.scan := hf.part .scan (by decide)
  have hb : (u.tells s k.val).brm = u.brm := hf.part .brm (by decide)
  have hh2 := hh.of_frame hf
  refine ⟨(hf.mod hw1).trans h1, by rw [hsc, h2], by rw [hsc, h2]; rfl, by rw [hsc, h2], (hf.rd hw1).trans h3, (hf.rd hw1).trans h4,
    (hf.fget hw1).trans h5, (hf.fget hw1).trans h6, hh2.dru, hh2.restarts, hh2.openChains, (hf.part .mem (by decide)).trans hm,
    fun ht => ?_, fun hp hn => ?_⟩
  · refine out_grows hkp ?_
    rw [← loops_safeCmd]
    exact h8 ht
  · rw [State.tells, if_pos ⟨hp, hn⟩]
    exact send_msgs

/-! The statement. -/

/-- Settles O26: the commit in ALONE, byte for byte, and what a late period and a trip leave. -/
theorem commitsAndTrips : Obligations.CommitsAndTrips := by
  unfold Obligations.CommitsAndTrips
  refine ⟨fun s hi hr hm ht hs hc hd he hk hf hp hcp ho => ?_, fun k s hw hr h0 hk => ⟨fun hl => periodLate_counts hw hr h0 hk hl,
    exec_periodLate_again, fun hc => watchdogTrip_trips hw hr h0 hk hc⟩⟩
  obtain ⟨t, hx, hv, hb, hpub, hst, hct, hdru⟩ := classCommit_alone hi hr hm ht hs hc hd he hk ⟨hp, hcp, hf⟩ ho
  refine ⟨t, hx, fun a h1 h2 => hv a ?_, hb, hpub, hst, hct, hdru⟩
  rw [State.outHalf, decide_eq_true h1, decide_eq_true h2]
  rfl

end Sys2Proof.Machine
end

section
/-! Start and restart of the scan (R67, R70, R72, R459). -/

namespace Sys2Proof.Machine

variable {s t u : State} {n : W64} {cold : Bool} {m : Master} {v : W32}

/-! The requests (R67, R70, R459). -/

theorem exec_scanCtrlStart_writes (hs : s.writes m R.scanCtrl) : exec (.scanCtrlStart m) s = .next (s.scanStart.getD (s.ignoredIn blkScan)) :=
  asWrite_writes (f := fun s => s.scanStart.getD (s.ignoredIn blkScan)) hs

theorem exec_scanRestart_writes (hs : s.writes m R.scanRestart) : exec (.scanRestart m v) s = .next (s.scanRestartKey v) :=
  asWrite_writes (f := fun s => s.scanRestartKey v) hs

/-- A start request can be taken (R70). -/
def State.mayStart (s : State) : Bool :=
  s.mod == .config && s.fbit F.sysCfgStatus_done && !s.fbit F.sysCfgStatus_refused && s.scan.run == .notStarted

theorem mayStart_iff : s.mayStart = true ↔ s.mod = .config ∧ s.fbit F.sysCfgStatus_done = true ∧ s.fbit F.sysCfgStatus_refused = false ∧
    s.scan.run = .notStarted := by
  simp only [State.mayStart, Bool.and_eq_true, beq_iff_eq, Bool.not_eq_true', and_assoc]

theorem scanStart_not (h : s.mayStart = false) : s.scanStart = none := by
  rw [State.scanStart]
  exact if_pos (by rw [Bool.not_eq_true']; exact h)

theorem scanStart_token (h : s.mayStart = true) (ht : s.token = true) : s.scanStart = some { s with scan := { s.scan with startReq := true } } := by
  rw [State.scanStart]
  refine (if_neg ?_).trans (if_pos ht)
  rw [show (s.mod == .config && s.fbit F.sysCfgStatus_done && !s.fbit F.sysCfgStatus_refused && s.scan.run == .notStarted) = true from h]
  decide

theorem scanStart_untaken (h : s.mayStart = true) (ht : s.token = false) (hr : s.pair.startReq223 = false) : s.scanStart = none := by
  rw [State.scanStart]
  refine (if_neg ?_).trans ((if_neg (by rw [ht]; decide)).trans (if_neg (by rw [hr]; decide)))
  rw [show (s.mod == .config && s.fbit F.sysCfgStatus_done && !s.fbit F.sysCfgStatus_refused && s.scan.run == .notStarted) = true from h]
  decide

theorem fldN_low : fldN v.toNat 0 16 = v.toNat % 65536 := by
  rw [fldN, Nat.pow_zero, Nat.div_one]
  rfl

theorem scanRestartKey_keyed (hk : v.toNat % 65536 = 0x5CA7) (hm : s.mod = .stopped) (ht : s.token = true) :
    s.scanRestartKey v = { s with scan := { s.scan with restartReq := some (v.getLsbD 16) } } := by
  have hb : bitN v.toNat 16 = v.getLsbD 16 := rfl
  rw [State.scanRestartKey, if_pos (fldN_low.trans hk), State.scanRestart, if_pos ⟨hm, ht⟩, hb]
  rfl

theorem scanRestartKey_not (h : ¬ (s.mod = .stopped ∧ s.token = true ∧ v.toNat % 65536 = 0x5CA7)) :
    s.scanRestartKey v = s.bump 0x1010 := by
  rw [State.scanRestartKey, fldN_low]
  split
  next hk =>
    rw [State.scanRestart, if_neg fun hc => h ⟨hc.1, hc.2, hk⟩]
    exact ignoredIn_eq (by decide)
  next => exact ignoredIn_eq (by decide)

/-! The scan runs from a boundary (R67). -/

/-- The symbols and the periods with which the scan begins. -/
def State.primed (s : State) (cold : Bool) : State := (if cold then s.coldInit else s).takePeriods

/-- The scan running from cycle `n`, its classes at their first scan. -/
def State.running (s : State) (n : W64) : State := { s with scan := { s.scan with
  run := .running, nsOrigin := n, bound := s.scanTime, startReq := false, restartReq := none
  cls := s.scan.cls.map (fun (c : ClassRun) => { c with
    running := false, frozen := false, released := false, complete := false, due := false, late := false
    lateFlag := false, firstScan := true, doneIn := [] }) } }

/-- The scan shown running, before the work of its first boundary. -/
def State.runsFrom (s : State) (n : W64) (cold : Bool) : State := ((s.primed cold).running n).fset F.scanStatus_runstate 1

theorem frame_primed : Frame [.mem, .pair, .act] [] s (s.primed cold) :=
  .trans (.ite (frame_coldInit s).sub (.refl s)) (frame_takePeriods _).sub

theorem frame_runsFrom : Frame [.mem, .pair, .act, .scan, .regs] [.fld F.scanStatus_runstate] s (s.runsFrom n cold) :=
  .trans (.trans frame_primed.sub (.patched (t := (s.primed cold).running n) rfl rfl rfl)) .fset

theorem scan_runsFrom : ∃ b v, (s.runsFrom n cold).scan = { s.scan with
    run := .running, nsOrigin := n, bound := b, startReq := false, restartReq := none, cls := v } := by
  have h1 : (s.primed cold).scan = s.scan := frame_primed.part .scan (by decide)
  have h2 : (s.runsFrom n cold).scan = ((s.primed cold).running n).scan := rfl
  rw [h2, State.running, h1]
  exact ⟨_, _, rfl⟩

/-- The scan runs from cycle `n`. -/
structure RunsFrom (s t : State) (n : W64) : Prop where
  wf : t.regsWf = true
  run : t.scan.run = .running
  step : t.scan.step = .freeze
  restartReq : t.scan.restartReq = none
  startReq : t.scan.startReq = false
  mod : t.mod = s.mod
  cycle : t.rd64 R.scanCycleLo = n
  cls : (t.clsRun 0).cycle = n ∧ (t.clsRun 0).running = true

theorem runFrom_runs (hw : s.regsWf = true) (h : s.Quiet) (hm : s.mod = .alone ∨ s.mod = .primary) : RunsFrom s (s.runFrom n cold) n := by
  have he : s.runFrom n cold = if ((s.runsFrom n cold).boundaryWork n).scanRuns then
      ((s.runsFrom n cold).boundaryWork n).freezeStep n true (((s.runsFrom n cold).boundaryWork n).sBoundary n)
      else (s.runsFrom n cold).boundaryWork n := rfl
  have hf := frame_runsFrom (s := s) (n := n) (cold := cold)
  obtain ⟨b, v, hsc⟩ := scan_runsFrom (s := s) (n := n) (cold := cold)
  obtain ⟨h1, h2, h3⟩ := h
  have hw1 := hf.canon hw
  have hmod := hf.mod hw
  have hq : (s.runsFrom n cold).Quiet := by
    refine ⟨?_, ?_, ?_⟩
    · rw [hf.part .olc (by decide)]
      exact h1
    · rw [hf.part .brm (by decide)]
      exact h2
    · rw [hsc]
      exact h3
  rw [he]
  generalize s.runsFrom n cold = x at *
  have hr : (x.boundaryWork n).scanRuns = true := by
    rw [scanRuns_boundaryWork hw1 hq, State.scanRuns, hsc, hmod]
    obtain hm | hm := hm <;> rw [hm] <;> rfl
  rw [hr, if_pos rfl]
  have hw2 := (frame_freezeStep (x.boundaryWork n) n true ((x.boundaryWork n).sBoundary n)).canon ((frame_boundaryWork hq n).canon hw1)
  obtain ⟨⟨w, hs⟩, hc, ⟨now, hcl⟩, hm2⟩ := begun_freezeStep (n := n) (a := true) (b := (x.boundaryWork n).sBoundary n) hw1 hq
  generalize (x.boundaryWork n).freezeStep n true ((x.boundaryWork n).sBoundary n) = y at *
  rw [hsc] at hs
  refine ⟨hw2, by rw [hs], by rw [hs], by rw [hs], by rw [hs], hm2.trans hmod, hc, ?_, ?_⟩ <;> rw [hcl] <;> rfl

theorem runsFrom_send {o : Out} (h : RunsFrom s t n) : RunsFrom s (t.send o) n := by
  have hf : Frame [.out, .pair] [] t (t.send o) := .send
  have hs : (t.send o).scan = t.scan := hf.part .scan (by decide)
  obtain ⟨hw, h1, h2, h3, h4, h5, h6, h7⟩ := h
  have hc := clsRun_of_scan (k := 0) hs
  exact ⟨hf.canon hw, by rw [hs, h1], by rw [hs, h2], by rw [hs, h3], by rw [hs, h4], (hf.mod hw).trans h5, (hf.rd64 hw).trans h6,
    by rw [hc]; exact h7⟩

/-! `RESTART_BOUNDARY` and `SCAN_START_BOUNDARY` (R67, R459). -/

theorem retireReq_enter {m : ModState} : (s.enter m).brm.retireReq = s.brm.retireReq := by
  unfold State.enter
  split
  · rfl
  · have h1 : ((s.stopAudit.setMod m).raise hapRole 0 [BitVec.ofNat 64 (modCode m)]).brm = s.stopAudit.brm :=
      (Frame.trans .setMod .raise : Frame [.regs, .recd] [.fld F.pairStatus_state] _ _).part .brm (by decide)
    have h2 : s.stopAudit.brm.retireReq = s.brm.retireReq := rfl
    dsimp only
    split
    · exact (congrArg Brm.retireReq h1).trans h2
    · exact (congrArg Brm.retireReq h1).trans h2

/-- The role in which a restart is made. -/
def State.restartRole (s : State) : ModState := if s.partner = .off then .alone else .primary

/-- The module in its role, with no event waiting. -/
def State.restarting (s : State) : State := ((s.enter s.restartRole).canPermit).dropEvents

abbrev enteredPlaces : List Rect := [.fld F.brmStatus_auditRun, .fld F.pairStatus_state, .blk 0xa]

theorem frame_entered {m : ModState} : Frame [.out, .regs, .brm, .recd, .can] enteredPlaces s ((s.enter m).canPermit) :=
  .trans (frame_enter s m).sub (frame_canPermit _).sub

theorem mod_entered {m : ModState} (hw : s.regsWf = true) : ((s.enter m).canPermit).mod = m := by
  rw [(frame_canPermit _).mod ((frame_enter s m).canon hw), mod_enter hw]

theorem retireReq_entered {m : ModState} : ((s.enter m).canPermit).brm.retireReq = s.brm.retireReq :=
  (congrArg Brm.retireReq ((frame_canPermit _).part .brm (by decide) : ((s.enter m).canPermit).brm = _)).trans retireReq_enter

theorem frame_restarting : Frame [.out, .regs, .brm, .recd, .can, .scan] (.fld F.scanStatus_evqFull :: .reg R.scanEvqDepth :: enteredPlaces) s s.restarting :=
  .trans frame_entered.sub (frame_dropEvents _).sub

theorem quiet_restarting (h : s.Quiet) : s.restarting.Quiet := by
  obtain ⟨h1, h2, h3⟩ := h
  have hf := frame_restarting (s := s)
  refine ⟨?_, ?_, ?_⟩
  · rw [hf.part .olc (by decide)]
    exact h1
  · rw [State.restarting, (frame_dropEvents _).part .brm (by decide)]
    exact retireReq_entered.trans h2
  · have hs : ((s.enter s.restartRole).canPermit).scan = s.scan := frame_entered.part .scan (by decide)
    rw [State.restarting]
    show ((s.enter s.restartRole).canPermit).scan.service = none
    rw [hs, h3]

theorem mod_restarting (hw : s.regsWf = true) : s.restarting.mod = s.restartRole := by
  rw [State.restarting, (frame_dropEvents _).mod (frame_entered.canon hw), mod_entered hw]

theorem exec_restartBoundary_restarts (hr : s.scan.restartReq = some cold) (hm : s.mod = .stopped) (ht : s.token = true) :
    exec .restartBoundary s = .next (if s.partner == .off then s.restarting.runFrom (s.rd64 R.scanCycleLo + 1) cold
      else (s.restarting.runFrom (s.rd64 R.scanCycleLo + 1) cold).send .resyncRequest) := by
  have h1 : s.restartRole = if s.partner == .off then .alone else .primary := by simp only [State.restartRole, beq_iff_eq]
  rw [exec_restartBoundary, execRestartBoundary, hr, State.restarting, h1]
  refine when_pos ?_
  rw [hm, ht]
  rfl

theorem restartBoundary_restarts (hw : s.regsWf = true) (hr : s.scan.restartReq = some cold) (hm : s.mod = .stopped) (ht : s.token = true)
    (hq : s.Quiet) : ∃ t, exec .restartBoundary s = .next t ∧ RunsFrom s.restarting t (s.rd64 R.scanCycleLo + 1) := by
  refine ⟨_, exec_restartBoundary_restarts hr hm ht, ?_⟩
  have hw1 := frame_restarting.canon hw
  have hmod := mod_restarting hw
  have h1 : RunsFrom s.restarting (s.restarting.runFrom (s.rd64 R.scanCycleLo + 1) cold) (s.rd64 R.scanCycleLo + 1) := by
    refine runFrom_runs hw1 (quiet_restarting hq) ?_
    rw [hmod, State.restartRole]
    split
    · exact .inl rfl
    · exact .inr rfl
  split
  · exact h1
  · exact runsFrom_send h1

theorem exec_restartBoundary_none (h : s.scan.restartReq = none) : exec .restartBoundary s = .next s := by
  rw [exec_restartBoundary, execRestartBoundary, h]

/-- The role in which a scan starts. -/
def State.startRole (s : State) : ModState :=
  if (s.fbit F.pairStatus_dbUp || s.fbit F.pairStatus_aliveUp) && !s.pair.startReq223 then .primary else .alone

/-- The module in its role, its reflex programs armed. -/
def State.startArmed (s : State) : State := (s.enter s.startRole).rfxArmBank

/-- The start noted, and every class before its first period. -/
def State.startNoted (s : State) : State := { s with
  wf := { s.wf with scanAt := some s.time.tb3 }
  pair := { s.pair with startReq223 := false }
  scan := { s.scan with cls := s.scan.cls.map (fun (c : ClassRun) => { c with cycle := BitVec.allOnes 64 }) } }

/-- The time to the start shown, `ms` where it fits. -/
def State.startShown (s : State) (ms : Nat) : State :=
  if ms < 0xFFFF then s.fset ⟨R.pwrBootT, 16, 16⟩ ms else s.take.2.fset ⟨R.pwrBootT, 16, 16⟩ (s.take.1.toNat % 65536)

/-- The module ready for its first cycle. -/
def State.startsScan (s : State) : State :=
  ((s.startArmed.startNoted).startShown ((s.time.tb1 - s.power.t0).toNat / 1000000)).canPermit

theorem frame_startArmed : Frame [.out, .regs, .brm, .recd, .mem, .island, .rfx] [.fld F.brmStatus_auditRun, .fld F.pairStatus_state,
    .fld F.scanStatus_mbxStale, .blk 0x3, .blk 0x6, .blk 0x7] s s.startArmed :=
  .trans (frame_enter s _).sub (frame_rfxArmBank _).sub

theorem frame_startEnd {ms : Nat} : Frame [.regs, .can, .wf, .pair, .scan, .free] [.reg R.pwrBootT, .blk 0xa] s
    ((s.startNoted.startShown ms).canPermit) :=
  .trans (.trans (.patched (t := s.startNoted) rfl rfl rfl) (.ite .fset (.trans .take .fset))) (frame_canPermit _).sub

theorem quiet_starting (h : s.Quiet) : s.startsScan.Quiet := by
  obtain ⟨h1, h2, h3⟩ := h
  have hf := frame_startArmed (s := s)
  have hr : s.startArmed.brm.retireReq = s.brm.retireReq :=
    (congrArg Brm.retireReq ((frame_rfxArmBank _).part .brm (by decide) : s.startArmed.brm = _)).trans retireReq_enter
  have ho : s.startArmed.olc = s.olc := hf.part .olc (by decide)
  have hs : s.startArmed.scan = s.scan := hf.part .scan (by decide)
  rw [State.startsScan]
  generalize s.startArmed = x at *
  generalize (s.time.tb1 - s.power.t0).toNat / 1000000 = ms
  have hf2 := frame_startEnd (s := x) (ms := ms)
  have hs2 : ((x.startNoted.startShown ms).canPermit).scan = x.startNoted.scan :=
    (Frame.trans (.ite .fset (.trans .take .fset)) (frame_canPermit _).sub : Frame [.regs, .free, .can] [.reg R.pwrBootT, .blk 0xa] x.startNoted _).part
      .scan (by decide)
  refine ⟨?_, ?_, ?_⟩
  · rw [hf2.part .olc (by decide)]
    exact ho ▸ h1
  · rw [hf2.part .brm (by decide)]
    exact hr.trans h2
  · rw [hs2]
    show x.scan.service = none
    rw [hs, h3]

theorem mod_starting (hw : s.regsWf = true) : s.startsScan.mod = s.startRole := by
  have hw1 := (frame_enter s s.startRole).canon hw
  have hw2 : s.startArmed.regsWf = true := (frame_rfxArmBank (s.enter s.startRole)).canon hw1
  have hm : s.startArmed.mod = s.startRole := by rw [State.startArmed, (frame_rfxArmBank _).mod hw1, mod_enter hw]
  rw [State.startsScan, frame_startEnd.mod hw2]
  exact hm

theorem exec_scanStartBoundary_starts (hr : s.scan.startReq = true) (hm : s.mod = .config) (ht : s.token = true)
    (hf : s.fbit F.pwrStatus_firstSec = false) : exec .scanStartBoundary s = .next (s.startsScan.runFrom 0 true) := by
  unfold exec execScanStartBoundary
  extract_lets paired t1 _ _ _ t2 ms x t3
  have h1 : t3 = s.startArmed.startNoted.startShown ms := by
    have h0 : t1 = s.startArmed := rfl
    have h2 : t2 = t1.startNoted := rfl
    rw [← h0, ← h2]
    rfl
  rw [h1, hr, hm, ht, hf, State.startsScan]
  exact when_pos rfl

theorem scanStartBoundary_starts (hw : s.regsWf = true) (hr : s.scan.startReq = true) (hm : s.mod = .config) (ht : s.token = true)
    (hf : s.fbit F.pwrStatus_firstSec = false) (hq : s.Quiet) : ∃ t, exec .scanStartBoundary s = .next t ∧ RunsFrom s.startsScan t 0 := by
  refine ⟨_, exec_scanStartBoundary_starts hr hm ht hf, runFrom_runs (frame_startEnd.canon (frame_startArmed.canon hw)) (quiet_starting hq) ?_⟩
  rw [mod_starting hw, State.startRole]
  split
  · exact .inr rfl
  · exact .inl rfl

/-! The statement. -/

/-- Settles O27: the requests, and the boundaries at which a scan begins. -/
theorem startsAndRestarts : Obligations.StartsAndRestarts := by
  unfold Obligations.StartsAndRestarts
  refine ⟨fun m v s hw => ⟨fun hs => ?_, fun hs => ?_⟩, fun s hw ht hsv hc hq => ?_⟩
  · have hi (h : s.scanStart = none) : exec (.scanCtrlStart m) s = .next (s.bump 0x1010) := by
      rw [exec_scanCtrlStart_writes hs, h]
      exact congrArg (fun x : State => (.next x : Res)) (ignoredIn_eq (b := blkScan) (by decide))
    refine ⟨fun hr htk => ?_, fun hr => ignored_of hw (hi (scanStart_not ?_)), fun hr htk h2 => ignored_of hw (hi ?_)⟩
    · rw [exec_scanCtrlStart_writes hs, scanStart_token (mayStart_iff.mpr hr) htk]
      rfl
    · rw [← Bool.not_eq_true]
      exact fun hc => hr (mayStart_iff.mp hc)
    · exact scanStart_untaken (mayStart_iff.mpr hr) htk h2
  · refine ⟨fun ⟨hm, htk, hk⟩ => ?_, fun hn => ignored_of hw ?_⟩
    · rw [exec_scanRestart_writes hs, scanRestartKey_keyed hk hm htk]
    · rw [exec_scanRestart_writes hs, scanRestartKey_not hn]
  · refine ⟨fun cold hm hr => ?_, exec_restartBoundary_none, fun hm hr hf => ?_, fun hr => when_neg (by rw [hr]; rfl)⟩
    · obtain ⟨t, hx, -, h1, h2, h3, -, h5, h6, h7, h8⟩ := restartBoundary_restarts hw hr hm ht ⟨hc, hq, hsv⟩
      exact ⟨t, hx, h1, h2, h3, h5.trans (mod_restarting hw), h6, h7, h8⟩
    · obtain ⟨t, hx, -, h1, h2, -, h4, h5, h6, h7, h8⟩ := scanStartBoundary_starts hw hr hm ht hf ⟨hc, hq, hsv⟩
      exact ⟨t, hx, h1, h2, h4, h5.trans (mod_starting hw), h6, h7, h8⟩

end Sys2Proof.Machine
end

section
/-! Writes to setup registers by access type (R5 to R10, R30, R443, R478, R479). -/

namespace Sys2Proof.Machine

variable {s t : State} {m : Master} {off size : Nat} {v : W32} {r : RegRow}

/-! The shape of a write and the row of its register. -/

theorem badShape_aligned (h : off % 4 = 0) : badShape off 4 = false := by
  rw [badShape, h]
  rfl

theorem badShape_of (h : size ≠ 4 ∨ off % 4 ≠ 0) : badShape off size = true := by
  rw [badShape, Bool.or_eq_true, bne_iff_ne, bne_iff_ne]
  exact h

theorem block_of_row (h : regRow off = some r) : off / 0x1000 < 22 := by
  by_contra hb
  rw [regRow, rowsOfBlock_nil (by omega)] at h
  cases h

/-- The row of a register tells its access type. -/
theorem access_of_row {a : Access} (h : regRow off = some r) (ha : (regRow off).map (·.access) = some a) : r.access = a := by
  rw [h] at ha
  exact Option.some.inj ha

theorem access_shadowPend : (regRow R.sysShadowPend).map (·.access) = some .ro := by decide +kernel

/-! Writes that reach their register. -/

/-- A write that the window is open to and the CAT grants. -/
theorem exec_setupWrite_writes (hs : s.writes m off) (ha : off % 4 = 0) : exec (.setupWrite m off 4 v) s = .next (s.writeReg m off v) := by
  obtain ⟨hr, ho, hc⟩ := hs
  have he : exec (.setupWrite m off 4 v) s = s.when (s.masterRuns m) (s.setupWrite m off 4 v) := rfl
  rw [he, State.setupWrite, badShape_aligned ha, setupAccess_granted ho hc]
  exact when_pos hr

theorem writeReg_row (hb : off / 0x1000 ≠ 19) (hr : regRow off = some r) : s.writeReg m off v = match r.access with
    | .wo => s.writeWo m off v
    | .rw => s.writeRw m off v r.mask
    | .rws => s.writeRws off v r.mask
    | .rwl => s.writeRwl off v r.mask
    | _ => if regW1C off = 0 then s else s.writeW1C off v 0 := by
  rw [State.writeReg, if_neg hb, hr] <;> rfl

section
variable (hs : s.writes m off) (ha : off % 4 = 0) (hb : off / 0x1000 ≠ 19) (hr : regRow off = some r)
include hs ha hb hr

theorem exec_setupWrite_ro (h : r.access = .ro) (hw : regW1C off = 0) : exec (.setupWrite m off 4 v) s = .next s := by
  rw [exec_setupWrite_writes hs ha, writeReg_row hb hr, h]
  exact congrArg _ (if_pos hw)

theorem exec_setupWrite_rws (h : r.access = .rws) : exec (.setupWrite m off 4 v) s = .next (s.writeRws off v r.mask) := by
  rw [exec_setupWrite_writes hs ha, writeReg_row hb hr, h]

theorem exec_setupWrite_rwl (h : r.access = .rwl) : exec (.setupWrite m off 4 v) s = .next (s.writeRwl off v r.mask) := by
  rw [exec_setupWrite_writes hs ha, writeReg_row hb hr, h]

theorem exec_setupWrite_rw (h : r.access = .rw) : exec (.setupWrite m off 4 v) s = .next (s.writeRw m off v r.mask) := by
  rw [exec_setupWrite_writes hs ha, writeReg_row hb hr, h]

end

/-! Shadows (R10, R478). -/

theorem writeRws_ignored {mask : W32} (h : (s.rd R.sysApplyPend).getLsbD (off / 0x1000) = true ∨ s.inRange off v = false) :
    s.writeRws off v mask = s.ignoredIn (off / 0x1000) := by
  rw [State.writeRws]
  refine if_pos (h.imp id fun h => ?_)
  rw [h]
  rfl

/-- A shadow taken. -/
theorem writeRws_takes {mask : W32} (hw : s.regsWf = true) (hb : off / 0x1000 < 22) (hn : off ≠ R.sysShadowPend)
    (hp : (s.rd R.sysApplyPend).getLsbD (off / 0x1000) = false) (hi : s.inRange off v = true) :
    let t := s.writeRws off v mask
    t.rd off = v &&& mask ∧ (t.rd R.sysShadowPend).getLsbD (off / 0x1000) = true ∧ t.act = s.act ∧ onlyRegs [off, R.sysShadowPend] s t := by
  have he : s.writeRws off v mask = (s.wr off (v &&& mask)).fset ⟨R.sysShadowPend, off / 0x1000, 1⟩ 1 := by
    rw [State.writeRws]
    refine if_neg (not_or.mpr ⟨?_, ?_⟩)
    · rw [State.applyPend, hp]
      decide
    · rw [hi]
      decide
  rw [he]
  refine ⟨?_, ?_, rfl, rfl, fun o ho => ?_⟩
  · rw [rd_fset_ne hn, rd_wr_self hw]
  · have hw1 : (s.wr off (v &&& mask)).regsWf = true := regsWf_wr hw
    rw [getLsbD_fset_one hw1 (by omega), decide_eq_true rfl]
    rfl
  · have h1 : o ≠ off := fun h => ho (h ▸ List.mem_cons_self)
    have h2 : o ≠ R.sysShadowPend := fun h => ho (h ▸ List.mem_cons_of_mem _ List.mem_cons_self)
    rw [rd_fset_ne h2, rd_wr_ne h1]

/-! Locked registers (R68, R224, R479). -/

theorem writeRwl_ignored {mask : W32} (h : s.locked off = true ∨ s.inRange off v = false) : s.writeRwl off v mask = s.ignoredIn (off / 0x1000) := by
  rw [State.writeRwl]
  refine if_pos (h.imp id fun h => ?_)
  rw [h]
  rfl

/-- A value that does not come into force at once. -/
def State.writeWaits (s : State) (off : Nat) : Prop := (isPeriod off = true ∧ s.mod = .stopped) ∨ (isTiming off = true ∧ s.paired = true)

theorem writeRwl_takes {mask : W32} (hw : s.regsWf = true) (hl : s.locked off = false) (hi : s.inRange off v = true) :
    let t := s.writeRwl off v mask
    t = { s with regs := t.regs, act := t.act } ∧ t.rd off = v &&& mask ∧ keepsRegs [off] s t ∧ (∀ o, o ≠ off → t.actv o = s.actv o) ∧
      (s.writeWaits off → t.actv off = s.actv off) ∧
      ((isPeriod off = true ∨ isTiming off = true) → ¬ s.writeWaits off → t.actv off = v &&& mask) := by
  have hk : keepsRegs [off] s (s.wr off (v &&& mask)) := onlyRegs_wr.2
  by_cases hwt : s.writeWaits off
  · have he : s.writeRwl off v mask = s.wr off (v &&& mask) := by
      rw [State.writeRwl, if_neg (not_or.mpr ⟨by rw [hl]; decide, by rw [hi]; decide⟩)]
      exact if_pos hwt
    rw [he]
    exact ⟨rfl, rd_wr_self hw, hk, fun _ _ => rfl, fun _ => rfl, fun _ h => absurd hwt h⟩
  · have he : s.writeRwl off v mask = s.setBoth off (v &&& mask) := by
      rw [State.writeRwl, if_neg (not_or.mpr ⟨by rw [hl]; decide, by rw [hi]; decide⟩)]
      exact if_neg hwt
    rw [he, State.setBoth]
    dsimp only
    split
    next => exact ⟨rfl, rd_wr_self hw, hk, fun o ho => sget_sset_ne _ _ _ _ _ ho, fun h => absurd h hwt,
        fun _ _ => sget_self _ _ _ _ (regsWf_iff.mp hw).2⟩
    next hka =>
      refine ⟨rfl, rd_wr_self hw, hk, fun _ _ => rfl, fun _ => rfl, fun h _ => absurd ?_ hka⟩
      rw [keepsActive, Bool.or_eq_true, Bool.or_eq_true]
      exact h.imp Or.inr id

/-! Values that take effect at once (R8). -/

theorem isArr_even {f g n k : Nat} (h : isArr f 4 k off = false) (hf : f ≤ g) (hg : (g - f) % 4 = 0) (hn : g + 8 * n ≤ f + 4 * k + 4) :
    isArr g 8 n off = false := by
  rw [← Bool.not_eq_true] at h ⊢
  refine fun hc => h ?_
  simp only [isArr, Bool.and_eq_true, decide_eq_true_eq, beq_iff_eq] at hc ⊢
  omega

theorem writeRw_takes {mask : W32} (hc : isArr 0xF400 4 256 off = false) (hr : off ≠ R.hostRingEn) (h5 : isArr 0xB050 0x40 2 off = false)
    (h6 : isArr 0xB060 0x40 2 off = false) : s.writeRw m off v mask = s.wr off (v &&& mask) := by
  have h1 : isArr 0xF400 8 128 off = false := isArr_even hc (by decide) (by decide) (by decide)
  have h2 : isArr 0xF404 8 128 off = false := isArr_even hc (by decide) (by decide) (by decide)
  rw [State.writeRw, h1, h2, if_neg hr, h5, h6]
  rfl

/-! Writes that reach no register (R5, R7, R30). -/

theorem exec_setupWrite_dead (h : s.masterRuns m = false) : exec (.setupWrite m off size v) s = .next s := when_neg h

theorem exec_setupWrite_shape (hr : s.masterRuns m = true) (h : size ≠ 4 ∨ off % 4 ≠ 0) : exec (.setupWrite m off size v) s =
    .next ((if off / 0x1000 = 19 then s.bump R.tcIgnored else s.badAccess (masterCls m) off true false).emit (.errorResponse m off)) := by
  have he : exec (.setupWrite m off size v) s = s.when (s.masterRuns m) (s.setupWrite m off size v) := rfl
  rw [he, State.setupWrite, badShape_of h]
  exact when_pos hr

theorem badAccess_counts {c : Nat} {a b : Bool} (hw : s.regsWf = true) : onlyRegs [R.sysBadAccess, R.sysBadInfo] s (s.badAccess c off a b) ∧
    ((s.badAccess c off a b).rd R.sysBadAccess).toNat = satAdd 32 (s.rd R.sysBadAccess).toNat 1 := by
  refine ⟨⟨rfl, fun o ho => ?_⟩, ?_⟩
  · have h1 : o ≠ R.sysBadAccess := fun h => ho (h ▸ List.mem_cons_self)
    have h2 : o ≠ R.sysBadInfo := fun h => ho (h ▸ List.mem_cons_of_mem _ List.mem_cons_self)
    rw [State.badAccess, rd_wr_ne h2, State.bump, State.bumpBy, rd_wr_ne h1]
  · rw [State.badAccess, rd_wr_ne (by decide), toNat_rd_bump hw]

theorem exec_setupWrite_refused {cause : Nat} (hr : s.masterRuns m = true) (hs : s.barShut m off = false) (ha : off % 4 = 0)
    (hc : s.catDecide (masterCls m) .write (0x10000000 + off) = some cause) : exec (.setupWrite m off 4 v) s = .next
      (if m = .mc then (s.catRefuse (masterCls m) (masterNum m) .write (0x10000000 + off) cause).mcAbandon (0x10000000 + off)
        else s.catRefuse (masterCls m) (masterNum m) .write (0x10000000 + off) cause) := by
  have he : exec (.setupWrite m off 4 v) s = s.when (s.masterRuns m) (s.setupWrite m off 4 v) := rfl
  have hsa : s.setupAccess m .write off = (if m = .mc then
      (s.catRefuse (masterCls m) (masterNum m) .write (0x10000000 + off) cause).mcAbandon (0x10000000 + off)
        else s.catRefuse (masterCls m) (masterNum m) .write (0x10000000 + off) cause, false) := by
    rw [State.setupAccess, hs, State.catAccess, hc]
    cases m <;> rfl
  rw [he, State.setupWrite, badShape_aligned ha, hsa]
  exact when_pos hr

abbrev refusedPlaces : List Rect := [.reg R.catFaultLo, .reg R.catFaultHi, .reg R.catFaultInfo, .reg R.catStatus]

theorem frame_catRefuse_bump {cls n a c : Nat} {k : AccKind} : Frame [.regs, .cat, .recd] refusedPlaces (s.bump (R.catClmFaults cls))
    (s.catRefuse cls n k a c) := by
  unfold State.catRefuse
  extract_lets s1 _ s2 n
  have h2 : Frame [.regs, .cat, .recd] refusedPlaces s1 s2 := .ite (.refl s1) (.trans (.trans .wr64 .wr) .fset)
  exact .ite (h2.trans .cat) (h2.trans (.trans .cat .raise))

theorem refused_counts {cause : Nat} (hw : s.regsWf = true) :
    let t := if m = .mc then (s.catRefuse (masterCls m) (masterNum m) .write (0x10000000 + off) cause).mcAbandon (0x10000000 + off)
        else s.catRefuse (masterCls m) (masterNum m) .write (0x10000000 + off) cause
    (t.rd (R.catClmFaults (masterCls m))).toNat = satAdd 32 (s.rd (R.catClmFaults (masterCls m))).toNat 1 ∧
      keepsRegs [R.catClmFaults (masterCls m), R.catFaultLo, R.catFaultHi, R.catFaultInfo, R.catStatus] s t ∧
      t = { s with regs := t.regs, cat := t.cat, recd := t.recd } := by
  intro t
  have hf : Frame [.regs, .cat, .recd] refusedPlaces (s.bump (R.catClmFaults (masterCls m))) t :=
    .ite (frame_catRefuse_bump.trans .raise) frame_catRefuse_bump
  have hw1 : (s.bump (R.catClmFaults (masterCls m))).regsWf = true := regsWf_wr hw
  have hr : t.rd (R.catClmFaults (masterCls m)) = (s.bump (R.catClmFaults (masterCls m))).rd (R.catClmFaults (masterCls m)) :=
    hf.rd hw1 (by cases m <;> decide)
  refine ⟨by rw [hr, toNat_rd_bump hw], fun o ho => ?_, ?_⟩
  · obtain ⟨h1, h2⟩ := not_or.mp (fun h => ho (List.mem_cons.mpr h))
    have hk : keepsRegs [R.catFaultLo, R.catFaultHi, R.catFaultInfo, R.catStatus] (s.bump (R.catClmFaults (masterCls m))) t := hf.keepsRegs hw1
    rw [hk o h2, State.bump, State.bumpBy, rd_wr_ne h1]
  · have h1 : Frame [.regs, .cat, .recd] [.blk 0xf] s t := .trans (.bump (by cases m <;> rfl)) hf.sub
    exact h1.eq_patch

/-! The statement. -/

/-- Settles O18: each clause is the write of one access type, or what a write that reaches no register counts. -/
theorem setupWrites : Obligations.SetupWrites := by
  unfold Obligations.SetupWrites
  refine ⟨fun m off v s r hw hs ha hb hr => ?_, fun m off size v s hw => ?_⟩
  · have hlt := block_of_row hr
    have hig {i : Instr} (h : exec i s = .next (s.ignoredIn (off / 0x1000))) : ∃ t, exec i s = .next t ∧
        onlyRegs [off / 0x1000 * 0x1000 + (if off / 0x1000 = 0xF then 0x14 else 0x10)] s t ∧
        (t.rd (off / 0x1000 * 0x1000 + (if off / 0x1000 = 0xF then 0x14 else 0x10))).toNat =
          satAdd 32 (s.rd (off / 0x1000 * 0x1000 + (if off / 0x1000 = 0xF then 0x14 else 0x10))).toNat 1 := ignored_of hw h
    refine ⟨fun h hc => exec_setupWrite_ro hs ha hb hr h hc, fun h hc => hig ?_, fun h hp hi => ?_, fun h hc => hig ?_, fun h hl hi => ?_,
      fun h hc h1 h5 h6 => ?_⟩
    · rw [exec_setupWrite_rws hs ha hb hr h, writeRws_ignored hc]
    · refine ⟨_, exec_setupWrite_rws hs ha hb hr h, writeRws_takes hw hlt (fun hc => ?_) hp hi⟩
      rw [access_of_row hr (by rw [hc]; exact access_shadowPend)] at h
      cases h
    · rw [exec_setupWrite_rwl hs ha hb hr h, writeRwl_ignored hc]
    · exact ⟨_, exec_setupWrite_rwl hs ha hb hr h, writeRwl_takes hw hl hi⟩
    · refine ⟨_, exec_setupWrite_rw hs ha hb hr h, ?_⟩
      rw [writeRw_takes hc h1 h5 h6]
      exact ⟨rd_wr_self hw, onlyRegs_wr⟩
  · refine ⟨exec_setupWrite_dead, fun hr h hb => ?_, fun hr h hb => ?_, fun cause hr ho ha hc => ?_, fun hs ha hb => ?_, fun hs ha hb hr => ?_,
      fun tc hs => ?_⟩
    · obtain ⟨⟨h1, h2⟩, h3⟩ := badAccess_counts (s := s) (c := masterCls m) (off := off) (a := true) (b := false) hw
      refine ⟨_, exec_setupWrite_shape hr h, ?_⟩
      rw [if_neg hb]
      exact ⟨rfl, h3, h2, rfl⟩
    · refine ⟨_, exec_setupWrite_shape hr h, ?_⟩
      rw [if_pos hb]
      exact ⟨rfl, toNat_rd_bump hw, onlyRegs_wr.2, rfl⟩
    · exact ⟨_, exec_setupWrite_refused hr ho ha hc, refused_counts hw⟩
    · refine ignored_of hw ?_
      rw [exec_setupWrite_writes hs ha, State.writeReg, if_pos hb]
    · refine ⟨_, exec_setupWrite_writes hs ha, ?_⟩
      rw [State.writeReg, if_neg hb, hr]
      exact badAccess_counts hw
    · exact ignored_of hw (asWrite_writes (f := fun s => s.bump R.tcIgnored) hs)

end Sys2Proof.Machine
end

section
/-! Requests to apply a group, and the activation of a plan (R10, R14 to R16, R344, R477, R478). -/

namespace Sys2Proof.Machine

variable {s t u : State} {b : Nat} {plan : Option RingPlan}

/-! What a plan sets going, beside the generation of its block (R14, R478). -/

/-- The registers of block `b` beside its generation. -/
abbrev besideGen (b : Nat) : List Rect := [.span (b * 0x1000) (b * 0x1000 + 0x14), .span (b * 0x1000 + 0x18) ((b + 1) * 0x1000)]

abbrev islandPlaces : List Rect := .blk 0x7 :: besideGen 6

theorem frame_showIsland_beside (s : State) : Frame [.regs] islandPlaces s s.showIsland := by
  have hch (u : State) (n : Nat) (h : n ∈ List.range 32) : Frame [.regs] islandPlaces u (u.showCh n) := by
    have h := List.mem_range.mp h
    exact .wr (cover_span 0x6018 0x7000 (by simp only [R.dioChnStatus]; omega))
  unfold State.showIsland
  refine Frame.ite (.refl s) ?_
  extract_lets _ a b c d e f g h
  have ha : Frame [.regs] islandPlaces s a := Frame.foldl hch s
  have hb : Frame [.regs] islandPlaces s b := ha.trans (Frame.foldl (fun u n hn => (frame_showLp u n (List.mem_range.mp hn)).sub) a)
  have hd : Frame [.regs] islandPlaces s d := ((hb.trans .wr).trans .wr).trans (.trans .wr .wr)
  have hg : Frame [.regs] islandPlaces s f := ((hd.trans (.trans .fsetb .fsetb)).trans (.trans .fsetb .fsetb)).trans (.trans .fsetb .fsetb)
  clear_value f
  exact ((hg.trans .fsetb).trans (.trans .fsetb .fsetb)).trans .wr

theorem frame_showStations_beside (s : State) : Frame [.regs] (besideGen 9) s s.showStations :=
  Frame.after Frame.fsetb <| Frame.after Frame.fsetb <| Frame.after Frame.fset <| Frame.after Frame.fset Frame.fset

theorem frame_ringPhy_beside (s : State) : Frame [.regs] (besideGen 9) s s.ringPhy :=
  Frame.foldl (fun u p hp => by
    have hc (lo w : Nat) (hw : lo + w ≤ 32) : coverAll (besideGen 9) ⟨R.ringPpStatus p, lo, w⟩ = true :=
      cover_span 0x9018 0xA000 (by
        simp only [List.mem_cons, List.not_mem_nil, or_false] at hp
        dsimp only [R.ringPpStatus]
        omega) rfl (Nat.ble_eq.mpr hw)
    exact .trans (.fsetb (hc _ _ (by decide))) (.fsetb (hc _ _ (by decide)))) s

theorem frame_ringActivate_beside (s : State) (p : RingPlan) : Frame [.regs, .ring] (besideGen 9) s (s.ringActivate p) := by
  have hc (o : Nat) (h : 0x9018 ≤ o ∧ o < 0xA000) : coverAll (besideGen 9) ⟨o, 0, 32⟩ = true := cover_span 0x9018 0xA000 h
  have hs (u : State) (n : Nat) (v : W32) (h : n ∈ List.range 256) : Frame [.regs, .ring] (besideGen 9) u (u.wr (R.ringStsState n) v) :=
    .wr (hc _ (by
      have := List.mem_range.mp h
      dsimp only [R.ringStsState]
      omega))
  have hp (u : State) (n : Nat) (v : W32) (h : n ∈ List.range 32) : Frame [.regs, .ring] (besideGen 9) u (u.wr (R.ringPeerSjState n) v) :=
    .wr (hc _ (by
      have := List.mem_range.mp h
      dsimp only [R.ringPeerSjState]
      omega))
  exact Frame.after (frame_ringPhy_beside _).sub <| Frame.after (frame_showStations_beside _).sub <| Frame.after .fset <| Frame.after .fset <|
    Frame.after (Frame.foldl (fun u n h => Frame.ite (hp u n _ h) (hp u n _ h)) _) <|
    Frame.after (Frame.foldl (fun u n h => Frame.ite (hs u n _ h) (Frame.ite (Frame.refl _) (hs u n _ h))) _) .ring

/-- The registers that show the DMA channels waiting for a plan. -/
abbrev dmaWaitPlaces : List Rect := .reg R.dmaStatus :: (List.range 16).map (fun n => .reg (R.dmaChnStatus n))

theorem cover_chnState {l : List Rect} {n : Nat} (h : n < 16) : coverAll (l ++ (List.range 16).map (fun n => .reg (R.dmaChnStatus n)))
    (F.dmaChnStatus_state n) = true := by
  have hm : Rect.reg (R.dmaChnStatus n) ∈ l ++ (List.range 16).map (fun n => Rect.reg (R.dmaChnStatus n)) :=
    List.mem_append_right _ (List.mem_map_of_mem (f := fun n => Rect.reg (R.dmaChnStatus n)) (List.mem_range.mpr h))
  exact cover_span (R.dmaChnStatus n) (R.dmaChnStatus n + 1) ⟨le_rfl, Nat.lt_succ_self _⟩ (List.contains_iff_mem.mpr hm)

/-- The channels of an idle DMA, each shown to wait. -/
theorem frame_dmaWait_chans (w : Bool) (s : State) : Frame [.regs] ((List.range 16).map (fun n => .reg (R.dmaChnStatus n))) s
    ((List.range 16).foldl (fun (s : State) ch => if s.fget (F.dmaChnStatus_state ch) = 0 ∨ s.fget (F.dmaChnStatus_state ch) = 3 then
      s.fset (F.dmaChnStatus_state ch) (if w then 3 else 0) else s) s) :=
  Frame.foldl (fun u ch h => Frame.ite (.fset (cover_chnState (l := []) (List.mem_range.mp h))) (.refl u)) s

theorem frame_dmaWait_own (s : State) : Frame [.regs] dmaWaitPlaces s s.dmaWait := by
  have hc (n : Nat) (h : n < 16) : coverAll dmaWaitPlaces (F.dmaChnStatus_state n) = true := cover_chnState (l := [.reg R.dmaStatus]) h
  have h0 : coverAll dmaWaitPlaces ⟨R.dmaStatus, 16, 1⟩ = true := cover_span R.dmaStatus (R.dmaStatus + 1) (by decide)
  unfold State.dmaWait
  exact .trans (.fset h0) (Frame.foldl (fun u ch h => Frame.ite (.fset (hc ch (List.mem_range.mp h))) (.refl u)) _)

/-! What the completion of commands and the start of transfers write. -/

/-- The registers of the ports and rings that show completions, and the states of the DMA channels. -/
abbrev servedPlaces : List Rect := [.fld (F.hostPpStatus_cqFull 0), .fld (F.hostPpStatus_cqFull 1), ⟨R.hostPpCmds 0, 0, 0x40, 0, 32⟩,
  ⟨R.hostChnDone 0, 0, 0x20, 0, 32⟩, ⟨R.dmaChnStatus 0, 0, 0x20, 0, 32⟩, .span 0x14400 0x14800]

theorem cover_steps {W : List Rect} {f : Field} (r o k n : Nat) (hf : f.off = o + n * k) (hr : o = r)
    (hm : autoParam (W.contains ⟨r, 0, k, 0, 32⟩ = true) List.TFAE.out._auto_1)
    (hb : autoParam (Nat.ble (f.lo + f.width) 32 = true) List.TFAE.out._auto_1) : coverAll W f = true := by
  subst hr
  refine List.any_eq_true.mpr ⟨_, List.contains_iff_mem.mp hm, Rect.covers_iff.mpr ⟨Rect.has_iff.mpr ⟨?_, .inl rfl, ?_⟩, Nat.zero_le _, Nat.ble_eq.mp hb⟩⟩
  · dsimp only
    omega
  · rw [hf]
    dsimp only
    rw [Nat.add_sub_cancel_left]
    exact Nat.mul_mod_left ..

theorem frame_compWrites_served (s : State) (q : PendComp) : Frame [.out, .regs, .host] servedPlaces s (s.compWrites q) :=
  Frame.after (frame_obsCount ..).sub <| Frame.after (Frame.bump (cover_steps (R.hostPpCmds 0) _ 0x40 (q.ring / 8) rfl rfl)) <|
    Frame.after (Frame.wr (cover_steps (R.hostChnDone 0) _ 0x20 q.ring rfl rfl)) <|
    Frame.after Frame.host <| Frame.after (Frame.ite Frame.emit (Frame.refl _)) <|
    Frame.after Frame.emit <| Frame.after Frame.emit <| Frame.emit

theorem frame_completeRing_served (n k : Nat) (s : State) : Frame [.out, .regs, .host] servedPlaces s (s.completeRing n k) := by
  induction k generalizing s with
  | zero => exact Frame.refl s
  | succ k ih =>
    unfold State.completeRing
    split
    · exact Frame.refl s
    · split
      · refine Frame.ite (Frame.after (ih _) ?_) <| Frame.ite (Frame.refl s) <| Frame.after Frame.emit (frame_modCmd ..).sub
        exact Frame.after (frame_compWrites_served ..).sub Frame.host
      · exact Frame.after (ih _) <| Frame.after (frame_compWrites_served ..).sub Frame.host

theorem frame_completeAll_served (s : State) : Frame [.out, .regs, .host] servedPlaces s s.completeAll :=
  Frame.after (Frame.foldl (fun u p hp => by
    simp only [List.mem_cons, List.not_mem_nil, or_false] at hp
    rcases hp with rfl | rfl <;> exact Frame.fsetb) _) <| Frame.foldlAll _ (fun _ _ => (frame_completeRing_served ..).sub) _ _

theorem frame_dmaServe_served (n : Nat) (s : State) : Frame [.out, .regs, .host, .dma] servedPlaces s (s.dmaServe n) := by
  have hc (ch lo w : Nat) (hw : lo + w ≤ 32) : coverAll servedPlaces ⟨R.dmaChnStatus ch, lo, w⟩ = true :=
    cover_steps (R.dmaChnStatus 0) _ 0x20 ch rfl rfl rfl (Nat.ble_eq.mpr hw)
  induction n generalizing s with
  | zero => exact Frame.refl s
  | succ n ih =>
    unfold State.dmaServe
    split
    · exact (Frame.after (frame_completeAll_served ..).sub (frame_modCmd ..).sub : Frame [.out, .regs, .host, .dma] servedPlaces s _).trans (ih _)
    · split
      · exact Frame.refl s
      · exact Frame.after (ih _) <| Frame.after (Frame.fset (hc _ _ _ (by decide))) <| Frame.after (Frame.fset (hc _ _ _ (by
          decide))) <| Frame.after (Frame.fset (hc _ _ _ (by decide))) <| Frame.after Frame.dma (frame_modCmd ..).sub

/-! The hook of each block. -/

abbrev anyHookParts : List Part := [.out, .regs, .conf, .island, .acq, .ring, .can, .host, .dma, .time]

abbrev anyHookPlaces : List Rect := hookPlaces ++ [.blk 0xc, .blk 0xe] ++ completeAllPlaces

theorem frame_planHook_any (s : State) : Frame anyHookParts anyHookPlaces s (s.planHook b) := by
  by_cases h12 : b = 12
  · subst h12
    exact Frame.after (frame_dmaGo ..).sub (frame_dmaWait ..).sub
  · by_cases h14 : b = 14
    · subst h14
      exact Frame.after (frame_ptpUpdate ..).sub (frame_useUtcCfg ..).sub
    · exact (frame_planHook s h12 h14).sub

theorem planGenOf_cases {o : Nat} (h : planGenOf b = some o) : b = 3 ∧ o = R.rfxPlanGen ∨ b = 5 ∧ o = R.pairPlanGen ∨
    b = 6 ∧ o = R.dioPlanGen ∨ b = 8 ∧ o = R.acqPlanGen ∨ b = 9 ∧ o = R.ringPlanGen ∨ b = 10 ∧ o = R.canPlanGen ∨ b = 12 ∧ o = R.dmaPlanGen := by
  have hb : b < 13 := by
    by_contra hb
    rw [planGenOf, if_neg (by omega), if_neg (by omega), if_neg (by omega), if_neg (by omega), if_neg (by omega), if_neg (by omega),
      if_neg (by omega)] at h
    cases h
  exact (by decide : ∀ b < 13, ∀ o ∈ planGenOf b, b = 3 ∧ o = R.rfxPlanGen ∨ b = 5 ∧ o = R.pairPlanGen ∨
    b = 6 ∧ o = R.dioPlanGen ∨ b = 8 ∧ o = R.acqPlanGen ∨ b = 9 ∧ o = R.ringPlanGen ∨ b = 10 ∧ o = R.canPlanGen ∨ b = 12 ∧ o = R.dmaPlanGen) b hb o h

theorem gen_apart {o : Nat} (h : planGenOf b = some o) : apartAll pendPlaces ⟨o, 0, 32⟩ = true := by
  obtain ⟨-, rfl⟩ | ⟨-, rfl⟩ | ⟨-, rfl⟩ | ⟨-, rfl⟩ | ⟨-, rfl⟩ | ⟨-, rfl⟩ | ⟨-, rfl⟩ := planGenOf_cases h <;> decide

/-- No hook writes the generation of its own block. -/
theorem gen_planHook {o : Nat} (hw : s.regsWf = true) (h : planGenOf b = some o) : (s.planHook b).rd o = s.rd o := by
  obtain ⟨rfl, rfl⟩ | ⟨rfl, rfl⟩ | ⟨rfl, rfl⟩ | ⟨rfl, rfl⟩ | ⟨rfl, rfl⟩ | ⟨rfl, rfl⟩ | ⟨rfl, rfl⟩ := planGenOf_cases h
  · exact (Frame.after (frame_showIsland_beside _).sub (Frame.after (Frame.wr (off := R.dioPlanGen)) (frame_islandLoad ..).sub) :
      Frame [.regs, .island] (.reg R.dioPlanGen :: islandPlaces) s (s.planHook 3)).rd hw
  · rfl
  · exact (Frame.after (frame_showIsland_beside _).sub (frame_islandLoad ..).sub : Frame [.regs, .island] islandPlaces s (s.planHook 6)).rd hw
  · exact (frame_acqClearHistory s).rd hw
  · have hf : Frame [.regs, .ring, .conf] (besideGen 9) s (s.planHook 9) := by
      unfold State.planHook
      simp only [reduceIte, Nat.reduceEqDiff, or_self]
      split
      · exact Frame.after Frame.wr <| Frame.after Frame.conf (frame_ringActivate_beside ..).sub
      · exact (frame_ringPhy_beside _).sub
    exact hf.rd hw
  · rfl
  · have h1 := frame_dmaWait_own s
    exact ((frame_dmaServe_served _ s.dmaWait).rd (h1.canon hw)).trans (h1.rd hw)

/-! The activation of a plan (R14, R478). -/

/-- The state in which a plan is put into force: its agreement used, and the bit timings of CAN taken. -/
def State.planReady (s : State) (b : Nat) : State := (if b = blkCan then s.takeTiming else s).agreementUsed b

/-- The pending group in force. -/
def State.planTaken (s : State) (b : Nat) : State := ((s.takeGroup b).pendClear b).genUp b

theorem planRefused_agreementUsed : (s.agreementUsed b).planRefused b = s.planRefused b := rfl

section
variable {a : List (Nat × W32)} {x : Nat} {o : List Item}

theorem canObjs_act : ({ s with act := a } : State).canObjs x = s.canObjs x := rfl

theorem canItems_act : ({ s with act := a } : State).canItems x = s.canItems x := by
  rw [State.canItems, canObjs_act]
  rfl

theorem xchItems_act : ({ s with act := a } : State).xchItems x = s.xchItems x := rfl

theorem canPlanOk_act : ({ s with act := a } : State).canPlanOk x o = s.canPlanOk x o := by
  rw [State.canPlanOk, canItems_act, canObjs_act]
  rfl

theorem planRefused_act : ({ s with act := a } : State).planRefused blkCan = s.planRefused blkCan := by
  have h (u : State) : u.planRefused blkCan = !u.canPlanOk (canAreaOf (u.rd R.canPlanArea)) (u.xchItems u.bank ++ u.ringNow) := rfl
  rw [h, h, canPlanOk_act, xchItems_act]
  rfl

end

theorem planRefused_takeTiming : s.takeTiming.planRefused blkCan = s.planRefused blkCan := by
  have h1 : (if s.applyPend blkCan ∨ s.timingPend = [] then s else s.agreementUsed blkCan).planRefused blkCan = s.planRefused blkCan := by
    split <;> rfl
  rw [← h1, State.takeTiming]
  exact planRefused_act

theorem planRefused_planReady : (s.planReady b).planRefused b = s.planRefused b := by
  rw [State.planReady, planRefused_agreementUsed]
  split
  next h =>
    subst h
    exact planRefused_takeTiming
  next => rfl

theorem frame_planReady : Frame [.act, .pair] [] s (s.planReady b) :=
  .trans (.ite (frame_takeTiming s) (.refl s)) (frame_agreementUsed ..).sub

theorem planActivate_activates (hw : s.regsWf = true) (hm : s.fbit F.sysStatus_mcFailed = false) (hp : s.applyPend b = true) (hr : s.planRefused b = false) :
    s.planActivate b = (((s.planReady b).planTaken b).planHook b).tellPlans := by
  have hp2 : (if b = blkCan then s.takeTiming else s).applyPend b = true := by
    split
    · rw [State.applyPend, (frame_takeTiming s).rd hw]
      exact hp
    · exact hp
  have hr2 : (s.planReady b).planRefused b = false := planRefused_planReady.trans hr
  rw [State.planActivate, hm, if_neg Bool.false_ne_true]
  rw [State.planReady] at hr2 ⊢
  generalize (if b = blkCan then s.takeTiming else s) = u at *
  dsimp only
  rw [hp2, Bool.not_true, if_neg Bool.false_ne_true, hr2, if_neg Bool.false_ne_true]
  rfl

/-- What the activation of a plan leaves. -/
structure Activated (s t : State) (b : Nat) : Prop where
  taken : ∀ off, off / 0x1000 = b → isRws off = true → t.actv off = s.rd off
  others : ∀ off, (off / 0x1000 ≠ b ∨ isRws off = false) → (b = 10 → isTiming off = false) → t.actv off = s.actv off
  apply : (t.rd R.sysApplyPend).getLsbD b = false
  shadow : (t.rd R.sysShadowPend).getLsbD b = false
  gen : ∀ o, planGenOf b = some o → t.rd o = s.rd o + 1
  mem : t.mem = s.mem

theorem getLsbD_pendClear (hw : s.regsWf = true) (hb : b < 22) : ((s.pendClear b).rd R.sysApplyPend).getLsbD b = false ∧
    ((s.pendClear b).rd R.sysShadowPend).getLsbD b = false := by
  have hw1 : (s.fset ⟨R.sysShadowPend, b, 1⟩ 0).regsWf = true := regsWf_fset hw
  have h1 (u : State) (o : Nat) (hu : u.regsWf = true) : ((u.fset ⟨o, b, 1⟩ 0).rd o).getLsbD b = false := by
    have hlt := setFldN_lt (u.rd o).toNat b 1 0 32 (u.rd o).isLt (by omega)
    rw [rd_fset (f := ⟨o, b, 1⟩) hu, BitVec.getLsbD, BitVec.toNat_ofNat, Nat.mod_eq_of_lt hlt, testBit_setFldN]
    simp
  rw [State.pendClear]
  refine ⟨h1 _ _ hw1, ?_⟩
  rw [rd_fset_ne (show R.sysShadowPend ≠ R.sysApplyPend by decide)]
  exact h1 _ _ hw

theorem actv_planReady (hw : s.regsWf = true) {off : Nat} (h : b = 10 → isTiming off = false) : (s.planReady b).actv off = s.actv off := by
  rw [State.planReady]
  show (if b = blkCan then s.takeTiming else s).actv off = _
  split
  next hb =>
    have h1 : (if s.applyPend blkCan ∨ s.timingPend = [] then s else s.agreementUsed blkCan).actv off = s.actv off := by split <;> rfl
    have hw1 : (if s.applyPend blkCan ∨ s.timingPend = [] then s else s.agreementUsed blkCan).regsWf = true := by split <;> exact hw
    rw [State.takeTiming]
    generalize (if s.applyPend blkCan ∨ s.timingPend = [] then s else s.agreementUsed blkCan) = u at *
    rw [actv_act_scopy hw1, if_neg (by rw [h hb, Bool.false_and]; decide), h1]
  next => rfl

theorem activated_planActivate (hw : s.regsWf = true) (hb : b < 22) (hm : s.fbit F.sysStatus_mcFailed = false) (hp : s.applyPend b = true)
    (hr : s.planRefused b = false) : Activated s (s.planActivate b) b := by
  rw [planActivate_activates hw hm hp hr]
  have hf0 := frame_planReady (s := s) (b := b)
  have hw0 := hf0.canon hw
  have ha0 (off : Nat) := actv_planReady (b := b) (off := off) hw
  have hr0 (o : Nat) : (s.planReady b).rd o = s.rd o := hf0.rd hw
  have hm0 : (s.planReady b).mem = s.mem := hf0.part .mem (by decide)
  generalize s.planReady b = u at *
  have hft : Frame [.act] [] u (u.takeGroup b) := frame_takeGroup ..
  have hwt := hft.canon hw0
  have hpc := getLsbD_pendClear (b := b) hwt hb
  have hfp := frame_pendClear (u.takeGroup b) b (by omega)
  have hwp := hfp.canon hwt
  have hfg := frame_genUp ((u.takeGroup b).pendClear b) b
  have hwg : (u.planTaken b).regsWf = true := hfg.canon hwp
  have hfh := frame_planHook_any (s := u.planTaken b) (b := b)
  have hfe := frame_tellPlans ((u.planTaken b).planHook b)
  have hwh := hfh.canon hwg
  have hact : (((u.planTaken b).planHook b).tellPlans).act = (u.takeGroup b).act := by
    rw [hfe.part .act (by decide), hfh.part .act (by decide), State.planTaken, hfg.part .act (by decide), hfp.part .act (by decide)]
  have hactv (off : Nat) : (((u.planTaken b).planHook b).tellPlans).actv off = if off / 0x1000 == b && isRws off then u.rd off else u.actv off := by
    rw [State.actv, hact]
    exact actv_act_scopy hw0
  have hsys {o : Nat} (ho : o = R.sysApplyPend ∨ o = R.sysShadowPend) : (((u.planTaken b).planHook b).tellPlans).rd o =
      ((u.takeGroup b).pendClear b).rd o := by
    obtain rfl | rfl := ho
    · rw [hfe.rd hwh, hfh.rd hwg, State.planTaken, hfg.rd hwp]
    · rw [hfe.rd hwh, hfh.rd hwg, State.planTaken, hfg.rd hwp]
  refine ⟨fun off h1 h2 => ?_, fun off h1 h2 => ?_, ?_, ?_, fun o ho => ?_, ?_⟩
  · rw [hactv, h2, beq_iff_eq.mpr h1, Bool.and_self, if_pos rfl, hr0]
  · rw [hactv, if_neg, ha0 off h2]
    rw [Bool.and_eq_true, beq_iff_eq]
    exact fun hc => h1.elim (fun h => h hc.1) (fun h => Bool.false_ne_true (h.symm.trans hc.2))
  · rw [hsys (.inl rfl)]
    exact hpc.1
  · rw [hsys (.inr rfl)]
    exact hpc.2
  · have ho1 : ((u.takeGroup b).pendClear b).rd o = u.rd o := by
      rw [hfp.rd hwt (gen_apart ho)]
      exact hft.rd hw0
    rw [hfe.rd hwh, gen_planHook hwg ho, State.planTaken, State.genUp, ho]
    dsimp only
    rw [rd_wr_self hwp, ho1, hr0]
  · rw [hfe.part .mem (by decide), hfh.part .mem (by decide), State.planTaken, hfg.part .mem (by decide), hfp.part .mem (by decide)]
    exact hm0

/-! The requests (R10, R477). -/

theorem exec_blockApply_writes {m : Master} {b : Fin 22} (ha : hasApply b.val = true) (hs : s.writes m (b.val * 0x1000 + 0xC)) :
    exec (.blockApply m b plan) s = .next (s.applyBlock b.val plan) := by
  have he : exec (.blockApply m b plan) s = if hasApply b.val then s.asWrite m (b.val * 0x1000 + 0xC) (fun s => s.applyBlock b.val plan)
      else .next s := rfl
  rw [he, if_pos ha]
  exact asWrite_writes (f := fun s => s.applyBlock b.val plan) hs

theorem applyBlock_ignored (h15 : b ≠ 15) (h21 : b ≠ blkPwr) (hp : s.applyPend b = true) : s.applyBlock b plan = s.bump (b * 0x1000 + 0x10) := by
  rw [State.applyBlock, if_neg h21, if_pos hp, ignoredIn_eq h15]

/-- A group pending. -/
def State.pends (s : State) (b : Nat) : State := s.fset ⟨R.sysApplyPend, b, 1⟩ 1

/-- The exchange plan that RING keeps. -/
def State.keepsPlan (s : State) (b : Nat) (plan : Option RingPlan) : State :=
  if b = blkRing ∧ s.fbit F.sysStatus_mcRun then { s with conf := { s.conf with ring := plan.orElse (fun _ => s.conf.ring) } } else s

theorem frame_pends (hb : b < 22) : Frame [.regs] [.reg R.sysApplyPend] s (s.pends b) :=
  .fset (cover_span R.sysApplyPend (R.sysApplyPend + 1) ⟨le_rfl, Nat.lt_succ_self _⟩ rfl (Nat.ble_eq.mpr (by dsimp only; omega)))

theorem frame_keepsPlan : Frame [.conf] [] s (s.keepsPlan b plan) := .ite .conf (.refl s)

theorem applyBlock_pends (h21 : b ≠ blkPwr) (hp : s.applyPend b = false) : s.applyBlock b plan =
    if b = 16 ∨ b = 18 then ((s.pends b).keepsPlan b plan).planActivate b else if b = blkDma then ((s.pends b).keepsPlan b plan).dmaWait
      else (s.pends b).keepsPlan b plan := by
  rw [State.applyBlock, if_neg h21, hp, if_neg Bool.false_ne_true]
  rfl

/-- A group pending, of any block that waits for a safe point. -/
theorem pends_shows (hw : s.regsWf = true) (hb : b < 22) :
    let t := (s.pends b).keepsPlan b plan
    (t.rd R.sysApplyPend).getLsbD b = true ∧ keepsRegs [R.sysApplyPend] s t ∧ t.act = s.act ∧ t = { s with regs := t.regs, conf := t.conf } ∧
      (b ≠ 9 → t.conf = s.conf) ∧ (b = 9 → s.fbit F.sysStatus_mcRun = true → plan.isSome → t.conf.ring = plan) := by
  have hf1 := frame_pends (s := s) hb
  have hw1 := hf1.canon hw
  have hf2 := frame_keepsPlan (s := s.pends b) (b := b) (plan := plan)
  have hf : Frame [.regs, .conf] [.reg R.sysApplyPend] s ((s.pends b).keepsPlan b plan) := .trans hf1.sub hf2.sub
  refine ⟨?_, hf.keepsRegs hw, hf.part .act (by decide), hf.eq_patch, fun h9 => ?_, fun h9 hm hp => ?_⟩
  · rw [hf2.rd hw1, State.pends, getLsbD_fset_one hw (by omega), decide_eq_true rfl]
    rfl
  · rw [State.keepsPlan, if_neg fun hc => h9 hc.1]
    rfl
  · have hm1 : (s.pends b).fbit F.sysStatus_mcRun = true := by rw [hf1.fbit hw, hm]
    obtain ⟨p, rfl⟩ := Option.isSome_iff_exists.mp hp
    rw [State.keepsPlan, if_pos ⟨h9, hm1⟩]
    rfl

/-- The DMA waiting for its plan. -/
theorem dmaWait_shows (hw : s.regsWf = true) (h : (s.rd R.sysApplyPend).getLsbD 12 = true) :
    s.dmaWait.fbit ⟨R.dmaStatus, 16, 1⟩ = true ∧ ∀ ch : Fin 16, s.fget (F.dmaChnStatus_state ch) = 0 → s.dmaWait.fget (F.dmaChnStatus_state ch) = 3 := by
  refine ⟨?_, fun ch hc => ?_⟩
  · have hw1 : (s.fset ⟨R.dmaStatus, 16, 1⟩ 1).regsWf = true := regsWf_fset hw
    have he : s.dmaWait = (List.range 16).foldl (fun (s : State) ch =>
        if s.fget (F.dmaChnStatus_state ch) = 0 ∨ s.fget (F.dmaChnStatus_state ch) = 3 then
          s.fset (F.dmaChnStatus_state ch) (if true then 3 else 0) else s) (s.fset ⟨R.dmaStatus, 16, 1⟩ 1) := by
      rw [State.dmaWait, h]
      rfl
    rw [he, (frame_dmaWait_chans true _).fbit hw1]
    exact (fbit_fset hw (by decide)).trans rfl
  · rw [fget_dmaWait_state hw ch.isLt hc, dmaRest, if_pos h]

end Sys2Proof.Machine
end

section
/-! The settlement of the statement of plans. -/

namespace Sys2Proof.Machine

variable {s t : State} {m : Master} {b : Fin 22} {plan : Option RingPlan}

/-- The blocks whose group waits for a safe point. -/
abbrev waitingBlocks : List (Fin 22) := [1, 2, 3, 4, 5, 6, 7, 8, 9, 10, 12, 13, 14, 17, 20]

theorem hasApply_waiting : ∀ b ∈ waitingBlocks ++ [16, 18], hasApply b.val = true ∧ b.val ≠ 15 ∧ b.val ≠ blkPwr := by decide

theorem waits_waiting : ∀ b ∈ waitingBlocks, ¬ (b.val = 16 ∨ b.val = 18) := by decide

theorem mem_waiting (h : b ∈ waitingBlocks) : b ∈ waitingBlocks ++ [16, 18] := List.mem_append_left _ h

/-- The group of DMA pending. -/
theorem pends_dma (hw : s.regsWf = true) :
    let t := ((s.pends 12).keepsPlan 12 plan).dmaWait
    (t.rd R.sysApplyPend).getLsbD 12 = true ∧ (t.fbit ⟨R.dmaStatus, 16, 1⟩ = true ∧
      keepsRegs (R.sysApplyPend :: R.dmaStatus :: (List.range 16).map R.dmaChnStatus) s t ∧
      ∀ ch : Fin 16, s.fget (F.dmaChnStatus_state ch) = 0 → t.fget (F.dmaChnStatus_state ch) = 3) ∧
      t.act = s.act ∧ t = { s with regs := t.regs, conf := t.conf } ∧ t.conf = s.conf := by
  obtain ⟨h1, h2, h3, -, h5, -⟩ := pends_shows (b := 12) (plan := plan) hw (by decide)
  have hf1 := frame_pends (s := s) (b := 12) (by decide)
  have hf2 := frame_keepsPlan (s := s.pends 12) (b := 12) (plan := plan)
  have hf : Frame [.regs, .conf] [.reg R.sysApplyPend] s ((s.pends 12).keepsPlan 12 plan) := .trans hf1.sub hf2.sub
  have hst (ch : Fin 16) : ((s.pends 12).keepsPlan 12 plan).fget (F.dmaChnStatus_state ch) = s.fget (F.dmaChnStatus_state ch) :=
    hf.fget hw ((by decide : ∀ ch : Fin 16, apartAll [.reg R.sysApplyPend] (F.dmaChnStatus_state ch) = true) ch)
  have hwu := hf.canon hw
  generalize (s.pends 12).keepsPlan 12 plan = u at *
  have hfd := frame_dmaWait_own u
  obtain ⟨d1, d2⟩ := dmaWait_shows hwu h1
  refine ⟨by rw [(frame_dmaWait u).rd hwu]; exact h1, ⟨d1, fun o ho => ?_, fun ch hc => d2 ch ((hst ch).trans hc)⟩,
    (hfd.part .act (by decide)).trans h3, (.trans hf.sub hfd.sub : Frame [.regs, .conf] (.reg R.sysApplyPend :: dmaWaitPlaces) s u.dmaWait).eq_patch,
    (hfd.part .conf (by decide)).trans (h5 (by decide))⟩
  obtain ⟨h1, h2'⟩ := not_or.mp (fun h => ho (List.mem_cons.mpr h))
  have hk : keepsRegs (R.dmaStatus :: (List.range 16).map R.dmaChnStatus) u u.dmaWait := hfd.keepsRegs hwu
  rw [hk o h2', h2 o fun hc => h1 (List.mem_singleton.mp hc)]

theorem blockApply_waits (hw : s.regsWf = true) (hs : s.writes m (b.val * 0x1000 + 0xC)) (hb : b ∈ waitingBlocks)
    (hp : (s.rd R.sysApplyPend).getLsbD b.val = false) : ∃ t, exec (.blockApply m b plan) s = .next t ∧
        (t.rd R.sysApplyPend).getLsbD b.val = true ∧ (b ≠ 12 → keepsRegs [R.sysApplyPend] s t) ∧
        (b = 12 → t.fbit ⟨R.dmaStatus, 16, 1⟩ = true ∧
          keepsRegs (R.sysApplyPend :: R.dmaStatus :: (List.range 16).map R.dmaChnStatus) s t ∧
          ∀ ch : Fin 16, s.fget (F.dmaChnStatus_state ch) = 0 → t.fget (F.dmaChnStatus_state ch) = 3) ∧ t.act = s.act ∧
        t = { s with regs := t.regs, conf := t.conf } ∧ (b ≠ 9 → t.conf = s.conf) ∧
        (b = 9 → s.fbit F.sysStatus_mcRun = true → plan.isSome → t.conf.ring = plan) := by
  obtain ⟨ha, -, h21⟩ := hasApply_waiting b (mem_waiting hb)
  have hx := exec_blockApply_writes (plan := plan) ha hs
  rw [applyBlock_pends h21 hp, if_neg (waits_waiting b hb)] at hx
  obtain ⟨h1, h2, h3, h4, h5, h6⟩ := pends_shows (plan := plan) hw b.isLt
  have hne {c : Fin 22} (h : b ≠ c) : b.val ≠ c.val := fun hc => h (Fin.ext hc)
  by_cases h12 : b = 12
  · subst h12
    rw [if_pos (show ((12 : Fin 22) : Nat) = blkDma from rfl)] at hx
    obtain ⟨d1, d2, d3, d4, d5⟩ := pends_dma (plan := plan) hw
    exact ⟨_, hx, d1, fun h => absurd rfl h, fun _ => d2, d3, d4, fun _ => d5, fun h => absurd h (by decide)⟩
  · rw [if_neg (show ¬ b.val = blkDma from hne h12)] at hx
    exact ⟨_, hx, h1, fun _ => h2, fun h => absurd h h12, h3, h4, fun h => h5 (hne h), fun h => h6 (congrArg Fin.val h)⟩

/-- The groups of MEM and REC. -/
theorem blockApply_takes (hw : s.regsWf = true) (hs : s.writes m (b.val * 0x1000 + 0xC)) (hb : b ∈ ([16, 18] : List (Fin 22)))
    (hp : (s.rd R.sysApplyPend).getLsbD b.val = false) (hm : s.fbit F.sysStatus_mcFailed = false) :
    ∃ t, exec (.blockApply m b plan) s = .next t ∧
      (∀ off, off / 0x1000 = b.val → isRws off = true → t.actv off = s.rd off) ∧
      (∀ off, (off / 0x1000 ≠ b.val ∨ isRws off = false) → t.actv off = s.actv off) ∧
      (t.rd R.sysApplyPend).getLsbD b.val = false ∧ (t.rd R.sysShadowPend).getLsbD b.val = false ∧ t.mem = s.mem := by
  have hv : b.val = 16 ∨ b.val = 18 := (by decide : ∀ b ∈ ([16, 18] : List (Fin 22)), b.val = 16 ∨ b.val = 18) b hb
  obtain ⟨ha, -, h21⟩ := hasApply_waiting b (List.mem_append_right _ hb)
  have hx := exec_blockApply_writes (plan := plan) ha hs
  rw [applyBlock_pends h21 hp, if_pos hv] at hx
  obtain ⟨h1, h2, h3, -⟩ := pends_shows (plan := plan) hw b.isLt
  have hf1 := frame_pends (s := s) b.isLt
  have hf2 := frame_keepsPlan (s := s.pends b.val) (b := b.val) (plan := plan)
  have hf : Frame [.regs, .conf] [.reg R.sysApplyPend] s ((s.pends b.val).keepsPlan b.val plan) := .trans hf1.sub hf2.sub
  have hwu := hf.canon hw
  have hmu : ((s.pends b.val).keepsPlan b.val plan).fbit F.sysStatus_mcFailed = false := (hf.fbit hw).trans hm
  have hmem : ((s.pends b.val).keepsPlan b.val plan).mem = s.mem := hf.part .mem (by decide)
  have hr : ((s.pends b.val).keepsPlan b.val plan).planRefused b.val = false := by
    obtain h | h := hv <;> rw [h] <;> rfl
  refine ⟨_, hx, ?_⟩
  have ha0 (off : Nat) : ((s.pends b.val).keepsPlan b.val plan).actv off = s.actv off := by rw [State.actv, h3, State.actv]
  generalize (s.pends b.val).keepsPlan b.val plan = u at *
  obtain ⟨a1, a2, a3, a4, -, a6⟩ := activated_planActivate hwu b.isLt hmu h1 hr
  refine ⟨fun off ho hi => ?_, fun off ho => ?_, a3, a4, a6.trans hmem⟩
  · rw [a1 off ho hi]
    refine h2 off fun hc => ?_
    rw [List.mem_singleton.mp hc] at ho
    obtain h | h := hv <;> rw [h] at ho <;> exact absurd ho (by decide)
  · rw [a2 off ho fun h => ?_, ha0]
    obtain h' | h' := hv <;> rw [h'] at h <;> exact absurd h (by decide)

theorem exec_planActivation_active (hs : s.safePoint b.val = true) (ha : s.agreedNow b.val = true) :
    exec (.planActivation b) s = .next (s.planActivate b.val) := by
  have he : exec (.planActivation b) s = s.when (s.safePoint b.val && s.agreedNow b.val) (s.planActivate b.val) := rfl
  rw [he, hs, ha]
  exact when_pos rfl

/-- A block other than CAN with nothing pending activates nothing. -/
theorem planActivate_idle {b : Nat} (hb : b ≠ 10) (hp : s.applyPend b = false) : s.planActivate b = s := by
  have hc : ¬ b = blkCan := hb
  rw [State.planActivate]
  simp only [if_neg hc, hp, Bool.not_false, if_true, ite_self]

theorem exec_planActivation_idle (h : s.safePoint b.val = false ∨ s.agreedNow b.val = false ∨
    (b ≠ 10 ∧ (s.rd R.sysApplyPend).getLsbD b.val = false)) : exec (.planActivation b) s = .next s := by
  have he : exec (.planActivation b) s = s.when (s.safePoint b.val && s.agreedNow b.val) (s.planActivate b.val) := rfl
  rw [he]
  obtain h | h | ⟨hb, hp⟩ := h
  · rw [h]
    exact when_neg rfl
  · rw [h, Bool.and_false]
    exact when_neg rfl
  · rw [planActivate_idle (fun hc => hb (Fin.ext hc)) hp, State.when, ite_self]

/-! The statement. -/

/-- Settles O21: a request leaves its group pending, and an activation takes the whole group. -/
theorem plans : Obligations.Plans := by
  unfold Obligations.Plans
  refine ⟨fun m b plan s hw hs => ⟨fun hb hp => ?_, fun hb hp => blockApply_waits hw hs hb hp, fun hb hp hm => blockApply_takes hw hs hb hp hm⟩,
    fun b s hw => ⟨fun hb hm hp hsp ha hr => ?_, exec_planActivation_idle⟩⟩
  · obtain ⟨ha, h15, h21⟩ := hasApply_waiting b hb
    refine ignored_of hw ?_
    rw [exec_blockApply_writes ha hs, applyBlock_ignored h15 h21 hp]
  · obtain ⟨a1, a2, a3, a4, a5, -⟩ := activated_planActivate hw b.isLt hm hp hr
    exact ⟨_, exec_planActivation_active hsp ha, a1, fun off h1 h2 => a2 off h1 fun h => h2 (Fin.ext h), a3, a4, a5⟩

end Sys2Proof.Machine
end

section
/-! Packages checked, reported and loaded, and the carry-over (R171 to R173, R177, R186, R378). -/

namespace Sys2Proof.Machine

variable {s t u : State} {m : Mem}

/-! The reflex image copied to the engines' locals (R157). -/

theorem bytes_heal {w : Nat} : (m.heal w).bytes = m.bytes := rfl

theorem byte_copySpan_outside {src dst n a : Nat} (h : ¬ (dst ≤ a ∧ a < dst + n)) : (m.copySpan src dst n).byte a = m.byte a := by
  have hb (l : List Nat) (m : Mem) : (l.foldl Mem.heal m).bytes = m.bytes := by
    induction l generalizing m with
    | nil => rfl
    | cons w l ih => exact (ih _).trans bytes_heal
  have hw (l : List Host.Cell) (d : List Host.Cell) (hl : ∀ e ∈ l, src ≤ e.1 ∧ e.1 < src + n) :
      sget (fun _ => (0 : Byte)) (l.foldl (fun b e => sset (fun _ => 0) b (e.1 - src + dst) e.2) d) a = sget (fun _ => 0) d a := by
    induction l generalizing d with
    | nil => rfl
    | cons e l ih =>
      rw [List.foldl_cons, ih _ fun x hx => hl x (List.mem_cons_of_mem _ hx)]
      have he := hl e List.mem_cons_self
      exact sget_sset_ne _ _ _ _ _ (by omega)
  rw [Mem.copySpan, Mem.byte, hb]
  dsimp only
  rw [hw _ _ fun e he => ?_, sget_filter (fun _ => (0 : Byte)) (fun k => !(decide (dst ≤ k) && decide (k < dst + n)))]
  · refine if_pos ?_
    simp only [Bool.not_eq_true', Bool.and_eq_false_iff, decide_eq_false_iff_not]
    omega
  · have := (List.mem_filter.mp he).2
    simpa using this

theorem byte_rfxLoad {b k a : Nat} (hk : k ≤ 1) (ha : regionOf a ≠ some .reflex) : (s.rfxLoad b k).mem.byte a = s.mem.byte a := by
  have hr : ¬ (0x04800000 ≤ a ∧ a ≤ 0x049FFFFF) := fun h => ha (by
    rw [regionOf, if_neg (by omega), if_neg (by omega), if_neg (by omega), if_neg (by omega), if_pos h.2])
  rw [State.rfxLoad]
  dsimp only
  have hl (l : List Nat) (hl : ∀ e ∈ l, e < 4) (src n : Nat) (hn : n ≤ 0x2000) (m : Mem) :
      (l.foldl (fun m e => m.copySpan src (rfxSlotBase e k) n) m).byte a = m.byte a := by
    induction l generalizing m with
    | nil => rfl
    | cons e l ih =>
      rw [List.foldl_cons, ih fun x hx => hl x (List.mem_cons_of_mem _ hx)]
      have he := hl e List.mem_cons_self
      refine byte_copySpan_outside ?_
      rw [rfxSlotBase, rfxLocal]
      omega
  exact hl _ (by decide) _ _ (by omega) _

/-! The check of a package (R172, R173). -/

/-- The report to the partner of a pair. -/
def State.reports (s : State) (ok : Bool) : State := if s.inPair then s.send (.pkgReport (s.bankDigest s.idle) ok) else s

/-- The times of the carry-over shown. -/
def State.tcoShown (s : State) : State :=
  (s.wr R.olcTco (BitVec.ofNat 32 ((s.tco8 s.bank s.idle + 7) / 8))).wr R.olcTcoLimit (BitVec.ofNat 32 s.tcoLimit)

/-- A package refused. -/
def State.pkgRefuse (s : State) (code arg : Nat) : State := ((s.setPkg pkgRefused).fsetb F.olcStatus_pairReady false).olcCode code arg

/-- A package CHECKED, with what MC makes of its plans. -/
def State.pkgPass (s : State) (p : PlanSet) : State := { s.setPkg pkgChecked with olc := { s.olc with plans := p } }

theorem checkPackage_refuses {plans : Option PlanSet} {code arg : Nat} (h : s.pkgCheck plans = some (code, arg)) :
    s.checkPackage plans = (((s.tcoShown.pkgRefuse code arg).reports false).showBanks).countForces := by
  unfold State.checkPackage
  rw [h]
  rfl

theorem checkPackage_passes {plans : Option PlanSet} (h : s.pkgCheck plans = none) :
    s.checkPackage plans = ((((s.tcoShown.pkgPass (plans.getD {})).rfxPrepare).reports true).pairCheck).showBanks.countForces := by
  unfold State.checkPackage
  rw [h]
  rfl

theorem exec_packageCheckDone_checking {plans : Option PlanSet} (h : s.fget F.olcStatus_pkgState = 2) :
    exec (.packageCheckDone plans) s = .next (s.checkPackage plans) := when_pos (beq_iff_eq.mpr h)

theorem frame_tcoShown : Frame [.regs] [.reg R.olcTco, .reg R.olcTcoLimit] s s.tcoShown := .trans .wr .wr

theorem frame_reports {ok : Bool} : Frame [.out, .pair] [] s (s.reports ok) := .ite .send (.refl s)

abbrev bankPlaces : List Rect := [.reg R.olcActIdLo, .reg (R.olcActIdLo + 4), .reg R.olcActVer, .fld F.olcStatus_patched, .reg R.olcPendIdLo,
  .reg (R.olcPendIdLo + 4), .reg R.olcPendVer, .reg R.olcForces, .reg R.olcConflicts, .fld F.olcStatus_forceConflict]

/-- What the end of a check shows of the banks and the forces. -/
theorem frame_banksShown : Frame [.regs] bankPlaces s (s.showBanks.countForces) :=
  .after (frame_forcesCounted _).sub <| .after (.ite (.refl _) (.after .wr .wr64)) <| .after .fsetb <| .after .wr .wr64

abbrev refusePlaces : List Rect := [.fld F.olcStatus_pkgState, .fld F.olcStatus_pairReady, .reg R.olcRefuse, .reg R.olcRefuseArg]

theorem frame_pkgRefuse {code arg : Nat} : Frame [.regs, .recd] refusePlaces s (s.pkgRefuse code arg) :=
  .trans (.trans (frame_setPkg ..).sub .fsetb) (frame_olcCode ..).sub

theorem pkgRefuse_shows {code arg : Nat} (hw : s.regsWf = true) : (s.pkgRefuse code arg).fget F.olcStatus_pkgState = 4 ∧
    (s.pkgRefuse code arg).fbit F.olcStatus_pairReady = false ∧ (s.pkgRefuse code arg).rd R.olcRefuse = BitVec.ofNat 32 code ∧
    (s.pkgRefuse code arg).rd R.olcRefuseArg = BitVec.ofNat 32 arg := by
  have hw1 : (s.setPkg pkgRefused).regsWf = true := regsWf_fset hw
  have hw2 : ((s.setPkg pkgRefused).fsetb F.olcStatus_pairReady false).regsWf = true := regsWf_fsetb hw1
  have hf := frame_olcCode ((s.setPkg pkgRefused).fsetb F.olcStatus_pairReady false) code arg
  rw [State.pkgRefuse]
  refine ⟨?_, ?_, ?_, ?_⟩
  · rw [hf.fget hw2, (.fsetb : Frame [.regs] [.fld F.olcStatus_pairReady] (s.setPkg pkgRefused) _).fget hw1]
    exact setPkg_shows hw (by decide)
  · rw [hf.fbit hw2]
    exact fbit_fsetb hw1 (by decide) rfl
  · rw [State.olcCode, rd_raise, rd_wr_ne (by decide), rd_wr_self hw2]
  · rw [State.olcCode, rd_raise, rd_wr_self (regsWf_wr hw2)]

theorem packageCheckDone_refuses {plans : Option PlanSet} {code arg : Nat} (hw : s.regsWf = true) (h : s.fget F.olcStatus_pkgState = 2)
    (hc : s.pkgCheck plans = some (code, arg)) : ∃ t, exec (.packageCheckDone plans) s = .next t ∧ t.fget F.olcStatus_pkgState = 4 ∧
      t.fbit F.olcStatus_pairReady = false ∧ t.rd R.olcRefuse = BitVec.ofNat 32 code ∧ t.rd R.olcRefuseArg = BitVec.ofNat 32 arg ∧
      t.mem = s.mem ∧ t.olc = s.olc := by
  refine ⟨_, exec_packageCheckDone_checking h, ?_⟩
  rw [checkPackage_refuses hc]
  have hw1 := frame_tcoShown.canon hw
  obtain ⟨h1, h2, h3, h4⟩ := pkgRefuse_shows (code := code) (arg := arg) hw1
  have hf2 : Frame [.regs, .recd] (.reg R.olcTco :: .reg R.olcTcoLimit :: refusePlaces) s (s.tcoShown.pkgRefuse code arg) :=
    .trans frame_tcoShown.sub frame_pkgRefuse.sub
  have hw2 := hf2.canon hw
  have hm := hf2.part .mem (by decide)
  have ho := hf2.part .olc (by decide)
  generalize s.tcoShown.pkgRefuse code arg = x at *
  have hf : Frame [.out, .pair, .regs] bankPlaces x (((x.reports false).showBanks).countForces) := .trans frame_reports.sub frame_banksShown.sub
  exact ⟨(hf.fget hw2).trans h1, (hf.fbit hw2).trans h2, (hf.rd hw2).trans h3, (hf.rd hw2).trans h4, (hf.part .mem (by decide)).trans hm,
    (hf.part .olc (by decide)).trans ho⟩

theorem frame_rfxPrepare : Frame [.regs, .mem] [.fld F.rfxStatus_exchPend] s s.rfxPrepare :=
  .ite (.refl s) (.trans (frame_rfxLoad ..).sub .fset)

theorem byte_rfxPrepare {a : Nat} (ha : regionOf a ≠ some .reflex) : s.rfxPrepare.mem.byte a = s.mem.byte a := by
  rw [State.rfxPrepare]
  split
  · rfl
  · exact byte_rfxLoad (by omega) ha

theorem pairCheck_unreported (hp : s.pkgState = pkgChecked) (h : s.olc.partnerPkg = none) : s.pairCheck = s.fsetb F.olcStatus_pairReady false := by
  rw [State.pairCheck, if_neg (fun hc => hc hp), h]

theorem frame_pkgPass {p : PlanSet} : Frame [.regs, .olc] [.fld F.olcStatus_pkgState] s (s.pkgPass p) := .trans (frame_setPkg ..).sub .olc

theorem pkgPass_shows {p : PlanSet} (hw : s.regsWf = true) : (s.pkgPass p).pkgState = 3 ∧ (s.pkgPass p).olc = { s.olc with plans := p } :=
  ⟨setPkg_shows hw (by decide), rfl⟩

theorem packageCheckDone_passes {plans : Option PlanSet} (hw : s.regsWf = true) (h : s.fget F.olcStatus_pkgState = 2)
    (hc : s.pkgCheck plans = none) (hp : s.olc.partnerPkg = none) :
    ∃ t, exec (.packageCheckDone plans) s = .next t ∧ t.fget F.olcStatus_pkgState = 3 ∧ t.fbit F.olcStatus_pairReady = false ∧
      t.olc.plans = plans.getD {} ∧ t.bank = s.bank ∧ (∀ a, regionOf a ≠ some .reflex → t.mem.byte a = s.mem.byte a) := by
  refine ⟨_, exec_packageCheckDone_checking h, ?_⟩
  rw [checkPackage_passes hc]
  have hw1 := frame_tcoShown.canon hw
  have hf1 : Frame [.regs, .olc] [.reg R.olcTco, .reg R.olcTcoLimit, .fld F.olcStatus_pkgState] s (s.tcoShown.pkgPass (plans.getD {})) :=
    .trans frame_tcoShown.sub frame_pkgPass.sub
  have hot : s.tcoShown.olc = s.olc := frame_tcoShown.part .olc (by decide)
  obtain ⟨h1, ho1⟩ := pkgPass_shows (p := plans.getD {}) hw1
  rw [hot] at ho1
  have hm1 := hf1.part .mem (by decide)
  have hb1 := bank_of_frame hf1 hw rfl
  have hw2 := hf1.canon hw
  generalize s.tcoShown.pkgPass (plans.getD {}) = x at *
  have hf2 : Frame [.regs, .mem, .out, .pair] [.fld F.rfxStatus_exchPend] x ((x.rfxPrepare).reports true) :=
    .trans frame_rfxPrepare.sub frame_reports.sub
  have hw3 := hf2.canon hw2
  have hm2 : ((x.rfxPrepare).reports true).mem = x.rfxPrepare.mem := frame_reports.part .mem (by decide)
  have ho2 : ((x.rfxPrepare).reports true).olc = x.olc := hf2.part .olc (by decide)
  have hp2 : ((x.rfxPrepare).reports true).pkgState = 3 := (hf2.fget hw2).trans h1
  have hb2 := bank_of_frame hf2 hw2 rfl
  generalize (x.rfxPrepare).reports true = y at *
  rw [pairCheck_unreported hp2 (by rw [ho2, ho1]; exact hp)]
  have hwy : (y.fsetb F.olcStatus_pairReady false).regsWf = true := regsWf_fsetb hw3
  have hf3 := frame_banksShown (s := y.fsetb F.olcStatus_pairReady false)
  have hf4 : Frame [.regs] (.fld F.olcStatus_pairReady :: bankPlaces) y ((y.fsetb F.olcStatus_pairReady false).showBanks.countForces) :=
    .trans .fsetb hf3.sub
  refine ⟨(hf4.fget hw3).trans hp2, ?_, ?_, ?_, fun a ha => ?_⟩
  · rw [hf3.fbit hwy]
    exact fbit_fsetb hw3 (by decide) rfl
  · rw [hf4.part .olc (by decide)]
    show y.olc.plans = _
    rw [ho2, ho1]
  · rw [bank_of_frame hf4 hw3 rfl, hb2, hb1]
  · have hm4 : ((y.fsetb F.olcStatus_pairReady false).showBanks.countForces).mem = y.mem := hf4.part .mem (by decide)
    rw [hm4, hm2, byte_rfxPrepare ha]
    exact congrArg (fun m : Mem => m.byte a) hm1

/-! The partner's report (R173). -/

theorem pairCheck_ready {d : BitVec 128} (hp : s.pkgState = pkgChecked) (h : s.olc.partnerPkg = some (d, true)) (hd : d = s.bankDigest s.idle) :
    s.pairCheck = s.fsetb F.olcStatus_pairReady true := by
  rw [State.pairCheck, if_neg (fun hc => hc hp), h]
  exact if_pos (by rw [hd, Bool.true_and, beq_self_eq_true])

/-- A package refused for the partner's report. -/
def State.pairRefuse (s : State) : State :=
  (((s.setPkg pkgRefused).fset F.rfxStatus_exchPend 0).fsetb F.olcStatus_pairReady false).olcCode 0x0D 0

theorem pairCheck_refuses {d : BitVec 128} {ok : Bool} (hp : s.pkgState = pkgChecked) (h : s.olc.partnerPkg = some (d, ok))
    (hd : ¬ (ok = true ∧ d = s.bankDigest s.idle)) : s.pairCheck = s.pairRefuse := by
  rw [State.pairCheck, if_neg (fun hc => hc hp), h]
  exact if_neg (by rw [Bool.and_eq_true, beq_iff_eq]; exact hd)

/-- The report noted. -/
def State.reported (s : State) (d : BitVec 128) (ok : Bool) : State := { s with olc := { s.olc with partnerPkg := some (d, ok) } }

/-- A message acted on, and acknowledged. -/
def State.actedOn (s : State) (id : Nat) : State :=
  ({ s with pair := { s.pair with seen := id :: s.pair.seen } } : State).sendOnce (.drawbarAck id)

theorem frame_actedOn {id : Nat} : Frame [.out, .pair] [] s (s.actedOn id) := .trans .pair .sendOnce

theorem seen_actedOn {id : Nat} : (s.actedOn id).pair.seen = id :: s.pair.seen := by
  rw [State.actedOn, State.sendOnce]
  split <;> rfl

theorem onceOnly_acts {id : Nat} (h : s.fresh id) : s.onceOnly id t = .next (t.actedOn id) := onceOnly_fresh h

theorem pkgCheckReportRx_clauses {id : Nat} {d : BitVec 128} {ok : Bool} (hw : s.regsWf = true) (hf : s.fresh id)
    (hp : s.fget F.olcStatus_pkgState = 3) :
    ((ok = true ∧ d = s.bankDigest s.idle) → ∃ t, exec (.pkgCheckReportRx id d ok) s = .next t ∧
      t.fget F.olcStatus_pkgState = 3 ∧ t.fbit F.olcStatus_pairReady = true ∧ keepsRegs [R.olcStatus] s t ∧
      t.pair.seen = id :: s.pair.seen ∧ t.mem = s.mem) ∧
    (¬ (ok = true ∧ d = s.bankDigest s.idle) → ∃ t, exec (.pkgCheckReportRx id d ok) s = .next t ∧
      t.fget F.olcStatus_pkgState = 4 ∧ t.fbit F.olcStatus_pairReady = false ∧ t.rd R.olcRefuse = 0x0D ∧
      keepsRegs [R.olcStatus, R.olcRefuse, R.olcRefuseArg, R.rfxStatus] s t ∧ t.pair.seen = id :: s.pair.seen ∧ t.mem = s.mem) := by
  have hx : exec (.pkgCheckReportRx id d ok) s = .next (((s.reported d ok).pairCheck).actedOn id) := onceOnly_acts hf
  have hfr : Frame [.olc] [] s (s.reported d ok) := .olc
  have hwr := hfr.canon hw
  have hpr : (s.reported d ok).pkgState = pkgChecked := hp
  have hor : (s.reported d ok).olc.partnerPkg = some (d, ok) := rfl
  have hdr : (s.reported d ok).bankDigest (s.reported d ok).idle = s.bankDigest s.idle := rfl
  have hse : (s.reported d ok).pair = s.pair := rfl
  generalize s.reported d ok = u at *
  refine ⟨fun ⟨h1, h2⟩ => ?_, fun h => ?_⟩
  · subst h1
    rw [pairCheck_ready hpr hor (h2.trans hdr.symm)] at hx
    have hw1 : (u.fsetb F.olcStatus_pairReady true).regsWf = true := regsWf_fsetb hwr
    have hf1 := frame_actedOn (s := u.fsetb F.olcStatus_pairReady true) (id := id)
    have hft : Frame [.olc, .regs, .out, .pair] [.reg R.olcStatus] s ((u.fsetb F.olcStatus_pairReady true).actedOn id) :=
      .trans (.trans hfr.sub .fsetb) hf1.sub
    refine ⟨_, hx, ?_, ?_, hft.keepsRegs hw, ?_, hft.part .mem (by decide)⟩
    · rw [hf1.fget hw1, (.fsetb : Frame [.regs] [.fld F.olcStatus_pairReady] u _).fget hwr]
      exact hpr
    · rw [hf1.fbit hw1]
      exact fbit_fsetb hwr (by decide) rfl
    · rw [seen_actedOn, ← hse]
      rfl
  · rw [pairCheck_refuses hpr hor (by rw [hdr]; exact h)] at hx
    have hwa : ((u.setPkg pkgRefused).fset F.rfxStatus_exchPend 0).regsWf = true := regsWf_fset (regsWf_fset hwr)
    have hwb : (((u.setPkg pkgRefused).fset F.rfxStatus_exchPend 0).fsetb F.olcStatus_pairReady false).regsWf = true := regsWf_fsetb hwa
    have hfc := frame_olcCode (((u.setPkg pkgRefused).fset F.rfxStatus_exchPend 0).fsetb F.olcStatus_pairReady false) 0x0D 0
    have hwc : u.pairRefuse.regsWf = true := hfc.canon hwb
    have hf1 := frame_actedOn (s := u.pairRefuse) (id := id)
    have hfu : Frame [.regs, .recd] [.reg R.olcStatus, .reg R.olcRefuse, .reg R.olcRefuseArg, .reg R.rfxStatus] u u.pairRefuse :=
      .trans (.trans (.trans (frame_setPkg ..).sub .fset) .fsetb) hfc.sub
    have hft : Frame [.olc, .regs, .recd, .out, .pair] [.reg R.olcStatus, .reg R.olcRefuse, .reg R.olcRefuseArg, .reg R.rfxStatus] s
      (u.pairRefuse.actedOn id) := .trans (.trans hfr.sub hfu.sub) hf1.sub
    refine ⟨_, hx, ?_, ?_, ?_, hft.keepsRegs hw, ?_, hft.part .mem (by decide)⟩
    · rw [hf1.fget hwc, State.pairRefuse, hfc.fget hwb, (.fsetb : Frame [.regs] [.fld F.olcStatus_pairReady] _ _).fget hwa,
        fget_fset_off (by decide)]
      exact setPkg_shows hwr (by decide)
    · rw [hf1.fbit hwc, State.pairRefuse, hfc.fbit hwb]
      exact fbit_fsetb hwa (by decide) rfl
    · rw [hf1.rd hwc, State.pairRefuse, State.olcCode, rd_raise, rd_wr_ne (by decide), rd_wr_self hwb]
      rfl
    · rw [seen_actedOn, (hfu.part .pair (by decide) : u.pairRefuse.pair = u.pair), hse]

/-! A forwarded block (R171). -/

theorem pkgLoad_takes_drawbar {off : Nat} {data : List Byte} (ho : (s.fget F.olcStatus_pkgState = 0 ∧ off = 0) ∨
    (s.fget F.olcStatus_pkgState = 1 ∧ off = (s.rd R.olcLoaded).toNat)) (hl : off + data.length ≤ 0x1000000)
    (hg : (s.spanAccess clsDrawbar .write (s.idle + off) data.length).2 = true) :
    (s.pkgLoad clsDrawbar off data).1 = blockTaken s off data := by
  have hst : (s.pkgState == pkgEmpty) = true ∧ off = 0 ∨ (s.pkgState == pkgEmpty) = false ∧ s.pkgState = pkgLoading ∧ off = (s.rd R.olcLoaded).toNat := by
    obtain ⟨h, h0⟩ | ⟨h, h0⟩ := ho
    · exact .inl ⟨beq_iff_eq.mpr h, h0⟩
    · exact .inr ⟨beq_eq_false_iff_ne.mpr (by rw [State.pkgState, h]; decide), h, h0⟩
  have hcls : ¬ clsDrawbar = clsMc := by decide
  unfold State.pkgLoad
  dsimp only
  obtain ⟨h, h0⟩ | ⟨h, h1, h0⟩ := hst
  · rw [h, if_neg (fun hc => Bool.false_ne_true hc.1), if_pos rfl, if_neg (by omega)]
    simp only [if_neg hcls]
    rw [if_neg (by rw [hg]; decide), spanAccess_granted hg]
    rfl
  · rw [h, if_neg (fun hc => hc.2 h1), if_neg Bool.false_ne_true, if_neg (by omega)]
    simp only [if_neg hcls]
    rw [if_neg (by rw [hg]; decide), spanAccess_granted hg]
    rfl

theorem pkgBlockRx_takes {id off : Nat} {data : List Byte} (hi : s.Inv) (hf : s.fresh id) (hm : s.mod = .standby)
    (ho : (s.fget F.olcStatus_pkgState = 0 ∧ off = 0) ∨ (s.fget F.olcStatus_pkgState = 1 ∧ off = (s.rd R.olcLoaded).toNat))
    (h8 : off % 8 = 0) (hd : data.length % 8 = 0) (hl : off + data.length ≤ 0x1000000)
    (hg : (s.spanAccess clsDrawbar .write (s.idle + off) data.length).2 = true) :
    ∃ t, exec (.pkgBlockRx id off data) s = .next t ∧ wrote (s.idle + off) data s t ∧
        t.rd R.olcLoaded = BitVec.ofNat 32 (off + data.length) ∧ t.bank = s.bank ∧
        (t.fget F.olcStatus_pkgState = 1 ∨ t.fget F.olcStatus_pkgState = 2) ∧
        keepsRegs [R.olcStatus, R.olcLoaded] s t ∧ t.pair.seen = id :: s.pair.seen := by
  obtain ⟨hmw, hw⟩ := hi
  have hx : exec (.pkgBlockRx id off data) s = .next ((blockTaken s off data).actedOn id) := by
    have he : exec (.pkgBlockRx id off data) s = if s.mod = .standby ∨ s.mod = .syncing then s.onceOnly id (s.pkgLoad clsDrawbar off data).1
        else .next s := rfl
    rw [he, if_pos (.inl hm), pkgLoad_takes_drawbar ho hl hg]
    exact onceOnly_acts hf
  obtain ⟨h1, h2, h3, h4⟩ := blockTaken_shows (off := off) (data := data) hw
  have hw1 := h4.canon hw
  have hf1 := frame_actedOn (s := blockTaken s off data) (id := id)
  have hft : Frame [.regs, .mem, .olc, .out, .pair] [.reg R.olcStatus, .reg R.olcLoaded] s ((blockTaken s off data).actedOn id) :=
    .trans h4.sub hf1.sub
  have hidle : s.idle % 8 = 0 := by
    rw [State.idle]
    split <;> rfl
  refine ⟨_, hx, fun x => ?_, (hf1.rd hw1).trans h3, ?_, ?_, hft.keepsRegs hw, ?_⟩
  · rw [(hf1.part .mem (by decide) : ((blockTaken s off data).actedOn id).mem = _), h1]
    exact byte_write_whole _ _ _ hmw (by omega) hd
  · rw [bank_of_frame hf1 hw1 rfl, bank_of_frame h4 hw rfl]
  · rw [hf1.fget hw1]
    exact h2
  · rw [seen_actedOn, (h4.part .pair (by decide) : (blockTaken s off data).pair = s.pair)]

end Sys2Proof.Machine
end

section
/-! The carry-over (R173, R177, R186, R378), and the settlement of the statement of packages and carry-over. -/

namespace Sys2Proof.Machine

variable {s t u : State} {c : Carry}

/-! Spans that the CAT grants to MC. -/

theorem mcSpans_fold_refused {k : AccKind} {l : List (Nat × Nat)} {x : State × Bool} (h : x.2 = false) :
    l.foldl (fun (x : State × Bool) e => if !x.2 then x else x.1.mcAccess k e.1 e.2) x = x := by
  induction l with
  | nil => rfl
  | cons e l ih =>
    rw [List.foldl_cons, h]
    exact ih

theorem mcSpans_granted {k : AccKind} {l : List (Nat × Nat)} (h : (s.mcSpans k l).2 = true) : (s.mcSpans k l).1 = s := by
  induction l with
  | nil => rfl
  | cons e l ih =>
    have hc : s.mcSpans k (e :: l) = l.foldl (fun (x : State × Bool) e => if !x.2 then x else x.1.mcAccess k e.1 e.2) (s.mcAccess k e.1 e.2) := rfl
    by_cases hg : (s.mcAccess k e.1 e.2).2 = true
    · have he : s.mcAccess k e.1 e.2 = (s, true) := Prod.ext (mcAccess_granted hg) hg
      rw [hc, he] at h ⊢
      exact ih h
    · rw [hc, mcSpans_fold_refused (Bool.not_eq_true _ ▸ hg)] at h
      exact absurd h hg

theorem mem_mcSpans {k : AccKind} {l : List (Nat × Nat)} : (s.mcSpans k l).1.mem = s.mem :=
  (Frame.foldl_fst (fun _ _ => Frame.ite_fst (Frame.refl _) (frame_mcAccess ..)) _ _ _ :
    Frame [.regs, .cat, .recd] [.blk 0xf] s (s.mcSpans k l).1).part .mem (by decide)

/-! The undo (R186). -/

/-- Memory with the saved bytes of a carry-over put back. -/
def Carry.undone (c : Carry) (m : Mem) : Mem := c.saved.foldl (fun m e => m.putBytes e.1 e.2) m

theorem bytes_putBytes {l : List Byte} {a : Nat} {m n : Mem} (h : m.bytes = n.bytes) : (m.putBytes a l).bytes = (n.putBytes a l).bytes := by
  induction l generalizing a m n with
  | nil => exact h
  | cons b l ih =>
    refine ih ?_
    rw [Mem.setByte, Mem.setByte, h]

theorem bytes_undone {m n : Mem} (h : m.bytes = n.bytes) : (c.undone m).bytes = (c.undone n).bytes := by
  rw [Carry.undone, Carry.undone]
  generalize c.saved = l
  induction l generalizing m n with
  | nil => exact h
  | cons e l ih => exact ih (bytes_putBytes h)

/-- The destinations as they were, and the outcome noted. -/
def State.putBack (s : State) (c : Carry) (code : Nat) : State :=
  { s with mem := c.undone s.mem, olc := { s.olc with carry := none, outcome := some (code, 0) } }

theorem carryUndo_eq {n code : Nat} : s.carryUndo c n code none = (((s.putBack c code).setPkg n).olcCode code 0).bump R.olcFallbacks := rfl

theorem carryUndo_shows {n code : Nat} (hw : s.regsWf = true) (hn : n < 16) :
    let t := s.carryUndo c n code none
    t.olc = { s.olc with carry := none, outcome := some (code, 0) } ∧ t.fget F.olcStatus_pkgState = n ∧ t.rd R.olcRefuse = BitVec.ofNat 32 code ∧
      t.mem = c.undone s.mem ∧ keepsRegs [R.olcStatus, R.olcRefuse, R.olcRefuseArg, R.olcFallbacks] s t ∧
      (t.rd R.olcFallbacks).toNat = satAdd 32 (s.rd R.olcFallbacks).toNat 1 := by
  rw [carryUndo_eq]
  have hfp : Frame [.mem, .olc] [] s (s.putBack c code) := .patched rfl rfl rfl
  have hwp := hfp.canon hw
  have hmp : (s.putBack c code).mem = c.undone s.mem := rfl
  have hop : (s.putBack c code).olc = { s.olc with carry := none, outcome := some (code, 0) } := rfl
  generalize s.putBack c code = u at *
  have hst : (u.setPkg n).fget F.olcStatus_pkgState = n := setPkg_shows hwp hn
  have hw1 : (u.setPkg n).regsWf = true := regsWf_fset hwp
  have hf1 : Frame [.regs] [.reg R.olcStatus] u (u.setPkg n) := (frame_setPkg ..).sub
  generalize u.setPkg n = v at *
  have hf2 := frame_olcCode v code 0
  have hw2 := hf2.canon hw1
  have hrd : (v.olcCode code 0).rd R.olcRefuse = BitVec.ofNat 32 code := by
    rw [State.olcCode, rd_raise, rd_wr_ne (by decide), rd_wr_self hw1]
  have hfb : (v.olcCode code 0).rd R.olcFallbacks = s.rd R.olcFallbacks := by rw [hf2.rd hw1, hf1.rd hwp, hfp.rd hw]
  have hf3 : Frame [.regs, .recd] [.reg R.olcRefuse, .reg R.olcRefuseArg, .reg R.olcFallbacks] v ((v.olcCode code 0).bump R.olcFallbacks) :=
    .trans hf2.sub .bump
  have hf : Frame [.mem, .olc, .regs, .recd] [.reg R.olcStatus, .reg R.olcRefuse, .reg R.olcRefuseArg, .reg R.olcFallbacks] s
    ((v.olcCode code 0).bump R.olcFallbacks) := .trans (.trans hfp.sub hf1.sub) hf3.sub
  refine ⟨?_, ?_, ?_, ?_, hf.keepsRegs hw, ?_⟩
  · rw [hf3.part .olc (by decide), hf1.part .olc (by decide), hop]
  · rw [hf3.fget hw1, hst]
  · rw [State.bump, State.bumpBy, rd_wr_ne (by decide), hrd]
  · rw [hf3.part .mem (by decide), hf1.part .mem (by decide), hmp]
  · rw [toNat_rd_bump hw2, hfb]

/-! `CARRY_OVER_COMPLETE` and `CARRY_OVER_DEADLINE`. -/

/-- Every destination written. -/
def State.carried (s : State) (c : Carry) : State := { s with
  mem := c.writes.foldl (fun m e => m.write e.1 e.2) s.mem
  olc := { s.olc with carry := some { c with
    done := true, crc := c.writes.foldl (fun g e => sigBytes g e.2) (BitVec.allOnes 64) } } }

section
variable {v : Option Nat} (hc : s.olc.carry = some c) (hd : c.done = false) (hp : s.fget F.olcStatus_pkgState = 6)
include hc hd hp

theorem exec_carryOverComplete_runs (hs : c.stuck = false) : exec (.carryOverComplete v) s = .next (match s.carryBad with
    | some a => (s.eccUe a false).carryUndo c pkgChecked 0x20 v
    | none => if !(s.mcSpans .write (c.writes.map (fun e => (e.1, e.2.length)))).2 then
        { (s.mcSpans .write (c.writes.map (fun e => (e.1, e.2.length)))).1 with
          olc := { (s.mcSpans .write (c.writes.map (fun e => (e.1, e.2.length)))).1.olc with carry := some { c with stuck := true } } }
      else { (s.mcSpans .write (c.writes.map (fun e => (e.1, e.2.length)))).1 with
        mem := c.writes.foldl (fun m e => m.write e.1 e.2) s.mem
        olc := { (s.mcSpans .write (c.writes.map (fun e => (e.1, e.2.length)))).1.olc with carry := some { c with
          done := true, crc := c.writes.foldl (fun g e => sigBytes g e.2) (BitVec.allOnes 64) } } }) := by
  have h1 : (s.pkgState == pkgCarrying) = true := beq_iff_eq.mpr hp
  have he : exec (.carryOverComplete v) s = execCarryOverComplete v s := rfl
  rw [he, execCarryOverComplete, hc]
  dsimp only
  rw [hd, hs, h1]
  exact when_pos rfl

theorem carryOverComplete_writes (hs : c.stuck = false) (hb : s.carryBad = none)
    (hg : (s.mcSpans .write (c.writes.map (fun e => (e.1, e.2.length)))).2 = true) : exec (.carryOverComplete v) s = .next (s.carried c) := by
  rw [exec_carryOverComplete_runs hc hd hp hs, hb]
  dsimp only
  rw [hg, mcSpans_granted hg]
  rfl

theorem carryOverComplete_sticks (hs : c.stuck = false) (hb : s.carryBad = none)
    (hg : (s.mcSpans .write (c.writes.map (fun e => (e.1, e.2.length)))).2 = false) :
    ∃ t, exec (.carryOverComplete v) s = .next t ∧ t.olc.carry = some { c with stuck := true } ∧ t.mem = s.mem := by
  refine ⟨_, exec_carryOverComplete_runs hc hd hp hs, ?_⟩
  rw [hb]
  dsimp only
  rw [hg]
  exact ⟨rfl, mem_mcSpans⟩

theorem carryOverComplete_undoes (hw : s.regsWf = true) (hs : c.stuck = false) {a : Nat} (hb : s.carryBad = some a) :
    ∃ t, exec (.carryOverComplete none) s = .next t ∧ t.olc.carry = none ∧ t.fget F.olcStatus_pkgState = 3 ∧ t.rd R.olcRefuse = 0x20 ∧
      t.mem.bytes = (c.undone s.mem).bytes ∧ (t.rd R.olcFallbacks).toNat = satAdd 32 (s.rd R.olcFallbacks).toNat 1 := by
  refine ⟨_, exec_carryOverComplete_runs hc hd hp hs, ?_⟩
  rw [hb]
  have hf := frame_eccUe s a false
  have hm : (s.eccUe a false).mem.bytes = s.mem.bytes := by
    unfold State.eccUe
    rfl
  have hr : (s.eccUe a false).rd R.olcFallbacks = s.rd R.olcFallbacks := hf.rd hw
  obtain ⟨h1, h2, h3, h4, -, h6⟩ := carryUndo_shows (c := c) (n := pkgChecked) (code := 0x20) (hf.canon hw) (by decide)
  dsimp only
  refine ⟨by rw [h1], h2, h3, ?_, by rw [h6, hr]⟩
  rw [h4]
  exact bytes_undone hm

theorem carryOverDeadline_undoes (hw : s.regsWf = true) :
    ∃ t, exec (.carryOverDeadline none) s = .next t ∧ t.olc.carry = none ∧ t.fget F.olcStatus_pkgState = 5 ∧
      t.rd R.olcRefuse = 0x21 ∧ t.mem = c.undone s.mem ∧ t.olc.outcome = some (0x21, 0) ∧
      keepsRegs [R.olcStatus, R.olcRefuse, R.olcRefuseArg, R.olcFallbacks] s t ∧
      (t.rd R.olcFallbacks).toNat = satAdd 32 (s.rd R.olcFallbacks).toNat 1 := by
  have h1 : (s.pkgState == pkgCarrying) = true := beq_iff_eq.mpr hp
  have he : exec (.carryOverDeadline none) s = .next (s.carryUndo c pkgArmed 0x21 none) := by
    have hx : exec (.carryOverDeadline none) s = execCarryOverDeadline none s := rfl
    rw [hx, execCarryOverDeadline, hc]
    dsimp only
    rw [hd, h1]
    exact when_pos rfl
  obtain ⟨h1, h2, h3, h4, h5, h6⟩ := carryUndo_shows (c := c) (n := pkgArmed) (code := 0x21) hw (by decide)
  exact ⟨_, he, by rw [h1], h2, h3, h4, by rw [h1], h5, h6⟩

end

/-! The statement. -/

/-- Settles O23: the check, the report, the forwarded block, and the four ends of a carry-over. -/
theorem packagesAndCarryOver : Obligations.PackagesAndCarryOver := by
  unfold Obligations.PackagesAndCarryOver
  refine ⟨fun plans s hw => ⟨fun h => when_neg (beq_eq_false_iff_ne.mpr h), fun code arg h hc => packageCheckDone_refuses hw h hc,
    fun h hc hp => packageCheckDone_passes hw h hc hp⟩, fun id digest ok s hw hf hp => pkgCheckReportRx_clauses hw hf hp,
    fun id off data s hi hf hm ho h8 hd hl hg => pkgBlockRx_takes hi hf hm ho h8 hd hl hg, fun c s hi hc hd hp => ?_⟩
  exact ⟨fun v hs hb hg => carryOverComplete_writes hc hd hp hs hb hg, fun v hs hb hg => carryOverComplete_sticks hc hd hp hs hb hg,
    fun a hs hb => carryOverComplete_undoes hc hd hp hi.2 hs hb, carryOverDeadline_undoes hc hd hp hi.2⟩

end Sys2Proof.Machine
end
